-- ==== Sys2Proof/Word.lean ====
section
/-! DEFINITION. Sys2Proof/Word.lean: the word and byte types of the FA-768's registers, stores and Millpond. -/

namespace Sys2Proof

/-- A register word (R7): every BAR0 register is 32 bits wide. -/
abbrev Word := BitVec 32

/-- A byte of Millpond, of a serial frame or of host memory. -/
abbrev Byte := BitVec 8

/-- A nano-word (R146): 256 bits. -/
abbrev Nano := BitVec 256

end Sys2Proof
end

