-- ==== Sys2Proof/Syntax.lean ====
section
/-! DEFINITION. Sys2Proof/Syntax.lean: the commands and events of the FA-768, one constructor per row of
spec/opcode_table.json, and the types of their operands. -/

namespace Sys2Proof

/-- A cluster n, 0 to 23 (R2). -/
abbrev Cluster := Fin 24
/-- A channel c of a cluster, 0 to 31 (R2). -/
abbrev Channel := Fin 32
/-- A host domain h, H0 to H3 (R359). -/
abbrev Dom := Fin 4
/-- A requester of the register slave: 0 to 3 the hosts H0 to H3, 4 Cap, 5 the management serial slave (R371). -/
abbrev Req := Fin 6
/-- A trigger unit of a cluster (R251). -/
abbrev Unit8 := Fin 8
/-- A bank of Millpond (R326). -/
abbrev Bank := Fin 64
/-- A semaphore (R349). -/
abbrev Sem := Fin 16
/-- A sensor: junction sensors 0 to 27, remote diodes 28 to 35 (R438). -/
abbrev Sensor := Fin 36
/-- An event or fault source (R512, R513). -/
abbrev Source := Fin 1152

/-- A setting of the parametric unit whose write is judged under R105: CH_PM_CTRL (FMODE and REF) and the codes. -/
inductive PmSetting where
  | ctrl | fv | fi | iclh | icll | vclh | vcll
  deriving DecidableEq, Repr

/-- The parameter registers of the DDS (R298). -/
inductive DdsReg where
  | ftwLo | ftwHi | poffLo | poffHi | amp
  deriving DecidableEq, Repr

/-- A word of a cluster's stores in the register view (R142): micro-store word a, slot j of nano-word i, or a word of the
library view. -/
inductive StoreAddr where
  | micro (a : BitVec 16)
  | nano (i : BitVec 12) (j : Fin 8)
  | libMicro (a : BitVec 12)
  | libNano (i : BitVec 9) (j : Fin 8)
  deriving DecidableEq, Repr

/-- A trim of a cluster (R452): word w of channel c, or generator trim k. -/
inductive TrimAddr where
  | channel (c : Channel) (w : Fin 64)
  | generator (g : Fin 2)
  deriving DecidableEq, Repr

/-- What a comparator's self-check meets (R68, R69, R70): the node beyond the hysteresis band throughout and the outputs
differing, the node inside the band throughout, the node entering, leaving or crossing the band, or, for a known-level
check, the two outputs read. -/
inductive CheckObs where
  | outside (differ : Bool)
  | inside
  | crossing
  | levels (below above : Bool)
  deriving DecidableEq, Repr

/-- A sensor conversion as it comes from the converter: a temperature in sixteenths of a degree, or no valid reading
(open, short) for the sensor (R439, R440). -/
inductive SensorObs where
  | temp (sixteenths : Int)
  | invalid (kind : Fin 4)
  deriving DecidableEq, Repr

/-- The causes of a DOMAIN reset (R359, R370). -/
inductive DomCause where
  | flr | hotReset | linkDown
  deriving DecidableEq, Repr

/-- A requester of Millrace: stream k + 1 of cluster n (R340), or a lottery requester 0 to 7 (R343; 7 is calibration and
the boot loader). -/
inductive MillReq where
  | cluster (n : Cluster) (k : Fin 6)
  | host (h : Dom)
  | cap
  | mgmt
  | life
  | cal
  deriving DecidableEq, Repr

/-- What an access does: a plain read or write, or an atomic bit-set or bit-clear (R333). -/
inductive MillOp where
  | read (len : Nat)
  | write (bytes : List Byte)
  | atomic (clear : Bool) (bytes : List Byte)
  deriving DecidableEq, Repr

/-- How a life-record write fares (R485). -/
inductive LifeObs where
  | good
  | timeout
  | mismatch
  deriving DecidableEq, Repr

/-- The commands the part takes from outside and the events of its own that the model lets happen: one constructor per
row of spec/opcode_table.json, in the table's order. `t` is the Clasp time, in ROOT ticks, at which it happens. -/
inductive Instr where
  /-- REGISTER_WRITE (R367). -/
  | registerWrite (t : Nat) (r : Req) (a : BitVec 26) (data : Word) (be : BitVec 4) (size : Nat)
  /-- SAFE_REQUEST (R36). -/
  | safeRequest (t : Nat) (r : Req) (n : Cluster) (c : Channel) (data : Word)
  /-- SAFE_ENTRY_COMPLETE (R34). -/
  | safeEntryComplete (t : Nat) (n : Cluster) (c : Channel)
  /-- SWITCH_CLOSE (R38). -/
  | switchClose (t : Nat) (r : Req) (n : Cluster) (c : Channel) (data : Word)
  /-- SWITCH_CLOSED (R38). -/
  | switchClosed (t : Nat) (n : Cluster) (c : Channel)
  /-- SWITCH_OPEN (R39). -/
  | switchOpen (t : Nat) (r : Req) (n : Cluster) (c : Channel) (data : Word)
  /-- DRV_OC (R46). -/
  | drvOc (t : Nat) (n : Cluster) (c : Channel)
  /-- LEVEL_SET_SELECT (R52). -/
  | levelSetSelect (t : Nat) (r : Req) (n : Cluster) (c : Channel) (data : Word)
  /-- LVL_SETTLED (R52). -/
  | lvlSettled (t : Nat) (n : Cluster) (c : Channel)
  /-- CMP_CONFIG_WRITE (R60). -/
  | cmpConfigWrite (t : Nat) (r : Req) (n : Cluster) (c : Channel) (data : Word)
  /-- COMPARATOR_RESOLVE (R61). -/
  | comparatorResolve (t : Nat) (n : Cluster) (c : Channel) (low above : Bool)
  /-- COMPARATOR_EDGE (R72). -/
  | comparatorEdge (t : Nat) (n : Cluster) (c : Channel) (low out : Bool) (ball : Nat)
  /-- BLANK_TIMER_START (R67). -/
  | blankTimerStart (t : Nat) (r : Req) (n : Cluster) (data : Word)
  /-- BLANK_TIMER_EXPIRE (R67). -/
  | blankTimerExpire (t : Nat) (n : Cluster)
  /-- BLANK_WINDOW_END (R66). -/
  | blankWindowEnd (t : Nat) (n : Cluster) (c : Channel)
  /-- SELFCHK_START (R71). -/
  | selfchkStart (t : Nat) (r : Req) (n : Cluster) (c : Channel) (data : Word)
  /-- SELFCHK_DONE (R70). -/
  | selfchkDone (t : Nat) (n : Cluster) (c : Channel) (h l : CheckObs)
  /-- PM_FORCE_ENABLE (R83). -/
  | pmForceEnable (t : Nat) (r : Req) (n : Cluster) (c : Channel) (data : Word)
  /-- PM_RANGE_CHANGE (R87). -/
  | pmRangeChange (t : Nat) (r : Req) (n : Cluster) (c : Channel) (data : Word)
  /-- PM_RANGE_SETTLED (R86). -/
  | pmRangeSettled (t : Nat) (n : Cluster) (c : Channel)
  /-- PM_SETTING_WRITE (R105). -/
  | pmSettingWrite (t : Nat) (r : Req) (n : Cluster) (c : Channel) (w : PmSetting) (data : Word)
  /-- PM_START (R94). -/
  | pmStart (t : Nat) (r : Req) (n : Cluster) (c : Channel) (data : Word)
  /-- PM_CONT (R97). -/
  | pmCont (t : Nat) (r : Req) (n : Cluster) (c : Channel) (data : Word)
  /-- PM_CONVERSION_DONE (R93). -/
  | pmConversionDone (t : Nat) (n : Cluster) (c : Channel) (mean : Int)
  /-- PM_MEAS_DONE (R95). -/
  | pmMeasDone (t : Nat) (n : Cluster) (c : Channel)
  /-- PM_MEAS_END_EARLY (R96). -/
  | pmMeasEndEarly (t : Nat) (n : Cluster) (c : Channel)
  /-- PM_CLAMP_BEGIN (R89). -/
  | pmClampBegin (t : Nat) (n : Cluster) (c : Channel) (volt : Bool)
  /-- PM_OC (R102). -/
  | pmOc (t : Nat) (n : Cluster) (c : Channel)
  /-- PM_RES_READ (R110). -/
  | pmResRead (t : Nat) (r : Req) (n : Cluster) (c : Channel)
  /-- TIMING_EDGE (R121). -/
  | timingEdge (t : Nat) (n : Cluster) (c : Channel) (e : Fin 6)
  /-- TIMING_DLL_LOCK (R131). -/
  | timingDllLock (t : Nat) (n : Cluster)
  /-- TIMING_DLL_UNLOCK (R132). -/
  | timingDllUnlock (t : Nat) (n : Cluster)
  /-- BAND_EVALUATE (R133). -/
  | bandEvaluate (t : Nat) (n : Cluster)
  /-- BAND_STALE (R136). -/
  | bandStale (t : Nat) (n : Cluster)
  /-- BAND_SWITCH (R134). -/
  | bandSwitch (t : Nat) (n : Cluster)
  /-- VEC (R148). -/
  | vec (t : Nat) (n : Cluster)
  /-- MVEC (R151). -/
  | mvec (t : Nat) (n : Cluster)
  /-- HSET (R154). -/
  | hset (t : Nat) (n : Cluster)
  /-- JMP (R148). -/
  | jmp (t : Nat) (n : Cluster)
  /-- CALL (R148). -/
  | call (t : Nat) (n : Cluster)
  /-- RET (R148). -/
  | ret (t : Nat) (n : Cluster)
  /-- LDC (R148). -/
  | ldc (t : Nat) (n : Cluster)
  /-- LOOP (R148). -/
  | loop (t : Nat) (n : Cluster)
  /-- JM (R174). -/
  | jm (t : Nat) (n : Cluster)
  /-- JNM (R174). -/
  | jnm (t : Nat) (n : Cluster)
  /-- JF (R174). -/
  | jf (t : Nat) (n : Cluster)
  /-- JNF (R174). -/
  | jnf (t : Nat) (n : Cluster)
  /-- CLRF (R151). -/
  | clrf (t : Nat) (n : Cluster)
  /-- CSEL (R150). -/
  | csel (t : Nat) (n : Cluster)
  /-- RPT (R148). -/
  | rpt (t : Nat) (n : Cluster)
  /-- WTRIG (R152). -/
  | wtrig (t : Nat) (n : Cluster)
  /-- WCT (R153). -/
  | wct (t : Nat) (n : Cluster)
  /-- HOLD (R177). -/
  | hold (t : Nat) (n : Cluster)
  /-- RMARK (R201). -/
  | rmark (t : Nat) (n : Cluster)
  /-- RBEG (R198). -/
  | rbeg (t : Nat) (n : Cluster)
  /-- RUNW (R211). -/
  | runw (t : Nat) (n : Cluster)
  /-- SEL (R150). -/
  | sel (t : Nat) (n : Cluster)
  /-- WRI (R155). -/
  | wri (t : Nat) (n : Cluster)
  /-- WRN (R155). -/
  | wrn (t : Nat) (n : Cluster)
  /-- MST (R155). -/
  | mst (t : Nat) (n : Cluster)
  /-- MWAIT (R155). -/
  | mwait (t : Nat) (n : Cluster)
  /-- STOP (R180). -/
  | stop (t : Nat) (n : Cluster)
  /-- ILLEGAL_WORD (R157). -/
  | illegalWord (t : Nat) (n : Cluster)
  /-- STORE_WRITE (R166). -/
  | storeWrite (t : Nat) (r : Req) (n : Cluster) (w : StoreAddr) (data : Word) (be : BitVec 4)
  /-- STORE_READ (R165). -/
  | storeRead (t : Nat) (r : Req) (n : Cluster) (w : StoreAddr)
  /-- SEQ_START (R178). -/
  | seqStart (t : Nat) (r : Req) (n : Cluster) (data : Word)
  /-- SEQ_ABORT (R180). -/
  | seqAbort (t : Nat) (r : Req) (n : Cluster) (data : Word)
  /-- SEQ_RELEASE (R177). -/
  | seqRelease (t : Nat) (r : Req) (n : Cluster) (data : Word)
  /-- SEQ_RUN_START (R178). -/
  | seqRunStart (t : Nat) (n : Cluster)
  /-- VECTOR_ISSUE (R170). -/
  | vectorIssue (t : Nat) (n : Cluster)
  /-- STALL_END (R191). -/
  | stallEnd (t : Nat) (n : Cluster)
  /-- VECTOR_COMPLETE (R183). -/
  | vectorComplete (t : Nat) (n : Cluster)
  /-- LOG_RECORD_WRITE (R185). -/
  | logRecordWrite (t : Nat) (n : Cluster)
  /-- PATTERN_END (R181). -/
  | patternEnd (t : Nat) (n : Cluster)
  /-- HOPPER_ENABLE (R186). -/
  | hopperEnable (t : Nat) (r : Req) (n : Cluster) (data : Word)
  /-- HOPPER_DESCRIPTOR (R187). -/
  | hopperDescriptor (t : Nat) (n : Cluster)
  /-- HOPPER_CHUNK (R188). -/
  | hopperChunk (t : Nat) (n : Cluster)
  /-- HOPPER_FLUSH (R194). -/
  | hopperFlush (t : Nat) (r : Req) (n : Cluster) (data : Word)
  /-- ROUTINE_INTERRUPT (R204). -/
  | routineInterrupt (t : Nat) (n : Cluster)
  /-- RESUME (R210). -/
  | resume (t : Nat) (r : Req) (n : Cluster) (data : Word)
  /-- ABANDON (R211). -/
  | abandon (t : Nat) (r : Req) (n : Cluster) (data : Word)
  /-- ROUTINE_RESULT_WRITE (R218). -/
  | routineResultWrite (t : Nat) (n : Cluster)
  /-- PATCH_GO (R223). -/
  | patchGo (t : Nat) (r : Req) (data : Word)
  /-- PATCH_VERIFIED (R220). -/
  | patchVerified (t : Nat)
  /-- PATCH_CANCEL (R223). -/
  | patchCancel (t : Nat) (r : Req) (data : Word)
  /-- PATCH_APPLY (R223). -/
  | patchApply (t : Nat)
  /-- STAMP_DLL_LOCK (R233). -/
  | stampDllLock (t : Nat) (n : Cluster)
  /-- STAMP_DLL_UNLOCK (R233). -/
  | stampDllUnlock (t : Nat) (n : Cluster)
  /-- COARSE_WRAP (R232). -/
  | coarseWrap (t : Nat)
  /-- STAMP_RECORD_WRITE (R236). -/
  | stampRecordWrite (t : Nat) (n : Cluster)
  /-- RG_START (R238). -/
  | rgStart (t : Nat) (r : Req) (n : Cluster) (c : Channel) (data : Word)
  /-- RG_STOP (R243). -/
  | rgStop (t : Nat) (r : Req) (n : Cluster) (c : Channel) (data : Word)
  /-- RG_GATE_OPEN (R239). -/
  | rgGateOpen (t : Nat) (n : Cluster) (c : Channel)
  /-- RG_GATE_END (R242). -/
  | rgGateEnd (t : Nat) (n : Cluster) (c : Channel)
  /-- RG_STAT_READ (R245). -/
  | rgStatRead (t : Nat) (r : Req) (n : Cluster) (c : Channel)
  /-- TRIGGER_EVALUATE (R253). -/
  | triggerEvaluate (t : Nat) (n : Cluster) (j : Nat)
  /-- TRIGGER_REARM (R263). -/
  | triggerRearm (t : Nat) (n : Cluster) (u : Unit8)
  /-- TRIGGER_ARM (R262). -/
  | triggerArm (t : Nat) (r : Req) (n : Cluster) (u : Unit8) (data : Word)
  /-- TRIGGER_DISARM (R262). -/
  | triggerDisarm (t : Nat) (r : Req) (n : Cluster) (u : Unit8) (data : Word)
  /-- TRIGGER_RECORD_WRITE (R268). -/
  | triggerRecordWrite (t : Nat) (n : Cluster)
  /-- CAPTURE_START (R272). -/
  | captureStart (t : Nat) (r : Req) (n : Cluster) (e : Fin 2) (data : Word)
  /-- CAPTURE_STOP (R273). -/
  | captureStop (t : Nat) (r : Req) (n : Cluster) (e : Fin 2) (data : Word)
  /-- CAPTURE_INTERVAL_END (R274). -/
  | captureIntervalEnd (t : Nat) (n : Cluster) (e : Fin 2)
  /-- CAPTURE_RECORD_WRITE (R275). -/
  | captureRecordWrite (t : Nat) (n : Cluster) (e : Fin 2)
  /-- AWG_START (R291). -/
  | awgStart (t : Nat) (r : Req) (n : Cluster) (g : Fin 2) (data : Word)
  /-- AWG_RUN_START (R291). -/
  | awgRunStart (t : Nat) (n : Cluster) (g : Fin 2)
  /-- AWG_STOP (R292). -/
  | awgStop (t : Nat) (r : Req) (n : Cluster) (g : Fin 2) (data : Word)
  /-- AWG_COMMIT_POINT (R288). -/
  | awgCommitPoint (t : Nat) (n : Cluster) (g : Fin 2)
  /-- AWG_PASS_END (R288). -/
  | awgPassEnd (t : Nat) (n : Cluster) (g : Fin 2)
  /-- AWG_FETCH (R290). -/
  | awgFetch (t : Nat) (n : Cluster) (g : Fin 2)
  /-- AWG_JUMP_REQUEST (R293). -/
  | awgJumpRequest (t : Nat) (r : Req) (n : Cluster) (g : Fin 2) (data : Word)
  /-- AWG_TABLE_WRITE (R287). -/
  | awgTableWrite (t : Nat) (r : Req) (n : Cluster) (g : Fin 2) (data : Word)
  /-- DDS_REG_WRITE (R298). -/
  | ddsRegWrite (t : Nat) (r : Req) (n : Cluster) (g : Fin 2) (w : DdsReg) (data : Word)
  /-- AUX_SC_TIMEOUT (R283). -/
  | auxScTimeout (t : Nat) (n : Cluster) (g : Fin 2)
  /-- AUX_RECON (R283). -/
  | auxRecon (t : Nat) (r : Req) (n : Cluster) (g : Fin 2) (data : Word)
  /-- AWG_CLR_ASSERT (R299). -/
  | awgClrAssert (t : Nat)
  /-- AWG_CLR_RELEASE (R299). -/
  | awgClrRelease (t : Nat)
  /-- CAP_GO (R308). -/
  | capGo (t : Nat) (r : Req) (data : Word)
  /-- CAP_CHECK_DONE (R308). -/
  | capCheckDone (t : Nat)
  /-- CAP_ABORT (R317). -/
  | capAbort (t : Nat) (r : Req) (data : Word)
  /-- CAP_POLL (R318). -/
  | capPoll (t : Nat) (reply : List Byte)
  /-- CAP_RECORD_START (R311). -/
  | capRecordStart (t : Nat)
  /-- CAP_TIMEOUT (R311). -/
  | capTimeout (t : Nat)
  /-- CAP_RECORD_END (R314). -/
  | capRecordEnd (t : Nat)
  /-- CAP_DLOG_WRITE (R320). -/
  | capDlogWrite (t : Nat)
  /-- CAP_FINISH (R319). -/
  | capFinish (t : Nat)
  /-- MILLRACE_ACCESS (R332). -/
  | millraceAccess (t : Nat) (q : MillReq) (x : MillOp) (a : Nat) (rivals : List (Fin 8 × (MillOp × Nat)))
  /-- LOTTERY_BACKOFF_END (R345). -/
  | lotteryBackoffEnd (t : Nat) (q : Fin 8)
  /-- BANK_OWN_WRITE (R330). -/
  | bankOwnWrite (t : Nat) (r : Req) (b : Bank) (data : Word)
  /-- BANK_HANDOVER_DONE (R331). -/
  | bankHandoverDone (t : Nat) (b : Bank)
  /-- BANK_STATE_WRITE (R336). -/
  | bankStateWrite (t : Nat) (r : Req) (b : Bank) (data : Word)
  /-- BANK_STATE_DONE (R336). -/
  | bankStateDone (t : Nat) (b : Bank)
  /-- SLC_DATA_ACCESS (R356). -/
  | slcDataAccess (t : Nat) (r : Req) (write : Bool) (data : Word)
  /-- SLUICE_COMMIT (R342). -/
  | sluiceCommit (t : Nat) (r : Req) (data : Word)
  /-- SLUICE_APPLY (R342). -/
  | sluiceApply (t : Nat)
  /-- LOT_COMMIT (R346). -/
  | lotCommit (t : Nat) (r : Req) (data : Word)
  /-- LFSR_RESEED (R356). -/
  | lfsrReseed (t : Nat) (r : Req) (data : Word)
  /-- SEM_ACQ (R350). -/
  | semAcq (t : Nat) (r : Req) (k : Sem) (data : Word)
  /-- SEM_REL (R350). -/
  | semRel (t : Nat) (r : Req) (k : Sem) (data : Word)
  /-- CAL_SEM_ACQUIRE (R352). -/
  | calSemAcquire (t : Nat)
  /-- BAR2_READ (R363). -/
  | bar2Read (t : Nat) (h : Dom) (a len : Nat)
  /-- BAR2_WRITE (R333). -/
  | bar2Write (t : Nat) (h : Dom) (a : Nat) (bytes : List Byte)
  /-- DMA_ENABLE (R365). -/
  | dmaEnable (t : Nat) (r : Req) (h : Dom) (k : Fin 2) (data : Word)
  /-- DMA_DESCRIPTOR (R365). -/
  | dmaDescriptor (t : Nat) (h : Dom) (k : Fin 2) (host : List Byte)
  /-- DMA_HOST_TIMEOUT (R366). -/
  | dmaHostTimeout (t : Nat) (h : Dom) (k : Fin 2)
  /-- MGMT_OWNER_WRITE (R368). -/
  | mgmtOwnerWrite (t : Nat) (r : Req) (data : Word)
  /-- DOMAIN_RESET (R370). -/
  | domainReset (t : Nat) (h : Dom) (cause : DomCause)
  /-- D3HOT_ENTRY (R347). -/
  | d3hotEntry (t : Nat) (h : Dom)
  /-- LINK_UP (R359). -/
  | linkUp (t : Nat) (h : Dom) (rate width : Nat)
  /-- TXN_BEGIN (R377). -/
  | txnBegin (t : Nat) (r : Req) (h : Dom) (data : Word)
  /-- TXN_COMMIT (R379). -/
  | txnCommit (t : Nat) (r : Req) (h : Dom) (data : Word)
  /-- TXN_COMMIT_CYCLE (R381). -/
  | txnCommitCycle (t : Nat) (h : Dom)
  /-- TXN_ROLLBACK (R383). -/
  | txnRollback (t : Nat) (r : Req) (h : Dom) (data : Word)
  /-- RING_ENABLE (R392). -/
  | ringEnable (t : Nat) (r : Req) (data : Word)
  /-- RING_SLOT (R391). -/
  | ringSlot (t : Nat) (slot : List Byte) (arr : Nat)
  /-- RING_BYPASS_CHANGE (R392). -/
  | ringBypassChange (t : Nat) (close : Bool)
  /-- RING_START (R403). -/
  | ringStart (t : Nat)
  /-- RING_ABORT (R404). -/
  | ringAbort (t : Nat)
  /-- RING_ABORT_REQUEST (R404). -/
  | ringAbortRequest (t : Nat) (r : Req) (data : Word)
  /-- RING_TRIGGER (R402). -/
  | ringTrigger (t : Nat)
  /-- RING_TIME (R397). -/
  | ringTime (t : Nat)
  /-- RING_ACC (R397). -/
  | ringAcc (t : Nat)
  /-- RING_RESID (R397). -/
  | ringResid (t : Nat)
  /-- RING_HEALTH (R406). -/
  | ringHealth (t : Nat)
  /-- RING_ROUND_START (R397). -/
  | ringRoundStart (t : Nat)
  /-- RING_RECAL (R397). -/
  | ringRecal (t : Nat) (r : Req) (data : Word)
  /-- RING_LOOP_RETURN (R397). -/
  | ringLoopReturn (t : Nat)
  /-- RING_STEP_APPLY (R398). -/
  | ringStepApply (t : Nat)
  /-- RING_ROUND_TIMEOUT (R398). -/
  | ringRoundTimeout (t : Nat)
  /-- RING_MSG_RETRY (R395). -/
  | ringMsgRetry (t : Nat)
  /-- HEARTBEAT_SEND (R405). -/
  | heartbeatSend (t : Nat)
  /-- HEARTBEAT_LOST (R406). -/
  | heartbeatLost (t : Nat) (p : Fin 32)
  /-- REFCLK_WINDOW (R415). -/
  | refclkWindow (t : Nat) (count : Nat)
  /-- PLL_LOCK (R416). -/
  | pllLock (t : Nat) (lock : Bool)
  /-- ROOT_JUDGEMENT (R416). -/
  | rootJudgement (t : Nat) (count : Nat)
  /-- AON_SWITCH (R412). -/
  | aonSwitch (t : Nat) (forced : Bool)
  /-- SLEEP_REQUEST (R423). -/
  | sleepRequest (t : Nat) (r : Req) (data : Word)
  /-- AUTO_SLEEP (R423). -/
  | autoSleep (t : Nat)
  /-- SLEEP_ENTER (R423). -/
  | sleepEnter (t : Nat)
  /-- WAKE (R427). -/
  | wake (t : Nat)
  /-- CLUSTER_GATE (R428). -/
  | clusterGate (t : Nat) (n : Cluster)
  /-- RAIL_FAULT (R431). -/
  | railFault (t : Nat) (rail : Fin 5)
  /-- POR (R431). -/
  | por (t : Nat) (core : Bool)
  /-- WARM_RESET (R432). -/
  | warmReset (t : Nat) (assert : Bool)
  /-- SHUTDOWN (R435). -/
  | shutdown (t : Nat) (r : Req) (data : Word)
  /-- SENSOR_CONVERSION (R441). -/
  | sensorConversion (t : Nat) (j : Sensor) (reading : SensorObs)
  /-- GOVERNOR_STOP (R445). -/
  | governorStop (t : Nat) (n : Cluster)
  /-- NOM_BUDGET_WRITE (R444). -/
  | nomBudgetWrite (t : Nat) (r : Req) (n : Cluster) (power : Bool) (data : Word)
  /-- REFCAL (R449). -/
  | refcal (t : Nat) (r : Req) (data : Word)
  /-- REF_CALIBRATION (R449). -/
  | refCalibration (t : Nat) (microvolt : Nat)
  /-- CAL_CERT_WRITE (R460). -/
  | calCertWrite (t : Nat) (r : Req) (data : Word)
  /-- TRIM_WRITE (R451). -/
  | trimWrite (t : Nat) (r : Req) (n : Cluster) (w : TrimAddr) (data : Word)
  /-- TRIM_RAMP_STEP (R451). -/
  | trimRampStep (t : Nat) (n : Cluster) (w : TrimAddr)
  /-- CAL_REQ (R454). -/
  | calReq (t : Nat) (r : Req) (n : Cluster) (data : Word)
  /-- CAL_DUE (R454). -/
  | calDue (t : Nat) (n : Cluster)
  /-- CAL_STEP_START (R455). -/
  | calStepStart (t : Nat) (n : Cluster)
  /-- CAL_STEP_END (R458). -/
  | calStepEnd (t : Nat) (n : Cluster) (res : List (Nat × Word))
  /-- CAL_STEP_ABANDON (R456). -/
  | calStepAbandon (t : Nat) (n : Cluster)
  /-- CAL_DEADLINE_INTERRUPT (R457). -/
  | calDeadlineInterrupt (t : Nat) (n : Cluster)
  /-- FAULT_MESSAGE (R468). -/
  | faultMessage (t : Nat)
  /-- FAULT_WINDOW_CLOSE (R468). -/
  | faultWindowClose (t : Nat)
  /-- FAULT_RECOVER (R473). -/
  | faultRecover (t : Nat) (k : Source)
  /-- FAULT_INJECT (R486). -/
  | faultInject (t : Nat) (r : Req) (data : Word)
  /-- BEZEL (R465). -/
  | bezel (t : Nat) (n : Cluster)
  /-- ASSAY_REQUEST (R476). -/
  | assayRequest (t : Nat) (r : Req) (data : Word)
  /-- ASSAY_RUN_START (R477). -/
  | assayRunStart (t : Nat) (n : Cluster)
  /-- ASSAY_OUTCOME (R478). -/
  | assayOutcome (t : Nat) (n : Cluster) (failCluster : Bool) (failCh : Word)
  /-- RETIRE_WRITE (R479). -/
  | retireWrite (t : Nat) (r : Req) (cluster : Option Cluster) (data : Word)
  /-- LIFE_RECORD_WRITE (R485). -/
  | lifeRecordWrite (t : Nat) (obs : LifeObs)
  /-- BOOT_START (R492). -/
  | bootStart (t : Nat) (image : List Byte) (slots : List (List Byte))
  /-- BOOT_COMPLETE (R492). -/
  | bootComplete (t : Nat)
  /-- PSM_FRAME (R496). -/
  | psmFrame (t : Nat) (r : Req) (data : Word)
  /-- PSM_FRAME_DONE (R496). -/
  | psmFrameDone (t : Nat) (rx : List Byte)
  /-- MSP_FRAME (R497). -/
  | mspFrame (t : Nat) (read : Bool) (a : Byte) (bytes : List Byte) (k : Fin 8) (bits : Byte)
  /-- MSP_WIN_RD (R499). -/
  | mspWinRd (t : Nat)
  /-- MSP_WIN_WR (R499). -/
  | mspWinWr (t : Nat)
  /-- MSP_WIN_ACCESS (R499). -/
  | mspWinAccess (t : Nat)
  /-- IN_SEND (R500). -/
  | inSend (t : Nat)
  /-- OUT_ACK (R500). -/
  | outAck (t : Nat)
  /-- IN_ACK (R500). -/
  | inAck (t : Nat) (r : Req) (data : Word)
  /-- OUT_SEND (R500). -/
  | outSend (t : Nat) (r : Req) (data : Word)
  /-- EVENT_MESSAGE (R516). -/
  | eventMessage (t : Nat) (h : Dom) (k : Source)
  /-- ID_LOCK (R511). -/
  | idLock (t : Nat) (r : Req) (data : Word)
  /-- EXTEST (R537). -/
  | extest (t : Nat)
  /-- SAMPLE_PRELOAD (R536). -/
  | samplePreload (t : Nat)
  /-- IDCODE (R536). -/
  | idcode (t : Nat)
  /-- HIGHZ (R537). -/
  | highz (t : Nat)
  /-- CLAMP (R537). -/
  | clamp (t : Nat)
  /-- BYPASS (R536). -/
  | bypass (t : Nat)
  /-- D3HOT_EXIT (R347). -/
  | d3hotExit (t : Nat) (h : Dom)
  /-- LO_REGISTER_READ (R375). -/
  | loRegisterRead (t : Nat) (r : Req) (a : BitVec 26)
  /-- AWG_SAMPLE_BOUNDARY (R296). -/
  | awgSampleBoundary (t : Nat) (n : Cluster) (g : Fin 2)
  /-- AUX_CURRENT_LIMIT (R283). -/
  | auxCurrentLimit (t : Nat) (n : Cluster) (g : Fin 2)
  /-- INTERNAL_OSCILLATOR_FAIL (R414). -/
  | internalOscillatorFail (t : Nat)
  /-- RAIL_RETURN_IN_RANGE (R484). -/
  | railReturnInRange (t : Nat) (rail : Fin 5) (micros : Nat)
  /-- PWRGD_RISE (R433). -/
  | pwrgdRise (t : Nat)
  /-- TEST_LOGIC_RESET (R537). -/
  | testLogicReset (t : Nat)
  /-- POWER_ON_MINUTE (R484). -/
  | powerOnMinute (t : Nat)
  /-- PATCH_APPLIED (R223). -/
  | patchApplied (t : Nat)
  /-- CLUSTER_RESET_END (R509). -/
  | clusterResetEnd (t : Nat) (n : Cluster)
  /-- CAL_INTERRUPT_END (R457). -/
  | calInterruptEnd (t : Nat) (n : Cluster)
  deriving DecidableEq, Repr

end Sys2Proof
end

