-- ==== Sys2Proof/Decode.lean ====
section
/-! DEFINITION. Sys2Proof/Decode.lean: the table gives its rows no bits, so no word spells a command; and the microwords of
R146 to R148: what a 32-bit word says to the micro-sequencer, and the word of each. -/

namespace Sys2Proof

/-- The command a word spells by the table's bits: the table gives no row any bits, so none does. -/
def decodeTableWord (_nbits _w : Nat) : Option Instr := none

/-- A microword (R146, R148), its fields by the layout letters of R146. -/
inductive Micro where
  | vec (nano : BitVec 12) (ts : BitVec 6) (rep : BitVec 8)
  | mvec (nano : BitVec 12) (ts : BitVec 6) (rep : BitVec 8)
  | hset (nano : BitVec 12) (ts : BitVec 6) (rep : BitVec 8)
  | jmp (lib : BitVec 1) (a : BitVec 16)
  | call (lib : BitVec 1) (a : BitVec 16)
  | ret
  | ldc (ctr : BitVec 3) (cnt : BitVec 23)
  | loop (ctr : BitVec 3) (lib : BitVec 1) (a : BitVec 16)
  | jm (lib : BitVec 1) (a : BitVec 16)
  | jnm (lib : BitVec 1) (a : BitVec 16)
  | jf (lib : BitVec 1) (a : BitVec 16)
  | jnf (lib : BitVec 1) (a : BitVec 16)
  | clrf
  | csel (nano : BitVec 12)
  | rpt (cnt : BitVec 26)
  | wtrig (timeout : BitVec 18) (units : BitVec 8)
  | wct (nano : BitVec 12) (pair : BitVec 2) (rel : BitVec 1)
  | hold (cnt : BitVec 26)
  | rmark (id : BitVec 16)
  | rbeg (id : BitVec 16)
  | runw (lib : BitVec 1) (a : BitVec 16)
  | sel (nano : BitVec 12)
  | wri (word : BitVec 5) (value : BitVec 20)
  | wrn (word : BitVec 5) (nano : BitVec 12) (slot : BitVec 3)
  | mst (r : BitVec 16)
  | mwait
  | stop (code : BitVec 8)
  deriving DecidableEq, Repr

/-- The opcode of a microword (R148). -/
def Micro.op : Micro → BitVec 6
  | .vec .. => 0x01#6
  | .mvec .. => 0x02#6
  | .hset .. => 0x03#6
  | .jmp .. => 0x08#6
  | .call .. => 0x09#6
  | .ret => 0x0A#6
  | .ldc .. => 0x0B#6
  | .loop .. => 0x0C#6
  | .jm .. => 0x0D#6
  | .jnm .. => 0x0E#6
  | .jf .. => 0x0F#6
  | .jnf .. => 0x10#6
  | .clrf => 0x11#6
  | .csel .. => 0x12#6
  | .rpt .. => 0x13#6
  | .wtrig .. => 0x18#6
  | .wct .. => 0x19#6
  | .hold .. => 0x1A#6
  | .rmark .. => 0x20#6
  | .rbeg .. => 0x21#6
  | .runw .. => 0x22#6
  | .sel .. => 0x23#6
  | .wri .. => 0x24#6
  | .wrn .. => 0x25#6
  | .mst .. => 0x26#6
  | .mwait => 0x27#6
  | .stop .. => 0x3F#6

/-- What a 32-bit word says to the sequencer; reserved bits are ignored (R146); none for an opcode that R148 does not list. -/
def decodeMicro (w : Word) : Option Micro :=
  let nano := w.extractLsb' 14 12
  let lib := w.extractLsb' 16 1
  let a := w.extractLsb' 0 16
  match (w.extractLsb' 26 6).toNat with
  | 0x01 => some (.vec nano (w.extractLsb' 8 6) (w.extractLsb' 0 8))
  | 0x02 => some (.mvec nano (w.extractLsb' 8 6) (w.extractLsb' 0 8))
  | 0x03 => some (.hset nano (w.extractLsb' 8 6) (w.extractLsb' 0 8))
  | 0x08 => some (.jmp lib a)
  | 0x09 => some (.call lib a)
  | 0x0A => some .ret
  | 0x0B => some (.ldc (w.extractLsb' 23 3) (w.extractLsb' 0 23))
  | 0x0C => some (.loop (w.extractLsb' 23 3) lib a)
  | 0x0D => some (.jm lib a)
  | 0x0E => some (.jnm lib a)
  | 0x0F => some (.jf lib a)
  | 0x10 => some (.jnf lib a)
  | 0x11 => some .clrf
  | 0x12 => some (.csel nano)
  | 0x13 => some (.rpt (w.extractLsb' 0 26))
  | 0x18 => some (.wtrig (w.extractLsb' 8 18) (w.extractLsb' 0 8))
  | 0x19 => some (.wct nano (w.extractLsb' 12 2) (w.extractLsb' 0 1))
  | 0x1A => some (.hold (w.extractLsb' 0 26))
  | 0x20 => some (.rmark a)
  | 0x21 => some (.rbeg a)
  | 0x22 => some (.runw lib a)
  | 0x23 => some (.sel nano)
  | 0x24 => some (.wri (w.extractLsb' 20 5) (w.extractLsb' 0 20))
  | 0x25 => some (.wrn (w.extractLsb' 20 5) (w.extractLsb' 8 12) (w.extractLsb' 5 3))
  | 0x26 => some (.mst a)
  | 0x27 => some .mwait
  | 0x3F => some (.stop (w.extractLsb' 0 8))
  | _ => none

/-- The word of a microword, its reserved bits 0 (R146, R148). -/
def encodeMicro (m : Micro) : Word :=
  match m with
  | .vec n t r | .mvec n t r | .hset n t r => m.op ++ (n ++ (t ++ r))
  | .jmp l a | .call l a | .jm l a | .jnm l a | .jf l a | .jnf l a | .runw l a => m.op ++ (0#9 ++ (l ++ a))
  | .ret | .clrf | .mwait => m.op ++ 0#26
  | .ldc c k => m.op ++ (c ++ k)
  | .loop c l a => m.op ++ (c ++ (0#6 ++ (l ++ a)))
  | .csel n | .sel n => m.op ++ (n ++ 0#14)
  | .rpt k | .hold k => m.op ++ k
  | .wtrig t u => m.op ++ (t ++ u)
  | .wct n p r => m.op ++ (n ++ (p ++ (0#11 ++ r)))
  | .rmark i | .rbeg i | .mst i => m.op ++ (0#10 ++ i)
  | .wri w v => m.op ++ (0#1 ++ (w ++ v))
  | .wrn w n k => m.op ++ (0#1 ++ (w ++ (n ++ (k ++ 0#5))))
  | .stop c => m.op ++ (0#18 ++ c)

end Sys2Proof
end

