-- ==== Sys2Proof/Config.lean ====
section
/-! DEFINITION. Sys2Proof/Config.lean: what a part fixes at manufacture (R542) and the free values, which the manual
leaves open. Each is an opaque constant: nothing in Lean can evaluate it, so a statement about it holds for every value. -/

namespace Sys2Proof.Config

/-- Free word number k: a value the manual does not state (notes/assumptions/2.md). -/
opaque freeWord : Nat → Word
/-- Free bit number k (notes/assumptions/2.md). -/
opaque freeBool : Nat → Bool
/-- Free number k: an unstated natural number (notes/assumptions/2.md). -/
opaque freeNat : Nat → Nat
/-- Free bit of live condition j of the analog side, at Clasp time t and point k (notes/assumptions/2.md). -/
opaque freeLive : Nat → Nat → Nat → Bool
/-- Free byte number k (notes/assumptions/2.md). -/
opaque freeByte : Nat → Byte

/-- What a LOOP on loop counter c leaves in it when it holds 0: the manual decrements it and states no result
there (notes/assumptions/2.md). -/
opaque loopZero : Nat → Nat

/-- What the vector of number `seqNo` of cluster n issues as nano-word i while that word's page is being rewritten: which content
is not defined (R189, notes/assumptions/3.md). -/
opaque rewritten : Nat → Nat → Nat → BitVec 256

/-- DEV_STEP (R511, R542): the silicon stepping, set at manufacture. -/
opaque devStep : Word
/-- DEV_UID_LO (R511, R542). -/
opaque devUidLo : Word
/-- DEV_UID_HI (R511, R542). -/
opaque devUidHi : Word
/-- HALLMARK_MINVER (R226, R542): the lowest library VERSION the part accepts. -/
opaque hallmarkMinVer : Word
/-- HALLMARK_KEYHASH word i (R226, R542): the SHA-256 of the library-signing public key. -/
opaque hallmarkKeyHash : Nat → Word
/-- MP_REPAIR of bank b (R338, R355, R542): the column repairs made at manufacture. -/
opaque mpRepair : Nat → Word
/-- Kalost's fused manufacturer code of IDCODE (R536), its low 11 bits. -/
opaque tapMaker : Nat
/-- How near to the boundary between two codes a weighted mean must lie, in thousandths of a sample LSB, for the result
to be undefined (R543): the manual says "within a fraction of an LSB". -/
opaque convBand : Nat

end Sys2Proof.Config
end

