-- ==== Sys2Proof/Machine/Bits.lean ====
section
/-! DEFINITION. Sys2Proof/Machine/Bits.lean: fields of words, sign extension, byte enables, rounding. -/

namespace Sys2Proof.Machine

/-- The field of `len` bits whose lowest bit is `lo`, as a number. -/
def fld (w : Word) (lo len : Nat) : Nat := w.toNat / 2 ^ lo % 2 ^ len

/-- The word whose `len` bits from `lo` are 1. -/
def maskAt (lo len : Nat) : Word := BitVec.ofNat 32 ((2 ^ len - 1) * 2 ^ lo)

/-- `w` with the field of `len` bits at `lo` holding `v` (its low `len` bits). -/
def putFld (w : Word) (lo len v : Nat) : Word :=
  (w &&& ~~~ maskAt lo len) ||| BitVec.ofNat 32 (v % 2 ^ len * 2 ^ lo)

/-- Bit `i` of `w`. -/
def bitOf (w : Word) (i : Nat) : Bool := w.getLsbD i

/-- `w` with bit `i` equal to `b`. -/
def putBit (w : Word) (i : Nat) (b : Bool) : Word :=
  if b then w ||| BitVec.ofNat 32 (2 ^ i) else w &&& ~~~ BitVec.ofNat 32 (2 ^ i)

/-- 0 or 1. -/
def b2n (b : Bool) : Nat := if b then 1 else 0

/-- The bits enabled by the four byte enables `be` of a write (R507). -/
def byteMask (be : BitVec 4) : Word :=
  (if be.getLsbD 0 then 0x000000FF#32 else 0#32) ||| (if be.getLsbD 1 then 0x0000FF00#32 else 0#32) |||
  (if be.getLsbD 2 then 0x00FF0000#32 else 0#32) ||| (if be.getLsbD 3 then 0xFF000000#32 else 0#32)

/-- The two's-complement reading of the low `len` bits of `v`. -/
def signed (len v : Nat) : Int :=
  if v % 2 ^ len < 2 ^ (len - 1) then (v % 2 ^ len : Nat) else ((v % 2 ^ len : Nat) : Int) - (2 ^ len : Nat)

/-- The `len`-bit two's-complement code of `x`. -/
def unsigned (len : Nat) (x : Int) : Nat := (x % ((2 ^ len : Nat) : Int)).toNat

/-- `x` limited to lo … hi. -/
def clampInt (lo hi x : Int) : Int := if x < lo then lo else if hi < x then hi else x

/-- num / den to the nearest integer, ties to even (R92). -/
def roundEven (num : Int) (den : Nat) : Int :=
  let q := num / (den : Int)
  let r := num % (den : Int)
  if 2 * r < den then q else if (den : Int) < 2 * r then q + 1 else if q % 2 = 0 then q else q + 1

/-- num / den to the nearest integer, ties away from zero (R87). -/
def roundAway (num : Int) (den : Nat) : Int :=
  if 0 ≤ num then (2 * num + den) / (2 * (den : Int)) else - ((2 * (- num) + den) / (2 * (den : Int)))

/-- num / den rounded up. -/
def ceilDiv (num den : Nat) : Nat := (num + den - 1) / den

/-- `x + 1`, staying at `top` once there. -/
def satInc (top x : Nat) : Nat := if x < top then x + 1 else top

/-- The low and the high word of a 64-bit time. -/
def loWord (t : Nat) : Word := BitVec.ofNat 32 t
def hiWord (t : Nat) : Word := BitVec.ofNat 32 (t / 2 ^ 32)

/-- The number whose low and high words are given. -/
def ofWords (lo hi : Word) : Nat := lo.toNat + hi.toNat * 2 ^ 32

/-- The indices i < k for which `p i` holds, ascending. -/
def indicesWhere (k : Nat) (p : Nat → Bool) : List Nat := (List.range k).filter p

end Sys2Proof.Machine
end

