-- ==== Sys2Proof/Machine/Regs.lean ====
section
/-! DEFINITION. Sys2Proof/Machine/Regs.lean: the register table of the FA-768: every register's name, its place in BAR0
(R503, R504, R505), which bits an accepted plain write stores (RW), which bits a written 1 clears (W1C), its value after
POR, and which bits WARM and CLUSTER resets leave as they were (the Reset columns). Written from the field tables of the
chapters. Registers of cluster windows (R504) are indexed with the cluster first. -/

namespace Sys2Proof.Machine

/-- The registers of BAR0, by the names the chapters give them. EDGE_TAB, LEVEL_TAB, CORR_TAB, FIX_TAB, STCORR_TAB,
AWG_TRIM and CH_TRIM are the word arrays of R118, R48, R128, R129, R234 and R452. -/
inductive Reg where
  | DEV_ID | DEV_STEP | DEV_UID_LO | DEV_UID_HI | DEV_CAP | ID_CARD | ID_SLOT | ID_LOCK | ID_CLU_RST | HALLMARK_VER 
  | HALLMARK_BUILD | HALLMARK_STAT | HALLMARK_MINVER | HALLMARK_KEYHASH | HALLMARK_PATCH_ADDR | HALLMARK_PATCH_LEN 
  | HALLMARK_PATCH_CTRL | DOM_SELF | DOM_MGMT | DOM_CLU | DOM_WREF_INFO | DOM_WREF_ADDR | HL_STAT | HL_CTRL | HL_EVT 
  | HL_EVT_EN | HL_RERR | HL_RERR_ADDR | HDMA0_CTRL | HDMA0_RING_LO | HDMA0_RING_HI | HDMA0_RSIZE | HDMA0_TAIL 
  | HDMA0_HEAD | HDMA1_CTRL | HDMA1_RING_LO | HDMA1_RING_HI | HDMA1_RSIZE | HDMA1_TAIL | HDMA1_HEAD | TXN_CTRL 
  | TXN_STAT | TXN_TIME_LO | TXN_TIME_HI | TXN_RES | TXN_FAIL_ADDR | TXN_FAIL_RES | TXN_TDONE_LO | TXN_TDONE_HI 
  | TXN_CNT | EVT_STAT | EVT_PEND0 | EVT_PEND1 | EVT_PEND2 | EVT_PEND3 | EVT_ROUTE | FLT_CTRL | FLT_STAT 
  | FLT_MERGE_CNT | FLT_QUIET | FLT_EVT | FLT_EVT_EN | FLT_INJECT_LO | FLT_INJECT_HI | FLT_RET_CLU | FLT_RET_CH 
  | FLT_STICKY | FLT_ACTIVE | FLT_REACT | FLT_RECOV | ASY_CTRL | ASY_MASK | ASY_EVT | ASY_EVT_EN | ASY_STAT 
  | ASY_TGT | ASY_RUNS | ASY_PASS | ASY_FAIL | BANK_OWN | BANK_STATE | MP_REPAIR | MP_ALIAS | MP_EVT | MP_EVT_EN 
  | MP_REFUSE_CNT | MP_COLL_CNT | MP_REFUSE_ADDR | MP_REFUSE_INFO | SLC_IDX | SLC_DATA | SLC_COMMIT | SLC_STAT 
  | LOT_TKT | LOT_COMMIT | LOT_LFSR | LOT_STAT | SEM_ACQ | SEM_REL | SEM_STAT | SEM_RES | SEM_DENIED | SEM_EVT 
  | SEM_EVT_EN | CLK_STAT | CLK_REF_LAST | CLK_REF_JUDGES | CLK_PLL_CFG | CLK_PLL_LAST | CLK_FAULT_CNT | CLK_GAP 
  | PWR_CTRL | PWR_STAT | PWR_AUTO_T | PWR_WAKE_EN | PWR_WAKE_TIME_LO | PWR_WAKE_TIME_HI | PWR_BANK_RET_LO 
  | PWR_BANK_RET_HI | PWR_CLU_GATE | PWR_RAIL | PWR_SLEEP_CNT | CLK_EVT | CLK_EVT_EN | GOV_CTRL | GOV_STAT 
  | GOV_SUM_IBUD | GOV_SUM_PBUD | GOV_EVT | GOV_EVT_EN | GOV_NOM_IBUD | GOV_NOM_PBUD | GOV_CLU | THS_TEMP | THS_LIM 
  | THS_RATE | THS_DIODE | THS_SCOPE | CAL_CTRL | CAL_STAT | CAL_REFV_CERT | CAL_REFV_MEAS | CAL_RATE | CAL_GRACE 
  | CAL_REF_INTV | CAL_INTV | CAL_EVT | CAL_EVT_EN | RING_CTRL | RING_CFG | RING_STAT | RING_WIRE | RING_TLEAD 
  | RING_LINE_TX | RING_TCFG | RING_HB | RING_TERR | RING_TFINE | RING_TIME_LO | RING_TIME_HI | RING_ROUNDS 
  | RING_CRCERR | RING_TLOST | RING_MSGFAIL | RING_EVT | RING_EVT_EN | RING_PEER | RING_PEERX | BOOT_STAT 
  | BOOT_SECERR | BOOT_CFG_CNT | BOOT_IMG_LEN | PSM_CTRL | PSM_STAT | PSM_TX | PSM_RX | MSP_HSTAT | MSP_HCTRL 
  | MBX_IN | MBX_OUT | SER_EVT | SER_EVT_EN | CAP_CTRL | CAP_STAT | CAP_ERRIDX | CAP_FLOW_BASE | CAP_MAP_BASE 
  | CAP_MAP_CNT | CAP_LEAD | CAP_PRB | CAP_RING_MASK | CAP_DLOG_BASE | CAP_DLOG_SIZE | CAP_DLOG_WPTR | CAP_DLOG_RPTR 
  | CAP_RT_BASE | CAP_RT_CNT | CAP_DMA | CAP_HBUF_LO | CAP_HBUF_HI | CAP_HBUF_SIZE | CAP_FLOWNO | CAP_TF_LO 
  | CAP_TF_HI | CAP_TEND_LO | CAP_TEND_HI | CAP_EVT | CAP_EVT_EN | CAP_FENCE | CAP_HBIN_CNT | CAP_SBIN_CNT 
  | CAP_SITE | LR_BASE | LR_STAGE | LR_STAT | LR_SEQ | LR_TLAST_LO | LR_TLAST_HI | LR_EVT | LR_EVT_EN | CL_SEQ_CTRL 
  | CL_SEQ_ADDR | CL_SEQ_TSTART_LO | CL_SEQ_TSTART_HI | CL_SEQ_STAT | CL_SEQ_PC | CL_SEQ_RES | CL_SEQ_VCNT_LO 
  | CL_SEQ_VCNT_HI | CL_SEQ_STALLS | CL_SEQ_HOLDV | CL_SEQ_BUBBLES | CL_SEQ_TEND_LO | CL_SEQ_TEND_HI | CL_SEQ_LOG 
  | CL_SEQ_LOST | CL_SEQ_EVT | CL_SEQ_EVT_EN | CL_SEQ_FFVALID | CL_SEQ_FCNT | CL_SEQ_FFIRST | CL_HOP_CTRL 
  | CL_HOP_RING | CL_HOP_RSIZE | CL_HOP_TAIL | CL_HOP_HEAD | CL_HOP_LVL | CL_HOP_STAT | CL_HOP_LEVEL 
  | CL_HOP_LOG_BASE | CL_HOP_LOG_SIZE | CL_HOP_LOG_WPTR | CL_HOP_LOG_RPTR | CL_HOP_EVT | CL_HOP_EVT_EN | CL_TS_STAT 
  | CL_TS_WIN_BASE | CL_TS_WIN_SIZE | CL_TS_WIN_WPTR | CL_TS_WIN_RPTR | CL_TS_LOST | CL_TS_EPOCH | CL_TS_DONE 
  | CL_TS_EVT | CL_TS_EVT_EN | CL_CAL_CTRL | CL_CAL_STAT | CL_CAL_CNT | CL_CAL_TLAST_LO | CL_CAL_TLAST_HI 
  | CL_CAL_DUE_LO | CL_CAL_DUE_HI | CL_CAL_EVT | CL_CAL_EVT_EN | CL_CAL_QUAL | CL_STORE_STAT | CL_STORE_EVT 
  | CL_STORE_EVT_EN | CL_STORE_PAR_ADDR | CL_STORE_PAR_CNT | CL_STORE_ILL_ADDR | CL_STORE_CTRL | CL_TIM_CTRL 
  | CL_TIM_STAT | CL_TIM_PEND_AGE | CL_TIM_EVT | CL_TIM_EVT_EN | CL_TIM_BAND_CNT | CL_TS_PER | CL_BLANK_TMR 
  | CL_PM_IBUD | CL_PM_PBUD | CL_PM_ICLAIM | CL_PM_PCLAIM | CH_CTRL | CH_STAT | CH_LVL | CH_CMP | CH_CMP_STAT 
  | CH_BLANK | CH_SELFCHK | CH_WAKE | CH_EVT | CH_EVT_EN | CH_OC_CNT | CH_PM_CTRL | CH_PM_FV | CH_PM_FI | CH_PM_ICLH 
  | CH_PM_ICLL | CH_PM_VCLH | CH_PM_VCLL | CH_PM_APER | CH_PM_STAT | CH_PM_RES | CH_PM_RES_TLO | CH_PM_RES_THI 
  | CH_PM_SAMPLE | CH_PM_ICLAIM | CH_PM_PCLAIM | CH_PM_OC_CNT | EDGE_TAB | LEVEL_TAB | CORR_TAB | FIX_TAB 
  | STCORR_TAB | AWG_TRIM | CH_TRIM | CL_TRG_CFG | CL_TRG_SRC | CL_TRG_LIMA | CL_TRG_LIMB | CL_TRG_ACT 
  | CL_TRG_HOLDOFF | CL_TRG_MISSED | CL_TRG_FIRECNT | CL_TRG_MVAL_H | CL_TRG_MVAL_L | CL_TRG_MMASK_H 
  | CL_TRG_MMASK_L | CL_TRG_CTRL | CL_TRG_USTAT | CL_TRG_STAT | CL_TRG_WIN_BASE | CL_TRG_WIN_SIZE | CL_TRG_WIN_WPTR 
  | CL_TRG_WIN_RPTR | CL_TRG_RECNO | CL_TRG_EVT | CL_TRG_EVT_EN | CL_CAP_CTRL | CL_CAP_MASK | CL_CAP_IVAL 
  | CL_CAP_WIN_BASE | CL_CAP_WIN_SIZE | CL_CAP_WIN_WPTR | CL_CAP_WIN_RPTR | CL_CAP_T0_LO | CL_CAP_T0_HI 
  | CL_CAP_STAT | CL_CAP_ICNT | CL_CAP_LOST | CL_CAP_EVT | CL_CAP_EVT_EN | CL_AWG_CTRL | CL_AWG_STAT 
  | CL_AWG_TSTART_LO | CL_AWG_TSTART_HI | CL_AWG_ROUTE | CL_AWG_CLR | CL_AWG_JUMP | CL_AWG_JCFG | CL_AWG_TIDX 
  | CL_AWG_TDATA_LO | CL_AWG_TDATA_HI | CL_AWG_FTW_LO | CL_AWG_FTW_HI | CL_AWG_POFF_LO | CL_AWG_POFF_HI | CL_AWG_AMP 
  | CL_AWG_JCNT | CL_AWG_JLOST | CL_AWG_TJUMP_LO | CL_AWG_TJUMP_HI | CL_AWG_EVT | CL_AWG_EVT_EN | CH_TS_CTRL 
  | CH_TS_DEAD_RISE | CH_TS_DEAD_FALL | CH_RG_CTRL | CH_RG_STAT | CH_RG_TSTART_LO | CH_RG_TSTART_HI | CH_RG_GLEN_LO 
  | CH_RG_GLEN_HI | CH_RG_N_LO | CH_RG_N_HI | CH_RG_EDGES_LO | CH_RG_EDGES_HI | CH_RG_PER_LO | CH_RG_PER_HI 
  | CH_RG_FREQ_LO | CH_RG_FREQ_HI | CH_RG_RESID | CH_RG_FINE | CH_RG_FIRST_LO | CH_RG_FIRST_HI | CH_RG_LAST_LO 
  | CH_RG_LAST_HI | CH_RG_DISC | CH_RG_NINT | CL_MR_CMD | CL_MR_STAT | CL_MR_ID | CL_MR_RADDR | CL_MR_UADDR 
  | CL_MR_DIGEST | CL_MR_TOUCHED | CL_MR_REFUSE | CL_MR_RES_BASE | CL_MR_RES_CNT | CL_MR_EVT | CL_MR_EVT_EN 
  | CL_MR_LC
  deriving DecidableEq, Repr

/-- One row of the register table. `base`, `count`, `stride`: element j < count of a global register lies at BAR0 address
base + j * stride; of a cluster's register, at that offset of the cluster's window. `rw`: bits that store what is written
(RW, LCK, RWS). `w1c`: bits a written 1 clears. `por`: the value after POR. `warm`, `clu`: bits that WARM and CLUSTER
resets leave unchanged. -/
structure RegRow where
  cluster : Bool
  base : Nat
  count : Nat
  stride : Nat
  rw : Word
  w1c : Word
  por : Word
  warm : Word
  clu : Word
  deriving DecidableEq, Repr

/-- The row of a register (blocks without reset entries for CLUSTER keep everything: they are global). -/
def Reg.row : Reg → RegRow
  | .DEV_ID => ⟨false, 0x0, 1, 0x4, 0x0#32, 0x0#32, 0x4b0f0768#32, 0x0#32, 0xffffffff#32⟩
  | .DEV_STEP => ⟨false, 0x4, 1, 0x4, 0x0#32, 0x0#32, 0x0#32, 0x0#32, 0xffffffff#32⟩
  | .DEV_UID_LO => ⟨false, 0x8, 1, 0x4, 0x0#32, 0x0#32, 0x0#32, 0x0#32, 0xffffffff#32⟩
  | .DEV_UID_HI => ⟨false, 0xc, 1, 0x4, 0x0#32, 0x0#32, 0x0#32, 0x0#32, 0xffffffff#32⟩
  | .DEV_CAP => ⟨false, 0x10, 1, 0x4, 0x0#32, 0x0#32, 0x300418#32, 0x0#32, 0xffffffff#32⟩
  | .ID_CARD => ⟨false, 0x14, 1, 0x4, 0xffffffff#32, 0x0#32, 0x0#32, 0xffffffff#32, 0xffffffff#32⟩
  | .ID_SLOT => ⟨false, 0x18, 1, 0x4, 0x1f#32, 0x0#32, 0x0#32, 0xffffffff#32, 0xffffffff#32⟩
  | .ID_LOCK => ⟨false, 0x1c, 1, 0x4, 0x0#32, 0x0#32, 0x0#32, 0xffffffff#32, 0xffffffff#32⟩
  | .ID_CLU_RST => ⟨false, 0x20, 1, 0x4, 0x0#32, 0x0#32, 0x0#32, 0xffffffff#32, 0xffffffff#32⟩
  | .HALLMARK_VER => ⟨false, 0x100, 1, 0x4, 0x0#32, 0x0#32, 0x0#32, 0xffffffff#32, 0xffffffff#32⟩
  | .HALLMARK_BUILD => ⟨false, 0x104, 1, 0x4, 0x0#32, 0x0#32, 0x0#32, 0xffffffff#32, 0xffffffff#32⟩
  | .HALLMARK_STAT => ⟨false, 0x108, 1, 0x4, 0x0#32, 0x800#32, 0x0#32, 0xffffffff#32, 0xffffffff#32⟩
  | .HALLMARK_MINVER => ⟨false, 0x10c, 1, 0x4, 0x0#32, 0x0#32, 0x0#32, 0x0#32, 0xffffffff#32⟩
  | .HALLMARK_KEYHASH => ⟨false, 0x110, 8, 0x4, 0x0#32, 0x0#32, 0x0#32, 0x0#32, 0xffffffff#32⟩
  | .HALLMARK_PATCH_ADDR => ⟨false, 0x130, 1, 0x4, 0x3ffffc0#32, 0x0#32, 0x0#32, 0xffffffff#32, 0xffffffff#32⟩
  | .HALLMARK_PATCH_LEN => ⟨false, 0x134, 1, 0x4, 0xffff#32, 0x0#32, 0x0#32, 0xffffffff#32, 0xffffffff#32⟩
  | .HALLMARK_PATCH_CTRL => ⟨false, 0x138, 1, 0x4, 0x4#32, 0x0#32, 0x0#32, 0xffffffff#32, 0xffffffff#32⟩
  | .DOM_SELF => ⟨false, 0x1000, 1, 0x4, 0x0#32, 0x0#32, 0x0#32, 0x0#32, 0xffffffff#32⟩
  | .DOM_MGMT => ⟨false, 0x1004, 1, 0x4, 0x7#32, 0x0#32, 0x7#32, 0xffffffff#32, 0xffffffff#32⟩
  | .DOM_CLU => ⟨false, 0x1100, 24, 0x4, 0x7#32, 0x0#32, 0x7#32, 0xffffffff#32, 0xffffffff#32⟩
  | .DOM_WREF_INFO => ⟨false, 0x1200, 6, 0x8, 0x0#32, 0x0#32, 0x0#32, 0x0#32, 0xffffffff#32⟩
  | .DOM_WREF_ADDR => ⟨false, 0x1204, 6, 0x8, 0x0#32, 0x0#32, 0x0#32, 0x0#32, 0xffffffff#32⟩
  | .HL_STAT => ⟨false, 0x1400, 4, 0x80, 0x0#32, 0x0#32, 0x200#32, 0x0#32, 0xffffffff#32⟩
  | .HL_CTRL => ⟨false, 0x1404, 4, 0x80, 0x1#32, 0x0#32, 0x0#32, 0x0#32, 0xffffffff#32⟩
  | .HL_EVT => ⟨false, 0x1408, 4, 0x80, 0x0#32, 0x1ff#32, 0x0#32, 0x0#32, 0xffffffff#32⟩
  | .HL_EVT_EN => ⟨false, 0x140c, 4, 0x80, 0x1ff#32, 0x0#32, 0x0#32, 0x0#32, 0xffffffff#32⟩
  | .HL_RERR => ⟨false, 0x1410, 4, 0x80, 0x0#32, 0x0#32, 0x0#32, 0x0#32, 0xffffffff#32⟩
  | .HL_RERR_ADDR => ⟨false, 0x1414, 4, 0x80, 0x0#32, 0x0#32, 0x0#32, 0x0#32, 0xffffffff#32⟩
  | .HDMA0_CTRL => ⟨false, 0x1420, 4, 0x80, 0x1#32, 0x0#32, 0x0#32, 0x0#32, 0xffffffff#32⟩
  | .HDMA0_RING_LO => ⟨false, 0x1424, 4, 0x80, 0xffffffc0#32, 0x0#32, 0x0#32, 0x0#32, 0xffffffff#32⟩
  | .HDMA0_RING_HI => ⟨false, 0x1428, 4, 0x80, 0xffffffff#32, 0x0#32, 0x0#32, 0x0#32, 0xffffffff#32⟩
  | .HDMA0_RSIZE => ⟨false, 0x142c, 4, 0x80, 0x1fff#32, 0x0#32, 0x1#32, 0x0#32, 0xffffffff#32⟩
  | .HDMA0_TAIL => ⟨false, 0x1430, 4, 0x80, 0xffff#32, 0x0#32, 0x0#32, 0x0#32, 0xffffffff#32⟩
  | .HDMA0_HEAD => ⟨false, 0x1434, 4, 0x80, 0x0#32, 0x0#32, 0x0#32, 0x0#32, 0xffffffff#32⟩
  | .HDMA1_CTRL => ⟨false, 0x1440, 4, 0x80, 0x1#32, 0x0#32, 0x0#32, 0x0#32, 0xffffffff#32⟩
  | .HDMA1_RING_LO => ⟨false, 0x1444, 4, 0x80, 0xffffffc0#32, 0x0#32, 0x0#32, 0x0#32, 0xffffffff#32⟩
  | .HDMA1_RING_HI => ⟨false, 0x1448, 4, 0x80, 0xffffffff#32, 0x0#32, 0x0#32, 0x0#32, 0xffffffff#32⟩
  | .HDMA1_RSIZE => ⟨false, 0x144c, 4, 0x80, 0x1fff#32, 0x0#32, 0x1#32, 0x0#32, 0xffffffff#32⟩
  | .HDMA1_TAIL => ⟨false, 0x1450, 4, 0x80, 0xffff#32, 0x0#32, 0x0#32, 0x0#32, 0xffffffff#32⟩
  | .HDMA1_HEAD => ⟨false, 0x1454, 4, 0x80, 0x0#32, 0x0#32, 0x0#32, 0x0#32, 0xffffffff#32⟩
  | .TXN_CTRL => ⟨false, 0x2000, 4, 0x40, 0x30#32, 0x0#32, 0x0#32, 0x0#32, 0xffffffff#32⟩
  | .TXN_STAT => ⟨false, 0x2004, 4, 0x40, 0x0#32, 0x0#32, 0x0#32, 0x0#32, 0xffffffff#32⟩
  | .TXN_TIME_LO => ⟨false, 0x2008, 4, 0x40, 0xffffffff#32, 0x0#32, 0x0#32, 0x0#32, 0xffffffff#32⟩
  | .TXN_TIME_HI => ⟨false, 0x200c, 4, 0x40, 0xffffffff#32, 0x0#32, 0x0#32, 0x0#32, 0xffffffff#32⟩
  | .TXN_RES => ⟨false, 0x2010, 4, 0x40, 0x0#32, 0x0#32, 0x0#32, 0x0#32, 0xffffffff#32⟩
  | .TXN_FAIL_ADDR => ⟨false, 0x2014, 4, 0x40, 0x0#32, 0x0#32, 0x0#32, 0x0#32, 0xffffffff#32⟩
  | .TXN_FAIL_RES => ⟨false, 0x2018, 4, 0x40, 0x0#32, 0x0#32, 0x0#32, 0x0#32, 0xffffffff#32⟩
  | .TXN_TDONE_LO => ⟨false, 0x201c, 4, 0x40, 0x0#32, 0x0#32, 0x0#32, 0x0#32, 0xffffffff#32⟩
  | .TXN_TDONE_HI => ⟨false, 0x2020, 4, 0x40, 0x0#32, 0x0#32, 0x0#32, 0x0#32, 0xffffffff#32⟩
  | .TXN_CNT => ⟨false, 0x2024, 4, 0x40, 0x0#32, 0x0#32, 0x0#32, 0x0#32, 0xffffffff#32⟩
  | .EVT_STAT => ⟨false, 0x4000, 36, 0x4, 0x0#32, 0x0#32, 0x0#32, 0x0#32, 0xffffffff#32⟩
  | .EVT_PEND0 => ⟨false, 0x4200, 36, 0x4, 0x0#32, 0xffffffff#32, 0x0#32, 0x0#32, 0xffffffff#32⟩
  | .EVT_PEND1 => ⟨false, 0x4300, 36, 0x4, 0x0#32, 0xffffffff#32, 0x0#32, 0x0#32, 0xffffffff#32⟩
  | .EVT_PEND2 => ⟨false, 0x4400, 36, 0x4, 0x0#32, 0xffffffff#32, 0x0#32, 0x0#32, 0xffffffff#32⟩
  | .EVT_PEND3 => ⟨false, 0x4500, 36, 0x4, 0x0#32, 0xffffffff#32, 0x0#32, 0x0#32, 0xffffffff#32⟩
  | .EVT_ROUTE => ⟨false, 0x4800, 1152, 0x4, 0x3f0f#32, 0x0#32, 0x100#32, 0x0#32, 0xffffffff#32⟩
  | .FLT_CTRL => ⟨false, 0x6000, 1, 0x4, 0x1f037f#32, 0x0#32, 0x80128#32, 0xffffffff#32, 0xffffffff#32⟩
  | .FLT_STAT => ⟨false, 0x6004, 1, 0x4, 0x0#32, 0x0#32, 0x0#32, 0xffffffff#32, 0xffffffff#32⟩
  | .FLT_MERGE_CNT => ⟨false, 0x6008, 1, 0x4, 0x0#32, 0x0#32, 0x0#32, 0xffffffff#32, 0xffffffff#32⟩
  | .FLT_QUIET => ⟨false, 0x600c, 1, 0x4, 0x3fff3fff#32, 0x0#32, 0x64000a#32, 0xffffffff#32, 0xffffffff#32⟩
  | .FLT_EVT => ⟨false, 0x6010, 1, 0x4, 0x0#32, 0x1f#32, 0x0#32, 0xffffffff#32, 0xffffffff#32⟩
  | .FLT_EVT_EN => ⟨false, 0x6014, 1, 0x4, 0x1f#32, 0x0#32, 0x0#32, 0xffffffff#32, 0xffffffff#32⟩
  | .FLT_INJECT_LO => ⟨false, 0x6018, 1, 0x4, 0x0#32, 0x0#32, 0x0#32, 0xffffffff#32, 0xffffffff#32⟩
  | .FLT_INJECT_HI => ⟨false, 0x601c, 1, 0x4, 0x0#32, 0x0#32, 0x0#32, 0xffffffff#32, 0xffffffff#32⟩
  | .FLT_RET_CLU => ⟨false, 0x6020, 1, 0x4, 0x0#32, 0x0#32, 0x0#32, 0xffffffff#32, 0xffffffff#32⟩
  | .FLT_RET_CH => ⟨false, 0x6080, 24, 0x4, 0x0#32, 0x0#32, 0x0#32, 0xffffffff#32, 0xffffffff#32⟩
  | .FLT_STICKY => ⟨false, 0x6100, 36, 0x4, 0x0#32, 0xffffffff#32, 0x0#32, 0xffffffff#32, 0xffffffff#32⟩
  | .FLT_ACTIVE => ⟨false, 0x6200, 36, 0x4, 0x0#32, 0x0#32, 0x0#32, 0xffffffff#32, 0xffffffff#32⟩
  | .FLT_REACT => ⟨false, 0x6400, 288, 0x4, 0x1f1f1f1f#32, 0x0#32, 0x1010101#32, 0xffffffff#32, 0xffffffff#32⟩
  | .FLT_RECOV => ⟨false, 0x6a00, 288, 0x4, 0x0#32, 0x0#32, 0x0#32, 0xffffffff#32, 0xffffffff#32⟩
  | .ASY_CTRL => ⟨false, 0x7000, 1, 0x4, 0x0#32, 0x0#32, 0x0#32, 0xffffffff#32, 0xffffffff#32⟩
  | .ASY_MASK => ⟨false, 0x7004, 1, 0x4, 0xffffffff#32, 0x0#32, 0x0#32, 0xffffffff#32, 0xffffffff#32⟩
  | .ASY_EVT => ⟨false, 0x7008, 1, 0x4, 0x0#32, 0x3#32, 0x0#32, 0xffffffff#32, 0xffffffff#32⟩
  | .ASY_EVT_EN => ⟨false, 0x700c, 1, 0x4, 0x3#32, 0x0#32, 0x0#32, 0xffffffff#32, 0xffffffff#32⟩
  | .ASY_STAT => ⟨false, 0x7100, 24, 0x20, 0x0#32, 0x0#32, 0x0#32, 0xffffffff#32, 0xffffffff#32⟩
  | .ASY_TGT => ⟨false, 0x7104, 24, 0x20, 0x0#32, 0x0#32, 0x0#32, 0xffffffff#32, 0xffffffff#32⟩
  | .ASY_RUNS => ⟨false, 0x7108, 24, 0x20, 0x0#32, 0x0#32, 0x0#32, 0xffffffff#32, 0xffffffff#32⟩
  | .ASY_PASS => ⟨false, 0x710c, 24, 0x20, 0x0#32, 0x0#32, 0x0#32, 0xffffffff#32, 0xffffffff#32⟩
  | .ASY_FAIL => ⟨false, 0x7110, 24, 0x20, 0x0#32, 0x0#32, 0x0#32, 0xffffffff#32, 0xffffffff#32⟩
  | .BANK_OWN => ⟨false, 0x8000, 64, 0x4, 0x0#32, 0x0#32, 0x30#32, 0x0#32, 0xffffffff#32⟩
  | .BANK_STATE => ⟨false, 0x8100, 64, 0x4, 0x0#32, 0x0#32, 0x0#32, 0x0#32, 0xffffffff#32⟩
  | .MP_REPAIR => ⟨false, 0x8200, 64, 0x4, 0x0#32, 0x0#32, 0x0#32, 0x0#32, 0xffffffff#32⟩
  | .MP_ALIAS => ⟨false, 0x8300, 4, 0x4, 0x3f#32, 0x0#32, 0x0#32, 0x0#32, 0xffffffff#32⟩
  | .MP_EVT => ⟨false, 0x8400, 1, 0x4, 0x0#32, 0x1f#32, 0x0#32, 0x0#32, 0xffffffff#32⟩
  | .MP_EVT_EN => ⟨false, 0x8404, 1, 0x4, 0x1f#32, 0x0#32, 0x0#32, 0x0#32, 0xffffffff#32⟩
  | .MP_REFUSE_CNT => ⟨false, 0x8408, 1, 0x4, 0x0#32, 0x0#32, 0x0#32, 0x0#32, 0xffffffff#32⟩
  | .MP_COLL_CNT => ⟨false, 0x840c, 1, 0x4, 0x0#32, 0x0#32, 0x0#32, 0x0#32, 0xffffffff#32⟩
  | .MP_REFUSE_ADDR => ⟨false, 0x8410, 1, 0x4, 0x0#32, 0x0#32, 0x0#32, 0x0#32, 0xffffffff#32⟩
  | .MP_REFUSE_INFO => ⟨false, 0x8414, 1, 0x4, 0x0#32, 0x0#32, 0x0#32, 0x0#32, 0xffffffff#32⟩
  | .SLC_IDX => ⟨false, 0x9000, 1, 0x4, 0x107ff#32, 0x0#32, 0x0#32, 0x0#32, 0xffffffff#32⟩
  | .SLC_DATA => ⟨false, 0x9004, 1, 0x4, 0x0#32, 0x0#32, 0x0#32, 0x0#32, 0xffffffff#32⟩
  | .SLC_COMMIT => ⟨false, 0x9008, 1, 0x4, 0x0#32, 0x0#32, 0x0#32, 0x0#32, 0xffffffff#32⟩
  | .SLC_STAT => ⟨false, 0x900c, 1, 0x4, 0x0#32, 0x2#32, 0x0#32, 0x0#32, 0xffffffff#32⟩
  | .LOT_TKT => ⟨false, 0x9100, 8, 0x4, 0xff#32, 0x0#32, 0x0#32, 0x0#32, 0xffffffff#32⟩
  | .LOT_COMMIT => ⟨false, 0x9120, 1, 0x4, 0x0#32, 0x0#32, 0x0#32, 0x0#32, 0xffffffff#32⟩
  | .LOT_LFSR => ⟨false, 0x9124, 1, 0x4, 0xffffffff#32, 0x0#32, 0x1#32, 0x0#32, 0xffffffff#32⟩
  | .LOT_STAT => ⟨false, 0x9140, 8, 0x4, 0x0#32, 0x0#32, 0x0#32, 0x0#32, 0xffffffff#32⟩
  | .SEM_ACQ => ⟨false, 0xa000, 16, 0x4, 0x0#32, 0x0#32, 0x0#32, 0x0#32, 0xffffffff#32⟩
  | .SEM_REL => ⟨false, 0xa040, 16, 0x4, 0x0#32, 0x0#32, 0x0#32, 0x0#32, 0xffffffff#32⟩
  | .SEM_STAT => ⟨false, 0xa080, 16, 0x4, 0x0#32, 0x0#32, 0x3f#32, 0x0#32, 0xffffffff#32⟩
  | .SEM_RES => ⟨false, 0xa100, 6, 0x4, 0x0#32, 0x0#32, 0x0#32, 0x0#32, 0xffffffff#32⟩
  | .SEM_DENIED => ⟨false, 0xa120, 8, 0x4, 0x0#32, 0x0#32, 0x0#32, 0x0#32, 0xffffffff#32⟩
  | .SEM_EVT => ⟨false, 0xa140, 1, 0x4, 0x0#32, 0x7#32, 0x0#32, 0x0#32, 0xffffffff#32⟩
  | .SEM_EVT_EN => ⟨false, 0xa144, 1, 0x4, 0x7#32, 0x0#32, 0x0#32, 0x0#32, 0xffffffff#32⟩
  | .CLK_STAT => ⟨false, 0xb000, 1, 0x4, 0x0#32, 0xc0#32, 0x0#32, 0xffffffff#32, 0xffffffff#32⟩
  | .CLK_REF_LAST => ⟨false, 0xb004, 1, 0x4, 0x0#32, 0x0#32, 0x0#32, 0xffffffff#32, 0xffffffff#32⟩
  | .CLK_REF_JUDGES => ⟨false, 0xb008, 1, 0x4, 0x0#32, 0x0#32, 0x0#32, 0xffffffff#32, 0xffffffff#32⟩
  | .CLK_PLL_CFG => ⟨false, 0xb00c, 1, 0x4, 0x3ff00ff#32, 0x0#32, 0x640002#32, 0x0#32, 0xffffffff#32⟩
  | .CLK_PLL_LAST => ⟨false, 0xb010, 1, 0x4, 0x0#32, 0x0#32, 0x0#32, 0xffffffff#32, 0xffffffff#32⟩
  | .CLK_FAULT_CNT => ⟨false, 0xb014, 1, 0x4, 0x0#32, 0x0#32, 0x0#32, 0xffffffff#32, 0xffffffff#32⟩
  | .CLK_GAP => ⟨false, 0xb018, 1, 0x4, 0x0#32, 0x0#32, 0x0#32, 0xffffffff#32, 0xffffffff#32⟩
  | .PWR_CTRL => ⟨false, 0xb040, 1, 0x4, 0xc#32, 0x0#32, 0x0#32, 0x0#32, 0xffffffff#32⟩
  | .PWR_STAT => ⟨false, 0xb044, 1, 0x4, 0x0#32, 0x0#32, 0x0#32, 0x0#32, 0xffffffff#32⟩
  | .PWR_AUTO_T => ⟨false, 0xb048, 1, 0x4, 0xffffff#32, 0x0#32, 0x3e8#32, 0x0#32, 0xffffffff#32⟩
  | .PWR_WAKE_EN => ⟨false, 0xb04c, 1, 0x4, 0x1f#32, 0x0#32, 0xf#32, 0x0#32, 0xffffffff#32⟩
  | .PWR_WAKE_TIME_LO => ⟨false, 0xb050, 1, 0x4, 0xffffffff#32, 0x0#32, 0x0#32, 0x0#32, 0xffffffff#32⟩
  | .PWR_WAKE_TIME_HI => ⟨false, 0xb054, 1, 0x4, 0xffffffff#32, 0x0#32, 0x0#32, 0x0#32, 0xffffffff#32⟩
  | .PWR_BANK_RET_LO => ⟨false, 0xb058, 1, 0x4, 0xffffffff#32, 0x0#32, 0x0#32, 0x0#32, 0xffffffff#32⟩
  | .PWR_BANK_RET_HI => ⟨false, 0xb05c, 1, 0x4, 0xffffffff#32, 0x0#32, 0x0#32, 0x0#32, 0xffffffff#32⟩
  | .PWR_CLU_GATE => ⟨false, 0xb060, 1, 0x4, 0x0#32, 0x0#32, 0x0#32, 0x0#32, 0xffffffff#32⟩
  | .PWR_RAIL => ⟨false, 0xb064, 1, 0x4, 0x0#32, 0x0#32, 0x0#32, 0xffffffff#32, 0xffffffff#32⟩
  | .PWR_SLEEP_CNT => ⟨false, 0xb068, 1, 0x4, 0x0#32, 0x0#32, 0x0#32, 0x0#32, 0xffffffff#32⟩
  | .CLK_EVT => ⟨false, 0xb080, 1, 0x4, 0x0#32, 0xff#32, 0x0#32, 0x47#32, 0xffffffff#32⟩
  | .CLK_EVT_EN => ⟨false, 0xb084, 1, 0x4, 0xff#32, 0x0#32, 0x0#32, 0x0#32, 0xffffffff#32⟩
  | .GOV_CTRL => ⟨false, 0xc000, 1, 0x4, 0xffffffff#32, 0x0#32, 0x803e8064#32, 0x0#32, 0xffffffff#32⟩
  | .GOV_STAT => ⟨false, 0xc004, 1, 0x4, 0x0#32, 0x0#32, 0x0#32, 0x0#32, 0xffffffff#32⟩
  | .GOV_SUM_IBUD => ⟨false, 0xc008, 1, 0x4, 0x0#32, 0x0#32, 0x0#32, 0x0#32, 0xffffffff#32⟩
  | .GOV_SUM_PBUD => ⟨false, 0xc00c, 1, 0x4, 0x0#32, 0x0#32, 0x0#32, 0x0#32, 0xffffffff#32⟩
  | .GOV_EVT => ⟨false, 0xc010, 1, 0x4, 0x0#32, 0x7f#32, 0x0#32, 0x0#32, 0xffffffff#32⟩
  | .GOV_EVT_EN => ⟨false, 0xc014, 1, 0x4, 0x7f#32, 0x0#32, 0x0#32, 0x0#32, 0xffffffff#32⟩
  | .GOV_NOM_IBUD => ⟨false, 0xc100, 24, 0x10, 0xffffffff#32, 0x0#32, 0x7f28155#32, 0x0#32, 0xffffffff#32⟩
  | .GOV_NOM_PBUD => ⟨false, 0xc104, 24, 0x10, 0xffffffff#32, 0x0#32, 0x7a120#32, 0x0#32, 0xffffffff#32⟩
  | .GOV_CLU => ⟨false, 0xc108, 24, 0x10, 0x0#32, 0x0#32, 0x0#32, 0x0#32, 0xffffffff#32⟩
  | .THS_TEMP => ⟨false, 0xc400, 36, 0x20, 0x0#32, 0x0#32, 0x0#32, 0x0#32, 0xffffffff#32⟩
  | .THS_LIM => ⟨false, 0xc404, 36, 0x20, 0xffffffff#32, 0x0#32, 0x7300640#32, 0x0#32, 0xffffffff#32⟩
  | .THS_RATE => ⟨false, 0xc408, 36, 0x20, 0xffffffff#32, 0x0#32, 0x0#32, 0x0#32, 0xffffffff#32⟩
  | .THS_DIODE => ⟨false, 0xc40c, 36, 0x20, 0x0#32, 0x0#32, 0x0#32, 0x0#32, 0xffffffff#32⟩
  | .THS_SCOPE => ⟨false, 0xc410, 36, 0x20, 0x0#32, 0x0#32, 0x0#32, 0x0#32, 0xffffffff#32⟩
  | .CAL_CTRL => ⟨false, 0xd000, 1, 0x4, 0x3#32, 0x0#32, 0x1#32, 0x0#32, 0xffffffff#32⟩
  | .CAL_STAT => ⟨false, 0xd004, 1, 0x4, 0x0#32, 0x0#32, 0x0#32, 0x0#32, 0xffffffff#32⟩
  | .CAL_REFV_CERT => ⟨false, 0xd008, 1, 0x4, 0xffffffff#32, 0x0#32, 0x4c4b40#32, 0x0#32, 0xffffffff#32⟩
  | .CAL_REFV_MEAS => ⟨false, 0xd00c, 1, 0x4, 0x0#32, 0x0#32, 0x0#32, 0x0#32, 0xffffffff#32⟩
  | .CAL_RATE => ⟨false, 0xd010, 1, 0x4, 0xff#32, 0x0#32, 0xa#32, 0x0#32, 0xffffffff#32⟩
  | .CAL_GRACE => ⟨false, 0xd014, 1, 0x4, 0xffff#32, 0x0#32, 0xa#32, 0x0#32, 0xffffffff#32⟩
  | .CAL_REF_INTV => ⟨false, 0xd018, 1, 0x4, 0xffff#32, 0x0#32, 0x3c#32, 0x0#32, 0xffffffff#32⟩
  | .CAL_INTV => ⟨false, 0xd020, 5, 0x4, 0xffff#32, 0x0#32, 0x0#32, 0x0#32, 0xffffffff#32⟩
  | .CAL_EVT => ⟨false, 0xd040, 1, 0x4, 0x0#32, 0x7#32, 0x0#32, 0x0#32, 0xffffffff#32⟩
  | .CAL_EVT_EN => ⟨false, 0xd044, 1, 0x4, 0x7#32, 0x0#32, 0x0#32, 0x0#32, 0xffffffff#32⟩
  | .RING_CTRL => ⟨false, 0xe000, 1, 0x4, 0x5#32, 0x0#32, 0x4#32, 0x0#32, 0xffffffff#32⟩
  | .RING_CFG => ⟨false, 0xe004, 1, 0x4, 0x11f#32, 0x0#32, 0x0#32, 0x0#32, 0xffffffff#32⟩
  | .RING_STAT => ⟨false, 0xe008, 1, 0x4, 0x0#32, 0x0#32, 0x4#32, 0x0#32, 0xffffffff#32⟩
  | .RING_WIRE => ⟨false, 0xe00c, 1, 0x4, 0x3fff#32, 0x0#32, 0x0#32, 0x0#32, 0xffffffff#32⟩
  | .RING_TLEAD => ⟨false, 0xe010, 1, 0x4, 0x3fff8#32, 0x0#32, 0x14a00#32, 0x0#32, 0xffffffff#32⟩
  | .RING_LINE_TX => ⟨false, 0xe014, 1, 0x4, 0xff#32, 0x0#32, 0x0#32, 0x0#32, 0xffffffff#32⟩
  | .RING_TCFG => ⟨false, 0xe018, 1, 0x4, 0xffff#32, 0x0#32, 0x64#32, 0x0#32, 0xffffffff#32⟩
  | .RING_HB => ⟨false, 0xe01c, 1, 0x4, 0xfffff#32, 0x0#32, 0x40064#32, 0x0#32, 0xffffffff#32⟩
  | .RING_TERR => ⟨false, 0xe020, 1, 0x4, 0x0#32, 0x0#32, 0x0#32, 0x0#32, 0xffffffff#32⟩
  | .RING_TFINE => ⟨false, 0xe024, 1, 0x4, 0x0#32, 0x0#32, 0x0#32, 0xffffffff#32, 0xffffffff#32⟩
  | .RING_TIME_LO => ⟨false, 0xe028, 1, 0x4, 0x0#32, 0x0#32, 0x0#32, 0xffffffff#32, 0xffffffff#32⟩
  | .RING_TIME_HI => ⟨false, 0xe02c, 1, 0x4, 0x0#32, 0x0#32, 0x0#32, 0xffffffff#32, 0xffffffff#32⟩
  | .RING_ROUNDS => ⟨false, 0xe030, 1, 0x4, 0x0#32, 0x0#32, 0x0#32, 0x0#32, 0xffffffff#32⟩
  | .RING_CRCERR => ⟨false, 0xe034, 1, 0x4, 0x0#32, 0x0#32, 0x0#32, 0x0#32, 0xffffffff#32⟩
  | .RING_TLOST => ⟨false, 0xe038, 1, 0x4, 0x0#32, 0x0#32, 0x0#32, 0x0#32, 0xffffffff#32⟩
  | .RING_MSGFAIL => ⟨false, 0xe03c, 1, 0x4, 0x0#32, 0x0#32, 0x0#32, 0x0#32, 0xffffffff#32⟩
  | .RING_EVT => ⟨false, 0xe040, 1, 0x4, 0x0#32, 0x3fff#32, 0x0#32, 0x0#32, 0xffffffff#32⟩
  | .RING_EVT_EN => ⟨false, 0xe044, 1, 0x4, 0x3fff#32, 0x0#32, 0x0#32, 0x0#32, 0xffffffff#32⟩
  | .RING_PEER => ⟨false, 0xe080, 32, 0x4, 0x0#32, 0x0#32, 0x0#32, 0x0#32, 0xffffffff#32⟩
  | .RING_PEERX => ⟨false, 0xe100, 32, 0x4, 0x0#32, 0x0#32, 0x0#32, 0x0#32, 0xffffffff#32⟩
  | .BOOT_STAT => ⟨false, 0xf000, 1, 0x4, 0x0#32, 0x0#32, 0x0#32, 0xffffffff#32, 0xffffffff#32⟩
  | .BOOT_SECERR => ⟨false, 0xf004, 1, 0x4, 0x0#32, 0x0#32, 0x0#32, 0xffffffff#32, 0xffffffff#32⟩
  | .BOOT_CFG_CNT => ⟨false, 0xf008, 1, 0x4, 0x0#32, 0x0#32, 0x0#32, 0xffffffff#32, 0xffffffff#32⟩
  | .BOOT_IMG_LEN => ⟨false, 0xf00c, 1, 0x4, 0x0#32, 0x0#32, 0x0#32, 0xffffffff#32, 0xffffffff#32⟩
  | .PSM_CTRL => ⟨false, 0xf010, 1, 0x4, 0x3f1ff2#32, 0x0#32, 0x10000#32, 0x0#32, 0xffffffff#32⟩
  | .PSM_STAT => ⟨false, 0xf014, 1, 0x4, 0x0#32, 0x0#32, 0x0#32, 0x0#32, 0xffffffff#32⟩
  | .PSM_TX => ⟨false, 0xf020, 8, 0x4, 0xffffffff#32, 0x0#32, 0x0#32, 0x0#32, 0xffffffff#32⟩
  | .PSM_RX => ⟨false, 0xf040, 8, 0x4, 0x0#32, 0x0#32, 0x0#32, 0x0#32, 0xffffffff#32⟩
  | .MSP_HSTAT => ⟨false, 0xf060, 1, 0x4, 0x0#32, 0x0#32, 0x0#32, 0x0#32, 0xffffffff#32⟩
  | .MSP_HCTRL => ⟨false, 0xf064, 1, 0x4, 0x0#32, 0x0#32, 0x0#32, 0x0#32, 0xffffffff#32⟩
  | .MBX_IN => ⟨false, 0xf080, 8, 0x4, 0x0#32, 0x0#32, 0x0#32, 0xffffffff#32, 0xffffffff#32⟩
  | .MBX_OUT => ⟨false, 0xf0a0, 8, 0x4, 0xffffffff#32, 0x0#32, 0x0#32, 0xffffffff#32, 0xffffffff#32⟩
  | .SER_EVT => ⟨false, 0xf0c0, 1, 0x4, 0x0#32, 0xf#32, 0x0#32, 0x0#32, 0xffffffff#32⟩
  | .SER_EVT_EN => ⟨false, 0xf0c4, 1, 0x4, 0xf#32, 0x0#32, 0x0#32, 0x0#32, 0xffffffff#32⟩
  | .CAP_CTRL => ⟨false, 0x10000, 1, 0x4, 0xff8#32, 0x0#32, 0x0#32, 0x0#32, 0xffffffff#32⟩
  | .CAP_STAT => ⟨false, 0x10004, 1, 0x4, 0x0#32, 0x0#32, 0x0#32, 0x0#32, 0xffffffff#32⟩
  | .CAP_ERRIDX => ⟨false, 0x10008, 1, 0x4, 0x0#32, 0x0#32, 0x0#32, 0x0#32, 0xffffffff#32⟩
  | .CAP_FLOW_BASE => ⟨false, 0x1000c, 1, 0x4, 0xfffff#32, 0x0#32, 0x0#32, 0x0#32, 0xffffffff#32⟩
  | .CAP_MAP_BASE => ⟨false, 0x10010, 1, 0x4, 0xfffff#32, 0x0#32, 0x0#32, 0x0#32, 0xffffffff#32⟩
  | .CAP_MAP_CNT => ⟨false, 0x10014, 1, 0x4, 0xffffffff#32, 0x0#32, 0x0#32, 0x0#32, 0xffffffff#32⟩
  | .CAP_LEAD => ⟨false, 0x10018, 1, 0x4, 0xffffffff#32, 0x0#32, 0x27100#32, 0x0#32, 0xffffffff#32⟩
  | .CAP_PRB => ⟨false, 0x1001c, 1, 0x4, 0xffff000f#32, 0x0#32, 0x3e80000#32, 0x0#32, 0xffffffff#32⟩
  | .CAP_RING_MASK => ⟨false, 0x10020, 1, 0x4, 0xffffffff#32, 0x0#32, 0x0#32, 0x0#32, 0xffffffff#32⟩
  | .CAP_DLOG_BASE => ⟨false, 0x10024, 1, 0x4, 0x1fffff#32, 0x0#32, 0x0#32, 0x0#32, 0xffffffff#32⟩
  | .CAP_DLOG_SIZE => ⟨false, 0x10028, 1, 0x4, 0xfffff#32, 0x0#32, 0x0#32, 0x0#32, 0xffffffff#32⟩
  | .CAP_DLOG_WPTR => ⟨false, 0x1002c, 1, 0x4, 0x0#32, 0x0#32, 0x0#32, 0x0#32, 0xffffffff#32⟩
  | .CAP_DLOG_RPTR => ⟨false, 0x10030, 1, 0x4, 0xfffff#32, 0x0#32, 0x0#32, 0x0#32, 0xffffffff#32⟩
  | .CAP_RT_BASE => ⟨false, 0x10034, 1, 0x4, 0x7fffff#32, 0x0#32, 0x0#32, 0x0#32, 0xffffffff#32⟩
  | .CAP_RT_CNT => ⟨false, 0x10038, 1, 0x4, 0x0#32, 0x0#32, 0x0#32, 0x0#32, 0xffffffff#32⟩
  | .CAP_DMA => ⟨false, 0x1003c, 1, 0x4, 0xff0b#32, 0x0#32, 0x0#32, 0x0#32, 0xffffffff#32⟩
  | .CAP_HBUF_LO => ⟨false, 0x10040, 1, 0x4, 0xffffffff#32, 0x0#32, 0x0#32, 0x0#32, 0xffffffff#32⟩
  | .CAP_HBUF_HI => ⟨false, 0x10044, 1, 0x4, 0xffffffff#32, 0x0#32, 0x0#32, 0x0#32, 0xffffffff#32⟩
  | .CAP_HBUF_SIZE => ⟨false, 0x10048, 1, 0x4, 0xffffffff#32, 0x0#32, 0x0#32, 0x0#32, 0xffffffff#32⟩
  | .CAP_FLOWNO => ⟨false, 0x1004c, 1, 0x4, 0x0#32, 0x0#32, 0x0#32, 0x0#32, 0xffffffff#32⟩
  | .CAP_TF_LO => ⟨false, 0x10050, 1, 0x4, 0x0#32, 0x0#32, 0x0#32, 0x0#32, 0xffffffff#32⟩
  | .CAP_TF_HI => ⟨false, 0x10054, 1, 0x4, 0x0#32, 0x0#32, 0x0#32, 0x0#32, 0xffffffff#32⟩
  | .CAP_TEND_LO => ⟨false, 0x10058, 1, 0x4, 0x0#32, 0x0#32, 0x0#32, 0x0#32, 0xffffffff#32⟩
  | .CAP_TEND_HI => ⟨false, 0x1005c, 1, 0x4, 0x0#32, 0x0#32, 0x0#32, 0x0#32, 0xffffffff#32⟩
  | .CAP_EVT => ⟨false, 0x10060, 1, 0x4, 0x0#32, 0x1f#32, 0x0#32, 0x0#32, 0xffffffff#32⟩
  | .CAP_EVT_EN => ⟨false, 0x10064, 1, 0x4, 0x1f#32, 0x0#32, 0x0#32, 0x0#32, 0xffffffff#32⟩
  | .CAP_FENCE => ⟨false, 0x10100, 24, 0x4, 0x0#32, 0x0#32, 0x0#32, 0x0#32, 0xffffffff#32⟩
  | .CAP_HBIN_CNT => ⟨false, 0x10400, 16, 0x4, 0x0#32, 0x0#32, 0x0#32, 0x0#32, 0xffffffff#32⟩
  | .CAP_SBIN_CNT => ⟨false, 0x10500, 64, 0x4, 0x0#32, 0x0#32, 0x0#32, 0x0#32, 0xffffffff#32⟩
  | .CAP_SITE => ⟨false, 0x11000, 768, 0x4, 0x0#32, 0x0#32, 0xff000000#32, 0x0#32, 0xffffffff#32⟩
  | .LR_BASE => ⟨false, 0x20000, 1, 0x4, 0xffff0001#32, 0x0#32, 0x0#32, 0xffffffff#32, 0xffffffff#32⟩
  | .LR_STAGE => ⟨false, 0x20004, 1, 0x4, 0x3ffffc0#32, 0x0#32, 0x0#32, 0xffffffff#32, 0xffffffff#32⟩
  | .LR_STAT => ⟨false, 0x20008, 1, 0x4, 0x0#32, 0x0#32, 0x0#32, 0xffffffff#32, 0xffffffff#32⟩
  | .LR_SEQ => ⟨false, 0x2000c, 1, 0x4, 0x0#32, 0x0#32, 0x0#32, 0xffffffff#32, 0xffffffff#32⟩
  | .LR_TLAST_LO => ⟨false, 0x20010, 1, 0x4, 0x0#32, 0x0#32, 0x0#32, 0xffffffff#32, 0xffffffff#32⟩
  | .LR_TLAST_HI => ⟨false, 0x20014, 1, 0x4, 0x0#32, 0x0#32, 0x0#32, 0xffffffff#32, 0xffffffff#32⟩
  | .LR_EVT => ⟨false, 0x20020, 1, 0x4, 0x0#32, 0x7#32, 0x0#32, 0xffffffff#32, 0xffffffff#32⟩
  | .LR_EVT_EN => ⟨false, 0x20024, 1, 0x4, 0x7#32, 0x0#32, 0x0#32, 0xffffffff#32, 0xffffffff#32⟩
  | .CL_SEQ_CTRL => ⟨true, 0x0, 1, 0x4, 0x8#32, 0x0#32, 0x0#32, 0x0#32, 0x0#32⟩
  | .CL_SEQ_ADDR => ⟨true, 0x4, 1, 0x4, 0xffff#32, 0x0#32, 0x0#32, 0x0#32, 0x0#32⟩
  | .CL_SEQ_TSTART_LO => ⟨true, 0x8, 1, 0x4, 0xffffffff#32, 0x0#32, 0x0#32, 0x0#32, 0x0#32⟩
  | .CL_SEQ_TSTART_HI => ⟨true, 0xc, 1, 0x4, 0xffffffff#32, 0x0#32, 0x0#32, 0x0#32, 0x0#32⟩
  | .CL_SEQ_STAT => ⟨true, 0x10, 1, 0x4, 0x0#32, 0x0#32, 0x0#32, 0x0#32, 0x0#32⟩
  | .CL_SEQ_PC => ⟨true, 0x14, 1, 0x4, 0x0#32, 0x0#32, 0x0#32, 0x0#32, 0x0#32⟩
  | .CL_SEQ_RES => ⟨true, 0x18, 1, 0x4, 0x0#32, 0x0#32, 0x0#32, 0x0#32, 0x0#32⟩
  | .CL_SEQ_VCNT_LO => ⟨true, 0x1c, 1, 0x4, 0x0#32, 0x0#32, 0x0#32, 0x0#32, 0x0#32⟩
  | .CL_SEQ_VCNT_HI => ⟨true, 0x20, 1, 0x4, 0x0#32, 0x0#32, 0x0#32, 0x0#32, 0x0#32⟩
  | .CL_SEQ_STALLS => ⟨true, 0x24, 1, 0x4, 0x0#32, 0x0#32, 0x0#32, 0x0#32, 0x0#32⟩
  | .CL_SEQ_HOLDV => ⟨true, 0x28, 1, 0x4, 0x0#32, 0x0#32, 0x0#32, 0x0#32, 0x0#32⟩
  | .CL_SEQ_BUBBLES => ⟨true, 0x2c, 1, 0x4, 0x0#32, 0x0#32, 0x0#32, 0x0#32, 0x0#32⟩
  | .CL_SEQ_TEND_LO => ⟨true, 0x30, 1, 0x4, 0x0#32, 0x0#32, 0x0#32, 0x0#32, 0x0#32⟩
  | .CL_SEQ_TEND_HI => ⟨true, 0x34, 1, 0x4, 0x0#32, 0x0#32, 0x0#32, 0x0#32, 0x0#32⟩
  | .CL_SEQ_LOG => ⟨true, 0x38, 1, 0x4, 0x3#32, 0x0#32, 0x0#32, 0x0#32, 0x0#32⟩
  | .CL_SEQ_LOST => ⟨true, 0x3c, 1, 0x4, 0x0#32, 0x0#32, 0x0#32, 0x0#32, 0x0#32⟩
  | .CL_SEQ_EVT => ⟨true, 0x40, 1, 0x4, 0x0#32, 0x7f#32, 0x0#32, 0x0#32, 0x0#32⟩
  | .CL_SEQ_EVT_EN => ⟨true, 0x44, 1, 0x4, 0x7f#32, 0x0#32, 0x0#32, 0x0#32, 0x0#32⟩
  | .CL_SEQ_FFVALID => ⟨true, 0x48, 1, 0x4, 0x0#32, 0x0#32, 0x0#32, 0x0#32, 0x0#32⟩
  | .CL_SEQ_FCNT => ⟨true, 0x80, 32, 0x4, 0x0#32, 0x0#32, 0x0#32, 0x0#32, 0x0#32⟩
  | .CL_SEQ_FFIRST => ⟨true, 0x100, 32, 0x4, 0x0#32, 0x0#32, 0x0#32, 0x0#32, 0x0#32⟩
  | .CL_HOP_CTRL => ⟨true, 0x200, 1, 0x4, 0x1#32, 0x0#32, 0x0#32, 0x0#32, 0x0#32⟩
  | .CL_HOP_RING => ⟨true, 0x204, 1, 0x4, 0x3fffff0#32, 0x0#32, 0x0#32, 0x0#32, 0x0#32⟩
  | .CL_HOP_RSIZE => ⟨true, 0x208, 1, 0x4, 0x1fff#32, 0x0#32, 0x1#32, 0x0#32, 0x0#32⟩
  | .CL_HOP_TAIL => ⟨true, 0x20c, 1, 0x4, 0xffff#32, 0x0#32, 0x0#32, 0x0#32, 0x0#32⟩
  | .CL_HOP_HEAD => ⟨true, 0x210, 1, 0x4, 0x0#32, 0x0#32, 0x0#32, 0x0#32, 0x0#32⟩
  | .CL_HOP_LVL => ⟨true, 0x214, 1, 0x4, 0xffffffff#32, 0x0#32, 0x20001000#32, 0x0#32, 0x0#32⟩
  | .CL_HOP_STAT => ⟨true, 0x218, 1, 0x4, 0x0#32, 0x0#32, 0x0#32, 0x0#32, 0x0#32⟩
  | .CL_HOP_LEVEL => ⟨true, 0x21c, 1, 0x4, 0x0#32, 0x0#32, 0x0#32, 0x0#32, 0x0#32⟩
  | .CL_HOP_LOG_BASE => ⟨true, 0x220, 1, 0x4, 0x3ffffc0#32, 0x0#32, 0x0#32, 0x0#32, 0x0#32⟩
  | .CL_HOP_LOG_SIZE => ⟨true, 0x224, 1, 0x4, 0xffff#32, 0x0#32, 0x0#32, 0x0#32, 0x0#32⟩
  | .CL_HOP_LOG_WPTR => ⟨true, 0x228, 1, 0x4, 0x0#32, 0x0#32, 0x0#32, 0x0#32, 0x0#32⟩
  | .CL_HOP_LOG_RPTR => ⟨true, 0x22c, 1, 0x4, 0xffff#32, 0x0#32, 0x0#32, 0x0#32, 0x0#32⟩
  | .CL_HOP_EVT => ⟨true, 0x230, 1, 0x4, 0x0#32, 0x7#32, 0x0#32, 0x0#32, 0x0#32⟩
  | .CL_HOP_EVT_EN => ⟨true, 0x234, 1, 0x4, 0x7#32, 0x0#32, 0x0#32, 0x0#32, 0x0#32⟩
  | .CL_TS_STAT => ⟨true, 0x400, 1, 0x4, 0x0#32, 0x0#32, 0x0#32, 0x0#32, 0x0#32⟩
  | .CL_TS_WIN_BASE => ⟨true, 0x404, 1, 0x4, 0x3ffffc0#32, 0x0#32, 0x0#32, 0x0#32, 0x0#32⟩
  | .CL_TS_WIN_SIZE => ⟨true, 0x408, 1, 0x4, 0xfffff#32, 0x0#32, 0x0#32, 0x0#32, 0x0#32⟩
  | .CL_TS_WIN_WPTR => ⟨true, 0x40c, 1, 0x4, 0x0#32, 0x0#32, 0x0#32, 0x0#32, 0x0#32⟩
  | .CL_TS_WIN_RPTR => ⟨true, 0x410, 1, 0x4, 0xfffff#32, 0x0#32, 0x0#32, 0x0#32, 0x0#32⟩
  | .CL_TS_LOST => ⟨true, 0x414, 1, 0x4, 0x0#32, 0x0#32, 0x0#32, 0x0#32, 0x0#32⟩
  | .CL_TS_EPOCH => ⟨true, 0x418, 1, 0x4, 0x0#32, 0x0#32, 0x0#32, 0x0#32, 0x0#32⟩
  | .CL_TS_DONE => ⟨true, 0x41c, 1, 0x4, 0x0#32, 0x0#32, 0x0#32, 0x0#32, 0x0#32⟩
  | .CL_TS_EVT => ⟨true, 0x420, 1, 0x4, 0x0#32, 0x1f#32, 0x0#32, 0x0#32, 0x0#32⟩
  | .CL_TS_EVT_EN => ⟨true, 0x424, 1, 0x4, 0x1f#32, 0x0#32, 0x0#32, 0x0#32, 0x0#32⟩
  | .CL_CAL_CTRL => ⟨true, 0x600, 1, 0x4, 0x0#32, 0x0#32, 0x0#32, 0x0#32, 0x0#32⟩
  | .CL_CAL_STAT => ⟨true, 0x604, 1, 0x4, 0x0#32, 0x0#32, 0x0#32, 0x0#32, 0x0#32⟩
  | .CL_CAL_CNT => ⟨true, 0x608, 1, 0x4, 0x0#32, 0x0#32, 0x0#32, 0xffffffff#32, 0xffffffff#32⟩
  | .CL_CAL_TLAST_LO => ⟨true, 0x60c, 1, 0x4, 0x0#32, 0x0#32, 0x0#32, 0xffffffff#32, 0xffffffff#32⟩
  | .CL_CAL_TLAST_HI => ⟨true, 0x610, 1, 0x4, 0x0#32, 0x0#32, 0x0#32, 0xffffffff#32, 0xffffffff#32⟩
  | .CL_CAL_DUE_LO => ⟨true, 0x614, 1, 0x4, 0x0#32, 0x0#32, 0x0#32, 0x0#32, 0x0#32⟩
  | .CL_CAL_DUE_HI => ⟨true, 0x618, 1, 0x4, 0x0#32, 0x0#32, 0x0#32, 0x0#32, 0x0#32⟩
  | .CL_CAL_EVT => ⟨true, 0x61c, 1, 0x4, 0x0#32, 0x3f#32, 0x0#32, 0x0#32, 0x0#32⟩
  | .CL_CAL_EVT_EN => ⟨true, 0x620, 1, 0x4, 0x3f#32, 0x0#32, 0x0#32, 0x0#32, 0x0#32⟩
  | .CL_CAL_QUAL => ⟨true, 0x640, 10, 0x4, 0x0#32, 0x0#32, 0x0#32, 0xffffffff#32, 0xffffffff#32⟩
  | .CL_STORE_STAT => ⟨true, 0xc00, 1, 0x4, 0x0#32, 0x0#32, 0x2#32, 0x0#32, 0x0#32⟩
  | .CL_STORE_EVT => ⟨true, 0xc04, 1, 0x4, 0x0#32, 0x7f#32, 0x0#32, 0x0#32, 0x0#32⟩
  | .CL_STORE_EVT_EN => ⟨true, 0xc08, 1, 0x4, 0x7f#32, 0x0#32, 0x0#32, 0x0#32, 0x0#32⟩
  | .CL_STORE_PAR_ADDR => ⟨true, 0xc0c, 1, 0x4, 0x0#32, 0x0#32, 0x0#32, 0x0#32, 0x0#32⟩
  | .CL_STORE_PAR_CNT => ⟨true, 0xc10, 1, 0x4, 0x0#32, 0x0#32, 0x0#32, 0x0#32, 0xffffffff#32⟩
  | .CL_STORE_ILL_ADDR => ⟨true, 0xc14, 1, 0x4, 0x0#32, 0x0#32, 0x0#32, 0x0#32, 0x0#32⟩
  | .CL_STORE_CTRL => ⟨true, 0xc18, 1, 0x4, 0x1#32, 0x0#32, 0x0#32, 0x0#32, 0x0#32⟩
  | .CL_TIM_CTRL => ⟨true, 0xd00, 1, 0x4, 0xf#32, 0x0#32, 0x0#32, 0x0#32, 0x0#32⟩
  | .CL_TIM_STAT => ⟨true, 0xd04, 1, 0x4, 0x0#32, 0x0#32, 0x0#32, 0x0#32, 0x0#32⟩
  | .CL_TIM_PEND_AGE => ⟨true, 0xd08, 1, 0x4, 0x0#32, 0x0#32, 0x0#32, 0x0#32, 0x0#32⟩
  | .CL_TIM_EVT => ⟨true, 0xd0c, 1, 0x4, 0x0#32, 0x7f#32, 0x0#32, 0x0#32, 0x0#32⟩
  | .CL_TIM_EVT_EN => ⟨true, 0xd10, 1, 0x4, 0x7f#32, 0x0#32, 0x0#32, 0x0#32, 0x0#32⟩
  | .CL_TIM_BAND_CNT => ⟨true, 0xd14, 1, 0x4, 0x0#32, 0x0#32, 0x0#32, 0x0#32, 0xffffffff#32⟩
  | .CL_TS_PER => ⟨true, 0xe00, 64, 0x4, 0x1fffffff#32, 0x0#32, 0xa000#32, 0x0#32, 0x0#32⟩
  | .CL_BLANK_TMR => ⟨true, 0xf80, 1, 0x4, 0x1ffffff#32, 0x0#32, 0x0#32, 0x0#32, 0x0#32⟩
  | .CL_PM_IBUD => ⟨true, 0xf84, 1, 0x4, 0x0#32, 0x0#32, 0x7f28155#32, 0xffffffff#32, 0xffffffff#32⟩
  | .CL_PM_PBUD => ⟨true, 0xf88, 1, 0x4, 0x0#32, 0x0#32, 0x7a120#32, 0xffffffff#32, 0xffffffff#32⟩
  | .CL_PM_ICLAIM => ⟨true, 0xf8c, 1, 0x4, 0x0#32, 0x0#32, 0x0#32, 0x0#32, 0x0#32⟩
  | .CL_PM_PCLAIM => ⟨true, 0xf90, 1, 0x4, 0x0#32, 0x0#32, 0x0#32, 0x0#32, 0x0#32⟩
  | .CH_CTRL => ⟨true, 0x1000, 32, 0x80, 0x3f#32, 0x0#32, 0x0#32, 0x0#32, 0x0#32⟩
  | .CH_STAT => ⟨true, 0x1004, 32, 0x80, 0x0#32, 0x0#32, 0x2#32, 0x4#32, 0x4#32⟩
  | .CH_LVL => ⟨true, 0x1008, 32, 0x80, 0xf#32, 0x0#32, 0x0#32, 0x0#32, 0x0#32⟩
  | .CH_CMP => ⟨true, 0x100c, 32, 0x80, 0xfff#32, 0x0#32, 0x0#32, 0x0#32, 0x0#32⟩
  | .CH_CMP_STAT => ⟨true, 0x1010, 32, 0x80, 0x0#32, 0x60#32, 0xc#32, 0x0#32, 0x0#32⟩
  | .CH_BLANK => ⟨true, 0x1014, 32, 0x80, 0x7ffff#32, 0x0#32, 0x0#32, 0x0#32, 0x0#32⟩
  | .CH_SELFCHK => ⟨true, 0x1018, 32, 0x80, 0x2#32, 0x0#32, 0x0#32, 0x0#32, 0x0#32⟩
  | .CH_WAKE => ⟨true, 0x101c, 32, 0x80, 0x7f#32, 0x0#32, 0x0#32, 0x0#32, 0x0#32⟩
  | .CH_EVT => ⟨true, 0x1020, 32, 0x80, 0x0#32, 0x7f007f#32, 0x0#32, 0x0#32, 0x0#32⟩
  | .CH_EVT_EN => ⟨true, 0x1024, 32, 0x80, 0x7f007f#32, 0x0#32, 0x0#32, 0x0#32, 0x0#32⟩
  | .CH_OC_CNT => ⟨true, 0x1028, 32, 0x80, 0x0#32, 0x0#32, 0x0#32, 0x0#32, 0xffffffff#32⟩
  | .CH_PM_CTRL => ⟨true, 0x1040, 32, 0x80, 0x17f9#32, 0x0#32, 0x0#32, 0x0#32, 0x0#32⟩
  | .CH_PM_FV => ⟨true, 0x1044, 32, 0x80, 0xfffff#32, 0x0#32, 0x30d40#32, 0x0#32, 0x0#32⟩
  | .CH_PM_FI => ⟨true, 0x1048, 32, 0x80, 0xfffff#32, 0x0#32, 0x0#32, 0x0#32, 0x0#32⟩
  | .CH_PM_ICLH => ⟨true, 0x104c, 32, 0x80, 0x7ffff#32, 0x0#32, 0x7a120#32, 0x0#32, 0x0#32⟩
  | .CH_PM_ICLL => ⟨true, 0x1050, 32, 0x80, 0x7ffff#32, 0x0#32, 0x7a120#32, 0x0#32, 0x0#32⟩
  | .CH_PM_VCLH => ⟨true, 0x1054, 32, 0x80, 0xfffff#32, 0x0#32, 0xcd140#32, 0x0#32, 0x0#32⟩
  | .CH_PM_VCLL => ⟨true, 0x1058, 32, 0x80, 0xfffff#32, 0x0#32, 0x9c40#32, 0x0#32, 0x0#32⟩
  | .CH_PM_APER => ⟨true, 0x105c, 32, 0x80, 0xfffffff#32, 0x0#32, 0x1#32, 0x0#32, 0x0#32⟩
  | .CH_PM_STAT => ⟨true, 0x1060, 32, 0x80, 0x0#32, 0x0#32, 0x0#32, 0x0#32, 0x0#32⟩
  | .CH_PM_RES => ⟨true, 0x1064, 32, 0x80, 0x0#32, 0x0#32, 0x0#32, 0x0#32, 0x0#32⟩
  | .CH_PM_RES_TLO => ⟨true, 0x1068, 32, 0x80, 0x0#32, 0x0#32, 0x0#32, 0x0#32, 0x0#32⟩
  | .CH_PM_RES_THI => ⟨true, 0x106c, 32, 0x80, 0x0#32, 0x0#32, 0x0#32, 0x0#32, 0x0#32⟩
  | .CH_PM_SAMPLE => ⟨true, 0x1070, 32, 0x80, 0x0#32, 0x0#32, 0x0#32, 0x0#32, 0x0#32⟩
  | .CH_PM_ICLAIM => ⟨true, 0x1074, 32, 0x80, 0x0#32, 0x0#32, 0x0#32, 0x0#32, 0x0#32⟩
  | .CH_PM_PCLAIM => ⟨true, 0x1078, 32, 0x80, 0x0#32, 0x0#32, 0x0#32, 0x0#32, 0x0#32⟩
  | .CH_PM_OC_CNT => ⟨true, 0x107c, 32, 0x80, 0x0#32, 0x0#32, 0x0#32, 0x0#32, 0xffffffff#32⟩
  | .EDGE_TAB => ⟨true, 0x4000, 12288, 0x4, 0x9fffffff#32, 0x0#32, 0x0#32, 0x0#32, 0x0#32⟩
  | .LEVEL_TAB => ⟨true, 0x10000, 4096, 0x4, 0x0#32, 0x0#32, 0x0#32, 0x0#32, 0x0#32⟩
  | .CORR_TAB => ⟨true, 0x14000, 960, 0x4, 0x7fff#32, 0x0#32, 0x0#32, 0xffffffff#32, 0xffffffff#32⟩
  | .FIX_TAB => ⟨true, 0x14f00, 32, 0x4, 0x3fff#32, 0x0#32, 0x0#32, 0xffffffff#32, 0xffffffff#32⟩
  | .STCORR_TAB => ⟨true, 0x15000, 320, 0x4, 0x7fff#32, 0x0#32, 0x0#32, 0xffffffff#32, 0xffffffff#32⟩
  | .AWG_TRIM => ⟨true, 0x15800, 2, 0x10, 0xffffffff#32, 0x0#32, 0x0#32, 0xffffffff#32, 0xffffffff#32⟩
  | .CH_TRIM => ⟨true, 0x16000, 2048, 0x4, 0x0#32, 0x0#32, 0x0#32, 0xffffffff#32, 0xffffffff#32⟩
  | .CL_TRG_CFG => ⟨true, 0x18000, 8, 0x40, 0xc07fffff#32, 0x0#32, 0x0#32, 0x0#32, 0x0#32⟩
  | .CL_TRG_SRC => ⟨true, 0x18004, 8, 0x40, 0xfffff73f#32, 0x0#32, 0x0#32, 0x0#32, 0x0#32⟩
  | .CL_TRG_LIMA => ⟨true, 0x18008, 8, 0x40, 0xffffffff#32, 0x0#32, 0x0#32, 0x0#32, 0x0#32⟩
  | .CL_TRG_LIMB => ⟨true, 0x1800c, 8, 0x40, 0xffffffff#32, 0x0#32, 0x0#32, 0x0#32, 0x0#32⟩
  | .CL_TRG_ACT => ⟨true, 0x18010, 8, 0x40, 0xffff0f70#32, 0x0#32, 0x0#32, 0x0#32, 0x0#32⟩
  | .CL_TRG_HOLDOFF => ⟨true, 0x18014, 8, 0x40, 0xffffffff#32, 0x0#32, 0x0#32, 0x0#32, 0x0#32⟩
  | .CL_TRG_MISSED => ⟨true, 0x18018, 8, 0x40, 0x0#32, 0x0#32, 0x0#32, 0x0#32, 0x0#32⟩
  | .CL_TRG_FIRECNT => ⟨true, 0x1801c, 8, 0x40, 0x0#32, 0x0#32, 0x0#32, 0x0#32, 0x0#32⟩
  | .CL_TRG_MVAL_H => ⟨true, 0x18020, 8, 0x40, 0xffffffff#32, 0x0#32, 0x0#32, 0x0#32, 0x0#32⟩
  | .CL_TRG_MVAL_L => ⟨true, 0x18024, 8, 0x40, 0xffffffff#32, 0x0#32, 0x0#32, 0x0#32, 0x0#32⟩
  | .CL_TRG_MMASK_H => ⟨true, 0x18028, 8, 0x40, 0xffffffff#32, 0x0#32, 0x0#32, 0x0#32, 0x0#32⟩
  | .CL_TRG_MMASK_L => ⟨true, 0x1802c, 8, 0x40, 0xffffffff#32, 0x0#32, 0x0#32, 0x0#32, 0x0#32⟩
  | .CL_TRG_CTRL => ⟨true, 0x18030, 8, 0x40, 0x0#32, 0x0#32, 0x0#32, 0x0#32, 0x0#32⟩
  | .CL_TRG_USTAT => ⟨true, 0x18034, 8, 0x40, 0x0#32, 0x0#32, 0x0#32, 0x0#32, 0x0#32⟩
  | .CL_TRG_STAT => ⟨true, 0x18400, 1, 0x4, 0x0#32, 0x0#32, 0x0#32, 0x0#32, 0x0#32⟩
  | .CL_TRG_WIN_BASE => ⟨true, 0x18404, 1, 0x4, 0x3ffff80#32, 0x0#32, 0x0#32, 0x0#32, 0x0#32⟩
  | .CL_TRG_WIN_SIZE => ⟨true, 0x18408, 1, 0x4, 0xffff#32, 0x0#32, 0x0#32, 0x0#32, 0x0#32⟩
  | .CL_TRG_WIN_WPTR => ⟨true, 0x1840c, 1, 0x4, 0x0#32, 0x0#32, 0x0#32, 0x0#32, 0x0#32⟩
  | .CL_TRG_WIN_RPTR => ⟨true, 0x18410, 1, 0x4, 0xffff#32, 0x0#32, 0x0#32, 0x0#32, 0x0#32⟩
  | .CL_TRG_RECNO => ⟨true, 0x18414, 1, 0x4, 0x0#32, 0x0#32, 0x0#32, 0x0#32, 0x0#32⟩
  | .CL_TRG_EVT => ⟨true, 0x18418, 1, 0x4, 0x0#32, 0x7ffff#32, 0x0#32, 0x0#32, 0x0#32⟩
  | .CL_TRG_EVT_EN => ⟨true, 0x1841c, 1, 0x4, 0x7ffff#32, 0x0#32, 0x0#32, 0x0#32, 0x0#32⟩
  | .CL_CAP_CTRL => ⟨true, 0x18800, 2, 0x40, 0xfc#32, 0x0#32, 0x0#32, 0x0#32, 0x0#32⟩
  | .CL_CAP_MASK => ⟨true, 0x18804, 2, 0x40, 0xffffffff#32, 0x0#32, 0x0#32, 0x0#32, 0x0#32⟩
  | .CL_CAP_IVAL => ⟨true, 0x18808, 2, 0x40, 0xffffffff#32, 0x0#32, 0x1#32, 0x0#32, 0x0#32⟩
  | .CL_CAP_WIN_BASE => ⟨true, 0x1880c, 2, 0x40, 0x3fffff8#32, 0x0#32, 0x0#32, 0x0#32, 0x0#32⟩
  | .CL_CAP_WIN_SIZE => ⟨true, 0x18810, 2, 0x40, 0xfffff#32, 0x0#32, 0x0#32, 0x0#32, 0x0#32⟩
  | .CL_CAP_WIN_WPTR => ⟨true, 0x18814, 2, 0x40, 0x0#32, 0x0#32, 0x0#32, 0x0#32, 0x0#32⟩
  | .CL_CAP_WIN_RPTR => ⟨true, 0x18818, 2, 0x40, 0xfffff#32, 0x0#32, 0x0#32, 0x0#32, 0x0#32⟩
  | .CL_CAP_T0_LO => ⟨true, 0x1881c, 2, 0x40, 0x0#32, 0x0#32, 0x0#32, 0x0#32, 0x0#32⟩
  | .CL_CAP_T0_HI => ⟨true, 0x18820, 2, 0x40, 0x0#32, 0x0#32, 0x0#32, 0x0#32, 0x0#32⟩
  | .CL_CAP_STAT => ⟨true, 0x18824, 2, 0x40, 0x0#32, 0x0#32, 0x0#32, 0x0#32, 0x0#32⟩
  | .CL_CAP_ICNT => ⟨true, 0x18828, 2, 0x40, 0x0#32, 0x0#32, 0x0#32, 0x0#32, 0x0#32⟩
  | .CL_CAP_LOST => ⟨true, 0x1882c, 2, 0x40, 0x0#32, 0x0#32, 0x0#32, 0x0#32, 0x0#32⟩
  | .CL_CAP_EVT => ⟨true, 0x18c00, 1, 0x4, 0x0#32, 0x3f#32, 0x0#32, 0x0#32, 0x0#32⟩
  | .CL_CAP_EVT_EN => ⟨true, 0x18c04, 1, 0x4, 0x3f#32, 0x0#32, 0x0#32, 0x0#32, 0x0#32⟩
  | .CL_AWG_CTRL => ⟨true, 0x19000, 2, 0x100, 0x3ff00dc#32, 0x0#32, 0x0#32, 0x0#32, 0x0#32⟩
  | .CL_AWG_STAT => ⟨true, 0x19004, 2, 0x100, 0x0#32, 0x0#32, 0x0#32, 0x0#32, 0x0#32⟩
  | .CL_AWG_TSTART_LO => ⟨true, 0x19008, 2, 0x100, 0xffffffff#32, 0x0#32, 0x0#32, 0x0#32, 0x0#32⟩
  | .CL_AWG_TSTART_HI => ⟨true, 0x1900c, 2, 0x100, 0xffffffff#32, 0x0#32, 0x0#32, 0x0#32, 0x0#32⟩
  | .CL_AWG_ROUTE => ⟨true, 0x19010, 2, 0x100, 0x1f03#32, 0x0#32, 0x0#32, 0x0#32, 0x0#32⟩
  | .CL_AWG_CLR => ⟨true, 0x19014, 2, 0x100, 0xffff#32, 0x0#32, 0xb500#32, 0x0#32, 0x0#32⟩
  | .CL_AWG_JUMP => ⟨true, 0x19018, 2, 0x100, 0x3ff#32, 0x0#32, 0x0#32, 0x0#32, 0x0#32⟩
  | .CL_AWG_JCFG => ⟨true, 0x1901c, 2, 0x100, 0x3ff000f#32, 0x0#32, 0x0#32, 0x0#32, 0x0#32⟩
  | .CL_AWG_TIDX => ⟨true, 0x19020, 2, 0x100, 0x3ff#32, 0x0#32, 0x0#32, 0x0#32, 0x0#32⟩
  | .CL_AWG_TDATA_LO => ⟨true, 0x19024, 2, 0x100, 0x0#32, 0x0#32, 0x0#32, 0x0#32, 0x0#32⟩
  | .CL_AWG_TDATA_HI => ⟨true, 0x19028, 2, 0x100, 0x0#32, 0x0#32, 0x0#32, 0x0#32, 0x0#32⟩
  | .CL_AWG_FTW_LO => ⟨true, 0x1902c, 2, 0x100, 0x0#32, 0x0#32, 0x0#32, 0x0#32, 0x0#32⟩
  | .CL_AWG_FTW_HI => ⟨true, 0x19030, 2, 0x100, 0x0#32, 0x0#32, 0x0#32, 0x0#32, 0x0#32⟩
  | .CL_AWG_POFF_LO => ⟨true, 0x19034, 2, 0x100, 0x0#32, 0x0#32, 0x0#32, 0x0#32, 0x0#32⟩
  | .CL_AWG_POFF_HI => ⟨true, 0x19038, 2, 0x100, 0x0#32, 0x0#32, 0x0#32, 0x0#32, 0x0#32⟩
  | .CL_AWG_AMP => ⟨true, 0x1903c, 2, 0x100, 0xffffffff#32, 0x0#32, 0x0#32, 0x0#32, 0x0#32⟩
  | .CL_AWG_JCNT => ⟨true, 0x19040, 2, 0x100, 0x0#32, 0x0#32, 0x0#32, 0x0#32, 0x0#32⟩
  | .CL_AWG_JLOST => ⟨true, 0x19044, 2, 0x100, 0x0#32, 0x0#32, 0x0#32, 0x0#32, 0x0#32⟩
  | .CL_AWG_TJUMP_LO => ⟨true, 0x19048, 2, 0x100, 0x0#32, 0x0#32, 0x0#32, 0x0#32, 0x0#32⟩
  | .CL_AWG_TJUMP_HI => ⟨true, 0x1904c, 2, 0x100, 0x0#32, 0x0#32, 0x0#32, 0x0#32, 0x0#32⟩
  | .CL_AWG_EVT => ⟨true, 0x19050, 2, 0x100, 0x0#32, 0x3ff#32, 0x0#32, 0x0#32, 0x0#32⟩
  | .CL_AWG_EVT_EN => ⟨true, 0x19054, 2, 0x100, 0x3ff#32, 0x0#32, 0x0#32, 0x0#32, 0x0#32⟩
  | .CH_TS_CTRL => ⟨true, 0x1a000, 32, 0x80, 0xf#32, 0x0#32, 0x0#32, 0x0#32, 0x0#32⟩
  | .CH_TS_DEAD_RISE => ⟨true, 0x1a004, 32, 0x80, 0x0#32, 0x0#32, 0x0#32, 0x0#32, 0x0#32⟩
  | .CH_TS_DEAD_FALL => ⟨true, 0x1a008, 32, 0x80, 0x0#32, 0x0#32, 0x0#32, 0x0#32, 0x0#32⟩
  | .CH_RG_CTRL => ⟨true, 0x1a010, 32, 0x80, 0x1fc#32, 0x0#32, 0x0#32, 0x0#32, 0x0#32⟩
  | .CH_RG_STAT => ⟨true, 0x1a014, 32, 0x80, 0x0#32, 0x0#32, 0x0#32, 0x0#32, 0x0#32⟩
  | .CH_RG_TSTART_LO => ⟨true, 0x1a018, 32, 0x80, 0xffffffff#32, 0x0#32, 0x0#32, 0x0#32, 0x0#32⟩
  | .CH_RG_TSTART_HI => ⟨true, 0x1a01c, 32, 0x80, 0xffffffff#32, 0x0#32, 0x0#32, 0x0#32, 0x0#32⟩
  | .CH_RG_GLEN_LO => ⟨true, 0x1a020, 32, 0x80, 0xffffffff#32, 0x0#32, 0x1f40#32, 0x0#32, 0x0#32⟩
  | .CH_RG_GLEN_HI => ⟨true, 0x1a024, 32, 0x80, 0x1f#32, 0x0#32, 0x0#32, 0x0#32, 0x0#32⟩
  | .CH_RG_N_LO => ⟨true, 0x1a028, 32, 0x80, 0x0#32, 0x0#32, 0x0#32, 0x0#32, 0x0#32⟩
  | .CH_RG_N_HI => ⟨true, 0x1a02c, 32, 0x80, 0x0#32, 0x0#32, 0x0#32, 0x0#32, 0x0#32⟩
  | .CH_RG_EDGES_LO => ⟨true, 0x1a030, 32, 0x80, 0x0#32, 0x0#32, 0x0#32, 0x0#32, 0x0#32⟩
  | .CH_RG_EDGES_HI => ⟨true, 0x1a034, 32, 0x80, 0x0#32, 0x0#32, 0x0#32, 0x0#32, 0x0#32⟩
  | .CH_RG_PER_LO => ⟨true, 0x1a038, 32, 0x80, 0x0#32, 0x0#32, 0x0#32, 0x0#32, 0x0#32⟩
  | .CH_RG_PER_HI => ⟨true, 0x1a03c, 32, 0x80, 0x0#32, 0x0#32, 0x0#32, 0x0#32, 0x0#32⟩
  | .CH_RG_FREQ_LO => ⟨true, 0x1a040, 32, 0x80, 0x0#32, 0x0#32, 0x0#32, 0x0#32, 0x0#32⟩
  | .CH_RG_FREQ_HI => ⟨true, 0x1a044, 32, 0x80, 0x0#32, 0x0#32, 0x0#32, 0x0#32, 0x0#32⟩
  | .CH_RG_RESID => ⟨true, 0x1a048, 32, 0x80, 0x0#32, 0x0#32, 0x0#32, 0x0#32, 0x0#32⟩
  | .CH_RG_FINE => ⟨true, 0x1a04c, 32, 0x80, 0x0#32, 0x0#32, 0x0#32, 0x0#32, 0x0#32⟩
  | .CH_RG_FIRST_LO => ⟨true, 0x1a050, 32, 0x80, 0x0#32, 0x0#32, 0x0#32, 0x0#32, 0x0#32⟩
  | .CH_RG_FIRST_HI => ⟨true, 0x1a054, 32, 0x80, 0x0#32, 0x0#32, 0x0#32, 0x0#32, 0x0#32⟩
  | .CH_RG_LAST_LO => ⟨true, 0x1a058, 32, 0x80, 0x0#32, 0x0#32, 0x0#32, 0x0#32, 0x0#32⟩
  | .CH_RG_LAST_HI => ⟨true, 0x1a05c, 32, 0x80, 0x0#32, 0x0#32, 0x0#32, 0x0#32, 0x0#32⟩
  | .CH_RG_DISC => ⟨true, 0x1a060, 32, 0x80, 0x0#32, 0x0#32, 0x0#32, 0x0#32, 0x0#32⟩
  | .CH_RG_NINT => ⟨true, 0x1a064, 32, 0x80, 0xffffffff#32, 0x0#32, 0x1#32, 0x0#32, 0x0#32⟩
  | .CL_MR_CMD => ⟨true, 0x1b000, 1, 0x4, 0x0#32, 0x0#32, 0x0#32, 0x0#32, 0x0#32⟩
  | .CL_MR_STAT => ⟨true, 0x1b004, 1, 0x4, 0x0#32, 0x0#32, 0x0#32, 0x0#32, 0x0#32⟩
  | .CL_MR_ID => ⟨true, 0x1b008, 1, 0x4, 0x0#32, 0x0#32, 0x0#32, 0x0#32, 0x0#32⟩
  | .CL_MR_RADDR => ⟨true, 0x1b00c, 1, 0x4, 0x0#32, 0x0#32, 0x0#32, 0x0#32, 0x0#32⟩
  | .CL_MR_UADDR => ⟨true, 0x1b010, 1, 0x4, 0x0#32, 0x0#32, 0x0#32, 0x0#32, 0x0#32⟩
  | .CL_MR_DIGEST => ⟨true, 0x1b014, 1, 0x4, 0x0#32, 0x0#32, 0x0#32, 0x0#32, 0x0#32⟩
  | .CL_MR_TOUCHED => ⟨true, 0x1b018, 1, 0x4, 0x0#32, 0x0#32, 0x0#32, 0x0#32, 0x0#32⟩
  | .CL_MR_REFUSE => ⟨true, 0x1b01c, 1, 0x4, 0x0#32, 0x0#32, 0x0#32, 0x0#32, 0x0#32⟩
  | .CL_MR_RES_BASE => ⟨true, 0x1b020, 1, 0x4, 0x1ffff#32, 0x0#32, 0x0#32, 0x0#32, 0x0#32⟩
  | .CL_MR_RES_CNT => ⟨true, 0x1b024, 1, 0x4, 0xffff#32, 0x0#32, 0x0#32, 0x0#32, 0x0#32⟩
  | .CL_MR_EVT => ⟨true, 0x1b028, 1, 0x4, 0x0#32, 0x3f#32, 0x0#32, 0x0#32, 0x0#32⟩
  | .CL_MR_EVT_EN => ⟨true, 0x1b02c, 1, 0x4, 0x3f#32, 0x0#32, 0x0#32, 0x0#32, 0x0#32⟩
  | .CL_MR_LC => ⟨true, 0x1b040, 8, 0x4, 0x0#32, 0x0#32, 0x0#32, 0x0#32, 0x0#32⟩

/-- Every register, in the order of the table. -/
def allRegs0 : List Reg := [
  .DEV_ID, .DEV_STEP, .DEV_UID_LO, .DEV_UID_HI, .DEV_CAP, .ID_CARD, .ID_SLOT, .ID_LOCK, .ID_CLU_RST, .HALLMARK_VER,
  .HALLMARK_BUILD, .HALLMARK_STAT, .HALLMARK_MINVER, .HALLMARK_KEYHASH, .HALLMARK_PATCH_ADDR, .HALLMARK_PATCH_LEN,
  .HALLMARK_PATCH_CTRL, .DOM_SELF, .DOM_MGMT, .DOM_CLU, .DOM_WREF_INFO, .DOM_WREF_ADDR, .HL_STAT, .HL_CTRL, .HL_EVT,
  .HL_EVT_EN, .HL_RERR, .HL_RERR_ADDR, .HDMA0_CTRL, .HDMA0_RING_LO, .HDMA0_RING_HI, .HDMA0_RSIZE, .HDMA0_TAIL,
  .HDMA0_HEAD, .HDMA1_CTRL, .HDMA1_RING_LO, .HDMA1_RING_HI, .HDMA1_RSIZE, .HDMA1_TAIL, .HDMA1_HEAD]
def allRegs1 : List Reg := [
  .TXN_CTRL, .TXN_STAT, .TXN_TIME_LO, .TXN_TIME_HI, .TXN_RES, .TXN_FAIL_ADDR, .TXN_FAIL_RES, .TXN_TDONE_LO,
  .TXN_TDONE_HI, .TXN_CNT, .EVT_STAT, .EVT_PEND0, .EVT_PEND1, .EVT_PEND2, .EVT_PEND3, .EVT_ROUTE, .FLT_CTRL,
  .FLT_STAT, .FLT_MERGE_CNT, .FLT_QUIET, .FLT_EVT, .FLT_EVT_EN, .FLT_INJECT_LO, .FLT_INJECT_HI, .FLT_RET_CLU,
  .FLT_RET_CH, .FLT_STICKY, .FLT_ACTIVE, .FLT_REACT, .FLT_RECOV, .ASY_CTRL, .ASY_MASK, .ASY_EVT, .ASY_EVT_EN,
  .ASY_STAT, .ASY_TGT, .ASY_RUNS, .ASY_PASS, .ASY_FAIL, .BANK_OWN]
def allRegs2 : List Reg := [
  .BANK_STATE, .MP_REPAIR, .MP_ALIAS, .MP_EVT, .MP_EVT_EN, .MP_REFUSE_CNT, .MP_COLL_CNT, .MP_REFUSE_ADDR,
  .MP_REFUSE_INFO, .SLC_IDX, .SLC_DATA, .SLC_COMMIT, .SLC_STAT, .LOT_TKT, .LOT_COMMIT, .LOT_LFSR, .LOT_STAT,
  .SEM_ACQ, .SEM_REL, .SEM_STAT, .SEM_RES, .SEM_DENIED, .SEM_EVT, .SEM_EVT_EN, .CLK_STAT, .CLK_REF_LAST,
  .CLK_REF_JUDGES, .CLK_PLL_CFG, .CLK_PLL_LAST, .CLK_FAULT_CNT, .CLK_GAP, .PWR_CTRL, .PWR_STAT, .PWR_AUTO_T,
  .PWR_WAKE_EN, .PWR_WAKE_TIME_LO, .PWR_WAKE_TIME_HI, .PWR_BANK_RET_LO, .PWR_BANK_RET_HI, .PWR_CLU_GATE]
def allRegs3 : List Reg := [
  .PWR_RAIL, .PWR_SLEEP_CNT, .CLK_EVT, .CLK_EVT_EN, .GOV_CTRL, .GOV_STAT, .GOV_SUM_IBUD, .GOV_SUM_PBUD, .GOV_EVT,
  .GOV_EVT_EN, .GOV_NOM_IBUD, .GOV_NOM_PBUD, .GOV_CLU, .THS_TEMP, .THS_LIM, .THS_RATE, .THS_DIODE, .THS_SCOPE,
  .CAL_CTRL, .CAL_STAT, .CAL_REFV_CERT, .CAL_REFV_MEAS, .CAL_RATE, .CAL_GRACE, .CAL_REF_INTV, .CAL_INTV, .CAL_EVT,
  .CAL_EVT_EN, .RING_CTRL, .RING_CFG, .RING_STAT, .RING_WIRE, .RING_TLEAD, .RING_LINE_TX, .RING_TCFG, .RING_HB,
  .RING_TERR, .RING_TFINE, .RING_TIME_LO, .RING_TIME_HI]
def allRegs4 : List Reg := [
  .RING_ROUNDS, .RING_CRCERR, .RING_TLOST, .RING_MSGFAIL, .RING_EVT, .RING_EVT_EN, .RING_PEER, .RING_PEERX,
  .BOOT_STAT, .BOOT_SECERR, .BOOT_CFG_CNT, .BOOT_IMG_LEN, .PSM_CTRL, .PSM_STAT, .PSM_TX, .PSM_RX, .MSP_HSTAT,
  .MSP_HCTRL, .MBX_IN, .MBX_OUT, .SER_EVT, .SER_EVT_EN, .CAP_CTRL, .CAP_STAT, .CAP_ERRIDX, .CAP_FLOW_BASE,
  .CAP_MAP_BASE, .CAP_MAP_CNT, .CAP_LEAD, .CAP_PRB, .CAP_RING_MASK, .CAP_DLOG_BASE, .CAP_DLOG_SIZE, .CAP_DLOG_WPTR,
  .CAP_DLOG_RPTR, .CAP_RT_BASE, .CAP_RT_CNT, .CAP_DMA, .CAP_HBUF_LO, .CAP_HBUF_HI]
def allRegs5 : List Reg := [
  .CAP_HBUF_SIZE, .CAP_FLOWNO, .CAP_TF_LO, .CAP_TF_HI, .CAP_TEND_LO, .CAP_TEND_HI, .CAP_EVT, .CAP_EVT_EN, .CAP_FENCE,
  .CAP_HBIN_CNT, .CAP_SBIN_CNT, .CAP_SITE, .LR_BASE, .LR_STAGE, .LR_STAT, .LR_SEQ, .LR_TLAST_LO, .LR_TLAST_HI,
  .LR_EVT, .LR_EVT_EN, .CL_SEQ_CTRL, .CL_SEQ_ADDR, .CL_SEQ_TSTART_LO, .CL_SEQ_TSTART_HI, .CL_SEQ_STAT, .CL_SEQ_PC,
  .CL_SEQ_RES, .CL_SEQ_VCNT_LO, .CL_SEQ_VCNT_HI, .CL_SEQ_STALLS, .CL_SEQ_HOLDV, .CL_SEQ_BUBBLES, .CL_SEQ_TEND_LO,
  .CL_SEQ_TEND_HI, .CL_SEQ_LOG, .CL_SEQ_LOST, .CL_SEQ_EVT, .CL_SEQ_EVT_EN, .CL_SEQ_FFVALID, .CL_SEQ_FCNT]
def allRegs6 : List Reg := [
  .CL_SEQ_FFIRST, .CL_HOP_CTRL, .CL_HOP_RING, .CL_HOP_RSIZE, .CL_HOP_TAIL, .CL_HOP_HEAD, .CL_HOP_LVL, .CL_HOP_STAT,
  .CL_HOP_LEVEL, .CL_HOP_LOG_BASE, .CL_HOP_LOG_SIZE, .CL_HOP_LOG_WPTR, .CL_HOP_LOG_RPTR, .CL_HOP_EVT, .CL_HOP_EVT_EN,
  .CL_TS_STAT, .CL_TS_WIN_BASE, .CL_TS_WIN_SIZE, .CL_TS_WIN_WPTR, .CL_TS_WIN_RPTR, .CL_TS_LOST, .CL_TS_EPOCH,
  .CL_TS_DONE, .CL_TS_EVT, .CL_TS_EVT_EN, .CL_CAL_CTRL, .CL_CAL_STAT, .CL_CAL_CNT, .CL_CAL_TLAST_LO,
  .CL_CAL_TLAST_HI, .CL_CAL_DUE_LO, .CL_CAL_DUE_HI, .CL_CAL_EVT, .CL_CAL_EVT_EN, .CL_CAL_QUAL, .CL_STORE_STAT,
  .CL_STORE_EVT, .CL_STORE_EVT_EN, .CL_STORE_PAR_ADDR, .CL_STORE_PAR_CNT]
def allRegs7 : List Reg := [
  .CL_STORE_ILL_ADDR, .CL_STORE_CTRL, .CL_TIM_CTRL, .CL_TIM_STAT, .CL_TIM_PEND_AGE, .CL_TIM_EVT, .CL_TIM_EVT_EN,
  .CL_TIM_BAND_CNT, .CL_TS_PER, .CL_BLANK_TMR, .CL_PM_IBUD, .CL_PM_PBUD, .CL_PM_ICLAIM, .CL_PM_PCLAIM, .CH_CTRL,
  .CH_STAT, .CH_LVL, .CH_CMP, .CH_CMP_STAT, .CH_BLANK, .CH_SELFCHK, .CH_WAKE, .CH_EVT, .CH_EVT_EN, .CH_OC_CNT,
  .CH_PM_CTRL, .CH_PM_FV, .CH_PM_FI, .CH_PM_ICLH, .CH_PM_ICLL, .CH_PM_VCLH, .CH_PM_VCLL, .CH_PM_APER, .CH_PM_STAT,
  .CH_PM_RES, .CH_PM_RES_TLO, .CH_PM_RES_THI, .CH_PM_SAMPLE, .CH_PM_ICLAIM, .CH_PM_PCLAIM]
def allRegs8 : List Reg := [
  .CH_PM_OC_CNT, .EDGE_TAB, .LEVEL_TAB, .CORR_TAB, .FIX_TAB, .STCORR_TAB, .AWG_TRIM, .CH_TRIM, .CL_TRG_CFG,
  .CL_TRG_SRC, .CL_TRG_LIMA, .CL_TRG_LIMB, .CL_TRG_ACT, .CL_TRG_HOLDOFF, .CL_TRG_MISSED, .CL_TRG_FIRECNT,
  .CL_TRG_MVAL_H, .CL_TRG_MVAL_L, .CL_TRG_MMASK_H, .CL_TRG_MMASK_L, .CL_TRG_CTRL, .CL_TRG_USTAT, .CL_TRG_STAT,
  .CL_TRG_WIN_BASE, .CL_TRG_WIN_SIZE, .CL_TRG_WIN_WPTR, .CL_TRG_WIN_RPTR, .CL_TRG_RECNO, .CL_TRG_EVT, .CL_TRG_EVT_EN,
  .CL_CAP_CTRL, .CL_CAP_MASK, .CL_CAP_IVAL, .CL_CAP_WIN_BASE, .CL_CAP_WIN_SIZE, .CL_CAP_WIN_WPTR, .CL_CAP_WIN_RPTR,
  .CL_CAP_T0_LO, .CL_CAP_T0_HI, .CL_CAP_STAT]
def allRegs9 : List Reg := [
  .CL_CAP_ICNT, .CL_CAP_LOST, .CL_CAP_EVT, .CL_CAP_EVT_EN, .CL_AWG_CTRL, .CL_AWG_STAT, .CL_AWG_TSTART_LO,
  .CL_AWG_TSTART_HI, .CL_AWG_ROUTE, .CL_AWG_CLR, .CL_AWG_JUMP, .CL_AWG_JCFG, .CL_AWG_TIDX, .CL_AWG_TDATA_LO,
  .CL_AWG_TDATA_HI, .CL_AWG_FTW_LO, .CL_AWG_FTW_HI, .CL_AWG_POFF_LO, .CL_AWG_POFF_HI, .CL_AWG_AMP, .CL_AWG_JCNT,
  .CL_AWG_JLOST, .CL_AWG_TJUMP_LO, .CL_AWG_TJUMP_HI, .CL_AWG_EVT, .CL_AWG_EVT_EN, .CH_TS_CTRL, .CH_TS_DEAD_RISE,
  .CH_TS_DEAD_FALL, .CH_RG_CTRL, .CH_RG_STAT, .CH_RG_TSTART_LO, .CH_RG_TSTART_HI, .CH_RG_GLEN_LO, .CH_RG_GLEN_HI,
  .CH_RG_N_LO, .CH_RG_N_HI, .CH_RG_EDGES_LO, .CH_RG_EDGES_HI, .CH_RG_PER_LO]
def allRegs10 : List Reg := [
  .CH_RG_PER_HI, .CH_RG_FREQ_LO, .CH_RG_FREQ_HI, .CH_RG_RESID, .CH_RG_FINE, .CH_RG_FIRST_LO, .CH_RG_FIRST_HI,
  .CH_RG_LAST_LO, .CH_RG_LAST_HI, .CH_RG_DISC, .CH_RG_NINT, .CL_MR_CMD, .CL_MR_STAT, .CL_MR_ID, .CL_MR_RADDR,
  .CL_MR_UADDR, .CL_MR_DIGEST, .CL_MR_TOUCHED, .CL_MR_REFUSE, .CL_MR_RES_BASE, .CL_MR_RES_CNT, .CL_MR_EVT,
  .CL_MR_EVT_EN, .CL_MR_LC]
def allRegs : List Reg := allRegs0 ++ allRegs1 ++ allRegs2 ++ allRegs3 ++ allRegs4 ++ allRegs5 ++ allRegs6 ++ allRegs7 ++ allRegs8 ++ allRegs9 ++ allRegs10

/-- How many elements the register has on the whole part. -/
def Reg.size (r : Reg) : Nat := if r.row.cluster then 24 * r.row.count else r.row.count

/-- The element's index within its cluster (a cluster register's index is n * count + j). -/
def Reg.sub (r : Reg) (i : Nat) : Nat := if r.row.cluster then i % r.row.count else i

/-- The cluster whose window holds element i of a cluster register. -/
def Reg.cluOf (r : Reg) (i : Nat) : Nat := i / r.row.count

/-- The BAR0 address of element i (R503, R504, R505). -/
def Reg.addr (r : Reg) (i : Nat) : Nat :=
  if r.row.cluster then
    0x1000000 + Reg.cluOf r i * 0x100000 + r.row.base + Reg.sub r i * r.row.stride
  else r.row.base + i * r.row.stride

/-- The element of `r` at window offset (or global address) `off`, if `off` is one of its words. -/
def Reg.elemAt (r : Reg) (off : Nat) : Option Nat :=
  if r.row.base ≤ off ∧ (off - r.row.base) % r.row.stride = 0 ∧ (off - r.row.base) / r.row.stride < r.row.count then
    some ((off - r.row.base) / r.row.stride)
  else none

/-- The first register of a list that has a word at `off`. -/
def findReg (cluster : Bool) (off : Nat) : List Reg → Option (Reg × Nat)
  | [] => none
  | r :: rest =>
    if r.row.cluster = cluster then
      match r.elemAt off with
      | some j => some (r, j)
      | none => findReg cluster off rest
    else findReg cluster off rest

/-- The register and element at a BAR0 address, if the address holds one (R503, R504). -/
def regAt (a : Nat) : Option (Reg × Nat) :=
  if a < 0x1000000 then findReg false a allRegs
  else if a < 0x1000000 + 24 * 0x100000 then
    match findReg true ((a - 0x1000000) % 0x100000) allRegs with
    | some (r, j) => some (r, (a - 0x1000000) / 0x100000 * r.row.count + j)
    | none => none
  else none

/-- The value of element i after POR. Fused values are the part's own (R542); the tables of R346, R449, R440 and R49
give LOT_TKT, CAL_INTV, THS_DIODE, THS_SCOPE and LEVEL_TAB by element. -/
def Reg.porOf (r : Reg) (i : Nat) : Word :=
  match r with
  | .DEV_STEP => Config.devStep
  | .DEV_UID_LO => Config.devUidLo
  | .DEV_UID_HI => Config.devUidHi
  | .HALLMARK_MINVER => Config.hallmarkMinVer
  | .HALLMARK_KEYHASH => Config.hallmarkKeyHash i
  | .MP_REPAIR => Config.mpRepair i
  | .LOT_TKT => if i < 4 then 32#32 else if i = 4 then 64#32 else if i = 5 then 16#32 else if i = 6 then 4#32 else 16#32
  | .CAL_INTV => if i < 2 then 600#32 else if i = 2 then 300#32 else if i = 3 then 120#32 else 60#32
  | .THS_DIODE => if i < 28 then 0#32 else 0x4382#32
  | .THS_SCOPE => if i < 24 then BitVec.ofNat 32 (2 ^ i) else 0x00FFFFFF#32
  | .LEVEL_TAB => if i % 8 = 5 ∨ i % 8 = 6 then 0#32 else 0x4000#32
  | _ => r.row.por

/-- The bits of element i that store what is written. -/
def Reg.rwOf (r : Reg) (i : Nat) : Word :=
  match r with
  | .THS_DIODE => if i < 28 then 0#32 else 0x0000FFF3#32
  | .THS_SCOPE => if i < 28 then 0#32 else 0x00FFFFFF#32
  | .LEVEL_TAB => if i % 8 = 5 ∨ i % 8 = 6 then 0x7FFF#32 else 0xFFFF#32
  | .CH_TRIM => if (20 ≤ i % 64 ∧ i % 64 < 24) ∨ 32 ≤ i % 64 then 0#32 else 0xFFFFFFFF#32
  | _ => r.row.rw

/-- The key of an element in State.regs: 512 exceeds every register's number. -/
def Reg.key (r : Reg) (i : Nat) : Nat := i * 512 + r.ctorIdx

/-- The value after POR of the element that has this key. -/
def porOfKey (k : Nat) : Word := (Reg.ofNat (k % 512)).porOf (k / 512)

/-- Element index of a cluster's single register, of its k-th of `m`, and of a channel's. -/
def chIx (n : Fin 24) (c : Fin 32) : Nat := n.val * 32 + c.val

end Sys2Proof.Machine
end

