-- ==== Sys2Proof/Machine/Sparse.lean ====
section
/-! DEFINITION. Sys2Proof/Machine/Sparse.lean: sparse tables in one canonical form: keys strictly rising, no entry equal
to what an unlisted key holds. Registers, Millpond, the stores and every per-cluster or per-channel record are held so. -/

namespace Sys2Proof.Machine

/-- What the table holds at `k`: its entry, or the default `d`. -/
def tabGet {α : Type} (d : α) : List (Nat × α) → Nat → α
  | [], _ => d
  | (k', v) :: r, k => if k = k' then v else tabGet d r k

/-- The table without the key `k`. -/
def tabErase {α : Type} : List (Nat × α) → Nat → List (Nat × α)
  | [], _ => []
  | (k', v) :: r, k => if k = k' then tabErase r k else (k', v) :: tabErase r k

/-- The table with the entry (k, v) in its place by key. -/
def tabInsert {α : Type} : List (Nat × α) → Nat → α → List (Nat × α)
  | [], k, v => [(k, v)]
  | (k', v') :: r, k, v =>
    if k < k' then (k, v) :: (k', v') :: r
    else if k = k' then (k, v) :: r
    else (k', v') :: tabInsert r k v

/-- The table holding `v` at `k`; `d` is what an unlisted `k` holds, so writing `d` removes the entry. -/
def tabSet {α : Type} [DecidableEq α] (d : α) (t : List (Nat × α)) (k : Nat) (v : α) : List (Nat × α) :=
  if v = d then tabErase t k else tabInsert t k v

/-- Keys strictly rise, each above `lo` (`lo` is one more than the key before). -/
def tabRising {α : Type} : Nat → List (Nat × α) → Bool
  | _, [] => true
  | lo, (k, _) :: r => decide (lo ≤ k) && tabRising (k + 1) r

/-- The canonical form: keys strictly rising and no entry equal to the default at its key. -/
def tabWf {α : Type} [DecidableEq α] (d : Nat → α) (t : List (Nat × α)) : Bool :=
  tabRising 0 t && t.all (fun e => decide (e.2 ≠ d e.1))

/-- The table with each entry (k, v) changed to `f k v`, entries that come to equal the default `d k` removed. -/
def tabMap {α : Type} [DecidableEq α] (d : Nat → α) (f : Nat → α → α) : List (Nat × α) → List (Nat × α)
  | [] => []
  | (k, v) :: r => if f k v = d k then tabErase (tabMap d f r) k else (k, f k v) :: tabMap d f r

end Sys2Proof.Machine
end

