-- ==== Sys2Proof/Machine/State.lean ====
section
/-! DEFINITION. Sys2Proof/Machine/State.lean: the state of the FA-768 as plain data, its reset, faults and refusals.
Registers are one sparse list (see Machine/Regs.lean for what an unlisted register holds); everything the manual gives
the part that no register shows stands in records of its own. Every sparse list has keys strictly rising and lists no
entry equal to what an unlisted key holds (Machine/Sparse.lean). -/

namespace Sys2Proof.Machine

/-- Why the machine stops. No meaning of this model raises one: every command and event of the table has an effect the
spec states, or does not occur in the state at hand. Kept closed and named so that statements can list it. -/
inductive Fault where
  /-- An operand that no access of the hardware can carry. Raised by no meaning today; safe (the machine would stop). -/
  | illFormed (what : String)
  deriving DecidableEq, Repr

/-- Why the machine refuses a command. -/
inductive Refusal where
  /-- A command that has no meaning in the model yet, by its row's mnemonic. Raised by exec's own arms; safe. -/
  | notModelled (mnemonic : String)
  deriving DecidableEq, Repr

/-! ### The channel (chapters "The channel", "Per-pin parametric unit", "Time stamping") -/

/-- The disconnect switch (R33, R34, R38, R39). -/
inductive Sw where
  | opened | closing | closed | opening
  deriving DecidableEq, Repr

/-- The level a driver drives (R42): VIL, VIH or VTT. -/
inductive Lvl where
  | vil | vih | vtt
  deriving DecidableEq, Repr

/-- A self-check in progress (R68 to R70): when it began (for a waiting one, when it was
asked for), whether it is a known-level check, and whether it waits for the calibration bus. -/
structure SelfChk where
  since : Nat
  known : Bool
  waits : Bool
  deriving DecidableEq, Repr

/-- What a measurement started by MST will write as its routine result record (R218): result index, RANGE and MMODE at
its start, whether it started inside a routine. -/
structure MstTok where
  r : Nat
  range : Nat
  mmode : Nat
  inRtn : Bool
  deriving DecidableEq, Repr

/-- A measurement in progress (R92, R94 to R98): the first MEAS edge of its delay, the conversions still to discard, the
aperture's length and first edge, the sum of its samples so far, its flags, and its token if an MST started it. -/
structure Meas where
  t0 : Nat
  delay : Nat
  need : Nat
  aper : Nat
  got : Nat
  sum : Int
  ovr : Bool
  settling : Bool
  clamped : Bool
  tok : Option MstTok
  stale : Bool
  deriving DecidableEq, Repr

/-- A gate armed or open (R238 to R247): its ends, whether the series waits for the next G0, the exact integer sums over
its stamps, the first and last stamps (codes), the edge-counter value at the first, and, for a statistics gate, the
opening stamp of the interval under way, extremes, sums and discards. -/
structure Gate where
  g0 : Nat
  g1 : Nat
  waiting : Bool
  n : Nat
  first : Nat
  last : Nat
  base : Nat
  lastI : Nat
  si : Nat
  sii : Nat
  st : Nat
  stt : Nat
  sit : Nat
  pend : Option Nat
  lo : Nat
  hi : Nat
  disc : Nat
  blanked : Bool
  changed : Bool
  bandSw : Bool
  stale : Bool
  deriving DecidableEq, Repr

/-- A result of the regression unit held back by the latch of R245: the words of CH_RG_N_LO to CH_RG_DISC in order. -/
abbrev RgResult := List Word

/-- The state of one channel that its registers do not show. -/
structure Chan where
  /-- The switch's position. -/
  sw : Sw := .opened
  /-- One more than the MGMT cycle in which the channel was last forced into safe state (R37). -/
  safeC : Nat := 0
  /-- The driver's data level last set (R121). -/
  lvl : Lvl := .vil
  /-- The pattern path has the driver on (R121); always false while CH_CTRL.DRV_EN is 0. -/
  drvOn : Bool := false
  /-- The high and low comparators' delivered states (R66). -/
  delivH : Bool := false
  delivL : Bool := false
  /-- When the high and low comparators entered UNRESOLVED (R61). -/
  unresH : Nat := 0
  unresL : Nat := 0
  /-- End of the blanking window, while one is open (R64). -/
  blankEnd : Option Nat := none
  selfchk : Option SelfChk := none
  /-- When a clamp of the parametric unit last began to act (R89, R90). -/
  clampAt : Nat := 0
  /-- When RANGE last changed (R86). -/
  rangeAt : Nat := 0
  /-- When RANGE_SETTLING last ended. -/
  settledAt : Nat := 0
  /-- The end of the last conversion (R92). -/
  convAt : Nat := 0
  /-- A MEAS edge on the grid of conversions (R94). -/
  grid : Nat := 0
  meas : Option Meas := none
  /-- Measurements over but not yet written, oldest first, each with whether it ended early (R95, R96). -/
  done : List (Meas × Bool) := []
  /-- The latch of R110: the time words held for the last CH_PM_RES read. -/
  pmLatch : Option (Word × Word) := none
  /-- Last stamp of the rising and falling units, in codes (R229). -/
  lastRise : Option Nat := none
  lastFall : Option Nat := none
  /-- The edge counters (R230). -/
  cntRise : Nat := 0
  cntFall : Nat := 0
  /-- Wrap-pending marks (R232). -/
  wrapRise : Bool := false
  wrapFall : Bool := false
  gate : Option Gate := none
  /-- The latch of R245 holds, and the result waiting behind it. -/
  rgLatched : Bool := false
  rgHeld : Option RgResult := none
  deriving DecidableEq, Repr

/-! ### The sequencer (chapters 05 to 07) -/

/-- A microword's address: LIB and ADDR (R146). -/
structure PAddr where
  lib : Bool
  a : Nat
  deriving DecidableEq, Repr

/-- A hold vector (R154): the nano-word (LIB, index) last declared, or none for the built-in word of keeps, and its
timing set. -/
structure HoldVec where
  nano : Option (Bool × Nat)
  ts : Nat
  deriving DecidableEq, Repr

/-- A routine as the front end sees it: its identifier, the stack depth of its entry CALL, and the caller's sets and
hold vector that its RET restores (R150, R154). -/
structure RtnFE where
  id : Nat
  depth : Nat
  sel : Word
  cond : Word
  hold : HoldVec
  deriving DecidableEq, Repr

/-- The front end (R170): program counter, loop counters, call stack (top first), select and condition sets, the hold
vector last declared, the routine, whether the word is the first reached by a CALL (R149), a pending RPT count. -/
structure FE where
  pc : PAddr
  ctrs : List Nat
  stack : List PAddr
  sel : Word
  cond : Word
  hold : HoldVec
  rtn : Option RtnFE
  called : Bool
  rpt : Option Nat
  deriving DecidableEq, Repr

/-- An entry of the queue between front end and issue stage (R170), in program order. Vector entries and waiting words
count against its 16 entries; the others are the zero-time words, applied at the next boundary (R200). -/
inductive QEntry where
  | vec (src : PAddr) (nano ts left : Nat) (match_ : Bool) (cond : Word) (ep : Nat)
  | hset (h : HoldVec)
  | wtrig (src : PAddr) (units timeout : Nat)
  | wct (src : PAddr) (target : Nat) (rel : Bool)
  | hold (src : PAddr) (count : Nat)
  | mst (src : PAddr) (r : Nat) (sel : Word)
  | mwait (src : PAddr)
  | wri (word : Nat) (value mask sel : Word)
  | rmark (step : Nat) (fe : FE)
  | rbeg (id : Nat) (fe : FE)
  | runw (a : PAddr)
  | rret (h : HoldVec)
  | stallPoint (at_ : PAddr)
  | stop (code : Nat)
  | illegal (a : PAddr)
  | badParity (a : PAddr) (nano : Option Nat)
  deriving DecidableEq, Repr

/-- A step that waits for its boundary (R155, R200): a WRI or WRN (word, value, mask, select set) or an MST (result index,
select set). -/
inductive StepEff where
  | wri (word : Nat) (value mask sel : Word)
  | mst (r : Nat) (sel : Word)
  deriving DecidableEq, Repr

/-- A wait in progress at the issue stage (R176): start of its first hold vector in ticks, hold vectors issued, whether
it is parked (R202), when a firing reached the issue stage. -/
structure Wait where
  start : Nat
  issued : Nat
  parked : Bool
  fired : Option Nat
  deriving DecidableEq, Repr

/-- VEC, MVEC or hold vector. -/
inductive VKind where
  | vec | mvec | hold
  deriving DecidableEq, Repr

/-- A committed vector whose results are not yet complete (R183). Times in codes. `res`: compare results by 2c + half,
unlisted 3 (NONE, R161); `caps`: capture codes by 2c + half, unlisted 0xF (R184). -/
structure Vec where
  seqNo : Nat
  num : Nat
  kind : VKind
  src : PAddr
  start : Nat
  stop : Nat
  cond : Word
  ep : Nat
  last : Bool
  inRtn : Bool
  hasCap : Bool
  res : List (Nat × Nat)
  caps : List (Nat × Nat)
  deriving DecidableEq, Repr

/-- What a placed edge does (R121): set the data level (code 0, 1, 2 or 10 of R159) and perhaps turn the driver on; turn
it off; turn it on; sample for a compare or capture code of a half; only open a blanking window (R64). -/
inductive EdgeAct where
  | level (code : Nat) (on : Bool)
  | off
  | on
  | sample (half code : Nat)
  | blank
  deriving DecidableEq, Repr

/-- A placed edge not yet reached: channel, edge number (R118), ball time in codes (R127), its vector, its action. -/
structure PEdge where
  c : Nat
  e : Nat
  at_ : Nat
  seqNo : Nat
  act : EdgeAct
  deriving DecidableEq, Repr

/-- A routine as the issue stage sees it (R198 to R202): identifier, start of its span in codes, step and front end at
its last mark boundary, channels touched, unwind address, whether no vector has been issued since the last RMARK,
whether that boundary's mark is an RMARK. -/
structure Rtn where
  id : Nat
  span : Nat
  step : Nat
  mark : FE
  touched : Word
  uaddr : Option PAddr
  fresh : Bool
  byMark : Bool
  deriving DecidableEq, Repr

/-- The part of a saved context that no register shows (R205). -/
structure Ctx where
  fe : FE
  fMatch : Bool
  fFail : Bool
  rtn : Rtn
  deriving DecidableEq, Repr

/-- A log record waiting in the log queue (R184): the vector and the microword's address and T(k) are in it. -/
structure LogRec where
  v : Vec
  fail : Bool
  deriving DecidableEq, Repr

/-- A measurement result on its way to the result window (R218). -/
structure ResRec where
  c : Nat
  tok : MstTok
  res : Word
  aper : Nat
  stale : Bool
  deriving DecidableEq, Repr

/-- The sequencer's hidden state. Times named in codes are 512 to the ROOT tick (R4). -/
structure Seq where
  fe : FE := ⟨⟨false, 0⟩, [0, 0, 0, 0, 0, 0, 0, 0], [], 0#32, 0xFFFFFFFF#32, ⟨none, 0⟩, none, false, none⟩
  /-- The front end executes words. -/
  feOn : Bool := false
  /-- CLRFs executed: a VEC's failures count for the fail flag only under the number it was queued with (R174). -/
  ep : Nat := 0
  q : List QEntry := []
  /-- Start of the next vector, in codes (R114), and T(0) in ticks. -/
  tNext : Nat := 0
  t0 : Nat := 0
  /-- Vectors handed on so far, hold vectors included, and the next vector number (R183). -/
  seqNo : Nat := 0
  /-- The hold vector at the issue stage (R154). -/
  hold : HoldVec := ⟨none, 0⟩
  infl : List Vec := []
  edges : List PEdge := []
  /-- Last placement of each edge of each channel: key 8c + e, value (vector, codes) (R124). -/
  lastPl : List (Nat × (Nat × Nat)) := []
  fFail : Bool := false
  fMatch : Bool := false
  /-- Vectors handed on when the match flag was last set by a wait (R174). -/
  matchNo : Nat := 0
  wait : Option Wait := none
  /-- Steps that take effect at the boundary tNext, if a vector is handed on there (R200). -/
  steps : List StepEff := []
  /-- When the last release reached the issue stage (R177). -/
  release : Option Nat := none
  /-- Stalled at the stall point at the head of the queue (R191). -/
  stalled : Bool := false
  /-- An ABORT or interruption on its way: when it reaches the issue stage, and its CL_MR_STAT.CAUSE. -/
  abort : Option (Nat × Nat) := none
  /-- The pattern is over but for its last vector: CL_SEQ_RES.CODE and EXIT to be. -/
  ending : Option (Nat × Nat) := none
  /-- End of the last vector handed on, in codes, or the time of a trap. -/
  lastEnd : Nat := 0
  /-- Vectors completed of late: number, start and stop (R269). -/
  past : List (Nat × (Nat × Nat)) := []
  rtn : Option Rtn := none
  unwind : Bool := false
  /-- The armed run is a resume (R210), an unwind by ABANDON (R211). -/
  resume : Bool := false
  ctx : Option Ctx := none
  /-- One more than the MGMT cycle in which the last pattern ended: the sequencer is idle from the next one on (R181). -/
  idleC : Nat := 0
  log : List LogRec := []
  results : List ResRec := []
  deriving DecidableEq, Repr

/-- A descriptor the Hopper is loading (R187, R188): its fields and how much is done. -/
structure Load where
  maddr : Nat
  mcnt : Nat
  close : Bool
  nostall : Bool
  last : Bool
  naddr : Nat
  pages : Nat
  /-- Nano-words and microwords copied so far. -/
  ndone : Nat
  mdone : Nat
  deriving DecidableEq, Repr

/-- The Hopper's hidden state (R186 to R194): the load in progress, how far each half is filled and whether it is
closed, the half being filled, and a descriptor error met; and when they last changed, with fills, closings and
CL_HOP_STAT.FINAL as they were before, which the issue stage goes on seeing for 16 ticks (R171). -/
structure Hop where
  load : Option Load := none
  fill0 : Nat := 0
  fill1 : Nat := 0
  closed0 : Bool := false
  closed1 : Bool := false
  half : Nat := 0
  /-- The first half has been chosen (R188). -/
  chosen : Bool := false
  waitHalf : Bool := false
  err : Bool := false
  seenAt : Nat := 0
  old0 : Nat := 0
  old1 : Nat := 0
  oldC0 : Bool := false
  oldC1 : Bool := false
  oldF : Bool := false
  deriving DecidableEq, Repr

/-- A word of the micro store: data, the parity groups that are wrong (R163), written by a NOSTALL load (R190). -/
structure MWord where
  w : Word := 0#32
  bad : BitVec 2 := 0#2
  nostall : Bool := false
  deriving DecidableEq, Repr

/-- A word of the nano store: data and the 32-bit slots whose parity is wrong (R163). -/
structure NWord where
  w : Nano := 0#256
  bad : BitVec 8 := 0#8
  deriving DecidableEq, Repr

/-- A stamp offered to the stamp queue (R231, R236). -/
structure StampRec where
  c : Nat
  falling : Bool
  s : Nat
  deriving DecidableEq, Repr

/-- A fault message (R463). -/
structure FaultMsg where
  src : Nat
  kind : Nat
  cls : Nat
  addr : Nat
  deriving DecidableEq, Repr
/-! ### Trigger units and capture engines (chapter 09) -/

/-- An event on its way to the trigger units (R252), with its event time E in ROOT ticks. -/
inductive TrigEvt where
  /-- A delivered edge of channel c's high or low comparator. -/
  | edge (c : Nat) (low up : Bool) (e : Nat)
  /-- A comparator's output as it stands without an edge being delivered (R63, R66). -/
  | level (c : Nat) (low v : Bool) (e : Nat)
  /-- A converter sample of channel c (R93). -/
  | sample (c : Nat) (v : Int) (e : Nat)
  /-- FAIL or FAIL_UNRESOLVED of a VEC vector, on the channels of the mask. -/
  | fail (mask : Word) (e : Nat)
  | patStart (e : Nat)
  | patEnd (e : Nat)
  | vector (num e : Nat)
  | ring (line e : Nat)
  deriving DecidableEq, Repr

/-- What a trigger unit tracks that its registers do not show: armed in the sample evaluated next, the armings and
disarmings still to act with the sample from which each does, the
opening edge of a pulse, runt or transition (E, rising), the timeout's reference, the source level or match last seen, its
last qualification (E) not yet used as a feeder and the one before a later use, the previous firing sample and the dead
time measured since (R265), whether it has fired since EN became 1. -/
structure TUnit where
  armed : Bool := false
  changes : List (Nat × Bool) := []
  opening : Option (Nat × Bool) := none
  since : Option Nat := none
  high : Bool := false
  qual : Option Nat := none
  fired : Option Nat := none
  rearmed : Option Nat := none
  deriving DecidableEq, Repr

/-- A trigger record waiting in the queue (R269): sample, number, fired units with MEAS, DEAD, E and polarity bit, flags. -/
structure TrigRec where
  j : Nat
  num : Nat
  fired : List (Nat × (Nat × (Nat × (Nat × Bool))))
  missed : Bool
  late : Bool
  sat : Bool
  vec : Option Nat
  deriving DecidableEq, Repr

/-- The trigger units of a cluster. -/
structure Trig where
  units : List (Nat × TUnit) := []
  evts : List TrigEvt := []
  /-- The next sample to be evaluated. -/
  nextJ : Nat := 0
  /-- The comparators' outputs as the units have seen them. -/
  outH : Word := 0#32
  outL : Word := 0#32
  /-- A qualification was missed since the previous record (R264). -/
  missed : Bool := false
  queue : List TrigRec := []
  /-- When the record queue last ceased to be full (R263). -/
  roomAt : Nat := 0
  /-- The two sources take turns (R268): the trigger queue was drained last. -/
  turn : Bool := false
  deriving DecidableEq, Repr

/-- The minimum and maximum of a channel's samples in a capture interval, how many there were, whether one reached a
limit (R274). -/
structure CapAcc where
  cnt : Nat
  lo : Int
  hi : Int
  ovr : Bool
  deriving DecidableEq, Repr

/-- The hidden state of a capture engine: T0, interval number, channels' samples so far, MARK, interval at whose end it
stops, record queue (each a number and its words). -/
structure Cpt where
  t0 : Nat := 0
  k : Nat := 0
  acc : List (Nat × CapAcc) := []
  mark : Bool := false
  stopK : Option Nat := none
  queue : List (List Word) := []
  deriving DecidableEq, Repr

/-! ### Generators (chapter 10) -/

/-- What a generator decided at its commit point (R288, R289): stop at the end of the pass (with or without a bad
entry), or the pass that follows: its entry, the entry's two words as loaded, passes of the entry left after it, and, if
a jump leads to it, whether the request arrived at or after a commit point (R294). -/
inductive AwgNext where
  | stop (bad : Bool)
  | pass (entry : Nat) (lo hi : Word) (left : Nat) (jump : Option Bool)
  deriving DecidableEq, Repr

/-- A DDS parameter write on its way to the first sample boundary at or after its arrival (R298): arrival, which
parameter (0 FTW, 1 POFF, 2 AMP), value. -/
structure DdsWrite where
  at_ : Nat
  which : Nat
  value : Nat
  deriving DecidableEq, Repr

/-- A jump request on its way or pending (R293 to R295): arrival in ticks, target entry, from a trigger unit, and, once it
is pending, whether it arrived at or after the commit point. -/
structure AwgJump where
  at_ : Nat
  target : Nat
  trig : Bool
  late : Bool
  deriving DecidableEq, Repr

/-- The state of a generator that its registers do not show. -/
structure Awg where
  /-- T0 of an armed or running generator (R291). -/
  t0 : Nat := 0
  /-- The pass in play: its start in ticks, entry, the entry's words as loaded, passes of the entry left after it. -/
  start : Nat := 0
  entry : Nat := 0
  lo : Word := 0#32
  hi : Word := 0#32
  left : Nat := 0
  next : Option AwgNext := none
  /-- Jump requests on their way, in order of arrival, and the pending one. -/
  coming : List AwgJump := []
  jump : Option AwgJump := none
  /-- Samples fetched and not yet played, the number in its pass of the first of them, and the fetch point: Millpond byte
  address and granules left of its pass. -/
  fifo : List Int := []
  pos : Nat := 0
  fetchAt : Nat := 0
  fetchLeft : Nat := 0
  /-- A fetch was refused: the generator stops when the samples before it have played (R290). -/
  refused : Bool := false
  /-- The sample boundary at which a requested stop acts (R292). -/
  stopAt : Option Nat := none
  /-- The code put out, the last played sample, and whether a stop holds it (R292). -/
  out : Int := -19200
  lastX : Int := -19200
  held : Bool := false
  /-- When the AUX current limit began to act (R283). -/
  scSince : Option Nat := none
  /-- Held LO words of TDATA, FTW and POFF (R287, R298). -/
  tdLo : Word := 0#32
  ftwLo : Word := 0#32
  poffLo : Word := 0#32
  dds : List DdsWrite := []
  /-- FTW, POFF, AMP in effect. -/
  ftw : Nat := 0
  poff : Nat := 0
  amp : Word := 0#32
  deriving DecidableEq, Repr

/-! ### Cap (chapter 11) -/

/-- A site of the active map (R307, R309): its clusters with their masks in the order of its slots; whether its flow goes on
and its next record; bins assigned; whether a record failed it; if UNTESTED the reason and the cluster that gave it; the
last record run with its TEST; the Clasp time of its end. -/
structure CapSite where
  valid : Bool
  label : Nat
  parts : List (Nat × Word)
  active : Bool
  next : Nat
  bins : Option (Nat × Nat)
  failed : Bool
  untested : Option (Nat × Nat)
  last : Nat
  test : Nat
  ended : Option Nat
  deriving DecidableEq, Repr

/-- The record in progress (R309, R311): its index, its T, its 64 bytes, its clusters, each with the retest reason that Cap
already knows for it (R313), and whether the timeout has struck. -/
structure CapRun where
  r : Nat
  t : Nat
  bytes : List Byte
  clus : List (Nat × Option Nat)
  /-- Clusters whose START waits for an unwind to end (R311). -/
  later : List Nat
  timedOut : Bool
  deriving DecidableEq, Repr

/-- What Cap holds that its registers do not show. -/
structure Cap where
  /-- The clusters of the active site map (R303). -/
  clusters : Word := 0#32
  /-- From the flow header: NREC, NLIM, Millpond addresses of records and limits, START_LEAD, DEF_SBIN, DEF_HBIN. -/
  nrec : Nat := 0
  nlim : Nat := 0
  recAt : Nat := 0
  limAt : Nat := 0
  lead : Nat := 0
  defS : Nat := 0
  defH : Nat := 0
  sites : List CapSite := []
  run : Option CapRun := none
  /-- The decision time of the last record, or none before the first (R311, R314). -/
  decided : Option Nat := none
  /-- Datalog records not yet written (R320), and how many this flow has written. -/
  dlog : List (List Byte) := []
  written : Nat := 0
  /-- An ABORT ended the flow (R317), and whether sites not ended go out as PROGRAM (R315). -/
  aborted : Bool := false
  /-- One more than the time of the last poll of the peripheral (R318), and SOT and ABORT as a poll in SLEEP read them. -/
  polled : Nat := 0
  heldPoll : Nat := 0
  /-- Start-of-test, and how far FINISH has come (R319): 1 the FLOW_END record is made, 2 CAP_EVT.END is set. -/
  sotAt : Nat := 0
  phase : Nat := 0
  deriving DecidableEq, Repr

/-! ### Semaphores and transactions (chapters 12, 13) -/

/-- A semaphore (R349, R350): its holder with the requester that acquired it, and the queue, each entry a holder and the
requester that acquired for it. -/
structure SemSt where
  holder : Option (Nat × Nat) := none
  queue : List (Nat × Nat) := []
  deriving DecidableEq, Repr

/-- A write staged in a transaction (R378): address, data, byte enables. -/
structure Staged where
  addr : Nat
  data : Word
  be : BitVec 4
  deriving DecidableEq, Repr

/-- A domain's transaction (R377 to R379): its staged writes in order; while PENDING, the Clasp time at which its commit
cycle begins, or none while it waits for idle sequencers. -/
structure Txn where
  staged : List Staged := []
  cycle : Option Nat := none
  /-- The address of the first write lost to TXN_STAT.OVF (R378, R382). -/
  lost : Nat := 0
  deriving DecidableEq, Repr

/-! ### The Clasp ring (chapter 14) -/

/-- A message of the message field of a slot (R390, R393). -/
structure RingMsg where
  type : Nat
  origin : Nat
  seqno : Nat
  payload : List Byte
  deriving DecidableEq, Repr

/-- What a received slot delivers inside the part: a START with its TF, an ABORT, a trigger line's action time, the arrival
of a TIME comma (a, f and T_M), an ACC as it came in (ACC, HOPS), a RESID (ε, N), a health word of an origin. -/
inductive RingItem where
  | start (tf : Nat)
  | abort
  | trigger (line e : Nat)
  | time (a f tm : Nat)
  | acc (acc hops : Nat)
  | resid (eps : Int) (n : Nat)
  | health (origin : Nat) (word : List Byte)
  deriving DecidableEq, Repr

/-- The ring interface as its registers do not show it. -/
structure Ring where
  /-- Slots in a row with good CRC while in TRAIN (R392). -/
  good : Nat := 0
  /-- Last message accepted from each origin: TYPE and SEQNO (R395). -/
  seen : List (Nat × (Nat × Nat)) := []
  /-- Messages of the part that wait, by priority; the one on the ring with the slot it left in and how often it was sent;
  the slot before which none is inserted (R394, R395). -/
  queue : List RingMsg := []
  own : Option (RingMsg × (Nat × Nat)) := none
  quiet : Nat := 0
  seqno : Nat := 0
  /-- What received slots have delivered and not been acted on. -/
  inbox : List RingItem := []
  /-- Trigger messages waiting for a slot: line and E with the A they were applied at (R401); lines of this part's fields
  on the ring. -/
  lines : List (Nat × (Nat × Nat)) := []
  onRing : List (Nat × Nat) := []
  /-- When a local ABORT was requested (R404), and that one of this part's is on the ring. -/
  abortAt : Option Nat := none
  abortOut : Bool := false
  /-- SENDER of the last good slot (R392). -/
  sender : Option Nat := none
  /-- A round this part runs as time master: 0 none, 1 waiting for EMPTY fields, 2 TIME sent, 3 ACC sent; EMPTY fields seen;
  T_M; the returned ACC and HOPS; the arrival of its own TIME (R397). -/
  round : Nat := 0
  empties : Nat := 0
  tm : Nat := 0
  accBack : Option (Nat × Nat) := none
  aBack : Option Nat := none
  roundNo : Nat := 0
  /-- A follower's a and f and the ACC that came in (R397). -/
  a : Nat := 0
  f : Nat := 0
  accIn : Nat := 0
  hops : Nat := 0
  /-- A correction not yet applied (R398). -/
  stepE : Option Int := none
  /-- When the last round completed, and when each origin was last heard (R398, R406). -/
  lastRound : Nat := 0
  heard : List (Nat × Nat) := []
  /-- When this part last queued a heartbeat (R405), and the number of the last flow whose FINISH completed. -/
  beat : Nat := 0
  flowDone : Nat := 0
  deriving DecidableEq, Repr

/-! ### Clocks, power, boot, serial ports, test port (chapters 15, 18, 20) -/

/-- The clock and power controllers as their registers do not show them: POR held; RST# low; WARM held by a clock recovery
or CHIP reaction; ROOT judged stable since POR; a clock fault; passing judgements in a row; the PLL acquires; a requested
switch of AON (true: to ROOT); the internal oscillator runs; CLK_PLL_CFG as the judgement in progress took it (R416); when
SLEEP was entered; an automatic request to sleep (R423). -/
structure Pwr where
  por : Bool := true
  rst : Bool := false
  chip : Bool := false
  stable : Bool := false
  fault : Bool := false
  passes : Nat := 0
  acquiring : Bool := false
  aonTo : Option Bool := none
  osc : Bool := true
  pll : Word := 0x640002#32
  sleptAt : Nat := 0
  auto : Bool := false
  deriving DecidableEq, Repr

/-- What the boot loader keeps (R492, R494): it has started; the image was accepted; the CONFIG entries of the boot store;
autorun's flow address, map address and map length, if autorun took effect; subsystem IDs. -/
structure Boot where
  started : Bool := false
  config : List (Nat × Word) := []
  auto : Option (Nat × (Nat × Nat)) := none
  ssvid : Nat := 0
  ssid : Nat := 0
  deriving DecidableEq, Repr

/-- The page of the management serial slave beside the mailbox (R498), and the window access under way (true: a write). -/
structure Msp where
  winAddr : Word := 0#32
  winData : Word := 0#32
  winRes : Nat := 0
  ovr : Bool := false
  part : Bool := false
  cmd : Option Bool := none
  deriving DecidableEq, Repr

/-! ### Governor, calibration, faults, Assay (chapters 16, 17) -/

/-- The Governor's clock for a cluster (R442, R445): when the cause last began or the level last rose, when the cause last
ended or the level last fell, when level 3 was entered, whether its stop was issued. -/
structure Gov where
  cause : Option Nat := none
  calm : Option Nat := none
  three : Option Nat := none
  stopped : Bool := false
  deriving DecidableEq, Repr

/-- Calibration of a cluster (R454 to R458): when an abandoned step's channels are back (R456); its deadline; the channels a step in progress uses; when the step began; the
STARTs held during an interruption or an Assay run, as kind and element; the items committed since the cluster became due,
as cluster offsets (R458). -/
structure CalSt where
  back : Nat := 0
  deadline : Option Nat := none
  using_ : Word := 0#32
  stepAt : Nat := 0
  held : List (Nat × Nat) := []
  items : List Nat := []
  deriving DecidableEq, Repr

/-- A source in fault state (R470, R473): its last message, every message since entry corrected, a fatal one sent, ERR#
held for it, raised under INT until its sticky bit is cleared. -/
structure FltSrc where
  last : Nat := 0
  corr : Bool := true
  fatal : Bool := false
  err : Bool := false
  int : Bool := false
  deriving DecidableEq, Repr

/-- An Assay run in progress on a cluster (R477, R545): channel targets and cluster targets as ASY_STAT.CTGT codes them. -/
structure AsyRun where
  chans : Word
  ctgt : Nat
  /-- When the run started. -/
  since : Nat
  deriving DecidableEq, Repr

/-! ### What leaves the part -/

/-- What the part sends out, newest first in State.out. -/
inductive Output where
  /-- An MSI-X message of vector v to host domain h (R362, R516). -/
  | msix (h v : Nat)
  /-- A register read's value, to requester r, of the BAR0 address a. -/
  | regRead (r a : Nat) (v : Word)
  /-- What a read through Millrace answers a requester that is no host: lottery number or stream code as MP_REFUSE_INFO.REQ
  gives it, the data, refused in part or whole, BUSY (R332, R337). -/
  | millData (q : Nat) (bytes : List Byte) (refused busy : Bool)
  /-- A completion of a BAR2 read of domain h (R363): its data, or none for Completer Abort. -/
  | completion (h : Nat) (data : Option (List Byte))
  /-- Bytes written to host memory of domain h at an address. -/
  | hostWrite (h a : Nat) (bytes : List Byte)
  /-- A slot on RING_OUT, as its symbols (R389). -/
  | slot (bytes : List Byte)
  /-- A frame on the peripheral serial master: command and data bytes sent (R495). -/
  | frame (bytes : List Byte)
  /-- A byte string answered on the management serial slave (R497). -/
  | serial (bytes : List Byte)
  /-- What the test access port captures for TDO: the identification code, the boundary register (R536, R538). -/
  | tdo (w : Word)
  deriving DecidableEq, Repr

/-! ### The whole part -/

/-- The state of the part. -/
structure State where
  /-- The commands that are waiting, first in, first out. -/
  pending : List Instr := []
  /-- The Clasp time, in ROOT ticks (R20). -/
  clasp : Nat := 0
  /-- The registers of BAR0 that differ from their values after POR, by Reg.key. -/
  regs : List (Nat × Word) := []
  /-- Millpond: the bytes that are not 0 (R326, R355). -/
  mem : List Host.Cell := []
  /-- The micro stores: key 65536n + a (R142). -/
  micro : List (Nat × MWord) := []
  /-- The nano stores: key 4096n + i. -/
  nano : List (Nat × NWord) := []
  /-- The library stores' content, equal in every cluster (R220, R222): micro words and nano-words. -/
  libMicro : List (Nat × Word) := []
  libNano : List (Nat × Nano) := []
  /-- Channels: key 32n + c. -/
  chans : List (Nat × Chan) := []
  /-- By cluster: the band its sensor indicates (none before the first evaluation) and since when CL_TIM_STAT.PEND has
  been 1 or the last switch under it (R133 to R138). -/
  bands : List (Nat × (Option Nat × Nat)) := []
  seqs : List (Nat × Seq) := []
  hops : List (Nat × Hop) := []
  /-- By cluster, the blanking timer's T0 and the time at which it last opened windows, at first T0 (R67). -/
  blankAt : List (Nat × (Nat × Nat)) := []
  /-- The stamp queues of the clusters (R236). -/
  stamps : List (Nat × List StampRec) := []
  trigs : List (Nat × Trig) := []
  /-- Capture engines: key 2n + e. -/
  cpts : List (Nat × Cpt) := []
  /-- Generators: key 2n + g; their segment tables: key 1024(2n + g) + i, value LO word and HI word (R286). -/
  awgs : List (Nat × Awg) := []
  awgTab : List (Nat × (Word × Word)) := []
  /-- The sluice tables (R339, R342): key 64 slot + bank. The FABRIC cycle at which a committed shadow is copied. -/
  slcShadow : List (Nat × Nat) := []
  slcActive : List (Nat × Nat) := []
  slcAt : Option Nat := none
  /-- The frame whose grants are counted, and the grants in it: key 8n + stream (R341). -/
  slcFrame : Nat := 0
  slcCnt : List (Nat × Nat) := []
  /-- The tickets in effect, and whether shadows await the next draw (R346). -/
  lotTkt : List Nat := [32, 32, 32, 32, 64, 16, 4, 16]
  lotPend : Bool := false
  /-- The FABRIC cycle at which the LFSR held the value in LOT_LFSR (R344). -/
  lfsrAt : Nat := 0
  /-- Accesses that best-effort requesters present and that have not won a draw: by requester, with the FABRIC cycle from
  which they enter draws (R345). -/
  present : List (Nat × (MillOp × (Nat × Nat))) := []
  /-- Accesses of a new owner that wait for a handover, in arrival order (R331). -/
  waiting : List (MillReq × (MillOp × Nat)) := []
  /-- Per bank: one more than the FABRIC cycle of its last grant, and of its last atomic access with its word (R333). -/
  grants : List (Nat × Nat) := []
  atoms : List (Nat × (Nat × Nat)) := []
  /-- Cap. -/
  cap : Cap := { }
  /-- Semaphores. -/
  sems : List (Nat × SemSt) := []
  /-- Transactions, by domain. -/
  txns : List (Nat × Txn) := []
  /-- The MSI-X tables: key 256h + dword, every vector masked at first; the pending bit arrays: key 2h + dword (R362). -/
  msix : List (Nat × Word) := []
  pba : List (Nat × Word) := []
  /-- The latches of R375: key 8 (key of the _HI element) + requester. -/
  hiLatch : List (Nat × Option Word) := []
  ring : Ring := { }
  pwr : Pwr := { }
  boot : Boot := { }
  msp : Msp := { }
  /-- The current TAP instruction (R536) and the boundary register (R538). -/
  tap : Nat := 2
  boundary : Word := 0#32
  /-- Past readings of each sensor, one per conversion, newest first (R441). -/
  hist : List (Nat × List Int) := []
  gov : List (Nat × Gov) := []
  cal : List (Nat × CalSt) := []
  /-- Present values of trims that differ from their targets, by Reg.key, with the time of the last move (R451). -/
  ramps : List (Nat × (Word × Nat)) := []
  /-- A reference calibration is requested or due, and the last one's time (R449). -/
  refDue : Bool := false
  refLast : Option Nat := none
  /-- The open reaction window: AON cycle of its end, and the clusters whose messages it took (R468, R477). -/
  window : Option (Nat × Word) := none
  faults : List (Nat × FltSrc) := []
  assay : List (Nat × AsyRun) := []
  /-- The life record (R484): the counts by byte offset; the first retirement's minute is held plus one. -/
  life : List (Nat × Nat) := []
  /-- The header of the last good write, the slot to be written next, minutes since the last write (R485, R487), and
  whether a flag of REPLACE_REQUESTED waits for the end of a flow (R482). -/
  lifeHdr : List Byte := []
  lifeSlot : Nat := 0
  lifeMin : Nat := 0
  replaceWait : Bool := false
  /-- A verified or staged library section (R220, R223). -/
  patch : List Byte := []
  /-- Wake causes that have reached the management plane and not been taken: PWR_STAT.WSRC code and MGMT cycle (R426,
  R427). -/
  wakes : List (Nat × Nat) := []
  /-- Domains to which vector 0 of a trap is still owed once their link carries messages (R472). -/
  owed : Word := 0#32
  /-- Fault messages on their way to the collector (R466). -/
  msgs : List FaultMsg := []
  /-- How many free values have been drawn (the model's own field, notes/assumptions/2.md). -/
  free : Nat := 0
  /-- What has left the part, newest first (the model's own field). -/
  out : List Output := []
  deriving DecidableEq, Repr

/-- The state after reset: the part as POR holds it (R355, R509). -/
def State.reset : State := { }

end Sys2Proof.Machine
end

