-- ==== Sys2Proof/Machine/Ops.lean ====
section
/-! DEFINITION. Sys2Proof/Machine/Ops.lean: the named operations over the state: registers and their fields, records of
channels, clusters and generators, time, Millpond bytes, fault messages, free values, what leaves the part. -/

namespace Sys2Proof.Machine

/-- What a command answers. -/
abbrev Res := Host.Outcome State Fault Refusal

/-! ### Registers -/

/-- Element i of register r. -/
def State.reg (s : State) (r : Reg) (i : Nat) : Word := tabGet (r.porOf i) s.regs (r.key i)

/-- Element i of r now holds v. -/
def State.setReg (s : State) (r : Reg) (i : Nat) (v : Word) : State :=
  { s with regs := tabSet (r.porOf i) s.regs (r.key i) v }

/-- The field of `len` bits at `lo` of an element. -/
def State.rf (s : State) (r : Reg) (i lo len : Nat) : Nat := fld (s.reg r i) lo len

/-- Bit b of an element. -/
def State.rb (s : State) (r : Reg) (i b : Nat) : Bool := bitOf (s.reg r i) b

/-- The field of `len` bits at `lo` now holds v. -/
def State.setRf (s : State) (r : Reg) (i lo len v : Nat) : State := s.setReg r i (putFld (s.reg r i) lo len v)

/-- Bit b of an element is now v. -/
def State.setRb (s : State) (r : Reg) (i b : Nat) (v : Bool) : State := s.setReg r i (putBit (s.reg r i) b v)

/-- The low `len` bits of an element, counted up by one, saturating. -/
def State.count (s : State) (r : Reg) (i len : Nat) : State := s.setRf r i 0 len (satInc (2 ^ len - 1) (s.rf r i 0 len))

/-- The low `len` bits of an element, counted up by one, wrapping. -/
def State.countWrap (s : State) (r : Reg) (i len : Nat) : State := s.setRf r i 0 len (s.rf r i 0 len + 1)

/-- A pair of registers as one 64-bit number, and the pair set. -/
def State.pair (s : State) (lo hi : Reg) (i : Nat) : Nat := ofWords (s.reg lo i) (s.reg hi i)
def State.setPair (s : State) (lo hi : Reg) (i t : Nat) : State := (s.setReg lo i (loWord t)).setReg hi i (hiWord t)

/-! ### Records -/

def State.chan (s : State) (n : Cluster) (c : Channel) : Chan := tabGet { } s.chans (chIx n c)
def State.setChan (s : State) (n : Cluster) (c : Channel) (v : Chan) : State :=
  { s with chans := tabSet { } s.chans (chIx n c) v }
def State.modChan (s : State) (n : Cluster) (c : Channel) (f : Chan → Chan) : State := s.setChan n c (f (s.chan n c))

def State.seq (s : State) (n : Cluster) : Seq := tabGet { } s.seqs n.val
def State.setSeq (s : State) (n : Cluster) (v : Seq) : State := { s with seqs := tabSet { } s.seqs n.val v }
def State.modSeq (s : State) (n : Cluster) (f : Seq → Seq) : State := s.setSeq n (f (s.seq n))

def State.hop (s : State) (n : Cluster) : Hop := tabGet { } s.hops n.val
def State.setHop (s : State) (n : Cluster) (v : Hop) : State := { s with hops := tabSet { } s.hops n.val v }

def State.stampQ (s : State) (n : Cluster) : List StampRec := tabGet [] s.stamps n.val
def State.setStampQ (s : State) (n : Cluster) (v : List StampRec) : State :=
  { s with stamps := tabSet [] s.stamps n.val v }

/-- The key of generator g of cluster n. -/
def awgIx (n : Cluster) (g : Fin 2) : Nat := 2 * n.val + g.val
def State.awg (s : State) (n : Cluster) (g : Fin 2) : Awg := tabGet { } s.awgs (awgIx n g)
def State.setAwg (s : State) (n : Cluster) (g : Fin 2) (v : Awg) : State :=
  { s with awgs := tabSet { } s.awgs (awgIx n g) v }

def State.trig (s : State) (n : Cluster) : Trig := tabGet { } s.trigs n.val
def State.setTrig (s : State) (n : Cluster) (v : Trig) : State := { s with trigs := tabSet { } s.trigs n.val v }
def State.cpt (s : State) (n : Cluster) (e : Fin 2) : Cpt := tabGet { } s.cpts (awgIx n e)
def State.setCpt (s : State) (n : Cluster) (e : Fin 2) (v : Cpt) : State :=
  { s with cpts := tabSet { } s.cpts (awgIx n e) v }

/-- An event goes to the trigger units of cluster n. -/
def State.trigEvent (s : State) (n : Cluster) (x : TrigEvt) : State :=
  s.setTrig n { s.trig n with evts := (s.trig n).evts ++ [x] }

/-- A wake cause reaches the management plane (R427); outside SLEEP only those of this MGMT cycle count (R423). -/
def State.wake (s : State) (code : Nat) : State :=
  let old := if s.rf .PWR_STAT 0 0 3 = 3 then s.wakes else s.wakes.filter fun w => decide (w.2 = s.clasp / 80)
  { s with wakes := if old.contains (code, s.clasp / 80) then old else old ++ [(code, s.clasp / 80)] }

/-- f applied at every channel of cluster n, in ascending c. -/
def forChannels (n : Cluster) (f : Cluster → Channel → State → State) (s : State) : State :=
  (List.finRange 32).foldl (fun s c => f n c s) s

/-- f applied at every cluster, in ascending n. -/
def forClusters (f : Cluster → State → State) (s : State) : State := (List.finRange 24).foldl (fun s n => f n s) s

/-! ### Time -/

/-- The command happens at Clasp time t, or now if t has passed already; the Clasp time stands while ROOT is not stable
(R4, R420). -/
def State.at (s : State) (t : Nat) : State := if s.rb .CLK_STAT 0 2 then { s with clasp := max s.clasp t } else s

/-- The first MEAS edge after t: MEAS runs at 250 MHz, 32 ROOT ticks (R92, R94). -/
def nextMeas (t : Nat) : Nat := (t / 32 + 1) * 32

/-- The length of a conversion in ROOT ticks (R92). -/
def convTicks : Nat := 32000

/-! ### Free values -/

/-- The next free word, and the state that has drawn it. -/
def State.drawWord (s : State) : Word × State := (Config.freeWord s.free, { s with free := s.free + 1 })
/-- The next free bit. -/
def State.drawBool (s : State) : Bool × State := (Config.freeBool s.free, { s with free := s.free + 1 })

/-! ### Millpond -/

/-- The byte of Millpond at a. -/
def State.byte (s : State) (a : Nat) : Byte := tabGet 0#8 s.mem a
def State.setByte (s : State) (a : Nat) (v : Byte) : State := { s with mem := tabSet 0#8 s.mem a v }

/-- `len` bytes from a. -/
def State.bytes (s : State) (a : Nat) : Nat → List Byte
  | 0 => []
  | len + 1 => s.byte a :: s.bytes (a + 1) len

/-- The bytes written from a on. -/
def State.setBytes (s : State) (a : Nat) : List Byte → State
  | [] => s
  | b :: r => (s.setByte a b).setBytes (a + 1) r

/-- The little-endian number of a byte string (R6). -/
def leNat : List Byte → Nat
  | [] => 0
  | b :: r => b.toNat + 256 * leNat r

/-- The `len` bytes of a number, little-endian (R6). -/
def leBytes : Nat → Nat → List Byte
  | 0, _ => []
  | len + 1, v => BitVec.ofNat 8 v :: leBytes len (v / 256)

/-- The 32-bit word of Millpond at a. -/
def State.mem32 (s : State) (a : Nat) : Nat := leNat (s.bytes a 4)

/-- The size of Millpond: 48 MiB (R22, R326). -/
def mpSize : Nat := 50331648

/-! ### Faults, events, outputs -/

/-- A fault message is sent to the collector (R463, R466): source, kind, class, address. A retired cluster's sources send
none (R479). -/
def State.send (s : State) (src kind cls addr : Nat) : State :=
  if src < 1056 ∧ s.rb .FLT_RET_CLU 0 (src / 44) then s else { s with msgs := s.msgs ++ [⟨src, kind, cls, addr⟩] }

/-- Something leaves the part. -/
def State.emit (s : State) (o : Output) : State := { s with out := o :: s.out }

/-- The source of channel c of cluster n (R512), and of the cluster's k-th block. -/
def srcOf (n : Cluster) (k : Nat) : Nat := 44 * n.val + k

/-- A count of the life record, up by one, saturating at 16 or 32 bits (R484). -/
def lifeCount (off bits : Nat) (s : State) : State :=
  { s with life := tabSet 0 s.life off (satInc (2 ^ bits - 1) (tabGet 0 s.life off)) }

end Sys2Proof.Machine
end

