-- ==== Sys2Proof/Machine/Flags.lean ====
section
/-! DEFINITION. Sys2Proof/Machine/Flags.lean: the status bits and claims that follow the state at every moment: the
channel's switch, driver, load, loop, safe state, level clamping, and the claims of R103. -/

namespace Sys2Proof.Machine

/-! ### Generators as seen by the channel (R280) -/

/-- CL_AWG_ROUTE of generator g: its destination and channel. -/
def awgDest (s : State) (n : Cluster) (g : Fin 2) : Nat := s.rf .CL_AWG_ROUTE (awgIx n g) 0 2
def awgCh (s : State) (n : Cluster) (g : Fin 2) : Nat := s.rf .CL_AWG_ROUTE (awgIx n g) 8 5

/-- A code as the destination takes it (R279). -/
def clipCode (x : Int) : Int := clampInt (-32000) 32000 x

/-- The generator, if any, that VIH of channel c follows (R282). -/
def vihGen (s : State) (n : Cluster) (c : Channel) : Option (Fin 2) :=
  if awgDest s n 0 = 2 ∧ awgCh s n 0 = c.val then some 0
  else if awgDest s n 1 = 2 ∧ awgCh s n 1 = c.val then some 1 else none

/-! ### Switch, driver, load, force loop -/

/-- CH_STAT.SW_CLOSED (R38, R39): CONNECT is 1 and the switch is closed and settled. -/
def swClosed (s : State) (n : Cluster) (c : Channel) : Bool :=
  s.rb .CH_CTRL (chIx n c) 0 && decide ((s.chan n c).sw = .closed)

/-- Cap fences the channel (R310). -/
def fenced (s : State) (n : Cluster) (c : Channel) : Bool := s.rb .CAP_FENCE n c.val

/-- CH_CTRL.NODE as it acts: 0 on a fenced channel (R310). -/
def nodeOf (s : State) (n : Cluster) (c : Channel) : Nat := if fenced s n c then 0 else s.rf .CH_CTRL (chIx n c) 4 2
/-- CH_CTRL.INACT and DRV_EN. -/
def inactOf (s : State) (n : Cluster) (c : Channel) : Nat := s.rf .CH_CTRL (chIx n c) 2 2
def drvEn (s : State) (n : Cluster) (c : Channel) : Bool := s.rb .CH_CTRL (chIx n c) 1

/-- The level the driver drives now, or none while it is off (R38, R43, R44). -/
def driving (s : State) (n : Cluster) (c : Channel) : Option Lvl :=
  if swClosed s n c then
    if (s.chan n c).drvOn then some (s.chan n c).lvl
    else if inactOf s n c = 1 then some .vtt else none
  else none

/-- The active load is on (R44, R45). -/
def loadOn (s : State) (n : Cluster) (c : Channel) : Bool :=
  swClosed s n c && decide (inactOf s n c = 2) && !(s.chan n c).drvOn

/-- CH_PM_CTRL.EN. -/
def pmEn (s : State) (n : Cluster) (c : Channel) : Bool := s.rb .CH_PM_CTRL (chIx n c) 0

/-- CH_PM_STAT.LOOP_ON (R38): EN is 1 and SW_CLOSED is 1. -/
def loopOn (s : State) (n : Cluster) (c : Channel) : Bool := pmEn s n c && swClosed s n c

/-- CH_STAT.SAFE (R33): switch open, driver, load and parametric unit off. -/
def chSafe (s : State) (n : Cluster) (c : Channel) : Bool :=
  decide ((s.chan n c).sw = .opened) && decide (driving s n c = none) && !loadOn s n c && !loopOn s n c

/-- A measurement's delay or aperture is in progress: CH_PM_STAT.BUSY. -/
def measBusy (s : State) (n : Cluster) (c : Channel) : Bool := (s.chan n c).meas.isSome

/-- CH_STAT.RETIRED (R40, R479). -/
def retired (s : State) (n : Cluster) (c : Channel) : Bool := s.rb .CH_STAT (chIx n c) 2

/-- Cluster n is retired (R479). -/
def cluRetired (s : State) (n : Cluster) : Bool := s.rb .FLT_RET_CLU 0 n.val

/-- GOV_CLU.LEVEL (R442). -/
def govLevel (s : State) (n : Cluster) : Nat := s.rf .GOV_CLU n 8 3

/-- The part is fatal (R474). -/
def fatal (s : State) : Bool := s.rb .FLT_STAT 0 0

/-! ### Levels (R48 to R53) -/

/-- The element of LEVEL_TAB for set l, channel c and value v of cluster n (R48). -/
def levelIx (n : Cluster) (l : Nat) (c : Channel) (v : Nat) : Nat := n.val * 4096 + l * 256 + c.val * 8 + v

/-- The level set that the channel uses. -/
def lsetOf (s : State) (n : Cluster) (c : Channel) : Nat := s.rf .CH_LVL (chIx n c) 0 4

/-- Value v in use on the channel is clamped (R50, R51); a dynamic VIH takes the place of the set's (R282): the
generator's level, X × 156.25 µV + 3.0 V, against −1.5 V to +6.0 V. -/
def levelClamped (s : State) (n : Cluster) (c : Channel) (v : Nat) : Bool :=
  let w := (s.reg .LEVEL_TAB (levelIx n (lsetOf s n c) c v)).toNat
  if v = 5 ∨ v = 6 then decide (24000 < w % 32768)
  else
    match (if v = 0 then vihGen s n c else none) with
    | some g => decide (clipCode (s.awg n g).out < -28800 ∨ 19200 < clipCode (s.awg n g).out)
    | none => decide (w % 65536 < 4384 ∨ 64384 < w % 65536)

/-- CH_STAT.LVL_CLAMP. -/
def lvlClamp (s : State) (n : Cluster) (c : Channel) : Bool := (List.range 8).any (levelClamped s n c)

/-! ### Claims (R85, R103, R104) -/

/-- CH_PM_CTRL.RANGE as it acts. -/
def rangeOf (s : State) (n : Cluster) (c : Channel) : Nat := s.rf .CH_PM_CTRL (chIx n c) 6 3
def mmodeOf (s : State) (n : Cluster) (c : Channel) : Nat := s.rf .CH_PM_CTRL (chIx n c) 4 2
def fmodeFi (s : State) (n : Cluster) (c : Channel) : Bool := s.rb .CH_PM_CTRL (chIx n c) 3

/-- CH_PM_CTRL.REF as it acts: the generator whose sample is the target (R84); 3 acts as 0. -/
def refOf (s : State) (n : Cluster) (c : Channel) : Option (Fin 2) :=
  match s.rf .CH_PM_CTRL (chIx n c) 9 2 with
  | 1 => some 0
  | 2 => some 1
  | _ => none

/-- FS of a range in pA per step of FS / 500,000 (R85): 4, 40, 400, 4,000 and 80,000 pA. -/
def stepPa (range : Nat) : Nat :=
  match range with
  | 1 => 40
  | 2 => 400
  | 3 => 4000
  | 4 => 80000
  | _ => 4

/-- A voltage code of R81 in steps of 12.5 µV above 0 V. -/
def voltSteps (code : Nat) : Int := (code : Int) - 200000

/-- VCLH and VCLL as the unit uses them (R90), in steps of 12.5 µV. -/
def vclh (s : State) (n : Cluster) (c : Channel) : Int := voltSteps (s.rf .CH_PM_VCLH (chIx n c) 0 20)
def vcll (s : State) (n : Cluster) (c : Channel) : Int :=
  min (voltSteps (s.rf .CH_PM_VCLL (chIx n c) 0 20)) (vclh s n c)

/-- A product of pA and steps of 12.5 µV in µW, rounded up: 1 µW is 8 × 10^10 of it. -/
def toMicroWatt (x : Int) : Nat := ceilDiv x.toNat 80000000000

/-- The current claim in nA and the power claim in µW of a unit, each rounded up (R103). 10.0 V and 3.5 V are 800,000 and
280,000 steps. -/
def claimOf (s : State) (n : Cluster) (c : Channel) : Nat × Nat :=
  let ix := chIx n c
  let st := stepPa (rangeOf s n c)
  if !pmEn s n c then (0, 0)
  else if fmodeFi s n c then
    match refOf s n c with
    | some _ =>
      let fs : Int := (st * 500000 : Nat)
      (ceilDiv (st * 500000) 1000,
        toMicroWatt (max ((800000 - vcll s n c) * fs) ((vclh s n c + 280000) * fs)))
    | none =>
      let i : Int := clampInt (-500000) 500000 (signed 20 (s.rf .CH_PM_FI ix 0 20)) * (st : Int)
      (ceilDiv i.natAbs 1000,
        toMicroWatt (if 0 ≤ i then (800000 - vcll s n c) * i else (vclh s n c + 280000) * (- i)))
  else
    let h : Int := (s.rf .CH_PM_ICLH ix 0 19 * st : Nat)
    let l : Int := (s.rf .CH_PM_ICLL ix 0 19 * st : Nat)
    let vf : Int := voltSteps (clampInt 40000 840000 (s.rf .CH_PM_FV ix 0 20 : Nat)).toNat
    let vsrc : Int := if (refOf s n c).isSome then -160000 else vf
    let vsnk : Int := if (refOf s n c).isSome then 640000 else vf
    (ceilDiv (max h l).toNat 1000, toMicroWatt (max ((800000 - vsrc) * h) ((vsnk + 280000) * l)))

/-- A cluster's current and power claims (R104). -/
def cluIClaim (s : State) (n : Cluster) : Nat := ((List.finRange 32).map fun c => (claimOf s n c).1).sum
def cluPClaim (s : State) (n : Cluster) : Nat := ((List.finRange 32).map fun c => (claimOf s n c).2).sum

/-- From s to s', a claim of cluster n has risen above its budget (R105): the budgets are s's (R106). -/
def overBudget (s s' : State) (n : Cluster) : Bool :=
  decide (cluIClaim s n < cluIClaim s' n ∧ (s.reg .CL_PM_IBUD n).toNat < cluIClaim s' n) ||
  decide (cluPClaim s n < cluPClaim s' n ∧ (s.reg .CL_PM_PBUD n).toNat < cluPClaim s' n)

/-- CH_PM_STAT.FCODE_LIM (R81, R82): a force code lies outside its range. -/
def fcodeLim (s : State) (n : Cluster) (c : Channel) : Bool :=
  let fv := s.rf .CH_PM_FV (chIx n c) 0 20
  let fi := signed 20 (s.rf .CH_PM_FI (chIx n c) 0 20)
  decide (fv < 40000 ∨ 840000 < fv) || decide (fi < -500000 ∨ 500000 < fi)

/-! ### The sequencer's state bits -/

/-- CL_SEQ_STAT.STATE: 0 IDLE, 1 ARMED, 2 RUN, 3 WAIT, 4 STALL (R195). -/
def seqState (s : State) (n : Cluster) : Nat := s.rf .CL_SEQ_STAT n 0 3
def setSeqState (n : Cluster) (v : Nat) (s : State) : State := s.setRf .CL_SEQ_STAT n 0 3 v
def seqIdle (s : State) (n : Cluster) : Bool := decide (seqState s n = 0)
/-- The sequencer is idle in this MGMT cycle: STATE was IDLE at its start (R181). -/
def idleNow (s : State) (n : Cluster) : Bool := seqIdle s n && decide ((s.seq n).idleC ≠ s.clasp / 80 + 1)

/-- CL_SEQ_STAT.STREAM (R186). -/
def streaming (s : State) (n : Cluster) : Bool := s.rb .CL_SEQ_STAT n 4

/-- CL_STORE_STAT.WR_OPEN (R166): the sequencer is idle and the Hopper is not streaming (R194: its EN is 0). -/
def wrOpen (s : State) (n : Cluster) : Bool := idleNow s n && !s.rb .CL_HOP_CTRL n 0

/-- The measurement tokens of cluster n in use (R25, R99): by measurements in progress, results to be written, records
on their way. -/
def tokensUsed (s : State) (n : Cluster) : Nat :=
  ((List.finRange 32).map fun c =>
    (match (s.chan n c).meas with
      | some m => b2n m.tok.isSome
      | none => 0) +
    ((s.chan n c).done.filter fun d => d.1.tok.isSome).length).sum + (s.seq n).results.length

end Sys2Proof.Machine
end

