-- ==== Sys2Proof/Machine/MemOps.lean ====
section
/-! DEFINITION. Sys2Proof/Machine/MemOps.lean: Millpond as requesters reach it (R326 to R348): ownership, refusals, accesses
over several banks, the sluice table, the lottery; and the semaphores (R349 to R354). -/

namespace Sys2Proof.Machine

/-! ### Who is who -/

/-- A flow runs (R303): Cap is in RUN or FINISH. -/
def flowOn (s : State) : Bool := decide (3 ≤ s.rf .CAP_STAT 0 0 3)

/-- A flow runs on cluster n: it is a cluster of the active site map (R303). -/
def flowClu (s : State) (n : Nat) : Bool := flowOn s && bitOf s.cap.clusters n

/-- Requester r is the management owner (R368). -/
def isMgmt (s : State) (r : Req) : Bool := decide (s.rf .DOM_MGMT 0 0 3 = r.val)

/-- DOM_CLU names requester r for cluster n (R369). -/
def ownsClu (s : State) (r : Req) (n : Nat) : Bool := decide (s.rf .DOM_CLU n 0 3 = r.val)

/-! ### Banks -/

/-- The bank of a Millpond byte address (R326). -/
def bankOf (a : Nat) : Nat := a / 786432

/-- The accesses at single banks that an access of `len` bytes at `a` is made of, in ascending address (R327); what lies
beyond Millpond is one part. -/
def bankParts : Nat → Nat → Nat → List (Nat × Nat)
  | 0, _, _ => []
  | fuel + 1, a, len =>
    if len = 0 then []
    else if mpSize ≤ a then [(a, len)]
    else
      let e := min len ((bankOf a + 1) * 786432 - a)
      (a, e) :: bankParts fuel (a + e) (len - e)

/-- How an access of len bytes at a splits. -/
def partsOf (a len : Nat) : List (Nat × Nat) := bankParts 66 a len

/-- MP_REFUSE_INFO.REQ of a requester (R355). -/
def reqCode : MillReq → Nat
  | .cluster n k => 256 + 8 * n.val + (k.val + 1)
  | .host h => h.val
  | .cap => 4
  | .mgmt => 5
  | .life => 6
  | .cal => 7

/-- Accesses of q count as those of owner o (R329, R303); `rr` marks a routine result write (R218). -/
def countsAs (s : State) (q : MillReq) (rr : Bool) (o : Nat) : Bool :=
  match q with
  | .cluster n _ => decide (o = n.val) || (rr && decide (o = 40) && flowClu s n.val)
  | .host h => decide (o = 32 + h.val)
  | .cap => decide (o = 40) || (decide (o < 24) && flowClu s o)
  | .mgmt | .life | .cal => decide (o = 48)

/-- What Millrace decides on an access at one bank (R331, R332, R335). -/
inductive Verdict where
  | granted
  | wait
  | refuse (why : Nat)
  deriving DecidableEq, Repr

def judge (s : State) (q : MillReq) (rr : Bool) (a : Nat) : Verdict :=
  if mpSize ≤ a then .refuse 2
  else
    let b := bankOf a
    let owner := s.rf .BANK_OWN b 0 6
    let next := s.rf .BANK_OWN b 8 6
    let pend := s.rb .BANK_OWN b 16
    let off := s.rb .BANK_STATE b 8 || decide (s.rf .BANK_STATE b 4 2 ≠ 0)
    if pend then
      if countsAs s q rr next then (if off then .refuse 1 else .wait) else .refuse 0
    else if !countsAs s q rr owner then .refuse 0
    else if off then .refuse 1 else .granted

/-- A refusal is counted, recorded and reported (R332). -/
def mpRefuse (q : MillReq) (write : Bool) (why a : Nat) (s : State) : State :=
  let s1 := (s.count .MP_REFUSE_CNT 0 32).setRb .MP_EVT 0 0 true
  let s2 := (s1.setReg .MP_REFUSE_ADDR 0 (BitVec.ofNat 32 (a % 2 ^ 26))).setReg .MP_REFUSE_INFO 0
    (BitVec.ofNat 32 (2 ^ 31 + 2 ^ 11 * b2n write + 2 ^ 9 * why + reqCode q))
  s2.send 1104 7 0 a

/-- A part of the access must wait for a handover (R331). -/
def memWaits (s : State) (q : MillReq) (rr : Bool) (a len : Nat) : Bool :=
  (partsOf a len).any fun p => decide (judge s q rr p.1 = .wait)

/-- Every part of the access is admitted. -/
def memAdmits (s : State) (q : MillReq) (rr : Bool) (a len : Nat) : Bool :=
  (partsOf a len).all fun p => decide (judge s q rr p.1 = .granted)

/-- The refusals of an access, part by part. -/
def noteRefusals (q : MillReq) (rr write : Bool) (a len : Nat) (s : State) : State :=
  (partsOf a len).foldl
    (fun s' p => match judge s q rr p.1 with | .refuse why => mpRefuse q write why p.1 s' | _ => s') s

/-- The bytes a read gives: 0 where it is refused (R332). -/
def memData (s : State) (q : MillReq) (rr : Bool) (a len : Nat) : List Byte :=
  (partsOf a len).flatMap fun p =>
    if judge s q rr p.1 = .granted then s.bytes p.1 p.2 else List.replicate p.2 0#8

/-- A read: its data, and the state with its refusals noted. -/
def memRead (q : MillReq) (a len : Nat) (s : State) : List Byte × State :=
  (memData s q false a len, noteRefusals q false false a len s)

/-- The write of a byte, plain, bit-set or bit-clear (R333): op none, some false, some true. -/
def mixByte (op : Option Bool) (old new : Byte) : Byte :=
  match op with
  | none => new
  | some false => old ||| new
  | some true => old &&& ~~~ new

/-- Bytes written from a on, each mixed with what is there. -/
def putBytes (op : Option Bool) (a : Nat) : List Byte → State → State
  | [], s => s
  | b :: r, s => putBytes op (a + 1) r (s.setByte a (mixByte op (s.byte a) b))

/-- A write: the admitted parts are performed, the refused dropped (R332, R333). -/
def memWrite (q : MillReq) (rr : Bool) (op : Option Bool) (a : Nat) (bytes : List Byte) (s : State) : State :=
  (partsOf a bytes.length).foldl
    (fun s' p => match judge s q rr p.1 with
      | .granted => putBytes op p.1 ((bytes.drop (p.1 - a)).take p.2) s'
      | .refuse why => mpRefuse q true why p.1 s'
      | .wait => s') s

/-! ### The sluice table -/

/-- An entry of a sluice table, reserved values acting as 0 (R340). -/
def slcEntry (tab : List (Nat × Nat)) (slot b : Nat) : Nat :=
  let v := tabGet 0 tab (64 * slot + b)
  if 7 ≤ v then 0 else v

/-- Stream k (0 to 5, coded k + 1) of cluster n is served at every bank of an access: the active table reserves it a slot
(R340). An access to no bank or to a bank that refuses needs none. -/
def streamServed (s : State) (n : Cluster) (k : Fin 6) (rr : Bool) (a len : Nat) : Bool :=
  (partsOf a len).all fun p =>
    match judge s (.cluster n k) rr p.1 with
    | .granted => (List.range 256).any fun slot => decide (slcEntry s.slcActive slot (bankOf p.1) = k.val + 1)
    | .wait => false
    | .refuse _ => true

/-- The slots per frame of a stream (R341). -/
def slotLimit (k : Fin 6) : Nat :=
  match k.val with
  | 0 => 128
  | 1 => 32
  | 2 | 3 => 13
  | _ => 1

/-! ### The lottery -/

/-- One step of the LFSR (R344). -/
def lfsrStep (v : Word) : Word := if v.getLsbD 0 then (v >>> 1) ^^^ 0x80200003#32 else v >>> 1

/-- k steps of the LFSR. -/
def lfsrRun : Nat → Word → Word
  | 0, v => v
  | k + 1, v => lfsrRun k (lfsrStep v)

/-- The FABRIC cycle under way. -/
def fabric (s : State) : Nat := s.clasp / 8

/-- The LFSR's value now. -/
def lfsrNow (s : State) : Word := lfsrRun (fabric s - s.lfsrAt) (s.reg .LOT_LFSR 0)

/-- LOT_STAT.J and CAPPED, and the mask of R347. -/
def lotJ (s : State) (r : Nat) : Nat := s.rf .LOT_STAT r 0 4
def lotCapped (s : State) (r : Nat) : Bool := s.rb .LOT_STAT r 4
def lotMasked (s : State) (r : Nat) : Bool := decide (r < 4) && s.rb .HL_STAT r 9

/-- The first entrant whose running ticket sum exceeds w (R344). -/
def ticketWinner (tkt : Nat → Nat) (w : Nat) : Nat → List Nat → Nat
  | _, [] => 0
  | run, [r] => if w < run + tkt r then r else r
  | run, r :: rest => if w < run + tkt r then r else ticketWinner tkt w (run + tkt r) rest

/-- The winner of a draw for bank b among entrants in ascending number (R344). -/
def drawWinner (s : State) (tkts : List Nat) (b : Nat) (es : List Nat) : Nat :=
  match es.filter (lotCapped s) with
  | r :: _ => r
  | [] =>
    let tkt := fun r => tkts.getD r 0
    let T := (es.map tkt).sum
    if T = 0 then es.headD 0
    else
      let u := (lfsrNow s).rotateLeft b
      ticketWinner tkt (u.toNat / 65536 * T / 65536) 0 es

/-- A loss and a win of requester r (R345). -/
def lotLose (r : Nat) (s : State) : State :=
  let j := min 10 (lotJ s r + 1)
  s.setReg .LOT_STAT r (BitVec.ofNat 32 (j + 16 * b2n (lotCapped s r || decide (j = 10))))
def lotWin (r : Nat) (s : State) : State := s.setReg .LOT_STAT r 0#32

/-- The requester numbered r (R343). -/
def lotReq (r : Nat) : MillReq :=
  match r with
  | 0 => .host 0
  | 1 => .host 1
  | 2 => .host 2
  | 3 => .host 3
  | 4 => .cap
  | 5 => .mgmt
  | 6 => .life
  | _ => .cal

/-- What a requester is answered for a read. -/
def answer (q : MillReq) (data : List Byte) (refused busy : Bool) (s : State) : State :=
  match q with
  | .host h =>
    -- R363: a refused or collided read completes as ERRCPL selects
    if refused || busy then
      if s.rb .HL_CTRL h.val 0 then s.emit (.completion h.val none) else s.emit (.completion h.val (some data))
    else s.emit (.completion h.val (some data))
  | _ => s.emit (.millData (reqCode q) data refused busy)

/-- HL_RERR and HL_RERR_ADDR record a refused or collided access of domain h (R363). -/
def noteRerr (h : Dom) (write : Bool) (why a : Nat) (s : State) : State :=
  ((s.setReg .HL_RERR h.val (BitVec.ofNat 32 (2 ^ 31 + 4 * b2n write + why))).setReg .HL_RERR_ADDR h.val
    (BitVec.ofNat 32 (a % 2 ^ 26))).setRb .HL_EVT h.val 4 true

/-- The first reason for which a part of an access is refused. -/
def refusalOf (s : State) (q : MillReq) (a len : Nat) : Option Nat :=
  (partsOf a len).findSome? fun p => match judge s q false p.1 with | .refuse w => some w | _ => none

/-- The free bytes that a collided read returns (R337, notes/assumptions/2.md). -/
def freeBytes (s : State) : Nat → Nat → List Byte
  | 0, _ => []
  | len + 1, k => Config.freeByte (s.free + k) :: freeBytes s len (k + 1)

/-- The word an address lies in meets an atomic access of the cycle before (R337). -/
def collides (s : State) (a len : Nat) : Bool :=
  (List.range (len + 15)).any fun i =>
    let x := tabGet (0, 0) s.atoms (bankOf (a + i))
    decide (i < len) && decide (x.1 = fabric s) && decide (x.1 ≠ 0) && decide (x.2 = (a + i) / 16)

/-- The Millpond byte address that an access of q at `a` reaches: a host's address is its BAR2 offset, whose upper 16 MiB
are the alias windows (R328). -/
def millAddr (s : State) (q : MillReq) (a : Nat) : Nat :=
  match q with
  | .host h =>
    if a < mpSize then a else s.rf .MP_ALIAS h.val 0 6 * 1048576 + (a - mpSize) % 8388608
  | _ => a

/-- A host's refused access is recorded with its BAR2 offset (R363). -/
def recordRefused (q : MillReq) (write : Bool) (a len : Nat) (s s' : State) : State :=
  match q, refusalOf s q (millAddr s q a) len with
  | .host h, some w => noteRerr h write w a s'
  | _, _ => s'

/-- A granted access is performed at its bank in this cycle (R332, R333, R337). -/
def perform (q : MillReq) (x : MillOp) (a0 : Nat) (s : State) : State :=
  let a := millAddr s q a0
  let g := { s with grants := tabSet 0 s.grants (bankOf a) (fabric s + 1) }
  match x with
  | .read len =>
    let g1 := recordRefused q false a0 len s g
    if collides s a len && memAdmits s q false a len then
      let g2 := (g1.count .MP_COLL_CNT 0 32).setRb .MP_EVT 0 2 true
      let g3 := match q with | .host h => noteRerr h false 3 a0 g2 | _ => g2
      answer q (freeBytes s len 0) false true { g3 with free := g3.free + len }
    else
      let r := memRead q a len g1
      answer q r.1 (refusalOf s q a len).isSome false r.2
  | .write bytes => recordRefused q true a0 bytes.length s (memWrite q false none a bytes g)
  | .atomic clear bytes =>
    recordRefused q true a0 bytes.length s (memWrite q false (some clear) a bytes
      { g with atoms := tabSet (0, 0) g.atoms (bankOf a) (fabric s + 1, a / 16) })

/-- How many bytes an access covers. -/
def opLen : MillOp → Nat
  | .read len => len
  | .write bytes | .atomic _ bytes => bytes.length

/-- Bank b can grant an access in this cycle: it has granted none yet, and after an atomic access only a read (R327,
R333). -/
def bankFree (s : State) (b : Nat) (x : MillOp) : Bool :=
  decide (tabGet 0 s.grants b ≠ fabric s + 1) &&
  (match x with
    | .read _ => true
    | _ => decide ((tabGet (0, 0) s.atoms b).1 ≠ fabric s ∨ fabric s = 0))

/-- An access enters: refused parts are refused at once when nothing of it is admitted; it waits for a handover; or it is
performed (R331, R332). Timing of the draw is left to the row at hand (notes/assumptions/12.md). -/
def access (q : MillReq) (x : MillOp) (a : Nat) (s : State) : State :=
  if memWaits s q false (millAddr s q a) (opLen x) then { s with waiting := s.waiting ++ [(q, (x, a))] } else perform q x a s

/-- The accesses that wait are performed if they may now, or wait on (R331). -/
def drainWaiting (s : State) : State :=
  s.waiting.foldl (fun s' w => access w.1 w.2.1 w.2.2 s') { s with waiting := [] }

/-- The bytes from lo below hi are cleared (R336). -/
def clearRange (lo hi : Nat) (s : State) : State :=
  { s with mem := s.mem.filter fun c => decide (c.1 < lo ∨ hi ≤ c.1) }

/-! ### Semaphores -/

def State.sem (s : State) (k : Nat) : SemSt := tabGet { } s.sems k
def State.setSem (s : State) (k : Nat) (v : SemSt) : State := { s with sems := tabSet { } s.sems k v }

/-- The holder of semaphore k as R351 counts it: a free one reserved for calibration is calibration's. -/
def semHolder (s : State) (k : Nat) : Option Nat :=
  match (s.sem k).holder with
  | some h => some h.1
  | none => match (s.sem k).queue with | (6, _) :: _ => some 6 | _ => none

/-- The chain of R351 from holder h leads back to x. -/
def leadsTo (s : State) (x : Nat) : Nat → Nat → Bool
  | 0, _ => false
  | fuel + 1, h =>
    decide (h = x) ||
    (List.range 16).any fun k =>
      (s.sem k).queue.any (fun e => decide (e.1 = h)) &&
      (match semHolder s k with | some h' => leadsTo s x fuel h' | none => false)

/-- SEM_RES of requester r. -/
def semResult (r k code : Nat) (s : State) : State :=
  if r < 6 then s.setReg .SEM_RES r (BitVec.ofNat 32 (16 * k + code)) else s

/-- The head of the queue of a free semaphore takes it, unless it is calibration (R350, R352). -/
def semHand (k : Nat) (s : State) : State :=
  match (s.sem k).holder, (s.sem k).queue with
  | none, (h, r) :: rest =>
    if h = 6 then s
    else
      let s1 := (s.setSem k { holder := some (h, r), queue := rest }).setRb .SEM_EVT 0 0 true
      if r < 6 ∧ s.rf .SEM_RES r 4 4 = k ∧ s.rf .SEM_RES r 0 3 = 2 then semResult r k 1 s1 else s1
  | _, _ => s

/-- Holder h leaves every semaphore and every queue (R354). -/
def semPurge (h : Nat) (s : State) : State :=
  (List.range 16).foldl
    (fun s k =>
      let m := s.sem k
      semHand k (s.setSem k
        { holder := match m.holder with | some e => if e.1 = h then none else some e | none => none,
          queue := m.queue.filter fun e => decide (e.1 ≠ h) })) s

/-- Calibration's request: the semaphores in whose queues it stands or which it holds. -/
def calWants (s : State) : List Nat :=
  (List.range 16).filter fun k => (s.sem k).queue.any fun e => decide (e.1 = 6)

/-- Calibration joins the queue of each semaphore of its request (R352). -/
def semCalRequest (ks : List Nat) (s : State) : State :=
  ks.foldl (fun s k => let m := s.sem k; s.setSem k { m with queue := m.queue ++ [(6, 6)] }) s

/-- Calibration heads every queue of its request and each is free: it takes them all (R352). -/
def semCalTake (s : State) : State :=
  let ks := calWants s
  if ks ≠ [] ∧ ks.all (fun k => decide ((s.sem k).holder = none) &&
      (match (s.sem k).queue with | (6, _) :: _ => true | _ => false)) then
    ks.foldl (fun s k => s.setSem k { holder := some (6, 6), queue := (s.sem k).queue.tail }) s
  else s

/-- Calibration holds semaphore k. -/
def calHolds (s : State) (k : Nat) : Bool := match (s.sem k).holder with | some (6, _) => true | _ => false

/-- Calibration releases what it holds of a list. -/
def semCalRelease (ks : List Nat) (s : State) : State :=
  ks.foldl (fun s k => if calHolds s k then semHand k (s.setSem k { s.sem k with holder := none }) else s) s

end Sys2Proof.Machine
end

