-- ==== Sys2Proof/Machine/GateOps.lean ====
section
/-! DEFINITION. Sys2Proof/Machine/GateOps.lean: stamps and gates (R227 to R247): dead time, edge counters, the sums of a
gate, the fit and the statistics, and the writing of a result. -/

namespace Sys2Proof.Machine

/-- The integer square root of x, given that it is below 2 ^ k. -/
def isqrtBits (x : Nat) : Nat → Nat → Nat
  | 0, r => r
  | k + 1, r => if (r + 2 ^ k) * (r + 2 ^ k) ≤ x then isqrtBits x k (r + 2 ^ k) else isqrtBits x k r

/-- sqrt(p / q) to the nearest integer, saturating at 2^32 − 1 (R241). -/
def sqrtRound (p q : Nat) : Nat := min 4294967295 ((isqrtBits (4 * p / q) 35 0 + 1) / 2)

/-- A new gate from g0 to g1. -/
def newGate (g0 g1 : Nat) (waiting : Bool) : Gate :=
  { g0, g1, waiting, n := 0, first := 0, last := 0, base := 0, lastI := 0, si := 0, sii := 0, st := 0, stt := 0, sit := 0,
    pend := none, lo := 0, hi := 0, disc := 0, blanked := false, changed := false, bandSw := false, stale := false }

/-- CH_RG_CTRL.SRC, MODE (true: FA-240 statistics), IVAL as they act (R239, R246). -/
def rgSrc (s : State) (ix : Nat) : Bool := s.rb .CH_RG_CTRL ix 4
def rgStats (s : State) (ix : Nat) : Bool := decide (s.rf .CH_RG_CTRL ix 5 2 = 1)
def rgIval (s : State) (ix : Nat) : Nat := let v := s.rf .CH_RG_CTRL ix 7 2; if v = 3 then 0 else v

/-- CH_RG_GLEN (R238). -/
def rgGlen (s : State) (ix : Nat) : Nat := s.pair .CH_RG_GLEN_LO .CH_RG_GLEN_HI ix

/-- A stamp S (codes) belongs to the gate (R239). -/
def inGate (g : Gate) (S : Nat) : Bool := decide (g.g0 * 512 ≤ S ∧ S < g.g1 * 512)

/-- The gate's sums with stamp S, whose unit's edge counter reads cnt (R240). -/
def gateFit (g : Gate) (S cnt : Nat) : Gate :=
  if g.n = 0 then { g with n := 1, first := S, last := S, base := cnt, lastI := 0 }
  else
    let i := cnt - g.base
    let t := S - g.first
    { g with n := g.n + 1, last := S, lastI := i, si := g.si + i, sii := g.sii + i * i, st := g.st + t,
             stt := g.stt + t * t, sit := g.sit + i * t }

/-- An interval of x codes from a to b is taken (R246, R247). -/
def gateTake (g : Gate) (a b : Nat) : Gate :=
  let x := b - a
  { g with n := g.n + 1, first := if g.n = 0 then a else g.first, last := b, st := g.st + x, stt := g.stt + x * x,
           lo := if g.n = 0 then x else min g.lo x, hi := max g.hi x }

/-- Statistics mode: an edge at S, of the opening and/or the closing kind, stamped or not (R246). -/
def gateStat (g : Gate) (opening closing stamped : Bool) (S : Nat) : Gate :=
  if !inGate g S then g
  else
    let g1 :=
      if closing then
        match g.pend with
        | some a =>
          if stamped && decide (S - a ≤ 4294967295) then { gateTake g a S with pend := none }
          else { g with disc := g.disc + 1, pend := none }
        | none => g
      else g
    if opening && stamped then { g1 with pend := some S } else g1

/-- The words of a regression result (R240, R241), CH_RG_N_LO to CH_RG_DISC in order, when it is valid (N ≥ 2). -/
def fitWords (g : Gate) : RgResult :=
  let N := g.n
  let A := N * g.sit - g.si * g.st
  let B := N * g.sii - g.si * g.si
  let per := (roundEven (A * 2 ^ 24 : Nat) B).toNat
  let freq := (roundEven (4096000000000000000 * B : Nat) A).toNat
  let resid := if N = 2 then 0 else sqrtRound (65536 * ((N * g.stt - g.st * g.st) * B - A * A)) (N * B * (N - 2))
  [loWord N, hiWord (N % 2 ^ 40), loWord (g.lastI + 1), hiWord ((g.lastI + 1) % 2 ^ 40), loWord per, hiWord per,
   loWord freq, hiWord freq, BitVec.ofNat 32 resid, BitVec.ofNat 32 (g.last % 512 * 65536 + g.first % 512),
   loWord (g.first / 512), hiWord (g.first / 512), loWord (g.last / 512), hiWord (g.last / 512), BitVec.ofNat 32 g.disc]

/-- The words of a statistics result (R247), when it is valid (N ≥ 1). -/
def statWords (g : Gate) : RgResult :=
  let N := g.n
  let per := (roundEven (g.st * 2 ^ 24 : Nat) N).toNat
  let resid := if N = 1 then 0 else sqrtRound (65536 * (N * g.stt - g.st * g.st)) (N * (N - 1))
  [loWord N, hiWord (N % 2 ^ 40), 0#32, 0#32, loWord per, hiWord per, BitVec.ofNat 32 g.lo, BitVec.ofNat 32 g.hi,
   BitVec.ofNat 32 resid, BitVec.ofNat 32 (g.last % 512 * 65536 + g.first % 512),
   loWord (g.first / 512), hiWord (g.first / 512), loWord (g.last / 512), hiWord (g.last / 512), BitVec.ofNat 32 g.disc]

/-- The words of a result that is not valid: N, EDGES and DISC count; the manual states no other value, so those words
are free (notes/assumptions/2.md). -/
def invalidWords (s : State) (g : Gate) : RgResult :=
  let f := fun k => Config.freeWord (s.free + k)
  [loWord g.n, hiWord (g.n % 2 ^ 40), BitVec.ofNat 32 (min g.n 1), 0#32, f 0, f 1, f 2, f 3, f 4, f 5, f 6, f 7, f 8, f 9,
   BitVec.ofNat 32 g.disc]

/-- The registers that hold a result, in the order of RgResult (R249). -/
def rgRegs : List Reg :=
  [.CH_RG_N_LO, .CH_RG_N_HI, .CH_RG_EDGES_LO, .CH_RG_EDGES_HI, .CH_RG_PER_LO, .CH_RG_PER_HI, .CH_RG_FREQ_LO,
   .CH_RG_FREQ_HI, .CH_RG_RESID, .CH_RG_FINE, .CH_RG_FIRST_LO, .CH_RG_FIRST_HI, .CH_RG_LAST_LO, .CH_RG_LAST_HI, .CH_RG_DISC]

/-- The result's words go into the registers. -/
def putRg (ix : Nat) (ws : RgResult) (s : State) : State :=
  (rgRegs.zip ws).foldl (fun s p => s.setReg p.1 ix p.2) s

/-- A result is written: into the registers, or behind the latch of R245 while it holds. -/
def writeRg (n : Cluster) (c : Channel) (ws : RgResult) (s : State) : State :=
  if (s.chan n c).rgLatched then s.modChan n c fun x => { x with rgHeld := some ws }
  else putRg (chIx n c) ws s

/-- The gate in progress ends with cause `cause` (CH_RG_STAT.END: 1 gate end, 2 count reached, 3 STOP, 4 configuration
change, 5 safe state, 6 DLL unlock, 7 late start). Result, flags and time are written together (R242, R244); a CONT
series goes on only after causes 1 and 2, unless `stop` ends it. -/
def endGate (n : Cluster) (c : Channel) (cause : Nat) (stop : Bool) (s : State) : State :=
  match (s.chan n c).gate with
  | none => s
  | some g =>
    let ix := chIx n c
    let valid := if rgStats s ix then decide (1 ≤ g.n) else decide (2 ≤ g.n)
    let nores := valid && (if rgStats s ix then decide (g.n = 1) else decide (g.n = 2))
    let ws := if valid then (if rgStats s ix then statWords g else fitWords g) else invalidWords s g
    let goes := s.rb .CH_RG_CTRL ix 3 && (decide (cause = 1) || decide (cause = 2)) && !stop
    let stat : Word := BitVec.ofNat 32
      (b2n goes + 2 + 4 * b2n valid + 32 * b2n g.blanked + 64 * b2n g.changed + 128 * b2n g.bandSw + 256 * b2n g.stale +
       512 * b2n (s.rb .CH_RG_STAT ix 1) + 1024 * b2n nores + 8192 * cause)
    let s1 := (writeRg n c ws { s with free := s.free + 10 }).setReg .CH_RG_STAT ix stat
    let s2 := (s1.setRb .CL_TS_DONE n c.val true).setRb .CL_TS_EVT n 0 true
    if goes then
      (s2.modChan n c fun x => { x with gate := some (newGate g.g1 (g.g1 + rgGlen s ix) true) }).setPair
        .CH_RG_TSTART_LO .CH_RG_TSTART_HI ix g.g1
    else s2.modChan n c fun x => { x with gate := none }

/-- f applied at the channel's gate, if it has one. -/
def modGate (n : Cluster) (c : Channel) (f : Gate → Gate) (s : State) : State :=
  s.modChan n c fun x => { x with gate := x.gate.map f }

/-- The gate has opened and not ended (R239): its G0 has passed. -/
def gateOpen (s : State) (n : Cluster) (c : Channel) : Bool :=
  match (s.chan n c).gate with
  | some g => decide (g.g0 ≤ s.clasp)
  | none => false

/-- A threshold, the hysteresis or LSET of the channel changed during an open gate (R244). -/
def markChanged (n : Cluster) (c : Channel) (s : State) : State :=
  if gateOpen s n c then modGate n c (fun g => { g with changed := true }) s else s

/-- The stamp DLL of cluster n is locked. -/
def stampLock (s : State) (n : Cluster) : Bool := s.rb .CL_TS_STAT n 0

/-- The queue of the stamp writer takes a stamp, or loses it (R236). -/
def offerStamp (n : Cluster) (r : StampRec) (s : State) : State :=
  if (s.stampQ n).length < 256 then s.setStampQ n (s.stampQ n ++ [r])
  else (s.count .CL_TS_LOST n 32).setRb .CL_TS_EVT n 1 true

/-- A delivered edge of the selected comparator reaches its stamp unit (R227 to R230, R239, R246). `ball` is the time, in
codes, at which the crossing reached the ball; the stamp is that less the channel's fixture delay (R228). -/
def stampEdge (n : Cluster) (c : Channel) (falling : Bool) (ball : Nat) (s : State) : State :=
  let ix := chIx n c
  let en := s.rb .CH_TS_CTRL ix (if falling then 1 else 0)
  if !en then s
  else
    let ch := s.chan n c
    let S := ball - (s.reg .FIX_TAB ix).toNat % 16384
    let lastS := if falling then ch.lastFall else ch.lastRise
    let cnt := (if falling then ch.cntFall else ch.cntRise) + 1
    let dead := match lastS with | some l => decide (S < l + 4096) | none => false
    let stamped := stampLock s n && !dead
    let last' := if stamped then some S else lastS
    let s1 := s.modChan n c fun x =>
      if falling then { x with cntFall := cnt, lastFall := last' } else { x with cntRise := cnt, lastRise := last' }
    let s2 :=
      if stampLock s n && dead then s1.count (if falling then .CH_TS_DEAD_FALL else .CH_TS_DEAD_RISE) ix 32 else s1
    let s3 :=
      if stamped && s.rb .CH_TS_CTRL ix (if falling then 3 else 2) then offerStamp n ⟨c.val, falling, S⟩ s2 else s2
    match ch.gate with
    | none => s3
    | some g =>
      if rgStats s ix then
        let iv := rgIval s ix
        let opening := if iv = 0 then decide (falling = rgSrc s ix) else if iv = 1 then !falling else falling
        let closing := if iv = 0 then decide (falling = rgSrc s ix) else if iv = 1 then falling else !falling
        let g' := gateStat g opening closing stamped S
        let s4 := s3.modChan n c fun x => { x with gate := some g' }
        if g.n < g'.n ∧ max 1 (s.reg .CH_RG_NINT ix).toNat ≤ g'.n then endGate n c 2 false s4 else s4
      else if stamped && decide (falling = rgSrc s ix) && inGate g S then
        s3.modChan n c fun x => { x with gate := some (gateFit g S cnt) }
      else s3

end Sys2Proof.Machine
end

