-- ==== Sys2Proof/Machine/PmuOps.lean ====
section
/-! DEFINITION. Sys2Proof/Machine/PmuOps.lean: measurements of the parametric unit (R92 to R99), range changes (R87) and
the writing of results. -/

namespace Sys2Proof.Machine

/-- CH_PM_APER.N and DELAY (R92): N 0 acts as 1. -/
def aperN (s : State) (ix : Nat) : Nat := max 1 (s.rf .CH_PM_APER ix 0 18)
def aperDelay (s : State) (ix : Nat) : Nat := s.rf .CH_PM_APER ix 18 10

/-- A measurement whose first conversion of the delay begins at the MEAS edge t0, `delay` conversions before its
aperture. -/
def newMeas (s : State) (ix t0 delay : Nat) (tok : Option MstTok) : Meas :=
  { t0, delay, need := aperN s ix, aper := t0 + delay * convTicks, got := 0, sum := 0, ovr := false, settling := false,
    clamped := false, tok, stale := false }

/-- A measurement starts (R94): the grid is realigned to the first MEAS edge after now. START is ignored with MMODE 0
(R79) and while BUSY is 1 (R97). -/
def startMeas (n : Cluster) (c : Channel) (tok : Option MstTok) (s : State) : State :=
  if mmodeOf s n c = 0 ∨ (s.chan n c).meas.isSome then s
  else
    let t0 := nextMeas s.clasp
    s.modChan n c fun x =>
      { x with grid := t0, meas := some (newMeas s (chIx n c) t0 (aperDelay s (chIx n c)) tok) }

/-- The measurement in progress ends early (R96); its result waits to be written. -/
def endMeas (n : Cluster) (c : Channel) (s : State) : State :=
  match (s.chan n c).meas with
  | none => s
  | some m => s.modChan n c fun x => { x with meas := none, done := x.done ++ [(m, true)] }

/-- The value of CH_PM_RES for a measurement over (R92, R96, R98). -/
def resWord (m : Meas) (aborted overwrite : Bool) : Word :=
  if m.got = 0 then BitVec.ofNat 32 (2 ^ 30 * b2n aborted + 2 ^ 26 * b2n overwrite)
  else
    BitVec.ofNat 32 (2 ^ 31 + 2 ^ 30 * b2n aborted + 2 ^ 29 * b2n m.ovr + 2 ^ 28 * b2n m.settling +
      2 ^ 27 * b2n m.clamped + 2 ^ 26 * b2n overwrite + unsigned 24 (roundEven (64 * m.sum) m.got))

/-- The oldest finished measurement's result, flags and time are written together (R95, R96); MEAS_DONE is set, and the
result of an MST goes on towards its window (R99). -/
def writeMeas (n : Cluster) (c : Channel) (s : State) : State :=
  match (s.chan n c).done with
  | [] => s
  | (m, aborted) :: rest =>
    let ix := chIx n c
    let w := resWord m aborted (s.rb .CH_PM_STAT ix 7)
    let s1 := ((s.setReg .CH_PM_RES ix w).setPair .CH_PM_RES_TLO .CH_PM_RES_THI ix m.aper).setRb .CH_PM_STAT ix 7 true
    let s2 := (s1.setRb .CH_EVT ix 16 true).setRb .CH_EVT ix 20 (s1.rb .CH_EVT ix 20 || (m.ovr && decide (m.got ≠ 0)))
    let s3 := s2.modChan n c fun x => { x with done := rest }
    match m.tok with
    | none => s3
    | some k =>
      s3.modSeq n fun q => { q with results := q.results ++ [⟨c.val, k, w, m.aper, s.rb .CL_SEQ_RES n 20⟩] }

/-- One code under a range change (R87): round(old × FS_old / FS_new), ties away from zero, then limited. -/
def rescale (lo hi code : Int) (old new : Nat) : Int := clampInt lo hi (roundAway (code * (stepPa old : Int)) (stepPa new))

/-- The range changes from `old` to `new` (R86, R87): FI and the current clamps keep their absolute values; RANGE_LIM if
one was limited; RANGE_SETTLING. -/
def changeRange (n : Cluster) (c : Channel) (old new : Nat) (s : State) : State :=
  let ix := chIx n c
  let fi := signed 20 (s.rf .CH_PM_FI ix 0 20)
  let h : Int := (s.rf .CH_PM_ICLH ix 0 19 : Nat)
  let l : Int := (s.rf .CH_PM_ICLL ix 0 19 : Nat)
  let lim := decide (rescale (-500000) 500000 fi old new ≠ roundAway (fi * (stepPa old : Int)) (stepPa new)) ||
    decide (rescale 0 500000 h old new ≠ roundAway (h * (stepPa old : Int)) (stepPa new)) ||
    decide (rescale 0 500000 l old new ≠ roundAway (l * (stepPa old : Int)) (stepPa new))
  let s1 := s.setRf .CH_PM_FI ix 0 20 (unsigned 20 (rescale (-500000) 500000 fi old new))
  let s2 := s1.setRf .CH_PM_ICLH ix 0 19 (rescale 0 500000 h old new).toNat
  let s3 := s2.setRf .CH_PM_ICLL ix 0 19 (rescale 0 500000 l old new).toNat
  let s4 := s3.setRb .CH_PM_STAT ix 4 true
  if lim then s4.setRb .CH_EVT ix 22 true else s4

/-- Live condition k of the channel's analog side, which the commands do not report: free at every moment. -/
def liveBit (s : State) (n : Cluster) (c : Channel) (k : Nat) : Bool := Config.freeLive s.clasp s.free (4 * chIx n c + k)

/-- The clamp of CH_PM_STAT bit k (2 current, 3 voltage) acts: it has begun to, and whether it still does is free
(notes/assumptions/11.md). -/
def clampActs (s : State) (n : Cluster) (c : Channel) (k : Nat) : Bool :=
  s.rb .CH_PM_STAT (chIx n c) k && (decide ((s.chan n c).clampAt = s.clasp) || liveBit s n c k)

/-- The clamp status goes out when the loop does, or when what the clamp acts on changes (notes/assumptions/11.md). -/
def clearClamp (n : Cluster) (c : Channel) (s : State) : State := s.setRf .CH_PM_STAT (chIx n c) 2 2 0

end Sys2Proof.Machine
end

