-- ==== Sys2Proof/Machine/SafeOps.lean ====
section
/-! DEFINITION. Sys2Proof/Machine/SafeOps.lean: safe state (R33 to R40): forcing a channel safe, which other chapters cite
for traps, faults, critical temperature, retirement and overcurrent; blanking windows; a comparator entering UNRESOLVED. -/

namespace Sys2Proof.Machine

/-- The FA-768 forces channel c into safe state (R36): CONNECT, DRV_EN, INACT, EN and CONT go to 0, SAFE_FORCED is set,
and the entry of R34 begins: driver, load and force loop are off, the switch opens. A measurement ends early (R96), a gate
ends with cause 5 (R243). -/
def forcedSafe (n : Cluster) (c : Channel) (s : State) : State :=
  let ix := chIx n c
  let s1 := endGate n c 5 false (endMeas n c s)
  let s2 := (s1.setRf .CH_CTRL ix 0 4 0).setReg .CH_PM_CTRL ix (s1.reg .CH_PM_CTRL ix &&& ~~~ 0x1001#32)
  let s3 := clearClamp n c (s2.setRb .CH_EVT ix 6 true)
  s3.modChan n c fun x => 
    { x with sw := if x.sw = .opened then .opened else .opening, drvOn := false, safeC := s.clasp / 80 + 1 }

/-- Every channel of a mask of cluster n is forced safe. -/
def forceMask (n : Cluster) (mask : Word) (s : State) : State :=
  forChannels n (fun n c s => if bitOf mask c.val then forcedSafe n c s else s) s

/-- Every channel of cluster n is forced safe. -/
def forceCluster (n : Cluster) (s : State) : State := forChannels n forcedSafe s

/-- Every channel of the part is forced safe. -/
def forceAll (s : State) : State := forClusters forceCluster s

/-- A writer may not take the channel out of safe state: it is retired (R40) or fenced (R310), the part is fatal
(R474), one of its cluster's sensors holds it at Governor level 4 (R448), or it was forced safe in this MGMT cycle (R37). -/
def heldSafe (s : State) (n : Cluster) (c : Channel) : Bool :=
  retired s n c || fenced s n c || fatal s || decide (govLevel s n = 4) ||
    decide ((s.chan n c).safeC = s.clasp / 80 + 1)

/-- Cluster n is gated no more, unless it is retired (R428, R479). -/
def ungate (n : Nat) (s : State) : State := if s.rb .FLT_RET_CLU 0 n then s else s.setRb .PWR_CLU_GATE 0 n false

/-- A blanking window opens on the channel, or restarts at full length (R64, R66, R244). -/
def openBlank (n : Cluster) (c : Channel) (s : State) : State :=
  let len := s.rf .CH_BLANK (chIx n c) 0 16
  if len = 0 then s
  else
    let s1 := (s.setRb .CH_CMP_STAT (chIx n c) 4 true).modChan n c fun x => { x with blankEnd := some (s.clasp + len) }
    if gateOpen s n c then modGate n c (fun g => { g with blanked := true }) s1 else s1

/-- CH_BLANK.SRC as it acts: 6 and 7 act as 0. -/
def blankSrc (s : State) (n : Cluster) (c : Channel) : Nat :=
  let v := s.rf .CH_BLANK (chIx n c) 16 3
  if 6 ≤ v then 0 else v

/-- The high (low = false) or low comparator is enabled and its mode is not OFF (R58, R59). -/
def cmpOn (s : State) (n : Cluster) (c : Channel) (low : Bool) : Bool :=
  s.rb .CH_CMP (chIx n c) (if low then 4 else 3) && decide (s.rf .CH_CMP (chIx n c) 0 3 ≠ 0)

/-- The comparator enters UNRESOLVED with output 0 (R60). -/
def enterUnres (n : Cluster) (c : Channel) (low : Bool) (s : State) : State :=
  let ix := chIx n c
  let s1 := (s.setRb .CH_CMP_STAT ix (if low then 1 else 0) false).setRb .CH_CMP_STAT ix (if low then 3 else 2) true
  let s1 := s1.trigEvent n (.level c.val low false s.clasp)
  s1.modChan n c fun x =>
    if low then { x with unresL := s.clasp, delivL := false } else { x with unresH := s.clasp, delivH := false }

/-- The comparator is UNRESOLVED. -/
def unres (s : State) (n : Cluster) (c : Channel) (low : Bool) : Bool :=
  s.rb .CH_CMP_STAT (chIx n c) (if low then 3 else 2)

/-- The propagation allowance of a mode in ROOT ticks (R546). -/
def allowance (mode : Nat) : Nat :=
  match mode with
  | 1 => 32000
  | 2 => 400
  | 3 => 16
  | 4 => 4
  | _ => 0

/-- Levels in use of the channel that begin clamping between s and s' set CH_EVT.LVL_CLAMP (R50, R51). -/
def noteClamp (s : State) (n : Cluster) (c : Channel) (s' : State) : State :=
  if (List.range 8).any (fun v => levelClamped s' n c v && !levelClamped s n c v) then s'.setRb .CH_EVT (chIx n c) 5 true
  else s'

end Sys2Proof.Machine
end

