-- ==== Sys2Proof/Machine/AwgOps.lean ====
section
/-! DEFINITION. Sys2Proof/Machine/AwgOps.lean: generators (R278 to R302): the sine, the segment table, jumps, starting and
stopping, what a sample boundary puts out. -/

namespace Sys2Proof.Machine

/-! ### The sine of R297 -/

/-- 2π × 2^96, rounded down. -/
def twoPi96 : Nat := 497805226624462170461043889244

/-- x − x³/3! + x⁵/5! − … with x in units of 2^−96, `k` terms from the one of degree 2i + 1 whose absolute value is `term`. -/
def sinSum (x : Nat) : Nat → Nat → Nat → Int
  | 0, _, _ => 0
  | k + 1, i, term =>
    let next := term * x / 2 ^ 96 * x / 2 ^ 96 / ((2 * i + 2) * (2 * i + 3))
    (if i % 2 = 0 then (term : Int) else - (term : Int)) + sinSum x k (i + 1) next

/-- sin(2π × k / 2^20) × 2^96 for a first-quadrant k, 0 to 2^18; 24 terms reach far beyond 2^−80. -/
def sinQuarter (k : Nat) : Int := let x := k * twoPi96 / 2 ^ 20; sinSum x 24 0 x

/-- sin(2π × P / 2^20) × 2^96 for P below 2^20. -/
def sin96 (p : Nat) : Int :=
  if p < 262144 then sinQuarter p
  else if p < 524288 then sinQuarter (524288 - p)
  else if p < 786432 then - sinQuarter (p - 524288)
  else - sinQuarter (1048576 - p)

/-- AMP × sin to the nearest integer, ties away from zero; the quarter points are exact (R297). -/
def ampSine (amp p : Nat) : Int :=
  if p = 0 ∨ p = 524288 then 0
  else if p = 262144 then (amp : Int)
  else if p = 786432 then - (amp : Int)
  else roundAway ((amp : Int) * sin96 p) (2 ^ 96)

/-- The phase φ(T) of R296. -/
def ddsPhase (ftw poff t : Nat) : Nat := (ftw * (t / 20) + poff) % 2 ^ 48

/-- The DDS sample at boundary T (R297): saturated to 16 bits. -/
def ddsSample (ftw poff : Nat) (ampReg : Word) (t : Nat) : Int :=
  clampInt (-32768) 32767 (signed 16 (fld ampReg 16 16) + ampSine (fld ampReg 0 16) (ddsPhase ftw poff t / 2 ^ 28))

/-! ### Fields -/

def awgState (s : State) (n : Cluster) (g : Fin 2) : Nat := s.rf .CL_AWG_STAT (awgIx n g) 0 3
def setAwgState (n : Cluster) (g : Fin 2) (v : Nat) (s : State) : State := s.setRf .CL_AWG_STAT (awgIx n g) 0 3 v
/-- CL_AWG_CTRL.MODE is DDS. -/
def awgDds (s : State) (n : Cluster) (g : Fin 2) : Bool := s.rb .CL_AWG_CTRL (awgIx n g) 3
/-- The clear code. -/
def clearCode (s : State) (n : Cluster) (g : Fin 2) : Int := signed 16 (s.rf .CL_AWG_CLR (awgIx n g) 0 16)
/-- AWG_CLR# is asserted (R299). -/
def clrPin (s : State) (n : Cluster) (g : Fin 2) : Bool := s.rb .CL_AWG_STAT (awgIx n g) 7
def modAwg (n : Cluster) (g : Fin 2) (f : Awg → Awg) (s : State) : State := s.setAwg n g (f (s.awg n g))

/-- Table entry i of the generator: its two words (R286). -/
def awgEntry (s : State) (n : Cluster) (g : Fin 2) (i : Nat) : Word × Word :=
  tabGet (0#32, 0#32) s.awgTab (1024 * awgIx n g + i % 1024)
def setAwgEntry (n : Cluster) (g : Fin 2) (i : Nat) (v : Word × Word) (s : State) : State :=
  { s with awgTab := tabSet (0#32, 0#32) s.awgTab (1024 * awgIx n g + i % 1024) v }

/-- REP, byte address, END, NEXT and LEN in granules of an entry's words (R286). -/
def entRep (lo : Word) : Nat := fld lo 20 12
def entAddr (lo : Word) : Nat := fld lo 0 20 * 64
def entEnd (hi : Word) : Bool := bitOf hi 30
def entNext (hi : Word) : Nat := fld hi 20 10
def entLen (hi : Word) : Nat := fld hi 0 20

/-- A loaded entry is valid (R289). -/
def entOk (lo hi : Word) : Bool := decide (8 ≤ entLen hi ∧ entAddr lo + entLen hi * 64 ≤ mpSize)

/-- CL_AWG_STAT.ERR is written, with its event (R289 to R291, R300). -/
def awgErr (n : Cluster) (g : Fin 2) (code : Nat) (s : State) : State :=
  (s.setRf .CL_AWG_STAT (awgIx n g) 8 4 code).setRb .CL_AWG_EVT (awgIx n g) 4 true

/-- A jump request is lost (R295). -/
def jumpLost (n : Cluster) (g : Fin 2) (s : State) : State :=
  (s.count .CL_AWG_JLOST (awgIx n g) 32).setRb .CL_AWG_EVT (awgIx n g) 3 true

/-- CL_AWG_STAT.JPEND follows the pending request. -/
def noteJump (n : Cluster) (g : Fin 2) (s : State) : State :=
  s.setRb .CL_AWG_STAT (awgIx n g) 3 (s.awg n g).jump.isSome

/-! ### Jumps (R293 to R295) -/

/-- A request is put among those on their way, by sample of arrival, the register's before a trigger's of the same sample. -/
def insertJump (j : AwgJump) : List AwgJump → List AwgJump
  | [] => [j]
  | k :: r =>
    if j.at_ / 20 < k.at_ / 20 ∨ (j.at_ / 20 = k.at_ / 20 ∧ !j.trig ∧ k.trig) then j :: k :: r else k :: insertJump j r

/-- A request made at tm arrives 40 ticks later (R293). -/
def jumpRequest (n : Cluster) (g : Fin 2) (target tm : Nat) (trig : Bool) (s : State) : State :=
  modAwg n g (fun a => { a with coming := insertJump ⟨tm + 40, target, trig, false⟩ a.coming }) s

/-- One request arrives: pending, replacing another, or lost (R294, R295). -/
def jumpArrive (n : Cluster) (g : Fin 2) (j : AwgJump) (s : State) : State :=
  let st := awgState s n g
  if awgDds s n g ∨ (st ≠ 1 ∧ st ≠ 2) then jumpLost n g s
  else
    let a := s.awg n g
    let late := decide (st = 2) && decide (a.start + 20 * (32 * entLen a.hi - 64) ≤ j.at_ / 20 * 20)
    let s1 := if a.jump.isSome then jumpLost n g s else s
    noteJump n g (modAwg n g (fun a => { a with jump := some { j with late } }) s1)

/-- The requests whose sample of arrival begins before `before` arrive. -/
def jumpsBefore (n : Cluster) (g : Fin 2) (before : Nat) (s : State) : State :=
  let a := s.awg n g
  let now := a.coming.filter fun j => decide (j.at_ / 20 * 20 < before)
  let rest := a.coming.filter fun j => !decide (j.at_ / 20 * 20 < before)
  now.foldl (fun s j => jumpArrive n g j s) (modAwg n g (fun a => { a with coming := rest }) s)

/-- Requests that have arrived by now, as far as the pass in play reaches. -/
def awgSettle (n : Cluster) (g : Fin 2) (s : State) : State :=
  let a := s.awg n g
  let stop := a.start + 20 * (32 * entLen a.hi)
  jumpsBefore n g (if awgState s n g = 2 ∧ !awgDds s n g then min (s.clasp + 1) stop else s.clasp + 1) s

/-! ### Starting and stopping -/

/-- The code put out, with CLIP where the destination clips it (R279), and level clamping noted where VIH follows (R282). -/
def putOut (n : Cluster) (g : Fin 2) (x : Int) (s : State) : State :=
  let s1 := modAwg n g (fun a => { a with out := x }) s
  let s2 := if clipCode x ≠ x then s1.setRb .CL_AWG_EVT (awgIx n g) 5 true else s1
  if awgDest s n g = 2 then
    (List.finRange 32).foldl (fun s' c => if c.val = awgCh s n g then noteClamp s n c s' else s') s2
  else s2

/-- The generator stops (R292): IDLE, END, the pending request lost, its clear code or last sample put out. -/
def awgHalt (n : Cluster) (g : Fin 2) (s : State) : State :=
  let ix := awgIx n g
  let hold := s.rb .CL_AWG_CTRL ix 4
  let s1 := if (s.awg n g).jump.isSome then jumpLost n g s else s
  let s2 := modAwg n g (fun a =>
    { a with next := none, jump := none, fifo := [], stopAt := none, refused := false, held := hold }) s1
  let s3 := (setAwgState n g 0 (noteJump n g s2)).setRb .CL_AWG_EVT ix 0 true
  putOut n g (if hold then (s.awg n g).lastX else clearCode s n g) s3

/-- The generator is stopped with its clear code and its AUX pin off (R300). -/
def stopAwgSafe (n : Cluster) (g : Fin 2) (s : State) : State :=
  let ix := awgIx n g
  let st := awgState s n g
  let s1 := if st = 1 ∨ st = 2 then awgHalt n g s else s
  let s2 := awgErr n g 5 ((modAwg n g (fun a => { a with held := false, scSince := none }) s1).setRf .CL_AWG_STAT ix 5 2 2)
  putOut n g (clearCode s n g) s2

/-- Both generators of cluster n are stopped under R300. -/
def stopAwgs (n : Cluster) (s : State) : State := stopAwgSafe n 1 (stopAwgSafe n 0 s)

/-- T0 of a start with TMODE 0 that takes effect at t: the first multiple of 20 at least 2,560 ticks later (R291). -/
def awgGrid (t : Nat) : Nat := (t + 2560 + 19) / 20 * 20

/-- START of an idle generator (R291), by the Governor's level (R443), the start time, the first entry. -/
def awgStart (n : Cluster) (g : Fin 2) (s : State) : State :=
  let ix := awgIx n g
  let late := s.rb .CL_AWG_CTRL ix 2
  let t0 := if late then (s.pair .CL_AWG_TSTART_LO .CL_AWG_TSTART_HI ix + 19) / 20 * 20 else awgGrid s.clasp
  let first := s.rf .CL_AWG_CTRL ix 16 10
  let e := awgEntry s n g first
  if awgState s n g ≠ 0 then s
  else if 2 ≤ govLevel s n then awgErr n g 4 s
  else if late ∧ t0 < s.clasp + 2560 then awgErr n g 1 s
  else if !awgDds s n g ∧ !entOk e.1 e.2 then awgErr n g 2 s
  else
    let s1 := modAwg n g (fun a =>
      { a with t0, start := t0, entry := first, lo := e.1, hi := e.2, left := entRep e.1, next := none, jump := none,
               fifo := [], pos := 0, fetchAt := entAddr e.1, fetchLeft := entLen e.2, refused := false, stopAt := none }) s
    setAwgState n g 1 (noteJump n g s1)

/-- STOP (R292): a running generator stops at the first sample boundary at or after arrival, an armed start is cancelled. -/
def awgStop (n : Cluster) (g : Fin 2) (s : State) : State :=
  match awgState s n g with
  | 1 =>
    let s1 := if (s.awg n g).jump.isSome then jumpLost n g s else s
    let s2 := modAwg n g (fun a => { a with next := none, jump := none, fifo := [], refused := false }) s1
    (setAwgState n g 0 (noteJump n g s2)).setRb .CL_AWG_EVT (awgIx n g) 0 true
  | 2 => modAwg n g (fun a => { a with stopAt := some ((s.clasp + 40 + 19) / 20 * 20) }) s
  | _ => s

/-- DDS parameters whose writes have arrived by the boundary t take effect (R298). -/
def ddsApply (a : Awg) (t : Nat) : Awg :=
  let due := a.dds.filter fun w => decide (w.at_ ≤ t)
  let b := due.foldl (fun b w =>
    if w.which = 0 then { b with ftw := w.value } else if w.which = 1 then { b with poff := w.value }
    else { b with amp := BitVec.ofNat 32 w.value }) a
  { b with dds := a.dds.filter fun w => !decide (w.at_ ≤ t) }

/-- A sample is played at this boundary. -/
def playSample (n : Cluster) (g : Fin 2) (x : Int) (s : State) : State :=
  putOut n g x (modAwg n g (fun a => { a with lastX := x, held := false }) s)

/-- What a sample boundary T puts out (R278, R290, R292, R296, R298). -/
def awgBoundary (n : Cluster) (g : Fin 2) (s0 : State) : State :=
  let t := s0.clasp
  let s := modAwg n g (fun a => ddsApply a t) (awgSettle n g s0)
  let a := s.awg n g
  if awgState s n g = 2 then
    if (match a.stopAt with | some b => decide (b ≤ t) | none => false) then awgHalt n g s
    else if awgDds s n g then playSample n g (ddsSample a.ftw a.poff a.amp t) s
    else if a.start ≤ t ∧ t < a.start + 20 * (32 * entLen a.hi) then
      let p := (t - a.start) / 20
      let rest := a.fifo.drop (p - a.pos)
      match rest with
      | x :: more => playSample n g x (modAwg n g (fun a => { a with fifo := more, pos := p + 1 }) s)
      | [] => if a.refused then awgHalt n g (awgErr n g 3 s) else s
    else s
  else putOut n g (if a.held then a.lastX else clearCode s n g) s

/-- The signed samples of a granule's bytes (R286). -/
def samplesOf : List Byte → List Int
  | lo :: hi :: r => signed 16 (lo.toNat + 256 * hi.toNat) :: samplesOf r
  | _ => []

/-- The fetch point enters the pass decided on when it has reached the end of its own (R288). -/
def fetchTurn (a : Awg) : Awg :=
  if a.fetchLeft = 0 then
    match a.next with
    | some (.pass _ lo hi _ _) => { a with fetchAt := entAddr lo, fetchLeft := entLen hi }
    | _ => a
  else a

end Sys2Proof.Machine
end

