-- ==== Sys2Proof/Machine/Awg.lean ====
section
/-! DEFINITION. Sys2Proof/Machine/Awg.lean: the events of the generators (R278 to R300). -/

namespace Sys2Proof.Machine

/-- AWG_RUN_START (R291): the Clasp time reaches T0 and the armed generator enters RUN. -/
def execAwgRunStart (t : Nat) (n : Cluster) (g : Fin 2) (s0 : State) : Res :=
  let s := s0.at t
  let a := s.awg n g
  .next (if awgState s n g = 1 ∧ a.t0 ≤ s.clasp then
      (setAwgState n g 2 s).setRf .CL_AWG_STAT (awgIx n g) 16 10 a.entry
    else s)

/-- What the commit point decides (R288, R289). -/
def awgDecide (n : Cluster) (g : Fin 2) (s : State) : State :=
  let a := s.awg n g
  match a.jump with
  | some j =>
    let e := awgEntry s n g j.target
    if entOk e.1 e.2 then
      noteJump n g (modAwg n g (fun a =>
        { a with next := some (.pass j.target e.1 e.2 (entRep e.1) (some j.late)), jump := none }) s)
    else modAwg n g (fun a => { a with next := some (.stop true) }) s
  | none =>
    if 0 < a.left then modAwg n g (fun a => { a with next := some (.pass a.entry a.lo a.hi (a.left - 1) none) }) s
    else if entEnd a.hi then modAwg n g (fun a => { a with next := some (.stop false) }) s
    else
      let e := awgEntry s n g (entNext a.hi)
      if entOk e.1 e.2 then
        modAwg n g (fun a => { a with next := some (.pass (entNext a.hi) e.1 e.2 (entRep e.1) none) }) s
      else modAwg n g (fun a => { a with next := some (.stop true) }) s

/-- AWG_COMMIT_POINT (R288): at sample L − 64 the pass that follows is decided and its entry loaded. -/
def execAwgCommitPoint (t : Nat) (n : Cluster) (g : Fin 2) (s0 : State) : Res :=
  let s := s0.at t
  let a := s.awg n g
  let tc := a.start + 20 * (32 * entLen a.hi - 64)
  .next (if awgState s n g = 2 ∧ !awgDds s n g ∧ a.next = none ∧ tc ≤ s.clasp then awgDecide n g (jumpsBefore n g tc s)
    else s)

/-- A pass begins at the boundary b (R288, R294). -/
def awgTurn (n : Cluster) (g : Fin 2) (b entry : Nat) (lo hi : Word) (left : Nat) (jump : Option Bool) (s : State) : State :=
  let ix := awgIx n g
  let s1 := modAwg n g (fun a =>
    { a with fifo := a.fifo.drop (32 * entLen a.hi - a.pos), pos := 0, start := b, entry, lo, hi, left, next := none })
    s
  let s2 := s1.setRf .CL_AWG_STAT ix 16 10 entry
  match jump with
  | none => s2
  | some late =>
    let s3 := ((s2.count .CL_AWG_JCNT ix 32).setPair .CL_AWG_TJUMP_LO .CL_AWG_TJUMP_HI ix b).setRb .CL_AWG_EVT ix 1 true
    let s4 := s3.setRb .CL_AWG_STAT ix 4 late
    if late then s4.setRb .CL_AWG_EVT ix 2 true else s4

/-- AWG_PASS_END (R288, R292, R294): the decided pass begins, or the generator stops. -/
def execAwgPassEnd (t : Nat) (n : Cluster) (g : Fin 2) (s0 : State) : Res :=
  let s := s0.at t
  let a := s.awg n g
  let b := a.start + 20 * (32 * entLen a.hi)
  .next (if awgState s n g = 2 ∧ !awgDds s n g ∧ b ≤ s.clasp then
      match a.next with
      | none => s
      | some nx =>
        let s1 := jumpsBefore n g b s
        if (match a.stopAt with | some x => decide (x ≤ b) | none => false) then awgHalt n g s1
        else if a.refused ∧ a.fifo.length < 32 * entLen a.hi - a.pos then awgHalt n g (awgErr n g 3 s1)
        else
          match nx with
          | .stop bad => awgHalt n g (if bad then awgErr n g 2 s1 else s1)
          | .pass e lo hi left jump => awgTurn n g b e lo hi left jump s1
    else s)

/-- AWG_FETCH (R290): a granule of 32 samples comes from Millpond, 64 samples ahead of play, or its read is refused. -/
def execAwgFetch (t : Nat) (n : Cluster) (g : Fin 2) (s0 : State) : Res :=
  let s := s0.at t
  let a := fetchTurn (s.awg n g)
  let q : MillReq := .cluster n (if g = 0 then 2 else 3)
  .next (if (awgState s n g = 1 ∨ awgState s n g = 2) ∧ !awgDds s n g ∧ !a.refused ∧ a.fifo.length ≤ 32 ∧ 0 < a.fetchLeft
      ∧ streamServed s n (if g = 0 then 2 else 3) false a.fetchAt 64 then
      if memAdmits s q false a.fetchAt 64 then
        s.setAwg n g { a with fifo := a.fifo ++ samplesOf (s.bytes a.fetchAt 64), fetchAt := a.fetchAt + 64,
                              fetchLeft := a.fetchLeft - 1 }
      else (noteRefusals q false false a.fetchAt 64 s).setAwg n g { a with refused := true }
    else s)

/-- AWG_SAMPLE_BOUNDARY (R296): at a multiple of 20 ticks the generator puts out its next sample, clear code or held
sample. -/
def execAwgSampleBoundary (t : Nat) (n : Cluster) (g : Fin 2) (s0 : State) : Res :=
  let s := s0.at t
  .next (if s.clasp % 20 = 0 ∧ !clrPin s n g then awgBoundary n g s else s)

/-- The AUX pin is driven (R283). -/
def auxDriven (s : State) (n : Cluster) (g : Fin 2) : Bool :=
  decide (awgDest s n g = 3) && !s.rb .CL_AWG_STAT (awgIx n g) 6

/-- AUX_CURRENT_LIMIT (R283): the limit begins to act at a driven pin. -/
def execAuxCurrentLimit (t : Nat) (n : Cluster) (g : Fin 2) (s0 : State) : Res :=
  let s := s0.at t
  .next (if auxDriven s n g ∧ !s.rb .CL_AWG_STAT (awgIx n g) 5 then
      modAwg n g (fun a => { a with scSince := some s.clasp })
        ((s.setRb .CL_AWG_STAT (awgIx n g) 5 true).setRb .CL_AWG_EVT (awgIx n g) 6 true)
    else s)

/-- AUX_SC_TIMEOUT (R283): the limit has acted for 800,000 ticks: the pin goes high impedance, a corrected fault goes out,
which the collector counts in the life record. -/
def execAuxScTimeout (t : Nat) (n : Cluster) (g : Fin 2) (s0 : State) : Res :=
  let s := s0.at t
  let ix := awgIx n g
  .next (match (s.awg n g).scSince with
    | some x =>
      if auxDriven s n g ∧ x + 800000 ≤ s.clasp then
        let s1 := modAwg n g (fun a => { a with scSince := none }) (s.setRf .CL_AWG_STAT ix 5 2 2)
        (s1.setRb .CL_AWG_EVT ix 7 true).send (srcOf n (40 + g.val)) 4 0 (2 * n.val + g.val)
      else s
    | none => s)

/-- f applied at both generators of every cluster. -/
def forAwgs (f : Cluster → Fin 2 → State → State) (s : State) : State :=
  forClusters (fun n s => f n 1 (f n 0 s)) s

/-- AWG_CLR# falls at one generator (R299): its clear code, CLEAR, CLR_PIN, ERR CLEARED, CLR. -/
def clrAssertOne (n : Cluster) (g : Fin 2) (s : State) : State :=
  let ix := awgIx n g
  let s1 := if (s.awg n g).jump.isSome then jumpLost n g s else s
  let s2 := modAwg n g (fun a =>
    { a with next := none, jump := none, fifo := [], stopAt := none, refused := false, held := false }) s1
  let s3 := setAwgState n g 3 (noteJump n g s2)
  let s4 := ((s3.setRf .CL_AWG_STAT ix 8 4 6).setRb .CL_AWG_STAT ix 7 true).setRb .CL_AWG_EVT ix 8 true
  putOut n g (clearCode s n g) s4

/-- AWG_CLR_ASSERT (R299). -/
def execAwgClrAssert (t : Nat) (s0 : State) : Res := .next (forAwgs clrAssertOne (s0.at t))

/-- AWG_CLR# is released at one generator (R299): IDLE, its clear code stays. -/
def clrReleaseOne (n : Cluster) (g : Fin 2) (s : State) : State :=
  if clrPin s n g then setAwgState n g 0 (s.setRb .CL_AWG_STAT (awgIx n g) 7 false) else s

/-- AWG_CLR_RELEASE (R299). -/
def execAwgClrRelease (t : Nat) (s0 : State) : Res := .next (forAwgs clrReleaseOne (s0.at t))

end Sys2Proof.Machine
end

