-- ==== Sys2Proof/Machine/SeqOps.lean ====
section
/-! DEFINITION. Sys2Proof/Machine/SeqOps.lean: the micro-sequencer's front end, arming, ends of pattern, saved contexts and
traps (R142 to R218). Times named T are in codes, 512 to the ROOT tick (R4). -/

namespace Sys2Proof.Machine

/-! ### The stores as the sequencer reads them -/

def State.microAt (s : State) (n : Cluster) (a : Nat) : MWord := tabGet { } s.micro (65536 * n.val + a % 65536)
def State.setMicroAt (s : State) (n : Cluster) (a : Nat) (v : MWord) : State :=
  { s with micro := tabSet { } s.micro (65536 * n.val + a % 65536) v }
def State.nanoAt (s : State) (n : Cluster) (i : Nat) : NWord := tabGet { } s.nano (4096 * n.val + i % 4096)
def State.setNanoAt (s : State) (n : Cluster) (i : Nat) (v : NWord) : State :=
  { s with nano := tabSet { } s.nano (4096 * n.val + i % 4096) v }
def State.libAt (s : State) (a : Nat) : Word := tabGet 0#32 s.libMicro a
def State.libNanoAt (s : State) (i : Nat) : Nano := tabGet 0#256 s.libNano i

/-- Nano-word i of the user or library nano store, and whether a parity group of it is wrong (R144, R164). -/
def readNano (s : State) (n : Cluster) (lib : Bool) (i : Nat) : Nano × Bool :=
  if lib then (s.libNanoAt i, false) else ((s.nanoAt n i).w, decide ((s.nanoAt n i).bad ≠ 0#8))

/-- The microword at a program address, and whether its parity is wrong. -/
def fetchWord (s : State) (n : Cluster) (p : PAddr) : Word × Bool :=
  if p.lib then (s.libAt p.a, false) else ((s.microAt n p.a).w, decide ((s.microAt n p.a).bad ≠ 0#2))

/-- Slot j of a nano-word (R147). -/
def slotOf (x : Nano) (j : Nat) : Word := x.extractLsb' (32 * j) 32

/-- Lane c of a nano-word (R158): the state codes of half 1 and half 2. -/
def laneOf (x : Nano) (c half : Nat) : Nat := (x.extractLsb' (8 * c + 4 * half) 4).toNat

/-- The channel set a nano-word names (R150): bit c when lane c is not 0x00. -/
def laneSet (x : Nano) : Word :=
  BitVec.ofNat 32 (((List.range 32).map fun c => if (x.extractLsb' (8 * c) 8).toNat = 0 then 0 else 2 ^ c).sum)

/-- The built-in nano-word: keep in both halves of every lane (R154). -/
def keepNano : Nano := 0x8888888888888888888888888888888888888888888888888888888888888888#256

/-! ### Refill (R188, R190) -/

def Hop.fillOf (h : Hop) (half : Nat) : Nat := if half = 0 then h.fill0 else h.fill1
def Hop.closedOf (h : Hop) (half : Nat) : Bool := if half = 0 then h.closed0 else h.closed1

/-- A position of the user store is ready (R188). -/
def hopReady (h : Hop) (a : Nat) : Bool := decide (a % 32768 < h.fillOf (a / 32768 % 2))

/-- The refill level L from address a on (R190). -/
def refillLevel (h : Hop) (a : Nat) : Nat :=
  let half := a / 32768 % 2
  (h.fillOf half - a % 32768) + (if h.closedOf half then h.fillOf (1 - half) else 0)

/-- The half being filled is closed: nothing more comes into it. -/
def fillClosed (h : Hop) : Bool := h.closedOf h.half

/-- The Hopper, waiting for the other half to be active no longer, enters it (R188). -/
def hopEnter (h : Hop) (active : Nat) : Hop :=
  if h.waitHalf ∧ 1 - h.half ≠ active then
    if h.half = 0 then { h with half := 1, fill1 := 0, closed1 := false, waitHalf := false }
    else { h with half := 0, fill0 := 0, closed0 := false, waitHalf := false }
  else h

/-! ### The queue -/

/-- The entry counts against the queue's 16 (R170): vectors and waiting words. -/
def QEntry.counts : QEntry → Bool
  | .vec .. | .wtrig .. | .wct .. | .hold .. | .mst .. | .mwait .. => true
  | _ => false

/-- The entry is a stall point (R190). -/
def QEntry.stalls : QEntry → Bool
  | .stallPoint _ => true
  | _ => false

/-- The queue has room for another vector or waiting word. -/
def queueRoom (q : Seq) : Bool := decide ((q.q.filter QEntry.counts).length < 16)

def pushQ (q : Seq) (e : QEntry) : Seq := { q with q := q.q ++ [e] }

/-- The next address in sequence (R143): the user store wraps from 65,535 to 0; past library 4,095 nothing is legal. -/
def PAddr.next (p : PAddr) : PAddr := if p.lib then ⟨true, p.a + 1⟩ else ⟨false, (p.a + 1) % 65536⟩

/-- The target of a J or L layout. -/
def target (lib : BitVec 1) (a : BitVec 16) : PAddr := ⟨decide (lib = 1#1), a.toNat⟩

/-! ### Legality (R144, R145, R149, R157) -/

/-- The library entry table lists the address (R221). -/
def libEntry (s : State) (a : Nat) : Bool :=
  (List.range 64).any fun i => bitOf (s.libAt i) 31 && decide ((s.libAt i).toNat % 4096 = a) && decide (64 ≤ a)

/-- A channel register word that WRI and WRN may name (R155). -/
def wordOk (w : Nat) : Bool := decide (w = 0 ∨ w = 2 ∨ w = 3 ∨ w = 5 ∨ (16 ≤ w ∧ w ≤ 23))

/-- A jump from library code stays in it, a jump from user code stays out of it (R145). -/
def jumpOk (src : PAddr) (lib : BitVec 1) : Bool := decide (src.lib = decide (lib = 1#1))

/-- A nano index as the store of the word permits it (R144). -/
def nanoOk (src : PAddr) (nano : BitVec 12) : Bool := !src.lib || decide (nano.toNat < 512)

/-- A target field keeps R146: with LIB = 1 its bits 15:12 are 0. -/
def fieldOk (lib : BitVec 1) (a : BitVec 16) : Bool := decide (lib = 0#1) || decide (a.toNat < 4096)

/-- The microword at src, reached by front end fe, is legal (R157). -/
def microLegal (s : State) (fe : FE) (src : PAddr) (m : Micro) : Bool :=
  (!src.lib || decide (64 ≤ src.a ∧ src.a < 4096)) &&
  (match fe.rpt with
    | none => true
    | some _ => match m with | .vec .. => true | _ => false) &&
  (match m with
    | .vec nano .. | .mvec nano .. | .hset nano .. | .csel nano | .sel nano | .wct nano .. => nanoOk src nano
    | .jmp lib a | .jm lib a | .jnm lib a | .jf lib a | .jnf lib a | .loop _ lib a => jumpOk src lib && fieldOk lib a
    | .call lib a =>
      decide (fe.stack.length < 16) && (if lib = 1#1 then libEntry s a.toNat else !src.lib)
    | .ret => decide (fe.stack ≠ [])
    | .rmark _ => fe.rtn.isSome
    | .runw lib a => fe.rtn.isSome && fieldOk lib a
    | .wri w _ => fe.rtn.isSome && wordOk w.toNat
    | .wrn w nano slot => fe.rtn.isSome && wordOk w.toNat && nanoOk src nano && decide (slot.toNat % 2 = 0)
    | .rbeg _ => fe.called && fe.rtn.isNone
    | _ => true)

/-! ### The front end -/

/-- The front end goes on at p. A first fetch from the other half is a stall point of a streamed pattern, and lets a
waiting Hopper into the half left (R188, R190). -/
def feGoto (n : Cluster) (p : PAddr) (s : State) : State :=
  let q := s.seq n
  let q1 := { q with fe := { q.fe with pc := p } }
  if p.lib ∨ p.a / 32768 = s.rf .CL_STORE_STAT n 0 1 then s.setSeq n q1
  else
    let s1 := s.setRf .CL_STORE_STAT n 0 1 (p.a / 32768)
    if streaming s n then (s1.setSeq n (pushQ q1 (.stallPoint p))).setHop n (hopEnter (s.hop n) (p.a / 32768))
    else s1.setSeq n q1

/-- The front end can execute words: the sequencer is not idle and the pattern is not over for it. -/
def feLive (s : State) (n : Cluster) : Bool := !seqIdle s n && (s.seq n).feOn && decide ((s.seq n).ending = none)

/-- The word at the front end's program counter is there to be fetched (R188, R192). -/
def feReady (s : State) (n : Cluster) : Bool :=
  let p := (s.seq n).fe.pc
  p.lib || !streaming s n || hopReady (s.hop n) p.a

/-- The microword the front end stands at, if it is live, ready, good and listed. -/
def feWord (s : State) (n : Cluster) : Option Micro :=
  if feLive s n && feReady s n && !(fetchWord s n (s.seq n).fe.pc).2 then
    decodeMicro (fetchWord s n (s.seq n).fe.pc).1
  else none

/-- The front end stops at a word whose parity is wrong: microword or nano-word (R164). -/
def feParity (n : Cluster) (nano : Option Nat) (s : State) : State :=
  s.modSeq n fun q => { pushQ q (.badParity q.fe.pc nano) with feOn := false }

/-- CL_SEQ_STAT.DEPTH follows the stack. -/
def noteDepth (n : Cluster) (s : State) : State := s.setRf .CL_SEQ_STAT n 5 5 (s.seq n).fe.stack.length

/-- What executing one legal word that is no conditional does at the front end: the queue entries, the sets, the stack, and
where the front end goes on (R148 to R155). The word stands at q.fe.pc. -/
def feApply (n : Cluster) (m : Micro) (s : State) : State :=
  let q := s.seq n
  let fe := { q.fe with called := false }
  let src := fe.pc
  let go := fun (q' : Seq) => feGoto n src.next (s.setSeq n q')
  let nano := fun (i : BitVec 12) => readNano s n src.lib i.toNat
  match m with
  | .vec i ts rep =>
    let left := match fe.rpt with | some k => max 1 k | none => rep.toNat + 1
    go (pushQ { q with fe := { fe with rpt := none } } (.vec src i.toNat ts.toNat left false fe.cond q.ep))
  | .mvec i ts rep => go (pushQ { q with fe } (.vec src i.toNat ts.toNat (rep.toNat + 1) true fe.cond q.ep))
  | .hset i ts _ =>
    let h : HoldVec := ⟨some (src.lib, i.toNat), ts.toNat⟩
    go (pushQ { q with fe := { fe with hold := h } } (.hset h))
  | .jmp l a => feGoto n (target l a) (s.setSeq n { q with fe })
  | .call l a =>
    noteDepth n (feGoto n (target l a) (s.setSeq n { q with fe := { fe with stack := src.next :: fe.stack, called := true } }))
  | .ret =>
    if q.unwind then s.setSeq n { pushQ q (.stop 0) with feOn := false }
    else
      let back := fe.stack.headD ⟨false, 0⟩
      let fe1 := { fe with stack := fe.stack.tail }
      match fe.rtn with
      | some r =>
        if r.depth = fe.stack.length then
          noteDepth n (feGoto n back (s.setSeq n (pushQ
            { q with fe := { fe1 with sel := r.sel, cond := r.cond, hold := r.hold, rtn := none } } (.rret r.hold))))
        else noteDepth n (feGoto n back (s.setSeq n { q with fe := fe1 }))
      | none => noteDepth n (feGoto n back (s.setSeq n { q with fe := fe1 }))
  | .ldc c k => go { q with fe := { fe with ctrs := fe.ctrs.set c.toNat (max 1 k.toNat) } }
  | .loop c l a =>
    let old := fe.ctrs.getD c.toNat 0
    let v := if old = 0 then Config.loopZero c.toNat % 2 ^ 23 else old - 1
    let dst := if v ≠ 0 then target l a else src.next
    let s1 := feGoto n dst (s.setSeq n { q with fe := { fe with ctrs := fe.ctrs.set c.toNat v } })
    if streaming s n && !src.lib then s1.modSeq n fun q' => pushQ q' (.stallPoint dst) else s1
  | .clrf => go { q with fe, ep := q.ep + 1, fFail := false }
  | .csel i => if (nano i).2 then feParity n (some i.toNat) s else go { q with fe := { fe with cond := laneSet (nano i).1 } }
  | .sel i => if (nano i).2 then feParity n (some i.toNat) s else go { q with fe := { fe with sel := laneSet (nano i).1 } }
  | .rpt k => go { q with fe := { fe with rpt := some k.toNat } }
  | .wtrig t u => go (pushQ { q with fe } (.wtrig src u.toNat t.toNat))
  | .wct i p rel =>
    if (nano i).2 then feParity n (some i.toNat) s
    else
      let v := (slotOf (nano i).1 (2 * p.toNat)).toNat + (slotOf (nano i).1 (2 * p.toNat + 1)).toNat * 2 ^ 32
      go (pushQ { q with fe } (.wct src v (decide (rel = 1#1))))
  | .hold k => go (pushQ { q with fe } (.hold src k.toNat))
  | .rmark i =>
    let fe1 := { fe with pc := src.next }
    go (pushQ { q with fe } (.rmark i.toNat fe1))
  | .rbeg i =>
    let r : RtnFE := ⟨i.toNat, fe.stack.length, fe.sel, fe.cond, fe.hold⟩
    let fe1 := { fe with sel := 0#32, cond := 0xFFFFFFFF#32, rtn := some r, pc := src.next }
    go (pushQ { q with fe := { fe1 with pc := src } } (.rbeg i.toNat fe1))
  | .runw l a => go (pushQ { q with fe } (.runw (target l a)))
  | .wri w v => go (pushQ { q with fe } (.wri w.toNat (v.setWidth 32) 0xFFFFFFFF#32 fe.sel))
  | .wrn w i k =>
    if (nano i).2 then feParity n (some i.toNat) s
    else go (pushQ { q with fe } (.wri w.toNat (slotOf (nano i).1 k.toNat) (slotOf (nano i).1 (k.toNat + 1)) fe.sel))
  | .mst r => go (pushQ { q with fe } (.mst src r.toNat fe.sel))
  | .mwait => go (pushQ { q with fe } (.mwait src))
  | .stop c => s.setSeq n { pushQ { q with fe } (.stop c.toNat) with feOn := false }
  | .jm l a | .jnm l a | .jf l a | .jnf l a => feGoto n (target l a) (s.setSeq n { q with fe })

/-- A conditional can be decided now (R174, R175): nothing that takes vector time stands before it, it is 128 ticks before
the start of the next vector, and every vector whose compares the decision sees is complete. -/
def condDue (s : State) (n : Cluster) : Bool :=
  let q := s.seq n
  !(q.q.any QEntry.counts) && !(q.q.any QEntry.stalls) && decide (q.wait = none) && !q.stalled && decide (s.clasp + 128 = q.tNext / 512) &&
  q.infl.all fun v => decide (v.kind = .hold) || decide (q.tNext < v.stop + 224 * 512)

/-- The front end executes the word it stands at, if its opcode is `want` and it is legal; the queue must have room for an
entry that counts (R170). -/
def feExec (n : Cluster) (want : BitVec 6) (s : State) : State :=
  if feLive s n && feReady s n && (fetchWord s n (s.seq n).fe.pc).2 &&
      decide ((fetchWord s n (s.seq n).fe.pc).1.extractLsb' 26 6 = want) then feParity n none s
  else
    match feWord s n with
    | none => s
    | some m =>
      if m.op = want ∧ microLegal s (s.seq n).fe (s.seq n).fe.pc m ∧ queueRoom (s.seq n) then feApply n m s else s

/-- A conditional whose opcode is `want` is decided: it jumps when `flag` says so (R174). -/
def feCond (n : Cluster) (want : BitVec 6) (flag : Seq → Bool) (s : State) : State :=
  if feLive s n && feReady s n && (fetchWord s n (s.seq n).fe.pc).2 &&
      decide ((fetchWord s n (s.seq n).fe.pc).1.extractLsb' 26 6 = want) then feParity n none s
  else
    match feWord s n with
    | none => s
    | some m =>
      if m.op = want ∧ microLegal s (s.seq n).fe (s.seq n).fe.pc m ∧ condDue s n then
        if flag (s.seq n) then feApply n m s
        else feGoto n (s.seq n).fe.pc.next (s.modSeq n fun q => { q with fe := { q.fe with called := false } })
      else s

/-- An illegal microword is reached for execution (R157), or one of any opcode whose parity is wrong (R164). -/
def feIllegal (n : Cluster) (s : State) : State :=
  if feLive s n && feReady s n && !(fetchWord s n (s.seq n).fe.pc).2 then
    let bad := match decodeMicro (fetchWord s n (s.seq n).fe.pc).1 with
      | none => true
      | some m => !microLegal s (s.seq n).fe (s.seq n).fe.pc m
    if bad then s.modSeq n fun q => { pushQ q (.illegal q.fe.pc) with feOn := false } else s
  else if feLive s n && feReady s n then feParity n none s
  else s

/-! ### Arming and ends (R178 to R181) -/

/-- T(0) of a start with TMODE 0: the first multiple of 8 ticks at least 256 ticks after the write (R178). -/
def startGrid (t : Nat) : Nat := (t + 256 + 7) / 8 * 8

/-- The counts that an arming clears (R178). -/
def clearCounts (n : Cluster) (s : State) : State :=
  let s1 := ((((s.setReg .CL_SEQ_VCNT_LO n 0#32).setReg .CL_SEQ_VCNT_HI n 0#32).setReg .CL_SEQ_STALLS n 0#32).setReg
    .CL_SEQ_HOLDV n 0#32).setReg .CL_SEQ_BUBBLES n 0#32
  let s2 := (List.range 32).foldl (fun s c => s.setReg .CL_SEQ_FCNT (n.val * 32 + c) 0#32) s1
  s2.setReg .CL_SEQ_FFVALID n 0#32

/-- The sequencer is armed to start at Clasp time t0 with front end fe (R178). -/
def armAt (n : Cluster) (t0 : Nat) (fe : FE) (stream : Bool) (s : State) : State :=
  let q := s.seq n
  let q1 : Seq :=
    { q with fe := fe, feOn := true, q := if stream then [.stallPoint fe.pc] else [], tNext := t0 * 512, t0 := t0, seqNo := 0,
             hold := fe.hold, infl := [], edges := [], lastPl := [], wait := none, steps := [], release := none, stalled := false, abort := none,
             ending := none, lastEnd := s.clasp * 512, matchNo := 0 }
  let s1 := ((s.setReg .CL_SEQ_RES n 0#32).setRb .CL_SEQ_STAT n 4 stream).setHop n { s.hop n with err := false }
  let s2 := if fe.pc.lib then s1 else s1.setRf .CL_STORE_STAT n 0 1 (fe.pc.a / 32768)
  noteDepth n (setSeqState n 1 (s2.setSeq n q1))

/-- A start that is not run: back to IDLE with its code (R179). -/
def notRun (n : Cluster) (code : Nat) (s : State) : State :=
  setSeqState n 0 ((s.setReg .CL_SEQ_RES n (BitVec.ofNat 32 code)).setRb .CL_SEQ_EVT n 3 true)

/-- From when a start of cluster n counts: now, or when an abandoned calibration step's channels are back (R456). -/
def startFrom (s : State) (n : Cluster) : Nat := max s.clasp (tabGet { } s.cal n.val).back

/-- The sequencer arms with T(0) by CL_SEQ_CTRL.TMODE (R178, R456), or the start is not run (R179). -/
def armSeq (n : Cluster) (fe : FE) (stream : Bool) (s : State) : State :=
  if !s.rb .CL_TIM_STAT n 0 then notRun n 8 s
  else if s.rb .CL_SEQ_CTRL n 3 then
    let t0 := s.pair .CL_SEQ_TSTART_LO .CL_SEQ_TSTART_HI n
    if t0 < startFrom s n + 256 then notRun n 7 s else armAt n t0 fe stream s
  else armAt n (startGrid (startFrom s n)) fe stream s

/-- The front end at the start of a pattern (R150, R154). -/
def freshFE (a : Nat) : FE :=
  ⟨⟨false, a⟩, [0, 0, 0, 0, 0, 0, 0, 0], [], 0#32, 0xFFFFFFFF#32, ⟨none, 0⟩, none, false, none⟩

/-- A START of an idle sequencer (R178, R186): counts and flags are cleared, streaming applies when the Hopper is enabled. The
loop counters keep their values (notes/assumptions/25.md). -/
def startSeq (n : Cluster) (s : State) : State :=
  let s1 := (clearCounts n s).modSeq n fun q =>
    { q with fFail := false, fMatch := false, ep := 0, rtn := none, unwind := false, resume := false }
  armSeq n { freshFE (s.rf .CL_SEQ_ADDR n 0 16) with ctrs := (s.seq n).fe.ctrs } (s.rb .CL_HOP_CTRL n 0) s1

/-- The pattern is over but for its last vector (R180): the code and EXIT it will end with. -/
def endSeq (n : Cluster) (code exit : Nat) (s : State) : State :=
  s.modSeq n fun q =>
    { q with ending := some (code, exit), feOn := false, q := [], steps := [], wait := none, stalled := false, abort := none,
             lastEnd := if q.seqNo = 0 then s.clasp * 512 else q.lastEnd }

/-! ### Contexts (R205 to R213) -/

/-- One step of the CRC-32 of R206. -/
def crcBit (c : BitVec 32) : BitVec 32 := if c.getLsbD 0 then (c >>> 1) ^^^ 0xEDB88320#32 else c >>> 1

/-- One byte into the CRC. -/
def crcByte (c : BitVec 32) (b : Byte) : BitVec 32 :=
  crcBit (crcBit (crcBit (crcBit (crcBit (crcBit (crcBit (crcBit (c ^^^ b.setWidth 32))))))))

/-- The CRC-32 of a byte string (R206). -/
def crc32 (bs : List Byte) : BitVec 32 := (bs.foldl crcByte 0xFFFFFFFF#32) ^^^ 0xFFFFFFFF#32

/-- The registers of the digest, in order (R206). -/
def digestRegs : List Reg :=
  [.CH_CTRL, .CH_LVL, .CH_CMP, .CH_BLANK, .CH_PM_CTRL, .CH_PM_FV, .CH_PM_FI, .CH_PM_ICLH, .CH_PM_ICLL, .CH_PM_VCLH,
   .CH_PM_VCLL, .CH_PM_APER]

/-- CH_CTRL as it reads: a fenced channel's connections read 0 (R310). -/
def chCtrlRead (s : State) (n : Cluster) (c : Channel) : Word :=
  if fenced s n c then s.reg .CH_CTRL (chIx n c) &&& ~~~ 0x3F#32 else s.reg .CH_CTRL (chIx n c)

/-- The digest of cluster n's channels as their registers read (R206). -/
def digest (s : State) (n : Cluster) : Word :=
  crc32 ((List.finRange 32).flatMap fun c => digestRegs.flatMap fun r =>
    leBytes 4 (if r = .CH_CTRL then chCtrlRead s n c else s.reg r (chIx n c)).toNat)

/-- A microword address in the form of CL_MR_RADDR. -/
def paddrWord (p : PAddr) : Word := BitVec.ofNat 32 (p.a % 65536 + 65536 * b2n p.lib)

/-- The context of the running routine is saved (R205), with CL_MR_STAT's RESUMABLE, PARKED, CAUSE and OUTCOME. -/
def saveCtx (n : Cluster) (resumable parked : Bool) (cause outcome : Nat) (s : State) : State :=
  match (s.seq n).rtn with
  | none => s
  | some r =>
    let q := s.seq n
    let u : Word := match r.uaddr with | some p => paddrWord p ||| 0x80000000#32 | none => 0#32
    let s1 := (((((s.setReg .CL_MR_ID n (BitVec.ofNat 32 (r.id % 65536 + 65536 * (r.step % 65536)))).setReg .CL_MR_RADDR n
      (paddrWord r.mark.pc)).setReg .CL_MR_UADDR n u).setReg .CL_MR_DIGEST n (digest s n)).setReg .CL_MR_TOUCHED n
      r.touched)
    let s2 := (List.range 8).foldl
      (fun s k => s.setReg .CL_MR_LC (n.val * 8 + k) (BitVec.ofNat 32 (r.mark.ctrs.getD k 0))) s1
    let stat := BitVec.ofNat 32 (1 + 2 * b2n resumable + 16 * b2n parked + 256 * cause + 4096 * b2n (s.rb .CL_MR_STAT n 12) +
      8192 * outcome)
    (s2.setReg .CL_MR_STAT n stat).setSeq n
      { q with ctx := some ⟨r.mark, q.fMatch, q.fFail, r⟩, rtn := none }

/-- An unwind ends, or an abandon runs none (R213): the touched channels are forced safe, the context is gone. -/
def finishUnwind (n : Cluster) (ran : Bool) (s : State) : State :=
  let s1 := forceMask n (s.reg .CL_MR_TOUCHED n) s
  let stat := s1.reg .CL_MR_STAT n
  let s2 := s1.setReg .CL_MR_STAT n (putFld (stat &&& ~~~ 0x1021#32) 13 3 (if ran then 3 else 4))
  let s3 := if 10 ≤ s2.rf .CL_SEQ_RES n 0 4 then s2 else s2.setRf .CL_SEQ_RES n 0 4 2
  (s3.setRb .CL_MR_EVT n 5 true).modSeq n fun q => { q with ctx := none, unwind := false, rtn := none }

/-- The sequencer arms the unwind section of the saved context (R211, R215): UNWIND 1, OUTCOME 0. -/
def armUnwind (n : Cluster) (t0 : Option Nat) (s : State) : State :=
  match (s.seq n).ctx with
  | none => s
  | some x =>
    let p : PAddr := x.rtn.uaddr.getD ⟨false, 0⟩
    let stat := s.reg .CL_MR_STAT n
    let code := s.rf .CL_SEQ_RES n 0 4
    let s1 := s.setReg .CL_MR_STAT n (putFld stat 13 3 0 ||| 0x20#32)
    let fe := { x.fe with pc := p, rpt := none, called := false }
    let s2 := match t0 with
      | some t => (armAt n t fe false s1).setRf .CL_SEQ_RES n 0 4 code
      | none => armSeq n fe false s1
    s2.modSeq n fun q =>
      { q with unwind := true, resume := false, fMatch := x.fMatch, fFail := x.fFail,
               rtn := some { x.rtn with span := q.tNext, fresh := false } }

/-- An ABORT reaches cluster n (R180, R203, R208): `cause` as CL_MR_STAT.CAUSE codes it, `lat` the ticks until it reaches
the issue stage. Every measurement of the cluster ends early (R96). -/
def abortSeq (n : Cluster) (cause lat : Nat) (s : State) : State :=
  let s1 := forChannels n endMeas s
  let q := s1.seq n
  if seqIdle s1 n then (if s1.rb .CL_MR_STAT n 0 then s1.setRb .CL_MR_STAT n 12 true else s1)
  else if q.unwind ∨ q.abort.isSome then
    (if q.unwind ∨ q.rtn.isSome then s1.setRb .CL_MR_STAT n 12 true else s1)
  else if q.ending.isSome then s1
  else if seqState s1 n = 1 ∧ q.seqNo = 0 then endSeq n 2 0 s1
  else s1.setSeq n { q with abort := some (s.clasp + lat, cause) }

/-- The part of a trap that stops the sequencer (R216): the edges not yet placed are dropped, the context is saved
non-resumable with OUTCOME SAFE, the code will be TRAPPED, TEND the time of the trap. A held context becomes
non-resumable with OUTCOME SAFE. -/
def trapSeq (n : Cluster) (s : State) : State :=
  if seqIdle s n then
    if s.rb .CL_MR_STAT n 0 then s.setReg .CL_MR_STAT n (putFld (s.reg .CL_MR_STAT n &&& ~~~ 0x2#32) 13 3 4) else s
  else
    let s1 := saveCtx n false false 6 4 s
    let s2 := endSeq n 13 0 s1
    s2.modSeq n fun q =>
      { q with edges := [], infl := q.infl.filter fun v => decide (v.stop ≤ s.clasp * 512), lastEnd := s.clasp * 512,
               unwind := false }

/-- A non-maskable trap affecting cluster n (R216, R300): the sequencer stops at once, all 32 channels are forced safe, the
generators stop. -/
def nmiTrap (n : Cluster) (s : State) : State := stopAwgs n (forceCluster n (trapSeq n s))

end Sys2Proof.Machine
end

