-- ==== Sys2Proof/Machine/StartOps.lean ====
section
/-! DEFINITION. Sys2Proof/Machine/StartOps.lean: what a start meets before it acts: the Governor (R443, R445), a
calibration step, which it abandons (R456), an interruption or an Assay run, which holds it (R457, R477); and the
calibration bus that known-level self-checks wait for (R69). -/

namespace Sys2Proof.Machine

def State.calSt (s : State) (n : Cluster) : CalSt := tabGet { } s.cal n.val
def State.setCalSt (s : State) (n : Cluster) (v : CalSt) : State := { s with cal := tabSet { } s.cal n.val v }

/-- CL_CAL_STAT.DUE, STEP and INTR. -/
def calDueNow (s : State) (n : Cluster) : Bool := s.rb .CL_CAL_STAT n 0
def calStepOn (s : State) (n : Cluster) : Bool := s.rb .CL_CAL_STAT n 1
def calIntrOn (s : State) (n : Cluster) : Bool := s.rb .CL_CAL_STAT n 2
/-- ASY_STAT.BUSY. -/
def asyBusy (s : State) (n : Cluster) : Bool := s.rb .ASY_STAT n 0

/-! ### The calibration bus -/

/-- A known-level check of the cluster has the calibration bus. -/
def busTaken (s : State) (n : Cluster) : Bool :=
  (List.finRange 32).any fun c => match (s.chan n c).selfchk with | some k => k.known && !k.waits | none => false

/-- The calibration bus passes to the lowest channel whose known-level check waits, when it is free (R69). -/
def busPass (n : Cluster) (s : State) : State :=
  if busTaken s n || calStepOn s n || calIntrOn s n then s
  else
    match (List.finRange 32).find? fun c => match (s.chan n c).selfchk with | some k => k.waits | none => false with
    | some c => s.modChan n c fun x => { x with selfchk := some ⟨s.clasp, true, false⟩ }
    | none => s

/-! ### Starts -/

/-- A start meets a calibration step of the cluster (R456): the step is abandoned, its channels are back 40,000 ticks
later. -/
def calAbandon (n : Cluster) (s : State) : State :=
  if calStepOn s n then
    let s1 := (s.setRb .CL_CAL_STAT n 1 false).setRb .CL_CAL_EVT n 2 true
    busPass n (s1.setCalSt n { s1.calSt n with using_ := 0#32, back := s.clasp + 40000 })
  else s

/-- CL_CAL_EVT.GOV_REFUSE (R445). -/
def govRefuse (n : Cluster) (s : State) : State := s.setRb .CL_CAL_EVT n 4 true

/-- A start of kind `kind` (0 sequencer, 1 generator, 2 gate, 3 capture engine, 4 measurement) of element e of cluster n:
held while the cluster is interrupted or tested, else it ends a calibration step and acts. -/
def startOr (n : Cluster) (kind e : Nat) (go : State → State) (s : State) : State :=
  if calIntrOn s n || asyBusy s n then s.setCalSt n { s.calSt n with held := (s.calSt n).held ++ [(kind, e)] }
  else go (calAbandon n s)

/-- As startOr, for the starts that are ignored at levels 3 and 4 (R445). -/
def startLevel (n : Cluster) (kind e : Nat) (go : State → State) (s : State) : State :=
  if 3 ≤ govLevel s n then govRefuse n s else startOr n kind e go s

/-- A patch keeps starts out (R223): it is being applied, or it waits and BLOCK is 1. -/
def patchBlocks (s : State) : Bool :=
  s.rb .HALLMARK_STAT 0 10 || (s.rb .HALLMARK_STAT 0 8 && s.rb .HALLMARK_PATCH_CTRL 0 2)

/-- A START of the sequencer (R178, R194, R445, R479): ignored with START_IGN while it is not idle, while a context is
held (R209), on a retired cluster, or while a patch keeps starts out (R223); ended before T(0) at levels 3 and 4. -/
def seqStartOp (n : Cluster) (s : State) : State :=
  if !idleNow s n || cluRetired s n || s.rb .CL_MR_STAT n 0 || patchBlocks s then s.setRb .CL_SEQ_EVT n 5 true
  else
    let go := fun s => startOr n 0 0 (startSeq n) s
    if 3 ≤ govLevel s n then
      let s1 := startSeq n (govRefuse n s)
      if seqIdle s1 n then s1 else endSeq n 2 0 s1
    else go s

end Sys2Proof.Machine
end

