-- ==== Sys2Proof/Machine/Operands.lean ====
section
/-! DEFINITION. Sys2Proof/Machine/Operands.lean: what a register write carries (R506, R507): data, the bits it covers, what
the access types make of them, and what an accepted write comes to. -/

namespace Sys2Proof.Machine

/-- What an accepted write comes to: performed, or dropped by a rule of its chapter, which may set a flag; or dropped so
that a commit that holds it fails with CONFLICT, naming generator `gen` of cluster `clu` (R285, R299). -/
inductive Act where
  | ok (s : State)
  | drop (s : State)
  | clash (s : State) (clu gen : Nat)
  deriving DecidableEq, Repr

/-- The state an accepted write leaves, dropped or not. -/
def Act.state : Act → State
  | .ok s | .drop s | .clash s _ _ => s

/-- Bit b is written 1: it is covered and its datum is 1. -/
def ones (d m : Word) (b : Nat) : Bool := bitOf (d &&& m) b

/-- What RW bits `rw` of an element hold after a write of d to the bits m (R506, R507). -/
def mergeRw (old rw d m : Word) : Word := (old &&& ~~~ (rw &&& m)) ||| (d &&& rw &&& m)

/-- The value of element i of r after a plain write: RW bits stored, W1C bits cleared where written 1 (R506). -/
def plainWord (s : State) (r : Reg) (i : Nat) (d m : Word) : Word :=
  mergeRw (s.reg r i) (r.rwOf i) d m &&& ~~~ (d &&& m &&& r.row.w1c)

/-- A plain write of element i of r. -/
def plainWrite (r : Reg) (i : Nat) (d m : Word) (s : State) : State := s.setReg r i (plainWord s r i d m)

/-- A plain write after which the field of `len` bits at `lo` holds at most `top` ("stored as", R508). -/
def cappedWrite (r : Reg) (i lo len top : Nat) (d m : Word) (s : State) : State :=
  let w := plainWord s r i d m
  s.setReg r i (if top < fld w lo len then putFld w lo len top else w)

end Sys2Proof.Machine
end

