-- ==== Sys2Proof/Machine/FabricOps.lean ====
section
/-! DEFINITION. Sys2Proof/Machine/FabricOps.lean: what writes to the bank, sluice, lottery and semaphore registers do (R330,
R336, R342, R346, R350 to R352, R356); draws (R344, R345). -/

namespace Sys2Proof.Machine

/-! ### Banks (R330, R336) -/

/-- Requester r acts for owner o of a bank (R330). -/
def actsFor (s : State) (r : Req) (o : Nat) : Bool :=
  isMgmt s r || (decide (o < 24) && (ownsClu s r o || (decide (r = 4) && flowClu s o))) || decide (r.val < 4 ∧ o = 32 + r.val)

/-- A code of BANK_OWN.OWNER that is valid (R329). -/
def ownerOk (o : Nat) : Bool := decide (o < 24 ∨ (32 ≤ o ∧ o < 36) ∨ o = 40 ∨ o = 48)

/-- A write of BANK_OWN or BANK_STATE is refused (R330, R336). -/
def bankRefuse (s : State) : Act := .drop (s.setRb .MP_EVT 0 1 true)

/-- A write to BANK_OWN[b] (R330, R331). -/
def bankOwnSet (r : Req) (b : Nat) (d m : Word) (s : State) : Act :=
  let cur := s.rf .BANK_OWN b 0 6
  let o := fld (mergeRw (s.reg .BANK_OWN b) 0x3F#32 d m) 0 6
  if !actsFor s r cur || !ownerOk o || s.rb .BANK_OWN b 16 then bankRefuse s
  else if o = cur then .ok s
  else .ok ((s.setRf .BANK_OWN b 8 6 o).setRb .BANK_OWN b 16 true)

/-- A write to BANK_STATE[b] (R336): a request for the state the bank is in changes nothing but REQ. -/
def bankStateSet (r : Req) (b : Nat) (d m : Word) (s : State) : Act :=
  let w := fld (mergeRw (s.reg .BANK_STATE b) 3#32 d m) 0 2
  if !actsFor s r (s.rf .BANK_OWN b 0 6) || decide (w = 3) || s.rb .BANK_STATE b 8 then bankRefuse s
  else .ok ((s.setRf .BANK_STATE b 0 2 w).setRb .BANK_STATE b 8 (decide (w ≠ s.rf .BANK_STATE b 4 2)))

/-! ### The sluice table and the lottery -/

/-- The eight entries that SLC_IDX names, as SLC_DATA reads them (R356). -/
def slcWord (s : State) : Word :=
  let tab := if s.rb .SLC_IDX 0 16 then s.slcActive else s.slcShadow
  let k := 64 * s.rf .SLC_IDX 0 0 8 + 8 * s.rf .SLC_IDX 0 8 3
  BitVec.ofNat 32 (((List.range 8).map fun i => tabGet 0 tab (k + i) * 16 ^ i).sum)

/-- SLC_IDX advances by one slot, and by one group at the wrap (R356). -/
def slcAdvance (s : State) : State :=
  let slot := s.rf .SLC_IDX 0 0 8
  let s1 := s.setRf .SLC_IDX 0 0 8 ((slot + 1) % 256)
  if slot = 255 then s1.setRf .SLC_IDX 0 8 3 ((s.rf .SLC_IDX 0 8 3 + 1) % 8) else s1

/-- A write of SLC_DATA reaches the shadow table (R342, R356). -/
def slcPut (d m : Word) (s : State) : State :=
  let k := 64 * s.rf .SLC_IDX 0 0 8 + 8 * s.rf .SLC_IDX 0 8 3
  let old := BitVec.ofNat 32 (((List.range 8).map fun i => tabGet 0 s.slcShadow (k + i) * 16 ^ i).sum)
  let w := mergeRw old 0xFFFFFFFF#32 d m
  slcAdvance { s with slcShadow := (List.range 8).foldl (fun t i => tabSet 0 t (k + i) (fld w (4 * i) 4)) s.slcShadow }

/-- A GO of SLC_COMMIT: the copy is due at the next frame boundary (R342). -/
def slcGo (s : State) : State :=
  if s.slcAt.isSome then s
  else { s.setRb .SLC_STAT 0 0 true with slcAt := some ((fabric s / 256 + 1) * 256) }

/-- A write of LOT_LFSR reseeds the LFSR; 0 is stored as 1 (R356). -/
def lfsrSet (d m : Word) (s : State) : State :=
  let w := mergeRw (lfsrNow s) 0xFFFFFFFF#32 d m
  { s.setReg .LOT_LFSR 0 (if w = 0#32 then 1#32 else w) with lfsrAt := fabric s }

/-- The access that requester r presents. -/
def presented (s : State) (r : Nat) : Option (MillOp × (Nat × Nat)) :=
  (s.present.find? fun p => decide (p.1 = r)).map fun p => p.2

/-- Requester r presents an access that enters draws from FABRIC cycle x on, or none any more. -/
def setPresented (r : Nat) (v : Option (MillOp × (Nat × Nat))) (s : State) : State :=
  let rest := s.present.filter fun p => decide (p.1 ≠ r)
  { s with present := match v with | some x => tabInsert rest r x | none => rest }

/-- A draw among entrants, each a requester with its access, ascending (R344, R345): the winner's access is performed, a
loser backs off. New tickets take effect at the first draw (R346). -/
def draw (b : Nat) (es : List (Nat × (MillOp × Nat))) (s0 : State) : State :=
  let s := if s0.lotPend then
      let s1 := { s0 with lotTkt := (List.range 8).map fun r => s0.rf .LOT_TKT r 0 8 }
      { s1 with lotPend := false }
    else s0
  let w := drawWinner s s.lotTkt b (es.map Prod.fst)
  es.foldl (fun s e =>
    if e.1 = w then perform (lotReq e.1) e.2.1 e.2.2 (setPresented e.1 none (lotWin e.1 s))
    else
      let s1 := lotLose e.1 s
      setPresented e.1 (some (e.2.1, (e.2.2, fabric s + 2 ^ min 10 (lotJ s1 e.1) + 1))) s1) s

/-- An access of requester r enters a draw of bank b now: it is admitted there and r is not masked. -/
def entersDraw (s : State) (b r : Nat) (x : MillOp) (a : Nat) : Bool :=
  let a' := millAddr s (lotReq r) a
  !lotMasked s r && decide (bankOf a' = b) && memAdmits s (lotReq r) false a' (opLen x)

/-- The requesters whose presented accesses enter a draw of bank b in this cycle, ascending. -/
def drawEntrants (s : State) (b : Nat) : List (Nat × (MillOp × Nat)) :=
  (s.present.filter fun p => decide (p.2.2.2 ≤ fabric s) && entersDraw s b p.1 p.2.1 p.2.2.1).map fun p =>
    (p.1, (p.2.1, p.2.2.1))

/-- A best-effort access is presented to Millrace (R343): refused, waiting for a handover, or ready to enter draws. A masked
requester's, or a second one, is discarded. -/
def present (r : Nat) (x : MillOp) (a : Nat) (s : State) : State :=
  let q := lotReq r
  if lotMasked s r || (presented s r).isSome then s
  else
    let a' := millAddr s q a
    if memAdmits s q false a' (opLen x) then setPresented r (some (x, (a, fabric s))) s
    else access q x a s

/-- A stream's grants in this frame (R341). -/
def slotGrants (s : State) (n : Cluster) (k : Fin 6) : Nat :=
  if s.slcFrame = fabric s / 256 then tabGet 0 s.slcCnt (8 * n.val + k.val) else 0

/-- A grant of a stream is counted. -/
def countSlot (n : Cluster) (k : Fin 6) (s : State) : State :=
  let base := if s.slcFrame = fabric s / 256 then s.slcCnt else []
  let s1 := { s with slcCnt := tabSet 0 base (8 * n.val + k.val) (slotGrants s n k + 1) }
  { s1 with slcFrame := fabric s / 256 }

/-- The part of a masked requester's state that R347 clears: backoff, cap, the access presented. -/
def lotMask (r : Nat) (s : State) : State :=
  setPresented r none { lotWin r s with waiting := s.waiting.filter fun w => decide (w.1 ≠ lotReq r) }

/-! ### Semaphores (R349 to R352) -/

/-- The holder that a write of SEM_ACQ or SEM_REL by r acts for, if it is permitted on semaphore k (R349, R350). -/
def semFor (s : State) (r : Req) (k : Nat) (d : Word) : Option Nat :=
  if bitOf d 7 then
    let n := fld d 0 5
    if n < 24 ∧ 2 ≤ k ∧ k ≤ 9 ∧ (ownsClu s r n ∨ (r = 4 ∧ flowClu s n)) then some (8 + n) else none
  else some r.val

/-- Holder h waits in some queue. -/
def semWaits (s : State) (h : Nat) : Bool := (List.range 16).any fun k => (s.sem k).queue.any fun e => decide (e.1 = h)

/-- A write to SEM_ACQ[k] (R350, R351). -/
def semAcquire (r : Req) (k : Nat) (d m : Word) (s : State) : State :=
  let w := d &&& m
  let m0 := s.sem k
  match semFor s r k w with
  | none => semResult r.val k 6 s
  | some h =>
    if semWaits s h || (match m0.holder with | some e => decide (e.1 = h) | none => false) then semResult r.val k 4 s
    else if m0.holder = none ∧ m0.queue = [] then semResult r.val k 1 (s.setSem k { m0 with holder := some (h, r.val) })
    else if bitOf w 8 then semResult r.val k 3 s
    else if (match semHolder s k with | some h' => leadsTo s h 40 h' | none => false) then
      semResult r.val k 5 (s.setRb .SEM_EVT 0 1 true)
    else semResult r.val k 2 (s.setSem k { m0 with queue := m0.queue ++ [(h, r.val)] })

/-- A write to SEM_REL[k] (R350, R357): by the holder, or for the cluster it names by the requester that acquired for it. -/
def semRelease (r : Req) (k : Nat) (d m : Word) (s : State) : State :=
  let w := d &&& m
  let m0 := s.sem k
  match m0.holder with
  | some (h, by_) =>
    if h = r.val ∨ (bitOf w 7 ∧ h = 8 + fld w 0 5 ∧ by_ = r.val) then semHand k (s.setSem k { m0 with holder := none }) else s
  | none => s

/-- SEM_STAT[k] as it reads (R357). -/
def semStat (s : State) (k : Nat) : Word :=
  let m := s.sem k
  let res := decide (m.holder = none) && (match m.queue with | (6, _) :: _ => true | _ => false)
  BitVec.ofNat 32 ((match m.holder with | some e => e.1 | none => 63) + 128 * b2n res + 256 * m.queue.length)

end Sys2Proof.Machine
end

