-- ==== Sys2Proof/Machine/ChannelOps.lean ====
section
/-! DEFINITION. Sys2Proof/Machine/ChannelOps.lean: what writes to the registers of a channel, of its parametric unit, of the
level sets and of the blanking timer do (R29 to R112); the checks of R30 and R105. -/

namespace Sys2Proof.Machine

/-! ### CH_CTRL -/

/-- The writable bits of CH_CTRL after a write (R75): INACT 3 is stored as 0; a retired or fenced channel's stay as they
are (R40, R310); while the part is fatal or the cluster at level 4 no bit that leaves safe state becomes 1 (R448, R474). -/
def ctrlWord (s : State) (n : Cluster) (c : Channel) (d m : Word) : Word :=
  let old := s.reg .CH_CTRL (chIx n c)
  let raw := mergeRw old 0x3F#32 d m
  let w := if fld raw 2 2 = 3 then putFld raw 2 2 0 else raw
  if retired s n c || fenced s n c then old
  else if heldSafe s n c then (w &&& 0x30#32) ||| (w &&& old &&& 0xF#32)
  else w

/-- The bits of CH_CTRL change: the switch begins to close or open (R38, R39), the pattern's drive ends with DRV_EN, NODE
or CONNECT (R43, R45). -/
def ctrlApply (n : Cluster) (c : Channel) (w : Word) (s : State) : State :=
  let was := s.rb .CH_CTRL (chIx n c) 0
  let s1 := s.setReg .CH_CTRL (chIx n c) w
  let s2 := s1.modChan n c fun x =>
    { x with sw := if bitOf w 0 && !was then .closing
                   else if !bitOf w 0 && was then (if x.sw = .opened then .opened else .opening) else x.sw,
             drvOn := x.drvOn && bitOf w 0 && bitOf w 1 && decide (fld w 4 2 = 1) }
  if was && !bitOf w 0 then clearClamp n c s2 else s2

/-- A write to CH_CTRL; SAFE forces safe state, which wins over the rest of the write (R36, R37). -/
def ctrlWrite (n : Cluster) (c : Channel) (d m : Word) (s : State) : State :=
  let s1 := ctrlApply n c (ctrlWord s n c d m) s
  if ones d m 6 then forcedSafe n c s1 else s1

/-! ### CH_LVL, the level sets, CH_CMP -/

/-- A write to CH_LVL: a new set reloads the eight converters (R52). -/
def lvlWrite (n : Cluster) (c : Channel) (d m : Word) (s : State) : State :=
  let s1 := plainWrite .CH_LVL (chIx n c) d m s
  if lsetOf s1 n c = lsetOf s n c then s1 else noteClamp s n c (markChanged n c (s1.setRb .CH_STAT (chIx n c) 3 true))

/-- A write to a word of a level set acts on the channel while it uses the set (R53); a threshold's change marks an open
gate (R244). The manual bounds when it acts within 2.0 µs; here it acts at once (notes/assumptions/13.md). -/
def levelTabWrite (n : Cluster) (i : Nat) (d m : Word) (s : State) : State :=
  let s1 := plainWrite .LEVEL_TAB i d m s
  let j := i % 4096
  (List.finRange 32).foldl
    (fun s' c =>
      if c.val = j / 8 % 32 ∧ lsetOf s n c = j / 256 then
        noteClamp s n c (if j % 8 = 3 ∨ j % 8 = 4 then markChanged n c s' else s')
      else s') s1

/-- A comparator after a change of CH_CMP: it enters UNRESOLVED when it comes on or its mode changes, and goes out when it
is disabled (R59, R60). -/
def cmpAfter (n : Cluster) (c : Channel) (low was modeChanged : Bool) (s : State) : State :=
  let on := cmpOn s n c low
  if on && (!was || modeChanged) || (was && !on) then enterUnres n c low s else s

/-- A write to CH_CMP: HYST above 50 is stored as 50, MODE 5 to 7 as 0; the comparators follow; a change of MODE, an
enable or STAMP_SEL ends a gate (R243), one of HYST marks it (R244). -/
def cmpWrite (n : Cluster) (c : Channel) (d m : Word) (s : State) : State :=
  let ix := chIx n c
  let old := s.reg .CH_CMP ix
  let w0 := plainWord s .CH_CMP ix d m
  let w1 := if 50 < fld w0 5 6 then putFld w0 5 6 50 else w0
  let w := if 5 ≤ fld w1 0 3 then putFld w1 0 3 0 else w1
  let s1 := s.setReg .CH_CMP ix w
  let s2 := if (old ^^^ w) &&& 0x81F#32 ≠ 0#32 then endGate n c 4 false s1 else s1
  let s3 := if fld old 5 6 ≠ fld w 5 6 then markChanged n c s2 else s2
  let mc := decide (fld old 0 3 ≠ fld w 0 3)
  cmpAfter n c true (cmpOn s n c true) mc (cmpAfter n c false (cmpOn s n c false) mc s3)

/-! ### Self-checks and the blanking timer -/

/-- A write to CH_SELFCHK: TYPE is stored; START checks every comparator that is on, or is REFUSED (R69, R71). -/
def selfchkWrite (n : Cluster) (c : Channel) (d m : Word) (s : State) : State :=
  let ix := chIx n c
  let s1 := plainWrite .CH_SELFCHK ix d m s
  if !ones d m 0 || s1.rb .CH_SELFCHK ix 2 then s1
  else
    let s2 := s1.setRf .CH_SELFCHK ix 4 4 0
    let h := cmpOn s n c false
    let l := cmpOn s n c true
    if !h && !l then s2
    else if !seqIdle s n then s2.setRf .CH_SELFCHK ix 4 4 (3 * b2n h + 12 * b2n l)
    else
      let known := s2.rb .CH_SELFCHK ix 1
      let s3 := (s2.setRb .CH_SELFCHK ix 2 true).modChan n c fun x => { x with selfchk := some ⟨s.clasp, known, known⟩ }
      if known then busPass n s3 else s3

/-- A write to CL_BLANK_TMR: EN written 1 starts the timer with T0 now (R67). -/
def blankTmrWrite (n : Cluster) (d m : Word) (s : State) : State :=
  let s1 := plainWrite .CL_BLANK_TMR n d m s
  if ones d m 24 then { s1 with blankAt := tabSet (0, 0) s1.blankAt n.val (s.clasp, s.clasp) } else s1

/-- A write to CH_EVT: the part forces safe state again at every AON cycle while it is fatal or the cluster at level 4
(R448, R474), so SAFE_FORCED stays 1 (notes/assumptions/14.md). -/
def chEvtWrite (n : Cluster) (c : Channel) (d m : Word) (s : State) : State :=
  let s1 := plainWrite .CH_EVT (chIx n c) d m s
  if fatal s ∨ govLevel s n = 4 then s1.setRb .CH_EVT (chIx n c) 6 true else s1

/-! ### The parametric unit -/

/-- A write to CH_PM_CTRL (R79, R86, R87, R94, R96): RANGE 5 to 7 and MMODE 3 are stored as 0; a change of RANGE, FMODE,
MMODE or EN ends a measurement; MMODE leaving 0 begins the grid; EN stays 0 on a channel held safe. `code`: the write is
a routine's, whose START does nothing (R155). -/
def pmCtrlWrite (code : Bool) (n : Cluster) (c : Channel) (d m : Word) (s : State) : State :=
  let ix := chIx n c
  let old := s.reg .CH_PM_CTRL ix
  let w0 := plainWord s .CH_PM_CTRL ix d m
  let w1 := if 5 ≤ fld w0 6 3 then putFld w0 6 3 0 else w0
  let w2 := if fld w1 4 2 = 3 then putFld w1 4 2 0 else w1
  let w := if heldSafe s n c then putBit w2 0 (bitOf w2 0 && bitOf old 0) else w2
  let s1 := if (old ^^^ w) &&& 0x1F9#32 ≠ 0#32 then endMeas n c s else s
  let s2 := s1.setReg .CH_PM_CTRL ix w
  let s3 :=
    if fld old 6 3 ≠ fld w 6 3 then
      (changeRange n c (fld old 6 3) (fld w 6 3) s2).modChan n c fun x => { x with rangeAt := s.clasp }
    else s2
  let s4 :=
    if fld old 4 2 = 0 ∧ fld w 4 2 ≠ 0 then
      (s3.setRb .CH_PM_SAMPLE ix 31 false).modChan n c fun x => { x with grid := nextMeas s.clasp }
    else s3
  let s5 := if !bitOf w 0 ∨ bitOf old 3 ≠ bitOf w 3 then clearClamp n c s4 else s4
  if ones d m 11 && !code then startLevel n 4 c.val (startMeas n c none) s5 else s5

/-- A write of a force code that is limited sets RANGE_LIM (R81, R82). -/
def pmCodeWrite (r : Reg) (n : Cluster) (c : Channel) (d m : Word) (s : State) : State :=
  let s1 := plainWrite r (chIx n c) d m s
  let w := fld (s1.reg r (chIx n c)) 0 20
  if (if r = .CH_PM_FV then w < 40000 ∨ 840000 < w else signed 20 w < -500000 ∨ 500000 < signed 20 w) then s1.setRb .CH_EVT (chIx n c) 22 true else s1

/-- A write to a channel's register (R75, R109). -/
def chanWrite (code : Bool) (r : Reg) (n : Cluster) (c : Channel) (d m : Word) (s : State) : State :=
  match r with
  | .CH_CTRL => ctrlWrite n c d m s
  | .CH_LVL => lvlWrite n c d m s
  | .CH_CMP => cmpWrite n c d m s
  | .CH_SELFCHK => selfchkWrite n c d m s
  | .CH_EVT => chEvtWrite n c d m s
  | .CH_PM_CTRL => pmCtrlWrite code n c d m s
  | .CH_PM_FV | .CH_PM_FI => pmCodeWrite r n c d m s
  | .CH_PM_ICLH | .CH_PM_ICLL => cappedWrite r (chIx n c) 0 19 500000 d m s
  | _ => plainWrite r (chIx n c) d m s

/-- A node-driving function is enabled that CH_CTRL.NODE does not name (R29, R30). -/
def nodeConflict (s : State) (n : Cluster) (c : Channel) : Bool :=
  let node := s.rf .CH_CTRL (chIx n c) 4 2
  (drvEn s n c || decide (inactOf s n c ≠ 0)) && decide (node ≠ 1) || pmEn s n c && decide (node ≠ 2)

end Sys2Proof.Machine
end

