-- ==== Sys2Proof/Machine/TimingOps.lean ====
section
/-! DEFINITION. Sys2Proof/Machine/TimingOps.lean: temperature bands (R133 to R138), the placing of a vector's edges
(R117 to R130), and what an edge does (R121, R159). -/

namespace Sys2Proof.Machine

/-! ### Bands -/

/-- A cluster becomes due for calibration (R454); one already due keeps its deadline. -/
def calBecomeDue (n : Cluster) (s : State) : State :=
  if calDueNow s n then s
  else
    (s.setRb .CL_CAL_STAT n 0 true).setCalSt n
      { s.calSt n with items := [], deadline := some (s.clasp + max 1 (s.rf .CAL_GRACE 0 0 16) * 8000000000) }

/-- The cluster's band record: the band indicated, and since when PEND has been 1. -/
def bandRec (s : State) (n : Cluster) : Option Nat × Nat := tabGet (none, 0) s.bands n.val
def setBandRec (n : Cluster) (v : Option Nat × Nat) (s : State) : State :=
  { s with bands := tabSet (none, 0) s.bands n.val v }

/-- CL_TIM_STAT.ACTIVE. -/
def activeBand (s : State) (n : Cluster) : Nat := s.rf .CL_TIM_STAT n 1 3

/-- The forced band, if one is (R138). -/
def forcedBand (s : State) (n : Cluster) : Option Nat :=
  if s.rb .CL_TIM_CTRL n 0 then some (min 4 (s.rf .CL_TIM_CTRL n 1 3)) else none

/-- PENDING and PEND follow the indicated band, the forced band and ACTIVE; the age starts when PEND does, and STALE goes
with it (R134, R135, R136, R138). -/
def bandNote (n : Cluster) (s : State) : State :=
  match (bandRec s n).1 with
  | none => s
  | some b =>
    let pend := decide (b ≠ (forcedBand s n).getD (activeBand s n))
    let s1 := (s.setRf .CL_TIM_STAT n 4 3 b).setRb .CL_TIM_STAT n 7 pend
    if !pend then s1.setRb .CL_TIM_STAT n 8 false
    else if s.rb .CL_TIM_STAT n 7 then s1 else setBandRec n (some b, s.clasp) s1

/-- A write to CL_TIM_CTRL. -/
def timCtrlSet (n : Cluster) (w : Word) (s : State) : State := bandNote n (s.setReg .CL_TIM_CTRL n w)

/-- CL_TIM_PEND_AGE as it reads (R136). -/
def pendAge (s : State) (n : Cluster) : Nat :=
  if s.rb .CL_TIM_STAT n 7 then min 65535 ((s.clasp - (bandRec s n).2) / 8000000) else 0

/-- The band a reading of x sixteenths of a degree indicates from band b, with hysteresis (R133). -/
def bandFrom (b : Nat) (x : Int) : Nat :=
  let up := (if 416 ≤ x then 1 else 0) + (if 736 ≤ x then 1 else 0) + (if 1056 ≤ x then 1 else 0) + (if 1376 ≤ x then 1 else 0)
  let dn := (if 384 ≤ x then 1 else 0) + (if 704 ≤ x then 1 else 0) + (if 1024 ≤ x then 1 else 0) + (if 1344 ≤ x then 1 else 0)
  if b < up then up else if dn < b then dn else b

/-- Sensor j's last reading, if valid (R440). -/
def sensorTemp (s : State) (j : Nat) : Option Int :=
  if s.rb .THS_TEMP j 16 then some (signed 16 (s.rf .THS_TEMP j 0 16)) else none

/-- The band taken at once after a reset (R544): the cluster's sensor; if it is faulted the highest valid Core junction
sensor; else B0. With no band to come from, the boundaries themselves divide. -/
def bandAtOnce (s : State) (n : Cluster) : Nat :=
  let x := match sensorTemp s n with
    | some x => some x
    | none => ([24, 25, 26, 27].filterMap (sensorTemp s)).max?
  match x with
  | none => 0
  | some x => (if 400 ≤ x then 1 else 0) + (if 720 ≤ x then 1 else 0) + (if 1040 ≤ x then 1 else 0) + (if 1360 ≤ x then 1 else 0)

/-- ACTIVE takes the band indicated at once; PEND, STALE and the age are 0 (R544). -/
def bandTake (n : Cluster) (b : Nat) (s : State) : State :=
  let s1 := ((s.setRf .CL_TIM_STAT n 1 3 b).setRf .CL_TIM_STAT n 4 3 b).setRf .CL_TIM_STAT n 7 2 0
  bandNote n (setBandRec n (some b, s.clasp) s1)

/-- The band that becomes active at the next idle cycle (R134, R138). -/
def bandNext (s : State) (n : Cluster) : Nat := (forcedBand s n).getD ((bandRec s n).1.getD (activeBand s n))

/-! ### Placing edges -/

/-- The edge word of timing set ts, channel c, edge e (R118, R119), as EN and OFFSET. -/
def edgeWord (s : State) (n : Cluster) (ts c e : Nat) : Word := s.reg .EDGE_TAB (n.val * 12288 + ts * 192 + c * 6 + e)

/-- The period of timing set ts in codes (R117). -/
def period (s : State) (n : Cluster) (ts : Nat) : Nat := s.rf .CL_TS_PER (n.val * 64 + ts) 0 29

/-- The classes of a state code (R121, R159): drive-level, non-driving, compare (masked one included). -/
def isDrive (code : Nat) : Bool := decide (code ≤ 2 ∨ code = 10)
def isNonDriving (code : Nat) : Bool := decide ((3 ≤ code ∧ code ≤ 7) ∨ code = 9)
def isSampled (code : Nat) : Bool := decide ((4 ≤ code ∧ code ≤ 7) ∨ code = 9)

/-- Whether the edges of a channel act in a vector: for edge e, EN and whether it is placed. -/
abbrev EdgeOn := Nat → Bool × Bool

/-- What edge D1 or D2 (`e` 1 or 2) does for its half's code, and whether an edge is missing there (R121, R122). -/
def dataEdge (on : EdgeOn) (e code : Nat) : Option EdgeAct × Bool :=
  if isDrive code then
    if (on e).1 then (if (on e).2 then some (.level code (!(on 0).1)) else none, false) else (none, true)
  else if isNonDriving code && !(on 3).1 then
    if (on e).1 then (if (on e).2 then some .off else none, false) else (none, decide (code = 3))
  else (none, false)

/-- What edge C1 or C2 (`e` 4 or 5) does for its half's code (R121, R122, R154). -/
def sampleEdge (on : EdgeOn) (hold : Bool) (e code : Nat) : Option EdgeAct × Bool :=
  if isSampled code && !hold then
    if (on e).1 then (if (on e).2 && decide (code ≠ 7) then some (.sample (e - 4) code) else none, false) else (none, true)
  else (none, false)

/-- A drive-level code has effect: its D edge is enabled and placed. -/
def driveActs (on : EdgeOn) (e code : Nat) : Bool := isDrive code && (on e).1 && (on e).2

/-- The actions of a channel's six edges for the codes of its halves, and whether an edge is missing. -/
def edgeActs (on : EdgeOn) (hold : Bool) (c1 c2 : Nat) : List (Nat × EdgeAct) × Bool :=
  let d1 := dataEdge on 1 c1
  let d2 := dataEdge on 2 c2
  let s1 := sampleEdge on hold 4 c1
  let s2 := sampleEdge on hold 5 c2
  let don := if (on 0).2 && (driveActs on 1 c1 || driveActs on 2 c2) then [(0, EdgeAct.on)] else []
  let dof := if (on 3).2 && (isNonDriving c1 || isNonDriving c2) then [(3, EdgeAct.off)] else []
  let one := fun (e : Nat) (x : Option EdgeAct) => match x with | some a => [(e, a)] | none => []
  (don ++ one 1 d1.1 ++ one 2 d2.1 ++ dof ++ one 4 s1.1 ++ one 5 s2.1, d1.2 || d2.2 || s1.2 || s2.2)

/-- What the placing of one channel adds: its pending edges, its last placements, and the flags EDGE_RANGE, EDGE_MISSING,
EDGE_CROWD, CODE_RSVD. -/
structure Placed where
  edges : List PEdge
  last : List (Nat × (Nat × Nat))
  range : Bool
  missing : Bool
  crowd : Bool
  rsvd : Bool
  deriving DecidableEq, Repr

/-- The ball time of edge e of channel c in the vector from T (R127), after R124. -/
def ballTime (last : List (Nat × (Nat × Nat))) (seqNo T fix o c e : Nat) : Nat × Bool :=
  let x := if e < 4 then T + o - fix else T + o + fix
  match last.find? fun p => decide (p.1 = 8 * c + e) with
  | some (_, (k, y)) => if k + 1 = seqNo ∧ x < y + 4096 then (y + 4096, true) else (x, false)
  | none => (x, false)

/-- The edges of channel c of a vector are placed (R119 to R124, R127, R159). -/
def placeChannel (s : State) (n : Cluster) (hold : Bool) (seqNo T ts : Nat) (x : Nano) (a : Placed) (c : Channel) :
    Placed :=
  let per := period s n ts
  let w := fun e => edgeWord s n ts c.val e
  let on : EdgeOn := fun e => (bitOf (w e) 31, bitOf (w e) 31 && decide (fld (w e) 0 29 < per))
  let code := fun h => let v := laneOf x c.val h; if 11 ≤ v then 8 else v
  let fix := (s.reg .FIX_TAB (chIx n c)).toNat % 16384
  let acts := edgeActs on hold (code 0) (code 1)
  let es := (List.range 6).filter fun e => (on e).2
  let pos := es.map fun e => (e, ballTime a.last seqNo T fix (fld (w e) 0 29) c.val e)
  let src := blankSrc s n c
  let new := pos.filterMap fun p =>
    match acts.1.find? fun q => decide (q.1 = p.1) with
    | some q => some (⟨c.val, p.1, p.2.1, seqNo, q.2⟩ : PEdge)
    | none => if src = p.1 + 1 ∧ p.1 < 4 then some ⟨c.val, p.1, p.2.1, seqNo, .blank⟩ else none
  { edges := a.edges ++ new,
    last := (pos.map fun p => (8 * c.val + p.1, (seqNo, p.2.1))) ++
      a.last.filter fun q => !(es.any fun e => decide (q.1 = 8 * c.val + e)),
    range := a.range || (List.range 6).any fun e => (on e).1 && !(on e).2,
    missing := a.missing || acts.2,
    crowd := a.crowd || pos.any fun p => p.2.2,
    rsvd := a.rsvd || decide (11 ≤ laneOf x c.val 0) || decide (11 ≤ laneOf x c.val 1) }

/-- The edges of a vector from T are placed on all 32 channels, and the flags set. -/
def placeVec (n : Cluster) (hold : Bool) (seqNo T ts : Nat) (x : Nano) (s : State) : State :=
  let q := s.seq n
  let p := (List.finRange 32).foldl (placeChannel s n hold seqNo T ts x) ⟨q.edges, q.lastPl, false, false, false, false⟩
  let s1 := s.setSeq n { q with edges := p.edges, lastPl := p.last }
  let s2 := s1.setReg .CL_TIM_EVT n (s1.reg .CL_TIM_EVT n ||| BitVec.ofNat 32 (b2n p.range + 2 * b2n p.missing + 4 * b2n p.crowd))
  if p.rsvd then s2.setRb .CL_STORE_EVT n 5 true else s2

/-! ### What an edge does -/

/-- The pattern path may drive the channel (R43, R160). -/
def patDrives (s : State) (n : Cluster) (c : Channel) : Bool := drvEn s n c && decide (nodeOf s n c = 1) && !fenced s n c

/-- The data level a drive-level code names, from the level last set (R159). -/
def codeLevel (code : Nat) (was : Lvl) : Lvl :=
  match code with
  | 0 => .vil
  | 1 => .vih
  | 2 => .vtt
  | _ => if was = .vil then .vih else .vil

/-- The result of a compare code as the comparators stand: 0 PASS, 1 FAIL, 2 FAIL_UNRESOLVED (R56, R57, R161). -/
def compareNow (s : State) (n : Cluster) (c : Channel) (code : Nat) : Nat :=
  let b := fun i => s.rb .CH_CMP_STAT (chIx n c) i
  let h := b 0
  let l := b 1
  let uh := b 2
  let ul := b 3
  match code with
  | 4 => if ul then 2 else b2n l
  | 5 => if uh then 2 else b2n (!h)
  | 6 => if uh || ul then 2 else b2n (!(l && !h))
  | _ => 3

/-- The vector with what channel c's half gave under a code: a capture code or a compare result (R161, R162). -/
def noteSample (s : State) (n : Cluster) (c : Channel) (half code : Nat) (v : Vec) : Vec :=
  let k := 2 * c.val + half
  if code = 9 then { v with caps := v.caps ++ [(k, s.rf .CH_CMP_STAT (chIx n c) 0 4)] }
  else { v with res := v.res ++ [(k, compareNow s n c code)] }

/-- An edge acts (R121, R64). -/
def edgeAct (n : Cluster) (c : Channel) (p : PEdge) (s : State) : State :=
  let s1 := match p.act with
    | .level code on => s.modChan n c fun x =>
        { x with lvl := codeLevel code x.lvl, drvOn := x.drvOn || (on && patDrives s n c) }
    | .off => s.modChan n c fun x => { x with drvOn := false }
    | .on => s.modChan n c fun x => { x with drvOn := x.drvOn || patDrives s n c }
    | .sample half code =>
      s.modSeq n fun q =>
        { q with infl := q.infl.map fun v => if v.seqNo = p.seqNo then noteSample s n c half code v else v }
    | .blank => s
  if p.e < 4 ∧ blankSrc s n c = p.e + 1 then openBlank n c s1 else s1

/-- The first pending edge of channel c that is edge e, if no drive edge of the channel comes before it (R123). -/
def edgeDue (s : State) (n : Cluster) (c e : Nat) : Option PEdge :=
  let mine := (s.seq n).edges.filter fun p => decide (p.c = c)
  match mine.find? fun p => decide (p.e = e) with
  | none => none
  | some p =>
    if p.at_ < (s.clasp + 1) * 512 &&
        !(mine.any fun x => (decide (x.e < 4 ∧ e < 4) || decide (x.e = e)) &&
          (decide (x.at_ < p.at_) || decide (x.at_ = p.at_ ∧ x.e < e))) then some p else none

end Sys2Proof.Machine
end

