-- ==== Sys2Proof/Machine/IssueOps.lean ====
section
/-! DEFINITION. Sys2Proof/Machine/IssueOps.lean: the issue stage (R170 to R192, R198 to R216): the zero-time steps of a
boundary, waits, stalls, bubbles, the handing-on of a vector, overrun and refusal. What takes effect at a vector boundary
T is put into the state when the vector is handed on, up to 128 ticks before T (notes/assumptions/15.md). -/

namespace Sys2Proof.Machine

/-! ### The steps of a boundary (R155, R200) -/

/-- The channel register that a WORD names (R155). -/
def stepReg (word : Nat) : Option Reg :=
  match word with
  | 0 => some .CH_CTRL
  | 2 => some .CH_LVL
  | 3 => some .CH_CMP
  | 5 => some .CH_BLANK
  | 16 => some .CH_PM_CTRL
  | 17 => some .CH_PM_FV
  | 18 => some .CH_PM_FI
  | 19 => some .CH_PM_ICLH
  | 20 => some .CH_PM_ICLL
  | 21 => some .CH_PM_VCLH
  | 22 => some .CH_PM_VCLL
  | 23 => some .CH_PM_APER
  | _ => none

/-- The selected channels; a fenced channel is skipped (R215, R310). -/
def stepChans (s : State) (n : Cluster) (sel : Word) : List Channel :=
  (List.finRange 32).filter fun c => bitOf sel c.val && !fenced s n c

/-- The channels whose measurement an MST starts: MMODE is not 0 and no measurement is in progress (R97, R155). -/
def mstChans (s : State) (n : Cluster) (sel : Word) : List Channel :=
  (stepChans s n sel).filter fun c => decide (mmodeOf s n c ≠ 0) && decide ((s.chan n c).meas = none)

/-- A measurement of an MST starts on the MEAS edge t0 (R94, R155). -/
def mstStart (n : Cluster) (r t0 : Nat) (inRtn : Bool) (c : Channel) (s : State) : State :=
  let k : MstTok := ⟨r, rangeOf s n c, mmodeOf s n c, inRtn⟩
  s.modChan n c fun x =>
    { x with grid := t0, meas := some (newMeas s (chIx n c) t0 (aperDelay s (chIx n c)) (some k)) }

/-- The channels a running routine has acted on (R205); an unwind's show in CL_MR_TOUCHED. -/
def touch (n : Cluster) (cs : List Channel) (s : State) : State :=
  let q := s.seq n
  match q.rtn with
  | none => s
  | some r =>
    let m := BitVec.ofNat 32 ((cs.map fun c => 2 ^ c.val).sum)
    let s1 := s.setSeq n { q with rtn := some { r with touched := r.touched ||| m } }
    if q.unwind then s1.setReg .CL_MR_TOUCHED n (s1.reg .CL_MR_TOUCHED n ||| m) else s1

/-- One step takes effect. -/
def applyStep (n : Cluster) (x : StepEff) (s : State) : State :=
  match x with
  | .wri word value mask sel =>
    let cs := stepChans s n sel
    match stepReg word with
    | some r => touch n cs (cs.foldl (fun s c => chanWrite true r n c value mask s) s)
    | none => s
  | .mst r sel =>
    let cs := mstChans s n sel
    let t0 := nextMeas ((s.seq n).tNext / 512)
    touch n cs (cs.foldl (fun s' c => mstStart n r t0 (s.seq n).rtn.isSome c s') s)

/-- The steps of a boundary take effect in order. -/
def applySteps (n : Cluster) (xs : List StepEff) (s : State) : State := xs.foldl (fun s x => applyStep n x s) s

/-- CH_PM_CTRL.REF of the channel names a generator that is not routed to it (R284). -/
def refConflict (s : State) (n : Cluster) (c : Channel) : Option (Fin 2) :=
  match refOf s n c with
  | some g => if awgDest s n g = 1 ∧ awgCh s n g = c.val then none else some g
  | none => none

/-- A WRI or WRN step, judged on the state it would leave (R155, R215): the code of its refusal, 10 for R30 and R284, 11 for
R105, and the lowest selected channel that fails. -/
def judgeStep (s s' : State) (n : Cluster) (sel : Word) : Option (Nat × Channel) :=
  let cs := stepChans s n sel
  match cs.find? fun c => nodeConflict s' n c || (refConflict s' n c).isSome with
  | some c => some (10, c)
  | none =>
    if overBudget s s' n then
      match cs.find? fun c => decide ((claimOf s n c).1 < (claimOf s' n c).1 ∨ (claimOf s n c).2 < (claimOf s' n c).2) with
      | some c => some (11, c)
      | none => none
    else none

/-! ### Flags and machine checks -/

/-- CL_SEQ_RES flag b is set. -/
def resFlag (n : Cluster) (b : Nat) (s : State) : State := s.setRb .CL_SEQ_RES n b true
/-- CL_SEQ_EVT bit b is set. -/
def seqEvt (n : Cluster) (b : Nat) (s : State) : State := s.setRb .CL_SEQ_EVT n b true
/-- A 32-bit count of the sequencer, saturating. -/
def seqCount (r : Reg) (n : Cluster) (s : State) : State := s.count r n 32

/-- A machine check (R164): flags, first record, count, fault message. `micro` and `nano` say which failed; the record and
the Address name `store` and `idx`. -/
def machineCheck (n : Cluster) (micro nano : Bool) (store idx : Nat) (s : State) : State :=
  let first := !s.rb .CL_STORE_EVT n 0 && !s.rb .CL_STORE_EVT n 1
  let s1 := if micro then s.setRb .CL_STORE_EVT n 0 true else s
  let s2 := if nano then s1.setRb .CL_STORE_EVT n 1 true else s1
  let s3 := if first then s2.setReg .CL_STORE_PAR_ADDR n (BitVec.ofNat 32 (2 ^ 31 + store * 2 ^ 28 + idx)) else s2
  (s3.count .CL_STORE_PAR_CNT n 16).send (srcOf n 34) 1 1 (store * 2 ^ 28 + idx)

/-- The nano-word that a bad microword names as a vector, if its parity is wrong too (R164). -/
def nanoToo (s : State) (n : Cluster) (p : PAddr) : Bool :=
  match decodeMicro (fetchWord s n p).1 with
  | some (.vec i _ _) | some (.mvec i _ _) => (readNano s n p.lib i.toNat).2
  | _ => false

/-! ### Handing a vector on -/

/-- The outcome of looking at the boundary tNext: over, a vector handed on or the pattern ended; an interruption to be taken
here; a stall that ends here; a conditional to be decided first. -/
inductive Issue where
  | done (s : State)
  | marked (s : State)
  | resumes (s : State)
  | awaits (s : State)

/-- The longest span in codes: 39,872 ticks (R201). -/
def spanMax : Nat := 39872 * 512

/-- The routine overruns at the start of the vector not committed (R214). -/
def overrun (n : Cluster) (s : State) : State :=
  match (s.seq n).rtn with
  | none => s
  | some r =>
    let s1 := forceCluster n (saveCtx n false false 7 4 s)
    let s2 := (endSeq n 12 0 s1).setRb .CL_MR_EVT n 1 true
    (s2.modSeq n fun q => { q with unwind := false }).send (srcOf n 36) 6 1 (r.id % 65536 + r.step % 65536 * 65536)

/-- A refused step (R215): recorded; outside an unwind the context is saved, and the unwind follows the end. -/
def refuseStep (n : Cluster) (word code : Nat) (c : Channel) (s : State) : State :=
  let s1 := (s.setReg .CL_MR_REFUSE n (BitVec.ofNat 32 (2 ^ 31 + 256 * word + c.val))).setRb .CL_MR_EVT n 2 true
  let s2 := if (s1.seq n).unwind then s1 else saveCtx n false false (code - 2) 0 s1
  endSeq n code 0 s2

/-- The vector of nano-word x with timing set ts is handed on (R114, R170, R183): the boundary's steps take effect, its
edges are placed, it is in flight. -/
def commitVec (n : Cluster) (kind : VKind) (src : PAddr) (x : Nano) (ts : Nat) (cond : Word) (ep : Nat) (last : Bool)
    (s0 : State) : State :=
  let s1 := (applySteps n (s0.seq n).steps s0).modSeq n fun q => { q with steps := [] }
  let s2 := if s1.rb .CL_TIM_STAT n 8 then resFlag n 20 s1 else s1
  let q := s2.seq n
  let T := q.tNext
  let E := T + period s2 n ts
  let s3 := placeVec n (decide (kind = .hold)) q.seqNo T ts x s2
  let num := s3.pair .CL_SEQ_VCNT_LO .CL_SEQ_VCNT_HI n
  let cap := (List.range 32).any fun c => decide (laneOf x c 0 = 9) || decide (laneOf x c 1 = 9)
  let v : Vec := { seqNo := q.seqNo, num, kind, src, start := T, stop := E, cond, ep, last, inRtn := q.rtn.isSome,
                   hasCap := cap && decide (kind ≠ .hold), res := [], caps := [] }
  let s4 := s3.modSeq n fun q =>
    { q with seqNo := q.seqNo + 1, tNext := E, lastEnd := E, infl := q.infl ++ [v],
             rtn := q.rtn.map fun r => { r with fresh := false } }
  let s5 := if q.seqNo = 0 then s4.trigEvent n (.patStart q.t0) else s4
  if kind = .hold then s5
  else
    ((s5.setPair .CL_SEQ_VCNT_LO .CL_SEQ_VCNT_HI n ((num + 1) % 2 ^ 48)).setReg .CL_SEQ_PC n (paddrWord src)).trigEvent n
      (.vector num (T / 512))

/-- The span permits a vector of period per at tNext (R201, R202). -/
def spanOk (s : State) (n : Cluster) (parked : Bool) (per : Nat) : Bool :=
  match (s.seq n).rtn with
  | none => true
  | some r => if parked then decide (per ≤ spanMax) else decide ((s.seq n).tNext + per - r.span ≤ spanMax)

/-- How many pages a mask names. -/
def pageCount (pages : Nat) : Nat := ((List.range 16).filter fun p => pages / 2 ^ p % 2 = 1).length

/-- The k-th set bit of a page mask. -/
def pageOf (pages k : Nat) : Nat := ((List.range 16).filter fun p => pages / 2 ^ p % 2 = 1).getD k 0

/-- The page of user nano-word i is being rewritten: the Hopper's load in hand has begun the page and not ended it (R188). -/
def pageTorn (s : State) (n : Cluster) (i : Nat) : Bool :=
  match (s.hop n).load with
  | some l => decide (l.ndone < 256 * pageCount l.pages ∧ l.ndone % 256 ≠ 0 ∧ pageOf l.pages (l.ndone / 256) = i % 4096 / 256)
  | none => false

/-- The nano-word that a vector issues: what the store holds, or a free value while its page is being rewritten (R189,
notes/assumptions/3.md). -/
def issueNano (s : State) (n : Cluster) (lib : Bool) (i : Nat) : Nano × Bool :=
  let x := readNano s n lib i
  if !lib && pageTorn s n i then (Config.rewritten n.val i (s.seq n).seqNo, x.2) else x

/-- A hold vector is handed on (R154), unless its nano-word's parity is wrong (R164) or the routine overruns. -/
def issueHold (n : Cluster) (parked : Bool) (s : State) : State :=
  let q := s.seq n
  let h := q.hold
  let x := match h.nano with | none => (keepNano, false) | some p => issueNano s n p.1 p.2
  if x.2 then endSeq n 4 0 (machineCheck n false true 1 (match h.nano with | some p => p.2 | none => 0) s)
  else if !spanOk s n parked (period s n h.ts) then overrun n s
  else commitVec n .hold q.fe.pc x.1 h.ts 0#32 0 false s

/-- The first entry of the queue is taken off. -/
def popQ (n : Cluster) (s : State) : State := s.modSeq n fun q => { q with q := q.q.tail }

/-- A vector entry is handed on (R164, R170). -/
def issueVec (n : Cluster) (src : PAddr) (nano ts left : Nat) (match_ : Bool) (cond : Word) (ep : Nat)
    (s : State) : State :=
  let x := issueNano s n src.lib nano
  if x.2 then endSeq n 4 0 (machineCheck n false true 1 nano s)
  else if !spanOk s n false (period s n ts) then overrun n s
  else
    let s1 := s.modSeq n fun q =>
      { q with q := if left ≤ 1 then q.q.tail else .vec src nano ts (left - 1) match_ cond ep :: q.q.tail }
    commitVec n (if match_ then .mvec else .vec) src x.1 ts cond ep (decide (left ≤ 1)) s1

/-! ### Waits (R152, R153, R155, R176, R177) -/

/-- Whether the wait at the head of the queue is over at tNext, and the match flag it sets. `trial` is the state with the
boundary's steps in effect. -/
def waitOver (s trial : State) (n : Cluster) (e : QEntry) (w : Wait) : Bool × Option Bool :=
  let q := s.seq n
  match e with
  | .wtrig _ units timeout =>
    if units = 0 then (decide (timeout ≤ w.issued), some false)
    else if (match w.fired with | some f => decide ((f + 128) * 512 ≤ q.tNext) | none => false) then (true, some true)
    else (decide (timeout ≠ 0 ∧ timeout ≤ w.issued), some false)
  | .wct _ v rel =>
    let target := (v + (if rel then q.t0 else 0)) * 512
    (decide (target ≤ q.tNext), some (decide (0 < w.issued) || decide (q.tNext = target)))
  | .hold _ k =>
    if k ≠ 0 then (decide (k ≤ w.issued), none)
    else ((match q.release with
      | some r => decide (w.start ≤ r + 128 ∧ (r + 128) * 512 ≤ q.tNext ∧ 0 < w.issued)
      | none => false), none)
  | .mst _ _ sel => (decide ((mstChans trial n sel).length ≤ 128 - tokensUsed trial n), none)
  | .mwait _ => (decide (tokensUsed trial n = 0), none)
  | _ => (true, none)

/-- The wait is over: the match flag, the end of a parked wait's span (R202), STATE; the entry leaves the queue. -/
def waitEnd (n : Cluster) (w : Wait) (m : Option Bool) (s : State) : State :=
  let s1 := if seqState s n = 3 then setSeqState n 2 s else s
  s1.modSeq n fun q =>
    { q with wait := none, q := q.q.tail,
             fMatch := m.getD q.fMatch, matchNo := if m.isSome then q.seqNo else q.matchNo,
             rtn := if w.parked && decide (0 < w.issued) then q.rtn.map fun r => { r with span := q.tNext } else q.rtn }

/-- The wait goes on with a hold vector; a HOLD with COUNT 0 shows WAIT (R177). -/
def waitOn (n : Cluster) (e : QEntry) (w : Wait) (s : State) : State :=
  let s1 := s.modSeq n fun q => { q with wait := some { w with issued := w.issued + 1 } }
  let s2 := match e with
    | .hold _ 0 => if w.issued = 0 then seqEvt n 4 (setSeqState n 3 s1) else s1
    | _ => s1
  issueHold n w.parked s2

/-! ### Stalls (R190, R191) -/

/-- The fills, closings and FINAL as the issue stage sees them, 16 ticks after the Hopper's writes (R171). -/
def hopSeen (s : State) (n : Cluster) : Hop × Bool :=
  let h := s.hop n
  if h.seenAt ≠ 0 ∧ s.clasp < h.seenAt + 16 then
    ({ h with fill0 := h.old0, fill1 := h.old1, closed0 := h.oldC0, closed1 := h.oldC1 }, h.oldF)
  else (h, s.rb .CL_HOP_STAT n 18)

/-- The judgement of R190 at the stall point whose word is p: the pattern may not go on. -/
def mustStall (s : State) (n : Cluster) (p : PAddr) : Bool :=
  let v := hopSeen s n
  decide (refillLevel v.1 p.a < s.rf .CL_HOP_LVL n 0 16) && !fillClosed v.1 && !v.2

/-- The stall at p may end (R191). -/
def mayResume (s : State) (n : Cluster) (p : PAddr) : Bool :=
  let v := hopSeen s n
  decide (s.rf .CL_HOP_LVL n 16 16 ≤ refillLevel v.1 p.a) || fillClosed v.1 || v.2

/-- A stall begins (R191): STATE, count, flags, the first hold vector. -/
def stallStart (n : Cluster) (s : State) : State :=
  let s1 := seqEvt n 1 (resFlag n 18 (seqCount .CL_SEQ_STALLS n (setSeqState n 4 s)))
  issueHold n false (seqCount .CL_SEQ_HOLDV n (s1.modSeq n fun q => { q with stalled := true }))

/-! ### The boundary -/

/-- The front end stands at a conditional that is decided before the vector from tNext (R174). -/
def awaitsCond (s : State) (n : Cluster) : Bool :=
  decide (s.clasp + 128 = (s.seq n).tNext / 512) &&
  (match feWord s n with
    | some m => microLegal s (s.seq n).fe (s.seq n).fe.pc m &&
        (match m with | .jm .. | .jnm .. | .jf .. | .jnf .. => true | _ => false)
    | none => false)

/-- The queue is empty (R173, R192): a miss, a bubble, or the end of a no-stall load. -/
def issueNothing (n : Cluster) (s : State) : State :=
  let p := (s.seq n).fe.pc
  if !feReady s n then (endSeq n 5 0 (resFlag n 22 s)).setRb .CL_HOP_EVT n 1 true
  else if !p.lib && (s.microAt n p.a).nostall then endSeq n 6 0 s
  else issueHold n false (seqEvt n 2 (resFlag n 19 (seqCount .CL_SEQ_BUBBLES n s)))

/-- An RMARK takes its boundary (R200, R202). -/
def takeMark (n : Cluster) (step : Nat) (fe : FE) (s : State) : State :=
  s.modSeq n fun q =>
    if q.unwind then q
    else { q with rtn := q.rtn.map fun r => { r with step, mark := fe, span := q.tNext, fresh := true, byMark := true } }

/-- The zero-time words from here up to the next vector hold another RMARK (the later one gives the step). -/
def markAhead : List QEntry → Bool
  | [] => false
  | .rmark .. :: _ => true
  | .rret _ :: _ => false
  | e :: r => if e.counts || e.stalls then false else markAhead r

/-- The entries of the queue are taken in order, up to `fuel` of them, until a vector is handed on, the pattern ends, or one
of the other outcomes is met. `intr`: an interruption waits for a mark or exit boundary here (R203). -/
def issueLoop (n : Cluster) (intr : Bool) : Nat → State → Issue
  | 0, s => .done s
  | fuel + 1, s =>
    let q := s.seq n
    match q.q with
    | [] => if awaitsCond s n then .awaits s else .done (issueNothing n s)
    | e :: _ =>
      let popped := popQ n s
      match e with
      | .vec src nano ts left m cond ep => .done (issueVec n src nano ts left m cond ep s)
      | .hset h => issueLoop n intr fuel (popped.modSeq n fun q => { q with hold := h })
      | .rret h =>
        let s1 := popped.modSeq n fun q => { q with hold := h, rtn := none }
        if intr then .done (endSeq n 2 0 s1) else issueLoop n intr fuel s1
      | .rbeg id fe =>
        issueLoop n intr fuel (popped.modSeq n fun q =>
          { q with rtn := some { id, span := q.tNext, step := 0, mark := fe, touched := 0#32, uaddr := none, fresh := false,
                                 byMark := false } })
      | .rmark step fe =>
        let s1 := takeMark n step fe popped
        if intr && !markAhead q.q.tail then .marked s1 else issueLoop n intr fuel s1
      | .runw a => issueLoop n intr fuel (popped.modSeq n fun q => { q with rtn := q.rtn.map fun r => { r with uaddr := some a } })
      | .wri word value mask sel =>
        let x : StepEff := .wri word value mask sel
        let before := applySteps n q.steps s
        match judgeStep before (applyStep n x before) n sel with
        | some (code, c) => .done (refuseStep n word code c s)
        | none => issueLoop n intr fuel (popped.modSeq n fun q => { q with steps := q.steps ++ [x] })
      | .stallPoint p =>
        if (s.hop n).err then .done (endSeq n 5 0 s)
        else if q.stalled then
          (if mayResume s n p then .resumes (popped.modSeq n fun q => { q with stalled := false })
           else .done (issueHold n false (seqCount .CL_SEQ_HOLDV n s)))
        else if mustStall s n p then
          (if !p.lib && (s.microAt n p.a).nostall && hopReady (s.hop n) p.a then .done (endSeq n 5 0 s)
           else .done (stallStart n s))
        else issueLoop n intr fuel popped
      | .stop code => .done (endSeq n 1 code s)
      | .illegal a =>
        let s1 := (s.setReg .CL_STORE_ILL_ADDR n (BitVec.ofNat 32 (2 ^ 31) ||| paddrWord a)).setRb .CL_STORE_EVT n 6 true
        .done (endSeq n 3 0 s1)
      | .badParity a nano =>
        (match nano with
          | some i => .done (endSeq n 4 0 (machineCheck n false true 1 i s))
          | none => .done (endSeq n 4 0 (machineCheck n true (nanoToo s n a) 0 a.a s)))
      | .mst _ r sel =>
        let w := q.wait.getD ⟨q.tNext / 512, 0, !q.unwind && (match q.rtn with | some r => r.fresh | none => false), none⟩
        let o := waitOver s (applySteps n q.steps s) n e w
        if o.1 then issueLoop n intr fuel ((waitEnd n w o.2 s).modSeq n fun q => { q with steps := q.steps ++ [.mst r sel] })
        else .done (waitOn n e w s)
      | .wtrig .. | .wct .. | .hold .. | .mwait .. =>
        let w := q.wait.getD ⟨q.tNext / 512, 0, !q.unwind && (match q.rtn with | some r => r.fresh | none => false), none⟩
        let o := waitOver s (applySteps n q.steps s) n e w
        if o.1 then issueLoop n intr fuel (waitEnd n w o.2 s) else .done (waitOn n e w s)

/-- An interruption or ABORT has reached the issue stage in time for the boundary tNext (R176, R203). -/
def abortDue (s : State) (n : Cluster) : Option Nat :=
  match (s.seq n).abort with
  | some (r, cause) => if (r + 128) * 512 ≤ (s.seq n).tNext then some cause else none
  | none => none

/-- A parked wait is in progress. -/
def inParked (s : State) (n : Cluster) : Bool :=
  match (s.seq n).wait with | some w => w.parked && decide (0 < w.issued) | none => false

/-- The issue stage looks at the boundary tNext. -/
def issueAt (n : Cluster) (s : State) : Issue :=
  let q := s.seq n
  match abortDue s n with
  | some _ =>
    if q.rtn.isNone then .done (endSeq n 2 0 s)
    else if inParked s n then .marked s
    else issueLoop n true (q.q.length + 1) s
  | none => issueLoop n false (q.q.length + 1) s

/-- The issue stage has something to do: the sequencer is not idle, the pattern is not over, and it is 128 ticks before
the start of the next vector, or later. -/
def issueDue (s : State) (n : Cluster) : Bool :=
  !seqIdle s n && decide ((s.seq n).ending = none) && decide ((s.seq n).tNext < (s.clasp + 129) * 512)

end Sys2Proof.Machine
end

