-- ==== Sys2Proof/Machine/TrigOps.lean ====
section
/-! DEFINITION. Sys2Proof/Machine/TrigOps.lean: trigger conditions, arming and records (R251 to R269). -/

namespace Sys2Proof.Machine

/-- The index of unit u of cluster n in its registers. -/
def trgIx (n : Cluster) (u : Nat) : Nat := n.val * 8 + u % 8

/-- Unit u's record, and the record set. -/
def tunit (t : Trig) (u : Nat) : TUnit := tabGet { } t.units u
def setTunit (t : Trig) (u : Nat) (v : TUnit) : Trig := { t with units := tabSet { } t.units u v }

/-- CL_TRG_CFG as it acts. -/
def trgEn (s : State) (n : Cluster) (u : Nat) : Bool := s.rb .CL_TRG_CFG (trgIx n u) 0
def trgCond (s : State) (n : Cluster) (u : Nat) : Nat := s.rf .CL_TRG_CFG (trgIx n u) 1 3
def trgRel (s : State) (n : Cluster) (u : Nat) : Nat := s.rf .CL_TRG_CFG (trgIx n u) 4 2
def trgPol (s : State) (n : Cluster) (u : Nat) : Nat := min 2 (s.rf .CL_TRG_CFG (trgIx n u) 6 2)
def trgKind (s : State) (n : Cluster) (u : Nat) : Nat := s.rf .CL_TRG_SRC (trgIx n u) 30 2
def trgCh (s : State) (n : Cluster) (u : Nat) : Nat := s.rf .CL_TRG_SRC (trgIx n u) 0 5
def trgLow (s : State) (n : Cluster) (u : Nat) : Bool := s.rb .CL_TRG_SRC (trgIx n u) 5
def trgSel (s : State) (n : Cluster) (u : Nat) : Nat := s.rf .CL_TRG_SRC (trgIx n u) 8 3
def trgAuto (s : State) (n : Cluster) (u : Nat) : Bool := s.rb .CL_TRG_CFG (trgIx n u) 22

/-- The configuration error of R261: a condition that does not permit its source kind (R254), an AND partner at or above
u, a sequencer SEL of 5 to 7. -/
def trgCfgErr (s : State) (n : Cluster) (u : Nat) : Bool :=
  let k := trgKind s n u
  match trgCond s n u with
  | 0 | 4 => decide (k = 2 ∧ 5 ≤ trgSel s n u)
  | 1 => decide (2 ≤ k)
  | 2 | 3 | 5 => decide (k ≠ 0)
  | 6 => false
  | _ => decide (u ≤ s.rf .CL_TRG_CFG (trgIx n u) 16 3) || decide (u ≤ s.rf .CL_TRG_CFG (trgIx n u) 19 3)

/-- The masked outputs match (R259): none of the selected comparators is UNRESOLVED. -/
def matchNow (s : State) (n : Cluster) (u : Nat) (outH outL : Word) : Bool :=
  let ix := trgIx n u
  let mh := s.reg .CL_TRG_MMASK_H ix
  let ml := s.reg .CL_TRG_MMASK_L ix
  let anyUnres := (List.finRange 32).any fun c =>
    (bitOf mh c.val && s.rb .CH_CMP_STAT (chIx n c) 2) || (bitOf ml c.val && s.rb .CH_CMP_STAT (chIx n c) 3)
  !anyUnres && decide ((outH ^^^ s.reg .CL_TRG_MVAL_H ix) &&& mh = 0#32) &&
    decide ((outL ^^^ s.reg .CL_TRG_MVAL_L ix) &&& ml = 0#32)

/-- The level of the unit's source as it stands: the match, the converter's latest sample, the comparator's output. -/
def trgHighNow (s : State) (n : Cluster) (u : Nat) : Bool :=
  let t := s.trig n
  if trgCond s n u = 6 then matchNow s n u t.outH t.outL
  else if trgKind s n u = 1 then
    let w := s.reg .CH_PM_SAMPLE (n.val * 32 + trgCh s n u)
    bitOf w 31 && decide (signed 18 (s.rf .CL_TRG_SRC (trgIx n u) 12 18) ≤ signed 18 (fld w 0 18))
  else bitOf (if trgLow s n u then t.outL else t.outH) (trgCh s n u)

/-- A unit's configuration has been written: an enabled unit drops what it tracked, and its timer restarts (R261); EN
becoming 1 starts afresh, so the first firing carries 0xFFFF_FFFF (R265). -/
def trgReconfig (n : Cluster) (u : Nat) (newly : Bool) (s : State) : State :=
  let err := trgEn s n u && trgCfgErr s n u
  let s1 := s.setRb .CL_TRG_USTAT (trgIx n u) 2 err
  let s2 := if err then s1.setRb .CL_TRG_EVT n (8 + u) true else s1
  let t := s2.trig n
  let v := tunit t u
  s2.setTrig n (setTunit t u
    { v with opening := none, since := if trgCond s n u = 4 then some s.clasp else none, qual := none,
             high := trgHighNow s n u,
             fired := if newly then none else v.fired, rearmed := if newly then none else v.rearmed })

/-- The event time of an event. -/
def TrigEvt.time : TrigEvt → Nat
  | .edge _ _ _ e | .level _ _ _ e | .sample _ _ e | .fail _ e | .patStart e | .patEnd e | .vector _ e | .ring _ e => e

/-- REL of MEAS (R255). -/
def relOk (s : State) (n : Cluster) (u m : Nat) : Bool :=
  let a := (s.reg .CL_TRG_LIMA (trgIx n u)).toNat
  let b := (s.reg .CL_TRG_LIMB (trgIx n u)).toNat
  match trgRel s n u with
  | 0 => true
  | 1 => decide (m < a)
  | 2 => decide (a < m)
  | _ => decide (a ≤ m ∧ m ≤ b)

/-- A qualification: event time, MEAS, polarity bit of R269 (0 rising, high, positive, entering). -/
abbrev Qual := Nat × (Nat × Bool)

/-- Polarity: `up` is selected by POL. -/
def polOk (pol : Nat) (up : Bool) : Bool := decide (pol = 2) || decide (pol = b2n (!up))

/-- What unit u makes of one event of its source, for the conditions that follow edges (R254, R257, R258): the source event
of EDGE and TIMEOUT with its direction, if the event is one. -/
def sourceEvent (s : State) (n : Cluster) (u : Nat) (v : TUnit) (x : TrigEvt) : Option (Bool × Bool) :=
  -- (up, polarity matters)
  match trgKind s n u, x with
  | 0, .edge c low up _ => if c = trgCh s n u ∧ low = trgLow s n u then some (up, true) else none
  | 1, .sample c y _ =>
    let hi := decide (signed 18 (s.rf .CL_TRG_SRC (trgIx n u) 12 18) ≤ y)
    if c = trgCh s n u ∧ hi ≠ v.high then some (hi, true) else none
  | 2, .fail m _ =>
    if (trgSel s n u = 0 ∧ bitOf m (trgCh s n u)) ∨ (trgSel s n u = 1 ∧ m ≠ 0#32) then some (true, false) else none
  | 2, .patStart _ => if trgSel s n u = 2 then some (true, false) else none
  | 2, .patEnd _ => if trgSel s n u = 3 then some (true, false) else none
  | 2, .vector k _ => if trgSel s n u = 4 ∧ k = (s.reg .CL_TRG_LIMA (trgIx n u)).toNat then some (true, false) else none
  | 3, .ring l _ => if l = trgSel s n u then some (true, true) else none
  | _, _ => none

/-- One event, seen by unit u: its tracking, and a qualification if the event makes one (R254 to R259). -/
def unitEvent (s : State) (n : Cluster) (u : Nat) (t : Trig) (v : TUnit) (x : TrigEvt) : TUnit × Option Qual :=
  let pol := trgPol s n u
  let e := x.time
  match trgCond s n u with
  | 0 =>
    match sourceEvent s n u v x with
    | some (up, p) => ({ v with high := up }, if !p || polOk pol up then some (e, (0, !up)) else none)
    | none => (v, none)
  | 1 =>
    match x with
    | .sample c y _ =>
      if trgKind s n u = 1 ∧ c = trgCh s n u then
        ({ v with high := decide (signed 18 (s.rf .CL_TRG_SRC (trgIx n u) 12 18) ≤ y), since := some e }, none)
      else (v, none)
    | .edge c low up _ | .level c low up _ =>
      if trgKind s n u = 0 ∧ c = trgCh s n u ∧ low = trgLow s n u then ({ v with high := up, since := some e }, none)
      else (v, none)
    | _ => (v, none)
  | 2 =>
    match x with
    | .edge c low up _ =>
      if c = trgCh s n u ∧ low = trgLow s n u then
        -- the pulse whose opening edge had the other direction closes; this edge opens the next
        ({ v with opening := some (e, up) },
          match v.opening with
          | some (e1, up1) => if up1 ≠ up ∧ polOk pol up1 ∧ relOk s n u (e - e1) then some (e, (e - e1, !up1)) else none
          | none => none)
      else (v, none)
    | _ => (v, none)
  | 3 =>
    match x with
    | .edge c low up _ =>
      if c ≠ trgCh s n u then (v, none)
      else if low && up then ({ v with opening := some (e, true) }, none)
      else if !low && !up then ({ v with opening := some (e, false) }, none)
      else
        match v.opening with
        | some (e1, true) =>
          if low && !up then
            ({ v with opening := none }, if polOk pol true ∧ relOk s n u (e - e1) then some (e, (e - e1, false)) else none)
          else ({ v with opening := none }, none)
        | some (e1, false) =>
          if !low && up then
            ({ v with opening := none }, if polOk pol false ∧ relOk s n u (e - e1) then some (e, (e - e1, true)) else none)
          else ({ v with opening := none }, none)
        | none => (v, none)
    | _ => (v, none)
  | 4 =>
    match sourceEvent s n u v x with
    | some (up, p) =>
      if !p || polOk pol up then
        ({ v with since := some e, high := up },
          match v.since with
          | some e0 =>
            let a := (s.reg .CL_TRG_LIMA (trgIx n u)).toNat
            -- the timeout ran out in this sample, before the event
            if e / 8 * 8 ≤ e0 + a ∧ e0 + a ≤ e then some (e0 + a, (a, false)) else none
          | none => none)
      else ({ v with high := up }, none)
    | none => (v, none)
  | 5 =>
    match x with
    | .edge c low up _ =>
      if c ≠ trgCh s n u then (v, none)
      else if low && up then ({ v with opening := some (e, true) }, none)
      else if !low && !up then ({ v with opening := some (e, false) }, none)
      else
        match v.opening with
        | some (e1, true) =>
          ({ v with opening := none },
            if !low && up && polOk pol true && relOk s n u (e - e1) then some (e, (e - e1, false)) else none)
        | some (e1, false) =>
          ({ v with opening := none },
            if low && !up && polOk pol false && relOk s n u (e - e1) then some (e, (e - e1, true)) else none)
        | none => (v, none)
    | _ => (v, none)
  | 6 =>
    -- the outputs in t already hold this event's change
    let m := matchNow s n u t.outH t.outL
    ({ v with high := m }, if m ≠ v.high ∧ polOk pol m then some (e, (0, !m)) else none)
  | _ => (v, none)

/-- The comparators' outputs after an event. -/
def trigOutputs (t : Trig) : TrigEvt → Trig
  | .edge c low up _ | .level c low up _ =>
    if low then { t with outL := putBit t.outL c up } else { t with outH := putBit t.outH c up }
  | _ => t

/-- The events of a sample, in order, seen by unit u: tracking and the first qualification. `t` holds the outputs before
the sample. -/
def unitEvents (s : State) (n : Cluster) (u : Nat) : Trig → TUnit → List TrigEvt → TUnit × Option Qual
  | _, v, [] => (v, none)
  | t, v, x :: r =>
    let t' := trigOutputs t x
    let p := unitEvent s n u t' v x
    let q := unitEvents s n u t' p.1 r
    (q.1, match p.2 with | some y => some y | none => q.2)

/-- The qualification of unit u in sample j beyond the events' own: a held level (R254), a timeout that runs out (R254), an
AND of two feeders (R260). `tr` holds the feeders' records, already brought up to this sample. -/
def unitSample (s : State) (n : Cluster) (u j : Nat) (tr : Trig) (v : TUnit) (q : Option Qual) : TUnit × Option Qual :=
  match trgCond s n u with
  | 1 =>
    let want := decide (trgPol s n u ≠ 1)
    -- R62: no unit fires from an UNRESOLVED comparator
    let blind := decide (trgKind s n u = 0) && s.rb .CH_CMP_STAT (n.val * 32 + trgCh s n u) (if trgLow s n u then 3 else 2)
    if v.high = want ∧ !blind then
      (v, some ((match v.since with | some e => max e (8 * j) | none => 8 * j), (0, !want)))
    else (v, none)
  | 4 =>
    match v.since with
    | some e0 =>
      let a := (s.reg .CL_TRG_LIMA (trgIx n u)).toNat
      if 8 * j ≤ e0 + a ∧ e0 + a < 8 * j + 8 then ({ v with since := none }, some (e0 + a, (a, false))) else (v, none)
    | none => (v, none)
  | 7 =>
    let a := s.rf .CL_TRG_CFG (trgIx n u) 16 3
    let b := s.rf .CL_TRG_CFG (trgIx n u) 19 3
    let win := max 1 (s.rf .CL_TRG_CFG (trgIx n u) 8 8)
    match (tunit tr a).qual, (tunit tr b).qual with
    | some ea, some eb =>
      let usedA := decide (v.since = some ea)
      let usedB := match v.opening with | some (x, _) => decide (x = eb) | none => false
      if max (ea / 8) (eb / 8) = j ∧ j ≤ min (ea / 8) (eb / 8) + (win - 1) ∧ !usedA ∧ !usedB then
        ({ v with since := some ea, opening := some (eb, true) }, some (max ea eb, (max ea eb - min ea eb, false)))
      else (v, none)
    | _, _ => (v, none)
  | _ => (v, q)

/-! ### Arming (R262, R263) -/

/-- The arming of unit u changes with the sample `from_` (R262). CL_TRG_USTAT shows it at once. -/
def trgArm (n : Cluster) (u : Nat) (on : Bool) (from_ : Nat) (s : State) : State :=
  let t := s.trig n
  let v := tunit t u
  (s.setTrig n (setTunit t u { v with changes := v.changes ++ [(from_, on)] })).setRf .CL_TRG_USTAT (trgIx n u) 0 2 (b2n on)

/-- A write to CL_TRG_CTRL: ARM or DISARM, of which DISARM stands (R262, R276). -/
def trgCtrl (n : Cluster) (u : Nat) (arm disarm : Bool) (s : State) : State :=
  if disarm then trgArm n u false (s.clasp / 8 + 1) s
  else if arm then trgArm n u true (s.clasp / 8 + 1) s
  else s

/-- The changes of unit u due by sample j act; an arming restarts a timeout (R254). -/
def armDue (s : State) (n : Cluster) (u j : Nat) (v : TUnit) : TUnit :=
  v.changes.foldl
    (fun w ch =>
      if ch.1 ≤ j then
        { w with armed := ch.2, rearmed := if ch.2 && !w.armed && w.rearmed.isNone then some (8 * ch.1) else w.rearmed,
                 since := if ch.2 && !w.armed && decide (trgCond s n u = 4) then some (8 * ch.1) else w.since }
      else { w with changes := w.changes ++ [ch] })
    { v with changes := [] }

/-- The record queue is full (R264): the units do not fire. -/
def trgFull (t : Trig) : Bool := decide (32 ≤ t.queue.length)

/-- The start of the sample with which a unit that fired in the sample starting at `fired` is armed again (R263): a whole
sample, past the hold-off, evaluated with room in the queue. -/
def rearmStart (s : State) (n : Cluster) (u fired : Nat) : Nat :=
  let a := (fired + 8 + (s.reg .CL_TRG_HOLDOFF (trgIx n u)).toNat + 7) / 8 * 8
  max a (((s.trig n).roomAt - 112 + 7) / 8 * 8)

/-- Unit u waits to re-arm (CL_TRG_USTAT.DEAD). -/
def trgDead (s : State) (n : Cluster) (u : Nat) : Bool := s.rb .CL_TRG_USTAT (trgIx n u) 1

/-- Unit u is armed again if its hold-off is over by sample j and the queue has room (R263). -/
def trgRearm (n : Cluster) (u j : Nat) (s : State) : State :=
  let t := s.trig n
  let v := tunit t u
  match v.fired with
  | some f =>
    let b := rearmStart s n u f
    if trgDead s n u ∧ trgAuto s n u ∧ !trgFull t ∧ b ≤ 8 * j then
      (s.setTrig n (setTunit t u
        { v with armed := true, rearmed := some b, since := if trgCond s n u = 4 then some b else v.since })).setRf
        .CL_TRG_USTAT (trgIx n u) 0 2 1
    else s
  | none => s

/-! ### A sample -/

/-- The events of samples up to j, in order of their times. -/
def insertEvt (x : TrigEvt) : List TrigEvt → List TrigEvt
  | [] => [x]
  | y :: r => if x.time < y.time then x :: y :: r else y :: insertEvt x r

/-- An event of the ring that comes too late for its sample is placed in the one evaluated next (R253). -/
def lateEvt (next : Nat) (x : TrigEvt) : TrigEvt :=
  match x with
  | .ring l e => if e / 8 < next then .ring l (8 * next) else x
  | _ => x

/-- Unit u in sample j: its record brought up, its qualification if it has one. -/
def unitStep (s : State) (n : Cluster) (u j : Nat) (evs : List TrigEvt) (t0 t : Trig) : Trig × Option Qual :=
  let v := tunit t u
  if !trgEn s n u || trgCfgErr s n u then (t, none)
  else
    let p := unitEvents s n u t0 v evs
    let q := unitSample s n u j t p.1 p.2
    (setTunit t u { q.1 with qual := match q.2 with | some x => some x.1 | none => q.1.qual }, q.2)

/-- All units in ascending number. -/
def unitsStep (s : State) (n : Cluster) (j : Nat) (evs : List TrigEvt) (t0 : Trig) :
    List Nat → Trig → Trig × List (Nat × Qual)
  | [], t => (t, [])
  | u :: r, t =>
    let p := unitStep s n u j evs t0 t
    let q := unitsStep s n j evs t0 r p.1
    (q.1, match p.2 with | some x => (u, x) :: q.2 | none => q.2)

/-- DEAD of a firing of unit u (R265): the re-arm dead time, 0xFFFF_FFFF for the first. -/
def deadOf (v : TUnit) : Nat × Bool :=
  match v.fired, v.rearmed with
  | some f, some b => if 4294967294 < b - (f + 8) then (4294967294, true) else (b - (f + 8), false)
  | _, _ => (4294967295, false)

/-- The VEC or MVEC vector in progress at the start of sample j (R269). -/
def vecAt (s : State) (n : Cluster) (j : Nat) : Option Nat :=
  let q := s.seq n
  let T := 8 * j * 512
  match q.infl.find? fun v => decide (v.kind ≠ .hold ∧ v.start ≤ T ∧ T < v.stop) with
  | some v => some v.num
  | none => (q.past.find? fun v => decide (v.2.1 ≤ T ∧ T < v.2.2)).map (·.1)

/-- A qualification that is no firing is missed (R264): the unit is not armed and AUTO is 1. -/
def trgMiss (n : Cluster) (u : Nat) (s : State) : State :=
  let s1 := (s.count .CL_TRG_MISSED (trgIx n u) 32).setRb .CL_TRG_EVT n 17 true
  s1.setTrig n { s1.trig n with missed := true }

/-- A firing of unit u in sample j, but for its actions: counts, events, disarmed (R263, R267). -/
def trgFire (n : Cluster) (j u : Nat) (s : State) : State :=
  let s1 := (s.count .CL_TRG_FIRECNT (trgIx n u) 32).setRb .CL_TRG_EVT n u true
  let t := s1.trig n
  let v := tunit t u
  (s1.setTrig n (setTunit t u { v with armed := false, fired := some (8 * j), rearmed := none })).setRf .CL_TRG_USTAT
    (trgIx n u) 0 2 (2 * b2n (trgAuto s n u))

/-- The record of a sample's firings enters the queue (R268, R269). -/
def trgRecord (n : Cluster) (j : Nat) (fs : List (Nat × Qual)) (late : Bool) (s : State) : State :=
  let t := s.trig n
  let ds := fs.map fun f => (f.1, (f.2.2.1, ((deadOf (tunit t f.1)).1, (f.2.1, f.2.2.2))))
  let sat := fs.any fun f => (deadOf (tunit t f.1)).2
  let r : TrigRec := ⟨j, (s.reg .CL_TRG_RECNO n).toNat, ds, t.missed, late, sat, vecAt s n j⟩
  let s1 := (s.setTrig n { t with queue := t.queue ++ [r], missed := false }).countWrap .CL_TRG_RECNO n 32
  if 32 ≤ t.queue.length + 1 then s1.setRb .CL_TRG_EVT n 16 true else s1

end Sys2Proof.Machine
end

