-- ==== Sys2Proof/Machine/RecordOps.lean ====
section
/-! DEFINITION. Sys2Proof/Machine/RecordOps.lean: the record windows in Millpond, capture engines (R271 to R275), ring
trigger messages as they are sent (R353, R400, R401). -/

namespace Sys2Proof.Machine

/-! ### Windows -/

/-- A window's index one on, modulo its size. -/
def idxNext (i size : Nat) : Nat := (i + 1) % size

/-- A size field, 0 acting as `whole`. -/
def sizeOr (v whole : Nat) : Nat := if v = 0 then whole else v

/-- Stream k of cluster n writes bytes at a, if the active table serves it there (R340); none while it is not served. -/
def engineWrite (n : Cluster) (k : Fin 6) (rr : Bool) (a : Nat) (bytes : List Byte) (s : State) : Option State :=
  if streamServed s n k rr a bytes.length then some (memWrite (.cluster n k) rr none a bytes s) else none

/-! ### Capture engines -/

/-- Field e of CL_CAP_STAT and the like. -/
def cptRun (s : State) (n : Cluster) (e : Fin 2) : Bool := s.rb .CL_CAP_STAT (awgIx n e) 0
/-- CL_CAP_IVAL.INTERVAL in ticks, and whole, 0 acting as 1 (R272). -/
def cptI (s : State) (n : Cluster) (e : Fin 2) : Nat := max 1 (s.rf .CL_CAP_IVAL (awgIx n e) 0 16)
def cptPost (s : State) (n : Cluster) (e : Fin 2) : Nat := s.rf .CL_CAP_IVAL (awgIx n e) 16 16
def cptClaim (s : State) (n : Cluster) (e : Fin 2) : Nat := s.rf .CL_CAP_CTRL (awgIx n e) 6 2

/-- The end of interval k (R272). -/
def cptEndOf (s : State) (n : Cluster) (e : Fin 2) (k : Nat) : Nat := (s.cpt n e).t0 + (k + 1) * (cptI s n e * convTicks)

/-- An engine starts now (R272): T0 is the first MEAS edge at or after this moment. A start while it runs is ignored. -/
def cptStart (n : Cluster) (e : Fin 2) (s : State) : State :=
  if cptRun s n e then s
  else
    let t0 := (s.clasp + 31) / 32 * 32
    let ix := awgIx n e
    let s1 := s.setCpt n e { t0, k := 0, acc := [], mark := false, stopK := none, queue := (s.cpt n e).queue }
    ((s1.setPair .CL_CAP_T0_LO .CL_CAP_T0_HI ix t0).setReg .CL_CAP_STAT ix 1#32).setReg .CL_CAP_ICNT ix 0#32

/-- The words of one channel's record of an interval (R274). -/
def cptRecord (one mark : Bool) (k I c : Nat) (a : CapAcc) : List Word :=
  if one then
    [BitVec.ofNat 32 (k % 256 * 2 ^ 24 + b2n mark * 2 ^ 23 + c * 2 ^ 18 + unsigned 18 a.lo)]
  else
    let v := k % 2 ^ 20 * 2 ^ 44 + b2n a.ovr * 2 ^ 43 + b2n (decide (a.cnt < I)) * 2 ^ 42 + b2n mark * 2 ^ 41 + c * 2 ^ 36 +
      unsigned 18 a.hi * 2 ^ 18 + unsigned 18 a.lo
    [loWord v, hiWord v]

/-- The interval in progress ends (R273, R274): its records are queued, the next begins, a stop point takes effect. -/
def cptEnd (n : Cluster) (e : Fin 2) (s : State) : State :=
  let x := s.cpt n e
  let ix := awgIx n e
  let I := cptI s n e
  let recs := (List.range 32).filterMap fun c =>
    match x.acc.find? fun p => decide (p.1 = c) with
    | some p => some (cptRecord (decide (I = 1)) x.mark x.k I c p.2)
    | none => none
  let s1 := (s.setCpt n e { x with k := x.k + 1, acc := [], mark := false, queue := x.queue ++ recs }).count .CL_CAP_ICNT ix 32
  if x.stopK = some x.k then
    let s2 := s1.setCpt n e { s1.cpt n e with stopK := none }
    (s2.setReg .CL_CAP_STAT ix (s2.reg .CL_CAP_STAT ix &&& ~~~ 3#32)).setRb .CL_CAP_EVT n e.val true
  else s1

/-- The interval in progress, brought up to the time x: intervals over by then end, those without a sample at once. -/
def cptCatch (n : Cluster) (e : Fin 2) (x : Nat) (s : State) : State :=
  if cptRun s n e ∧ cptEndOf s n e (s.cpt n e).k ≤ x then
    let s1 := cptEnd n e s
    let k := (x - (s1.cpt n e).t0) / (cptI s n e * convTicks)
    let k' := match (s1.cpt n e).stopK with | some j => min k j | none => k
    if cptRun s1 n e ∧ (s1.cpt n e).k < k' then
      let s2 := (s1.setCpt n e { s1.cpt n e with k := k' }).setReg .CL_CAP_ICNT (awgIx n e) (BitVec.ofNat 32 (min k' 4294967295))
      if cptEndOf s2 n e k' ≤ x then cptEnd n e s2 else s2
    else s1
  else s

/-- A sample of channel c whose conversion ends now reaches the engine (R271, R272). -/
def cptSample (n : Cluster) (e : Fin 2) (c : Channel) (y : Int) (s0 : State) : State :=
  let s := cptCatch n e s0.clasp s0
  let x := s.cpt n e
  if cptRun s n e && bitOf (s.reg .CL_CAP_MASK (awgIx n e)) c.val && decide (x.t0 ≤ s.clasp) then
    let lim := decide (y = -131072 ∨ y = 131071)
    let a := match x.acc.find? fun p => decide (p.1 = c.val) with
      | some p => ({ cnt := p.2.cnt + 1, lo := min p.2.lo y, hi := max p.2.hi y, ovr := p.2.ovr || lim } : CapAcc)
      | none => ⟨1, y, y, lim⟩
    s.setCpt n e { x with acc := (c.val, a) :: x.acc.filter fun p => decide (p.1 ≠ c.val) }
  else s

/-- A stop, POST intervals after the one that contains now (R273); a stop point already set stays. -/
def cptStop (n : Cluster) (e : Fin 2) (post : Nat) (s0 : State) : State :=
  let s := cptCatch n e s0.clasp s0
  let x := s.cpt n e
  if cptRun s n e ∧ x.stopK = none then
    (s.setCpt n e { x with stopK := some (x.k + post) }).setRb .CL_CAP_STAT (awgIx n e) 1 true
  else s

/-- A mark in the interval that contains now (R273). -/
def cptMark (n : Cluster) (e : Fin 2) (s0 : State) : State :=
  let s := cptCatch n e s0.clasp s0
  if cptRun s n e then s.setCpt n e { s.cpt n e with mark := true } else s

/-- A write to CL_CAP_CTRL: START and STOP act as the claimant's (R270, R272, R273). -/
def cptCtrlWrite (n : Cluster) (e : Fin 2) (d m : Word) (s : State) : State :=
  let s1 := plainWrite .CL_CAP_CTRL (awgIx n e) d m s
  let s2 := if ones d m 0 && decide (cptClaim s1 n e ≠ 3) then startLevel n 3 e.val (cptStart n e) s1 else s1
  if ones d m 1 then cptStop n e 0 s2 else s2

/-- A write to another register of an engine, by number. -/
def cptWrite (r : Reg) (n : Cluster) (e : Fin 2) (d m : Word) (s : State) : State :=
  match r with
  | .CL_CAP_CTRL => cptCtrlWrite n e d m s
  | _ => plainWrite r (awgIx n e) d m s

/-! ### Trigger registers -/

/-- The registers whose write reconfigures a unit (R261). -/
def trgConfigRegs : List Reg :=
  [.CL_TRG_CFG, .CL_TRG_SRC, .CL_TRG_LIMA, .CL_TRG_LIMB, .CL_TRG_MVAL_H, .CL_TRG_MVAL_L, .CL_TRG_MMASK_H, .CL_TRG_MMASK_L]

/-- A write to a register of unit u (R261, R262). -/
def trgWrite (r : Reg) (n : Cluster) (u : Nat) (d m : Word) (s : State) : State :=
  let was := trgEn s n u
  let s1 := plainWrite r (trgIx n u) d m s
  if r = .CL_TRG_CTRL then trgCtrl n u (ones d m 0) (ones d m 1) s
  else if r ∈ trgConfigRegs then
    if trgEn s1 n u then trgReconfig n u (!was) s1 else s1.setRb .CL_TRG_USTAT (trgIx n u) 2 false
  else s1

/-! ### Ring lines -/

/-- RING_STAT.STATE (R392): 0 OFF, 1 TRAIN, 2 UP, 3 SYNC. -/
def ringState (s : State) : Nat := s.rf .RING_STAT 0 0 2

/-- A trigger message on line k, applied at the time a, from a unit of cluster n: only while the cluster holds semaphore
2 + k (R353), the line is the part's to send on and the part is in SYNC (R400); the part's own units get it too (R401). -/
def ringLineSend (n : Cluster) (k a : Nat) (s : State) : State :=
  if (match (s.sem (2 + k)).holder with | some h => decide (h.1 = 8 + n.val) | none => false) then
    if s.rb .RING_LINE_TX 0 k ∧ ringState s = 3 then
      let e := a + s.rf .RING_TLEAD 0 0 18
      if (s.ring.lines.filter fun x => decide (x.1 = k)).length < 8 then
        forClusters (fun n s => s.trigEvent n (.ring k e))
          { s with ring := { s.ring with lines := s.ring.lines ++ [(k, (e, a))] } }
      else (s.count .RING_TLOST 0 32).setRb .RING_EVT 0 7 true
    else s
  else (s.count .SEM_DENIED k 32).setRb .SEM_EVT 0 2 true

end Sys2Proof.Machine
end

