-- ==== Sys2Proof/Machine/Sequencer.lean ====
section
/-! DEFINITION. Sys2Proof/Machine/Sequencer.lean: the events of the sequencer's issue stage, of results and of ends of
pattern (R170 to R218). -/

namespace Sys2Proof.Machine

/-- SEQ_RUN_START (R178, R210): the Clasp time reaches T(0). A resume's context ceases to be held. -/
def execSeqRunStart (t : Nat) (n : Cluster) (s0 : State) : Res :=
  let s := s0.at t
  let q := s.seq n
  .next (if !seqIdle s n ∧ q.t0 ≤ s.clasp ∧ q.ending = none then
      let s1 := if seqState s n = 1 then setSeqState n 2 s else s
      if q.resume ∧ s1.rb .CL_MR_STAT n 0 then
        (s1.setReg .CL_MR_STAT n (putFld (s1.reg .CL_MR_STAT n &&& ~~~ 0x1001#32) 13 3 2)).modSeq n fun q => { q with ctx := none }
      else s1
    else s)

/-- VECTOR_ISSUE (R170 to R177, R190 to R192, R198 to R202, R214, R215): the issue stage looks at the start of the next
vector. An interruption that this boundary takes, and a stall that ends here, are their own events. -/
def execVectorIssue (t : Nat) (n : Cluster) (s0 : State) : Res :=
  let s := s0.at t
  .next (if issueDue s n then
      match issueAt n s with
      | .done s' | .awaits s' => s'
      | .marked _ | .resumes _ => s
    else s)

/-- STALL_END (R191): a resume has been seen; V starts at the end of the hold vector in progress. -/
def execStallEnd (t : Nat) (n : Cluster) (s0 : State) : Res :=
  let s := s0.at t
  .next (if issueDue s n then
      match issueAt n s with
      | .resumes s' => setSeqState n 2 s'
      | _ => s
    else s)

/-- ROUTINE_INTERRUPT (R203 to R208): an interruption is taken at a mark boundary or at the end of a hold vector of a parked
wait: the context is saved and held. -/
def execRoutineInterrupt (t : Nat) (n : Cluster) (s0 : State) : Res :=
  let s := s0.at t
  .next (if issueDue s n then
      match issueAt n s with
      | .marked s' =>
        let s1 := saveCtx n (!streaming s n) (inParked s n) ((abortDue s n).getD 0) 1 s'
        endSeq n 2 0 (s1.setRb .CL_MR_EVT n 0 true)
      | _ => s
    else s)

/-- The channels on which a vector gave a result of the kinds `p`. -/
def vecChans (v : Vec) (p : Nat → Bool) : Word :=
  BitVec.ofNat 32 (((List.range 32).map fun c => if v.res.any fun r => decide (r.1 / 2 = c) && p r.2 then 2 ^ c else 0).sum)

/-- Fail counts and first-fail records of a VEC vector (R183). -/
def countFails (n : Cluster) (v : Vec) (mask : Word) (s : State) : State :=
  (List.finRange 32).foldl
    (fun s c =>
      if bitOf mask c.val then
        let ix := n.val * 32 + c.val
        let s1 := s.count .CL_SEQ_FCNT ix 32
        if s1.rb .CL_SEQ_FFVALID n c.val then s1
        else (s1.setRb .CL_SEQ_FFVALID n c.val true).setReg .CL_SEQ_FFIRST ix (BitVec.ofNat 32 v.num)
      else s) s

/-- A record is lost (R185). -/
def logLost (n : Cluster) (s : State) : State := seqEvt n 6 (resFlag n 21 (seqCount .CL_SEQ_LOST n s))

/-- A VEC vector that qualifies enters the log queue, or is lost (R184, R185). -/
def logVec (n : Cluster) (v : Vec) (fails : Bool) (s : State) : State :=
  if (s.rb .CL_SEQ_LOG n 0 && fails) || (s.rb .CL_SEQ_LOG n 1 && v.hasCap) then
    if (s.seq n).log.length < 256 then s.modSeq n fun q => { q with log := q.log ++ [⟨v, fails⟩] } else logLost n s
  else s

/-- VECTOR_COMPLETE (R151, R171, R174, R183, R184): 96 ticks after the oldest vector in flight ended, its results reach the
flags, the fail counters and the log queue. -/
def execVectorComplete (t : Nat) (n : Cluster) (s0 : State) : Res :=
  let s := s0.at t
  let q := s.seq n
  .next (match q.infl with
    | [] => s
    | v :: rest =>
      if v.stop + 96 * 512 < (s.clasp + 1) * 512 ∧ !(q.edges.any fun p => decide (p.seqNo = v.seqNo)) then
        let mask := vecChans v fun r => decide (r = 1 ∨ r = 2)
        let cond := v.cond &&& ~~~ s.reg .CAP_FENCE n
        let keep := q.past.filter fun x => decide (s.clasp < x.2.2 / 512 + 256)
        let s1 := s.setSeq n { q with infl := rest, past := keep ++ (if v.kind = .hold then [] else [(v.num, (v.start, v.stop))]) }
        match v.kind with
        | .hold => s1
        | .mvec =>
          if v.last ∧ q.matchNo ≤ v.seqNo then s1.modSeq n fun q => { q with fMatch := decide (mask &&& cond = 0#32) } else s1
        | .vec =>
          let s2 := if mask &&& cond ≠ 0#32 ∧ v.ep = q.ep then s1.modSeq n fun q => { q with fFail := true } else s1
          let s3 := if vecChans v (fun r => decide (r = 1)) ≠ 0#32 then resFlag n 16 s2 else s2
          let s4 := if vecChans v (fun r => decide (r = 2)) ≠ 0#32 then resFlag n 17 s3 else s3
          let s5 := logVec n v (decide (mask ≠ 0#32)) (countFails n v mask s4)
          if mask ≠ 0#32 then s5.trigEvent n (.fail mask (v.stop / 512)) else s5
      else s)

/-- The four bits of channel c's compare results (R184). -/
def resNibble (v : Vec) (c : Nat) : Nat :=
  let r := fun k => match v.res.find? fun x => decide (x.1 = k) with | some x => x.2 | none => 3
  r (2 * c) + 4 * r (2 * c + 1)

/-- The byte of channel c's captures (R184). -/
def capByte (v : Vec) (c : Nat) : Byte :=
  let r := fun k => match v.caps.find? fun x => decide (x.1 = k) with | some x => x.2 | none => 15
  BitVec.ofNat 8 (r (2 * c) + 16 * r (2 * c + 1))

/-- The 64 bytes of a log record (R184). -/
def logBytes (x : LogRec) : List Byte :=
  let v := x.v
  leBytes 6 v.num ++ [BitVec.ofNat 8 (b2n x.fail + 2 * b2n v.hasCap + 4 * b2n v.inRtn), 0#8] ++
  leBytes 4 (paddrWord v.src).toNat ++ leBytes 4 (v.start / 512) ++
  (List.range 16).map (fun i => BitVec.ofNat 8 (resNibble v (2 * i) + 16 * resNibble v (2 * i + 1))) ++
  (List.range 32).map (capByte v)

/-- LOG_RECORD_WRITE (R185, R268): the Hopper drains the oldest log record into the log window, in turn with the trigger
queue; a record that finds the window full is lost. -/
def execLogRecordWrite (t : Nat) (n : Cluster) (s0 : State) : Res :=
  let s := s0.at t
  let q := s.seq n
  let x := s.trig n
  let size := sizeOr (s.rf .CL_HOP_LOG_SIZE n 0 16) 65536
  let w := s.rf .CL_HOP_LOG_WPTR n 0 16
  let trgFullWin := decide (idxNext (s.rf .CL_TRG_WIN_WPTR n 0 16) (sizeOr (s.rf .CL_TRG_WIN_SIZE n 0 16) 65536) =
    s.rf .CL_TRG_WIN_RPTR n 0 16)
  .next (match q.log with
    | [] => s
    | r :: rest =>
      if !x.turn ∧ x.queue ≠ [] ∧ !trgFullWin then s
      else if idxNext w size = s.rf .CL_HOP_LOG_RPTR n 0 16 then
        (logLost n (s.setSeq n { q with log := rest })).setTrig n { x with turn := false }
      else
        match engineWrite n 0 false (s.rf .CL_HOP_LOG_BASE n 6 20 * 64 + w * 64) (logBytes r) s with
        | none => s
        | some s1 =>
          ((s1.modSeq n fun q => { q with log := rest }).setTrig n { s1.trig n with turn := false }).setRf .CL_HOP_LOG_WPTR n 0
            16 (idxNext w size))

/-- The unwind section of the saved context is run, or R213 follows at once (R211, R215). `held`: by an ABANDON, with T(0)
chosen as CL_SEQ_CTRL.TMODE says; after a refusal it runs at once. -/
def beginUnwind (n : Cluster) (held : Bool) (s : State) : State :=
  match (s.seq n).ctx with
  | none => finishUnwind n false s
  | some x =>
    if x.rtn.uaddr.isNone ∨ s.rf .CL_MR_STAT n 13 3 = 4 ∨ (!held ∧ !s.rb .CL_TIM_STAT n 0) then finishUnwind n false s
    else
      let s1 := armUnwind n (if held then none else some (startGrid (startFrom s n))) s
      if seqIdle s1 n then finishUnwind n false s1 else s1

/-- A streamed pattern has ended (R194). -/
def hopEnd (n : Cluster) (s : State) : State :=
  if streaming s n then (s.setRb .CL_HOP_CTRL n 0 false).setRb .CL_HOP_STAT n 18 false else s

/-- The code an end of pattern writes (R213): the end of an unwind that followed a refusal leaves the refusal's code. -/
def unwindCode (s : State) (n : Cluster) (code : Nat) : Nat :=
  if (s.seq n).unwind ∧ code < 10 then
    match s.rf .CL_MR_STAT n 8 4 with
    | 8 => 10
    | 9 => 11
    | _ => code
  else code

/-- PATTERN_END (R180, R181, R213, R215): 96 ticks after the last vector the result is written and the sequencer is idle;
an unwind ends, or begins after a refusal. -/
def execPatternEnd (t : Nat) (n : Cluster) (s0 : State) : Res :=
  let s := s0.at t
  let q := s.seq n
  .next (match q.ending with
    | none => s
    | some (code0, exit) =>
      let code := unwindCode s n code0
      if (q.lastEnd + 176 * 512 - 1) / (80 * 512) ≤ s.clasp / 80 ∧ q.infl = [] then
        let tend := q.lastEnd / 512
        let s1 := (s.setPair .CL_SEQ_TEND_LO .CL_SEQ_TEND_HI n tend).setReg .CL_SEQ_RES n
          (putFld (putFld (s.reg .CL_SEQ_RES n) 0 4 code) 8 8 exit)
        let s2 := (hopEnd n (seqEvt n 0 s1)).setReg .CL_SEQ_STAT n 0#32
        let s3 := (s2.trigEvent n (.patEnd tend)).setSeq n
          { q with ending := none, rtn := none, edges := [], unwind := false, resume := false, idleC := s.clasp / 80 + 1 }
        if q.unwind then finishUnwind n true s3
        else if code = 10 ∨ code = 11 then beginUnwind n false s3
        else s3
      else s)

/-- The oldest measurement result of the cluster as its record (R218). -/
def resultBytes (x : ResRec) : List Byte :=
  leBytes 4 x.res.toNat ++ leBytes 8 x.aper ++ leBytes 2 x.tok.r ++
  [BitVec.ofNat 8 (x.c + 32 * x.tok.range), BitVec.ofNat 8 (x.tok.mmode + 4 * b2n x.stale + 8 * b2n x.tok.inRtn + 128)]

/-- ROUTINE_RESULT_WRITE (R218): the record is written in the result window, or dropped; its token is released. -/
def execRoutineResultWrite (t : Nat) (n : Cluster) (s0 : State) : Res :=
  let s := s0.at t
  let q := s.seq n
  .next (match q.results with
    | [] => s
    | x :: rest =>
      let s1 := s.setSeq n { q with results := rest }
      if s.rf .CL_MR_RES_CNT n 0 16 ≤ x.tok.r then s1.setRb .CL_MR_EVT n 4 true
      else
        match engineWrite n 0 true (s.rf .CL_MR_RES_BASE n 0 17 * 512 + x.tok.r * 512 + x.c * 16) (resultBytes x) s1 with
        | none => s
        | some s2 => s2)

end Sys2Proof.Machine
end

