-- ==== Sys2Proof/Machine/CtlOps.lean ====
section
/-! DEFINITION. Sys2Proof/Machine/CtlOps.lean: what writes to the registers of the sequencer, the Hopper, the timing block and
the micro-routine context do (R177 to R180, R194, R126, R130, R138, R210, R211). -/

namespace Sys2Proof.Machine

/-- A write to CL_SEQ_CTRL by requester r (R177 to R180): ABORT beats START and RELEASE. An ABORT takes 80 ticks to the
issue stage (R176). -/
def seqCtrlWrite (r : Req) (n : Cluster) (d m : Word) (s : State) : State :=
  let s1 := plainWrite .CL_SEQ_CTRL n d m s
  if ones d m 1 then abortSeq n (if r = 4 then 2 else 1) 80 s1
  else
    let s2 := if ones d m 2 && !seqIdle s1 n then s1.modSeq n fun q => { q with release := some (s1.clasp + 80) } else s1
    if ones d m 0 then seqStartOp n s2 else s2

/-- A write to CL_HOP_CTRL: EN is stored; FLUSH acts while the sequencer is idle (R194). -/
def hopCtrlWrite (n : Cluster) (d m : Word) (s : State) : State :=
  let s1 := plainWrite .CL_HOP_CTRL n d m s
  if ones d m 1 && idleNow s1 n then
    let s2 := (s1.setReg .CL_HOP_HEAD n (s1.reg .CL_HOP_TAIL n)).setRb .CL_HOP_STAT n 18 false
    s2.setHop n { seenAt := s.clasp }
  else s1

/-- A write to a table that may change only while the sequencer is idle (R126, R130). -/
def tableWrite (n : Cluster) (busy : Bool) (s s' : State) : Act :=
  if busy && !idleNow s n then .drop (s.setRb .CL_TIM_EVT n 3 true) else .ok s'

/-- A write to CL_TS_PER (R117, R126): kept within 4,096 to 268,435,456. -/
def perWrite (n : Cluster) (i : Nat) (d m : Word) (s : State) : Act :=
  let w := fld (plainWord s .CL_TS_PER i d m) 0 29
  tableWrite n true s (s.setReg .CL_TS_PER i (BitVec.ofNat 32 (max 4096 (min 268435456 w))))

/-- A write to the correction table: entries of the active band may not change while the sequencer runs (R130). -/
def corrWrite (n : Cluster) (i : Nat) (d m : Word) (s : State) : Act :=
  tableWrite n (decide (i % 960 / 192 = activeBand s n)) s (plainWrite .CORR_TAB i d m s)

/-- A RESUME of a held context (R210, R445). -/
def resumeOp (n : Cluster) (s : State) : State :=
  if !idleNow s n then s.setRb .CL_SEQ_EVT n 5 true
  else if !s.rb .CL_MR_STAT n 0 || !s.rb .CL_MR_STAT n 1 || decide (s.rf .CL_MR_STAT n 13 3 ≠ 1) then s
  else if 3 ≤ govLevel s n then govRefuse n s
  else if digest s n ≠ s.reg .CL_MR_DIGEST n then (s.setRb .CL_MR_STAT n 7 true).setRb .CL_MR_EVT n 3 true
  else
    match (s.seq n).ctx with
    | none => s
    | some x =>
      let go := fun (s : State) =>
        let s1 := armSeq n { x.fe with rpt := none, called := false } false (s.setRb .CL_MR_STAT n 7 false)
        if seqIdle s1 n then s1
        else s1.modSeq n fun q =>
          { q with resume := true, unwind := false, fMatch := x.fMatch, fFail := x.fFail,
                   rtn := some { x.rtn with span := q.tNext, fresh := x.rtn.byMark } }
      startOr n 0 1 go s

/-- An ABANDON of a held context (R211): ignored unless one is saved and the sequencer is idle. -/
def abandonOp (n : Cluster) (s : State) : State :=
  if s.rb .CL_MR_STAT n 0 && idleNow s n then beginUnwind n true s else s

/-- A write to CL_MR_CMD: ABANDON beats RESUME (R211). -/
def mrCmdWrite (n : Cluster) (d m : Word) (s : State) : State :=
  if ones d m 1 then abandonOp n s else if ones d m 0 then resumeOp n s else s

end Sys2Proof.Machine
end

