-- ==== Sys2Proof/Machine/GenOps.lean ====
section
/-! DEFINITION. Sys2Proof/Machine/GenOps.lean: what writes to a generator's registers do (R285, R287, R291 to R293, R298,
R299, R301). -/

namespace Sys2Proof.Machine

/-- The registers of a generator that AWG_CLR# leaves writable (R299). -/
def clrExempt (r : Reg) : Bool := decide (r = .CL_AWG_TIDX ∨ r = .CL_AWG_EVT ∨ r = .CL_AWG_EVT_EN)

/-- A write to a generator's register is dropped: WR_DROP (R285, R299). -/
def genDrop (n : Cluster) (g : Fin 2) (s : State) : Act :=
  .clash (s.setRb .CL_AWG_EVT (awgIx n g) 9 true) n.val g.val

/-- A write to CL_AWG_CTRL that is not dropped: AUX_RECON, STOP and START act on what is stored (R283, R291, R292). -/
def genCtrl (n : Cluster) (g : Fin 2) (d m : Word) (s : State) : State :=
  let ix := awgIx n g
  let s1 := plainWrite .CL_AWG_CTRL ix d m s
  let s2 := if ones d m 5 then s1.setRb .CL_AWG_STAT ix 6 false else s1
  let s3 := if ones d m 1 then awgStop n g s2 else s2
  if ones d m 0 then startOr n 1 g.val (awgStart n g) s3 else s3

/-- A write to CL_AWG_ROUTE: the clamping of a VIH level that follows, or follows no longer, is noted (R282). -/
def genRoute (n : Cluster) (g : Fin 2) (d m : Word) (s : State) : State :=
  forChannels n (fun n c s' => noteClamp s n c s') (plainWrite .CL_AWG_ROUTE (awgIx n g) d m s)

/-- A write of CL_AWG_TDATA_HI writes the entry at CL_AWG_TIDX, which advances (R287). -/
def genEntry (n : Cluster) (g : Fin 2) (d m : Word) (s : State) : State :=
  let i := s.rf .CL_AWG_TIDX (awgIx n g) 0 10
  let hi := mergeRw (awgEntry s n g i).2 0xFFFFFFFF#32 d m
  (setAwgEntry n g i ((s.awg n g).tdLo, hi) s).setReg .CL_AWG_TIDX (awgIx n g) (BitVec.ofNat 32 ((i + 1) % 1024))

/-- A DDS parameter goes on its way (R293, R298): `which` 0 FTW, 1 POFF, 2 AMP. -/
def genDds (n : Cluster) (g : Fin 2) (which value : Nat) (s : State) : State :=
  modAwg n g (fun a => { a with dds := a.dds ++ [⟨s.clasp + 40, which, value⟩] }) s

/-- A write of a HI word of FTW or POFF, with the LO word held (R298). -/
def genHi (lo hi : Reg) (which : Nat) (held : Word) (n : Cluster) (g : Fin 2) (d m : Word) (s : State) : State :=
  let ix := awgIx n g
  let w := mergeRw (s.reg hi ix) 0xFFFF#32 d m
  genDds n g which (ofWords held w) ((s.setReg lo ix held).setReg hi ix w)

/-- A write to CL_AWG_CLR: a generator at its clear code shows the new one from its next sample boundary on (R292). -/
def genWrite (r : Reg) (n : Cluster) (g : Fin 2) (d m : Word) (s : State) : Act :=
  let ix := awgIx n g
  if clrPin s n g && !clrExempt r then genDrop n g s
  else
    match r with
    | .CL_AWG_CTRL =>
      let changed := (s.reg r ix ^^^ plainWord s r ix d m) &&& 0x3FF00DC#32
      if awgState s n g ≠ 0 ∧ changed ≠ 0#32 then genDrop n g s else .ok (genCtrl n g d m s)
    | .CL_AWG_ROUTE => if awgState s n g ≠ 0 then genDrop n g s else .ok (genRoute n g d m s)
    | .CL_AWG_JUMP =>
      let s1 := plainWrite r ix d m s
      .ok (if ones d m 31 then jumpRequest n g (s1.rf r ix 0 10) s.clasp false s1 else s1)
    | .CL_AWG_TDATA_LO => .ok (modAwg n g (fun a => { a with tdLo := mergeRw a.tdLo 0xFFFFFFFF#32 d m }) s)
    | .CL_AWG_TDATA_HI => .ok (genEntry n g d m s)
    | .CL_AWG_FTW_LO => .ok (modAwg n g (fun a => { a with ftwLo := mergeRw a.ftwLo 0xFFFFFFFF#32 d m }) s)
    | .CL_AWG_POFF_LO => .ok (modAwg n g (fun a => { a with poffLo := mergeRw a.poffLo 0xFFFFFFFF#32 d m }) s)
    | .CL_AWG_FTW_HI => .ok (genHi .CL_AWG_FTW_LO .CL_AWG_FTW_HI 0 (s.awg n g).ftwLo n g d m s)
    | .CL_AWG_POFF_HI => .ok (genHi .CL_AWG_POFF_LO .CL_AWG_POFF_HI 1 (s.awg n g).poffLo n g d m s)
    | .CL_AWG_AMP =>
      let s1 := cappedWrite r ix 0 16 32767 d m s
      .ok (genDds n g 2 (s1.reg r ix).toNat s1)
    | _ => .ok (plainWrite r ix d m s)

end Sys2Proof.Machine
end

