-- ==== Sys2Proof/Machine/Crypto.lean ====
section
/-! DEFINITION. Sys2Proof/Machine/Crypto.lean: SHA-256 and ECDSA over P-256, which R220 names and leaves to their standards
(PRESUMED, notes/assumptions/22.md). Words of SHA-256 are numbers below 2^32. -/

namespace Sys2Proof.Machine

/-! ### SHA-256 -/

def rotr32 (x n : Nat) : Nat := (x >>> n ||| x <<< (32 - n)) % 2 ^ 32

def shaK : List Nat :=
  [0x428a2f98, 0x71374491, 0xb5c0fbcf, 0xe9b5dba5, 0x3956c25b, 0x59f111f1, 0x923f82a4, 0xab1c5ed5,
   0xd807aa98, 0x12835b01, 0x243185be, 0x550c7dc3, 0x72be5d74, 0x80deb1fe, 0x9bdc06a7, 0xc19bf174] ++
  [0xe49b69c1, 0xefbe4786, 0x0fc19dc6, 0x240ca1cc, 0x2de92c6f, 0x4a7484aa, 0x5cb0a9dc, 0x76f988da,
   0x983e5152, 0xa831c66d, 0xb00327c8, 0xbf597fc7, 0xc6e00bf3, 0xd5a79147, 0x06ca6351, 0x14292967] ++
  [0x27b70a85, 0x2e1b2138, 0x4d2c6dfc, 0x53380d13, 0x650a7354, 0x766a0abb, 0x81c2c92e, 0x92722c85,
   0xa2bfe8a1, 0xa81a664b, 0xc24b8b70, 0xc76c51a3, 0xd192e819, 0xd6990624, 0xf40e3585, 0x106aa070] ++
  [0x19a4c116, 0x1e376c08, 0x2748774c, 0x34b0bcb5, 0x391c0cb3, 0x4ed8aa4a, 0x5b9cca4f, 0x682e6ff3,
   0x748f82ee, 0x78a5636f, 0x84c87814, 0x8cc70208, 0x90befffa, 0xa4506ceb, 0xbef9a3f7, 0xc67178f2]

def shaInit : List Nat :=
  [0x6a09e667, 0xbb67ae85, 0x3c6ef372, 0xa54ff53a, 0x510e527f, 0x9b05688c, 0x1f83d9ab, 0x5be0cd19]

/-- The number whose bytes are given, most significant first. -/
def beNat (bs : List Byte) : Nat := bs.foldl (fun a b => a * 256 + b.toNat) 0

/-- The number's `len` bytes, most significant first. -/
def beBytes (len x : Nat) : List Byte := (List.range len).map fun i => BitVec.ofNat 8 (x / 256 ^ (len - 1 - i))

/-- The message schedule: the last 16 words, newest first, and the words so far. -/
def shaSched : Nat → List Nat → List Nat
  | 0, w => w
  | k + 1, w =>
    let x := w.getD 1 0
    let y := w.getD 14 0
    let s1 := rotr32 x 17 ^^^ rotr32 x 19 ^^^ x >>> 10
    let s0 := rotr32 y 7 ^^^ rotr32 y 18 ^^^ y >>> 3
    shaSched k ((w.getD 15 0 + s0 + w.getD 6 0 + s1) % 2 ^ 32 :: w)

/-- One round. -/
def shaRound (v : List Nat) (kw : Nat) : List Nat :=
  match v with
  | [a, b, c, d, e, f, g, h] =>
    let s1 := rotr32 e 6 ^^^ rotr32 e 11 ^^^ rotr32 e 25
    let ch := (e &&& f) ^^^ ((2 ^ 32 - 1 - e) &&& g)
    let t1 := h + s1 + ch + kw
    let s0 := rotr32 a 2 ^^^ rotr32 a 13 ^^^ rotr32 a 22
    let maj := (a &&& b) ^^^ (a &&& c) ^^^ (b &&& c)
    [(t1 + s0 + maj) % 2 ^ 32, a, b, c, (d + t1) % 2 ^ 32, e, f, g]
  | _ => v

/-- One block of 64 bytes. -/
def shaBlock (h : List Nat) (blk : List Byte) : List Nat :=
  let w16 := (List.range 16).map fun i => beNat ((blk.drop (4 * i)).take 4)
  let w := (shaSched 48 w16.reverse).reverse
  let v := (w.zip shaK).foldl (fun v p => shaRound v (p.1 + p.2)) h
  List.zipWith (fun x y => (x + y) % 2 ^ 32) h v

/-- The message padded to whole blocks. -/
def shaPad (m : List Byte) : List Byte :=
  m ++ [0x80#8] ++ List.replicate ((119 - m.length % 64) % 64) 0#8 ++ beBytes 8 (8 * m.length)

def shaBlocks : Nat → List Nat → List Byte → List Nat
  | 0, h, _ => h
  | k + 1, h, m => shaBlocks k (shaBlock h (m.take 64)) (m.drop 64)

/-- SHA-256. -/
def sha256 (m : List Byte) : List Byte := (shaBlocks ((shaPad m).length / 64) shaInit (shaPad m)).flatMap (beBytes 4)

/-! ### P-256 -/

def p256p : Nat := 0xffffffff00000001000000000000000000000000ffffffffffffffffffffffff
def p256n : Nat := 0xffffffff00000000ffffffffffffffffbce6faada7179e84f3b9cac2fc632551
def p256b : Nat := 0x5ac635d8aa3a93e7b3ebbd55769886bc651d06b0cc53b0f63bce3c3e27d2604b
def p256g : Nat × Nat :=
  (0x6b17d1f2e12c4247f8bce6e563a440f277037d812deb33a0f4a13945d898c296,
   0x4fe342e2fe1a7f9b8ee7eb4a7c0f9e162bce33576b315ececbb6406837bf51f5)

/-- x ^ e mod m, given that e is below 2 ^ k. -/
def powMod (m x : Nat) : Nat → Nat → Nat
  | 0, _ => 1
  | k + 1, e => let h := powMod m x k (e / 2); if e % 2 = 1 then h * h % m * x % m else h * h % m

/-- The inverse of x modulo a prime m. -/
def invMod (m x : Nat) : Nat := powMod m (x % m) 256 (m - 2)

/-- The sum of two points of the curve; none is the point at infinity. -/
def ecAdd (P Q : Option (Nat × Nat)) : Option (Nat × Nat) :=
  match P, Q with
  | none, _ => Q
  | _, none => P
  | some (x1, y1), some (x2, y2) =>
    if x1 = x2 ∧ (y1 + y2) % p256p = 0 then none
    else
      let l := if x1 = x2 then (3 * x1 * x1 + (p256p - 3)) % p256p * invMod p256p (2 * y1) % p256p
        else (y2 + (p256p - y1)) % p256p * invMod p256p (x2 + (p256p - x1)) % p256p
      let x3 := (l * l + (p256p - x1) + (p256p - x2)) % p256p
      some (x3, (l * (x1 + (p256p - x3)) + (p256p - y1)) % p256p)

/-- k times a point, given that k is below 2 ^ b. -/
def ecMul (P : Option (Nat × Nat)) : Nat → Nat → Option (Nat × Nat)
  | 0, _ => none
  | b + 1, k => let h := ecMul P b (k / 2); if k % 2 = 1 then ecAdd (ecAdd h h) P else ecAdd h h

/-- A point of the curve other than infinity. -/
def ecOk (x y : Nat) : Bool :=
  decide (x < p256p ∧ y < p256p ∧ y * y % p256p = (x * x * x + (p256p - 3) * x + p256b) % p256p)

/-- (r, s) is a valid signature under the key (x, y) of the message whose SHA-256 is e. -/
def ecdsaOk (x y e r s : Nat) : Bool :=
  if ecOk x y ∧ 0 < r ∧ r < p256n ∧ 0 < s ∧ s < p256n then
    let w := invMod p256n s
    match ecAdd (ecMul (some p256g) 256 (e * w % p256n)) (ecMul (some (x, y)) 256 (r * w % p256n)) with
    | some (px, _) => decide (px % p256n = r)
    | none => false
  else false

end Sys2Proof.Machine
end

