-- ==== Sys2Proof/Machine/StampOps.lean ====
section
/-! DEFINITION. Sys2Proof/Machine/StampOps.lean: gates as they are commanded (R238, R242, R243, R246), and the registers of
stamps (R233, R234). -/

namespace Sys2Proof.Machine

/-- The gate of the channel waits in a CONT series for its next G0 (R242). -/
def rgWaits (s : State) (n : Cluster) (c : Channel) : Bool :=
  match (s.chan n c).gate with
  | some g => g.waiting && decide (s.clasp < g.g0)
  | none => false

/-- A START (R238): G0 is chosen and written to CH_RG_TSTART; the gate is armed, or its start is late. -/
def rgStart (n : Cluster) (c : Channel) (s : State) : State :=
  let ix := chIx n c
  if s.rb .CH_RG_STAT ix 0 then s
  else
    let g0 := if s.rb .CH_RG_CTRL ix 2 then s.pair .CH_RG_TSTART_LO .CH_RG_TSTART_HI ix else startGrid s.clasp
    let s1 := (s.setPair .CH_RG_TSTART_LO .CH_RG_TSTART_HI ix g0).setRb .CH_RG_STAT ix 0 true
    let s2 := s1.modChan n c fun x => { x with gate := some (newGate g0 (g0 + rgGlen s ix) false) }
    if g0 < s.clasp + 256 then endGate n c 7 true s2 else s2

/-- A series that waits ends without a result (R243). -/
def rgDrop (n : Cluster) (c : Channel) (s : State) : State :=
  (s.modChan n c fun x => { x with gate := none }).setRb .CH_RG_STAT (chIx n c) 0 false

/-- A STOP (R243). -/
def rgStop (n : Cluster) (c : Channel) (s : State) : State :=
  match (s.chan n c).gate with
  | none => s
  | some g =>
    if rgWaits s n c then rgDrop n c s
    else if g.g1 ≤ s.clasp then endGate n c 1 true s
    else endGate n c 3 true s

/-- A write to CH_RG_CTRL: while BUSY only START, STOP and CONT act; STOP beats START; a series that waits ends when CONT
becomes 0 (R238, R242, R243). -/
def rgCtrlWrite (n : Cluster) (c : Channel) (d m : Word) (s : State) : State :=
  let ix := chIx n c
  let busy := s.rb .CH_RG_STAT ix 0
  let s1 := plainWrite .CH_RG_CTRL ix d (if busy then m &&& 0xB#32 else m) s
  let s2 := if busy && !s1.rb .CH_RG_CTRL ix 3 && rgWaits s1 n c then rgDrop n c s1 else s1
  if ones d m 1 then rgStop n c s2
  else if ones d m 0 then startLevel n 2 c.val (rgStart n c) s2
  else s2

/-- A write to CH_RG_GLEN: the pair is kept within 8,000 to 80,000,000,000 ticks (R249). -/
def glenWrite (r : Reg) (ix : Nat) (d m : Word) (s : State) : State :=
  let s1 := plainWrite r ix d m s
  s1.setPair .CH_RG_GLEN_LO .CH_RG_GLEN_HI ix (max 8000 (min 80000000000 (rgGlen s1 ix)))

/-- A write to CH_TS_CTRL: a change of the enable of the gate's source unit ends the gate (R243). -/
def tsCtrlWrite (n : Cluster) (c : Channel) (d m : Word) (s : State) : State :=
  let ix := chIx n c
  let s1 := plainWrite .CH_TS_CTRL ix d m s
  let u := if rgSrc s ix then 1 else 0
  if s.rb .CH_TS_CTRL ix u = s1.rb .CH_TS_CTRL ix u then s1 else endGate n c 4 false s1

/-- A stamp unit of the cluster is enabled (R234). -/
def stampOn (s : State) (n : Cluster) : Bool :=
  (List.finRange 32).any fun c => decide (s.rf .CH_TS_CTRL (chIx n c) 0 2 ≠ 0)

/-- A read of CH_RG_STAT (R245): NEW and the bit of CL_TS_DONE clear, a result held back is taken, and the latch holds. -/
def rgStatTake (n : Cluster) (c : Channel) (s : State) : State :=
  let ix := chIx n c
  let s1 := (s.setRb .CH_RG_STAT ix 1 false).setRb .CL_TS_DONE n c.val false
  let s2 := match (s.chan n c).rgHeld with | some ws => putRg ix ws s1 | none => s1
  s2.modChan n c fun x => { x with rgLatched := true, rgHeld := none }

/-- Every open or armed gate of the cluster ends with a cause. -/
def endGates (n : Cluster) (cause : Nat) (s : State) : State := forChannels n (fun n c s => endGate n c cause false s) s

/-- A flag is set in every gate that is open (R244). -/
def markGates (n : Cluster) (f : Gate → Gate) (s : State) : State :=
  forChannels n (fun n c s => if gateOpen s n c then modGate n c f s else s) s

end Sys2Proof.Machine
end

