-- ==== Sys2Proof/Machine/ThermOps.lean ====
section
/-! DEFINITION. Sys2Proof/Machine/ThermOps.lean: the temperature sensors and the Governor (R438 to R448). -/

namespace Sys2Proof.Machine

/-! ### Sensors -/

/-- Cluster n lies in the scope of sensor j (R438). -/
def inScope (s : State) (j n : Nat) : Bool :=
  if j < 24 then decide (j = n) else if j < 28 then true else s.rb .THS_SCOPE j n

/-- THS_TEMP[j]: VALID, HOT, RISING, CRIT, FAULT. -/
def thsValid (s : State) (j : Nat) : Bool := s.rb .THS_TEMP j 16
def thsFault (s : State) (j : Nat) : Bool := s.rb .THS_TEMP j 20
def thsCrit (s : State) (j : Nat) : Bool := s.rb .THS_TEMP j 19
def thsCause (s : State) (j : Nat) : Bool := s.rb .THS_TEMP j 17 || s.rb .THS_TEMP j 18
/-- The reading, in sixteenths of a degree. -/
def thsTemp (s : State) (j : Nat) : Int := signed 16 (s.rf .THS_TEMP j 0 16)

/-- GOV_STAT.HOTTEST (R440): the highest valid reading of sensors 0 to 27, if any is valid. -/
def hottest (s : State) : Option Int :=
  ((List.range 28).filter (thsValid s)).foldl
    (fun m j => match m with | none => some (thsTemp s j) | some x => some (max x (thsTemp s j))) none

/-- GOV_STAT follows the readings and the levels (R440, R442). -/
def noteGov (s : State) : State :=
  let top := (List.range 24).foldl (fun m n => max m (s.rf .GOV_CLU n 8 3)) 0
  (s.setRf .GOV_STAT 0 0 16 (unsigned 16 ((hottest s).getD 0))).setRf .GOV_STAT 0 16 3 top

/-- The past readings of sensor j. -/
def histOf (s : State) (j : Nat) : List Int := tabGet [] s.hist j
def setHist (j : Nat) (v : List Int) (s : State) : State := { s with hist := tabSet [] s.hist j v }

/-- A window of k conversions holds its whole length and the reading rose in it by more than `rate` of `num`/`den`
sixteenths of a degree (R441). A rate of 0 disables it. -/
def rises (h : List Int) (x : Int) (k rate num den : Nat) : Bool :=
  match h[k - 1]? with
  | some old => decide (rate ≠ 0 ∧ (rate * num : Nat) < (x - old) * (den : Int))
  | none => false

/-- Sensor j is faulted (R440): TEMP is w. -/
def sensorFault (j : Nat) (w : Nat) (s : State) : State :=
  let s1 := (((setHist j [] s).setRf .THS_TEMP j 0 16 w).setRb .THS_TEMP j 16 false).setRb .THS_TEMP j 20 true
  if thsFault s j then s1
  else
    let s2 := s1.setRb .GOV_EVT 0 4 true
    if j < 28 then s2.send 1072 10 0 j else s2

/-- A good conversion of sensor j (R439, R441). -/
def sensorGood (j : Nat) (x : Int) (s : State) : State :=
  let high := signed 16 (s.rf .THS_LIM j 0 16)
  let crit := signed 16 (s.rf .THS_LIM j 16 16)
  let h := histOf s j
  let hot := decide (high ≤ x) || (s.rb .THS_TEMP j 17 && decide (high - 32 ≤ x))
  let rising := rises h x 100 (s.rf .THS_RATE j 0 16) 16 100 || rises h x 1000 (s.rf .THS_RATE j 16 16) 16 10
  let critical := decide (crit ≤ x) || (thsCrit s j && decide (crit - 32 ≤ x))
  let w := BitVec.ofNat 32 (unsigned 16 x + 65536 + 131072 * b2n hot + 262144 * b2n rising + 524288 * b2n critical)
  let s1 := (setHist j ((x :: h).take 1000) s).setReg .THS_TEMP j w
  let s2 := if hot && !s.rb .THS_TEMP j 17 then s1.setRb .GOV_EVT 0 1 true else s1
  if rising && !s.rb .THS_TEMP j 18 then s2.setRb .GOV_EVT 0 2 true else s2

/-! ### Levels -/

/-- CL_PM_IBUD and CL_PM_PBUD follow the nominal budgets, the level and TIGHT (R444). -/
def setBudget (n : Cluster) (s : State) : State :=
  let f := fun (w : Word) =>
    if govLevel s n = 0 then w else BitVec.ofNat 32 (w.toNat * s.rf .GOV_CTRL 0 24 8 / 256)
  (s.setReg .CL_PM_IBUD n (f (s.reg .GOV_NOM_IBUD n))).setReg .CL_PM_PBUD n (f (s.reg .GOV_NOM_PBUD n))

/-- The first sensor whose scope includes n and for which p holds. -/
def sensorFor (s : State) (n : Nat) (p : Nat → Bool) : Option Nat :=
  (List.range 36).find? fun j => inScope s j n && p j

def State.govOf (s : State) (n : Cluster) : Gov := tabGet { } s.gov n.val
def State.setGov (s : State) (n : Cluster) (v : Gov) : State := { s with gov := tabSet { } s.gov n.val v }

/-- ESC in ticks; 0 acts as 1. -/
def escTicks (s : State) : Nat := max 1 (s.rf .GOV_CTRL 0 0 12) * 8000000

/-- The cluster's level becomes `l`, by sensor `j` where it rises (R442 to R445, R448, R456). -/
def govSet (n : Cluster) (l : Nat) (j : Option Nat) (s : State) : State :=
  let old := govLevel s n
  if l = old then s
  else
    let s1 := (s.setRf .GOV_CLU n 8 3 l).setRb .GOV_EVT 0 0 true
    let s2 := match j with | some j => if old < l then s1.setRf .GOV_CLU n 0 6 j else s1 | none => s1
    let s3 := setBudget n s2
    let s4 := if 3 ≤ l then calAbandon n s3 else s3
    let g := s4.govOf n
    let s5 := s4.setGov n
      (if l < 3 then { g with three := none, stopped := false } else if old < 3 then { g with three := some s.clasp } else g)
    if l = 4 then ((nmiTrap n s5).setRb .GOV_EVT 0 3 true).send 1072 11 1 (j.getD 0) else s5

/-- The level of cluster n is evaluated after a conversion (R440, R442); during a clock fault only its AON part runs
(R448). -/
def govEval (n : Cluster) (s : State) : State :=
  let lv := govLevel s n
  let g := s.govOf n
  let due : Option Nat → Bool := fun x => match x with | some y => decide (y + escTicks s ≤ s.clasp) | none => false
  match sensorFor s n fun j => thsValid s j && thsCrit s j with
  | some j => govSet n 4 (some j) (s.setGov n { g with cause := none, calm := none })
  | none =>
    if s.pwr.fault then s
    else
      let cause := sensorFor s n fun j => thsValid s j && thsCause s j
      let held := sensorFor s n fun j => decide (j < 28) && thsFault s j
      let base :=
        if lv = 4 then 3
        else match cause with
          | some _ => if lv = 0 then 1 else if lv < 3 ∧ due g.cause then lv + 1 else lv
          | none => if due g.calm then lv - 1 else lv
      let l := match held with | some _ => max 3 base | none => base
      let g' : Gov :=
        if cause.isSome then
          { g with cause := if lv < l ∨ lv = 4 ∨ g.cause = none then some s.clasp else g.cause, calm := none }
        else { g with cause := none, calm := if base < lv ∨ g.calm = none then some s.clasp else g.calm }
      govSet n l (if base < l then held else cause) (s.setGov n g')

/-- Every level is evaluated. -/
def govAll (s : State) : State := noteGov (forClusters govEval s)

/-- Work that a Governor stop would stop still runs on cluster n (R445). -/
def govWork (s : State) (n : Cluster) : Bool :=
  !seqIdle s n || cptRun s n 0 || cptRun s n 1 ||
    (List.finRange 32).any fun c => s.rb .CH_RG_STAT (chIx n c) 0 || (s.chan n c).meas.isSome

/-- The Governor stop (R445): as an ABORT with CAUSE 4, and a STOP of gates and captures. -/
def govStop (n : Cluster) (s : State) : State :=
  let s1 := abortSeq n 4 80 s
  let s2 := forChannels n (fun n c s => if s.rb .CH_RG_STAT (chIx n c) 0 then rgStop n c s else s) s1
  let s3 := cptStop n 1 0 (cptStop n 0 0 s2)
  let s4 := s3.setGov n { s3.govOf n with stopped := true }
  (s4.setRb .GOV_EVT 0 6 true).setRb .CL_CAL_EVT n 5 true

/-- A write of a nominal budget (R444): refused where the sum over the 24 clusters would pass the part's limit. -/
def nomWrite (r : Reg) (i : Nat) (d m : Word) (s : State) : Act :=
  let s1 := plainWrite r i d m s
  let sum := ((List.range 24).map fun k => (s1.reg r k).toNat).sum
  let top := if r = .GOV_NOM_IBUD then 3200000000 else 12000000
  if top < sum then .drop (s.setRb .GOV_EVT 0 5 true) else .ok (forClusters setBudget s1)

/-- A write to GOV_CTRL: the budgets follow TIGHT (R444). -/
def govCtrlWrite (d m : Word) (s : State) : State := forClusters setBudget (plainWrite .GOV_CTRL 0 d m s)

end Sys2Proof.Machine
end

