-- ==== Sys2Proof/Machine/WakeOps.lean ====
section
/-! DEFINITION. Sys2Proof/Machine/WakeOps.lean: the power state as accesses meet it (R421, R426, R427), the links as they
carry requests and messages (R359, R362, R516). -/

namespace Sys2Proof.Machine

/-- PWR_STAT.STATE (R421): 0 before ROOT is first stable, 1 BOOT, 2 ACTIVE, 3 SLEEP, 4 SHUTDOWN. -/
def pwrState (s : State) : Nat := s.rf .PWR_STAT 0 0 3

/-- The register slave serves accesses: ROOT is stable, the part is not held in POR or WARM (R372, R419, R421). -/
def slaveUp (s : State) : Bool :=
  s.rb .CLK_STAT 0 2 && !s.pwr.por && !s.pwr.rst && !s.pwr.chip && !s.pwr.fault && decide (s.tap ≠ 0 ∧ s.tap ≠ 3 ∧ s.tap ≠ 4)
    && decide (pwrState s ≠ 0)

/-- The banks that sleep put in retention come back to the state asked for (R424, R427). -/
def banksBack (s : State) : State :=
  (List.range 64).foldl (fun s b => if s.rb .BANK_STATE b 8 then s else s.setRf .BANK_STATE b 4 2 (s.rf .BANK_STATE b 0 2)) s

/-- The cause WSRC records: the first in the order of R426 among those of the MGMT cycle of the first to arrive (R427). -/
def wakeSource (s : State) : Option Nat :=
  match s.wakes with
  | [] => none
  | (c, x) :: r => some ((r.filter fun w => decide (w.2 = x)).foldl (fun m w => min m w.1) c)

/-- SLEEP ends (R427): STATE is ACTIVE, WSRC records the cause. -/
def wakeUp (s : State) : State :=
  if pwrState s = 3 then
    match wakeSource s with
    | none => s
    | some c =>
      banksBack ({ ((s.setRf .PWR_STAT 0 0 3 2).setRf .PWR_STAT 0 8 3 c).setRb .CLK_EVT 0 4 true with wakes := [] })
  else s

/-- A TLP of a host reaches the part: in SLEEP it is a wake cause, and is served once STATE is ACTIVE (R426, R427); the
model puts the wake at the moment the TLP arrives (notes/assumptions/17.md). -/
def hostWakes (s : State) : State := if pwrState s = 3 then wakeUp (s.wake 3) else s

/-- Link h is up and in D0. -/
def linkUp (s : State) (h : Nat) : Bool := s.rb .HL_STAT h 0 && decide (s.rf .HL_STAT h 7 2 = 0)

/-- Link h carries accesses of its host. -/
def linkServes (s : State) (h : Nat) : Bool := slaveUp s && linkUp s h

/-! ### MSI-X (R362, R516) -/

/-- What dword k of an MSI-X table holds at reset: every vector masked, all else 0 (notes/assumptions/18.md). -/
def msixDef (k : Nat) : Word := if k % 4 = 3 then 1#32 else 0#32
def msixWord (s : State) (h k : Nat) : Word := tabGet (msixDef k) s.msix (256 * h + k)
def setMsixWord (h k : Nat) (w : Word) (s : State) : State := { s with msix := tabSet (msixDef k) s.msix (256 * h + k) w }
def pbaWord (s : State) (h k : Nat) : Word := tabGet 0#32 s.pba (2 * h + k)
def setPbaBit (h v : Nat) (b : Bool) (s : State) : State :=
  { s with pba := tabSet 0#32 s.pba (2 * h + v / 32) (putBit (pbaWord s h (v / 32)) (v % 32) b) }

/-- A message of vector v to domain h: sent, or its PBA bit set while the vector is masked. -/
def msixSend (h v : Nat) (s : State) : State :=
  if linkUp s h then
    if bitOf (msixWord s h (4 * v + 3)) 0 then setPbaBit h v true s else s.emit (.msix h v)
  else s

/-- A write to dword k of h's table: a vector that is unmasked sends its pending message. -/
def msixPut (h k : Nat) (d m : Word) (s : State) : State :=
  let s1 := setMsixWord h k (mergeRw (msixWord s h k) 0xFFFFFFFF#32 d m) s
  let v := k / 4
  if k % 4 = 3 ∧ !bitOf (msixWord s1 h k) 0 ∧ bitOf (pbaWord s1 h (v / 32)) (v % 32) then
    msixSend h v (setPbaBit h v false s1)
  else s1

end Sys2Proof.Machine
end

