-- ==== Sys2Proof/Machine/CalOps.lean ====
section
/-! DEFINITION. Sys2Proof/Machine/CalOps.lean: tentering (R449 to R459): trims and their ramps, the reference calibration, what
a step commits, the starts an interruption or an Assay run held. -/

namespace Sys2Proof.Machine

/-! ### Trims (R451 to R453) -/

/-- The present value of a trim and the time of its last move (R451): a trim that does not ramp is at its target. -/
def trimNow (s : State) (r : Reg) (i : Nat) : Word × Nat :=
  match s.ramps.find? fun e => decide (e.1 = r.key i) with
  | some e => e.2
  | none => (s.reg r i, s.clasp)

/-- The present value of a trim is v since tm; at its target it ramps no more. -/
def setTrimNow (r : Reg) (i : Nat) (v : Word) (tm : Nat) (s : State) : State :=
  { s with ramps := if v = s.reg r i then tabErase s.ramps (r.key i) else tabInsert (tabErase s.ramps (r.key i)) (r.key i) (v, tm) }

/-- A trim of cluster n ramps. -/
def rampsOn (s : State) (n : Nat) : Bool :=
  s.ramps.any fun e =>
    decide ((e.1 % 512 = Reg.CH_TRIM.ctorIdx ∧ e.1 / 512 / 2048 = n) ∨ (e.1 % 512 = Reg.AWG_TRIM.ctorIdx ∧ e.1 / 512 / 2 = n))

/-- CL_CAL_STAT.RAMPING follows. -/
def noteRamp (n : Nat) (s : State) : State := s.setRb .CL_CAL_STAT n 11 (rampsOn s n)

/-- A trim's target becomes w (R451). -/
def trimTarget (n : Nat) (r : Reg) (i : Nat) (w : Word) (s : State) : State :=
  let now := trimNow s r i
  let s1 := s.setReg r i w
  noteRamp n (setTrimNow r i (if s.rf .CAL_RATE 0 0 8 = 0 then w else now.1) now.2 s1)

/-- A field of a ramping trim moves by one LSB towards its target. -/
def trimField (lo len : Nat) (tgt w : Word) : Word :=
  let a := signed len (fld w lo len)
  let b := signed len (fld tgt lo len)
  putFld w lo len (unsigned len (if a < b then a + 1 else if b < a then a - 1 else a))

/-- One move of a trim: four signed bytes in the linearity words, two signed halves in the others (R452). -/
def trimMove (bytes : Bool) (tgt w : Word) : Word :=
  if bytes then trimField 24 8 tgt (trimField 16 8 tgt (trimField 8 8 tgt (trimField 0 8 tgt w)))
  else trimField 16 16 tgt (trimField 0 16 tgt w)

/-- Word i of CH_TRIM is one that R452 gives a meaning. -/
def trimWord (w : Nat) : Bool := decide (w < 20 ∨ (24 ≤ w ∧ w < 32))

/-- A calibration step uses the channel (R455); in an interruption every channel is used (R457). -/
def stepUses (s : State) (n : Cluster) (c : Nat) : Bool :=
  calIntrOn s n || (calStepOn s n && bitOf (s.calSt n).using_ c)

/-- A write to a trim by a requester (R451, R453). A step is taken to use both generators (notes/assumptions/21.md). -/
def trimWrite (n : Cluster) (r : Reg) (i : Nat) (d m : Word) (s : State) : Act :=
  let busy := if r = .CH_TRIM then stepUses s n (i / 64 % 32) else calStepOn s n || calIntrOn s n
  if busy then .drop (s.setRb .CL_CAL_EVT n 3 true) else .ok (trimTarget n r i (plainWord s r i d m) s)

/-! ### The reference (R449, R450) -/

/-- CAL_STAT.REFV_OK. -/
def refvOk (s : State) : Bool := s.rb .CAL_STAT 0 0

/-- A reference calibration is asked for: tentering queues on semaphores 0 and 1 in one request (R352, R449). -/
def refRequest (s : State) : State :=
  if s.refDue then s else semCalRequest [0, 1] { s with refDue := true }

/-- A reference calibration is missing, or older than CAL_REF_INTV (R449). -/
def refStale (s : State) : Bool :=
  match s.refLast with
  | none => true
  | some x => decide (x + max 1 (s.rf .CAL_REF_INTV 0 0 16) * 8000000000 < s.clasp)

/-- A write to CAL_CTRL. -/
def calCtrlWrite (d m : Word) (s : State) : State :=
  let s1 := plainWrite .CAL_CTRL 0 d m s
  if ones d m 4 then refRequest s1 else s1

/-- A write to CAL_REFV_CERT (R460). -/
def certWrite (d m : Word) (s : State) : Act :=
  let w := plainWord s .CAL_REFV_CERT 0 d m
  if w.toNat < 4900000 ∨ 5100000 < w.toNat then .drop (s.setRb .CAL_EVT 0 2 true) else .ok (s.setReg .CAL_REFV_CERT 0 w)

/-- CAL_CTRL.REPORT selects COUNT, QUALITY (R459). -/
def repCount (s : State) : Bool := decide (s.rf .CAL_CTRL 0 0 2 ≠ 2)
def repQuality (s : State) : Bool := decide (2 ≤ s.rf .CAL_CTRL 0 0 2)

/-! ### Steps (R455, R458) -/

/-- Cluster n is quiet as R455 asks, at this moment. -/
def calQuiet (s : State) (n : Cluster) : Bool :=
  idleNow s n && decide (awgState s n 0 ≠ 1 ∧ awgState s n 0 ≠ 2 ∧ awgState s n 1 ≠ 1 ∧ awgState s n 1 ≠ 2) &&
    !cptRun s n 0 && !cptRun s n 1 && !flowClu s n && decide (govLevel s n < 3) && decide (pwrState s ≠ 3) &&
    (List.finRange 32).all fun c => !s.rb .CH_RG_STAT (chIx n c) 0 && !measBusy s n c

/-- The channels of cluster n in safe state. -/
def safeMask (s : State) (n : Cluster) : Word :=
  (List.finRange 32).foldl (fun w c => putBit w c.val (chSafe s n c)) 0#32

/-- The items of a full calibration, as cluster offsets: every trim, and the active page of the two correction tables
(R128, R234, R454). -/
def calItem (s : State) (n : Cluster) (off : Nat) : Bool :=
  let b := activeBand s n
  decide (off % 4 = 0) &&
    ((decide (0x16000 ≤ off ∧ off < 0x18000) && trimWord ((off - 0x16000) / 4 % 64)) ||
     decide (off = 0x15800 ∨ off = 0x15810) ||
     decide (0x14000 + 768 * b ≤ off ∧ off < 0x14000 + 768 * (b + 1)) ||
     decide (0x15000 + 256 * b ≤ off ∧ off < 0x15000 + 256 * (b + 1)))

/-- How many items a full calibration has: 28 trims for each of 32 channels, 2 for the generators, 192 and 64 corrections. -/
def calItems : Nat := 32 * 28 + 2 + 192 + 64

/-- The item is traced to REFV (R449's table). -/
def refvItem (off : Nat) : Bool :=
  decide (0x15800 ≤ off ∧ off < 0x16000) || (decide (0x16000 ≤ off) && decide ((off - 0x16000) / 4 % 64 < 20))

/-- The step cannot take the item: its channel is not used, or a stamp unit is enabled (R455). -/
def itemSkipped (s : State) (n : Cluster) (off : Nat) : Bool :=
  if 0x16000 ≤ off then !stepUses s n ((off - 0x16000) / 256)
  else if 0x15000 ≤ off ∧ off < 0x15800 then stampOn s n
  else false

/-- One result of a step is committed. -/
def commitItem (n : Cluster) (p : Nat × Word) (s : State) : State :=
  let off := p.1
  if !calItem s n off || itemSkipped s n off then s
  else if refvItem off && !refvOk s then s.setRb .CL_CAL_STAT n 12 true
  else
    let s1 := s.setCalSt n { s.calSt n with items := if (s.calSt n).items.contains off then (s.calSt n).items else off :: (s.calSt n).items }
    if 0x16000 ≤ off then
      let i := 2048 * n.val + (off - 0x16000) / 4 % 2048
      trimTarget n .CH_TRIM i p.2 s1
    else if 0x15800 ≤ off then trimTarget n .AWG_TRIM (2 * n.val + (off - 0x15800) / 16 % 2) p.2 s1
    else if 0x15000 ≤ off then s1.setReg .STCORR_TAB (320 * n.val + (off - 0x15000) / 4 % 320) (p.2 &&& 0x7FFF#32)
    else s1.setReg .CORR_TAB (960 * n.val + (off - 0x14000) / 4 % 960) (p.2 &&& 0x7FFF#32)

/-- The reports of a completion (R459); the manual states no residual, so those words are free. -/
def calReport (n : Cluster) (s : State) : State :=
  let s1 := if repCount s then (s.countWrap .CL_CAL_CNT n 32).setPair .CL_CAL_TLAST_LO .CL_CAL_TLAST_HI n s.clasp else s
  if repQuality s then
    (List.range 10).foldl (fun s k => let (w, s') := s.drawWord; s'.setReg .CL_CAL_QUAL (10 * n.val + k) w) s1
  else s1

/-- The calibration of cluster n is complete (R458). -/
def calComplete (n : Cluster) (s : State) : State :=
  let b := activeBand s n
  let s1 := ((s.setRb .CL_CAL_STAT n 0 false).setRb .CL_CAL_STAT n (6 + b) true).setRb .CL_CAL_EVT n 0 true
  let due := s.clasp + max 1 (s.rf .CAL_INTV b 0 16) * 8000000000
  let s2 := s1.setPair .CL_CAL_DUE_LO .CL_CAL_DUE_HI n due
  calReport n (s2.setCalSt n { s2.calSt n with deadline := none, items := [] })

/-- A step's results are committed; with every item done and none skipped for REFV, the calibration is complete (R450,
R455, R458). -/
def stepCommit (n : Cluster) (res : List (Nat × Word)) (s : State) : State :=
  let s0 := if refvOk s then s.setRb .CL_CAL_STAT n 12 false else s
  let s1 := res.foldl (fun s p => commitItem n p s) s0
  if calDueNow s1 n && !s1.rb .CL_CAL_STAT n 12 && decide ((s1.calSt n).items.length = calItems) then calComplete n s1 else s1

/-! ### Held starts (R456, R457, R477) -/

/-- One start that was held takes place: 0 the sequencer (element 0 a START, 1 a resume), 1 a generator, 2 a gate, 3 a
capture engine, 4 a measurement. -/
def heldStart (n : Cluster) (x : Nat × Nat) (s : State) : State :=
  let c : Channel := ⟨x.2 % 32, Nat.mod_lt _ (by decide)⟩
  let e : Fin 2 := ⟨x.2 % 2, Nat.mod_lt _ (by decide)⟩
  match x.1 with
  | 0 => if x.2 = 0 then seqStartOp n s else resumeOp n s
  | 1 => startOr n 1 e.val (awgStart n e) s
  | 2 => startLevel n 2 c.val (rgStart n c) s
  | 3 => startLevel n 3 e.val (cptStart n e) s
  | _ => startLevel n 4 c.val (startMeas n c none) s

/-- The starts that were held take place, in their order, unless the cluster is still interrupted or tested. -/
def releaseHeld (n : Cluster) (s : State) : State :=
  if calIntrOn s n || asyBusy s n then s
  else (s.calSt n).held.foldl (fun s x => heldStart n x s) (s.setCalSt n { s.calSt n with held := [] })

/-- R34 is applied to a channel for an interruption (R457). -/
def intrChannel (n : Cluster) (c : Channel) (s : State) : State :=
  if chSafe s n c then s
  else
    (endGate n c 5 false (endMeas n c s)).modChan n c fun x =>
      { x with sw := if x.sw = .opened then .opened else .opening, drvOn := false }

/-- A channel is restored to its registered state (R457): with CONNECT 1 its switch closes. -/
def intrBack (n : Cluster) (c : Channel) (s : State) : State :=
  if s.rb .CH_CTRL (chIx n c) 0 && !heldSafe s n c then s.modChan n c fun x => { x with sw := .closing } else s

end Sys2Proof.Machine
end

