-- ==== Sys2Proof/Machine/RingOps.lean ====
section
/-! DEFINITION. Sys2Proof/Machine/RingOps.lean: the ring interface (R387 to R406): CRC, slots as they are forwarded, messages of
the part, states, the correction. -/

namespace Sys2Proof.Machine

/-! ### CRC-16 (R390) -/

def crc16Bit (c : BitVec 16) : BitVec 16 := if c.getLsbD 15 then (c <<< 1) ^^^ 0x1021#16 else c <<< 1
def crc16Byte (c : BitVec 16) (b : Byte) : BitVec 16 :=
  crc16Bit (crc16Bit (crc16Bit (crc16Bit (crc16Bit (crc16Bit (crc16Bit (crc16Bit (c ^^^ (b.setWidth 16 <<< 8)))))))))
/-- CRC-16 with polynomial 0x1021, initial value 0xFFFF, no reflection, no inversion. -/
def crc16 (bs : List Byte) : Nat := (bs.foldl crc16Byte 0xFFFF#16).toNat

/-! ### Fields -/

def ringId (s : State) : Nat := s.rf .RING_CFG 0 0 5
def ringMaster (s : State) : Bool := s.rb .RING_CFG 0 8
def ringWire (s : State) : Nat := s.rf .RING_WIRE 0 0 14
def setRing (v : Ring) (s : State) : State := { s with ring := v }
def modRing (f : Ring → Ring) (s : State) : State := { s with ring := f s.ring }
def ringEvt (b : Nat) (s : State) : State := s.setRb .RING_EVT 0 b true

/-- STATE becomes v; RING_EVT.STATE where it changes. -/
def setRingState (v : Nat) (s : State) : State :=
  if ringState s = v then s else ringEvt 0 (s.setRf .RING_STAT 0 0 2 v)

/-- The interface enters OFF (R392, R406): bypass closed, nothing of the ring is kept but the number of the last flow done. -/
def ringOff (s : State) : State :=
  let s1 := (setRingState 0 s).setRb .RING_STAT 0 2 true
  modRing (fun r => { flowDone := r.flowDone }) (s1.setRb .RING_STAT 0 24 false)

/-- The state follows RING_CTRL.EN (R392): OFF while 0, TRAIN from OFF when 1. -/
def ringFollow (s : State) : State :=
  if !s.rb .RING_CTRL 0 0 then (if ringState s = 0 then s else ringOff s)
  else if ringState s = 0 then setRingState 1 s else s

/-! ### Messages of the part (R393 to R395) -/

/-- The priority of a type: RESID, ACC, TIME, START, HEALTH (R394). -/
def msgRank (type : Nat) : Nat :=
  match type with
  | 4 => 0
  | 3 => 1
  | 2 => 2
  | 1 => 3
  | _ => 4

/-- The message among those that wait, after all of its priority and above. -/
def msgInsert (m : RingMsg) : List RingMsg → List RingMsg
  | [] => [m]
  | x :: r => if msgRank m.type < msgRank x.type then m :: x :: r else x :: msgInsert m r

/-- The part queues a message; it can leave only on a ring in UP or SYNC (R392). -/
def ringQueue (type : Nat) (payload : List Byte) (s : State) : State :=
  if ringState s < 2 then s
  else
    let r := s.ring
    { s with ring := { r with seqno := (r.seqno + 1) % 8, queue := msgInsert ⟨type, ringId s, r.seqno, payload⟩ r.queue } }

/-- Cap with ROLE MASTER sends a START that carries TF (R316, R403). -/
def ringStartSend (tf : Nat) (s : State) : State := ringQueue 1 (leBytes 8 tf) s

/-- An ABORT is requested of this part (R404). -/
def ringAbortReq (s : State) : State :=
  if ringState s < 2 then s
  else { s with ring := { s.ring with abortAt := match s.ring.abortAt with | none => some s.clasp | x => x } }

/-- The master starts a calibration round (R397). -/
def ringRound (s : State) : State :=
  if ringMaster s ∧ 2 ≤ ringState s ∧ s.ring.round = 0 then
    { s with ring := { s.ring with round := 1, empties := 0, accBack := none, aBack := none } }
  else s

/-- A write to RING_CTRL (R392, R397, R404). -/
def ringCtrlWrite (d m : Word) (s : State) : State :=
  let s1 := ringFollow (plainWrite .RING_CTRL 0 d m s)
  let s2 := if ones d m 1 then ringRound s1 else s1
  if ones d m 3 then ringAbortReq s2 else s2

/-! ### Slots (R389 to R391) -/

/-- The slot, in ticks of the part's own grid, at which a slot whose comma came in at arr (codes) leaves again (R391): the
next boundary in SYNC, else the first at least 480 ticks after. -/
def slotOut (s : State) (arr : Nat) : Nat :=
  if ringState s = 3 then arr / 512 / 2560 + 1 else (arr / 512 + 480 + 2559) / 2560

/-- Symbol i of a slot. -/
def sym (slot : List Byte) (i : Nat) : Nat := (slot.getD i 0#8).toNat

/-- The slot's CRC is good. -/
def slotGood (slot : List Byte) : Bool :=
  decide (slot.length = 32) && decide (crc16 ((slot.drop 1).take 29) = sym slot 30 + 256 * sym slot 31)

/-- A slot as it leaves: SEQ, SENDER, ABORT, lines, message, CRC, inverted where the content is bad. -/
def slotBytes (s : State) (m : Nat) (abort : Nat) (lines : List Nat) (msg : RingMsg) (bad : Bool) : List Byte :=
  let body := [BitVec.ofNat 8 m, BitVec.ofNat 8 (ringId s), BitVec.ofNat 8 abort] ++
    lines.flatMap (fun w => leBytes 2 w) ++ [BitVec.ofNat 8 msg.type, BitVec.ofNat 8 (msg.origin + 32 * msg.seqno)] ++ msg.payload
  [0xBC#8] ++ body ++ leBytes 2 (if bad then 65535 - crc16 body else crc16 body)

/-- The LINE[k] field of a slot. -/
def lineField (slot : List Byte) (k : Nat) : Nat := sym slot (4 + 2 * k) + 256 * sym slot (5 + 2 * k)

/-- The action time of a valid field in slot m (R401). -/
def lineTime (m w : Nat) : Nat := 2560 * (m + w / 512 % 64) + 8 * (w % 512)

/-- The field of action time e in slot m: D 0 and OFS 0 where the time has passed. -/
def linePut (m e : Nat) : Nat :=
  if e < 2560 * m then 32768 else 32768 + min 63 (e / 2560 - m) * 512 + e % 2560 / 8

/-- The message of a slot. -/
def slotMsg (slot : List Byte) : RingMsg :=
  ⟨sym slot 20, sym slot 21 % 32, sym slot 21 / 32, (slot.drop 22).take 8⟩

/-- Something received is put aside for its row; in SLEEP a START, an ABORT or a trigger message to a line in use is a wake
cause (R426, R427). -/
def ringItem (x : RingItem) (s : State) : State :=
  let used := fun k => (List.finRange 24).any fun n => (List.range 8).any fun u =>
    trgEn s n u && decide (trgKind s n u = 3) && decide (trgSel s n u = k)
  let wakes := match x with | .start _ | .abort => true | .trigger k _ => used k | _ => false
  let s1 := { s with ring := { s.ring with inbox := s.ring.inbox ++ [x] } }
  if wakes && decide (pwrState s = 3) && s.rb .PWR_WAKE_EN 0 2 then s1.wake 4 else s1

/-- One line of a good slot passes: the field that leaves, and the state (R400 to R402). mi is the number of the slot as it
came in, mo as it leaves. -/
def lineStep (k w mi mo : Nat) (s : State) : Nat × State :=
  let mine := s.rb .RING_LINE_TX 0 k
  let r := s.ring
  let own := r.onRing.any fun x => decide (x.1 = k)
  let valid := decide (32768 ≤ w)
  let e := lineTime mi w
  let s1 :=
    if !valid then s
    else if own then { s with ring := { r with onRing := r.onRing.eraseP fun x => decide (x.1 = k) } }
    else if mine then ringEvt 10 s
    else ringItem (.trigger k e) s
  let w1 := if valid && !own && !mine then linePut mo e else 0
  match s1.ring.lines.find? fun x => decide (x.1 = k) with
  | some (_, (e', a)) =>
    if w1 = 0 ∧ a + 80 ≤ 2560 * mo then
      (linePut mo e', { s1 with ring := { s1.ring with lines := s1.ring.lines.eraseP fun x => decide (x.1 = k), onRing := s1.ring.onRing ++ [(k, e')] } })
    else (w1, s1)
  | none => (w1, s1)

/-- The eight lines of a good slot. -/
def lineSteps (slot : List Byte) (mi mo : Nat) (s : State) : List Nat × State :=
  (List.range 8).foldl (fun p k => let q := lineStep k (lineField slot k) mi mo p.2; (p.1 ++ [q.1], q.2)) ([], s)

/-- What a follower's f is: from the last TIME that came in (R397). -/
def ringF (s : State) : Nat :=
  s.ring.inbox.foldl (fun f x => match x with | .time _ f' _ => f' | _ => f) s.ring.f

/-- EMPTY. -/
def emptyMsg : RingMsg := ⟨0, 0, 0, List.replicate 8 0#8⟩

/-- A message of another part is accepted (R395) and acted on: the message that goes on, and the state. A START in a slot
with an ABORT is not delivered (R404). -/
def msgAccept (block : Bool) (m : RingMsg) (arr mo : Nat) (s : State) : RingMsg × State :=
  let r := s.ring
  let last := (r.seen.find? fun x => decide (x.1 = m.origin)).map Prod.snd
  if 6 ≤ m.type ∨ last = some (m.type, m.seqno) then (m, s)
  else
    let s1 := { s with ring := { r with seen := (m.origin, (m.type, m.seqno)) :: r.seen.filter fun x => decide (x.1 ≠ m.origin) } }
    let num := leNat m.payload
    match m.type with
    | 1 => (m, if block then s1 else ringItem (.start num) s1)
    | 2 => (m, if ringMaster s then s1 else ringItem (.time arr (2560 * 512 * mo - arr) num) s1)
    | 3 =>
      if ringMaster s then (m, s1)
      else
        let acc := num % 2 ^ 40
        let hops := num / 2 ^ 40 % 256
        ({ m with payload := leBytes 5 (acc + ringWire s + ringF s1) ++ leBytes 1 (hops + 1) ++ m.payload.drop 6 },
          ringItem (.acc acc hops) s1)
    | 4 => (m, if ringMaster s then s1 else ringItem (.resid (signed 32 (num % 2 ^ 32)) (num / 2 ^ 32 % 256)) s1)
    | _ => (m, ringItem (.health m.origin m.payload) s1)

/-- A message with the part's own number comes in: it returned, or the number is not the part's alone (R394, R395). -/
def msgBack (m : RingMsg) (arr mo : Nat) (s : State) : State :=
  let r := s.ring
  let num := leNat m.payload
  if m.type = 2 ∧ 2 ≤ r.round ∧ r.aBack = none then { s with ring := { r with aBack := some arr } }
  else
    match r.own with
    | some (o, _) =>
      if o.type = m.type ∧ o.seqno = m.seqno then
        let back := if m.type = 3 then some (num % 2 ^ 40, num / 2 ^ 40 % 256) else r.accBack
        { s with ring := { r with own := none, quiet := mo + 32, accBack := back } }
      else ringEvt 9 s
    | none => ringEvt 9 s

/-- What the part inserts into a slot that came in EMPTY (R394 to R397). -/
def msgOut (mo : Nat) (s : State) : RingMsg × State :=
  let r := s.ring
  match r.own with
  | some (o, (sent, k)) => if sent = 0 then (o, { s with ring := { r with own := some (o, (mo, k + 1)) } }) else (emptyMsg, s)
  | none =>
    if r.round = 2 then
      let m : RingMsg := ⟨3, ringId s, r.seqno, leBytes 6 0 ++ leBytes 2 r.roundNo⟩
      (m, { s with ring := { r with round := 3, seqno := (r.seqno + 1) % 8, own := some (m, (mo, 1)) } })
    else if mo < r.quiet then (emptyMsg, s)
    else
      match r.queue with
      | m :: rest =>
        if r.round = 1 ∧ 2 < msgRank m.type then
          let t := 2560 * mo
          let x : RingMsg := ⟨2, ringId s, r.seqno, leBytes 8 t⟩
          (x, { s with ring := { r with round := 2, seqno := (r.seqno + 1) % 8, tm := t * 512, aBack := none, accBack := none } })
        else (m, { s with ring := { r with queue := rest, own := some (m, (mo, 1)) } })
      | [] =>
        if r.round = 1 then
          let t := 2560 * mo
          let x : RingMsg := ⟨2, ringId s, r.seqno, leBytes 8 t⟩
          (x, { s with ring := { r with round := 2, seqno := (r.seqno + 1) % 8, tm := t * 512, aBack := none, accBack := none } })
        else (emptyMsg, s)

/-- The message field of a good slot passes. -/
def msgStep (block : Bool) (m : RingMsg) (arr mo : Nat) (s : State) : RingMsg × State :=
  if m.type = 0 then msgOut mo s
  else
    let s0 := if s.ring.round = 2 then { s with ring := { s.ring with round := 1 } } else s
    if m.origin = ringId s then (emptyMsg, msgBack m arr mo (if m.type = 2 then s else s0)) else msgAccept block m arr mo s0

/-- The ABORT symbol of a good slot passes: the symbol that leaves, whether this part originates an ABORT in it, and the
state (R404). -/
def abortStep (x mo : Nat) (s : State) : Nat × Bool × State :=
  let r := s.ring
  let inc := decide (128 ≤ x)
  let from_ := x % 32
  let own := inc && decide (from_ = ringId s)
  let s1 := if own then { s with ring := { r with abortOut := false } } else s
  let s2 := if inc && !own then ringItem .abort s1 else s1
  let mine := match s2.ring.abortAt with | some a => decide (a + 80 ≤ 2560 * mo) | none => false
  let fwd := inc && !own
  let y := if mine then (if fwd then 128 + min from_ (ringId s) else 128 + ringId s) else if fwd then x else 0
  (y, mine, if mine then { s2 with ring := { s2.ring with abortAt := none, abortOut := true } } else s2)

/-- A slot with good CRC passes in UP or SYNC. -/
def slotPass (slot : List Byte) (arr : Nat) (s : State) : State :=
  let mo := slotOut s arr
  let mi := arr / 512 / 2560
  let sender := sym slot 2 % 32
  let s1 := if s.ring.sender = some sender then s
    else ringEvt 2 ((setRing { s.ring with sender := some sender } s).setRf .RING_STAT 0 8 5 sender)
  let asked := s1.ring.abortAt.isSome
  let ab := abortStep (sym slot 3) mo s1
  let ln := lineSteps slot mi mo ab.2.2
  let ms := msgStep (decide (128 ≤ sym slot 3) || asked) (slotMsg slot) arr mo ln.2
  ms.2.emit (.slot (slotBytes s mo ab.1 ln.1 ms.1 false))

/-- A slot with bad CRC is forwarded with a bad CRC and not acted on (R391). -/
def slotBad (slot : List Byte) (arr : Nat) (s : State) : State :=
  let lines := (List.range 8).map fun k => lineField slot k
  ((ringEvt 6 s).count .RING_CRCERR 0 32).emit (.slot (slotBytes s (slotOut s arr) (sym slot 3) lines (slotMsg slot) true))

/-! ### The correction (R397, R398) -/

/-- Every part of the chip is idle as R398 asks before a step of the time base. -/
def stepIdle (s : State) : Bool :=
  ((List.finRange 24).all fun n =>
    idleNow s n && decide (awgState s n 0 ≠ 1 ∧ awgState s n 0 ≠ 2 ∧ awgState s n 1 ≠ 1 ∧ awgState s n 1 ≠ 2) &&
      !cptRun s n 0 && !cptRun s n 1 && (List.finRange 32).all fun c => !s.rb .CH_RG_STAT (chIx n c) 0) &&
    decide (s.rf .CAP_STAT 0 0 3 = 0 ∨ s.rf .CAP_STAT 0 0 3 = 2) &&
    (List.range 4).all fun h => decide (s.rf .TXN_STAT h 0 3 ≠ 2)

/-- The health word (R405). -/
def healthWord (s : State) : List Byte :=
  let up := s.rf .RING_STAT 0 8 5
  let lost := match s.ring.sender with | some k => s.rb .RING_PEERX k 30 | none => false
  let retired := ((List.range 24).filter fun n => s.rb .FLT_RET_CLU 0 n).length
  leBytes 8 (s.ring.flowDone % 65536 + 2 ^ 16 * s.rf .CAP_STAT 0 0 3 + 2 ^ 19 * b2n (s.rb .FLT_STAT 0 4) +
    2 ^ 20 * b2n (fatal s) + 2 ^ 21 * b2n (s.rb .FLT_STAT 0 5) + 2 ^ 22 * b2n (decide (ringState s = 3)) +
    2 ^ 23 * b2n lost + 2 ^ 24 * up + 2 ^ 32 * s.rf .GOV_STAT 0 0 16 + 2 ^ 48 * retired)

end Sys2Proof.Machine
end

