-- ==== Sys2Proof/Machine/CapOps.lean ====
section
/-! DEFINITION. Sys2Proof/Machine/CapOps.lean: Cap (R303 to R322): its tables and their check, starts-of-test, records, judging,
the datalog, ABORT, the end of a flow. -/

namespace Sys2Proof.Machine

/-! ### Fields and accesses -/

/-- CAP_STAT.STATE: 0 IDLE, 1 CHECK, 2 WAIT_SOT, 3 RUN, 4 FINISH. -/
def capState (s : State) : Nat := s.rf .CAP_STAT 0 0 3
def setCapState (v : Nat) (s : State) : State := s.setRf .CAP_STAT 0 0 3 v
/-- CAP_CTRL.ROLE is MASTER. -/
def capMaster (s : State) : Bool := decide (s.rf .CAP_CTRL 0 6 2 = 1)
/-- CAP_CTRL.SOT_SRC as it acts (R316). -/
def sotSrc (s : State) : Nat := s.rf .CAP_CTRL 0 4 2 % 3
def modCap (f : Cap → Cap) (s : State) : State := { s with cap := f s.cap }

/-- A field of a table entry. -/
def bf (d : List Byte) (i len : Nat) : Nat := leNat ((d.drop i).take len)

/-- An access of Cap would be refused. -/
def capRefused (s : State) (a len : Nat) : Bool := (refusalOf s .cap a len).isSome

/-- A refused read of Cap is noted (R315, R332). -/
def capNote (a len : Nat) (s : State) : State := (noteRefusals .cap false false a len s).setRb .CAP_STAT 0 10 true

/-- A write of Cap; a refused one is dropped and noted. -/
def capWrite (op : Option Bool) (a : Nat) (bytes : List Byte) (s : State) : State :=
  let s1 := memWrite .cap false op a bytes s
  if capRefused s a bytes.length then s1.setRb .CAP_STAT 0 10 true else s1

/-! ### The tables (R304 to R308) -/

def flowAt (s : State) : Nat := s.rf .CAP_FLOW_BASE 0 0 20 * 64
def mapAt (s : State) : Nat := s.rf .CAP_MAP_BASE 0 0 20 * 64
def mapCnt (s : State) : Nat := (s.reg .CAP_MAP_CNT 0).toNat

/-- A header that R304 permits. -/
def headerOk (h : List Byte) : Bool :=
  decide (bf h 0 4 = 0x574F4C46 ∧ bf h 4 2 = 1) && decide (1 ≤ bf h 6 2 ∧ bf h 6 2 ≤ 4096 ∧ bf h 8 4 ≤ 16384) &&
    decide (bf h 12 4 % 64 = 0 ∧ bf h 16 4 % 32 = 0) && decide (80000 ≤ bf h 20 8 ∧ bf h 20 8 < 2 ^ 32) &&
    decide (bf h 28 1 ≤ 63 ∧ bf h 29 1 ≤ 15)

/-- A branch of record r of nrec. -/
def nextOk (r nrec x : Nat) : Bool := decide (x = 65535 ∨ (r < x ∧ x < nrec))

/-- A record that R305 and R308 permit. -/
def recordOk (r nrec nlim : Nat) (b : List Byte) : Bool :=
  let kind := bf b 0 1
  decide (1 ≤ kind ∧ kind ≤ 3 ∧ bf b 12 1 ≤ 63 ∧ bf b 13 1 ≤ 15) &&
    (decide (kind = 3) || (nextOk r nrec (bf b 4 2) && nextOk r nrec (bf b 6 2) && decide (bf b 8 2 + bf b 10 2 ≤ nlim)))

/-- The clusters of a map entry with their masks (R307). -/
def siteParts (b : List Byte) : List (Nat × Word) :=
  (List.range (bf b 0 1 / 2 % 4 + 1)).map fun k => (bf b (8 + k) 1, BitVec.ofNat 32 (bf b (16 + 4 * k) 4))

/-- The pads of a site in order (R307). -/
def sitePads (parts : List (Nat × Word)) : List (Nat × Nat) :=
  parts.flatMap fun p => (indicesWhere 32 (bitOf p.2)).map fun c => (p.1, c)

/-- Entry i of the map is valid. -/
def mapEntry (s : State) (i : Nat) : List Byte := s.bytes (mapAt s + 32 * i) 32

/-- A valid site that R308 permits, beside the channels `used` by the sites before it. -/
def siteOk (used : List (Nat × Nat)) (parts : List (Nat × Word)) : Bool :=
  parts.all (fun p => decide (p.1 < 24) && decide (p.2 ≠ 0#32)) && decide ((parts.map Prod.fst).Nodup) &&
    decide ((sitePads parts).length ≤ 128) && (sitePads parts).all fun p => !used.contains p

/-- The first site of the map that is bad. -/
def badSite (s : State) : Nat → Nat → List (Nat × Nat) → Option Nat
  | 0, _, _ => none
  | k + 1, i, used =>
    let b := mapEntry s i
    if bf b 0 1 % 2 = 0 then badSite s k (i + 1) used
    else if siteOk used (siteParts b) then badSite s k (i + 1) (used ++ sitePads (siteParts b)) else some i

/-- What CHECK finds (R308, R315): error code, index, and the read that was refused. -/
structure CapErr where
  code : Nat
  idx : Nat
  read : Option (Nat × Nat)
  deriving DecidableEq, Repr

/-- The first of `n` entries of `len` bytes from a whose read is refused. -/
def refusedEntry (s : State) (a len n : Nat) : Option Nat := (List.range n).find? fun i => capRefused s (a + len * i) len

/-- The site map is checked. -/
def checkMap (s : State) : Option CapErr :=
  let n := mapCnt s
  if n = 0 ∨ 768 < n then some ⟨5, 0, none⟩
  else if mpSize < mapAt s + 32 * n then some ⟨6, 0, none⟩
  else
    match refusedEntry s (mapAt s) 32 n with
    | some i => some ⟨7, i, some (mapAt s + 32 * i, 32)⟩
    | none => (badSite s n 0 []).map fun i => ⟨5, i, none⟩

/-- The records and limits are checked. -/
def checkTables (s : State) (h : List Byte) (ra la : Nat) : Option CapErr :=
  let nrec := bf h 6 2
  let nlim := bf h 8 4
  match refusedEntry s ra 64 nrec with
  | some i => some ⟨7, i, some (ra + 64 * i, 64)⟩
  | none =>
    match refusedEntry s la 32 nlim with
    | some i => some ⟨7, i, some (la + 32 * i, 32)⟩
    | none =>
      if (crc32 (s.bytes ra (64 * nrec) ++ s.bytes la (32 * nlim))).toNat ≠ bf h 32 4 then some ⟨2, 0, none⟩
      else
        match (List.range nrec).find? fun r => !recordOk r nrec nlim (s.bytes (ra + 64 * r) 64) with
        | some r => some ⟨3, r, none⟩
        | none =>
          match (List.range nlim).find? fun l => decide (4 < bf (s.bytes (la + 32 * l) 32) 6 1) with
          | some l => some ⟨4, l, none⟩
          | none => checkMap s

/-- CHECK as a whole, in the order of R308. -/
def capCheck (s : State) : Option CapErr :=
  let a := flowAt s
  if mpSize < a + 64 then some ⟨6, 0, none⟩
  else if capRefused s a 64 then some ⟨7, 0, some (a, 64)⟩
  else
    let h := s.bytes a 64
    if !headerOk h then some ⟨1, 0, none⟩
    else
      let ra := a + bf h 12 4
      let la := a + bf h 16 4
      if mpSize < ra + 64 * bf h 6 2 ∨ mpSize < la + 32 * bf h 8 4 then some ⟨6, 0, none⟩ else checkTables s h ra la

/-- The sites of the map, none run yet. -/
def mapSites (s : State) : List CapSite :=
  (List.range (mapCnt s)).map fun i =>
    let b := mapEntry s i
    { valid := decide (bf b 0 1 % 2 = 1), label := bf b 2 2, parts := siteParts b, active := false, next := 0, bins := none,
      failed := false, untested := none, last := 0, test := 0, ended := none }

/-- What the tables say is taken over at the end of a good CHECK. -/
def capLoad (s : State) : State :=
  let h := s.bytes (flowAt s) 64
  let sites := mapSites s
  let clus := sites.foldl (fun w x => if x.valid then x.parts.foldl (fun w p => putBit w p.1 true) w else w) 0#32
  modCap (fun c => { c with clusters := clus, nrec := bf h 6 2, nlim := bf h 8 4, recAt := flowAt s + bf h 12 4,
                            limAt := flowAt s + bf h 16 4, lead := bf h 20 8, defS := bf h 28 1, defH := bf h 29 1, sites }) s

/-- f applied at every cluster of the active site map. -/
def capClusters (f : Cluster → State → State) (s : State) : State :=
  forClusters (fun n s => if bitOf s.cap.clusters n.val then f n s else s) s

/-! ### The datalog (R320) -/

/-- A record joins those to be written. -/
def dlogAdd (b : List Byte) (s : State) : State := modCap (fun c => { c with dlog := c.dlog ++ [b] }) s

/-- FLOW_START (3) and FLOW_END (4). -/
def flowRec (s : State) (type flags time : Nat) : List Byte :=
  [BitVec.ofNat 8 type, BitVec.ofNat 8 flags] ++ leBytes 2 (mapCnt s) ++ leBytes 2 (s.rf .CAP_FLOWNO 0 0 16) ++ leBytes 2 0 ++
    leBytes 8 time ++ leBytes 16 0

/-- Status, SBIN, HBIN and retest reason of a site. -/
def siteStatus (x : CapSite) : Nat := if x.untested.isSome then 2 else if x.failed then 1 else 0
def siteBins (x : CapSite) : Nat × Nat := if x.untested.isSome then (0, 255) else x.bins.getD (0, 255)
def siteReason (x : CapSite) : Nat := match x.untested with | some r => r.1 | none => 0

/-- SITE (2). -/
def siteRec (i : Nat) (x : CapSite) : List Byte :=
  [2#8, BitVec.ofNat 8 (siteStatus x)] ++ leBytes 2 i ++ leBytes 2 x.label ++
    [BitVec.ofNat 8 (siteBins x).1, BitVec.ofNat 8 (siteBins x).2] ++ leBytes 8 x.last ++ leBytes 8 (x.ended.getD 0) ++
    leBytes 2 (siteReason x) ++ leBytes 6 0

/-- The datalog window is full (R320): in STREAM mode Cap waits. -/
def dlogFull (s : State) : Bool :=
  !s.rb .CAP_CTRL 0 10 &&
    decide (idxNext (s.rf .CAP_DLOG_WPTR 0 0 20) (sizeOr (s.rf .CAP_DLOG_SIZE 0 0 20) 1048576) = s.rf .CAP_DLOG_RPTR 0 0 20)

/-- The oldest record goes to the window (R315, R320, R334). -/
def dlogWrite (s : State) : State :=
  match s.cap.dlog with
  | [] => s
  | b :: rest =>
    if dlogFull s then s
    else
      let w := s.rf .CAP_DLOG_WPTR 0 0 20
      let z := sizeOr (s.rf .CAP_DLOG_SIZE 0 0 20) 1048576
      let a := s.rf .CAP_DLOG_BASE 0 0 21 * 32 + w % z * 32
      let s1 := capWrite none a b s
      let s2 := if capRefused s a 32 then s1.setRb .CAP_STAT 0 11 true else s1
      modCap (fun c => { c with dlog := rest, written := c.written + 1 }) (s2.setRf .CAP_DLOG_WPTR 0 0 20 (idxNext w z))

/-! ### Sites -/

def capSiteAt (s : State) (i : Nat) : Option CapSite := s.cap.sites[i]?
def setCapSite (i : Nat) (x : CapSite) (s : State) : State := modCap (fun c => { c with sites := c.sites.set i x }) s

/-- Site i ends as it stands: defaults where it has no bin, and its SITE record (R309). -/
def siteEnd (i : Nat) (x : CapSite) (s : State) : State :=
  let x1 := { x with active := false, ended := some s.clasp,
                     bins := if x.untested.isSome then none else some (x.bins.getD (s.cap.defS, s.cap.defH)) }
  dlogAdd (siteRec i x1) (setCapSite i x1 s)

/-- Site i becomes UNTESTED (R313). -/
def siteUntested (i reason clu : Nat) (x : CapSite) (s : State) : State :=
  siteEnd i { x with untested := some (reason, if reason = 8 ∨ reason = 9 then 255 else clu) } (s.setRb .CAP_EVT 0 1 true)

/-- Every site that has not ended becomes UNTESTED. -/
def sitesUntested (reason clu : Nat) (s : State) : State :=
  (List.range s.cap.sites.length).foldl
    (fun s i => match capSiteAt s i with | some x => if x.active then siteUntested i reason clu x s else s | none => s) s

/-- A channel of the site is retired (R481). -/
def siteRetired (s : State) (x : CapSite) : Option Nat :=
  (x.parts.find? fun p => s.rb .FLT_RET_CLU 0 p.1 || decide (s.reg .FLT_RET_CH p.1 &&& p.2 ≠ 0#32)).map Prod.fst

/-! ### Start-of-test (R303, R309, R316) -/

/-- Sites become active, those with a retired channel UNTESTED. -/
def sitesBegin (s : State) : State :=
  (List.range s.cap.sites.length).foldl
    (fun s i => match capSiteAt s i with
      | some x =>
        if !x.valid then s
        else
          let x1 := { x with active := true, next := 0, bins := none, failed := false, untested := none, last := 0, test := 0, ended := none }
          match siteRetired s x with
          | some n => siteUntested i 1 n x1 s
          | none => setCapSite i x1 s
      | none => s) s

/-- FINISH follows when no site is active. -/
def capNext (s : State) : State := if s.cap.sites.any fun x => x.active then s else setCapState 4 s

/-- The flow starts. `tf`: the start time that a ring START carries. -/
def capBegin (tf : Option Nat) (s : State) : State :=
  let t := match tf with | some x => x | none => (s.clasp + s.cap.lead + 7) / 8 * 8
  let s1 := (((setCapState 3 s).setRf .CAP_STAT 0 10 2 0).countWrap .CAP_FLOWNO 0 32).setPair .CAP_TF_LO .CAP_TF_HI 0 t
  let s2 := modCap (fun c => { c with run := none, decided := none, dlog := [], written := 0, aborted := false, phase := 0, sotAt := s.clasp }) s1
  let n := tabGet 0 s2.life 24
  let s3 := capClusters calAbandon { s2 with life := tabSet 0 s2.life 24 (satInc (2 ^ 32 - 1) n) }
  let s4 := if capMaster s ∧ tf = none then ringStartSend t s3 else s3
  capNext (sitesBegin (dlogAdd (flowRec s4 3 0 t) s4))

/-- A start-of-test arrives (R317). -/
def capSot (tf : Option Nat) (s : State) : State :=
  if capState s = 2 then capBegin tf s else if 3 ≤ capState s then s.setRb .CAP_EVT 0 3 true else s

/-- A GO (R308). -/
def capGo (s : State) : State :=
  if capState s = 0 then (setCapState 1 s).setRf .CAP_STAT 0 3 8 0 else s

/-- The end of CHECK (R308, R315, R316). MP_REFUSED, which GO cleared, may be set again. -/
def capChecked (s : State) : State :=
  match capCheck s with
  | some e =>
    let s1 := match e.read with | some r => capNote r.1 r.2 s | none => s
    (((setCapState 0 s1).setRf .CAP_STAT 0 3 5 e.code).setReg .CAP_ERRIDX 0 (BitVec.ofNat 32 e.idx)).setRb .CAP_EVT 0 2 true
  | none => let s1 := setCapState 2 (capLoad s); if sotSrc s = 0 then capBegin none s1 else s1

/-! ### ABORT (R317) -/

/-- The flow stops: every running cluster gets an ABORT of Cap, sites not ended become UNTESTED. -/
def flowStop (reason clu : Nat) (s : State) : State :=
  let s1 := capClusters (fun n s => if seqIdle s n then s else abortSeq n 2 80 s) s
  setCapState 4 (modCap (fun c => { c with run := none, aborted := true }) (sitesUntested reason clu s1))

/-- An ABORT that Cap takes; with ROLE MASTER it also goes round the ring (R404). -/
def capAbort (s : State) : State :=
  match capState s with
  | 0 => s
  | 1 | 2 => (if capMaster s then ringAbortReq else id) (setCapState 0 s)
  | _ => (if capMaster s then ringAbortReq else id) (flowStop 8 255 s)

/-- A write to CAP_CTRL: GO, then ABORT. -/
def capCtrlWrite (d m : Word) (s : State) : State :=
  let s1 := plainWrite .CAP_CTRL 0 d m s
  let s2 := if ones d m 0 then capGo s1 else s1
  if ones d m 1 then capAbort s2 else s2

/-! ### Records (R309 to R312) -/

/-- The participating sites of record r. -/
def partSites (s : State) (r : Nat) : List Nat :=
  (List.range s.cap.sites.length).filter fun i =>
    match capSiteAt s i with | some x => x.active && decide (x.next = r) | none => false

/-- The clusters that hold one of the sites. -/
def sitesClus (s : State) (is : List Nat) : List Nat :=
  (List.range 24).filter fun n => is.any fun i =>
    match capSiteAt s i with | some x => x.parts.any fun p => decide (p.1 = n) | none => false

/-- The channels of cluster n of the valid sites for which p holds. -/
def sitesMask (s : State) (n : Nat) (p : Nat → Bool) : Word :=
  (List.range s.cap.sites.length).foldl
    (fun w i => match capSiteAt s i with
      | some x => if x.valid && p i then x.parts.foldl (fun w q => if q.1 = n then w ||| q.2 else w) w else w
      | none => w) 0#32

/-- The fence of cluster n is written: channels newly fenced are forced safe (R310). -/
def setFence (n : Cluster) (mask : Word) (s : State) : State :=
  forceMask n (mask &&& ~~~ s.reg .CAP_FENCE n) (s.setReg .CAP_FENCE n mask)

/-- Where the START of a cluster stands that Cap writes now: it is ignored, with the retest reason (R313). -/
def startIgnored (s : State) (n : Cluster) : Option Nat :=
  if cluRetired s n then some 1
  else if !idleNow s n || s.rb .CL_MR_STAT n 0 || patchBlocks s then some 7 else none

/-- A cluster's outcome so far. -/
def capMark (n reason : Nat) (s : State) : State :=
  modCap (fun c => { c with run := c.run.map fun x =>
    { x with clus := x.clus.map fun p => if p.1 = n ∧ p.2 = none then (n, some reason) else p } }) s

/-- Cap writes a cluster's START for a PAT record (R311). -/
def patStart (n : Cluster) (s : State) : State :=
  match s.cap.run with
  | none => s
  | some x =>
    let s1 := ((s.setRf .CL_SEQ_ADDR n 0 16 (bf x.bytes 16 2)).setPair .CL_SEQ_TSTART_LO .CL_SEQ_TSTART_HI n x.t).setRb .CL_SEQ_CTRL n 3 true
    let s2 := if bf x.bytes 1 1 / 2 % 2 = 1 then
        (s1.setRb .CL_HOP_CTRL n 0 true).setRf .CL_HOP_TAIL n 0 16 (s1.rf .CL_HOP_TAIL n 0 16 + bf x.bytes 18 2)
      else s1
    let s3 := match startIgnored s2 n with | some r => capMark n.val r s2 | none => s2
    seqStartOp n s3

/-- What Cap does for a cluster before its START (R311). -/
def patPrepare (n : Cluster) (s : State) : State :=
  match s.cap.run with
  | none => s
  | some x =>
    let cnt := bf x.bytes 24 2
    let base := bf x.bytes 20 4 + n.val * cnt
    let s1 := if s.rb .CL_MR_STAT n 0 then abandonOp n s else s
    let s2 := (s1.setRf .CL_MR_RES_BASE n 0 17 base).setRf .CL_MR_RES_CNT n 0 16 cnt
    let a := s2.rf .CL_MR_RES_BASE n 0 17 * 512
    let s3 := (List.range (cnt * 32)).foldl (fun s i => capWrite (some true) (a + 16 * i + 12) [0#8, 0#8, 0#8, 0x80#8] s) s2
    if !seqIdle s3 n && (s3.seq n).unwind then
      modCap (fun c => { c with run := c.run.map fun y => { y with later := y.later ++ [n.val] } }) s3
    else patStart n s3

/-- The pads of the record in cluster n: those of the participating sites within P_FIRST to P_LAST. -/
def recPads (s : State) (x : CapRun) (i : Nat) : List (Nat × Nat) :=
  match capSiteAt s i with
  | some y => ((sitePads y.parts).take (bf x.bytes 18 2 + 1)).drop (bf x.bytes 16 2)
  | none => []

/-- Cap arms the gate of a pad (R312). -/
def rgArm (t : Nat) (b : List Byte) (n : Cluster) (c : Channel) (s : State) : State :=
  let ix := chIx n c
  if s.rb .CH_RG_STAT ix 0 then capMark n.val 7 s
  else
    let s1 := s.setPair .CH_RG_TSTART_LO .CH_RG_TSTART_HI ix t
    let s2 := s1.setPair .CH_RG_GLEN_LO .CH_RG_GLEN_HI ix (max 8000 (min 80000000000 (bf b 32 8)))
    let s3 := if 3 ≤ govLevel s n then capMark n.val 8 s2 else s2
    rgCtrlWrite n c (BitVec.ofNat 32 (5 + 16 * (bf b 20 1 % 2))) 0x1FD#32 s3

/-- A pad as cluster and channel. -/
def padClu (p : Nat × Nat) : Cluster := ⟨p.1 % 24, Nat.mod_lt _ (by decide)⟩
def padCh (p : Nat × Nat) : Channel := ⟨p.2 % 32, Nat.mod_lt _ (by decide)⟩

/-- f applied at each cluster of a list. -/
def atClusters (ns : List Nat) (f : Cluster → State → State) (s : State) : State :=
  ns.foldl (fun s n => f (padClu (n, 0)) s) s

/-- A BIN record (R305, R309): bins are assigned and the sites end. -/
def binRecord (b : List Byte) (r : Nat) (is : List Nat) (s : State) : State :=
  is.foldl
    (fun s i => match capSiteAt s i with
      | some x => siteEnd i { x with bins := some (bf b 12 1, bf b 13 1), last := r, test := bf b 2 2 } s
      | none => s) s

/-- The lowest next record among the active sites. -/
def nextRecord (s : State) : Option Nat :=
  s.cap.sites.foldl (fun m x => if x.active then (match m with | none => some x.next | some y => some (min y x.next)) else m) none

/-- Record r runs (R309 to R312, R315). -/
def recordStart (r : Nat) (s : State) : State :=
  let a := s.cap.recAt + 64 * r
  if capRefused s a 64 then flowStop 7 255 (capNote a 64 s)
  else
    let b := s.bytes a 64
    let is := partSites s r
    let clus := sitesClus s is
    let t := match s.cap.decided with
      | none => s.pair .CAP_TF_LO .CAP_TF_HI 0
      | some d => (d + (s.reg .CAP_LEAD 0).toNat + 7) / 8 * 8
    let s1 := s.setRf .CAP_STAT 0 16 12 r
    let s2 := atClusters clus (fun n s => setFence n (sitesMask s n.val fun i => !is.contains i) (ungate n.val s)) s1
    if bf b 0 1 = 3 then capNext (modCap (fun c => { c with decided := some s.clasp }) (binRecord b r is s2))
    else
      let x : CapRun := { r, t, bytes := b, clus := clus.map fun n => (n, none), later := [], timedOut := false }
      let mark := fun (i : Nat) (y : CapSite) => if is.contains i then { y with last := r, test := bf b 2 2 } else y
      let s3 := modCap (fun c => { c with run := some x, sites := c.sites.mapIdx mark }) s2
      if bf b 0 1 = 2 then
        is.foldl (fun s i => (recPads s x i).foldl (fun s p => rgArm t b (padClu p) (padCh p) s) s) s3
      else atClusters clus patPrepare s3

/-- Clusters whose START waited for an unwind get it now (R311). -/
def recordLater (s : State) : State :=
  match s.cap.run with
  | none => s
  | some x =>
    let now := x.later.filter fun n => idleNow s (padClu (n, 0))
    let s1 := modCap (fun c => { c with run := some { x with later := x.later.filter fun n => !now.contains n } }) s
    atClusters now patStart s1

/-- A start of kind k, element e is held on cluster n. -/
def heldOn (s : State) (n : Cluster) (k e : Nat) : Bool := (s.calSt n).held.contains (k, e)

/-- The record in progress has ended (R311, R312). -/
def recordOver (s : State) (x : CapRun) : Bool :=
  if bf x.bytes 0 1 = 2 then
    (partSites s x.r).all fun i => (recPads s x i).all fun p =>
      !s.rb .CH_RG_STAT (chIx (padClu p) (padCh p)) 0 && !heldOn s (padClu p) 2 (padCh p).val
  else
    decide (x.later = []) && x.clus.all fun p => idleNow s (padClu (p.1, 0)) && !heldOn s (padClu (p.1, 0)) 0 0

/-- TIMEOUT (R311): every cluster of the record still running gets an ABORT. -/
def recordTimeout (x : CapRun) (s : State) : State :=
  let run := x.clus.filter fun p => !seqIdle s (padClu (p.1, 0))
  let s1 := modCap (fun c => { c with run := some { x with timedOut := true } }) s
  run.foldl (fun s p => capMark p.1 9 (abortSeq (padClu (p.1, 0)) 2 80 s)) s1

/-! ### Judging (R306, R313 to R315) -/

/-- The retest reason of a CL_SEQ_RES.CODE (R182, R313). -/
def codeReason (code : Nat) : Option Nat :=
  match code with
  | 1 => none
  | 2 => some 8
  | 4 | 13 => some 1
  | 5 => some 2
  | 6 => some 3
  | 7 => some 5
  | 8 => some 4
  | 9 => some 6
  | _ => some 7

/-- The retest reason of a CH_RG_STAT.END (R243, R313). -/
def gateReason (cause : Nat) : Option Nat :=
  match cause with
  | 1 | 2 => none
  | 3 => some 8
  | 5 | 6 => some 1
  | 7 => some 5
  | _ => some 7

/-- The outcome of one slot of a site (R313, R481). -/
def slotReason (s : State) (x : CapRun) (i : Nat) (p : Nat × Word) : Option Nat :=
  let n := padClu (p.1, 0)
  let known := ((x.clus.find? fun q => decide (q.1 = p.1)).map Prod.snd).getD none
  let code := s.rf .CL_SEQ_RES n 0 4
  let own :=
    if bf x.bytes 0 1 = 2 then
      ((recPads s x i).filter fun q => decide (q.1 = p.1)).findSome? fun q =>
        gateReason (s.rf .CH_RG_STAT (chIx (padClu q) (padCh q)) 13 3)
    else codeReason code
  if cluRetired s n || decide (s.reg .FLT_RET_CH n &&& p.2 ≠ 0#32) then some 1
  else
    match known with
    | some 9 => if code = 2 then some 9 else own
    | some r => some r
    | none => own

/-- The words of the regression result that the gate wrote last. -/
def rgWord (s : State) (n : Cluster) (c : Channel) (k : Nat) (r : Reg) : Nat :=
  match (s.chan n c).rgHeld with
  | some ws => (ws.getD k 0#32).toNat
  | none => (s.reg r (chIx n c)).toNat

/-- A quantity of a pad (R306): its value, whether it is invalid, whether it carries TIMING_BAND_STALE. -/
def quantity (s : State) (rg : Bool) (n : Cluster) (c : Channel) (qty r : Nat) : Int × Bool × Bool :=
  let ix := chIx n c
  let bad := !rg || !s.rb .CH_RG_STAT ix 2
  let stale := s.rb .CH_RG_STAT ix 8
  match qty with
  | 0 => ((s.reg .CL_SEQ_FCNT ix).toNat, rg, s.rb .CL_SEQ_RES n 20)
  | 1 =>
    let b := s.bytes ((s.rf .CL_MR_RES_BASE n 0 17 + r) * 512 + 16 * c.val) 16
    let w := bf b 0 4
    (signed 24 w, decide (bf b 15 1 < 128) || decide (w / 2 ^ 31 % 2 = 0) || decide (w / 2 ^ 29 % 2 = 1), decide (bf b 15 1 / 4 % 2 = 1))
  | 2 => ((rgWord s n c 6 .CH_RG_FREQ_LO + 2 ^ 32 * rgWord s n c 7 .CH_RG_FREQ_HI : Nat), bad, stale)
  | 3 => ((rgWord s n c 4 .CH_RG_PER_LO + 2 ^ 32 * rgWord s n c 5 .CH_RG_PER_HI : Nat), bad, stale)
  | _ => (rgWord s n c 8 .CH_RG_RESID, bad, stale)

/-- One pad against one limit entry (R306): whether it fails, and its LIMIT record. -/
def judgePad (s : State) (x : CapRun) (i : Nat) (l : Nat) (e : List Byte) (pad : Nat) (p : Nat × Nat) : Bool × List Byte :=
  let n := padClu p
  let q := quantity s (decide (bf x.bytes 0 1 = 2)) n (padCh p) (bf e 6 1) (bf e 4 2)
  let lo := signed 64 (bf e 8 8)
  let hi := signed 64 (bf e 16 8)
  let ok := !q.2.1 && (decide (bf e 7 1 % 2 = 0) || decide (lo ≤ q.1)) && (decide (bf e 7 1 / 2 % 2 = 0) || decide (q.1 ≤ hi))
  let flags := b2n (!ok) + 2 * b2n q.2.1 + 4 * b2n q.2.2 + 8 * b2n (s.rb .CL_SEQ_RES n 18)
  (!ok, [1#8, BitVec.ofNat 8 flags] ++ leBytes 2 i ++ leBytes 2 (bf x.bytes 2 2) ++ leBytes 2 pad ++
    leBytes 8 (unsigned 64 q.1) ++ leBytes 8 x.t ++ leBytes 2 x.r ++ leBytes 2 l ++ leBytes 4 0)

/-- The limit entries of the record. -/
def recLimits (x : CapRun) : List Nat := (List.range (bf x.bytes 10 2)).map fun k => bf x.bytes 8 2 + k

/-- The pads of site y that entry e covers, with their numbers. -/
def limPads (y : CapSite) (e : List Byte) : List (Nat × (Nat × Nat)) :=
  (((sitePads y.parts).mapIdx fun k p => (k, p)).filter fun q => decide (bf e 0 2 ≤ q.1 ∧ q.1 ≤ bf e 2 2))

/-- The first routine result of site y that Cap may not read (R315). -/
def resultRefused (s : State) (x : CapRun) (y : CapSite) : Option (Nat × Nat) :=
  (recLimits x).findSome? fun l =>
    let e := s.bytes (s.cap.limAt + 32 * l) 32
    if bf e 6 1 = 1 then
      (limPads y e).findSome? fun q =>
        let a := (s.rf .CL_MR_RES_BASE (padClu q.2) 0 17 + bf e 4 2) * 512 + 16 * q.2.2
        if capRefused s a 16 then some (q.2.1, a) else none
    else none

/-- A site whose clusters all have a result is judged under R306. -/
def judgeLimits (x : CapRun) (i : Nat) (y : CapSite) (s : State) : State :=
  let rows := (recLimits x).flatMap fun l =>
    let e := s.bytes (s.cap.limAt + 32 * l) 32
    (limPads y e).map fun q => judgePad s x i l e q.1 q.2
  let patchk := decide (bf x.bytes 1 1 % 2 = 1) && y.parts.any fun p => decide (s.reg .CL_SEQ_FFVALID p.1 &&& p.2 ≠ 0#32)
  let fails := patchk || rows.any Prod.fst
  let level := s.rf .CAP_CTRL 0 8 2
  let kept := if level = 0 then [] else if level = 1 then rows.filter Prod.fst else rows
  let s1 := kept.foldl (fun s p => dlogAdd p.2 s) s
  let y1 := if fails then { y with failed := true, bins := some (bf x.bytes 12 1, bf x.bytes 13 1) } else y
  let next := if fails then bf x.bytes 6 2 else bf x.bytes 4 2
  if next = 65535 then siteEnd i y1 s1 else setCapSite i { y1 with next := next } s1

/-- A participating site is judged (R313). -/
def judgeSite (x : CapRun) (i : Nat) (s : State) : State :=
  match capSiteAt s i with
  | none => s
  | some y =>
    match y.parts.findSome? fun p => (slotReason s x i p).map fun r => (r, p.1) with
    | some (r, n) => siteUntested i r n y s
    | none =>
      match resultRefused s x y with
      | some (n, a) => siteUntested i 7 n y (capNote a 16 s)
      | none => judgeLimits x i y s

/-- The record is judged (R314, R315). -/
def recordEnd (x : CapRun) (s : State) : State :=
  match (recLimits x).find? fun l => capRefused s (s.cap.limAt + 32 * l) 32 with
  | some l => flowStop 7 255 (capNote (s.cap.limAt + 32 * l) 32 s)
  | none =>
    let s1 := (partSites s x.r).foldl (fun s i => judgeSite x i s) s
    capNext (modCap (fun c => { c with run := none, decided := some s.clasp }) s1)

/-! ### FINISH (R319, R321, R322) -/

/-- The entry of an UNTESTED site in the retest list (R321). -/
def retestEntry (i : Nat) (x : CapSite) : List Byte :=
  match x.untested with
  | some (r, n) => leBytes 2 i ++ leBytes 1 r ++ leBytes 1 n ++ leBytes 2 x.last ++ leBytes 2 x.test
  | none => []

/-- The retest list. -/
def retestList (s : State) : List (List Byte) :=
  (s.cap.sites.mapIdx fun i x => (i, x)).filterMap fun p => if p.2.untested.isSome then some (retestEntry p.1 p.2) else none

/-- CAP_SITE of a site (R324). -/
def siteWord (x : CapSite) : Word :=
  if x.ended = none then 0xFF000000#32
  else BitVec.ofNat 32 ((siteBins x).2 * 2 ^ 24 + (siteBins x).1 % 64 * 2 ^ 18 + siteStatus x * 2 ^ 16 + siteReason x * 2 ^ 12 + x.last % 4096)

/-- Sites of the flow in a bin. -/
def binCount (s : State) (p : Nat × Nat → Bool) : Nat :=
  (s.cap.sites.filter fun x => x.ended.isSome && !x.untested.isSome && p (siteBins x)).length

/-- Step 2 of FINISH: the retest list, the site and bin registers, the FLOW_END record. -/
def finishLists (s : State) : State :=
  let es := retestList s
  let a := s.rf .CAP_RT_BASE 0 0 23 * 8
  let s1 := (es.mapIdx fun k e => (k, e)).foldl
    (fun s p =>
      let s' := capWrite none (a + 8 * p.1) p.2 s
      if capRefused s (a + 8 * p.1) 8 then s'.setRb .CAP_STAT 0 11 true else s') s
  let s2 := s1.setReg .CAP_RT_CNT 0 (BitVec.ofNat 32 es.length)
  let s3 := (List.range 768).foldl
    (fun s i => s.setReg .CAP_SITE i (match capSiteAt s i with | some x => siteWord x | none => 0xFF000000#32)) s2
  let s4 := (List.range 16).foldl (fun s b => s.setReg .CAP_HBIN_CNT b (BitVec.ofNat 32 (binCount s fun p => decide (p.2 = b)))) s3
  let s5 := (List.range 64).foldl (fun s b => s.setReg .CAP_SBIN_CNT b (BitVec.ofNat 32 (binCount s fun p => decide (p.1 = b)))) s4
  modCap (fun c => { c with phase := 1 }) (dlogAdd (flowRec s5 4 (b2n s5.cap.aborted) s5.clasp) s5)

/-- Step 3 of FINISH: the copy to the host (R322). -/
def finishDma (s : State) : State :=
  if !s.rb .CAP_DMA 0 3 then s
  else
    let h := s.rf .CAP_DMA 0 0 2
    let s0 := s.setRf .CAP_STAT 0 8 2 0
    if !linkUp s h then s0.setRb .CAP_STAT 0 9 true
    else
      let size := (s.reg .CAP_HBUF_SIZE 0).toNat
      let buf := s.pair .CAP_HBUF_LO .CAP_HBUF_HI 0
      let rt := s.rf .CAP_RT_BASE 0 0 23 * 8
      let n := (s.reg .CAP_RT_CNT 0).toNat
      let n1 := min n (size / 8)
      let z := sizeOr (s.rf .CAP_DLOG_SIZE 0 0 20) 1048576
      let w := s.rf .CAP_DLOG_WPTR 0 0 20
      let k := min s.cap.written z
      let k1 := min k ((size - 6144) / 32)
      let recs := (List.range k1).flatMap fun i => s.bytes (s.rf .CAP_DLOG_BASE 0 0 21 * 32 + (w + z - k + i) % z * 32) 32
      let s1 := if n1 < n ∨ k1 < k then s0.setRb .CAP_STAT 0 8 true else s0
      let s2 := if n1 = 0 then s1 else s1.emit (.hostWrite h buf (s.bytes rt (8 * n1)))
      let s3 := if k1 = 0 then s2 else s2.emit (.hostWrite h (buf + 6144) recs)
      msixSend h (s.rf .CAP_DMA 0 8 8) s3

/-- The end-of-test frame (R318). -/
def eotFrame (s : State) : List Byte :=
  [if s.cap.aborted then 3#8 else 2#8] ++ leBytes 2 (mapCnt s) ++
    (List.range (mapCnt s)).map fun i => BitVec.ofNat 8 (fld (s.reg .CAP_SITE i) 24 8)

/-- Step 5: every part that a master awaits reports this flow done, or has lost its heartbeat (R319). -/
def partsDone (s : State) : Bool :=
  (List.range 32).all fun k => !s.rb .CAP_RING_MASK 0 k || s.rb .RING_PEERX k 30 ||
    (s.rb .RING_PEERX k 31 && decide (s.rf .RING_PEER k 0 16 = s.rf .CAP_FLOWNO 0 0 16))

/-- A part awaited has lost its heartbeat without reporting this flow done. -/
def partsLost (s : State) : Bool :=
  (List.range 32).any fun k => s.rb .CAP_RING_MASK 0 k && s.rb .RING_PEERX k 30 &&
    !decide (s.rf .RING_PEER k 0 16 = s.rf .CAP_FLOWNO 0 0 16)

/-- A flow's retirements and the fatal state make the part ask for replacement (R480, R482). -/
def replaceNow (s : State) : State :=
  let s1 := { s with life := tabSet 0 s.life 28 (tabGet 0 s.life 28 ||| 1) }
  { (s1.setRb .FLT_STAT 0 4 true).setRb .FLT_EVT 0 4 true with replaceWait := false }

/-- Steps 3 and 4 of FINISH. -/
def finishEnd (s : State) : State :=
  let s1 := (finishDma s).setRb .CAP_EVT 0 0 true
  let s2 := modCap (fun c => { c with phase := 2 }) s1
  let s3 := { s2 with ring := { s2.ring with flowDone := s2.rf .CAP_FLOWNO 0 0 32 } }
  if s3.replaceWait then replaceNow s3 else s3

/-- Step 5, and the end of the flow (R310, R317). -/
def finishLast (s : State) : State :=
  let eot := s.rb .CAP_CTRL 0 3
  let s1 := if eot && capMaster s && partsLost s then s.setRb .CAP_EVT 0 4 true else s
  let s2 := if eot then s1.emit (.frame (eotFrame s1)) else s1
  let s3 := (List.range 24).foldl (fun s n => s.setReg .CAP_FENCE n 0#32) s2
  let s4 := s3.setPair .CAP_TEND_LO .CAP_TEND_HI 0 s3.clasp
  modCap (fun c => { c with phase := 0 }) (setCapState (if s.rb .CAP_CTRL 0 11 then 2 else 0) s4)

/-- FINISH may begin: every Assay run started during the flow has ended; after an ABORT the clusters have stopped, so that
held contexts can be abandoned (R317, R319). -/
def finishReady (s : State) : Bool :=
  decide (s.cap.dlog = []) && s.assay.all (fun e => decide (e.2.since < s.cap.sotAt)) &&
    (!s.cap.aborted || (List.finRange 24).all fun n => !bitOf s.cap.clusters n.val || idleNow s n || (s.seq n).unwind)

end Sys2Proof.Machine
end

