-- ==== Sys2Proof/Machine/HostOps.lean ====
section
/-! DEFINITION. Sys2Proof/Machine/HostOps.lean: host domains (R359 to R370): their resets and links, DMA channels, the role of
the management owner, and a transaction's opening, commit request and end (R377 to R383). -/

namespace Sys2Proof.Machine

/-! ### DMA channels (R364 to R366) -/

/-- The registers of DMA channel k. -/
def dmaCtrl (k : Fin 2) : Reg := if k = 0 then .HDMA0_CTRL else .HDMA1_CTRL
def dmaLo (k : Fin 2) : Reg := if k = 0 then .HDMA0_RING_LO else .HDMA1_RING_LO
def dmaHi (k : Fin 2) : Reg := if k = 0 then .HDMA0_RING_HI else .HDMA1_RING_HI
def dmaSize (k : Fin 2) : Reg := if k = 0 then .HDMA0_RSIZE else .HDMA1_RSIZE
def dmaTail (k : Fin 2) : Reg := if k = 0 then .HDMA0_TAIL else .HDMA1_TAIL
def dmaHead (k : Fin 2) : Reg := if k = 0 then .HDMA0_HEAD else .HDMA1_HEAD

/-- A descriptor is posted or in progress: EN is 1 and HEAD has not reached TAIL. -/
def dmaBusy (s : State) (h : Nat) (k : Fin 2) : Bool :=
  s.rb (dmaCtrl k) h 0 && decide (s.rf (dmaHead k) h 0 16 ≠ s.rf (dmaTail k) h 0 16)

/-- The host address of the status DWORD of the descriptor at HEAD (R364). -/
def dmaStatusAt (s : State) (h : Nat) (k : Fin 2) : Nat :=
  let size := max 1 (s.rf (dmaSize k) h 0 13)
  s.pair (dmaLo k) (dmaHi k) h + s.rf (dmaHead k) h 0 16 % size * 32 + 20

/-- The status DWORD is written: DONE and CODE. -/
def dmaStatus (h : Nat) (k : Fin 2) (code : Nat) (s : State) : State :=
  s.emit (.hostWrite h (dmaStatusAt s h k) (leBytes 4 (2 ^ 31 + code)))

/-- The channel stops (R366): EN cleared, HEAD stays, DMA_ERR. -/
def dmaStop (h : Nat) (k : Fin 2) (s : State) : State :=
  (s.setRb (dmaCtrl k) h 0 false).setRb .HL_EVT h (2 + k.val) true

/-! ### Domains -/

/-- The registers that a DOMAIN reset of h resets at index h (R370, R384, R385). -/
def domainRegs : List Reg :=
  [.HL_STAT, .HL_CTRL, .HL_EVT, .HL_EVT_EN, .HL_RERR, .HL_RERR_ADDR, .HDMA0_CTRL, .HDMA0_RING_LO, .HDMA0_RING_HI,
   .HDMA0_RSIZE, .HDMA0_TAIL, .HDMA0_HEAD, .HDMA1_CTRL, .HDMA1_RING_LO, .HDMA1_RING_HI, .HDMA1_RSIZE, .HDMA1_TAIL,
   .HDMA1_HEAD, .TXN_CTRL, .TXN_STAT, .TXN_TIME_LO, .TXN_TIME_HI, .TXN_RES, .TXN_FAIL_ADDR, .TXN_FAIL_RES, .TXN_TDONE_LO,
   .TXN_TDONE_HI, .TXN_CNT]

/-- EVT_PEND of domain h. -/
def evtPend (h : Nat) : Reg :=
  match h with
  | 0 => .EVT_PEND0
  | 1 => .EVT_PEND1
  | 2 => .EVT_PEND2
  | _ => .EVT_PEND3

/-- Element i of r goes to its value after POR. -/
def resetElem (r : Reg) (i : Nat) (s : State) : State := s.setReg r i (r.porOf i)

/-- A DOMAIN reset of h (R370, R515): its registers, its MSI-X table and PBA, its transaction, its semaphores; its lottery
requester is masked. -/
def domainReset (h : Nat) (s : State) : State :=
  let s1 := domainRegs.foldl (fun s r => resetElem r h s) s
  let s2 := (List.range 36).foldl (fun s i => resetElem (evtPend h) i s) s1
  let s3 := { s2 with msix := s2.msix.filter fun e => decide (e.1 / 256 ≠ h) }
  let s4 := { s3 with pba := s3.pba.filter fun e => decide (e.1 / 2 ≠ h) }
  lotMask h (semPurge h { s4 with txns := tabSet { } s4.txns h { } })

/-- Domain h enters D3hot (R347, R366): its requester is masked, its descriptors end with STOPPED; the link can carry no
status any more. -/
def domainSleep (h : Nat) (s : State) : State :=
  let stop := fun (k : Fin 2) (s : State) => if dmaBusy s h k then dmaStop h k s else s
  lotMask h ((((stop 1 (stop 0 s)).setRf .HL_STAT h 7 2 3).setRb .HL_STAT h 9 true).setRb .HL_EVT h 8 true)

/-- A write to DOM_MGMT (R368, R384): values 4 and 6 are refused. -/
def mgmtSet (d m : Word) (s : State) : Act :=
  let w := plainWord s .DOM_MGMT 0 d m
  if fld w 0 3 = 4 ∨ fld w 0 3 = 6 then .drop s else .ok (s.setReg .DOM_MGMT 0 w)

/-- The management serial slave may take the role (R368). -/
def mgmtTake (s : State) (r : Req) (d m : Word) : Bool :=
  decide (r = 5) && decide (fld (plainWord s .DOM_MGMT 0 d m) 0 3 = 5) && decide (s.rf .DOM_MGMT 0 0 3 < 4) &&
    lotMasked s (s.rf .DOM_MGMT 0 0 3)

/-- A write to DOM_CLU[n] (R369, R384): value 6 is refused. -/
def cluOwnerSet (n : Nat) (d m : Word) (s : State) : Act :=
  let w := plainWord s .DOM_CLU n d m
  if fld w 0 3 = 6 then .drop s else .ok (s.setReg .DOM_CLU n w)

/-! ### Transactions -/

def State.txn (s : State) (h : Nat) : Txn := tabGet { } s.txns h
def State.setTxn (s : State) (h : Nat) (v : Txn) : State := { s with txns := tabSet { } s.txns h v }

/-- TXN_STAT.STATE: 0 IDLE, 1 OPEN, 2 PENDING. -/
def txnState (s : State) (h : Nat) : Nat := s.rf .TXN_STAT h 0 3

/-- The transaction ends (R382): STATE, TXN_RES, TXN_FAIL_ADDR, TXN_FAIL_RES, HL_EVT.TXN. -/
def txnEnd (h code idx addr res : Nat) (s : State) : State :=
  ((((((s.setTxn h { }).setRf .TXN_STAT h 0 3 0).setReg .TXN_RES h (BitVec.ofNat 32 (65536 * idx + code))).setReg
    .TXN_FAIL_ADDR h (BitVec.ofNat 32 (addr % 2 ^ 26))).setReg .TXN_FAIL_RES h (BitVec.ofNat 32 res))).setRb .HL_EVT h 6 true

/-- The address of the staged write at index i, 0 where there is none. -/
def stagedAt (s : State) (h i : Nat) : Nat := match (s.txn h).staged[i]? with | some w => w.addr | none => 0

/-- HL_EVT.TXN_IGN. -/
def txnIgn (h : Nat) (s : State) : State := s.setRb .HL_EVT h 7 true

/-- A BEGIN (R377). -/
def txnOpen (h : Nat) (s : State) : State :=
  ((s.setTxn h { }).setReg .TXN_STAT h 1#32).setReg .TXN_RES h 0#32

/-- The clusters whose windows staged writes address (R379). -/
def txnClusters (x : Txn) : List Nat :=
  (List.range 24).filter fun n => x.staged.any fun w => decide (16777216 ≤ w.addr ∧ (w.addr - 16777216) / 1048576 = n)

/-- A COMMIT of an OPEN transaction (R379). -/
def txnRequest (h : Nat) (s : State) : State :=
  let when_ := s.rf .TXN_CTRL h 4 2
  let cycle0 := s.clasp / 80 * 80
  let time := s.pair .TXN_TIME_LO .TXN_TIME_HI h
  if when_ = 2 ∧ time < cycle0 + 160 then txnEnd h 8 0 (stagedAt s h 0) 0 s
  else
    let x := s.txn h
    let c : Option Nat :=
      if when_ = 2 then some (time / 80 * 80)
      else if when_ = 1 ∧ txnClusters x ≠ [] then none
      else some (cycle0 + 80)
    (s.setTxn h { x with cycle := c }).setRf .TXN_STAT h 0 3 2

/-- A write to TXN_CTRL (R377, R379, R383): all its fields are judged against the state before it. -/
def txnCtrl (h : Nat) (d m : Word) (s0 : State) : State :=
  let s := plainWrite .TXN_CTRL h d m s0
  let b := ones d m 0
  let c := ones d m 1
  let r := ones d m 2
  match txnState s0 h with
  | 0 =>
    if b then (if c || r then txnIgn h (txnOpen h s) else txnOpen h s)
    else if c then txnIgn h s else s
  | 1 =>
    let s1 := if b then txnIgn h s else s
    if r then txnEnd h 9 0 (stagedAt s1 h 0) 0 s1 else if c then txnRequest h s1 else s1
  | _ =>
    let s1 := if b || c then txnIgn h s else s
    if r then txnEnd h 9 0 (stagedAt s1 h 0) 0 s1 else s1

/-- A BAR0 write of the domain is staged (R378), or lost beyond the 1,024th. -/
def txnStage (h : Nat) (w : Staged) (s : State) : State :=
  let x := s.txn h
  if x.staged.length < 1024 then
    (s.setTxn h { x with staged := x.staged ++ [w] }).setRf .TXN_STAT h 16 11 (x.staged.length + 1)
  else
    let s1 := s.setRb .TXN_STAT h 8 true
    if s.rb .TXN_STAT h 8 then s1 else s1.setTxn h { x with lost := w.addr }

/-- An IDLE commit may happen in this cycle: the affected clusters are idle and no patch is being applied (R379). -/
def txnIdle (s : State) (h : Nat) : Bool :=
  ((List.finRange 24).all fun n => !(txnClusters (s.txn h)).contains n.val || idleNow s n) && !s.rb .HALLMARK_STAT 0 10

end Sys2Proof.Machine
end

