-- ==== Sys2Proof/Machine/ResetOps.lean ====
section
/-! DEFINITION. Sys2Proof/Machine/ResetOps.lean: WARM and CLUSTER resets (R217, R222, R509, R510, R544), retirement (R479,
R480), targets of Assay (R476). -/

namespace Sys2Proof.Machine

/-! ### Registers -/

/-- The registers after a reset: each bit for which `keep` gives 1 as it was, the others as after POR. -/
def resetRegs (keep : Reg → Nat → Word) (regs : List (Nat × Word)) : List (Nat × Word) :=
  tabMap porOfKey
    (fun k v => (v &&& keep (Reg.ofNat (k % 512)) (k / 512)) ||| (porOfKey k &&& ~~~ keep (Reg.ofNat (k % 512)) (k / 512))) regs

/-- What a WARM reset leaves of element i of r. -/
def warmKeep (r : Reg) (_i : Nat) : Word := r.row.warm

/-- What a CLUSTER reset of n leaves of element i of r. -/
def cluKeep (n : Nat) (r : Reg) (i : Nat) : Word := if r.row.cluster ∧ Reg.cluOf r i = n then r.row.clu else 0xFFFFFFFF#32

/-- A table without the keys of cluster n, of which each cluster has m. -/
def dropClu {α : Type} (n m : Nat) (t : List (Nat × α)) : List (Nat × α) := t.filter fun e => decide (e.1 / m ≠ n)

/-! ### CLUSTER resets -/

/-- A channel that a reset takes to safe state. -/
def resetChan (n : Cluster) (c : Channel) (s : State) : State :=
  let sw := (s.chan n c).sw
  s.setChan n c { sw := if sw = .opened then .opened else .opening }

/-- What a CLUSTER or WARM reset does to what the registers of cluster n do not show: the sequencer and its context (R217),
the Hopper, gates, queues, units, engines, generators; segment tables and stores stay. -/
def resetHidden (n : Cluster) (s : State) : State :=
  let s1 := forChannels n resetChan s
  let s2 := { s1 with seqs := dropClu n.val 1 s1.seqs }
  let s3 := { s2 with hops := dropClu n.val 1 s2.hops }
  let s4 := { s3 with blankAt := dropClu n.val 1 s3.blankAt }
  let s5 := { s4 with stamps := dropClu n.val 1 s4.stamps }
  let s6 := { s5 with trigs := dropClu n.val 1 s5.trigs }
  let s7 := { s6 with cpts := dropClu n.val 2 s6.cpts }
  let s8 := { s7 with awgs := dropClu n.val 2 s7.awgs }
  { s8 with cal := dropClu n.val 1 s8.cal }

/-- A CLUSTER reset of n begins (R354, R509, R510): a record that runs on it will find it CLUSTER_FAIL (R313). -/
def clusterReset (n : Cluster) (s : State) : State :=
  let s1 := capMark n.val 1 (semPurge (8 + n.val) s)
  let s2 := resetHidden n { s1 with regs := resetRegs (cluKeep n.val) s1.regs }
  noteRamp n.val (s2.setRb .ID_CLU_RST 0 n.val true)

/-- The band that a reset's end makes active (R544). -/
def bandBack (n : Cluster) (s : State) : State :=
  let b := if s.rb .THS_TEMP n 20 then bandAtOnce s n else ((bandRec s n).1).getD (bandAtOnce s n)
  bandTake n b s

/-- A CLUSTER reset of n ends. The master copy of the library is intact in the model, so the reload of R222 leaves the library
store as it is. -/
def clusterBack (n : Cluster) (s : State) : State := bandBack n (s.setRb .ID_CLU_RST 0 n.val false)

/-! ### WARM resets -/

/-- What a WARM reset does (R509): registers by their tables; every cluster; links, domains and transactions; Cap; the ring;
Millrace but for its contents; the page of the management serial slave. -/
def warmBegin (s : State) : State :=
  let s1 := forClusters resetHidden (ringOff s)
  let s2 := (List.range 4).foldl (fun s h => domainReset h s) s1
  let s3 := { s2 with regs := resetRegs warmKeep s2.regs, slcShadow := [], slcActive := [], slcAt := none, slcFrame := 0, slcCnt := [],
                      lotTkt := [32, 32, 32, 32, 64, 16, 4, 16], lotPend := false, lfsrAt := fabric s2, present := [], waiting := [],
                      grants := [], atoms := [], cap := { }, sems := [], hiLatch := [], msp := { }, gov := [],
                      refDue := false, refLast := none, wakes := [] }
  forClusters (fun n s => noteRamp n.val (setBudget n s)) s3

/-- The end of a WARM reset but for R494 (R432, R454, R544): STATE is ACTIVE, or BOOT where boot has not completed. -/
def warmBack (s : State) : State :=
  let s1 := s.setReg .PWR_STAT 0 (if s.rb .BOOT_STAT 0 8 then 2#32 else 1#32)
  let s2 := forClusters bandBack (ringFollow s1)
  if s.rb .BOOT_STAT 0 8 then forClusters calBecomeDue s2 else s2

/-- The part is held in WARM (R432, R470, R537). -/
def warmHeld (s : State) : Bool := s.pwr.rst || s.pwr.chip || decide (s.tap = 0 ∨ s.tap = 3 ∨ s.tap = 4)

/-! ### Retirement (R479, R480) -/

/-- The part is degraded (R480, R482): replacement is asked for now, or at the end of the flow that includes cluster n. -/
def degrade (n : Option Nat) (s : State) : State :=
  match n with
  | some n => if flowClu s n then { s with replaceWait := true } else replaceNow s
  | none => replaceNow s

/-- A retirement is counted, the first with its power-on minute (R484). -/
def countRetire (s : State) : State :=
  let s1 := lifeCount 10516 32 s
  if tabGet 0 s.life 10520 = 0 then { s1 with life := tabSet 0 s1.life 10520 (min (2 ^ 32 - 1) (tabGet 0 s.life 20 + 1)) } else s1

/-- Channel c of cluster n is marked retired and forced safe. -/
def retireMark (n : Cluster) (c : Channel) (s : State) : State :=
  let s1 := (s.setRb .CH_STAT (chIx n c) 2 true).setRb .FLT_RET_CH n c.val true
  forcedSafe n c { s1 with life := tabSet 0 s1.life (10420 + 4 * n.val) (s1.reg .FLT_RET_CH n).toNat }

/-- Channel c of cluster n is retired (R479). -/
def retireChannel (n : Cluster) (c : Channel) (s : State) : State :=
  if retired s n c then s else degrade (some n.val) (countRetire (retireMark n c s))

/-- Cluster n is retired (R479): its sequencer is stopped as a trap stops it, its channels retired, generators stopped, the
Hopper disabled, its semaphores released, its clocks gated. -/
def retireCluster (n : Cluster) (s : State) : State :=
  if cluRetired s n then s
  else
    let s1 := if seqIdle s n then s else trapSeq n s
    let s2 := forChannels n (fun n c s => if retired s n c then s else retireMark n c s) s1
    let s3 := (stopAwgs n s2).setRb .CL_HOP_CTRL n 0 false
    let s4 := ((semPurge (8 + n.val) s3).setRb .FLT_RET_CLU 0 n.val true).setRb .PWR_CLU_GATE 0 n.val true
    let s5 := { s4 with life := tabSet 0 s4.life 10416 (s4.reg .FLT_RET_CLU 0).toNat }
    degrade (some n.val) (countRetire s5)

/-- The channels of a mask are retired. -/
def retireMask (n : Cluster) (mask : Word) (s : State) : State :=
  forChannels n (fun n c s => if bitOf mask c.val then retireChannel n c s else s) s

/-! ### Targets of Assay (R476) -/

/-- Targets are added to the pending run of cluster n, or to the run in progress (R477). -/
def assayAdd (n : Nat) (chans : Word) (ctgt : Nat) (s : State) : State :=
  if chans = 0#32 ∧ ctgt = 0 then s
  else
    match s.assay.find? fun e => decide (e.1 = n) with
    | some (_, x) =>
      let w := (BitVec.ofNat 32 x.ctgt ||| BitVec.ofNat 32 ctgt).toNat
      { s with assay := tabInsert (tabErase s.assay n) n { x with chans := x.chans ||| chans, ctgt := w } }
    | none =>
      let w := (BitVec.ofNat 32 (s.rf .ASY_STAT n 4 6) ||| BitVec.ofNat 32 ctgt).toNat
      ((s.setReg .ASY_TGT n (s.reg .ASY_TGT n ||| chans)).setRf .ASY_STAT n 4 6 w).setRb .ASY_STAT n 1 true

/-- The targets of a source's offset in its cluster, as channel tests and CTGT bits less 4: T 1, S 2, P 4, B 8, generators
16 and 32. -/
def assayTargets (off : Nat) : Word × Nat :=
  if off < 32 then (BitVec.ofNat 32 (2 ^ off), 0)
  else
    match off with
    | 33 => (0#32, 1)
    | 34 => (0#32, 2)
    | 37 => (0#32, 4)
    | 40 => (0#32, 16)
    | 41 => (0#32, 32)
    | 43 => (0#32, 8)
    | _ => (0#32, 0)

/-- A write to ASY_CTRL: RUN adds the targets of ASY_CTRL and ASY_MASK (R476, R486). -/
def asyCtrlWrite (d m : Word) (s : State) : State :=
  let w := d &&& m
  let ct := fld w 16 5
  let n := fld w 8 5
  if bitOf w 0 ∧ n < 24 ∧ !s.rb .FLT_RET_CLU 0 n then
    assayAdd n (s.reg .ASY_MASK 0) (ct % 16 + (if 16 ≤ ct then 48 else 0)) s
  else s

end Sys2Proof.Machine
end

