-- ==== Sys2Proof/Machine/EventOps.lean ====
section
/-! DEFINITION. Sys2Proof/Machine/EventOps.lean: event sources (R512 to R516). -/

namespace Sys2Proof.Machine

/-- A source that exists (R512, R513). -/
def sourceKnown (s : Nat) : Bool :=
  decide (s < 1056) || [1056, 1060, 1064, 1072, 1076, 1080, 1088, 1096, 1097, 1098, 1099, 1104, 1105, 1112, 1120].contains s

/-- The cause register of a source, its enables and the element (R512, R513); 44n + 43 and reserved sources have none. -/
def sourceRegs (s : Nat) : Option (Reg × Reg × Nat) :=
  let n := s / 44
  let k := s % 44
  if s < 1056 then
    if k < 32 then some (.CH_EVT, .CH_EVT_EN, 32 * n + k)
    else
      match k with
      | 32 => some (.CL_SEQ_EVT, .CL_SEQ_EVT_EN, n)
      | 33 => some (.CL_TIM_EVT, .CL_TIM_EVT_EN, n)
      | 34 => some (.CL_STORE_EVT, .CL_STORE_EVT_EN, n)
      | 35 => some (.CL_HOP_EVT, .CL_HOP_EVT_EN, n)
      | 36 => some (.CL_MR_EVT, .CL_MR_EVT_EN, n)
      | 37 => some (.CL_TS_EVT, .CL_TS_EVT_EN, n)
      | 38 => some (.CL_TRG_EVT, .CL_TRG_EVT_EN, n)
      | 39 => some (.CL_CAP_EVT, .CL_CAP_EVT_EN, n)
      | 40 => some (.CL_AWG_EVT, .CL_AWG_EVT_EN, 2 * n)
      | 41 => some (.CL_AWG_EVT, .CL_AWG_EVT_EN, 2 * n + 1)
      | 42 => some (.CL_CAL_EVT, .CL_CAL_EVT_EN, n)
      | _ => none
  else
    match s with
    | 1056 => some (.FLT_EVT, .FLT_EVT_EN, 0)
    | 1060 => some (.ASY_EVT, .ASY_EVT_EN, 0)
    | 1064 => some (.LR_EVT, .LR_EVT_EN, 0)
    | 1072 => some (.GOV_EVT, .GOV_EVT_EN, 0)
    | 1076 => some (.CAL_EVT, .CAL_EVT_EN, 0)
    | 1080 => some (.SER_EVT, .SER_EVT_EN, 0)
    | 1088 => some (.CLK_EVT, .CLK_EVT_EN, 0)
    | 1096 => some (.HL_EVT, .HL_EVT_EN, 0)
    | 1097 => some (.HL_EVT, .HL_EVT_EN, 1)
    | 1098 => some (.HL_EVT, .HL_EVT_EN, 2)
    | 1099 => some (.HL_EVT, .HL_EVT_EN, 3)
    | 1104 => some (.MP_EVT, .MP_EVT_EN, 0)
    | 1105 => some (.SEM_EVT, .SEM_EVT_EN, 0)
    | 1112 => some (.RING_EVT, .RING_EVT_EN, 0)
    | 1120 => some (.CAP_EVT, .CAP_EVT_EN, 0)
    | _ => none

def State.flt (s : State) (k : Nat) : FltSrc := tabGet { } s.faults k
def State.setFlt (s : State) (k : Nat) (v : FltSrc) : State := { s with faults := tabSet { } s.faults k v }

/-- Source s is raised (R514): an enabled cause of its block, or the INT reaction. -/
def raised (s : State) (k : Nat) : Bool :=
  (s.flt k).int || (match sourceRegs k with | some (e, en, i) => decide (s.reg e i &&& s.reg en i ≠ 0#32) | none => false)

/-- EVT_STAT[i] (R515). -/
def evtStat (s : State) (i : Nat) : Word :=
  (List.range 32).foldl (fun w b => putBit w b (raised s (32 * i + b))) 0#32

/-- The message of source k to domain h is due (R516). -/
def evtDue (s : State) (h k : Nat) : Bool :=
  raised s k && s.rb .EVT_ROUTE k h && !s.rb (evtPend h) (k / 32) (k % 32) && linkServes s h

/-- EVENT_MESSAGE (R516): the message is sent, or its PBA bit set; the PEND bit is set. -/
def execEventMessage (t : Nat) (h : Dom) (k : Source) (s0 : State) : Res :=
  let s := s0.at t
  .next (if evtDue s h.val k.val then
      msixSend h.val (max 1 (s.rf .EVT_ROUTE k.val 8 6)) (s.setRb (evtPend h.val) (k.val / 32) (k.val % 32) true)
    else s)

end Sys2Proof.Machine
end

