-- ==== Sys2Proof/Machine/Thermal.lean ====
section
/-! DEFINITION. Sys2Proof/Machine/Thermal.lean: events of the sensors, the Governor and tentering (R439 to R458). -/

namespace Sys2Proof.Machine

/-- SENSOR_CONVERSION (R439 to R442, R448): a disabled remote input is not converted. An open or shorted input gives a TEMP
that the manual does not state. -/
def execSensorConversion (t : Nat) (j : Sensor) (reading : SensorObs) (s0 : State) : Res :=
  let s := s0.at t
  .next (if s.pwr.por ∨ (28 ≤ j.val ∧ !s.rb .THS_DIODE j.val 0) then s
    else
      match reading with
      | .temp x => govAll (if x < -1024 ∨ 3200 < x then sensorFault j.val (unsigned 16 x) s else sensorGood j.val x s)
      | .invalid _ => let (w, s1) := s.drawWord; govAll (sensorFault j.val (fld w 0 16) s1))

/-- GOVERNOR_STOP (R445). -/
def execGovernorStop (t : Nat) (n : Cluster) (s0 : State) : Res :=
  let s := s0.at t
  let drain := s.rf .GOV_CTRL 0 12 12
  let g := s.govOf n
  let due := match g.three with | some x => decide (x + drain * 8000000 ≤ s.clasp) | none => false
  .next (if due && decide (3 ≤ govLevel s n) && decide (drain ≠ 0) && !g.stopped && govWork s n then govStop n s else s)

/-- REF_CALIBRATION (R449): tentering, holding semaphores 0 and 1, has measured REFV in microvolts. -/
def execRefCalibration (t : Nat) (microvolt : Nat) (s0 : State) : Res :=
  let s := s0.at t
  let cert := (s.reg .CAL_REFV_CERT 0).toNat
  let ok := decide (microvolt * 100 ≤ cert * 101 ∧ cert * 99 ≤ microvolt * 100)
  .next (if calHolds s 0 && calHolds s 1 then
      let s1 := (s.setReg .CAL_REFV_MEAS 0 (BitVec.ofNat 32 microvolt)).setReg .CAL_STAT 0 (if ok then 1#32 else 2#32)
      let s2 := if ok then s1 else s1.setRb .CAL_EVT 0 1 true
      let s3 := { s2.setRb .CAL_EVT 0 0 true with refDue := false }
      semCalRelease [0, 1] { s3 with refLast := some s.clasp }
    else s)

/-- TRIM_RAMP_STEP (R451): CAL_RATE.US after its last move a ramping trim moves by one LSB. -/
def execTrimRampStep (t : Nat) (n : Cluster) (w : TrimAddr) (s0 : State) : Res :=
  let s := s0.at t
  let us := s.rf .CAL_RATE 0 0 8
  let r : Reg := match w with | .channel _ _ => .CH_TRIM | .generator _ => .AWG_TRIM
  let i := match w with | .channel c k => 64 * chIx n c + k.val | .generator g => 2 * n.val + g.val
  let bytes := match w with | .channel _ k => decide (24 ≤ k.val) | .generator _ => false
  let now := trimNow s r i
  .next (if now.1 = s.reg r i then s
    else if us = 0 then noteRamp n.val (setTrimNow r i (s.reg r i) s.clasp s)
    else if now.2 + us * 8000 ≤ s.clasp then
      noteRamp n.val (setTrimNow r i (trimMove bytes (s.reg r i) now.1) (now.2 + us * 8000) s)
    else s)

/-- CAL_DUE (R454): the Clasp time has reached CL_CAL_DUE. -/
def execCalDue (t : Nat) (n : Cluster) (s0 : State) : Res :=
  let s := s0.at t
  let due := s.pair .CL_CAL_DUE_LO .CL_CAL_DUE_HI n
  .next (if due ≠ 0 ∧ due ≤ s.clasp then calBecomeDue n s else s)

/-- CAL_STEP_START (R449, R455): on a due cluster, quiet for 50 µs. A missing or old reference calibration comes first. -/
def execCalStepStart (t : Nat) (n : Cluster) (s0 : State) : Res :=
  let s := s0.at t
  .next (if calDueNow s n ∧ !calStepOn s n ∧ !calIntrOn s n ∧ calQuiet s n then
      if refStale s then refRequest s
      else ((ungate n.val s).setRb .CL_CAL_STAT n 1 true).setCalSt n { s.calSt n with using_ := safeMask s n, stepAt := s.clasp }
    else s)

/-- CAL_STEP_END (R455, R457, R458): the step, or a step of an interruption, commits its results, each at its cluster
offset. -/
def execCalStepEnd (t : Nat) (n : Cluster) (res : List (Nat × Word)) (s0 : State) : Res :=
  let s := s0.at t
  .next (if calStepOn s n then
      let s1 := stepCommit n res s
      busPass n ((s1.setRb .CL_CAL_STAT n 1 false).setCalSt n { s1.calSt n with using_ := 0#32 })
    else if calIntrOn s n then stepCommit n res s
    else s)

/-- CAL_STEP_ABANDON (R456). -/
def execCalStepAbandon (t : Nat) (n : Cluster) (s0 : State) : Res := .next (calAbandon n (s0.at t))

/-- CAL_DEADLINE_INTERRUPT (R457). -/
def execCalDeadlineInterrupt (t : Nat) (n : Cluster) (s0 : State) : Res :=
  let s := s0.at t
  let due := match (s.calSt n).deadline with | some x => decide (x ≤ s.clasp) | none => false
  .next (if due && calDueNow s n && idleNow s n && !flowClu s n && !calStepOn s n && !calIntrOn s n then
      forChannels n intrChannel (((ungate n.val s).setRb .CL_CAL_STAT n 2 true).setRb .CL_CAL_EVT n 1 true)
    else s)

/-- CAL_INTERRUPT_END (R457): the channels are restored, the next deadline runs from here, held starts take place. -/
def execCalInterruptEnd (t : Nat) (n : Cluster) (s0 : State) : Res :=
  let s := s0.at t
  .next (if calIntrOn s n then
      let s1 := forChannels n intrBack (s.setRb .CL_CAL_STAT n 2 false)
      let next := if calDueNow s1 n then some (s.clasp + max 1 (s.rf .CAL_GRACE 0 0 16) * 8000000000) else none
      let s2 := s1.setCalSt n { s1.calSt n with deadline := next }
      releaseHeld n (busPass n s2)
    else s)

end Sys2Proof.Machine
end

