-- ==== Sys2Proof/Machine/FaultOps.lean ====
section
/-! DEFINITION. Sys2Proof/Machine/FaultOps.lean: the fault collector (R463 to R475), runs of Assay (R477, R478), the life record
(R483 to R485). -/

namespace Sys2Proof.Machine

/-! ### The collector -/

/-- AON runs (R411, R414). -/
def aonRuns (s : State) : Bool :=
  !s.pwr.por && (s.pwr.osc || (s.rb .CLK_STAT 0 4 && decide (s.pwr.aonTo ≠ some false) && !s.pwr.fault))

/-- The AON cycle at this moment, 250 ns (R466). -/
def aonCycle (s : State) : Nat := s.clasp / 2000

/-- A moment x in AON cycles has come; while the Clasp count stands still the command itself says so. -/
def aonDue (s : State) (x : Nat) : Bool := !s.rb .CLK_STAT 0 2 || decide (x ≤ aonCycle s)

/-- FLT_STAT.ERR_PIN (R475). -/
def noteErr (s : State) : State := s.setRb .FLT_STAT 0 5 (fatal s || s.faults.any fun e => e.2.err)

/-- The reaction bits of source k (R470). -/
def reactOf (s : State) (k : Nat) : Nat := s.rf .FLT_REACT (k / 4) (8 * (k % 4)) 5

/-- The clusters that source k affects. -/
def affects (k n : Nat) : Bool := decide (1056 ≤ k ∨ k / 44 = n)

/-- The domains that get vector 0 for a trap of source k (R465, R470). -/
def trapDomains (s : State) (k : Nat) : List Nat :=
  (List.range 4).filter fun h =>
    ((List.range 24).any fun n => affects k n && decide (s.rf .DOM_CLU n 0 3 = h)) ||
      (decide (1056 ≤ k) && decide (s.rf .DOM_MGMT 0 0 3 = h))

/-- Vector 0 to a domain: at once, or once its link carries messages again (R471, R472). -/
def vectorZero (h : Nat) (s : State) : State :=
  if slaveUp s then msixSend h 0 s else { s with owed := putBit s.owed h true }

/-- The TRAP reaction (R216, R470): every affected cluster is trapped, and Cap finds it TRAPPED. -/
def trapReact (k : Nat) (s : State) : State :=
  let s1 := forClusters (fun n s => if affects k n.val then capMark n.val 1 (nmiTrap n s) else s) s
  (trapDomains s k).foldl (fun s h => vectorZero h s) s1

/-- The BLOCK reaction (R470). -/
def blockReact (k : Nat) (s : State) : State :=
  if k < 1056 then clusterReset (padClu (k / 44, 0)) s
  else if 1096 ≤ k ∧ k ≤ 1099 then domainReset (k - 1096) s
  else if k = 1112 then ringFollow (ringOff s)
  else if k = 1120 then capAbort s
  else s

/-- The reactions of a leading fault, in the order ERR, TRAP, INT, BLOCK, CHIP (R471). A BEZEL message traps whatever FLT_REACT
holds (R465). -/
def react (k : Nat) (bezel : Bool) (s : State) : State :=
  let r := reactOf s k
  let s1 := if r / 16 % 2 = 1 then noteErr (s.setFlt k { s.flt k with err := true }) else s
  let s2 := if r / 2 % 2 = 1 ∧ !bezel then trapReact k s1 else s1
  let s3 := if r % 2 = 1 then s2.setFlt k { s2.flt k with int := true } else s2
  let s4 := if r / 4 % 2 = 1 then blockReact k s3 else s3
  if r / 8 % 2 = 1 then { warmBegin s4 with pwr := { s4.pwr with chip := true } } else s4

/-- The part becomes fatal (R474). -/
def goFatal (s : State) : State :=
  let s1 := ((s.setRb .FLT_STAT 0 0 true).setRb .FLT_EVT 0 3 true)
  let s2 := forClusters nmiTrap { s1 with life := tabSet 0 s1.life 28 (tabGet 0 s1.life 28 ||| 2) }
  noteErr (degrade none s2)

/-- The window closes once its AON cycles have passed (R468). -/
def windowClose (s : State) : State :=
  match s.window with
  | some (e, _) => if aonDue s e then { s.setRb .FLT_STAT 0 1 false with window := none } else s
  | none => s

/-- One message is taken (R467 to R476). -/
def takeMsg (m : FaultMsg) (s0 : State) : State :=
  let k := m.src
  let cls := min 2 m.cls
  let was := fatal s0
  let active := s0.rb .FLT_ACTIVE (k / 32) (k % 32)
  let f := s0.flt k
  let s1 := (s0.setRb .FLT_STICKY (k / 32) (k % 32) true).setRb .FLT_ACTIVE (k / 32) (k % 32) true
  let s2 := lifeCount (3216 + 2 * (3 * k + cls)) 16 s1
  let s3 := s2.setFlt k
    { f with last := aonCycle s0, corr := (if active then f.corr else true) && decide (cls = 0), fatal := f.fatal || decide (cls = 2) }
  let target := k < 1056 ∧ m.kind ≠ 6 ∧ (cls ≠ 0 ∨ s3.rb .FLT_CTRL 0 9) ∧ s3.rb .FLT_CTRL 0 8 ∧ !s3.rb .FLT_RET_CLU 0 (k / 44)
  let s4 := if target then assayAdd (k / 44) (assayTargets (k % 44)).1 (assayTargets (k % 44)).2 s3 else s3
  let bit := if k < 1056 then BitVec.ofNat 32 (2 ^ (k / 44)) else 0#32
  let bezel := decide (m.kind = 12 ∧ k < 1056)
  let s5 := if bezel then trapReact k s4 else s4
  if was then s5
  else
    let s6 := if cls = 2 then goFatal s5 else s5
    match s6.window with
    | some (e, ns) =>
      let s7 := ({ s6 with window := some (e, ns ||| bit) }.count .FLT_MERGE_CNT 0 32).setRb .FLT_EVT 0 1 true
      (s7.setRf .FLT_STAT 0 2 2 (max cls (s7.rf .FLT_STAT 0 2 2))).setRf .FLT_STAT 0 8 8 (satInc 255 (s7.rf .FLT_STAT 0 8 8))
    | none =>
      let win := max 1 (s6.rf .FLT_CTRL 0 0 7)
      let s7 := (({ s6 with window := some (aonCycle s6 + win, bit) }.setRb .FLT_STAT 0 1 true).setRf .FLT_STAT 0 2 2 cls).setRf .FLT_STAT 0 8 8 0
      react k bezel (s7.setRb .FLT_EVT 0 0 true)

/-- A message among others, by ascending source (R466). -/
def insertMsg (m : FaultMsg) : List FaultMsg → List FaultMsg
  | [] => [m]
  | x :: r => if m.src < x.src then m :: x :: r else x :: insertMsg m r

/-- The messages of an AON cycle in the order in which they are handled. -/
def sortMsgs : List FaultMsg → List FaultMsg → List FaultMsg
  | acc, [] => acc
  | acc, m :: r => sortMsgs (insertMsg m acc) r

/-- A write to FLT_INJECT_HI presents the message HI:LO (R463, R486). -/
def inject (s : State) : State :=
  let lo := s.reg .FLT_INJECT_LO 0
  let hi := s.reg .FLT_INJECT_HI 0
  let src := fld hi 20 12
  if sourceKnown src ∧ src < 1152 then
    { s with msgs := s.msgs ++ [⟨src, fld hi 14 6, fld hi 12 2, lo.toNat + fld hi 0 8 * 2 ^ 32⟩] }
  else s

/-! ### Assay (R477, R478, R545) -/

/-- A run needs the central converter: known-level checks and levels of a channel, or a generator's output. -/
def asyCentral (chans : Word) (ctgt : Nat) : Bool := decide (chans ≠ 0#32) || decide (8 ≤ ctgt)

/-- A run of some cluster other than n uses the central converter. -/
def asyOthers (s : State) (n : Nat) : Bool := s.assay.any fun e => decide (e.1 ≠ n) && asyCentral e.2.chans e.2.ctgt

/-- Assay, holder 7, acquires semaphore 0 with an ordinary acquire (R350, R477), unless it waits for it or holds it. -/
def asyAcquire (s : State) : State :=
  let m := s.sem 0
  if (match m.holder with | some e => decide (e.1 = 7) | none => false) || m.queue.any (fun e => decide (e.1 = 7)) then s
  else if m.holder = none ∧ m.queue = [] then s.setSem 0 { m with holder := some (7, 7) }
  else s.setSem 0 { m with queue := m.queue ++ [(7, 7)] }

/-- Assay holds semaphore 0. -/
def asyHolds (s : State) : Bool := match (s.sem 0).holder with | some e => decide (e.1 = 7) | none => false

/-- Assay gives semaphore 0 back. -/
def asyRelease (s : State) : State := if asyHolds s then semHand 0 (s.setSem 0 { s.sem 0 with holder := none }) else s

/-- The channels that the targets force safe: those tested, and all for B, T and P (R476). -/
def asyChans (chans : Word) (ctgt : Nat) : Word := if ctgt % 2 = 1 ∨ 4 ≤ ctgt % 16 then 0xFFFFFFFF#32 else chans

/-- A run may start on cluster n (R477). -/
def asyReady (s : State) (n : Cluster) : Bool :=
  s.rb .ASY_STAT n 1 && !asyBusy s n && !calStepOn s n && !calIntrOn s n &&
    (match s.window with | some (_, ns) => !bitOf ns n.val | none => true) && idleNow s n &&
    decide (awgState s n 0 ≠ 1 ∧ awgState s n 0 ≠ 2 ∧ awgState s n 1 ≠ 1 ∧ awgState s n 1 ≠ 2) &&
    !cptRun s n 0 && !cptRun s n 1 && ((List.finRange 32).all fun c => !s.rb .CH_RG_STAT (chIx n c) 0 && !measBusy s n c) &&
    (match s.cap.run with
      | some x => !(x.clus.any fun p => decide (p.1 = n.val)) ||
          (decide (bf x.bytes 0 1 = 1) && !x.later.contains n.val && !heldOn s n 0 0)
      | none => true)

/-- A run starts: its channels are forced safe, semaphore 0 is asked for where it is needed. -/
def asyStart (n : Cluster) (s : State) : State :=
  let chans := s.reg .ASY_TGT n
  let ctgt := s.rf .ASY_STAT n 4 6
  let s1 := forceMask n (asyChans chans ctgt) (ungate n.val s)
  let s2 := ((s1.setReg .ASY_TGT n 0#32).setRf .ASY_STAT n 4 6 0).setRf .ASY_STAT n 0 2 1
  let s3 := { s2 with assay := tabInsert s2.assay n.val ⟨chans, ctgt, s2.clasp⟩ }
  if asyCentral chans ctgt then asyAcquire s3 else s3

/-- Retirements of an outcome (R478, R479): failed channel tests retire their channels; a failed cluster or generator test, or
RET_LIMIT retired channels, the cluster. -/
def asyRetire (n : Cluster) (failCluster : Bool) (failCh : Word) (s : State) : State :=
  let s1 := retireMask n failCh s
  let count := (indicesWhere 32 (bitOf (s1.reg .FLT_RET_CH n))).length
  if failCluster || decide (failCh ≠ 0#32 ∧ max 1 (s1.rf .FLT_CTRL 0 16 5) ≤ count) then retireCluster n s1 else s1

/-- The outcome of a run (R478). -/
def asyOutcome (n : Cluster) (failCluster : Bool) (failCh : Word) (s : State) : State :=
  let fails := failCluster || decide (failCh ≠ 0#32)
  let old := s.reg .FLT_RET_CH n
  let s0 := { s with assay := tabErase s.assay n.val }
  let s1 := if asyOthers s0 n.val then s0 else asyRelease s0
  let s2 := lifeCount (10128 + 12 * n.val) 32 ((s1.count .ASY_RUNS n 32).setRb .ASY_STAT n 0 false)
  let s3 :=
    if fails then
      let a := lifeCount (10128 + 12 * n.val + 8) 32 (asyRetire n failCluster failCh ((s2.count .ASY_FAIL n 32).setRf .ASY_STAT n 12 2 2))
      (a.setRb .ASY_EVT 0 1 true).send 1060 13 1 (n.val * 2 ^ 32 + (a.reg .FLT_RET_CH n &&& ~~~ old).toNat)
    else lifeCount (10128 + 12 * n.val + 4) 32 (((s2.count .ASY_PASS n 32).setRf .ASY_STAT n 12 2 1).setRb .ASY_EVT 0 0 true)
  releaseHeld n (busPass n s3)

/-! ### The life record (R484, R485) -/

/-- Bytes 16 to 10,523 of a slot as it would be written now (R484). -/
def lifeBody (s : State) : List Byte :=
  let g := fun k => tabGet 0 s.life k
  leBytes 4 1 ++ leBytes 4 (g 20) ++ leBytes 4 (g 24) ++ leBytes 4 (g 28) ++
    (List.range 16).flatMap (fun k => leBytes 4 (g (32 + 4 * k))) ++
    (List.range 20).flatMap (fun k => leBytes 2 (g (96 + 2 * k))) ++ leBytes 8 0 ++
    (List.range 768).flatMap (fun m => leBytes 2 (g (144 + 4 * m)) ++ leBytes 2 (g (146 + 4 * m))) ++
    (List.range 3456).flatMap (fun k => leBytes 2 (g (3216 + 2 * k))) ++
    (List.range 72).flatMap (fun k => leBytes 4 (g (10128 + 4 * k))) ++ leBytes 4 (g 10416) ++
    (List.range 24).flatMap (fun n => leBytes 4 (g (10420 + 4 * n))) ++ leBytes 4 (g 10516) ++
    leBytes 4 (if g 10520 = 0 then 4294967295 else g 10520 - 1)

/-- The 16 header bytes of a slot with SEQ q (R484). -/
def lifeHeader (q : Nat) (body : List Byte) : List Byte :=
  leBytes 4 0x4546494C ++ leBytes 4 q ++ leBytes 4 10508 ++ leBytes 4 (crc32 body).toNat

/-- The slot's bytes. -/
def lifeSlotBytes (s : State) (q : Nat) : List Byte := lifeHeader q (lifeBody s) ++ lifeBody s

/-- A write of the record (R485): staged in Millpond, programmed in pages, read back, the next slot erased; SHUTDOWN sets its
flag first and erases no slot. -/
def lifeWrite (obs : LifeObs) (s0 : State) : State :=
  let off := decide (pwrState s0 = 4)
  let s := if off then { s0 with life := tabSet 0 s0.life 28 (tabGet 0 s0.life 28 ||| 4) } else s0
  let q := (s.reg .LR_SEQ 0).toNat + 1
  let bytes := lifeSlotBytes s q
  let a := s.rf .LR_STAGE 0 6 20 * 64
  let s1 := memWrite .life false none a bytes s
  let err := if (refusalOf s .life a bytes.length).isSome then 3 else match obs with | .good => 0 | .timeout => 1 | .mismatch => 2
  let s2 := (s1.setRf .LR_STAT 0 4 4 err).setRf .LR_STAT 0 8 2 s.lifeSlot
  let s2' := { s2 with lifeSlot := (s.lifeSlot + 1) % 4 }
  let s3 := { s2' with lifeMin := 0 }
  if err = 0 then
    let s4 := ((s3.setReg .LR_SEQ 0 (BitVec.ofNat 32 q)).setPair .LR_TLAST_LO .LR_TLAST_HI 0 s.clasp).setRb .LR_EVT 0 0 true
    { s4 with lifeHdr := bytes.take 16 }
  else (s3.setRb .LR_EVT 0 1 true).send 1064 14 0 err

/-- A slot read from flash is valid (R485). -/
def lifeSlotOk (b : List Byte) : Bool :=
  decide (bf b 0 4 = 0x4546494C ∧ bf b 8 4 = 10508 ∧ bf b 16 4 = 1) &&
    decide ((crc32 ((b.drop 16).take 10508)).toNat = bf b 12 4 ∧ 10524 ≤ b.length)

/-- The counters that a slot holds, by their byte offsets. -/
def lifeLoad (b : List Byte) : List (Nat × Nat) :=
  let wide := ([20, 24, 28] ++ (List.range 16).map (fun k => 32 + 4 * k) ++ (List.range 72).map (fun k => 10128 + 4 * k) ++ [10416] ++
    (List.range 24).map (fun k => 10420 + 4 * k) ++ [10516]).map fun k => (k, bf b k 4)
  let slim := ((List.range 20).map (fun k => 96 + 2 * k) ++ (List.range 1536).map (fun k => 144 + 2 * k) ++
    (List.range 3456).map (fun k => 3216 + 2 * k)).map fun k => (k, bf b k 2)
  let first := (10520, if bf b 10520 4 = 4294967295 then 0 else bf b 10520 4 + 1)
  ((first :: wide) ++ slim).foldl (fun t p => tabSet 0 t p.1 p.2) []

/-- The valid slot with the highest SEQ, with its number. -/
def lifeBest (slots : List (List Byte)) : Option (Nat × List Byte) :=
  ((slots.take 4).mapIdx fun i b => (i, b)).foldl
    (fun m p => if lifeSlotOk p.2 then (match m with | some x => if bf x.2 4 4 < bf p.2 4 4 then some p else m | none => some p) else m) none

/-- The writer reads the four slots after boot (R485). -/
def lifeRead (slots : List (List Byte)) (s : State) : State :=
  if !s.rb .LR_BASE 0 0 then s
  else
    match lifeBest slots with
    | some (i, b) =>
      let s1 := ((s.setReg .LR_SEQ 0 (BitVec.ofNat 32 (bf b 4 4))).setRb .LR_STAT 0 2 true).setRb .LR_EVT 0 2 true
      let s2 := { s1.setRf .LR_STAT 0 8 2 i with life := lifeLoad b }
      let s3 := { s2 with lifeHdr := b.take 16 }
      { s3 with lifeSlot := (i + 1) % 4 }
    | none =>
      let s1 := { s.setRb .LR_STAT 0 1 true with life := [] }
      { s1 with lifeSlot := 0 }

/-- The image of R487: byte k of the slot as it would be written now, the header that of the last good write. -/
def lifeImage (s : State) : List Byte :=
  (if s.lifeHdr = [] then List.replicate 16 0xFF#8 else s.lifeHdr) ++ lifeBody s

/-- The temperature bin of a reading (R484). -/
def tempBin (x : Int) : Nat := if x < 0 then 0 else min 15 (x.toNat / 128 + 1)

end Sys2Proof.Machine
end

