-- ==== Sys2Proof/Machine/PatchOps.lean ====
section
/-! DEFINITION. Sys2Proof/Machine/PatchOps.lean: library sections and patches (R219 to R226). -/

namespace Sys2Proof.Machine

/-- A section has the layout of R219. -/
def libFormat (b : List Byte) : Bool :=
  let mc := bf b 12 4
  let nc := bf b 16 4
  decide (bf b 0 4 = 0x4C424948 ∧ 64 ≤ mc ∧ mc ≤ 4096 ∧ nc ≤ 512 ∧ b.length = 148 + 4 * mc + 32 * nc)

/-- The fused key hash, bytes 4i to 4i + 3 in register i (R226). -/
def keyHash : List Byte := (List.range 8).flatMap fun i => leBytes 4 (Config.hallmarkKeyHash i).toNat

/-- The outcome of a verification (R220), coded as HALLMARK_STAT.SIG: the conditions in the order of R220. -/
def libVerify (b : List Byte) : Nat :=
  let key := (b.drop 20).take 64
  let n := b.length - 64
  if !libFormat b then 5
  else if sha256 key ≠ keyHash then 2
  else if !ecdsaOk (beNat (key.take 32)) (beNat (key.drop 32)) (beNat (sha256 (b.take n))) (beNat ((b.drop n).take 32))
      (beNat (b.drop (n + 32))) then 3
  else if bf b 4 4 < Config.hallmarkMinVer.toNat then 4
  else 1

/-- Words k = 0, 1, … of a list of bytes, those not 0, with their numbers. -/
def libTable (b : List Byte) (n : Nat) : List (Nat × Word) :=
  ((List.range n).map fun k => (k, BitVec.ofNat 32 (bf b (4 * k) 4))).filter fun e => decide (e.2 ≠ 0#32)

/-- An accepted section becomes the library of every cluster; HALLMARK shows it (R220, R226). -/
def libInstall (b : List Byte) (s : State) : State :=
  let mc := bf b 12 4
  let nc := bf b 16 4
  let nanos := ((List.range nc).map fun k => (k, (BitVec.ofNat 256 (bf b (84 + 4 * mc + 32 * k) 32) : Nano))).filter
    fun e => decide (e.2 ≠ 0#256)
  let s1 := (s.setReg .HALLMARK_VER 0 (BitVec.ofNat 32 (bf b 4 4))).setReg .HALLMARK_BUILD 0 (BitVec.ofNat 32 (bf b 8 4))
  let s2 := { s1 with libMicro := libTable (b.drop 84) mc }
  { (s2.setRf .HALLMARK_STAT 0 0 3 1).setRb .HALLMARK_STAT 0 7 true with libNano := nanos }

/-- A write to HALLMARK_PATCH_CTRL (R223): GO copies the section into internal staging and starts its verification, unless one
is pending or being verified; CANCEL discards a pending patch. -/
def patchCtrlWrite (d m : Word) (s : State) : State :=
  let s1 := plainWrite .HALLMARK_PATCH_CTRL 0 d m s
  let s2 := if ones d m 1 && s1.rb .HALLMARK_STAT 0 8 then { s1.setRb .HALLMARK_STAT 0 8 false with patch := [] } else s1
  if ones d m 0 && !s.rb .HALLMARK_STAT 0 8 && !s.rb .HALLMARK_STAT 0 9 then
    let r := memRead .cal (s2.rf .HALLMARK_PATCH_ADDR 0 6 20 * 64) (s2.rf .HALLMARK_PATCH_LEN 0 0 16) s2
    { r.2.setRb .HALLMARK_STAT 0 9 true with patch := r.1 }
  else s2

/-- The staged section has been verified: PENDING, or its outcome in LAST alone. -/
def patchVerified (s : State) : State :=
  let c := libVerify s.patch
  let s1 := (s.setRb .HALLMARK_STAT 0 9 false).setRf .HALLMARK_STAT 0 4 3 c
  if c = 1 then s1.setRb .HALLMARK_STAT 0 8 true else { s1 with patch := [] }

/-- A held context in library code becomes non-resumable; CL_MR_STAT.LIBCHG (R207, R223). -/
def patchContext (n : Cluster) (s : State) : State :=
  if s.rb .CL_MR_STAT n 0 then
    let s1 := s.setRb .CL_MR_STAT n 6 true
    match (s.seq n).ctx with
    | some x => if x.fe.pc.lib then s1.setRb .CL_MR_STAT n 1 false else s1
    | none => s1
  else s

/-- Every sequencer of a cluster that is not retired is idle (R223). -/
def patchReady (s : State) : Bool :=
  s.rb .HALLMARK_STAT 0 8 && (List.finRange 24).all fun n => cluRetired s n || idleNow s n

/-- The pending patch applies (R223, R428). -/
def patchApply (s : State) : State :=
  let s1 := forClusters (fun n s => patchContext n (ungate n.val s)) (libInstall s.patch s)
  { (s1.setRb .HALLMARK_STAT 0 8 false).setRb .HALLMARK_STAT 0 10 true with patch := [] }

/-- PATCH_VERIFIED (R220, R223). -/
def execPatchVerified (t : Nat) (s0 : State) : Res :=
  let s := s0.at t
  .next (if s.rb .HALLMARK_STAT 0 9 then patchVerified s else s)

/-- PATCH_APPLY (R223). -/
def execPatchApply (t : Nat) (s0 : State) : Res :=
  let s := s0.at t
  .next (if patchReady s then patchApply s else s)

/-- PATCH_APPLIED (R223). -/
def execPatchApplied (t : Nat) (s0 : State) : Res :=
  let s := s0.at t
  .next (s.setRb .HALLMARK_STAT 0 10 false)

end Sys2Proof.Machine
end

