-- ==== Sys2Proof/Machine/PowerOps.lean ====
section
/-! DEFINITION. Sys2Proof/Machine/PowerOps.lean: clock faults, sleep, cluster gating, shutdown, the TAP's hold (R411 to R437,
R536, R537). -/

namespace Sys2Proof.Machine

def modPwr (f : Pwr → Pwr) (s : State) : State := { s with pwr := f s.pwr }

/-- CLK_EVT bit b is set. -/
def clkEvt (b : Nat) (s : State) : State := s.setRb .CLK_EVT 0 b true

/-! ### Clock faults (R417 to R420) -/

/-- What a register of a cluster window keeps while the data plane's clocks are gone; the WARM reset of R420 follows. -/
def stopKeep (r : Reg) (_i : Nat) : Word := if r.row.cluster then r.row.warm else 0xFFFFFFFF#32

/-- The ROOT-derived domains stop (R418): nothing in a cluster, Millrace, Cap or the ring goes on; links are down. -/
def stopDomains (s : State) : State :=
  let s1 := forClusters resetHidden s
  let s2 := setCapState 0 { s1 with regs := resetRegs stopKeep s1.regs, present := [], waiting := [], cap := { } }
  ringOff ((List.range 4).foldl (fun s h => domainReset h s) s2)

/-- A clock fault of a cause (R418): 0 a failing judgement, 1 a failing REFCLK window, 2 a loss of lock. -/
def clockFault (cause : Nat) (s : State) : State :=
  let s1 := forClusters stopAwgs (forceAll s)
  let s2 := modPwr (fun p => { p with fault := true, passes := 0, aonTo := some false }) (s1.setRb .CLK_STAT 0 5 true)
  let s3 := stopDomains (s2.setRb .CLK_STAT 0 2 false)
  let s4 := clkEvt 1 ((s3.send 1088 8 1 cause).count .CLK_FAULT_CNT 0 16)
  if cause = 1 then clkEvt 0 s4 else s4

/-- The Clasp time and what counts with it start at 0. -/
def restartClasp (s : State) : State :=
  let s1 := { s with clasp := 0 }
  { s1 with lfsrAt := 0 }

/-- ROOT is judged stable (R411, R416, R420, R421, R433): at first the Clasp count starts at 0 and boot may begin; after a
clock fault the count resumes and a WARM reset begins. The length of the stoppage is not stated by anything the model
has: CLK_GAP is free. AON switches to ROOT. -/
def rootStable (s : State) : State :=
  let s1 := modPwr (fun p => { p with aonTo := some true, passes := 0 }) ((s.setRb .CLK_STAT 0 2 true).setRb .CLK_STAT 0 5 true)
  if s.pwr.stable then
    let (w, s2) := s1.drawWord
    let s3 := warmBegin ((s2.setReg .CLK_GAP 0 w).setRb .CLK_STAT 0 7 true)
    modPwr (fun p => { p with fault := false, chip := true }) { s3 with hist := [] }
  else modPwr (fun p => { p with stable := true }) (restartClasp (s1.setRf .PWR_STAT 0 0 3 1))

/-! ### Sleep (R422 to R427) -/

/-- The cluster's share of the conditions of R422 (R428). -/
def cluQuiet (s : State) (n : Cluster) : Bool :=
  idleNow s n && !s.rb .CL_HOP_CTRL n 0 &&
    ([0, 1] : List (Fin 2)).all (fun g => decide (awgState s n g ≠ 1 ∧ awgState s n g ≠ 2) && !cptRun s n g) &&
    (List.range 8).all (fun u => !trgEn s n u) &&
    (List.finRange 32).all fun c => !s.rb .CH_RG_STAT (chIx n c) 0 && !measBusy s n c && !s.rb .CH_PM_CTRL (chIx n c) 12

/-- The conditions of R422. -/
def sleepReady (s : State) : Bool :=
  decide (pwrState s = 2) && (List.finRange 24).all (fun n => cluQuiet s n && !calStepOn s n && !calIntrOn s n && !asyBusy s n) &&
    decide (capState s = 0 ∨ capState s = 2) &&
    (List.range 4).all (fun h => decide (txnState s h ≠ 2) && !dmaBusy s h 0 && !dmaBusy s h 1) &&
    decide (s.rf .HALLMARK_STAT 0 8 3 = 0) && !s.rb .LR_STAT 0 0 && !s.rb .PWR_RAIL 0 9

/-- PWR_BANK_RET's bit of bank b. -/
def bankRet (s : State) (b : Nat) : Bool :=
  if b < 32 then s.rb .PWR_BANK_RET_LO 0 b else s.rb .PWR_BANK_RET_HI 0 (b - 32)

/-- SLEEP is entered (R423, R424): banks to be retained show RETENTION in CUR alone. -/
def sleepEnter (s : State) : State :=
  let s1 := (s.setRf .PWR_STAT 0 0 3 3).setRb .PWR_STAT 0 3 false
  let s2 := clkEvt 3 (s1.countWrap .PWR_SLEEP_CNT 0 32)
  let s3 := (List.range 64).foldl
    (fun s b => if bankRet s b ∧ !s.rb .BANK_STATE b 8 ∧ s.rf .BANK_STATE b 4 2 = 0 then s.setRf .BANK_STATE b 4 2 1 else s) s2
  modPwr (fun p => { p with sleptAt := s.clasp, auto := false }) { s3 with wakes := [] }

/-- PWR_WAKE_TIME has come since SLEEP was entered (R426). -/
def timeWakes (s : State) : Bool :=
  let t := s.pair .PWR_WAKE_TIME_LO .PWR_WAKE_TIME_HI 0
  s.rb .PWR_WAKE_EN 0 4 && decide (s.pwr.sleptAt < t ∧ t ≤ s.clasp)

/-! ### Shutdown (R435) -/

/-- An orderly shutdown begins: a Cap ABORT, an ABORT of every sequencer, safe state, generators stopped. -/
def shutdownOp (s : State) : State :=
  if pwrState s = 4 then s
  else
    let s1 := forClusters (fun n s => abortSeq n 1 80 s) (capAbort (s.setRf .PWR_STAT 0 0 3 4))
    forClusters stopAwgs (forceAll s1)

/-- A write to PWR_CTRL (R423, R435): SLEEP counts in ACTIVE only. -/
def pwrCtrlWrite (d m : Word) (s : State) : State :=
  let s1 := plainWrite .PWR_CTRL 0 d m s
  let s2 := if ones d m 4 then shutdownOp s1 else s1
  if ones d m 0 && decide (pwrState s2 = 2) then s2.setRb .PWR_STAT 0 3 true else s2

end Sys2Proof.Machine
end

