-- ==== Sys2Proof/Machine/SerialOps.lean ====
section
/-! DEFINITION. Sys2Proof/Machine/SerialOps.lean: host frames of the peripheral serial master (R495, R496), the page of the
management serial slave and the mailbox (R497 to R502). -/

namespace Sys2Proof.Machine

/-- SER_EVT bit b is set. -/
def serEvt (b : Nat) (s : State) : State := s.setRb .SER_EVT 0 b true

/-- The bytes of registers r[0] to r[7], byte i in bits 8(i mod 4)+7:8(i mod 4) of word i / 4. -/
def wordBytes (s : State) (r : Reg) : List Byte := (List.range 8).flatMap fun i => leBytes 4 (s.reg r i).toNat

/-- Byte i of such registers is set. -/
def setWordByte (r : Reg) (i : Nat) (b : Byte) (s : State) : State := s.setRf r (i / 4) (8 * (i % 4)) 8 b.toNat

/-! ### Host frames -/

/-- PSM_CTRL.LEN as it acts. -/
def psmLen (s : State) : Nat := max 1 (s.rf .PSM_CTRL 0 16 6)

/-- A write to PSM_CTRL: LEN above 32 is stored as 32; GO sends the frame, or is ignored while one is in progress. The bus is
free whenever a command comes (notes/assumptions/24.md). -/
def psmCtrlWrite (d m : Word) (s : State) : State :=
  let s1 := cappedWrite .PSM_CTRL 0 16 6 32 d m s
  if !ones d m 0 then s1
  else if s1.rb .PSM_STAT 0 0 then serEvt 3 s1
  else (s1.setRb .PSM_STAT 0 0 true).emit (.frame ((wordBytes s1 .PSM_TX).take (psmLen s1)))

/-- The frame ends: the bytes received go to PSM_RX (R496). -/
def psmDone (rx : List Byte) (s : State) : State :=
  let bytes := rx.take (psmLen s)
  let s1 := (bytes.zipIdx.foldl (fun s p => setWordByte .PSM_RX p.2 p.1 s) s).setRb .PSM_STAT 0 0 false
  serEvt 0 s1

/-! ### The mailbox (R500) -/

def inFull (s : State) : Bool := s.rb .MSP_HSTAT 0 0
def outFull (s : State) : Bool := s.rb .MSP_HSTAT 0 1

/-- MBX_CTRL.IN_SEND and OUT_ACK, MSP_HCTRL.IN_ACK and OUT_SEND. -/
def inSend (s : State) : State := serEvt 1 (s.setRb .MSP_HSTAT 0 0 true)
def outAck (s : State) : State := serEvt 2 (s.setRb .MSP_HSTAT 0 1 false)
def inAck (s : State) : State := s.setRb .MSP_HSTAT 0 0 false
def outSend (h : Nat) (s : State) : State := if outFull s then s else (s.setRb .MSP_HSTAT 0 1 true).setRf .MSP_HSTAT 0 4 2 h

/-- A write to MSP_HCTRL by domain h. -/
def hctrlWrite (h : Nat) (d m : Word) (s : State) : State :=
  let s1 := if ones d m 0 then inAck s else s
  if ones d m 1 then outSend h s1 else s1

/-- A write to MBX_OUT[i]. -/
def mbxOutWrite (i : Nat) (d m : Word) (s : State) : Act :=
  if outFull s then .drop s else .ok (plainWrite .MBX_OUT i d m s)

/-! ### The page (R498) -/

def modMsp (f : Msp → Msp) (s : State) : State := { s with msp := f s.msp }

/-- A WIN_CMD write (R499); `wr`: a write of BAR0. -/
def winCmd (wr : Bool) (s : State) : State :=
  if s.msp.cmd.isSome then modMsp (fun x => { x with winRes := 7 }) s
  else if !s.rb .BOOT_STAT 0 8 || !slaveUp s then modMsp (fun x => { x with winRes := 4 }) s
  else modMsp (fun x => { x with cmd := some wr }) s

/-- MSP_STAT as it reads. -/
def mspStat (s : State) : Nat :=
  b2n s.msp.ovr + 2 * b2n s.msp.part + 4 * b2n s.msp.cmd.isSome + 8 * b2n (inFull s) + 16 * b2n (outFull s) +
    32 * b2n (s.rb .BOOT_STAT 0 8) + 64 * b2n (decide (s.rf .DOM_MGMT 0 0 3 = 5))

/-- What page address a reads. -/
def pageRead (s : State) (a : Nat) : Byte :=
  if a < 4 then BitVec.ofNat 8 (0x4B0F0768 / 256 ^ a)
  else if a = 4 then BitVec.ofNat 8 (mspStat s)
  else if 8 ≤ a ∧ a < 12 then BitVec.ofNat 8 (s.msp.winAddr.toNat / 256 ^ (a - 8))
  else if 12 ≤ a ∧ a < 16 then BitVec.ofNat 8 (s.msp.winData.toNat / 256 ^ (a - 12))
  else if a = 17 then BitVec.ofNat 8 s.msp.winRes
  else if 32 ≤ a ∧ a < 64 then BitVec.ofNat 8 (s.rf .MBX_IN ((a - 32) / 4) (8 * (a % 4)) 8)
  else if 64 ≤ a ∧ a < 96 then BitVec.ofNat 8 (s.rf .MBX_OUT ((a - 64) / 4) (8 * (a % 4)) 8)
  else if a = 97 then BitVec.ofNat 8 (s.rf .MSP_HSTAT 0 4 2)
  else 0#8

/-- A byte is written to page address a. -/
def pageWrite (a : Nat) (b : Byte) (s : State) : State :=
  if 127 < a then modMsp (fun x => { x with ovr := true }) s
  else if a = 4 then modMsp (fun x => { x with ovr := x.ovr && !b.getLsbD 0, part := x.part && !b.getLsbD 1 }) s
  else if 8 ≤ a ∧ a < 12 then modMsp (fun x => { x with winAddr := putFld x.winAddr (8 * (a - 8)) 8 b.toNat }) s
  else if 12 ≤ a ∧ a < 16 then modMsp (fun x => { x with winData := putFld x.winData (8 * (a - 12)) 8 b.toNat }) s
  else if a = 16 then (if b.getLsbD 1 then winCmd true s else if b.getLsbD 0 then winCmd false s else s)
  else if 32 ≤ a ∧ a < 64 then (if inFull s then s else setWordByte .MBX_IN (a - 32) b s)
  else if a = 96 then
    let s1 := if b.getLsbD 0 then inSend s else s
    if b.getLsbD 1 then outAck s1 else s1
  else s

/-- A frame that writes: bytes at rising addresses (R497). -/
def pageWrites (a : Nat) : List Byte → State → State
  | [], s => s
  | b :: r, s => pageWrites (a + 1) r (pageWrite a b s)

/-- MSP_STAT.PART. -/
def setPart (s : State) : State := modMsp (fun x => { x with part := true }) s

end Sys2Proof.Machine
end

