-- ==== Sys2Proof/Machine/StoreOps.lean ====
section
/-! DEFINITION. Sys2Proof/Machine/StoreOps.lean: the register view of a cluster's stores (R142, R163 to R167). -/

namespace Sys2Proof.Machine

/-- The word of a cluster's stores at window offset `off`, if one lies there (R142). -/
def storeAt (off : Nat) : Option StoreAddr :=
  if off % 4 ≠ 0 then none
  else if 0x20000 ≤ off ∧ off < 0x60000 then some (.micro (BitVec.ofNat 16 ((off - 0x20000) / 4)))
  else if 0x60000 ≤ off ∧ off < 0x80000 then
    some (.nano (BitVec.ofNat 12 ((off - 0x60000) / 32)) (Fin.ofNat 8 (off / 4)))
  else if 0x80000 ≤ off ∧ off < 0x84000 then some (.libMicro (BitVec.ofNat 12 ((off - 0x80000) / 4)))
  else if 0x84000 ≤ off ∧ off < 0x88000 then
    some (.libNano (BitVec.ofNat 9 ((off - 0x84000) / 32)) (Fin.ofNat 8 (off / 4)))
  else none

/-- The window offset of a word of the stores (R142). -/
def storeOff (w : StoreAddr) : Nat :=
  match w with
  | .micro a => 0x20000 + 4 * a.toNat
  | .nano i j => 0x60000 + 32 * i.toNat + 4 * j.val
  | .libMicro a => 0x80000 + 4 * a.toNat
  | .libNano i j => 0x84000 + 32 * i.toNat + 4 * j.val

/-- A nano-word with slot j holding w. -/
def putSlot (x : Nano) (j : Nat) (w : Word) : Nano :=
  (x &&& ~~~ ((0xFFFFFFFF#256) <<< (32 * j))) ||| ((w.setWidth 256) <<< (32 * j))

/-- A register write to a word of the stores (R163, R166, R167): performed while WR_OPEN is 1 and the word is whole; with
PAR_INV it stores bad parity; a word written so was not written by a NOSTALL load. -/
def storePut (n : Cluster) (w : StoreAddr) (data : Word) (whole : Bool) (s : State) : Act :=
  let inv := s.rb .CL_STORE_CTRL n 0
  let s1 := if wrOpen s n then s else s.setRb .CL_STORE_EVT n 3 true
  let s2 := if whole then s1 else s1.setRb .CL_STORE_EVT n 4 true
  match w with
  | .micro a =>
    if wrOpen s n && whole then .ok (s.setMicroAt n a.toNat { w := data, bad := if inv then 3#2 else 0#2 }) else .drop s2
  | .nano i j =>
    if wrOpen s n && whole then
      let x := s.nanoAt n i.toNat
      let bit : BitVec 8 := 1#8 <<< j.val
      .ok (s.setNanoAt n i.toNat
        { w := putSlot x.w j.val data, bad := if inv then x.bad ||| bit else x.bad &&& ~~~ bit })
    else .drop s2
  | .libMicro _ | .libNano .. => .drop s

/-- What a register read of a word of the stores gives, and whether it meets bad parity (R165). -/
def storeGet (s : State) (n : Cluster) (w : StoreAddr) : Word × Bool :=
  match w with
  | .micro a => ((s.microAt n a.toNat).w, decide ((s.microAt n a.toNat).bad ≠ 0#2))
  | .nano i j => (slotOf (s.nanoAt n i.toNat).w j.val, (s.nanoAt n i.toNat).bad.getLsbD j.val)
  | .libMicro a => (s.libAt a.toNat, false)
  | .libNano i j => (slotOf (s.libNanoAt i.toNat) j.val, false)

end Sys2Proof.Machine
end

