-- ==== Sys2Proof/Machine/RegRead.lean ====
section
/-! DEFINITION. Sys2Proof/Machine/RegRead.lean: what a register read gives and does (R361, R362, R367, R374, R375, R434, R506):
bits that follow the state are worked out as they are read. -/

namespace Sys2Proof.Machine

/-- The cluster of element i of a cluster register, and the channel of a channel's. -/
def elemClu (r : Reg) (i : Nat) : Cluster := padClu (r.cluOf i, 0)
def elemCh (i : Nat) : Channel := padCh (0, i)
/-- The generator or engine of element i of a register of which each cluster has two. -/
def elemGen (i : Nat) : Fin 2 := ⟨i % 2, Nat.mod_lt _ (by decide)⟩

/-- CH_STAT of channel c of cluster n; DRV_LIMIT of a driver that is on is free (R46, R75). -/
def chStatWord (s : State) (n : Cluster) (c : Channel) : Word :=
  let w := s.reg .CH_STAT (chIx n c) &&& 0xC#32
  let lim := (driving s n c).isSome && liveBit s n c 0
  w ||| BitVec.ofNat 32 (b2n (swClosed s n c) + 2 * b2n (chSafe s n c) + 16 * b2n (lvlClamp s n c) + 32 * b2n lim +
    64 * b2n (vihGen s n c).isSome)

/-- CH_PM_STAT of channel c of cluster n; OC_LIMIT of a loop that is on is free (R102), and so is for how long
a clamp that has begun to act goes on (notes/assumptions/11.md). -/
def pmStatWord (s : State) (n : Cluster) (c : Channel) : Word :=
  let w := s.reg .CH_PM_STAT (chIx n c) &&& 0x90#32
  let lim := loopOn s n c && liveBit s n c 1
  w ||| BitVec.ofNat 32 (b2n (measBusy s n c) + 2 * b2n (loopOn s n c) + 4 * b2n (clampActs s n c 2) +
    8 * b2n (clampActs s n c 3) + 32 * b2n (fcodeLim s n c) + 64 * b2n lim)

/-- CL_HOP_STAT of cluster n: a half that the Hopper waits to enter is the one it has moved to (R188). -/
def hopStatWord (s : State) (n : Cluster) : Word :=
  let h := s.hop n
  let w := s.reg .CL_HOP_STAT n &&& 0x40000#32
  let half := if h.waitHalf then 1 - h.half else h.half
  w ||| BitVec.ofNat 32 (h.fillOf half + 65536 * half + 131072 * b2n h.waitHalf + 524288 * b2n h.load.isSome)

/-- CL_MR_STAT.RUNNING (R198). -/
def mrRunning (s : State) (n : Cluster) : Bool :=
  let q := s.seq n
  match q.rtn with
  | some x => !q.unwind && decide (x.span ≤ s.clasp * 512)
  | none => false

/-- Registers of a cluster window as they read. -/
def cluValue (s : State) (n : Cluster) (r : Reg) (i : Nat) : Word :=
  let w := s.reg r i
  match r with
  | .CH_CTRL => if fenced s n (elemCh i) || retired s n (elemCh i) then w &&& 0xFFFFFFC0#32 else w
  | .CH_STAT => chStatWord s n (elemCh i)
  | .CH_PM_STAT => pmStatWord s n (elemCh i)
  | .CH_PM_ICLAIM => BitVec.ofNat 32 (claimOf s n (elemCh i)).1
  | .CH_PM_PCLAIM => BitVec.ofNat 32 (claimOf s n (elemCh i)).2
  | .CL_PM_ICLAIM => BitVec.ofNat 32 (cluIClaim s n)
  | .CL_PM_PCLAIM => BitVec.ofNat 32 (cluPClaim s n)
  | .CL_STORE_STAT => putBit w 1 (wrOpen s n)
  | .CL_TRG_STAT => BitVec.ofNat 32 (s.trig n).queue.length
  | .CL_TS_STAT => putFld w 8 9 (s.stampQ n).length
  | .CL_HOP_STAT => hopStatWord s n
  | .CL_HOP_LEVEL => if streaming s n then BitVec.ofNat 32 (refillLevel (s.hop n) (s.seq n).fe.pc.a) else 0#32
  | .CL_TIM_PEND_AGE => BitVec.ofNat 32 (pendAge s n)
  | .CL_MR_STAT => putBit w 2 (mrRunning s n)
  | .CL_CAL_CNT | .CL_CAL_TLAST_LO | .CL_CAL_TLAST_HI => if repCount s then w else 0#32
  | .CL_CAL_QUAL => if repQuality s then w else 0#32
  | .CL_AWG_TDATA_LO => (awgEntry s n (elemGen i) (s.rf .CL_AWG_TIDX i 0 10)).1
  | .CL_AWG_TDATA_HI => (awgEntry s n (elemGen i) (s.rf .CL_AWG_TIDX i 0 10)).2
  | _ => w

/-- What element i of register r reads for requester q. -/
def regValue (s : State) (q : Req) (r : Reg) (i : Nat) : Word :=
  match r with
  | .DOM_SELF => BitVec.ofNat 32 q.val
  | .EVT_STAT => evtStat s i
  | .RING_TIME_LO => loWord s.clasp
  | .RING_TIME_HI => hiWord s.clasp
  | .SEM_STAT => semStat s i
  | .LOT_LFSR => lfsrNow s
  | .LOT_STAT => putBit (s.reg r i) 5 (lotMasked s i)
  | .SLC_DATA => slcWord s
  | .GOV_SUM_IBUD => BitVec.ofNat 32 (((List.range 24).map fun n => (s.reg .GOV_NOM_IBUD n).toNat).sum)
  | .GOV_SUM_PBUD => BitVec.ofNat 32 (((List.range 24).map fun n => (s.reg .GOV_NOM_PBUD n).toNat).sum)
  | .FLT_INJECT_LO | .FLT_INJECT_HI => 0#32
  | _ => if r.row.cluster then cluValue s (elemClu r i) r i else s.reg r i

/-- The _HI register of an RO pair that the part updates, by its _LO register (R375). -/
def pairHi (r : Reg) : Option Reg :=
  match r with
  | .TXN_TDONE_LO => some .TXN_TDONE_HI
  | .RING_TIME_LO => some .RING_TIME_HI
  | .CAP_TF_LO => some .CAP_TF_HI
  | .CAP_TEND_LO => some .CAP_TEND_HI
  | .LR_TLAST_LO => some .LR_TLAST_HI
  | .CL_SEQ_VCNT_LO => some .CL_SEQ_VCNT_HI
  | .CL_SEQ_TEND_LO => some .CL_SEQ_TEND_HI
  | .CL_CAL_TLAST_LO => some .CL_CAL_TLAST_HI
  | .CL_CAL_DUE_LO => some .CL_CAL_DUE_HI
  | .CL_CAP_T0_LO => some .CL_CAP_T0_HI
  | .CL_AWG_TJUMP_LO => some .CL_AWG_TJUMP_HI
  | _ => none

/-- The latch of R375 for element i of a _HI register and requester q. -/
def latchKey (q : Req) (r : Reg) (i : Nat) : Nat := 8 * r.key i + q.val

/-- A read of CH_PM_RES (R110): RES_NEW clears, the times are latched. -/
def pmResTake (n : Cluster) (c : Channel) (s : State) : State :=
  let ix := chIx n c
  (s.setRb .CH_PM_STAT ix 7 false).modChan n c fun x =>
    { x with pmLatch := some (s.reg .CH_PM_RES_TLO ix, s.reg .CH_PM_RES_THI ix) }

/-- A read of element i of r by q: its value, and what the read does (R110, R245, R356, R375). -/
def regRead (q : Req) (r : Reg) (i : Nat) (s : State) : Word × State :=
  let n := elemClu r i
  let c := elemCh i
  let v := regValue s q r i
  match r with
  | .CH_PM_RES => (v, pmResTake n c s)
  | .CH_PM_RES_TLO => (match (s.chan n c).pmLatch with | some x => x.1 | none => v, s)
  | .CH_PM_RES_THI =>
    (match (s.chan n c).pmLatch with | some x => x.2 | none => v, s.modChan n c fun x => { x with pmLatch := none })
  | .CH_RG_STAT => (v, rgStatTake n c s)
  | .SLC_DATA => (v, slcAdvance s)
  | .CH_STAT | .CH_PM_STAT => (v, { s with free := s.free + 1 })
  | _ =>
    match pairHi r with
    | some hi => (v, { s with hiLatch := tabSet none s.hiLatch (latchKey q hi i) (some (regValue s q hi i)) })
    | none =>
      match tabGet none s.hiLatch (latchKey q r i) with
      | some w => (w, { s with hiLatch := tabSet none s.hiLatch (latchKey q r i) none })
      | none => (v, s)

/-- A read of a word of a cluster's stores (R165). -/
def storeReadAt (n : Cluster) (w : StoreAddr) (s : State) : Word × State :=
  let r := storeGet s n w
  (r.1, if r.2 then s.setRb .CL_STORE_EVT n 2 true else s)

/-- Word k of the life record's image (R487); bytes past the record are as erased. -/
def lifeWord (s : State) (k : Nat) : Word :=
  BitVec.ofNat 32 (leNat (((lifeImage s ++ List.replicate 5860 0xFF#8).drop (4 * k)).take 4))

/-- A read of the BAR0 address a by q (R361, R362, R367). -/
def readAt (q : Req) (a : Nat) (s : State) : Word × State :=
  if a % 4 ≠ 0 then (0#32, s)
  else if 0x1800 ≤ a ∧ a < 0x1C08 then
    (if 4 ≤ q.val then 0#32 else if a < 0x1C00 then msixWord s q.val ((a - 0x1800) / 4) else pbaWord s q.val ((a - 0x1C00) / 4), s)
  else if 0x24000 ≤ a ∧ a < 0x28000 then (lifeWord s ((a - 0x24000) / 4), s)
  else
    match regAt a with
    | some (r, i) => regRead q r i s
    | none =>
      if 0x1000000 ≤ a ∧ a < 0x2800000 then
        match storeAt ((a - 0x1000000) % 0x100000) with
        | some w => storeReadAt (padClu ((a - 0x1000000) / 0x100000, 0)) w s
        | none => (0#32, s)
      else (0#32, s)

/-- Before boot has completed, only identity, HALLMARK, clocks and power give values (R434). -/
def bootReads (a : Nat) : Bool := decide (a < 0x140 ∨ (0xB000 ≤ a ∧ a < 0xC000))

/-- The register slave serves requester q: a host whose link is up, Cap and the management serial slave once boot has
completed (R419, R499). -/
def served (s : State) (q : Req) : Bool :=
  if q.val < 4 then linkServes s q.val else slaveUp s && decide (2 ≤ pwrState s)

/-- A register read by requester q; what it gives goes out. In SLEEP a host's read wakes the part first. -/
def hostRead (q : Req) (a : Nat) (s : State) : State :=
  if !served s q then s
  else
    let s1 := if q.val < 4 then hostWakes s else s
    let r := if pwrState s1 = 1 ∧ !bootReads a then (0#32, s1) else readAt q a s1
    r.2.emit (.regRead q.val a r.1)

end Sys2Proof.Machine
end

