-- ==== Sys2Proof/Machine/RegPut.lean ====
section
/-! DEFINITION. Sys2Proof/Machine/RegPut.lean: what an accepted write of any register does (R506 to R508), as its chapter
states, before the claim checks. -/

namespace Sys2Proof.Machine

/-- A write to CL_CAL_CTRL (R454): REQ makes the cluster due. -/
def calReqWrite (n : Cluster) (d m : Word) (s : State) : State :=
  let s1 := plainWrite .CL_CAL_CTRL n d m s
  if ones d m 0 then calBecomeDue n s1 else s1

/-- A write to STCORR_TAB (R234): the active band's words do not change while a stamp unit of the cluster is on. -/
def stcorrWrite (n : Cluster) (i : Nat) (d m : Word) (s : State) : Act :=
  if i % 320 / 64 = activeBand s n ∧ stampOn s n then .drop (s.setRb .CL_TS_EVT n 4 true) else .ok (plainWrite .STCORR_TAB i d m s)

/-- An accepted write of element i of a register of cluster n's window. -/
def cluPut (q : Req) (n : Cluster) (r : Reg) (i : Nat) (d m : Word) (s : State) : Act :=
  match r with
  | .CL_SEQ_CTRL => .ok (seqCtrlWrite q n d m s)
  | .CL_HOP_CTRL => .ok (hopCtrlWrite n d m s)
  | .CL_HOP_RSIZE => .ok (cappedWrite r i 0 13 4096 d m s)
  | .CL_MR_CMD => .ok (mrCmdWrite n d m s)
  | .CL_TIM_CTRL => .ok (timCtrlSet n (plainWord s r i d m) s)
  | .CL_CAL_CTRL => .ok (calReqWrite n d m s)
  | .CL_BLANK_TMR => .ok (blankTmrWrite n d m s)
  | .LEVEL_TAB => .ok (levelTabWrite n i d m s)
  | .EDGE_TAB | .FIX_TAB => tableWrite n true s (plainWrite r i d m s)
  | .CL_TS_PER => perWrite n i d m s
  | .CORR_TAB => corrWrite n i d m s
  | .STCORR_TAB => stcorrWrite n i d m s
  | .CH_TRIM | .AWG_TRIM => trimWrite n r i d m s
  | .CH_RG_CTRL => .ok (rgCtrlWrite n (elemCh i) d m s)
  | .CH_RG_GLEN_LO | .CH_RG_GLEN_HI => .ok (glenWrite r i d m s)
  | .CH_TS_CTRL => .ok (tsCtrlWrite n (elemCh i) d m s)
  | _ =>
    let b := r.row.base
    if 0x1000 ≤ b ∧ b < 0x1080 then .ok (chanWrite false r n (elemCh i) d m s)
    else if 0x18000 ≤ b ∧ b < 0x18040 then .ok (trgWrite r n (i % 8) d m s)
    else if 0x18800 ≤ b ∧ b < 0x18840 then .ok (cptWrite r n (elemGen i) d m s)
    else if 0x19000 ≤ b ∧ b < 0x19100 then genWrite r n (elemGen i) d m s
    else .ok (plainWrite r i d m s)

/-- A write to FLT_STICKY[i] (R470, R514): a source whose bit clears is no longer held raised. -/
def stickyWrite (i : Nat) (d m : Word) (s : State) : State :=
  (List.range 32).foldl
    (fun s b => if ones d m b then s.setFlt (32 * i + b) { s.flt (32 * i + b) with int := false } else s)
    (plainWrite .FLT_STICKY i d m s)

/-- A write to FLT_QUIET: fields above 10,000 are stored as 10,000. -/
def quietWrite (d m : Word) (s : State) : State :=
  let s1 := cappedWrite .FLT_QUIET 0 0 14 10000 d m s
  if 10000 < s1.rf .FLT_QUIET 0 16 14 then s1.setRf .FLT_QUIET 0 16 14 10000 else s1

/-- A write to EVT_ROUTE[k]: VEC 0 is stored as 1 (R515). -/
def routeWrite (k : Nat) (d m : Word) (s : State) : State :=
  let w := plainWord s .EVT_ROUTE k d m
  s.setReg .EVT_ROUTE k (if fld w 8 6 = 0 then putFld w 8 6 1 else w)

/-- A write to FLT_RET_CLU (R479). -/
def retCluWrite (d m : Word) (s : State) : State :=
  forClusters (fun n s => if ones d m n.val then retireCluster n s else s) s

/-- An accepted write of a register of the ring, the serial ports or Cap. -/
def linkPut (q : Req) (r : Reg) (i : Nat) (d m : Word) (s : State) : Act :=
  match r with
  | .RING_CTRL => .ok (ringCtrlWrite d m s)
  | .RING_CFG | .RING_WIRE => if s.rb .RING_CTRL 0 0 then .drop s else .ok (plainWrite r i d m s)
  | .RING_TLEAD => .ok (cappedWrite r i 0 18 161280 d m s)
  | .PSM_CTRL => .ok (psmCtrlWrite d m s)
  | .MSP_HCTRL => .ok (hctrlWrite q.val d m s)
  | .MBX_OUT => mbxOutWrite i d m s
  | .CAP_CTRL => .ok (capCtrlWrite d m s)
  | _ => .ok (plainWrite r i d m s)

/-- An accepted write of a register of the Governor or calibration. -/
def calPut (q : Req) (r : Reg) (i : Nat) (d m : Word) (s : State) : Act :=
  match r with
  | .GOV_CTRL => .ok (govCtrlWrite d m s)
  | .GOV_NOM_IBUD => nomWrite r i d m s
  | .GOV_NOM_PBUD => nomWrite r i d m s
  | .CAL_CTRL => .ok (calCtrlWrite d m s)
  | .CAL_REFV_CERT => certWrite d m s
  | _ => linkPut q r i d m s

/-- An accepted write of a register of clocks and power. -/
def powerPut (q : Req) (r : Reg) (i : Nat) (d m : Word) (s : State) : Act :=
  match r with
  | .CLK_PLL_CFG => .ok (cappedWrite r i 16 10 1000 d m s)
  | .PWR_CTRL => .ok (pwrCtrlWrite d m s)
  | _ => calPut q r i d m s

/-- An accepted write of a register of Millpond, Millrace or the semaphores. -/
def fabricPut (q : Req) (r : Reg) (i : Nat) (d m : Word) (s : State) : Act :=
  match r with
  | .MP_ALIAS => .ok (cappedWrite r i 0 6 40 d m s)
  | .BANK_OWN => bankOwnSet q i d m s
  | .BANK_STATE => bankStateSet q i d m s
  | .SLC_DATA => .ok (slcPut d m s)
  | .SLC_COMMIT => .ok (if ones d m 0 then slcGo s else s)
  | .LOT_COMMIT => .ok (if ones d m 0 then { s with lotPend := true } else s)
  | .LOT_LFSR => .ok (lfsrSet d m s)
  | .SEM_ACQ => .ok (semAcquire q i d m s)
  | .SEM_REL => .ok (semRelease q i d m s)
  | _ => powerPut q r i d m s

/-- An accepted write of a register of faults and health. -/
def faultPut (q : Req) (r : Reg) (i : Nat) (d m : Word) (s : State) : Act :=
  match r with
  | .FLT_CTRL => .ok (cappedWrite r i 0 7 80 d m s)
  | .FLT_QUIET => .ok (quietWrite d m s)
  | .FLT_STICKY => .ok (stickyWrite i d m s)
  | .FLT_INJECT_LO => .ok (s.setReg r i (mergeRw (s.reg r i) 0xFFFFFFFF#32 d m))
  | .FLT_INJECT_HI => .ok (inject (s.setReg r i (mergeRw 0#32 0xFFFFFFFF#32 d m)))
  | .FLT_RET_CLU => .ok (retCluWrite d m s)
  | .FLT_RET_CH => .ok (retireMask (padClu (i, 0)) (d &&& m) s)
  | .ASY_CTRL => .ok (asyCtrlWrite d m s)
  | _ => fabricPut q r i d m s

/-- An accepted write of element i of a global register. -/
def globalPut (q : Req) (r : Reg) (i : Nat) (d m : Word) (s : State) : Act :=
  match r with
  | .ID_CARD | .ID_SLOT => .ok (if s.rb .ID_LOCK 0 0 then s else plainWrite r i d m s)
  | .ID_LOCK => .ok (if ones d m 0 then s.setRb .ID_LOCK 0 0 true else s)
  | .HALLMARK_PATCH_CTRL => .ok (patchCtrlWrite d m s)
  | .DOM_MGMT => mgmtSet d m s
  | .DOM_CLU => cluOwnerSet i d m s
  | .HDMA0_RSIZE | .HDMA1_RSIZE => .ok (cappedWrite r i 0 13 4096 d m s)
  | .TXN_CTRL => .ok (txnCtrl i d m s)
  | .EVT_ROUTE => .ok (routeWrite i d m s)
  | _ => faultPut q r i d m s

/-- An accepted write at the BAR0 address a: nothing where no register lies, nothing of a cluster in reset (R503, R510); a write
that takes effect in a window ungates its cluster (R428). -/
def regPut (q : Req) (a : Nat) (d m : Word) (s : State) : Act :=
  if 0x1800 ≤ a ∧ a < 0x1C08 then
    .ok (if q.val < 4 ∧ a < 0x1C00 then msixPut q.val ((a - 0x1800) / 4) d m s else s)
  else if 0x1000000 ≤ a ∧ a < 0x2800000 then
    let n := padClu ((a - 0x1000000) / 0x100000, 0)
    if s.rb .ID_CLU_RST 0 n.val then .ok s
    else
      let x : Act :=
        match regAt a with
        | some (r, i) => cluPut q n r i d m s
        | none =>
          match storeAt ((a - 0x1000000) % 0x100000) with
          | some w => storePut n w d (decide (m = 0xFFFFFFFF#32)) s
          | none => .ok s
      match x with
      | .ok s' => .ok (ungate n.val s')
      | y => y
  else
    match regAt a with
    | some (r, i) => globalPut q r i d m s
    | none => .ok s

end Sys2Proof.Machine
end

