-- ==== Sys2Proof/Machine/RegWrite.lean ====
section
/-! DEFINITION. Sys2Proof/Machine/RegWrite.lean: which register writes are accepted (R361, R367, R378, R434), the claim and
budget checks of the state they would leave (R30, R105, R270, R271, R284), transactions as they commit (R381, R382). -/

namespace Sys2Proof.Machine

/-! ### Claims -/

/-- What CLAIM names for requester q: 1 the owning domain, 2 Cap (R270, R284). -/
def claimCode (q : Req) : Nat := if q = 4 then 2 else 1

/-- The resource that element i of a cluster register belongs to: 0 channel, 1 trigger unit, 2 capture engine,
3 generator, with its number. -/
def resOf (r : Reg) (i : Nat) : Option (Nat × Nat) :=
  let b := r.row.base
  if !r.row.cluster then none
  else if 0x1000 ≤ b ∧ b < 0x1080 then some (0, i % 32)
  else if 0x18000 ≤ b ∧ b < 0x18040 then some (1, i % 8)
  else if 0x18800 ≤ b ∧ b < 0x18840 then some (2, i % 2)
  else if 0x19000 ≤ b ∧ b < 0x19100 then some (3, i % 2)
  else none

/-- Unit u is enabled for another claimant, or its CAPACT names an engine that is not its own (R270). -/
def unitConflict (q : Req) (s : State) (n : Cluster) (u : Nat) : Bool :=
  let e : Fin 2 := if s.rb .CL_TRG_ACT (trgIx n u) 6 then 1 else 0
  (trgEn s n u && decide (s.rf .CL_TRG_CFG (trgIx n u) 30 2 ≠ claimCode q)) ||
    (decide (s.rf .CL_TRG_ACT (trgIx n u) 4 2 ≠ 0) && !(decide (cptClaim s n e = 3) && decide (s.rf .CL_CAP_CTRL (awgIx n e) 3 3 = u)))

/-- Engine e runs for another claimant (R270). -/
def engineConflict (q : Req) (s : State) (n : Cluster) (e : Fin 2) : Bool :=
  cptRun s n e && decide (cptClaim s n e ≠ 3 ∧ cptClaim s n e ≠ claimCode q)

/-- Generator g is in use for another claimant (R284). -/
def genConflict (q : Req) (s : State) (n : Cluster) (g : Fin 2) : Bool :=
  (decide (awgState s n g ≠ 0) || decide (awgDest s n g ≠ 0)) && decide (s.rf .CL_AWG_CTRL (awgIx n g) 6 2 ≠ claimCode q)

/-- The channels whose reference generator is not routed to them, with the generator (R284). -/
def refBad (s : State) (n : Cluster) (p : Nat → Bool) : Option Nat :=
  (List.finRange 32).findSome? fun c => if p c.val then (refConflict s n c).map fun g => g.val else none

/-- The lowest number of a resource of a kind among those touched for which p holds. -/
def firstOf (xs : List (Nat × Nat)) (kind len : Nat) (p : Nat → Bool) : Option Nat :=
  (List.range len).find? fun k => xs.contains (kind, k) && p k

/-- The claim checks on cluster n in the order R30, R270, R271, R284, for the resources touched: the resource of the first
that fails, as TXN_FAIL_RES codes its type and number. -/
def claimFail (q : Req) (s : State) (n : Cluster) (xs : List (Nat × Nat)) : Option (Nat × Nat) :=
  let gens := xs.any fun x => decide (x.1 = 3)
  let engs := xs.any fun x => decide (x.1 = 2)
  let units : Nat → Bool := fun u => xs.contains (1, u) || (engs && decide (s.rf .CL_TRG_ACT (trgIx n u) 4 2 ≠ 0))
  match firstOf xs 0 32 (fun c => nodeConflict s n (elemCh c)) with
  | some c => some (1, c)
  | none =>
  match (List.range 8).find? fun u => units u && unitConflict q s n u with
  | some u => some (3, u)
  | none =>
  match firstOf xs 2 2 (fun e => engineConflict q s n (elemGen e)) with
  | some e => some (4, e)
  | none =>
  match (if engs then (List.range 32).find? fun c => s.rb .CL_CAP_MASK (awgIx n 0) c && s.rb .CL_CAP_MASK (awgIx n 1) c else none) with
  | some c => some (2, c)
  | none =>
  match firstOf xs 3 2 (fun g => genConflict q s n (elemGen g)) with
  | some g => some (5, g)
  | none =>
  match refBad s n (fun c => gens || xs.contains (0, c)) with
  | some g => some (5, g)
  | none => if gens ∧ awgDest s n 0 = 2 ∧ awgDest s n 1 = 2 ∧ awgCh s n 0 = awgCh s n 1 then some (6, awgCh s n 0) else none

/-! ### Plain writes -/

/-- The cluster whose window holds the address, and the resource that the register there belongs to. -/
def touched (a : Nat) : Option (Cluster × Option (Nat × Nat)) :=
  if 0x1000000 ≤ a ∧ a < 0x2800000 then
    some (padClu ((a - 0x1000000) / 0x100000, 0), match regAt a with | some (r, i) => resOf r i | none => none)
  else none

/-- An accepted plain write with its claim and budget checks: the state it leaves, and whether it was performed. A write
refused with CONFLICT leaves everything as it was (R30, R105). -/
def regWrite (q : Req) (a : Nat) (d m : Word) (s : State) : State × Bool :=
  match regPut q a d m s with
  | .drop s' | .clash s' _ _ => (s', false)
  | .ok s' =>
    match touched a with
    | some (n, some x) =>
      if (claimFail q s' n [x]).isSome then (s, false)
      else if x.1 = 0 ∧ overBudget s s' n then (s.setRb .CH_EVT (chIx n (elemCh x.2)) 21 true, false)
      else (s', true)
    | _ => (s', true)

/-! ### Acceptance (R367) -/

/-- The registers that belong to one domain, by index (R370, R385). -/
def ownReg (r : Reg) : Bool :=
  let b := r.row.base
  decide ((0x1400 ≤ b ∧ b < 0x1600) ∨ (0x2000 ≤ b ∧ b < 0x2100))

/-- Why a write of d to a global register by q is refused: 0 it is accepted, 1 NOT_OWNER, 2 NOT_MGMT. -/
def refuseGlobal (q : Req) (r : Reg) (i : Nat) (d m : Word) (s : State) : Nat :=
  match r with
  | .SEM_ACQ | .SEM_REL | .BANK_OWN | .BANK_STATE => 0
  | .MSP_HCTRL | .MBX_OUT => if q.val < 4 then 0 else 2
  | .EVT_PEND0 => if q.val = 0 then 0 else 1
  | .EVT_PEND1 => if q.val = 1 then 0 else 1
  | .EVT_PEND2 => if q.val = 2 then 0 else 1
  | .EVT_PEND3 => if q.val = 3 then 0 else 1
  | .DOM_MGMT => if isMgmt s q || mgmtTake s q d m then 0 else 2
  | _ => if ownReg r then (if q.val = i then 0 else 1) else if isMgmt s q then 0 else 2

/-- Why a write at address a by q is refused: 3 is BUSY_FLOW. Addresses that hold no register refuse nothing. -/
def refuseCode (q : Req) (a : Nat) (d m : Word) (s : State) : Nat :=
  if 0x1800 ≤ a ∧ a < 0x1C08 then 0
  else if 0x1000000 ≤ a ∧ a < 0x2800000 then
    let n := (a - 0x1000000) / 0x100000
    let off := (a - 0x1000000) % 0x100000
    if (regAt a).isNone ∧ (storeAt off).isNone then 0
    else if !ownsClu s q n && !(decide (q = 4) && flowClu s n) then 1
    else if flowClu s n && decide (q ≠ 4) && !(decide (off = 0) && ones d m 1) then 3
    else 0
  else
    match regAt a with
    | some (r, i) => refuseGlobal q r i d m s
    | none => 0

/-- During a flow a write to CL_SEQ_CTRL that sets ABORT does nothing else (R367). -/
def flowBits (q : Req) (a : Nat) (m : Word) (s : State) : Word :=
  if 0x1000000 ≤ a ∧ a < 0x2800000 ∧ q ≠ 4 then (if flowClu s ((a - 0x1000000) / 0x100000) then m &&& 2#32 else m) else m

/-- A refused write is recorded (R367). -/
def noteRefused (q : Req) (a code : Nat) (s : State) : State :=
  let n := satInc 65535 (s.rf .DOM_WREF_INFO q.val 0 16)
  let s1 := (s.setReg .DOM_WREF_INFO q.val (BitVec.ofNat 32 (2 ^ 31 + 65536 * code + n))).setReg .DOM_WREF_ADDR q.val
    (BitVec.ofNat 32 (a % 2 ^ 26))
  if q.val < 4 then s1.setRb .HL_EVT q.val 5 true else s1

/-- An open transaction of q stages writes to this address (R378). -/
def stages (q : Req) (a : Nat) (s : State) : Bool :=
  decide (q.val < 4) && decide (txnState s q.val = 1) && !decide ((0x2000 ≤ a ∧ a < 0x2100) ∨ (0xA000 ≤ a ∧ a < 0xA080))

/-- A write of the register slave's requester q, of whole words for Cap and the management serial slave: the state, and the
code with which it was refused, 0 if it was not. -/
def slaveWrite (q : Req) (a : Nat) (d : Word) (be : BitVec 4) (s : State) : State × Nat :=
  let m := if q.val < 4 then byteMask be else 0xFFFFFFFF#32
  if stages q a s then (txnStage q.val ⟨a, d, be⟩ s, 0)
  else
    let code := refuseCode q a d m s
    if code ≠ 0 then (noteRefused q a code s, code) else ((regWrite q a d (flowBits q a m s) s).1, 0)

/-- A BAR0 write as it comes to the register slave (R361, R434): longer writes are recorded as BAD_SIZE; before boot has
completed every write is dropped; a host's wakes the part. -/
def hostWrite (q : Req) (a : Nat) (d : Word) (be : BitVec 4) (size : Nat) (s : State) : State :=
  if !served s q then s
  else
    let s1 := if q.val < 4 then hostWakes s else s
    if pwrState s1 = 1 then s1
    else if size ≠ 4 ∨ a % 4 ≠ 0 then noteRefused q a 4 s1
    else (slaveWrite q a d be s1).1

/-- A write of element i of register r with the bits `set` written 1. -/
def cmdWrite (q : Req) (r : Reg) (i : Nat) (d : Word) (set : Word) (s : State) : State :=
  hostWrite q (r.addr i) (d ||| set) 0xF#4 4 s

/-! ### Commit (R381, R382) -/

/-- How a check of a transaction ends: the code of TXN_RES, FAIL_IDX, TXN_FAIL_RES. -/
abbrev TxnFail := Nat × (Nat × Nat)

/-- TXN_FAIL_RES. -/
def failRes (type clu idx : Nat) : Nat := type * 2 ^ 28 + clu * 65536 + idx

/-- The mask of a staged write. -/
def Staged.mask (w : Staged) : Word := byteMask w.be

/-- The code of TXN_RES for a refusal of R367. -/
def txnCode (code : Nat) : Nat := match code with | 1 => 4 | 3 => 5 | _ => 10

/-- Stage 1: staged writes from index i on, in order, each against the state the ones before it leave; the states before
each write, newest first, or the first failure. -/
def stageOne (q : Req) : Nat → List Staged → State → List State → Except TxnFail (State × List State)
  | _, [], s, past => .ok (s, past)
  | i, w :: rest, s, past =>
    let code := refuseCode q w.addr w.data w.mask s
    if code ≠ 0 then .error (txnCode code, (i, 0))
    else
      match regPut q w.addr w.data (flowBits q w.addr w.mask s) s with
      | .drop _ => .error (6, (i, 0))
      | .clash _ n g => .error (2, (i, failRes 5 n g))
      | .ok s' => stageOne q (i + 1) rest s' (s :: past)

/-- The resources of cluster n that staged writes touch. -/
def stagedRes (xs : List Staged) (n : Nat) : List (Nat × Nat) :=
  xs.filterMap fun w => match touched w.addr with | some (k, x) => if k.val = n then x else none | none => none

/-- The address is CH_CTRL or CH_PM_CTRL, which hold a channel node's claimant and functions (R29). -/
def nodeReg (a : Nat) : Bool :=
  match regAt a with
  | some (.CH_CTRL, _) | some (.CH_PM_CTRL, _) => true
  | _ => false

/-- A staged write addresses a register of the resource that a conflict of this type names. -/
def namesRes (n type idx : Nat) (w : Staged) : Bool :=
  match touched w.addr with
  | some (k, some x) =>
    decide (k.val = n) &&
      (match type with
        | 1 => decide (x = (0, idx)) && nodeReg w.addr
        | 2 => decide (x.1 = 2)
        | 3 => decide (x = (1, idx))
        | 4 => decide (x = (2, idx))
        | 5 => decide (x = (3, idx))
        | _ => decide (x.1 = 3))
  | _ => false

/-- The highest index below `len` for which p holds. -/
def lastIdx (xs : List Staged) (p : Nat → Staged → Bool) : Option Nat :=
  (xs.zipIdx.foldl (fun m e => if p e.2 e.1 then some e.2 else m) none)

/-- FAIL_IDX of a conflict; where no write is to the resource itself, the highest to the cluster's window. -/
def conflictIdx (xs : List Staged) (n type idx : Nat) : Nat :=
  match lastIdx xs (fun _ w => namesRes n type idx w) with
  | some i => i
  | none => (lastIdx xs (fun _ w => match touched w.addr with | some (k, some _) => decide (k.val = n) | _ => false)).getD 0

/-- FAIL_IDX of BUDGET_EXCEEDED: the highest write that raised a claim of cluster n; `states` are the states before each
write and after the last. -/
def budgetIdx (states : List State) (n : Cluster) : Nat :=
  ((states.zip states.tail).zipIdx.foldl
    (fun m e => if cluIClaim e.1.1 n < cluIClaim e.1.2 n ∨ cluPClaim e.1.1 n < cluPClaim e.1.2 n then e.2 else m) 0)

/-- Stage 2, in ascending cluster: claims, then the budget. -/
def stageTwo (q : Req) (xs : List Staged) (s s' : State) (states : List State) : Option TxnFail :=
  (List.finRange 24).findSome? fun n =>
    let res := stagedRes xs n.val
    if res = [] then none
    else
      match claimFail q s' n res with
      | some (type, idx) => some (2, (conflictIdx xs n.val type idx, failRes type n.val idx))
      | none => if overBudget s s' n then some (3, (budgetIdx states n, failRes 7 n.val 0)) else none

/-- The first staged write to the window of a cluster in a CLUSTER reset (R510). -/
def resetIdx (xs : List Staged) (s : State) : Option Nat :=
  xs.findIdx? fun w => match touched w.addr with | some (n, _) => s.rb .ID_CLU_RST 0 n.val | none => false

/-- All checks of a commit of domain q: the state that all writes leave, or the failure. -/
def txnJudge (q : Req) (xs : List Staged) (s : State) : Except TxnFail State :=
  match resetIdx xs s with
  | some i => .error (6, (i, 0))
  | none =>
    match stageOne q 0 xs s [] with
    | .error e => .error e
    | .ok (s', past) =>
      match stageTwo q xs s s' (past.reverse ++ [s']) with
      | some e => .error e
      | none => .ok s'

/-- The domain as a requester. -/
def domReq (h : Dom) : Req := ⟨h.val, Nat.lt_trans h.isLt (by decide)⟩

/-- The commit cycle of domain h (R381, R382), which begins at Clasp time `start`. -/
def txnCommit (h : Dom) (start : Nat) (s : State) : State :=
  let xs := (s.txn h.val).staged
  if s.rb .TXN_STAT h.val 8 then txnEnd h.val 7 1024 (s.txn h.val).lost 0 s
  else
    match txnJudge (domReq h) xs s with
    | .error (code, (i, res)) => txnEnd h.val code i (stagedAt s h.val i) res s
    | .ok s' =>
      let s1 := txnEnd h.val 1 0 0 0 s'
      (s1.setPair .TXN_TDONE_LO .TXN_TDONE_HI h.val start).countWrap .TXN_CNT h.val 32

/-- TXN_COMMIT_CYCLE (R379 to R382): its writes take effect at the start of the cycle (R380). -/
def execTxnCommitCycle (t : Nat) (h : Dom) (s0 : State) : Res :=
  .next (if txnState s0 h.val ≠ 2 then s0.at t
    else
      match (s0.txn h.val).cycle with
      | some x => if x ≤ (s0.at t).clasp then (txnCommit h x (s0.at x)).at t else s0.at t
      | none =>
        let s := s0.at t
        if txnIdle s h.val then txnCommit h (s.clasp / 80 * 80) s else s)

/-- REGISTER_WRITE (R367): a write of any register. -/
def execRegisterWrite (t : Nat) (r : Req) (a : BitVec 26) (data : Word) (be : BitVec 4) (size : Nat) (s0 : State) : Res :=
  .next (hostWrite r a.toNat data be size (s0.at t))

end Sys2Proof.Machine
end

