-- ==== Sys2Proof/Machine/Boot.lean ====
section
/-! DEFINITION. Sys2Proof/Machine/Boot.lean: the Nirix image and boot (R323, R489 to R494), the end of a WARM reset. -/

namespace Sys2Proof.Machine

def modBoot (f : Boot → Boot) (s : State) : State := { s with boot := f s.boot }

/-! ### The image -/

/-- `len` bytes of the flash from byte a on; flash past the bytes given is erased. -/
def imgBytes (img : List Byte) (a len : Nat) : List Byte :=
  let b := (img.drop a).take len
  b ++ List.replicate (len - b.length) 0xFF#8

/-- A field of the image header (R489). -/
def imgField (img : List Byte) (a len : Nat) : Nat := leNat (imgBytes img a len)

/-- An entry of the section table (R490). -/
structure BootSec where
  type : Nat
  offset : Nat
  len : Nat
  scrc : Nat
  dest : Nat
  deriving DecidableEq, Repr

/-- Entry i of the section table. -/
def bootSec (img : List Byte) (i : Nat) : BootSec :=
  let a := 64 + 24 * i
  ⟨imgField img a 1, imgField img (a + 4) 4, imgField img (a + 8) 4, imgField img (a + 12) 4, imgField img (a + 16) 4⟩

def imgNsec (img : List Byte) : Nat := imgField img 6 2
def imgLen (img : List Byte) : Nat := imgField img 8 4
/-- FLAGS bit b: 0 AUTORUN, 1 REAPPLY, 2 LIB_REQ. -/
def imgFlag (img : List Byte) (b : Nat) : Bool := decide (imgField img 16 1 / 2 ^ b % 2 = 1)
/-- OWNER as it acts. -/
def imgOwner (img : List Byte) : Nat :=
  let o := imgField img 17 1
  if o < 4 ∨ o = 5 then o else 0

/-- The sections in table order, each with its number. -/
def imgSecs (img : List Byte) : List (Nat × BootSec) := (List.range (imgNsec img)).map fun i => (i, bootSec img i)

/-- The bytes of a section. -/
def secBytes (img : List Byte) (x : BootSec) : List Byte := imgBytes img x.offset x.len

/-- A section's entry meets the table rules of R490. -/
def secValid (img : List Byte) (x : BootSec) : Bool :=
  decide (1 ≤ x.type ∧ x.type ≤ 6) && decide (64 + 24 * imgNsec img ≤ x.offset ∧ x.offset + x.len ≤ imgLen img) &&
    (match x.type with
      | 1 => libFormat (secBytes img x)
      | 2 => decide (x.len % 8 = 0 ∧ x.len ≤ 32768)
      | 3 => decide (x.dest + x.len ≤ mpSize ∧ x.dest % 64 = 0 ∧ x.len % 32 = 0 ∧ 32 ≤ x.len ∧ x.len ≤ 24576)
      | 4 => decide (x.dest + x.len ≤ mpSize ∧ x.dest % 64 = 0)
      | _ => decide (x.dest + x.len ≤ mpSize ∧ x.dest % 4 = 0))

/-- The table is valid (R490). -/
def tableValid (img : List Byte) : Bool :=
  let xs := imgSecs img
  xs.all (fun e => secValid img e.2) &&
    [1, 2, 3, 4].all fun ty => decide ((xs.filter fun e => decide (e.2.type = ty)).length ≤ 1)

/-- BOOT_STAT.ERR of the header and table: 0 none, 1 MAGIC, 2 FORMAT, 3 table, 4 HCRC (R492, R493). -/
def imgErr (img : List Byte) : Nat :=
  if imgField img 0 4 ≠ 0x5849524E then 1
  else if imgField img 4 2 ≠ 1 then 2
  else if imgNsec img = 0 ∨ 32 < imgNsec img then 3
  else if !tableValid img then 3
  else if (crc32 (imgBytes img 0 20 ++ imgBytes img 64 (24 * imgNsec img))).toNat ≠ imgField img 20 4 then 4
  else 0

/-- A section's SCRC agrees. -/
def secCrc (img : List Byte) (x : BootSec) : Bool := decide ((crc32 (secBytes img x)).toNat = x.scrc)

/-- A LIBRARY section that R220 accepts, at LIB_REQ's demand (R493). -/
def imgLibOk (img : List Byte) : Bool :=
  (imgSecs img).any fun e => decide (e.2.type = 1) && decide (libVerify (secBytes img e.2) = 1)

/-- AUTORUN takes effect (R493). -/
def imgAuto (img : List Byte) : Bool :=
  imgFlag img 0 && (imgSecs img).all (fun e => secCrc img e.2) && (!imgFlag img 2 || imgLibOk img)

/-- CONFIG entries (R491). -/
def configOf : List Byte → List (Nat × Word)
  | a0 :: a1 :: a2 :: a3 :: v0 :: v1 :: v2 :: v3 :: r =>
    (leNat [a0, a1, a2, a3], BitVec.ofNat 32 (leNat [v0, v1, v2, v3])) :: configOf r
  | _ => []

/-! ### Sections (R492 step 2, R493) -/

/-- Section i fails. -/
def secFail (i : Nat) (s : State) : State := s.setRb .BOOT_SECERR 0 i true

/-- A LIBRARY section is verified, and installed if R220 accepts it; HALLMARK_STAT shows the outcome. -/
def secLibrary (i : Nat) (b : List Byte) (s : State) : State :=
  let c := libVerify b
  let s1 := s.setRf .HALLMARK_STAT 0 4 3 c
  if c = 1 then libInstall b s1 else secFail i (s1.setRf .HALLMARK_STAT 0 0 3 c)

/-- A section as it arrives: types 3 to 6 go to Millpond, CONFIG to the boot store if its SCRC agrees. -/
def secLoad (img : List Byte) (e : Nat × BootSec) (s : State) : State :=
  let b := secBytes img e.2
  let ok := secCrc img e.2
  let s1 := if ok then s else secFail e.1 s
  match e.2.type with
  | 1 => secLibrary e.1 b s1
  | 2 => if ok then modBoot (fun x => { x with config := configOf b }) s1 else s1
  | _ => memWrite .cal false none e.2.dest b s1

/-! ### Ownership and CONFIG (R492 steps 3 and 4, R491) -/

/-- DOM_MGMT becomes OWNER, every DOM_CLU[n] OWNER or Cap. -/
def bootOwners (owner clu : Nat) (s : State) : State :=
  (List.range 24).foldl (fun s n => s.setRf .DOM_CLU n 0 3 clu) (s.setRf .DOM_MGMT 0 0 3 owner)

/-- The requester that an ownership code names, or H0 where it names none. -/
def ownerReq (v : Nat) : Req := if h : v < 6 then ⟨v, h⟩ else 0

/-- The requester an entry counts as: the owner of the cluster in its window, else the management owner. -/
def configReq (a : Nat) (s : State) : Req :=
  if 0x1000000 ≤ a ∧ a < 0x2800000 then ownerReq (s.rf .DOM_CLU ((a - 0x1000000) / 0x100000) 0 3)
  else ownerReq (s.rf .DOM_MGMT 0 0 3)

/-- An entry is not accepted: its address breaks R491, or it is a register that R367 gives to other requesters. -/
def configRefused (a : Nat) (d : Word) (s : State) : Bool :=
  let q := configReq a s
  decide (a % 4 ≠ 0 ∨ 0x2800000 ≤ a) || decide (0x1800 ≤ a ∧ a < 0x1C08) ||
    (decide (a < 0x1000000) && decide (refuseCode q a d 0xFFFFFFFF#32 (s.setRf .DOM_MGMT 0 0 3 q.val) ≠ 0))

/-- An entry of the CONFIG section: the state, and whether it was applied. -/
def configEntry (e : Nat × Word) (s : State) : State × Bool :=
  if configRefused e.1 e.2 s then (s, false) else regWrite (configReq e.1 s) e.1 e.2 0xFFFFFFFF#32 s

/-- Entries in order, counting those applied and those dropped. -/
def configRun : List (Nat × Word) → Nat → Nat → State → State × (Nat × Nat)
  | [], ok, bad, s => (s, (ok, bad))
  | e :: r, ok, bad, s =>
    let x := configEntry e s
    if x.2 then configRun r (ok + 1) bad x.1 else configRun r ok (bad + 1) x.1

/-- The CONFIG entries of the boot store are applied; BOOT_CFG_CNT counts them. -/
def configApply (s : State) : State :=
  let x := configRun s.boot.config 0 0 s
  x.1.setReg .BOOT_CFG_CNT 0 (BitVec.ofNat 32 (65536 * x.2.2 + x.2.1))

/-! ### Autorun (R323) -/

/-- The addresses autorun writes. -/
def imgAutoWords (img : List Byte) : Nat × (Nat × Nat) :=
  let sec : Nat → BootSec := fun ty =>
    match (imgSecs img).find? fun e => decide (e.2.type = ty) with | some e => e.2 | none => ⟨0, 0, 0, 0, 0⟩
  ((sec 4).dest / 64, ((sec 3).dest / 64, (sec 3).len / 32))

/-- The remaining steps of R323: the addresses from the image, then GO with REPEAT 1. -/
def autorun (s : State) : State :=
  match s.boot.auto with
  | some (f, (m, k)) =>
    let s1 := ((s.setRf .CAP_FLOW_BASE 0 0 20 f).setRf .CAP_MAP_BASE 0 0 20 m).setReg .CAP_MAP_CNT 0 (BitVec.ofNat 32 k)
    capCtrlWrite 0x801#32 0x801#32 s1
  | none => s

/-! ### Boot -/

/-- Steps 1 to 5 of R492 on an accepted image. -/
def bootGood (img : List Byte) (slots : List (List Byte)) (s : State) : State :=
  let auto := imgAuto img
  let s1 := modBoot (fun x => { x with auto := if auto then some (imgAutoWords img) else none,
                                       ssvid := imgField img 12 2, ssid := imgField img 14 2 }) s
  let s2 := (s1.setReg .BOOT_STAT 0 (BitVec.ofNat 32 (16 + 32 * b2n auto + 64 * b2n (imgFlag img 1)))).setReg .BOOT_IMG_LEN 0
    (BitVec.ofNat 32 (imgLen img))
  let s3 := (imgSecs img).foldl (fun s e => secLoad img e s) s2
  lifeRead slots (configApply (bootOwners (imgOwner img) (if auto then 4 else imgOwner img) s3))

/-- Steps 3 and 5 after a failure of the header or table (R493). -/
def bootBad (err : Nat) (slots : List (List Byte)) (s : State) : State :=
  lifeRead slots (bootOwners 0 0 (s.setReg .BOOT_STAT 0 (BitVec.ofNat 32 err)))

/-- The boot loader may start: STATE is BOOT and it has not yet started. -/
def bootMayStart (s : State) : Bool := decide (pwrState s = 1) && slaveUp s && !s.boot.started

/-- BOOT_START (R492): the flash holds `image`, and the slots of the life record (R485). -/
def execBootStart (t : Nat) (image : List Byte) (slots : List (List Byte)) (s0 : State) : Res :=
  let s := s0.at t
  .next (if bootMayStart s then
      let s1 := modBoot (fun x => { x with started := true }) s
      if imgErr image = 0 then bootGood image slots s1 else bootBad (imgErr image) slots s1
    else s)

/-- Steps 6 and 7 of R492; every cluster is then due for calibration (R454). -/
def bootDone (s : State) : State :=
  let s1 := (autorun s).setRb .BOOT_STAT 0 8 true
  forClusters calBecomeDue (s1.setRf .PWR_STAT 0 0 3 2)

/-- BOOT_COMPLETE (R492). -/
def execBootComplete (t : Nat) (s0 : State) : Res :=
  let s := s0.at t
  .next (if s.boot.started && !s.rb .BOOT_STAT 0 8 && decide (pwrState s = 1) && slaveUp s then bootDone s else s)

/-- The end of a WARM reset, unless something still holds it or ROOT is not stable (R432); with REAPPLY, steps 4 and 6 again
(R494). -/
def warmEnd (s : State) : State :=
  if s.pwr.por || !s.pwr.stable || s.pwr.fault || warmHeld s then s
  else
    let s1 := warmBack s
    if s1.rb .BOOT_STAT 0 6 && s1.rb .BOOT_STAT 0 8 then autorun (configApply s1) else s1

end Sys2Proof.Machine
end

