-- ==== Sys2Proof/Machine/CapFlow.lean ====
section
/-! DEFINITION. Sys2Proof/Machine/CapFlow.lean: events of Cap (R308 to R320). -/

namespace Sys2Proof.Machine

/-- CAP_CHECK_DONE (R308, R315, R316). -/
def execCapCheckDone (t : Nat) (s0 : State) : Res :=
  let s := s0.at t
  .next (if slaveUp s ∧ capState s = 1 then capChecked s else s)

/-- What a poll read acts (R316, R317): an ABORT wins over a start-of-test. -/
def pollAct (bits : Nat) (s : State) : State :=
  if bits / 2 % 2 = 1 then capAbort s else if bits % 2 = 1 then capSot none s else s

/-- CAP_POLL (R318, R426): the status frame and the second byte that came back. In SLEEP what it reads is a wake cause, and is
held where CAP does not wake the part. -/
def execCapPoll (t : Nat) (reply : List Byte) (s0 : State) : Res :=
  let s := s0.at t
  let period := max 1 (s.rf .CAP_PRB 0 16 16) * 8000
  let bits := bf reply 1 1 % 4
  .next (if slaveUp s && decide (capState s ≠ 0) && decide (sotSrc s = 1) && decide (s.cap.polled = 0 ∨ s.cap.polled - 1 + period ≤ s.clasp)
        && !(s.rb .PSM_STAT 0 0 && !s.rb .PSM_STAT 0 1) then
      let s1 := (modCap (fun c => { c with polled := s.clasp + 1 }) s).emit (.frame [1#8, 0#8])
      if pwrState s1 = 3 then
        if bits = 0 then s1
        else if s1.rb .PWR_WAKE_EN 0 3 then pollAct bits (wakeUp (s1.wake 5))
        else modCap (fun c => { c with heldPoll := c.heldPoll ||| bits }) s1
      else
        let b := bits ||| s1.cap.heldPoll
        pollAct b (modCap (fun c => { c with heldPoll := 0 }) s1)
    else s)

/-- CAP_RECORD_START (R309 to R312): the lowest next record among the active sites starts; while a record runs, the STARTs
that waited for an unwind are written. -/
def execCapRecordStart (t : Nat) (s0 : State) : Res :=
  let s := s0.at t
  .next (if slaveUp s ∧ capState s = 3 then
      (if s.cap.run.isSome then recordLater s
       else match nextRecord s with | some r => recordStart r s | none => s)
    else s)

/-- CAP_TIMEOUT (R311). -/
def execCapTimeout (t : Nat) (s0 : State) : Res :=
  let s := s0.at t
  .next (match s.cap.run with
    | some x =>
      let lim := bf x.bytes 32 8
      if slaveUp s ∧ bf x.bytes 0 1 = 1 ∧ lim ≠ 0 ∧ !x.timedOut ∧ x.t + lim ≤ s.clasp then recordTimeout x s else s
    | none => s)

/-- CAP_RECORD_END (R311 to R315): every cluster of the record is IDLE, or every gate has a result; the record is judged. -/
def execCapRecordEnd (t : Nat) (s0 : State) : Res :=
  let s := s0.at t
  .next (match s.cap.run with
    | some x => if slaveUp s ∧ recordOver s x then recordEnd x s else s
    | none => s)

/-- CAP_DLOG_WRITE (R320). -/
def execCapDlogWrite (t : Nat) (s0 : State) : Res :=
  let s := s0.at t
  .next (if slaveUp s then dlogWrite s else s)

/-- CAP_FINISH (R317, R319): FINISH goes as far as it can: after an ABORT held contexts are abandoned; the lists and the
FLOW_END record; the copy and CAP_EVT.END; the end-of-test frame and the end of the flow. -/
def execCapFinish (t : Nat) (s0 : State) : Res :=
  let s := s0.at t
  .next (if slaveUp s ∧ capState s = 4 then
      let s1 := if s.cap.phase = 0 ∧ finishReady s then
          dlogWrite (finishLists (if s.cap.aborted then capClusters abandonOp s else s))
        else s
      let s2 := if s1.cap.phase = 1 ∧ s1.cap.dlog = [] then finishEnd s1 else s1
      if s2.cap.phase = 2 ∧ (!s2.rb .CAP_CTRL 0 3 ∨ !capMaster s2 ∨ partsDone s2) then finishLast s2 else s2
    else s)

end Sys2Proof.Machine
end

