-- ==== Sys2Proof/Machine/ChanCmds.lean ====
section
/-! DEFINITION. Sys2Proof/Machine/ChanCmds.lean: commands to the channel and its parametric unit, each a write or a read of
one of its registers. -/

namespace Sys2Proof.Machine

/-- SAFE_REQUEST (R36): CH_CTRL.SAFE. -/
def execSafeRequest (t : Nat) (r : Req) (n : Cluster) (c : Channel) (data : Word) (s0 : State) : Res :=
  .next (cmdWrite r .CH_CTRL (chIx n c) data 0x40#32 (s0.at t))

/-- SWITCH_CLOSE (R38): CONNECT becomes 1. -/
def execSwitchClose (t : Nat) (r : Req) (n : Cluster) (c : Channel) (data : Word) (s0 : State) : Res :=
  .next (cmdWrite r .CH_CTRL (chIx n c) data 1#32 (s0.at t))

/-- SWITCH_OPEN (R39): CONNECT becomes 0. -/
def execSwitchOpen (t : Nat) (r : Req) (n : Cluster) (c : Channel) (data : Word) (s0 : State) : Res :=
  .next (cmdWrite r .CH_CTRL (chIx n c) (data &&& 0xFFFFFFFE#32) 0#32 (s0.at t))

/-- LEVEL_SET_SELECT (R52). -/
def execLevelSetSelect (t : Nat) (r : Req) (n : Cluster) (c : Channel) (data : Word) (s0 : State) : Res :=
  .next (cmdWrite r .CH_LVL (chIx n c) data 0#32 (s0.at t))

/-- CMP_CONFIG_WRITE (R60). -/
def execCmpConfigWrite (t : Nat) (r : Req) (n : Cluster) (c : Channel) (data : Word) (s0 : State) : Res :=
  .next (cmdWrite r .CH_CMP (chIx n c) data 0#32 (s0.at t))

/-- BLANK_TIMER_START (R67): CL_BLANK_TMR.EN. -/
def execBlankTimerStart (t : Nat) (r : Req) (n : Cluster) (data : Word) (s0 : State) : Res :=
  .next (cmdWrite r .CL_BLANK_TMR n.val data 0x1000000#32 (s0.at t))

/-- SELFCHK_START (R71). -/
def execSelfchkStart (t : Nat) (r : Req) (n : Cluster) (c : Channel) (data : Word) (s0 : State) : Res :=
  .next (cmdWrite r .CH_SELFCHK (chIx n c) data 1#32 (s0.at t))

/-- PM_FORCE_ENABLE (R83): CH_PM_CTRL.EN, on or off. -/
def execPmForceEnable (t : Nat) (r : Req) (n : Cluster) (c : Channel) (data : Word) (s0 : State) : Res :=
  .next (cmdWrite r .CH_PM_CTRL (chIx n c) data 0#32 (s0.at t))

/-- PM_RANGE_CHANGE (R87): CH_PM_CTRL with its RANGE. -/
def execPmRangeChange (t : Nat) (r : Req) (n : Cluster) (c : Channel) (data : Word) (s0 : State) : Res :=
  .next (cmdWrite r .CH_PM_CTRL (chIx n c) data 0#32 (s0.at t))

/-- The register of a setting of the parametric unit. -/
def pmSettingReg : PmSetting → Reg
  | .ctrl => .CH_PM_CTRL
  | .fv => .CH_PM_FV
  | .fi => .CH_PM_FI
  | .iclh => .CH_PM_ICLH
  | .icll => .CH_PM_ICLL
  | .vclh => .CH_PM_VCLH
  | .vcll => .CH_PM_VCLL

/-- PM_SETTING_WRITE (R105). -/
def execPmSettingWrite (t : Nat) (r : Req) (n : Cluster) (c : Channel) (w : PmSetting) (data : Word) (s0 : State) : Res :=
  .next (cmdWrite r (pmSettingReg w) (chIx n c) data 0#32 (s0.at t))

/-- PM_START (R94): CH_PM_CTRL.START. -/
def execPmStart (t : Nat) (r : Req) (n : Cluster) (c : Channel) (data : Word) (s0 : State) : Res :=
  .next (cmdWrite r .CH_PM_CTRL (chIx n c) data 0x800#32 (s0.at t))

/-- PM_CONT (R97): CH_PM_CTRL.CONT. -/
def execPmCont (t : Nat) (r : Req) (n : Cluster) (c : Channel) (data : Word) (s0 : State) : Res :=
  .next (cmdWrite r .CH_PM_CTRL (chIx n c) data 0x1000#32 (s0.at t))

/-- PM_RES_READ (R110). -/
def execPmResRead (t : Nat) (r : Req) (n : Cluster) (c : Channel) (s0 : State) : Res :=
  .next (hostRead r (Reg.addr .CH_PM_RES (chIx n c)) (s0.at t))

end Sys2Proof.Machine
end

