-- ==== Sys2Proof/Machine/Channel.lean ====
section
/-! DEFINITION. Sys2Proof/Machine/Channel.lean: the events of the channel: switch, overcurrent, levels, comparators,
blanking, self-checks (R27 to R77). -/

namespace Sys2Proof.Machine

/-- SAFE_ENTRY_COMPLETE (R34, R39): the switch has opened; a channel that so enters safe state ends its measurement (R96)
and its gate (R243). -/
def execSafeEntryComplete (t : Nat) (n : Cluster) (c : Channel) (s0 : State) : Res :=
  let s := s0.at t
  .next (if (s.chan n c).sw = .opening then
      (endGate n c 5 false (endMeas n c s)).modChan n c fun x => { x with sw := .opened, drvOn := false }
    else s)

/-- SWITCH_CLOSED (R38): the switch is closed and settled. -/
def execSwitchClosed (t : Nat) (n : Cluster) (c : Channel) (s0 : State) : Res :=
  let s := s0.at t
  .next (if (s.chan n c).sw = .closing ∧ s.rb .CH_CTRL (chIx n c) 0 then s.modChan n c fun x => { x with sw := .closed }
    else s)

/-- DRV_OC (R46): the driver's current has exceeded 70 mA for 16,000 ticks: safe state, DRV_OC, the count, a fault. -/
def execDrvOc (t : Nat) (n : Cluster) (c : Channel) (s0 : State) : Res :=
  let s := s0.at t
  let ix := chIx n c
  .next (if (driving s n c).isSome then
      lifeCount (144 + 4 * chIx n c) 16 ((((forcedSafe n c s).setRb .CH_EVT ix 3 true).count .CH_OC_CNT ix 16).send (srcOf n c.val) 2 1 (32 * n.val + c.val))
    else s)

/-- LVL_SETTLED (R52). -/
def execLvlSettled (t : Nat) (n : Cluster) (c : Channel) (s0 : State) : Res :=
  let s := s0.at t
  .next (s.setRb .CH_STAT (chIx n c) 3 false)

/-- The comparator's output is now v. -/
def setOut (n : Cluster) (c : Channel) (low v : Bool) (s : State) : State :=
  s.setRb .CH_CMP_STAT (chIx n c) (if low then 1 else 0) v
def cmpOut (s : State) (n : Cluster) (c : Channel) (low : Bool) : Bool := s.rb .CH_CMP_STAT (chIx n c) (if low then 1 else 0)

/-- The delivered state of a comparator, and the state with it set (R66). -/
def deliv (s : State) (n : Cluster) (c : Channel) (low : Bool) : Bool :=
  if low then (s.chan n c).delivL else (s.chan n c).delivH
def setDeliv (n : Cluster) (c : Channel) (low v : Bool) (s : State) : State :=
  s.modChan n c fun x => if low then { x with delivL := v } else { x with delivH := v }

/-- Output changes of the channel are not delivered now: a blanking window is open (R65) or a self-check runs (R70). -/
def muted (s : State) (n : Cluster) (c : Channel) : Bool :=
  s.rb .CH_CMP_STAT (chIx n c) 4 ||
  (match (s.chan n c).selfchk with | some k => !k.waits | none => false)

/-- COMPARATOR_RESOLVE (R61 to R63): an UNRESOLVED comparator, one propagation allowance after it entered that state,
finds the node beyond a trip point; no edge is delivered. -/
def execComparatorResolve (t : Nat) (n : Cluster) (c : Channel) (low above : Bool) (s0 : State) : Res :=
  let s := s0.at t
  let since := if low then (s.chan n c).unresL else (s.chan n c).unresH
  .next (if unres s n c low ∧ cmpOn s n c low ∧ since + allowance (s.rf .CH_CMP (chIx n c) 0 3) ≤ s.clasp then
      let s1 := (setOut n c low above s).setRb .CH_CMP_STAT (chIx n c) (if low then 3 else 2) false
      if muted s n c then s1 else (setDeliv n c low above s1).trigEvent n (.level c.val low above s.clasp)
    else s)

/-- The wake logic meets a delivered edge (R73). -/
def wakeEdge (n : Cluster) (c : Channel) (low up : Bool) (s : State) : State :=
  let w := s.reg .CH_WAKE (chIx n c)
  if bitOf w 0 && (bitOf w 1 == low) && (bitOf w 2 == up) then (s.setRb .CH_EVT (chIx n c) 2 true).wake 1 else s

/-- A delivered edge goes where R72 says: the stamp unit of the selected comparator, the trigger units, CH_EVT, the wake
logic. `ball` is the time in codes at which the crossing reached the ball. -/
def deliverEdge (n : Cluster) (c : Channel) (low up : Bool) (ball : Nat) (s : State) : State :=
  let ix := chIx n c
  let s1 := setDeliv n c low up s
  let s2 := if s1.rb .CH_CMP ix 11 = low then stampEdge n c (!up) ball s1 else s1
  let e := (ball - (s.reg .FIX_TAB ix).toNat % 16384) / 512
  let s3 := (s2.trigEvent n (.edge c.val low up e)).setRb .CH_EVT ix (if low then 1 else 0) true
  wakeEdge n c low up s3

/-- COMPARATOR_EDGE (R63, R65, R70, R72): the output of a resolved comparator changes. -/
def execComparatorEdge (t : Nat) (n : Cluster) (c : Channel) (low out : Bool) (ball : Nat) (s0 : State) : Res :=
  let s := s0.at t
  .next (if cmpOn s n c low ∧ !unres s n c low ∧ cmpOut s n c low ≠ out ∧ ball / 512 ≤ s.clasp then
      let s1 := setOut n c low out s
      if muted s n c then s1 else deliverEdge n c low out ball s1
    else s)

/-- BLANK_TIMER_EXPIRE (R67): at T0 + k × PERIOD the timer opens a window on every channel that selects it. -/
def execBlankTimerExpire (t : Nat) (n : Cluster) (s0 : State) : Res :=
  let s := s0.at t
  let per := s.rf .CL_BLANK_TMR n 0 24
  let b := tabGet (0, 0) s.blankAt n.val
  let at_ := b.1 + ((b.2 - b.1) / per + 1) * per
  .next (if s.rb .CL_BLANK_TMR n 24 ∧ per ≠ 0 ∧ at_ ≤ s.clasp then
      forChannels n (fun n c s => if blankSrc s n c = 5 then openBlank n c s else s)
        { s with blankAt := tabSet (0, 0) s.blankAt n.val (b.1, at_) }
    else s)

/-- The delivered state of one comparator is brought up to its output (R66). -/
def unblank (n : Cluster) (c : Channel) (low : Bool) (s : State) : State :=
  let v := cmpOut s n c low
  if deliv s n c low ≠ v then
    ((setDeliv n c low v s).setRb .CH_CMP_STAT (chIx n c) (if low then 6 else 5) true).trigEvent n
      (.level c.val low v s.clasp)
  else s

/-- BLANK_WINDOW_END (R66). -/
def execBlankWindowEnd (t : Nat) (n : Cluster) (c : Channel) (s0 : State) : Res :=
  let s := s0.at t
  .next (match (s.chan n c).blankEnd with
    | some e =>
      if e ≤ s.clasp then
        unblank n c true (unblank n c false
          ((s.setRb .CH_CMP_STAT (chIx n c) 4 false).modChan n c fun x => { x with blankEnd := none }))
      else s
    | none => s)

/-- What the check of one comparator comes to (R68, R69): none where the observation is not of this kind of check. -/
def checkPass (known : Bool) (free : Bool) : CheckObs → Option Bool
  | .outside differ => if known then none else some differ
  | .inside => if known then none else some false
  | .crossing => if known then none else some free
  | .levels below above => if known then some (!below && above) else none

/-- The result of one comparator's check is written, and it enters UNRESOLVED (R60, R70). -/
def checkEnd (n : Cluster) (c : Channel) (low pass : Bool) (s : State) : State :=
  let ix := chIx n c
  let s1 := s.setRf .CH_SELFCHK ix (if low then 6 else 4) 2 (if pass then 1 else 2)
  enterUnres n c low (if pass then s1 else s1.setRb .CH_EVT ix 4 true)

/-- SELFCHK_DONE (R68 to R71). A comparator whose node entered, left or crossed the band passes or fails by a free value. -/
def execSelfchkDone (t : Nat) (n : Cluster) (c : Channel) (h l : CheckObs) (s0 : State) : Res :=
  let s := s0.at t
  let ix := chIx n c
  .next (match (s.chan n c).selfchk with
    | some k =>
      let onH := cmpOn s n c false
      let onL := cmpOn s n c true
      let ph := checkPass k.known (Config.freeBool s.free) h
      let pl := checkPass k.known (Config.freeBool (s.free + 1)) l
      if !k.waits ∧ k.since + 4 * allowance (s.rf .CH_CMP ix 0 3) + 1600 ≤ s.clasp ∧ (!onH || ph.isSome) ∧
          (!onL || pl.isSome) then
        let s1 := ({ s with free := s.free + 2 }.setRb .CH_SELFCHK ix 2 false).modChan n c fun x => { x with selfchk := none }
        let s2 := if onH then checkEnd n c false (ph.getD false) s1 else s1
        let s3 := if onL then checkEnd n c true (pl.getD false) s2 else s2
        if k.known then busPass n s3 else s3
      else s
    | none => s)

end Sys2Proof.Machine
end

