-- ==== Sys2Proof/Machine/Clocks.lean ====
section
/-! DEFINITION. Sys2Proof/Machine/Clocks.lean: events of the clocks and of power (R411 to R435, R484). -/

namespace Sys2Proof.Machine

/-! ### Clocks -/

/-- The count of a REFCLK window is written and judged (R415). -/
def refWindow (count : Nat) (s : State) : State :=
  let ok := decide (9800 ≤ count ∧ count ≤ 10200)
  let s1 := (s.setReg .CLK_REF_LAST 0 (BitVec.ofNat 32 (count % 2 ^ 14))).countWrap .CLK_REF_JUDGES 0 32
  let s2 := s1.setRb .CLK_STAT 0 0 ok
  if ok then modPwr (fun p => { p with acquiring := true }) s2
  else if s.rb .CLK_STAT 0 2 then clockFault 1 s2
  else s2

/-- REFCLK_WINDOW (R415): a window of 400 oscillator cycles ends with `count` edges. -/
def execRefclkWindow (t : Nat) (count : Nat) (s0 : State) : Res :=
  let s := s0.at t
  .next (if s.pwr.por || !s.pwr.osc then s else refWindow count s)

/-- The lock detector changes (R416, R417). -/
def pllLockSet (lock : Bool) (s : State) : State :=
  let s1 := modPwr (fun p => { p with passes := 0, pll := s.reg .CLK_PLL_CFG 0 }) (s.setRb .CLK_STAT 0 1 lock)
  if !lock && s.rb .CLK_STAT 0 2 then clockFault 2 s1 else s1

/-- PLL_LOCK (R416). -/
def execPllLock (t : Nat) (lock : Bool) (s0 : State) : Res :=
  let s := s0.at t
  .next (if s.pwr.acquiring && !s.pwr.por && decide (s.rb .CLK_STAT 0 1 ≠ lock) then pllLockSet lock s else s)

/-- A judgement of NPER µs with `count` REFCLK cycles passes under CLK_PLL_CFG as it began (R416). -/
def judgePasses (pll : Word) (count : Nat) : Bool :=
  let want := 100 * max 1 (fld pll 16 10)
  decide (count ≤ want + fld pll 0 8 ∧ want ≤ count + fld pll 0 8)

/-- A judgement ends (R416, R417). -/
def rootJudge (count : Nat) (s : State) : State :=
  let pass := judgePasses s.pwr.pll count
  let s1 := modPwr (fun p => { p with pll := s.reg .CLK_PLL_CFG 0, passes := if pass then p.passes + 1 else 0 })
    (s.setReg .CLK_PLL_LAST 0 (BitVec.ofNat 32 (count % 2 ^ 20)))
  if s.rb .CLK_STAT 0 2 then (if pass then s1 else clockFault 0 s1)
  else if 2 ≤ s1.pwr.passes then rootStable s1
  else s1

/-- ROOT_JUDGEMENT (R416): while PLL_LOCK is 1 and AON runs (R414). -/
def execRootJudgement (t : Nat) (count : Nat) (s0 : State) : Res :=
  let s := s0.at t
  .next (if s.rb .CLK_STAT 0 1 && aonRuns s then rootJudge count s else s)

/-- A switch of AON can complete so (R412 to R414): to the oscillator only if that runs; by itself if both clocks do. -/
def aonCan (root forced : Bool) (s : State) : Bool :=
  if root then decide (s.pwr.osc ≠ forced) else s.pwr.osc

/-- The switch completes. -/
def aonDone (root forced : Bool) (s : State) : State :=
  let s1 := modPwr (fun p => { p with aonTo := none }) ((s.setRb .CLK_STAT 0 4 root).setRb .CLK_STAT 0 5 false)
  if forced then clkEvt 2 (s1.setRb .CLK_STAT 0 6 true) else s1

/-- AON_SWITCH (R412, R413). -/
def execAonSwitch (t : Nat) (forced : Bool) (s0 : State) : Res :=
  let s := s0.at t
  .next (match s.pwr.aonTo with
    | some root => if aonCan root forced s then aonDone root forced s else s
    | none => s)

/-- INTERNAL_OSCILLATOR_FAIL (R414). -/
def execInternalOscillatorFail (t : Nat) (s0 : State) : Res :=
  let s := s0.at t
  .next (modPwr (fun p => { p with osc := false }) s)

/-! ### Sleep and gating -/

/-- AUTO_SLEEP (R423): the conditions have held for PWR_AUTO_T. -/
def execAutoSleep (t : Nat) (s0 : State) : Res :=
  let s := s0.at t
  .next (if s.rb .PWR_CTRL 0 2 && sleepReady s then modPwr (fun p => { p with auto := true }) s else s)

/-- A wake cause arrives in the MGMT cycle in which sleep would be entered (R423). -/
def sleepCancel (s : State) : State :=
  clkEvt 5 (modPwr (fun p => { p with auto := false }) (s.setRb .PWR_STAT 0 3 false))

/-- SLEEP_ENTER (R423): an MGMT cycle with a request pending; an automatic request falls with its conditions. -/
def execSleepEnter (t : Nat) (s0 : State) : Res :=
  let s := s0.at t
  .next (if !s.rb .PWR_STAT 0 3 && !s.pwr.auto then s
    else if !sleepReady s then modPwr (fun p => { p with auto := false }) s
    else if s.wakes.any (fun w => decide (w.2 = s.clasp / 80)) then sleepCancel s
    else sleepEnter s)

/-- The cause that a WAKE finds: one that has reached the management plane, the wake time, or the WAKE pin's rise, which the
command then stands for (R426). -/
def wakeCause (s : State) : Option Nat :=
  if s.wakes ≠ [] then none
  else if timeWakes s then some 6
  else if s.rb .PWR_WAKE_EN 0 1 then some 2
  else none

/-- WAKE (R427). -/
def execWake (t : Nat) (s0 : State) : Res :=
  let s := s0.at t
  .next (if pwrState s = 3 then (match wakeCause s with | some c => wakeUp (s.wake c) | none => wakeUp s) else s)

/-- CLUSTER_GATE (R428): the cluster's share has held for 10 µs. -/
def execClusterGate (t : Nat) (n : Cluster) (s0 : State) : Res :=
  let s := s0.at t
  .next (if s.rb .PWR_CTRL 0 3 && decide (pwrState s = 2) && cluQuiet s n then s.setRb .PWR_CLU_GATE 0 n.val true else s)

/-! ### Rails and reset pins -/

/-- The bit of PWR_RAIL of VDD_SERDES, VDD_IO, VDDA, VPOS, VNEG (R436, R484). -/
def railBit (rail : Fin 5) : Nat := match rail with | 0 => 1 | 1 => 2 | 2 => 3 | 3 => 5 | 4 => 6

/-- A rail leaves its range (R431). -/
def railOut (rail : Fin 5) (s : State) : State :=
  clkEvt 6 ((forceAll (s.setRb .PWR_RAIL 0 (railBit rail) false)).send 1088 9 2 (railBit rail))

/-- RAIL_FAULT (R431). -/
def execRailFault (t : Nat) (rail : Fin 5) (s0 : State) : Res :=
  let s := s0.at t
  .next (if s.rb .PWR_RAIL 0 (railBit rail) then railOut rail s else s)

/-- Which of the counts of R484 an excursion of so many µs belongs to. -/
def railSpan (micros : Nat) : Nat := if micros < 10 then 0 else if micros < 100 then 1 else if micros < 1000 then 2 else 3

/-- RAIL_RETURN_IN_RANGE (R431, R484): the excursion lasted `micros` µs. -/
def execRailReturnInRange (t : Nat) (rail : Fin 5) (micros : Nat) (s0 : State) : Res :=
  let s := s0.at t
  .next (if s.pwr.por || s.rb .PWR_RAIL 0 (railBit rail) then s
    else lifeCount (96 + 8 * rail.val + 2 * railSpan micros) 16 (s.setRb .PWR_RAIL 0 (railBit rail) true))

/-- The switches as POR finds them: those not open are opened (R34, R431). -/
def porChans (t : List (Nat × Chan)) : List (Nat × Chan) :=
  (t.filter fun e => decide (e.2.sw ≠ .opened)).map fun e => (e.1, { sw := .opening })

/-- POR (R355, R431, R509): everything as at reset, but for the queue of commands, the level of RST#, what has left the part and
the free values drawn. -/
def porState (s : State) : State :=
  { State.reset with pending := s.pending, chans := porChans s.chans, pwr := { rst := s.pwr.rst }, free := s.free, out := s.out }

/-- POR: PWRGD falls, or VDD_AON or VDD_CORE leaves its range (`core`), which act alike. -/
def execPor (t : Nat) (_core : Bool) (s0 : State) : Res := .next (porState (s0.at t))

/-- PWRGD_RISE (R431, R433): every rail is in range and the AON logic leaves POR. -/
def execPwrgdRise (t : Nat) (s0 : State) : Res :=
  let s := s0.at t
  .next (if s.pwr.por then modPwr (fun p => { p with por := false }) (s.setReg .PWR_RAIL 0 0x17F#32) else s)

/-- RST# falls. -/
def rstFalls (s : State) : State :=
  let s1 := modPwr (fun p => { p with rst := true }) s
  if s.pwr.por || s.pwr.rst then s1 else warmBegin s1

/-- WARM_RESET (R432): RST# falls, or what holds the part besides the test access port ends. -/
def execWarmReset (t : Nat) (assert : Bool) (s0 : State) : Res :=
  let s := s0.at t
  .next (if assert then rstFalls s
    else if s.pwr.rst || s.pwr.chip then warmEnd (modPwr (fun p => { p with rst := false, chip := false }) s)
    else s)

end Sys2Proof.Machine
end

