-- ==== Sys2Proof/Machine/CluCmds.lean ====
section
/-! DEFINITION. Sys2Proof/Machine/CluCmds.lean: commands to a cluster's stores, sequencer, Hopper, routine context, regression
units, triggers, capture engines and generators, and to HALLMARK. -/

namespace Sys2Proof.Machine

/-- The BAR0 address of a word of cluster n's stores. -/
def storeAddr (n : Cluster) (w : StoreAddr) : Nat := 0x1000000 + 0x100000 * n.val + storeOff w

/-- STORE_WRITE (R166). -/
def execStoreWrite (t : Nat) (r : Req) (n : Cluster) (w : StoreAddr) (data : Word) (be : BitVec 4) (s0 : State) : Res :=
  .next (hostWrite r (storeAddr n w) data be 4 (s0.at t))

/-- STORE_READ (R165). -/
def execStoreRead (t : Nat) (r : Req) (n : Cluster) (w : StoreAddr) (s0 : State) : Res :=
  .next (hostRead r (storeAddr n w) (s0.at t))

/-- SEQ_START (R178). -/
def execSeqStart (t : Nat) (r : Req) (n : Cluster) (data : Word) (s0 : State) : Res :=
  .next (cmdWrite r .CL_SEQ_CTRL n.val data 1#32 (s0.at t))

/-- SEQ_ABORT (R180). -/
def execSeqAbort (t : Nat) (r : Req) (n : Cluster) (data : Word) (s0 : State) : Res :=
  .next (cmdWrite r .CL_SEQ_CTRL n.val data 2#32 (s0.at t))

/-- SEQ_RELEASE (R177). -/
def execSeqRelease (t : Nat) (r : Req) (n : Cluster) (data : Word) (s0 : State) : Res :=
  .next (cmdWrite r .CL_SEQ_CTRL n.val data 4#32 (s0.at t))

/-- HOPPER_ENABLE (R186): CL_HOP_CTRL.EN, on or off. -/
def execHopperEnable (t : Nat) (r : Req) (n : Cluster) (data : Word) (s0 : State) : Res :=
  .next (cmdWrite r .CL_HOP_CTRL n.val data 0#32 (s0.at t))

/-- HOPPER_FLUSH (R194). -/
def execHopperFlush (t : Nat) (r : Req) (n : Cluster) (data : Word) (s0 : State) : Res :=
  .next (cmdWrite r .CL_HOP_CTRL n.val data 2#32 (s0.at t))

/-- RESUME (R210). -/
def execResume (t : Nat) (r : Req) (n : Cluster) (data : Word) (s0 : State) : Res :=
  .next (cmdWrite r .CL_MR_CMD n.val data 1#32 (s0.at t))

/-- ABANDON (R211). -/
def execAbandon (t : Nat) (r : Req) (n : Cluster) (data : Word) (s0 : State) : Res :=
  .next (cmdWrite r .CL_MR_CMD n.val data 2#32 (s0.at t))

/-- PATCH_GO (R223). -/
def execPatchGo (t : Nat) (r : Req) (data : Word) (s0 : State) : Res :=
  .next (cmdWrite r .HALLMARK_PATCH_CTRL 0 data 1#32 (s0.at t))

/-- PATCH_CANCEL (R223). -/
def execPatchCancel (t : Nat) (r : Req) (data : Word) (s0 : State) : Res :=
  .next (cmdWrite r .HALLMARK_PATCH_CTRL 0 data 2#32 (s0.at t))

/-- RG_START (R238). -/
def execRgStart (t : Nat) (r : Req) (n : Cluster) (c : Channel) (data : Word) (s0 : State) : Res :=
  .next (cmdWrite r .CH_RG_CTRL (chIx n c) data 1#32 (s0.at t))

/-- RG_STOP (R243). -/
def execRgStop (t : Nat) (r : Req) (n : Cluster) (c : Channel) (data : Word) (s0 : State) : Res :=
  .next (cmdWrite r .CH_RG_CTRL (chIx n c) data 2#32 (s0.at t))

/-- RG_STAT_READ (R245). -/
def execRgStatRead (t : Nat) (r : Req) (n : Cluster) (c : Channel) (s0 : State) : Res :=
  .next (hostRead r (Reg.addr .CH_RG_STAT (chIx n c)) (s0.at t))

/-- TRIGGER_ARM (R262). -/
def execTriggerArm (t : Nat) (r : Req) (n : Cluster) (u : Unit8) (data : Word) (s0 : State) : Res :=
  .next (cmdWrite r .CL_TRG_CTRL (trgIx n u.val) data 1#32 (s0.at t))

/-- TRIGGER_DISARM (R262). -/
def execTriggerDisarm (t : Nat) (r : Req) (n : Cluster) (u : Unit8) (data : Word) (s0 : State) : Res :=
  .next (cmdWrite r .CL_TRG_CTRL (trgIx n u.val) data 2#32 (s0.at t))

/-- CAPTURE_START (R272). -/
def execCaptureStart (t : Nat) (r : Req) (n : Cluster) (e : Fin 2) (data : Word) (s0 : State) : Res :=
  .next (cmdWrite r .CL_CAP_CTRL (awgIx n e) data 1#32 (s0.at t))

/-- CAPTURE_STOP (R273). -/
def execCaptureStop (t : Nat) (r : Req) (n : Cluster) (e : Fin 2) (data : Word) (s0 : State) : Res :=
  .next (cmdWrite r .CL_CAP_CTRL (awgIx n e) data 2#32 (s0.at t))

/-- AWG_START (R291). -/
def execAwgStart (t : Nat) (r : Req) (n : Cluster) (g : Fin 2) (data : Word) (s0 : State) : Res :=
  .next (cmdWrite r .CL_AWG_CTRL (awgIx n g) data 1#32 (s0.at t))

/-- AWG_STOP (R292). -/
def execAwgStop (t : Nat) (r : Req) (n : Cluster) (g : Fin 2) (data : Word) (s0 : State) : Res :=
  .next (cmdWrite r .CL_AWG_CTRL (awgIx n g) data 2#32 (s0.at t))

/-- AWG_JUMP_REQUEST (R293). -/
def execAwgJumpRequest (t : Nat) (r : Req) (n : Cluster) (g : Fin 2) (data : Word) (s0 : State) : Res :=
  .next (cmdWrite r .CL_AWG_JUMP (awgIx n g) data 0x80000000#32 (s0.at t))

/-- AWG_TABLE_WRITE (R287): the entry at TIDX takes the held low word and this high word. -/
def execAwgTableWrite (t : Nat) (r : Req) (n : Cluster) (g : Fin 2) (data : Word) (s0 : State) : Res :=
  .next (cmdWrite r .CL_AWG_TDATA_HI (awgIx n g) data 0#32 (s0.at t))

/-- The register of a DDS parameter. -/
def ddsReg : DdsReg → Reg
  | .ftwLo => .CL_AWG_FTW_LO
  | .ftwHi => .CL_AWG_FTW_HI
  | .poffLo => .CL_AWG_POFF_LO
  | .poffHi => .CL_AWG_POFF_HI
  | .amp => .CL_AWG_AMP

/-- DDS_REG_WRITE (R298). -/
def execDdsRegWrite (t : Nat) (r : Req) (n : Cluster) (g : Fin 2) (w : DdsReg) (data : Word) (s0 : State) : Res :=
  .next (cmdWrite r (ddsReg w) (awgIx n g) data 0#32 (s0.at t))

/-- AUX_RECON (R283). -/
def execAuxRecon (t : Nat) (r : Req) (n : Cluster) (g : Fin 2) (data : Word) (s0 : State) : Res :=
  .next (cmdWrite r .CL_AWG_CTRL (awgIx n g) data 0x20#32 (s0.at t))


end Sys2Proof.Machine
end

