-- ==== Sys2Proof/Machine/CoreCmds.lean ====
section
/-! DEFINITION. Sys2Proof/Machine/CoreCmds.lean: commands to Cap, Millrace, semaphores, domains, transactions, the ring, power,
the Governor, calibration, the fault collector, serial ports and identity. -/

namespace Sys2Proof.Machine

/-- CAP_GO (R308). -/
def execCapGo (t : Nat) (r : Req) (data : Word) (s0 : State) : Res :=
  .next (cmdWrite r .CAP_CTRL 0 data 1#32 (s0.at t))

/-- CAP_ABORT (R317). -/
def execCapAbort (t : Nat) (r : Req) (data : Word) (s0 : State) : Res :=
  .next (cmdWrite r .CAP_CTRL 0 data 2#32 (s0.at t))

/-- BANK_OWN_WRITE (R330). -/
def execBankOwnWrite (t : Nat) (r : Req) (b : Bank) (data : Word) (s0 : State) : Res :=
  .next (cmdWrite r .BANK_OWN b.val data 0#32 (s0.at t))

/-- BANK_STATE_WRITE (R336). -/
def execBankStateWrite (t : Nat) (r : Req) (b : Bank) (data : Word) (s0 : State) : Res :=
  .next (cmdWrite r .BANK_STATE b.val data 0#32 (s0.at t))

/-- SLC_DATA_ACCESS (R356). -/
def execSlcDataAccess (t : Nat) (r : Req) (write : Bool) (data : Word) (s0 : State) : Res :=
  .next (if write then cmdWrite r .SLC_DATA 0 data 0#32 (s0.at t) else hostRead r (Reg.addr .SLC_DATA 0) (s0.at t))

/-- SLUICE_COMMIT (R342). -/
def execSluiceCommit (t : Nat) (r : Req) (data : Word) (s0 : State) : Res :=
  .next (cmdWrite r .SLC_COMMIT 0 data 1#32 (s0.at t))

/-- LOT_COMMIT (R346). -/
def execLotCommit (t : Nat) (r : Req) (data : Word) (s0 : State) : Res :=
  .next (cmdWrite r .LOT_COMMIT 0 data 1#32 (s0.at t))

/-- LFSR_RESEED (R356). -/
def execLfsrReseed (t : Nat) (r : Req) (data : Word) (s0 : State) : Res :=
  .next (cmdWrite r .LOT_LFSR 0 data 0#32 (s0.at t))

/-- SEM_ACQ (R350). -/
def execSemAcq (t : Nat) (r : Req) (k : Sem) (data : Word) (s0 : State) : Res :=
  .next (cmdWrite r .SEM_ACQ k.val data 0#32 (s0.at t))

/-- SEM_REL (R350). -/
def execSemRel (t : Nat) (r : Req) (k : Sem) (data : Word) (s0 : State) : Res :=
  .next (cmdWrite r .SEM_REL k.val data 0#32 (s0.at t))

/-- DMA_ENABLE (R365): HDMA_CTRL.EN, on or off. -/
def execDmaEnable (t : Nat) (r : Req) (h : Dom) (k : Fin 2) (data : Word) (s0 : State) : Res :=
  .next (cmdWrite r (dmaCtrl k) h.val data 0#32 (s0.at t))

/-- MGMT_OWNER_WRITE (R368). -/
def execMgmtOwnerWrite (t : Nat) (r : Req) (data : Word) (s0 : State) : Res :=
  .next (cmdWrite r .DOM_MGMT 0 data 0#32 (s0.at t))

/-- TXN_BEGIN (R377). -/
def execTxnBegin (t : Nat) (r : Req) (h : Dom) (data : Word) (s0 : State) : Res :=
  .next (cmdWrite r .TXN_CTRL h.val data 1#32 (s0.at t))

/-- TXN_COMMIT (R379). -/
def execTxnCommit (t : Nat) (r : Req) (h : Dom) (data : Word) (s0 : State) : Res :=
  .next (cmdWrite r .TXN_CTRL h.val data 2#32 (s0.at t))

/-- TXN_ROLLBACK (R383). -/
def execTxnRollback (t : Nat) (r : Req) (h : Dom) (data : Word) (s0 : State) : Res :=
  .next (cmdWrite r .TXN_CTRL h.val data 4#32 (s0.at t))

/-- RING_ENABLE (R392): RING_CTRL.EN, on or off. -/
def execRingEnable (t : Nat) (r : Req) (data : Word) (s0 : State) : Res :=
  .next (cmdWrite r .RING_CTRL 0 data 0#32 (s0.at t))

/-- RING_ABORT_REQUEST (R404). -/
def execRingAbortRequest (t : Nat) (r : Req) (data : Word) (s0 : State) : Res :=
  .next (cmdWrite r .RING_CTRL 0 data 8#32 (s0.at t))

/-- RING_RECAL (R397). -/
def execRingRecal (t : Nat) (r : Req) (data : Word) (s0 : State) : Res :=
  .next (cmdWrite r .RING_CTRL 0 data 2#32 (s0.at t))

/-- SLEEP_REQUEST (R423). -/
def execSleepRequest (t : Nat) (r : Req) (data : Word) (s0 : State) : Res :=
  .next (cmdWrite r .PWR_CTRL 0 data 1#32 (s0.at t))

/-- SHUTDOWN (R435). -/
def execShutdown (t : Nat) (r : Req) (data : Word) (s0 : State) : Res :=
  .next (cmdWrite r .PWR_CTRL 0 data 0x10#32 (s0.at t))

/-- NOM_BUDGET_WRITE (R444). -/
def execNomBudgetWrite (t : Nat) (r : Req) (n : Cluster) (power : Bool) (data : Word) (s0 : State) : Res :=
  .next (cmdWrite r (if power then .GOV_NOM_PBUD else .GOV_NOM_IBUD) n.val data 0#32 (s0.at t))

/-- REFCAL (R449). -/
def execRefcal (t : Nat) (r : Req) (data : Word) (s0 : State) : Res :=
  .next (cmdWrite r .CAL_CTRL 0 data 0x10#32 (s0.at t))

/-- CAL_CERT_WRITE (R460). -/
def execCalCertWrite (t : Nat) (r : Req) (data : Word) (s0 : State) : Res :=
  .next (cmdWrite r .CAL_REFV_CERT 0 data 0#32 (s0.at t))

/-- The register and element of a trim. -/
def trimReg (n : Cluster) (w : TrimAddr) : Reg × Nat :=
  match w with
  | .channel c k => (.CH_TRIM, 2048 * n.val + 64 * c.val + k.val)
  | .generator g => (.AWG_TRIM, (2 * n.val + g.val))

/-- TRIM_WRITE (R451). -/
def execTrimWrite (t : Nat) (r : Req) (n : Cluster) (w : TrimAddr) (data : Word) (s0 : State) : Res :=
  .next (cmdWrite r (trimReg n w).1 (trimReg n w).2 data 0#32 (s0.at t))

/-- CAL_REQ (R454). -/
def execCalReq (t : Nat) (r : Req) (n : Cluster) (data : Word) (s0 : State) : Res :=
  .next (cmdWrite r .CL_CAL_CTRL n.val data 1#32 (s0.at t))

/-- FAULT_INJECT (R486): FLT_INJECT_HI, with FLT_INJECT_LO as last written. -/
def execFaultInject (t : Nat) (r : Req) (data : Word) (s0 : State) : Res :=
  .next (cmdWrite r .FLT_INJECT_HI 0 data 0#32 (s0.at t))

/-- ASSAY_REQUEST (R476). -/
def execAssayRequest (t : Nat) (r : Req) (data : Word) (s0 : State) : Res :=
  .next (cmdWrite r .ASY_CTRL 0 data 1#32 (s0.at t))

/-- RETIRE_WRITE (R479): FLT_RET_CLU, or FLT_RET_CH of a cluster. -/
def execRetireWrite (t : Nat) (r : Req) (cluster : Option Cluster) (data : Word) (s0 : State) : Res :=
  .next (match cluster with
    | none => cmdWrite r .FLT_RET_CLU 0 data 0#32 (s0.at t)
    | some n => cmdWrite r .FLT_RET_CH n.val data 0#32 (s0.at t))

/-- PSM_FRAME (R496). -/
def execPsmFrame (t : Nat) (r : Req) (data : Word) (s0 : State) : Res :=
  .next (cmdWrite r .PSM_CTRL 0 data 1#32 (s0.at t))

/-- IN_ACK (R500). -/
def execInAck (t : Nat) (r : Req) (data : Word) (s0 : State) : Res :=
  .next (cmdWrite r .MSP_HCTRL 0 data 1#32 (s0.at t))

/-- OUT_SEND (R500). -/
def execOutSend (t : Nat) (r : Req) (data : Word) (s0 : State) : Res :=
  .next (cmdWrite r .MSP_HCTRL 0 data 2#32 (s0.at t))

/-- ID_LOCK (R511). -/
def execIdLock (t : Nat) (r : Req) (data : Word) (s0 : State) : Res :=
  .next (cmdWrite r .ID_LOCK 0 data 1#32 (s0.at t))

/-- LO_REGISTER_READ (R375): a read of any register; of a _LO register it latches _HI. -/
def execLoRegisterRead (t : Nat) (r : Req) (a : BitVec 26) (s0 : State) : Res :=
  .next (hostRead r a.toNat (s0.at t))

end Sys2Proof.Machine
end

