-- ==== Sys2Proof/Machine/Fabric.lean ====
section
/-! DEFINITION. Sys2Proof/Machine/Fabric.lean: events of Millrace (R331 to R345) and BAR2 accesses (R328, R333, R363). -/

namespace Sys2Proof.Machine

/-- The accesses presented by rivals in the same cycle. -/
def presentRivals (rivals : List (Fin 8 × (MillOp × Nat))) (s : State) : State :=
  rivals.foldl (fun s x => present x.1.val x.2.1 x.2.2 s) s

/-- Bank b is drawn for among those that enter, if it can grant in this cycle; an atomic alias access of the cycle before
leaves only reads (R327, R333, R344). -/
def drawBank (b : Nat) (s : State) : State :=
  let es := (drawEntrants s b).filter fun e => bankFree s b e.2.1
  if es = [] then s else draw b es s

/-- A stream's access in this cycle (R332, R340, R341): refused, or granted in its own slot within its limit. -/
def streamAccess (n : Cluster) (k : Fin 6) (x : MillOp) (a : Nat) (s : State) : State :=
  let q : MillReq := .cluster n k
  if memWaits s q false a (opLen x) || !memAdmits s q false a (opLen x) then access q x a s
  else if slcEntry s.slcActive (fabric s % 256) (bankOf a) ≠ k.val + 1 ∨ !bankFree s (bankOf a) x then s
  else if slotLimit k ≤ slotGrants s n k then s.setRb .SLC_STAT 0 1 true
  else perform q x a (countSlot n k s)

/-- The number of a best-effort requester (R343), if q is one. -/
def lotNumber (q : MillReq) : Option Nat :=
  match q with
  | .cluster .. => none
  | q => some (reqCode q)

/-- MILLRACE_ACCESS (R332, R344): an access is presented, with the accesses that rivals present in the same cycle; it is
refused, waits, is granted in its slot, or enters a draw of its bank. -/
def execMillraceAccess (t : Nat) (q : MillReq) (x : MillOp) (a : Nat) (rivals : List (Fin 8 × (MillOp × Nat))) (s0 : State) :
    Res :=
  let s := s0.at t
  .next (match q with
    | .cluster n k => streamAccess n k x a s
    | q =>
      match lotNumber q with
      | some r => drawBank (bankOf (millAddr s q a)) (presentRivals rivals (present r x a s))
      | none => s)

/-- LOTTERY_BACKOFF_END (R345): a requester whose backoff is over enters the draw of its bank again. -/
def execLotteryBackoffEnd (t : Nat) (q : Fin 8) (s0 : State) : Res :=
  let s := s0.at t
  .next (match presented s q.val with
    | some (_, (a, x)) => if x ≤ fabric s then drawBank (bankOf (millAddr s (lotReq q.val) a)) s else s
    | none => s)

/-- BANK_HANDOVER_DONE (R331): the drain is over, OWNER becomes NEXT, the waiting accesses proceed. -/
def execBankHandoverDone (t : Nat) (b : Bank) (s0 : State) : Res :=
  let s := s0.at t
  .next (if s.rb .BANK_OWN b.val 16 then
      drainWaiting ((((s.setRf .BANK_OWN b.val 0 6 (s.rf .BANK_OWN b.val 8 6)).setRb .BANK_OWN b.val 16 false)).setRb
        .MP_EVT 0 3 true)
    else s)

/-- BANK_STATE_DONE (R335, R336): the change ends; a bank that was OFF comes up cleared, one that goes OFF keeps nothing. -/
def execBankStateDone (t : Nat) (b : Bank) (s0 : State) : Res :=
  let s := s0.at t
  let to_ := s.rf .BANK_STATE b.val 0 2
  .next (if s.rb .BANK_STATE b.val 8 then
      let s1 := if s.rf .BANK_STATE b.val 4 2 = 2 ∨ to_ = 2 then
          clearRange (786432 * b.val) (786432 * (b.val + 1)) s
        else s
      drainWaiting ((((s1.setRf .BANK_STATE b.val 4 2 to_).setRb .BANK_STATE b.val 8 false)).setRb .MP_EVT 0 4 true)
    else s)

/-- SLUICE_APPLY (R342): the frame boundary has come; the shadow table is copied. -/
def execSluiceApply (t : Nat) (s0 : State) : Res :=
  let s := s0.at t
  .next (match s.slcAt with
    | some x =>
      if x ≤ fabric s then
        let s1 := { s with slcActive := s.slcShadow }
        { s1.setRb .SLC_STAT 0 0 false with slcAt := none }
      else s
    | none => s)

/-- CAL_SEM_ACQUIRE (R352): calibration heads every queue of its request and takes them all; with semaphores 0 and 1 a
reference calibration begins (R449). -/
def execCalSemAcquire (t : Nat) (s0 : State) : Res :=
  let s := semCalTake (s0.at t)
  .next (if calHolds s 0 && calHolds s 1 then s.setRb .CAL_STAT 0 2 true else s)

/-- BAR2_READ (R328, R360, R363): a read through the window; through an alias it is plain. -/
def execBar2Read (t : Nat) (h : Dom) (a len : Nat) (s0 : State) : Res :=
  let s := hostWakes (s0.at t)
  let busy := (s.waiting.filter fun w => decide (w.1 = .host h)).length
  .next (if linkServes s h.val ∧ 0 < len ∧ a + len ≤ 67108864 ∧ busy < 128 then access (.host h) (.read len) a s else s)

/-- BAR2_WRITE (R328, R333): plain below 48 MiB, bit-set and bit-clear through the alias windows. -/
def execBar2Write (t : Nat) (h : Dom) (a : Nat) (bytes : List Byte) (s0 : State) : Res :=
  let s := hostWakes (s0.at t)
  let x : MillOp := if a < mpSize then .write bytes else .atomic (decide (mpSize + 8388608 ≤ a)) bytes
  .next (if linkServes s h.val ∧ bytes ≠ [] ∧ a + bytes.length ≤ 67108864 then access (.host h) x a s else s)

end Sys2Proof.Machine
end

