-- ==== Sys2Proof/Machine/Faults.lean ====
section
/-! DEFINITION. Sys2Proof/Machine/Faults.lean: fault messages and windows, recovery, Bezel failures, Assay runs, writes of the
life record (R463 to R488). -/

namespace Sys2Proof.Machine

/-- FAULT_MESSAGE (R466, R468): in an AON cycle the collector takes the messages that have reached it, by ascending source. -/
def execFaultMessage (t : Nat) (s0 : State) : Res :=
  let s := s0.at t
  .next (if aonRuns s then (sortMsgs [] s.msgs).foldl (fun s m => takeMsg m s) (windowClose { s with msgs := [] }) else s)

/-- FAULT_WINDOW_CLOSE (R468). -/
def execFaultWindowClose (t : Nat) (s0 : State) : Res :=
  let s := s0.at t
  .next (windowClose s)

/-- The end of source k's quiet period, as an AON cycle (R473). -/
def quietEnd (s : State) (k : Nat) : Nat :=
  (s.flt k).last + 4000 * max 1 (if (s.flt k).corr then s.rf .FLT_QUIET 0 0 14 else s.rf .FLT_QUIET 0 16 14)

/-- FAULT_RECOVER (R473). -/
def execFaultRecover (t : Nat) (k : Source) (s0 : State) : Res :=
  let s := s0.at t
  .next (if s.rb .FLT_ACTIVE (k.val / 32) (k.val % 32) && !(s.flt k.val).fatal && aonDue s (quietEnd s k.val) then
      let n := s.rf .FLT_RECOV (k.val / 4) (8 * (k.val % 4)) 8
      let s1 := (s.setRb .FLT_ACTIVE (k.val / 32) (k.val % 32) false).setRf .FLT_RECOV (k.val / 4) (8 * (k.val % 4)) 8 (satInc 255 n)
      noteErr ((s1.setFlt k.val { s1.flt k.val with corr := true, err := false }).setRb .FLT_EVT 0 2 true)
    else s)

/-- BEZEL (R465): a transfer to the Bezel-side part of cluster n fails; the trap comes when the collector takes the message. -/
def execBezel (t : Nat) (n : Cluster) (s0 : State) : Res :=
  let s := s0.at t
  .next (s.send (srcOf n 43) 12 1 n.val)

/-- ASSAY_RUN_START (R477). -/
def execAssayRunStart (t : Nat) (n : Cluster) (s0 : State) : Res :=
  let s := s0.at t
  .next (if asyReady s n then asyStart n s else s)

/-- ASSAY_OUTCOME (R478): a run that needs the central converter ends only once it has held semaphore 0. -/
def execAssayOutcome (t : Nat) (n : Cluster) (failCluster : Bool) (failCh : Word) (s0 : State) : Res :=
  let s := s0.at t
  .next (match s.assay.find? fun e => decide (e.1 = n.val) with
    | some (_, x) => if !asyCentral x.chans x.ctgt || asyHolds s then asyOutcome n failCluster failCh s else s
    | none => s)

/-- LIFE_RECORD_WRITE (R435, R485): due in ACTIVE after 60 minutes, and in SHUTDOWN, where READY_OFF follows, the record
being written or LR_BASE.EN being 0. -/
def execLifeRecordWrite (t : Nat) (obs : LifeObs) (s0 : State) : Res :=
  let s := s0.at t
  let on := s.rb .LR_BASE 0 0
  .next (if pwrState s = 4 then
      if s.rb .PWR_STAT 0 4 then s
      else ((if on then lifeWrite obs s else s).setRb .PWR_STAT 0 4 true).setRb .CLK_EVT 0 7 true
    else if on ∧ pwrState s = 2 ∧ 60 ≤ s.lifeMin then lifeWrite obs s
    else s)

/-- POWER_ON_MINUTE (R484): the temperature sample is counted while some junction sensor is valid. -/
def execPowerOnMinute (t : Nat) (s0 : State) : Res :=
  let s := s0.at t
  let s1 := { lifeCount 20 32 s with lifeMin := s.lifeMin + 1 }
  .next (match hottest s1 with
    | some x => lifeCount (32 + 4 * tempBin x) 32 s1
    | none => s1)

/-- CLUSTER_RESET_END (R509, R544). -/
def execClusterResetEnd (t : Nat) (n : Cluster) (s0 : State) : Res :=
  let s := s0.at t
  .next (if s.rb .ID_CLU_RST 0 n.val then clusterBack n s else s)

end Sys2Proof.Machine
end

