-- ==== Sys2Proof/Machine/Hopper.lean ====
section
/-! DEFINITION. Sys2Proof/Machine/Hopper.lean: the Hopper's loads (R186 to R194). -/

namespace Sys2Proof.Machine

/-- A descriptor error (R193). -/
def descError (n : Cluster) (s : State) : State :=
  ((s.setHop n { s.hop n with load := none, err := true }).setRb .CL_HOP_CTRL n 0 false).setRb .CL_HOP_EVT n 0 true

/-- The Hopper may work: EN is 1, and no resume or abandon runs (R186). -/
def hopRuns (s : State) (n : Cluster) : Bool := s.rb .CL_HOP_CTRL n 0 && (seqIdle s n || streaming s n)

/-- The Hopper at the half it fills: the first is that of CL_SEQ_ADDR; a half closed is left once the other may be entered
(R188). -/
def hopSettle (n : Cluster) (s : State) : State :=
  let h := s.hop n
  let h1 := if h.chosen then h else { h with chosen := true, half := s.rf .CL_SEQ_ADDR n 15 1 }
  s.setHop n (hopEnter h1 (s.rf .CL_STORE_STAT n 0 1))

/-- What the issue stage goes on seeing of the fills for 16 ticks from now (R171). -/
def hopChanged (s : State) (n : Cluster) (h : Hop) : Hop :=
  let o := s.hop n
  { h with seenAt := s.clasp, old0 := o.fill0, old1 := o.fill1, oldC0 := o.closed0, oldC1 := o.closed1,
           oldF := s.rb .CL_HOP_STAT n 18 }

/-- A load that has copied everything is complete: HEAD, CLOSE, LAST (R186, R188, R190). -/
def loadDone (n : Cluster) (s : State) : State :=
  let h := s.hop n
  match h.load with
  | none => s
  | some l =>
    let h1 := { h with load := none }
    let h2 :=
      if l.close then
        (if h.half = 0 then { h1 with closed0 := true, waitHalf := true } else { h1 with closed1 := true, waitHalf := true })
      else h1
    let s1 := (s.setHop n h2).setRf .CL_HOP_HEAD n 0 16 (s.rf .CL_HOP_HEAD n 0 16 + 1)
    hopSettle n (if l.last then s1.setRb .CL_HOP_STAT n 18 true else s1)

/-- The load has nothing left to copy. -/
def loadOver (l : Load) : Bool :=
  decide (l.mcnt ≤ l.mdone) && decide (256 * pageCount l.pages ≤ l.ndone)

/-- The load that a descriptor's bytes describe (R187). -/
def descLoad (bytes : List Byte) : Load :=
  let w := fun (j : Nat) => leNat ((bytes.drop (4 * j)).take 4)
  { maddr := w 0 % 2 ^ 26, mcnt := w 1 % 2 ^ 16, close := decide (w 1 / 2 ^ 16 % 2 = 1),
    nostall := decide (w 1 / 2 ^ 17 % 2 = 1), last := decide (w 1 / 2 ^ 18 % 2 = 1), naddr := w 2 % 2 ^ 26,
    pages := w 3 % 2 ^ 16, ndone := 0, mdone := 0 }

/-- The load is one that R193 refuses, into a half filled up to `fill`. -/
def loadBad (l : Load) (fill : Nat) : Bool :=
  (decide (l.mcnt ≠ 0) && (decide (l.maddr % 4 ≠ 0) || decide (mpSize < l.maddr + 4 * l.mcnt))) ||
  (decide (l.pages ≠ 0) && (decide (l.naddr % 32 ≠ 0) || decide (mpSize < l.naddr + 8192 * pageCount l.pages))) ||
  decide (32768 < fill + l.mcnt) || (l.last && !l.close)

/-- A descriptor is taken (R187, R193). -/
def takeDesc (n : Cluster) (bytes : List Byte) (s : State) : State :=
  let l := descLoad bytes
  let h := s.hop n
  if loadBad l (h.fillOf h.half) then descError n s
  else
    let s1 := s.setHop n { h with load := some l }
    if loadOver l then loadDone n (s1.setHop n (hopChanged s n (s1.hop n))) else s1

/-- HOPPER_DESCRIPTOR (R186, R187, R193): the Hopper, with no load in hand, looks at its ring. -/
def execHopperDescriptor (t : Nat) (n : Cluster) (s0 : State) : Res :=
  let s := s0.at t
  .next (if hopRuns s n ∧ (s.hop n).load = none then
      let s1 := hopSettle n s
      let head := s.rf .CL_HOP_HEAD n 0 16
      let more := (s.rf .CL_HOP_TAIL n 0 16 + 65536 - head) % 65536
      let size := max 1 (s.rf .CL_HOP_RSIZE n 0 13)
      if (s1.hop n).waitHalf then s1
      else if more = 0 then
        (if streaming s n ∧ !s.rb .CL_HOP_STAT n 18 then s1.setRb .CL_HOP_EVT n 2 true else s1)
      else if size < more then descError n s1
      else
        let a := s.rf .CL_HOP_RING n 4 22 * 16 + head % size * 16
        if !streamServed s1 n 0 false a 16 then s1
        else if memAdmits s1 (.cluster n 0) false a 16 then takeDesc n (s1.bytes a 16) s1
        else descError n (noteRefusals (.cluster n 0) false false a 16 s1)
    else s)

/-- Microwords copied from a on, into the micro store from position `at_` on. -/
def fillMicro (n : Cluster) (nostall : Bool) (a at_ : Nat) : Nat → State → State
  | 0, s => s
  | k + 1, s =>
    fillMicro n nostall (a + 4) (at_ + 1) k
      (s.setMicroAt n (at_ % 65536) { w := BitVec.ofNat 32 (s.mem32 a), bad := 0#2, nostall })

/-- One nano-word copied from a. -/
def fillNano (n : Cluster) (i a : Nat) (s : State) : State :=
  s.setNanoAt n i { w := BitVec.ofNat 256 (leNat (s.bytes a 32)), bad := 0#8 }

/-- HOPPER_CHUNK (R188, R193): one nano-word or up to 8 microwords of the load in hand are copied; pages come first. -/
def execHopperChunk (t : Nat) (n : Cluster) (s0 : State) : Res :=
  let s := s0.at t
  let h := s.hop n
  .next (match h.load with
    | none => s
    | some l =>
      if !hopRuns s n then s
      else
        let np := pageCount l.pages
        let nano := decide (l.ndone < 256 * np)
        let k := min 8 (l.mcnt - l.mdone)
        let a := if nano then l.naddr + 32 * l.ndone else l.maddr + 4 * l.mdone
        let len := if nano then 32 else 4 * k
        if !streamServed s n 0 false a len then s
        else if !memAdmits s (.cluster n 0) false a len then descError n (noteRefusals (.cluster n 0) false false a len s)
        else
          let l1 := if nano then { l with ndone := l.ndone + 1 } else { l with mdone := l.mdone + k }
          let fill := h.fillOf h.half
          let h1 := if nano then h else if h.half = 0 then { h with fill0 := fill + k } else { h with fill1 := fill + k }
          let s1 := if nano then fillNano n (256 * pageOf l.pages (l.ndone / 256) + l.ndone % 256) a s
            else fillMicro n l.nostall a (32768 * h.half + fill) k s
          let fin := loadOver l1
          let h2 := { h1 with load := some l1 }
          let s2 := s1.setHop n (if nano && !fin then h2 else hopChanged s n h2)
          if fin then loadDone n s2 else s2)

end Sys2Proof.Machine
end

