-- ==== Sys2Proof/Machine/Host.lean ====
section
/-! DEFINITION. Sys2Proof/Machine/Host.lean: events of the links and DMA channels (R347, R359, R364 to R366, R370). -/

namespace Sys2Proof.Machine

/-- The fields of a descriptor's bytes (R364). -/
def descField (d : List Byte) (at_ len : Nat) : Nat := leNat ((d.drop at_).take len)

/-- A descriptor that R366 calls BAD_DESC. -/
def descBad (d : List Byte) : Bool :=
  let len := descField d 12 3
  let mp := descField d 8 4 % 2 ^ 26
  let toHost := decide (descField d 16 1 % 2 = 1)
  decide (descField d 0 8 % 4 ≠ 0) || decide (mp % 4 ≠ 0) || decide (len % 4 ≠ 0) || decide (len < 4) ||
    (!toHost && decide (descField d 16 1 / 2 % 4 = 3)) || decide (mpSize < mp + len)

/-- The descriptor completes (R365): status, HEAD, DMA_DONE, the message asked for. -/
def dmaDone (h : Dom) (k : Fin 2) (code : Nat) (irq : Option Nat) (s : State) : State :=
  let s1 := dmaStatus h.val k code s
  let s2 := (s1.setRf (dmaHead k) h.val 0 16 (s1.rf (dmaHead k) h.val 0 16 + 1)).setRb .HL_EVT h.val k.val true
  match irq with
  | some v => msixSend h.val v s2
  | none => s2

/-- A block from host memory to Millpond: the words that came, then the outcome. -/
def dmaIn (h : Dom) (k : Fin 2) (op : Option Bool) (mp len : Nat) (irq : Option Nat) (data : List Byte) (s : State) : State :=
  let q : MillReq := .host h
  let bytes := data.take len
  let s1 := memWrite q false op mp bytes s
  if bytes.length < len then dmaStop h.val k (dmaStatus h.val k 2 s1)
  else dmaDone h k (if (refusalOf s q mp len).isSome then 1 else 0) irq s1

/-- A block from Millpond to host memory. -/
def dmaOut (h : Dom) (k : Fin 2) (host mp len : Nat) (irq : Option Nat) (s : State) : State :=
  let q : MillReq := .host h
  let r := memRead q mp len s
  dmaDone h k (if (refusalOf s q mp len).isSome then 1 else 0) irq (r.2.emit (.hostWrite h.val host r.1))

/-- The descriptor whose 32 bytes are d runs, with the bytes that host memory gives after them. -/
def dmaRun (h : Dom) (k : Fin 2) (d data : List Byte) (s : State) : State :=
  if descBad d then dmaStop h.val k (dmaStatus h.val k 3 s)
  else
    let mp := descField d 8 4 % 2 ^ 26
    let len := descField d 12 3
    let dw := descField d 16 4
    let irq := if dw / 8 % 2 = 1 then some (dw / 256 % 64) else none
    let op := match dw / 2 % 4 with | 1 => some false | 2 => some true | _ => none
    if memWaits s (.host h) false mp len then s
    else if dw % 2 = 1 then dmaOut h k (descField d 0 8) mp len irq s
    else dmaIn h k op mp len irq data s

/-- DMA_DESCRIPTOR (R364 to R366): the channel takes the descriptor at HEAD; `host` are the bytes that host memory answers:
the descriptor, then the block it moves in. Bytes that are missing came back as an error. -/
def execDmaDescriptor (t : Nat) (h : Dom) (k : Fin 2) (host : List Byte) (s0 : State) : Res :=
  let s := s0.at t
  .next (if linkServes s h.val ∧ 2 ≤ pwrState s ∧ dmaBusy s h.val k then
      if host.length < 32 then dmaStop h.val k (dmaStatus h.val k 2 s) else dmaRun h k (host.take 32) (host.drop 32) s
    else s)

/-- DMA_HOST_TIMEOUT (R366): a host completion does not come within the completion timeout. -/
def execDmaHostTimeout (t : Nat) (h : Dom) (k : Fin 2) (s0 : State) : Res :=
  let s := s0.at t
  .next (if linkServes s h.val ∧ dmaBusy s h.val k then dmaStop h.val k (dmaStatus h.val k 2 s) else s)

/-- DOMAIN_RESET (R359, R370): FLR, hot reset or link down on link h. -/
def execDomainReset (t : Nat) (h : Dom) (_cause : DomCause) (s0 : State) : Res := .next (domainReset h.val (s0.at t))

/-- D3HOT_ENTRY (R347, R366). -/
def execD3hotEntry (t : Nat) (h : Dom) (s0 : State) : Res :=
  let s := s0.at t
  .next (if linkUp s h.val then domainSleep h.val s else s)

/-- D3HOT_EXIT (R347, R426): the domain is in D0 again; a change to D0 is a wake cause. -/
def execD3hotExit (t : Nat) (h : Dom) (s0 : State) : Res :=
  let s := s0.at t
  .next (if s.rb .HL_STAT h.val 0 ∧ s.rf .HL_STAT h.val 7 2 = 3 then
      hostWakes ((s.setRf .HL_STAT h.val 7 3 0).setRb .HL_EVT h.val 8 true)
    else s)

/-- Vector 0 that a trap owed to domain h goes out (R472). -/
def payVector (h : Nat) (s : State) : State :=
  if bitOf s.owed h then msixSend h 0 { s with owed := putBit s.owed h false } else s

/-- LINK_UP (R359, R384): link h comes up at a rate (1 to 4) and a width (1, 2 or 4 lanes); its requester is not masked any
more (R347). Links train once ROOT is stable (R433). -/
def execLinkUp (t : Nat) (h : Dom) (rate width : Nat) (s0 : State) : Res :=
  let s := s0.at t
  .next (if slaveUp s ∧ !s.rb .HL_STAT h.val 0 ∧ 1 ≤ rate ∧ rate ≤ 4 ∧ (width = 1 ∨ width = 2 ∨ width = 4) then
      payVector h.val ((s.setReg .HL_STAT h.val (BitVec.ofNat 32 (1 + 2 * rate + 16 * width))).setRb .HL_EVT h.val 8 true)
    else s)

end Sys2Proof.Machine
end

