-- ==== Sys2Proof/Machine/Param.lean ====
section
/-! DEFINITION. Sys2Proof/Machine/Param.lean: the events of the parametric unit (R86 to R102), and the read of CH_PM_RES
(R110). -/

namespace Sys2Proof.Machine

/-- PM_RANGE_SETTLED (R86): no sooner than 160,000 ticks after the change. -/
def execPmRangeSettled (t : Nat) (n : Cluster) (c : Channel) (s0 : State) : Res :=
  let s := s0.at t
  .next (if s.rb .CH_PM_STAT (chIx n c) 4 ∧ (s.chan n c).rangeAt + 160000 ≤ s.clasp then
      (s.setRb .CH_PM_STAT (chIx n c) 4 false).modChan n c fun x => { x with settledAt := s.clasp }
    else s)

/-- A weighted mean in thousandths of a sample LSB (R543): from nanovolts in MV, from femtoamperes in MI. -/
def meanMilli (s : State) (n : Cluster) (c : Channel) (mean : Int) : Int :=
  if mmodeOf s n c = 2 then mean * 1000 / 62500
  else mean * (131072 * 1000) / ((stepPa (rangeOf s n c) * 500000 * 1000 : Nat) : Int)

/-- The sample of a conversion (R543): the nearest code, limited; within the band about a boundary of two codes, either of
them, by a free bit. -/
def sampleOf (s : State) (n : Cluster) (c : Channel) (mean : Int) : Int :=
  let m := meanMilli s n c mean
  let k := (m + 500) / 1000
  let d := (m + 500) % 1000
  let y := if d ≤ Config.convBand then (if Config.freeBool s.free then k - 1 else k)
           else if 1000 - (Config.convBand : Int) ≤ d then (if Config.freeBool s.free then k + 1 else k) else k
  clampInt (-131072) 131071 y

/-- The measurement in progress takes a conversion that ends now (R92, R97, R98). -/
def measTake (n : Cluster) (c : Channel) (y : Int) (s : State) : State :=
  match (s.chan n c).meas with
  | none => s
  | some m =>
    if 0 < m.delay then s.modChan n c fun x => { x with meas := some { m with delay := m.delay - 1 } }
    else
      let ix := chIx n c
      let settling := s.rb .CH_PM_STAT ix 4 || decide (s.clasp < (s.chan n c).settledAt + convTicks ∧ (s.chan n c).settledAt ≠ 0)
      let m1 := { m with got := m.got + 1, sum := m.sum + y, ovr := m.ovr || decide (y = -131072 ∨ y = 131071),
                         settling := m.settling || settling,
                         clamped := m.clamped || clampActs s n c 2 || clampActs s n c 3 }
      if m1.got < m1.need then s.modChan n c fun x => { x with meas := some m1 }
      else
        let next := if s.rb .CH_PM_CTRL ix 12 then some (newMeas s ix s.clasp 0 none) else none
        s.modChan n c fun x => { x with meas := next, done := x.done ++ [(m1, false)] }

/-- PM_CONVERSION_DONE (R92, R93, R543): a conversion of the grid ends with the weighted mean `mean` of its input; the
sample goes to CH_PM_SAMPLE, the capture engines, the trigger units and the measurement in progress. -/
def execPmConversionDone (t : Nat) (n : Cluster) (c : Channel) (mean : Int) (s0 : State) : Res :=
  let s := s0.at t
  let x := s.chan n c
  let ix := chIx n c
  .next (if s.rf .PWR_STAT 0 0 3 ≠ 3 ∧ mmodeOf s n c ≠ 0 ∧ x.grid < s.clasp ∧ (s.clasp - x.grid) % convTicks = 0 ∧ x.convAt ≠ s.clasp then
      let y := sampleOf s n c mean
      let s1 := ({ s with free := s.free + 1 }.modChan n c fun x => { x with convAt := s.clasp }).setReg .CH_PM_SAMPLE ix
        (BitVec.ofNat 32 (2 ^ 31 + unsigned 18 y))
      let s2 := (cptSample n 1 c y (cptSample n 0 c y s1)).trigEvent n (.sample c.val y s.clasp)
      measTake n c y s2
    else s)

/-- PM_MEAS_DONE (R95): the oldest result of a full aperture is written. -/
def execPmMeasDone (t : Nat) (n : Cluster) (c : Channel) (s0 : State) : Res :=
  let s := s0.at t
  .next (match (s.chan n c).done with
    | (_, false) :: _ => writeMeas n c s
    | _ => s)

/-- PM_MEAS_END_EARLY (R96): the oldest result of a measurement that ended early is written. -/
def execPmMeasEndEarly (t : Nat) (n : Cluster) (c : Channel) (s0 : State) : Res :=
  let s := s0.at t
  .next (match (s.chan n c).done with
    | (_, true) :: _ => writeMeas n c s
    | _ => s)

/-- PM_CLAMP_BEGIN (R89, R90): a clamp begins to act: a current clamp in FV, a voltage clamp in FI. -/
def execPmClampBegin (t : Nat) (n : Cluster) (c : Channel) (volt : Bool) (s0 : State) : Res :=
  let s := s0.at t
  let ix := chIx n c
  .next (if loopOn s n c ∧ fmodeFi s n c = volt then
      ((s.modChan n c fun x => { x with clampAt := s.clasp }).setRb .CH_PM_STAT ix (if volt then 3 else 2) true).setRb .CH_EVT ix (if volt then 18 else 17) true
    else s)

/-- PM_OC (R102): the output current has exceeded 125 % of full scale for 80,000 ticks. -/
def execPmOc (t : Nat) (n : Cluster) (c : Channel) (s0 : State) : Res :=
  let s := s0.at t
  let ix := chIx n c
  .next (if loopOn s n c then
      lifeCount (146 + 4 * chIx n c) 16 ((((forcedSafe n c s).setRb .CH_EVT ix 19 true).count .CH_PM_OC_CNT ix 16).send (srcOf n c.val) 3 1 (32 * n.val + c.val))
    else s)

end Sys2Proof.Machine
end

