-- ==== Sys2Proof/Machine/Pattern.lean ====
section
/-! DEFINITION. Sys2Proof/Machine/Pattern.lean: the microwords, each executed by the front end that stands at it (R148 to
R157, R174). -/

namespace Sys2Proof.Machine

/-- VEC (R148): one entry, REP + 1 vectors, or RPT's COUNT. -/
def execVec (t : Nat) (n : Cluster) (s0 : State) : Res := .next (feExec n 0x01#6 (s0.at t))

/-- MVEC (R151). -/
def execMvec (t : Nat) (n : Cluster) (s0 : State) : Res := .next (feExec n 0x02#6 (s0.at t))

/-- HSET (R154). -/
def execHset (t : Nat) (n : Cluster) (s0 : State) : Res := .next (feExec n 0x03#6 (s0.at t))

/-- JMP (R148). -/
def execJmp (t : Nat) (n : Cluster) (s0 : State) : Res := .next (feExec n 0x08#6 (s0.at t))

/-- CALL (R148, R149). -/
def execCall (t : Nat) (n : Cluster) (s0 : State) : Res := .next (feExec n 0x09#6 (s0.at t))

/-- RET (R148, R150, R212). -/
def execRet (t : Nat) (n : Cluster) (s0 : State) : Res := .next (feExec n 0x0A#6 (s0.at t))

/-- LDC (R148). -/
def execLdc (t : Nat) (n : Cluster) (s0 : State) : Res := .next (feExec n 0x0B#6 (s0.at t))

/-- LOOP (R148): also a stall point of a streamed pattern (R190). -/
def execLoop (t : Nat) (n : Cluster) (s0 : State) : Res := .next (feExec n 0x0C#6 (s0.at t))

/-- CLRF (R151). -/
def execClrf (t : Nat) (n : Cluster) (s0 : State) : Res := .next (feExec n 0x11#6 (s0.at t))

/-- CSEL (R150). -/
def execCsel (t : Nat) (n : Cluster) (s0 : State) : Res := .next (feExec n 0x12#6 (s0.at t))

/-- RPT (R148). -/
def execRpt (t : Nat) (n : Cluster) (s0 : State) : Res := .next (feExec n 0x13#6 (s0.at t))

/-- WTRIG (R152). -/
def execWtrig (t : Nat) (n : Cluster) (s0 : State) : Res := .next (feExec n 0x18#6 (s0.at t))

/-- WCT (R153). -/
def execWct (t : Nat) (n : Cluster) (s0 : State) : Res := .next (feExec n 0x19#6 (s0.at t))

/-- HOLD (R177). -/
def execHold (t : Nat) (n : Cluster) (s0 : State) : Res := .next (feExec n 0x1A#6 (s0.at t))

/-- RMARK (R201). -/
def execRmark (t : Nat) (n : Cluster) (s0 : State) : Res := .next (feExec n 0x20#6 (s0.at t))

/-- RBEG (R198). -/
def execRbeg (t : Nat) (n : Cluster) (s0 : State) : Res := .next (feExec n 0x21#6 (s0.at t))

/-- RUNW (R205). -/
def execRunw (t : Nat) (n : Cluster) (s0 : State) : Res := .next (feExec n 0x22#6 (s0.at t))

/-- SEL (R150). -/
def execSel (t : Nat) (n : Cluster) (s0 : State) : Res := .next (feExec n 0x23#6 (s0.at t))

/-- WRI (R155). -/
def execWri (t : Nat) (n : Cluster) (s0 : State) : Res := .next (feExec n 0x24#6 (s0.at t))

/-- WRN (R155). -/
def execWrn (t : Nat) (n : Cluster) (s0 : State) : Res := .next (feExec n 0x25#6 (s0.at t))

/-- MST (R155). -/
def execMst (t : Nat) (n : Cluster) (s0 : State) : Res := .next (feExec n 0x26#6 (s0.at t))

/-- MWAIT (R155). -/
def execMwait (t : Nat) (n : Cluster) (s0 : State) : Res := .next (feExec n 0x27#6 (s0.at t))

/-- STOP (R180). -/
def execStop (t : Nat) (n : Cluster) (s0 : State) : Res := .next (feExec n 0x3F#6 (s0.at t))

/-- JM (R174): jumps if the match flag is 1. -/
def execJm (t : Nat) (n : Cluster) (s0 : State) : Res :=
  .next (feCond n 0x0D#6 (fun q => q.fMatch) (s0.at t))

/-- JNM (R174): jumps if the match flag is 0. -/
def execJnm (t : Nat) (n : Cluster) (s0 : State) : Res :=
  .next (feCond n 0x0E#6 (fun q => !q.fMatch) (s0.at t))

/-- JF (R174): jumps if the fail flag is 1. -/
def execJf (t : Nat) (n : Cluster) (s0 : State) : Res :=
  .next (feCond n 0x0F#6 (fun q => q.fFail) (s0.at t))

/-- JNF (R174): jumps if the fail flag is 0. -/
def execJnf (t : Nat) (n : Cluster) (s0 : State) : Res :=
  .next (feCond n 0x10#6 (fun q => !q.fFail) (s0.at t))

/-- ILLEGAL_WORD (R157): the front end stops at a microword that is illegal where it stands; the pattern ends there when the
issue stage comes to it. -/
def execIllegalWord (t : Nat) (n : Cluster) (s0 : State) : Res := .next (feIllegal n (s0.at t))

end Sys2Proof.Machine
end

