-- ==== Sys2Proof/Machine/RingRows.lean ====
section
/-! DEFINITION. Sys2Proof/Machine/RingRows.lean: events of the Clasp ring (R391 to R406). -/

namespace Sys2Proof.Machine

/-- The bypass must be closed (R392): in OFF and TRAIN, and while VDDA or VDD_IO is out of range. -/
def bypassWant (s : State) : Bool := decide (ringState s < 2) || !s.rb .PWR_RAIL 0 2 || !s.rb .PWR_RAIL 0 3

/-- RING_SLOT (R390 to R397, R400 to R404): a slot of 32 symbols comes in, its comma at the local time arr, in codes. -/
def execRingSlot (t : Nat) (slot : List Byte) (arr : Nat) (s0 : State) : Res :=
  let s := s0.at t
  .next (if !slaveUp s ∨ ringState s = 0 then s
    else if ringState s = 1 then
      if slotGood slot then
        let g := s.ring.good + 1
        if 64 ≤ g then setRingState 2 (modRing (fun r => { r with good := 0 }) s) else modRing (fun r => { r with good := g }) s
      else modRing (fun r => { r with good := 0 }) s
    else if slotGood slot then slotPass slot arr s else slotBad slot arr s)

/-- RING_BYPASS_CHANGE (R392): at a slot boundary the bypass closes or opens as the state and the rails ask. -/
def execRingBypassChange (t : Nat) (close : Bool) (s0 : State) : Res :=
  let s := s0.at t
  .next (if bypassWant s = close then s.setRb .RING_STAT 0 2 close else s)

/-- The first item received for which p holds, and the state without it. -/
def takeItem (p : RingItem → Bool) (s : State) : Option (RingItem × State) :=
  match s.ring.inbox.find? p with
  | some x => some (x, modRing (fun r => { r with inbox := r.inbox.eraseP p }) s)
  | none => none

/-- Items are acted on outside SLEEP (R427). -/
def ringServes (s : State) : Bool := slaveUp s && decide (pwrState s ≠ 3)

/-- RING_START (R316, R403): the START is delivered to Cap; on a part not in SYNC it is followed by an ABORT. -/
def execRingStart (t : Nat) (s0 : State) : Res :=
  let s := s0.at t
  .next (match takeItem (fun x => match x with | .start _ => true | _ => false) s with
    | some (.start tf, s1) =>
      if !ringServes s then s
      else
        let s2 := ringEvt 13 s1
        let s3 := if sotSrc s2 = 2 then capSot (some tf) s2 else s2
        if ringState s = 3 then s3 else capAbort (ringEvt 11 s3)
    | _ => s)

/-- RING_ABORT (R404): the ABORT is delivered to Cap, and with ABORT_SEQ to every sequencer. -/
def execRingAbort (t : Nat) (s0 : State) : Res :=
  let s := s0.at t
  .next (match takeItem (fun x => match x with | .abort => true | _ => false) s with
    | some (_, s1) =>
      if !ringServes s then s
      else
        let s2 := capAbort (ringEvt 12 s1)
        if s.rb .RING_CTRL 0 2 then forClusters (fun n s => abortSeq n 3 80 s) s2 else s2
    | none => s)

/-- RING_TRIGGER (R402): a trigger message goes to every trigger unit whose source is its line. -/
def execRingTrigger (t : Nat) (s0 : State) : Res :=
  let s := s0.at t
  .next (match takeItem (fun x => match x with | .trigger _ _ => true | _ => false) s with
    | some (.trigger k e, s1) => if ringServes s then forClusters (fun n s => s.trigEvent n (.ring k e)) s1 else s
    | _ => s)

/-- RING_TIME (R397): a follower records a and f. -/
def execRingTime (t : Nat) (s0 : State) : Res :=
  let s := s0.at t
  .next (match takeItem (fun x => match x with | .time _ _ _ => true | _ => false) s with
    | some (.time a f tm, s1) => modRing (fun r => { r with a, f, tm }) s1
    | _ => s)

/-- RING_ACC (R397): a follower keeps ACCin and HOPS. -/
def execRingAcc (t : Nat) (s0 : State) : Res :=
  let s := s0.at t
  .next (match takeItem (fun x => match x with | .acc _ _ => true | _ => false) s with
    | some (.acc acc hops, s1) => modRing (fun r => { r with accIn := acc, hops }) s1
    | _ => s)

/-- RING_TERR (R398), saturating. -/
def terrWord (e : Int) : Word := BitVec.ofNat 32 (unsigned 32 (clampInt (-2147483648) 2147483647 e))

/-- A round is complete for this part. -/
def roundDone (N : Nat) (s : State) : State :=
  ringEvt 3 (modRing (fun r => { r with lastRound := s.clasp }) ((s.setRf .RING_STAT 0 16 6 N).countWrap .RING_ROUNDS 0 32))

/-- RING_RESID (R397, R398): a follower computes its correction. T_M is in ticks. -/
def execRingResid (t : Nat) (s0 : State) : Res :=
  let s := s0.at t
  .next (match takeItem (fun x => match x with | .resid _ _ => true | _ => false) s with
    | some (.resid eps N, s1) =>
      if N = 0 ∨ 32 < N then ringEvt 9 s1
      else
        let r := s1.ring
        let e : Int := (r.tm * 512 + r.accIn + ringWire s : Nat) + roundAway (eps * (r.hops + 1 : Nat)) N - (r.a : Int)
        let s2 := roundDone N ((s1.setReg .RING_TERR 0 (terrWord e)).setRb .RING_STAT 0 24 true)
        let s3 := modRing (fun r => { r with stepE := some e }) s2
        let s4 := if 41 < e.natAbs then ringEvt 4 (s3.setRb .RING_STAT 0 25 true) else s3
        if ringState s = 3 ∧ 4096 < e.natAbs then setRingState 2 (ringEvt 5 (s4.setRb .RING_STAT 0 26 true)) else s4
    | _ => s)

/-- RING_HEALTH (R406): the heartbeat of an origin. -/
def execRingHealth (t : Nat) (s0 : State) : Res :=
  let s := s0.at t
  .next (match takeItem (fun x => match x with | .health _ _ => true | _ => false) s with
    | some (.health k w, s1) =>
      let v := leNat w
      let s2 := (s1.setReg .RING_PEER k (BitVec.ofNat 32 v)).setReg .RING_PEERX k
        (BitVec.ofNat 32 (2 ^ 31 + v / 2 ^ 48 % 32 * 2 ^ 16 + v / 2 ^ 32 % 2 ^ 16))
      modRing (fun r => { r with heard := tabSet 0 r.heard k s.clasp }) s2
    | _ => s)

/-- RING_ROUND_START (R397): the time master begins a round. -/
def execRingRoundStart (t : Nat) (s0 : State) : Res :=
  let s := s0.at t
  .next (if slaveUp s then ringRound s else s)

/-- RING_LOOP_RETURN (R397): TIME and ACC are back at the time master, which sends RESID. -/
def execRingLoopReturn (t : Nat) (s0 : State) : Res :=
  let s := s0.at t
  let r := s.ring
  .next (match r.aBack, r.accBack with
    | some a, some (acc, hops) =>
      if r.round ≠ 3 then s
      else
        let N := hops + 1
        let s1 := modRing (fun r => { r with round := 0, aBack := none, accBack := none, roundNo := (r.roundNo + 1) % 65536 }) s
        if 32 < N then ringEvt 9 s1
        else
          let eps : Int := (a : Int) - (r.tm : Int) - (acc : Int) - (ringWire s : Int)
          let s2 := ringQueue 4 (leBytes 4 (unsigned 32 eps) ++ leBytes 1 N ++ leBytes 1 0 ++ leBytes 2 r.roundNo) s1
          setRingState 3 (roundDone N s2)
    | _, _ => s)

/-- RING_STEP_APPLY (R398): at an idle MGMT cycle the correction is added to the count and the fine offset. -/
def execRingStepApply (t : Nat) (s0 : State) : Res :=
  let s := s0.at t
  .next (match s.ring.stepE with
    | some e =>
      if ringServes s ∧ 2 ≤ ringState s ∧ stepIdle s then
        let x := ((s.clasp * 512 + s.rf .RING_TFINE 0 0 9 : Nat) + e).toNat
        let s0 := { s.setRf .RING_STAT 0 24 3 0 with ring := { s.ring with stepE := none } }
        let s1 := { s0 with clasp := x / 512 }
        setRingState 3 (s1.setRf .RING_TFINE 0 0 9 (x % 512))
      else s
    | none => s)

/-- RING_ROUND_TIMEOUT (R398): no round has completed for 10 × PERIOD ms. -/
def execRingRoundTimeout (t : Nat) (s0 : State) : Res :=
  let s := s0.at t
  let p := s.rf .RING_TCFG 0 0 16
  .next (if slaveUp s ∧ ringState s = 3 ∧ p ≠ 0 ∧ s.ring.lastRound + 10 * p * 8000000 ≤ s.clasp then setRingState 2 s else s)

/-- RING_MSG_RETRY (R395): a message that has not come back within 96 slots is sent again, or dropped after three sends. -/
def execRingMsgRetry (t : Nat) (s0 : State) : Res :=
  let s := s0.at t
  .next (match s.ring.own with
    | some (m, (sent, k)) =>
      if ringState s < 2 ∨ sent = 0 ∨ s.clasp / 2560 ≤ sent + 96 then s
      else if k < 3 then modRing (fun r => { r with own := some (m, (0, k)) }) s
      else
        let s1 := ringEvt 8 (s.count .RING_MSGFAIL 0 32)
        modRing (fun r => { r with own := none, round := if m.type = 3 then 0 else r.round }) s1
    | none => s)

/-- HEARTBEAT_SEND (R405): every RING_HB.PERIOD µs in UP or SYNC. -/
def execHeartbeatSend (t : Nat) (s0 : State) : Res :=
  let s := s0.at t
  let p := max 1 (s.rf .RING_HB 0 0 16) * 8000
  .next (if slaveUp s ∧ 2 ≤ ringState s ∧ s.ring.beat + p ≤ s.clasp then
      modRing (fun r => { r with beat := s.clasp }) (ringQueue 5 (healthWord s) s)
    else s)

/-- HEARTBEAT_LOST (R406): no heartbeat from a SEEN origin for RING_HB.TO periods. -/
def execHeartbeatLost (t : Nat) (p : Fin 32) (s0 : State) : Res :=
  let s := s0.at t
  let d := max 1 (s.rf .RING_HB 0 16 4) * (max 1 (s.rf .RING_HB 0 0 16) * 8000)
  .next (if slaveUp s ∧ 2 ≤ ringState s ∧ s.rb .RING_PEERX p.val 31 ∧ !s.rb .RING_PEERX p.val 30 ∧
        tabGet 0 s.ring.heard p.val + d ≤ s.clasp then
      ringEvt 1 (s.setRb .RING_PEERX p.val 30 true)
    else s)

end Sys2Proof.Machine
end

