-- ==== Sys2Proof/Machine/Serial.lean ====
section
/-! DEFINITION. Sys2Proof/Machine/Serial.lean: events of the serial ports (R496 to R500) and the test access port (R536 to R538). -/

namespace Sys2Proof.Machine

/-- PSM_FRAME_DONE (R496): the frame in progress ends with the bytes `rx` received. -/
def execPsmFrameDone (t : Nat) (rx : List Byte) (s0 : State) : Res :=
  let s := s0.at t
  .next (if s.rb .PSM_STAT 0 0 then psmDone rx s else s)

/-! ### The management serial slave -/

/-- The register slave serves the window (R499). -/
def winUp (s : State) : Bool := slaveUp s && s.rb .BOOT_STAT 0 8

/-- The window's address: BAR0, bits 1:0 ignored. -/
def winAddr (s : State) : Nat := s.msp.winAddr.toNat % 2 ^ 26 / 4 * 4

/-- The window access is served (R499): as one access of requester 5. -/
def winServe (wr : Bool) (s0 : State) : State :=
  let s := modMsp (fun x => { x with cmd := none }) s0
  if !winUp s then modMsp (fun x => { x with winRes := 4 }) s
  else if wr then
    let r := slaveWrite 5 (winAddr s) s.msp.winData 0xF#4 s
    modMsp (fun x => { x with winRes := r.2 }) r.1
  else
    let r := readAt 5 (winAddr s) s
    modMsp (fun x => { x with winData := r.1, winRes := 0 }) r.2

/-- A window access that waits is served. -/
def winPending (s : State) : State := match s.msp.cmd with | some wr => winServe wr s | none => s

/-- MSP_WIN_RD (R499). -/
def execMspWinRd (t : Nat) (s0 : State) : Res :=
  let s := s0.at t
  .next (if s.pwr.por then s else winCmd false s)

/-- MSP_WIN_WR (R499). -/
def execMspWinWr (t : Nat) (s0 : State) : Res :=
  let s := s0.at t
  .next (if s.pwr.por then s else winCmd true s)

/-- MSP_WIN_ACCESS (R499). -/
def execMspWinAccess (t : Nat) (s0 : State) : Res :=
  let s := s0.at t
  .next (winPending s)

/-- A frame that reads `len` bytes from page address a (R497). -/
def mspReads (a len : Nat) (s : State) : State :=
  let s1 := s.emit (.serial ((List.range len).map fun i => if a + i < 128 then pageRead s (a + i) else 0#8))
  if 128 < a + len then modMsp (fun x => { x with ovr := true }) s1 else s1

/-- MSP_FRAME (R497): a frame from page address a. A read shifts out one byte for each of `bytes` and, if k > 0, the first k bits of
another; a write carries `bytes` and, if k > 0, k more bits, `bits`. A waiting window access has been served before the first
byte (R499). -/
def execMspFrame (t : Nat) (read : Bool) (a : Byte) (bytes : List Byte) (k : Fin 8) (bits : Byte) (s0 : State) : Res :=
  let s := s0.at t
  let x := a.toNat % 128
  .next (if s.pwr.por then s
    else
      let s1 := winPending s
      if read then
        let s2 := mspReads x (bytes.length + (if k = 0 then 0 else 1)) s1
        if k = 0 then s2 else setPart s2
      else
        let s2 := pageWrites x bytes s1
        if k = 0 then s2 else setPart (pageWrite (x + bytes.length) (BitVec.ofNat 8 (bits.toNat % 2 ^ k.val)) s2))

/-- IN_SEND (R500). -/
def execInSend (t : Nat) (s0 : State) : Res :=
  let s := s0.at t
  .next (if s.pwr.por then s else inSend s)

/-- OUT_ACK (R500). -/
def execOutAck (t : Nat) (s0 : State) : Res :=
  let s := s0.at t
  .next (if s.pwr.por then s else outAck s)

/-! ### The test access port -/

/-- An instruction that holds the part in WARM reset: EXTEST, HIGHZ, CLAMP (R537). -/
def tapHolds (i : Nat) : Bool := decide (i = 0 ∨ i = 3 ∨ i = 4)

/-- Instruction i takes effect (R536, R537). -/
def tapSet (i : Nat) (s : State) : State :=
  if s.pwr.por then s
  else
    let s1 := { s with tap := i }
    if tapHolds i then (if warmHeld s then s1 else warmBegin s1)
    else if tapHolds s.tap then warmEnd s1
    else s1

/-- The input cells of the boundary register that the state knows, over the other cells as captured (R538). -/
def boundaryCapture (w : Word) (s : State) : Word :=
  putBit (putBit (putBit w 4 (s.rb .PWR_RAIL 0 8)) 5 (!s.pwr.rst)) 6 (s.rb .PWR_RAIL 0 9)

/-- IDCODE's register (R536). -/
def idcodeWord (s : State) : Word :=
  BitVec.ofNat 32 (s.rf .DEV_STEP 0 4 4 * 2 ^ 28 + 0x0768 * 4096 + Config.tapMaker % 2048 * 2 + 1)

/-- EXTEST (R537). -/
def execExtest (t : Nat) (s0 : State) : Res := .next (tapSet 0 (s0.at t))

/-- SAMPLE_PRELOAD (R536, R538): the pins are sampled. -/
def execSamplePreload (t : Nat) (s0 : State) : Res :=
  let s := tapSet 1 (s0.at t)
  .next (if s.pwr.por then s
    else
      let w := boundaryCapture (s.drawWord).1 s
      { (s.drawWord).2 with boundary := w }.emit (.tdo w))

/-- IDCODE (R536). -/
def execIdcode (t : Nat) (s0 : State) : Res :=
  let s := tapSet 2 (s0.at t)
  .next (if s.pwr.por then s else s.emit (.tdo (idcodeWord s)))

/-- HIGHZ (R537). -/
def execHighz (t : Nat) (s0 : State) : Res := .next (tapSet 3 (s0.at t))

/-- CLAMP (R537). -/
def execClamp (t : Nat) (s0 : State) : Res := .next (tapSet 4 (s0.at t))

/-- BYPASS (R536). -/
def execBypass (t : Nat) (s0 : State) : Res := .next (tapSet 255 (s0.at t))

/-- TEST_LOGIC_RESET (R536, R537): IDCODE is current. -/
def execTestLogicReset (t : Nat) (s0 : State) : Res := .next (tapSet 2 (s0.at t))

end Sys2Proof.Machine
end

