-- ==== Sys2Proof/Machine/Stamp.lean ====
section
/-! DEFINITION. Sys2Proof/Machine/Stamp.lean: the events of time measurement (R227 to R250). -/

namespace Sys2Proof.Machine

/-- STAMP_DLL_LOCK (R233). -/
def execStampDllLock (t : Nat) (n : Cluster) (s0 : State) : Res :=
  let s := s0.at t
  .next (if s.rb .CLK_STAT 0 2 ∧ !cluRetired s n then s.setRb .CL_TS_STAT n 0 true else s)

/-- STAMP_DLL_UNLOCK (R233, R243): no unit stamps, every gate ends with cause 6, a fault message is sent. -/
def execStampDllUnlock (t : Nat) (n : Cluster) (s0 : State) : Res :=
  let s := s0.at t
  .next (if stampLock s n then
      let s1 := (s.setRb .CL_TS_STAT n 0 false).setRb .CL_TS_EVT n 3 true
      (endGates n 6 s1).send (srcOf n 37) 5 1 (256 + n.val)
    else s)

/-- COARSE_WRAP (R232): Clasp time bit 48 has changed: epochs, events, wrap-pending marks. -/
def execCoarseWrap (t : Nat) (s0 : State) : Res :=
  let s := s0.at t
  let e := s.clasp / 2 ^ 48 % 65536
  .next (forClusters (fun n s =>
      if s.rf .CL_TS_EPOCH n 0 16 = e then s
      else
        forChannels n (fun n c s => s.modChan n c fun x => { x with wrapRise := true, wrapFall := true })
          ((s.setReg .CL_TS_EPOCH n (BitVec.ofNat 32 e)).setRb .CL_TS_EVT n 2 true)) s)

/-- The 8 bytes of a stamp record (R231). -/
def stampBytes (r : StampRec) (wrap : Bool) : List Byte :=
  leBytes 8 (2 ^ 63 * b2n wrap + 2 ^ 58 * r.c + 2 ^ 57 * b2n r.falling + r.s % 2 ^ 57)

/-- STAMP_RECORD_WRITE (R232, R236): the stamp writer drains the oldest record of its queue into the window, or loses it
there. -/
def execStampRecordWrite (t : Nat) (n : Cluster) (s0 : State) : Res :=
  let s := s0.at t
  let size := sizeOr (s.rf .CL_TS_WIN_SIZE n 0 20) 1048576
  let w := s.rf .CL_TS_WIN_WPTR n 0 20
  .next (match s.stampQ n with
    | [] => s
    | r :: rest =>
      if idxNext w size = s.rf .CL_TS_WIN_RPTR n 0 20 then
        ((s.setStampQ n rest).count .CL_TS_LOST n 32).setRb .CL_TS_EVT n 1 true
      else
        let c : Channel := ⟨r.c % 32, Nat.mod_lt _ (by decide)⟩
        let x := s.chan n c
        match engineWrite n 1 false (s.rf .CL_TS_WIN_BASE n 6 20 * 64 + w * 8)
            (stampBytes r (if r.falling then x.wrapFall else x.wrapRise)) s with
        | none => s
        | some s1 =>
          ((s1.setStampQ n rest).setRf .CL_TS_WIN_WPTR n 0 20 (idxNext w size)).modChan n c fun x =>
            if r.falling then { x with wrapFall := false } else { x with wrapRise := false })

/-- RG_GATE_OPEN (R239, R244): G0 has passed; what is so at this moment marks the gate. -/
def execRgGateOpen (t : Nat) (n : Cluster) (c : Channel) (s0 : State) : Res :=
  let s := s0.at t
  let ix := chIx n c
  .next (if gateOpen s n c ∧ !s.rb .CH_RG_STAT ix 4 then
      modGate n c (fun g =>
        { g with waiting := false, blanked := g.blanked || s.rb .CH_CMP_STAT ix 4, stale := g.stale || s.rb .CL_TIM_STAT n 8 })
        (s.setRb .CH_RG_STAT ix 4 true)
    else s)

/-- RG_GATE_END (R242): G1 has passed: the result is written; a CONT series goes on. -/
def execRgGateEnd (t : Nat) (n : Cluster) (c : Channel) (s0 : State) : Res :=
  let s := s0.at t
  .next (match (s.chan n c).gate with
    | some g => if g.g1 ≤ s.clasp then endGate n c 1 false s else s
    | none => s)

end Sys2Proof.Machine
end

