-- ==== Sys2Proof/Machine/Timing.lean ====
section
/-! DEFINITION. Sys2Proof/Machine/Timing.lean: the events of the timing generator and of the band selection (R113 to
R141, R544). -/

namespace Sys2Proof.Machine

/-- TIMING_EDGE (R121, R123): the next pending edge e of the channel is reached. -/
def execTimingEdge (t : Nat) (n : Cluster) (c : Channel) (e : Fin 6) (s0 : State) : Res :=
  let s := s0.at t
  .next (match edgeDue s n c.val e.val with
    | none => s
    | some p => edgeAct n c p (s.modSeq n fun q => { q with edges := q.edges.erase p }))

/-- TIMING_DLL_LOCK (R131): the DLL of the cluster locks. -/
def execTimingDllLock (t : Nat) (n : Cluster) (s0 : State) : Res :=
  let s := s0.at t
  .next (if s.rb .CLK_STAT 0 2 ∧ !cluRetired s n then s.setRb .CL_TIM_STAT n 0 true else s)

/-- TIMING_DLL_UNLOCK (R132): the sequencer stops at the next vector boundary with DLL_UNLOCK, the channels are forced
safe, a fault message is sent. -/
def execTimingDllUnlock (t : Nat) (n : Cluster) (s0 : State) : Res :=
  let s := s0.at t
  .next (if s.rb .CL_TIM_STAT n 0 then
      let s1 := (s.setRb .CL_TIM_STAT n 0 false).setRb .CL_TIM_EVT n 6 true
      let s2 := if seqIdle s1 n ∨ (s1.seq n).ending.isSome then s1 else endSeq n 9 0 s1
      (forceCluster n s2).send (srcOf n 33) 5 1 n.val
    else s)

/-- BAND_EVALUATE (R133, R544): the sensor's band, with hysteresis; the first evaluation after a POR takes the band at
once. A faulted sensor leaves the band where it was (R440). -/
def execBandEvaluate (t : Nat) (n : Cluster) (s0 : State) : Res :=
  let s := s0.at t
  .next (match (bandRec s n).1 with
    | none => if s.rb .THS_TEMP n 16 || s.rb .THS_TEMP n 20 then bandTake n (bandAtOnce s n) s else s
    | some b =>
      match sensorTemp s n with
      | some x => bandNote n (setBandRec n (some (bandFrom b x), (bandRec s n).2) s)
      | none => s)

/-- BAND_STALE (R136): PEND has been 1 for 50 ms. -/
def execBandStale (t : Nat) (n : Cluster) (s0 : State) : Res :=
  let s := s0.at t
  .next (if s.rb .CL_TIM_STAT n 7 ∧ !s.rb .CL_TIM_STAT n 8 ∧ 50 ≤ pendAge s n then
      markGates n (fun g => { g with stale := true }) ((s.setRb .CL_TIM_STAT n 8 true).setRb .CL_TIM_EVT n 5 true)
    else s)

/-- BAND_SWITCH (R134, R136, R138): at an idle MGMT cycle the active band changes; the cluster becomes due where the new
band has not been calibrated since POR (R454). -/
def execBandSwitch (t : Nat) (n : Cluster) (s0 : State) : Res :=
  let s := s0.at t
  let b := bandNext s n
  .next (if idleNow s n ∧ b ≠ activeBand s n then
      let s1 := ((s.setRf .CL_TIM_STAT n 1 3 b).countWrap .CL_TIM_BAND_CNT n 32).setRb .CL_TIM_EVT n 4 true
      let s2 := setBandRec n ((bandRec s n).1, s.clasp) (s1.setRb .CL_TIM_STAT n 8 false)
      let s3 := markGates n (fun g => { g with bandSw := true }) (bandNote n s2)
      if s3.rb .CL_CAL_STAT n (6 + b) then s3 else calBecomeDue n s3
    else s)

end Sys2Proof.Machine
end

