-- ==== Sys2Proof/Machine/Trigger.lean ====
section
/-! DEFINITION. Sys2Proof/Machine/Trigger.lean: the events of the trigger units and capture engines (R251 to R275). -/

namespace Sys2Proof.Machine

/-- The arming and disarming that unit u's firing makes (R262, R266, R267): from the sample after the one that contains A.
A unit named in both is disarmed. -/
def actArm (n : Cluster) (u a : Nat) (s : State) : State :=
  let w := s.reg .CL_TRG_ACT (trgIx n u)
  (List.range 8).foldl
    (fun s v =>
      if bitOf w (16 + v) then trgArm n v false (a / 8 + 1) s
      else if bitOf w (24 + v) then trgArm n v true (a / 8 + 1) s else s) s

/-- CAPACT of unit u (R267): on an engine that unit u claims. -/
def actCapture (n : Cluster) (u : Nat) (s : State) : State :=
  let e : Fin 2 := if s.rb .CL_TRG_ACT (trgIx n u) 6 then 1 else 0
  if cptClaim s n e = 3 ∧ s.rf .CL_CAP_CTRL (awgIx n e) 3 3 = u then
    match s.rf .CL_TRG_ACT (trgIx n u) 4 2 with
    | 1 => startLevel n 3 e.val (cptStart n e) s
    | 2 => cptStop n e (cptPost s n e) s
    | 3 => cptMark n e s
    | _ => s
  else s

/-- The firing of unit u is offered to the wait of a WTRIG that names it (R152, R176): it reaches the issue stage at
A + 64 ticks. -/
def actWait (n : Cluster) (u a : Nat) (s : State) : State :=
  let q := s.seq n
  match q.wait, q.q with
  | some w, .wtrig _ units _ :: _ =>
    if units / 2 ^ u % 2 = 1 ∧ w.fired = none ∧ w.start ≤ a + 64 then
      s.setSeq n { q with wait := some { w with fired := some (a + 64) } }
    else s
  | _, _ => s

/-- The firing is offered to the generators that name unit u (R293). -/
def actJump (n : Cluster) (g : Fin 2) (u a : Nat) (s : State) : State :=
  let w := s.reg .CL_AWG_JCFG (awgIx n g)
  if bitOf w 0 && decide (fld w 1 3 = u) then jumpRequest n g (fld w 16 10) a true s else s

/-- The actions of unit u's firing at A. -/
def actUnit (n : Cluster) (a u : Nat) (s : State) : State :=
  actJump n 1 u a (actJump n 0 u a (actWait n u a (actCapture n u (actArm n u a s))))

/-- The ring lines on which a sample's firings send, each once (R267). -/
def actLines (s : State) (n : Cluster) (us : List Nat) : List Nat :=
  (List.range 8).filter fun k => us.any fun u => s.rb .CL_TRG_ACT (trgIx n u) 11 && decide (s.rf .CL_TRG_ACT (trgIx n u) 8 3 = k)

/-- Sample j is evaluated (R253 to R267). -/
def trgSample (n : Cluster) (j : Nat) (s0 : State) : State :=
  let s := (List.range 8).foldl (fun s u => trgRearm n u j s) s0
  let t0 := s.trig n
  let due := t0.evts.filter fun x => decide (x.time / 8 ≤ j)
  let late := due.any fun x => match x with | .ring _ e => decide (e / 8 < t0.nextJ) | _ => false
  let evs := (due.map (lateEvt j)).foldl (fun l x => insertEvt x l) []
  let t1 := { t0 with evts := t0.evts.filter (fun x => !decide (x.time / 8 ≤ j)), nextJ := j + 1 }
  let t2 := (List.range 8).foldl (fun t u => setTunit t u (armDue s n u j (tunit t u))) t1
  let p := unitsStep s n j evs t2 (List.range 8) t2
  let t3 := evs.foldl trigOutputs p.1
  let fires := p.2.filter fun f => (tunit t3 f.1).armed && !trgFull t3
  let misses := p.2.filter fun f => !(tunit t3 f.1).armed && trgAuto s n f.1
  let s1 := s.setTrig n t3
  let s2 := if late then s1.setRb .CL_TRG_EVT n 18 true else s1
  let s3 := if fires = [] then s2 else trgRecord n j fires late s2
  let s4 := misses.foldl (fun s f => trgMiss n f.1 s) s3
  let us := fires.map (·.1)
  let a := 8 * j + 112
  let s5 := us.foldl (fun s u => trgFire n j u s) s4
  let s6 := us.foldl (fun s u => actUnit n a u s) s5
  (actLines s n us).foldl (fun s k => ringLineSend n k a s) s6

/-- TRIGGER_EVALUATE (R253): sample j is evaluated at 8j + 112, samples in order, none that holds an event passed over. -/
def execTriggerEvaluate (t : Nat) (n : Cluster) (j : Nat) (s0 : State) : Res :=
  let s := s0.at t
  let x := s.trig n
  .next (if x.nextJ ≤ j ∧ 8 * j + 112 ≤ s.clasp ∧
      !(x.evts.any fun y => decide (x.nextJ ≤ y.time / 8 ∧ y.time / 8 < j)) then trgSample n j s
    else s)

/-- TRIGGER_REARM (R263): a unit that waits to re-arm is armed from the first sample past its hold-off with room in the
queue. -/
def execTriggerRearm (t : Nat) (n : Cluster) (u : Unit8) (s0 : State) : Res :=
  let s := s0.at t
  .next (trgRearm n u.val ((s.clasp - 112) / 8) s)

/-- The entry of unit u in a trigger record (R269). -/
def trigEntry (r : TrigRec) (u : Nat) : List Byte :=
  match r.fired.find? fun f => decide (f.1 = u) with
  | some (_, (meas, (dead, (e, low)))) =>
    leBytes 4 (min meas 4294967295) ++ leBytes 4 dead ++ [BitVec.ofNat 8 (128 + (e - 8 * r.j) % 8), BitVec.ofNat 8 (b2n low), 0#8, 0#8]
  | none => List.replicate 12 0#8

/-- The 128 bytes of a trigger record (R269). -/
def trigBytes (r : TrigRec) : List Byte :=
  leBytes 8 (8 * r.j) ++ leBytes 4 r.num ++
  [BitVec.ofNat 8 ((r.fired.map fun f => 2 ^ f.1).sum),
   BitVec.ofNat 8 (b2n (decide (2 ≤ r.fired.length)) + 2 * b2n r.missed + 4 * b2n r.late + 8 * b2n r.sat), 0#8, 0#8] ++
  leBytes 6 (r.vec.getD 0) ++ [BitVec.ofNat 8 (b2n r.vec.isSome)] ++ List.replicate 9 0#8 ++
  (List.range 8).flatMap (trigEntry r)

/-- The trigger window is full (R268). -/
def trgWinFull (s : State) (n : Cluster) : Bool :=
  decide (idxNext (s.rf .CL_TRG_WIN_WPTR n 0 16) (sizeOr (s.rf .CL_TRG_WIN_SIZE n 0 16) 65536) =
    s.rf .CL_TRG_WIN_RPTR n 0 16)

/-- TRIGGER_RECORD_WRITE (R268): the Hopper drains the oldest record into the window, in turn with the log queue. -/
def execTriggerRecordWrite (t : Nat) (n : Cluster) (s0 : State) : Res :=
  let s := s0.at t
  let x := s.trig n
  .next (match x.queue with
    | [] => s
    | r :: rest =>
      if trgWinFull s n ∨ (x.turn ∧ (s.seq n).log ≠ []) then s
      else
        let w := s.rf .CL_TRG_WIN_WPTR n 0 16
        let a := s.rf .CL_TRG_WIN_BASE n 7 19 * 128 + w * 128
        match engineWrite n 0 false a (trigBytes r) s with
        | none => s
        | some s1 =>
          let roomAt := if trgFull x then s.clasp else x.roomAt
          (s1.setTrig n { s1.trig n with queue := rest, turn := true, roomAt }).setRf .CL_TRG_WIN_WPTR n 0 16
            (idxNext w (sizeOr (s.rf .CL_TRG_WIN_SIZE n 0 16) 65536)))

/-- CAPTURE_INTERVAL_END (R273, R274). -/
def execCaptureIntervalEnd (t : Nat) (n : Cluster) (e : Fin 2) (s0 : State) : Res :=
  let s := s0.at t
  .next (cptCatch n e s.clasp s)

/-- The words of a capture window: an odd SIZE acts as SIZE − 1 for two-word records (R275). -/
def cptSize (s : State) (n : Cluster) (e : Fin 2) (two : Bool) : Nat :=
  let z := sizeOr (s.rf .CL_CAP_WIN_SIZE (awgIx n e) 0 20) 1048576
  if two then z / 2 * 2 else z

/-- A capture record does not fit (R275): in STREAM mode WPTR would reach RPTR with it, or pass it. -/
def cptFull (s : State) (n : Cluster) (e : Fin 2) (len : Nat) : Bool :=
  let z := max 1 (cptSize s n e (decide (len = 2)))
  let w := s.rf .CL_CAP_WIN_WPTR (awgIx n e) 0 20
  let r := s.rf .CL_CAP_WIN_RPTR (awgIx n e) 0 20
  !s.rb .CL_CAP_CTRL (awgIx n e) 2 && (List.range len).any fun i => decide ((w + i + 1) % z = r)

/-- CAPTURE_RECORD_WRITE (R275): the oldest record of the engine's queue goes to its window, or is lost there. -/
def execCaptureRecordWrite (t : Nat) (n : Cluster) (e : Fin 2) (s0 : State) : Res :=
  let s := s0.at t
  let x := s.cpt n e
  let ix := awgIx n e
  .next (match x.queue with
    | [] => s
    | r :: rest =>
      if cptFull s n e r.length then
        ((s.setCpt n e { x with queue := rest }).count .CL_CAP_LOST ix 32).setRb .CL_CAP_EVT n (2 + e.val) true
      else
        let w := s.rf .CL_CAP_WIN_WPTR ix 0 20
        let z := max 1 (cptSize s n e (decide (r.length = 2)))
        let a := s.rf .CL_CAP_WIN_BASE ix 3 23 * 8 + 4 * w
        match engineWrite n (if e = 0 then 4 else 5) false a (r.flatMap fun v => leBytes 4 v.toNat) s with
        | none => s
        | some s1 =>
          let s2 := (s1.setCpt n e { s1.cpt n e with queue := rest }).setRf .CL_CAP_WIN_WPTR ix 0 20 ((w + r.length) % z)
          if z ≤ w + r.length ∧ s.rb .CL_CAP_CTRL ix 2 ∧ !s.rb .CL_CAP_STAT ix 2 then
            (s2.setRb .CL_CAP_STAT ix 2 true).setRb .CL_CAP_EVT n (4 + e.val) true
          else s2)

end Sys2Proof.Machine
end

