-- ==== Sys2Proof/Machine/Dispatch.lean ====
section
/-! DEFINITION. Sys2Proof/Machine/Dispatch.lean: which meaning runs for which command: one arm per row of the table. -/

namespace Sys2Proof.Machine

/-- The effect of one command on everything but the queue of waiting commands. -/
def exec (i : Instr) (s : State) : Host.Outcome State Fault Refusal :=
  match i with
  | .registerWrite t r a data be size => Sys2Proof.Machine.execRegisterWrite t r a data be size s
  | .safeRequest t r n c data => Sys2Proof.Machine.execSafeRequest t r n c data s
  | .safeEntryComplete t n c => Sys2Proof.Machine.execSafeEntryComplete t n c s
  | .switchClose t r n c data => Sys2Proof.Machine.execSwitchClose t r n c data s
  | .switchClosed t n c => Sys2Proof.Machine.execSwitchClosed t n c s
  | .switchOpen t r n c data => Sys2Proof.Machine.execSwitchOpen t r n c data s
  | .drvOc t n c => Sys2Proof.Machine.execDrvOc t n c s
  | .levelSetSelect t r n c data => Sys2Proof.Machine.execLevelSetSelect t r n c data s
  | .lvlSettled t n c => Sys2Proof.Machine.execLvlSettled t n c s
  | .cmpConfigWrite t r n c data => Sys2Proof.Machine.execCmpConfigWrite t r n c data s
  | .comparatorResolve t n c low above => Sys2Proof.Machine.execComparatorResolve t n c low above s
  | .comparatorEdge t n c low out ball => Sys2Proof.Machine.execComparatorEdge t n c low out ball s
  | .blankTimerStart t r n data => Sys2Proof.Machine.execBlankTimerStart t r n data s
  | .blankTimerExpire t n => Sys2Proof.Machine.execBlankTimerExpire t n s
  | .blankWindowEnd t n c => Sys2Proof.Machine.execBlankWindowEnd t n c s
  | .selfchkStart t r n c data => Sys2Proof.Machine.execSelfchkStart t r n c data s
  | .selfchkDone t n c h l => Sys2Proof.Machine.execSelfchkDone t n c h l s
  | .pmForceEnable t r n c data => Sys2Proof.Machine.execPmForceEnable t r n c data s
  | .pmRangeChange t r n c data => Sys2Proof.Machine.execPmRangeChange t r n c data s
  | .pmRangeSettled t n c => Sys2Proof.Machine.execPmRangeSettled t n c s
  | .pmSettingWrite t r n c w data => Sys2Proof.Machine.execPmSettingWrite t r n c w data s
  | .pmStart t r n c data => Sys2Proof.Machine.execPmStart t r n c data s
  | .pmCont t r n c data => Sys2Proof.Machine.execPmCont t r n c data s
  | .pmConversionDone t n c mean => Sys2Proof.Machine.execPmConversionDone t n c mean s
  | .pmMeasDone t n c => Sys2Proof.Machine.execPmMeasDone t n c s
  | .pmMeasEndEarly t n c => Sys2Proof.Machine.execPmMeasEndEarly t n c s
  | .pmClampBegin t n c volt => Sys2Proof.Machine.execPmClampBegin t n c volt s
  | .pmOc t n c => Sys2Proof.Machine.execPmOc t n c s
  | .pmResRead t r n c => Sys2Proof.Machine.execPmResRead t r n c s
  | .timingEdge t n c e => Sys2Proof.Machine.execTimingEdge t n c e s
  | .timingDllLock t n => Sys2Proof.Machine.execTimingDllLock t n s
  | .timingDllUnlock t n => Sys2Proof.Machine.execTimingDllUnlock t n s
  | .bandEvaluate t n => Sys2Proof.Machine.execBandEvaluate t n s
  | .bandStale t n => Sys2Proof.Machine.execBandStale t n s
  | .bandSwitch t n => Sys2Proof.Machine.execBandSwitch t n s
  | .vec t n => Sys2Proof.Machine.execVec t n s
  | .mvec t n => Sys2Proof.Machine.execMvec t n s
  | .hset t n => Sys2Proof.Machine.execHset t n s
  | .jmp t n => Sys2Proof.Machine.execJmp t n s
  | .call t n => Sys2Proof.Machine.execCall t n s
  | .ret t n => Sys2Proof.Machine.execRet t n s
  | .ldc t n => Sys2Proof.Machine.execLdc t n s
  | .loop t n => Sys2Proof.Machine.execLoop t n s
  | .jm t n => Sys2Proof.Machine.execJm t n s
  | .jnm t n => Sys2Proof.Machine.execJnm t n s
  | .jf t n => Sys2Proof.Machine.execJf t n s
  | .jnf t n => Sys2Proof.Machine.execJnf t n s
  | .clrf t n => Sys2Proof.Machine.execClrf t n s
  | .csel t n => Sys2Proof.Machine.execCsel t n s
  | .rpt t n => Sys2Proof.Machine.execRpt t n s
  | .wtrig t n => Sys2Proof.Machine.execWtrig t n s
  | .wct t n => Sys2Proof.Machine.execWct t n s
  | .hold t n => Sys2Proof.Machine.execHold t n s
  | .rmark t n => Sys2Proof.Machine.execRmark t n s
  | .rbeg t n => Sys2Proof.Machine.execRbeg t n s
  | .runw t n => Sys2Proof.Machine.execRunw t n s
  | .sel t n => Sys2Proof.Machine.execSel t n s
  | .wri t n => Sys2Proof.Machine.execWri t n s
  | .wrn t n => Sys2Proof.Machine.execWrn t n s
  | .mst t n => Sys2Proof.Machine.execMst t n s
  | .mwait t n => Sys2Proof.Machine.execMwait t n s
  | .stop t n => Sys2Proof.Machine.execStop t n s
  | .illegalWord t n => Sys2Proof.Machine.execIllegalWord t n s
  | .storeWrite t r n w data be => Sys2Proof.Machine.execStoreWrite t r n w data be s
  | .storeRead t r n w => Sys2Proof.Machine.execStoreRead t r n w s
  | .seqStart t r n data => Sys2Proof.Machine.execSeqStart t r n data s
  | .seqAbort t r n data => Sys2Proof.Machine.execSeqAbort t r n data s
  | .seqRelease t r n data => Sys2Proof.Machine.execSeqRelease t r n data s
  | .seqRunStart t n => Sys2Proof.Machine.execSeqRunStart t n s
  | .vectorIssue t n => Sys2Proof.Machine.execVectorIssue t n s
  | .stallEnd t n => Sys2Proof.Machine.execStallEnd t n s
  | .vectorComplete t n => Sys2Proof.Machine.execVectorComplete t n s
  | .logRecordWrite t n => Sys2Proof.Machine.execLogRecordWrite t n s
  | .patternEnd t n => Sys2Proof.Machine.execPatternEnd t n s
  | .hopperEnable t r n data => Sys2Proof.Machine.execHopperEnable t r n data s
  | .hopperDescriptor t n => Sys2Proof.Machine.execHopperDescriptor t n s
  | .hopperChunk t n => Sys2Proof.Machine.execHopperChunk t n s
  | .hopperFlush t r n data => Sys2Proof.Machine.execHopperFlush t r n data s
  | .routineInterrupt t n => Sys2Proof.Machine.execRoutineInterrupt t n s
  | .resume t r n data => Sys2Proof.Machine.execResume t r n data s
  | .abandon t r n data => Sys2Proof.Machine.execAbandon t r n data s
  | .routineResultWrite t n => Sys2Proof.Machine.execRoutineResultWrite t n s
  | .patchGo t r data => Sys2Proof.Machine.execPatchGo t r data s
  | .patchVerified t => Sys2Proof.Machine.execPatchVerified t s
  | .patchCancel t r data => Sys2Proof.Machine.execPatchCancel t r data s
  | .patchApply t => Sys2Proof.Machine.execPatchApply t s
  | .stampDllLock t n => Sys2Proof.Machine.execStampDllLock t n s
  | .stampDllUnlock t n => Sys2Proof.Machine.execStampDllUnlock t n s
  | .coarseWrap t => Sys2Proof.Machine.execCoarseWrap t s
  | .stampRecordWrite t n => Sys2Proof.Machine.execStampRecordWrite t n s
  | .rgStart t r n c data => Sys2Proof.Machine.execRgStart t r n c data s
  | .rgStop t r n c data => Sys2Proof.Machine.execRgStop t r n c data s
  | .rgGateOpen t n c => Sys2Proof.Machine.execRgGateOpen t n c s
  | .rgGateEnd t n c => Sys2Proof.Machine.execRgGateEnd t n c s
  | .rgStatRead t r n c => Sys2Proof.Machine.execRgStatRead t r n c s
  | .triggerEvaluate t n j => Sys2Proof.Machine.execTriggerEvaluate t n j s
  | .triggerRearm t n u => Sys2Proof.Machine.execTriggerRearm t n u s
  | .triggerArm t r n u data => Sys2Proof.Machine.execTriggerArm t r n u data s
  | .triggerDisarm t r n u data => Sys2Proof.Machine.execTriggerDisarm t r n u data s
  | .triggerRecordWrite t n => Sys2Proof.Machine.execTriggerRecordWrite t n s
  | .captureStart t r n e data => Sys2Proof.Machine.execCaptureStart t r n e data s
  | .captureStop t r n e data => Sys2Proof.Machine.execCaptureStop t r n e data s
  | .captureIntervalEnd t n e => Sys2Proof.Machine.execCaptureIntervalEnd t n e s
  | .captureRecordWrite t n e => Sys2Proof.Machine.execCaptureRecordWrite t n e s
  | .awgStart t r n g data => Sys2Proof.Machine.execAwgStart t r n g data s
  | .awgRunStart t n g => Sys2Proof.Machine.execAwgRunStart t n g s
  | .awgStop t r n g data => Sys2Proof.Machine.execAwgStop t r n g data s
  | .awgCommitPoint t n g => Sys2Proof.Machine.execAwgCommitPoint t n g s
  | .awgPassEnd t n g => Sys2Proof.Machine.execAwgPassEnd t n g s
  | .awgFetch t n g => Sys2Proof.Machine.execAwgFetch t n g s
  | .awgJumpRequest t r n g data => Sys2Proof.Machine.execAwgJumpRequest t r n g data s
  | .awgTableWrite t r n g data => Sys2Proof.Machine.execAwgTableWrite t r n g data s
  | .ddsRegWrite t r n g w data => Sys2Proof.Machine.execDdsRegWrite t r n g w data s
  | .auxScTimeout t n g => Sys2Proof.Machine.execAuxScTimeout t n g s
  | .auxRecon t r n g data => Sys2Proof.Machine.execAuxRecon t r n g data s
  | .awgClrAssert t => Sys2Proof.Machine.execAwgClrAssert t s
  | .awgClrRelease t => Sys2Proof.Machine.execAwgClrRelease t s
  | .capGo t r data => Sys2Proof.Machine.execCapGo t r data s
  | .capCheckDone t => Sys2Proof.Machine.execCapCheckDone t s
  | .capAbort t r data => Sys2Proof.Machine.execCapAbort t r data s
  | .capPoll t reply => Sys2Proof.Machine.execCapPoll t reply s
  | .capRecordStart t => Sys2Proof.Machine.execCapRecordStart t s
  | .capTimeout t => Sys2Proof.Machine.execCapTimeout t s
  | .capRecordEnd t => Sys2Proof.Machine.execCapRecordEnd t s
  | .capDlogWrite t => Sys2Proof.Machine.execCapDlogWrite t s
  | .capFinish t => Sys2Proof.Machine.execCapFinish t s
  | .millraceAccess t q x a rivals => Sys2Proof.Machine.execMillraceAccess t q x a rivals s
  | .lotteryBackoffEnd t q => Sys2Proof.Machine.execLotteryBackoffEnd t q s
  | .bankOwnWrite t r b data => Sys2Proof.Machine.execBankOwnWrite t r b data s
  | .bankHandoverDone t b => Sys2Proof.Machine.execBankHandoverDone t b s
  | .bankStateWrite t r b data => Sys2Proof.Machine.execBankStateWrite t r b data s
  | .bankStateDone t b => Sys2Proof.Machine.execBankStateDone t b s
  | .slcDataAccess t r write data => Sys2Proof.Machine.execSlcDataAccess t r write data s
  | .sluiceCommit t r data => Sys2Proof.Machine.execSluiceCommit t r data s
  | .sluiceApply t => Sys2Proof.Machine.execSluiceApply t s
  | .lotCommit t r data => Sys2Proof.Machine.execLotCommit t r data s
  | .lfsrReseed t r data => Sys2Proof.Machine.execLfsrReseed t r data s
  | .semAcq t r k data => Sys2Proof.Machine.execSemAcq t r k data s
  | .semRel t r k data => Sys2Proof.Machine.execSemRel t r k data s
  | .calSemAcquire t => Sys2Proof.Machine.execCalSemAcquire t s
  | .bar2Read t h a len => Sys2Proof.Machine.execBar2Read t h a len s
  | .bar2Write t h a bytes => Sys2Proof.Machine.execBar2Write t h a bytes s
  | .dmaEnable t r h k data => Sys2Proof.Machine.execDmaEnable t r h k data s
  | .dmaDescriptor t h k host => Sys2Proof.Machine.execDmaDescriptor t h k host s
  | .dmaHostTimeout t h k => Sys2Proof.Machine.execDmaHostTimeout t h k s
  | .mgmtOwnerWrite t r data => Sys2Proof.Machine.execMgmtOwnerWrite t r data s
  | .domainReset t h cause => Sys2Proof.Machine.execDomainReset t h cause s
  | .d3hotEntry t h => Sys2Proof.Machine.execD3hotEntry t h s
  | .linkUp t h rate width => Sys2Proof.Machine.execLinkUp t h rate width s
  | .txnBegin t r h data => Sys2Proof.Machine.execTxnBegin t r h data s
  | .txnCommit t r h data => Sys2Proof.Machine.execTxnCommit t r h data s
  | .txnCommitCycle t h => Sys2Proof.Machine.execTxnCommitCycle t h s
  | .txnRollback t r h data => Sys2Proof.Machine.execTxnRollback t r h data s
  | .ringEnable t r data => Sys2Proof.Machine.execRingEnable t r data s
  | .ringSlot t slot arr => Sys2Proof.Machine.execRingSlot t slot arr s
  | .ringBypassChange t close => Sys2Proof.Machine.execRingBypassChange t close s
  | .ringStart t => Sys2Proof.Machine.execRingStart t s
  | .ringAbort t => Sys2Proof.Machine.execRingAbort t s
  | .ringAbortRequest t r data => Sys2Proof.Machine.execRingAbortRequest t r data s
  | .ringTrigger t => Sys2Proof.Machine.execRingTrigger t s
  | .ringTime t => Sys2Proof.Machine.execRingTime t s
  | .ringAcc t => Sys2Proof.Machine.execRingAcc t s
  | .ringResid t => Sys2Proof.Machine.execRingResid t s
  | .ringHealth t => Sys2Proof.Machine.execRingHealth t s
  | .ringRoundStart t => Sys2Proof.Machine.execRingRoundStart t s
  | .ringRecal t r data => Sys2Proof.Machine.execRingRecal t r data s
  | .ringLoopReturn t => Sys2Proof.Machine.execRingLoopReturn t s
  | .ringStepApply t => Sys2Proof.Machine.execRingStepApply t s
  | .ringRoundTimeout t => Sys2Proof.Machine.execRingRoundTimeout t s
  | .ringMsgRetry t => Sys2Proof.Machine.execRingMsgRetry t s
  | .heartbeatSend t => Sys2Proof.Machine.execHeartbeatSend t s
  | .heartbeatLost t p => Sys2Proof.Machine.execHeartbeatLost t p s
  | .refclkWindow t count => Sys2Proof.Machine.execRefclkWindow t count s
  | .pllLock t lock => Sys2Proof.Machine.execPllLock t lock s
  | .rootJudgement t count => Sys2Proof.Machine.execRootJudgement t count s
  | .aonSwitch t forced => Sys2Proof.Machine.execAonSwitch t forced s
  | .sleepRequest t r data => Sys2Proof.Machine.execSleepRequest t r data s
  | .autoSleep t => Sys2Proof.Machine.execAutoSleep t s
  | .sleepEnter t => Sys2Proof.Machine.execSleepEnter t s
  | .wake t => Sys2Proof.Machine.execWake t s
  | .clusterGate t n => Sys2Proof.Machine.execClusterGate t n s
  | .railFault t rail => Sys2Proof.Machine.execRailFault t rail s
  | .por t core => Sys2Proof.Machine.execPor t core s
  | .warmReset t assert => Sys2Proof.Machine.execWarmReset t assert s
  | .shutdown t r data => Sys2Proof.Machine.execShutdown t r data s
  | .sensorConversion t j reading => Sys2Proof.Machine.execSensorConversion t j reading s
  | .governorStop t n => Sys2Proof.Machine.execGovernorStop t n s
  | .nomBudgetWrite t r n power data => Sys2Proof.Machine.execNomBudgetWrite t r n power data s
  | .refcal t r data => Sys2Proof.Machine.execRefcal t r data s
  | .refCalibration t microvolt => Sys2Proof.Machine.execRefCalibration t microvolt s
  | .calCertWrite t r data => Sys2Proof.Machine.execCalCertWrite t r data s
  | .trimWrite t r n w data => Sys2Proof.Machine.execTrimWrite t r n w data s
  | .trimRampStep t n w => Sys2Proof.Machine.execTrimRampStep t n w s
  | .calReq t r n data => Sys2Proof.Machine.execCalReq t r n data s
  | .calDue t n => Sys2Proof.Machine.execCalDue t n s
  | .calStepStart t n => Sys2Proof.Machine.execCalStepStart t n s
  | .calStepEnd t n res => Sys2Proof.Machine.execCalStepEnd t n res s
  | .calStepAbandon t n => Sys2Proof.Machine.execCalStepAbandon t n s
  | .calDeadlineInterrupt t n => Sys2Proof.Machine.execCalDeadlineInterrupt t n s
  | .faultMessage t => Sys2Proof.Machine.execFaultMessage t s
  | .faultWindowClose t => Sys2Proof.Machine.execFaultWindowClose t s
  | .faultRecover t k => Sys2Proof.Machine.execFaultRecover t k s
  | .faultInject t r data => Sys2Proof.Machine.execFaultInject t r data s
  | .bezel t n => Sys2Proof.Machine.execBezel t n s
  | .assayRequest t r data => Sys2Proof.Machine.execAssayRequest t r data s
  | .assayRunStart t n => Sys2Proof.Machine.execAssayRunStart t n s
  | .assayOutcome t n failCluster failCh => Sys2Proof.Machine.execAssayOutcome t n failCluster failCh s
  | .retireWrite t r cluster data => Sys2Proof.Machine.execRetireWrite t r cluster data s
  | .lifeRecordWrite t obs => Sys2Proof.Machine.execLifeRecordWrite t obs s
  | .bootStart t image slots => Sys2Proof.Machine.execBootStart t image slots s
  | .bootComplete t => Sys2Proof.Machine.execBootComplete t s
  | .psmFrame t r data => Sys2Proof.Machine.execPsmFrame t r data s
  | .psmFrameDone t rx => Sys2Proof.Machine.execPsmFrameDone t rx s
  | .mspFrame t read a bytes k bits => Sys2Proof.Machine.execMspFrame t read a bytes k bits s
  | .mspWinRd t => Sys2Proof.Machine.execMspWinRd t s
  | .mspWinWr t => Sys2Proof.Machine.execMspWinWr t s
  | .mspWinAccess t => Sys2Proof.Machine.execMspWinAccess t s
  | .inSend t => Sys2Proof.Machine.execInSend t s
  | .outAck t => Sys2Proof.Machine.execOutAck t s
  | .inAck t r data => Sys2Proof.Machine.execInAck t r data s
  | .outSend t r data => Sys2Proof.Machine.execOutSend t r data s
  | .eventMessage t h k => Sys2Proof.Machine.execEventMessage t h k s
  | .idLock t r data => Sys2Proof.Machine.execIdLock t r data s
  | .extest t => Sys2Proof.Machine.execExtest t s
  | .samplePreload t => Sys2Proof.Machine.execSamplePreload t s
  | .idcode t => Sys2Proof.Machine.execIdcode t s
  | .highz t => Sys2Proof.Machine.execHighz t s
  | .clamp t => Sys2Proof.Machine.execClamp t s
  | .bypass t => Sys2Proof.Machine.execBypass t s
  | .d3hotExit t h => Sys2Proof.Machine.execD3hotExit t h s
  | .loRegisterRead t r a => Sys2Proof.Machine.execLoRegisterRead t r a s
  | .awgSampleBoundary t n g => Sys2Proof.Machine.execAwgSampleBoundary t n g s
  | .auxCurrentLimit t n g => Sys2Proof.Machine.execAuxCurrentLimit t n g s
  | .internalOscillatorFail t => Sys2Proof.Machine.execInternalOscillatorFail t s
  | .railReturnInRange t rail micros => Sys2Proof.Machine.execRailReturnInRange t rail micros s
  | .pwrgdRise t => Sys2Proof.Machine.execPwrgdRise t s
  | .testLogicReset t => Sys2Proof.Machine.execTestLogicReset t s
  | .powerOnMinute t => Sys2Proof.Machine.execPowerOnMinute t s
  | .patchApplied t => Sys2Proof.Machine.execPatchApplied t s
  | .clusterResetEnd t n => Sys2Proof.Machine.execClusterResetEnd t n s
  | .calInterruptEnd t n => Sys2Proof.Machine.execCalInterruptEnd t n s

end Sys2Proof.Machine
end

