-- ==== Sys2Proof/Safety.lean ====
section
/-! DEFINITION. Sys2Proof/Safety.lean: the terms in which claims about the machine are stated: the canonical form of the
state, what two states have in common, and when a register write is performed. -/

namespace Sys2Proof.Machine

/-! ### The canonical form -/

/-- Millpond holds its bytes in the canonical form: addresses strictly rising, no byte equal to what an unlisted address
reads as (0). -/
def Memory.wf (m : List Host.Cell) : Bool := tabWf (fun _ => 0#8) m

/-- Every sparse list of the state is in its canonical form: keys strictly rising, no entry equal to what an unlisted key
holds (registers: the value after POR). -/
structure Inv (s : State) : Prop where
  regs : tabWf porOfKey s.regs = true
  mem : Memory.wf s.mem = true
  micro : tabWf (fun _ => { }) s.micro = true
  nano : tabWf (fun _ => { }) s.nano = true
  libMicro : tabWf (fun _ => 0#32) s.libMicro = true
  libNano : tabWf (fun _ => 0#256) s.libNano = true
  chans : tabWf (fun _ => { }) s.chans = true
  bands : tabWf (fun _ => (none, 0)) s.bands = true
  seqs : tabWf (fun _ => { }) s.seqs = true
  hops : tabWf (fun _ => { }) s.hops = true
  blankAt : tabWf (fun _ => (0, 0)) s.blankAt = true
  stamps : tabWf (fun _ => []) s.stamps = true
  trigs : tabWf (fun _ => { }) s.trigs = true
  cpts : tabWf (fun _ => { }) s.cpts = true
  awgs : tabWf (fun _ => { }) s.awgs = true
  awgTab : tabWf (fun _ => (0#32, 0#32)) s.awgTab = true
  slcShadow : tabWf (fun _ => 0) s.slcShadow = true
  slcActive : tabWf (fun _ => 0) s.slcActive = true
  slcCnt : tabWf (fun _ => 0) s.slcCnt = true
  grants : tabWf (fun _ => 0) s.grants = true
  atoms : tabWf (fun _ => (0, 0)) s.atoms = true
  sems : tabWf (fun _ => { }) s.sems = true
  txns : tabWf (fun _ => { }) s.txns = true
  msix : tabWf msixDef s.msix = true
  pba : tabWf (fun _ => 0#32) s.pba = true
  hiLatch : tabWf (fun _ => none) s.hiLatch = true
  hist : tabWf (fun _ => []) s.hist = true
  gov : tabWf (fun _ => { }) s.gov = true
  cal : tabWf (fun _ => { }) s.cal = true
  faults : tabWf (fun _ => { }) s.faults = true
  life : tabWf (fun _ => 0) s.life = true
  present : tabRising 0 s.present = true
  ramps : tabRising 0 s.ramps = true
  assay : tabRising 0 s.assay = true

/-! ### What two states have in common -/

/-- The parts of the state beside its registers and its queue of commands, by State's field names. -/
inductive Part where
  | clasp | mem | micro | nano | libMicro | libNano | chans | bands | seqs | hops | blankAt | stamps | trigs | cpts | awgs
  | awgTab | slcShadow | slcActive | slcAt | slcFrame | slcCnt | lotTkt | lotPend | lfsrAt | present | waiting | grants
  | atoms | cap | sems | txns | msix | pba | hiLatch | ring | pwr | boot | msp | tap | boundary | hist | gov | cal | ramps
  | refDue | refLast | window | faults | assay | life | lifeHdr | lifeSlot | lifeMin | replaceWait | patch | wakes | owed
  | msgs | free | out
  deriving DecidableEq, Repr

/-- The part is the same in both states. -/
def Part.same (p : Part) (s s' : State) : Prop :=
  match p with
  | .clasp => s'.clasp = s.clasp
  | .mem => s'.mem = s.mem
  | .micro => s'.micro = s.micro
  | .nano => s'.nano = s.nano
  | .libMicro => s'.libMicro = s.libMicro
  | .libNano => s'.libNano = s.libNano
  | .chans => s'.chans = s.chans
  | .bands => s'.bands = s.bands
  | .seqs => s'.seqs = s.seqs
  | .hops => s'.hops = s.hops
  | .blankAt => s'.blankAt = s.blankAt
  | .stamps => s'.stamps = s.stamps
  | .trigs => s'.trigs = s.trigs
  | .cpts => s'.cpts = s.cpts
  | .awgs => s'.awgs = s.awgs
  | .awgTab => s'.awgTab = s.awgTab
  | .slcShadow => s'.slcShadow = s.slcShadow
  | .slcActive => s'.slcActive = s.slcActive
  | .slcAt => s'.slcAt = s.slcAt
  | .slcFrame => s'.slcFrame = s.slcFrame
  | .slcCnt => s'.slcCnt = s.slcCnt
  | .lotTkt => s'.lotTkt = s.lotTkt
  | .lotPend => s'.lotPend = s.lotPend
  | .lfsrAt => s'.lfsrAt = s.lfsrAt
  | .present => s'.present = s.present
  | .waiting => s'.waiting = s.waiting
  | .grants => s'.grants = s.grants
  | .atoms => s'.atoms = s.atoms
  | .cap => s'.cap = s.cap
  | .sems => s'.sems = s.sems
  | .txns => s'.txns = s.txns
  | .msix => s'.msix = s.msix
  | .pba => s'.pba = s.pba
  | .hiLatch => s'.hiLatch = s.hiLatch
  | .ring => s'.ring = s.ring
  | .pwr => s'.pwr = s.pwr
  | .boot => s'.boot = s.boot
  | .msp => s'.msp = s.msp
  | .tap => s'.tap = s.tap
  | .boundary => s'.boundary = s.boundary
  | .hist => s'.hist = s.hist
  | .gov => s'.gov = s.gov
  | .cal => s'.cal = s.cal
  | .ramps => s'.ramps = s.ramps
  | .refDue => s'.refDue = s.refDue
  | .refLast => s'.refLast = s.refLast
  | .window => s'.window = s.window
  | .faults => s'.faults = s.faults
  | .assay => s'.assay = s.assay
  | .life => s'.life = s.life
  | .lifeHdr => s'.lifeHdr = s.lifeHdr
  | .lifeSlot => s'.lifeSlot = s.lifeSlot
  | .lifeMin => s'.lifeMin = s.lifeMin
  | .replaceWait => s'.replaceWait = s.replaceWait
  | .patch => s'.patch = s.patch
  | .wakes => s'.wakes = s.wakes
  | .owed => s'.owed = s.owed
  | .msgs => s'.msgs = s.msgs
  | .free => s'.free = s.free
  | .out => s'.out = s.out

/-- Nothing but the parts K and elements of the registers R differs from s to s'; the queue is the same. -/
structure Only (K : List Part) (R : List Reg) (s s' : State) : Prop where
  pending : s'.pending = s.pending
  parts : ∀ p, p ∉ K → p.same s s'
  regs : ∀ r i, r ∉ R → s'.reg r i = s.reg r i

/-- What cluster k's records and stores hold is the same in both states, channels aside. -/
structure SameCluster (k : Nat) (s s' : State) : Prop where
  seqs : tabGet { } s'.seqs k = tabGet { } s.seqs k
  hops : tabGet { } s'.hops k = tabGet { } s.hops k
  trigs : tabGet { } s'.trigs k = tabGet { } s.trigs k
  stamps : tabGet [] s'.stamps k = tabGet [] s.stamps k
  cpts : ∀ e, e / 2 = k → tabGet { } s'.cpts e = tabGet { } s.cpts e
  awgs : ∀ g, g / 2 = k → tabGet { } s'.awgs g = tabGet { } s.awgs g
  awgTab : ∀ i, i / 2048 = k → tabGet (0#32, 0#32) s'.awgTab i = tabGet (0#32, 0#32) s.awgTab i
  micro : ∀ a, a / 65536 = k → tabGet { } s'.micro a = tabGet { } s.micro a
  nano : ∀ i, i / 4096 = k → tabGet { } s'.nano i = tabGet { } s.nano i
  bands : tabGet (none, 0) s'.bands k = tabGet (none, 0) s.bands k
  blankAt : tabGet (0, 0) s'.blankAt k = tabGet (0, 0) s.blankAt k
  gov : tabGet { } s'.gov k = tabGet { } s.gov k
  cal : tabGet { } s'.cal k = tabGet { } s.cal k

/-- Where a command may act: on channel c of cluster n if C n c, and on what cluster n has beside its channels if C n c
for some c. Registers that each cluster has once per channel belong to the channels. -/
structure Within (C : Nat → Nat → Prop) (s s' : State) : Prop where
  chans : ∀ n c, c < 32 → ¬ C n c → tabGet { } s'.chans (n * 32 + c) = tabGet { } s.chans (n * 32 + c)
  chanRegs : ∀ r n c, r.row.cluster = true → r.row.count = 32 → c < 32 → ¬ C n c →
    s'.reg r (n * 32 + c) = s.reg r (n * 32 + c)
  cluRegs : ∀ r i, r.row.cluster = true → (∀ c, ¬ C (i / r.row.count) c) → s'.reg r i = s.reg r i
  clus : ∀ k, (∀ c, ¬ C k c) → SameCluster k s s'

/-- The registers that hold a gate's result, its status and its end (R242, R249). -/
def gateRegs : List Reg := rgRegs ++ [.CH_RG_STAT, .CH_RG_TSTART_LO, .CH_RG_TSTART_HI, .CL_TS_DONE, .CL_TS_EVT]

/-- Only channel c of cluster n and what the cluster has beside its channels. -/
def atChannel (n : Cluster) (c : Channel) (k j : Nat) : Prop := k = n.val ∧ j = c.val
/-- Only cluster n. -/
def atCluster (n : Cluster) (k _j : Nat) : Prop := k = n.val
/-- No cluster. -/
def atNone (_k _j : Nat) : Prop := False

/-! ### Register writes that are performed -/

/-- A write by requester q of the whole word w to element i of r is served at once, accepted (R367) and performed: the
requester is served (R361, R419), the part is in ACTIVE (R421, R434), no open transaction of q stages the write (R378), no rule of
R367 refuses it, no flow narrows it, the cluster is not in a CLUSTER reset (R510), and no check of its own chapter (a claim, a
budget, a lock) turns it away. -/
structure Accepted (q : Req) (r : Reg) (i : Nat) (w : Word) (s : State) : Prop where
  served : served s q = true
  awake : pwrState s = 2
  unstaged : stages q (r.addr i) s = false
  allowed : refuseCode q (r.addr i) w 0xFFFFFFFF#32 s = 0
  whole : flowBits q (r.addr i) 0xFFFFFFFF#32 s = 0xFFFFFFFF#32
  running : r.row.cluster = true → s.rb .ID_CLU_RST 0 (r.cluOf i) = false
  done : (regWrite q (r.addr i) w 0xFFFFFFFF#32 s).2 = true

end Sys2Proof.Machine
end

