-- ==== Sys2Proof/Certificates/Slice0/Obligations.lean ====
section
/-! DEFINITION. Sys2Proof/Certificates/Slice0/Obligations.lean: the statements about the FA-768 that are put up for proof,
chapter by chapter of the manual, and the terms they share. `s.at t` is the state in which a command given for Clasp time t
happens. A statement of what a command does concludes that exec answers a next state, says what that state holds, and names
in Only and Within everything that may differ from the state before; all else is as it was. -/

open Sys2Proof Sys2Proof.Machine

namespace Sys2Proof.Machine

/-- From s to s' nothing but the parts K and elements of the registers R differs, and only where C says. -/
def Frame (K : List Part) (R : List Reg) (C : Nat → Nat → Prop) (s s' : State) : Prop := Only K R s s' ∧ Within C s s'

/-- Every cluster. -/
def atAll (_k _j : Nat) : Prop := True

end Sys2Proof.Machine

/-! ### The machine as a whole -/

/-- A step takes the command at the front of the queue and runs it with the queue's rest. -/
def Obligations.StepRunsFrontCommand : Prop :=
  ∀ (c : Instr) (rest : List Instr) (s : State),
    s.pending = c :: rest →
    step s = exec c { s with pending := rest }

/-- On an empty queue the block idles: the model's choice (log entry 1), since the table has no row for a tick. -/
def Obligations.StepIdlesOnEmptyQueue : Prop :=
  ∀ (s : State),
    s.pending = [] →
    step s = .next s

/-- No command ends in a fault or a refusal of the model, and none touches the queue of commands: a write that the
manual turns away leaves a next state as well. -/
def Obligations.EveryCommandAnswersNext : Prop :=
  ∀ (c : Instr) (s : State),
    ∃ s', exec c s = .next s' ∧ s'.pending = s.pending

/-- The canonical form of every table of the state holds after reset. -/
def Obligations.ResetKeepsCanonicalForm : Prop :=
  Inv State.reset

/-- Every step keeps the canonical form of Millpond, the registers, the stores and every other table: keys strictly
rising, no entry equal to what an unlisted key holds. -/
def Obligations.StepKeepsCanonicalForm : Prop :=
  ∀ (s s' : State),
    Inv s →
    step s = .next s' →
    Inv s'

/-- A register element reads what was last put into it and no other element changes; Millpond likewise, byte by byte. -/
def Obligations.ReadAfterWrite : Prop :=
  (∀ (s : State) (r r' : Reg) (i i' : Nat) (v : Word),
    (s.setReg r i v).reg r' i' = if r' = r ∧ i' = i then v else s.reg r' i') ∧
  (∀ (s : State) (a a' : Nat) (bs : List Byte),
    (s.setBytes a bs).byte a' = if a ≤ a' ∧ a' < a + bs.length then bs.getD (a' - a) 0#8 else s.byte a')

/-! ### The channel (R27 to R77) -/

namespace Sys2Proof.Machine

/-- What forcing channel c of cluster n into safe state does (R36): CONNECT, DRV_EN and INACT become 0, EN and CONT become 0,
SAFE_FORCED is set, every other field of the two registers keeps its value; driver off, switch open or opening. -/
def SafeForced (n : Cluster) (c : Channel) (s s' : State) : Prop :=
  s'.reg .CH_CTRL (chIx n c) = putFld (s.reg .CH_CTRL (chIx n c)) 0 4 0 ∧
  s'.reg .CH_PM_CTRL (chIx n c) = s.reg .CH_PM_CTRL (chIx n c) &&& ~~~ 0x1001#32 ∧
  s'.rb .CH_EVT (chIx n c) 6 = true ∧
  (s'.chan n c).drvOn = false ∧
  ((s'.chan n c).sw = .opened ∨ (s'.chan n c).sw = .opening)

/-- The registers that forcing a channel safe changes, with what ends a gate. -/
def safeRegs : List Reg := .CH_CTRL :: .CH_PM_CTRL :: .CH_PM_STAT :: .CH_EVT :: gateRegs

/-- What the check met is the two outputs of a known-level check. -/
def isLevels : CheckObs → Bool
  | .levels .. => true
  | _ => false

/-- The code of a self-check's result (R68, R69): 1 PASS, 2 FAIL; open where the node entered, left or crossed the band. -/
def checkCode (o : CheckObs) (v : Nat) : Prop :=
  match o with
  | .outside differ => v = if differ then 1 else 2
  | .inside => v = 2
  | .crossing => v = 1 ∨ v = 2
  | .levels below above => v = if !below && above then 1 else 2

end Sys2Proof.Machine

/-- A driver overcurrent of a driving channel (R46), and an overcurrent of a force loop (R102): safe state, the
cause, the count, a fault message of class uncorrected-contained unless the cluster is retired (R479), the life
record's count. -/
def Obligations.OvercurrentForcesSafeState : Prop :=
  (∀ (t : Nat) (n : Cluster) (c : Channel) (s : State),
    (driving (s.at t) n c).isSome = true →
    ∃ s', exec (.drvOc t n c) s = .next s' ∧ SafeForced n c s s' ∧ s'.rb .CH_EVT (chIx n c) 3 = true ∧
      s'.rf .CH_OC_CNT (chIx n c) 0 16 = satInc 65535 (s.rf .CH_OC_CNT (chIx n c) 0 16) ∧
      s'.msgs = s.msgs ++ (if cluRetired s n then [] else [⟨44 * n.val + c.val, 2, 1, 32 * n.val + c.val⟩]) ∧
      tabGet 0 s'.life (144 + 4 * chIx n c) = satInc 65535 (tabGet 0 s.life (144 + 4 * chIx n c)) ∧
      Frame [.clasp, .chans, .life, .msgs, .free] (.CH_OC_CNT :: safeRegs) (atChannel n c) s s') ∧
  (∀ (t : Nat) (n : Cluster) (c : Channel) (s : State),
    loopOn (s.at t) n c = true →
    ∃ s', exec (.pmOc t n c) s = .next s' ∧ SafeForced n c s s' ∧ s'.rb .CH_EVT (chIx n c) 19 = true ∧
      s'.rf .CH_PM_OC_CNT (chIx n c) 0 16 = satInc 65535 (s.rf .CH_PM_OC_CNT (chIx n c) 0 16) ∧
      s'.msgs = s.msgs ++ (if cluRetired s n then [] else [⟨44 * n.val + c.val, 3, 1, 32 * n.val + c.val⟩]) ∧
      tabGet 0 s'.life (146 + 4 * chIx n c) = satInc 65535 (tabGet 0 s.life (146 + 4 * chIx n c)) ∧
      Frame [.clasp, .chans, .life, .msgs, .free] (.CH_PM_OC_CNT :: safeRegs) (atChannel n c) s s')

/-- The switch: a write of SAFE forces safe state whatever else it writes; a write of CONNECT 1 to a channel that
nothing holds safe starts closing it; SW_CLOSED reads 0 until it has settled; a write of 0 holds driver, load and
force loop off at once and opens it; when it has opened the channel is in safe state. -/
def Obligations.SwitchFollowsConnect : Prop :=
  (∀ (t : Nat) (r : Req) (n : Cluster) (c : Channel) (d : Word) (s : State),
    Accepted r .CH_CTRL (chIx n c) (d ||| 0x40#32) (s.at t) →
    ∃ s', exec (.safeRequest t r n c d) s = .next s' ∧ s'.rf .CH_CTRL (chIx n c) 0 4 = 0 ∧
      s'.reg .CH_PM_CTRL (chIx n c) = s.reg .CH_PM_CTRL (chIx n c) &&& ~~~ 0x1001#32 ∧
      s'.rb .CH_EVT (chIx n c) 6 = true ∧ (s'.chan n c).drvOn = false ∧
      ((s'.chan n c).sw = .opened ∨ (s'.chan n c).sw = .opening) ∧
      Frame [.clasp, .chans, .free] (.PWR_CLU_GATE :: safeRegs) (atChannel n c) s s') ∧
  (∀ (t : Nat) (r : Req) (n : Cluster) (c : Channel) (d : Word) (s : State),
    Accepted r .CH_CTRL (chIx n c) (d ||| 1#32) (s.at t) →
    bitOf d 6 = false →
    heldSafe (s.at t) n c = false →
    s.rb .CH_CTRL (chIx n c) 0 = false →
    ∃ s', exec (.switchClose t r n c d) s = .next s' ∧ s'.rb .CH_CTRL (chIx n c) 0 = true ∧
      (s'.chan n c).sw = .closing ∧ swClosed s' n c = false ∧
      Frame [.clasp, .chans, .free] (.PWR_CLU_GATE :: safeRegs) (atChannel n c) s s') ∧
  (∀ (t : Nat) (r : Req) (n : Cluster) (c : Channel) (d : Word) (s : State),
    Accepted r .CH_CTRL (chIx n c) (d &&& 0xFFFFFFFE#32) (s.at t) →
    bitOf d 6 = false →
    retired s n c = false →
    fenced s n c = false →
    s.rb .CH_CTRL (chIx n c) 0 = true →
    ∃ s', exec (.switchOpen t r n c d) s = .next s' ∧ s'.rb .CH_CTRL (chIx n c) 0 = false ∧ swClosed s' n c = false ∧
      driving s' n c = none ∧ loadOn s' n c = false ∧ loopOn s' n c = false ∧
      ((s'.chan n c).sw = .opened ∨ (s'.chan n c).sw = .opening) ∧
      Frame [.clasp, .chans, .free] (.PWR_CLU_GATE :: safeRegs) (atChannel n c) s s') ∧
  (∀ (t : Nat) (n : Cluster) (c : Channel) (s : State),
    (s.chan n c).sw = .closing →
    s.rb .CH_CTRL (chIx n c) 0 = true →
    ∃ s', exec (.switchClosed t n c) s = .next s' ∧ swClosed s' n c = true ∧
      s'.chan n c = { s.chan n c with sw := .closed } ∧ Frame [.clasp, .chans] [] (atChannel n c) s s') ∧
  (∀ (t : Nat) (n : Cluster) (c : Channel) (s : State),
    (s.chan n c).sw = .opening →
    ∃ s', exec (.safeEntryComplete t n c) s = .next s' ∧ (s'.chan n c).sw = .opened ∧ chSafe s' n c = true ∧
      (s'.chan n c).meas = none ∧ (s'.chan n c).gate = none ∧
      Frame [.clasp, .chans, .free] gateRegs (atChannel n c) s s')

/-- A write of a new level set takes it into use and LVL_SETTLING reads 1 until settling ends (R52). Comparators: a
write of CH_CMP stores MODE 5 to 7 as 0 and HYST above 50 as 50, and a comparator that comes on, or whose mode
changes, enters UNRESOLVED with output 0 (R60); one resolves, one propagation allowance later, without an edge (R61,
R63); an output change of a resolved comparator is delivered (R72), unless a blanking window or a self-check holds it
back. -/
def Obligations.LevelsAndComparatorsSettle : Prop :=
  (∀ (t : Nat) (r : Req) (n : Cluster) (c : Channel) (d : Word) (s : State),
    Accepted r .CH_LVL (chIx n c) d (s.at t) →
    fld d 0 4 ≠ lsetOf s n c →
    ∃ s', exec (.levelSetSelect t r n c d) s = .next s' ∧ lsetOf s' n c = fld d 0 4 ∧ s'.rb .CH_STAT (chIx n c) 3 = true ∧
      Frame [.clasp, .chans] [.CH_LVL, .CH_STAT, .CH_EVT, .PWR_CLU_GATE] (atChannel n c) s s') ∧
  (∀ (t : Nat) (n : Cluster) (c : Channel) (s : State),
    s.rb .CH_STAT (chIx n c) 3 = true →
    ∃ s', exec (.lvlSettled t n c) s = .next s' ∧ s'.reg .CH_STAT (chIx n c) = putBit (s.reg .CH_STAT (chIx n c)) 3 false ∧
      Frame [.clasp] [.CH_STAT] (atChannel n c) s s') ∧
  (∀ (t : Nat) (r : Req) (n : Cluster) (c : Channel) (d : Word) (low : Bool) (s : State),
    Accepted r .CH_CMP (chIx n c) d (s.at t) →
    ∃ s', exec (.cmpConfigWrite t r n c d) s = .next s' ∧
      s'.rf .CH_CMP (chIx n c) 0 3 = (if 5 ≤ fld d 0 3 then 0 else fld d 0 3) ∧
      s'.rf .CH_CMP (chIx n c) 5 6 = min 50 (fld d 5 6) ∧ s'.rb .CH_CMP (chIx n c) 3 = bitOf d 3 ∧
      s'.rb .CH_CMP (chIx n c) 4 = bitOf d 4 ∧ s'.rb .CH_CMP (chIx n c) 11 = bitOf d 11 ∧
      (cmpOn s' n c low = true →
        (cmpOn s n c low = false ∨ s'.rf .CH_CMP (chIx n c) 0 3 ≠ s.rf .CH_CMP (chIx n c) 0 3) →
        unres s' n c low = true ∧ cmpOut s' n c low = false) ∧
      Frame [.clasp, .chans, .trigs, .free] (.CH_CMP :: .CH_CMP_STAT :: .PWR_CLU_GATE :: gateRegs) (atChannel n c) s s') ∧
  (∀ (t : Nat) (n : Cluster) (c : Channel) (low v : Bool) (s : State),
    unres s n c low = true →
    cmpOn s n c low = true →
    (if low then (s.chan n c).unresL else (s.chan n c).unresH) + allowance (s.rf .CH_CMP (chIx n c) 0 3) ≤ (s.at t).clasp →
    ∃ s', exec (.comparatorResolve t n c low v) s = .next s' ∧ unres s' n c low = false ∧ cmpOut s' n c low = v ∧
      unres s' n c (!low) = unres s n c (!low) ∧ cmpOut s' n c (!low) = cmpOut s n c (!low) ∧
      Frame [.clasp, .chans, .trigs] [.CH_CMP_STAT] (atChannel n c) s s') ∧
  (∀ (t : Nat) (n : Cluster) (c : Channel) (low v : Bool) (ball : Nat) (s : State),
    cmpOn s n c low = true →
    unres s n c low = false →
    cmpOut s n c low ≠ v →
    ball / 512 ≤ (s.at t).clasp →
    ∃ s', exec (.comparatorEdge t n c low v ball) s = .next s' ∧ cmpOut s' n c low = v ∧
      (muted s n c = true → Frame [.clasp] [.CH_CMP_STAT] (atChannel n c) s s') ∧
      (muted s n c = false → deliv s' n c low = v ∧ s'.rb .CH_EVT (chIx n c) (if low then 1 else 0) = true ∧
        (s'.trig n).evts = (s.trig n).evts ++
          [.edge c.val low v ((ball - (s.reg .FIX_TAB (chIx n c)).toNat % 16384) / 512)] ∧
        (s.rb .CH_WAKE (chIx n c) 0 = true → s.rb .CH_WAKE (chIx n c) 1 = low → s.rb .CH_WAKE (chIx n c) 2 = v →
          s'.rb .CH_EVT (chIx n c) 2 = true)) ∧
      Frame [.clasp, .chans, .stamps, .trigs, .wakes, .free]
        (.CH_CMP_STAT :: .CH_EVT :: .CH_TS_DEAD_RISE :: .CH_TS_DEAD_FALL :: .CL_TS_LOST :: gateRegs) (atChannel n c) s s')

/-- At the end of a blanking window each comparator's delivered state becomes its current output, which the trigger
units see as a level and nobody as an edge, and BLANK_CHG_H or BLANK_CHG_L is set where the state changed (R66). -/
def Obligations.BlankEndDeliversWithoutEdge : Prop :=
  ∀ (t : Nat) (n : Cluster) (c : Channel) (e : Nat) (s : State),
    (s.chan n c).blankEnd = some e →
    e ≤ (s.at t).clasp →
    ∃ s', exec (.blankWindowEnd t n c) s = .next s' ∧ (s'.chan n c).blankEnd = none ∧
      s'.rb .CH_CMP_STAT (chIx n c) 4 = false ∧
      deliv s' n c false = cmpOut s n c false ∧ deliv s' n c true = cmpOut s n c true ∧
      s'.rb .CH_CMP_STAT (chIx n c) 5 = (s.rb .CH_CMP_STAT (chIx n c) 5 || (deliv s n c false != cmpOut s n c false)) ∧
      s'.rb .CH_CMP_STAT (chIx n c) 6 = (s.rb .CH_CMP_STAT (chIx n c) 6 || (deliv s n c true != cmpOut s n c true)) ∧
      (s'.trig n).units = (s.trig n).units ∧ (s'.trig n).queue = (s.trig n).queue ∧
      (∀ x ∈ (s'.trig n).evts, x ∈ (s.trig n).evts ∨ x = .level c.val false (cmpOut s n c false) (s.at t).clasp ∨
        x = .level c.val true (cmpOut s n c true) (s.at t).clasp) ∧
      Frame [.clasp, .chans, .trigs] [.CH_CMP_STAT] (atChannel n c) s s'

/-- Blanking: EN written 1 starts the cluster's timer with T0 the time of the write; at T0 + k × PERIOD it opens a
window of LEN ticks on every channel that selects it (R64, R67). Self-checks (R68 to R71): START with a comparator on
checks and clears the results, or with the sequencer not idle gives REFUSED; a check that ends gives each enabled
comparator its result and leaves it UNRESOLVED, FAIL sets SELFCHK_FAIL. -/
def Obligations.BlankingAndSelfChecks : Prop :=
  (∀ (t : Nat) (r : Req) (n : Cluster) (d : Word) (s : State),
    Accepted r .CL_BLANK_TMR n.val (d ||| 0x1000000#32) (s.at t) →
    ∃ s', exec (.blankTimerStart t r n d) s = .next s' ∧ s'.rb .CL_BLANK_TMR n.val 24 = true ∧
      s'.rf .CL_BLANK_TMR n.val 0 24 = fld d 0 24 ∧ tabGet (0, 0) s'.blankAt n.val = ((s.at t).clasp, (s.at t).clasp) ∧
      Frame [.clasp, .blankAt] [.CL_BLANK_TMR, .PWR_CLU_GATE] (atCluster n) s s') ∧
  (∀ (t : Nat) (n : Cluster) (c : Channel) (s : State),
    let per := s.rf .CL_BLANK_TMR n.val 0 24
    let b := tabGet (0, 0) s.blankAt n.val
    s.rb .CL_BLANK_TMR n.val 24 = true →
    per ≠ 0 →
    b.1 + ((b.2 - b.1) / per + 1) * per ≤ (s.at t).clasp →
    ∃ s', exec (.blankTimerExpire t n) s = .next s' ∧
      tabGet (0, 0) s'.blankAt n.val = (b.1, b.1 + ((b.2 - b.1) / per + 1) * per) ∧
      (blankSrc s n c = 5 → s.rf .CH_BLANK (chIx n c) 0 16 ≠ 0 → s'.rb .CH_CMP_STAT (chIx n c) 4 = true ∧
        (s'.chan n c).blankEnd = some ((s.at t).clasp + s.rf .CH_BLANK (chIx n c) 0 16)) ∧
      (blankSrc s n c ≠ 5 ∨ s.rf .CH_BLANK (chIx n c) 0 16 = 0 →
        s'.chan n c = s.chan n c ∧ s'.reg .CH_CMP_STAT (chIx n c) = s.reg .CH_CMP_STAT (chIx n c)) ∧
      Frame [.clasp, .chans, .blankAt] [.CH_CMP_STAT] (atCluster n) s s') ∧
  (∀ (t : Nat) (r : Req) (n : Cluster) (c : Channel) (d : Word) (s : State),
    Accepted r .CH_SELFCHK (chIx n c) (d ||| 1#32) (s.at t) →
    s.rb .CH_SELFCHK (chIx n c) 2 = false →
    (cmpOn s n c false = true ∨ cmpOn s n c true = true) →
    ∃ s', exec (.selfchkStart t r n c d) s = .next s' ∧ s'.rb .CH_SELFCHK (chIx n c) 2 = seqIdle s n ∧
      s'.rf .CH_SELFCHK (chIx n c) 4 2 = (if seqIdle s n then 0 else 3 * b2n (cmpOn s n c false)) ∧
      s'.rf .CH_SELFCHK (chIx n c) 6 2 = (if seqIdle s n then 0 else 3 * b2n (cmpOn s n c true)) ∧
      Frame [.clasp, .chans] [.CH_SELFCHK, .PWR_CLU_GATE] (atCluster n) s s') ∧
  (∀ (t : Nat) (n : Cluster) (c : Channel) (h l : CheckObs) (k : SelfChk) (s : State),
    (s.chan n c).selfchk = some k →
    k.waits = false →
    k.since + 4 * allowance (s.rf .CH_CMP (chIx n c) 0 3) + 1600 ≤ (s.at t).clasp →
    isLevels h = k.known →
    isLevels l = k.known →
    ∃ s', exec (.selfchkDone t n c h l) s = .next s' ∧ s'.rb .CH_SELFCHK (chIx n c) 2 = false ∧
      (cmpOn s n c false = true → checkCode h (s'.rf .CH_SELFCHK (chIx n c) 4 2) ∧ unres s' n c false = true ∧
        cmpOut s' n c false = false ∧ (s'.rf .CH_SELFCHK (chIx n c) 4 2 = 2 → s'.rb .CH_EVT (chIx n c) 4 = true)) ∧
      (cmpOn s n c true = true → checkCode l (s'.rf .CH_SELFCHK (chIx n c) 6 2) ∧ unres s' n c true = true ∧
        cmpOut s' n c true = false ∧ (s'.rf .CH_SELFCHK (chIx n c) 6 2 = 2 → s'.rb .CH_EVT (chIx n c) 4 = true)) ∧
      Frame [.clasp, .chans, .trigs, .free] [.CH_CMP_STAT, .CH_SELFCHK, .CH_EVT] (atCluster n) s s')

/-! ### The parametric unit (R78 to R112) -/

namespace Sys2Proof.Machine

/-- The last sample of the channel's converter, as CH_PM_SAMPLE shows it (R93). -/
def sampleVal (s : State) (n : Cluster) (c : Channel) : Int := signed 18 (s.rf .CH_PM_SAMPLE (chIx n c) 0 18)

end Sys2Proof.Machine

namespace Sys2Proof.Machine

/-- What the result of a finished measurement m leaves in the channel's registers (R92, R95, R96, R98). -/
def ResultWritten (n : Cluster) (c : Channel) (m : Meas) (aborted : Bool) (s s' : State) : Prop :=
  s'.rb .CH_PM_RES (chIx n c) 31 = decide (m.got ≠ 0) ∧
  s'.rb .CH_PM_RES (chIx n c) 30 = aborted ∧
  s'.rb .CH_PM_RES (chIx n c) 29 = (decide (m.got ≠ 0) && m.ovr) ∧
  s'.rb .CH_PM_RES (chIx n c) 28 = (decide (m.got ≠ 0) && m.settling) ∧
  s'.rb .CH_PM_RES (chIx n c) 27 = (decide (m.got ≠ 0) && m.clamped) ∧
  s'.rb .CH_PM_RES (chIx n c) 26 = s.rb .CH_PM_STAT (chIx n c) 7 ∧
  (m.got ≠ 0 → s'.rf .CH_PM_RES (chIx n c) 0 24 = unsigned 24 (roundEven (64 * m.sum) m.got)) ∧
  s'.pair .CH_PM_RES_TLO .CH_PM_RES_THI (chIx n c) = m.aper % 2 ^ 64 ∧
  s'.rb .CH_PM_STAT (chIx n c) 7 = true ∧
  s'.rb .CH_EVT (chIx n c) 16 = true

end Sys2Proof.Machine

/-- A measurement starts on START with a measure mode selected, none in progress and nothing that holds starts: its
delay begins at the first MEAS edge after the write (R92, R94). CONT is stored (R97). A conversion on the grid gives
a sample: the nearest code, limited, wherever the manual defines it (R543); it goes to CH_PM_SAMPLE and the trigger
units (R93) and is discarded, added to the aperture, or completes it (R92, R97). The result of a measurement, its
flags and its time are written together, at the end of its aperture or early, and MEAS_DONE is set; the result of an
MST goes on towards its window. A read of CH_PM_RES gives it, clears RES_NEW and latches its time (R92, R95, R96,
R98, R99, R110). -/
def Obligations.MeasurementsStartConvertAndEnd : Prop :=
  (∀ (t : Nat) (r : Req) (n : Cluster) (c : Channel) (d : Word) (s : State),
    Accepted r .CH_PM_CTRL (chIx n c) (d ||| 0x800#32) (s.at t) →
    (fld d 4 2 = 1 ∨ fld d 4 2 = 2) →
    measBusy s n c = false →
    govLevel s n < 3 →
    calIntrOn s n = false →
    asyBusy s n = false →
    ∃ s', exec (.pmStart t r n c d) s = .next s' ∧ (∃ m, (s'.chan n c).meas = some m ∧
      m.t0 = nextMeas (s.at t).clasp ∧ m.delay = s.rf .CH_PM_APER (chIx n c) 18 10 ∧
      m.need = max 1 (s.rf .CH_PM_APER (chIx n c) 0 18) ∧ m.aper = m.t0 + m.delay * 32000 ∧ m.tok = none ∧ (s'.chan n c).grid = m.t0) ∧
      measBusy s' n c = true ∧
      Frame [.clasp, .chans, .cal]
        [.CH_PM_CTRL, .CH_PM_FI, .CH_PM_ICLH, .CH_PM_ICLL, .CH_PM_STAT, .CH_PM_SAMPLE, .CH_EVT, .CL_CAL_STAT, .CL_CAL_EVT,
          .PWR_CLU_GATE] (atCluster n) s s') ∧
  (∀ (t : Nat) (r : Req) (n : Cluster) (c : Channel) (d : Word) (s : State),
    Accepted r .CH_PM_CTRL (chIx n c) (d ||| 0x1000#32) (s.at t) →
    ∃ s', exec (.pmCont t r n c d) s = .next s' ∧ s'.rb .CH_PM_CTRL (chIx n c) 12 = true ∧
      Frame [.clasp, .chans, .cal]
        [.CH_PM_CTRL, .CH_PM_FI, .CH_PM_ICLH, .CH_PM_ICLL, .CH_PM_STAT, .CH_PM_SAMPLE, .CH_EVT, .CL_CAL_STAT, .CL_CAL_EVT,
          .PWR_CLU_GATE] (atCluster n) s s') ∧
  (∀ (t : Nat) (n : Cluster) (c : Channel) (mean : Int) (s : State),
    let u := s.at t
    let x := s.chan n c
    pwrState s ≠ 3 →
    mmodeOf s n c ≠ 0 →
    x.grid < u.clasp →
    (u.clasp - x.grid) % 32000 = 0 →
    x.convAt ≠ u.clasp →
    ∃ s', exec (.pmConversionDone t n c mean) s = .next s' ∧ s'.rb .CH_PM_SAMPLE (chIx n c) 31 = true ∧
      ((Config.convBand : Int) < (meanMilli s n c mean + 500) % 1000 →
        (meanMilli s n c mean + 500) % 1000 < 1000 - (Config.convBand : Int) →
        sampleVal s' n c = clampInt (-131072) 131071 ((meanMilli s n c mean + 500) / 1000)) ∧
      (s'.trig n).evts = (s.trig n).evts ++ [.sample c.val (sampleVal s' n c) u.clasp] ∧
      (∀ m, x.meas = some m → 0 < m.delay →
        (s'.chan n c).meas = some { m with delay := m.delay - 1 } ∧ (s'.chan n c).done = x.done) ∧
      (∀ m, x.meas = some m → m.delay = 0 → m.got + 1 < m.need →
        ∃ m', (s'.chan n c).meas = some m' ∧ m'.got = m.got + 1 ∧ m'.sum = m.sum + sampleVal s' n c ∧ m'.need = m.need ∧ m'.aper = m.aper ∧
          m'.ovr = (m.ovr || decide (sampleVal s' n c = -131072 ∨ sampleVal s' n c = 131071)) ∧ (s'.chan n c).done = x.done) ∧
      (∀ m, x.meas = some m → m.delay = 0 → m.need ≤ m.got + 1 →
        (∃ y, (s'.chan n c).done.getLast? = some y ∧ (s'.chan n c).done = x.done ++ [y] ∧ y.2 = false ∧ y.1.got = m.got + 1 ∧
          y.1.sum = m.sum + sampleVal s' n c ∧ y.1.aper = m.aper ∧ y.1.tok = m.tok) ∧
        (s'.chan n c).meas.isSome = s.rb .CH_PM_CTRL (chIx n c) 12 ∧
        ∀ m', (s'.chan n c).meas = some m' → m'.t0 = u.clasp ∧ m'.delay = 0 ∧ m'.tok = none) ∧
      Frame [.clasp, .chans, .trigs, .cpts, .free] [.CH_PM_SAMPLE, .CL_CAP_STAT, .CL_CAP_ICNT, .CL_CAP_EVT] (atChannel n c) s s') ∧
  (∀ (t : Nat) (n : Cluster) (c : Channel) (m : Meas) (rest : List (Meas × Bool)) (s : State),
    (s.chan n c).done = (m, false) :: rest →
    ∃ s', exec (.pmMeasDone t n c) s = .next s' ∧ ResultWritten n c m false s s' ∧ (s'.chan n c).done = rest ∧
      ((s'.seq n).results.length = (s.seq n).results.length + if m.tok.isSome then 1 else 0) ∧
      Frame [.clasp, .chans, .seqs] [.CH_EVT, .CH_PM_STAT, .CH_PM_RES, .CH_PM_RES_TLO, .CH_PM_RES_THI] (atChannel n c) s s') ∧
  (∀ (t : Nat) (n : Cluster) (c : Channel) (m : Meas) (rest : List (Meas × Bool)) (s : State),
    (s.chan n c).done = (m, true) :: rest →
    ∃ s', exec (.pmMeasEndEarly t n c) s = .next s' ∧ ResultWritten n c m true s s' ∧ (s'.chan n c).done = rest ∧
      ((s'.seq n).results.length = (s.seq n).results.length + if m.tok.isSome then 1 else 0) ∧
      Frame [.clasp, .chans, .seqs] [.CH_EVT, .CH_PM_STAT, .CH_PM_RES, .CH_PM_RES_TLO, .CH_PM_RES_THI] (atChannel n c) s s') ∧
  (∀ (t : Nat) (q : Req) (n : Cluster) (c : Channel) (s : State),
    served s q = true →
    pwrState s = 2 →
    ∃ s', exec (.pmResRead t q n c) s = .next s' ∧
      s'.out = .regRead q.val (Reg.addr .CH_PM_RES (chIx n c)) (s.reg .CH_PM_RES (chIx n c)) :: s.out ∧
      s'.reg .CH_PM_STAT (chIx n c) = putBit (s.reg .CH_PM_STAT (chIx n c)) 7 false ∧
      (s'.chan n c).pmLatch = some (s.reg .CH_PM_RES_TLO (chIx n c), s.reg .CH_PM_RES_THI (chIx n c)) ∧
      Frame [.clasp, .chans, .out] [.CH_PM_STAT] (atChannel n c) s s')

/-- Enabling the force loop on a channel that nothing holds safe: EN reads 1, the loop acts once the switch is closed
(R83), and neither claim of the cluster has risen above its budget (R105). Disabling it takes EN and the loop off,
and ends a measurement in progress. A range change keeps absolute values: FI and the current clamps are rescaled,
ties away from zero, then limited; RANGE_SETTLING reads 1; a measurement in progress ends (R86, R87, R96). Settling
ends no sooner than 160,000 ticks later. Force codes and clamps hold what is written, current clamps at most 500,000;
a force code outside its range sets RANGE_LIM (R81, R82, R89, R90); FMODE and REF are stored; no such write raises a
claim above the budget (R105). Clamping of a force loop that is on begins: the status bit and the cause are set (R89,
R90). -/
def Obligations.ParametricSettingsWithinBudget : Prop :=
  (∀ (t : Nat) (r : Req) (n : Cluster) (c : Channel) (d : Word) (s : State),
    Accepted r .CH_PM_CTRL (chIx n c) d (s.at t) →
    bitOf d 0 = true →
    heldSafe (s.at t) n c = false →
    ∃ s', exec (.pmForceEnable t r n c d) s = .next s' ∧ pmEn s' n c = true ∧ loopOn s' n c = swClosed s n c ∧
      (cluIClaim s n < cluIClaim s' n → cluIClaim s' n ≤ (s.reg .CL_PM_IBUD n.val).toNat) ∧
      (cluPClaim s n < cluPClaim s' n → cluPClaim s' n ≤ (s.reg .CL_PM_PBUD n.val).toNat) ∧
      Frame [.clasp, .chans, .cal]
        [.CH_PM_CTRL, .CH_PM_FI, .CH_PM_ICLH, .CH_PM_ICLL, .CH_PM_STAT, .CH_PM_SAMPLE, .CH_EVT, .CL_CAL_STAT, .CL_CAL_EVT,
          .PWR_CLU_GATE] (atCluster n) s s') ∧
  (∀ (t : Nat) (r : Req) (n : Cluster) (c : Channel) (d : Word) (s : State),
    Accepted r .CH_PM_CTRL (chIx n c) d (s.at t) →
    bitOf d 0 = false →
    bitOf d 11 = false →
    ∃ s', exec (.pmForceEnable t r n c d) s = .next s' ∧ pmEn s' n c = false ∧ loopOn s' n c = false ∧
      (pmEn s n c = true → (s'.chan n c).meas = none) ∧
      Frame [.clasp, .chans, .cal]
        [.CH_PM_CTRL, .CH_PM_FI, .CH_PM_ICLH, .CH_PM_ICLL, .CH_PM_STAT, .CH_PM_SAMPLE, .CH_EVT, .CL_CAL_STAT, .CL_CAL_EVT,
          .PWR_CLU_GATE] (atCluster n) s s') ∧
  (∀ (t : Nat) (r : Req) (n : Cluster) (c : Channel) (d : Word) (s : State),
    Accepted r .CH_PM_CTRL (chIx n c) d (s.at t) →
    fld d 6 3 < 5 →
    fld d 6 3 ≠ rangeOf s n c →
    bitOf d 11 = false →
    let old := stepPa (rangeOf s n c)
    let new := stepPa (fld d 6 3)
    ∃ s', exec (.pmRangeChange t r n c d) s = .next s' ∧ rangeOf s' n c = fld d 6 3 ∧
      signed 20 (s'.rf .CH_PM_FI (chIx n c) 0 20) =
        clampInt (-500000) 500000 (roundAway (signed 20 (s.rf .CH_PM_FI (chIx n c) 0 20) * old) new) ∧
      (s'.rf .CH_PM_ICLH (chIx n c) 0 19 : Int) =
        clampInt 0 500000 (roundAway ((s.rf .CH_PM_ICLH (chIx n c) 0 19 : Nat) * old) new) ∧
      (s'.rf .CH_PM_ICLL (chIx n c) 0 19 : Int) =
        clampInt 0 500000 (roundAway ((s.rf .CH_PM_ICLL (chIx n c) 0 19 : Nat) * old) new) ∧
      s'.rb .CH_PM_STAT (chIx n c) 4 = true ∧ measBusy s' n c = false ∧
      Frame [.clasp, .chans, .cal]
        [.CH_PM_CTRL, .CH_PM_FI, .CH_PM_ICLH, .CH_PM_ICLL, .CH_PM_STAT, .CH_PM_SAMPLE, .CH_EVT, .CL_CAL_STAT, .CL_CAL_EVT,
          .PWR_CLU_GATE] (atCluster n) s s') ∧
  (∀ (t : Nat) (n : Cluster) (c : Channel) (s : State),
    s.rb .CH_PM_STAT (chIx n c) 4 = true →
    (s.chan n c).rangeAt + 160000 ≤ (s.at t).clasp →
    ∃ s', exec (.pmRangeSettled t n c) s = .next s' ∧
      s'.reg .CH_PM_STAT (chIx n c) = putBit (s.reg .CH_PM_STAT (chIx n c)) 4 false ∧
      Frame [.clasp, .chans] [.CH_PM_STAT] (atChannel n c) s s') ∧
  (∀ (t : Nat) (r : Req) (n : Cluster) (c : Channel) (w : PmSetting) (d : Word) (s : State),
    Accepted r (pmSettingReg w) (chIx n c) d (s.at t) →
    ∃ s', exec (.pmSettingWrite t r n c w d) s = .next s' ∧
      (match w with
        | .ctrl => s'.rb .CH_PM_CTRL (chIx n c) 3 = bitOf d 3 ∧ s'.rf .CH_PM_CTRL (chIx n c) 9 2 = fld d 9 2
        | .fv => s'.rf .CH_PM_FV (chIx n c) 0 20 = fld d 0 20 ∧
            (fld d 0 20 < 40000 ∨ 840000 < fld d 0 20 → s'.rb .CH_EVT (chIx n c) 22 = true)
        | .fi => s'.rf .CH_PM_FI (chIx n c) 0 20 = fld d 0 20 ∧
            (signed 20 (fld d 0 20) < -500000 ∨ 500000 < signed 20 (fld d 0 20) → s'.rb .CH_EVT (chIx n c) 22 = true)
        | .iclh => s'.rf .CH_PM_ICLH (chIx n c) 0 19 = min 500000 (fld d 0 19)
        | .icll => s'.rf .CH_PM_ICLL (chIx n c) 0 19 = min 500000 (fld d 0 19)
        | .vclh => s'.rf .CH_PM_VCLH (chIx n c) 0 20 = fld d 0 20
        | .vcll => s'.rf .CH_PM_VCLL (chIx n c) 0 20 = fld d 0 20) ∧
      overBudget s s' n = false ∧ (w ≠ .ctrl → s'.chans = s.chans ∧ s'.cal = s.cal) ∧
      Frame [.clasp, .chans, .cal]
        (if w = .ctrl then
          [.CH_PM_CTRL, .CH_PM_FI, .CH_PM_ICLH, .CH_PM_ICLL, .CH_PM_STAT, .CH_PM_SAMPLE, .CH_EVT, .CL_CAL_STAT, .CL_CAL_EVT,
            .PWR_CLU_GATE]
        else [pmSettingReg w, .CH_EVT, .PWR_CLU_GATE]) (atCluster n) s s') ∧
  (∀ (t : Nat) (n : Cluster) (c : Channel) (volt : Bool) (s : State),
    loopOn s n c = true →
    fmodeFi s n c = volt →
    ∃ s', exec (.pmClampBegin t n c volt) s = .next s' ∧
      s'.reg .CH_PM_STAT (chIx n c) = putBit (s.reg .CH_PM_STAT (chIx n c)) (if volt then 3 else 2) true ∧
      s'.reg .CH_EVT (chIx n c) = putBit (s.reg .CH_EVT (chIx n c)) (if volt then 18 else 17) true ∧
      Frame [.clasp, .chans] [.CH_EVT, .CH_PM_STAT] (atChannel n c) s s')

/-! ### Timing and bands (R113 to R141) -/

/-- The earliest pending edge of a channel, once its ball time is reached, is taken off and acts: a data level is set
(and the driver turned on where the pattern path may drive), the driver is turned on or off, or the comparators are
sampled for the vector's half; an edge that the channel's blanking source names opens a window of CH_BLANK.LEN ticks
(R64, R121, R123). -/
def Obligations.TimingEdgeActs : Prop :=
  ∀ (t : Nat) (n : Cluster) (c : Channel) (e : Fin 6) (p : PEdge) (s : State),
    edgeDue (s.at t) n c.val e.val = some p →
    ∃ s', exec (.timingEdge t n c e) s = .next s' ∧ (s'.seq n).edges = (s.seq n).edges.erase p ∧
      (s'.chan n c).lvl = (match p.act with | .level code _ => codeLevel code (s.chan n c).lvl | _ => (s.chan n c).lvl) ∧
      (s'.chan n c).drvOn = (match p.act with
        | .level _ on => (s.chan n c).drvOn || (on && patDrives s n c)
        | .on => (s.chan n c).drvOn || patDrives s n c
        | .off => false
        | _ => (s.chan n c).drvOn) ∧
      (s'.seq n).infl = (match p.act with
        | .sample half code => (s.seq n).infl.map fun v => if v.seqNo = p.seqNo then noteSample s n c half code v else v
        | _ => (s.seq n).infl) ∧
      (e.val < 4 → blankSrc s n c = e.val + 1 → s.rf .CH_BLANK (chIx n c) 0 16 ≠ 0 →
        s'.rb .CH_CMP_STAT (chIx n c) 4 = true ∧ (s'.chan n c).blankEnd = some ((s.at t).clasp + s.rf .CH_BLANK (chIx n c) 0 16)) ∧
      Frame [.clasp, .chans, .seqs] [.CH_CMP_STAT] (atChannel n c) s s'

/-- The timing DLL of a cluster that is not retired locks while ROOT is stable: LOCK reads 1. When it unlocks, LOCK
reads 0, UNLOCK is set, a pattern that runs ends with code DLL_UNLOCK (9), all 32 channels are forced safe and a
fault message is sent (R131, R132). -/
def Obligations.DllLocksAndUnlocks : Prop :=
  (∀ (t : Nat) (n : Cluster) (s : State),
    s.rb .CLK_STAT 0 2 = true →
    cluRetired s n = false →
    ∃ s', exec (.timingDllLock t n) s = .next s' ∧ s'.reg .CL_TIM_STAT n.val = putBit (s.reg .CL_TIM_STAT n.val) 0 true ∧
      Frame [.clasp] [.CL_TIM_STAT] (atCluster n) s s') ∧
  (∀ (t : Nat) (n : Cluster) (s : State),
    s.rb .CL_TIM_STAT n.val 0 = true →
    ∃ s', exec (.timingDllUnlock t n) s = .next s' ∧ s'.reg .CL_TIM_STAT n.val = putBit (s.reg .CL_TIM_STAT n.val) 0 false ∧
      s'.rb .CL_TIM_EVT n.val 6 = true ∧ (∀ c, SafeForced n c s s') ∧
      (s'.seq n).ending = (if seqIdle s n ∨ (s.seq n).ending.isSome then (s.seq n).ending else some (9, 0)) ∧
      s'.msgs = s.msgs ++ (if cluRetired s n then [] else [⟨44 * n.val + 33, 5, 1, n.val⟩]) ∧
      Frame [.clasp, .chans, .seqs, .msgs, .free] (.CL_TIM_STAT :: .CL_TIM_EVT :: safeRegs) (atCluster n) s s')

/-- An evaluation takes the band that the cluster's sensor indicates, with hysteresis of 1 degree either way, or on
the first evaluation after a reset takes the indicated band at once; PENDING shows it and PEND tells whether it
differs from the band that is to be active; PEND for 50 ms sets STALE; at an idle MGMT cycle the next band becomes
active, is counted, and an uncalibrated one makes the cluster due for calibration (R133 to R138, R544). -/
def Obligations.BandsFollowTheSensor : Prop :=
  (∀ (t : Nat) (n : Cluster) (b : Nat) (x : Int) (s : State),
    (bandRec s n).1 = some b →
    sensorTemp s n.val = some x →
    bandFrom b x < 8 →
    ∃ s', exec (.bandEvaluate t n) s = .next s' ∧ (bandRec s' n).1 = some (bandFrom b x) ∧
      s'.rf .CL_TIM_STAT n.val 4 3 = bandFrom b x ∧
      s'.rb .CL_TIM_STAT n.val 7 = decide (bandFrom b x ≠ (forcedBand s n).getD (activeBand s n)) ∧
      activeBand s' n = activeBand s n ∧ Frame [.clasp, .bands] [.CL_TIM_STAT] (atCluster n) s s') ∧
  (∀ (t : Nat) (n : Cluster) (s : State),
    (bandRec s n).1 = none →
    (s.rb .THS_TEMP n.val 16 || s.rb .THS_TEMP n.val 20) = true →
    ∃ s', exec (.bandEvaluate t n) s = .next s' ∧ activeBand s' n = bandAtOnce s n ∧
      s'.rf .CL_TIM_STAT n.val 4 3 = bandAtOnce s n ∧
      s'.rb .CL_TIM_STAT n.val 8 = false ∧ Frame [.clasp, .bands] [.CL_TIM_STAT] (atCluster n) s s') ∧
  (∀ (t : Nat) (n : Cluster) (s : State),
    s.rb .CL_TIM_STAT n.val 7 = true →
    s.rb .CL_TIM_STAT n.val 8 = false →
    50 ≤ pendAge (s.at t) n →
    ∃ s', exec (.bandStale t n) s = .next s' ∧ s'.reg .CL_TIM_STAT n.val = putBit (s.reg .CL_TIM_STAT n.val) 8 true ∧
      s'.reg .CL_TIM_EVT n.val = putBit (s.reg .CL_TIM_EVT n.val) 5 true ∧
      Frame [.clasp, .chans] [.CL_TIM_STAT, .CL_TIM_EVT] (atCluster n) s s') ∧
  (∀ (t : Nat) (n : Cluster) (s : State),
    idleNow (s.at t) n = true →
    bandNext s n ≠ activeBand s n →
    bandNext s n < 5 →
    ∃ s', exec (.bandSwitch t n) s = .next s' ∧ activeBand s' n = bandNext s n ∧
      s'.reg .CL_TIM_BAND_CNT n.val = s.reg .CL_TIM_BAND_CNT n.val + 1 ∧ s'.rb .CL_TIM_EVT n.val 4 = true ∧
      s'.rb .CL_TIM_STAT n.val 8 = false ∧
      (s.rb .CL_CAL_STAT n.val (6 + bandNext s n) = false → s'.rb .CL_CAL_STAT n.val 0 = true) ∧
      Frame [.clasp, .chans, .bands, .cal] [.CL_CAL_STAT, .CL_TIM_STAT, .CL_TIM_EVT, .CL_TIM_BAND_CNT] (atCluster n) s s')

/-! ### Microwords (R142 to R157, R174, R175, R198, R201) -/

namespace Sys2Proof.Machine

/-- The front end of cluster n stands at the legal microword m, and the queue to the issue stage has room (R157, R170). -/
def Stands (n : Cluster) (m : Micro) (s : State) : Prop :=
  feWord s n = some m ∧ microLegal s (s.seq n).fe (s.seq n).fe.pc m = true ∧ queueRoom (s.seq n) = true

/-- What going on at p adds to the queue: a stall point where a streamed pattern first fetches from the other half (R190). -/
def crossing (s : State) (n : Cluster) (p : PAddr) : List QEntry :=
  if p.lib = false ∧ p.a / 32768 ≠ s.rf .CL_STORE_STAT n.val 0 1 ∧ streaming s n = true then [.stallPoint p] else []

/-- The front end goes on at p with the record fe, and es enters the queue: nothing else of the sequencer changes, and
beside it only the active half and, at a crossing, the Hopper. -/
def GoesOn (n : Cluster) (p : PAddr) (es : List QEntry) (fe : FE) (s s' : State) : Prop :=
  s'.seq n = { s.seq n with q := (s.seq n).q ++ es ++ crossing s n p, fe := { fe with pc := p } } ∧
  (crossing s n p = [] → s'.hops = s.hops) ∧
  Frame [.clasp, .seqs, .hops] [.CL_STORE_STAT] (atCluster n) s s'

/-- The front end's record once it leaves a word: no CALL leads to the next (R149). -/
def feLeft (s : State) (n : Cluster) : FE := { (s.seq n).fe with called := false }

/-- The address after the front end's. -/
def feNext (s : State) (n : Cluster) : PAddr := (s.seq n).fe.pc.next

end Sys2Proof.Machine

/-- VEC enters REP + 1 vectors of its nano-word and timing set, or as many as a pending RPT says; MVEC enters REP + 1
match vectors; HSET declares the hold vector. Each goes on at the next word (R148, R151, R154). -/
def Obligations.VectorWordsQueued : Prop :=
  (∀ (t : Nat) (n : Cluster) (nano : BitVec 12) (ts : BitVec 6) (rep : BitVec 8) (s : State),
    Stands n (.vec nano ts rep) s →
    ∃ s', exec (.vec t n) s = .next s' ∧
      GoesOn n (feNext s n) [.vec (s.seq n).fe.pc nano.toNat ts.toNat
        (match (s.seq n).fe.rpt with | some k => max 1 k | none => rep.toNat + 1) false (s.seq n).fe.cond (s.seq n).ep]
        { feLeft s n with rpt := none } s s') ∧
  (∀ (t : Nat) (n : Cluster) (nano : BitVec 12) (ts : BitVec 6) (rep : BitVec 8) (s : State),
    Stands n (.mvec nano ts rep) s →
    ∃ s', exec (.mvec t n) s = .next s' ∧
      GoesOn n (feNext s n) [.vec (s.seq n).fe.pc nano.toNat ts.toNat (rep.toNat + 1) true (s.seq n).fe.cond (s.seq n).ep]
        (feLeft s n) s s') ∧
  (∀ (t : Nat) (n : Cluster) (nano : BitVec 12) (ts : BitVec 6) (rep : BitVec 8) (s : State),
    let h := HoldVec.mk (some ((s.seq n).fe.pc.lib, nano.toNat)) ts.toNat
    Stands n (.hset nano ts rep) s →
    ∃ s', exec (.hset t n) s = .next s' ∧ GoesOn n (feNext s n) [.hset h] { feLeft s n with hold := h } s s')

/-- JMP goes on at its target; CALL pushes the next address, and its target counts as called; RET pops the stack, and
at the depth of a routine's entry call restores the caller's sets and hold vector and leaves the routine; LDC loads a
counter, 0 as 1; LOOP decrements a counter that is not 0 and continues at the target while it is not 0, being a stall
point of a streamed pattern in the user store. What a LOOP leaves in a counter that is 0 is open, and it goes on
accordingly (R148, R190). A conditional is decided once what it sees is complete: JM jumps if the match flag is 1,
JNM if it is 0, JF if the fail flag is 1, JNF if it is 0; else the next word follows (R174, R175). -/
def Obligations.BranchesAndConditionals : Prop :=
  (∀ (t : Nat) (n : Cluster) (l : BitVec 1) (a : BitVec 16) (s : State),
    Stands n (.jmp l a) s →
    ∃ s', exec (.jmp t n) s = .next s' ∧ GoesOn n (target l a) [] (feLeft s n) s s') ∧
  (∀ (t : Nat) (n : Cluster) (l : BitVec 1) (a : BitVec 16) (s : State),
    Stands n (.call l a) s →
    ∃ s', exec (.call t n) s = .next s' ∧
      s'.seq n = { s.seq n with
        q := (s.seq n).q ++ crossing s n (target l a),
        fe := { (s.seq n).fe with pc := target l a, stack := feNext s n :: (s.seq n).fe.stack, called := true } } ∧
      s'.rf .CL_SEQ_STAT n.val 5 5 = (s.seq n).fe.stack.length + 1 ∧
      Frame [.clasp, .seqs, .hops] [.CL_SEQ_STAT, .CL_STORE_STAT] (atCluster n) s s') ∧
  (∀ (t : Nat) (n : Cluster) (p : PAddr) (st : List PAddr) (s : State),
    Stands n .ret s →
    (s.seq n).unwind = false →
    (s.seq n).fe.stack = p :: st →
    (∀ x, (s.seq n).fe.rtn = some x → x.depth ≠ st.length + 1) →
    ∃ s', exec (.ret t n) s = .next s' ∧
      s'.seq n = { s.seq n with q := (s.seq n).q ++ crossing s n p, fe := { feLeft s n with pc := p, stack := st } } ∧
      s'.rf .CL_SEQ_STAT n.val 5 5 = st.length % 32 ∧
      Frame [.clasp, .seqs, .hops] [.CL_SEQ_STAT, .CL_STORE_STAT] (atCluster n) s s') ∧
  (∀ (t : Nat) (n : Cluster) (p : PAddr) (st : List PAddr) (x : RtnFE) (s : State),
    Stands n .ret s →
    (s.seq n).unwind = false →
    (s.seq n).fe.stack = p :: st →
    (s.seq n).fe.rtn = some x →
    x.depth = st.length + 1 →
    ∃ s', exec (.ret t n) s = .next s' ∧
      s'.seq n = { s.seq n with
        q := (s.seq n).q ++ [.rret x.hold] ++ crossing s n p,
        fe := { feLeft s n with pc := p, stack := st, sel := x.sel, cond := x.cond, hold := x.hold, rtn := none } } ∧
      s'.rf .CL_SEQ_STAT n.val 5 5 = st.length % 32 ∧
      Frame [.clasp, .seqs, .hops] [.CL_SEQ_STAT, .CL_STORE_STAT] (atCluster n) s s') ∧
  (∀ (t : Nat) (n : Cluster) (s : State),
    Stands n .ret s →
    (s.seq n).unwind = true →
    ∃ s', exec (.ret t n) s = .next s' ∧ s'.seq n = { s.seq n with q := (s.seq n).q ++ [.stop 0], feOn := false } ∧
      Frame [.clasp, .seqs] [] (atCluster n) s s') ∧
  (∀ (t : Nat) (n : Cluster) (k : BitVec 3) (v : BitVec 23) (s : State),
    Stands n (.ldc k v) s →
    ∃ s', exec (.ldc t n) s = .next s' ∧
      GoesOn n (feNext s n) [] { feLeft s n with ctrs := (s.seq n).fe.ctrs.set k.toNat (max 1 v.toNat) } s s') ∧
  (∀ (t : Nat) (n : Cluster) (k : BitVec 3) (l : BitVec 1) (a : BitVec 16) (s : State),
    let old := (s.seq n).fe.ctrs.getD k.toNat 0
    let v := if old = 0 then Config.loopZero k.toNat % 2 ^ 23 else old - 1
    let dst := if v ≠ 0 then target l a else feNext s n
    Stands n (.loop k l a) s →
    ∃ s', exec (.loop t n) s = .next s' ∧
      s'.seq n = { s.seq n with
        q := (s.seq n).q ++ crossing s n dst ++ (if streaming s n && !(s.seq n).fe.pc.lib then [.stallPoint dst] else []),
        fe := { feLeft s n with pc := dst, ctrs := (s.seq n).fe.ctrs.set k.toNat v } } ∧
      Frame [.clasp, .seqs, .hops] [.CL_STORE_STAT] (atCluster n) s s') ∧
  (∀ (t : Nat) (n : Cluster) (l : BitVec 1) (a : BitVec 16) (s : State),
    Stands n (.jm l a) s →
    condDue (s.at t) n = true →
    ∃ s', exec (.jm t n) s = .next s' ∧ GoesOn n (if (s.seq n).fMatch then target l a else feNext s n) [] (feLeft s n) s s') ∧
  (∀ (t : Nat) (n : Cluster) (l : BitVec 1) (a : BitVec 16) (s : State),
    Stands n (.jnm l a) s →
    condDue (s.at t) n = true →
    ∃ s', exec (.jnm t n) s = .next s' ∧ GoesOn n (if (s.seq n).fMatch then feNext s n else target l a) [] (feLeft s n) s s') ∧
  (∀ (t : Nat) (n : Cluster) (l : BitVec 1) (a : BitVec 16) (s : State),
    Stands n (.jf l a) s →
    condDue (s.at t) n = true →
    ∃ s', exec (.jf t n) s = .next s' ∧ GoesOn n (if (s.seq n).fFail then target l a else feNext s n) [] (feLeft s n) s s') ∧
  (∀ (t : Nat) (n : Cluster) (l : BitVec 1) (a : BitVec 16) (s : State),
    Stands n (.jnf l a) s →
    condDue (s.at t) n = true →
    ∃ s', exec (.jnf t n) s = .next s' ∧ GoesOn n (if (s.seq n).fFail then feNext s n else target l a) [] (feLeft s n) s s')

/-- CLRF clears the fail flag; CSEL and SEL take the channel set that their nano-word names, where its parity is
good; RPT repeats the next VEC; WTRIG, WCT, HOLD, MST and MWAIT enter the queue with their operands, WCT with the
64-bit value of its pair of slots (R148, R150 to R153, R155, R177). -/
def Obligations.SetAndWaitWords : Prop :=
  (∀ (t : Nat) (n : Cluster) (s : State),
    Stands n .clrf s →
    ∃ s', exec (.clrf t n) s = .next s' ∧
      s'.seq n = { s.seq n with
        q := (s.seq n).q ++ crossing s n (feNext s n), ep := (s.seq n).ep + 1, fFail := false,
        fe := { feLeft s n with pc := feNext s n } } ∧
      Frame [.clasp, .seqs, .hops] [.CL_STORE_STAT] (atCluster n) s s') ∧
  (∀ (t : Nat) (n : Cluster) (i : BitVec 12) (s : State),
    Stands n (.csel i) s →
    (readNano s n (s.seq n).fe.pc.lib i.toNat).2 = false →
    ∃ s', exec (.csel t n) s = .next s' ∧
      GoesOn n (feNext s n) [] { feLeft s n with cond := laneSet (readNano s n (s.seq n).fe.pc.lib i.toNat).1 } s s') ∧
  (∀ (t : Nat) (n : Cluster) (i : BitVec 12) (s : State),
    Stands n (.sel i) s →
    (readNano s n (s.seq n).fe.pc.lib i.toNat).2 = false →
    ∃ s', exec (.sel t n) s = .next s' ∧
      GoesOn n (feNext s n) [] { feLeft s n with sel := laneSet (readNano s n (s.seq n).fe.pc.lib i.toNat).1 } s s') ∧
  (∀ (t : Nat) (n : Cluster) (k : BitVec 26) (s : State),
    Stands n (.rpt k) s →
    ∃ s', exec (.rpt t n) s = .next s' ∧ GoesOn n (feNext s n) [] { feLeft s n with rpt := some k.toNat } s s') ∧
  (∀ (t : Nat) (n : Cluster) (k : BitVec 18) (u : BitVec 8) (s : State),
    Stands n (.wtrig k u) s →
    ∃ s', exec (.wtrig t n) s = .next s' ∧ GoesOn n (feNext s n) [.wtrig (s.seq n).fe.pc u.toNat k.toNat] (feLeft s n) s s') ∧
  (∀ (t : Nat) (n : Cluster) (i : BitVec 12) (p : BitVec 2) (b : BitVec 1) (s : State),
    let x := readNano s n (s.seq n).fe.pc.lib i.toNat
    Stands n (.wct i p b) s →
    x.2 = false →
    ∃ s', exec (.wct t n) s = .next s' ∧
      GoesOn n (feNext s n) [.wct (s.seq n).fe.pc
        ((slotOf x.1 (2 * p.toNat)).toNat + (slotOf x.1 (2 * p.toNat + 1)).toNat * 2 ^ 32) (decide (b = 1#1))] (feLeft s n) s s') ∧
  (∀ (t : Nat) (n : Cluster) (k : BitVec 26) (s : State),
    Stands n (.hold k) s →
    ∃ s', exec (.hold t n) s = .next s' ∧ GoesOn n (feNext s n) [.hold (s.seq n).fe.pc k.toNat] (feLeft s n) s s') ∧
  (∀ (t : Nat) (n : Cluster) (r : BitVec 16) (s : State),
    Stands n (.mst r) s →
    ∃ s', exec (.mst t n) s = .next s' ∧
      GoesOn n (feNext s n) [.mst (s.seq n).fe.pc r.toNat (s.seq n).fe.sel] (feLeft s n) s s') ∧
  (∀ (t : Nat) (n : Cluster) (s : State),
    Stands n .mwait s →
    ∃ s', exec (.mwait t n) s = .next s' ∧ GoesOn n (feNext s n) [.mwait (s.seq n).fe.pc] (feLeft s n) s s')

/-- RBEG, the first word a CALL reaches, begins a routine with no channels selected and all in the condition set;
RMARK and RUNW mark a step and name the unwind address; WRI and WRN queue a write of a value under a mask to the
selected channels; STOP ends the pattern with its code; at an illegal word the front end stops (R155, R157, R180,
R198, R201, R205). -/
def Obligations.RoutineWordsAndEnds : Prop :=
  (∀ (t : Nat) (n : Cluster) (i : BitVec 16) (s : State),
    let fe1 := { feLeft s n with
    sel := 0#32, cond := 0xFFFFFFFF#32, pc := feNext s n,
    rtn := some (RtnFE.mk i.toNat (s.seq n).fe.stack.length (s.seq n).fe.sel (s.seq n).fe.cond (s.seq n).fe.hold) }
    Stands n (.rbeg i) s →
    ∃ s', exec (.rbeg t n) s = .next s' ∧ GoesOn n (feNext s n) [.rbeg i.toNat fe1] fe1 s s') ∧
  (∀ (t : Nat) (n : Cluster) (i : BitVec 16) (s : State),
    Stands n (.rmark i) s →
    ∃ s', exec (.rmark t n) s = .next s' ∧
      GoesOn n (feNext s n) [.rmark i.toNat { feLeft s n with pc := feNext s n }] (feLeft s n) s s') ∧
  (∀ (t : Nat) (n : Cluster) (l : BitVec 1) (a : BitVec 16) (s : State),
    Stands n (.runw l a) s →
    ∃ s', exec (.runw t n) s = .next s' ∧ GoesOn n (feNext s n) [.runw (target l a)] (feLeft s n) s s') ∧
  (∀ (t : Nat) (n : Cluster) (w : BitVec 5) (v : BitVec 20) (s : State),
    Stands n (.wri w v) s →
    ∃ s', exec (.wri t n) s = .next s' ∧
      GoesOn n (feNext s n) [.wri w.toNat (v.setWidth 32) 0xFFFFFFFF#32 (s.seq n).fe.sel] (feLeft s n) s s') ∧
  (∀ (t : Nat) (n : Cluster) (w : BitVec 5) (i : BitVec 12) (k : BitVec 3) (s : State),
    let x := readNano s n (s.seq n).fe.pc.lib i.toNat
    Stands n (.wrn w i k) s →
    x.2 = false →
    ∃ s', exec (.wrn t n) s = .next s' ∧
      GoesOn n (feNext s n) [.wri w.toNat (slotOf x.1 k.toNat) (slotOf x.1 (k.toNat + 1)) (s.seq n).fe.sel] (feLeft s n) s s') ∧
  (∀ (t : Nat) (n : Cluster) (k : BitVec 8) (s : State),
    Stands n (.stop k) s →
    ∃ s', exec (.stop t n) s = .next s' ∧
      s'.seq n = { s.seq n with q := (s.seq n).q ++ [.stop k.toNat], fe := feLeft s n, feOn := false } ∧
      Frame [.clasp, .seqs] [] (atCluster n) s s') ∧
  (∀ (t : Nat) (n : Cluster) (s : State),
    feLive s n = true →
    feReady s n = true →
    (fetchWord s n (s.seq n).fe.pc).2 = false →
    (match decodeMicro (fetchWord s n (s.seq n).fe.pc).1 with | none => true | some m => !microLegal s (s.seq n).fe (s.seq n).fe.pc m) = true →
    ∃ s', exec (.illegalWord t n) s = .next s' ∧
      s'.seq n = { s.seq n with q := (s.seq n).q ++ [.illegal (s.seq n).fe.pc], feOn := false } ∧
      Frame [.clasp, .seqs] [] (atCluster n) s s')

/-- For every microword, with every operand at every value, the word its encoding spells decodes to it: no bit of
R146's layouts is dropped. -/
def Obligations.MicrowordsDecodeAsEncoded : Prop :=
  ∀ (m : Micro),
    decodeMicro (encodeMicro m) = some m

/-- Words written out from the layouts of R146 and the opcodes of R148 decode to the microwords they stand for;
reserved bits are ignored, and an opcode that R148 does not list decodes to none. -/
def Obligations.MicrowordsWrittenOut : Prop :=
  decodeMicro 0b00000100000000010100001100001001#32 = some (.vec 5 3 9) ∧
      decodeMicro 0b00100000000000001001110001000000#32 = some (.jmp 0 40000) ∧
      decodeMicro 0b00110001000000011010101111001101#32 = some (.loop 2 1 0xABCD) ∧
      decodeMicro 0b01100000000000000001110000000011#32 = some (.wtrig 28 3) ∧
      decodeMicro 0b10010001000100000000000000000111#32 = some (.wri 17 7) ∧
      decodeMicro 0b10010101000100000000010001011111#32 = some (.wrn 17 4 2) ∧
      decodeMicro 0b11111111111111111111111100000111#32 = some (.stop 7) ∧
      decodeMicro 0b00000000000000000000000000000000#32 = none

/-! ### Stores, sequencer and Hopper (R142, R163 to R195) -/

namespace Sys2Proof.Machine

/-- From s to s' Millpond holds bs from a on, and every other byte is as it was. -/
def Written (a : Nat) (bs : List Byte) (s s' : State) : Prop :=
  ∀ x, s'.byte x = if a ≤ x ∧ x < a + bs.length then bs.getD (x - a) 0#8 else s.byte x

/-- A register write of the whole word w of cluster n's stores by r is served, accepted and takes effect (R166, R367). -/
def StoreAccepted (r : Req) (n : Cluster) (w : StoreAddr) (d : Word) (s : State) : Prop :=
  served s r = true ∧ pwrState s = 2 ∧ stages r (storeAddr n w) s = false ∧
  refuseCode r (storeAddr n w) d 0xFFFFFFFF#32 s = 0 ∧ flowBits r (storeAddr n w) 0xFFFFFFFF#32 s = 0xFFFFFFFF#32 ∧
  s.rb .ID_CLU_RST 0 n.val = false ∧ wrOpen s n = true

/-- T(0) of an armed start (R178, R456): TSTART with TMODE 1; with TMODE 0 the first multiple of 8 ticks at least 256 ticks
after the write, or after an abandoned calibration step's channels are back. -/
def startTime (s : State) (n : Cluster) (tmode : Bool) : Nat :=
  if tmode then s.pair .CL_SEQ_TSTART_LO .CL_SEQ_TSTART_HI n.val
  else startGrid (if calStepOn s n then s.clasp + 40000 else max s.clasp (s.calSt n).back)

end Sys2Proof.Machine

/-- While WR_OPEN is 1 a whole-word write stores a microword, or a slot of a nano-word, with good parity, or bad
parity under PAR_INV, and no other word of the stores changes; a library word is never written. A read gives the
word, and PAR_READ is set where its parity is bad (R163, R165 to R167). -/
def Obligations.StoresWrittenWhileOpen : Prop :=
  (∀ (t : Nat) (r : Req) (n : Cluster) (a : BitVec 16) (d : Word) (s : State),
    StoreAccepted r n (.micro a) d (s.at t) →
    ∃ s', exec (.storeWrite t r n (.micro a) d 0xF#4) s = .next s' ∧
      s'.microAt n a.toNat = { w := d, bad := if s.rb .CL_STORE_CTRL n.val 0 then 3#2 else 0#2 } ∧
      (∀ b : Nat, b < 65536 → b ≠ a.toNat → s'.microAt n b = s.microAt n b) ∧
      Frame [.clasp, .micro] [.PWR_CLU_GATE] (atCluster n) s s') ∧
  (∀ (t : Nat) (r : Req) (n : Cluster) (i : BitVec 12) (j : Fin 8) (d : Word) (s : State),
    StoreAccepted r n (.nano i j) d (s.at t) →
    ∃ s', exec (.storeWrite t r n (.nano i j) d 0xF#4) s = .next s' ∧
      (∀ k : Nat, k < 8 → slotOf (s'.nanoAt n i.toNat).w k = if k = j.val then d else slotOf (s.nanoAt n i.toNat).w k) ∧
      (∀ k : Nat, k < 8 → (s'.nanoAt n i.toNat).bad.getLsbD k =
        if k = j.val then s.rb .CL_STORE_CTRL n.val 0 else (s.nanoAt n i.toNat).bad.getLsbD k) ∧
      (∀ b : Nat, b < 4096 → b ≠ i.toNat → s'.nanoAt n b = s.nanoAt n b) ∧
      Frame [.clasp, .nano] [.PWR_CLU_GATE] (atCluster n) s s') ∧
  (∀ (t : Nat) (r : Req) (n : Cluster) (w : StoreAddr) (s : State),
    served (s.at t) r = true →
    pwrState (s.at t) = 2 →
    ∃ s', exec (.storeRead t r n w) s = .next s' ∧
      s'.out = .regRead r.val (storeAddr n w) (storeGet s n w).1 :: s.out ∧
      s'.reg .CL_STORE_EVT n.val = (if (storeGet s n w).2 then putBit (s.reg .CL_STORE_EVT n.val) 2 true else s.reg .CL_STORE_EVT n.val) ∧
      Frame [.clasp, .out] [.CL_STORE_EVT] (atCluster n) s s')

/-- A START of a sequencer that is idle, with the timing DLL locked and nothing that holds starts, arms it: the front
end stands at CL_SEQ_ADDR, the counts, result and flags are cleared, streaming applies where the Hopper is enabled,
and T(0) is TSTART or the next multiple of 8 ticks (R178); at T(0) it runs. -/
def Obligations.SequencerArmsAndStarts : Prop :=
  (∀ (t : Nat) (r : Req) (n : Cluster) (d : Word) (s : State),
    let u := s.at t
    Accepted r .CL_SEQ_CTRL n.val (d ||| 1#32) u →
    bitOf d 1 = false →
    idleNow u n = true →
    cluRetired s n = false →
    s.rb .CL_MR_STAT n.val 0 = false →
    patchBlocks s = false →
    govLevel s n < 3 →
    calIntrOn s n = false →
    asyBusy s n = false →
    s.rb .CL_TIM_STAT n.val 0 = true →
    (bitOf d 3 = true → (if calStepOn s n then u.clasp + 40000 else max u.clasp (s.calSt n).back) + 256 ≤ startTime u n true) →
    ∃ s', exec (.seqStart t r n d) s = .next s' ∧ seqState s' n = 1 ∧ (s'.seq n).t0 = startTime u n (bitOf d 3) ∧
      (s'.seq n).tNext = startTime u n (bitOf d 3) * 512 ∧
      (s'.seq n).fe.pc = ⟨false, s.rf .CL_SEQ_ADDR n.val 0 16⟩ ∧ (s'.seq n).fe.stack = [] ∧ (s'.seq n).fe.sel = 0#32 ∧
      (s'.seq n).fe.cond = 0xFFFFFFFF#32 ∧ (s'.seq n).fe.rtn = none ∧ (s'.seq n).feOn = true ∧
      (s'.seq n).fMatch = false ∧ (s'.seq n).fFail = false ∧ streaming s' n = s.rb .CL_HOP_CTRL n.val 0 ∧
      s'.reg .CL_SEQ_RES n.val = 0#32 ∧ s'.reg .CL_SEQ_VCNT_LO n.val = 0#32 ∧ s'.reg .CL_SEQ_VCNT_HI n.val = 0#32 ∧
      s'.reg .CL_SEQ_STALLS n.val = 0#32 ∧ s'.reg .CL_SEQ_HOLDV n.val = 0#32 ∧ s'.reg .CL_SEQ_BUBBLES n.val = 0#32 ∧
      s'.reg .CL_SEQ_FFVALID n.val = 0#32 ∧ (∀ c : Channel, s'.reg .CL_SEQ_FCNT (chIx n c) = 0#32) ∧
      Frame [.clasp, .chans, .seqs, .hops, .cal]
        [.CL_SEQ_CTRL, .CL_SEQ_STAT, .CL_SEQ_RES, .CL_SEQ_VCNT_LO, .CL_SEQ_VCNT_HI, .CL_SEQ_STALLS, .CL_SEQ_HOLDV, .CL_SEQ_BUBBLES,
          .CL_SEQ_EVT, .CL_SEQ_FFVALID, .CL_SEQ_FCNT, .CL_CAL_STAT, .CL_CAL_EVT, .CL_STORE_STAT, .PWR_CLU_GATE] (atCluster n) s s') ∧
  (∀ (t : Nat) (n : Cluster) (s : State),
    seqIdle s n = false →
    (s.seq n).t0 ≤ (s.at t).clasp →
    (s.seq n).ending = none →
    (s.seq n).resume = false →
    ∃ s', exec (.seqRunStart t n) s = .next s' ∧ seqState s' n = (if seqState s n = 1 then 2 else seqState s n) ∧
      Frame [.clasp] [.CL_SEQ_STAT] (atCluster n) s s') ∧
  (∀ (t : Nat) (n : Cluster) (s : State),
    seqIdle s n = false →
    (s.seq n).t0 ≤ (s.at t).clasp →
    (s.seq n).ending = none →
    (s.seq n).resume = true →
    s.rb .CL_MR_STAT n.val 0 = true →
    ∃ s', exec (.seqRunStart t n) s = .next s' ∧ seqState s' n = (if seqState s n = 1 then 2 else seqState s n) ∧
      s'.rb .CL_MR_STAT n.val 0 = false ∧ s'.rf .CL_MR_STAT n.val 13 3 = 2 ∧ (s'.seq n).ctx = none ∧
      Frame [.clasp, .seqs] [.CL_SEQ_STAT, .CL_MR_STAT] (atCluster n) s s')

/-- An ABORT ends every measurement of the cluster; before the first vector the pattern ends with code ABORTED (2),
later it reaches the issue stage 80 ticks after the write. A RELEASE of a sequencer that is not idle reaches the
issue stage 80 ticks after the write (R176, R177, R180). -/
def Obligations.SequencerAbortsAndReleases : Prop :=
  (∀ (t : Nat) (r : Req) (n : Cluster) (d : Word) (s : State),
    Accepted r .CL_SEQ_CTRL n.val (d ||| 2#32) (s.at t) →
    seqIdle s n = false →
    (s.seq n).unwind = false →
    (s.seq n).abort = none →
    (s.seq n).ending = none →
    ∃ s', exec (.seqAbort t r n d) s = .next s' ∧ (∀ c, measBusy s' n c = false) ∧
      (seqState s n = 1 ∧ (s.seq n).seqNo = 0 → (s'.seq n).ending = some (2, 0) ∧ (s'.seq n).feOn = false) ∧
      (¬ (seqState s n = 1 ∧ (s.seq n).seqNo = 0) →
        s'.seq n = { s.seq n with abort := some ((s.at t).clasp + 80, if r = 4 then 2 else 1) }) ∧
      Frame [.clasp, .chans, .seqs] [.CL_SEQ_CTRL, .PWR_CLU_GATE] (atCluster n) s s') ∧
  (∀ (t : Nat) (r : Req) (n : Cluster) (d : Word) (s : State),
    Accepted r .CL_SEQ_CTRL n.val (d ||| 4#32) (s.at t) →
    bitOf d 0 = false →
    bitOf d 1 = false →
    seqIdle s n = false →
    ∃ s', exec (.seqRelease t r n d) s = .next s' ∧ s'.seq n = { s.seq n with release := some ((s.at t).clasp + 80) } ∧
      Frame [.clasp, .seqs] [.CL_SEQ_CTRL, .PWR_CLU_GATE] (atCluster n) s s')

namespace Sys2Proof.Machine

/-- The issue stage looks at the start of the next vector, and no interruption has reached it (R170, R176). -/
def LooksAhead (n : Cluster) (s : State) : Prop := issueDue s n = true ∧ abortDue s n = none

/-- A vector of nano-word x with timing set ts has been handed on at T = tNext (R114, R170, R183): the next starts one period
later, it is in flight under the next number, and the edges of its 32 channels are placed. -/
def HandedOn (n : Cluster) (kind : VKind) (src : PAddr) (x : Nano) (ts : Nat) (cond : Word) (ep : Nat) (last : Bool)
    (s s' : State) : Prop :=
  let q := s.seq n
  (s'.seq n).tNext = q.tNext + period s n ts ∧ (s'.seq n).lastEnd = q.tNext + period s n ts ∧
  (s'.seq n).seqNo = q.seqNo + 1 ∧
  (s'.seq n).infl = q.infl ++ [⟨q.seqNo, s.pair .CL_SEQ_VCNT_LO .CL_SEQ_VCNT_HI n.val, kind, src, q.tNext,
    q.tNext + period s n ts, cond, ep, last, q.rtn.isSome,
    ((List.range 32).any fun c => decide (laneOf x c 0 = 9) || decide (laneOf x c 1 = 9)) && decide (kind ≠ .hold), [], []⟩] ∧
  (s'.seq n).edges = ((List.finRange 32).foldl (placeChannel s n (decide (kind = .hold)) q.seqNo q.tNext ts x)
    ⟨q.edges, q.lastPl, false, false, false, false⟩).edges

end Sys2Proof.Machine

/-- At the start of the next vector the issue stage hands the vector at the head of the queue on (its nano-word a
free value while its page is being rewritten, R189, log entry 3), counts it and shows its address; with the queue
empty it counts a bubble and hands on the hold vector; a STOP ends the pattern with code 1 and its exit code; an
illegal word ends it with code 3 and its address; bad parity of a vector's nano-word is a machine check, code 4; an
abort outside a routine ends it with code 2; a stall that may end resumes (R154, R164, R170, R173, R191). -/
def Obligations.VectorsHandedOn : Prop :=
  (∀ (t : Nat) (n : Cluster) (src : PAddr) (nano ts left : Nat) (m : Bool) (cond : Word) (ep : Nat) (rest : List QEntry) (s : State),
    LooksAhead n (s.at t) →
    (s.seq n).q = .vec src nano ts left m cond ep :: rest →
    (s.seq n).steps = [] →
    (issueNano s n src.lib nano).2 = false →
    spanOk s n false (period s n ts) = true →
    ∃ s', exec (.vectorIssue t n) s = .next s' ∧
      HandedOn n (if m then .mvec else .vec) src (issueNano s n src.lib nano).1 ts cond ep (decide (left ≤ 1)) s s' ∧
      (s'.seq n).q = (if left ≤ 1 then rest else .vec src nano ts (left - 1) m cond ep :: rest) ∧
      s'.pair .CL_SEQ_VCNT_LO .CL_SEQ_VCNT_HI n.val = (s.pair .CL_SEQ_VCNT_LO .CL_SEQ_VCNT_HI n.val + 1) % 2 ^ 48 ∧
      s'.reg .CL_SEQ_PC n.val = paddrWord src ∧
      (s'.trig n).evts = (s.trig n).evts ++ (if (s.seq n).seqNo = 0 then [.patStart (s.seq n).t0] else []) ++
        [.vector (s.pair .CL_SEQ_VCNT_LO .CL_SEQ_VCNT_HI n.val) ((s.seq n).tNext / 512)] ∧
      Frame [.clasp, .seqs, .trigs] [.CL_SEQ_RES, .CL_SEQ_VCNT_LO, .CL_SEQ_VCNT_HI, .CL_SEQ_PC, .CL_TIM_EVT, .CL_STORE_EVT]
        (atCluster n) s s') ∧
  (∀ (t : Nat) (n : Cluster) (x : Nano) (s : State),
    LooksAhead n (s.at t) →
    (s.seq n).q = [] →
    (s.seq n).steps = [] →
    awaitsCond (s.at t) n = false →
    feReady s n = true →
    ((s.seq n).fe.pc.lib || !(s.microAt n (s.seq n).fe.pc.a).nostall) = true →
    (match (s.seq n).hold.nano with | none => (keepNano, false) | some p => issueNano s n p.1 p.2) = (x, false) →
    spanOk s n false (period s n (s.seq n).hold.ts) = true →
    ∃ s', exec (.vectorIssue t n) s = .next s' ∧
      HandedOn n .hold (s.seq n).fe.pc x (s.seq n).hold.ts 0#32 0 false s s' ∧
      s'.reg .CL_SEQ_BUBBLES n.val = BitVec.ofNat 32 (satInc (2 ^ 32 - 1) (s.reg .CL_SEQ_BUBBLES n.val).toNat) ∧
      s'.rb .CL_SEQ_RES n.val 19 = true ∧ s'.rb .CL_SEQ_EVT n.val 2 = true ∧
      Frame [.clasp, .seqs, .trigs] [.CL_SEQ_RES, .CL_SEQ_BUBBLES, .CL_SEQ_EVT, .CL_TIM_EVT, .CL_STORE_EVT] (atCluster n) s s') ∧
  (∀ (t : Nat) (n : Cluster) (k : Nat) (rest : List QEntry) (s : State),
    LooksAhead n (s.at t) →
    (s.seq n).q = .stop k :: rest →
    ∃ s', exec (.vectorIssue t n) s = .next s' ∧ (s'.seq n).ending = some (1, k) ∧ (s'.seq n).feOn = false ∧
      (s'.seq n).q = [] ∧ Frame [.clasp, .seqs] [] (atCluster n) s s') ∧
  (∀ (t : Nat) (n : Cluster) (a : PAddr) (rest : List QEntry) (s : State),
    LooksAhead n (s.at t) →
    (s.seq n).q = .illegal a :: rest →
    ∃ s', exec (.vectorIssue t n) s = .next s' ∧ (s'.seq n).ending = some (3, 0) ∧ s'.rb .CL_STORE_EVT n.val 6 = true ∧
      s'.reg .CL_STORE_ILL_ADDR n.val = (0x80000000#32 ||| paddrWord a) ∧
      Frame [.clasp, .seqs] [.CL_STORE_ILL_ADDR, .CL_STORE_EVT] (atCluster n) s s') ∧
  (∀ (t : Nat) (n : Cluster) (src : PAddr) (nano ts left : Nat) (m : Bool) (cond : Word) (ep : Nat) (rest : List QEntry) (s : State),
    LooksAhead n (s.at t) →
    (s.seq n).q = .vec src nano ts left m cond ep :: rest →
    (issueNano s n src.lib nano).2 = true →
    ∃ s', exec (.vectorIssue t n) s = .next s' ∧ (s'.seq n).ending = some (4, 0) ∧ s'.rb .CL_STORE_EVT n.val 1 = true ∧
      s'.rf .CL_STORE_PAR_CNT n.val 0 16 = satInc 65535 (s.rf .CL_STORE_PAR_CNT n.val 0 16) ∧
      s'.msgs = s.msgs ++ (if cluRetired s n then [] else [⟨44 * n.val + 34, 1, 1, 2 ^ 28 + nano⟩]) ∧
      Frame [.clasp, .seqs, .msgs] [.CL_STORE_EVT, .CL_STORE_PAR_ADDR, .CL_STORE_PAR_CNT] (atCluster n) s s') ∧
  (∀ (t : Nat) (n : Cluster) (cause : Nat) (s : State),
    issueDue (s.at t) n = true →
    abortDue s n = some cause →
    (s.seq n).rtn = none →
    ∃ s', exec (.vectorIssue t n) s = .next s' ∧ (s'.seq n).ending = some (2, 0) ∧ (s'.seq n).feOn = false ∧
      Frame [.clasp, .seqs] [] (atCluster n) s s') ∧
  (∀ (t : Nat) (n : Cluster) (p : PAddr) (rest : List QEntry) (s : State),
    LooksAhead n (s.at t) →
    (s.seq n).q = .stallPoint p :: rest →
    (s.hop n).err = false →
    (s.seq n).stalled = true →
    mayResume (s.at t) n p = true →
    ∃ s', exec (.stallEnd t n) s = .next s' ∧ s'.seq n = { s.seq n with q := rest, stalled := false } ∧ seqState s' n = 2 ∧
      Frame [.clasp, .seqs] [.CL_SEQ_STAT] (atCluster n) s s')

namespace Sys2Proof.Machine

/-- The oldest vector in flight ended 96 ticks ago, and its edges have been reached (R171). -/
def CompleteDue (n : Cluster) (v : Vec) (rest : List Vec) (s : State) : Prop :=
  (s.seq n).infl = v :: rest ∧ v.stop + 96 * 512 < (s.clasp + 1) * 512 ∧
  ((s.seq n).edges.any fun p => decide (p.seqNo = v.seqNo)) = false

/-- The channels on which v failed, and those of them that count for flags: the fenced ones and those outside the condition
set do not (R151, R161, R183). -/
def failMask (v : Vec) : Word := vecChans v fun r => decide (r = 1 ∨ r = 2)

end Sys2Proof.Machine

/-- 96 ticks after the oldest vector in flight ended, an MVEC sets the match flag when none of the channels that
count failed; a VEC sets the fail flag, counts and records fails per channel, and enters the log queue where it
qualifies. The Hopper writes the oldest log record into the log window and advances its index (R183 to R185). -/
def Obligations.VectorResultsReachFlagsAndLog : Prop :=
  (∀ (t : Nat) (n : Cluster) (v : Vec) (rest : List Vec) (s : State),
    CompleteDue n v rest (s.at t) →
    v.kind = .hold →
    ∃ s', exec (.vectorComplete t n) s = .next s' ∧ (s'.seq n).infl = rest ∧ (s'.seq n).fMatch = (s.seq n).fMatch ∧
      (s'.seq n).fFail = (s.seq n).fFail ∧ Frame [.clasp, .seqs] [] (atCluster n) s s') ∧
  (∀ (t : Nat) (n : Cluster) (v : Vec) (rest : List Vec) (s : State),
    CompleteDue n v rest (s.at t) →
    v.kind = .mvec →
    ∃ s', exec (.vectorComplete t n) s = .next s' ∧ (s'.seq n).infl = rest ∧
      (s'.seq n).fMatch = (if v.last ∧ (s.seq n).matchNo ≤ v.seqNo then decide (failMask v &&& (v.cond &&& ~~~ s.reg .CAP_FENCE n.val) = 0#32)
        else (s.seq n).fMatch) ∧
      (s'.seq n).fFail = (s.seq n).fFail ∧ Frame [.clasp, .seqs] [] (atCluster n) s s') ∧
  (∀ (t : Nat) (n : Cluster) (v : Vec) (rest : List Vec) (s : State),
    CompleteDue n v rest (s.at t) →
    v.kind = .vec →
    ∃ s', exec (.vectorComplete t n) s = .next s' ∧ (s'.seq n).infl = rest ∧ (s'.seq n).fMatch = (s.seq n).fMatch ∧
      (s'.seq n).fFail = ((s.seq n).fFail ||
        decide (failMask v &&& (v.cond &&& ~~~ s.reg .CAP_FENCE n.val) ≠ 0#32 ∧ v.ep = (s.seq n).ep)) ∧
      (∀ c : Channel, s'.reg .CL_SEQ_FCNT (chIx n c) = if bitOf (failMask v) c.val then
        BitVec.ofNat 32 (satInc (2 ^ 32 - 1) (s.reg .CL_SEQ_FCNT (chIx n c)).toNat) else s.reg .CL_SEQ_FCNT (chIx n c)) ∧
      (∀ c : Channel, bitOf (failMask v) c.val = true → s.rb .CL_SEQ_FFVALID n.val c.val = false →
        s'.rb .CL_SEQ_FFVALID n.val c.val = true ∧ s'.reg .CL_SEQ_FFIRST (chIx n c) = BitVec.ofNat 32 v.num) ∧
      (s'.seq n).log = (s.seq n).log ++ (if ((s.rb .CL_SEQ_LOG n.val 0 ∧ failMask v ≠ 0#32) ∨ (s.rb .CL_SEQ_LOG n.val 1 ∧ v.hasCap)) ∧
        (s.seq n).log.length < 256 then [⟨v, decide (failMask v ≠ 0#32)⟩] else []) ∧
      (s'.trig n).evts = (s.trig n).evts ++ (if failMask v ≠ 0#32 then [.fail (failMask v) (v.stop / 512)] else []) ∧
      Frame [.clasp, .seqs, .trigs] [.CL_SEQ_RES, .CL_SEQ_LOST, .CL_SEQ_EVT, .CL_SEQ_FFVALID, .CL_SEQ_FCNT, .CL_SEQ_FFIRST] (atCluster n) s s') ∧
  (∀ (t : Nat) (n : Cluster) (r : LogRec) (rest : List LogRec) (s : State),
    let size := sizeOr (s.rf .CL_HOP_LOG_SIZE n.val 0 16) 65536
    let w := s.rf .CL_HOP_LOG_WPTR n.val 0 16
    let a := s.rf .CL_HOP_LOG_BASE n.val 6 20 * 64 + w * 64
    (s.seq n).log = r :: rest →
    ((s.trig n).turn = true ∨ (s.trig n).queue = []) →
    idxNext w size ≠ s.rf .CL_HOP_LOG_RPTR n.val 0 16 →
    streamServed s n 0 false a 64 = true →
    memAdmits s (.cluster n 0) false a 64 = true →
    ∃ s', exec (.logRecordWrite t n) s = .next s' ∧ Written a (logBytes r) s s' ∧ (s'.seq n).log = rest ∧
      (s'.trig n).turn = false ∧ s'.rf .CL_HOP_LOG_WPTR n.val 0 16 = idxNext w size ∧
      Frame [.clasp, .mem, .seqs, .trigs] [.CL_HOP_LOG_WPTR] (atCluster n) s s')

/-- 96 ticks after its last vector the pattern ends: result code and exit, TEND, END; the sequencer is idle, and a
streamed pattern's Hopper is off (R181, R194). The end of an unwind forces the touched channels safe and gives the
context up (R213). -/
def Obligations.PatternsEnd : Prop :=
  (∀ (t : Nat) (n : Cluster) (code exit : Nat) (s : State),
    (s.seq n).ending = some (code, exit) →
    ((s.seq n).lastEnd + 176 * 512 - 1) / (80 * 512) ≤ (s.at t).clasp / 80 →
    (s.seq n).infl = [] →
    (s.seq n).unwind = false →
    code < 16 →
    code ≠ 10 →
    code ≠ 11 →
    ∃ s', exec (.patternEnd t n) s = .next s' ∧ s'.reg .CL_SEQ_STAT n.val = 0#32 ∧ s'.rf .CL_SEQ_RES n.val 0 4 = code ∧
      s'.rf .CL_SEQ_RES n.val 8 8 = exit % 256 ∧ s'.rb .CL_SEQ_EVT n.val 0 = true ∧
      s'.pair .CL_SEQ_TEND_LO .CL_SEQ_TEND_HI n.val = (s.seq n).lastEnd / 512 % 2 ^ 64 ∧
      (s'.seq n).ending = none ∧ (s'.seq n).rtn = none ∧ (s'.trig n).evts = (s.trig n).evts ++ [.patEnd ((s.seq n).lastEnd / 512)] ∧
      (streaming s n = true → s'.rb .CL_HOP_CTRL n.val 0 = false) ∧
      Frame [.clasp, .seqs, .trigs] [.CL_SEQ_STAT, .CL_SEQ_RES, .CL_SEQ_TEND_LO, .CL_SEQ_TEND_HI, .CL_SEQ_EVT, .CL_HOP_CTRL, .CL_HOP_STAT]
        (atCluster n) s s') ∧
  (∀ (t : Nat) (n : Cluster) (code exit : Nat) (s : State),
    (s.seq n).ending = some (code, exit) →
    ((s.seq n).lastEnd + 176 * 512 - 1) / (80 * 512) ≤ (s.at t).clasp / 80 →
    (s.seq n).infl = [] →
    (s.seq n).unwind = true →
    ∃ s', exec (.patternEnd t n) s = .next s' ∧ s'.reg .CL_SEQ_STAT n.val = 0#32 ∧ s'.rb .CL_SEQ_EVT n.val 0 = true ∧
      (∀ c : Channel, bitOf (s.reg .CL_MR_TOUCHED n.val) c.val = true → SafeForced n c s s') ∧
      (∀ c : Channel, bitOf (s.reg .CL_MR_TOUCHED n.val) c.val = false → s'.chan n c = s.chan n c) ∧
      s'.rb .CL_MR_STAT n.val 0 = false ∧ s'.rf .CL_MR_STAT n.val 13 3 = 3 ∧ s'.rb .CL_MR_EVT n.val 5 = true ∧
      (s'.seq n).ctx = none ∧ (s'.seq n).unwind = false ∧
      Frame [.clasp, .chans, .seqs, .trigs, .free]
        (.CL_SEQ_STAT :: .CL_SEQ_RES :: .CL_SEQ_TEND_LO :: .CL_SEQ_TEND_HI :: .CL_SEQ_EVT :: .CL_HOP_CTRL :: .CL_HOP_STAT ::
          .CL_MR_STAT :: .CL_MR_EVT :: safeRegs) (atCluster n) s s')

/-- A write enables or disables the Hopper, or while the sequencer is idle flushes it: HEAD takes TAIL and the halves
are empty. With no load in hand it takes the descriptor at HEAD, or ends with a descriptor error where R193 refuses
it; a load copies its pages, 32 bytes a nano-word, then its microwords in order into the half being filled, and a
finished load advances HEAD (R186 to R188, R193, R194). -/
def Obligations.HopperLoads : Prop :=
  (∀ (t : Nat) (r : Req) (n : Cluster) (d : Word) (s : State),
    Accepted r .CL_HOP_CTRL n.val d (s.at t) →
    bitOf d 1 = false →
    ∃ s', exec (.hopperEnable t r n d) s = .next s' ∧ s'.rb .CL_HOP_CTRL n.val 0 = bitOf d 0 ∧
      Frame [.clasp] [.CL_HOP_CTRL, .PWR_CLU_GATE] (atCluster n) s s') ∧
  (∀ (t : Nat) (r : Req) (n : Cluster) (d : Word) (s : State),
    Accepted r .CL_HOP_CTRL n.val (d ||| 2#32) (s.at t) →
    idleNow (s.at t) n = true →
    ∃ s', exec (.hopperFlush t r n d) s = .next s' ∧ s'.reg .CL_HOP_HEAD n.val = s.reg .CL_HOP_TAIL n.val ∧
      s'.rb .CL_HOP_STAT n.val 18 = false ∧ (s'.hop n).load = none ∧ (s'.hop n).fill0 = 0 ∧ (s'.hop n).fill1 = 0 ∧
      (s'.hop n).closed0 = false ∧ (s'.hop n).closed1 = false ∧
      Frame [.clasp, .hops] [.CL_HOP_CTRL, .CL_HOP_HEAD, .CL_HOP_STAT, .PWR_CLU_GATE] (atCluster n) s s') ∧
  (∀ (t : Nat) (n : Cluster) (s : State),
    let head := s.rf .CL_HOP_HEAD n.val 0 16
    let more := (s.rf .CL_HOP_TAIL n.val 0 16 + 65536 - head) % 65536
    let size := max 1 (s.rf .CL_HOP_RSIZE n.val 0 13)
    let a := s.rf .CL_HOP_RING n.val 4 22 * 16 + head % size * 16
    let half := if (s.hop n).chosen then (s.hop n).half else s.rf .CL_SEQ_ADDR n.val 15 1
    let l := descLoad (s.bytes a 16)
    hopRuns s n = true →
    (s.hop n).load = none →
    (s.hop n).waitHalf = false →
    0 < more →
    more ≤ size →
    streamServed s n 0 false a 16 = true →
    memAdmits s (.cluster n 0) false a 16 = true →
    ∃ s', exec (.hopperDescriptor t n) s = .next s' ∧
      (loadBad l ((s.hop n).fillOf half) = true → (s'.hop n).load = none ∧ (s'.hop n).err = true ∧
        (s'.hop n).half = half ∧ s'.rb .CL_HOP_CTRL n.val 0 = false ∧ s'.rb .CL_HOP_EVT n.val 0 = true) ∧
      (loadBad l ((s.hop n).fillOf half) = false → loadOver l = false → (s'.hop n).load = some l ∧ (s'.hop n).half = half ∧
        (s'.hop n).err = (s.hop n).err ∧
        Frame [.clasp, .hops] [] (atCluster n) s s') ∧
      Frame [.clasp, .hops] [.CL_HOP_CTRL, .CL_HOP_HEAD, .CL_HOP_STAT, .CL_HOP_EVT] (atCluster n) s s') ∧
  (∀ (t : Nat) (n : Cluster) (l : Load) (s : State),
    let k := min 8 (l.mcnt - l.mdone)
    let a := l.maddr + 4 * l.mdone
    let fill := (s.hop n).fillOf (s.hop n).half
    (s.hop n).load = some l →
    hopRuns s n = true →
    256 * pageCount l.pages ≤ l.ndone →
    l.mdone + 8 < l.mcnt →
    streamServed s n 0 false a (4 * k) = true →
    memAdmits s (.cluster n 0) false a (4 * k) = true →
    ∃ s', exec (.hopperChunk t n) s = .next s' ∧
      (∀ j : Nat, j < 8 → s'.microAt n (32768 * (s.hop n).half + fill + j) =
        { w := BitVec.ofNat 32 (s.mem32 (a + 4 * j)), bad := 0#2, nostall := l.nostall }) ∧
      (s'.hop n).load = some { l with mdone := l.mdone + 8 } ∧
      (if (s.hop n).half = 0 then (s'.hop n).fill0 = fill + 8 ∧ (s'.hop n).fill1 = (s.hop n).fill1
        else (s'.hop n).fill1 = fill + 8 ∧ (s'.hop n).fill0 = (s.hop n).fill0) ∧
      Frame [.clasp, .micro, .hops] [] (atCluster n) s s') ∧
  (∀ (t : Nat) (n : Cluster) (l : Load) (s : State),
    let a := l.naddr + 32 * l.ndone
    (s.hop n).load = some l →
    hopRuns s n = true →
    l.ndone < 256 * pageCount l.pages →
    loadOver { l with ndone := l.ndone + 1 } = false →
    streamServed s n 0 false a 32 = true →
    memAdmits s (.cluster n 0) false a 32 = true →
    ∃ s', exec (.hopperChunk t n) s = .next s' ∧
      s'.nanoAt n (256 * pageOf l.pages (l.ndone / 256) + l.ndone % 256) = { w := BitVec.ofNat 256 (leNat (s.bytes a 32)), bad := 0#8 } ∧
      s'.hop n = { s.hop n with load := some { l with ndone := l.ndone + 1 } } ∧
      Frame [.clasp, .nano, .hops] [] (atCluster n) s s') ∧
  (∀ (t : Nat) (n : Cluster) (l : Load) (s : State),
    let k := l.mcnt - l.mdone
    (s.hop n).load = some l →
    hopRuns s n = true →
    256 * pageCount l.pages ≤ l.ndone →
    0 < k →
    k ≤ 8 →
    streamServed s n 0 false (l.maddr + 4 * l.mdone) (4 * k) = true →
    memAdmits s (.cluster n 0) false (l.maddr + 4 * l.mdone) (4 * k) = true →
    ∃ s', exec (.hopperChunk t n) s = .next s' ∧ (s'.hop n).load = none ∧
      s'.rf .CL_HOP_HEAD n.val 0 16 = (s.rf .CL_HOP_HEAD n.val 0 16 + 1) % 65536 ∧
      (l.last = true → s'.rb .CL_HOP_STAT n.val 18 = true) ∧
      Frame [.clasp, .micro, .hops] [.CL_HOP_HEAD, .CL_HOP_STAT] (atCluster n) s s')

/-! ### Micro-routines and the library (R196 to R226) -/

/-- An interruption that has reached the issue stage inside a routine is taken at the end of a hold vector of a
parked wait, and at an RMARK boundary: the context of the routine is saved and held, resumable unless the pattern is
streamed, with its identifier, step, addresses, loop counters, digest and touched channels in the CL_MR registers;
the pattern ends with code ABORTED (2) (R203, R205, R208). -/
def Obligations.RoutineInterruptSavesContext : Prop :=
  (∀ (t : Nat) (n : Cluster) (cause : Nat) (x : Rtn) (s : State),
    issueDue (s.at t) n = true →
    abortDue s n = some cause →
    (s.seq n).rtn = some x →
    inParked s n = true →
    cause < 16 →
    ∃ s', exec (.routineInterrupt t n) s = .next s' ∧ s'.rb .CL_MR_STAT n.val 0 = true ∧
      s'.rb .CL_MR_STAT n.val 1 = !streaming s n ∧ s'.rb .CL_MR_STAT n.val 4 = true ∧ s'.rf .CL_MR_STAT n.val 8 4 = cause ∧
      s'.rf .CL_MR_STAT n.val 13 3 = 1 ∧
      s'.reg .CL_MR_ID n.val = BitVec.ofNat 32 (x.id % 65536 + 65536 * (x.step % 65536)) ∧
      s'.reg .CL_MR_RADDR n.val = paddrWord x.mark.pc ∧
      s'.reg .CL_MR_UADDR n.val = (match x.uaddr with | some p => paddrWord p ||| 0x80000000#32 | none => 0#32) ∧
      s'.reg .CL_MR_DIGEST n.val = digest s n ∧ s'.reg .CL_MR_TOUCHED n.val = x.touched ∧
      (∀ k : Fin 8, s'.reg .CL_MR_LC (n.val * 8 + k.val) = BitVec.ofNat 32 (x.mark.ctrs.getD k.val 0)) ∧
      s'.rb .CL_MR_EVT n.val 0 = true ∧ (s'.seq n).ctx = some ⟨x.mark, (s.seq n).fMatch, (s.seq n).fFail, x⟩ ∧
      (s'.seq n).rtn = none ∧ (s'.seq n).ending = some (2, 0) ∧
      Frame [.clasp, .seqs] [.CL_MR_STAT, .CL_MR_ID, .CL_MR_RADDR, .CL_MR_UADDR, .CL_MR_DIGEST, .CL_MR_TOUCHED, .CL_MR_LC, .CL_MR_EVT]
        (atCluster n) s s') ∧
  (∀ (t : Nat) (n : Cluster) (cause step : Nat) (fe : FE) (x : Rtn) (rest : List QEntry) (s : State),
    issueDue (s.at t) n = true →
    abortDue s n = some cause →
    (s.seq n).rtn = some x →
    inParked s n = false →
    (s.seq n).unwind = false →
    (s.seq n).q = .rmark step fe :: rest →
    markAhead rest = false →
    cause < 16 →
    ∃ s', exec (.routineInterrupt t n) s = .next s' ∧ s'.rb .CL_MR_STAT n.val 0 = true ∧ s'.rf .CL_MR_STAT n.val 8 4 = cause ∧
      s'.reg .CL_MR_ID n.val = BitVec.ofNat 32 (x.id % 65536 + 65536 * (step % 65536)) ∧
      s'.reg .CL_MR_RADDR n.val = paddrWord fe.pc ∧
      (∃ y, (s'.seq n).ctx = some y ∧ y.fe = fe ∧ y.rtn.step = step ∧ y.rtn.id = x.id) ∧
      (s'.seq n).ending = some (2, 0) ∧
      Frame [.clasp, .seqs] [.CL_MR_STAT, .CL_MR_ID, .CL_MR_RADDR, .CL_MR_UADDR, .CL_MR_DIGEST, .CL_MR_TOUCHED, .CL_MR_LC, .CL_MR_EVT]
        (atCluster n) s s')

namespace Sys2Proof.Machine

/-- Nothing keeps cluster n from starting the saved context of record x (R209, R210, R456): its sequencer is idle, no
interruption or Assay run holds starts, no calibration step runs, the timing DLL is locked and CL_SEQ_CTRL.TMODE is 0. -/
def MayStartContext (n : Cluster) (x : Ctx) (s : State) : Prop :=
  idleNow s n = true ∧ s.rb .CL_MR_STAT n.val 0 = true ∧ (s.seq n).ctx = some x ∧ calIntrOn s n = false ∧ asyBusy s n = false ∧
  calStepOn s n = false ∧ s.rb .CL_TIM_STAT n.val 0 = true ∧ s.rb .CL_SEQ_CTRL n.val 3 = false

end Sys2Proof.Machine

/-- A RESUME of a held resumable context whose digest still fits arms the sequencer at the mark with the saved flags,
counters, stack and sets, and shows no mismatch; where the digest differs nothing starts and MISMATCH is set. An
ABANDON arms the unwind section with UNWIND 1, or, where the routine named none, forces the touched channels safe and
gives the context up at once (R210, R211, R213). -/
def Obligations.ContextsResumedOrAbandoned : Prop :=
  (∀ (t : Nat) (r : Req) (n : Cluster) (d : Word) (x : Ctx) (s : State),
    Accepted r .CL_MR_CMD n.val (d ||| 1#32) (s.at t) →
    bitOf d 1 = false →
    MayStartContext n x (s.at t) →
    s.rb .CL_MR_STAT n.val 1 = true →
    s.rf .CL_MR_STAT n.val 13 3 = 1 →
    govLevel s n < 3 →
    digest s n = s.reg .CL_MR_DIGEST n.val →
    ∃ s', exec (.resume t r n d) s = .next s' ∧ seqState s' n = 1 ∧ (s'.seq n).t0 = startTime (s.at t) n false ∧
      (s'.seq n).fe = { x.fe with rpt := none, called := false } ∧ (s'.seq n).fMatch = x.fMatch ∧ (s'.seq n).fFail = x.fFail ∧
      (s'.seq n).resume = true ∧ (s'.seq n).unwind = false ∧
      (s'.seq n).rtn = some { x.rtn with span := (s'.seq n).tNext, fresh := x.rtn.byMark } ∧ s'.rb .CL_MR_STAT n.val 7 = false ∧
      Frame [.clasp, .seqs, .hops] [.CL_SEQ_STAT, .CL_SEQ_RES, .CL_STORE_STAT, .CL_MR_STAT, .PWR_CLU_GATE] (atCluster n) s s') ∧
  (∀ (t : Nat) (r : Req) (n : Cluster) (d : Word) (x : Ctx) (s : State),
    Accepted r .CL_MR_CMD n.val (d ||| 1#32) (s.at t) →
    bitOf d 1 = false →
    MayStartContext n x (s.at t) →
    s.rb .CL_MR_STAT n.val 1 = true →
    s.rf .CL_MR_STAT n.val 13 3 = 1 →
    govLevel s n < 3 →
    digest s n ≠ s.reg .CL_MR_DIGEST n.val →
    ∃ s', exec (.resume t r n d) s = .next s' ∧ s'.rb .CL_MR_STAT n.val 7 = true ∧ s'.rb .CL_MR_EVT n.val 3 = true ∧
      Frame [.clasp] [.CL_MR_STAT, .CL_MR_EVT, .PWR_CLU_GATE] (atCluster n) s s') ∧
  (∀ (t : Nat) (r : Req) (n : Cluster) (d : Word) (x : Ctx) (p : PAddr) (s : State),
    Accepted r .CL_MR_CMD n.val (d ||| 2#32) (s.at t) →
    MayStartContext n x (s.at t) →
    x.rtn.uaddr = some p →
    s.rf .CL_MR_STAT n.val 13 3 ≠ 4 →
    ∃ s', exec (.abandon t r n d) s = .next s' ∧ seqState s' n = 1 ∧ (s'.seq n).t0 = startTime (s.at t) n false ∧
      (s'.seq n).fe = { x.fe with pc := p, rpt := none, called := false } ∧ (s'.seq n).unwind = true ∧
      s'.rb .CL_MR_STAT n.val 5 = true ∧ s'.rf .CL_MR_STAT n.val 13 3 = 0 ∧ (s'.seq n).fMatch = x.fMatch ∧
      (s'.seq n).fFail = x.fFail ∧
      Frame [.clasp, .seqs, .hops] [.CL_SEQ_STAT, .CL_SEQ_RES, .CL_STORE_STAT, .CL_MR_STAT, .PWR_CLU_GATE] (atCluster n) s s') ∧
  (∀ (t : Nat) (r : Req) (n : Cluster) (d : Word) (x : Ctx) (s : State),
    Accepted r .CL_MR_CMD n.val (d ||| 2#32) (s.at t) →
    MayStartContext n x (s.at t) →
    x.rtn.uaddr = none →
    ∃ s', exec (.abandon t r n d) s = .next s' ∧
      (∀ c : Channel, bitOf (s.reg .CL_MR_TOUCHED n.val) c.val = true → SafeForced n c s s') ∧
      s'.rb .CL_MR_STAT n.val 0 = false ∧ s'.rf .CL_MR_STAT n.val 13 3 = 4 ∧ s'.rb .CL_MR_EVT n.val 5 = true ∧ (s'.seq n).ctx = none ∧
      Frame [.clasp, .chans, .seqs, .free] (.CL_SEQ_RES :: .CL_MR_STAT :: .CL_MR_EVT :: .PWR_CLU_GATE :: safeRegs) (atCluster n) s s')

/-- The oldest measurement result of a cluster is written as its 16-byte record at index r and channel c of the
result window, or dropped with RES_DROP where r lies past the window; either way its token is released (R218). -/
def Obligations.RoutineResultsWritten : Prop :=
  (∀ (t : Nat) (n : Cluster) (x : ResRec) (rest : List ResRec) (s : State),
    let a := s.rf .CL_MR_RES_BASE n.val 0 17 * 512 + x.tok.r * 512 + x.c * 16
    (s.seq n).results = x :: rest →
    x.tok.r < s.rf .CL_MR_RES_CNT n.val 0 16 →
    streamServed s n 0 true a 16 = true →
    memAdmits s (.cluster n 0) true a 16 = true →
    ∃ s', exec (.routineResultWrite t n) s = .next s' ∧ Written a (resultBytes x) s s' ∧ (s'.seq n).results = rest ∧
      Frame [.clasp, .mem, .seqs] [] (atCluster n) s s') ∧
  (∀ (t : Nat) (n : Cluster) (x : ResRec) (rest : List ResRec) (s : State),
    (s.seq n).results = x :: rest →
    s.rf .CL_MR_RES_CNT n.val 0 16 ≤ x.tok.r →
    ∃ s', exec (.routineResultWrite t n) s = .next s' ∧ s'.rb .CL_MR_EVT n.val 4 = true ∧ (s'.seq n).results = rest ∧
      Frame [.clasp, .seqs] [.CL_MR_EVT] (atCluster n) s s')

/-- GO copies the section that ADDR and LEN name into staging and its verification begins, unless a patch is pending
or being verified; the outcome is recorded, and an accepted section becomes PENDING; once every sequencer that is not
retired is idle it becomes the library of every cluster, and held contexts in library code are no longer resumable;
CANCEL discards a pending patch (R220, R223, R226). -/
def Obligations.LibraryPatched : Prop :=
  (∀ (t : Nat) (r : Req) (d : Word) (s : State),
    let a := s.rf .HALLMARK_PATCH_ADDR 0 6 20 * 64
    let len := s.rf .HALLMARK_PATCH_LEN 0 0 16
    Accepted r .HALLMARK_PATCH_CTRL 0 (d ||| 1#32) (s.at t) →
    s.rb .HALLMARK_STAT 0 8 = false →
    s.rb .HALLMARK_STAT 0 9 = false →
    ∃ s', exec (.patchGo t r d) s = .next s' ∧ s'.rb .HALLMARK_STAT 0 9 = true ∧ s'.patch = memData s .cal false a len ∧
      (memAdmits s .cal false a len = true → Frame [.clasp, .patch] [.HALLMARK_STAT, .HALLMARK_PATCH_CTRL] atNone s s') ∧
      Frame [.clasp, .patch, .msgs]
        [.HALLMARK_STAT, .HALLMARK_PATCH_CTRL, .MP_EVT, .MP_REFUSE_CNT, .MP_REFUSE_ADDR, .MP_REFUSE_INFO] atNone s s') ∧
  (∀ (t : Nat) (s : State),
    s.rb .HALLMARK_STAT 0 9 = true →
    ∃ s', exec (.patchVerified t) s = .next s' ∧ s'.rb .HALLMARK_STAT 0 9 = false ∧
      s'.rf .HALLMARK_STAT 0 4 3 = libVerify s.patch ∧
      (libVerify s.patch = 1 → s'.rb .HALLMARK_STAT 0 8 = true ∧ s'.patch = s.patch) ∧
      (libVerify s.patch ≠ 1 → s'.rb .HALLMARK_STAT 0 8 = s.rb .HALLMARK_STAT 0 8 ∧ s'.patch = []) ∧
      Frame [.clasp, .patch] [.HALLMARK_STAT] atNone s s') ∧
  (∀ (t : Nat) (r : Req) (d : Word) (s : State),
    Accepted r .HALLMARK_PATCH_CTRL 0 (d ||| 2#32) (s.at t) →
    bitOf d 0 = false →
    s.rb .HALLMARK_STAT 0 8 = true →
    ∃ s', exec (.patchCancel t r d) s = .next s' ∧ s'.rb .HALLMARK_STAT 0 8 = false ∧ s'.patch = [] ∧
      Frame [.clasp, .patch] [.HALLMARK_STAT, .HALLMARK_PATCH_CTRL] atNone s s') ∧
  (∀ (t : Nat) (s : State),
    patchReady (s.at t) = true →
    ∃ s', exec (.patchApply t) s = .next s' ∧ s'.reg .HALLMARK_VER 0 = BitVec.ofNat 32 (bf s.patch 4 4) ∧
      s'.reg .HALLMARK_BUILD 0 = BitVec.ofNat 32 (bf s.patch 8 4) ∧ s'.rb .HALLMARK_STAT 0 7 = true ∧ s'.rf .HALLMARK_STAT 0 0 3 = 1 ∧
      s'.rb .HALLMARK_STAT 0 8 = false ∧ s'.rb .HALLMARK_STAT 0 10 = true ∧ s'.patch = [] ∧
      s'.libMicro = libTable (s.patch.drop 84) (bf s.patch 12 4) ∧
      (∀ n : Cluster, s.rb .CL_MR_STAT n.val 0 = true → s'.rb .CL_MR_STAT n.val 6 = true) ∧
      (∀ n : Cluster, cluRetired s n = false → s'.rb .PWR_CLU_GATE 0 n.val = false) ∧
      Frame [.clasp, .libMicro, .libNano, .patch] [.HALLMARK_VER, .HALLMARK_BUILD, .HALLMARK_STAT, .PWR_CLU_GATE, .CL_MR_STAT] atAll s s') ∧
  (∀ (t : Nat) (s : State),
    ∃ s', exec (.patchApplied t) s = .next s' ∧ s'.reg .HALLMARK_STAT 0 = putBit (s.reg .HALLMARK_STAT 0) 10 false ∧
      Frame [.clasp] [.HALLMARK_STAT] atNone s s')

/-! ### Time stamps and gates (R227 to R250) -/

namespace Sys2Proof.Machine

/-- The words of the result of gate g of the channel with index ix, when it is valid (R240, R241, R247). -/
def gateWords (s : State) (ix : Nat) (g : Gate) : RgResult := if rgStats s ix then statWords g else fitWords g

/-- The result of gate g is valid (R240, R247): at least two stamps, or one interval in statistics mode. -/
def gateValid (s : State) (ix : Nat) (g : Gate) : Bool := if rgStats s ix then decide (1 ≤ g.n) else decide (2 ≤ g.n)

/-- Gate g of channel c has ended with a cause (R242, R244): status, flags, DONE and event, and, where the result is valid, its
words, in the registers or behind the latch (R245); a series goes on with the next gate, or the unit is free. -/
def GateEnded (n : Cluster) (c : Channel) (g : Gate) (cause : Nat) (goes : Bool) (s s' : State) : Prop :=
  s'.rf .CH_RG_STAT (chIx n c) 13 3 = cause ∧ s'.rb .CH_RG_STAT (chIx n c) 0 = goes ∧
  s'.rb .CH_RG_STAT (chIx n c) 1 = true ∧ s'.rb .CH_RG_STAT (chIx n c) 2 = gateValid s (chIx n c) g ∧
  s'.rb .CH_RG_STAT (chIx n c) 4 = false ∧ s'.rb .CH_RG_STAT (chIx n c) 5 = g.blanked ∧
  s'.rb .CH_RG_STAT (chIx n c) 6 = g.changed ∧ s'.rb .CH_RG_STAT (chIx n c) 7 = g.bandSw ∧
  s'.rb .CH_RG_STAT (chIx n c) 8 = g.stale ∧ s'.rb .CH_RG_STAT (chIx n c) 9 = s.rb .CH_RG_STAT (chIx n c) 1 ∧
  s'.rb .CL_TS_DONE n.val c.val = true ∧ s'.rb .CL_TS_EVT n.val 0 = true ∧
  (gateValid s (chIx n c) g = true → (s.chan n c).rgLatched = false →
    rgRegs.map (fun r => s'.reg r (chIx n c)) = gateWords s (chIx n c) g) ∧
  (gateValid s (chIx n c) g = true → (s.chan n c).rgLatched = true → (s'.chan n c).rgHeld = some (gateWords s (chIx n c) g)) ∧
  ((s'.chan n c).gate = if goes then some (newGate g.g1 (g.g1 + rgGlen s (chIx n c)) true) else none)

/-- Nothing holds, refuses or precedes a start of cluster n (R445, R456, R457, R477). -/
def StartsFree (n : Cluster) (s : State) : Prop :=
  govLevel s n < 3 ∧ calIntrOn s n = false ∧ asyBusy s n = false ∧ calStepOn s n = false

end Sys2Proof.Machine

/-- The stamp DLL's lock is shown; its unlock ends every gate, is an event and sends a fault message (R233, R243).
When bit 48 of Clasp time changes, every cluster whose epoch differs takes the new one, with an event, and every
unit's next record is marked (R232). A queued stamp is written as its 8-byte record, which consumes the mark, or lost
where the window is full (R231, R236). -/
def Obligations.StampsLockWrapAndDrain : Prop :=
  (∀ (t : Nat) (n : Cluster) (s : State),
    s.rb .CLK_STAT 0 2 = true →
    cluRetired s n = false →
    ∃ s', exec (.stampDllLock t n) s = .next s' ∧ s'.reg .CL_TS_STAT n.val = putBit (s.reg .CL_TS_STAT n.val) 0 true ∧
      Frame [.clasp] [.CL_TS_STAT] (atCluster n) s s') ∧
  (∀ (t : Nat) (n : Cluster) (c : Channel) (s : State),
    stampLock s n = true →
    ∃ s', exec (.stampDllUnlock t n) s = .next s' ∧ stampLock s' n = false ∧ s'.rb .CL_TS_EVT n.val 3 = true ∧
      (s'.chan n c).gate = none ∧
      ((s.chan n c).gate.isSome = true → s'.rf .CH_RG_STAT (chIx n c) 13 3 = 6 ∧ s'.rb .CH_RG_STAT (chIx n c) 0 = false) ∧
      s'.msgs = s.msgs ++ (if cluRetired s n then [] else [⟨44 * n.val + 37, 5, 1, 256 + n.val⟩]) ∧
      Frame [.clasp, .chans, .msgs, .free] (.CL_TS_STAT :: gateRegs) (atCluster n) s s') ∧
  (∀ (t : Nat) (n : Cluster) (c : Channel) (s : State),
    let e := (s.at t).clasp / 2 ^ 48 % 65536
    s.rf .CL_TS_EPOCH n.val 0 16 ≠ e →
    ∃ s', exec (.coarseWrap t) s = .next s' ∧ s'.reg .CL_TS_EPOCH n.val = BitVec.ofNat 32 e ∧ s'.rb .CL_TS_EVT n.val 2 = true ∧
      s'.chan n c = { s.chan n c with wrapRise := true, wrapFall := true } ∧
      Frame [.clasp, .chans] [.CL_TS_EPOCH, .CL_TS_EVT] atAll s s') ∧
  (∀ (t : Nat) (n : Cluster) (r : StampRec) (rest : List StampRec) (s : State),
    let size := sizeOr (s.rf .CL_TS_WIN_SIZE n.val 0 20) 1048576
    let w := s.rf .CL_TS_WIN_WPTR n.val 0 20
    let a := s.rf .CL_TS_WIN_BASE n.val 6 20 * 64 + w * 8
    let c : Channel := ⟨r.c % 32, Nat.mod_lt _ (by decide)⟩
    s.stampQ n = r :: rest →
    idxNext w size ≠ s.rf .CL_TS_WIN_RPTR n.val 0 20 →
    streamServed s n 1 false a 8 = true →
    memAdmits s (.cluster n 1) false a 8 = true →
    ∃ s', exec (.stampRecordWrite t n) s = .next s' ∧
      Written a (stampBytes r (if r.falling then (s.chan n c).wrapFall else (s.chan n c).wrapRise)) s s' ∧
      s'.stampQ n = rest ∧ s'.rf .CL_TS_WIN_WPTR n.val 0 20 = idxNext w size ∧
      (if r.falling then (s'.chan n c).wrapFall = false ∧ (s'.chan n c).wrapRise = (s.chan n c).wrapRise else
        (s'.chan n c).wrapRise = false ∧ (s'.chan n c).wrapFall = (s.chan n c).wrapFall) ∧
      Frame [.clasp, .mem, .chans, .stamps] [.CL_TS_WIN_WPTR] (atChannel n c) s s') ∧
  (∀ (t : Nat) (n : Cluster) (r : StampRec) (rest : List StampRec) (s : State),
    s.stampQ n = r :: rest →
    idxNext (s.rf .CL_TS_WIN_WPTR n.val 0 20) (sizeOr (s.rf .CL_TS_WIN_SIZE n.val 0 20) 1048576) = s.rf .CL_TS_WIN_RPTR n.val 0 20 →
    ∃ s', exec (.stampRecordWrite t n) s = .next s' ∧ s'.stampQ n = rest ∧
      s'.rf .CL_TS_LOST n.val 0 32 = satInc 4294967295 (s.rf .CL_TS_LOST n.val 0 32) ∧ s'.rb .CL_TS_EVT n.val 1 = true ∧
      Frame [.clasp, .stamps] [.CL_TS_LOST, .CL_TS_EVT] (atCluster n) s s')

/-- A START of a unit that is not busy arms a gate from G0, the TSTART pair with TMODE 1, else the first multiple of
8 at least 256 ticks on, with length GLEN; a start too late ends at once with cause 7 (R238). A gate opens at G0; a
STOP ends it with cause 3, or drops a series that waits; its end at G1 has cause 1, writes the result, and in a CONT
series the next gate follows (R242, R243). A read of CH_RG_STAT clears NEW and DONE and latches the result (R245). -/
def Obligations.GatesStartStopAndEnd : Prop :=
  (∀ (t : Nat) (r : Req) (n : Cluster) (c : Channel) (d : Word) (s : State),
    let u := s.at t
    let g0 := if bitOf d 2 then s.pair .CH_RG_TSTART_LO .CH_RG_TSTART_HI (chIx n c) else startGrid u.clasp
    Accepted r .CH_RG_CTRL (chIx n c) (d ||| 1#32) u →
    bitOf d 1 = false →
    s.rb .CH_RG_STAT (chIx n c) 0 = false →
    StartsFree n s →
    u.clasp + 256 ≤ g0 →
    g0 < 2 ^ 64 →
    ∃ s', exec (.rgStart t r n c d) s = .next s' ∧ s'.rb .CH_RG_STAT (chIx n c) 0 = true ∧
      s'.pair .CH_RG_TSTART_LO .CH_RG_TSTART_HI (chIx n c) = g0 ∧
      (s'.chan n c).gate = some (newGate g0 (g0 + rgGlen s (chIx n c)) false) ∧
      Frame [.clasp, .chans] [.CH_RG_CTRL, .CH_RG_STAT, .CH_RG_TSTART_LO, .CH_RG_TSTART_HI, .PWR_CLU_GATE] (atChannel n c) s s') ∧
  (∀ (t : Nat) (r : Req) (n : Cluster) (c : Channel) (d : Word) (s : State),
    let u := s.at t
    Accepted r .CH_RG_CTRL (chIx n c) (d ||| 1#32) u →
    bitOf d 1 = false →
    bitOf d 2 = true →
    s.rb .CH_RG_STAT (chIx n c) 0 = false →
    StartsFree n s →
    s.pair .CH_RG_TSTART_LO .CH_RG_TSTART_HI (chIx n c) < u.clasp + 256 →
    ∃ s', exec (.rgStart t r n c d) s = .next s' ∧ s'.rb .CH_RG_STAT (chIx n c) 0 = false ∧
      s'.rf .CH_RG_STAT (chIx n c) 13 3 = 7 ∧ (s'.chan n c).gate = none ∧ s'.rb .CL_TS_EVT n.val 0 = true ∧
      Frame [.clasp, .chans, .free] (.CH_RG_CTRL :: .PWR_CLU_GATE :: gateRegs) (atChannel n c) s s') ∧
  (∀ (t : Nat) (n : Cluster) (c : Channel) (g : Gate) (s : State),
    (s.chan n c).gate = some g →
    g.g0 ≤ (s.at t).clasp →
    s.rb .CH_RG_STAT (chIx n c) 4 = false →
    ∃ s', exec (.rgGateOpen t n c) s = .next s' ∧
      s'.reg .CH_RG_STAT (chIx n c) = putBit (s.reg .CH_RG_STAT (chIx n c)) 4 true ∧
      (s'.chan n c).gate = some { g with
        waiting := false, blanked := g.blanked || s.rb .CH_CMP_STAT (chIx n c) 4, stale := g.stale || s.rb .CL_TIM_STAT n.val 8 } ∧
      Frame [.clasp, .chans] [.CH_RG_STAT] (atChannel n c) s s') ∧
  (∀ (t : Nat) (r : Req) (n : Cluster) (c : Channel) (d : Word) (g : Gate) (s : State),
    let u := s.at t
    Accepted r .CH_RG_CTRL (chIx n c) (d ||| 2#32) u →
    s.rb .CH_RG_STAT (chIx n c) 0 = true →
    (s.chan n c).gate = some g →
    rgWaits u n c = false →
    ∃ s', exec (.rgStop t r n c d) s = .next s' ∧ GateEnded n c g (if g.g1 ≤ u.clasp then 1 else 3) false s s' ∧
      Frame [.clasp, .chans, .free] (.CH_RG_CTRL :: .PWR_CLU_GATE :: gateRegs) (atChannel n c) s s') ∧
  (∀ (t : Nat) (r : Req) (n : Cluster) (c : Channel) (d : Word) (s : State),
    let u := s.at t
    Accepted r .CH_RG_CTRL (chIx n c) (d ||| 2#32) u →
    s.rb .CH_RG_STAT (chIx n c) 0 = true →
    rgWaits u n c = true →
    ∃ s', exec (.rgStop t r n c d) s = .next s' ∧ (s'.chan n c).gate = none ∧
      s'.reg .CH_RG_STAT (chIx n c) = putBit (s.reg .CH_RG_STAT (chIx n c)) 0 false ∧
      Frame [.clasp, .chans] [.CH_RG_CTRL, .CH_RG_STAT, .PWR_CLU_GATE] (atChannel n c) s s') ∧
  (∀ (t : Nat) (n : Cluster) (c : Channel) (g : Gate) (s : State),
    (s.chan n c).gate = some g →
    g.g1 ≤ (s.at t).clasp →
    ∃ s', exec (.rgGateEnd t n c) s = .next s' ∧ GateEnded n c g 1 (s.rb .CH_RG_CTRL (chIx n c) 3) s s' ∧
      Frame [.clasp, .chans, .free] gateRegs (atChannel n c) s s') ∧
  (∀ (t : Nat) (q : Req) (n : Cluster) (c : Channel) (s : State),
    served (s.at t) q = true →
    pwrState (s.at t) = 2 →
    ∃ s', exec (.rgStatRead t q n c) s = .next s' ∧
      s'.out = .regRead q.val (Reg.addr .CH_RG_STAT (chIx n c)) (s.reg .CH_RG_STAT (chIx n c)) :: s.out ∧
      s'.reg .CH_RG_STAT (chIx n c) = putBit (s.reg .CH_RG_STAT (chIx n c)) 1 false ∧
      s'.reg .CL_TS_DONE n.val = putBit (s.reg .CL_TS_DONE n.val) c.val false ∧
      s'.chan n c = { s.chan n c with rgLatched := true, rgHeld := none } ∧
      (∀ ws, (s.chan n c).rgHeld = some ws → ws.length = 15 → rgRegs.map (fun r => s'.reg r (chIx n c)) = ws) ∧
      ((s.chan n c).rgHeld = none → rgRegs.map (fun r => s'.reg r (chIx n c)) = rgRegs.map (fun r => s.reg r (chIx n c))) ∧
      Frame [.clasp, .chans, .out] (.CH_RG_STAT :: .CL_TS_DONE :: rgRegs) (atChannel n c) s s')

/-! ### Triggers and acquisition (R251 to R276) -/

namespace Sys2Proof.Machine

/-- The records of an interval in progress (R274): one for each channel that gave a sample, channels ascending. -/
def intervalRecords (x : Cpt) (I : Nat) : List (List Word) :=
  (List.range 32).filterMap fun c => (x.acc.find? fun p => decide (p.1 = c)).map fun p =>
    cptRecord (decide (I = 1)) x.mark x.k I c p.2

/-- Sample j of cluster n may be evaluated (R253) and holds the one event x; unit u alone is enabled, rightly configured, and
no unit waits to re-arm. -/
def SampleOf (n : Cluster) (u : Unit8) (j : Nat) (x : TrigEvt) (s : State) : Prop :=
  (s.trig n).nextJ ≤ j ∧ 8 * j + 112 ≤ s.clasp ∧ (s.trig n).evts = [x] ∧ x.time / 8 = j ∧
  trgEn s n u.val = true ∧ trgCfgErr s n u.val = false ∧
  (∀ v : Unit8, v ≠ u → trgEn s n v.val = false) ∧ (∀ v : Unit8, trgDead s n v.val = false) ∧
  (tunit (s.trig n) u.val).changes = [] ∧ (s.trig n).queue.length < 32

/-- Event x of sample j makes unit u, whose condition follows events, qualify with q (R254 to R259). -/
def Qualifies (n : Cluster) (u : Unit8) (x : TrigEvt) (q : Qual) (s : State) : Prop :=
  trgCond s n u.val ≠ 1 ∧ trgCond s n u.val ≠ 4 ∧ trgCond s n u.val ≠ 7 ∧
  (unitEvent s n u.val (trigOutputs (s.trig n) x) (tunit (s.trig n) u.val) x).2 = some q

/-- The registers that the actions of firings reach beside the units' own (R267). -/
def actRegs : List Reg :=
  [.SEM_DENIED, .SEM_EVT, .RING_TLOST, .RING_EVT, .CL_CAL_STAT, .CL_CAL_EVT, .CL_CAP_T0_LO, .CL_CAP_T0_HI, .CL_CAP_STAT,
   .CL_CAP_ICNT, .CL_CAP_EVT]

end Sys2Proof.Machine

/-- Sample j is evaluated once 8j + 112 has come. A unit that qualifies in it while armed fires: its count and event,
one record with the sample's number, MEAS, dead time and vector, its arming, and the actions that CL_TRG_ACT selects,
at A = 8j + 112: ARM and DISARM of units, a WTRIG that names the unit, its ring line. A qualification of a unit that
is not armed is missed where AUTO is 1, and nothing where it is 0. -/
def Obligations.TriggersFireWhereTheyQualify : Prop :=
  (∀ (t : Nat) (n : Cluster) (u : Unit8) (j : Nat) (x : TrigEvt) (q : Qual) (s : State),
    let v := tunit (s.trig n) u.val
    let act := s.reg .CL_TRG_ACT (trgIx n u.val)
    SampleOf n u j x (s.at t) →
    Qualifies n u x q s →
    v.armed = true →
    ∃ s', exec (.triggerEvaluate t n j) s = .next s' ∧ (s'.trig n).nextJ = j + 1 ∧
      s'.rf .CL_TRG_FIRECNT (trgIx n u.val) 0 32 = satInc 4294967295 (s.rf .CL_TRG_FIRECNT (trgIx n u.val) 0 32) ∧
      s'.rb .CL_TRG_EVT n.val u.val = true ∧
      (s'.trig n).queue = (s.trig n).queue ++ [⟨j, (s.reg .CL_TRG_RECNO n.val).toNat,
        [(u.val, (q.2.1, ((deadOf v).1, (q.1, q.2.2))))], (s.trig n).missed, false, (deadOf v).2, vecAt s n j⟩] ∧
      s'.reg .CL_TRG_RECNO n.val = s.reg .CL_TRG_RECNO n.val + 1#32 ∧
      (bitOf act (16 + u.val) = false → bitOf act (24 + u.val) = false →
        s'.rf .CL_TRG_USTAT (trgIx n u.val) 0 2 = 2 * b2n (trgAuto s n u.val)) ∧
      (∀ k : Unit8, bitOf act (16 + k.val) = true → s'.rf .CL_TRG_USTAT (trgIx n k.val) 0 2 = 0) ∧
      (∀ k : Unit8, bitOf act (16 + k.val) = false → bitOf act (24 + k.val) = true → s'.rf .CL_TRG_USTAT (trgIx n k.val) 0 2 = 1) ∧
      (bitOf act 11 = true → ringState s = 3 → s.rb .RING_LINE_TX 0 (fld act 8 3) = true →
        (s.sem (2 + fld act 8 3)).holder.map (·.1) = some (8 + n.val) →
        (s.ring.lines.filter fun y => decide (y.1 = fld act 8 3)).length < 8 →
        s'.ring.lines = s.ring.lines ++ [(fld act 8 3, (8 * j + 112 + s.rf .RING_TLEAD 0 0 18, 8 * j + 112))]) ∧
      Frame [.clasp, .chans, .seqs, .trigs, .cpts, .awgs, .ring, .cal]
        (.CL_TRG_MISSED :: .CL_TRG_FIRECNT :: .CL_TRG_USTAT :: .CL_TRG_RECNO :: .CL_TRG_EVT :: actRegs) atAll s s') ∧
  (∀ (t : Nat) (n : Cluster) (u : Unit8) (j un lim : Nat) (src : PAddr) (rest : List QEntry) (w : Wait) (x : TrigEvt) (q : Qual) (s : State),
    SampleOf n u j x (s.at t) →
    Qualifies n u x q s →
    (tunit (s.trig n) u.val).armed = true →
    (s.seq n).wait = some w →
    (s.seq n).q = .wtrig src un lim :: rest →
    un / 2 ^ u.val % 2 = 1 →
    w.fired = none →
    w.start ≤ 8 * j + 176 →
    ∃ s', exec (.triggerEvaluate t n j) s = .next s' ∧ (s'.seq n).wait = some { w with fired := some (8 * j + 176) } ∧
      (s'.seq n).q = (s.seq n).q ∧
      Frame [.clasp, .chans, .seqs, .trigs, .cpts, .awgs, .ring, .cal]
        (.CL_TRG_MISSED :: .CL_TRG_FIRECNT :: .CL_TRG_USTAT :: .CL_TRG_RECNO :: .CL_TRG_EVT :: actRegs) atAll s s') ∧
  (∀ (t : Nat) (n : Cluster) (u : Unit8) (j : Nat) (x : TrigEvt) (q : Qual) (s : State),
    SampleOf n u j x (s.at t) →
    Qualifies n u x q s →
    (tunit (s.trig n) u.val).armed = false →
    ∃ s', exec (.triggerEvaluate t n j) s = .next s' ∧ (s'.trig n).nextJ = j + 1 ∧ (s'.trig n).queue = (s.trig n).queue ∧
      (s'.trig n).missed = ((s.trig n).missed || trgAuto s n u.val) ∧
      (if trgAuto s n u.val then
        s'.rf .CL_TRG_MISSED (trgIx n u.val) 0 32 = satInc 4294967295 (s.rf .CL_TRG_MISSED (trgIx n u.val) 0 32) ∧
        s'.rb .CL_TRG_EVT n.val 17 = true ∧ Frame [.clasp, .trigs] [.CL_TRG_MISSED, .CL_TRG_EVT] (atCluster n) s s'
      else Frame [.clasp, .trigs] [] (atCluster n) s s')) ∧
  (∀ (t : Nat) (r : Req) (n : Cluster) (u : Unit8) (d : Word) (s : State),
    Accepted r .CL_TRG_CTRL (trgIx n u.val) (d ||| 1#32) (s.at t) →
    bitOf d 1 = false →
    ∃ s', exec (.triggerArm t r n u d) s = .next s' ∧ s'.rf .CL_TRG_USTAT (trgIx n u.val) 0 2 = 1 ∧
      (tunit (s'.trig n) u.val).changes = (tunit (s.trig n) u.val).changes ++ [((s.at t).clasp / 8 + 1, true)] ∧
      Frame [.clasp, .trigs] [.CL_TRG_USTAT, .PWR_CLU_GATE] (atCluster n) s s') ∧
  (∀ (t : Nat) (r : Req) (n : Cluster) (u : Unit8) (d : Word) (s : State),
    Accepted r .CL_TRG_CTRL (trgIx n u.val) (d ||| 2#32) (s.at t) →
    ∃ s', exec (.triggerDisarm t r n u d) s = .next s' ∧ s'.rf .CL_TRG_USTAT (trgIx n u.val) 0 2 = 0 ∧
      (tunit (s'.trig n) u.val).changes = (tunit (s.trig n) u.val).changes ++ [((s.at t).clasp / 8 + 1, false)] ∧
      Frame [.clasp, .trigs] [.CL_TRG_USTAT, .PWR_CLU_GATE] (atCluster n) s s') ∧
  (∀ (t : Nat) (n : Cluster) (u : Unit8) (f : Nat) (s : State),
    let b := rearmStart s n u.val f
    (tunit (s.trig n) u.val).fired = some f →
    trgDead s n u.val = true →
    trgAuto s n u.val = true →
    trgFull (s.trig n) = false →
    b ≤ 8 * (((s.at t).clasp - 112) / 8) →
    ∃ s', exec (.triggerRearm t n u) s = .next s' ∧ s'.rf .CL_TRG_USTAT (trgIx n u.val) 0 2 = 1 ∧
      (tunit (s'.trig n) u.val).armed = true ∧ (tunit (s'.trig n) u.val).rearmed = some b ∧
      Frame [.clasp, .trigs] [.CL_TRG_USTAT] (atCluster n) s s') ∧
  (∀ (t : Nat) (n : Cluster) (r : TrigRec) (rest : List TrigRec) (s : State),
    let w := s.rf .CL_TRG_WIN_WPTR n.val 0 16
    let a := s.rf .CL_TRG_WIN_BASE n.val 7 19 * 128 + w * 128
    (s.trig n).queue = r :: rest →
    trgWinFull s n = false →
    ((s.trig n).turn = false ∨ (s.seq n).log = []) →
    streamServed s n 0 false a 128 = true →
    memAdmits s (.cluster n 0) false a 128 = true →
    ∃ s', exec (.triggerRecordWrite t n) s = .next s' ∧ Written a (trigBytes r) s s' ∧ (s'.trig n).queue = rest ∧
      s'.rf .CL_TRG_WIN_WPTR n.val 0 16 = idxNext w (sizeOr (s.rf .CL_TRG_WIN_SIZE n.val 0 16) 65536) ∧ (s'.trig n).turn = true ∧
      Frame [.clasp, .mem, .trigs] [.CL_TRG_WIN_WPTR] (atCluster n) s s')

/-- EDGE of a comparator qualifies at an edge of the selected polarity; WIDTH at the edge that closes a pulse of the
selected polarity whose width satisfies REL; RUNT where the comparator that opened it closes it, SLEW where the other
completes it, in the selected polarity and within REL; MATCH where the masked outputs enter or leave the match. Each
names its event time and MEAS (R254 to R259). -/
def Obligations.TriggerConditionsQualify : Prop :=
  (∀ (n : Cluster) (u : Unit8) (o : Trig) (v : TUnit) (low up : Bool) (c e : Nat) (s : State),
    let pol := trgPol s n u.val
    let x : TrigEvt := .edge c low up e
    trgKind s n u.val = 0 →
    c = trgCh s n u.val →
    (trgCond s n u.val = 0 → low = trgLow s n u.val →
        (unitEvent s n u.val o v x).2 = if pol = 2 ∨ pol = b2n (!up) then some (e, (0, !up)) else none) ∧
      (trgCond s n u.val = 2 → low = trgLow s n u.val → ∀ p ∈ v.opening.toList,
        (unitEvent s n u.val o v x).2 =
          if p.2 ≠ up ∧ (pol = 2 ∨ pol = b2n (!p.2)) ∧ relOk s n u.val (e - p.1) then some (e, (e - p.1, !p.2)) else none) ∧
      (trgCond s n u.val = 3 → ∀ p ∈ v.opening.toList,
        (unitEvent s n u.val o v x).2 =
          if low = p.2 ∧ up ≠ p.2 ∧ (pol = 2 ∨ pol = b2n (!p.2)) ∧ relOk s n u.val (e - p.1) then some (e, (e - p.1, !p.2)) else none) ∧
      (trgCond s n u.val = 5 → ∀ p ∈ v.opening.toList,
        (unitEvent s n u.val o v x).2 =
          if low ≠ p.2 ∧ up = p.2 ∧ (pol = 2 ∨ pol = b2n (!p.2)) ∧ relOk s n u.val (e - p.1) then some (e, (e - p.1, !p.2)) else none)) ∧
  (∀ (n : Cluster) (u : Unit8) (o : Trig) (v : TUnit) (x : TrigEvt) (s : State),
    let m := matchNow s n u.val o.outH o.outL
    trgCond s n u.val = 6 →
    (unitEvent s n u.val o v x).1.high = m ∧
      (unitEvent s n u.val o v x).2 =
        if (m ≠ v.high ∧ (trgPol s n u.val = 2 ∨ trgPol s n u.val = b2n (!m))) then some (x.time, (0, !m)) else none) ∧
  (∀ (n : Cluster) (u : Unit8) (m : Nat) (s : State),
    relOk s n u.val m = (match trgRel s n u.val with
        | 0 => true
        | 1 => decide (m < (s.reg .CL_TRG_LIMA (trgIx n u.val)).toNat)
        | 2 => decide ((s.reg .CL_TRG_LIMA (trgIx n u.val)).toNat < m)
        | _ => decide ((s.reg .CL_TRG_LIMA (trgIx n u.val)).toNat ≤ m ∧ m ≤ (s.reg .CL_TRG_LIMB (trgIx n u.val)).toNat)))

/-- A START of an engine that does not run starts it at the first MEAS edge at or after now, interval 0; a STOP sets
the stop point in the interval that contains now (R272, R273). At an interval's end one record for each channel that
gave a sample is queued, in channel order, with its minimum, maximum, overrange, incomplete and mark flags; at the
stop point the engine stops (R273, R274). The oldest record goes to its window, or is lost where it does not fit
(R275). -/
def Obligations.CaptureEnginesCapture : Prop :=
  (∀ (t : Nat) (r : Req) (n : Cluster) (e : Fin 2) (d : Word) (s : State),
    let b := ((s.at t).clasp + 31) / 32 * 32
    Accepted r .CL_CAP_CTRL (awgIx n e) (d ||| 1#32) (s.at t) →
    bitOf d 1 = false →
    fld d 6 2 ≠ 3 →
    cptRun s n e = false →
    StartsFree n s →
    b < 2 ^ 64 →
    ∃ s', exec (.captureStart t r n e d) s = .next s' ∧ s'.reg .CL_CAP_STAT (awgIx n e) = 1#32 ∧
      s'.reg .CL_CAP_ICNT (awgIx n e) = 0#32 ∧ s'.pair .CL_CAP_T0_LO .CL_CAP_T0_HI (awgIx n e) = b ∧
      s'.cpt n e = { t0 := b, k := 0, acc := [], mark := false, stopK := none, queue := (s.cpt n e).queue } ∧
      Frame [.clasp, .cpts] [.CL_CAP_CTRL, .CL_CAP_STAT, .CL_CAP_ICNT, .CL_CAP_T0_LO, .CL_CAP_T0_HI, .PWR_CLU_GATE] (atCluster n) s s') ∧
  (∀ (t : Nat) (r : Req) (n : Cluster) (e : Fin 2) (d : Word) (s : State),
    let u := s.at t
    let x := s.cpt n e
    let k := if cptEndOf s n e x.k ≤ u.clasp then (u.clasp - x.t0) / (cptI s n e * convTicks) else x.k
    Accepted r .CL_CAP_CTRL (awgIx n e) (d ||| 2#32) u →
    bitOf d 0 = false →
    cptRun s n e = true →
    x.stopK = none →
    ∃ s', exec (.captureStop t r n e d) s = .next s' ∧ (s'.cpt n e).stopK = some k ∧ (s'.cpt n e).k = k ∧
      s'.rb .CL_CAP_STAT (awgIx n e) 1 = true ∧ cptRun s' n e = true ∧
      Frame [.clasp, .cpts] [.CL_CAP_CTRL, .CL_CAP_STAT, .CL_CAP_ICNT, .CL_CAP_EVT, .PWR_CLU_GATE] (atCluster n) s s') ∧
  (∀ (t : Nat) (n : Cluster) (e : Fin 2) (s : State),
    let x := s.cpt n e
    let ix := awgIx n e
    cptRun s n e = true →
    cptEndOf s n e x.k ≤ (s.at t).clasp →
    (s.at t).clasp < cptEndOf s n e (x.k + 1) →
    ∃ s', exec (.captureIntervalEnd t n e) s = .next s' ∧
      s'.rf .CL_CAP_ICNT ix 0 32 = satInc 4294967295 (s.rf .CL_CAP_ICNT ix 0 32) ∧
      s'.cpt n e = { x with
        k := x.k + 1, acc := [], mark := false, queue := x.queue ++ intervalRecords x (cptI s n e),
        stopK := if x.stopK = some x.k then none else x.stopK } ∧
      s'.reg .CL_CAP_STAT ix = (if x.stopK = some x.k then s.reg .CL_CAP_STAT ix &&& 0xFFFFFFFC#32 else s.reg .CL_CAP_STAT ix) ∧
      s'.reg .CL_CAP_EVT n.val = (if x.stopK = some x.k then putBit (s.reg .CL_CAP_EVT n.val) e.val true else s.reg .CL_CAP_EVT n.val) ∧
      Frame [.clasp, .cpts] [.CL_CAP_STAT, .CL_CAP_ICNT, .CL_CAP_EVT] (atCluster n) s s') ∧
  (∀ (t : Nat) (n : Cluster) (e : Fin 2) (r : List Word) (rest : List (List Word)) (s : State),
    let ix := awgIx n e
    let w := s.rf .CL_CAP_WIN_WPTR ix 0 20
    let z := max 1 (cptSize s n e (decide (r.length = 2)))
    let a := s.rf .CL_CAP_WIN_BASE ix 3 23 * 8 + 4 * w
    (s.cpt n e).queue = r :: rest →
    cptFull s n e r.length = false →
    streamServed s n (if e = 0 then 4 else 5) false a (4 * r.length) = true →
    memAdmits s (.cluster n (if e = 0 then 4 else 5)) false a (4 * r.length) = true →
    ∃ s', exec (.captureRecordWrite t n e) s = .next s' ∧ Written a (r.flatMap fun v => leBytes 4 v.toNat) s s' ∧
      (s'.cpt n e).queue = rest ∧ s'.rf .CL_CAP_WIN_WPTR ix 0 20 = (w + r.length) % z ∧
      (z ≤ w + r.length → s.rb .CL_CAP_CTRL ix 2 = true → s'.rb .CL_CAP_STAT ix 2 = true ∧
        (s.rb .CL_CAP_STAT ix 2 = false → s'.rb .CL_CAP_EVT n.val (4 + e.val) = true)) ∧
      Frame [.clasp, .mem, .cpts] [.CL_CAP_WIN_WPTR, .CL_CAP_STAT, .CL_CAP_EVT] (atCluster n) s s') ∧
  (∀ (t : Nat) (n : Cluster) (e : Fin 2) (r : List Word) (rest : List (List Word)) (s : State),
    (s.cpt n e).queue = r :: rest →
    cptFull s n e r.length = true →
    ∃ s', exec (.captureRecordWrite t n e) s = .next s' ∧ s'.cpt n e = { s.cpt n e with queue := rest } ∧
      s'.rf .CL_CAP_LOST (awgIx n e) 0 32 = satInc 4294967295 (s.rf .CL_CAP_LOST (awgIx n e) 0 32) ∧
      s'.rb .CL_CAP_EVT n.val (2 + e.val) = true ∧ Frame [.clasp, .cpts] [.CL_CAP_LOST, .CL_CAP_EVT] (atCluster n) s s')

/-! ### Arbitrary waveform generators (R278 to R302) -/

namespace Sys2Proof.Machine

/-- The tick at which the pass in play ends, and the tick of its commit point (R288). -/
def passStop (a : Awg) : Nat := a.start + 20 * (32 * entLen a.hi)
def passCommit (a : Awg) : Nat := a.start + 20 * (32 * entLen a.hi - 64)

/-- The generator plays segments (R288): it is in RUN and not in DDS mode. -/
def PlaysSegments (n : Cluster) (g : Fin 2) (s : State) : Prop := awgState s n g = 2 ∧ awgDds s n g = false

/-- No jump request on its way arrives in a sample that begins before tick b. -/
def NoJumpBefore (n : Cluster) (g : Fin 2) (b : Nat) (s : State) : Prop := ∀ j ∈ (s.awg n g).coming, b ≤ j.at_ / 20 * 20

/-- The generator is held by no stop that is due at tick b. -/
def NoStopBy (n : Cluster) (g : Fin 2) (b : Nat) (s : State) : Prop := ∀ x ∈ (s.awg n g).stopAt.toList, b < x

/-- The decided pass of entry e has begun at tick b (R288). -/
def PassBegun (n : Cluster) (g : Fin 2) (b e : Nat) (lo hi : Word) (left : Nat) (s' : State) : Prop :=
  (s'.awg n g).start = b ∧ (s'.awg n g).entry = e ∧ (s'.awg n g).lo = lo ∧ (s'.awg n g).hi = hi ∧ (s'.awg n g).left = left ∧
  (s'.awg n g).next = none ∧ (s'.awg n g).pos = 0 ∧ s'.rf .CL_AWG_STAT (awgIx n g) 16 10 = e % 1024

/-- The generator has stopped (R292): IDLE, END, nothing pending, its clear code out, or with ENDMODE 1 its last sample. -/
def GenStopped (n : Cluster) (g : Fin 2) (s s' : State) : Prop :=
  awgState s' n g = 0 ∧ s'.rb .CL_AWG_EVT (awgIx n g) 0 = true ∧ (s'.awg n g).jump = none ∧ (s'.awg n g).next = none ∧
  (s'.awg n g).out = (if s.rb .CL_AWG_CTRL (awgIx n g) 4 then (s.awg n g).lastX else clearCode s n g)

/-- The registers that a generator's output can change (R279, R282, R294, R295). -/
def genRegs : List Reg := [.CH_EVT, .CL_AWG_STAT, .CL_AWG_JLOST, .CL_AWG_EVT]

end Sys2Proof.Machine

/-- A START of an idle generator arms it for T0 with its first entry loaded, or names the error (R291); at T0 it
runs. A STOP cancels an armed start, or stops a running generator at the sample boundary at or after its arrival
(R292). AWG_CLR# puts every generator into CLEAR with its clear code, and its release leaves them IDLE (R299). The
AUX current limit shows, after 800,000 ticks turns the pin off with a corrected fault message, and AUX_RECON
reconnects it (R283). -/
def Obligations.GeneratorsStartStopAndClear : Prop :=
  (∀ (t : Nat) (r : Req) (n : Cluster) (g : Fin 2) (d : Word) (s : State),
    let u := s.at t
    let b := if bitOf d 2 then (s.pair .CL_AWG_TSTART_LO .CL_AWG_TSTART_HI (awgIx n g) + 19) / 20 * 20 else awgGrid u.clasp
    let x := awgEntry s n g (fld d 16 10)
    Accepted r .CL_AWG_CTRL (awgIx n g) (d ||| 1#32) u →
    awgState s n g = 0 →
    govLevel s n < 2 →
    calIntrOn s n = false →
    asyBusy s n = false →
    calStepOn s n = false →
    u.clasp + 2560 ≤ b →
    (bitOf d 3 = true ∨ entOk x.1 x.2 = true) →
    ∃ s', exec (.awgStart t r n g d) s = .next s' ∧ awgState s' n g = 1 ∧
      s'.awg n g = { s.awg n g with
        t0 := b, start := b, entry := fld d 16 10, lo := x.1, hi := x.2, left := entRep x.1, next := none, jump := none, fifo := [],
        pos := 0, fetchAt := entAddr x.1, fetchLeft := entLen x.2, refused := false, stopAt := none } ∧
      Frame [.clasp, .awgs] [.CL_AWG_CTRL, .CL_AWG_STAT, .PWR_CLU_GATE] (atCluster n) s s') ∧
  (∀ (t : Nat) (r : Req) (n : Cluster) (g : Fin 2) (d : Word) (s : State),
    let u := s.at t
    let late := bitOf d 2 && decide ((s.pair .CL_AWG_TSTART_LO .CL_AWG_TSTART_HI (awgIx n g) + 19) / 20 * 20 < u.clasp + 2560)
    let x := awgEntry s n g (fld d 16 10)
    Accepted r .CL_AWG_CTRL (awgIx n g) (d ||| 1#32) u →
    awgState s n g = 0 →
    calIntrOn s n = false →
    asyBusy s n = false →
    calStepOn s n = false →
    (2 ≤ govLevel s n ∨ late = true ∨ (bitOf d 3 = false ∧ entOk x.1 x.2 = false)) →
    ∃ s', exec (.awgStart t r n g d) s = .next s' ∧ awgState s' n g = 0 ∧
      s'.rf .CL_AWG_STAT (awgIx n g) 8 4 = (if 2 ≤ govLevel s n then 4 else if late then 1 else 2) ∧
      s'.rb .CL_AWG_EVT (awgIx n g) 4 = true ∧
      Frame [.clasp] [.CL_AWG_CTRL, .CL_AWG_STAT, .CL_AWG_EVT, .PWR_CLU_GATE] (atCluster n) s s') ∧
  (∀ (t : Nat) (n : Cluster) (g : Fin 2) (s : State),
    awgState s n g = 1 →
    (s.awg n g).t0 ≤ (s.at t).clasp →
    ∃ s', exec (.awgRunStart t n g) s = .next s' ∧ awgState s' n g = 2 ∧
      s'.rf .CL_AWG_STAT (awgIx n g) 16 10 = (s.awg n g).entry % 1024 ∧ Frame [.clasp] [.CL_AWG_STAT] (atCluster n) s s') ∧
  (∀ (t : Nat) (r : Req) (n : Cluster) (g : Fin 2) (d : Word) (s : State),
    Accepted r .CL_AWG_CTRL (awgIx n g) (d ||| 2#32) (s.at t) →
    bitOf d 0 = false →
    (awgState s n g = 1 ∨ awgState s n g = 2) →
    ∃ s', exec (.awgStop t r n g d) s = .next s' ∧
      (if awgState s n g = 1 then awgState s' n g = 0 ∧ s'.rb .CL_AWG_EVT (awgIx n g) 0 = true ∧ (s'.awg n g).jump = none
       else awgState s' n g = 2 ∧ s'.awg n g = { s.awg n g with stopAt := some (((s.at t).clasp + 59) / 20 * 20) }) ∧
      Frame [.clasp, .awgs] [.CL_AWG_CTRL, .CL_AWG_STAT, .CL_AWG_JLOST, .CL_AWG_EVT, .PWR_CLU_GATE] (atCluster n) s s') ∧
  (∀ (t : Nat) (n : Cluster) (g : Fin 2) (s : State),
    ∃ s', exec (.awgClrAssert t) s = .next s' ∧ awgState s' n g = 3 ∧ clrPin s' n g = true ∧
      s'.rf .CL_AWG_STAT (awgIx n g) 8 4 = 6 ∧ s'.rb .CL_AWG_EVT (awgIx n g) 8 = true ∧
      (s'.awg n g).out = clearCode s n g ∧ (s'.awg n g).next = none ∧ (s'.awg n g).jump = none ∧
      Frame [.clasp, .awgs] genRegs atAll s s') ∧
  (∀ (t : Nat) (n : Cluster) (g : Fin 2) (s : State),
    clrPin s n g = true →
    ∃ s', exec (.awgClrRelease t) s = .next s' ∧ awgState s' n g = 0 ∧ clrPin s' n g = false ∧
      Frame [.clasp] [.CL_AWG_STAT] atAll s s') ∧
  (∀ (t : Nat) (n : Cluster) (g : Fin 2) (s : State),
    auxDriven s n g = true →
    s.rb .CL_AWG_STAT (awgIx n g) 5 = false →
    ∃ s', exec (.auxCurrentLimit t n g) s = .next s' ∧
      s'.reg .CL_AWG_STAT (awgIx n g) = putBit (s.reg .CL_AWG_STAT (awgIx n g)) 5 true ∧
      s'.reg .CL_AWG_EVT (awgIx n g) = putBit (s.reg .CL_AWG_EVT (awgIx n g)) 6 true ∧
      s'.awg n g = { s.awg n g with scSince := some (s.at t).clasp } ∧
      Frame [.clasp, .awgs] [.CL_AWG_STAT, .CL_AWG_EVT] (atCluster n) s s') ∧
  (∀ (t : Nat) (n : Cluster) (g : Fin 2) (x : Nat) (s : State),
    (s.awg n g).scSince = some x →
    auxDriven s n g = true →
    x + 800000 ≤ (s.at t).clasp →
    ∃ s', exec (.auxScTimeout t n g) s = .next s' ∧ auxDriven s' n g = false ∧ s'.rf .CL_AWG_STAT (awgIx n g) 5 2 = 2 ∧
      s'.rb .CL_AWG_EVT (awgIx n g) 7 = true ∧ s'.awg n g = { s.awg n g with scSince := none } ∧
      s'.msgs = s.msgs ++ (if cluRetired s n then [] else [⟨44 * n.val + 40 + g.val, 4, 0, 2 * n.val + g.val⟩]) ∧
      Frame [.clasp, .awgs, .msgs] [.CL_AWG_STAT, .CL_AWG_EVT] (atCluster n) s s') ∧
  (∀ (t : Nat) (r : Req) (n : Cluster) (g : Fin 2) (d : Word) (s : State),
    Accepted r .CL_AWG_CTRL (awgIx n g) (d ||| 32#32) (s.at t) →
    fld d 0 2 = 0 →
    ∃ s', exec (.auxRecon t r n g d) s = .next s' ∧
      s'.reg .CL_AWG_STAT (awgIx n g) = putBit (s.reg .CL_AWG_STAT (awgIx n g)) 6 false ∧
      Frame [.clasp] [.CL_AWG_CTRL, .CL_AWG_STAT, .PWR_CLU_GATE] (atCluster n) s s')

/-- A fetch takes the next 64 bytes of the segment, or a refused read ends it (R290). At the commit point a pending
jump, else a repeat, else END, else NEXT decides the pass that follows (R288); it begins at the pass's end, a jump
with its count and time (R294), or the generator stops. A jump request arrives 40 ticks later (R293). A write of
TDATA_HI writes the entry at TIDX (R287); DDS writes are held, or on their way (R298). A sample boundary puts out the
next sample, the DDS sample, or the code of R292. -/
def Obligations.GeneratorsPlayAndJump : Prop :=
  (∀ (t : Nat) (n : Cluster) (g : Fin 2) (s : State),
    let a := fetchTurn (s.awg n g)
    let k : Fin 6 := if g = 0 then 2 else 3
    (awgState s n g = 1 ∨ awgState s n g = 2) →
    awgDds s n g = false →
    a.refused = false →
    a.fifo.length ≤ 32 →
    0 < a.fetchLeft →
    streamServed s n k false a.fetchAt 64 = true →
    ∃ s', exec (.awgFetch t n g) s = .next s' ∧
      (if memAdmits s (.cluster n k) false a.fetchAt 64 then
        s'.awg n g = { a with
          fifo := a.fifo ++ samplesOf (s.bytes a.fetchAt 64), fetchAt := a.fetchAt + 64, fetchLeft := a.fetchLeft - 1 } ∧
        Frame [.clasp, .awgs] [] (atCluster n) s s'
       else s'.awg n g = { a with refused := true } ∧
        Frame [.clasp, .awgs, .msgs] [.MP_EVT, .MP_REFUSE_CNT, .MP_REFUSE_ADDR, .MP_REFUSE_INFO] (atCluster n) s s')) ∧
  (∀ (t : Nat) (n : Cluster) (g : Fin 2) (s : State),
    let a := s.awg n g
    let x := awgEntry s n g (entNext a.hi)
    PlaysSegments n g s →
    a.next = none →
    passCommit a ≤ (s.at t).clasp →
    NoJumpBefore n g (passCommit a) s →
    ∃ s', exec (.awgCommitPoint t n g) s = .next s' ∧
      (∀ j, a.jump = some j →
        (if entOk (awgEntry s n g j.target).1 (awgEntry s n g j.target).2 then
          (s'.awg n g).next = some (.pass j.target (awgEntry s n g j.target).1 (awgEntry s n g j.target).2
            (entRep (awgEntry s n g j.target).1) (some j.late)) ∧ (s'.awg n g).jump = none ∧ s'.rb .CL_AWG_STAT (awgIx n g) 3 = false
         else (s'.awg n g).next = some (.stop true))) ∧
      (a.jump = none → s'.awg n g = { a with
        next := some (if 0 < a.left then .pass a.entry a.lo a.hi (a.left - 1) none else if entEnd a.hi then .stop false
          else if entOk x.1 x.2 then .pass (entNext a.hi) x.1 x.2 (entRep x.1) none else .stop true) }) ∧
      Frame [.clasp, .awgs] [.CL_AWG_STAT] (atCluster n) s s') ∧
  (∀ (t : Nat) (n : Cluster) (g : Fin 2) (j : AwgJump) (s : State),
    let a := s.awg n g
    let x := awgEntry s n g j.target
    PlaysSegments n g s →
    a.next = none →
    passCommit a ≤ (s.at t).clasp →
    a.coming = [j] →
    a.jump = none →
    j.at_ / 20 * 20 < passCommit a →
    entOk x.1 x.2 = true →
    ∃ s', exec (.awgCommitPoint t n g) s = .next s' ∧
      (s'.awg n g).next = some (.pass j.target x.1 x.2 (entRep x.1) (some false)) ∧ (s'.awg n g).coming = [] ∧
      (s'.awg n g).jump = none ∧ Frame [.clasp, .awgs] [.CL_AWG_STAT] (atCluster n) s s') ∧
  (∀ (t : Nat) (n : Cluster) (g : Fin 2) (e left : Nat) (lo hi : Word) (jump : Option Bool) (s : State),
    let a := s.awg n g
    PlaysSegments n g s →
    passStop a ≤ (s.at t).clasp →
    a.next = some (.pass e lo hi left jump) →
    NoJumpBefore n g (passStop a) s →
    NoStopBy n g (passStop a) s →
    (a.refused = false ∨ 32 * entLen a.hi - a.pos ≤ a.fifo.length) →
    passStop a < 2 ^ 64 →
    ∃ s', exec (.awgPassEnd t n g) s = .next s' ∧ PassBegun n g (passStop a) e lo hi left s' ∧
      (s'.awg n g).fifo = a.fifo.drop (32 * entLen a.hi - a.pos) ∧
      (∀ late, jump = some late →
        s'.rf .CL_AWG_JCNT (awgIx n g) 0 32 = satInc 4294967295 (s.rf .CL_AWG_JCNT (awgIx n g) 0 32) ∧
        s'.pair .CL_AWG_TJUMP_LO .CL_AWG_TJUMP_HI (awgIx n g) = passStop a ∧ s'.rb .CL_AWG_EVT (awgIx n g) 1 = true ∧
        s'.rb .CL_AWG_STAT (awgIx n g) 4 = late ∧ s'.rb .CL_AWG_EVT (awgIx n g) 2 = (s.rb .CL_AWG_EVT (awgIx n g) 2 || late)) ∧
      (jump = none → s'.reg .CL_AWG_JCNT (awgIx n g) = s.reg .CL_AWG_JCNT (awgIx n g) ∧
        s'.reg .CL_AWG_EVT (awgIx n g) = s.reg .CL_AWG_EVT (awgIx n g)) ∧
      Frame [.clasp, .awgs] [.CL_AWG_STAT, .CL_AWG_JCNT, .CL_AWG_TJUMP_LO, .CL_AWG_TJUMP_HI, .CL_AWG_EVT] (atCluster n) s s') ∧
  (∀ (t : Nat) (n : Cluster) (g : Fin 2) (bad : Bool) (s : State),
    let a := s.awg n g
    PlaysSegments n g s →
    passStop a ≤ (s.at t).clasp →
    a.next = some (.stop bad) →
    NoJumpBefore n g (passStop a) s →
    NoStopBy n g (passStop a) s →
    (a.refused = false ∨ 32 * entLen a.hi - a.pos ≤ a.fifo.length) →
    ∃ s', exec (.awgPassEnd t n g) s = .next s' ∧ GenStopped n g s s' ∧
      (bad = true → s'.rf .CL_AWG_STAT (awgIx n g) 8 4 = 2 ∧ s'.rb .CL_AWG_EVT (awgIx n g) 4 = true) ∧
      Frame [.clasp, .awgs] genRegs (atCluster n) s s') ∧
  (∀ (t : Nat) (r : Req) (n : Cluster) (g : Fin 2) (d : Word) (s : State),
    Accepted r .CL_AWG_JUMP (awgIx n g) (d ||| 0x80000000#32) (s.at t) →
    ∃ s', exec (.awgJumpRequest t r n g d) s = .next s' ∧
      s'.awg n g = { s.awg n g with coming := insertJump ⟨(s.at t).clasp + 40, fld d 0 10, false, false⟩ (s.awg n g).coming } ∧
      Frame [.clasp, .awgs] [.CL_AWG_JUMP, .PWR_CLU_GATE] (atCluster n) s s') ∧
  (∀ (t : Nat) (r : Req) (n : Cluster) (g : Fin 2) (d : Word) (s : State),
    let i := s.rf .CL_AWG_TIDX (awgIx n g) 0 10
    Accepted r .CL_AWG_TDATA_HI (awgIx n g) d (s.at t) →
    ∃ s', exec (.awgTableWrite t r n g d) s = .next s' ∧ awgEntry s' n g i = ((s.awg n g).tdLo, d) ∧
      (∀ k : Nat, k < 1024 → k ≠ i → awgEntry s' n g k = awgEntry s n g k) ∧
      s'.reg .CL_AWG_TIDX (awgIx n g) = BitVec.ofNat 32 ((i + 1) % 1024) ∧
      Frame [.clasp, .awgTab] [.CL_AWG_TIDX, .PWR_CLU_GATE] (atCluster n) s s') ∧
  (∀ (t : Nat) (r : Req) (n : Cluster) (g : Fin 2) (w : DdsReg) (d : Word) (s : State),
    let ix := awgIx n g
    let a := s.awg n g
    let x := (s.at t).clasp + 40
    Accepted r (ddsReg w) (awgIx n g) d (s.at t) →
    ∃ s', exec (.ddsRegWrite t r n g w d) s = .next s' ∧
      (w = .ftwLo → s'.awg n g = { a with ftwLo := d }) ∧
      (w = .poffLo → s'.awg n g = { a with poffLo := d }) ∧
      (w = .ftwHi → s'.reg .CL_AWG_FTW_LO ix = a.ftwLo ∧ s'.rf .CL_AWG_FTW_HI ix 0 16 = fld d 0 16 ∧
        s'.awg n g = { a with dds := a.dds ++ [⟨x, 0, ofWords a.ftwLo (s'.reg .CL_AWG_FTW_HI ix)⟩] }) ∧
      (w = .poffHi → s'.reg .CL_AWG_POFF_LO ix = a.poffLo ∧ s'.rf .CL_AWG_POFF_HI ix 0 16 = fld d 0 16 ∧
        s'.awg n g = { a with dds := a.dds ++ [⟨x, 1, ofWords a.poffLo (s'.reg .CL_AWG_POFF_HI ix)⟩] }) ∧
      (w = .amp → s'.rf .CL_AWG_AMP ix 0 16 = min 32767 (fld d 0 16) ∧ s'.rf .CL_AWG_AMP ix 16 16 = fld d 16 16 ∧
        s'.awg n g = { a with dds := a.dds ++ [⟨x, 2, (s'.reg .CL_AWG_AMP ix).toNat⟩] }) ∧
      Frame [.clasp, .awgs] [.CL_AWG_FTW_LO, .CL_AWG_FTW_HI, .CL_AWG_POFF_LO, .CL_AWG_POFF_HI, .CL_AWG_AMP, .PWR_CLU_GATE]
        (atCluster n) s s') ∧
  (∀ (t : Nat) (n : Cluster) (g : Fin 2) (x : Int) (more : List Int) (s : State),
    let u := (s.at t).clasp
    let a := s.awg n g
    let p := (u - a.start) / 20
    u % 20 = 0 →
    clrPin s n g = false →
    PlaysSegments n g s →
    NoStopBy n g u s →
    a.start ≤ u →
    u < passStop a →
    a.fifo.drop (p - a.pos) = x :: more →
    ∃ s', exec (.awgSampleBoundary t n g) s = .next s' ∧ (s'.awg n g).out = x ∧ (s'.awg n g).lastX = x ∧
      (s'.awg n g).fifo = more ∧ (s'.awg n g).pos = p + 1 ∧ (clipCode x ≠ x → s'.rb .CL_AWG_EVT (awgIx n g) 5 = true) ∧
      Frame [.clasp, .awgs] genRegs (atCluster n) s s') ∧
  (∀ (t : Nat) (n : Cluster) (g : Fin 2) (s : State),
    let u := (s.at t).clasp
    let a := ddsApply (s.awg n g) u
    let x := ddsSample a.ftw a.poff a.amp u
    u % 20 = 0 →
    clrPin s n g = false →
    awgState s n g = 2 →
    awgDds s n g = true →
    NoStopBy n g u s →
    ∃ s', exec (.awgSampleBoundary t n g) s = .next s' ∧ (s'.awg n g).out = x ∧ (s'.awg n g).lastX = x ∧
      (s'.awg n g).ftw = a.ftw ∧ (s'.awg n g).poff = a.poff ∧ (s'.awg n g).amp = a.amp ∧ (s'.awg n g).dds = a.dds ∧
      (clipCode x ≠ x → s'.rb .CL_AWG_EVT (awgIx n g) 5 = true) ∧ Frame [.clasp, .awgs] genRegs (atCluster n) s s') ∧
  (∀ (t : Nat) (n : Cluster) (g : Fin 2) (s : State),
    let u := (s.at t).clasp
    u % 20 = 0 →
    clrPin s n g = false →
    (awgState s n g ≠ 2 ∨ ∃ x, (s.awg n g).stopAt = some x ∧ x ≤ u) →
    ∃ s', exec (.awgSampleBoundary t n g) s = .next s' ∧
      (if awgState s n g = 2 then GenStopped n g s s'
       else (s'.awg n g).out = (if (s.awg n g).held then (s.awg n g).lastX else clearCode s n g)) ∧
      Frame [.clasp, .awgs] genRegs (atCluster n) s s')

/-! ### Cap (R303 to R325) -/

namespace Sys2Proof.Machine

/-- A flow has begun at start time f (R309, R316, R320): counted, TF set, the FLOW_START record first; every valid site without
a retired cluster or channel is active from record 0, the others UNTESTED with reason CLUSTER_FAIL; with none active it ends. -/
def FlowBegun (f : Nat) (s s' : State) : Prop :=
  s'.pair .CAP_TF_LO .CAP_TF_HI 0 = f ∧ s'.reg .CAP_FLOWNO 0 = s.reg .CAP_FLOWNO 0 + 1#32 ∧
  s'.cap.run = none ∧ s'.cap.decided = none ∧ s'.cap.aborted = false ∧ s'.cap.sotAt = s'.clasp ∧
  s'.cap.dlog.head? = some (flowRec s' 3 0 f) ∧ tabGet 0 s'.life 24 = satInc 4294967295 (tabGet 0 s.life 24) ∧
  capState s' = (if s'.cap.sites.any fun x => x.active then 3 else 4)

/-- Valid site i of the map entries xs after a start-of-test (R309). -/
def SiteBegun (xs : List CapSite) (i : Nat) (s s' : State) : Prop :=
  ∀ x ∈ xs[i]?.toList, x.valid = true → capSiteAt s' i = some { x with
    active := (siteRetired s x).isNone, next := 0, bins := none, failed := false, last := 0, test := 0,
    untested := (siteRetired s x).map fun n => (1, n), ended := (siteRetired s x).map fun _ => s'.clasp }

/-- The registers and parts that a start-of-test changes. -/
def flowRegs : List Reg := [.CAP_STAT, .CAP_FLOWNO, .CAP_TF_LO, .CAP_TF_HI, .CAP_EVT, .CL_CAL_STAT, .CL_CAL_EVT]

/-- The registers in which Millrace notes a refusal (R332), and Cap too (R315). -/
def refuseRegs : List Reg := [.MP_EVT, .MP_REFUSE_CNT, .MP_REFUSE_ADDR, .MP_REFUSE_INFO]

/-- The registers of a sequencer's arming, and of Cap's preparing it (R178, R311). -/
def capStartRegs : List Reg :=
  [.PWR_CLU_GATE, .CAP_STAT, .CAP_EVT, .CAP_FENCE, .CL_SEQ_CTRL, .CL_SEQ_ADDR, .CL_SEQ_TSTART_LO, .CL_SEQ_TSTART_HI, .CL_SEQ_STAT,
   .CL_SEQ_RES, .CL_SEQ_VCNT_LO, .CL_SEQ_VCNT_HI, .CL_SEQ_STALLS, .CL_SEQ_HOLDV, .CL_SEQ_BUBBLES, .CL_SEQ_EVT, .CL_SEQ_FFVALID,
   .CL_SEQ_FCNT, .CL_HOP_CTRL, .CL_HOP_TAIL, .CL_CAL_STAT, .CL_CAL_EVT, .CL_STORE_STAT, .CH_CTRL, .CH_EVT, .CH_PM_CTRL, .CH_PM_STAT,
   .CH_RG_CTRL, .CH_RG_GLEN_LO, .CH_RG_GLEN_HI, .CL_MR_STAT, .CL_MR_RES_BASE, .CL_MR_RES_CNT, .CL_MR_EVT]

/-- A flow runs, no record is in progress, and r is the next one, whose 64 bytes Cap may read (R309, R315). -/
def NextRecord (r : Nat) (s : State) : Prop :=
  slaveUp s = true ∧ capState s = 3 ∧ s.cap.run = none ∧ nextRecord s = some r ∧ capRefused s (s.cap.recAt + 64 * r) 64 = false

/-- T of the record that starts now (R311): TF, or the last decision time plus CAP_LEAD, to a multiple of 8. -/
def recordT (s : State) : Nat :=
  match s.cap.decided with
  | none => s.pair .CAP_TF_LO .CAP_TF_HI 0
  | some d => (d + (s.reg .CAP_LEAD 0).toNat + 7) / 8 * 8

end Sys2Proof.Machine

/-- A GO of an idle Cap enters CHECK. A CHECK that fails returns to IDLE with its error and index; one that passes
takes the tables over and waits for a start-of-test, or with SOT_SRC REGISTER is one: TF, the sites, FLOW_START
(R309, R316, R320). An ABORT in CHECK or WAIT_SOT returns to IDLE; in a flow it makes every site not ended UNTESTED,
ABORT, and FINISH follows (R317). A poll sends its frame, and a start-of-test or ABORT that it reads acts (R318). -/
def Obligations.CapChecksStartsAndAborts : Prop :=
  (∀ (t : Nat) (r : Req) (d : Word) (s : State),
    Accepted r .CAP_CTRL 0 (d ||| 1#32) (s.at t) →
    bitOf d 1 = false →
    capState s = 0 →
    ∃ s', exec (.capGo t r d) s = .next s' ∧ capState s' = 1 ∧ s'.rf .CAP_STAT 0 3 8 = 0 ∧
      Frame [.clasp] [.CAP_CTRL, .CAP_STAT] atNone s s') ∧
  (∀ (t : Nat) (e : CapErr) (s : State),
    slaveUp (s.at t) = true →
    capState s = 1 →
    capCheck s = some e →
    e.code < 32 →
    e.idx < 2 ^ 32 →
    ∃ s', exec (.capCheckDone t) s = .next s' ∧ capState s' = 0 ∧ s'.rf .CAP_STAT 0 3 5 = e.code ∧
      s'.reg .CAP_ERRIDX 0 = BitVec.ofNat 32 e.idx ∧ s'.rb .CAP_EVT 0 2 = true ∧
      (e.read = none → s'.rb .CAP_STAT 0 10 = s.rb .CAP_STAT 0 10) ∧ (e.read ≠ none → s'.rb .CAP_STAT 0 10 = true) ∧
      Frame [.clasp, .msgs] (.CAP_STAT :: .CAP_ERRIDX :: .CAP_EVT :: refuseRegs) atNone s s') ∧
  (∀ (t : Nat) (s : State),
    let u := s.at t
    let f := (u.clasp + bf (s.bytes (flowAt s) 64) 20 8 + 7) / 8 * 8
    slaveUp u = true →
    capState s = 1 →
    capCheck s = none →
    sotSrc s = 0 →
    f < 2 ^ 64 →
    ∃ s', exec (.capCheckDone t) s = .next s' ∧ FlowBegun f s s' ∧ (∀ i : Nat, i < 768 → SiteBegun (mapSites s) i s s') ∧
      s'.cap.recAt = flowAt s + bf (s.bytes (flowAt s) 64) 12 4 ∧ s'.cap.limAt = flowAt s + bf (s.bytes (flowAt s) 64) 16 4 ∧
      Frame [.clasp, .chans, .cap, .ring, .cal, .life] flowRegs atAll s s') ∧
  (∀ (t : Nat) (s : State),
    slaveUp (s.at t) = true →
    capState s = 1 →
    capCheck s = none →
    sotSrc s ≠ 0 →
    ∃ s', exec (.capCheckDone t) s = .next s' ∧ capState s' = 2 ∧ s'.cap.sites = mapSites s ∧ Frame [.clasp, .cap] [.CAP_STAT] atNone s s') ∧
  (∀ (t : Nat) (r : Req) (d : Word) (i : Nat) (x : CapSite) (s : State),
    Accepted r .CAP_CTRL 0 (d ||| 2#32) (s.at t) →
    bitOf d 0 = false →
    capState s ≠ 0 →
    capSiteAt s i = some x →
    ∃ s', exec (.capAbort t r d) s = .next s' ∧
      (if capState s < 3 then capState s' = 0 ∧ s'.cap = s.cap ∧ Frame [.clasp, .ring] [.CAP_CTRL, .CAP_STAT] atNone s s'
       else capState s' = 4 ∧ s'.cap.aborted = true ∧ s'.cap.run = none ∧
        (if x.active then capSiteAt s' i = some { x with
          active := false, untested := some (8, 255), bins := none, ended := some (s.at t).clasp } else capSiteAt s' i = some x) ∧
        Frame [.clasp, .chans, .seqs, .cap, .ring] [.CAP_CTRL, .CAP_STAT, .CAP_EVT, .CL_MR_STAT] atAll s s') ∧
      (2 ≤ ringState s → fld d 6 2 = 1 → s.ring.abortAt = none → s'.ring.abortAt = some (s.at t).clasp)) ∧
  (∀ (t : Nat) (reply : List Byte) (s : State),
    let u := s.at t
    let bits := (bf reply 1 1 % 4) ||| s.cap.heldPoll
    let f := (u.clasp + s.cap.lead + 7) / 8 * 8
    slaveUp u = true →
    pwrState s = 2 →
    capState s = 2 →
    sotSrc s = 1 →
    (s.cap.polled = 0 ∨ s.cap.polled - 1 + max 1 (s.rf .CAP_PRB 0 16 16) * 8000 ≤ u.clasp) →
    s.rb .PSM_STAT 0 0 = false →
    f < 2 ^ 64 →
    ∃ s', exec (.capPoll t reply) s = .next s' ∧ s'.out = .frame [1#8, 0#8] :: s.out ∧ s'.cap.polled = u.clasp + 1 ∧
      (bits / 2 % 2 = 1 → capState s' = 0) ∧
      (bits / 2 % 2 = 0 → bits % 2 = 1 → FlowBegun f s s' ∧ (∀ i : Nat, i < 768 → SiteBegun s.cap.sites i s s')) ∧
      (bits % 4 = 0 → capState s' = 2) ∧
      Frame [.clasp, .chans, .cap, .ring, .cal, .life, .out] flowRegs atAll s s')

/-- The lowest next record starts on its participating sites: a BIN record bins and ends them, an RG record arms each
pad's gate at T, a PAT record arms its cluster at T with its result window (R309 to R312). A record past its TIMEOUT
aborts its clusters (R311). When it is over, each site is judged: UNTESTED with its reason, or passed or failed by
its limits, and goes on or ends (R306, R313). Datalog records go to their window (R320). FINISH writes lists and
registers, sends the copy, lifts the fences and ends the flow (R319, R321, R322). -/
def Obligations.CapRunsAndJudgesRecords : Prop :=
  (∀ (t : Nat) (r i : Nat) (x : CapSite) (s : State),
    let u := s.at t
    let b := s.bytes (s.cap.recAt + 64 * r) 64
    NextRecord r u →
    bf b 0 1 = 3 →
    capSiteAt s i = some x →
    x.active = true →
    x.next = r →
    r < 4096 →
    ∃ s', exec (.capRecordStart t) s = .next s' ∧ s'.rf .CAP_STAT 0 16 12 = r ∧ s'.cap.decided = some u.clasp ∧ s'.cap.run = none ∧
      capSiteAt s' i = some { x with
        active := false, ended := some u.clasp, last := r, test := bf b 2 2,
        bins := if x.untested.isSome then none else some (bf b 12 1, bf b 13 1) } ∧
      capState s' = (if s'.cap.sites.any fun y => y.active then 3 else 4) ∧
      (∀ n : Cluster, sitesClus s (partSites s r) = [n.val] →
        s'.reg .CAP_FENCE n.val = sitesMask s n.val fun k => !(partSites s r).contains k) ∧
      Frame [.clasp, .chans, .cap, .free] (capStartRegs ++ gateRegs) atAll s s') ∧
  (∀ (t : Nat) (r i : Nat) (n : Cluster) (c : Channel) (s : State),
    let u := s.at t
    let b := s.bytes (s.cap.recAt + 64 * r) 64
    let T := recordT s
    NextRecord r u →
    bf b 0 1 = 2 →
    partSites s r = [i] →
    sitesClus s [i] = [n.val] →
    sitesMask s n.val (fun k => !([i] : List Nat).contains k) = 0#32 →
    recPads s ⟨r, T, b, [], [], false⟩ i = [(n.val, c.val)] →
    s.rb .CH_RG_STAT (chIx n c) 0 = false →
    StartsFree n s →
    u.clasp + 256 ≤ T →
    T < 2 ^ 64 →
    ∃ s', exec (.capRecordStart t) s = .next s' ∧
      (s'.chan n c).gate = some (newGate T (T + max 8000 (min 80000000000 (bf b 32 8))) false) ∧
      s'.rb .CH_RG_STAT (chIx n c) 0 = true ∧ s'.rb .CH_RG_CTRL (chIx n c) 4 = decide (bf b 20 1 % 2 = 1) ∧
      s'.rb .CH_RG_CTRL (chIx n c) 3 = false ∧ s'.cap.run = some ⟨r, T, b, [(n.val, none)], [], false⟩ ∧
      s'.reg .CAP_FENCE n.val = 0#32 ∧
      Frame [.clasp, .chans, .cap, .free] (capStartRegs ++ gateRegs) atAll s s') ∧
  (∀ (t : Nat) (r i : Nat) (n : Cluster) (s : State),
    let u := s.at t
    let b := s.bytes (s.cap.recAt + 64 * r) 64
    let T := recordT s
    NextRecord r u →
    bf b 0 1 = 1 →
    partSites s r = [i] →
    sitesClus s [i] = [n.val] →
    idleNow u n = true →
    cluRetired s n = false →
    s.rb .CL_MR_STAT n.val 0 = false →
    patchBlocks s = false →
    StartsFree n s →
    s.rb .CL_TIM_STAT n.val 0 = true →
    (s.calSt n).back ≤ u.clasp →
    u.clasp + 256 ≤ T →
    T < 2 ^ 64 →
    ∃ s', exec (.capRecordStart t) s = .next s' ∧ seqState s' n = 1 ∧ (s'.seq n).t0 = T ∧
      (s'.seq n).fe.pc = ⟨false, bf b 16 2⟩ ∧ s'.rf .CL_SEQ_ADDR n.val 0 16 = bf b 16 2 ∧
      s'.pair .CL_SEQ_TSTART_LO .CL_SEQ_TSTART_HI n.val = T ∧ s'.rb .CL_SEQ_CTRL n.val 3 = true ∧
      s'.rf .CL_MR_RES_BASE n.val 0 17 = (bf b 20 4 + n.val * bf b 24 2) % 2 ^ 17 ∧ s'.rf .CL_MR_RES_CNT n.val 0 16 = bf b 24 2 ∧
      (bf b 1 1 / 2 % 2 = 1 → s'.rb .CL_HOP_CTRL n.val 0 = true ∧
        s'.rf .CL_HOP_TAIL n.val 0 16 = (s.rf .CL_HOP_TAIL n.val 0 16 + bf b 18 2) % 65536) ∧
      s'.cap.run = some ⟨r, T, b, [(n.val, none)], [], false⟩ ∧
      Frame [.clasp, .mem, .chans, .seqs, .hops, .cap, .cal, .msgs, .free] (capStartRegs ++ gateRegs ++ refuseRegs) atAll s s') ∧
  (∀ (t : Nat) (x : CapRun) (n : Cluster) (s : State),
    let u := s.at t
    slaveUp u = true →
    s.cap.run = some x →
    bf x.bytes 0 1 = 1 →
    bf x.bytes 32 8 ≠ 0 →
    x.timedOut = false →
    x.t + bf x.bytes 32 8 ≤ u.clasp →
    x.clus = [(n.val, none)] →
    seqIdle s n = false →
    (s.seq n).unwind = false →
    (s.seq n).abort = none →
    (s.seq n).ending = none →
    (seqState s n ≠ 1 ∨ (s.seq n).seqNo ≠ 0) →
    ∃ s', exec (.capTimeout t) s = .next s' ∧ s'.cap.run = some { x with timedOut := true, clus := [(n.val, some 9)] } ∧
      (s'.seq n).abort = some (u.clasp + 80, 2) ∧ Frame [.clasp, .chans, .seqs, .cap] [.CL_MR_STAT] atAll s s') ∧
  (∀ (t : Nat) (x : CapRun) (i : Nat) (y : CapSite) (s : State),
    let u := s.at t
    slaveUp u = true →
    s.cap.run = some x →
    recordOver s x = true →
    ((recLimits x).all fun l => !capRefused s (s.cap.limAt + 32 * l) 32) = true →
    partSites s x.r = [i] →
    capSiteAt s i = some y →
    ∃ s', exec (.capRecordEnd t) s = .next s' ∧ s'.cap.run = none ∧ s'.cap.decided = some u.clasp ∧
      (∀ q, (y.parts.findSome? fun p => (slotReason s x i p).map fun r => (r, p.1)) = some q →
        capSiteAt s' i = some { y with
          active := false, bins := none, ended := some u.clasp,
          untested := some (q.1, if q.1 = 8 ∨ q.1 = 9 then 255 else q.2) } ∧ s'.rb .CAP_EVT 0 1 = true) ∧
      ((y.parts.findSome? fun p => (slotReason s x i p).map fun r => (r, p.1)) = none → resultRefused s x y = none → bf x.bytes 10 2 = 0 →
        (if bf x.bytes 1 1 % 2 = 1 ∧ (y.parts.any fun p => decide (s.reg .CL_SEQ_FFVALID p.1 &&& p.2 ≠ 0#32)) = true
         then ∃ z, capSiteAt s' i = some z ∧ z.failed = true ∧ z.active = decide (bf x.bytes 6 2 ≠ 65535) ∧
          (y.untested = none → z.bins = some (bf x.bytes 12 1, bf x.bytes 13 1)) ∧ (z.active = true → z.next = bf x.bytes 6 2)
         else ∃ z, capSiteAt s' i = some z ∧ z.failed = y.failed ∧ z.active = (y.active && decide (bf x.bytes 4 2 ≠ 65535)) ∧
          (z.active = true → z.next = bf x.bytes 4 2))) ∧
      capState s' = (if s'.cap.sites.any fun z => z.active then 3 else 4) ∧
      Frame [.clasp, .cap, .msgs] (.CAP_STAT :: .CAP_EVT :: refuseRegs) atNone s s') ∧
  (∀ (t : Nat) (b : List Byte) (rest : List (List Byte)) (s : State),
    let w := s.rf .CAP_DLOG_WPTR 0 0 20
    let z := sizeOr (s.rf .CAP_DLOG_SIZE 0 0 20) 1048576
    let a := s.rf .CAP_DLOG_BASE 0 0 21 * 32 + w % z * 32
    slaveUp (s.at t) = true →
    s.cap.dlog = b :: rest →
    b.length = 32 →
    dlogFull s = false →
    memAdmits s .cap false a 32 = true →
    ∃ s', exec (.capDlogWrite t) s = .next s' ∧ Written a b s s' ∧ s'.rf .CAP_DLOG_WPTR 0 0 20 = idxNext w z ∧
      s'.cap = { s.cap with dlog := rest, written := s.cap.written + 1 } ∧
      Frame [.clasp, .mem, .cap] [.CAP_DLOG_WPTR] atNone s s') ∧
  (∀ (t : Nat) (s : State),
    let a := s.rf .CAP_DLOG_BASE 0 0 21 * 32 + s.rf .CAP_DLOG_WPTR 0 0 20 % sizeOr (s.rf .CAP_DLOG_SIZE 0 0 20) 1048576 * 32
    slaveUp (s.at t) = true →
    capState s = 4 →
    s.cap.phase = 0 →
    finishReady s = true →
    s.cap.aborted = false →
    dlogFull s = false →
    capRefused s a 32 = false →
    (s.rb .CAP_CTRL 0 3 = false ∨ capMaster s = false) →
    ∃ s', exec (.capFinish t) s = .next s' ∧ capState s' = (if s.rb .CAP_CTRL 0 11 then 2 else 0) ∧ s'.rb .CAP_EVT 0 0 = true ∧
      s'.reg .CAP_RT_CNT 0 = BitVec.ofNat 32 (s.cap.sites.filter fun x => x.untested.isSome).length ∧
      (∀ i : Nat, i < 768 → ∀ x, capSiteAt s i = some x → s'.reg .CAP_SITE i = siteWord x) ∧
      (∀ h : Nat, h < 16 → s'.reg .CAP_HBIN_CNT h = BitVec.ofNat 32 (binCount s fun p => decide (p.2 = h))) ∧
      (∀ h : Nat, h < 64 → s'.reg .CAP_SBIN_CNT h = BitVec.ofNat 32 (binCount s fun p => decide (p.1 = h))) ∧
      (∀ n : Cluster, s'.reg .CAP_FENCE n.val = 0#32) ∧
      s'.pair .CAP_TEND_LO .CAP_TEND_HI 0 = (s.at t).clasp % 2 ^ 64 ∧
      (s.rb .CAP_CTRL 0 3 = true → s'.out.head? = some (.frame (eotFrame s'))) ∧
      s'.ring.flowDone = (s.reg .CAP_FLOWNO 0).toNat ∧
      Frame [.clasp, .mem, .cap, .pba, .ring, .life, .replaceWait, .msgs, .out]
        ([.FLT_STAT, .FLT_EVT, .CAP_STAT, .CAP_DLOG_WPTR, .CAP_RT_CNT, .CAP_TEND_LO, .CAP_TEND_HI, .CAP_EVT, .CAP_FENCE, .CAP_HBIN_CNT,
          .CAP_SBIN_CNT, .CAP_SITE] ++ refuseRegs) atNone s s')

/-! ### Millpond and Millrace (R326 to R357) -/

namespace Sys2Proof.Machine

/-- What access x at a does to Millpond when all of it is admitted (R333). -/
def OpDone (x : MillOp) (a : Nat) (s s' : State) : Prop :=
  match x with
  | .read _ => s'.mem = s.mem
  | .write bytes => Written a bytes s s'
  | .atomic clear bytes => ∀ y : Nat, s'.byte y =
      if a ≤ y ∧ y < a + bytes.length then mixByte (some clear) (s.byte y) (bytes.getD (y - a) 0#8) else s.byte y

/-- The bytes of Millpond from lo below hi are 0, every other byte is as it was. -/
def Cleared (lo hi : Nat) (s s' : State) : Prop := ∀ y : Nat, s'.byte y = if lo ≤ y ∧ y < hi then 0#8 else s.byte y

/-- A refusal at address y is counted, recorded and reported (R332). -/
def Refused (q : MillReq) (write : Bool) (why y : Nat) (s s' : State) : Prop :=
  s'.rf .MP_REFUSE_CNT 0 0 32 = satInc 4294967295 (s.rf .MP_REFUSE_CNT 0 0 32) ∧ s'.rb .MP_EVT 0 0 = true ∧
  s'.reg .MP_REFUSE_ADDR 0 = BitVec.ofNat 32 (y % 2 ^ 26) ∧
  s'.reg .MP_REFUSE_INFO 0 = BitVec.ofNat 32 (2 ^ 31 + 2 ^ 11 * b2n write + 2 ^ 9 * why + reqCode q) ∧
  s'.msgs = s.msgs ++ [⟨1104, 7, 0, y⟩]

/-- An access of q is admitted whole, and meets no collision (R331, R332, R337). -/
def Admitted (q : MillReq) (x : MillOp) (a : Nat) (s : State) : Prop :=
  memAdmits s q false (millAddr s q a) (opLen x) = true ∧ opLen x ≠ 0 ∧ collides s (millAddr s q a) (opLen x) = false

/-- What an access leaves of grants and answers (R327, R332): registers and parts. -/
def accessParts : List Part := [.clasp, .mem, .slcFrame, .slcCnt, .lotTkt, .lotPend, .present, .waiting, .grants, .atoms, .msgs, .free, .out]
def accessRegs : List Reg :=
  [.HL_EVT, .HL_RERR, .HL_RERR_ADDR, .MP_EVT, .MP_REFUSE_CNT, .MP_COLL_CNT, .MP_REFUSE_ADDR, .MP_REFUSE_INFO]

/-- Link h carries its host's accesses, the part is active, and one more may wait (R360, R361). -/
def LinkReady (h : Dom) (s : State) : Prop :=
  linkServes s h.val = true ∧ pwrState s = 2 ∧ (s.waiting.filter fun w => decide (w.1 = .host h)).length < 128

end Sys2Proof.Machine

/-- A stream's access in its own slot within its limit is performed and counted; beyond the limit OVERLIMIT is set
(R340, R341). An access that is not admitted is refused: counted, recorded, reported, read data 0 (R332); one of a
new owner waits for the handover (R331). A sole entrant wins its draw; of two, the winner of R344 is performed and
the loser backs off (R345). A BAR2 access reads, writes, or sets and clears bits through an alias window (R328, R333,
R363). -/
def Obligations.MillraceGrantsRefusesAndDraws : Prop :=
  (∀ (t : Nat) (n : Cluster) (k : Fin 6) (x : MillOp) (a : Nat) (s : State),
    let u := s.at t
    Admitted (.cluster n k) x a u →
    slcEntry s.slcActive (fabric u % 256) (bankOf a) = k.val + 1 →
    bankFree u (bankOf a) x = true →
    slotGrants u n k < slotLimit k →
    ∃ s', exec (.millraceAccess t (.cluster n k) x a []) s = .next s' ∧ OpDone x a s s' ∧
      slotGrants s' n k = slotGrants u n k + 1 ∧ tabGet 0 s'.grants (bankOf a) = fabric u + 1 ∧
      (∀ len ∈ (match x with | .read l => [l] | _ => []),
        s'.out = .millData (257 + 8 * n.val + k.val) (s.bytes a len) false false :: s.out) ∧
      Frame [.clasp, .mem, .slcFrame, .slcCnt, .grants, .atoms, .out] [] atNone s s') ∧
  (∀ (t : Nat) (n : Cluster) (k : Fin 6) (x : MillOp) (a : Nat) (s : State),
    let u := s.at t
    Admitted (.cluster n k) x a u →
    slcEntry s.slcActive (fabric u % 256) (bankOf a) = k.val + 1 →
    bankFree u (bankOf a) x = true →
    slotLimit k ≤ slotGrants u n k →
    ∃ s', exec (.millraceAccess t (.cluster n k) x a []) s = .next s' ∧
      s'.reg .SLC_STAT 0 = putBit (s.reg .SLC_STAT 0) 1 true ∧ Frame [.clasp] [.SLC_STAT] atNone s s') ∧
  (∀ (t : Nat) (q : MillReq) (x : MillOp) (a why : Nat) (s : State),
    let u := s.at t
    (match q with | .cap => True | .mgmt => True | .cluster _ _ => True | _ => False) →
    partsOf a (opLen x) = [(a, opLen x)] →
    judge u q false a = .refuse why →
    lotMasked s (reqCode q) = false →
    presented s (reqCode q) = none →
    s.present = [] →
    ∃ s', exec (.millraceAccess t q x a []) s = .next s' ∧
      Refused q (match x with | .read _ => false | _ => true) why a s s' ∧ s'.mem = s.mem ∧
      (∀ len ∈ (match x with | .read l => [l] | _ => []), s'.out = .millData (reqCode q) (List.replicate len 0#8) true false :: s.out) ∧
      Frame [.clasp, .grants, .atoms, .msgs, .out] accessRegs atNone s s') ∧
  (∀ (t : Nat) (q : MillReq) (r : Fin 8) (x : MillOp) (a : Nat) (s : State),
    let u := s.at t
    q = lotReq r.val →
    reqCode q = r.val →
    s.present = [] →
    lotMasked s r.val = false →
    partsOf (millAddr s q a) (opLen x) = [(millAddr s q a, opLen x)] →
    Admitted q x a u →
    bankFree u (bankOf (millAddr s q a)) x = true →
    ∃ s', exec (.millraceAccess t q x a []) s = .next s' ∧ OpDone x (millAddr s q a) s s' ∧ s'.reg .LOT_STAT r.val = 0#32 ∧
      s'.present = [] ∧ tabGet 0 s'.grants (bankOf (millAddr s q a)) = fabric u + 1 ∧
      Frame [.clasp, .mem, .lotTkt, .lotPend, .grants, .atoms, .out] [.LOT_STAT] atNone s s') ∧
  (∀ (t : Nat) (q1 q2 : MillReq) (r1 r2 : Fin 8) (x1 x2 : MillOp) (a1 a2 : Nat) (s : State),
    let u := s.at t
    let b := bankOf (millAddr s q1 a1)
    let w := drawWinner u s.lotTkt b [r1.val, r2.val]
    let l := if w = r1.val then r2.val else r1.val
    let j := min 10 (lotJ s l + 1)
    q1 = lotReq r1.val →
    q2 = lotReq r2.val →
    reqCode q1 = r1.val →
    reqCode q2 = r2.val →
    r1.val < r2.val →
    s.present = [] →
    s.lotPend = false →
    lotMasked s r1.val = false →
    lotMasked s r2.val = false →
    bankOf (millAddr s q2 a2) = b →
    partsOf (millAddr s q1 a1) (opLen x1) = [(millAddr s q1 a1, opLen x1)] →
    partsOf (millAddr s q2 a2) (opLen x2) = [(millAddr s q2 a2, opLen x2)] →
    Admitted q1 x1 a1 u →
    Admitted q2 x2 a2 u →
    bankFree u b x1 = true →
    bankFree u b x2 = true →
    ∃ s', exec (.millraceAccess t q1 x1 a1 [(r2, (x2, a2))]) s = .next s' ∧
      (if w = r1.val then OpDone x1 (millAddr s q1 a1) s s' else OpDone x2 (millAddr s q2 a2) s s') ∧
      s'.reg .LOT_STAT w = 0#32 ∧ lotJ s' l = j ∧ lotCapped s' l = (lotCapped s l || decide (j = 10)) ∧
      presented s' l = some (if w = r1.val then x2 else x1, (if w = r1.val then a2 else a1, fabric u + 2 ^ j + 1)) ∧
      presented s' w = none ∧
      Frame [.clasp, .mem, .present, .grants, .atoms, .out] [.LOT_STAT] atNone s s') ∧
  (∀ (t : Nat) (r : Fin 8) (x : MillOp) (a c : Nat) (s : State),
    let u := s.at t
    let q := lotReq r.val
    s.present = [(r.val, (x, (a, c)))] →
    c ≤ fabric u →
    lotMasked s r.val = false →
    partsOf (millAddr s q a) (opLen x) = [(millAddr s q a, opLen x)] →
    Admitted q x a u →
    bankFree u (bankOf (millAddr s q a)) x = true →
    ∃ s', exec (.lotteryBackoffEnd t r) s = .next s' ∧ OpDone x (millAddr s q a) s s' ∧ s'.reg .LOT_STAT r.val = 0#32 ∧
      s'.present = [] ∧ Frame [.clasp, .mem, .lotTkt, .lotPend, .present, .grants, .atoms, .out] [.LOT_STAT] atNone s s') ∧
  (∀ (t : Nat) (h : Dom) (a len : Nat) (s : State),
    let u := s.at t
    let y := millAddr s (.host h) a
    LinkReady h u →
    0 < len →
    a + len ≤ 67108864 →
    ∃ s', exec (.bar2Read t h a len) s = .next s' ∧
      (if memWaits u (.host h) false y len then s'.waiting = s.waiting ++ [(.host h, (.read len, a))] ∧ Frame [.clasp, .waiting] [] atNone s s'
       else if memAdmits u (.host h) false y len then
        collides u y len = false →
          s'.out = .completion h.val (some (s.bytes y len)) :: s.out ∧ Frame [.clasp, .grants, .out] [] atNone s s'
       else partsOf y len = [(y, len)] → s'.rb .HL_EVT h.val 4 = true ∧ s'.rb .MP_EVT 0 0 = true ∧
        s'.reg .HL_RERR_ADDR h.val = BitVec.ofNat 32 (a % 2 ^ 26) ∧
        s'.out = .completion h.val (if s.rb .HL_CTRL h.val 0 then none else some (List.replicate len 0#8)) :: s.out ∧
        Frame [.clasp, .grants, .msgs, .out] accessRegs atNone s s')) ∧
  (∀ (t : Nat) (h : Dom) (a : Nat) (bytes : List Byte) (s : State),
    let u := s.at t
    let y := millAddr s (.host h) a
    let x : MillOp := if a < 50331648 then .write bytes else .atomic (decide (58720256 ≤ a)) bytes
    LinkReady h u →
    bytes ≠ [] →
    a + bytes.length ≤ 67108864 →
    memWaits u (.host h) false y bytes.length = false →
    memAdmits u (.host h) false y bytes.length = true →
    ∃ s', exec (.bar2Write t h a bytes) s = .next s' ∧ OpDone x y s s' ∧ Frame [.clasp, .mem, .grants, .atoms] [] atNone s s')

/-- A write of a new owner starts a handover, which ends with OWNER the new one (R330, R331); a write of a new state
makes the bank BUSY until the change ends, and a bank that was or goes OFF is cleared (R336). SLC_DATA reads or
writes eight entries and moves on (R356); a commit copies the shadow at the next frame (R342). LOT_COMMIT holds
tickets for the next draw (R346), LOT_LFSR reseeds. An acquire is granted, queued or turned away, a release hands on
(R350, R351); calibration takes all it asked for at once (R352). -/
def Obligations.BanksTablesAndSemaphores : Prop :=
  (∀ (t : Nat) (r : Req) (b : Bank) (d : Word) (s : State),
    let o := fld d 0 6
    Accepted r .BANK_OWN b.val d (s.at t) →
    o ≠ s.rf .BANK_OWN b.val 0 6 →
    ∃ s', exec (.bankOwnWrite t r b d) s = .next s' ∧ s'.rb .BANK_OWN b.val 16 = true ∧ s'.rf .BANK_OWN b.val 8 6 = o ∧
      s'.rf .BANK_OWN b.val 0 6 = s.rf .BANK_OWN b.val 0 6 ∧ Frame [.clasp] [.BANK_OWN] atNone s s') ∧
  (∀ (t : Nat) (b : Bank) (s : State),
    s.rb .BANK_OWN b.val 16 = true →
    s.waiting = [] →
    ∃ s', exec (.bankHandoverDone t b) s = .next s' ∧ s'.rb .BANK_OWN b.val 16 = false ∧
      s'.rf .BANK_OWN b.val 0 6 = s.rf .BANK_OWN b.val 8 6 ∧ s'.rb .MP_EVT 0 3 = true ∧
      Frame [.clasp] [.BANK_OWN, .MP_EVT] atNone s s') ∧
  (∀ (t : Nat) (b : Bank) (h : Dom) (a : Nat) (bytes : List Byte) (s : State),
    s.rb .BANK_OWN b.val 16 = true →
    s.rf .BANK_OWN b.val 8 6 = 32 + h.val →
    s.waiting = [(.host h, (.write bytes, a))] →
    a + bytes.length ≤ 50331648 →
    bytes ≠ [] →
    bankOf a = b.val →
    bankOf (a + bytes.length - 1) = b.val →
    s.rf .BANK_STATE b.val 4 2 = 0 →
    s.rb .BANK_STATE b.val 8 = false →
    ∃ s', exec (.bankHandoverDone t b) s = .next s' ∧ Written a bytes s s' ∧ s'.waiting = [] ∧
      Frame [.clasp, .mem, .waiting, .grants] [.BANK_OWN, .MP_EVT] atNone s s') ∧
  (∀ (t : Nat) (r : Req) (b : Bank) (d : Word) (s : State),
    Accepted r .BANK_STATE b.val d (s.at t) →
    ∃ s', exec (.bankStateWrite t r b d) s = .next s' ∧ s'.rf .BANK_STATE b.val 0 2 = fld d 0 2 ∧
      s'.rb .BANK_STATE b.val 8 = decide (fld d 0 2 ≠ s.rf .BANK_STATE b.val 4 2) ∧
      s'.rf .BANK_STATE b.val 4 2 = s.rf .BANK_STATE b.val 4 2 ∧ Frame [.clasp] [.BANK_STATE] atNone s s') ∧
  (∀ (t : Nat) (b : Bank) (s : State),
    let q := s.rf .BANK_STATE b.val 0 2
    s.rb .BANK_STATE b.val 8 = true →
    s.waiting = [] →
    ∃ s', exec (.bankStateDone t b) s = .next s' ∧ s'.rb .BANK_STATE b.val 8 = false ∧ s'.rf .BANK_STATE b.val 4 2 = q ∧
      s'.rb .MP_EVT 0 4 = true ∧
      (if s.rf .BANK_STATE b.val 4 2 = 2 ∨ q = 2 then
        Cleared (786432 * b.val) (786432 * (b.val + 1)) s s' ∧
        Frame [.clasp, .mem] [.BANK_STATE, .MP_EVT] atNone s s'
       else Frame [.clasp] [.BANK_STATE, .MP_EVT] atNone s s')) ∧
  (∀ (t : Nat) (r : Req) (d : Word) (s : State),
    let i := s.rf .SLC_IDX 0 0 8
    let g := s.rf .SLC_IDX 0 8 3
    Accepted r .SLC_DATA 0 d (s.at t) →
    ∃ s', exec (.slcDataAccess t r true d) s = .next s' ∧
      (∀ k : Nat, k < 16384 → tabGet 0 s'.slcShadow k =
        if 64 * i + 8 * g ≤ k ∧ k < 64 * i + 8 * g + 8 then fld d (4 * (k - (64 * i + 8 * g))) 4 else tabGet 0 s.slcShadow k) ∧
      s'.rf .SLC_IDX 0 0 8 = (i + 1) % 256 ∧ s'.rf .SLC_IDX 0 8 3 = (if i = 255 then (g + 1) % 8 else g) ∧
      Frame [.clasp, .slcShadow] [.SLC_IDX] atNone s s') ∧
  (∀ (t : Nat) (r : Req) (d : Word) (s : State),
    served (s.at t) r = true →
    pwrState s = 2 →
    ∃ s', exec (.slcDataAccess t r false d) s = .next s' ∧ s'.out = .regRead r.val (Reg.addr .SLC_DATA 0) (slcWord s) :: s.out ∧
      s'.rf .SLC_IDX 0 0 8 = (s.rf .SLC_IDX 0 0 8 + 1) % 256 ∧ Frame [.clasp, .out] [.SLC_IDX] atNone s s') ∧
  (∀ (t : Nat) (r : Req) (d : Word) (s : State),
    Accepted r .SLC_COMMIT 0 (d ||| 1#32) (s.at t) →
    s.slcAt = none →
    ∃ s', exec (.sluiceCommit t r d) s = .next s' ∧ s'.slcAt = some ((fabric (s.at t) / 256 + 1) * 256) ∧
      s'.reg .SLC_STAT 0 = putBit (s.reg .SLC_STAT 0) 0 true ∧ Frame [.clasp, .slcAt] [.SLC_STAT] atNone s s') ∧
  (∀ (t x : Nat) (s : State),
    s.slcAt = some x →
    x ≤ fabric (s.at t) →
    ∃ s', exec (.sluiceApply t) s = .next s' ∧ s'.slcActive = s.slcShadow ∧ s'.slcAt = none ∧
      s'.reg .SLC_STAT 0 = putBit (s.reg .SLC_STAT 0) 0 false ∧ Frame [.clasp, .slcActive, .slcAt] [.SLC_STAT] atNone s s') ∧
  (∀ (t : Nat) (r : Req) (d : Word) (s : State),
    Accepted r .LOT_COMMIT 0 (d ||| 1#32) (s.at t) →
    ∃ s', exec (.lotCommit t r d) s = .next s' ∧ s'.lotPend = true ∧ Frame [.clasp, .lotPend] [] atNone s s') ∧
  (∀ (t : Nat) (r : Req) (d : Word) (s : State),
    Accepted r .LOT_LFSR 0 d (s.at t) →
    ∃ s', exec (.lfsrReseed t r d) s = .next s' ∧ lfsrNow s' = (if d = 0#32 then 1#32 else d) ∧
      Frame [.clasp, .lfsrAt] [.LOT_LFSR] atNone s s') ∧
  (∀ (t : Nat) (r : Req) (k : Sem) (d : Word) (h : Nat) (s : State),
    let m := s.sem k.val
    let code := if semWaits s h ∨ m.holder.map (·.1) = some h then 4 else if m.holder = none ∧ m.queue = [] then 1
    else if bitOf d 8 then 3 else if (semHolder s k.val).any (fun x => leadsTo s h 40 x) then 5 else 2
    Accepted r .SEM_ACQ k.val d (s.at t) →
    semFor s r k.val d = some h →
    ∃ s', exec (.semAcq t r k d) s = .next s' ∧ s'.reg .SEM_RES r.val = BitVec.ofNat 32 (16 * k.val + code) ∧
      s'.sem k.val = (if code = 1 then { m with holder := some (h, r.val) } else if code = 2 then
        { m with queue := m.queue ++ [(h, r.val)] } else m) ∧
      (∀ i : Nat, i < 16 → i ≠ k.val → s'.sem i = s.sem i) ∧
      s'.reg .SEM_EVT 0 = (if code = 5 then putBit (s.reg .SEM_EVT 0) 1 true else s.reg .SEM_EVT 0) ∧
      Frame [.clasp, .sems] [.SEM_RES, .SEM_EVT] atNone s s') ∧
  (∀ (t : Nat) (r : Req) (k : Sem) (d : Word) (h g : Nat) (s : State),
    let m := s.sem k.val
    Accepted r .SEM_REL k.val d (s.at t) →
    m.holder = some (h, g) →
    (h = r.val ∨ (bitOf d 7 = true ∧ h = 8 + fld d 0 5 ∧ g = r.val)) →
    ∃ s', exec (.semRel t r k d) s = .next s' ∧
      s'.sem k.val = (match m.queue with | [] => { m with holder := none } | (x, y) :: rest => if x = 6 then { m with holder := none }
        else { m with holder := some (x, y), queue := rest }) ∧
      (∀ e ∈ m.queue.head?.toList, e.1 ≠ 6 → s'.rb .SEM_EVT 0 0 = true) ∧
      (∀ i : Nat, i < 16 → i ≠ k.val → s'.sem i = s.sem i) ∧ Frame [.clasp, .sems] [.SEM_RES, .SEM_EVT] atNone s s') ∧
  (∀ (t : Nat) (s : State),
    let ks := calWants s
    ks ≠ [] →
    (ks.all fun k => decide ((s.sem k).holder = none) && decide ((s.sem k).queue.head?.map (·.1) = some 6)) = true →
    ∃ s', exec (.calSemAcquire t) s = .next s' ∧ (∀ k ∈ ks, (s'.sem k).holder = some (6, 6) ∧ (s'.sem k).queue = (s.sem k).queue.tail) ∧
      (∀ k : Nat, k < 16 → k ∉ ks → s'.sem k = s.sem k) ∧
      (calHolds s' 0 = true → calHolds s' 1 = true → s'.rb .CAL_STAT 0 2 = true) ∧ Frame [.clasp, .sems] [.CAL_STAT] atNone s s')

/-! ### Links, domains and transactions (R359 to R387) -/

namespace Sys2Proof.Machine

/-- Fields of a descriptor (R364): host address, Millpond address, length, the DIR, ALIAS, IRQ and VEC word. -/
def dHost (d : List Byte) : Nat := descField d 0 8
def dMp (d : List Byte) : Nat := descField d 8 4 % 2 ^ 26
def dLen (d : List Byte) : Nat := descField d 12 3
def dWord (d : List Byte) : Nat := descField d 16 4

/-- Channel k of domain h takes a descriptor (R365). -/
def DmaTakes (h : Dom) (k : Fin 2) (s : State) : Prop := linkServes s h.val = true ∧ 2 ≤ pwrState s ∧ dmaBusy s h.val k = true

/-- The channel has stopped with a code (R366): status written, EN 0, DMA_ERR; HEAD and all else as it was. -/
def DmaStopped (h : Dom) (k : Fin 2) (code : Nat) (s s' : State) : Prop :=
  s'.out = .hostWrite h.val (dmaStatusAt s h.val k) (leBytes 4 (2 ^ 31 + code)) :: s.out ∧
  s'.rb (dmaCtrl k) h.val 0 = false ∧ s'.rb .HL_EVT h.val (2 + k.val) = true ∧
  Frame [.clasp, .out] [dmaCtrl k, .HL_EVT] atNone s s'

/-- The registers of a transaction's end (R382). -/
def txnRegs : List Reg := [.HL_EVT, .TXN_CTRL, .TXN_STAT, .TXN_RES, .TXN_FAIL_ADDR, .TXN_FAIL_RES, .TXN_TDONE_LO, .TXN_TDONE_HI, .TXN_CNT]

/-- The transaction of domain h has ended (R382). -/
def TxnEnded (h : Dom) (code idx addr res : Nat) (s' : State) : Prop :=
  txnState s' h.val = 0 ∧ s'.txn h.val = { } ∧ s'.reg .TXN_RES h.val = BitVec.ofNat 32 (65536 * idx + code) ∧
  s'.reg .TXN_FAIL_ADDR h.val = BitVec.ofNat 32 (addr % 2 ^ 26) ∧ s'.reg .TXN_FAIL_RES h.val = BitVec.ofNat 32 res ∧
  s'.rb .HL_EVT h.val 6 = true

/-- A whole-word write by q that the register slave serves at once: to an aligned address, in ACTIVE, not staged. -/
def PlainlyServed (q : Req) (a : BitVec 26) (size : Nat) (s : State) : Prop :=
  served s q = true ∧ pwrState s = 2 ∧ size = 4 ∧ a.toNat % 4 = 0 ∧ stages q a.toNat s = false

/-- The bytes that a write by q covers. -/
def writeMask (q : Req) (be : BitVec 4) : Word := if q.val < 4 then byteMask be else 0xFFFFFFFF#32

end Sys2Proof.Machine

/-- An enabled channel takes its descriptor: it moves the block in or out, writes the status, advances HEAD, sets
DMA_DONE and sends the vector asked for; a bad descriptor or a host error stops it (R364 to R366). A write of
DOM_MGMT passes the role (R368). A DOMAIN reset resets the domain's registers and MSI-X table, discards its
transaction, releases its semaphores, masks its requester, and touches no other domain (R370). D3hot masks the
requester and stops the channels (R347, R366); a link that comes up shows its rate and width (R384). -/
def Obligations.LinksDmaAndDomainResets : Prop :=
  (∀ (t : Nat) (r : Req) (h : Dom) (k : Fin 2) (d : Word) (s : State),
    Accepted r (dmaCtrl k) h.val d (s.at t) →
    ∃ s', exec (.dmaEnable t r h k d) s = .next s' ∧ s'.rb (dmaCtrl k) h.val 0 = bitOf d 0 ∧ Frame [.clasp] [dmaCtrl k] atNone s s') ∧
  (∀ (t : Nat) (h : Dom) (k : Fin 2) (host : List Byte) (s : State),
    let u := s.at t
    let d := host.take 32
    let x := dWord d
    DmaTakes h k u →
    32 ≤ host.length →
    descBad d = false →
    x % 2 = 1 →
    memAdmits u (.host h) false (dMp d) (dLen d) = true →
    ∃ s', exec (.dmaDescriptor t h k host) s = .next s' ∧
      (x / 8 % 2 = 0 → s'.out = .hostWrite h.val (dmaStatusAt s h.val k) (leBytes 4 (2 ^ 31)) ::
        .hostWrite h.val (dHost d) (s.bytes (dMp d) (dLen d)) :: s.out) ∧
      (x / 8 % 2 = 1 → bitOf (msixWord s h.val (4 * (x / 256 % 64) + 3)) 0 = false → s'.out.head? = some (.msix h.val (x / 256 % 64))) ∧
      s'.rf (dmaHead k) h.val 0 16 = (s.rf (dmaHead k) h.val 0 16 + 1) % 65536 ∧ s'.rb .HL_EVT h.val k.val = true ∧
      Frame [.clasp, .pba, .out] [.HL_EVT, dmaHead k] atNone s s') ∧
  (∀ (t : Nat) (h : Dom) (k : Fin 2) (host : List Byte) (s : State),
    let u := s.at t
    let d := host.take 32
    let x := dWord d
    let data := (host.drop 32).take (dLen d)
    DmaTakes h k u →
    32 + dLen d ≤ host.length →
    descBad d = false →
    x % 2 = 0 →
    x / 8 % 2 = 0 →
    memAdmits u (.host h) false (dMp d) (dLen d) = true →
    ∃ s', exec (.dmaDescriptor t h k host) s = .next s' ∧
      OpDone (if x / 2 % 4 = 0 then .write data else .atomic (decide (x / 2 % 4 = 2)) data) (dMp d) s s' ∧
      s'.out = .hostWrite h.val (dmaStatusAt s h.val k) (leBytes 4 (2 ^ 31)) :: s.out ∧
      s'.rf (dmaHead k) h.val 0 16 = (s.rf (dmaHead k) h.val 0 16 + 1) % 65536 ∧ s'.rb .HL_EVT h.val k.val = true ∧
      Frame [.clasp, .mem, .out] [.HL_EVT, dmaHead k] atNone s s') ∧
  (∀ (t : Nat) (h : Dom) (k : Fin 2) (host : List Byte) (s : State),
    DmaTakes h k (s.at t) →
    (host.length < 32 ∨ descBad (host.take 32) = true) →
    ∃ s', exec (.dmaDescriptor t h k host) s = .next s' ∧ DmaStopped h k (if host.length < 32 then 2 else 3) s s') ∧
  (∀ (t : Nat) (h : Dom) (k : Fin 2) (s : State),
    linkServes (s.at t) h.val = true →
    dmaBusy s h.val k = true →
    ∃ s', exec (.dmaHostTimeout t h k) s = .next s' ∧ DmaStopped h k 2 s s') ∧
  (∀ (t : Nat) (r : Req) (d : Word) (s : State),
    Accepted r .DOM_MGMT 0 d (s.at t) →
    ∃ s', exec (.mgmtOwnerWrite t r d) s = .next s' ∧ s'.rf .DOM_MGMT 0 0 3 = fld d 0 3 ∧ fld d 0 3 ≠ 4 ∧ fld d 0 3 ≠ 6 ∧
      Frame [.clasp] [.DOM_MGMT] atNone s s') ∧
  (∀ (t : Nat) (h : Dom) (cause : DomCause) (s : State),
    ∃ s', exec (.domainReset t h cause) s = .next s' ∧ (∀ r ∈ domainRegs, s'.reg r h.val = r.porOf h.val) ∧
      (∀ r ∈ domainRegs, ∀ g : Dom, g ≠ h → s'.reg r g.val = s.reg r g.val) ∧
      (∀ i : Nat, i < 36 → s'.reg (evtPend h.val) i = (evtPend h.val).porOf i) ∧
      (∀ k : Nat, k < 256 → msixWord s' h.val k = msixDef k) ∧ s'.txn h.val = { } ∧
      (∀ k : Nat, k < 16 → (s'.sem k).holder.map (·.1) ≠ some h.val ∧ (s'.sem k).queue.all (fun e => decide (e.1 ≠ h.val)) = true) ∧
      presented s' h.val = none ∧ s'.reg .LOT_STAT h.val = 0#32 ∧ lotMasked s' h.val = true ∧
      Frame [.clasp, .present, .waiting, .sems, .txns, .msix, .pba]
        (domainRegs ++ [.EVT_PEND0, .EVT_PEND1, .EVT_PEND2, .EVT_PEND3, .SEM_RES, .SEM_EVT, .LOT_STAT]) atNone s s') ∧
  (∀ (t : Nat) (h : Dom) (s : State),
    linkUp s h.val = true →
    ∃ s', exec (.d3hotEntry t h) s = .next s' ∧ s'.rf .HL_STAT h.val 7 2 = 3 ∧ lotMasked s' h.val = true ∧
      s'.rb .HL_EVT h.val 8 = true ∧ presented s' h.val = none ∧ s'.reg .LOT_STAT h.val = 0#32 ∧
      (∀ k : Fin 2, dmaBusy s h.val k = true → s'.rb (dmaCtrl k) h.val 0 = false ∧ s'.rb .HL_EVT h.val (2 + k.val) = true) ∧
      Frame [.clasp, .present, .waiting] [.HL_STAT, .HL_EVT, .HDMA0_CTRL, .HDMA1_CTRL, .LOT_STAT] atNone s s') ∧
  (∀ (t : Nat) (h : Dom) (s : State),
    s.rb .HL_STAT h.val 0 = true →
    s.rf .HL_STAT h.val 7 2 = 3 →
    pwrState s = 2 →
    ∃ s', exec (.d3hotExit t h) s = .next s' ∧ s'.reg .HL_STAT h.val = putFld (s.reg .HL_STAT h.val) 7 3 0 ∧
      s'.reg .HL_EVT h.val = putBit (s.reg .HL_EVT h.val) 8 true ∧ Frame [.clasp] [.HL_STAT, .HL_EVT] atNone s s') ∧
  (∀ (t : Nat) (h : Dom) (rate width : Nat) (s : State),
    slaveUp (s.at t) = true →
    s.rb .HL_STAT h.val 0 = false →
    1 ≤ rate →
    rate ≤ 4 →
    (width = 1 ∨ width = 2 ∨ width = 4) →
    ∃ s', exec (.linkUp t h rate width) s = .next s' ∧ s'.reg .HL_STAT h.val = BitVec.ofNat 32 (1 + 2 * rate + 16 * width) ∧
      s'.reg .HL_EVT h.val = putBit (s.reg .HL_EVT h.val) 8 true ∧
      (bitOf s.owed h.val = false → s'.owed = s.owed ∧ s'.out = s.out ∧ s'.pba = s.pba) ∧
      (bitOf s.owed h.val = true → s'.owed = putBit s.owed h.val false ∧
        (bitOf (msixWord s h.val 3) 0 = false → s'.out = .msix h.val 0 :: s.out)) ∧
      Frame [.clasp, .pba, .owed, .out] [.HL_STAT, .HL_EVT] atNone s s')

/-- A served write that R367 refuses is recorded and changes nothing else; one of a wrong size is BAD_SIZE (R361);
one of an open transaction is staged, or lost with OVF (R378); one whose claim conflicts changes nothing (R30); any
other is performed. A read of a _LO register latches its _HI (R375). BEGIN opens, COMMIT chooses the cycle, ROLLBACK
discards (R377, R379, R383). At the commit cycle every staged write is applied, or with the code of the failure none
(R381, R382). -/
def Obligations.RegisterWritesAndTransactions : Prop :=
  (∀ (t : Nat) (q : Req) (a : BitVec 26) (d : Word) (be : BitVec 4) (size : Nat) (s : State),
    let u := s.at t
    let code := if size = 4 then refuseCode q a.toNat d (writeMask q be) u else 4
    served u q = true →
    pwrState u = 2 →
    (size = 4 → a.toNat % 4 = 0 ∧ stages q a.toNat u = false) →
    code ≠ 0 →
    ∃ s', exec (.registerWrite t q a d be size) s = .next s' ∧
      s'.reg .DOM_WREF_INFO q.val = BitVec.ofNat 32 (2 ^ 31 + 65536 * code + satInc 65535 (s.rf .DOM_WREF_INFO q.val 0 16)) ∧
      s'.reg .DOM_WREF_ADDR q.val = BitVec.ofNat 32 a.toNat ∧
      s'.reg .HL_EVT q.val = (if q.val < 4 then putBit (s.reg .HL_EVT q.val) 5 true else s.reg .HL_EVT q.val) ∧
      Frame [.clasp] [.DOM_WREF_INFO, .DOM_WREF_ADDR, .HL_EVT] atNone s s') ∧
  (∀ (t : Nat) (q : Req) (a : BitVec 26) (d : Word) (be : BitVec 4) (s : State),
    let u := s.at t
    let x := s.txn q.val
    served u q = true →
    pwrState u = 2 →
    a.toNat % 4 = 0 →
    stages q a.toNat u = true →
    ∃ s', exec (.registerWrite t q a d be 4) s = .next s' ∧
      (if x.staged.length < 1024 then s'.txn q.val = { x with staged := x.staged ++ [⟨a.toNat, d, be⟩] } ∧
        s'.rf .TXN_STAT q.val 16 11 = x.staged.length + 1
       else s'.rb .TXN_STAT q.val 8 = true ∧ (s'.txn q.val).staged = x.staged) ∧
      Frame [.clasp, .txns] [.TXN_STAT] atNone s s') ∧
  (∀ (t : Nat) (q : Req) (a : BitVec 26) (d : Word) (be : BitVec 4) (x : State) (s : State),
    let u := s.at t
    PlainlyServed q a 4 u →
    refuseCode q a.toNat d (writeMask q be) u = 0 →
    regPut q a.toNat d (flowBits q a.toNat (writeMask q be) u) u = .ok x →
    ∃ s', exec (.registerWrite t q a d be 4) s = .next s' ∧
      (((touched a.toNat).all fun p => p.2.all fun y =>
        (claimFail q x p.1 [y]).isNone && !(decide (y.1 = 0) && overBudget u x p.1)) = true → s' = x) ∧
      (((touched a.toNat).any fun p => p.2.any fun y => (claimFail q x p.1 [y]).isSome) = true → s' = u)) ∧
  (∀ (t : Nat) (q : Req) (d : Word) (be : BitVec 4) (s : State),
    let a := BitVec.ofNat 26 (Reg.addr .CAP_LEAD 0)
    PlainlyServed q a 4 (s.at t) →
    refuseCode q a.toNat d (writeMask q be) (s.at t) = 0 →
    ∃ s', exec (.registerWrite t q a d be 4) s = .next s' ∧
      s'.reg .CAP_LEAD 0 = (s.reg .CAP_LEAD 0 &&& ~~~ writeMask q be) ||| (d &&& writeMask q be) ∧ Frame [.clasp] [.CAP_LEAD] atNone s s') ∧
  (∀ (t : Nat) (q : Req) (lo hi : Reg) (i : Nat) (s : State),
    let u := s.at t
    let a := BitVec.ofNat 26 (lo.addr i)
    served u q = true →
    pwrState u = 2 →
    pairHi lo = some hi →
    regAt a.toNat = some (lo, i) →
    ∃ s', exec (.loRegisterRead t q a) s = .next s' ∧ s'.out = .regRead q.val (lo.addr i) (regValue u q lo i) :: s.out ∧
      tabGet none s'.hiLatch (latchKey q hi i) = some (regValue u q hi i) ∧ Frame [.clasp, .hiLatch, .out] [] atNone s s') ∧
  (∀ (t : Nat) (r : Req) (h : Dom) (d : Word) (s : State),
    Accepted r .TXN_CTRL h.val (d ||| 1#32) (s.at t) →
    txnState s h.val = 0 →
    ∃ s', exec (.txnBegin t r h d) s = .next s' ∧ s'.reg .TXN_STAT h.val = 1#32 ∧ s'.reg .TXN_RES h.val = 0#32 ∧ s'.txn h.val = { } ∧
      s'.rb .HL_EVT h.val 7 = (s.rb .HL_EVT h.val 7 || bitOf d 1 || bitOf d 2) ∧
      Frame [.clasp, .txns] [.TXN_CTRL, .TXN_STAT, .TXN_RES, .HL_EVT] atNone s s') ∧
  (∀ (t : Nat) (r : Req) (h : Dom) (d : Word) (s : State),
    let c := (s.at t).clasp / 80 * 80
    let w := fld d 4 2
    let time := s.pair .TXN_TIME_LO .TXN_TIME_HI h.val
    Accepted r .TXN_CTRL h.val (d ||| 2#32) (s.at t) →
    bitOf d 0 = false →
    bitOf d 2 = false →
    txnState s h.val = 1 →
    ∃ s', exec (.txnCommit t r h d) s = .next s' ∧
      (if w = 2 ∧ time < c + 160 then TxnEnded h 8 0 (stagedAt s h.val 0) 0 s'
       else txnState s' h.val = 2 ∧ s'.txn h.val = { s.txn h.val with
         cycle := if w = 2 then some (time / 80 * 80) else if w = 1 ∧ txnClusters (s.txn h.val) ≠ [] then none else some (c + 80) }) ∧
      Frame [.clasp, .txns] txnRegs atNone s s') ∧
  (∀ (t : Nat) (r : Req) (h : Dom) (d : Word) (s : State),
    Accepted r .TXN_CTRL h.val (d ||| 4#32) (s.at t) →
    bitOf d 0 = false →
    (txnState s h.val = 1 ∨ (txnState s h.val = 2 ∧ bitOf d 1 = false)) →
    ∃ s', exec (.txnRollback t r h d) s = .next s' ∧ TxnEnded h 9 0 (stagedAt s h.val 0) 0 s' ∧ Frame [.clasp, .txns] txnRegs atNone s s') ∧
  (∀ (t c : Nat) (h : Dom) (s : State),
    let u := if (s.txn h.val).cycle = none then s.at t else s.at c
    txnState s h.val = 2 →
    ((s.txn h.val).cycle = some c ∧ c ≤ (s.at t).clasp ∨ (s.txn h.val).cycle = none ∧ txnIdle (s.at t) h.val = true ∧ c = (s.at t).clasp / 80 * 80) →
    s.rb .TXN_STAT h.val 8 = false →
    c < 2 ^ 64 →
    ∃ s', exec (.txnCommitCycle t h) s = .next s' ∧
      (∀ e, txnJudge (domReq h) (s.txn h.val).staged u = .error e →
        TxnEnded h e.1 e.2.1 (stagedAt s h.val e.2.1) e.2.2 s' ∧ Frame [.clasp, .txns] txnRegs atNone s s') ∧
      (∀ x, txnJudge (domReq h) (s.txn h.val).staged u = .ok x →
        TxnEnded h 1 0 0 0 s' ∧ s'.pair .TXN_TDONE_LO .TXN_TDONE_HI h.val = c ∧
        s'.reg .TXN_CNT h.val = x.reg .TXN_CNT h.val + 1#32 ∧ Only [.clasp, .txns] txnRegs x s')) ∧
  (∀ (t : Nat) (h : Dom) (s : State),
    txnState s h.val = 2 →
    s.rb .TXN_STAT h.val 8 = true →
    ((s.txn h.val).cycle.any fun c => decide (c ≤ (s.at t).clasp)) = true →
    ∃ s', exec (.txnCommitCycle t h) s = .next s' ∧ TxnEnded h 7 1024 (s.txn h.val).lost 0 s' ∧ Frame [.clasp, .txns] txnRegs atNone s s') ∧
  (∀ (t c : Nat) (h : Dom) (w : Staged) (s : State),
    let code := refuseCode (domReq h) w.addr w.data w.mask (s.at c)
    txnState s h.val = 2 →
    s.rb .TXN_STAT h.val 8 = false →
    s.txn h.val = { staged := [w], cycle := some c } →
    c ≤ (s.at t).clasp →
    resetIdx [w] (s.at c) = none →
    code ≠ 0 →
    ∃ s', exec (.txnCommitCycle t h) s = .next s' ∧ TxnEnded h (if code = 1 then 4 else if code = 3 then 5 else 10) 0 w.addr 0 s' ∧
      Frame [.clasp, .txns] txnRegs atNone s s') ∧
  (∀ (t c : Nat) (h : Dom) (d1 d2 : Word) (s : State),
    let a := Reg.addr .CAP_LEAD 0
    txnState s h.val = 2 →
    s.rb .TXN_STAT h.val 8 = false →
    s.txn h.val = { staged := [⟨a, d1, 15#4⟩, ⟨a, d2, 15#4⟩], cycle := some c } →
    c ≤ (s.at t).clasp →
    isMgmt s (domReq h) = true →
    c < 2 ^ 64 →
    ∃ s', exec (.txnCommitCycle t h) s = .next s' ∧ s'.reg .CAP_LEAD 0 = d2 ∧ TxnEnded h 1 0 0 0 s' ∧
      s'.pair .TXN_TDONE_LO .TXN_TDONE_HI h.val = c ∧ Frame [.clasp, .txns] (.CAP_LEAD :: txnRegs) atNone s s')

/-! ### The Clasp ring (R387 to R408) -/

namespace Sys2Proof.Machine

/-- A slot with good CRC reaches a part in UP or SYNC that has nothing of its own on the ring or waiting, and whose upstream
neighbour is the slot's sender. -/
def SlotAlone (slot : List Byte) (s : State) : Prop :=
  slaveUp s = true ∧ 2 ≤ ringState s ∧ slotGood slot = true ∧ s.ring.sender = some (sym slot 2 % 32) ∧ s.ring.own = none ∧
  s.ring.queue = [] ∧ s.ring.round = 0 ∧ s.ring.lines = [] ∧ s.ring.onRing = [] ∧ s.ring.abortAt = none ∧ s.reg .RING_LINE_TX 0 = 0#32

/-- The eight line fields of a slot as they leave in slot mo (R401). -/
def linesOut (slot : List Byte) (mi mo : Nat) : List Nat :=
  (List.range 8).map fun k => if 32768 ≤ lineField slot k then linePut mo (lineTime mi (lineField slot k)) else 0

/-- What the lines of a slot deliver: E of every valid field (R402). -/
def linesIn (slot : List Byte) (mi : Nat) : List RingItem :=
  ((List.range 8).filter fun k => decide (32768 ≤ lineField slot k)).map fun k => .trigger k (lineTime mi (lineField slot k))

/-- What the ABORT symbol of a slot delivers, and what of it goes on (R404). -/
def abortIn (slot : List Byte) (s : State) : List RingItem :=
  if 128 ≤ sym slot 3 ∧ sym slot 3 % 32 ≠ ringId s then [.abort] else []
def abortOn (slot : List Byte) (s : State) : Nat :=
  if 128 ≤ sym slot 3 ∧ sym slot 3 % 32 ≠ ringId s then sym slot 3 else 0

/-- What a new message delivers to a part (R395, R397, R403, R404, R406): a START not beside an ABORT, on a follower a TIME
with a and f, an ACC as it came in, a RESID, and every health word. -/
def msgIn (slot : List Byte) (arr mo : Nat) (s : State) : List RingItem :=
  let m := slotMsg slot
  let x := leNat m.payload
  match m.type with
  | 1 => if 128 ≤ sym slot 3 then [] else [.start x]
  | 2 => if ringMaster s then [] else [.time arr (1310720 * mo - arr) x]
  | 3 => if ringMaster s then [] else [.acc (x % 2 ^ 40) (x / 2 ^ 40 % 256)]
  | 4 => if ringMaster s then [] else [.resid (signed 32 (x % 2 ^ 32)) (x / 2 ^ 32 % 256)]
  | _ => [.health m.origin m.payload]

/-- The first item in the inbox for which p holds is x, and the others stay (R402, R403). -/
def Took (p : RingItem → Bool) (x : RingItem) (s s' : State) : Prop :=
  s.ring.inbox.find? p = some x ∧ s'.ring.inbox = s.ring.inbox.eraseP p

/-- The new STATE of the ring, with its event (R392, R407). -/
def RingTo (v : Nat) (s s' : State) : Prop := ringState s' = v ∧ (ringState s ≠ v → s'.rb .RING_EVT 0 0 = true)

end Sys2Proof.Machine

/-- EN takes the ring from OFF to TRAIN, or to OFF; 64 good slots take it to UP; the bypass follows the state and the
rails (R392). A bad slot is counted and leaves with an inverted CRC (R391). A good one leaves in the next slot with
what R391 lets a part change: lines keep their action time (R401), new messages, ABORTs and lines are delivered
(R395, R402, R404), an ACC is added to (R397), a returned message is removed (R394), a waiting one, an ABORT or a
line is inserted (R394, R401, R404). A message not back in 96 slots is sent again, at most three times (R395). -/
def Obligations.RingPassesSlots : Prop :=
  (∀ (t : Nat) (r : Req) (d : Word) (s : State),
    Accepted r .RING_CTRL 0 d (s.at t) →
    bitOf d 1 = false →
    bitOf d 3 = false →
    ∃ s', exec (.ringEnable t r d) s = .next s' ∧ s'.reg .RING_CTRL 0 = d &&& 5#32 ∧
      RingTo (if bitOf d 0 = true then max 1 (ringState s) else 0) s s' ∧
      (bitOf d 0 = false → ringState s ≠ 0 → s'.rb .RING_STAT 0 2 = true ∧ s'.ring = { flowDone := s.ring.flowDone }) ∧
      (bitOf d 0 = true → s'.ring = s.ring) ∧
      Frame [.clasp, .ring] [.RING_CTRL, .RING_STAT, .RING_EVT] atNone s s') ∧
  (∀ (t : Nat) (slot : List Byte) (arr : Nat) (s : State),
    slaveUp (s.at t) = true →
    ringState s = 1 →
    slotGood slot = true →
    s.ring.good < 64 →
    ∃ s', exec (.ringSlot t slot arr) s = .next s' ∧
      (if s.ring.good = 63 then RingTo 2 s s' else s'.ring = { s.ring with good := s.ring.good + 1 } ∧ ringState s' = 1) ∧
      Frame [.clasp, .ring] [.RING_STAT, .RING_EVT] atNone s s') ∧
  (∀ (t : Nat) (slot : List Byte) (arr : Nat) (s : State),
    let mo := slotOut (s.at t) arr
    slaveUp (s.at t) = true →
    2 ≤ ringState s →
    slotGood slot = false →
    ∃ s', exec (.ringSlot t slot arr) s = .next s' ∧ s'.rb .RING_EVT 0 6 = true ∧
      s'.rf .RING_CRCERR 0 0 32 = satInc 4294967295 (s.rf .RING_CRCERR 0 0 32) ∧
      s'.out = .slot (slotBytes s mo (sym slot 3) ((List.range 8).map fun k => lineField slot k) (slotMsg slot) true) :: s.out ∧
      Frame [.clasp, .out] [.RING_EVT, .RING_CRCERR] atNone s s') ∧
  (∀ (t : Nat) (slot : List Byte) (arr : Nat) (s : State),
    let mo := slotOut (s.at t) arr
    let mi := arr / 512 / 2560
    let m := slotMsg slot
    SlotAlone slot (s.at t) →
    (m.type = 0 ∨ (6 ≤ m.type ∧ m.origin ≠ ringId s)) →
    ∃ s', exec (.ringSlot t slot arr) s = .next s' ∧
      s'.ring.inbox = s.ring.inbox ++ abortIn slot s ++ linesIn slot mi ∧
      s'.out = .slot (slotBytes s mo (abortOn slot s) (linesOut slot mi mo) (if m.type = 0 then emptyMsg else m) false) :: s.out ∧
      Frame [.clasp, .ring, .wakes, .out] [] atNone s s') ∧
  (∀ (t : Nat) (slot : List Byte) (arr : Nat) (s : State),
    let mo := slotOut (s.at t) arr
    let mi := arr / 512 / 2560
    let m := slotMsg slot
    let x := leNat m.payload
    SlotAlone slot (s.at t) →
    1 ≤ m.type ∧ m.type ≤ 5 ∧ m.origin ≠ ringId s →
    (s.ring.seen.find? fun y => decide (y.1 = m.origin)).map Prod.snd ≠ some (m.type, m.seqno) →
    ∃ s', exec (.ringSlot t slot arr) s = .next s' ∧
      s'.ring.inbox = s.ring.inbox ++ abortIn slot s ++ linesIn slot mi ++ msgIn slot arr mo s ∧
      s'.ring.seen.find? (fun y => decide (y.1 = m.origin)) = some (m.origin, (m.type, m.seqno)) ∧
      s'.out = .slot (slotBytes s mo (abortOn slot s) (linesOut slot mi mo)
        (if m.type = 3 ∧ ringMaster s = false then
          { m with payload := leBytes 5 (x % 2 ^ 40 + ringWire s + ringF s) ++ leBytes 1 (x / 2 ^ 40 % 256 + 1) ++ m.payload.drop 6 }
         else m) false) :: s.out ∧
      Frame [.clasp, .ring, .wakes, .out] [] atNone s s') ∧
  (∀ (t : Nat) (slot : List Byte) (arr : Nat) (o : RingMsg) (k : Nat × Nat) (s : State),
    let mo := slotOut (s.at t) arr
    let m := slotMsg slot
    slaveUp (s.at t) = true →
    2 ≤ ringState s →
    slotGood slot = true →
    s.ring.sender = some (sym slot 2 % 32) →
    m.origin = ringId s →
    (m.type = 1 ∨ m.type = 4 ∨ m.type = 5) →
    s.ring.round = 0 →
    s.ring.own = some (o, k) →
    o.type = m.type ∧ o.seqno = m.seqno →
    sym slot 3 = 0 →
    s.ring.abortAt = none →
    s.ring.lines = [] →
    (∀ j : Nat, j < 8 → lineField slot j = 0) →
    ∃ s', exec (.ringSlot t slot arr) s = .next s' ∧ s'.ring = { s.ring with own := none, quiet := mo + 32 } ∧
      s'.out = .slot (slotBytes s mo 0 (List.replicate 8 0) emptyMsg false) :: s.out ∧ Frame [.clasp, .ring, .out] [] atNone s s') ∧
  (∀ (t : Nat) (slot : List Byte) (arr k e a : Nat) (m : RingMsg) (rest : List RingMsg) (s : State),
    let mo := slotOut (s.at t) arr
    slaveUp (s.at t) = true →
    2 ≤ ringState s →
    slotGood slot = true →
    s.ring.sender = some (sym slot 2 % 32) →
    (slotMsg slot).type = 0 →
    sym slot 3 = 0 →
    (∀ j : Nat, j < 8 → lineField slot j = 0) →
    k < 8 →
    s.ring.lines = [(k, (e, a))] →
    a + 80 ≤ 2560 * mo →
    s.ring.abortAt = some a →
    s.ring.own = none →
    s.ring.round = 0 →
    s.ring.quiet ≤ mo →
    s.ring.queue = m :: rest →
    ∃ s', exec (.ringSlot t slot arr) s = .next s' ∧
      s'.ring = { s.ring with
        lines := [], onRing := s.ring.onRing ++ [(k, e)], abortAt := none, abortOut := true, queue := rest, own := some (m, (mo, 1)) } ∧
      s'.out = .slot (slotBytes s mo (128 + ringId s) ((List.range 8).map fun j => if j = k then linePut mo e else 0) m false) :: s.out ∧
      Frame [.clasp, .ring, .out] [] atNone s s') ∧
  (∀ (t : Nat) (close : Bool) (s : State),
    close = (decide (ringState s < 2) || !s.rb .PWR_RAIL 0 2 || !s.rb .PWR_RAIL 0 3) →
    ∃ s', exec (.ringBypassChange t close) s = .next s' ∧ s'.rb .RING_STAT 0 2 = close ∧ Frame [.clasp] [.RING_STAT] atNone s s') ∧
  (∀ (t : Nat) (r : Req) (d : Word) (s : State),
    Accepted r .RING_CTRL 0 (d ||| 8#32) (s.at t) →
    bitOf d 0 = true →
    bitOf d 1 = false →
    2 ≤ ringState s →
    ∃ s', exec (.ringAbortRequest t r d) s = .next s' ∧
      s'.ring.abortAt = (match s.ring.abortAt with | none => some (s.at t).clasp | x => x) ∧
      Frame [.clasp, .ring] [.RING_CTRL] atNone s s') ∧
  (∀ (t : Nat) (m : RingMsg) (sent k : Nat) (s : State),
    let due := sent + 96 < (s.at t).clasp / 2560
    2 ≤ ringState s →
    s.ring.own = some (m, (sent, k)) →
    0 < sent →
    due →
    ∃ s', exec (.ringMsgRetry t) s = .next s' ∧
      (if k < 3 then s'.ring = { s.ring with own := some (m, (0, k)) } ∧ Frame [.clasp, .ring] [] atNone s s'
       else s'.ring.own = none ∧ s'.rb .RING_EVT 0 8 = true ∧
        s'.rf .RING_MSGFAIL 0 0 32 = satInc 4294967295 (s.rf .RING_MSGFAIL 0 0 32) ∧
        Frame [.clasp, .ring] [.RING_MSGFAIL, .RING_EVT] atNone s s'))

/-- The time master begins a round and at its end computes ε and N and sends RESID; a follower keeps a, f, ACCin and
HOPS, computes e with ties away from zero, and applies it to the count and the fine offset when idle, entering SYNC;
with |e| above 1 ns or no round in 10 periods SYNC returns to UP (R397, R398). A START goes to Cap, and on a part not
in SYNC is followed by an ABORT (R403); an ABORT goes to Cap (R404); a trigger message to every unit's cluster
(R402). Heartbeats are sent each period, recorded, and missed (R405, R406). -/
def Obligations.RingAlignsTimeAndDelivers : Prop :=
  (∀ (t : Nat) (s : State),
    slaveUp (s.at t) = true →
    ringMaster s = true →
    2 ≤ ringState s →
    s.ring.round = 0 →
    ∃ s', exec (.ringRoundStart t) s = .next s' ∧
      s'.ring = { s.ring with round := 1, empties := 0, accBack := none, aBack := none } ∧ Frame [.clasp, .ring] [] atNone s s') ∧
  (∀ (t : Nat) (r : Req) (d : Word) (s : State),
    Accepted r .RING_CTRL 0 (d ||| 2#32) (s.at t) →
    bitOf d 0 = true →
    bitOf d 3 = false →
    ringMaster s = true →
    2 ≤ ringState s →
    s.ring.round = 0 →
    ∃ s', exec (.ringRecal t r d) s = .next s' ∧
      s'.ring = { s.ring with round := 1, empties := 0, accBack := none, aBack := none } ∧
      Frame [.clasp, .ring] [.RING_CTRL] atNone s s') ∧
  (∀ (t a acc hops : Nat) (s : State),
    let r := s.ring
    let eps : Int := (a : Int) - (r.tm : Int) - (acc : Int) - (ringWire s : Int)
    r.round = 3 →
    r.aBack = some a →
    r.accBack = some (acc, hops) →
    hops < 32 →
    2 ≤ ringState s →
    r.queue = [] →
    ∃ s', exec (.ringLoopReturn t) s = .next s' ∧ RingTo 3 s s' ∧ s'.rf .RING_STAT 0 16 6 = hops + 1 ∧
      s'.reg .RING_ROUNDS 0 = s.reg .RING_ROUNDS 0 + 1#32 ∧ s'.rb .RING_EVT 0 3 = true ∧ s'.ring.round = 0 ∧
      s'.ring.roundNo = (r.roundNo + 1) % 65536 ∧ s'.ring.lastRound = (s.at t).clasp ∧
      (s'.ring.queue.map fun m => (m.type, m.payload)) =
        [(4, leBytes 4 (unsigned 32 eps) ++ leBytes 1 (hops + 1) ++ leBytes 1 0 ++ leBytes 2 r.roundNo)] ∧
      Frame [.clasp, .ring] [.RING_STAT, .RING_ROUNDS, .RING_EVT] atNone s s') ∧
  (∀ (t at_ ft mt : Nat) (s : State),
    let p : RingItem → Bool := fun x => match x with | .time _ _ _ => true | _ => false
    s.ring.inbox.find? p = some (.time at_ ft mt) →
    ∃ s', exec (.ringTime t) s = .next s' ∧ s'.ring = { s.ring with inbox := s.ring.inbox.eraseP p, a := at_, f := ft, tm := mt } ∧
      Frame [.clasp, .ring] [] atNone s s') ∧
  (∀ (t acc hp : Nat) (s : State),
    let p : RingItem → Bool := fun x => match x with | .acc _ _ => true | _ => false
    s.ring.inbox.find? p = some (.acc acc hp) →
    ∃ s', exec (.ringAcc t) s = .next s' ∧ s'.ring = { s.ring with inbox := s.ring.inbox.eraseP p, accIn := acc, hops := hp } ∧
      Frame [.clasp, .ring] [] atNone s s') ∧
  (∀ (t N : Nat) (eps : Int) (s : State),
    let p : RingItem → Bool := fun x => match x with | .resid _ _ => true | _ => false
    let r := s.ring
    let e : Int := ((r.tm * 512 + r.accIn + ringWire s : Nat) : Int) + roundAway (eps * ((r.hops + 1 : Nat) : Int)) N - (r.a : Int)
    r.inbox.find? p = some (.resid eps N) →
    1 ≤ N ∧ N ≤ 32 →
    ∃ s', exec (.ringResid t) s = .next s' ∧ s'.ring.stepE = some e ∧ s'.ring.inbox = r.inbox.eraseP p ∧
      s'.rb .RING_STAT 0 24 = true ∧ s'.rf .RING_STAT 0 16 6 = N ∧
      (-2147483648 ≤ e → e ≤ 2147483647 → signed 32 (s'.reg .RING_TERR 0).toNat = e) ∧
      s'.reg .RING_ROUNDS 0 = s.reg .RING_ROUNDS 0 + 1#32 ∧ s'.rb .RING_EVT 0 3 = true ∧
      s'.rb .RING_STAT 0 25 = (s.rb .RING_STAT 0 25 || decide (41 < e.natAbs)) ∧
      (41 < e.natAbs → s'.rb .RING_EVT 0 4 = true) ∧
      (if ringState s = 3 ∧ 4096 < e.natAbs then
        RingTo 2 s s' ∧ s'.rb .RING_STAT 0 26 = true ∧ s'.rb .RING_EVT 0 5 = true else ringState s' = ringState s) ∧
      Frame [.clasp, .ring] [.RING_STAT, .RING_TERR, .RING_ROUNDS, .RING_EVT] atNone s s') ∧
  (∀ (t : Nat) (e : Int) (s : State),
    let u := s.at t
    let x := ((u.clasp * 512 + s.rf .RING_TFINE 0 0 9 : Nat) : Int) + e
    slaveUp u = true →
    pwrState s ≠ 3 →
    2 ≤ ringState s →
    s.ring.stepE = some e →
    stepIdle u = true →
    0 ≤ x →
    ∃ s', exec (.ringStepApply t) s = .next s' ∧ ((s'.clasp * 512 + s'.rf .RING_TFINE 0 0 9 : Nat) : Int) = x ∧ RingTo 3 s s' ∧
      s'.rb .RING_STAT 0 24 = false ∧ s'.ring = { s.ring with stepE := none } ∧
      Frame [.clasp, .ring] [.RING_STAT, .RING_TFINE, .RING_EVT] atNone s s') ∧
  (∀ (t : Nat) (s : State),
    let p := s.rf .RING_TCFG 0 0 16
    slaveUp (s.at t) = true →
    ringState s = 3 →
    p ≠ 0 →
    s.ring.lastRound + 10 * p * 8000000 ≤ (s.at t).clasp →
    ∃ s', exec (.ringRoundTimeout t) s = .next s' ∧ RingTo 2 s s' ∧ Frame [.clasp] [.RING_STAT, .RING_EVT] atNone s s') ∧
  (∀ (t tf : Nat) (s : State),
    let p : RingItem → Bool := fun x => match x with | .start _ => true | _ => false
    slaveUp (s.at t) = true →
    pwrState s ≠ 3 →
    s.ring.inbox.find? p = some (.start tf) →
    s.rf .CAP_CTRL 0 4 2 = 2 →
    capState s = 2 →
    tf < 2 ^ 64 →
    ∃ s', exec (.ringStart t) s = .next s' ∧ s'.rb .RING_EVT 0 13 = true ∧ Took p (.start tf) s s' ∧
      s'.pair .CAP_TF_LO .CAP_TF_HI 0 = tf ∧ s'.reg .CAP_FLOWNO 0 = s.reg .CAP_FLOWNO 0 + 1#32 ∧
      (ringState s = 3 → FlowBegun tf s s') ∧
      (ringState s ≠ 3 → s'.rb .RING_EVT 0 11 = true ∧ capState s' = 4 ∧ s'.cap.aborted = true ∧ s'.cap.sites.any (fun x => x.active) = false) ∧
      Frame [.clasp, .chans, .seqs, .cap, .ring, .cal, .life]
        (.RING_EVT :: .CL_MR_STAT :: flowRegs) atAll s s') ∧
  (∀ (t : Nat) (n : Cluster) (s : State),
    let p : RingItem → Bool := fun x => match x with | .abort => true | _ => false
    slaveUp (s.at t) = true →
    pwrState s ≠ 3 →
    s.ring.inbox.find? p = some .abort →
    capState s < 3 →
    seqState s n = 2 →
    (s.seq n).ending = none →
    (s.seq n).abort = none →
    (s.seq n).unwind = false →
    0 < (s.seq n).seqNo →
    ∃ s', exec (.ringAbort t) s = .next s' ∧ s'.rb .RING_EVT 0 12 = true ∧ Took p .abort s s' ∧ capState s' = 0 ∧
      (s'.seq n).abort = (if s.rb .RING_CTRL 0 2 then some ((s.at t).clasp + 80, 3) else none) ∧
      Frame [.clasp, .chans, .seqs, .cap, .ring] [.RING_EVT, .CAP_STAT, .CAP_EVT, .CL_MR_STAT] atAll s s') ∧
  (∀ (t k e : Nat) (n : Cluster) (s : State),
    let p : RingItem → Bool := fun x => match x with | .trigger _ _ => true | _ => false
    slaveUp (s.at t) = true →
    pwrState s ≠ 3 →
    s.ring.inbox.find? p = some (.trigger k e) →
    ∃ s', exec (.ringTrigger t) s = .next s' ∧ s'.trig n = { s.trig n with evts := (s.trig n).evts ++ [.ring k e] } ∧
      Took p (.trigger k e) s s' ∧ Frame [.clasp, .trigs, .ring] [] atAll s s') ∧
  (∀ (t k : Nat) (w : List Byte) (s : State),
    let p : RingItem → Bool := fun x => match x with | .health _ _ => true | _ => false
    let v := leNat w
    s.ring.inbox.find? p = some (.health k w) →
    k < 32 →
    ∃ s', exec (.ringHealth t) s = .next s' ∧ s'.reg .RING_PEER k = BitVec.ofNat 32 v ∧ s'.rb .RING_PEERX k 31 = true ∧
      s'.rb .RING_PEERX k 30 = false ∧ s'.rf .RING_PEERX k 16 5 = v / 2 ^ 48 % 32 ∧ s'.rf .RING_PEERX k 0 16 = v / 2 ^ 32 % 2 ^ 16 ∧
      tabGet 0 s'.ring.heard k = (s.at t).clasp ∧ Took p (.health k w) s s' ∧
      (∀ j : Nat, j < 32 → j ≠ k → s'.reg .RING_PEER j = s.reg .RING_PEER j ∧ s'.reg .RING_PEERX j = s.reg .RING_PEERX j) ∧
      Frame [.clasp, .ring] [.RING_PEER, .RING_PEERX] atNone s s') ∧
  (∀ (t : Nat) (s : State),
    let u := s.at t
    slaveUp u = true →
    2 ≤ ringState s →
    s.ring.beat + max 1 (s.rf .RING_HB 0 0 16) * 8000 ≤ u.clasp →
    ∃ s', exec (.heartbeatSend t) s = .next s' ∧ s'.ring.beat = u.clasp ∧ s'.ring.seqno = (s.ring.seqno + 1) % 8 ∧
      s'.ring.queue = msgInsert ⟨5, ringId s, s.ring.seqno, healthWord u⟩ s.ring.queue ∧ Frame [.clasp, .ring] [] atNone s s') ∧
  (∀ (t : Nat) (p : Fin 32) (s : State),
    let u := s.at t
    slaveUp u = true →
    2 ≤ ringState s →
    s.rb .RING_PEERX p.val 31 = true →
    tabGet 0 s.ring.heard p.val + max 1 (s.rf .RING_HB 0 16 4) * (max 1 (s.rf .RING_HB 0 0 16) * 8000) ≤ u.clasp →
    s.rb .RING_PEERX p.val 30 = false →
    ∃ s', exec (.heartbeatLost t p) s = .next s' ∧ s'.rb .RING_PEERX p.val 30 = true ∧ s'.rb .RING_EVT 0 1 = true ∧
      (∀ j : Nat, j < 32 → j ≠ p.val → s'.reg .RING_PEERX j = s.reg .RING_PEERX j) ∧
      Frame [.clasp] [.RING_EVT, .RING_PEERX] atNone s s')

/-! ### Clocks, power states and resets (R409 to R437) -/

namespace Sys2Proof.Machine

/-- A clock fault of a cause has been declared (R418): every channel open or opening, AON on its way to the oscillator, the
ROOT-derived domains stopped: sequencers and Cap idle, cluster registers that a WARM reset resets at their values, the ring
OFF and bypassed; message, count and events. -/
def ClockFault (cause : Nat) (s s' : State) : Prop :=
  s'.rb .CLK_STAT 0 2 = false ∧ s'.rb .CLK_STAT 0 5 = true ∧ s'.pwr.fault = true ∧ s'.pwr.aonTo = some false ∧ s'.pwr.passes = 0 ∧
  s'.rf .CLK_FAULT_CNT 0 0 16 = satInc 65535 (s.rf .CLK_FAULT_CNT 0 0 16) ∧ s'.rb .CLK_EVT 0 1 = true ∧
  (cause = 1 → s'.rb .CLK_EVT 0 0 = true) ∧ s'.msgs.getLast? = some ⟨1088, 8, 1, cause⟩ ∧ s'.clasp = s.clasp ∧
  capState s' = 0 ∧ ringState s' = 0 ∧ s'.rb .RING_STAT 0 2 = true ∧
  (∀ n : Cluster, s'.seq n = { } ∧
    (∀ c : Channel, ((s'.chan n c).sw = .opened ∨ (s'.chan n c).sw = .opening) ∧ (s'.chan n c).drvOn = false)) ∧
  (∀ n : Cluster, ∀ r ∈ allRegs, r.row.cluster = true → r.row.warm = 0#32 → r.row.count = 1 → s'.reg r n.val = State.reset.reg r n.val)

/-- The registers to which a WARM reset does more than their tables say: domains, lottery, semaphores, ring, budgets. -/
def warmMore : List Reg :=
  domainRegs ++ [.EVT_PEND0, .EVT_PEND1, .EVT_PEND2, .EVT_PEND3, .LOT_STAT, .SEM_RES, .SEM_EVT, .RING_STAT, .RING_EVT, .CL_PM_IBUD,
    .CL_PM_PBUD, .CL_CAL_STAT]

/-- Element i of r is as a WARM reset leaves it: the bits that the reset does not name as they were, the others as after POR
(R509). -/
def WarmAt (r : Reg) (i : Nat) (s s' : State) : Prop :=
  s'.reg r i = (s.reg r i &&& r.row.warm) ||| (State.reset.reg r i &&& ~~~ r.row.warm)

/-- The parts that a clock fault changes beside the registers, and a WARM reset. -/
def faultParts : List Part :=
  [.clasp, .chans, .seqs, .hops, .blankAt, .stamps, .trigs, .cpts, .awgs, .present, .waiting, .cap, .sems, .txns, .msix, .pba, .ring,
   .pwr, .cal, .msgs, .free]
def warmParts : List Part :=
  [.clasp, .chans, .seqs, .hops, .blankAt, .stamps, .trigs, .cpts, .awgs, .slcShadow, .slcActive, .slcAt, .slcFrame, .slcCnt, .lotTkt,
   .lotPend, .lfsrAt, .present, .waiting, .grants, .atoms, .cap, .sems, .txns, .msix, .pba, .hiLatch, .ring, .pwr, .msp, .gov, .cal,
   .refDue, .refLast, .wakes]

/-- The registers of stopping a generator (R300). -/
def awgStopRegs : List Reg := [.CL_AWG_STAT, .CL_AWG_JLOST, .CL_AWG_EVT]

end Sys2Proof.Machine

/-- A REFCLK window writes its count and passes from 9,800 to 10,200; the first pass starts the PLL (R415, R416). Two
passing judgements in a row make ROOT stable: at first the Clasp count starts at 0 and STATE becomes BOOT (R396,
R421), after a clock fault the count resumes, a WARM reset is applied and TGAP set (R420). A failing window or
judgement, or a loss of lock, while ROOT is stable is a clock fault (R417, R418). A switch of AON ends as the clocks
run (R412 to R414). -/
def Obligations.ClocksJudgeAndSwitch : Prop :=
  (∀ (t count : Nat) (s : State),
    let ok := decide (9800 ≤ count ∧ count ≤ 10200)
    s.pwr.por = false →
    s.pwr.osc = true →
    ∃ s', exec (.refclkWindow t count) s = .next s' ∧ s'.reg .CLK_REF_LAST 0 = BitVec.ofNat 32 (count % 2 ^ 14) ∧
      s'.reg .CLK_REF_JUDGES 0 = s.reg .CLK_REF_JUDGES 0 + 1#32 ∧ s'.rb .CLK_STAT 0 0 = ok ∧
      (ok = true → s'.pwr = { s.pwr with acquiring := true }) ∧
      (if ok = false ∧ s.rb .CLK_STAT 0 2 = true then ClockFault 1 (s.at t) s' ∧ Only faultParts allRegs s s'
       else Frame [.clasp, .pwr] [.CLK_REF_LAST, .CLK_REF_JUDGES, .CLK_STAT] atNone s s')) ∧
  (∀ (t : Nat) (lock : Bool) (s : State),
    s.pwr.acquiring = true →
    s.pwr.por = false →
    s.rb .CLK_STAT 0 1 ≠ lock →
    ∃ s', exec (.pllLock t lock) s = .next s' ∧ s'.rb .CLK_STAT 0 1 = lock ∧ s'.pwr.passes = 0 ∧ s'.pwr.pll = s.reg .CLK_PLL_CFG 0 ∧
      (if lock = false ∧ s.rb .CLK_STAT 0 2 = true then ClockFault 2 (s.at t) s' ∧ Only faultParts allRegs s s'
       else Frame [.clasp, .pwr] [.CLK_STAT] atNone s s')) ∧
  (∀ (t count : Nat) (s : State),
    let pass := judgePasses s.pwr.pll count
    let u := s.at t
    s.rb .CLK_STAT 0 1 = true →
    aonRuns s = true →
    ∃ s', exec (.rootJudgement t count) s = .next s' ∧ s'.reg .CLK_PLL_LAST 0 = BitVec.ofNat 32 (count % 2 ^ 20) ∧
      s'.pwr.pll = s.reg .CLK_PLL_CFG 0 ∧
      (s.rb .CLK_STAT 0 2 = true → pass = false → ClockFault 0 u s' ∧ Only faultParts allRegs s s') ∧
      (s.rb .CLK_STAT 0 2 = true → pass = true → s'.pwr.passes = s.pwr.passes + 1 ∧ Frame [.clasp, .pwr] [.CLK_PLL_LAST] atNone s s') ∧
      (s.rb .CLK_STAT 0 2 = false → (pass = false ∨ s.pwr.passes = 0) →
        s'.pwr.passes = (if pass then 1 else 0) ∧ s'.rb .CLK_STAT 0 2 = false ∧ Frame [.clasp, .pwr] [.CLK_PLL_LAST] atNone s s') ∧
      (s.rb .CLK_STAT 0 2 = false → pass = true → 1 ≤ s.pwr.passes →
        s'.rb .CLK_STAT 0 2 = true ∧ s'.rb .CLK_STAT 0 5 = true ∧ s'.pwr.aonTo = some true ∧
        (s.pwr.stable = false → s'.clasp = 0 ∧ pwrState s' = 1 ∧ s'.pwr.stable = true ∧
          Frame [.clasp, .lfsrAt, .pwr] [.CLK_PLL_LAST, .CLK_STAT, .PWR_STAT] atNone s s') ∧
        (s.pwr.stable = true → s'.clasp = s.clasp ∧ s'.rb .CLK_STAT 0 7 = true ∧ s'.pwr.fault = false ∧ s'.pwr.chip = true ∧
          s'.reg .CLK_GAP 0 = Config.freeWord s.free ∧
          (∀ r ∈ allRegs, r ∉ warmMore → r ∉ [.CLK_STAT, .CLK_GAP, .CLK_PLL_LAST] → WarmAt r 0 s s') ∧
          Only (.hist :: .free :: warmParts) allRegs s s'))) ∧
  (∀ (t : Nat) (root forced : Bool) (s : State),
    s.pwr.aonTo = some root →
    (if root = true then s.pwr.osc ≠ forced else s.pwr.osc = true) →
    ∃ s', exec (.aonSwitch t forced) s = .next s' ∧ s'.rb .CLK_STAT 0 4 = root ∧ s'.rb .CLK_STAT 0 5 = false ∧ s'.pwr.aonTo = none ∧
      s'.rb .CLK_STAT 0 6 = (s.rb .CLK_STAT 0 6 || forced) ∧ (forced = true → s'.rb .CLK_EVT 0 2 = true) ∧
      Frame [.clasp, .pwr] [.CLK_STAT, .CLK_EVT] atNone s s') ∧
  (∀ (t : Nat) (s : State),
    ∃ s', exec (.internalOscillatorFail t) s = .next s' ∧ s'.pwr = { s.pwr with osc := false } ∧ Frame [.clasp, .pwr] [] atNone s s')

/-- While ROOT_STABLE is 1, a failing REFCLK window and a failing judgement are clock faults, declared at their end,
and so is PLL_LOCK falling to 0, declared at the loss (R417). -/
def Obligations.ClockFaultsAreDeclared : Prop :=
  (∀ (t count : Nat) (s : State),
    s.pwr.por = false →
    s.pwr.osc = true →
    s.rb .CLK_STAT 0 2 = true →
    (count < 9800 ∨ 10200 < count) →
    ∃ s', exec (.refclkWindow t count) s = .next s' ∧ ClockFault 1 (s.at t) s') ∧
  (∀ (t count : Nat) (s : State),
    s.rb .CLK_STAT 0 1 = true →
    aonRuns s = true →
    s.rb .CLK_STAT 0 2 = true →
    judgePasses s.pwr.pll count = false →
    ∃ s', exec (.rootJudgement t count) s = .next s' ∧ ClockFault 0 (s.at t) s') ∧
  (∀ (t : Nat) (s : State),
    s.pwr.acquiring = true →
    s.pwr.por = false →
    s.rb .CLK_STAT 0 1 = true →
    s.rb .CLK_STAT 0 2 = true →
    ∃ s', exec (.pllLock t false) s = .next s' ∧ ClockFault 2 (s.at t) s')

/-- A written or automatic request enters SLEEP in an MGMT cycle in which R422 holds, and a wake cause in that cycle
cancels it; banks named for it show RETENTION (R423, R424). A wake makes STATE ACTIVE and records its cause (R427). A
quiet cluster is gated (R428). A rail out of range forces every channel safe and is reported; its return is counted
by its length (R431, R484). POR leaves everything at its reset value; a WARM reset leaves each register as its table
says, and Millpond (R509); its end makes STATE ACTIVE, or BOOT (R432). SHUTDOWN aborts Cap and sequencers and forces
every channel safe (R435). -/
def Obligations.PowerStatesAndResets : Prop :=
  (∀ (t : Nat) (r : Req) (d : Word) (s : State),
    Accepted r .PWR_CTRL 0 (d ||| 1#32) (s.at t) →
    bitOf d 4 = false →
    ∃ s', exec (.sleepRequest t r d) s = .next s' ∧ s'.rb .PWR_STAT 0 3 = true ∧ pwrState s' = 2 ∧
      Frame [.clasp] [.PWR_CTRL, .PWR_STAT] atNone s s') ∧
  (∀ (t : Nat) (s : State),
    s.rb .PWR_CTRL 0 2 = true →
    sleepReady (s.at t) = true →
    ∃ s', exec (.autoSleep t) s = .next s' ∧ s'.pwr = { s.pwr with auto := true } ∧ Frame [.clasp, .pwr] [] atNone s s') ∧
  (∀ (t : Nat) (b : Bank) (s : State),
    let u := s.at t
    (s.rb .PWR_STAT 0 3 = true ∨ s.pwr.auto = true) →
    sleepReady u = true →
    ∃ s', exec (.sleepEnter t) s = .next s' ∧ s'.rb .PWR_STAT 0 3 = false ∧ s'.pwr.auto = false ∧
      (s.wakes.any (fun w => decide (w.2 = u.clasp / 80)) = true → pwrState s' = 2 ∧ s'.rb .CLK_EVT 0 5 = true ∧
        Frame [.clasp, .pwr] [.PWR_STAT, .CLK_EVT] atNone s s') ∧
      (s.wakes.any (fun w => decide (w.2 = u.clasp / 80)) = false → pwrState s' = 3 ∧ s'.rb .CLK_EVT 0 3 = true ∧
        s'.reg .PWR_SLEEP_CNT 0 = s.reg .PWR_SLEEP_CNT 0 + 1#32 ∧
        (s.rb .BANK_STATE b.val 8 = false → s.rf .BANK_STATE b.val 4 2 = 0 →
          s'.rf .BANK_STATE b.val 4 2 = if bankRet s b.val then 1 else 0) ∧
        Frame [.clasp, .pwr, .wakes] [.BANK_STATE, .PWR_STAT, .PWR_SLEEP_CNT, .CLK_EVT] atNone s s')) ∧
  (∀ (t c : Nat) (b : Bank) (s : State),
    let u := s.at t
    pwrState s = 3 →
    wakeSource (match wakeCause u with | some k => u.wake k | none => u) = some c →
    c < 8 →
    ∃ s', exec (.wake t) s = .next s' ∧ pwrState s' = 2 ∧ s'.rf .PWR_STAT 0 8 3 = c ∧ s'.rb .CLK_EVT 0 4 = true ∧ s'.wakes = [] ∧
      (s.rb .BANK_STATE b.val 8 = false → s'.rf .BANK_STATE b.val 4 2 = s.rf .BANK_STATE b.val 0 2) ∧
      Frame [.clasp, .wakes] [.BANK_STATE, .PWR_STAT, .CLK_EVT] atNone s s') ∧
  (∀ (t : Nat) (n : Cluster) (s : State),
    s.rb .PWR_CTRL 0 3 = true →
    pwrState s = 2 →
    cluQuiet (s.at t) n = true →
    ∃ s', exec (.clusterGate t n) s = .next s' ∧ s'.reg .PWR_CLU_GATE 0 = putBit (s.reg .PWR_CLU_GATE 0) n.val true ∧
      Frame [.clasp] [.PWR_CLU_GATE] atNone s s') ∧
  (∀ (t : Nat) (rail : Fin 5) (s : State),
    s.rb .PWR_RAIL 0 (railBit rail) = true →
    ∃ s', exec (.railFault t rail) s = .next s' ∧ s'.reg .PWR_RAIL 0 = putBit (s.reg .PWR_RAIL 0) (railBit rail) false ∧
      (∀ n : Cluster, ∀ c : Channel, SafeForced n c s s') ∧ s'.msgs = s.msgs ++ [⟨1088, 9, 2, railBit rail⟩] ∧ s'.rb .CLK_EVT 0 6 = true ∧
      Frame [.clasp, .chans, .msgs, .free] (.PWR_RAIL :: .CLK_EVT :: safeRegs) atAll s s') ∧
  (∀ (t micros : Nat) (rail : Fin 5) (s : State),
    let o := 96 + 8 * rail.val + 2 * railSpan micros
    s.pwr.por = false →
    s.rb .PWR_RAIL 0 (railBit rail) = false →
    ∃ s', exec (.railReturnInRange t rail micros) s = .next s' ∧
      s'.reg .PWR_RAIL 0 = putBit (s.reg .PWR_RAIL 0) (railBit rail) true ∧ tabGet 0 s'.life o = satInc 65535 (tabGet 0 s.life o) ∧
      (∀ x : Nat, x < 12288 → x ≠ o → tabGet 0 s'.life x = tabGet 0 s.life x) ∧ Frame [.clasp, .life] [.PWR_RAIL] atNone s s') ∧
  (∀ (t : Nat) (core : Bool) (s : State),
    tabWf (fun _ => ({ } : Chan)) s.chans = true →
    ∃ s', exec (.por t core) s = .next s' ∧
      s' = { State.reset with pending := s.pending, chans := s'.chans, pwr := { rst := s.pwr.rst }, free := s.free, out := s.out } ∧
      (∀ n : Cluster, ∀ c : Channel, s'.chan n c = { sw := if (s.chan n c).sw = .opened then .opened else .opening })) ∧
  (∀ (t : Nat) (s : State),
    s.pwr.por = true →
    ∃ s', exec (.pwrgdRise t) s = .next s' ∧ s'.pwr = { s.pwr with por := false } ∧ s'.reg .PWR_RAIL 0 = 0x17F#32 ∧
      Frame [.clasp, .pwr] [.PWR_RAIL] atNone s s') ∧
  (∀ (t i : Nat) (r : Reg) (s : State),
    s.pwr.por = false →
    s.pwr.rst = false →
    r ∉ warmMore →
    ∃ s', exec (.warmReset t true) s = .next s' ∧ s'.pwr = { s.pwr with rst := true } ∧ WarmAt r i s s' ∧ s'.mem = s.mem ∧
      (∀ n : Cluster, s'.seq n = { } ∧ s'.hop n = { } ∧ s'.reg .CL_PM_IBUD n.val = s'.reg .GOV_NOM_IBUD n.val ∧
        s'.reg .CL_PM_PBUD n.val = s'.reg .GOV_NOM_PBUD n.val ∧
        (∀ c : Channel, s'.chan n c = { sw := if (s.chan n c).sw = .opened then .opened else .opening })) ∧
      s'.cap = { } ∧ (∀ h : Dom, s'.txn h.val = { }) ∧ s'.sems = [] ∧ s'.waiting = [] ∧ s'.wakes = [] ∧ s'.clasp = (s.at t).clasp ∧
      Only warmParts allRegs s s') ∧
  (∀ (t : Nat) (s : State),
    (s.pwr.rst = true ∨ s.pwr.chip = true) →
    s.pwr.por = false →
    s.pwr.stable = true →
    s.pwr.fault = false →
    s.tap ≠ 0 ∧ s.tap ≠ 3 ∧ s.tap ≠ 4 →
    (s.rb .BOOT_STAT 0 8 = false ∨ s.rb .BOOT_STAT 0 6 = false) →
    ∃ s', exec (.warmReset t false) s = .next s' ∧ s'.pwr = { s.pwr with rst := false, chip := false } ∧
      s'.reg .PWR_STAT 0 = (if s.rb .BOOT_STAT 0 8 then 2#32 else 1#32) ∧
      (s.rb .BOOT_STAT 0 8 = true → ∀ n : Cluster, calDueNow s' n = true) ∧
      Frame [.clasp, .bands, .ring, .pwr, .cal] [.PWR_STAT, .RING_STAT, .RING_EVT, .CL_CAL_STAT, .CL_TIM_STAT] atAll s s') ∧
  (∀ (t : Nat) (r : Req) (d : Word) (n : Cluster) (s : State),
    Accepted r .PWR_CTRL 0 (d ||| 0x10#32) (s.at t) →
    seqState s n = 2 →
    (s.seq n).ending = none →
    (s.seq n).abort = none →
    (s.seq n).unwind = false →
    0 < (s.seq n).seqNo →
    capState s < 3 →
    ∃ s', exec (.shutdown t r d) s = .next s' ∧ pwrState s' = 4 ∧ capState s' = 0 ∧
      (s'.seq n).abort = some ((s.at t).clasp + 80, 1) ∧ (∀ c : Channel, SafeForced n c s s') ∧
      Frame [.clasp, .chans, .seqs, .awgs, .cap, .ring, .free]
        (.PWR_CTRL :: .PWR_STAT :: .CAP_STAT :: .CAP_EVT :: .CL_MR_STAT :: (awgStopRegs ++ safeRegs)) atAll s s')

/-! ### Governor and tentering (R438 to R462) -/

namespace Sys2Proof.Machine

/-- A write of a whole word by q reaches the register slave and is staged, refused or narrowed by none of its rules. -/
def Reaches (q : Req) (r : Reg) (i : Nat) (w : Word) (s : State) : Prop :=
  served s q = true ∧ pwrState s = 2 ∧ stages q (r.addr i) s = false ∧ refuseCode q (r.addr i) w 0xFFFFFFFF#32 s = 0 ∧
  flowBits q (r.addr i) 0xFFFFFFFF#32 s = 0xFFFFFFFF#32 ∧ (r.row.cluster = true → s.rb .ID_CLU_RST 0 (r.cluOf i) = false)

/-- Sensor j is converted: the part is out of POR and a remote input is enabled (R439). -/
def Converts (j : Sensor) (s : State) : Prop := s.pwr.por = false ∧ (28 ≤ j.val → s.rb .THS_DIODE j.val 0 = true)

/-- HOT, RISING and CRIT of sensor j after a good conversion with reading x, in sixteenths of a degree (R441). -/
def hotAfter (s : State) (j : Nat) (x : Int) : Bool :=
  let high := signed 16 (s.rf .THS_LIM j 0 16)
  decide (high ≤ x) || (s.rb .THS_TEMP j 17 && decide (high - 32 ≤ x))
def critAfter (s : State) (j : Nat) (x : Int) : Bool :=
  let crit := signed 16 (s.rf .THS_LIM j 16 16)
  decide (crit ≤ x) || (s.rb .THS_TEMP j 19 && decide (crit - 32 ≤ x))
def risingAfter (s : State) (j : Nat) (x : Int) : Bool :=
  let past := fun k => (tabGet [] s.hist j)[k]?
  let fast := s.rf .THS_RATE j 0 16
  let slow := s.rf .THS_RATE j 16 16
  (match past 99 with | some y => decide (fast ≠ 0 ∧ 16 * (fast : Int) < 100 * (x - y)) | none => false) ||
  (match past 999 with | some y => decide (slow ≠ 0 ∧ 16 * (slow : Int) < 10 * (x - y)) | none => false)

/-- The Governor's level of a cluster after an evaluation (R440, R442): some sensor in scope has CRIT; some has a cause, since
ESC ms or longer without a rise; a junction sensor in scope is faulted; no cause for ESC ms. -/
def levelAfter (lv : Nat) (crit cause held rise fall : Bool) : Nat :=
  if crit then 4
  else
    let b := if lv = 4 then 3 else if cause then (if lv = 0 then 1 else if lv < 3 ∧ rise = true then lv + 1 else lv)
      else if fall then lv - 1 else lv
    if held then max 3 b else b

/-- Some sensor whose scope includes cluster n satisfies p. -/
def anySensor (s : State) (n : Nat) (p : Nat → Bool) : Bool := (List.range 36).any fun j => inScope s j n && p j

/-- CL_PM_IBUD and CL_PM_PBUD of cluster n are the nominal budgets, tightened at levels 1 to 4 (R444). -/
def BudgetsFollow (n : Cluster) (s : State) : Prop :=
  let f := fun (w : Word) => if govLevel s n = 0 then w else BitVec.ofNat 32 (w.toNat * s.rf .GOV_CTRL 0 24 8 / 256)
  s.reg .CL_PM_IBUD n.val = f (s.reg .GOV_NOM_IBUD n.val) ∧ s.reg .CL_PM_PBUD n.val = f (s.reg .GOV_NOM_PBUD n.val)

/-- What a conversion may change: parts and registers. -/
def govParts : List Part := [.clasp, .chans, .seqs, .awgs, .hist, .gov, .cal, .msgs, .free]
def govRegs : List Reg :=
  [.GOV_STAT, .GOV_EVT, .GOV_CLU, .THS_TEMP, .CL_CAL_STAT, .CL_CAL_EVT, .CL_PM_IBUD, .CL_PM_PBUD, .CL_MR_STAT, .CL_MR_ID,
   .CL_MR_RADDR, .CL_MR_UADDR, .CL_MR_DIGEST, .CL_MR_TOUCHED, .CL_MR_LC] ++ awgStopRegs ++ safeRegs

/-- The registers that starts held back change when they take place (R456, R457, R477). -/
def heldRegs : List Reg :=
  [.CL_SEQ_STAT, .CL_SEQ_RES, .CL_SEQ_VCNT_LO, .CL_SEQ_VCNT_HI, .CL_SEQ_STALLS, .CL_SEQ_HOLDV, .CL_SEQ_BUBBLES, .CL_SEQ_EVT,
   .CL_SEQ_FFVALID, .CL_SEQ_FCNT, .CL_CAL_STAT, .CL_CAL_EVT, .CL_STORE_STAT, .CL_CAP_T0_LO, .CL_CAP_T0_HI, .CL_CAP_STAT,
   .CL_CAP_ICNT, .CL_AWG_STAT, .CL_AWG_EVT, .CL_MR_STAT, .CL_MR_EVT] ++ gateRegs

/-- Cluster n is due, and calibration neither steps on it nor interrupts it. -/
def DueAndFree (n : Cluster) (s : State) : Prop := calDueNow s n = true ∧ calStepOn s n = false ∧ calIntrOn s n = false

/-- One result (a cluster offset and a word) of a step on cluster n stands (R451, R455): a trim has it as target, the page of the
active band of a correction table holds it. -/
def ResultStands (n : Cluster) (p : Nat × Word) (s' : State) : Prop :=
  (0x16000 ≤ p.1 → s'.reg .CH_TRIM (2048 * n.val + (p.1 - 0x16000) / 4) = p.2) ∧
  (0x15800 ≤ p.1 ∧ p.1 < 0x16000 → s'.reg .AWG_TRIM (2 * n.val + (p.1 - 0x15800) / 16) = p.2) ∧
  (0x15000 ≤ p.1 ∧ p.1 < 0x15800 → s'.reg .STCORR_TAB (320 * n.val + (p.1 - 0x15000) / 4) = p.2 &&& 0x7FFF#32) ∧
  (p.1 < 0x15000 → s'.reg .CORR_TAB (960 * n.val + (p.1 - 0x14000) / 4) = p.2 &&& 0x7FFF#32)

end Sys2Proof.Machine

/-- A good conversion shows the reading with HOT, RISING and CRIT by R441; one outside -64 to 200 degrees, or open or
shorted, faults the sensor (R440; the model leaves TEMP of an open or shorted input free). Every cluster's level is
then evaluated by R442; where it changes, the budgets follow (R444), and level 4 forces its channels safe, traps its
sequencer and is reported (R448). A Governor stop acts as an ABORT with cause 4 and a STOP of captures (R445). A
nominal budget is stored, or refused where the sum of 24 would pass the limit (R444). -/
def Obligations.SensorsAndGovernorLevels : Prop :=
  (∀ (t : Nat) (j : Sensor) (x : Int) (s : State),
    let hot := hotAfter s j.val x
    let rising := risingAfter s j.val x
    let crit := critAfter s j.val x
    Converts j s →
    -1024 ≤ x ∧ x ≤ 3200 →
    ∃ s', exec (.sensorConversion t j (.temp x)) s = .next s' ∧
      s'.reg .THS_TEMP j.val = BitVec.ofNat 32 (unsigned 16 x + 2 ^ 16 + 2 ^ 17 * b2n hot + 2 ^ 18 * b2n rising + 2 ^ 19 * b2n crit) ∧
      (∀ k : Nat, k < 36 → k ≠ j.val → s'.reg .THS_TEMP k = s.reg .THS_TEMP k) ∧
      tabGet [] s'.hist j.val = (x :: tabGet [] s.hist j.val).take 1000 ∧
      ((hot = true ∧ s.rb .THS_TEMP j.val 17 = false) → s'.rb .GOV_EVT 0 1 = true) ∧
      ((rising = true ∧ s.rb .THS_TEMP j.val 18 = false) → s'.rb .GOV_EVT 0 2 = true) ∧
      Frame govParts govRegs atAll s s') ∧
  (∀ (t : Nat) (j : Sensor) (s : State) (x : SensorObs) (w : Nat),
    Converts j s →
    (match x with | .temp y => (y < -1024 ∨ 3200 < y) ∧ w = unsigned 16 y | .invalid _ => w = fld (Config.freeWord s.free) 0 16) →
    ∃ s', exec (.sensorConversion t j x) s = .next s' ∧
      s'.rf .THS_TEMP j.val 0 16 = w ∧ s'.rb .THS_TEMP j.val 16 = false ∧ s'.rb .THS_TEMP j.val 20 = true ∧ tabGet [] s'.hist j.val = [] ∧
      (s.rb .THS_TEMP j.val 20 = false → s'.rb .GOV_EVT 0 4 = true ∧ (j.val < 28 → (⟨1072, 10, 0, j.val⟩ : FaultMsg) ∈ s'.msgs)) ∧
      Frame govParts govRegs atAll s s') ∧
  (∀ (t : Nat) (j : Sensor) (x : Int) (n : Cluster) (s : State),
    let g := s.govOf n
    let esc := max 1 (s.rf .GOV_CTRL 0 0 12) * 8000000
    let now := (s.at t).clasp
    Converts j s →
    s.pwr.fault = false →
    ∃ s', exec (.sensorConversion t j (.temp x)) s = .next s' ∧
      govLevel s' n = levelAfter (govLevel s n) (anySensor s' n fun k => thsValid s' k && thsCrit s' k)
        (anySensor s' n fun k => thsValid s' k && thsCause s' k) (anySensor s' n fun k => decide (k < 28) && thsFault s' k)
        (g.cause.any fun y => decide (y + esc ≤ now)) (g.calm.any fun y => decide (y + esc ≤ now)) ∧
      (if govLevel s' n = govLevel s n then s'.reg .CL_PM_IBUD n.val = s.reg .CL_PM_IBUD n.val else
        BudgetsFollow n s' ∧ s'.rb .GOV_EVT 0 0 = true) ∧
      (govLevel s n < govLevel s' n → govLevel s' n < 4 → (s'.govOf n).cause = none ∨ (s'.govOf n).cause = some now) ∧
      ((govLevel s n ≠ 4 ∧ govLevel s' n = 4) → s'.rb .GOV_EVT 0 3 = true ∧ seqState s' n = seqState s n ∧
        (seqIdle s n = false → (s'.seq n).edges = [] ∧ (s'.seq n).ending = some (13, 0)) ∧ (∀ c : Channel, SafeForced n c s s') ∧
        s'.msgs.any (fun m => decide (m.src = 1072 ∧ m.kind = 11 ∧ m.cls = 1)) = true) ∧
      s'.rf .GOV_STAT 0 16 3 = (List.range 24).foldl (fun m k => max m (s'.rf .GOV_CLU k 8 3)) 0) ∧
  (∀ (t : Nat) (n : Cluster) (x : Nat) (s : State),
    let u := s.at t
    let drain := s.rf .GOV_CTRL 0 12 12
    (s.govOf n).three = some x →
    x + drain * 8000000 ≤ u.clasp →
    drain ≠ 0 →
    3 ≤ govLevel s n →
    (s.govOf n).stopped = false →
    govWork u n = true →
    ∃ s', exec (.governorStop t n) s = .next s' ∧ s'.rb .GOV_EVT 0 6 = true ∧ s'.rb .CL_CAL_EVT n.val 5 = true ∧
      (s'.govOf n).stopped = true ∧
      ((seqState s n = 2 ∧ (s.seq n).ending = none ∧ (s.seq n).abort = none ∧ (s.seq n).unwind = false ∧ 0 < (s.seq n).seqNo) →
        (s'.seq n).abort = some (u.clasp + 80, 4)) ∧
      (∀ e : Fin 2, cptRun s' n e = true → (s'.cpt n e).stopK.isSome = true) ∧ (∀ c : Channel, (s'.chan n c).meas = none) ∧
      Frame [.clasp, .chans, .seqs, .cpts, .gov, .free]
        (.GOV_EVT :: .CL_CAL_EVT :: .CL_CAP_STAT :: .CL_CAP_ICNT :: .CL_CAP_EVT :: .CL_MR_STAT :: gateRegs) (atCluster n) s s') ∧
  (∀ (t : Nat) (r : Req) (n : Cluster) (power : Bool) (d : Word) (s : State),
    let b : Reg := if power then .GOV_NOM_PBUD else .GOV_NOM_IBUD
    Accepted r b n.val d (s.at t) →
    ∃ s', exec (.nomBudgetWrite t r n power d) s = .next s' ∧ s'.reg b n.val = d ∧ (∀ k : Cluster, BudgetsFollow k s') ∧
      (∀ k : Cluster, k ≠ n → s'.reg b k.val = s.reg b k.val) ∧ Frame [.clasp] [b, .CL_PM_IBUD, .CL_PM_PBUD] atAll s s') ∧
  (∀ (t : Nat) (r : Req) (n : Cluster) (power : Bool) (d : Word) (s : State),
    let b : Reg := if power then .GOV_NOM_PBUD else .GOV_NOM_IBUD
    let sum := ((List.range 24).map fun k => if k = n.val then d.toNat else (s.reg b k).toNat).sum
    Reaches r b n.val d (s.at t) →
    (if power then 12000000 else 3200000000) < sum →
    ∃ s', exec (.nomBudgetWrite t r n power d) s = .next s' ∧ s'.rb .GOV_EVT 0 5 = true ∧ Frame [.clasp] [.GOV_EVT] atNone s s')

/-- A reference calibration asked for queues on semaphores 0 and 1; within 1 percent of the certificate it sets
REFV_OK, else REFV_BAD (R449). A trim write sets a target, to which the present value moves one LSB at a time (R451);
on a channel in use it is dropped (R453). A cluster becomes due by request or time (R454); a step begins on a quiet
due cluster with its channels in safe state and commits its results (R455), the last of which completes the
calibration (R458); a step is abandoned by R456. At its deadline an idle due cluster is interrupted, then restored,
its held starts taking place (R457). -/
def Obligations.TenteringCalibrates : Prop :=
  (∀ (t : Nat) (r : Req) (d : Word) (s : State),
    Accepted r .CAL_CTRL 0 (d ||| 0x10#32) (s.at t) →
    s.refDue = false →
    ∃ s', exec (.refcal t r d) s = .next s' ∧ s'.refDue = true ∧
      (∀ k : Nat, k < 2 → s'.sem k = { s.sem k with queue := (s.sem k).queue ++ [(6, 6)] }) ∧
      Frame [.clasp, .sems, .refDue] [.CAL_CTRL] atNone s s') ∧
  (∀ (t uv : Nat) (s : State),
    let cert := (s.reg .CAL_REFV_CERT 0).toNat
    let ok := decide (uv * 100 ≤ cert * 101 ∧ cert * 99 ≤ uv * 100)
    calHolds s 0 = true →
    calHolds s 1 = true →
    ∃ s', exec (.refCalibration t uv) s = .next s' ∧ s'.reg .CAL_REFV_MEAS 0 = BitVec.ofNat 32 uv ∧
      s'.rb .CAL_STAT 0 0 = ok ∧ s'.rb .CAL_STAT 0 1 = !ok ∧ s'.rb .CAL_EVT 0 0 = true ∧ (ok = false → s'.rb .CAL_EVT 0 1 = true) ∧
      calHolds s' 0 = false ∧ calHolds s' 1 = false ∧ s'.refDue = false ∧ s'.refLast = some (s.at t).clasp ∧
      Frame [.clasp, .sems, .refDue, .refLast] [.SEM_RES, .SEM_EVT, .CAL_STAT, .CAL_REFV_MEAS, .CAL_EVT] atNone s s') ∧
  (∀ (t : Nat) (r : Req) (d : Word) (s : State),
    4900000 ≤ d.toNat ∧ d.toNat ≤ 5100000 →
    Accepted r .CAL_REFV_CERT 0 d (s.at t) →
    ∃ s', exec (.calCertWrite t r d) s = .next s' ∧ s'.reg .CAL_REFV_CERT 0 = d ∧ Frame [.clasp] [.CAL_REFV_CERT] atNone s s') ∧
  (∀ (t : Nat) (r : Req) (d : Word) (s : State),
    Reaches r .CAL_REFV_CERT 0 d (s.at t) →
    (d.toNat < 4900000 ∨ 5100000 < d.toNat) →
    ∃ s', exec (.calCertWrite t r d) s = .next s' ∧ s'.rb .CAL_EVT 0 2 = true ∧ Frame [.clasp] [.CAL_EVT] atNone s s') ∧
  (∀ (t : Nat) (r : Req) (n : Cluster) (w : TrimAddr) (d : Word) (s : State),
    let a := trimReg n w
    let us := s.rf .CAL_RATE 0 0 8
    Accepted r a.1 a.2 d (s.at t) →
    (match w with | .channel _ k => trimWord k.val = true | .generator _ => True) →
    ∃ s', exec (.trimWrite t r n w d) s = .next s' ∧ s'.reg a.1 a.2 = d ∧
      (trimNow s' a.1 a.2).1 = (if us = 0 then d else (trimNow s a.1 a.2).1) ∧ s'.rb .CL_CAL_STAT n.val 11 = rampsOn s' n.val ∧
      Frame [.clasp, .ramps] [a.1, .CL_CAL_STAT, .PWR_CLU_GATE] (atCluster n) s s') ∧
  (∀ (t : Nat) (r : Req) (n : Cluster) (w : TrimAddr) (d : Word) (s : State),
    let a := trimReg n w
    Reaches r a.1 a.2 d (s.at t) →
    (match w with | .channel c _ => stepUses s n c.val = true | .generator _ => (calStepOn s n = true ∨ calIntrOn s n = true)) →
    ∃ s', exec (.trimWrite t r n w d) s = .next s' ∧ s'.rb .CL_CAL_EVT n.val 3 = true ∧ Frame [.clasp] [.CL_CAL_EVT] (atCluster n) s s') ∧
  (∀ (t : Nat) (n : Cluster) (w : TrimAddr) (v0 : Word) (t0 : Nat) (s : State),
    let a := trimReg n w
    let us := s.rf .CAL_RATE 0 0 8
    let bytes := match w with | .channel _ k => decide (24 ≤ k.val) | .generator _ => false
    trimNow (s.at t) a.1 a.2 = (v0, t0) →
    v0 ≠ s.reg a.1 a.2 →
    us ≠ 0 →
    t0 + us * 8000 ≤ (s.at t).clasp →
    ∃ s', exec (.trimRampStep t n w) s = .next s' ∧ (trimNow s' a.1 a.2).1 = trimMove bytes (s.reg a.1 a.2) v0 ∧
      s'.reg a.1 a.2 = s.reg a.1 a.2 ∧ s'.rb .CL_CAL_STAT n.val 11 = rampsOn s' n.val ∧ Frame [.clasp, .ramps] [.CL_CAL_STAT] (atCluster n) s s') ∧
  (∀ (t : Nat) (r : Req) (n : Cluster) (d : Word) (s : State),
    Accepted r .CL_CAL_CTRL n.val (d ||| 1#32) (s.at t) →
    calDueNow s n = false →
    ∃ s', exec (.calReq t r n d) s = .next s' ∧ calDueNow s' n = true ∧ (s'.calSt n).items = [] ∧
      (s'.calSt n).deadline = some ((s.at t).clasp + max 1 (s.rf .CAL_GRACE 0 0 16) * 8000000000) ∧
      Frame [.clasp, .cal] [.CL_CAL_CTRL, .CL_CAL_STAT, .PWR_CLU_GATE] (atCluster n) s s') ∧
  (∀ (t : Nat) (n : Cluster) (s : State),
    let due := s.pair .CL_CAL_DUE_LO .CL_CAL_DUE_HI n.val
    due ≠ 0 →
    due ≤ (s.at t).clasp →
    calDueNow s n = false →
    ∃ s', exec (.calDue t n) s = .next s' ∧ calDueNow s' n = true ∧ (s'.calSt n).items = [] ∧
      (s'.calSt n).deadline = some ((s.at t).clasp + max 1 (s.rf .CAL_GRACE 0 0 16) * 8000000000) ∧
      Frame [.clasp, .cal] [.CL_CAL_STAT] (atCluster n) s s') ∧
  (∀ (t : Nat) (n : Cluster) (s : State),
    let u := s.at t
    DueAndFree n u →
    calQuiet u n = true →
    ∃ s', exec (.calStepStart t n) s = .next s' ∧
      (if refStale u then s'.refDue = true ∧ Frame [.clasp, .sems, .refDue] [] atNone s s'
       else calStepOn s' n = true ∧ (∀ c : Channel, stepUses s' n c.val = chSafe u n c) ∧ (s'.calSt n).stepAt = u.clasp ∧
        Frame [.clasp, .cal] [.CL_CAL_STAT, .PWR_CLU_GATE] (atCluster n) s s')) ∧
  (∀ (t off : Nat) (w : Word) (n : Cluster) (s : State),
    let u := s.at t
    (calStepOn s n = true ∨ calIntrOn s n = true) →
    calItem u n off = true →
    itemSkipped u n off = false →
    (refvOk s = true ∨ refvItem off = false) →
    activeBand s n < 5 →
    ∃ s', exec (.calStepEnd t n [(off, w)]) s = .next s' ∧ ResultStands n (off, w) s' ∧
      (calStepOn s n = true → calStepOn s' n = false) ∧ (calDueNow s' n = true → off ∈ (s'.calSt n).items) ∧
      Frame [.clasp, .chans, .cal, .ramps, .free] allRegs (atCluster n) s s') ∧
  (∀ (t : Nat) (n : Cluster) (off : Nat) (w : Word) (s : State),
    let u := s.at t
    let due := u.clasp + max 1 (s.rf .CAL_INTV (activeBand s n) 0 16) * 8000000000
    calStepOn s n = true →
    calDueNow s n = true →
    refvOk s = true →
    calItem u n off = true →
    itemSkipped u n off = false →
    off ∉ (s.calSt n).items →
    (s.calSt n).items.length + 1 = 1154 →
    activeBand s n < 5 →
    due < 2 ^ 64 →
    u.clasp < 2 ^ 64 →
    ∃ s', exec (.calStepEnd t n [(off, w)]) s = .next s' ∧ calDueNow s' n = false ∧ s'.rb .CL_CAL_STAT n.val (6 + activeBand s n) = true ∧
      s'.rb .CL_CAL_EVT n.val 0 = true ∧ s'.pair .CL_CAL_DUE_LO .CL_CAL_DUE_HI n.val = due ∧
      (s'.calSt n).deadline = none ∧ (s'.calSt n).items = [] ∧
      (s.rf .CAL_CTRL 0 0 2 ≠ 2 → s'.reg .CL_CAL_CNT n.val = s.reg .CL_CAL_CNT n.val + 1#32 ∧
        s'.pair .CL_CAL_TLAST_LO .CL_CAL_TLAST_HI n.val = u.clasp) ∧
      (2 ≤ s.rf .CAL_CTRL 0 0 2 → ∀ k : Nat, k < 10 → s'.reg .CL_CAL_QUAL (10 * n.val + k) = Config.freeWord (s.free + k))) ∧
  (∀ (t : Nat) (n : Cluster) (s : State),
    calStepOn s n = true →
    ∃ s', exec (.calStepAbandon t n) s = .next s' ∧ calStepOn s' n = false ∧ s'.rb .CL_CAL_EVT n.val 2 = true ∧
      (s'.calSt n).back = (s.at t).clasp + 40000 ∧ (s'.calSt n).items = (s.calSt n).items ∧
      Frame [.clasp, .chans, .cal] [.CL_CAL_STAT, .CL_CAL_EVT] (atCluster n) s s') ∧
  (∀ (t x : Nat) (n : Cluster) (s : State),
    let u := s.at t
    (s.calSt n).deadline = some x →
    x ≤ u.clasp →
    DueAndFree n u →
    idleNow u n = true →
    flowClu u n = false →
    ∃ s', exec (.calDeadlineInterrupt t n) s = .next s' ∧ calIntrOn s' n = true ∧ s'.rb .CL_CAL_EVT n.val 1 = true ∧
      (∀ c : Channel, chSafe u n c = false → (s'.chan n c).drvOn = false ∧ (s'.chan n c).meas = none ∧
        ((s'.chan n c).sw = .opened ∨ (s'.chan n c).sw = .opening)) ∧
      (∀ c : Channel, chSafe u n c = true → s'.chan n c = s.chan n c) ∧
      Frame [.clasp, .chans, .free] (.PWR_CLU_GATE :: .CL_CAL_STAT :: .CL_CAL_EVT :: gateRegs) (atCluster n) s s') ∧
  (∀ (t : Nat) (n : Cluster) (s : State),
    let u := s.at t
    calIntrOn s n = true →
    asyBusy s n = false →
    (s.calSt n).held = [] →
    ∃ s', exec (.calInterruptEnd t n) s = .next s' ∧ calIntrOn s' n = false ∧
      (∀ c : Channel, (s.rb .CH_CTRL (chIx n c) 0 = true ∧ heldSafe u n c = false) → (s'.chan n c).sw = .closing) ∧
      (s'.calSt n).deadline =
        (if calDueNow s n then some (u.clasp + max 1 (s.rf .CAL_GRACE 0 0 16) * 8000000000) else none) ∧
      Frame [.clasp, .chans, .cal] [.CL_CAL_STAT] (atCluster n) s s') ∧
  (∀ (t : Nat) (n : Cluster) (u : Nat) (s : State),
    calIntrOn s n = true →
    calStepOn s n = false →
    asyBusy s n = false →
    (s.calSt n).held = [(0, 0)] →
    govLevel s n < 3 →
    idleNow (s.at t) n = true →
    cluRetired s n = false →
    s.rb .CL_MR_STAT n.val 0 = false →
    patchBlocks s = false →
    u = (s.at t).clasp →
    s.rb .CL_SEQ_CTRL n.val 3 = false →
    s.rb .CL_TIM_STAT n.val 0 = true →
    ∃ s', exec (.calInterruptEnd t n) s = .next s' ∧ calIntrOn s' n = false ∧ seqState s' n = 1 ∧ (s'.calSt n).held = [] ∧
      Frame [.clasp, .chans, .seqs, .hops, .cpts, .awgs, .cal, .free] heldRegs (atCluster n) s s')

/-! ### Faults, Assay and the life record (R463 to R488) -/

namespace Sys2Proof.Machine

/-- The collector takes message m alone (R466), and m is no BEZEL message. -/
def Collects (m : FaultMsg) (s : State) : Prop :=
  aonRuns s = true ∧ s.msgs = [m] ∧ m.src < 1152 ∧ ¬ (m.kind = 12 ∧ m.src < 1056)

/-- The class by which a message is handled (R463). -/
def clsOf (m : FaultMsg) : Nat := min 2 m.cls

/-- No reaction window is open, or the open one ends now (R468). -/
def NoWindow (s : State) : Prop := ∀ x ∈ s.window.toList, aonDue s x.1 = true

/-- The cluster bit of a message's source in a window's record (R477). -/
def windowBit (m : FaultMsg) : Word := if m.src < 1056 then BitVec.ofNat 32 (2 ^ (m.src / 44)) else 0#32

/-- Message m, taken now, has set its sticky and active bits and is counted (R467); its source is in fault state (R473). -/
def Taken (m : FaultMsg) (s s' : State) : Prop :=
  let k := m.src
  let o := 3216 + 2 * (3 * k + clsOf m)
  s'.rb .FLT_STICKY (k / 32) (k % 32) = true ∧ s'.rb .FLT_ACTIVE (k / 32) (k % 32) = true ∧
  tabGet 0 s'.life o = satInc 65535 (tabGet 0 s.life o) ∧ (s'.flt k).last = aonCycle s ∧
  (s'.flt k).fatal = ((s.flt k).fatal || decide (clsOf m = 2)) ∧
  (s'.flt k).corr = ((!s.rb .FLT_ACTIVE (k / 32) (k % 32) || (s.flt k).corr) && decide (clsOf m = 0))

/-- A window has been opened by a leading fault m (R468). -/
def Leads (m : FaultMsg) (s s' : State) : Prop :=
  s'.window = some (aonCycle s + max 1 (s.rf .FLT_CTRL 0 0 7), windowBit m) ∧ s'.rb .FLT_STAT 0 1 = true ∧
  s'.rf .FLT_STAT 0 2 2 = clsOf m ∧ s'.rf .FLT_STAT 0 8 8 = 0 ∧ s'.rb .FLT_EVT 0 0 = true

/-- The registers of the collector and of the targets it adds (R467 to R476). -/
def collectRegs : List Reg :=
  [.FLT_STAT, .FLT_STICKY, .FLT_ACTIVE, .FLT_EVT, .FLT_MERGE_CNT, .ASY_TGT, .ASY_STAT]

/-- The registers of a trap (R216, R300). -/
def trapRegs : List Reg :=
  [.CL_MR_STAT, .CL_MR_ID, .CL_MR_RADDR, .CL_MR_UADDR, .CL_MR_DIGEST, .CL_MR_TOUCHED, .CL_MR_LC] ++ awgStopRegs ++ safeRegs

/-- Assay has run chan targets and ctgt targets on cluster n, with semaphore 0 where they need the central converter (R477). -/
def RunOf (n : Cluster) (x : AsyRun) (s : State) : Prop :=
  s.assay.find? (fun e => decide (e.1 = n.val)) = some (n.val, x) ∧ (asyCentral x.chans x.ctgt = true → asyHolds s = true)

/-- Channel c of cluster n has been retired (R479). -/
def Retired (n : Cluster) (c : Channel) (s s' : State) : Prop :=
  s'.rb .CH_STAT (chIx n c) 2 = true ∧ s'.rb .FLT_RET_CH n.val c.val = true ∧ SafeForced n c s s'

/-- The registers of a retirement (R479, R480). -/
def retireRegs : List Reg :=
  [.FLT_STAT, .FLT_EVT, .FLT_RET_CLU, .FLT_RET_CH, .SEM_RES, .SEM_EVT, .PWR_CLU_GATE, .CL_HOP_CTRL, .CH_STAT] ++ trapRegs

end Sys2Proof.Machine

/-- A message taken sets its sticky and active bits and is counted (R467). With no window open it leads: it opens one
and the reactions of its source begin: INT, ERR, TRAP with vector 0, BLOCK, CHIP (R468, R470, R471); in an open
window it merges (R469); two taken together go by ascending source (R466). A fatal one makes the part fatal (R474).
Cluster messages name Assay targets (R476). A window closes after its cycles; a source recovers after its quiet
period (R473). An injected message and a failed Bezel transfer are presented like any other (R465, R486). -/
def Obligations.FaultCollectorReacts : Prop :=
  (∀ (t : Nat) (m : FaultMsg) (s : State),
    let u := s.at t
    let k := m.src
    let r := reactOf s k
    Collects m u →
    fatal s = false →
    clsOf m < 2 →
    NoWindow u →
    r / 2 % 2 = 0 ∧ r / 4 % 2 = 0 ∧ r / 8 % 2 = 0 →
    ∃ s', exec (.faultMessage t) s = .next s' ∧ s'.msgs = [] ∧ Taken m u s' ∧ Leads m u s' ∧
      (s'.flt k).int = (decide (r % 2 = 1) || (s.flt k).int) ∧ (s'.flt k).err = (decide (r / 16 % 2 = 1) || (s.flt k).err) ∧
      (r / 16 % 2 = 1 → s'.rb .FLT_STAT 0 5 = true) ∧
      ((k % 44 < 32 ∧ k < 1056 ∧ m.kind ≠ 6 ∧ (clsOf m ≠ 0 ∨ s.rb .FLT_CTRL 0 9 = true) ∧ s.rb .FLT_CTRL 0 8 = true ∧
          s.rb .FLT_RET_CLU 0 (k / 44) = false ∧ s.assay = []) →
        s'.reg .ASY_TGT (k / 44) = s.reg .ASY_TGT (k / 44) ||| BitVec.ofNat 32 (2 ^ (k % 44)) ∧ s'.rb .ASY_STAT (k / 44) 1 = true) ∧
      Frame [.clasp, .window, .faults, .assay, .life, .msgs] collectRegs atNone s s') ∧
  (∀ (t e : Nat) (ns : Word) (m : FaultMsg) (s : State),
    let u := s.at t
    Collects m u →
    fatal s = false →
    clsOf m < 2 →
    s.window = some (e, ns) →
    aonDue u e = false →
    ∃ s', exec (.faultMessage t) s = .next s' ∧ Taken m u s' ∧ s'.window = some (e, ns ||| windowBit m) ∧
      s'.rf .FLT_STAT 0 2 2 = max (clsOf m) (s.rf .FLT_STAT 0 2 2) ∧ s'.rf .FLT_STAT 0 8 8 = satInc 255 (s.rf .FLT_STAT 0 8 8) ∧
      s'.rf .FLT_MERGE_CNT 0 0 32 = satInc 4294967295 (s.rf .FLT_MERGE_CNT 0 0 32) ∧ s'.rb .FLT_EVT 0 1 = true ∧
      (s'.flt m.src).int = (s.flt m.src).int ∧ (s'.flt m.src).err = (s.flt m.src).err ∧
      Frame [.clasp, .window, .faults, .assay, .life, .msgs] collectRegs atNone s s') ∧
  (∀ (t : Nat) (m1 m2 : FaultMsg) (s : State),
    let u := s.at t
    let win := max 1 (s.rf .FLT_CTRL 0 0 7)
    aonRuns u = true →
    s.msgs = [m2, m1] →
    m1.src < m2.src ∧ m2.src < 1152 →
    m1.kind ≠ 12 ∧ m2.kind ≠ 12 →
    clsOf m1 < 2 ∧ clsOf m2 < 2 →
    fatal s = false →
    NoWindow u →
    reactOf s m1.src = 1 →
    ∃ s', exec (.faultMessage t) s = .next s' ∧ (s'.flt m1.src).int = true ∧ (s'.flt m2.src).int = (s.flt m2.src).int ∧
      s'.window = some (aonCycle u + win, windowBit m1 ||| windowBit m2) ∧ s'.rf .FLT_STAT 0 2 2 = max (clsOf m1) (clsOf m2) ∧
      s'.rf .FLT_STAT 0 8 8 = 1 ∧ s'.rb .FLT_STICKY (m1.src / 32) (m1.src % 32) = true ∧ s'.rb .FLT_STICKY (m2.src / 32) (m2.src % 32) = true ∧
      Frame [.clasp, .window, .faults, .assay, .life, .msgs] collectRegs atNone s s') ∧
  (∀ (t : Nat) (m : FaultMsg) (s : State),
    let u := s.at t
    let r := reactOf s m.src
    Collects m u →
    fatal s = false →
    2 ≤ m.cls →
    (r / 2 % 2 = 0 ∧ r / 4 % 2 = 0 ∧ r / 8 % 2 = 0) →
    ∃ s', exec (.faultMessage t) s = .next s' ∧ Taken m u s' ∧ fatal s' = true ∧ s'.rb .FLT_STAT 0 4 = true ∧ s'.rb .FLT_STAT 0 5 = true ∧
      s'.rb .FLT_EVT 0 3 = true ∧ s'.rb .FLT_EVT 0 4 = true ∧ tabGet 0 s'.life 28 = (tabGet 0 s.life 28 ||| 2) ||| 1 ∧
      (∀ n : Cluster, (seqIdle s n = false → (s'.seq n).ending = some (13, 0)) ∧ (∀ c : Channel, SafeForced n c s s')) ∧
      Frame [.clasp, .chans, .seqs, .awgs, .window, .faults, .assay, .life, .replaceWait, .msgs, .free] (collectRegs ++ trapRegs) atAll s s') ∧
  (∀ (t : Nat) (m : FaultMsg) (s : State),
    let u := s.at t
    Collects m u →
    fatal s = true →
    ∃ s', exec (.faultMessage t) s = .next s' ∧ Taken m u s' ∧ (NoWindow u → s'.window = none) ∧ s'.reg .FLT_EVT 0 = s.reg .FLT_EVT 0 ∧
      Frame [.clasp, .window, .faults, .assay, .life, .msgs] collectRegs atNone s s') ∧
  (∀ (t : Nat) (m : FaultMsg) (n : Cluster) (h : Nat) (s : State),
    let u := s.at t
    let k := m.src
    let r := reactOf s k
    aonRuns u = true →
    s.msgs = [m] →
    k < 1152 →
    fatal s = false →
    clsOf m < 2 →
    NoWindow u →
    ((m.kind = 12 ∧ k < 1056) ∨ r / 2 % 2 = 1) →
    r / 4 % 2 = 0 ∧ r / 8 % 2 = 0 →
    affects k n.val = true →
    trapDomains s k = [h] →
    slaveUp u = true →
    linkUp s h = true →
    bitOf (msixWord s h 3) 0 = false →
    ∃ s', exec (.faultMessage t) s = .next s' ∧ Taken m u s' ∧ Leads m u s' ∧ s'.out = .msix h 0 :: s.out ∧
      (∀ c : Channel, SafeForced n c s s') ∧ (seqIdle s n = false → (s'.seq n).ending = some (13, 0)) ∧
      Frame [.clasp, .chans, .seqs, .awgs, .cap, .window, .faults, .assay, .life, .msgs, .free, .out] (collectRegs ++ trapRegs) atAll s s') ∧
  (∀ (t : Nat) (m : FaultMsg) (n : Cluster) (s : State),
    let u := s.at t
    let k := m.src
    let r := reactOf s k
    Collects m u →
    k / 44 = n.val →
    fatal s = false →
    clsOf m < 2 →
    NoWindow u →
    r / 4 % 2 = 1 →
    r / 2 % 2 = 0 ∧ r / 8 % 2 = 0 →
    ∃ s', exec (.faultMessage t) s = .next s' ∧ Taken m u s' ∧ Leads m u s' ∧ s'.rb .ID_CLU_RST 0 n.val = true ∧ s'.seq n = { } ∧
      (∀ z ∈ allRegs, z.row.cluster = true → z.row.clu = 0#32 → z.row.count = 1 → z ≠ .CL_CAL_STAT → s'.reg z n.val = State.reset.reg z n.val) ∧
      (∀ c : Channel, s'.chan n c = { sw := if (s.chan n c).sw = .opened then .opened else .opening }) ∧
      Frame [.clasp, .chans, .seqs, .hops, .blankAt, .stamps, .trigs, .cpts, .awgs, .cap, .sems, .cal, .window, .faults, .assay, .life, .msgs]
        allRegs (atCluster n) s s') ∧
  (∀ (t i : Nat) (m : FaultMsg) (x : Reg) (s : State),
    let u := s.at t
    let r := reactOf s m.src
    Collects m u →
    fatal s = false →
    clsOf m < 2 →
    NoWindow u →
    r / 8 % 2 = 1 →
    r / 2 % 2 = 0 ∧ r / 4 % 2 = 0 →
    x ∉ warmMore →
    x ∉ collectRegs →
    ∃ s', exec (.faultMessage t) s = .next s' ∧ Taken m u s' ∧ Leads m u s' ∧ s'.pwr = { s.pwr with chip := true } ∧ WarmAt x i s s' ∧
      s'.mem = s.mem ∧ Only (warmParts ++ [.window, .faults, .assay, .life, .msgs]) allRegs s s') ∧
  (∀ (t e : Nat) (ns : Word) (s : State),
    s.window = some (e, ns) →
    aonDue (s.at t) e = true →
    ∃ s', exec (.faultWindowClose t) s = .next s' ∧ s'.window = none ∧
      s'.reg .FLT_STAT 0 = putBit (s.reg .FLT_STAT 0) 1 false ∧ Frame [.clasp, .window] [.FLT_STAT] atNone s s') ∧
  (∀ (t : Nat) (k : Source) (s : State),
    let quiet := max 1 (if (s.flt k.val).corr then s.rf .FLT_QUIET 0 0 14 else s.rf .FLT_QUIET 0 16 14)
    let i := k.val / 4
    let o := 8 * (k.val % 4)
    s.rb .FLT_ACTIVE (k.val / 32) (k.val % 32) = true →
    (s.flt k.val).fatal = false →
    aonDue (s.at t) ((s.flt k.val).last + 4000 * quiet) = true →
    ∃ s', exec (.faultRecover t k) s = .next s' ∧
      s'.reg .FLT_ACTIVE (k.val / 32) = putBit (s.reg .FLT_ACTIVE (k.val / 32)) (k.val % 32) false ∧
      s'.rf .FLT_RECOV i o 8 = satInc 255 (s.rf .FLT_RECOV i o 8) ∧ s'.rb .FLT_EVT 0 2 = true ∧ (s'.flt k.val).err = false ∧
      ((fatal s = false ∧ tabWf (fun _ => ({ } : FltSrc)) s.faults = true ∧ ∀ e ∈ s.faults, e.2.err = true → e.1 = k.val) → s'.rb .FLT_STAT 0 5 = false) ∧
      Frame [.clasp, .faults] [.FLT_STAT, .FLT_EVT, .FLT_ACTIVE, .FLT_RECOV] atNone s s') ∧
  (∀ (t : Nat) (r : Req) (d : Word) (s : State),
    let lo := s.reg .FLT_INJECT_LO 0
    Accepted r .FLT_INJECT_HI 0 d (s.at t) →
    ∃ s', exec (.faultInject t r d) s = .next s' ∧
      s'.msgs = (if sourceKnown (fld d 20 12) = true then
        s.msgs ++ [⟨fld d 20 12, fld d 14 6, fld d 12 2, lo.toNat + fld d 0 8 * 2 ^ 32⟩] else s.msgs) ∧
      Frame [.clasp, .msgs] [.FLT_INJECT_HI] atNone s s') ∧
  (∀ (t : Nat) (n : Cluster) (s : State),
    cluRetired s n = false →
    ∃ s', exec (.bezel t n) s = .next s' ∧ s'.msgs = s.msgs ++ [⟨44 * n.val + 43, 12, 1, n.val⟩] ∧ Frame [.clasp, .msgs] [] atNone s s') ∧
  (∀ (t b : Nat) (n : Cluster) (s : State),
    s.rb .ID_CLU_RST 0 n.val = true →
    thsFault s n.val = false →
    (bandRec s n).1 = some b →
    b < 8 →
    ∃ s', exec (.clusterResetEnd t n) s = .next s' ∧ s'.reg .ID_CLU_RST 0 = putBit (s.reg .ID_CLU_RST 0) n.val false ∧
      activeBand s' n = b ∧ (bandRec s' n).1 = some b ∧ Frame [.clasp, .bands] [.ID_CLU_RST, .CL_TIM_STAT] (atCluster n) s s')

/-- A request adds targets to the pending run (R476); a run starts when its cluster is free, forces what it tests
safe and asks for semaphore 0 where it needs the central converter (R477). An outcome is counted: PASS, or the failed
channels retired, or the whole cluster for a failed cluster test or at RET_LIMIT, with event and message (R478,
R479). The management owner may retire as well. A retirement degrades the part (R480). The life record is written
after 60 minutes or at shutdown with SEQ one higher, or its failure reported (R485); power-on minutes and temperature
bins are counted (R484). -/
def Obligations.AssayRetiresAndLifeIsKept : Prop :=
  (∀ (t : Nat) (r : Req) (d : Word) (n : Cluster) (s : State),
    let ct := fld d 16 5
    let ctgt := ct % 16 + (if 16 ≤ ct then 48 else 0)
    Accepted r .ASY_CTRL 0 (d ||| 1#32) (s.at t) →
    fld d 8 5 = n.val →
    cluRetired s n = false →
    s.assay = [] →
    ¬ (s.reg .ASY_MASK 0 = 0#32 ∧ ctgt = 0) →
    ∃ s', exec (.assayRequest t r d) s = .next s' ∧ s'.reg .ASY_TGT n.val = s.reg .ASY_TGT n.val ||| s.reg .ASY_MASK 0 ∧
      s'.rb .ASY_STAT n.val 1 = true ∧ (∀ b : Nat, b < 6 → s'.rb .ASY_STAT n.val (4 + b) = (s.rb .ASY_STAT n.val (4 + b) || ctgt.testBit b)) ∧
      Frame [.clasp] [.ASY_TGT, .ASY_STAT] atNone s s') ∧
  (∀ (t : Nat) (n : Cluster) (s : State),
    let u := s.at t
    let chans := s.reg .ASY_TGT n.val
    let ctgt := s.rf .ASY_STAT n.val 4 6
    asyReady u n = true →
    ∃ s', exec (.assayRunStart t n) s = .next s' ∧ asyBusy s' n = true ∧ s'.rb .ASY_STAT n.val 1 = false ∧ s'.rf .ASY_STAT n.val 4 6 = 0 ∧
      s'.reg .ASY_TGT n.val = 0#32 ∧ s'.assay.find? (fun e => decide (e.1 = n.val)) = some (n.val, ⟨chans, ctgt, u.clasp⟩) ∧
      (∀ c : Channel, bitOf chans c.val = true → SafeForced n c s s') ∧
      (asyCentral chans ctgt = true → (s.sem 0).holder = none → (s.sem 0).queue = [] → asyHolds s' = true) ∧
      Frame [.clasp, .chans, .sems, .assay, .free] (.ASY_STAT :: .ASY_TGT :: .PWR_CLU_GATE :: safeRegs) (atCluster n) s s') ∧
  (∀ (t : Nat) (n : Cluster) (x : AsyRun) (s : State),
    let o := 10128 + 12 * n.val
    RunOf n x s →
    (s.calSt n).held = [] →
    ∃ s', exec (.assayOutcome t n false 0#32) s = .next s' ∧ asyBusy s' n = false ∧ s'.rf .ASY_STAT n.val 12 2 = 1 ∧
      s'.assay.find? (fun e => decide (e.1 = n.val)) = none ∧ s'.rb .ASY_EVT 0 0 = true ∧
      s'.rf .ASY_RUNS n.val 0 32 = satInc 4294967295 (s.rf .ASY_RUNS n.val 0 32) ∧
      s'.rf .ASY_PASS n.val 0 32 = satInc 4294967295 (s.rf .ASY_PASS n.val 0 32) ∧
      tabGet 0 s'.life o = satInc 4294967295 (tabGet 0 s.life o) ∧ tabGet 0 s'.life (o + 4) = satInc 4294967295 (tabGet 0 s.life (o + 4)) ∧
      (((s.sem 0).queue = [] ∧ ∀ e ∈ s.assay, e.1 = n.val) → asyHolds s' = false) ∧
      Frame [.clasp, .chans, .sems, .cal, .assay, .life] [.ASY_STAT, .ASY_EVT, .ASY_RUNS, .ASY_PASS, .SEM_RES, .SEM_EVT] (atCluster n) s s') ∧
  (∀ (t : Nat) (n : Cluster) (c : Channel) (f : Bool) (w : Word) (x : AsyRun) (s : State),
    let count := (indicesWhere 32 (bitOf (s.reg .FLT_RET_CH n.val ||| w))).length
    let all := f || decide (max 1 (s.rf .FLT_CTRL 0 16 5) ≤ count)
    RunOf n x s →
    (s.calSt n).held = [] →
    (f = true ∨ w ≠ 0#32) →
    flowClu s n = false →
    ∀ k : Channel, retired s n k = s.rb .FLT_RET_CH n.val k.val →
    cluRetired s n = false →
    ∃ s', exec (.assayOutcome t n f w) s = .next s' ∧ asyBusy s' n = false ∧ s'.rf .ASY_STAT n.val 12 2 = 2 ∧ s'.rb .ASY_EVT 0 1 = true ∧
      s'.rf .ASY_FAIL n.val 0 32 = satInc 4294967295 (s.rf .ASY_FAIL n.val 0 32) ∧
      ((bitOf w c.val = true ∨ all = true) → s.rb .FLT_RET_CH n.val c.val = false → Retired n c s s') ∧
      ((bitOf w c.val = false ∧ all = false) → s'.rb .FLT_RET_CH n.val c.val = s.rb .FLT_RET_CH n.val c.val ∧ (s'.chan n c).sw = (s.chan n c).sw) ∧
      (cluRetired s' n = all) ∧ s'.rb .FLT_STAT 0 4 = (s.rb .FLT_STAT 0 4 || decide (s'.reg .FLT_RET_CH n.val ≠ s.reg .FLT_RET_CH n.val) || all) ∧
      s'.msgs = s.msgs ++ [⟨1060, 13, 1, n.val * 2 ^ 32 + (s'.reg .FLT_RET_CH n.val &&& ~~~ s.reg .FLT_RET_CH n.val).toNat⟩] ∧
      Frame [.clasp, .chans, .seqs, .awgs, .sems, .cal, .assay, .life, .replaceWait, .msgs, .free]
        (.ASY_STAT :: .ASY_EVT :: .ASY_RUNS :: .ASY_FAIL :: retireRegs) (atCluster n) s s') ∧
  (∀ (t : Nat) (r : Req) (n : Cluster) (c : Channel) (d : Word) (s : State),
    Accepted r .FLT_RET_CH n.val d (s.at t) →
    bitOf d c.val = true →
    retired s n c = false →
    flowClu (s.at t) n = false →
    ∃ s', exec (.retireWrite t r (some n) d) s = .next s' ∧ Retired n c s s' ∧ s'.rb .FLT_STAT 0 4 = true ∧ s'.rb .FLT_EVT 0 4 = true ∧
      (∀ k : Channel, bitOf d k.val = false → s'.chan n k = s.chan n k ∧ s'.rb .FLT_RET_CH n.val k.val = s.rb .FLT_RET_CH n.val k.val) ∧
      Frame [.clasp, .chans, .life, .replaceWait, .free] (.FLT_STAT :: .FLT_EVT :: .FLT_RET_CH :: .CH_STAT :: safeRegs) (atCluster n) s s') ∧
  (∀ (t : Nat) (r : Req) (n : Cluster) (d : Word) (s : State),
    Accepted r .FLT_RET_CLU 0 d (s.at t) →
    bitOf d n.val = true →
    cluRetired s n = false →
    ∃ s', exec (.retireWrite t r none d) s = .next s' ∧ cluRetired s' n = true ∧ s'.rb .CL_HOP_CTRL n.val 0 = false ∧
      s'.rb .PWR_CLU_GATE 0 n.val = true ∧ (∀ c : Channel, retired s n c = false → Retired n c s s') ∧
      (seqIdle s n = false → (s'.seq n).ending = some (13, 0)) ∧ (∀ k : Sem, ∀ e ∈ (s'.sem k.val).holder.toList, e.1 ≠ 8 + n.val) ∧
      Frame [.clasp, .chans, .seqs, .awgs, .sems, .life, .replaceWait, .free] retireRegs (fun k _ => bitOf d k = true) s s') ∧
  (∀ (t : Nat) (obs : LifeObs) (s : State),
    let u := s.at t
    let off := decide (pwrState s = 4)
    let q := (s.reg .LR_SEQ 0).toNat + 1
    let a := s.rf .LR_STAGE 0 6 20 * 64
    let v := if off then { s with life := tabSet 0 s.life 28 (tabGet 0 s.life 28 ||| 4) } else s
    let bytes := lifeSlotBytes v q
    let err := match obs with | .good => 0 | .timeout => 1 | .mismatch => 2
    s.rb .LR_BASE 0 0 = true →
    ((pwrState s = 4 ∧ s.rb .PWR_STAT 0 4 = false) ∨ (pwrState s = 2 ∧ 60 ≤ s.lifeMin)) →
    partsOf a bytes.length = [(a, bytes.length)] →
    judge u .life false a = .granted →
    q < 2 ^ 32 →
    ∃ s', exec (.lifeRecordWrite t obs) s = .next s' ∧ Written a bytes s s' ∧ s'.rf .LR_STAT 0 4 4 = err ∧
      s'.rf .LR_STAT 0 8 2 = s.lifeSlot % 4 ∧ s'.lifeSlot = (s.lifeSlot + 1) % 4 ∧ s'.lifeMin = 0 ∧
      (err = 0 → (s'.reg .LR_SEQ 0).toNat = q ∧ s'.lifeHdr = bytes.take 16 ∧ s'.rb .LR_EVT 0 0 = true ∧ s'.msgs = s.msgs ∧
        (u.clasp < 2 ^ 64 → s'.pair .LR_TLAST_LO .LR_TLAST_HI 0 = u.clasp)) ∧
      (err ≠ 0 → s'.reg .LR_SEQ 0 = s.reg .LR_SEQ 0 ∧ s'.rb .LR_EVT 0 1 = true ∧ s'.msgs = s.msgs ++ [⟨1064, 14, 0, err⟩]) ∧
      (off = true → s'.rb .PWR_STAT 0 4 = true ∧ s'.rb .CLK_EVT 0 7 = true) ∧
      Frame [.clasp, .mem, .life, .lifeHdr, .lifeSlot, .lifeMin, .msgs]
        ([.LR_STAT, .LR_SEQ, .LR_TLAST_LO, .LR_TLAST_HI, .LR_EVT, .PWR_STAT, .CLK_EVT]) atNone s s') ∧
  (∀ (t : Nat) (s : State),
    let w := match hottest s with | some x => [32 + 4 * (if x < 0 then 0 else min 15 (x.toNat / 128 + 1))] | none => []
    ∃ s', exec (.powerOnMinute t) s = .next s' ∧ s'.lifeMin = s.lifeMin + 1 ∧
      tabGet 0 s'.life 20 = satInc 4294967295 (tabGet 0 s.life 20) ∧ (∀ o ∈ w, tabGet 0 s'.life o = satInc 4294967295 (tabGet 0 s.life o)) ∧
      (∀ o : Nat, o < 12288 → o ≠ 20 → o ∉ w → tabGet 0 s'.life o = tabGet 0 s.life o) ∧ Frame [.clasp, .life, .lifeMin] [] atNone s s')

/-! ### Boot, serial ports, events, identity, the test access port (R489 to R516, R536 to R538) -/

namespace Sys2Proof.Machine

/-- The boot loader may start: STATE is BOOT, MGMT runs, nothing was started since POR and the boot store is empty
(R421, R492; BootStoreEmptyBeforeBoot). -/
def BootReady (s : State) : Prop := pwrState s = 1 ∧ slaveUp s = true ∧ s.boot.started = false ∧ s.boot = { }

/-- What the life-record writer does at boot (R485): with EN 0 nothing; else it takes over the newest good slot, or notes
that none is good. -/
def LifeRead (slots : List (List Byte)) (s s' : State) : Prop :=
  (s.rb .LR_BASE 0 0 = false → s'.life = s.life ∧ s'.lifeSlot = s.lifeSlot ∧ s'.reg .LR_SEQ 0 = s.reg .LR_SEQ 0) ∧
  (s.rb .LR_BASE 0 0 = true → lifeBest slots = none → s'.rb .LR_STAT 0 1 = true ∧ s'.life = [] ∧ s'.lifeSlot = 0) ∧
  (s.rb .LR_BASE 0 0 = true → ∀ e ∈ (lifeBest slots).toList, s'.reg .LR_SEQ 0 = BitVec.ofNat 32 (bf e.2 4 4) ∧
    s'.rb .LR_STAT 0 2 = true ∧ s'.rb .LR_EVT 0 2 = true ∧ s'.life = lifeLoad e.2 ∧ s'.lifeSlot = (e.1 + 1) % 4)

/-- The registers that reading the image's header and the life record write. -/
def bootRegs : List Reg := [.BOOT_STAT, .DOM_MGMT, .DOM_CLU, .LR_SEQ, .LR_STAT, .LR_EVT]

/-- A serial frame finds the page: no POR, no window access waiting. -/
def PageFree (s : State) : Prop := s.pwr.por = false ∧ s.msp.cmd = none

end Sys2Proof.Machine

/-- A bad header or table is recorded in ERR, loads nothing and gives everything to H0 (R493). Of an image of one
section, good by its header and table, a Millpond section is stored at DEST, a CONFIG section is held and its entries
counted as applied or dropped, a rejected LIBRARY section shows its outcome; a section that fails has its bit in
BOOT_SECERR; ownership is the image's OWNER (R490 to R493). The life record is read (R485). At completion DONE is
set, STATE is ACTIVE, every cluster due for calibration, and with autorun Cap's bases are the image's (R323, R454). -/
def Obligations.BootLoadsTheImage : Prop :=
  (∀ (t : Nat) (img : List Byte) (slots : List (List Byte)) (s : State),
    BootReady (s.at t) →
    imgErr img ≠ 0 →
    ∃ s', exec (.bootStart t img slots) s = .next s' ∧ s'.reg .BOOT_STAT 0 = BitVec.ofNat 32 (imgErr img) ∧
      s'.rf .DOM_MGMT 0 0 3 = 0 ∧ (∀ n : Cluster, s'.rf .DOM_CLU n.val 0 3 = 0) ∧ s'.boot = { started := true } ∧
      LifeRead slots s s' ∧ Frame [.clasp, .boot, .life, .lifeHdr, .lifeSlot] bootRegs atNone s s') ∧
  (∀ (t : Nat) (img : List Byte) (slots : List (List Byte)) (s : State),
    let x := bootSec img 0
    let bytes := secBytes img x
    BootReady (s.at t) →
    imgErr img = 0 →
    imgNsec img = 1 →
    x.type ≠ 2 →
    (3 ≤ x.type → judge (s.at t) .cal false x.dest = .granted ∧ partsOf x.dest bytes.length = [(x.dest, bytes.length)]) →
    ∃ s', exec (.bootStart t img slots) s = .next s' ∧ s'.rb .BOOT_STAT 0 4 = true ∧ s'.rf .BOOT_STAT 0 0 4 = 0 ∧
      s'.rb .BOOT_STAT 0 5 = imgAuto img ∧ s'.rb .BOOT_STAT 0 6 = imgFlag img 1 ∧ s'.reg .BOOT_IMG_LEN 0 = BitVec.ofNat 32 (imgLen img) ∧
      s'.rf .DOM_MGMT 0 0 3 = imgOwner img ∧ (∀ n : Cluster, s'.rf .DOM_CLU n.val 0 3 = if imgAuto img then 4 else imgOwner img) ∧
      s'.boot.ssvid = imgField img 12 2 ∧ s'.boot.ssid = imgField img 14 2 ∧ s'.boot.started = true ∧ LifeRead slots s s' ∧
      (3 ≤ x.type → Written x.dest bytes s s' ∧ s'.rb .BOOT_SECERR 0 0 = (s.rb .BOOT_SECERR 0 0 || !secCrc img x) ∧
        s'.rf .HALLMARK_STAT 0 0 32 = s.rf .HALLMARK_STAT 0 0 32) ∧
      (x.type = 1 → libVerify bytes ≠ 1 → s'.mem = s.mem ∧ s'.rb .BOOT_SECERR 0 0 = true ∧ s'.rf .HALLMARK_STAT 0 0 3 = libVerify bytes ∧
        s'.rf .HALLMARK_STAT 0 4 3 = libVerify bytes)) ∧
  (∀ (t : Nat) (img : List Byte) (slots : List (List Byte)) (s : State),
    let x := bootSec img 0
    let es := configOf (secBytes img x)
    BootReady (s.at t) →
    imgErr img = 0 →
    imgNsec img = 1 →
    x.type = 2 →
    ∃ s', exec (.bootStart t img slots) s = .next s' ∧ s'.boot.config = (if secCrc img x then es else []) ∧
      (secCrc img x = false → s'.rb .BOOT_SECERR 0 0 = true ∧ s'.reg .BOOT_CFG_CNT 0 = 0#32 ∧ s'.rf .DOM_MGMT 0 0 3 = imgOwner img) ∧
      (secCrc img x = true → s'.rf .BOOT_CFG_CNT 0 0 16 + s'.rf .BOOT_CFG_CNT 0 16 16 = es.length) ∧
      (secCrc img x = true → (es.all fun e => decide (e.1 % 4 ≠ 0 ∨ 0x2800000 ≤ e.1 ∨ (0x1800 ≤ e.1 ∧ e.1 < 0x1C08))) = true →
        s'.rf .BOOT_CFG_CNT 0 0 16 = 0 ∧ s'.rf .DOM_MGMT 0 0 3 = imgOwner img) ∧
      (secCrc img x = true → capState s = 0 → ∀ e ∈ es, es = [e] → e.1 = Reg.addr .CAP_LEAD 0 → s'.reg .CAP_LEAD 0 = e.2 ∧ s'.rf .BOOT_CFG_CNT 0 0 16 = 1)) ∧
  (∀ (t : Nat) (s : State),
    s.boot.started = true →
    s.rb .BOOT_STAT 0 8 = false →
    pwrState s = 1 →
    slaveUp s = true →
    capState s = 0 →
    ∃ s', exec (.bootComplete t) s = .next s' ∧ s'.rb .BOOT_STAT 0 8 = true ∧ pwrState s' = 2 ∧
      (∀ n : Cluster, calDueNow s' n = true) ∧
      (∀ x ∈ s.boot.auto.toList, s'.rf .CAP_FLOW_BASE 0 0 20 = x.1 % 2 ^ 20 ∧ s'.rf .CAP_MAP_BASE 0 0 20 = x.2.1 % 2 ^ 20 ∧
        s'.reg .CAP_MAP_CNT 0 = BitVec.ofNat 32 x.2.2 ∧ capState s' = 1) ∧
      (s.boot.auto = none → Frame [.clasp, .cal] [.BOOT_STAT, .PWR_STAT, .CL_CAL_STAT] atAll s s') ∧
      Frame [.clasp, .cal] [.PWR_STAT, .BOOT_STAT, .CAP_CTRL, .CAP_STAT, .CAP_FLOW_BASE, .CAP_MAP_BASE, .CAP_MAP_CNT, .CL_CAL_STAT] atAll s s')

/-- Before the boot loader has started, nothing is in the boot store: true at reset, and kept by every step; only the
start of the loader fills it and only POR empties it (R492, R494). -/
def Obligations.BootStoreEmptyBeforeBoot : Prop :=
  ∀ (s s' : State),
    (s.boot.started = false → s.boot = { }) →
    step s = .next s' →
    (State.reset.boot = { }) ∧ (s'.boot.started = false → s'.boot = { }) ∧
      ((∀ t img slots, s.pending.head? ≠ some (.bootStart t img slots)) → s'.boot = s.boot ∨ s'.boot = { })

/-- GO sends LEN bytes of PSM_TX, or is ignored while a frame is in progress; at its end PSM_RX holds what was
received (R496). A serial frame reads the page, 0 past its end with OVR, or writes it, a partial byte as the final
one with PART (R497, R498). A window access is served in the next cycle as one access of the slave, with its result
(R499). The mailbox's flags follow IN_SEND, IN_ACK, OUT_SEND and OUT_ACK (R500). -/
def Obligations.SerialPortsAndMailbox : Prop :=
  (∀ (t : Nat) (r : Req) (d : Word) (s : State),
    let len := max 1 (min 32 (fld d 16 6))
    Accepted r .PSM_CTRL 0 (d ||| 1#32) (s.at t) →
    ∃ s', exec (.psmFrame t r d) s = .next s' ∧ s'.rf .PSM_CTRL 0 16 6 = min 32 (fld d 16 6) ∧
      (s.rb .PSM_STAT 0 0 = false → s'.rb .PSM_STAT 0 0 = true ∧
        s'.out = .frame ((List.range len).map fun i => BitVec.ofNat 8 (s.rf .PSM_TX (i / 4) (8 * (i % 4)) 8)) :: s.out ∧
        Frame [.clasp, .out] [.PSM_CTRL, .PSM_STAT] atNone s s') ∧
      (s.rb .PSM_STAT 0 0 = true → s'.rb .SER_EVT 0 3 = true ∧ Frame [.clasp] [.PSM_CTRL, .SER_EVT] atNone s s')) ∧
  (∀ (t : Nat) (rx : List Byte) (s : State),
    s.rb .PSM_STAT 0 0 = true →
    rx.length = max 1 (s.rf .PSM_CTRL 0 16 6) →
    rx.length ≤ 32 →
    ∃ s', exec (.psmFrameDone t rx) s = .next s' ∧ s'.rb .PSM_STAT 0 0 = false ∧ s'.rb .SER_EVT 0 0 = true ∧
      (∀ i : Nat, i < 32 → s'.rf .PSM_RX (i / 4) (8 * (i % 4)) 8 = if i < rx.length then (rx.getD i 0#8).toNat else s.rf .PSM_RX (i / 4) (8 * (i % 4)) 8) ∧
      Frame [.clasp] [.PSM_STAT, .PSM_RX, .SER_EVT] atNone s s') ∧
  (∀ (t : Nat) (a : Byte) (bytes : List Byte) (k : Fin 8) (bits : Byte) (s : State),
    let u := s.at t
    let x := a.toNat % 128
    let len := bytes.length + (if k.val = 0 then 0 else 1)
    PageFree s →
    ∃ s', exec (.mspFrame t true a bytes k bits) s = .next s' ∧
      s'.out = .serial ((List.range len).map fun i => if x + i < 128 then pageRead u (x + i) else 0#8) :: s.out ∧
      s'.msp = { s.msp with ovr := s.msp.ovr || decide (128 < x + len), part := s.msp.part || decide (k.val ≠ 0) } ∧
      (∀ i : Nat, i < 4 → pageRead u i = [0x68#8, 0x07#8, 0x0F#8, 0x4B#8].getD i 0#8 ∧ pageRead u (8 + i) = BitVec.ofNat 8 (fld s.msp.winAddr (8 * i) 8) ∧
        pageRead u (12 + i) = BitVec.ofNat 8 (fld s.msp.winData (8 * i) 8)) ∧
      (∀ i : Nat, i < 32 → pageRead u (0x20 + i) = BitVec.ofNat 8 (s.rf .MBX_IN (i / 4) (8 * (i % 4)) 8) ∧
        pageRead u (0x40 + i) = BitVec.ofNat 8 (s.rf .MBX_OUT (i / 4) (8 * (i % 4)) 8)) ∧
      pageRead u 0x10 = 0#8 ∧ pageRead u 0x11 = BitVec.ofNat 8 s.msp.winRes ∧ pageRead u 0x60 = 0#8 ∧
      (pageRead u 4).getLsbD 0 = s.msp.ovr ∧ (pageRead u 4).getLsbD 1 = s.msp.part ∧ (pageRead u 4).getLsbD 2 = false ∧
      (pageRead u 4).getLsbD 3 = s.rb .MSP_HSTAT 0 0 ∧ (pageRead u 4).getLsbD 4 = s.rb .MSP_HSTAT 0 1 ∧ (pageRead u 4).getLsbD 5 = s.rb .BOOT_STAT 0 8 ∧
      (pageRead u 4).getLsbD 6 = decide (s.rf .DOM_MGMT 0 0 3 = 5) ∧ Frame [.clasp, .msp, .out] [] atNone s s') ∧
  (∀ (t : Nat) (a : Byte) (bytes : List Byte) (s : State),
    let x := a.toNat % 128
    PageFree s →
    ∃ s', exec (.mspFrame t false a bytes 0 0#8) s = .next s' ∧
      (x = 8 → bytes.length = 4 → s'.msp = { s.msp with winAddr := BitVec.ofNat 32 (leNat bytes) } ∧ Frame [.clasp, .msp] [] atNone s s') ∧
      (x = 12 → bytes.length = 4 → s'.msp = { s.msp with winData := BitVec.ofNat 32 (leNat bytes) } ∧ Frame [.clasp, .msp] [] atNone s s') ∧
      (x = 32 → bytes.length ≤ 32 → s.rb .MSP_HSTAT 0 0 = false → (∀ i : Nat, i < 32 → s'.rf .MBX_IN (i / 4) (8 * (i % 4)) 8 =
          if i < bytes.length then (bytes.getD i 0#8).toNat else s.rf .MBX_IN (i / 4) (8 * (i % 4)) 8) ∧ Frame [.clasp] [.MBX_IN] atNone s s') ∧
      (x = 32 → bytes.length ≤ 32 → s.rb .MSP_HSTAT 0 0 = true → Frame [.clasp] [] atNone s s') ∧
      (x = 127 → 2 ≤ bytes.length → s'.msp = { s.msp with ovr := true } ∧ Frame [.clasp, .msp] [] atNone s s') ∧
      (x = 96 → bytes = [1#8] → s'.reg .MSP_HSTAT 0 = putBit (s.reg .MSP_HSTAT 0) 0 true ∧ s'.rb .SER_EVT 0 1 = true) ∧
      (x = 96 → bytes = [2#8] → s'.reg .MSP_HSTAT 0 = putBit (s.reg .MSP_HSTAT 0) 1 false ∧ s'.rb .SER_EVT 0 2 = true) ∧
      (x = 4 → ∀ b ∈ bytes, bytes = [b] → s'.msp = { s.msp with ovr := s.msp.ovr && !b.getLsbD 0, part := s.msp.part && !b.getLsbD 1 } ∧
        Frame [.clasp, .msp] [] atNone s s')) ∧
  (∀ (t : Nat) (k : Fin 8) (b : Byte) (s : State),
    PageFree s →
    k.val ≠ 0 →
    ∃ s', exec (.mspFrame t false 8#8 [] k b) s = .next s' ∧
      s'.msp = { s.msp with winAddr := (s.msp.winAddr &&& 0xFFFFFF00#32) ||| BitVec.ofNat 32 (b.toNat % 2 ^ k.val), part := true } ∧
      Frame [.clasp, .msp] [] atNone s s') ∧
  (∀ (t : Nat) (b : Byte) (s : State),
    PageFree s →
    exec (.mspFrame t false 0x10#8 [b] 0 0#8) s = (if b.getLsbD 1 then exec (.mspWinWr t) s else if b.getLsbD 0 then exec (.mspWinRd t) s else .next (s.at t))) ∧
  (∀ (t : Nat) (wr : Bool) (c : Instr) (s : State),
    (c = .mspWinRd t ∧ wr = false) ∨ (c = .mspWinWr t ∧ wr = true) →
    s.pwr.por = false →
    ∃ s', exec c s = .next s' ∧
      (s'.msp = if s.msp.cmd.isSome then { s.msp with winRes := 7 }
        else if s.rb .BOOT_STAT 0 8 = false ∨ slaveUp s = false then { s.msp with winRes := 4 } else { s.msp with cmd := some wr }) ∧
      Frame [.clasp, .msp] [] atNone s s') ∧
  (∀ (t i : Nat) (r : Reg) (s : State),
    let u := s.at t
    s.msp.cmd = some false →
    slaveUp u = true →
    s.rb .BOOT_STAT 0 8 = true →
    regAt (s.msp.winAddr.toNat % 2 ^ 26 / 4 * 4) = some (r, i) →
    r ∉ [.CH_PM_RES, .CH_PM_RES_THI, .CH_RG_STAT, .SLC_DATA, .CH_STAT, .CH_PM_STAT] →
    pairHi r = none →
    tabGet none s.hiLatch (latchKey 5 r i) = none →
    ∃ s', exec (.mspWinAccess t) s = .next s' ∧ s'.msp.cmd = none ∧ s'.msp.winRes = 0 ∧
      s'.msp.winData = regValue { u with msp := { s.msp with cmd := none } } 5 r i ∧
      s'.msp.winAddr = s.msp.winAddr ∧ s'.msp.ovr = s.msp.ovr ∧ s'.msp.part = s.msp.part ∧ Frame [.clasp, .msp] [] atNone s s') ∧
  (∀ (t : Nat) (s : State),
    let u := s.at t
    let a := s.msp.winAddr.toNat % 2 ^ 26 / 4 * 4
    s.msp.cmd = some true →
    slaveUp u = true →
    s.rb .BOOT_STAT 0 8 = true →
    stages 5 a u = false →
    (refuseCode 5 a s.msp.winData 0xFFFFFFFF#32 u ≠ 0 ∨ a = Reg.addr .CAP_LEAD 0) →
    ∃ s', exec (.mspWinAccess t) s = .next s' ∧ s'.msp.cmd = none ∧ s'.msp.winRes = refuseCode 5 a s.msp.winData 0xFFFFFFFF#32 u ∧
      (s'.msp.winRes ≠ 0 → s'.rf .DOM_WREF_INFO 5 16 8 = s'.msp.winRes ∧ Frame [.clasp, .msp] [.DOM_WREF_INFO, .DOM_WREF_ADDR, .HL_EVT] atNone s s') ∧
      (s'.msp.winRes = 0 → s'.reg .CAP_LEAD 0 = s.msp.winData ∧ Frame [.clasp, .msp] [.CAP_LEAD] atNone s s')) ∧
  (∀ (t : Nat) (s : State),
    s.pwr.por = false →
    ∃ s', exec (.inSend t) s = .next s' ∧ s'.reg .MSP_HSTAT 0 = putBit (s.reg .MSP_HSTAT 0) 0 true ∧ s'.rb .SER_EVT 0 1 = true ∧
      Frame [.clasp] [.MSP_HSTAT, .SER_EVT] atNone s s') ∧
  (∀ (t : Nat) (s : State),
    s.pwr.por = false →
    ∃ s', exec (.outAck t) s = .next s' ∧ s'.reg .MSP_HSTAT 0 = putBit (s.reg .MSP_HSTAT 0) 1 false ∧ s'.rb .SER_EVT 0 2 = true ∧
      Frame [.clasp] [.MSP_HSTAT, .SER_EVT] atNone s s') ∧
  (∀ (t : Nat) (r : Req) (d : Word) (s : State),
    r.val < 4 →
    Accepted r .MSP_HCTRL 0 (d ||| 1#32) (s.at t) →
    bitOf d 1 = false →
    ∃ s', exec (.inAck t r d) s = .next s' ∧ s'.reg .MSP_HSTAT 0 = putBit (s.reg .MSP_HSTAT 0) 0 false ∧ Frame [.clasp] [.MSP_HSTAT] atNone s s') ∧
  (∀ (t : Nat) (r : Req) (d : Word) (s : State),
    r.val < 4 →
    Accepted r .MSP_HCTRL 0 (d ||| 2#32) (s.at t) →
    bitOf d 0 = false →
    ∃ s', exec (.outSend t r d) s = .next s' ∧ s'.rb .MSP_HSTAT 0 1 = true ∧ s'.rb .MSP_HSTAT 0 0 = s.rb .MSP_HSTAT 0 0 ∧
      s'.rf .MSP_HSTAT 0 4 2 = (if s.rb .MSP_HSTAT 0 1 then s.rf .MSP_HSTAT 0 4 2 else r.val) ∧ Frame [.clasp] [.MSP_HSTAT] atNone s s')

/-- The commands that cause a SER_EVT bit set it whatever SER_EVT_EN holds, and source 1,080, with no INT reaction on
it, is raised exactly while some SER_EVT bit and its SER_EVT_EN bit are both 1 (R502). -/
def Obligations.SerialCausesRaiseSource1080 : Prop :=
  (∀ (t : Nat) (w : Word) (s : State),
    s.pwr.por = false →
    ∃ s', exec (.inSend t) (s.setReg .SER_EVT_EN 0 w) = .next s' ∧ s'.rb .SER_EVT 0 1 = true) ∧
  (∀ (t : Nat) (w : Word) (s : State),
    s.pwr.por = false →
    ∃ s', exec (.outAck t) (s.setReg .SER_EVT_EN 0 w) = .next s' ∧ s'.rb .SER_EVT 0 2 = true) ∧
  (∀ (t : Nat) (rx : List Byte) (w : Word) (s : State),
    s.rb .PSM_STAT 0 0 = true →
    ∃ s', exec (.psmFrameDone t rx) (s.setReg .SER_EVT_EN 0 w) = .next s' ∧ s'.rb .SER_EVT 0 0 = true) ∧
  (∀ (t : Nat) (r : Req) (d w : Word) (s : State),
    Accepted r .PSM_CTRL 0 (d ||| 1#32) ((s.setReg .SER_EVT_EN 0 w).at t) →
    s.rb .PSM_STAT 0 0 = true →
    ∃ s', exec (.psmFrame t r d) (s.setReg .SER_EVT_EN 0 w) = .next s' ∧ s'.rb .SER_EVT 0 3 = true) ∧
  (∀ (s : State),
    (∀ b : Nat, b < 32 → s.rb .SER_EVT 0 b = true → s.rb .SER_EVT_EN 0 b = true → raised s 1080 = true) ∧
      ((s.flt 1080).int = false → (∀ b : Nat, b < 32 → s.rb .SER_EVT 0 b = false ∨ s.rb .SER_EVT_EN 0 b = false) → raised s 1080 = false))

/-- A raised source that is routed to a domain, not pending there, sends its vector to a serving link, or sets its
PBA bit, and becomes pending (R514, R516); else nothing changes. LOCK written 1 locks the identity (R511). EXTEST,
HIGHZ and CLAMP hold the part in WARM reset; the other instructions do not disturb it, and end that reset (R537).
IDCODE and the boundary register read as R536 and R538 say; the input cells that no command tells are free values
(log entry 2). -/
def Obligations.EventsIdentityAndTap : Prop :=
  (∀ (t : Nat) (h : Dom) (k : Source) (cause enable : Reg) (i : Nat) (s : State),
    let u := s.at t
    let v := max 1 (s.rf .EVT_ROUTE k.val 8 6)
    sourceRegs k.val = some (cause, enable, i) →
    (s.reg cause i &&& s.reg enable i ≠ 0#32 ∨ (s.flt k.val).int = true) →
    s.rb .EVT_ROUTE k.val h.val = true →
    s.rb (evtPend h.val) (k.val / 32) (k.val % 32) = false →
    linkServes u h.val = true →
    ∃ s', exec (.eventMessage t h k) s = .next s' ∧
      s'.reg (evtPend h.val) (k.val / 32) = putBit (s.reg (evtPend h.val) (k.val / 32)) (k.val % 32) true ∧
      (bitOf (msixWord s h.val (4 * v + 3)) 0 = false → s'.out = .msix h.val v :: s.out ∧
        Frame [.clasp, .out] [evtPend h.val] atNone s s') ∧
      (∀ j : Nat, j < 36 → j ≠ k.val / 32 → s'.reg (evtPend h.val) j = s.reg (evtPend h.val) j) ∧
      (bitOf (msixWord s h.val (4 * v + 3)) 0 = true → bitOf (pbaWord s' h.val (v / 32)) (v % 32) = true ∧
        Frame [.clasp, .pba] [evtPend h.val] atNone s s')) ∧
  (∀ (t : Nat) (h : Dom) (k : Source) (s : State),
    (s.rb .EVT_ROUTE k.val h.val = false ∨ s.rb (evtPend h.val) (k.val / 32) (k.val % 32) = true ∨ linkServes (s.at t) h.val = false ∨ raised s k.val = false) →
    ∃ s', exec (.eventMessage t h k) s = .next s' ∧ Frame [.clasp] [] atNone s s') ∧
  (∀ (t : Nat) (r : Req) (d : Word) (s : State),
    Accepted r .ID_LOCK 0 (d ||| 1#32) (s.at t) →
    ∃ s', exec (.idLock t r d) s = .next s' ∧ s'.rb .ID_LOCK 0 0 = true ∧ Frame [.clasp] [.ID_LOCK] atNone s s') ∧
  (∀ (t code i : Nat) (r : Reg) (c : Instr) (s : State),
    (c = .extest t ∧ code = 0) ∨ (c = .highz t ∧ code = 3) ∨ (c = .clamp t ∧ code = 4) →
    s.pwr.por = false →
    r ∉ warmMore →
    ∃ s', exec c s = .next s' ∧ s'.tap = code ∧
      (warmHeld s = true → Frame [.clasp, .tap] [] atNone s s') ∧
      (warmHeld s = false → WarmAt r i s s' ∧ s'.mem = s.mem ∧ s'.cap = { } ∧ s'.sems = [] ∧ s'.clasp = (s.at t).clasp ∧
        (∀ n : Cluster, s'.seq n = { } ∧ (∀ k : Channel, s'.chan n k = { sw := if (s.chan n k).sw = .opened then .opened else .opening })) ∧
        Only (.tap :: warmParts) allRegs s s')) ∧
  (∀ (t code : Nat) (c : Instr) (s : State),
    (c = .bypass t ∧ code = 255) ∨ (c = .testLogicReset t ∧ code = 2) →
    s.pwr.por = false →
    s.tap ≠ 0 ∧ s.tap ≠ 3 ∧ s.tap ≠ 4 →
    ∃ s', exec c s = .next s' ∧ s'.tap = code ∧ Frame [.clasp, .tap] [] atNone s s') ∧
  (∀ (t : Nat) (s : State),
    s.pwr.por = false →
    s.tap ≠ 0 ∧ s.tap ≠ 3 ∧ s.tap ≠ 4 →
    ∃ s', exec (.idcode t) s = .next s' ∧ s'.tap = 2 ∧
        s'.out = .tdo (idcodeWord s) :: s.out ∧ fld (idcodeWord s) 28 4 = s.rf .DEV_STEP 0 4 4 ∧ fld (idcodeWord s) 12 16 = 0x0768 ∧
        fld (idcodeWord s) 1 11 = Config.tapMaker % 2048 ∧ bitOf (idcodeWord s) 0 = true ∧
        Frame [.clasp, .tap, .out] [] atNone s s') ∧
  (∀ (t : Nat) (s : State),
    s.pwr.por = false →
    s.tap ≠ 0 ∧ s.tap ≠ 3 ∧ s.tap ≠ 4 →
    ∃ s', exec (.samplePreload t) s = .next s' ∧ s'.tap = 1 ∧ s'.free = s.free + 1 ∧
        s'.boundary = putBit (putBit (putBit (Config.freeWord s.free) 4 (s.rb .PWR_RAIL 0 8)) 5 (!s.pwr.rst)) 6 (s.rb .PWR_RAIL 0 9) ∧
        s'.out = .tdo s'.boundary :: s.out ∧ Frame [.clasp, .tap, .boundary, .free, .out] [] atNone s s') ∧
  (∀ (t : Nat) (c : Instr) (s : State),
    (c = .bypass t ∨ c = .testLogicReset t ∨ c = .idcode t ∨ c = .samplePreload t) →
    (s.tap = 0 ∨ s.tap = 3 ∨ s.tap = 4) →
    s.pwr.rst = false →
    s.pwr.chip = false →
    s.pwr.por = false →
    s.pwr.stable = true →
    s.pwr.fault = false →
    (s.rb .BOOT_STAT 0 8 = false ∨ s.rb .BOOT_STAT 0 6 = false) →
    ∃ s', exec c s = .next s' ∧ s'.reg .PWR_STAT 0 = (if s.rb .BOOT_STAT 0 8 then 2#32 else 1#32) ∧
      (s.rb .BOOT_STAT 0 8 = true → ∀ n : Cluster, calDueNow s' n = true) ∧
      Frame [.clasp, .bands, .ring, .pwr, .tap, .boundary, .cal, .free, .out] [.PWR_STAT, .RING_STAT, .RING_EVT, .CL_CAL_STAT, .CL_TIM_STAT] atAll s s')
end

