-- ==== Sys2Proof/Laws/Sparse.lean ====
section
/-! SUPPORT. Sys2Proof/Laws/Sparse.lean: the laws of the sparse tables: a read after a write, other keys, and that every
operation keeps the canonical form. -/

namespace Sys2Proof.Machine

variable {α : Type}

theorem tabGet_tabErase_same (d : α) (t : List (Nat × α)) (k : Nat) : tabGet d (tabErase t k) k = d := by
  induction t with
  | nil => rfl
  | cons e r ih =>
    obtain ⟨k', v⟩ := e
    by_cases h : k = k' <;> simp [tabErase, tabGet, h]
    · simpa [h] using ih
    · simpa [h] using ih

theorem tabGet_tabErase_ne (d : α) (t : List (Nat × α)) {k j : Nat} (h : j ≠ k) :
    tabGet d (tabErase t k) j = tabGet d t j := by
  induction t with
  | nil => rfl
  | cons e r ih =>
    obtain ⟨k', v⟩ := e
    by_cases hk : k = k'
    · subst hk; simp [tabErase, tabGet, h, ih]
    · simp [tabErase, tabGet, hk, ih]

theorem tabGet_tabInsert_same (d : α) (t : List (Nat × α)) (k : Nat) (v : α) : tabGet d (tabInsert t k v) k = v := by
  induction t with
  | nil => simp [tabInsert, tabGet]
  | cons e r ih =>
    obtain ⟨k', v'⟩ := e
    by_cases h1 : k < k'
    · simp [tabInsert, tabGet, h1]
    · by_cases h2 : k = k' <;> simp [tabInsert, tabGet, h1, h2]
      · simpa [h2] using ih

theorem tabGet_tabInsert_ne (d : α) (t : List (Nat × α)) {k j : Nat} (v : α) (h : j ≠ k) :
    tabGet d (tabInsert t k v) j = tabGet d t j := by
  induction t with
  | nil => simp [tabInsert, tabGet, h]
  | cons e r ih =>
    obtain ⟨k', v'⟩ := e
    by_cases h1 : k < k'
    · simp [tabInsert, tabGet, h1, h]
    · by_cases h2 : k = k'
      · subst h2; simp [tabInsert, tabGet, h]
      · simp [tabInsert, tabGet, h1, h2, ih]

variable [DecidableEq α]

/-- A read gives what the last write to its key wrote. -/
theorem tabGet_tabSet (d : α) (t : List (Nat × α)) (k j : Nat) (v : α) :
    tabGet d (tabSet d t k v) j = if j = k then v else tabGet d t j := by
  unfold tabSet
  by_cases h : j = k
  · subst h
    split
    · rename_i hv; simp [tabGet_tabErase_same, hv]
    · simp [tabGet_tabInsert_same]
  · split <;> simp [h, tabGet_tabErase_ne, tabGet_tabInsert_ne]

@[simp] theorem tabGet_tabSet_same (d : α) (t : List (Nat × α)) (k : Nat) (v : α) :
    tabGet d (tabSet d t k v) k = v := by simp [tabGet_tabSet]

/-- A write changes no other key, whatever the default the reader assumes. -/
theorem tabGet_tabSet_ne (d e : α) (t : List (Nat × α)) {k j : Nat} (v : α) (h : j ≠ k) :
    tabGet e (tabSet d t k v) j = tabGet e t j := by
  unfold tabSet
  split <;> simp [h, tabGet_tabErase_ne, tabGet_tabInsert_ne]

omit [DecidableEq α] in
theorem tabRising_mono {lo lo' : Nat} (h : lo' ≤ lo) {t : List (Nat × α)} (ht : tabRising lo t = true) :
    tabRising lo' t = true := by
  cases t with
  | nil => rfl
  | cons e r => simp [tabRising] at ht ⊢; exact ⟨by omega, ht.2⟩

omit [DecidableEq α] in
theorem tabErase_rising {lo k : Nat} {t : List (Nat × α)} (h : tabRising lo t = true) :
    tabRising lo (tabErase t k) = true := by
  induction t generalizing lo with
  | nil => rfl
  | cons e r ih =>
    obtain ⟨k', v⟩ := e
    simp [tabRising] at h
    by_cases hk : k = k'
    · simp [tabErase, hk]; exact hk ▸ tabRising_mono (by omega) (ih h.2)
    · simp [tabErase, hk, tabRising]; exact ⟨h.1, ih h.2⟩

omit [DecidableEq α] in
theorem tabInsert_rising {lo k : Nat} {v : α} {t : List (Nat × α)} (hk : lo ≤ k) (h : tabRising lo t = true) :
    tabRising lo (tabInsert t k v) = true := by
  induction t generalizing lo with
  | nil => simp [tabInsert, tabRising, hk]
  | cons e r ih =>
    obtain ⟨k', v'⟩ := e
    simp [tabRising] at h
    by_cases h1 : k < k'
    · simp [tabInsert, h1, tabRising, hk, h.2]
    · by_cases h2 : k = k'
      · subst h2; simp [tabInsert, tabRising, h]
      · simp [tabInsert, h1, h2, tabRising, h.1]; exact ih (by omega) h.2

omit [DecidableEq α] in
theorem tabErase_mem {k : Nat} {t : List (Nat × α)} {e : Nat × α} (h : e ∈ tabErase t k) : e ∈ t := by
  induction t with
  | nil => simp [tabErase] at h
  | cons x r ih =>
    obtain ⟨k', v⟩ := x
    by_cases hk : k = k' <;> simp [tabErase, hk] at h
    · exact List.mem_cons_of_mem _ (ih (hk ▸ h))
    · rcases h with h | h
      · simp [h]
      · exact List.mem_cons_of_mem _ (ih h)

omit [DecidableEq α] in
theorem tabInsert_mem {k : Nat} {v : α} {t : List (Nat × α)} {e : Nat × α} (h : e ∈ tabInsert t k v) :
    e = (k, v) ∨ e ∈ t := by
  induction t with
  | nil => simpa [tabInsert] using h
  | cons x r ih =>
    obtain ⟨k', v'⟩ := x
    by_cases h1 : k < k' <;> simp [tabInsert, h1] at h
    · rcases h with h | h | h <;> simp [h]
    · by_cases h2 : k = k' <;> simp [h2] at h
      · rcases h with h | h <;> simp [h, h2]
      · rcases h with h | h
        · simp [h]
        · rcases ih h with h | h <;> simp [h]

/-- Writing keeps the canonical form. -/
theorem tabSet_wf {d : Nat → α} {t : List (Nat × α)} {k : Nat} {v d' : α} (hd : d k = d') (h : tabWf d t = true) :
    tabWf d (tabSet d' t k v) = true := by
  simp only [tabWf, Bool.and_eq_true, List.all_eq_true, decide_eq_true_eq] at h ⊢
  unfold tabSet
  split
  · exact ⟨tabErase_rising h.1, fun e he => h.2 e (tabErase_mem he)⟩
  · rename_i hv
    refine ⟨tabInsert_rising (Nat.zero_le _) h.1, fun e he => ?_⟩
    rcases tabInsert_mem he with rfl | he
    · simpa [hd] using hv
    · exact h.2 e he

omit [DecidableEq α] in
theorem tabRising_filter {lo : Nat} {t : List (Nat × α)} (p : Nat × α → Bool) (h : tabRising lo t = true) :
    tabRising lo (t.filter p) = true := by
  induction t generalizing lo with
  | nil => rfl
  | cons e r ih =>
    obtain ⟨k, v⟩ := e
    simp [tabRising] at h
    by_cases hp : p (k, v) = true
    · simp [List.filter, hp, tabRising, h.1]; exact ih h.2
    · simp [List.filter, hp]; exact tabRising_mono (by omega) (ih h.2)

/-- Dropping entries keeps the canonical form. -/
theorem filter_wf {d : Nat → α} {t : List (Nat × α)} (p : Nat × α → Bool) (h : tabWf d t = true) :
    tabWf d (t.filter p) = true := by
  simp only [tabWf, Bool.and_eq_true, List.all_eq_true, decide_eq_true_eq] at h ⊢
  exact ⟨tabRising_filter p h.1, fun e he => h.2 e (List.mem_of_mem_filter he)⟩

/-- Changing every entry keeps the canonical form. -/
theorem tabMap_wf {d : Nat → α} (f : Nat → α → α) {t : List (Nat × α)} (h : tabRising 0 t = true) :
    tabWf d (tabMap d f t) = true := by
  have key : ∀ lo (t : List (Nat × α)), tabRising lo t = true →
      tabRising lo (tabMap d f t) = true ∧ ∀ e ∈ tabMap d f t, e.2 ≠ d e.1 := by
    intro lo t
    induction t generalizing lo with
    | nil => simp [tabMap, tabRising]
    | cons e r ih =>
      obtain ⟨k, v⟩ := e
      intro h
      simp [tabRising] at h
      have := ih (k + 1) h.2
      by_cases hv : f k v = d k
      · simp only [tabMap, hv, if_true]
        exact ⟨tabErase_rising (tabRising_mono (by omega) this.1), fun e he => this.2 _ (tabErase_mem he)⟩
      · simp [tabMap, hv, tabRising, h.1]; exact ⟨this.1, fun a b hb => this.2 _ hb⟩
  simp only [tabWf, Bool.and_eq_true, List.all_eq_true, decide_eq_true_eq]
  exact ⟨(key 0 t h).1, (key 0 t h).2⟩

/-- What a changed table holds, where f keeps the default. -/
theorem tabGet_tabMap {d : Nat → α} (f : Nat → α → α) (t : List (Nat × α)) (k : Nat) (hf : f k (d k) = d k) :
    tabGet (d k) (tabMap d f t) k = f k (tabGet (d k) t k) := by
  induction t with
  | nil => simp [tabMap, tabGet, hf]
  | cons e r ih =>
    obtain ⟨k', v⟩ := e
    by_cases hk : k = k'
    · subst hk
      by_cases hv : f k v = d k
      · simp [tabMap, hv, tabGet, tabGet_tabErase_same]
      · simp [tabMap, hv, tabGet]
    · by_cases hv : f k' v = d k'
      · simp [tabMap, hv, tabGet, hk, tabGet_tabErase_ne, ih]
      · simp [tabMap, hv, tabGet, hk, ih]

theorem tabWf_rising {d : Nat → α} {t : List (Nat × α)} (h : tabWf d t = true) : tabRising 0 t = true := by
  simp [tabWf] at h; exact h.1

@[simp] theorem tabWf_nil (d : Nat → α) : tabWf d [] = true := rfl

omit [DecidableEq α] in
/-- A filter by key leaves the reads of the keys it keeps, and gives the default elsewhere. -/
theorem tabGet_filter {d : α} {t : List (Nat × α)} (p : Nat → Bool) (k : Nat) :
    tabGet d (t.filter fun e => p e.1) k = if p k then tabGet d t k else d := by
  induction t with
  | nil => simp [tabGet]
  | cons e r ih =>
    obtain ⟨k', v⟩ := e
    by_cases hp : p k' = true
    · by_cases hk : k = k'
      · subst hk; simp [List.filter, hp, tabGet]
      · simp [List.filter, hp, tabGet, hk, ih]
    · by_cases hk : k = k'
      · subst hk; simp [List.filter, hp, ih]
      · simp [List.filter, hp, tabGet, hk, ih]

end Sys2Proof.Machine
end

