-- ==== Sys2Proof/Laws/Upd.lean ====
section
/-! SUPPORT. Sys2Proof/Laws/Upd.lean: what an operation may change, as one relation that composes, and the updates of each
field of the state. `K` and `R` are sets of parts and registers, as bits of a number; `C` says where (Safety.lean). -/

namespace Sys2Proof.Machine

theorem Reg.ctorIdx_lt (r : Reg) : r.ctorIdx < 512 := by cases r <;> decide

@[simp] theorem porOfKey_key (r : Reg) (i : Nat) : porOfKey (r.key i) = r.porOf i := by
  have h := r.ctorIdx_lt
  have h1 : (i * 512 + r.ctorIdx) % 512 = r.ctorIdx := by omega
  have h2 : (i * 512 + r.ctorIdx) / 512 = i := by omega
  simp [porOfKey, Reg.key, h1, h2, Reg.ofNat_ctorIdx]

theorem Reg.ctorIdx_inj {r r' : Reg} (h : r.ctorIdx = r'.ctorIdx) : r = r' := by
  have := congrArg Reg.ofNat h; simpa [Reg.ofNat_ctorIdx] using this

theorem Reg.key_inj {r r' : Reg} {i i' : Nat} : r.key i = r'.key i' ↔ r = r' ∧ i = i' := by
  constructor
  · intro h
    have h1 := r.ctorIdx_lt; have h2 := r'.ctorIdx_lt
    simp only [Reg.key] at h
    exact ⟨Reg.ctorIdx_inj (by omega), by omega⟩
  · rintro ⟨rfl, rfl⟩; rfl

/-- A register reads what was last written to it. -/
theorem State.reg_setReg (s : State) (r r' : Reg) (i i' : Nat) (v : Word) :
    (s.setReg r i v).reg r' i' = if r' = r ∧ i' = i then v else s.reg r' i' := by
  unfold State.reg State.setReg
  by_cases h : r' = r ∧ i' = i
  · obtain ⟨rfl, rfl⟩ := h; simp
  · have : r'.key i' ≠ r.key i := fun e => h (Reg.key_inj.1 e)
    simp only [if_neg h]; exact tabGet_tabSet_ne _ _ _ _ this

@[simp] theorem State.reg_setReg_same (s : State) (r : Reg) (i : Nat) (v : Word) : (s.setReg r i v).reg r i = v := by
  simp [State.reg_setReg]

/-! ### Relations -/

theorem Part.same_refl (p : Part) (s : State) : p.same s s := by cases p <;> rfl

theorem Part.same_trans {p : Part} {a b c : State} (h : p.same a b) (h' : p.same b c) : p.same a c := by
  cases p <;> exact Eq.trans h' h

theorem SameCluster.trans {k : Nat} {a b c : State} (h : SameCluster k a b) (h' : SameCluster k b c) : SameCluster k a c where
  seqs := h'.seqs.trans h.seqs
  hops := h'.hops.trans h.hops
  trigs := h'.trigs.trans h.trigs
  stamps := h'.stamps.trans h.stamps
  cpts := fun e he => (h'.cpts e he).trans (h.cpts e he)
  awgs := fun e he => (h'.awgs e he).trans (h.awgs e he)
  awgTab := fun e he => (h'.awgTab e he).trans (h.awgTab e he)
  micro := fun e he => (h'.micro e he).trans (h.micro e he)
  nano := fun e he => (h'.nano e he).trans (h.nano e he)
  bands := h'.bands.trans h.bands
  blankAt := h'.blankAt.trans h.blankAt
  gov := h'.gov.trans h.gov
  cal := h'.cal.trans h.cal

theorem SameCluster.refl (k : Nat) (s : State) : SameCluster k s s where
  seqs := rfl
  hops := rfl
  trigs := rfl
  stamps := rfl
  cpts := fun _ _ => rfl
  awgs := fun _ _ => rfl
  awgTab := fun _ _ => rfl
  micro := fun _ _ => rfl
  nano := fun _ _ => rfl
  bands := rfl
  blankAt := rfl
  gov := rfl
  cal := rfl

theorem Within.trans {C : Nat → Nat → Prop} {a b c : State} (h : Within C a b) (h' : Within C b c) : Within C a c where
  chans := fun n d hd hn => (h'.chans n d hd hn).trans (h.chans n d hd hn)
  chanRegs := fun r n d h1 h2 hd hn => (h'.chanRegs r n d h1 h2 hd hn).trans (h.chanRegs r n d h1 h2 hd hn)
  cluRegs := fun r i h1 hn => (h'.cluRegs r i h1 hn).trans (h.cluRegs r i h1 hn)
  clus := fun k hk => (h.clus k hk).trans (h'.clus k hk)

theorem Within.refl (C : Nat → Nat → Prop) (s : State) : Within C s s :=
  ⟨fun _ _ _ _ => rfl, fun _ _ _ _ _ _ _ => rfl, fun _ _ _ _ => rfl, fun k _ => SameCluster.refl k s⟩

theorem Within.mono {C D : Nat → Nat → Prop} (hCD : ∀ n c, C n c → D n c) {a b : State} (h : Within C a b) : Within D a b where
  chans := fun n d hd hn => h.chans n d hd fun x => hn (hCD _ _ x)
  chanRegs := fun r n d h1 h2 hd hn => h.chanRegs r n d h1 h2 hd fun x => hn (hCD _ _ x)
  cluRegs := fun r i h1 hn => h.cluRegs r i h1 fun c x => hn c (hCD _ _ x)
  clus := fun k hk => h.clus k fun c x => hk c (hCD _ _ x)

/-- States that agree on every list held by cluster and on the registers. -/
theorem Within.same (C : Nat → Nat → Prop) {a b : State}
    (h : (b.regs, b.chans, b.seqs, b.hops, b.trigs, b.stamps, b.cpts, b.awgs, b.awgTab, b.micro, b.nano, b.bands, b.blankAt,
        b.gov, b.cal) =
      (a.regs, a.chans, a.seqs, a.hops, a.trigs, a.stamps, a.cpts, a.awgs, a.awgTab, a.micro, a.nano, a.bands, a.blankAt,
        a.gov, a.cal)) : Within C a b := by
  simp only [Prod.mk.injEq] at h
  obtain ⟨hr, h1, h2, h3, h4, h5, h6, h7, h8, h9, h10, h11, h12, h13, h14⟩ := h
  refine ⟨fun _ _ _ _ => by rw [h1], fun r n c _ _ _ _ => by simp [State.reg, hr],
    fun r i _ _ => by simp [State.reg, hr], fun k _ => ?_⟩
  exact ⟨by rw [h2], by rw [h3], by rw [h4], by rw [h5], fun _ _ => by rw [h6], fun _ _ => by rw [h7], fun _ _ => by rw [h8],
    fun _ _ => by rw [h9], fun _ _ => by rw [h10], by rw [h11], by rw [h12], by rw [h13], by rw [h14]⟩

/-- What an operation may change from s0 to s: parts of K, registers of R, where C says; the canonical form and the queue
of commands stay. -/
structure Upd (K R : Nat) (C : Nat → Nat → Prop) (s0 s : State) : Prop where
  pending : s.pending = s0.pending
  parts : ∀ p : Part, K.testBit p.ctorIdx = false → p.same s0 s
  regs : ∀ (r : Reg) i, R.testBit r.ctorIdx = false → s.reg r i = s0.reg r i
  within : Within C s0 s
  inv : Inv s0 → Inv s

variable {K R : Nat} {C : Nat → Nat → Prop} {s0 s : State}

theorem Upd.refl : Upd K R C s s :=
  ⟨rfl, fun p _ => p.same_refl s, fun _ _ _ => rfl, Within.refl C s, id⟩

theorem Upd.trans {s1 s2 : State} (h : Upd K R C s0 s1) (h' : Upd K R C s1 s2) : Upd K R C s0 s2 :=
  ⟨h'.pending.trans h.pending, fun p hp => Part.same_trans (h.parts p hp) (h'.parts p hp),
    fun r i hr => (h'.regs r i hr).trans (h.regs r i hr), h.within.trans h'.within, fun x => h'.inv (h.inv x)⟩

theorem Upd.ite {c : Prop} [Decidable c] {a b : State} (ha : Upd K R C s0 a) (hb : Upd K R C s0 b) :
    Upd K R C s0 (if c then a else b) := by split <;> assumption

theorem testBit_of_sub {a K i : Nat} (h : a ||| K = K) (hi : a.testBit i = true) : K.testBit i = true := by
  rw [← h, Nat.testBit_or, hi, Bool.true_or]

theorem sub_of {a b K : Nat} (hab : a ||| b = b) (h : b ||| K = K) : a ||| K = K := by
  rw [← h, ← Nat.lor_assoc, hab]

theorem not_testBit_of_sub {a K i : Nat} (h : a ||| K = K) (hi : K.testBit i = false) : a.testBit i = false := by
  rw [← h, Nat.testBit_or] at hi; simp at hi; exact hi.1

theorem Upd.mono {K' R' : Nat} (h : Upd K R C s0 s) (hk : K ||| K' = K') (hr : R ||| R' = R') : Upd K' R' C s0 s :=
  ⟨h.pending, fun p hp => h.parts p (not_testBit_of_sub hk hp), fun r i hi => h.regs r i (not_testBit_of_sub hr hi), h.within, h.inv⟩

/-- Reading a mask as a list of parts and registers. -/
theorem Upd.only {KL : List Part} {RL : List Reg} (h : Upd K R C s0 s)
    (hk : ∀ p ∉ KL, K.testBit p.ctorIdx = false) (hr : ∀ r ∉ RL, R.testBit r.ctorIdx = false) : Only KL RL s0 s :=
  ⟨h.pending, fun p hp => h.parts p (hk p hp), fun r i hi => h.regs r i (hr r hi)⟩

/-! ### Registers -/

/-- Element i of r may be written where C says. -/
def RegOk (C : Nat → Nat → Prop) (r : Reg) (i : Nat) : Prop :=
  r.row.cluster = true → (r.row.count = 32 → C (i / 32) (i % 32)) ∧ ∃ c, C (i / r.row.count) c

theorem RegOk.glob {r : Reg} {i : Nat} (h : r.row.cluster = false) : RegOk C r i := fun h' => by simp [h] at h'

theorem RegOk.all {r : Reg} {i : Nat} (hc : ∀ n c, C n c) : RegOk C r i := fun _ => ⟨fun _ => hc _ _, 0, hc _ _⟩

theorem RegOk.chan {r : Reg} {n : Cluster} {c : Channel} (h : r.row.count = 32) (hc : C n.val c.val) : RegOk C r (chIx n c) := by
  have h1 : (n.val * 32 + c.val) / 32 = n.val := by omega
  have h2 : (n.val * 32 + c.val) % 32 = c.val := by omega
  intro _
  simp only [chIx, h, h1, h2]
  exact ⟨fun _ => hc, _, hc⟩

theorem RegOk.clu {r : Reg} {n i : Nat} (h : i / r.row.count = n) (hc : ∀ c, C n c) : RegOk C r i := by
  intro _
  refine ⟨fun h' => ?_, 0, ?_⟩
  · rw [h'] at h; rw [h]; exact hc _
  · rw [h]; exact hc _

theorem RegOk.one {r : Reg} {n : Nat} (h : r.row.count = 1) (hc : ∃ c, C n c) : RegOk C r n := by
  intro _; simpa [h] using hc

theorem RegOk.awg {r : Reg} {n : Cluster} {g : Fin 2} (h : r.row.count = 2) (hc : ∃ c, C n.val c) : RegOk C r (awgIx n g) := by
  have h1 : (2 * n.val + g.val) / 2 = n.val := by omega
  intro _; simpa [h, awgIx, h1] using hc

theorem RegOk.trg {r : Reg} {n : Cluster} {u : Nat} (h : r.row.count = 8) (hc : ∃ c, C n.val c) : RegOk C r (trgIx n u) := by
  intro _
  have h1 : (trgIx n u) / 8 = n.val := by unfold trgIx; omega
  simpa [h, h1] using hc

theorem setReg_upd {r : Reg} {i : Nat} {v : Word} (h : Upd K R C s0 s) (hr : R.testBit r.ctorIdx = true) (hc : RegOk C r i) :
    Upd K R C s0 (s.setReg r i v) := by
  refine h.trans ⟨rfl, fun p _ => by cases p <;> rfl, fun r' i' hr' => ?_, ⟨fun _ _ _ _ => rfl, ?_, ?_, fun k _ => ?_⟩,
    fun hi => { hi with regs := tabSet_wf (porOfKey_key r i) hi.regs }⟩
  · have : r' ≠ r := fun e => by simp [e, hr] at hr'
    simp [State.reg_setReg, this]
  · intro r' n c h1 h2 h3 h4
    rw [State.reg_setReg, if_neg]
    rintro ⟨rfl, rfl⟩
    have := (hc h1).1 h2
    have e1 : (n * 32 + c) / 32 = n := by omega
    have e2 : (n * 32 + c) % 32 = c := by omega
    rw [e1, e2] at this; exact h4 this
  · intro r' i' h1 h2
    rw [State.reg_setReg, if_neg]
    rintro ⟨rfl, rfl⟩
    obtain ⟨c, hc'⟩ := (hc h1).2
    exact h2 c hc'
  · exact { SameCluster.refl k s with }

/-! ### One update of each field -/

theorem Upd.clasp {v} (h : Upd K R C s0 s) (hk : K.testBit (Part.ctorIdx .clasp) = true) :
    Upd K R C s0 { s with clasp := v } :=
  h.trans ⟨rfl, fun p hp => by cases p <;> first | rfl | exact (by simp [hk] at hp), fun _ _ _ => rfl, Within.same _ rfl, fun hi => { hi with }⟩

theorem Upd.mem {v : List Host.Cell} (h : Upd K R C s0 s) (hk : K.testBit (Part.ctorIdx .mem) = true) (hi : tabWf (fun _ => 0#8) s.mem = true → tabWf (fun _ => 0#8) v = true) :
    Upd K R C s0 { s with mem := v } :=
  h.trans ⟨rfl, fun p hp => by cases p <;> first | rfl | exact (by simp [hk] at hp), fun _ _ _ => rfl, Within.same _ rfl, fun x => { x with mem := hi x.mem }⟩

theorem Upd.libMicro {v} (h : Upd K R C s0 s) (hk : K.testBit (Part.ctorIdx .libMicro) = true) (hi : tabWf (fun _ => 0#32) s.libMicro = true → tabWf (fun _ => 0#32) v = true) :
    Upd K R C s0 { s with libMicro := v } :=
  h.trans ⟨rfl, fun p hp => by cases p <;> first | rfl | exact (by simp [hk] at hp), fun _ _ _ => rfl, Within.same _ rfl, fun x => { x with libMicro := hi x.libMicro }⟩

theorem Upd.libNano {v} (h : Upd K R C s0 s) (hk : K.testBit (Part.ctorIdx .libNano) = true) (hi : tabWf (fun _ => 0#256) s.libNano = true → tabWf (fun _ => 0#256) v = true) :
    Upd K R C s0 { s with libNano := v } :=
  h.trans ⟨rfl, fun p hp => by cases p <;> first | rfl | exact (by simp [hk] at hp), fun _ _ _ => rfl, Within.same _ rfl, fun x => { x with libNano := hi x.libNano }⟩

theorem Upd.slcShadow {v} (h : Upd K R C s0 s) (hk : K.testBit (Part.ctorIdx .slcShadow) = true) (hi : tabWf (fun _ => 0) s.slcShadow = true → tabWf (fun _ => 0) v = true) :
    Upd K R C s0 { s with slcShadow := v } :=
  h.trans ⟨rfl, fun p hp => by cases p <;> first | rfl | exact (by simp [hk] at hp), fun _ _ _ => rfl, Within.same _ rfl, fun x => { x with slcShadow := hi x.slcShadow }⟩

theorem Upd.slcActive {v} (h : Upd K R C s0 s) (hk : K.testBit (Part.ctorIdx .slcActive) = true) (hi : tabWf (fun _ => 0) s.slcActive = true → tabWf (fun _ => 0) v = true) :
    Upd K R C s0 { s with slcActive := v } :=
  h.trans ⟨rfl, fun p hp => by cases p <;> first | rfl | exact (by simp [hk] at hp), fun _ _ _ => rfl, Within.same _ rfl, fun x => { x with slcActive := hi x.slcActive }⟩

theorem Upd.slcAt {v} (h : Upd K R C s0 s) (hk : K.testBit (Part.ctorIdx .slcAt) = true) :
    Upd K R C s0 { s with slcAt := v } :=
  h.trans ⟨rfl, fun p hp => by cases p <;> first | rfl | exact (by simp [hk] at hp), fun _ _ _ => rfl, Within.same _ rfl, fun hi => { hi with }⟩

theorem Upd.slcFrame {v} (h : Upd K R C s0 s) (hk : K.testBit (Part.ctorIdx .slcFrame) = true) :
    Upd K R C s0 { s with slcFrame := v } :=
  h.trans ⟨rfl, fun p hp => by cases p <;> first | rfl | exact (by simp [hk] at hp), fun _ _ _ => rfl, Within.same _ rfl, fun hi => { hi with }⟩

theorem Upd.slcCnt {v} (h : Upd K R C s0 s) (hk : K.testBit (Part.ctorIdx .slcCnt) = true) (hi : tabWf (fun _ => 0) s.slcCnt = true → tabWf (fun _ => 0) v = true) :
    Upd K R C s0 { s with slcCnt := v } :=
  h.trans ⟨rfl, fun p hp => by cases p <;> first | rfl | exact (by simp [hk] at hp), fun _ _ _ => rfl, Within.same _ rfl, fun x => { x with slcCnt := hi x.slcCnt }⟩

theorem Upd.lotTkt {v} (h : Upd K R C s0 s) (hk : K.testBit (Part.ctorIdx .lotTkt) = true) :
    Upd K R C s0 { s with lotTkt := v } :=
  h.trans ⟨rfl, fun p hp => by cases p <;> first | rfl | exact (by simp [hk] at hp), fun _ _ _ => rfl, Within.same _ rfl, fun hi => { hi with }⟩

theorem Upd.lotPend {v} (h : Upd K R C s0 s) (hk : K.testBit (Part.ctorIdx .lotPend) = true) :
    Upd K R C s0 { s with lotPend := v } :=
  h.trans ⟨rfl, fun p hp => by cases p <;> first | rfl | exact (by simp [hk] at hp), fun _ _ _ => rfl, Within.same _ rfl, fun hi => { hi with }⟩

theorem Upd.lfsrAt {v} (h : Upd K R C s0 s) (hk : K.testBit (Part.ctorIdx .lfsrAt) = true) :
    Upd K R C s0 { s with lfsrAt := v } :=
  h.trans ⟨rfl, fun p hp => by cases p <;> first | rfl | exact (by simp [hk] at hp), fun _ _ _ => rfl, Within.same _ rfl, fun hi => { hi with }⟩

theorem Upd.present {v} (h : Upd K R C s0 s) (hk : K.testBit (Part.ctorIdx .present) = true) (hi : tabRising 0 s.present = true → tabRising 0 v = true) :
    Upd K R C s0 { s with present := v } :=
  h.trans ⟨rfl, fun p hp => by cases p <;> first | rfl | exact (by simp [hk] at hp), fun _ _ _ => rfl, Within.same _ rfl, fun x => { x with present := hi x.present }⟩

theorem Upd.waiting {v} (h : Upd K R C s0 s) (hk : K.testBit (Part.ctorIdx .waiting) = true) :
    Upd K R C s0 { s with waiting := v } :=
  h.trans ⟨rfl, fun p hp => by cases p <;> first | rfl | exact (by simp [hk] at hp), fun _ _ _ => rfl, Within.same _ rfl, fun hi => { hi with }⟩

theorem Upd.grants {v} (h : Upd K R C s0 s) (hk : K.testBit (Part.ctorIdx .grants) = true) (hi : tabWf (fun _ => 0) s.grants = true → tabWf (fun _ => 0) v = true) :
    Upd K R C s0 { s with grants := v } :=
  h.trans ⟨rfl, fun p hp => by cases p <;> first | rfl | exact (by simp [hk] at hp), fun _ _ _ => rfl, Within.same _ rfl, fun x => { x with grants := hi x.grants }⟩

theorem Upd.atoms {v} (h : Upd K R C s0 s) (hk : K.testBit (Part.ctorIdx .atoms) = true) (hi : tabWf (fun _ => (0, 0)) s.atoms = true → tabWf (fun _ => (0, 0)) v = true) :
    Upd K R C s0 { s with atoms := v } :=
  h.trans ⟨rfl, fun p hp => by cases p <;> first | rfl | exact (by simp [hk] at hp), fun _ _ _ => rfl, Within.same _ rfl, fun x => { x with atoms := hi x.atoms }⟩

theorem Upd.cap {v} (h : Upd K R C s0 s) (hk : K.testBit (Part.ctorIdx .cap) = true) :
    Upd K R C s0 { s with cap := v } :=
  h.trans ⟨rfl, fun p hp => by cases p <;> first | rfl | exact (by simp [hk] at hp), fun _ _ _ => rfl, Within.same _ rfl, fun hi => { hi with }⟩

theorem Upd.sems {v : List (Nat × SemSt)} (h : Upd K R C s0 s) (hk : K.testBit (Part.ctorIdx .sems) = true) (hi : tabWf (fun _ => { }) s.sems = true → tabWf (fun _ => { }) v = true) :
    Upd K R C s0 { s with sems := v } :=
  h.trans ⟨rfl, fun p hp => by cases p <;> first | rfl | exact (by simp [hk] at hp), fun _ _ _ => rfl, Within.same _ rfl, fun x => { x with sems := hi x.sems }⟩

theorem Upd.txns {v : List (Nat × Txn)} (h : Upd K R C s0 s) (hk : K.testBit (Part.ctorIdx .txns) = true) (hi : tabWf (fun _ => { }) s.txns = true → tabWf (fun _ => { }) v = true) :
    Upd K R C s0 { s with txns := v } :=
  h.trans ⟨rfl, fun p hp => by cases p <;> first | rfl | exact (by simp [hk] at hp), fun _ _ _ => rfl, Within.same _ rfl, fun x => { x with txns := hi x.txns }⟩

theorem Upd.msix {v} (h : Upd K R C s0 s) (hk : K.testBit (Part.ctorIdx .msix) = true) (hi : tabWf (msixDef) s.msix = true → tabWf (msixDef) v = true) :
    Upd K R C s0 { s with msix := v } :=
  h.trans ⟨rfl, fun p hp => by cases p <;> first | rfl | exact (by simp [hk] at hp), fun _ _ _ => rfl, Within.same _ rfl, fun x => { x with msix := hi x.msix }⟩

theorem Upd.pba {v} (h : Upd K R C s0 s) (hk : K.testBit (Part.ctorIdx .pba) = true) (hi : tabWf (fun _ => 0#32) s.pba = true → tabWf (fun _ => 0#32) v = true) :
    Upd K R C s0 { s with pba := v } :=
  h.trans ⟨rfl, fun p hp => by cases p <;> first | rfl | exact (by simp [hk] at hp), fun _ _ _ => rfl, Within.same _ rfl, fun x => { x with pba := hi x.pba }⟩

theorem Upd.hiLatch {v} (h : Upd K R C s0 s) (hk : K.testBit (Part.ctorIdx .hiLatch) = true) (hi : tabWf (fun _ => none) s.hiLatch = true → tabWf (fun _ => none) v = true) :
    Upd K R C s0 { s with hiLatch := v } :=
  h.trans ⟨rfl, fun p hp => by cases p <;> first | rfl | exact (by simp [hk] at hp), fun _ _ _ => rfl, Within.same _ rfl, fun x => { x with hiLatch := hi x.hiLatch }⟩

theorem Upd.ring {v} (h : Upd K R C s0 s) (hk : K.testBit (Part.ctorIdx .ring) = true) :
    Upd K R C s0 { s with ring := v } :=
  h.trans ⟨rfl, fun p hp => by cases p <;> first | rfl | exact (by simp [hk] at hp), fun _ _ _ => rfl, Within.same _ rfl, fun hi => { hi with }⟩

theorem Upd.pwr {v} (h : Upd K R C s0 s) (hk : K.testBit (Part.ctorIdx .pwr) = true) :
    Upd K R C s0 { s with pwr := v } :=
  h.trans ⟨rfl, fun p hp => by cases p <;> first | rfl | exact (by simp [hk] at hp), fun _ _ _ => rfl, Within.same _ rfl, fun hi => { hi with }⟩

theorem Upd.boot {v} (h : Upd K R C s0 s) (hk : K.testBit (Part.ctorIdx .boot) = true) :
    Upd K R C s0 { s with boot := v } :=
  h.trans ⟨rfl, fun p hp => by cases p <;> first | rfl | exact (by simp [hk] at hp), fun _ _ _ => rfl, Within.same _ rfl, fun hi => { hi with }⟩

theorem Upd.msp {v} (h : Upd K R C s0 s) (hk : K.testBit (Part.ctorIdx .msp) = true) :
    Upd K R C s0 { s with msp := v } :=
  h.trans ⟨rfl, fun p hp => by cases p <;> first | rfl | exact (by simp [hk] at hp), fun _ _ _ => rfl, Within.same _ rfl, fun hi => { hi with }⟩

theorem Upd.tap {v} (h : Upd K R C s0 s) (hk : K.testBit (Part.ctorIdx .tap) = true) :
    Upd K R C s0 { s with tap := v } :=
  h.trans ⟨rfl, fun p hp => by cases p <;> first | rfl | exact (by simp [hk] at hp), fun _ _ _ => rfl, Within.same _ rfl, fun hi => { hi with }⟩

theorem Upd.boundary {v} (h : Upd K R C s0 s) (hk : K.testBit (Part.ctorIdx .boundary) = true) :
    Upd K R C s0 { s with boundary := v } :=
  h.trans ⟨rfl, fun p hp => by cases p <;> first | rfl | exact (by simp [hk] at hp), fun _ _ _ => rfl, Within.same _ rfl, fun hi => { hi with }⟩

theorem Upd.hist {v} (h : Upd K R C s0 s) (hk : K.testBit (Part.ctorIdx .hist) = true) (hi : tabWf (fun _ => []) s.hist = true → tabWf (fun _ => []) v = true) :
    Upd K R C s0 { s with hist := v } :=
  h.trans ⟨rfl, fun p hp => by cases p <;> first | rfl | exact (by simp [hk] at hp), fun _ _ _ => rfl, Within.same _ rfl, fun x => { x with hist := hi x.hist }⟩

theorem Upd.ramps {v} (h : Upd K R C s0 s) (hk : K.testBit (Part.ctorIdx .ramps) = true) (hi : tabRising 0 s.ramps = true → tabRising 0 v = true) :
    Upd K R C s0 { s with ramps := v } :=
  h.trans ⟨rfl, fun p hp => by cases p <;> first | rfl | exact (by simp [hk] at hp), fun _ _ _ => rfl, Within.same _ rfl, fun x => { x with ramps := hi x.ramps }⟩

theorem Upd.refDue {v} (h : Upd K R C s0 s) (hk : K.testBit (Part.ctorIdx .refDue) = true) :
    Upd K R C s0 { s with refDue := v } :=
  h.trans ⟨rfl, fun p hp => by cases p <;> first | rfl | exact (by simp [hk] at hp), fun _ _ _ => rfl, Within.same _ rfl, fun hi => { hi with }⟩

theorem Upd.refLast {v} (h : Upd K R C s0 s) (hk : K.testBit (Part.ctorIdx .refLast) = true) :
    Upd K R C s0 { s with refLast := v } :=
  h.trans ⟨rfl, fun p hp => by cases p <;> first | rfl | exact (by simp [hk] at hp), fun _ _ _ => rfl, Within.same _ rfl, fun hi => { hi with }⟩

theorem Upd.window {v} (h : Upd K R C s0 s) (hk : K.testBit (Part.ctorIdx .window) = true) :
    Upd K R C s0 { s with window := v } :=
  h.trans ⟨rfl, fun p hp => by cases p <;> first | rfl | exact (by simp [hk] at hp), fun _ _ _ => rfl, Within.same _ rfl, fun hi => { hi with }⟩

theorem Upd.faults {v : List (Nat × FltSrc)} (h : Upd K R C s0 s) (hk : K.testBit (Part.ctorIdx .faults) = true) (hi : tabWf (fun _ => { }) s.faults = true → tabWf (fun _ => { }) v = true) :
    Upd K R C s0 { s with faults := v } :=
  h.trans ⟨rfl, fun p hp => by cases p <;> first | rfl | exact (by simp [hk] at hp), fun _ _ _ => rfl, Within.same _ rfl, fun x => { x with faults := hi x.faults }⟩

theorem Upd.assay {v} (h : Upd K R C s0 s) (hk : K.testBit (Part.ctorIdx .assay) = true) (hi : tabRising 0 s.assay = true → tabRising 0 v = true) :
    Upd K R C s0 { s with assay := v } :=
  h.trans ⟨rfl, fun p hp => by cases p <;> first | rfl | exact (by simp [hk] at hp), fun _ _ _ => rfl, Within.same _ rfl, fun x => { x with assay := hi x.assay }⟩

theorem Upd.life {v} (h : Upd K R C s0 s) (hk : K.testBit (Part.ctorIdx .life) = true) (hi : tabWf (fun _ => 0) s.life = true → tabWf (fun _ => 0) v = true) :
    Upd K R C s0 { s with life := v } :=
  h.trans ⟨rfl, fun p hp => by cases p <;> first | rfl | exact (by simp [hk] at hp), fun _ _ _ => rfl, Within.same _ rfl, fun x => { x with life := hi x.life }⟩

theorem Upd.lifeHdr {v} (h : Upd K R C s0 s) (hk : K.testBit (Part.ctorIdx .lifeHdr) = true) :
    Upd K R C s0 { s with lifeHdr := v } :=
  h.trans ⟨rfl, fun p hp => by cases p <;> first | rfl | exact (by simp [hk] at hp), fun _ _ _ => rfl, Within.same _ rfl, fun hi => { hi with }⟩

theorem Upd.lifeSlot {v} (h : Upd K R C s0 s) (hk : K.testBit (Part.ctorIdx .lifeSlot) = true) :
    Upd K R C s0 { s with lifeSlot := v } :=
  h.trans ⟨rfl, fun p hp => by cases p <;> first | rfl | exact (by simp [hk] at hp), fun _ _ _ => rfl, Within.same _ rfl, fun hi => { hi with }⟩

theorem Upd.lifeMin {v} (h : Upd K R C s0 s) (hk : K.testBit (Part.ctorIdx .lifeMin) = true) :
    Upd K R C s0 { s with lifeMin := v } :=
  h.trans ⟨rfl, fun p hp => by cases p <;> first | rfl | exact (by simp [hk] at hp), fun _ _ _ => rfl, Within.same _ rfl, fun hi => { hi with }⟩

theorem Upd.replaceWait {v} (h : Upd K R C s0 s) (hk : K.testBit (Part.ctorIdx .replaceWait) = true) :
    Upd K R C s0 { s with replaceWait := v } :=
  h.trans ⟨rfl, fun p hp => by cases p <;> first | rfl | exact (by simp [hk] at hp), fun _ _ _ => rfl, Within.same _ rfl, fun hi => { hi with }⟩

theorem Upd.patch {v} (h : Upd K R C s0 s) (hk : K.testBit (Part.ctorIdx .patch) = true) :
    Upd K R C s0 { s with patch := v } :=
  h.trans ⟨rfl, fun p hp => by cases p <;> first | rfl | exact (by simp [hk] at hp), fun _ _ _ => rfl, Within.same _ rfl, fun hi => { hi with }⟩

theorem Upd.wakes {v} (h : Upd K R C s0 s) (hk : K.testBit (Part.ctorIdx .wakes) = true) :
    Upd K R C s0 { s with wakes := v } :=
  h.trans ⟨rfl, fun p hp => by cases p <;> first | rfl | exact (by simp [hk] at hp), fun _ _ _ => rfl, Within.same _ rfl, fun hi => { hi with }⟩

theorem Upd.owed {v} (h : Upd K R C s0 s) (hk : K.testBit (Part.ctorIdx .owed) = true) :
    Upd K R C s0 { s with owed := v } :=
  h.trans ⟨rfl, fun p hp => by cases p <;> first | rfl | exact (by simp [hk] at hp), fun _ _ _ => rfl, Within.same _ rfl, fun hi => { hi with }⟩

theorem Upd.msgs {v} (h : Upd K R C s0 s) (hk : K.testBit (Part.ctorIdx .msgs) = true) :
    Upd K R C s0 { s with msgs := v } :=
  h.trans ⟨rfl, fun p hp => by cases p <;> first | rfl | exact (by simp [hk] at hp), fun _ _ _ => rfl, Within.same _ rfl, fun hi => { hi with }⟩

theorem Upd.free {v} (h : Upd K R C s0 s) (hk : K.testBit (Part.ctorIdx .free) = true) :
    Upd K R C s0 { s with free := v } :=
  h.trans ⟨rfl, fun p hp => by cases p <;> first | rfl | exact (by simp [hk] at hp), fun _ _ _ => rfl, Within.same _ rfl, fun hi => { hi with }⟩

theorem Upd.out {v} (h : Upd K R C s0 s) (hk : K.testBit (Part.ctorIdx .out) = true) :
    Upd K R C s0 { s with out := v } :=
  h.trans ⟨rfl, fun p hp => by cases p <;> first | rfl | exact (by simp [hk] at hp), fun _ _ _ => rfl, Within.same _ rfl, fun hi => { hi with }⟩


/-! ### The lists held by cluster -/

theorem Upd.clus {s' : State} (h : Upd K R C s0 s) (hp : s'.pending = s.pending)
    (hk : ∀ p : Part, K.testBit p.ctorIdx = false → p.same s s') (hr : s'.regs = s.regs)
    (hch : ∀ n c, c < 32 → ¬ C n c → tabGet { } s'.chans (n * 32 + c) = tabGet { } s.chans (n * 32 + c))
    (hc : ∀ k, (∀ c, ¬ C k c) → SameCluster k s s') (hi : Inv s → Inv s') : Upd K R C s0 s' :=
  h.trans ⟨hp, hk, fun r i _ => by simp [State.reg, hr], ⟨hch, fun r n c _ _ _ _ => by simp [State.reg, hr],
    fun r i _ _ => by simp [State.reg, hr], hc⟩, hi⟩

theorem setChan_upd {n : Cluster} {c : Channel} {v : Chan} (h : Upd K R C s0 s) (hk : K.testBit (Part.ctorIdx .chans) = true)
    (hc : C n.val c.val) : Upd K R C s0 (s.setChan n c v) := by
  refine h.clus rfl (fun p hp => by cases p <;> first | rfl | exact (by simp [hk] at hp)) rfl (fun n' c' h1 h2 => ?_)
    (fun k _ => { SameCluster.refl k s with }) fun hi => { hi with chans := tabSet_wf rfl hi.chans }
  refine tabGet_tabSet_ne _ _ _ _ fun e => h2 ?_
  have e1 : n' = n.val := by unfold chIx at e; omega
  have e2 : c' = c.val := by unfold chIx at e; omega
  rw [e1, e2]; exact hc

theorem clu_of_awgIx {n : Cluster} {g : Fin 2} {e k : Nat} (he : e / 2 = k) (x : e = awgIx n g) : n.val = k := by
  unfold awgIx at x; omega

theorem Upd.seqsAny {v : List (Nat × (Seq))} (h : Upd K R C s0 s) (hk : K.testBit (Part.ctorIdx .seqs) = true)
    (hv : ∀ k, (∀ c, ¬ C (k) c) → tabGet { } v k = tabGet { } s.seqs k)
    (hi : tabWf (fun _ => { }) s.seqs = true → tabWf (fun _ => { }) v = true) : Upd K R C s0 { s with seqs := v } :=
  h.clus rfl (fun p hp => by cases p <;> first | rfl | exact (by simp [hk] at hp)) rfl (fun _ _ _ _ => rfl)
    (fun k hk' => { SameCluster.refl k s with seqs := hv k hk' }) fun x => { x with seqs := hi x.seqs }

theorem Upd.seqs {n : Cluster} {v : Seq} (h : Upd K R C s0 s) (hk : K.testBit (Part.ctorIdx .seqs) = true)
    (hc : ∃ c, C n.val c) : Upd K R C s0 { s with seqs := tabSet { } s.seqs n.val v } :=
  h.seqsAny hk (fun k hk' => tabGet_tabSet_ne _ _ _ _ fun e => hc.elim fun c hc => hk' c (e ▸ hc)) (tabSet_wf rfl)

theorem Upd.hopsAny {v : List (Nat × (Hop))} (h : Upd K R C s0 s) (hk : K.testBit (Part.ctorIdx .hops) = true)
    (hv : ∀ k, (∀ c, ¬ C (k) c) → tabGet { } v k = tabGet { } s.hops k)
    (hi : tabWf (fun _ => { }) s.hops = true → tabWf (fun _ => { }) v = true) : Upd K R C s0 { s with hops := v } :=
  h.clus rfl (fun p hp => by cases p <;> first | rfl | exact (by simp [hk] at hp)) rfl (fun _ _ _ _ => rfl)
    (fun k hk' => { SameCluster.refl k s with hops := hv k hk' }) fun x => { x with hops := hi x.hops }

theorem Upd.hops {n : Cluster} {v : Hop} (h : Upd K R C s0 s) (hk : K.testBit (Part.ctorIdx .hops) = true)
    (hc : ∃ c, C n.val c) : Upd K R C s0 { s with hops := tabSet { } s.hops n.val v } :=
  h.hopsAny hk (fun k hk' => tabGet_tabSet_ne _ _ _ _ fun e => hc.elim fun c hc => hk' c (e ▸ hc)) (tabSet_wf rfl)

theorem Upd.trigsAny {v : List (Nat × (Trig))} (h : Upd K R C s0 s) (hk : K.testBit (Part.ctorIdx .trigs) = true)
    (hv : ∀ k, (∀ c, ¬ C (k) c) → tabGet { } v k = tabGet { } s.trigs k)
    (hi : tabWf (fun _ => { }) s.trigs = true → tabWf (fun _ => { }) v = true) : Upd K R C s0 { s with trigs := v } :=
  h.clus rfl (fun p hp => by cases p <;> first | rfl | exact (by simp [hk] at hp)) rfl (fun _ _ _ _ => rfl)
    (fun k hk' => { SameCluster.refl k s with trigs := hv k hk' }) fun x => { x with trigs := hi x.trigs }

theorem Upd.trigs {n : Cluster} {v : Trig} (h : Upd K R C s0 s) (hk : K.testBit (Part.ctorIdx .trigs) = true)
    (hc : ∃ c, C n.val c) : Upd K R C s0 { s with trigs := tabSet { } s.trigs n.val v } :=
  h.trigsAny hk (fun k hk' => tabGet_tabSet_ne _ _ _ _ fun e => hc.elim fun c hc => hk' c (e ▸ hc)) (tabSet_wf rfl)

theorem Upd.stampsAny {v : List (Nat × (List StampRec))} (h : Upd K R C s0 s) (hk : K.testBit (Part.ctorIdx .stamps) = true)
    (hv : ∀ k, (∀ c, ¬ C (k) c) → tabGet [] v k = tabGet [] s.stamps k)
    (hi : tabWf (fun _ => []) s.stamps = true → tabWf (fun _ => []) v = true) : Upd K R C s0 { s with stamps := v } :=
  h.clus rfl (fun p hp => by cases p <;> first | rfl | exact (by simp [hk] at hp)) rfl (fun _ _ _ _ => rfl)
    (fun k hk' => { SameCluster.refl k s with stamps := hv k hk' }) fun x => { x with stamps := hi x.stamps }

theorem Upd.stamps {n : Cluster} {v : List StampRec} (h : Upd K R C s0 s) (hk : K.testBit (Part.ctorIdx .stamps) = true)
    (hc : ∃ c, C n.val c) : Upd K R C s0 { s with stamps := tabSet [] s.stamps n.val v } :=
  h.stampsAny hk (fun k hk' => tabGet_tabSet_ne _ _ _ _ fun e => hc.elim fun c hc => hk' c (e ▸ hc)) (tabSet_wf rfl)

theorem Upd.bandsAny {v : List (Nat × (Option Nat × Nat))} (h : Upd K R C s0 s) (hk : K.testBit (Part.ctorIdx .bands) = true)
    (hv : ∀ k, (∀ c, ¬ C (k) c) → tabGet (none, 0) v k = tabGet (none, 0) s.bands k)
    (hi : tabWf (fun _ => (none, 0)) s.bands = true → tabWf (fun _ => (none, 0)) v = true) : Upd K R C s0 { s with bands := v } :=
  h.clus rfl (fun p hp => by cases p <;> first | rfl | exact (by simp [hk] at hp)) rfl (fun _ _ _ _ => rfl)
    (fun k hk' => { SameCluster.refl k s with bands := hv k hk' }) fun x => { x with bands := hi x.bands }

theorem Upd.bands {n : Cluster} {v : Option Nat × Nat} (h : Upd K R C s0 s) (hk : K.testBit (Part.ctorIdx .bands) = true)
    (hc : ∃ c, C n.val c) : Upd K R C s0 { s with bands := tabSet (none, 0) s.bands n.val v } :=
  h.bandsAny hk (fun k hk' => tabGet_tabSet_ne _ _ _ _ fun e => hc.elim fun c hc => hk' c (e ▸ hc)) (tabSet_wf rfl)

theorem Upd.blankAtAny {v : List (Nat × (Nat × Nat))} (h : Upd K R C s0 s) (hk : K.testBit (Part.ctorIdx .blankAt) = true)
    (hv : ∀ k, (∀ c, ¬ C (k) c) → tabGet (0, 0) v k = tabGet (0, 0) s.blankAt k)
    (hi : tabWf (fun _ => (0, 0)) s.blankAt = true → tabWf (fun _ => (0, 0)) v = true) : Upd K R C s0 { s with blankAt := v } :=
  h.clus rfl (fun p hp => by cases p <;> first | rfl | exact (by simp [hk] at hp)) rfl (fun _ _ _ _ => rfl)
    (fun k hk' => { SameCluster.refl k s with blankAt := hv k hk' }) fun x => { x with blankAt := hi x.blankAt }

theorem Upd.blankAt {n : Cluster} {v : Nat × Nat} (h : Upd K R C s0 s) (hk : K.testBit (Part.ctorIdx .blankAt) = true)
    (hc : ∃ c, C n.val c) : Upd K R C s0 { s with blankAt := tabSet (0, 0) s.blankAt n.val v } :=
  h.blankAtAny hk (fun k hk' => tabGet_tabSet_ne _ _ _ _ fun e => hc.elim fun c hc => hk' c (e ▸ hc)) (tabSet_wf rfl)

theorem Upd.govAny {v : List (Nat × (Gov))} (h : Upd K R C s0 s) (hk : K.testBit (Part.ctorIdx .gov) = true)
    (hv : ∀ k, (∀ c, ¬ C (k) c) → tabGet { } v k = tabGet { } s.gov k)
    (hi : tabWf (fun _ => { }) s.gov = true → tabWf (fun _ => { }) v = true) : Upd K R C s0 { s with gov := v } :=
  h.clus rfl (fun p hp => by cases p <;> first | rfl | exact (by simp [hk] at hp)) rfl (fun _ _ _ _ => rfl)
    (fun k hk' => { SameCluster.refl k s with gov := hv k hk' }) fun x => { x with gov := hi x.gov }

theorem Upd.gov {n : Cluster} {v : Gov} (h : Upd K R C s0 s) (hk : K.testBit (Part.ctorIdx .gov) = true)
    (hc : ∃ c, C n.val c) : Upd K R C s0 { s with gov := tabSet { } s.gov n.val v } :=
  h.govAny hk (fun k hk' => tabGet_tabSet_ne _ _ _ _ fun e => hc.elim fun c hc => hk' c (e ▸ hc)) (tabSet_wf rfl)

theorem Upd.calAny {v : List (Nat × (CalSt))} (h : Upd K R C s0 s) (hk : K.testBit (Part.ctorIdx .cal) = true)
    (hv : ∀ k, (∀ c, ¬ C (k) c) → tabGet { } v k = tabGet { } s.cal k)
    (hi : tabWf (fun _ => { }) s.cal = true → tabWf (fun _ => { }) v = true) : Upd K R C s0 { s with cal := v } :=
  h.clus rfl (fun p hp => by cases p <;> first | rfl | exact (by simp [hk] at hp)) rfl (fun _ _ _ _ => rfl)
    (fun k hk' => { SameCluster.refl k s with cal := hv k hk' }) fun x => { x with cal := hi x.cal }

theorem Upd.cal {n : Cluster} {v : CalSt} (h : Upd K R C s0 s) (hk : K.testBit (Part.ctorIdx .cal) = true)
    (hc : ∃ c, C n.val c) : Upd K R C s0 { s with cal := tabSet { } s.cal n.val v } :=
  h.calAny hk (fun k hk' => tabGet_tabSet_ne _ _ _ _ fun e => hc.elim fun c hc => hk' c (e ▸ hc)) (tabSet_wf rfl)

theorem Upd.cptsAny {v : List (Nat × (Cpt))} (h : Upd K R C s0 s) (hk : K.testBit (Part.ctorIdx .cpts) = true)
    (hv : ∀ k, (∀ c, ¬ C (k / 2) c) → tabGet { } v k = tabGet { } s.cpts k)
    (hi : tabWf (fun _ => { }) s.cpts = true → tabWf (fun _ => { }) v = true) : Upd K R C s0 { s with cpts := v } :=
  h.clus rfl (fun p hp => by cases p <;> first | rfl | exact (by simp [hk] at hp)) rfl (fun _ _ _ _ => rfl)
    (fun k hk' => { SameCluster.refl k s with cpts := fun e he => hv e (he ▸ hk') }) fun x => { x with cpts := hi x.cpts }

theorem Upd.cpts {n : Cluster} {g : Fin 2} {v : Cpt} (h : Upd K R C s0 s)
    (hk : K.testBit (Part.ctorIdx .cpts) = true) (hc : ∃ c, C n.val c) : Upd K R C s0 { s with cpts := tabSet { } s.cpts (awgIx n g) v } :=
  h.cptsAny hk (fun k hk' => tabGet_tabSet_ne _ _ _ _ fun e => hc.elim fun c hc => hk' c (clu_of_awgIx rfl e ▸ hc)) (tabSet_wf rfl)

theorem Upd.awgsAny {v : List (Nat × (Awg))} (h : Upd K R C s0 s) (hk : K.testBit (Part.ctorIdx .awgs) = true)
    (hv : ∀ k, (∀ c, ¬ C (k / 2) c) → tabGet { } v k = tabGet { } s.awgs k)
    (hi : tabWf (fun _ => { }) s.awgs = true → tabWf (fun _ => { }) v = true) : Upd K R C s0 { s with awgs := v } :=
  h.clus rfl (fun p hp => by cases p <;> first | rfl | exact (by simp [hk] at hp)) rfl (fun _ _ _ _ => rfl)
    (fun k hk' => { SameCluster.refl k s with awgs := fun e he => hv e (he ▸ hk') }) fun x => { x with awgs := hi x.awgs }

theorem Upd.awgs {n : Cluster} {g : Fin 2} {v : Awg} (h : Upd K R C s0 s)
    (hk : K.testBit (Part.ctorIdx .awgs) = true) (hc : ∃ c, C n.val c) : Upd K R C s0 { s with awgs := tabSet { } s.awgs (awgIx n g) v } :=
  h.awgsAny hk (fun k hk' => tabGet_tabSet_ne _ _ _ _ fun e => hc.elim fun c hc => hk' c (clu_of_awgIx rfl e ▸ hc)) (tabSet_wf rfl)

theorem Upd.awgTabAny {v : List (Nat × (Word × Word))} (h : Upd K R C s0 s) (hk : K.testBit (Part.ctorIdx .awgTab) = true)
    (hv : ∀ k, (∀ c, ¬ C (k / 2048) c) → tabGet (0#32, 0#32) v k = tabGet (0#32, 0#32) s.awgTab k)
    (hi : tabWf (fun _ => (0#32, 0#32)) s.awgTab = true → tabWf (fun _ => (0#32, 0#32)) v = true) : Upd K R C s0 { s with awgTab := v } :=
  h.clus rfl (fun p hp => by cases p <;> first | rfl | exact (by simp [hk] at hp)) rfl (fun _ _ _ _ => rfl)
    (fun k hk' => { SameCluster.refl k s with awgTab := fun e he => hv e (he ▸ hk') }) fun x => { x with awgTab := hi x.awgTab }

theorem Upd.awgTab {n k : Nat} {v : Word × Word} (h : Upd K R C s0 s) (hk : K.testBit (Part.ctorIdx .awgTab) = true)
    (hn : k / 2048 = n) (hc : ∃ c, C n c) : Upd K R C s0 { s with awgTab := tabSet (0#32, 0#32) s.awgTab k v } :=
  h.awgTabAny hk (fun e hk' => tabGet_tabSet_ne _ _ _ _ fun x => hc.elim fun c hc => hk' c (by rw [x, hn]; exact hc)) (tabSet_wf rfl)

theorem Upd.microAny {v : List (Nat × (MWord))} (h : Upd K R C s0 s) (hk : K.testBit (Part.ctorIdx .micro) = true)
    (hv : ∀ k, (∀ c, ¬ C (k / 65536) c) → tabGet { } v k = tabGet { } s.micro k)
    (hi : tabWf (fun _ => { }) s.micro = true → tabWf (fun _ => { }) v = true) : Upd K R C s0 { s with micro := v } :=
  h.clus rfl (fun p hp => by cases p <;> first | rfl | exact (by simp [hk] at hp)) rfl (fun _ _ _ _ => rfl)
    (fun k hk' => { SameCluster.refl k s with micro := fun e he => hv e (he ▸ hk') }) fun x => { x with micro := hi x.micro }

theorem Upd.micro {n k : Nat} {v : MWord} (h : Upd K R C s0 s) (hk : K.testBit (Part.ctorIdx .micro) = true)
    (hn : k / 65536 = n) (hc : ∃ c, C n c) : Upd K R C s0 { s with micro := tabSet { } s.micro k v } :=
  h.microAny hk (fun e hk' => tabGet_tabSet_ne _ _ _ _ fun x => hc.elim fun c hc => hk' c (by rw [x, hn]; exact hc)) (tabSet_wf rfl)

theorem Upd.nanoAny {v : List (Nat × (NWord))} (h : Upd K R C s0 s) (hk : K.testBit (Part.ctorIdx .nano) = true)
    (hv : ∀ k, (∀ c, ¬ C (k / 4096) c) → tabGet { } v k = tabGet { } s.nano k)
    (hi : tabWf (fun _ => { }) s.nano = true → tabWf (fun _ => { }) v = true) : Upd K R C s0 { s with nano := v } :=
  h.clus rfl (fun p hp => by cases p <;> first | rfl | exact (by simp [hk] at hp)) rfl (fun _ _ _ _ => rfl)
    (fun k hk' => { SameCluster.refl k s with nano := fun e he => hv e (he ▸ hk') }) fun x => { x with nano := hi x.nano }

theorem Upd.nano {n k : Nat} {v : NWord} (h : Upd K R C s0 s) (hk : K.testBit (Part.ctorIdx .nano) = true)
    (hn : k / 4096 = n) (hc : ∃ c, C n c) : Upd K R C s0 { s with nano := tabSet { } s.nano k v } :=
  h.nanoAny hk (fun e hk' => tabGet_tabSet_ne _ _ _ _ fun x => hc.elim fun c hc => hk' c (by rw [x, hn]; exact hc)) (tabSet_wf rfl)

/-! ### Registers reset -/

theorem mergeKeep (x k : Word) : (x &&& k) ||| (x &&& ~~~ k) = x := by
  ext i hi; cases h : x[i] <;> cases h' : k[i] <;> simp [h, h']

theorem reg_resetRegs (s : State) (keep : Reg → Nat → Word) (r : Reg) (i : Nat) :
    tabGet (r.porOf i) (resetRegs keep s.regs) (r.key i) =
      (s.reg r i &&& keep r i) ||| (r.porOf i &&& ~~~ keep r i) := by
  have h1 := r.ctorIdx_lt
  have e1 : r.key i % 512 = r.ctorIdx := by unfold Reg.key; omega
  have e2 : r.key i / 512 = i := by unfold Reg.key; omega
  have := tabGet_tabMap (d := porOfKey)
    (fun k v => (v &&& keep (Reg.ofNat (k % 512)) (k / 512)) ||| (porOfKey k &&& ~~~ keep (Reg.ofNat (k % 512)) (k / 512)))
    s.regs (r.key i) (mergeKeep _ _)
  simpa [resetRegs, State.reg, e1, e2, Reg.ofNat_ctorIdx] using this

theorem Upd.regsAny {v : List (Nat × Word)} (h : Upd K R C s0 s)
    (hr : ∀ (r : Reg) i, R.testBit r.ctorIdx = false → tabGet (r.porOf i) v (r.key i) = s.reg r i)
    (hc : ∀ (r : Reg) i, ¬ RegOk C r i → tabGet (r.porOf i) v (r.key i) = s.reg r i)
    (hi : tabWf porOfKey s.regs = true → tabWf porOfKey v = true) : Upd K R C s0 { s with regs := v } := by
  refine h.trans ⟨rfl, fun p _ => by cases p <;> rfl, hr, ⟨fun _ _ _ _ => rfl, ?_, ?_, fun k _ => { SameCluster.refl k s with }⟩,
    fun x => { x with regs := hi x.regs }⟩
  · intro r n c h1 h2 h3 h4
    refine hc r _ fun ok => h4 ?_
    have e1 : (n * 32 + c) / 32 = n := by omega
    have e2 : (n * 32 + c) % 32 = c := by omega
    have := (ok h1).1 h2
    rwa [e1, e2] at this
  · intro r i h1 h2
    exact hc r i fun ok => (ok h1).2.elim h2

end Sys2Proof.Machine
end

