-- ==== Sys2Proof/Laws/State.lean ====
section
/-! SUPPORT. Sys2Proof/Laws/State.lean: what each accessor of the state reads after each update, and the bits and fields of a
word after one is set. -/

namespace Sys2Proof.Machine

variable {K R : Nat} {C : Nat → Nat → Prop} {s : State}

/-! ### An accessor after an update of something else -/

@[simp] theorem State.reg_setChan (s : State) (r : Reg) (i : Nat) (n1 : Cluster) (c1 : Channel) (v1 : Chan) :
    (s.setChan n1 c1 v1).reg r i = s.reg r i := rfl
@[simp] theorem State.reg_setSeq (s : State) (r : Reg) (i : Nat) (n1 : Cluster) (v1 : Seq) :
    (s.setSeq n1 v1).reg r i = s.reg r i := rfl
@[simp] theorem State.reg_setHop (s : State) (r : Reg) (i : Nat) (n1 : Cluster) (v1 : Hop) :
    (s.setHop n1 v1).reg r i = s.reg r i := rfl
@[simp] theorem State.reg_setStampQ (s : State) (r : Reg) (i : Nat) (n1 : Cluster) (v1 : List StampRec) :
    (s.setStampQ n1 v1).reg r i = s.reg r i := rfl
@[simp] theorem State.reg_setAwg (s : State) (r : Reg) (i : Nat) (n1 : Cluster) (g1 : Fin 2) (v1 : Awg) :
    (s.setAwg n1 g1 v1).reg r i = s.reg r i := rfl
@[simp] theorem State.reg_setTrig (s : State) (r : Reg) (i : Nat) (n1 : Cluster) (v1 : Trig) :
    (s.setTrig n1 v1).reg r i = s.reg r i := rfl
@[simp] theorem State.reg_setCpt (s : State) (r : Reg) (i : Nat) (n1 : Cluster) (e1 : Fin 2) (v1 : Cpt) :
    (s.setCpt n1 e1 v1).reg r i = s.reg r i := rfl
@[simp] theorem State.reg_setByte (s : State) (r : Reg) (i : Nat) (a1 : Nat) (v1 : Byte) :
    (s.setByte a1 v1).reg r i = s.reg r i := rfl
@[simp] theorem State.reg_setMicroAt (s : State) (r : Reg) (i : Nat) (n1 : Cluster) (a1 : Nat) (v1 : MWord) :
    (s.setMicroAt n1 a1 v1).reg r i = s.reg r i := rfl
@[simp] theorem State.reg_setNanoAt (s : State) (r : Reg) (i : Nat) (n1 : Cluster) (i1 : Nat) (v1 : NWord) :
    (s.setNanoAt n1 i1 v1).reg r i = s.reg r i := rfl
@[simp] theorem State.reg_setTxn (s : State) (r : Reg) (i : Nat) (h1 : Nat) (v1 : Txn) :
    (s.setTxn h1 v1).reg r i = s.reg r i := rfl
@[simp] theorem State.reg_setSem (s : State) (r : Reg) (i : Nat) (k1 : Nat) (v1 : SemSt) :
    (s.setSem k1 v1).reg r i = s.reg r i := rfl
@[simp] theorem State.reg_setFlt (s : State) (r : Reg) (i : Nat) (k1 : Nat) (v1 : FltSrc) :
    (s.setFlt k1 v1).reg r i = s.reg r i := rfl
@[simp] theorem State.reg_setCalSt (s : State) (r : Reg) (i : Nat) (n1 : Cluster) (v1 : CalSt) :
    (s.setCalSt n1 v1).reg r i = s.reg r i := rfl
@[simp] theorem State.reg_setGov (s : State) (r : Reg) (i : Nat) (n1 : Cluster) (v1 : Gov) :
    (s.setGov n1 v1).reg r i = s.reg r i := rfl
@[simp] theorem State.chan_setReg (s : State) (n : Cluster) (c : Channel) (r1 : Reg) (i1 : Nat) (v1 : Word) :
    (s.setReg r1 i1 v1).chan n c = s.chan n c := rfl
@[simp] theorem State.chan_setSeq (s : State) (n : Cluster) (c : Channel) (n1 : Cluster) (v1 : Seq) :
    (s.setSeq n1 v1).chan n c = s.chan n c := rfl
@[simp] theorem State.chan_setHop (s : State) (n : Cluster) (c : Channel) (n1 : Cluster) (v1 : Hop) :
    (s.setHop n1 v1).chan n c = s.chan n c := rfl
@[simp] theorem State.chan_setStampQ (s : State) (n : Cluster) (c : Channel) (n1 : Cluster) (v1 : List StampRec) :
    (s.setStampQ n1 v1).chan n c = s.chan n c := rfl
@[simp] theorem State.chan_setAwg (s : State) (n : Cluster) (c : Channel) (n1 : Cluster) (g1 : Fin 2) (v1 : Awg) :
    (s.setAwg n1 g1 v1).chan n c = s.chan n c := rfl
@[simp] theorem State.chan_setTrig (s : State) (n : Cluster) (c : Channel) (n1 : Cluster) (v1 : Trig) :
    (s.setTrig n1 v1).chan n c = s.chan n c := rfl
@[simp] theorem State.chan_setCpt (s : State) (n : Cluster) (c : Channel) (n1 : Cluster) (e1 : Fin 2) (v1 : Cpt) :
    (s.setCpt n1 e1 v1).chan n c = s.chan n c := rfl
@[simp] theorem State.chan_setByte (s : State) (n : Cluster) (c : Channel) (a1 : Nat) (v1 : Byte) :
    (s.setByte a1 v1).chan n c = s.chan n c := rfl
@[simp] theorem State.chan_setMicroAt (s : State) (n : Cluster) (c : Channel) (n1 : Cluster) (a1 : Nat) (v1 : MWord) :
    (s.setMicroAt n1 a1 v1).chan n c = s.chan n c := rfl
@[simp] theorem State.chan_setNanoAt (s : State) (n : Cluster) (c : Channel) (n1 : Cluster) (i1 : Nat) (v1 : NWord) :
    (s.setNanoAt n1 i1 v1).chan n c = s.chan n c := rfl
@[simp] theorem State.chan_setTxn (s : State) (n : Cluster) (c : Channel) (h1 : Nat) (v1 : Txn) :
    (s.setTxn h1 v1).chan n c = s.chan n c := rfl
@[simp] theorem State.chan_setSem (s : State) (n : Cluster) (c : Channel) (k1 : Nat) (v1 : SemSt) :
    (s.setSem k1 v1).chan n c = s.chan n c := rfl
@[simp] theorem State.chan_setFlt (s : State) (n : Cluster) (c : Channel) (k1 : Nat) (v1 : FltSrc) :
    (s.setFlt k1 v1).chan n c = s.chan n c := rfl
@[simp] theorem State.chan_setCalSt (s : State) (n : Cluster) (c : Channel) (n1 : Cluster) (v1 : CalSt) :
    (s.setCalSt n1 v1).chan n c = s.chan n c := rfl
@[simp] theorem State.chan_setGov (s : State) (n : Cluster) (c : Channel) (n1 : Cluster) (v1 : Gov) :
    (s.setGov n1 v1).chan n c = s.chan n c := rfl
@[simp] theorem State.seq_setReg (s : State) (n : Cluster) (r1 : Reg) (i1 : Nat) (v1 : Word) :
    (s.setReg r1 i1 v1).seq n = s.seq n := rfl
@[simp] theorem State.seq_setChan (s : State) (n : Cluster) (n1 : Cluster) (c1 : Channel) (v1 : Chan) :
    (s.setChan n1 c1 v1).seq n = s.seq n := rfl
@[simp] theorem State.seq_setHop (s : State) (n : Cluster) (n1 : Cluster) (v1 : Hop) :
    (s.setHop n1 v1).seq n = s.seq n := rfl
@[simp] theorem State.seq_setStampQ (s : State) (n : Cluster) (n1 : Cluster) (v1 : List StampRec) :
    (s.setStampQ n1 v1).seq n = s.seq n := rfl
@[simp] theorem State.seq_setAwg (s : State) (n : Cluster) (n1 : Cluster) (g1 : Fin 2) (v1 : Awg) :
    (s.setAwg n1 g1 v1).seq n = s.seq n := rfl
@[simp] theorem State.seq_setTrig (s : State) (n : Cluster) (n1 : Cluster) (v1 : Trig) :
    (s.setTrig n1 v1).seq n = s.seq n := rfl
@[simp] theorem State.seq_setCpt (s : State) (n : Cluster) (n1 : Cluster) (e1 : Fin 2) (v1 : Cpt) :
    (s.setCpt n1 e1 v1).seq n = s.seq n := rfl
@[simp] theorem State.seq_setByte (s : State) (n : Cluster) (a1 : Nat) (v1 : Byte) :
    (s.setByte a1 v1).seq n = s.seq n := rfl
@[simp] theorem State.seq_setMicroAt (s : State) (n : Cluster) (n1 : Cluster) (a1 : Nat) (v1 : MWord) :
    (s.setMicroAt n1 a1 v1).seq n = s.seq n := rfl
@[simp] theorem State.seq_setNanoAt (s : State) (n : Cluster) (n1 : Cluster) (i1 : Nat) (v1 : NWord) :
    (s.setNanoAt n1 i1 v1).seq n = s.seq n := rfl
@[simp] theorem State.seq_setTxn (s : State) (n : Cluster) (h1 : Nat) (v1 : Txn) :
    (s.setTxn h1 v1).seq n = s.seq n := rfl
@[simp] theorem State.seq_setSem (s : State) (n : Cluster) (k1 : Nat) (v1 : SemSt) :
    (s.setSem k1 v1).seq n = s.seq n := rfl
@[simp] theorem State.seq_setFlt (s : State) (n : Cluster) (k1 : Nat) (v1 : FltSrc) :
    (s.setFlt k1 v1).seq n = s.seq n := rfl
@[simp] theorem State.seq_setCalSt (s : State) (n : Cluster) (n1 : Cluster) (v1 : CalSt) :
    (s.setCalSt n1 v1).seq n = s.seq n := rfl
@[simp] theorem State.seq_setGov (s : State) (n : Cluster) (n1 : Cluster) (v1 : Gov) :
    (s.setGov n1 v1).seq n = s.seq n := rfl
@[simp] theorem State.hop_setReg (s : State) (n : Cluster) (r1 : Reg) (i1 : Nat) (v1 : Word) :
    (s.setReg r1 i1 v1).hop n = s.hop n := rfl
@[simp] theorem State.hop_setChan (s : State) (n : Cluster) (n1 : Cluster) (c1 : Channel) (v1 : Chan) :
    (s.setChan n1 c1 v1).hop n = s.hop n := rfl
@[simp] theorem State.hop_setSeq (s : State) (n : Cluster) (n1 : Cluster) (v1 : Seq) :
    (s.setSeq n1 v1).hop n = s.hop n := rfl
@[simp] theorem State.hop_setStampQ (s : State) (n : Cluster) (n1 : Cluster) (v1 : List StampRec) :
    (s.setStampQ n1 v1).hop n = s.hop n := rfl
@[simp] theorem State.hop_setAwg (s : State) (n : Cluster) (n1 : Cluster) (g1 : Fin 2) (v1 : Awg) :
    (s.setAwg n1 g1 v1).hop n = s.hop n := rfl
@[simp] theorem State.hop_setTrig (s : State) (n : Cluster) (n1 : Cluster) (v1 : Trig) :
    (s.setTrig n1 v1).hop n = s.hop n := rfl
@[simp] theorem State.hop_setCpt (s : State) (n : Cluster) (n1 : Cluster) (e1 : Fin 2) (v1 : Cpt) :
    (s.setCpt n1 e1 v1).hop n = s.hop n := rfl
@[simp] theorem State.hop_setByte (s : State) (n : Cluster) (a1 : Nat) (v1 : Byte) :
    (s.setByte a1 v1).hop n = s.hop n := rfl
@[simp] theorem State.hop_setMicroAt (s : State) (n : Cluster) (n1 : Cluster) (a1 : Nat) (v1 : MWord) :
    (s.setMicroAt n1 a1 v1).hop n = s.hop n := rfl
@[simp] theorem State.hop_setNanoAt (s : State) (n : Cluster) (n1 : Cluster) (i1 : Nat) (v1 : NWord) :
    (s.setNanoAt n1 i1 v1).hop n = s.hop n := rfl
@[simp] theorem State.hop_setTxn (s : State) (n : Cluster) (h1 : Nat) (v1 : Txn) :
    (s.setTxn h1 v1).hop n = s.hop n := rfl
@[simp] theorem State.hop_setSem (s : State) (n : Cluster) (k1 : Nat) (v1 : SemSt) :
    (s.setSem k1 v1).hop n = s.hop n := rfl
@[simp] theorem State.hop_setFlt (s : State) (n : Cluster) (k1 : Nat) (v1 : FltSrc) :
    (s.setFlt k1 v1).hop n = s.hop n := rfl
@[simp] theorem State.hop_setCalSt (s : State) (n : Cluster) (n1 : Cluster) (v1 : CalSt) :
    (s.setCalSt n1 v1).hop n = s.hop n := rfl
@[simp] theorem State.hop_setGov (s : State) (n : Cluster) (n1 : Cluster) (v1 : Gov) :
    (s.setGov n1 v1).hop n = s.hop n := rfl
@[simp] theorem State.stampQ_setReg (s : State) (n : Cluster) (r1 : Reg) (i1 : Nat) (v1 : Word) :
    (s.setReg r1 i1 v1).stampQ n = s.stampQ n := rfl
@[simp] theorem State.stampQ_setChan (s : State) (n : Cluster) (n1 : Cluster) (c1 : Channel) (v1 : Chan) :
    (s.setChan n1 c1 v1).stampQ n = s.stampQ n := rfl
@[simp] theorem State.stampQ_setSeq (s : State) (n : Cluster) (n1 : Cluster) (v1 : Seq) :
    (s.setSeq n1 v1).stampQ n = s.stampQ n := rfl
@[simp] theorem State.stampQ_setHop (s : State) (n : Cluster) (n1 : Cluster) (v1 : Hop) :
    (s.setHop n1 v1).stampQ n = s.stampQ n := rfl
@[simp] theorem State.stampQ_setAwg (s : State) (n : Cluster) (n1 : Cluster) (g1 : Fin 2) (v1 : Awg) :
    (s.setAwg n1 g1 v1).stampQ n = s.stampQ n := rfl
@[simp] theorem State.stampQ_setTrig (s : State) (n : Cluster) (n1 : Cluster) (v1 : Trig) :
    (s.setTrig n1 v1).stampQ n = s.stampQ n := rfl
@[simp] theorem State.stampQ_setCpt (s : State) (n : Cluster) (n1 : Cluster) (e1 : Fin 2) (v1 : Cpt) :
    (s.setCpt n1 e1 v1).stampQ n = s.stampQ n := rfl
@[simp] theorem State.stampQ_setByte (s : State) (n : Cluster) (a1 : Nat) (v1 : Byte) :
    (s.setByte a1 v1).stampQ n = s.stampQ n := rfl
@[simp] theorem State.stampQ_setMicroAt (s : State) (n : Cluster) (n1 : Cluster) (a1 : Nat) (v1 : MWord) :
    (s.setMicroAt n1 a1 v1).stampQ n = s.stampQ n := rfl
@[simp] theorem State.stampQ_setNanoAt (s : State) (n : Cluster) (n1 : Cluster) (i1 : Nat) (v1 : NWord) :
    (s.setNanoAt n1 i1 v1).stampQ n = s.stampQ n := rfl
@[simp] theorem State.stampQ_setTxn (s : State) (n : Cluster) (h1 : Nat) (v1 : Txn) :
    (s.setTxn h1 v1).stampQ n = s.stampQ n := rfl
@[simp] theorem State.stampQ_setSem (s : State) (n : Cluster) (k1 : Nat) (v1 : SemSt) :
    (s.setSem k1 v1).stampQ n = s.stampQ n := rfl
@[simp] theorem State.stampQ_setFlt (s : State) (n : Cluster) (k1 : Nat) (v1 : FltSrc) :
    (s.setFlt k1 v1).stampQ n = s.stampQ n := rfl
@[simp] theorem State.stampQ_setCalSt (s : State) (n : Cluster) (n1 : Cluster) (v1 : CalSt) :
    (s.setCalSt n1 v1).stampQ n = s.stampQ n := rfl
@[simp] theorem State.stampQ_setGov (s : State) (n : Cluster) (n1 : Cluster) (v1 : Gov) :
    (s.setGov n1 v1).stampQ n = s.stampQ n := rfl
@[simp] theorem State.awg_setReg (s : State) (n : Cluster) (g : Fin 2) (r1 : Reg) (i1 : Nat) (v1 : Word) :
    (s.setReg r1 i1 v1).awg n g = s.awg n g := rfl
@[simp] theorem State.awg_setChan (s : State) (n : Cluster) (g : Fin 2) (n1 : Cluster) (c1 : Channel) (v1 : Chan) :
    (s.setChan n1 c1 v1).awg n g = s.awg n g := rfl
@[simp] theorem State.awg_setSeq (s : State) (n : Cluster) (g : Fin 2) (n1 : Cluster) (v1 : Seq) :
    (s.setSeq n1 v1).awg n g = s.awg n g := rfl
@[simp] theorem State.awg_setHop (s : State) (n : Cluster) (g : Fin 2) (n1 : Cluster) (v1 : Hop) :
    (s.setHop n1 v1).awg n g = s.awg n g := rfl
@[simp] theorem State.awg_setStampQ (s : State) (n : Cluster) (g : Fin 2) (n1 : Cluster) (v1 : List StampRec) :
    (s.setStampQ n1 v1).awg n g = s.awg n g := rfl
@[simp] theorem State.awg_setTrig (s : State) (n : Cluster) (g : Fin 2) (n1 : Cluster) (v1 : Trig) :
    (s.setTrig n1 v1).awg n g = s.awg n g := rfl
@[simp] theorem State.awg_setCpt (s : State) (n : Cluster) (g : Fin 2) (n1 : Cluster) (e1 : Fin 2) (v1 : Cpt) :
    (s.setCpt n1 e1 v1).awg n g = s.awg n g := rfl
@[simp] theorem State.awg_setByte (s : State) (n : Cluster) (g : Fin 2) (a1 : Nat) (v1 : Byte) :
    (s.setByte a1 v1).awg n g = s.awg n g := rfl
@[simp] theorem State.awg_setMicroAt (s : State) (n : Cluster) (g : Fin 2) (n1 : Cluster) (a1 : Nat) (v1 : MWord) :
    (s.setMicroAt n1 a1 v1).awg n g = s.awg n g := rfl
@[simp] theorem State.awg_setNanoAt (s : State) (n : Cluster) (g : Fin 2) (n1 : Cluster) (i1 : Nat) (v1 : NWord) :
    (s.setNanoAt n1 i1 v1).awg n g = s.awg n g := rfl
@[simp] theorem State.awg_setTxn (s : State) (n : Cluster) (g : Fin 2) (h1 : Nat) (v1 : Txn) :
    (s.setTxn h1 v1).awg n g = s.awg n g := rfl
@[simp] theorem State.awg_setSem (s : State) (n : Cluster) (g : Fin 2) (k1 : Nat) (v1 : SemSt) :
    (s.setSem k1 v1).awg n g = s.awg n g := rfl
@[simp] theorem State.awg_setFlt (s : State) (n : Cluster) (g : Fin 2) (k1 : Nat) (v1 : FltSrc) :
    (s.setFlt k1 v1).awg n g = s.awg n g := rfl
@[simp] theorem State.awg_setCalSt (s : State) (n : Cluster) (g : Fin 2) (n1 : Cluster) (v1 : CalSt) :
    (s.setCalSt n1 v1).awg n g = s.awg n g := rfl
@[simp] theorem State.awg_setGov (s : State) (n : Cluster) (g : Fin 2) (n1 : Cluster) (v1 : Gov) :
    (s.setGov n1 v1).awg n g = s.awg n g := rfl
@[simp] theorem State.trig_setReg (s : State) (n : Cluster) (r1 : Reg) (i1 : Nat) (v1 : Word) :
    (s.setReg r1 i1 v1).trig n = s.trig n := rfl
@[simp] theorem State.trig_setChan (s : State) (n : Cluster) (n1 : Cluster) (c1 : Channel) (v1 : Chan) :
    (s.setChan n1 c1 v1).trig n = s.trig n := rfl
@[simp] theorem State.trig_setSeq (s : State) (n : Cluster) (n1 : Cluster) (v1 : Seq) :
    (s.setSeq n1 v1).trig n = s.trig n := rfl
@[simp] theorem State.trig_setHop (s : State) (n : Cluster) (n1 : Cluster) (v1 : Hop) :
    (s.setHop n1 v1).trig n = s.trig n := rfl
@[simp] theorem State.trig_setStampQ (s : State) (n : Cluster) (n1 : Cluster) (v1 : List StampRec) :
    (s.setStampQ n1 v1).trig n = s.trig n := rfl
@[simp] theorem State.trig_setAwg (s : State) (n : Cluster) (n1 : Cluster) (g1 : Fin 2) (v1 : Awg) :
    (s.setAwg n1 g1 v1).trig n = s.trig n := rfl
@[simp] theorem State.trig_setCpt (s : State) (n : Cluster) (n1 : Cluster) (e1 : Fin 2) (v1 : Cpt) :
    (s.setCpt n1 e1 v1).trig n = s.trig n := rfl
@[simp] theorem State.trig_setByte (s : State) (n : Cluster) (a1 : Nat) (v1 : Byte) :
    (s.setByte a1 v1).trig n = s.trig n := rfl
@[simp] theorem State.trig_setMicroAt (s : State) (n : Cluster) (n1 : Cluster) (a1 : Nat) (v1 : MWord) :
    (s.setMicroAt n1 a1 v1).trig n = s.trig n := rfl
@[simp] theorem State.trig_setNanoAt (s : State) (n : Cluster) (n1 : Cluster) (i1 : Nat) (v1 : NWord) :
    (s.setNanoAt n1 i1 v1).trig n = s.trig n := rfl
@[simp] theorem State.trig_setTxn (s : State) (n : Cluster) (h1 : Nat) (v1 : Txn) :
    (s.setTxn h1 v1).trig n = s.trig n := rfl
@[simp] theorem State.trig_setSem (s : State) (n : Cluster) (k1 : Nat) (v1 : SemSt) :
    (s.setSem k1 v1).trig n = s.trig n := rfl
@[simp] theorem State.trig_setFlt (s : State) (n : Cluster) (k1 : Nat) (v1 : FltSrc) :
    (s.setFlt k1 v1).trig n = s.trig n := rfl
@[simp] theorem State.trig_setCalSt (s : State) (n : Cluster) (n1 : Cluster) (v1 : CalSt) :
    (s.setCalSt n1 v1).trig n = s.trig n := rfl
@[simp] theorem State.trig_setGov (s : State) (n : Cluster) (n1 : Cluster) (v1 : Gov) :
    (s.setGov n1 v1).trig n = s.trig n := rfl
@[simp] theorem State.cpt_setReg (s : State) (n : Cluster) (e : Fin 2) (r1 : Reg) (i1 : Nat) (v1 : Word) :
    (s.setReg r1 i1 v1).cpt n e = s.cpt n e := rfl
@[simp] theorem State.cpt_setChan (s : State) (n : Cluster) (e : Fin 2) (n1 : Cluster) (c1 : Channel) (v1 : Chan) :
    (s.setChan n1 c1 v1).cpt n e = s.cpt n e := rfl
@[simp] theorem State.cpt_setSeq (s : State) (n : Cluster) (e : Fin 2) (n1 : Cluster) (v1 : Seq) :
    (s.setSeq n1 v1).cpt n e = s.cpt n e := rfl
@[simp] theorem State.cpt_setHop (s : State) (n : Cluster) (e : Fin 2) (n1 : Cluster) (v1 : Hop) :
    (s.setHop n1 v1).cpt n e = s.cpt n e := rfl
@[simp] theorem State.cpt_setStampQ (s : State) (n : Cluster) (e : Fin 2) (n1 : Cluster) (v1 : List StampRec) :
    (s.setStampQ n1 v1).cpt n e = s.cpt n e := rfl
@[simp] theorem State.cpt_setAwg (s : State) (n : Cluster) (e : Fin 2) (n1 : Cluster) (g1 : Fin 2) (v1 : Awg) :
    (s.setAwg n1 g1 v1).cpt n e = s.cpt n e := rfl
@[simp] theorem State.cpt_setTrig (s : State) (n : Cluster) (e : Fin 2) (n1 : Cluster) (v1 : Trig) :
    (s.setTrig n1 v1).cpt n e = s.cpt n e := rfl
@[simp] theorem State.cpt_setByte (s : State) (n : Cluster) (e : Fin 2) (a1 : Nat) (v1 : Byte) :
    (s.setByte a1 v1).cpt n e = s.cpt n e := rfl
@[simp] theorem State.cpt_setMicroAt (s : State) (n : Cluster) (e : Fin 2) (n1 : Cluster) (a1 : Nat) (v1 : MWord) :
    (s.setMicroAt n1 a1 v1).cpt n e = s.cpt n e := rfl
@[simp] theorem State.cpt_setNanoAt (s : State) (n : Cluster) (e : Fin 2) (n1 : Cluster) (i1 : Nat) (v1 : NWord) :
    (s.setNanoAt n1 i1 v1).cpt n e = s.cpt n e := rfl
@[simp] theorem State.cpt_setTxn (s : State) (n : Cluster) (e : Fin 2) (h1 : Nat) (v1 : Txn) :
    (s.setTxn h1 v1).cpt n e = s.cpt n e := rfl
@[simp] theorem State.cpt_setSem (s : State) (n : Cluster) (e : Fin 2) (k1 : Nat) (v1 : SemSt) :
    (s.setSem k1 v1).cpt n e = s.cpt n e := rfl
@[simp] theorem State.cpt_setFlt (s : State) (n : Cluster) (e : Fin 2) (k1 : Nat) (v1 : FltSrc) :
    (s.setFlt k1 v1).cpt n e = s.cpt n e := rfl
@[simp] theorem State.cpt_setCalSt (s : State) (n : Cluster) (e : Fin 2) (n1 : Cluster) (v1 : CalSt) :
    (s.setCalSt n1 v1).cpt n e = s.cpt n e := rfl
@[simp] theorem State.cpt_setGov (s : State) (n : Cluster) (e : Fin 2) (n1 : Cluster) (v1 : Gov) :
    (s.setGov n1 v1).cpt n e = s.cpt n e := rfl
@[simp] theorem State.byte_setReg (s : State) (a : Nat) (r1 : Reg) (i1 : Nat) (v1 : Word) :
    (s.setReg r1 i1 v1).byte a = s.byte a := rfl
@[simp] theorem State.byte_setChan (s : State) (a : Nat) (n1 : Cluster) (c1 : Channel) (v1 : Chan) :
    (s.setChan n1 c1 v1).byte a = s.byte a := rfl
@[simp] theorem State.byte_setSeq (s : State) (a : Nat) (n1 : Cluster) (v1 : Seq) :
    (s.setSeq n1 v1).byte a = s.byte a := rfl
@[simp] theorem State.byte_setHop (s : State) (a : Nat) (n1 : Cluster) (v1 : Hop) :
    (s.setHop n1 v1).byte a = s.byte a := rfl
@[simp] theorem State.byte_setStampQ (s : State) (a : Nat) (n1 : Cluster) (v1 : List StampRec) :
    (s.setStampQ n1 v1).byte a = s.byte a := rfl
@[simp] theorem State.byte_setAwg (s : State) (a : Nat) (n1 : Cluster) (g1 : Fin 2) (v1 : Awg) :
    (s.setAwg n1 g1 v1).byte a = s.byte a := rfl
@[simp] theorem State.byte_setTrig (s : State) (a : Nat) (n1 : Cluster) (v1 : Trig) :
    (s.setTrig n1 v1).byte a = s.byte a := rfl
@[simp] theorem State.byte_setCpt (s : State) (a : Nat) (n1 : Cluster) (e1 : Fin 2) (v1 : Cpt) :
    (s.setCpt n1 e1 v1).byte a = s.byte a := rfl
@[simp] theorem State.byte_setMicroAt (s : State) (a : Nat) (n1 : Cluster) (a1 : Nat) (v1 : MWord) :
    (s.setMicroAt n1 a1 v1).byte a = s.byte a := rfl
@[simp] theorem State.byte_setNanoAt (s : State) (a : Nat) (n1 : Cluster) (i1 : Nat) (v1 : NWord) :
    (s.setNanoAt n1 i1 v1).byte a = s.byte a := rfl
@[simp] theorem State.byte_setTxn (s : State) (a : Nat) (h1 : Nat) (v1 : Txn) :
    (s.setTxn h1 v1).byte a = s.byte a := rfl
@[simp] theorem State.byte_setSem (s : State) (a : Nat) (k1 : Nat) (v1 : SemSt) :
    (s.setSem k1 v1).byte a = s.byte a := rfl
@[simp] theorem State.byte_setFlt (s : State) (a : Nat) (k1 : Nat) (v1 : FltSrc) :
    (s.setFlt k1 v1).byte a = s.byte a := rfl
@[simp] theorem State.byte_setCalSt (s : State) (a : Nat) (n1 : Cluster) (v1 : CalSt) :
    (s.setCalSt n1 v1).byte a = s.byte a := rfl
@[simp] theorem State.byte_setGov (s : State) (a : Nat) (n1 : Cluster) (v1 : Gov) :
    (s.setGov n1 v1).byte a = s.byte a := rfl
@[simp] theorem State.microAt_setReg (s : State) (n : Cluster) (a : Nat) (r1 : Reg) (i1 : Nat) (v1 : Word) :
    (s.setReg r1 i1 v1).microAt n a = s.microAt n a := rfl
@[simp] theorem State.microAt_setChan (s : State) (n : Cluster) (a : Nat) (n1 : Cluster) (c1 : Channel) (v1 : Chan) :
    (s.setChan n1 c1 v1).microAt n a = s.microAt n a := rfl
@[simp] theorem State.microAt_setSeq (s : State) (n : Cluster) (a : Nat) (n1 : Cluster) (v1 : Seq) :
    (s.setSeq n1 v1).microAt n a = s.microAt n a := rfl
@[simp] theorem State.microAt_setHop (s : State) (n : Cluster) (a : Nat) (n1 : Cluster) (v1 : Hop) :
    (s.setHop n1 v1).microAt n a = s.microAt n a := rfl
@[simp] theorem State.microAt_setStampQ (s : State) (n : Cluster) (a : Nat) (n1 : Cluster) (v1 : List StampRec) :
    (s.setStampQ n1 v1).microAt n a = s.microAt n a := rfl
@[simp] theorem State.microAt_setAwg (s : State) (n : Cluster) (a : Nat) (n1 : Cluster) (g1 : Fin 2) (v1 : Awg) :
    (s.setAwg n1 g1 v1).microAt n a = s.microAt n a := rfl
@[simp] theorem State.microAt_setTrig (s : State) (n : Cluster) (a : Nat) (n1 : Cluster) (v1 : Trig) :
    (s.setTrig n1 v1).microAt n a = s.microAt n a := rfl
@[simp] theorem State.microAt_setCpt (s : State) (n : Cluster) (a : Nat) (n1 : Cluster) (e1 : Fin 2) (v1 : Cpt) :
    (s.setCpt n1 e1 v1).microAt n a = s.microAt n a := rfl
@[simp] theorem State.microAt_setByte (s : State) (n : Cluster) (a : Nat) (a1 : Nat) (v1 : Byte) :
    (s.setByte a1 v1).microAt n a = s.microAt n a := rfl
@[simp] theorem State.microAt_setNanoAt (s : State) (n : Cluster) (a : Nat) (n1 : Cluster) (i1 : Nat) (v1 : NWord) :
    (s.setNanoAt n1 i1 v1).microAt n a = s.microAt n a := rfl
@[simp] theorem State.microAt_setTxn (s : State) (n : Cluster) (a : Nat) (h1 : Nat) (v1 : Txn) :
    (s.setTxn h1 v1).microAt n a = s.microAt n a := rfl
@[simp] theorem State.microAt_setSem (s : State) (n : Cluster) (a : Nat) (k1 : Nat) (v1 : SemSt) :
    (s.setSem k1 v1).microAt n a = s.microAt n a := rfl
@[simp] theorem State.microAt_setFlt (s : State) (n : Cluster) (a : Nat) (k1 : Nat) (v1 : FltSrc) :
    (s.setFlt k1 v1).microAt n a = s.microAt n a := rfl
@[simp] theorem State.microAt_setCalSt (s : State) (n : Cluster) (a : Nat) (n1 : Cluster) (v1 : CalSt) :
    (s.setCalSt n1 v1).microAt n a = s.microAt n a := rfl
@[simp] theorem State.microAt_setGov (s : State) (n : Cluster) (a : Nat) (n1 : Cluster) (v1 : Gov) :
    (s.setGov n1 v1).microAt n a = s.microAt n a := rfl
@[simp] theorem State.nanoAt_setReg (s : State) (n : Cluster) (i : Nat) (r1 : Reg) (i1 : Nat) (v1 : Word) :
    (s.setReg r1 i1 v1).nanoAt n i = s.nanoAt n i := rfl
@[simp] theorem State.nanoAt_setChan (s : State) (n : Cluster) (i : Nat) (n1 : Cluster) (c1 : Channel) (v1 : Chan) :
    (s.setChan n1 c1 v1).nanoAt n i = s.nanoAt n i := rfl
@[simp] theorem State.nanoAt_setSeq (s : State) (n : Cluster) (i : Nat) (n1 : Cluster) (v1 : Seq) :
    (s.setSeq n1 v1).nanoAt n i = s.nanoAt n i := rfl
@[simp] theorem State.nanoAt_setHop (s : State) (n : Cluster) (i : Nat) (n1 : Cluster) (v1 : Hop) :
    (s.setHop n1 v1).nanoAt n i = s.nanoAt n i := rfl
@[simp] theorem State.nanoAt_setStampQ (s : State) (n : Cluster) (i : Nat) (n1 : Cluster) (v1 : List StampRec) :
    (s.setStampQ n1 v1).nanoAt n i = s.nanoAt n i := rfl
@[simp] theorem State.nanoAt_setAwg (s : State) (n : Cluster) (i : Nat) (n1 : Cluster) (g1 : Fin 2) (v1 : Awg) :
    (s.setAwg n1 g1 v1).nanoAt n i = s.nanoAt n i := rfl
@[simp] theorem State.nanoAt_setTrig (s : State) (n : Cluster) (i : Nat) (n1 : Cluster) (v1 : Trig) :
    (s.setTrig n1 v1).nanoAt n i = s.nanoAt n i := rfl
@[simp] theorem State.nanoAt_setCpt (s : State) (n : Cluster) (i : Nat) (n1 : Cluster) (e1 : Fin 2) (v1 : Cpt) :
    (s.setCpt n1 e1 v1).nanoAt n i = s.nanoAt n i := rfl
@[simp] theorem State.nanoAt_setByte (s : State) (n : Cluster) (i : Nat) (a1 : Nat) (v1 : Byte) :
    (s.setByte a1 v1).nanoAt n i = s.nanoAt n i := rfl
@[simp] theorem State.nanoAt_setMicroAt (s : State) (n : Cluster) (i : Nat) (n1 : Cluster) (a1 : Nat) (v1 : MWord) :
    (s.setMicroAt n1 a1 v1).nanoAt n i = s.nanoAt n i := rfl
@[simp] theorem State.nanoAt_setTxn (s : State) (n : Cluster) (i : Nat) (h1 : Nat) (v1 : Txn) :
    (s.setTxn h1 v1).nanoAt n i = s.nanoAt n i := rfl
@[simp] theorem State.nanoAt_setSem (s : State) (n : Cluster) (i : Nat) (k1 : Nat) (v1 : SemSt) :
    (s.setSem k1 v1).nanoAt n i = s.nanoAt n i := rfl
@[simp] theorem State.nanoAt_setFlt (s : State) (n : Cluster) (i : Nat) (k1 : Nat) (v1 : FltSrc) :
    (s.setFlt k1 v1).nanoAt n i = s.nanoAt n i := rfl
@[simp] theorem State.nanoAt_setCalSt (s : State) (n : Cluster) (i : Nat) (n1 : Cluster) (v1 : CalSt) :
    (s.setCalSt n1 v1).nanoAt n i = s.nanoAt n i := rfl
@[simp] theorem State.nanoAt_setGov (s : State) (n : Cluster) (i : Nat) (n1 : Cluster) (v1 : Gov) :
    (s.setGov n1 v1).nanoAt n i = s.nanoAt n i := rfl
@[simp] theorem State.txn_setReg (s : State) (h : Nat) (r1 : Reg) (i1 : Nat) (v1 : Word) :
    (s.setReg r1 i1 v1).txn h = s.txn h := rfl
@[simp] theorem State.txn_setChan (s : State) (h : Nat) (n1 : Cluster) (c1 : Channel) (v1 : Chan) :
    (s.setChan n1 c1 v1).txn h = s.txn h := rfl
@[simp] theorem State.txn_setSeq (s : State) (h : Nat) (n1 : Cluster) (v1 : Seq) :
    (s.setSeq n1 v1).txn h = s.txn h := rfl
@[simp] theorem State.txn_setHop (s : State) (h : Nat) (n1 : Cluster) (v1 : Hop) :
    (s.setHop n1 v1).txn h = s.txn h := rfl
@[simp] theorem State.txn_setStampQ (s : State) (h : Nat) (n1 : Cluster) (v1 : List StampRec) :
    (s.setStampQ n1 v1).txn h = s.txn h := rfl
@[simp] theorem State.txn_setAwg (s : State) (h : Nat) (n1 : Cluster) (g1 : Fin 2) (v1 : Awg) :
    (s.setAwg n1 g1 v1).txn h = s.txn h := rfl
@[simp] theorem State.txn_setTrig (s : State) (h : Nat) (n1 : Cluster) (v1 : Trig) :
    (s.setTrig n1 v1).txn h = s.txn h := rfl
@[simp] theorem State.txn_setCpt (s : State) (h : Nat) (n1 : Cluster) (e1 : Fin 2) (v1 : Cpt) :
    (s.setCpt n1 e1 v1).txn h = s.txn h := rfl
@[simp] theorem State.txn_setByte (s : State) (h : Nat) (a1 : Nat) (v1 : Byte) :
    (s.setByte a1 v1).txn h = s.txn h := rfl
@[simp] theorem State.txn_setMicroAt (s : State) (h : Nat) (n1 : Cluster) (a1 : Nat) (v1 : MWord) :
    (s.setMicroAt n1 a1 v1).txn h = s.txn h := rfl
@[simp] theorem State.txn_setNanoAt (s : State) (h : Nat) (n1 : Cluster) (i1 : Nat) (v1 : NWord) :
    (s.setNanoAt n1 i1 v1).txn h = s.txn h := rfl
@[simp] theorem State.txn_setSem (s : State) (h : Nat) (k1 : Nat) (v1 : SemSt) :
    (s.setSem k1 v1).txn h = s.txn h := rfl
@[simp] theorem State.txn_setFlt (s : State) (h : Nat) (k1 : Nat) (v1 : FltSrc) :
    (s.setFlt k1 v1).txn h = s.txn h := rfl
@[simp] theorem State.txn_setCalSt (s : State) (h : Nat) (n1 : Cluster) (v1 : CalSt) :
    (s.setCalSt n1 v1).txn h = s.txn h := rfl
@[simp] theorem State.txn_setGov (s : State) (h : Nat) (n1 : Cluster) (v1 : Gov) :
    (s.setGov n1 v1).txn h = s.txn h := rfl
@[simp] theorem State.sem_setReg (s : State) (k : Nat) (r1 : Reg) (i1 : Nat) (v1 : Word) :
    (s.setReg r1 i1 v1).sem k = s.sem k := rfl
@[simp] theorem State.sem_setChan (s : State) (k : Nat) (n1 : Cluster) (c1 : Channel) (v1 : Chan) :
    (s.setChan n1 c1 v1).sem k = s.sem k := rfl
@[simp] theorem State.sem_setSeq (s : State) (k : Nat) (n1 : Cluster) (v1 : Seq) :
    (s.setSeq n1 v1).sem k = s.sem k := rfl
@[simp] theorem State.sem_setHop (s : State) (k : Nat) (n1 : Cluster) (v1 : Hop) :
    (s.setHop n1 v1).sem k = s.sem k := rfl
@[simp] theorem State.sem_setStampQ (s : State) (k : Nat) (n1 : Cluster) (v1 : List StampRec) :
    (s.setStampQ n1 v1).sem k = s.sem k := rfl
@[simp] theorem State.sem_setAwg (s : State) (k : Nat) (n1 : Cluster) (g1 : Fin 2) (v1 : Awg) :
    (s.setAwg n1 g1 v1).sem k = s.sem k := rfl
@[simp] theorem State.sem_setTrig (s : State) (k : Nat) (n1 : Cluster) (v1 : Trig) :
    (s.setTrig n1 v1).sem k = s.sem k := rfl
@[simp] theorem State.sem_setCpt (s : State) (k : Nat) (n1 : Cluster) (e1 : Fin 2) (v1 : Cpt) :
    (s.setCpt n1 e1 v1).sem k = s.sem k := rfl
@[simp] theorem State.sem_setByte (s : State) (k : Nat) (a1 : Nat) (v1 : Byte) :
    (s.setByte a1 v1).sem k = s.sem k := rfl
@[simp] theorem State.sem_setMicroAt (s : State) (k : Nat) (n1 : Cluster) (a1 : Nat) (v1 : MWord) :
    (s.setMicroAt n1 a1 v1).sem k = s.sem k := rfl
@[simp] theorem State.sem_setNanoAt (s : State) (k : Nat) (n1 : Cluster) (i1 : Nat) (v1 : NWord) :
    (s.setNanoAt n1 i1 v1).sem k = s.sem k := rfl
@[simp] theorem State.sem_setTxn (s : State) (k : Nat) (h1 : Nat) (v1 : Txn) :
    (s.setTxn h1 v1).sem k = s.sem k := rfl
@[simp] theorem State.sem_setFlt (s : State) (k : Nat) (k1 : Nat) (v1 : FltSrc) :
    (s.setFlt k1 v1).sem k = s.sem k := rfl
@[simp] theorem State.sem_setCalSt (s : State) (k : Nat) (n1 : Cluster) (v1 : CalSt) :
    (s.setCalSt n1 v1).sem k = s.sem k := rfl
@[simp] theorem State.sem_setGov (s : State) (k : Nat) (n1 : Cluster) (v1 : Gov) :
    (s.setGov n1 v1).sem k = s.sem k := rfl
@[simp] theorem State.flt_setReg (s : State) (k : Nat) (r1 : Reg) (i1 : Nat) (v1 : Word) :
    (s.setReg r1 i1 v1).flt k = s.flt k := rfl
@[simp] theorem State.flt_setChan (s : State) (k : Nat) (n1 : Cluster) (c1 : Channel) (v1 : Chan) :
    (s.setChan n1 c1 v1).flt k = s.flt k := rfl
@[simp] theorem State.flt_setSeq (s : State) (k : Nat) (n1 : Cluster) (v1 : Seq) :
    (s.setSeq n1 v1).flt k = s.flt k := rfl
@[simp] theorem State.flt_setHop (s : State) (k : Nat) (n1 : Cluster) (v1 : Hop) :
    (s.setHop n1 v1).flt k = s.flt k := rfl
@[simp] theorem State.flt_setStampQ (s : State) (k : Nat) (n1 : Cluster) (v1 : List StampRec) :
    (s.setStampQ n1 v1).flt k = s.flt k := rfl
@[simp] theorem State.flt_setAwg (s : State) (k : Nat) (n1 : Cluster) (g1 : Fin 2) (v1 : Awg) :
    (s.setAwg n1 g1 v1).flt k = s.flt k := rfl
@[simp] theorem State.flt_setTrig (s : State) (k : Nat) (n1 : Cluster) (v1 : Trig) :
    (s.setTrig n1 v1).flt k = s.flt k := rfl
@[simp] theorem State.flt_setCpt (s : State) (k : Nat) (n1 : Cluster) (e1 : Fin 2) (v1 : Cpt) :
    (s.setCpt n1 e1 v1).flt k = s.flt k := rfl
@[simp] theorem State.flt_setByte (s : State) (k : Nat) (a1 : Nat) (v1 : Byte) :
    (s.setByte a1 v1).flt k = s.flt k := rfl
@[simp] theorem State.flt_setMicroAt (s : State) (k : Nat) (n1 : Cluster) (a1 : Nat) (v1 : MWord) :
    (s.setMicroAt n1 a1 v1).flt k = s.flt k := rfl
@[simp] theorem State.flt_setNanoAt (s : State) (k : Nat) (n1 : Cluster) (i1 : Nat) (v1 : NWord) :
    (s.setNanoAt n1 i1 v1).flt k = s.flt k := rfl
@[simp] theorem State.flt_setTxn (s : State) (k : Nat) (h1 : Nat) (v1 : Txn) :
    (s.setTxn h1 v1).flt k = s.flt k := rfl
@[simp] theorem State.flt_setSem (s : State) (k : Nat) (k1 : Nat) (v1 : SemSt) :
    (s.setSem k1 v1).flt k = s.flt k := rfl
@[simp] theorem State.flt_setCalSt (s : State) (k : Nat) (n1 : Cluster) (v1 : CalSt) :
    (s.setCalSt n1 v1).flt k = s.flt k := rfl
@[simp] theorem State.flt_setGov (s : State) (k : Nat) (n1 : Cluster) (v1 : Gov) :
    (s.setGov n1 v1).flt k = s.flt k := rfl
@[simp] theorem State.calSt_setReg (s : State) (n : Cluster) (r1 : Reg) (i1 : Nat) (v1 : Word) :
    (s.setReg r1 i1 v1).calSt n = s.calSt n := rfl
@[simp] theorem State.calSt_setChan (s : State) (n : Cluster) (n1 : Cluster) (c1 : Channel) (v1 : Chan) :
    (s.setChan n1 c1 v1).calSt n = s.calSt n := rfl
@[simp] theorem State.calSt_setSeq (s : State) (n : Cluster) (n1 : Cluster) (v1 : Seq) :
    (s.setSeq n1 v1).calSt n = s.calSt n := rfl
@[simp] theorem State.calSt_setHop (s : State) (n : Cluster) (n1 : Cluster) (v1 : Hop) :
    (s.setHop n1 v1).calSt n = s.calSt n := rfl
@[simp] theorem State.calSt_setStampQ (s : State) (n : Cluster) (n1 : Cluster) (v1 : List StampRec) :
    (s.setStampQ n1 v1).calSt n = s.calSt n := rfl
@[simp] theorem State.calSt_setAwg (s : State) (n : Cluster) (n1 : Cluster) (g1 : Fin 2) (v1 : Awg) :
    (s.setAwg n1 g1 v1).calSt n = s.calSt n := rfl
@[simp] theorem State.calSt_setTrig (s : State) (n : Cluster) (n1 : Cluster) (v1 : Trig) :
    (s.setTrig n1 v1).calSt n = s.calSt n := rfl
@[simp] theorem State.calSt_setCpt (s : State) (n : Cluster) (n1 : Cluster) (e1 : Fin 2) (v1 : Cpt) :
    (s.setCpt n1 e1 v1).calSt n = s.calSt n := rfl
@[simp] theorem State.calSt_setByte (s : State) (n : Cluster) (a1 : Nat) (v1 : Byte) :
    (s.setByte a1 v1).calSt n = s.calSt n := rfl
@[simp] theorem State.calSt_setMicroAt (s : State) (n : Cluster) (n1 : Cluster) (a1 : Nat) (v1 : MWord) :
    (s.setMicroAt n1 a1 v1).calSt n = s.calSt n := rfl
@[simp] theorem State.calSt_setNanoAt (s : State) (n : Cluster) (n1 : Cluster) (i1 : Nat) (v1 : NWord) :
    (s.setNanoAt n1 i1 v1).calSt n = s.calSt n := rfl
@[simp] theorem State.calSt_setTxn (s : State) (n : Cluster) (h1 : Nat) (v1 : Txn) :
    (s.setTxn h1 v1).calSt n = s.calSt n := rfl
@[simp] theorem State.calSt_setSem (s : State) (n : Cluster) (k1 : Nat) (v1 : SemSt) :
    (s.setSem k1 v1).calSt n = s.calSt n := rfl
@[simp] theorem State.calSt_setFlt (s : State) (n : Cluster) (k1 : Nat) (v1 : FltSrc) :
    (s.setFlt k1 v1).calSt n = s.calSt n := rfl
@[simp] theorem State.calSt_setGov (s : State) (n : Cluster) (n1 : Cluster) (v1 : Gov) :
    (s.setGov n1 v1).calSt n = s.calSt n := rfl
@[simp] theorem State.govOf_setReg (s : State) (n : Cluster) (r1 : Reg) (i1 : Nat) (v1 : Word) :
    (s.setReg r1 i1 v1).govOf n = s.govOf n := rfl
@[simp] theorem State.govOf_setChan (s : State) (n : Cluster) (n1 : Cluster) (c1 : Channel) (v1 : Chan) :
    (s.setChan n1 c1 v1).govOf n = s.govOf n := rfl
@[simp] theorem State.govOf_setSeq (s : State) (n : Cluster) (n1 : Cluster) (v1 : Seq) :
    (s.setSeq n1 v1).govOf n = s.govOf n := rfl
@[simp] theorem State.govOf_setHop (s : State) (n : Cluster) (n1 : Cluster) (v1 : Hop) :
    (s.setHop n1 v1).govOf n = s.govOf n := rfl
@[simp] theorem State.govOf_setStampQ (s : State) (n : Cluster) (n1 : Cluster) (v1 : List StampRec) :
    (s.setStampQ n1 v1).govOf n = s.govOf n := rfl
@[simp] theorem State.govOf_setAwg (s : State) (n : Cluster) (n1 : Cluster) (g1 : Fin 2) (v1 : Awg) :
    (s.setAwg n1 g1 v1).govOf n = s.govOf n := rfl
@[simp] theorem State.govOf_setTrig (s : State) (n : Cluster) (n1 : Cluster) (v1 : Trig) :
    (s.setTrig n1 v1).govOf n = s.govOf n := rfl
@[simp] theorem State.govOf_setCpt (s : State) (n : Cluster) (n1 : Cluster) (e1 : Fin 2) (v1 : Cpt) :
    (s.setCpt n1 e1 v1).govOf n = s.govOf n := rfl
@[simp] theorem State.govOf_setByte (s : State) (n : Cluster) (a1 : Nat) (v1 : Byte) :
    (s.setByte a1 v1).govOf n = s.govOf n := rfl
@[simp] theorem State.govOf_setMicroAt (s : State) (n : Cluster) (n1 : Cluster) (a1 : Nat) (v1 : MWord) :
    (s.setMicroAt n1 a1 v1).govOf n = s.govOf n := rfl
@[simp] theorem State.govOf_setNanoAt (s : State) (n : Cluster) (n1 : Cluster) (i1 : Nat) (v1 : NWord) :
    (s.setNanoAt n1 i1 v1).govOf n = s.govOf n := rfl
@[simp] theorem State.govOf_setTxn (s : State) (n : Cluster) (h1 : Nat) (v1 : Txn) :
    (s.setTxn h1 v1).govOf n = s.govOf n := rfl
@[simp] theorem State.govOf_setSem (s : State) (n : Cluster) (k1 : Nat) (v1 : SemSt) :
    (s.setSem k1 v1).govOf n = s.govOf n := rfl
@[simp] theorem State.govOf_setFlt (s : State) (n : Cluster) (k1 : Nat) (v1 : FltSrc) :
    (s.setFlt k1 v1).govOf n = s.govOf n := rfl
@[simp] theorem State.govOf_setCalSt (s : State) (n : Cluster) (n1 : Cluster) (v1 : CalSt) :
    (s.setCalSt n1 v1).govOf n = s.govOf n := rfl

/-! ### A field of the state after an update of something else -/

@[simp] theorem State.pending_setReg (s : State) (r1 : Reg) (i1 : Nat) (v1 : Word) : (s.setReg r1 i1 v1).pending = s.pending := rfl
@[simp] theorem State.pending_setChan (s : State) (n1 : Cluster) (c1 : Channel) (v1 : Chan) : (s.setChan n1 c1 v1).pending = s.pending := rfl
@[simp] theorem State.pending_setSeq (s : State) (n1 : Cluster) (v1 : Seq) : (s.setSeq n1 v1).pending = s.pending := rfl
@[simp] theorem State.pending_setHop (s : State) (n1 : Cluster) (v1 : Hop) : (s.setHop n1 v1).pending = s.pending := rfl
@[simp] theorem State.pending_setStampQ (s : State) (n1 : Cluster) (v1 : List StampRec) : (s.setStampQ n1 v1).pending = s.pending := rfl
@[simp] theorem State.pending_setAwg (s : State) (n1 : Cluster) (g1 : Fin 2) (v1 : Awg) : (s.setAwg n1 g1 v1).pending = s.pending := rfl
@[simp] theorem State.pending_setTrig (s : State) (n1 : Cluster) (v1 : Trig) : (s.setTrig n1 v1).pending = s.pending := rfl
@[simp] theorem State.pending_setCpt (s : State) (n1 : Cluster) (e1 : Fin 2) (v1 : Cpt) : (s.setCpt n1 e1 v1).pending = s.pending := rfl
@[simp] theorem State.pending_setByte (s : State) (a1 : Nat) (v1 : Byte) : (s.setByte a1 v1).pending = s.pending := rfl
@[simp] theorem State.pending_setMicroAt (s : State) (n1 : Cluster) (a1 : Nat) (v1 : MWord) : (s.setMicroAt n1 a1 v1).pending = s.pending := rfl
@[simp] theorem State.pending_setNanoAt (s : State) (n1 : Cluster) (i1 : Nat) (v1 : NWord) : (s.setNanoAt n1 i1 v1).pending = s.pending := rfl
@[simp] theorem State.pending_setTxn (s : State) (h1 : Nat) (v1 : Txn) : (s.setTxn h1 v1).pending = s.pending := rfl
@[simp] theorem State.pending_setSem (s : State) (k1 : Nat) (v1 : SemSt) : (s.setSem k1 v1).pending = s.pending := rfl
@[simp] theorem State.pending_setFlt (s : State) (k1 : Nat) (v1 : FltSrc) : (s.setFlt k1 v1).pending = s.pending := rfl
@[simp] theorem State.pending_setCalSt (s : State) (n1 : Cluster) (v1 : CalSt) : (s.setCalSt n1 v1).pending = s.pending := rfl
@[simp] theorem State.pending_setGov (s : State) (n1 : Cluster) (v1 : Gov) : (s.setGov n1 v1).pending = s.pending := rfl
@[simp] theorem State.clasp_setReg (s : State) (r1 : Reg) (i1 : Nat) (v1 : Word) : (s.setReg r1 i1 v1).clasp = s.clasp := rfl
@[simp] theorem State.clasp_setChan (s : State) (n1 : Cluster) (c1 : Channel) (v1 : Chan) : (s.setChan n1 c1 v1).clasp = s.clasp := rfl
@[simp] theorem State.clasp_setSeq (s : State) (n1 : Cluster) (v1 : Seq) : (s.setSeq n1 v1).clasp = s.clasp := rfl
@[simp] theorem State.clasp_setHop (s : State) (n1 : Cluster) (v1 : Hop) : (s.setHop n1 v1).clasp = s.clasp := rfl
@[simp] theorem State.clasp_setStampQ (s : State) (n1 : Cluster) (v1 : List StampRec) : (s.setStampQ n1 v1).clasp = s.clasp := rfl
@[simp] theorem State.clasp_setAwg (s : State) (n1 : Cluster) (g1 : Fin 2) (v1 : Awg) : (s.setAwg n1 g1 v1).clasp = s.clasp := rfl
@[simp] theorem State.clasp_setTrig (s : State) (n1 : Cluster) (v1 : Trig) : (s.setTrig n1 v1).clasp = s.clasp := rfl
@[simp] theorem State.clasp_setCpt (s : State) (n1 : Cluster) (e1 : Fin 2) (v1 : Cpt) : (s.setCpt n1 e1 v1).clasp = s.clasp := rfl
@[simp] theorem State.clasp_setByte (s : State) (a1 : Nat) (v1 : Byte) : (s.setByte a1 v1).clasp = s.clasp := rfl
@[simp] theorem State.clasp_setMicroAt (s : State) (n1 : Cluster) (a1 : Nat) (v1 : MWord) : (s.setMicroAt n1 a1 v1).clasp = s.clasp := rfl
@[simp] theorem State.clasp_setNanoAt (s : State) (n1 : Cluster) (i1 : Nat) (v1 : NWord) : (s.setNanoAt n1 i1 v1).clasp = s.clasp := rfl
@[simp] theorem State.clasp_setTxn (s : State) (h1 : Nat) (v1 : Txn) : (s.setTxn h1 v1).clasp = s.clasp := rfl
@[simp] theorem State.clasp_setSem (s : State) (k1 : Nat) (v1 : SemSt) : (s.setSem k1 v1).clasp = s.clasp := rfl
@[simp] theorem State.clasp_setFlt (s : State) (k1 : Nat) (v1 : FltSrc) : (s.setFlt k1 v1).clasp = s.clasp := rfl
@[simp] theorem State.clasp_setCalSt (s : State) (n1 : Cluster) (v1 : CalSt) : (s.setCalSt n1 v1).clasp = s.clasp := rfl
@[simp] theorem State.clasp_setGov (s : State) (n1 : Cluster) (v1 : Gov) : (s.setGov n1 v1).clasp = s.clasp := rfl
@[simp] theorem State.libMicro_setReg (s : State) (r1 : Reg) (i1 : Nat) (v1 : Word) : (s.setReg r1 i1 v1).libMicro = s.libMicro := rfl
@[simp] theorem State.libMicro_setChan (s : State) (n1 : Cluster) (c1 : Channel) (v1 : Chan) : (s.setChan n1 c1 v1).libMicro = s.libMicro := rfl
@[simp] theorem State.libMicro_setSeq (s : State) (n1 : Cluster) (v1 : Seq) : (s.setSeq n1 v1).libMicro = s.libMicro := rfl
@[simp] theorem State.libMicro_setHop (s : State) (n1 : Cluster) (v1 : Hop) : (s.setHop n1 v1).libMicro = s.libMicro := rfl
@[simp] theorem State.libMicro_setStampQ (s : State) (n1 : Cluster) (v1 : List StampRec) : (s.setStampQ n1 v1).libMicro = s.libMicro := rfl
@[simp] theorem State.libMicro_setAwg (s : State) (n1 : Cluster) (g1 : Fin 2) (v1 : Awg) : (s.setAwg n1 g1 v1).libMicro = s.libMicro := rfl
@[simp] theorem State.libMicro_setTrig (s : State) (n1 : Cluster) (v1 : Trig) : (s.setTrig n1 v1).libMicro = s.libMicro := rfl
@[simp] theorem State.libMicro_setCpt (s : State) (n1 : Cluster) (e1 : Fin 2) (v1 : Cpt) : (s.setCpt n1 e1 v1).libMicro = s.libMicro := rfl
@[simp] theorem State.libMicro_setByte (s : State) (a1 : Nat) (v1 : Byte) : (s.setByte a1 v1).libMicro = s.libMicro := rfl
@[simp] theorem State.libMicro_setMicroAt (s : State) (n1 : Cluster) (a1 : Nat) (v1 : MWord) : (s.setMicroAt n1 a1 v1).libMicro = s.libMicro := rfl
@[simp] theorem State.libMicro_setNanoAt (s : State) (n1 : Cluster) (i1 : Nat) (v1 : NWord) : (s.setNanoAt n1 i1 v1).libMicro = s.libMicro := rfl
@[simp] theorem State.libMicro_setTxn (s : State) (h1 : Nat) (v1 : Txn) : (s.setTxn h1 v1).libMicro = s.libMicro := rfl
@[simp] theorem State.libMicro_setSem (s : State) (k1 : Nat) (v1 : SemSt) : (s.setSem k1 v1).libMicro = s.libMicro := rfl
@[simp] theorem State.libMicro_setFlt (s : State) (k1 : Nat) (v1 : FltSrc) : (s.setFlt k1 v1).libMicro = s.libMicro := rfl
@[simp] theorem State.libMicro_setCalSt (s : State) (n1 : Cluster) (v1 : CalSt) : (s.setCalSt n1 v1).libMicro = s.libMicro := rfl
@[simp] theorem State.libMicro_setGov (s : State) (n1 : Cluster) (v1 : Gov) : (s.setGov n1 v1).libMicro = s.libMicro := rfl
@[simp] theorem State.libNano_setReg (s : State) (r1 : Reg) (i1 : Nat) (v1 : Word) : (s.setReg r1 i1 v1).libNano = s.libNano := rfl
@[simp] theorem State.libNano_setChan (s : State) (n1 : Cluster) (c1 : Channel) (v1 : Chan) : (s.setChan n1 c1 v1).libNano = s.libNano := rfl
@[simp] theorem State.libNano_setSeq (s : State) (n1 : Cluster) (v1 : Seq) : (s.setSeq n1 v1).libNano = s.libNano := rfl
@[simp] theorem State.libNano_setHop (s : State) (n1 : Cluster) (v1 : Hop) : (s.setHop n1 v1).libNano = s.libNano := rfl
@[simp] theorem State.libNano_setStampQ (s : State) (n1 : Cluster) (v1 : List StampRec) : (s.setStampQ n1 v1).libNano = s.libNano := rfl
@[simp] theorem State.libNano_setAwg (s : State) (n1 : Cluster) (g1 : Fin 2) (v1 : Awg) : (s.setAwg n1 g1 v1).libNano = s.libNano := rfl
@[simp] theorem State.libNano_setTrig (s : State) (n1 : Cluster) (v1 : Trig) : (s.setTrig n1 v1).libNano = s.libNano := rfl
@[simp] theorem State.libNano_setCpt (s : State) (n1 : Cluster) (e1 : Fin 2) (v1 : Cpt) : (s.setCpt n1 e1 v1).libNano = s.libNano := rfl
@[simp] theorem State.libNano_setByte (s : State) (a1 : Nat) (v1 : Byte) : (s.setByte a1 v1).libNano = s.libNano := rfl
@[simp] theorem State.libNano_setMicroAt (s : State) (n1 : Cluster) (a1 : Nat) (v1 : MWord) : (s.setMicroAt n1 a1 v1).libNano = s.libNano := rfl
@[simp] theorem State.libNano_setNanoAt (s : State) (n1 : Cluster) (i1 : Nat) (v1 : NWord) : (s.setNanoAt n1 i1 v1).libNano = s.libNano := rfl
@[simp] theorem State.libNano_setTxn (s : State) (h1 : Nat) (v1 : Txn) : (s.setTxn h1 v1).libNano = s.libNano := rfl
@[simp] theorem State.libNano_setSem (s : State) (k1 : Nat) (v1 : SemSt) : (s.setSem k1 v1).libNano = s.libNano := rfl
@[simp] theorem State.libNano_setFlt (s : State) (k1 : Nat) (v1 : FltSrc) : (s.setFlt k1 v1).libNano = s.libNano := rfl
@[simp] theorem State.libNano_setCalSt (s : State) (n1 : Cluster) (v1 : CalSt) : (s.setCalSt n1 v1).libNano = s.libNano := rfl
@[simp] theorem State.libNano_setGov (s : State) (n1 : Cluster) (v1 : Gov) : (s.setGov n1 v1).libNano = s.libNano := rfl
@[simp] theorem State.bands_setReg (s : State) (r1 : Reg) (i1 : Nat) (v1 : Word) : (s.setReg r1 i1 v1).bands = s.bands := rfl
@[simp] theorem State.bands_setChan (s : State) (n1 : Cluster) (c1 : Channel) (v1 : Chan) : (s.setChan n1 c1 v1).bands = s.bands := rfl
@[simp] theorem State.bands_setSeq (s : State) (n1 : Cluster) (v1 : Seq) : (s.setSeq n1 v1).bands = s.bands := rfl
@[simp] theorem State.bands_setHop (s : State) (n1 : Cluster) (v1 : Hop) : (s.setHop n1 v1).bands = s.bands := rfl
@[simp] theorem State.bands_setStampQ (s : State) (n1 : Cluster) (v1 : List StampRec) : (s.setStampQ n1 v1).bands = s.bands := rfl
@[simp] theorem State.bands_setAwg (s : State) (n1 : Cluster) (g1 : Fin 2) (v1 : Awg) : (s.setAwg n1 g1 v1).bands = s.bands := rfl
@[simp] theorem State.bands_setTrig (s : State) (n1 : Cluster) (v1 : Trig) : (s.setTrig n1 v1).bands = s.bands := rfl
@[simp] theorem State.bands_setCpt (s : State) (n1 : Cluster) (e1 : Fin 2) (v1 : Cpt) : (s.setCpt n1 e1 v1).bands = s.bands := rfl
@[simp] theorem State.bands_setByte (s : State) (a1 : Nat) (v1 : Byte) : (s.setByte a1 v1).bands = s.bands := rfl
@[simp] theorem State.bands_setMicroAt (s : State) (n1 : Cluster) (a1 : Nat) (v1 : MWord) : (s.setMicroAt n1 a1 v1).bands = s.bands := rfl
@[simp] theorem State.bands_setNanoAt (s : State) (n1 : Cluster) (i1 : Nat) (v1 : NWord) : (s.setNanoAt n1 i1 v1).bands = s.bands := rfl
@[simp] theorem State.bands_setTxn (s : State) (h1 : Nat) (v1 : Txn) : (s.setTxn h1 v1).bands = s.bands := rfl
@[simp] theorem State.bands_setSem (s : State) (k1 : Nat) (v1 : SemSt) : (s.setSem k1 v1).bands = s.bands := rfl
@[simp] theorem State.bands_setFlt (s : State) (k1 : Nat) (v1 : FltSrc) : (s.setFlt k1 v1).bands = s.bands := rfl
@[simp] theorem State.bands_setCalSt (s : State) (n1 : Cluster) (v1 : CalSt) : (s.setCalSt n1 v1).bands = s.bands := rfl
@[simp] theorem State.bands_setGov (s : State) (n1 : Cluster) (v1 : Gov) : (s.setGov n1 v1).bands = s.bands := rfl
@[simp] theorem State.blankAt_setReg (s : State) (r1 : Reg) (i1 : Nat) (v1 : Word) : (s.setReg r1 i1 v1).blankAt = s.blankAt := rfl
@[simp] theorem State.blankAt_setChan (s : State) (n1 : Cluster) (c1 : Channel) (v1 : Chan) : (s.setChan n1 c1 v1).blankAt = s.blankAt := rfl
@[simp] theorem State.blankAt_setSeq (s : State) (n1 : Cluster) (v1 : Seq) : (s.setSeq n1 v1).blankAt = s.blankAt := rfl
@[simp] theorem State.blankAt_setHop (s : State) (n1 : Cluster) (v1 : Hop) : (s.setHop n1 v1).blankAt = s.blankAt := rfl
@[simp] theorem State.blankAt_setStampQ (s : State) (n1 : Cluster) (v1 : List StampRec) : (s.setStampQ n1 v1).blankAt = s.blankAt := rfl
@[simp] theorem State.blankAt_setAwg (s : State) (n1 : Cluster) (g1 : Fin 2) (v1 : Awg) : (s.setAwg n1 g1 v1).blankAt = s.blankAt := rfl
@[simp] theorem State.blankAt_setTrig (s : State) (n1 : Cluster) (v1 : Trig) : (s.setTrig n1 v1).blankAt = s.blankAt := rfl
@[simp] theorem State.blankAt_setCpt (s : State) (n1 : Cluster) (e1 : Fin 2) (v1 : Cpt) : (s.setCpt n1 e1 v1).blankAt = s.blankAt := rfl
@[simp] theorem State.blankAt_setByte (s : State) (a1 : Nat) (v1 : Byte) : (s.setByte a1 v1).blankAt = s.blankAt := rfl
@[simp] theorem State.blankAt_setMicroAt (s : State) (n1 : Cluster) (a1 : Nat) (v1 : MWord) : (s.setMicroAt n1 a1 v1).blankAt = s.blankAt := rfl
@[simp] theorem State.blankAt_setNanoAt (s : State) (n1 : Cluster) (i1 : Nat) (v1 : NWord) : (s.setNanoAt n1 i1 v1).blankAt = s.blankAt := rfl
@[simp] theorem State.blankAt_setTxn (s : State) (h1 : Nat) (v1 : Txn) : (s.setTxn h1 v1).blankAt = s.blankAt := rfl
@[simp] theorem State.blankAt_setSem (s : State) (k1 : Nat) (v1 : SemSt) : (s.setSem k1 v1).blankAt = s.blankAt := rfl
@[simp] theorem State.blankAt_setFlt (s : State) (k1 : Nat) (v1 : FltSrc) : (s.setFlt k1 v1).blankAt = s.blankAt := rfl
@[simp] theorem State.blankAt_setCalSt (s : State) (n1 : Cluster) (v1 : CalSt) : (s.setCalSt n1 v1).blankAt = s.blankAt := rfl
@[simp] theorem State.blankAt_setGov (s : State) (n1 : Cluster) (v1 : Gov) : (s.setGov n1 v1).blankAt = s.blankAt := rfl
@[simp] theorem State.awgTab_setReg (s : State) (r1 : Reg) (i1 : Nat) (v1 : Word) : (s.setReg r1 i1 v1).awgTab = s.awgTab := rfl
@[simp] theorem State.awgTab_setChan (s : State) (n1 : Cluster) (c1 : Channel) (v1 : Chan) : (s.setChan n1 c1 v1).awgTab = s.awgTab := rfl
@[simp] theorem State.awgTab_setSeq (s : State) (n1 : Cluster) (v1 : Seq) : (s.setSeq n1 v1).awgTab = s.awgTab := rfl
@[simp] theorem State.awgTab_setHop (s : State) (n1 : Cluster) (v1 : Hop) : (s.setHop n1 v1).awgTab = s.awgTab := rfl
@[simp] theorem State.awgTab_setStampQ (s : State) (n1 : Cluster) (v1 : List StampRec) : (s.setStampQ n1 v1).awgTab = s.awgTab := rfl
@[simp] theorem State.awgTab_setAwg (s : State) (n1 : Cluster) (g1 : Fin 2) (v1 : Awg) : (s.setAwg n1 g1 v1).awgTab = s.awgTab := rfl
@[simp] theorem State.awgTab_setTrig (s : State) (n1 : Cluster) (v1 : Trig) : (s.setTrig n1 v1).awgTab = s.awgTab := rfl
@[simp] theorem State.awgTab_setCpt (s : State) (n1 : Cluster) (e1 : Fin 2) (v1 : Cpt) : (s.setCpt n1 e1 v1).awgTab = s.awgTab := rfl
@[simp] theorem State.awgTab_setByte (s : State) (a1 : Nat) (v1 : Byte) : (s.setByte a1 v1).awgTab = s.awgTab := rfl
@[simp] theorem State.awgTab_setMicroAt (s : State) (n1 : Cluster) (a1 : Nat) (v1 : MWord) : (s.setMicroAt n1 a1 v1).awgTab = s.awgTab := rfl
@[simp] theorem State.awgTab_setNanoAt (s : State) (n1 : Cluster) (i1 : Nat) (v1 : NWord) : (s.setNanoAt n1 i1 v1).awgTab = s.awgTab := rfl
@[simp] theorem State.awgTab_setTxn (s : State) (h1 : Nat) (v1 : Txn) : (s.setTxn h1 v1).awgTab = s.awgTab := rfl
@[simp] theorem State.awgTab_setSem (s : State) (k1 : Nat) (v1 : SemSt) : (s.setSem k1 v1).awgTab = s.awgTab := rfl
@[simp] theorem State.awgTab_setFlt (s : State) (k1 : Nat) (v1 : FltSrc) : (s.setFlt k1 v1).awgTab = s.awgTab := rfl
@[simp] theorem State.awgTab_setCalSt (s : State) (n1 : Cluster) (v1 : CalSt) : (s.setCalSt n1 v1).awgTab = s.awgTab := rfl
@[simp] theorem State.awgTab_setGov (s : State) (n1 : Cluster) (v1 : Gov) : (s.setGov n1 v1).awgTab = s.awgTab := rfl
@[simp] theorem State.slcShadow_setReg (s : State) (r1 : Reg) (i1 : Nat) (v1 : Word) : (s.setReg r1 i1 v1).slcShadow = s.slcShadow := rfl
@[simp] theorem State.slcShadow_setChan (s : State) (n1 : Cluster) (c1 : Channel) (v1 : Chan) : (s.setChan n1 c1 v1).slcShadow = s.slcShadow := rfl
@[simp] theorem State.slcShadow_setSeq (s : State) (n1 : Cluster) (v1 : Seq) : (s.setSeq n1 v1).slcShadow = s.slcShadow := rfl
@[simp] theorem State.slcShadow_setHop (s : State) (n1 : Cluster) (v1 : Hop) : (s.setHop n1 v1).slcShadow = s.slcShadow := rfl
@[simp] theorem State.slcShadow_setStampQ (s : State) (n1 : Cluster) (v1 : List StampRec) : (s.setStampQ n1 v1).slcShadow = s.slcShadow := rfl
@[simp] theorem State.slcShadow_setAwg (s : State) (n1 : Cluster) (g1 : Fin 2) (v1 : Awg) : (s.setAwg n1 g1 v1).slcShadow = s.slcShadow := rfl
@[simp] theorem State.slcShadow_setTrig (s : State) (n1 : Cluster) (v1 : Trig) : (s.setTrig n1 v1).slcShadow = s.slcShadow := rfl
@[simp] theorem State.slcShadow_setCpt (s : State) (n1 : Cluster) (e1 : Fin 2) (v1 : Cpt) : (s.setCpt n1 e1 v1).slcShadow = s.slcShadow := rfl
@[simp] theorem State.slcShadow_setByte (s : State) (a1 : Nat) (v1 : Byte) : (s.setByte a1 v1).slcShadow = s.slcShadow := rfl
@[simp] theorem State.slcShadow_setMicroAt (s : State) (n1 : Cluster) (a1 : Nat) (v1 : MWord) : (s.setMicroAt n1 a1 v1).slcShadow = s.slcShadow := rfl
@[simp] theorem State.slcShadow_setNanoAt (s : State) (n1 : Cluster) (i1 : Nat) (v1 : NWord) : (s.setNanoAt n1 i1 v1).slcShadow = s.slcShadow := rfl
@[simp] theorem State.slcShadow_setTxn (s : State) (h1 : Nat) (v1 : Txn) : (s.setTxn h1 v1).slcShadow = s.slcShadow := rfl
@[simp] theorem State.slcShadow_setSem (s : State) (k1 : Nat) (v1 : SemSt) : (s.setSem k1 v1).slcShadow = s.slcShadow := rfl
@[simp] theorem State.slcShadow_setFlt (s : State) (k1 : Nat) (v1 : FltSrc) : (s.setFlt k1 v1).slcShadow = s.slcShadow := rfl
@[simp] theorem State.slcShadow_setCalSt (s : State) (n1 : Cluster) (v1 : CalSt) : (s.setCalSt n1 v1).slcShadow = s.slcShadow := rfl
@[simp] theorem State.slcShadow_setGov (s : State) (n1 : Cluster) (v1 : Gov) : (s.setGov n1 v1).slcShadow = s.slcShadow := rfl
@[simp] theorem State.slcActive_setReg (s : State) (r1 : Reg) (i1 : Nat) (v1 : Word) : (s.setReg r1 i1 v1).slcActive = s.slcActive := rfl
@[simp] theorem State.slcActive_setChan (s : State) (n1 : Cluster) (c1 : Channel) (v1 : Chan) : (s.setChan n1 c1 v1).slcActive = s.slcActive := rfl
@[simp] theorem State.slcActive_setSeq (s : State) (n1 : Cluster) (v1 : Seq) : (s.setSeq n1 v1).slcActive = s.slcActive := rfl
@[simp] theorem State.slcActive_setHop (s : State) (n1 : Cluster) (v1 : Hop) : (s.setHop n1 v1).slcActive = s.slcActive := rfl
@[simp] theorem State.slcActive_setStampQ (s : State) (n1 : Cluster) (v1 : List StampRec) : (s.setStampQ n1 v1).slcActive = s.slcActive := rfl
@[simp] theorem State.slcActive_setAwg (s : State) (n1 : Cluster) (g1 : Fin 2) (v1 : Awg) : (s.setAwg n1 g1 v1).slcActive = s.slcActive := rfl
@[simp] theorem State.slcActive_setTrig (s : State) (n1 : Cluster) (v1 : Trig) : (s.setTrig n1 v1).slcActive = s.slcActive := rfl
@[simp] theorem State.slcActive_setCpt (s : State) (n1 : Cluster) (e1 : Fin 2) (v1 : Cpt) : (s.setCpt n1 e1 v1).slcActive = s.slcActive := rfl
@[simp] theorem State.slcActive_setByte (s : State) (a1 : Nat) (v1 : Byte) : (s.setByte a1 v1).slcActive = s.slcActive := rfl
@[simp] theorem State.slcActive_setMicroAt (s : State) (n1 : Cluster) (a1 : Nat) (v1 : MWord) : (s.setMicroAt n1 a1 v1).slcActive = s.slcActive := rfl
@[simp] theorem State.slcActive_setNanoAt (s : State) (n1 : Cluster) (i1 : Nat) (v1 : NWord) : (s.setNanoAt n1 i1 v1).slcActive = s.slcActive := rfl
@[simp] theorem State.slcActive_setTxn (s : State) (h1 : Nat) (v1 : Txn) : (s.setTxn h1 v1).slcActive = s.slcActive := rfl
@[simp] theorem State.slcActive_setSem (s : State) (k1 : Nat) (v1 : SemSt) : (s.setSem k1 v1).slcActive = s.slcActive := rfl
@[simp] theorem State.slcActive_setFlt (s : State) (k1 : Nat) (v1 : FltSrc) : (s.setFlt k1 v1).slcActive = s.slcActive := rfl
@[simp] theorem State.slcActive_setCalSt (s : State) (n1 : Cluster) (v1 : CalSt) : (s.setCalSt n1 v1).slcActive = s.slcActive := rfl
@[simp] theorem State.slcActive_setGov (s : State) (n1 : Cluster) (v1 : Gov) : (s.setGov n1 v1).slcActive = s.slcActive := rfl
@[simp] theorem State.slcAt_setReg (s : State) (r1 : Reg) (i1 : Nat) (v1 : Word) : (s.setReg r1 i1 v1).slcAt = s.slcAt := rfl
@[simp] theorem State.slcAt_setChan (s : State) (n1 : Cluster) (c1 : Channel) (v1 : Chan) : (s.setChan n1 c1 v1).slcAt = s.slcAt := rfl
@[simp] theorem State.slcAt_setSeq (s : State) (n1 : Cluster) (v1 : Seq) : (s.setSeq n1 v1).slcAt = s.slcAt := rfl
@[simp] theorem State.slcAt_setHop (s : State) (n1 : Cluster) (v1 : Hop) : (s.setHop n1 v1).slcAt = s.slcAt := rfl
@[simp] theorem State.slcAt_setStampQ (s : State) (n1 : Cluster) (v1 : List StampRec) : (s.setStampQ n1 v1).slcAt = s.slcAt := rfl
@[simp] theorem State.slcAt_setAwg (s : State) (n1 : Cluster) (g1 : Fin 2) (v1 : Awg) : (s.setAwg n1 g1 v1).slcAt = s.slcAt := rfl
@[simp] theorem State.slcAt_setTrig (s : State) (n1 : Cluster) (v1 : Trig) : (s.setTrig n1 v1).slcAt = s.slcAt := rfl
@[simp] theorem State.slcAt_setCpt (s : State) (n1 : Cluster) (e1 : Fin 2) (v1 : Cpt) : (s.setCpt n1 e1 v1).slcAt = s.slcAt := rfl
@[simp] theorem State.slcAt_setByte (s : State) (a1 : Nat) (v1 : Byte) : (s.setByte a1 v1).slcAt = s.slcAt := rfl
@[simp] theorem State.slcAt_setMicroAt (s : State) (n1 : Cluster) (a1 : Nat) (v1 : MWord) : (s.setMicroAt n1 a1 v1).slcAt = s.slcAt := rfl
@[simp] theorem State.slcAt_setNanoAt (s : State) (n1 : Cluster) (i1 : Nat) (v1 : NWord) : (s.setNanoAt n1 i1 v1).slcAt = s.slcAt := rfl
@[simp] theorem State.slcAt_setTxn (s : State) (h1 : Nat) (v1 : Txn) : (s.setTxn h1 v1).slcAt = s.slcAt := rfl
@[simp] theorem State.slcAt_setSem (s : State) (k1 : Nat) (v1 : SemSt) : (s.setSem k1 v1).slcAt = s.slcAt := rfl
@[simp] theorem State.slcAt_setFlt (s : State) (k1 : Nat) (v1 : FltSrc) : (s.setFlt k1 v1).slcAt = s.slcAt := rfl
@[simp] theorem State.slcAt_setCalSt (s : State) (n1 : Cluster) (v1 : CalSt) : (s.setCalSt n1 v1).slcAt = s.slcAt := rfl
@[simp] theorem State.slcAt_setGov (s : State) (n1 : Cluster) (v1 : Gov) : (s.setGov n1 v1).slcAt = s.slcAt := rfl
@[simp] theorem State.slcFrame_setReg (s : State) (r1 : Reg) (i1 : Nat) (v1 : Word) : (s.setReg r1 i1 v1).slcFrame = s.slcFrame := rfl
@[simp] theorem State.slcFrame_setChan (s : State) (n1 : Cluster) (c1 : Channel) (v1 : Chan) : (s.setChan n1 c1 v1).slcFrame = s.slcFrame := rfl
@[simp] theorem State.slcFrame_setSeq (s : State) (n1 : Cluster) (v1 : Seq) : (s.setSeq n1 v1).slcFrame = s.slcFrame := rfl
@[simp] theorem State.slcFrame_setHop (s : State) (n1 : Cluster) (v1 : Hop) : (s.setHop n1 v1).slcFrame = s.slcFrame := rfl
@[simp] theorem State.slcFrame_setStampQ (s : State) (n1 : Cluster) (v1 : List StampRec) : (s.setStampQ n1 v1).slcFrame = s.slcFrame := rfl
@[simp] theorem State.slcFrame_setAwg (s : State) (n1 : Cluster) (g1 : Fin 2) (v1 : Awg) : (s.setAwg n1 g1 v1).slcFrame = s.slcFrame := rfl
@[simp] theorem State.slcFrame_setTrig (s : State) (n1 : Cluster) (v1 : Trig) : (s.setTrig n1 v1).slcFrame = s.slcFrame := rfl
@[simp] theorem State.slcFrame_setCpt (s : State) (n1 : Cluster) (e1 : Fin 2) (v1 : Cpt) : (s.setCpt n1 e1 v1).slcFrame = s.slcFrame := rfl
@[simp] theorem State.slcFrame_setByte (s : State) (a1 : Nat) (v1 : Byte) : (s.setByte a1 v1).slcFrame = s.slcFrame := rfl
@[simp] theorem State.slcFrame_setMicroAt (s : State) (n1 : Cluster) (a1 : Nat) (v1 : MWord) : (s.setMicroAt n1 a1 v1).slcFrame = s.slcFrame := rfl
@[simp] theorem State.slcFrame_setNanoAt (s : State) (n1 : Cluster) (i1 : Nat) (v1 : NWord) : (s.setNanoAt n1 i1 v1).slcFrame = s.slcFrame := rfl
@[simp] theorem State.slcFrame_setTxn (s : State) (h1 : Nat) (v1 : Txn) : (s.setTxn h1 v1).slcFrame = s.slcFrame := rfl
@[simp] theorem State.slcFrame_setSem (s : State) (k1 : Nat) (v1 : SemSt) : (s.setSem k1 v1).slcFrame = s.slcFrame := rfl
@[simp] theorem State.slcFrame_setFlt (s : State) (k1 : Nat) (v1 : FltSrc) : (s.setFlt k1 v1).slcFrame = s.slcFrame := rfl
@[simp] theorem State.slcFrame_setCalSt (s : State) (n1 : Cluster) (v1 : CalSt) : (s.setCalSt n1 v1).slcFrame = s.slcFrame := rfl
@[simp] theorem State.slcFrame_setGov (s : State) (n1 : Cluster) (v1 : Gov) : (s.setGov n1 v1).slcFrame = s.slcFrame := rfl
@[simp] theorem State.slcCnt_setReg (s : State) (r1 : Reg) (i1 : Nat) (v1 : Word) : (s.setReg r1 i1 v1).slcCnt = s.slcCnt := rfl
@[simp] theorem State.slcCnt_setChan (s : State) (n1 : Cluster) (c1 : Channel) (v1 : Chan) : (s.setChan n1 c1 v1).slcCnt = s.slcCnt := rfl
@[simp] theorem State.slcCnt_setSeq (s : State) (n1 : Cluster) (v1 : Seq) : (s.setSeq n1 v1).slcCnt = s.slcCnt := rfl
@[simp] theorem State.slcCnt_setHop (s : State) (n1 : Cluster) (v1 : Hop) : (s.setHop n1 v1).slcCnt = s.slcCnt := rfl
@[simp] theorem State.slcCnt_setStampQ (s : State) (n1 : Cluster) (v1 : List StampRec) : (s.setStampQ n1 v1).slcCnt = s.slcCnt := rfl
@[simp] theorem State.slcCnt_setAwg (s : State) (n1 : Cluster) (g1 : Fin 2) (v1 : Awg) : (s.setAwg n1 g1 v1).slcCnt = s.slcCnt := rfl
@[simp] theorem State.slcCnt_setTrig (s : State) (n1 : Cluster) (v1 : Trig) : (s.setTrig n1 v1).slcCnt = s.slcCnt := rfl
@[simp] theorem State.slcCnt_setCpt (s : State) (n1 : Cluster) (e1 : Fin 2) (v1 : Cpt) : (s.setCpt n1 e1 v1).slcCnt = s.slcCnt := rfl
@[simp] theorem State.slcCnt_setByte (s : State) (a1 : Nat) (v1 : Byte) : (s.setByte a1 v1).slcCnt = s.slcCnt := rfl
@[simp] theorem State.slcCnt_setMicroAt (s : State) (n1 : Cluster) (a1 : Nat) (v1 : MWord) : (s.setMicroAt n1 a1 v1).slcCnt = s.slcCnt := rfl
@[simp] theorem State.slcCnt_setNanoAt (s : State) (n1 : Cluster) (i1 : Nat) (v1 : NWord) : (s.setNanoAt n1 i1 v1).slcCnt = s.slcCnt := rfl
@[simp] theorem State.slcCnt_setTxn (s : State) (h1 : Nat) (v1 : Txn) : (s.setTxn h1 v1).slcCnt = s.slcCnt := rfl
@[simp] theorem State.slcCnt_setSem (s : State) (k1 : Nat) (v1 : SemSt) : (s.setSem k1 v1).slcCnt = s.slcCnt := rfl
@[simp] theorem State.slcCnt_setFlt (s : State) (k1 : Nat) (v1 : FltSrc) : (s.setFlt k1 v1).slcCnt = s.slcCnt := rfl
@[simp] theorem State.slcCnt_setCalSt (s : State) (n1 : Cluster) (v1 : CalSt) : (s.setCalSt n1 v1).slcCnt = s.slcCnt := rfl
@[simp] theorem State.slcCnt_setGov (s : State) (n1 : Cluster) (v1 : Gov) : (s.setGov n1 v1).slcCnt = s.slcCnt := rfl
@[simp] theorem State.lotTkt_setReg (s : State) (r1 : Reg) (i1 : Nat) (v1 : Word) : (s.setReg r1 i1 v1).lotTkt = s.lotTkt := rfl
@[simp] theorem State.lotTkt_setChan (s : State) (n1 : Cluster) (c1 : Channel) (v1 : Chan) : (s.setChan n1 c1 v1).lotTkt = s.lotTkt := rfl
@[simp] theorem State.lotTkt_setSeq (s : State) (n1 : Cluster) (v1 : Seq) : (s.setSeq n1 v1).lotTkt = s.lotTkt := rfl
@[simp] theorem State.lotTkt_setHop (s : State) (n1 : Cluster) (v1 : Hop) : (s.setHop n1 v1).lotTkt = s.lotTkt := rfl
@[simp] theorem State.lotTkt_setStampQ (s : State) (n1 : Cluster) (v1 : List StampRec) : (s.setStampQ n1 v1).lotTkt = s.lotTkt := rfl
@[simp] theorem State.lotTkt_setAwg (s : State) (n1 : Cluster) (g1 : Fin 2) (v1 : Awg) : (s.setAwg n1 g1 v1).lotTkt = s.lotTkt := rfl
@[simp] theorem State.lotTkt_setTrig (s : State) (n1 : Cluster) (v1 : Trig) : (s.setTrig n1 v1).lotTkt = s.lotTkt := rfl
@[simp] theorem State.lotTkt_setCpt (s : State) (n1 : Cluster) (e1 : Fin 2) (v1 : Cpt) : (s.setCpt n1 e1 v1).lotTkt = s.lotTkt := rfl
@[simp] theorem State.lotTkt_setByte (s : State) (a1 : Nat) (v1 : Byte) : (s.setByte a1 v1).lotTkt = s.lotTkt := rfl
@[simp] theorem State.lotTkt_setMicroAt (s : State) (n1 : Cluster) (a1 : Nat) (v1 : MWord) : (s.setMicroAt n1 a1 v1).lotTkt = s.lotTkt := rfl
@[simp] theorem State.lotTkt_setNanoAt (s : State) (n1 : Cluster) (i1 : Nat) (v1 : NWord) : (s.setNanoAt n1 i1 v1).lotTkt = s.lotTkt := rfl
@[simp] theorem State.lotTkt_setTxn (s : State) (h1 : Nat) (v1 : Txn) : (s.setTxn h1 v1).lotTkt = s.lotTkt := rfl
@[simp] theorem State.lotTkt_setSem (s : State) (k1 : Nat) (v1 : SemSt) : (s.setSem k1 v1).lotTkt = s.lotTkt := rfl
@[simp] theorem State.lotTkt_setFlt (s : State) (k1 : Nat) (v1 : FltSrc) : (s.setFlt k1 v1).lotTkt = s.lotTkt := rfl
@[simp] theorem State.lotTkt_setCalSt (s : State) (n1 : Cluster) (v1 : CalSt) : (s.setCalSt n1 v1).lotTkt = s.lotTkt := rfl
@[simp] theorem State.lotTkt_setGov (s : State) (n1 : Cluster) (v1 : Gov) : (s.setGov n1 v1).lotTkt = s.lotTkt := rfl
@[simp] theorem State.lotPend_setReg (s : State) (r1 : Reg) (i1 : Nat) (v1 : Word) : (s.setReg r1 i1 v1).lotPend = s.lotPend := rfl
@[simp] theorem State.lotPend_setChan (s : State) (n1 : Cluster) (c1 : Channel) (v1 : Chan) : (s.setChan n1 c1 v1).lotPend = s.lotPend := rfl
@[simp] theorem State.lotPend_setSeq (s : State) (n1 : Cluster) (v1 : Seq) : (s.setSeq n1 v1).lotPend = s.lotPend := rfl
@[simp] theorem State.lotPend_setHop (s : State) (n1 : Cluster) (v1 : Hop) : (s.setHop n1 v1).lotPend = s.lotPend := rfl
@[simp] theorem State.lotPend_setStampQ (s : State) (n1 : Cluster) (v1 : List StampRec) : (s.setStampQ n1 v1).lotPend = s.lotPend := rfl
@[simp] theorem State.lotPend_setAwg (s : State) (n1 : Cluster) (g1 : Fin 2) (v1 : Awg) : (s.setAwg n1 g1 v1).lotPend = s.lotPend := rfl
@[simp] theorem State.lotPend_setTrig (s : State) (n1 : Cluster) (v1 : Trig) : (s.setTrig n1 v1).lotPend = s.lotPend := rfl
@[simp] theorem State.lotPend_setCpt (s : State) (n1 : Cluster) (e1 : Fin 2) (v1 : Cpt) : (s.setCpt n1 e1 v1).lotPend = s.lotPend := rfl
@[simp] theorem State.lotPend_setByte (s : State) (a1 : Nat) (v1 : Byte) : (s.setByte a1 v1).lotPend = s.lotPend := rfl
@[simp] theorem State.lotPend_setMicroAt (s : State) (n1 : Cluster) (a1 : Nat) (v1 : MWord) : (s.setMicroAt n1 a1 v1).lotPend = s.lotPend := rfl
@[simp] theorem State.lotPend_setNanoAt (s : State) (n1 : Cluster) (i1 : Nat) (v1 : NWord) : (s.setNanoAt n1 i1 v1).lotPend = s.lotPend := rfl
@[simp] theorem State.lotPend_setTxn (s : State) (h1 : Nat) (v1 : Txn) : (s.setTxn h1 v1).lotPend = s.lotPend := rfl
@[simp] theorem State.lotPend_setSem (s : State) (k1 : Nat) (v1 : SemSt) : (s.setSem k1 v1).lotPend = s.lotPend := rfl
@[simp] theorem State.lotPend_setFlt (s : State) (k1 : Nat) (v1 : FltSrc) : (s.setFlt k1 v1).lotPend = s.lotPend := rfl
@[simp] theorem State.lotPend_setCalSt (s : State) (n1 : Cluster) (v1 : CalSt) : (s.setCalSt n1 v1).lotPend = s.lotPend := rfl
@[simp] theorem State.lotPend_setGov (s : State) (n1 : Cluster) (v1 : Gov) : (s.setGov n1 v1).lotPend = s.lotPend := rfl
@[simp] theorem State.lfsrAt_setReg (s : State) (r1 : Reg) (i1 : Nat) (v1 : Word) : (s.setReg r1 i1 v1).lfsrAt = s.lfsrAt := rfl
@[simp] theorem State.lfsrAt_setChan (s : State) (n1 : Cluster) (c1 : Channel) (v1 : Chan) : (s.setChan n1 c1 v1).lfsrAt = s.lfsrAt := rfl
@[simp] theorem State.lfsrAt_setSeq (s : State) (n1 : Cluster) (v1 : Seq) : (s.setSeq n1 v1).lfsrAt = s.lfsrAt := rfl
@[simp] theorem State.lfsrAt_setHop (s : State) (n1 : Cluster) (v1 : Hop) : (s.setHop n1 v1).lfsrAt = s.lfsrAt := rfl
@[simp] theorem State.lfsrAt_setStampQ (s : State) (n1 : Cluster) (v1 : List StampRec) : (s.setStampQ n1 v1).lfsrAt = s.lfsrAt := rfl
@[simp] theorem State.lfsrAt_setAwg (s : State) (n1 : Cluster) (g1 : Fin 2) (v1 : Awg) : (s.setAwg n1 g1 v1).lfsrAt = s.lfsrAt := rfl
@[simp] theorem State.lfsrAt_setTrig (s : State) (n1 : Cluster) (v1 : Trig) : (s.setTrig n1 v1).lfsrAt = s.lfsrAt := rfl
@[simp] theorem State.lfsrAt_setCpt (s : State) (n1 : Cluster) (e1 : Fin 2) (v1 : Cpt) : (s.setCpt n1 e1 v1).lfsrAt = s.lfsrAt := rfl
@[simp] theorem State.lfsrAt_setByte (s : State) (a1 : Nat) (v1 : Byte) : (s.setByte a1 v1).lfsrAt = s.lfsrAt := rfl
@[simp] theorem State.lfsrAt_setMicroAt (s : State) (n1 : Cluster) (a1 : Nat) (v1 : MWord) : (s.setMicroAt n1 a1 v1).lfsrAt = s.lfsrAt := rfl
@[simp] theorem State.lfsrAt_setNanoAt (s : State) (n1 : Cluster) (i1 : Nat) (v1 : NWord) : (s.setNanoAt n1 i1 v1).lfsrAt = s.lfsrAt := rfl
@[simp] theorem State.lfsrAt_setTxn (s : State) (h1 : Nat) (v1 : Txn) : (s.setTxn h1 v1).lfsrAt = s.lfsrAt := rfl
@[simp] theorem State.lfsrAt_setSem (s : State) (k1 : Nat) (v1 : SemSt) : (s.setSem k1 v1).lfsrAt = s.lfsrAt := rfl
@[simp] theorem State.lfsrAt_setFlt (s : State) (k1 : Nat) (v1 : FltSrc) : (s.setFlt k1 v1).lfsrAt = s.lfsrAt := rfl
@[simp] theorem State.lfsrAt_setCalSt (s : State) (n1 : Cluster) (v1 : CalSt) : (s.setCalSt n1 v1).lfsrAt = s.lfsrAt := rfl
@[simp] theorem State.lfsrAt_setGov (s : State) (n1 : Cluster) (v1 : Gov) : (s.setGov n1 v1).lfsrAt = s.lfsrAt := rfl
@[simp] theorem State.present_setReg (s : State) (r1 : Reg) (i1 : Nat) (v1 : Word) : (s.setReg r1 i1 v1).present = s.present := rfl
@[simp] theorem State.present_setChan (s : State) (n1 : Cluster) (c1 : Channel) (v1 : Chan) : (s.setChan n1 c1 v1).present = s.present := rfl
@[simp] theorem State.present_setSeq (s : State) (n1 : Cluster) (v1 : Seq) : (s.setSeq n1 v1).present = s.present := rfl
@[simp] theorem State.present_setHop (s : State) (n1 : Cluster) (v1 : Hop) : (s.setHop n1 v1).present = s.present := rfl
@[simp] theorem State.present_setStampQ (s : State) (n1 : Cluster) (v1 : List StampRec) : (s.setStampQ n1 v1).present = s.present := rfl
@[simp] theorem State.present_setAwg (s : State) (n1 : Cluster) (g1 : Fin 2) (v1 : Awg) : (s.setAwg n1 g1 v1).present = s.present := rfl
@[simp] theorem State.present_setTrig (s : State) (n1 : Cluster) (v1 : Trig) : (s.setTrig n1 v1).present = s.present := rfl
@[simp] theorem State.present_setCpt (s : State) (n1 : Cluster) (e1 : Fin 2) (v1 : Cpt) : (s.setCpt n1 e1 v1).present = s.present := rfl
@[simp] theorem State.present_setByte (s : State) (a1 : Nat) (v1 : Byte) : (s.setByte a1 v1).present = s.present := rfl
@[simp] theorem State.present_setMicroAt (s : State) (n1 : Cluster) (a1 : Nat) (v1 : MWord) : (s.setMicroAt n1 a1 v1).present = s.present := rfl
@[simp] theorem State.present_setNanoAt (s : State) (n1 : Cluster) (i1 : Nat) (v1 : NWord) : (s.setNanoAt n1 i1 v1).present = s.present := rfl
@[simp] theorem State.present_setTxn (s : State) (h1 : Nat) (v1 : Txn) : (s.setTxn h1 v1).present = s.present := rfl
@[simp] theorem State.present_setSem (s : State) (k1 : Nat) (v1 : SemSt) : (s.setSem k1 v1).present = s.present := rfl
@[simp] theorem State.present_setFlt (s : State) (k1 : Nat) (v1 : FltSrc) : (s.setFlt k1 v1).present = s.present := rfl
@[simp] theorem State.present_setCalSt (s : State) (n1 : Cluster) (v1 : CalSt) : (s.setCalSt n1 v1).present = s.present := rfl
@[simp] theorem State.present_setGov (s : State) (n1 : Cluster) (v1 : Gov) : (s.setGov n1 v1).present = s.present := rfl
@[simp] theorem State.waiting_setReg (s : State) (r1 : Reg) (i1 : Nat) (v1 : Word) : (s.setReg r1 i1 v1).waiting = s.waiting := rfl
@[simp] theorem State.waiting_setChan (s : State) (n1 : Cluster) (c1 : Channel) (v1 : Chan) : (s.setChan n1 c1 v1).waiting = s.waiting := rfl
@[simp] theorem State.waiting_setSeq (s : State) (n1 : Cluster) (v1 : Seq) : (s.setSeq n1 v1).waiting = s.waiting := rfl
@[simp] theorem State.waiting_setHop (s : State) (n1 : Cluster) (v1 : Hop) : (s.setHop n1 v1).waiting = s.waiting := rfl
@[simp] theorem State.waiting_setStampQ (s : State) (n1 : Cluster) (v1 : List StampRec) : (s.setStampQ n1 v1).waiting = s.waiting := rfl
@[simp] theorem State.waiting_setAwg (s : State) (n1 : Cluster) (g1 : Fin 2) (v1 : Awg) : (s.setAwg n1 g1 v1).waiting = s.waiting := rfl
@[simp] theorem State.waiting_setTrig (s : State) (n1 : Cluster) (v1 : Trig) : (s.setTrig n1 v1).waiting = s.waiting := rfl
@[simp] theorem State.waiting_setCpt (s : State) (n1 : Cluster) (e1 : Fin 2) (v1 : Cpt) : (s.setCpt n1 e1 v1).waiting = s.waiting := rfl
@[simp] theorem State.waiting_setByte (s : State) (a1 : Nat) (v1 : Byte) : (s.setByte a1 v1).waiting = s.waiting := rfl
@[simp] theorem State.waiting_setMicroAt (s : State) (n1 : Cluster) (a1 : Nat) (v1 : MWord) : (s.setMicroAt n1 a1 v1).waiting = s.waiting := rfl
@[simp] theorem State.waiting_setNanoAt (s : State) (n1 : Cluster) (i1 : Nat) (v1 : NWord) : (s.setNanoAt n1 i1 v1).waiting = s.waiting := rfl
@[simp] theorem State.waiting_setTxn (s : State) (h1 : Nat) (v1 : Txn) : (s.setTxn h1 v1).waiting = s.waiting := rfl
@[simp] theorem State.waiting_setSem (s : State) (k1 : Nat) (v1 : SemSt) : (s.setSem k1 v1).waiting = s.waiting := rfl
@[simp] theorem State.waiting_setFlt (s : State) (k1 : Nat) (v1 : FltSrc) : (s.setFlt k1 v1).waiting = s.waiting := rfl
@[simp] theorem State.waiting_setCalSt (s : State) (n1 : Cluster) (v1 : CalSt) : (s.setCalSt n1 v1).waiting = s.waiting := rfl
@[simp] theorem State.waiting_setGov (s : State) (n1 : Cluster) (v1 : Gov) : (s.setGov n1 v1).waiting = s.waiting := rfl
@[simp] theorem State.grants_setReg (s : State) (r1 : Reg) (i1 : Nat) (v1 : Word) : (s.setReg r1 i1 v1).grants = s.grants := rfl
@[simp] theorem State.grants_setChan (s : State) (n1 : Cluster) (c1 : Channel) (v1 : Chan) : (s.setChan n1 c1 v1).grants = s.grants := rfl
@[simp] theorem State.grants_setSeq (s : State) (n1 : Cluster) (v1 : Seq) : (s.setSeq n1 v1).grants = s.grants := rfl
@[simp] theorem State.grants_setHop (s : State) (n1 : Cluster) (v1 : Hop) : (s.setHop n1 v1).grants = s.grants := rfl
@[simp] theorem State.grants_setStampQ (s : State) (n1 : Cluster) (v1 : List StampRec) : (s.setStampQ n1 v1).grants = s.grants := rfl
@[simp] theorem State.grants_setAwg (s : State) (n1 : Cluster) (g1 : Fin 2) (v1 : Awg) : (s.setAwg n1 g1 v1).grants = s.grants := rfl
@[simp] theorem State.grants_setTrig (s : State) (n1 : Cluster) (v1 : Trig) : (s.setTrig n1 v1).grants = s.grants := rfl
@[simp] theorem State.grants_setCpt (s : State) (n1 : Cluster) (e1 : Fin 2) (v1 : Cpt) : (s.setCpt n1 e1 v1).grants = s.grants := rfl
@[simp] theorem State.grants_setByte (s : State) (a1 : Nat) (v1 : Byte) : (s.setByte a1 v1).grants = s.grants := rfl
@[simp] theorem State.grants_setMicroAt (s : State) (n1 : Cluster) (a1 : Nat) (v1 : MWord) : (s.setMicroAt n1 a1 v1).grants = s.grants := rfl
@[simp] theorem State.grants_setNanoAt (s : State) (n1 : Cluster) (i1 : Nat) (v1 : NWord) : (s.setNanoAt n1 i1 v1).grants = s.grants := rfl
@[simp] theorem State.grants_setTxn (s : State) (h1 : Nat) (v1 : Txn) : (s.setTxn h1 v1).grants = s.grants := rfl
@[simp] theorem State.grants_setSem (s : State) (k1 : Nat) (v1 : SemSt) : (s.setSem k1 v1).grants = s.grants := rfl
@[simp] theorem State.grants_setFlt (s : State) (k1 : Nat) (v1 : FltSrc) : (s.setFlt k1 v1).grants = s.grants := rfl
@[simp] theorem State.grants_setCalSt (s : State) (n1 : Cluster) (v1 : CalSt) : (s.setCalSt n1 v1).grants = s.grants := rfl
@[simp] theorem State.grants_setGov (s : State) (n1 : Cluster) (v1 : Gov) : (s.setGov n1 v1).grants = s.grants := rfl
@[simp] theorem State.atoms_setReg (s : State) (r1 : Reg) (i1 : Nat) (v1 : Word) : (s.setReg r1 i1 v1).atoms = s.atoms := rfl
@[simp] theorem State.atoms_setChan (s : State) (n1 : Cluster) (c1 : Channel) (v1 : Chan) : (s.setChan n1 c1 v1).atoms = s.atoms := rfl
@[simp] theorem State.atoms_setSeq (s : State) (n1 : Cluster) (v1 : Seq) : (s.setSeq n1 v1).atoms = s.atoms := rfl
@[simp] theorem State.atoms_setHop (s : State) (n1 : Cluster) (v1 : Hop) : (s.setHop n1 v1).atoms = s.atoms := rfl
@[simp] theorem State.atoms_setStampQ (s : State) (n1 : Cluster) (v1 : List StampRec) : (s.setStampQ n1 v1).atoms = s.atoms := rfl
@[simp] theorem State.atoms_setAwg (s : State) (n1 : Cluster) (g1 : Fin 2) (v1 : Awg) : (s.setAwg n1 g1 v1).atoms = s.atoms := rfl
@[simp] theorem State.atoms_setTrig (s : State) (n1 : Cluster) (v1 : Trig) : (s.setTrig n1 v1).atoms = s.atoms := rfl
@[simp] theorem State.atoms_setCpt (s : State) (n1 : Cluster) (e1 : Fin 2) (v1 : Cpt) : (s.setCpt n1 e1 v1).atoms = s.atoms := rfl
@[simp] theorem State.atoms_setByte (s : State) (a1 : Nat) (v1 : Byte) : (s.setByte a1 v1).atoms = s.atoms := rfl
@[simp] theorem State.atoms_setMicroAt (s : State) (n1 : Cluster) (a1 : Nat) (v1 : MWord) : (s.setMicroAt n1 a1 v1).atoms = s.atoms := rfl
@[simp] theorem State.atoms_setNanoAt (s : State) (n1 : Cluster) (i1 : Nat) (v1 : NWord) : (s.setNanoAt n1 i1 v1).atoms = s.atoms := rfl
@[simp] theorem State.atoms_setTxn (s : State) (h1 : Nat) (v1 : Txn) : (s.setTxn h1 v1).atoms = s.atoms := rfl
@[simp] theorem State.atoms_setSem (s : State) (k1 : Nat) (v1 : SemSt) : (s.setSem k1 v1).atoms = s.atoms := rfl
@[simp] theorem State.atoms_setFlt (s : State) (k1 : Nat) (v1 : FltSrc) : (s.setFlt k1 v1).atoms = s.atoms := rfl
@[simp] theorem State.atoms_setCalSt (s : State) (n1 : Cluster) (v1 : CalSt) : (s.setCalSt n1 v1).atoms = s.atoms := rfl
@[simp] theorem State.atoms_setGov (s : State) (n1 : Cluster) (v1 : Gov) : (s.setGov n1 v1).atoms = s.atoms := rfl
@[simp] theorem State.cap_setReg (s : State) (r1 : Reg) (i1 : Nat) (v1 : Word) : (s.setReg r1 i1 v1).cap = s.cap := rfl
@[simp] theorem State.cap_setChan (s : State) (n1 : Cluster) (c1 : Channel) (v1 : Chan) : (s.setChan n1 c1 v1).cap = s.cap := rfl
@[simp] theorem State.cap_setSeq (s : State) (n1 : Cluster) (v1 : Seq) : (s.setSeq n1 v1).cap = s.cap := rfl
@[simp] theorem State.cap_setHop (s : State) (n1 : Cluster) (v1 : Hop) : (s.setHop n1 v1).cap = s.cap := rfl
@[simp] theorem State.cap_setStampQ (s : State) (n1 : Cluster) (v1 : List StampRec) : (s.setStampQ n1 v1).cap = s.cap := rfl
@[simp] theorem State.cap_setAwg (s : State) (n1 : Cluster) (g1 : Fin 2) (v1 : Awg) : (s.setAwg n1 g1 v1).cap = s.cap := rfl
@[simp] theorem State.cap_setTrig (s : State) (n1 : Cluster) (v1 : Trig) : (s.setTrig n1 v1).cap = s.cap := rfl
@[simp] theorem State.cap_setCpt (s : State) (n1 : Cluster) (e1 : Fin 2) (v1 : Cpt) : (s.setCpt n1 e1 v1).cap = s.cap := rfl
@[simp] theorem State.cap_setByte (s : State) (a1 : Nat) (v1 : Byte) : (s.setByte a1 v1).cap = s.cap := rfl
@[simp] theorem State.cap_setMicroAt (s : State) (n1 : Cluster) (a1 : Nat) (v1 : MWord) : (s.setMicroAt n1 a1 v1).cap = s.cap := rfl
@[simp] theorem State.cap_setNanoAt (s : State) (n1 : Cluster) (i1 : Nat) (v1 : NWord) : (s.setNanoAt n1 i1 v1).cap = s.cap := rfl
@[simp] theorem State.cap_setTxn (s : State) (h1 : Nat) (v1 : Txn) : (s.setTxn h1 v1).cap = s.cap := rfl
@[simp] theorem State.cap_setSem (s : State) (k1 : Nat) (v1 : SemSt) : (s.setSem k1 v1).cap = s.cap := rfl
@[simp] theorem State.cap_setFlt (s : State) (k1 : Nat) (v1 : FltSrc) : (s.setFlt k1 v1).cap = s.cap := rfl
@[simp] theorem State.cap_setCalSt (s : State) (n1 : Cluster) (v1 : CalSt) : (s.setCalSt n1 v1).cap = s.cap := rfl
@[simp] theorem State.cap_setGov (s : State) (n1 : Cluster) (v1 : Gov) : (s.setGov n1 v1).cap = s.cap := rfl
@[simp] theorem State.msix_setReg (s : State) (r1 : Reg) (i1 : Nat) (v1 : Word) : (s.setReg r1 i1 v1).msix = s.msix := rfl
@[simp] theorem State.msix_setChan (s : State) (n1 : Cluster) (c1 : Channel) (v1 : Chan) : (s.setChan n1 c1 v1).msix = s.msix := rfl
@[simp] theorem State.msix_setSeq (s : State) (n1 : Cluster) (v1 : Seq) : (s.setSeq n1 v1).msix = s.msix := rfl
@[simp] theorem State.msix_setHop (s : State) (n1 : Cluster) (v1 : Hop) : (s.setHop n1 v1).msix = s.msix := rfl
@[simp] theorem State.msix_setStampQ (s : State) (n1 : Cluster) (v1 : List StampRec) : (s.setStampQ n1 v1).msix = s.msix := rfl
@[simp] theorem State.msix_setAwg (s : State) (n1 : Cluster) (g1 : Fin 2) (v1 : Awg) : (s.setAwg n1 g1 v1).msix = s.msix := rfl
@[simp] theorem State.msix_setTrig (s : State) (n1 : Cluster) (v1 : Trig) : (s.setTrig n1 v1).msix = s.msix := rfl
@[simp] theorem State.msix_setCpt (s : State) (n1 : Cluster) (e1 : Fin 2) (v1 : Cpt) : (s.setCpt n1 e1 v1).msix = s.msix := rfl
@[simp] theorem State.msix_setByte (s : State) (a1 : Nat) (v1 : Byte) : (s.setByte a1 v1).msix = s.msix := rfl
@[simp] theorem State.msix_setMicroAt (s : State) (n1 : Cluster) (a1 : Nat) (v1 : MWord) : (s.setMicroAt n1 a1 v1).msix = s.msix := rfl
@[simp] theorem State.msix_setNanoAt (s : State) (n1 : Cluster) (i1 : Nat) (v1 : NWord) : (s.setNanoAt n1 i1 v1).msix = s.msix := rfl
@[simp] theorem State.msix_setTxn (s : State) (h1 : Nat) (v1 : Txn) : (s.setTxn h1 v1).msix = s.msix := rfl
@[simp] theorem State.msix_setSem (s : State) (k1 : Nat) (v1 : SemSt) : (s.setSem k1 v1).msix = s.msix := rfl
@[simp] theorem State.msix_setFlt (s : State) (k1 : Nat) (v1 : FltSrc) : (s.setFlt k1 v1).msix = s.msix := rfl
@[simp] theorem State.msix_setCalSt (s : State) (n1 : Cluster) (v1 : CalSt) : (s.setCalSt n1 v1).msix = s.msix := rfl
@[simp] theorem State.msix_setGov (s : State) (n1 : Cluster) (v1 : Gov) : (s.setGov n1 v1).msix = s.msix := rfl
@[simp] theorem State.pba_setReg (s : State) (r1 : Reg) (i1 : Nat) (v1 : Word) : (s.setReg r1 i1 v1).pba = s.pba := rfl
@[simp] theorem State.pba_setChan (s : State) (n1 : Cluster) (c1 : Channel) (v1 : Chan) : (s.setChan n1 c1 v1).pba = s.pba := rfl
@[simp] theorem State.pba_setSeq (s : State) (n1 : Cluster) (v1 : Seq) : (s.setSeq n1 v1).pba = s.pba := rfl
@[simp] theorem State.pba_setHop (s : State) (n1 : Cluster) (v1 : Hop) : (s.setHop n1 v1).pba = s.pba := rfl
@[simp] theorem State.pba_setStampQ (s : State) (n1 : Cluster) (v1 : List StampRec) : (s.setStampQ n1 v1).pba = s.pba := rfl
@[simp] theorem State.pba_setAwg (s : State) (n1 : Cluster) (g1 : Fin 2) (v1 : Awg) : (s.setAwg n1 g1 v1).pba = s.pba := rfl
@[simp] theorem State.pba_setTrig (s : State) (n1 : Cluster) (v1 : Trig) : (s.setTrig n1 v1).pba = s.pba := rfl
@[simp] theorem State.pba_setCpt (s : State) (n1 : Cluster) (e1 : Fin 2) (v1 : Cpt) : (s.setCpt n1 e1 v1).pba = s.pba := rfl
@[simp] theorem State.pba_setByte (s : State) (a1 : Nat) (v1 : Byte) : (s.setByte a1 v1).pba = s.pba := rfl
@[simp] theorem State.pba_setMicroAt (s : State) (n1 : Cluster) (a1 : Nat) (v1 : MWord) : (s.setMicroAt n1 a1 v1).pba = s.pba := rfl
@[simp] theorem State.pba_setNanoAt (s : State) (n1 : Cluster) (i1 : Nat) (v1 : NWord) : (s.setNanoAt n1 i1 v1).pba = s.pba := rfl
@[simp] theorem State.pba_setTxn (s : State) (h1 : Nat) (v1 : Txn) : (s.setTxn h1 v1).pba = s.pba := rfl
@[simp] theorem State.pba_setSem (s : State) (k1 : Nat) (v1 : SemSt) : (s.setSem k1 v1).pba = s.pba := rfl
@[simp] theorem State.pba_setFlt (s : State) (k1 : Nat) (v1 : FltSrc) : (s.setFlt k1 v1).pba = s.pba := rfl
@[simp] theorem State.pba_setCalSt (s : State) (n1 : Cluster) (v1 : CalSt) : (s.setCalSt n1 v1).pba = s.pba := rfl
@[simp] theorem State.pba_setGov (s : State) (n1 : Cluster) (v1 : Gov) : (s.setGov n1 v1).pba = s.pba := rfl
@[simp] theorem State.hiLatch_setReg (s : State) (r1 : Reg) (i1 : Nat) (v1 : Word) : (s.setReg r1 i1 v1).hiLatch = s.hiLatch := rfl
@[simp] theorem State.hiLatch_setChan (s : State) (n1 : Cluster) (c1 : Channel) (v1 : Chan) : (s.setChan n1 c1 v1).hiLatch = s.hiLatch := rfl
@[simp] theorem State.hiLatch_setSeq (s : State) (n1 : Cluster) (v1 : Seq) : (s.setSeq n1 v1).hiLatch = s.hiLatch := rfl
@[simp] theorem State.hiLatch_setHop (s : State) (n1 : Cluster) (v1 : Hop) : (s.setHop n1 v1).hiLatch = s.hiLatch := rfl
@[simp] theorem State.hiLatch_setStampQ (s : State) (n1 : Cluster) (v1 : List StampRec) : (s.setStampQ n1 v1).hiLatch = s.hiLatch := rfl
@[simp] theorem State.hiLatch_setAwg (s : State) (n1 : Cluster) (g1 : Fin 2) (v1 : Awg) : (s.setAwg n1 g1 v1).hiLatch = s.hiLatch := rfl
@[simp] theorem State.hiLatch_setTrig (s : State) (n1 : Cluster) (v1 : Trig) : (s.setTrig n1 v1).hiLatch = s.hiLatch := rfl
@[simp] theorem State.hiLatch_setCpt (s : State) (n1 : Cluster) (e1 : Fin 2) (v1 : Cpt) : (s.setCpt n1 e1 v1).hiLatch = s.hiLatch := rfl
@[simp] theorem State.hiLatch_setByte (s : State) (a1 : Nat) (v1 : Byte) : (s.setByte a1 v1).hiLatch = s.hiLatch := rfl
@[simp] theorem State.hiLatch_setMicroAt (s : State) (n1 : Cluster) (a1 : Nat) (v1 : MWord) : (s.setMicroAt n1 a1 v1).hiLatch = s.hiLatch := rfl
@[simp] theorem State.hiLatch_setNanoAt (s : State) (n1 : Cluster) (i1 : Nat) (v1 : NWord) : (s.setNanoAt n1 i1 v1).hiLatch = s.hiLatch := rfl
@[simp] theorem State.hiLatch_setTxn (s : State) (h1 : Nat) (v1 : Txn) : (s.setTxn h1 v1).hiLatch = s.hiLatch := rfl
@[simp] theorem State.hiLatch_setSem (s : State) (k1 : Nat) (v1 : SemSt) : (s.setSem k1 v1).hiLatch = s.hiLatch := rfl
@[simp] theorem State.hiLatch_setFlt (s : State) (k1 : Nat) (v1 : FltSrc) : (s.setFlt k1 v1).hiLatch = s.hiLatch := rfl
@[simp] theorem State.hiLatch_setCalSt (s : State) (n1 : Cluster) (v1 : CalSt) : (s.setCalSt n1 v1).hiLatch = s.hiLatch := rfl
@[simp] theorem State.hiLatch_setGov (s : State) (n1 : Cluster) (v1 : Gov) : (s.setGov n1 v1).hiLatch = s.hiLatch := rfl
@[simp] theorem State.ring_setReg (s : State) (r1 : Reg) (i1 : Nat) (v1 : Word) : (s.setReg r1 i1 v1).ring = s.ring := rfl
@[simp] theorem State.ring_setChan (s : State) (n1 : Cluster) (c1 : Channel) (v1 : Chan) : (s.setChan n1 c1 v1).ring = s.ring := rfl
@[simp] theorem State.ring_setSeq (s : State) (n1 : Cluster) (v1 : Seq) : (s.setSeq n1 v1).ring = s.ring := rfl
@[simp] theorem State.ring_setHop (s : State) (n1 : Cluster) (v1 : Hop) : (s.setHop n1 v1).ring = s.ring := rfl
@[simp] theorem State.ring_setStampQ (s : State) (n1 : Cluster) (v1 : List StampRec) : (s.setStampQ n1 v1).ring = s.ring := rfl
@[simp] theorem State.ring_setAwg (s : State) (n1 : Cluster) (g1 : Fin 2) (v1 : Awg) : (s.setAwg n1 g1 v1).ring = s.ring := rfl
@[simp] theorem State.ring_setTrig (s : State) (n1 : Cluster) (v1 : Trig) : (s.setTrig n1 v1).ring = s.ring := rfl
@[simp] theorem State.ring_setCpt (s : State) (n1 : Cluster) (e1 : Fin 2) (v1 : Cpt) : (s.setCpt n1 e1 v1).ring = s.ring := rfl
@[simp] theorem State.ring_setByte (s : State) (a1 : Nat) (v1 : Byte) : (s.setByte a1 v1).ring = s.ring := rfl
@[simp] theorem State.ring_setMicroAt (s : State) (n1 : Cluster) (a1 : Nat) (v1 : MWord) : (s.setMicroAt n1 a1 v1).ring = s.ring := rfl
@[simp] theorem State.ring_setNanoAt (s : State) (n1 : Cluster) (i1 : Nat) (v1 : NWord) : (s.setNanoAt n1 i1 v1).ring = s.ring := rfl
@[simp] theorem State.ring_setTxn (s : State) (h1 : Nat) (v1 : Txn) : (s.setTxn h1 v1).ring = s.ring := rfl
@[simp] theorem State.ring_setSem (s : State) (k1 : Nat) (v1 : SemSt) : (s.setSem k1 v1).ring = s.ring := rfl
@[simp] theorem State.ring_setFlt (s : State) (k1 : Nat) (v1 : FltSrc) : (s.setFlt k1 v1).ring = s.ring := rfl
@[simp] theorem State.ring_setCalSt (s : State) (n1 : Cluster) (v1 : CalSt) : (s.setCalSt n1 v1).ring = s.ring := rfl
@[simp] theorem State.ring_setGov (s : State) (n1 : Cluster) (v1 : Gov) : (s.setGov n1 v1).ring = s.ring := rfl
@[simp] theorem State.pwr_setReg (s : State) (r1 : Reg) (i1 : Nat) (v1 : Word) : (s.setReg r1 i1 v1).pwr = s.pwr := rfl
@[simp] theorem State.pwr_setChan (s : State) (n1 : Cluster) (c1 : Channel) (v1 : Chan) : (s.setChan n1 c1 v1).pwr = s.pwr := rfl
@[simp] theorem State.pwr_setSeq (s : State) (n1 : Cluster) (v1 : Seq) : (s.setSeq n1 v1).pwr = s.pwr := rfl
@[simp] theorem State.pwr_setHop (s : State) (n1 : Cluster) (v1 : Hop) : (s.setHop n1 v1).pwr = s.pwr := rfl
@[simp] theorem State.pwr_setStampQ (s : State) (n1 : Cluster) (v1 : List StampRec) : (s.setStampQ n1 v1).pwr = s.pwr := rfl
@[simp] theorem State.pwr_setAwg (s : State) (n1 : Cluster) (g1 : Fin 2) (v1 : Awg) : (s.setAwg n1 g1 v1).pwr = s.pwr := rfl
@[simp] theorem State.pwr_setTrig (s : State) (n1 : Cluster) (v1 : Trig) : (s.setTrig n1 v1).pwr = s.pwr := rfl
@[simp] theorem State.pwr_setCpt (s : State) (n1 : Cluster) (e1 : Fin 2) (v1 : Cpt) : (s.setCpt n1 e1 v1).pwr = s.pwr := rfl
@[simp] theorem State.pwr_setByte (s : State) (a1 : Nat) (v1 : Byte) : (s.setByte a1 v1).pwr = s.pwr := rfl
@[simp] theorem State.pwr_setMicroAt (s : State) (n1 : Cluster) (a1 : Nat) (v1 : MWord) : (s.setMicroAt n1 a1 v1).pwr = s.pwr := rfl
@[simp] theorem State.pwr_setNanoAt (s : State) (n1 : Cluster) (i1 : Nat) (v1 : NWord) : (s.setNanoAt n1 i1 v1).pwr = s.pwr := rfl
@[simp] theorem State.pwr_setTxn (s : State) (h1 : Nat) (v1 : Txn) : (s.setTxn h1 v1).pwr = s.pwr := rfl
@[simp] theorem State.pwr_setSem (s : State) (k1 : Nat) (v1 : SemSt) : (s.setSem k1 v1).pwr = s.pwr := rfl
@[simp] theorem State.pwr_setFlt (s : State) (k1 : Nat) (v1 : FltSrc) : (s.setFlt k1 v1).pwr = s.pwr := rfl
@[simp] theorem State.pwr_setCalSt (s : State) (n1 : Cluster) (v1 : CalSt) : (s.setCalSt n1 v1).pwr = s.pwr := rfl
@[simp] theorem State.pwr_setGov (s : State) (n1 : Cluster) (v1 : Gov) : (s.setGov n1 v1).pwr = s.pwr := rfl
@[simp] theorem State.boot_setReg (s : State) (r1 : Reg) (i1 : Nat) (v1 : Word) : (s.setReg r1 i1 v1).boot = s.boot := rfl
@[simp] theorem State.boot_setChan (s : State) (n1 : Cluster) (c1 : Channel) (v1 : Chan) : (s.setChan n1 c1 v1).boot = s.boot := rfl
@[simp] theorem State.boot_setSeq (s : State) (n1 : Cluster) (v1 : Seq) : (s.setSeq n1 v1).boot = s.boot := rfl
@[simp] theorem State.boot_setHop (s : State) (n1 : Cluster) (v1 : Hop) : (s.setHop n1 v1).boot = s.boot := rfl
@[simp] theorem State.boot_setStampQ (s : State) (n1 : Cluster) (v1 : List StampRec) : (s.setStampQ n1 v1).boot = s.boot := rfl
@[simp] theorem State.boot_setAwg (s : State) (n1 : Cluster) (g1 : Fin 2) (v1 : Awg) : (s.setAwg n1 g1 v1).boot = s.boot := rfl
@[simp] theorem State.boot_setTrig (s : State) (n1 : Cluster) (v1 : Trig) : (s.setTrig n1 v1).boot = s.boot := rfl
@[simp] theorem State.boot_setCpt (s : State) (n1 : Cluster) (e1 : Fin 2) (v1 : Cpt) : (s.setCpt n1 e1 v1).boot = s.boot := rfl
@[simp] theorem State.boot_setByte (s : State) (a1 : Nat) (v1 : Byte) : (s.setByte a1 v1).boot = s.boot := rfl
@[simp] theorem State.boot_setMicroAt (s : State) (n1 : Cluster) (a1 : Nat) (v1 : MWord) : (s.setMicroAt n1 a1 v1).boot = s.boot := rfl
@[simp] theorem State.boot_setNanoAt (s : State) (n1 : Cluster) (i1 : Nat) (v1 : NWord) : (s.setNanoAt n1 i1 v1).boot = s.boot := rfl
@[simp] theorem State.boot_setTxn (s : State) (h1 : Nat) (v1 : Txn) : (s.setTxn h1 v1).boot = s.boot := rfl
@[simp] theorem State.boot_setSem (s : State) (k1 : Nat) (v1 : SemSt) : (s.setSem k1 v1).boot = s.boot := rfl
@[simp] theorem State.boot_setFlt (s : State) (k1 : Nat) (v1 : FltSrc) : (s.setFlt k1 v1).boot = s.boot := rfl
@[simp] theorem State.boot_setCalSt (s : State) (n1 : Cluster) (v1 : CalSt) : (s.setCalSt n1 v1).boot = s.boot := rfl
@[simp] theorem State.boot_setGov (s : State) (n1 : Cluster) (v1 : Gov) : (s.setGov n1 v1).boot = s.boot := rfl
@[simp] theorem State.msp_setReg (s : State) (r1 : Reg) (i1 : Nat) (v1 : Word) : (s.setReg r1 i1 v1).msp = s.msp := rfl
@[simp] theorem State.msp_setChan (s : State) (n1 : Cluster) (c1 : Channel) (v1 : Chan) : (s.setChan n1 c1 v1).msp = s.msp := rfl
@[simp] theorem State.msp_setSeq (s : State) (n1 : Cluster) (v1 : Seq) : (s.setSeq n1 v1).msp = s.msp := rfl
@[simp] theorem State.msp_setHop (s : State) (n1 : Cluster) (v1 : Hop) : (s.setHop n1 v1).msp = s.msp := rfl
@[simp] theorem State.msp_setStampQ (s : State) (n1 : Cluster) (v1 : List StampRec) : (s.setStampQ n1 v1).msp = s.msp := rfl
@[simp] theorem State.msp_setAwg (s : State) (n1 : Cluster) (g1 : Fin 2) (v1 : Awg) : (s.setAwg n1 g1 v1).msp = s.msp := rfl
@[simp] theorem State.msp_setTrig (s : State) (n1 : Cluster) (v1 : Trig) : (s.setTrig n1 v1).msp = s.msp := rfl
@[simp] theorem State.msp_setCpt (s : State) (n1 : Cluster) (e1 : Fin 2) (v1 : Cpt) : (s.setCpt n1 e1 v1).msp = s.msp := rfl
@[simp] theorem State.msp_setByte (s : State) (a1 : Nat) (v1 : Byte) : (s.setByte a1 v1).msp = s.msp := rfl
@[simp] theorem State.msp_setMicroAt (s : State) (n1 : Cluster) (a1 : Nat) (v1 : MWord) : (s.setMicroAt n1 a1 v1).msp = s.msp := rfl
@[simp] theorem State.msp_setNanoAt (s : State) (n1 : Cluster) (i1 : Nat) (v1 : NWord) : (s.setNanoAt n1 i1 v1).msp = s.msp := rfl
@[simp] theorem State.msp_setTxn (s : State) (h1 : Nat) (v1 : Txn) : (s.setTxn h1 v1).msp = s.msp := rfl
@[simp] theorem State.msp_setSem (s : State) (k1 : Nat) (v1 : SemSt) : (s.setSem k1 v1).msp = s.msp := rfl
@[simp] theorem State.msp_setFlt (s : State) (k1 : Nat) (v1 : FltSrc) : (s.setFlt k1 v1).msp = s.msp := rfl
@[simp] theorem State.msp_setCalSt (s : State) (n1 : Cluster) (v1 : CalSt) : (s.setCalSt n1 v1).msp = s.msp := rfl
@[simp] theorem State.msp_setGov (s : State) (n1 : Cluster) (v1 : Gov) : (s.setGov n1 v1).msp = s.msp := rfl
@[simp] theorem State.tap_setReg (s : State) (r1 : Reg) (i1 : Nat) (v1 : Word) : (s.setReg r1 i1 v1).tap = s.tap := rfl
@[simp] theorem State.tap_setChan (s : State) (n1 : Cluster) (c1 : Channel) (v1 : Chan) : (s.setChan n1 c1 v1).tap = s.tap := rfl
@[simp] theorem State.tap_setSeq (s : State) (n1 : Cluster) (v1 : Seq) : (s.setSeq n1 v1).tap = s.tap := rfl
@[simp] theorem State.tap_setHop (s : State) (n1 : Cluster) (v1 : Hop) : (s.setHop n1 v1).tap = s.tap := rfl
@[simp] theorem State.tap_setStampQ (s : State) (n1 : Cluster) (v1 : List StampRec) : (s.setStampQ n1 v1).tap = s.tap := rfl
@[simp] theorem State.tap_setAwg (s : State) (n1 : Cluster) (g1 : Fin 2) (v1 : Awg) : (s.setAwg n1 g1 v1).tap = s.tap := rfl
@[simp] theorem State.tap_setTrig (s : State) (n1 : Cluster) (v1 : Trig) : (s.setTrig n1 v1).tap = s.tap := rfl
@[simp] theorem State.tap_setCpt (s : State) (n1 : Cluster) (e1 : Fin 2) (v1 : Cpt) : (s.setCpt n1 e1 v1).tap = s.tap := rfl
@[simp] theorem State.tap_setByte (s : State) (a1 : Nat) (v1 : Byte) : (s.setByte a1 v1).tap = s.tap := rfl
@[simp] theorem State.tap_setMicroAt (s : State) (n1 : Cluster) (a1 : Nat) (v1 : MWord) : (s.setMicroAt n1 a1 v1).tap = s.tap := rfl
@[simp] theorem State.tap_setNanoAt (s : State) (n1 : Cluster) (i1 : Nat) (v1 : NWord) : (s.setNanoAt n1 i1 v1).tap = s.tap := rfl
@[simp] theorem State.tap_setTxn (s : State) (h1 : Nat) (v1 : Txn) : (s.setTxn h1 v1).tap = s.tap := rfl
@[simp] theorem State.tap_setSem (s : State) (k1 : Nat) (v1 : SemSt) : (s.setSem k1 v1).tap = s.tap := rfl
@[simp] theorem State.tap_setFlt (s : State) (k1 : Nat) (v1 : FltSrc) : (s.setFlt k1 v1).tap = s.tap := rfl
@[simp] theorem State.tap_setCalSt (s : State) (n1 : Cluster) (v1 : CalSt) : (s.setCalSt n1 v1).tap = s.tap := rfl
@[simp] theorem State.tap_setGov (s : State) (n1 : Cluster) (v1 : Gov) : (s.setGov n1 v1).tap = s.tap := rfl
@[simp] theorem State.boundary_setReg (s : State) (r1 : Reg) (i1 : Nat) (v1 : Word) : (s.setReg r1 i1 v1).boundary = s.boundary := rfl
@[simp] theorem State.boundary_setChan (s : State) (n1 : Cluster) (c1 : Channel) (v1 : Chan) : (s.setChan n1 c1 v1).boundary = s.boundary := rfl
@[simp] theorem State.boundary_setSeq (s : State) (n1 : Cluster) (v1 : Seq) : (s.setSeq n1 v1).boundary = s.boundary := rfl
@[simp] theorem State.boundary_setHop (s : State) (n1 : Cluster) (v1 : Hop) : (s.setHop n1 v1).boundary = s.boundary := rfl
@[simp] theorem State.boundary_setStampQ (s : State) (n1 : Cluster) (v1 : List StampRec) : (s.setStampQ n1 v1).boundary = s.boundary := rfl
@[simp] theorem State.boundary_setAwg (s : State) (n1 : Cluster) (g1 : Fin 2) (v1 : Awg) : (s.setAwg n1 g1 v1).boundary = s.boundary := rfl
@[simp] theorem State.boundary_setTrig (s : State) (n1 : Cluster) (v1 : Trig) : (s.setTrig n1 v1).boundary = s.boundary := rfl
@[simp] theorem State.boundary_setCpt (s : State) (n1 : Cluster) (e1 : Fin 2) (v1 : Cpt) : (s.setCpt n1 e1 v1).boundary = s.boundary := rfl
@[simp] theorem State.boundary_setByte (s : State) (a1 : Nat) (v1 : Byte) : (s.setByte a1 v1).boundary = s.boundary := rfl
@[simp] theorem State.boundary_setMicroAt (s : State) (n1 : Cluster) (a1 : Nat) (v1 : MWord) : (s.setMicroAt n1 a1 v1).boundary = s.boundary := rfl
@[simp] theorem State.boundary_setNanoAt (s : State) (n1 : Cluster) (i1 : Nat) (v1 : NWord) : (s.setNanoAt n1 i1 v1).boundary = s.boundary := rfl
@[simp] theorem State.boundary_setTxn (s : State) (h1 : Nat) (v1 : Txn) : (s.setTxn h1 v1).boundary = s.boundary := rfl
@[simp] theorem State.boundary_setSem (s : State) (k1 : Nat) (v1 : SemSt) : (s.setSem k1 v1).boundary = s.boundary := rfl
@[simp] theorem State.boundary_setFlt (s : State) (k1 : Nat) (v1 : FltSrc) : (s.setFlt k1 v1).boundary = s.boundary := rfl
@[simp] theorem State.boundary_setCalSt (s : State) (n1 : Cluster) (v1 : CalSt) : (s.setCalSt n1 v1).boundary = s.boundary := rfl
@[simp] theorem State.boundary_setGov (s : State) (n1 : Cluster) (v1 : Gov) : (s.setGov n1 v1).boundary = s.boundary := rfl
@[simp] theorem State.hist_setReg (s : State) (r1 : Reg) (i1 : Nat) (v1 : Word) : (s.setReg r1 i1 v1).hist = s.hist := rfl
@[simp] theorem State.hist_setChan (s : State) (n1 : Cluster) (c1 : Channel) (v1 : Chan) : (s.setChan n1 c1 v1).hist = s.hist := rfl
@[simp] theorem State.hist_setSeq (s : State) (n1 : Cluster) (v1 : Seq) : (s.setSeq n1 v1).hist = s.hist := rfl
@[simp] theorem State.hist_setHop (s : State) (n1 : Cluster) (v1 : Hop) : (s.setHop n1 v1).hist = s.hist := rfl
@[simp] theorem State.hist_setStampQ (s : State) (n1 : Cluster) (v1 : List StampRec) : (s.setStampQ n1 v1).hist = s.hist := rfl
@[simp] theorem State.hist_setAwg (s : State) (n1 : Cluster) (g1 : Fin 2) (v1 : Awg) : (s.setAwg n1 g1 v1).hist = s.hist := rfl
@[simp] theorem State.hist_setTrig (s : State) (n1 : Cluster) (v1 : Trig) : (s.setTrig n1 v1).hist = s.hist := rfl
@[simp] theorem State.hist_setCpt (s : State) (n1 : Cluster) (e1 : Fin 2) (v1 : Cpt) : (s.setCpt n1 e1 v1).hist = s.hist := rfl
@[simp] theorem State.hist_setByte (s : State) (a1 : Nat) (v1 : Byte) : (s.setByte a1 v1).hist = s.hist := rfl
@[simp] theorem State.hist_setMicroAt (s : State) (n1 : Cluster) (a1 : Nat) (v1 : MWord) : (s.setMicroAt n1 a1 v1).hist = s.hist := rfl
@[simp] theorem State.hist_setNanoAt (s : State) (n1 : Cluster) (i1 : Nat) (v1 : NWord) : (s.setNanoAt n1 i1 v1).hist = s.hist := rfl
@[simp] theorem State.hist_setTxn (s : State) (h1 : Nat) (v1 : Txn) : (s.setTxn h1 v1).hist = s.hist := rfl
@[simp] theorem State.hist_setSem (s : State) (k1 : Nat) (v1 : SemSt) : (s.setSem k1 v1).hist = s.hist := rfl
@[simp] theorem State.hist_setFlt (s : State) (k1 : Nat) (v1 : FltSrc) : (s.setFlt k1 v1).hist = s.hist := rfl
@[simp] theorem State.hist_setCalSt (s : State) (n1 : Cluster) (v1 : CalSt) : (s.setCalSt n1 v1).hist = s.hist := rfl
@[simp] theorem State.hist_setGov (s : State) (n1 : Cluster) (v1 : Gov) : (s.setGov n1 v1).hist = s.hist := rfl
@[simp] theorem State.ramps_setReg (s : State) (r1 : Reg) (i1 : Nat) (v1 : Word) : (s.setReg r1 i1 v1).ramps = s.ramps := rfl
@[simp] theorem State.ramps_setChan (s : State) (n1 : Cluster) (c1 : Channel) (v1 : Chan) : (s.setChan n1 c1 v1).ramps = s.ramps := rfl
@[simp] theorem State.ramps_setSeq (s : State) (n1 : Cluster) (v1 : Seq) : (s.setSeq n1 v1).ramps = s.ramps := rfl
@[simp] theorem State.ramps_setHop (s : State) (n1 : Cluster) (v1 : Hop) : (s.setHop n1 v1).ramps = s.ramps := rfl
@[simp] theorem State.ramps_setStampQ (s : State) (n1 : Cluster) (v1 : List StampRec) : (s.setStampQ n1 v1).ramps = s.ramps := rfl
@[simp] theorem State.ramps_setAwg (s : State) (n1 : Cluster) (g1 : Fin 2) (v1 : Awg) : (s.setAwg n1 g1 v1).ramps = s.ramps := rfl
@[simp] theorem State.ramps_setTrig (s : State) (n1 : Cluster) (v1 : Trig) : (s.setTrig n1 v1).ramps = s.ramps := rfl
@[simp] theorem State.ramps_setCpt (s : State) (n1 : Cluster) (e1 : Fin 2) (v1 : Cpt) : (s.setCpt n1 e1 v1).ramps = s.ramps := rfl
@[simp] theorem State.ramps_setByte (s : State) (a1 : Nat) (v1 : Byte) : (s.setByte a1 v1).ramps = s.ramps := rfl
@[simp] theorem State.ramps_setMicroAt (s : State) (n1 : Cluster) (a1 : Nat) (v1 : MWord) : (s.setMicroAt n1 a1 v1).ramps = s.ramps := rfl
@[simp] theorem State.ramps_setNanoAt (s : State) (n1 : Cluster) (i1 : Nat) (v1 : NWord) : (s.setNanoAt n1 i1 v1).ramps = s.ramps := rfl
@[simp] theorem State.ramps_setTxn (s : State) (h1 : Nat) (v1 : Txn) : (s.setTxn h1 v1).ramps = s.ramps := rfl
@[simp] theorem State.ramps_setSem (s : State) (k1 : Nat) (v1 : SemSt) : (s.setSem k1 v1).ramps = s.ramps := rfl
@[simp] theorem State.ramps_setFlt (s : State) (k1 : Nat) (v1 : FltSrc) : (s.setFlt k1 v1).ramps = s.ramps := rfl
@[simp] theorem State.ramps_setCalSt (s : State) (n1 : Cluster) (v1 : CalSt) : (s.setCalSt n1 v1).ramps = s.ramps := rfl
@[simp] theorem State.ramps_setGov (s : State) (n1 : Cluster) (v1 : Gov) : (s.setGov n1 v1).ramps = s.ramps := rfl
@[simp] theorem State.refDue_setReg (s : State) (r1 : Reg) (i1 : Nat) (v1 : Word) : (s.setReg r1 i1 v1).refDue = s.refDue := rfl
@[simp] theorem State.refDue_setChan (s : State) (n1 : Cluster) (c1 : Channel) (v1 : Chan) : (s.setChan n1 c1 v1).refDue = s.refDue := rfl
@[simp] theorem State.refDue_setSeq (s : State) (n1 : Cluster) (v1 : Seq) : (s.setSeq n1 v1).refDue = s.refDue := rfl
@[simp] theorem State.refDue_setHop (s : State) (n1 : Cluster) (v1 : Hop) : (s.setHop n1 v1).refDue = s.refDue := rfl
@[simp] theorem State.refDue_setStampQ (s : State) (n1 : Cluster) (v1 : List StampRec) : (s.setStampQ n1 v1).refDue = s.refDue := rfl
@[simp] theorem State.refDue_setAwg (s : State) (n1 : Cluster) (g1 : Fin 2) (v1 : Awg) : (s.setAwg n1 g1 v1).refDue = s.refDue := rfl
@[simp] theorem State.refDue_setTrig (s : State) (n1 : Cluster) (v1 : Trig) : (s.setTrig n1 v1).refDue = s.refDue := rfl
@[simp] theorem State.refDue_setCpt (s : State) (n1 : Cluster) (e1 : Fin 2) (v1 : Cpt) : (s.setCpt n1 e1 v1).refDue = s.refDue := rfl
@[simp] theorem State.refDue_setByte (s : State) (a1 : Nat) (v1 : Byte) : (s.setByte a1 v1).refDue = s.refDue := rfl
@[simp] theorem State.refDue_setMicroAt (s : State) (n1 : Cluster) (a1 : Nat) (v1 : MWord) : (s.setMicroAt n1 a1 v1).refDue = s.refDue := rfl
@[simp] theorem State.refDue_setNanoAt (s : State) (n1 : Cluster) (i1 : Nat) (v1 : NWord) : (s.setNanoAt n1 i1 v1).refDue = s.refDue := rfl
@[simp] theorem State.refDue_setTxn (s : State) (h1 : Nat) (v1 : Txn) : (s.setTxn h1 v1).refDue = s.refDue := rfl
@[simp] theorem State.refDue_setSem (s : State) (k1 : Nat) (v1 : SemSt) : (s.setSem k1 v1).refDue = s.refDue := rfl
@[simp] theorem State.refDue_setFlt (s : State) (k1 : Nat) (v1 : FltSrc) : (s.setFlt k1 v1).refDue = s.refDue := rfl
@[simp] theorem State.refDue_setCalSt (s : State) (n1 : Cluster) (v1 : CalSt) : (s.setCalSt n1 v1).refDue = s.refDue := rfl
@[simp] theorem State.refDue_setGov (s : State) (n1 : Cluster) (v1 : Gov) : (s.setGov n1 v1).refDue = s.refDue := rfl
@[simp] theorem State.refLast_setReg (s : State) (r1 : Reg) (i1 : Nat) (v1 : Word) : (s.setReg r1 i1 v1).refLast = s.refLast := rfl
@[simp] theorem State.refLast_setChan (s : State) (n1 : Cluster) (c1 : Channel) (v1 : Chan) : (s.setChan n1 c1 v1).refLast = s.refLast := rfl
@[simp] theorem State.refLast_setSeq (s : State) (n1 : Cluster) (v1 : Seq) : (s.setSeq n1 v1).refLast = s.refLast := rfl
@[simp] theorem State.refLast_setHop (s : State) (n1 : Cluster) (v1 : Hop) : (s.setHop n1 v1).refLast = s.refLast := rfl
@[simp] theorem State.refLast_setStampQ (s : State) (n1 : Cluster) (v1 : List StampRec) : (s.setStampQ n1 v1).refLast = s.refLast := rfl
@[simp] theorem State.refLast_setAwg (s : State) (n1 : Cluster) (g1 : Fin 2) (v1 : Awg) : (s.setAwg n1 g1 v1).refLast = s.refLast := rfl
@[simp] theorem State.refLast_setTrig (s : State) (n1 : Cluster) (v1 : Trig) : (s.setTrig n1 v1).refLast = s.refLast := rfl
@[simp] theorem State.refLast_setCpt (s : State) (n1 : Cluster) (e1 : Fin 2) (v1 : Cpt) : (s.setCpt n1 e1 v1).refLast = s.refLast := rfl
@[simp] theorem State.refLast_setByte (s : State) (a1 : Nat) (v1 : Byte) : (s.setByte a1 v1).refLast = s.refLast := rfl
@[simp] theorem State.refLast_setMicroAt (s : State) (n1 : Cluster) (a1 : Nat) (v1 : MWord) : (s.setMicroAt n1 a1 v1).refLast = s.refLast := rfl
@[simp] theorem State.refLast_setNanoAt (s : State) (n1 : Cluster) (i1 : Nat) (v1 : NWord) : (s.setNanoAt n1 i1 v1).refLast = s.refLast := rfl
@[simp] theorem State.refLast_setTxn (s : State) (h1 : Nat) (v1 : Txn) : (s.setTxn h1 v1).refLast = s.refLast := rfl
@[simp] theorem State.refLast_setSem (s : State) (k1 : Nat) (v1 : SemSt) : (s.setSem k1 v1).refLast = s.refLast := rfl
@[simp] theorem State.refLast_setFlt (s : State) (k1 : Nat) (v1 : FltSrc) : (s.setFlt k1 v1).refLast = s.refLast := rfl
@[simp] theorem State.refLast_setCalSt (s : State) (n1 : Cluster) (v1 : CalSt) : (s.setCalSt n1 v1).refLast = s.refLast := rfl
@[simp] theorem State.refLast_setGov (s : State) (n1 : Cluster) (v1 : Gov) : (s.setGov n1 v1).refLast = s.refLast := rfl
@[simp] theorem State.window_setReg (s : State) (r1 : Reg) (i1 : Nat) (v1 : Word) : (s.setReg r1 i1 v1).window = s.window := rfl
@[simp] theorem State.window_setChan (s : State) (n1 : Cluster) (c1 : Channel) (v1 : Chan) : (s.setChan n1 c1 v1).window = s.window := rfl
@[simp] theorem State.window_setSeq (s : State) (n1 : Cluster) (v1 : Seq) : (s.setSeq n1 v1).window = s.window := rfl
@[simp] theorem State.window_setHop (s : State) (n1 : Cluster) (v1 : Hop) : (s.setHop n1 v1).window = s.window := rfl
@[simp] theorem State.window_setStampQ (s : State) (n1 : Cluster) (v1 : List StampRec) : (s.setStampQ n1 v1).window = s.window := rfl
@[simp] theorem State.window_setAwg (s : State) (n1 : Cluster) (g1 : Fin 2) (v1 : Awg) : (s.setAwg n1 g1 v1).window = s.window := rfl
@[simp] theorem State.window_setTrig (s : State) (n1 : Cluster) (v1 : Trig) : (s.setTrig n1 v1).window = s.window := rfl
@[simp] theorem State.window_setCpt (s : State) (n1 : Cluster) (e1 : Fin 2) (v1 : Cpt) : (s.setCpt n1 e1 v1).window = s.window := rfl
@[simp] theorem State.window_setByte (s : State) (a1 : Nat) (v1 : Byte) : (s.setByte a1 v1).window = s.window := rfl
@[simp] theorem State.window_setMicroAt (s : State) (n1 : Cluster) (a1 : Nat) (v1 : MWord) : (s.setMicroAt n1 a1 v1).window = s.window := rfl
@[simp] theorem State.window_setNanoAt (s : State) (n1 : Cluster) (i1 : Nat) (v1 : NWord) : (s.setNanoAt n1 i1 v1).window = s.window := rfl
@[simp] theorem State.window_setTxn (s : State) (h1 : Nat) (v1 : Txn) : (s.setTxn h1 v1).window = s.window := rfl
@[simp] theorem State.window_setSem (s : State) (k1 : Nat) (v1 : SemSt) : (s.setSem k1 v1).window = s.window := rfl
@[simp] theorem State.window_setFlt (s : State) (k1 : Nat) (v1 : FltSrc) : (s.setFlt k1 v1).window = s.window := rfl
@[simp] theorem State.window_setCalSt (s : State) (n1 : Cluster) (v1 : CalSt) : (s.setCalSt n1 v1).window = s.window := rfl
@[simp] theorem State.window_setGov (s : State) (n1 : Cluster) (v1 : Gov) : (s.setGov n1 v1).window = s.window := rfl
@[simp] theorem State.assay_setReg (s : State) (r1 : Reg) (i1 : Nat) (v1 : Word) : (s.setReg r1 i1 v1).assay = s.assay := rfl
@[simp] theorem State.assay_setChan (s : State) (n1 : Cluster) (c1 : Channel) (v1 : Chan) : (s.setChan n1 c1 v1).assay = s.assay := rfl
@[simp] theorem State.assay_setSeq (s : State) (n1 : Cluster) (v1 : Seq) : (s.setSeq n1 v1).assay = s.assay := rfl
@[simp] theorem State.assay_setHop (s : State) (n1 : Cluster) (v1 : Hop) : (s.setHop n1 v1).assay = s.assay := rfl
@[simp] theorem State.assay_setStampQ (s : State) (n1 : Cluster) (v1 : List StampRec) : (s.setStampQ n1 v1).assay = s.assay := rfl
@[simp] theorem State.assay_setAwg (s : State) (n1 : Cluster) (g1 : Fin 2) (v1 : Awg) : (s.setAwg n1 g1 v1).assay = s.assay := rfl
@[simp] theorem State.assay_setTrig (s : State) (n1 : Cluster) (v1 : Trig) : (s.setTrig n1 v1).assay = s.assay := rfl
@[simp] theorem State.assay_setCpt (s : State) (n1 : Cluster) (e1 : Fin 2) (v1 : Cpt) : (s.setCpt n1 e1 v1).assay = s.assay := rfl
@[simp] theorem State.assay_setByte (s : State) (a1 : Nat) (v1 : Byte) : (s.setByte a1 v1).assay = s.assay := rfl
@[simp] theorem State.assay_setMicroAt (s : State) (n1 : Cluster) (a1 : Nat) (v1 : MWord) : (s.setMicroAt n1 a1 v1).assay = s.assay := rfl
@[simp] theorem State.assay_setNanoAt (s : State) (n1 : Cluster) (i1 : Nat) (v1 : NWord) : (s.setNanoAt n1 i1 v1).assay = s.assay := rfl
@[simp] theorem State.assay_setTxn (s : State) (h1 : Nat) (v1 : Txn) : (s.setTxn h1 v1).assay = s.assay := rfl
@[simp] theorem State.assay_setSem (s : State) (k1 : Nat) (v1 : SemSt) : (s.setSem k1 v1).assay = s.assay := rfl
@[simp] theorem State.assay_setFlt (s : State) (k1 : Nat) (v1 : FltSrc) : (s.setFlt k1 v1).assay = s.assay := rfl
@[simp] theorem State.assay_setCalSt (s : State) (n1 : Cluster) (v1 : CalSt) : (s.setCalSt n1 v1).assay = s.assay := rfl
@[simp] theorem State.assay_setGov (s : State) (n1 : Cluster) (v1 : Gov) : (s.setGov n1 v1).assay = s.assay := rfl
@[simp] theorem State.life_setReg (s : State) (r1 : Reg) (i1 : Nat) (v1 : Word) : (s.setReg r1 i1 v1).life = s.life := rfl
@[simp] theorem State.life_setChan (s : State) (n1 : Cluster) (c1 : Channel) (v1 : Chan) : (s.setChan n1 c1 v1).life = s.life := rfl
@[simp] theorem State.life_setSeq (s : State) (n1 : Cluster) (v1 : Seq) : (s.setSeq n1 v1).life = s.life := rfl
@[simp] theorem State.life_setHop (s : State) (n1 : Cluster) (v1 : Hop) : (s.setHop n1 v1).life = s.life := rfl
@[simp] theorem State.life_setStampQ (s : State) (n1 : Cluster) (v1 : List StampRec) : (s.setStampQ n1 v1).life = s.life := rfl
@[simp] theorem State.life_setAwg (s : State) (n1 : Cluster) (g1 : Fin 2) (v1 : Awg) : (s.setAwg n1 g1 v1).life = s.life := rfl
@[simp] theorem State.life_setTrig (s : State) (n1 : Cluster) (v1 : Trig) : (s.setTrig n1 v1).life = s.life := rfl
@[simp] theorem State.life_setCpt (s : State) (n1 : Cluster) (e1 : Fin 2) (v1 : Cpt) : (s.setCpt n1 e1 v1).life = s.life := rfl
@[simp] theorem State.life_setByte (s : State) (a1 : Nat) (v1 : Byte) : (s.setByte a1 v1).life = s.life := rfl
@[simp] theorem State.life_setMicroAt (s : State) (n1 : Cluster) (a1 : Nat) (v1 : MWord) : (s.setMicroAt n1 a1 v1).life = s.life := rfl
@[simp] theorem State.life_setNanoAt (s : State) (n1 : Cluster) (i1 : Nat) (v1 : NWord) : (s.setNanoAt n1 i1 v1).life = s.life := rfl
@[simp] theorem State.life_setTxn (s : State) (h1 : Nat) (v1 : Txn) : (s.setTxn h1 v1).life = s.life := rfl
@[simp] theorem State.life_setSem (s : State) (k1 : Nat) (v1 : SemSt) : (s.setSem k1 v1).life = s.life := rfl
@[simp] theorem State.life_setFlt (s : State) (k1 : Nat) (v1 : FltSrc) : (s.setFlt k1 v1).life = s.life := rfl
@[simp] theorem State.life_setCalSt (s : State) (n1 : Cluster) (v1 : CalSt) : (s.setCalSt n1 v1).life = s.life := rfl
@[simp] theorem State.life_setGov (s : State) (n1 : Cluster) (v1 : Gov) : (s.setGov n1 v1).life = s.life := rfl
@[simp] theorem State.lifeHdr_setReg (s : State) (r1 : Reg) (i1 : Nat) (v1 : Word) : (s.setReg r1 i1 v1).lifeHdr = s.lifeHdr := rfl
@[simp] theorem State.lifeHdr_setChan (s : State) (n1 : Cluster) (c1 : Channel) (v1 : Chan) : (s.setChan n1 c1 v1).lifeHdr = s.lifeHdr := rfl
@[simp] theorem State.lifeHdr_setSeq (s : State) (n1 : Cluster) (v1 : Seq) : (s.setSeq n1 v1).lifeHdr = s.lifeHdr := rfl
@[simp] theorem State.lifeHdr_setHop (s : State) (n1 : Cluster) (v1 : Hop) : (s.setHop n1 v1).lifeHdr = s.lifeHdr := rfl
@[simp] theorem State.lifeHdr_setStampQ (s : State) (n1 : Cluster) (v1 : List StampRec) : (s.setStampQ n1 v1).lifeHdr = s.lifeHdr := rfl
@[simp] theorem State.lifeHdr_setAwg (s : State) (n1 : Cluster) (g1 : Fin 2) (v1 : Awg) : (s.setAwg n1 g1 v1).lifeHdr = s.lifeHdr := rfl
@[simp] theorem State.lifeHdr_setTrig (s : State) (n1 : Cluster) (v1 : Trig) : (s.setTrig n1 v1).lifeHdr = s.lifeHdr := rfl
@[simp] theorem State.lifeHdr_setCpt (s : State) (n1 : Cluster) (e1 : Fin 2) (v1 : Cpt) : (s.setCpt n1 e1 v1).lifeHdr = s.lifeHdr := rfl
@[simp] theorem State.lifeHdr_setByte (s : State) (a1 : Nat) (v1 : Byte) : (s.setByte a1 v1).lifeHdr = s.lifeHdr := rfl
@[simp] theorem State.lifeHdr_setMicroAt (s : State) (n1 : Cluster) (a1 : Nat) (v1 : MWord) : (s.setMicroAt n1 a1 v1).lifeHdr = s.lifeHdr := rfl
@[simp] theorem State.lifeHdr_setNanoAt (s : State) (n1 : Cluster) (i1 : Nat) (v1 : NWord) : (s.setNanoAt n1 i1 v1).lifeHdr = s.lifeHdr := rfl
@[simp] theorem State.lifeHdr_setTxn (s : State) (h1 : Nat) (v1 : Txn) : (s.setTxn h1 v1).lifeHdr = s.lifeHdr := rfl
@[simp] theorem State.lifeHdr_setSem (s : State) (k1 : Nat) (v1 : SemSt) : (s.setSem k1 v1).lifeHdr = s.lifeHdr := rfl
@[simp] theorem State.lifeHdr_setFlt (s : State) (k1 : Nat) (v1 : FltSrc) : (s.setFlt k1 v1).lifeHdr = s.lifeHdr := rfl
@[simp] theorem State.lifeHdr_setCalSt (s : State) (n1 : Cluster) (v1 : CalSt) : (s.setCalSt n1 v1).lifeHdr = s.lifeHdr := rfl
@[simp] theorem State.lifeHdr_setGov (s : State) (n1 : Cluster) (v1 : Gov) : (s.setGov n1 v1).lifeHdr = s.lifeHdr := rfl
@[simp] theorem State.lifeSlot_setReg (s : State) (r1 : Reg) (i1 : Nat) (v1 : Word) : (s.setReg r1 i1 v1).lifeSlot = s.lifeSlot := rfl
@[simp] theorem State.lifeSlot_setChan (s : State) (n1 : Cluster) (c1 : Channel) (v1 : Chan) : (s.setChan n1 c1 v1).lifeSlot = s.lifeSlot := rfl
@[simp] theorem State.lifeSlot_setSeq (s : State) (n1 : Cluster) (v1 : Seq) : (s.setSeq n1 v1).lifeSlot = s.lifeSlot := rfl
@[simp] theorem State.lifeSlot_setHop (s : State) (n1 : Cluster) (v1 : Hop) : (s.setHop n1 v1).lifeSlot = s.lifeSlot := rfl
@[simp] theorem State.lifeSlot_setStampQ (s : State) (n1 : Cluster) (v1 : List StampRec) : (s.setStampQ n1 v1).lifeSlot = s.lifeSlot := rfl
@[simp] theorem State.lifeSlot_setAwg (s : State) (n1 : Cluster) (g1 : Fin 2) (v1 : Awg) : (s.setAwg n1 g1 v1).lifeSlot = s.lifeSlot := rfl
@[simp] theorem State.lifeSlot_setTrig (s : State) (n1 : Cluster) (v1 : Trig) : (s.setTrig n1 v1).lifeSlot = s.lifeSlot := rfl
@[simp] theorem State.lifeSlot_setCpt (s : State) (n1 : Cluster) (e1 : Fin 2) (v1 : Cpt) : (s.setCpt n1 e1 v1).lifeSlot = s.lifeSlot := rfl
@[simp] theorem State.lifeSlot_setByte (s : State) (a1 : Nat) (v1 : Byte) : (s.setByte a1 v1).lifeSlot = s.lifeSlot := rfl
@[simp] theorem State.lifeSlot_setMicroAt (s : State) (n1 : Cluster) (a1 : Nat) (v1 : MWord) : (s.setMicroAt n1 a1 v1).lifeSlot = s.lifeSlot := rfl
@[simp] theorem State.lifeSlot_setNanoAt (s : State) (n1 : Cluster) (i1 : Nat) (v1 : NWord) : (s.setNanoAt n1 i1 v1).lifeSlot = s.lifeSlot := rfl
@[simp] theorem State.lifeSlot_setTxn (s : State) (h1 : Nat) (v1 : Txn) : (s.setTxn h1 v1).lifeSlot = s.lifeSlot := rfl
@[simp] theorem State.lifeSlot_setSem (s : State) (k1 : Nat) (v1 : SemSt) : (s.setSem k1 v1).lifeSlot = s.lifeSlot := rfl
@[simp] theorem State.lifeSlot_setFlt (s : State) (k1 : Nat) (v1 : FltSrc) : (s.setFlt k1 v1).lifeSlot = s.lifeSlot := rfl
@[simp] theorem State.lifeSlot_setCalSt (s : State) (n1 : Cluster) (v1 : CalSt) : (s.setCalSt n1 v1).lifeSlot = s.lifeSlot := rfl
@[simp] theorem State.lifeSlot_setGov (s : State) (n1 : Cluster) (v1 : Gov) : (s.setGov n1 v1).lifeSlot = s.lifeSlot := rfl
@[simp] theorem State.lifeMin_setReg (s : State) (r1 : Reg) (i1 : Nat) (v1 : Word) : (s.setReg r1 i1 v1).lifeMin = s.lifeMin := rfl
@[simp] theorem State.lifeMin_setChan (s : State) (n1 : Cluster) (c1 : Channel) (v1 : Chan) : (s.setChan n1 c1 v1).lifeMin = s.lifeMin := rfl
@[simp] theorem State.lifeMin_setSeq (s : State) (n1 : Cluster) (v1 : Seq) : (s.setSeq n1 v1).lifeMin = s.lifeMin := rfl
@[simp] theorem State.lifeMin_setHop (s : State) (n1 : Cluster) (v1 : Hop) : (s.setHop n1 v1).lifeMin = s.lifeMin := rfl
@[simp] theorem State.lifeMin_setStampQ (s : State) (n1 : Cluster) (v1 : List StampRec) : (s.setStampQ n1 v1).lifeMin = s.lifeMin := rfl
@[simp] theorem State.lifeMin_setAwg (s : State) (n1 : Cluster) (g1 : Fin 2) (v1 : Awg) : (s.setAwg n1 g1 v1).lifeMin = s.lifeMin := rfl
@[simp] theorem State.lifeMin_setTrig (s : State) (n1 : Cluster) (v1 : Trig) : (s.setTrig n1 v1).lifeMin = s.lifeMin := rfl
@[simp] theorem State.lifeMin_setCpt (s : State) (n1 : Cluster) (e1 : Fin 2) (v1 : Cpt) : (s.setCpt n1 e1 v1).lifeMin = s.lifeMin := rfl
@[simp] theorem State.lifeMin_setByte (s : State) (a1 : Nat) (v1 : Byte) : (s.setByte a1 v1).lifeMin = s.lifeMin := rfl
@[simp] theorem State.lifeMin_setMicroAt (s : State) (n1 : Cluster) (a1 : Nat) (v1 : MWord) : (s.setMicroAt n1 a1 v1).lifeMin = s.lifeMin := rfl
@[simp] theorem State.lifeMin_setNanoAt (s : State) (n1 : Cluster) (i1 : Nat) (v1 : NWord) : (s.setNanoAt n1 i1 v1).lifeMin = s.lifeMin := rfl
@[simp] theorem State.lifeMin_setTxn (s : State) (h1 : Nat) (v1 : Txn) : (s.setTxn h1 v1).lifeMin = s.lifeMin := rfl
@[simp] theorem State.lifeMin_setSem (s : State) (k1 : Nat) (v1 : SemSt) : (s.setSem k1 v1).lifeMin = s.lifeMin := rfl
@[simp] theorem State.lifeMin_setFlt (s : State) (k1 : Nat) (v1 : FltSrc) : (s.setFlt k1 v1).lifeMin = s.lifeMin := rfl
@[simp] theorem State.lifeMin_setCalSt (s : State) (n1 : Cluster) (v1 : CalSt) : (s.setCalSt n1 v1).lifeMin = s.lifeMin := rfl
@[simp] theorem State.lifeMin_setGov (s : State) (n1 : Cluster) (v1 : Gov) : (s.setGov n1 v1).lifeMin = s.lifeMin := rfl
@[simp] theorem State.replaceWait_setReg (s : State) (r1 : Reg) (i1 : Nat) (v1 : Word) : (s.setReg r1 i1 v1).replaceWait = s.replaceWait := rfl
@[simp] theorem State.replaceWait_setChan (s : State) (n1 : Cluster) (c1 : Channel) (v1 : Chan) : (s.setChan n1 c1 v1).replaceWait = s.replaceWait := rfl
@[simp] theorem State.replaceWait_setSeq (s : State) (n1 : Cluster) (v1 : Seq) : (s.setSeq n1 v1).replaceWait = s.replaceWait := rfl
@[simp] theorem State.replaceWait_setHop (s : State) (n1 : Cluster) (v1 : Hop) : (s.setHop n1 v1).replaceWait = s.replaceWait := rfl
@[simp] theorem State.replaceWait_setStampQ (s : State) (n1 : Cluster) (v1 : List StampRec) : (s.setStampQ n1 v1).replaceWait = s.replaceWait := rfl
@[simp] theorem State.replaceWait_setAwg (s : State) (n1 : Cluster) (g1 : Fin 2) (v1 : Awg) : (s.setAwg n1 g1 v1).replaceWait = s.replaceWait := rfl
@[simp] theorem State.replaceWait_setTrig (s : State) (n1 : Cluster) (v1 : Trig) : (s.setTrig n1 v1).replaceWait = s.replaceWait := rfl
@[simp] theorem State.replaceWait_setCpt (s : State) (n1 : Cluster) (e1 : Fin 2) (v1 : Cpt) : (s.setCpt n1 e1 v1).replaceWait = s.replaceWait := rfl
@[simp] theorem State.replaceWait_setByte (s : State) (a1 : Nat) (v1 : Byte) : (s.setByte a1 v1).replaceWait = s.replaceWait := rfl
@[simp] theorem State.replaceWait_setMicroAt (s : State) (n1 : Cluster) (a1 : Nat) (v1 : MWord) : (s.setMicroAt n1 a1 v1).replaceWait = s.replaceWait := rfl
@[simp] theorem State.replaceWait_setNanoAt (s : State) (n1 : Cluster) (i1 : Nat) (v1 : NWord) : (s.setNanoAt n1 i1 v1).replaceWait = s.replaceWait := rfl
@[simp] theorem State.replaceWait_setTxn (s : State) (h1 : Nat) (v1 : Txn) : (s.setTxn h1 v1).replaceWait = s.replaceWait := rfl
@[simp] theorem State.replaceWait_setSem (s : State) (k1 : Nat) (v1 : SemSt) : (s.setSem k1 v1).replaceWait = s.replaceWait := rfl
@[simp] theorem State.replaceWait_setFlt (s : State) (k1 : Nat) (v1 : FltSrc) : (s.setFlt k1 v1).replaceWait = s.replaceWait := rfl
@[simp] theorem State.replaceWait_setCalSt (s : State) (n1 : Cluster) (v1 : CalSt) : (s.setCalSt n1 v1).replaceWait = s.replaceWait := rfl
@[simp] theorem State.replaceWait_setGov (s : State) (n1 : Cluster) (v1 : Gov) : (s.setGov n1 v1).replaceWait = s.replaceWait := rfl
@[simp] theorem State.patch_setReg (s : State) (r1 : Reg) (i1 : Nat) (v1 : Word) : (s.setReg r1 i1 v1).patch = s.patch := rfl
@[simp] theorem State.patch_setChan (s : State) (n1 : Cluster) (c1 : Channel) (v1 : Chan) : (s.setChan n1 c1 v1).patch = s.patch := rfl
@[simp] theorem State.patch_setSeq (s : State) (n1 : Cluster) (v1 : Seq) : (s.setSeq n1 v1).patch = s.patch := rfl
@[simp] theorem State.patch_setHop (s : State) (n1 : Cluster) (v1 : Hop) : (s.setHop n1 v1).patch = s.patch := rfl
@[simp] theorem State.patch_setStampQ (s : State) (n1 : Cluster) (v1 : List StampRec) : (s.setStampQ n1 v1).patch = s.patch := rfl
@[simp] theorem State.patch_setAwg (s : State) (n1 : Cluster) (g1 : Fin 2) (v1 : Awg) : (s.setAwg n1 g1 v1).patch = s.patch := rfl
@[simp] theorem State.patch_setTrig (s : State) (n1 : Cluster) (v1 : Trig) : (s.setTrig n1 v1).patch = s.patch := rfl
@[simp] theorem State.patch_setCpt (s : State) (n1 : Cluster) (e1 : Fin 2) (v1 : Cpt) : (s.setCpt n1 e1 v1).patch = s.patch := rfl
@[simp] theorem State.patch_setByte (s : State) (a1 : Nat) (v1 : Byte) : (s.setByte a1 v1).patch = s.patch := rfl
@[simp] theorem State.patch_setMicroAt (s : State) (n1 : Cluster) (a1 : Nat) (v1 : MWord) : (s.setMicroAt n1 a1 v1).patch = s.patch := rfl
@[simp] theorem State.patch_setNanoAt (s : State) (n1 : Cluster) (i1 : Nat) (v1 : NWord) : (s.setNanoAt n1 i1 v1).patch = s.patch := rfl
@[simp] theorem State.patch_setTxn (s : State) (h1 : Nat) (v1 : Txn) : (s.setTxn h1 v1).patch = s.patch := rfl
@[simp] theorem State.patch_setSem (s : State) (k1 : Nat) (v1 : SemSt) : (s.setSem k1 v1).patch = s.patch := rfl
@[simp] theorem State.patch_setFlt (s : State) (k1 : Nat) (v1 : FltSrc) : (s.setFlt k1 v1).patch = s.patch := rfl
@[simp] theorem State.patch_setCalSt (s : State) (n1 : Cluster) (v1 : CalSt) : (s.setCalSt n1 v1).patch = s.patch := rfl
@[simp] theorem State.patch_setGov (s : State) (n1 : Cluster) (v1 : Gov) : (s.setGov n1 v1).patch = s.patch := rfl
@[simp] theorem State.wakes_setReg (s : State) (r1 : Reg) (i1 : Nat) (v1 : Word) : (s.setReg r1 i1 v1).wakes = s.wakes := rfl
@[simp] theorem State.wakes_setChan (s : State) (n1 : Cluster) (c1 : Channel) (v1 : Chan) : (s.setChan n1 c1 v1).wakes = s.wakes := rfl
@[simp] theorem State.wakes_setSeq (s : State) (n1 : Cluster) (v1 : Seq) : (s.setSeq n1 v1).wakes = s.wakes := rfl
@[simp] theorem State.wakes_setHop (s : State) (n1 : Cluster) (v1 : Hop) : (s.setHop n1 v1).wakes = s.wakes := rfl
@[simp] theorem State.wakes_setStampQ (s : State) (n1 : Cluster) (v1 : List StampRec) : (s.setStampQ n1 v1).wakes = s.wakes := rfl
@[simp] theorem State.wakes_setAwg (s : State) (n1 : Cluster) (g1 : Fin 2) (v1 : Awg) : (s.setAwg n1 g1 v1).wakes = s.wakes := rfl
@[simp] theorem State.wakes_setTrig (s : State) (n1 : Cluster) (v1 : Trig) : (s.setTrig n1 v1).wakes = s.wakes := rfl
@[simp] theorem State.wakes_setCpt (s : State) (n1 : Cluster) (e1 : Fin 2) (v1 : Cpt) : (s.setCpt n1 e1 v1).wakes = s.wakes := rfl
@[simp] theorem State.wakes_setByte (s : State) (a1 : Nat) (v1 : Byte) : (s.setByte a1 v1).wakes = s.wakes := rfl
@[simp] theorem State.wakes_setMicroAt (s : State) (n1 : Cluster) (a1 : Nat) (v1 : MWord) : (s.setMicroAt n1 a1 v1).wakes = s.wakes := rfl
@[simp] theorem State.wakes_setNanoAt (s : State) (n1 : Cluster) (i1 : Nat) (v1 : NWord) : (s.setNanoAt n1 i1 v1).wakes = s.wakes := rfl
@[simp] theorem State.wakes_setTxn (s : State) (h1 : Nat) (v1 : Txn) : (s.setTxn h1 v1).wakes = s.wakes := rfl
@[simp] theorem State.wakes_setSem (s : State) (k1 : Nat) (v1 : SemSt) : (s.setSem k1 v1).wakes = s.wakes := rfl
@[simp] theorem State.wakes_setFlt (s : State) (k1 : Nat) (v1 : FltSrc) : (s.setFlt k1 v1).wakes = s.wakes := rfl
@[simp] theorem State.wakes_setCalSt (s : State) (n1 : Cluster) (v1 : CalSt) : (s.setCalSt n1 v1).wakes = s.wakes := rfl
@[simp] theorem State.wakes_setGov (s : State) (n1 : Cluster) (v1 : Gov) : (s.setGov n1 v1).wakes = s.wakes := rfl
@[simp] theorem State.owed_setReg (s : State) (r1 : Reg) (i1 : Nat) (v1 : Word) : (s.setReg r1 i1 v1).owed = s.owed := rfl
@[simp] theorem State.owed_setChan (s : State) (n1 : Cluster) (c1 : Channel) (v1 : Chan) : (s.setChan n1 c1 v1).owed = s.owed := rfl
@[simp] theorem State.owed_setSeq (s : State) (n1 : Cluster) (v1 : Seq) : (s.setSeq n1 v1).owed = s.owed := rfl
@[simp] theorem State.owed_setHop (s : State) (n1 : Cluster) (v1 : Hop) : (s.setHop n1 v1).owed = s.owed := rfl
@[simp] theorem State.owed_setStampQ (s : State) (n1 : Cluster) (v1 : List StampRec) : (s.setStampQ n1 v1).owed = s.owed := rfl
@[simp] theorem State.owed_setAwg (s : State) (n1 : Cluster) (g1 : Fin 2) (v1 : Awg) : (s.setAwg n1 g1 v1).owed = s.owed := rfl
@[simp] theorem State.owed_setTrig (s : State) (n1 : Cluster) (v1 : Trig) : (s.setTrig n1 v1).owed = s.owed := rfl
@[simp] theorem State.owed_setCpt (s : State) (n1 : Cluster) (e1 : Fin 2) (v1 : Cpt) : (s.setCpt n1 e1 v1).owed = s.owed := rfl
@[simp] theorem State.owed_setByte (s : State) (a1 : Nat) (v1 : Byte) : (s.setByte a1 v1).owed = s.owed := rfl
@[simp] theorem State.owed_setMicroAt (s : State) (n1 : Cluster) (a1 : Nat) (v1 : MWord) : (s.setMicroAt n1 a1 v1).owed = s.owed := rfl
@[simp] theorem State.owed_setNanoAt (s : State) (n1 : Cluster) (i1 : Nat) (v1 : NWord) : (s.setNanoAt n1 i1 v1).owed = s.owed := rfl
@[simp] theorem State.owed_setTxn (s : State) (h1 : Nat) (v1 : Txn) : (s.setTxn h1 v1).owed = s.owed := rfl
@[simp] theorem State.owed_setSem (s : State) (k1 : Nat) (v1 : SemSt) : (s.setSem k1 v1).owed = s.owed := rfl
@[simp] theorem State.owed_setFlt (s : State) (k1 : Nat) (v1 : FltSrc) : (s.setFlt k1 v1).owed = s.owed := rfl
@[simp] theorem State.owed_setCalSt (s : State) (n1 : Cluster) (v1 : CalSt) : (s.setCalSt n1 v1).owed = s.owed := rfl
@[simp] theorem State.owed_setGov (s : State) (n1 : Cluster) (v1 : Gov) : (s.setGov n1 v1).owed = s.owed := rfl
@[simp] theorem State.msgs_setReg (s : State) (r1 : Reg) (i1 : Nat) (v1 : Word) : (s.setReg r1 i1 v1).msgs = s.msgs := rfl
@[simp] theorem State.msgs_setChan (s : State) (n1 : Cluster) (c1 : Channel) (v1 : Chan) : (s.setChan n1 c1 v1).msgs = s.msgs := rfl
@[simp] theorem State.msgs_setSeq (s : State) (n1 : Cluster) (v1 : Seq) : (s.setSeq n1 v1).msgs = s.msgs := rfl
@[simp] theorem State.msgs_setHop (s : State) (n1 : Cluster) (v1 : Hop) : (s.setHop n1 v1).msgs = s.msgs := rfl
@[simp] theorem State.msgs_setStampQ (s : State) (n1 : Cluster) (v1 : List StampRec) : (s.setStampQ n1 v1).msgs = s.msgs := rfl
@[simp] theorem State.msgs_setAwg (s : State) (n1 : Cluster) (g1 : Fin 2) (v1 : Awg) : (s.setAwg n1 g1 v1).msgs = s.msgs := rfl
@[simp] theorem State.msgs_setTrig (s : State) (n1 : Cluster) (v1 : Trig) : (s.setTrig n1 v1).msgs = s.msgs := rfl
@[simp] theorem State.msgs_setCpt (s : State) (n1 : Cluster) (e1 : Fin 2) (v1 : Cpt) : (s.setCpt n1 e1 v1).msgs = s.msgs := rfl
@[simp] theorem State.msgs_setByte (s : State) (a1 : Nat) (v1 : Byte) : (s.setByte a1 v1).msgs = s.msgs := rfl
@[simp] theorem State.msgs_setMicroAt (s : State) (n1 : Cluster) (a1 : Nat) (v1 : MWord) : (s.setMicroAt n1 a1 v1).msgs = s.msgs := rfl
@[simp] theorem State.msgs_setNanoAt (s : State) (n1 : Cluster) (i1 : Nat) (v1 : NWord) : (s.setNanoAt n1 i1 v1).msgs = s.msgs := rfl
@[simp] theorem State.msgs_setTxn (s : State) (h1 : Nat) (v1 : Txn) : (s.setTxn h1 v1).msgs = s.msgs := rfl
@[simp] theorem State.msgs_setSem (s : State) (k1 : Nat) (v1 : SemSt) : (s.setSem k1 v1).msgs = s.msgs := rfl
@[simp] theorem State.msgs_setFlt (s : State) (k1 : Nat) (v1 : FltSrc) : (s.setFlt k1 v1).msgs = s.msgs := rfl
@[simp] theorem State.msgs_setCalSt (s : State) (n1 : Cluster) (v1 : CalSt) : (s.setCalSt n1 v1).msgs = s.msgs := rfl
@[simp] theorem State.msgs_setGov (s : State) (n1 : Cluster) (v1 : Gov) : (s.setGov n1 v1).msgs = s.msgs := rfl
@[simp] theorem State.free_setReg (s : State) (r1 : Reg) (i1 : Nat) (v1 : Word) : (s.setReg r1 i1 v1).free = s.free := rfl
@[simp] theorem State.free_setChan (s : State) (n1 : Cluster) (c1 : Channel) (v1 : Chan) : (s.setChan n1 c1 v1).free = s.free := rfl
@[simp] theorem State.free_setSeq (s : State) (n1 : Cluster) (v1 : Seq) : (s.setSeq n1 v1).free = s.free := rfl
@[simp] theorem State.free_setHop (s : State) (n1 : Cluster) (v1 : Hop) : (s.setHop n1 v1).free = s.free := rfl
@[simp] theorem State.free_setStampQ (s : State) (n1 : Cluster) (v1 : List StampRec) : (s.setStampQ n1 v1).free = s.free := rfl
@[simp] theorem State.free_setAwg (s : State) (n1 : Cluster) (g1 : Fin 2) (v1 : Awg) : (s.setAwg n1 g1 v1).free = s.free := rfl
@[simp] theorem State.free_setTrig (s : State) (n1 : Cluster) (v1 : Trig) : (s.setTrig n1 v1).free = s.free := rfl
@[simp] theorem State.free_setCpt (s : State) (n1 : Cluster) (e1 : Fin 2) (v1 : Cpt) : (s.setCpt n1 e1 v1).free = s.free := rfl
@[simp] theorem State.free_setByte (s : State) (a1 : Nat) (v1 : Byte) : (s.setByte a1 v1).free = s.free := rfl
@[simp] theorem State.free_setMicroAt (s : State) (n1 : Cluster) (a1 : Nat) (v1 : MWord) : (s.setMicroAt n1 a1 v1).free = s.free := rfl
@[simp] theorem State.free_setNanoAt (s : State) (n1 : Cluster) (i1 : Nat) (v1 : NWord) : (s.setNanoAt n1 i1 v1).free = s.free := rfl
@[simp] theorem State.free_setTxn (s : State) (h1 : Nat) (v1 : Txn) : (s.setTxn h1 v1).free = s.free := rfl
@[simp] theorem State.free_setSem (s : State) (k1 : Nat) (v1 : SemSt) : (s.setSem k1 v1).free = s.free := rfl
@[simp] theorem State.free_setFlt (s : State) (k1 : Nat) (v1 : FltSrc) : (s.setFlt k1 v1).free = s.free := rfl
@[simp] theorem State.free_setCalSt (s : State) (n1 : Cluster) (v1 : CalSt) : (s.setCalSt n1 v1).free = s.free := rfl
@[simp] theorem State.free_setGov (s : State) (n1 : Cluster) (v1 : Gov) : (s.setGov n1 v1).free = s.free := rfl
@[simp] theorem State.out_setReg (s : State) (r1 : Reg) (i1 : Nat) (v1 : Word) : (s.setReg r1 i1 v1).out = s.out := rfl
@[simp] theorem State.out_setChan (s : State) (n1 : Cluster) (c1 : Channel) (v1 : Chan) : (s.setChan n1 c1 v1).out = s.out := rfl
@[simp] theorem State.out_setSeq (s : State) (n1 : Cluster) (v1 : Seq) : (s.setSeq n1 v1).out = s.out := rfl
@[simp] theorem State.out_setHop (s : State) (n1 : Cluster) (v1 : Hop) : (s.setHop n1 v1).out = s.out := rfl
@[simp] theorem State.out_setStampQ (s : State) (n1 : Cluster) (v1 : List StampRec) : (s.setStampQ n1 v1).out = s.out := rfl
@[simp] theorem State.out_setAwg (s : State) (n1 : Cluster) (g1 : Fin 2) (v1 : Awg) : (s.setAwg n1 g1 v1).out = s.out := rfl
@[simp] theorem State.out_setTrig (s : State) (n1 : Cluster) (v1 : Trig) : (s.setTrig n1 v1).out = s.out := rfl
@[simp] theorem State.out_setCpt (s : State) (n1 : Cluster) (e1 : Fin 2) (v1 : Cpt) : (s.setCpt n1 e1 v1).out = s.out := rfl
@[simp] theorem State.out_setByte (s : State) (a1 : Nat) (v1 : Byte) : (s.setByte a1 v1).out = s.out := rfl
@[simp] theorem State.out_setMicroAt (s : State) (n1 : Cluster) (a1 : Nat) (v1 : MWord) : (s.setMicroAt n1 a1 v1).out = s.out := rfl
@[simp] theorem State.out_setNanoAt (s : State) (n1 : Cluster) (i1 : Nat) (v1 : NWord) : (s.setNanoAt n1 i1 v1).out = s.out := rfl
@[simp] theorem State.out_setTxn (s : State) (h1 : Nat) (v1 : Txn) : (s.setTxn h1 v1).out = s.out := rfl
@[simp] theorem State.out_setSem (s : State) (k1 : Nat) (v1 : SemSt) : (s.setSem k1 v1).out = s.out := rfl
@[simp] theorem State.out_setFlt (s : State) (k1 : Nat) (v1 : FltSrc) : (s.setFlt k1 v1).out = s.out := rfl
@[simp] theorem State.out_setCalSt (s : State) (n1 : Cluster) (v1 : CalSt) : (s.setCalSt n1 v1).out = s.out := rfl
@[simp] theorem State.out_setGov (s : State) (n1 : Cluster) (v1 : Gov) : (s.setGov n1 v1).out = s.out := rfl

/-! ### What was last written -/

@[simp] theorem State.chan_setChan_same (s : State) (n : Cluster) (c : Channel) (v : Chan) : (s.setChan n c v).chan n c = v := tabGet_tabSet_same ..
@[simp] theorem State.seq_setSeq_same (s : State) (n : Cluster) (v : Seq) : (s.setSeq n v).seq n = v := tabGet_tabSet_same ..
@[simp] theorem State.hop_setHop_same (s : State) (n : Cluster) (v : Hop) : (s.setHop n v).hop n = v := tabGet_tabSet_same ..
@[simp] theorem State.stampQ_setStampQ_same (s : State) (n : Cluster) (v : List StampRec) : (s.setStampQ n v).stampQ n = v := tabGet_tabSet_same ..
@[simp] theorem State.awg_setAwg_same (s : State) (n : Cluster) (g : Fin 2) (v : Awg) : (s.setAwg n g v).awg n g = v := tabGet_tabSet_same ..
@[simp] theorem State.trig_setTrig_same (s : State) (n : Cluster) (v : Trig) : (s.setTrig n v).trig n = v := tabGet_tabSet_same ..
@[simp] theorem State.cpt_setCpt_same (s : State) (n : Cluster) (e : Fin 2) (v : Cpt) : (s.setCpt n e v).cpt n e = v := tabGet_tabSet_same ..
@[simp] theorem State.byte_setByte_same (s : State) (a : Nat) (v : Byte) : (s.setByte a v).byte a = v := tabGet_tabSet_same ..
@[simp] theorem State.txn_setTxn_same (s : State) (h : Nat) (v : Txn) : (s.setTxn h v).txn h = v := tabGet_tabSet_same ..
@[simp] theorem State.sem_setSem_same (s : State) (k : Nat) (v : SemSt) : (s.setSem k v).sem k = v := tabGet_tabSet_same ..
@[simp] theorem State.flt_setFlt_same (s : State) (k : Nat) (v : FltSrc) : (s.setFlt k v).flt k = v := tabGet_tabSet_same ..
@[simp] theorem State.calSt_setCalSt_same (s : State) (n : Cluster) (v : CalSt) : (s.setCalSt n v).calSt n = v := tabGet_tabSet_same ..
@[simp] theorem State.govOf_setGov_same (s : State) (n : Cluster) (v : Gov) : (s.setGov n v).govOf n = v := tabGet_tabSet_same ..

theorem chIx_inj {n n' : Cluster} {c c' : Channel} : chIx n c = chIx n' c' ↔ n = n' ∧ c = c' := by
  constructor
  · intro h; unfold chIx at h; exact ⟨Fin.ext (by omega), Fin.ext (by omega)⟩
  · rintro ⟨rfl, rfl⟩; rfl

theorem awgIx_inj {n n' : Cluster} {g g' : Fin 2} : awgIx n g = awgIx n' g' ↔ n = n' ∧ g = g' := by
  constructor
  · intro h; unfold awgIx at h; exact ⟨Fin.ext (by omega), Fin.ext (by omega)⟩
  · rintro ⟨rfl, rfl⟩; rfl

theorem State.chan_setChan (s : State) (n n' : Cluster) (c c' : Channel) (v : Chan) :
    (s.setChan n c v).chan n' c' = if n' = n ∧ c' = c then v else s.chan n' c' := by
  by_cases h : n' = n ∧ c' = c
  · obtain ⟨rfl, rfl⟩ := h; simp
  · rw [if_neg h]; exact tabGet_tabSet_ne _ _ _ _ fun e => h (chIx_inj.1 e)

theorem State.byte_setByte (s : State) (a a' : Nat) (v : Byte) : (s.setByte a v).byte a' = if a' = a then v else s.byte a' := by
  by_cases h : a' = a
  · subst h; simp
  · rw [if_neg h]; exact tabGet_tabSet_ne _ _ _ _ h

/-- Bytes written from a on leave every byte outside them as it was. -/
theorem State.byte_setBytes_out (s : State) (a : Nat) (bs : List Byte) (x : Nat) (h : x < a ∨ a + bs.length ≤ x) :
    (s.setBytes a bs).byte x = s.byte x := by
  induction bs generalizing s a with
  | nil => rfl
  | cons b r ih =>
    simp only [State.setBytes, List.length_cons] at h ⊢
    rw [ih (s.setByte a b) (a + 1) (by omega), State.byte_setByte, if_neg (by omega)]

/-- Bytes written from a on are what is read there. -/
theorem State.byte_setBytes_in (s : State) (a : Nat) (bs : List Byte) (k : Nat) (h : k < bs.length) :
    (s.setBytes a bs).byte (a + k) = bs[k] := by
  induction bs generalizing s a k with
  | nil => simp at h
  | cons b r ih =>
    simp only [State.setBytes]
    cases k with
    | zero => rw [State.byte_setBytes_out _ _ _ _ (by omega)]; simp
    | succ k =>
      have := ih (s.setByte a b) (a + 1) k (by simpa using h)
      rw [show a + (k + 1) = a + 1 + k by omega, this]; rfl

@[simp] theorem State.chan_modChan (s : State) (n : Cluster) (c : Channel) (f : Chan → Chan) :
    (s.modChan n c f).chan n c = f (s.chan n c) := by simp [State.modChan]
@[simp] theorem State.reg_modChan (s : State) (n : Cluster) (c : Channel) (f : Chan → Chan) (r : Reg) (i : Nat) :
    (s.modChan n c f).reg r i = s.reg r i := rfl
@[simp] theorem State.seq_modSeq (s : State) (n : Cluster) (f : Seq → Seq) : (s.modSeq n f).seq n = f (s.seq n) := by
  simp [State.modSeq]
@[simp] theorem State.reg_modSeq (s : State) (n : Cluster) (f : Seq → Seq) (r : Reg) (i : Nat) :
    (s.modSeq n f).reg r i = s.reg r i := rfl

/-! ### Bits and fields -/

@[simp] theorem bitOf_putBit (w : Word) (i j : Nat) (b : Bool) (hi : i < 32) :
    bitOf (putBit w i b) j = if j = i then b else bitOf w j := by
  unfold bitOf putBit
  have h2 : (BitVec.ofNat 32 (2 ^ i)).getLsbD j = decide (j = i) := by
    rw [BitVec.getLsbD_ofNat, Nat.testBit_two_pow]
    by_cases h : j = i
    · subst h; simp [hi]
    · simp [h, Ne.symm h]
  cases b
  · rw [if_neg (by simp), BitVec.getLsbD_and, BitVec.getLsbD_not, h2]
    by_cases h : j = i
    · simp [h]
    · rw [if_neg h]
      by_cases hj : j < 32
      · simp [h, hj]
      · rw [BitVec.getLsbD_of_ge _ _ (by omega)]; simp
  · rw [if_pos rfl, BitVec.getLsbD_or, h2]
    by_cases h : j = i
    · simp [h]
    · simp [h]

theorem maskAt_getLsbD (lo len j : Nat) : (maskAt lo len).getLsbD j = decide (j < 32 ∧ lo ≤ j ∧ j < lo + len) := by
  unfold maskAt
  rw [BitVec.getLsbD_ofNat, Nat.testBit_mul_two_pow, Nat.testBit_two_pow_sub_one]
  by_cases h1 : j < 32 <;> by_cases h2 : lo ≤ j <;> simp [h1, h2]
  omega

/-- Bit j of a word with a field set. -/
theorem bitOf_putFld (w : Word) (lo len v j : Nat) (hj : j < 32) :
    bitOf (putFld w lo len v) j = if lo ≤ j ∧ j < lo + len then v.testBit (j - lo) else bitOf w j := by
  unfold bitOf putFld
  rw [BitVec.getLsbD_or, BitVec.getLsbD_and, BitVec.getLsbD_not, maskAt_getLsbD, BitVec.getLsbD_ofNat, Nat.testBit_mul_two_pow,
    Nat.testBit_mod_two_pow]
  by_cases h2 : lo ≤ j <;> by_cases h3 : j < lo + len <;> simp [hj, h2, h3]
  · omega
  · intro h; omega

theorem fld_testBit (w : Word) (lo len k : Nat) : (fld w lo len).testBit k = (decide (k < len) && w.getLsbD (lo + k)) := by
  unfold fld
  rw [Nat.testBit_mod_two_pow, Nat.testBit_div_two_pow, BitVec.testBit_toNat, Nat.add_comm]

/-- The field just set. -/
@[simp] theorem fld_putFld_same (w : Word) (lo len v : Nat) (h : lo + len ≤ 32) : fld (putFld w lo len v) lo len = v % 2 ^ len := by
  apply Nat.eq_of_testBit_eq
  intro k
  rw [fld_testBit, Nat.testBit_mod_two_pow]
  by_cases hk : k < len
  · have := bitOf_putFld w lo len v (lo + k) (by omega)
    simp only [bitOf] at this
    simp [hk, this]
  · simp [hk]

/-- A field apart from the one set. -/
theorem fld_putFld_ne (w : Word) (lo len v lo' len' : Nat) (h : lo' + len' ≤ 32) (hd : lo' + len' ≤ lo ∨ lo + len ≤ lo') :
    fld (putFld w lo len v) lo' len' = fld w lo' len' := by
  apply Nat.eq_of_testBit_eq
  intro k
  rw [fld_testBit, fld_testBit]
  by_cases hk : k < len'
  · have := bitOf_putFld w lo len v (lo' + k) (by omega)
    simp only [bitOf] at this
    rw [this, if_neg (by omega)]
  · simp [hk]

/-- A field apart from the bit set. -/
theorem fld_putBit_ne (w : Word) (i lo len : Nat) (b : Bool) (hi : i < 32) (hd : i < lo ∨ lo + len ≤ i) :
    fld (putBit w i b) lo len = fld w lo len := by
  apply Nat.eq_of_testBit_eq
  intro k
  rw [fld_testBit, fld_testBit]
  by_cases hk : k < len
  · have := bitOf_putBit w i (lo + k) b hi
    simp only [bitOf] at this
    rw [this, if_neg (by omega)]
  · simp [hk]

/-! ### Fields and bits of registers -/

theorem State.rb_setRb (s : State) (r r' : Reg) (i i' b b' : Nat) (v : Bool) (hb : b < 32) :
    (s.setRb r i b v).rb r' i' b' = if r' = r ∧ i' = i ∧ b' = b then v else s.rb r' i' b' := by
  unfold State.rb State.setRb
  rw [State.reg_setReg]
  by_cases h : r' = r ∧ i' = i
  · obtain ⟨rfl, rfl⟩ := h; simp [hb]
  · rw [if_neg h, if_neg (fun x => h ⟨x.1, x.2.1⟩)]

@[simp] theorem State.rb_setRb_same (s : State) (r : Reg) (i b : Nat) (v : Bool) (hb : b < 32) : (s.setRb r i b v).rb r i b = v := by
  simp [State.rb_setRb, hb]

@[simp] theorem State.rf_setRf_same (s : State) (r : Reg) (i lo len v : Nat) (h : lo + len ≤ 32) :
    (s.setRf r i lo len v).rf r i lo len = v % 2 ^ len := by
  simp [State.rf, State.setRf, h]

/-! ### The moment of a command -/

theorem State.at_eq (s : State) (t : Nat) : s.at t = { s with clasp := (s.at t).clasp } := by
  unfold State.at; split <;> rfl

theorem State.clasp_le_at (s : State) (t : Nat) : s.clasp ≤ (s.at t).clasp := by
  unfold State.at; split
  · exact Nat.le_max_left ..
  · exact Nat.le_refl _

theorem State.at_clasp (s : State) (t : Nat) (h : s.rb .CLK_STAT 0 2 = true) : (s.at t).clasp = max s.clasp t := by
  unfold State.at; rw [if_pos h]

theorem State.at_stopped (s : State) (t : Nat) (h : s.rb .CLK_STAT 0 2 = false) : s.at t = s := by
  unfold State.at; rw [if_neg (by simp [h])]

@[simp] theorem State.reg_at (s : State) (t : Nat) (r : Reg) (i : Nat) : (s.at t).reg r i = s.reg r i := by
  rw [State.at_eq]; rfl
@[simp] theorem State.chan_at (s : State) (t : Nat) (n : Cluster) (c : Channel) : (s.at t).chan n c = s.chan n c := by
  rw [State.at_eq]; rfl
@[simp] theorem State.seq_at (s : State) (t : Nat) (n : Cluster) : (s.at t).seq n = s.seq n := by
  rw [State.at_eq]; rfl
@[simp] theorem State.hop_at (s : State) (t : Nat) (n : Cluster) : (s.at t).hop n = s.hop n := by
  rw [State.at_eq]; rfl
@[simp] theorem State.stampQ_at (s : State) (t : Nat) (n : Cluster) : (s.at t).stampQ n = s.stampQ n := by
  rw [State.at_eq]; rfl
@[simp] theorem State.awg_at (s : State) (t : Nat) (n : Cluster) (g : Fin 2) : (s.at t).awg n g = s.awg n g := by
  rw [State.at_eq]; rfl
@[simp] theorem State.trig_at (s : State) (t : Nat) (n : Cluster) : (s.at t).trig n = s.trig n := by
  rw [State.at_eq]; rfl
@[simp] theorem State.cpt_at (s : State) (t : Nat) (n : Cluster) (e : Fin 2) : (s.at t).cpt n e = s.cpt n e := by
  rw [State.at_eq]; rfl
@[simp] theorem State.byte_at (s : State) (t : Nat) (a : Nat) : (s.at t).byte a = s.byte a := by
  rw [State.at_eq]; rfl
@[simp] theorem State.microAt_at (s : State) (t : Nat) (n : Cluster) (a : Nat) : (s.at t).microAt n a = s.microAt n a := by
  rw [State.at_eq]; rfl
@[simp] theorem State.nanoAt_at (s : State) (t : Nat) (n : Cluster) (i : Nat) : (s.at t).nanoAt n i = s.nanoAt n i := by
  rw [State.at_eq]; rfl
@[simp] theorem State.txn_at (s : State) (t : Nat) (h : Nat) : (s.at t).txn h = s.txn h := by
  rw [State.at_eq]; rfl
@[simp] theorem State.sem_at (s : State) (t : Nat) (k : Nat) : (s.at t).sem k = s.sem k := by
  rw [State.at_eq]; rfl
@[simp] theorem State.flt_at (s : State) (t : Nat) (k : Nat) : (s.at t).flt k = s.flt k := by
  rw [State.at_eq]; rfl
@[simp] theorem State.calSt_at (s : State) (t : Nat) (n : Cluster) : (s.at t).calSt n = s.calSt n := by
  rw [State.at_eq]; rfl
@[simp] theorem State.govOf_at (s : State) (t : Nat) (n : Cluster) : (s.at t).govOf n = s.govOf n := by
  rw [State.at_eq]; rfl
@[simp] theorem State.pending_at (s : State) (t : Nat) : (s.at t).pending = s.pending := by rw [State.at_eq]
@[simp] theorem State.libMicro_at (s : State) (t : Nat) : (s.at t).libMicro = s.libMicro := by rw [State.at_eq]
@[simp] theorem State.libNano_at (s : State) (t : Nat) : (s.at t).libNano = s.libNano := by rw [State.at_eq]
@[simp] theorem State.bands_at (s : State) (t : Nat) : (s.at t).bands = s.bands := by rw [State.at_eq]
@[simp] theorem State.blankAt_at (s : State) (t : Nat) : (s.at t).blankAt = s.blankAt := by rw [State.at_eq]
@[simp] theorem State.awgTab_at (s : State) (t : Nat) : (s.at t).awgTab = s.awgTab := by rw [State.at_eq]
@[simp] theorem State.slcShadow_at (s : State) (t : Nat) : (s.at t).slcShadow = s.slcShadow := by rw [State.at_eq]
@[simp] theorem State.slcActive_at (s : State) (t : Nat) : (s.at t).slcActive = s.slcActive := by rw [State.at_eq]
@[simp] theorem State.slcAt_at (s : State) (t : Nat) : (s.at t).slcAt = s.slcAt := by rw [State.at_eq]
@[simp] theorem State.slcFrame_at (s : State) (t : Nat) : (s.at t).slcFrame = s.slcFrame := by rw [State.at_eq]
@[simp] theorem State.slcCnt_at (s : State) (t : Nat) : (s.at t).slcCnt = s.slcCnt := by rw [State.at_eq]
@[simp] theorem State.lotTkt_at (s : State) (t : Nat) : (s.at t).lotTkt = s.lotTkt := by rw [State.at_eq]
@[simp] theorem State.lotPend_at (s : State) (t : Nat) : (s.at t).lotPend = s.lotPend := by rw [State.at_eq]
@[simp] theorem State.lfsrAt_at (s : State) (t : Nat) : (s.at t).lfsrAt = s.lfsrAt := by rw [State.at_eq]
@[simp] theorem State.present_at (s : State) (t : Nat) : (s.at t).present = s.present := by rw [State.at_eq]
@[simp] theorem State.waiting_at (s : State) (t : Nat) : (s.at t).waiting = s.waiting := by rw [State.at_eq]
@[simp] theorem State.grants_at (s : State) (t : Nat) : (s.at t).grants = s.grants := by rw [State.at_eq]
@[simp] theorem State.atoms_at (s : State) (t : Nat) : (s.at t).atoms = s.atoms := by rw [State.at_eq]
@[simp] theorem State.cap_at (s : State) (t : Nat) : (s.at t).cap = s.cap := by rw [State.at_eq]
@[simp] theorem State.msix_at (s : State) (t : Nat) : (s.at t).msix = s.msix := by rw [State.at_eq]
@[simp] theorem State.pba_at (s : State) (t : Nat) : (s.at t).pba = s.pba := by rw [State.at_eq]
@[simp] theorem State.hiLatch_at (s : State) (t : Nat) : (s.at t).hiLatch = s.hiLatch := by rw [State.at_eq]
@[simp] theorem State.ring_at (s : State) (t : Nat) : (s.at t).ring = s.ring := by rw [State.at_eq]
@[simp] theorem State.pwr_at (s : State) (t : Nat) : (s.at t).pwr = s.pwr := by rw [State.at_eq]
@[simp] theorem State.boot_at (s : State) (t : Nat) : (s.at t).boot = s.boot := by rw [State.at_eq]
@[simp] theorem State.msp_at (s : State) (t : Nat) : (s.at t).msp = s.msp := by rw [State.at_eq]
@[simp] theorem State.tap_at (s : State) (t : Nat) : (s.at t).tap = s.tap := by rw [State.at_eq]
@[simp] theorem State.boundary_at (s : State) (t : Nat) : (s.at t).boundary = s.boundary := by rw [State.at_eq]
@[simp] theorem State.hist_at (s : State) (t : Nat) : (s.at t).hist = s.hist := by rw [State.at_eq]
@[simp] theorem State.ramps_at (s : State) (t : Nat) : (s.at t).ramps = s.ramps := by rw [State.at_eq]
@[simp] theorem State.refDue_at (s : State) (t : Nat) : (s.at t).refDue = s.refDue := by rw [State.at_eq]
@[simp] theorem State.refLast_at (s : State) (t : Nat) : (s.at t).refLast = s.refLast := by rw [State.at_eq]
@[simp] theorem State.window_at (s : State) (t : Nat) : (s.at t).window = s.window := by rw [State.at_eq]
@[simp] theorem State.assay_at (s : State) (t : Nat) : (s.at t).assay = s.assay := by rw [State.at_eq]
@[simp] theorem State.life_at (s : State) (t : Nat) : (s.at t).life = s.life := by rw [State.at_eq]
@[simp] theorem State.lifeHdr_at (s : State) (t : Nat) : (s.at t).lifeHdr = s.lifeHdr := by rw [State.at_eq]
@[simp] theorem State.lifeSlot_at (s : State) (t : Nat) : (s.at t).lifeSlot = s.lifeSlot := by rw [State.at_eq]
@[simp] theorem State.lifeMin_at (s : State) (t : Nat) : (s.at t).lifeMin = s.lifeMin := by rw [State.at_eq]
@[simp] theorem State.replaceWait_at (s : State) (t : Nat) : (s.at t).replaceWait = s.replaceWait := by rw [State.at_eq]
@[simp] theorem State.patch_at (s : State) (t : Nat) : (s.at t).patch = s.patch := by rw [State.at_eq]
@[simp] theorem State.wakes_at (s : State) (t : Nat) : (s.at t).wakes = s.wakes := by rw [State.at_eq]
@[simp] theorem State.owed_at (s : State) (t : Nat) : (s.at t).owed = s.owed := by rw [State.at_eq]
@[simp] theorem State.msgs_at (s : State) (t : Nat) : (s.at t).msgs = s.msgs := by rw [State.at_eq]
@[simp] theorem State.free_at (s : State) (t : Nat) : (s.at t).free = s.free := by rw [State.at_eq]
@[simp] theorem State.out_at (s : State) (t : Nat) : (s.at t).out = s.out := by rw [State.at_eq]
@[simp] theorem State.rb_at (s : State) (t : Nat) (r : Reg) (i b : Nat) : (s.at t).rb r i b = s.rb r i b := by simp [State.rb]
@[simp] theorem State.rf_at (s : State) (t : Nat) (r : Reg) (i lo len : Nat) : (s.at t).rf r i lo len = s.rf r i lo len := by simp [State.rf]

/-! ### Reading a frame -/

/-- What a frame says of a register outside its mask. -/
theorem Upd.reg {s' : State} (h : Upd K R C s s') (r : Reg) (i : Nat) (hr : R.testBit r.ctorIdx = false) : s'.reg r i = s.reg r i := h.regs r i hr
theorem Upd.rb {s' : State} (h : Upd K R C s s') (r : Reg) (i b : Nat) (hr : R.testBit r.ctorIdx = false) : s'.rb r i b = s.rb r i b := by
  unfold State.rb; rw [h.regs r i hr]
theorem Upd.rf {s' : State} (h : Upd K R C s s') (r : Reg) (i lo len : Nat) (hr : R.testBit r.ctorIdx = false) : s'.rf r i lo len = s.rf r i lo len := by
  unfold State.rf; rw [h.regs r i hr]

end Sys2Proof.Machine
end

