-- ==== Sys2Proof/Laws/Address.lean ====
section
/-! SUPPORT. Sys2Proof/Laws/Address.lean: the address of an element of a register holds that element (R503, R504), for the
registers that commands write or read. -/

namespace Sys2Proof.Machine

/-- Where a register's words lie: its kind, its first word, one more than its last, how far apart. -/
abbrev Place := Bool × (Nat × (Nat × Nat))

/-- One more than the offset of the last element. -/
def RegRow.past (a : RegRow) : Nat := Nat.succ (Nat.add a.base (Nat.mul (Nat.pred a.count) a.stride))

def Reg.place (r : Reg) : Place := (r.row.cluster, (r.row.base, (r.row.past, r.row.stride)))

/-- Registers x and r have no word in common, or are the same. -/
def apart (x : Reg) (c : Bool) (b e t : Nat) : Reg × Place → Bool
  | (r, (c', (b', (e', t')))) =>
    or (Nat.ble e b') (or (Nat.ble e' b) (or (and (Nat.beq t t') (not (Nat.beq (Nat.mod b t) (Nat.mod b' t'))))
      (or (bne c c') (Nat.beq x.ctorIdx r.ctorIdx))))

/-- A register's words lie within its window. -/
def RegRow.fits (c : Bool) (b n t : Nat) : Bool := Nat.blt 0 n && (Nat.blt 0 t && Nat.ble (b + n * t) (if c then 0x100000 else 0x1000000))

def apartAll (x : Reg) (c : Bool) (b e t : Nat) (acc : List (Reg × Place)) : Bool :=
  List.rec true (fun y _ ih => and (apart x c b e t y) ih) acc

def apartFrom (x : Reg) (acc : List (Reg × Place)) : Bool :=
  match x.row with
  | ⟨c, b, n, t, _, _, _, _, _⟩ => apartAll x c b (Nat.succ (Nat.add b (Nat.mul (Nat.pred n) t))) t acc

/-- Every register of l is apart from those of acc. -/
def allApart (l : List Reg) (acc : List (Reg × Place)) : Bool := List.rec true (fun x _ ih => and (apartFrom x acc) ih) l

/-- The registers of a list fit, and every register of the map is apart from them and from acc; each row is taken once. -/
def placed : List Reg → List (Reg × Place) → Bool
  | [], acc => allApart allRegs acc
  | r :: l, acc =>
    match r.row with
    | ⟨c, b, n, t, _, _, _, _, _⟩ =>
      RegRow.fits c b n t && placed l ((r, (c, (b, (Nat.succ (Nat.add b (Nat.mul (Nat.pred n) t)), t)))) :: acc)

/-- The registers that commands of the table write or read. -/
def cmdRegs : List Reg :=
  [.CH_CTRL, .CH_LVL, .CH_CMP, .CL_BLANK_TMR, .CH_SELFCHK, .CH_PM_CTRL, .CH_PM_FV, .CH_PM_FI, .CH_PM_ICLH, .CH_PM_ICLL,
    .CH_PM_VCLH, .CH_PM_VCLL, .CH_PM_RES, .CL_SEQ_CTRL, .CL_HOP_CTRL, .CL_MR_CMD, .HALLMARK_PATCH_CTRL, .CH_RG_CTRL,
    .CH_RG_STAT, .CL_TRG_CTRL] ++
  [.CL_CAP_CTRL, .CL_AWG_CTRL, .CL_AWG_JUMP, .CL_AWG_TDATA_HI, .CL_AWG_FTW_LO, .CL_AWG_FTW_HI, .CL_AWG_POFF_LO,
    .CL_AWG_POFF_HI, .CL_AWG_AMP, .CAP_CTRL, .BANK_OWN, .BANK_STATE, .SLC_DATA, .SLC_COMMIT, .LOT_COMMIT, .LOT_LFSR,
    .SEM_ACQ, .SEM_REL, .HDMA0_CTRL, .HDMA1_CTRL] ++
  [.DOM_MGMT, .TXN_CTRL, .RING_CTRL, .PWR_CTRL, .GOV_NOM_PBUD, .GOV_NOM_IBUD, .CAL_CTRL, .CAL_REFV_CERT, .CH_TRIM,
    .AWG_TRIM, .CL_CAL_CTRL, .FLT_INJECT_HI, .ASY_CTRL, .FLT_RET_CLU, .FLT_RET_CH, .PSM_CTRL, .MSP_HCTRL, .ID_LOCK]

theorem cmdRegs_placed : placed cmdRegs [] = true := by decide +kernel

theorem allRegs_mem (r : Reg) : r ∈ allRegs := by
  have h : allRegs = (List.range allRegs.length).map Reg.ofNat := by decide +kernel
  have hn : allRegs.length = 424 := by decide +kernel
  have hl : r.ctorIdx < 424 := by cases r <;> decide
  rw [h, hn]
  exact List.mem_map.2 ⟨r.ctorIdx, List.mem_range.2 hl, Reg.ofNat_ctorIdx r⟩

theorem apartAll_mem {x : Reg} {c : Bool} {b e t : Nat} {acc : List (Reg × Place)} (h : apartAll x c b e t acc = true)
    {y : Reg × Place} (hy : y ∈ acc) : apart x c b e t y = true := by
  induction acc with
  | nil => cases hy
  | cons z l ih =>
    have h' : (apart x c b e t z && apartAll x c b e t l) = true := h
    rw [Bool.and_eq_true] at h'
    rcases List.mem_cons.1 hy with e | hm
    · rw [e]; exact h'.1
    · exact ih h'.2 hm

theorem allApart_mem {l : List Reg} {acc : List (Reg × Place)} (h : allApart l acc = true) {x : Reg} (hx : x ∈ l) :
    apartFrom x acc = true := by
  induction l with
  | nil => cases hx
  | cons z l ih =>
    have h' : (apartFrom z acc && allApart l acc) = true := h
    rw [Bool.and_eq_true] at h'
    rcases List.mem_cons.1 hx with e | hm
    · rw [e]; exact h'.1
    · exact ih h'.2 hm

theorem placed_cons {r : Reg} {l : List Reg} {acc : List (Reg × Place)} (h : placed (r :: l) acc = true) :
    RegRow.fits r.row.cluster r.row.base r.row.count r.row.stride = true ∧ placed l ((r, r.place) :: acc) = true := by
  have h' : (RegRow.fits r.row.cluster r.row.base r.row.count r.row.stride && placed l ((r, r.place) :: acc)) = true := h
  rwa [Bool.and_eq_true] at h'

theorem placed_mem {l : List Reg} {acc : List (Reg × Place)} (h : placed l acc = true) :
    (∀ r ∈ l, RegRow.fits r.row.cluster r.row.base r.row.count r.row.stride = true) ∧
      ∀ x, (∀ r ∈ l, apart x x.row.cluster x.row.base x.row.past x.row.stride (r, r.place) = true) ∧
        ∀ y ∈ acc, apart x x.row.cluster x.row.base x.row.past x.row.stride y = true := by
  induction l generalizing acc with
  | nil =>
    refine ⟨fun _ hr => (by cases hr), fun x => ⟨fun _ hr => (by cases hr), fun y hy => ?_⟩⟩
    exact apartAll_mem (allApart_mem h (allRegs_mem x)) hy
  | cons r l ih =>
    obtain ⟨h1, h2⟩ := placed_cons h
    obtain ⟨h3, h4⟩ := ih h2
    refine ⟨fun r' hr => ?_, fun x => ⟨fun r' hr => ?_, fun y hy => (h4 x).2 y (List.mem_cons_of_mem _ hy)⟩⟩
    · rcases List.mem_cons.1 hr with e | hm
      · rw [e]; exact h1
      · exact h3 r' hm
    · rcases List.mem_cons.1 hr with e | hm
      · rw [e]; exact (h4 x).2 _ (List.mem_cons_self ..)
      · exact (h4 x).1 r' hm

theorem cmdRegs_row {r : Reg} (h : r ∈ cmdRegs) : 0 < r.row.count ∧ 0 < r.row.stride ∧
    r.row.base + r.row.count * r.row.stride ≤ (if r.row.cluster then 0x100000 else 0x1000000) := by
  have := (placed_mem cmdRegs_placed).1 r h
  unfold RegRow.fits at this
  simp only [Bool.and_eq_true, Nat.blt_eq, Nat.ble_eq] at this
  exact ⟨this.1, this.2.1, this.2.2⟩

theorem apart_elemAt {x r : Reg} {off j : Nat} (h : apart x x.row.cluster x.row.base x.row.past x.row.stride (r, r.place) = true)
    (hne : x ≠ r) (hc : x.row.cluster = r.row.cluster) (ho : off = r.row.base + j * r.row.stride) (hj : j < r.row.count) :
    x.elemAt off = none := by
  unfold Reg.elemAt
  rw [if_neg]
  rintro ⟨h1, h2, h3⟩
  have hr : j * r.row.stride ≤ (r.row.count - 1) * r.row.stride := Nat.mul_le_mul_right _ (by omega)
  have hx : off - x.row.base = (off - x.row.base) / x.row.stride * x.row.stride := by
    have := Nat.div_add_mod (off - x.row.base) x.row.stride; rw [h2] at this; rw [Nat.mul_comm]; omega
  have hx2 : (off - x.row.base) / x.row.stride * x.row.stride ≤ (x.row.count - 1) * x.row.stride := Nat.mul_le_mul_right _ (by omega)
  have ex : x.row.past = x.row.base + (x.row.count - 1) * x.row.stride + 1 := rfl
  have er : r.row.past = r.row.base + (r.row.count - 1) * r.row.stride + 1 := rfl
  have h' : (Nat.ble x.row.past r.row.base || (Nat.ble r.row.past x.row.base ||
      ((Nat.beq x.row.stride r.row.stride && !Nat.beq (x.row.base % x.row.stride) (r.row.base % r.row.stride)) ||
      ((x.row.cluster != r.row.cluster) || Nat.beq x.ctorIdx r.ctorIdx)))) = true := h
  simp only [Bool.or_eq_true, Bool.and_eq_true, Bool.not_eq_true', bne_iff_ne, Nat.ble_eq] at h'
  rcases h' with h' | h' | ⟨e, h'⟩ | h' | h'
  · omega
  · omega
  · have e1 : off % x.row.stride = x.row.base % x.row.stride := by
      have : off = x.row.base + (off - x.row.base) / x.row.stride * x.row.stride := by omega
      rw [this, Nat.add_mul_mod_self_right]
    have e2 : off % r.row.stride = r.row.base % r.row.stride := by rw [ho, Nat.add_mul_mod_self_right]
    have e3 := Nat.eq_of_beq_eq_true e
    rw [← e1, ← e2, e3, Nat.beq_refl] at h'
    cases h'
  · exact h' hc
  · exact hne (Reg.ctorIdx_inj (Nat.eq_of_beq_eq_true h'))

theorem findReg_apart {r : Reg} {off j : Nat} {l : List Reg} (hm : r ∈ l) (h : r ∈ cmdRegs)
    (ho : off = r.row.base + j * r.row.stride) (hj : j < r.row.count) : findReg r.row.cluster off l = some (r, j) := by
  induction l with
  | nil => cases hm
  | cons x l ih =>
    unfold findReg
    by_cases hx : x = r
    · subst hx
      have : x.elemAt off = some j := by
        unfold Reg.elemAt
        have e : off - x.row.base = j * x.row.stride := by omega
        rw [e, Nat.mul_mod_left, Nat.mul_div_cancel _ (cmdRegs_row h).2.1, if_pos ⟨by omega, rfl, hj⟩]
      rw [if_pos rfl, this]
    · have hr : r ∈ l := by
        rcases List.mem_cons.1 hm with h | h
        · exact absurd h.symm hx
        · exact h
      split
      · rename_i hc
        rw [apart_elemAt (((placed_mem cmdRegs_placed).2 x).1 r h) hx hc ho hj]
        exact ih hr
      · exact ih hr

/-- The window of the cluster of element i holds its address. -/
theorem addr_window {r : Reg} {i : Nat} (h : r ∈ cmdRegs) (hc : r.row.cluster = true) (hi : i < r.size) :
    (0x1000000 ≤ r.addr i ∧ r.addr i < 0x2800000) ∧ (r.addr i - 0x1000000) / 0x100000 = r.cluOf i ∧
      (r.addr i - 0x1000000) % 0x100000 = r.row.base + r.sub i * r.row.stride := by
  obtain ⟨h0, hs, hb⟩ := cmdRegs_row h
  unfold Reg.size at hi
  rw [if_pos hc] at hb hi
  have h1 : r.cluOf i < 24 := by unfold Reg.cluOf; exact Nat.div_lt_of_lt_mul (by rw [Nat.mul_comm]; exact hi)
  have h2 : r.sub i < r.row.count := by unfold Reg.sub; rw [if_pos hc]; exact Nat.mod_lt _ h0
  have h3 : r.sub i * r.row.stride + r.row.stride ≤ r.row.count * r.row.stride := by
    have := Nat.mul_le_mul_right r.row.stride (Nat.succ_le_of_lt h2); rwa [Nat.succ_mul] at this
  unfold Reg.addr
  rw [if_pos hc]
  refine ⟨⟨by omega, by omega⟩, by omega, by omega⟩

theorem addr_global {r : Reg} {i : Nat} (h : r ∈ cmdRegs) (hc : r.row.cluster = false) (hi : i < r.size) : r.addr i < 0x1000000 := by
  obtain ⟨h0, hs, hb⟩ := cmdRegs_row h
  unfold Reg.size at hi
  rw [if_neg (by simp [hc])] at hb hi
  have h3 : i * r.row.stride + r.row.stride ≤ r.row.count * r.row.stride := by
    have := Nat.mul_le_mul_right r.row.stride (Nat.succ_le_of_lt hi); rwa [Nat.succ_mul] at this
  unfold Reg.addr
  rw [if_neg (by simp [hc])]
  omega

/-- The address of an element holds it. -/
theorem regAt_addr {r : Reg} {i : Nat} (h : r ∈ cmdRegs) (hi : i < r.size) : regAt (r.addr i) = some (r, i) := by
  obtain ⟨h0, hs, hb⟩ := cmdRegs_row h
  cases hc : r.row.cluster
  · have hg := addr_global h hc hi
    unfold regAt
    rw [if_pos hg]
    unfold Reg.size at hi
    rw [if_neg (by simp [hc])] at hi
    have := findReg_apart (off := r.addr i) (allRegs_mem r) h (by unfold Reg.addr; rw [if_neg (by simp [hc])]) hi
    rwa [hc] at this
  · obtain ⟨hw, hq, ho⟩ := addr_window h hc hi
    have h2 : r.sub i < r.row.count := by unfold Reg.sub; rw [if_pos hc]; exact Nat.mod_lt _ h0
    have hf := findReg_apart (allRegs_mem r) h ho h2
    rw [hc] at hf
    unfold regAt
    rw [if_neg (by omega), if_pos (by omega), hf]
    simp only [hq]
    unfold Reg.sub Reg.cluOf
    rw [if_pos hc, Nat.mul_comm, Nat.div_add_mod]

end Sys2Proof.Machine
end

