-- ==== Sys2Proof/Laws/Kinds.lean ====
section
/-! SUPPORT. Sys2Proof/Laws/Kinds.lean: the relation Upd (Laws/Upd.lean) for answers of other kinds than a state, over folds, and at
the updates of registers and channels. -/

namespace Sys2Proof.Machine
variable {K R : Nat} {C : Nat → Nat → Prop} {s0 s : State}

/-- What an answer of another kind may change. -/
inductive ActUpd (K R : Nat) (C : Nat → Nat → Prop) (s0 : State) : Act → Prop
  | ok {s : State} (h : Upd K R C s0 s) : ActUpd K R C s0 (.ok s)
  | drop {s : State} (h : Upd K R C s0 s) : ActUpd K R C s0 (.drop s)
  | clash {s : State} {a b : Nat} (h : Upd K R C s0 s) : ActUpd K R C s0 (.clash s a b)
def SndUpd {α : Type} (K R : Nat) (C : Nat → Nat → Prop) (s0 : State) (x : α × State) : Prop := Upd K R C s0 x.2
def FstUpd {α : Type} (K R : Nat) (C : Nat → Nat → Prop) (s0 : State) (x : State × α) : Prop := Upd K R C s0 x.1
def OptUpd (K R : Nat) (C : Nat → Nat → Prop) (s0 : State) : Option State → Prop
  | some s => Upd K R C s0 s
  | none => True
def ResUpd (K R : Nat) (C : Nat → Nat → Prop) (s0 : State) : Res → Prop
  | .next s => Upd K R C s0 s
  | _ => False

theorem ActUpd.ite {c : Prop} [Decidable c] {a b} (ha : ActUpd K R C s0 a) (hb : ActUpd K R C s0 b) :
    ActUpd K R C s0 (if c then a else b) := by split <;> assumption
theorem SndUpd.mk {α} {a : α} (h : Upd K R C s0 s) : SndUpd K R C s0 (a, s) := h
theorem SndUpd.out {α} {x : α × State} (h : SndUpd K R C s0 x) : Upd K R C s0 x.2 := h
theorem SndUpd.ite {α} {c : Prop} [Decidable c] {a b : α × State} (ha : SndUpd K R C s0 a) (hb : SndUpd K R C s0 b) :
    SndUpd K R C s0 (if c then a else b) := by split <;> assumption
theorem SndUpd.of_eq {α} {x : α × State} {a : α} {s : State} (he : x = (a, s)) (h : SndUpd K R C s0 x) : Upd K R C s0 s := by
  subst he; exact h
theorem FstUpd.mk {α} {a : α} (h : Upd K R C s0 s) : FstUpd K R C s0 (s, a) := h
theorem FstUpd.out {α} {x : State × α} (h : FstUpd K R C s0 x) : Upd K R C s0 x.1 := h
theorem FstUpd.ite {α} {c : Prop} [Decidable c] {a b : State × α} (ha : FstUpd K R C s0 a) (hb : FstUpd K R C s0 b) :
    FstUpd K R C s0 (if c then a else b) := by split <;> assumption
theorem FstUpd.of_eq {α} {x : State × α} {a : α} {s : State} (he : x = (s, a)) (h : FstUpd K R C s0 x) : Upd K R C s0 s := by
  subst he; exact h
theorem OptUpd.none : OptUpd K R C s0 none := trivial
theorem OptUpd.some (h : Upd K R C s0 s) : OptUpd K R C s0 (some s) := h
theorem OptUpd.ite {c : Prop} [Decidable c] {a b} (ha : OptUpd K R C s0 a) (hb : OptUpd K R C s0 b) :
    OptUpd K R C s0 (if c then a else b) := by split <;> assumption
theorem OptUpd.of_eq {x : Option State} {s : State} (he : x = Option.some s) (h : OptUpd K R C s0 x) : Upd K R C s0 s := by
  subst he; exact h
theorem OptUpd.getD {x : Option State} (h : OptUpd K R C s0 x) (hs : Upd K R C s0 s) : Upd K R C s0 (x.getD s) := by
  cases x with
  | none => exact hs
  | some y => exact h
theorem ResUpd.next (h : Upd K R C s0 s) : ResUpd K R C s0 (.next s) := h
theorem ResUpd.ite {c : Prop} [Decidable c] {a b} (ha : ResUpd K R C s0 a) (hb : ResUpd K R C s0 b) :
    ResUpd K R C s0 (if c then a else b) := by split <;> assumption

def IssUpd (K R : Nat) (C : Nat → Nat → Prop) (s0 : State) : Issue → Prop
  | .done s | .marked s | .resumes s | .awaits s => Upd K R C s0 s
def Snd2Upd {α β : Type} (K R : Nat) (C : Nat → Nat → Prop) (s0 : State) (x : α × (β × State)) : Prop := Upd K R C s0 x.2.2
def OSndUpd {α : Type} (K R : Nat) (C : Nat → Nat → Prop) (s0 : State) : Option (α × State) → Prop
  | some x => Upd K R C s0 x.2
  | none => True
theorem IssUpd.done (h : Upd K R C s0 s) : IssUpd K R C s0 (.done s) := h
theorem IssUpd.marked (h : Upd K R C s0 s) : IssUpd K R C s0 (.marked s) := h
theorem IssUpd.resumes (h : Upd K R C s0 s) : IssUpd K R C s0 (.resumes s) := h
theorem IssUpd.awaits (h : Upd K R C s0 s) : IssUpd K R C s0 (.awaits s) := h
theorem IssUpd.ite {c : Prop} [Decidable c] {a b} (ha : IssUpd K R C s0 a) (hb : IssUpd K R C s0 b) :
    IssUpd K R C s0 (if c then a else b) := by split <;> assumption
theorem IssUpd.of_done {x} (he : x = Issue.done s) (h : IssUpd K R C s0 x) : Upd K R C s0 s := by subst he; exact h
theorem IssUpd.of_marked {x} (he : x = Issue.marked s) (h : IssUpd K R C s0 x) : Upd K R C s0 s := by subst he; exact h
theorem IssUpd.of_resumes {x} (he : x = Issue.resumes s) (h : IssUpd K R C s0 x) : Upd K R C s0 s := by subst he; exact h
theorem IssUpd.of_awaits {x} (he : x = Issue.awaits s) (h : IssUpd K R C s0 x) : Upd K R C s0 s := by subst he; exact h
theorem ActUpd.of_ok {x} (he : x = Act.ok s) (h : ActUpd K R C s0 x) : Upd K R C s0 s := by
  subst he; cases h; assumption
theorem ActUpd.of_drop {x} (he : x = Act.drop s) (h : ActUpd K R C s0 x) : Upd K R C s0 s := by
  subst he; cases h; assumption
theorem ActUpd.of_clash {x a b} (he : x = Act.clash s a b) (h : ActUpd K R C s0 x) : Upd K R C s0 s := by
  subst he; cases h; assumption
theorem Snd2Upd.mk {α β} {a : α} {b : β} (h : Upd K R C s0 s) : Snd2Upd K R C s0 (a, b, s) := h
theorem Snd2Upd.out {α β} {x : α × (β × State)} (h : Snd2Upd K R C s0 x) : Upd K R C s0 x.2.2 := h
theorem OSndUpd.none {α : Type} : OSndUpd (α := α) K R C s0 none := trivial
theorem OSndUpd.some {α : Type} {a : α} (h : Upd K R C s0 s) : OSndUpd K R C s0 (some (a, s)) := h
theorem OSndUpd.of_eq {α : Type} {a : α} {x : Option (α × State)} (he : x = Option.some (a, s)) (h : OSndUpd K R C s0 x) :
    Upd K R C s0 s := by subst he; exact h

theorem dropClu_get {α : Type} {d : α} {n m k : Nat} (t : List (Nat × α)) (h : k / m ≠ n) :
    tabGet d (dropClu n m t) k = tabGet d t k := by
  unfold dropClu
  rw [tabGet_filter (fun k => decide (k / m ≠ n))]; simp [h]

theorem Upd.any {s' : State} (h : Upd K R C s0 s) (hc : ∀ n c, C n c) (hp : s'.pending = s.pending)
    (hk : ∀ p : Part, K.testBit p.ctorIdx = false → p.same s s') (hr : ∀ r : Reg, R.testBit r.ctorIdx = true)
    (hi : Inv s → Inv s') : Upd K R C s0 s' :=
  h.trans ⟨hp, hk, fun r _ x => by simp [hr r] at x, ⟨fun n c _ x => absurd (hc n c) x, fun _ n c _ _ _ x => absurd (hc n c) x,
    fun _ _ _ x => absurd (hc _ 0) (x 0), fun k x => absurd (hc k 0) (x 0)⟩, hi⟩

theorem ne_of_scope {n m k k' : Nat} (hc : ∀ c, C n c) (hk : ∀ c, ¬ C k' c) (e : k / m = k') : k / m ≠ n :=
  fun h => hk 0 (by rw [← e, h]; exact hc 0)

theorem foldl_upd {α : Type} {f : State → α → State} {l : List α} (hs : Upd K R C s0 s)
    (hf : ∀ s a, Upd K R C s0 s → Upd K R C s0 (f s a)) : Upd K R C s0 (l.foldl f s) := by
  induction l generalizing s with
  | nil => exact hs
  | cons a r ih => exact ih (hf s a hs)

theorem foldl_range_upd {f : State → Nat → State} {k : Nat} (hs : Upd K R C s0 s)
    (hf : ∀ s a, a < k → Upd K R C s0 s → Upd K R C s0 (f s a)) : Upd K R C s0 ((List.range k).foldl f s) := by
  induction k with
  | zero => exact hs
  | succ k ih =>
    rw [List.range_succ, List.foldl_append]
    exact hf _ k (Nat.lt_succ_self k) (ih fun s a ha h => hf s a (Nat.lt_succ_of_lt ha) h)

theorem foldr_upd {α : Type} {f : α → State → State} {l : List α} (hs : Upd K R C s0 s)
    (hf : ∀ a s, Upd K R C s0 s → Upd K R C s0 (f a s)) : Upd K R C s0 (l.foldr f s) := by
  induction l with
  | nil => exact hs
  | cons a r ih => exact hf a _ ih

theorem full_testBit (r : Reg) :
    Nat.testBit 0xffffffffffffffffffffffffffffffffffffffffffffffffffffffffffffffffffffffffffffffffffffffffffffffffffffffffffffffffffffffffffffffff r.ctorIdx = true := by
  cases r <;> rfl

theorem forChannels_upd {n : Cluster} {f : Cluster → Channel → State → State}
    (hf : ∀ c s, Upd K R C s0 s → Upd K R C s0 (f n c s)) (hs : Upd K R C s0 s) : Upd K R C s0 (forChannels n f s) :=
  foldl_upd hs fun s c h => hf c s h

theorem State.setChan_upd {n : Cluster} {c : Channel} {v : Chan} (h : Upd K R C s0 s) (hk : 0x40 ||| K = K)
    (hc : C n.val c.val) : Upd K R C s0 (s.setChan n c v) :=
  Machine.setChan_upd h (testBit_of_sub hk rfl) hc

theorem State.setReg_upd {r : Reg} {i : Nat} {v : Word} (h : Upd K R C s0 s) (hr : R.testBit r.ctorIdx = true) (hc : RegOk C r i) :
    Upd K R C s0 (s.setReg r i v) := Machine.setReg_upd h hr hc

end Sys2Proof.Machine
end

