-- ==== Sys2Proof/Laws/Frames1.lean ====
section
/-! SUPPORT. Sys2Proof/Laws/Frames1.lean: what each operation of Machine/Ops, Flags, MemOps, GateOps, PmuOps, SafeOps, AwgOps, Awg, TrigOps, SeqOps
may change: parts and registers as bits of two numbers, and where (Laws/Upd.lean). Each lemma carries Inv and the queue of
commands over its operation. -/

set_option linter.unusedVariables false

namespace Sys2Proof.Machine

variable {K R : Nat} {C : Nat → Nat → Prop} {s0 : State}

theorem State.setRf_upd {s : State} {r : Reg} {i : Nat} {lo : Nat} {len : Nat} {v : Nat} (hs : Upd K R C s0 s) (hr : R.testBit r.ctorIdx = true) (hro : RegOk C r i) :
    Upd K R C s0 (State.setRf s r i lo len v) := by
  unfold State.setRf
  refine State.setReg_upd ?_ hr hro
  exact hs

theorem State.setRb_upd {s : State} {r : Reg} {i : Nat} {b : Nat} {v : Bool} (hs : Upd K R C s0 s) (hr : R.testBit r.ctorIdx = true) (hro : RegOk C r i) :
    Upd K R C s0 (State.setRb s r i b v) := by
  unfold State.setRb
  refine State.setReg_upd ?_ hr hro
  exact hs

theorem State.count_upd {s : State} {r : Reg} {i : Nat} {len : Nat} (hs : Upd K R C s0 s) (hr : R.testBit r.ctorIdx = true) (hro : RegOk C r i) :
    Upd K R C s0 (State.count s r i len) := by
  unfold State.count
  refine State.setRf_upd ?_ hr hro
  exact hs

theorem State.countWrap_upd {s : State} {r : Reg} {i : Nat} {len : Nat} (hs : Upd K R C s0 s) (hr : R.testBit r.ctorIdx = true) (hro : RegOk C r i) :
    Upd K R C s0 (State.countWrap s r i len) := by
  unfold State.countWrap
  refine State.setRf_upd ?_ hr hro
  exact hs

theorem State.setPair_upd {K R : Nat} {C : Nat → Nat → Prop} {s0 s : State} {lo hi : Reg} {i t : Nat} (hs : Upd K R C s0 s)
    (h1 : R.testBit lo.ctorIdx = true) (h1o : RegOk C lo i) (h2 : R.testBit hi.ctorIdx = true) (h2o : RegOk C hi i) :
    Upd K R C s0 (s.setPair lo hi i t) := by
  unfold State.setPair
  exact State.setReg_upd (State.setReg_upd hs h1 h1o) h2 h2o

theorem State.modChan_upd {s : State} {n : Cluster} {c : Channel} {f : Chan → Chan} (hs : Upd K R C s0 s) (hk : 0x40 ||| K = K) (hc : C n.val c.val) :
    Upd K R C s0 (State.modChan s n c f) := by
  unfold State.modChan
  refine State.setChan_upd ?_ (sub_of rfl hk) hc
  · exact hs

theorem State.setSeq_upd {s : State} {n : Cluster} {v : Seq} (hs : Upd K R C s0 s) (hk : 0x100 ||| K = K) (hc : ∃ c, C n.val c) :
    Upd K R C s0 (State.setSeq s n v) := by
  unfold State.setSeq
  refine Upd.seqs ?_ (testBit_of_sub hk rfl) hc
  exact hs

theorem State.modSeq_upd {s : State} {n : Cluster} {f : Seq → Seq} (hs : Upd K R C s0 s) (hk : 0x100 ||| K = K) (hc : ∃ c, C n.val c) :
    Upd K R C s0 (State.modSeq s n f) := by
  unfold State.modSeq
  refine State.setSeq_upd ?_ (sub_of rfl hk) hc
  · exact hs

theorem State.setHop_upd {s : State} {n : Cluster} {v : Hop} (hs : Upd K R C s0 s) (hk : 0x200 ||| K = K) (hc : ∃ c, C n.val c) :
    Upd K R C s0 (State.setHop s n v) := by
  unfold State.setHop
  refine Upd.hops ?_ (testBit_of_sub hk rfl) hc
  exact hs

theorem State.setStampQ_upd {s : State} {n : Cluster} {v : List StampRec} (hs : Upd K R C s0 s) (hk : 0x800 ||| K = K) (hc : ∃ c, C n.val c) :
    Upd K R C s0 (State.setStampQ s n v) := by
  unfold State.setStampQ
  refine Upd.stamps ?_ (testBit_of_sub hk rfl) hc
  exact hs

theorem State.setAwg_upd {s : State} {n : Cluster} {g : Fin 2} {v : Awg} (hs : Upd K R C s0 s) (hk : 0x4000 ||| K = K) (hc : ∃ c, C n.val c) :
    Upd K R C s0 (State.setAwg s n g v) := by
  unfold State.setAwg
  refine Upd.awgs ?_ (testBit_of_sub hk rfl) hc
  exact hs

theorem State.setTrig_upd {s : State} {n : Cluster} {v : Trig} (hs : Upd K R C s0 s) (hk : 0x1000 ||| K = K) (hc : ∃ c, C n.val c) :
    Upd K R C s0 (State.setTrig s n v) := by
  unfold State.setTrig
  refine Upd.trigs ?_ (testBit_of_sub hk rfl) hc
  exact hs

theorem State.setCpt_upd {s : State} {n : Cluster} {e : Fin 2} {v : Cpt} (hs : Upd K R C s0 s) (hk : 0x2000 ||| K = K) (hc : ∃ c, C n.val c) :
    Upd K R C s0 (State.setCpt s n e v) := by
  unfold State.setCpt
  refine Upd.cpts ?_ (testBit_of_sub hk rfl) hc
  exact hs

theorem State.trigEvent_upd {s : State} {n : Cluster} {x : TrigEvt} (hs : Upd K R C s0 s) (hk : 0x1000 ||| K = K) (hc : ∃ c, C n.val c) :
    Upd K R C s0 (State.trigEvent s n x) := by
  unfold State.trigEvent
  refine State.setTrig_upd ?_ (sub_of rfl hk) hc
  · exact hs

theorem State.wake_upd {s : State} {code : Nat} (hs : Upd K R C s0 s) (hk : 0x80000000000000 ||| K = K) :
    Upd K R C s0 (State.wake s code) := by
  unfold State.wake
  extract_lets -merge +onlyGivenNames x3
  refine Upd.wakes ?_ (testBit_of_sub hk rfl)
  exact hs

theorem forClusters_upd {f : Cluster → State → State} {s : State} (hff : ∀ v2 : Cluster, ∀ v3, Upd K R C s0 v3 → Upd K R C s0 (f v2 v3)) (hs : Upd K R C s0 s) :
    Upd K R C s0 (forClusters f s) := by
  unfold forClusters
  refine foldl_upd ?_ fun x6 y h5 => ?_
  · exact hs
  · beta_reduce
    refine hff _ _ ?_
    · exact h5

theorem State.at_upd {s : State} {t : Nat} (hs : Upd K R C s0 s) (hk : 0x1 ||| K = K) :
    Upd K R C s0 (State.at s t) := by
  unfold State.at
  refine Upd.ite ?_ ?_
  · refine Upd.clasp ?_ (testBit_of_sub hk rfl)
    exact hs
  · exact hs

theorem State.drawWord_upd {s : State} (hs : Upd K R C s0 s) (hk : 0x400000000000000 ||| K = K) :
    SndUpd K R C s0 (State.drawWord s) := by
  unfold State.drawWord
  refine SndUpd.mk ?_
  refine Upd.free ?_ (testBit_of_sub hk rfl)
  exact hs

theorem State.drawBool_upd {s : State} (hs : Upd K R C s0 s) (hk : 0x400000000000000 ||| K = K) :
    SndUpd K R C s0 (State.drawBool s) := by
  unfold State.drawBool
  refine SndUpd.mk ?_
  refine Upd.free ?_ (testBit_of_sub hk rfl)
  exact hs

theorem State.setByte_upd {s : State} {a : Nat} {v : Byte} (hs : Upd K R C s0 s) (hk : 0x2 ||| K = K) :
    Upd K R C s0 (State.setByte s a v) := by
  unfold State.setByte
  refine Upd.mem ?_ (testBit_of_sub hk rfl) (tabSet_wf rfl)
  exact hs

theorem State.setBytes_upd {K R : Nat} {C : Nat → Nat → Prop} {s0 s : State} {a : Nat} {l : List Byte} (hs : Upd K R C s0 s)
    (hk : 0x2 ||| K = K) : Upd K R C s0 (s.setBytes a l) := by
  induction l generalizing s a with
  | nil => exact hs
  | cons b r ih => exact ih (State.setByte_upd hs hk)

theorem State.send_upd {s : State} {src : Nat} {kind : Nat} {cls : Nat} {addr : Nat} (hs : Upd K R C s0 s) (hk : 0x200000000000000 ||| K = K) :
    Upd K R C s0 (State.send s src kind cls addr) := by
  unfold State.send
  refine Upd.ite ?_ ?_
  · exact hs
  · refine Upd.msgs ?_ (testBit_of_sub hk rfl)
    exact hs

theorem State.emit_upd {s : State} {o : Output} (hs : Upd K R C s0 s) (hk : 0x800000000000000 ||| K = K) :
    Upd K R C s0 (State.emit s o) := by
  unfold State.emit
  refine Upd.out ?_ (testBit_of_sub hk rfl)
  exact hs

theorem lifeCount_upd {off : Nat} {bits : Nat} {s : State} (hs : Upd K R C s0 s) (hk : 0x2000000000000 ||| K = K) :
    Upd K R C s0 (lifeCount off bits s) := by
  unfold lifeCount
  refine Upd.life ?_ (testBit_of_sub hk rfl) (tabSet_wf rfl)
  exact hs

theorem setSeqState_upd {n : Cluster} {v : Nat} {s : State} (hs : Upd K R C s0 s) (hr : 0x100000000000000000000000000000000000000000000000000000000 ||| R = R) (hc : ∃ c, C n.val c) :
    Upd K R C s0 (setSeqState n v s) := by
  unfold setSeqState
  refine State.setRf_upd ?_ (testBit_of_sub hr rfl) (RegOk.one rfl hc)
  exact hs

theorem mpRefuse_upd {q : MillReq} {write : Bool} {why : Nat} {a : Nat} {s : State} (hs : Upd K R C s0 s) (hk : 0x200000000000000 ||| K = K) (hr : 0x1a800000000000000000000 ||| R = R) :
    Upd K R C s0 (mpRefuse q write why a s) := by
  unfold mpRefuse
  extract_lets -merge +onlyGivenNames x6
  have hx7 : Upd K R C s0 x6 := by
    unfold x6
    refine State.setRb_upd ?_ (testBit_of_sub hr rfl) (RegOk.glob rfl)
    refine State.count_upd ?_ (testBit_of_sub hr rfl) (RegOk.glob rfl)
    exact hs
  try clear_value x6
  extract_lets -merge +onlyGivenNames x8
  have hx9 : Upd K R C s0 x8 := by
    unfold x8
    refine State.setReg_upd ?_ (testBit_of_sub hr rfl) (RegOk.glob rfl)
    refine State.setReg_upd ?_ (testBit_of_sub hr rfl) (RegOk.glob rfl)
    exact hx7
  try clear_value x8
  refine State.send_upd ?_ (sub_of rfl hk)
  · exact hx9

theorem noteRefusals_upd {q : MillReq} {rr : Bool} {write : Bool} {a : Nat} {len : Nat} {s : State} (hs : Upd K R C s0 s) (hk : 0x200000000000000 ||| K = K) (hr : 0x1a800000000000000000000 ||| R = R) :
    Upd K R C s0 (noteRefusals q rr write a len s) := by
  unfold noteRefusals
  refine foldl_upd ?_ fun x8 y h7 => ?_
  · exact hs
  · beta_reduce
    split
    · refine mpRefuse_upd ?_ (sub_of rfl hk) (sub_of rfl hr)
      · exact h7
    · exact h7

theorem memRead_upd {q : MillReq} {a : Nat} {len : Nat} {s : State} (hs : Upd K R C s0 s) (hk : 0x200000000000000 ||| K = K) (hr : 0x1a800000000000000000000 ||| R = R) :
    SndUpd K R C s0 (memRead q a len s) := by
  unfold memRead
  refine SndUpd.mk ?_
  refine noteRefusals_upd ?_ (sub_of rfl hk) (sub_of rfl hr)
  · exact hs

theorem putBytes_upd {op : Option Bool} {a : Nat} {l : List Byte} {s : State}
    (hs : Upd K R C s0 s) (hk : 0x2 ||| K = K) : Upd K R C s0 (putBytes op a l s) := by
  induction l generalizing s a with
  | nil => exact hs
  | cons b r ih => exact ih (State.setByte_upd hs hk)

theorem memWrite_upd {q : MillReq} {rr : Bool} {op : Option Bool} {a : Nat} {bytes : List Byte} {s : State} (hs : Upd K R C s0 s) (hk : 0x200000000000002 ||| K = K) (hr : 0x1a800000000000000000000 ||| R = R) :
    Upd K R C s0 (memWrite q rr op a bytes s) := by
  unfold memWrite
  refine foldl_upd ?_ fun x8 y h7 => ?_
  · exact hs
  · beta_reduce
    split
    · refine putBytes_upd ?_ (sub_of rfl hk)
      · exact h7
    · refine mpRefuse_upd ?_ (sub_of rfl hk) (sub_of rfl hr)
      · exact h7
    · exact h7

theorem lotLose_upd {r : Nat} {s : State} (hs : Upd K R C s0 s) (hr : 0x1000000000000000000000000 ||| R = R) :
    Upd K R C s0 (lotLose r s) := by
  unfold lotLose
  extract_lets -merge +onlyGivenNames x3
  refine State.setReg_upd ?_ (testBit_of_sub hr rfl) (RegOk.glob rfl)
  exact hs

theorem lotWin_upd {r : Nat} {s : State} (hs : Upd K R C s0 s) (hr : 0x1000000000000000000000000 ||| R = R) :
    Upd K R C s0 (lotWin r s) := by
  unfold lotWin
  refine State.setReg_upd ?_ (testBit_of_sub hr rfl) (RegOk.glob rfl)
  exact hs

theorem answer_upd {q : MillReq} {data : List Byte} {refused : Bool} {busy : Bool} {s : State} (hs : Upd K R C s0 s) (hk : 0x800000000000000 ||| K = K) :
    Upd K R C s0 (answer q data refused busy s) := by
  unfold answer
  split
  · refine Upd.ite ?_ ?_
    · refine Upd.ite ?_ ?_
      · refine State.emit_upd ?_ (sub_of rfl hk)
        · exact hs
      · refine State.emit_upd ?_ (sub_of rfl hk)
        · exact hs
    · refine State.emit_upd ?_ (sub_of rfl hk)
      · exact hs
  · refine State.emit_upd ?_ (sub_of rfl hk)
    · exact hs

theorem noteRerr_upd {h' : Dom} {write : Bool} {why : Nat} {a : Nat} {s : State} (hs : Upd K R C s0 s) (hr : 0xd000000 ||| R = R) :
    Upd K R C s0 (noteRerr h' write why a s) := by
  unfold noteRerr
  refine State.setRb_upd ?_ (testBit_of_sub hr rfl) (RegOk.glob rfl)
  refine State.setReg_upd ?_ (testBit_of_sub hr rfl) (RegOk.glob rfl)
  refine State.setReg_upd ?_ (testBit_of_sub hr rfl) (RegOk.glob rfl)
  exact hs

theorem recordRefused_upd {q : MillReq} {write : Bool} {a : Nat} {len : Nat} {s : State} {s' : State} (hs : Upd K R C s0 s) (hs' : Upd K R C s0 s') (hr : 0xd000000 ||| R = R) :
    Upd K R C s0 (recordRefused q write a len s s') := by
  unfold recordRefused
  split
  · refine noteRerr_upd ?_ (sub_of rfl hr)
    · exact hs'
  · exact hs'

theorem perform_upd {q : MillReq} {x : MillOp} {a0 : Nat} {s : State} (hs : Upd K R C s0 s) (hk : 0xe0000000c000002 ||| K = K) (hr : 0x1e80000000000000d000000 ||| R = R) :
    Upd K R C s0 (perform q x a0 s) := by
  unfold perform
  extract_lets -merge +onlyGivenNames x5
  extract_lets -merge +onlyGivenNames x7
  have hx8 : Upd K R C s0 x7 := by
    unfold x7
    refine Upd.grants ?_ (testBit_of_sub hk rfl) (tabSet_wf rfl)
    exact hs
  try clear_value x7
  split
  · extract_lets -merge +onlyGivenNames x9
    have hx10 : Upd K R C s0 x9 := by
      unfold x9
      refine recordRefused_upd ?_ ?_ (sub_of rfl hr)
      · exact hs
      · exact hx8
    try clear_value x9
    refine Upd.ite ?_ ?_
    · extract_lets -merge +onlyGivenNames x11
      have hx12 : Upd K R C s0 x11 := by
        unfold x11
        refine State.setRb_upd ?_ (testBit_of_sub hr rfl) (RegOk.glob rfl)
        refine State.count_upd ?_ (testBit_of_sub hr rfl) (RegOk.glob rfl)
        exact hx10
      try clear_value x11
      extract_lets -merge +onlyGivenNames x13
      have hx14 : Upd K R C s0 x13 := by
        unfold x13
        split
        · refine noteRerr_upd ?_ (sub_of rfl hr)
          · exact hx12
        · exact hx12
      try clear_value x13
      refine answer_upd ?_ (sub_of rfl hk)
      · refine Upd.free ?_ (testBit_of_sub hk rfl)
        exact hx14
    · extract_lets -merge +onlyGivenNames x15
      have hx16 : SndUpd K R C s0 x15 := by
        unfold x15
        refine memRead_upd ?_ (sub_of rfl hk) (sub_of rfl hr)
        · exact hx10
      try clear_value x15
      refine answer_upd ?_ (sub_of rfl hk)
      · refine SndUpd.out ?_
        exact hx16
  · refine recordRefused_upd ?_ ?_ (sub_of rfl hr)
    · exact hs
    · refine memWrite_upd ?_ (sub_of rfl hk) (sub_of rfl hr)
      · exact hx8
  · refine recordRefused_upd ?_ ?_ (sub_of rfl hr)
    · exact hs
    · refine memWrite_upd ?_ (sub_of rfl hk) (sub_of rfl hr)
      · refine Upd.atoms ?_ (testBit_of_sub hk rfl) (tabSet_wf rfl)
        exact hx8

theorem access_upd {q : MillReq} {x : MillOp} {a : Nat} {s : State} (hs : Upd K R C s0 s) (hk : 0xe0000000e000002 ||| K = K) (hr : 0x1e80000000000000d000000 ||| R = R) :
    Upd K R C s0 (access q x a s) := by
  unfold access
  refine Upd.ite ?_ ?_
  · refine Upd.waiting ?_ (testBit_of_sub hk rfl)
    exact hs
  · refine perform_upd ?_ (sub_of rfl hk) (sub_of rfl hr)
    · exact hs

theorem drainWaiting_upd {s : State} (hs : Upd K R C s0 s) (hk : 0xe0000000e000002 ||| K = K) (hr : 0x1e80000000000000d000000 ||| R = R) :
    Upd K R C s0 (drainWaiting s) := by
  unfold drainWaiting
  refine foldl_upd ?_ fun x3 y h2 => ?_
  · refine Upd.waiting ?_ (testBit_of_sub hk rfl)
    exact hs
  · beta_reduce
    refine access_upd ?_ (sub_of rfl hk) (sub_of rfl hr)
    · exact h2

theorem clearRange_upd {lo : Nat} {hi : Nat} {s : State} (hs : Upd K R C s0 s) (hk : 0x2 ||| K = K) :
    Upd K R C s0 (clearRange lo hi s) := by
  unfold clearRange
  refine Upd.mem ?_ (testBit_of_sub hk rfl) (filter_wf _)
  exact hs

theorem State.setSem_upd {s : State} {k : Nat} {v : SemSt} (hs : Upd K R C s0 s) (hk : 0x20000000 ||| K = K) :
    Upd K R C s0 (State.setSem s k v) := by
  unfold State.setSem
  refine Upd.sems ?_ (testBit_of_sub hk rfl) (tabSet_wf rfl)
  exact hs

theorem semResult_upd {r : Nat} {k : Nat} {code : Nat} {s : State} (hs : Upd K R C s0 s) (hr : 0x10000000000000000000000000 ||| R = R) :
    Upd K R C s0 (semResult r k code s) := by
  unfold semResult
  refine Upd.ite ?_ ?_
  · refine State.setReg_upd ?_ (testBit_of_sub hr rfl) (RegOk.glob rfl)
    exact hs
  · exact hs

theorem semHand_upd {k : Nat} {s : State} (hs : Upd K R C s0 s) (hk : 0x20000000 ||| K = K) (hr : 0x50000000000000000000000000 ||| R = R) :
    Upd K R C s0 (semHand k s) := by
  unfold semHand
  split
  · refine Upd.ite ?_ ?_
    · exact hs
    · extract_lets -merge +onlyGivenNames x3
      have hx4 : Upd K R C s0 x3 := by
        unfold x3
        refine State.setRb_upd ?_ (testBit_of_sub hr rfl) (RegOk.glob rfl)
        refine State.setSem_upd ?_ (sub_of rfl hk)
        · exact hs
      try clear_value x3
      refine Upd.ite ?_ ?_
      · refine semResult_upd ?_ (sub_of rfl hr)
        · exact hx4
      · exact hx4
  · exact hs

theorem semPurge_upd {h' : Nat} {s : State} (hs : Upd K R C s0 s) (hk : 0x20000000 ||| K = K) (hr : 0x50000000000000000000000000 ||| R = R) :
    Upd K R C s0 (semPurge h' s) := by
  unfold semPurge
  refine foldl_range_upd ?_ fun x6 y hyx6 h3 => ?_
  · exact hs
  · beta_reduce
    extract_lets -merge +onlyGivenNames x4
    refine semHand_upd ?_ (sub_of rfl hk) (sub_of rfl hr)
    · refine State.setSem_upd ?_ (sub_of rfl hk)
      · exact h3

theorem semCalRequest_upd {ks : List Nat} {s : State} (hs : Upd K R C s0 s) (hk : 0x20000000 ||| K = K) :
    Upd K R C s0 (semCalRequest ks s) := by
  unfold semCalRequest
  refine foldl_upd ?_ fun x6 y h3 => ?_
  · exact hs
  · beta_reduce
    extract_lets -merge +onlyGivenNames x4
    refine State.setSem_upd ?_ (sub_of rfl hk)
    · exact h3

theorem semCalTake_upd {s : State} (hs : Upd K R C s0 s) (hk : 0x20000000 ||| K = K) :
    Upd K R C s0 (semCalTake s) := by
  unfold semCalTake
  extract_lets -merge +onlyGivenNames x2
  refine Upd.ite ?_ ?_
  · refine foldl_upd ?_ fun x5 y h4 => ?_
    · exact hs
    · beta_reduce
      refine State.setSem_upd ?_ (sub_of rfl hk)
      · exact h4
  · exact hs

theorem semCalRelease_upd {ks : List Nat} {s : State} (hs : Upd K R C s0 s) (hk : 0x20000000 ||| K = K) (hr : 0x50000000000000000000000000 ||| R = R) :
    Upd K R C s0 (semCalRelease ks s) := by
  unfold semCalRelease
  refine foldl_upd ?_ fun x4 y h3 => ?_
  · exact hs
  · beta_reduce
    refine Upd.ite ?_ ?_
    · refine semHand_upd ?_ (sub_of rfl hk) (sub_of rfl hr)
      · refine State.setSem_upd ?_ (sub_of rfl hk)
        · exact h3
    · exact h3

theorem rgRegs_spec : ∀ r ∈ rgRegs, Nat.testBit 0x3fff800000000000000000000000000000000000000000000000000000000000000000000000000000000000000000000000000 r.ctorIdx = true ∧ r.row.count = 32 := by decide

theorem putRg_upd {n : Cluster} {c : Channel} {ws : RgResult} {s : State} (hs : Upd K R C s0 s)
    (hr : 0x3fff800000000000000000000000000000000000000000000000000000000000000000000000000000000000000000000000000 ||| R = R) (hc : C n.val c.val) : Upd K R C s0 (putRg (chIx n c) ws s) := by
  unfold putRg
  have key : ∀ l : List (Reg × Word), (∀ p ∈ l, p.1 ∈ rgRegs) → ∀ s, Upd K R C s0 s →
      Upd K R C s0 (l.foldl (fun s p => s.setReg p.1 (chIx n c) p.2) s) := by
    intro l
    induction l with
    | nil => intro _ s h; exact h
    | cons p r ih =>
      intro hl s h
      have hp := rgRegs_spec p.1 (hl p (List.mem_cons_self ..))
      exact ih (fun q hq => hl q (List.mem_cons_of_mem _ hq)) _
        (State.setReg_upd h (testBit_of_sub hr hp.1) (RegOk.chan hp.2 hc))
  exact key _ (fun p hp => (List.of_mem_zip hp).1) s hs

theorem writeRg_upd {n : Cluster} {c : Channel} {ws : RgResult} {s : State} (hs : Upd K R C s0 s) (hk : 0x40 ||| K = K) (hr : 0x3fff800000000000000000000000000000000000000000000000000000000000000000000000000000000000000000000000000 ||| R = R) (hc : C n.val c.val) :
    Upd K R C s0 (writeRg n c ws s) := by
  unfold writeRg
  refine Upd.ite ?_ ?_
  · refine State.modChan_upd ?_ (sub_of rfl hk) hc
    · exact hs
  · refine putRg_upd ?_ (sub_of rfl hr) hc
    · exact hs

theorem endGate_upd {n : Cluster} {c : Channel} {cause : Nat} {stop : Bool} {s : State} (hs : Upd K R C s0 s) (hk : 0x400000000000040 ||| K = K) (hr : 0x3fff9c0000000000000000000000000000000c00000000000000000000000000000000000000000000000000000000000000000 ||| R = R) (hc : C n.val c.val) :
    Upd K R C s0 (endGate n c cause stop s) := by
  unfold endGate
  split
  · exact hs
  · extract_lets -merge +onlyGivenNames x6
    extract_lets -merge +onlyGivenNames x8
    extract_lets -merge +onlyGivenNames x10
    extract_lets -merge +onlyGivenNames x12
    extract_lets -merge +onlyGivenNames x14
    extract_lets -merge +onlyGivenNames x16
    extract_lets -merge +onlyGivenNames x18
    have hx19 : Upd K R C s0 x18 := by
      unfold x18
      refine State.setReg_upd ?_ (testBit_of_sub hr rfl) (RegOk.chan rfl hc)
      refine writeRg_upd ?_ (sub_of rfl hk) (sub_of rfl hr) hc
      · refine Upd.free ?_ (testBit_of_sub hk rfl)
        exact hs
    try clear_value x18
    extract_lets -merge +onlyGivenNames x20
    have hx21 : Upd K R C s0 x20 := by
      unfold x20
      refine State.setRb_upd ?_ (testBit_of_sub hr rfl) (RegOk.one rfl ⟨_, hc⟩)
      refine State.setRb_upd ?_ (testBit_of_sub hr rfl) (RegOk.one rfl ⟨_, hc⟩)
      exact hx19
    try clear_value x20
    refine Upd.ite ?_ ?_
    · refine State.setPair_upd ?_ (testBit_of_sub hr rfl) (RegOk.chan rfl hc) (testBit_of_sub hr rfl) (RegOk.chan rfl hc)
      refine State.modChan_upd ?_ (sub_of rfl hk) hc
      · exact hx21
    · refine State.modChan_upd ?_ (sub_of rfl hk) hc
      · exact hx21

theorem modGate_upd {n : Cluster} {c : Channel} {f : Gate → Gate} {s : State} (hs : Upd K R C s0 s) (hk : 0x40 ||| K = K) (hc : C n.val c.val) :
    Upd K R C s0 (modGate n c f s) := by
  unfold modGate
  refine State.modChan_upd ?_ (sub_of rfl hk) hc
  · exact hs

theorem markChanged_upd {n : Cluster} {c : Channel} {s : State} (hs : Upd K R C s0 s) (hk : 0x40 ||| K = K) (hc : C n.val c.val) :
    Upd K R C s0 (markChanged n c s) := by
  unfold markChanged
  refine Upd.ite ?_ ?_
  · refine modGate_upd ?_ (sub_of rfl hk) hc
    · exact hs
  · exact hs

theorem offerStamp_upd {n : Cluster} {r : StampRec} {s : State} (hs : Upd K R C s0 s) (hk : 0x800 ||| K = K) (hr : 0x900000000000000000000000000000000000000000000000000000000000000000 ||| R = R) (hc : ∃ c, C n.val c) :
    Upd K R C s0 (offerStamp n r s) := by
  unfold offerStamp
  refine Upd.ite ?_ ?_
  · refine State.setStampQ_upd ?_ (sub_of rfl hk) hc
    · exact hs
  · refine State.setRb_upd ?_ (testBit_of_sub hr rfl) (RegOk.one rfl hc)
    refine State.count_upd ?_ (testBit_of_sub hr rfl) (RegOk.one rfl hc)
    exact hs

theorem stampEdge_upd {n : Cluster} {c : Channel} {falling : Bool} {ball : Nat} {s : State} (hs : Upd K R C s0 s) (hk : 0x400000000000840 ||| K = K) (hr : 0x3fff9d8000000000000000000000000000000d00000000000000000000000000000000000000000000000000000000000000000 ||| R = R) (hc : C n.val c.val) :
    Upd K R C s0 (stampEdge n c falling ball s) := by
  unfold stampEdge
  extract_lets -merge +onlyGivenNames x6
  extract_lets -merge +onlyGivenNames x8
  refine Upd.ite ?_ ?_
  · exact hs
  · extract_lets -merge +onlyGivenNames x10
    extract_lets -merge +onlyGivenNames x12
    extract_lets -merge +onlyGivenNames x14
    extract_lets -merge +onlyGivenNames x16
    extract_lets -merge +onlyGivenNames x18
    extract_lets -merge +onlyGivenNames x20
    extract_lets -merge +onlyGivenNames x22
    extract_lets -merge +onlyGivenNames x24
    have hx25 : Upd K R C s0 x24 := by
      unfold x24
      refine State.modChan_upd ?_ (sub_of rfl hk) hc
      · exact hs
    try clear_value x24
    extract_lets -merge +onlyGivenNames x26
    have hx27 : Upd K R C s0 x26 := by
      unfold x26
      refine Upd.ite ?_ ?_
      · refine State.count_upd ?_ (testBit_of_sub hr (by split <;> rfl)) (RegOk.chan (by split <;> rfl) hc)
        exact hx25
      · exact hx25
    try clear_value x26
    extract_lets -merge +onlyGivenNames x28
    have hx29 : Upd K R C s0 x28 := by
      unfold x28
      refine Upd.ite ?_ ?_
      · refine offerStamp_upd ?_ (sub_of rfl hk) (sub_of rfl hr) ⟨_, hc⟩
        · exact hx27
      · exact hx27
    try clear_value x28
    split
    · exact hx29
    · refine Upd.ite ?_ ?_
      · extract_lets -merge +onlyGivenNames x30
        extract_lets -merge +onlyGivenNames x32
        extract_lets -merge +onlyGivenNames x34
        extract_lets -merge +onlyGivenNames x36
        extract_lets -merge +onlyGivenNames x38
        have hx39 : Upd K R C s0 x38 := by
          unfold x38
          refine State.modChan_upd ?_ (sub_of rfl hk) hc
          · exact hx29
        try clear_value x38
        refine Upd.ite ?_ ?_
        · refine endGate_upd ?_ (sub_of rfl hk) (sub_of rfl hr) hc
          · exact hx39
        · exact hx39
      · refine Upd.ite ?_ ?_
        · refine State.modChan_upd ?_ (sub_of rfl hk) hc
          · exact hx29
        · exact hx29

theorem startMeas_upd {n : Cluster} {c : Channel} {tok : Option MstTok} {s : State} (hs : Upd K R C s0 s) (hk : 0x40 ||| K = K) (hc : C n.val c.val) :
    Upd K R C s0 (startMeas n c tok s) := by
  unfold startMeas
  refine Upd.ite ?_ ?_
  · exact hs
  · extract_lets -merge +onlyGivenNames x5
    refine State.modChan_upd ?_ (sub_of rfl hk) hc
    · exact hs

theorem endMeas_upd {n : Cluster} {c : Channel} {s : State} (hs : Upd K R C s0 s) (hk : 0x40 ||| K = K) (hc : C n.val c.val) :
    Upd K R C s0 (endMeas n c s) := by
  unfold endMeas
  split
  · exact hs
  · refine State.modChan_upd ?_ (sub_of rfl hk) hc
    · exact hs

theorem writeMeas_upd {n : Cluster} {c : Channel} {s : State} (hs : Upd K R C s0 s) (hk : 0x140 ||| K = K) (hr : 0x1e004000000000000000000000000000000000000000000000000000000000000000000000000000 ||| R = R) (hc : C n.val c.val) :
    Upd K R C s0 (writeMeas n c s) := by
  unfold writeMeas
  split
  · exact hs
  · extract_lets -merge +onlyGivenNames x4
    extract_lets -merge +onlyGivenNames x6
    extract_lets -merge +onlyGivenNames x8
    have hx9 : Upd K R C s0 x8 := by
      unfold x8
      refine State.setRb_upd ?_ (testBit_of_sub hr rfl) (RegOk.chan rfl hc)
      refine State.setPair_upd ?_ (testBit_of_sub hr rfl) (RegOk.chan rfl hc) (testBit_of_sub hr rfl) (RegOk.chan rfl hc)
      refine State.setReg_upd ?_ (testBit_of_sub hr rfl) (RegOk.chan rfl hc)
      exact hs
    try clear_value x8
    extract_lets -merge +onlyGivenNames x10
    have hx11 : Upd K R C s0 x10 := by
      unfold x10
      refine State.setRb_upd ?_ (testBit_of_sub hr rfl) (RegOk.chan rfl hc)
      refine State.setRb_upd ?_ (testBit_of_sub hr rfl) (RegOk.chan rfl hc)
      exact hx9
    try clear_value x10
    extract_lets -merge +onlyGivenNames x12
    have hx13 : Upd K R C s0 x12 := by
      unfold x12
      refine State.modChan_upd ?_ (sub_of rfl hk) hc
      · exact hx11
    try clear_value x12
    split
    · exact hx13
    · refine State.modSeq_upd ?_ (sub_of rfl hk) ⟨_, hc⟩
      · exact hx13

theorem changeRange_upd {n : Cluster} {c : Channel} {old : Nat} {new : Nat} {s : State} (hs : Upd K R C s0 s) (hr : 0x2384000000000000000000000000000000000000000000000000000000000000000000000000000 ||| R = R) (hc : C n.val c.val) :
    Upd K R C s0 (changeRange n c old new s) := by
  unfold changeRange
  extract_lets -merge +onlyGivenNames x6
  extract_lets -merge +onlyGivenNames x8
  extract_lets -merge +onlyGivenNames x10
  extract_lets -merge +onlyGivenNames x12
  extract_lets -merge +onlyGivenNames x14
  extract_lets -merge +onlyGivenNames x16
  have hx17 : Upd K R C s0 x16 := by
    unfold x16
    refine State.setRf_upd ?_ (testBit_of_sub hr rfl) (RegOk.chan rfl hc)
    exact hs
  try clear_value x16
  extract_lets -merge +onlyGivenNames x18
  have hx19 : Upd K R C s0 x18 := by
    unfold x18
    refine State.setRf_upd ?_ (testBit_of_sub hr rfl) (RegOk.chan rfl hc)
    exact hx17
  try clear_value x18
  extract_lets -merge +onlyGivenNames x20
  have hx21 : Upd K R C s0 x20 := by
    unfold x20
    refine State.setRf_upd ?_ (testBit_of_sub hr rfl) (RegOk.chan rfl hc)
    exact hx19
  try clear_value x20
  extract_lets -merge +onlyGivenNames x22
  have hx23 : Upd K R C s0 x22 := by
    unfold x22
    refine State.setRb_upd ?_ (testBit_of_sub hr rfl) (RegOk.chan rfl hc)
    exact hx21
  try clear_value x22
  refine Upd.ite ?_ ?_
  · refine State.setRb_upd ?_ (testBit_of_sub hr rfl) (RegOk.chan rfl hc)
    exact hx23
  · exact hx23

theorem clearClamp_upd {n : Cluster} {c : Channel} {s : State} (hs : Upd K R C s0 s) (hr : 0x2000000000000000000000000000000000000000000000000000000000000000000000000000000 ||| R = R) (hc : C n.val c.val) :
    Upd K R C s0 (clearClamp n c s) := by
  unfold clearClamp
  refine State.setRf_upd ?_ (testBit_of_sub hr rfl) (RegOk.chan rfl hc)
  exact hs

theorem forcedSafe_upd {n : Cluster} {c : Channel} {s : State} (hs : Upd K R C s0 s) (hk : 0x400000000000040 ||| K = K) (hr : 0x3fff9c0000000000000000002024040000000c00000000000000000000000000000000000000000000000000000000000000000 ||| R = R) (hc : C n.val c.val) :
    Upd K R C s0 (forcedSafe n c s) := by
  unfold forcedSafe
  extract_lets -merge +onlyGivenNames x4
  extract_lets -merge +onlyGivenNames x6
  have hx7 : Upd K R C s0 x6 := by
    unfold x6
    refine endGate_upd ?_ (sub_of rfl hk) (sub_of rfl hr) hc
    · refine endMeas_upd ?_ (sub_of rfl hk) hc
      · exact hs
  try clear_value x6
  extract_lets -merge +onlyGivenNames x8
  have hx9 : Upd K R C s0 x8 := by
    unfold x8
    refine State.setReg_upd ?_ (testBit_of_sub hr rfl) (RegOk.chan rfl hc)
    refine State.setRf_upd ?_ (testBit_of_sub hr rfl) (RegOk.chan rfl hc)
    exact hx7
  try clear_value x8
  extract_lets -merge +onlyGivenNames x10
  have hx11 : Upd K R C s0 x10 := by
    unfold x10
    refine clearClamp_upd ?_ (sub_of rfl hr) hc
    · refine State.setRb_upd ?_ (testBit_of_sub hr rfl) (RegOk.chan rfl hc)
      exact hx9
  try clear_value x10
  refine State.modChan_upd ?_ (sub_of rfl hk) hc
  · exact hx11

theorem forceMask_upd {n : Cluster} {mask : Word} {s : State} (hs : Upd K R C s0 s) (hk : 0x400000000000040 ||| K = K) (hr : 0x3fff9c0000000000000000002024040000000c00000000000000000000000000000000000000000000000000000000000000000 ||| R = R) (hc : ∀ c, C n.val c) :
    Upd K R C s0 (forceMask n mask s) := by
  unfold forceMask
  refine forChannels_upd (fun z4 z5 h6 => ?_) ?_
  · beta_reduce
    refine Upd.ite ?_ ?_
    · refine forcedSafe_upd ?_ (sub_of rfl hk) (sub_of rfl hr) (hc _)
      · exact h6
    · exact h6
  · exact hs

theorem forceCluster_upd {n : Cluster} {s : State} (hs : Upd K R C s0 s) (hk : 0x400000000000040 ||| K = K) (hr : 0x3fff9c0000000000000000002024040000000c00000000000000000000000000000000000000000000000000000000000000000 ||| R = R) (hc : ∀ c, C n.val c) :
    Upd K R C s0 (forceCluster n s) := by
  unfold forceCluster
  refine forChannels_upd (fun z3 z4 h5 => ?_) ?_
  · beta_reduce
    refine forcedSafe_upd ?_ (sub_of rfl hk) (sub_of rfl hr) (hc _)
    · exact h5
  · exact hs

theorem forceAll_upd {s : State} (hs : Upd K R C s0 s) (hk : 0x400000000000040 ||| K = K) (hr : 0x3fff9c0000000000000000002024040000000c00000000000000000000000000000000000000000000000000000000000000000 ||| R = R) (hc : ∀ n c, C n c) :
    Upd K R C s0 (forceAll s) := by
  unfold forceAll
  refine forClusters_upd (fun z2 z3 h4 => ?_) ?_
  · beta_reduce
    refine forceCluster_upd ?_ (sub_of rfl hk) (sub_of rfl hr) (hc _)
    · exact h4
  · exact hs

theorem ungate_upd {n : Nat} {s : State} (hs : Upd K R C s0 s) (hr : 0x800000000000000000000000000000 ||| R = R) :
    Upd K R C s0 (ungate n s) := by
  unfold ungate
  refine Upd.ite ?_ ?_
  · exact hs
  · refine State.setRb_upd ?_ (testBit_of_sub hr rfl) (RegOk.glob rfl)
    exact hs

theorem openBlank_upd {n : Cluster} {c : Channel} {s : State} (hs : Upd K R C s0 s) (hk : 0x40 ||| K = K) (hr : 0x400000000000000000000000000000000000000000000000000000000000000000000000000 ||| R = R) (hc : C n.val c.val) :
    Upd K R C s0 (openBlank n c s) := by
  unfold openBlank
  extract_lets -merge +onlyGivenNames x4
  refine Upd.ite ?_ ?_
  · exact hs
  · extract_lets -merge +onlyGivenNames x6
    have hx7 : Upd K R C s0 x6 := by
      unfold x6
      refine State.modChan_upd ?_ (sub_of rfl hk) hc
      · refine State.setRb_upd ?_ (testBit_of_sub hr rfl) (RegOk.chan rfl hc)
        exact hs
    try clear_value x6
    refine Upd.ite ?_ ?_
    · refine modGate_upd ?_ (sub_of rfl hk) hc
      · exact hx7
    · exact hx7

theorem enterUnres_upd {n : Cluster} {c : Channel} {low : Bool} {s : State} (hs : Upd K R C s0 s) (hk : 0x1040 ||| K = K) (hr : 0x400000000000000000000000000000000000000000000000000000000000000000000000000 ||| R = R) (hc : C n.val c.val) :
    Upd K R C s0 (enterUnres n c low s) := by
  unfold enterUnres
  extract_lets -merge +onlyGivenNames x5
  extract_lets -merge +onlyGivenNames x7
  have hx8 : Upd K R C s0 x7 := by
    unfold x7
    refine State.setRb_upd ?_ (testBit_of_sub hr rfl) (RegOk.chan rfl hc)
    refine State.setRb_upd ?_ (testBit_of_sub hr rfl) (RegOk.chan rfl hc)
    exact hs
  try clear_value x7
  extract_lets -merge +onlyGivenNames x9
  have hx10 : Upd K R C s0 x9 := by
    unfold x9
    refine State.trigEvent_upd ?_ (sub_of rfl hk) ⟨_, hc⟩
    · exact hx8
  try clear_value x9
  refine State.modChan_upd ?_ (sub_of rfl hk) hc
  · exact hx10

theorem noteClamp_upd {s : State} {n : Cluster} {c : Channel} {s' : State} (hs : Upd K R C s0 s) (hs' : Upd K R C s0 s') (hr : 0x4000000000000000000000000000000000000000000000000000000000000000000000000000 ||| R = R) (hc : C n.val c.val) :
    Upd K R C s0 (noteClamp s n c s') := by
  unfold noteClamp
  refine Upd.ite ?_ ?_
  · refine State.setRb_upd ?_ (testBit_of_sub hr rfl) (RegOk.chan rfl hc)
    exact hs'
  · exact hs'

theorem setAwgState_upd {n : Cluster} {g : Fin 2} {v : Nat} {s : State} (hs : Upd K R C s0 s) (hr : 0x20000000000000000000000000000000000000000000000000000000000000000000000000000000000000000000 ||| R = R) (hc : ∃ c, C n.val c) :
    Upd K R C s0 (setAwgState n g v s) := by
  unfold setAwgState
  refine State.setRf_upd ?_ (testBit_of_sub hr rfl) (RegOk.awg rfl hc)
  exact hs

theorem modAwg_upd {n : Cluster} {g : Fin 2} {f : Awg → Awg} {s : State} (hs : Upd K R C s0 s) (hk : 0x4000 ||| K = K) (hc : ∃ c, C n.val c) :
    Upd K R C s0 (modAwg n g f s) := by
  unfold modAwg
  refine State.setAwg_upd ?_ (sub_of rfl hk) hc
  · exact hs

theorem setAwgEntry_upd {n : Cluster} {g : Fin 2} {i : Nat} {v : Word × Word} {s : State} (hs : Upd K R C s0 s) (hk : 0x8000 ||| K = K) (hc : ∃ c, C n.val c) :
    Upd K R C s0 (setAwgEntry n g i v s) := by
  unfold setAwgEntry
  refine Upd.awgTab ?_ (testBit_of_sub hk rfl) (by first | omega | (unfold awgIx; omega)) hc
  exact hs

theorem awgErr_upd {n : Cluster} {g : Fin 2} {code : Nat} {s : State} (hs : Upd K R C s0 s) (hr : 0x1000020000000000000000000000000000000000000000000000000000000000000000000000000000000000000000000 ||| R = R) (hc : ∃ c, C n.val c) :
    Upd K R C s0 (awgErr n g code s) := by
  unfold awgErr
  refine State.setRb_upd ?_ (testBit_of_sub hr rfl) (RegOk.awg rfl hc)
  refine State.setRf_upd ?_ (testBit_of_sub hr rfl) (RegOk.awg rfl hc)
  exact hs

theorem jumpLost_upd {n : Cluster} {g : Fin 2} {s : State} (hs : Upd K R C s0 s) (hr : 0x1200000000000000000000000000000000000000000000000000000000000000000000000000000000000000000000000 ||| R = R) (hc : ∃ c, C n.val c) :
    Upd K R C s0 (jumpLost n g s) := by
  unfold jumpLost
  refine State.setRb_upd ?_ (testBit_of_sub hr rfl) (RegOk.awg rfl hc)
  refine State.count_upd ?_ (testBit_of_sub hr rfl) (RegOk.awg rfl hc)
  exact hs

theorem noteJump_upd {n : Cluster} {g : Fin 2} {s : State} (hs : Upd K R C s0 s) (hr : 0x20000000000000000000000000000000000000000000000000000000000000000000000000000000000000000000 ||| R = R) (hc : ∃ c, C n.val c) :
    Upd K R C s0 (noteJump n g s) := by
  unfold noteJump
  refine State.setRb_upd ?_ (testBit_of_sub hr rfl) (RegOk.awg rfl hc)
  exact hs

theorem jumpRequest_upd {n : Cluster} {g : Fin 2} {target : Nat} {tm : Nat} {trig : Bool} {s : State} (hs : Upd K R C s0 s) (hk : 0x4000 ||| K = K) (hc : ∃ c, C n.val c) :
    Upd K R C s0 (jumpRequest n g target tm trig s) := by
  unfold jumpRequest
  refine modAwg_upd ?_ (sub_of rfl hk) hc
  · exact hs

theorem jumpArrive_upd {n : Cluster} {g : Fin 2} {j : AwgJump} {s : State} (hs : Upd K R C s0 s) (hk : 0x4000 ||| K = K) (hr : 0x1200020000000000000000000000000000000000000000000000000000000000000000000000000000000000000000000 ||| R = R) (hc : ∃ c, C n.val c) :
    Upd K R C s0 (jumpArrive n g j s) := by
  unfold jumpArrive
  extract_lets -merge +onlyGivenNames x5
  refine Upd.ite ?_ ?_
  · refine jumpLost_upd ?_ (sub_of rfl hr) hc
    · exact hs
  · extract_lets -merge +onlyGivenNames x7
    extract_lets -merge +onlyGivenNames x9
    extract_lets -merge +onlyGivenNames x11
    have hx12 : Upd K R C s0 x11 := by
      unfold x11
      refine Upd.ite ?_ ?_
      · refine jumpLost_upd ?_ (sub_of rfl hr) hc
        · exact hs
      · exact hs
    try clear_value x11
    refine noteJump_upd ?_ (sub_of rfl hr) hc
    · refine modAwg_upd ?_ (sub_of rfl hk) hc
      · exact hx12

theorem jumpsBefore_upd {n : Cluster} {g : Fin 2} {before : Nat} {s : State} (hs : Upd K R C s0 s) (hk : 0x4000 ||| K = K) (hr : 0x1200020000000000000000000000000000000000000000000000000000000000000000000000000000000000000000000 ||| R = R) (hc : ∃ c, C n.val c) :
    Upd K R C s0 (jumpsBefore n g before s) := by
  unfold jumpsBefore
  extract_lets -merge +onlyGivenNames x5
  extract_lets -merge +onlyGivenNames x7
  extract_lets -merge +onlyGivenNames x9
  refine foldl_upd ?_ fun x12 y h11 => ?_
  · refine modAwg_upd ?_ (sub_of rfl hk) hc
    · exact hs
  · beta_reduce
    refine jumpArrive_upd ?_ (sub_of rfl hk) (sub_of rfl hr) hc
    · exact h11

theorem awgSettle_upd {n : Cluster} {g : Fin 2} {s : State} (hs : Upd K R C s0 s) (hk : 0x4000 ||| K = K) (hr : 0x1200020000000000000000000000000000000000000000000000000000000000000000000000000000000000000000000 ||| R = R) (hc : ∃ c, C n.val c) :
    Upd K R C s0 (awgSettle n g s) := by
  unfold awgSettle
  extract_lets -merge +onlyGivenNames x4
  extract_lets -merge +onlyGivenNames x6
  refine jumpsBefore_upd ?_ (sub_of rfl hk) (sub_of rfl hr) hc
  · exact hs

theorem putOut_upd {n : Cluster} {g : Fin 2} {x : ℤ} {s : State} (hs : Upd K R C s0 s) (hk : 0x4000 ||| K = K) (hr : 0x1000000000000000000004000000000000000000000000000000000000000000000000000000000000000000000000000 ||| R = R) (hc : ∀ c, C n.val c) :
    Upd K R C s0 (putOut n g x s) := by
  unfold putOut
  extract_lets -merge +onlyGivenNames x5
  have hx6 : Upd K R C s0 x5 := by
    unfold x5
    refine modAwg_upd ?_ (sub_of rfl hk) ⟨0, hc 0⟩
    · exact hs
  try clear_value x5
  extract_lets -merge +onlyGivenNames x7
  have hx8 : Upd K R C s0 x7 := by
    unfold x7
    refine Upd.ite ?_ ?_
    · refine State.setRb_upd ?_ (testBit_of_sub hr rfl) (RegOk.awg rfl ⟨0, hc 0⟩)
      exact hx6
    · exact hx6
  try clear_value x7
  refine Upd.ite ?_ ?_
  · refine foldl_upd ?_ fun x10 y h9 => ?_
    · exact hx8
    · beta_reduce
      refine Upd.ite ?_ ?_
      · refine noteClamp_upd ?_ ?_ (sub_of rfl hr) (hc _)
        · exact hs
        · exact h9
      · exact h9
  · exact hx8

theorem awgHalt_upd {n : Cluster} {g : Fin 2} {s : State} (hs : Upd K R C s0 s) (hk : 0x4000 ||| K = K) (hr : 0x1200020000000000000004000000000000000000000000000000000000000000000000000000000000000000000000000 ||| R = R) (hc : ∀ c, C n.val c) :
    Upd K R C s0 (awgHalt n g s) := by
  unfold awgHalt
  extract_lets -merge +onlyGivenNames x4
  extract_lets -merge +onlyGivenNames x6
  extract_lets -merge +onlyGivenNames x8
  have hx9 : Upd K R C s0 x8 := by
    unfold x8
    refine Upd.ite ?_ ?_
    · refine jumpLost_upd ?_ (sub_of rfl hr) ⟨0, hc 0⟩
      · exact hs
    · exact hs
  try clear_value x8
  extract_lets -merge +onlyGivenNames x10
  have hx11 : Upd K R C s0 x10 := by
    unfold x10
    refine modAwg_upd ?_ (sub_of rfl hk) ⟨0, hc 0⟩
    · exact hx9
  try clear_value x10
  extract_lets -merge +onlyGivenNames x12
  have hx13 : Upd K R C s0 x12 := by
    unfold x12
    refine State.setRb_upd ?_ (testBit_of_sub hr rfl) (RegOk.awg rfl ⟨0, hc 0⟩)
    refine setAwgState_upd ?_ (sub_of rfl hr) ⟨0, hc 0⟩
    · refine noteJump_upd ?_ (sub_of rfl hr) ⟨0, hc 0⟩
      · exact hx11
  try clear_value x12
  refine putOut_upd ?_ (sub_of rfl hk) (sub_of rfl hr) hc
  · exact hx13

theorem stopAwgSafe_upd {n : Cluster} {g : Fin 2} {s : State} (hs : Upd K R C s0 s) (hk : 0x4000 ||| K = K) (hr : 0x1200020000000000000004000000000000000000000000000000000000000000000000000000000000000000000000000 ||| R = R) (hc : ∀ c, C n.val c) :
    Upd K R C s0 (stopAwgSafe n g s) := by
  unfold stopAwgSafe
  extract_lets -merge +onlyGivenNames x4
  extract_lets -merge +onlyGivenNames x6
  extract_lets -merge +onlyGivenNames x8
  have hx9 : Upd K R C s0 x8 := by
    unfold x8
    refine Upd.ite ?_ ?_
    · refine awgHalt_upd ?_ (sub_of rfl hk) (sub_of rfl hr) hc
      · exact hs
    · exact hs
  try clear_value x8
  extract_lets -merge +onlyGivenNames x10
  have hx11 : Upd K R C s0 x10 := by
    unfold x10
    refine awgErr_upd ?_ (sub_of rfl hr) ⟨0, hc 0⟩
    · refine State.setRf_upd ?_ (testBit_of_sub hr rfl) (RegOk.awg rfl ⟨0, hc 0⟩)
      refine modAwg_upd ?_ (sub_of rfl hk) ⟨0, hc 0⟩
      · exact hx9
  try clear_value x10
  refine putOut_upd ?_ (sub_of rfl hk) (sub_of rfl hr) hc
  · exact hx11

theorem stopAwgs_upd {n : Cluster} {s : State} (hs : Upd K R C s0 s) (hk : 0x4000 ||| K = K) (hr : 0x1200020000000000000004000000000000000000000000000000000000000000000000000000000000000000000000000 ||| R = R) (hc : ∀ c, C n.val c) :
    Upd K R C s0 (stopAwgs n s) := by
  unfold stopAwgs
  refine stopAwgSafe_upd ?_ (sub_of rfl hk) (sub_of rfl hr) hc
  · refine stopAwgSafe_upd ?_ (sub_of rfl hk) (sub_of rfl hr) hc
    · exact hs

theorem awgStart_upd {n : Cluster} {g : Fin 2} {s : State} (hs : Upd K R C s0 s) (hk : 0x4000 ||| K = K) (hr : 0x1000020000000000000000000000000000000000000000000000000000000000000000000000000000000000000000000 ||| R = R) (hc : ∃ c, C n.val c) :
    Upd K R C s0 (awgStart n g s) := by
  unfold awgStart
  extract_lets -merge +onlyGivenNames x4
  extract_lets -merge +onlyGivenNames x6
  extract_lets -merge +onlyGivenNames x8
  extract_lets -merge +onlyGivenNames x10
  extract_lets -merge +onlyGivenNames x12
  refine Upd.ite ?_ ?_
  · exact hs
  · refine Upd.ite ?_ ?_
    · refine awgErr_upd ?_ (sub_of rfl hr) hc
      · exact hs
    · refine Upd.ite ?_ ?_
      · refine awgErr_upd ?_ (sub_of rfl hr) hc
        · exact hs
      · refine Upd.ite ?_ ?_
        · refine awgErr_upd ?_ (sub_of rfl hr) hc
          · exact hs
        · extract_lets -merge +onlyGivenNames x14
          have hx15 : Upd K R C s0 x14 := by
            unfold x14
            refine modAwg_upd ?_ (sub_of rfl hk) hc
            · exact hs
          try clear_value x14
          refine setAwgState_upd ?_ (sub_of rfl hr) hc
          · refine noteJump_upd ?_ (sub_of rfl hr) hc
            · exact hx15

theorem awgStop_upd {n : Cluster} {g : Fin 2} {s : State} (hs : Upd K R C s0 s) (hk : 0x4000 ||| K = K) (hr : 0x1200020000000000000000000000000000000000000000000000000000000000000000000000000000000000000000000 ||| R = R) (hc : ∃ c, C n.val c) :
    Upd K R C s0 (awgStop n g s) := by
  unfold awgStop
  split
  · extract_lets -merge +onlyGivenNames x4
    have hx5 : Upd K R C s0 x4 := by
      unfold x4
      refine Upd.ite ?_ ?_
      · refine jumpLost_upd ?_ (sub_of rfl hr) hc
        · exact hs
      · exact hs
    try clear_value x4
    extract_lets -merge +onlyGivenNames x6
    have hx7 : Upd K R C s0 x6 := by
      unfold x6
      refine modAwg_upd ?_ (sub_of rfl hk) hc
      · exact hx5
    try clear_value x6
    refine State.setRb_upd ?_ (testBit_of_sub hr rfl) (RegOk.awg rfl hc)
    refine setAwgState_upd ?_ (sub_of rfl hr) hc
    · refine noteJump_upd ?_ (sub_of rfl hr) hc
      · exact hx7
  · refine modAwg_upd ?_ (sub_of rfl hk) hc
    · exact hs
  · exact hs

theorem playSample_upd {n : Cluster} {g : Fin 2} {x : ℤ} {s : State} (hs : Upd K R C s0 s) (hk : 0x4000 ||| K = K) (hr : 0x1000000000000000000004000000000000000000000000000000000000000000000000000000000000000000000000000 ||| R = R) (hc : ∀ c, C n.val c) :
    Upd K R C s0 (playSample n g x s) := by
  unfold playSample
  refine putOut_upd ?_ (sub_of rfl hk) (sub_of rfl hr) hc
  · refine modAwg_upd ?_ (sub_of rfl hk) ⟨0, hc 0⟩
    · exact hs

theorem awgBoundary_upd {n : Cluster} {g : Fin 2} {s0' : State} (hs0' : Upd K R C s0 s0') (hk : 0x4000 ||| K = K) (hr : 0x1200020000000000000004000000000000000000000000000000000000000000000000000000000000000000000000000 ||| R = R) (hc : ∀ c, C n.val c) :
    Upd K R C s0 (awgBoundary n g s0') := by
  unfold awgBoundary
  extract_lets -merge +onlyGivenNames x4
  extract_lets -merge +onlyGivenNames x6
  have hx7 : Upd K R C s0 x6 := by
    unfold x6
    refine modAwg_upd ?_ (sub_of rfl hk) ⟨0, hc 0⟩
    · refine awgSettle_upd ?_ (sub_of rfl hk) (sub_of rfl hr) ⟨0, hc 0⟩
      · exact hs0'
  try clear_value x6
  extract_lets -merge +onlyGivenNames x8
  refine Upd.ite ?_ ?_
  · refine Upd.ite ?_ ?_
    · refine awgHalt_upd ?_ (sub_of rfl hk) (sub_of rfl hr) hc
      · exact hx7
    · refine Upd.ite ?_ ?_
      · refine playSample_upd ?_ (sub_of rfl hk) (sub_of rfl hr) hc
        · exact hx7
      · refine Upd.ite ?_ ?_
        · extract_lets -merge +onlyGivenNames x10
          extract_lets -merge +onlyGivenNames x12
          try clear_value x12
          split
          · refine playSample_upd ?_ (sub_of rfl hk) (sub_of rfl hr) hc
            · refine modAwg_upd ?_ (sub_of rfl hk) ⟨0, hc 0⟩
              · exact hx7
          · refine Upd.ite ?_ ?_
            · refine awgHalt_upd ?_ (sub_of rfl hk) (sub_of rfl hr) hc
              · refine awgErr_upd ?_ (sub_of rfl hr) ⟨0, hc 0⟩
                · exact hx7
            · exact hx7
        · exact hx7
  · refine putOut_upd ?_ (sub_of rfl hk) (sub_of rfl hr) hc
    · exact hx7

theorem execAwgRunStart_upd {t : Nat} {n : Cluster} {g : Fin 2} {s0' : State} (hs0' : Upd K R C s0 s0') (hk : 0x1 ||| K = K) (hr : 0x20000000000000000000000000000000000000000000000000000000000000000000000000000000000000000000 ||| R = R) (hc : ∃ c, C n.val c) :
    ResUpd K R C s0 (execAwgRunStart t n g s0') := by
  unfold execAwgRunStart
  extract_lets -merge +onlyGivenNames x5
  have hx6 : Upd K R C s0 x5 := by
    unfold x5
    refine State.at_upd ?_ (sub_of rfl hk)
    · exact hs0'
  try clear_value x5
  extract_lets -merge +onlyGivenNames x7
  refine ResUpd.next ?_
  refine Upd.ite ?_ ?_
  · refine State.setRf_upd ?_ (testBit_of_sub hr rfl) (RegOk.awg rfl hc)
    refine setAwgState_upd ?_ (sub_of rfl hr) hc
    · exact hx6
  · exact hx6

theorem awgDecide_upd {n : Cluster} {g : Fin 2} {s : State} (hs : Upd K R C s0 s) (hk : 0x4000 ||| K = K) (hr : 0x20000000000000000000000000000000000000000000000000000000000000000000000000000000000000000000 ||| R = R) (hc : ∃ c, C n.val c) :
    Upd K R C s0 (awgDecide n g s) := by
  unfold awgDecide
  extract_lets -merge +onlyGivenNames x4
  split
  · extract_lets -merge +onlyGivenNames x6
    refine Upd.ite ?_ ?_
    · refine noteJump_upd ?_ (sub_of rfl hr) hc
      · refine modAwg_upd ?_ (sub_of rfl hk) hc
        · exact hs
    · refine modAwg_upd ?_ (sub_of rfl hk) hc
      · exact hs
  · refine Upd.ite ?_ ?_
    · refine modAwg_upd ?_ (sub_of rfl hk) hc
      · exact hs
    · refine Upd.ite ?_ ?_
      · refine modAwg_upd ?_ (sub_of rfl hk) hc
        · exact hs
      · extract_lets -merge +onlyGivenNames x8
        refine Upd.ite ?_ ?_
        · refine modAwg_upd ?_ (sub_of rfl hk) hc
          · exact hs
        · refine modAwg_upd ?_ (sub_of rfl hk) hc
          · exact hs

theorem execAwgCommitPoint_upd {t : Nat} {n : Cluster} {g : Fin 2} {s0' : State} (hs0' : Upd K R C s0 s0') (hk : 0x4001 ||| K = K) (hr : 0x1200020000000000000000000000000000000000000000000000000000000000000000000000000000000000000000000 ||| R = R) (hc : ∃ c, C n.val c) :
    ResUpd K R C s0 (execAwgCommitPoint t n g s0') := by
  unfold execAwgCommitPoint
  extract_lets -merge +onlyGivenNames x5
  have hx6 : Upd K R C s0 x5 := by
    unfold x5
    refine State.at_upd ?_ (sub_of rfl hk)
    · exact hs0'
  try clear_value x5
  extract_lets -merge +onlyGivenNames x7
  extract_lets -merge +onlyGivenNames x9
  refine ResUpd.next ?_
  refine Upd.ite ?_ ?_
  · refine awgDecide_upd ?_ (sub_of rfl hk) (sub_of rfl hr) hc
    · refine jumpsBefore_upd ?_ (sub_of rfl hk) (sub_of rfl hr) hc
      · exact hx6
  · exact hx6

theorem awgTurn_upd {n : Cluster} {g : Fin 2} {b : Nat} {entry : Nat} {lo : Word} {hi : Word} {left : Nat} {jump : Option Bool} {s : State} (hs : Upd K R C s0 s) (hk : 0x4000 ||| K = K) (hr : 0x1d00020000000000000000000000000000000000000000000000000000000000000000000000000000000000000000000 ||| R = R) (hc : ∃ c, C n.val c) :
    Upd K R C s0 (awgTurn n g b entry lo hi left jump s) := by
  unfold awgTurn
  extract_lets -merge +onlyGivenNames x10
  extract_lets -merge +onlyGivenNames x12
  have hx13 : Upd K R C s0 x12 := by
    unfold x12
    refine modAwg_upd ?_ (sub_of rfl hk) hc
    · exact hs
  try clear_value x12
  extract_lets -merge +onlyGivenNames x14
  have hx15 : Upd K R C s0 x14 := by
    unfold x14
    refine State.setRf_upd ?_ (testBit_of_sub hr rfl) (RegOk.awg rfl hc)
    exact hx13
  try clear_value x14
  split
  · exact hx15
  · extract_lets -merge +onlyGivenNames x16
    have hx17 : Upd K R C s0 x16 := by
      unfold x16
      refine State.setRb_upd ?_ (testBit_of_sub hr rfl) (RegOk.awg rfl hc)
      refine State.setPair_upd ?_ (testBit_of_sub hr rfl) (RegOk.awg rfl hc) (testBit_of_sub hr rfl) (RegOk.awg rfl hc)
      refine State.count_upd ?_ (testBit_of_sub hr rfl) (RegOk.awg rfl hc)
      exact hx15
    try clear_value x16
    extract_lets -merge +onlyGivenNames x18
    have hx19 : Upd K R C s0 x18 := by
      unfold x18
      refine State.setRb_upd ?_ (testBit_of_sub hr rfl) (RegOk.awg rfl hc)
      exact hx17
    try clear_value x18
    refine Upd.ite ?_ ?_
    · refine State.setRb_upd ?_ (testBit_of_sub hr rfl) (RegOk.awg rfl hc)
      exact hx19
    · exact hx19

theorem execAwgPassEnd_upd {t : Nat} {n : Cluster} {g : Fin 2} {s0' : State} (hs0' : Upd K R C s0 s0') (hk : 0x4001 ||| K = K) (hr : 0x1f00020000000000000004000000000000000000000000000000000000000000000000000000000000000000000000000 ||| R = R) (hc : ∀ c, C n.val c) :
    ResUpd K R C s0 (execAwgPassEnd t n g s0') := by
  unfold execAwgPassEnd
  extract_lets -merge +onlyGivenNames x5
  have hx6 : Upd K R C s0 x5 := by
    unfold x5
    refine State.at_upd ?_ (sub_of rfl hk)
    · exact hs0'
  try clear_value x5
  extract_lets -merge +onlyGivenNames x7
  extract_lets -merge +onlyGivenNames x9
  refine ResUpd.next ?_
  refine Upd.ite ?_ ?_
  · split
    · exact hx6
    · extract_lets -merge +onlyGivenNames x11
      have hx12 : Upd K R C s0 x11 := by
        unfold x11
        refine jumpsBefore_upd ?_ (sub_of rfl hk) (sub_of rfl hr) ⟨0, hc 0⟩
        · exact hx6
      try clear_value x11
      refine Upd.ite ?_ ?_
      · refine awgHalt_upd ?_ (sub_of rfl hk) (sub_of rfl hr) hc
        · exact hx12
      · refine Upd.ite ?_ ?_
        · refine awgHalt_upd ?_ (sub_of rfl hk) (sub_of rfl hr) hc
          · refine awgErr_upd ?_ (sub_of rfl hr) ⟨0, hc 0⟩
            · exact hx12
        · split
          · refine awgHalt_upd ?_ (sub_of rfl hk) (sub_of rfl hr) hc
            · refine Upd.ite ?_ ?_
              · refine awgErr_upd ?_ (sub_of rfl hr) ⟨0, hc 0⟩
                · exact hx12
              · exact hx12
          · refine awgTurn_upd ?_ (sub_of rfl hk) (sub_of rfl hr) ⟨0, hc 0⟩
            · exact hx12
  · exact hx6

theorem execAwgFetch_upd {t : Nat} {n : Cluster} {g : Fin 2} {s0' : State} (hs0' : Upd K R C s0 s0') (hk : 0x200000000004001 ||| K = K) (hr : 0x1a800000000000000000000 ||| R = R) (hc : ∃ c, C n.val c) :
    ResUpd K R C s0 (execAwgFetch t n g s0') := by
  unfold execAwgFetch
  extract_lets -merge +onlyGivenNames x5
  have hx6 : Upd K R C s0 x5 := by
    unfold x5
    refine State.at_upd ?_ (sub_of rfl hk)
    · exact hs0'
  try clear_value x5
  extract_lets -merge +onlyGivenNames x7
  extract_lets -merge +onlyGivenNames x9
  refine ResUpd.next ?_
  refine Upd.ite ?_ ?_
  · refine Upd.ite ?_ ?_
    · refine State.setAwg_upd ?_ (sub_of rfl hk) hc
      · exact hx6
    · refine State.setAwg_upd ?_ (sub_of rfl hk) hc
      · refine noteRefusals_upd ?_ (sub_of rfl hk) (sub_of rfl hr)
        · exact hx6
  · exact hx6

theorem execAwgSampleBoundary_upd {t : Nat} {n : Cluster} {g : Fin 2} {s0' : State} (hs0' : Upd K R C s0 s0') (hk : 0x4001 ||| K = K) (hr : 0x1200020000000000000004000000000000000000000000000000000000000000000000000000000000000000000000000 ||| R = R) (hc : ∀ c, C n.val c) :
    ResUpd K R C s0 (execAwgSampleBoundary t n g s0') := by
  unfold execAwgSampleBoundary
  extract_lets -merge +onlyGivenNames x5
  have hx6 : Upd K R C s0 x5 := by
    unfold x5
    refine State.at_upd ?_ (sub_of rfl hk)
    · exact hs0'
  try clear_value x5
  refine ResUpd.next ?_
  refine Upd.ite ?_ ?_
  · refine awgBoundary_upd ?_ (sub_of rfl hk) (sub_of rfl hr) hc
    · exact hx6
  · exact hx6

theorem execAuxCurrentLimit_upd {t : Nat} {n : Cluster} {g : Fin 2} {s0' : State} (hs0' : Upd K R C s0 s0') (hk : 0x4001 ||| K = K) (hr : 0x1000020000000000000000000000000000000000000000000000000000000000000000000000000000000000000000000 ||| R = R) (hc : ∃ c, C n.val c) :
    ResUpd K R C s0 (execAuxCurrentLimit t n g s0') := by
  unfold execAuxCurrentLimit
  extract_lets -merge +onlyGivenNames x5
  have hx6 : Upd K R C s0 x5 := by
    unfold x5
    refine State.at_upd ?_ (sub_of rfl hk)
    · exact hs0'
  try clear_value x5
  refine ResUpd.next ?_
  refine Upd.ite ?_ ?_
  · refine modAwg_upd ?_ (sub_of rfl hk) hc
    · refine State.setRb_upd ?_ (testBit_of_sub hr rfl) (RegOk.awg rfl hc)
      refine State.setRb_upd ?_ (testBit_of_sub hr rfl) (RegOk.awg rfl hc)
      exact hx6
  · exact hx6

theorem execAuxScTimeout_upd {t : Nat} {n : Cluster} {g : Fin 2} {s0' : State} (hs0' : Upd K R C s0 s0') (hk : 0x200000000004001 ||| K = K) (hr : 0x1000020000000000000000000000000000000000000000000000000000000000000000000000000000000000000000000 ||| R = R) (hc : ∃ c, C n.val c) :
    ResUpd K R C s0 (execAuxScTimeout t n g s0') := by
  unfold execAuxScTimeout
  extract_lets -merge +onlyGivenNames x5
  have hx6 : Upd K R C s0 x5 := by
    unfold x5
    refine State.at_upd ?_ (sub_of rfl hk)
    · exact hs0'
  try clear_value x5
  extract_lets -merge +onlyGivenNames x7
  refine ResUpd.next ?_
  split
  · refine Upd.ite ?_ ?_
    · extract_lets -merge +onlyGivenNames x9
      have hx10 : Upd K R C s0 x9 := by
        unfold x9
        refine modAwg_upd ?_ (sub_of rfl hk) hc
        · refine State.setRf_upd ?_ (testBit_of_sub hr rfl) (RegOk.awg rfl hc)
          exact hx6
      try clear_value x9
      refine State.send_upd ?_ (sub_of rfl hk)
      · refine State.setRb_upd ?_ (testBit_of_sub hr rfl) (RegOk.awg rfl hc)
        exact hx10
    · exact hx6
  · exact hx6

theorem forAwgs_upd {f : Cluster → Fin 2 → State → State} {s : State} (hff : ∀ v2 : Cluster, ∀ v3 : Fin 2, ∀ v4, Upd K R C s0 v4 → Upd K R C s0 (f v2 v3 v4)) (hs : Upd K R C s0 s) :
    Upd K R C s0 (forAwgs f s) := by
  unfold forAwgs
  refine forClusters_upd (fun z6 z7 h8 => ?_) ?_
  · beta_reduce
    refine hff _ _ _ ?_
    · refine hff _ _ _ ?_
      · exact h8
  · exact hs

theorem clrAssertOne_upd {n : Cluster} {g : Fin 2} {s : State} (hs : Upd K R C s0 s) (hk : 0x4000 ||| K = K) (hr : 0x1200020000000000000004000000000000000000000000000000000000000000000000000000000000000000000000000 ||| R = R) (hc : ∀ c, C n.val c) :
    Upd K R C s0 (clrAssertOne n g s) := by
  unfold clrAssertOne
  extract_lets -merge +onlyGivenNames x4
  extract_lets -merge +onlyGivenNames x6
  have hx7 : Upd K R C s0 x6 := by
    unfold x6
    refine Upd.ite ?_ ?_
    · refine jumpLost_upd ?_ (sub_of rfl hr) ⟨0, hc 0⟩
      · exact hs
    · exact hs
  try clear_value x6
  extract_lets -merge +onlyGivenNames x8
  have hx9 : Upd K R C s0 x8 := by
    unfold x8
    refine modAwg_upd ?_ (sub_of rfl hk) ⟨0, hc 0⟩
    · exact hx7
  try clear_value x8
  extract_lets -merge +onlyGivenNames x10
  have hx11 : Upd K R C s0 x10 := by
    unfold x10
    refine setAwgState_upd ?_ (sub_of rfl hr) ⟨0, hc 0⟩
    · refine noteJump_upd ?_ (sub_of rfl hr) ⟨0, hc 0⟩
      · exact hx9
  try clear_value x10
  extract_lets -merge +onlyGivenNames x12
  have hx13 : Upd K R C s0 x12 := by
    unfold x12
    refine State.setRb_upd ?_ (testBit_of_sub hr rfl) (RegOk.awg rfl ⟨0, hc 0⟩)
    refine State.setRb_upd ?_ (testBit_of_sub hr rfl) (RegOk.awg rfl ⟨0, hc 0⟩)
    refine State.setRf_upd ?_ (testBit_of_sub hr rfl) (RegOk.awg rfl ⟨0, hc 0⟩)
    exact hx11
  try clear_value x12
  refine putOut_upd ?_ (sub_of rfl hk) (sub_of rfl hr) hc
  · exact hx13

theorem execAwgClrAssert_upd {t : Nat} {s0' : State} (hs0' : Upd K R C s0 s0') (hk : 0x4001 ||| K = K) (hr : 0x1200020000000000000004000000000000000000000000000000000000000000000000000000000000000000000000000 ||| R = R) (hc : ∀ n c, C n c) :
    ResUpd K R C s0 (execAwgClrAssert t s0') := by
  unfold execAwgClrAssert
  refine ResUpd.next ?_
  refine forAwgs_upd (fun z3 z4 z5 h6 => ?_) ?_
  · beta_reduce
    refine clrAssertOne_upd ?_ (sub_of rfl hk) (sub_of rfl hr) (hc _)
    · exact h6
  · refine State.at_upd ?_ (sub_of rfl hk)
    · exact hs0'

theorem clrReleaseOne_upd {n : Cluster} {g : Fin 2} {s : State} (hs : Upd K R C s0 s) (hr : 0x20000000000000000000000000000000000000000000000000000000000000000000000000000000000000000000 ||| R = R) (hc : ∃ c, C n.val c) :
    Upd K R C s0 (clrReleaseOne n g s) := by
  unfold clrReleaseOne
  refine Upd.ite ?_ ?_
  · refine setAwgState_upd ?_ (sub_of rfl hr) hc
    · refine State.setRb_upd ?_ (testBit_of_sub hr rfl) (RegOk.awg rfl hc)
      exact hs
  · exact hs

theorem execAwgClrRelease_upd {t : Nat} {s0' : State} (hs0' : Upd K R C s0 s0') (hk : 0x1 ||| K = K) (hr : 0x20000000000000000000000000000000000000000000000000000000000000000000000000000000000000000000 ||| R = R) (hc : ∀ n c, C n c) :
    ResUpd K R C s0 (execAwgClrRelease t s0') := by
  unfold execAwgClrRelease
  refine ResUpd.next ?_
  refine forAwgs_upd (fun z3 z4 z5 h6 => ?_) ?_
  · beta_reduce
    refine clrReleaseOne_upd ?_ (sub_of rfl hr) ⟨0, hc _ 0⟩
    · exact h6
  · refine State.at_upd ?_ (sub_of rfl hk)
    · exact hs0'

theorem trgReconfig_upd {n : Cluster} {u : Nat} {newly : Bool} {s : State} (hs : Upd K R C s0 s) (hk : 0x1000 ||| K = K) (hr : 0x1020000000000000000000000000000000000000000000000000000000000000000000000000000000000000 ||| R = R) (hc : ∃ c, C n.val c) :
    Upd K R C s0 (trgReconfig n u newly s) := by
  unfold trgReconfig
  extract_lets -merge +onlyGivenNames x5
  extract_lets -merge +onlyGivenNames x7
  have hx8 : Upd K R C s0 x7 := by
    unfold x7
    refine State.setRb_upd ?_ (testBit_of_sub hr rfl) (RegOk.trg rfl hc)
    exact hs
  try clear_value x7
  extract_lets -merge +onlyGivenNames x9
  have hx10 : Upd K R C s0 x9 := by
    unfold x9
    refine Upd.ite ?_ ?_
    · refine State.setRb_upd ?_ (testBit_of_sub hr rfl) (RegOk.one rfl hc)
      exact hx8
    · exact hx8
  try clear_value x9
  extract_lets -merge +onlyGivenNames x11
  extract_lets -merge +onlyGivenNames x13
  refine State.setTrig_upd ?_ (sub_of rfl hk) hc
  · exact hx10

theorem trgArm_upd {n : Cluster} {u : Nat} {on : Bool} {from_ : Nat} {s : State} (hs : Upd K R C s0 s) (hk : 0x1000 ||| K = K) (hr : 0x20000000000000000000000000000000000000000000000000000000000000000000000000000000000000 ||| R = R) (hc : ∃ c, C n.val c) :
    Upd K R C s0 (trgArm n u on from_ s) := by
  unfold trgArm
  extract_lets -merge +onlyGivenNames x6
  extract_lets -merge +onlyGivenNames x8
  refine State.setRf_upd ?_ (testBit_of_sub hr rfl) (RegOk.trg rfl hc)
  refine State.setTrig_upd ?_ (sub_of rfl hk) hc
  · exact hs

theorem trgCtrl_upd {n : Cluster} {u : Nat} {arm : Bool} {disarm : Bool} {s : State} (hs : Upd K R C s0 s) (hk : 0x1000 ||| K = K) (hr : 0x20000000000000000000000000000000000000000000000000000000000000000000000000000000000000 ||| R = R) (hc : ∃ c, C n.val c) :
    Upd K R C s0 (trgCtrl n u arm disarm s) := by
  unfold trgCtrl
  refine Upd.ite ?_ ?_
  · refine trgArm_upd ?_ (sub_of rfl hk) (sub_of rfl hr) hc
    · exact hs
  · refine Upd.ite ?_ ?_
    · refine trgArm_upd ?_ (sub_of rfl hk) (sub_of rfl hr) hc
      · exact hs
    · exact hs

theorem trgRearm_upd {n : Cluster} {u : Nat} {j : Nat} {s : State} (hs : Upd K R C s0 s) (hk : 0x1000 ||| K = K) (hr : 0x20000000000000000000000000000000000000000000000000000000000000000000000000000000000000 ||| R = R) (hc : ∃ c, C n.val c) :
    Upd K R C s0 (trgRearm n u j s) := by
  unfold trgRearm
  extract_lets -merge +onlyGivenNames x5
  extract_lets -merge +onlyGivenNames x7
  split
  · extract_lets -merge +onlyGivenNames x9
    refine Upd.ite ?_ ?_
    · refine State.setRf_upd ?_ (testBit_of_sub hr rfl) (RegOk.trg rfl hc)
      refine State.setTrig_upd ?_ (sub_of rfl hk) hc
      · exact hs
    · exact hs
  · exact hs

theorem trgMiss_upd {n : Cluster} {u : Nat} {s : State} (hs : Upd K R C s0 s) (hk : 0x1000 ||| K = K) (hr : 0x1000400000000000000000000000000000000000000000000000000000000000000000000000000000000000 ||| R = R) (hc : ∃ c, C n.val c) :
    Upd K R C s0 (trgMiss n u s) := by
  unfold trgMiss
  extract_lets -merge +onlyGivenNames x4
  have hx5 : Upd K R C s0 x4 := by
    unfold x4
    refine State.setRb_upd ?_ (testBit_of_sub hr rfl) (RegOk.one rfl hc)
    refine State.count_upd ?_ (testBit_of_sub hr rfl) (RegOk.trg rfl hc)
    exact hs
  try clear_value x4
  refine State.setTrig_upd ?_ (sub_of rfl hk) hc
  · exact hx5

theorem trgFire_upd {n : Cluster} {j : Nat} {u : Nat} {s : State} (hs : Upd K R C s0 s) (hk : 0x1000 ||| K = K) (hr : 0x1020800000000000000000000000000000000000000000000000000000000000000000000000000000000000 ||| R = R) (hc : ∃ c, C n.val c) :
    Upd K R C s0 (trgFire n j u s) := by
  unfold trgFire
  extract_lets -merge +onlyGivenNames x5
  have hx6 : Upd K R C s0 x5 := by
    unfold x5
    refine State.setRb_upd ?_ (testBit_of_sub hr rfl) (RegOk.one rfl hc)
    refine State.count_upd ?_ (testBit_of_sub hr rfl) (RegOk.trg rfl hc)
    exact hs
  try clear_value x5
  extract_lets -merge +onlyGivenNames x7
  extract_lets -merge +onlyGivenNames x9
  refine State.setRf_upd ?_ (testBit_of_sub hr rfl) (RegOk.trg rfl hc)
  refine State.setTrig_upd ?_ (sub_of rfl hk) hc
  · exact hx6

theorem trgRecord_upd {n : Cluster} {j : Nat} {fs : List (Nat × Qual)} {late : Bool} {s : State} (hs : Upd K R C s0 s) (hk : 0x1000 ||| K = K) (hr : 0x1800000000000000000000000000000000000000000000000000000000000000000000000000000000000000 ||| R = R) (hc : ∃ c, C n.val c) :
    Upd K R C s0 (trgRecord n j fs late s) := by
  unfold trgRecord
  extract_lets -merge +onlyGivenNames x6
  extract_lets -merge +onlyGivenNames x8
  extract_lets -merge +onlyGivenNames x10
  extract_lets -merge +onlyGivenNames x12
  extract_lets -merge +onlyGivenNames x14
  have hx15 : Upd K R C s0 x14 := by
    unfold x14
    refine State.countWrap_upd ?_ (testBit_of_sub hr rfl) (RegOk.one rfl hc)
    refine State.setTrig_upd ?_ (sub_of rfl hk) hc
    · exact hs
  try clear_value x14
  refine Upd.ite ?_ ?_
  · refine State.setRb_upd ?_ (testBit_of_sub hr rfl) (RegOk.one rfl hc)
    exact hx15
  · exact hx15

theorem State.setMicroAt_upd {s : State} {n : Cluster} {a : Nat} {v : MWord} (hs : Upd K R C s0 s) (hk : 0x4 ||| K = K) (hc : ∃ c, C n.val c) :
    Upd K R C s0 (State.setMicroAt s n a v) := by
  unfold State.setMicroAt
  refine Upd.micro ?_ (testBit_of_sub hk rfl) (by first | omega | (unfold awgIx; omega)) hc
  exact hs

theorem State.setNanoAt_upd {s : State} {n : Cluster} {i : Nat} {v : NWord} (hs : Upd K R C s0 s) (hk : 0x8 ||| K = K) (hc : ∃ c, C n.val c) :
    Upd K R C s0 (State.setNanoAt s n i v) := by
  unfold State.setNanoAt
  refine Upd.nano ?_ (testBit_of_sub hk rfl) (by first | omega | (unfold awgIx; omega)) hc
  exact hs

theorem feGoto_upd {n : Cluster} {p : PAddr} {s : State} (hs : Upd K R C s0 s) (hk : 0x300 ||| K = K) (hr : 0x800000000000000000000000000000000000000000000000000000000000000000000 ||| R = R) (hc : ∃ c, C n.val c) :
    Upd K R C s0 (feGoto n p s) := by
  unfold feGoto
  extract_lets -merge +onlyGivenNames x4
  extract_lets -merge +onlyGivenNames x6
  extract_lets -merge +onlyGivenNames x8
  refine Upd.ite ?_ ?_
  · refine State.setSeq_upd ?_ (sub_of rfl hk) hc
    · exact hs
  · extract_lets -merge +onlyGivenNames x10
    have hx11 : Upd K R C s0 x10 := by
      unfold x10
      refine State.setRf_upd ?_ (testBit_of_sub hr rfl) (RegOk.one rfl hc)
      exact hs
    try clear_value x10
    refine Upd.ite ?_ ?_
    · refine State.setHop_upd ?_ (sub_of rfl hk) hc
      · refine State.setSeq_upd ?_ (sub_of rfl hk) hc
        · exact hx11
    · refine State.setSeq_upd ?_ (sub_of rfl hk) hc
      · exact hx11

theorem feParity_upd {n : Cluster} {nano : Option Nat} {s : State} (hs : Upd K R C s0 s) (hk : 0x100 ||| K = K) (hc : ∃ c, C n.val c) :
    Upd K R C s0 (feParity n nano s) := by
  unfold feParity
  refine State.modSeq_upd ?_ (sub_of rfl hk) hc
  · exact hs

theorem noteDepth_upd {n : Cluster} {s : State} (hs : Upd K R C s0 s) (hr : 0x100000000000000000000000000000000000000000000000000000000 ||| R = R) (hc : ∃ c, C n.val c) :
    Upd K R C s0 (noteDepth n s) := by
  unfold noteDepth
  refine State.setRf_upd ?_ (testBit_of_sub hr rfl) (RegOk.one rfl hc)
  exact hs

theorem feApply_upd {n : Cluster} {m : Micro} {s : State} (hs : Upd K R C s0 s) (hk : 0x300 ||| K = K) (hr : 0x800000000000100000000000000000000000000000000000000000000000000000000 ||| R = R) (hc : ∃ c, C n.val c) :
    Upd K R C s0 (feApply n m s) := by
  unfold feApply
  extract_lets -merge +onlyGivenNames x4
  extract_lets -merge +onlyGivenNames x6
  extract_lets -merge +onlyGivenNames x8
  extract_lets -merge +onlyGivenNames x10
  extract_lets -merge +onlyGivenNames x12
  extract_lets -merge +onlyGivenNames x14
  split
  · extract_lets -merge +onlyGivenNames x16
    try unfold x12
    beta_reduce
    refine feGoto_upd ?_ (sub_of rfl hk) (sub_of rfl hr) hc
    · refine State.setSeq_upd ?_ (sub_of rfl hk) hc
      · exact hs
  · try unfold x12
    beta_reduce
    refine feGoto_upd ?_ (sub_of rfl hk) (sub_of rfl hr) hc
    · refine State.setSeq_upd ?_ (sub_of rfl hk) hc
      · exact hs
  · extract_lets -merge +onlyGivenNames x18
    try unfold x12
    beta_reduce
    refine feGoto_upd ?_ (sub_of rfl hk) (sub_of rfl hr) hc
    · refine State.setSeq_upd ?_ (sub_of rfl hk) hc
      · exact hs
  · refine feGoto_upd ?_ (sub_of rfl hk) (sub_of rfl hr) hc
    · refine State.setSeq_upd ?_ (sub_of rfl hk) hc
      · exact hs
  · refine noteDepth_upd ?_ (sub_of rfl hr) hc
    · refine feGoto_upd ?_ (sub_of rfl hk) (sub_of rfl hr) hc
      · refine State.setSeq_upd ?_ (sub_of rfl hk) hc
        · exact hs
  · refine Upd.ite ?_ ?_
    · refine State.setSeq_upd ?_ (sub_of rfl hk) hc
      · exact hs
    · extract_lets -merge +onlyGivenNames x20
      extract_lets -merge +onlyGivenNames x22
      split
      · refine Upd.ite ?_ ?_
        · refine noteDepth_upd ?_ (sub_of rfl hr) hc
          · refine feGoto_upd ?_ (sub_of rfl hk) (sub_of rfl hr) hc
            · refine State.setSeq_upd ?_ (sub_of rfl hk) hc
              · exact hs
        · refine noteDepth_upd ?_ (sub_of rfl hr) hc
          · refine feGoto_upd ?_ (sub_of rfl hk) (sub_of rfl hr) hc
            · refine State.setSeq_upd ?_ (sub_of rfl hk) hc
              · exact hs
      · refine noteDepth_upd ?_ (sub_of rfl hr) hc
        · refine feGoto_upd ?_ (sub_of rfl hk) (sub_of rfl hr) hc
          · refine State.setSeq_upd ?_ (sub_of rfl hk) hc
            · exact hs
  · try unfold x12
    beta_reduce
    refine feGoto_upd ?_ (sub_of rfl hk) (sub_of rfl hr) hc
    · refine State.setSeq_upd ?_ (sub_of rfl hk) hc
      · exact hs
  · extract_lets -merge +onlyGivenNames x23
    extract_lets -merge +onlyGivenNames x24
    extract_lets -merge +onlyGivenNames x26
    extract_lets -merge +onlyGivenNames x28
    have hx29 : Upd K R C s0 x28 := by
      unfold x28
      refine feGoto_upd ?_ (sub_of rfl hk) (sub_of rfl hr) hc
      · refine State.setSeq_upd ?_ (sub_of rfl hk) hc
        · exact hs
    try clear_value x28
    refine Upd.ite ?_ ?_
    · refine State.modSeq_upd ?_ (sub_of rfl hk) hc
      · exact hx29
    · exact hx29
  · try unfold x12
    beta_reduce
    refine feGoto_upd ?_ (sub_of rfl hk) (sub_of rfl hr) hc
    · refine State.setSeq_upd ?_ (sub_of rfl hk) hc
      · exact hs
  · refine Upd.ite ?_ ?_
    · refine feParity_upd ?_ (sub_of rfl hk) hc
      · exact hs
    · try unfold x12
      beta_reduce
      refine feGoto_upd ?_ (sub_of rfl hk) (sub_of rfl hr) hc
      · refine State.setSeq_upd ?_ (sub_of rfl hk) hc
        · exact hs
  · refine Upd.ite ?_ ?_
    · refine feParity_upd ?_ (sub_of rfl hk) hc
      · exact hs
    · try unfold x12
      beta_reduce
      refine feGoto_upd ?_ (sub_of rfl hk) (sub_of rfl hr) hc
      · refine State.setSeq_upd ?_ (sub_of rfl hk) hc
        · exact hs
  · try unfold x12
    beta_reduce
    refine feGoto_upd ?_ (sub_of rfl hk) (sub_of rfl hr) hc
    · refine State.setSeq_upd ?_ (sub_of rfl hk) hc
      · exact hs
  · try unfold x12
    beta_reduce
    refine feGoto_upd ?_ (sub_of rfl hk) (sub_of rfl hr) hc
    · refine State.setSeq_upd ?_ (sub_of rfl hk) hc
      · exact hs
  · refine Upd.ite ?_ ?_
    · refine feParity_upd ?_ (sub_of rfl hk) hc
      · exact hs
    · extract_lets -merge +onlyGivenNames x30
      try unfold x12
      beta_reduce
      refine feGoto_upd ?_ (sub_of rfl hk) (sub_of rfl hr) hc
      · refine State.setSeq_upd ?_ (sub_of rfl hk) hc
        · exact hs
  · try unfold x12
    beta_reduce
    refine feGoto_upd ?_ (sub_of rfl hk) (sub_of rfl hr) hc
    · refine State.setSeq_upd ?_ (sub_of rfl hk) hc
      · exact hs
  · extract_lets -merge +onlyGivenNames x32
    try unfold x12
    beta_reduce
    refine feGoto_upd ?_ (sub_of rfl hk) (sub_of rfl hr) hc
    · refine State.setSeq_upd ?_ (sub_of rfl hk) hc
      · exact hs
  · extract_lets -merge +onlyGivenNames x34
    extract_lets -merge +onlyGivenNames x36
    try unfold x12
    beta_reduce
    refine feGoto_upd ?_ (sub_of rfl hk) (sub_of rfl hr) hc
    · refine State.setSeq_upd ?_ (sub_of rfl hk) hc
      · exact hs
  · try unfold x12
    beta_reduce
    refine feGoto_upd ?_ (sub_of rfl hk) (sub_of rfl hr) hc
    · refine State.setSeq_upd ?_ (sub_of rfl hk) hc
      · exact hs
  · try unfold x12
    beta_reduce
    refine feGoto_upd ?_ (sub_of rfl hk) (sub_of rfl hr) hc
    · refine State.setSeq_upd ?_ (sub_of rfl hk) hc
      · exact hs
  · refine Upd.ite ?_ ?_
    · refine feParity_upd ?_ (sub_of rfl hk) hc
      · exact hs
    · try unfold x12
      beta_reduce
      refine feGoto_upd ?_ (sub_of rfl hk) (sub_of rfl hr) hc
      · refine State.setSeq_upd ?_ (sub_of rfl hk) hc
        · exact hs
  · try unfold x12
    beta_reduce
    refine feGoto_upd ?_ (sub_of rfl hk) (sub_of rfl hr) hc
    · refine State.setSeq_upd ?_ (sub_of rfl hk) hc
      · exact hs
  · try unfold x12
    beta_reduce
    refine feGoto_upd ?_ (sub_of rfl hk) (sub_of rfl hr) hc
    · refine State.setSeq_upd ?_ (sub_of rfl hk) hc
      · exact hs
  · refine State.setSeq_upd ?_ (sub_of rfl hk) hc
    · exact hs
  · refine feGoto_upd ?_ (sub_of rfl hk) (sub_of rfl hr) hc
    · refine State.setSeq_upd ?_ (sub_of rfl hk) hc
      · exact hs
  · refine feGoto_upd ?_ (sub_of rfl hk) (sub_of rfl hr) hc
    · refine State.setSeq_upd ?_ (sub_of rfl hk) hc
      · exact hs
  · refine feGoto_upd ?_ (sub_of rfl hk) (sub_of rfl hr) hc
    · refine State.setSeq_upd ?_ (sub_of rfl hk) hc
      · exact hs
  · refine feGoto_upd ?_ (sub_of rfl hk) (sub_of rfl hr) hc
    · refine State.setSeq_upd ?_ (sub_of rfl hk) hc
      · exact hs

theorem feExec_upd {n : Cluster} {want : BitVec 6} {s : State} (hs : Upd K R C s0 s) (hk : 0x300 ||| K = K) (hr : 0x800000000000100000000000000000000000000000000000000000000000000000000 ||| R = R) (hc : ∃ c, C n.val c) :
    Upd K R C s0 (feExec n want s) := by
  unfold feExec
  refine Upd.ite ?_ ?_
  · refine feParity_upd ?_ (sub_of rfl hk) hc
    · exact hs
  · split
    · exact hs
    · refine Upd.ite ?_ ?_
      · refine feApply_upd ?_ (sub_of rfl hk) (sub_of rfl hr) hc
        · exact hs
      · exact hs

theorem feCond_upd {n : Cluster} {want : BitVec 6} {flag : Seq → Bool} {s : State} (hs : Upd K R C s0 s) (hk : 0x300 ||| K = K) (hr : 0x800000000000100000000000000000000000000000000000000000000000000000000 ||| R = R) (hc : ∃ c, C n.val c) :
    Upd K R C s0 (feCond n want flag s) := by
  unfold feCond
  refine Upd.ite ?_ ?_
  · refine feParity_upd ?_ (sub_of rfl hk) hc
    · exact hs
  · split
    · exact hs
    · refine Upd.ite ?_ ?_
      · refine Upd.ite ?_ ?_
        · refine feApply_upd ?_ (sub_of rfl hk) (sub_of rfl hr) hc
          · exact hs
        · refine feGoto_upd ?_ (sub_of rfl hk) (sub_of rfl hr) hc
          · refine State.modSeq_upd ?_ (sub_of rfl hk) hc
            · exact hs
      · exact hs

theorem feIllegal_upd {n : Cluster} {s : State} (hs : Upd K R C s0 s) (hk : 0x100 ||| K = K) (hc : ∃ c, C n.val c) :
    Upd K R C s0 (feIllegal n s) := by
  unfold feIllegal
  refine Upd.ite ?_ ?_
  · extract_lets -merge +onlyGivenNames x3
    refine Upd.ite ?_ ?_
    · refine State.modSeq_upd ?_ (sub_of rfl hk) hc
      · exact hs
    · exact hs
  · refine Upd.ite ?_ ?_
    · refine feParity_upd ?_ (sub_of rfl hk) hc
      · exact hs
    · exact hs

theorem clearCounts_upd {n : Cluster} {s : State} (hs : Upd K R C s0 s) (hr : 0xc0f800000000000000000000000000000000000000000000000000000000 ||| R = R) (hc : ∀ c, C n.val c) :
    Upd K R C s0 (clearCounts n s) := by
  unfold clearCounts
  extract_lets -merge +onlyGivenNames x3
  have hx4 : Upd K R C s0 x3 := by
    unfold x3
    refine State.setReg_upd ?_ (testBit_of_sub hr rfl) (RegOk.one rfl ⟨0, hc 0⟩)
    refine State.setReg_upd ?_ (testBit_of_sub hr rfl) (RegOk.one rfl ⟨0, hc 0⟩)
    refine State.setReg_upd ?_ (testBit_of_sub hr rfl) (RegOk.one rfl ⟨0, hc 0⟩)
    refine State.setReg_upd ?_ (testBit_of_sub hr rfl) (RegOk.one rfl ⟨0, hc 0⟩)
    refine State.setReg_upd ?_ (testBit_of_sub hr rfl) (RegOk.one rfl ⟨0, hc 0⟩)
    exact hs
  try clear_value x3
  extract_lets -merge +onlyGivenNames x5
  have hx6 : Upd K R C s0 x5 := by
    unfold x5
    refine foldl_range_upd ?_ fun x8 y hyx8 h7 => ?_
    · exact hx4
    · beta_reduce
      refine State.setReg_upd ?_ (testBit_of_sub hr rfl) (RegOk.clu (by simp only [levelIx, chIx, Reg.row]; omega) hc)
      exact h7
  try clear_value x5
  refine State.setReg_upd ?_ (testBit_of_sub hr rfl) (RegOk.one rfl ⟨0, hc 0⟩)
  exact hx6

theorem armAt_upd {n : Cluster} {t0 : Nat} {fe : FE} {stream : Bool} {s : State} (hs : Upd K R C s0 s) (hk : 0x300 ||| K = K) (hr : 0x800000000000500000000000000000000000000000000000000000000000000000000 ||| R = R) (hc : ∃ c, C n.val c) :
    Upd K R C s0 (armAt n t0 fe stream s) := by
  unfold armAt
  extract_lets -merge +onlyGivenNames x6
  extract_lets -merge +onlyGivenNames x8
  extract_lets -merge +onlyGivenNames x10
  extract_lets -merge +onlyGivenNames x12
  have hx13 : Upd K R C s0 x12 := by
    unfold x12
    refine State.setHop_upd ?_ (sub_of rfl hk) hc
    · refine State.setRb_upd ?_ (testBit_of_sub hr rfl) (RegOk.one rfl hc)
      refine State.setReg_upd ?_ (testBit_of_sub hr rfl) (RegOk.one rfl hc)
      exact hs
  try clear_value x12
  extract_lets -merge +onlyGivenNames x14
  have hx15 : Upd K R C s0 x14 := by
    unfold x14
    refine Upd.ite ?_ ?_
    · exact hx13
    · refine State.setRf_upd ?_ (testBit_of_sub hr rfl) (RegOk.one rfl hc)
      exact hx13
  try clear_value x14
  refine noteDepth_upd ?_ (sub_of rfl hr) hc
  · refine setSeqState_upd ?_ (sub_of rfl hr) hc
    · refine State.setSeq_upd ?_ (sub_of rfl hk) hc
      · exact hx15

theorem notRun_upd {n : Cluster} {code : Nat} {s : State} (hs : Upd K R C s0 s) (hr : 0x100500000000000000000000000000000000000000000000000000000000 ||| R = R) (hc : ∃ c, C n.val c) :
    Upd K R C s0 (notRun n code s) := by
  unfold notRun
  refine setSeqState_upd ?_ (sub_of rfl hr) hc
  · refine State.setRb_upd ?_ (testBit_of_sub hr rfl) (RegOk.one rfl hc)
    refine State.setReg_upd ?_ (testBit_of_sub hr rfl) (RegOk.one rfl hc)
    exact hs

theorem armSeq_upd {n : Cluster} {fe : FE} {stream : Bool} {s : State} (hs : Upd K R C s0 s) (hk : 0x300 ||| K = K) (hr : 0x800000000100500000000000000000000000000000000000000000000000000000000 ||| R = R) (hc : ∃ c, C n.val c) :
    Upd K R C s0 (armSeq n fe stream s) := by
  unfold armSeq
  refine Upd.ite ?_ ?_
  · refine notRun_upd ?_ (sub_of rfl hr) hc
    · exact hs
  · refine Upd.ite ?_ ?_
    · extract_lets -merge +onlyGivenNames x5
      refine Upd.ite ?_ ?_
      · refine notRun_upd ?_ (sub_of rfl hr) hc
        · exact hs
      · refine armAt_upd ?_ (sub_of rfl hk) (sub_of rfl hr) hc
        · exact hs
    · refine armAt_upd ?_ (sub_of rfl hk) (sub_of rfl hr) hc
      · exact hs

theorem startSeq_upd {n : Cluster} {s : State} (hs : Upd K R C s0 s) (hk : 0x300 ||| K = K) (hr : 0x800000000d0fd00000000000000000000000000000000000000000000000000000000 ||| R = R) (hc : ∀ c, C n.val c) :
    Upd K R C s0 (startSeq n s) := by
  unfold startSeq
  extract_lets -merge +onlyGivenNames x3
  have hx4 : Upd K R C s0 x3 := by
    unfold x3
    refine State.modSeq_upd ?_ (sub_of rfl hk) ⟨0, hc 0⟩
    · refine clearCounts_upd ?_ (sub_of rfl hr) hc
      · exact hs
  try clear_value x3
  refine armSeq_upd ?_ (sub_of rfl hk) (sub_of rfl hr) ⟨0, hc 0⟩
  · exact hx4

theorem endSeq_upd {n : Cluster} {code : Nat} {exit : Nat} {s : State} (hs : Upd K R C s0 s) (hk : 0x100 ||| K = K) (hc : ∃ c, C n.val c) :
    Upd K R C s0 (endSeq n code exit s) := by
  unfold endSeq
  refine State.modSeq_upd ?_ (sub_of rfl hk) hc
  · exact hs

theorem saveCtx_upd {n : Cluster} {resumable : Bool} {parked : Bool} {cause : Nat} {outcome : Nat} {s : State} (hs : Upd K R C s0 s) (hk : 0x100 ||| K = K) (hr : 0x83f0000000000000000000000000000000000000000000000000000000000000000000000000000000000000000000000000000000 ||| R = R) (hc : ∀ c, C n.val c) :
    Upd K R C s0 (saveCtx n resumable parked cause outcome s) := by
  unfold saveCtx
  split
  · exact hs
  · extract_lets -merge +onlyGivenNames x7
    extract_lets -merge +onlyGivenNames x9
    extract_lets -merge +onlyGivenNames x11
    have hx12 : Upd K R C s0 x11 := by
      unfold x11
      refine State.setReg_upd ?_ (testBit_of_sub hr rfl) (RegOk.one rfl ⟨0, hc 0⟩)
      refine State.setReg_upd ?_ (testBit_of_sub hr rfl) (RegOk.one rfl ⟨0, hc 0⟩)
      refine State.setReg_upd ?_ (testBit_of_sub hr rfl) (RegOk.one rfl ⟨0, hc 0⟩)
      refine State.setReg_upd ?_ (testBit_of_sub hr rfl) (RegOk.one rfl ⟨0, hc 0⟩)
      refine State.setReg_upd ?_ (testBit_of_sub hr rfl) (RegOk.one rfl ⟨0, hc 0⟩)
      exact hs
    try clear_value x11
    extract_lets -merge +onlyGivenNames x13
    have hx14 : Upd K R C s0 x13 := by
      unfold x13
      refine foldl_range_upd ?_ fun x16 y hyx16 h15 => ?_
      · exact hx12
      · beta_reduce
        refine State.setReg_upd ?_ (testBit_of_sub hr rfl) (RegOk.clu (by simp only [levelIx, chIx, Reg.row]; omega) hc)
        exact h15
    try clear_value x13
    extract_lets -merge +onlyGivenNames x17
    refine State.setSeq_upd ?_ (sub_of rfl hk) ⟨0, hc 0⟩
    · refine State.setReg_upd ?_ (testBit_of_sub hr rfl) (RegOk.one rfl ⟨0, hc 0⟩)
      exact hx14

theorem finishUnwind_upd {n : Cluster} {ran : Bool} {s : State} (hs : Upd K R C s0 s) (hk : 0x400000000000140 ||| K = K) (hr : 0x2013fff9c0000000000000000002024040000000c00000000400000000000000000000000000000000000000000000000000000000 ||| R = R) (hc : ∀ c, C n.val c) :
    Upd K R C s0 (finishUnwind n ran s) := by
  unfold finishUnwind
  extract_lets -merge +onlyGivenNames x4
  have hx5 : Upd K R C s0 x4 := by
    unfold x4
    refine forceMask_upd ?_ (sub_of rfl hk) (sub_of rfl hr) hc
    · exact hs
  try clear_value x4
  extract_lets -merge +onlyGivenNames x6
  extract_lets -merge +onlyGivenNames x8
  have hx9 : Upd K R C s0 x8 := by
    unfold x8
    refine State.setReg_upd ?_ (testBit_of_sub hr rfl) (RegOk.one rfl ⟨0, hc 0⟩)
    exact hx5
  try clear_value x8
  extract_lets -merge +onlyGivenNames x10
  have hx11 : Upd K R C s0 x10 := by
    unfold x10
    refine Upd.ite ?_ ?_
    · exact hx9
    · refine State.setRf_upd ?_ (testBit_of_sub hr rfl) (RegOk.one rfl ⟨0, hc 0⟩)
      exact hx9
  try clear_value x10
  refine State.modSeq_upd ?_ (sub_of rfl hk) ⟨0, hc 0⟩
  · refine State.setRb_upd ?_ (testBit_of_sub hr rfl) (RegOk.one rfl ⟨0, hc 0⟩)
    exact hx11

theorem armUnwind_upd {n : Cluster} {t0 : Option Nat} {s : State} (hs : Upd K R C s0 s) (hk : 0x300 ||| K = K) (hr : 0x10000000000000000000000000000000000800000000100500000000000000000000000000000000000000000000000000000000 ||| R = R) (hc : ∃ c, C n.val c) :
    Upd K R C s0 (armUnwind n t0 s) := by
  unfold armUnwind
  split
  · exact hs
  · extract_lets -merge +onlyGivenNames x4
    extract_lets -merge +onlyGivenNames x6
    extract_lets -merge +onlyGivenNames x8
    extract_lets -merge +onlyGivenNames x10
    have hx11 : Upd K R C s0 x10 := by
      unfold x10
      refine State.setReg_upd ?_ (testBit_of_sub hr rfl) (RegOk.one rfl hc)
      exact hs
    try clear_value x10
    extract_lets -merge +onlyGivenNames x12
    extract_lets -merge +onlyGivenNames x14
    extract_lets -merge +onlyGivenNames x16
    have hx17 : Upd K R C s0 x16 := by
      unfold x16
      split
      · refine State.setRf_upd ?_ (testBit_of_sub hr rfl) (RegOk.one rfl hc)
        refine armAt_upd ?_ (sub_of rfl hk) (sub_of rfl hr) hc
        · exact hx11
      · refine armSeq_upd ?_ (sub_of rfl hk) (sub_of rfl hr) hc
        · exact hx11
    try clear_value x16
    refine State.modSeq_upd ?_ (sub_of rfl hk) hc
    · exact hx17

theorem abortSeq_upd {n : Cluster} {cause : Nat} {lat : Nat} {s : State} (hs : Upd K R C s0 s) (hk : 0x140 ||| K = K) (hr : 0x10000000000000000000000000000000000000000000000000000000000000000000000000000000000000000000000000000000 ||| R = R) (hc : ∀ c, C n.val c) :
    Upd K R C s0 (abortSeq n cause lat s) := by
  unfold abortSeq
  extract_lets -merge +onlyGivenNames x5
  have hx6 : Upd K R C s0 x5 := by
    unfold x5
    refine forChannels_upd (fun z7 z8 h9 => ?_) ?_
    · beta_reduce
      refine endMeas_upd ?_ (sub_of rfl hk) (hc _)
      · exact h9
    · exact hs
  try clear_value x5
  extract_lets -merge +onlyGivenNames x10
  refine Upd.ite ?_ ?_
  · refine Upd.ite ?_ ?_
    · refine State.setRb_upd ?_ (testBit_of_sub hr rfl) (RegOk.one rfl ⟨0, hc 0⟩)
      exact hx6
    · exact hx6
  · refine Upd.ite ?_ ?_
    · refine Upd.ite ?_ ?_
      · refine State.setRb_upd ?_ (testBit_of_sub hr rfl) (RegOk.one rfl ⟨0, hc 0⟩)
        exact hx6
      · exact hx6
    · refine Upd.ite ?_ ?_
      · exact hx6
      · refine Upd.ite ?_ ?_
        · refine endSeq_upd ?_ (sub_of rfl hk) ⟨0, hc 0⟩
          · exact hx6
        · refine State.setSeq_upd ?_ (sub_of rfl hk) ⟨0, hc 0⟩
          · exact hx6

theorem trapSeq_upd {n : Cluster} {s : State} (hs : Upd K R C s0 s) (hk : 0x100 ||| K = K) (hr : 0x83f0000000000000000000000000000000000000000000000000000000000000000000000000000000000000000000000000000000 ||| R = R) (hc : ∀ c, C n.val c) :
    Upd K R C s0 (trapSeq n s) := by
  unfold trapSeq
  refine Upd.ite ?_ ?_
  · refine Upd.ite ?_ ?_
    · refine State.setReg_upd ?_ (testBit_of_sub hr rfl) (RegOk.one rfl ⟨0, hc 0⟩)
      exact hs
    · exact hs
  · extract_lets -merge +onlyGivenNames x3
    have hx4 : Upd K R C s0 x3 := by
      unfold x3
      refine saveCtx_upd ?_ (sub_of rfl hk) (sub_of rfl hr) hc
      · exact hs
    try clear_value x3
    extract_lets -merge +onlyGivenNames x5
    have hx6 : Upd K R C s0 x5 := by
      unfold x5
      refine endSeq_upd ?_ (sub_of rfl hk) ⟨0, hc 0⟩
      · exact hx4
    try clear_value x5
    refine State.modSeq_upd ?_ (sub_of rfl hk) ⟨0, hc 0⟩
    · exact hx6

theorem nmiTrap_upd {n : Cluster} {s : State} (hs : Upd K R C s0 s) (hk : 0x400000000004140 ||| K = K) (hr : 0x83f3fff9c1200020000000000002024040000000c00000000000000000000000000000000000000000000000000000000000000000 ||| R = R) (hc : ∀ c, C n.val c) :
    Upd K R C s0 (nmiTrap n s) := by
  unfold nmiTrap
  refine stopAwgs_upd ?_ (sub_of rfl hk) (sub_of rfl hr) hc
  · refine forceCluster_upd ?_ (sub_of rfl hk) (sub_of rfl hr) hc
    · refine trapSeq_upd ?_ (sub_of rfl hk) (sub_of rfl hr) hc
      · exact hs

end Sys2Proof.Machine
end

