-- ==== Sys2Proof/Laws/Frames2.lean ====
section
/-! SUPPORT. Sys2Proof/Laws/Frames2.lean: what each operation of Machine/StartOps, Operands, ChannelOps, RecordOps, TimingOps, StampOps, ThermOps, IssueOps, Sequencer
may change: parts and registers as bits of two numbers, and where (Laws/Upd.lean). Each lemma carries Inv and the queue of
commands over its operation. -/

set_option linter.unusedVariables false

namespace Sys2Proof.Machine

variable {K R : Nat} {C : Nat → Nat → Prop} {s0 : State}

theorem State.setCalSt_upd {s : State} {n : Cluster} {v : CalSt} (hs : Upd K R C s0 s) (hk : 0x40000000000 ||| K = K) (hc : ∃ c, C n.val c) :
    Upd K R C s0 (State.setCalSt s n v) := by
  unfold State.setCalSt
  refine Upd.cal ?_ (testBit_of_sub hk rfl) hc
  exact hs

theorem busPass_upd {n : Cluster} {s : State} (hs : Upd K R C s0 s) (hk : 0x40 ||| K = K) (hc : ∀ c, C n.val c) :
    Upd K R C s0 (busPass n s) := by
  unfold busPass
  refine Upd.ite ?_ ?_
  · exact hs
  · split
    · refine State.modChan_upd ?_ (sub_of rfl hk) (hc _)
      · exact hs
    · exact hs

theorem calAbandon_upd {n : Cluster} {s : State} (hs : Upd K R C s0 s) (hk : 0x40000000040 ||| K = K) (hr : 0x104000000000000000000000000000000000000000000000000000000000000000000 ||| R = R) (hc : ∀ c, C n.val c) :
    Upd K R C s0 (calAbandon n s) := by
  unfold calAbandon
  refine Upd.ite ?_ ?_
  · extract_lets -merge +onlyGivenNames x3
    have hx4 : Upd K R C s0 x3 := by
      unfold x3
      refine State.setRb_upd ?_ (testBit_of_sub hr rfl) (RegOk.one rfl ⟨0, hc 0⟩)
      refine State.setRb_upd ?_ (testBit_of_sub hr rfl) (RegOk.one rfl ⟨0, hc 0⟩)
      exact hs
    try clear_value x3
    refine busPass_upd ?_ (sub_of rfl hk) hc
    · refine State.setCalSt_upd ?_ (sub_of rfl hk) ⟨0, hc 0⟩
      · exact hx4
  · exact hs

theorem govRefuse_upd {n : Cluster} {s : State} (hs : Upd K R C s0 s) (hr : 0x100000000000000000000000000000000000000000000000000000000000000000000 ||| R = R) (hc : ∃ c, C n.val c) :
    Upd K R C s0 (govRefuse n s) := by
  unfold govRefuse
  refine State.setRb_upd ?_ (testBit_of_sub hr rfl) (RegOk.one rfl hc)
  exact hs

theorem startOr_upd {n : Cluster} {kind : Nat} {e : Nat} {go : State → State} {s : State} (hfgo : ∀ v5, Upd K R C s0 v5 → Upd K R C s0 (go v5)) (hs : Upd K R C s0 s) (hk : 0x40000000040 ||| K = K) (hr : 0x104000000000000000000000000000000000000000000000000000000000000000000 ||| R = R) (hc : ∀ c, C n.val c) :
    Upd K R C s0 (startOr n kind e go s) := by
  unfold startOr
  refine Upd.ite ?_ ?_
  · refine State.setCalSt_upd ?_ (sub_of rfl hk) ⟨0, hc 0⟩
    · exact hs
  · refine hfgo _ ?_
    · refine calAbandon_upd ?_ (sub_of rfl hk) (sub_of rfl hr) hc
      · exact hs

theorem startLevel_upd {n : Cluster} {kind : Nat} {e : Nat} {go : State → State} {s : State} (hfgo : ∀ v5, Upd K R C s0 v5 → Upd K R C s0 (go v5)) (hs : Upd K R C s0 s) (hk : 0x40000000040 ||| K = K) (hr : 0x104000000000000000000000000000000000000000000000000000000000000000000 ||| R = R) (hc : ∀ c, C n.val c) :
    Upd K R C s0 (startLevel n kind e go s) := by
  unfold startLevel
  refine Upd.ite ?_ ?_
  · refine govRefuse_upd ?_ (sub_of rfl hr) ⟨0, hc 0⟩
    · exact hs
  · refine startOr_upd (fun z7 h8 => ?_) ?_ (sub_of rfl hk) (sub_of rfl hr) hc
    · beta_reduce
      refine hfgo _ ?_
      · exact h8
    · exact hs

theorem seqStartOp_upd {n : Cluster} {s : State} (hs : Upd K R C s0 s) (hk : 0x40000000340 ||| K = K) (hr : 0x904000000d0fd00000000000000000000000000000000000000000000000000000000 ||| R = R) (hc : ∀ c, C n.val c) :
    Upd K R C s0 (seqStartOp n s) := by
  unfold seqStartOp
  refine Upd.ite ?_ ?_
  · refine State.setRb_upd ?_ (testBit_of_sub hr rfl) (RegOk.one rfl ⟨0, hc 0⟩)
    exact hs
  · extract_lets -merge +onlyGivenNames x3
    refine Upd.ite ?_ ?_
    · extract_lets -merge +onlyGivenNames x5
      have hx6 : Upd K R C s0 x5 := by
        unfold x5
        refine startSeq_upd ?_ (sub_of rfl hk) (sub_of rfl hr) hc
        · refine govRefuse_upd ?_ (sub_of rfl hr) ⟨0, hc 0⟩
          · exact hs
      try clear_value x5
      refine Upd.ite ?_ ?_
      · exact hx6
      · refine endSeq_upd ?_ (sub_of rfl hk) ⟨0, hc 0⟩
        · exact hx6
    · try unfold x3
      beta_reduce
      refine startOr_upd (fun z7 h8 => ?_) ?_ (sub_of rfl hk) (sub_of rfl hr) hc
      · beta_reduce
        refine startSeq_upd ?_ (sub_of rfl hk) (sub_of rfl hr) hc
        · exact h8
      · exact hs

theorem plainWrite_upd {r : Reg} {i : Nat} {d : Word} {m : Word} {s : State} (hs : Upd K R C s0 s) (hr : R.testBit r.ctorIdx = true) (hro : RegOk C r i) :
    Upd K R C s0 (plainWrite r i d m s) := by
  unfold plainWrite
  refine State.setReg_upd ?_ hr hro
  exact hs

theorem cappedWrite_upd {r : Reg} {i : Nat} {lo : Nat} {len : Nat} {top : Nat} {d : Word} {m : Word} {s : State} (hs : Upd K R C s0 s) (hr : R.testBit r.ctorIdx = true) (hro : RegOk C r i) :
    Upd K R C s0 (cappedWrite r i lo len top d m s) := by
  unfold cappedWrite
  extract_lets -merge +onlyGivenNames x9
  refine State.setReg_upd ?_ hr hro
  exact hs

theorem ctrlApply_upd {n : Cluster} {c : Channel} {w : Word} {s : State} (hs : Upd K R C s0 s) (hk : 0x40 ||| K = K) (hr : 0x2000040000000000000000000000000000000000000000000000000000000000000000000000000 ||| R = R) (hc : C n.val c.val) :
    Upd K R C s0 (ctrlApply n c w s) := by
  unfold ctrlApply
  extract_lets -merge +onlyGivenNames x5
  extract_lets -merge +onlyGivenNames x7
  have hx8 : Upd K R C s0 x7 := by
    unfold x7
    refine State.setReg_upd ?_ (testBit_of_sub hr rfl) (RegOk.chan rfl hc)
    exact hs
  try clear_value x7
  extract_lets -merge +onlyGivenNames x9
  have hx10 : Upd K R C s0 x9 := by
    unfold x9
    refine State.modChan_upd ?_ (sub_of rfl hk) hc
    · exact hx8
  try clear_value x9
  refine Upd.ite ?_ ?_
  · refine clearClamp_upd ?_ (sub_of rfl hr) hc
    · exact hx10
  · exact hx10

theorem ctrlWrite_upd {n : Cluster} {c : Channel} {d : Word} {m : Word} {s : State} (hs : Upd K R C s0 s) (hk : 0x400000000000040 ||| K = K) (hr : 0x3fff9c0000000000000000002024040000000c00000000000000000000000000000000000000000000000000000000000000000 ||| R = R) (hc : C n.val c.val) :
    Upd K R C s0 (ctrlWrite n c d m s) := by
  unfold ctrlWrite
  extract_lets -merge +onlyGivenNames x6
  have hx7 : Upd K R C s0 x6 := by
    unfold x6
    refine ctrlApply_upd ?_ (sub_of rfl hk) (sub_of rfl hr) hc
    · exact hs
  try clear_value x6
  refine Upd.ite ?_ ?_
  · refine forcedSafe_upd ?_ (sub_of rfl hk) (sub_of rfl hr) hc
    · exact hx7
  · exact hx7

theorem lvlWrite_upd {n : Cluster} {c : Channel} {d : Word} {m : Word} {s : State} (hs : Upd K R C s0 s) (hk : 0x40 ||| K = K) (hr : 0x4180000000000000000000000000000000000000000000000000000000000000000000000000 ||| R = R) (hc : C n.val c.val) :
    Upd K R C s0 (lvlWrite n c d m s) := by
  unfold lvlWrite
  extract_lets -merge +onlyGivenNames x6
  have hx7 : Upd K R C s0 x6 := by
    unfold x6
    refine plainWrite_upd ?_ (testBit_of_sub hr rfl) (RegOk.chan rfl hc)
    exact hs
  try clear_value x6
  refine Upd.ite ?_ ?_
  · exact hx7
  · refine noteClamp_upd ?_ ?_ (sub_of rfl hr) hc
    · exact hs
    · refine markChanged_upd ?_ (sub_of rfl hk) hc
      · refine State.setRb_upd ?_ (testBit_of_sub hr rfl) (RegOk.chan rfl hc)
        exact hx7

theorem levelTabWrite_upd {n : Cluster} {i : Nat} {d : Word} {m : Word} {s : State} (hs : Upd K R C s0 s) (hk : 0x40 ||| K = K) (hr : 0x400004000000000000000000000000000000000000000000000000000000000000000000000000000 ||| R = R) (hro : RegOk C .LEVEL_TAB i) (hc : ∀ c, C n.val c) :
    Upd K R C s0 (levelTabWrite n i d m s) := by
  unfold levelTabWrite
  extract_lets -merge +onlyGivenNames x6
  have hx7 : Upd K R C s0 x6 := by
    unfold x6
    refine plainWrite_upd ?_ (testBit_of_sub hr rfl) hro
    exact hs
  try clear_value x6
  extract_lets -merge +onlyGivenNames x8
  refine foldl_upd ?_ fun x11 y h10 => ?_
  · exact hx7
  · beta_reduce
    refine Upd.ite ?_ ?_
    · refine noteClamp_upd ?_ ?_ (sub_of rfl hr) (hc _)
      · exact hs
      · refine Upd.ite ?_ ?_
        · refine markChanged_upd ?_ (sub_of rfl hk) (hc _)
          · exact h10
        · exact h10
    · exact h10

theorem cmpAfter_upd {n : Cluster} {c : Channel} {low : Bool} {was : Bool} {modeChanged : Bool} {s : State} (hs : Upd K R C s0 s) (hk : 0x1040 ||| K = K) (hr : 0x400000000000000000000000000000000000000000000000000000000000000000000000000 ||| R = R) (hc : C n.val c.val) :
    Upd K R C s0 (cmpAfter n c low was modeChanged s) := by
  unfold cmpAfter
  extract_lets -merge +onlyGivenNames x7
  refine Upd.ite ?_ ?_
  · refine enterUnres_upd ?_ (sub_of rfl hk) (sub_of rfl hr) hc
    · exact hs
  · exact hs

theorem cmpWrite_upd {n : Cluster} {c : Channel} {d : Word} {m : Word} {s : State} (hs : Upd K R C s0 s) (hk : 0x400000000001040 ||| K = K) (hr : 0x3fff9c0000000000000000000000600000000c00000000000000000000000000000000000000000000000000000000000000000 ||| R = R) (hc : C n.val c.val) :
    Upd K R C s0 (cmpWrite n c d m s) := by
  unfold cmpWrite
  extract_lets -merge +onlyGivenNames x6
  extract_lets -merge +onlyGivenNames x8
  extract_lets -merge +onlyGivenNames x10
  extract_lets -merge +onlyGivenNames x12
  extract_lets -merge +onlyGivenNames x14
  extract_lets -merge +onlyGivenNames x16
  have hx17 : Upd K R C s0 x16 := by
    unfold x16
    refine State.setReg_upd ?_ (testBit_of_sub hr rfl) (RegOk.chan rfl hc)
    exact hs
  try clear_value x16
  extract_lets -merge +onlyGivenNames x18
  have hx19 : Upd K R C s0 x18 := by
    unfold x18
    refine Upd.ite ?_ ?_
    · refine endGate_upd ?_ (sub_of rfl hk) (sub_of rfl hr) hc
      · exact hx17
    · exact hx17
  try clear_value x18
  extract_lets -merge +onlyGivenNames x20
  have hx21 : Upd K R C s0 x20 := by
    unfold x20
    refine Upd.ite ?_ ?_
    · refine markChanged_upd ?_ (sub_of rfl hk) hc
      · exact hx19
    · exact hx19
  try clear_value x20
  extract_lets -merge +onlyGivenNames x22
  refine cmpAfter_upd ?_ (sub_of rfl hk) (sub_of rfl hr) hc
  · refine cmpAfter_upd ?_ (sub_of rfl hk) (sub_of rfl hr) hc
    · exact hx21

theorem selfchkWrite_upd {n : Cluster} {c : Channel} {d : Word} {m : Word} {s : State} (hs : Upd K R C s0 s) (hk : 0x40 ||| K = K) (hr : 0x1000000000000000000000000000000000000000000000000000000000000000000000000000 ||| R = R) (hc : ∀ c, C n.val c) :
    Upd K R C s0 (selfchkWrite n c d m s) := by
  unfold selfchkWrite
  extract_lets -merge +onlyGivenNames x6
  extract_lets -merge +onlyGivenNames x8
  have hx9 : Upd K R C s0 x8 := by
    unfold x8
    refine plainWrite_upd ?_ (testBit_of_sub hr rfl) (RegOk.chan rfl (hc _))
    exact hs
  try clear_value x8
  refine Upd.ite ?_ ?_
  · exact hx9
  · extract_lets -merge +onlyGivenNames x10
    have hx11 : Upd K R C s0 x10 := by
      unfold x10
      refine State.setRf_upd ?_ (testBit_of_sub hr rfl) (RegOk.chan rfl (hc _))
      exact hx9
    try clear_value x10
    extract_lets -merge +onlyGivenNames x12
    extract_lets -merge +onlyGivenNames x14
    refine Upd.ite ?_ ?_
    · exact hx11
    · refine Upd.ite ?_ ?_
      · refine State.setRf_upd ?_ (testBit_of_sub hr rfl) (RegOk.chan rfl (hc _))
        exact hx11
      · extract_lets -merge +onlyGivenNames x16
        extract_lets -merge +onlyGivenNames x18
        have hx19 : Upd K R C s0 x18 := by
          unfold x18
          refine State.modChan_upd ?_ (sub_of rfl hk) (hc _)
          · refine State.setRb_upd ?_ (testBit_of_sub hr rfl) (RegOk.chan rfl (hc _))
            exact hx11
        try clear_value x18
        refine Upd.ite ?_ ?_
        · refine busPass_upd ?_ (sub_of rfl hk) hc
          · exact hx19
        · exact hx19

theorem blankTmrWrite_upd {n : Cluster} {d : Word} {m : Word} {s : State} (hs : Upd K R C s0 s) (hk : 0x400 ||| K = K) (hr : 0x2000000000000000000000000000000000000000000000000000000000000000000000000 ||| R = R) (hc : ∃ c, C n.val c) :
    Upd K R C s0 (blankTmrWrite n d m s) := by
  unfold blankTmrWrite
  extract_lets -merge +onlyGivenNames x5
  have hx6 : Upd K R C s0 x5 := by
    unfold x5
    refine plainWrite_upd ?_ (testBit_of_sub hr rfl) (RegOk.one rfl hc)
    exact hs
  try clear_value x5
  refine Upd.ite ?_ ?_
  · refine Upd.blankAt ?_ (testBit_of_sub hk rfl) hc
    exact hx6
  · exact hx6

theorem chEvtWrite_upd {n : Cluster} {c : Channel} {d : Word} {m : Word} {s : State} (hs : Upd K R C s0 s) (hr : 0x4000000000000000000000000000000000000000000000000000000000000000000000000000 ||| R = R) (hc : C n.val c.val) :
    Upd K R C s0 (chEvtWrite n c d m s) := by
  unfold chEvtWrite
  extract_lets -merge +onlyGivenNames x6
  have hx7 : Upd K R C s0 x6 := by
    unfold x6
    refine plainWrite_upd ?_ (testBit_of_sub hr rfl) (RegOk.chan rfl hc)
    exact hs
  try clear_value x6
  refine Upd.ite ?_ ?_
  · refine State.setRb_upd ?_ (testBit_of_sub hr rfl) (RegOk.chan rfl hc)
    exact hx7
  · exact hx7

theorem pmCtrlWrite_upd {code : Bool} {n : Cluster} {c : Channel} {d : Word} {m : Word} {s : State} (hs : Upd K R C s0 s) (hk : 0x40000000040 ||| K = K) (hr : 0x223a4000000104000000000000000000000000000000000000000000000000000000000000000000 ||| R = R) (hc : ∀ c, C n.val c) :
    Upd K R C s0 (pmCtrlWrite code n c d m s) := by
  unfold pmCtrlWrite
  extract_lets -merge +onlyGivenNames x7
  extract_lets -merge +onlyGivenNames x9
  extract_lets -merge +onlyGivenNames x11
  extract_lets -merge +onlyGivenNames x13
  extract_lets -merge +onlyGivenNames x15
  extract_lets -merge +onlyGivenNames x17
  extract_lets -merge +onlyGivenNames x19
  have hx20 : Upd K R C s0 x19 := by
    unfold x19
    refine Upd.ite ?_ ?_
    · refine endMeas_upd ?_ (sub_of rfl hk) (hc _)
      · exact hs
    · exact hs
  try clear_value x19
  extract_lets -merge +onlyGivenNames x21
  have hx22 : Upd K R C s0 x21 := by
    unfold x21
    refine State.setReg_upd ?_ (testBit_of_sub hr rfl) (RegOk.chan rfl (hc _))
    exact hx20
  try clear_value x21
  extract_lets -merge +onlyGivenNames x23
  have hx24 : Upd K R C s0 x23 := by
    unfold x23
    refine Upd.ite ?_ ?_
    · refine State.modChan_upd ?_ (sub_of rfl hk) (hc _)
      · refine changeRange_upd ?_ (sub_of rfl hr) (hc _)
        · exact hx22
    · exact hx22
  try clear_value x23
  extract_lets -merge +onlyGivenNames x25
  have hx26 : Upd K R C s0 x25 := by
    unfold x25
    refine Upd.ite ?_ ?_
    · refine State.modChan_upd ?_ (sub_of rfl hk) (hc _)
      · refine State.setRb_upd ?_ (testBit_of_sub hr rfl) (RegOk.chan rfl (hc _))
        exact hx24
    · exact hx24
  try clear_value x25
  extract_lets -merge +onlyGivenNames x27
  have hx28 : Upd K R C s0 x27 := by
    unfold x27
    refine Upd.ite ?_ ?_
    · refine clearClamp_upd ?_ (sub_of rfl hr) (hc _)
      · exact hx26
    · exact hx26
  try clear_value x27
  refine Upd.ite ?_ ?_
  · refine startLevel_upd (fun z29 h30 => ?_) ?_ (sub_of rfl hk) (sub_of rfl hr) hc
    · beta_reduce
      refine startMeas_upd ?_ (sub_of rfl hk) (hc _)
      · exact h30
    · exact hx28
  · exact hx28

theorem pmCodeWrite_upd {r : Reg} {n : Cluster} {c : Channel} {d m : Word} {s : State} (hs : Upd K R C s0 s)
    (hr' : R.testBit r.ctorIdx = true) (hro : RegOk C r (chIx n c)) (hr : R.testBit (Reg.ctorIdx .CH_EVT) = true)
    (hc : C n.val c.val) : Upd K R C s0 (pmCodeWrite r n c d m s) := by
  unfold pmCodeWrite
  have h := plainWrite_upd (d := d) (m := m) hs hr' hro
  exact Upd.ite (State.setRb_upd h hr (RegOk.chan rfl hc)) h

theorem chanWrite_upd {code : Bool} {r : Reg} {n : Cluster} {c : Channel} {d m : Word} {s : State} (hs : Upd K R C s0 s)
    (hk : 0x400040000001040 ||| K = K) (hr : 0xffffffffffffffffffffffffffffffffffffffffffffffffffffffffffffffffffffffffffffffffffffffffffffffffffffffffffffffffffffffffffffffff ||| R = R) (hro : RegOk C r (chIx n c)) (hc : ∀ c, C n.val c) :
    Upd K R C s0 (chanWrite code r n c d m s) := by
  have full : ∀ r : Reg, R.testBit r.ctorIdx = true := fun r => testBit_of_sub hr (full_testBit r)
  unfold chanWrite
  split
  · exact ctrlWrite_upd hs (sub_of rfl hk) (sub_of rfl hr) (hc _)
  · exact lvlWrite_upd hs (sub_of rfl hk) (sub_of rfl hr) (hc _)
  · exact cmpWrite_upd hs (sub_of rfl hk) (sub_of rfl hr) (hc _)
  · exact selfchkWrite_upd hs (sub_of rfl hk) (sub_of rfl hr) hc
  · exact chEvtWrite_upd hs (sub_of rfl hr) (hc _)
  · exact pmCtrlWrite_upd hs (sub_of rfl hk) (sub_of rfl hr) hc
  · exact pmCodeWrite_upd hs (full _) hro (full _) (hc _)
  · exact pmCodeWrite_upd hs (full _) hro (full _) (hc _)
  · exact cappedWrite_upd hs (full _) hro
  · exact cappedWrite_upd hs (full _) hro
  · exact plainWrite_upd hs (full _) hro

theorem engineWrite_upd {n : Cluster} {k : Fin 6} {rr : Bool} {a : Nat} {bytes : List Byte} {s : State} (hs : Upd K R C s0 s) (hk : 0x200000000000002 ||| K = K) (hr : 0x1a800000000000000000000 ||| R = R) :
    OptUpd K R C s0 (engineWrite n k rr a bytes s) := by
  unfold engineWrite
  refine OptUpd.ite ?_ ?_
  · refine OptUpd.some ?_
    refine memWrite_upd ?_ (sub_of rfl hk) (sub_of rfl hr)
    · exact hs
  · exact OptUpd.none

theorem cptStart_upd {n : Cluster} {e : Fin 2} {s : State} (hs : Upd K R C s0 s) (hk : 0x2000 ||| K = K) (hr : 0x1e00000000000000000000000000000000000000000000000000000000000000000000000000000000000000000 ||| R = R) (hc : ∃ c, C n.val c) :
    Upd K R C s0 (cptStart n e s) := by
  unfold cptStart
  refine Upd.ite ?_ ?_
  · exact hs
  · extract_lets -merge +onlyGivenNames x4
    extract_lets -merge +onlyGivenNames x6
    extract_lets -merge +onlyGivenNames x8
    have hx9 : Upd K R C s0 x8 := by
      unfold x8
      refine State.setCpt_upd ?_ (sub_of rfl hk) hc
      · exact hs
    try clear_value x8
    refine State.setReg_upd ?_ (testBit_of_sub hr rfl) (RegOk.awg rfl hc)
    refine State.setReg_upd ?_ (testBit_of_sub hr rfl) (RegOk.awg rfl hc)
    refine State.setPair_upd ?_ (testBit_of_sub hr rfl) (RegOk.awg rfl hc) (testBit_of_sub hr rfl) (RegOk.awg rfl hc)
    exact hx9

theorem cptEnd_upd {n : Cluster} {e : Fin 2} {s : State} (hs : Upd K R C s0 s) (hk : 0x2000 ||| K = K) (hr : 0x5800000000000000000000000000000000000000000000000000000000000000000000000000000000000000000 ||| R = R) (hc : ∃ c, C n.val c) :
    Upd K R C s0 (cptEnd n e s) := by
  unfold cptEnd
  extract_lets -merge +onlyGivenNames x4
  extract_lets -merge +onlyGivenNames x6
  extract_lets -merge +onlyGivenNames x8
  extract_lets -merge +onlyGivenNames x10
  extract_lets -merge +onlyGivenNames x12
  have hx13 : Upd K R C s0 x12 := by
    unfold x12
    refine State.count_upd ?_ (testBit_of_sub hr rfl) (RegOk.awg rfl hc)
    refine State.setCpt_upd ?_ (sub_of rfl hk) hc
    · exact hs
  try clear_value x12
  refine Upd.ite ?_ ?_
  · extract_lets -merge +onlyGivenNames x14
    extract_lets -merge +onlyGivenNames x16
    have hx17 : Upd K R C s0 x16 := by
      unfold x16
      refine State.setCpt_upd ?_ (sub_of rfl hk) hc
      · exact hx13
    try clear_value x16
    refine State.setRb_upd ?_ (testBit_of_sub hr rfl) (RegOk.one rfl hc)
    refine State.setReg_upd ?_ (testBit_of_sub hr rfl) (RegOk.awg rfl hc)
    exact hx17
  · exact hx13

theorem cptCatch_upd {n : Cluster} {e : Fin 2} {x : Nat} {s : State} (hs : Upd K R C s0 s) (hk : 0x2000 ||| K = K) (hr : 0x5800000000000000000000000000000000000000000000000000000000000000000000000000000000000000000 ||| R = R) (hc : ∃ c, C n.val c) :
    Upd K R C s0 (cptCatch n e x s) := by
  unfold cptCatch
  refine Upd.ite ?_ ?_
  · extract_lets -merge +onlyGivenNames x5
    have hx6 : Upd K R C s0 x5 := by
      unfold x5
      refine cptEnd_upd ?_ (sub_of rfl hk) (sub_of rfl hr) hc
      · exact hs
    try clear_value x5
    extract_lets -merge +onlyGivenNames x7
    extract_lets -merge +onlyGivenNames x9
    refine Upd.ite ?_ ?_
    · extract_lets -merge +onlyGivenNames x11
      extract_lets -merge +onlyGivenNames x13
      have hx14 : Upd K R C s0 x13 := by
        unfold x13
        refine State.setReg_upd ?_ (testBit_of_sub hr rfl) (RegOk.awg rfl hc)
        refine State.setCpt_upd ?_ (sub_of rfl hk) hc
        · exact hx6
      try clear_value x13
      refine Upd.ite ?_ ?_
      · refine cptEnd_upd ?_ (sub_of rfl hk) (sub_of rfl hr) hc
        · exact hx14
      · exact hx14
    · exact hx6
  · exact hs

theorem cptSample_upd {n : Cluster} {e : Fin 2} {c : Channel} {y : ℤ} {s0' : State} (hs0' : Upd K R C s0 s0') (hk : 0x2000 ||| K = K) (hr : 0x5800000000000000000000000000000000000000000000000000000000000000000000000000000000000000000 ||| R = R) (hc : ∃ c, C n.val c) :
    Upd K R C s0 (cptSample n e c y s0') := by
  unfold cptSample
  extract_lets -merge +onlyGivenNames x6
  have hx7 : Upd K R C s0 x6 := by
    unfold x6
    refine cptCatch_upd ?_ (sub_of rfl hk) (sub_of rfl hr) hc
    · exact hs0'
  try clear_value x6
  extract_lets -merge +onlyGivenNames x8
  refine Upd.ite ?_ ?_
  · extract_lets -merge +onlyGivenNames x10
    extract_lets -merge +onlyGivenNames x12
    refine State.setCpt_upd ?_ (sub_of rfl hk) hc
    · exact hx7
  · exact hx7

theorem cptStop_upd {n : Cluster} {e : Fin 2} {post : Nat} {s0' : State} (hs0' : Upd K R C s0 s0') (hk : 0x2000 ||| K = K) (hr : 0x5800000000000000000000000000000000000000000000000000000000000000000000000000000000000000000 ||| R = R) (hc : ∃ c, C n.val c) :
    Upd K R C s0 (cptStop n e post s0') := by
  unfold cptStop
  extract_lets -merge +onlyGivenNames x5
  have hx6 : Upd K R C s0 x5 := by
    unfold x5
    refine cptCatch_upd ?_ (sub_of rfl hk) (sub_of rfl hr) hc
    · exact hs0'
  try clear_value x5
  extract_lets -merge +onlyGivenNames x7
  refine Upd.ite ?_ ?_
  · refine State.setRb_upd ?_ (testBit_of_sub hr rfl) (RegOk.awg rfl hc)
    refine State.setCpt_upd ?_ (sub_of rfl hk) hc
    · exact hx6
  · exact hx6

theorem cptMark_upd {n : Cluster} {e : Fin 2} {s0' : State} (hs0' : Upd K R C s0 s0') (hk : 0x2000 ||| K = K) (hr : 0x5800000000000000000000000000000000000000000000000000000000000000000000000000000000000000000 ||| R = R) (hc : ∃ c, C n.val c) :
    Upd K R C s0 (cptMark n e s0') := by
  unfold cptMark
  extract_lets -merge +onlyGivenNames x4
  have hx5 : Upd K R C s0 x4 := by
    unfold x4
    refine cptCatch_upd ?_ (sub_of rfl hk) (sub_of rfl hr) hc
    · exact hs0'
  try clear_value x4
  refine Upd.ite ?_ ?_
  · refine State.setCpt_upd ?_ (sub_of rfl hk) hc
    · exact hx5
  · exact hx5

theorem cptCtrlWrite_upd {n : Cluster} {e : Fin 2} {d : Word} {m : Word} {s : State} (hs : Upd K R C s0 s) (hk : 0x40000002040 ||| K = K) (hr : 0x5e04000000000000000000104000000000000000000000000000000000000000000000000000000000000000000 ||| R = R) (hc : ∀ c, C n.val c) :
    Upd K R C s0 (cptCtrlWrite n e d m s) := by
  unfold cptCtrlWrite
  extract_lets -merge +onlyGivenNames x6
  have hx7 : Upd K R C s0 x6 := by
    unfold x6
    refine plainWrite_upd ?_ (testBit_of_sub hr rfl) (RegOk.awg rfl ⟨0, hc 0⟩)
    exact hs
  try clear_value x6
  extract_lets -merge +onlyGivenNames x8
  have hx9 : Upd K R C s0 x8 := by
    unfold x8
    refine Upd.ite ?_ ?_
    · refine startLevel_upd (fun z10 h11 => ?_) ?_ (sub_of rfl hk) (sub_of rfl hr) hc
      · beta_reduce
        refine cptStart_upd ?_ (sub_of rfl hk) (sub_of rfl hr) ⟨0, hc 0⟩
        · exact h11
      · exact hx7
    · exact hx7
  try clear_value x8
  refine Upd.ite ?_ ?_
  · refine cptStop_upd ?_ (sub_of rfl hk) (sub_of rfl hr) ⟨0, hc 0⟩
    · exact hx9
  · exact hx9

theorem cptWrite_upd {r : Reg} {n : Cluster} {e : Fin 2} {d : Word} {m : Word} {s : State} (hs : Upd K R C s0 s) (hk : 0x40000002040 ||| K = K) (hr : 0xffffffffffffffffffffffffffffffffffffffffffffffffffffffffffffffffffffffffffffffffffffffffffffffffffffffffffffffffffffffffffffffff ||| R = R) (hro : RegOk C r (awgIx n e)) (hc : ∀ c, C n.val c) :
    Upd K R C s0 (cptWrite r n e d m s) := by
  unfold cptWrite
  split
  · refine cptCtrlWrite_upd ?_ (sub_of rfl hk) (sub_of rfl hr) hc
    · exact hs
  · refine plainWrite_upd ?_ (testBit_of_sub hr (full_testBit _)) hro
    exact hs

theorem trgWrite_upd {r : Reg} {n : Cluster} {u : Nat} {d : Word} {m : Word} {s : State} (hs : Upd K R C s0 s) (hk : 0x1000 ||| K = K) (hr : 0xffffffffffffffffffffffffffffffffffffffffffffffffffffffffffffffffffffffffffffffffffffffffffffffffffffffffffffffffffffffffffffffff ||| R = R) (hro : RegOk C r (trgIx n u)) (hc : ∀ c, C n.val c) :
    Upd K R C s0 (trgWrite r n u d m s) := by
  unfold trgWrite
  extract_lets -merge +onlyGivenNames x7
  extract_lets -merge +onlyGivenNames x9
  have hx10 : Upd K R C s0 x9 := by
    unfold x9
    refine plainWrite_upd ?_ (testBit_of_sub hr (full_testBit _)) hro
    exact hs
  try clear_value x9
  refine Upd.ite ?_ ?_
  · refine trgCtrl_upd ?_ (sub_of rfl hk) (sub_of rfl hr) ⟨0, hc 0⟩
    · exact hs
  · refine Upd.ite ?_ ?_
    · refine Upd.ite ?_ ?_
      · refine trgReconfig_upd ?_ (sub_of rfl hk) (sub_of rfl hr) ⟨0, hc 0⟩
        · exact hx10
      · refine State.setRb_upd ?_ (testBit_of_sub hr rfl) (RegOk.trg rfl ⟨0, hc 0⟩)
        exact hx10
    · exact hx10

theorem ringLineSend_upd {n : Cluster} {k : Nat} {a : Nat} {s : State} (hs : Upd K R C s0 s) (hk : 0x400001000 ||| K = K) (hr : 0x140000000000000060000000000000000000000000 ||| R = R) (hc : ∀ n c, C n c) :
    Upd K R C s0 (ringLineSend n k a s) := by
  unfold ringLineSend
  refine Upd.ite ?_ ?_
  · refine Upd.ite ?_ ?_
    · extract_lets -merge +onlyGivenNames x5
      refine Upd.ite ?_ ?_
      · refine forClusters_upd (fun z7 z8 h9 => ?_) ?_
        · beta_reduce
          refine State.trigEvent_upd ?_ (sub_of rfl hk) ⟨0, hc _ 0⟩
          · exact h9
        · refine Upd.ring ?_ (testBit_of_sub hk rfl)
          exact hs
      · refine State.setRb_upd ?_ (testBit_of_sub hr rfl) (RegOk.glob rfl)
        refine State.count_upd ?_ (testBit_of_sub hr rfl) (RegOk.glob rfl)
        exact hs
    · exact hs
  · refine State.setRb_upd ?_ (testBit_of_sub hr rfl) (RegOk.glob rfl)
    refine State.count_upd ?_ (testBit_of_sub hr rfl) (RegOk.glob rfl)
    exact hs

theorem calBecomeDue_upd {n : Cluster} {s : State} (hs : Upd K R C s0 s) (hk : 0x40000000000 ||| K = K) (hr : 0x4000000000000000000000000000000000000000000000000000000000000000000 ||| R = R) (hc : ∃ c, C n.val c) :
    Upd K R C s0 (calBecomeDue n s) := by
  unfold calBecomeDue
  refine Upd.ite ?_ ?_
  · exact hs
  · refine State.setCalSt_upd ?_ (sub_of rfl hk) hc
    · refine State.setRb_upd ?_ (testBit_of_sub hr rfl) (RegOk.one rfl hc)
      exact hs

theorem setBandRec_upd {n : Cluster} {v : Option Nat × Nat} {s : State} (hs : Upd K R C s0 s) (hk : 0x80 ||| K = K) (hc : ∃ c, C n.val c) :
    Upd K R C s0 (setBandRec n v s) := by
  unfold setBandRec
  refine Upd.bands ?_ (testBit_of_sub hk rfl) hc
  exact hs

theorem bandNote_upd {n : Cluster} {s : State} (hs : Upd K R C s0 s) (hk : 0x80 ||| K = K) (hr : 0x80000000000000000000000000000000000000000000000000000000000000000000000 ||| R = R) (hc : ∃ c, C n.val c) :
    Upd K R C s0 (bandNote n s) := by
  unfold bandNote
  split
  · exact hs
  · extract_lets -merge +onlyGivenNames x3
    extract_lets -merge +onlyGivenNames x5
    have hx6 : Upd K R C s0 x5 := by
      unfold x5
      refine State.setRb_upd ?_ (testBit_of_sub hr rfl) (RegOk.one rfl hc)
      refine State.setRf_upd ?_ (testBit_of_sub hr rfl) (RegOk.one rfl hc)
      exact hs
    try clear_value x5
    refine Upd.ite ?_ ?_
    · refine State.setRb_upd ?_ (testBit_of_sub hr rfl) (RegOk.one rfl hc)
      exact hx6
    · refine Upd.ite ?_ ?_
      · exact hx6
      · refine setBandRec_upd ?_ (sub_of rfl hk) hc
        · exact hx6

theorem timCtrlSet_upd {n : Cluster} {w : Word} {s : State} (hs : Upd K R C s0 s) (hk : 0x80 ||| K = K) (hr : 0xc0000000000000000000000000000000000000000000000000000000000000000000000 ||| R = R) (hc : ∃ c, C n.val c) :
    Upd K R C s0 (timCtrlSet n w s) := by
  unfold timCtrlSet
  refine bandNote_upd ?_ (sub_of rfl hk) (sub_of rfl hr) hc
  · refine State.setReg_upd ?_ (testBit_of_sub hr rfl) (RegOk.one rfl hc)
    exact hs

theorem bandTake_upd {n : Cluster} {b : Nat} {s : State} (hs : Upd K R C s0 s) (hk : 0x80 ||| K = K) (hr : 0x80000000000000000000000000000000000000000000000000000000000000000000000 ||| R = R) (hc : ∃ c, C n.val c) :
    Upd K R C s0 (bandTake n b s) := by
  unfold bandTake
  extract_lets -merge +onlyGivenNames x4
  have hx5 : Upd K R C s0 x4 := by
    unfold x4
    refine State.setRf_upd ?_ (testBit_of_sub hr rfl) (RegOk.one rfl hc)
    refine State.setRf_upd ?_ (testBit_of_sub hr rfl) (RegOk.one rfl hc)
    refine State.setRf_upd ?_ (testBit_of_sub hr rfl) (RegOk.one rfl hc)
    exact hs
  try clear_value x4
  refine bandNote_upd ?_ (sub_of rfl hk) (sub_of rfl hr) hc
  · refine setBandRec_upd ?_ (sub_of rfl hk) hc
    · exact hx5

theorem placeVec_upd {n : Cluster} {hold : Bool} {seqNo : Nat} {T : Nat} {ts : Nat} {x : Nano} {s : State} (hs : Upd K R C s0 s) (hk : 0x100 ||| K = K) (hr : 0x201000000000000000000000000000000000000000000000000000000000000000000000 ||| R = R) (hc : ∃ c, C n.val c) :
    Upd K R C s0 (placeVec n hold seqNo T ts x s) := by
  unfold placeVec
  extract_lets -merge +onlyGivenNames x8
  extract_lets -merge +onlyGivenNames x10
  extract_lets -merge +onlyGivenNames x12
  have hx13 : Upd K R C s0 x12 := by
    unfold x12
    refine State.setSeq_upd ?_ (sub_of rfl hk) hc
    · exact hs
  try clear_value x12
  extract_lets -merge +onlyGivenNames x14
  have hx15 : Upd K R C s0 x14 := by
    unfold x14
    refine State.setReg_upd ?_ (testBit_of_sub hr rfl) (RegOk.one rfl hc)
    exact hx13
  try clear_value x14
  refine Upd.ite ?_ ?_
  · refine State.setRb_upd ?_ (testBit_of_sub hr rfl) (RegOk.one rfl hc)
    exact hx15
  · exact hx15

theorem edgeAct_upd {n : Cluster} {c : Channel} {p : PEdge} {s : State} (hs : Upd K R C s0 s) (hk : 0x140 ||| K = K) (hr : 0x400000000000000000000000000000000000000000000000000000000000000000000000000 ||| R = R) (hc : C n.val c.val) :
    Upd K R C s0 (edgeAct n c p s) := by
  unfold edgeAct
  extract_lets -merge +onlyGivenNames x5
  have hx6 : Upd K R C s0 x5 := by
    unfold x5
    split
    · refine State.modChan_upd ?_ (sub_of rfl hk) hc
      · exact hs
    · refine State.modChan_upd ?_ (sub_of rfl hk) hc
      · exact hs
    · refine State.modChan_upd ?_ (sub_of rfl hk) hc
      · exact hs
    · refine State.modSeq_upd ?_ (sub_of rfl hk) ⟨_, hc⟩
      · exact hs
    · exact hs
  try clear_value x5
  refine Upd.ite ?_ ?_
  · refine openBlank_upd ?_ (sub_of rfl hk) (sub_of rfl hr) hc
    · exact hx6
  · exact hx6

theorem rgStart_upd {n : Cluster} {c : Channel} {s : State} (hs : Upd K R C s0 s) (hk : 0x400000000000040 ||| K = K) (hr : 0x3fff9c0000000000000000000000000000000c00000000000000000000000000000000000000000000000000000000000000000 ||| R = R) (hc : C n.val c.val) :
    Upd K R C s0 (rgStart n c s) := by
  unfold rgStart
  extract_lets -merge +onlyGivenNames x4
  refine Upd.ite ?_ ?_
  · exact hs
  · extract_lets -merge +onlyGivenNames x6
    extract_lets -merge +onlyGivenNames x8
    have hx9 : Upd K R C s0 x8 := by
      unfold x8
      refine State.setRb_upd ?_ (testBit_of_sub hr rfl) (RegOk.chan rfl hc)
      refine State.setPair_upd ?_ (testBit_of_sub hr rfl) (RegOk.chan rfl hc) (testBit_of_sub hr rfl) (RegOk.chan rfl hc)
      exact hs
    try clear_value x8
    extract_lets -merge +onlyGivenNames x10
    have hx11 : Upd K R C s0 x10 := by
      unfold x10
      refine State.modChan_upd ?_ (sub_of rfl hk) hc
      · exact hx9
    try clear_value x10
    refine Upd.ite ?_ ?_
    · refine endGate_upd ?_ (sub_of rfl hk) (sub_of rfl hr) hc
      · exact hx11
    · exact hx11

theorem rgDrop_upd {n : Cluster} {c : Channel} {s : State} (hs : Upd K R C s0 s) (hk : 0x40 ||| K = K) (hr : 0x40000000000000000000000000000000000000000000000000000000000000000000000000000000000000000000000000 ||| R = R) (hc : C n.val c.val) :
    Upd K R C s0 (rgDrop n c s) := by
  unfold rgDrop
  refine State.setRb_upd ?_ (testBit_of_sub hr rfl) (RegOk.chan rfl hc)
  refine State.modChan_upd ?_ (sub_of rfl hk) hc
  · exact hs

theorem rgStop_upd {n : Cluster} {c : Channel} {s : State} (hs : Upd K R C s0 s) (hk : 0x400000000000040 ||| K = K) (hr : 0x3fff9c0000000000000000000000000000000c00000000000000000000000000000000000000000000000000000000000000000 ||| R = R) (hc : C n.val c.val) :
    Upd K R C s0 (rgStop n c s) := by
  unfold rgStop
  split
  · exact hs
  · refine Upd.ite ?_ ?_
    · refine rgDrop_upd ?_ (sub_of rfl hk) (sub_of rfl hr) hc
      · exact hs
    · refine Upd.ite ?_ ?_
      · refine endGate_upd ?_ (sub_of rfl hk) (sub_of rfl hr) hc
        · exact hs
      · refine endGate_upd ?_ (sub_of rfl hk) (sub_of rfl hr) hc
        · exact hs

theorem rgCtrlWrite_upd {n : Cluster} {c : Channel} {d : Word} {m : Word} {s : State} (hs : Upd K R C s0 s) (hk : 0x400040000000040 ||| K = K) (hr : 0x3fff9e0000000000000000000000000000104c00000000000000000000000000000000000000000000000000000000000000000 ||| R = R) (hc : ∀ c, C n.val c) :
    Upd K R C s0 (rgCtrlWrite n c d m s) := by
  unfold rgCtrlWrite
  extract_lets -merge +onlyGivenNames x6
  extract_lets -merge +onlyGivenNames x8
  extract_lets -merge +onlyGivenNames x10
  have hx11 : Upd K R C s0 x10 := by
    unfold x10
    refine plainWrite_upd ?_ (testBit_of_sub hr rfl) (RegOk.chan rfl (hc _))
    exact hs
  try clear_value x10
  extract_lets -merge +onlyGivenNames x12
  have hx13 : Upd K R C s0 x12 := by
    unfold x12
    refine Upd.ite ?_ ?_
    · refine rgDrop_upd ?_ (sub_of rfl hk) (sub_of rfl hr) (hc _)
      · exact hx11
    · exact hx11
  try clear_value x12
  refine Upd.ite ?_ ?_
  · refine rgStop_upd ?_ (sub_of rfl hk) (sub_of rfl hr) (hc _)
    · exact hx13
  · refine Upd.ite ?_ ?_
    · refine startLevel_upd (fun z14 h15 => ?_) ?_ (sub_of rfl hk) (sub_of rfl hr) hc
      · beta_reduce
        refine rgStart_upd ?_ (sub_of rfl hk) (sub_of rfl hr) (hc _)
        · exact h15
      · exact hx13
    · exact hx13

theorem glenWrite_upd {r : Reg} {ix : Nat} {d m : Word} {s : State} (hs : Upd K R C s0 s)
    (hr : 0xffffffffffffffffffffffffffffffffffffffffffffffffffffffffffffffffffffffffffffffffffffffffffffffffffffffffffffffffffffffffffffffff ||| R = R) (hro : RegOk C r ix) (hlo : RegOk C .CH_RG_GLEN_LO ix) : Upd K R C s0 (glenWrite r ix d m s) := by
  unfold glenWrite
  exact State.setPair_upd (plainWrite_upd hs (testBit_of_sub hr (full_testBit _)) hro)
    (testBit_of_sub hr (full_testBit _)) hlo (testBit_of_sub hr (full_testBit _)) hlo

theorem tsCtrlWrite_upd {n : Cluster} {c : Channel} {d : Word} {m : Word} {s : State} (hs : Upd K R C s0 s) (hk : 0x400000000000040 ||| K = K) (hr : 0x3fff9c4000000000000000000000000000000c00000000000000000000000000000000000000000000000000000000000000000 ||| R = R) (hc : C n.val c.val) :
    Upd K R C s0 (tsCtrlWrite n c d m s) := by
  unfold tsCtrlWrite
  extract_lets -merge +onlyGivenNames x6
  extract_lets -merge +onlyGivenNames x8
  have hx9 : Upd K R C s0 x8 := by
    unfold x8
    refine plainWrite_upd ?_ (testBit_of_sub hr rfl) (RegOk.chan rfl hc)
    exact hs
  try clear_value x8
  extract_lets -merge +onlyGivenNames x10
  refine Upd.ite ?_ ?_
  · exact hx9
  · refine endGate_upd ?_ (sub_of rfl hk) (sub_of rfl hr) hc
    · exact hx9

theorem rgStatTake_upd {n : Cluster} {c : Channel} {s : State} (hs : Upd K R C s0 s) (hk : 0x40 ||| K = K) (hr : 0x3fff840000000000000000000000000000000400000000000000000000000000000000000000000000000000000000000000000 ||| R = R) (hc : C n.val c.val) :
    Upd K R C s0 (rgStatTake n c s) := by
  unfold rgStatTake
  extract_lets -merge +onlyGivenNames x4
  extract_lets -merge +onlyGivenNames x6
  have hx7 : Upd K R C s0 x6 := by
    unfold x6
    refine State.setRb_upd ?_ (testBit_of_sub hr rfl) (RegOk.one rfl ⟨_, hc⟩)
    refine State.setRb_upd ?_ (testBit_of_sub hr rfl) (RegOk.chan rfl hc)
    exact hs
  try clear_value x6
  extract_lets -merge +onlyGivenNames x8
  have hx9 : Upd K R C s0 x8 := by
    unfold x8
    split
    · refine putRg_upd ?_ (sub_of rfl hr) hc
      · exact hx7
    · exact hx7
  try clear_value x8
  refine State.modChan_upd ?_ (sub_of rfl hk) hc
  · exact hx9

theorem endGates_upd {n : Cluster} {cause : Nat} {s : State} (hs : Upd K R C s0 s) (hk : 0x400000000000040 ||| K = K) (hr : 0x3fff9c0000000000000000000000000000000c00000000000000000000000000000000000000000000000000000000000000000 ||| R = R) (hc : ∀ c, C n.val c) :
    Upd K R C s0 (endGates n cause s) := by
  unfold endGates
  refine forChannels_upd (fun z4 z5 h6 => ?_) ?_
  · beta_reduce
    refine endGate_upd ?_ (sub_of rfl hk) (sub_of rfl hr) (hc _)
    · exact h6
  · exact hs

theorem markGates_upd {n : Cluster} {f : Gate → Gate} {s : State} (hs : Upd K R C s0 s) (hk : 0x40 ||| K = K) (hc : ∀ c, C n.val c) :
    Upd K R C s0 (markGates n f s) := by
  unfold markGates
  refine forChannels_upd (fun z4 z5 h6 => ?_) ?_
  · beta_reduce
    refine Upd.ite ?_ ?_
    · refine modGate_upd ?_ (sub_of rfl hk) (hc _)
      · exact h6
    · exact h6
  · exact hs

theorem noteGov_upd {s : State} (hs : Upd K R C s0 s) (hr : 0x20000000000000000000000000000000 ||| R = R) :
    Upd K R C s0 (noteGov s) := by
  unfold noteGov
  extract_lets -merge +onlyGivenNames x2
  refine State.setRf_upd ?_ (testBit_of_sub hr rfl) (RegOk.glob rfl)
  refine State.setRf_upd ?_ (testBit_of_sub hr rfl) (RegOk.glob rfl)
  exact hs

theorem setHist_upd {j : Nat} {v : List ℤ} {s : State} (hs : Upd K R C s0 s) (hk : 0x10000000000 ||| K = K) :
    Upd K R C s0 (setHist j v s) := by
  unfold setHist
  refine Upd.hist ?_ (testBit_of_sub hk rfl) (tabSet_wf rfl)
  exact hs

theorem sensorFault_upd {j : Nat} {w : Nat} {s : State} (hs : Upd K R C s0 s) (hk : 0x200010000000000 ||| K = K) (hr : 0x2100000000000000000000000000000000 ||| R = R) :
    Upd K R C s0 (sensorFault j w s) := by
  unfold sensorFault
  extract_lets -merge +onlyGivenNames x4
  have hx5 : Upd K R C s0 x4 := by
    unfold x4
    refine State.setRb_upd ?_ (testBit_of_sub hr rfl) (RegOk.glob rfl)
    refine State.setRb_upd ?_ (testBit_of_sub hr rfl) (RegOk.glob rfl)
    refine State.setRf_upd ?_ (testBit_of_sub hr rfl) (RegOk.glob rfl)
    refine setHist_upd ?_ (sub_of rfl hk)
    · exact hs
  try clear_value x4
  refine Upd.ite ?_ ?_
  · exact hx5
  · extract_lets -merge +onlyGivenNames x6
    have hx7 : Upd K R C s0 x6 := by
      unfold x6
      refine State.setRb_upd ?_ (testBit_of_sub hr rfl) (RegOk.glob rfl)
      exact hx5
    try clear_value x6
    refine Upd.ite ?_ ?_
    · refine State.send_upd ?_ (sub_of rfl hk)
      · exact hx7
    · exact hx7

theorem sensorGood_upd {j : Nat} {x : ℤ} {s : State} (hs : Upd K R C s0 s) (hk : 0x10000000000 ||| K = K) (hr : 0x2100000000000000000000000000000000 ||| R = R) :
    Upd K R C s0 (sensorGood j x s) := by
  unfold sensorGood
  extract_lets -merge +onlyGivenNames x4
  extract_lets -merge +onlyGivenNames x6
  extract_lets -merge +onlyGivenNames x8
  extract_lets -merge +onlyGivenNames x10
  extract_lets -merge +onlyGivenNames x12
  extract_lets -merge +onlyGivenNames x14
  extract_lets -merge +onlyGivenNames x16
  extract_lets -merge +onlyGivenNames x18
  have hx19 : Upd K R C s0 x18 := by
    unfold x18
    refine State.setReg_upd ?_ (testBit_of_sub hr rfl) (RegOk.glob rfl)
    refine setHist_upd ?_ (sub_of rfl hk)
    · exact hs
  try clear_value x18
  extract_lets -merge +onlyGivenNames x20
  have hx21 : Upd K R C s0 x20 := by
    unfold x20
    refine Upd.ite ?_ ?_
    · refine State.setRb_upd ?_ (testBit_of_sub hr rfl) (RegOk.glob rfl)
      exact hx19
    · exact hx19
  try clear_value x20
  refine Upd.ite ?_ ?_
  · refine State.setRb_upd ?_ (testBit_of_sub hr rfl) (RegOk.glob rfl)
    exact hx21
  · exact hx21

theorem setBudget_upd {n : Cluster} {s : State} (hs : Upd K R C s0 s) (hr : 0xc000000000000000000000000000000000000000000000000000000000000000000000000 ||| R = R) (hc : ∃ c, C n.val c) :
    Upd K R C s0 (setBudget n s) := by
  unfold setBudget
  extract_lets -merge +onlyGivenNames x3
  refine State.setReg_upd ?_ (testBit_of_sub hr rfl) (RegOk.one rfl hc)
  refine State.setReg_upd ?_ (testBit_of_sub hr rfl) (RegOk.one rfl hc)
  exact hs

theorem State.setGov_upd {s : State} {n : Cluster} {v : Gov} (hs : Upd K R C s0 s) (hk : 0x20000000000 ||| K = K) (hc : ∃ c, C n.val c) :
    Upd K R C s0 (State.setGov s n v) := by
  unfold State.setGov
  refine Upd.gov ?_ (testBit_of_sub hk rfl) hc
  exact hs

theorem govSet_upd {n : Cluster} {l : Nat} {j : Option Nat} {s : State} (hs : Upd K R C s0 s) (hk : 0x600060000004140 ||| K = K) (hr : 0x83f3fff9c120002000000000000202404c000104c00000000000000000000000000000001100000000000000000000000000000000 ||| R = R) (hc : ∀ c, C n.val c) :
    Upd K R C s0 (govSet n l j s) := by
  unfold govSet
  extract_lets -merge +onlyGivenNames x5
  refine Upd.ite ?_ ?_
  · exact hs
  · extract_lets -merge +onlyGivenNames x7
    have hx8 : Upd K R C s0 x7 := by
      unfold x7
      refine State.setRb_upd ?_ (testBit_of_sub hr rfl) (RegOk.glob rfl)
      refine State.setRf_upd ?_ (testBit_of_sub hr rfl) (RegOk.glob rfl)
      exact hs
    try clear_value x7
    extract_lets -merge +onlyGivenNames x9
    have hx10 : Upd K R C s0 x9 := by
      unfold x9
      split
      · refine Upd.ite ?_ ?_
        · refine State.setRf_upd ?_ (testBit_of_sub hr rfl) (RegOk.glob rfl)
          exact hx8
        · exact hx8
      · exact hx8
    try clear_value x9
    extract_lets -merge +onlyGivenNames x11
    have hx12 : Upd K R C s0 x11 := by
      unfold x11
      refine setBudget_upd ?_ (sub_of rfl hr) ⟨0, hc 0⟩
      · exact hx10
    try clear_value x11
    extract_lets -merge +onlyGivenNames x13
    have hx14 : Upd K R C s0 x13 := by
      unfold x13
      refine Upd.ite ?_ ?_
      · refine calAbandon_upd ?_ (sub_of rfl hk) (sub_of rfl hr) hc
        · exact hx12
      · exact hx12
    try clear_value x13
    extract_lets -merge +onlyGivenNames x15
    extract_lets -merge +onlyGivenNames x17
    have hx18 : Upd K R C s0 x17 := by
      unfold x17
      refine State.setGov_upd ?_ (sub_of rfl hk) ⟨0, hc 0⟩
      · exact hx14
    try clear_value x17
    refine Upd.ite ?_ ?_
    · refine State.send_upd ?_ (sub_of rfl hk)
      · refine State.setRb_upd ?_ (testBit_of_sub hr rfl) (RegOk.glob rfl)
        refine nmiTrap_upd ?_ (sub_of rfl hk) (sub_of rfl hr) hc
        · exact hx18
    · exact hx18

theorem govEval_upd {n : Cluster} {s : State} (hs : Upd K R C s0 s) (hk : 0x600060000004140 ||| K = K) (hr : 0x83f3fff9c120002000000000000202404c000104c00000000000000000000000000000001100000000000000000000000000000000 ||| R = R) (hc : ∀ c, C n.val c) :
    Upd K R C s0 (govEval n s) := by
  unfold govEval
  extract_lets -merge +onlyGivenNames x3
  extract_lets -merge +onlyGivenNames x5
  extract_lets -merge +onlyGivenNames x7
  split
  · refine govSet_upd ?_ (sub_of rfl hk) (sub_of rfl hr) hc
    · refine State.setGov_upd ?_ (sub_of rfl hk) ⟨0, hc 0⟩
      · exact hs
  · refine Upd.ite ?_ ?_
    · exact hs
    · extract_lets -merge +onlyGivenNames x9
      extract_lets -merge +onlyGivenNames x11
      extract_lets -merge +onlyGivenNames x13
      extract_lets -merge +onlyGivenNames x15
      extract_lets -merge +onlyGivenNames x17
      refine govSet_upd ?_ (sub_of rfl hk) (sub_of rfl hr) hc
      · refine State.setGov_upd ?_ (sub_of rfl hk) ⟨0, hc 0⟩
        · exact hs

theorem govAll_upd {s : State} (hs : Upd K R C s0 s) (hk : 0x600060000004140 ||| K = K) (hr : 0x83f3fff9c120002000000000000202404c000104c00000000000000000000000000000001120000000000000000000000000000000 ||| R = R) (hc : ∀ n c, C n c) :
    Upd K R C s0 (govAll s) := by
  unfold govAll
  refine noteGov_upd ?_ (sub_of rfl hr)
  · refine forClusters_upd (fun z2 z3 h4 => ?_) ?_
    · beta_reduce
      refine govEval_upd ?_ (sub_of rfl hk) (sub_of rfl hr) (hc _)
      · exact h4
    · exact hs

theorem govStop_upd {n : Cluster} {s : State} (hs : Upd K R C s0 s) (hk : 0x400020000002140 ||| K = K) (hr : 0x13fff9c0000005800000000000000000000100c00000000000000000000000000000000100000000000000000000000000000000 ||| R = R) (hc : ∀ c, C n.val c) :
    Upd K R C s0 (govStop n s) := by
  unfold govStop
  extract_lets -merge +onlyGivenNames x3
  have hx4 : Upd K R C s0 x3 := by
    unfold x3
    refine abortSeq_upd ?_ (sub_of rfl hk) (sub_of rfl hr) hc
    · exact hs
  try clear_value x3
  extract_lets -merge +onlyGivenNames x5
  have hx6 : Upd K R C s0 x5 := by
    unfold x5
    refine forChannels_upd (fun z7 z8 h9 => ?_) ?_
    · beta_reduce
      refine Upd.ite ?_ ?_
      · refine rgStop_upd ?_ (sub_of rfl hk) (sub_of rfl hr) (hc _)
        · exact h9
      · exact h9
    · exact hx4
  try clear_value x5
  extract_lets -merge +onlyGivenNames x10
  have hx11 : Upd K R C s0 x10 := by
    unfold x10
    refine cptStop_upd ?_ (sub_of rfl hk) (sub_of rfl hr) ⟨0, hc 0⟩
    · refine cptStop_upd ?_ (sub_of rfl hk) (sub_of rfl hr) ⟨0, hc 0⟩
      · exact hx6
  try clear_value x10
  extract_lets -merge +onlyGivenNames x12
  extract_lets -merge +onlyGivenNames x14
  have hx15 : Upd K R C s0 x14 := by
    unfold x14
    refine State.setGov_upd ?_ (sub_of rfl hk) ⟨0, hc 0⟩
    · exact hx11
  try clear_value x14
  refine State.setRb_upd ?_ (testBit_of_sub hr rfl) (RegOk.one rfl ⟨0, hc 0⟩)
  refine State.setRb_upd ?_ (testBit_of_sub hr rfl) (RegOk.glob rfl)
  exact hx15

theorem nomWrite_upd {r : Reg} {i : Nat} {d : Word} {m : Word} {s : State} (hs : Upd K R C s0 s) (hr : 0xffffffffffffffffffffffffffffffffffffffffffffffffffffffffffffffffffffffffffffffffffffffffffffffffffffffffffffffffffffffffffffffff ||| R = R) (hc : ∀ n c, C n c) :
    ActUpd K R C s0 (nomWrite r i d m s) := by
  unfold nomWrite
  extract_lets -merge +onlyGivenNames x6
  have hx7 : Upd K R C s0 x6 := by
    unfold x6
    refine plainWrite_upd ?_ (testBit_of_sub hr (full_testBit _)) (RegOk.all hc)
    exact hs
  try clear_value x6
  extract_lets -merge +onlyGivenNames x8
  extract_lets -merge +onlyGivenNames x10
  refine ActUpd.ite ?_ ?_
  · refine ActUpd.drop ?_
    refine State.setRb_upd ?_ (testBit_of_sub hr rfl) (RegOk.glob rfl)
    exact hs
  · refine ActUpd.ok ?_
    refine forClusters_upd (fun z12 z13 h14 => ?_) ?_
    · beta_reduce
      refine setBudget_upd ?_ (sub_of rfl hr) ⟨0, hc _ 0⟩
      · exact h14
    · exact hx7

theorem govCtrlWrite_upd {d : Word} {m : Word} {s : State} (hs : Upd K R C s0 s) (hr : 0xc000000000000000000000000000000000000000010000000000000000000000000000000 ||| R = R) (hc : ∀ n c, C n c) :
    Upd K R C s0 (govCtrlWrite d m s) := by
  unfold govCtrlWrite
  refine forClusters_upd (fun z4 z5 h6 => ?_) ?_
  · beta_reduce
    refine setBudget_upd ?_ (sub_of rfl hr) ⟨0, hc _ 0⟩
    · exact h6
  · refine plainWrite_upd ?_ (testBit_of_sub hr rfl) (RegOk.glob rfl)
    exact hs

theorem mstStart_upd {n : Cluster} {r : Nat} {t0 : Nat} {inRtn : Bool} {c : Channel} {s : State} (hs : Upd K R C s0 s) (hk : 0x40 ||| K = K) (hc : C n.val c.val) :
    Upd K R C s0 (mstStart n r t0 inRtn c s) := by
  unfold mstStart
  extract_lets -merge +onlyGivenNames x7
  refine State.modChan_upd ?_ (sub_of rfl hk) hc
  · exact hs

theorem touch_upd {n : Cluster} {cs : List Channel} {s : State} (hs : Upd K R C s0 s) (hk : 0x100 ||| K = K) (hr : 0x200000000000000000000000000000000000000000000000000000000000000000000000000000000000000000000000000000000 ||| R = R) (hc : ∃ c, C n.val c) :
    Upd K R C s0 (touch n cs s) := by
  unfold touch
  extract_lets -merge +onlyGivenNames x4
  split
  · exact hs
  · extract_lets -merge +onlyGivenNames x6
    extract_lets -merge +onlyGivenNames x8
    have hx9 : Upd K R C s0 x8 := by
      unfold x8
      refine State.setSeq_upd ?_ (sub_of rfl hk) hc
      · exact hs
    try clear_value x8
    refine Upd.ite ?_ ?_
    · refine State.setReg_upd ?_ (testBit_of_sub hr rfl) (RegOk.one rfl hc)
      exact hx9
    · exact hx9

theorem stepReg_ok {C : Nat → Nat → Prop} {word : Nat} {r : Reg} {n : Cluster} {c : Channel} (h : stepReg word = some r) (hc : ∀ c, C n.val c) : RegOk C r (chIx n c) := by
  unfold stepReg at h
  split at h <;> first | (cases h; exact RegOk.chan rfl (hc _)) | cases h

theorem applyStep_upd {n : Cluster} {x : StepEff} {s : State} (hs : Upd K R C s0 s) (hk : 0x400040000001140 ||| K = K) (hr : 0xffffffffffffffffffffffffffffffffffffffffffffffffffffffffffffffffffffffffffffffffffffffffffffffffffffffffffffffffffffffffffffffff ||| R = R) (hc : ∀ c, C n.val c) :
    Upd K R C s0 (applyStep n x s) := by
  unfold applyStep
  split
  · extract_lets -merge +onlyGivenNames cs
    split
    · rename_i h
      exact touch_upd (foldl_upd hs fun s c h6 => chanWrite_upd h6 (sub_of rfl hk) (sub_of rfl hr) (stepReg_ok h hc) hc)
        (sub_of rfl hk) (sub_of rfl hr) ⟨0, hc 0⟩
    · exact hs
  · extract_lets -merge +onlyGivenNames cs t0
    exact touch_upd (foldl_upd hs fun s c h => mstStart_upd h (sub_of rfl hk) (hc _)) (sub_of rfl hk) (sub_of rfl hr) ⟨0, hc 0⟩

theorem applySteps_upd {n : Cluster} {xs : List StepEff} {s : State} (hs : Upd K R C s0 s) (hk : 0x400040000001140 ||| K = K) (hr : 0xffffffffffffffffffffffffffffffffffffffffffffffffffffffffffffffffffffffffffffffffffffffffffffffffffffffffffffffffffffffffffffffff ||| R = R) (hc : ∀ c, C n.val c) :
    Upd K R C s0 (applySteps n xs s) := by
  unfold applySteps
  refine foldl_upd ?_ fun x5 y h4 => ?_
  · exact hs
  · beta_reduce
    refine applyStep_upd ?_ (sub_of rfl hk) (sub_of rfl hr) hc
    · exact h4

theorem resFlag_upd {n : Cluster} {b : Nat} {s : State} (hs : Upd K R C s0 s) (hr : 0x400000000000000000000000000000000000000000000000000000000 ||| R = R) (hc : ∃ c, C n.val c) :
    Upd K R C s0 (resFlag n b s) := by
  unfold resFlag
  refine State.setRb_upd ?_ (testBit_of_sub hr rfl) (RegOk.one rfl hc)
  exact hs

theorem seqEvt_upd {n : Cluster} {b : Nat} {s : State} (hs : Upd K R C s0 s) (hr : 0x100000000000000000000000000000000000000000000000000000000000 ||| R = R) (hc : ∃ c, C n.val c) :
    Upd K R C s0 (seqEvt n b s) := by
  unfold seqEvt
  refine State.setRb_upd ?_ (testBit_of_sub hr rfl) (RegOk.one rfl hc)
  exact hs

theorem seqCount_upd {r : Reg} {n : Cluster} {s : State} (hs : Upd K R C s0 s) (hr : R.testBit r.ctorIdx = true)
    (hro : RegOk C r n.val) : Upd K R C s0 (seqCount r n s) := State.count_upd hs hr hro

theorem machineCheck_upd {n : Cluster} {micro : Bool} {nano : Bool} {store : Nat} {idx : Nat} {s : State} (hs : Upd K R C s0 s) (hk : 0x200000000000000 ||| K = K) (hr : 0xd000000000000000000000000000000000000000000000000000000000000000000000 ||| R = R) (hc : ∃ c, C n.val c) :
    Upd K R C s0 (machineCheck n micro nano store idx s) := by
  unfold machineCheck
  extract_lets -merge +onlyGivenNames x7
  extract_lets -merge +onlyGivenNames x9
  have hx10 : Upd K R C s0 x9 := by
    unfold x9
    refine Upd.ite ?_ ?_
    · refine State.setRb_upd ?_ (testBit_of_sub hr rfl) (RegOk.one rfl hc)
      exact hs
    · exact hs
  try clear_value x9
  extract_lets -merge +onlyGivenNames x11
  have hx12 : Upd K R C s0 x11 := by
    unfold x11
    refine Upd.ite ?_ ?_
    · refine State.setRb_upd ?_ (testBit_of_sub hr rfl) (RegOk.one rfl hc)
      exact hx10
    · exact hx10
  try clear_value x11
  extract_lets -merge +onlyGivenNames x13
  have hx14 : Upd K R C s0 x13 := by
    unfold x13
    refine Upd.ite ?_ ?_
    · refine State.setReg_upd ?_ (testBit_of_sub hr rfl) (RegOk.one rfl hc)
      exact hx12
    · exact hx12
  try clear_value x13
  refine State.send_upd ?_ (sub_of rfl hk)
  · refine State.count_upd ?_ (testBit_of_sub hr rfl) (RegOk.one rfl hc)
    exact hx14

theorem overrun_upd {n : Cluster} {s : State} (hs : Upd K R C s0 s) (hk : 0x600000000000140 ||| K = K) (hr : 0xa3f3fff9c0000000000000000002024040000000c00000000000000000000000000000000000000000000000000000000000000000 ||| R = R) (hc : ∀ c, C n.val c) :
    Upd K R C s0 (overrun n s) := by
  unfold overrun
  split
  · exact hs
  · extract_lets -merge +onlyGivenNames x3
    have hx4 : Upd K R C s0 x3 := by
      unfold x3
      refine forceCluster_upd ?_ (sub_of rfl hk) (sub_of rfl hr) hc
      · refine saveCtx_upd ?_ (sub_of rfl hk) (sub_of rfl hr) hc
        · exact hs
    try clear_value x3
    extract_lets -merge +onlyGivenNames x5
    have hx6 : Upd K R C s0 x5 := by
      unfold x5
      refine State.setRb_upd ?_ (testBit_of_sub hr rfl) (RegOk.one rfl ⟨0, hc 0⟩)
      refine endSeq_upd ?_ (sub_of rfl hk) ⟨0, hc 0⟩
      · exact hx4
    try clear_value x5
    refine State.send_upd ?_ (sub_of rfl hk)
    · refine State.modSeq_upd ?_ (sub_of rfl hk) ⟨0, hc 0⟩
      · exact hx6

theorem refuseStep_upd {n : Cluster} {word : Nat} {code : Nat} {c : Channel} {s : State} (hs : Upd K R C s0 s) (hk : 0x100 ||| K = K) (hr : 0xa7f0000000000000000000000000000000000000000000000000000000000000000000000000000000000000000000000000000000 ||| R = R) (hc : ∀ c, C n.val c) :
    Upd K R C s0 (refuseStep n word code c s) := by
  unfold refuseStep
  extract_lets -merge +onlyGivenNames x6
  have hx7 : Upd K R C s0 x6 := by
    unfold x6
    refine State.setRb_upd ?_ (testBit_of_sub hr rfl) (RegOk.one rfl ⟨0, hc 0⟩)
    refine State.setReg_upd ?_ (testBit_of_sub hr rfl) (RegOk.one rfl ⟨0, hc 0⟩)
    exact hs
  try clear_value x6
  extract_lets -merge +onlyGivenNames x8
  have hx9 : Upd K R C s0 x8 := by
    unfold x8
    refine Upd.ite ?_ ?_
    · exact hx7
    · refine saveCtx_upd ?_ (sub_of rfl hk) (sub_of rfl hr) hc
      · exact hx7
  try clear_value x8
  refine endSeq_upd ?_ (sub_of rfl hk) ⟨0, hc 0⟩
  · exact hx9

theorem commitVec_upd {n : Cluster} {kind : VKind} {src : PAddr} {x : Nano} {ts : Nat} {cond : Word} {ep : Nat} {last : Bool} {s0' : State} (hs0' : Upd K R C s0 s0') (hk : 0x400040000001140 ||| K = K) (hr : 0xffffffffffffffffffffffffffffffffffffffffffffffffffffffffffffffffffffffffffffffffffffffffffffffffffffffffffffffffffffffffffffffff ||| R = R) (hc : ∀ c, C n.val c) :
    Upd K R C s0 (commitVec n kind src x ts cond ep last s0') := by
  unfold commitVec
  extract_lets -merge +onlyGivenNames x10
  have hx11 : Upd K R C s0 x10 := by
    unfold x10
    refine State.modSeq_upd ?_ (sub_of rfl hk) ⟨0, hc 0⟩
    · refine applySteps_upd ?_ (sub_of rfl hk) (sub_of rfl hr) hc
      · exact hs0'
  try clear_value x10
  extract_lets -merge +onlyGivenNames x12
  have hx13 : Upd K R C s0 x12 := by
    unfold x12
    refine Upd.ite ?_ ?_
    · refine resFlag_upd ?_ (sub_of rfl hr) ⟨0, hc 0⟩
      · exact hx11
    · exact hx11
  try clear_value x12
  extract_lets -merge +onlyGivenNames x14
  extract_lets -merge +onlyGivenNames x16
  extract_lets -merge +onlyGivenNames x18
  extract_lets -merge +onlyGivenNames x20
  have hx21 : Upd K R C s0 x20 := by
    unfold x20
    refine placeVec_upd ?_ (sub_of rfl hk) (sub_of rfl hr) ⟨0, hc 0⟩
    · exact hx13
  try clear_value x20
  extract_lets -merge +onlyGivenNames x22
  extract_lets -merge +onlyGivenNames x24
  extract_lets -merge +onlyGivenNames x26
  extract_lets -merge +onlyGivenNames x28
  have hx29 : Upd K R C s0 x28 := by
    unfold x28
    refine State.modSeq_upd ?_ (sub_of rfl hk) ⟨0, hc 0⟩
    · exact hx21
  try clear_value x28
  extract_lets -merge +onlyGivenNames x30
  have hx31 : Upd K R C s0 x30 := by
    unfold x30
    refine Upd.ite ?_ ?_
    · refine State.trigEvent_upd ?_ (sub_of rfl hk) ⟨0, hc 0⟩
      · exact hx29
    · exact hx29
  try clear_value x30
  refine Upd.ite ?_ ?_
  · exact hx31
  · refine State.trigEvent_upd ?_ (sub_of rfl hk) ⟨0, hc 0⟩
    · refine State.setReg_upd ?_ (testBit_of_sub hr rfl) (RegOk.one rfl ⟨0, hc 0⟩)
      refine State.setPair_upd ?_ (testBit_of_sub hr rfl) (RegOk.one rfl ⟨0, hc 0⟩) (testBit_of_sub hr rfl) (RegOk.one rfl ⟨0, hc 0⟩)
      exact hx31

theorem issueHold_upd {n : Cluster} {parked : Bool} {s : State} (hs : Upd K R C s0 s) (hk : 0x600040000001140 ||| K = K) (hr : 0xffffffffffffffffffffffffffffffffffffffffffffffffffffffffffffffffffffffffffffffffffffffffffffffffffffffffffffffffffffffffffffffff ||| R = R) (hc : ∀ c, C n.val c) :
    Upd K R C s0 (issueHold n parked s) := by
  unfold issueHold
  extract_lets -merge +onlyGivenNames x4
  extract_lets -merge +onlyGivenNames x6
  extract_lets -merge +onlyGivenNames x8
  refine Upd.ite ?_ ?_
  · refine endSeq_upd ?_ (sub_of rfl hk) ⟨0, hc 0⟩
    · refine machineCheck_upd ?_ (sub_of rfl hk) (sub_of rfl hr) ⟨0, hc 0⟩
      · exact hs
  · refine Upd.ite ?_ ?_
    · refine overrun_upd ?_ (sub_of rfl hk) (sub_of rfl hr) hc
      · exact hs
    · refine commitVec_upd ?_ (sub_of rfl hk) (sub_of rfl hr) hc
      · exact hs

theorem popQ_upd {n : Cluster} {s : State} (hs : Upd K R C s0 s) (hk : 0x100 ||| K = K) (hc : ∃ c, C n.val c) :
    Upd K R C s0 (popQ n s) := by
  unfold popQ
  refine State.modSeq_upd ?_ (sub_of rfl hk) hc
  · exact hs

theorem issueVec_upd {n : Cluster} {src : PAddr} {nano : Nat} {ts : Nat} {left : Nat} {match_ : Bool} {cond : Word} {ep : Nat} {s : State} (hs : Upd K R C s0 s) (hk : 0x600040000001140 ||| K = K) (hr : 0xffffffffffffffffffffffffffffffffffffffffffffffffffffffffffffffffffffffffffffffffffffffffffffffffffffffffffffffffffffffffffffffff ||| R = R) (hc : ∀ c, C n.val c) :
    Upd K R C s0 (issueVec n src nano ts left match_ cond ep s) := by
  unfold issueVec
  extract_lets -merge +onlyGivenNames x10
  refine Upd.ite ?_ ?_
  · refine endSeq_upd ?_ (sub_of rfl hk) ⟨0, hc 0⟩
    · refine machineCheck_upd ?_ (sub_of rfl hk) (sub_of rfl hr) ⟨0, hc 0⟩
      · exact hs
  · refine Upd.ite ?_ ?_
    · refine overrun_upd ?_ (sub_of rfl hk) (sub_of rfl hr) hc
      · exact hs
    · extract_lets -merge +onlyGivenNames x12
      have hx13 : Upd K R C s0 x12 := by
        unfold x12
        refine State.modSeq_upd ?_ (sub_of rfl hk) ⟨0, hc 0⟩
        · exact hs
      try clear_value x12
      refine commitVec_upd ?_ (sub_of rfl hk) (sub_of rfl hr) hc
      · exact hx13

theorem waitEnd_upd {n : Cluster} {w : Wait} {m : Option Bool} {s : State} (hs : Upd K R C s0 s) (hk : 0x100 ||| K = K) (hr : 0x100000000000000000000000000000000000000000000000000000000 ||| R = R) (hc : ∃ c, C n.val c) :
    Upd K R C s0 (waitEnd n w m s) := by
  unfold waitEnd
  extract_lets -merge +onlyGivenNames x5
  have hx6 : Upd K R C s0 x5 := by
    unfold x5
    refine Upd.ite ?_ ?_
    · refine setSeqState_upd ?_ (sub_of rfl hr) hc
      · exact hs
    · exact hs
  try clear_value x5
  refine State.modSeq_upd ?_ (sub_of rfl hk) hc
  · exact hx6

theorem waitOn_upd {n : Cluster} {e : QEntry} {w : Wait} {s : State} (hs : Upd K R C s0 s) (hk : 0x600040000001140 ||| K = K) (hr : 0xffffffffffffffffffffffffffffffffffffffffffffffffffffffffffffffffffffffffffffffffffffffffffffffffffffffffffffffffffffffffffffffff ||| R = R) (hc : ∀ c, C n.val c) :
    Upd K R C s0 (waitOn n e w s) := by
  unfold waitOn
  extract_lets -merge +onlyGivenNames x5
  have hx6 : Upd K R C s0 x5 := by
    unfold x5
    refine State.modSeq_upd ?_ (sub_of rfl hk) ⟨0, hc 0⟩
    · exact hs
  try clear_value x5
  extract_lets -merge +onlyGivenNames x7
  have hx8 : Upd K R C s0 x7 := by
    unfold x7
    split
    · refine Upd.ite ?_ ?_
      · refine seqEvt_upd ?_ (sub_of rfl hr) ⟨0, hc 0⟩
        · refine setSeqState_upd ?_ (sub_of rfl hr) ⟨0, hc 0⟩
          · exact hx6
      · exact hx6
    · exact hx6
  try clear_value x7
  refine issueHold_upd ?_ (sub_of rfl hk) (sub_of rfl hr) hc
  · exact hx8

theorem stallStart_upd {n : Cluster} {s : State} (hs : Upd K R C s0 s) (hk : 0x600040000001140 ||| K = K) (hr : 0xffffffffffffffffffffffffffffffffffffffffffffffffffffffffffffffffffffffffffffffffffffffffffffffffffffffffffffffffffffffffffffffff ||| R = R) (hc : ∀ c, C n.val c) :
    Upd K R C s0 (stallStart n s) := by
  unfold stallStart
  extract_lets -merge +onlyGivenNames x3
  have hx4 : Upd K R C s0 x3 := by
    unfold x3
    refine seqEvt_upd ?_ (sub_of rfl hr) ⟨0, hc 0⟩
    · refine resFlag_upd ?_ (sub_of rfl hr) ⟨0, hc 0⟩
      · refine seqCount_upd ?_ (testBit_of_sub hr rfl) (RegOk.one rfl ⟨0, hc 0⟩)
        refine setSeqState_upd ?_ (sub_of rfl hr) ⟨0, hc 0⟩
        · exact hs
  try clear_value x3
  refine issueHold_upd ?_ (sub_of rfl hk) (sub_of rfl hr) hc
  · refine seqCount_upd ?_ (testBit_of_sub hr rfl) (RegOk.one rfl ⟨0, hc 0⟩)
    refine State.modSeq_upd ?_ (sub_of rfl hk) ⟨0, hc 0⟩
    · exact hx4

theorem issueNothing_upd {n : Cluster} {s : State} (hs : Upd K R C s0 s) (hk : 0x600040000001140 ||| K = K) (hr : 0xffffffffffffffffffffffffffffffffffffffffffffffffffffffffffffffffffffffffffffffffffffffffffffffffffffffffffffffffffffffffffffffff ||| R = R) (hc : ∀ c, C n.val c) :
    Upd K R C s0 (issueNothing n s) := by
  unfold issueNothing
  extract_lets -merge +onlyGivenNames x3
  refine Upd.ite ?_ ?_
  · refine State.setRb_upd ?_ (testBit_of_sub hr rfl) (RegOk.one rfl ⟨0, hc 0⟩)
    refine endSeq_upd ?_ (sub_of rfl hk) ⟨0, hc 0⟩
    · refine resFlag_upd ?_ (sub_of rfl hr) ⟨0, hc 0⟩
      · exact hs
  · refine Upd.ite ?_ ?_
    · refine endSeq_upd ?_ (sub_of rfl hk) ⟨0, hc 0⟩
      · exact hs
    · refine issueHold_upd ?_ (sub_of rfl hk) (sub_of rfl hr) hc
      · refine seqEvt_upd ?_ (sub_of rfl hr) ⟨0, hc 0⟩
        · refine resFlag_upd ?_ (sub_of rfl hr) ⟨0, hc 0⟩
          · refine seqCount_upd ?_ (testBit_of_sub hr rfl) (RegOk.one rfl ⟨0, hc 0⟩)
            exact hs

theorem takeMark_upd {n : Cluster} {step : Nat} {fe : FE} {s : State} (hs : Upd K R C s0 s) (hk : 0x100 ||| K = K) (hc : ∃ c, C n.val c) :
    Upd K R C s0 (takeMark n step fe s) := by
  unfold takeMark
  refine State.modSeq_upd ?_ (sub_of rfl hk) hc
  · exact hs

theorem issueLoop_upd {n : Cluster} {intr : Bool} {fuel : Nat} {s : State} (hs : Upd K R C s0 s) (hk : 0x600040000001140 ||| K = K) (hr : 0xffffffffffffffffffffffffffffffffffffffffffffffffffffffffffffffffffffffffffffffffffffffffffffffffffffffffffffffffffffffffffffffff ||| R = R)
    (hc : ∀ c, C n.val c) : IssUpd K R C s0 (issueLoop n intr fuel s) := by
  have e1 : ∃ c, C n.val c := ⟨0, hc 0⟩
  induction fuel generalizing s with
  | zero => exact hs
  | succ fuel ih =>
    have hp : Upd K R C s0 (popQ n s) := popQ_upd hs (sub_of rfl hk) e1
    have hm : ∀ f, Upd K R C s0 ((popQ n s).modSeq n f) := fun f => State.modSeq_upd hp (sub_of rfl hk) e1
    unfold issueLoop
    extract_lets q popped
    split
    · split
      · exact hs
      · exact issueNothing_upd hs (sub_of rfl hk) (sub_of rfl hr) hc
    · split
      · exact issueVec_upd hs (sub_of rfl hk) (sub_of rfl hr) hc
      · exact ih (hm _)
      · extract_lets s1
        split
        · exact endSeq_upd (hm _) (sub_of rfl hk) e1
        · exact ih (hm _)
      · exact ih (hm _)
      · extract_lets s1
        have h1 : Upd K R C s0 s1 := takeMark_upd hp (sub_of rfl hk) e1
        clear_value s1
        split
        · exact h1
        · exact ih h1
      · exact ih (hm _)
      · extract_lets x before
        split
        · exact refuseStep_upd hs (sub_of rfl hk) (sub_of rfl hr) hc
        · exact ih (hm _)
      · split
        · exact endSeq_upd hs (sub_of rfl hk) e1
        · split
          · split
            · exact hm _
            · exact issueHold_upd (seqCount_upd hs (testBit_of_sub hr rfl) (RegOk.one rfl e1)) (sub_of rfl hk) (sub_of rfl hr) hc
          · split
            · split
              · exact endSeq_upd hs (sub_of rfl hk) e1
              · exact stallStart_upd hs (sub_of rfl hk) (sub_of rfl hr) hc
            · exact ih hp
      · exact endSeq_upd hs (sub_of rfl hk) e1
      · extract_lets s1
        exact endSeq_upd (State.setRb_upd (State.setReg_upd hs (testBit_of_sub hr rfl) (RegOk.one rfl e1)) (testBit_of_sub hr rfl) (RegOk.one rfl e1)) (sub_of rfl hk) e1
      · split
        · exact endSeq_upd (machineCheck_upd hs (sub_of rfl hk) (sub_of rfl hr) e1) (sub_of rfl hk) e1
        · exact endSeq_upd (machineCheck_upd hs (sub_of rfl hk) (sub_of rfl hr) e1) (sub_of rfl hk) e1
      · extract_lets w o
        split
        · exact ih (State.modSeq_upd (waitEnd_upd hs (sub_of rfl hk) (sub_of rfl hr) e1) (sub_of rfl hk) e1)
        · exact waitOn_upd hs (sub_of rfl hk) (sub_of rfl hr) hc
      · extract_lets w o
        split
        · exact ih (waitEnd_upd hs (sub_of rfl hk) (sub_of rfl hr) e1)
        · exact waitOn_upd hs (sub_of rfl hk) (sub_of rfl hr) hc
      · extract_lets w o
        split
        · exact ih (waitEnd_upd hs (sub_of rfl hk) (sub_of rfl hr) e1)
        · exact waitOn_upd hs (sub_of rfl hk) (sub_of rfl hr) hc
      · extract_lets w o
        split
        · exact ih (waitEnd_upd hs (sub_of rfl hk) (sub_of rfl hr) e1)
        · exact waitOn_upd hs (sub_of rfl hk) (sub_of rfl hr) hc
      · extract_lets w o
        split
        · exact ih (waitEnd_upd hs (sub_of rfl hk) (sub_of rfl hr) e1)
        · exact waitOn_upd hs (sub_of rfl hk) (sub_of rfl hr) hc

theorem issueAt_upd {n : Cluster} {s : State} (hs : Upd K R C s0 s) (hk : 0x600040000001140 ||| K = K) (hr : 0xffffffffffffffffffffffffffffffffffffffffffffffffffffffffffffffffffffffffffffffffffffffffffffffffffffffffffffffffffffffffffffffff ||| R = R) (hc : ∀ c, C n.val c) :
    IssUpd K R C s0 (issueAt n s) := by
  unfold issueAt
  extract_lets -merge +onlyGivenNames x3
  split
  · refine IssUpd.ite ?_ ?_
    · refine IssUpd.done ?_
      refine endSeq_upd ?_ (sub_of rfl hk) ⟨0, hc 0⟩
      · exact hs
    · refine IssUpd.ite ?_ ?_
      · refine IssUpd.marked ?_
        exact hs
      · refine issueLoop_upd ?_ (sub_of rfl hk) (sub_of rfl hr) hc
        · exact hs
  · refine issueLoop_upd ?_ (sub_of rfl hk) (sub_of rfl hr) hc
    · exact hs

theorem execSeqRunStart_upd {t : Nat} {n : Cluster} {s0' : State} (hs0' : Upd K R C s0 s0') (hk : 0x101 ||| K = K) (hr : 0x10000000000000000000000000000000000000000000000100000000000000000000000000000000000000000000000000000000 ||| R = R) (hc : ∃ c, C n.val c) :
    ResUpd K R C s0 (execSeqRunStart t n s0') := by
  unfold execSeqRunStart
  extract_lets -merge +onlyGivenNames x4
  have hx5 : Upd K R C s0 x4 := by
    unfold x4
    refine State.at_upd ?_ (sub_of rfl hk)
    · exact hs0'
  try clear_value x4
  extract_lets -merge +onlyGivenNames x6
  refine ResUpd.next ?_
  refine Upd.ite ?_ ?_
  · extract_lets -merge +onlyGivenNames x8
    have hx9 : Upd K R C s0 x8 := by
      unfold x8
      refine Upd.ite ?_ ?_
      · refine setSeqState_upd ?_ (sub_of rfl hr) hc
        · exact hx5
      · exact hx5
    try clear_value x8
    refine Upd.ite ?_ ?_
    · refine State.modSeq_upd ?_ (sub_of rfl hk) hc
      · refine State.setReg_upd ?_ (testBit_of_sub hr rfl) (RegOk.one rfl hc)
        exact hx9
    · exact hx9
  · exact hx5

theorem execVectorIssue_upd {t : Nat} {n : Cluster} {s0' : State} (hs0' : Upd K R C s0 s0') (hk : 0x600040000001141 ||| K = K) (hr : 0xffffffffffffffffffffffffffffffffffffffffffffffffffffffffffffffffffffffffffffffffffffffffffffffffffffffffffffffffffffffffffffffff ||| R = R) (hc : ∀ c, C n.val c) :
    ResUpd K R C s0 (execVectorIssue t n s0') := by
  unfold execVectorIssue
  extract_lets -merge +onlyGivenNames x4
  have hx5 : Upd K R C s0 x4 := by
    unfold x4
    refine State.at_upd ?_ (sub_of rfl hk)
    · exact hs0'
  try clear_value x4
  refine ResUpd.next ?_
  refine Upd.ite ?_ ?_
  · split
    · rename_i y6 he7
      have hy8 : Upd K R C s0 y6 := by
        first | refine IssUpd.of_done he7 ?_ | refine IssUpd.of_marked he7 ?_ | refine IssUpd.of_resumes he7 ?_ | refine IssUpd.of_awaits he7 ?_
        refine issueAt_upd ?_ (sub_of rfl hk) (sub_of rfl hr) hc
        · exact hx5
      exact hy8
    · rename_i y9 he10
      have hy11 : Upd K R C s0 y9 := by
        first | refine IssUpd.of_done he10 ?_ | refine IssUpd.of_marked he10 ?_ | refine IssUpd.of_resumes he10 ?_ | refine IssUpd.of_awaits he10 ?_
        refine issueAt_upd ?_ (sub_of rfl hk) (sub_of rfl hr) hc
        · exact hx5
      exact hy11
    · rename_i y12 he13
      have hy14 : Upd K R C s0 y12 := by
        first | refine IssUpd.of_done he13 ?_ | refine IssUpd.of_marked he13 ?_ | refine IssUpd.of_resumes he13 ?_ | refine IssUpd.of_awaits he13 ?_
        refine issueAt_upd ?_ (sub_of rfl hk) (sub_of rfl hr) hc
        · exact hx5
      exact hx5
    · rename_i y15 he16
      have hy17 : Upd K R C s0 y15 := by
        first | refine IssUpd.of_done he16 ?_ | refine IssUpd.of_marked he16 ?_ | refine IssUpd.of_resumes he16 ?_ | refine IssUpd.of_awaits he16 ?_
        refine issueAt_upd ?_ (sub_of rfl hk) (sub_of rfl hr) hc
        · exact hx5
      exact hx5
  · exact hx5

theorem execStallEnd_upd {t : Nat} {n : Cluster} {s0' : State} (hs0' : Upd K R C s0 s0') (hk : 0x600040000001141 ||| K = K) (hr : 0xffffffffffffffffffffffffffffffffffffffffffffffffffffffffffffffffffffffffffffffffffffffffffffffffffffffffffffffffffffffffffffffff ||| R = R) (hc : ∀ c, C n.val c) :
    ResUpd K R C s0 (execStallEnd t n s0') := by
  unfold execStallEnd
  extract_lets -merge +onlyGivenNames x4
  have hx5 : Upd K R C s0 x4 := by
    unfold x4
    refine State.at_upd ?_ (sub_of rfl hk)
    · exact hs0'
  try clear_value x4
  refine ResUpd.next ?_
  refine Upd.ite ?_ ?_
  · split
    · rename_i y6 he7
      have hy8 : Upd K R C s0 y6 := by
        first | refine IssUpd.of_done he7 ?_ | refine IssUpd.of_marked he7 ?_ | refine IssUpd.of_resumes he7 ?_ | refine IssUpd.of_awaits he7 ?_
        refine issueAt_upd ?_ (sub_of rfl hk) (sub_of rfl hr) hc
        · exact hx5
      refine setSeqState_upd ?_ (sub_of rfl hr) ⟨0, hc 0⟩
      · exact hy8
    · exact hx5
  · exact hx5

theorem execRoutineInterrupt_upd {t : Nat} {n : Cluster} {s0' : State} (hs0' : Upd K R C s0 s0') (hk : 0x600040000001141 ||| K = K) (hr : 0xffffffffffffffffffffffffffffffffffffffffffffffffffffffffffffffffffffffffffffffffffffffffffffffffffffffffffffffffffffffffffffffff ||| R = R) (hc : ∀ c, C n.val c) :
    ResUpd K R C s0 (execRoutineInterrupt t n s0') := by
  unfold execRoutineInterrupt
  extract_lets -merge +onlyGivenNames x4
  have hx5 : Upd K R C s0 x4 := by
    unfold x4
    refine State.at_upd ?_ (sub_of rfl hk)
    · exact hs0'
  try clear_value x4
  refine ResUpd.next ?_
  refine Upd.ite ?_ ?_
  · split
    · rename_i y6 he7
      have hy8 : Upd K R C s0 y6 := by
        first | refine IssUpd.of_done he7 ?_ | refine IssUpd.of_marked he7 ?_ | refine IssUpd.of_resumes he7 ?_ | refine IssUpd.of_awaits he7 ?_
        refine issueAt_upd ?_ (sub_of rfl hk) (sub_of rfl hr) hc
        · exact hx5
      extract_lets -merge +onlyGivenNames x9
      have hx10 : Upd K R C s0 x9 := by
        unfold x9
        refine saveCtx_upd ?_ (sub_of rfl hk) (sub_of rfl hr) hc
        · exact hy8
      try clear_value x9
      refine endSeq_upd ?_ (sub_of rfl hk) ⟨0, hc 0⟩
      · refine State.setRb_upd ?_ (testBit_of_sub hr rfl) (RegOk.one rfl ⟨0, hc 0⟩)
        exact hx10
    · exact hx5
  · exact hx5

theorem countFails_upd {n : Cluster} {v : Vec} {mask : Word} {s : State} (hs : Upd K R C s0 s) (hr : 0x1c00000000000000000000000000000000000000000000000000000000000 ||| R = R) (hc : ∀ c, C n.val c) :
    Upd K R C s0 (countFails n v mask s) := by
  unfold countFails
  refine foldl_upd ?_ fun x10 y h5 => ?_
  · exact hs
  · beta_reduce
    refine Upd.ite ?_ ?_
    · extract_lets -merge +onlyGivenNames x6
      extract_lets -merge +onlyGivenNames x8
      have hx9 : Upd K R C s0 x8 := by
        unfold x8
        refine State.count_upd ?_ (testBit_of_sub hr rfl) (RegOk.clu (by simp only [levelIx, chIx, Reg.row]; omega) hc)
        exact h5
      try clear_value x8
      refine Upd.ite ?_ ?_
      · exact hx9
      · refine State.setReg_upd ?_ (testBit_of_sub hr rfl) (RegOk.clu (by simp only [levelIx, chIx, Reg.row]; omega) hc)
        refine State.setRb_upd ?_ (testBit_of_sub hr rfl) (RegOk.one rfl ⟨0, hc 0⟩)
        exact hx9
    · exact h5

theorem logLost_upd {n : Cluster} {s : State} (hs : Upd K R C s0 s) (hr : 0x180400000000000000000000000000000000000000000000000000000000 ||| R = R) (hc : ∃ c, C n.val c) :
    Upd K R C s0 (logLost n s) := by
  unfold logLost
  refine seqEvt_upd ?_ (sub_of rfl hr) hc
  · refine resFlag_upd ?_ (sub_of rfl hr) hc
    · refine seqCount_upd ?_ (testBit_of_sub hr rfl) (RegOk.one rfl hc)
      exact hs

theorem logVec_upd {n : Cluster} {v : Vec} {fails : Bool} {s : State} (hs : Upd K R C s0 s) (hk : 0x100 ||| K = K) (hr : 0x180400000000000000000000000000000000000000000000000000000000 ||| R = R) (hc : ∃ c, C n.val c) :
    Upd K R C s0 (logVec n v fails s) := by
  unfold logVec
  refine Upd.ite ?_ ?_
  · refine Upd.ite ?_ ?_
    · refine State.modSeq_upd ?_ (sub_of rfl hk) hc
      · exact hs
    · refine logLost_upd ?_ (sub_of rfl hr) hc
      · exact hs
  · exact hs

theorem execVectorComplete_upd {t : Nat} {n : Cluster} {s0' : State} (hs0' : Upd K R C s0 s0') (hk : 0x1101 ||| K = K) (hr : 0x1d80400000000000000000000000000000000000000000000000000000000 ||| R = R) (hc : ∀ c, C n.val c) :
    ResUpd K R C s0 (execVectorComplete t n s0') := by
  unfold execVectorComplete
  extract_lets -merge +onlyGivenNames x4
  have hx5 : Upd K R C s0 x4 := by
    unfold x4
    refine State.at_upd ?_ (sub_of rfl hk)
    · exact hs0'
  try clear_value x4
  extract_lets -merge +onlyGivenNames x6
  refine ResUpd.next ?_
  split
  · exact hx5
  · refine Upd.ite ?_ ?_
    · extract_lets -merge +onlyGivenNames x8
      extract_lets -merge +onlyGivenNames x10
      extract_lets -merge +onlyGivenNames x12
      extract_lets -merge +onlyGivenNames x14
      have hx15 : Upd K R C s0 x14 := by
        unfold x14
        refine State.setSeq_upd ?_ (sub_of rfl hk) ⟨0, hc 0⟩
        · exact hx5
      try clear_value x14
      split
      · exact hx15
      · refine Upd.ite ?_ ?_
        · refine State.modSeq_upd ?_ (sub_of rfl hk) ⟨0, hc 0⟩
          · exact hx15
        · exact hx15
      · extract_lets -merge +onlyGivenNames x16
        have hx17 : Upd K R C s0 x16 := by
          unfold x16
          refine Upd.ite ?_ ?_
          · refine State.modSeq_upd ?_ (sub_of rfl hk) ⟨0, hc 0⟩
            · exact hx15
          · exact hx15
        try clear_value x16
        extract_lets -merge +onlyGivenNames x18
        have hx19 : Upd K R C s0 x18 := by
          unfold x18
          refine Upd.ite ?_ ?_
          · refine resFlag_upd ?_ (sub_of rfl hr) ⟨0, hc 0⟩
            · exact hx17
          · exact hx17
        try clear_value x18
        extract_lets -merge +onlyGivenNames x20
        have hx21 : Upd K R C s0 x20 := by
          unfold x20
          refine Upd.ite ?_ ?_
          · refine resFlag_upd ?_ (sub_of rfl hr) ⟨0, hc 0⟩
            · exact hx19
          · exact hx19
        try clear_value x20
        extract_lets -merge +onlyGivenNames x22
        have hx23 : Upd K R C s0 x22 := by
          unfold x22
          refine logVec_upd ?_ (sub_of rfl hk) (sub_of rfl hr) ⟨0, hc 0⟩
          · refine countFails_upd ?_ (sub_of rfl hr) hc
            · exact hx21
        try clear_value x22
        refine Upd.ite ?_ ?_
        · refine State.trigEvent_upd ?_ (sub_of rfl hk) ⟨0, hc 0⟩
          · exact hx23
        · exact hx23
    · exact hx5

theorem execLogRecordWrite_upd {t : Nat} {n : Cluster} {s0' : State} (hs0' : Upd K R C s0 s0') (hk : 0x200000000001103 ||| K = K) (hr : 0x80018040000000000000000000000000000000001a800000000000000000000 ||| R = R) (hc : ∃ c, C n.val c) :
    ResUpd K R C s0 (execLogRecordWrite t n s0') := by
  unfold execLogRecordWrite
  extract_lets -merge +onlyGivenNames x4
  have hx5 : Upd K R C s0 x4 := by
    unfold x4
    refine State.at_upd ?_ (sub_of rfl hk)
    · exact hs0'
  try clear_value x4
  extract_lets -merge +onlyGivenNames x6
  extract_lets -merge +onlyGivenNames x8
  extract_lets -merge +onlyGivenNames x10
  extract_lets -merge +onlyGivenNames x12
  extract_lets -merge +onlyGivenNames x14
  refine ResUpd.next ?_
  split
  · exact hx5
  · refine Upd.ite ?_ ?_
    · exact hx5
    · refine Upd.ite ?_ ?_
      · refine State.setTrig_upd ?_ (sub_of rfl hk) hc
        · refine logLost_upd ?_ (sub_of rfl hr) hc
          · refine State.setSeq_upd ?_ (sub_of rfl hk) hc
            · exact hx5
      · split
        · exact hx5
        · rename_i y16 he17
          have hy18 := OptUpd.of_eq he17 (K := K) (R := R) (C := C) (s0 := s0) (by
            refine engineWrite_upd ?_ (sub_of rfl hk) (sub_of rfl hr)
            · exact hx5
            )
          refine State.setRf_upd ?_ (testBit_of_sub hr rfl) (RegOk.one rfl hc)
          refine State.setTrig_upd ?_ (sub_of rfl hk) hc
          · refine State.modSeq_upd ?_ (sub_of rfl hk) hc
            · exact hy18

theorem beginUnwind_upd {n : Cluster} {held : Bool} {s : State} (hs : Upd K R C s0 s) (hk : 0x400000000000340 ||| K = K) (hr : 0x2013fff9c0000000000000000002024040000800c00000100500000000000000000000000000000000000000000000000000000000 ||| R = R) (hc : ∀ c, C n.val c) :
    Upd K R C s0 (beginUnwind n held s) := by
  unfold beginUnwind
  split
  · refine finishUnwind_upd ?_ (sub_of rfl hk) (sub_of rfl hr) hc
    · exact hs
  · refine Upd.ite ?_ ?_
    · refine finishUnwind_upd ?_ (sub_of rfl hk) (sub_of rfl hr) hc
      · exact hs
    · extract_lets -merge +onlyGivenNames x4
      have hx5 : Upd K R C s0 x4 := by
        unfold x4
        refine armUnwind_upd ?_ (sub_of rfl hk) (sub_of rfl hr) ⟨0, hc 0⟩
        · exact hs
      try clear_value x4
      refine Upd.ite ?_ ?_
      · refine finishUnwind_upd ?_ (sub_of rfl hk) (sub_of rfl hr) hc
        · exact hx5
      · exact hx5

theorem hopEnd_upd {n : Cluster} {s : State} (hs : Upd K R C s0 s) (hr : 0x82000000000000000000000000000000000000000000000000000000000000 ||| R = R) (hc : ∃ c, C n.val c) :
    Upd K R C s0 (hopEnd n s) := by
  unfold hopEnd
  refine Upd.ite ?_ ?_
  · refine State.setRb_upd ?_ (testBit_of_sub hr rfl) (RegOk.one rfl hc)
    refine State.setRb_upd ?_ (testBit_of_sub hr rfl) (RegOk.one rfl hc)
    exact hs
  · exact hs

theorem execPatternEnd_upd {t : Nat} {n : Cluster} {s0' : State} (hs0' : Upd K R C s0 s0') (hk : 0x400000000001341 ||| K = K) (hr : 0x2013fff9c0000000000000000002024040000800c00082130500000000000000000000000000000000000000000000000000000000 ||| R = R) (hc : ∀ c, C n.val c) :
    ResUpd K R C s0 (execPatternEnd t n s0') := by
  unfold execPatternEnd
  extract_lets -merge +onlyGivenNames x4
  have hx5 : Upd K R C s0 x4 := by
    unfold x4
    refine State.at_upd ?_ (sub_of rfl hk)
    · exact hs0'
  try clear_value x4
  extract_lets -merge +onlyGivenNames x6
  refine ResUpd.next ?_
  split
  · exact hx5
  · extract_lets -merge +onlyGivenNames x8
    refine Upd.ite ?_ ?_
    · extract_lets -merge +onlyGivenNames x10
      extract_lets -merge +onlyGivenNames x12
      have hx13 : Upd K R C s0 x12 := by
        unfold x12
        refine State.setReg_upd ?_ (testBit_of_sub hr rfl) (RegOk.one rfl ⟨0, hc 0⟩)
        refine State.setPair_upd ?_ (testBit_of_sub hr rfl) (RegOk.one rfl ⟨0, hc 0⟩) (testBit_of_sub hr rfl) (RegOk.one rfl ⟨0, hc 0⟩)
        exact hx5
      try clear_value x12
      extract_lets -merge +onlyGivenNames x14
      have hx15 : Upd K R C s0 x14 := by
        unfold x14
        refine State.setReg_upd ?_ (testBit_of_sub hr rfl) (RegOk.one rfl ⟨0, hc 0⟩)
        refine hopEnd_upd ?_ (sub_of rfl hr) ⟨0, hc 0⟩
        · refine seqEvt_upd ?_ (sub_of rfl hr) ⟨0, hc 0⟩
          · exact hx13
      try clear_value x14
      extract_lets -merge +onlyGivenNames x16
      have hx17 : Upd K R C s0 x16 := by
        unfold x16
        refine State.setSeq_upd ?_ (sub_of rfl hk) ⟨0, hc 0⟩
        · refine State.trigEvent_upd ?_ (sub_of rfl hk) ⟨0, hc 0⟩
          · exact hx15
      try clear_value x16
      refine Upd.ite ?_ ?_
      · refine finishUnwind_upd ?_ (sub_of rfl hk) (sub_of rfl hr) hc
        · exact hx17
      · refine Upd.ite ?_ ?_
        · refine beginUnwind_upd ?_ (sub_of rfl hk) (sub_of rfl hr) hc
          · exact hx17
        · exact hx17
    · exact hx5

theorem execRoutineResultWrite_upd {t : Nat} {n : Cluster} {s0' : State} (hs0' : Upd K R C s0 s0') (hk : 0x200000000000103 ||| K = K) (hr : 0x200000000000000000000000000000000000000000000000000000000000000000000000000000000001a800000000000000000000 ||| R = R) (hc : ∃ c, C n.val c) :
    ResUpd K R C s0 (execRoutineResultWrite t n s0') := by
  unfold execRoutineResultWrite
  extract_lets -merge +onlyGivenNames x4
  have hx5 : Upd K R C s0 x4 := by
    unfold x4
    refine State.at_upd ?_ (sub_of rfl hk)
    · exact hs0'
  try clear_value x4
  extract_lets -merge +onlyGivenNames x6
  refine ResUpd.next ?_
  split
  · exact hx5
  · extract_lets -merge +onlyGivenNames x8
    have hx9 : Upd K R C s0 x8 := by
      unfold x8
      refine State.setSeq_upd ?_ (sub_of rfl hk) hc
      · exact hx5
    try clear_value x8
    refine Upd.ite ?_ ?_
    · refine State.setRb_upd ?_ (testBit_of_sub hr rfl) (RegOk.one rfl hc)
      exact hx9
    · split
      · exact hx5
      · rename_i y10 he11
        have hy12 := OptUpd.of_eq he11 (K := K) (R := R) (C := C) (s0 := s0) (by
          refine engineWrite_upd ?_ (sub_of rfl hk) (sub_of rfl hr)
          · exact hx9
          )
        exact hy12

end Sys2Proof.Machine
end

