-- ==== Sys2Proof/Laws/Frames3.lean ====
section
/-! SUPPORT. Sys2Proof/Laws/Frames3.lean: what each operation of Machine/CtlOps, FabricOps, WakeOps, CalOps, RingOps, CapOps, HostOps
may change: parts and registers as bits of two numbers, and where (Laws/Upd.lean). Each lemma carries Inv and the queue of
commands over its operation. -/

set_option linter.unusedVariables false

namespace Sys2Proof.Machine

variable {K R : Nat} {C : Nat → Nat → Prop} {s0 : State}

theorem seqCtrlWrite_upd {r : Req} {n : Cluster} {d : Word} {m : Word} {s : State} (hs : Upd K R C s0 s) (hk : 0x40000000340 ||| K = K) (hr : 0x10000000000000000000000000000000000904000000d0fd10000000000000000000000000000000000000000000000000000000 ||| R = R) (hc : ∀ c, C n.val c) :
    Upd K R C s0 (seqCtrlWrite r n d m s) := by
  unfold seqCtrlWrite
  extract_lets -merge +onlyGivenNames x6
  have hx7 : Upd K R C s0 x6 := by
    unfold x6
    refine plainWrite_upd ?_ (testBit_of_sub hr rfl) (RegOk.one rfl ⟨0, hc 0⟩)
    exact hs
  try clear_value x6
  refine Upd.ite ?_ ?_
  · refine abortSeq_upd ?_ (sub_of rfl hk) (sub_of rfl hr) hc
    · exact hx7
  · extract_lets -merge +onlyGivenNames x8
    have hx9 : Upd K R C s0 x8 := by
      unfold x8
      refine Upd.ite ?_ ?_
      · refine State.modSeq_upd ?_ (sub_of rfl hk) ⟨0, hc 0⟩
        · exact hx7
      · exact hx7
    try clear_value x8
    refine Upd.ite ?_ ?_
    · refine seqStartOp_upd ?_ (sub_of rfl hk) (sub_of rfl hr) hc
      · exact hx9
    · exact hx9

theorem hopCtrlWrite_upd {n : Cluster} {d : Word} {m : Word} {s : State} (hs : Upd K R C s0 s) (hk : 0x200 ||| K = K) (hr : 0xa2000000000000000000000000000000000000000000000000000000000000 ||| R = R) (hc : ∃ c, C n.val c) :
    Upd K R C s0 (hopCtrlWrite n d m s) := by
  unfold hopCtrlWrite
  extract_lets -merge +onlyGivenNames x5
  have hx6 : Upd K R C s0 x5 := by
    unfold x5
    refine plainWrite_upd ?_ (testBit_of_sub hr rfl) (RegOk.one rfl hc)
    exact hs
  try clear_value x5
  refine Upd.ite ?_ ?_
  · extract_lets -merge +onlyGivenNames x7
    have hx8 : Upd K R C s0 x7 := by
      unfold x7
      refine State.setRb_upd ?_ (testBit_of_sub hr rfl) (RegOk.one rfl hc)
      refine State.setReg_upd ?_ (testBit_of_sub hr rfl) (RegOk.one rfl hc)
      exact hx6
    try clear_value x7
    refine State.setHop_upd ?_ (sub_of rfl hk) hc
    · exact hx8
  · exact hx6

theorem tableWrite_upd {n : Cluster} {busy : Bool} {s : State} {s' : State} (hs : Upd K R C s0 s) (hs' : Upd K R C s0 s') (hr : 0x200000000000000000000000000000000000000000000000000000000000000000000000 ||| R = R) (hc : ∃ c, C n.val c) :
    ActUpd K R C s0 (tableWrite n busy s s') := by
  unfold tableWrite
  refine ActUpd.ite ?_ ?_
  · refine ActUpd.drop ?_
    refine State.setRb_upd ?_ (testBit_of_sub hr rfl) (RegOk.one rfl hc)
    exact hs
  · refine ActUpd.ok ?_
    exact hs'

theorem perWrite_upd {n : Cluster} {i : Nat} {d : Word} {m : Word} {s : State} (hs : Upd K R C s0 s) (hr : 0x1200000000000000000000000000000000000000000000000000000000000000000000000 ||| R = R) (hro : RegOk C .CL_TS_PER i) (hc : ∀ c, C n.val c) :
    ActUpd K R C s0 (perWrite n i d m s) := by
  unfold perWrite
  extract_lets -merge +onlyGivenNames x6
  refine tableWrite_upd ?_ ?_ (sub_of rfl hr) ⟨0, hc 0⟩
  · exact hs
  · refine State.setReg_upd ?_ (testBit_of_sub hr rfl) hro
    exact hs

theorem corrWrite_upd {n : Cluster} {i : Nat} {d : Word} {m : Word} {s : State} (hs : Upd K R C s0 s) (hr : 0x800000000200000000000000000000000000000000000000000000000000000000000000000000000 ||| R = R) (hro : RegOk C .CORR_TAB i) (hc : ∀ c, C n.val c) :
    ActUpd K R C s0 (corrWrite n i d m s) := by
  unfold corrWrite
  refine tableWrite_upd ?_ ?_ (sub_of rfl hr) ⟨0, hc 0⟩
  · exact hs
  · refine plainWrite_upd ?_ (testBit_of_sub hr rfl) hro
    exact hs

theorem resumeOp_upd {n : Cluster} {s : State} (hs : Upd K R C s0 s) (hk : 0x40000000340 ||| K = K) (hr : 0x2010000000000000000000000000000000000904000000100500000000000000000000000000000000000000000000000000000000 ||| R = R) (hc : ∀ c, C n.val c) :
    Upd K R C s0 (resumeOp n s) := by
  unfold resumeOp
  refine Upd.ite ?_ ?_
  · refine State.setRb_upd ?_ (testBit_of_sub hr rfl) (RegOk.one rfl ⟨0, hc 0⟩)
    exact hs
  · refine Upd.ite ?_ ?_
    · exact hs
    · refine Upd.ite ?_ ?_
      · refine govRefuse_upd ?_ (sub_of rfl hr) ⟨0, hc 0⟩
        · exact hs
      · refine Upd.ite ?_ ?_
        · refine State.setRb_upd ?_ (testBit_of_sub hr rfl) (RegOk.one rfl ⟨0, hc 0⟩)
          refine State.setRb_upd ?_ (testBit_of_sub hr rfl) (RegOk.one rfl ⟨0, hc 0⟩)
          exact hs
        · split
          · exact hs
          · extract_lets -merge +onlyGivenNames x3
            extract_lets -merge +onlyGivenNames x5
            extract_lets -merge +onlyGivenNames x7
            refine startOr_upd (fun z9 h10 => ?_) ?_ (sub_of rfl hk) (sub_of rfl hr) hc
            · beta_reduce
              try unfold x7
              beta_reduce
              extract_lets -merge +onlyGivenNames x11
              have hx12 : Upd K R C s0 x11 := by
                unfold x11
                refine armSeq_upd ?_ (sub_of rfl hk) (sub_of rfl hr) ⟨0, hc 0⟩
                · refine State.setRb_upd ?_ (testBit_of_sub hr rfl) (RegOk.one rfl ⟨0, hc 0⟩)
                  exact h10
              try clear_value x11
              refine Upd.ite ?_ ?_
              · exact hx12
              · refine State.modSeq_upd ?_ (sub_of rfl hk) ⟨0, hc 0⟩
                · exact hx12
            · exact hs

theorem abandonOp_upd {n : Cluster} {s : State} (hs : Upd K R C s0 s) (hk : 0x400000000000340 ||| K = K) (hr : 0x2013fff9c0000000000000000002024040000800c00000100500000000000000000000000000000000000000000000000000000000 ||| R = R) (hc : ∀ c, C n.val c) :
    Upd K R C s0 (abandonOp n s) := by
  unfold abandonOp
  refine Upd.ite ?_ ?_
  · refine beginUnwind_upd ?_ (sub_of rfl hk) (sub_of rfl hr) hc
    · exact hs
  · exact hs

theorem mrCmdWrite_upd {n : Cluster} {d : Word} {m : Word} {s : State} (hs : Upd K R C s0 s) (hk : 0x400040000000340 ||| K = K) (hr : 0x2013fff9c0000000000000000002024040000904c00000100500000000000000000000000000000000000000000000000000000000 ||| R = R) (hc : ∀ c, C n.val c) :
    Upd K R C s0 (mrCmdWrite n d m s) := by
  unfold mrCmdWrite
  refine Upd.ite ?_ ?_
  · refine abandonOp_upd ?_ (sub_of rfl hk) (sub_of rfl hr) hc
    · exact hs
  · refine Upd.ite ?_ ?_
    · refine resumeOp_upd ?_ (sub_of rfl hk) (sub_of rfl hr) hc
      · exact hs
    · exact hs

theorem bankRefuse_upd {s : State} (hs : Upd K R C s0 s) (hr : 0x800000000000000000000 ||| R = R) :
    ActUpd K R C s0 (bankRefuse s) := by
  unfold bankRefuse
  refine ActUpd.drop ?_
  refine State.setRb_upd ?_ (testBit_of_sub hr rfl) (RegOk.glob rfl)
  exact hs

theorem bankOwnSet_upd {r : Req} {b : Nat} {d : Word} {m : Word} {s : State} (hs : Upd K R C s0 s) (hr : 0x880000000000000000000 ||| R = R) :
    ActUpd K R C s0 (bankOwnSet r b d m s) := by
  unfold bankOwnSet
  extract_lets -merge +onlyGivenNames x6
  extract_lets -merge +onlyGivenNames x8
  refine ActUpd.ite ?_ ?_
  · refine bankRefuse_upd ?_ (sub_of rfl hr)
    · exact hs
  · refine ActUpd.ite ?_ ?_
    · refine ActUpd.ok ?_
      exact hs
    · refine ActUpd.ok ?_
      refine State.setRb_upd ?_ (testBit_of_sub hr rfl) (RegOk.glob rfl)
      refine State.setRf_upd ?_ (testBit_of_sub hr rfl) (RegOk.glob rfl)
      exact hs

theorem bankStateSet_upd {r : Req} {b : Nat} {d : Word} {m : Word} {s : State} (hs : Upd K R C s0 s) (hr : 0x900000000000000000000 ||| R = R) :
    ActUpd K R C s0 (bankStateSet r b d m s) := by
  unfold bankStateSet
  extract_lets -merge +onlyGivenNames x6
  refine ActUpd.ite ?_ ?_
  · refine bankRefuse_upd ?_ (sub_of rfl hr)
    · exact hs
  · refine ActUpd.ok ?_
    refine State.setRb_upd ?_ (testBit_of_sub hr rfl) (RegOk.glob rfl)
    refine State.setRf_upd ?_ (testBit_of_sub hr rfl) (RegOk.glob rfl)
    exact hs

theorem slcAdvance_upd {s : State} (hs : Upd K R C s0 s) (hr : 0x20000000000000000000000 ||| R = R) :
    Upd K R C s0 (slcAdvance s) := by
  unfold slcAdvance
  extract_lets -merge +onlyGivenNames x2
  extract_lets -merge +onlyGivenNames x4
  have hx5 : Upd K R C s0 x4 := by
    unfold x4
    refine State.setRf_upd ?_ (testBit_of_sub hr rfl) (RegOk.glob rfl)
    exact hs
  try clear_value x4
  refine Upd.ite ?_ ?_
  · refine State.setRf_upd ?_ (testBit_of_sub hr rfl) (RegOk.glob rfl)
    exact hx5
  · exact hx5

theorem foldTab_wf {α : Type} [DecidableEq α] {d : Nat → α} {e : α} {l : List Nat} {f : Nat → Nat} {g : Nat → α} {t : List (Nat × α)}
    (hd : ∀ k, d k = e) (h : tabWf d t = true) : tabWf d (l.foldl (fun t i => tabSet e t (f i) (g i)) t) = true := by
  induction l generalizing t with
  | nil => exact h
  | cons a r ih => exact ih (tabSet_wf (hd _) h)

theorem slcPut_upd {d m : Word} {s : State} (hs : Upd K R C s0 s)
    (hk : 0x10000 ||| K = K) (hr : 0x20000000000000000000000 ||| R = R) : Upd K R C s0 (slcPut d m s) := by
  unfold slcPut
  extract_lets
  exact slcAdvance_upd (Upd.slcShadow hs (testBit_of_sub hk rfl) (foldTab_wf (fun _ => rfl))) (sub_of rfl hr)

theorem slcGo_upd {s : State} (hs : Upd K R C s0 s) (hk : 0x40000 ||| K = K) (hr : 0x100000000000000000000000 ||| R = R) :
    Upd K R C s0 (slcGo s) := by
  unfold slcGo
  refine Upd.ite ?_ ?_
  · exact hs
  · extract_lets -merge +onlyGivenNames x2
    have hx3 : Upd K R C s0 x2 := by
      unfold x2
      refine State.setRb_upd ?_ (testBit_of_sub hr rfl) (RegOk.glob rfl)
      exact hs
    try clear_value x2
    refine Upd.slcAt ?_ (testBit_of_sub hk rfl)
    exact hx3

theorem lfsrSet_upd {d : Word} {m : Word} {s : State} (hs : Upd K R C s0 s) (hk : 0x800000 ||| K = K) (hr : 0x800000000000000000000000 ||| R = R) :
    Upd K R C s0 (lfsrSet d m s) := by
  unfold lfsrSet
  extract_lets -merge +onlyGivenNames x4
  extract_lets -merge +onlyGivenNames x6
  have hx7 : Upd K R C s0 x6 := by
    unfold x6
    refine State.setReg_upd ?_ (testBit_of_sub hr rfl) (RegOk.glob rfl)
    exact hs
  try clear_value x6
  refine Upd.lfsrAt ?_ (testBit_of_sub hk rfl)
  exact hx7

theorem setPresented_upd {r : Nat} {v : Option (MillOp × (Nat × Nat))} {s : State} (hs : Upd K R C s0 s)
    (hk : 0x1000000 ||| K = K) : Upd K R C s0 (setPresented r v s) := by
  unfold setPresented
  refine Upd.present hs (testBit_of_sub hk rfl) fun h => ?_
  split
  · exact tabInsert_rising (Nat.zero_le _) (tabRising_filter _ h)
  · exact tabRising_filter _ h

theorem draw_upd {b : Nat} {es : List (Nat × MillOp × Nat)} {s0' : State} (hs0' : Upd K R C s0 s0') (hk : 0xe0000000d600002 ||| K = K) (hr : 0x101e80000000000000d000000 ||| R = R) :
    Upd K R C s0 (draw b es s0') := by
  unfold draw
  extract_lets -merge +onlyGivenNames x4
  have hx5 : Upd K R C s0 x4 := by
    unfold x4
    refine Upd.lotTkt ?_ (testBit_of_sub hk rfl)
    exact hs0'
  try clear_value x4
  extract_lets -merge +onlyGivenNames x6
  have hx7 : Upd K R C s0 x6 := by
    unfold x6
    refine Upd.ite ?_ ?_
    · refine Upd.lotPend ?_ (testBit_of_sub hk rfl)
      exact hx5
    · exact hs0'
  try clear_value x6
  extract_lets -merge +onlyGivenNames x8
  refine foldl_upd ?_ fun x13 y h10 => ?_
  · exact hx7
  · beta_reduce
    refine Upd.ite ?_ ?_
    · refine perform_upd ?_ (sub_of rfl hk) (sub_of rfl hr)
      · refine setPresented_upd ?_ (sub_of rfl hk)
        · refine lotWin_upd ?_ (sub_of rfl hr)
          · exact h10
    · extract_lets -merge +onlyGivenNames x11
      have hx12 : Upd K R C s0 x11 := by
        unfold x11
        refine lotLose_upd ?_ (sub_of rfl hr)
        · exact h10
      try clear_value x11
      refine setPresented_upd ?_ (sub_of rfl hk)
      · exact hx12

theorem present_upd {r : Nat} {x : MillOp} {a : Nat} {s : State} (hs : Upd K R C s0 s) (hk : 0xe0000000f000002 ||| K = K) (hr : 0x1e80000000000000d000000 ||| R = R) :
    Upd K R C s0 (present r x a s) := by
  unfold present
  extract_lets -merge +onlyGivenNames x5
  refine Upd.ite ?_ ?_
  · exact hs
  · extract_lets -merge +onlyGivenNames x7
    refine Upd.ite ?_ ?_
    · refine setPresented_upd ?_ (sub_of rfl hk)
      · exact hs
    · refine access_upd ?_ (sub_of rfl hk) (sub_of rfl hr)
      · exact hs

theorem countSlot_upd {n : Cluster} {k : Fin 6} {s : State} (hs : Upd K R C s0 s)
    (hk : 0x180000 ||| K = K) : Upd K R C s0 (countSlot n k s) := by
  unfold countSlot
  extract_lets base s1
  refine Upd.slcFrame ?_ (testBit_of_sub hk rfl)
  refine Upd.slcCnt hs (testBit_of_sub hk rfl) fun h => tabSet_wf rfl ?_
  unfold base; split
  · exact h
  · rfl

theorem lotMask_upd {r : Nat} {s : State} (hs : Upd K R C s0 s) (hk : 0x3000000 ||| K = K) (hr : 0x1000000000000000000000000 ||| R = R) :
    Upd K R C s0 (lotMask r s) := by
  unfold lotMask
  refine setPresented_upd ?_ (sub_of rfl hk)
  · extract_lets -merge +onlyGivenNames x3
    have hx4 : Upd K R C s0 x3 := by
      unfold x3
      refine lotWin_upd ?_ (sub_of rfl hr)
      · exact hs
    try clear_value x3
    refine Upd.waiting ?_ (testBit_of_sub hk rfl)
    exact hx4

theorem semAcquire_upd {r : Req} {k : Nat} {d : Word} {m : Word} {s : State} (hs : Upd K R C s0 s) (hk : 0x20000000 ||| K = K) (hr : 0x50000000000000000000000000 ||| R = R) :
    Upd K R C s0 (semAcquire r k d m s) := by
  unfold semAcquire
  extract_lets -merge +onlyGivenNames x6
  extract_lets -merge +onlyGivenNames x8
  split
  · refine semResult_upd ?_ (sub_of rfl hr)
    · exact hs
  · refine Upd.ite ?_ ?_
    · refine semResult_upd ?_ (sub_of rfl hr)
      · exact hs
    · refine Upd.ite ?_ ?_
      · refine semResult_upd ?_ (sub_of rfl hr)
        · refine State.setSem_upd ?_ (sub_of rfl hk)
          · exact hs
      · refine Upd.ite ?_ ?_
        · refine semResult_upd ?_ (sub_of rfl hr)
          · exact hs
        · refine Upd.ite ?_ ?_
          · refine semResult_upd ?_ (sub_of rfl hr)
            · refine State.setRb_upd ?_ (testBit_of_sub hr rfl) (RegOk.glob rfl)
              exact hs
          · refine semResult_upd ?_ (sub_of rfl hr)
            · refine State.setSem_upd ?_ (sub_of rfl hk)
              · exact hs

theorem semRelease_upd {r : Req} {k : Nat} {d : Word} {m : Word} {s : State} (hs : Upd K R C s0 s) (hk : 0x20000000 ||| K = K) (hr : 0x50000000000000000000000000 ||| R = R) :
    Upd K R C s0 (semRelease r k d m s) := by
  unfold semRelease
  extract_lets -merge +onlyGivenNames x6
  extract_lets -merge +onlyGivenNames x8
  split
  · refine Upd.ite ?_ ?_
    · refine semHand_upd ?_ (sub_of rfl hk) (sub_of rfl hr)
      · refine State.setSem_upd ?_ (sub_of rfl hk)
        · exact hs
    · exact hs
  · exact hs

theorem banksBack_upd {s : State} (hs : Upd K R C s0 s) (hr : 0x100000000000000000000 ||| R = R) :
    Upd K R C s0 (banksBack s) := by
  unfold banksBack
  refine foldl_range_upd ?_ fun x3 y hyx3 h2 => ?_
  · exact hs
  · beta_reduce
    refine Upd.ite ?_ ?_
    · exact h2
    · refine State.setRf_upd ?_ (testBit_of_sub hr rfl) (RegOk.glob rfl)
      exact h2

theorem wakeUp_upd {s : State} (hs : Upd K R C s0 s) (hk : 0x80000000000000 ||| K = K) (hr : 0x4010000000100000000000000000000 ||| R = R) :
    Upd K R C s0 (wakeUp s) := by
  unfold wakeUp
  refine Upd.ite ?_ ?_
  · split
    · exact hs
    · refine banksBack_upd ?_ (sub_of rfl hr)
      · extract_lets -merge +onlyGivenNames x2
        have hx3 : Upd K R C s0 x2 := by
          unfold x2
          refine State.setRb_upd ?_ (testBit_of_sub hr rfl) (RegOk.glob rfl)
          refine State.setRf_upd ?_ (testBit_of_sub hr rfl) (RegOk.glob rfl)
          refine State.setRf_upd ?_ (testBit_of_sub hr rfl) (RegOk.glob rfl)
          exact hs
        try clear_value x2
        refine Upd.wakes ?_ (testBit_of_sub hk rfl)
        exact hx3
  · exact hs

theorem hostWakes_upd {s : State} (hs : Upd K R C s0 s) (hk : 0x80000000000000 ||| K = K) (hr : 0x4010000000100000000000000000000 ||| R = R) :
    Upd K R C s0 (hostWakes s) := by
  unfold hostWakes
  refine Upd.ite ?_ ?_
  · refine wakeUp_upd ?_ (sub_of rfl hk) (sub_of rfl hr)
    · refine State.wake_upd ?_ (sub_of rfl hk)
      · exact hs
  · exact hs

theorem setMsixWord_upd {h' k : Nat} {w : Word} {s : State} (hs : Upd K R C s0 s)
    (hk : 0x80000000 ||| K = K) : Upd K R C s0 (setMsixWord h' k w s) := by
  unfold setMsixWord
  refine Upd.msix hs (testBit_of_sub hk rfl) (tabSet_wf ?_)
  have : (256 * h' + k) % 4 = k % 4 := by omega
  simp [msixDef, this]

theorem setPbaBit_upd {h' : Nat} {v : Nat} {b : Bool} {s : State} (hs : Upd K R C s0 s) (hk : 0x100000000 ||| K = K) :
    Upd K R C s0 (setPbaBit h' v b s) := by
  unfold setPbaBit
  refine Upd.pba ?_ (testBit_of_sub hk rfl) (tabSet_wf rfl)
  exact hs

theorem msixSend_upd {h' : Nat} {v : Nat} {s : State} (hs : Upd K R C s0 s) (hk : 0x800000100000000 ||| K = K) :
    Upd K R C s0 (msixSend h' v s) := by
  unfold msixSend
  refine Upd.ite ?_ ?_
  · refine Upd.ite ?_ ?_
    · refine setPbaBit_upd ?_ (sub_of rfl hk)
      · exact hs
    · refine State.emit_upd ?_ (sub_of rfl hk)
      · exact hs
  · exact hs

theorem msixPut_upd {h' : Nat} {k : Nat} {d : Word} {m : Word} {s : State} (hs : Upd K R C s0 s) (hk : 0x800000180000000 ||| K = K) :
    Upd K R C s0 (msixPut h' k d m s) := by
  unfold msixPut
  extract_lets -merge +onlyGivenNames x6
  have hx7 : Upd K R C s0 x6 := by
    unfold x6
    refine setMsixWord_upd ?_ (sub_of rfl hk)
    · exact hs
  try clear_value x6
  extract_lets -merge +onlyGivenNames x8
  refine Upd.ite ?_ ?_
  · refine msixSend_upd ?_ (sub_of rfl hk)
    · refine setPbaBit_upd ?_ (sub_of rfl hk)
      · exact hx7
  · exact hx7

theorem setTrimNow_upd {r : Reg} {i : Nat} {v : Word} {tm : Nat} {s : State} (hs : Upd K R C s0 s)
    (hk : 0x80000000000 ||| K = K) : Upd K R C s0 (setTrimNow r i v tm s) := by
  unfold setTrimNow
  refine Upd.ramps hs (testBit_of_sub hk rfl) fun h => ?_
  split
  · exact tabErase_rising h
  · exact tabInsert_rising (Nat.zero_le _) (tabErase_rising h)

theorem noteRamp_upd {n : Nat} {s : State} (hs : Upd K R C s0 s) (hr : 0x4000000000000000000000000000000000000000000000000000000000000000000 ||| R = R) (hc : ∃ c, C n c) :
    Upd K R C s0 (noteRamp n s) := by
  unfold noteRamp
  refine State.setRb_upd ?_ (testBit_of_sub hr rfl) (RegOk.one rfl hc)
  exact hs

theorem trimTarget_upd {n : Nat} {r : Reg} {i : Nat} {w : Word} {s : State} (hs : Upd K R C s0 s) (hk : 0x80000000000 ||| K = K) (hr : 0xffffffffffffffffffffffffffffffffffffffffffffffffffffffffffffffffffffffffffffffffffffffffffffffffffffffffffffffffffffffffffffffff ||| R = R) (hro : RegOk C r i) (hc : ∃ c, C n c) :
    Upd K R C s0 (trimTarget n r i w s) := by
  unfold trimTarget
  extract_lets -merge +onlyGivenNames x6
  extract_lets -merge +onlyGivenNames x8
  have hx9 : Upd K R C s0 x8 := by
    unfold x8
    refine State.setReg_upd ?_ (testBit_of_sub hr (full_testBit _)) hro
    exact hs
  try clear_value x8
  refine noteRamp_upd ?_ (sub_of rfl hr) hc
  · refine setTrimNow_upd ?_ (sub_of rfl hk)
    · exact hx9

theorem trimWrite_upd {n : Cluster} {r : Reg} {i : Nat} {d : Word} {m : Word} {s : State} (hs : Upd K R C s0 s) (hk : 0x80000000000 ||| K = K) (hr : 0xffffffffffffffffffffffffffffffffffffffffffffffffffffffffffffffffffffffffffffffffffffffffffffffffffffffffffffffffffffffffffffffff ||| R = R) (hro : RegOk C r i) (hc : ∀ c, C n.val c) :
    ActUpd K R C s0 (trimWrite n r i d m s) := by
  unfold trimWrite
  extract_lets -merge +onlyGivenNames x7
  refine ActUpd.ite ?_ ?_
  · refine ActUpd.drop ?_
    refine State.setRb_upd ?_ (testBit_of_sub hr rfl) (RegOk.one rfl ⟨0, hc 0⟩)
    exact hs
  · refine ActUpd.ok ?_
    refine trimTarget_upd ?_ (sub_of rfl hk) (sub_of rfl hr) hro ⟨0, hc 0⟩
    · exact hs

theorem refRequest_upd {s : State} (hs : Upd K R C s0 s) (hk : 0x100020000000 ||| K = K) :
    Upd K R C s0 (refRequest s) := by
  unfold refRequest
  refine Upd.ite ?_ ?_
  · exact hs
  · refine semCalRequest_upd ?_ (sub_of rfl hk)
    · refine Upd.refDue ?_ (testBit_of_sub hk rfl)
      exact hs

theorem calCtrlWrite_upd {d : Word} {m : Word} {s : State} (hs : Upd K R C s0 s) (hk : 0x100020000000 ||| K = K) (hr : 0x40000000000000000000000000000000000 ||| R = R) :
    Upd K R C s0 (calCtrlWrite d m s) := by
  unfold calCtrlWrite
  extract_lets -merge +onlyGivenNames x4
  have hx5 : Upd K R C s0 x4 := by
    unfold x4
    refine plainWrite_upd ?_ (testBit_of_sub hr rfl) (RegOk.glob rfl)
    exact hs
  try clear_value x4
  refine Upd.ite ?_ ?_
  · refine refRequest_upd ?_ (sub_of rfl hk)
    · exact hx5
  · exact hx5

theorem certWrite_upd {d : Word} {m : Word} {s : State} (hs : Upd K R C s0 s) (hr : 0x4100000000000000000000000000000000000 ||| R = R) :
    ActUpd K R C s0 (certWrite d m s) := by
  unfold certWrite
  extract_lets -merge +onlyGivenNames x4
  refine ActUpd.ite ?_ ?_
  · refine ActUpd.drop ?_
    refine State.setRb_upd ?_ (testBit_of_sub hr rfl) (RegOk.glob rfl)
    exact hs
  · refine ActUpd.ok ?_
    refine State.setReg_upd ?_ (testBit_of_sub hr rfl) (RegOk.glob rfl)
    exact hs

theorem commitItem_upd {n : Cluster} {p : Nat × Word} {s : State} (hs : Upd K R C s0 s) (hk : 0xc0000000000 ||| K = K) (hr : 0xffffffffffffffffffffffffffffffffffffffffffffffffffffffffffffffffffffffffffffffffffffffffffffffffffffffffffffffffffffffffffffffff ||| R = R) (hc : ∀ c, C n.val c) :
    Upd K R C s0 (commitItem n p s) := by
  unfold commitItem
  extract_lets -merge +onlyGivenNames off
  refine Upd.ite hs (Upd.ite ?_ ?_)
  · exact State.setRb_upd hs (testBit_of_sub hr rfl) (RegOk.one rfl ⟨0, hc 0⟩)
  · extract_lets -merge +onlyGivenNames c0 s1
    have h1 : Upd K R C s0 s1 := State.setCalSt_upd hs (sub_of rfl hk) ⟨0, hc 0⟩
    clear_value s1
    refine Upd.ite ?_ (Upd.ite ?_ (Upd.ite ?_ ?_))
    · exact trimTarget_upd h1 (sub_of rfl hk) (sub_of rfl hr) (RegOk.clu (by simp only [Reg.row]; omega) hc) ⟨0, hc 0⟩
    · exact trimTarget_upd h1 (sub_of rfl hk) (sub_of rfl hr) (RegOk.clu (by simp only [Reg.row]; omega) hc) ⟨0, hc 0⟩
    · exact State.setReg_upd h1 (testBit_of_sub hr rfl) (RegOk.clu (by simp only [Reg.row]; omega) hc)
    · exact State.setReg_upd h1 (testBit_of_sub hr rfl) (RegOk.clu (by simp only [Reg.row]; omega) hc)

theorem calReport_upd {n : Cluster} {s : State} (hs : Upd K R C s0 s) (hk : 0x400000000000000 ||| K = K) (hr : 0x438000000000000000000000000000000000000000000000000000000000000000000 ||| R = R) (hc : ∀ c, C n.val c) :
    Upd K R C s0 (calReport n s) := by
  unfold calReport
  extract_lets -merge +onlyGivenNames x3
  have hx4 : Upd K R C s0 x3 := by
    unfold x3
    refine Upd.ite ?_ ?_
    · refine State.setPair_upd ?_ (testBit_of_sub hr rfl) (RegOk.one rfl ⟨0, hc 0⟩) (testBit_of_sub hr rfl) (RegOk.one rfl ⟨0, hc 0⟩)
      refine State.countWrap_upd ?_ (testBit_of_sub hr rfl) (RegOk.one rfl ⟨0, hc 0⟩)
      exact hs
    · exact hs
  try clear_value x3
  refine Upd.ite ?_ ?_
  · refine foldl_range_upd ?_ fun x10 y hyx10 h5 => ?_
    · exact hx4
    · beta_reduce
      split
      · rename_i y6 y7 he8
        have hy9 := SndUpd.of_eq he8 (K := K) (R := R) (C := C) (s0 := s0) (by
          refine State.drawWord_upd ?_ (sub_of rfl hk)
          · exact h5
          )
        refine State.setReg_upd ?_ (testBit_of_sub hr rfl) (RegOk.clu (by simp only [levelIx, chIx, Reg.row]; omega) hc)
        exact hy9
  · exact hx4

theorem calComplete_upd {n : Cluster} {s : State} (hs : Upd K R C s0 s) (hk : 0x400040000000000 ||| K = K) (hr : 0x5fc000000000000000000000000000000000000000000000000000000000000000000 ||| R = R) (hc : ∀ c, C n.val c) :
    Upd K R C s0 (calComplete n s) := by
  unfold calComplete
  extract_lets -merge +onlyGivenNames x3
  extract_lets -merge +onlyGivenNames x5
  have hx6 : Upd K R C s0 x5 := by
    unfold x5
    refine State.setRb_upd ?_ (testBit_of_sub hr rfl) (RegOk.one rfl ⟨0, hc 0⟩)
    refine State.setRb_upd ?_ (testBit_of_sub hr rfl) (RegOk.one rfl ⟨0, hc 0⟩)
    refine State.setRb_upd ?_ (testBit_of_sub hr rfl) (RegOk.one rfl ⟨0, hc 0⟩)
    exact hs
  try clear_value x5
  extract_lets -merge +onlyGivenNames x7
  extract_lets -merge +onlyGivenNames x9
  have hx10 : Upd K R C s0 x9 := by
    unfold x9
    refine State.setPair_upd ?_ (testBit_of_sub hr rfl) (RegOk.one rfl ⟨0, hc 0⟩) (testBit_of_sub hr rfl) (RegOk.one rfl ⟨0, hc 0⟩)
    exact hx6
  try clear_value x9
  refine calReport_upd ?_ (sub_of rfl hk) (sub_of rfl hr) hc
  · refine State.setCalSt_upd ?_ (sub_of rfl hk) ⟨0, hc 0⟩
    · exact hx10

theorem stepCommit_upd {n : Cluster} {res : List (Nat × Word)} {s : State} (hs : Upd K R C s0 s) (hk : 0x4000c0000000000 ||| K = K) (hr : 0xffffffffffffffffffffffffffffffffffffffffffffffffffffffffffffffffffffffffffffffffffffffffffffffffffffffffffffffffffffffffffffffff ||| R = R) (hc : ∀ c, C n.val c) :
    Upd K R C s0 (stepCommit n res s) := by
  unfold stepCommit
  extract_lets -merge +onlyGivenNames x4
  have hx5 : Upd K R C s0 x4 := by
    unfold x4
    refine Upd.ite ?_ ?_
    · refine State.setRb_upd ?_ (testBit_of_sub hr rfl) (RegOk.one rfl ⟨0, hc 0⟩)
      exact hs
    · exact hs
  try clear_value x4
  extract_lets -merge +onlyGivenNames x6
  have hx7 : Upd K R C s0 x6 := by
    unfold x6
    refine foldl_upd ?_ fun x9 y h8 => ?_
    · exact hx5
    · beta_reduce
      refine commitItem_upd ?_ (sub_of rfl hk) (sub_of rfl hr) hc
      · exact h8
  try clear_value x6
  refine Upd.ite ?_ ?_
  · refine calComplete_upd ?_ (sub_of rfl hk) (sub_of rfl hr) hc
    · exact hx7
  · exact hx7

theorem heldStart_upd {n : Cluster} {x : Nat × Nat} {s : State} (hs : Upd K R C s0 s) (hk : 0x400040000006340 ||| K = K) (hr : 0x2013fff9c1000021e00000000000000000000904c00000d0fd00000000000000000000000000000000000000000000000000000000 ||| R = R) (hc : ∀ c, C n.val c) :
    Upd K R C s0 (heldStart n x s) := by
  unfold heldStart
  extract_lets -merge +onlyGivenNames x4
  extract_lets -merge +onlyGivenNames x6
  split
  · refine Upd.ite ?_ ?_
    · refine seqStartOp_upd ?_ (sub_of rfl hk) (sub_of rfl hr) hc
      · exact hs
    · refine resumeOp_upd ?_ (sub_of rfl hk) (sub_of rfl hr) hc
      · exact hs
  · refine startOr_upd (fun z8 h9 => ?_) ?_ (sub_of rfl hk) (sub_of rfl hr) hc
    · beta_reduce
      refine awgStart_upd ?_ (sub_of rfl hk) (sub_of rfl hr) ⟨0, hc 0⟩
      · exact h9
    · exact hs
  · refine startLevel_upd (fun z10 h11 => ?_) ?_ (sub_of rfl hk) (sub_of rfl hr) hc
    · beta_reduce
      refine rgStart_upd ?_ (sub_of rfl hk) (sub_of rfl hr) (hc _)
      · exact h11
    · exact hs
  · refine startLevel_upd (fun z12 h13 => ?_) ?_ (sub_of rfl hk) (sub_of rfl hr) hc
    · beta_reduce
      refine cptStart_upd ?_ (sub_of rfl hk) (sub_of rfl hr) ⟨0, hc 0⟩
      · exact h13
    · exact hs
  · refine startLevel_upd (fun z14 h15 => ?_) ?_ (sub_of rfl hk) (sub_of rfl hr) hc
    · beta_reduce
      refine startMeas_upd ?_ (sub_of rfl hk) (hc _)
      · exact h15
    · exact hs

theorem releaseHeld_upd {n : Cluster} {s : State} (hs : Upd K R C s0 s) (hk : 0x400040000006340 ||| K = K) (hr : 0x2013fff9c1000021e00000000000000000000904c00000d0fd00000000000000000000000000000000000000000000000000000000 ||| R = R) (hc : ∀ c, C n.val c) :
    Upd K R C s0 (releaseHeld n s) := by
  unfold releaseHeld
  refine Upd.ite ?_ ?_
  · exact hs
  · refine foldl_upd ?_ fun x4 y h3 => ?_
    · refine State.setCalSt_upd ?_ (sub_of rfl hk) ⟨0, hc 0⟩
      · exact hs
    · beta_reduce
      refine heldStart_upd ?_ (sub_of rfl hk) (sub_of rfl hr) hc
      · exact h3

theorem intrChannel_upd {n : Cluster} {c : Channel} {s : State} (hs : Upd K R C s0 s) (hk : 0x400000000000040 ||| K = K) (hr : 0x3fff9c0000000000000000000000000000000c00000000000000000000000000000000000000000000000000000000000000000 ||| R = R) (hc : C n.val c.val) :
    Upd K R C s0 (intrChannel n c s) := by
  unfold intrChannel
  refine Upd.ite ?_ ?_
  · exact hs
  · refine State.modChan_upd ?_ (sub_of rfl hk) hc
    · refine endGate_upd ?_ (sub_of rfl hk) (sub_of rfl hr) hc
      · refine endMeas_upd ?_ (sub_of rfl hk) hc
        · exact hs

theorem intrBack_upd {n : Cluster} {c : Channel} {s : State} (hs : Upd K R C s0 s) (hk : 0x40 ||| K = K) (hc : C n.val c.val) :
    Upd K R C s0 (intrBack n c s) := by
  unfold intrBack
  refine Upd.ite ?_ ?_
  · refine State.modChan_upd ?_ (sub_of rfl hk) hc
    · exact hs
  · exact hs

theorem setRing_upd {v : Ring} {s : State} (hs : Upd K R C s0 s) (hk : 0x400000000 ||| K = K) :
    Upd K R C s0 (setRing v s) := by
  unfold setRing
  refine Upd.ring ?_ (testBit_of_sub hk rfl)
  exact hs

theorem modRing_upd {f : Ring → Ring} {s : State} (hs : Upd K R C s0 s) (hk : 0x400000000 ||| K = K) :
    Upd K R C s0 (modRing f s) := by
  unfold modRing
  refine Upd.ring ?_ (testBit_of_sub hk rfl)
  exact hs

theorem ringEvt_upd {b : Nat} {s : State} (hs : Upd K R C s0 s) (hr : 0x100000000000000000000000000000000000000000 ||| R = R) :
    Upd K R C s0 (ringEvt b s) := by
  unfold ringEvt
  refine State.setRb_upd ?_ (testBit_of_sub hr rfl) (RegOk.glob rfl)
  exact hs

theorem setRingState_upd {v : Nat} {s : State} (hs : Upd K R C s0 s) (hr : 0x100040000000000000000000000000000000000000 ||| R = R) :
    Upd K R C s0 (setRingState v s) := by
  unfold setRingState
  refine Upd.ite ?_ ?_
  · exact hs
  · refine ringEvt_upd ?_ (sub_of rfl hr)
    · refine State.setRf_upd ?_ (testBit_of_sub hr rfl) (RegOk.glob rfl)
      exact hs

theorem ringOff_upd {s : State} (hs : Upd K R C s0 s) (hk : 0x400000000 ||| K = K) (hr : 0x100040000000000000000000000000000000000000 ||| R = R) :
    Upd K R C s0 (ringOff s) := by
  unfold ringOff
  extract_lets -merge +onlyGivenNames x2
  have hx3 : Upd K R C s0 x2 := by
    unfold x2
    refine State.setRb_upd ?_ (testBit_of_sub hr rfl) (RegOk.glob rfl)
    refine setRingState_upd ?_ (sub_of rfl hr)
    · exact hs
  try clear_value x2
  refine modRing_upd ?_ (sub_of rfl hk)
  · refine State.setRb_upd ?_ (testBit_of_sub hr rfl) (RegOk.glob rfl)
    exact hx3

theorem ringFollow_upd {s : State} (hs : Upd K R C s0 s) (hk : 0x400000000 ||| K = K) (hr : 0x100040000000000000000000000000000000000000 ||| R = R) :
    Upd K R C s0 (ringFollow s) := by
  unfold ringFollow
  refine Upd.ite ?_ ?_
  · refine Upd.ite ?_ ?_
    · exact hs
    · refine ringOff_upd ?_ (sub_of rfl hk) (sub_of rfl hr)
      · exact hs
  · refine Upd.ite ?_ ?_
    · refine setRingState_upd ?_ (sub_of rfl hr)
      · exact hs
    · exact hs

theorem ringQueue_upd {type : Nat} {payload : List Byte} {s : State} (hs : Upd K R C s0 s) (hk : 0x400000000 ||| K = K) :
    Upd K R C s0 (ringQueue type payload s) := by
  unfold ringQueue
  refine Upd.ite ?_ ?_
  · exact hs
  · extract_lets -merge +onlyGivenNames x4
    refine Upd.ring ?_ (testBit_of_sub hk rfl)
    exact hs

theorem ringStartSend_upd {tf : Nat} {s : State} (hs : Upd K R C s0 s) (hk : 0x400000000 ||| K = K) :
    Upd K R C s0 (ringStartSend tf s) := by
  unfold ringStartSend
  refine ringQueue_upd ?_ (sub_of rfl hk)
  · exact hs

theorem ringAbortReq_upd {s : State} (hs : Upd K R C s0 s) (hk : 0x400000000 ||| K = K) :
    Upd K R C s0 (ringAbortReq s) := by
  unfold ringAbortReq
  refine Upd.ite ?_ ?_
  · exact hs
  · refine Upd.ring ?_ (testBit_of_sub hk rfl)
    exact hs

theorem ringRound_upd {s : State} (hs : Upd K R C s0 s) (hk : 0x400000000 ||| K = K) :
    Upd K R C s0 (ringRound s) := by
  unfold ringRound
  refine Upd.ite ?_ ?_
  · refine Upd.ring ?_ (testBit_of_sub hk rfl)
    exact hs
  · exact hs

theorem ringCtrlWrite_upd {d : Word} {m : Word} {s : State} (hs : Upd K R C s0 s) (hk : 0x400000000 ||| K = K) (hr : 0x100050000000000000000000000000000000000000 ||| R = R) :
    Upd K R C s0 (ringCtrlWrite d m s) := by
  unfold ringCtrlWrite
  extract_lets -merge +onlyGivenNames x4
  have hx5 : Upd K R C s0 x4 := by
    unfold x4
    refine ringFollow_upd ?_ (sub_of rfl hk) (sub_of rfl hr)
    · refine plainWrite_upd ?_ (testBit_of_sub hr rfl) (RegOk.glob rfl)
      exact hs
  try clear_value x4
  extract_lets -merge +onlyGivenNames x6
  have hx7 : Upd K R C s0 x6 := by
    unfold x6
    refine Upd.ite ?_ ?_
    · refine ringRound_upd ?_ (sub_of rfl hk)
      · exact hx5
    · exact hx5
  try clear_value x6
  refine Upd.ite ?_ ?_
  · refine ringAbortReq_upd ?_ (sub_of rfl hk)
    · exact hx7
  · exact hx7

theorem ringItem_upd {x : RingItem} {s : State} (hs : Upd K R C s0 s) (hk : 0x80000400000000 ||| K = K) :
    Upd K R C s0 (ringItem x s) := by
  unfold ringItem
  extract_lets -merge +onlyGivenNames x3
  extract_lets -merge +onlyGivenNames x5
  extract_lets -merge +onlyGivenNames x7
  extract_lets -merge +onlyGivenNames x9
  have hx10 : Upd K R C s0 x9 := by
    unfold x9
    refine Upd.ring ?_ (testBit_of_sub hk rfl)
    exact hs
  try clear_value x9
  refine Upd.ite ?_ ?_
  · refine State.wake_upd ?_ (sub_of rfl hk)
    · exact hx10
  · exact hx10

theorem lineStep_upd {k : Nat} {w : Nat} {mi : Nat} {mo : Nat} {s : State} (hs : Upd K R C s0 s) (hk : 0x80000400000000 ||| K = K) (hr : 0x100000000000000000000000000000000000000000 ||| R = R) :
    SndUpd K R C s0 (lineStep k w mi mo s) := by
  unfold lineStep
  extract_lets -merge +onlyGivenNames x6
  extract_lets -merge +onlyGivenNames x8
  extract_lets -merge +onlyGivenNames x10
  extract_lets -merge +onlyGivenNames x12
  extract_lets -merge +onlyGivenNames x14
  extract_lets -merge +onlyGivenNames x16
  have hx17 : Upd K R C s0 x16 := by
    unfold x16
    refine Upd.ite ?_ ?_
    · exact hs
    · refine Upd.ite ?_ ?_
      · refine Upd.ring ?_ (testBit_of_sub hk rfl)
        exact hs
      · refine Upd.ite ?_ ?_
        · refine ringEvt_upd ?_ (sub_of rfl hr)
          · exact hs
        · refine ringItem_upd ?_ (sub_of rfl hk)
          · exact hs
  try clear_value x16
  extract_lets -merge +onlyGivenNames x18
  split
  · refine SndUpd.ite ?_ ?_
    · refine SndUpd.mk ?_
      refine Upd.ring ?_ (testBit_of_sub hk rfl)
      exact hx17
    · refine SndUpd.mk ?_
      exact hx17
  · refine SndUpd.mk ?_
    exact hx17

theorem lineSteps_upd {slot : List Byte} {mi mo : Nat} {s : State} (hs : Upd K R C s0 s)
    (hk : 0x80000400000000 ||| K = K) (hr : 0x100000000000000000000000000000000000000000 ||| R = R) : SndUpd K R C s0 (lineSteps slot mi mo s) := by
  unfold lineSteps
  have key : ∀ (l : List Nat) (p : List Nat × State), Upd K R C s0 p.2 →
      Upd K R C s0 (l.foldl (fun p k => let q := lineStep k (lineField slot k) mi mo p.2; (p.1 ++ [q.1], q.2)) p).2 := by
    intro l
    induction l with
    | nil => intro p h; exact h
    | cons k r ih => intro p h; exact ih _ (lineStep_upd h (sub_of rfl hk) (sub_of rfl hr))
  exact key _ _ hs

theorem msgAccept_upd {block : Bool} {m : RingMsg} {arr : Nat} {mo : Nat} {s : State} (hs : Upd K R C s0 s) (hk : 0x80000400000000 ||| K = K) :
    SndUpd K R C s0 (msgAccept block m arr mo s) := by
  unfold msgAccept
  extract_lets -merge +onlyGivenNames x6
  extract_lets -merge +onlyGivenNames x8
  refine SndUpd.ite ?_ ?_
  · refine SndUpd.mk ?_
    exact hs
  · extract_lets -merge +onlyGivenNames x10
    have hx11 : Upd K R C s0 x10 := by
      unfold x10
      refine Upd.ring ?_ (testBit_of_sub hk rfl)
      exact hs
    try clear_value x10
    extract_lets -merge +onlyGivenNames x12
    split
    · refine SndUpd.mk ?_
      refine Upd.ite ?_ ?_
      · exact hx11
      · refine ringItem_upd ?_ (sub_of rfl hk)
        · exact hx11
    · refine SndUpd.mk ?_
      refine Upd.ite ?_ ?_
      · exact hx11
      · refine ringItem_upd ?_ (sub_of rfl hk)
        · exact hx11
    · refine SndUpd.ite ?_ ?_
      · refine SndUpd.mk ?_
        exact hx11
      · extract_lets -merge +onlyGivenNames x14
        extract_lets -merge +onlyGivenNames x16
        refine SndUpd.mk ?_
        refine ringItem_upd ?_ (sub_of rfl hk)
        · exact hx11
    · refine SndUpd.mk ?_
      refine Upd.ite ?_ ?_
      · exact hx11
      · refine ringItem_upd ?_ (sub_of rfl hk)
        · exact hx11
    · refine SndUpd.mk ?_
      refine ringItem_upd ?_ (sub_of rfl hk)
      · exact hx11

theorem msgBack_upd {m : RingMsg} {arr : Nat} {mo : Nat} {s : State} (hs : Upd K R C s0 s) (hk : 0x400000000 ||| K = K) (hr : 0x100000000000000000000000000000000000000000 ||| R = R) :
    Upd K R C s0 (msgBack m arr mo s) := by
  unfold msgBack
  extract_lets -merge +onlyGivenNames x5
  extract_lets -merge +onlyGivenNames x7
  refine Upd.ite ?_ ?_
  · refine Upd.ring ?_ (testBit_of_sub hk rfl)
    exact hs
  · split
    · refine Upd.ite ?_ ?_
      · extract_lets -merge +onlyGivenNames x9
        refine Upd.ring ?_ (testBit_of_sub hk rfl)
        exact hs
      · refine ringEvt_upd ?_ (sub_of rfl hr)
        · exact hs
    · refine ringEvt_upd ?_ (sub_of rfl hr)
      · exact hs

theorem msgOut_upd {mo : Nat} {s : State} (hs : Upd K R C s0 s) (hk : 0x400000000 ||| K = K) :
    SndUpd K R C s0 (msgOut mo s) := by
  unfold msgOut
  extract_lets -merge +onlyGivenNames x3
  split
  · refine SndUpd.ite ?_ ?_
    · refine SndUpd.mk ?_
      refine Upd.ring ?_ (testBit_of_sub hk rfl)
      exact hs
    · refine SndUpd.mk ?_
      exact hs
  · refine SndUpd.ite ?_ ?_
    · extract_lets -merge +onlyGivenNames x5
      refine SndUpd.mk ?_
      refine Upd.ring ?_ (testBit_of_sub hk rfl)
      exact hs
    · refine SndUpd.ite ?_ ?_
      · refine SndUpd.mk ?_
        exact hs
      · split
        · refine SndUpd.ite ?_ ?_
          · extract_lets -merge +onlyGivenNames x7
            extract_lets -merge +onlyGivenNames x9
            refine SndUpd.mk ?_
            refine Upd.ring ?_ (testBit_of_sub hk rfl)
            exact hs
          · refine SndUpd.mk ?_
            refine Upd.ring ?_ (testBit_of_sub hk rfl)
            exact hs
        · refine SndUpd.ite ?_ ?_
          · extract_lets -merge +onlyGivenNames x11
            extract_lets -merge +onlyGivenNames x13
            refine SndUpd.mk ?_
            refine Upd.ring ?_ (testBit_of_sub hk rfl)
            exact hs
          · refine SndUpd.mk ?_
            exact hs

theorem msgStep_upd {block : Bool} {m : RingMsg} {arr : Nat} {mo : Nat} {s : State} (hs : Upd K R C s0 s) (hk : 0x80000400000000 ||| K = K) (hr : 0x100000000000000000000000000000000000000000 ||| R = R) :
    SndUpd K R C s0 (msgStep block m arr mo s) := by
  unfold msgStep
  refine SndUpd.ite ?_ ?_
  · refine msgOut_upd ?_ (sub_of rfl hk)
    · exact hs
  · extract_lets -merge +onlyGivenNames x6
    extract_lets -merge +onlyGivenNames x8
    have hx9 : Upd K R C s0 x8 := by
      unfold x8
      refine Upd.ite ?_ ?_
      · refine Upd.ring ?_ (testBit_of_sub hk rfl)
        exact hs
      · exact hs
    try clear_value x8
    refine SndUpd.ite ?_ ?_
    · refine SndUpd.mk ?_
      refine msgBack_upd ?_ (sub_of rfl hk) (sub_of rfl hr)
      · refine Upd.ite ?_ ?_
        · exact hs
        · exact hx9
    · refine msgAccept_upd ?_ (sub_of rfl hk)
      · exact hx9

theorem abortStep_upd {x : Nat} {mo : Nat} {s : State} (hs : Upd K R C s0 s) (hk : 0x80000400000000 ||| K = K) :
    Snd2Upd K R C s0 (abortStep x mo s) := by
  unfold abortStep
  extract_lets -merge +onlyGivenNames x4
  extract_lets -merge +onlyGivenNames x6
  extract_lets -merge +onlyGivenNames x8
  extract_lets -merge +onlyGivenNames x10
  extract_lets -merge +onlyGivenNames x12
  have hx13 : Upd K R C s0 x12 := by
    unfold x12
    refine Upd.ite ?_ ?_
    · refine Upd.ring ?_ (testBit_of_sub hk rfl)
      exact hs
    · exact hs
  try clear_value x12
  extract_lets -merge +onlyGivenNames x14
  have hx15 : Upd K R C s0 x14 := by
    unfold x14
    refine Upd.ite ?_ ?_
    · refine ringItem_upd ?_ (sub_of rfl hk)
      · exact hx13
    · exact hx13
  try clear_value x14
  extract_lets -merge +onlyGivenNames x16
  extract_lets -merge +onlyGivenNames x18
  extract_lets -merge +onlyGivenNames x20
  refine Snd2Upd.mk ?_
  refine Upd.ite ?_ ?_
  · refine Upd.ring ?_ (testBit_of_sub hk rfl)
    exact hx15
  · exact hx15

theorem slotPass_upd {slot : List Byte} {arr : Nat} {s : State} (hs : Upd K R C s0 s) (hk : 0x880000400000000 ||| K = K) (hr : 0x100040000000000000000000000000000000000000 ||| R = R) :
    Upd K R C s0 (slotPass slot arr s) := by
  unfold slotPass
  extract_lets -merge +onlyGivenNames x4
  extract_lets -merge +onlyGivenNames x6
  extract_lets -merge +onlyGivenNames x8
  extract_lets -merge +onlyGivenNames x10
  extract_lets -merge +onlyGivenNames x12
  have hx13 : Upd K R C s0 x12 := by
    unfold x12
    refine Upd.ite ?_ ?_
    · exact hs
    · refine ringEvt_upd ?_ (sub_of rfl hr)
      · refine State.setRf_upd ?_ (testBit_of_sub hr rfl) (RegOk.glob rfl)
        refine setRing_upd ?_ (sub_of rfl hk)
        · exact hs
  try clear_value x12
  extract_lets -merge +onlyGivenNames x14
  extract_lets -merge +onlyGivenNames x16
  have hx17 : Snd2Upd K R C s0 x16 := by
    unfold x16
    refine abortStep_upd ?_ (sub_of rfl hk)
    · exact hx13
  try clear_value x16
  extract_lets -merge +onlyGivenNames x18
  have hx19 : SndUpd K R C s0 x18 := by
    unfold x18
    refine lineSteps_upd ?_ (sub_of rfl hk) (sub_of rfl hr)
    · refine Snd2Upd.out ?_
      exact hx17
  try clear_value x18
  extract_lets -merge +onlyGivenNames x20
  have hx21 : SndUpd K R C s0 x20 := by
    unfold x20
    refine msgStep_upd ?_ (sub_of rfl hk) (sub_of rfl hr)
    · refine SndUpd.out ?_
      exact hx19
  try clear_value x20
  refine State.emit_upd ?_ (sub_of rfl hk)
  · refine SndUpd.out ?_
    exact hx21

theorem slotBad_upd {slot : List Byte} {arr : Nat} {s : State} (hs : Upd K R C s0 s) (hk : 0x800000000000000 ||| K = K) (hr : 0x120000000000000000000000000000000000000000 ||| R = R) :
    Upd K R C s0 (slotBad slot arr s) := by
  unfold slotBad
  extract_lets -merge +onlyGivenNames x4
  refine State.emit_upd ?_ (sub_of rfl hk)
  · refine State.count_upd ?_ (testBit_of_sub hr rfl) (RegOk.glob rfl)
    refine ringEvt_upd ?_ (sub_of rfl hr)
    · exact hs

theorem setCapState_upd {v : Nat} {s : State} (hs : Upd K R C s0 s) (hr : 0x8000000000000000000000000000000000000000000000 ||| R = R) :
    Upd K R C s0 (setCapState v s) := by
  unfold setCapState
  refine State.setRf_upd ?_ (testBit_of_sub hr rfl) (RegOk.glob rfl)
  exact hs

theorem modCap_upd {f : Cap → Cap} {s : State} (hs : Upd K R C s0 s) (hk : 0x10000000 ||| K = K) :
    Upd K R C s0 (modCap f s) := by
  unfold modCap
  refine Upd.cap ?_ (testBit_of_sub hk rfl)
  exact hs

theorem capNote_upd {a : Nat} {len : Nat} {s : State} (hs : Upd K R C s0 s) (hk : 0x200000000000000 ||| K = K) (hr : 0x800000000000000000000001a800000000000000000000 ||| R = R) :
    Upd K R C s0 (capNote a len s) := by
  unfold capNote
  refine State.setRb_upd ?_ (testBit_of_sub hr rfl) (RegOk.glob rfl)
  refine noteRefusals_upd ?_ (sub_of rfl hk) (sub_of rfl hr)
  · exact hs

theorem capWrite_upd {op : Option Bool} {a : Nat} {bytes : List Byte} {s : State} (hs : Upd K R C s0 s) (hk : 0x200000000000002 ||| K = K) (hr : 0x800000000000000000000001a800000000000000000000 ||| R = R) :
    Upd K R C s0 (capWrite op a bytes s) := by
  unfold capWrite
  extract_lets -merge +onlyGivenNames x5
  have hx6 : Upd K R C s0 x5 := by
    unfold x5
    refine memWrite_upd ?_ (sub_of rfl hk) (sub_of rfl hr)
    · exact hs
  try clear_value x5
  refine Upd.ite ?_ ?_
  · refine State.setRb_upd ?_ (testBit_of_sub hr rfl) (RegOk.glob rfl)
    exact hx6
  · exact hx6

theorem capLoad_upd {s : State} (hs : Upd K R C s0 s) (hk : 0x10000000 ||| K = K) :
    Upd K R C s0 (capLoad s) := by
  unfold capLoad
  extract_lets -merge +onlyGivenNames x2
  extract_lets -merge +onlyGivenNames x4
  extract_lets -merge +onlyGivenNames x6
  refine modCap_upd ?_ (sub_of rfl hk)
  · exact hs

theorem capClusters_upd {f : Cluster → State → State} {s : State} (hff : ∀ v2 : Cluster, ∀ v3, Upd K R C s0 v3 → Upd K R C s0 (f v2 v3)) (hs : Upd K R C s0 s) :
    Upd K R C s0 (capClusters f s) := by
  unfold capClusters
  refine forClusters_upd (fun z5 z6 h7 => ?_) ?_
  · beta_reduce
    refine Upd.ite ?_ ?_
    · refine hff _ _ ?_
      · exact h7
    · exact h7
  · exact hs

theorem dlogAdd_upd {b : List Byte} {s : State} (hs : Upd K R C s0 s) (hk : 0x10000000 ||| K = K) :
    Upd K R C s0 (dlogAdd b s) := by
  unfold dlogAdd
  refine modCap_upd ?_ (sub_of rfl hk)
  · exact hs

theorem dlogWrite_upd {s : State} (hs : Upd K R C s0 s) (hk : 0x200000010000002 ||| K = K) (hr : 0x200800000000000000000000001a800000000000000000000 ||| R = R) :
    Upd K R C s0 (dlogWrite s) := by
  unfold dlogWrite
  split
  · exact hs
  · refine Upd.ite ?_ ?_
    · exact hs
    · extract_lets -merge +onlyGivenNames x2
      extract_lets -merge +onlyGivenNames x4
      extract_lets -merge +onlyGivenNames x6
      extract_lets -merge +onlyGivenNames x8
      have hx9 : Upd K R C s0 x8 := by
        unfold x8
        refine capWrite_upd ?_ (sub_of rfl hk) (sub_of rfl hr)
        · exact hs
      try clear_value x8
      extract_lets -merge +onlyGivenNames x10
      have hx11 : Upd K R C s0 x10 := by
        unfold x10
        refine Upd.ite ?_ ?_
        · refine State.setRb_upd ?_ (testBit_of_sub hr rfl) (RegOk.glob rfl)
          exact hx9
        · exact hx9
      try clear_value x10
      refine modCap_upd ?_ (sub_of rfl hk)
      · refine State.setRf_upd ?_ (testBit_of_sub hr rfl) (RegOk.glob rfl)
        exact hx11

theorem setCapSite_upd {i : Nat} {x : CapSite} {s : State} (hs : Upd K R C s0 s) (hk : 0x10000000 ||| K = K) :
    Upd K R C s0 (setCapSite i x s) := by
  unfold setCapSite
  refine modCap_upd ?_ (sub_of rfl hk)
  · exact hs

theorem siteEnd_upd {i : Nat} {x : CapSite} {s : State} (hs : Upd K R C s0 s) (hk : 0x10000000 ||| K = K) :
    Upd K R C s0 (siteEnd i x s) := by
  unfold siteEnd
  extract_lets -merge +onlyGivenNames x4
  refine dlogAdd_upd ?_ (sub_of rfl hk)
  · refine setCapSite_upd ?_ (sub_of rfl hk)
    · exact hs

theorem siteUntested_upd {i : Nat} {reason : Nat} {clu : Nat} {x : CapSite} {s : State} (hs : Upd K R C s0 s) (hk : 0x10000000 ||| K = K) (hr : 0x4000000000000000000000000000000000000000000000000000 ||| R = R) :
    Upd K R C s0 (siteUntested i reason clu x s) := by
  unfold siteUntested
  refine siteEnd_upd ?_ (sub_of rfl hk)
  · refine State.setRb_upd ?_ (testBit_of_sub hr rfl) (RegOk.glob rfl)
    exact hs

theorem sitesUntested_upd {reason : Nat} {clu : Nat} {s : State} (hs : Upd K R C s0 s) (hk : 0x10000000 ||| K = K) (hr : 0x4000000000000000000000000000000000000000000000000000 ||| R = R) :
    Upd K R C s0 (sitesUntested reason clu s) := by
  unfold sitesUntested
  refine foldl_range_upd ?_ fun x5 y hyx5 h4 => ?_
  · exact hs
  · beta_reduce
    split
    · refine Upd.ite ?_ ?_
      · refine siteUntested_upd ?_ (sub_of rfl hk) (sub_of rfl hr)
        · exact h4
      · exact h4
    · exact h4

theorem sitesBegin_upd {s : State} (hs : Upd K R C s0 s) (hk : 0x10000000 ||| K = K) (hr : 0x4000000000000000000000000000000000000000000000000000 ||| R = R) :
    Upd K R C s0 (sitesBegin s) := by
  unfold sitesBegin
  refine foldl_range_upd ?_ fun x5 y hyx5 h2 => ?_
  · exact hs
  · beta_reduce
    split
    · refine Upd.ite ?_ ?_
      · exact h2
      · extract_lets -merge +onlyGivenNames x3
        split
        · refine siteUntested_upd ?_ (sub_of rfl hk) (sub_of rfl hr)
          · exact h2
        · refine setCapSite_upd ?_ (sub_of rfl hk)
          · exact h2
    · exact h2

theorem capNext_upd {s : State} (hs : Upd K R C s0 s) (hr : 0x8000000000000000000000000000000000000000000000 ||| R = R) :
    Upd K R C s0 (capNext s) := by
  unfold capNext
  refine Upd.ite ?_ ?_
  · exact hs
  · refine setCapState_upd ?_ (sub_of rfl hr)
    · exact hs

theorem capBegin_upd {tf : Option Nat} {s : State} (hs : Upd K R C s0 s) (hk : 0x2040410000040 ||| K = K) (hr : 0x104000000000000004e00008000000000000000000000000000000000000000000000 ||| R = R) (hc : ∀ n c, C n c) :
    Upd K R C s0 (capBegin tf s) := by
  unfold capBegin
  extract_lets -merge +onlyGivenNames x3
  extract_lets -merge +onlyGivenNames x5
  have hx6 : Upd K R C s0 x5 := by
    unfold x5
    refine State.setPair_upd ?_ (testBit_of_sub hr rfl) (RegOk.glob rfl) (testBit_of_sub hr rfl) (RegOk.glob rfl)
    refine State.countWrap_upd ?_ (testBit_of_sub hr rfl) (RegOk.glob rfl)
    refine State.setRf_upd ?_ (testBit_of_sub hr rfl) (RegOk.glob rfl)
    refine setCapState_upd ?_ (sub_of rfl hr)
    · exact hs
  try clear_value x5
  extract_lets -merge +onlyGivenNames x7
  have hx8 : Upd K R C s0 x7 := by
    unfold x7
    refine modCap_upd ?_ (sub_of rfl hk)
    · exact hx6
  try clear_value x7
  extract_lets -merge +onlyGivenNames x9
  extract_lets -merge +onlyGivenNames x11
  have hx12 : Upd K R C s0 x11 := by
    unfold x11
    refine capClusters_upd (fun z13 z14 h15 => ?_) ?_
    · beta_reduce
      refine calAbandon_upd ?_ (sub_of rfl hk) (sub_of rfl hr) (hc _)
      · exact h15
    · refine Upd.life ?_ (testBit_of_sub hk rfl) (tabSet_wf rfl)
      exact hx8
  try clear_value x11
  extract_lets -merge +onlyGivenNames x16
  have hx17 : Upd K R C s0 x16 := by
    unfold x16
    refine Upd.ite ?_ ?_
    · refine ringStartSend_upd ?_ (sub_of rfl hk)
      · exact hx12
    · exact hx12
  try clear_value x16
  refine capNext_upd ?_ (sub_of rfl hr)
  · refine sitesBegin_upd ?_ (sub_of rfl hk) (sub_of rfl hr)
    · refine dlogAdd_upd ?_ (sub_of rfl hk)
      · exact hx17

theorem capSot_upd {tf : Option Nat} {s : State} (hs : Upd K R C s0 s) (hk : 0x2040410000040 ||| K = K) (hr : 0x104000000000000004e00008000000000000000000000000000000000000000000000 ||| R = R) (hc : ∀ n c, C n c) :
    Upd K R C s0 (capSot tf s) := by
  unfold capSot
  refine Upd.ite ?_ ?_
  · refine capBegin_upd ?_ (sub_of rfl hk) (sub_of rfl hr) hc
    · exact hs
  · refine Upd.ite ?_ ?_
    · refine State.setRb_upd ?_ (testBit_of_sub hr rfl) (RegOk.glob rfl)
      exact hs
    · exact hs

theorem capGo_upd {s : State} (hs : Upd K R C s0 s) (hr : 0x8000000000000000000000000000000000000000000000 ||| R = R) :
    Upd K R C s0 (capGo s) := by
  unfold capGo
  refine Upd.ite ?_ ?_
  · refine State.setRf_upd ?_ (testBit_of_sub hr rfl) (RegOk.glob rfl)
    refine setCapState_upd ?_ (sub_of rfl hr)
    · exact hs
  · exact hs

theorem capChecked_upd {s : State} (hs : Upd K R C s0 s) (hk : 0x202040410000040 ||| K = K) (hr : 0x104000000000000004e0001800000000000000000000001a800000000000000000000 ||| R = R) (hc : ∀ n c, C n c) :
    Upd K R C s0 (capChecked s) := by
  unfold capChecked
  split
  · extract_lets -merge +onlyGivenNames x2
    have hx3 : Upd K R C s0 x2 := by
      unfold x2
      split
      · refine capNote_upd ?_ (sub_of rfl hk) (sub_of rfl hr)
        · exact hs
      · exact hs
    try clear_value x2
    refine State.setRb_upd ?_ (testBit_of_sub hr rfl) (RegOk.glob rfl)
    refine State.setReg_upd ?_ (testBit_of_sub hr rfl) (RegOk.glob rfl)
    refine State.setRf_upd ?_ (testBit_of_sub hr rfl) (RegOk.glob rfl)
    refine setCapState_upd ?_ (sub_of rfl hr)
    · exact hx3
  · extract_lets -merge +onlyGivenNames x4
    have hx5 : Upd K R C s0 x4 := by
      unfold x4
      refine setCapState_upd ?_ (sub_of rfl hr)
      · refine capLoad_upd ?_ (sub_of rfl hk)
        · exact hs
    try clear_value x4
    refine Upd.ite ?_ ?_
    · refine capBegin_upd ?_ (sub_of rfl hk) (sub_of rfl hr) hc
      · exact hx5
    · exact hx5

theorem flowStop_upd {reason : Nat} {clu : Nat} {s : State} (hs : Upd K R C s0 s) (hk : 0x10000140 ||| K = K) (hr : 0x10000000000000000000000000000000000000000000000000004000008000000000000000000000000000000000000000000000 ||| R = R) (hc : ∀ n c, C n c) :
    Upd K R C s0 (flowStop reason clu s) := by
  unfold flowStop
  extract_lets -merge +onlyGivenNames x4
  have hx5 : Upd K R C s0 x4 := by
    unfold x4
    refine capClusters_upd (fun z6 z7 h8 => ?_) ?_
    · beta_reduce
      refine Upd.ite ?_ ?_
      · exact h8
      · refine abortSeq_upd ?_ (sub_of rfl hk) (sub_of rfl hr) (hc _)
        · exact h8
    · exact hs
  try clear_value x4
  refine setCapState_upd ?_ (sub_of rfl hr)
  · refine modCap_upd ?_ (sub_of rfl hk)
    · refine sitesUntested_upd ?_ (sub_of rfl hk) (sub_of rfl hr)
      · exact hx5

theorem capAbort_upd {s : State} (hs : Upd K R C s0 s) (hk : 0x410000140 ||| K = K) (hr : 0x10000000000000000000000000000000000000000000000000004000008000000000000000000000000000000000000000000000 ||| R = R) (hc : ∀ n c, C n c) :
    Upd K R C s0 (capAbort s) := by
  unfold capAbort
  split
  · exact hs
  · split
    · refine ringAbortReq_upd ?_ (sub_of rfl hk)
      · refine setCapState_upd ?_ (sub_of rfl hr)
        · exact hs
    · unfold id
      refine setCapState_upd ?_ (sub_of rfl hr)
      · exact hs
  · split
    · refine ringAbortReq_upd ?_ (sub_of rfl hk)
      · refine setCapState_upd ?_ (sub_of rfl hr)
        · exact hs
    · unfold id
      refine setCapState_upd ?_ (sub_of rfl hr)
      · exact hs
  · split
    · refine ringAbortReq_upd ?_ (sub_of rfl hk)
      · refine flowStop_upd ?_ (sub_of rfl hk) (sub_of rfl hr) hc
        · exact hs
    · unfold id
      refine flowStop_upd ?_ (sub_of rfl hk) (sub_of rfl hr) hc
      · exact hs

theorem capCtrlWrite_upd {d : Word} {m : Word} {s : State} (hs : Upd K R C s0 s) (hk : 0x410000140 ||| K = K) (hr : 0x1000000000000000000000000000000000000000000000000000400000c000000000000000000000000000000000000000000000 ||| R = R) (hc : ∀ n c, C n c) :
    Upd K R C s0 (capCtrlWrite d m s) := by
  unfold capCtrlWrite
  extract_lets -merge +onlyGivenNames x4
  have hx5 : Upd K R C s0 x4 := by
    unfold x4
    refine plainWrite_upd ?_ (testBit_of_sub hr rfl) (RegOk.glob rfl)
    exact hs
  try clear_value x4
  extract_lets -merge +onlyGivenNames x6
  have hx7 : Upd K R C s0 x6 := by
    unfold x6
    refine Upd.ite ?_ ?_
    · refine capGo_upd ?_ (sub_of rfl hr)
      · exact hx5
    · exact hx5
  try clear_value x6
  refine Upd.ite ?_ ?_
  · refine capAbort_upd ?_ (sub_of rfl hk) (sub_of rfl hr) hc
    · exact hx7
  · exact hx7

theorem setFence_upd {n : Cluster} {mask : Word} {s : State} (hs : Upd K R C s0 s) (hk : 0x400000000000040 ||| K = K) (hr : 0x3fff9c0000000000000000002024040000000c00000000000010000000000000000000000000000000000000000000000000000 ||| R = R) (hc : ∀ c, C n.val c) :
    Upd K R C s0 (setFence n mask s) := by
  unfold setFence
  refine forceMask_upd ?_ (sub_of rfl hk) (sub_of rfl hr) hc
  · refine State.setReg_upd ?_ (testBit_of_sub hr rfl) (RegOk.glob rfl)
    exact hs

theorem capMark_upd {n : Nat} {reason : Nat} {s : State} (hs : Upd K R C s0 s) (hk : 0x10000000 ||| K = K) :
    Upd K R C s0 (capMark n reason s) := by
  unfold capMark
  refine modCap_upd ?_ (sub_of rfl hk)
  · exact hs

theorem patStart_upd {n : Cluster} {s : State} (hs : Upd K R C s0 s) (hk : 0x40010000340 ||| K = K) (hr : 0x904000012d0fdf0000000000000000000000000000000000000000000000000000000 ||| R = R) (hc : ∀ c, C n.val c) :
    Upd K R C s0 (patStart n s) := by
  unfold patStart
  split
  · exact hs
  · extract_lets -merge +onlyGivenNames x3
    have hx4 : Upd K R C s0 x3 := by
      unfold x3
      refine State.setRb_upd ?_ (testBit_of_sub hr rfl) (RegOk.one rfl ⟨0, hc 0⟩)
      refine State.setPair_upd ?_ (testBit_of_sub hr rfl) (RegOk.one rfl ⟨0, hc 0⟩) (testBit_of_sub hr rfl) (RegOk.one rfl ⟨0, hc 0⟩)
      refine State.setRf_upd ?_ (testBit_of_sub hr rfl) (RegOk.one rfl ⟨0, hc 0⟩)
      exact hs
    try clear_value x3
    extract_lets -merge +onlyGivenNames x5
    have hx6 : Upd K R C s0 x5 := by
      unfold x5
      refine Upd.ite ?_ ?_
      · refine State.setRf_upd ?_ (testBit_of_sub hr rfl) (RegOk.one rfl ⟨0, hc 0⟩)
        refine State.setRb_upd ?_ (testBit_of_sub hr rfl) (RegOk.one rfl ⟨0, hc 0⟩)
        exact hx4
      · exact hx4
    try clear_value x5
    extract_lets -merge +onlyGivenNames x7
    have hx8 : Upd K R C s0 x7 := by
      unfold x7
      split
      · refine capMark_upd ?_ (sub_of rfl hk)
        · exact hx6
      · exact hx6
    try clear_value x7
    refine seqStartOp_upd ?_ (sub_of rfl hk) (sub_of rfl hr) hc
    · exact hx8

theorem patPrepare_upd {n : Cluster} {s : State} (hs : Upd K R C s0 s) (hk : 0x600040010000342 ||| K = K) (hr : 0x3813fff9c0000000000000000002024040000904c00012d0fdf000000000800000000000000000000001a800000000000000000000 ||| R = R) (hc : ∀ c, C n.val c) :
    Upd K R C s0 (patPrepare n s) := by
  unfold patPrepare
  split
  · exact hs
  · extract_lets -merge +onlyGivenNames x3
    extract_lets -merge +onlyGivenNames x5
    extract_lets -merge +onlyGivenNames x7
    have hx8 : Upd K R C s0 x7 := by
      unfold x7
      refine Upd.ite ?_ ?_
      · refine abandonOp_upd ?_ (sub_of rfl hk) (sub_of rfl hr) hc
        · exact hs
      · exact hs
    try clear_value x7
    extract_lets -merge +onlyGivenNames x9
    have hx10 : Upd K R C s0 x9 := by
      unfold x9
      refine State.setRf_upd ?_ (testBit_of_sub hr rfl) (RegOk.one rfl ⟨0, hc 0⟩)
      refine State.setRf_upd ?_ (testBit_of_sub hr rfl) (RegOk.one rfl ⟨0, hc 0⟩)
      exact hx8
    try clear_value x9
    extract_lets -merge +onlyGivenNames x11
    extract_lets -merge +onlyGivenNames x13
    have hx14 : Upd K R C s0 x13 := by
      unfold x13
      refine foldl_range_upd ?_ fun x16 y hyx16 h15 => ?_
      · exact hx10
      · beta_reduce
        refine capWrite_upd ?_ (sub_of rfl hk) (sub_of rfl hr)
        · exact h15
    try clear_value x13
    refine Upd.ite ?_ ?_
    · refine modCap_upd ?_ (sub_of rfl hk)
      · exact hx14
    · refine patStart_upd ?_ (sub_of rfl hk) (sub_of rfl hr) hc
      · exact hx14

theorem rgArm_upd {t : Nat} {b : List Byte} {n : Cluster} {c : Channel} {s : State} (hs : Upd K R C s0 s) (hk : 0x400040010000040 ||| K = K) (hr : 0x3ffffe0000000000000000000000000000104c00000000000000000000000000000000000000000000000000000000000000000 ||| R = R) (hc : ∀ c, C n.val c) :
    Upd K R C s0 (rgArm t b n c s) := by
  unfold rgArm
  extract_lets -merge +onlyGivenNames x6
  refine Upd.ite ?_ ?_
  · refine capMark_upd ?_ (sub_of rfl hk)
    · exact hs
  · extract_lets -merge +onlyGivenNames x8
    have hx9 : Upd K R C s0 x8 := by
      unfold x8
      refine State.setPair_upd ?_ (testBit_of_sub hr rfl) (RegOk.chan rfl (hc _)) (testBit_of_sub hr rfl) (RegOk.chan rfl (hc _))
      exact hs
    try clear_value x8
    extract_lets -merge +onlyGivenNames x10
    have hx11 : Upd K R C s0 x10 := by
      unfold x10
      refine State.setPair_upd ?_ (testBit_of_sub hr rfl) (RegOk.chan rfl (hc _)) (testBit_of_sub hr rfl) (RegOk.chan rfl (hc _))
      exact hx9
    try clear_value x10
    extract_lets -merge +onlyGivenNames x12
    have hx13 : Upd K R C s0 x12 := by
      unfold x12
      refine Upd.ite ?_ ?_
      · refine capMark_upd ?_ (sub_of rfl hk)
        · exact hx11
      · exact hx11
    try clear_value x12
    refine rgCtrlWrite_upd ?_ (sub_of rfl hk) (sub_of rfl hr) hc
    · exact hx13

theorem atClusters_upd {ns : List Nat} {f : Cluster → State → State} {s : State} (hff : ∀ v3 : Cluster, ∀ v4, Upd K R C s0 v4 → Upd K R C s0 (f v3 v4)) (hs : Upd K R C s0 s) :
    Upd K R C s0 (atClusters ns f s) := by
  unfold atClusters
  refine foldl_upd ?_ fun x7 y h6 => ?_
  · exact hs
  · beta_reduce
    refine hff _ _ ?_
    · exact h6

theorem binRecord_upd {b : List Byte} {r : Nat} {is : List Nat} {s : State} (hs : Upd K R C s0 s) (hk : 0x10000000 ||| K = K) :
    Upd K R C s0 (binRecord b r is s) := by
  unfold binRecord
  refine foldl_upd ?_ fun x6 y h5 => ?_
  · exact hs
  · beta_reduce
    split
    · refine siteEnd_upd ?_ (sub_of rfl hk)
      · exact h5
    · exact h5

theorem recordStart_upd {r : Nat} {s : State} (hs : Upd K R C s0 s) (hk : 0x600040010000342 ||| K = K) (hr : 0x3813ffffe0000000000000000002024040000904c00012d0fdf001400000800000000000000080000001a800000000000000000000 ||| R = R) (hc : ∀ n c, C n c) :
    Upd K R C s0 (recordStart r s) := by
  unfold recordStart
  extract_lets -merge +onlyGivenNames x3
  refine Upd.ite ?_ ?_
  · refine flowStop_upd ?_ (sub_of rfl hk) (sub_of rfl hr) hc
    · refine capNote_upd ?_ (sub_of rfl hk) (sub_of rfl hr)
      · exact hs
  · extract_lets -merge +onlyGivenNames x5
    extract_lets -merge +onlyGivenNames x7
    extract_lets -merge +onlyGivenNames x9
    extract_lets -merge +onlyGivenNames x11
    extract_lets -merge +onlyGivenNames x13
    have hx14 : Upd K R C s0 x13 := by
      unfold x13
      refine State.setRf_upd ?_ (testBit_of_sub hr rfl) (RegOk.glob rfl)
      exact hs
    try clear_value x13
    extract_lets -merge +onlyGivenNames x15
    have hx16 : Upd K R C s0 x15 := by
      unfold x15
      refine atClusters_upd (fun z17 z18 h19 => ?_) ?_
      · beta_reduce
        refine setFence_upd ?_ (sub_of rfl hk) (sub_of rfl hr) (hc _)
        · refine ungate_upd ?_ (sub_of rfl hr)
          · exact h19
      · exact hx14
    try clear_value x15
    refine Upd.ite ?_ ?_
    · refine capNext_upd ?_ (sub_of rfl hr)
      · refine modCap_upd ?_ (sub_of rfl hk)
        · refine binRecord_upd ?_ (sub_of rfl hk)
          · exact hx16
    · extract_lets -merge +onlyGivenNames x20
      extract_lets -merge +onlyGivenNames x22
      extract_lets -merge +onlyGivenNames x24
      have hx25 : Upd K R C s0 x24 := by
        unfold x24
        refine modCap_upd ?_ (sub_of rfl hk)
        · exact hx16
      try clear_value x24
      refine Upd.ite ?_ ?_
      · refine foldl_upd ?_ fun x29 y h26 => ?_
        · exact hx25
        · beta_reduce
          refine foldl_upd ?_ fun x28 y h27 => ?_
          · exact h26
          · beta_reduce
            refine rgArm_upd ?_ (sub_of rfl hk) (sub_of rfl hr) (hc _)
            · exact h27
      · refine atClusters_upd (fun z30 z31 h32 => ?_) ?_
        · beta_reduce
          refine patPrepare_upd ?_ (sub_of rfl hk) (sub_of rfl hr) (hc _)
          · exact h32
        · exact hx25

theorem recordLater_upd {s : State} (hs : Upd K R C s0 s) (hk : 0x40010000340 ||| K = K) (hr : 0x904000012d0fdf0000000000000000000000000000000000000000000000000000000 ||| R = R) (hc : ∀ n c, C n c) :
    Upd K R C s0 (recordLater s) := by
  unfold recordLater
  split
  · exact hs
  · extract_lets -merge +onlyGivenNames x2
    extract_lets -merge +onlyGivenNames x4
    have hx5 : Upd K R C s0 x4 := by
      unfold x4
      refine modCap_upd ?_ (sub_of rfl hk)
      · exact hs
    try clear_value x4
    refine atClusters_upd (fun z6 z7 h8 => ?_) ?_
    · beta_reduce
      refine patStart_upd ?_ (sub_of rfl hk) (sub_of rfl hr) (hc _)
      · exact h8
    · exact hx5

theorem recordTimeout_upd {x : CapRun} {s : State} (hs : Upd K R C s0 s) (hk : 0x10000140 ||| K = K) (hr : 0x10000000000000000000000000000000000000000000000000000000000000000000000000000000000000000000000000000000 ||| R = R) (hc : ∀ n c, C n c) :
    Upd K R C s0 (recordTimeout x s) := by
  unfold recordTimeout
  extract_lets -merge +onlyGivenNames x3
  extract_lets -merge +onlyGivenNames x5
  have hx6 : Upd K R C s0 x5 := by
    unfold x5
    refine modCap_upd ?_ (sub_of rfl hk)
    · exact hs
  try clear_value x5
  refine foldl_upd ?_ fun x8 y h7 => ?_
  · exact hx6
  · beta_reduce
    refine capMark_upd ?_ (sub_of rfl hk)
    · refine abortSeq_upd ?_ (sub_of rfl hk) (sub_of rfl hr) (hc _)
      · exact h7

theorem judgeLimits_upd {x : CapRun} {i : Nat} {y : CapSite} {s : State} (hs : Upd K R C s0 s) (hk : 0x10000000 ||| K = K) :
    Upd K R C s0 (judgeLimits x i y s) := by
  unfold judgeLimits
  extract_lets -merge +onlyGivenNames x5
  extract_lets -merge +onlyGivenNames x7
  extract_lets -merge +onlyGivenNames x9
  extract_lets -merge +onlyGivenNames x11
  extract_lets -merge +onlyGivenNames x13
  extract_lets -merge +onlyGivenNames x15
  have hx16 : Upd K R C s0 x15 := by
    unfold x15
    refine foldl_upd ?_ fun x18 y h17 => ?_
    · exact hs
    · beta_reduce
      refine dlogAdd_upd ?_ (sub_of rfl hk)
      · exact h17
  try clear_value x15
  extract_lets -merge +onlyGivenNames x19
  extract_lets -merge +onlyGivenNames x21
  refine Upd.ite ?_ ?_
  · refine siteEnd_upd ?_ (sub_of rfl hk)
    · exact hx16
  · refine setCapSite_upd ?_ (sub_of rfl hk)
    · exact hx16

theorem judgeSite_upd {x : CapRun} {i : Nat} {s : State} (hs : Upd K R C s0 s) (hk : 0x200000010000000 ||| K = K) (hr : 0x400000800000000000000000000001a800000000000000000000 ||| R = R) :
    Upd K R C s0 (judgeSite x i s) := by
  unfold judgeSite
  split
  · exact hs
  · split
    · refine siteUntested_upd ?_ (sub_of rfl hk) (sub_of rfl hr)
      · exact hs
    · split
      · refine siteUntested_upd ?_ (sub_of rfl hk) (sub_of rfl hr)
        · refine capNote_upd ?_ (sub_of rfl hk) (sub_of rfl hr)
          · exact hs
      · refine judgeLimits_upd ?_ (sub_of rfl hk)
        · exact hs

theorem recordEnd_upd {x : CapRun} {s : State} (hs : Upd K R C s0 s) (hk : 0x200000010000140 ||| K = K) (hr : 0x1000000000000000000000000000000000000000000000000000400000800000000000000000000001a800000000000000000000 ||| R = R) (hc : ∀ n c, C n c) :
    Upd K R C s0 (recordEnd x s) := by
  unfold recordEnd
  split
  · refine flowStop_upd ?_ (sub_of rfl hk) (sub_of rfl hr) hc
    · refine capNote_upd ?_ (sub_of rfl hk) (sub_of rfl hr)
      · exact hs
  · extract_lets -merge +onlyGivenNames x3
    have hx4 : Upd K R C s0 x3 := by
      unfold x3
      refine foldl_upd ?_ fun x6 y h5 => ?_
      · exact hs
      · beta_reduce
        refine judgeSite_upd ?_ (sub_of rfl hk) (sub_of rfl hr)
        · exact h5
    try clear_value x3
    refine capNext_upd ?_ (sub_of rfl hr)
    · refine modCap_upd ?_ (sub_of rfl hk)
      · exact hx4

theorem finishLists_upd {s : State} (hs : Upd K R C s0 s) (hk : 0x200000010000002 ||| K = K) (hr : 0xe001000800000000000000000000001a800000000000000000000 ||| R = R) :
    Upd K R C s0 (finishLists s) := by
  unfold finishLists
  extract_lets -merge +onlyGivenNames x2
  extract_lets -merge +onlyGivenNames x4
  extract_lets -merge +onlyGivenNames x6
  have hx7 : Upd K R C s0 x6 := by
    unfold x6
    refine foldl_upd ?_ fun x11 y h8 => ?_
    · exact hs
    · beta_reduce
      extract_lets -merge +onlyGivenNames x9
      have hx10 : Upd K R C s0 x9 := by
        unfold x9
        refine capWrite_upd ?_ (sub_of rfl hk) (sub_of rfl hr)
        · exact h8
      try clear_value x9
      refine Upd.ite ?_ ?_
      · refine State.setRb_upd ?_ (testBit_of_sub hr rfl) (RegOk.glob rfl)
        exact hx10
      · exact hx10
  try clear_value x6
  extract_lets -merge +onlyGivenNames x12
  have hx13 : Upd K R C s0 x12 := by
    unfold x12
    refine State.setReg_upd ?_ (testBit_of_sub hr rfl) (RegOk.glob rfl)
    exact hx7
  try clear_value x12
  extract_lets -merge +onlyGivenNames x14
  have hx15 : Upd K R C s0 x14 := by
    unfold x14
    refine foldl_range_upd ?_ fun x17 y hyx17 h16 => ?_
    · exact hx13
    · beta_reduce
      refine State.setReg_upd ?_ (testBit_of_sub hr rfl) (RegOk.glob rfl)
      exact h16
  try clear_value x14
  extract_lets -merge +onlyGivenNames x18
  have hx19 : Upd K R C s0 x18 := by
    unfold x18
    refine foldl_range_upd ?_ fun x21 y hyx21 h20 => ?_
    · exact hx15
    · beta_reduce
      refine State.setReg_upd ?_ (testBit_of_sub hr rfl) (RegOk.glob rfl)
      exact h20
  try clear_value x18
  extract_lets -merge +onlyGivenNames x22
  have hx23 : Upd K R C s0 x22 := by
    unfold x22
    refine foldl_range_upd ?_ fun x25 y hyx25 h24 => ?_
    · exact hx19
    · beta_reduce
      refine State.setReg_upd ?_ (testBit_of_sub hr rfl) (RegOk.glob rfl)
      exact h24
  try clear_value x22
  refine modCap_upd ?_ (sub_of rfl hk)
  · refine dlogAdd_upd ?_ (sub_of rfl hk)
    · exact hx23

theorem finishDma_upd {s : State} (hs : Upd K R C s0 s) (hk : 0x800000100000000 ||| K = K) (hr : 0x8000000000000000000000000000000000000000000000 ||| R = R) :
    Upd K R C s0 (finishDma s) := by
  unfold finishDma
  refine Upd.ite ?_ ?_
  · exact hs
  · extract_lets -merge +onlyGivenNames x2
    extract_lets -merge +onlyGivenNames x4
    have hx5 : Upd K R C s0 x4 := by
      unfold x4
      refine State.setRf_upd ?_ (testBit_of_sub hr rfl) (RegOk.glob rfl)
      exact hs
    try clear_value x4
    refine Upd.ite ?_ ?_
    · refine State.setRb_upd ?_ (testBit_of_sub hr rfl) (RegOk.glob rfl)
      exact hx5
    · extract_lets -merge +onlyGivenNames x6
      extract_lets -merge +onlyGivenNames x8
      extract_lets -merge +onlyGivenNames x10
      extract_lets -merge +onlyGivenNames x12
      extract_lets -merge +onlyGivenNames x14
      extract_lets -merge +onlyGivenNames x16
      extract_lets -merge +onlyGivenNames x18
      extract_lets -merge +onlyGivenNames x20
      extract_lets -merge +onlyGivenNames x22
      extract_lets -merge +onlyGivenNames x24
      extract_lets -merge +onlyGivenNames x26
      have hx27 : Upd K R C s0 x26 := by
        unfold x26
        refine Upd.ite ?_ ?_
        · refine State.setRb_upd ?_ (testBit_of_sub hr rfl) (RegOk.glob rfl)
          exact hx5
        · exact hx5
      try clear_value x26
      extract_lets -merge +onlyGivenNames x28
      have hx29 : Upd K R C s0 x28 := by
        unfold x28
        refine Upd.ite ?_ ?_
        · exact hx27
        · refine State.emit_upd ?_ (sub_of rfl hk)
          · exact hx27
      try clear_value x28
      extract_lets -merge +onlyGivenNames x30
      have hx31 : Upd K R C s0 x30 := by
        unfold x30
        refine Upd.ite ?_ ?_
        · exact hx29
        · refine State.emit_upd ?_ (sub_of rfl hk)
          · exact hx29
      try clear_value x30
      refine msixSend_upd ?_ (sub_of rfl hk)
      · exact hx31

theorem replaceNow_upd {s : State} (hs : Upd K R C s0 s) (hk : 0x22000000000000 ||| K = K) (hr : 0x1200000000000000 ||| R = R) :
    Upd K R C s0 (replaceNow s) := by
  unfold replaceNow
  extract_lets -merge +onlyGivenNames x2
  have hx3 : Upd K R C s0 x2 := by
    unfold x2
    refine Upd.life ?_ (testBit_of_sub hk rfl) (tabSet_wf rfl)
    exact hs
  try clear_value x2
  extract_lets -merge +onlyGivenNames x4
  have hx5 : Upd K R C s0 x4 := by
    unfold x4
    refine State.setRb_upd ?_ (testBit_of_sub hr rfl) (RegOk.glob rfl)
    refine State.setRb_upd ?_ (testBit_of_sub hr rfl) (RegOk.glob rfl)
    exact hx3
  try clear_value x4
  refine Upd.replaceWait ?_ (testBit_of_sub hk rfl)
  exact hx5

theorem finishEnd_upd {s : State} (hs : Upd K R C s0 s) (hk : 0x822000510000000 ||| K = K) (hr : 0x4000008000000000000000000000000000001200000000000000 ||| R = R) :
    Upd K R C s0 (finishEnd s) := by
  unfold finishEnd
  extract_lets -merge +onlyGivenNames x2
  have hx3 : Upd K R C s0 x2 := by
    unfold x2
    refine State.setRb_upd ?_ (testBit_of_sub hr rfl) (RegOk.glob rfl)
    refine finishDma_upd ?_ (sub_of rfl hk) (sub_of rfl hr)
    · exact hs
  try clear_value x2
  extract_lets -merge +onlyGivenNames x4
  have hx5 : Upd K R C s0 x4 := by
    unfold x4
    refine modCap_upd ?_ (sub_of rfl hk)
    · exact hx3
  try clear_value x4
  extract_lets -merge +onlyGivenNames x6
  extract_lets -merge +onlyGivenNames x8
  have hx9 : Upd K R C s0 x8 := by
    unfold x8
    refine Upd.ring ?_ (testBit_of_sub hk rfl)
    exact hx5
  try clear_value x8
  refine Upd.ite ?_ ?_
  · refine replaceNow_upd ?_ (sub_of rfl hk) (sub_of rfl hr)
    · exact hx9
  · exact hx9

theorem finishLast_upd {s : State} (hs : Upd K R C s0 s) (hk : 0x800000010000000 ||| K = K) (hr : 0x17000008000000000000000000000000000000000000000000000 ||| R = R) :
    Upd K R C s0 (finishLast s) := by
  unfold finishLast
  extract_lets -merge +onlyGivenNames x2
  extract_lets -merge +onlyGivenNames x4
  have hx5 : Upd K R C s0 x4 := by
    unfold x4
    refine Upd.ite ?_ ?_
    · refine State.setRb_upd ?_ (testBit_of_sub hr rfl) (RegOk.glob rfl)
      exact hs
    · exact hs
  try clear_value x4
  extract_lets -merge +onlyGivenNames x6
  have hx7 : Upd K R C s0 x6 := by
    unfold x6
    refine Upd.ite ?_ ?_
    · refine State.emit_upd ?_ (sub_of rfl hk)
      · exact hx5
    · exact hx5
  try clear_value x6
  extract_lets -merge +onlyGivenNames x8
  have hx9 : Upd K R C s0 x8 := by
    unfold x8
    refine foldl_range_upd ?_ fun x11 y hyx11 h10 => ?_
    · exact hx7
    · beta_reduce
      refine State.setReg_upd ?_ (testBit_of_sub hr rfl) (RegOk.glob rfl)
      exact h10
  try clear_value x8
  extract_lets -merge +onlyGivenNames x12
  have hx13 : Upd K R C s0 x12 := by
    unfold x12
    refine State.setPair_upd ?_ (testBit_of_sub hr rfl) (RegOk.glob rfl) (testBit_of_sub hr rfl) (RegOk.glob rfl)
    exact hx9
  try clear_value x12
  refine modCap_upd ?_ (sub_of rfl hk)
  · refine setCapState_upd ?_ (sub_of rfl hr)
    · exact hx13

theorem dmaStatus_upd {h' : Nat} {k : Fin 2} {code : Nat} {s : State} (hs : Upd K R C s0 s) (hk : 0x800000000000000 ||| K = K) :
    Upd K R C s0 (dmaStatus h' k code s) := by
  unfold dmaStatus
  refine State.emit_upd ?_ (sub_of rfl hk)
  · exact hs

theorem dmaStop_upd {h' : Nat} {k : Fin 2} {s : State} (hs : Upd K R C s0 s) (hr : 0x411000000 ||| R = R) :
    Upd K R C s0 (dmaStop h' k s) := by
  unfold dmaStop
  refine State.setRb_upd ?_ (testBit_of_sub hr rfl) (RegOk.glob rfl)
  refine State.setRb_upd ?_ (testBit_of_sub hr (by unfold dmaCtrl; split <;> rfl)) (RegOk.glob (by unfold dmaCtrl; split <;> rfl))
  exact hs

theorem resetElem_upd {r : Reg} {i : Nat} {s : State} (hs : Upd K R C s0 s) (hr : R.testBit r.ctorIdx = true)
    (hro : RegOk C r i) : Upd K R C s0 (resetElem r i s) := State.setReg_upd hs hr hro

theorem domainRegs_spec : ∀ r ∈ domainRegs, Nat.testBit 0xffffffffffffffffffffffffffffffffffffffffffffffffffffffffffffffffffffffffffffffffffffffffffffffffffffffffffffffffffffffffffffffff r.ctorIdx = true ∧ r.row.cluster = false := by decide

theorem domainReset_upd {h' : Nat} {s : State} (hs : Upd K R C s0 s)
    (hk : 0x1e3000000 ||| K = K) (hr : 0xffffffffffffffffffffffffffffffffffffffffffffffffffffffffffffffffffffffffffffffffffffffffffffffffffffffffffffffffffffffffffffffff ||| R = R) : Upd K R C s0 (domainReset h' s) := by
  unfold domainReset
  extract_lets s1 s2 s3 s4
  have key : ∀ l : List Reg, (∀ r ∈ l, r ∈ domainRegs) → ∀ s, Upd K R C s0 s →
      Upd K R C s0 (l.foldl (fun s r => resetElem r h' s) s) := by
    intro l
    induction l with
    | nil => intro _ s h; exact h
    | cons p r ih =>
      intro hl s h
      have hp := domainRegs_spec p (hl p (List.mem_cons_self ..))
      exact ih (fun q hq => hl q (List.mem_cons_of_mem _ hq)) _
        (resetElem_upd h (testBit_of_sub hr hp.1) (RegOk.glob hp.2))
  have h1 : Upd K R C s0 s1 := key domainRegs (fun _ h => h) s hs
  clear_value s1
  have h2 : Upd K R C s0 s2 :=
    foldl_upd h1 fun s i h => resetElem_upd h (testBit_of_sub hr (by unfold evtPend; split <;> rfl))
      (RegOk.glob (by unfold evtPend; split <;> rfl))
  clear_value s2
  refine lotMask_upd (semPurge_upd ?_ (sub_of rfl hk) (sub_of rfl hr)) (sub_of rfl hk) (sub_of rfl hr)
  refine Upd.txns ?_ (testBit_of_sub hk rfl) (tabSet_wf rfl)
  refine Upd.pba ?_ (testBit_of_sub hk rfl) (filter_wf _)
  exact Upd.msix h2 (testBit_of_sub hk rfl) (filter_wf _)

theorem domainSleep_upd {h' : Nat} {s : State} (hs : Upd K R C s0 s) (hk : 0x3000000 ||| K = K) (hr : 0x1000000000000000411400000 ||| R = R) :
    Upd K R C s0 (domainSleep h' s) := by
  unfold domainSleep
  extract_lets -merge +onlyGivenNames x3
  refine lotMask_upd ?_ (sub_of rfl hk) (sub_of rfl hr)
  · refine State.setRb_upd ?_ (testBit_of_sub hr rfl) (RegOk.glob rfl)
    refine State.setRb_upd ?_ (testBit_of_sub hr rfl) (RegOk.glob rfl)
    refine State.setRf_upd ?_ (testBit_of_sub hr rfl) (RegOk.glob rfl)
    try unfold x3
    beta_reduce
    refine Upd.ite ?_ ?_
    · refine dmaStop_upd ?_ (sub_of rfl hr)
      · try unfold x3
        beta_reduce
        refine Upd.ite ?_ ?_
        · refine dmaStop_upd ?_ (sub_of rfl hr)
          · exact hs
        · exact hs
    · try unfold x3
      beta_reduce
      refine Upd.ite ?_ ?_
      · refine dmaStop_upd ?_ (sub_of rfl hr)
        · exact hs
      · exact hs

theorem mgmtSet_upd {d : Word} {m : Word} {s : State} (hs : Upd K R C s0 s) (hr : 0x40000 ||| R = R) :
    ActUpd K R C s0 (mgmtSet d m s) := by
  unfold mgmtSet
  extract_lets -merge +onlyGivenNames x4
  refine ActUpd.ite ?_ ?_
  · refine ActUpd.drop ?_
    exact hs
  · refine ActUpd.ok ?_
    refine State.setReg_upd ?_ (testBit_of_sub hr rfl) (RegOk.glob rfl)
    exact hs

theorem cluOwnerSet_upd {n : Nat} {d : Word} {m : Word} {s : State} (hs : Upd K R C s0 s) (hr : 0x80000 ||| R = R) :
    ActUpd K R C s0 (cluOwnerSet n d m s) := by
  unfold cluOwnerSet
  extract_lets -merge +onlyGivenNames x5
  refine ActUpd.ite ?_ ?_
  · refine ActUpd.drop ?_
    exact hs
  · refine ActUpd.ok ?_
    refine State.setReg_upd ?_ (testBit_of_sub hr rfl) (RegOk.glob rfl)
    exact hs

theorem State.setTxn_upd {s : State} {h' : Nat} {v : Txn} (hs : Upd K R C s0 s) (hk : 0x40000000 ||| K = K) :
    Upd K R C s0 (State.setTxn s h' v) := by
  unfold State.setTxn
  refine Upd.txns ?_ (testBit_of_sub hk rfl) (tabSet_wf rfl)
  exact hs

theorem txnEnd_upd {h' : Nat} {code : Nat} {idx : Nat} {addr : Nat} {res : Nat} {s : State} (hs : Upd K R C s0 s) (hk : 0x40000000 ||| K = K) (hr : 0x720001000000 ||| R = R) :
    Upd K R C s0 (txnEnd h' code idx addr res s) := by
  unfold txnEnd
  refine State.setRb_upd ?_ (testBit_of_sub hr rfl) (RegOk.glob rfl)
  refine State.setReg_upd ?_ (testBit_of_sub hr rfl) (RegOk.glob rfl)
  refine State.setReg_upd ?_ (testBit_of_sub hr rfl) (RegOk.glob rfl)
  refine State.setReg_upd ?_ (testBit_of_sub hr rfl) (RegOk.glob rfl)
  refine State.setRf_upd ?_ (testBit_of_sub hr rfl) (RegOk.glob rfl)
  refine State.setTxn_upd ?_ (sub_of rfl hk)
  · exact hs

theorem txnIgn_upd {h' : Nat} {s : State} (hs : Upd K R C s0 s) (hr : 0x1000000 ||| R = R) :
    Upd K R C s0 (txnIgn h' s) := by
  unfold txnIgn
  refine State.setRb_upd ?_ (testBit_of_sub hr rfl) (RegOk.glob rfl)
  exact hs

theorem txnOpen_upd {h' : Nat} {s : State} (hs : Upd K R C s0 s) (hk : 0x40000000 ||| K = K) (hr : 0x120000000000 ||| R = R) :
    Upd K R C s0 (txnOpen h' s) := by
  unfold txnOpen
  refine State.setReg_upd ?_ (testBit_of_sub hr rfl) (RegOk.glob rfl)
  refine State.setReg_upd ?_ (testBit_of_sub hr rfl) (RegOk.glob rfl)
  refine State.setTxn_upd ?_ (sub_of rfl hk)
  · exact hs

theorem txnRequest_upd {h' : Nat} {s : State} (hs : Upd K R C s0 s) (hk : 0x40000000 ||| K = K) (hr : 0x720001000000 ||| R = R) :
    Upd K R C s0 (txnRequest h' s) := by
  unfold txnRequest
  extract_lets -merge +onlyGivenNames x3
  extract_lets -merge +onlyGivenNames x5
  extract_lets -merge +onlyGivenNames x7
  refine Upd.ite ?_ ?_
  · refine txnEnd_upd ?_ (sub_of rfl hk) (sub_of rfl hr)
    · exact hs
  · extract_lets -merge +onlyGivenNames x9
    extract_lets -merge +onlyGivenNames x11
    refine State.setRf_upd ?_ (testBit_of_sub hr rfl) (RegOk.glob rfl)
    refine State.setTxn_upd ?_ (sub_of rfl hk)
    · exact hs

theorem txnCtrl_upd {h' : Nat} {d : Word} {m : Word} {s0' : State} (hs0' : Upd K R C s0 s0') (hk : 0x40000000 ||| K = K) (hr : 0x730001000000 ||| R = R) :
    Upd K R C s0 (txnCtrl h' d m s0') := by
  unfold txnCtrl
  extract_lets -merge +onlyGivenNames x5
  have hx6 : Upd K R C s0 x5 := by
    unfold x5
    refine plainWrite_upd ?_ (testBit_of_sub hr rfl) (RegOk.glob rfl)
    exact hs0'
  try clear_value x5
  extract_lets -merge +onlyGivenNames x7
  extract_lets -merge +onlyGivenNames x9
  extract_lets -merge +onlyGivenNames x11
  split
  · refine Upd.ite ?_ ?_
    · refine Upd.ite ?_ ?_
      · refine txnIgn_upd ?_ (sub_of rfl hr)
        · refine txnOpen_upd ?_ (sub_of rfl hk) (sub_of rfl hr)
          · exact hx6
      · refine txnOpen_upd ?_ (sub_of rfl hk) (sub_of rfl hr)
        · exact hx6
    · refine Upd.ite ?_ ?_
      · refine txnIgn_upd ?_ (sub_of rfl hr)
        · exact hx6
      · exact hx6
  · extract_lets -merge +onlyGivenNames x13
    have hx14 : Upd K R C s0 x13 := by
      unfold x13
      refine Upd.ite ?_ ?_
      · refine txnIgn_upd ?_ (sub_of rfl hr)
        · exact hx6
      · exact hx6
    try clear_value x13
    refine Upd.ite ?_ ?_
    · refine txnEnd_upd ?_ (sub_of rfl hk) (sub_of rfl hr)
      · exact hx14
    · refine Upd.ite ?_ ?_
      · refine txnRequest_upd ?_ (sub_of rfl hk) (sub_of rfl hr)
        · exact hx14
      · exact hx14
  · extract_lets -merge +onlyGivenNames x15
    have hx16 : Upd K R C s0 x15 := by
      unfold x15
      refine Upd.ite ?_ ?_
      · refine txnIgn_upd ?_ (sub_of rfl hr)
        · exact hx6
      · exact hx6
    try clear_value x15
    refine Upd.ite ?_ ?_
    · refine txnEnd_upd ?_ (sub_of rfl hk) (sub_of rfl hr)
      · exact hx16
    · exact hx16

theorem txnStage_upd {h' : Nat} {w : Staged} {s : State} (hs : Upd K R C s0 s) (hk : 0x40000000 ||| K = K) (hr : 0x20000000000 ||| R = R) :
    Upd K R C s0 (txnStage h' w s) := by
  unfold txnStage
  extract_lets -merge +onlyGivenNames x4
  refine Upd.ite ?_ ?_
  · refine State.setRf_upd ?_ (testBit_of_sub hr rfl) (RegOk.glob rfl)
    refine State.setTxn_upd ?_ (sub_of rfl hk)
    · exact hs
  · extract_lets -merge +onlyGivenNames x6
    have hx7 : Upd K R C s0 x6 := by
      unfold x6
      refine State.setRb_upd ?_ (testBit_of_sub hr rfl) (RegOk.glob rfl)
      exact hs
    try clear_value x6
    refine Upd.ite ?_ ?_
    · exact hx7
    · refine State.setTxn_upd ?_ (sub_of rfl hk)
      · exact hx7

end Sys2Proof.Machine
end

