-- ==== Sys2Proof/Laws/Frames4.lean ====
section
/-! SUPPORT. Sys2Proof/Laws/Frames4.lean: what each operation of Machine/ResetOps, EventOps, Thermal, FaultOps, PatchOps, PowerOps, SerialOps, StoreOps, GenOps, RegRead
may change: parts and registers as bits of two numbers, and where (Laws/Upd.lean). Each lemma carries Inv and the queue of
commands over its operation. -/

set_option linter.unusedVariables false

namespace Sys2Proof.Machine

variable {K R : Nat} {C : Nat → Nat → Prop} {s0 : State}

theorem resetChan_upd {n : Cluster} {c : Channel} {s : State} (hs : Upd K R C s0 s) (hk : 0x40 ||| K = K) (hc : C n.val c.val) :
    Upd K R C s0 (resetChan n c s) := by
  unfold resetChan
  extract_lets -merge +onlyGivenNames x4
  refine State.setChan_upd ?_ (sub_of rfl hk) hc
  · exact hs

theorem resetHidden_upd {n : Cluster} {s : State} (hs : Upd K R C s0 s) (hk : 0x40000007f40 ||| K = K) (hc : ∀ c, C n.val c) :
    Upd K R C s0 (resetHidden n s) := by
  unfold resetHidden
  extract_lets -merge +onlyGivenNames x3
  have hx4 : Upd K R C s0 x3 := by
    unfold x3
    refine forChannels_upd (fun z5 z6 h7 => ?_) ?_
    · beta_reduce
      refine resetChan_upd ?_ (sub_of rfl hk) (hc _)
      · exact h7
    · exact hs
  try clear_value x3
  extract_lets -merge +onlyGivenNames x8
  have hx9 : Upd K R C s0 x8 := by
    unfold x8
    refine Upd.seqsAny ?_ (testBit_of_sub hk rfl) (fun k hk' => dropClu_get _ (ne_of_scope hc hk' (by simp))) (filter_wf _)
    exact hx4
  try clear_value x8
  extract_lets -merge +onlyGivenNames x10
  have hx11 : Upd K R C s0 x10 := by
    unfold x10
    refine Upd.hopsAny ?_ (testBit_of_sub hk rfl) (fun k hk' => dropClu_get _ (ne_of_scope hc hk' (by simp))) (filter_wf _)
    exact hx9
  try clear_value x10
  extract_lets -merge +onlyGivenNames x12
  have hx13 : Upd K R C s0 x12 := by
    unfold x12
    refine Upd.blankAtAny ?_ (testBit_of_sub hk rfl) (fun k hk' => dropClu_get _ (ne_of_scope hc hk' (by simp))) (filter_wf _)
    exact hx11
  try clear_value x12
  extract_lets -merge +onlyGivenNames x14
  have hx15 : Upd K R C s0 x14 := by
    unfold x14
    refine Upd.stampsAny ?_ (testBit_of_sub hk rfl) (fun k hk' => dropClu_get _ (ne_of_scope hc hk' (by simp))) (filter_wf _)
    exact hx13
  try clear_value x14
  extract_lets -merge +onlyGivenNames x16
  have hx17 : Upd K R C s0 x16 := by
    unfold x16
    refine Upd.trigsAny ?_ (testBit_of_sub hk rfl) (fun k hk' => dropClu_get _ (ne_of_scope hc hk' (by simp))) (filter_wf _)
    exact hx15
  try clear_value x16
  extract_lets -merge +onlyGivenNames x18
  have hx19 : Upd K R C s0 x18 := by
    unfold x18
    refine Upd.cptsAny ?_ (testBit_of_sub hk rfl) (fun k hk' => dropClu_get _ (ne_of_scope hc hk' (by simp))) (filter_wf _)
    exact hx17
  try clear_value x18
  extract_lets -merge +onlyGivenNames x20
  have hx21 : Upd K R C s0 x20 := by
    unfold x20
    refine Upd.awgsAny ?_ (testBit_of_sub hk rfl) (fun k hk' => dropClu_get _ (ne_of_scope hc hk' (by simp))) (filter_wf _)
    exact hx19
  try clear_value x20
  refine Upd.calAny ?_ (testBit_of_sub hk rfl) (fun k hk' => dropClu_get _ (ne_of_scope hc hk' (by simp))) (filter_wf _)
  exact hx21

theorem clusterReset_upd {n : Cluster} {s : State} (hs : Upd K R C s0 s)
    (hk : 0x40030007f40 ||| K = K) (hr : 0xffffffffffffffffffffffffffffffffffffffffffffffffffffffffffffffffffffffffffffffffffffffffffffffffffffffffffffffffffffffffffffffff ||| R = R) (hc : ∀ c, C n.val c) : Upd K R C s0 (clusterReset n s) := by
  unfold clusterReset
  extract_lets s1 s2
  have h1 : Upd K R C s0 s1 := capMark_upd (semPurge_upd hs (sub_of rfl hk) (sub_of rfl hr)) (sub_of rfl hk)
  clear_value s1
  have h2 : Upd K R C s0 s2 := by
    unfold s2
    refine resetHidden_upd ?_ (sub_of rfl hk) hc
    refine Upd.regsAny h1 (fun r i x => ?_) (fun r i x => ?_) (fun h => tabMap_wf _ (tabWf_rising h))
    · rw [testBit_of_sub hr (full_testBit r)] at x; exact absurd x (by decide)
    · rw [reg_resetRegs]
      have : ¬ (r.row.cluster ∧ Reg.cluOf r i = n.val) := fun y => x (RegOk.clu y.2 hc)
      rw [cluKeep, if_neg this]
      have e : ~~~(0xFFFFFFFF#32 : Word) = 0#32 := by decide
      rw [e, BitVec.and_zero, BitVec.or_zero]
      exact BitVec.and_allOnes (x := s1.reg r i)
  exact noteRamp_upd (State.setRb_upd h2 (testBit_of_sub hr rfl) (RegOk.glob rfl)) (sub_of rfl hr) ⟨0, hc 0⟩

theorem bandBack_upd {n : Cluster} {s : State} (hs : Upd K R C s0 s) (hk : 0x80 ||| K = K) (hr : 0x80000000000000000000000000000000000000000000000000000000000000000000000 ||| R = R) (hc : ∃ c, C n.val c) :
    Upd K R C s0 (bandBack n s) := by
  unfold bandBack
  extract_lets -merge +onlyGivenNames x3
  refine bandTake_upd ?_ (sub_of rfl hk) (sub_of rfl hr) hc
  · exact hs

theorem clusterBack_upd {n : Cluster} {s : State} (hs : Upd K R C s0 s) (hk : 0x80 ||| K = K) (hr : 0x80000000000000000000000000000000000000000000000000000000000000000000100 ||| R = R) (hc : ∃ c, C n.val c) :
    Upd K R C s0 (clusterBack n s) := by
  unfold clusterBack
  refine bandBack_upd ?_ (sub_of rfl hk) (sub_of rfl hr) hc
  · refine State.setRb_upd ?_ (testBit_of_sub hr rfl) (RegOk.glob rfl)
    exact hs

theorem warmBegin_upd {s : State} (hs : Upd K R C s0 s)
    (hk : 0x803627ffff7f40 ||| K = K) (hr : 0xffffffffffffffffffffffffffffffffffffffffffffffffffffffffffffffffffffffffffffffffffffffffffffffffffffffffffffffffffffffffffffffff ||| R = R) (hc : ∀ n c, C n c) : Upd K R C s0 (warmBegin s) := by
  unfold warmBegin
  have full : ∀ r : Reg, R.testBit r.ctorIdx = true := fun r => testBit_of_sub hr (full_testBit r)
  extract_lets s1 s2 s3
  have h1 : Upd K R C s0 s1 :=
    forClusters_upd (fun n s h => resetHidden_upd h (sub_of rfl hk) (hc _)) (ringOff_upd hs (sub_of rfl hk) (sub_of rfl hr))
  have h2 : Upd K R C s0 s2 := foldl_upd h1 fun s h z => domainReset_upd z (sub_of rfl hk) (sub_of rfl hr)
  have h3 : Upd K R C s0 s3 := by
    unfold s3
    clear_value s2
    refine h2.any hc rfl (fun p hp => ?_) full fun h => { h with
      regs := tabMap_wf _ (tabWf_rising h.regs), slcShadow := rfl, slcActive := rfl, slcCnt := rfl, present := rfl,
      grants := rfl, atoms := rfl, sems := rfl, hiLatch := rfl, gov := rfl }
    have e : ∀ q ∈ [Part.slcShadow, .slcActive, .slcAt, .slcFrame, .slcCnt, .lotTkt, .lotPend, .lfsrAt, .present, .waiting,
        .grants, .atoms, .cap, .sems, .hiLatch, .msp, .gov, .refDue, .refLast, .wakes], K.testBit q.ctorIdx = true := by
      intro q hq
      exact testBit_of_sub hk (by revert q; decide)
    cases p <;> first | rfl | (rw [e _ (by decide)] at hp; exact absurd hp (by decide))
  exact forClusters_upd (fun n s h => noteRamp_upd (setBudget_upd h (sub_of rfl hr) ⟨0, hc _ 0⟩) (sub_of rfl hr) ⟨0, hc _ 0⟩) h3

theorem warmBack_upd {s : State} (hs : Upd K R C s0 s) (hk : 0x40400000080 ||| K = K) (hr : 0x80004000000000000000000000000100040000000010000000000000000000000000000 ||| R = R) (hc : ∀ n c, C n c) :
    Upd K R C s0 (warmBack s) := by
  unfold warmBack
  extract_lets -merge +onlyGivenNames x2
  have hx3 : Upd K R C s0 x2 := by
    unfold x2
    refine State.setReg_upd ?_ (testBit_of_sub hr rfl) (RegOk.glob rfl)
    exact hs
  try clear_value x2
  extract_lets -merge +onlyGivenNames x4
  have hx5 : Upd K R C s0 x4 := by
    unfold x4
    refine forClusters_upd (fun z6 z7 h8 => ?_) ?_
    · beta_reduce
      refine bandBack_upd ?_ (sub_of rfl hk) (sub_of rfl hr) ⟨0, hc _ 0⟩
      · exact h8
    · refine ringFollow_upd ?_ (sub_of rfl hk) (sub_of rfl hr)
      · exact hx3
  try clear_value x4
  refine Upd.ite ?_ ?_
  · refine forClusters_upd (fun z9 z10 h11 => ?_) ?_
    · beta_reduce
      refine calBecomeDue_upd ?_ (sub_of rfl hk) (sub_of rfl hr) ⟨0, hc _ 0⟩
      · exact h11
    · exact hx5
  · exact hx5

theorem degrade_upd {n : Option Nat} {s : State} (hs : Upd K R C s0 s) (hk : 0x22000000000000 ||| K = K) (hr : 0x1200000000000000 ||| R = R) :
    Upd K R C s0 (degrade n s) := by
  unfold degrade
  split
  · refine Upd.ite ?_ ?_
    · refine Upd.replaceWait ?_ (testBit_of_sub hk rfl)
      exact hs
    · refine replaceNow_upd ?_ (sub_of rfl hk) (sub_of rfl hr)
      · exact hs
  · refine replaceNow_upd ?_ (sub_of rfl hk) (sub_of rfl hr)
    · exact hs

theorem countRetire_upd {s : State} (hs : Upd K R C s0 s) (hk : 0x2000000000000 ||| K = K) :
    Upd K R C s0 (countRetire s) := by
  unfold countRetire
  extract_lets -merge +onlyGivenNames x2
  have hx3 : Upd K R C s0 x2 := by
    unfold x2
    refine lifeCount_upd ?_ (sub_of rfl hk)
    · exact hs
  try clear_value x2
  refine Upd.ite ?_ ?_
  · refine Upd.life ?_ (testBit_of_sub hk rfl) (tabSet_wf rfl)
    exact hx3
  · exact hx3

theorem retireMark_upd {n : Cluster} {c : Channel} {s : State} (hs : Upd K R C s0 s) (hk : 0x402000000000040 ||| K = K) (hr : 0x3fff9c00000000000000000020240c0000000c00000000000000000000000000000000000000000000000020000000000000000 ||| R = R) (hc : C n.val c.val) :
    Upd K R C s0 (retireMark n c s) := by
  unfold retireMark
  extract_lets -merge +onlyGivenNames x4
  have hx5 : Upd K R C s0 x4 := by
    unfold x4
    refine State.setRb_upd ?_ (testBit_of_sub hr rfl) (RegOk.glob rfl)
    refine State.setRb_upd ?_ (testBit_of_sub hr rfl) (RegOk.chan rfl hc)
    exact hs
  try clear_value x4
  refine forcedSafe_upd ?_ (sub_of rfl hk) (sub_of rfl hr) hc
  · refine Upd.life ?_ (testBit_of_sub hk rfl) (tabSet_wf rfl)
    exact hx5

theorem retireChannel_upd {n : Cluster} {c : Channel} {s : State} (hs : Upd K R C s0 s) (hk : 0x422000000000040 ||| K = K) (hr : 0x3fff9c00000000000000000020240c0000000c00000000000000000000000000000000000000000000000021200000000000000 ||| R = R) (hc : C n.val c.val) :
    Upd K R C s0 (retireChannel n c s) := by
  unfold retireChannel
  refine Upd.ite ?_ ?_
  · exact hs
  · refine degrade_upd ?_ (sub_of rfl hk) (sub_of rfl hr)
    · refine countRetire_upd ?_ (sub_of rfl hk)
      · refine retireMark_upd ?_ (sub_of rfl hk) (sub_of rfl hr) hc
        · exact hs

theorem retireCluster_upd {n : Cluster} {s : State} (hs : Upd K R C s0 s) (hk : 0x422000020004140 ||| K = K) (hr : 0x83f3fff9c12000200000000000020240c0000000c00002000000000000000000000000000000800050000000031200000000000000 ||| R = R) (hc : ∀ c, C n.val c) :
    Upd K R C s0 (retireCluster n s) := by
  unfold retireCluster
  refine Upd.ite ?_ ?_
  · exact hs
  · extract_lets -merge +onlyGivenNames x3
    have hx4 : Upd K R C s0 x3 := by
      unfold x3
      refine Upd.ite ?_ ?_
      · exact hs
      · refine trapSeq_upd ?_ (sub_of rfl hk) (sub_of rfl hr) hc
        · exact hs
    try clear_value x3
    extract_lets -merge +onlyGivenNames x5
    have hx6 : Upd K R C s0 x5 := by
      unfold x5
      refine forChannels_upd (fun z7 z8 h9 => ?_) ?_
      · beta_reduce
        refine Upd.ite ?_ ?_
        · exact h9
        · refine retireMark_upd ?_ (sub_of rfl hk) (sub_of rfl hr) (hc _)
          · exact h9
      · exact hx4
    try clear_value x5
    extract_lets -merge +onlyGivenNames x10
    have hx11 : Upd K R C s0 x10 := by
      unfold x10
      refine State.setRb_upd ?_ (testBit_of_sub hr rfl) (RegOk.one rfl ⟨0, hc 0⟩)
      refine stopAwgs_upd ?_ (sub_of rfl hk) (sub_of rfl hr) hc
      · exact hx6
    try clear_value x10
    extract_lets -merge +onlyGivenNames x12
    have hx13 : Upd K R C s0 x12 := by
      unfold x12
      refine State.setRb_upd ?_ (testBit_of_sub hr rfl) (RegOk.glob rfl)
      refine State.setRb_upd ?_ (testBit_of_sub hr rfl) (RegOk.glob rfl)
      refine semPurge_upd ?_ (sub_of rfl hk) (sub_of rfl hr)
      · exact hx11
    try clear_value x12
    extract_lets -merge +onlyGivenNames x14
    have hx15 : Upd K R C s0 x14 := by
      unfold x14
      refine Upd.life ?_ (testBit_of_sub hk rfl) (tabSet_wf rfl)
      exact hx13
    try clear_value x14
    refine degrade_upd ?_ (sub_of rfl hk) (sub_of rfl hr)
    · refine countRetire_upd ?_ (sub_of rfl hk)
      · exact hx15

theorem retireMask_upd {n : Cluster} {mask : Word} {s : State} (hs : Upd K R C s0 s) (hk : 0x422000000000040 ||| K = K) (hr : 0x3fff9c00000000000000000020240c0000000c00000000000000000000000000000000000000000000000021200000000000000 ||| R = R) (hc : ∀ c, C n.val c) :
    Upd K R C s0 (retireMask n mask s) := by
  unfold retireMask
  refine forChannels_upd (fun z4 z5 h6 => ?_) ?_
  · beta_reduce
    refine Upd.ite ?_ ?_
    · refine retireChannel_upd ?_ (sub_of rfl hk) (sub_of rfl hr) (hc _)
      · exact h6
    · exact h6
  · exact hs

theorem assayAdd_upd {n : Nat} {chans : Word} {ctgt : Nat} {s : State} (hs : Upd K R C s0 s)
    (hk : 0x1000000000000 ||| K = K) (hr : 0xc000000000000000000 ||| R = R) : Upd K R C s0 (assayAdd n chans ctgt s) := by
  unfold assayAdd
  refine Upd.ite hs ?_
  split
  · extract_lets
    exact Upd.assay hs (testBit_of_sub hk rfl) fun h => tabInsert_rising (Nat.zero_le _) (tabErase_rising h)
  · extract_lets
    refine State.setRb_upd ?_ (testBit_of_sub hr rfl) (RegOk.glob rfl)
    refine State.setRf_upd ?_ (testBit_of_sub hr rfl) (RegOk.glob rfl)
    exact State.setReg_upd hs (testBit_of_sub hr rfl) (RegOk.glob rfl)

theorem asyCtrlWrite_upd {d : Word} {m : Word} {s : State} (hs : Upd K R C s0 s) (hk : 0x1000000000000 ||| K = K) (hr : 0xc000000000000000000 ||| R = R) :
    Upd K R C s0 (asyCtrlWrite d m s) := by
  unfold asyCtrlWrite
  extract_lets -merge +onlyGivenNames x4
  extract_lets -merge +onlyGivenNames x6
  extract_lets -merge +onlyGivenNames x8
  refine Upd.ite ?_ ?_
  · refine assayAdd_upd ?_ (sub_of rfl hk) (sub_of rfl hr)
    · exact hs
  · exact hs

theorem State.setFlt_upd {s : State} {k : Nat} {v : FltSrc} (hs : Upd K R C s0 s) (hk : 0x800000000000 ||| K = K) :
    Upd K R C s0 (State.setFlt s k v) := by
  unfold State.setFlt
  refine Upd.faults ?_ (testBit_of_sub hk rfl) (tabSet_wf rfl)
  exact hs

theorem execEventMessage_upd {t : Nat} {h' : Dom} {k : Source} {s0' : State} (hs0' : Upd K R C s0 s0') (hk : 0x800000100000001 ||| K = K) (hr : 0x78000000000000 ||| R = R) :
    ResUpd K R C s0 (execEventMessage t h' k s0') := by
  unfold execEventMessage
  extract_lets -merge +onlyGivenNames x5
  have hx6 : Upd K R C s0 x5 := by
    unfold x5
    refine State.at_upd ?_ (sub_of rfl hk)
    · exact hs0'
  try clear_value x5
  refine ResUpd.next ?_
  refine Upd.ite ?_ ?_
  · refine msixSend_upd ?_ (sub_of rfl hk)
    · refine State.setRb_upd ?_ (testBit_of_sub hr (by unfold evtPend; split <;> rfl)) (RegOk.glob (by unfold evtPend; split <;> rfl))
      exact hx6
  · exact hx6

theorem execSensorConversion_upd {t : Nat} {j : Sensor} {reading : SensorObs} {s0' : State} (hs0' : Upd K R C s0 s0') (hk : 0x600070000004141 ||| K = K) (hr : 0x83f3fff9c120002000000000000202404c000104c00000000000000000000000000000003120000000000000000000000000000000 ||| R = R) (hc : ∀ n c, C n c) :
    ResUpd K R C s0 (execSensorConversion t j reading s0') := by
  unfold execSensorConversion
  extract_lets -merge +onlyGivenNames x5
  have hx6 : Upd K R C s0 x5 := by
    unfold x5
    refine State.at_upd ?_ (sub_of rfl hk)
    · exact hs0'
  try clear_value x5
  refine ResUpd.next ?_
  refine Upd.ite ?_ ?_
  · exact hx6
  · split
    · refine govAll_upd ?_ (sub_of rfl hk) (sub_of rfl hr) hc
      · refine Upd.ite ?_ ?_
        · refine sensorFault_upd ?_ (sub_of rfl hk) (sub_of rfl hr)
          · exact hx6
        · refine sensorGood_upd ?_ (sub_of rfl hk) (sub_of rfl hr)
          · exact hx6
    · split
      · rename_i y7 y8 he9
        have hy10 := SndUpd.of_eq he9 (K := K) (R := R) (C := C) (s0 := s0) (by
          refine State.drawWord_upd ?_ (sub_of rfl hk)
          · exact hx6
          )
        refine govAll_upd ?_ (sub_of rfl hk) (sub_of rfl hr) hc
        · refine sensorFault_upd ?_ (sub_of rfl hk) (sub_of rfl hr)
          · exact hy10

theorem execGovernorStop_upd {t : Nat} {n : Cluster} {s0' : State} (hs0' : Upd K R C s0 s0') (hk : 0x400020000002141 ||| K = K) (hr : 0x13fff9c0000005800000000000000000000100c00000000000000000000000000000000100000000000000000000000000000000 ||| R = R) (hc : ∀ c, C n.val c) :
    ResUpd K R C s0 (execGovernorStop t n s0') := by
  unfold execGovernorStop
  extract_lets -merge +onlyGivenNames x4
  have hx5 : Upd K R C s0 x4 := by
    unfold x4
    refine State.at_upd ?_ (sub_of rfl hk)
    · exact hs0'
  try clear_value x4
  extract_lets -merge +onlyGivenNames x6
  extract_lets -merge +onlyGivenNames x8
  extract_lets -merge +onlyGivenNames x10
  refine ResUpd.next ?_
  refine Upd.ite ?_ ?_
  · refine govStop_upd ?_ (sub_of rfl hk) (sub_of rfl hr) hc
    · exact hx5
  · exact hx5

theorem execRefCalibration_upd {t : Nat} {microvolt : Nat} {s0' : State} (hs0' : Upd K R C s0 s0') (hk : 0x300020000001 ||| K = K) (hr : 0x4280000000050000000000000000000000000 ||| R = R) :
    ResUpd K R C s0 (execRefCalibration t microvolt s0') := by
  unfold execRefCalibration
  extract_lets -merge +onlyGivenNames x4
  have hx5 : Upd K R C s0 x4 := by
    unfold x4
    refine State.at_upd ?_ (sub_of rfl hk)
    · exact hs0'
  try clear_value x4
  extract_lets -merge +onlyGivenNames x6
  extract_lets -merge +onlyGivenNames x8
  refine ResUpd.next ?_
  refine Upd.ite ?_ ?_
  · extract_lets -merge +onlyGivenNames x10
    have hx11 : Upd K R C s0 x10 := by
      unfold x10
      refine State.setReg_upd ?_ (testBit_of_sub hr rfl) (RegOk.glob rfl)
      refine State.setReg_upd ?_ (testBit_of_sub hr rfl) (RegOk.glob rfl)
      exact hx5
    try clear_value x10
    extract_lets -merge +onlyGivenNames x12
    have hx13 : Upd K R C s0 x12 := by
      unfold x12
      refine Upd.ite ?_ ?_
      · exact hx11
      · refine State.setRb_upd ?_ (testBit_of_sub hr rfl) (RegOk.glob rfl)
        exact hx11
    try clear_value x12
    extract_lets -merge +onlyGivenNames x14
    have hx15 : Upd K R C s0 x14 := by
      unfold x14
      refine State.setRb_upd ?_ (testBit_of_sub hr rfl) (RegOk.glob rfl)
      exact hx13
    try clear_value x14
    extract_lets -merge +onlyGivenNames x16
    have hx17 : Upd K R C s0 x16 := by
      unfold x16
      refine Upd.refDue ?_ (testBit_of_sub hk rfl)
      exact hx15
    try clear_value x16
    refine semCalRelease_upd ?_ (sub_of rfl hk) (sub_of rfl hr)
    · refine Upd.refLast ?_ (testBit_of_sub hk rfl)
      exact hx17
  · exact hx5

theorem execTrimRampStep_upd {t : Nat} {n : Cluster} {w : TrimAddr} {s0' : State} (hs0' : Upd K R C s0 s0') (hk : 0x80000000001 ||| K = K) (hr : 0xffffffffffffffffffffffffffffffffffffffffffffffffffffffffffffffffffffffffffffffffffffffffffffffffffffffffffffffffffffffffffffffff ||| R = R) (hc : ∃ c, C n.val c) :
    ResUpd K R C s0 (execTrimRampStep t n w s0') := by
  unfold execTrimRampStep
  extract_lets -merge +onlyGivenNames x5
  have hx6 : Upd K R C s0 x5 := by
    unfold x5
    refine State.at_upd ?_ (sub_of rfl hk)
    · exact hs0'
  try clear_value x5
  extract_lets -merge +onlyGivenNames x7
  extract_lets -merge +onlyGivenNames x9
  extract_lets -merge +onlyGivenNames x11
  extract_lets -merge +onlyGivenNames x13
  extract_lets -merge +onlyGivenNames x15
  refine ResUpd.next ?_
  refine Upd.ite ?_ ?_
  · exact hx6
  · refine Upd.ite ?_ ?_
    · refine noteRamp_upd ?_ (sub_of rfl hr) hc
      · refine setTrimNow_upd ?_ (sub_of rfl hk)
        · exact hx6
    · refine Upd.ite ?_ ?_
      · refine noteRamp_upd ?_ (sub_of rfl hr) hc
        · refine setTrimNow_upd ?_ (sub_of rfl hk)
          · exact hx6
      · exact hx6

theorem execCalDue_upd {t : Nat} {n : Cluster} {s0' : State} (hs0' : Upd K R C s0 s0') (hk : 0x40000000001 ||| K = K) (hr : 0x4000000000000000000000000000000000000000000000000000000000000000000 ||| R = R) (hc : ∃ c, C n.val c) :
    ResUpd K R C s0 (execCalDue t n s0') := by
  unfold execCalDue
  extract_lets -merge +onlyGivenNames x4
  have hx5 : Upd K R C s0 x4 := by
    unfold x4
    refine State.at_upd ?_ (sub_of rfl hk)
    · exact hs0'
  try clear_value x4
  extract_lets -merge +onlyGivenNames x6
  refine ResUpd.next ?_
  refine Upd.ite ?_ ?_
  · refine calBecomeDue_upd ?_ (sub_of rfl hk) (sub_of rfl hr) hc
    · exact hx5
  · exact hx5

theorem execCalStepStart_upd {t : Nat} {n : Cluster} {s0' : State} (hs0' : Upd K R C s0 s0') (hk : 0x140020000001 ||| K = K) (hr : 0x4000000000000000000000000000000000000800000000000000000000000000000 ||| R = R) (hc : ∃ c, C n.val c) :
    ResUpd K R C s0 (execCalStepStart t n s0') := by
  unfold execCalStepStart
  extract_lets -merge +onlyGivenNames x4
  have hx5 : Upd K R C s0 x4 := by
    unfold x4
    refine State.at_upd ?_ (sub_of rfl hk)
    · exact hs0'
  try clear_value x4
  refine ResUpd.next ?_
  refine Upd.ite ?_ ?_
  · refine Upd.ite ?_ ?_
    · refine refRequest_upd ?_ (sub_of rfl hk)
      · exact hx5
    · refine State.setCalSt_upd ?_ (sub_of rfl hk) hc
      · refine State.setRb_upd ?_ (testBit_of_sub hr rfl) (RegOk.one rfl hc)
        refine ungate_upd ?_ (sub_of rfl hr)
        · exact hx5
  · exact hx5

theorem execCalStepEnd_upd {t : Nat} {n : Cluster} {res : List (Nat × Word)} {s0' : State} (hs0' : Upd K R C s0 s0') (hk : 0x4000c0000000041 ||| K = K) (hr : 0xffffffffffffffffffffffffffffffffffffffffffffffffffffffffffffffffffffffffffffffffffffffffffffffffffffffffffffffffffffffffffffffff ||| R = R) (hc : ∀ c, C n.val c) :
    ResUpd K R C s0 (execCalStepEnd t n res s0') := by
  unfold execCalStepEnd
  extract_lets -merge +onlyGivenNames x5
  have hx6 : Upd K R C s0 x5 := by
    unfold x5
    refine State.at_upd ?_ (sub_of rfl hk)
    · exact hs0'
  try clear_value x5
  refine ResUpd.next ?_
  refine Upd.ite ?_ ?_
  · extract_lets -merge +onlyGivenNames x7
    have hx8 : Upd K R C s0 x7 := by
      unfold x7
      refine stepCommit_upd ?_ (sub_of rfl hk) (sub_of rfl hr) hc
      · exact hx6
    try clear_value x7
    refine busPass_upd ?_ (sub_of rfl hk) hc
    · refine State.setCalSt_upd ?_ (sub_of rfl hk) ⟨0, hc 0⟩
      · refine State.setRb_upd ?_ (testBit_of_sub hr rfl) (RegOk.one rfl ⟨0, hc 0⟩)
        exact hx8
  · refine Upd.ite ?_ ?_
    · refine stepCommit_upd ?_ (sub_of rfl hk) (sub_of rfl hr) hc
      · exact hx6
    · exact hx6

theorem execCalStepAbandon_upd {t : Nat} {n : Cluster} {s0' : State} (hs0' : Upd K R C s0 s0') (hk : 0x40000000041 ||| K = K) (hr : 0x104000000000000000000000000000000000000000000000000000000000000000000 ||| R = R) (hc : ∀ c, C n.val c) :
    ResUpd K R C s0 (execCalStepAbandon t n s0') := by
  unfold execCalStepAbandon
  refine ResUpd.next ?_
  refine calAbandon_upd ?_ (sub_of rfl hk) (sub_of rfl hr) hc
  · refine State.at_upd ?_ (sub_of rfl hk)
    · exact hs0'

theorem execCalDeadlineInterrupt_upd {t : Nat} {n : Cluster} {s0' : State} (hs0' : Upd K R C s0 s0') (hk : 0x400000000000041 ||| K = K) (hr : 0x3fff9c0000000000000000000000000000104c00000000000000000000000000000000000800000000000000000000000000000 ||| R = R) (hc : ∀ c, C n.val c) :
    ResUpd K R C s0 (execCalDeadlineInterrupt t n s0') := by
  unfold execCalDeadlineInterrupt
  extract_lets -merge +onlyGivenNames x4
  have hx5 : Upd K R C s0 x4 := by
    unfold x4
    refine State.at_upd ?_ (sub_of rfl hk)
    · exact hs0'
  try clear_value x4
  extract_lets -merge +onlyGivenNames x6
  refine ResUpd.next ?_
  refine Upd.ite ?_ ?_
  · refine forChannels_upd (fun z8 z9 h10 => ?_) ?_
    · beta_reduce
      refine intrChannel_upd ?_ (sub_of rfl hk) (sub_of rfl hr) (hc _)
      · exact h10
    · refine State.setRb_upd ?_ (testBit_of_sub hr rfl) (RegOk.one rfl ⟨0, hc 0⟩)
      refine State.setRb_upd ?_ (testBit_of_sub hr rfl) (RegOk.one rfl ⟨0, hc 0⟩)
      refine ungate_upd ?_ (sub_of rfl hr)
      · exact hx5
  · exact hx5

theorem execCalInterruptEnd_upd {t : Nat} {n : Cluster} {s0' : State} (hs0' : Upd K R C s0 s0') (hk : 0x400040000006341 ||| K = K) (hr : 0x2013fff9c1000021e00000000000000000000904c00000d0fd00000000000000000000000000000000000000000000000000000000 ||| R = R) (hc : ∀ c, C n.val c) :
    ResUpd K R C s0 (execCalInterruptEnd t n s0') := by
  unfold execCalInterruptEnd
  extract_lets -merge +onlyGivenNames x4
  have hx5 : Upd K R C s0 x4 := by
    unfold x4
    refine State.at_upd ?_ (sub_of rfl hk)
    · exact hs0'
  try clear_value x4
  refine ResUpd.next ?_
  refine Upd.ite ?_ ?_
  · extract_lets -merge +onlyGivenNames x6
    have hx7 : Upd K R C s0 x6 := by
      unfold x6
      refine forChannels_upd (fun z8 z9 h10 => ?_) ?_
      · beta_reduce
        refine intrBack_upd ?_ (sub_of rfl hk) (hc _)
        · exact h10
      · refine State.setRb_upd ?_ (testBit_of_sub hr rfl) (RegOk.one rfl ⟨0, hc 0⟩)
        exact hx5
    try clear_value x6
    extract_lets -merge +onlyGivenNames x11
    extract_lets -merge +onlyGivenNames x13
    extract_lets -merge +onlyGivenNames x15
    have hx16 : Upd K R C s0 x15 := by
      unfold x15
      refine State.setCalSt_upd ?_ (sub_of rfl hk) ⟨0, hc 0⟩
      · exact hx7
    try clear_value x15
    refine releaseHeld_upd ?_ (sub_of rfl hk) (sub_of rfl hr) hc
    · refine busPass_upd ?_ (sub_of rfl hk) hc
      · exact hx16
  · exact hx5

theorem noteErr_upd {s : State} (hs : Upd K R C s0 s) (hr : 0x200000000000000 ||| R = R) :
    Upd K R C s0 (noteErr s) := by
  unfold noteErr
  refine State.setRb_upd ?_ (testBit_of_sub hr rfl) (RegOk.glob rfl)
  exact hs

theorem vectorZero_upd {h' : Nat} {s : State} (hs : Upd K R C s0 s) (hk : 0x900000100000000 ||| K = K) :
    Upd K R C s0 (vectorZero h' s) := by
  unfold vectorZero
  refine Upd.ite ?_ ?_
  · refine msixSend_upd ?_ (sub_of rfl hk)
    · exact hs
  · refine Upd.owed ?_ (testBit_of_sub hk rfl)
    exact hs

theorem trapReact_upd {k : Nat} {s : State} (hs : Upd K R C s0 s) (hk : 0xd00000110004140 ||| K = K) (hr : 0x83f3fff9c1200020000000000002024040000000c00000000000000000000000000000000000000000000000000000000000000000 ||| R = R) (hc : ∀ n c, C n c) :
    Upd K R C s0 (trapReact k s) := by
  unfold trapReact
  extract_lets -merge +onlyGivenNames x3
  have hx4 : Upd K R C s0 x3 := by
    unfold x3
    refine forClusters_upd (fun z5 z6 h7 => ?_) ?_
    · beta_reduce
      refine Upd.ite ?_ ?_
      · refine capMark_upd ?_ (sub_of rfl hk)
        · refine nmiTrap_upd ?_ (sub_of rfl hk) (sub_of rfl hr) (hc _)
          · exact h7
      · exact h7
    · exact hs
  try clear_value x3
  refine foldl_upd ?_ fun x9 y h8 => ?_
  · exact hx4
  · beta_reduce
    refine vectorZero_upd ?_ (sub_of rfl hk)
    · exact h8

theorem blockReact_upd {k : Nat} {s : State} (hs : Upd K R C s0 s) (hk : 0x405f3007f40 ||| K = K) (hr : 0xffffffffffffffffffffffffffffffffffffffffffffffffffffffffffffffffffffffffffffffffffffffffffffffffffffffffffffffffffffffffffffffff ||| R = R) (hc : ∀ n c, C n c) :
    Upd K R C s0 (blockReact k s) := by
  unfold blockReact
  refine Upd.ite ?_ ?_
  · refine clusterReset_upd ?_ (sub_of rfl hk) (sub_of rfl hr) (hc _)
    · exact hs
  · refine Upd.ite ?_ ?_
    · refine domainReset_upd ?_ (sub_of rfl hk) (sub_of rfl hr)
      · exact hs
    · refine Upd.ite ?_ ?_
      · refine ringFollow_upd ?_ (sub_of rfl hk) (sub_of rfl hr)
        · refine ringOff_upd ?_ (sub_of rfl hk) (sub_of rfl hr)
          · exact hs
      · refine Upd.ite ?_ ?_
        · refine capAbort_upd ?_ (sub_of rfl hk) (sub_of rfl hr) hc
          · exact hs
        · exact hs

theorem react_upd {k : Nat} {bezel : Bool} {s : State} (hs : Upd K R C s0 s) (hk : 0xd80b62fffff7f40 ||| K = K) (hr : 0xffffffffffffffffffffffffffffffffffffffffffffffffffffffffffffffffffffffffffffffffffffffffffffffffffffffffffffffffffffffffffffffff ||| R = R) (hc : ∀ n c, C n c) :
    Upd K R C s0 (react k bezel s) := by
  unfold react
  extract_lets -merge +onlyGivenNames x4
  extract_lets -merge +onlyGivenNames x6
  extract_lets -merge +onlyGivenNames x8
  have hx9 : Upd K R C s0 x8 := by
    unfold x8
    refine Upd.ite ?_ ?_
    · refine noteErr_upd ?_ (sub_of rfl hr)
      · refine State.setFlt_upd ?_ (sub_of rfl hk)
        · exact hs
    · exact hs
  try clear_value x8
  extract_lets -merge +onlyGivenNames x10
  have hx11 : Upd K R C s0 x10 := by
    unfold x10
    refine Upd.ite ?_ ?_
    · refine trapReact_upd ?_ (sub_of rfl hk) (sub_of rfl hr) hc
      · exact hx9
    · exact hx9
  try clear_value x10
  extract_lets -merge +onlyGivenNames x12
  extract_lets -merge +onlyGivenNames x14
  have hx15 : Upd K R C s0 x14 := by
    unfold x14
    refine Upd.ite ?_ ?_
    · refine State.setFlt_upd ?_ (sub_of rfl hk)
      · exact hx11
    · exact hx11
  try clear_value x14
  extract_lets -merge +onlyGivenNames x16
  have hx17 : Upd K R C s0 x16 := by
    unfold x16
    refine Upd.ite ?_ ?_
    · refine blockReact_upd ?_ (sub_of rfl hk) (sub_of rfl hr) hc
      · exact hx15
    · exact hx15
  try clear_value x16
  refine Upd.ite ?_ ?_
  · extract_lets -merge +onlyGivenNames x18
    have hx19 : Upd K R C s0 x18 := by
      unfold x18
      refine warmBegin_upd ?_ (sub_of rfl hk) (sub_of rfl hr) hc
      · exact hx17
    try clear_value x18
    refine Upd.pwr ?_ (testBit_of_sub hk rfl)
    exact hx19
  · exact hx17

theorem goFatal_upd {s : State} (hs : Upd K R C s0 s) (hk : 0x422000000004140 ||| K = K) (hr : 0x83f3fff9c1200020000000000002024040000000c00000000000000000000000000000000000000000000000001200000000000000 ||| R = R) (hc : ∀ n c, C n c) :
    Upd K R C s0 (goFatal s) := by
  unfold goFatal
  extract_lets -merge +onlyGivenNames x2
  have hx3 : Upd K R C s0 x2 := by
    unfold x2
    refine State.setRb_upd ?_ (testBit_of_sub hr rfl) (RegOk.glob rfl)
    refine State.setRb_upd ?_ (testBit_of_sub hr rfl) (RegOk.glob rfl)
    exact hs
  try clear_value x2
  extract_lets -merge +onlyGivenNames x4
  have hx5 : Upd K R C s0 x4 := by
    unfold x4
    refine forClusters_upd (fun z6 z7 h8 => ?_) ?_
    · beta_reduce
      refine nmiTrap_upd ?_ (sub_of rfl hk) (sub_of rfl hr) (hc _)
      · exact h8
    · refine Upd.life ?_ (testBit_of_sub hk rfl) (tabSet_wf rfl)
      exact hx3
  try clear_value x4
  refine noteErr_upd ?_ (sub_of rfl hr)
  · refine degrade_upd ?_ (sub_of rfl hk) (sub_of rfl hr)
    · exact hx5

theorem windowClose_upd {s : State} (hs : Upd K R C s0 s) (hk : 0x400000000000 ||| K = K) (hr : 0x200000000000000 ||| R = R) :
    Upd K R C s0 (windowClose s) := by
  unfold windowClose
  split
  · refine Upd.ite ?_ ?_
    · extract_lets -merge +onlyGivenNames x2
      have hx3 : Upd K R C s0 x2 := by
        unfold x2
        refine State.setRb_upd ?_ (testBit_of_sub hr rfl) (RegOk.glob rfl)
        exact hs
      try clear_value x2
      refine Upd.window ?_ (testBit_of_sub hk rfl)
      exact hx3
    · exact hs
  · exact hs

theorem takeMsg_upd {m : FaultMsg} {s0' : State} (hs0' : Upd K R C s0 s0') (hk : 0xda3f62fffff7f40 ||| K = K) (hr : 0xffffffffffffffffffffffffffffffffffffffffffffffffffffffffffffffffffffffffffffffffffffffffffffffffffffffffffffffffffffffffffffffff ||| R = R) (hc : ∀ n c, C n c) :
    Upd K R C s0 (takeMsg m s0') := by
  unfold takeMsg
  extract_lets -merge +onlyGivenNames x3
  extract_lets -merge +onlyGivenNames x5
  extract_lets -merge +onlyGivenNames x7
  extract_lets -merge +onlyGivenNames x9
  extract_lets -merge +onlyGivenNames x11
  extract_lets -merge +onlyGivenNames x13
  have hx14 : Upd K R C s0 x13 := by
    unfold x13
    refine State.setRb_upd ?_ (testBit_of_sub hr rfl) (RegOk.glob rfl)
    refine State.setRb_upd ?_ (testBit_of_sub hr rfl) (RegOk.glob rfl)
    exact hs0'
  try clear_value x13
  extract_lets -merge +onlyGivenNames x15
  have hx16 : Upd K R C s0 x15 := by
    unfold x15
    refine lifeCount_upd ?_ (sub_of rfl hk)
    · exact hx14
  try clear_value x15
  extract_lets -merge +onlyGivenNames x17
  have hx18 : Upd K R C s0 x17 := by
    unfold x17
    refine State.setFlt_upd ?_ (sub_of rfl hk)
    · exact hx16
  try clear_value x17
  extract_lets -merge +onlyGivenNames x19
  extract_lets -merge +onlyGivenNames x21
  have hx22 : Upd K R C s0 x21 := by
    unfold x21
    refine Upd.ite ?_ ?_
    · refine assayAdd_upd ?_ (sub_of rfl hk) (sub_of rfl hr)
      · exact hx18
    · exact hx18
  try clear_value x21
  extract_lets -merge +onlyGivenNames x23
  extract_lets -merge +onlyGivenNames x25
  extract_lets -merge +onlyGivenNames x27
  have hx28 : Upd K R C s0 x27 := by
    unfold x27
    refine Upd.ite ?_ ?_
    · refine trapReact_upd ?_ (sub_of rfl hk) (sub_of rfl hr) hc
      · exact hx22
    · exact hx22
  try clear_value x27
  refine Upd.ite ?_ ?_
  · exact hx28
  · extract_lets -merge +onlyGivenNames x29
    have hx30 : Upd K R C s0 x29 := by
      unfold x29
      refine Upd.ite ?_ ?_
      · refine goFatal_upd ?_ (sub_of rfl hk) (sub_of rfl hr) hc
        · exact hx28
      · exact hx28
    try clear_value x29
    split
    · extract_lets -merge +onlyGivenNames x31
      have hx32 : Upd K R C s0 x31 := by
        unfold x31
        refine State.setRb_upd ?_ (testBit_of_sub hr rfl) (RegOk.glob rfl)
        refine State.count_upd ?_ (testBit_of_sub hr rfl) (RegOk.glob rfl)
        refine Upd.window ?_ (testBit_of_sub hk rfl)
        exact hx30
      try clear_value x31
      refine State.setRf_upd ?_ (testBit_of_sub hr rfl) (RegOk.glob rfl)
      refine State.setRf_upd ?_ (testBit_of_sub hr rfl) (RegOk.glob rfl)
      exact hx32
    · extract_lets -merge +onlyGivenNames x33
      extract_lets -merge +onlyGivenNames x35
      have hx36 : Upd K R C s0 x35 := by
        unfold x35
        refine State.setRf_upd ?_ (testBit_of_sub hr rfl) (RegOk.glob rfl)
        refine State.setRf_upd ?_ (testBit_of_sub hr rfl) (RegOk.glob rfl)
        refine State.setRb_upd ?_ (testBit_of_sub hr rfl) (RegOk.glob rfl)
        refine Upd.window ?_ (testBit_of_sub hk rfl)
        exact hx30
      try clear_value x35
      refine react_upd ?_ (sub_of rfl hk) (sub_of rfl hr) hc
      · refine State.setRb_upd ?_ (testBit_of_sub hr rfl) (RegOk.glob rfl)
        exact hx36

theorem inject_upd {s : State} (hs : Upd K R C s0 s) (hk : 0x200000000000000 ||| K = K) :
    Upd K R C s0 (inject s) := by
  unfold inject
  extract_lets -merge +onlyGivenNames x2
  extract_lets -merge +onlyGivenNames x4
  extract_lets -merge +onlyGivenNames x6
  refine Upd.ite ?_ ?_
  · refine Upd.msgs ?_ (testBit_of_sub hk rfl)
    exact hs
  · exact hs

theorem asyAcquire_upd {s : State} (hs : Upd K R C s0 s) (hk : 0x20000000 ||| K = K) :
    Upd K R C s0 (asyAcquire s) := by
  unfold asyAcquire
  extract_lets -merge +onlyGivenNames x2
  refine Upd.ite ?_ ?_
  · exact hs
  · refine Upd.ite ?_ ?_
    · refine State.setSem_upd ?_ (sub_of rfl hk)
      · exact hs
    · refine State.setSem_upd ?_ (sub_of rfl hk)
      · exact hs

theorem asyRelease_upd {s : State} (hs : Upd K R C s0 s) (hk : 0x20000000 ||| K = K) (hr : 0x50000000000000000000000000 ||| R = R) :
    Upd K R C s0 (asyRelease s) := by
  unfold asyRelease
  refine Upd.ite ?_ ?_
  · refine semHand_upd ?_ (sub_of rfl hk) (sub_of rfl hr)
    · refine State.setSem_upd ?_ (sub_of rfl hk)
      · exact hs
  · exact hs

theorem asyStart_upd {n : Cluster} {s : State} (hs : Upd K R C s0 s) (hk : 0x401000020000040 ||| K = K) (hr : 0x3fff9c0000000000000000002024040000000c0000000000000000000000000000000000080000000000c000000000000000000 ||| R = R) (hc : ∀ c, C n.val c) :
    Upd K R C s0 (asyStart n s) := by
  unfold asyStart
  extract_lets -merge +onlyGivenNames x3
  extract_lets -merge +onlyGivenNames x5
  extract_lets -merge +onlyGivenNames x7
  have hx8 : Upd K R C s0 x7 := by
    unfold x7
    refine forceMask_upd ?_ (sub_of rfl hk) (sub_of rfl hr) hc
    · refine ungate_upd ?_ (sub_of rfl hr)
      · exact hs
  try clear_value x7
  extract_lets -merge +onlyGivenNames x9
  have hx10 : Upd K R C s0 x9 := by
    unfold x9
    refine State.setRf_upd ?_ (testBit_of_sub hr rfl) (RegOk.glob rfl)
    refine State.setRf_upd ?_ (testBit_of_sub hr rfl) (RegOk.glob rfl)
    refine State.setReg_upd ?_ (testBit_of_sub hr rfl) (RegOk.glob rfl)
    exact hx8
  try clear_value x9
  extract_lets -merge +onlyGivenNames x11
  have hx12 : Upd K R C s0 x11 := by
    unfold x11
    refine Upd.assay ?_ (testBit_of_sub hk rfl) (tabInsert_rising (Nat.zero_le _))
    exact hx10
  try clear_value x11
  refine Upd.ite ?_ ?_
  · refine asyAcquire_upd ?_ (sub_of rfl hk)
    · exact hx12
  · exact hx12

theorem asyRetire_upd {n : Cluster} {failCluster : Bool} {failCh : Word} {s : State} (hs : Upd K R C s0 s) (hk : 0x422000020004140 ||| K = K) (hr : 0x83f3fff9c12000200000000000020240c0000000c00002000000000000000000000000000000800050000000031200000000000000 ||| R = R) (hc : ∀ c, C n.val c) :
    Upd K R C s0 (asyRetire n failCluster failCh s) := by
  unfold asyRetire
  extract_lets -merge +onlyGivenNames x5
  have hx6 : Upd K R C s0 x5 := by
    unfold x5
    refine retireMask_upd ?_ (sub_of rfl hk) (sub_of rfl hr) hc
    · exact hs
  try clear_value x5
  extract_lets -merge +onlyGivenNames x7
  refine Upd.ite ?_ ?_
  · refine retireCluster_upd ?_ (sub_of rfl hk) (sub_of rfl hr) hc
    · exact hx6
  · exact hx6

theorem asyOutcome_upd {n : Cluster} {failCluster : Bool} {failCh : Word} {s : State} (hs : Upd K R C s0 s) (hk : 0x623040020006340 ||| K = K) (hr : 0xa3f3fff9c1200021e000000000020240c0000904c00002d0fd00000000000000000000000000800050000075031200000000000000 ||| R = R) (hc : ∀ c, C n.val c) :
    Upd K R C s0 (asyOutcome n failCluster failCh s) := by
  unfold asyOutcome
  extract_lets -merge +onlyGivenNames x5
  extract_lets -merge +onlyGivenNames x7
  extract_lets -merge +onlyGivenNames x9
  have hx10 : Upd K R C s0 x9 := by
    unfold x9
    refine Upd.assay ?_ (testBit_of_sub hk rfl) tabErase_rising
    exact hs
  try clear_value x9
  extract_lets -merge +onlyGivenNames x11
  have hx12 : Upd K R C s0 x11 := by
    unfold x11
    refine Upd.ite ?_ ?_
    · exact hx10
    · refine asyRelease_upd ?_ (sub_of rfl hk) (sub_of rfl hr)
      · exact hx10
  try clear_value x11
  extract_lets -merge +onlyGivenNames x13
  have hx14 : Upd K R C s0 x13 := by
    unfold x13
    refine lifeCount_upd ?_ (sub_of rfl hk)
    · refine State.setRb_upd ?_ (testBit_of_sub hr rfl) (RegOk.glob rfl)
      refine State.count_upd ?_ (testBit_of_sub hr rfl) (RegOk.glob rfl)
      exact hx12
  try clear_value x13
  extract_lets -merge +onlyGivenNames x15
  have hx16 : Upd K R C s0 x15 := by
    unfold x15
    refine lifeCount_upd ?_ (sub_of rfl hk)
    · refine asyRetire_upd ?_ (sub_of rfl hk) (sub_of rfl hr) hc
      · refine State.setRf_upd ?_ (testBit_of_sub hr rfl) (RegOk.glob rfl)
        refine State.count_upd ?_ (testBit_of_sub hr rfl) (RegOk.glob rfl)
        exact hx14
  try clear_value x15
  extract_lets -merge +onlyGivenNames x17
  have hx18 : Upd K R C s0 x17 := by
    unfold x17
    refine Upd.ite ?_ ?_
    · refine State.send_upd ?_ (sub_of rfl hk)
      · refine State.setRb_upd ?_ (testBit_of_sub hr rfl) (RegOk.glob rfl)
        exact hx16
    · refine lifeCount_upd ?_ (sub_of rfl hk)
      · refine State.setRb_upd ?_ (testBit_of_sub hr rfl) (RegOk.glob rfl)
        refine State.setRf_upd ?_ (testBit_of_sub hr rfl) (RegOk.glob rfl)
        refine State.count_upd ?_ (testBit_of_sub hr rfl) (RegOk.glob rfl)
        exact hx14
  try clear_value x17
  refine releaseHeld_upd ?_ (sub_of rfl hk) (sub_of rfl hr) hc
  · refine busPass_upd ?_ (sub_of rfl hk) hc
    · exact hx18

theorem lifeWrite_upd {obs : LifeObs} {s0' : State} (hs0' : Upd K R C s0 s0') (hk : 0x21e000000000002 ||| K = K) (hr : 0x7c0000000000000000000000000000001a800000000000000000000 ||| R = R) :
    Upd K R C s0 (lifeWrite obs s0') := by
  unfold lifeWrite
  extract_lets -merge +onlyGivenNames x3
  extract_lets -merge +onlyGivenNames x5
  have hx6 : Upd K R C s0 x5 := by
    unfold x5
    refine Upd.ite ?_ ?_
    · refine Upd.life ?_ (testBit_of_sub hk rfl) (tabSet_wf rfl)
      exact hs0'
    · exact hs0'
  try clear_value x5
  extract_lets -merge +onlyGivenNames x7
  extract_lets -merge +onlyGivenNames x9
  extract_lets -merge +onlyGivenNames x11
  extract_lets -merge +onlyGivenNames x13
  have hx14 : Upd K R C s0 x13 := by
    unfold x13
    refine memWrite_upd ?_ (sub_of rfl hk) (sub_of rfl hr)
    · exact hx6
  try clear_value x13
  extract_lets -merge +onlyGivenNames x15
  extract_lets -merge +onlyGivenNames x17
  have hx18 : Upd K R C s0 x17 := by
    unfold x17
    refine State.setRf_upd ?_ (testBit_of_sub hr rfl) (RegOk.glob rfl)
    refine State.setRf_upd ?_ (testBit_of_sub hr rfl) (RegOk.glob rfl)
    exact hx14
  try clear_value x17
  extract_lets -merge +onlyGivenNames x19
  have hx20 : Upd K R C s0 x19 := by
    unfold x19
    refine Upd.lifeSlot ?_ (testBit_of_sub hk rfl)
    exact hx18
  try clear_value x19
  extract_lets -merge +onlyGivenNames x21
  have hx22 : Upd K R C s0 x21 := by
    unfold x21
    refine Upd.lifeMin ?_ (testBit_of_sub hk rfl)
    exact hx20
  try clear_value x21
  refine Upd.ite ?_ ?_
  · extract_lets -merge +onlyGivenNames x23
    have hx24 : Upd K R C s0 x23 := by
      unfold x23
      refine State.setRb_upd ?_ (testBit_of_sub hr rfl) (RegOk.glob rfl)
      refine State.setPair_upd ?_ (testBit_of_sub hr rfl) (RegOk.glob rfl) (testBit_of_sub hr rfl) (RegOk.glob rfl)
      refine State.setReg_upd ?_ (testBit_of_sub hr rfl) (RegOk.glob rfl)
      exact hx22
    try clear_value x23
    refine Upd.lifeHdr ?_ (testBit_of_sub hk rfl)
    exact hx24
  · refine State.send_upd ?_ (sub_of rfl hk)
    · refine State.setRb_upd ?_ (testBit_of_sub hr rfl) (RegOk.glob rfl)
      exact hx22

theorem foldPairs_wf {α : Type} [DecidableEq α] {d : Nat → α} {e : α} {l : List (Nat × α)} {t : List (Nat × α)}
    (hd : ∀ k, d k = e) (h : tabWf d t = true) : tabWf d (l.foldl (fun t p => tabSet e t p.1 p.2) t) = true := by
  induction l generalizing t with
  | nil => exact h
  | cons a r ih => exact ih (tabSet_wf (hd _) h)

theorem lifeLoad_wf (b : List Byte) : tabWf (fun _ => 0) (lifeLoad b) = true := by
  unfold lifeLoad; extract_lets; exact foldPairs_wf (fun _ => rfl) rfl

theorem lifeRead_upd {slots : List (List Byte)} {s : State} (hs : Upd K R C s0 s)
    (hk : 0xe000000000000 ||| K = K) (hr : 0x4c00000000000000000000000000000000000000000000000000000 ||| R = R) : Upd K R C s0 (lifeRead slots s) := by
  unfold lifeRead
  refine Upd.ite hs ?_
  split
  · refine Upd.lifeSlot ?_ (testBit_of_sub hk rfl)
    refine Upd.lifeHdr ?_ (testBit_of_sub hk rfl)
    refine Upd.life ?_ (testBit_of_sub hk rfl) (fun _ => lifeLoad_wf _)
    refine State.setRf_upd ?_ (testBit_of_sub hr rfl) (RegOk.glob rfl)
    refine State.setRb_upd ?_ (testBit_of_sub hr rfl) (RegOk.glob rfl)
    refine State.setRb_upd ?_ (testBit_of_sub hr rfl) (RegOk.glob rfl)
    exact State.setReg_upd hs (testBit_of_sub hr rfl) (RegOk.glob rfl)
  · refine Upd.lifeSlot ?_ (testBit_of_sub hk rfl)
    refine Upd.life ?_ (testBit_of_sub hk rfl) (fun _ => rfl)
    exact State.setRb_upd hs (testBit_of_sub hr rfl) (RegOk.glob rfl)

theorem rising_map {α : Type} (g : Nat → α) (lo m : Nat) : tabRising lo ((List.range' lo m).map fun k => (k, g k)) = true := by
  induction m generalizing lo with
  | zero => rfl
  | succ m ih => simp [List.range'_succ, tabRising]; simpa using ih (lo + 1)

theorem rangeTab_wf {α : Type} [DecidableEq α] (e : α) (g : Nat → α) (m : Nat) :
    tabWf (fun _ => e) (((List.range m).map fun k => (k, g k)).filter fun x => decide (x.2 ≠ e)) = true := by
  have h := rising_map g 0 m
  rw [← List.range_eq_range'] at h
  simp only [tabWf, Bool.and_eq_true, List.all_eq_true, decide_eq_true_eq]
  exact ⟨tabRising_filter _ h, fun x hx => by simpa using (List.mem_filter.1 hx).2⟩

theorem libInstall_upd {b : List Byte} {s : State} (hs : Upd K R C s0 s)
    (hk : 0x30 ||| K = K) (hr : 0xe00 ||| R = R) : Upd K R C s0 (libInstall b s) := by
  unfold libInstall
  extract_lets mc nc nanos s1 s2
  refine Upd.libNano ?_ (testBit_of_sub hk rfl) (fun _ => rangeTab_wf _ _ _)
  refine State.setRb_upd ?_ (testBit_of_sub hr rfl) (RegOk.glob rfl)
  refine State.setRf_upd ?_ (testBit_of_sub hr rfl) (RegOk.glob rfl)
  refine Upd.libMicro ?_ (testBit_of_sub hk rfl) (fun _ => rangeTab_wf _ _ _)
  refine State.setReg_upd ?_ (testBit_of_sub hr rfl) (RegOk.glob rfl)
  exact State.setReg_upd hs (testBit_of_sub hr rfl) (RegOk.glob rfl)

theorem patchCtrlWrite_upd {d : Word} {m : Word} {s : State} (hs : Upd K R C s0 s) (hk : 0x240000000000000 ||| K = K) (hr : 0x1a800000000000000010800 ||| R = R) :
    Upd K R C s0 (patchCtrlWrite d m s) := by
  unfold patchCtrlWrite
  extract_lets -merge +onlyGivenNames x4
  have hx5 : Upd K R C s0 x4 := by
    unfold x4
    refine plainWrite_upd ?_ (testBit_of_sub hr rfl) (RegOk.glob rfl)
    exact hs
  try clear_value x4
  extract_lets -merge +onlyGivenNames x6
  have hx7 : Upd K R C s0 x6 := by
    unfold x6
    refine State.setRb_upd ?_ (testBit_of_sub hr rfl) (RegOk.glob rfl)
    exact hx5
  try clear_value x6
  extract_lets -merge +onlyGivenNames x8
  have hx9 : Upd K R C s0 x8 := by
    unfold x8
    refine Upd.ite ?_ ?_
    · refine Upd.patch ?_ (testBit_of_sub hk rfl)
      exact hx7
    · exact hx5
  try clear_value x8
  refine Upd.ite ?_ ?_
  · extract_lets -merge +onlyGivenNames x10
    have hx11 : SndUpd K R C s0 x10 := by
      unfold x10
      refine memRead_upd ?_ (sub_of rfl hk) (sub_of rfl hr)
      · exact hx9
    try clear_value x10
    extract_lets -merge +onlyGivenNames x12
    have hx13 : Upd K R C s0 x12 := by
      unfold x12
      refine State.setRb_upd ?_ (testBit_of_sub hr rfl) (RegOk.glob rfl)
      refine SndUpd.out ?_
      exact hx11
    try clear_value x12
    refine Upd.patch ?_ (testBit_of_sub hk rfl)
    exact hx13
  · exact hx9

theorem patchVerified_upd {s : State} (hs : Upd K R C s0 s) (hk : 0x40000000000000 ||| K = K) (hr : 0x800 ||| R = R) :
    Upd K R C s0 (patchVerified s) := by
  unfold patchVerified
  extract_lets -merge +onlyGivenNames x2
  extract_lets -merge +onlyGivenNames x4
  have hx5 : Upd K R C s0 x4 := by
    unfold x4
    refine State.setRf_upd ?_ (testBit_of_sub hr rfl) (RegOk.glob rfl)
    refine State.setRb_upd ?_ (testBit_of_sub hr rfl) (RegOk.glob rfl)
    exact hs
  try clear_value x4
  refine Upd.ite ?_ ?_
  · refine State.setRb_upd ?_ (testBit_of_sub hr rfl) (RegOk.glob rfl)
    exact hx5
  · refine Upd.patch ?_ (testBit_of_sub hk rfl)
    exact hx5

theorem patchContext_upd {n : Cluster} {s : State} (hs : Upd K R C s0 s) (hr : 0x10000000000000000000000000000000000000000000000000000000000000000000000000000000000000000000000000000000 ||| R = R) (hc : ∃ c, C n.val c) :
    Upd K R C s0 (patchContext n s) := by
  unfold patchContext
  refine Upd.ite ?_ ?_
  · extract_lets -merge +onlyGivenNames x3
    have hx4 : Upd K R C s0 x3 := by
      unfold x3
      refine State.setRb_upd ?_ (testBit_of_sub hr rfl) (RegOk.one rfl hc)
      exact hs
    try clear_value x3
    split
    · refine Upd.ite ?_ ?_
      · refine State.setRb_upd ?_ (testBit_of_sub hr rfl) (RegOk.one rfl hc)
        exact hx4
      · exact hx4
    · exact hx4
  · exact hs

theorem patchApply_upd {s : State} (hs : Upd K R C s0 s) (hk : 0x40000000000030 ||| K = K) (hr : 0x10000000000000000000000000000000000000000000000000000000000000000000000000800000000000000000000000000e00 ||| R = R) (hc : ∀ n c, C n c) :
    Upd K R C s0 (patchApply s) := by
  unfold patchApply
  extract_lets -merge +onlyGivenNames x2
  have hx3 : Upd K R C s0 x2 := by
    unfold x2
    refine forClusters_upd (fun z4 z5 h6 => ?_) ?_
    · beta_reduce
      refine patchContext_upd ?_ (sub_of rfl hr) ⟨0, hc _ 0⟩
      · refine ungate_upd ?_ (sub_of rfl hr)
        · exact h6
    · refine libInstall_upd ?_ (sub_of rfl hk) (sub_of rfl hr)
      · exact hs
  try clear_value x2
  extract_lets -merge +onlyGivenNames x7
  have hx8 : Upd K R C s0 x7 := by
    unfold x7
    refine State.setRb_upd ?_ (testBit_of_sub hr rfl) (RegOk.glob rfl)
    refine State.setRb_upd ?_ (testBit_of_sub hr rfl) (RegOk.glob rfl)
    exact hx3
  try clear_value x7
  refine Upd.patch ?_ (testBit_of_sub hk rfl)
  exact hx8

theorem execPatchVerified_upd {t : Nat} {s0' : State} (hs0' : Upd K R C s0 s0') (hk : 0x40000000000001 ||| K = K) (hr : 0x800 ||| R = R) :
    ResUpd K R C s0 (execPatchVerified t s0') := by
  unfold execPatchVerified
  extract_lets -merge +onlyGivenNames x3
  have hx4 : Upd K R C s0 x3 := by
    unfold x3
    refine State.at_upd ?_ (sub_of rfl hk)
    · exact hs0'
  try clear_value x3
  refine ResUpd.next ?_
  refine Upd.ite ?_ ?_
  · refine patchVerified_upd ?_ (sub_of rfl hk) (sub_of rfl hr)
    · exact hx4
  · exact hx4

theorem execPatchApply_upd {t : Nat} {s0' : State} (hs0' : Upd K R C s0 s0') (hk : 0x40000000000031 ||| K = K) (hr : 0x10000000000000000000000000000000000000000000000000000000000000000000000000800000000000000000000000000e00 ||| R = R) (hc : ∀ n c, C n c) :
    ResUpd K R C s0 (execPatchApply t s0') := by
  unfold execPatchApply
  extract_lets -merge +onlyGivenNames x3
  have hx4 : Upd K R C s0 x3 := by
    unfold x3
    refine State.at_upd ?_ (sub_of rfl hk)
    · exact hs0'
  try clear_value x3
  refine ResUpd.next ?_
  refine Upd.ite ?_ ?_
  · refine patchApply_upd ?_ (sub_of rfl hk) (sub_of rfl hr) hc
    · exact hx4
  · exact hx4

theorem execPatchApplied_upd {t : Nat} {s0' : State} (hs0' : Upd K R C s0 s0') (hk : 0x1 ||| K = K) (hr : 0x800 ||| R = R) :
    ResUpd K R C s0 (execPatchApplied t s0') := by
  unfold execPatchApplied
  extract_lets -merge +onlyGivenNames x3
  have hx4 : Upd K R C s0 x3 := by
    unfold x3
    refine State.at_upd ?_ (sub_of rfl hk)
    · exact hs0'
  try clear_value x3
  refine ResUpd.next ?_
  refine State.setRb_upd ?_ (testBit_of_sub hr rfl) (RegOk.glob rfl)
  exact hx4

theorem modPwr_upd {f : Pwr → Pwr} {s : State} (hs : Upd K R C s0 s) (hk : 0x800000000 ||| K = K) :
    Upd K R C s0 (modPwr f s) := by
  unfold modPwr
  refine Upd.pwr ?_ (testBit_of_sub hk rfl)
  exact hs

theorem clkEvt_upd {b : Nat} {s : State} (hs : Upd K R C s0 s) (hr : 0x4000000000000000000000000000000 ||| R = R) :
    Upd K R C s0 (clkEvt b s) := by
  unfold clkEvt
  refine State.setRb_upd ?_ (testBit_of_sub hr rfl) (RegOk.glob rfl)
  exact hs

theorem stopDomains_upd {s : State} (hs : Upd K R C s0 s)
    (hk : 0x405f3007f40 ||| K = K) (hr : 0xffffffffffffffffffffffffffffffffffffffffffffffffffffffffffffffffffffffffffffffffffffffffffffffffffffffffffffffffffffffffffffffff ||| R = R) (hc : ∀ n c, C n c) : Upd K R C s0 (stopDomains s) := by
  unfold stopDomains
  have h1 : Upd K R C s0 (forClusters resetHidden s) :=
    forClusters_upd (fun n s h => resetHidden_upd h (sub_of rfl hk) (hc _)) hs
  generalize forClusters resetHidden s = x1 at h1
  have full : ∀ r : Reg, R.testBit r.ctorIdx = true := fun r => testBit_of_sub hr (full_testBit r)
  refine ringOff_upd (foldl_upd ?_ fun s h z => domainReset_upd z (sub_of rfl hk) (sub_of rfl hr)) (sub_of rfl hk) (sub_of rfl hr)
  refine setCapState_upd ?_ (sub_of rfl hr)
  refine h1.any hc rfl (fun p hp => ?_) full fun h => { h with regs := tabMap_wf _ (tabWf_rising h.regs), present := rfl }
  have e1 := testBit_of_sub (i := Part.ctorIdx .present) hk rfl
  have e2 := testBit_of_sub (i := Part.ctorIdx .waiting) hk rfl
  have e3 := testBit_of_sub (i := Part.ctorIdx .cap) hk rfl
  cases p <;> first | rfl | simp [e1, e2, e3] at hp

theorem clockFault_upd {cause : Nat} {s : State} (hs : Upd K R C s0 s) (hk : 0x600040df3007f40 ||| K = K) (hr : 0xffffffffffffffffffffffffffffffffffffffffffffffffffffffffffffffffffffffffffffffffffffffffffffffffffffffffffffffffffffffffffffffff ||| R = R) (hc : ∀ n c, C n c) :
    Upd K R C s0 (clockFault cause s) := by
  unfold clockFault
  extract_lets -merge +onlyGivenNames x3
  have hx4 : Upd K R C s0 x3 := by
    unfold x3
    refine forClusters_upd (fun z5 z6 h7 => ?_) ?_
    · beta_reduce
      refine stopAwgs_upd ?_ (sub_of rfl hk) (sub_of rfl hr) (hc _)
      · exact h7
    · refine forceAll_upd ?_ (sub_of rfl hk) (sub_of rfl hr) hc
      · exact hs
  try clear_value x3
  extract_lets -merge +onlyGivenNames x8
  have hx9 : Upd K R C s0 x8 := by
    unfold x8
    refine modPwr_upd ?_ (sub_of rfl hk)
    · refine State.setRb_upd ?_ (testBit_of_sub hr rfl) (RegOk.glob rfl)
      exact hx4
  try clear_value x8
  extract_lets -merge +onlyGivenNames x10
  have hx11 : Upd K R C s0 x10 := by
    unfold x10
    refine stopDomains_upd ?_ (sub_of rfl hk) (sub_of rfl hr) hc
    · refine State.setRb_upd ?_ (testBit_of_sub hr rfl) (RegOk.glob rfl)
      exact hx9
  try clear_value x10
  extract_lets -merge +onlyGivenNames x12
  have hx13 : Upd K R C s0 x12 := by
    unfold x12
    refine clkEvt_upd ?_ (sub_of rfl hr)
    · refine State.count_upd ?_ (testBit_of_sub hr rfl) (RegOk.glob rfl)
      refine State.send_upd ?_ (sub_of rfl hk)
      · exact hx11
  try clear_value x12
  refine Upd.ite ?_ ?_
  · refine clkEvt_upd ?_ (sub_of rfl hr)
    · exact hx13
  · exact hx13

theorem restartClasp_upd {s : State} (hs : Upd K R C s0 s) (hk : 0x800001 ||| K = K) :
    Upd K R C s0 (restartClasp s) := by
  unfold restartClasp
  extract_lets -merge +onlyGivenNames x2
  have hx3 : Upd K R C s0 x2 := by
    unfold x2
    refine Upd.clasp ?_ (testBit_of_sub hk rfl)
    exact hs
  try clear_value x2
  refine Upd.lfsrAt ?_ (testBit_of_sub hk rfl)
  exact hx3

theorem rootStable_upd {s : State} (hs : Upd K R C s0 s) (hk : 0x480372fffff7f41 ||| K = K) (hr : 0xffffffffffffffffffffffffffffffffffffffffffffffffffffffffffffffffffffffffffffffffffffffffffffffffffffffffffffffffffffffffffffffff ||| R = R) (hc : ∀ n c, C n c) :
    Upd K R C s0 (rootStable s) := by
  unfold rootStable
  extract_lets -merge +onlyGivenNames x2
  have hx3 : Upd K R C s0 x2 := by
    unfold x2
    refine modPwr_upd ?_ (sub_of rfl hk)
    · refine State.setRb_upd ?_ (testBit_of_sub hr rfl) (RegOk.glob rfl)
      refine State.setRb_upd ?_ (testBit_of_sub hr rfl) (RegOk.glob rfl)
      exact hs
  try clear_value x2
  refine Upd.ite ?_ ?_
  · split
    · rename_i y4 y5 he6
      have hy7 := SndUpd.of_eq he6 (K := K) (R := R) (C := C) (s0 := s0) (by
        refine State.drawWord_upd ?_ (sub_of rfl hk)
        · exact hx3
        )
      extract_lets -merge +onlyGivenNames x8
      have hx9 : Upd K R C s0 x8 := by
        unfold x8
        refine warmBegin_upd ?_ (sub_of rfl hk) (sub_of rfl hr) hc
        · refine State.setRb_upd ?_ (testBit_of_sub hr rfl) (RegOk.glob rfl)
          refine State.setReg_upd ?_ (testBit_of_sub hr rfl) (RegOk.glob rfl)
          exact hy7
      try clear_value x8
      refine modPwr_upd ?_ (sub_of rfl hk)
      · refine Upd.hist ?_ (testBit_of_sub hk rfl) (fun _ => rfl)
        exact hx9
  · refine modPwr_upd ?_ (sub_of rfl hk)
    · refine restartClasp_upd ?_ (sub_of rfl hk)
      · refine State.setRf_upd ?_ (testBit_of_sub hr rfl) (RegOk.glob rfl)
        exact hx3

theorem sleepEnter_upd {s : State} (hs : Upd K R C s0 s) (hk : 0x80000800000000 ||| K = K) (hr : 0x6010000000100000000000000000000 ||| R = R) :
    Upd K R C s0 (sleepEnter s) := by
  unfold sleepEnter
  extract_lets -merge +onlyGivenNames x2
  have hx3 : Upd K R C s0 x2 := by
    unfold x2
    refine State.setRb_upd ?_ (testBit_of_sub hr rfl) (RegOk.glob rfl)
    refine State.setRf_upd ?_ (testBit_of_sub hr rfl) (RegOk.glob rfl)
    exact hs
  try clear_value x2
  extract_lets -merge +onlyGivenNames x4
  have hx5 : Upd K R C s0 x4 := by
    unfold x4
    refine clkEvt_upd ?_ (sub_of rfl hr)
    · refine State.countWrap_upd ?_ (testBit_of_sub hr rfl) (RegOk.glob rfl)
      exact hx3
  try clear_value x4
  extract_lets -merge +onlyGivenNames x6
  have hx7 : Upd K R C s0 x6 := by
    unfold x6
    refine foldl_range_upd ?_ fun x9 y hyx9 h8 => ?_
    · exact hx5
    · beta_reduce
      refine Upd.ite ?_ ?_
      · refine State.setRf_upd ?_ (testBit_of_sub hr rfl) (RegOk.glob rfl)
        exact h8
      · exact h8
  try clear_value x6
  refine modPwr_upd ?_ (sub_of rfl hk)
  · refine Upd.wakes ?_ (testBit_of_sub hk rfl)
    exact hx7

theorem shutdownOp_upd {s : State} (hs : Upd K R C s0 s) (hk : 0x400000410004140 ||| K = K) (hr : 0x13fff9c1200020000000000002024040000000c00000000000004000008000000000000000010000000000000000000000000000 ||| R = R) (hc : ∀ n c, C n c) :
    Upd K R C s0 (shutdownOp s) := by
  unfold shutdownOp
  refine Upd.ite ?_ ?_
  · exact hs
  · extract_lets -merge +onlyGivenNames x2
    have hx3 : Upd K R C s0 x2 := by
      unfold x2
      refine forClusters_upd (fun z4 z5 h6 => ?_) ?_
      · beta_reduce
        refine abortSeq_upd ?_ (sub_of rfl hk) (sub_of rfl hr) (hc _)
        · exact h6
      · refine capAbort_upd ?_ (sub_of rfl hk) (sub_of rfl hr) hc
        · refine State.setRf_upd ?_ (testBit_of_sub hr rfl) (RegOk.glob rfl)
          exact hs
    try clear_value x2
    refine forClusters_upd (fun z7 z8 h9 => ?_) ?_
    · beta_reduce
      refine stopAwgs_upd ?_ (sub_of rfl hk) (sub_of rfl hr) (hc _)
      · exact h9
    · refine forceAll_upd ?_ (sub_of rfl hk) (sub_of rfl hr) hc
      · exact hx3

theorem pwrCtrlWrite_upd {d : Word} {m : Word} {s : State} (hs : Upd K R C s0 s) (hk : 0x400000410004140 ||| K = K) (hr : 0x13fff9c1200020000000000002024040000000c00000000000004000008000000000000000018000000000000000000000000000 ||| R = R) (hc : ∀ n c, C n c) :
    Upd K R C s0 (pwrCtrlWrite d m s) := by
  unfold pwrCtrlWrite
  extract_lets -merge +onlyGivenNames x4
  have hx5 : Upd K R C s0 x4 := by
    unfold x4
    refine plainWrite_upd ?_ (testBit_of_sub hr rfl) (RegOk.glob rfl)
    exact hs
  try clear_value x4
  extract_lets -merge +onlyGivenNames x6
  have hx7 : Upd K R C s0 x6 := by
    unfold x6
    refine Upd.ite ?_ ?_
    · refine shutdownOp_upd ?_ (sub_of rfl hk) (sub_of rfl hr) hc
      · exact hx5
    · exact hx5
  try clear_value x6
  refine Upd.ite ?_ ?_
  · refine State.setRb_upd ?_ (testBit_of_sub hr rfl) (RegOk.glob rfl)
    exact hx7
  · exact hx7

theorem serEvt_upd {b : Nat} {s : State} (hs : Upd K R C s0 s) (hr : 0x1000000000000000000000000000000000000000000000 ||| R = R) :
    Upd K R C s0 (serEvt b s) := by
  unfold serEvt
  refine State.setRb_upd ?_ (testBit_of_sub hr rfl) (RegOk.glob rfl)
  exact hs

theorem setWordByte_upd {r : Reg} {i : Nat} {b : Byte} {s : State} (hs : Upd K R C s0 s) (hr : R.testBit r.ctorIdx = true)
    (hro : r.row.cluster = false) : Upd K R C s0 (setWordByte r i b s) := State.setRf_upd hs hr (RegOk.glob hro)

theorem psmCtrlWrite_upd {d : Word} {m : Word} {s : State} (hs : Upd K R C s0 s) (hk : 0x800000000000000 ||| K = K) (hr : 0x1030000000000000000000000000000000000000000000 ||| R = R) :
    Upd K R C s0 (psmCtrlWrite d m s) := by
  unfold psmCtrlWrite
  extract_lets -merge +onlyGivenNames x4
  have hx5 : Upd K R C s0 x4 := by
    unfold x4
    refine cappedWrite_upd ?_ (testBit_of_sub hr rfl) (RegOk.glob rfl)
    exact hs
  try clear_value x4
  refine Upd.ite ?_ ?_
  · exact hx5
  · refine Upd.ite ?_ ?_
    · refine serEvt_upd ?_ (sub_of rfl hr)
      · exact hx5
    · refine State.emit_upd ?_ (sub_of rfl hk)
      · refine State.setRb_upd ?_ (testBit_of_sub hr rfl) (RegOk.glob rfl)
        exact hx5

theorem psmDone_upd {rx : List Byte} {s : State} (hs : Upd K R C s0 s) (hr : 0x10a0000000000000000000000000000000000000000000 ||| R = R) :
    Upd K R C s0 (psmDone rx s) := by
  unfold psmDone
  extract_lets -merge +onlyGivenNames x3
  extract_lets -merge +onlyGivenNames x5
  have hx6 : Upd K R C s0 x5 := by
    unfold x5
    refine State.setRb_upd ?_ (testBit_of_sub hr rfl) (RegOk.glob rfl)
    refine foldl_upd ?_ fun x8 y h7 => ?_
    · exact hs
    · beta_reduce
      refine setWordByte_upd ?_ (testBit_of_sub hr rfl) rfl
      exact h7
  try clear_value x5
  refine serEvt_upd ?_ (sub_of rfl hr)
  · exact hx6

theorem inSend_upd {s : State} (hs : Upd K R C s0 s) (hr : 0x1100000000000000000000000000000000000000000000 ||| R = R) :
    Upd K R C s0 (inSend s) := by
  unfold inSend
  refine serEvt_upd ?_ (sub_of rfl hr)
  · refine State.setRb_upd ?_ (testBit_of_sub hr rfl) (RegOk.glob rfl)
    exact hs

theorem outAck_upd {s : State} (hs : Upd K R C s0 s) (hr : 0x1100000000000000000000000000000000000000000000 ||| R = R) :
    Upd K R C s0 (outAck s) := by
  unfold outAck
  refine serEvt_upd ?_ (sub_of rfl hr)
  · refine State.setRb_upd ?_ (testBit_of_sub hr rfl) (RegOk.glob rfl)
    exact hs

theorem inAck_upd {s : State} (hs : Upd K R C s0 s) (hr : 0x100000000000000000000000000000000000000000000 ||| R = R) :
    Upd K R C s0 (inAck s) := by
  unfold inAck
  refine State.setRb_upd ?_ (testBit_of_sub hr rfl) (RegOk.glob rfl)
  exact hs

theorem outSend_upd {h' : Nat} {s : State} (hs : Upd K R C s0 s) (hr : 0x100000000000000000000000000000000000000000000 ||| R = R) :
    Upd K R C s0 (outSend h' s) := by
  unfold outSend
  refine Upd.ite ?_ ?_
  · exact hs
  · refine State.setRf_upd ?_ (testBit_of_sub hr rfl) (RegOk.glob rfl)
    refine State.setRb_upd ?_ (testBit_of_sub hr rfl) (RegOk.glob rfl)
    exact hs

theorem hctrlWrite_upd {h' : Nat} {d : Word} {m : Word} {s : State} (hs : Upd K R C s0 s) (hr : 0x100000000000000000000000000000000000000000000 ||| R = R) :
    Upd K R C s0 (hctrlWrite h' d m s) := by
  unfold hctrlWrite
  extract_lets -merge +onlyGivenNames x5
  have hx6 : Upd K R C s0 x5 := by
    unfold x5
    refine Upd.ite ?_ ?_
    · refine inAck_upd ?_ (sub_of rfl hr)
      · exact hs
    · exact hs
  try clear_value x5
  refine Upd.ite ?_ ?_
  · refine outSend_upd ?_ (sub_of rfl hr)
    · exact hx6
  · exact hx6

theorem mbxOutWrite_upd {i : Nat} {d : Word} {m : Word} {s : State} (hs : Upd K R C s0 s) (hr : 0x800000000000000000000000000000000000000000000 ||| R = R) :
    ActUpd K R C s0 (mbxOutWrite i d m s) := by
  unfold mbxOutWrite
  refine ActUpd.ite ?_ ?_
  · refine ActUpd.drop ?_
    exact hs
  · refine ActUpd.ok ?_
    refine plainWrite_upd ?_ (testBit_of_sub hr rfl) (RegOk.glob rfl)
    exact hs

theorem modMsp_upd {f : Msp → Msp} {s : State} (hs : Upd K R C s0 s) (hk : 0x2000000000 ||| K = K) :
    Upd K R C s0 (modMsp f s) := by
  unfold modMsp
  refine Upd.msp ?_ (testBit_of_sub hk rfl)
  exact hs

theorem winCmd_upd {wr : Bool} {s : State} (hs : Upd K R C s0 s) (hk : 0x2000000000 ||| K = K) :
    Upd K R C s0 (winCmd wr s) := by
  unfold winCmd
  refine Upd.ite ?_ ?_
  · refine modMsp_upd ?_ (sub_of rfl hk)
    · exact hs
  · refine Upd.ite ?_ ?_
    · refine modMsp_upd ?_ (sub_of rfl hk)
      · exact hs
    · refine modMsp_upd ?_ (sub_of rfl hk)
      · exact hs

theorem pageWrite_upd {a : Nat} {b : Byte} {s : State} (hs : Upd K R C s0 s) (hk : 0x2000000000 ||| K = K) (hr : 0x1500000000000000000000000000000000000000000000 ||| R = R) :
    Upd K R C s0 (pageWrite a b s) := by
  unfold pageWrite
  refine Upd.ite ?_ ?_
  · refine modMsp_upd ?_ (sub_of rfl hk)
    · exact hs
  · refine Upd.ite ?_ ?_
    · refine modMsp_upd ?_ (sub_of rfl hk)
      · exact hs
    · refine Upd.ite ?_ ?_
      · refine modMsp_upd ?_ (sub_of rfl hk)
        · exact hs
      · refine Upd.ite ?_ ?_
        · refine modMsp_upd ?_ (sub_of rfl hk)
          · exact hs
        · refine Upd.ite ?_ ?_
          · refine Upd.ite ?_ ?_
            · refine winCmd_upd ?_ (sub_of rfl hk)
              · exact hs
            · refine Upd.ite ?_ ?_
              · refine winCmd_upd ?_ (sub_of rfl hk)
                · exact hs
              · exact hs
          · refine Upd.ite ?_ ?_
            · refine Upd.ite ?_ ?_
              · exact hs
              · refine setWordByte_upd ?_ (testBit_of_sub hr rfl) rfl
                exact hs
            · refine Upd.ite ?_ ?_
              · extract_lets -merge +onlyGivenNames x4
                have hx5 : Upd K R C s0 x4 := by
                  unfold x4
                  refine Upd.ite ?_ ?_
                  · refine inSend_upd ?_ (sub_of rfl hr)
                    · exact hs
                  · exact hs
                try clear_value x4
                refine Upd.ite ?_ ?_
                · refine outAck_upd ?_ (sub_of rfl hr)
                  · exact hx5
                · exact hx5
              · exact hs

theorem pageWrites_upd {a : Nat} {l : List Byte} {s : State} (hs : Upd K R C s0 s)
    (hk : 0x2000000000 ||| K = K) (hr : 0x1500000000000000000000000000000000000000000000 ||| R = R) : Upd K R C s0 (pageWrites a l s) := by
  induction l generalizing a s with
  | nil => exact hs
  | cons b r ih => exact ih (pageWrite_upd hs (sub_of rfl hk) (sub_of rfl hr))

theorem setPart_upd {s : State} (hs : Upd K R C s0 s) (hk : 0x2000000000 ||| K = K) :
    Upd K R C s0 (setPart s) := by
  unfold setPart
  refine modMsp_upd ?_ (sub_of rfl hk)
  · exact hs

theorem storePut_upd {n : Cluster} {w : StoreAddr} {data : Word} {whole : Bool} {s : State} (hs : Upd K R C s0 s) (hk : 0xc ||| K = K) (hr : 0x1000000000000000000000000000000000000000000000000000000000000000000000 ||| R = R) (hc : ∃ c, C n.val c) :
    ActUpd K R C s0 (storePut n w data whole s) := by
  unfold storePut
  extract_lets -merge +onlyGivenNames x6
  extract_lets -merge +onlyGivenNames x8
  have hx9 : Upd K R C s0 x8 := by
    unfold x8
    refine Upd.ite ?_ ?_
    · exact hs
    · refine State.setRb_upd ?_ (testBit_of_sub hr rfl) (RegOk.one rfl hc)
      exact hs
  try clear_value x8
  extract_lets -merge +onlyGivenNames x10
  have hx11 : Upd K R C s0 x10 := by
    unfold x10
    refine Upd.ite ?_ ?_
    · exact hx9
    · refine State.setRb_upd ?_ (testBit_of_sub hr rfl) (RegOk.one rfl hc)
      exact hx9
  try clear_value x10
  split
  · refine ActUpd.ite ?_ ?_
    · refine ActUpd.ok ?_
      refine State.setMicroAt_upd ?_ (sub_of rfl hk) hc
      · exact hs
    · refine ActUpd.drop ?_
      exact hx11
  · refine ActUpd.ite ?_ ?_
    · extract_lets -merge +onlyGivenNames x12
      extract_lets -merge +onlyGivenNames x14
      refine ActUpd.ok ?_
      refine State.setNanoAt_upd ?_ (sub_of rfl hk) hc
      · exact hs
    · refine ActUpd.drop ?_
      exact hx11
  · refine ActUpd.drop ?_
    exact hs
  · refine ActUpd.drop ?_
    exact hs

theorem genDrop_upd {n : Cluster} {g : Fin 2} {s : State} (hs : Upd K R C s0 s) (hr : 0x1000000000000000000000000000000000000000000000000000000000000000000000000000000000000000000000000 ||| R = R) (hc : ∃ c, C n.val c) :
    ActUpd K R C s0 (genDrop n g s) := by
  unfold genDrop
  refine ActUpd.clash ?_
  refine State.setRb_upd ?_ (testBit_of_sub hr rfl) (RegOk.awg rfl hc)
  exact hs

theorem genCtrl_upd {n : Cluster} {g : Fin 2} {d : Word} {m : Word} {s : State} (hs : Upd K R C s0 s) (hk : 0x40000004040 ||| K = K) (hr : 0x1200030000000000000000000000104000000000000000000000000000000000000000000000000000000000000000000 ||| R = R) (hc : ∀ c, C n.val c) :
    Upd K R C s0 (genCtrl n g d m s) := by
  unfold genCtrl
  extract_lets -merge +onlyGivenNames x6
  extract_lets -merge +onlyGivenNames x8
  have hx9 : Upd K R C s0 x8 := by
    unfold x8
    refine plainWrite_upd ?_ (testBit_of_sub hr rfl) (RegOk.awg rfl ⟨0, hc 0⟩)
    exact hs
  try clear_value x8
  extract_lets -merge +onlyGivenNames x10
  have hx11 : Upd K R C s0 x10 := by
    unfold x10
    refine Upd.ite ?_ ?_
    · refine State.setRb_upd ?_ (testBit_of_sub hr rfl) (RegOk.awg rfl ⟨0, hc 0⟩)
      exact hx9
    · exact hx9
  try clear_value x10
  extract_lets -merge +onlyGivenNames x12
  have hx13 : Upd K R C s0 x12 := by
    unfold x12
    refine Upd.ite ?_ ?_
    · refine awgStop_upd ?_ (sub_of rfl hk) (sub_of rfl hr) ⟨0, hc 0⟩
      · exact hx11
    · exact hx11
  try clear_value x12
  refine Upd.ite ?_ ?_
  · refine startOr_upd (fun z14 h15 => ?_) ?_ (sub_of rfl hk) (sub_of rfl hr) hc
    · beta_reduce
      refine awgStart_upd ?_ (sub_of rfl hk) (sub_of rfl hr) ⟨0, hc 0⟩
      · exact h15
    · exact hx13
  · exact hx13

theorem genRoute_upd {n : Cluster} {g : Fin 2} {d : Word} {m : Word} {s : State} (hs : Upd K R C s0 s) (hr : 0x100000000000000004000000000000000000000000000000000000000000000000000000000000000000000000000 ||| R = R) (hc : ∀ c, C n.val c) :
    Upd K R C s0 (genRoute n g d m s) := by
  unfold genRoute
  refine forChannels_upd (fun z6 z7 h8 => ?_) ?_
  · beta_reduce
    refine noteClamp_upd ?_ ?_ (sub_of rfl hr) (hc _)
    · exact hs
    · exact h8
  · refine plainWrite_upd ?_ (testBit_of_sub hr rfl) (RegOk.awg rfl ⟨0, hc 0⟩)
    exact hs

theorem genEntry_upd {n : Cluster} {g : Fin 2} {d : Word} {m : Word} {s : State} (hs : Upd K R C s0 s) (hk : 0x8000 ||| K = K) (hr : 0x1000000000000000000000000000000000000000000000000000000000000000000000000000000000000000000000 ||| R = R) (hc : ∃ c, C n.val c) :
    Upd K R C s0 (genEntry n g d m s) := by
  unfold genEntry
  extract_lets -merge +onlyGivenNames x6
  extract_lets -merge +onlyGivenNames x8
  refine State.setReg_upd ?_ (testBit_of_sub hr rfl) (RegOk.awg rfl hc)
  refine setAwgEntry_upd ?_ (sub_of rfl hk) hc
  · exact hs

theorem genDds_upd {n : Cluster} {g : Fin 2} {which : Nat} {value : Nat} {s : State} (hs : Upd K R C s0 s) (hk : 0x4000 ||| K = K) (hc : ∃ c, C n.val c) :
    Upd K R C s0 (genDds n g which value s) := by
  unfold genDds
  refine modAwg_upd ?_ (sub_of rfl hk) hc
  · exact hs

theorem genHi_upd {lo : Reg} {hi : Reg} {which : Nat} {held : Word} {n : Cluster} {g : Fin 2} {d : Word} {m : Word} {s : State} (hs : Upd K R C s0 s) (hk : 0x4000 ||| K = K) (hr : 0xffffffffffffffffffffffffffffffffffffffffffffffffffffffffffffffffffffffffffffffffffffffffffffffffffffffffffffffffffffffffffffffff ||| R = R) (hl : RegOk C lo (awgIx n g)) (hh : RegOk C hi (awgIx n g)) (hc : ∀ c, C n.val c) :
    Upd K R C s0 (genHi lo hi which held n g d m s) := by
  unfold genHi
  extract_lets -merge +onlyGivenNames x10
  extract_lets -merge +onlyGivenNames x12
  refine genDds_upd ?_ (sub_of rfl hk) ⟨0, hc 0⟩
  · refine State.setReg_upd ?_ (testBit_of_sub hr (full_testBit _)) hh
    refine State.setReg_upd ?_ (testBit_of_sub hr (full_testBit _)) hl
    exact hs

theorem genWrite_upd {r : Reg} {n : Cluster} {g : Fin 2} {d m : Word} {s : State} (hs : Upd K R C s0 s) (hk : 0x4000000c040 ||| K = K) (hr : 0xffffffffffffffffffffffffffffffffffffffffffffffffffffffffffffffffffffffffffffffffffffffffffffffffffffffffffffffffffffffffffffffff ||| R = R) (hro : RegOk C r (awgIx n g)) (hc : ∀ c, C n.val c) :
    ActUpd K R C s0 (genWrite r n g d m s) := by
  have hp : ∀ d m s, Upd K R C s0 s → Upd K R C s0 (plainWrite r (awgIx n g) d m s) :=
    fun d m s h => plainWrite_upd h (testBit_of_sub hr (full_testBit _)) hro
  unfold genWrite
  extract_lets -merge +onlyGivenNames ix
  refine ActUpd.ite (genDrop_upd hs (sub_of rfl hr) ⟨0, hc 0⟩) ?_
  split
  · extract_lets -merge +onlyGivenNames x9
    exact ActUpd.ite (genDrop_upd hs (sub_of rfl hr) ⟨0, hc 0⟩) (ActUpd.ok (genCtrl_upd hs (sub_of rfl hk) (sub_of rfl hr) hc))
  · exact ActUpd.ite (genDrop_upd hs (sub_of rfl hr) ⟨0, hc 0⟩) (ActUpd.ok (genRoute_upd hs (sub_of rfl hr) hc))
  · extract_lets -merge +onlyGivenNames x11
    have h : Upd K R C s0 x11 := hp d m s hs
    clear_value x11
    exact ActUpd.ok (Upd.ite (jumpRequest_upd h (sub_of rfl hk) ⟨0, hc 0⟩) h)
  · exact ActUpd.ok (modAwg_upd hs (sub_of rfl hk) ⟨0, hc 0⟩)
  · exact ActUpd.ok (genEntry_upd hs (sub_of rfl hk) (sub_of rfl hr) ⟨0, hc 0⟩)
  · exact ActUpd.ok (modAwg_upd hs (sub_of rfl hk) ⟨0, hc 0⟩)
  · exact ActUpd.ok (modAwg_upd hs (sub_of rfl hk) ⟨0, hc 0⟩)
  · exact ActUpd.ok (genHi_upd hs (sub_of rfl hk) (sub_of rfl hr) (RegOk.awg rfl ⟨0, hc 0⟩) (RegOk.awg rfl ⟨0, hc 0⟩) hc)
  · exact ActUpd.ok (genHi_upd hs (sub_of rfl hk) (sub_of rfl hr) (RegOk.awg rfl ⟨0, hc 0⟩) (RegOk.awg rfl ⟨0, hc 0⟩) hc)
  · extract_lets -merge +onlyGivenNames x13
    have h : Upd K R C s0 x13 := cappedWrite_upd hs (testBit_of_sub hr (full_testBit _)) hro
    clear_value x13
    exact ActUpd.ok (genDds_upd h (sub_of rfl hk) ⟨0, hc 0⟩)
  · exact ActUpd.ok (hp d m s hs)

theorem pmResTake_upd {n : Cluster} {c : Channel} {s : State} (hs : Upd K R C s0 s) (hk : 0x40 ||| K = K) (hr : 0x2000000000000000000000000000000000000000000000000000000000000000000000000000000 ||| R = R) (hc : C n.val c.val) :
    Upd K R C s0 (pmResTake n c s) := by
  unfold pmResTake
  extract_lets -merge +onlyGivenNames x4
  refine State.modChan_upd ?_ (sub_of rfl hk) hc
  · refine State.setRb_upd ?_ (testBit_of_sub hr rfl) (RegOk.chan rfl hc)
    exact hs

theorem regRead_upd {q : Req} {r : Reg} {i : Nat} {s : State} (hs : Upd K R C s0 s) (hk : 0x400000200000040 ||| K = K) (hr : 0x3fff840000000000000000002000000000000400000000000000000000000000000000000000000020000000000000000000000 ||| R = R) (hc : ∀ c, C (elemClu r i).val c) :
    SndUpd K R C s0 (regRead q r i s) := by
  unfold regRead
  extract_lets -merge +onlyGivenNames x5
  extract_lets -merge +onlyGivenNames x7
  extract_lets -merge +onlyGivenNames x9
  split
  · refine SndUpd.mk ?_
    refine pmResTake_upd ?_ (sub_of rfl hk) (sub_of rfl hr) (hc _)
    · exact hs
  · refine SndUpd.mk ?_
    exact hs
  · refine SndUpd.mk ?_
    refine State.modChan_upd ?_ (sub_of rfl hk) (hc _)
    · exact hs
  · refine SndUpd.mk ?_
    refine rgStatTake_upd ?_ (sub_of rfl hk) (sub_of rfl hr) (hc _)
    · exact hs
  · refine SndUpd.mk ?_
    refine slcAdvance_upd ?_ (sub_of rfl hr)
    · exact hs
  · refine SndUpd.mk ?_
    refine Upd.free ?_ (testBit_of_sub hk rfl)
    exact hs
  · refine SndUpd.mk ?_
    refine Upd.free ?_ (testBit_of_sub hk rfl)
    exact hs
  · split
    · refine SndUpd.mk ?_
      refine Upd.hiLatch ?_ (testBit_of_sub hk rfl) (tabSet_wf rfl)
      exact hs
    · split
      · refine SndUpd.mk ?_
        refine Upd.hiLatch ?_ (testBit_of_sub hk rfl) (tabSet_wf rfl)
        exact hs
      · refine SndUpd.mk ?_
        exact hs

theorem storeReadAt_upd {n : Cluster} {w : StoreAddr} {s : State} (hs : Upd K R C s0 s) (hr : 0x1000000000000000000000000000000000000000000000000000000000000000000000 ||| R = R) (hc : ∃ c, C n.val c) :
    SndUpd K R C s0 (storeReadAt n w s) := by
  unfold storeReadAt
  extract_lets -merge +onlyGivenNames x4
  refine SndUpd.mk ?_
  refine Upd.ite ?_ ?_
  · refine State.setRb_upd ?_ (testBit_of_sub hr rfl) (RegOk.one rfl hc)
    exact hs
  · exact hs

theorem findReg_elem {b : Bool} {off : Nat} {l : List Reg} {r : Reg} {j : Nat} (h : findReg b off l = some (r, j)) : r.row.cluster = b ∧ r.elemAt off = some j := by
  induction l with
  | nil => cases h
  | cons x l ih =>
    unfold findReg at h
    split at h
    · rename_i hx
      split at h
      · rename_i k hk; cases h; exact ⟨hx, hk⟩
      · exact ih h
    · exact ih h

theorem regAt_window {a : Nat} {r : Reg} {i : Nat} (h : regAt a = some (r, i)) (ha : 0x1000000 ≤ a ∧ a < 0x2800000) :
    i / r.row.count = (a - 0x1000000) / 0x100000 := by
  unfold regAt at h
  rw [if_neg (by omega), if_pos (by omega)] at h
  split at h
  · rename_i r' j hf
    cases h
    have hj := (findReg_elem hf).2
    unfold Reg.elemAt at hj
    split at hj
    · rename_i hb
      cases hj
      have hp : 0 < r.row.count := Nat.lt_of_le_of_lt (Nat.zero_le _) hb.2.2
      rw [Nat.mul_comm, Nat.mul_add_div hp, Nat.div_eq_of_lt hb.2.2, Nat.add_zero]
    · cases hj
  · cases h

theorem padClu_val {k : Nat} (h : k < 24) : (padClu (k, 0)).val = k := Nat.mod_eq_of_lt h

theorem readPick_upd {q : Req} {n : Cluster} {s : State} {x : Option (Reg × Nat)} {y : Option StoreAddr} {b : Prop} [Decidable b] (hs : Upd K R C s0 s)
    (hk : 0x400000200000040 ||| K = K) (hr : 0x3fff840000000000000000002000000001000400000000000000000000000000000000000000000020000000000000000000000 ||| R = R) : (∀ r i, x = some (r, i) → ∀ c, C (elemClu r i).val c) → (b → ∃ c, C n.val c) →
    SndUpd K R C s0 (match x with
      | some (r, i) => regRead q r i s
      | none =>
        if b then
          match y with
          | some w => storeReadAt n w s
          | none => (0#32, s)
        else (0#32, s)) := by
  intro hx hb
  rcases x with _ | ⟨r, i⟩
  · by_cases h : b
    · simp only [if_pos h]
      rcases y with _ | w
      · exact SndUpd.mk hs
      · exact storeReadAt_upd hs (sub_of rfl hr) (hb h)
    · simp only [if_neg h]
      exact SndUpd.mk hs
  · exact regRead_upd hs (sub_of rfl hk) (sub_of rfl hr) (hx r i rfl)

theorem readAt_clu {q : Req} {a : Nat} {s : State} (hs : Upd K R C s0 s) (hk : 0x400000200000040 ||| K = K) (hr : 0x3fff840000000000000000002000000001000400000000000000000000000000000000000000000020000000000000000000000 ||| R = R)
    (ha : 0x1000000 ≤ a ∧ a < 0x2800000) (hc : ∀ c, C ((a - 0x1000000) / 0x100000) c) : SndUpd K R C s0 (readAt q a s) := by
  have hv := padClu_val (k := (a - 0x1000000) / 0x100000) (by omega)
  have hx : ∀ r i, regAt a = some (r, i) → ∀ c, C (elemClu r i).val c := fun r i h => by
    have e : (elemClu r i).val = (a - 0x1000000) / 0x100000 := by
      have := regAt_window h ha
      unfold elemClu Reg.cluOf
      rw [this]; exact hv
    rw [e]; exact hc
  have hb : (0x1000000 ≤ a ∧ a < 0x2800000) → ∃ c, C (padClu ((a - 0x1000000) / 0x100000, 0)).val c := fun _ => ⟨0, by rw [hv]; exact hc 0⟩
  unfold readAt
  generalize regAt a = x at hx ⊢
  generalize storeAt ((a - 0x1000000) % 0x100000) = y
  exact SndUpd.ite (SndUpd.mk hs) (SndUpd.ite (SndUpd.mk hs) (SndUpd.ite (SndUpd.mk hs) (readPick_upd hs hk hr hx hb)))

theorem readAt_upd {q : Req} {a : Nat} {s : State} (hs : Upd K R C s0 s) (hk : 0x400000200000040 ||| K = K) (hr : 0x3fff840000000000000000002000000001000400000000000000000000000000000000000000000020000000000000000000000 ||| R = R)
    (hc : ∀ n c, C n c) : SndUpd K R C s0 (readAt q a s) := by
  have hx : ∀ r i, regAt a = some (r, i) → ∀ c, C (elemClu r i).val c := fun r i _ c => hc _ _
  have hb : (0x1000000 ≤ a ∧ a < 0x2800000) → ∃ c, C (padClu ((a - 0x1000000) / 0x100000, 0)).val c := fun _ => ⟨0, hc _ _⟩
  unfold readAt
  generalize regAt a = x at hx ⊢
  generalize storeAt ((a - 0x1000000) % 0x100000) = y
  exact SndUpd.ite (SndUpd.mk hs) (SndUpd.ite (SndUpd.mk hs) (SndUpd.ite (SndUpd.mk hs) (readPick_upd hs hk hr hx hb)))

theorem hostRead_clu {q : Req} {a : Nat} {s : State} (hs : Upd K R C s0 s) (hk : 0xc80000200000040 ||| K = K) (hr : 0x3fff840000000000000000002000000001000400000000000000000000000000000000004010000020100000000000000000000 ||| R = R)
    (ha : 0x1000000 ≤ a ∧ a < 0x2800000) (hc : ∀ c, C ((a - 0x1000000) / 0x100000) c) : Upd K R C s0 (hostRead q a s) := by
  unfold hostRead
  refine Upd.ite hs ?_
  extract_lets s1 x
  have h1 : Upd K R C s0 s1 := Upd.ite (hostWakes_upd hs (sub_of rfl hk) (sub_of rfl hr)) hs
  clear_value s1
  have hx : SndUpd K R C s0 x := SndUpd.ite (SndUpd.mk h1) (readAt_clu h1 (sub_of rfl hk) (sub_of rfl hr) ha hc)
  exact State.emit_upd hx (sub_of rfl hk)

theorem hostRead_upd {q : Req} {a : Nat} {s : State} (hs : Upd K R C s0 s) (hk : 0xc80000200000040 ||| K = K) (hr : 0x3fff840000000000000000002000000001000400000000000000000000000000000000004010000020100000000000000000000 ||| R = R)
    (hc : ∀ n c, C n c) : Upd K R C s0 (hostRead q a s) := by
  unfold hostRead
  refine Upd.ite hs ?_
  extract_lets s1 x
  have h1 : Upd K R C s0 s1 := Upd.ite (hostWakes_upd hs (sub_of rfl hk) (sub_of rfl hr)) hs
  clear_value s1
  have hx : SndUpd K R C s0 x := SndUpd.ite (SndUpd.mk h1) (readAt_upd h1 (sub_of rfl hk) (sub_of rfl hr) hc)
  exact State.emit_upd hx (sub_of rfl hk)

end Sys2Proof.Machine
end

