-- ==== Sys2Proof/Laws/Frames5.lean ====
section
/-! SUPPORT. Sys2Proof/Laws/Frames5.lean: what each operation of Machine/RegPut, RegWrite, Boot, CapFlow, ChanCmds, Channel, Clocks
may change: parts and registers as bits of two numbers, and where (Laws/Upd.lean). Each lemma carries Inv and the queue of
commands over its operation. -/

set_option linter.unusedVariables false

namespace Sys2Proof.Machine

variable {K R : Nat} {C : Nat → Nat → Prop} {s0 : State}

theorem calReqWrite_upd {n : Cluster} {d : Word} {m : Word} {s : State} (hs : Upd K R C s0 s) (hk : 0x40000000000 ||| K = K) (hr : 0x6000000000000000000000000000000000000000000000000000000000000000000 ||| R = R) (hc : ∃ c, C n.val c) :
    Upd K R C s0 (calReqWrite n d m s) := by
  unfold calReqWrite
  extract_lets -merge +onlyGivenNames x5
  have hx6 : Upd K R C s0 x5 := by
    unfold x5
    refine plainWrite_upd ?_ (testBit_of_sub hr rfl) (RegOk.one rfl hc)
    exact hs
  try clear_value x5
  refine Upd.ite ?_ ?_
  · refine calBecomeDue_upd ?_ (sub_of rfl hk) (sub_of rfl hr) hc
    · exact hx6
  · exact hx6

theorem stcorrWrite_upd {n : Cluster} {i : Nat} {d : Word} {m : Word} {s : State} (hs : Upd K R C s0 s) (hr : 0x2000000000000000800000000000000000000000000000000000000000000000000000000000000000 ||| R = R) (hro : RegOk C .STCORR_TAB i) (hc : ∀ c, C n.val c) :
    ActUpd K R C s0 (stcorrWrite n i d m s) := by
  unfold stcorrWrite
  refine ActUpd.ite ?_ ?_
  · refine ActUpd.drop ?_
    refine State.setRb_upd ?_ (testBit_of_sub hr rfl) (RegOk.one rfl ⟨0, hc 0⟩)
    exact hs
  · refine ActUpd.ok ?_
    refine plainWrite_upd ?_ (testBit_of_sub hr rfl) hro
    exact hs

theorem RegOk.band {C : Nat → Nat → Prop} {r : Reg} {n : Cluster} {j m : Nat} (hm : r.row.cluster = true → r.row.count = m) (hj : j / m = n.val) (hc : ∀ c, C n.val c) : RegOk C r j := by
  intro h
  have e := hm h
  refine ⟨fun h2 => ?_, 0, ?_⟩
  · have : m = 32 := by omega
    subst this; rw [hj]; exact hc _
  · rw [e, hj]; exact hc _

theorem Reg.count_chan (r : Reg) (h : 0x1000 ≤ r.row.base ∧ r.row.base < 0x1080) : r.row.cluster = true → r.row.count = 32 := by
  revert h; cases r <;> decide

theorem Reg.count_unit (r : Reg) (h : 0x18000 ≤ r.row.base ∧ r.row.base < 0x18040) : r.row.cluster = true → r.row.count = 8 := by
  revert h; cases r <;> decide

theorem Reg.count_engine (r : Reg) (h : 0x18800 ≤ r.row.base ∧ r.row.base < 0x18840) : r.row.cluster = true → r.row.count = 2 := by
  revert h; cases r <;> decide

theorem Reg.count_gen (r : Reg) (h : 0x19000 ≤ r.row.base ∧ r.row.base < 0x19100) : r.row.cluster = true → r.row.count = 2 := by
  revert h; cases r <;> decide

theorem cluPut_upd {q : Req} {n : Cluster} {r : Reg} {i : Nat} {d m : Word} {s : State} (hs : Upd K R C s0 s) (hk : 0x4000c000000f7c0 ||| K = K) (hr : 0xffffffffffffffffffffffffffffffffffffffffffffffffffffffffffffffffffffffffffffffffffffffffffffffffffffffffffffffffffffffffffffffff ||| R = R) (hro : RegOk C r i) (hc : ∀ c, C n.val c) :
    ActUpd K R C s0 (cluPut q n r i d m s) := by
  have hp : Upd K R C s0 (plainWrite r i d m s) := plainWrite_upd hs (testBit_of_sub hr (full_testBit _)) hro
  have e1 : ∃ c, C n.val c := ⟨0, hc 0⟩
  unfold cluPut
  split
  · exact ActUpd.ok (seqCtrlWrite_upd hs (sub_of rfl hk) (sub_of rfl hr) hc)
  · exact ActUpd.ok (hopCtrlWrite_upd hs (sub_of rfl hk) (sub_of rfl hr) e1)
  · exact ActUpd.ok (cappedWrite_upd hs (testBit_of_sub hr (full_testBit _)) hro)
  · exact ActUpd.ok (mrCmdWrite_upd hs (sub_of rfl hk) (sub_of rfl hr) hc)
  · exact ActUpd.ok (timCtrlSet_upd hs (sub_of rfl hk) (sub_of rfl hr) e1)
  · exact ActUpd.ok (calReqWrite_upd hs (sub_of rfl hk) (sub_of rfl hr) e1)
  · exact ActUpd.ok (blankTmrWrite_upd hs (sub_of rfl hk) (sub_of rfl hr) e1)
  · exact ActUpd.ok (levelTabWrite_upd hs (sub_of rfl hk) (sub_of rfl hr) hro hc)
  · exact tableWrite_upd hs hp (sub_of rfl hr) e1
  · exact tableWrite_upd hs hp (sub_of rfl hr) e1
  · exact perWrite_upd hs (sub_of rfl hr) hro hc
  · exact corrWrite_upd hs (sub_of rfl hr) hro hc
  · exact stcorrWrite_upd hs (sub_of rfl hr) hro hc
  · exact trimWrite_upd hs (sub_of rfl hk) (sub_of rfl hr) hro hc
  · exact trimWrite_upd hs (sub_of rfl hk) (sub_of rfl hr) hro hc
  · exact ActUpd.ok (rgCtrlWrite_upd hs (sub_of rfl hk) (sub_of rfl hr) hc)
  · exact ActUpd.ok (glenWrite_upd hs (sub_of rfl hr) hro hro)
  · exact ActUpd.ok (glenWrite_upd hs (sub_of rfl hr) hro hro)
  · exact ActUpd.ok (tsCtrlWrite_upd hs (sub_of rfl hk) (sub_of rfl hr) (hc _))
  · extract_lets b
    split
    · rename_i h
      exact ActUpd.ok (chanWrite_upd hs (sub_of rfl hk) (sub_of rfl hr) (RegOk.band (r.count_chan h) (by unfold chIx; omega) hc) hc)
    · split
      · rename_i h
        exact ActUpd.ok (trgWrite_upd hs (sub_of rfl hk) (sub_of rfl hr) (RegOk.band (r.count_unit h) (by unfold trgIx; omega) hc) hc)
      · split
        · rename_i h
          exact ActUpd.ok (cptWrite_upd hs (sub_of rfl hk) (sub_of rfl hr) (RegOk.band (r.count_engine h) (by unfold awgIx; omega) hc) hc)
        · split
          · rename_i h
            exact genWrite_upd hs (sub_of rfl hk) (sub_of rfl hr) (RegOk.band (r.count_gen h) (by unfold awgIx; omega) hc) hc
          · exact ActUpd.ok hp

theorem stickyWrite_upd {i : Nat} {d : Word} {m : Word} {s : State} (hs : Upd K R C s0 s) (hk : 0x800000000000 ||| K = K) (hr : 0x40000000000000000 ||| R = R) :
    Upd K R C s0 (stickyWrite i d m s) := by
  unfold stickyWrite
  refine foldl_range_upd ?_ fun x6 y hyx6 h5 => ?_
  · refine plainWrite_upd ?_ (testBit_of_sub hr rfl) (RegOk.glob rfl)
    exact hs
  · beta_reduce
    refine Upd.ite ?_ ?_
    · refine State.setFlt_upd ?_ (sub_of rfl hk)
      · exact h5
    · exact h5

theorem quietWrite_upd {d : Word} {m : Word} {s : State} (hs : Upd K R C s0 s) (hr : 0x800000000000000 ||| R = R) :
    Upd K R C s0 (quietWrite d m s) := by
  unfold quietWrite
  extract_lets -merge +onlyGivenNames x4
  have hx5 : Upd K R C s0 x4 := by
    unfold x4
    refine cappedWrite_upd ?_ (testBit_of_sub hr rfl) (RegOk.glob rfl)
    exact hs
  try clear_value x4
  refine Upd.ite ?_ ?_
  · refine State.setRf_upd ?_ (testBit_of_sub hr rfl) (RegOk.glob rfl)
    exact hx5
  · exact hx5

theorem routeWrite_upd {k : Nat} {d : Word} {m : Word} {s : State} (hs : Upd K R C s0 s) (hr : 0x80000000000000 ||| R = R) :
    Upd K R C s0 (routeWrite k d m s) := by
  unfold routeWrite
  extract_lets -merge +onlyGivenNames x5
  refine State.setReg_upd ?_ (testBit_of_sub hr rfl) (RegOk.glob rfl)
  exact hs

theorem retCluWrite_upd {d : Word} {m : Word} {s : State} (hs : Upd K R C s0 s) (hk : 0x422000020004140 ||| K = K) (hr : 0x83f3fff9c12000200000000000020240c0000000c00002000000000000000000000000000000800050000000031200000000000000 ||| R = R) (hc : ∀ n c, C n c) :
    Upd K R C s0 (retCluWrite d m s) := by
  unfold retCluWrite
  refine forClusters_upd (fun z4 z5 h6 => ?_) ?_
  · beta_reduce
    refine Upd.ite ?_ ?_
    · refine retireCluster_upd ?_ (sub_of rfl hk) (sub_of rfl hr) (hc _)
      · exact h6
    · exact h6
  · exact hs

theorem linkPut_upd {q : Req} {r : Reg} {i : Nat} {d : Word} {m : Word} {s : State} (hs : Upd K R C s0 s) (hk : 0x800000410000140 ||| K = K) (hr : 0xffffffffffffffffffffffffffffffffffffffffffffffffffffffffffffffffffffffffffffffffffffffffffffffffffffffffffffffffffffffffffffffff ||| R = R) (hc : ∀ n c, C n c) :
    ActUpd K R C s0 (linkPut q r i d m s) := by
  unfold linkPut
  split
  · refine ActUpd.ok ?_
    refine ringCtrlWrite_upd ?_ (sub_of rfl hk) (sub_of rfl hr)
    · exact hs
  · refine ActUpd.ite ?_ ?_
    · refine ActUpd.drop ?_
      exact hs
    · refine ActUpd.ok ?_
      refine plainWrite_upd ?_ (testBit_of_sub hr (full_testBit _)) (RegOk.all hc)
      exact hs
  · refine ActUpd.ite ?_ ?_
    · refine ActUpd.drop ?_
      exact hs
    · refine ActUpd.ok ?_
      refine plainWrite_upd ?_ (testBit_of_sub hr (full_testBit _)) (RegOk.all hc)
      exact hs
  · refine ActUpd.ok ?_
    refine cappedWrite_upd ?_ (testBit_of_sub hr (full_testBit _)) (RegOk.all hc)
    exact hs
  · refine ActUpd.ok ?_
    refine psmCtrlWrite_upd ?_ (sub_of rfl hk) (sub_of rfl hr)
    · exact hs
  · refine ActUpd.ok ?_
    refine hctrlWrite_upd ?_ (sub_of rfl hr)
    · exact hs
  · refine mbxOutWrite_upd ?_ (sub_of rfl hr)
    · exact hs
  · refine ActUpd.ok ?_
    refine capCtrlWrite_upd ?_ (sub_of rfl hk) (sub_of rfl hr) hc
    · exact hs
  · refine ActUpd.ok ?_
    refine plainWrite_upd ?_ (testBit_of_sub hr (full_testBit _)) (RegOk.all hc)
    exact hs

theorem calPut_upd {q : Req} {r : Reg} {i : Nat} {d : Word} {m : Word} {s : State} (hs : Upd K R C s0 s) (hk : 0x800100430000140 ||| K = K) (hr : 0xffffffffffffffffffffffffffffffffffffffffffffffffffffffffffffffffffffffffffffffffffffffffffffffffffffffffffffffffffffffffffffffff ||| R = R) (hc : ∀ n c, C n c) :
    ActUpd K R C s0 (calPut q r i d m s) := by
  unfold calPut
  split
  · refine ActUpd.ok ?_
    refine govCtrlWrite_upd ?_ (sub_of rfl hr) hc
    · exact hs
  · refine nomWrite_upd ?_ (sub_of rfl hr) hc
    · exact hs
  · refine nomWrite_upd ?_ (sub_of rfl hr) hc
    · exact hs
  · refine ActUpd.ok ?_
    refine calCtrlWrite_upd ?_ (sub_of rfl hk) (sub_of rfl hr)
    · exact hs
  · refine certWrite_upd ?_ (sub_of rfl hr)
    · exact hs
  · refine linkPut_upd ?_ (sub_of rfl hk) (sub_of rfl hr) hc
    · exact hs

theorem powerPut_upd {q : Req} {r : Reg} {i : Nat} {d : Word} {m : Word} {s : State} (hs : Upd K R C s0 s) (hk : 0xc00100430004140 ||| K = K) (hr : 0xffffffffffffffffffffffffffffffffffffffffffffffffffffffffffffffffffffffffffffffffffffffffffffffffffffffffffffffffffffffffffffffff ||| R = R) (hc : ∀ n c, C n c) :
    ActUpd K R C s0 (powerPut q r i d m s) := by
  unfold powerPut
  split
  · refine ActUpd.ok ?_
    refine cappedWrite_upd ?_ (testBit_of_sub hr (full_testBit _)) (RegOk.all hc)
    exact hs
  · refine ActUpd.ok ?_
    refine pwrCtrlWrite_upd ?_ (sub_of rfl hk) (sub_of rfl hr) hc
    · exact hs
  · refine calPut_upd ?_ (sub_of rfl hk) (sub_of rfl hr) hc
    · exact hs

theorem fabricPut_upd {q : Req} {r : Reg} {i : Nat} {d : Word} {m : Word} {s : State} (hs : Upd K R C s0 s) (hk : 0xc00100430c54140 ||| K = K) (hr : 0xffffffffffffffffffffffffffffffffffffffffffffffffffffffffffffffffffffffffffffffffffffffffffffffffffffffffffffffffffffffffffffffff ||| R = R) (hc : ∀ n c, C n c) :
    ActUpd K R C s0 (fabricPut q r i d m s) := by
  unfold fabricPut
  split
  · refine ActUpd.ok ?_
    refine cappedWrite_upd ?_ (testBit_of_sub hr (full_testBit _)) (RegOk.all hc)
    exact hs
  · refine bankOwnSet_upd ?_ (sub_of rfl hr)
    · exact hs
  · refine bankStateSet_upd ?_ (sub_of rfl hr)
    · exact hs
  · refine ActUpd.ok ?_
    refine slcPut_upd ?_ (sub_of rfl hk) (sub_of rfl hr)
    · exact hs
  · refine ActUpd.ok ?_
    refine Upd.ite ?_ ?_
    · refine slcGo_upd ?_ (sub_of rfl hk) (sub_of rfl hr)
      · exact hs
    · exact hs
  · refine ActUpd.ok ?_
    refine Upd.ite ?_ ?_
    · refine Upd.lotPend ?_ (testBit_of_sub hk rfl)
      exact hs
    · exact hs
  · refine ActUpd.ok ?_
    refine lfsrSet_upd ?_ (sub_of rfl hk) (sub_of rfl hr)
    · exact hs
  · refine ActUpd.ok ?_
    refine semAcquire_upd ?_ (sub_of rfl hk) (sub_of rfl hr)
    · exact hs
  · refine ActUpd.ok ?_
    refine semRelease_upd ?_ (sub_of rfl hk) (sub_of rfl hr)
    · exact hs
  · refine powerPut_upd ?_ (sub_of rfl hk) (sub_of rfl hr) hc
    · exact hs

theorem faultPut_upd {q : Req} {r : Reg} {i : Nat} {d : Word} {m : Word} {s : State} (hs : Upd K R C s0 s) (hk : 0xe23900430c54140 ||| K = K) (hr : 0xffffffffffffffffffffffffffffffffffffffffffffffffffffffffffffffffffffffffffffffffffffffffffffffffffffffffffffffffffffffffffffffff ||| R = R) (hc : ∀ n c, C n c) :
    ActUpd K R C s0 (faultPut q r i d m s) := by
  unfold faultPut
  split
  · refine ActUpd.ok ?_
    refine cappedWrite_upd ?_ (testBit_of_sub hr (full_testBit _)) (RegOk.all hc)
    exact hs
  · refine ActUpd.ok ?_
    refine quietWrite_upd ?_ (sub_of rfl hr)
    · exact hs
  · refine ActUpd.ok ?_
    refine stickyWrite_upd ?_ (sub_of rfl hk) (sub_of rfl hr)
    · exact hs
  · refine ActUpd.ok ?_
    refine State.setReg_upd ?_ (testBit_of_sub hr (full_testBit _)) (RegOk.all hc)
    exact hs
  · refine ActUpd.ok ?_
    refine inject_upd ?_ (sub_of rfl hk)
    · refine State.setReg_upd ?_ (testBit_of_sub hr (full_testBit _)) (RegOk.all hc)
      exact hs
  · refine ActUpd.ok ?_
    refine retCluWrite_upd ?_ (sub_of rfl hk) (sub_of rfl hr) hc
    · exact hs
  · refine ActUpd.ok ?_
    refine retireMask_upd ?_ (sub_of rfl hk) (sub_of rfl hr) (hc _)
    · exact hs
  · refine ActUpd.ok ?_
    refine asyCtrlWrite_upd ?_ (sub_of rfl hk) (sub_of rfl hr)
    · exact hs
  · refine fabricPut_upd ?_ (sub_of rfl hk) (sub_of rfl hr) hc
    · exact hs

theorem globalPut_upd {q : Req} {r : Reg} {i : Nat} {d : Word} {m : Word} {s : State} (hs : Upd K R C s0 s) (hk : 0xe63900470c54140 ||| K = K) (hr : 0xffffffffffffffffffffffffffffffffffffffffffffffffffffffffffffffffffffffffffffffffffffffffffffffffffffffffffffffffffffffffffffffff ||| R = R) (hc : ∀ n c, C n c) :
    ActUpd K R C s0 (globalPut q r i d m s) := by
  unfold globalPut
  split
  · refine ActUpd.ok ?_
    refine Upd.ite ?_ ?_
    · exact hs
    · refine plainWrite_upd ?_ (testBit_of_sub hr (full_testBit _)) (RegOk.all hc)
      exact hs
  · refine ActUpd.ok ?_
    refine Upd.ite ?_ ?_
    · exact hs
    · refine plainWrite_upd ?_ (testBit_of_sub hr (full_testBit _)) (RegOk.all hc)
      exact hs
  · refine ActUpd.ok ?_
    refine Upd.ite ?_ ?_
    · refine State.setRb_upd ?_ (testBit_of_sub hr rfl) (RegOk.glob rfl)
      exact hs
    · exact hs
  · refine ActUpd.ok ?_
    refine patchCtrlWrite_upd ?_ (sub_of rfl hk) (sub_of rfl hr)
    · exact hs
  · refine mgmtSet_upd ?_ (sub_of rfl hr)
    · exact hs
  · refine cluOwnerSet_upd ?_ (sub_of rfl hr)
    · exact hs
  · refine ActUpd.ok ?_
    refine cappedWrite_upd ?_ (testBit_of_sub hr (full_testBit _)) (RegOk.all hc)
    exact hs
  · refine ActUpd.ok ?_
    refine cappedWrite_upd ?_ (testBit_of_sub hr (full_testBit _)) (RegOk.all hc)
    exact hs
  · refine ActUpd.ok ?_
    refine txnCtrl_upd ?_ (sub_of rfl hk) (sub_of rfl hr)
    · exact hs
  · refine ActUpd.ok ?_
    refine routeWrite_upd ?_ (sub_of rfl hr)
    · exact hs
  · refine faultPut_upd ?_ (sub_of rfl hk) (sub_of rfl hr) hc
    · exact hs

theorem cluAct_upd {q : Req} {n : Cluster} {d m : Word} {s : State} {x : Option (Reg × Nat)} {y : Option StoreAddr} (hs : Upd K R C s0 s) (hk : 0xe639c05f0c5f7cc ||| K = K) (hr : 0xffffffffffffffffffffffffffffffffffffffffffffffffffffffffffffffffffffffffffffffffffffffffffffffffffffffffffffffffffffffffffffffff ||| R = R)
    (hc : ∀ c, C n.val c) : (∀ r i, x = some (r, i) → i / r.row.count = n.val) →
    ActUpd K R C s0 (match x with
        | some (r, i) => cluPut q n r i d m s
        | none =>
          match y with
          | some w => storePut n w d (decide (m = 0xFFFFFFFF#32)) s
          | none => .ok s) := by
  intro hx
  rcases x with _ | ⟨r, i⟩
  · rcases y with _ | w
    · exact ActUpd.ok hs
    · exact storePut_upd hs (sub_of rfl hk) (sub_of rfl hr) ⟨0, hc 0⟩
  · exact cluPut_upd hs (sub_of rfl hk) (sub_of rfl hr) (RegOk.clu (hx r i rfl) hc) hc

theorem ungateAct_upd {n : Nat} {x : Act} (hr : 0xffffffffffffffffffffffffffffffffffffffffffffffffffffffffffffffffffffffffffffffffffffffffffffffffffffffffffffffffffffffffffffffff ||| R = R) : ActUpd K R C s0 x →
    ActUpd K R C s0 (match x with
      | .ok s' => .ok (ungate n s')
      | y => y) := by
  intro hx
  cases hx with
  | ok h => exact ActUpd.ok (ungate_upd h (sub_of rfl hr))
  | drop h => exact ActUpd.drop h
  | clash h => exact ActUpd.clash h

theorem regPut_clu {q : Req} {a : Nat} {d m : Word} {s : State} (hs : Upd K R C s0 s) (hk : 0xe639c05f0c5f7cc ||| K = K) (hr : 0xffffffffffffffffffffffffffffffffffffffffffffffffffffffffffffffffffffffffffffffffffffffffffffffffffffffffffffffffffffffffffffffff ||| R = R)
    (ha : 0x1000000 ≤ a ∧ a < 0x2800000) (hc : ∀ c, C ((a - 0x1000000) / 0x100000) c) : ActUpd K R C s0 (regPut q a d m s) := by
  have hv := padClu_val (k := (a - 0x1000000) / 0x100000) (by omega)
  unfold regPut
  rw [if_neg (by omega), if_pos ha]
  generalize padClu ((a - 0x1000000) / 0x100000, 0) = n at hv ⊢
  have hc' : ∀ c, C n.val c := by rw [hv]; exact hc
  have hx := fun r i h => (regAt_window (a := a) (r := r) (i := i) h ha).trans hv.symm
  generalize regAt a = x at hx ⊢
  generalize storeAt ((a - 0x1000000) % 0x100000) = y
  exact ActUpd.ite (ActUpd.ok hs) (ungateAct_upd hr (cluAct_upd hs hk hr hc' hx))

theorem regPut_upd {q : Req} {a : Nat} {d m : Word} {s : State} (hs : Upd K R C s0 s) (hk : 0xe639c05f0c5f7cc ||| K = K) (hr : 0xffffffffffffffffffffffffffffffffffffffffffffffffffffffffffffffffffffffffffffffffffffffffffffffffffffffffffffffffffffffffffffffff ||| R = R)
    (hc : ∀ n c, C n c) : ActUpd K R C s0 (regPut q a d m s) := by
  by_cases ha : 0x1000000 ≤ a ∧ a < 0x2800000
  · exact regPut_clu hs hk hr ha (hc _)
  · unfold regPut
    split
    · exact ActUpd.ok (Upd.ite (msixPut_upd hs (sub_of rfl hk)) hs)
    · split
      · exact globalPut_upd hs (sub_of rfl hk) (sub_of rfl hr) hc
      · exact ActUpd.ok hs

theorem claims_upd {q : Req} {s : State} {x : Act} {w : Option (Cluster × Option (Nat × Nat))} (hs : Upd K R C s0 s) (hr : 0xffffffffffffffffffffffffffffffffffffffffffffffffffffffffffffffffffffffffffffffffffffffffffffffffffffffffffffffffffffffffffffffff ||| R = R) :
    ActUpd K R C s0 x → (∀ n y, w = some (n, y) → ∀ c, C n.val c) → FstUpd K R C s0 (match x with
      | .drop s' | .clash s' _ _ => (s', false)
      | .ok s' =>
        match w with
        | some (n, some x) =>
          if (claimFail q s' n [x]).isSome then (s, false)
          else if x.1 = 0 ∧ overBudget s s' n then (s.setRb .CH_EVT (chIx n (elemCh x.2)) 21 true, false)
          else (s', true)
        | _ => (s', true)) := by
  intro hx hw
  cases hx with
  | drop h => exact h
  | clash h => exact h
  | ok h =>
    rcases w with _ | ⟨n, _ | y⟩
    · exact h
    · exact h
    · exact FstUpd.ite (FstUpd.mk hs)
        (FstUpd.ite (FstUpd.mk (State.setRb_upd hs (testBit_of_sub hr rfl) (RegOk.chan rfl (hw n _ rfl _)))) (FstUpd.mk h))

theorem touched_clu {a : Nat} {n : Cluster} {y : Option (Nat × Nat)} (h : touched a = some (n, y)) :
    (0x1000000 ≤ a ∧ a < 0x2800000) ∧ n.val = (a - 0x1000000) / 0x100000 := by
  unfold touched at h
  by_cases ha : 0x1000000 ≤ a ∧ a < 0x2800000
  · rw [if_pos ha] at h
    injection h with h; injection h with h1 _
    exact ⟨ha, by rw [← h1]; exact padClu_val (by omega)⟩
  · rw [if_neg ha] at h; cases h

theorem regWrite_clu {q : Req} {a : Nat} {d m : Word} {s : State} (hs : Upd K R C s0 s) (hk : 0xe639c05f0c5f7cc ||| K = K) (hr : 0xffffffffffffffffffffffffffffffffffffffffffffffffffffffffffffffffffffffffffffffffffffffffffffffffffffffffffffffffffffffffffffffff ||| R = R)
    (ha : 0x1000000 ≤ a ∧ a < 0x2800000) (hc : ∀ c, C ((a - 0x1000000) / 0x100000) c) : FstUpd K R C s0 (regWrite q a d m s) := by
  have hp := regPut_clu (q := q) (d := d) (m := m) hs (sub_of rfl hk) (sub_of rfl hr) ha hc
  have hw : ∀ (n : Cluster) y, touched a = some (n, y) → ∀ c, C n.val c := fun n y h c => by rw [(touched_clu h).2]; exact hc c
  unfold regWrite
  exact claims_upd hs (sub_of rfl hr) hp hw

theorem regWrite_upd {q : Req} {a : Nat} {d m : Word} {s : State} (hs : Upd K R C s0 s) (hk : 0xe639c05f0c5f7cc ||| K = K) (hr : 0xffffffffffffffffffffffffffffffffffffffffffffffffffffffffffffffffffffffffffffffffffffffffffffffffffffffffffffffffffffffffffffffff ||| R = R)
    (hc : ∀ n c, C n c) : FstUpd K R C s0 (regWrite q a d m s) := by
  have hp := regPut_upd (q := q) (a := a) (d := d) (m := m) hs (sub_of rfl hk) (sub_of rfl hr) hc
  unfold regWrite
  exact claims_upd hs (sub_of rfl hr) hp fun n _ _ => hc n.val

theorem noteRefused_upd {q : Req} {a : Nat} {code : Nat} {s : State} (hs : Upd K R C s0 s) (hr : 0x1300000 ||| R = R) :
    Upd K R C s0 (noteRefused q a code s) := by
  unfold noteRefused
  extract_lets -merge +onlyGivenNames x5
  extract_lets -merge +onlyGivenNames x7
  have hx8 : Upd K R C s0 x7 := by
    unfold x7
    refine State.setReg_upd ?_ (testBit_of_sub hr rfl) (RegOk.glob rfl)
    refine State.setReg_upd ?_ (testBit_of_sub hr rfl) (RegOk.glob rfl)
    exact hs
  try clear_value x7
  refine Upd.ite ?_ ?_
  · refine State.setRb_upd ?_ (testBit_of_sub hr rfl) (RegOk.glob rfl)
    exact hx8
  · exact hx8

theorem slaveWrite_clu {q : Req} {a : Nat} {d : Word} {be : BitVec 4} {s : State} (hs : Upd K R C s0 s) (hk : 0xe639c05f0c5f7cc ||| K = K) (hr : 0xffffffffffffffffffffffffffffffffffffffffffffffffffffffffffffffffffffffffffffffffffffffffffffffffffffffffffffffffffffffffffffffff ||| R = R)
    (ha : 0x1000000 ≤ a ∧ a < 0x2800000) (hc : ∀ c, C ((a - 0x1000000) / 0x100000) c) : FstUpd K R C s0 (slaveWrite q a d be s) := by
  unfold slaveWrite
  extract_lets m
  refine FstUpd.ite (FstUpd.mk (txnStage_upd hs (sub_of rfl hk) (sub_of rfl hr))) ?_
  extract_lets code
  exact FstUpd.ite (FstUpd.mk (noteRefused_upd hs (sub_of rfl hr))) (FstUpd.mk (regWrite_clu hs (sub_of rfl hk) (sub_of rfl hr) ha hc))

theorem slaveWrite_upd {q : Req} {a : Nat} {d : Word} {be : BitVec 4} {s : State} (hs : Upd K R C s0 s) (hk : 0xe639c05f0c5f7cc ||| K = K) (hr : 0xffffffffffffffffffffffffffffffffffffffffffffffffffffffffffffffffffffffffffffffffffffffffffffffffffffffffffffffffffffffffffffffff ||| R = R)
    (hc : ∀ n c, C n c) : FstUpd K R C s0 (slaveWrite q a d be s) := by
  unfold slaveWrite
  extract_lets m
  refine FstUpd.ite (FstUpd.mk (txnStage_upd hs (sub_of rfl hk) (sub_of rfl hr))) ?_
  extract_lets code
  exact FstUpd.ite (FstUpd.mk (noteRefused_upd hs (sub_of rfl hr))) (FstUpd.mk (regWrite_upd hs (sub_of rfl hk) (sub_of rfl hr) hc))

theorem hostWrite_clu {q : Req} {a : Nat} {d : Word} {be : BitVec 4} {size : Nat} {s : State} (hs : Upd K R C s0 s) (hk : 0xee39c05f0c5f7cc ||| K = K) (hr : 0xffffffffffffffffffffffffffffffffffffffffffffffffffffffffffffffffffffffffffffffffffffffffffffffffffffffffffffffffffffffffffffffff ||| R = R)
    (ha : 0x1000000 ≤ a ∧ a < 0x2800000) (hc : ∀ c, C ((a - 0x1000000) / 0x100000) c) : Upd K R C s0 (hostWrite q a d be size s) := by
  unfold hostWrite
  refine Upd.ite hs ?_
  extract_lets s1
  have h1 : Upd K R C s0 s1 := Upd.ite (hostWakes_upd hs (sub_of rfl hk) (sub_of rfl hr)) hs
  clear_value s1
  exact Upd.ite h1 (Upd.ite (noteRefused_upd h1 (sub_of rfl hr)) (FstUpd.out (slaveWrite_clu h1 (sub_of rfl hk) (sub_of rfl hr) ha hc)))

theorem hostWrite_upd {q : Req} {a : Nat} {d : Word} {be : BitVec 4} {size : Nat} {s : State} (hs : Upd K R C s0 s) (hk : 0xee39c05f0c5f7cc ||| K = K) (hr : 0xffffffffffffffffffffffffffffffffffffffffffffffffffffffffffffffffffffffffffffffffffffffffffffffffffffffffffffffffffffffffffffffff ||| R = R)
    (hc : ∀ n c, C n c) : Upd K R C s0 (hostWrite q a d be size s) := by
  unfold hostWrite
  refine Upd.ite hs ?_
  extract_lets s1
  have h1 : Upd K R C s0 s1 := Upd.ite (hostWakes_upd hs (sub_of rfl hk) (sub_of rfl hr)) hs
  clear_value s1
  exact Upd.ite h1 (Upd.ite (noteRefused_upd h1 (sub_of rfl hr)) (FstUpd.out (slaveWrite_upd h1 (sub_of rfl hk) (sub_of rfl hr) hc)))

theorem cmdWrite_upd {q : Req} {r : Reg} {i : Nat} {d : Word} {set : Word} {s : State} (hs : Upd K R C s0 s) (hk : 0xee39c05f0c5f7cc ||| K = K) (hr : 0xffffffffffffffffffffffffffffffffffffffffffffffffffffffffffffffffffffffffffffffffffffffffffffffffffffffffffffffffffffffffffffffff ||| R = R) (hc : ∀ n c, C n c) :
    Upd K R C s0 (cmdWrite q r i d set s) := by
  unfold cmdWrite
  refine hostWrite_upd ?_ (sub_of rfl hk) (sub_of rfl hr) hc
  · exact hs

theorem stageOne_upd {q : Req} {i : Nat} {l : List Staged} {s s' : State} {past past' : List State} (hs : Upd K R C s0 s) (hk : 0xe639c05f0c5f7cc ||| K = K) (hr : 0xffffffffffffffffffffffffffffffffffffffffffffffffffffffffffffffffffffffffffffffffffffffffffffffffffffffffffffffffffffffffffffffff ||| R = R)
    (hc : ∀ n c, C n c) (h : stageOne q i l s past = .ok (s', past')) : Upd K R C s0 s' := by
  induction l generalizing i s past with
  | nil => cases h; exact hs
  | cons w l ih =>
    unfold stageOne at h
    simp only at h
    split at h
    · cases h
    · split at h
      · cases h
      · cases h
      · rename_i x hx
        exact ih (ActUpd.of_ok hx (regPut_upd hs (sub_of rfl hk) (sub_of rfl hr) hc)) h

theorem txnJudge_upd {q : Req} {l : List Staged} {s s' : State} (hs : Upd K R C s0 s) (hk : 0xe639c05f0c5f7cc ||| K = K) (hr : 0xffffffffffffffffffffffffffffffffffffffffffffffffffffffffffffffffffffffffffffffffffffffffffffffffffffffffffffffffffffffffffffffff ||| R = R)
    (hc : ∀ n c, C n c) (h : txnJudge q l s = .ok s') : Upd K R C s0 s' := by
  unfold txnJudge at h
  split at h
  · cases h
  · split at h
    · cases h
    · rename_i e
      split at h
      · cases h
      · cases h; exact stageOne_upd hs hk hr hc e

theorem txnCommit_upd {h' : Dom} {start : Nat} {s : State} (hs : Upd K R C s0 s) (hk : 0xe639c05f0c5f7cc ||| K = K) (hr : 0xffffffffffffffffffffffffffffffffffffffffffffffffffffffffffffffffffffffffffffffffffffffffffffffffffffffffffffffffffffffffffffffff ||| R = R)
    (hc : ∀ n c, C n c) : Upd K R C s0 (txnCommit h' start s) := by
  unfold txnCommit
  extract_lets xs
  split
  · exact txnEnd_upd hs (sub_of rfl hk) (sub_of rfl hr)
  · split
    · exact txnEnd_upd hs (sub_of rfl hk) (sub_of rfl hr)
    · rename_i e
      exact State.countWrap_upd (State.setPair_upd (txnEnd_upd (txnJudge_upd hs (sub_of rfl hk) (sub_of rfl hr) hc e) (sub_of rfl hk) (sub_of rfl hr))
        (testBit_of_sub hr rfl) (RegOk.glob rfl) (testBit_of_sub hr rfl) (RegOk.glob rfl)) (testBit_of_sub hr rfl) (RegOk.glob rfl)

theorem execTxnCommitCycle_upd {t : Nat} {h' : Dom} {s0' : State} (hs0' : Upd K R C s0 s0') (hk : 0xe639c05f0c5f7cd ||| K = K) (hr : 0xffffffffffffffffffffffffffffffffffffffffffffffffffffffffffffffffffffffffffffffffffffffffffffffffffffffffffffffffffffffffffffffff ||| R = R) (hc : ∀ n c, C n c) :
    ResUpd K R C s0 (execTxnCommitCycle t h' s0') := by
  unfold execTxnCommitCycle
  refine ResUpd.next ?_
  refine Upd.ite ?_ ?_
  · refine State.at_upd ?_ (sub_of rfl hk)
    · exact hs0'
  · split
    · refine Upd.ite ?_ ?_
      · refine State.at_upd ?_ (sub_of rfl hk)
        · refine txnCommit_upd ?_ (sub_of rfl hk) (sub_of rfl hr) hc
          · refine State.at_upd ?_ (sub_of rfl hk)
            · exact hs0'
      · refine State.at_upd ?_ (sub_of rfl hk)
        · exact hs0'
    · extract_lets -merge +onlyGivenNames x4
      have hx5 : Upd K R C s0 x4 := by
        unfold x4
        refine State.at_upd ?_ (sub_of rfl hk)
        · exact hs0'
      try clear_value x4
      refine Upd.ite ?_ ?_
      · refine txnCommit_upd ?_ (sub_of rfl hk) (sub_of rfl hr) hc
        · exact hx5
      · exact hx5

theorem execRegisterWrite_upd {t : Nat} {r : Req} {a : BitVec 26} {data : Word} {be : BitVec 4} {size : Nat} {s0' : State} (hs0' : Upd K R C s0 s0') (hk : 0xee39c05f0c5f7cd ||| K = K) (hr : 0xffffffffffffffffffffffffffffffffffffffffffffffffffffffffffffffffffffffffffffffffffffffffffffffffffffffffffffffffffffffffffffffff ||| R = R) (hc : ∀ n c, C n c) :
    ResUpd K R C s0 (execRegisterWrite t r a data be size s0') := by
  unfold execRegisterWrite
  refine ResUpd.next ?_
  refine hostWrite_upd ?_ (sub_of rfl hk) (sub_of rfl hr) hc
  · refine State.at_upd ?_ (sub_of rfl hk)
    · exact hs0'

theorem modBoot_upd {f : Boot → Boot} {s : State} (hs : Upd K R C s0 s) (hk : 0x1000000000 ||| K = K) :
    Upd K R C s0 (modBoot f s) := by
  unfold modBoot
  refine Upd.boot ?_ (testBit_of_sub hk rfl)
  exact hs

theorem secFail_upd {i : Nat} {s : State} (hs : Upd K R C s0 s) (hr : 0x2000000000000000000000000000000000000000000 ||| R = R) :
    Upd K R C s0 (secFail i s) := by
  unfold secFail
  refine State.setRb_upd ?_ (testBit_of_sub hr rfl) (RegOk.glob rfl)
  exact hs

theorem secLibrary_upd {i : Nat} {b : List Byte} {s : State} (hs : Upd K R C s0 s) (hk : 0x30 ||| K = K) (hr : 0x2000000000000000000000000000000000000000e00 ||| R = R) :
    Upd K R C s0 (secLibrary i b s) := by
  unfold secLibrary
  extract_lets -merge +onlyGivenNames x4
  extract_lets -merge +onlyGivenNames x6
  have hx7 : Upd K R C s0 x6 := by
    unfold x6
    refine State.setRf_upd ?_ (testBit_of_sub hr rfl) (RegOk.glob rfl)
    exact hs
  try clear_value x6
  refine Upd.ite ?_ ?_
  · refine libInstall_upd ?_ (sub_of rfl hk) (sub_of rfl hr)
    · exact hx7
  · refine secFail_upd ?_ (sub_of rfl hr)
    · refine State.setRf_upd ?_ (testBit_of_sub hr rfl) (RegOk.glob rfl)
      exact hx7

theorem secLoad_upd {img : List Byte} {e : Nat × BootSec} {s : State} (hs : Upd K R C s0 s) (hk : 0x200001000000032 ||| K = K) (hr : 0x200000000000000000001a800000000000000000e00 ||| R = R) :
    Upd K R C s0 (secLoad img e s) := by
  unfold secLoad
  extract_lets -merge +onlyGivenNames x4
  extract_lets -merge +onlyGivenNames x6
  extract_lets -merge +onlyGivenNames x8
  have hx9 : Upd K R C s0 x8 := by
    unfold x8
    refine Upd.ite ?_ ?_
    · exact hs
    · refine secFail_upd ?_ (sub_of rfl hr)
      · exact hs
  try clear_value x8
  split
  · refine secLibrary_upd ?_ (sub_of rfl hk) (sub_of rfl hr)
    · exact hx9
  · refine Upd.ite ?_ ?_
    · refine modBoot_upd ?_ (sub_of rfl hk)
      · exact hx9
    · exact hx9
  · refine memWrite_upd ?_ (sub_of rfl hk) (sub_of rfl hr)
    · exact hx9

theorem bootOwners_upd {owner : Nat} {clu : Nat} {s : State} (hs : Upd K R C s0 s) (hr : 0xc0000 ||| R = R) :
    Upd K R C s0 (bootOwners owner clu s) := by
  unfold bootOwners
  refine foldl_range_upd ?_ fun x5 y hyx5 h4 => ?_
  · refine State.setRf_upd ?_ (testBit_of_sub hr rfl) (RegOk.glob rfl)
    exact hs
  · beta_reduce
    refine State.setRf_upd ?_ (testBit_of_sub hr rfl) (RegOk.glob rfl)
    exact h4

theorem configEntry_upd {e : Nat × Word} {s : State} (hs : Upd K R C s0 s) (hk : 0xe639c05f0c5f7cc ||| K = K) (hr : 0xffffffffffffffffffffffffffffffffffffffffffffffffffffffffffffffffffffffffffffffffffffffffffffffffffffffffffffffffffffffffffffffff ||| R = R) (hc : ∀ n c, C n c) :
    FstUpd K R C s0 (configEntry e s) := by
  unfold configEntry
  refine FstUpd.ite ?_ ?_
  · refine FstUpd.mk ?_
    exact hs
  · refine regWrite_upd ?_ (sub_of rfl hk) (sub_of rfl hr) hc
    · exact hs

theorem configRun_upd {l : List (Nat × Word)} {ok bad : Nat} {s : State} (hs : Upd K R C s0 s)
    (hk : 0xe639c05f0c5f7cc ||| K = K) (hr : 0xffffffffffffffffffffffffffffffffffffffffffffffffffffffffffffffffffffffffffffffffffffffffffffffffffffffffffffffffffffffffffffffff ||| R = R) (hc : ∀ n c, C n c) : FstUpd K R C s0 (configRun l ok bad s) := by
  induction l generalizing ok bad s with
  | nil => exact hs
  | cons e r ih =>
    have h := configEntry_upd (e := e) hs (sub_of rfl hk) (sub_of rfl hr) hc
    unfold configRun
    simp only
    split
    · exact ih h
    · exact ih h

theorem configApply_upd {s : State} (hs : Upd K R C s0 s) (hk : 0xe639c05f0c5f7cc ||| K = K) (hr : 0xffffffffffffffffffffffffffffffffffffffffffffffffffffffffffffffffffffffffffffffffffffffffffffffffffffffffffffffffffffffffffffffff ||| R = R) (hc : ∀ n c, C n c) :
    Upd K R C s0 (configApply s) := by
  unfold configApply
  extract_lets -merge +onlyGivenNames x2
  have hx3 : FstUpd K R C s0 x2 := by
    unfold x2
    refine configRun_upd ?_ (sub_of rfl hk) (sub_of rfl hr) hc
    · exact hs
  try clear_value x2
  refine State.setReg_upd ?_ (testBit_of_sub hr rfl) (RegOk.glob rfl)
  refine FstUpd.out ?_
  exact hx3

theorem autorun_upd {s : State} (hs : Upd K R C s0 s) (hk : 0x410000140 ||| K = K) (hr : 0x100000000000000000000000000000000000000000000000000040000ec000000000000000000000000000000000000000000000 ||| R = R) (hc : ∀ n c, C n c) :
    Upd K R C s0 (autorun s) := by
  unfold autorun
  split
  · extract_lets -merge +onlyGivenNames x2
    have hx3 : Upd K R C s0 x2 := by
      unfold x2
      refine State.setReg_upd ?_ (testBit_of_sub hr rfl) (RegOk.glob rfl)
      refine State.setRf_upd ?_ (testBit_of_sub hr rfl) (RegOk.glob rfl)
      refine State.setRf_upd ?_ (testBit_of_sub hr rfl) (RegOk.glob rfl)
      exact hs
    try clear_value x2
    refine capCtrlWrite_upd ?_ (sub_of rfl hk) (sub_of rfl hr) hc
    · exact hx3
  · exact hs

theorem bootGood_upd {img : List Byte} {slots : List (List Byte)} {s : State} (hs : Upd K R C s0 s) (hk : 0xe6f9c15f0c5f7fe ||| K = K) (hr : 0xffffffffffffffffffffffffffffffffffffffffffffffffffffffffffffffffffffffffffffffffffffffffffffffffffffffffffffffffffffffffffffffff ||| R = R) (hc : ∀ n c, C n c) :
    Upd K R C s0 (bootGood img slots s) := by
  unfold bootGood
  extract_lets -merge +onlyGivenNames x4
  extract_lets -merge +onlyGivenNames x6
  have hx7 : Upd K R C s0 x6 := by
    unfold x6
    refine modBoot_upd ?_ (sub_of rfl hk)
    · exact hs
  try clear_value x6
  extract_lets -merge +onlyGivenNames x8
  have hx9 : Upd K R C s0 x8 := by
    unfold x8
    refine State.setReg_upd ?_ (testBit_of_sub hr rfl) (RegOk.glob rfl)
    refine State.setReg_upd ?_ (testBit_of_sub hr rfl) (RegOk.glob rfl)
    exact hx7
  try clear_value x8
  extract_lets -merge +onlyGivenNames x10
  have hx11 : Upd K R C s0 x10 := by
    unfold x10
    refine foldl_upd ?_ fun x13 y h12 => ?_
    · exact hx9
    · beta_reduce
      refine secLoad_upd ?_ (sub_of rfl hk) (sub_of rfl hr)
      · exact h12
  try clear_value x10
  refine lifeRead_upd ?_ (sub_of rfl hk) (sub_of rfl hr)
  · refine configApply_upd ?_ (sub_of rfl hk) (sub_of rfl hr) hc
    · refine bootOwners_upd ?_ (sub_of rfl hr)
      · exact hx11

theorem bootBad_upd {err : Nat} {slots : List (List Byte)} {s : State} (hs : Upd K R C s0 s) (hk : 0xe000000000000 ||| K = K) (hr : 0x4c000000000010000000000000000000000000000000000000c0000 ||| R = R) :
    Upd K R C s0 (bootBad err slots s) := by
  unfold bootBad
  refine lifeRead_upd ?_ (sub_of rfl hk) (sub_of rfl hr)
  · refine bootOwners_upd ?_ (sub_of rfl hr)
    · refine State.setReg_upd ?_ (testBit_of_sub hr rfl) (RegOk.glob rfl)
      exact hs

theorem execBootStart_upd {t : Nat} {image : List Byte} {slots : List (List Byte)} {s0' : State} (hs0' : Upd K R C s0 s0') (hk : 0xe6f9c15f0c5f7ff ||| K = K) (hr : 0xffffffffffffffffffffffffffffffffffffffffffffffffffffffffffffffffffffffffffffffffffffffffffffffffffffffffffffffffffffffffffffffff ||| R = R) (hc : ∀ n c, C n c) :
    ResUpd K R C s0 (execBootStart t image slots s0') := by
  unfold execBootStart
  extract_lets -merge +onlyGivenNames x5
  have hx6 : Upd K R C s0 x5 := by
    unfold x5
    refine State.at_upd ?_ (sub_of rfl hk)
    · exact hs0'
  try clear_value x5
  refine ResUpd.next ?_
  refine Upd.ite ?_ ?_
  · extract_lets -merge +onlyGivenNames x7
    have hx8 : Upd K R C s0 x7 := by
      unfold x7
      refine modBoot_upd ?_ (sub_of rfl hk)
      · exact hx6
    try clear_value x7
    refine Upd.ite ?_ ?_
    · refine bootGood_upd ?_ (sub_of rfl hk) (sub_of rfl hr) hc
      · exact hx8
    · refine bootBad_upd ?_ (sub_of rfl hk) (sub_of rfl hr)
      · exact hx8
  · exact hx6

theorem bootDone_upd {s : State} (hs : Upd K R C s0 s) (hk : 0x40410000140 ||| K = K) (hr : 0x100000000000000000000000000000000000040000000000000040000ec001000000000000010000000000000000000000000000 ||| R = R) (hc : ∀ n c, C n c) :
    Upd K R C s0 (bootDone s) := by
  unfold bootDone
  extract_lets -merge +onlyGivenNames x2
  have hx3 : Upd K R C s0 x2 := by
    unfold x2
    refine State.setRb_upd ?_ (testBit_of_sub hr rfl) (RegOk.glob rfl)
    refine autorun_upd ?_ (sub_of rfl hk) (sub_of rfl hr) hc
    · exact hs
  try clear_value x2
  refine forClusters_upd (fun z4 z5 h6 => ?_) ?_
  · beta_reduce
    refine calBecomeDue_upd ?_ (sub_of rfl hk) (sub_of rfl hr) ⟨0, hc _ 0⟩
    · exact h6
  · refine State.setRf_upd ?_ (testBit_of_sub hr rfl) (RegOk.glob rfl)
    exact hx3

theorem execBootComplete_upd {t : Nat} {s0' : State} (hs0' : Upd K R C s0 s0') (hk : 0x40410000141 ||| K = K) (hr : 0x100000000000000000000000000000000000040000000000000040000ec001000000000000010000000000000000000000000000 ||| R = R) (hc : ∀ n c, C n c) :
    ResUpd K R C s0 (execBootComplete t s0') := by
  unfold execBootComplete
  extract_lets -merge +onlyGivenNames x3
  have hx4 : Upd K R C s0 x3 := by
    unfold x3
    refine State.at_upd ?_ (sub_of rfl hk)
    · exact hs0'
  try clear_value x3
  refine ResUpd.next ?_
  refine Upd.ite ?_ ?_
  · refine bootDone_upd ?_ (sub_of rfl hk) (sub_of rfl hr) hc
    · exact hx4
  · exact hx4

theorem warmEnd_upd {s : State} (hs : Upd K R C s0 s) (hk : 0xe639c05f0c5f7cc ||| K = K) (hr : 0xffffffffffffffffffffffffffffffffffffffffffffffffffffffffffffffffffffffffffffffffffffffffffffffffffffffffffffffffffffffffffffffff ||| R = R) (hc : ∀ n c, C n c) :
    Upd K R C s0 (warmEnd s) := by
  unfold warmEnd
  refine Upd.ite ?_ ?_
  · exact hs
  · extract_lets -merge +onlyGivenNames x2
    have hx3 : Upd K R C s0 x2 := by
      unfold x2
      refine warmBack_upd ?_ (sub_of rfl hk) (sub_of rfl hr) hc
      · exact hs
    try clear_value x2
    refine Upd.ite ?_ ?_
    · refine autorun_upd ?_ (sub_of rfl hk) (sub_of rfl hr) hc
      · refine configApply_upd ?_ (sub_of rfl hk) (sub_of rfl hr) hc
        · exact hx3
    · exact hx3

theorem execCapCheckDone_upd {t : Nat} {s0' : State} (hs0' : Upd K R C s0 s0') (hk : 0x202040410000041 ||| K = K) (hr : 0x104000000000000004e0001800000000000000000000001a800000000000000000000 ||| R = R) (hc : ∀ n c, C n c) :
    ResUpd K R C s0 (execCapCheckDone t s0') := by
  unfold execCapCheckDone
  extract_lets -merge +onlyGivenNames x3
  have hx4 : Upd K R C s0 x3 := by
    unfold x3
    refine State.at_upd ?_ (sub_of rfl hk)
    · exact hs0'
  try clear_value x3
  refine ResUpd.next ?_
  refine Upd.ite ?_ ?_
  · refine capChecked_upd ?_ (sub_of rfl hk) (sub_of rfl hr) hc
    · exact hx4
  · exact hx4

theorem pollAct_upd {bits : Nat} {s : State} (hs : Upd K R C s0 s) (hk : 0x2040410000140 ||| K = K) (hr : 0x10000000000000000000000000000000000104000000000000004e00008000000000000000000000000000000000000000000000 ||| R = R) (hc : ∀ n c, C n c) :
    Upd K R C s0 (pollAct bits s) := by
  unfold pollAct
  refine Upd.ite ?_ ?_
  · refine capAbort_upd ?_ (sub_of rfl hk) (sub_of rfl hr) hc
    · exact hs
  · refine Upd.ite ?_ ?_
    · refine capSot_upd ?_ (sub_of rfl hk) (sub_of rfl hr) hc
      · exact hs
    · exact hs

theorem execCapPoll_upd {t : Nat} {reply : List Byte} {s0' : State} (hs0' : Upd K R C s0 s0') (hk : 0x882040410000141 ||| K = K) (hr : 0x10000000000000000000000000000000000104000000000000004e00008000000000000004010000000100000000000000000000 ||| R = R) (hc : ∀ n c, C n c) :
    ResUpd K R C s0 (execCapPoll t reply s0') := by
  unfold execCapPoll
  extract_lets -merge +onlyGivenNames x4
  have hx5 : Upd K R C s0 x4 := by
    unfold x4
    refine State.at_upd ?_ (sub_of rfl hk)
    · exact hs0'
  try clear_value x4
  extract_lets -merge +onlyGivenNames x6
  extract_lets -merge +onlyGivenNames x8
  refine ResUpd.next ?_
  refine Upd.ite ?_ ?_
  · extract_lets -merge +onlyGivenNames x10
    have hx11 : Upd K R C s0 x10 := by
      unfold x10
      refine State.emit_upd ?_ (sub_of rfl hk)
      · refine modCap_upd ?_ (sub_of rfl hk)
        · exact hx5
    try clear_value x10
    refine Upd.ite ?_ ?_
    · refine Upd.ite ?_ ?_
      · exact hx11
      · refine Upd.ite ?_ ?_
        · refine pollAct_upd ?_ (sub_of rfl hk) (sub_of rfl hr) hc
          · refine wakeUp_upd ?_ (sub_of rfl hk) (sub_of rfl hr)
            · refine State.wake_upd ?_ (sub_of rfl hk)
              · exact hx11
        · refine modCap_upd ?_ (sub_of rfl hk)
          · exact hx11
    · extract_lets -merge +onlyGivenNames x12
      refine pollAct_upd ?_ (sub_of rfl hk) (sub_of rfl hr) hc
      · refine modCap_upd ?_ (sub_of rfl hk)
        · exact hx11
  · exact hx5

theorem execCapRecordStart_upd {t : Nat} {s0' : State} (hs0' : Upd K R C s0 s0') (hk : 0x600040010000343 ||| K = K) (hr : 0x3813ffffe0000000000000000002024040000904c00012d0fdf001400000800000000000000080000001a800000000000000000000 ||| R = R) (hc : ∀ n c, C n c) :
    ResUpd K R C s0 (execCapRecordStart t s0') := by
  unfold execCapRecordStart
  extract_lets -merge +onlyGivenNames x3
  have hx4 : Upd K R C s0 x3 := by
    unfold x3
    refine State.at_upd ?_ (sub_of rfl hk)
    · exact hs0'
  try clear_value x3
  refine ResUpd.next ?_
  refine Upd.ite ?_ ?_
  · refine Upd.ite ?_ ?_
    · refine recordLater_upd ?_ (sub_of rfl hk) (sub_of rfl hr) hc
      · exact hx4
    · split
      · refine recordStart_upd ?_ (sub_of rfl hk) (sub_of rfl hr) hc
        · exact hx4
      · exact hx4
  · exact hx4

theorem execCapTimeout_upd {t : Nat} {s0' : State} (hs0' : Upd K R C s0 s0') (hk : 0x10000141 ||| K = K) (hr : 0x10000000000000000000000000000000000000000000000000000000000000000000000000000000000000000000000000000000 ||| R = R) (hc : ∀ n c, C n c) :
    ResUpd K R C s0 (execCapTimeout t s0') := by
  unfold execCapTimeout
  extract_lets -merge +onlyGivenNames x3
  have hx4 : Upd K R C s0 x3 := by
    unfold x3
    refine State.at_upd ?_ (sub_of rfl hk)
    · exact hs0'
  try clear_value x3
  refine ResUpd.next ?_
  split
  · extract_lets -merge +onlyGivenNames x5
    refine Upd.ite ?_ ?_
    · refine recordTimeout_upd ?_ (sub_of rfl hk) (sub_of rfl hr) hc
      · exact hx4
    · exact hx4
  · exact hx4

theorem execCapRecordEnd_upd {t : Nat} {s0' : State} (hs0' : Upd K R C s0 s0') (hk : 0x200000010000141 ||| K = K) (hr : 0x1000000000000000000000000000000000000000000000000000400000800000000000000000000001a800000000000000000000 ||| R = R) (hc : ∀ n c, C n c) :
    ResUpd K R C s0 (execCapRecordEnd t s0') := by
  unfold execCapRecordEnd
  extract_lets -merge +onlyGivenNames x3
  have hx4 : Upd K R C s0 x3 := by
    unfold x3
    refine State.at_upd ?_ (sub_of rfl hk)
    · exact hs0'
  try clear_value x3
  refine ResUpd.next ?_
  split
  · refine Upd.ite ?_ ?_
    · refine recordEnd_upd ?_ (sub_of rfl hk) (sub_of rfl hr) hc
      · exact hx4
    · exact hx4
  · exact hx4

theorem execCapDlogWrite_upd {t : Nat} {s0' : State} (hs0' : Upd K R C s0 s0') (hk : 0x200000010000003 ||| K = K) (hr : 0x200800000000000000000000001a800000000000000000000 ||| R = R) :
    ResUpd K R C s0 (execCapDlogWrite t s0') := by
  unfold execCapDlogWrite
  extract_lets -merge +onlyGivenNames x3
  have hx4 : Upd K R C s0 x3 := by
    unfold x3
    refine State.at_upd ?_ (sub_of rfl hk)
    · exact hs0'
  try clear_value x3
  refine ResUpd.next ?_
  refine Upd.ite ?_ ?_
  · refine dlogWrite_upd ?_ (sub_of rfl hk) (sub_of rfl hr)
    · exact hx4
  · exact hx4

theorem execCapFinish_upd {t : Nat} {s0' : State} (hs0' : Upd K R C s0 s0') (hk : 0xe22000510000343 ||| K = K) (hr : 0x2013fff9c0000000000000000002024040000800c000001005000f701200800000000000000000000001a800001200000000000000 ||| R = R) (hc : ∀ n c, C n c) :
    ResUpd K R C s0 (execCapFinish t s0') := by
  unfold execCapFinish
  extract_lets -merge +onlyGivenNames x3
  have hx4 : Upd K R C s0 x3 := by
    unfold x3
    refine State.at_upd ?_ (sub_of rfl hk)
    · exact hs0'
  try clear_value x3
  refine ResUpd.next ?_
  refine Upd.ite ?_ ?_
  · extract_lets -merge +onlyGivenNames x5
    have hx6 : Upd K R C s0 x5 := by
      unfold x5
      refine Upd.ite ?_ ?_
      · refine dlogWrite_upd ?_ (sub_of rfl hk) (sub_of rfl hr)
        · refine finishLists_upd ?_ (sub_of rfl hk) (sub_of rfl hr)
          · refine Upd.ite ?_ ?_
            · refine capClusters_upd (fun z7 z8 h9 => ?_) ?_
              · beta_reduce
                refine abandonOp_upd ?_ (sub_of rfl hk) (sub_of rfl hr) (hc _)
                · exact h9
              · exact hx4
            · exact hx4
      · exact hx4
    try clear_value x5
    extract_lets -merge +onlyGivenNames x10
    have hx11 : Upd K R C s0 x10 := by
      unfold x10
      refine Upd.ite ?_ ?_
      · refine finishEnd_upd ?_ (sub_of rfl hk) (sub_of rfl hr)
        · exact hx6
      · exact hx6
    try clear_value x10
    refine Upd.ite ?_ ?_
    · refine finishLast_upd ?_ (sub_of rfl hk) (sub_of rfl hr)
      · exact hx11
    · exact hx11
  · exact hx4

theorem execSafeRequest_upd {t : Nat} {r : Req} {n : Cluster} {c : Channel} {data : Word} {s0' : State} (hs0' : Upd K R C s0 s0') (hk : 0xee39c05f0c5f7cd ||| K = K) (hr : 0xffffffffffffffffffffffffffffffffffffffffffffffffffffffffffffffffffffffffffffffffffffffffffffffffffffffffffffffffffffffffffffffff ||| R = R) (hc : ∀ n c, C n c) :
    ResUpd K R C s0 (execSafeRequest t r n c data s0') := by
  unfold execSafeRequest
  refine ResUpd.next ?_
  refine cmdWrite_upd ?_ (sub_of rfl hk) (sub_of rfl hr) hc
  · refine State.at_upd ?_ (sub_of rfl hk)
    · exact hs0'

theorem execSwitchClose_upd {t : Nat} {r : Req} {n : Cluster} {c : Channel} {data : Word} {s0' : State} (hs0' : Upd K R C s0 s0') (hk : 0xee39c05f0c5f7cd ||| K = K) (hr : 0xffffffffffffffffffffffffffffffffffffffffffffffffffffffffffffffffffffffffffffffffffffffffffffffffffffffffffffffffffffffffffffffff ||| R = R) (hc : ∀ n c, C n c) :
    ResUpd K R C s0 (execSwitchClose t r n c data s0') := by
  unfold execSwitchClose
  refine ResUpd.next ?_
  refine cmdWrite_upd ?_ (sub_of rfl hk) (sub_of rfl hr) hc
  · refine State.at_upd ?_ (sub_of rfl hk)
    · exact hs0'

theorem execSwitchOpen_upd {t : Nat} {r : Req} {n : Cluster} {c : Channel} {data : Word} {s0' : State} (hs0' : Upd K R C s0 s0') (hk : 0xee39c05f0c5f7cd ||| K = K) (hr : 0xffffffffffffffffffffffffffffffffffffffffffffffffffffffffffffffffffffffffffffffffffffffffffffffffffffffffffffffffffffffffffffffff ||| R = R) (hc : ∀ n c, C n c) :
    ResUpd K R C s0 (execSwitchOpen t r n c data s0') := by
  unfold execSwitchOpen
  refine ResUpd.next ?_
  refine cmdWrite_upd ?_ (sub_of rfl hk) (sub_of rfl hr) hc
  · refine State.at_upd ?_ (sub_of rfl hk)
    · exact hs0'

theorem execLevelSetSelect_upd {t : Nat} {r : Req} {n : Cluster} {c : Channel} {data : Word} {s0' : State} (hs0' : Upd K R C s0 s0') (hk : 0xee39c05f0c5f7cd ||| K = K) (hr : 0xffffffffffffffffffffffffffffffffffffffffffffffffffffffffffffffffffffffffffffffffffffffffffffffffffffffffffffffffffffffffffffffff ||| R = R) (hc : ∀ n c, C n c) :
    ResUpd K R C s0 (execLevelSetSelect t r n c data s0') := by
  unfold execLevelSetSelect
  refine ResUpd.next ?_
  refine cmdWrite_upd ?_ (sub_of rfl hk) (sub_of rfl hr) hc
  · refine State.at_upd ?_ (sub_of rfl hk)
    · exact hs0'

theorem execCmpConfigWrite_upd {t : Nat} {r : Req} {n : Cluster} {c : Channel} {data : Word} {s0' : State} (hs0' : Upd K R C s0 s0') (hk : 0xee39c05f0c5f7cd ||| K = K) (hr : 0xffffffffffffffffffffffffffffffffffffffffffffffffffffffffffffffffffffffffffffffffffffffffffffffffffffffffffffffffffffffffffffffff ||| R = R) (hc : ∀ n c, C n c) :
    ResUpd K R C s0 (execCmpConfigWrite t r n c data s0') := by
  unfold execCmpConfigWrite
  refine ResUpd.next ?_
  refine cmdWrite_upd ?_ (sub_of rfl hk) (sub_of rfl hr) hc
  · refine State.at_upd ?_ (sub_of rfl hk)
    · exact hs0'

theorem execBlankTimerStart_upd {t : Nat} {r : Req} {n : Cluster} {data : Word} {s0' : State} (hs0' : Upd K R C s0 s0') (hk : 0xee39c05f0c5f7cd ||| K = K) (hr : 0xffffffffffffffffffffffffffffffffffffffffffffffffffffffffffffffffffffffffffffffffffffffffffffffffffffffffffffffffffffffffffffffff ||| R = R) (hc : ∀ n c, C n c) :
    ResUpd K R C s0 (execBlankTimerStart t r n data s0') := by
  unfold execBlankTimerStart
  refine ResUpd.next ?_
  refine cmdWrite_upd ?_ (sub_of rfl hk) (sub_of rfl hr) hc
  · refine State.at_upd ?_ (sub_of rfl hk)
    · exact hs0'

theorem execSelfchkStart_upd {t : Nat} {r : Req} {n : Cluster} {c : Channel} {data : Word} {s0' : State} (hs0' : Upd K R C s0 s0') (hk : 0xee39c05f0c5f7cd ||| K = K) (hr : 0xffffffffffffffffffffffffffffffffffffffffffffffffffffffffffffffffffffffffffffffffffffffffffffffffffffffffffffffffffffffffffffffff ||| R = R) (hc : ∀ n c, C n c) :
    ResUpd K R C s0 (execSelfchkStart t r n c data s0') := by
  unfold execSelfchkStart
  refine ResUpd.next ?_
  refine cmdWrite_upd ?_ (sub_of rfl hk) (sub_of rfl hr) hc
  · refine State.at_upd ?_ (sub_of rfl hk)
    · exact hs0'

theorem execPmForceEnable_upd {t : Nat} {r : Req} {n : Cluster} {c : Channel} {data : Word} {s0' : State} (hs0' : Upd K R C s0 s0') (hk : 0xee39c05f0c5f7cd ||| K = K) (hr : 0xffffffffffffffffffffffffffffffffffffffffffffffffffffffffffffffffffffffffffffffffffffffffffffffffffffffffffffffffffffffffffffffff ||| R = R) (hc : ∀ n c, C n c) :
    ResUpd K R C s0 (execPmForceEnable t r n c data s0') := by
  unfold execPmForceEnable
  refine ResUpd.next ?_
  refine cmdWrite_upd ?_ (sub_of rfl hk) (sub_of rfl hr) hc
  · refine State.at_upd ?_ (sub_of rfl hk)
    · exact hs0'

theorem execPmRangeChange_upd {t : Nat} {r : Req} {n : Cluster} {c : Channel} {data : Word} {s0' : State} (hs0' : Upd K R C s0 s0') (hk : 0xee39c05f0c5f7cd ||| K = K) (hr : 0xffffffffffffffffffffffffffffffffffffffffffffffffffffffffffffffffffffffffffffffffffffffffffffffffffffffffffffffffffffffffffffffff ||| R = R) (hc : ∀ n c, C n c) :
    ResUpd K R C s0 (execPmRangeChange t r n c data s0') := by
  unfold execPmRangeChange
  refine ResUpd.next ?_
  refine cmdWrite_upd ?_ (sub_of rfl hk) (sub_of rfl hr) hc
  · refine State.at_upd ?_ (sub_of rfl hk)
    · exact hs0'

theorem execPmSettingWrite_upd {t : Nat} {r : Req} {n : Cluster} {c : Channel} {w : PmSetting} {data : Word} {s0' : State} (hs0' : Upd K R C s0 s0') (hk : 0xee39c05f0c5f7cd ||| K = K) (hr : 0xffffffffffffffffffffffffffffffffffffffffffffffffffffffffffffffffffffffffffffffffffffffffffffffffffffffffffffffffffffffffffffffff ||| R = R) (hc : ∀ n c, C n c) :
    ResUpd K R C s0 (execPmSettingWrite t r n c w data s0') := by
  unfold execPmSettingWrite
  refine ResUpd.next ?_
  refine cmdWrite_upd ?_ (sub_of rfl hk) (sub_of rfl hr) hc
  · refine State.at_upd ?_ (sub_of rfl hk)
    · exact hs0'

theorem execPmStart_upd {t : Nat} {r : Req} {n : Cluster} {c : Channel} {data : Word} {s0' : State} (hs0' : Upd K R C s0 s0') (hk : 0xee39c05f0c5f7cd ||| K = K) (hr : 0xffffffffffffffffffffffffffffffffffffffffffffffffffffffffffffffffffffffffffffffffffffffffffffffffffffffffffffffffffffffffffffffff ||| R = R) (hc : ∀ n c, C n c) :
    ResUpd K R C s0 (execPmStart t r n c data s0') := by
  unfold execPmStart
  refine ResUpd.next ?_
  refine cmdWrite_upd ?_ (sub_of rfl hk) (sub_of rfl hr) hc
  · refine State.at_upd ?_ (sub_of rfl hk)
    · exact hs0'

theorem execPmCont_upd {t : Nat} {r : Req} {n : Cluster} {c : Channel} {data : Word} {s0' : State} (hs0' : Upd K R C s0 s0') (hk : 0xee39c05f0c5f7cd ||| K = K) (hr : 0xffffffffffffffffffffffffffffffffffffffffffffffffffffffffffffffffffffffffffffffffffffffffffffffffffffffffffffffffffffffffffffffff ||| R = R) (hc : ∀ n c, C n c) :
    ResUpd K R C s0 (execPmCont t r n c data s0') := by
  unfold execPmCont
  refine ResUpd.next ?_
  refine cmdWrite_upd ?_ (sub_of rfl hk) (sub_of rfl hr) hc
  · refine State.at_upd ?_ (sub_of rfl hk)
    · exact hs0'

theorem execPmResRead_upd {t : Nat} {r : Req} {n : Cluster} {c : Channel} {s0' : State} (hs0' : Upd K R C s0 s0') (hk : 0xc80000200000041 ||| K = K) (hr : 0x3fff840000000000000000002000000001000400000000000000000000000000000000004010000020100000000000000000000 ||| R = R) (hc : ∀ n c, C n c) :
    ResUpd K R C s0 (execPmResRead t r n c s0') := by
  unfold execPmResRead
  refine ResUpd.next ?_
  refine hostRead_upd ?_ (sub_of rfl hk) (sub_of rfl hr) hc
  · refine State.at_upd ?_ (sub_of rfl hk)
    · exact hs0'

theorem execSafeEntryComplete_upd {t : Nat} {n : Cluster} {c : Channel} {s0' : State} (hs0' : Upd K R C s0 s0') (hk : 0x400000000000041 ||| K = K) (hr : 0x3fff9c0000000000000000000000000000000c00000000000000000000000000000000000000000000000000000000000000000 ||| R = R) (hc : C n.val c.val) :
    ResUpd K R C s0 (execSafeEntryComplete t n c s0') := by
  unfold execSafeEntryComplete
  extract_lets -merge +onlyGivenNames x5
  have hx6 : Upd K R C s0 x5 := by
    unfold x5
    refine State.at_upd ?_ (sub_of rfl hk)
    · exact hs0'
  try clear_value x5
  refine ResUpd.next ?_
  refine Upd.ite ?_ ?_
  · refine State.modChan_upd ?_ (sub_of rfl hk) hc
    · refine endGate_upd ?_ (sub_of rfl hk) (sub_of rfl hr) hc
      · refine endMeas_upd ?_ (sub_of rfl hk) hc
        · exact hx6
  · exact hx6

theorem execSwitchClosed_upd {t : Nat} {n : Cluster} {c : Channel} {s0' : State} (hs0' : Upd K R C s0 s0') (hk : 0x41 ||| K = K) (hc : C n.val c.val) :
    ResUpd K R C s0 (execSwitchClosed t n c s0') := by
  unfold execSwitchClosed
  extract_lets -merge +onlyGivenNames x5
  have hx6 : Upd K R C s0 x5 := by
    unfold x5
    refine State.at_upd ?_ (sub_of rfl hk)
    · exact hs0'
  try clear_value x5
  refine ResUpd.next ?_
  refine Upd.ite ?_ ?_
  · refine State.modChan_upd ?_ (sub_of rfl hk) hc
    · exact hx6
  · exact hx6

theorem execDrvOc_upd {t : Nat} {n : Cluster} {c : Channel} {s0' : State} (hs0' : Upd K R C s0 s0') (hk : 0x602000000000041 ||| K = K) (hr : 0x3fff9c0000000000000000002034040000000c00000000000000000000000000000000000000000000000000000000000000000 ||| R = R) (hc : C n.val c.val) :
    ResUpd K R C s0 (execDrvOc t n c s0') := by
  unfold execDrvOc
  extract_lets -merge +onlyGivenNames x5
  have hx6 : Upd K R C s0 x5 := by
    unfold x5
    refine State.at_upd ?_ (sub_of rfl hk)
    · exact hs0'
  try clear_value x5
  extract_lets -merge +onlyGivenNames x7
  refine ResUpd.next ?_
  refine Upd.ite ?_ ?_
  · refine lifeCount_upd ?_ (sub_of rfl hk)
    · refine State.send_upd ?_ (sub_of rfl hk)
      · refine State.count_upd ?_ (testBit_of_sub hr rfl) (RegOk.chan rfl hc)
        refine State.setRb_upd ?_ (testBit_of_sub hr rfl) (RegOk.chan rfl hc)
        refine forcedSafe_upd ?_ (sub_of rfl hk) (sub_of rfl hr) hc
        · exact hx6
  · exact hx6

theorem execLvlSettled_upd {t : Nat} {n : Cluster} {c : Channel} {s0' : State} (hs0' : Upd K R C s0 s0') (hk : 0x1 ||| K = K) (hr : 0x80000000000000000000000000000000000000000000000000000000000000000000000000 ||| R = R) (hc : C n.val c.val) :
    ResUpd K R C s0 (execLvlSettled t n c s0') := by
  unfold execLvlSettled
  extract_lets -merge +onlyGivenNames x5
  have hx6 : Upd K R C s0 x5 := by
    unfold x5
    refine State.at_upd ?_ (sub_of rfl hk)
    · exact hs0'
  try clear_value x5
  refine ResUpd.next ?_
  refine State.setRb_upd ?_ (testBit_of_sub hr rfl) (RegOk.chan rfl hc)
  exact hx6

theorem setOut_upd {n : Cluster} {c : Channel} {low : Bool} {v : Bool} {s : State} (hs : Upd K R C s0 s) (hr : 0x400000000000000000000000000000000000000000000000000000000000000000000000000 ||| R = R) (hc : C n.val c.val) :
    Upd K R C s0 (setOut n c low v s) := by
  unfold setOut
  refine State.setRb_upd ?_ (testBit_of_sub hr rfl) (RegOk.chan rfl hc)
  exact hs

theorem setDeliv_upd {n : Cluster} {c : Channel} {low : Bool} {v : Bool} {s : State} (hs : Upd K R C s0 s) (hk : 0x40 ||| K = K) (hc : C n.val c.val) :
    Upd K R C s0 (setDeliv n c low v s) := by
  unfold setDeliv
  refine State.modChan_upd ?_ (sub_of rfl hk) hc
  · exact hs

theorem execComparatorResolve_upd {t : Nat} {n : Cluster} {c : Channel} {low : Bool} {above : Bool} {s0' : State} (hs0' : Upd K R C s0 s0') (hk : 0x1041 ||| K = K) (hr : 0x400000000000000000000000000000000000000000000000000000000000000000000000000 ||| R = R) (hc : C n.val c.val) :
    ResUpd K R C s0 (execComparatorResolve t n c low above s0') := by
  unfold execComparatorResolve
  extract_lets -merge +onlyGivenNames x7
  have hx8 : Upd K R C s0 x7 := by
    unfold x7
    refine State.at_upd ?_ (sub_of rfl hk)
    · exact hs0'
  try clear_value x7
  extract_lets -merge +onlyGivenNames x9
  refine ResUpd.next ?_
  refine Upd.ite ?_ ?_
  · extract_lets -merge +onlyGivenNames x11
    have hx12 : Upd K R C s0 x11 := by
      unfold x11
      refine State.setRb_upd ?_ (testBit_of_sub hr rfl) (RegOk.chan rfl hc)
      refine setOut_upd ?_ (sub_of rfl hr) hc
      · exact hx8
    try clear_value x11
    refine Upd.ite ?_ ?_
    · exact hx12
    · refine State.trigEvent_upd ?_ (sub_of rfl hk) ⟨_, hc⟩
      · refine setDeliv_upd ?_ (sub_of rfl hk) hc
        · exact hx12
  · exact hx8

theorem wakeEdge_upd {n : Cluster} {c : Channel} {low : Bool} {up : Bool} {s : State} (hs : Upd K R C s0 s) (hk : 0x80000000000000 ||| K = K) (hr : 0x4000000000000000000000000000000000000000000000000000000000000000000000000000 ||| R = R) (hc : C n.val c.val) :
    Upd K R C s0 (wakeEdge n c low up s) := by
  unfold wakeEdge
  extract_lets -merge +onlyGivenNames x6
  refine Upd.ite ?_ ?_
  · refine State.wake_upd ?_ (sub_of rfl hk)
    · refine State.setRb_upd ?_ (testBit_of_sub hr rfl) (RegOk.chan rfl hc)
      exact hs
  · exact hs

theorem deliverEdge_upd {n : Cluster} {c : Channel} {low : Bool} {up : Bool} {ball : Nat} {s : State} (hs : Upd K R C s0 s) (hk : 0x480000000001840 ||| K = K) (hr : 0x3fff9d8000000000000000000004000000000d00000000000000000000000000000000000000000000000000000000000000000 ||| R = R) (hc : C n.val c.val) :
    Upd K R C s0 (deliverEdge n c low up ball s) := by
  unfold deliverEdge
  extract_lets -merge +onlyGivenNames x7
  extract_lets -merge +onlyGivenNames x9
  have hx10 : Upd K R C s0 x9 := by
    unfold x9
    refine setDeliv_upd ?_ (sub_of rfl hk) hc
    · exact hs
  try clear_value x9
  extract_lets -merge +onlyGivenNames x11
  have hx12 : Upd K R C s0 x11 := by
    unfold x11
    refine Upd.ite ?_ ?_
    · refine stampEdge_upd ?_ (sub_of rfl hk) (sub_of rfl hr) hc
      · exact hx10
    · exact hx10
  try clear_value x11
  extract_lets -merge +onlyGivenNames x13
  extract_lets -merge +onlyGivenNames x15
  have hx16 : Upd K R C s0 x15 := by
    unfold x15
    refine State.setRb_upd ?_ (testBit_of_sub hr rfl) (RegOk.chan rfl hc)
    refine State.trigEvent_upd ?_ (sub_of rfl hk) ⟨_, hc⟩
    · exact hx12
  try clear_value x15
  refine wakeEdge_upd ?_ (sub_of rfl hk) (sub_of rfl hr) hc
  · exact hx16

theorem execComparatorEdge_upd {t : Nat} {n : Cluster} {c : Channel} {low : Bool} {out : Bool} {ball : Nat} {s0' : State} (hs0' : Upd K R C s0 s0') (hk : 0x480000000001841 ||| K = K) (hr : 0x3fff9d8000000000000000000004400000000d00000000000000000000000000000000000000000000000000000000000000000 ||| R = R) (hc : C n.val c.val) :
    ResUpd K R C s0 (execComparatorEdge t n c low out ball s0') := by
  unfold execComparatorEdge
  extract_lets -merge +onlyGivenNames x8
  have hx9 : Upd K R C s0 x8 := by
    unfold x8
    refine State.at_upd ?_ (sub_of rfl hk)
    · exact hs0'
  try clear_value x8
  refine ResUpd.next ?_
  refine Upd.ite ?_ ?_
  · extract_lets -merge +onlyGivenNames x10
    have hx11 : Upd K R C s0 x10 := by
      unfold x10
      refine setOut_upd ?_ (sub_of rfl hr) hc
      · exact hx9
    try clear_value x10
    refine Upd.ite ?_ ?_
    · exact hx11
    · refine deliverEdge_upd ?_ (sub_of rfl hk) (sub_of rfl hr) hc
      · exact hx11
  · exact hx9

theorem execBlankTimerExpire_upd {t : Nat} {n : Cluster} {s0' : State} (hs0' : Upd K R C s0 s0') (hk : 0x441 ||| K = K) (hr : 0x400000000000000000000000000000000000000000000000000000000000000000000000000 ||| R = R) (hc : ∀ c, C n.val c) :
    ResUpd K R C s0 (execBlankTimerExpire t n s0') := by
  unfold execBlankTimerExpire
  extract_lets -merge +onlyGivenNames x4
  have hx5 : Upd K R C s0 x4 := by
    unfold x4
    refine State.at_upd ?_ (sub_of rfl hk)
    · exact hs0'
  try clear_value x4
  extract_lets -merge +onlyGivenNames x6
  extract_lets -merge +onlyGivenNames x8
  extract_lets -merge +onlyGivenNames x10
  refine ResUpd.next ?_
  refine Upd.ite ?_ ?_
  · refine forChannels_upd (fun z12 z13 h14 => ?_) ?_
    · beta_reduce
      refine Upd.ite ?_ ?_
      · refine openBlank_upd ?_ (sub_of rfl hk) (sub_of rfl hr) (hc _)
        · exact h14
      · exact h14
    · refine Upd.blankAt ?_ (testBit_of_sub hk rfl) ⟨0, hc 0⟩
      exact hx5
  · exact hx5

theorem unblank_upd {n : Cluster} {c : Channel} {low : Bool} {s : State} (hs : Upd K R C s0 s) (hk : 0x1040 ||| K = K) (hr : 0x400000000000000000000000000000000000000000000000000000000000000000000000000 ||| R = R) (hc : C n.val c.val) :
    Upd K R C s0 (unblank n c low s) := by
  unfold unblank
  extract_lets -merge +onlyGivenNames x5
  refine Upd.ite ?_ ?_
  · refine State.trigEvent_upd ?_ (sub_of rfl hk) ⟨_, hc⟩
    · refine State.setRb_upd ?_ (testBit_of_sub hr rfl) (RegOk.chan rfl hc)
      refine setDeliv_upd ?_ (sub_of rfl hk) hc
      · exact hs
  · exact hs

theorem execBlankWindowEnd_upd {t : Nat} {n : Cluster} {c : Channel} {s0' : State} (hs0' : Upd K R C s0 s0') (hk : 0x1041 ||| K = K) (hr : 0x400000000000000000000000000000000000000000000000000000000000000000000000000 ||| R = R) (hc : C n.val c.val) :
    ResUpd K R C s0 (execBlankWindowEnd t n c s0') := by
  unfold execBlankWindowEnd
  extract_lets -merge +onlyGivenNames x5
  have hx6 : Upd K R C s0 x5 := by
    unfold x5
    refine State.at_upd ?_ (sub_of rfl hk)
    · exact hs0'
  try clear_value x5
  refine ResUpd.next ?_
  split
  · refine Upd.ite ?_ ?_
    · refine unblank_upd ?_ (sub_of rfl hk) (sub_of rfl hr) hc
      · refine unblank_upd ?_ (sub_of rfl hk) (sub_of rfl hr) hc
        · refine State.modChan_upd ?_ (sub_of rfl hk) hc
          · refine State.setRb_upd ?_ (testBit_of_sub hr rfl) (RegOk.chan rfl hc)
            exact hx6
    · exact hx6
  · exact hx6

theorem checkEnd_upd {n : Cluster} {c : Channel} {low : Bool} {pass : Bool} {s : State} (hs : Upd K R C s0 s) (hk : 0x1040 ||| K = K) (hr : 0x5400000000000000000000000000000000000000000000000000000000000000000000000000 ||| R = R) (hc : C n.val c.val) :
    Upd K R C s0 (checkEnd n c low pass s) := by
  unfold checkEnd
  extract_lets -merge +onlyGivenNames x6
  extract_lets -merge +onlyGivenNames x8
  have hx9 : Upd K R C s0 x8 := by
    unfold x8
    refine State.setRf_upd ?_ (testBit_of_sub hr rfl) (RegOk.chan rfl hc)
    exact hs
  try clear_value x8
  refine enterUnres_upd ?_ (sub_of rfl hk) (sub_of rfl hr) hc
  · refine Upd.ite ?_ ?_
    · exact hx9
    · refine State.setRb_upd ?_ (testBit_of_sub hr rfl) (RegOk.chan rfl hc)
      exact hx9

theorem execSelfchkDone_upd {t : Nat} {n : Cluster} {c : Channel} {h' : CheckObs} {l : CheckObs} {s0' : State} (hs0' : Upd K R C s0 s0') (hk : 0x400000000001041 ||| K = K) (hr : 0x5400000000000000000000000000000000000000000000000000000000000000000000000000 ||| R = R) (hc : ∀ c, C n.val c) :
    ResUpd K R C s0 (execSelfchkDone t n c h' l s0') := by
  unfold execSelfchkDone
  extract_lets -merge +onlyGivenNames x7
  have hx8 : Upd K R C s0 x7 := by
    unfold x7
    refine State.at_upd ?_ (sub_of rfl hk)
    · exact hs0'
  try clear_value x7
  extract_lets -merge +onlyGivenNames x9
  refine ResUpd.next ?_
  split
  · extract_lets -merge +onlyGivenNames x11
    extract_lets -merge +onlyGivenNames x13
    extract_lets -merge +onlyGivenNames x15
    extract_lets -merge +onlyGivenNames x17
    refine Upd.ite ?_ ?_
    · extract_lets -merge +onlyGivenNames x19
      have hx20 : Upd K R C s0 x19 := by
        unfold x19
        refine State.modChan_upd ?_ (sub_of rfl hk) (hc _)
        · refine State.setRb_upd ?_ (testBit_of_sub hr rfl) (RegOk.chan rfl (hc _))
          refine Upd.free ?_ (testBit_of_sub hk rfl)
          exact hx8
      try clear_value x19
      extract_lets -merge +onlyGivenNames x21
      have hx22 : Upd K R C s0 x21 := by
        unfold x21
        refine Upd.ite ?_ ?_
        · refine checkEnd_upd ?_ (sub_of rfl hk) (sub_of rfl hr) (hc _)
          · exact hx20
        · exact hx20
      try clear_value x21
      extract_lets -merge +onlyGivenNames x23
      have hx24 : Upd K R C s0 x23 := by
        unfold x23
        refine Upd.ite ?_ ?_
        · refine checkEnd_upd ?_ (sub_of rfl hk) (sub_of rfl hr) (hc _)
          · exact hx22
        · exact hx22
      try clear_value x23
      refine Upd.ite ?_ ?_
      · refine busPass_upd ?_ (sub_of rfl hk) hc
        · exact hx24
      · exact hx24
    · exact hx8
  · exact hx8

theorem refWindow_upd {count : Nat} {s : State} (hs : Upd K R C s0 s) (hk : 0x600040df3007f40 ||| K = K) (hr : 0xffffffffffffffffffffffffffffffffffffffffffffffffffffffffffffffffffffffffffffffffffffffffffffffffffffffffffffffffffffffffffffffff ||| R = R) (hc : ∀ n c, C n c) :
    Upd K R C s0 (refWindow count s) := by
  unfold refWindow
  extract_lets -merge +onlyGivenNames x3
  extract_lets -merge +onlyGivenNames x5
  have hx6 : Upd K R C s0 x5 := by
    unfold x5
    refine State.countWrap_upd ?_ (testBit_of_sub hr rfl) (RegOk.glob rfl)
    refine State.setReg_upd ?_ (testBit_of_sub hr rfl) (RegOk.glob rfl)
    exact hs
  try clear_value x5
  extract_lets -merge +onlyGivenNames x7
  have hx8 : Upd K R C s0 x7 := by
    unfold x7
    refine State.setRb_upd ?_ (testBit_of_sub hr rfl) (RegOk.glob rfl)
    exact hx6
  try clear_value x7
  refine Upd.ite ?_ ?_
  · refine modPwr_upd ?_ (sub_of rfl hk)
    · exact hx8
  · refine Upd.ite ?_ ?_
    · refine clockFault_upd ?_ (sub_of rfl hk) (sub_of rfl hr) hc
      · exact hx8
    · exact hx8

theorem execRefclkWindow_upd {t : Nat} {count : Nat} {s0' : State} (hs0' : Upd K R C s0 s0') (hk : 0x600040df3007f41 ||| K = K) (hr : 0xffffffffffffffffffffffffffffffffffffffffffffffffffffffffffffffffffffffffffffffffffffffffffffffffffffffffffffffffffffffffffffffff ||| R = R) (hc : ∀ n c, C n c) :
    ResUpd K R C s0 (execRefclkWindow t count s0') := by
  unfold execRefclkWindow
  extract_lets -merge +onlyGivenNames x4
  have hx5 : Upd K R C s0 x4 := by
    unfold x4
    refine State.at_upd ?_ (sub_of rfl hk)
    · exact hs0'
  try clear_value x4
  refine ResUpd.next ?_
  refine Upd.ite ?_ ?_
  · exact hx5
  · refine refWindow_upd ?_ (sub_of rfl hk) (sub_of rfl hr) hc
    · exact hx5

theorem pllLockSet_upd {lock : Bool} {s : State} (hs : Upd K R C s0 s) (hk : 0x600040df3007f40 ||| K = K) (hr : 0xffffffffffffffffffffffffffffffffffffffffffffffffffffffffffffffffffffffffffffffffffffffffffffffffffffffffffffffffffffffffffffffff ||| R = R) (hc : ∀ n c, C n c) :
    Upd K R C s0 (pllLockSet lock s) := by
  unfold pllLockSet
  extract_lets -merge +onlyGivenNames x3
  have hx4 : Upd K R C s0 x3 := by
    unfold x3
    refine modPwr_upd ?_ (sub_of rfl hk)
    · refine State.setRb_upd ?_ (testBit_of_sub hr rfl) (RegOk.glob rfl)
      exact hs
  try clear_value x3
  refine Upd.ite ?_ ?_
  · refine clockFault_upd ?_ (sub_of rfl hk) (sub_of rfl hr) hc
    · exact hx4
  · exact hx4

theorem execPllLock_upd {t : Nat} {lock : Bool} {s0' : State} (hs0' : Upd K R C s0 s0') (hk : 0x600040df3007f41 ||| K = K) (hr : 0xffffffffffffffffffffffffffffffffffffffffffffffffffffffffffffffffffffffffffffffffffffffffffffffffffffffffffffffffffffffffffffffff ||| R = R) (hc : ∀ n c, C n c) :
    ResUpd K R C s0 (execPllLock t lock s0') := by
  unfold execPllLock
  extract_lets -merge +onlyGivenNames x4
  have hx5 : Upd K R C s0 x4 := by
    unfold x4
    refine State.at_upd ?_ (sub_of rfl hk)
    · exact hs0'
  try clear_value x4
  refine ResUpd.next ?_
  refine Upd.ite ?_ ?_
  · refine pllLockSet_upd ?_ (sub_of rfl hk) (sub_of rfl hr) hc
    · exact hx5
  · exact hx5

theorem rootJudge_upd {count : Nat} {s : State} (hs : Upd K R C s0 s) (hk : 0x680372fffff7f41 ||| K = K) (hr : 0xffffffffffffffffffffffffffffffffffffffffffffffffffffffffffffffffffffffffffffffffffffffffffffffffffffffffffffffffffffffffffffffff ||| R = R) (hc : ∀ n c, C n c) :
    Upd K R C s0 (rootJudge count s) := by
  unfold rootJudge
  extract_lets -merge +onlyGivenNames x3
  extract_lets -merge +onlyGivenNames x5
  have hx6 : Upd K R C s0 x5 := by
    unfold x5
    refine modPwr_upd ?_ (sub_of rfl hk)
    · refine State.setReg_upd ?_ (testBit_of_sub hr rfl) (RegOk.glob rfl)
      exact hs
  try clear_value x5
  refine Upd.ite ?_ ?_
  · refine Upd.ite ?_ ?_
    · exact hx6
    · refine clockFault_upd ?_ (sub_of rfl hk) (sub_of rfl hr) hc
      · exact hx6
  · refine Upd.ite ?_ ?_
    · refine rootStable_upd ?_ (sub_of rfl hk) (sub_of rfl hr) hc
      · exact hx6
    · exact hx6

theorem execRootJudgement_upd {t : Nat} {count : Nat} {s0' : State} (hs0' : Upd K R C s0 s0') (hk : 0x680372fffff7f41 ||| K = K) (hr : 0xffffffffffffffffffffffffffffffffffffffffffffffffffffffffffffffffffffffffffffffffffffffffffffffffffffffffffffffffffffffffffffffff ||| R = R) (hc : ∀ n c, C n c) :
    ResUpd K R C s0 (execRootJudgement t count s0') := by
  unfold execRootJudgement
  extract_lets -merge +onlyGivenNames x4
  have hx5 : Upd K R C s0 x4 := by
    unfold x4
    refine State.at_upd ?_ (sub_of rfl hk)
    · exact hs0'
  try clear_value x4
  refine ResUpd.next ?_
  refine Upd.ite ?_ ?_
  · refine rootJudge_upd ?_ (sub_of rfl hk) (sub_of rfl hr) hc
    · exact hx5
  · exact hx5

theorem aonDone_upd {root : Bool} {forced : Bool} {s : State} (hs : Upd K R C s0 s) (hk : 0x800000000 ||| K = K) (hr : 0x4000100000000000000000000000000 ||| R = R) :
    Upd K R C s0 (aonDone root forced s) := by
  unfold aonDone
  extract_lets -merge +onlyGivenNames x4
  have hx5 : Upd K R C s0 x4 := by
    unfold x4
    refine modPwr_upd ?_ (sub_of rfl hk)
    · refine State.setRb_upd ?_ (testBit_of_sub hr rfl) (RegOk.glob rfl)
      refine State.setRb_upd ?_ (testBit_of_sub hr rfl) (RegOk.glob rfl)
      exact hs
  try clear_value x4
  refine Upd.ite ?_ ?_
  · refine clkEvt_upd ?_ (sub_of rfl hr)
    · refine State.setRb_upd ?_ (testBit_of_sub hr rfl) (RegOk.glob rfl)
      exact hx5
  · exact hx5

theorem execAonSwitch_upd {t : Nat} {forced : Bool} {s0' : State} (hs0' : Upd K R C s0 s0') (hk : 0x800000001 ||| K = K) (hr : 0x4000100000000000000000000000000 ||| R = R) :
    ResUpd K R C s0 (execAonSwitch t forced s0') := by
  unfold execAonSwitch
  extract_lets -merge +onlyGivenNames x4
  have hx5 : Upd K R C s0 x4 := by
    unfold x4
    refine State.at_upd ?_ (sub_of rfl hk)
    · exact hs0'
  try clear_value x4
  refine ResUpd.next ?_
  split
  · refine Upd.ite ?_ ?_
    · refine aonDone_upd ?_ (sub_of rfl hk) (sub_of rfl hr)
      · exact hx5
    · exact hx5
  · exact hx5

theorem execInternalOscillatorFail_upd {t : Nat} {s0' : State} (hs0' : Upd K R C s0 s0') (hk : 0x800000001 ||| K = K) :
    ResUpd K R C s0 (execInternalOscillatorFail t s0') := by
  unfold execInternalOscillatorFail
  extract_lets -merge +onlyGivenNames x3
  have hx4 : Upd K R C s0 x3 := by
    unfold x3
    refine State.at_upd ?_ (sub_of rfl hk)
    · exact hs0'
  try clear_value x3
  refine ResUpd.next ?_
  refine modPwr_upd ?_ (sub_of rfl hk)
  · exact hx4

theorem execAutoSleep_upd {t : Nat} {s0' : State} (hs0' : Upd K R C s0 s0') (hk : 0x800000001 ||| K = K) :
    ResUpd K R C s0 (execAutoSleep t s0') := by
  unfold execAutoSleep
  extract_lets -merge +onlyGivenNames x3
  have hx4 : Upd K R C s0 x3 := by
    unfold x3
    refine State.at_upd ?_ (sub_of rfl hk)
    · exact hs0'
  try clear_value x3
  refine ResUpd.next ?_
  refine Upd.ite ?_ ?_
  · refine modPwr_upd ?_ (sub_of rfl hk)
    · exact hx4
  · exact hx4

theorem sleepCancel_upd {s : State} (hs : Upd K R C s0 s) (hk : 0x800000000 ||| K = K) (hr : 0x4010000000000000000000000000000 ||| R = R) :
    Upd K R C s0 (sleepCancel s) := by
  unfold sleepCancel
  refine clkEvt_upd ?_ (sub_of rfl hr)
  · refine modPwr_upd ?_ (sub_of rfl hk)
    · refine State.setRb_upd ?_ (testBit_of_sub hr rfl) (RegOk.glob rfl)
      exact hs

theorem execSleepEnter_upd {t : Nat} {s0' : State} (hs0' : Upd K R C s0 s0') (hk : 0x80000800000001 ||| K = K) (hr : 0x6010000000100000000000000000000 ||| R = R) :
    ResUpd K R C s0 (execSleepEnter t s0') := by
  unfold execSleepEnter
  extract_lets -merge +onlyGivenNames x3
  have hx4 : Upd K R C s0 x3 := by
    unfold x3
    refine State.at_upd ?_ (sub_of rfl hk)
    · exact hs0'
  try clear_value x3
  refine ResUpd.next ?_
  refine Upd.ite ?_ ?_
  · exact hx4
  · refine Upd.ite ?_ ?_
    · refine modPwr_upd ?_ (sub_of rfl hk)
      · exact hx4
    · refine Upd.ite ?_ ?_
      · refine sleepCancel_upd ?_ (sub_of rfl hk) (sub_of rfl hr)
        · exact hx4
      · refine sleepEnter_upd ?_ (sub_of rfl hk) (sub_of rfl hr)
        · exact hx4

theorem execWake_upd {t : Nat} {s0' : State} (hs0' : Upd K R C s0 s0') (hk : 0x80000000000001 ||| K = K) (hr : 0x4010000000100000000000000000000 ||| R = R) :
    ResUpd K R C s0 (execWake t s0') := by
  unfold execWake
  extract_lets -merge +onlyGivenNames x3
  have hx4 : Upd K R C s0 x3 := by
    unfold x3
    refine State.at_upd ?_ (sub_of rfl hk)
    · exact hs0'
  try clear_value x3
  refine ResUpd.next ?_
  refine Upd.ite ?_ ?_
  · split
    · refine wakeUp_upd ?_ (sub_of rfl hk) (sub_of rfl hr)
      · refine State.wake_upd ?_ (sub_of rfl hk)
        · exact hx4
    · refine wakeUp_upd ?_ (sub_of rfl hk) (sub_of rfl hr)
      · exact hx4
  · exact hx4

theorem execClusterGate_upd {t : Nat} {n : Cluster} {s0' : State} (hs0' : Upd K R C s0 s0') (hk : 0x1 ||| K = K) (hr : 0x800000000000000000000000000000 ||| R = R) :
    ResUpd K R C s0 (execClusterGate t n s0') := by
  unfold execClusterGate
  extract_lets -merge +onlyGivenNames x4
  have hx5 : Upd K R C s0 x4 := by
    unfold x4
    refine State.at_upd ?_ (sub_of rfl hk)
    · exact hs0'
  try clear_value x4
  refine ResUpd.next ?_
  refine Upd.ite ?_ ?_
  · refine State.setRb_upd ?_ (testBit_of_sub hr rfl) (RegOk.glob rfl)
    exact hx5
  · exact hx5

theorem railOut_upd {rail : Fin 5} {s : State} (hs : Upd K R C s0 s) (hk : 0x600000000000040 ||| K = K) (hr : 0x3fff9c0000000000000000002024040000000c00000000000000000000000000000000005000000000000000000000000000000 ||| R = R) (hc : ∀ n c, C n c) :
    Upd K R C s0 (railOut rail s) := by
  unfold railOut
  refine clkEvt_upd ?_ (sub_of rfl hr)
  · refine State.send_upd ?_ (sub_of rfl hk)
    · refine forceAll_upd ?_ (sub_of rfl hk) (sub_of rfl hr) hc
      · refine State.setRb_upd ?_ (testBit_of_sub hr rfl) (RegOk.glob rfl)
        exact hs

theorem execRailFault_upd {t : Nat} {rail : Fin 5} {s0' : State} (hs0' : Upd K R C s0 s0') (hk : 0x600000000000041 ||| K = K) (hr : 0x3fff9c0000000000000000002024040000000c00000000000000000000000000000000005000000000000000000000000000000 ||| R = R) (hc : ∀ n c, C n c) :
    ResUpd K R C s0 (execRailFault t rail s0') := by
  unfold execRailFault
  extract_lets -merge +onlyGivenNames x4
  have hx5 : Upd K R C s0 x4 := by
    unfold x4
    refine State.at_upd ?_ (sub_of rfl hk)
    · exact hs0'
  try clear_value x4
  refine ResUpd.next ?_
  refine Upd.ite ?_ ?_
  · refine railOut_upd ?_ (sub_of rfl hk) (sub_of rfl hr) hc
    · exact hx5
  · exact hx5

theorem execRailReturnInRange_upd {t : Nat} {rail : Fin 5} {micros : Nat} {s0' : State} (hs0' : Upd K R C s0 s0') (hk : 0x2000000000001 ||| K = K) (hr : 0x1000000000000000000000000000000 ||| R = R) :
    ResUpd K R C s0 (execRailReturnInRange t rail micros s0') := by
  unfold execRailReturnInRange
  extract_lets -merge +onlyGivenNames x5
  have hx6 : Upd K R C s0 x5 := by
    unfold x5
    refine State.at_upd ?_ (sub_of rfl hk)
    · exact hs0'
  try clear_value x5
  refine ResUpd.next ?_
  refine Upd.ite ?_ ?_
  · exact hx6
  · refine lifeCount_upd ?_ (sub_of rfl hk)
    · refine State.setRb_upd ?_ (testBit_of_sub hr rfl) (RegOk.glob rfl)
      exact hx6

theorem reset_inv : Inv State.reset := by constructor <;> rfl

theorem porState_upd {s : State} (hs : Upd K R C s0 s)
    (hk : 0xfffffffffffffff ||| K = K) (hr : 0xffffffffffffffffffffffffffffffffffffffffffffffffffffffffffffffffffffffffffffffffffffffffffffffffffffffffffffffffffffffffffffffff ||| R = R) (hc : ∀ n c, C n c) : Upd K R C s0 (porState s) := by
  have full : ∀ r : Reg, R.testBit r.ctorIdx = true := fun r => testBit_of_sub hr (full_testBit r)
  refine hs.any hc rfl (fun p hp => ?_) full fun h => ?_
  · cases p <;> first | rfl | exact Bool.noConfusion (hp.symm.trans (testBit_of_sub hk rfl))
  · have hch : tabWf (fun _ => ({ } : Chan)) (porChans s.chans) = true := by
      have h1 := tabRising_filter (fun e => decide (e.2.sw ≠ .opened)) (tabWf_rising h.chans)
      unfold porChans
      generalize s.chans.filter (fun e => decide (e.2.sw ≠ .opened)) = t at h1
      have key : ∀ lo (t : List (Nat × Chan)), tabRising lo t = true →
          tabRising lo (t.map fun e => (e.1, ({ sw := .opening } : Chan))) = true := by
        intro lo t
        induction t generalizing lo with
        | nil => intro _; rfl
        | cons e r ih => intro h; simp [tabRising] at h ⊢; exact ⟨h.1, ih _ h.2⟩
      simp only [tabWf, Bool.and_eq_true, List.all_eq_true, decide_eq_true_eq]
      refine ⟨key 0 t h1, fun e he => ?_⟩
      obtain ⟨a, _, rfl⟩ := List.mem_map.1 he
      show ({ sw := .opening } : Chan) ≠ { }
      decide
    exact { reset_inv with chans := hch }

theorem execPor_upd {t : Nat} {_core : Bool} {s0' : State} (hs0' : Upd K R C s0 s0') (hk : 0xfffffffffffffff ||| K = K) (hr : 0xffffffffffffffffffffffffffffffffffffffffffffffffffffffffffffffffffffffffffffffffffffffffffffffffffffffffffffffffffffffffffffffff ||| R = R) (hc : ∀ n c, C n c) :
    ResUpd K R C s0 (execPor t _core s0') := by
  unfold execPor
  refine ResUpd.next ?_
  refine porState_upd ?_ (sub_of rfl hk) (sub_of rfl hr) hc
  · refine State.at_upd ?_ (sub_of rfl hk)
    · exact hs0'

theorem execPwrgdRise_upd {t : Nat} {s0' : State} (hs0' : Upd K R C s0 s0') (hk : 0x800000001 ||| K = K) (hr : 0x1000000000000000000000000000000 ||| R = R) :
    ResUpd K R C s0 (execPwrgdRise t s0') := by
  unfold execPwrgdRise
  extract_lets -merge +onlyGivenNames x3
  have hx4 : Upd K R C s0 x3 := by
    unfold x3
    refine State.at_upd ?_ (sub_of rfl hk)
    · exact hs0'
  try clear_value x3
  refine ResUpd.next ?_
  refine Upd.ite ?_ ?_
  · refine modPwr_upd ?_ (sub_of rfl hk)
    · refine State.setReg_upd ?_ (testBit_of_sub hr rfl) (RegOk.glob rfl)
      exact hx4
  · exact hx4

theorem rstFalls_upd {s : State} (hs : Upd K R C s0 s) (hk : 0x80362fffff7f40 ||| K = K) (hr : 0xffffffffffffffffffffffffffffffffffffffffffffffffffffffffffffffffffffffffffffffffffffffffffffffffffffffffffffffffffffffffffffffff ||| R = R) (hc : ∀ n c, C n c) :
    Upd K R C s0 (rstFalls s) := by
  unfold rstFalls
  extract_lets -merge +onlyGivenNames x2
  have hx3 : Upd K R C s0 x2 := by
    unfold x2
    refine modPwr_upd ?_ (sub_of rfl hk)
    · exact hs
  try clear_value x2
  refine Upd.ite ?_ ?_
  · exact hx3
  · refine warmBegin_upd ?_ (sub_of rfl hk) (sub_of rfl hr) hc
    · exact hx3

theorem execWarmReset_upd {t : Nat} {assert : Bool} {s0' : State} (hs0' : Upd K R C s0 s0') (hk : 0xee3be2fffffffcd ||| K = K) (hr : 0xffffffffffffffffffffffffffffffffffffffffffffffffffffffffffffffffffffffffffffffffffffffffffffffffffffffffffffffffffffffffffffffff ||| R = R) (hc : ∀ n c, C n c) :
    ResUpd K R C s0 (execWarmReset t assert s0') := by
  unfold execWarmReset
  extract_lets -merge +onlyGivenNames x4
  have hx5 : Upd K R C s0 x4 := by
    unfold x4
    refine State.at_upd ?_ (sub_of rfl hk)
    · exact hs0'
  try clear_value x4
  refine ResUpd.next ?_
  refine Upd.ite ?_ ?_
  · refine rstFalls_upd ?_ (sub_of rfl hk) (sub_of rfl hr) hc
    · exact hx5
  · refine Upd.ite ?_ ?_
    · refine warmEnd_upd ?_ (sub_of rfl hk) (sub_of rfl hr) hc
      · refine modPwr_upd ?_ (sub_of rfl hk)
        · exact hx5
    · exact hx5

end Sys2Proof.Machine
end

