-- ==== Sys2Proof/Laws/Frames6.lean ====
section
/-! SUPPORT. Sys2Proof/Laws/Frames6.lean: what each operation of Machine/CluCmds, CoreCmds, Fabric, Faults, Hopper, Host, Param, Pattern
may change: parts and registers as bits of two numbers, and where (Laws/Upd.lean). Each lemma carries Inv and the queue of
commands over its operation. -/

set_option linter.unusedVariables false

namespace Sys2Proof.Machine

variable {K R : Nat} {C : Nat → Nat → Prop} {s0 : State}

theorem execStoreWrite_upd {t : Nat} {r : Req} {n : Cluster} {w : StoreAddr} {data : Word} {be : BitVec 4} {s0' : State} (hs0' : Upd K R C s0 s0') (hk : 0xee39c05f0c5f7cd ||| K = K) (hr : 0xffffffffffffffffffffffffffffffffffffffffffffffffffffffffffffffffffffffffffffffffffffffffffffffffffffffffffffffffffffffffffffffff ||| R = R) (hc : ∀ n c, C n c) :
    ResUpd K R C s0 (execStoreWrite t r n w data be s0') := by
  unfold execStoreWrite
  refine ResUpd.next ?_
  refine hostWrite_upd ?_ (sub_of rfl hk) (sub_of rfl hr) hc
  · refine State.at_upd ?_ (sub_of rfl hk)
    · exact hs0'

theorem execStoreRead_upd {t : Nat} {r : Req} {n : Cluster} {w : StoreAddr} {s0' : State} (hs0' : Upd K R C s0 s0') (hk : 0xc80000200000041 ||| K = K) (hr : 0x3fff840000000000000000002000000001000400000000000000000000000000000000004010000020100000000000000000000 ||| R = R) (hc : ∀ n c, C n c) :
    ResUpd K R C s0 (execStoreRead t r n w s0') := by
  unfold execStoreRead
  refine ResUpd.next ?_
  refine hostRead_upd ?_ (sub_of rfl hk) (sub_of rfl hr) hc
  · refine State.at_upd ?_ (sub_of rfl hk)
    · exact hs0'

theorem execSeqStart_upd {t : Nat} {r : Req} {n : Cluster} {data : Word} {s0' : State} (hs0' : Upd K R C s0 s0') (hk : 0xee39c05f0c5f7cd ||| K = K) (hr : 0xffffffffffffffffffffffffffffffffffffffffffffffffffffffffffffffffffffffffffffffffffffffffffffffffffffffffffffffffffffffffffffffff ||| R = R) (hc : ∀ n c, C n c) :
    ResUpd K R C s0 (execSeqStart t r n data s0') := by
  unfold execSeqStart
  refine ResUpd.next ?_
  refine cmdWrite_upd ?_ (sub_of rfl hk) (sub_of rfl hr) hc
  · refine State.at_upd ?_ (sub_of rfl hk)
    · exact hs0'

theorem execSeqAbort_upd {t : Nat} {r : Req} {n : Cluster} {data : Word} {s0' : State} (hs0' : Upd K R C s0 s0') (hk : 0xee39c05f0c5f7cd ||| K = K) (hr : 0xffffffffffffffffffffffffffffffffffffffffffffffffffffffffffffffffffffffffffffffffffffffffffffffffffffffffffffffffffffffffffffffff ||| R = R) (hc : ∀ n c, C n c) :
    ResUpd K R C s0 (execSeqAbort t r n data s0') := by
  unfold execSeqAbort
  refine ResUpd.next ?_
  refine cmdWrite_upd ?_ (sub_of rfl hk) (sub_of rfl hr) hc
  · refine State.at_upd ?_ (sub_of rfl hk)
    · exact hs0'

theorem execSeqRelease_upd {t : Nat} {r : Req} {n : Cluster} {data : Word} {s0' : State} (hs0' : Upd K R C s0 s0') (hk : 0xee39c05f0c5f7cd ||| K = K) (hr : 0xffffffffffffffffffffffffffffffffffffffffffffffffffffffffffffffffffffffffffffffffffffffffffffffffffffffffffffffffffffffffffffffff ||| R = R) (hc : ∀ n c, C n c) :
    ResUpd K R C s0 (execSeqRelease t r n data s0') := by
  unfold execSeqRelease
  refine ResUpd.next ?_
  refine cmdWrite_upd ?_ (sub_of rfl hk) (sub_of rfl hr) hc
  · refine State.at_upd ?_ (sub_of rfl hk)
    · exact hs0'

theorem execHopperEnable_upd {t : Nat} {r : Req} {n : Cluster} {data : Word} {s0' : State} (hs0' : Upd K R C s0 s0') (hk : 0xee39c05f0c5f7cd ||| K = K) (hr : 0xffffffffffffffffffffffffffffffffffffffffffffffffffffffffffffffffffffffffffffffffffffffffffffffffffffffffffffffffffffffffffffffff ||| R = R) (hc : ∀ n c, C n c) :
    ResUpd K R C s0 (execHopperEnable t r n data s0') := by
  unfold execHopperEnable
  refine ResUpd.next ?_
  refine cmdWrite_upd ?_ (sub_of rfl hk) (sub_of rfl hr) hc
  · refine State.at_upd ?_ (sub_of rfl hk)
    · exact hs0'

theorem execHopperFlush_upd {t : Nat} {r : Req} {n : Cluster} {data : Word} {s0' : State} (hs0' : Upd K R C s0 s0') (hk : 0xee39c05f0c5f7cd ||| K = K) (hr : 0xffffffffffffffffffffffffffffffffffffffffffffffffffffffffffffffffffffffffffffffffffffffffffffffffffffffffffffffffffffffffffffffff ||| R = R) (hc : ∀ n c, C n c) :
    ResUpd K R C s0 (execHopperFlush t r n data s0') := by
  unfold execHopperFlush
  refine ResUpd.next ?_
  refine cmdWrite_upd ?_ (sub_of rfl hk) (sub_of rfl hr) hc
  · refine State.at_upd ?_ (sub_of rfl hk)
    · exact hs0'

theorem execResume_upd {t : Nat} {r : Req} {n : Cluster} {data : Word} {s0' : State} (hs0' : Upd K R C s0 s0') (hk : 0xee39c05f0c5f7cd ||| K = K) (hr : 0xffffffffffffffffffffffffffffffffffffffffffffffffffffffffffffffffffffffffffffffffffffffffffffffffffffffffffffffffffffffffffffffff ||| R = R) (hc : ∀ n c, C n c) :
    ResUpd K R C s0 (execResume t r n data s0') := by
  unfold execResume
  refine ResUpd.next ?_
  refine cmdWrite_upd ?_ (sub_of rfl hk) (sub_of rfl hr) hc
  · refine State.at_upd ?_ (sub_of rfl hk)
    · exact hs0'

theorem execAbandon_upd {t : Nat} {r : Req} {n : Cluster} {data : Word} {s0' : State} (hs0' : Upd K R C s0 s0') (hk : 0xee39c05f0c5f7cd ||| K = K) (hr : 0xffffffffffffffffffffffffffffffffffffffffffffffffffffffffffffffffffffffffffffffffffffffffffffffffffffffffffffffffffffffffffffffff ||| R = R) (hc : ∀ n c, C n c) :
    ResUpd K R C s0 (execAbandon t r n data s0') := by
  unfold execAbandon
  refine ResUpd.next ?_
  refine cmdWrite_upd ?_ (sub_of rfl hk) (sub_of rfl hr) hc
  · refine State.at_upd ?_ (sub_of rfl hk)
    · exact hs0'

theorem execPatchGo_upd {t : Nat} {r : Req} {data : Word} {s0' : State} (hs0' : Upd K R C s0 s0') (hk : 0xee39c05f0c5f7cd ||| K = K) (hr : 0xffffffffffffffffffffffffffffffffffffffffffffffffffffffffffffffffffffffffffffffffffffffffffffffffffffffffffffffffffffffffffffffff ||| R = R) (hc : ∀ n c, C n c) :
    ResUpd K R C s0 (execPatchGo t r data s0') := by
  unfold execPatchGo
  refine ResUpd.next ?_
  refine cmdWrite_upd ?_ (sub_of rfl hk) (sub_of rfl hr) hc
  · refine State.at_upd ?_ (sub_of rfl hk)
    · exact hs0'

theorem execPatchCancel_upd {t : Nat} {r : Req} {data : Word} {s0' : State} (hs0' : Upd K R C s0 s0') (hk : 0xee39c05f0c5f7cd ||| K = K) (hr : 0xffffffffffffffffffffffffffffffffffffffffffffffffffffffffffffffffffffffffffffffffffffffffffffffffffffffffffffffffffffffffffffffff ||| R = R) (hc : ∀ n c, C n c) :
    ResUpd K R C s0 (execPatchCancel t r data s0') := by
  unfold execPatchCancel
  refine ResUpd.next ?_
  refine cmdWrite_upd ?_ (sub_of rfl hk) (sub_of rfl hr) hc
  · refine State.at_upd ?_ (sub_of rfl hk)
    · exact hs0'

theorem execRgStart_upd {t : Nat} {r : Req} {n : Cluster} {c : Channel} {data : Word} {s0' : State} (hs0' : Upd K R C s0 s0') (hk : 0xee39c05f0c5f7cd ||| K = K) (hr : 0xffffffffffffffffffffffffffffffffffffffffffffffffffffffffffffffffffffffffffffffffffffffffffffffffffffffffffffffffffffffffffffffff ||| R = R) (hc : ∀ n c, C n c) :
    ResUpd K R C s0 (execRgStart t r n c data s0') := by
  unfold execRgStart
  refine ResUpd.next ?_
  refine cmdWrite_upd ?_ (sub_of rfl hk) (sub_of rfl hr) hc
  · refine State.at_upd ?_ (sub_of rfl hk)
    · exact hs0'

theorem execRgStop_upd {t : Nat} {r : Req} {n : Cluster} {c : Channel} {data : Word} {s0' : State} (hs0' : Upd K R C s0 s0') (hk : 0xee39c05f0c5f7cd ||| K = K) (hr : 0xffffffffffffffffffffffffffffffffffffffffffffffffffffffffffffffffffffffffffffffffffffffffffffffffffffffffffffffffffffffffffffffff ||| R = R) (hc : ∀ n c, C n c) :
    ResUpd K R C s0 (execRgStop t r n c data s0') := by
  unfold execRgStop
  refine ResUpd.next ?_
  refine cmdWrite_upd ?_ (sub_of rfl hk) (sub_of rfl hr) hc
  · refine State.at_upd ?_ (sub_of rfl hk)
    · exact hs0'

theorem execRgStatRead_upd {t : Nat} {r : Req} {n : Cluster} {c : Channel} {s0' : State} (hs0' : Upd K R C s0 s0') (hk : 0xc80000200000041 ||| K = K) (hr : 0x3fff840000000000000000002000000001000400000000000000000000000000000000004010000020100000000000000000000 ||| R = R) (hc : ∀ n c, C n c) :
    ResUpd K R C s0 (execRgStatRead t r n c s0') := by
  unfold execRgStatRead
  refine ResUpd.next ?_
  refine hostRead_upd ?_ (sub_of rfl hk) (sub_of rfl hr) hc
  · refine State.at_upd ?_ (sub_of rfl hk)
    · exact hs0'

theorem execTriggerArm_upd {t : Nat} {r : Req} {n : Cluster} {u : Unit8} {data : Word} {s0' : State} (hs0' : Upd K R C s0 s0') (hk : 0xee39c05f0c5f7cd ||| K = K) (hr : 0xffffffffffffffffffffffffffffffffffffffffffffffffffffffffffffffffffffffffffffffffffffffffffffffffffffffffffffffffffffffffffffffff ||| R = R) (hc : ∀ n c, C n c) :
    ResUpd K R C s0 (execTriggerArm t r n u data s0') := by
  unfold execTriggerArm
  refine ResUpd.next ?_
  refine cmdWrite_upd ?_ (sub_of rfl hk) (sub_of rfl hr) hc
  · refine State.at_upd ?_ (sub_of rfl hk)
    · exact hs0'

theorem execTriggerDisarm_upd {t : Nat} {r : Req} {n : Cluster} {u : Unit8} {data : Word} {s0' : State} (hs0' : Upd K R C s0 s0') (hk : 0xee39c05f0c5f7cd ||| K = K) (hr : 0xffffffffffffffffffffffffffffffffffffffffffffffffffffffffffffffffffffffffffffffffffffffffffffffffffffffffffffffffffffffffffffffff ||| R = R) (hc : ∀ n c, C n c) :
    ResUpd K R C s0 (execTriggerDisarm t r n u data s0') := by
  unfold execTriggerDisarm
  refine ResUpd.next ?_
  refine cmdWrite_upd ?_ (sub_of rfl hk) (sub_of rfl hr) hc
  · refine State.at_upd ?_ (sub_of rfl hk)
    · exact hs0'

theorem execCaptureStart_upd {t : Nat} {r : Req} {n : Cluster} {e : Fin 2} {data : Word} {s0' : State} (hs0' : Upd K R C s0 s0') (hk : 0xee39c05f0c5f7cd ||| K = K) (hr : 0xffffffffffffffffffffffffffffffffffffffffffffffffffffffffffffffffffffffffffffffffffffffffffffffffffffffffffffffffffffffffffffffff ||| R = R) (hc : ∀ n c, C n c) :
    ResUpd K R C s0 (execCaptureStart t r n e data s0') := by
  unfold execCaptureStart
  refine ResUpd.next ?_
  refine cmdWrite_upd ?_ (sub_of rfl hk) (sub_of rfl hr) hc
  · refine State.at_upd ?_ (sub_of rfl hk)
    · exact hs0'

theorem execCaptureStop_upd {t : Nat} {r : Req} {n : Cluster} {e : Fin 2} {data : Word} {s0' : State} (hs0' : Upd K R C s0 s0') (hk : 0xee39c05f0c5f7cd ||| K = K) (hr : 0xffffffffffffffffffffffffffffffffffffffffffffffffffffffffffffffffffffffffffffffffffffffffffffffffffffffffffffffffffffffffffffffff ||| R = R) (hc : ∀ n c, C n c) :
    ResUpd K R C s0 (execCaptureStop t r n e data s0') := by
  unfold execCaptureStop
  refine ResUpd.next ?_
  refine cmdWrite_upd ?_ (sub_of rfl hk) (sub_of rfl hr) hc
  · refine State.at_upd ?_ (sub_of rfl hk)
    · exact hs0'

theorem execAwgStart_upd {t : Nat} {r : Req} {n : Cluster} {g : Fin 2} {data : Word} {s0' : State} (hs0' : Upd K R C s0 s0') (hk : 0xee39c05f0c5f7cd ||| K = K) (hr : 0xffffffffffffffffffffffffffffffffffffffffffffffffffffffffffffffffffffffffffffffffffffffffffffffffffffffffffffffffffffffffffffffff ||| R = R) (hc : ∀ n c, C n c) :
    ResUpd K R C s0 (execAwgStart t r n g data s0') := by
  unfold execAwgStart
  refine ResUpd.next ?_
  refine cmdWrite_upd ?_ (sub_of rfl hk) (sub_of rfl hr) hc
  · refine State.at_upd ?_ (sub_of rfl hk)
    · exact hs0'

theorem execAwgStop_upd {t : Nat} {r : Req} {n : Cluster} {g : Fin 2} {data : Word} {s0' : State} (hs0' : Upd K R C s0 s0') (hk : 0xee39c05f0c5f7cd ||| K = K) (hr : 0xffffffffffffffffffffffffffffffffffffffffffffffffffffffffffffffffffffffffffffffffffffffffffffffffffffffffffffffffffffffffffffffff ||| R = R) (hc : ∀ n c, C n c) :
    ResUpd K R C s0 (execAwgStop t r n g data s0') := by
  unfold execAwgStop
  refine ResUpd.next ?_
  refine cmdWrite_upd ?_ (sub_of rfl hk) (sub_of rfl hr) hc
  · refine State.at_upd ?_ (sub_of rfl hk)
    · exact hs0'

theorem execAwgJumpRequest_upd {t : Nat} {r : Req} {n : Cluster} {g : Fin 2} {data : Word} {s0' : State} (hs0' : Upd K R C s0 s0') (hk : 0xee39c05f0c5f7cd ||| K = K) (hr : 0xffffffffffffffffffffffffffffffffffffffffffffffffffffffffffffffffffffffffffffffffffffffffffffffffffffffffffffffffffffffffffffffff ||| R = R) (hc : ∀ n c, C n c) :
    ResUpd K R C s0 (execAwgJumpRequest t r n g data s0') := by
  unfold execAwgJumpRequest
  refine ResUpd.next ?_
  refine cmdWrite_upd ?_ (sub_of rfl hk) (sub_of rfl hr) hc
  · refine State.at_upd ?_ (sub_of rfl hk)
    · exact hs0'

theorem execAwgTableWrite_upd {t : Nat} {r : Req} {n : Cluster} {g : Fin 2} {data : Word} {s0' : State} (hs0' : Upd K R C s0 s0') (hk : 0xee39c05f0c5f7cd ||| K = K) (hr : 0xffffffffffffffffffffffffffffffffffffffffffffffffffffffffffffffffffffffffffffffffffffffffffffffffffffffffffffffffffffffffffffffff ||| R = R) (hc : ∀ n c, C n c) :
    ResUpd K R C s0 (execAwgTableWrite t r n g data s0') := by
  unfold execAwgTableWrite
  refine ResUpd.next ?_
  refine cmdWrite_upd ?_ (sub_of rfl hk) (sub_of rfl hr) hc
  · refine State.at_upd ?_ (sub_of rfl hk)
    · exact hs0'

theorem execDdsRegWrite_upd {t : Nat} {r : Req} {n : Cluster} {g : Fin 2} {w : DdsReg} {data : Word} {s0' : State} (hs0' : Upd K R C s0 s0') (hk : 0xee39c05f0c5f7cd ||| K = K) (hr : 0xffffffffffffffffffffffffffffffffffffffffffffffffffffffffffffffffffffffffffffffffffffffffffffffffffffffffffffffffffffffffffffffff ||| R = R) (hc : ∀ n c, C n c) :
    ResUpd K R C s0 (execDdsRegWrite t r n g w data s0') := by
  unfold execDdsRegWrite
  refine ResUpd.next ?_
  refine cmdWrite_upd ?_ (sub_of rfl hk) (sub_of rfl hr) hc
  · refine State.at_upd ?_ (sub_of rfl hk)
    · exact hs0'

theorem execAuxRecon_upd {t : Nat} {r : Req} {n : Cluster} {g : Fin 2} {data : Word} {s0' : State} (hs0' : Upd K R C s0 s0') (hk : 0xee39c05f0c5f7cd ||| K = K) (hr : 0xffffffffffffffffffffffffffffffffffffffffffffffffffffffffffffffffffffffffffffffffffffffffffffffffffffffffffffffffffffffffffffffff ||| R = R) (hc : ∀ n c, C n c) :
    ResUpd K R C s0 (execAuxRecon t r n g data s0') := by
  unfold execAuxRecon
  refine ResUpd.next ?_
  refine cmdWrite_upd ?_ (sub_of rfl hk) (sub_of rfl hr) hc
  · refine State.at_upd ?_ (sub_of rfl hk)
    · exact hs0'

theorem execCapGo_upd {t : Nat} {r : Req} {data : Word} {s0' : State} (hs0' : Upd K R C s0 s0') (hk : 0xee39c05f0c5f7cd ||| K = K) (hr : 0xffffffffffffffffffffffffffffffffffffffffffffffffffffffffffffffffffffffffffffffffffffffffffffffffffffffffffffffffffffffffffffffff ||| R = R) (hc : ∀ n c, C n c) :
    ResUpd K R C s0 (execCapGo t r data s0') := by
  unfold execCapGo
  refine ResUpd.next ?_
  refine cmdWrite_upd ?_ (sub_of rfl hk) (sub_of rfl hr) hc
  · refine State.at_upd ?_ (sub_of rfl hk)
    · exact hs0'

theorem execCapAbort_upd {t : Nat} {r : Req} {data : Word} {s0' : State} (hs0' : Upd K R C s0 s0') (hk : 0xee39c05f0c5f7cd ||| K = K) (hr : 0xffffffffffffffffffffffffffffffffffffffffffffffffffffffffffffffffffffffffffffffffffffffffffffffffffffffffffffffffffffffffffffffff ||| R = R) (hc : ∀ n c, C n c) :
    ResUpd K R C s0 (execCapAbort t r data s0') := by
  unfold execCapAbort
  refine ResUpd.next ?_
  refine cmdWrite_upd ?_ (sub_of rfl hk) (sub_of rfl hr) hc
  · refine State.at_upd ?_ (sub_of rfl hk)
    · exact hs0'

theorem execBankOwnWrite_upd {t : Nat} {r : Req} {b : Bank} {data : Word} {s0' : State} (hs0' : Upd K R C s0 s0') (hk : 0xee39c05f0c5f7cd ||| K = K) (hr : 0xffffffffffffffffffffffffffffffffffffffffffffffffffffffffffffffffffffffffffffffffffffffffffffffffffffffffffffffffffffffffffffffff ||| R = R) (hc : ∀ n c, C n c) :
    ResUpd K R C s0 (execBankOwnWrite t r b data s0') := by
  unfold execBankOwnWrite
  refine ResUpd.next ?_
  refine cmdWrite_upd ?_ (sub_of rfl hk) (sub_of rfl hr) hc
  · refine State.at_upd ?_ (sub_of rfl hk)
    · exact hs0'

theorem execBankStateWrite_upd {t : Nat} {r : Req} {b : Bank} {data : Word} {s0' : State} (hs0' : Upd K R C s0 s0') (hk : 0xee39c05f0c5f7cd ||| K = K) (hr : 0xffffffffffffffffffffffffffffffffffffffffffffffffffffffffffffffffffffffffffffffffffffffffffffffffffffffffffffffffffffffffffffffff ||| R = R) (hc : ∀ n c, C n c) :
    ResUpd K R C s0 (execBankStateWrite t r b data s0') := by
  unfold execBankStateWrite
  refine ResUpd.next ?_
  refine cmdWrite_upd ?_ (sub_of rfl hk) (sub_of rfl hr) hc
  · refine State.at_upd ?_ (sub_of rfl hk)
    · exact hs0'

theorem execSlcDataAccess_upd {t : Nat} {r : Req} {write : Bool} {data : Word} {s0' : State} (hs0' : Upd K R C s0 s0') (hk : 0xee39c07f0c5f7cd ||| K = K) (hr : 0xffffffffffffffffffffffffffffffffffffffffffffffffffffffffffffffffffffffffffffffffffffffffffffffffffffffffffffffffffffffffffffffff ||| R = R) (hc : ∀ n c, C n c) :
    ResUpd K R C s0 (execSlcDataAccess t r write data s0') := by
  unfold execSlcDataAccess
  refine ResUpd.next ?_
  refine Upd.ite ?_ ?_
  · refine cmdWrite_upd ?_ (sub_of rfl hk) (sub_of rfl hr) hc
    · refine State.at_upd ?_ (sub_of rfl hk)
      · exact hs0'
  · refine hostRead_upd ?_ (sub_of rfl hk) (sub_of rfl hr) hc
    · refine State.at_upd ?_ (sub_of rfl hk)
      · exact hs0'

theorem execSluiceCommit_upd {t : Nat} {r : Req} {data : Word} {s0' : State} (hs0' : Upd K R C s0 s0') (hk : 0xee39c05f0c5f7cd ||| K = K) (hr : 0xffffffffffffffffffffffffffffffffffffffffffffffffffffffffffffffffffffffffffffffffffffffffffffffffffffffffffffffffffffffffffffffff ||| R = R) (hc : ∀ n c, C n c) :
    ResUpd K R C s0 (execSluiceCommit t r data s0') := by
  unfold execSluiceCommit
  refine ResUpd.next ?_
  refine cmdWrite_upd ?_ (sub_of rfl hk) (sub_of rfl hr) hc
  · refine State.at_upd ?_ (sub_of rfl hk)
    · exact hs0'

theorem execLotCommit_upd {t : Nat} {r : Req} {data : Word} {s0' : State} (hs0' : Upd K R C s0 s0') (hk : 0xee39c05f0c5f7cd ||| K = K) (hr : 0xffffffffffffffffffffffffffffffffffffffffffffffffffffffffffffffffffffffffffffffffffffffffffffffffffffffffffffffffffffffffffffffff ||| R = R) (hc : ∀ n c, C n c) :
    ResUpd K R C s0 (execLotCommit t r data s0') := by
  unfold execLotCommit
  refine ResUpd.next ?_
  refine cmdWrite_upd ?_ (sub_of rfl hk) (sub_of rfl hr) hc
  · refine State.at_upd ?_ (sub_of rfl hk)
    · exact hs0'

theorem execLfsrReseed_upd {t : Nat} {r : Req} {data : Word} {s0' : State} (hs0' : Upd K R C s0 s0') (hk : 0xee39c05f0c5f7cd ||| K = K) (hr : 0xffffffffffffffffffffffffffffffffffffffffffffffffffffffffffffffffffffffffffffffffffffffffffffffffffffffffffffffffffffffffffffffff ||| R = R) (hc : ∀ n c, C n c) :
    ResUpd K R C s0 (execLfsrReseed t r data s0') := by
  unfold execLfsrReseed
  refine ResUpd.next ?_
  refine cmdWrite_upd ?_ (sub_of rfl hk) (sub_of rfl hr) hc
  · refine State.at_upd ?_ (sub_of rfl hk)
    · exact hs0'

theorem execSemAcq_upd {t : Nat} {r : Req} {k : Sem} {data : Word} {s0' : State} (hs0' : Upd K R C s0 s0') (hk : 0xee39c05f0c5f7cd ||| K = K) (hr : 0xffffffffffffffffffffffffffffffffffffffffffffffffffffffffffffffffffffffffffffffffffffffffffffffffffffffffffffffffffffffffffffffff ||| R = R) (hc : ∀ n c, C n c) :
    ResUpd K R C s0 (execSemAcq t r k data s0') := by
  unfold execSemAcq
  refine ResUpd.next ?_
  refine cmdWrite_upd ?_ (sub_of rfl hk) (sub_of rfl hr) hc
  · refine State.at_upd ?_ (sub_of rfl hk)
    · exact hs0'

theorem execSemRel_upd {t : Nat} {r : Req} {k : Sem} {data : Word} {s0' : State} (hs0' : Upd K R C s0 s0') (hk : 0xee39c05f0c5f7cd ||| K = K) (hr : 0xffffffffffffffffffffffffffffffffffffffffffffffffffffffffffffffffffffffffffffffffffffffffffffffffffffffffffffffffffffffffffffffff ||| R = R) (hc : ∀ n c, C n c) :
    ResUpd K R C s0 (execSemRel t r k data s0') := by
  unfold execSemRel
  refine ResUpd.next ?_
  refine cmdWrite_upd ?_ (sub_of rfl hk) (sub_of rfl hr) hc
  · refine State.at_upd ?_ (sub_of rfl hk)
    · exact hs0'

theorem execDmaEnable_upd {t : Nat} {r : Req} {h' : Dom} {k : Fin 2} {data : Word} {s0' : State} (hs0' : Upd K R C s0 s0') (hk : 0xee39c05f0c5f7cd ||| K = K) (hr : 0xffffffffffffffffffffffffffffffffffffffffffffffffffffffffffffffffffffffffffffffffffffffffffffffffffffffffffffffffffffffffffffffff ||| R = R) (hc : ∀ n c, C n c) :
    ResUpd K R C s0 (execDmaEnable t r h' k data s0') := by
  unfold execDmaEnable
  refine ResUpd.next ?_
  refine cmdWrite_upd ?_ (sub_of rfl hk) (sub_of rfl hr) hc
  · refine State.at_upd ?_ (sub_of rfl hk)
    · exact hs0'

theorem execMgmtOwnerWrite_upd {t : Nat} {r : Req} {data : Word} {s0' : State} (hs0' : Upd K R C s0 s0') (hk : 0xee39c05f0c5f7cd ||| K = K) (hr : 0xffffffffffffffffffffffffffffffffffffffffffffffffffffffffffffffffffffffffffffffffffffffffffffffffffffffffffffffffffffffffffffffff ||| R = R) (hc : ∀ n c, C n c) :
    ResUpd K R C s0 (execMgmtOwnerWrite t r data s0') := by
  unfold execMgmtOwnerWrite
  refine ResUpd.next ?_
  refine cmdWrite_upd ?_ (sub_of rfl hk) (sub_of rfl hr) hc
  · refine State.at_upd ?_ (sub_of rfl hk)
    · exact hs0'

theorem execTxnBegin_upd {t : Nat} {r : Req} {h' : Dom} {data : Word} {s0' : State} (hs0' : Upd K R C s0 s0') (hk : 0xee39c05f0c5f7cd ||| K = K) (hr : 0xffffffffffffffffffffffffffffffffffffffffffffffffffffffffffffffffffffffffffffffffffffffffffffffffffffffffffffffffffffffffffffffff ||| R = R) (hc : ∀ n c, C n c) :
    ResUpd K R C s0 (execTxnBegin t r h' data s0') := by
  unfold execTxnBegin
  refine ResUpd.next ?_
  refine cmdWrite_upd ?_ (sub_of rfl hk) (sub_of rfl hr) hc
  · refine State.at_upd ?_ (sub_of rfl hk)
    · exact hs0'

theorem execTxnCommit_upd {t : Nat} {r : Req} {h' : Dom} {data : Word} {s0' : State} (hs0' : Upd K R C s0 s0') (hk : 0xee39c05f0c5f7cd ||| K = K) (hr : 0xffffffffffffffffffffffffffffffffffffffffffffffffffffffffffffffffffffffffffffffffffffffffffffffffffffffffffffffffffffffffffffffff ||| R = R) (hc : ∀ n c, C n c) :
    ResUpd K R C s0 (execTxnCommit t r h' data s0') := by
  unfold execTxnCommit
  refine ResUpd.next ?_
  refine cmdWrite_upd ?_ (sub_of rfl hk) (sub_of rfl hr) hc
  · refine State.at_upd ?_ (sub_of rfl hk)
    · exact hs0'

theorem execTxnRollback_upd {t : Nat} {r : Req} {h' : Dom} {data : Word} {s0' : State} (hs0' : Upd K R C s0 s0') (hk : 0xee39c05f0c5f7cd ||| K = K) (hr : 0xffffffffffffffffffffffffffffffffffffffffffffffffffffffffffffffffffffffffffffffffffffffffffffffffffffffffffffffffffffffffffffffff ||| R = R) (hc : ∀ n c, C n c) :
    ResUpd K R C s0 (execTxnRollback t r h' data s0') := by
  unfold execTxnRollback
  refine ResUpd.next ?_
  refine cmdWrite_upd ?_ (sub_of rfl hk) (sub_of rfl hr) hc
  · refine State.at_upd ?_ (sub_of rfl hk)
    · exact hs0'

theorem execRingEnable_upd {t : Nat} {r : Req} {data : Word} {s0' : State} (hs0' : Upd K R C s0 s0') (hk : 0xee39c05f0c5f7cd ||| K = K) (hr : 0xffffffffffffffffffffffffffffffffffffffffffffffffffffffffffffffffffffffffffffffffffffffffffffffffffffffffffffffffffffffffffffffff ||| R = R) (hc : ∀ n c, C n c) :
    ResUpd K R C s0 (execRingEnable t r data s0') := by
  unfold execRingEnable
  refine ResUpd.next ?_
  refine cmdWrite_upd ?_ (sub_of rfl hk) (sub_of rfl hr) hc
  · refine State.at_upd ?_ (sub_of rfl hk)
    · exact hs0'

theorem execRingAbortRequest_upd {t : Nat} {r : Req} {data : Word} {s0' : State} (hs0' : Upd K R C s0 s0') (hk : 0xee39c05f0c5f7cd ||| K = K) (hr : 0xffffffffffffffffffffffffffffffffffffffffffffffffffffffffffffffffffffffffffffffffffffffffffffffffffffffffffffffffffffffffffffffff ||| R = R) (hc : ∀ n c, C n c) :
    ResUpd K R C s0 (execRingAbortRequest t r data s0') := by
  unfold execRingAbortRequest
  refine ResUpd.next ?_
  refine cmdWrite_upd ?_ (sub_of rfl hk) (sub_of rfl hr) hc
  · refine State.at_upd ?_ (sub_of rfl hk)
    · exact hs0'

theorem execRingRecal_upd {t : Nat} {r : Req} {data : Word} {s0' : State} (hs0' : Upd K R C s0 s0') (hk : 0xee39c05f0c5f7cd ||| K = K) (hr : 0xffffffffffffffffffffffffffffffffffffffffffffffffffffffffffffffffffffffffffffffffffffffffffffffffffffffffffffffffffffffffffffffff ||| R = R) (hc : ∀ n c, C n c) :
    ResUpd K R C s0 (execRingRecal t r data s0') := by
  unfold execRingRecal
  refine ResUpd.next ?_
  refine cmdWrite_upd ?_ (sub_of rfl hk) (sub_of rfl hr) hc
  · refine State.at_upd ?_ (sub_of rfl hk)
    · exact hs0'

theorem execSleepRequest_upd {t : Nat} {r : Req} {data : Word} {s0' : State} (hs0' : Upd K R C s0 s0') (hk : 0xee39c05f0c5f7cd ||| K = K) (hr : 0xffffffffffffffffffffffffffffffffffffffffffffffffffffffffffffffffffffffffffffffffffffffffffffffffffffffffffffffffffffffffffffffff ||| R = R) (hc : ∀ n c, C n c) :
    ResUpd K R C s0 (execSleepRequest t r data s0') := by
  unfold execSleepRequest
  refine ResUpd.next ?_
  refine cmdWrite_upd ?_ (sub_of rfl hk) (sub_of rfl hr) hc
  · refine State.at_upd ?_ (sub_of rfl hk)
    · exact hs0'

theorem execShutdown_upd {t : Nat} {r : Req} {data : Word} {s0' : State} (hs0' : Upd K R C s0 s0') (hk : 0xee39c05f0c5f7cd ||| K = K) (hr : 0xffffffffffffffffffffffffffffffffffffffffffffffffffffffffffffffffffffffffffffffffffffffffffffffffffffffffffffffffffffffffffffffff ||| R = R) (hc : ∀ n c, C n c) :
    ResUpd K R C s0 (execShutdown t r data s0') := by
  unfold execShutdown
  refine ResUpd.next ?_
  refine cmdWrite_upd ?_ (sub_of rfl hk) (sub_of rfl hr) hc
  · refine State.at_upd ?_ (sub_of rfl hk)
    · exact hs0'

theorem execNomBudgetWrite_upd {t : Nat} {r : Req} {n : Cluster} {power : Bool} {data : Word} {s0' : State} (hs0' : Upd K R C s0 s0') (hk : 0xee39c05f0c5f7cd ||| K = K) (hr : 0xffffffffffffffffffffffffffffffffffffffffffffffffffffffffffffffffffffffffffffffffffffffffffffffffffffffffffffffffffffffffffffffff ||| R = R) (hc : ∀ n c, C n c) :
    ResUpd K R C s0 (execNomBudgetWrite t r n power data s0') := by
  unfold execNomBudgetWrite
  refine ResUpd.next ?_
  refine cmdWrite_upd ?_ (sub_of rfl hk) (sub_of rfl hr) hc
  · refine State.at_upd ?_ (sub_of rfl hk)
    · exact hs0'

theorem execRefcal_upd {t : Nat} {r : Req} {data : Word} {s0' : State} (hs0' : Upd K R C s0 s0') (hk : 0xee39c05f0c5f7cd ||| K = K) (hr : 0xffffffffffffffffffffffffffffffffffffffffffffffffffffffffffffffffffffffffffffffffffffffffffffffffffffffffffffffffffffffffffffffff ||| R = R) (hc : ∀ n c, C n c) :
    ResUpd K R C s0 (execRefcal t r data s0') := by
  unfold execRefcal
  refine ResUpd.next ?_
  refine cmdWrite_upd ?_ (sub_of rfl hk) (sub_of rfl hr) hc
  · refine State.at_upd ?_ (sub_of rfl hk)
    · exact hs0'

theorem execCalCertWrite_upd {t : Nat} {r : Req} {data : Word} {s0' : State} (hs0' : Upd K R C s0 s0') (hk : 0xee39c05f0c5f7cd ||| K = K) (hr : 0xffffffffffffffffffffffffffffffffffffffffffffffffffffffffffffffffffffffffffffffffffffffffffffffffffffffffffffffffffffffffffffffff ||| R = R) (hc : ∀ n c, C n c) :
    ResUpd K R C s0 (execCalCertWrite t r data s0') := by
  unfold execCalCertWrite
  refine ResUpd.next ?_
  refine cmdWrite_upd ?_ (sub_of rfl hk) (sub_of rfl hr) hc
  · refine State.at_upd ?_ (sub_of rfl hk)
    · exact hs0'

theorem execTrimWrite_upd {t : Nat} {r : Req} {n : Cluster} {w : TrimAddr} {data : Word} {s0' : State} (hs0' : Upd K R C s0 s0') (hk : 0xee39c05f0c5f7cd ||| K = K) (hr : 0xffffffffffffffffffffffffffffffffffffffffffffffffffffffffffffffffffffffffffffffffffffffffffffffffffffffffffffffffffffffffffffffff ||| R = R) (hc : ∀ n c, C n c) :
    ResUpd K R C s0 (execTrimWrite t r n w data s0') := by
  unfold execTrimWrite
  refine ResUpd.next ?_
  refine cmdWrite_upd ?_ (sub_of rfl hk) (sub_of rfl hr) hc
  · refine State.at_upd ?_ (sub_of rfl hk)
    · exact hs0'

theorem execCalReq_upd {t : Nat} {r : Req} {n : Cluster} {data : Word} {s0' : State} (hs0' : Upd K R C s0 s0') (hk : 0xee39c05f0c5f7cd ||| K = K) (hr : 0xffffffffffffffffffffffffffffffffffffffffffffffffffffffffffffffffffffffffffffffffffffffffffffffffffffffffffffffffffffffffffffffff ||| R = R) (hc : ∀ n c, C n c) :
    ResUpd K R C s0 (execCalReq t r n data s0') := by
  unfold execCalReq
  refine ResUpd.next ?_
  refine cmdWrite_upd ?_ (sub_of rfl hk) (sub_of rfl hr) hc
  · refine State.at_upd ?_ (sub_of rfl hk)
    · exact hs0'

theorem execFaultInject_upd {t : Nat} {r : Req} {data : Word} {s0' : State} (hs0' : Upd K R C s0 s0') (hk : 0xee39c05f0c5f7cd ||| K = K) (hr : 0xffffffffffffffffffffffffffffffffffffffffffffffffffffffffffffffffffffffffffffffffffffffffffffffffffffffffffffffffffffffffffffffff ||| R = R) (hc : ∀ n c, C n c) :
    ResUpd K R C s0 (execFaultInject t r data s0') := by
  unfold execFaultInject
  refine ResUpd.next ?_
  refine cmdWrite_upd ?_ (sub_of rfl hk) (sub_of rfl hr) hc
  · refine State.at_upd ?_ (sub_of rfl hk)
    · exact hs0'

theorem execAssayRequest_upd {t : Nat} {r : Req} {data : Word} {s0' : State} (hs0' : Upd K R C s0 s0') (hk : 0xee39c05f0c5f7cd ||| K = K) (hr : 0xffffffffffffffffffffffffffffffffffffffffffffffffffffffffffffffffffffffffffffffffffffffffffffffffffffffffffffffffffffffffffffffff ||| R = R) (hc : ∀ n c, C n c) :
    ResUpd K R C s0 (execAssayRequest t r data s0') := by
  unfold execAssayRequest
  refine ResUpd.next ?_
  refine cmdWrite_upd ?_ (sub_of rfl hk) (sub_of rfl hr) hc
  · refine State.at_upd ?_ (sub_of rfl hk)
    · exact hs0'

theorem execRetireWrite_upd {t : Nat} {r : Req} {cluster : Option Cluster} {data : Word} {s0' : State} (hs0' : Upd K R C s0 s0') (hk : 0xee39c05f0c5f7cd ||| K = K) (hr : 0xffffffffffffffffffffffffffffffffffffffffffffffffffffffffffffffffffffffffffffffffffffffffffffffffffffffffffffffffffffffffffffffff ||| R = R) (hc : ∀ n c, C n c) :
    ResUpd K R C s0 (execRetireWrite t r cluster data s0') := by
  unfold execRetireWrite
  refine ResUpd.next ?_
  split
  · refine cmdWrite_upd ?_ (sub_of rfl hk) (sub_of rfl hr) hc
    · refine State.at_upd ?_ (sub_of rfl hk)
      · exact hs0'
  · refine cmdWrite_upd ?_ (sub_of rfl hk) (sub_of rfl hr) hc
    · refine State.at_upd ?_ (sub_of rfl hk)
      · exact hs0'

theorem execPsmFrame_upd {t : Nat} {r : Req} {data : Word} {s0' : State} (hs0' : Upd K R C s0 s0') (hk : 0xee39c05f0c5f7cd ||| K = K) (hr : 0xffffffffffffffffffffffffffffffffffffffffffffffffffffffffffffffffffffffffffffffffffffffffffffffffffffffffffffffffffffffffffffffff ||| R = R) (hc : ∀ n c, C n c) :
    ResUpd K R C s0 (execPsmFrame t r data s0') := by
  unfold execPsmFrame
  refine ResUpd.next ?_
  refine cmdWrite_upd ?_ (sub_of rfl hk) (sub_of rfl hr) hc
  · refine State.at_upd ?_ (sub_of rfl hk)
    · exact hs0'

theorem execInAck_upd {t : Nat} {r : Req} {data : Word} {s0' : State} (hs0' : Upd K R C s0 s0') (hk : 0xee39c05f0c5f7cd ||| K = K) (hr : 0xffffffffffffffffffffffffffffffffffffffffffffffffffffffffffffffffffffffffffffffffffffffffffffffffffffffffffffffffffffffffffffffff ||| R = R) (hc : ∀ n c, C n c) :
    ResUpd K R C s0 (execInAck t r data s0') := by
  unfold execInAck
  refine ResUpd.next ?_
  refine cmdWrite_upd ?_ (sub_of rfl hk) (sub_of rfl hr) hc
  · refine State.at_upd ?_ (sub_of rfl hk)
    · exact hs0'

theorem execOutSend_upd {t : Nat} {r : Req} {data : Word} {s0' : State} (hs0' : Upd K R C s0 s0') (hk : 0xee39c05f0c5f7cd ||| K = K) (hr : 0xffffffffffffffffffffffffffffffffffffffffffffffffffffffffffffffffffffffffffffffffffffffffffffffffffffffffffffffffffffffffffffffff ||| R = R) (hc : ∀ n c, C n c) :
    ResUpd K R C s0 (execOutSend t r data s0') := by
  unfold execOutSend
  refine ResUpd.next ?_
  refine cmdWrite_upd ?_ (sub_of rfl hk) (sub_of rfl hr) hc
  · refine State.at_upd ?_ (sub_of rfl hk)
    · exact hs0'

theorem execIdLock_upd {t : Nat} {r : Req} {data : Word} {s0' : State} (hs0' : Upd K R C s0 s0') (hk : 0xee39c05f0c5f7cd ||| K = K) (hr : 0xffffffffffffffffffffffffffffffffffffffffffffffffffffffffffffffffffffffffffffffffffffffffffffffffffffffffffffffffffffffffffffffff ||| R = R) (hc : ∀ n c, C n c) :
    ResUpd K R C s0 (execIdLock t r data s0') := by
  unfold execIdLock
  refine ResUpd.next ?_
  refine cmdWrite_upd ?_ (sub_of rfl hk) (sub_of rfl hr) hc
  · refine State.at_upd ?_ (sub_of rfl hk)
    · exact hs0'

theorem execLoRegisterRead_upd {t : Nat} {r : Req} {a : BitVec 26} {s0' : State} (hs0' : Upd K R C s0 s0') (hk : 0xc80000200000041 ||| K = K) (hr : 0x3fff840000000000000000002000000001000400000000000000000000000000000000004010000020100000000000000000000 ||| R = R) (hc : ∀ n c, C n c) :
    ResUpd K R C s0 (execLoRegisterRead t r a s0') := by
  unfold execLoRegisterRead
  refine ResUpd.next ?_
  refine hostRead_upd ?_ (sub_of rfl hk) (sub_of rfl hr) hc
  · refine State.at_upd ?_ (sub_of rfl hk)
    · exact hs0'

theorem presentRivals_upd {rivals : List (Fin 8 × MillOp × Nat)} {s : State} (hs : Upd K R C s0 s) (hk : 0xe0000000f000002 ||| K = K) (hr : 0x1e80000000000000d000000 ||| R = R) :
    Upd K R C s0 (presentRivals rivals s) := by
  unfold presentRivals
  refine foldl_upd ?_ fun x4 y h3 => ?_
  · exact hs
  · beta_reduce
    refine present_upd ?_ (sub_of rfl hk) (sub_of rfl hr)
    · exact h3

theorem drawBank_upd {b : Nat} {s : State} (hs : Upd K R C s0 s) (hk : 0xe0000000d600002 ||| K = K) (hr : 0x101e80000000000000d000000 ||| R = R) :
    Upd K R C s0 (drawBank b s) := by
  unfold drawBank
  extract_lets -merge +onlyGivenNames x3
  refine Upd.ite ?_ ?_
  · exact hs
  · refine draw_upd ?_ (sub_of rfl hk) (sub_of rfl hr)
    · exact hs

theorem streamAccess_upd {n : Cluster} {k : Fin 6} {x : MillOp} {a : Nat} {s : State} (hs : Upd K R C s0 s) (hk : 0xe0000000e180002 ||| K = K) (hr : 0x11e80000000000000d000000 ||| R = R) :
    Upd K R C s0 (streamAccess n k x a s) := by
  unfold streamAccess
  extract_lets -merge +onlyGivenNames x6
  refine Upd.ite ?_ ?_
  · refine access_upd ?_ (sub_of rfl hk) (sub_of rfl hr)
    · exact hs
  · refine Upd.ite ?_ ?_
    · exact hs
    · refine Upd.ite ?_ ?_
      · refine State.setRb_upd ?_ (testBit_of_sub hr rfl) (RegOk.glob rfl)
        exact hs
      · refine perform_upd ?_ (sub_of rfl hk) (sub_of rfl hr)
        · refine countSlot_upd ?_ (sub_of rfl hk)
          · exact hs

theorem execMillraceAccess_upd {t : Nat} {q : MillReq} {x : MillOp} {a : Nat} {rivals : List (Fin 8 × MillOp × Nat)} {s0' : State} (hs0' : Upd K R C s0 s0') (hk : 0xe0000000f780003 ||| K = K) (hr : 0x111e80000000000000d000000 ||| R = R) :
    ResUpd K R C s0 (execMillraceAccess t q x a rivals s0') := by
  unfold execMillraceAccess
  extract_lets -merge +onlyGivenNames x7
  have hx8 : Upd K R C s0 x7 := by
    unfold x7
    refine State.at_upd ?_ (sub_of rfl hk)
    · exact hs0'
  try clear_value x7
  refine ResUpd.next ?_
  split
  · refine streamAccess_upd ?_ (sub_of rfl hk) (sub_of rfl hr)
    · exact hx8
  · split
    · refine drawBank_upd ?_ (sub_of rfl hk) (sub_of rfl hr)
      · refine presentRivals_upd ?_ (sub_of rfl hk) (sub_of rfl hr)
        · refine present_upd ?_ (sub_of rfl hk) (sub_of rfl hr)
          · exact hx8
    · exact hx8

theorem execLotteryBackoffEnd_upd {t : Nat} {q : Fin 8} {s0' : State} (hs0' : Upd K R C s0 s0') (hk : 0xe0000000d600003 ||| K = K) (hr : 0x101e80000000000000d000000 ||| R = R) :
    ResUpd K R C s0 (execLotteryBackoffEnd t q s0') := by
  unfold execLotteryBackoffEnd
  extract_lets -merge +onlyGivenNames x4
  have hx5 : Upd K R C s0 x4 := by
    unfold x4
    refine State.at_upd ?_ (sub_of rfl hk)
    · exact hs0'
  try clear_value x4
  refine ResUpd.next ?_
  split
  · refine Upd.ite ?_ ?_
    · refine drawBank_upd ?_ (sub_of rfl hk) (sub_of rfl hr)
      · exact hx5
    · exact hx5
  · exact hx5

theorem execBankHandoverDone_upd {t : Nat} {b : Bank} {s0' : State} (hs0' : Upd K R C s0 s0') (hk : 0xe0000000e000003 ||| K = K) (hr : 0x1e88000000000000d000000 ||| R = R) :
    ResUpd K R C s0 (execBankHandoverDone t b s0') := by
  unfold execBankHandoverDone
  extract_lets -merge +onlyGivenNames x4
  have hx5 : Upd K R C s0 x4 := by
    unfold x4
    refine State.at_upd ?_ (sub_of rfl hk)
    · exact hs0'
  try clear_value x4
  refine ResUpd.next ?_
  refine Upd.ite ?_ ?_
  · refine drainWaiting_upd ?_ (sub_of rfl hk) (sub_of rfl hr)
    · refine State.setRb_upd ?_ (testBit_of_sub hr rfl) (RegOk.glob rfl)
      refine State.setRb_upd ?_ (testBit_of_sub hr rfl) (RegOk.glob rfl)
      refine State.setRf_upd ?_ (testBit_of_sub hr rfl) (RegOk.glob rfl)
      exact hx5
  · exact hx5

theorem execBankStateDone_upd {t : Nat} {b : Bank} {s0' : State} (hs0' : Upd K R C s0 s0') (hk : 0xe0000000e000003 ||| K = K) (hr : 0x1e90000000000000d000000 ||| R = R) :
    ResUpd K R C s0 (execBankStateDone t b s0') := by
  unfold execBankStateDone
  extract_lets -merge +onlyGivenNames x4
  have hx5 : Upd K R C s0 x4 := by
    unfold x4
    refine State.at_upd ?_ (sub_of rfl hk)
    · exact hs0'
  try clear_value x4
  extract_lets -merge +onlyGivenNames x6
  refine ResUpd.next ?_
  refine Upd.ite ?_ ?_
  · extract_lets -merge +onlyGivenNames x8
    have hx9 : Upd K R C s0 x8 := by
      unfold x8
      refine Upd.ite ?_ ?_
      · refine clearRange_upd ?_ (sub_of rfl hk)
        · exact hx5
      · exact hx5
    try clear_value x8
    refine drainWaiting_upd ?_ (sub_of rfl hk) (sub_of rfl hr)
    · refine State.setRb_upd ?_ (testBit_of_sub hr rfl) (RegOk.glob rfl)
      refine State.setRb_upd ?_ (testBit_of_sub hr rfl) (RegOk.glob rfl)
      refine State.setRf_upd ?_ (testBit_of_sub hr rfl) (RegOk.glob rfl)
      exact hx9
  · exact hx5

theorem Upd.sluiceCopy {K R : Nat} {C : Nat → Nat → Prop} {s0 s : State} (h : Upd K R C s0 s)
    (hk : K.testBit (Part.ctorIdx .slcActive) = true) : Upd K R C s0 { s with slcActive := s.slcShadow } :=
  h.trans ⟨rfl, fun p hp => by cases p <;> first | rfl | exact (by simp [hk] at hp), fun _ _ _ => rfl, Within.same _ rfl,
    fun x => { x with slcActive := x.slcShadow }⟩

theorem execSluiceApply_upd {t : Nat} {s : State} (hs : Upd K R C s0 s)
    (hk : 0x60001 ||| K = K) (hr : 0x100000000000000000000000 ||| R = R) : ResUpd K R C s0 (execSluiceApply t s) := by
  unfold execSluiceApply
  extract_lets s1
  have h1 : Upd K R C s0 s1 := State.at_upd hs (sub_of rfl hk)
  clear_value s1
  refine ResUpd.next ?_
  split
  · refine Upd.ite ?_ h1
    extract_lets s2
    refine Upd.slcAt ?_ (testBit_of_sub hk rfl)
    exact State.setRb_upd (Upd.sluiceCopy h1 (testBit_of_sub hk rfl)) (testBit_of_sub hr rfl) (RegOk.glob rfl)
  · exact h1

theorem execCalSemAcquire_upd {t : Nat} {s0' : State} (hs0' : Upd K R C s0 s0') (hk : 0x20000001 ||| K = K) (hr : 0x80000000000000000000000000000000000 ||| R = R) :
    ResUpd K R C s0 (execCalSemAcquire t s0') := by
  unfold execCalSemAcquire
  extract_lets -merge +onlyGivenNames x3
  have hx4 : Upd K R C s0 x3 := by
    unfold x3
    refine semCalTake_upd ?_ (sub_of rfl hk)
    · refine State.at_upd ?_ (sub_of rfl hk)
      · exact hs0'
  try clear_value x3
  refine ResUpd.next ?_
  refine Upd.ite ?_ ?_
  · refine State.setRb_upd ?_ (testBit_of_sub hr rfl) (RegOk.glob rfl)
    exact hx4
  · exact hx4

theorem execBar2Read_upd {t : Nat} {h' : Dom} {a : Nat} {len : Nat} {s0' : State} (hs0' : Upd K R C s0 s0') (hk : 0xe8000000e000003 ||| K = K) (hr : 0x401000001e90000000000000d000000 ||| R = R) :
    ResUpd K R C s0 (execBar2Read t h' a len s0') := by
  unfold execBar2Read
  extract_lets -merge +onlyGivenNames x6
  have hx7 : Upd K R C s0 x6 := by
    unfold x6
    refine hostWakes_upd ?_ (sub_of rfl hk) (sub_of rfl hr)
    · refine State.at_upd ?_ (sub_of rfl hk)
      · exact hs0'
  try clear_value x6
  extract_lets -merge +onlyGivenNames x8
  refine ResUpd.next ?_
  refine Upd.ite ?_ ?_
  · refine access_upd ?_ (sub_of rfl hk) (sub_of rfl hr)
    · exact hx7
  · exact hx7

theorem execBar2Write_upd {t : Nat} {h' : Dom} {a : Nat} {bytes : List Byte} {s0' : State} (hs0' : Upd K R C s0 s0') (hk : 0xe8000000e000003 ||| K = K) (hr : 0x401000001e90000000000000d000000 ||| R = R) :
    ResUpd K R C s0 (execBar2Write t h' a bytes s0') := by
  unfold execBar2Write
  extract_lets -merge +onlyGivenNames x6
  have hx7 : Upd K R C s0 x6 := by
    unfold x6
    refine hostWakes_upd ?_ (sub_of rfl hk) (sub_of rfl hr)
    · refine State.at_upd ?_ (sub_of rfl hk)
      · exact hs0'
  try clear_value x6
  extract_lets -merge +onlyGivenNames x8
  refine ResUpd.next ?_
  refine Upd.ite ?_ ?_
  · refine access_upd ?_ (sub_of rfl hk) (sub_of rfl hr)
    · exact hx7
  · exact hx7

theorem execFaultMessage_upd {t : Nat} {s0' : State} (hs0' : Upd K R C s0 s0') (hk : 0xfa3f62fffff7f41 ||| K = K) (hr : 0xffffffffffffffffffffffffffffffffffffffffffffffffffffffffffffffffffffffffffffffffffffffffffffffffffffffffffffffffffffffffffffffff ||| R = R) (hc : ∀ n c, C n c) :
    ResUpd K R C s0 (execFaultMessage t s0') := by
  unfold execFaultMessage
  extract_lets -merge +onlyGivenNames x3
  have hx4 : Upd K R C s0 x3 := by
    unfold x3
    refine State.at_upd ?_ (sub_of rfl hk)
    · exact hs0'
  try clear_value x3
  refine ResUpd.next ?_
  refine Upd.ite ?_ ?_
  · refine foldl_upd ?_ fun x6 y h5 => ?_
    · refine windowClose_upd ?_ (sub_of rfl hk) (sub_of rfl hr)
      · refine Upd.msgs ?_ (testBit_of_sub hk rfl)
        exact hx4
    · beta_reduce
      refine takeMsg_upd ?_ (sub_of rfl hk) (sub_of rfl hr) hc
      · exact h5
  · exact hx4

theorem execFaultWindowClose_upd {t : Nat} {s0' : State} (hs0' : Upd K R C s0 s0') (hk : 0x400000000001 ||| K = K) (hr : 0x200000000000000 ||| R = R) :
    ResUpd K R C s0 (execFaultWindowClose t s0') := by
  unfold execFaultWindowClose
  extract_lets -merge +onlyGivenNames x3
  have hx4 : Upd K R C s0 x3 := by
    unfold x3
    refine State.at_upd ?_ (sub_of rfl hk)
    · exact hs0'
  try clear_value x3
  refine ResUpd.next ?_
  refine windowClose_upd ?_ (sub_of rfl hk) (sub_of rfl hr)
  · exact hx4

theorem execFaultRecover_upd {t : Nat} {k : Source} {s0' : State} (hs0' : Upd K R C s0 s0') (hk : 0x800000000001 ||| K = K) (hr : 0x281200000000000000 ||| R = R) :
    ResUpd K R C s0 (execFaultRecover t k s0') := by
  unfold execFaultRecover
  extract_lets -merge +onlyGivenNames x4
  have hx5 : Upd K R C s0 x4 := by
    unfold x4
    refine State.at_upd ?_ (sub_of rfl hk)
    · exact hs0'
  try clear_value x4
  refine ResUpd.next ?_
  refine Upd.ite ?_ ?_
  · extract_lets -merge +onlyGivenNames x6
    extract_lets -merge +onlyGivenNames x8
    have hx9 : Upd K R C s0 x8 := by
      unfold x8
      refine State.setRf_upd ?_ (testBit_of_sub hr rfl) (RegOk.glob rfl)
      refine State.setRb_upd ?_ (testBit_of_sub hr rfl) (RegOk.glob rfl)
      exact hx5
    try clear_value x8
    refine noteErr_upd ?_ (sub_of rfl hr)
    · refine State.setRb_upd ?_ (testBit_of_sub hr rfl) (RegOk.glob rfl)
      refine State.setFlt_upd ?_ (sub_of rfl hk)
      · exact hx9
  · exact hx5

theorem execBezel_upd {t : Nat} {n : Cluster} {s0' : State} (hs0' : Upd K R C s0 s0') (hk : 0x200000000000001 ||| K = K) :
    ResUpd K R C s0 (execBezel t n s0') := by
  unfold execBezel
  extract_lets -merge +onlyGivenNames x4
  have hx5 : Upd K R C s0 x4 := by
    unfold x4
    refine State.at_upd ?_ (sub_of rfl hk)
    · exact hs0'
  try clear_value x4
  refine ResUpd.next ?_
  refine State.send_upd ?_ (sub_of rfl hk)
  · exact hx5

theorem execAssayRunStart_upd {t : Nat} {n : Cluster} {s0' : State} (hs0' : Upd K R C s0 s0') (hk : 0x401000020000041 ||| K = K) (hr : 0x3fff9c0000000000000000002024040000000c0000000000000000000000000000000000080000000000c000000000000000000 ||| R = R) (hc : ∀ c, C n.val c) :
    ResUpd K R C s0 (execAssayRunStart t n s0') := by
  unfold execAssayRunStart
  extract_lets -merge +onlyGivenNames x4
  have hx5 : Upd K R C s0 x4 := by
    unfold x4
    refine State.at_upd ?_ (sub_of rfl hk)
    · exact hs0'
  try clear_value x4
  refine ResUpd.next ?_
  refine Upd.ite ?_ ?_
  · refine asyStart_upd ?_ (sub_of rfl hk) (sub_of rfl hr) hc
    · exact hx5
  · exact hx5

theorem execAssayOutcome_upd {t : Nat} {n : Cluster} {failCluster : Bool} {failCh : Word} {s0' : State} (hs0' : Upd K R C s0 s0') (hk : 0x623040020006341 ||| K = K) (hr : 0xa3f3fff9c1200021e000000000020240c0000904c00002d0fd00000000000000000000000000800050000075031200000000000000 ||| R = R) (hc : ∀ c, C n.val c) :
    ResUpd K R C s0 (execAssayOutcome t n failCluster failCh s0') := by
  unfold execAssayOutcome
  extract_lets -merge +onlyGivenNames x6
  have hx7 : Upd K R C s0 x6 := by
    unfold x6
    refine State.at_upd ?_ (sub_of rfl hk)
    · exact hs0'
  try clear_value x6
  refine ResUpd.next ?_
  split
  · refine Upd.ite ?_ ?_
    · refine asyOutcome_upd ?_ (sub_of rfl hk) (sub_of rfl hr) hc
      · exact hx7
    · exact hx7
  · exact hx7

theorem execLifeRecordWrite_upd {t : Nat} {obs : LifeObs} {s0' : State} (hs0' : Upd K R C s0 s0') (hk : 0x21e000000000003 ||| K = K) (hr : 0x7c0000000000000000000000401000001a800000000000000000000 ||| R = R) :
    ResUpd K R C s0 (execLifeRecordWrite t obs s0') := by
  unfold execLifeRecordWrite
  extract_lets -merge +onlyGivenNames x4
  have hx5 : Upd K R C s0 x4 := by
    unfold x4
    refine State.at_upd ?_ (sub_of rfl hk)
    · exact hs0'
  try clear_value x4
  extract_lets -merge +onlyGivenNames x6
  refine ResUpd.next ?_
  refine Upd.ite ?_ ?_
  · refine Upd.ite ?_ ?_
    · exact hx5
    · refine State.setRb_upd ?_ (testBit_of_sub hr rfl) (RegOk.glob rfl)
      refine State.setRb_upd ?_ (testBit_of_sub hr rfl) (RegOk.glob rfl)
      refine Upd.ite ?_ ?_
      · refine lifeWrite_upd ?_ (sub_of rfl hk) (sub_of rfl hr)
        · exact hx5
      · exact hx5
  · refine Upd.ite ?_ ?_
    · refine lifeWrite_upd ?_ (sub_of rfl hk) (sub_of rfl hr)
      · exact hx5
    · exact hx5

theorem execPowerOnMinute_upd {t : Nat} {s0' : State} (hs0' : Upd K R C s0 s0') (hk : 0x12000000000001 ||| K = K) :
    ResUpd K R C s0 (execPowerOnMinute t s0') := by
  unfold execPowerOnMinute
  extract_lets -merge +onlyGivenNames x3
  have hx4 : Upd K R C s0 x3 := by
    unfold x3
    refine State.at_upd ?_ (sub_of rfl hk)
    · exact hs0'
  try clear_value x3
  extract_lets -merge +onlyGivenNames x5
  have hx6 : Upd K R C s0 x5 := by
    unfold x5
    refine lifeCount_upd ?_ (sub_of rfl hk)
    · exact hx4
  try clear_value x5
  extract_lets -merge +onlyGivenNames x7
  have hx8 : Upd K R C s0 x7 := by
    unfold x7
    refine Upd.lifeMin ?_ (testBit_of_sub hk rfl)
    exact hx6
  try clear_value x7
  refine ResUpd.next ?_
  split
  · refine lifeCount_upd ?_ (sub_of rfl hk)
    · exact hx8
  · exact hx8

theorem execClusterResetEnd_upd {t : Nat} {n : Cluster} {s0' : State} (hs0' : Upd K R C s0 s0') (hk : 0x81 ||| K = K) (hr : 0x80000000000000000000000000000000000000000000000000000000000000000000100 ||| R = R) (hc : ∃ c, C n.val c) :
    ResUpd K R C s0 (execClusterResetEnd t n s0') := by
  unfold execClusterResetEnd
  extract_lets -merge +onlyGivenNames x4
  have hx5 : Upd K R C s0 x4 := by
    unfold x4
    refine State.at_upd ?_ (sub_of rfl hk)
    · exact hs0'
  try clear_value x4
  refine ResUpd.next ?_
  refine Upd.ite ?_ ?_
  · refine clusterBack_upd ?_ (sub_of rfl hk) (sub_of rfl hr) hc
    · exact hx5
  · exact hx5

theorem descError_upd {n : Cluster} {s : State} (hs : Upd K R C s0 s) (hk : 0x200 ||| K = K) (hr : 0x2002000000000000000000000000000000000000000000000000000000000000 ||| R = R) (hc : ∃ c, C n.val c) :
    Upd K R C s0 (descError n s) := by
  unfold descError
  refine State.setRb_upd ?_ (testBit_of_sub hr rfl) (RegOk.one rfl hc)
  refine State.setRb_upd ?_ (testBit_of_sub hr rfl) (RegOk.one rfl hc)
  refine State.setHop_upd ?_ (sub_of rfl hk) hc
  · exact hs

theorem hopSettle_upd {n : Cluster} {s : State} (hs : Upd K R C s0 s) (hk : 0x200 ||| K = K) (hc : ∃ c, C n.val c) :
    Upd K R C s0 (hopSettle n s) := by
  unfold hopSettle
  extract_lets -merge +onlyGivenNames x3
  extract_lets -merge +onlyGivenNames x5
  refine State.setHop_upd ?_ (sub_of rfl hk) hc
  · exact hs

theorem loadDone_upd {n : Cluster} {s : State} (hs : Upd K R C s0 s) (hk : 0x200 ||| K = K) (hr : 0xa0000000000000000000000000000000000000000000000000000000000000 ||| R = R) (hc : ∃ c, C n.val c) :
    Upd K R C s0 (loadDone n s) := by
  unfold loadDone
  extract_lets -merge +onlyGivenNames x3
  split
  · exact hs
  · extract_lets -merge +onlyGivenNames x5
    extract_lets -merge +onlyGivenNames x7
    extract_lets -merge +onlyGivenNames x9
    have hx10 : Upd K R C s0 x9 := by
      unfold x9
      refine State.setRf_upd ?_ (testBit_of_sub hr rfl) (RegOk.one rfl hc)
      refine State.setHop_upd ?_ (sub_of rfl hk) hc
      · exact hs
    try clear_value x9
    refine hopSettle_upd ?_ (sub_of rfl hk) hc
    · refine Upd.ite ?_ ?_
      · refine State.setRb_upd ?_ (testBit_of_sub hr rfl) (RegOk.one rfl hc)
        exact hx10
      · exact hx10

theorem takeDesc_upd {n : Cluster} {bytes : List Byte} {s : State} (hs : Upd K R C s0 s) (hk : 0x200 ||| K = K) (hr : 0x20a2000000000000000000000000000000000000000000000000000000000000 ||| R = R) (hc : ∃ c, C n.val c) :
    Upd K R C s0 (takeDesc n bytes s) := by
  unfold takeDesc
  extract_lets -merge +onlyGivenNames x4
  extract_lets -merge +onlyGivenNames x6
  refine Upd.ite ?_ ?_
  · refine descError_upd ?_ (sub_of rfl hk) (sub_of rfl hr) hc
    · exact hs
  · extract_lets -merge +onlyGivenNames x8
    have hx9 : Upd K R C s0 x8 := by
      unfold x8
      refine State.setHop_upd ?_ (sub_of rfl hk) hc
      · exact hs
    try clear_value x8
    refine Upd.ite ?_ ?_
    · refine loadDone_upd ?_ (sub_of rfl hk) (sub_of rfl hr) hc
      · refine State.setHop_upd ?_ (sub_of rfl hk) hc
        · exact hx9
    · exact hx9

theorem execHopperDescriptor_upd {t : Nat} {n : Cluster} {s0' : State} (hs0' : Upd K R C s0 s0') (hk : 0x200000000000201 ||| K = K) (hr : 0x20a200000000000000000000000000000000000001a800000000000000000000 ||| R = R) (hc : ∃ c, C n.val c) :
    ResUpd K R C s0 (execHopperDescriptor t n s0') := by
  unfold execHopperDescriptor
  extract_lets -merge +onlyGivenNames x4
  have hx5 : Upd K R C s0 x4 := by
    unfold x4
    refine State.at_upd ?_ (sub_of rfl hk)
    · exact hs0'
  try clear_value x4
  refine ResUpd.next ?_
  refine Upd.ite ?_ ?_
  · extract_lets -merge +onlyGivenNames x6
    have hx7 : Upd K R C s0 x6 := by
      unfold x6
      refine hopSettle_upd ?_ (sub_of rfl hk) hc
      · exact hx5
    try clear_value x6
    extract_lets -merge +onlyGivenNames x8
    extract_lets -merge +onlyGivenNames x10
    extract_lets -merge +onlyGivenNames x12
    refine Upd.ite ?_ ?_
    · exact hx7
    · refine Upd.ite ?_ ?_
      · refine Upd.ite ?_ ?_
        · refine State.setRb_upd ?_ (testBit_of_sub hr rfl) (RegOk.one rfl hc)
          exact hx7
        · exact hx7
      · refine Upd.ite ?_ ?_
        · refine descError_upd ?_ (sub_of rfl hk) (sub_of rfl hr) hc
          · exact hx7
        · extract_lets -merge +onlyGivenNames x14
          refine Upd.ite ?_ ?_
          · exact hx7
          · refine Upd.ite ?_ ?_
            · refine takeDesc_upd ?_ (sub_of rfl hk) (sub_of rfl hr) hc
              · exact hx7
            · refine descError_upd ?_ (sub_of rfl hk) (sub_of rfl hr) hc
              · refine noteRefusals_upd ?_ (sub_of rfl hk) (sub_of rfl hr)
                · exact hx7
  · exact hx5

theorem fillMicro_upd {n : Cluster} {nostall : Bool} {a at_ k : Nat} {s : State} (hs : Upd K R C s0 s)
    (hk : 0x4 ||| K = K) (hc : ∃ c, C n.val c) : Upd K R C s0 (fillMicro n nostall a at_ k s) := by
  induction k generalizing a at_ s with
  | zero => exact hs
  | succ k ih => exact ih (State.setMicroAt_upd hs (sub_of rfl hk) hc)

theorem fillNano_upd {n : Cluster} {i : Nat} {a : Nat} {s : State} (hs : Upd K R C s0 s) (hk : 0x8 ||| K = K) (hc : ∃ c, C n.val c) :
    Upd K R C s0 (fillNano n i a s) := by
  unfold fillNano
  refine State.setNanoAt_upd ?_ (sub_of rfl hk) hc
  · exact hs

theorem execHopperChunk_upd {t : Nat} {n : Cluster} {s0' : State} (hs0' : Upd K R C s0 s0') (hk : 0x20000000000020d ||| K = K) (hr : 0x20a200000000000000000000000000000000000001a800000000000000000000 ||| R = R) (hc : ∃ c, C n.val c) :
    ResUpd K R C s0 (execHopperChunk t n s0') := by
  unfold execHopperChunk
  extract_lets -merge +onlyGivenNames x4
  have hx5 : Upd K R C s0 x4 := by
    unfold x4
    refine State.at_upd ?_ (sub_of rfl hk)
    · exact hs0'
  try clear_value x4
  extract_lets -merge +onlyGivenNames x6
  refine ResUpd.next ?_
  split
  · exact hx5
  · refine Upd.ite ?_ ?_
    · exact hx5
    · extract_lets -merge +onlyGivenNames x8
      extract_lets -merge +onlyGivenNames x10
      extract_lets -merge +onlyGivenNames x12
      extract_lets -merge +onlyGivenNames x14
      extract_lets -merge +onlyGivenNames x16
      refine Upd.ite ?_ ?_
      · exact hx5
      · refine Upd.ite ?_ ?_
        · refine descError_upd ?_ (sub_of rfl hk) (sub_of rfl hr) hc
          · refine noteRefusals_upd ?_ (sub_of rfl hk) (sub_of rfl hr)
            · exact hx5
        · extract_lets -merge +onlyGivenNames x18
          extract_lets -merge +onlyGivenNames x20
          extract_lets -merge +onlyGivenNames x22
          extract_lets -merge +onlyGivenNames x24
          have hx25 : Upd K R C s0 x24 := by
            unfold x24
            refine Upd.ite ?_ ?_
            · refine fillNano_upd ?_ (sub_of rfl hk) hc
              · exact hx5
            · refine fillMicro_upd ?_ (sub_of rfl hk) hc
              · exact hx5
          try clear_value x24
          extract_lets -merge +onlyGivenNames x26
          extract_lets -merge +onlyGivenNames x28
          extract_lets -merge +onlyGivenNames x30
          have hx31 : Upd K R C s0 x30 := by
            unfold x30
            refine State.setHop_upd ?_ (sub_of rfl hk) hc
            · exact hx25
          try clear_value x30
          refine Upd.ite ?_ ?_
          · refine loadDone_upd ?_ (sub_of rfl hk) (sub_of rfl hr) hc
            · exact hx31
          · exact hx31

theorem dmaDone_upd {h' : Dom} {k : Fin 2} {code : Nat} {irq : Option Nat} {s : State} (hs : Upd K R C s0 s) (hk : 0x800000100000000 ||| K = K) (hr : 0x8201000000 ||| R = R) :
    Upd K R C s0 (dmaDone h' k code irq s) := by
  unfold dmaDone
  extract_lets -merge +onlyGivenNames x6
  have hx7 : Upd K R C s0 x6 := by
    unfold x6
    refine dmaStatus_upd ?_ (sub_of rfl hk)
    · exact hs
  try clear_value x6
  extract_lets -merge +onlyGivenNames x8
  have hx9 : Upd K R C s0 x8 := by
    unfold x8
    refine State.setRb_upd ?_ (testBit_of_sub hr rfl) (RegOk.glob rfl)
    refine State.setRf_upd ?_ (testBit_of_sub hr (by unfold dmaHead; split <;> rfl)) (RegOk.glob (by unfold dmaHead; split <;> rfl))
    exact hx7
  try clear_value x8
  split
  · refine msixSend_upd ?_ (sub_of rfl hk)
    · exact hx9
  · exact hx9

theorem dmaIn_upd {h' : Dom} {k : Fin 2} {op : Option Bool} {mp : Nat} {len : Nat} {irq : Option Nat} {data : List Byte} {s : State} (hs : Upd K R C s0 s) (hk : 0xa00000100000002 ||| K = K) (hr : 0x1a800000000008611000000 ||| R = R) :
    Upd K R C s0 (dmaIn h' k op mp len irq data s) := by
  unfold dmaIn
  extract_lets -merge +onlyGivenNames x9
  extract_lets -merge +onlyGivenNames x11
  extract_lets -merge +onlyGivenNames x13
  have hx14 : Upd K R C s0 x13 := by
    unfold x13
    refine memWrite_upd ?_ (sub_of rfl hk) (sub_of rfl hr)
    · exact hs
  try clear_value x13
  refine Upd.ite ?_ ?_
  · refine dmaStop_upd ?_ (sub_of rfl hr)
    · refine dmaStatus_upd ?_ (sub_of rfl hk)
      · exact hx14
  · refine dmaDone_upd ?_ (sub_of rfl hk) (sub_of rfl hr)
    · exact hx14

theorem dmaOut_upd {h' : Dom} {k : Fin 2} {host : Nat} {mp : Nat} {len : Nat} {irq : Option Nat} {s : State} (hs : Upd K R C s0 s) (hk : 0xa00000100000000 ||| K = K) (hr : 0x1a800000000008201000000 ||| R = R) :
    Upd K R C s0 (dmaOut h' k host mp len irq s) := by
  unfold dmaOut
  extract_lets -merge +onlyGivenNames x8
  extract_lets -merge +onlyGivenNames x10
  have hx11 : SndUpd K R C s0 x10 := by
    unfold x10
    refine memRead_upd ?_ (sub_of rfl hk) (sub_of rfl hr)
    · exact hs
  try clear_value x10
  refine dmaDone_upd ?_ (sub_of rfl hk) (sub_of rfl hr)
  · refine State.emit_upd ?_ (sub_of rfl hk)
    · refine SndUpd.out ?_
      exact hx11

theorem dmaRun_upd {h' : Dom} {k : Fin 2} {d : List Byte} {data : List Byte} {s : State} (hs : Upd K R C s0 s) (hk : 0xa00000100000002 ||| K = K) (hr : 0x1a800000000008611000000 ||| R = R) :
    Upd K R C s0 (dmaRun h' k d data s) := by
  unfold dmaRun
  refine Upd.ite ?_ ?_
  · refine dmaStop_upd ?_ (sub_of rfl hr)
    · refine dmaStatus_upd ?_ (sub_of rfl hk)
      · exact hs
  · extract_lets -merge +onlyGivenNames x6
    extract_lets -merge +onlyGivenNames x8
    extract_lets -merge +onlyGivenNames x10
    extract_lets -merge +onlyGivenNames x12
    extract_lets -merge +onlyGivenNames x14
    refine Upd.ite ?_ ?_
    · exact hs
    · refine Upd.ite ?_ ?_
      · refine dmaOut_upd ?_ (sub_of rfl hk) (sub_of rfl hr)
        · exact hs
      · refine dmaIn_upd ?_ (sub_of rfl hk) (sub_of rfl hr)
        · exact hs

theorem execDmaDescriptor_upd {t : Nat} {h' : Dom} {k : Fin 2} {host : List Byte} {s0' : State} (hs0' : Upd K R C s0 s0') (hk : 0xa00000100000003 ||| K = K) (hr : 0x1a800000000008611000000 ||| R = R) :
    ResUpd K R C s0 (execDmaDescriptor t h' k host s0') := by
  unfold execDmaDescriptor
  extract_lets -merge +onlyGivenNames x6
  have hx7 : Upd K R C s0 x6 := by
    unfold x6
    refine State.at_upd ?_ (sub_of rfl hk)
    · exact hs0'
  try clear_value x6
  refine ResUpd.next ?_
  refine Upd.ite ?_ ?_
  · refine Upd.ite ?_ ?_
    · refine dmaStop_upd ?_ (sub_of rfl hr)
      · refine dmaStatus_upd ?_ (sub_of rfl hk)
        · exact hx7
    · refine dmaRun_upd ?_ (sub_of rfl hk) (sub_of rfl hr)
      · exact hx7
  · exact hx7

theorem execDmaHostTimeout_upd {t : Nat} {h' : Dom} {k : Fin 2} {s0' : State} (hs0' : Upd K R C s0 s0') (hk : 0x800000000000001 ||| K = K) (hr : 0x411000000 ||| R = R) :
    ResUpd K R C s0 (execDmaHostTimeout t h' k s0') := by
  unfold execDmaHostTimeout
  extract_lets -merge +onlyGivenNames x5
  have hx6 : Upd K R C s0 x5 := by
    unfold x5
    refine State.at_upd ?_ (sub_of rfl hk)
    · exact hs0'
  try clear_value x5
  refine ResUpd.next ?_
  refine Upd.ite ?_ ?_
  · refine dmaStop_upd ?_ (sub_of rfl hr)
    · refine dmaStatus_upd ?_ (sub_of rfl hk)
      · exact hx6
  · exact hx6

theorem execDomainReset_upd {t : Nat} {h' : Dom} {_cause : DomCause} {s0' : State} (hs0' : Upd K R C s0 s0') (hk : 0x1e3000001 ||| K = K) (hr : 0xffffffffffffffffffffffffffffffffffffffffffffffffffffffffffffffffffffffffffffffffffffffffffffffffffffffffffffffffffffffffffffffff ||| R = R) :
    ResUpd K R C s0 (execDomainReset t h' _cause s0') := by
  unfold execDomainReset
  refine ResUpd.next ?_
  refine domainReset_upd ?_ (sub_of rfl hk) (sub_of rfl hr)
  · refine State.at_upd ?_ (sub_of rfl hk)
    · exact hs0'

theorem execD3hotEntry_upd {t : Nat} {h' : Dom} {s0' : State} (hs0' : Upd K R C s0 s0') (hk : 0x3000001 ||| K = K) (hr : 0x1000000000000000411400000 ||| R = R) :
    ResUpd K R C s0 (execD3hotEntry t h' s0') := by
  unfold execD3hotEntry
  extract_lets -merge +onlyGivenNames x4
  have hx5 : Upd K R C s0 x4 := by
    unfold x4
    refine State.at_upd ?_ (sub_of rfl hk)
    · exact hs0'
  try clear_value x4
  refine ResUpd.next ?_
  refine Upd.ite ?_ ?_
  · refine domainSleep_upd ?_ (sub_of rfl hk) (sub_of rfl hr)
    · exact hx5
  · exact hx5

theorem execD3hotExit_upd {t : Nat} {h' : Dom} {s0' : State} (hs0' : Upd K R C s0 s0') (hk : 0x80000000000001 ||| K = K) (hr : 0x4010000000100000000000001400000 ||| R = R) :
    ResUpd K R C s0 (execD3hotExit t h' s0') := by
  unfold execD3hotExit
  extract_lets -merge +onlyGivenNames x4
  have hx5 : Upd K R C s0 x4 := by
    unfold x4
    refine State.at_upd ?_ (sub_of rfl hk)
    · exact hs0'
  try clear_value x4
  refine ResUpd.next ?_
  refine Upd.ite ?_ ?_
  · refine hostWakes_upd ?_ (sub_of rfl hk) (sub_of rfl hr)
    · refine State.setRb_upd ?_ (testBit_of_sub hr rfl) (RegOk.glob rfl)
      refine State.setRf_upd ?_ (testBit_of_sub hr rfl) (RegOk.glob rfl)
      exact hx5
  · exact hx5

theorem payVector_upd {h' : Nat} {s : State} (hs : Upd K R C s0 s) (hk : 0x900000100000000 ||| K = K) :
    Upd K R C s0 (payVector h' s) := by
  unfold payVector
  refine Upd.ite ?_ ?_
  · refine msixSend_upd ?_ (sub_of rfl hk)
    · refine Upd.owed ?_ (testBit_of_sub hk rfl)
      exact hs
  · exact hs

theorem execLinkUp_upd {t : Nat} {h' : Dom} {rate : Nat} {width : Nat} {s0' : State} (hs0' : Upd K R C s0 s0') (hk : 0x900000100000001 ||| K = K) (hr : 0x1400000 ||| R = R) :
    ResUpd K R C s0 (execLinkUp t h' rate width s0') := by
  unfold execLinkUp
  extract_lets -merge +onlyGivenNames x6
  have hx7 : Upd K R C s0 x6 := by
    unfold x6
    refine State.at_upd ?_ (sub_of rfl hk)
    · exact hs0'
  try clear_value x6
  refine ResUpd.next ?_
  refine Upd.ite ?_ ?_
  · refine payVector_upd ?_ (sub_of rfl hk)
    · refine State.setRb_upd ?_ (testBit_of_sub hr rfl) (RegOk.glob rfl)
      refine State.setReg_upd ?_ (testBit_of_sub hr rfl) (RegOk.glob rfl)
      exact hx7
  · exact hx7

theorem execPmRangeSettled_upd {t : Nat} {n : Cluster} {c : Channel} {s0' : State} (hs0' : Upd K R C s0 s0') (hk : 0x41 ||| K = K) (hr : 0x2000000000000000000000000000000000000000000000000000000000000000000000000000000 ||| R = R) (hc : C n.val c.val) :
    ResUpd K R C s0 (execPmRangeSettled t n c s0') := by
  unfold execPmRangeSettled
  extract_lets -merge +onlyGivenNames x5
  have hx6 : Upd K R C s0 x5 := by
    unfold x5
    refine State.at_upd ?_ (sub_of rfl hk)
    · exact hs0'
  try clear_value x5
  refine ResUpd.next ?_
  refine Upd.ite ?_ ?_
  · refine State.modChan_upd ?_ (sub_of rfl hk) hc
    · refine State.setRb_upd ?_ (testBit_of_sub hr rfl) (RegOk.chan rfl hc)
      exact hx6
  · exact hx6

theorem measTake_upd {n : Cluster} {c : Channel} {y : ℤ} {s : State} (hs : Upd K R C s0 s) (hk : 0x40 ||| K = K) (hc : C n.val c.val) :
    Upd K R C s0 (measTake n c y s) := by
  unfold measTake
  split
  · exact hs
  · refine Upd.ite ?_ ?_
    · refine State.modChan_upd ?_ (sub_of rfl hk) hc
      · exact hs
    · extract_lets -merge +onlyGivenNames x5
      extract_lets -merge +onlyGivenNames x7
      extract_lets -merge +onlyGivenNames x9
      refine Upd.ite ?_ ?_
      · refine State.modChan_upd ?_ (sub_of rfl hk) hc
        · exact hs
      · extract_lets -merge +onlyGivenNames x11
        refine State.modChan_upd ?_ (sub_of rfl hk) hc
        · exact hs

theorem execPmConversionDone_upd {t : Nat} {n : Cluster} {c : Channel} {mean : ℤ} {s0' : State} (hs0' : Upd K R C s0 s0') (hk : 0x400000000003041 ||| K = K) (hr : 0x5800000000020000000000000000000000000000000000000000000000000000000000000000000000000000000 ||| R = R) (hc : C n.val c.val) :
    ResUpd K R C s0 (execPmConversionDone t n c mean s0') := by
  unfold execPmConversionDone
  extract_lets -merge +onlyGivenNames x6
  have hx7 : Upd K R C s0 x6 := by
    unfold x6
    refine State.at_upd ?_ (sub_of rfl hk)
    · exact hs0'
  try clear_value x6
  extract_lets -merge +onlyGivenNames x8
  extract_lets -merge +onlyGivenNames x10
  refine ResUpd.next ?_
  refine Upd.ite ?_ ?_
  · extract_lets -merge +onlyGivenNames x12
    extract_lets -merge +onlyGivenNames x14
    have hx15 : Upd K R C s0 x14 := by
      unfold x14
      refine State.setReg_upd ?_ (testBit_of_sub hr rfl) (RegOk.chan rfl hc)
      refine State.modChan_upd ?_ (sub_of rfl hk) hc
      · refine Upd.free ?_ (testBit_of_sub hk rfl)
        exact hx7
    try clear_value x14
    extract_lets -merge +onlyGivenNames x16
    have hx17 : Upd K R C s0 x16 := by
      unfold x16
      refine State.trigEvent_upd ?_ (sub_of rfl hk) ⟨_, hc⟩
      · refine cptSample_upd ?_ (sub_of rfl hk) (sub_of rfl hr) ⟨_, hc⟩
        · refine cptSample_upd ?_ (sub_of rfl hk) (sub_of rfl hr) ⟨_, hc⟩
          · exact hx15
    try clear_value x16
    refine measTake_upd ?_ (sub_of rfl hk) hc
    · exact hx17
  · exact hx7

theorem execPmMeasDone_upd {t : Nat} {n : Cluster} {c : Channel} {s0' : State} (hs0' : Upd K R C s0 s0') (hk : 0x141 ||| K = K) (hr : 0x1e004000000000000000000000000000000000000000000000000000000000000000000000000000 ||| R = R) (hc : C n.val c.val) :
    ResUpd K R C s0 (execPmMeasDone t n c s0') := by
  unfold execPmMeasDone
  extract_lets -merge +onlyGivenNames x5
  have hx6 : Upd K R C s0 x5 := by
    unfold x5
    refine State.at_upd ?_ (sub_of rfl hk)
    · exact hs0'
  try clear_value x5
  refine ResUpd.next ?_
  split
  · refine writeMeas_upd ?_ (sub_of rfl hk) (sub_of rfl hr) hc
    · exact hx6
  · exact hx6

theorem execPmMeasEndEarly_upd {t : Nat} {n : Cluster} {c : Channel} {s0' : State} (hs0' : Upd K R C s0 s0') (hk : 0x141 ||| K = K) (hr : 0x1e004000000000000000000000000000000000000000000000000000000000000000000000000000 ||| R = R) (hc : C n.val c.val) :
    ResUpd K R C s0 (execPmMeasEndEarly t n c s0') := by
  unfold execPmMeasEndEarly
  extract_lets -merge +onlyGivenNames x5
  have hx6 : Upd K R C s0 x5 := by
    unfold x5
    refine State.at_upd ?_ (sub_of rfl hk)
    · exact hs0'
  try clear_value x5
  refine ResUpd.next ?_
  split
  · refine writeMeas_upd ?_ (sub_of rfl hk) (sub_of rfl hr) hc
    · exact hx6
  · exact hx6

theorem execPmClampBegin_upd {t : Nat} {n : Cluster} {c : Channel} {volt : Bool} {s0' : State} (hs0' : Upd K R C s0 s0') (hk : 0x41 ||| K = K) (hr : 0x2004000000000000000000000000000000000000000000000000000000000000000000000000000 ||| R = R) (hc : C n.val c.val) :
    ResUpd K R C s0 (execPmClampBegin t n c volt s0') := by
  unfold execPmClampBegin
  extract_lets -merge +onlyGivenNames x6
  have hx7 : Upd K R C s0 x6 := by
    unfold x6
    refine State.at_upd ?_ (sub_of rfl hk)
    · exact hs0'
  try clear_value x6
  extract_lets -merge +onlyGivenNames x8
  refine ResUpd.next ?_
  refine Upd.ite ?_ ?_
  · refine State.setRb_upd ?_ (testBit_of_sub hr rfl) (RegOk.chan rfl hc)
    refine State.setRb_upd ?_ (testBit_of_sub hr rfl) (RegOk.chan rfl hc)
    refine State.modChan_upd ?_ (sub_of rfl hk) hc
    · exact hx7
  · exact hx7

theorem execPmOc_upd {t : Nat} {n : Cluster} {c : Channel} {s0' : State} (hs0' : Upd K R C s0 s0') (hk : 0x602000000000041 ||| K = K) (hr : 0x3fff9c0000000000000000102024040000000c00000000000000000000000000000000000000000000000000000000000000000 ||| R = R) (hc : C n.val c.val) :
    ResUpd K R C s0 (execPmOc t n c s0') := by
  unfold execPmOc
  extract_lets -merge +onlyGivenNames x5
  have hx6 : Upd K R C s0 x5 := by
    unfold x5
    refine State.at_upd ?_ (sub_of rfl hk)
    · exact hs0'
  try clear_value x5
  extract_lets -merge +onlyGivenNames x7
  refine ResUpd.next ?_
  refine Upd.ite ?_ ?_
  · refine lifeCount_upd ?_ (sub_of rfl hk)
    · refine State.send_upd ?_ (sub_of rfl hk)
      · refine State.count_upd ?_ (testBit_of_sub hr rfl) (RegOk.chan rfl hc)
        refine State.setRb_upd ?_ (testBit_of_sub hr rfl) (RegOk.chan rfl hc)
        refine forcedSafe_upd ?_ (sub_of rfl hk) (sub_of rfl hr) hc
        · exact hx6
  · exact hx6

theorem execVec_upd {t : Nat} {n : Cluster} {s0' : State} (hs0' : Upd K R C s0 s0') (hk : 0x301 ||| K = K) (hr : 0x800000000000100000000000000000000000000000000000000000000000000000000 ||| R = R) (hc : ∃ c, C n.val c) :
    ResUpd K R C s0 (execVec t n s0') := by
  unfold execVec
  refine ResUpd.next ?_
  refine feExec_upd ?_ (sub_of rfl hk) (sub_of rfl hr) hc
  · refine State.at_upd ?_ (sub_of rfl hk)
    · exact hs0'

theorem execMvec_upd {t : Nat} {n : Cluster} {s0' : State} (hs0' : Upd K R C s0 s0') (hk : 0x301 ||| K = K) (hr : 0x800000000000100000000000000000000000000000000000000000000000000000000 ||| R = R) (hc : ∃ c, C n.val c) :
    ResUpd K R C s0 (execMvec t n s0') := by
  unfold execMvec
  refine ResUpd.next ?_
  refine feExec_upd ?_ (sub_of rfl hk) (sub_of rfl hr) hc
  · refine State.at_upd ?_ (sub_of rfl hk)
    · exact hs0'

theorem execHset_upd {t : Nat} {n : Cluster} {s0' : State} (hs0' : Upd K R C s0 s0') (hk : 0x301 ||| K = K) (hr : 0x800000000000100000000000000000000000000000000000000000000000000000000 ||| R = R) (hc : ∃ c, C n.val c) :
    ResUpd K R C s0 (execHset t n s0') := by
  unfold execHset
  refine ResUpd.next ?_
  refine feExec_upd ?_ (sub_of rfl hk) (sub_of rfl hr) hc
  · refine State.at_upd ?_ (sub_of rfl hk)
    · exact hs0'

theorem execJmp_upd {t : Nat} {n : Cluster} {s0' : State} (hs0' : Upd K R C s0 s0') (hk : 0x301 ||| K = K) (hr : 0x800000000000100000000000000000000000000000000000000000000000000000000 ||| R = R) (hc : ∃ c, C n.val c) :
    ResUpd K R C s0 (execJmp t n s0') := by
  unfold execJmp
  refine ResUpd.next ?_
  refine feExec_upd ?_ (sub_of rfl hk) (sub_of rfl hr) hc
  · refine State.at_upd ?_ (sub_of rfl hk)
    · exact hs0'

theorem execCall_upd {t : Nat} {n : Cluster} {s0' : State} (hs0' : Upd K R C s0 s0') (hk : 0x301 ||| K = K) (hr : 0x800000000000100000000000000000000000000000000000000000000000000000000 ||| R = R) (hc : ∃ c, C n.val c) :
    ResUpd K R C s0 (execCall t n s0') := by
  unfold execCall
  refine ResUpd.next ?_
  refine feExec_upd ?_ (sub_of rfl hk) (sub_of rfl hr) hc
  · refine State.at_upd ?_ (sub_of rfl hk)
    · exact hs0'

theorem execRet_upd {t : Nat} {n : Cluster} {s0' : State} (hs0' : Upd K R C s0 s0') (hk : 0x301 ||| K = K) (hr : 0x800000000000100000000000000000000000000000000000000000000000000000000 ||| R = R) (hc : ∃ c, C n.val c) :
    ResUpd K R C s0 (execRet t n s0') := by
  unfold execRet
  refine ResUpd.next ?_
  refine feExec_upd ?_ (sub_of rfl hk) (sub_of rfl hr) hc
  · refine State.at_upd ?_ (sub_of rfl hk)
    · exact hs0'

theorem execLdc_upd {t : Nat} {n : Cluster} {s0' : State} (hs0' : Upd K R C s0 s0') (hk : 0x301 ||| K = K) (hr : 0x800000000000100000000000000000000000000000000000000000000000000000000 ||| R = R) (hc : ∃ c, C n.val c) :
    ResUpd K R C s0 (execLdc t n s0') := by
  unfold execLdc
  refine ResUpd.next ?_
  refine feExec_upd ?_ (sub_of rfl hk) (sub_of rfl hr) hc
  · refine State.at_upd ?_ (sub_of rfl hk)
    · exact hs0'

theorem execLoop_upd {t : Nat} {n : Cluster} {s0' : State} (hs0' : Upd K R C s0 s0') (hk : 0x301 ||| K = K) (hr : 0x800000000000100000000000000000000000000000000000000000000000000000000 ||| R = R) (hc : ∃ c, C n.val c) :
    ResUpd K R C s0 (execLoop t n s0') := by
  unfold execLoop
  refine ResUpd.next ?_
  refine feExec_upd ?_ (sub_of rfl hk) (sub_of rfl hr) hc
  · refine State.at_upd ?_ (sub_of rfl hk)
    · exact hs0'

theorem execClrf_upd {t : Nat} {n : Cluster} {s0' : State} (hs0' : Upd K R C s0 s0') (hk : 0x301 ||| K = K) (hr : 0x800000000000100000000000000000000000000000000000000000000000000000000 ||| R = R) (hc : ∃ c, C n.val c) :
    ResUpd K R C s0 (execClrf t n s0') := by
  unfold execClrf
  refine ResUpd.next ?_
  refine feExec_upd ?_ (sub_of rfl hk) (sub_of rfl hr) hc
  · refine State.at_upd ?_ (sub_of rfl hk)
    · exact hs0'

theorem execCsel_upd {t : Nat} {n : Cluster} {s0' : State} (hs0' : Upd K R C s0 s0') (hk : 0x301 ||| K = K) (hr : 0x800000000000100000000000000000000000000000000000000000000000000000000 ||| R = R) (hc : ∃ c, C n.val c) :
    ResUpd K R C s0 (execCsel t n s0') := by
  unfold execCsel
  refine ResUpd.next ?_
  refine feExec_upd ?_ (sub_of rfl hk) (sub_of rfl hr) hc
  · refine State.at_upd ?_ (sub_of rfl hk)
    · exact hs0'

theorem execRpt_upd {t : Nat} {n : Cluster} {s0' : State} (hs0' : Upd K R C s0 s0') (hk : 0x301 ||| K = K) (hr : 0x800000000000100000000000000000000000000000000000000000000000000000000 ||| R = R) (hc : ∃ c, C n.val c) :
    ResUpd K R C s0 (execRpt t n s0') := by
  unfold execRpt
  refine ResUpd.next ?_
  refine feExec_upd ?_ (sub_of rfl hk) (sub_of rfl hr) hc
  · refine State.at_upd ?_ (sub_of rfl hk)
    · exact hs0'

theorem execWtrig_upd {t : Nat} {n : Cluster} {s0' : State} (hs0' : Upd K R C s0 s0') (hk : 0x301 ||| K = K) (hr : 0x800000000000100000000000000000000000000000000000000000000000000000000 ||| R = R) (hc : ∃ c, C n.val c) :
    ResUpd K R C s0 (execWtrig t n s0') := by
  unfold execWtrig
  refine ResUpd.next ?_
  refine feExec_upd ?_ (sub_of rfl hk) (sub_of rfl hr) hc
  · refine State.at_upd ?_ (sub_of rfl hk)
    · exact hs0'

theorem execWct_upd {t : Nat} {n : Cluster} {s0' : State} (hs0' : Upd K R C s0 s0') (hk : 0x301 ||| K = K) (hr : 0x800000000000100000000000000000000000000000000000000000000000000000000 ||| R = R) (hc : ∃ c, C n.val c) :
    ResUpd K R C s0 (execWct t n s0') := by
  unfold execWct
  refine ResUpd.next ?_
  refine feExec_upd ?_ (sub_of rfl hk) (sub_of rfl hr) hc
  · refine State.at_upd ?_ (sub_of rfl hk)
    · exact hs0'

theorem execHold_upd {t : Nat} {n : Cluster} {s0' : State} (hs0' : Upd K R C s0 s0') (hk : 0x301 ||| K = K) (hr : 0x800000000000100000000000000000000000000000000000000000000000000000000 ||| R = R) (hc : ∃ c, C n.val c) :
    ResUpd K R C s0 (execHold t n s0') := by
  unfold execHold
  refine ResUpd.next ?_
  refine feExec_upd ?_ (sub_of rfl hk) (sub_of rfl hr) hc
  · refine State.at_upd ?_ (sub_of rfl hk)
    · exact hs0'

theorem execRmark_upd {t : Nat} {n : Cluster} {s0' : State} (hs0' : Upd K R C s0 s0') (hk : 0x301 ||| K = K) (hr : 0x800000000000100000000000000000000000000000000000000000000000000000000 ||| R = R) (hc : ∃ c, C n.val c) :
    ResUpd K R C s0 (execRmark t n s0') := by
  unfold execRmark
  refine ResUpd.next ?_
  refine feExec_upd ?_ (sub_of rfl hk) (sub_of rfl hr) hc
  · refine State.at_upd ?_ (sub_of rfl hk)
    · exact hs0'

theorem execRbeg_upd {t : Nat} {n : Cluster} {s0' : State} (hs0' : Upd K R C s0 s0') (hk : 0x301 ||| K = K) (hr : 0x800000000000100000000000000000000000000000000000000000000000000000000 ||| R = R) (hc : ∃ c, C n.val c) :
    ResUpd K R C s0 (execRbeg t n s0') := by
  unfold execRbeg
  refine ResUpd.next ?_
  refine feExec_upd ?_ (sub_of rfl hk) (sub_of rfl hr) hc
  · refine State.at_upd ?_ (sub_of rfl hk)
    · exact hs0'

theorem execRunw_upd {t : Nat} {n : Cluster} {s0' : State} (hs0' : Upd K R C s0 s0') (hk : 0x301 ||| K = K) (hr : 0x800000000000100000000000000000000000000000000000000000000000000000000 ||| R = R) (hc : ∃ c, C n.val c) :
    ResUpd K R C s0 (execRunw t n s0') := by
  unfold execRunw
  refine ResUpd.next ?_
  refine feExec_upd ?_ (sub_of rfl hk) (sub_of rfl hr) hc
  · refine State.at_upd ?_ (sub_of rfl hk)
    · exact hs0'

theorem execSel_upd {t : Nat} {n : Cluster} {s0' : State} (hs0' : Upd K R C s0 s0') (hk : 0x301 ||| K = K) (hr : 0x800000000000100000000000000000000000000000000000000000000000000000000 ||| R = R) (hc : ∃ c, C n.val c) :
    ResUpd K R C s0 (execSel t n s0') := by
  unfold execSel
  refine ResUpd.next ?_
  refine feExec_upd ?_ (sub_of rfl hk) (sub_of rfl hr) hc
  · refine State.at_upd ?_ (sub_of rfl hk)
    · exact hs0'

theorem execWri_upd {t : Nat} {n : Cluster} {s0' : State} (hs0' : Upd K R C s0 s0') (hk : 0x301 ||| K = K) (hr : 0x800000000000100000000000000000000000000000000000000000000000000000000 ||| R = R) (hc : ∃ c, C n.val c) :
    ResUpd K R C s0 (execWri t n s0') := by
  unfold execWri
  refine ResUpd.next ?_
  refine feExec_upd ?_ (sub_of rfl hk) (sub_of rfl hr) hc
  · refine State.at_upd ?_ (sub_of rfl hk)
    · exact hs0'

theorem execWrn_upd {t : Nat} {n : Cluster} {s0' : State} (hs0' : Upd K R C s0 s0') (hk : 0x301 ||| K = K) (hr : 0x800000000000100000000000000000000000000000000000000000000000000000000 ||| R = R) (hc : ∃ c, C n.val c) :
    ResUpd K R C s0 (execWrn t n s0') := by
  unfold execWrn
  refine ResUpd.next ?_
  refine feExec_upd ?_ (sub_of rfl hk) (sub_of rfl hr) hc
  · refine State.at_upd ?_ (sub_of rfl hk)
    · exact hs0'

theorem execMst_upd {t : Nat} {n : Cluster} {s0' : State} (hs0' : Upd K R C s0 s0') (hk : 0x301 ||| K = K) (hr : 0x800000000000100000000000000000000000000000000000000000000000000000000 ||| R = R) (hc : ∃ c, C n.val c) :
    ResUpd K R C s0 (execMst t n s0') := by
  unfold execMst
  refine ResUpd.next ?_
  refine feExec_upd ?_ (sub_of rfl hk) (sub_of rfl hr) hc
  · refine State.at_upd ?_ (sub_of rfl hk)
    · exact hs0'

theorem execMwait_upd {t : Nat} {n : Cluster} {s0' : State} (hs0' : Upd K R C s0 s0') (hk : 0x301 ||| K = K) (hr : 0x800000000000100000000000000000000000000000000000000000000000000000000 ||| R = R) (hc : ∃ c, C n.val c) :
    ResUpd K R C s0 (execMwait t n s0') := by
  unfold execMwait
  refine ResUpd.next ?_
  refine feExec_upd ?_ (sub_of rfl hk) (sub_of rfl hr) hc
  · refine State.at_upd ?_ (sub_of rfl hk)
    · exact hs0'

theorem execStop_upd {t : Nat} {n : Cluster} {s0' : State} (hs0' : Upd K R C s0 s0') (hk : 0x301 ||| K = K) (hr : 0x800000000000100000000000000000000000000000000000000000000000000000000 ||| R = R) (hc : ∃ c, C n.val c) :
    ResUpd K R C s0 (execStop t n s0') := by
  unfold execStop
  refine ResUpd.next ?_
  refine feExec_upd ?_ (sub_of rfl hk) (sub_of rfl hr) hc
  · refine State.at_upd ?_ (sub_of rfl hk)
    · exact hs0'

theorem execJm_upd {t : Nat} {n : Cluster} {s0' : State} (hs0' : Upd K R C s0 s0') (hk : 0x301 ||| K = K) (hr : 0x800000000000100000000000000000000000000000000000000000000000000000000 ||| R = R) (hc : ∃ c, C n.val c) :
    ResUpd K R C s0 (execJm t n s0') := by
  unfold execJm
  refine ResUpd.next ?_
  refine feCond_upd ?_ (sub_of rfl hk) (sub_of rfl hr) hc
  · refine State.at_upd ?_ (sub_of rfl hk)
    · exact hs0'

theorem execJnm_upd {t : Nat} {n : Cluster} {s0' : State} (hs0' : Upd K R C s0 s0') (hk : 0x301 ||| K = K) (hr : 0x800000000000100000000000000000000000000000000000000000000000000000000 ||| R = R) (hc : ∃ c, C n.val c) :
    ResUpd K R C s0 (execJnm t n s0') := by
  unfold execJnm
  refine ResUpd.next ?_
  refine feCond_upd ?_ (sub_of rfl hk) (sub_of rfl hr) hc
  · refine State.at_upd ?_ (sub_of rfl hk)
    · exact hs0'

theorem execJf_upd {t : Nat} {n : Cluster} {s0' : State} (hs0' : Upd K R C s0 s0') (hk : 0x301 ||| K = K) (hr : 0x800000000000100000000000000000000000000000000000000000000000000000000 ||| R = R) (hc : ∃ c, C n.val c) :
    ResUpd K R C s0 (execJf t n s0') := by
  unfold execJf
  refine ResUpd.next ?_
  refine feCond_upd ?_ (sub_of rfl hk) (sub_of rfl hr) hc
  · refine State.at_upd ?_ (sub_of rfl hk)
    · exact hs0'

theorem execJnf_upd {t : Nat} {n : Cluster} {s0' : State} (hs0' : Upd K R C s0 s0') (hk : 0x301 ||| K = K) (hr : 0x800000000000100000000000000000000000000000000000000000000000000000000 ||| R = R) (hc : ∃ c, C n.val c) :
    ResUpd K R C s0 (execJnf t n s0') := by
  unfold execJnf
  refine ResUpd.next ?_
  refine feCond_upd ?_ (sub_of rfl hk) (sub_of rfl hr) hc
  · refine State.at_upd ?_ (sub_of rfl hk)
    · exact hs0'

theorem execIllegalWord_upd {t : Nat} {n : Cluster} {s0' : State} (hs0' : Upd K R C s0 s0') (hk : 0x101 ||| K = K) (hc : ∃ c, C n.val c) :
    ResUpd K R C s0 (execIllegalWord t n s0') := by
  unfold execIllegalWord
  refine ResUpd.next ?_
  refine feIllegal_upd ?_ (sub_of rfl hk) hc
  · refine State.at_upd ?_ (sub_of rfl hk)
    · exact hs0'

end Sys2Proof.Machine
end

