-- ==== Sys2Proof/Laws/Frames7.lean ====
section
/-! SUPPORT. Sys2Proof/Laws/Frames7.lean: what each operation of Machine/RingRows, Serial, Stamp, Timing, Trigger
may change: parts and registers as bits of two numbers, and where (Laws/Upd.lean). Each lemma carries Inv and the queue of
commands over its operation. -/

set_option linter.unusedVariables false

namespace Sys2Proof.Machine

variable {K R : Nat} {C : Nat → Nat → Prop} {s0 : State}

theorem execRingSlot_upd {t : Nat} {slot : List Byte} {arr : Nat} {s0' : State} (hs0' : Upd K R C s0 s0') (hk : 0x880000400000001 ||| K = K) (hr : 0x120040000000000000000000000000000000000000 ||| R = R) :
    ResUpd K R C s0 (execRingSlot t slot arr s0') := by
  unfold execRingSlot
  extract_lets -merge +onlyGivenNames x5
  have hx6 : Upd K R C s0 x5 := by
    unfold x5
    refine State.at_upd ?_ (sub_of rfl hk)
    · exact hs0'
  try clear_value x5
  refine ResUpd.next ?_
  refine Upd.ite ?_ ?_
  · exact hx6
  · refine Upd.ite ?_ ?_
    · refine Upd.ite ?_ ?_
      · extract_lets -merge +onlyGivenNames x7
        refine Upd.ite ?_ ?_
        · refine setRingState_upd ?_ (sub_of rfl hr)
          · refine modRing_upd ?_ (sub_of rfl hk)
            · exact hx6
        · refine modRing_upd ?_ (sub_of rfl hk)
          · exact hx6
      · refine modRing_upd ?_ (sub_of rfl hk)
        · exact hx6
    · refine Upd.ite ?_ ?_
      · refine slotPass_upd ?_ (sub_of rfl hk) (sub_of rfl hr)
        · exact hx6
      · refine slotBad_upd ?_ (sub_of rfl hk) (sub_of rfl hr)
        · exact hx6

theorem execRingBypassChange_upd {t : Nat} {close : Bool} {s0' : State} (hs0' : Upd K R C s0 s0') (hk : 0x1 ||| K = K) (hr : 0x40000000000000000000000000000000000000 ||| R = R) :
    ResUpd K R C s0 (execRingBypassChange t close s0') := by
  unfold execRingBypassChange
  extract_lets -merge +onlyGivenNames x4
  have hx5 : Upd K R C s0 x4 := by
    unfold x4
    refine State.at_upd ?_ (sub_of rfl hk)
    · exact hs0'
  try clear_value x4
  refine ResUpd.next ?_
  refine Upd.ite ?_ ?_
  · refine State.setRb_upd ?_ (testBit_of_sub hr rfl) (RegOk.glob rfl)
    exact hx5
  · exact hx5

theorem takeItem_upd {p : RingItem → Bool} {s : State} (hs : Upd K R C s0 s) (hk : 0x400000000 ||| K = K) :
    OSndUpd K R C s0 (takeItem p s) := by
  unfold takeItem
  split
  · refine OSndUpd.some ?_
    refine modRing_upd ?_ (sub_of rfl hk)
    · exact hs
  · exact OSndUpd.none

theorem execRingStart_upd {t : Nat} {s0' : State} (hs0' : Upd K R C s0 s0') (hk : 0x2040410000141 ||| K = K) (hr : 0x10000000000000000000000000000000000104000000000000004e00008000100000000000000000000000000000000000000000 ||| R = R) (hc : ∀ n c, C n c) :
    ResUpd K R C s0 (execRingStart t s0') := by
  unfold execRingStart
  extract_lets -merge +onlyGivenNames x3
  have hx4 : Upd K R C s0 x3 := by
    unfold x3
    refine State.at_upd ?_ (sub_of rfl hk)
    · exact hs0'
  try clear_value x3
  refine ResUpd.next ?_
  split
  · rename_i y5 y6 he7
    have hy8 := OSndUpd.of_eq he7 (K := K) (R := R) (C := C) (s0 := s0) (by
      refine takeItem_upd ?_ (sub_of rfl hk)
      · exact hx4
      )
    refine Upd.ite ?_ ?_
    · exact hx4
    · extract_lets -merge +onlyGivenNames x9
      have hx10 : Upd K R C s0 x9 := by
        unfold x9
        refine ringEvt_upd ?_ (sub_of rfl hr)
        · exact hy8
      try clear_value x9
      extract_lets -merge +onlyGivenNames x11
      have hx12 : Upd K R C s0 x11 := by
        unfold x11
        refine Upd.ite ?_ ?_
        · refine capSot_upd ?_ (sub_of rfl hk) (sub_of rfl hr) hc
          · exact hx10
        · exact hx10
      try clear_value x11
      refine Upd.ite ?_ ?_
      · exact hx12
      · refine capAbort_upd ?_ (sub_of rfl hk) (sub_of rfl hr) hc
        · refine ringEvt_upd ?_ (sub_of rfl hr)
          · exact hx12
  · exact hx4

theorem execRingAbort_upd {t : Nat} {s0' : State} (hs0' : Upd K R C s0 s0') (hk : 0x410000141 ||| K = K) (hr : 0x10000000000000000000000000000000000000000000000000004000008000100000000000000000000000000000000000000000 ||| R = R) (hc : ∀ n c, C n c) :
    ResUpd K R C s0 (execRingAbort t s0') := by
  unfold execRingAbort
  extract_lets -merge +onlyGivenNames x3
  have hx4 : Upd K R C s0 x3 := by
    unfold x3
    refine State.at_upd ?_ (sub_of rfl hk)
    · exact hs0'
  try clear_value x3
  refine ResUpd.next ?_
  split
  · rename_i y5 y6 he7
    have hy8 := OSndUpd.of_eq he7 (K := K) (R := R) (C := C) (s0 := s0) (by
      refine takeItem_upd ?_ (sub_of rfl hk)
      · exact hx4
      )
    refine Upd.ite ?_ ?_
    · exact hx4
    · extract_lets -merge +onlyGivenNames x9
      have hx10 : Upd K R C s0 x9 := by
        unfold x9
        refine capAbort_upd ?_ (sub_of rfl hk) (sub_of rfl hr) hc
        · refine ringEvt_upd ?_ (sub_of rfl hr)
          · exact hy8
      try clear_value x9
      refine Upd.ite ?_ ?_
      · refine forClusters_upd (fun z11 z12 h13 => ?_) ?_
        · beta_reduce
          refine abortSeq_upd ?_ (sub_of rfl hk) (sub_of rfl hr) (hc _)
          · exact h13
        · exact hx10
      · exact hx10
  · exact hx4

theorem execRingTrigger_upd {t : Nat} {s0' : State} (hs0' : Upd K R C s0 s0') (hk : 0x400001001 ||| K = K) (hc : ∀ n c, C n c) :
    ResUpd K R C s0 (execRingTrigger t s0') := by
  unfold execRingTrigger
  extract_lets -merge +onlyGivenNames x3
  have hx4 : Upd K R C s0 x3 := by
    unfold x3
    refine State.at_upd ?_ (sub_of rfl hk)
    · exact hs0'
  try clear_value x3
  refine ResUpd.next ?_
  split
  · rename_i y5 y6 y7 he8
    have hy9 := OSndUpd.of_eq he8 (K := K) (R := R) (C := C) (s0 := s0) (by
      refine takeItem_upd ?_ (sub_of rfl hk)
      · exact hx4
      )
    refine Upd.ite ?_ ?_
    · refine forClusters_upd (fun z10 z11 h12 => ?_) ?_
      · beta_reduce
        refine State.trigEvent_upd ?_ (sub_of rfl hk) ⟨0, hc _ 0⟩
        · exact h12
      · exact hy9
    · exact hx4
  · exact hx4

theorem execRingTime_upd {t : Nat} {s0' : State} (hs0' : Upd K R C s0 s0') (hk : 0x400000001 ||| K = K) :
    ResUpd K R C s0 (execRingTime t s0') := by
  unfold execRingTime
  extract_lets -merge +onlyGivenNames x3
  have hx4 : Upd K R C s0 x3 := by
    unfold x3
    refine State.at_upd ?_ (sub_of rfl hk)
    · exact hs0'
  try clear_value x3
  refine ResUpd.next ?_
  split
  · rename_i y5 y6 y7 y8 he9
    have hy10 := OSndUpd.of_eq he9 (K := K) (R := R) (C := C) (s0 := s0) (by
      refine takeItem_upd ?_ (sub_of rfl hk)
      · exact hx4
      )
    refine modRing_upd ?_ (sub_of rfl hk)
    · exact hy10
  · exact hx4

theorem execRingAcc_upd {t : Nat} {s0' : State} (hs0' : Upd K R C s0 s0') (hk : 0x400000001 ||| K = K) :
    ResUpd K R C s0 (execRingAcc t s0') := by
  unfold execRingAcc
  extract_lets -merge +onlyGivenNames x3
  have hx4 : Upd K R C s0 x3 := by
    unfold x3
    refine State.at_upd ?_ (sub_of rfl hk)
    · exact hs0'
  try clear_value x3
  refine ResUpd.next ?_
  split
  · rename_i y5 y6 y7 he8
    have hy9 := OSndUpd.of_eq he8 (K := K) (R := R) (C := C) (s0 := s0) (by
      refine takeItem_upd ?_ (sub_of rfl hk)
      · exact hx4
      )
    refine modRing_upd ?_ (sub_of rfl hk)
    · exact hy9
  · exact hx4

theorem roundDone_upd {N : Nat} {s : State} (hs : Upd K R C s0 s) (hk : 0x400000000 ||| K = K) (hr : 0x110040000000000000000000000000000000000000 ||| R = R) :
    Upd K R C s0 (roundDone N s) := by
  unfold roundDone
  refine ringEvt_upd ?_ (sub_of rfl hr)
  · refine modRing_upd ?_ (sub_of rfl hk)
    · refine State.countWrap_upd ?_ (testBit_of_sub hr rfl) (RegOk.glob rfl)
      refine State.setRf_upd ?_ (testBit_of_sub hr rfl) (RegOk.glob rfl)
      exact hs

theorem execRingResid_upd {t : Nat} {s0' : State} (hs0' : Upd K R C s0 s0') (hk : 0x400000001 ||| K = K) (hr : 0x111040000000000000000000000000000000000000 ||| R = R) :
    ResUpd K R C s0 (execRingResid t s0') := by
  unfold execRingResid
  extract_lets -merge +onlyGivenNames x3
  have hx4 : Upd K R C s0 x3 := by
    unfold x3
    refine State.at_upd ?_ (sub_of rfl hk)
    · exact hs0'
  try clear_value x3
  refine ResUpd.next ?_
  split
  · rename_i y5 y6 y7 he8
    have hy9 := OSndUpd.of_eq he8 (K := K) (R := R) (C := C) (s0 := s0) (by
      refine takeItem_upd ?_ (sub_of rfl hk)
      · exact hx4
      )
    refine Upd.ite ?_ ?_
    · refine ringEvt_upd ?_ (sub_of rfl hr)
      · exact hy9
    · extract_lets -merge +onlyGivenNames x10
      extract_lets -merge +onlyGivenNames x12
      extract_lets -merge +onlyGivenNames x14
      have hx15 : Upd K R C s0 x14 := by
        unfold x14
        refine roundDone_upd ?_ (sub_of rfl hk) (sub_of rfl hr)
        · refine State.setRb_upd ?_ (testBit_of_sub hr rfl) (RegOk.glob rfl)
          refine State.setReg_upd ?_ (testBit_of_sub hr rfl) (RegOk.glob rfl)
          exact hy9
      try clear_value x14
      extract_lets -merge +onlyGivenNames x16
      have hx17 : Upd K R C s0 x16 := by
        unfold x16
        refine modRing_upd ?_ (sub_of rfl hk)
        · exact hx15
      try clear_value x16
      extract_lets -merge +onlyGivenNames x18
      have hx19 : Upd K R C s0 x18 := by
        unfold x18
        refine Upd.ite ?_ ?_
        · refine ringEvt_upd ?_ (sub_of rfl hr)
          · refine State.setRb_upd ?_ (testBit_of_sub hr rfl) (RegOk.glob rfl)
            exact hx17
        · exact hx17
      try clear_value x18
      refine Upd.ite ?_ ?_
      · refine setRingState_upd ?_ (sub_of rfl hr)
        · refine ringEvt_upd ?_ (sub_of rfl hr)
          · refine State.setRb_upd ?_ (testBit_of_sub hr rfl) (RegOk.glob rfl)
            exact hx19
      · exact hx19
  · exact hx4

theorem execRingHealth_upd {t : Nat} {s0' : State} (hs0' : Upd K R C s0 s0') (hk : 0x400000001 ||| K = K) (hr : 0xc00000000000000000000000000000000000000000 ||| R = R) :
    ResUpd K R C s0 (execRingHealth t s0') := by
  unfold execRingHealth
  extract_lets -merge +onlyGivenNames x3
  have hx4 : Upd K R C s0 x3 := by
    unfold x3
    refine State.at_upd ?_ (sub_of rfl hk)
    · exact hs0'
  try clear_value x3
  refine ResUpd.next ?_
  split
  · rename_i y5 y6 y7 he8
    have hy9 := OSndUpd.of_eq he8 (K := K) (R := R) (C := C) (s0 := s0) (by
      refine takeItem_upd ?_ (sub_of rfl hk)
      · exact hx4
      )
    extract_lets -merge +onlyGivenNames x10
    extract_lets -merge +onlyGivenNames x12
    have hx13 : Upd K R C s0 x12 := by
      unfold x12
      refine State.setReg_upd ?_ (testBit_of_sub hr rfl) (RegOk.glob rfl)
      refine State.setReg_upd ?_ (testBit_of_sub hr rfl) (RegOk.glob rfl)
      exact hy9
    try clear_value x12
    refine modRing_upd ?_ (sub_of rfl hk)
    · exact hx13
  · exact hx4

theorem execRingRoundStart_upd {t : Nat} {s0' : State} (hs0' : Upd K R C s0 s0') (hk : 0x400000001 ||| K = K) :
    ResUpd K R C s0 (execRingRoundStart t s0') := by
  unfold execRingRoundStart
  extract_lets -merge +onlyGivenNames x3
  have hx4 : Upd K R C s0 x3 := by
    unfold x3
    refine State.at_upd ?_ (sub_of rfl hk)
    · exact hs0'
  try clear_value x3
  refine ResUpd.next ?_
  refine Upd.ite ?_ ?_
  · refine ringRound_upd ?_ (sub_of rfl hk)
    · exact hx4
  · exact hx4

theorem execRingLoopReturn_upd {t : Nat} {s0' : State} (hs0' : Upd K R C s0 s0') (hk : 0x400000001 ||| K = K) (hr : 0x110040000000000000000000000000000000000000 ||| R = R) :
    ResUpd K R C s0 (execRingLoopReturn t s0') := by
  unfold execRingLoopReturn
  extract_lets -merge +onlyGivenNames x3
  have hx4 : Upd K R C s0 x3 := by
    unfold x3
    refine State.at_upd ?_ (sub_of rfl hk)
    · exact hs0'
  try clear_value x3
  extract_lets -merge +onlyGivenNames x5
  refine ResUpd.next ?_
  split
  · refine Upd.ite ?_ ?_
    · exact hx4
    · extract_lets -merge +onlyGivenNames x7
      extract_lets -merge +onlyGivenNames x9
      have hx10 : Upd K R C s0 x9 := by
        unfold x9
        refine modRing_upd ?_ (sub_of rfl hk)
        · exact hx4
      try clear_value x9
      refine Upd.ite ?_ ?_
      · refine ringEvt_upd ?_ (sub_of rfl hr)
        · exact hx10
      · extract_lets -merge +onlyGivenNames x11
        extract_lets -merge +onlyGivenNames x13
        have hx14 : Upd K R C s0 x13 := by
          unfold x13
          refine ringQueue_upd ?_ (sub_of rfl hk)
          · exact hx10
        try clear_value x13
        refine setRingState_upd ?_ (sub_of rfl hr)
        · refine roundDone_upd ?_ (sub_of rfl hk) (sub_of rfl hr)
          · exact hx14
  · exact hx4

theorem execRingStepApply_upd {t : Nat} {s0' : State} (hs0' : Upd K R C s0 s0') (hk : 0x400000001 ||| K = K) (hr : 0x102040000000000000000000000000000000000000 ||| R = R) :
    ResUpd K R C s0 (execRingStepApply t s0') := by
  unfold execRingStepApply
  extract_lets -merge +onlyGivenNames x3
  have hx4 : Upd K R C s0 x3 := by
    unfold x3
    refine State.at_upd ?_ (sub_of rfl hk)
    · exact hs0'
  try clear_value x3
  refine ResUpd.next ?_
  split
  · refine Upd.ite ?_ ?_
    · extract_lets -merge +onlyGivenNames x5
      extract_lets -merge +onlyGivenNames x7
      have hx8 : Upd K R C s0 x7 := by
        unfold x7
        refine State.setRf_upd ?_ (testBit_of_sub hr rfl) (RegOk.glob rfl)
        exact hx4
      try clear_value x7
      extract_lets -merge +onlyGivenNames x9
      extract_lets -merge +onlyGivenNames x11
      have hx12 : Upd K R C s0 x11 := by
        unfold x11
        refine Upd.ring ?_ (testBit_of_sub hk rfl)
        exact hx8
      try clear_value x11
      extract_lets -merge +onlyGivenNames x13
      have hx14 : Upd K R C s0 x13 := by
        unfold x13
        refine Upd.clasp ?_ (testBit_of_sub hk rfl)
        exact hx12
      try clear_value x13
      refine setRingState_upd ?_ (sub_of rfl hr)
      · refine State.setRf_upd ?_ (testBit_of_sub hr rfl) (RegOk.glob rfl)
        exact hx14
    · exact hx4
  · exact hx4

theorem execRingRoundTimeout_upd {t : Nat} {s0' : State} (hs0' : Upd K R C s0 s0') (hk : 0x1 ||| K = K) (hr : 0x100040000000000000000000000000000000000000 ||| R = R) :
    ResUpd K R C s0 (execRingRoundTimeout t s0') := by
  unfold execRingRoundTimeout
  extract_lets -merge +onlyGivenNames x3
  have hx4 : Upd K R C s0 x3 := by
    unfold x3
    refine State.at_upd ?_ (sub_of rfl hk)
    · exact hs0'
  try clear_value x3
  extract_lets -merge +onlyGivenNames x5
  refine ResUpd.next ?_
  refine Upd.ite ?_ ?_
  · refine setRingState_upd ?_ (sub_of rfl hr)
    · exact hx4
  · exact hx4

theorem execRingMsgRetry_upd {t : Nat} {s0' : State} (hs0' : Upd K R C s0 s0') (hk : 0x400000001 ||| K = K) (hr : 0x180000000000000000000000000000000000000000 ||| R = R) :
    ResUpd K R C s0 (execRingMsgRetry t s0') := by
  unfold execRingMsgRetry
  extract_lets -merge +onlyGivenNames x3
  have hx4 : Upd K R C s0 x3 := by
    unfold x3
    refine State.at_upd ?_ (sub_of rfl hk)
    · exact hs0'
  try clear_value x3
  refine ResUpd.next ?_
  split
  · refine Upd.ite ?_ ?_
    · exact hx4
    · refine Upd.ite ?_ ?_
      · refine modRing_upd ?_ (sub_of rfl hk)
        · exact hx4
      · extract_lets -merge +onlyGivenNames x5
        have hx6 : Upd K R C s0 x5 := by
          unfold x5
          refine ringEvt_upd ?_ (sub_of rfl hr)
          · refine State.count_upd ?_ (testBit_of_sub hr rfl) (RegOk.glob rfl)
            exact hx4
        try clear_value x5
        refine modRing_upd ?_ (sub_of rfl hk)
        · exact hx6
  · exact hx4

theorem execHeartbeatSend_upd {t : Nat} {s0' : State} (hs0' : Upd K R C s0 s0') (hk : 0x400000001 ||| K = K) :
    ResUpd K R C s0 (execHeartbeatSend t s0') := by
  unfold execHeartbeatSend
  extract_lets -merge +onlyGivenNames x3
  have hx4 : Upd K R C s0 x3 := by
    unfold x3
    refine State.at_upd ?_ (sub_of rfl hk)
    · exact hs0'
  try clear_value x3
  extract_lets -merge +onlyGivenNames x5
  refine ResUpd.next ?_
  refine Upd.ite ?_ ?_
  · refine modRing_upd ?_ (sub_of rfl hk)
    · refine ringQueue_upd ?_ (sub_of rfl hk)
      · exact hx4
  · exact hx4

theorem execHeartbeatLost_upd {t : Nat} {p : Fin 32} {s0' : State} (hs0' : Upd K R C s0 s0') (hk : 0x1 ||| K = K) (hr : 0x900000000000000000000000000000000000000000 ||| R = R) :
    ResUpd K R C s0 (execHeartbeatLost t p s0') := by
  unfold execHeartbeatLost
  extract_lets -merge +onlyGivenNames x4
  have hx5 : Upd K R C s0 x4 := by
    unfold x4
    refine State.at_upd ?_ (sub_of rfl hk)
    · exact hs0'
  try clear_value x4
  extract_lets -merge +onlyGivenNames x6
  refine ResUpd.next ?_
  refine Upd.ite ?_ ?_
  · refine ringEvt_upd ?_ (sub_of rfl hr)
    · refine State.setRb_upd ?_ (testBit_of_sub hr rfl) (RegOk.glob rfl)
      exact hx5
  · exact hx5

theorem execPsmFrameDone_upd {t : Nat} {rx : List Byte} {s0' : State} (hs0' : Upd K R C s0 s0') (hk : 0x1 ||| K = K) (hr : 0x10a0000000000000000000000000000000000000000000 ||| R = R) :
    ResUpd K R C s0 (execPsmFrameDone t rx s0') := by
  unfold execPsmFrameDone
  extract_lets -merge +onlyGivenNames x4
  have hx5 : Upd K R C s0 x4 := by
    unfold x4
    refine State.at_upd ?_ (sub_of rfl hk)
    · exact hs0'
  try clear_value x4
  refine ResUpd.next ?_
  refine Upd.ite ?_ ?_
  · refine psmDone_upd ?_ (sub_of rfl hr)
    · exact hx5
  · exact hx5

theorem winServe_upd {wr : Bool} {s0' : State} (hs0' : Upd K R C s0 s0') (hk : 0xe639c27f0c5f7cc ||| K = K) (hr : 0xffffffffffffffffffffffffffffffffffffffffffffffffffffffffffffffffffffffffffffffffffffffffffffffffffffffffffffffffffffffffffffffff ||| R = R) (hc : ∀ n c, C n c) :
    Upd K R C s0 (winServe wr s0') := by
  unfold winServe
  extract_lets -merge +onlyGivenNames x3
  have hx4 : Upd K R C s0 x3 := by
    unfold x3
    refine modMsp_upd ?_ (sub_of rfl hk)
    · exact hs0'
  try clear_value x3
  refine Upd.ite ?_ ?_
  · refine modMsp_upd ?_ (sub_of rfl hk)
    · exact hx4
  · refine Upd.ite ?_ ?_
    · extract_lets -merge +onlyGivenNames x5
      have hx6 : FstUpd K R C s0 x5 := by
        unfold x5
        refine slaveWrite_upd ?_ (sub_of rfl hk) (sub_of rfl hr) hc
        · exact hx4
      try clear_value x5
      refine modMsp_upd ?_ (sub_of rfl hk)
      · refine FstUpd.out ?_
        exact hx6
    · extract_lets -merge +onlyGivenNames x7
      have hx8 : SndUpd K R C s0 x7 := by
        unfold x7
        refine readAt_upd ?_ (sub_of rfl hk) (sub_of rfl hr) hc
        · exact hx4
      try clear_value x7
      refine modMsp_upd ?_ (sub_of rfl hk)
      · refine SndUpd.out ?_
        exact hx8

theorem winPending_upd {s : State} (hs : Upd K R C s0 s) (hk : 0xe639c27f0c5f7cc ||| K = K) (hr : 0xffffffffffffffffffffffffffffffffffffffffffffffffffffffffffffffffffffffffffffffffffffffffffffffffffffffffffffffffffffffffffffffff ||| R = R) (hc : ∀ n c, C n c) :
    Upd K R C s0 (winPending s) := by
  unfold winPending
  split
  · refine winServe_upd ?_ (sub_of rfl hk) (sub_of rfl hr) hc
    · exact hs
  · exact hs

theorem execMspWinRd_upd {t : Nat} {s0' : State} (hs0' : Upd K R C s0 s0') (hk : 0x2000000001 ||| K = K) :
    ResUpd K R C s0 (execMspWinRd t s0') := by
  unfold execMspWinRd
  extract_lets -merge +onlyGivenNames x3
  have hx4 : Upd K R C s0 x3 := by
    unfold x3
    refine State.at_upd ?_ (sub_of rfl hk)
    · exact hs0'
  try clear_value x3
  refine ResUpd.next ?_
  refine Upd.ite ?_ ?_
  · exact hx4
  · refine winCmd_upd ?_ (sub_of rfl hk)
    · exact hx4

theorem execMspWinWr_upd {t : Nat} {s0' : State} (hs0' : Upd K R C s0 s0') (hk : 0x2000000001 ||| K = K) :
    ResUpd K R C s0 (execMspWinWr t s0') := by
  unfold execMspWinWr
  extract_lets -merge +onlyGivenNames x3
  have hx4 : Upd K R C s0 x3 := by
    unfold x3
    refine State.at_upd ?_ (sub_of rfl hk)
    · exact hs0'
  try clear_value x3
  refine ResUpd.next ?_
  refine Upd.ite ?_ ?_
  · exact hx4
  · refine winCmd_upd ?_ (sub_of rfl hk)
    · exact hx4

theorem execMspWinAccess_upd {t : Nat} {s0' : State} (hs0' : Upd K R C s0 s0') (hk : 0xe639c27f0c5f7cd ||| K = K) (hr : 0xffffffffffffffffffffffffffffffffffffffffffffffffffffffffffffffffffffffffffffffffffffffffffffffffffffffffffffffffffffffffffffffff ||| R = R) (hc : ∀ n c, C n c) :
    ResUpd K R C s0 (execMspWinAccess t s0') := by
  unfold execMspWinAccess
  extract_lets -merge +onlyGivenNames x3
  have hx4 : Upd K R C s0 x3 := by
    unfold x3
    refine State.at_upd ?_ (sub_of rfl hk)
    · exact hs0'
  try clear_value x3
  refine ResUpd.next ?_
  refine winPending_upd ?_ (sub_of rfl hk) (sub_of rfl hr) hc
  · exact hx4

theorem mspReads_upd {a : Nat} {len : Nat} {s : State} (hs : Upd K R C s0 s) (hk : 0x800002000000000 ||| K = K) :
    Upd K R C s0 (mspReads a len s) := by
  unfold mspReads
  extract_lets -merge +onlyGivenNames x4
  have hx5 : Upd K R C s0 x4 := by
    unfold x4
    refine State.emit_upd ?_ (sub_of rfl hk)
    · exact hs
  try clear_value x4
  refine Upd.ite ?_ ?_
  · refine modMsp_upd ?_ (sub_of rfl hk)
    · exact hx5
  · exact hx5

theorem execMspFrame_upd {t : Nat} {read : Bool} {a : Byte} {bytes : List Byte} {k : Fin 8} {bits : Byte} {s0' : State} (hs0' : Upd K R C s0 s0') (hk : 0xe639c27f0c5f7cd ||| K = K) (hr : 0xffffffffffffffffffffffffffffffffffffffffffffffffffffffffffffffffffffffffffffffffffffffffffffffffffffffffffffffffffffffffffffffff ||| R = R) (hc : ∀ n c, C n c) :
    ResUpd K R C s0 (execMspFrame t read a bytes k bits s0') := by
  unfold execMspFrame
  extract_lets -merge +onlyGivenNames x8
  have hx9 : Upd K R C s0 x8 := by
    unfold x8
    refine State.at_upd ?_ (sub_of rfl hk)
    · exact hs0'
  try clear_value x8
  extract_lets -merge +onlyGivenNames x10
  refine ResUpd.next ?_
  refine Upd.ite ?_ ?_
  · exact hx9
  · extract_lets -merge +onlyGivenNames x12
    have hx13 : Upd K R C s0 x12 := by
      unfold x12
      refine winPending_upd ?_ (sub_of rfl hk) (sub_of rfl hr) hc
      · exact hx9
    try clear_value x12
    refine Upd.ite ?_ ?_
    · extract_lets -merge +onlyGivenNames x14
      have hx15 : Upd K R C s0 x14 := by
        unfold x14
        refine mspReads_upd ?_ (sub_of rfl hk)
        · exact hx13
      try clear_value x14
      refine Upd.ite ?_ ?_
      · exact hx15
      · refine setPart_upd ?_ (sub_of rfl hk)
        · exact hx15
    · extract_lets -merge +onlyGivenNames x16
      have hx17 : Upd K R C s0 x16 := by
        unfold x16
        refine pageWrites_upd ?_ (sub_of rfl hk) (sub_of rfl hr)
        · exact hx13
      try clear_value x16
      refine Upd.ite ?_ ?_
      · exact hx17
      · refine setPart_upd ?_ (sub_of rfl hk)
        · refine pageWrite_upd ?_ (sub_of rfl hk) (sub_of rfl hr)
          · exact hx17

theorem execInSend_upd {t : Nat} {s0' : State} (hs0' : Upd K R C s0 s0') (hk : 0x1 ||| K = K) (hr : 0x1100000000000000000000000000000000000000000000 ||| R = R) :
    ResUpd K R C s0 (execInSend t s0') := by
  unfold execInSend
  extract_lets -merge +onlyGivenNames x3
  have hx4 : Upd K R C s0 x3 := by
    unfold x3
    refine State.at_upd ?_ (sub_of rfl hk)
    · exact hs0'
  try clear_value x3
  refine ResUpd.next ?_
  refine Upd.ite ?_ ?_
  · exact hx4
  · refine inSend_upd ?_ (sub_of rfl hr)
    · exact hx4

theorem execOutAck_upd {t : Nat} {s0' : State} (hs0' : Upd K R C s0 s0') (hk : 0x1 ||| K = K) (hr : 0x1100000000000000000000000000000000000000000000 ||| R = R) :
    ResUpd K R C s0 (execOutAck t s0') := by
  unfold execOutAck
  extract_lets -merge +onlyGivenNames x3
  have hx4 : Upd K R C s0 x3 := by
    unfold x3
    refine State.at_upd ?_ (sub_of rfl hk)
    · exact hs0'
  try clear_value x3
  refine ResUpd.next ?_
  refine Upd.ite ?_ ?_
  · exact hx4
  · refine outAck_upd ?_ (sub_of rfl hr)
    · exact hx4

theorem tapSet_upd {i : Nat} {s : State} (hs : Upd K R C s0 s) (hk : 0xee3be67ffffffcc ||| K = K) (hr : 0xffffffffffffffffffffffffffffffffffffffffffffffffffffffffffffffffffffffffffffffffffffffffffffffffffffffffffffffffffffffffffffffff ||| R = R) (hc : ∀ n c, C n c) :
    Upd K R C s0 (tapSet i s) := by
  unfold tapSet
  refine Upd.ite ?_ ?_
  · exact hs
  · extract_lets -merge +onlyGivenNames x3
    have hx4 : Upd K R C s0 x3 := by
      unfold x3
      refine Upd.tap ?_ (testBit_of_sub hk rfl)
      exact hs
    try clear_value x3
    refine Upd.ite ?_ ?_
    · refine Upd.ite ?_ ?_
      · exact hx4
      · refine warmBegin_upd ?_ (sub_of rfl hk) (sub_of rfl hr) hc
        · exact hx4
    · refine Upd.ite ?_ ?_
      · refine warmEnd_upd ?_ (sub_of rfl hk) (sub_of rfl hr) hc
        · exact hx4
      · exact hx4

theorem execExtest_upd {t : Nat} {s0' : State} (hs0' : Upd K R C s0 s0') (hk : 0xee3be67ffffffcd ||| K = K) (hr : 0xffffffffffffffffffffffffffffffffffffffffffffffffffffffffffffffffffffffffffffffffffffffffffffffffffffffffffffffffffffffffffffffff ||| R = R) (hc : ∀ n c, C n c) :
    ResUpd K R C s0 (execExtest t s0') := by
  unfold execExtest
  refine ResUpd.next ?_
  refine tapSet_upd ?_ (sub_of rfl hk) (sub_of rfl hr) hc
  · refine State.at_upd ?_ (sub_of rfl hk)
    · exact hs0'

theorem execSamplePreload_upd {t : Nat} {s0' : State} (hs0' : Upd K R C s0 s0') (hk : 0xee3bee7ffffffcd ||| K = K) (hr : 0xffffffffffffffffffffffffffffffffffffffffffffffffffffffffffffffffffffffffffffffffffffffffffffffffffffffffffffffffffffffffffffffff ||| R = R) (hc : ∀ n c, C n c) :
    ResUpd K R C s0 (execSamplePreload t s0') := by
  unfold execSamplePreload
  extract_lets -merge +onlyGivenNames x3
  have hx4 : Upd K R C s0 x3 := by
    unfold x3
    refine tapSet_upd ?_ (sub_of rfl hk) (sub_of rfl hr) hc
    · refine State.at_upd ?_ (sub_of rfl hk)
      · exact hs0'
  try clear_value x3
  refine ResUpd.next ?_
  refine Upd.ite ?_ ?_
  · exact hx4
  · extract_lets -merge +onlyGivenNames x5
    refine State.emit_upd ?_ (sub_of rfl hk)
    · extract_lets -merge +onlyGivenNames x7
      have hx8 : Upd K R C s0 x7 := by
        unfold x7
        refine SndUpd.out ?_
        refine State.drawWord_upd ?_ (sub_of rfl hk)
        · exact hx4
      try clear_value x7
      refine Upd.boundary ?_ (testBit_of_sub hk rfl)
      exact hx8

theorem execIdcode_upd {t : Nat} {s0' : State} (hs0' : Upd K R C s0 s0') (hk : 0xee3be67ffffffcd ||| K = K) (hr : 0xffffffffffffffffffffffffffffffffffffffffffffffffffffffffffffffffffffffffffffffffffffffffffffffffffffffffffffffffffffffffffffffff ||| R = R) (hc : ∀ n c, C n c) :
    ResUpd K R C s0 (execIdcode t s0') := by
  unfold execIdcode
  extract_lets -merge +onlyGivenNames x3
  have hx4 : Upd K R C s0 x3 := by
    unfold x3
    refine tapSet_upd ?_ (sub_of rfl hk) (sub_of rfl hr) hc
    · refine State.at_upd ?_ (sub_of rfl hk)
      · exact hs0'
  try clear_value x3
  refine ResUpd.next ?_
  refine Upd.ite ?_ ?_
  · exact hx4
  · refine State.emit_upd ?_ (sub_of rfl hk)
    · exact hx4

theorem execHighz_upd {t : Nat} {s0' : State} (hs0' : Upd K R C s0 s0') (hk : 0xee3be67ffffffcd ||| K = K) (hr : 0xffffffffffffffffffffffffffffffffffffffffffffffffffffffffffffffffffffffffffffffffffffffffffffffffffffffffffffffffffffffffffffffff ||| R = R) (hc : ∀ n c, C n c) :
    ResUpd K R C s0 (execHighz t s0') := by
  unfold execHighz
  refine ResUpd.next ?_
  refine tapSet_upd ?_ (sub_of rfl hk) (sub_of rfl hr) hc
  · refine State.at_upd ?_ (sub_of rfl hk)
    · exact hs0'

theorem execClamp_upd {t : Nat} {s0' : State} (hs0' : Upd K R C s0 s0') (hk : 0xee3be67ffffffcd ||| K = K) (hr : 0xffffffffffffffffffffffffffffffffffffffffffffffffffffffffffffffffffffffffffffffffffffffffffffffffffffffffffffffffffffffffffffffff ||| R = R) (hc : ∀ n c, C n c) :
    ResUpd K R C s0 (execClamp t s0') := by
  unfold execClamp
  refine ResUpd.next ?_
  refine tapSet_upd ?_ (sub_of rfl hk) (sub_of rfl hr) hc
  · refine State.at_upd ?_ (sub_of rfl hk)
    · exact hs0'

theorem execBypass_upd {t : Nat} {s0' : State} (hs0' : Upd K R C s0 s0') (hk : 0xee3be67ffffffcd ||| K = K) (hr : 0xffffffffffffffffffffffffffffffffffffffffffffffffffffffffffffffffffffffffffffffffffffffffffffffffffffffffffffffffffffffffffffffff ||| R = R) (hc : ∀ n c, C n c) :
    ResUpd K R C s0 (execBypass t s0') := by
  unfold execBypass
  refine ResUpd.next ?_
  refine tapSet_upd ?_ (sub_of rfl hk) (sub_of rfl hr) hc
  · refine State.at_upd ?_ (sub_of rfl hk)
    · exact hs0'

theorem execTestLogicReset_upd {t : Nat} {s0' : State} (hs0' : Upd K R C s0 s0') (hk : 0xee3be67ffffffcd ||| K = K) (hr : 0xffffffffffffffffffffffffffffffffffffffffffffffffffffffffffffffffffffffffffffffffffffffffffffffffffffffffffffffffffffffffffffffff ||| R = R) (hc : ∀ n c, C n c) :
    ResUpd K R C s0 (execTestLogicReset t s0') := by
  unfold execTestLogicReset
  refine ResUpd.next ?_
  refine tapSet_upd ?_ (sub_of rfl hk) (sub_of rfl hr) hc
  · refine State.at_upd ?_ (sub_of rfl hk)
    · exact hs0'

theorem execStampDllLock_upd {t : Nat} {n : Cluster} {s0' : State} (hs0' : Upd K R C s0 s0') (hk : 0x1 ||| K = K) (hr : 0x8000000000000000000000000000000000000000000000000000000000000000 ||| R = R) (hc : ∃ c, C n.val c) :
    ResUpd K R C s0 (execStampDllLock t n s0') := by
  unfold execStampDllLock
  extract_lets -merge +onlyGivenNames x4
  have hx5 : Upd K R C s0 x4 := by
    unfold x4
    refine State.at_upd ?_ (sub_of rfl hk)
    · exact hs0'
  try clear_value x4
  refine ResUpd.next ?_
  refine Upd.ite ?_ ?_
  · refine State.setRb_upd ?_ (testBit_of_sub hr rfl) (RegOk.one rfl hc)
    exact hx5
  · exact hx5

theorem execStampDllUnlock_upd {t : Nat} {n : Cluster} {s0' : State} (hs0' : Upd K R C s0 s0') (hk : 0x600000000000041 ||| K = K) (hr : 0x3fff9c0000000000000000000000000000000c08000000000000000000000000000000000000000000000000000000000000000 ||| R = R) (hc : ∀ c, C n.val c) :
    ResUpd K R C s0 (execStampDllUnlock t n s0') := by
  unfold execStampDllUnlock
  extract_lets -merge +onlyGivenNames x4
  have hx5 : Upd K R C s0 x4 := by
    unfold x4
    refine State.at_upd ?_ (sub_of rfl hk)
    · exact hs0'
  try clear_value x4
  refine ResUpd.next ?_
  refine Upd.ite ?_ ?_
  · extract_lets -merge +onlyGivenNames x6
    have hx7 : Upd K R C s0 x6 := by
      unfold x6
      refine State.setRb_upd ?_ (testBit_of_sub hr rfl) (RegOk.one rfl ⟨0, hc 0⟩)
      refine State.setRb_upd ?_ (testBit_of_sub hr rfl) (RegOk.one rfl ⟨0, hc 0⟩)
      exact hx5
    try clear_value x6
    refine State.send_upd ?_ (sub_of rfl hk)
    · refine endGates_upd ?_ (sub_of rfl hk) (sub_of rfl hr) hc
      · exact hx7
  · exact hx5

theorem execCoarseWrap_upd {t : Nat} {s0' : State} (hs0' : Upd K R C s0 s0') (hk : 0x41 ||| K = K) (hr : 0xa00000000000000000000000000000000000000000000000000000000000000000 ||| R = R) (hc : ∀ n c, C n c) :
    ResUpd K R C s0 (execCoarseWrap t s0') := by
  unfold execCoarseWrap
  extract_lets -merge +onlyGivenNames x3
  have hx4 : Upd K R C s0 x3 := by
    unfold x3
    refine State.at_upd ?_ (sub_of rfl hk)
    · exact hs0'
  try clear_value x3
  extract_lets -merge +onlyGivenNames x5
  refine ResUpd.next ?_
  refine forClusters_upd (fun z7 z8 h9 => ?_) ?_
  · beta_reduce
    refine Upd.ite ?_ ?_
    · exact h9
    · refine forChannels_upd (fun z10 z11 h12 => ?_) ?_
      · beta_reduce
        refine State.modChan_upd ?_ (sub_of rfl hk) (hc _ _)
        · exact h12
      · refine State.setRb_upd ?_ (testBit_of_sub hr rfl) (RegOk.all hc)
        refine State.setReg_upd ?_ (testBit_of_sub hr rfl) (RegOk.all hc)
        exact h9
  · exact hx4

theorem execStampRecordWrite_upd {t : Nat} {n : Cluster} {s0' : State} (hs0' : Upd K R C s0 s0') (hk : 0x200000000000843 ||| K = K) (hr : 0x94000000000000000000000000000000000000000001a800000000000000000000 ||| R = R) (hc : ∀ c, C n.val c) :
    ResUpd K R C s0 (execStampRecordWrite t n s0') := by
  unfold execStampRecordWrite
  extract_lets -merge +onlyGivenNames x4
  have hx5 : Upd K R C s0 x4 := by
    unfold x4
    refine State.at_upd ?_ (sub_of rfl hk)
    · exact hs0'
  try clear_value x4
  extract_lets -merge +onlyGivenNames x6
  extract_lets -merge +onlyGivenNames x8
  refine ResUpd.next ?_
  split
  · exact hx5
  · refine Upd.ite ?_ ?_
    · refine State.setRb_upd ?_ (testBit_of_sub hr rfl) (RegOk.one rfl ⟨0, hc 0⟩)
      refine State.count_upd ?_ (testBit_of_sub hr rfl) (RegOk.one rfl ⟨0, hc 0⟩)
      refine State.setStampQ_upd ?_ (sub_of rfl hk) ⟨0, hc 0⟩
      · exact hx5
    · extract_lets -merge +onlyGivenNames x10
      extract_lets -merge +onlyGivenNames x12
      split
      · exact hx5
      · rename_i y14 he15
        have hy16 := OptUpd.of_eq he15 (K := K) (R := R) (C := C) (s0 := s0) (by
          refine engineWrite_upd ?_ (sub_of rfl hk) (sub_of rfl hr)
          · exact hx5
          )
        refine State.modChan_upd ?_ (sub_of rfl hk) (hc _)
        · refine State.setRf_upd ?_ (testBit_of_sub hr rfl) (RegOk.one rfl ⟨0, hc 0⟩)
          refine State.setStampQ_upd ?_ (sub_of rfl hk) ⟨0, hc 0⟩
          · exact hy16

theorem execRgGateOpen_upd {t : Nat} {n : Cluster} {c : Channel} {s0' : State} (hs0' : Upd K R C s0 s0') (hk : 0x41 ||| K = K) (hr : 0x40000000000000000000000000000000000000000000000000000000000000000000000000000000000000000000000000 ||| R = R) (hc : C n.val c.val) :
    ResUpd K R C s0 (execRgGateOpen t n c s0') := by
  unfold execRgGateOpen
  extract_lets -merge +onlyGivenNames x5
  have hx6 : Upd K R C s0 x5 := by
    unfold x5
    refine State.at_upd ?_ (sub_of rfl hk)
    · exact hs0'
  try clear_value x5
  extract_lets -merge +onlyGivenNames x7
  refine ResUpd.next ?_
  refine Upd.ite ?_ ?_
  · refine modGate_upd ?_ (sub_of rfl hk) hc
    · refine State.setRb_upd ?_ (testBit_of_sub hr rfl) (RegOk.chan rfl hc)
      exact hx6
  · exact hx6

theorem execRgGateEnd_upd {t : Nat} {n : Cluster} {c : Channel} {s0' : State} (hs0' : Upd K R C s0 s0') (hk : 0x400000000000041 ||| K = K) (hr : 0x3fff9c0000000000000000000000000000000c00000000000000000000000000000000000000000000000000000000000000000 ||| R = R) (hc : C n.val c.val) :
    ResUpd K R C s0 (execRgGateEnd t n c s0') := by
  unfold execRgGateEnd
  extract_lets -merge +onlyGivenNames x5
  have hx6 : Upd K R C s0 x5 := by
    unfold x5
    refine State.at_upd ?_ (sub_of rfl hk)
    · exact hs0'
  try clear_value x5
  refine ResUpd.next ?_
  split
  · refine Upd.ite ?_ ?_
    · refine endGate_upd ?_ (sub_of rfl hk) (sub_of rfl hr) hc
      · exact hx6
    · exact hx6
  · exact hx6

theorem execTimingEdge_upd {t : Nat} {n : Cluster} {c : Channel} {e : Fin 6} {s0' : State} (hs0' : Upd K R C s0 s0') (hk : 0x141 ||| K = K) (hr : 0x400000000000000000000000000000000000000000000000000000000000000000000000000 ||| R = R) (hc : C n.val c.val) :
    ResUpd K R C s0 (execTimingEdge t n c e s0') := by
  unfold execTimingEdge
  extract_lets -merge +onlyGivenNames x6
  have hx7 : Upd K R C s0 x6 := by
    unfold x6
    refine State.at_upd ?_ (sub_of rfl hk)
    · exact hs0'
  try clear_value x6
  refine ResUpd.next ?_
  split
  · exact hx7
  · refine edgeAct_upd ?_ (sub_of rfl hk) (sub_of rfl hr) hc
    · refine State.modSeq_upd ?_ (sub_of rfl hk) ⟨_, hc⟩
      · exact hx7

theorem execTimingDllLock_upd {t : Nat} {n : Cluster} {s0' : State} (hs0' : Upd K R C s0 s0') (hk : 0x1 ||| K = K) (hr : 0x80000000000000000000000000000000000000000000000000000000000000000000000 ||| R = R) (hc : ∃ c, C n.val c) :
    ResUpd K R C s0 (execTimingDllLock t n s0') := by
  unfold execTimingDllLock
  extract_lets -merge +onlyGivenNames x4
  have hx5 : Upd K R C s0 x4 := by
    unfold x4
    refine State.at_upd ?_ (sub_of rfl hk)
    · exact hs0'
  try clear_value x4
  refine ResUpd.next ?_
  refine Upd.ite ?_ ?_
  · refine State.setRb_upd ?_ (testBit_of_sub hr rfl) (RegOk.one rfl hc)
    exact hx5
  · exact hx5

theorem execTimingDllUnlock_upd {t : Nat} {n : Cluster} {s0' : State} (hs0' : Upd K R C s0 s0') (hk : 0x600000000000141 ||| K = K) (hr : 0x3fff9c0000000000000000002024040280000c00000000000000000000000000000000000000000000000000000000000000000 ||| R = R) (hc : ∀ c, C n.val c) :
    ResUpd K R C s0 (execTimingDllUnlock t n s0') := by
  unfold execTimingDllUnlock
  extract_lets -merge +onlyGivenNames x4
  have hx5 : Upd K R C s0 x4 := by
    unfold x4
    refine State.at_upd ?_ (sub_of rfl hk)
    · exact hs0'
  try clear_value x4
  refine ResUpd.next ?_
  refine Upd.ite ?_ ?_
  · extract_lets -merge +onlyGivenNames x6
    have hx7 : Upd K R C s0 x6 := by
      unfold x6
      refine State.setRb_upd ?_ (testBit_of_sub hr rfl) (RegOk.one rfl ⟨0, hc 0⟩)
      refine State.setRb_upd ?_ (testBit_of_sub hr rfl) (RegOk.one rfl ⟨0, hc 0⟩)
      exact hx5
    try clear_value x6
    extract_lets -merge +onlyGivenNames x8
    have hx9 : Upd K R C s0 x8 := by
      unfold x8
      refine Upd.ite ?_ ?_
      · exact hx7
      · refine endSeq_upd ?_ (sub_of rfl hk) ⟨0, hc 0⟩
        · exact hx7
    try clear_value x8
    refine State.send_upd ?_ (sub_of rfl hk)
    · refine forceCluster_upd ?_ (sub_of rfl hk) (sub_of rfl hr) hc
      · exact hx9
  · exact hx5

theorem execBandEvaluate_upd {t : Nat} {n : Cluster} {s0' : State} (hs0' : Upd K R C s0 s0') (hk : 0x81 ||| K = K) (hr : 0x80000000000000000000000000000000000000000000000000000000000000000000000 ||| R = R) (hc : ∃ c, C n.val c) :
    ResUpd K R C s0 (execBandEvaluate t n s0') := by
  unfold execBandEvaluate
  extract_lets -merge +onlyGivenNames x4
  have hx5 : Upd K R C s0 x4 := by
    unfold x4
    refine State.at_upd ?_ (sub_of rfl hk)
    · exact hs0'
  try clear_value x4
  refine ResUpd.next ?_
  split
  · refine Upd.ite ?_ ?_
    · refine bandTake_upd ?_ (sub_of rfl hk) (sub_of rfl hr) hc
      · exact hx5
    · exact hx5
  · split
    · refine bandNote_upd ?_ (sub_of rfl hk) (sub_of rfl hr) hc
      · refine setBandRec_upd ?_ (sub_of rfl hk) hc
        · exact hx5
    · exact hx5

theorem execBandStale_upd {t : Nat} {n : Cluster} {s0' : State} (hs0' : Upd K R C s0 s0') (hk : 0x41 ||| K = K) (hr : 0x280000000000000000000000000000000000000000000000000000000000000000000000 ||| R = R) (hc : ∀ c, C n.val c) :
    ResUpd K R C s0 (execBandStale t n s0') := by
  unfold execBandStale
  extract_lets -merge +onlyGivenNames x4
  have hx5 : Upd K R C s0 x4 := by
    unfold x4
    refine State.at_upd ?_ (sub_of rfl hk)
    · exact hs0'
  try clear_value x4
  refine ResUpd.next ?_
  refine Upd.ite ?_ ?_
  · refine markGates_upd ?_ (sub_of rfl hk) hc
    · refine State.setRb_upd ?_ (testBit_of_sub hr rfl) (RegOk.one rfl ⟨0, hc 0⟩)
      refine State.setRb_upd ?_ (testBit_of_sub hr rfl) (RegOk.one rfl ⟨0, hc 0⟩)
      exact hx5
  · exact hx5

theorem execBandSwitch_upd {t : Nat} {n : Cluster} {s0' : State} (hs0' : Upd K R C s0 s0') (hk : 0x400000000c1 ||| K = K) (hr : 0xa80004000000000000000000000000000000000000000000000000000000000000000000 ||| R = R) (hc : ∀ c, C n.val c) :
    ResUpd K R C s0 (execBandSwitch t n s0') := by
  unfold execBandSwitch
  extract_lets -merge +onlyGivenNames x4
  have hx5 : Upd K R C s0 x4 := by
    unfold x4
    refine State.at_upd ?_ (sub_of rfl hk)
    · exact hs0'
  try clear_value x4
  extract_lets -merge +onlyGivenNames x6
  refine ResUpd.next ?_
  refine Upd.ite ?_ ?_
  · extract_lets -merge +onlyGivenNames x8
    have hx9 : Upd K R C s0 x8 := by
      unfold x8
      refine State.setRb_upd ?_ (testBit_of_sub hr rfl) (RegOk.one rfl ⟨0, hc 0⟩)
      refine State.countWrap_upd ?_ (testBit_of_sub hr rfl) (RegOk.one rfl ⟨0, hc 0⟩)
      refine State.setRf_upd ?_ (testBit_of_sub hr rfl) (RegOk.one rfl ⟨0, hc 0⟩)
      exact hx5
    try clear_value x8
    extract_lets -merge +onlyGivenNames x10
    have hx11 : Upd K R C s0 x10 := by
      unfold x10
      refine setBandRec_upd ?_ (sub_of rfl hk) ⟨0, hc 0⟩
      · refine State.setRb_upd ?_ (testBit_of_sub hr rfl) (RegOk.one rfl ⟨0, hc 0⟩)
        exact hx9
    try clear_value x10
    extract_lets -merge +onlyGivenNames x12
    have hx13 : Upd K R C s0 x12 := by
      unfold x12
      refine markGates_upd ?_ (sub_of rfl hk) hc
      · refine bandNote_upd ?_ (sub_of rfl hk) (sub_of rfl hr) ⟨0, hc 0⟩
        · exact hx11
    try clear_value x12
    refine Upd.ite ?_ ?_
    · exact hx13
    · refine calBecomeDue_upd ?_ (sub_of rfl hk) (sub_of rfl hr) ⟨0, hc 0⟩
      · exact hx13
  · exact hx5

theorem actArm_upd {n : Cluster} {u : Nat} {a : Nat} {s : State} (hs : Upd K R C s0 s) (hk : 0x1000 ||| K = K) (hr : 0x20000000000000000000000000000000000000000000000000000000000000000000000000000000000000 ||| R = R) (hc : ∃ c, C n.val c) :
    Upd K R C s0 (actArm n u a s) := by
  unfold actArm
  extract_lets -merge +onlyGivenNames x5
  refine foldl_range_upd ?_ fun x8 y hyx8 h7 => ?_
  · exact hs
  · beta_reduce
    refine Upd.ite ?_ ?_
    · refine trgArm_upd ?_ (sub_of rfl hk) (sub_of rfl hr) hc
      · exact h7
    · refine Upd.ite ?_ ?_
      · refine trgArm_upd ?_ (sub_of rfl hk) (sub_of rfl hr) hc
        · exact h7
      · exact h7

theorem actCapture_upd {n : Cluster} {u : Nat} {s : State} (hs : Upd K R C s0 s) (hk : 0x40000002040 ||| K = K) (hr : 0x5e00000000000000000000104000000000000000000000000000000000000000000000000000000000000000000 ||| R = R) (hc : ∀ c, C n.val c) :
    Upd K R C s0 (actCapture n u s) := by
  unfold actCapture
  extract_lets -merge +onlyGivenNames x4
  refine Upd.ite ?_ ?_
  · split
    · refine startLevel_upd (fun z6 h7 => ?_) ?_ (sub_of rfl hk) (sub_of rfl hr) hc
      · beta_reduce
        refine cptStart_upd ?_ (sub_of rfl hk) (sub_of rfl hr) ⟨0, hc 0⟩
        · exact h7
      · exact hs
    · refine cptStop_upd ?_ (sub_of rfl hk) (sub_of rfl hr) ⟨0, hc 0⟩
      · exact hs
    · refine cptMark_upd ?_ (sub_of rfl hk) (sub_of rfl hr) ⟨0, hc 0⟩
      · exact hs
    · exact hs
  · exact hs

theorem actWait_upd {n : Cluster} {u : Nat} {a : Nat} {s : State} (hs : Upd K R C s0 s) (hk : 0x100 ||| K = K) (hc : ∃ c, C n.val c) :
    Upd K R C s0 (actWait n u a s) := by
  unfold actWait
  extract_lets -merge +onlyGivenNames x5
  split
  · refine Upd.ite ?_ ?_
    · refine State.setSeq_upd ?_ (sub_of rfl hk) hc
      · exact hs
    · exact hs
  · exact hs

theorem actJump_upd {n : Cluster} {g : Fin 2} {u : Nat} {a : Nat} {s : State} (hs : Upd K R C s0 s) (hk : 0x4000 ||| K = K) (hc : ∃ c, C n.val c) :
    Upd K R C s0 (actJump n g u a s) := by
  unfold actJump
  extract_lets -merge +onlyGivenNames x6
  refine Upd.ite ?_ ?_
  · refine jumpRequest_upd ?_ (sub_of rfl hk) hc
    · exact hs
  · exact hs

theorem actUnit_upd {n : Cluster} {a : Nat} {u : Nat} {s : State} (hs : Upd K R C s0 s) (hk : 0x40000007140 ||| K = K) (hr : 0x5e00020000000000000000104000000000000000000000000000000000000000000000000000000000000000000 ||| R = R) (hc : ∀ c, C n.val c) :
    Upd K R C s0 (actUnit n a u s) := by
  unfold actUnit
  refine actJump_upd ?_ (sub_of rfl hk) ⟨0, hc 0⟩
  · refine actJump_upd ?_ (sub_of rfl hk) ⟨0, hc 0⟩
    · refine actWait_upd ?_ (sub_of rfl hk) ⟨0, hc 0⟩
      · refine actCapture_upd ?_ (sub_of rfl hk) (sub_of rfl hr) hc
        · refine actArm_upd ?_ (sub_of rfl hk) (sub_of rfl hr) ⟨0, hc 0⟩
          · exact hs

theorem trgSample_upd {n : Cluster} {j : Nat} {s0' : State} (hs0' : Upd K R C s0 s0') (hk : 0x40400007140 ||| K = K) (hr : 0x5e01820c00000000000000104000000000000000000000000140000000000000060000000000000000000000000 ||| R = R) (hc : ∀ n c, C n c) :
    Upd K R C s0 (trgSample n j s0') := by
  unfold trgSample
  extract_lets -merge +onlyGivenNames x4
  have hx5 : Upd K R C s0 x4 := by
    unfold x4
    refine foldl_range_upd ?_ fun x7 y hyx7 h6 => ?_
    · exact hs0'
    · beta_reduce
      refine trgRearm_upd ?_ (sub_of rfl hk) (sub_of rfl hr) ⟨0, hc _ 0⟩
      · exact h6
  try clear_value x4
  extract_lets -merge +onlyGivenNames x8
  extract_lets -merge +onlyGivenNames x10
  extract_lets -merge +onlyGivenNames x12
  extract_lets -merge +onlyGivenNames x14
  extract_lets -merge +onlyGivenNames x16
  extract_lets -merge +onlyGivenNames x18
  extract_lets -merge +onlyGivenNames x20
  extract_lets -merge +onlyGivenNames x22
  extract_lets -merge +onlyGivenNames x24
  extract_lets -merge +onlyGivenNames x26
  extract_lets -merge +onlyGivenNames x28
  have hx29 : Upd K R C s0 x28 := by
    unfold x28
    refine State.setTrig_upd ?_ (sub_of rfl hk) ⟨0, hc _ 0⟩
    · exact hx5
  try clear_value x28
  extract_lets -merge +onlyGivenNames x30
  have hx31 : Upd K R C s0 x30 := by
    unfold x30
    refine Upd.ite ?_ ?_
    · refine State.setRb_upd ?_ (testBit_of_sub hr rfl) (RegOk.all hc)
      exact hx29
    · exact hx29
  try clear_value x30
  extract_lets -merge +onlyGivenNames x32
  have hx33 : Upd K R C s0 x32 := by
    unfold x32
    refine Upd.ite ?_ ?_
    · exact hx31
    · refine trgRecord_upd ?_ (sub_of rfl hk) (sub_of rfl hr) ⟨0, hc _ 0⟩
      · exact hx31
  try clear_value x32
  extract_lets -merge +onlyGivenNames x34
  have hx35 : Upd K R C s0 x34 := by
    unfold x34
    refine foldl_upd ?_ fun x37 y h36 => ?_
    · exact hx33
    · beta_reduce
      refine trgMiss_upd ?_ (sub_of rfl hk) (sub_of rfl hr) ⟨0, hc _ 0⟩
      · exact h36
  try clear_value x34
  extract_lets -merge +onlyGivenNames x38
  extract_lets -merge +onlyGivenNames x40
  extract_lets -merge +onlyGivenNames x42
  have hx43 : Upd K R C s0 x42 := by
    unfold x42
    refine foldl_upd ?_ fun x45 y h44 => ?_
    · exact hx35
    · beta_reduce
      refine trgFire_upd ?_ (sub_of rfl hk) (sub_of rfl hr) ⟨0, hc _ 0⟩
      · exact h44
  try clear_value x42
  extract_lets -merge +onlyGivenNames x46
  have hx47 : Upd K R C s0 x46 := by
    unfold x46
    refine foldl_upd ?_ fun x49 y h48 => ?_
    · exact hx43
    · beta_reduce
      refine actUnit_upd ?_ (sub_of rfl hk) (sub_of rfl hr) (hc _)
      · exact h48
  try clear_value x46
  refine foldl_upd ?_ fun x51 y h50 => ?_
  · exact hx47
  · beta_reduce
    refine ringLineSend_upd ?_ (sub_of rfl hk) (sub_of rfl hr) hc
    · exact h50

theorem execTriggerEvaluate_upd {t : Nat} {n : Cluster} {j : Nat} {s0' : State} (hs0' : Upd K R C s0 s0') (hk : 0x40400007141 ||| K = K) (hr : 0x5e01820c00000000000000104000000000000000000000000140000000000000060000000000000000000000000 ||| R = R) (hc : ∀ n c, C n c) :
    ResUpd K R C s0 (execTriggerEvaluate t n j s0') := by
  unfold execTriggerEvaluate
  extract_lets -merge +onlyGivenNames x5
  have hx6 : Upd K R C s0 x5 := by
    unfold x5
    refine State.at_upd ?_ (sub_of rfl hk)
    · exact hs0'
  try clear_value x5
  extract_lets -merge +onlyGivenNames x7
  refine ResUpd.next ?_
  refine Upd.ite ?_ ?_
  · refine trgSample_upd ?_ (sub_of rfl hk) (sub_of rfl hr) hc
    · exact hx6
  · exact hx6

theorem execTriggerRearm_upd {t : Nat} {n : Cluster} {u : Unit8} {s0' : State} (hs0' : Upd K R C s0 s0') (hk : 0x1001 ||| K = K) (hr : 0x20000000000000000000000000000000000000000000000000000000000000000000000000000000000000 ||| R = R) (hc : ∃ c, C n.val c) :
    ResUpd K R C s0 (execTriggerRearm t n u s0') := by
  unfold execTriggerRearm
  extract_lets -merge +onlyGivenNames x5
  have hx6 : Upd K R C s0 x5 := by
    unfold x5
    refine State.at_upd ?_ (sub_of rfl hk)
    · exact hs0'
  try clear_value x5
  refine ResUpd.next ?_
  refine trgRearm_upd ?_ (sub_of rfl hk) (sub_of rfl hr) hc
  · exact hx6

theorem execTriggerRecordWrite_upd {t : Nat} {n : Cluster} {s0' : State} (hs0' : Upd K R C s0 s0') (hk : 0x200000000001003 ||| K = K) (hr : 0x20000000000000000000000000000000000000000000000000000000000000001a800000000000000000000 ||| R = R) (hc : ∃ c, C n.val c) :
    ResUpd K R C s0 (execTriggerRecordWrite t n s0') := by
  unfold execTriggerRecordWrite
  extract_lets -merge +onlyGivenNames x4
  have hx5 : Upd K R C s0 x4 := by
    unfold x4
    refine State.at_upd ?_ (sub_of rfl hk)
    · exact hs0'
  try clear_value x4
  extract_lets -merge +onlyGivenNames x6
  refine ResUpd.next ?_
  split
  · exact hx5
  · refine Upd.ite ?_ ?_
    · exact hx5
    · extract_lets -merge +onlyGivenNames x8
      extract_lets -merge +onlyGivenNames x10
      split
      · exact hx5
      · rename_i y12 he13
        have hy14 := OptUpd.of_eq he13 (K := K) (R := R) (C := C) (s0 := s0) (by
          refine engineWrite_upd ?_ (sub_of rfl hk) (sub_of rfl hr)
          · exact hx5
          )
        extract_lets -merge +onlyGivenNames x15
        refine State.setRf_upd ?_ (testBit_of_sub hr rfl) (RegOk.one rfl hc)
        refine State.setTrig_upd ?_ (sub_of rfl hk) hc
        · exact hy14

theorem execCaptureIntervalEnd_upd {t : Nat} {n : Cluster} {e : Fin 2} {s0' : State} (hs0' : Upd K R C s0 s0') (hk : 0x2001 ||| K = K) (hr : 0x5800000000000000000000000000000000000000000000000000000000000000000000000000000000000000000 ||| R = R) (hc : ∃ c, C n.val c) :
    ResUpd K R C s0 (execCaptureIntervalEnd t n e s0') := by
  unfold execCaptureIntervalEnd
  extract_lets -merge +onlyGivenNames x5
  have hx6 : Upd K R C s0 x5 := by
    unfold x5
    refine State.at_upd ?_ (sub_of rfl hk)
    · exact hs0'
  try clear_value x5
  refine ResUpd.next ?_
  refine cptCatch_upd ?_ (sub_of rfl hk) (sub_of rfl hr) hc
  · exact hx6

theorem execCaptureRecordWrite_upd {t : Nat} {n : Cluster} {e : Fin 2} {s0' : State} (hs0' : Upd K R C s0 s0') (hk : 0x200000000002003 ||| K = K) (hr : 0x688000000000000000000000000000000000000000000000000000000000000000001a800000000000000000000 ||| R = R) (hc : ∃ c, C n.val c) :
    ResUpd K R C s0 (execCaptureRecordWrite t n e s0') := by
  unfold execCaptureRecordWrite
  extract_lets -merge +onlyGivenNames x5
  have hx6 : Upd K R C s0 x5 := by
    unfold x5
    refine State.at_upd ?_ (sub_of rfl hk)
    · exact hs0'
  try clear_value x5
  extract_lets -merge +onlyGivenNames x7
  extract_lets -merge +onlyGivenNames x9
  refine ResUpd.next ?_
  split
  · exact hx6
  · refine Upd.ite ?_ ?_
    · refine State.setRb_upd ?_ (testBit_of_sub hr rfl) (RegOk.one rfl hc)
      refine State.count_upd ?_ (testBit_of_sub hr rfl) (RegOk.awg rfl hc)
      refine State.setCpt_upd ?_ (sub_of rfl hk) hc
      · exact hx6
    · extract_lets -merge +onlyGivenNames x11
      extract_lets -merge +onlyGivenNames x13
      extract_lets -merge +onlyGivenNames x15
      split
      · exact hx6
      · rename_i y17 he18
        have hy19 := OptUpd.of_eq he18 (K := K) (R := R) (C := C) (s0 := s0) (by
          refine engineWrite_upd ?_ (sub_of rfl hk) (sub_of rfl hr)
          · exact hx6
          )
        extract_lets -merge +onlyGivenNames x20
        extract_lets -merge +onlyGivenNames x22
        have hx23 : Upd K R C s0 x22 := by
          unfold x22
          refine State.setRf_upd ?_ (testBit_of_sub hr rfl) (RegOk.awg rfl hc)
          refine State.setCpt_upd ?_ (sub_of rfl hk) hc
          · exact hy19
        try clear_value x22
        refine Upd.ite ?_ ?_
        · refine State.setRb_upd ?_ (testBit_of_sub hr rfl) (RegOk.one rfl hc)
          refine State.setRb_upd ?_ (testBit_of_sub hr rfl) (RegOk.awg rfl hc)
          exact hx23
        · exact hx23

end Sys2Proof.Machine
end

