-- ==== Sys2Proof/Laws/Write.lean ====
section
/-! SUPPORT. Sys2Proof/Laws/Write.lean: what a command that is an accepted write of a register does: the effect of its chapter
on that element, and for a cluster register the end of clock gating (R428, R503 to R508). -/

namespace Sys2Proof.Machine

variable {q : Req} {r : Reg} {i : Nat} {w d set m : Word} {s : State}

/-- The registers of commands lie at whole words, none among the MSI-X tables. -/
theorem cmdRegs_words : cmdRegs.all (fun r => Nat.beq (r.row.base % 4) 0 && Nat.beq (r.row.stride % 4) 0 &&
    (r.row.cluster || (Nat.ble (r.row.base + r.row.count * r.row.stride) 0x1800 || Nat.ble 0x1C08 r.row.base))) = true := by decide +kernel

theorem addr_word (h : r ∈ cmdRegs) : r.addr i % 4 = 0 := by
  have := List.all_eq_true.1 cmdRegs_words r h
  simp only [Bool.and_eq_true] at this
  have h1 := Nat.eq_of_beq_eq_true this.1.1
  have h2 := Nat.eq_of_beq_eq_true this.1.2
  have h3 : ∀ k, k * r.row.stride % 4 = 0 := fun k => by rw [Nat.mul_mod, h2, Nat.mul_zero, Nat.zero_mod]
  have h4 := h3 (r.sub i)
  have h5 := h3 i
  unfold Reg.addr
  split <;> omega

theorem addr_past_tables (h : r ∈ cmdRegs) (hc : r.row.cluster = false) (hi : i < r.size) : ¬ (0x1800 ≤ r.addr i ∧ r.addr i < 0x1C08) := by
  have := List.all_eq_true.1 cmdRegs_words r h
  simp only [hc, Bool.and_eq_true, Bool.or_eq_true, Nat.ble_eq, Bool.false_eq_true, false_or] at this
  have h1 := this.2
  unfold Reg.size at hi
  rw [if_neg (by simp [hc])] at hi
  obtain ⟨h0, hs, -⟩ := cmdRegs_row h
  have h3 : i * r.row.stride + r.row.stride ≤ r.row.count * r.row.stride := by
    have := Nat.mul_le_mul_right r.row.stride (Nat.succ_le_of_lt hi); rwa [Nat.succ_mul] at this
  unfold Reg.addr
  rw [if_neg (by simp [hc])]
  omega

theorem regWrite_done {a : Nat} (h : (regWrite q a w m s).2 = true) :
    ∃ s', regPut q a w m s = .ok s' ∧ (regWrite q a w m s).1 = s' := by
  unfold regWrite at h ⊢
  generalize touched a = t at h ⊢
  generalize regPut q a w m s = x at h ⊢
  cases x with
  | drop => cases h
  | clash => cases h
  | ok s' =>
    refine ⟨s', rfl, ?_⟩
    rcases t with _ | ⟨n, _ | y⟩
    · rfl
    · rfl
    · simp only at h ⊢
      split at h
      · cases h
      · split at h
        · cases h
        · rename_i h1 h2; rw [if_neg h1, if_neg h2]

theorem Accepted.hostWrite (hm : r ∈ cmdRegs) (h : Accepted q r i w s) :
    ∃ s', regPut q (r.addr i) w 0xFFFFFFFF#32 s = .ok s' ∧ hostWrite q (r.addr i) w 0xF#4 4 s = s' := by
  obtain ⟨s', h1, h2⟩ := regWrite_done h.done
  refine ⟨s', h1, ?_⟩
  have hw : hostWakes s = s := by unfold hostWakes; rw [if_neg (by rw [h.awake]; decide)]
  have hb : byteMask 0xF#4 = 0xFFFFFFFF#32 := by decide
  unfold Machine.hostWrite slaveWrite
  simp only [h.served, hw, ite_self, hb, h.unstaged, h.allowed, h.whole, h.awake, addr_word hm]
  simpa using h2

theorem regPut_global {a : Nat} (hr : regAt a = some (r, i)) (h1 : ¬ (0x1800 ≤ a ∧ a < 0x1C08)) (h2 : a < 0x1000000) :
    regPut q a w m s = globalPut q r i w m s := by
  unfold regPut
  rw [if_neg h1, if_neg (by omega), hr]

theorem regPut_cluster {a : Nat} {n : Cluster} (hr : regAt a = some (r, i)) (h1 : 0x1000000 ≤ a ∧ a < 0x2800000)
    (hn : (a - 0x1000000) / 0x100000 = n.val) (h2 : s.rb .ID_CLU_RST 0 n.val = false) :
    regPut q a w m s = (match cluPut q n r i w m s with | .ok s' => .ok (ungate n.val s') | y => y) := by
  have e : padClu ((a - 0x1000000) / 0x100000, 0) = n := Fin.ext (by rw [hn]; exact Nat.mod_eq_of_lt n.isLt)
  unfold regPut
  rw [if_neg (by omega), if_pos h1]
  simp only [e, h2, hr]
  rfl

/-- A command that writes a global register. -/
theorem cmdWrite_global (hm : r ∈ cmdRegs) (hc : r.row.cluster = false) (hi : i < r.size) (h : Accepted q r i (d ||| set) s) :
    ∃ s', globalPut q r i (d ||| set) 0xFFFFFFFF#32 s = .ok s' ∧ cmdWrite q r i d set s = s' := by
  obtain ⟨s', h1, h2⟩ := h.hostWrite hm
  rw [regPut_global (regAt_addr hm hi) (addr_past_tables hm hc hi) (addr_global hm hc hi)] at h1
  exact ⟨s', h1, h2⟩

/-- A command that writes a register of cluster n. -/
theorem cmdWrite_cluster {n : Cluster} (hm : r ∈ cmdRegs) (hc : r.row.cluster = true) (hi : i < r.size) (hn : r.cluOf i = n.val)
    (h : Accepted q r i (d ||| set) s) :
    ∃ s', cluPut q n r i (d ||| set) 0xFFFFFFFF#32 s = .ok s' ∧ cmdWrite q r i d set s = ungate n.val s' := by
  obtain ⟨s', h1, h2⟩ := h.hostWrite hm
  obtain ⟨hw, hq, -⟩ := addr_window hm hc hi
  rw [regPut_cluster (regAt_addr hm hi) hw (hq.trans hn) (hn ▸ h.running hc)] at h1
  generalize cluPut q n r i (d ||| set) 0xFFFFFFFF#32 s = x at h1 ⊢
  cases x with
  | ok s1 => injection h1 with h1; exact ⟨s1, rfl, h2.trans h1.symm⟩
  | drop => cases h1
  | clash => cases h1

end Sys2Proof.Machine
end

