-- ==== Sys2Proof/Laws/Frame.lean ====
section
/-! SUPPORT. Sys2Proof/Laws/Frame.lean: from the masks of a frame lemma (Laws/Frames1.lean to Frames7.lean) to the lists of parts and
registers in which a statement names what changes. -/

namespace Sys2Proof.Machine

variable {K R : Nat} {C : Nat → Nat → Prop} {s0 s : State}

/-- Every part by its number. -/
def allParts : List Part :=
  [.clasp, .mem, .micro, .nano, .libMicro, .libNano, .chans, .bands, .seqs, .hops, .blankAt, .stamps, .trigs, .cpts, .awgs,
   .awgTab, .slcShadow, .slcActive, .slcAt, .slcFrame, .slcCnt, .lotTkt, .lotPend, .lfsrAt, .present, .waiting, .grants,
   .atoms, .cap, .sems, .txns, .msix, .pba, .hiLatch, .ring, .pwr, .boot, .msp, .tap, .boundary, .hist, .gov, .cal, .ramps,
   .refDue, .refLast, .window, .faults, .assay, .life, .lifeHdr, .lifeSlot, .lifeMin, .replaceWait, .patch, .wakes, .owed,
   .msgs, .free, .out]

theorem allParts_mem (p : Part) : p ∈ allParts := by cases p <;> decide

/-- The mask covers no part outside the list. -/
def partsIn (K : Nat) (KL : List Part) : Bool := allParts.all fun p => KL.any (fun q => Nat.beq q.ctorIdx p.ctorIdx) || !K.testBit p.ctorIdx
/-- The mask covers no register outside the list. -/
def regsIn (R : Nat) (RL : List Reg) : Bool := allRegs.all fun r => RL.any (fun q => Nat.beq q.ctorIdx r.ctorIdx) || !R.testBit r.ctorIdx

theorem Part.ctorIdx_inj {p q : Part} (h : p.ctorIdx = q.ctorIdx) : p = q := by cases p <;> cases q <;> first | rfl | cases h

theorem partsIn_spec {KL : List Part} (h : partsIn K KL = true) : ∀ p ∉ KL, K.testBit p.ctorIdx = false := by
  intro p hp
  have := List.all_eq_true.1 h p (allParts_mem p)
  simp only [Bool.or_eq_true, List.any_eq_true, Nat.beq_eq] at this
  rcases this with ⟨q, hq, e⟩ | h
  · exact absurd (Part.ctorIdx_inj e ▸ hq) hp
  · simpa using h

theorem regsIn_spec {RL : List Reg} (h : regsIn R RL = true) : ∀ r ∉ RL, R.testBit r.ctorIdx = false := by
  intro r hp
  have := List.all_eq_true.1 h r (allRegs_mem r)
  simp only [Bool.or_eq_true, List.any_eq_true, Nat.beq_eq] at this
  rcases this with ⟨q, hq, e⟩ | h
  · exact absurd (Reg.ctorIdx_inj e ▸ hq) hp
  · simpa using h

/-- What changed, as lists; both hypotheses hold by evaluation. -/
theorem Upd.frame {KL : List Part} {RL : List Reg} (h : Upd K R C s0 s) (hk : partsIn K KL = true) (hr : regsIn R RL = true) :
    Only KL RL s0 s ∧ Within C s0 s :=
  ⟨h.only (partsIn_spec hk) (regsIn_spec hr), h.within⟩

theorem ResUpd.frame {KL : List Part} {RL : List Reg} (h : ResUpd K R C s0 (.next s)) (hk : partsIn K KL = true) (hr : regsIn R RL = true) :
    Only KL RL s0 s ∧ Within C s0 s := Upd.frame h hk hr

end Sys2Proof.Machine
end

