-- ==== Sys2Proof/Laws/Effects.lean ====
section
/-! SUPPORT. Sys2Proof/Laws/Effects.lean: what the shared operations leave in the records and registers they act on. -/

namespace Sys2Proof.Machine

variable {s : State} {n : Cluster} {c : Channel}

/-! ### Elements, and what a written word holds -/

@[simp] theorem elemCh_chIx : elemCh (chIx n c) = c := by
  unfold elemCh padCh chIx
  exact Fin.ext (by simp only; have := c.isLt; omega)
@[simp] theorem elemGen_awgIx {g : Fin 2} : elemGen (awgIx n g) = g := by
  unfold elemGen awgIx
  exact Fin.ext (by simp only; have := g.isLt; omega)

theorem and_full (d : Word) : d &&& 0xFFFFFFFF#32 = d := by
  apply BitVec.eq_of_getLsbD_eq
  intro i hi
  rw [BitVec.getLsbD_and, show (0xFFFFFFFF#32) = BitVec.allOnes 32 from rfl, BitVec.getLsbD_allOnes]
  simp [hi]
@[simp] theorem ones_full (d : Word) (b : Nat) : ones d 0xFFFFFFFF#32 b = bitOf d b := by unfold ones; rw [and_full]
@[simp] theorem bitOf_or (a b : Word) (i : Nat) : bitOf (a ||| b) i = (bitOf a i || bitOf b i) := by simp [bitOf]
@[simp] theorem bitOf_and (a b : Word) (i : Nat) : bitOf (a &&& b) i = (bitOf a i && bitOf b i) := by simp [bitOf]
/-- A written word: the bits of rw from the data, the others as they were. -/
@[simp] theorem bitOf_mergeRw (old rw d : Word) (i : Nat) (hi : i < 32) :
    bitOf (mergeRw old rw d 0xFFFFFFFF#32) i = if bitOf rw i then bitOf d i else bitOf old i := by
  unfold mergeRw
  simp only [bitOf, BitVec.getLsbD_or, BitVec.getLsbD_and, BitVec.getLsbD_not, and_full, hi, decide_true, Bool.true_and]
  by_cases h : rw.getLsbD i = true <;> simp [h]

theorem bitOf_plainWord (s : State) (r : Reg) (i : Nat) (d : Word) (b : Nat) (hb : b < 32) :
    bitOf (plainWord s r i d 0xFFFFFFFF#32) b =
      ((if bitOf (r.rwOf i) b then bitOf d b else s.rb r i b) && !(bitOf d b && bitOf r.row.w1c b)) := by
  unfold plainWord
  rw [bitOf_and, bitOf_mergeRw _ _ _ _ hb, and_full]
  congr 1
  simp only [bitOf, BitVec.getLsbD_not, BitVec.getLsbD_and, hb, decide_true, Bool.true_and]

/-- A field whose bits are all RW holds what is written. -/
theorem fld_plainWord (s : State) (r : Reg) (i : Nat) (d : Word) (lo len : Nat) (hl : lo + len ≤ 32)
    (h1 : r.rwOf i &&& maskAt lo len = maskAt lo len) (h2 : r.row.w1c &&& maskAt lo len = 0#32) :
    fld (plainWord s r i d 0xFFFFFFFF#32) lo len = fld d lo len := by
  apply Nat.eq_of_testBit_eq
  intro k
  rw [fld_testBit, fld_testBit]
  by_cases hk : k < len
  · have := bitOf_plainWord s r i d (lo + k) (by omega)
    have e1 := congrArg (fun w => bitOf w (lo + k)) h1
    have e2 := congrArg (fun w => bitOf w (lo + k)) h2
    simp only [bitOf, BitVec.getLsbD_and, maskAt_getLsbD, show lo + k < 32 by omega, show lo + k < lo + len by omega,
      Nat.le_add_right, and_self, decide_true, Bool.and_true, BitVec.getLsbD_zero] at e1 e2
    simp only [bitOf, e1, e2] at this
    simp [this]
  · simp [hk]

/-- A bit of a field that is 0. -/
theorem State.rb_of_rf {r : Reg} {i lo len : Nat} (b : Nat) (h : s.rf r i lo len = 0) (h1 : lo ≤ b) (h2 : b < lo + len) : s.rb r i b = false := by
  have := congrArg (fun x => x.testBit (b - lo)) h
  simp only [State.rf, fld_testBit, Nat.zero_testBit, show b - lo < len by omega, show lo + (b - lo) = b by omega, decide_true,
    Bool.true_and] at this
  exact this

/-! ### Measurements and gates -/

theorem endMeas_chan : (endMeas n c s).chan n c =
    { s.chan n c with meas := none, done := (s.chan n c).done ++ ((s.chan n c).meas.map fun m => (m, true)).toList } := by
  unfold endMeas
  generalize hx : (s.chan n c).meas = x
  rcases x with _ | m
  · rcases h : s.chan n c with ⟨⟩
    rw [h] at hx
    simp only at hx
    subst hx
    simp
  · simp
@[simp] theorem endMeas_reg (r : Reg) (i : Nat) : (endMeas n c s).reg r i = s.reg r i := by unfold endMeas; split <;> simp
@[simp] theorem endMeas_rb (r : Reg) (i b : Nat) : (endMeas n c s).rb r i b = s.rb r i b := by simp [State.rb]
@[simp] theorem endMeas_rf (r : Reg) (i b l : Nat) : (endMeas n c s).rf r i b l = s.rf r i b l := by simp [State.rf]
@[simp] theorem endMeas_clasp : (endMeas n c s).clasp = s.clasp := by unfold endMeas; split <;> rfl

theorem putRg_other (ix : Nat) (ws : RgResult) {α : Type} (f : State → α) (hf : ∀ s r i v, f (State.setReg s r i v) = f s) :
    f (putRg ix ws s) = f s := by
  unfold putRg
  generalize rgRegs.zip ws = l
  induction l generalizing s with
  | nil => rfl
  | cons x l ih => simp only [List.foldl_cons, ih, hf]

theorem writeRg_chan (ws : RgResult) : ∃ h, (writeRg n c ws s).chan n c = { s.chan n c with rgHeld := h } := by
  unfold writeRg
  split
  · exact ⟨some ws, by simp⟩
  · refine ⟨(s.chan n c).rgHeld, ?_⟩
    rw [putRg_other _ _ (fun s => s.chan n c) (fun _ _ _ _ => rfl)]

/-- The gate is over, or the next of a series waits after causes 1 and 2. -/
theorem endGate_chan (cause : Nat) (stop : Bool) : ∃ g h, (endGate n c cause stop s).chan n c = { s.chan n c with gate := g, rgHeld := h } ∧
    (cause ≠ 1 → cause ≠ 2 → g = none) := by
  unfold endGate
  generalize hx : (s.chan n c).gate = x
  rcases x with _ | g
  · refine ⟨none, (s.chan n c).rgHeld, ?_, fun _ _ => rfl⟩
    rcases h : s.chan n c with ⟨⟩
    rw [h] at hx
    simp only at hx
    subst hx
    rfl
  · have hw : ∀ ws, (writeRg n c ws { s with free := s.free + 10 }).chan n c =
        { s.chan n c with rgHeld := ((writeRg n c ws { s with free := s.free + 10 }).chan n c).rgHeld } := fun ws => by
      obtain ⟨h, e⟩ := writeRg_chan (s := { s with free := s.free + 10 }) (n := n) (c := c) ws
      rw [e]; rfl
    dsimp -zeta only
    extract_lets ix valid nores ws goes stat s1 s2
    have h2 : s2.chan n c = (writeRg n c ws { s with free := s.free + 10 }).chan n c := rfl
    split
    · rename_i hg
      refine ⟨some (newGate g.g1 (g.g1 + rgGlen s ix) true), (s2.chan n c).rgHeld, ?_, fun h1 h2 => absurd hg (by simp [goes, h1, h2])⟩
      simp only [State.setPair, State.chan_setReg, State.chan_modChan, h2]
      rw [hw ws]
    · refine ⟨none, (s2.chan n c).rgHeld, ?_, fun _ _ => rfl⟩
      simp only [State.chan_modChan, h2]
      rw [hw ws]

/-! ### Safe state (R36) -/

theorem forcedSafe_chan : ∃ g h, (forcedSafe n c s).chan n c =
    { s.chan n c with meas := none, done := (s.chan n c).done ++ ((s.chan n c).meas.map fun m => (m, true)).toList,
                      gate := none, rgHeld := h, sw := if (s.chan n c).sw = .opened then .opened else .opening,
                      drvOn := false, safeC := g } := by
  obtain ⟨g, h, e, hg⟩ := endGate_chan (s := endMeas n c s) (n := n) (c := c) 5 false
  refine ⟨s.clasp / 80 + 1, h, ?_⟩
  have hc : (endGate n c 5 false (endMeas n c s)).clasp = s.clasp := by
    have := (endGate_upd (C := fun _ _ => True) (n := n) (c := c) (cause := 5) (stop := false)
      (Upd.refl (s := endMeas n c s)) (Nat.or_self _) (Nat.or_self _) trivial).parts .clasp (by decide)
    simpa [Part.same] using this
  simp [forcedSafe, clearClamp, State.setRf, State.setRb, State.modChan, e, endMeas_chan, hg]

theorem forcedSafe_regs (r : Reg) (i : Nat) (h : r ∉ .CH_CTRL :: .CH_PM_CTRL :: .CH_EVT :: .CH_PM_STAT :: gateRegs) :
    (forcedSafe n c s).reg r i = s.reg r i := by
  have := forcedSafe_upd (C := fun _ _ => True) (n := n) (c := c) (Upd.refl (s := s)) (Nat.or_self _) (Nat.or_self _) trivial
  exact (this.frame (KL := [.chans, .free]) (by decide +kernel) (by decide +kernel)).1.regs r i h
@[simp] theorem forcedSafe_clasp : (forcedSafe n c s).clasp = s.clasp := by
  have := (forcedSafe_upd (C := fun _ _ => True) (n := n) (c := c) (Upd.refl (s := s)) (Nat.or_self _) (Nat.or_self _) trivial).parts .clasp (by decide)
  simpa [Part.same] using this
@[simp] theorem forcedSafe_msgs : (forcedSafe n c s).msgs = s.msgs := by
  have := (forcedSafe_upd (C := fun _ _ => True) (n := n) (c := c) (Upd.refl (s := s)) (Nat.or_self _) (Nat.or_self _) trivial).parts .msgs (by decide)
  simpa [Part.same] using this
/-- CONNECT, DRV_EN and INACT are 0, SAFE_FORCED is set. -/
@[simp] theorem forcedSafe_ctrl : (forcedSafe n c s).rf .CH_CTRL (chIx n c) 0 4 = 0 := by
  simp [forcedSafe, clearClamp, State.setRf, State.setRb, State.modChan, State.rb, State.rf, State.reg_setReg, bitOf_putFld, fld_putFld_ne, fld_putBit_ne]
@[simp] theorem forcedSafe_evt : (forcedSafe n c s).rb .CH_EVT (chIx n c) 6 = true := by
  simp [forcedSafe, clearClamp, State.setRf, State.setRb, State.modChan, State.rb, State.rf, State.reg_setReg, bitOf_putFld, fld_putFld_ne, fld_putBit_ne]

theorem forcedSafe_ctrl_any (c' : Channel) (h : s.rf .CH_CTRL (chIx n c) 0 4 = 0) :
    (forcedSafe n c' s).rf .CH_CTRL (chIx n c) 0 4 = 0 := by
  by_cases e : c = c'
  · subst e; exact forcedSafe_ctrl
  · have := (forcedSafe_upd (C := atChannel n c') (Upd.refl (s := s)) (Nat.or_self _) (Nat.or_self _) ⟨rfl, rfl⟩).within.chanRegs
      .CH_CTRL n.val c.val rfl rfl c.isLt (fun x => e (Fin.ext x.2))
    unfold State.rf at h ⊢
    rw [show chIx n c = n.val * 32 + c.val from rfl] at h ⊢
    rw [this, h]

/-- Every channel of a cluster forced safe has CONNECT, DRV_EN and INACT 0. -/
theorem forceCluster_ctrl : (forceCluster n s).rf .CH_CTRL (chIx n c) 0 4 = 0 := by
  have key : ∀ (l : List Channel) (s : State), (c ∈ l ∨ s.rf .CH_CTRL (chIx n c) 0 4 = 0) →
      (l.foldl (fun s c => forcedSafe n c s) s).rf .CH_CTRL (chIx n c) 0 4 = 0 := by
    intro l
    induction l with
    | nil => intro s h; simpa using h
    | cons x l ih =>
      intro s h
      rw [List.foldl_cons]
      apply ih
      rcases h with h | h
      · rcases List.mem_cons.1 h with rfl | h
        · exact .inr forcedSafe_ctrl
        · exact .inl h
      · exact .inr (forcedSafe_ctrl_any x h)
  exact key _ s (.inl (List.mem_finRange c))

/-! ### Bands (R134 to R138) -/

theorem bandNote_active : activeBand (bandNote n s) n = activeBand s n := by
  unfold bandNote
  split
  · rfl
  · extract_lets p s1
    have h1 : activeBand s1 n = activeBand s n := by
      simp [s1, activeBand, State.rf, State.setRf, State.setRb, fld_putFld_ne, fld_putBit_ne]
    split
    · rw [← h1]; simp [activeBand, State.rf, State.setRb, fld_putBit_ne]
    · split
      · exact h1
      · exact h1

theorem bandNote_rec : (bandRec (bandNote n s) n).1 = (bandRec s n).1 := by
  unfold bandNote
  split
  · rfl
  · rename_i b hb
    extract_lets p s1
    have h1 : bandRec s1 n = bandRec s n := rfl
    split
    · rfl
    · split
      · rw [h1]
      · rw [hb]; simp [bandRec, setBandRec]

/-! ### Self-checks (R70) -/

theorem checkEnd_selfchk (low pass : Bool) : (checkEnd n c low pass s).reg .CH_SELFCHK (chIx n c) =
    putFld (s.reg .CH_SELFCHK (chIx n c)) (if low then 6 else 4) 2 (if pass then 1 else 2) := by
  cases low <;> cases pass <;> simp [checkEnd, enterUnres, State.setRf, State.setRb, State.modChan, State.trigEvent, State.reg_setReg]

end Sys2Proof.Machine
end

