-- ==== Sys2Proof/WellFormed.lean ====
section
/-! DEFINITION. Sys2Proof/WellFormed.lean: which commands the surroundings of the FA-768 can give at all. The operand types
leave out most of what cannot be (a cluster 24, a channel 32); the checks here leave out the rest. No command is refused for
failing one: exec answers a next state for every command, and a command that cannot come leaves most of the state as it is. -/

namespace Sys2Proof

/-- An access moves at least one byte, and stays within the 64 MiB window that Millpond and its aliases fill (R328, R360). -/
def MillOp.fits (x : MillOp) (a : Nat) : Bool :=
  let len := match x with | .read n => n | .write b => b.length | .atomic _ b => b.length
  decide (0 < len) && decide (a + len ≤ 67108864)

/-- Why no surroundings give this command, or none if they can. -/
def Instr.illFormed (i : Instr) : Option String :=
  match i with
  | .registerWrite _ _ _ _ _ size => if 1 ≤ size ∧ size ≤ 4096 then none else some "size"
  | .capPoll _ reply => if reply.length = 2 then none else some "reply"
  | .millraceAccess _ _ x a rivals =>
    if !x.fits a then some "access"
    else if !rivals.all (fun r => r.2.1.fits r.2.2) then some "rival access"
    else if !decide ((rivals.map fun r => r.1).Nodup) then some "one access for each rival"
    else none
  | .bar2Read _ _ a len => if (MillOp.read len).fits a then none else some "access"
  | .bar2Write _ _ a bytes => if (MillOp.write bytes).fits a then none else some "access"
  | .linkUp _ _ rate width =>
    if ¬(1 ≤ rate ∧ rate ≤ 4) then some "rate" else if width = 1 ∨ width = 2 ∨ width = 4 then none else some "width"
  | .ringSlot _ slot _ => if slot.length = 32 then none else some "slot"
  | .refclkWindow _ count => if count < 16384 then none else some "count"
  | .rootJudgement _ count => if count < 1048576 then none else some "count"
  | .sensorConversion _ _ reading =>
    (match reading with
      | .temp x => if -32768 ≤ x ∧ x < 32768 then none else some "reading"
      | .invalid _ => none)
  | .refCalibration _ microvolt => if microvolt < 4294967296 then none else some "microvolt"
  | .bootStart _ _ slots => if slots.length = 4 then none else some "slots"
  | .psmFrameDone _ rx => if 1 ≤ rx.length ∧ rx.length ≤ 32 then none else some "rx"
  | .mspFrame _ _ _ _ k bits => if bits.toNat < 2 ^ k.val then none else some "bits"
  | .safeRequest .. | .safeEntryComplete .. | .switchClose .. | .switchClosed .. | .switchOpen .. | .drvOc ..
  | .levelSetSelect .. | .lvlSettled .. | .cmpConfigWrite .. | .comparatorResolve .. | .comparatorEdge ..
  | .blankTimerStart .. | .blankTimerExpire .. | .blankWindowEnd .. | .selfchkStart .. | .selfchkDone ..
  | .pmForceEnable .. | .pmRangeChange .. | .pmRangeSettled .. | .pmSettingWrite .. | .pmStart .. | .pmCont ..
  | .pmConversionDone .. | .pmMeasDone .. | .pmMeasEndEarly .. | .pmClampBegin .. | .pmOc .. | .pmResRead ..
  | .timingEdge .. | .timingDllLock .. | .timingDllUnlock .. | .bandEvaluate .. | .bandStale .. | .bandSwitch ..
  | .vec .. | .mvec .. | .hset .. | .jmp .. | .call .. | .ret .. | .ldc .. | .loop .. | .jm .. | .jnm .. | .jf ..
  | .jnf .. | .clrf .. | .csel .. | .rpt .. | .wtrig .. | .wct .. | .hold .. | .rmark .. | .rbeg .. | .runw ..
  | .sel .. | .wri .. | .wrn .. | .mst .. | .mwait .. | .stop .. | .illegalWord .. | .storeWrite .. | .storeRead ..
  | .seqStart .. | .seqAbort .. | .seqRelease .. | .seqRunStart .. | .vectorIssue .. | .stallEnd ..
  | .vectorComplete .. | .logRecordWrite .. | .patternEnd .. | .hopperEnable .. | .hopperDescriptor ..
  | .hopperChunk .. | .hopperFlush .. | .routineInterrupt .. | .resume .. | .abandon .. | .routineResultWrite ..
  | .patchGo .. | .patchVerified .. | .patchCancel .. | .patchApply .. | .stampDllLock .. | .stampDllUnlock ..
  | .coarseWrap .. | .stampRecordWrite .. | .rgStart .. | .rgStop .. | .rgGateOpen .. | .rgGateEnd ..
  | .rgStatRead .. | .triggerEvaluate .. | .triggerRearm .. | .triggerArm .. | .triggerDisarm ..
  | .triggerRecordWrite .. | .captureStart .. | .captureStop .. | .captureIntervalEnd .. | .captureRecordWrite ..
  | .awgStart .. | .awgRunStart .. | .awgStop .. | .awgCommitPoint .. | .awgPassEnd .. | .awgFetch ..
  | .awgJumpRequest .. | .awgTableWrite .. | .ddsRegWrite .. | .auxScTimeout .. | .auxRecon .. | .awgClrAssert ..
  | .awgClrRelease .. | .capGo .. | .capCheckDone .. | .capAbort .. | .capRecordStart .. | .capTimeout ..
  | .capRecordEnd .. | .capDlogWrite .. | .capFinish .. | .lotteryBackoffEnd .. | .bankOwnWrite ..
  | .bankHandoverDone .. | .bankStateWrite .. | .bankStateDone .. | .slcDataAccess .. | .sluiceCommit ..
  | .sluiceApply .. | .lotCommit .. | .lfsrReseed .. | .semAcq .. | .semRel .. | .calSemAcquire .. | .dmaEnable ..
  | .dmaDescriptor .. | .dmaHostTimeout .. | .mgmtOwnerWrite .. | .domainReset .. | .d3hotEntry .. | .txnBegin ..
  | .txnCommit .. | .txnCommitCycle .. | .txnRollback .. | .ringEnable .. | .ringBypassChange .. | .ringStart ..
  | .ringAbort .. | .ringAbortRequest .. | .ringTrigger .. | .ringTime .. | .ringAcc .. | .ringResid ..
  | .ringHealth .. | .ringRoundStart .. | .ringRecal .. | .ringLoopReturn .. | .ringStepApply ..
  | .ringRoundTimeout .. | .ringMsgRetry .. | .heartbeatSend .. | .heartbeatLost .. | .pllLock .. | .aonSwitch ..
  | .sleepRequest .. | .autoSleep .. | .sleepEnter .. | .wake .. | .clusterGate .. | .railFault .. | .por ..
  | .warmReset .. | .shutdown .. | .governorStop .. | .nomBudgetWrite .. | .refcal .. | .calCertWrite ..
  | .trimWrite .. | .trimRampStep .. | .calReq .. | .calDue .. | .calStepStart .. | .calStepEnd ..
  | .calStepAbandon .. | .calDeadlineInterrupt .. | .faultMessage .. | .faultWindowClose .. | .faultRecover ..
  | .faultInject .. | .bezel .. | .assayRequest .. | .assayRunStart .. | .assayOutcome .. | .retireWrite ..
  | .lifeRecordWrite .. | .bootComplete .. | .psmFrame .. | .mspWinRd .. | .mspWinWr .. | .mspWinAccess ..
  | .inSend .. | .outAck .. | .inAck .. | .outSend .. | .eventMessage .. | .idLock .. | .extest ..
  | .samplePreload .. | .idcode .. | .highz .. | .clamp .. | .bypass .. | .d3hotExit .. | .loRegisterRead ..
  | .awgSampleBoundary .. | .auxCurrentLimit .. | .internalOscillatorFail .. | .railReturnInRange .. | .pwrgdRise ..
  | .testLogicReset .. | .powerOnMinute .. | .patchApplied .. | .clusterResetEnd .. | .calInterruptEnd .. => none

/-- The surroundings can give this command. -/
def Instr.wf (i : Instr) : Bool := i.illFormed.isNone

end Sys2Proof
end

