-- ==== Sys2Proof/Tests/Slice0.lean ====
section
/-! SUPPORT. Sys2Proof/Tests/Slice0.lean: small tests. What each expects is the manual's: a worked example, a table or a rule, named
in its comment. At the end, for every statement with hypotheses, one theorem that shows for each of its clauses a state and
operands that meet all of them. -/

open Sys2Proof Sys2Proof.Machine

namespace Sys2Proof.Machine.Wit
/-- The state after an outcome; reset where it is no next state. -/
def after (r : Res) : State := match r with | .next s => s | _ => State.reset
/-- The part active, served by host 0, which owns everything; cluster 0 of it. -/
def up : State :=
  ((((({ State.reset with pwr := { por := false, stable := true } }).setReg .CLK_STAT 0 4#32).setReg .PWR_STAT 0 2#32).setReg .HL_STAT 0 1#32).setReg
    .DOM_MGMT 0 0#32).setReg .DOM_CLU 0 0#32
/-- Channel 3 of cluster 0 drives from the pattern path. -/
def driveSt : State := (up.setReg .CH_CTRL 3 0x13#32).setChan 0 3 { sw := .closed, drvOn := true }
/-- A parametric budget on cluster 0. -/
def pmSt : State := (up.setReg .CL_PM_IBUD 0 0xFFFFFFFF#32).setReg .CL_PM_PBUD 0 0xFFFFFFFF#32
/-- A finished measurement of two samples, started by an MST. -/
def meas1 : Meas :=
  { t0 := 0, delay := 0, need := 2, aper := 64, got := 2, sum := -5, ovr := false, settling := true, clamped := false,
    tok := some ⟨7, 2, 1, true⟩, stale := false }
/-- A running sequencer, its timing DLL locked. -/
def runSt : State := (up.setReg .CL_SEQ_STAT 0 2#32).setReg .CL_TIM_STAT 0 1#32
/-- Channel 3 of a running cluster may drive, its comparators are on, one vector is in flight, the edges are pending. -/
def edgeSt (es : List PEdge) : State :=
  ((runSt.setReg .CH_CTRL 3 0x13#32).setChan 0 3 { sw := .closed }).setSeq 0
    { edges := es, seqNo := 1,
      infl := [⟨0, 0, .vec, ⟨false, 8⟩, 0, 4096, 0xFFFFFFFF#32, 0, true, false, false, [], []⟩] }
/-- A front end at word 8 of the user store. -/
def feStart : FE := { freshFE 8 with pc := ⟨false, 8⟩ }
/-- A running sequencer whose record is q, its front end on at word 8 of the user store, which holds m. -/
def feSt (m : Micro) (q : Seq) : State :=
  (runSt.setMicroAt 0 8 { w := encodeMicro m }).setSeq 0 { q with feOn := true, fe := { q.fe with pc := ⟨false, 8⟩ } }
/-- A vector of a kind that ended at tick 8, with compare results res. -/
def vecOf (k : VKind) (res : List (Nat × Nat)) : Vec :=
  ⟨0, 0, k, ⟨false, 8⟩, 0, 4096, 0xFFFFFFFF#32, 0, true, false, false, res, []⟩
/-- Cluster 0's Hopper is enabled and served at bank 0, which it owns; its ring at 0 holds a descriptor of 10 microwords. -/
def hopSt : State :=
  (((({ up with slcActive := [(0, 1)] }.setReg .BANK_OWN 0 0#32).setReg .CL_HOP_CTRL 0 1#32).setReg .CL_HOP_TAIL 0 1#32).setReg
    .CL_HOP_RSIZE 0 4#32).setBytes 0 (leBytes 4 64 ++ leBytes 4 10)
/-- A routine at its mark, with an unwind address. -/
def rtn1 : Rtn :=
  ⟨9, 1000, 3, { feStart with ctrs := [1, 2, 3, 4, 5, 6, 7, 8] }, 0x18#32, some ⟨false, 33⟩, true, true⟩
/-- An idle sequencer with a held context of rtn1, whose digest was d. -/
def ctxSt (d : Word) : State :=
  (((up.setReg .CL_TIM_STAT 0 1#32).setReg .CL_MR_STAT 0 0x2003#32).setReg .CL_MR_DIGEST 0 d).setSeq 0
    { ctx := some ⟨feStart, true, false, rtn1⟩ }
/-- A test record of kind k that passes and fails to the end, with bins 7 and 2, a timeout of 1000 ticks, gate length 80000. -/
def flowRecord (k : Nat) : List Byte :=
  leBytes 1 k ++ leBytes 1 0 ++ leBytes 2 77 ++ leBytes 4 0xFFFFFFFF ++ leBytes 4 0 ++ [7#8, 2#8] ++ leBytes 2 0 ++ leBytes 2 0 ++
    leBytes 2 0 ++ leBytes 12 0 ++ leBytes 8 80000 ++ leBytes 24 0
/-- Cap owns bank 0, which holds a flow of one record of kind k and a map of one site: channel 3 of cluster 0. -/
def capSt (k : Nat) : State :=
  let rec_ := flowRecord k
  let hdr := leBytes 4 0x574F4C46 ++ leBytes 2 1 ++ leBytes 2 1 ++ leBytes 4 0 ++ leBytes 4 64 ++ leBytes 4 128 ++ leBytes 8 80000 ++
    [5#8, 3#8] ++ leBytes 2 0 ++ leBytes 4 (crc32 rec_).toNat ++ leBytes 28 0
  let map := leBytes 1 1 ++ leBytes 1 0 ++ leBytes 2 9 ++ leBytes 12 0 ++ leBytes 4 8 ++ leBytes 12 0
  ((((up.setReg .BANK_OWN 0 40#32).setReg .CAP_MAP_BASE 0 64#32).setReg .CAP_MAP_CNT 0 1#32).setBytes 0 (hdr ++ rec_)).setBytes 4096 map
/-- Site 0 as the map gives it, running. -/
def site0 : CapSite :=
  { valid := true, label := 9, parts := [(0, 8#32)], active := true, next := 0, bins := none, failed := false, untested := none, last := 0,
    test := 0, ended := none }
/-- A flow over record kind k, its site's next record 0. -/
def flowSt (k : Nat) : State :=
  { ((capSt k).setReg .CAP_STAT 0 3#32).setPair .CAP_TF_LO .CAP_TF_HI 0 80000 with
    cap := { clusters := 1#32, nrec := 1, recAt := 64, limAt := 128, lead := 80000, defS := 5, defH := 3, sites := [site0] } }
/-- The record in progress of a flow of kind k. -/
def run0 (k : Nat) : CapRun :=
  { r := 0, t := 80000, bytes := flowRecord k, clus := [(0, none)], later := [], timedOut := false }
/-- A flow with its record in progress. -/
def inRun (k : Nat) : State := { flowSt k with cap := { (flowSt k).cap with run := some (run0 k) } }
/-- A slot of part 4 with line fields ls and a message of a type, from part 9 with SEQNO 2 (R390). -/
def slotOf (ls : List (Nat × Nat)) (type : Nat) : List Byte :=
  slotBytes (State.reset.setReg .RING_CFG 0 4#32) 1 0 ((List.range 8).map fun k => tabGet 0 ls k) ⟨type, if type = 0 then 0 else 9, if type = 0 then 0 else 2, leBytes 8 0⟩ false
/-- The part as boot is due: STATE is BOOT. -/
def bootSt : State :=
  ({ State.reset with pwr := { por := false, stable := true } }.setReg .CLK_STAT 0 4#32).setReg .PWR_STAT 0 1#32
/-- An image of one section of a type, for byte `dest` of Millpond, with FLAGS f and owner 1 (R489, R490). -/
def imageOf (type dest f : Nat) (bytes : List Byte) : List Byte :=
  let tab := leBytes 4 type ++ leBytes 4 88 ++ leBytes 4 bytes.length ++ leBytes 4 (crc32 bytes).toNat ++ leBytes 4 dest ++ leBytes 4 0
  let hdr := leBytes 4 0x5849524E ++ leBytes 2 1 ++ leBytes 2 1 ++ leBytes 4 (88 + bytes.length) ++ leBytes 2 7 ++ leBytes 2 9 ++
    leBytes 1 f ++ leBytes 1 1 ++ leBytes 2 0
  hdr ++ leBytes 4 (crc32 (hdr ++ tab)).toNat ++ leBytes 40 0 ++ tab ++ bytes
end Sys2Proof.Machine.Wit

section
set_option Elab.async false

/-! ### Commands that cannot come -/

theorem test_ill_formed_size : (Instr.registerWrite 0 0 0#26 0#32 15#4 0).wf = false ∧ (Instr.registerWrite 0 0 0#26 0#32 15#4 4).wf = true := by decide
theorem test_ill_formed_reply : (Instr.capPoll 0 [1#8]).wf = false := by decide
theorem test_ill_formed_access : (Instr.millraceAccess 0 .cap (.read 0) 0 []).wf = false := by decide
theorem test_ill_formed_rival : (Instr.millraceAccess 0 .cap (.read 16) 0 [(1, .read 16, 67108864)]).wf = false := by decide
theorem test_ill_formed_rivals :
    (Instr.millraceAccess 0 .cap (.read 16) 0 [(1, .read 16, 0), (1, .read 16, 16)]).wf = false := by decide
theorem test_ill_formed_bar2_read : (Instr.bar2Read 0 0 67108863 2).wf = false := by decide
theorem test_ill_formed_bar2_write : (Instr.bar2Write 0 0 0 []).wf = false := by decide
theorem test_ill_formed_rate : (Instr.linkUp 0 0 5 4).wf = false := by decide
theorem test_ill_formed_width : (Instr.linkUp 0 0 4 3).wf = false ∧ (Instr.linkUp 0 0 4 4).wf = true := by decide
theorem test_ill_formed_slot : (Instr.ringSlot 0 [0xBC#8] 0).wf = false := by decide
theorem test_ill_formed_window_count : (Instr.refclkWindow 0 16384).wf = false := by decide
theorem test_ill_formed_judgement_count : (Instr.rootJudgement 0 1048576).wf = false := by decide
theorem test_ill_formed_reading : (Instr.sensorConversion 0 0 (.temp 32768)).wf = false := by decide
theorem test_ill_formed_microvolt : (Instr.refCalibration 0 4294967296).wf = false := by decide
theorem test_ill_formed_slots : (Instr.bootStart 0 [] [[]]).wf = false := by decide
theorem test_ill_formed_rx : (Instr.psmFrameDone 0 []).wf = false := by decide
theorem test_ill_formed_bits : (Instr.mspFrame 0 false 0#8 [] 3 8#8).wf = false := by decide

/-! ### Addresses of worked examples -/

/-- Chapter 4: CL_TS_PER[5], D2 of channel 9 in set 6, its fixture delay, its correction in band B2, in cluster 4. -/
theorem test_timing_addresses :
    regAt 0x01400E14 = some (.CL_TS_PER, 4 * 64 + 5) ∧ regAt 0x014052E0 = some (.EDGE_TAB, 4 * 12288 + 192 * 6 + 6 * 9 + 2) ∧
      regAt 0x01414F24 = some (.FIX_TAB, 4 * 32 + 9) ∧ regAt 0x014146E0 = some (.CORR_TAB, 4 * 960 + 192 * 2 + 6 * 9 + 2) := by decide +kernel

/-- Chapter 10: CL_AWG_TIDX of generator 0 of cluster 10. -/
theorem test_awg_address : regAt 0x01A19020 = some (.CL_AWG_TIDX, 20) := by decide +kernel

/-- Chapter 19: CH_EVT_EN of channel 69, EVT_ROUTE[93], EVT_PEND[0][2]. -/
theorem test_event_addresses :
    regAt 0x012012A4 = some (.CH_EVT_EN, 69) ∧ regAt 0x4974 = some (.EVT_ROUTE, 93) ∧ regAt 0x4208 = some (.EVT_PEND0, 2) := by decide +kernel

/-! ### Single steps -/

section
open Wit

/-- On an empty queue the block idles. -/
theorem test_idle : step State.reset = .next State.reset := rfl

/-- R46: a driver overcurrent turns the driver off. -/
theorem test_drv_oc : ((after (exec (.drvOc 100 0 3) driveSt)).chan 0 3).drvOn = false := by decide +kernel

/-- R81: a voltage code above 840,000 sets RANGE_LIM. -/
theorem test_force_code_limit :
    (after (exec (.pmSettingWrite 100 0 0 3 .fv 840001#32) pmSt)).rb .CH_EVT 3 22 = true := by decide +kernel

/-- Chapter 12: SLC_COMMIT.GO at 10,000,080 ticks acts at frame 4,883, FABRIC cycle 1,250,048. -/
theorem test_sluice_frame :
    (after (exec (.sluiceCommit 10000080 0 1#32) up)).slcAt = some 1250048 := by decide +kernel

/-- Chapter 15: a window of 10,000 REFCLK edges passes, and the PLL starts. -/
theorem test_refclk_window :
    (after (exec (.refclkWindow 0 10000) { State.reset with pwr := { por := false } })).pwr.acquiring = true := by decide +kernel

/-- Chapter 18: a controller sets WIN_ADDR to CAP_STAT; a command byte cut off after 7 bits does nothing but set PART; the read is
then asked for. -/
def mspExample : State :=
  let f := fun (s : State) (i : Instr) => after (exec i s)
  f (f (f (up.setReg .BOOT_STAT 0 0x100#32) (.mspFrame 0 false 8#8 [4#8, 0#8, 1#8, 0#8] 0 0#8)) (.mspFrame 0 false 0x10#8 [] 7 0#8))
    (.mspFrame 0 false 4#8 [2#8] 0 0#8)
theorem test_msp_address : mspExample.msp = { winAddr := 0x00010004#32 } := by decide +kernel
theorem test_msp_read : (after (exec (.mspFrame 0 false 0x10#8 [1#8] 0 0#8) mspExample)).msp.cmd = some false := by decide +kernel

/-- Chapter 19: an overcurrent of channel 5 of cluster 2, routed to vector 5 of H0: its event message sets EVT_PEND[0][2]. -/
theorem test_overcurrent_interrupt :
    (after (exec (.eventMessage 0 0 93) (((up.setReg .CH_EVT 69 8#32).setReg .CH_EVT_EN 69 8#32).setReg .EVT_ROUTE 93 0x501#32))).reg
      .EVT_PEND0 2 = 0x20000000#32 := by decide +kernel

/-- R503: a write to a reserved address changes nothing. -/
theorem test_reserved_write : after (exec (.registerWrite 0 0 0x3C#26 5#32 15#4 4) up) = up := by decide +kernel

end

/-! ### What the statements are about exists -/

/-- A channel's bytes in the digest, at reset: level, comparator, blanking, PM registers of R206's list. -/
def Wit.block : List Byte :=
  List.replicate 20 0#8 ++ [64#8, 13#8, 3#8, 0#8, 0#8, 0#8, 0#8, 0#8, 32#8, 161#8, 7#8, 0#8, 32#8, 161#8, 7#8, 0#8, 64#8, 209#8, 12#8, 0#8,
    64#8, 156#8, 0#8, 0#8, 1#8, 0#8, 0#8, 0#8]
theorem test_block_crc_1 :
    Wit.block.foldl crcByte 0xFFFFFFFF#32 = 2671323546#32 ∧
      Wit.block.foldl crcByte 2671323546#32 = 251495414#32 ∧
      Wit.block.foldl crcByte 251495414#32 = 340258114#32 ∧
      Wit.block.foldl crcByte 340258114#32 = 755447450#32 ∧
      Wit.block.foldl crcByte 755447450#32 = 789417253#32 ∧
      Wit.block.foldl crcByte 789417253#32 = 437543154#32 ∧
      Wit.block.foldl crcByte 437543154#32 = 537813026#32 ∧
      Wit.block.foldl crcByte 537813026#32 = 351928607#32 :=
  ⟨by decide +kernel, by decide +kernel, by decide +kernel, by decide +kernel, by decide +kernel, by decide +kernel, by decide +kernel, by decide +kernel⟩
theorem test_block_crc_2 :
    Wit.block.foldl crcByte 351928607#32 = 1822678731#32 ∧
      Wit.block.foldl crcByte 1822678731#32 = 849073081#32 ∧
      Wit.block.foldl crcByte 849073081#32 = 3826157928#32 ∧
      Wit.block.foldl crcByte 3826157928#32 = 2765776365#32 ∧
      Wit.block.foldl crcByte 2765776365#32 = 176169743#32 ∧
      Wit.block.foldl crcByte 176169743#32 = 1008066456#32 ∧
      Wit.block.foldl crcByte 1008066456#32 = 539536597#32 ∧
      Wit.block.foldl crcByte 539536597#32 = 1343704790#32 :=
  ⟨by decide +kernel, by decide +kernel, by decide +kernel, by decide +kernel, by decide +kernel, by decide +kernel, by decide +kernel, by decide +kernel⟩
theorem test_block_crc_3 :
    Wit.block.foldl crcByte 1343704790#32 = 4192554938#32 ∧
      Wit.block.foldl crcByte 4192554938#32 = 3490282123#32 ∧
      Wit.block.foldl crcByte 3490282123#32 = 264982882#32 ∧
      Wit.block.foldl crcByte 264982882#32 = 3818937850#32 ∧
      Wit.block.foldl crcByte 3818937850#32 = 2236619680#32 ∧
      Wit.block.foldl crcByte 2236619680#32 = 466007903#32 ∧
      Wit.block.foldl crcByte 466007903#32 = 3657207680#32 ∧
      Wit.block.foldl crcByte 3657207680#32 = 2834876360#32 :=
  ⟨by decide +kernel, by decide +kernel, by decide +kernel, by decide +kernel, by decide +kernel, by decide +kernel, by decide +kernel, by decide +kernel⟩
theorem test_block_crc_4 :
    Wit.block.foldl crcByte 2834876360#32 = 2711519093#32 ∧
      Wit.block.foldl crcByte 2711519093#32 = 3398700458#32 ∧
      Wit.block.foldl crcByte 3398700458#32 = 2712954253#32 ∧
      Wit.block.foldl crcByte 2712954253#32 = 3219350134#32 ∧
      Wit.block.foldl crcByte 3219350134#32 = 1314629256#32 ∧
      Wit.block.foldl crcByte 1314629256#32 = 3033158946#32 ∧
      Wit.block.foldl crcByte 3033158946#32 = 4061280292#32 ∧
      Wit.block.foldl crcByte 4061280292#32 = 1809075585#32 :=
  ⟨by decide +kernel, by decide +kernel, by decide +kernel, by decide +kernel, by decide +kernel, by decide +kernel, by decide +kernel, by decide +kernel⟩

/-- R206: the digest of 32 channels at reset. -/
theorem test_digest_of_reset_channels (s : State)
    (h : ∀ c : Channel, (digestRegs.flatMap fun r =>
      leBytes 4 (if r = .CH_CTRL then chCtrlRead s 0 c else s.reg r (chIx (0 : Cluster) c)).toNat) = Wit.block) :
    digest s 0 = 2485891710#32 := by
  have hl : List.finRange 32 = ([0, 1, 2, 3, 4, 5, 6, 7, 8, 9, 10, 11, 12, 13, 14, 15, 16, 17, 18, 19, 20, 21, 22, 23, 24, 25, 26, 27, 28, 29,
    30, 31] : List (Fin 32)) := by decide
  obtain ⟨a1, a2, a3, a4, a5, a6, a7, a8⟩ := test_block_crc_1
  obtain ⟨b1, b2, b3, b4, b5, b6, b7, b8⟩ := test_block_crc_2
  obtain ⟨c1, c2, c3, c4, c5, c6, c7, c8⟩ := test_block_crc_3
  obtain ⟨d1, d2, d3, d4, d5, d6, d7, d8⟩ := test_block_crc_4
  have key : ∀ F : Word → Word, F 0xFFFFFFFF#32 = 2671323546#32 → F 2671323546#32 = 251495414#32 → F 251495414#32 = 340258114#32 → F 340258114#32 = 755447450#32 → F 755447450#32 = 789417253#32 → F 789417253#32 = 437543154#32 → F 437543154#32 = 537813026#32 → F 537813026#32 = 351928607#32 →
      F 351928607#32 = 1822678731#32 → F 1822678731#32 = 849073081#32 → F 849073081#32 = 3826157928#32 → F 3826157928#32 = 2765776365#32 → F 2765776365#32 = 176169743#32 → F 176169743#32 = 1008066456#32 → F 1008066456#32 = 539536597#32 → F 539536597#32 = 1343704790#32 →
      F 1343704790#32 = 4192554938#32 → F 4192554938#32 = 3490282123#32 → F 3490282123#32 = 264982882#32 → F 264982882#32 = 3818937850#32 → F 3818937850#32 = 2236619680#32 → F 2236619680#32 = 466007903#32 → F 466007903#32 = 3657207680#32 → F 3657207680#32 = 2834876360#32 →
      F 2834876360#32 = 2711519093#32 → F 2711519093#32 = 3398700458#32 → F 3398700458#32 = 2712954253#32 → F 2712954253#32 = 3219350134#32 → F 3219350134#32 = 1314629256#32 → F 1314629256#32 = 3033158946#32 → F 3033158946#32 = 4061280292#32 → F 4061280292#32 = 1809075585#32 →
      ([0, 1, 2, 3, 4, 5, 6, 7, 8, 9, 10, 11, 12, 13, 14, 15, 16, 17, 18, 19, 20, 21, 22, 23, 24, 25, 26, 27, 28, 29, 30, 31] :
        List (Fin 32)).foldl (fun a _ => F a) 0xFFFFFFFF#32 = 1809075585#32 := by
    intro F h1 h2 h3 h4 h5 h6 h7 h8 h9 h10 h11 h12 h13 h14 h15 h16 h17 h18 h19 h20 h21 h22 h23 h24 h25 h26 h27 h28 h29 h30 h31 h32
    simp only [List.foldl_cons, List.foldl_nil, h1, h2, h3, h4, h5, h6, h7, h8, h9, h10, h11, h12, h13, h14, h15, h16, h17, h18, h19,
      h20, h21, h22, h23, h24, h25, h26, h27, h28, h29, h30, h31, h32]
  have e : ((List.finRange 32).flatMap fun c => digestRegs.flatMap fun r =>
      leBytes 4 (if r = .CH_CTRL then chCtrlRead s 0 c else s.reg r (chIx (0 : Cluster) c)).toNat).foldl crcByte 0xFFFFFFFF#32 =
      1809075585#32 := by
    rw [List.foldl_flatMap]
    simp only [h]
    rw [hl]
    exact key (fun a => Wit.block.foldl crcByte a) a1 a2 a3 a4 a5 a6 a7 a8 b1 b2 b3 b4 b5 b6 b7 b8 c1 c2 c3 c4 c5 c6 c7 c8
      d1 d2 d3 d4 d5 d6 d7 d8
  have f : digest s 0 = 1809075585#32 ^^^ 0xFFFFFFFF#32 := congrArg (· ^^^ 0xFFFFFFFF#32) e
  rw [f]
  decide

section
open Wit
theorem test_meets_StepRunsFrontCommand :
    (∃ (c : Instr) (rest : List Instr) (s : State),
      s.pending = c :: rest) :=
  ⟨.coarseWrap 0, [], { State.reset with pending := [.coarseWrap 0] }, by decide +kernel⟩
theorem test_meets_StepIdlesOnEmptyQueue :
    (∃ (s : State),
      s.pending = []) :=
  ⟨State.reset, by decide +kernel⟩
theorem test_meets_StepKeepsCanonicalForm : Inv { State.reset with clasp := 7 } ∧
    step { State.reset with clasp := 7 } = .next { State.reset with clasp := 7 } := ⟨by constructor <;> decide +kernel, rfl⟩
theorem test_meets_OvercurrentForcesSafeState :
    (∃ (t : Nat) (n : Cluster) (c : Channel) (s : State),
      (driving (s.at t) n c).isSome = true) ∧
    (∃ (t : Nat) (n : Cluster) (c : Channel) (s : State),
      loopOn (s.at t) n c = true) :=
  ⟨⟨9, 0, 3, driveSt, by decide +kernel⟩,
   ⟨9, 0, 3, driveSt.setReg .CH_PM_CTRL 3 1#32, by decide +kernel⟩⟩
theorem test_meets_SwitchFollowsConnect :
    (∃ (t : Nat) (r : Req) (n : Cluster) (c : Channel) (d : Word) (s : State),
      Accepted r .CH_CTRL (chIx n c) (d ||| 0x40#32) (s.at t)) ∧
    (∃ (t : Nat) (r : Req) (n : Cluster) (c : Channel) (d : Word) (s : State),
      Accepted r .CH_CTRL (chIx n c) (d ||| 1#32) (s.at t) ∧
      bitOf d 6 = false ∧
      heldSafe (s.at t) n c = false ∧
      s.rb .CH_CTRL (chIx n c) 0 = false) ∧
    (∃ (t : Nat) (r : Req) (n : Cluster) (c : Channel) (d : Word) (s : State),
      Accepted r .CH_CTRL (chIx n c) (d &&& 0xFFFFFFFE#32) (s.at t) ∧
      bitOf d 6 = false ∧
      retired s n c = false ∧
      fenced s n c = false ∧
      s.rb .CH_CTRL (chIx n c) 0 = true) ∧
    (∃ (n : Cluster) (c : Channel) (s : State),
      (s.chan n c).sw = .closing ∧
      s.rb .CH_CTRL (chIx n c) 0 = true) ∧
    (∃ (n : Cluster) (c : Channel) (s : State),
      (s.chan n c).sw = .opening) :=
  ⟨⟨9, 0, 0, 3, 0x13#32, driveSt,
    ⟨by decide +kernel, by decide +kernel, by decide +kernel, by decide +kernel, by decide +kernel, by decide +kernel, by decide +kernel⟩⟩,
   ⟨9, 0, 0, 3, 0x12#32, up,
    ⟨by decide +kernel, by decide +kernel, by decide +kernel, by decide +kernel, by decide +kernel, by decide +kernel, by decide +kernel⟩,
    by decide +kernel, by decide +kernel, by decide +kernel⟩,
   ⟨9, 0, 0, 3, 0x13#32, driveSt,
    ⟨by decide +kernel, by decide +kernel, by decide +kernel, by decide +kernel, by decide +kernel, by decide +kernel, by decide +kernel⟩,
    by decide +kernel, by decide +kernel, by decide +kernel, by decide +kernel⟩,
   ⟨0, 3, driveSt.setChan 0 3 { sw := .closing }, by decide +kernel, by decide +kernel⟩,
   ⟨0, 3, up.setChan 0 3 { sw := .opening }, by decide +kernel⟩⟩
theorem test_meets_LevelsAndComparatorsSettle :
    (∃ (t : Nat) (r : Req) (n : Cluster) (c : Channel) (d : Word) (s : State),
      Accepted r .CH_LVL (chIx n c) d (s.at t) ∧
      fld d 0 4 ≠ lsetOf s n c) ∧
    (∃ (n : Cluster) (c : Channel) (s : State),
      s.rb .CH_STAT (chIx n c) 3 = true) ∧
    (∃ (t : Nat) (r : Req) (n : Cluster) (c : Channel) (d : Word) (s : State),
      Accepted r .CH_CMP (chIx n c) d (s.at t)) ∧
    (∃ (t : Nat) (n : Cluster) (c : Channel) (low : Bool) (s : State),
      unres s n c low = true ∧
      cmpOn s n c low = true ∧
      (if low then (s.chan n c).unresL else (s.chan n c).unresH) + allowance (s.rf .CH_CMP (chIx n c) 0 3) ≤ (s.at t).clasp) ∧
    (∃ (t : Nat) (n : Cluster) (c : Channel) (low v : Bool) (ball : Nat) (s : State),
      cmpOn s n c low = true ∧
      unres s n c low = false ∧
      cmpOut s n c low ≠ v ∧
      ball / 512 ≤ (s.at t).clasp) :=
  ⟨⟨9, 0, 0, 3, 5#32, up,
    ⟨by decide +kernel, by decide +kernel, by decide +kernel, by decide +kernel, by decide +kernel, by decide +kernel, by decide +kernel⟩,
    by decide +kernel⟩,
   ⟨0, 3, up.setReg .CH_STAT 3 8#32, by decide +kernel⟩,
   ⟨9, 0, 0, 3, 0x7FC#32, up,
    ⟨by decide +kernel, by decide +kernel, by decide +kernel, by decide +kernel, by decide +kernel, by decide +kernel, by decide +kernel⟩⟩,
   ⟨100, 0, 3, true, (up.setReg .CH_CMP 3 0x1C#32).setReg .CH_CMP_STAT 3 0xC#32, by decide +kernel, by decide +kernel,
    by decide +kernel⟩,
   ⟨100, 0, 3, true, true, 50000, ((up.setReg .CH_CMP 3 0x1C#32).setReg .CH_CMP_STAT 3 0#32).setReg .CH_WAKE 3 7#32,
    by decide +kernel, by decide +kernel, by decide +kernel, by decide +kernel⟩⟩
theorem test_meets_BlankEndDeliversWithoutEdge :
    (∃ (t : Nat) (n : Cluster) (c : Channel) (e : Nat) (s : State),
      (s.chan n c).blankEnd = some e ∧
      e ≤ (s.at t).clasp) :=
  ⟨100, 0, 3, 80, (up.setReg .CH_CMP_STAT 3 0x11#32).setChan 0 3 { blankEnd := some 80 }, by decide +kernel,
    by decide +kernel⟩
theorem test_meets_BlankingAndSelfChecks :
    (∃ (t : Nat) (r : Req) (n : Cluster) (d : Word) (s : State),
      Accepted r .CL_BLANK_TMR n.val (d ||| 0x1000000#32) (s.at t)) ∧
    (∃ (t : Nat) (n : Cluster) (s : State),
      let per := s.rf .CL_BLANK_TMR n.val 0 24
      let b := tabGet (0, 0) s.blankAt n.val
      s.rb .CL_BLANK_TMR n.val 24 = true ∧
      per ≠ 0 ∧
      b.1 + ((b.2 - b.1) / per + 1) * per ≤ (s.at t).clasp) ∧
    (∃ (t : Nat) (r : Req) (n : Cluster) (c : Channel) (d : Word) (s : State),
      Accepted r .CH_SELFCHK (chIx n c) (d ||| 1#32) (s.at t) ∧
      s.rb .CH_SELFCHK (chIx n c) 2 = false ∧
      (cmpOn s n c false = true ∨ cmpOn s n c true = true)) ∧
    (∃ (t : Nat) (n : Cluster) (c : Channel) (h l : CheckObs) (k : SelfChk) (s : State),
      (s.chan n c).selfchk = some k ∧
      k.waits = false ∧
      k.since + 4 * allowance (s.rf .CH_CMP (chIx n c) 0 3) + 1600 ≤ (s.at t).clasp ∧
      isLevels h = k.known ∧
      isLevels l = k.known) :=
  ⟨⟨100, 0, 0, 50#32, up,
    ⟨by decide +kernel, by decide +kernel, by decide +kernel, by decide +kernel, by decide +kernel, by decide +kernel, by decide +kernel⟩⟩,
   ⟨100, 0, (up.setReg .CL_BLANK_TMR 0 0x1000032#32).setReg .CH_BLANK 3 0x50010#32, by decide +kernel, by decide +kernel,
    by decide +kernel⟩,
   ⟨100, 0, 0, 3, 2#32, up.setReg .CH_CMP 3 0x1C#32,
    ⟨by decide +kernel, by decide +kernel, by decide +kernel, by decide +kernel, by decide +kernel, by decide +kernel, by decide +kernel⟩,
    by decide +kernel, by decide +kernel⟩,
   ⟨40000, 0, 3, .outside true, .inside, ⟨5, false, false⟩,
    ((up.setReg .CH_CMP 3 0x1C#32).setReg .CH_SELFCHK 3 4#32).setChan 0 3 { selfchk := some ⟨5, false, false⟩ },
    by decide +kernel, by decide +kernel, by decide +kernel, by (try unfold isLevels); decide +kernel,
    by (try unfold isLevels); decide +kernel⟩⟩
theorem test_meets_MeasurementsStartConvertAndEnd :
    (∃ (t : Nat) (r : Req) (n : Cluster) (c : Channel) (d : Word) (s : State),
      Accepted r .CH_PM_CTRL (chIx n c) (d ||| 0x800#32) (s.at t) ∧
      (fld d 4 2 = 1 ∨ fld d 4 2 = 2) ∧
      measBusy s n c = false ∧
      govLevel s n < 3 ∧
      calIntrOn s n = false ∧
      asyBusy s n = false) ∧
    (∃ (t : Nat) (r : Req) (n : Cluster) (c : Channel) (d : Word) (s : State),
      Accepted r .CH_PM_CTRL (chIx n c) (d ||| 0x1000#32) (s.at t)) ∧
    (∃ (t : Nat) (n : Cluster) (c : Channel) (s : State),
      let u := s.at t
      let x := s.chan n c
      pwrState s ≠ 3 ∧
      mmodeOf s n c ≠ 0 ∧
      x.grid < u.clasp ∧
      (u.clasp - x.grid) % 32000 = 0 ∧
      x.convAt ≠ u.clasp) ∧
    (∃ (n : Cluster) (c : Channel) (m : Meas) (rest : List (Meas × Bool)) (s : State),
      (s.chan n c).done = (m, false) :: rest) ∧
    (∃ (n : Cluster) (c : Channel) (m : Meas) (rest : List (Meas × Bool)) (s : State),
      (s.chan n c).done = (m, true) :: rest) ∧
    (∃ (q : Req) (s : State),
      served s q = true ∧
      pwrState s = 2) :=
  ⟨⟨9, 0, 0, 3, 0x10#32, pmSt.setReg .CH_PM_APER 3 0x80003#32,
    ⟨by decide +kernel, by decide +kernel, by decide +kernel, by decide +kernel, by decide +kernel, by decide +kernel, by decide +kernel⟩,
    by decide +kernel, by decide +kernel, by decide +kernel, by decide +kernel, by decide +kernel⟩,
   ⟨9, 0, 0, 3, 0x10#32, pmSt,
    ⟨by decide +kernel, by decide +kernel, by decide +kernel, by decide +kernel, by decide +kernel, by decide +kernel, by decide +kernel⟩⟩,
   ⟨32000, 0, 3,
    (pmSt.setReg .CH_PM_CTRL 3 0x1010#32).setChan 0 3 { grid := 0, meas := some { meas1 with got := 1, sum := 4 } },
    by decide +kernel, by decide +kernel, by decide +kernel, by decide +kernel, by decide +kernel⟩,
   ⟨0, 3, meas1, [], pmSt.setChan 0 3 { done := [(meas1, false)] }, by decide +kernel⟩,
   ⟨0, 3, meas1, [], pmSt.setChan 0 3 { done := [(meas1, true)] }, by decide +kernel⟩,
   ⟨0, pmSt.setReg .CH_PM_RES 3 0x80000123#32, by decide +kernel, by decide +kernel⟩⟩
theorem test_meets_ParametricSettingsWithinBudget :
    (∃ (t : Nat) (r : Req) (n : Cluster) (c : Channel) (d : Word) (s : State),
      Accepted r .CH_PM_CTRL (chIx n c) d (s.at t) ∧
      bitOf d 0 = true ∧
      heldSafe (s.at t) n c = false) ∧
    (∃ (t : Nat) (r : Req) (n : Cluster) (c : Channel) (d : Word) (s : State),
      Accepted r .CH_PM_CTRL (chIx n c) d (s.at t) ∧
      bitOf d 0 = false ∧
      bitOf d 11 = false) ∧
    (∃ (t : Nat) (r : Req) (n : Cluster) (c : Channel) (d : Word) (s : State),
      Accepted r .CH_PM_CTRL (chIx n c) d (s.at t) ∧
      fld d 6 3 < 5 ∧
      fld d 6 3 ≠ rangeOf s n c ∧
      bitOf d 11 = false) ∧
    (∃ (t : Nat) (n : Cluster) (c : Channel) (s : State),
      s.rb .CH_PM_STAT (chIx n c) 4 = true ∧
      (s.chan n c).rangeAt + 160000 ≤ (s.at t).clasp) ∧
    (∃ (t : Nat) (r : Req) (n : Cluster) (c : Channel) (w : PmSetting) (d : Word) (s : State),
      Accepted r (pmSettingReg w) (chIx n c) d (s.at t)) ∧
    (∃ (n : Cluster) (c : Channel) (volt : Bool) (s : State),
      loopOn s n c = true ∧
      fmodeFi s n c = volt) :=
  ⟨⟨9, 0, 0, 3, 1#32, (pmSt.setReg .CH_CTRL 3 0x21#32).setChan 0 3 { sw := .closed },
    ⟨by decide +kernel, by decide +kernel, by decide +kernel, by decide +kernel, by decide +kernel, by decide +kernel, by decide +kernel⟩,
    by decide +kernel, by decide +kernel⟩,
   ⟨9, 0, 0, 3, 0#32,
    ((pmSt.setReg .CH_CTRL 3 0x21#32).setReg .CH_PM_CTRL 3 1#32).setChan 0 3 { sw := .closed, meas := some meas1 },
    ⟨by decide +kernel, by decide +kernel, by decide +kernel, by decide +kernel, by decide +kernel, by decide +kernel, by decide +kernel⟩,
    by decide +kernel, by decide +kernel⟩,
   ⟨9, 0, 0, 3, 0x40#32, (pmSt.setReg .CH_PM_FI 3 0x1234#32).setReg .CH_PM_ICLH 3 77777#32,
    ⟨by decide +kernel, by decide +kernel, by decide +kernel, by decide +kernel, by decide +kernel, by decide +kernel, by decide +kernel⟩,
    by decide +kernel, by decide +kernel, by decide +kernel⟩,
   ⟨170000, 0, 3, pmSt.setReg .CH_PM_STAT 3 0x10#32, by decide +kernel, by decide +kernel⟩,
   ⟨9, 0, 0, 3, .iclh, 0x7FFFF#32, pmSt,
    ⟨by decide +kernel, by decide +kernel, by decide +kernel, by decide +kernel, by decide +kernel, by decide +kernel, by decide +kernel⟩⟩,
   ⟨0, 3, true, (driveSt.setReg .CH_PM_CTRL 3 9#32), by decide +kernel, by decide +kernel⟩⟩
theorem test_meets_TimingEdgeActs :
    (∃ (t : Nat) (n : Cluster) (c : Channel) (e : Fin 6) (p : PEdge) (s : State),
      edgeDue (s.at t) n c.val e.val = some p) :=
  ⟨100, 0, 3, 1, ⟨3, 1, 50000, 0, .level 1 true⟩, (edgeSt [⟨3, 1, 50000, 0, .level 1 true⟩]).setReg .CH_BLANK 3 0x20010#32,
    by decide +kernel⟩
theorem test_meets_DllLocksAndUnlocks :
    (∃ (n : Cluster) (s : State),
      s.rb .CLK_STAT 0 2 = true ∧
      cluRetired s n = false) ∧
    (∃ (n : Cluster) (s : State),
      s.rb .CL_TIM_STAT n.val 0 = true) :=
  ⟨⟨0, up, by decide +kernel, by decide +kernel⟩,
   ⟨0, runSt, by decide +kernel⟩⟩
theorem test_meets_BandsFollowTheSensor :
    (∃ (n : Cluster) (b : Nat) (x : Int) (s : State),
      (bandRec s n).1 = some b ∧
      sensorTemp s n.val = some x ∧
      bandFrom b x < 8) ∧
    (∃ (n : Cluster) (s : State),
      (bandRec s n).1 = none ∧
      (s.rb .THS_TEMP n.val 16 || s.rb .THS_TEMP n.val 20) = true) ∧
    (∃ (t : Nat) (n : Cluster) (s : State),
      s.rb .CL_TIM_STAT n.val 7 = true ∧
      s.rb .CL_TIM_STAT n.val 8 = false ∧
      50 ≤ pendAge (s.at t) n) ∧
    (∃ (t : Nat) (n : Cluster) (s : State),
      idleNow (s.at t) n = true ∧
      bandNext s n ≠ activeBand s n ∧
      bandNext s n < 5) :=
  ⟨⟨0, 1, 736, (setBandRec 0 (some 1, 0) up).setReg .THS_TEMP 0 0x102E0#32, by decide +kernel, by decide +kernel,
    by decide +kernel⟩,
   ⟨0, up.setReg .THS_TEMP 0 0x102E0#32, by decide +kernel, by decide +kernel⟩,
   ⟨400000000, 0, (setBandRec 0 (some 1, 0) up).setReg .CL_TIM_STAT 0 0x90#32, by decide +kernel, by decide +kernel,
    by decide +kernel⟩,
   ⟨400000000, 0, (setBandRec 0 (some 1, 0) up).setReg .CL_TIM_STAT 0 0x90#32, by decide +kernel, by decide +kernel,
    by decide +kernel⟩⟩
theorem test_meets_VectorWordsQueued :
    (∃ (n : Cluster) (nano : BitVec 12) (ts : BitVec 6) (rep : BitVec 8) (s : State),
      Stands n (.vec nano ts rep) s) ∧
    (∃ (n : Cluster) (nano : BitVec 12) (ts : BitVec 6) (rep : BitVec 8) (s : State),
      Stands n (.mvec nano ts rep) s) ∧
    (∃ (n : Cluster) (nano : BitVec 12) (ts : BitVec 6) (rep : BitVec 8) (s : State),
      Stands n (.hset nano ts rep) s) :=
  ⟨⟨0, 5, 3, 9, feSt (.vec 5 3 9) { }, by (try unfold Stands); decide +kernel⟩,
   ⟨0, 5, 3, 9, feSt (.mvec 5 3 9) { }, by (try unfold Stands); decide +kernel⟩,
   ⟨0, 5, 3, 9, feSt (.hset 5 3 9) { }, by (try unfold Stands); decide +kernel⟩⟩
theorem test_meets_BranchesAndConditionals :
    (∃ (n : Cluster) (l : BitVec 1) (a : BitVec 16) (s : State),
      Stands n (.jmp l a) s) ∧
    (∃ (n : Cluster) (l : BitVec 1) (a : BitVec 16) (s : State),
      Stands n (.call l a) s) ∧
    (∃ (n : Cluster) (p : PAddr) (st : List PAddr) (s : State),
      Stands n .ret s ∧
      (s.seq n).unwind = false ∧
      (s.seq n).fe.stack = p :: st ∧
      (∀ x, (s.seq n).fe.rtn = some x → x.depth ≠ st.length + 1)) ∧
    (∃ (n : Cluster) (p : PAddr) (st : List PAddr) (x : RtnFE) (s : State),
      Stands n .ret s ∧
      (s.seq n).unwind = false ∧
      (s.seq n).fe.stack = p :: st ∧
      (s.seq n).fe.rtn = some x ∧
      x.depth = st.length + 1) ∧
    (∃ (n : Cluster) (s : State),
      Stands n .ret s ∧
      (s.seq n).unwind = true) ∧
    (∃ (n : Cluster) (k : BitVec 3) (v : BitVec 23) (s : State),
      Stands n (.ldc k v) s) ∧
    (∃ (n : Cluster) (k : BitVec 3) (l : BitVec 1) (a : BitVec 16) (s : State),
      Stands n (.loop k l a) s) ∧
    (∃ (t : Nat) (n : Cluster) (l : BitVec 1) (a : BitVec 16) (s : State),
      Stands n (.jm l a) s ∧
      condDue (s.at t) n = true) ∧
    (∃ (t : Nat) (n : Cluster) (l : BitVec 1) (a : BitVec 16) (s : State),
      Stands n (.jnm l a) s ∧
      condDue (s.at t) n = true) ∧
    (∃ (t : Nat) (n : Cluster) (l : BitVec 1) (a : BitVec 16) (s : State),
      Stands n (.jf l a) s ∧
      condDue (s.at t) n = true) ∧
    (∃ (t : Nat) (n : Cluster) (l : BitVec 1) (a : BitVec 16) (s : State),
      Stands n (.jnf l a) s ∧
      condDue (s.at t) n = true) :=
  ⟨⟨0, 0, 40000, feSt (.jmp 0 40000) { }, by (try unfold Stands); decide +kernel⟩,
   ⟨0, 0, 40000, feSt (.call 0 40000) { }, by (try unfold Stands); decide +kernel⟩,
   ⟨0, ⟨false, 77⟩, [], feSt .ret { fe := { feStart with stack := [⟨false, 77⟩] } }, by (try unfold Stands); decide +kernel,
    by decide +kernel, by decide +kernel, by decide +kernel⟩,
   ⟨0, ⟨false, 77⟩, [], ⟨9, 1, 5#32, 6#32, ⟨none, 2⟩⟩,
    feSt .ret { fe := { feStart with stack := [⟨false, 77⟩], rtn := some ⟨9, 1, 5#32, 6#32, ⟨none, 2⟩⟩ } },
    by (try unfold Stands); decide +kernel, by decide +kernel, by decide +kernel, by decide +kernel, by decide +kernel⟩,
   ⟨0, feSt .ret { unwind := true, fe := { feStart with stack := [⟨false, 77⟩] } }, by (try unfold Stands); decide +kernel,
    by decide +kernel⟩,
   ⟨0, 2, 0, feSt (.ldc 2 0) { }, by (try unfold Stands); decide +kernel⟩,
   ⟨0, 2, 0, 3,
    (feSt (.loop 2 0 3) { fe := { feStart with ctrs := [0, 0, 5, 0, 0, 0, 0, 0] } }).setRb .CL_SEQ_STAT 0 4 true |>.setHop 0 { fill0 := 10 },
    by (try unfold Stands); decide +kernel⟩,
   ⟨100, 0, 0, 3, feSt (.jm 0 3) { tNext := 228 * 512, fMatch := true }, by (try unfold Stands); decide +kernel,
    by decide +kernel⟩,
   ⟨100, 0, 0, 3, feSt (.jnm 0 3) { tNext := 228 * 512, fMatch := true }, by (try unfold Stands); decide +kernel,
    by decide +kernel⟩,
   ⟨100, 0, 0, 3, feSt (.jf 0 3) { tNext := 228 * 512, fFail := true }, by (try unfold Stands); decide +kernel,
    by decide +kernel⟩,
   ⟨100, 0, 0, 3, feSt (.jnf 0 3) { tNext := 228 * 512 }, by (try unfold Stands); decide +kernel, by decide +kernel⟩⟩
theorem test_meets_SetAndWaitWords :
    (∃ (n : Cluster) (s : State),
      Stands n .clrf s) ∧
    (∃ (n : Cluster) (i : BitVec 12) (s : State),
      Stands n (.csel i) s ∧
      (readNano s n (s.seq n).fe.pc.lib i.toNat).2 = false) ∧
    (∃ (n : Cluster) (i : BitVec 12) (s : State),
      Stands n (.sel i) s ∧
      (readNano s n (s.seq n).fe.pc.lib i.toNat).2 = false) ∧
    (∃ (n : Cluster) (k : BitVec 26) (s : State),
      Stands n (.rpt k) s) ∧
    (∃ (n : Cluster) (k : BitVec 18) (u : BitVec 8) (s : State),
      Stands n (.wtrig k u) s) ∧
    (∃ (n : Cluster) (i : BitVec 12) (p : BitVec 2) (b : BitVec 1) (s : State),
      let x := readNano s n (s.seq n).fe.pc.lib i.toNat
      Stands n (.wct i p b) s ∧
      x.2 = false) ∧
    (∃ (n : Cluster) (k : BitVec 26) (s : State),
      Stands n (.hold k) s) ∧
    (∃ (n : Cluster) (r : BitVec 16) (s : State),
      Stands n (.mst r) s) ∧
    (∃ (n : Cluster) (s : State),
      Stands n .mwait s) :=
  ⟨⟨0, feSt .clrf { fFail := true }, by (try unfold Stands); decide +kernel⟩,
   ⟨0, 4, (feSt (.csel 4) { }).setNanoAt 0 4 { w := 0x00FF0001#256 }, by (try unfold Stands); decide +kernel,
    by decide +kernel⟩,
   ⟨0, 4, (feSt (.sel 4) { }).setNanoAt 0 4 { w := 0x00FF0001#256 }, by (try unfold Stands); decide +kernel,
    by decide +kernel⟩,
   ⟨0, 7, feSt (.rpt 7) { }, by (try unfold Stands); decide +kernel⟩,
   ⟨0, 7, 3, feSt (.wtrig 7 3) { }, by (try unfold Stands); decide +kernel⟩,
   ⟨0, 4, 1, 1, (feSt (.wct 4 1 1) { }).setNanoAt 0 4 { w := 0x123456789#256 <<< 64 },
    by (try unfold Stands); decide +kernel, by decide +kernel⟩,
   ⟨0, 7, feSt (.hold 7) { }, by (try unfold Stands); decide +kernel⟩,
   ⟨0, 7, feSt (.mst 7) { }, by (try unfold Stands); decide +kernel⟩,
   ⟨0, feSt .mwait { }, by (try unfold Stands); decide +kernel⟩⟩
theorem test_meets_RoutineWordsAndEnds :
    (∃ (n : Cluster) (i : BitVec 16) (s : State),
      Stands n (.rbeg i) s) ∧
    (∃ (n : Cluster) (i : BitVec 16) (s : State),
      Stands n (.rmark i) s) ∧
    (∃ (n : Cluster) (l : BitVec 1) (a : BitVec 16) (s : State),
      Stands n (.runw l a) s) ∧
    (∃ (n : Cluster) (w : BitVec 5) (v : BitVec 20) (s : State),
      Stands n (.wri w v) s) ∧
    (∃ (n : Cluster) (w : BitVec 5) (i : BitVec 12) (k : BitVec 3) (s : State),
      let x := readNano s n (s.seq n).fe.pc.lib i.toNat
      Stands n (.wrn w i k) s ∧
      x.2 = false) ∧
    (∃ (n : Cluster) (k : BitVec 8) (s : State),
      Stands n (.stop k) s) ∧
    (∃ (n : Cluster) (s : State),
      feLive s n = true ∧
      feReady s n = true ∧
      (fetchWord s n (s.seq n).fe.pc).2 = false ∧
      (match decodeMicro (fetchWord s n (s.seq n).fe.pc).1 with | none => true | some m => !microLegal s (s.seq n).fe (s.seq n).fe.pc m) = true) :=
  ⟨⟨0, 7, feSt (.rbeg 7) { fe := { feStart with called := true } }, by (try unfold Stands); decide +kernel⟩,
   ⟨0, 7, feSt (.rmark 7) { fe := { feStart with rtn := some ⟨9, 1, 5#32, 6#32, ⟨none, 2⟩⟩ } },
    by (try unfold Stands); decide +kernel⟩,
   ⟨0, 0, 7, feSt (.runw 0 7) { fe := { feStart with rtn := some ⟨9, 1, 5#32, 6#32, ⟨none, 2⟩⟩ } },
    by (try unfold Stands); decide +kernel⟩,
   ⟨0, 17, 7, feSt (.wri 17 7) { fe := { feStart with rtn := some ⟨9, 1, 5#32, 6#32, ⟨none, 2⟩⟩ } },
    by (try unfold Stands); decide +kernel⟩,
   ⟨0, 17, 4, 2,
    (feSt (.wrn 17 4 2) { fe := { feStart with rtn := some ⟨9, 1, 5#32, 6#32, ⟨none, 2⟩⟩ } }).setNanoAt 0 4 { w := 0x123456789#256 <<< 64 },
    by (try unfold Stands); decide +kernel, by decide +kernel⟩,
   ⟨0, 7, feSt (.stop 7) { }, by (try unfold Stands); decide +kernel⟩,
   ⟨0, feSt (.rmark 7) { }, by decide +kernel, by decide +kernel, by decide +kernel, by decide +kernel⟩⟩
theorem test_meets_StoresWrittenWhileOpen :
    (∃ (t : Nat) (r : Req) (n : Cluster) (a : BitVec 16) (d : Word) (s : State),
      StoreAccepted r n (.micro a) d (s.at t)) ∧
    (∃ (t : Nat) (r : Req) (n : Cluster) (i : BitVec 12) (j : Fin 8) (d : Word) (s : State),
      StoreAccepted r n (.nano i j) d (s.at t)) ∧
    (∃ (t : Nat) (r : Req) (s : State),
      served (s.at t) r = true ∧
      pwrState (s.at t) = 2) :=
  ⟨⟨100, 0, 0, 77, 0x12345678, up, by (try unfold StoreAccepted); decide +kernel⟩,
   ⟨100, 0, 0, 77, 5, 0x12345678, up.setReg .CL_STORE_CTRL 0 1#32, by (try unfold StoreAccepted); decide +kernel⟩,
   ⟨100, 0, up.setNanoAt 0 77 { w := 0x12345678#256 <<< 160, bad := 0x20#8 }, by decide +kernel, by decide +kernel⟩⟩
theorem test_meets_SequencerArmsAndStarts :
    (∃ (t : Nat) (r : Req) (n : Cluster) (d : Word) (s : State),
      let u := s.at t
      Accepted r .CL_SEQ_CTRL n.val (d ||| 1#32) u ∧
      bitOf d 1 = false ∧
      idleNow u n = true ∧
      cluRetired s n = false ∧
      s.rb .CL_MR_STAT n.val 0 = false ∧
      patchBlocks s = false ∧
      govLevel s n < 3 ∧
      calIntrOn s n = false ∧
      asyBusy s n = false ∧
      s.rb .CL_TIM_STAT n.val 0 = true ∧
      (bitOf d 3 = true → (if calStepOn s n then u.clasp + 40000 else max u.clasp (s.calSt n).back) + 256 ≤ startTime u n true)) ∧
    (∃ (t : Nat) (n : Cluster) (s : State),
      seqIdle s n = false ∧
      (s.seq n).t0 ≤ (s.at t).clasp ∧
      (s.seq n).ending = none ∧
      (s.seq n).resume = false) ∧
    (∃ (t : Nat) (n : Cluster) (s : State),
      seqIdle s n = false ∧
      (s.seq n).t0 ≤ (s.at t).clasp ∧
      (s.seq n).ending = none ∧
      (s.seq n).resume = true ∧
      s.rb .CL_MR_STAT n.val 0 = true) :=
  ⟨⟨100, 0, 0, 8#32, (up.setReg .CL_TIM_STAT 0 1#32).setReg .CL_SEQ_TSTART_LO 0 1000#32,
    ⟨by decide +kernel, by decide +kernel, by decide +kernel, by decide +kernel, by decide +kernel, by decide +kernel, by decide +kernel⟩,
    by decide +kernel, by decide +kernel, by decide +kernel, by decide +kernel, by decide +kernel, by decide +kernel,
    by decide +kernel, by decide +kernel, by decide +kernel, by (try unfold startTime); decide +kernel⟩,
   ⟨100, 0, (runSt.setReg .CL_SEQ_STAT 0 1#32).setSeq 0 { t0 := 90 }, by decide +kernel, by decide +kernel,
    by decide +kernel, by decide +kernel⟩,
   ⟨100, 0, ((runSt.setReg .CL_SEQ_STAT 0 1#32).setReg .CL_MR_STAT 0 3#32).setSeq 0 { t0 := 90, resume := true },
    by decide +kernel, by decide +kernel, by decide +kernel, by decide +kernel, by decide +kernel⟩⟩
theorem test_meets_SequencerAbortsAndReleases :
    (∃ (t : Nat) (r : Req) (n : Cluster) (d : Word) (s : State),
      Accepted r .CL_SEQ_CTRL n.val (d ||| 2#32) (s.at t) ∧
      seqIdle s n = false ∧
      (s.seq n).unwind = false ∧
      (s.seq n).abort = none ∧
      (s.seq n).ending = none) ∧
    (∃ (t : Nat) (r : Req) (n : Cluster) (d : Word) (s : State),
      Accepted r .CL_SEQ_CTRL n.val (d ||| 4#32) (s.at t) ∧
      bitOf d 0 = false ∧
      bitOf d 1 = false ∧
      seqIdle s n = false) :=
  ⟨⟨100, 0, 0, 0#32, runSt.setChan 0 3 { meas := some meas1 },
    ⟨by decide +kernel, by decide +kernel, by decide +kernel, by decide +kernel, by decide +kernel, by decide +kernel, by decide +kernel⟩,
    by decide +kernel, by decide +kernel, by decide +kernel, by decide +kernel⟩,
   ⟨100, 0, 0, 0#32, runSt,
    ⟨by decide +kernel, by decide +kernel, by decide +kernel, by decide +kernel, by decide +kernel, by decide +kernel, by decide +kernel⟩,
    by decide +kernel, by decide +kernel, by decide +kernel⟩⟩
theorem test_meets_VectorsHandedOn :
    (∃ (t : Nat) (n : Cluster) (src : PAddr) (nano ts left : Nat) (m : Bool) (cond : Word) (ep : Nat) (rest : List QEntry) (s : State),
      LooksAhead n (s.at t) ∧
      (s.seq n).q = .vec src nano ts left m cond ep :: rest ∧
      (s.seq n).steps = [] ∧
      (readNano s n src.lib nano).2 = false ∧
      spanOk s n false (period s n ts) = true) ∧
    (∃ (t : Nat) (n : Cluster) (x : Nano) (s : State),
      LooksAhead n (s.at t) ∧
      (s.seq n).q = [] ∧
      (s.seq n).steps = [] ∧
      awaitsCond (s.at t) n = false ∧
      feReady s n = true ∧
      ((s.seq n).fe.pc.lib || !(s.microAt n (s.seq n).fe.pc.a).nostall) = true ∧
      (match (s.seq n).hold.nano with | none => (keepNano, false) | some p => readNano s n p.1 p.2) = (x, false) ∧
      spanOk s n false (period s n (s.seq n).hold.ts) = true) ∧
    (∃ (t : Nat) (n : Cluster) (k : Nat) (rest : List QEntry) (s : State),
      LooksAhead n (s.at t) ∧
      (s.seq n).q = .stop k :: rest) ∧
    (∃ (t : Nat) (n : Cluster) (a : PAddr) (rest : List QEntry) (s : State),
      LooksAhead n (s.at t) ∧
      (s.seq n).q = .illegal a :: rest) ∧
    (∃ (t : Nat) (n : Cluster) (src : PAddr) (nano ts left : Nat) (m : Bool) (cond : Word) (ep : Nat) (rest : List QEntry) (s : State),
      LooksAhead n (s.at t) ∧
      (s.seq n).q = .vec src nano ts left m cond ep :: rest ∧
      (readNano s n src.lib nano).2 = true) ∧
    (∃ (t : Nat) (n : Cluster) (cause : Nat) (s : State),
      issueDue (s.at t) n = true ∧
      abortDue s n = some cause ∧
      (s.seq n).rtn = none) ∧
    (∃ (t : Nat) (n : Cluster) (p : PAddr) (rest : List QEntry) (s : State),
      LooksAhead n (s.at t) ∧
      (s.seq n).q = .stallPoint p :: rest ∧
      (s.hop n).err = false ∧
      (s.seq n).stalled = true ∧
      mayResume (s.at t) n p = true) :=
  ⟨⟨100, 0, ⟨false, 8⟩, 4, 2, 3, false, 0xFFFFFFFF#32, 1, [],
    (runSt.setNanoAt 0 4 { w := 0x9104#256 }).setSeq 0 { q := [.vec ⟨false, 8⟩ 4 2 3 false 0xFFFFFFFF#32 1], tNext := 228 * 512 },
    by (try unfold LooksAhead); decide +kernel, by decide +kernel, by decide +kernel, by decide +kernel,
    by decide +kernel⟩,
   ⟨100, 0, keepNano, runSt.setSeq 0 { tNext := 228 * 512 }, by (try unfold LooksAhead); decide +kernel, by decide +kernel,
    by decide +kernel, by decide +kernel, by decide +kernel, by decide +kernel, by decide +kernel, by decide +kernel⟩,
   ⟨100, 0, 7, [], runSt.setSeq 0 { q := [.stop 7], tNext := 228 * 512 }, by (try unfold LooksAhead); decide +kernel,
    by decide +kernel⟩,
   ⟨100, 0, ⟨false, 9⟩, [], runSt.setSeq 0 { q := [.illegal ⟨false, 9⟩], tNext := 228 * 512 },
    by (try unfold LooksAhead); decide +kernel, by decide +kernel⟩,
   ⟨100, 0, ⟨false, 8⟩, 4, 2, 3, false, 0xFFFFFFFF#32, 1, [],
    (runSt.setNanoAt 0 4 { bad := 1#8 }).setSeq 0 { q := [.vec ⟨false, 8⟩ 4 2 3 false 0xFFFFFFFF#32 1], tNext := 228 * 512 },
    by (try unfold LooksAhead); decide +kernel, by decide +kernel, by decide +kernel⟩,
   ⟨100, 0, 1, runSt.setSeq 0 { abort := some (95, 1), tNext := 228 * 512 }, by decide +kernel, by decide +kernel,
    by decide +kernel⟩,
   ⟨100, 0, ⟨false, 9⟩, [.stop 3],
    (runSt.setHop 0 { fill0 := 100, closed0 := true }).setSeq 0 { q := [.stallPoint ⟨false, 9⟩, .stop 3], stalled := true, tNext := 228 * 512 },
    by (try unfold LooksAhead); decide +kernel, by decide +kernel, by decide +kernel, by decide +kernel,
    by decide +kernel⟩⟩
theorem test_meets_VectorResultsReachFlagsAndLog :
    (∃ (t : Nat) (n : Cluster) (v : Vec) (rest : List Vec) (s : State),
      CompleteDue n v rest (s.at t) ∧
      v.kind = .hold) ∧
    (∃ (t : Nat) (n : Cluster) (v : Vec) (rest : List Vec) (s : State),
      CompleteDue n v rest (s.at t) ∧
      v.kind = .mvec) ∧
    (∃ (t : Nat) (n : Cluster) (v : Vec) (rest : List Vec) (s : State),
      CompleteDue n v rest (s.at t) ∧
      v.kind = .vec) ∧
    (∃ (n : Cluster) (r : LogRec) (rest : List LogRec) (s : State),
      let size := sizeOr (s.rf .CL_HOP_LOG_SIZE n.val 0 16) 65536
      let w := s.rf .CL_HOP_LOG_WPTR n.val 0 16
      let a := s.rf .CL_HOP_LOG_BASE n.val 6 20 * 64 + w * 64
      (s.seq n).log = r :: rest ∧
      ((s.trig n).turn = true ∨ (s.trig n).queue = []) ∧
      idxNext w size ≠ s.rf .CL_HOP_LOG_RPTR n.val 0 16 ∧
      streamServed s n 0 false a 64 = true ∧
      memAdmits s (.cluster n 0) false a 64 = true) :=
  ⟨⟨200, 0, (vecOf .hold []), [], runSt.setSeq 0 { infl := [vecOf .hold []] }, by (try unfold CompleteDue); decide +kernel,
    by decide +kernel⟩,
   ⟨200, 0, (vecOf .mvec [(6, 0)]), [], runSt.setSeq 0 { infl := [vecOf .mvec [(6, 0)]] },
    by (try unfold CompleteDue); decide +kernel, by decide +kernel⟩,
   ⟨200, 0, (vecOf .vec [(6, 1), (11, 2)]), [],
    (runSt.setReg .CL_SEQ_LOG 0 1#32).setSeq 0 { infl := [vecOf .vec [(6, 1), (11, 2)]] },
    by (try unfold CompleteDue); decide +kernel, by decide +kernel⟩,
   ⟨0, ⟨vecOf .vec [(6, 1)], true⟩, [],
    ({ runSt with slcActive := [(0, 1)] }.setReg .BANK_OWN 0 0#32).setSeq 0 { log := [⟨vecOf .vec [(6, 1)], true⟩] },
    by decide +kernel, by decide +kernel, by decide +kernel, by decide +kernel, by decide +kernel⟩⟩
theorem test_meets_PatternsEnd :
    (∃ (t : Nat) (n : Cluster) (code exit : Nat) (s : State),
      (s.seq n).ending = some (code, exit) ∧
      ((s.seq n).lastEnd + 176 * 512 - 1) / (80 * 512) ≤ (s.at t).clasp / 80 ∧
      (s.seq n).infl = [] ∧
      (s.seq n).unwind = false ∧
      code < 16 ∧
      code ≠ 10 ∧
      code ≠ 11) ∧
    (∃ (t : Nat) (n : Cluster) (code exit : Nat) (s : State),
      (s.seq n).ending = some (code, exit) ∧
      ((s.seq n).lastEnd + 176 * 512 - 1) / (80 * 512) ≤ (s.at t).clasp / 80 ∧
      (s.seq n).infl = [] ∧
      (s.seq n).unwind = true) :=
  ⟨⟨1000, 0, 1, 7, runSt.setSeq 0 { ending := some (1, 7), lastEnd := 51200 }, by decide +kernel, by decide +kernel,
    by decide +kernel, by decide +kernel, by decide +kernel, by decide +kernel, by decide +kernel⟩,
   ⟨1000, 0, 1, 7,
    ((runSt.setReg .CL_MR_TOUCHED 0 8#32).setReg .CH_CTRL 3 0x13#32).setSeq 0 { ending := some (1, 7), lastEnd := 51200, unwind := true },
    by decide +kernel, by decide +kernel, by decide +kernel, by decide +kernel⟩⟩
theorem test_meets_HopperLoads :
    (∃ (t : Nat) (r : Req) (n : Cluster) (d : Word) (s : State),
      Accepted r .CL_HOP_CTRL n.val d (s.at t) ∧
      bitOf d 1 = false) ∧
    (∃ (t : Nat) (r : Req) (n : Cluster) (d : Word) (s : State),
      Accepted r .CL_HOP_CTRL n.val (d ||| 2#32) (s.at t) ∧
      idleNow (s.at t) n = true) ∧
    (∃ (n : Cluster) (s : State),
      let head := s.rf .CL_HOP_HEAD n.val 0 16
      let more := (s.rf .CL_HOP_TAIL n.val 0 16 + 65536 - head) % 65536
      let size := max 1 (s.rf .CL_HOP_RSIZE n.val 0 13)
      let a := s.rf .CL_HOP_RING n.val 4 22 * 16 + head % size * 16
      hopRuns s n = true ∧
      (s.hop n).load = none ∧
      (s.hop n).waitHalf = false ∧
      0 < more ∧
      more ≤ size ∧
      streamServed s n 0 false a 16 = true ∧
      memAdmits s (.cluster n 0) false a 16 = true) ∧
    (∃ (n : Cluster) (l : Load) (s : State),
      let k := min 8 (l.mcnt - l.mdone)
      let a := l.maddr + 4 * l.mdone
      (s.hop n).load = some l ∧
      hopRuns s n = true ∧
      256 * pageCount l.pages ≤ l.ndone ∧
      l.mdone + 8 < l.mcnt ∧
      streamServed s n 0 false a (4 * k) = true ∧
      memAdmits s (.cluster n 0) false a (4 * k) = true) ∧
    (∃ (n : Cluster) (l : Load) (s : State),
      let a := l.naddr + 32 * l.ndone
      (s.hop n).load = some l ∧
      hopRuns s n = true ∧
      l.ndone < 256 * pageCount l.pages ∧
      loadOver { l with ndone := l.ndone + 1 } = false ∧
      streamServed s n 0 false a 32 = true ∧
      memAdmits s (.cluster n 0) false a 32 = true) ∧
    (∃ (n : Cluster) (l : Load) (s : State),
      let k := l.mcnt - l.mdone
      (s.hop n).load = some l ∧
      hopRuns s n = true ∧
      256 * pageCount l.pages ≤ l.ndone ∧
      0 < k ∧
      k ≤ 8 ∧
      streamServed s n 0 false (l.maddr + 4 * l.mdone) (4 * k) = true ∧
      memAdmits s (.cluster n 0) false (l.maddr + 4 * l.mdone) (4 * k) = true) :=
  ⟨⟨100, 0, 0, 1#32, up,
    ⟨by decide +kernel, by decide +kernel, by decide +kernel, by decide +kernel, by decide +kernel, by decide +kernel, by decide +kernel⟩,
    by decide +kernel⟩,
   ⟨100, 0, 0, 0#32, (up.setReg .CL_HOP_TAIL 0 5#32).setHop 0 { fill0 := 9 },
    ⟨by decide +kernel, by decide +kernel, by decide +kernel, by decide +kernel, by decide +kernel, by decide +kernel, by decide +kernel⟩,
    by decide +kernel⟩,
   ⟨0, hopSt, by decide +kernel, by decide +kernel, by decide +kernel, by decide +kernel, by decide +kernel,
    by decide +kernel, by decide +kernel⟩,
   ⟨0, ⟨64, 10, false, false, true, 0, 0, 0, 0⟩,
    hopSt.setHop 0 { chosen := true, load := some ⟨64, 10, false, false, true, 0, 0, 0, 0⟩ }, by decide +kernel,
    by decide +kernel, by decide +kernel, by decide +kernel, by decide +kernel, by decide +kernel⟩,
   ⟨0, ⟨64, 10, false, false, true, 0, 2, 0, 0⟩,
    hopSt.setHop 0 { chosen := true, load := some ⟨64, 10, false, false, true, 0, 2, 0, 0⟩ }, by decide +kernel,
    by decide +kernel, by decide +kernel, by decide +kernel, by decide +kernel, by decide +kernel⟩,
   ⟨0, ⟨64, 10, true, false, true, 0, 0, 0, 8⟩,
    hopSt.setHop 0 { chosen := true, load := some ⟨64, 10, true, false, true, 0, 0, 0, 8⟩ }, by decide +kernel,
    by decide +kernel, by decide +kernel, by decide +kernel, by decide +kernel, by decide +kernel, by decide +kernel⟩⟩
theorem test_meets_RoutineInterruptSavesContext :
    (∃ (t : Nat) (n : Cluster) (cause : Nat) (x : Rtn) (s : State),
      issueDue (s.at t) n = true ∧
      abortDue s n = some cause ∧
      (s.seq n).rtn = some x ∧
      inParked s n = true ∧
      cause < 16) ∧
    (∃ (t : Nat) (n : Cluster) (cause step : Nat) (fe : FE) (x : Rtn) (rest : List QEntry) (s : State),
      issueDue (s.at t) n = true ∧
      abortDue s n = some cause ∧
      (s.seq n).rtn = some x ∧
      inParked s n = false ∧
      (s.seq n).unwind = false ∧
      (s.seq n).q = .rmark step fe :: rest ∧
      markAhead rest = false ∧
      cause < 16) :=
  ⟨⟨100, 0, 2, rtn1,
    runSt.setSeq 0 { rtn := some rtn1, wait := some ⟨50, 3, true, none⟩, abort := some (60, 2), q := [.mwait ⟨false, 8⟩], tNext := 228 * 512 },
    by decide +kernel, by decide +kernel, by decide +kernel, by decide +kernel, by decide +kernel⟩,
   ⟨100, 0, 2, 4, { feStart with ctrs := [1, 2, 3, 4, 5, 6, 7, 8] }, rtn1, [],
    runSt.setSeq 0 { rtn := some rtn1, abort := some (60, 2), q := [.rmark 4 { feStart with ctrs := [1, 2, 3, 4, 5, 6, 7, 8] }], tNext := 228 * 512 },
    by decide +kernel, by decide +kernel, by decide +kernel, by decide +kernel, by decide +kernel, by decide +kernel,
    by decide +kernel, by decide +kernel⟩⟩
theorem test_meets_ContextsResumedOrAbandoned :
    (∃ (t : Nat) (r : Req) (n : Cluster) (d : Word) (x : Ctx) (s : State),
      Accepted r .CL_MR_CMD n.val (d ||| 1#32) (s.at t) ∧
      bitOf d 1 = false ∧
      MayStartContext n x (s.at t) ∧
      s.rb .CL_MR_STAT n.val 1 = true ∧
      s.rf .CL_MR_STAT n.val 13 3 = 1 ∧
      govLevel s n < 3 ∧
      digest s n = s.reg .CL_MR_DIGEST n.val) ∧
    (∃ (t : Nat) (r : Req) (n : Cluster) (d : Word) (x : Ctx) (s : State),
      Accepted r .CL_MR_CMD n.val (d ||| 1#32) (s.at t) ∧
      bitOf d 1 = false ∧
      MayStartContext n x (s.at t) ∧
      s.rb .CL_MR_STAT n.val 1 = true ∧
      s.rf .CL_MR_STAT n.val 13 3 = 1 ∧
      govLevel s n < 3 ∧
      digest s n ≠ s.reg .CL_MR_DIGEST n.val) ∧
    (∃ (t : Nat) (r : Req) (n : Cluster) (d : Word) (x : Ctx) (p : PAddr) (s : State),
      Accepted r .CL_MR_CMD n.val (d ||| 2#32) (s.at t) ∧
      MayStartContext n x (s.at t) ∧
      x.rtn.uaddr = some p ∧
      s.rf .CL_MR_STAT n.val 13 3 ≠ 4) ∧
    (∃ (t : Nat) (r : Req) (n : Cluster) (d : Word) (x : Ctx) (s : State),
      Accepted r .CL_MR_CMD n.val (d ||| 2#32) (s.at t) ∧
      MayStartContext n x (s.at t) ∧
      x.rtn.uaddr = none) :=
  ⟨⟨100, 0, 0, 0#32, ⟨feStart, true, false, rtn1⟩, ctxSt 2485891710#32,
    ⟨by decide +kernel, by decide +kernel, by decide +kernel, by decide +kernel, by decide +kernel, by decide +kernel, by decide +kernel⟩,
    by decide +kernel, by (try unfold MayStartContext); decide +kernel, by decide +kernel, by decide +kernel,
    by decide +kernel, (test_digest_of_reset_channels _ (by decide +kernel)).trans (by decide +kernel)⟩,
   ⟨100, 0, 0, 0#32, ⟨feStart, true, false, rtn1⟩, ctxSt 2485891711#32,
    ⟨by decide +kernel, by decide +kernel, by decide +kernel, by decide +kernel, by decide +kernel, by decide +kernel, by decide +kernel⟩,
    by decide +kernel, by (try unfold MayStartContext); decide +kernel, by decide +kernel, by decide +kernel,
    by decide +kernel, by rw [test_digest_of_reset_channels _ (by decide +kernel)]; decide +kernel⟩,
   ⟨100, 0, 0, 0#32, ⟨feStart, true, false, rtn1⟩, ⟨false, 33⟩, ctxSt 0,
    ⟨by decide +kernel, by decide +kernel, by decide +kernel, by decide +kernel, by decide +kernel, by decide +kernel, by decide +kernel⟩,
    by (try unfold MayStartContext); decide +kernel, by decide +kernel, by decide +kernel⟩,
   ⟨100, 0, 0, 0#32, ⟨feStart, true, false, { rtn1 with uaddr := none }⟩,
    ((ctxSt 0).setReg .CL_MR_TOUCHED 0 6#32).modSeq 0 fun q => { q with ctx := some ⟨feStart, true, false, { rtn1 with uaddr := none }⟩ },
    ⟨by decide +kernel, by decide +kernel, by decide +kernel, by decide +kernel, by decide +kernel, by decide +kernel, by decide +kernel⟩,
    by (try unfold MayStartContext); decide +kernel, by decide +kernel⟩⟩
theorem test_meets_RoutineResultsWritten :
    (∃ (n : Cluster) (x : ResRec) (rest : List ResRec) (s : State),
      let a := s.rf .CL_MR_RES_BASE n.val 0 17 * 512 + x.tok.r * 512 + x.c * 16
      (s.seq n).results = x :: rest ∧
      x.tok.r < s.rf .CL_MR_RES_CNT n.val 0 16 ∧
      streamServed s n 0 true a 16 = true ∧
      memAdmits s (.cluster n 0) true a 16 = true) ∧
    (∃ (n : Cluster) (x : ResRec) (rest : List ResRec) (s : State),
      (s.seq n).results = x :: rest ∧
      s.rf .CL_MR_RES_CNT n.val 0 16 ≤ x.tok.r) :=
  ⟨⟨0, ⟨3, ⟨0, 2, 1, true⟩, 0x80001234#32, 777, false⟩, [],
    (hopSt.setReg .CL_MR_RES_CNT 0 4#32).setSeq 0 { results := [⟨3, ⟨0, 2, 1, true⟩, 0x80001234#32, 777, false⟩] },
    by decide +kernel, by decide +kernel, by decide +kernel, by decide +kernel⟩,
   ⟨0, ⟨3, ⟨0, 2, 1, true⟩, 0x80001234#32, 777, false⟩, [],
    hopSt.setSeq 0 { results := [⟨3, ⟨0, 2, 1, true⟩, 0x80001234#32, 777, false⟩] }, by decide +kernel, by decide +kernel⟩⟩
theorem test_meets_LibraryPatched :
    (∃ (t : Nat) (r : Req) (d : Word) (s : State),
      Accepted r .HALLMARK_PATCH_CTRL 0 (d ||| 1#32) (s.at t) ∧
      s.rb .HALLMARK_STAT 0 8 = false ∧
      s.rb .HALLMARK_STAT 0 9 = false) ∧
    (∃ (s : State),
      s.rb .HALLMARK_STAT 0 9 = true) ∧
    (∃ (t : Nat) (r : Req) (d : Word) (s : State),
      Accepted r .HALLMARK_PATCH_CTRL 0 (d ||| 2#32) (s.at t) ∧
      bitOf d 0 = false ∧
      s.rb .HALLMARK_STAT 0 8 = true) ∧
    (∃ (t : Nat) (s : State),
      patchReady (s.at t) = true) :=
  ⟨⟨100, 0, 0#32, (up.setReg .HALLMARK_PATCH_LEN 0 5#32).setBytes 0 [1#8, 2#8],
    ⟨by decide +kernel, by decide +kernel, by decide +kernel, by decide +kernel, by decide +kernel, by decide +kernel, by decide +kernel⟩,
    by decide +kernel, by decide +kernel⟩,
   ⟨{ up.setReg .HALLMARK_STAT 0 0x200#32 with patch := [1#8] }, by decide +kernel⟩,
   ⟨100, 0, 0#32, { up.setReg .HALLMARK_STAT 0 0x100#32 with patch := [1#8] },
    ⟨by decide +kernel, by decide +kernel, by decide +kernel, by decide +kernel, by decide +kernel, by decide +kernel, by decide +kernel⟩,
    by decide +kernel, by decide +kernel⟩,
   ⟨100,
    { (up.setReg .HALLMARK_STAT 0 0x100#32).setReg .CL_MR_STAT 0 1#32 with patch := List.replicate 12 1#8 ++ [2#8, 0#8] },
    by decide +kernel⟩⟩
theorem test_meets_StampsLockWrapAndDrain :
    (∃ (n : Cluster) (s : State),
      s.rb .CLK_STAT 0 2 = true ∧
      cluRetired s n = false) ∧
    (∃ (n : Cluster) (s : State),
      stampLock s n = true) ∧
    (∃ (t : Nat) (n : Cluster) (s : State),
      let e := (s.at t).clasp / 2 ^ 48 % 65536
      s.rf .CL_TS_EPOCH n.val 0 16 ≠ e) ∧
    (∃ (n : Cluster) (r : StampRec) (rest : List StampRec) (s : State),
      let size := sizeOr (s.rf .CL_TS_WIN_SIZE n.val 0 20) 1048576
      let w := s.rf .CL_TS_WIN_WPTR n.val 0 20
      let a := s.rf .CL_TS_WIN_BASE n.val 6 20 * 64 + w * 8
      s.stampQ n = r :: rest ∧
      idxNext w size ≠ s.rf .CL_TS_WIN_RPTR n.val 0 20 ∧
      streamServed s n 1 false a 8 = true ∧
      memAdmits s (.cluster n 1) false a 8 = true) ∧
    (∃ (n : Cluster) (r : StampRec) (rest : List StampRec) (s : State),
      s.stampQ n = r :: rest ∧
      idxNext (s.rf .CL_TS_WIN_WPTR n.val 0 20) (sizeOr (s.rf .CL_TS_WIN_SIZE n.val 0 20) 1048576) = s.rf .CL_TS_WIN_RPTR n.val 0 20) :=
  ⟨⟨0, up, by decide +kernel, by decide +kernel⟩,
   ⟨0, (up.setReg .CL_TS_STAT 0 1#32).setChan 0 3 { gate := some (newGate 50 9000 false) }, by decide +kernel⟩,
   ⟨281474976710660, 0, up, by decide +kernel⟩,
   ⟨0, ⟨3, true, 123456789⟩, [⟨4, false, 5⟩],
    (({ hopSt with slcActive := [(0, 2)] }.setReg .CL_TS_WIN_RPTR 0 5#32).setStampQ 0 [⟨3, true, 123456789⟩, ⟨4, false, 5⟩]).setChan 0 3 { wrapFall := true },
    by decide +kernel, by decide +kernel, by decide +kernel, by decide +kernel⟩,
   ⟨0, ⟨3, true, 123456789⟩, [⟨4, false, 5⟩],
    (up.setReg .CL_TS_WIN_RPTR 0 1#32).setStampQ 0 [⟨3, true, 123456789⟩, ⟨4, false, 5⟩], by decide +kernel,
    by decide +kernel⟩⟩
theorem test_meets_GatesStartStopAndEnd :
    (∃ (t : Nat) (r : Req) (n : Cluster) (c : Channel) (d : Word) (s : State),
      let u := s.at t
      let g0 := if bitOf d 2 then s.pair .CH_RG_TSTART_LO .CH_RG_TSTART_HI (chIx n c) else startGrid u.clasp
      Accepted r .CH_RG_CTRL (chIx n c) (d ||| 1#32) u ∧
      bitOf d 1 = false ∧
      s.rb .CH_RG_STAT (chIx n c) 0 = false ∧
      StartsFree n s ∧
      u.clasp + 256 ≤ g0 ∧
      g0 < 2 ^ 64) ∧
    (∃ (t : Nat) (r : Req) (n : Cluster) (c : Channel) (d : Word) (s : State),
      let u := s.at t
      Accepted r .CH_RG_CTRL (chIx n c) (d ||| 1#32) u ∧
      bitOf d 1 = false ∧
      bitOf d 2 = true ∧
      s.rb .CH_RG_STAT (chIx n c) 0 = false ∧
      StartsFree n s ∧
      s.pair .CH_RG_TSTART_LO .CH_RG_TSTART_HI (chIx n c) < u.clasp + 256) ∧
    (∃ (t : Nat) (n : Cluster) (c : Channel) (g : Gate) (s : State),
      (s.chan n c).gate = some g ∧
      g.g0 ≤ (s.at t).clasp ∧
      s.rb .CH_RG_STAT (chIx n c) 4 = false) ∧
    (∃ (t : Nat) (r : Req) (n : Cluster) (c : Channel) (d : Word) (g : Gate) (s : State),
      let u := s.at t
      Accepted r .CH_RG_CTRL (chIx n c) (d ||| 2#32) u ∧
      s.rb .CH_RG_STAT (chIx n c) 0 = true ∧
      (s.chan n c).gate = some g ∧
      rgWaits u n c = false) ∧
    (∃ (t : Nat) (r : Req) (n : Cluster) (c : Channel) (d : Word) (s : State),
      let u := s.at t
      Accepted r .CH_RG_CTRL (chIx n c) (d ||| 2#32) u ∧
      s.rb .CH_RG_STAT (chIx n c) 0 = true ∧
      rgWaits u n c = true) ∧
    (∃ (t : Nat) (n : Cluster) (c : Channel) (g : Gate) (s : State),
      (s.chan n c).gate = some g ∧
      g.g1 ≤ (s.at t).clasp) ∧
    (∃ (t : Nat) (q : Req) (s : State),
      served (s.at t) q = true ∧
      pwrState (s.at t) = 2) :=
  ⟨⟨100, 0, 0, 3, 0x10#32, up,
    ⟨by decide +kernel, by decide +kernel, by decide +kernel, by decide +kernel, by decide +kernel, by decide +kernel, by decide +kernel⟩,
    by decide +kernel, by decide +kernel, by (try unfold StartsFree); decide +kernel, by decide +kernel,
    by decide +kernel⟩,
   ⟨100, 0, 0, 3, 0x14#32, up,
    ⟨by decide +kernel, by decide +kernel, by decide +kernel, by decide +kernel, by decide +kernel, by decide +kernel, by decide +kernel⟩,
    by decide +kernel, by decide +kernel, by decide +kernel, by (try unfold StartsFree); decide +kernel,
    by decide +kernel⟩,
   ⟨100, 0, 3, newGate 50 9000 true, up.setChan 0 3 { gate := some (newGate 50 9000 true) }, by decide +kernel,
    by decide +kernel, by decide +kernel⟩,
   ⟨100, 0, 0, 3, 8#32,
    { newGate 50 9000 false with n := 2, first := 26000, last := 30000, lastI := 1, si := 1, sii := 1, st := 4000, stt := 16000000, sit := 4000 },
    (up.setReg .CH_RG_STAT 3 1#32).setChan 0 3 { gate := some { newGate 50 9000 false with n := 2, first := 26000, last := 30000, lastI := 1, si := 1, sii := 1, st := 4000, stt := 16000000, sit := 4000 } },
    ⟨by decide +kernel, by decide +kernel, by decide +kernel, by decide +kernel, by decide +kernel, by decide +kernel, by decide +kernel⟩,
    by decide +kernel, by decide +kernel, by decide +kernel⟩,
   ⟨100, 0, 0, 3, 8#32, (up.setReg .CH_RG_STAT 3 3#32).setChan 0 3 { gate := some (newGate 500 9000 true) },
    ⟨by decide +kernel, by decide +kernel, by decide +kernel, by decide +kernel, by decide +kernel, by decide +kernel, by decide +kernel⟩,
    by decide +kernel, by decide +kernel⟩,
   ⟨10000, 0, 3,
    { newGate 50 9000 false with n := 2, first := 26000, last := 30000, lastI := 1, si := 1, sii := 1, st := 4000, stt := 16000000, sit := 4000 },
    ((up.setReg .CH_RG_STAT 3 1#32).setReg .CH_RG_CTRL 3 8#32).setChan 0 3 { gate := some { newGate 50 9000 false with n := 2, first := 26000, last := 30000, lastI := 1, si := 1, sii := 1, st := 4000, stt := 16000000, sit := 4000 } },
    by decide +kernel, by decide +kernel⟩,
   ⟨100, 0,
    ((up.setReg .CH_RG_STAT 3 6#32).setReg .CL_TS_DONE 0 8#32).setChan 0 3 { rgHeld := some [1#32,2#32,3#32,4#32,5#32,6#32,7#32,8#32,9#32,10#32,11#32,12#32,13#32,14#32,15#32] },
    by decide +kernel, by decide +kernel⟩⟩
theorem test_meets_TriggersFireWhereTheyQualify :
    (∃ (t : Nat) (n : Cluster) (u : Unit8) (j : Nat) (x : TrigEvt) (q : Qual) (s : State),
      let v := tunit (s.trig n) u.val
      SampleOf n u j x (s.at t) ∧
      Qualifies n u x q s ∧
      v.armed = true) ∧
    (∃ (t : Nat) (n : Cluster) (u : Unit8) (j un lim : Nat) (src : PAddr) (rest : List QEntry) (w : Wait) (x : TrigEvt) (q : Qual) (s : State),
      SampleOf n u j x (s.at t) ∧
      Qualifies n u x q s ∧
      (tunit (s.trig n) u.val).armed = true ∧
      (s.seq n).wait = some w ∧
      (s.seq n).q = .wtrig src un lim :: rest ∧
      un / 2 ^ u.val % 2 = 1 ∧
      w.fired = none ∧
      w.start ≤ 8 * j + 176) ∧
    (∃ (t : Nat) (n : Cluster) (u : Unit8) (j : Nat) (x : TrigEvt) (q : Qual) (s : State),
      SampleOf n u j x (s.at t) ∧
      Qualifies n u x q s ∧
      (tunit (s.trig n) u.val).armed = false) ∧
    (∃ (t : Nat) (r : Req) (n : Cluster) (u : Unit8) (d : Word) (s : State),
      Accepted r .CL_TRG_CTRL (trgIx n u.val) (d ||| 1#32) (s.at t) ∧
      bitOf d 1 = false) ∧
    (∃ (t : Nat) (r : Req) (n : Cluster) (u : Unit8) (d : Word) (s : State),
      Accepted r .CL_TRG_CTRL (trgIx n u.val) (d ||| 2#32) (s.at t)) ∧
    (∃ (t : Nat) (n : Cluster) (u : Unit8) (f : Nat) (s : State),
      let b := rearmStart s n u.val f
      (tunit (s.trig n) u.val).fired = some f ∧
      trgDead s n u.val = true ∧
      trgAuto s n u.val = true ∧
      trgFull (s.trig n) = false ∧
      b ≤ 8 * (((s.at t).clasp - 112) / 8)) ∧
    (∃ (n : Cluster) (r : TrigRec) (rest : List TrigRec) (s : State),
      let w := s.rf .CL_TRG_WIN_WPTR n.val 0 16
      let a := s.rf .CL_TRG_WIN_BASE n.val 7 19 * 128 + w * 128
      (s.trig n).queue = r :: rest ∧
      trgWinFull s n = false ∧
      ((s.trig n).turn = false ∨ (s.seq n).log = []) ∧
      streamServed s n 0 false a 128 = true ∧
      memAdmits s (.cluster n 0) false a 128 = true) :=
  ⟨⟨1000, 0, 2, 10, .edge 3 false true 85, (85, (0, false)),
    ((((((up.setReg .CL_TRG_CFG 2 0x400081#32).setReg .CL_TRG_SRC 2 3#32).setReg .CL_TRG_ACT 2 0x42100B00#32).setReg .RING_STAT 0 3#32).setReg .RING_LINE_TX 0 8#32).setSem 5 { holder := some (8, 0) }).setTrig 0 (setTunit { evts := [.edge 3 false true 85] } 2 { armed := true }),
    by (try unfold SampleOf); decide +kernel, by (try unfold Qualifies); decide +kernel, by decide +kernel⟩,
   ⟨1000, 0, 2, 10, 4, 0, ⟨false, 8⟩, [], ⟨50, 1, false, none⟩, .edge 3 false true 85, (85, (0, false)),
    (((up.setReg .CL_TRG_CFG 2 0x400081#32).setReg .CL_TRG_SRC 2 3#32).setSeq 0 { wait := some ⟨50, 1, false, none⟩, q := [.wtrig ⟨false, 8⟩ 4 0] }).setTrig 0 (setTunit { evts := [.edge 3 false true 85] } 2 { armed := true }),
    by (try unfold SampleOf); decide +kernel, by (try unfold Qualifies); decide +kernel, by decide +kernel,
    by decide +kernel, by decide +kernel, by decide +kernel, by decide +kernel, by decide +kernel⟩,
   ⟨1000, 0, 2, 10, .edge 3 false true 85, (85, (0, false)),
    ((up.setReg .CL_TRG_CFG 2 0x400081#32).setReg .CL_TRG_SRC 2 3#32).setTrig 0 { evts := [.edge 3 false true 85] },
    by (try unfold SampleOf); decide +kernel, by (try unfold Qualifies); decide +kernel, by decide +kernel⟩,
   ⟨1000, 0, 0, 2, 0#32, up,
    ⟨by decide +kernel, by decide +kernel, by decide +kernel, by decide +kernel, by decide +kernel, by decide +kernel, by decide +kernel⟩,
    by decide +kernel⟩,
   ⟨1000, 0, 0, 2, 1#32, up,
    ⟨by decide +kernel, by decide +kernel, by decide +kernel, by decide +kernel, by decide +kernel, by decide +kernel, by decide +kernel⟩⟩,
   ⟨1000, 0, 2, 80,
    ((up.setReg .CL_TRG_CFG 2 0x400081#32).setReg .CL_TRG_USTAT 2 2#32).setTrig 0 (setTunit { } 2 { fired := some 80 }),
    by decide +kernel, by decide +kernel, by decide +kernel, by decide +kernel, by decide +kernel⟩,
   ⟨0, ⟨10, 5, [(2, (7, (16, (85, false))))], false, false, false, some 9⟩, [],
    (hopSt.setReg .CL_TRG_WIN_RPTR 0 5#32).setTrig 0 { queue := [⟨10, 5, [(2, (7, (16, (85, false))))], false, false, false, some 9⟩] },
    by decide +kernel, by decide +kernel, by decide +kernel, by decide +kernel, by decide +kernel⟩⟩
theorem test_meets_TriggerConditionsQualify :
    (∃ (n : Cluster) (u : Unit8) (c : Nat) (s : State),
      trgKind s n u.val = 0 ∧
      c = trgCh s n u.val) ∧
    (∃ (n : Cluster) (u : Unit8) (s : State),
      trgCond s n u.val = 6) :=
  ⟨⟨0, 2, 3, (up.setReg .CL_TRG_CFG 2 0x7#32).setReg .CL_TRG_SRC 2 3#32, by decide +kernel, by decide +kernel⟩,
   ⟨0, 2, ((up.setReg .CL_TRG_CFG 2 0xD#32).setReg .CL_TRG_MMASK_H 2 8#32).setReg .CL_TRG_MVAL_H 2 8#32, by decide +kernel⟩⟩
theorem test_meets_CaptureEnginesCapture :
    (∃ (t : Nat) (r : Req) (n : Cluster) (e : Fin 2) (d : Word) (s : State),
      let b := ((s.at t).clasp + 31) / 32 * 32
      Accepted r .CL_CAP_CTRL (awgIx n e) (d ||| 1#32) (s.at t) ∧
      bitOf d 1 = false ∧
      fld d 6 2 ≠ 3 ∧
      cptRun s n e = false ∧
      StartsFree n s ∧
      b < 2 ^ 64) ∧
    (∃ (t : Nat) (r : Req) (n : Cluster) (e : Fin 2) (d : Word) (s : State),
      let u := s.at t
      let x := s.cpt n e
      Accepted r .CL_CAP_CTRL (awgIx n e) (d ||| 2#32) u ∧
      bitOf d 0 = false ∧
      cptRun s n e = true ∧
      x.stopK = none) ∧
    (∃ (t : Nat) (n : Cluster) (e : Fin 2) (s : State),
      let x := s.cpt n e
      cptRun s n e = true ∧
      cptEndOf s n e x.k ≤ (s.at t).clasp ∧
      (s.at t).clasp < cptEndOf s n e (x.k + 1)) ∧
    (∃ (n : Cluster) (e : Fin 2) (r : List Word) (rest : List (List Word)) (s : State),
      let ix := awgIx n e
      let w := s.rf .CL_CAP_WIN_WPTR ix 0 20
      let a := s.rf .CL_CAP_WIN_BASE ix 3 23 * 8 + 4 * w
      (s.cpt n e).queue = r :: rest ∧
      cptFull s n e r.length = false ∧
      streamServed s n (if e = 0 then 4 else 5) false a (4 * r.length) = true ∧
      memAdmits s (.cluster n (if e = 0 then 4 else 5)) false a (4 * r.length) = true) ∧
    (∃ (n : Cluster) (e : Fin 2) (r : List Word) (rest : List (List Word)) (s : State),
      (s.cpt n e).queue = r :: rest ∧
      cptFull s n e r.length = true) :=
  ⟨⟨1000, 0, 0, 1, 0x40#32, up.setReg .CL_CAP_MASK 1 8#32,
    ⟨by decide +kernel, by decide +kernel, by decide +kernel, by decide +kernel, by decide +kernel, by decide +kernel, by decide +kernel⟩,
    by decide +kernel, by decide +kernel, by decide +kernel, by (try unfold StartsFree); decide +kernel,
    by decide +kernel⟩,
   ⟨1000, 0, 0, 1, 0x40#32,
    ((up.setReg .CL_CAP_STAT 1 1#32).setReg .CL_CAP_CTRL 1 0x40#32).setCpt 0 1 { t0 := 32, k := 0, acc := [(3, ⟨1, -5, -5, false⟩)] },
    ⟨by decide +kernel, by decide +kernel, by decide +kernel, by decide +kernel, by decide +kernel, by decide +kernel, by decide +kernel⟩,
    by decide +kernel, by decide +kernel, by decide +kernel⟩,
   ⟨33000, 0, 1,
    (up.setReg .CL_CAP_STAT 1 3#32).setCpt 0 1 { t0 := 32, k := 0, stopK := some 0, mark := true, acc := [(7, ⟨1, 9, 9, true⟩), (3, ⟨1, -5, -5, false⟩)] },
    by decide +kernel, by decide +kernel, by decide +kernel⟩,
   ⟨0, 1, [1#32, 2#32], [[3#32]],
    (({ hopSt with slcActive := [(0, 6)] }.setReg .CL_CAP_WIN_SIZE 1 2#32).setReg .CL_CAP_CTRL 1 4#32).setCpt 0 1 { queue := [[1#32, 2#32], [3#32]] },
    by decide +kernel, by decide +kernel, by decide +kernel, by decide +kernel⟩,
   ⟨0, 1, [1#32], [], (up.setReg .CL_CAP_WIN_RPTR 1 1#32).setCpt 0 1 { queue := [[1#32]] }, by decide +kernel,
    by decide +kernel⟩⟩
theorem test_meets_GeneratorsStartStopAndClear :
    (∃ (t : Nat) (r : Req) (n : Cluster) (g : Fin 2) (d : Word) (s : State),
      let u := s.at t
      let b := if bitOf d 2 then (s.pair .CL_AWG_TSTART_LO .CL_AWG_TSTART_HI (awgIx n g) + 19) / 20 * 20 else awgGrid u.clasp
      let x := awgEntry s n g (fld d 16 10)
      Accepted r .CL_AWG_CTRL (awgIx n g) (d ||| 1#32) u ∧
      awgState s n g = 0 ∧
      govLevel s n < 2 ∧
      calIntrOn s n = false ∧
      asyBusy s n = false ∧
      calStepOn s n = false ∧
      u.clasp + 2560 ≤ b ∧
      (bitOf d 3 = true ∨ entOk x.1 x.2 = true)) ∧
    (∃ (t : Nat) (r : Req) (n : Cluster) (g : Fin 2) (d : Word) (s : State),
      let u := s.at t
      let late := bitOf d 2 && decide ((s.pair .CL_AWG_TSTART_LO .CL_AWG_TSTART_HI (awgIx n g) + 19) / 20 * 20 < u.clasp + 2560)
      let x := awgEntry s n g (fld d 16 10)
      Accepted r .CL_AWG_CTRL (awgIx n g) (d ||| 1#32) u ∧
      awgState s n g = 0 ∧
      calIntrOn s n = false ∧
      asyBusy s n = false ∧
      calStepOn s n = false ∧
      (2 ≤ govLevel s n ∨ late = true ∨ (bitOf d 3 = false ∧ entOk x.1 x.2 = false))) ∧
    (∃ (t : Nat) (n : Cluster) (g : Fin 2) (s : State),
      awgState s n g = 1 ∧
      (s.awg n g).t0 ≤ (s.at t).clasp) ∧
    (∃ (t : Nat) (r : Req) (n : Cluster) (g : Fin 2) (d : Word) (s : State),
      Accepted r .CL_AWG_CTRL (awgIx n g) (d ||| 2#32) (s.at t) ∧
      bitOf d 0 = false ∧
      (awgState s n g = 1 ∨ awgState s n g = 2)) ∧
    (∃ (n : Cluster) (g : Fin 2) (s : State),
      clrPin s n g = true) ∧
    (∃ (n : Cluster) (g : Fin 2) (s : State),
      auxDriven s n g = true ∧
      s.rb .CL_AWG_STAT (awgIx n g) 5 = false) ∧
    (∃ (t : Nat) (n : Cluster) (g : Fin 2) (x : Nat) (s : State),
      (s.awg n g).scSince = some x ∧
      auxDriven s n g = true ∧
      x + 800000 ≤ (s.at t).clasp) ∧
    (∃ (t : Nat) (r : Req) (n : Cluster) (g : Fin 2) (d : Word) (s : State),
      Accepted r .CL_AWG_CTRL (awgIx n g) (d ||| 32#32) (s.at t) ∧
      fld d 0 2 = 0) :=
  ⟨⟨1000, 0, 0, 1, 0x10040#32, setAwgEntry 0 1 1 (0x00300010#32, 0x00000020#32) up,
    ⟨by decide +kernel, by decide +kernel, by decide +kernel, by decide +kernel, by decide +kernel, by decide +kernel, by decide +kernel⟩,
    by decide +kernel, by decide +kernel, by decide +kernel, by decide +kernel, by decide +kernel, by decide +kernel,
    by decide +kernel⟩,
   ⟨1000, 0, 0, 1, 0x10040#32, up,
    ⟨by decide +kernel, by decide +kernel, by decide +kernel, by decide +kernel, by decide +kernel, by decide +kernel, by decide +kernel⟩,
    by decide +kernel, by decide +kernel, by decide +kernel, by decide +kernel, by decide +kernel⟩,
   ⟨4000, 0, 1, (up.setReg .CL_AWG_STAT 1 1#32).setAwg 0 1 { t0 := 4000, entry := 5 }, by decide +kernel, by decide +kernel⟩,
   ⟨1000, 0, 0, 1, 0x40#32, (up.setReg .CL_AWG_STAT 1 2#32).setReg .CL_AWG_CTRL 1 0x40#32,
    ⟨by decide +kernel, by decide +kernel, by decide +kernel, by decide +kernel, by decide +kernel, by decide +kernel, by decide +kernel⟩,
    by decide +kernel, by decide +kernel⟩,
   ⟨0, 1, up.setReg .CL_AWG_STAT 1 0x683#32, by decide +kernel⟩,
   ⟨0, 1, up.setReg .CL_AWG_ROUTE 1 3#32, by decide +kernel, by decide +kernel⟩,
   ⟨900000, 0, 1, 5, ((up.setReg .CL_AWG_ROUTE 1 3#32).setReg .CL_AWG_STAT 1 0x22#32).setAwg 0 1 { scSince := some 5 },
    by decide +kernel, by decide +kernel, by decide +kernel⟩,
   ⟨1000, 0, 0, 1, 0#32, up.setReg .CL_AWG_STAT 1 0x40#32,
    ⟨by decide +kernel, by decide +kernel, by decide +kernel, by decide +kernel, by decide +kernel, by decide +kernel, by decide +kernel⟩,
    by decide +kernel⟩⟩
theorem test_meets_GeneratorsPlayAndJump :
    (∃ (n : Cluster) (g : Fin 2) (s : State),
      let a := fetchTurn (s.awg n g)
      let k : Fin 6 := if g = 0 then 2 else 3
      (awgState s n g = 1 ∨ awgState s n g = 2) ∧
      awgDds s n g = false ∧
      a.refused = false ∧
      a.fifo.length ≤ 32 ∧
      0 < a.fetchLeft ∧
      streamServed s n k false a.fetchAt 64 = true) ∧
    (∃ (t : Nat) (n : Cluster) (g : Fin 2) (s : State),
      let a := s.awg n g
      PlaysSegments n g s ∧
      a.next = none ∧
      passCommit a ≤ (s.at t).clasp ∧
      NoJumpBefore n g (passCommit a) s) ∧
    (∃ (t : Nat) (n : Cluster) (g : Fin 2) (j : AwgJump) (s : State),
      let a := s.awg n g
      let x := awgEntry s n g j.target
      PlaysSegments n g s ∧
      a.next = none ∧
      passCommit a ≤ (s.at t).clasp ∧
      a.coming = [j] ∧
      a.jump = none ∧
      j.at_ / 20 * 20 < passCommit a ∧
      entOk x.1 x.2 = true) ∧
    (∃ (t : Nat) (n : Cluster) (g : Fin 2) (e left : Nat) (lo hi : Word) (jump : Option Bool) (s : State),
      let a := s.awg n g
      PlaysSegments n g s ∧
      passStop a ≤ (s.at t).clasp ∧
      a.next = some (.pass e lo hi left jump) ∧
      NoJumpBefore n g (passStop a) s ∧
      NoStopBy n g (passStop a) s ∧
      (a.refused = false ∨ 32 * entLen a.hi - a.pos ≤ a.fifo.length) ∧
      passStop a < 2 ^ 64) ∧
    (∃ (t : Nat) (n : Cluster) (g : Fin 2) (bad : Bool) (s : State),
      let a := s.awg n g
      PlaysSegments n g s ∧
      passStop a ≤ (s.at t).clasp ∧
      a.next = some (.stop bad) ∧
      NoJumpBefore n g (passStop a) s ∧
      NoStopBy n g (passStop a) s ∧
      (a.refused = false ∨ 32 * entLen a.hi - a.pos ≤ a.fifo.length)) ∧
    (∃ (t : Nat) (r : Req) (n : Cluster) (g : Fin 2) (d : Word) (s : State),
      Accepted r .CL_AWG_JUMP (awgIx n g) (d ||| 0x80000000#32) (s.at t)) ∧
    (∃ (t : Nat) (r : Req) (n : Cluster) (g : Fin 2) (d : Word) (s : State),
      Accepted r .CL_AWG_TDATA_HI (awgIx n g) d (s.at t)) ∧
    (∃ (t : Nat) (r : Req) (n : Cluster) (g : Fin 2) (w : DdsReg) (d : Word) (s : State),
      Accepted r (ddsReg w) (awgIx n g) d (s.at t)) ∧
    (∃ (t : Nat) (n : Cluster) (g : Fin 2) (x : Int) (more : List Int) (s : State),
      let u := (s.at t).clasp
      let a := s.awg n g
      let p := (u - a.start) / 20
      u % 20 = 0 ∧
      clrPin s n g = false ∧
      PlaysSegments n g s ∧
      NoStopBy n g u s ∧
      a.start ≤ u ∧
      u < passStop a ∧
      a.fifo.drop (p - a.pos) = x :: more) ∧
    (∃ (t : Nat) (n : Cluster) (g : Fin 2) (s : State),
      let u := (s.at t).clasp
      u % 20 = 0 ∧
      clrPin s n g = false ∧
      awgState s n g = 2 ∧
      awgDds s n g = true ∧
      NoStopBy n g u s) ∧
    (∃ (t : Nat) (n : Cluster) (g : Fin 2) (s : State),
      let u := (s.at t).clasp
      u % 20 = 0 ∧
      clrPin s n g = false ∧
      (awgState s n g ≠ 2 ∨ ∃ x, (s.awg n g).stopAt = some x ∧ x ≤ u)) :=
  ⟨⟨0, 1, ({ hopSt with slcActive := [(0, 4)] }.setReg .CL_AWG_STAT 1 1#32).setAwg 0 1 { fetchLeft := 9 },
    by decide +kernel, by decide +kernel, by decide +kernel, by decide +kernel, by decide +kernel, by decide +kernel⟩,
   ⟨10000, 0, 1, (up.setReg .CL_AWG_STAT 1 0xA#32).setAwg 0 1 { hi := 16#32, jump := some ⟨500, 7, true, false⟩ },
    by (try unfold PlaysSegments); decide +kernel, by decide +kernel, by (try unfold passCommit); decide +kernel,
    by (try unfold passCommit NoJumpBefore); decide +kernel⟩,
   ⟨10000, 0, 1, ⟨500, 1, true, false⟩,
    (setAwgEntry 0 1 1 (0x00300010#32, 0x00000020#32) (up.setReg .CL_AWG_STAT 1 2#32)).setAwg 0 1 { hi := 16#32, coming := [⟨500, 1, true, false⟩] },
    by (try unfold PlaysSegments); decide +kernel, by decide +kernel, by (try unfold passCommit); decide +kernel,
    by decide +kernel, by decide +kernel, by (try unfold passCommit); decide +kernel, by decide +kernel⟩,
   ⟨10300, 0, 1, 7, 2, 0x00300010#32, 32#32, some true,
    (up.setReg .CL_AWG_STAT 1 2#32).setAwg 0 1 { hi := 16#32, next := some (.pass 7 0x00300010#32 32#32 2 (some true)), pos := 500, fifo := [1, 2, 3, 4, 5, 6, 7, 8, 9, 10, 11, 12, 13] },
    by (try unfold PlaysSegments); decide +kernel, by (try unfold passStop); decide +kernel, by decide +kernel,
    by (try unfold passStop NoJumpBefore); decide +kernel, by (try unfold passStop NoStopBy); decide +kernel,
    by decide +kernel, by (try unfold passStop); decide +kernel⟩,
   ⟨10300, 0, 1, true, (up.setReg .CL_AWG_STAT 1 2#32).setAwg 0 1 { hi := 16#32, next := some (.stop true), lastX := 99 },
    by (try unfold PlaysSegments); decide +kernel, by (try unfold passStop); decide +kernel, by decide +kernel,
    by (try unfold passStop NoJumpBefore); decide +kernel, by (try unfold passStop NoStopBy); decide +kernel,
    by decide +kernel⟩,
   ⟨1000, 0, 0, 1, 77#32, up.setAwg 0 1 { coming := [⟨1040, 5, true, false⟩] },
    ⟨by decide +kernel, by decide +kernel, by decide +kernel, by decide +kernel, by decide +kernel, by decide +kernel, by decide +kernel⟩⟩,
   ⟨1000, 0, 0, 1, 0x40000010#32, (up.setReg .CL_AWG_TIDX 1 1023#32).setAwg 0 1 { tdLo := 77#32 },
    ⟨by decide +kernel, by decide +kernel, by decide +kernel, by decide +kernel, by decide +kernel, by decide +kernel, by decide +kernel⟩⟩,
   ⟨1000, 0, 0, 1, .ftwHi, 0x123440#32, up.setAwg 0 1 { ftwLo := 77#32 },
    ⟨by decide +kernel, by decide +kernel, by decide +kernel, by decide +kernel, by decide +kernel, by decide +kernel, by decide +kernel⟩⟩,
   ⟨1000, 0, 1, 32700, [5],
    (up.setReg .CL_AWG_STAT 1 2#32).setAwg 0 1 { hi := 16#32, start := 960, pos := 1, fifo := [4, 32700, 5] },
    by decide +kernel, by decide +kernel, by (try unfold PlaysSegments); decide +kernel,
    by (try unfold NoStopBy); decide +kernel, by decide +kernel, by (try unfold passStop); decide +kernel,
    by decide +kernel⟩,
   ⟨20000060, 0, 1,
    ((up.setReg .CL_AWG_STAT 1 2#32).setReg .CL_AWG_CTRL 1 8#32).setAwg 0 1 { ftw := 2 ^ 38, amp := 0x07801900#32, dds := [⟨20000060, 0, 2 ^ 39⟩] },
    by decide +kernel, by decide +kernel, by decide +kernel, by decide +kernel, by (try unfold NoStopBy); decide +kernel⟩,
   ⟨1000, 0, 1, (up.setReg .CL_AWG_STAT 1 2#32).setAwg 0 1 { hi := 16#32, start := 960, stopAt := some 980 },
    by decide +kernel, by decide +kernel, by decide +kernel⟩⟩
theorem test_meets_CapChecksStartsAndAborts :
    (∃ (t : Nat) (r : Req) (d : Word) (s : State),
      Accepted r .CAP_CTRL 0 (d ||| 1#32) (s.at t) ∧
      bitOf d 1 = false ∧
      capState s = 0) ∧
    (∃ (t : Nat) (e : CapErr) (s : State),
      slaveUp (s.at t) = true ∧
      capState s = 1 ∧
      capCheck s = some e ∧
      e.code < 32 ∧
      e.idx < 2 ^ 32) ∧
    (∃ (t : Nat) (s : State),
      let u := s.at t
      let f := (u.clasp + bf (s.bytes (flowAt s) 64) 20 8 + 7) / 8 * 8
      slaveUp u = true ∧
      capState s = 1 ∧
      capCheck s = none ∧
      sotSrc s = 0 ∧
      f < 2 ^ 64) ∧
    (∃ (t : Nat) (s : State),
      slaveUp (s.at t) = true ∧
      capState s = 1 ∧
      capCheck s = none ∧
      sotSrc s ≠ 0) ∧
    (∃ (t : Nat) (r : Req) (d : Word) (i : Nat) (x : CapSite) (s : State),
      Accepted r .CAP_CTRL 0 (d ||| 2#32) (s.at t) ∧
      bitOf d 0 = false ∧
      capState s ≠ 0 ∧
      capSiteAt s i = some x) ∧
    (∃ (t : Nat) (s : State),
      let u := s.at t
      let f := (u.clasp + s.cap.lead + 7) / 8 * 8
      slaveUp u = true ∧
      pwrState s = 2 ∧
      capState s = 2 ∧
      sotSrc s = 1 ∧
      (s.cap.polled = 0 ∨ s.cap.polled - 1 + max 1 (s.rf .CAP_PRB 0 16 16) * 8000 ≤ u.clasp) ∧
      s.rb .PSM_STAT 0 0 = false ∧
      f < 2 ^ 64) :=
  ⟨⟨100, 0, 0#32, up.setReg .CAP_STAT 0 0x18#32,
    ⟨by decide +kernel, by decide +kernel, by decide +kernel, by decide +kernel, by decide +kernel, by decide +kernel, by decide +kernel⟩,
    by decide +kernel, by decide +kernel⟩,
   ⟨100, ⟨2, 0, none⟩, ((capSt 3).setReg .CAP_STAT 0 1#32).setBytes 70 [1#8], by decide +kernel, by decide +kernel,
    by decide +kernel, by decide +kernel, by decide +kernel⟩,
   ⟨100, (capSt 3).setReg .CAP_STAT 0 1#32, by decide +kernel, by decide +kernel, by decide +kernel, by decide +kernel,
    by decide +kernel⟩,
   ⟨100, ((capSt 3).setReg .CAP_STAT 0 1#32).setReg .CAP_CTRL 0 0x10#32, by decide +kernel, by decide +kernel,
    by decide +kernel, by decide +kernel⟩,
   ⟨100, 0, 0x40#32, 0, site0, (inRun 1).setReg .RING_STAT 0 2#32,
    ⟨by decide +kernel, by decide +kernel, by decide +kernel, by decide +kernel, by decide +kernel, by decide +kernel, by decide +kernel⟩,
    by decide +kernel, by decide +kernel, by decide +kernel⟩,
   ⟨100,
    (({ capSt 3 with cap := { (flowSt 3).cap with sites := [site0] } }).setReg .CAP_STAT 0 2#32).setReg .CAP_CTRL 0 0x10#32,
    by decide +kernel, by decide +kernel, by decide +kernel, by decide +kernel, by decide +kernel, by decide +kernel,
    by decide +kernel⟩⟩
theorem test_meets_CapRunsAndJudgesRecords :
    (∃ (t : Nat) (r i : Nat) (x : CapSite) (s : State),
      let u := s.at t
      let b := s.bytes (s.cap.recAt + 64 * r) 64
      NextRecord r u ∧
      bf b 0 1 = 3 ∧
      capSiteAt s i = some x ∧
      x.active = true ∧
      x.next = r ∧
      r < 4096) ∧
    (∃ (t : Nat) (r i : Nat) (n : Cluster) (c : Channel) (s : State),
      let u := s.at t
      let b := s.bytes (s.cap.recAt + 64 * r) 64
      let T := recordT s
      NextRecord r u ∧
      bf b 0 1 = 2 ∧
      partSites s r = [i] ∧
      sitesClus s [i] = [n.val] ∧
      sitesMask s n.val (fun k => !([i] : List Nat).contains k) = 0#32 ∧
      recPads s ⟨r, T, b, [], [], false⟩ i = [(n.val, c.val)] ∧
      s.rb .CH_RG_STAT (chIx n c) 0 = false ∧
      StartsFree n s ∧
      u.clasp + 256 ≤ T ∧
      T < 2 ^ 64) ∧
    (∃ (t : Nat) (r i : Nat) (n : Cluster) (s : State),
      let u := s.at t
      let b := s.bytes (s.cap.recAt + 64 * r) 64
      let T := recordT s
      NextRecord r u ∧
      bf b 0 1 = 1 ∧
      partSites s r = [i] ∧
      sitesClus s [i] = [n.val] ∧
      idleNow u n = true ∧
      cluRetired s n = false ∧
      s.rb .CL_MR_STAT n.val 0 = false ∧
      patchBlocks s = false ∧
      StartsFree n s ∧
      s.rb .CL_TIM_STAT n.val 0 = true ∧
      (s.calSt n).back ≤ u.clasp ∧
      u.clasp + 256 ≤ T ∧
      T < 2 ^ 64) ∧
    (∃ (t : Nat) (x : CapRun) (n : Cluster) (s : State),
      let u := s.at t
      slaveUp u = true ∧
      s.cap.run = some x ∧
      bf x.bytes 0 1 = 1 ∧
      bf x.bytes 32 8 ≠ 0 ∧
      x.timedOut = false ∧
      x.t + bf x.bytes 32 8 ≤ u.clasp ∧
      x.clus = [(n.val, none)] ∧
      seqIdle s n = false ∧
      (s.seq n).unwind = false ∧
      (s.seq n).abort = none ∧
      (s.seq n).ending = none ∧
      (seqState s n ≠ 1 ∨ (s.seq n).seqNo ≠ 0)) ∧
    (∃ (t : Nat) (x : CapRun) (i : Nat) (y : CapSite) (s : State),
      let u := s.at t
      slaveUp u = true ∧
      s.cap.run = some x ∧
      recordOver s x = true ∧
      ((recLimits x).all fun l => !capRefused s (s.cap.limAt + 32 * l) 32) = true ∧
      partSites s x.r = [i] ∧
      capSiteAt s i = some y) ∧
    (∃ (t : Nat) (b : List Byte) (rest : List (List Byte)) (s : State),
      let w := s.rf .CAP_DLOG_WPTR 0 0 20
      let z := sizeOr (s.rf .CAP_DLOG_SIZE 0 0 20) 1048576
      let a := s.rf .CAP_DLOG_BASE 0 0 21 * 32 + w % z * 32
      slaveUp (s.at t) = true ∧
      s.cap.dlog = b :: rest ∧
      b.length = 32 ∧
      dlogFull s = false ∧
      memAdmits s .cap false a 32 = true) ∧
    (∃ (t : Nat) (s : State),
      let a := s.rf .CAP_DLOG_BASE 0 0 21 * 32 + s.rf .CAP_DLOG_WPTR 0 0 20 % sizeOr (s.rf .CAP_DLOG_SIZE 0 0 20) 1048576 * 32
      slaveUp (s.at t) = true ∧
      capState s = 4 ∧
      s.cap.phase = 0 ∧
      finishReady s = true ∧
      s.cap.aborted = false ∧
      dlogFull s = false ∧
      capRefused s a 32 = false ∧
      (s.rb .CAP_CTRL 0 3 = false ∨ capMaster s = false)) :=
  ⟨⟨100, 0, 0, site0, flowSt 3, by (try unfold NextRecord); decide +kernel, by decide +kernel, by decide +kernel,
    by decide +kernel, by decide +kernel, by decide +kernel⟩,
   ⟨100, 0, 0, 0, 3, flowSt 2, by (try unfold NextRecord); decide +kernel, by decide +kernel, by decide +kernel,
    by decide +kernel, by decide +kernel, by (try unfold recordT); decide +kernel, by decide +kernel,
    by (try unfold StartsFree); decide +kernel, by (try unfold recordT); decide +kernel,
    by (try unfold recordT); decide +kernel⟩,
   ⟨100, 0, 0, 0, (flowSt 1).setReg .CL_TIM_STAT 0 1#32, by (try unfold NextRecord); decide +kernel, by decide +kernel,
    by decide +kernel, by decide +kernel, by decide +kernel, by decide +kernel, by decide +kernel, by decide +kernel,
    by (try unfold StartsFree); decide +kernel, by decide +kernel, by decide +kernel,
    by (try unfold recordT); decide +kernel, by (try unfold recordT); decide +kernel⟩,
   ⟨170000, run0 1, 0, (inRun 1).setReg .CL_SEQ_STAT 0 2#32, by decide +kernel, by decide +kernel, by decide +kernel,
    by decide +kernel, by decide +kernel, by decide +kernel, by decide +kernel, by decide +kernel, by decide +kernel,
    by decide +kernel, by decide +kernel, by decide +kernel⟩,
   ⟨170000, run0 1, 0, site0, (inRun 1).setReg .CL_SEQ_RES 0 1#32, by decide +kernel, by decide +kernel, by decide +kernel,
    by decide +kernel, by decide +kernel, by decide +kernel⟩,
   ⟨100, List.replicate 32 7#8, [], { capSt 3 with cap := { dlog := [List.replicate 32 7#8] } }, by decide +kernel,
    by decide +kernel, by decide +kernel, by decide +kernel, by decide +kernel⟩,
   ⟨100,
    (({ capSt 3 with cap := { sites := [{ site0 with active := false, ended := some 90, untested := some (8, 255), last := 5, test := 77 }] } }).setReg .CAP_STAT 0 4#32).setReg .CAP_CTRL 0 8#32,
    by decide +kernel, by decide +kernel, by decide +kernel, by decide +kernel, by decide +kernel, by decide +kernel,
    by decide +kernel, by decide +kernel⟩⟩
theorem test_meets_MillraceGrantsRefusesAndDraws :
    (∃ (t : Nat) (n : Cluster) (k : Fin 6) (x : MillOp) (a : Nat) (s : State),
      let u := s.at t
      Admitted (.cluster n k) x a u ∧
      slcEntry s.slcActive (fabric u % 256) (bankOf a) = k.val + 1 ∧
      bankFree u (bankOf a) x = true ∧
      slotGrants u n k < slotLimit k) ∧
    (∃ (t : Nat) (n : Cluster) (k : Fin 6) (x : MillOp) (a : Nat) (s : State),
      let u := s.at t
      Admitted (.cluster n k) x a u ∧
      slcEntry s.slcActive (fabric u % 256) (bankOf a) = k.val + 1 ∧
      bankFree u (bankOf a) x = true ∧
      slotLimit k ≤ slotGrants u n k) ∧
    (∃ (t : Nat) (q : MillReq) (x : MillOp) (a why : Nat) (s : State),
      let u := s.at t
      (match q with | .cap => True | .mgmt => True | .cluster _ _ => True | _ => False) ∧
      partsOf a (opLen x) = [(a, opLen x)] ∧
      judge u q false a = .refuse why ∧
      lotMasked s (reqCode q) = false ∧
      presented s (reqCode q) = none ∧
      s.present = []) ∧
    (∃ (t : Nat) (q : MillReq) (r : Fin 8) (x : MillOp) (a : Nat) (s : State),
      let u := s.at t
      q = lotReq r.val ∧
      reqCode q = r.val ∧
      s.present = [] ∧
      lotMasked s r.val = false ∧
      partsOf (millAddr s q a) (opLen x) = [(millAddr s q a, opLen x)] ∧
      Admitted q x a u ∧
      bankFree u (bankOf (millAddr s q a)) x = true) ∧
    (∃ (t : Nat) (q1 q2 : MillReq) (r1 r2 : Fin 8) (x1 x2 : MillOp) (a1 a2 : Nat) (s : State),
      let u := s.at t
      let b := bankOf (millAddr s q1 a1)
      q1 = lotReq r1.val ∧
      q2 = lotReq r2.val ∧
      reqCode q1 = r1.val ∧
      reqCode q2 = r2.val ∧
      r1.val < r2.val ∧
      s.present = [] ∧
      s.lotPend = false ∧
      lotMasked s r1.val = false ∧
      lotMasked s r2.val = false ∧
      bankOf (millAddr s q2 a2) = b ∧
      partsOf (millAddr s q1 a1) (opLen x1) = [(millAddr s q1 a1, opLen x1)] ∧
      partsOf (millAddr s q2 a2) (opLen x2) = [(millAddr s q2 a2, opLen x2)] ∧
      Admitted q1 x1 a1 u ∧
      Admitted q2 x2 a2 u ∧
      bankFree u b x1 = true ∧
      bankFree u b x2 = true) ∧
    (∃ (t : Nat) (r : Fin 8) (x : MillOp) (a c : Nat) (s : State),
      let u := s.at t
      let q := lotReq r.val
      s.present = [(r.val, (x, (a, c)))] ∧
      c ≤ fabric u ∧
      lotMasked s r.val = false ∧
      partsOf (millAddr s q a) (opLen x) = [(millAddr s q a, opLen x)] ∧
      Admitted q x a u ∧
      bankFree u (bankOf (millAddr s q a)) x = true) ∧
    (∃ (t : Nat) (h : Dom) (a len : Nat) (s : State),
      let u := s.at t
      LinkReady h u ∧
      0 < len ∧
      a + len ≤ 67108864) ∧
    (∃ (t : Nat) (h : Dom) (a : Nat) (bytes : List Byte) (s : State),
      let u := s.at t
      let y := millAddr s (.host h) a
      LinkReady h u ∧
      bytes ≠ [] ∧
      a + bytes.length ≤ 67108864 ∧
      memWaits u (.host h) false y bytes.length = false ∧
      memAdmits u (.host h) false y bytes.length = true) :=
  ⟨⟨100, 0, 1, .atomic true [255#8, 1#8], 100, { hopSt with slcActive := [(64 * 12, 2)] }.setBytes 100 [7#8, 7#8],
    by (try unfold Admitted); decide +kernel, by decide +kernel, by decide +kernel, by decide +kernel⟩,
   ⟨100, 0, 1, .read 4, 100, { hopSt with slcActive := [(64 * 12, 2)], slcCnt := [(1, 32)] },
    by (try unfold Admitted); decide +kernel, by decide +kernel, by decide +kernel, by decide +kernel⟩,
   ⟨100, .cap, .read 4, 100, 0, hopSt, by decide +kernel, by decide +kernel, by decide +kernel, by decide +kernel,
    by decide +kernel, by decide +kernel⟩,
   ⟨100, .cap, 4, .write [9#8, 8#8], 100, (up.setReg .BANK_OWN 0 40#32).setReg .LOT_STAT 4 3#32, by decide +kernel,
    by decide +kernel, by decide +kernel, by decide +kernel, by decide +kernel, by (try unfold Admitted); decide +kernel,
    by decide +kernel⟩,
   ⟨100, .mgmt, .cal, 5, 7, .read 8, .write [1#8], 786432, 786440, up.setReg .LOT_STAT 5 9#32, by decide +kernel,
    by decide +kernel, by decide +kernel, by decide +kernel, by decide +kernel, by decide +kernel, by decide +kernel,
    by decide +kernel, by decide +kernel, by decide +kernel, by decide +kernel, by decide +kernel,
    by (try unfold Admitted); decide +kernel, by (try unfold Admitted); decide +kernel, by decide +kernel,
    by decide +kernel⟩,
   ⟨100, 4, .write [9#8, 8#8], 100, 12,
    { (up.setReg .BANK_OWN 0 40#32).setReg .LOT_STAT 4 3#32 with present := [(4, (.write [9#8, 8#8], (100, 12)))] },
    by decide +kernel, by decide +kernel, by decide +kernel, by decide +kernel, by (try unfold Admitted); decide +kernel,
    by decide +kernel⟩,
   ⟨100, 0, 100, 4, (up.setReg .BANK_OWN 0 32#32).setBytes 100 [1#8, 2#8, 3#8, 4#8, 5#8],
    by (try unfold LinkReady); decide +kernel, by decide +kernel, by decide +kernel⟩,
   ⟨100, 0, 58720356, [3#8, 255#8], (up.setReg .BANK_OWN 0 32#32).setBytes 100 [1#8, 2#8, 3#8, 4#8, 5#8],
    by (try unfold LinkReady); decide +kernel, by decide +kernel, by decide +kernel, by decide +kernel, by decide +kernel⟩⟩
theorem test_meets_BanksTablesAndSemaphores :
    (∃ (t : Nat) (r : Req) (b : Bank) (d : Word) (s : State),
      let o := fld d 0 6
      Accepted r .BANK_OWN b.val d (s.at t) ∧
      o ≠ s.rf .BANK_OWN b.val 0 6) ∧
    (∃ (b : Bank) (s : State),
      s.rb .BANK_OWN b.val 16 = true ∧
      s.waiting = []) ∧
    (∃ (b : Bank) (h : Dom) (a : Nat) (bytes : List Byte) (s : State),
      s.rb .BANK_OWN b.val 16 = true ∧
      s.rf .BANK_OWN b.val 8 6 = 32 + h.val ∧
      s.waiting = [(.host h, (.write bytes, a))] ∧
      a + bytes.length ≤ 50331648 ∧
      bytes ≠ [] ∧
      bankOf a = b.val ∧
      bankOf (a + bytes.length - 1) = b.val ∧
      s.rf .BANK_STATE b.val 4 2 = 0 ∧
      s.rb .BANK_STATE b.val 8 = false) ∧
    (∃ (t : Nat) (r : Req) (b : Bank) (d : Word) (s : State),
      Accepted r .BANK_STATE b.val d (s.at t)) ∧
    (∃ (b : Bank) (s : State),
      s.rb .BANK_STATE b.val 8 = true ∧
      s.waiting = []) ∧
    (∃ (t : Nat) (r : Req) (d : Word) (s : State),
      Accepted r .SLC_DATA 0 d (s.at t)) ∧
    (∃ (t : Nat) (r : Req) (s : State),
      served (s.at t) r = true ∧
      pwrState s = 2) ∧
    (∃ (t : Nat) (r : Req) (d : Word) (s : State),
      Accepted r .SLC_COMMIT 0 (d ||| 1#32) (s.at t) ∧
      s.slcAt = none) ∧
    (∃ (t x : Nat) (s : State),
      s.slcAt = some x ∧
      x ≤ fabric (s.at t)) ∧
    (∃ (t : Nat) (r : Req) (d : Word) (s : State),
      Accepted r .LOT_COMMIT 0 (d ||| 1#32) (s.at t)) ∧
    (∃ (t : Nat) (r : Req) (d : Word) (s : State),
      Accepted r .LOT_LFSR 0 d (s.at t)) ∧
    (∃ (t : Nat) (r : Req) (k : Sem) (d : Word) (h : Nat) (s : State),
      Accepted r .SEM_ACQ k.val d (s.at t) ∧
      semFor s r k.val d = some h) ∧
    (∃ (t : Nat) (r : Req) (k : Sem) (d : Word) (h g : Nat) (s : State),
      let m := s.sem k.val
      Accepted r .SEM_REL k.val d (s.at t) ∧
      m.holder = some (h, g) ∧
      (h = r.val ∨ (bitOf d 7 = true ∧ h = 8 + fld d 0 5 ∧ g = r.val))) ∧
    (∃ (s : State),
      let ks := calWants s
      ks ≠ [] ∧
      (ks.all fun k => decide ((s.sem k).holder = none) && decide ((s.sem k).queue.head?.map (·.1) = some 6)) = true) :=
  ⟨⟨100, 0, 5, 33#32, up,
    ⟨by decide +kernel, by decide +kernel, by decide +kernel, by decide +kernel, by decide +kernel, by decide +kernel, by decide +kernel⟩,
    by decide +kernel⟩,
   ⟨5, up.setReg .BANK_OWN 5 0x12130#32, by decide +kernel, by decide +kernel⟩,
   ⟨0, 1, 100, [7#8], { up.setReg .BANK_OWN 0 0x12130#32 with waiting := [(.host 1, (.write [7#8], 100))] },
    by decide +kernel, by decide +kernel, by decide +kernel, by decide +kernel, by decide +kernel, by decide +kernel,
    by decide +kernel, by decide +kernel, by decide +kernel⟩,
   ⟨100, 0, 5, 2#32, up,
    ⟨by decide +kernel, by decide +kernel, by decide +kernel, by decide +kernel, by decide +kernel, by decide +kernel, by decide +kernel⟩⟩,
   ⟨0, (up.setReg .BANK_STATE 0 0x120#32).setBytes 100 [1#8, 2#8], by decide +kernel, by decide +kernel⟩,
   ⟨100, 0, 0x654321#32, { up.setReg .SLC_IDX 0 0x2FF#32 with slcShadow := [(5, 5), (64 * 255 + 16, 7)] },
    ⟨by decide +kernel, by decide +kernel, by decide +kernel, by decide +kernel, by decide +kernel, by decide +kernel, by decide +kernel⟩⟩,
   ⟨100, 0, { up with slcShadow := [(5, 5)] }, by decide +kernel, by decide +kernel⟩,
   ⟨10000080, 0, 0#32, up,
    ⟨by decide +kernel, by decide +kernel, by decide +kernel, by decide +kernel, by decide +kernel, by decide +kernel, by decide +kernel⟩,
    by decide +kernel⟩,
   ⟨10000384, 1250048, { up with slcAt := some 1250048, slcShadow := [(5, 5)] }, by decide +kernel, by decide +kernel⟩,
   ⟨100, 0, 0#32, up,
    ⟨by decide +kernel, by decide +kernel, by decide +kernel, by decide +kernel, by decide +kernel, by decide +kernel, by decide +kernel⟩⟩,
   ⟨100, 0, 0#32, up,
    ⟨by decide +kernel, by decide +kernel, by decide +kernel, by decide +kernel, by decide +kernel, by decide +kernel, by decide +kernel⟩⟩,
   ⟨100, 0, 3, 0#32, 0, up.setSem 3 { holder := some (4, 4) },
    ⟨by decide +kernel, by decide +kernel, by decide +kernel, by decide +kernel, by decide +kernel, by decide +kernel, by decide +kernel⟩,
    by decide +kernel⟩,
   ⟨100, 0, 3, 0#32, 0, 0, up.setSem 3 { holder := some (0, 0), queue := [(4, 4), (1, 1)] },
    ⟨by decide +kernel, by decide +kernel, by decide +kernel, by decide +kernel, by decide +kernel, by decide +kernel, by decide +kernel⟩,
    by decide +kernel, by decide +kernel⟩,
   ⟨(up.setSem 0 { queue := [(6, 6), (1, 1)] }).setSem 1 { queue := [(6, 6)] }, by decide +kernel, by decide +kernel⟩⟩
theorem test_meets_LinksDmaAndDomainResets :
    (∃ (t : Nat) (r : Req) (h : Dom) (k : Fin 2) (d : Word) (s : State),
      Accepted r (dmaCtrl k) h.val d (s.at t)) ∧
    (∃ (t : Nat) (h : Dom) (k : Fin 2) (host : List Byte) (s : State),
      let u := s.at t
      let d := host.take 32
      let x := dWord d
      DmaTakes h k u ∧
      32 ≤ host.length ∧
      descBad d = false ∧
      x % 2 = 1 ∧
      memAdmits u (.host h) false (dMp d) (dLen d) = true) ∧
    (∃ (t : Nat) (h : Dom) (k : Fin 2) (host : List Byte) (s : State),
      let u := s.at t
      let d := host.take 32
      let x := dWord d
      DmaTakes h k u ∧
      32 + dLen d ≤ host.length ∧
      descBad d = false ∧
      x % 2 = 0 ∧
      x / 8 % 2 = 0 ∧
      memAdmits u (.host h) false (dMp d) (dLen d) = true) ∧
    (∃ (t : Nat) (h : Dom) (k : Fin 2) (host : List Byte) (s : State),
      DmaTakes h k (s.at t) ∧
      (host.length < 32 ∨ descBad (host.take 32) = true)) ∧
    (∃ (t : Nat) (h : Dom) (k : Fin 2) (s : State),
      linkServes (s.at t) h.val = true ∧
      dmaBusy s h.val k = true) ∧
    (∃ (t : Nat) (r : Req) (d : Word) (s : State),
      Accepted r .DOM_MGMT 0 d (s.at t)) ∧
    (∃ (h : Dom) (s : State),
      linkUp s h.val = true) ∧
    (∃ (h : Dom) (s : State),
      s.rb .HL_STAT h.val 0 = true ∧
      s.rf .HL_STAT h.val 7 2 = 3 ∧
      pwrState s = 2) ∧
    (∃ (t : Nat) (h : Dom) (rate width : Nat) (s : State),
      slaveUp (s.at t) = true ∧
      s.rb .HL_STAT h.val 0 = false ∧
      1 ≤ rate ∧
      rate ≤ 4 ∧
      (width = 1 ∨ width = 2 ∨ width = 4)) :=
  ⟨⟨100, 1, 1, 1, 1#32, up.setReg .HL_STAT 1 1#32,
    ⟨by decide +kernel, by decide +kernel, by decide +kernel, by decide +kernel, by decide +kernel, by decide +kernel, by decide +kernel⟩⟩,
   ⟨100, 0, 1, leBytes 8 4096 ++ leBytes 4 100 ++ leBytes 4 8 ++ leBytes 4 0x309 ++ leBytes 12 0,
    { (((up.setReg .BANK_OWN 0 32#32).setReg .HDMA1_CTRL 0 1#32).setReg .HDMA1_TAIL 0 1#32).setBytes 100 [1#8, 2#8, 3#8] with msix := [(15, 0#32)] },
    by (try unfold DmaTakes); decide +kernel, by decide +kernel, by decide +kernel,
    by (try unfold dWord); decide +kernel, by (try unfold dMp dLen); decide +kernel⟩,
   ⟨100, 0, 0, leBytes 8 4096 ++ leBytes 4 100 ++ leBytes 4 4 ++ leBytes 4 4 ++ leBytes 12 0 ++ [255#8, 1#8, 0#8, 3#8],
    (((up.setReg .BANK_OWN 0 32#32).setReg .HDMA0_CTRL 0 1#32).setReg .HDMA0_TAIL 0 1#32).setBytes 100 [1#8, 2#8, 3#8],
    by (try unfold DmaTakes); decide +kernel, by (try unfold dLen); decide +kernel, by decide +kernel,
    by (try unfold dWord); decide +kernel, by (try unfold dWord); decide +kernel,
    by (try unfold dMp dLen); decide +kernel⟩,
   ⟨100, 0, 0, List.replicate 32 1#8, ((up.setReg .BANK_OWN 0 32#32).setReg .HDMA0_CTRL 0 1#32).setReg .HDMA0_TAIL 0 1#32,
    by (try unfold DmaTakes); decide +kernel, by decide +kernel⟩,
   ⟨100, 0, 0, ((up.setReg .BANK_OWN 0 32#32).setReg .HDMA0_CTRL 0 1#32).setReg .HDMA0_TAIL 0 1#32, by decide +kernel,
    by decide +kernel⟩,
   ⟨100, 0, 2#32, up,
    ⟨by decide +kernel, by decide +kernel, by decide +kernel, by decide +kernel, by decide +kernel, by decide +kernel, by decide +kernel⟩⟩,
   ⟨0, ((up.setReg .BANK_OWN 0 32#32).setReg .HDMA0_CTRL 0 1#32).setReg .HDMA0_TAIL 0 1#32, by decide +kernel⟩,
   ⟨0, up.setReg .HL_STAT 0 0x381#32, by decide +kernel, by decide +kernel, by decide +kernel⟩,
   ⟨100, 2, 4, 4, { up with owed := 4, msix := [(515, 0#32)] }, by decide +kernel, by decide +kernel, by decide +kernel,
    by decide +kernel, by decide +kernel⟩⟩
theorem test_meets_RegisterWritesAndTransactions :
    (∃ (t : Nat) (q : Req) (a : BitVec 26) (d : Word) (be : BitVec 4) (size : Nat) (s : State),
      let u := s.at t
      let code := if size = 4 then refuseCode q a.toNat d (writeMask q be) u else 4
      served u q = true ∧
      pwrState u = 2 ∧
      (size = 4 → a.toNat % 4 = 0 ∧ stages q a.toNat u = false) ∧
      code ≠ 0) ∧
    (∃ (t : Nat) (q : Req) (a : BitVec 26) (s : State),
      let u := s.at t
      served u q = true ∧
      pwrState u = 2 ∧
      a.toNat % 4 = 0 ∧
      stages q a.toNat u = true) ∧
    (∃ (t : Nat) (q : Req) (a : BitVec 26) (d : Word) (be : BitVec 4) (x : State) (s : State),
      let u := s.at t
      PlainlyServed q a 4 u ∧
      refuseCode q a.toNat d (writeMask q be) u = 0 ∧
      regPut q a.toNat d (flowBits q a.toNat (writeMask q be) u) u = .ok x) ∧
    (∃ (t : Nat) (q : Req) (d : Word) (be : BitVec 4) (s : State),
      let a := BitVec.ofNat 26 (Reg.addr .CAP_LEAD 0)
      PlainlyServed q a 4 (s.at t) ∧
      refuseCode q a.toNat d (writeMask q be) (s.at t) = 0) ∧
    (∃ (t : Nat) (q : Req) (lo hi : Reg) (i : Nat) (s : State),
      let u := s.at t
      let a := BitVec.ofNat 26 (lo.addr i)
      served u q = true ∧
      pwrState u = 2 ∧
      pairHi lo = some hi ∧
      regAt a.toNat = some (lo, i)) ∧
    (∃ (t : Nat) (r : Req) (h : Dom) (d : Word) (s : State),
      Accepted r .TXN_CTRL h.val (d ||| 1#32) (s.at t) ∧
      txnState s h.val = 0) ∧
    (∃ (t : Nat) (r : Req) (h : Dom) (d : Word) (s : State),
      Accepted r .TXN_CTRL h.val (d ||| 2#32) (s.at t) ∧
      bitOf d 0 = false ∧
      bitOf d 2 = false ∧
      txnState s h.val = 1) ∧
    (∃ (t : Nat) (r : Req) (h : Dom) (d : Word) (s : State),
      Accepted r .TXN_CTRL h.val (d ||| 4#32) (s.at t) ∧
      bitOf d 0 = false ∧
      (txnState s h.val = 1 ∨ (txnState s h.val = 2 ∧ bitOf d 1 = false))) ∧
    (∃ (t c : Nat) (h : Dom) (s : State),
      txnState s h.val = 2 ∧
      ((s.txn h.val).cycle = some c ∧ c ≤ (s.at t).clasp ∨ (s.txn h.val).cycle = none ∧ txnIdle (s.at t) h.val = true ∧ c = (s.at t).clasp / 80 * 80) ∧
      s.rb .TXN_STAT h.val 8 = false ∧
      c < 2 ^ 64) ∧
    (∃ (t : Nat) (h : Dom) (s : State),
      txnState s h.val = 2 ∧
      s.rb .TXN_STAT h.val 8 = true ∧
      ((s.txn h.val).cycle.any fun c => decide (c ≤ (s.at t).clasp)) = true) ∧
    (∃ (t c : Nat) (h : Dom) (w : Staged) (s : State),
      let code := refuseCode (domReq h) w.addr w.data w.mask (s.at c)
      txnState s h.val = 2 ∧
      s.rb .TXN_STAT h.val 8 = false ∧
      s.txn h.val = { staged := [w], cycle := some c } ∧
      c ≤ (s.at t).clasp ∧
      resetIdx [w] (s.at c) = none ∧
      code ≠ 0) ∧
    (∃ (t c : Nat) (h : Dom) (d1 d2 : Word) (s : State),
      let a := Reg.addr .CAP_LEAD 0
      txnState s h.val = 2 ∧
      s.rb .TXN_STAT h.val 8 = false ∧
      s.txn h.val = { staged := [⟨a, d1, 15#4⟩, ⟨a, d2, 15#4⟩], cycle := some c } ∧
      c ≤ (s.at t).clasp ∧
      isMgmt s (domReq h) = true ∧
      c < 2 ^ 64) :=
  ⟨⟨100, 1, 0x1000000#26, 1#32, 15#4, 4, up.setReg .HL_STAT 1 1#32, by decide +kernel, by decide +kernel, by decide +kernel,
    by (try unfold writeMask); decide +kernel⟩,
   ⟨100, 0, 0x1000000#26, up.setReg .TXN_STAT 0 1#32, by decide +kernel, by decide +kernel, by decide +kernel,
    by decide +kernel⟩,
   ⟨100, 0, 0x10018#26, 7#32, 15#4, (regPut 0 0x10018 7#32 0xFFFFFFFF#32 (up.at 100)).state, up,
    by (try unfold PlainlyServed); decide +kernel, by (try unfold writeMask); decide +kernel,
    by (try unfold writeMask); decide +kernel⟩,
   ⟨100, 0, 0x12345678#32, 6#4, up, by (try unfold PlainlyServed); decide +kernel, by (try unfold writeMask); decide +kernel⟩,
   ⟨281474976710660, 0, .RING_TIME_LO, .RING_TIME_HI, 0, up, by decide +kernel, by decide +kernel, by decide +kernel,
    by decide +kernel⟩,
   ⟨100, 0, 0, 2#32, up.setReg .TXN_RES 0 5#32,
    ⟨by decide +kernel, by decide +kernel, by decide +kernel, by decide +kernel, by decide +kernel, by decide +kernel, by decide +kernel⟩,
    by decide +kernel⟩,
   ⟨100, 0, 0, 0x20#32, (up.setReg .TXN_STAT 0 1#32).setReg .TXN_TIME_LO 0 10000#32,
    ⟨by decide +kernel, by decide +kernel, by decide +kernel, by decide +kernel, by decide +kernel, by decide +kernel, by decide +kernel⟩,
    by decide +kernel, by decide +kernel, by decide +kernel⟩,
   ⟨100, 0, 0, 0#32, up.setReg .TXN_STAT 0 2#32,
    ⟨by decide +kernel, by decide +kernel, by decide +kernel, by decide +kernel, by decide +kernel, by decide +kernel, by decide +kernel⟩,
    by decide +kernel, by decide +kernel⟩,
   ⟨100, 80, 0,
    (up.setReg .TXN_STAT 0 2#32).setTxn 0 { staged := [⟨0x10018, 7#32, 15#4⟩, ⟨0x10018, 9#32, 15#4⟩], cycle := some 80 },
    by decide +kernel, by decide +kernel, by decide +kernel, by decide +kernel⟩,
   ⟨100, 0, (up.setReg .TXN_STAT 0 0x102#32).setTxn 0 { cycle := some 80, lost := 77 }, by decide +kernel,
    by decide +kernel, by decide +kernel⟩,
   ⟨100, 80, 1, ⟨0x1000000, 1#32, 15#4⟩,
    (up.setReg .TXN_STAT 1 2#32).setTxn 1 { staged := [⟨0x1000000, 1#32, 15#4⟩], cycle := some 80 }, by decide +kernel,
    by decide +kernel, by decide +kernel, by decide +kernel, by decide +kernel, by decide +kernel⟩,
   ⟨100, 80, 0, 7#32, 9#32,
    (up.setReg .TXN_STAT 0 2#32).setTxn 0 { staged := [⟨0x10018, 7#32, 15#4⟩, ⟨0x10018, 9#32, 15#4⟩], cycle := some 80 },
    by decide +kernel, by decide +kernel, by decide +kernel, by decide +kernel, by decide +kernel, by decide +kernel⟩⟩
theorem test_meets_RingPassesSlots :
    (∃ (t : Nat) (r : Req) (d : Word) (s : State),
      Accepted r .RING_CTRL 0 d (s.at t) ∧
      bitOf d 1 = false ∧
      bitOf d 3 = false) ∧
    (∃ (t : Nat) (slot : List Byte) (s : State),
      slaveUp (s.at t) = true ∧
      ringState s = 1 ∧
      slotGood slot = true ∧
      s.ring.good < 64) ∧
    (∃ (t : Nat) (slot : List Byte) (s : State),
      slaveUp (s.at t) = true ∧
      2 ≤ ringState s ∧
      slotGood slot = false) ∧
    (∃ (t : Nat) (slot : List Byte) (s : State),
      let m := slotMsg slot
      SlotAlone slot (s.at t) ∧
      (m.type = 0 ∨ (6 ≤ m.type ∧ m.origin ≠ ringId s))) ∧
    (∃ (t : Nat) (slot : List Byte) (s : State),
      let m := slotMsg slot
      SlotAlone slot (s.at t) ∧
      (1 ≤ m.type ∧ m.type ≤ 5 ∧ m.origin ≠ ringId s) ∧
      (s.ring.seen.find? fun y => decide (y.1 = m.origin)).map Prod.snd ≠ some (m.type, m.seqno)) ∧
    (∃ (t : Nat) (slot : List Byte) (o : RingMsg) (k : Nat × Nat) (s : State),
      let m := slotMsg slot
      slaveUp (s.at t) = true ∧
      2 ≤ ringState s ∧
      slotGood slot = true ∧
      s.ring.sender = some (sym slot 2 % 32) ∧
      m.origin = ringId s ∧
      (m.type = 1 ∨ m.type = 4 ∨ m.type = 5) ∧
      s.ring.round = 0 ∧
      s.ring.own = some (o, k) ∧
      (o.type = m.type ∧ o.seqno = m.seqno) ∧
      sym slot 3 = 0 ∧
      s.ring.abortAt = none ∧
      s.ring.lines = [] ∧
      (∀ j : Nat, j < 8 → lineField slot j = 0)) ∧
    (∃ (t : Nat) (slot : List Byte) (arr k e a : Nat) (m : RingMsg) (rest : List RingMsg) (s : State),
      let mo := slotOut (s.at t) arr
      slaveUp (s.at t) = true ∧
      2 ≤ ringState s ∧
      slotGood slot = true ∧
      s.ring.sender = some (sym slot 2 % 32) ∧
      (slotMsg slot).type = 0 ∧
      sym slot 3 = 0 ∧
      (∀ j : Nat, j < 8 → lineField slot j = 0) ∧
      k < 8 ∧
      s.ring.lines = [(k, (e, a))] ∧
      a + 80 ≤ 2560 * mo ∧
      s.ring.abortAt = some a ∧
      s.ring.own = none ∧
      s.ring.round = 0 ∧
      s.ring.quiet ≤ mo ∧
      s.ring.queue = m :: rest) ∧
    (∃ (close : Bool) (s : State),
      close = (decide (ringState s < 2) || !s.rb .PWR_RAIL 0 2 || !s.rb .PWR_RAIL 0 3)) ∧
    (∃ (t : Nat) (r : Req) (d : Word) (s : State),
      Accepted r .RING_CTRL 0 (d ||| 8#32) (s.at t) ∧
      bitOf d 0 = true ∧
      bitOf d 1 = false ∧
      2 ≤ ringState s) ∧
    (∃ (t : Nat) (m : RingMsg) (sent k : Nat) (s : State),
      let due := sent + 96 < (s.at t).clasp / 2560
      2 ≤ ringState s ∧
      s.ring.own = some (m, (sent, k)) ∧
      0 < sent ∧
      due) :=
  ⟨⟨100, 0, 5#32, up,
    ⟨by decide +kernel, by decide +kernel, by decide +kernel, by decide +kernel, by decide +kernel, by decide +kernel, by decide +kernel⟩,
    by decide +kernel, by decide +kernel⟩,
   ⟨100, slotOf [] 0, { up.setReg .RING_STAT 0 5#32 with ring := { good := 63 } }, by decide +kernel, by decide +kernel,
    by decide +kernel, by decide +kernel⟩,
   ⟨100, [0xBC#8, 1#8], up.setReg .RING_STAT 0 3#32, by decide +kernel, by decide +kernel, by decide +kernel⟩,
   ⟨100, slotOf [] 0, { up.setReg .RING_STAT 0 3#32 with ring := { sender := some 4 } },
    by (try unfold SlotAlone); decide +kernel, by decide +kernel⟩,
   ⟨100, slotOf [(0, 32768 + 512)] 3, { up.setReg .RING_STAT 0 3#32 with ring := { sender := some 4, f := 77 } },
    by (try unfold SlotAlone); decide +kernel, by decide +kernel, by decide +kernel⟩,
   ⟨100, slotOf [] 5, ⟨5, 9, 2, []⟩, (1, 1),
    { (up.setReg .RING_STAT 0 3#32).setReg .RING_CFG 0 9#32 with ring := { sender := some 4, own := some (⟨5, 9, 2, []⟩, (1, 1)) } },
    by decide +kernel, by decide +kernel, by decide +kernel, by decide +kernel, by decide +kernel, by decide +kernel,
    by decide +kernel, by decide +kernel, by decide +kernel, by decide +kernel, by decide +kernel, by decide +kernel,
    by decide +kernel⟩,
   ⟨100, slotOf [] 0, 1310720, 2, 9999, 100, ⟨5, 9, 2, []⟩, [],
    { up.setReg .RING_STAT 0 3#32 with ring := { sender := some 4, lines := [(2, (9999, 100))], abortAt := some 100, queue := [⟨5, 9, 2, []⟩] } },
    by decide +kernel, by decide +kernel, by decide +kernel, by decide +kernel, by decide +kernel, by decide +kernel,
    by decide +kernel, by decide +kernel, by decide +kernel, by decide +kernel, by decide +kernel, by decide +kernel,
    by decide +kernel, by decide +kernel, by decide +kernel⟩,
   ⟨true, up, by decide +kernel⟩,
   ⟨100, 0, 1#32, up.setReg .RING_STAT 0 3#32,
    ⟨by decide +kernel, by decide +kernel, by decide +kernel, by decide +kernel, by decide +kernel, by decide +kernel, by decide +kernel⟩,
    by decide +kernel, by decide +kernel, by decide +kernel⟩,
   ⟨1000000, ⟨5, 9, 2, []⟩, 4, 3, { up.setReg .RING_STAT 0 3#32 with ring := { own := some (⟨5, 9, 2, []⟩, (4, 3)) } },
    by decide +kernel, by decide +kernel, by decide +kernel, by decide +kernel⟩⟩
theorem test_meets_RingAlignsTimeAndDelivers :
    (∃ (t : Nat) (s : State),
      slaveUp (s.at t) = true ∧
      ringMaster s = true ∧
      2 ≤ ringState s ∧
      s.ring.round = 0) ∧
    (∃ (t : Nat) (r : Req) (d : Word) (s : State),
      Accepted r .RING_CTRL 0 (d ||| 2#32) (s.at t) ∧
      bitOf d 0 = true ∧
      bitOf d 3 = false ∧
      ringMaster s = true ∧
      2 ≤ ringState s ∧
      s.ring.round = 0) ∧
    (∃ (a acc hops : Nat) (s : State),
      let r := s.ring
      r.round = 3 ∧
      r.aBack = some a ∧
      r.accBack = some (acc, hops) ∧
      hops < 32 ∧
      2 ≤ ringState s ∧
      r.queue = []) ∧
    (∃ (at_ ft mt : Nat) (s : State),
      let p : RingItem → Bool := fun x => match x with | .time _ _ _ => true | _ => false
      s.ring.inbox.find? p = some (.time at_ ft mt)) ∧
    (∃ (acc hp : Nat) (s : State),
      let p : RingItem → Bool := fun x => match x with | .acc _ _ => true | _ => false
      s.ring.inbox.find? p = some (.acc acc hp)) ∧
    (∃ (N : Nat) (eps : Int) (s : State),
      let p : RingItem → Bool := fun x => match x with | .resid _ _ => true | _ => false
      let r := s.ring
      r.inbox.find? p = some (.resid eps N) ∧
      (1 ≤ N ∧ N ≤ 32)) ∧
    (∃ (t : Nat) (e : Int) (s : State),
      let u := s.at t
      let x := ((u.clasp * 512 + s.rf .RING_TFINE 0 0 9 : Nat) : Int) + e
      slaveUp u = true ∧
      pwrState s ≠ 3 ∧
      2 ≤ ringState s ∧
      s.ring.stepE = some e ∧
      stepIdle u = true ∧
      0 ≤ x) ∧
    (∃ (t : Nat) (s : State),
      let p := s.rf .RING_TCFG 0 0 16
      slaveUp (s.at t) = true ∧
      ringState s = 3 ∧
      p ≠ 0 ∧
      s.ring.lastRound + 10 * p * 8000000 ≤ (s.at t).clasp) ∧
    (∃ (t tf : Nat) (s : State),
      let p : RingItem → Bool := fun x => match x with | .start _ => true | _ => false
      slaveUp (s.at t) = true ∧
      pwrState s ≠ 3 ∧
      s.ring.inbox.find? p = some (.start tf) ∧
      s.rf .CAP_CTRL 0 4 2 = 2 ∧
      capState s = 2 ∧
      tf < 2 ^ 64) ∧
    (∃ (t : Nat) (n : Cluster) (s : State),
      let p : RingItem → Bool := fun x => match x with | .abort => true | _ => false
      slaveUp (s.at t) = true ∧
      pwrState s ≠ 3 ∧
      s.ring.inbox.find? p = some .abort ∧
      capState s < 3 ∧
      seqState s n = 2 ∧
      (s.seq n).ending = none ∧
      (s.seq n).abort = none ∧
      (s.seq n).unwind = false ∧
      0 < (s.seq n).seqNo) ∧
    (∃ (t k e : Nat) (s : State),
      let p : RingItem → Bool := fun x => match x with | .trigger _ _ => true | _ => false
      slaveUp (s.at t) = true ∧
      pwrState s ≠ 3 ∧
      s.ring.inbox.find? p = some (.trigger k e)) ∧
    (∃ (k : Nat) (w : List Byte) (s : State),
      let p : RingItem → Bool := fun x => match x with | .health _ _ => true | _ => false
      s.ring.inbox.find? p = some (.health k w) ∧
      k < 32) ∧
    (∃ (t : Nat) (s : State),
      let u := s.at t
      slaveUp u = true ∧
      2 ≤ ringState s ∧
      s.ring.beat + max 1 (s.rf .RING_HB 0 0 16) * 8000 ≤ u.clasp) ∧
    (∃ (t : Nat) (p : Fin 32) (s : State),
      let u := s.at t
      slaveUp u = true ∧
      2 ≤ ringState s ∧
      s.rb .RING_PEERX p.val 31 = true ∧
      tabGet 0 s.ring.heard p.val + max 1 (s.rf .RING_HB 0 16 4) * (max 1 (s.rf .RING_HB 0 0 16) * 8000) ≤ u.clasp ∧
      s.rb .RING_PEERX p.val 30 = false) :=
  ⟨⟨100, (up.setReg .RING_STAT 0 3#32).setReg .RING_CFG 0 0x100#32, by decide +kernel, by decide +kernel, by decide +kernel,
    by decide +kernel⟩,
   ⟨100, 0, 1#32, (up.setReg .RING_STAT 0 3#32).setReg .RING_CFG 0 0x100#32,
    ⟨by decide +kernel, by decide +kernel, by decide +kernel, by decide +kernel, by decide +kernel, by decide +kernel, by decide +kernel⟩,
    by decide +kernel, by decide +kernel, by decide +kernel, by decide +kernel, by decide +kernel⟩,
   ⟨2004101, 1991813, 2,
    { (up.setReg .RING_STAT 0 2#32).setReg .RING_CFG 0 0x100#32 with ring := { round := 3, aBack := some 2004101, accBack := some (1991813, 2) } },
    by decide +kernel, by decide +kernel, by decide +kernel, by decide +kernel, by decide +kernel, by decide +kernel⟩,
   ⟨1, 2, 3, { up with ring := { inbox := [.abort, .time 1 2 3] } }, by decide +kernel⟩,
   ⟨5, 2, { up with ring := { inbox := [.acc 5 2] } }, by decide +kernel⟩,
   ⟨3, 12288,
    { up.setReg .RING_STAT 0 3#32 with ring := { tm := 2560000000, accIn := 0, hops := 0, a := 1310725004150, inbox := [.resid 12288 3] } },
    by decide +kernel, by decide +kernel⟩,
   ⟨10000, -5000054, { up.setReg .RING_STAT 0 0x1000002#32 with ring := { stepE := some (-5000054) } }, by decide +kernel,
    by decide +kernel, by decide +kernel, by decide +kernel, by decide +kernel, by decide +kernel⟩,
   ⟨8000000000, up.setReg .RING_STAT 0 3#32, by decide +kernel, by decide +kernel, by decide +kernel, by decide +kernel⟩,
   ⟨100, 70000,
    { ((up.setReg .RING_STAT 0 2#32).setReg .CAP_CTRL 0 0x20#32).setReg .CAP_STAT 0 2#32 with cap := { sites := [site0] }, ring := { inbox := [.start 70000] } },
    by decide +kernel, by decide +kernel, by decide +kernel, by decide +kernel, by decide +kernel, by decide +kernel⟩,
   ⟨100, 0, { (runSt.setReg .RING_STAT 0 3#32).setSeq 0 { seqNo := 1 } with ring := { inbox := [.abort] } },
    by decide +kernel, by decide +kernel, by decide +kernel, by decide +kernel, by decide +kernel, by decide +kernel,
    by decide +kernel, by decide +kernel, by decide +kernel⟩,
   ⟨100, 2, 999, { up with ring := { inbox := [.abort, .trigger 2 999] } }, by decide +kernel, by decide +kernel,
    by decide +kernel⟩,
   ⟨7, leBytes 8 0x0005_0190_0000_1234, { up with ring := { inbox := [.health 7 (leBytes 8 0x0005_0190_0000_1234)] } },
    by decide +kernel, by decide +kernel⟩,
   ⟨800000, up.setReg .RING_STAT 0 3#32, by decide +kernel, by decide +kernel, by decide +kernel⟩,
   ⟨3200000, 3, (up.setReg .RING_STAT 0 3#32).setReg .RING_PEERX 3 0x80000000#32, by decide +kernel, by decide +kernel,
    by decide +kernel, by decide +kernel, by decide +kernel⟩⟩
theorem test_meets_ClocksJudgeAndSwitch :
    (∃ (s : State),
      s.pwr.por = false ∧
      s.pwr.osc = true) ∧
    (∃ (lock : Bool) (s : State),
      s.pwr.acquiring = true ∧
      s.pwr.por = false ∧
      s.rb .CLK_STAT 0 1 ≠ lock) ∧
    (∃ (s : State),
      s.rb .CLK_STAT 0 1 = true ∧
      aonRuns s = true) ∧
    (∃ (root forced : Bool) (s : State),
      s.pwr.aonTo = some root ∧
      (if root = true then s.pwr.osc ≠ forced else s.pwr.osc = true)) :=
  ⟨⟨edgeSt [], by decide +kernel, by decide +kernel⟩,
   ⟨false, { up.setReg .CLK_STAT 0 6#32 with pwr := { por := false, stable := true, acquiring := true } },
    by decide +kernel, by decide +kernel, by decide +kernel⟩,
   ⟨{ up.setReg .CLK_STAT 0 2#32 with pwr := { por := false, stable := false, passes := 1 } }, by decide +kernel,
    by decide +kernel⟩,
   ⟨false, true, { up with pwr := { por := false, aonTo := some false } }, by decide +kernel, by decide +kernel⟩⟩
theorem test_meets_ClockFaultsAreDeclared :
    (∃ (count : Nat) (s : State),
      s.pwr.por = false ∧
      s.pwr.osc = true ∧
      s.rb .CLK_STAT 0 2 = true ∧
      (count < 9800 ∨ 10200 < count)) ∧
    (∃ (count : Nat) (s : State),
      s.rb .CLK_STAT 0 1 = true ∧
      aonRuns s = true ∧
      s.rb .CLK_STAT 0 2 = true ∧
      judgePasses s.pwr.pll count = false) ∧
    (∃ (s : State),
      s.pwr.acquiring = true ∧
      s.pwr.por = false ∧
      s.rb .CLK_STAT 0 1 = true ∧
      s.rb .CLK_STAT 0 2 = true) :=
  ⟨⟨10201, driveSt, by decide +kernel, by decide +kernel, by decide +kernel, by decide +kernel⟩,
   ⟨3, (edgeSt []).setReg .CLK_STAT 0 6#32, by decide +kernel, by decide +kernel, by decide +kernel, by decide +kernel⟩,
   ⟨{ up.setReg .CLK_STAT 0 6#32 with pwr := { por := false, stable := true, acquiring := true } }, by decide +kernel,
    by decide +kernel, by decide +kernel, by decide +kernel⟩⟩
theorem test_meets_PowerStatesAndResets :
    (∃ (t : Nat) (r : Req) (d : Word) (s : State),
      Accepted r .PWR_CTRL 0 (d ||| 1#32) (s.at t) ∧
      bitOf d 4 = false) ∧
    (∃ (t : Nat) (s : State),
      s.rb .PWR_CTRL 0 2 = true ∧
      sleepReady (s.at t) = true) ∧
    (∃ (t : Nat) (s : State),
      let u := s.at t
      (s.rb .PWR_STAT 0 3 = true ∨ s.pwr.auto = true) ∧
      sleepReady u = true) ∧
    (∃ (t c : Nat) (s : State),
      let u := s.at t
      pwrState s = 3 ∧
      wakeSource (match wakeCause u with | some k => u.wake k | none => u) = some c ∧
      c < 8) ∧
    (∃ (t : Nat) (n : Cluster) (s : State),
      s.rb .PWR_CTRL 0 3 = true ∧
      pwrState s = 2 ∧
      cluQuiet (s.at t) n = true) ∧
    (∃ (rail : Fin 5) (s : State),
      s.rb .PWR_RAIL 0 (railBit rail) = true) ∧
    (∃ (rail : Fin 5) (s : State),
      s.pwr.por = false ∧
      s.rb .PWR_RAIL 0 (railBit rail) = false) ∧
    (∃ (s : State),
      tabWf (fun _ => ({ } : Chan)) s.chans = true) ∧
    (∃ (s : State),
      s.pwr.por = true) ∧
    (∃ (r : Reg) (s : State),
      s.pwr.por = false ∧
      s.pwr.rst = false ∧
      r ∉ warmMore) ∧
    (∃ (s : State),
      (s.pwr.rst = true ∨ s.pwr.chip = true) ∧
      s.pwr.por = false ∧
      s.pwr.stable = true ∧
      s.pwr.fault = false ∧
      (s.tap ≠ 0 ∧ s.tap ≠ 3 ∧ s.tap ≠ 4) ∧
      (s.rb .BOOT_STAT 0 8 = false ∨ s.rb .BOOT_STAT 0 6 = false)) ∧
    (∃ (t : Nat) (r : Req) (d : Word) (n : Cluster) (s : State),
      Accepted r .PWR_CTRL 0 (d ||| 0x10#32) (s.at t) ∧
      seqState s n = 2 ∧
      (s.seq n).ending = none ∧
      (s.seq n).abort = none ∧
      (s.seq n).unwind = false ∧
      0 < (s.seq n).seqNo ∧
      capState s < 3) :=
  ⟨⟨100, 0, 0#32, up,
    ⟨by decide +kernel, by decide +kernel, by decide +kernel, by decide +kernel, by decide +kernel, by decide +kernel, by decide +kernel⟩,
    by decide +kernel⟩,
   ⟨100, up.setReg .PWR_CTRL 0 4#32, by decide +kernel, by decide +kernel⟩,
   ⟨100, (up.setReg .PWR_STAT 0 0xA#32).setReg .PWR_BANK_RET_LO 0 0x80#32, by decide +kernel, by decide +kernel⟩,
   ⟨100, 6,
    (((up.setReg .PWR_STAT 0 3#32).setReg .BANK_STATE 7 0x10#32).setReg .PWR_WAKE_EN 0 0x1F#32).setReg .PWR_WAKE_TIME_LO 0 90#32,
    by decide +kernel, by decide +kernel, by decide +kernel⟩,
   ⟨100, 3, up.setReg .PWR_CTRL 0 8#32, by decide +kernel, by decide +kernel, by decide +kernel⟩,
   ⟨2, driveSt.setReg .PWR_RAIL 0 0x17F#32, by decide +kernel⟩,
   ⟨2, up, by decide +kernel, by decide +kernel⟩,
   ⟨driveSt, by decide +kernel⟩,
   ⟨State.reset, by decide +kernel⟩,
   ⟨.CH_CTRL, ((driveSt.setSeq 0 { seqNo := 7 }).setBytes 5 [3#8]).setReg .GOV_NOM_IBUD 2 5#32, by decide +kernel,
    by decide +kernel, by (try unfold warmMore); decide +kernel⟩,
   ⟨{ (up.setReg .PWR_STAT 0 0#32).setReg .BOOT_STAT 0 0x100#32 with pwr := { por := false, stable := true, rst := true } },
    by decide +kernel, by decide +kernel, by decide +kernel, by decide +kernel, by decide +kernel, by decide +kernel⟩,
   ⟨100, 0, 0#32, 0, (driveSt.setReg .CL_SEQ_STAT 0 2#32).setSeq 0 { seqNo := 1 },
    ⟨by decide +kernel, by decide +kernel, by decide +kernel, by decide +kernel, by decide +kernel, by decide +kernel, by decide +kernel⟩,
    by decide +kernel, by decide +kernel, by decide +kernel, by decide +kernel, by decide +kernel, by decide +kernel⟩⟩
theorem test_meets_SensorsAndGovernorLevels :
    (∃ (j : Sensor) (x : Int) (s : State),
      Converts j s ∧
      (-1024 ≤ x ∧ x ≤ 3200)) ∧
    (∃ (j : Sensor) (s : State) (x : SensorObs) (w : Nat),
      Converts j s ∧
      (match x with | .temp y => (y < -1024 ∨ 3200 < y) ∧ w = unsigned 16 y | .invalid _ => w = fld (Config.freeWord s.free) 0 16)) ∧
    (∃ (j : Sensor) (s : State),
      Converts j s ∧
      s.pwr.fault = false) ∧
    (∃ (t : Nat) (n : Cluster) (x : Nat) (s : State),
      let u := s.at t
      let drain := s.rf .GOV_CTRL 0 12 12
      (s.govOf n).three = some x ∧
      x + drain * 8000000 ≤ u.clasp ∧
      drain ≠ 0 ∧
      3 ≤ govLevel s n ∧
      (s.govOf n).stopped = false ∧
      govWork u n = true) ∧
    (∃ (t : Nat) (r : Req) (n : Cluster) (power : Bool) (d : Word) (s : State),
      let b : Reg := if power then .GOV_NOM_PBUD else .GOV_NOM_IBUD
      Accepted r b n.val d (s.at t)) ∧
    (∃ (t : Nat) (r : Req) (n : Cluster) (power : Bool) (d : Word) (s : State),
      let b : Reg := if power then .GOV_NOM_PBUD else .GOV_NOM_IBUD
      let sum := ((List.range 24).map fun k => if k = n.val then d.toNat else (s.reg b k).toNat).sum
      Reaches r b n.val d (s.at t) ∧
      (if power then 12000000 else 3200000000) < sum) :=
  ⟨⟨3, 1900, setHist 3 (List.replicate 100 1890) (up.setReg .THS_RATE 3 1#32), by (try unfold Converts); decide +kernel,
    by decide +kernel⟩,
   ⟨3, up, .temp 3201, 3201, by (try unfold Converts); decide +kernel, by decide +kernel⟩,
   ⟨0, (driveSt.setReg .GOV_CLU 0 0x100#32).setGov 0 { cause := some 0 }, by (try unfold Converts); decide +kernel,
    by decide +kernel⟩,
   ⟨8000000000, 0, 0,
    (((runSt.setReg .GOV_CLU 0 0x300#32).setGov 0 { three := some 0 }).setSeq 0 { seqNo := 1 }).setChan 0 5 { meas := some meas1 },
    by decide +kernel, by decide +kernel, by decide +kernel, by decide +kernel, by decide +kernel, by decide +kernel⟩,
   ⟨100, 0, 3, true, 77#32, up.setReg .GOV_CLU 3 0x100#32,
    ⟨by decide +kernel, by decide +kernel, by decide +kernel, by decide +kernel, by decide +kernel, by decide +kernel, by decide +kernel⟩⟩,
   ⟨100, 0, 3, true, 500001#32, up, by (try unfold Reaches); decide +kernel, by decide +kernel⟩⟩
theorem test_meets_TenteringCalibrates :
    (∃ (t : Nat) (r : Req) (d : Word) (s : State),
      Accepted r .CAL_CTRL 0 (d ||| 0x10#32) (s.at t) ∧
      s.refDue = false) ∧
    (∃ (s : State),
      calHolds s 0 = true ∧
      calHolds s 1 = true) ∧
    (∃ (t : Nat) (r : Req) (d : Word) (s : State),
      (4900000 ≤ d.toNat ∧ d.toNat ≤ 5100000) ∧
      Accepted r .CAL_REFV_CERT 0 d (s.at t)) ∧
    (∃ (t : Nat) (r : Req) (d : Word) (s : State),
      Reaches r .CAL_REFV_CERT 0 d (s.at t) ∧
      (d.toNat < 4900000 ∨ 5100000 < d.toNat)) ∧
    (∃ (t : Nat) (r : Req) (n : Cluster) (w : TrimAddr) (d : Word) (s : State),
      let a := trimReg n w
      Accepted r a.1 a.2 d (s.at t) ∧
      (match w with | .channel _ k => trimWord k.val = true | .generator _ => True)) ∧
    (∃ (t : Nat) (r : Req) (n : Cluster) (w : TrimAddr) (d : Word) (s : State),
      let a := trimReg n w
      Reaches r a.1 a.2 d (s.at t) ∧
      (match w with | .channel c _ => stepUses s n c.val = true | .generator _ => (calStepOn s n = true ∨ calIntrOn s n = true))) ∧
    (∃ (t : Nat) (n : Cluster) (w : TrimAddr) (v0 : Word) (t0 : Nat) (s : State),
      let a := trimReg n w
      let us := s.rf .CAL_RATE 0 0 8
      trimNow (s.at t) a.1 a.2 = (v0, t0) ∧
      v0 ≠ s.reg a.1 a.2 ∧
      us ≠ 0 ∧
      t0 + us * 8000 ≤ (s.at t).clasp) ∧
    (∃ (t : Nat) (r : Req) (n : Cluster) (d : Word) (s : State),
      Accepted r .CL_CAL_CTRL n.val (d ||| 1#32) (s.at t) ∧
      calDueNow s n = false) ∧
    (∃ (t : Nat) (n : Cluster) (s : State),
      let due := s.pair .CL_CAL_DUE_LO .CL_CAL_DUE_HI n.val
      due ≠ 0 ∧
      due ≤ (s.at t).clasp ∧
      calDueNow s n = false) ∧
    (∃ (t : Nat) (n : Cluster) (s : State),
      let u := s.at t
      DueAndFree n u ∧
      calQuiet u n = true) ∧
    (∃ (t off : Nat) (n : Cluster) (s : State),
      let u := s.at t
      (calStepOn s n = true ∨ calIntrOn s n = true) ∧
      calItem u n off = true ∧
      itemSkipped u n off = false ∧
      (refvOk s = true ∨ refvItem off = false) ∧
      activeBand s n < 5) ∧
    (∃ (t : Nat) (n : Cluster) (off : Nat) (s : State),
      let u := s.at t
      let due := u.clasp + max 1 (s.rf .CAL_INTV (activeBand s n) 0 16) * 8000000000
      calStepOn s n = true ∧
      calDueNow s n = true ∧
      refvOk s = true ∧
      calItem u n off = true ∧
      itemSkipped u n off = false ∧
      off ∉ (s.calSt n).items ∧
      (s.calSt n).items.length + 1 = 1154 ∧
      activeBand s n < 5 ∧
      due < 2 ^ 64 ∧
      u.clasp < 2 ^ 64) ∧
    (∃ (n : Cluster) (s : State),
      calStepOn s n = true) ∧
    (∃ (t x : Nat) (n : Cluster) (s : State),
      let u := s.at t
      (s.calSt n).deadline = some x ∧
      x ≤ u.clasp ∧
      DueAndFree n u ∧
      idleNow u n = true ∧
      flowClu u n = false) ∧
    (∃ (n : Cluster) (s : State),
      calIntrOn s n = true ∧
      asyBusy s n = false ∧
      (s.calSt n).held = []) ∧
    (∃ (t : Nat) (n : Cluster) (u : Nat) (s : State),
      calIntrOn s n = true ∧
      calStepOn s n = false ∧
      asyBusy s n = false ∧
      (s.calSt n).held = [(0, 0)] ∧
      govLevel s n < 3 ∧
      idleNow (s.at t) n = true ∧
      cluRetired s n = false ∧
      s.rb .CL_MR_STAT n.val 0 = false ∧
      patchBlocks s = false ∧
      u = (s.at t).clasp ∧
      s.rb .CL_SEQ_CTRL n.val 3 = false ∧
      s.rb .CL_TIM_STAT n.val 0 = true) :=
  ⟨⟨100, 0, 1#32, up,
    ⟨by decide +kernel, by decide +kernel, by decide +kernel, by decide +kernel, by decide +kernel, by decide +kernel, by decide +kernel⟩,
    by decide +kernel⟩,
   ⟨(up.setSem 0 { holder := some (6, 6) }).setSem 1 { holder := some (6, 6) }, by decide +kernel, by decide +kernel⟩,
   ⟨100, 0, 4900000#32, up, by decide +kernel,
    ⟨by decide +kernel, by decide +kernel, by decide +kernel, by decide +kernel, by decide +kernel, by decide +kernel, by decide +kernel⟩⟩,
   ⟨100, 0, 4899999#32, up, by (try unfold Reaches); decide +kernel, by decide +kernel⟩,
   ⟨100, 0, 3, .channel 5 7, 77#32, up.setReg .DOM_CLU 3 0#32,
    ⟨by decide +kernel, by decide +kernel, by decide +kernel, by decide +kernel, by decide +kernel, by decide +kernel, by decide +kernel⟩,
    by decide +kernel⟩,
   ⟨100, 0, 3, .channel 5 7, 77#32, (up.setReg .DOM_CLU 3 0#32).setReg .CL_CAL_STAT 3 4#32,
    by (try unfold Reaches); decide +kernel, by decide +kernel⟩,
   ⟨80000, 3, .channel 5 7, 76#32, 0,
    { up.setReg .CH_TRIM (2048 * 3 + 64 * 5 + 7) 77#32 with ramps := [(Reg.key .CH_TRIM (2048 * 3 + 64 * 5 + 7), (76#32, 0))] },
    by decide +kernel, by decide +kernel, by decide +kernel, by decide +kernel⟩,
   ⟨100, 0, 0, 0#32, up,
    ⟨by decide +kernel, by decide +kernel, by decide +kernel, by decide +kernel, by decide +kernel, by decide +kernel, by decide +kernel⟩,
    by decide +kernel⟩,
   ⟨100, 3, up.setReg .CL_CAL_DUE_LO 3 100#32, by decide +kernel, by decide +kernel, by decide +kernel⟩,
   ⟨100, 3, { up.setReg .CL_CAL_STAT 3 1#32 with refLast := some 0 }, by (try unfold DueAndFree); decide +kernel,
    by decide +kernel⟩,
   ⟨100, 0x16014, 3, ((up.setReg .CL_CAL_STAT 3 3#32).setReg .CAL_STAT 0 1#32).setCalSt 3 { using_ := 0xFFFFFFFF#32 },
    by decide +kernel, by decide +kernel, by decide +kernel, by decide +kernel, by decide +kernel⟩,
   ⟨100, 3, 0x16014,
    ((up.setReg .CL_CAL_STAT 3 3#32).setReg .CAL_STAT 0 1#32).setCalSt 3 { using_ := 0xFFFFFFFF#32, items := List.range 1153 },
    by decide +kernel, by decide +kernel, by decide +kernel, by decide +kernel, by decide +kernel, by decide +kernel,
    by decide +kernel, by decide +kernel, by decide +kernel, by decide +kernel⟩,
   ⟨3, up.setReg .CL_CAL_STAT 3 3#32, by decide +kernel⟩,
   ⟨100, 90, 0, (driveSt.setReg .CL_CAL_STAT 0 1#32).setCalSt 0 { deadline := some 90 }, by decide +kernel,
    by decide +kernel, by (try unfold DueAndFree); decide +kernel, by decide +kernel, by decide +kernel⟩,
   ⟨0, (up.setReg .CH_CTRL 3 1#32).setReg .CL_CAL_STAT 0 5#32, by decide +kernel, by decide +kernel, by decide +kernel⟩,
   ⟨100, 0, 100, ((up.setReg .CL_CAL_STAT 0 5#32).setReg .CL_TIM_STAT 0 1#32).setCalSt 0 { held := [(0, 0)] },
    by decide +kernel, by decide +kernel, by decide +kernel, by decide +kernel, by decide +kernel, by decide +kernel,
    by decide +kernel, by decide +kernel, by decide +kernel, by decide +kernel, by decide +kernel, by decide +kernel⟩⟩
theorem test_meets_FaultCollectorReacts :
    (∃ (t : Nat) (m : FaultMsg) (s : State),
      let u := s.at t
      let k := m.src
      let r := reactOf s k
      Collects m u ∧
      fatal s = false ∧
      clsOf m < 2 ∧
      NoWindow u ∧
      (r / 2 % 2 = 0 ∧ r / 4 % 2 = 0 ∧ r / 8 % 2 = 0)) ∧
    (∃ (t e : Nat) (ns : Word) (m : FaultMsg) (s : State),
      let u := s.at t
      Collects m u ∧
      fatal s = false ∧
      clsOf m < 2 ∧
      s.window = some (e, ns) ∧
      aonDue u e = false) ∧
    (∃ (t : Nat) (m1 m2 : FaultMsg) (s : State),
      let u := s.at t
      aonRuns u = true ∧
      s.msgs = [m2, m1] ∧
      (m1.src < m2.src ∧ m2.src < 1152) ∧
      (m1.kind ≠ 12 ∧ m2.kind ≠ 12) ∧
      (clsOf m1 < 2 ∧ clsOf m2 < 2) ∧
      fatal s = false ∧
      NoWindow u ∧
      reactOf s m1.src = 1) ∧
    (∃ (t : Nat) (m : FaultMsg) (s : State),
      let u := s.at t
      let r := reactOf s m.src
      Collects m u ∧
      fatal s = false ∧
      2 ≤ m.cls ∧
      (r / 2 % 2 = 0 ∧ r / 4 % 2 = 0 ∧ r / 8 % 2 = 0)) ∧
    (∃ (t : Nat) (m : FaultMsg) (s : State),
      let u := s.at t
      Collects m u ∧
      fatal s = true) ∧
    (∃ (t : Nat) (m : FaultMsg) (n : Cluster) (h : Nat) (s : State),
      let u := s.at t
      let k := m.src
      let r := reactOf s k
      aonRuns u = true ∧
      s.msgs = [m] ∧
      k < 1152 ∧
      fatal s = false ∧
      clsOf m < 2 ∧
      NoWindow u ∧
      ((m.kind = 12 ∧ k < 1056) ∨ r / 2 % 2 = 1) ∧
      (r / 4 % 2 = 0 ∧ r / 8 % 2 = 0) ∧
      affects k n.val = true ∧
      trapDomains s k = [h] ∧
      slaveUp u = true ∧
      linkUp s h = true ∧
      bitOf (msixWord s h 3) 0 = false) ∧
    (∃ (t : Nat) (m : FaultMsg) (n : Cluster) (s : State),
      let u := s.at t
      let k := m.src
      let r := reactOf s k
      Collects m u ∧
      k / 44 = n.val ∧
      fatal s = false ∧
      clsOf m < 2 ∧
      NoWindow u ∧
      r / 4 % 2 = 1 ∧
      (r / 2 % 2 = 0 ∧ r / 8 % 2 = 0)) ∧
    (∃ (t : Nat) (m : FaultMsg) (x : Reg) (s : State),
      let u := s.at t
      let r := reactOf s m.src
      Collects m u ∧
      fatal s = false ∧
      clsOf m < 2 ∧
      NoWindow u ∧
      r / 8 % 2 = 1 ∧
      (r / 2 % 2 = 0 ∧ r / 4 % 2 = 0) ∧
      x ∉ warmMore ∧
      x ∉ collectRegs) ∧
    (∃ (t e : Nat) (ns : Word) (s : State),
      s.window = some (e, ns) ∧
      aonDue (s.at t) e = true) ∧
    (∃ (t : Nat) (k : Source) (s : State),
      let quiet := max 1 (if (s.flt k.val).corr then s.rf .FLT_QUIET 0 0 14 else s.rf .FLT_QUIET 0 16 14)
      s.rb .FLT_ACTIVE (k.val / 32) (k.val % 32) = true ∧
      (s.flt k.val).fatal = false ∧
      aonDue (s.at t) ((s.flt k.val).last + 4000 * quiet) = true) ∧
    (∃ (t : Nat) (r : Req) (d : Word) (s : State),
      Accepted r .FLT_INJECT_HI 0 d (s.at t)) ∧
    (∃ (n : Cluster) (s : State),
      cluRetired s n = false) ∧
    (∃ (b : Nat) (n : Cluster) (s : State),
      s.rb .ID_CLU_RST 0 n.val = true ∧
      thsFault s n.val = false ∧
      (bandRec s n).1 = some b ∧
      b < 8) :=
  ⟨⟨4000, ⟨49, 2, 1, 5⟩, { up.setReg .FLT_REACT 12 0x1100#32 with msgs := [⟨49, 2, 1, 5⟩] },
    by (try unfold Collects); decide +kernel, by decide +kernel, by (try unfold clsOf); decide +kernel,
    by (try unfold NoWindow); decide +kernel, by decide +kernel⟩,
   ⟨4000, 9, 2#32, ⟨1104, 7, 0, 5⟩, { up with msgs := [⟨1104, 7, 0, 5⟩], window := some (9, 2#32) },
    by (try unfold Collects); decide +kernel, by decide +kernel, by (try unfold clsOf); decide +kernel,
    by decide +kernel, by decide +kernel⟩,
   ⟨4000, ⟨49, 2, 1, 5⟩, ⟨1104, 7, 0, 5⟩, { up with msgs := [⟨1104, 7, 0, 5⟩, ⟨49, 2, 1, 5⟩] }, by decide +kernel,
    by decide +kernel, by decide +kernel, by decide +kernel, by (try unfold clsOf); decide +kernel, by decide +kernel,
    by (try unfold NoWindow); decide +kernel, by decide +kernel⟩,
   ⟨4000, ⟨1088, 9, 2, 5⟩, { driveSt with msgs := [⟨1088, 9, 2, 5⟩] }, by (try unfold Collects); decide +kernel,
    by decide +kernel, by decide +kernel, by decide +kernel⟩,
   ⟨4000, ⟨1104, 7, 0, 5⟩, { up.setReg .FLT_STAT 0 1#32 with msgs := [⟨1104, 7, 0, 5⟩] },
    by (try unfold Collects); decide +kernel, by decide +kernel⟩,
   ⟨4000, ⟨43, 12, 1, 0⟩, 0, 0, { driveSt with msgs := [⟨43, 12, 1, 0⟩], msix := [(3, 0#32)] }, by decide +kernel,
    by decide +kernel, by decide +kernel, by decide +kernel, by (try unfold clsOf); decide +kernel,
    by (try unfold NoWindow); decide +kernel, by decide +kernel, by decide +kernel, by decide +kernel, by decide +kernel,
    by decide +kernel, by decide +kernel, by decide +kernel⟩,
   ⟨4000, ⟨3, 2, 1, 0⟩, 0, { driveSt.setReg .FLT_REACT 0 0x04000000#32 with msgs := [⟨3, 2, 1, 0⟩] },
    by (try unfold Collects); decide +kernel, by decide +kernel, by decide +kernel,
    by (try unfold clsOf); decide +kernel, by (try unfold NoWindow); decide +kernel, by decide +kernel, by decide +kernel⟩,
   ⟨4000, ⟨1104, 7, 0, 5⟩, .CH_CTRL, { driveSt.setReg .FLT_REACT 276 8#32 with msgs := [⟨1104, 7, 0, 5⟩] },
    by (try unfold Collects); decide +kernel, by decide +kernel, by (try unfold clsOf); decide +kernel,
    by (try unfold NoWindow); decide +kernel, by decide +kernel, by decide +kernel,
    by (try unfold warmMore); decide +kernel, by (try unfold collectRegs); decide +kernel⟩,
   ⟨20000, 9, 2#32, { up.setReg .FLT_STAT 0 2#32 with window := some (9, 2#32) }, by decide +kernel, by decide +kernel⟩,
   ⟨80000000, 1104,
    ((up.setReg .FLT_ACTIVE 34 0x10000#32).setReg .FLT_STAT 0 0x20#32).setFlt 1104 { corr := true, err := true },
    by decide +kernel, by decide +kernel, by decide +kernel⟩,
   ⟨100, 0, 0x29331001#32, up.setReg .FLT_INJECT_LO 0 14#32,
    ⟨by decide +kernel, by decide +kernel, by decide +kernel, by decide +kernel, by decide +kernel, by decide +kernel, by decide +kernel⟩⟩,
   ⟨14, up, by decide +kernel⟩,
   ⟨2, 3, { up.setReg .ID_CLU_RST 0 8#32 with bands := [(3, (some 2, 5))] }, by decide +kernel, by decide +kernel,
    by decide +kernel, by decide +kernel⟩⟩
theorem test_meets_AssayRetiresAndLifeIsKept :
    (∃ (t : Nat) (r : Req) (d : Word) (n : Cluster) (s : State),
      let ct := fld d 16 5
      let ctgt := ct % 16 + (if 16 ≤ ct then 48 else 0)
      Accepted r .ASY_CTRL 0 (d ||| 1#32) (s.at t) ∧
      fld d 8 5 = n.val ∧
      cluRetired s n = false ∧
      s.assay = [] ∧
      (¬ (s.reg .ASY_MASK 0 = 0#32 ∧ ctgt = 0))) ∧
    (∃ (t : Nat) (n : Cluster) (s : State),
      let u := s.at t
      asyReady u n = true) ∧
    (∃ (n : Cluster) (x : AsyRun) (s : State),
      RunOf n x s ∧
      (s.calSt n).held = []) ∧
    (∃ (n : Cluster) (f : Bool) (w : Word) (x : AsyRun) (s : State),
      RunOf n x s ∧
      (s.calSt n).held = [] ∧
      (f = true ∨ w ≠ 0#32) ∧
      flowClu s n = false ∧
      (∀ k : Channel, retired s n k = s.rb .FLT_RET_CH n.val k.val) ∧
      cluRetired s n = false) ∧
    (∃ (t : Nat) (r : Req) (n : Cluster) (c : Channel) (d : Word) (s : State),
      Accepted r .FLT_RET_CH n.val d (s.at t) ∧
      bitOf d c.val = true ∧
      retired s n c = false ∧
      flowClu (s.at t) n = false) ∧
    (∃ (t : Nat) (r : Req) (n : Cluster) (d : Word) (s : State),
      Accepted r .FLT_RET_CLU 0 d (s.at t) ∧
      bitOf d n.val = true ∧
      cluRetired s n = false) ∧
    (∃ (t : Nat) (s : State),
      let u := s.at t
      let off := decide (pwrState s = 4)
      let q := (s.reg .LR_SEQ 0).toNat + 1
      let a := s.rf .LR_STAGE 0 6 20 * 64
      let v := if off then { s with life := tabSet 0 s.life 28 (tabGet 0 s.life 28 ||| 4) } else s
      let bytes := lifeSlotBytes v q
      s.rb .LR_BASE 0 0 = true ∧
      ((pwrState s = 4 ∧ s.rb .PWR_STAT 0 4 = false) ∨ (pwrState s = 2 ∧ 60 ≤ s.lifeMin)) ∧
      partsOf a bytes.length = [(a, bytes.length)] ∧
      judge u .life false a = .granted ∧
      q < 2 ^ 32) :=
  ⟨⟨100, 0, 0x90300#32, 3, up.setReg .ASY_MASK 0 6#32,
    ⟨by decide +kernel, by decide +kernel, by decide +kernel, by decide +kernel, by decide +kernel, by decide +kernel, by decide +kernel⟩,
    by decide +kernel, by decide +kernel, by decide +kernel, by decide +kernel⟩,
   ⟨100, 0, ((driveSt.setReg .ASY_TGT 0 8#32).setReg .ASY_STAT 0 2#32), by decide +kernel⟩,
   ⟨3, ⟨8#32, 0, 5⟩, { (up.setReg .ASY_STAT 3 1#32).setSem 0 { holder := some (7, 7) } with assay := [(3, ⟨8#32, 0, 5⟩)] },
    by (try unfold RunOf); decide +kernel, by decide +kernel⟩,
   ⟨0, false, 8#32, ⟨8#32, 0, 5⟩,
    { (driveSt.setReg .ASY_STAT 0 1#32).setSem 0 { holder := some (7, 7) } with assay := [(0, ⟨8#32, 0, 5⟩)] },
    by (try unfold RunOf); decide +kernel, by decide +kernel, by decide +kernel, by decide +kernel, by decide +kernel,
    by decide +kernel⟩,
   ⟨100, 0, 0, 3, 8#32, driveSt,
    ⟨by decide +kernel, by decide +kernel, by decide +kernel, by decide +kernel, by decide +kernel, by decide +kernel, by decide +kernel⟩,
    by decide +kernel, by decide +kernel, by decide +kernel⟩,
   ⟨100, 0, 0, 1#32, driveSt.setSem 2 { holder := some (8, 8) },
    ⟨by decide +kernel, by decide +kernel, by decide +kernel, by decide +kernel, by decide +kernel, by decide +kernel, by decide +kernel⟩,
    by decide +kernel, by decide +kernel⟩,
   ⟨100, { up.setReg .LR_BASE 0 1#32 with lifeMin := 60 }, by decide +kernel, by decide +kernel, by decide +kernel,
    by decide +kernel, by decide +kernel⟩⟩
theorem test_meets_BootLoadsTheImage :
    (∃ (t : Nat) (img : List Byte) (s : State),
      BootReady (s.at t) ∧
      imgErr img ≠ 0) ∧
    (∃ (t : Nat) (img : List Byte) (s : State),
      let x := bootSec img 0
      let bytes := secBytes img x
      BootReady (s.at t) ∧
      imgErr img = 0 ∧
      imgNsec img = 1 ∧
      x.type ≠ 2 ∧
      (3 ≤ x.type → judge (s.at t) .cal false x.dest = .granted ∧ partsOf x.dest bytes.length = [(x.dest, bytes.length)])) ∧
    (∃ (t : Nat) (img : List Byte) (s : State),
      let x := bootSec img 0
      BootReady (s.at t) ∧
      imgErr img = 0 ∧
      imgNsec img = 1 ∧
      x.type = 2) ∧
    (∃ (s : State),
      s.boot.started = true ∧
      s.rb .BOOT_STAT 0 8 = false ∧
      pwrState s = 1 ∧
      slaveUp s = true ∧
      capState s = 0) :=
  ⟨⟨100, [0x4E#8, 0x52#8, 0x49#8, 0x58#8, 2#8], bootSt.setReg .LR_BASE 0 1#32, by (try unfold BootReady); decide +kernel,
    by decide +kernel⟩,
   ⟨100, imageOf 5 256 0 [1#8, 2#8, 3#8, 4#8], bootSt, by (try unfold BootReady); decide +kernel, by decide +kernel,
    by decide +kernel, by decide +kernel, by decide +kernel⟩,
   ⟨100, imageOf 2 0 0 (leBytes 4 (Reg.addr .CAP_LEAD 0) ++ leBytes 4 0x1234), bootSt,
    by (try unfold BootReady); decide +kernel, by decide +kernel, by decide +kernel, by decide +kernel⟩,
   ⟨{ bootSt with boot := { started := true, auto := some (3, (4, 5)) } }, by decide +kernel, by decide +kernel,
    by decide +kernel, by decide +kernel, by decide +kernel⟩⟩
theorem test_meets_BootStoreEmptyBeforeBoot : (State.reset.boot.started = false → State.reset.boot = { }) ∧
    step State.reset = .next State.reset := ⟨fun _ => rfl, rfl⟩
theorem test_meets_SerialPortsAndMailbox :
    (∃ (t : Nat) (r : Req) (d : Word) (s : State),
      Accepted r .PSM_CTRL 0 (d ||| 1#32) (s.at t)) ∧
    (∃ (rx : List Byte) (s : State),
      s.rb .PSM_STAT 0 0 = true ∧
      rx.length = max 1 (s.rf .PSM_CTRL 0 16 6) ∧
      rx.length ≤ 32) ∧
    (∃ (s : State),
      PageFree s) ∧
    (∃ (s : State),
      PageFree s) ∧
    (∃ (k : Fin 8) (s : State),
      PageFree s ∧
      k.val ≠ 0) ∧
    (∃ (s : State),
      PageFree s) ∧
    (∃ (t : Nat) (wr : Bool) (c : Instr) (s : State),
      ((c = .mspWinRd t ∧ wr = false) ∨ (c = .mspWinWr t ∧ wr = true)) ∧
      s.pwr.por = false) ∧
    (∃ (t i : Nat) (r : Reg) (s : State),
      let u := s.at t
      s.msp.cmd = some false ∧
      slaveUp u = true ∧
      s.rb .BOOT_STAT 0 8 = true ∧
      regAt (s.msp.winAddr.toNat % 2 ^ 26 / 4 * 4) = some (r, i) ∧
      r ∉ [.CH_PM_RES, .CH_PM_RES_THI, .CH_RG_STAT, .SLC_DATA, .CH_STAT, .CH_PM_STAT] ∧
      pairHi r = none ∧
      tabGet none s.hiLatch (latchKey 5 r i) = none) ∧
    (∃ (t : Nat) (s : State),
      let u := s.at t
      let a := s.msp.winAddr.toNat % 2 ^ 26 / 4 * 4
      s.msp.cmd = some true ∧
      slaveUp u = true ∧
      s.rb .BOOT_STAT 0 8 = true ∧
      stages 5 a u = false ∧
      (refuseCode 5 a s.msp.winData 0xFFFFFFFF#32 u ≠ 0 ∨ a = Reg.addr .CAP_LEAD 0)) ∧
    (∃ (s : State),
      s.pwr.por = false) ∧
    (∃ (s : State),
      s.pwr.por = false) ∧
    (∃ (t : Nat) (r : Req) (d : Word) (s : State),
      r.val < 4 ∧
      Accepted r .MSP_HCTRL 0 (d ||| 1#32) (s.at t) ∧
      bitOf d 1 = false) ∧
    (∃ (t : Nat) (r : Req) (d : Word) (s : State),
      r.val < 4 ∧
      Accepted r .MSP_HCTRL 0 (d ||| 2#32) (s.at t) ∧
      bitOf d 0 = false) :=
  ⟨⟨100, 0, 0x3F0000#32, up.setReg .PSM_TX 1 0x12345678#32,
    ⟨by decide +kernel, by decide +kernel, by decide +kernel, by decide +kernel, by decide +kernel, by decide +kernel, by decide +kernel⟩⟩,
   ⟨[1#8, 2#8, 3#8, 4#8, 5#8], (up.setReg .PSM_STAT 0 1#32).setReg .PSM_CTRL 0 0x50000#32, by decide +kernel,
    by decide +kernel, by decide +kernel⟩,
   ⟨up.setReg .MSP_HSTAT 0 2#32, by (try unfold PageFree); decide +kernel⟩,
   ⟨up, by (try unfold PageFree); decide +kernel⟩,
   ⟨3, { up with msp := { winAddr := 0x12345678#32 } }, by (try unfold PageFree); decide +kernel, by decide +kernel⟩,
   ⟨up, by (try unfold PageFree); decide +kernel⟩,
   ⟨100, true, .mspWinWr 100, up.setReg .BOOT_STAT 0 0x100#32, by decide +kernel, by decide +kernel⟩,
   ⟨100, 0, .CAP_STAT,
    { (up.setReg .BOOT_STAT 0 0x100#32).setReg .CAP_STAT 0 2#32 with msp := { winAddr := 0x10006#32, cmd := some false } },
    by decide +kernel, by decide +kernel, by decide +kernel, by decide +kernel, by decide +kernel, by decide +kernel,
    by decide +kernel⟩,
   ⟨100,
    { (up.setReg .BOOT_STAT 0 0x100#32).setReg .DOM_MGMT 0 5#32 with msp := { winAddr := BitVec.ofNat 32 (Reg.addr .CAP_LEAD 0), winData := 77#32, cmd := some true } },
    by decide +kernel, by decide +kernel, by decide +kernel, by decide +kernel, by decide +kernel⟩,
   ⟨up, by decide +kernel⟩,
   ⟨up.setReg .MSP_HSTAT 0 3#32, by decide +kernel⟩,
   ⟨100, 1, 0#32, (up.setReg .HL_STAT 1 1#32).setReg .MSP_HSTAT 0 3#32, by decide +kernel,
    ⟨by decide +kernel, by decide +kernel, by decide +kernel, by decide +kernel, by decide +kernel, by decide +kernel, by decide +kernel⟩,
    by decide +kernel⟩,
   ⟨100, 1, 0#32, up.setReg .HL_STAT 1 1#32, by decide +kernel,
    ⟨by decide +kernel, by decide +kernel, by decide +kernel, by decide +kernel, by decide +kernel, by decide +kernel, by decide +kernel⟩,
    by decide +kernel⟩⟩
theorem test_meets_SerialCausesRaiseSource1080 :
    (∃ (s : State),
      s.pwr.por = false) ∧
    (∃ (s : State),
      s.pwr.por = false) ∧
    (∃ (s : State),
      s.rb .PSM_STAT 0 0 = true) ∧
    (∃ (t : Nat) (r : Req) (d w : Word) (s : State),
      Accepted r .PSM_CTRL 0 (d ||| 1#32) ((s.setReg .SER_EVT_EN 0 w).at t) ∧
      s.rb .PSM_STAT 0 0 = true) :=
  ⟨⟨up, by decide +kernel⟩,
   ⟨up, by decide +kernel⟩,
   ⟨up.setReg .PSM_STAT 0 1#32, by decide +kernel⟩,
   ⟨100, 0, 0#32, 0#32, up.setReg .PSM_STAT 0 1#32,
    ⟨by decide +kernel, by decide +kernel, by decide +kernel, by decide +kernel, by decide +kernel, by decide +kernel, by decide +kernel⟩,
    by decide +kernel⟩⟩
theorem test_meets_EventsIdentityAndTap :
    (∃ (t : Nat) (h : Dom) (k : Source) (cause enable : Reg) (i : Nat) (s : State),
      let u := s.at t
      sourceRegs k.val = some (cause, enable, i) ∧
      (s.reg cause i &&& s.reg enable i ≠ 0#32 ∨ (s.flt k.val).int = true) ∧
      s.rb .EVT_ROUTE k.val h.val = true ∧
      s.rb (evtPend h.val) (k.val / 32) (k.val % 32) = false ∧
      linkServes u h.val = true) ∧
    (∃ (t : Nat) (h : Dom) (k : Source) (s : State),
      (s.rb .EVT_ROUTE k.val h.val = false ∨ s.rb (evtPend h.val) (k.val / 32) (k.val % 32) = true ∨ linkServes (s.at t) h.val = false ∨ raised s k.val = false)) ∧
    (∃ (t : Nat) (r : Req) (d : Word) (s : State),
      Accepted r .ID_LOCK 0 (d ||| 1#32) (s.at t)) ∧
    (∃ (t code : Nat) (r : Reg) (c : Instr) (s : State),
      ((c = .extest t ∧ code = 0) ∨ (c = .highz t ∧ code = 3) ∨ (c = .clamp t ∧ code = 4)) ∧
      s.pwr.por = false ∧
      r ∉ warmMore) ∧
    (∃ (t code : Nat) (c : Instr) (s : State),
      ((c = .bypass t ∧ code = 255) ∨ (c = .testLogicReset t ∧ code = 2)) ∧
      s.pwr.por = false ∧
      (s.tap ≠ 0 ∧ s.tap ≠ 3 ∧ s.tap ≠ 4)) ∧
    (∃ (s : State),
      s.pwr.por = false ∧
      (s.tap ≠ 0 ∧ s.tap ≠ 3 ∧ s.tap ≠ 4)) ∧
    (∃ (s : State),
      s.pwr.por = false ∧
      (s.tap ≠ 0 ∧ s.tap ≠ 3 ∧ s.tap ≠ 4)) ∧
    (∃ (t : Nat) (c : Instr) (s : State),
      (c = .bypass t ∨ c = .testLogicReset t ∨ c = .idcode t ∨ c = .samplePreload t) ∧
      (s.tap = 0 ∨ s.tap = 3 ∨ s.tap = 4) ∧
      s.pwr.rst = false ∧
      s.pwr.chip = false ∧
      s.pwr.por = false ∧
      s.pwr.stable = true ∧
      s.pwr.fault = false ∧
      (s.rb .BOOT_STAT 0 8 = false ∨ s.rb .BOOT_STAT 0 6 = false)) :=
  ⟨⟨100, 0, 1080, .SER_EVT, .SER_EVT_EN, 0,
    ((up.setReg .SER_EVT 0 2#32).setReg .SER_EVT_EN 0 2#32).setReg .EVT_ROUTE 1080 0x301#32, by decide +kernel,
    by decide +kernel, by decide +kernel, by decide +kernel, by decide +kernel⟩,
   ⟨100, 0, 1080, (up.setReg .SER_EVT 0 2#32).setReg .EVT_ROUTE 1080 0x301#32, by decide +kernel⟩,
   ⟨100, 0, 0#32, up,
    ⟨by decide +kernel, by decide +kernel, by decide +kernel, by decide +kernel, by decide +kernel, by decide +kernel, by decide +kernel⟩⟩,
   ⟨100, 3, .CH_CTRL, .highz 100, driveSt.setSeq 0 { seqNo := 7 }, by decide +kernel, by decide +kernel,
    by (try unfold warmMore); decide +kernel⟩,
   ⟨100, 255, .bypass 100, up, by decide +kernel, by decide +kernel, by decide +kernel⟩,
   ⟨up, by decide +kernel, by decide +kernel⟩,
   ⟨up, by decide +kernel, by decide +kernel⟩,
   ⟨100, .testLogicReset 100,
    { (up.setReg .PWR_STAT 0 0#32).setReg .BOOT_STAT 0 0x100#32 with tap := 3, pwr := { por := false, stable := true } },
    by decide +kernel, by decide +kernel, by decide +kernel, by decide +kernel, by decide +kernel, by decide +kernel,
    by decide +kernel, by decide +kernel⟩⟩

end

end
end

/-! # The channel: obligations O7 to O11, O14, O15

SUPPORT. First what an accessor of the state reads after each operation that the channel's commands share; then, command by
command, the state that it leaves and what that state holds; each obligation is put together from those. -/

section
/-! ### Accessors after the shared operations -/

namespace Sys2Proof.Machine

variable {s : State} {n : Cluster} {c : Channel}

theorem State.reg_setRb (r r' : Reg) (i i' b : Nat) (v : Bool) :
    (s.setRb r i b v).reg r' i' = if r' = r ∧ i' = i then putBit (s.reg r i) b v else s.reg r' i' :=
  State.reg_setReg ..
theorem State.reg_setRf (r r' : Reg) (i i' lo len v : Nat) :
    (s.setRf r i lo len v).reg r' i' = if r' = r ∧ i' = i then putFld (s.reg r i) lo len v else s.reg r' i' :=
  State.reg_setReg ..

@[simp] theorem State.chan_setRb (r : Reg) (i b : Nat) (v : Bool) : (s.setRb r i b v).chan n c = s.chan n c := rfl
@[simp] theorem State.chan_setRf (r : Reg) (i lo len v : Nat) : (s.setRf r i lo len v).chan n c = s.chan n c := rfl
@[simp] theorem State.chan_count (r : Reg) (i len : Nat) : (s.count r i len).chan n c = s.chan n c := rfl
@[simp] theorem State.trig_setRb (r : Reg) (i b : Nat) (v : Bool) : (s.setRb r i b v).trig n = s.trig n := rfl
@[simp] theorem State.msgs_setRb (r : Reg) (i b : Nat) (v : Bool) : (s.setRb r i b v).msgs = s.msgs := rfl
@[simp] theorem State.msgs_count (r : Reg) (i len : Nat) : (s.count r i len).msgs = s.msgs := rfl
@[simp] theorem State.life_setRb (r : Reg) (i b : Nat) (v : Bool) : (s.setRb r i b v).life = s.life := rfl
@[simp] theorem State.life_count (r : Reg) (i len : Nat) : (s.count r i len).life = s.life := rfl

theorem State.reg_count (r r' : Reg) (i i' len : Nat) : (s.count r i len).reg r' i' =
    if r' = r ∧ i' = i then putFld (s.reg r i) 0 len (satInc (2 ^ len - 1) (s.rf r i 0 len)) else s.reg r' i' :=
  State.reg_setReg ..

/-! An event to the trigger units. -/

@[simp] theorem State.reg_trigEvent (n' : Cluster) (x : TrigEvt) (r : Reg) (i : Nat) :
    (s.trigEvent n' x).reg r i = s.reg r i := rfl
@[simp] theorem State.chan_trigEvent (n' : Cluster) (x : TrigEvt) : (s.trigEvent n' x).chan n c = s.chan n c := rfl
@[simp] theorem State.trig_trigEvent (x : TrigEvt) :
    (s.trigEvent n x).trig n = { s.trig n with evts := (s.trig n).evts ++ [x] } := by simp [State.trigEvent]

/-! A message to the collector, and a count of the life record (R466, R479, R484). -/

@[simp] theorem State.reg_send (src kind cls addr : Nat) (r : Reg) (i : Nat) :
    (s.send src kind cls addr).reg r i = s.reg r i := by unfold State.send; split <;> rfl
@[simp] theorem State.rb_send (src kind cls addr : Nat) (r : Reg) (i b : Nat) :
    (s.send src kind cls addr).rb r i b = s.rb r i b := by simp only [State.rb, State.reg_send]
@[simp] theorem State.chan_send (src kind cls addr : Nat) : (s.send src kind cls addr).chan n c = s.chan n c := by
  unfold State.send; split <;> rfl
@[simp] theorem State.seq_send (src kind cls addr : Nat) : (s.send src kind cls addr).seq n = s.seq n := by
  unfold State.send; split <;> rfl
@[simp] theorem State.life_send (src kind cls addr : Nat) : (s.send src kind cls addr).life = s.life := by
  unfold State.send; split <;> rfl

/-- A source of cluster n sends its message unless the cluster is retired. -/
theorem msgs_send_srcOf {k kind cls addr : Nat} (hk : k < 44) : (s.send (srcOf n k) kind cls addr).msgs =
    s.msgs ++ (if cluRetired s n then [] else [⟨srcOf n k, kind, cls, addr⟩]) := by
  have hsrc : srcOf n k < 1056 ∧ srcOf n k / 44 = n.val := by unfold srcOf; omega
  unfold State.send cluRetired
  rw [hsrc.2]
  by_cases hr : s.rb .FLT_RET_CLU 0 n.val = true <;> simp [hr, hsrc.1]

@[simp] theorem reg_lifeCount (off bits : Nat) (r : Reg) (i : Nat) : (lifeCount off bits s).reg r i = s.reg r i := rfl
@[simp] theorem chan_lifeCount (off bits : Nat) : (lifeCount off bits s).chan n c = s.chan n c := rfl
@[simp] theorem msgs_lifeCount (off bits : Nat) : (lifeCount off bits s).msgs = s.msgs := rfl

/-- A count of `len` bits goes up by one and saturates. -/
theorem State.rf_count_same {r : Reg} {i len : Nat} (hl : len ≤ 32) :
    (s.count r i len).rf r i 0 len = satInc (2 ^ len - 1) (s.rf r i 0 len) := by
  have hlt : satInc (2 ^ len - 1) (s.rf r i 0 len) < 2 ^ len := by
    have := Nat.two_pow_pos len; unfold satInc; split <;> omega
  rw [State.count, State.rf_setRf_same _ _ _ _ _ _ (by omega), Nat.mod_eq_of_lt hlt]

end Sys2Proof.Machine
end

section
/-! ### Safe state and overcurrent (R36, R46, R102) -/

namespace Sys2Proof.Machine

variable {s : State} {n : Cluster} {c : Channel}

/-- Ending a gate writes no register but those of its result (R242). -/
theorem endGate_reg {cause : Nat} {stop : Bool} {r : Reg} {i : Nat} (h : r ∉ gateRegs) :
    (endGate n c cause stop s).reg r i = s.reg r i :=
  ((endGate_upd (C := fun _ _ => True) (Upd.refl (s := s)) (Nat.or_self _) (Nat.or_self _) trivial).frame
    (KL := [.chans, .free]) (by decide +kernel) (by decide +kernel)).1.regs r i h

/-- Forcing a channel safe does to it what R36 says. -/
theorem forcedSafe_safeForced : SafeForced n c s (forcedSafe n c s) := by
  obtain ⟨g, h, hchan⟩ := forcedSafe_chan (s := s) (n := n) (c := c)
  have hctrl : (endGate n c 5 false (endMeas n c s)).reg .CH_CTRL (chIx n c) = s.reg .CH_CTRL (chIx n c) := by
    rw [endGate_reg (by decide), endMeas_reg]
  have hpm : (endGate n c 5 false (endMeas n c s)).reg .CH_PM_CTRL (chIx n c) = s.reg .CH_PM_CTRL (chIx n c) := by
    rw [endGate_reg (by decide), endMeas_reg]
  refine ⟨?_, ?_, forcedSafe_evt, by rw [hchan], ?_⟩
  · simp [forcedSafe, clearClamp, State.reg_setRf, State.reg_setRb, State.reg_setReg, hctrl]
  · simp [forcedSafe, clearClamp, State.reg_setRf, State.reg_setRb, hpm]
  · rw [hchan]; by_cases hs : (s.chan n c).sw = .opened <;> simp [hs]

/-- SafeForced asks of the later state only what its registers and the channel's record hold. -/
theorem SafeForced.congr {a b a' b' : State} (h : SafeForced n c a b)
    (hctrl : a'.reg .CH_CTRL (chIx n c) = a.reg .CH_CTRL (chIx n c))
    (hpm : a'.reg .CH_PM_CTRL (chIx n c) = a.reg .CH_PM_CTRL (chIx n c))
    (hctrl' : b'.reg .CH_CTRL (chIx n c) = b.reg .CH_CTRL (chIx n c))
    (hpm' : b'.reg .CH_PM_CTRL (chIx n c) = b.reg .CH_PM_CTRL (chIx n c))
    (hevt : b'.rb .CH_EVT (chIx n c) 6 = b.rb .CH_EVT (chIx n c) 6) (hchan : b'.chan n c = b.chan n c) :
    SafeForced n c a' b' := by
  unfold SafeForced at h ⊢
  rwa [hctrl, hpm, hctrl', hpm', hevt, hchan]

theorem SafeForced.told_from {a b a' : State} (h : SafeForced n c a b)
    (hctrl : a'.reg .CH_CTRL (chIx n c) = a.reg .CH_CTRL (chIx n c))
    (hpm : a'.reg .CH_PM_CTRL (chIx n c) = a.reg .CH_PM_CTRL (chIx n c)) : SafeForced n c a' b :=
  h.congr hctrl hpm rfl rfl rfl rfl

theorem SafeForced.of_at {t : Nat} {b : State} (h : SafeForced n c (s.at t) b) : SafeForced n c s b :=
  h.told_from (State.reg_at ..).symm (State.reg_at ..).symm

/-- A message sent afterwards leaves the channel forced safe. -/
theorem SafeForced.send {a b : State} {src kind cls addr : Nat} (h : SafeForced n c a b) :
    SafeForced n c a (b.send src kind cls addr) :=
  h.congr rfl rfl (State.reg_send ..) (State.reg_send ..) (State.rb_send ..) (State.chan_send ..)

/-- What an overcurrent of channel c does: safe state, cause b of CH_EVT, the count r, the life record's count at `off`, and
a fault message of kind `kind`. -/
def overcurrent (n : Cluster) (c : Channel) (b : Nat) (r : Reg) (off kind : Nat) (s : State) : State :=
  lifeCount off 16 ((((forcedSafe n c s).setRb .CH_EVT (chIx n c) b true).count r (chIx n c) 16).send
    (srcOf n c.val) kind 1 (32 * n.val + c.val))

theorem execDrvOc_driving {t : Nat} (h : (driving (s.at t) n c).isSome = true) :
    execDrvOc t n c s = .next (overcurrent n c 3 .CH_OC_CNT (144 + 4 * chIx n c) 2 (s.at t)) := by
  unfold execDrvOc; simp only [h, if_true]; rfl

theorem execPmOc_loopOn {t : Nat} (h : loopOn (s.at t) n c = true) :
    execPmOc t n c s = .next (overcurrent n c 19 .CH_PM_OC_CNT (146 + 4 * chIx n c) 3 (s.at t)) := by
  unfold execPmOc; simp only [h, if_true]; rfl

section
variable {b off kind : Nat} {r : Reg}

/-- The registers other than the count and CH_EVT are as forcing the channel safe leaves them. -/
theorem overcurrent_reg {r' : Reg} {i : Nat} (h : r' ≠ .CH_EVT) (h' : r' ≠ r) :
    (overcurrent n c b r off kind s).reg r' i = (forcedSafe n c s).reg r' i := by
  simp [overcurrent, State.reg_count, State.reg_setRb, h, h']

theorem overcurrent_evt (hr : r ≠ .CH_EVT) (hb : b < 32) (b' : Nat) :
    (overcurrent n c b r off kind s).rb .CH_EVT (chIx n c) b' =
      if b' = b then true else (forcedSafe n c s).rb .CH_EVT (chIx n c) b' := by
  simp [overcurrent, State.rb, State.reg_count, State.reg_setRb, hr.symm, hb]

theorem overcurrent_chan : (overcurrent n c b r off kind s).chan n c = (forcedSafe n c s).chan n c := by
  simp [overcurrent]

theorem overcurrent_safeForced (hr : r ∉ safeRegs) (hb : b < 32) : SafeForced n c s (overcurrent n c b r off kind s) := by
  simp only [safeRegs, List.mem_cons, not_or] at hr
  obtain ⟨hctrl, hpm, -, hevt, -⟩ := hr
  refine forcedSafe_safeForced.congr rfl rfl (overcurrent_reg (by decide) (Ne.symm hctrl))
    (overcurrent_reg (by decide) (Ne.symm hpm)) ?_ overcurrent_chan
  rw [overcurrent_evt hevt hb, forcedSafe_evt, ite_self]

theorem overcurrent_count (hr : r ∉ safeRegs) : (overcurrent n c b r off kind s).rf r (chIx n c) 0 16 =
    satInc 65535 (s.rf r (chIx n c) 0 16) := by
  have hne : r ≠ .CH_EVT := fun h => hr (h ▸ by decide)
  have hs : (forcedSafe n c s).reg r (chIx n c) = s.reg r (chIx n c) :=
    forcedSafe_regs r _ fun h => hr (by simp [safeRegs] at h ⊢; tauto)
  have h := State.rf_count_same (s := (forcedSafe n c s).setRb .CH_EVT (chIx n c) b true) (r := r) (i := chIx n c)
    (len := 16) (by decide)
  simpa [overcurrent, State.rf, State.reg_setRb, hne, hs] using h

theorem overcurrent_msgs (hr : r ≠ .FLT_RET_CLU) : (overcurrent n c b r off kind s).msgs = s.msgs ++
    (if cluRetired s n then [] else [⟨srcOf n c.val, kind, 1, 32 * n.val + c.val⟩]) := by
  have hret : (forcedSafe n c s).reg .FLT_RET_CLU 0 = s.reg .FLT_RET_CLU 0 := forcedSafe_regs _ _ (by decide)
  have hclu : cluRetired (((forcedSafe n c s).setRb .CH_EVT (chIx n c) b true).count r (chIx n c) 16) n = cluRetired s n := by
    simp [cluRetired, State.rb, State.reg_count, State.reg_setRb, hr.symm, hret]
  rw [overcurrent, msgs_lifeCount, msgs_send_srcOf (by omega), hclu, State.msgs_count, State.msgs_setRb, forcedSafe_msgs]

theorem overcurrent_life : tabGet 0 (overcurrent n c b r off kind s).life off = satInc 65535 (tabGet 0 s.life off) := by
  have h : Part.same .life s (forcedSafe n c s) :=
    (forcedSafe_upd (C := fun _ _ => True) (Upd.refl (s := s)) (Nat.or_self _) (Nat.or_self _) trivial).parts .life (by decide)
  simp only [Part.same] at h
  simp [overcurrent, lifeCount, h]

/-- What an overcurrent at the moment of a command leaves, told from the state before the command. -/
theorem overcurrent_holds {t : Nat} (hr : r ∉ .FLT_RET_CLU :: safeRegs) (hb : b < 32) :
    let s' := overcurrent n c b r off kind (s.at t)
    SafeForced n c s s' ∧ s'.rb .CH_EVT (chIx n c) b = true ∧
      s'.rf r (chIx n c) 0 16 = satInc 65535 (s.rf r (chIx n c) 0 16) ∧
      s'.msgs = s.msgs ++ (if cluRetired s n then [] else [⟨44 * n.val + c.val, kind, 1, 32 * n.val + c.val⟩]) ∧
      tabGet 0 s'.life off = satInc 65535 (tabGet 0 s.life off) := by
  simp only [List.mem_cons, not_or] at hr
  obtain ⟨hret, hsafe⟩ := hr
  intro s'
  have hforced : SafeForced n c (s.at t) s' := overcurrent_safeForced hsafe hb
  refine ⟨hforced.of_at, ?_, ?_, ?_, ?_⟩
  · rw [overcurrent_evt (fun h => hsafe (by rw [h]; decide)) hb, if_pos rfl]
  · rw [overcurrent_count hsafe, State.rf_at]
  · rw [overcurrent_msgs hret, State.msgs_at, cluRetired, State.rb_at]; rfl
  · rw [overcurrent_life, State.life_at]

end

/-- Settles O7: both overcurrents are `overcurrent`, and the frame is that of the command. -/
theorem overcurrentForcesSafeState : Obligations.OvercurrentForcesSafeState := by
  unfold Obligations.OvercurrentForcesSafeState
  constructor
  · intro t n c s h
    have hupd := execDrvOc_upd (t := t) (C := atChannel n c) (Upd.refl (s := s)) (Nat.or_self _) (Nat.or_self _) ⟨rfl, rfl⟩
    rw [execDrvOc_driving h] at hupd
    obtain ⟨hsafe, hcause, hcount, hmsgs, hlife⟩ := overcurrent_holds (s := s) (n := n) (c := c) (b := 3) (t := t)
      (r := .CH_OC_CNT) (off := 144 + 4 * chIx n c) (kind := 2) (by decide) (by decide)
    exact ⟨_, execDrvOc_driving h, hsafe, hcause, hcount, hmsgs, hlife, hupd.frame (by decide +kernel) (by decide +kernel)⟩
  · intro t n c s h
    have hupd := execPmOc_upd (t := t) (C := atChannel n c) (Upd.refl (s := s)) (Nat.or_self _) (Nat.or_self _) ⟨rfl, rfl⟩
    rw [execPmOc_loopOn h] at hupd
    obtain ⟨hsafe, hcause, hcount, hmsgs, hlife⟩ := overcurrent_holds (s := s) (n := n) (c := c) (b := 19) (t := t)
      (r := .CH_PM_OC_CNT) (off := 146 + 4 * chIx n c) (kind := 3) (by decide) (by decide)
    exact ⟨_, execPmOc_loopOn h, hsafe, hcause, hcount, hmsgs, hlife, hupd.frame (by decide +kernel) (by decide +kernel)⟩

end Sys2Proof.Machine
end

section
/-! ### One channel among those of its cluster -/

namespace Sys2Proof.Machine

variable {K R : Nat} {C : Nat → Nat → Prop} {s s' : State} {n : Cluster} {c : Channel}

/-- The channels of cluster n other than c, and what the cluster has beside its channels. -/
def atOthers (n : Cluster) (c : Channel) (k j : Nat) : Prop := k = n.val ∧ j ≠ c.val

/-! What a frame says of the parts that the channel's statements read. -/

theorem Upd.seq_eq (h : Upd K R C s s') (hk : K.testBit (Part.ctorIdx .seqs) = false) : s'.seq n = s.seq n := by
  have hp := h.parts .seqs hk
  simp only [Part.same] at hp
  unfold State.seq; rw [hp]
theorem Upd.trig_eq (h : Upd K R C s s') (hk : K.testBit (Part.ctorIdx .trigs) = false) : s'.trig n = s.trig n := by
  have hp := h.parts .trigs hk
  simp only [Part.same] at hp
  unfold State.trig; rw [hp]
theorem Upd.clasp_eq (h : Upd K R C s s') (hk : K.testBit (Part.ctorIdx .clasp) = false) : s'.clasp = s.clasp :=
  h.parts .clasp hk
theorem Upd.msgs_eq (h : Upd K R C s s') (hk : K.testBit (Part.ctorIdx .msgs) = false) : s'.msgs = s.msgs :=
  h.parts .msgs hk

theorem Upd.chan_of_others (h : Upd K R (atOthers n c) s s') : s'.chan n c = s.chan n c :=
  h.within.chans n.val c.val c.isLt fun x => x.2 rfl

theorem Upd.reg_of_others {r : Reg} (h : Upd K R (atOthers n c) s s') (hc : r.row.cluster = true) (h32 : r.row.count = 32) :
    s'.reg r (chIx n c) = s.reg r (chIx n c) :=
  h.within.chanRegs r n.val c.val hc h32 c.isLt fun x => x.2 rfl

/-- Channel c's own turn among those of its cluster: the turns before it and after it leave it as it is. -/
theorem forChannels_turn {f : Cluster → Channel → State → State} (hf : ∀ c s, Upd K R (atChannel n c) s (f n c s))
    (s : State) (c : Channel) :
    ∃ u, Upd K R (atOthers n c) s u ∧ Upd K R (atOthers n c) (f n c u) (forChannels n f s) := by
  have hothers : ∀ (l : List Channel) (a : State), c ∉ l → Upd K R (atOthers n c) a (l.foldl (fun s c => f n c s) a) := by
    intro l a hl
    refine List.foldlRecOn l _ Upd.refl fun b hb d hd => hb.trans ?_
    have hne : d.val ≠ c.val := fun e => hl (Fin.ext e ▸ hd)
    exact { hf d b with within := (hf d b).within.mono fun k j x => ⟨x.1, x.2.symm ▸ hne⟩ }
  obtain ⟨l, l', hl⟩ := List.append_of_mem (List.mem_finRange c)
  have hnd := hl ▸ List.nodup_finRange 32
  have hsplit : c ∉ l ∧ c ∉ l' := by
    rw [List.nodup_append, List.nodup_cons] at hnd
    exact ⟨fun h => hnd.2.2 c h c (List.mem_cons_self ..) rfl, hnd.2.1.1⟩
  refine ⟨l.foldl (fun s c => f n c s) s, hothers l s hsplit.1, ?_⟩
  unfold forChannels
  rw [hl, List.foldl_append, List.foldl_cons]
  exact hothers l' _ hsplit.2

/-- Every channel of a cluster forced safe is as R36 says. -/
theorem forceCluster_safeForced : SafeForced n c s (forceCluster n s) := by
  obtain ⟨u, hbefore, hafter⟩ := forChannels_turn (n := n) (f := forcedSafe)
    (fun c s => forcedSafe_upd (C := atChannel n c) (Upd.refl (s := s)) (Nat.or_self _) (Nat.or_self _) ⟨rfl, rfl⟩) s c
  refine forcedSafe_safeForced.congr (hbefore.reg_of_others rfl rfl).symm (hbefore.reg_of_others rfl rfl).symm
    (hafter.reg_of_others rfl rfl) (hafter.reg_of_others rfl rfl) ?_ hafter.chan_of_others
  rw [State.rb, State.rb]; exact congrArg (bitOf · 6) (hafter.reg_of_others rfl rfl)

end Sys2Proof.Machine
end

section
/-! ### The timing DLL (R131, R132) -/

namespace Sys2Proof.Machine

variable {s : State} {n : Cluster} {c : Channel}

/-- LOCK reads 0 and UNLOCK is set. -/
def dllFlags (n : Cluster) (s : State) : State := (s.setRb .CL_TIM_STAT n 0 false).setRb .CL_TIM_EVT n 6 true

/-- Lock is lost: the flags, and a pattern that runs and has no end yet ends with code DLL_UNLOCK. -/
def dllLost (n : Cluster) (s : State) : State :=
  if seqIdle s n ∨ (s.seq n).ending.isSome then dllFlags n s else endSeq n 9 0 (dllFlags n s)

theorem seqIdle_congr {a b : State} (h : b.reg .CL_SEQ_STAT n = a.reg .CL_SEQ_STAT n) : seqIdle b n = seqIdle a n := by
  unfold seqIdle seqState State.rf; rw [h]

theorem cluRetired_congr {a b : State} (h : b.reg .FLT_RET_CLU 0 = a.reg .FLT_RET_CLU 0) : cluRetired b n = cluRetired a n := by
  unfold cluRetired State.rb; rw [h]

theorem execTimingDllUnlock_locked {t : Nat} (h : s.rb .CL_TIM_STAT n 0 = true) :
    execTimingDllUnlock t n s = .next ((forceCluster n (dllLost n (s.at t))).send (srcOf n 33) 5 1 n.val) := by
  have hidle : seqIdle (dllFlags n (s.at t)) n = seqIdle (s.at t) n := seqIdle_congr (by simp [dllFlags, State.reg_setRb])
  unfold dllLost
  rw [← hidle]
  unfold execTimingDllUnlock
  simp only [State.rb_at, h, if_true]
  rfl

theorem dllLost_reg (r : Reg) (i : Nat) : (dllLost n s).reg r i = (dllFlags n s).reg r i := by
  unfold dllLost endSeq; split <;> rfl

theorem dllLost_msgs : (dllLost n s).msgs = s.msgs := by unfold dllLost endSeq; split <;> rfl

theorem dllLost_ending : ((dllLost n s).seq n).ending =
    if seqIdle s n ∨ (s.seq n).ending.isSome then (s.seq n).ending else some (9, 0) := by
  unfold dllLost
  split
  · rfl
  · rw [endSeq, State.seq_modSeq]

theorem execTimingDllLock_stable {t : Nat} (hs : s.rb .CLK_STAT 0 2 = true) (hr : cluRetired s n = false) :
    execTimingDllLock t n s = .next ((s.at t).setRb .CL_TIM_STAT n 0 true) := by
  have hr' : cluRetired (s.at t) n = false := (cluRetired_congr (State.reg_at ..)).trans hr
  unfold execTimingDllLock
  simp only [State.rb_at, hs, hr', Bool.not_false, and_self, if_true]

/-- Settles O15: unlocking is `dllLost`, then every channel forced safe, then the message. -/
theorem dllLocksAndUnlocks : Obligations.DllLocksAndUnlocks := by
  unfold Obligations.DllLocksAndUnlocks
  constructor
  · intro t n s hstable hret
    have hupd := execTimingDllLock_upd (t := t) (C := atCluster n) (Upd.refl (s := s)) (Nat.or_self _) (Nat.or_self _) ⟨0, rfl⟩
    rw [execTimingDllLock_stable hstable hret] at hupd
    exact ⟨_, execTimingDllLock_stable hstable hret, by simp [State.reg_setRb],
      hupd.frame (by decide +kernel) (by decide +kernel)⟩
  · intro t n s hlocked
    have hupd := execTimingDllUnlock_upd (t := t) (C := atCluster n) (Upd.refl (s := s)) (Nat.or_self _) (Nat.or_self _)
      fun _ => rfl
    rw [execTimingDllUnlock_locked hlocked] at hupd
    have hforce := forceCluster_upd (C := atCluster n) (n := n) (Upd.refl (s := dllLost n (s.at t))) (Nat.or_self _)
      (Nat.or_self _) fun _ => rfl
    have hmsgs : (forceCluster n (dllLost n (s.at t))).msgs = s.msgs :=
      (hforce.msgs_eq (by decide)).trans (dllLost_msgs.trans (State.msgs_at ..))
    have hret : cluRetired (forceCluster n (dllLost n (s.at t))) n = cluRetired s n := by
      refine cluRetired_congr ((hforce.reg _ _ (by decide)).trans ?_)
      simp [dllLost_reg, dllFlags, State.reg_setRb]
    have hseq : (forceCluster n (dllLost n (s.at t))).seq n = (dllLost n (s.at t)).seq n :=
      hforce.seq_eq (by decide)
    refine ⟨_, execTimingDllUnlock_locked hlocked, ?_, ?_, fun c => ?_, ?_, ?_,
      hupd.frame (by decide +kernel) (by decide +kernel)⟩
    · rw [State.reg_send, hforce.reg .CL_TIM_STAT _ (by decide), dllLost_reg]
      simp [dllFlags, State.reg_setRb]
    · rw [State.rb_send, hforce.rb .CL_TIM_EVT _ _ (by decide), State.rb, dllLost_reg]
      simp [dllFlags, State.reg_setRb]
    · have hsafe : SafeForced n c (dllLost n (s.at t)) (forceCluster n (dllLost n (s.at t))) := forceCluster_safeForced
      have hctrl : (dllLost n (s.at t)).reg .CH_CTRL (chIx n c) = s.reg .CH_CTRL (chIx n c) := by
        simp [dllLost_reg, dllFlags, State.reg_setRb]
      have hpm : (dllLost n (s.at t)).reg .CH_PM_CTRL (chIx n c) = s.reg .CH_PM_CTRL (chIx n c) := by
        simp [dllLost_reg, dllFlags, State.reg_setRb]
      exact (hsafe.told_from hctrl.symm hpm.symm).send
    · rw [State.seq_send, hseq, dllLost_ending, seqIdle_congr (State.reg_at ..), State.seq_at]
    · rw [msgs_send_srcOf (by decide), hmsgs, hret]; rfl

end Sys2Proof.Machine
end

section
/-! ### Commands that write a register of a channel -/

namespace Sys2Proof.Machine

variable {K R : Nat} {C : Nat → Nat → Prop} {s : State} {n : Cluster} {c : Channel} {q : Req} {d set : Word}

/-- The registers of a channel that commands write. -/
def chanCmdRegs : List Reg :=
  [.CH_CTRL, .CH_LVL, .CH_CMP, .CH_SELFCHK, .CH_PM_CTRL, .CH_PM_FV, .CH_PM_FI, .CH_PM_ICLH, .CH_PM_ICLL, .CH_PM_VCLH,
    .CH_PM_VCLL]

theorem chanCmdRegs_row {r : Reg} (h : r ∈ chanCmdRegs) : r ∈ cmdRegs ∧ r.row.cluster = true ∧ r.row.count = 32 := by
  revert r; decide

/-- The effect of its chapter is that of a channel's register. -/
theorem cluPut_chan {r : Reg} (h : r ∈ chanCmdRegs) (i : Nat) (d m : Word) :
    cluPut q n r i d m s = .ok (chanWrite false r n (elemCh i) d m s) := by
  simp only [chanCmdRegs, List.mem_cons, List.not_mem_nil, or_false] at h
  rcases h with rfl | rfl | rfl | rfl | rfl | rfl | rfl | rfl | rfl | rfl | rfl <;> rfl

/-- An accepted command that writes a channel's register has its chapter's effect, and ends the cluster's gating (R428). -/
theorem cmdWrite_chan {r : Reg} (hm : r ∈ chanCmdRegs) (h : Accepted q r (chIx n c) (d ||| set) s) :
    cmdWrite q r (chIx n c) d set s = ungate n.val (chanWrite false r n c (d ||| set) 0xFFFFFFFF#32 s) := by
  obtain ⟨hcmd, hclu, hcount⟩ := chanCmdRegs_row hm
  have hsize : chIx n c < r.size := by unfold Reg.size chIx; rw [if_pos hclu, hcount]; omega
  have hof : r.cluOf (chIx n c) = n.val := by unfold Reg.cluOf chIx; rw [hcount]; omega
  obtain ⟨s', hput, hwrite⟩ := cmdWrite_cluster hcmd hclu hsize hof h
  rw [cluPut_chan hm, elemCh_chIx] at hput
  cases hput
  exact hwrite

/-- The same where the command sets no bit of its own. -/
theorem cmdWrite_chan_plain {r : Reg} (hm : r ∈ chanCmdRegs) (h : Accepted q r (chIx n c) d s) :
    cmdWrite q r (chIx n c) d 0#32 s = ungate n.val (chanWrite false r n c d 0xFFFFFFFF#32 s) := by
  have hzero : d ||| 0#32 = d := BitVec.or_zero
  have hw := cmdWrite_chan (set := 0#32) hm (hzero.symm ▸ h)
  rwa [hzero] at hw

/-- What such a command changes: what its chapter's effect changes, the Clasp time, and PWR_CLU_GATE. -/
theorem cmdWrite_frame {t : Nat} {s' : State} (h : Upd K R C (s.at t) s') :
    Upd (K ||| 1) (R ||| 0x800000000000000000000000000000) C s (ungate n.val s') := by
  have hone : 1 ||| (K ||| 1) = K ||| 1 := by rw [Nat.or_comm K, ← Nat.or_assoc, Nat.or_self]
  have hgate : 0x800000000000000000000000000000 ||| (R ||| 0x800000000000000000000000000000) =
      R ||| 0x800000000000000000000000000000 := by rw [Nat.or_comm R, ← Nat.or_assoc, Nat.or_self]
  refine ungate_upd ((State.at_upd Upd.refl hone).trans (h.mono ?_ ?_)) hgate
  · rw [← Nat.or_assoc, Nat.or_self]
  · rw [← Nat.or_assoc, Nat.or_self]

/-- Ending the gating of a cluster writes PWR_CLU_GATE and nothing else. -/
theorem ungate_reg {k i : Nat} {r : Reg} (h : r ≠ .PWR_CLU_GATE) : (ungate k s).reg r i = s.reg r i := by
  unfold ungate; split
  · rfl
  · simp [State.reg_setRb, h]
theorem ungate_rb {k i b : Nat} {r : Reg} (h : r ≠ .PWR_CLU_GATE) : (ungate k s).rb r i b = s.rb r i b := by
  rw [State.rb, ungate_reg h]; rfl
theorem ungate_rf {k i lo len : Nat} {r : Reg} (h : r ≠ .PWR_CLU_GATE) : (ungate k s).rf r i lo len = s.rf r i lo len := by
  rw [State.rf, ungate_reg h]; rfl
@[simp] theorem ungate_chan (k : Nat) : (ungate k s).chan n c = s.chan n c := by unfold ungate; split <;> rfl
@[simp] theorem ungate_blankAt (k : Nat) : (ungate k s).blankAt = s.blankAt := by unfold ungate; split <;> rfl

end Sys2Proof.Machine
end

section
/-! ### The switch (R33 to R39) -/

namespace Sys2Proof.Machine

variable {s : State} {n : Cluster} {c : Channel} {d : Word}


/-! What CONNECT and the switch make of the driver, the load and the force loop. -/

theorem swClosed_of_connect (h : s.rb .CH_CTRL (chIx n c) 0 = false) : swClosed s n c = false := by
  unfold swClosed; rw [h]; rfl
theorem swClosed_of_sw (h : (s.chan n c).sw ≠ .closed) : swClosed s n c = false := by
  unfold swClosed; simp [h]
theorem driving_of_open (h : swClosed s n c = false) : driving s n c = none := by
  unfold driving; rw [if_neg (by simp [h])]
theorem loadOn_of_open (h : swClosed s n c = false) : loadOn s n c = false := by
  unfold loadOn; simp [h]
theorem loopOn_of_open (h : swClosed s n c = false) : loopOn s n c = false := by
  unfold loopOn; simp [h]

/-- An opened switch is all of safe state. -/
theorem chSafe_of_opened (h : (s.chan n c).sw = .opened) : chSafe s n c = true := by
  have hopen : swClosed s n c = false := swClosed_of_sw (by rw [h]; decide)
  simp [chSafe, h, driving_of_open hopen, loadOn_of_open hopen, loopOn_of_open hopen]

/-! The word that a write of CH_CTRL stores, and what it does to the switch. -/

theorem ctrlApply_ctrl (w : Word) : (ctrlApply n c w s).reg .CH_CTRL (chIx n c) = w := by
  unfold ctrlApply clearClamp
  dsimp only
  split <;> simp [State.reg_setRf]

theorem ctrlApply_chan (w : Word) : (ctrlApply n c w s).chan n c =
    { s.chan n c with
      sw := if bitOf w 0 && !s.rb .CH_CTRL (chIx n c) 0 then .closing
            else if !bitOf w 0 && s.rb .CH_CTRL (chIx n c) 0 then
              (if (s.chan n c).sw = .opened then .opened else .opening) else (s.chan n c).sw,
      drvOn := (s.chan n c).drvOn && bitOf w 0 && bitOf w 1 && decide (fld w 4 2 = 1) } := by
  unfold ctrlApply clearClamp
  dsimp only
  split
  · rw [State.chan_setRf, State.chan_modChan]; rfl
  · rw [State.chan_modChan]; rfl

theorem ctrlApply_reg (w : Word) {r : Reg} {i : Nat} (h : r ≠ .CH_CTRL) (h' : r ≠ .CH_PM_STAT) :
    (ctrlApply n c w s).reg r i = s.reg r i := by
  unfold ctrlApply clearClamp
  dsimp only
  split <;> simp [State.reg_setRf, State.reg_setReg, h, h']

/-- A word with INACT 3 stored as 0 keeps its other bits. -/
theorem bitOf_inact (w : Word) {b : Nat} (hb : b < 2) :
    bitOf (if fld w 2 2 = 3 then putFld w 2 2 0 else w) b = bitOf w b := by
  split
  · rw [bitOf_putFld _ _ _ _ _ (by omega), if_neg (by omega)]
  · rfl

/-- CONNECT as written, where nothing keeps the writable bits as they are and nothing holds the channel safe. -/
theorem ctrlWord_connect (h : heldSafe s n c = false) : bitOf (ctrlWord s n c d 0xFFFFFFFF#32) 0 = bitOf d 0 := by
  have hret : (retired s n c || fenced s n c) = false := by simp [heldSafe] at h; simp [h]
  unfold ctrlWord
  dsimp only
  rw [if_neg (by simp [hret]), if_neg (by simp [h]), bitOf_inact _ (by decide), bitOf_mergeRw _ _ _ _ (by decide)]
  rfl

/-- A 0 written to CONNECT is stored wherever the channel is neither retired nor fenced. -/
theorem ctrlWord_disconnect (hr : retired s n c = false) (hf : fenced s n c = false) (hd : bitOf d 0 = false) :
    bitOf (ctrlWord s n c d 0xFFFFFFFF#32) 0 = false := by
  have hraw : bitOf (mergeRw (s.reg .CH_CTRL (chIx n c)) 0x3F#32 d 0xFFFFFFFF#32) 0 = false := by
    rw [bitOf_mergeRw _ _ _ _ (by decide), hd]; rfl
  unfold ctrlWord
  dsimp only
  rw [if_neg (by simp [hr, hf])]
  split
  · simp only [bitOf_or, bitOf_and, bitOf_inact _ (show 0 < 2 by decide), hraw, Bool.false_and, Bool.or_self]
  · rw [bitOf_inact _ (by decide), hraw]

/-! The commands. -/

/-- The word w has been written to the channel's CH_CTRL, at the moment of a command. -/
def ctrlWritten (n : Cluster) (c : Channel) (w : Word) (s : State) : State := ungate n.val (ctrlWrite n c w 0xFFFFFFFF#32 s)

theorem execSafeRequest_accepted {t : Nat} {r : Req} (h : Accepted r .CH_CTRL (chIx n c) (d ||| 0x40#32) (s.at t)) :
    execSafeRequest t r n c d s = .next (ctrlWritten n c (d ||| 0x40#32) (s.at t)) :=
  congrArg Host.Outcome.next (cmdWrite_chan (by decide) h)

theorem execSwitchClose_accepted {t : Nat} {r : Req} (h : Accepted r .CH_CTRL (chIx n c) (d ||| 1#32) (s.at t)) :
    execSwitchClose t r n c d s = .next (ctrlWritten n c (d ||| 1#32) (s.at t)) :=
  congrArg Host.Outcome.next (cmdWrite_chan (by decide) h)

theorem execSwitchOpen_accepted {t : Nat} {r : Req} (h : Accepted r .CH_CTRL (chIx n c) (d &&& 0xFFFFFFFE#32) (s.at t)) :
    execSwitchOpen t r n c d s = .next (ctrlWritten n c (d &&& 0xFFFFFFFE#32) (s.at t)) :=
  congrArg Host.Outcome.next (cmdWrite_chan_plain (by decide) h)

theorem ctrlWritten_frame {t : Nat} (w : Word) :
    Frame [.clasp, .chans, .free] (.PWR_CLU_GATE :: safeRegs) (atChannel n c) s (ctrlWritten n c w (s.at t)) :=
  (cmdWrite_frame (ctrlWrite_upd (C := atChannel n c) Upd.refl (Nat.or_self _) (Nat.or_self _) ⟨rfl, rfl⟩)).frame
    (by decide +kernel) (by decide +kernel)

/-- A write with SAFE forces the channel safe after the rest of the write. -/
theorem ctrlWritten_of_safe (h : bitOf d 6 = true) :
    ctrlWritten n c d s = ungate n.val (forcedSafe n c (ctrlApply n c (ctrlWord s n c d 0xFFFFFFFF#32) s)) := by
  unfold ctrlWritten ctrlWrite
  dsimp only
  rw [if_pos (by rw [ones_full, h])]

/-- A write without SAFE changes the register's bits and what follows them. -/
theorem ctrlWritten_of_not_safe (h : bitOf d 6 = false) :
    ctrlWritten n c d s = ungate n.val (ctrlApply n c (ctrlWord s n c d 0xFFFFFFFF#32) s) := by
  unfold ctrlWritten ctrlWrite
  dsimp only
  rw [if_neg (by rw [ones_full, h]; decide)]

theorem execSwitchClosed_closing {t : Nat} (h : (s.chan n c).sw = .closing) (hc : s.rb .CH_CTRL (chIx n c) 0 = true) :
    execSwitchClosed t n c s = .next ((s.at t).modChan n c fun x => { x with sw := .closed }) := by
  unfold execSwitchClosed; simp only [State.chan_at, State.rb_at, h, hc, and_self, if_true]

theorem execSafeEntryComplete_opening {t : Nat} (h : (s.chan n c).sw = .opening) :
    execSafeEntryComplete t n c s = .next ((endGate n c 5 false (endMeas n c (s.at t))).modChan n c
      fun x => { x with sw := .opened, drvOn := false }) := by
  unfold execSafeEntryComplete; simp only [State.chan_at, h, if_true]

/-- Settles O8, clause by clause: the three writes of CH_CTRL, then the two events of the switch. -/
theorem switchFollowsConnect : Obligations.SwitchFollowsConnect := by
  unfold Obligations.SwitchFollowsConnect
  refine ⟨?_, ?_, ?_, ?_, ?_⟩
  · intro t r n c d s hacc
    have hsafe : bitOf (d ||| 0x40#32) 6 = true := by rw [bitOf_or]; simp [bitOf]
    obtain ⟨-, hpm, hevt, hoff, hsw⟩ := forcedSafe_safeForced (n := n) (c := c)
      (s := ctrlApply n c (ctrlWord (s.at t) n c (d ||| 0x40#32) 0xFFFFFFFF#32) (s.at t))
    refine ⟨_, execSafeRequest_accepted hacc, ?_, ?_, ?_, ?_, ?_, ctrlWritten_frame _⟩ <;> rw [ctrlWritten_of_safe hsafe]
    · rw [ungate_rf (by decide), forcedSafe_ctrl]
    · rw [ungate_reg (by decide), hpm, ctrlApply_reg _ (by decide) (by decide), State.reg_at]
    · rw [ungate_rb (by decide), hevt]
    · rw [ungate_chan, hoff]
    · rw [ungate_chan]; exact hsw
  · intro t r n c d s hacc hd hheld hwas
    have hnot : bitOf (d ||| 1#32) 6 = false := by rw [bitOf_or, hd]; rfl
    have hword : bitOf (ctrlWord (s.at t) n c (d ||| 1#32) 0xFFFFFFFF#32) 0 = true := by
      rw [ctrlWord_connect hheld, bitOf_or]; simp [bitOf]
    have hsw : ((ctrlWritten n c (d ||| 1#32) (s.at t)).chan n c).sw = .closing := by
      rw [ctrlWritten_of_not_safe hnot, ungate_chan, ctrlApply_chan, hword, State.rb_at, hwas]; rfl
    refine ⟨_, execSwitchClose_accepted hacc, ?_, hsw, swClosed_of_sw (by rw [hsw]; decide), ctrlWritten_frame _⟩
    rw [ctrlWritten_of_not_safe hnot, ungate_rb (by decide), State.rb, ctrlApply_ctrl, hword]
  · intro t r n c d s hacc hd hret hfen hwas
    have hnot : bitOf (d &&& 0xFFFFFFFE#32) 6 = false := by rw [bitOf_and, hd]; rfl
    have hword : bitOf (ctrlWord (s.at t) n c (d &&& 0xFFFFFFFE#32) 0xFFFFFFFF#32) 0 = false :=
      ctrlWord_disconnect (by simpa [retired] using hret) (by simpa [fenced] using hfen)
        (by rw [bitOf_and]; simp [bitOf])
    have hconnect : (ctrlWritten n c (d &&& 0xFFFFFFFE#32) (s.at t)).rb .CH_CTRL (chIx n c) 0 = false := by
      rw [ctrlWritten_of_not_safe hnot, ungate_rb (by decide), State.rb, ctrlApply_ctrl, hword]
    have hopen := swClosed_of_connect hconnect
    refine ⟨_, execSwitchOpen_accepted hacc, hconnect, hopen, driving_of_open hopen, loadOn_of_open hopen,
      loopOn_of_open hopen, ?_, ctrlWritten_frame _⟩
    rw [ctrlWritten_of_not_safe hnot, ungate_chan, ctrlApply_chan, hword, State.rb_at, hwas]
    by_cases hsw : ((s.at t).chan n c).sw = .opened
    · exact .inl (if_pos hsw)
    · exact .inr (if_neg hsw)
  · intro t n c s hsw hconnect
    have hupd := execSwitchClosed_upd (R := 0) (t := t) (C := atChannel n c) (Upd.refl (s := s)) (Nat.or_self _) ⟨rfl, rfl⟩
    rw [execSwitchClosed_closing hsw hconnect] at hupd
    refine ⟨_, execSwitchClosed_closing hsw hconnect, ?_, ?_, hupd.frame (by decide +kernel) (by decide +kernel)⟩
    · simpa [swClosed, State.rb] using hconnect
    · rw [State.chan_modChan, State.chan_at]
  · intro t n c s hsw
    have hupd := execSafeEntryComplete_upd (t := t) (C := atChannel n c) (Upd.refl (s := s)) (Nat.or_self _) (Nat.or_self _)
      ⟨rfl, rfl⟩
    rw [execSafeEntryComplete_opening hsw] at hupd
    obtain ⟨g, h, hchan, hnone⟩ := endGate_chan (s := endMeas n c (s.at t)) (n := n) (c := c) 5 false
    refine ⟨_, execSafeEntryComplete_opening hsw, ?_, chSafe_of_opened ?_, ?_, ?_,
      hupd.frame (by decide +kernel) (by decide +kernel)⟩
    · rw [State.chan_modChan]
    · rw [State.chan_modChan]
    · rw [State.chan_modChan, hchan, endMeas_chan]
    · rw [State.chan_modChan, hchan]; exact hnone (by decide) (by decide)

end Sys2Proof.Machine
end

section
/-! ### Level sets (R52) -/

namespace Sys2Proof.Machine

variable {s : State} {n : Cluster} {c : Channel} {d : Word}

theorem plainWrite_reg (r r' : Reg) (i i' : Nat) (m : Word) : (plainWrite r i d m s).reg r' i' =
    if r' = r ∧ i' = i then plainWord s r i d m else s.reg r' i' := State.reg_setReg ..

@[simp] theorem markChanged_reg (r : Reg) (i : Nat) : (markChanged n c s).reg r i = s.reg r i := by
  unfold markChanged modGate; split <;> rfl

theorem noteClamp_reg {s' : State} {r : Reg} {i : Nat} (h : r ≠ .CH_EVT) : (noteClamp s n c s').reg r i = s'.reg r i := by
  unfold noteClamp; split
  · simp [State.reg_setRb, h]
  · rfl

theorem rwOf_lvl (i : Nat) : Reg.rwOf .CH_LVL i = 0xF#32 := rfl

theorem lsetOf_plainWrite : lsetOf (plainWrite .CH_LVL (chIx n c) d 0xFFFFFFFF#32 s) n c = fld d 0 4 := by
  unfold lsetOf State.rf
  rw [plainWrite_reg, if_pos ⟨rfl, rfl⟩, fld_plainWord _ _ _ _ _ _ (by decide) (by rw [rwOf_lvl]; decide) (by decide)]

/-- A write of another level set takes it into use and sets LVL_SETTLING. -/
theorem lvlWrite_new (h : fld d 0 4 ≠ lsetOf s n c) : lvlWrite n c d 0xFFFFFFFF#32 s =
    noteClamp s n c (markChanged n c ((plainWrite .CH_LVL (chIx n c) d 0xFFFFFFFF#32 s).setRb .CH_STAT (chIx n c) 3 true)) := by
  unfold lvlWrite; dsimp only; rw [if_neg (by rwa [lsetOf_plainWrite])]

theorem execLevelSetSelect_accepted {t : Nat} {r : Req} (h : Accepted r .CH_LVL (chIx n c) d (s.at t)) :
    execLevelSetSelect t r n c d s = .next (ungate n.val (lvlWrite n c d 0xFFFFFFFF#32 (s.at t))) :=
  congrArg Host.Outcome.next (cmdWrite_chan_plain (by decide) h)

theorem levelSetSelect_holds {t : Nat} {r : Req} (hacc : Accepted r .CH_LVL (chIx n c) d (s.at t))
    (hd : fld d 0 4 ≠ lsetOf s n c) :
    ∃ s', exec (.levelSetSelect t r n c d) s = .next s' ∧ lsetOf s' n c = fld d 0 4 ∧ s'.rb .CH_STAT (chIx n c) 3 = true ∧
      Frame [.clasp, .chans] [.CH_LVL, .CH_STAT, .CH_EVT, .PWR_CLU_GATE] (atChannel n c) s s' := by
  have hd' : fld d 0 4 ≠ lsetOf (s.at t) n c := by rwa [lsetOf, State.rf_at]
  have hupd := cmdWrite_frame (n := n) (lvlWrite_upd (C := atChannel n c) (d := d) (m := 0xFFFFFFFF#32)
    (Upd.refl (s := s.at t)) (Nat.or_self _) (Nat.or_self _) ⟨rfl, rfl⟩)
  refine ⟨_, execLevelSetSelect_accepted hacc, ?_, ?_, hupd.frame (by decide +kernel) (by decide +kernel)⟩
  · rw [lsetOf, ungate_rf (by decide), lvlWrite_new hd', State.rf, noteClamp_reg (by decide), markChanged_reg,
      State.reg_setRb, if_neg (by simp)]
    exact lsetOf_plainWrite
  · rw [ungate_rb (by decide), lvlWrite_new hd', State.rb, noteClamp_reg (by decide), markChanged_reg]
    exact State.rb_setRb_same _ _ _ _ _ (by decide)

theorem lvlSettled_holds (t : Nat) :
    ∃ s', exec (.lvlSettled t n c) s = .next s' ∧ s'.reg .CH_STAT (chIx n c) = putBit (s.reg .CH_STAT (chIx n c)) 3 false ∧
      Frame [.clasp] [.CH_STAT] (atChannel n c) s s' := by
  have hupd := execLvlSettled_upd (t := t) (C := atChannel n c) (Upd.refl (s := s)) (Nat.or_self _) (Nat.or_self _) ⟨rfl, rfl⟩
  exact ⟨_, rfl, by simp [State.reg_setRb], hupd.frame (by decide +kernel) (by decide +kernel)⟩

end Sys2Proof.Machine
end

section
/-! ### Comparators (R58 to R63) -/

namespace Sys2Proof.Machine

variable {s : State} {n : Cluster} {c : Channel} {d : Word} {low : Bool}

/-! What a comparator shows depends on CH_CMP and CH_CMP_STAT alone. -/

theorem cmpOn_congr {a b : State} (h : b.reg .CH_CMP (chIx n c) = a.reg .CH_CMP (chIx n c)) :
    cmpOn b n c low = cmpOn a n c low := by unfold cmpOn State.rb State.rf; rw [h]
theorem unres_congr {a b : State} (h : b.reg .CH_CMP_STAT (chIx n c) = a.reg .CH_CMP_STAT (chIx n c)) :
    unres b n c low = unres a n c low := by unfold unres State.rb; rw [h]
theorem cmpOut_congr {a b : State} (h : b.reg .CH_CMP_STAT (chIx n c) = a.reg .CH_CMP_STAT (chIx n c)) :
    cmpOut b n c low = cmpOut a n c low := by unfold cmpOut State.rb; rw [h]

/-! Entering UNRESOLVED. -/

theorem enterUnres_reg {r : Reg} {i : Nat} (h : r ≠ .CH_CMP_STAT) : (enterUnres n c low s).reg r i = s.reg r i := by
  simp [enterUnres, State.reg_setRb, h]

theorem enterUnres_stat (l : Bool) : unres (enterUnres n c low s) n c l = (decide (l = low) || unres s n c l) ∧
    cmpOut (enterUnres n c low s) n c l = (!decide (l = low) && cmpOut s n c l) := by
  cases low <;> cases l <;> simp [enterUnres, unres, cmpOut, State.rb, State.reg_setRb]

/-- Entering UNRESOLVED reaches the other comparator's bits as little as any other register. -/
theorem cmpAfter_other {was mc l : Bool} (h : l ≠ low) : unres (cmpAfter n c low was mc s) n c l = unres s n c l ∧
    cmpOut (cmpAfter n c low was mc s) n c l = cmpOut s n c l := by
  unfold cmpAfter
  dsimp only
  split
  · obtain ⟨hu, ho⟩ := enterUnres_stat (s := s) (n := n) (c := c) (low := low) l
    simpa [h] using And.intro hu ho
  · exact ⟨rfl, rfl⟩

theorem cmpAfter_reg {was mc : Bool} {r : Reg} {i : Nat} (h : r ≠ .CH_CMP_STAT) :
    (cmpAfter n c low was mc s).reg r i = s.reg r i := by
  unfold cmpAfter
  dsimp only
  split
  · exact enterUnres_reg h
  · rfl

/-- A comparator that comes on, or whose mode changes while it is on, is UNRESOLVED with output 0 (R60). -/
theorem cmpAfter_enters {was mc : Bool} (hon : cmpOn s n c low = true) (h : was = false ∨ mc = true) :
    unres (cmpAfter n c low was mc s) n c low = true ∧ cmpOut (cmpAfter n c low was mc s) n c low = false := by
  have hc : (cmpOn s n c low && (!was || mc) || (was && !cmpOn s n c low)) = true := by
    rw [hon]; rcases h with h | h <;> simp [h]
  obtain ⟨hu, ho⟩ := enterUnres_stat (s := s) (n := n) (c := c) (low := low) low
  unfold cmpAfter
  dsimp only
  rw [if_pos hc]
  simpa using And.intro hu ho

/-! The word that a write of CH_CMP stores. -/

/-- HYST above 50 is stored as 50. -/
def capHyst (w : Word) : Word := if 50 < fld w 5 6 then putFld w 5 6 50 else w
/-- MODE 5 to 7 is stored as 0. -/
def capMode (w : Word) : Word := if 5 ≤ fld w 0 3 then putFld w 0 3 0 else w
def cmpWord (s : State) (n : Cluster) (c : Channel) (d : Word) : Word :=
  capMode (capHyst (plainWord s .CH_CMP (chIx n c) d 0xFFFFFFFF#32))

theorem fld_capHyst_mode (w : Word) : fld (capHyst w) 0 3 = fld w 0 3 := by
  unfold capHyst; split
  · exact fld_putFld_ne _ _ _ _ _ _ (by decide) (by decide)
  · rfl
theorem fld_capHyst_hyst (w : Word) : fld (capHyst w) 5 6 = min 50 (fld w 5 6) := by
  unfold capHyst; split
  · rw [fld_putFld_same _ _ _ _ (by decide)]; omega
  · omega
theorem fld_capMode_mode (w : Word) : fld (capMode w) 0 3 = if 5 ≤ fld w 0 3 then 0 else fld w 0 3 := by
  unfold capMode; split
  · exact fld_putFld_same _ _ _ _ (by decide)
  · rfl
theorem fld_capMode_hyst (w : Word) : fld (capMode w) 5 6 = fld w 5 6 := by
  unfold capMode; split
  · exact fld_putFld_ne _ _ _ _ _ _ (by decide) (by decide)
  · rfl

theorem rwOf_cmp (i : Nat) : Reg.rwOf .CH_CMP i = 0xFFF#32 := rfl

theorem cmpWord_mode : fld (cmpWord s n c d) 0 3 = if 5 ≤ fld d 0 3 then 0 else fld d 0 3 := by
  rw [cmpWord, fld_capMode_mode, fld_capHyst_mode, fld_plainWord _ _ _ _ _ _ (by decide) (by rw [rwOf_cmp]; decide) (by decide)]
theorem cmpWord_hyst : fld (cmpWord s n c d) 5 6 = min 50 (fld d 5 6) := by
  rw [cmpWord, fld_capMode_hyst, fld_capHyst_hyst, fld_plainWord _ _ _ _ _ _ (by decide) (by rw [rwOf_cmp]; decide) (by decide)]

/-- The enables and STAMP_SEL (bits 3, 4 and 11) are stored as written. -/
theorem cmpWord_bit {b : Nat} (h : b = 3 ∨ b = 4 ∨ b = 11) : bitOf (cmpWord s n c d) b = bitOf d b := by
  have hmode : ∀ w, bitOf (capMode w) b = bitOf w b := fun w => by
    unfold capMode; split
    · rw [bitOf_putFld _ _ _ _ _ (by omega), if_neg (by omega)]
    · rfl
  have hhyst : ∀ w, bitOf (capHyst w) b = bitOf w b := fun w => by
    unfold capHyst; split
    · rw [bitOf_putFld _ _ _ _ _ (by omega), if_neg (by omega)]
    · rfl
  have hrw : bitOf (Reg.rwOf .CH_CMP (chIx n c)) b = true := by rw [rwOf_cmp]; rcases h with rfl | rfl | rfl <;> decide
  have hw1c : bitOf Reg.CH_CMP.row.w1c b = false := BitVec.getLsbD_zero
  rw [cmpWord, hmode, hhyst, bitOf_plainWord _ _ _ _ _ (by omega), if_pos hrw, hw1c, Bool.and_false, Bool.not_false,
    Bool.and_true]

/-! The write. -/

/-- CH_CMP has its new word, and the gate follows (R243, R244); the comparators do not yet. -/
def cmpStored (n : Cluster) (c : Channel) (d : Word) (s : State) : State :=
  let w := cmpWord s n c d
  let old := s.reg .CH_CMP (chIx n c)
  let s1 := s.setReg .CH_CMP (chIx n c) w
  let s2 := if (old ^^^ w) &&& 0x81F#32 ≠ 0#32 then endGate n c 4 false s1 else s1
  if fld old 5 6 ≠ fld w 5 6 then markChanged n c s2 else s2

/-- The write changes MODE. -/
def modeChanges (s : State) (n : Cluster) (c : Channel) (d : Word) : Bool :=
  decide (s.rf .CH_CMP (chIx n c) 0 3 ≠ fld (cmpWord s n c d) 0 3)

theorem cmpWrite_eq : cmpWrite n c d 0xFFFFFFFF#32 s =
    cmpAfter n c true (cmpOn s n c true) (modeChanges s n c d)
      (cmpAfter n c false (cmpOn s n c false) (modeChanges s n c d) (cmpStored n c d s)) := rfl

theorem cmpStored_cmp : (cmpStored n c d s).reg .CH_CMP (chIx n c) = cmpWord s n c d := by
  unfold cmpStored
  dsimp only
  split <;> split <;> simp [endGate_reg (show Reg.CH_CMP ∉ gateRegs by decide)]

theorem cmpWrite_cmp : (cmpWrite n c d 0xFFFFFFFF#32 s).reg .CH_CMP (chIx n c) = cmpWord s n c d := by
  rw [cmpWrite_eq, cmpAfter_reg (by decide), cmpAfter_reg (by decide), cmpStored_cmp]

/-- A comparator that is on after the write, and was off or had another mode, has entered UNRESOLVED. -/
theorem cmpWrite_enters (hon : cmpOn (cmpWrite n c d 0xFFFFFFFF#32 s) n c low = true)
    (h : cmpOn s n c low = false ∨ modeChanges s n c d = true) :
    unres (cmpWrite n c d 0xFFFFFFFF#32 s) n c low = true ∧ cmpOut (cmpWrite n c d 0xFFFFFFFF#32 s) n c low = false := by
  rw [cmpWrite_eq] at hon ⊢
  rw [cmpOn_congr (cmpAfter_reg (by decide))] at hon
  cases low with
  | true => exact cmpAfter_enters hon h
  | false =>
    rw [cmpOn_congr (cmpAfter_reg (by decide))] at hon
    obtain ⟨hu, ho⟩ := cmpAfter_enters hon h
    obtain ⟨hu', ho'⟩ := cmpAfter_other (s := cmpAfter n c false (cmpOn s n c false) (modeChanges s n c d) (cmpStored n c d s))
      (n := n) (c := c) (low := true) (was := cmpOn s n c true) (mc := modeChanges s n c d) (l := false) (by decide)
    exact ⟨hu'.trans hu, ho'.trans ho⟩

theorem execCmpConfigWrite_accepted {t : Nat} {r : Req} (h : Accepted r .CH_CMP (chIx n c) d (s.at t)) :
    execCmpConfigWrite t r n c d s = .next (ungate n.val (cmpWrite n c d 0xFFFFFFFF#32 (s.at t))) :=
  congrArg Host.Outcome.next (cmdWrite_chan_plain (by decide) h)

theorem cmpConfigWrite_holds {t : Nat} {r : Req} (hacc : Accepted r .CH_CMP (chIx n c) d (s.at t)) (low : Bool) :
    ∃ s', exec (.cmpConfigWrite t r n c d) s = .next s' ∧
      s'.rf .CH_CMP (chIx n c) 0 3 = (if 5 ≤ fld d 0 3 then 0 else fld d 0 3) ∧
      s'.rf .CH_CMP (chIx n c) 5 6 = min 50 (fld d 5 6) ∧ s'.rb .CH_CMP (chIx n c) 3 = bitOf d 3 ∧
      s'.rb .CH_CMP (chIx n c) 4 = bitOf d 4 ∧ s'.rb .CH_CMP (chIx n c) 11 = bitOf d 11 ∧
      (cmpOn s' n c low = true →
        (cmpOn s n c low = false ∨ s'.rf .CH_CMP (chIx n c) 0 3 ≠ s.rf .CH_CMP (chIx n c) 0 3) →
        unres s' n c low = true ∧ cmpOut s' n c low = false) ∧
      Frame [.clasp, .chans, .trigs, .free] (.CH_CMP :: .CH_CMP_STAT :: .PWR_CLU_GATE :: gateRegs) (atChannel n c) s s' := by
  have hupd := cmdWrite_frame (n := n) (cmpWrite_upd (C := atChannel n c) (d := d) (m := 0xFFFFFFFF#32)
    (Upd.refl (s := s.at t)) (Nat.or_self _) (Nat.or_self _) ⟨rfl, rfl⟩)
  have hword : (ungate n.val (cmpWrite n c d 0xFFFFFFFF#32 (s.at t))).reg .CH_CMP (chIx n c) = cmpWord (s.at t) n c d :=
    (ungate_reg (by decide)).trans cmpWrite_cmp
  refine ⟨_, execCmpConfigWrite_accepted hacc, ?_, ?_, ?_, ?_, ?_, ?_, hupd.frame (by decide +kernel) (by decide +kernel)⟩
  · rw [State.rf, hword, cmpWord_mode]
  · rw [State.rf, hword, cmpWord_hyst]
  · rw [State.rb, hword, cmpWord_bit (by decide)]
  · rw [State.rb, hword, cmpWord_bit (by decide)]
  · rw [State.rb, hword, cmpWord_bit (by decide)]
  · intro hon h
    rw [cmpOn_congr (ungate_reg (by decide))] at hon
    rw [unres_congr (ungate_reg (by decide)), cmpOut_congr (ungate_reg (by decide))]
    refine cmpWrite_enters hon (h.imp (fun h => (cmpOn_congr (State.reg_at ..)).trans h) fun h => ?_)
    rw [State.rf, hword] at h
    rw [modeChanges, State.rf_at]
    exact decide_eq_true (Ne.symm h)

end Sys2Proof.Machine
end

section
/-! ### A comparator resolves, and its edges are delivered (R61 to R65, R70, R72) -/

namespace Sys2Proof.Machine

variable {K R : Nat} {C : Nat → Nat → Prop} {s : State} {n : Cluster} {c : Channel} {low v : Bool}

/-! The delivered state. -/

@[simp] theorem setDeliv_reg (r : Reg) (i : Nat) : (setDeliv n c low v s).reg r i = s.reg r i := rfl
@[simp] theorem setDeliv_trig : (setDeliv n c low v s).trig n = s.trig n := rfl
theorem deliv_setDeliv (l : Bool) : deliv (setDeliv n c low v s) n c l = if l = low then v else deliv s n c l := by
  cases low <;> cases l <;> simp [deliv, setDeliv]
theorem deliv_congr {a b : State} (h : b.chan n c = a.chan n c) : deliv b n c low = deliv a n c low := by
  unfold deliv; rw [h]

/-! The output. -/

@[simp] theorem setOut_trig : (setOut n c low v s).trig n = s.trig n := rfl
theorem setOut_reg {r : Reg} {i : Nat} (h : r ≠ .CH_CMP_STAT) : (setOut n c low v s).reg r i = s.reg r i := by
  simp [setOut, State.reg_setRb, h]
theorem cmpOut_setOut : cmpOut (setOut n c low v s) n c low = v := State.rb_setRb_same _ _ _ _ _ (by split <;> decide)

/-- The comparator shows v and is resolved. -/
def resolveOut (n : Cluster) (c : Channel) (low v : Bool) (s : State) : State :=
  (setOut n c low v s).setRb .CH_CMP_STAT (chIx n c) (if low then 3 else 2) false

/-- Only the comparator's own two bits of CH_CMP_STAT change. -/
theorem resolveOut_stat (l : Bool) : unres (resolveOut n c low v s) n c l = (!decide (l = low) && unres s n c l) ∧
    cmpOut (resolveOut n c low v s) n c l = if l = low then v else cmpOut s n c l := by
  cases low <;> cases l <;> simp [resolveOut, setOut, unres, cmpOut, State.rb, State.reg_setRb]

/-- What COMPARATOR_RESOLVE leaves: the level is delivered unless the channel is muted. -/
def resolved (n : Cluster) (c : Channel) (low v : Bool) (s : State) : State :=
  if muted s n c then resolveOut n c low v s
  else (setDeliv n c low v (resolveOut n c low v s)).trigEvent n (.level c.val low v s.clasp)

theorem resolved_reg (r : Reg) (i : Nat) : (resolved n c low v s).reg r i = (resolveOut n c low v s).reg r i := by
  unfold resolved; split <;> rfl

theorem muted_at (t : Nat) : muted (s.at t) n c = muted s n c := by
  unfold muted; rw [State.rb_at, State.chan_at]

theorem execComparatorResolve_due {t : Nat} (hu : unres s n c low = true) (hon : cmpOn s n c low = true)
    (hdue : (if low then (s.chan n c).unresL else (s.chan n c).unresH) + allowance (s.rf .CH_CMP (chIx n c) 0 3) ≤
      (s.at t).clasp) :
    execComparatorResolve t n c low v s = .next (resolved n c low v (s.at t)) := by
  rw [← unres_congr (State.reg_at ..)] at hu
  rw [← cmpOn_congr (State.reg_at ..)] at hon
  unfold execComparatorResolve
  simp only [State.chan_at, State.rf_at]
  rw [if_pos ⟨hu, hon, hdue⟩]
  rfl

theorem comparatorResolve_holds {t : Nat} (hu : unres s n c low = true) (hon : cmpOn s n c low = true)
    (hdue : (if low then (s.chan n c).unresL else (s.chan n c).unresH) + allowance (s.rf .CH_CMP (chIx n c) 0 3) ≤
      (s.at t).clasp) (v : Bool) :
    ∃ s', exec (.comparatorResolve t n c low v) s = .next s' ∧ unres s' n c low = false ∧ cmpOut s' n c low = v ∧
      unres s' n c (!low) = unres s n c (!low) ∧ cmpOut s' n c (!low) = cmpOut s n c (!low) ∧
      Frame [.clasp, .chans, .trigs] [.CH_CMP_STAT] (atChannel n c) s s' := by
  have hupd := execComparatorResolve_upd (t := t) (low := low) (above := v) (C := atChannel n c) (Upd.refl (s := s))
    (Nat.or_self _) (Nat.or_self _) ⟨rfl, rfl⟩
  rw [execComparatorResolve_due hu hon hdue] at hupd
  have hstat := resolveOut_stat (s := s.at t) (n := n) (c := c) (low := low) (v := v)
  obtain ⟨hu', ho'⟩ := hstat low
  obtain ⟨hu'', ho''⟩ := hstat (!low)
  refine ⟨_, execComparatorResolve_due hu hon hdue, ?_, ?_, ?_, ?_, hupd.frame (by decide +kernel) (by decide +kernel)⟩
  · rw [unres_congr (resolved_reg ..), hu']; simp
  · rw [cmpOut_congr (resolved_reg ..), ho', if_pos rfl]
  · rw [unres_congr (resolved_reg ..), hu'', unres_congr (State.reg_at ..)]; simp
  · rw [cmpOut_congr (resolved_reg ..), ho'', cmpOut_congr (State.reg_at ..)]; simp

/-! Delivery (R72). -/

theorem endGate_deliv {cause : Nat} {stop : Bool} : deliv (endGate n c cause stop s) n c low = deliv s n c low := by
  obtain ⟨g, h, hchan, -⟩ := endGate_chan (s := s) (n := n) (c := c) cause stop
  unfold deliv; rw [hchan]

@[simp] theorem offerStamp_chan (r : StampRec) : (offerStamp n r s).chan n c = s.chan n c := by
  unfold offerStamp; split <;> rfl

/-- The stamp unit leaves the delivered states as they are. -/
theorem stampEdge_deliv {falling : Bool} {ball : Nat} : deliv (stampEdge n c falling ball s) n c low = deliv s n c low := by
  unfold stampEdge
  extract_lets ix en ch S lastS cnt dead stamped last' s1 s2 s3
  have h1 : deliv s1 n c low = deliv s n c low := by
    unfold deliv s1
    rw [State.chan_modChan]
    by_cases hf : falling = true
    · rw [if_pos hf]
    · rw [if_neg hf]
  have h2 : deliv s2 n c low = deliv s n c low := by
    rw [← h1]; unfold s2; split <;> rfl
  have h3 : deliv s3 n c low = deliv s n c low := by
    rw [← h2]
    unfold s3
    by_cases hq : (stamped && s.rb .CH_TS_CTRL ix (if falling = true then 3 else 2)) = true
    · rw [if_pos hq]; exact deliv_congr (offerStamp_chan _)
    · rw [if_neg hq]
  have hgate : ∀ g, deliv (s3.modChan n c fun x => { x with gate := g }) n c low = deliv s3 n c low := fun g => by
    unfold deliv; rw [State.chan_modChan]
  split
  · rfl
  · split
    · exact h3
    · split
      · dsimp only
        split
        · rw [endGate_deliv, hgate, h3]
        · rw [hgate, h3]
      · split
        · rw [hgate, h3]
        · exact h3

/-- What the stamp unit may change, of the registers: its dead-time and loss counts and what ends a gate. -/
theorem stampEdge_reg {falling : Bool} {ball : Nat} {r : Reg} {i : Nat}
    (h : r ∉ .CH_TS_DEAD_RISE :: .CH_TS_DEAD_FALL :: .CL_TS_LOST :: gateRegs) :
    (stampEdge n c falling ball s).reg r i = s.reg r i :=
  ((stampEdge_upd (C := fun _ _ => True) (Upd.refl (s := s)) (Nat.or_self _) (Nat.or_self _) trivial).frame
    (KL := [.chans, .stamps, .free]) (by decide +kernel) (by decide +kernel)).1.regs r i h

@[simp] theorem stampEdge_trig {falling : Bool} {ball : Nat} : (stampEdge n c falling ball s).trig n = s.trig n :=
  (stampEdge_upd (C := fun _ _ => True) (Upd.refl (s := s)) (Nat.or_self _) (Nat.or_self _) trivial).trig_eq (by decide)

/-! The wake logic (R73). -/

@[simp] theorem State.reg_wake (code : Nat) (r : Reg) (i : Nat) : (s.wake code).reg r i = s.reg r i := rfl
@[simp] theorem wakeEdge_trig {up : Bool} : (wakeEdge n c low up s).trig n = s.trig n := by
  unfold wakeEdge; dsimp only; split <;> rfl
@[simp] theorem wakeEdge_chan {up : Bool} : (wakeEdge n c low up s).chan n c = s.chan n c := by
  unfold wakeEdge; dsimp only; split <;> rfl
theorem wakeEdge_reg {up : Bool} {r : Reg} {i : Nat} (h : r ≠ .CH_EVT) : (wakeEdge n c low up s).reg r i = s.reg r i := by
  unfold wakeEdge; dsimp only; split
  · simp [State.reg_setRb, h]
  · rfl
theorem wakeEdge_evt {up : Bool} {b : Nat} (h : b ≠ 2) :
    (wakeEdge n c low up s).rb .CH_EVT (chIx n c) b = s.rb .CH_EVT (chIx n c) b := by
  unfold wakeEdge; dsimp only; split
  · simp [State.rb, State.reg_setRb, h]
  · rfl
theorem wakeEdge_wakes {up : Bool} (h0 : s.rb .CH_WAKE (chIx n c) 0 = true) (h1 : s.rb .CH_WAKE (chIx n c) 1 = low)
    (h2 : s.rb .CH_WAKE (chIx n c) 2 = up) : (wakeEdge n c low up s).rb .CH_EVT (chIx n c) 2 = true := by
  unfold State.rb at h0 h1 h2
  unfold wakeEdge
  dsimp only
  rw [if_pos (by simp [h0, h1, h2])]
  simp [State.rb, State.reg_setRb]

/-! The edge. -/

/-- The stamp unit of the selected comparator has met the edge. -/
def stampedEdge (n : Cluster) (c : Channel) (low up : Bool) (ball : Nat) (s : State) : State :=
  if s.rb .CH_CMP (chIx n c) 11 = low then stampEdge n c (!up) ball s else s

theorem stampedEdge_reg {up : Bool} {ball : Nat} {r : Reg} {i : Nat}
    (h : r ∉ .CH_TS_DEAD_RISE :: .CH_TS_DEAD_FALL :: .CL_TS_LOST :: gateRegs) :
    (stampedEdge n c low up ball s).reg r i = s.reg r i := by
  unfold stampedEdge; split
  · exact stampEdge_reg h
  · rfl
theorem stampedEdge_trig {up : Bool} {ball : Nat} : (stampedEdge n c low up ball s).trig n = s.trig n := by
  unfold stampedEdge; split
  · exact stampEdge_trig
  · rfl
theorem stampedEdge_deliv {up l : Bool} {ball : Nat} : deliv (stampedEdge n c low up ball s) n c l = deliv s n c l := by
  unfold stampedEdge; split
  · exact stampEdge_deliv
  · rfl

/-- The time that the trigger units are told: the ball time less the fixture delay, in ticks (R72, R228). -/
def edgeTick (s : State) (n : Cluster) (c : Channel) (ball : Nat) : Nat :=
  (ball - (s.reg .FIX_TAB (chIx n c)).toNat % 16384) / 512

theorem deliverEdge_eq {up : Bool} {ball : Nat} : deliverEdge n c low up ball s = wakeEdge n c low up
    (((stampedEdge n c low up ball (setDeliv n c low up s)).trigEvent n (.edge c.val low up (edgeTick s n c ball))).setRb
      .CH_EVT (chIx n c) (if low then 1 else 0) true) := rfl

theorem deliverEdge_reg {up : Bool} {ball : Nat} {r : Reg} {i : Nat}
    (h : r ∉ .CH_EVT :: .CH_TS_DEAD_RISE :: .CH_TS_DEAD_FALL :: .CL_TS_LOST :: gateRegs) :
    (deliverEdge n c low up ball s).reg r i = s.reg r i := by
  rw [List.mem_cons, not_or] at h
  rw [deliverEdge_eq, wakeEdge_reg h.1, State.reg_setRb, if_neg (fun x => h.1 x.1), State.reg_trigEvent,
    stampedEdge_reg h.2, setDeliv_reg]

theorem deliverEdge_deliv {up : Bool} {ball : Nat} : deliv (deliverEdge n c low up ball s) n c low = up := by
  rw [deliverEdge_eq, deliv_congr wakeEdge_chan, deliv_congr (State.chan_setRb ..), deliv_congr (State.chan_trigEvent ..),
    stampedEdge_deliv, deliv_setDeliv, if_pos rfl]

theorem deliverEdge_evt {up : Bool} {ball : Nat} :
    (deliverEdge n c low up ball s).rb .CH_EVT (chIx n c) (if low then 1 else 0) = true := by
  rw [deliverEdge_eq, wakeEdge_evt (by split <;> decide)]
  exact State.rb_setRb_same _ _ _ _ _ (by split <;> decide)

theorem deliverEdge_evts {up : Bool} {ball : Nat} : ((deliverEdge n c low up ball s).trig n).evts =
    (s.trig n).evts ++ [.edge c.val low up (edgeTick s n c ball)] := by
  rw [deliverEdge_eq, wakeEdge_trig, State.trig_setRb, State.trig_trigEvent, stampedEdge_trig, setDeliv_trig]

theorem deliverEdge_wakes {up : Bool} {ball : Nat} (h0 : s.rb .CH_WAKE (chIx n c) 0 = true)
    (h1 : s.rb .CH_WAKE (chIx n c) 1 = low) (h2 : s.rb .CH_WAKE (chIx n c) 2 = up) :
    (deliverEdge n c low up ball s).rb .CH_EVT (chIx n c) 2 = true := by
  have hw : (((stampedEdge n c low up ball (setDeliv n c low up s)).trigEvent n
      (.edge c.val low up (edgeTick s n c ball))).setRb .CH_EVT (chIx n c) (if low then 1 else 0) true).reg .CH_WAKE
      (chIx n c) = s.reg .CH_WAKE (chIx n c) := by
    rw [State.reg_setRb, if_neg (by simp), State.reg_trigEvent, stampedEdge_reg (by decide), setDeliv_reg]
  unfold State.rb at h0 h1 h2
  rw [deliverEdge_eq]
  exact wakeEdge_wakes (by rw [State.rb, hw, h0]) (by rw [State.rb, hw, h1]) (by rw [State.rb, hw, h2])

theorem execComparatorEdge_changes {t ball : Nat} (hon : cmpOn s n c low = true) (hu : unres s n c low = false)
    (hne : cmpOut s n c low ≠ v) (hball : ball / 512 ≤ (s.at t).clasp) :
    execComparatorEdge t n c low v ball s = .next (if muted s n c then setOut n c low v (s.at t)
      else deliverEdge n c low v ball (setOut n c low v (s.at t))) := by
  rw [← cmpOn_congr (State.reg_at s t ..)] at hon
  rw [← unres_congr (State.reg_at s t ..)] at hu
  rw [← cmpOut_congr (State.reg_at s t ..)] at hne
  rw [← muted_at t]
  unfold execComparatorEdge
  dsimp only
  rw [if_pos ⟨hon, by rw [hu]; rfl, hne, hball⟩]

theorem comparatorEdge_holds {t ball : Nat} (hon : cmpOn s n c low = true) (hu : unres s n c low = false)
    (hne : cmpOut s n c low ≠ v) (hball : ball / 512 ≤ (s.at t).clasp) :
    ∃ s', exec (.comparatorEdge t n c low v ball) s = .next s' ∧ cmpOut s' n c low = v ∧
      (muted s n c = true → Frame [.clasp] [.CH_CMP_STAT] (atChannel n c) s s') ∧
      (muted s n c = false → deliv s' n c low = v ∧ s'.rb .CH_EVT (chIx n c) (if low then 1 else 0) = true ∧
        (s'.trig n).evts = (s.trig n).evts ++
          [.edge c.val low v ((ball - (s.reg .FIX_TAB (chIx n c)).toNat % 16384) / 512)] ∧
        (s.rb .CH_WAKE (chIx n c) 0 = true → s.rb .CH_WAKE (chIx n c) 1 = low → s.rb .CH_WAKE (chIx n c) 2 = v →
          s'.rb .CH_EVT (chIx n c) 2 = true)) ∧
      Frame [.clasp, .chans, .stamps, .trigs, .wakes, .free]
        (.CH_CMP_STAT :: .CH_EVT :: .CH_TS_DEAD_RISE :: .CH_TS_DEAD_FALL :: .CL_TS_LOST :: gateRegs) (atChannel n c) s s' := by
  have hupd := execComparatorEdge_upd (t := t) (low := low) (out := v) (ball := ball) (C := atChannel n c)
    (Upd.refl (s := s)) (Nat.or_self _) (Nat.or_self _) ⟨rfl, rfl⟩
  rw [execComparatorEdge_changes hon hu hne hball] at hupd
  have hquiet := setOut_upd (low := low) (v := v) (C := atChannel n c) (n := n) (c := c)
    (State.at_upd (t := t) (Upd.refl (s := s)) (Nat.or_self _)) (Nat.or_self _) ⟨rfl, rfl⟩
  refine ⟨_, execComparatorEdge_changes hon hu hne hball, ?_, fun hm => ?_, fun hm => ?_,
    hupd.frame (by decide +kernel) (by decide +kernel)⟩
  · split
    · exact cmpOut_setOut
    · rw [cmpOut_congr (deliverEdge_reg (by decide)), cmpOut_setOut]
  · rw [if_pos hm]
    exact hquiet.frame (by decide +kernel) (by decide +kernel)
  · rw [if_neg (by simp [hm])]
    have hwake : ∀ b, (setOut n c low v (s.at t)).rb .CH_WAKE (chIx n c) b = s.rb .CH_WAKE (chIx n c) b := fun b => by
      rw [State.rb, setOut_reg (by decide), State.reg_at, State.rb]
    refine ⟨deliverEdge_deliv, deliverEdge_evt, ?_, fun h0 h1 h2 =>
      deliverEdge_wakes ((hwake 0).trans h0) ((hwake 1).trans h1) ((hwake 2).trans h2)⟩
    rw [deliverEdge_evts, setOut_trig, State.trig_at, edgeTick, setOut_reg (by decide), State.reg_at]

/-- Settles O9, clause by clause. -/
theorem levelsAndComparatorsSettle : Obligations.LevelsAndComparatorsSettle := by
  unfold Obligations.LevelsAndComparatorsSettle
  exact ⟨fun _ _ _ _ _ _ hacc hd => levelSetSelect_holds hacc hd, fun t _ _ _ _ => lvlSettled_holds t,
    fun _ _ _ _ _ low _ hacc => cmpConfigWrite_holds hacc low,
    fun _ _ _ _ v _ hu hon hdue => comparatorResolve_holds hu hon hdue v,
    fun _ _ _ _ _ _ _ hon hu hne hball => comparatorEdge_holds hon hu hne hball⟩

end Sys2Proof.Machine
end

section
/-! ### The end of a blanking window (R66) -/

namespace Sys2Proof.Machine

variable {s : State} {n : Cluster} {c : Channel} {low : Bool}

/-- The BLANK_CHG bit of a comparator is set where its delivered state differed from its output; no other bit changes. -/
theorem unblank_stat {b : Nat} : (unblank n c low s).rb .CH_CMP_STAT (chIx n c) b =
    (s.rb .CH_CMP_STAT (chIx n c) b || (decide (b = if low then 6 else 5) && (deliv s n c low != cmpOut s n c low))) := by
  have hbit : (if low then 6 else 5) < 32 := by split <;> decide
  unfold unblank
  dsimp only
  by_cases h : deliv s n c low = cmpOut s n c low
  · rw [if_neg (not_not.2 h)]; simp [h]
  · rw [if_pos h]
    simp only [State.rb, State.reg_trigEvent, State.reg_setRb, setDeliv_reg, and_self, if_true, bitOf_putBit _ _ _ _ hbit]
    by_cases hb : b = if low then 6 else 5 <;> simp [hb, h]

theorem unblank_cmpOut (l : Bool) : cmpOut (unblank n c low s) n c l = cmpOut s n c l := by
  unfold cmpOut
  rw [unblank_stat]
  cases low <;> cases l <;> simp

theorem unblank_deliv (l : Bool) :
    deliv (unblank n c low s) n c l = if l = low then cmpOut s n c low else deliv s n c l := by
  unfold unblank
  dsimp only
  by_cases h : deliv s n c low = cmpOut s n c low
  · rw [if_neg (not_not.2 h)]
    by_cases hl : l = low <;> simp [hl, h]
  · rw [if_pos h, deliv_congr (State.chan_trigEvent ..), deliv_congr (State.chan_setRb ..), deliv_setDeliv]

/-- The trigger units are told a level, and nothing else of theirs changes. -/
theorem unblank_trig : (unblank n c low s).trig n = s.trig n ∨ (unblank n c low s).trig n =
    { s.trig n with evts := (s.trig n).evts ++ [.level c.val low (cmpOut s n c low) s.clasp] } := by
  unfold unblank
  dsimp only
  split
  · exact .inr (by rw [State.trig_trigEvent, State.trig_setRb, setDeliv_trig])
  · exact .inl rfl

theorem unblank_units : ((unblank n c low s).trig n).units = (s.trig n).units := by
  rcases unblank_trig (s := s) (n := n) (c := c) (low := low) with h | h <;> rw [h]
theorem unblank_queue : ((unblank n c low s).trig n).queue = (s.trig n).queue := by
  rcases unblank_trig (s := s) (n := n) (c := c) (low := low) with h | h <;> rw [h]
theorem mem_unblank_evts {x : TrigEvt} (hx : x ∈ ((unblank n c low s).trig n).evts) :
    x ∈ (s.trig n).evts ∨ x = .level c.val low (cmpOut s n c low) s.clasp := by
  rcases unblank_trig (s := s) (n := n) (c := c) (low := low) with h | h
  · rw [h] at hx; exact .inl hx
  · rw [h] at hx; simpa using hx

theorem unblank_blankEnd : ((unblank n c low s).chan n c).blankEnd = (s.chan n c).blankEnd := by
  unfold unblank setDeliv
  dsimp only
  split
  · rw [State.chan_trigEvent, State.chan_setRb, State.chan_modChan]; split <;> rfl
  · rfl

theorem unblank_clasp : (unblank n c low s).clasp = s.clasp := by
  unfold unblank; dsimp only; split <;> rfl

/-- The window is over; the delivered states have not followed yet. -/
def blankOver (n : Cluster) (c : Channel) (s : State) : State :=
  (s.setRb .CH_CMP_STAT (chIx n c) 4 false).modChan n c fun x => { x with blankEnd := none }

theorem blankOver_stat {b : Nat} (h : b ≠ 4) :
    (blankOver n c s).rb .CH_CMP_STAT (chIx n c) b = s.rb .CH_CMP_STAT (chIx n c) b := by
  simp [blankOver, State.rb, State.reg_setRb, h]
theorem blankOver_open : (blankOver n c s).rb .CH_CMP_STAT (chIx n c) 4 = false := by
  simp [blankOver, State.rb, State.reg_setRb]
theorem blankOver_cmpOut : cmpOut (blankOver n c s) n c low = cmpOut s n c low := blankOver_stat (by split <;> decide)
theorem blankOver_deliv : deliv (blankOver n c s) n c low = deliv s n c low := by
  unfold deliv blankOver; rw [State.chan_modChan]; rfl

theorem blankOver_clasp : (blankOver n c s).clasp = s.clasp := rfl
theorem blankOver_trig : (blankOver n c s).trig n = s.trig n := rfl

theorem execBlankWindowEnd_due {t e : Nat} (he : (s.chan n c).blankEnd = some e) (hdue : e ≤ (s.at t).clasp) :
    execBlankWindowEnd t n c s = .next (unblank n c true (unblank n c false (blankOver n c (s.at t)))) := by
  unfold execBlankWindowEnd
  simp only [State.chan_at, he, if_pos hdue]
  rfl

/-- Settles O10: the window's end is `blankOver`, then `unblank` of either comparator. -/
theorem blankEndDeliversWithoutEdge : Obligations.BlankEndDeliversWithoutEdge := by
  unfold Obligations.BlankEndDeliversWithoutEdge
  intro t n c e s he hdue
  have hupd := execBlankWindowEnd_upd (t := t) (C := atChannel n c) (Upd.refl (s := s)) (Nat.or_self _) (Nat.or_self _)
    ⟨rfl, rfl⟩
  rw [execBlankWindowEnd_due he hdue] at hupd
  have hout : ∀ l, cmpOut (blankOver n c (s.at t)) n c l = cmpOut s n c l := fun l =>
    blankOver_cmpOut.trans (cmpOut_congr (State.reg_at ..))
  have hdel : ∀ l, deliv (blankOver n c (s.at t)) n c l = deliv s n c l := fun l =>
    blankOver_deliv.trans (deliv_congr (State.chan_at ..))
  refine ⟨_, execBlankWindowEnd_due he hdue, ?_, ?_, ?_, ?_, ?_, ?_, ?_, ?_, ?_,
    hupd.frame (by decide +kernel) (by decide +kernel)⟩
  · rw [unblank_blankEnd, unblank_blankEnd, blankOver, State.chan_modChan]
  · rw [unblank_stat, unblank_stat, blankOver_open]; rfl
  · simp [unblank_deliv, hout]
  · simp [unblank_deliv, unblank_cmpOut, hout]
  · rw [unblank_stat, unblank_stat, blankOver_stat (by decide), State.rb_at, hdel, hout]; simp
  · rw [unblank_stat, unblank_stat, blankOver_stat (by decide), State.rb_at, unblank_deliv, unblank_cmpOut, hout]
    simp [hdel, hout]
  · rw [unblank_units, unblank_units, blankOver_trig, State.trig_at]
  · rw [unblank_queue, unblank_queue, blankOver_trig, State.trig_at]
  · intro x hx
    rcases mem_unblank_evts hx with hx | hx
    · rcases mem_unblank_evts hx with hx | hx
      · rw [blankOver_trig, State.trig_at] at hx; exact .inl hx
      · rw [hout, blankOver_clasp] at hx; exact .inr (.inl hx)
    · rw [unblank_cmpOut, hout, unblank_clasp, blankOver_clasp] at hx; exact .inr (.inr hx)

end Sys2Proof.Machine
end

section
/-! ### Blanking windows and the blanking timer (R64, R67) -/

namespace Sys2Proof.Machine

variable {s : State} {n : Cluster} {c : Channel} {d : Word}

variable {K R : Nat} {C : Nat → Nat → Prop} {s' : State} in
theorem Upd.blankAt_eq (h : Upd K R C s s') (hk : K.testBit (Part.ctorIdx .blankAt) = false) : s'.blankAt = s.blankAt :=
  h.parts .blankAt hk

/-! A window opens. -/

/-- The length that CH_BLANK gives a window. -/
def blankLen (s : State) (n : Cluster) (c : Channel) : Nat := s.rf .CH_BLANK (chIx n c) 0 16

theorem openBlank_of_zero (h : blankLen s n c = 0) : openBlank n c s = s := by
  unfold blankLen at h
  unfold openBlank
  dsimp only
  rw [if_pos h]

theorem openBlank_stat (h : blankLen s n c ≠ 0) : (openBlank n c s).rb .CH_CMP_STAT (chIx n c) 4 = true := by
  unfold blankLen at *
  unfold openBlank modGate
  dsimp only
  rw [if_neg h]
  split <;> simp [State.rb, State.reg_setRb]

/-- The window ends LEN ticks from now; beside that only an open gate's mark may change. -/
theorem openBlank_chan (h : blankLen s n c ≠ 0) :
    ∃ g, (openBlank n c s).chan n c = { s.chan n c with blankEnd := some (s.clasp + blankLen s n c), gate := g } := by
  unfold blankLen at *
  unfold openBlank modGate
  dsimp only
  rw [if_neg h]
  split
  · exact ⟨(s.chan n c).gate.map fun g => { g with blanked := true }, by rw [State.chan_modChan, State.chan_modChan]; rfl⟩
  · exact ⟨(s.chan n c).gate, by rw [State.chan_modChan]; rfl⟩

@[simp] theorem openBlank_seq : (openBlank n c s).seq n = s.seq n :=
  (openBlank_upd (C := fun _ _ => True) (Upd.refl (s := s)) (Nat.or_self _) (Nat.or_self _) trivial).seq_eq (by decide)

/-- Opening a window leaves the driver as it is. -/
theorem openBlank_driver : ((openBlank n c s).chan n c).lvl = (s.chan n c).lvl ∧
    ((openBlank n c s).chan n c).drvOn = (s.chan n c).drvOn := by
  by_cases h : blankLen s n c = 0
  · rw [openBlank_of_zero h]; exact ⟨rfl, rfl⟩
  · obtain ⟨g, hchan⟩ := openBlank_chan h
    rw [hchan]; exact ⟨rfl, rfl⟩

theorem blankLen_congr {a b : State} (h : b.reg .CH_BLANK (chIx n c) = a.reg .CH_BLANK (chIx n c)) :
    blankLen b n c = blankLen a n c := by unfold blankLen State.rf; rw [h]
theorem blankSrc_congr {a b : State} (h : b.reg .CH_BLANK (chIx n c) = a.reg .CH_BLANK (chIx n c)) :
    blankSrc b n c = blankSrc a n c := by unfold blankSrc State.rf; rw [h]

/-! The timer starts. -/

theorem execBlankTimerStart_accepted {t : Nat} {r : Req} (h : Accepted r .CL_BLANK_TMR n.val (d ||| 0x1000000#32) (s.at t)) :
    execBlankTimerStart t r n d s = .next (ungate n.val (blankTmrWrite n (d ||| 0x1000000#32) 0xFFFFFFFF#32 (s.at t))) := by
  have hsize : n.val < Reg.CL_BLANK_TMR.size := n.isLt
  obtain ⟨s', hput, hwrite⟩ := cmdWrite_cluster (by decide) rfl hsize (Nat.div_one _) h
  cases hput
  exact congrArg Host.Outcome.next hwrite

/-- Bits outside a field do not reach it. -/
theorem fld_or_apart (d e : Word) (lo len : Nat) (h : e &&& maskAt lo len = 0#32) : fld (d ||| e) lo len = fld d lo len := by
  apply Nat.eq_of_testBit_eq
  intro k
  rw [fld_testBit, fld_testBit, BitVec.getLsbD_or]
  by_cases hk : k < len
  · have he := congrArg (BitVec.getLsbD · (lo + k)) h
    simp only [BitVec.getLsbD_and, maskAt_getLsbD, BitVec.getLsbD_zero] at he
    by_cases h32 : lo + k < 32
    · simp_all
    · rw [BitVec.getLsbD_of_ge e _ (by omega), Bool.or_false]
  · simp [hk]

theorem rwOf_blankTmr (i : Nat) : Reg.rwOf .CL_BLANK_TMR i = 0x1FFFFFF#32 := rfl

theorem blankTmrWrite_reg (r : Reg) (i : Nat) (m : Word) :
    (blankTmrWrite n d m s).reg r i = (plainWrite .CL_BLANK_TMR n d m s).reg r i := by
  unfold blankTmrWrite; dsimp only; split <;> rfl

/-- A write with EN starts the timer with T0 now. -/
theorem blankTmrWrite_blankAt (h : bitOf d 24 = true) :
    tabGet (0, 0) (blankTmrWrite n d 0xFFFFFFFF#32 s).blankAt n.val = (s.clasp, s.clasp) := by
  unfold blankTmrWrite
  dsimp only
  rw [if_pos (by rw [ones_full, h]), tabGet_tabSet_same]

theorem blankTimerStart_holds {t : Nat} {r : Req} (hacc : Accepted r .CL_BLANK_TMR n.val (d ||| 0x1000000#32) (s.at t)) :
    ∃ s', exec (.blankTimerStart t r n d) s = .next s' ∧ s'.rb .CL_BLANK_TMR n.val 24 = true ∧
      s'.rf .CL_BLANK_TMR n.val 0 24 = fld d 0 24 ∧ tabGet (0, 0) s'.blankAt n.val = ((s.at t).clasp, (s.at t).clasp) ∧
      Frame [.clasp, .blankAt] [.CL_BLANK_TMR, .PWR_CLU_GATE] (atCluster n) s s' := by
  have hupd := cmdWrite_frame (n := n) (blankTmrWrite_upd (C := atCluster n) (d := d ||| 0x1000000#32) (m := 0xFFFFFFFF#32)
    (Upd.refl (s := s.at t)) (Nat.or_self _) (Nat.or_self _) ⟨0, rfl⟩)
  have hen : bitOf (d ||| 0x1000000#32) 24 = true := by rw [bitOf_or]; simp [bitOf]
  have hword : (ungate n.val (blankTmrWrite n (d ||| 0x1000000#32) 0xFFFFFFFF#32 (s.at t))).reg .CL_BLANK_TMR n.val =
      plainWord (s.at t) .CL_BLANK_TMR n (d ||| 0x1000000#32) 0xFFFFFFFF#32 := by
    rw [ungate_reg (by decide), blankTmrWrite_reg, plainWrite_reg, if_pos ⟨rfl, rfl⟩]
  refine ⟨_, execBlankTimerStart_accepted hacc, ?_, ?_, ?_, hupd.frame (by decide +kernel) (by decide +kernel)⟩
  · rw [State.rb, hword, bitOf_plainWord _ _ _ _ _ (by decide), rwOf_blankTmr, hen]
    simp [bitOf, Reg.row]
  · rw [State.rf, hword, fld_plainWord _ _ _ _ _ _ (by decide) (by rw [rwOf_blankTmr]; decide) (by decide),
      fld_or_apart _ _ _ _ (by decide)]
  · rw [ungate_blankAt, blankTmrWrite_blankAt hen]

/-! The timer expires. -/

/-- A channel that selects the timer opens its window. -/
def timerOpens (n : Cluster) (c : Channel) (s : State) : State := if blankSrc s n c = 5 then openBlank n c s else s

/-- The timer notes x as the time at which it last opened windows. -/
def timerNoted (n : Cluster) (x : Nat) (s : State) : State :=
  { s with blankAt := tabSet (0, 0) s.blankAt n.val ((tabGet (0, 0) s.blankAt n.val).1, x) }

theorem timerNoted_reg (x : Nat) (r : Reg) (i : Nat) : (timerNoted n x s).reg r i = s.reg r i := rfl
theorem timerNoted_chan (x : Nat) : (timerNoted n x s).chan n c = s.chan n c := rfl
theorem timerNoted_clasp (x : Nat) : (timerNoted n x s).clasp = s.clasp := rfl

/-- The timer has expired at Clasp time x: the channels that select it open their windows. -/
def timerExpired (n : Cluster) (x : Nat) (s : State) : State := forChannels n timerOpens (timerNoted n x s)

theorem execBlankTimerExpire_due {t : Nat} {per : Nat} {b : Nat × Nat} (hper : s.rf .CL_BLANK_TMR n.val 0 24 = per)
    (hb : tabGet (0, 0) s.blankAt n.val = b) (hen : s.rb .CL_BLANK_TMR n.val 24 = true) (h0 : per ≠ 0)
    (hdue : b.1 + ((b.2 - b.1) / per + 1) * per ≤ (s.at t).clasp) :
    execBlankTimerExpire t n s = .next (timerExpired n (b.1 + ((b.2 - b.1) / per + 1) * per) (s.at t)) := by
  unfold execBlankTimerExpire timerExpired timerNoted
  simp only [State.rf_at, State.rb_at, State.blankAt_at, hper, hb]
  rw [if_pos ⟨hen, h0, hdue⟩]
  rfl

/-- What the expiry does at channel c. -/
theorem timerExpired_turn (x : Nat) (s : State) (c : Channel) : ∃ u,
    u.chan n c = s.chan n c ∧ u.clasp = s.clasp ∧ u.reg .CH_BLANK (chIx n c) = s.reg .CH_BLANK (chIx n c) ∧
    u.reg .CH_CMP_STAT (chIx n c) = s.reg .CH_CMP_STAT (chIx n c) ∧
    (timerExpired n x s).chan n c = (timerOpens n c u).chan n c ∧
    (timerExpired n x s).reg .CH_CMP_STAT (chIx n c) = (timerOpens n c u).reg .CH_CMP_STAT (chIx n c) := by
  obtain ⟨u, hbefore, hafter⟩ := forChannels_turn (n := n) (f := timerOpens)
    (fun c s => Upd.ite (openBlank_upd (C := atChannel n c) (Upd.refl (s := s)) (Nat.or_self _) (Nat.or_self _) ⟨rfl, rfl⟩)
      Upd.refl)
    (timerNoted n x s) c
  refine ⟨u, ?_, ?_, ?_, ?_, hafter.chan_of_others, hafter.reg_of_others rfl rfl⟩
  · rw [hbefore.chan_of_others, timerNoted_chan]
  · rw [hbefore.clasp_eq (by decide), timerNoted_clasp]
  · rw [hbefore.reg_of_others (r := .CH_BLANK) rfl rfl, timerNoted_reg]
  · rw [hbefore.reg_of_others (r := .CH_CMP_STAT) rfl rfl, timerNoted_reg]

theorem timerExpired_blankAt (x : Nat) : tabGet (0, 0) (timerExpired n x s).blankAt n.val =
    ((tabGet (0, 0) s.blankAt n.val).1, x) := by
  have hupd := forChannels_upd (f := timerOpens) (n := n) (C := fun _ _ => True)
    (s := timerNoted n x s)
    (fun c s h => Upd.ite (openBlank_upd h (Nat.or_self _) (Nat.or_self _) trivial) h) Upd.refl
  rw [timerExpired, hupd.blankAt_eq (by decide), timerNoted, tabGet_tabSet_same]

theorem blankTimerExpire_holds {t : Nat} {per : Nat} {b : Nat × Nat} (hper : s.rf .CL_BLANK_TMR n.val 0 24 = per)
    (hb : tabGet (0, 0) s.blankAt n.val = b) (hen : s.rb .CL_BLANK_TMR n.val 24 = true) (h0 : per ≠ 0)
    (hdue : b.1 + ((b.2 - b.1) / per + 1) * per ≤ (s.at t).clasp) :
    ∃ s', exec (.blankTimerExpire t n) s = .next s' ∧
      tabGet (0, 0) s'.blankAt n.val = (b.1, b.1 + ((b.2 - b.1) / per + 1) * per) ∧
      (blankSrc s n c = 5 → s.rf .CH_BLANK (chIx n c) 0 16 ≠ 0 → s'.rb .CH_CMP_STAT (chIx n c) 4 = true ∧
        (s'.chan n c).blankEnd = some ((s.at t).clasp + s.rf .CH_BLANK (chIx n c) 0 16)) ∧
      (blankSrc s n c ≠ 5 ∨ s.rf .CH_BLANK (chIx n c) 0 16 = 0 →
        s'.chan n c = s.chan n c ∧ s'.reg .CH_CMP_STAT (chIx n c) = s.reg .CH_CMP_STAT (chIx n c)) ∧
      Frame [.clasp, .chans, .blankAt] [.CH_CMP_STAT] (atCluster n) s s' := by
  have hupd := execBlankTimerExpire_upd (t := t) (C := atCluster n) (Upd.refl (s := s)) (Nat.or_self _) (Nat.or_self _)
    fun _ => rfl
  rw [execBlankTimerExpire_due hper hb hen h0 hdue] at hupd
  obtain ⟨u, hchan, hclasp, hblank, hstat, hchan', hstat'⟩ :=
    timerExpired_turn (n := n) (b.1 + ((b.2 - b.1) / per + 1) * per) (s.at t) c
  rw [State.reg_at] at hblank hstat
  rw [State.chan_at] at hchan
  refine ⟨_, execBlankTimerExpire_due hper hb hen h0 hdue, ?_, fun hsrc hlen => ?_, fun h => ?_,
    hupd.frame (by decide +kernel) (by decide +kernel)⟩
  · rw [timerExpired_blankAt, State.blankAt_at, hb]
  · have hopens : timerOpens n c u = openBlank n c u := if_pos ((blankSrc_congr hblank).trans hsrc)
    have hlen' : blankLen u n c ≠ 0 := by rw [blankLen_congr hblank]; exact hlen
    obtain ⟨g, hopen⟩ := openBlank_chan hlen'
    rw [State.rb, hstat', hchan', hopens, hopen, blankLen_congr hblank, hclasp]
    exact ⟨openBlank_stat hlen', rfl⟩
  · have hstays : timerOpens n c u = u := by
      rcases h with h | h
      · exact if_neg (by rwa [blankSrc_congr hblank])
      · unfold timerOpens; rw [openBlank_of_zero ((blankLen_congr hblank).trans h), ite_self]
    rw [hchan', hstat', hstays]
    exact ⟨hchan, hstat⟩

end Sys2Proof.Machine
end

section
/-! ### Comparator self-checks (R68 to R71) -/

namespace Sys2Proof.Machine

variable {s : State} {n : Cluster} {c : Channel} {d : Word} {low : Bool}

@[simp] theorem busPass_reg (r : Reg) (i : Nat) : (busPass n s).reg r i = s.reg r i :=
  (busPass_upd (R := 0) (C := fun _ _ => True) (Upd.refl (s := s)) (Nat.or_self _) fun _ => trivial).reg r i (Nat.zero_testBit _)

/-- A field within the one just set. -/
theorem fld_putFld_sub (w : Word) (lo len v lo' len' : Nat) (h : lo + len ≤ 32) (hlo : lo ≤ lo')
    (hhi : lo' + len' ≤ lo + len) :
    fld (putFld w lo len v) lo' len' = v / 2 ^ (lo' - lo) % 2 ^ len' := by
  apply Nat.eq_of_testBit_eq
  intro k
  rw [fld_testBit, Nat.testBit_mod_two_pow, Nat.testBit_div_two_pow]
  by_cases hk : k < len'
  · have hbit := bitOf_putFld w lo len v (lo' + k) (by omega)
    rw [if_pos (by omega)] at hbit
    rw [bitOf] at hbit
    rw [hbit, show lo' + k - lo = k + (lo' - lo) by omega]
  · simp [hk]

/-! A check is asked for. -/

/-- TYPE is stored and both results are cleared. -/
def selfchkCleared (n : Cluster) (c : Channel) (d : Word) (s : State) : State :=
  (plainWrite .CH_SELFCHK (chIx n c) d 0xFFFFFFFF#32 s).setRf .CH_SELFCHK (chIx n c) 4 4 0

theorem rwOf_selfchk (i : Nat) : Reg.rwOf .CH_SELFCHK i = 2#32 := rfl

/-- RUN is not written. -/
theorem plainWord_selfchk_run : bitOf (plainWord s .CH_SELFCHK (chIx n c) d 0xFFFFFFFF#32) 2 = s.rb .CH_SELFCHK (chIx n c) 2 := by
  rw [bitOf_plainWord _ _ _ _ _ (by decide), rwOf_selfchk]
  simp [bitOf, Reg.row]

/-- START's effect on the registers: the check runs where the sequencer is idle (or waits for the calibration bus), else
every comparator that is on gets REFUSED. -/
def selfchkStarted (n : Cluster) (c : Channel) (d : Word) (s : State) : State :=
  if seqIdle s n then (selfchkCleared n c d s).setRb .CH_SELFCHK (chIx n c) 2 true
  else (selfchkCleared n c d s).setRf .CH_SELFCHK (chIx n c) 4 4 (3 * b2n (cmpOn s n c false) + 12 * b2n (cmpOn s n c true))

theorem selfchkWrite_reg (h0 : bitOf d 0 = true) (hrun : s.rb .CH_SELFCHK (chIx n c) 2 = false)
    (hon : cmpOn s n c false = true ∨ cmpOn s n c true = true) (r : Reg) (i : Nat) :
    (selfchkWrite n c d 0xFFFFFFFF#32 s).reg r i = (selfchkStarted n c d s).reg r i := by
  have hrun' : (plainWrite .CH_SELFCHK (chIx n c) d 0xFFFFFFFF#32 s).rb .CH_SELFCHK (chIx n c) 2 = false := by
    rw [State.rb, plainWrite_reg, if_pos ⟨rfl, rfl⟩, plainWord_selfchk_run, hrun]
  have hany : (!cmpOn s n c false && !cmpOn s n c true) = false := by rcases hon with h | h <;> simp [h]
  unfold selfchkWrite selfchkStarted
  dsimp only
  rw [if_neg (by simp [h0, hrun']), if_neg (by simp [hany])]
  by_cases hidle : seqIdle s n = true
  · rw [if_neg (by simp [hidle]), if_pos hidle]
    split
    · rw [busPass_reg]; rfl
    · rfl
  · rw [if_pos (by simp [hidle]), if_neg hidle]
    rfl

theorem selfchkCleared_run : (selfchkCleared n c d s).rb .CH_SELFCHK (chIx n c) 2 = s.rb .CH_SELFCHK (chIx n c) 2 := by
  rw [State.rb, selfchkCleared, State.reg_setRf, if_pos ⟨rfl, rfl⟩, bitOf_putFld _ _ _ _ _ (by decide), if_neg (by decide),
    plainWrite_reg, if_pos ⟨rfl, rfl⟩, plainWord_selfchk_run]

theorem selfchkStarted_run (hrun : s.rb .CH_SELFCHK (chIx n c) 2 = false) :
    (selfchkStarted n c d s).rb .CH_SELFCHK (chIx n c) 2 = seqIdle s n := by
  unfold selfchkStarted
  by_cases h : seqIdle s n = true
  · rw [if_pos h, State.rb_setRb_same _ _ _ _ _ (by decide), h]
  · rw [if_neg h, State.rb, State.reg_setRf, if_pos ⟨rfl, rfl⟩, bitOf_putFld _ _ _ _ _ (by decide), if_neg (by decide)]
    exact (selfchkCleared_run.trans hrun).trans (Bool.eq_false_of_not_eq_true h).symm

/-- The result of either comparator: 0, or 3 (REFUSED). -/
theorem selfchkStarted_result (low : Bool) : (selfchkStarted n c d s).rf .CH_SELFCHK (chIx n c) (if low then 6 else 4) 2 =
    if seqIdle s n then 0 else 3 * b2n (cmpOn s n c low) := by
  have hlo : 4 ≤ (if low then 6 else 4) ∧ (if low then 6 else 4) + 2 ≤ 4 + 4 := by split <;> decide
  unfold selfchkStarted selfchkCleared
  by_cases h : seqIdle s n = true
  · rw [if_pos h, if_pos h, State.rf, State.reg_setRb, if_pos ⟨rfl, rfl⟩,
      fld_putBit_ne _ _ _ _ _ (by decide) (by omega), State.reg_setRf, if_pos ⟨rfl, rfl⟩,
      fld_putFld_sub _ _ _ _ _ _ (by decide) hlo.1 hlo.2, Nat.zero_div, Nat.zero_mod]
  · rw [if_neg h, if_neg h, State.rf, State.reg_setRf, if_pos ⟨rfl, rfl⟩,
      fld_putFld_sub _ _ _ _ _ _ (by decide) hlo.1 hlo.2]
    cases low <;> cases cmpOn s n c false <;> cases cmpOn s n c true <;> rfl

theorem execSelfchkStart_accepted {t : Nat} {r : Req} (h : Accepted r .CH_SELFCHK (chIx n c) (d ||| 1#32) (s.at t)) :
    execSelfchkStart t r n c d s = .next (ungate n.val (selfchkWrite n c (d ||| 1#32) 0xFFFFFFFF#32 (s.at t))) :=
  congrArg Host.Outcome.next (cmdWrite_chan (by decide) h)

theorem selfchkStart_holds {t : Nat} {r : Req} (hacc : Accepted r .CH_SELFCHK (chIx n c) (d ||| 1#32) (s.at t))
    (hrun : s.rb .CH_SELFCHK (chIx n c) 2 = false) (hon : cmpOn s n c false = true ∨ cmpOn s n c true = true) :
    ∃ s', exec (.selfchkStart t r n c d) s = .next s' ∧ s'.rb .CH_SELFCHK (chIx n c) 2 = seqIdle s n ∧
      s'.rf .CH_SELFCHK (chIx n c) 4 2 = (if seqIdle s n then 0 else 3 * b2n (cmpOn s n c false)) ∧
      s'.rf .CH_SELFCHK (chIx n c) 6 2 = (if seqIdle s n then 0 else 3 * b2n (cmpOn s n c true)) ∧
      Frame [.clasp, .chans] [.CH_SELFCHK, .PWR_CLU_GATE] (atCluster n) s s' := by
  have hupd := cmdWrite_frame (n := n) (selfchkWrite_upd (C := atCluster n) (c := c) (d := d ||| 1#32) (m := 0xFFFFFFFF#32)
    (Upd.refl (s := s.at t)) (Nat.or_self _) (Nat.or_self _) fun _ => rfl)
  have hcmp : ∀ l, cmpOn (s.at t) n c l = cmpOn s n c l := fun l => cmpOn_congr (State.reg_at ..)
  have hidle : seqIdle (s.at t) n = seqIdle s n := seqIdle_congr (State.reg_at ..)
  have hword : (ungate n.val (selfchkWrite n c (d ||| 1#32) 0xFFFFFFFF#32 (s.at t))).reg .CH_SELFCHK (chIx n c) =
      (selfchkStarted n c (d ||| 1#32) (s.at t)).reg .CH_SELFCHK (chIx n c) := by
    rw [ungate_reg (by decide)]
    exact selfchkWrite_reg (by rw [bitOf_or]; simp [bitOf]) ((State.rb_at ..).trans hrun) (by rwa [hcmp, hcmp]) _ _
  have hresult := selfchkStarted_result (s := s.at t) (n := n) (c := c) (d := d ||| 1#32)
  refine ⟨_, execSelfchkStart_accepted hacc, ?_, ?_, ?_, hupd.frame (by decide +kernel) (by decide +kernel)⟩
  · rw [State.rb, hword, ← hidle]
    exact selfchkStarted_run ((State.rb_at ..).trans hrun)
  · rw [State.rf, hword, ← hidle, ← hcmp]
    exact hresult false
  · rw [State.rf, hword, ← hidle, ← hcmp]
    exact hresult true

/-! A check ends. -/

/-- An observation of the kind of the check decides it. -/
theorem checkPass_isSome {known free : Bool} {o : CheckObs} (h : isLevels o = known) : (checkPass known free o).isSome = true := by
  subst h; cases o <;> rfl

/-- The code written is one that the observation allows. -/
theorem checkCode_of_checkPass {known free p : Bool} {o : CheckObs} (h : checkPass known free o = some p) :
    checkCode o (if p then 1 else 2) := by
  cases o with
  | outside differ => cases known <;> simp [checkPass] at h; subst h; rfl
  | inside => cases known <;> simp [checkPass] at h; subst h; rfl
  | crossing => cases p <;> simp [checkCode]
  | levels below above => cases known <;> simp [checkPass] at h; subst h; rfl

/-- The result is written, and SELFCHK_FAIL set where it is FAIL. -/
def checkNoted (n : Cluster) (c : Channel) (low pass : Bool) (s : State) : State :=
  let s1 := s.setRf .CH_SELFCHK (chIx n c) (if low then 6 else 4) 2 (if pass then 1 else 2)
  if pass then s1 else s1.setRb .CH_EVT (chIx n c) 4 true

theorem checkEnd_eq {p : Bool} : checkEnd n c low p s = enterUnres n c low (checkNoted n c low p s) := rfl

theorem checkNoted_stat {p : Bool} : (checkNoted n c low p s).reg .CH_CMP_STAT (chIx n c) = s.reg .CH_CMP_STAT (chIx n c) := by
  cases p <;> simp [checkNoted, State.reg_setRb, State.reg_setRf]


theorem checkEnd_evt {p : Bool} :
    (checkEnd n c low p s).rb .CH_EVT (chIx n c) 4 = (!p || s.rb .CH_EVT (chIx n c) 4) := by
  rw [checkEnd_eq, State.rb, enterUnres_reg (by decide)]
  cases p <;> simp [checkNoted, State.rb, State.reg_setRb, State.reg_setRf]

/-- The comparator checked is UNRESOLVED with output 0; the other's bits are as they were. -/
theorem checkEnd_stat {p : Bool} (l : Bool) : unres (checkEnd n c low p s) n c l = (decide (l = low) || unres s n c l) ∧
    cmpOut (checkEnd n c low p s) n c l = (!decide (l = low) && cmpOut s n c l) := by
  obtain ⟨hu, ho⟩ := enterUnres_stat (n := n) (c := c) (low := low) (s := checkNoted n c low p s) l
  rw [unres_congr checkNoted_stat] at hu
  rw [cmpOut_congr checkNoted_stat] at ho
  exact ⟨hu, ho⟩

/-- The check of comparator `low` has ended, if the comparator is on. -/
def checked (n : Cluster) (c : Channel) (low on pass : Bool) (s : State) : State := if on then checkEnd n c low pass s else s

/-- The check is over: RUN is 0, two free values are drawn. -/
def checkOver (n : Cluster) (c : Channel) (s : State) : State :=
  ({ s with free := s.free + 2 }.setRb .CH_SELFCHK (chIx n c) 2 false).modChan n c fun x => { x with selfchk := none }

/-- What SELFCHK_DONE leaves, when the two checks come to ph and pl. -/
def checksDone (n : Cluster) (c : Channel) (onH onL ph pl known : Bool) (s : State) : State :=
  let s3 := checked n c true onL pl (checked n c false onH ph (checkOver n c s))
  if known then busPass n s3 else s3

theorem execSelfchkDone_due {t : Nat} {h l : CheckObs} {k : SelfChk} (hk : (s.chan n c).selfchk = some k)
    (hw : k.waits = false) (hdue : k.since + 4 * allowance (s.rf .CH_CMP (chIx n c) 0 3) + 1600 ≤ (s.at t).clasp)
    (hh : isLevels h = k.known) (hl : isLevels l = k.known) : ∃ ph pl, checkCode h (if ph then 1 else 2) ∧
      checkCode l (if pl then 1 else 2) ∧ execSelfchkDone t n c h l s =
        .next (checksDone n c (cmpOn s n c false) (cmpOn s n c true) ph pl k.known (s.at t)) := by
  obtain ⟨ph, hph⟩ := Option.isSome_iff_exists.1 (checkPass_isSome (free := Config.freeBool (s.at t).free) hh)
  obtain ⟨pl, hpl⟩ := Option.isSome_iff_exists.1 (checkPass_isSome (free := Config.freeBool ((s.at t).free + 1)) hl)
  have hon : ∀ x, cmpOn (s.at t) n c x = cmpOn s n c x := fun x => cmpOn_congr (State.reg_at ..)
  refine ⟨ph, pl, checkCode_of_checkPass hph, checkCode_of_checkPass hpl, ?_⟩
  unfold execSelfchkDone
  simp only [State.chan_at, State.rf_at, hk]
  rw [hph, hpl, if_pos (by simp [hw, hdue]), hon, hon]
  rfl

/-- What R70 asks of an enabled comparator once its check has come to `pass`. -/
structure CheckShown (n : Cluster) (c : Channel) (low pass : Bool) (s : State) : Prop where
  result : s.rf .CH_SELFCHK (chIx n c) (if low then 6 else 4) 2 = if pass then 1 else 2
  unresolved : unres s n c low = true
  out : cmpOut s n c low = false
  event : pass = false → s.rb .CH_EVT (chIx n c) 4 = true

theorem checkEnd_shown {p : Bool} : CheckShown n c low p (checkEnd n c low p s) where
  result := by
    rw [State.rf, checkEnd_selfchk, fld_putFld_same _ _ _ _ (by split <;> decide)]
    cases p <;> rfl
  unresolved := by simp [(checkEnd_stat low).1]
  out := by simp [(checkEnd_stat low).2]
  event := by rintro rfl; simp [checkEnd_evt]

/-- The other comparator's check leaves it so. -/
theorem CheckShown.checked {p q l on : Bool} (h : CheckShown n c low p s) (hl : low ≠ l) :
    CheckShown n c low p (checked n c l on q s) := by
  cases on with
  | false => exact h
  | true => exact
    { result := by
        rw [Machine.checked, if_pos rfl, State.rf, checkEnd_selfchk, fld_putFld_ne _ _ _ _ _ _ (by split <;> decide)
          (by revert hl; cases l <;> cases low <;> decide)]
        exact h.result
      unresolved := by rw [Machine.checked, if_pos rfl, (checkEnd_stat low).1, h.unresolved, Bool.or_true]
      out := by rw [Machine.checked, if_pos rfl, (checkEnd_stat low).2, h.out, Bool.and_false]
      event := fun hp => by rw [Machine.checked, if_pos rfl, checkEnd_evt, h.event hp, Bool.or_true] }

theorem CheckShown.busPass {p : Bool} (h : CheckShown n c low p s) : CheckShown n c low p (busPass n s) where
  result := by rw [State.rf, busPass_reg]; exact h.result
  unresolved := (unres_congr (busPass_reg ..)).trans h.unresolved
  out := (cmpOut_congr (busPass_reg ..)).trans h.out
  event hp := by rw [State.rb, busPass_reg]; exact h.event hp

theorem checked_run {on p : Bool} : (checked n c low on p s).rb .CH_SELFCHK (chIx n c) 2 = s.rb .CH_SELFCHK (chIx n c) 2 := by
  cases on with
  | false => rfl
  | true => rw [checked, if_pos rfl, State.rb, checkEnd_selfchk, bitOf_putFld _ _ _ _ _ (by decide),
      if_neg (by split <;> decide), State.rb]

section
variable {onH onL ph pl known : Bool}

theorem checksDone_run : (checksDone n c onH onL ph pl known s).rb .CH_SELFCHK (chIx n c) 2 = false := by
  have hover : (checked n c true onL pl (checked n c false onH ph (checkOver n c s))).rb .CH_SELFCHK (chIx n c) 2 = false := by
    rw [checked_run, checked_run]
    exact State.rb_setRb_same _ _ _ _ _ (by decide)
  cases known with
  | false => exact hover
  | true => exact (congrArg (bitOf · 2) (busPass_reg ..)).trans hover

theorem checksDone_high (h : onH = true) : CheckShown n c false ph (checksDone n c onH onL ph pl known s) := by
  subst h
  have hshown := (checkEnd_shown (s := checkOver n c s) (n := n) (c := c) (low := false) (p := ph)).checked (q := pl) (on := onL)
    (l := true) (by decide)
  cases known with
  | false => exact hshown
  | true => exact hshown.busPass

theorem checksDone_low (h : onL = true) : CheckShown n c true pl (checksDone n c onH onL ph pl known s) := by
  subst h
  cases known with
  | false => exact checkEnd_shown
  | true => exact checkEnd_shown.busPass
end

/-- The words of R70 and R71 for one comparator. -/
theorem CheckShown.told {p : Bool} {o : CheckObs} (h : CheckShown n c low p s) (hcode : checkCode o (if p then 1 else 2)) :
    checkCode o (s.rf .CH_SELFCHK (chIx n c) (if low then 6 else 4) 2) ∧ unres s n c low = true ∧ cmpOut s n c low = false ∧
      (s.rf .CH_SELFCHK (chIx n c) (if low then 6 else 4) 2 = 2 → s.rb .CH_EVT (chIx n c) 4 = true) := by
  refine ⟨by rw [h.result]; exact hcode, h.unresolved, h.out, fun hfail => h.event ?_⟩
  rw [h.result] at hfail
  cases p <;> simp_all

theorem selfchkDone_holds {t : Nat} {h l : CheckObs} {k : SelfChk} (hk : (s.chan n c).selfchk = some k)
    (hw : k.waits = false) (hdue : k.since + 4 * allowance (s.rf .CH_CMP (chIx n c) 0 3) + 1600 ≤ (s.at t).clasp)
    (hh : isLevels h = k.known) (hl : isLevels l = k.known) :
    ∃ s', exec (.selfchkDone t n c h l) s = .next s' ∧ s'.rb .CH_SELFCHK (chIx n c) 2 = false ∧
      (cmpOn s n c false = true → checkCode h (s'.rf .CH_SELFCHK (chIx n c) 4 2) ∧ unres s' n c false = true ∧
        cmpOut s' n c false = false ∧ (s'.rf .CH_SELFCHK (chIx n c) 4 2 = 2 → s'.rb .CH_EVT (chIx n c) 4 = true)) ∧
      (cmpOn s n c true = true → checkCode l (s'.rf .CH_SELFCHK (chIx n c) 6 2) ∧ unres s' n c true = true ∧
        cmpOut s' n c true = false ∧ (s'.rf .CH_SELFCHK (chIx n c) 6 2 = 2 → s'.rb .CH_EVT (chIx n c) 4 = true)) ∧
      Frame [.clasp, .chans, .trigs, .free] [.CH_CMP_STAT, .CH_SELFCHK, .CH_EVT] (atCluster n) s s' := by
  obtain ⟨ph, pl, hph, hpl, hexec⟩ := execSelfchkDone_due hk hw hdue hh hl
  have hupd := execSelfchkDone_upd (C := atCluster n) (c := c) (t := t) (h' := h) (l := l) (Upd.refl (s := s)) (Nat.or_self _)
    (Nat.or_self _) fun _ => rfl
  rw [hexec] at hupd
  exact ⟨_, hexec, checksDone_run, fun hon => (checksDone_high hon).told hph, fun hon => (checksDone_low hon).told hpl,
    hupd.frame (by decide +kernel) (by decide +kernel)⟩

/-- Settles O11, clause by clause. -/
theorem blankingAndSelfChecks : Obligations.BlankingAndSelfChecks := by
  unfold Obligations.BlankingAndSelfChecks
  refine ⟨fun t r n d s hacc => blankTimerStart_holds hacc, fun t n c s => ?_,
    fun t r n c d s hacc hrun hon => selfchkStart_holds hacc hrun hon,
    fun t n c h l k s hk hw hdue hh hl => selfchkDone_holds hk hw hdue hh hl⟩
  intro per b hen h0 hdue
  exact blankTimerExpire_holds rfl rfl hen h0 hdue

end Sys2Proof.Machine
end

section
/-! ### Timing edges (R64, R121, R123) -/

namespace Sys2Proof.Machine

variable {s : State} {n : Cluster} {c : Channel} {p : PEdge}

theorem edgeDue_edge {e : Nat} {j : Nat} (h : edgeDue s n j e = some p) : p.e = e := by
  unfold edgeDue at h
  dsimp only at h
  split at h
  · cases h
  next q hq =>
    split at h
    · cases h; simpa using List.find?_some hq
    · cases h

theorem patDrives_congr {a b : State} (h : ∀ r i, b.reg r i = a.reg r i) : patDrives b n c = patDrives a n c := by
  unfold patDrives drvEn nodeOf fenced State.rb State.rf
  rw [h, h]
theorem compareNow_congr {a b : State} (h : ∀ r i, b.reg r i = a.reg r i) (code : Nat) :
    compareNow b n c code = compareNow a n c code := by
  unfold compareNow State.rb
  rw [h]
theorem noteSample_congr {a b : State} (h : ∀ r i, b.reg r i = a.reg r i) (half code : Nat) (v : Vec) :
    noteSample b n c half code v = noteSample a n c half code v := by
  unfold noteSample State.rf
  rw [h, compareNow_congr h]

/-! The action of an edge, as its code gives it (R159 to R162). -/

/-- The driver after the action. -/
def actLvl (a : EdgeAct) (x : Lvl) : Lvl := match a with | .level code _ => codeLevel code x | _ => x
def actDrvOn (a : EdgeAct) (drives x : Bool) : Bool :=
  match a with
  | .level _ on => x || (on && drives)
  | .on => x || drives
  | .off => false
  | _ => x
/-- The vectors in flight after the action. -/
def actInfl (a : EdgeAct) (n : Cluster) (c : Channel) (k : Nat) (s : State) : List Vec :=
  match a with
  | .sample half code => (s.seq n).infl.map fun v => if v.seqNo = k then noteSample s n c half code v else v
  | _ => (s.seq n).infl

/-- The action alone, without the window that the edge may open. -/
def edgeActed (n : Cluster) (c : Channel) (p : PEdge) (s : State) : State :=
  match p.act with
  | .level code on => s.modChan n c fun x => { x with lvl := codeLevel code x.lvl, drvOn := x.drvOn || (on && patDrives s n c) }
  | .off => s.modChan n c fun x => { x with drvOn := false }
  | .on => s.modChan n c fun x => { x with drvOn := x.drvOn || patDrives s n c }
  | .sample half code =>
    s.modSeq n fun q => { q with infl := q.infl.map fun v => if v.seqNo = p.seqNo then noteSample s n c half code v else v }
  | .blank => s

theorem edgeAct_eq : edgeAct n c p s =
    if p.e < 4 ∧ blankSrc s n c = p.e + 1 then openBlank n c (edgeActed n c p s) else edgeActed n c p s := rfl

theorem edgeActed_reg (r : Reg) (i : Nat) : (edgeActed n c p s).reg r i = s.reg r i := by unfold edgeActed; split <;> rfl
theorem edgeActed_clasp : (edgeActed n c p s).clasp = s.clasp := by unfold edgeActed; split <;> rfl

theorem edgeActed_edges : ((edgeActed n c p s).seq n).edges = (s.seq n).edges := by
  unfold edgeActed
  split
  case h_4 => rw [State.seq_modSeq]
  all_goals rfl

theorem edgeActed_infl : ((edgeActed n c p s).seq n).infl = actInfl p.act n c p.seqNo s := by
  unfold edgeActed actInfl
  cases p.act with
  | sample half code => rw [State.seq_modSeq]
  | _ => rfl

theorem edgeActed_lvl : ((edgeActed n c p s).chan n c).lvl = actLvl p.act (s.chan n c).lvl := by
  unfold edgeActed actLvl
  cases p.act with
  | level code on => rw [State.chan_modChan]
  | off => rw [State.chan_modChan]
  | on => rw [State.chan_modChan]
  | _ => rfl

theorem edgeActed_drvOn : ((edgeActed n c p s).chan n c).drvOn = actDrvOn p.act (patDrives s n c) (s.chan n c).drvOn := by
  unfold edgeActed actDrvOn
  cases p.act with
  | level code on => rw [State.chan_modChan]
  | off => rw [State.chan_modChan]
  | on => rw [State.chan_modChan]
  | _ => rfl

/-! The window leaves the action's effect as it is. -/

theorem edgeAct_seq : (edgeAct n c p s).seq n = (edgeActed n c p s).seq n := by
  rw [edgeAct_eq]; split
  · exact openBlank_seq
  · rfl
theorem edgeAct_driver : ((edgeAct n c p s).chan n c).lvl = ((edgeActed n c p s).chan n c).lvl ∧
    ((edgeAct n c p s).chan n c).drvOn = ((edgeActed n c p s).chan n c).drvOn := by
  rw [edgeAct_eq]; split
  · exact openBlank_driver
  · exact ⟨rfl, rfl⟩

/-- The edge that the blanking source names opens a window. -/
theorem edgeAct_opens (he : p.e < 4) (hsrc : blankSrc s n c = p.e + 1) (hlen : blankLen s n c ≠ 0) :
    (edgeAct n c p s).rb .CH_CMP_STAT (chIx n c) 4 = true ∧
      ((edgeAct n c p s).chan n c).blankEnd = some (s.clasp + blankLen s n c) := by
  have hacted : blankLen (edgeActed n c p s) n c = blankLen s n c := blankLen_congr (edgeActed_reg ..)
  have hopen : blankLen (edgeActed n c p s) n c ≠ 0 := by rwa [hacted]
  obtain ⟨g, hchan⟩ := openBlank_chan hopen
  rw [edgeAct_eq, if_pos ⟨he, hsrc⟩, hchan, hacted, edgeActed_clasp]
  exact ⟨openBlank_stat hopen, rfl⟩

/-- The edge is pending no more. -/
def edgeTaken (n : Cluster) (p : PEdge) (s : State) : State := s.modSeq n fun q => { q with edges := q.edges.erase p }

theorem edgeTaken_reg (r : Reg) (i : Nat) : (edgeTaken n p s).reg r i = s.reg r i := State.reg_modSeq ..
theorem edgeTaken_chan : (edgeTaken n p s).chan n c = s.chan n c := rfl
theorem edgeTaken_edges : ((edgeTaken n p s).seq n).edges = (s.seq n).edges.erase p := by rw [edgeTaken, State.seq_modSeq]
theorem edgeTaken_infl : ((edgeTaken n p s).seq n).infl = (s.seq n).infl := by rw [edgeTaken, State.seq_modSeq]

theorem actInfl_congr {a b : State} (hreg : ∀ r i, b.reg r i = a.reg r i) (hinfl : (b.seq n).infl = (a.seq n).infl)
    (x : EdgeAct) (k : Nat) : actInfl x n c k b = actInfl x n c k a := by
  cases x with
  | sample half code => simp only [actInfl, hinfl, noteSample_congr hreg]
  | _ => exact hinfl

theorem execTimingEdge_due {t : Nat} {e : Fin 6} (h : edgeDue (s.at t) n c.val e.val = some p) :
    execTimingEdge t n c e s = .next (edgeAct n c p (edgeTaken n p (s.at t))) := by
  unfold execTimingEdge
  dsimp only
  rw [h]
  rfl

/-- Settles O14: taking the edge off leaves registers and channels alone, and its window leaves what the action did. -/
theorem timingEdgeActs : Obligations.TimingEdgeActs := by
  unfold Obligations.TimingEdgeActs
  intro t n c e p s hdue
  have hedge : p.e = e.val := edgeDue_edge hdue
  have hexec := execTimingEdge_due hdue
  have hupd := execTimingEdge_upd (C := atChannel n c) (t := t) (e := e) (Upd.refl (s := s)) (Nat.or_self _)
    (Nat.or_self _) ⟨rfl, rfl⟩
  rw [hexec] at hupd
  have hreg : ∀ r i, (edgeTaken n p (s.at t)).reg r i = s.reg r i := fun r i => (edgeTaken_reg r i).trans (State.reg_at ..)
  have hchan : (edgeTaken n p (s.at t)).chan n c = s.chan n c := edgeTaken_chan.trans (State.chan_at ..)
  have hinfl : ((edgeTaken n p (s.at t)).seq n).infl = (s.seq n).infl := by rw [edgeTaken_infl, State.seq_at]
  refine ⟨_, hexec, ?_, ?_, ?_, ?_, ?_, hupd.frame (by decide +kernel) (by decide +kernel)⟩
  · rw [edgeAct_seq, edgeActed_edges, edgeTaken_edges, State.seq_at]
  · rw [edgeAct_driver.1, edgeActed_lvl, hchan]
    rfl
  · rw [edgeAct_driver.2, edgeActed_drvOn, hchan, patDrives_congr hreg]
    rfl
  · rw [edgeAct_seq, edgeActed_infl, actInfl_congr hreg hinfl]
    rfl
  · intro he hsrc hlen
    have hopens := edgeAct_opens (s := edgeTaken n p (s.at t)) (n := n) (c := c) (p := p) (by omega)
      (by rw [blankSrc_congr (hreg ..), hsrc, hedge]) (by rwa [blankLen_congr (hreg ..)])
    rwa [blankLen_congr (hreg ..)] at hopens

end Sys2Proof.Machine
end

/-! # The parametric unit, and ABORT and RELEASE of a sequencer: obligations O12, O13, O25

SUPPORT. The sequencer's two commands first; then the commands that write a register of a channel's parametric unit; then
measurements. -/

section
/-! ### ABORT and RELEASE (R96, R176, R177, R180) -/

namespace Sys2Proof.Machine

variable {s : State} {n : Cluster} {c : Channel} {d : Word}

@[simp] theorem ungate_seq (k : Nat) : (ungate k s).seq n = s.seq n := by unfold ungate; split <;> rfl

theorem measBusy_congr {a b : State} (h : b.chan n c = a.chan n c) : measBusy b n c = measBusy a n c := by
  unfold measBusy; rw [h]

/-- An accepted command that writes CL_SEQ_CTRL does what its chapter says, and ends the cluster's gating (R428). -/
theorem cmdWrite_seqCtrl {q : Req} {set : Word} (h : Accepted q .CL_SEQ_CTRL n.val (d ||| set) s) :
    cmdWrite q .CL_SEQ_CTRL n.val d set s = ungate n.val (seqCtrlWrite q n (d ||| set) 0xFFFFFFFF#32 s) := by
  have hsize : n.val < Reg.CL_SEQ_CTRL.size := n.isLt
  obtain ⟨s', hput, hwrite⟩ := cmdWrite_cluster (by decide) rfl hsize (Nat.div_one _) h
  cases hput
  exact hwrite

/-- The word that the command stores in CL_SEQ_CTRL. -/
def seqCtrlStored (n : Cluster) (d : Word) (s : State) : State := plainWrite .CL_SEQ_CTRL n d 0xFFFFFFFF#32 s

theorem seqCtrlStored_upd {K R : Nat} {C : Nat → Nat → Prop} {s0 : State} (h : Upd K R C s0 s)
    (hr : R.testBit (Reg.ctorIdx .CL_SEQ_CTRL) = true) (hc : ∃ c, C n.val c) : Upd K R C s0 (seqCtrlStored n d s) :=
  plainWrite_upd h hr (RegOk.one rfl hc)

@[simp] theorem seqCtrlStored_seq : (seqCtrlStored n d s).seq n = s.seq n := rfl
@[simp] theorem seqCtrlStored_clasp : (seqCtrlStored n d s).clasp = s.clasp := rfl
@[simp] theorem seqCtrlStored_state : seqState (seqCtrlStored n d s) n = seqState s n := by
  unfold seqState State.rf seqCtrlStored; rw [plainWrite_reg, if_neg (by simp)]
theorem seqCtrlStored_idle : seqIdle (seqCtrlStored n d s) n = seqIdle s n := by
  unfold seqIdle; rw [seqCtrlStored_state]

/-! Every measurement of the cluster ends. -/

theorem measEnded_upd {K R : Nat} {C : Nat → Nat → Prop} {s0 : State} (h : Upd K R C s0 s) (hk : 0x40 ||| K = K)
    (hc : ∀ c, C n.val c) : Upd K R C s0 (forChannels n endMeas s) :=
  forChannels_upd (fun c _ h => endMeas_upd h hk (hc c)) h

theorem measEnded_changes : Upd 0x40 0 (fun _ _ => True) s (forChannels n endMeas s) :=
  measEnded_upd Upd.refl (Nat.or_self _) fun _ => trivial

@[simp] theorem measEnded_reg (r : Reg) (i : Nat) : (forChannels n endMeas s).reg r i = s.reg r i :=
  measEnded_changes.reg r i (Nat.zero_testBit _)
@[simp] theorem measEnded_seq : (forChannels n endMeas s).seq n = s.seq n := measEnded_changes.seq_eq (by decide)

theorem measEnded_meas (c : Channel) : ((forChannels n endMeas s).chan n c).meas = none := by
  obtain ⟨u, -, hafter⟩ := forChannels_turn (n := n) (f := endMeas)
    (fun c s => endMeas_upd (R := 0) (C := atChannel n c) (Upd.refl (s := s)) (Nat.or_self _) ⟨rfl, rfl⟩) s c
  rw [hafter.chan_of_others, endMeas_chan]

/-! ABORT. -/

/-- An ABORT that no other ending of the pattern forestalls: before the first vector the pattern is over, later the ABORT is
on its way to the issue stage. -/
def abortTaken (n : Cluster) (cause lat : Nat) (s : State) : State :=
  if seqState s n = 1 ∧ (s.seq n).seqNo = 0 then endSeq n 2 0 (forChannels n endMeas s)
  else (forChannels n endMeas s).setSeq n { s.seq n with abort := some (s.clasp + lat, cause) }

theorem abortSeq_eq_taken {cause lat : Nat} (hidle : seqIdle s n = false) (hunwind : (s.seq n).unwind = false)
    (habort : (s.seq n).abort = none) (hending : (s.seq n).ending = none) :
    abortSeq n cause lat s = abortTaken n cause lat s := by
  have hidle' : seqIdle (forChannels n endMeas s) n = false := (seqIdle_congr (measEnded_reg ..)).trans hidle
  have hstate : seqState (forChannels n endMeas s) n = seqState s n := by
    unfold seqState State.rf; rw [measEnded_reg]
  unfold abortSeq abortTaken
  dsimp only
  rw [measEnded_seq, hidle', hstate, hunwind, habort, hending]
  simp

theorem abortTaken_upd {K R : Nat} {C : Nat → Nat → Prop} {s0 : State} {cause lat : Nat} (h : Upd K R C s0 s)
    (hk : 0x140 ||| K = K) (hc : ∀ c, C n.val c) : Upd K R C s0 (abortTaken n cause lat s) := by
  have hended := measEnded_upd (n := n) h (sub_of rfl hk) hc
  exact Upd.ite (endSeq_upd hended (sub_of rfl hk) ⟨0, hc 0⟩) (State.setSeq_upd hended (sub_of rfl hk) ⟨0, hc 0⟩)

theorem abortTaken_chan {cause lat : Nat} (c : Channel) :
    (abortTaken n cause lat s).chan n c = (forChannels n endMeas s).chan n c := by
  unfold abortTaken
  split
  · rw [endSeq, State.modSeq, State.chan_setSeq]
  · rw [State.chan_setSeq]

theorem abortTaken_measBusy {cause lat : Nat} (c : Channel) : measBusy (abortTaken n cause lat s) n c = false := by
  rw [measBusy_congr (abortTaken_chan c), measBusy, measEnded_meas, Option.isSome_none]

/-- The word is stored and the ABORT has acted. -/
def abortWritten (r : Req) (n : Cluster) (d : Word) (s : State) : State :=
  abortTaken n (if r = 4 then 2 else 1) 80 (seqCtrlStored n d s)

theorem seqCtrlWrite_abort {r : Req} (hbit : bitOf d 1 = true) (hidle : seqIdle s n = false)
    (hunwind : (s.seq n).unwind = false) (habort : (s.seq n).abort = none) (hending : (s.seq n).ending = none) :
    seqCtrlWrite r n d 0xFFFFFFFF#32 s = abortWritten r n d s := by
  unfold seqCtrlWrite
  dsimp only
  rw [if_pos (by rw [ones_full, hbit])]
  exact abortSeq_eq_taken (seqCtrlStored_idle.trans hidle) hunwind habort hending

theorem execSeqAbort_accepted {t : Nat} {r : Req} (hacc : Accepted r .CL_SEQ_CTRL n.val (d ||| 2#32) (s.at t))
    (hidle : seqIdle s n = false) (hunwind : (s.seq n).unwind = false) (habort : (s.seq n).abort = none)
    (hending : (s.seq n).ending = none) :
    execSeqAbort t r n d s = .next (ungate n.val (abortWritten r n (d ||| 2#32) (s.at t))) := by
  have hbit : bitOf (d ||| 2#32) 1 = true := by rw [bitOf_or]; simp [bitOf]
  have hidle' : seqIdle (s.at t) n = false := (seqIdle_congr (State.reg_at ..)).trans hidle
  rw [← seqCtrlWrite_abort hbit hidle' (by rwa [State.seq_at]) (by rwa [State.seq_at]) (by rwa [State.seq_at])]
  exact congrArg Host.Outcome.next (cmdWrite_seqCtrl hacc)

theorem seqAbort_holds {t : Nat} {r : Req} (hacc : Accepted r .CL_SEQ_CTRL n.val (d ||| 2#32) (s.at t))
    (hidle : seqIdle s n = false) (hunwind : (s.seq n).unwind = false) (habort : (s.seq n).abort = none)
    (hending : (s.seq n).ending = none) :
    ∃ s', exec (.seqAbort t r n d) s = .next s' ∧ (∀ c, measBusy s' n c = false) ∧
      (seqState s n = 1 ∧ (s.seq n).seqNo = 0 → (s'.seq n).ending = some (2, 0) ∧ (s'.seq n).feOn = false) ∧
      (¬ (seqState s n = 1 ∧ (s.seq n).seqNo = 0) →
        s'.seq n = { s.seq n with abort := some ((s.at t).clasp + 80, if r = 4 then 2 else 1) }) ∧
      Frame [.clasp, .chans, .seqs] [.CL_SEQ_CTRL, .PWR_CLU_GATE] (atCluster n) s s' := by
  have hupd := cmdWrite_frame (n := n) (abortTaken_upd (C := atCluster n) (cause := if r = 4 then 2 else 1) (lat := 80)
    (seqCtrlStored_upd (n := n) (d := d ||| 2#32) (K := 0x140) (R := 2 ^ Reg.ctorIdx .CL_SEQ_CTRL) (Upd.refl (s := s.at t))
      (Nat.testBit_two_pow_self) ⟨0, rfl⟩) (Nat.or_self _) fun _ => rfl)
  have hwhen : seqState (s.at t) n = seqState s n := by unfold seqState; rw [State.rf_at]
  refine ⟨_, execSeqAbort_accepted hacc hidle hunwind habort hending, fun c => ?_, fun hfirst => ?_, fun hlater => ?_,
    hupd.frame (by decide +kernel) (by decide +kernel)⟩
  · rw [measBusy_congr (ungate_chan _)]
    exact abortTaken_measBusy c
  · rw [ungate_seq, abortWritten, abortTaken, seqCtrlStored_state, hwhen, seqCtrlStored_seq, State.seq_at, if_pos hfirst,
      endSeq, State.seq_modSeq]
    exact ⟨rfl, rfl⟩
  · rw [ungate_seq, abortWritten, abortTaken, seqCtrlStored_state, hwhen, seqCtrlStored_seq, State.seq_at, if_neg hlater,
      State.seq_setSeq_same, seqCtrlStored_clasp]

/-! RELEASE. -/

/-- The word is stored and the release is on its way to the issue stage. -/
def releaseWritten (n : Cluster) (d : Word) (s : State) : State :=
  (seqCtrlStored n d s).modSeq n fun q => { q with release := some (s.clasp + 80) }

theorem seqCtrlWrite_release {r : Req} (h0 : bitOf d 0 = false) (h1 : bitOf d 1 = false) (h2 : bitOf d 2 = true)
    (hidle : seqIdle s n = false) : seqCtrlWrite r n d 0xFFFFFFFF#32 s = releaseWritten n d s := by
  have hidle' : seqIdle (plainWrite .CL_SEQ_CTRL n d 0xFFFFFFFF#32 s) n = false := seqCtrlStored_idle.trans hidle
  unfold seqCtrlWrite
  dsimp only
  rw [ones_full, ones_full, ones_full, hidle', h0, h1, h2]
  rfl

theorem execSeqRelease_accepted {t : Nat} {r : Req} (hacc : Accepted r .CL_SEQ_CTRL n.val (d ||| 4#32) (s.at t))
    (h0 : bitOf d 0 = false) (h1 : bitOf d 1 = false) (hidle : seqIdle s n = false) :
    execSeqRelease t r n d s = .next (ungate n.val (releaseWritten n (d ||| 4#32) (s.at t))) := by
  have hstart : bitOf (d ||| 4#32) 0 = false := by rw [bitOf_or, h0]; rfl
  have habort : bitOf (d ||| 4#32) 1 = false := by rw [bitOf_or, h1]; rfl
  have hrelease : bitOf (d ||| 4#32) 2 = true := by rw [bitOf_or]; simp [bitOf]
  rw [← seqCtrlWrite_release hstart habort hrelease ((seqIdle_congr (State.reg_at ..)).trans hidle)]
  exact congrArg Host.Outcome.next (cmdWrite_seqCtrl hacc)

theorem seqRelease_holds {t : Nat} {r : Req} (hacc : Accepted r .CL_SEQ_CTRL n.val (d ||| 4#32) (s.at t))
    (h0 : bitOf d 0 = false) (h1 : bitOf d 1 = false) (hidle : seqIdle s n = false) :
    ∃ s', exec (.seqRelease t r n d) s = .next s' ∧ s'.seq n = { s.seq n with release := some ((s.at t).clasp + 80) } ∧
      Frame [.clasp, .seqs] [.CL_SEQ_CTRL, .PWR_CLU_GATE] (atCluster n) s s' := by
  have hupd := cmdWrite_frame (n := n) (State.modSeq_upd (C := atCluster n)
    (f := fun q => { q with release := some ((s.at t).clasp + 80) })
    (seqCtrlStored_upd (n := n) (d := d ||| 4#32) (K := 0x100) (R := 2 ^ Reg.ctorIdx .CL_SEQ_CTRL) (Upd.refl (s := s.at t))
      (Nat.testBit_two_pow_self) ⟨0, rfl⟩) (Nat.or_self _) ⟨0, rfl⟩)
  refine ⟨_, execSeqRelease_accepted hacc h0 h1 hidle, ?_, hupd.frame (by decide +kernel) (by decide +kernel)⟩
  rw [ungate_seq, releaseWritten, State.seq_modSeq, seqCtrlStored_seq, State.seq_at]

/-- Settles O25: an ABORT is `abortWritten`, a RELEASE `releaseWritten`. -/
theorem sequencerAbortsAndReleases : Obligations.SequencerAbortsAndReleases := by
  unfold Obligations.SequencerAbortsAndReleases
  exact ⟨fun _ _ _ _ _ hacc hidle hunwind habort hending => seqAbort_holds hacc hidle hunwind habort hending,
    fun _ _ _ _ _ hacc h0 h1 hidle => seqRelease_holds hacc h0 h1 hidle⟩

end Sys2Proof.Machine
end

section
/-! ### Codes, and words that agree where a mask says -/

namespace Sys2Proof.Machine

/-- The two readings of the code of a number that `len` bits hold. -/
theorem signed_unsigned {len : Nat} {x : Int} (hlen : 0 < len) (hlo : -(2 : Int) ^ (len - 1) ≤ x)
    (hhi : x < (2 : Int) ^ (len - 1)) : signed len (unsigned len x) = x := by
  obtain ⟨k, rfl⟩ : ∃ k, len = k + 1 := ⟨len - 1, by omega⟩
  rw [Nat.add_sub_cancel] at hlo hhi
  have hpow : ((2 ^ (k + 1) : Nat) : Int) = 2 * 2 ^ k := by push_cast; ring
  have hhalf : ((2 ^ k : Nat) : Int) = 2 ^ k := by push_cast; rfl
  have hnat : (2 : Nat) ^ (k + 1) = 2 * 2 ^ k := by ring
  unfold signed unsigned
  rw [Nat.add_sub_cancel, hpow]
  generalize (2 : Int) ^ k = p at *
  generalize (2 : Nat) ^ k = p' at *
  rcases lt_or_ge x 0 with h | h
  · have hmod : x % (2 * p) = x + 2 * p := by
      rw [← Int.add_emod_right, Int.emod_eq_of_lt (by omega) (by omega)]
    rw [hmod, hnat, Nat.mod_eq_of_lt (by omega), if_neg (by omega)]
    omega
  · rw [Int.emod_eq_of_lt h (by omega), hnat, Nat.mod_eq_of_lt (by omega), if_pos (by omega)]
    omega

theorem unsigned_lt {len : Nat} {x : Int} : unsigned len x < 2 ^ len := by
  have hpos : (0 : Int) < ((2 ^ len : Nat) : Int) := by exact_mod_cast Nat.two_pow_pos len
  have hlt := Int.emod_lt_of_pos x hpos
  unfold unsigned
  omega

theorem clampInt_mem {lo hi x : Int} (h : lo ≤ hi) : lo ≤ clampInt lo hi x ∧ clampInt lo hi x ≤ hi := by
  unfold clampInt; split
  · omega
  · split <;> omega

/-- Words that agree on a mask agree on the fields within it. -/
theorem fld_eq_of_agree {a b m : Word} {lo len : Nat} (h : (a ^^^ b) &&& m = 0#32)
    (hm : m &&& maskAt lo len = maskAt lo len) (hl : lo + len ≤ 32) : fld a lo len = fld b lo len := by
  apply Nat.eq_of_testBit_eq
  intro k
  rw [fld_testBit, fld_testBit]
  by_cases hk : k < len
  · have hdiff := congrArg (BitVec.getLsbD · (lo + k)) h
    have hmask := congrArg (BitVec.getLsbD · (lo + k)) hm
    have hin : decide (lo + k < 32 ∧ lo ≤ lo + k ∧ lo + k < lo + len) = true := decide_eq_true (by omega)
    simp only [BitVec.getLsbD_and, maskAt_getLsbD, hin, Bool.and_true] at hmask
    simp only [BitVec.getLsbD_and, BitVec.getLsbD_xor, hmask, Bool.and_true, BitVec.getLsbD_zero, bne_eq_false_iff_eq] at hdiff
    rw [hdiff]
  · simp [hk]

theorem fld_one_eq_bitOf (w : Word) (b : Nat) : fld w b 1 = b2n (bitOf w b) := by
  apply Nat.eq_of_testBit_eq
  intro k
  rw [fld_testBit, bitOf]
  cases k with
  | zero => cases w.getLsbD b <;> simp [b2n]
  | succ k => cases w.getLsbD b <;> simp [b2n, Nat.testBit_succ]

/-- Words that differ in a bit of a mask differ on it. -/
theorem differ_of_bitOf {a b m : Word} {i : Nat} (hi : i < 32) (hm : m &&& maskAt i 1 = maskAt i 1)
    (h : bitOf a i ≠ bitOf b i) : (a ^^^ b) &&& m ≠ 0#32 := by
  intro hagree
  have hfld := fld_eq_of_agree hagree hm (by omega)
  rw [fld_one_eq_bitOf, fld_one_eq_bitOf] at hfld
  revert h hfld
  cases bitOf a i <;> cases bitOf b i <;> simp [b2n]

/-- A field that is set where p holds. -/
theorem fld_ite_putFld (w : Word) (lo len v : Nat) (p : Prop) [Decidable p] (hl : lo + len ≤ 32) (hv : v < 2 ^ len) :
    fld (if p then putFld w lo len v else w) lo len = if p then v else fld w lo len := by
  split
  · rw [fld_putFld_same _ _ _ _ hl, Nat.mod_eq_of_lt hv]
  · rfl

theorem fld_ite_putFld_ne (w : Word) (lo len v lo' len' : Nat) (p : Prop) [Decidable p] (hl : lo' + len' ≤ 32)
    (hd : lo' + len' ≤ lo ∨ lo + len ≤ lo') : fld (if p then putFld w lo len v else w) lo' len' = fld w lo' len' := by
  split
  · exact fld_putFld_ne _ _ _ _ _ _ hl hd
  · rfl

theorem bitOf_ite_putFld_ne (w : Word) (lo len v b : Nat) (p : Prop) [Decidable p] (hb : b < 32)
    (hd : b < lo ∨ lo + len ≤ b) : bitOf (if p then putFld w lo len v else w) b = bitOf w b := by
  split
  · rw [bitOf_putFld _ _ _ _ _ hb, if_neg (by omega)]
  · rfl

/-- A field stored as at most `top` (R508). -/
theorem cappedWrite_rf {s : State} {r : Reg} {i lo len top : Nat} {d : Word} (hl : lo + len ≤ 32) (ht : top < 2 ^ len)
    (h1 : r.rwOf i &&& maskAt lo len = maskAt lo len) (h2 : r.row.w1c &&& maskAt lo len = 0#32) :
    (cappedWrite r i lo len top d 0xFFFFFFFF#32 s).rf r i lo len = min top (fld d lo len) := by
  unfold cappedWrite
  dsimp only
  rw [State.rf, State.reg_setReg_same, fld_ite_putFld _ _ _ _ _ hl ht, fld_plainWord _ _ _ _ _ _ hl h1 h2]
  split <;> omega

end Sys2Proof.Machine
end

section
/-! ### What a write of CH_PM_CTRL stores, and what follows it (R79, R86, R87, R94, R96) -/

namespace Sys2Proof.Machine

variable {s : State} {n : Cluster} {c : Channel} {d w old : Word}

theorem Upd.chan_eq {K R : Nat} {C : Nat → Nat → Prop} {s' : State} (h : Upd K R C s s')
    (hk : K.testBit (Part.ctorIdx .chans) = false) : s'.chan n c = s.chan n c := by
  have hp : s'.chans = s.chans := h.parts .chans hk
  unfold State.chan; rw [hp]

/-! The word. -/

/-- The word that a write of d stores: RANGE 5 to 7 and MMODE 3 as 0, EN not set on a channel held safe. -/
def pmCtrlStored (s : State) (n : Cluster) (c : Channel) (d : Word) : Word :=
  let w0 := plainWord s .CH_PM_CTRL (chIx n c) d 0xFFFFFFFF#32
  let w1 := if 5 ≤ fld w0 6 3 then putFld w0 6 3 0 else w0
  let w2 := if fld w1 4 2 = 3 then putFld w1 4 2 0 else w1
  if heldSafe s n c then putBit w2 0 (bitOf w2 0 && bitOf (s.reg .CH_PM_CTRL (chIx n c)) 0) else w2

theorem rwOf_pmCtrl (i : Nat) : Reg.rwOf .CH_PM_CTRL i = 0x17F9#32 := rfl

/-- A bit that is stored is as written, but for RANGE, MMODE and EN. -/
theorem pmCtrlStored_bit {b : Nat} (hb : b < 32) (hrw : bitOf 0x17F9#32 b = true) (h0 : b ≠ 0) (h4 : b < 4 ∨ 9 ≤ b) :
    bitOf (pmCtrlStored s n c d) b = bitOf d b := by
  have hplain : bitOf (plainWord s .CH_PM_CTRL (chIx n c) d 0xFFFFFFFF#32) b = bitOf d b := by
    rw [bitOf_plainWord _ _ _ _ _ hb, rwOf_pmCtrl, if_pos hrw]
    simp [bitOf, Reg.row]
  unfold pmCtrlStored
  dsimp only
  split
  · rw [bitOf_putBit _ _ _ _ (by decide), if_neg h0, bitOf_ite_putFld_ne _ _ _ _ _ _ hb (by omega),
      bitOf_ite_putFld_ne _ _ _ _ _ _ hb (by omega), hplain]
  · rw [bitOf_ite_putFld_ne _ _ _ _ _ _ hb (by omega), bitOf_ite_putFld_ne _ _ _ _ _ _ hb (by omega), hplain]

/-- EN is as written where nothing holds the channel safe; elsewhere it can only go to 0. -/
theorem pmCtrlStored_en : bitOf (pmCtrlStored s n c d) 0 = (bitOf d 0 && (!heldSafe s n c || pmEn s n c)) := by
  have hplain : bitOf (plainWord s .CH_PM_CTRL (chIx n c) d 0xFFFFFFFF#32) 0 = bitOf d 0 := by
    rw [bitOf_plainWord _ _ _ _ _ (by decide), rwOf_pmCtrl]
    simp [bitOf, Reg.row]
  unfold pmCtrlStored pmEn State.rb
  dsimp only
  rw [apply_ite (bitOf · 0), bitOf_putBit _ _ _ _ (by decide), if_pos rfl,
    bitOf_ite_putFld_ne _ _ _ _ _ _ (by decide) (by omega), bitOf_ite_putFld_ne _ _ _ _ _ _ (by decide) (by omega), hplain]
  cases heldSafe s n c <;> simp

/-- A field above EN passes the channel's being held safe. -/
theorem fld_ite_putBit_zero (w : Word) (b p : Bool) {lo len : Nat} (hlo : 0 < lo) :
    fld (if p then putBit w 0 b else w) lo len = fld w lo len := by
  split
  · exact fld_putBit_ne _ _ _ _ _ (by decide) (.inl hlo)
  · rfl

theorem pmCtrlStored_range : fld (pmCtrlStored s n c d) 6 3 = if 5 ≤ fld d 6 3 then 0 else fld d 6 3 := by
  unfold pmCtrlStored
  dsimp only
  rw [fld_ite_putBit_zero _ _ _ (by decide), fld_ite_putFld_ne _ _ _ _ _ _ _ (by decide) (by omega),
    fld_ite_putFld _ _ _ _ _ (by decide) (by decide),
    fld_plainWord _ _ _ _ _ _ (by decide) (by rw [rwOf_pmCtrl]; decide) (by decide)]

theorem pmCtrlStored_mmode : fld (pmCtrlStored s n c d) 4 2 = if fld d 4 2 = 3 then 0 else fld d 4 2 := by
  unfold pmCtrlStored
  dsimp only
  rw [fld_ite_putBit_zero _ _ _ (by decide), fld_ite_putFld _ _ _ _ _ (by decide) (by decide),
    fld_ite_putFld_ne _ _ _ _ _ _ _ (by decide) (by omega),
    fld_plainWord _ _ _ _ _ _ (by decide) (by rw [rwOf_pmCtrl]; decide) (by decide)]

theorem pmCtrlStored_ref : fld (pmCtrlStored s n c d) 9 2 = fld d 9 2 := by
  unfold pmCtrlStored
  dsimp only
  rw [fld_ite_putBit_zero _ _ _ (by decide), fld_ite_putFld_ne _ _ _ _ _ _ _ (by decide) (by omega),
    fld_ite_putFld_ne _ _ _ _ _ _ _ (by decide) (by omega),
    fld_plainWord _ _ _ _ _ _ (by decide) (by rw [rwOf_pmCtrl]; decide) (by decide)]

/-! What follows the word w where `old` stood: the measurement, the range, the grid, the clamps. -/

/-- The words differ in RANGE, FMODE, MMODE or EN. -/
abbrev pmCtrlDiffers (old w : Word) : Prop := (old ^^^ w) &&& 0x1F9#32 ≠ 0#32

/-- The measurement in progress ends where they differ. -/
def measFollowed (n : Cluster) (c : Channel) (old w : Word) (s : State) : State :=
  if pmCtrlDiffers old w then endMeas n c s else s

/-- The codes follow a change of RANGE, which happens at Clasp time x. -/
def rangeFollowed (n : Cluster) (c : Channel) (old w : Word) (x : Nat) (s : State) : State :=
  if fld old 6 3 ≠ fld w 6 3 then
    (changeRange n c (fld old 6 3) (fld w 6 3) s).modChan n c fun y => { y with rangeAt := x }
  else s

/-- The grid of conversions begins as MMODE leaves 0, at Clasp time x. -/
def gridFollowed (n : Cluster) (c : Channel) (old w : Word) (x : Nat) (s : State) : State :=
  if fld old 4 2 = 0 ∧ fld w 4 2 ≠ 0 then
    (s.setRb .CH_PM_SAMPLE (chIx n c) 31 false).modChan n c fun y => { y with grid := nextMeas x }
  else s

/-- The clamp status goes out with the loop, or with a change of FMODE. -/
def clampFollowed (n : Cluster) (c : Channel) (old w : Word) (s : State) : State :=
  if !bitOf w 0 ∨ bitOf old 3 ≠ bitOf w 3 then clearClamp n c s else s

/-- CH_PM_CTRL takes the word w, and all that follows. -/
def pmCtrlApply (n : Cluster) (c : Channel) (w : Word) (s : State) : State :=
  let old := s.reg .CH_PM_CTRL (chIx n c)
  clampFollowed n c old w (gridFollowed n c old w s.clasp (rangeFollowed n c old w s.clasp
    ((measFollowed n c old w s).setReg .CH_PM_CTRL (chIx n c) w)))

/-- START then starts a measurement, as the Governor and calibration let it. -/
theorem pmCtrlWrite_eq : pmCtrlWrite false n c d 0xFFFFFFFF#32 s =
    if bitOf d 11 then startLevel n 4 c.val (startMeas n c none) (pmCtrlApply n c (pmCtrlStored s n c d) s)
    else pmCtrlApply n c (pmCtrlStored s n c d) s := by
  unfold pmCtrlWrite
  dsimp only
  rw [ones_full, Bool.not_false, Bool.and_true]
  rfl

theorem pmCtrlWrite_not_start (h : bitOf d 11 = false) :
    pmCtrlWrite false n c d 0xFFFFFFFF#32 s = pmCtrlApply n c (pmCtrlStored s n c d) s := by
  rw [pmCtrlWrite_eq, if_neg (by simp [h])]

/-! The registers. -/

/-- The registers of the unit that a change of CH_PM_CTRL may change beside it. -/
def pmFollowRegs : List Reg := [.CH_PM_FI, .CH_PM_ICLH, .CH_PM_ICLL, .CH_PM_STAT, .CH_PM_SAMPLE, .CH_EVT]

theorem measFollowed_reg (r : Reg) (i : Nat) : (measFollowed n c old w s).reg r i = s.reg r i := by
  unfold measFollowed; split
  · exact endMeas_reg ..
  · rfl

theorem changeRange_reg {a b : Nat} {r : Reg} {i : Nat} (h : r ∉ pmFollowRegs) :
    (changeRange n c a b s).reg r i = s.reg r i := by
  simp only [pmFollowRegs, List.mem_cons, not_or] at h
  obtain ⟨hfi, hh, hl, hstat, -, hevt, -⟩ := h
  unfold changeRange
  dsimp only
  split <;> simp [State.reg_setRb, State.reg_setRf, hfi, hh, hl, hstat, hevt]

theorem rangeFollowed_reg {x : Nat} {r : Reg} {i : Nat} (h : r ∉ pmFollowRegs) :
    (rangeFollowed n c old w x s).reg r i = s.reg r i := by
  unfold rangeFollowed; split
  · rw [State.reg_modChan, changeRange_reg h]
  · rfl

theorem gridFollowed_reg {x : Nat} {r : Reg} {i : Nat} (h : r ≠ .CH_PM_SAMPLE) :
    (gridFollowed n c old w x s).reg r i = s.reg r i := by
  unfold gridFollowed; split
  · rw [State.reg_modChan, State.reg_setRb, if_neg fun e => h e.1]
  · rfl

theorem clampFollowed_reg {r : Reg} {i : Nat} (h : r ≠ .CH_PM_STAT) :
    (clampFollowed n c old w s).reg r i = s.reg r i := by
  unfold clampFollowed clearClamp; split
  · rw [State.reg_setRf, if_neg fun e => h e.1]
  · rfl

theorem pmCtrlApply_reg {r : Reg} {i : Nat} (h : r ∉ pmFollowRegs) :
    (pmCtrlApply n c w s).reg r i = if r = .CH_PM_CTRL ∧ i = chIx n c then w else s.reg r i := by
  unfold pmCtrlApply
  dsimp only
  rw [clampFollowed_reg (by rintro rfl; exact h (by decide)), gridFollowed_reg (by rintro rfl; exact h (by decide)), rangeFollowed_reg h,
    State.reg_setReg, measFollowed_reg]

/-! The channel. -/

theorem measFollowed_chan : ((measFollowed n c old w s).chan n c).sw = (s.chan n c).sw ∧
    ((measFollowed n c old w s).chan n c).meas = if pmCtrlDiffers old w then none else (s.chan n c).meas := by
  unfold measFollowed
  split
  · rw [endMeas_chan]; exact ⟨rfl, rfl⟩
  · exact ⟨rfl, rfl⟩

@[simp] theorem changeRange_chan {a b : Nat} : (changeRange n c a b s).chan n c = s.chan n c :=
  (changeRange_upd (K := 0) (C := fun _ _ => True) (Upd.refl (s := s)) (Nat.or_self _) trivial).chan_eq (Nat.zero_testBit _)

theorem rangeFollowed_chan {x : Nat} : ((rangeFollowed n c old w x s).chan n c).sw = (s.chan n c).sw ∧
    ((rangeFollowed n c old w x s).chan n c).meas = (s.chan n c).meas := by
  unfold rangeFollowed
  split
  · rw [State.chan_modChan, changeRange_chan]; exact ⟨rfl, rfl⟩
  · exact ⟨rfl, rfl⟩

theorem gridFollowed_chan {x : Nat} : ((gridFollowed n c old w x s).chan n c).sw = (s.chan n c).sw ∧
    ((gridFollowed n c old w x s).chan n c).meas = (s.chan n c).meas := by
  unfold gridFollowed
  split
  · rw [State.chan_modChan, State.chan_setRb]; exact ⟨rfl, rfl⟩
  · exact ⟨rfl, rfl⟩

theorem clampFollowed_chan : (clampFollowed n c old w s).chan n c = s.chan n c := by
  unfold clampFollowed; split <;> rfl

/-- The measurement is over where the words differ in RANGE, FMODE, MMODE or EN; the switch is as it was. -/
theorem pmCtrlApply_chan : ((pmCtrlApply n c w s).chan n c).sw = (s.chan n c).sw ∧
    ((pmCtrlApply n c w s).chan n c).meas =
      if pmCtrlDiffers (s.reg .CH_PM_CTRL (chIx n c)) w then none else (s.chan n c).meas := by
  unfold pmCtrlApply
  dsimp only
  rw [clampFollowed_chan]
  exact ⟨gridFollowed_chan.1.trans (rangeFollowed_chan.1.trans measFollowed_chan.1),
    gridFollowed_chan.2.trans (rangeFollowed_chan.2.trans measFollowed_chan.2)⟩

theorem measFollowed_clasp : (measFollowed n c old w s).clasp = s.clasp := by
  unfold measFollowed; split
  · exact endMeas_clasp
  · rfl
theorem changeRange_clasp {a b : Nat} : (changeRange n c a b s).clasp = s.clasp :=
  (changeRange_upd (K := 0) (C := fun _ _ => True) (Upd.refl (s := s)) (Nat.or_self _) trivial).clasp_eq (Nat.zero_testBit _)
theorem rangeFollowed_clasp {x : Nat} : (rangeFollowed n c old w x s).clasp = s.clasp := by
  unfold rangeFollowed; split
  · exact changeRange_clasp
  · rfl
theorem gridFollowed_clasp {x : Nat} : (gridFollowed n c old w x s).clasp = s.clasp := by
  unfold gridFollowed; split <;> rfl
theorem clampFollowed_clasp : (clampFollowed n c old w s).clasp = s.clasp := by unfold clampFollowed; split <;> rfl

theorem pmCtrlApply_clasp : (pmCtrlApply n c w s).clasp = s.clasp := by
  unfold pmCtrlApply
  dsimp only
  rw [clampFollowed_clasp, gridFollowed_clasp, rangeFollowed_clasp]
  exact measFollowed_clasp

/-! A change of RANGE (R86, R87). -/

/-- FI and the current clamps take their rescaled codes, RANGE_SETTLING is set. -/
theorem changeRange_words {a b : Nat} :
    (changeRange n c a b s).reg .CH_PM_FI (chIx n c) = putFld (s.reg .CH_PM_FI (chIx n c)) 0 20
      (unsigned 20 (rescale (-500000) 500000 (signed 20 (s.rf .CH_PM_FI (chIx n c) 0 20)) a b)) ∧
    (changeRange n c a b s).reg .CH_PM_ICLH (chIx n c) = putFld (s.reg .CH_PM_ICLH (chIx n c)) 0 19
      (rescale 0 500000 (s.rf .CH_PM_ICLH (chIx n c) 0 19 : Nat) a b).toNat ∧
    (changeRange n c a b s).reg .CH_PM_ICLL (chIx n c) = putFld (s.reg .CH_PM_ICLL (chIx n c)) 0 19
      (rescale 0 500000 (s.rf .CH_PM_ICLL (chIx n c) 0 19 : Nat) a b).toNat ∧
    (changeRange n c a b s).reg .CH_PM_STAT (chIx n c) = putBit (s.reg .CH_PM_STAT (chIx n c)) 4 true := by
  unfold changeRange
  dsimp only
  refine ⟨?_, ?_, ?_, ?_⟩ <;> split <;> simp [State.rf, State.reg_setRb, State.reg_setRf]

/-- A code limited to its range is what it is read back as. -/
theorem signed_rescale {k : Int} {a b : Nat} {w : Word} :
    signed 20 (fld (putFld w 0 20 (unsigned 20 (rescale (-500000) 500000 k a b))) 0 20) = rescale (-500000) 500000 k a b := by
  have hmem := clampInt_mem (x := roundAway (k * (stepPa a : Int)) (stepPa b)) (show (-500000 : Int) ≤ 500000 by decide)
  rw [fld_putFld_same _ _ _ _ (by decide), Nat.mod_eq_of_lt unsigned_lt]
  refine signed_unsigned (by decide) ?_ ?_ <;> unfold rescale <;> omega

theorem toNat_rescale {k : Int} {a b : Nat} {w : Word} :
    ((fld (putFld w 0 19 (rescale 0 500000 k a b).toNat) 0 19 : Nat) : Int) = rescale 0 500000 k a b := by
  have hmem := clampInt_mem (x := roundAway (k * (stepPa a : Int)) (stepPa b)) (show (0 : Int) ≤ 500000 by decide)
  rw [fld_putFld_same _ _ _ _ (by decide), Nat.mod_eq_of_lt (by unfold rescale; omega)]
  unfold rescale
  omega

/-- With another RANGE in w, the current codes are rescaled and RANGE_SETTLING is 1. -/
theorem pmCtrlApply_range {a b : Nat} (ha : rangeOf s n c = a) (hb : fld w 6 3 = b) (h : a ≠ b) :
    signed 20 ((pmCtrlApply n c w s).rf .CH_PM_FI (chIx n c) 0 20) =
      rescale (-500000) 500000 (signed 20 (s.rf .CH_PM_FI (chIx n c) 0 20)) a b ∧
    ((pmCtrlApply n c w s).rf .CH_PM_ICLH (chIx n c) 0 19 : Int) =
      rescale 0 500000 (s.rf .CH_PM_ICLH (chIx n c) 0 19 : Nat) a b ∧
    ((pmCtrlApply n c w s).rf .CH_PM_ICLL (chIx n c) 0 19 : Int) =
      rescale 0 500000 (s.rf .CH_PM_ICLL (chIx n c) 0 19 : Nat) a b ∧
    (pmCtrlApply n c w s).rb .CH_PM_STAT (chIx n c) 4 = true := by
  have hold : fld (s.reg .CH_PM_CTRL (chIx n c)) 6 3 = a := ha
  obtain ⟨hfi, hh, hl, hstat⟩ := changeRange_words (n := n) (c := c) (a := a) (b := b)
    (s := (measFollowed n c (s.reg .CH_PM_CTRL (chIx n c)) w s).setReg .CH_PM_CTRL (chIx n c) w)
  have hpast : ∀ {r}, r ≠ .CH_PM_STAT → r ≠ .CH_PM_SAMPLE → (pmCtrlApply n c w s).reg r (chIx n c) =
      (changeRange n c a b ((measFollowed n c (s.reg .CH_PM_CTRL (chIx n c)) w s).setReg .CH_PM_CTRL (chIx n c) w)).reg r
        (chIx n c) := fun h1 h2 => by
    unfold pmCtrlApply
    dsimp only
    rw [clampFollowed_reg h1, gridFollowed_reg h2, rangeFollowed, hold, hb, if_pos h, State.reg_modChan]
  simp only [State.rf, State.reg_setReg, measFollowed_reg] at hfi hh hl
  refine ⟨?_, ?_, ?_, ?_⟩
  · rw [State.rf, hpast (by decide) (by decide), hfi]
    exact signed_rescale
  · rw [State.rf, hpast (by decide) (by decide), hh]
    exact toNat_rescale
  · rw [State.rf, hpast (by decide) (by decide), hl]
    exact toNat_rescale
  · have hclamp : ∀ {x : State}, (clampFollowed n c (s.reg .CH_PM_CTRL (chIx n c)) w x).rb .CH_PM_STAT (chIx n c) 4 =
        x.rb .CH_PM_STAT (chIx n c) 4 := by
      intro x
      unfold clampFollowed clearClamp; split
      · rw [State.rb, State.reg_setRf, if_pos ⟨rfl, rfl⟩, bitOf_putFld _ _ _ _ _ (by decide), if_neg (by decide)]; rfl
      · rfl
    unfold pmCtrlApply
    dsimp only
    rw [hclamp, State.rb, gridFollowed_reg (by decide), rangeFollowed, hold, hb, if_pos h, State.reg_modChan, hstat,
      bitOf_putBit _ _ _ _ (by decide), if_pos rfl]

/-! A start of a measurement leaves CH_PM_CTRL and the switch as they are. -/

/-- What the calibration bus passing to another check changes of a channel. -/
theorem busPass_chan : ∃ k, (busPass n s).chan n c = { s.chan n c with selfchk := k } := by
  unfold busPass
  split
  · exact ⟨_, rfl⟩
  · split
    next c' _ =>
      rw [State.modChan, State.chan_setChan]
      by_cases h : c = c'
      · subst h; exact ⟨_, if_pos ⟨rfl, rfl⟩⟩
      · exact ⟨(s.chan n c).selfchk, if_neg fun e => h e.2⟩
    · exact ⟨_, rfl⟩

theorem calAbandon_chan : ∃ k, (calAbandon n s).chan n c = { s.chan n c with selfchk := k } := by
  unfold calAbandon
  split
  · refine busPass_chan.imp fun k hk => hk.trans ?_
    rw [State.chan_setCalSt, State.chan_setRb, State.chan_setRb]
  · exact ⟨(s.chan n c).selfchk, rfl⟩

theorem calAbandon_only : Only [.chans, .cal] [.CL_CAL_STAT, .CL_CAL_EVT] s (calAbandon n s) :=
  ((calAbandon_upd (C := fun _ _ => True) (Upd.refl (s := s)) (Nat.or_self _) (Nat.or_self _) fun _ => trivial).frame
    (by decide +kernel) (by decide +kernel)).1

theorem startMeas_sw {tok : Option MstTok} : ((startMeas n c tok s).chan n c).sw = (s.chan n c).sw := by
  unfold startMeas; split
  · rfl
  · rw [State.chan_modChan]

/-- A START as the Governor and calibration let it act (R445, R456, R457, R477). -/
def measStart (n : Cluster) (c : Channel) (s : State) : State := startLevel n 4 c.val (startMeas n c none) s

theorem measStart_reg {r : Reg} {i : Nat} (h : r ∉ [.CL_CAL_STAT, .CL_CAL_EVT]) : (measStart n c s).reg r i = s.reg r i :=
  ((startLevel_upd (C := fun _ _ => True) (fun _ h => startMeas_upd h (by decide) trivial) (Upd.refl (s := s))
    (Nat.or_self _) (Nat.or_self _) fun _ => trivial).frame (KL := [.chans, .cal]) (by decide +kernel)
    (by decide +kernel)).1.regs r i h

theorem measStart_sw : ((measStart n c s).chan n c).sw = (s.chan n c).sw := by
  unfold measStart startLevel startOr
  split
  · rfl
  · split
    · rfl
    · obtain ⟨k, hk⟩ := calAbandon_chan (s := s) (n := n) (c := c)
      rw [startMeas_sw, hk]

/-! The whole write. -/

/-- CH_PM_CTRL has been written d, at the moment of a command. -/
def pmCtrlWritten (n : Cluster) (c : Channel) (d : Word) (s : State) : State :=
  ungate n.val (pmCtrlWrite false n c d 0xFFFFFFFF#32 s)

/-- The registers that it may change. -/
def pmCtrlRegs : List Reg :=
  [.CH_PM_CTRL, .CH_PM_FI, .CH_PM_ICLH, .CH_PM_ICLL, .CH_PM_STAT, .CH_PM_SAMPLE, .CH_EVT, .CL_CAL_STAT, .CL_CAL_EVT,
    .PWR_CLU_GATE]

theorem pmCtrlWritten_frame {t : Nat} (d : Word) :
    Frame [.clasp, .chans, .cal] pmCtrlRegs (atCluster n) s (pmCtrlWritten n c d (s.at t)) :=
  (cmdWrite_frame (pmCtrlWrite_upd (C := atCluster n) Upd.refl (Nat.or_self _) (Nat.or_self _) fun _ => rfl)).frame
    (by decide +kernel) (by decide +kernel)

theorem pmCtrlWritten_ctrl : (pmCtrlWritten n c d s).reg .CH_PM_CTRL (chIx n c) = pmCtrlStored s n c d := by
  rw [pmCtrlWritten, ungate_reg (by decide), pmCtrlWrite_eq]
  split
  · refine (measStart_reg (by decide)).trans ?_
    rw [pmCtrlApply_reg (by decide), if_pos ⟨rfl, rfl⟩]
  · rw [pmCtrlApply_reg (by decide), if_pos ⟨rfl, rfl⟩]

theorem pmCtrlWritten_sw : ((pmCtrlWritten n c d s).chan n c).sw = (s.chan n c).sw := by
  rw [pmCtrlWritten, ungate_chan, pmCtrlWrite_eq]
  split
  · exact measStart_sw.trans pmCtrlApply_chan.1
  · exact pmCtrlApply_chan.1

/-- Without START the write is what follows its word. -/
theorem pmCtrlWritten_not_start (h : bitOf d 11 = false) :
    pmCtrlWritten n c d s = ungate n.val (pmCtrlApply n c (pmCtrlStored s n c d) s) := by
  rw [pmCtrlWritten, pmCtrlWrite_not_start h]

theorem pmCtrlWritten_meas (h : bitOf d 11 = false)
    (hdiff : pmCtrlDiffers (s.reg .CH_PM_CTRL (chIx n c)) (pmCtrlStored s n c d)) :
    ((pmCtrlWritten n c d s).chan n c).meas = none := by
  rw [pmCtrlWritten_not_start h, ungate_chan, pmCtrlApply_chan.2, if_pos hdiff]

end Sys2Proof.Machine
end

section
/-! ### Settings within the budget (R81 to R90, R103 to R105) -/

namespace Sys2Proof.Machine

variable {s : State} {n : Cluster} {c : Channel} {d : Word} {q : Req}

/-! The budget (R105). -/

/-- The resource of a channel's register is the channel. -/
theorem resOf_chanCmdRegs {r : Reg} (hm : r ∈ chanCmdRegs) : resOf r (chIx n c) = some (0, c.val) := by
  have hbase : r.row.cluster = true ∧ 0x1000 ≤ r.row.base ∧ r.row.base < 0x1080 := by revert r; decide
  have hc : chIx n c % 32 = c.val := by unfold chIx; omega
  unfold resOf
  dsimp only
  rw [if_neg (by simp [hbase.1]), if_pos hbase.2, hc]

theorem chIx_lt_size {r : Reg} (hclu : r.row.cluster = true) (hcount : r.row.count = 32) : chIx n c < r.size := by
  unfold Reg.size chIx; rw [if_pos hclu, hcount]; omega

/-- A write of a channel's register that was performed has raised no claim above its budget. -/
theorem Accepted.inBudget {r : Reg} (hm : r ∈ chanCmdRegs) (h : Accepted q r (chIx n c) d s) :
    overBudget s (ungate n.val (chanWrite false r n c d 0xFFFFFFFF#32 s)) n = false := by
  obtain ⟨hcmd, hclu, hcount⟩ := chanCmdRegs_row hm
  have hsize : chIx n c < r.size := chIx_lt_size hclu hcount
  have hof : r.cluOf (chIx n c) = n.val := by unfold Reg.cluOf chIx; rw [hcount]; omega
  obtain ⟨hwindow, hclus, -⟩ := addr_window hcmd hclu hsize
  have hput := regPut_cluster (q := q) (w := d) (m := 0xFFFFFFFF#32) (regAt_addr hcmd hsize) hwindow (hclus.trans hof)
    (hof ▸ h.running hclu)
  rw [cluPut_chan hm, elemCh_chIx] at hput
  have htouched : touched (r.addr (chIx n c)) = some (n, some (0, c.val)) := by
    have hpad : padClu ((r.addr (chIx n c) - 0x1000000) / 0x100000, 0) = n :=
      Fin.ext (by rw [hclus.trans hof]; exact Nat.mod_eq_of_lt n.isLt)
    unfold touched
    rw [if_pos hwindow, hpad, regAt_addr hcmd hsize]
    exact congrArg (fun x => some (n, x)) (resOf_chanCmdRegs hm)
  have hdone := h.done
  unfold regWrite at hdone
  rw [hput, htouched] at hdone
  dsimp only at hdone
  split at hdone
  · cases hdone
  · split at hdone
    · cases hdone
    next hbudget => exact Bool.eq_false_of_not_eq_true fun hover => hbudget ⟨rfl, hover⟩

/-- The claims do not depend on the Clasp time. -/
theorem overBudget_at {t : Nat} {s' : State} : overBudget (s.at t) s' n = overBudget s s' n := by
  rw [State.at_eq]; rfl

/-- Neither claim is above its budget and higher than it was. -/
theorem claims_of_not_overBudget {s' : State} (h : overBudget s s' n = false) :
    (cluIClaim s n < cluIClaim s' n → cluIClaim s' n ≤ (s.reg .CL_PM_IBUD n.val).toNat) ∧
    (cluPClaim s n < cluPClaim s' n → cluPClaim s' n ≤ (s.reg .CL_PM_PBUD n.val).toNat) := by
  simpa [overBudget] using h

/-! The loop on and off, and RANGE (R83, R86, R87). -/

/-- The loop acts where EN is set and the switch is closed. -/
theorem pmCtrlWritten_loop : pmEn (pmCtrlWritten n c d s) n c = bitOf (pmCtrlStored s n c d) 0 ∧
    loopOn (pmCtrlWritten n c d s) n c = (bitOf (pmCtrlStored s n c d) 0 && swClosed s n c) := by
  have hen : pmEn (pmCtrlWritten n c d s) n c = bitOf (pmCtrlStored s n c d) 0 := by
    rw [pmEn, State.rb, pmCtrlWritten_ctrl]
  have hctrl : (pmCtrlWritten n c d s).reg .CH_CTRL (chIx n c) = s.reg .CH_CTRL (chIx n c) := by
    rw [pmCtrlWritten, ungate_reg (by decide), pmCtrlWrite_eq]
    split
    · refine (measStart_reg (by decide)).trans ?_
      rw [pmCtrlApply_reg (by decide), if_neg (by simp)]
    · rw [pmCtrlApply_reg (by decide), if_neg (by simp)]
  refine ⟨hen, ?_⟩
  rw [loopOn, hen, swClosed, State.rb, hctrl, pmCtrlWritten_sw]
  rfl

theorem swClosed_at {t : Nat} : swClosed (s.at t) n c = swClosed s n c := by
  unfold swClosed; rw [State.rb_at, State.chan_at]

theorem execPmForceEnable_accepted {t : Nat} {r : Req} (h : Accepted r .CH_PM_CTRL (chIx n c) d (s.at t)) :
    execPmForceEnable t r n c d s = .next (pmCtrlWritten n c d (s.at t)) :=
  congrArg Host.Outcome.next (cmdWrite_chan_plain (by decide) h)

theorem execPmRangeChange_accepted {t : Nat} {r : Req} (h : Accepted r .CH_PM_CTRL (chIx n c) d (s.at t)) :
    execPmRangeChange t r n c d s = .next (pmCtrlWritten n c d (s.at t)) :=
  congrArg Host.Outcome.next (cmdWrite_chan_plain (by decide) h)

theorem pmForceEnable_on_holds {t : Nat} {r : Req} (hacc : Accepted r .CH_PM_CTRL (chIx n c) d (s.at t))
    (hd : bitOf d 0 = true) (hheld : heldSafe (s.at t) n c = false) :
    ∃ s', exec (.pmForceEnable t r n c d) s = .next s' ∧ pmEn s' n c = true ∧ loopOn s' n c = swClosed s n c ∧
      (cluIClaim s n < cluIClaim s' n → cluIClaim s' n ≤ (s.reg .CL_PM_IBUD n.val).toNat) ∧
      (cluPClaim s n < cluPClaim s' n → cluPClaim s' n ≤ (s.reg .CL_PM_PBUD n.val).toNat) ∧
      Frame [.clasp, .chans, .cal] pmCtrlRegs (atCluster n) s s' := by
  have hen : bitOf (pmCtrlStored (s.at t) n c d) 0 = true := by rw [pmCtrlStored_en, hd, hheld]; rfl
  obtain ⟨hpm, hloop⟩ := pmCtrlWritten_loop (s := s.at t) (n := n) (c := c) (d := d)
  obtain ⟨hi, hp⟩ := claims_of_not_overBudget (overBudget_at.symm.trans (hacc.inBudget (by decide)))
  refine ⟨_, execPmForceEnable_accepted hacc, hpm.trans hen, ?_, hi, hp, pmCtrlWritten_frame d⟩
  rw [hloop, hen, swClosed_at, Bool.true_and]

theorem pmForceEnable_off_holds {t : Nat} {r : Req} (hacc : Accepted r .CH_PM_CTRL (chIx n c) d (s.at t))
    (hd : bitOf d 0 = false) (hstart : bitOf d 11 = false) :
    ∃ s', exec (.pmForceEnable t r n c d) s = .next s' ∧ pmEn s' n c = false ∧ loopOn s' n c = false ∧
      (pmEn s n c = true → (s'.chan n c).meas = none) ∧
      Frame [.clasp, .chans, .cal] pmCtrlRegs (atCluster n) s s' := by
  have hen : bitOf (pmCtrlStored (s.at t) n c d) 0 = false := by rw [pmCtrlStored_en, hd]; rfl
  obtain ⟨hpm, hloop⟩ := pmCtrlWritten_loop (s := s.at t) (n := n) (c := c) (d := d)
  refine ⟨_, execPmForceEnable_accepted hacc, hpm.trans hen, ?_, fun hwas => ?_, pmCtrlWritten_frame d⟩
  · rw [hloop, hen, Bool.false_and]
  · refine pmCtrlWritten_meas hstart (differ_of_bitOf (i := 0) (by decide) (by decide) ?_)
    have hwas' : bitOf ((s.at t).reg .CH_PM_CTRL (chIx n c)) 0 = true := by rw [State.reg_at]; exact hwas
    rw [hen, hwas']; decide

theorem pmRangeChange_holds {t : Nat} {r : Req} (hacc : Accepted r .CH_PM_CTRL (chIx n c) d (s.at t))
    (h5 : fld d 6 3 < 5) (hne : fld d 6 3 ≠ rangeOf s n c) (hstart : bitOf d 11 = false) :
    let old := stepPa (rangeOf s n c)
    let new := stepPa (fld d 6 3)
    ∃ s', exec (.pmRangeChange t r n c d) s = .next s' ∧ rangeOf s' n c = fld d 6 3 ∧
      signed 20 (s'.rf .CH_PM_FI (chIx n c) 0 20) =
        clampInt (-500000) 500000 (roundAway (signed 20 (s.rf .CH_PM_FI (chIx n c) 0 20) * old) new) ∧
      (s'.rf .CH_PM_ICLH (chIx n c) 0 19 : Int) =
        clampInt 0 500000 (roundAway ((s.rf .CH_PM_ICLH (chIx n c) 0 19 : Nat) * old) new) ∧
      (s'.rf .CH_PM_ICLL (chIx n c) 0 19 : Int) =
        clampInt 0 500000 (roundAway ((s.rf .CH_PM_ICLL (chIx n c) 0 19 : Nat) * old) new) ∧
      s'.rb .CH_PM_STAT (chIx n c) 4 = true ∧ measBusy s' n c = false ∧
      Frame [.clasp, .chans, .cal] pmCtrlRegs (atCluster n) s s' := by
  intro old new
  have hrange : fld (pmCtrlStored (s.at t) n c d) 6 3 = fld d 6 3 := by rw [pmCtrlStored_range, if_neg (by omega)]
  have hold : rangeOf (s.at t) n c = rangeOf s n c := State.rf_at ..
  have hdiff : pmCtrlDiffers ((s.at t).reg .CH_PM_CTRL (chIx n c)) (pmCtrlStored (s.at t) n c d) := fun hagree =>
    hne (hrange.symm.trans ((fld_eq_of_agree hagree (by decide) (by decide)).symm.trans hold))
  obtain ⟨hfi, hh, hl, hstat⟩ := pmCtrlApply_range hold hrange hne.symm
  simp only [State.rf_at] at hfi hh hl
  have hnot := pmCtrlWritten_not_start (s := s.at t) (n := n) (c := c) hstart
  refine ⟨_, execPmRangeChange_accepted hacc, ?_, ?_, ?_, ?_, ?_, ?_, pmCtrlWritten_frame d⟩
  · rw [rangeOf, State.rf, pmCtrlWritten_ctrl, hrange]
  · rw [hnot, ungate_rf (by decide), hfi]; rfl
  · rw [hnot, ungate_rf (by decide), hh]; rfl
  · rw [hnot, ungate_rf (by decide), hl]; rfl
  · rw [hnot, ungate_rb (by decide), hstat]
  · rw [measBusy, pmCtrlWritten_meas hstart hdiff, Option.isSome_none]

theorem pmRangeSettled_holds {t : Nat} (hset : s.rb .CH_PM_STAT (chIx n c) 4 = true)
    (hdue : (s.chan n c).rangeAt + 160000 ≤ (s.at t).clasp) :
    ∃ s', exec (.pmRangeSettled t n c) s = .next s' ∧
      s'.reg .CH_PM_STAT (chIx n c) = putBit (s.reg .CH_PM_STAT (chIx n c)) 4 false ∧
      Frame [.clasp, .chans] [.CH_PM_STAT] (atChannel n c) s s' := by
  have hexec : execPmRangeSettled t n c s = .next (((s.at t).setRb .CH_PM_STAT (chIx n c) 4 false).modChan n c
      fun x => { x with settledAt := (s.at t).clasp }) := by
    unfold execPmRangeSettled
    dsimp only
    rw [if_pos ⟨(State.rb_at ..).trans hset, by rwa [State.chan_at]⟩]
  have hupd := execPmRangeSettled_upd (t := t) (C := atChannel n c) (Upd.refl (s := s)) (Nat.or_self _) (Nat.or_self _)
    ⟨rfl, rfl⟩
  rw [hexec] at hupd
  refine ⟨_, hexec, ?_, hupd.frame (by decide +kernel) (by decide +kernel)⟩
  rw [State.reg_modChan, State.reg_setRb, if_pos ⟨rfl, rfl⟩, State.reg_at]

/-! Settings (R81, R82, R84, R89, R90). -/

/-- The setting w has been written d, at the moment of a command. -/
def settingWritten (w : PmSetting) (n : Cluster) (c : Channel) (d : Word) (s : State) : State :=
  ungate n.val (chanWrite false (pmSettingReg w) n c d 0xFFFFFFFF#32 s)

theorem pmSettingReg_mem (w : PmSetting) : pmSettingReg w ∈ chanCmdRegs := by cases w <;> decide

theorem execPmSettingWrite_accepted {t : Nat} {r : Req} {w : PmSetting}
    (h : Accepted r (pmSettingReg w) (chIx n c) d (s.at t)) :
    execPmSettingWrite t r n c w d s = .next (settingWritten w n c d (s.at t)) :=
  congrArg Host.Outcome.next (cmdWrite_chan_plain (pmSettingReg_mem w) h)

theorem settingWrite_upd {K R : Nat} {C : Nat → Nat → Prop} {s0 : State} {w : PmSetting} {m : Word} (h : Upd K R C s0 s)
    (hw : w ≠ .ctrl) (hr : R.testBit (pmSettingReg w).ctorIdx = true) (he : R.testBit (Reg.ctorIdx .CH_EVT) = true)
    (hc : C n.val c.val) : Upd K R C s0 (chanWrite false (pmSettingReg w) n c d m s) := by
  have hok : RegOk C (pmSettingReg w) (chIx n c) := RegOk.chan (chanCmdRegs_row (pmSettingReg_mem w)).2.2 hc
  cases w with
  | ctrl => exact absurd rfl hw
  | fv => exact pmCodeWrite_upd h hr hok he hc
  | fi => exact pmCodeWrite_upd h hr hok he hc
  | iclh => exact cappedWrite_upd h hr hok
  | icll => exact cappedWrite_upd h hr hok
  | vclh => exact plainWrite_upd h hr hok
  | vcll => exact plainWrite_upd h hr hok

/-- A code or a clamp changes nothing but its register and, by RANGE_LIM, CH_EVT. -/
theorem settingWritten_upd {t : Nat} {w : PmSetting} (hw : w ≠ .ctrl) :
    Upd 1 (2 ^ (pmSettingReg w).ctorIdx ||| 2 ^ Reg.ctorIdx .CH_EVT ||| 0x800000000000000000000000000000) (atCluster n) s
      (settingWritten w n c d (s.at t)) :=
  cmdWrite_frame (K := 0) (settingWrite_upd Upd.refl hw
    (by rw [Nat.testBit_or, Nat.testBit_two_pow_self, Bool.true_or])
    (by rw [Nat.testBit_or, Nat.testBit_two_pow_self, Bool.or_true]) rfl)

theorem settingWritten_frame {t : Nat} (w : PmSetting) : Frame [.clasp, .chans, .cal]
    (if w = .ctrl then pmCtrlRegs else [pmSettingReg w, .CH_EVT, .PWR_CLU_GATE]) (atCluster n) s
    (settingWritten w n c d (s.at t)) := by
  by_cases hw : w = .ctrl
  · subst hw; exact pmCtrlWritten_frame d
  · have hupd := settingWritten_upd (s := s) (n := n) (c := c) (d := d) (t := t) hw
    rw [if_neg hw]
    revert hupd hw
    cases w <;> intro hw hupd
    case ctrl => exact absurd rfl hw
    all_goals exact hupd.frame (by decide +kernel) (by decide +kernel)

/-! What a setting's register holds. -/

/-- A force code lies outside its range (R81, R82). -/
def codeOutside (r : Reg) (v : Nat) : Prop :=
  if r = .CH_PM_FV then v < 40000 ∨ 840000 < v else signed 20 v < -500000 ∨ 500000 < signed 20 v

theorem plainWrite_same {r : Reg} {i : Nat} {m : Word} : (plainWrite r i d m s).reg r i = plainWord s r i d m :=
  State.reg_setReg_same ..

/-- A force code outside its range sets RANGE_LIM beside the plain write. -/
theorem pmCodeWrite_outside {r : Reg} {m : Word} (h : codeOutside r (fld (plainWord s r (chIx n c) d m) 0 20)) :
    pmCodeWrite r n c d m s = (plainWrite r (chIx n c) d m s).setRb .CH_EVT (chIx n c) 22 true := by
  rw [← plainWrite_same] at h
  exact if_pos h

theorem pmCodeWrite_inside {r : Reg} {m : Word} (h : ¬ codeOutside r (fld (plainWord s r (chIx n c) d m) 0 20)) :
    pmCodeWrite r n c d m s = plainWrite r (chIx n c) d m s := by
  rw [← plainWrite_same] at h
  exact if_neg h

theorem pmCodeWrite_code {r : Reg} (hrw : r.rwOf (chIx n c) &&& maskAt 0 20 = maskAt 0 20)
    (hw1c : r.row.w1c &&& maskAt 0 20 = 0#32) (hr : r ≠ .CH_EVT) :
    (pmCodeWrite r n c d 0xFFFFFFFF#32 s).rf r (chIx n c) 0 20 = fld d 0 20 := by
  have hword : (pmCodeWrite r n c d 0xFFFFFFFF#32 s).reg r (chIx n c) = plainWord s r (chIx n c) d 0xFFFFFFFF#32 := by
    by_cases h : codeOutside r (fld (plainWord s r (chIx n c) d 0xFFFFFFFF#32) 0 20)
    · rw [pmCodeWrite_outside h, State.reg_setRb, if_neg fun e => hr e.1, plainWrite_same]
    · rw [pmCodeWrite_inside h, plainWrite_same]
  rw [State.rf, hword, fld_plainWord _ _ _ _ _ _ (by decide) hrw hw1c]

theorem pmCodeWrite_limited {r : Reg} (hrw : r.rwOf (chIx n c) &&& maskAt 0 20 = maskAt 0 20)
    (hw1c : r.row.w1c &&& maskAt 0 20 = 0#32) (hlim : codeOutside r (fld d 0 20)) :
    (pmCodeWrite r n c d 0xFFFFFFFF#32 s).rb .CH_EVT (chIx n c) 22 = true := by
  rw [← fld_plainWord s _ _ _ _ _ (by decide) hrw hw1c] at hlim
  rw [pmCodeWrite_outside hlim, State.rb_setRb_same _ _ _ _ _ (by decide)]

theorem plainWrite_code {r : Reg} (hrw : r.rwOf (chIx n c) &&& maskAt 0 20 = maskAt 0 20)
    (hw1c : r.row.w1c &&& maskAt 0 20 = 0#32) :
    (plainWrite r (chIx n c) d 0xFFFFFFFF#32 s).rf r (chIx n c) 0 20 = fld d 0 20 := by
  rw [State.rf, plainWrite_same, fld_plainWord _ _ _ _ _ _ (by decide) hrw hw1c]

/-- The bits that the codes and clamps store. -/
theorem rwOf_setting (i : Nat) : Reg.rwOf .CH_PM_FV i = 0xFFFFF#32 ∧ Reg.rwOf .CH_PM_FI i = 0xFFFFF#32 ∧
    Reg.rwOf .CH_PM_ICLH i = 0x7FFFF#32 ∧ Reg.rwOf .CH_PM_ICLL i = 0x7FFFF#32 ∧ Reg.rwOf .CH_PM_VCLH i = 0xFFFFF#32 ∧
    Reg.rwOf .CH_PM_VCLL i = 0xFFFFF#32 := ⟨rfl, rfl, rfl, rfl, rfl, rfl⟩

/-- What R81 to R84, R89 and R90 ask of a setting once d is written. -/
def SettingHolds (w : PmSetting) (n : Cluster) (c : Channel) (d : Word) (s : State) : Prop :=
  match w with
  | .ctrl => s.rb .CH_PM_CTRL (chIx n c) 3 = bitOf d 3 ∧ s.rf .CH_PM_CTRL (chIx n c) 9 2 = fld d 9 2
  | .fv => s.rf .CH_PM_FV (chIx n c) 0 20 = fld d 0 20 ∧
      (fld d 0 20 < 40000 ∨ 840000 < fld d 0 20 → s.rb .CH_EVT (chIx n c) 22 = true)
  | .fi => s.rf .CH_PM_FI (chIx n c) 0 20 = fld d 0 20 ∧
      (signed 20 (fld d 0 20) < -500000 ∨ 500000 < signed 20 (fld d 0 20) → s.rb .CH_EVT (chIx n c) 22 = true)
  | .iclh => s.rf .CH_PM_ICLH (chIx n c) 0 19 = min 500000 (fld d 0 19)
  | .icll => s.rf .CH_PM_ICLL (chIx n c) 0 19 = min 500000 (fld d 0 19)
  | .vclh => s.rf .CH_PM_VCLH (chIx n c) 0 20 = fld d 0 20
  | .vcll => s.rf .CH_PM_VCLL (chIx n c) 0 20 = fld d 0 20

theorem settingWritten_holds (w : PmSetting) : SettingHolds w n c d (settingWritten w n c d s) := by
  obtain ⟨hfv, hfi, hh, hl, hvh, hvl⟩ := rwOf_setting (chIx n c)
  cases w with
  | ctrl =>
    have hword : (settingWritten .ctrl n c d s).reg .CH_PM_CTRL (chIx n c) = pmCtrlStored s n c d := pmCtrlWritten_ctrl
    constructor
    · rw [State.rb, hword, pmCtrlStored_bit (by decide) (by decide) (by decide) (by decide)]
    · rw [State.rf, hword, pmCtrlStored_ref]
  | fv =>
    have hrw : Reg.rwOf .CH_PM_FV (chIx n c) &&& maskAt 0 20 = maskAt 0 20 := by rw [hfv]; decide
    exact ⟨(ungate_rf (by decide)).trans (pmCodeWrite_code hrw (by decide) (by decide)),
      fun hlim => (ungate_rb (by decide)).trans (pmCodeWrite_limited hrw (by decide) hlim)⟩
  | fi =>
    have hrw : Reg.rwOf .CH_PM_FI (chIx n c) &&& maskAt 0 20 = maskAt 0 20 := by rw [hfi]; decide
    exact ⟨(ungate_rf (by decide)).trans (pmCodeWrite_code hrw (by decide) (by decide)),
      fun hlim => (ungate_rb (by decide)).trans (pmCodeWrite_limited hrw (by decide) hlim)⟩
  | iclh =>
    have hrw : Reg.rwOf .CH_PM_ICLH (chIx n c) &&& maskAt 0 19 = maskAt 0 19 := by rw [hh]; decide
    exact (ungate_rf (by decide)).trans (cappedWrite_rf (by decide) (by decide) hrw (by decide))
  | icll =>
    have hrw : Reg.rwOf .CH_PM_ICLL (chIx n c) &&& maskAt 0 19 = maskAt 0 19 := by rw [hl]; decide
    exact (ungate_rf (by decide)).trans (cappedWrite_rf (by decide) (by decide) hrw (by decide))
  | vclh =>
    have hrw : Reg.rwOf .CH_PM_VCLH (chIx n c) &&& maskAt 0 20 = maskAt 0 20 := by rw [hvh]; decide
    exact (ungate_rf (by decide)).trans (plainWrite_code hrw (by decide))
  | vcll =>
    have hrw : Reg.rwOf .CH_PM_VCLL (chIx n c) &&& maskAt 0 20 = maskAt 0 20 := by rw [hvl]; decide
    exact (ungate_rf (by decide)).trans (plainWrite_code hrw (by decide))

/-! A clamp begins to act (R89, R90). -/

theorem pmClampBegin_holds {t : Nat} {volt : Bool} (hloop : loopOn s n c = true) (hmode : fmodeFi s n c = volt) :
    ∃ s', exec (.pmClampBegin t n c volt) s = .next s' ∧
      s'.reg .CH_PM_STAT (chIx n c) = putBit (s.reg .CH_PM_STAT (chIx n c)) (if volt then 3 else 2) true ∧
      s'.reg .CH_EVT (chIx n c) = putBit (s.reg .CH_EVT (chIx n c)) (if volt then 18 else 17) true ∧
      Frame [.clasp, .chans] [.CH_EVT, .CH_PM_STAT] (atChannel n c) s s' := by
  have hguard : loopOn (s.at t) n c = true ∧ fmodeFi (s.at t) n c = volt := by
    constructor
    · rw [loopOn, pmEn, State.rb_at, swClosed_at]; exact hloop
    · rw [fmodeFi, State.rb_at]; exact hmode
  have hexec : execPmClampBegin t n c volt s = .next ((((s.at t).modChan n c fun x => { x with clampAt := (s.at t).clasp }).setRb
      .CH_PM_STAT (chIx n c) (if volt then 3 else 2) true).setRb .CH_EVT (chIx n c) (if volt then 18 else 17) true) := by
    unfold execPmClampBegin
    dsimp only
    rw [if_pos hguard]
  have hupd := execPmClampBegin_upd (t := t) (volt := volt) (C := atChannel n c) (Upd.refl (s := s)) (Nat.or_self _)
    (Nat.or_self _) ⟨rfl, rfl⟩
  rw [hexec] at hupd
  refine ⟨_, hexec, ?_, ?_, hupd.frame (by decide +kernel) (by decide +kernel)⟩
  · rw [State.reg_setRb, if_neg (by simp), State.reg_setRb, if_pos ⟨rfl, rfl⟩, State.reg_modChan, State.reg_at]
  · rw [State.reg_setRb, if_pos ⟨rfl, rfl⟩, State.reg_setRb, if_neg (by simp), State.reg_modChan, State.reg_at]

/-- Settles O13, command by command: CH_PM_CTRL through `pmCtrlWritten`, the other settings through `settingWritten`. -/
theorem parametricSettingsWithinBudget : Obligations.ParametricSettingsWithinBudget := by
  unfold Obligations.ParametricSettingsWithinBudget
  refine ⟨fun t r n c d s hacc hd hheld => pmForceEnable_on_holds hacc hd hheld,
    fun t r n c d s hacc hd hstart => pmForceEnable_off_holds hacc hd hstart,
    fun t r n c d s hacc h5 hne hstart => pmRangeChange_holds hacc h5 hne hstart,
    fun t n c s hset hdue => pmRangeSettled_holds hset hdue, fun t r n c w d s hacc => ?_,
    fun t n c volt s hloop hmode => pmClampBegin_holds hloop hmode⟩
  refine ⟨_, execPmSettingWrite_accepted hacc, settingWritten_holds w,
    overBudget_at.symm.trans (hacc.inBudget (pmSettingReg_mem w)), fun hw => ?_, settingWritten_frame w⟩
  have hupd := settingWritten_upd (s := s) (n := n) (c := c) (d := d) (t := t) hw
  exact ⟨hupd.parts .chans (by decide), hupd.parts .cal (by decide)⟩

end Sys2Proof.Machine
end

section
/-! ### Measurements start (R92, R94, R97) -/

namespace Sys2Proof.Machine

variable {s : State} {n : Cluster} {c : Channel} {d w : Word}

/-- Where neither the Governor nor calibration nor an Assay run holds it, a START ends a calibration step and acts. -/
theorem measStart_acts (hlevel : govLevel s n < 3) (hintr : calIntrOn s n = false) (hasy : asyBusy s n = false) :
    measStart n c s = startMeas n c none (calAbandon n s) := by
  unfold measStart startLevel startOr
  rw [if_neg (by omega), if_neg (by simp [hintr, hasy])]

/-- With a measure mode and none in progress, a measurement starts at the first MEAS edge after now. -/
theorem startMeas_chan {tok : Option MstTok} (hmode : mmodeOf s n c ≠ 0) (hmeas : (s.chan n c).meas = none) :
    (startMeas n c tok s).chan n c = { s.chan n c with
      grid := nextMeas s.clasp, meas := some (newMeas s (chIx n c) (nextMeas s.clasp) (aperDelay s (chIx n c)) tok) } := by
  unfold startMeas
  rw [if_neg (by simp [hmode, hmeas]), State.chan_modChan]

/-- The registers that a write of CH_PM_CTRL leaves as they are. -/
theorem pmCtrlApply_reg_other {r : Reg} {i : Nat} (h : r ∉ .CH_PM_CTRL :: pmFollowRegs) :
    (pmCtrlApply n c w s).reg r i = s.reg r i := by
  rw [List.mem_cons, not_or] at h
  rw [pmCtrlApply_reg h.2, if_neg fun e => h.1 e.1]

theorem govLevel_congr {a b : State} (h : b.reg .GOV_CLU n = a.reg .GOV_CLU n) : govLevel b n = govLevel a n := by
  unfold govLevel State.rf; rw [h]
theorem calIntrOn_congr {a b : State} (h : b.reg .CL_CAL_STAT n = a.reg .CL_CAL_STAT n) : calIntrOn b n = calIntrOn a n := by
  unfold calIntrOn State.rb; rw [h]
theorem asyBusy_congr {a b : State} (h : b.reg .ASY_STAT n = a.reg .ASY_STAT n) : asyBusy b n = asyBusy a n := by
  unfold asyBusy State.rb; rw [h]
theorem newMeas_congr {a b : State} {t0 delay ix : Nat} {tok : Option MstTok}
    (h : b.reg .CH_PM_APER ix = a.reg .CH_PM_APER ix) : newMeas b ix t0 delay tok = newMeas a ix t0 delay tok := by
  unfold newMeas aperN State.rf; rw [h]
theorem aperDelay_congr {a b : State} {ix : Nat} (h : b.reg .CH_PM_APER ix = a.reg .CH_PM_APER ix) :
    aperDelay b ix = aperDelay a ix := by unfold aperDelay State.rf; rw [h]

/-- A START written with a measure mode, where nothing holds starts and no measurement is in progress. -/
theorem pmCtrlWritten_start (h11 : bitOf d 11 = true) (hmode : fld d 4 2 = 1 ∨ fld d 4 2 = 2)
    (hbusy : (s.chan n c).meas = none) (hlevel : govLevel s n < 3) (hintr : calIntrOn s n = false)
    (hasy : asyBusy s n = false) :
    ((pmCtrlWritten n c d s).chan n c).grid = nextMeas s.clasp ∧ ((pmCtrlWritten n c d s).chan n c).meas =
      some (newMeas s (chIx n c) (nextMeas s.clasp) (aperDelay s (chIx n c)) none) := by
  let u := pmCtrlApply n c (pmCtrlStored s n c d) s
  have haband := calAbandon_only (s := u) (n := n)
  have hclasp : (calAbandon n u).clasp = s.clasp := (haband.parts .clasp (by decide)).trans pmCtrlApply_clasp
  have haper : (calAbandon n u).reg .CH_PM_APER (chIx n c) = s.reg .CH_PM_APER (chIx n c) :=
    (haband.regs _ _ (by decide)).trans (pmCtrlApply_reg_other (by decide))
  have hmmode : mmodeOf (calAbandon n u) n c ≠ 0 := by
    rw [mmodeOf, State.rf, haband.regs _ _ (by decide), pmCtrlApply_reg (by decide), if_pos ⟨rfl, rfl⟩, pmCtrlStored_mmode]
    split <;> omega
  have hmeas : ((calAbandon n u).chan n c).meas = none := by
    obtain ⟨k, hk⟩ := calAbandon_chan (s := u) (n := n) (c := c)
    rw [hk]
    exact pmCtrlApply_chan.2.trans (by rw [hbusy, ite_self])
  have hstart : (pmCtrlWritten n c d s).chan n c = (startMeas n c none (calAbandon n u)).chan n c := by
    rw [pmCtrlWritten, ungate_chan, pmCtrlWrite_eq, if_pos h11]
    refine congrArg (State.chan · n c) (measStart_acts (s := u) ?_ ?_ ?_)
    · exact (govLevel_congr (pmCtrlApply_reg_other (by decide))).trans_lt hlevel
    · exact (calIntrOn_congr (pmCtrlApply_reg_other (by decide))).trans hintr
    · exact (asyBusy_congr (pmCtrlApply_reg_other (by decide))).trans hasy
  rw [hstart, startMeas_chan hmmode hmeas, hclasp, newMeas_congr haper, aperDelay_congr haper]
  exact ⟨rfl, rfl⟩

theorem execPmStart_accepted {t : Nat} {r : Req} (h : Accepted r .CH_PM_CTRL (chIx n c) (d ||| 0x800#32) (s.at t)) :
    execPmStart t r n c d s = .next (pmCtrlWritten n c (d ||| 0x800#32) (s.at t)) :=
  congrArg Host.Outcome.next (cmdWrite_chan (by decide) h)

theorem execPmCont_accepted {t : Nat} {r : Req} (h : Accepted r .CH_PM_CTRL (chIx n c) (d ||| 0x1000#32) (s.at t)) :
    execPmCont t r n c d s = .next (pmCtrlWritten n c (d ||| 0x1000#32) (s.at t)) :=
  congrArg Host.Outcome.next (cmdWrite_chan (by decide) h)

theorem pmStart_holds {t : Nat} {r : Req} (hacc : Accepted r .CH_PM_CTRL (chIx n c) (d ||| 0x800#32) (s.at t))
    (hmode : fld d 4 2 = 1 ∨ fld d 4 2 = 2) (hbusy : measBusy s n c = false) (hlevel : govLevel s n < 3)
    (hintr : calIntrOn s n = false) (hasy : asyBusy s n = false) :
    ∃ s', exec (.pmStart t r n c d) s = .next s' ∧ (∃ m, (s'.chan n c).meas = some m ∧
      m.t0 = nextMeas (s.at t).clasp ∧ m.delay = s.rf .CH_PM_APER (chIx n c) 18 10 ∧
      m.need = max 1 (s.rf .CH_PM_APER (chIx n c) 0 18) ∧ m.aper = m.t0 + m.delay * 32000 ∧
      m.tok = none ∧ (s'.chan n c).grid = m.t0) ∧
      measBusy s' n c = true ∧
      Frame [.clasp, .chans, .cal] pmCtrlRegs (atCluster n) s s' := by
  have h11 : bitOf (d ||| 0x800#32) 11 = true := by rw [bitOf_or]; simp [bitOf]
  have hfld : fld (d ||| 0x800#32) 4 2 = fld d 4 2 := fld_or_apart _ _ _ _ (by decide)
  have hnone : ((s.at t).chan n c).meas = none := by
    rw [State.chan_at]; exact Option.isNone_iff_eq_none.1 (Option.isSome_eq_false_iff.1 hbusy)
  obtain ⟨hgrid, hmeas⟩ := pmCtrlWritten_start (s := s.at t) (n := n) (c := c) h11 (by rwa [hfld]) hnone
    ((govLevel_congr (State.reg_at ..)).trans_lt hlevel) ((calIntrOn_congr (State.reg_at ..)).trans hintr)
    ((asyBusy_congr (State.reg_at ..)).trans hasy)
  refine ⟨_, execPmStart_accepted hacc, ⟨_, hmeas, rfl, ?_, ?_, rfl, rfl, hgrid⟩, ?_, pmCtrlWritten_frame _⟩
  · exact State.rf_at ..
  · exact congrArg (max 1) (State.rf_at ..)
  · rw [measBusy, hmeas, Option.isSome_some]

theorem pmCont_holds {t : Nat} {r : Req} (hacc : Accepted r .CH_PM_CTRL (chIx n c) (d ||| 0x1000#32) (s.at t)) :
    ∃ s', exec (.pmCont t r n c d) s = .next s' ∧ s'.rb .CH_PM_CTRL (chIx n c) 12 = true ∧
      Frame [.clasp, .chans, .cal] pmCtrlRegs (atCluster n) s s' := by
  refine ⟨_, execPmCont_accepted hacc, ?_, pmCtrlWritten_frame _⟩
  rw [State.rb, pmCtrlWritten_ctrl, pmCtrlStored_bit (by decide) (by decide) (by decide) (by decide), bitOf_or]
  simp [bitOf]

end Sys2Proof.Machine
end

section
/-! ### Conversions (R92, R93, R97, R98, R543) -/

namespace Sys2Proof.Machine

variable {s : State} {n : Cluster} {c : Channel} {y : Int} {m : Meas}

/-! The sample. -/

/-- A sample is a code of 18 bits. -/
theorem sampleOf_mem {mean : Int} : -131072 ≤ sampleOf s n c mean ∧ sampleOf s n c mean ≤ 131071 := by
  unfold sampleOf; exact clampInt_mem (by decide)

/-- Away from the boundary between two codes the sample is the nearest code, limited. -/
theorem sampleOf_nearest {mean : Int} (hlo : (Config.convBand : Int) < (meanMilli s n c mean + 500) % 1000)
    (hhi : (meanMilli s n c mean + 500) % 1000 < 1000 - (Config.convBand : Int)) :
    sampleOf s n c mean = clampInt (-131072) 131071 ((meanMilli s n c mean + 500) / 1000) := by
  unfold sampleOf
  dsimp only
  rw [if_neg (by omega), if_neg (by omega)]

theorem meanMilli_at {t : Nat} {mean : Int} : meanMilli (s.at t) n c mean = meanMilli s n c mean := by
  unfold meanMilli mmodeOf rangeOf; rw [State.rf_at, State.rf_at]

/-- The word of CH_PM_SAMPLE for sample y: VALID and the code. -/
def sampleWord (y : Int) : Word := BitVec.ofNat 32 (2 ^ 31 + unsigned 18 y)

theorem sampleWord_toNat : (sampleWord y).toNat = 2 ^ 31 + unsigned 18 y := by
  have hlt := unsigned_lt (len := 18) (x := y)
  rw [sampleWord, BitVec.toNat_ofNat]
  omega

theorem sampleWord_valid : bitOf (sampleWord y) 31 = true := by
  have hlt := unsigned_lt (len := 18) (x := y)
  rw [bitOf, ← BitVec.testBit_toNat, sampleWord_toNat, Nat.testBit_eq_decide_div_mod_eq]
  exact decide_eq_true (by omega)

theorem sampleWord_code (hlo : -131072 ≤ y) (hhi : y ≤ 131071) : signed 18 (fld (sampleWord y) 0 18) = y := by
  have hlt := unsigned_lt (len := 18) (x := y)
  have hfld : fld (sampleWord y) 0 18 = unsigned 18 y := by rw [fld, sampleWord_toNat]; omega
  rw [hfld]
  exact signed_unsigned (by decide) (by omega) (by omega)

/-! The sample goes to CH_PM_SAMPLE, to the capture engines and to the trigger units. -/

/-- The conversion has ended with sample y. -/
def sampleShown (n : Cluster) (c : Channel) (y : Int) (s : State) : State :=
  ({ s with free := s.free + 1 }.modChan n c fun x => { x with convAt := s.clasp }).setReg .CH_PM_SAMPLE (chIx n c)
    (sampleWord y)

theorem sampleShown_chan : (sampleShown n c y s).chan n c = { s.chan n c with convAt := s.clasp } := by
  rw [sampleShown, State.chan_setReg, State.chan_modChan]
  rfl

/-- The capture engines have met it. -/
def sampleCaptured (n : Cluster) (c : Channel) (y : Int) (s : State) : State :=
  cptSample n 1 c y (cptSample n 0 c y (sampleShown n c y s))

theorem sampleCaptured_only :
    Only [.cpts] [.CL_CAP_STAT, .CL_CAP_ICNT, .CL_CAP_EVT] (sampleShown n c y s) (sampleCaptured n c y s) :=
  ((cptSample_upd (C := fun _ _ => True) (cptSample_upd Upd.refl (Nat.or_self _) (Nat.or_self _) ⟨0, trivial⟩)
    (Nat.or_self _) (Nat.or_self _) ⟨0, trivial⟩).frame (by decide +kernel) (by decide +kernel)).1

/-- The trigger units have been told it. -/
def sampleTold (n : Cluster) (c : Channel) (y : Int) (s : State) : State :=
  (sampleCaptured n c y s).trigEvent n (.sample c.val y s.clasp)

theorem sampleTold_clasp : (sampleTold n c y s).clasp = s.clasp := sampleCaptured_only.parts .clasp (by decide)

theorem sampleTold_chan : (sampleTold n c y s).chan n c = { s.chan n c with convAt := s.clasp } := by
  have hchans : (sampleCaptured n c y s).chans = (sampleShown n c y s).chans := sampleCaptured_only.parts .chans (by decide)
  rw [sampleTold, State.chan_trigEvent, State.chan, hchans]
  exact sampleShown_chan

theorem sampleTold_trig : ((sampleTold n c y s).trig n).evts = (s.trig n).evts ++ [.sample c.val y s.clasp] := by
  have htrigs : (sampleCaptured n c y s).trigs = (sampleShown n c y s).trigs := sampleCaptured_only.parts .trigs (by decide)
  rw [sampleTold, State.trig_trigEvent, State.trig, htrigs]
  rfl

theorem sampleTold_reg {r : Reg} {i : Nat} (h : r ∉ [.CL_CAP_STAT, .CL_CAP_ICNT, .CL_CAP_EVT]) :
    (sampleTold n c y s).reg r i = if r = .CH_PM_SAMPLE ∧ i = chIx n c then sampleWord y else s.reg r i := by
  rw [sampleTold, State.reg_trigEvent, sampleCaptured_only.regs _ _ h]
  exact State.reg_setReg ..

/-! The measurement in progress takes it. -/

@[simp] theorem measTake_reg (r : Reg) (i : Nat) : (measTake n c y s).reg r i = s.reg r i :=
  (measTake_upd (R := 0) (C := fun _ _ => True) (Upd.refl (s := s)) (Nat.or_self _) trivial).reg r i (Nat.zero_testBit _)
@[simp] theorem measTake_trig : (measTake n c y s).trig n = s.trig n :=
  (measTake_upd (R := 0) (C := fun _ _ => True) (Upd.refl (s := s)) (Nat.or_self _) trivial).trig_eq (by decide)

/-- m with the sample y added to its aperture (R92, R98). -/
def measAdded (s : State) (n : Cluster) (c : Channel) (y : Int) (m : Meas) : Meas :=
  { m with
    got := m.got + 1, sum := m.sum + y, ovr := m.ovr || decide (y = -131072 ∨ y = 131071),
    settling := m.settling || (s.rb .CH_PM_STAT (chIx n c) 4 ||
      decide (s.clasp < (s.chan n c).settledAt + convTicks ∧ (s.chan n c).settledAt ≠ 0)),
    clamped := m.clamped || clampActs s n c 2 || clampActs s n c 3 }

/-- In the delay the conversion is discarded. -/
theorem measTake_delay (h : (s.chan n c).meas = some m) (hd : 0 < m.delay) : (measTake n c y s).chan n c =
    { s.chan n c with meas := some { m with delay := m.delay - 1 } } := by
  unfold measTake
  rw [h]
  dsimp only
  rw [if_pos hd, State.chan_modChan]

/-- In the aperture, before its last conversion, it is added. -/
theorem measTake_aperture (h : (s.chan n c).meas = some m) (hd : m.delay = 0) (hmore : m.got + 1 < m.need) :
    (measTake n c y s).chan n c = { s.chan n c with meas := some (measAdded s n c y m) } := by
  unfold measTake
  rw [h]
  dsimp only
  rw [if_neg (by omega), if_pos hmore, State.chan_modChan]
  rfl

/-- The last conversion of the aperture ends the measurement; with CONT the next begins at once (R97). -/
theorem measTake_last (h : (s.chan n c).meas = some m) (hd : m.delay = 0) (hlast : m.need ≤ m.got + 1) :
    (measTake n c y s).chan n c = { s.chan n c with
      meas := if s.rb .CH_PM_CTRL (chIx n c) 12 then some (newMeas s (chIx n c) s.clasp 0 none) else none,
      done := (s.chan n c).done ++ [(measAdded s n c y m, false)] } := by
  unfold measTake
  rw [h]
  dsimp only
  rw [if_neg (by omega), if_neg (by omega), State.chan_modChan]
  rfl

/-! The conversion. -/

theorem execPmConversionDone_due {t : Nat} {mean : Int} (hsleep : pwrState s ≠ 3) (hmode : mmodeOf s n c ≠ 0)
    (hgrid : (s.chan n c).grid < (s.at t).clasp) (hdue : ((s.at t).clasp - (s.chan n c).grid) % 32000 = 0)
    (hnew : (s.chan n c).convAt ≠ (s.at t).clasp) : execPmConversionDone t n c mean s =
      .next (measTake n c (sampleOf (s.at t) n c mean) (sampleTold n c (sampleOf (s.at t) n c mean) (s.at t))) := by
  unfold execPmConversionDone
  dsimp only
  rw [State.rf_at, State.chan_at, mmodeOf, State.rf_at, if_pos ⟨hsleep, hmode, hgrid, hdue, hnew⟩]
  rfl

theorem pmConversionDone_holds {t : Nat} {mean : Int} (hsleep : pwrState s ≠ 3) (hmode : mmodeOf s n c ≠ 0)
    (hgrid : (s.chan n c).grid < (s.at t).clasp) (hdue : ((s.at t).clasp - (s.chan n c).grid) % 32000 = 0)
    (hnew : (s.chan n c).convAt ≠ (s.at t).clasp) :
    let u := s.at t
    let x := s.chan n c
    ∃ s', exec (.pmConversionDone t n c mean) s = .next s' ∧ s'.rb .CH_PM_SAMPLE (chIx n c) 31 = true ∧
      ((Config.convBand : Int) < (meanMilli s n c mean + 500) % 1000 →
        (meanMilli s n c mean + 500) % 1000 < 1000 - (Config.convBand : Int) →
        sampleVal s' n c = clampInt (-131072) 131071 ((meanMilli s n c mean + 500) / 1000)) ∧
      (s'.trig n).evts = (s.trig n).evts ++ [.sample c.val (sampleVal s' n c) u.clasp] ∧
      (∀ m, x.meas = some m → 0 < m.delay →
        (s'.chan n c).meas = some { m with delay := m.delay - 1 } ∧ (s'.chan n c).done = x.done) ∧
      (∀ m, x.meas = some m → m.delay = 0 → m.got + 1 < m.need →
        ∃ m', (s'.chan n c).meas = some m' ∧ m'.got = m.got + 1 ∧ m'.sum = m.sum + sampleVal s' n c ∧
          m'.need = m.need ∧ m'.aper = m.aper ∧
          m'.ovr = (m.ovr || decide (sampleVal s' n c = -131072 ∨ sampleVal s' n c = 131071)) ∧ (s'.chan n c).done = x.done) ∧
      (∀ m, x.meas = some m → m.delay = 0 → m.need ≤ m.got + 1 →
        (∃ y, (s'.chan n c).done.getLast? = some y ∧ (s'.chan n c).done = x.done ++ [y] ∧ y.2 = false ∧ y.1.got = m.got + 1 ∧
          y.1.sum = m.sum + sampleVal s' n c ∧ y.1.aper = m.aper ∧ y.1.tok = m.tok) ∧
        (s'.chan n c).meas.isSome = s.rb .CH_PM_CTRL (chIx n c) 12 ∧
        ∀ m', (s'.chan n c).meas = some m' → m'.t0 = u.clasp ∧ m'.delay = 0 ∧ m'.tok = none) ∧
      Frame [.clasp, .chans, .trigs, .cpts, .free] [.CH_PM_SAMPLE, .CL_CAP_STAT, .CL_CAP_ICNT, .CL_CAP_EVT]
        (atChannel n c) s s' := by
  intro u x
  have hexec := execPmConversionDone_due (mean := mean) hsleep hmode hgrid hdue hnew
  have hupd := execPmConversionDone_upd (t := t) (mean := mean) (C := atChannel n c) (Upd.refl (s := s)) (Nat.or_self _)
    (Nat.or_self _) ⟨rfl, rfl⟩
  rw [hexec] at hupd
  obtain ⟨hlo, hhi⟩ := sampleOf_mem (s := s.at t) (n := n) (c := c) (mean := mean)
  have hnearest := sampleOf_nearest (s := s.at t) (n := n) (c := c) (mean := mean)
  rw [meanMilli_at] at hnearest
  generalize sampleOf (s.at t) n c mean = y at hexec hupd hlo hhi hnearest
  have hreg : (measTake n c y (sampleTold n c y (s.at t))).reg .CH_PM_SAMPLE (chIx n c) = sampleWord y := by
    rw [measTake_reg, sampleTold_reg (by decide), if_pos ⟨rfl, rfl⟩]
  have hval : sampleVal (measTake n c y (sampleTold n c y (s.at t))) n c = y := by
    rw [sampleVal, State.rf, hreg, sampleWord_code hlo hhi]
  have hchan : (sampleTold n c y (s.at t)).chan n c = { x with convAt := u.clasp } := by
    rw [sampleTold_chan, State.chan_at]
  have hmeas : ∀ {m}, x.meas = some m → ((sampleTold n c y (s.at t)).chan n c).meas = some m := fun hm => by
    rw [hchan]; exact hm
  have hcont : (sampleTold n c y (s.at t)).rb .CH_PM_CTRL (chIx n c) 12 = s.rb .CH_PM_CTRL (chIx n c) 12 := by
    rw [State.rb, sampleTold_reg (by decide), if_neg (by simp), State.reg_at, State.rb]
  refine ⟨_, hexec, ?_, fun h1 h2 => hval.trans (hnearest h1 h2), ?_, fun m hm hdel => ?_, fun m hm hdel hmore => ?_,
    fun m hm hdel hlast => ?_, hupd.frame (by decide +kernel) (by decide +kernel)⟩
  · rw [State.rb, hreg, sampleWord_valid]
  · rw [hval, measTake_trig, sampleTold_trig, State.trig_at]
  · rw [measTake_delay (hmeas hm) hdel, hchan]
    exact ⟨rfl, rfl⟩
  · rw [hval, measTake_aperture (hmeas hm) hdel hmore, hchan]
    exact ⟨_, rfl, rfl, rfl, rfl, rfl, rfl, rfl⟩
  · rw [hval, measTake_last (hmeas hm) hdel hlast, hchan, hcont, sampleTold_clasp]
    refine ⟨⟨_, List.getLast?_concat .., rfl, rfl, rfl, rfl, rfl, rfl⟩, ?_, fun m' hm' => ?_⟩
    · cases s.rb .CH_PM_CTRL (chIx n c) 12 <;> rfl
    · dsimp only at hm'
      split at hm'
      · cases hm'; exact ⟨rfl, rfl, rfl⟩
      · cases hm'

end Sys2Proof.Machine
end

section
/-! ### Results (R92, R95, R96, R98, R99, R110) -/

namespace Sys2Proof.Machine

variable {s : State} {n : Cluster} {c : Channel} {m : Meas}

/-! The words of a result. -/

theorem b2n_le (b : Bool) : b2n b ≤ 1 := by cases b <;> decide
theorem decide_b2n (b : Bool) : decide (b2n b = 1) = b := by cases b <;> rfl

/-- CH_PM_RES as a number: six flags over the code, all but two of them 0 where no conversion counted. -/
theorem resWord_toNat (aborted overwrite : Bool) : (resWord m aborted overwrite).toNat =
    2 ^ 31 * b2n (decide (m.got ≠ 0)) + 2 ^ 30 * b2n aborted + 2 ^ 29 * b2n (decide (m.got ≠ 0) && m.ovr) +
      2 ^ 28 * b2n (decide (m.got ≠ 0) && m.settling) + 2 ^ 27 * b2n (decide (m.got ≠ 0) && m.clamped) +
      2 ^ 26 * b2n overwrite + if m.got = 0 then 0 else unsigned 24 (roundEven (64 * m.sum) m.got) := by
  have h30 := b2n_le aborted
  have h26 := b2n_le overwrite
  have h29 := b2n_le m.ovr
  have h28 := b2n_le m.settling
  have h27 := b2n_le m.clamped
  have hcode := unsigned_lt (len := 24) (x := roundEven (64 * m.sum) m.got)
  unfold resWord
  by_cases h : m.got = 0
  · rw [if_pos h, if_pos h, BitVec.toNat_ofNat]
    simp only [h, ne_eq, not_true, decide_false, Bool.false_and, b2n, Bool.false_eq_true, if_false] at *
    omega
  · rw [if_neg h, if_neg h, BitVec.toNat_ofNat]
    simp only [h, ne_eq, not_false_eq_true, decide_true, Bool.true_and]
    rw [show b2n true = 1 from rfl]
    omega

/-- The flags and the code of CH_PM_RES. -/
theorem resWord_fields (aborted overwrite : Bool) :
    bitOf (resWord m aborted overwrite) 31 = decide (m.got ≠ 0) ∧ bitOf (resWord m aborted overwrite) 30 = aborted ∧
    bitOf (resWord m aborted overwrite) 29 = (decide (m.got ≠ 0) && m.ovr) ∧
    bitOf (resWord m aborted overwrite) 28 = (decide (m.got ≠ 0) && m.settling) ∧
    bitOf (resWord m aborted overwrite) 27 = (decide (m.got ≠ 0) && m.clamped) ∧
    bitOf (resWord m aborted overwrite) 26 = overwrite ∧
    (m.got ≠ 0 → fld (resWord m aborted overwrite) 0 24 = unsigned 24 (roundEven (64 * m.sum) m.got)) := by
  have hcode := unsigned_lt (len := 24) (x := roundEven (64 * m.sum) m.got)
  have hbit : ∀ k b, (resWord m aborted overwrite).toNat / 2 ^ k % 2 = b2n b → bitOf (resWord m aborted overwrite) k = b :=
    fun k b h => by
      rw [bitOf, ← BitVec.testBit_toNat, Nat.testBit_eq_decide_div_mod_eq, h, decide_b2n]
  have hnum := resWord_toNat (m := m) aborted overwrite
  have h31 := b2n_le (decide (m.got ≠ 0))
  have h30 := b2n_le aborted
  have h29 := b2n_le (decide (m.got ≠ 0) && m.ovr)
  have h28 := b2n_le (decide (m.got ≠ 0) && m.settling)
  have h27 := b2n_le (decide (m.got ≠ 0) && m.clamped)
  have h26 := b2n_le overwrite
  have hlow : (if m.got = 0 then 0 else unsigned 24 (roundEven (64 * m.sum) m.got)) < 2 ^ 24 := by split <;> omega
  refine ⟨hbit _ _ ?_, hbit _ _ ?_, hbit _ _ ?_, hbit _ _ ?_, hbit _ _ ?_, hbit _ _ ?_, fun hgot => ?_⟩
  case refine_7 =>
    rw [if_neg hgot] at hnum hlow
    rw [fld, hnum]
    omega
  all_goals rw [hnum]; omega

/-- A pair of registers reads the 64-bit number put into it, modulo 2^64. -/
theorem ofWords_lo_hi (x : Nat) : ofWords (loWord x) (hiWord x) = x % 2 ^ 64 := by
  unfold ofWords loWord hiWord
  rw [BitVec.toNat_ofNat, BitVec.toNat_ofNat]
  omega

/-! The result is written. -/

/-- The registers of the channel with m's result in them, and the queue of results without it. -/
def resultShown (n : Cluster) (c : Channel) (m : Meas) (aborted : Bool) (rest : List (Meas × Bool)) (s : State) : State :=
  let ix := chIx n c
  let s1 := ((s.setReg .CH_PM_RES ix (resWord m aborted (s.rb .CH_PM_STAT ix 7))).setPair .CH_PM_RES_TLO .CH_PM_RES_THI ix
    m.aper).setRb .CH_PM_STAT ix 7 true
  ((s1.setRb .CH_EVT ix 16 true).setRb .CH_EVT ix 20 (s1.rb .CH_EVT ix 20 || (m.ovr && decide (m.got ≠ 0)))).modChan n c
    fun x => { x with done := rest }

section
variable {aborted : Bool} {rest : List (Meas × Bool)}

theorem resultShown_holds : ResultWritten n c m aborted s (resultShown n c m aborted rest s) := by
  have hres : (resultShown n c m aborted rest s).reg .CH_PM_RES (chIx n c) =
      resWord m aborted (s.rb .CH_PM_STAT (chIx n c) 7) := by
    simp [resultShown, State.setPair, State.reg_setRb, State.reg_setReg]
  have hpair : (resultShown n c m aborted rest s).pair .CH_PM_RES_TLO .CH_PM_RES_THI (chIx n c) = m.aper % 2 ^ 64 := by
    rw [← ofWords_lo_hi]
    simp [State.pair, resultShown, State.setPair, State.reg_setRb, State.reg_setReg]
  have hnew : (resultShown n c m aborted rest s).rb .CH_PM_STAT (chIx n c) 7 = true := by
    simp [resultShown, State.rb, State.reg_setRb]
  have hdone : (resultShown n c m aborted rest s).rb .CH_EVT (chIx n c) 16 = true := by
    simp [resultShown, State.rb, State.reg_setRb]
  obtain ⟨h31, h30, h29, h28, h27, h26, hcode⟩ := resWord_fields (m := m) aborted (s.rb .CH_PM_STAT (chIx n c) 7)
  unfold ResultWritten State.rf
  simp only [State.rb] at hres hnew hdone h31 h30 h29 h28 h27 h26 hcode ⊢
  rw [hres]
  exact ⟨h31, h30, h29, h28, h27, h26, hcode, hpair, hnew, hdone⟩

theorem resultShown_chan : (resultShown n c m aborted rest s).chan n c = { s.chan n c with done := rest } := by
  simp only [resultShown, State.setPair, State.chan_modChan, State.chan_setRb, State.chan_setReg]

theorem resultShown_seq : (resultShown n c m aborted rest s).seq n = s.seq n := by
  simp only [resultShown, State.setPair, State.modChan, State.seq_setChan, State.setRb, State.seq_setReg]

/-- The record f makes of an MST's token goes on towards its window (R99). -/
def resultPassed (n : Cluster) (tok : Option MstTok) (f : MstTok → ResRec) (s : State) : State :=
  match tok with
  | none => s
  | some k => s.modSeq n fun q => { q with results := q.results ++ [f k] }

theorem resultPassed_reg {tok : Option MstTok} {f : MstTok → ResRec} (r : Reg) (i : Nat) :
    (resultPassed n tok f s).reg r i = s.reg r i := by
  cases tok <;> rfl

theorem resultPassed_chan {tok : Option MstTok} {f : MstTok → ResRec} :
    (resultPassed n tok f s).chan n c = s.chan n c := by
  cases tok with
  | none => rfl
  | some k => exact State.chan_setSeq ..

theorem resultPassed_results {tok : Option MstTok} {f : MstTok → ResRec} : ((resultPassed n tok f s).seq n).results.length =
    (s.seq n).results.length + if tok.isSome then 1 else 0 := by
  cases tok with
  | none => rfl
  | some k => rw [resultPassed, State.seq_modSeq]; exact List.length_append

theorem writeMeas_eq (h : (s.chan n c).done = (m, aborted) :: rest) :
    ∃ f, writeMeas n c s = resultPassed n m.tok f (resultShown n c m aborted rest s) := by
  refine ⟨fun k => ⟨c.val, k, resWord m aborted (s.rb .CH_PM_STAT (chIx n c) 7), m.aper, s.rb .CL_SEQ_RES n 20⟩, ?_⟩
  unfold writeMeas resultPassed
  rw [h]
  dsimp only
  cases m.tok <;> rfl

/-- What writing the oldest result leaves, at the moment of a command. -/
theorem writeMeas_holds {t : Nat} (h : (s.chan n c).done = (m, aborted) :: rest) :
    ResultWritten n c m aborted s (writeMeas n c (s.at t)) ∧ ((writeMeas n c (s.at t)).chan n c).done = rest ∧
      ((writeMeas n c (s.at t)).seq n).results.length = (s.seq n).results.length + if m.tok.isSome then 1 else 0 := by
  obtain ⟨f, hf⟩ := writeMeas_eq (s := s.at t) (by rwa [State.chan_at])
  have hshown := resultShown_holds (s := s.at t) (n := n) (c := c) (m := m) (aborted := aborted) (rest := rest)
  refine ⟨?_, ?_, ?_⟩
  · unfold ResultWritten State.pair State.rf at hshown ⊢
    simp only [State.rb, State.reg_at] at hshown ⊢
    simpa only [hf, resultPassed_reg] using hshown
  · rw [hf, resultPassed_chan, resultShown_chan]
  · rw [hf, resultPassed_results, resultShown_seq, State.seq_at]

end

theorem execPmMeasDone_due {t : Nat} {rest : List (Meas × Bool)} (h : (s.chan n c).done = (m, false) :: rest) :
    execPmMeasDone t n c s = .next (writeMeas n c (s.at t)) := by
  unfold execPmMeasDone
  dsimp only
  rw [State.chan_at, h]

theorem execPmMeasEndEarly_due {t : Nat} {rest : List (Meas × Bool)} (h : (s.chan n c).done = (m, true) :: rest) :
    execPmMeasEndEarly t n c s = .next (writeMeas n c (s.at t)) := by
  unfold execPmMeasEndEarly
  dsimp only
  rw [State.chan_at, h]

theorem writeMeas_frame {t : Nat} : Frame [.clasp, .chans, .seqs]
    [.CH_EVT, .CH_PM_STAT, .CH_PM_RES, .CH_PM_RES_TLO, .CH_PM_RES_THI] (atChannel n c) s (writeMeas n c (s.at t)) :=
  (writeMeas_upd (K := 0x141) (C := atChannel n c) (State.at_upd (t := t) (Upd.refl (s := s)) (by decide)) (by decide)
    (Nat.or_self _) ⟨rfl, rfl⟩).frame (by decide +kernel) (by decide +kernel)

/-! The result is read (R110). -/

theorem served_at {t : Nat} {q : Req} : served (s.at t) q = served s q := by rw [State.at_eq]; rfl

/-- CH_PM_RES as it reads, and what the read does. -/
theorem readAt_pmRes {q : Req} : readAt q (Reg.addr .CH_PM_RES (chIx n c)) s =
    (s.reg .CH_PM_RES (chIx n c), pmResTake n c s) := by
  have hsize : chIx n c < Reg.CH_PM_RES.size := chIx_lt_size rfl rfl
  have hwindow := (addr_window (r := .CH_PM_RES) (by decide) rfl hsize).1
  have hclu : elemClu .CH_PM_RES (chIx n c) = n :=
    Fin.ext (by show (n.val * 32 + c.val) / 32 % 24 = n.val; omega)
  unfold readAt
  rw [if_neg (by rw [addr_word (by decide)]; simp), if_neg (by omega), if_neg (by omega), regAt_addr (by decide) hsize]
  unfold regRead
  dsimp only
  rw [hclu, elemCh_chIx]
  rfl

theorem hostRead_pmRes {q : Req} (hserved : served s q = true) (hactive : pwrState s = 2) :
    hostRead q (Reg.addr .CH_PM_RES (chIx n c)) s = (pmResTake n c s).emit
      (.regRead q.val (Reg.addr .CH_PM_RES (chIx n c)) (s.reg .CH_PM_RES (chIx n c))) := by
  have hawake : hostWakes s = s := by unfold hostWakes; rw [if_neg (by omega)]
  unfold hostRead
  dsimp only
  rw [if_neg (by simp [hserved]), hawake, ite_self, if_neg (by omega), readAt_pmRes]

theorem pmResTake_stat :
    (pmResTake n c s).reg .CH_PM_STAT (chIx n c) = putBit (s.reg .CH_PM_STAT (chIx n c)) 7 false := by
  simp only [pmResTake, State.reg_modChan, State.reg_setRb, and_self, if_true]
theorem pmResTake_latch : ((pmResTake n c s).chan n c).pmLatch =
    some (s.reg .CH_PM_RES_TLO (chIx n c), s.reg .CH_PM_RES_THI (chIx n c)) := by
  simp only [pmResTake, State.chan_modChan]
theorem pmResTake_out : (pmResTake n c s).out = s.out := rfl

@[simp] theorem State.reg_emit (o : Output) (r : Reg) (i : Nat) : (s.emit o).reg r i = s.reg r i := rfl
@[simp] theorem State.chan_emit (o : Output) : (s.emit o).chan n c = s.chan n c := rfl

theorem pmResRead_holds {t : Nat} {q : Req} (hserved : served s q = true) (hactive : pwrState s = 2) :
    ∃ s', exec (.pmResRead t q n c) s = .next s' ∧
      s'.out = .regRead q.val (Reg.addr .CH_PM_RES (chIx n c)) (s.reg .CH_PM_RES (chIx n c)) :: s.out ∧
      s'.reg .CH_PM_STAT (chIx n c) = putBit (s.reg .CH_PM_STAT (chIx n c)) 7 false ∧
      (s'.chan n c).pmLatch = some (s.reg .CH_PM_RES_TLO (chIx n c), s.reg .CH_PM_RES_THI (chIx n c)) ∧
      Frame [.clasp, .chans, .out] [.CH_PM_STAT] (atChannel n c) s s' := by
  have hread := hostRead_pmRes (s := s.at t) (n := n) (c := c) (served_at.trans hserved)
    ((State.rf_at ..).trans hactive)
  have hupd := State.emit_upd (K := 0x800000000000041)
    (o := .regRead q.val (Reg.addr .CH_PM_RES (chIx n c)) ((s.at t).reg .CH_PM_RES (chIx n c)))
    (pmResTake_upd (C := atChannel n c) (c := c) (State.at_upd (t := t) (Upd.refl (s := s)) (by decide)) (by decide)
      (Nat.or_self _) ⟨rfl, rfl⟩) (by decide)
  refine ⟨_, congrArg Host.Outcome.next hread, ?_, ?_, ?_, hupd.frame (by decide +kernel) (by decide +kernel)⟩
  · rw [State.emit, pmResTake_out, State.out_at, State.reg_at]
  · rw [State.reg_emit, pmResTake_stat, State.reg_at]
  · rw [State.chan_emit, pmResTake_latch, State.reg_at, State.reg_at]

/-- Settles O12: START and CONT are `pmCtrlWritten`, a conversion is `measTake`, a result `writeMeas`, a read `pmResTake`. -/
theorem measurementsStartConvertAndEnd : Obligations.MeasurementsStartConvertAndEnd := by
  unfold Obligations.MeasurementsStartConvertAndEnd
  refine ⟨fun t r n c d s hacc hmode hbusy hlevel hintr hasy => pmStart_holds hacc hmode hbusy hlevel hintr hasy,
    fun t r n c d s hacc => pmCont_holds hacc,
    fun t n c mean s => ?_, fun t n c m rest s h => ?_, fun t n c m rest s h => ?_,
    fun t q n c s hserved hactive => pmResRead_holds hserved hactive⟩
  · intro u x hsleep hmode hgrid hdue hnew
    exact pmConversionDone_holds hsleep hmode hgrid hdue hnew
  · obtain ⟨hwritten, hdone, hresults⟩ := writeMeas_holds (t := t) h
    exact ⟨_, execPmMeasDone_due h, hwritten, hdone, hresults, writeMeas_frame⟩
  · obtain ⟨hwritten, hdone, hresults⟩ := writeMeas_holds (t := t) h
    exact ⟨_, execPmMeasEndEarly_due h, hwritten, hdone, hresults, writeMeas_frame⟩

end Sys2Proof.Machine
end

/-! # Temperature bands, and what the issue stage hands on: obligations O16, O26

SUPPORT. The bands first: what noting a band leaves, then the three commands. Then the boundary at which the issue stage
looks: ends, machine checks and stalls; then the pieces of which handing a vector on is made. -/

section
/-! ### Temperature bands (R133 to R138, R544) -/

namespace Sys2Proof.Machine

variable {s : State} {n : Cluster} {b : Nat}

/-! What the band record and the registers of the bands decide. -/

@[simp] theorem reg_setBandRec (v : Option Nat × Nat) (r : Reg) (i : Nat) : (setBandRec n v s).reg r i = s.reg r i := rfl
@[simp] theorem bandRec_setBandRec (v : Option Nat × Nat) : bandRec (setBandRec n v s) n = v := by
  simp [bandRec, setBandRec]
@[simp] theorem bandRec_at (t : Nat) : bandRec (s.at t) n = bandRec s n := by rw [bandRec, State.bands_at]; rfl

theorem activeBand_congr {a b : State} (h : b.reg .CL_TIM_STAT n = a.reg .CL_TIM_STAT n) :
    activeBand b n = activeBand a n := by unfold activeBand State.rf; rw [h]
theorem forcedBand_congr {a b : State} (h : b.reg .CL_TIM_CTRL n = a.reg .CL_TIM_CTRL n) :
    forcedBand b n = forcedBand a n := by unfold forcedBand State.rb State.rf; rw [h]
theorem sensorTemp_congr {a b : State} (h : ∀ r i, b.reg r i = a.reg r i) (j : Nat) :
    sensorTemp b j = sensorTemp a j := by unfold sensorTemp State.rb State.rf; rw [h]
theorem bandAtOnce_congr {a b : State} (h : ∀ r i, b.reg r i = a.reg r i) : bandAtOnce b n = bandAtOnce a n := by
  unfold bandAtOnce; rw [funext (sensorTemp_congr h)]

theorem bandNext_at (t : Nat) : bandNext (s.at t) n = bandNext s n := by
  unfold bandNext
  rw [forcedBand_congr (State.reg_at ..), bandRec_at, activeBand_congr (State.reg_at ..)]

theorem bandAtOnce_lt : bandAtOnce s n < 8 := by
  unfold bandAtOnce
  dsimp only
  split
  · omega
  next x _ =>
    have hle : ∀ y : Int, (if y ≤ x then 1 else 0) ≤ 1 := fun y => by split <;> omega
    have h400 := hle 400
    have h720 := hle 720
    have h1040 := hle 1040
    have h1360 := hle 1360
    omega

/-! PENDING, PEND and STALE follow the indicated band (R134 to R136). -/

/-- Band b is not the one that is to be active. -/
def bandPends (s : State) (n : Cluster) (b : Nat) : Bool := decide (b ≠ (forcedBand s n).getD (activeBand s n))

/-- CL_TIM_STAT once band b is noted over the word w. -/
def bandStat (b : Nat) (pend : Bool) (w : Word) : Word :=
  let noted := putBit (putFld w 4 3 b) 7 pend
  if pend then noted else putBit noted 8 false

theorem bandStat_pending (pend : Bool) (w : Word) : fld (bandStat b pend w) 4 3 = b % 8 := by
  cases pend <;> simp [bandStat, fld_putBit_ne]
theorem bandStat_pend (pend : Bool) (w : Word) : bitOf (bandStat b pend w) 7 = pend := by
  cases pend <;> simp [bandStat]
theorem bandStat_stale (pend : Bool) (w : Word) : bitOf (bandStat b pend w) 8 = (pend && bitOf w 8) := by
  cases pend <;> simp [bandStat, bitOf_putFld]

theorem bandNote_stat (h : (bandRec s n).1 = some b) :
    (bandNote n s).reg .CL_TIM_STAT n = bandStat b (bandPends s n b) (s.reg .CL_TIM_STAT n) := by
  unfold bandNote
  rw [h]
  dsimp only
  rw [show decide (b ≠ (forcedBand s n).getD (activeBand s n)) = bandPends s n b from rfl]
  cases bandPends s n b with
  | false => simp [bandStat, State.reg_setRb, State.reg_setRf]
  | true =>
    cases s.rb .CL_TIM_STAT n 7 <;> simp [bandStat, State.reg_setRb, State.reg_setRf]

theorem bandNote_unknown (h : (bandRec s n).1 = none) : bandNote n s = s := by unfold bandNote; rw [h]

theorem bandNote_pending (h : (bandRec s n).1 = some b) : (bandNote n s).rf .CL_TIM_STAT n 4 3 = b % 8 := by
  rw [State.rf, bandNote_stat h, bandStat_pending]
theorem bandNote_pend (h : (bandRec s n).1 = some b) : (bandNote n s).rb .CL_TIM_STAT n 7 = bandPends s n b := by
  rw [State.rb, bandNote_stat h, bandStat_pend]

/-- Noting the indicated band never sets STALE. -/
theorem bandNote_not_stale (h : s.rb .CL_TIM_STAT n 8 = false) : (bandNote n s).rb .CL_TIM_STAT n 8 = false := by
  cases hrec : (bandRec s n).1 with
  | none => rwa [bandNote_unknown hrec]
  | some b => rw [State.rb, bandNote_stat hrec, bandStat_stale, show bitOf _ 8 = false from h, Bool.and_false]

theorem bandNote_reg {r : Reg} {i : Nat} (h : r ≠ .CL_TIM_STAT) : (bandNote n s).reg r i = s.reg r i :=
  ((bandNote_upd (C := fun _ _ => True) (Upd.refl (s := s)) (Nat.or_self _) (Nat.or_self _) ⟨0, trivial⟩).frame
    (KL := [.bands]) (RL := [.CL_TIM_STAT]) (by decide +kernel) (by decide +kernel)).1.regs r i (by simpa using h)

/-! The evaluation (R133, R544). -/

/-- The indicated band is now b. -/
def bandIndicated (n : Cluster) (b : Nat) (s : State) : State := bandNote n (setBandRec n (some b, (bandRec s n).2) s)

theorem execBandEvaluate_known {t : Nat} {x : Int} (hrec : (bandRec s n).1 = some b) (hx : sensorTemp s n.val = some x) :
    execBandEvaluate t n s = .next (bandIndicated n (bandFrom b x) (s.at t)) := by
  unfold execBandEvaluate
  dsimp only
  rw [bandRec_at, hrec]
  dsimp only
  rw [sensorTemp_congr (State.reg_at s t), hx, ← bandRec_at (s := s) t]
  rfl

theorem bandIndicated_rec : (bandRec (bandIndicated n b s) n).1 = some b := by
  rw [bandIndicated, bandNote_rec, bandRec_setBandRec]
theorem bandIndicated_pending (h : b < 8) : (bandIndicated n b s).rf .CL_TIM_STAT n 4 3 = b := by
  rw [bandIndicated, bandNote_pending (by rw [bandRec_setBandRec]), Nat.mod_eq_of_lt h]
theorem bandIndicated_pend : (bandIndicated n b s).rb .CL_TIM_STAT n 7 = bandPends s n b := by
  rw [bandIndicated, bandNote_pend (by rw [bandRec_setBandRec])]
  rfl
theorem bandIndicated_active : activeBand (bandIndicated n b s) n = activeBand s n := bandNote_active

theorem bandPends_at (t : Nat) : bandPends (s.at t) n b = bandPends s n b := by
  unfold bandPends
  rw [forcedBand_congr (State.reg_at ..), activeBand_congr (State.reg_at ..)]

theorem bandEvaluate_known {t : Nat} {x : Int} (hrec : (bandRec s n).1 = some b) (hx : sensorTemp s n.val = some x)
    (hlt : bandFrom b x < 8) :
    ∃ s', exec (.bandEvaluate t n) s = .next s' ∧ (bandRec s' n).1 = some (bandFrom b x) ∧
      s'.rf .CL_TIM_STAT n.val 4 3 = bandFrom b x ∧
      s'.rb .CL_TIM_STAT n.val 7 = decide (bandFrom b x ≠ (forcedBand s n).getD (activeBand s n)) ∧
      activeBand s' n = activeBand s n ∧ Frame [.clasp, .bands] [.CL_TIM_STAT] (atCluster n) s s' := by
  have hexec := execBandEvaluate_known (t := t) hrec hx
  have hupd := execBandEvaluate_upd (t := t) (C := atCluster n) (Upd.refl (s := s)) (Nat.or_self _) (Nat.or_self _) ⟨0, rfl⟩
  rw [hexec] at hupd
  exact ⟨_, hexec, bandIndicated_rec, bandIndicated_pending hlt, bandIndicated_pend.trans (bandPends_at t),
    bandIndicated_active.trans (activeBand_congr (State.reg_at ..)), hupd.frame (by decide +kernel) (by decide +kernel)⟩

theorem execBandEvaluate_first {t : Nat} (hrec : (bandRec s n).1 = none)
    (hread : (s.rb .THS_TEMP n.val 16 || s.rb .THS_TEMP n.val 20) = true) :
    execBandEvaluate t n s = .next (bandTake n (bandAtOnce s n) (s.at t)) := by
  unfold execBandEvaluate
  dsimp only
  rw [bandRec_at, hrec]
  dsimp only
  rw [State.rb_at, State.rb_at, if_pos hread, bandAtOnce_congr (State.reg_at s t)]

theorem bandTake_active (h : b < 8) : activeBand (bandTake n b s) n = b := by
  rw [bandTake, bandNote_active]
  simp [activeBand, State.rf, State.reg_setRf, fld_putFld_ne, Nat.mod_eq_of_lt h]
theorem bandTake_pending (h : b < 8) : (bandTake n b s).rf .CL_TIM_STAT n 4 3 = b := by
  rw [bandTake, bandNote_pending (by rw [bandRec_setBandRec]), Nat.mod_eq_of_lt h]
theorem bandTake_not_stale : (bandTake n b s).rb .CL_TIM_STAT n 8 = false := by
  rw [bandTake]
  exact bandNote_not_stale (by simp [State.rb, State.reg_setRf, bitOf_putFld])

theorem bandEvaluate_first {t : Nat} (hrec : (bandRec s n).1 = none)
    (hread : (s.rb .THS_TEMP n.val 16 || s.rb .THS_TEMP n.val 20) = true) :
    ∃ s', exec (.bandEvaluate t n) s = .next s' ∧ activeBand s' n = bandAtOnce s n ∧
      s'.rf .CL_TIM_STAT n.val 4 3 = bandAtOnce s n ∧
      s'.rb .CL_TIM_STAT n.val 8 = false ∧ Frame [.clasp, .bands] [.CL_TIM_STAT] (atCluster n) s s' := by
  have hexec := execBandEvaluate_first (t := t) hrec hread
  have hupd := execBandEvaluate_upd (t := t) (C := atCluster n) (Upd.refl (s := s)) (Nat.or_self _) (Nat.or_self _) ⟨0, rfl⟩
  rw [hexec] at hupd
  exact ⟨_, hexec, bandTake_active bandAtOnce_lt, bandTake_pending bandAtOnce_lt, bandTake_not_stale,
    hupd.frame (by decide +kernel) (by decide +kernel)⟩

/-! PEND for 50 ms (R136). -/

theorem markGates_reg (f : Gate → Gate) (r : Reg) (i : Nat) : (markGates n f s).reg r i = s.reg r i :=
  (markGates_upd (R := 0) (C := fun _ _ => True) (Upd.refl (s := s)) (Nat.or_self _) fun _ => trivial).reg r i
    (Nat.zero_testBit _)

/-- STALE is set, and the open gates are marked. -/
def bandStaled (n : Cluster) (s : State) : State :=
  markGates n (fun g => { g with stale := true }) ((s.setRb .CL_TIM_STAT n 8 true).setRb .CL_TIM_EVT n 5 true)

theorem execBandStale_due {t : Nat} (hpend : s.rb .CL_TIM_STAT n 7 = true) (hstale : s.rb .CL_TIM_STAT n 8 = false)
    (hage : 50 ≤ pendAge (s.at t) n) : execBandStale t n s = .next (bandStaled n (s.at t)) := by
  unfold execBandStale
  dsimp only
  rw [State.rb_at, State.rb_at, if_pos ⟨hpend, by rw [hstale]; rfl, hage⟩]
  rfl

theorem bandStale_due {t : Nat} (hpend : s.rb .CL_TIM_STAT n.val 7 = true) (hstale : s.rb .CL_TIM_STAT n.val 8 = false)
    (hage : 50 ≤ pendAge (s.at t) n) :
    ∃ s', exec (.bandStale t n) s = .next s' ∧ s'.reg .CL_TIM_STAT n.val = putBit (s.reg .CL_TIM_STAT n.val) 8 true ∧
      s'.reg .CL_TIM_EVT n.val = putBit (s.reg .CL_TIM_EVT n.val) 5 true ∧
      Frame [.clasp, .chans] [.CL_TIM_STAT, .CL_TIM_EVT] (atCluster n) s s' := by
  have hexec := execBandStale_due hpend hstale hage
  have hupd := execBandStale_upd (t := t) (C := atCluster n) (Upd.refl (s := s)) (Nat.or_self _) (Nat.or_self _) fun _ => rfl
  rw [hexec] at hupd
  refine ⟨_, hexec, ?_, ?_, hupd.frame (by decide +kernel) (by decide +kernel)⟩
  · rw [bandStaled, markGates_reg]; simp [State.reg_setRb]
  · rw [bandStaled, markGates_reg]; simp [State.reg_setRb]

/-! The switch at an idle cycle (R134, R136, R138, R454). -/

/-- Band b is active and counted, and STALE is 0. -/
def bandEntered (n : Cluster) (b : Nat) (s : State) : State :=
  (((s.setRf .CL_TIM_STAT n 1 3 b).countWrap .CL_TIM_BAND_CNT n 32).setRb .CL_TIM_EVT n 4 true).setRb .CL_TIM_STAT n 8 false

/-- What is noted of the band entered: the age starts anew, PENDING and PEND follow, the open gates are marked. -/
def bandEnteredNoted (n : Cluster) (b : Nat) (s : State) : State :=
  markGates n (fun g => { g with bandSw := true })
    (bandNote n (setBandRec n ((bandRec s n).1, s.clasp) (bandEntered n b s)))

/-- The whole switch: a band not calibrated since POR makes the cluster due. -/
def bandSwitched (n : Cluster) (b : Nat) (s : State) : State :=
  if (bandEnteredNoted n b s).rb .CL_CAL_STAT n (6 + b) then bandEnteredNoted n b s
  else calBecomeDue n (bandEnteredNoted n b s)

theorem execBandSwitch_idle {t : Nat} (hidle : idleNow (s.at t) n = true) (hne : bandNext s n ≠ activeBand s n) :
    execBandSwitch t n s = .next (bandSwitched n (bandNext s n) (s.at t)) := by
  rw [← bandNext_at t, ← activeBand_congr (State.reg_at s t ..)] at hne
  unfold execBandSwitch
  dsimp only
  rw [if_pos ⟨hidle, hne⟩, ← bandNext_at (s := s) t]
  rfl

theorem calBecomeDue_reg {r : Reg} {i : Nat} (h : r ≠ .CL_CAL_STAT) : (calBecomeDue n s).reg r i = s.reg r i := by
  unfold calBecomeDue
  split
  · rfl
  · exact (State.reg_setRb ..).trans (if_neg fun e => h e.1)

theorem calBecomeDue_due : (calBecomeDue n s).rb .CL_CAL_STAT n 0 = true := by
  unfold calBecomeDue
  split
  next hdue => exact hdue
  next => exact State.rb_setRb_same _ _ _ _ _ (by omega)

theorem bandSwitched_reg {r : Reg} {i : Nat} (h : r ≠ .CL_CAL_STAT) :
    (bandSwitched n b s).reg r i = (bandEnteredNoted n b s).reg r i := by
  unfold bandSwitched
  split
  · rfl
  · exact calBecomeDue_reg h

theorem bandEnteredNoted_reg {r : Reg} {i : Nat} (h : r ≠ .CL_TIM_STAT) :
    (bandEnteredNoted n b s).reg r i = (bandEntered n b s).reg r i := by
  rw [bandEnteredNoted, markGates_reg, bandNote_reg h, reg_setBandRec]

theorem bandSwitched_active (h : b < 5) : activeBand (bandSwitched n b s) n = b := by
  rw [activeBand_congr (bandSwitched_reg (by decide)), bandEnteredNoted, activeBand_congr (markGates_reg ..), bandNote_active]
  simp [activeBand, State.rf, bandEntered, State.countWrap, State.reg_setRb, State.reg_setRf, fld_putBit_ne,
    Nat.mod_eq_of_lt (show b < 8 by omega)]

theorem bandSwitched_not_stale : (bandSwitched n b s).rb .CL_TIM_STAT n 8 = false := by
  rw [State.rb, bandSwitched_reg (by decide), bandEnteredNoted, markGates_reg]
  exact bandNote_not_stale (by simp [State.rb, bandEntered, State.reg_setRb])

theorem bandSwitched_evt : (bandSwitched n b s).rb .CL_TIM_EVT n 4 = true := by
  rw [State.rb, bandSwitched_reg (by decide), bandEnteredNoted_reg (by decide)]
  simp [bandEntered, State.reg_setRb]

/-- The field of all bits is the word's number. -/
theorem fld_word (w : Word) : fld w 0 32 = w.toNat := by
  have hlt := w.isLt
  unfold fld
  omega

/-- A counter of a whole word counts up by one, wrapping. -/
theorem State.reg_countWrap_word (r : Reg) (i : Nat) : (s.countWrap r i 32).reg r i = s.reg r i + 1 := by
  apply BitVec.eq_of_toNat_eq
  rw [← fld_word, ← State.rf, State.countWrap, State.rf_setRf_same _ _ _ _ _ _ (by omega), State.rf, fld_word,
    BitVec.toNat_add]
  rfl

theorem bandSwitched_count :
    (bandSwitched n b s).reg .CL_TIM_BAND_CNT n = s.reg .CL_TIM_BAND_CNT n + 1 := by
  rw [bandSwitched_reg (by decide), bandEnteredNoted_reg (by decide), bandEntered, State.reg_setRb, if_neg (by simp),
    State.reg_setRb, if_neg (by simp), State.reg_countWrap_word, State.reg_setRf, if_neg (by simp)]

theorem bandSwitched_due (h : s.rb .CL_CAL_STAT n (6 + b) = false) : (bandSwitched n b s).rb .CL_CAL_STAT n 0 = true := by
  have hcal : (bandEnteredNoted n b s).rb .CL_CAL_STAT n (6 + b) = false := by
    rw [State.rb, bandEnteredNoted_reg (by decide)]
    simpa [State.rb, bandEntered, State.countWrap, State.reg_setRb, State.reg_setRf] using h
  rw [bandSwitched, hcal]
  exact calBecomeDue_due

theorem bandSwitch_idle {t : Nat} (hidle : idleNow (s.at t) n = true) (hne : bandNext s n ≠ activeBand s n)
    (hlt : bandNext s n < 5) :
    ∃ s', exec (.bandSwitch t n) s = .next s' ∧ activeBand s' n = bandNext s n ∧
      s'.reg .CL_TIM_BAND_CNT n.val = s.reg .CL_TIM_BAND_CNT n.val + 1 ∧ s'.rb .CL_TIM_EVT n.val 4 = true ∧
      s'.rb .CL_TIM_STAT n.val 8 = false ∧
      (s.rb .CL_CAL_STAT n.val (6 + bandNext s n) = false → s'.rb .CL_CAL_STAT n.val 0 = true) ∧
      Frame [.clasp, .chans, .bands, .cal] [.CL_CAL_STAT, .CL_TIM_STAT, .CL_TIM_EVT, .CL_TIM_BAND_CNT] (atCluster n) s s' := by
  have hexec := execBandSwitch_idle hidle hne
  have hupd := execBandSwitch_upd (t := t) (C := atCluster n) (Upd.refl (s := s)) (Nat.or_self _) (Nat.or_self _) fun _ => rfl
  rw [hexec] at hupd
  exact ⟨_, hexec, bandSwitched_active hlt, bandSwitched_count.trans (by rw [State.reg_at]), bandSwitched_evt,
    bandSwitched_not_stale, fun hcal => bandSwitched_due ((State.rb_at ..).trans hcal),
    hupd.frame (by decide +kernel) (by decide +kernel)⟩

/-- Settles O16, clause by clause: an evaluation is `bandIndicated`, the first after a reset `bandTake`; then `bandStaled`
and `bandSwitched`. -/
theorem bandsFollowTheSensor : Obligations.BandsFollowTheSensor := by
  unfold Obligations.BandsFollowTheSensor
  exact ⟨fun _ _ _ _ _ hrec hx hlt => bandEvaluate_known hrec hx hlt, fun _ _ _ hrec hread => bandEvaluate_first hrec hread,
    fun _ _ _ hpend hstale hage => bandStale_due hpend hstale hage,
    fun _ _ _ hidle hne hlt => bandSwitch_idle hidle hne hlt⟩

end Sys2Proof.Machine
end

section
/-! ### The boundary at which the issue stage looks (R170, R176) -/

namespace Sys2Proof.Machine

variable {K R : Nat} {C : Nat → Nat → Prop} {s0 s : State} {n : Cluster} {t : Nat}

/-- The mask of a list of registers, for `Upd`. -/
def regMask (l : List Reg) : Nat := l.foldr (fun r m => 2 ^ r.ctorIdx ||| m) 0

/-! A boundary that no interruption has reached is the queue's. -/

theorem issueAt_looks (h : LooksAhead n s) : issueAt n s = issueLoop n false ((s.seq n).q.length + 1) s := by
  unfold issueAt
  dsimp only
  rw [h.2]

theorem execVectorIssue_done {s' : State} (hdue : issueDue (s.at t) n = true) (h : issueAt n (s.at t) = .done s') :
    execVectorIssue t n s = .next s' := by
  unfold execVectorIssue
  dsimp only
  rw [if_pos hdue, h]

theorem execStallEnd_resumes {s' : State} (hdue : issueDue (s.at t) n = true) (h : issueAt n (s.at t) = .resumes s') :
    execStallEnd t n s = .next (setSeqState n 2 s') := by
  unfold execStallEnd
  dsimp only
  rw [if_pos hdue, h]

/-! What the first entry of the queue leads to. -/

section
variable {intr : Bool} {fuel : Nat} {rest : List QEntry}

theorem issueLoop_empty (h : (s.seq n).q = []) (hcond : awaitsCond s n = false) :
    issueLoop n intr (fuel + 1) s = .done (issueNothing n s) := by
  unfold issueLoop
  dsimp only
  rw [h]
  exact if_neg (by rw [hcond]; decide)

theorem issueLoop_vec {src : PAddr} {nano ts left ep : Nat} {m : Bool} {cond : Word}
    (h : (s.seq n).q = .vec src nano ts left m cond ep :: rest) :
    issueLoop n intr (fuel + 1) s = .done (issueVec n src nano ts left m cond ep s) := by
  unfold issueLoop
  dsimp only
  rw [h]

theorem issueLoop_stop {k : Nat} (h : (s.seq n).q = .stop k :: rest) :
    issueLoop n intr (fuel + 1) s = .done (endSeq n 1 k s) := by
  unfold issueLoop
  dsimp only
  rw [h]

/-- The address and the flag of an illegal word (R157). -/
def illegalNoted (n : Cluster) (a : PAddr) (s : State) : State :=
  (s.setReg .CL_STORE_ILL_ADDR n (BitVec.ofNat 32 (2 ^ 31) ||| paddrWord a)).setRb .CL_STORE_EVT n 6 true

theorem issueLoop_illegal {a : PAddr} (h : (s.seq n).q = .illegal a :: rest) :
    issueLoop n intr (fuel + 1) s = .done (endSeq n 3 0 (illegalNoted n a s)) := by
  unfold issueLoop
  dsimp only
  rw [h]
  rfl

/-- The stall point is passed, and the pattern is stalled no more (R191). -/
def stallPassed (n : Cluster) (s : State) : State := (popQ n s).modSeq n fun q => { q with stalled := false }

theorem issueLoop_resumes {p : PAddr} (h : (s.seq n).q = .stallPoint p :: rest) (herr : (s.hop n).err = false)
    (hstalled : (s.seq n).stalled = true) (hresume : mayResume s n p = true) :
    issueLoop n intr (fuel + 1) s = .resumes (stallPassed n s) := by
  unfold issueLoop
  dsimp only
  rw [h]
  dsimp only
  rw [herr, hstalled, hresume]
  rfl

end

theorem vectorIssue_looks {s' : State} (h : LooksAhead n (s.at t))
    (hloop : issueLoop n false (((s.at t).seq n).q.length + 1) (s.at t) = .done s') :
    exec (.vectorIssue t n) s = .next s' :=
  execVectorIssue_done h.1 ((issueAt_looks h).trans hloop)

/-! The pattern ends (R180). -/

theorem endSeq_reg (code exit : Nat) (r : Reg) (i : Nat) : (endSeq n code exit s).reg r i = s.reg r i := State.reg_modSeq ..
theorem endSeq_rb (code exit : Nat) (r : Reg) (i b : Nat) : (endSeq n code exit s).rb r i b = s.rb r i b := by
  rw [State.rb, endSeq_reg, ← State.rb]
theorem endSeq_rf (code exit : Nat) (r : Reg) (i lo len : Nat) :
    (endSeq n code exit s).rf r i lo len = s.rf r i lo len := by rw [State.rf, endSeq_reg, ← State.rf]
theorem endSeq_msgs (code exit : Nat) : (endSeq n code exit s).msgs = s.msgs := State.msgs_setSeq ..
theorem endSeq_ending (code exit : Nat) : ((endSeq n code exit s).seq n).ending = some (code, exit) := by
  rw [endSeq, State.seq_modSeq]
theorem endSeq_feOn (code exit : Nat) : ((endSeq n code exit s).seq n).feOn = false := by
  rw [endSeq, State.seq_modSeq]
theorem endSeq_q (code exit : Nat) : ((endSeq n code exit s).seq n).q = [] := by
  rw [endSeq, State.seq_modSeq]

/-- A pattern that ends at the boundary leaves all but its sequencer as it is. -/
theorem endSeq_frame (code exit : Nat) :
    Frame [.clasp, .seqs] [] (atCluster n) s (endSeq n code exit (s.at t)) :=
  (endSeq_upd (K := 0x101) (R := 0) (C := atCluster n) (State.at_upd (t := t) (Upd.refl (s := s)) (by decide)) (by decide)
    ⟨0, rfl⟩).frame (by decide +kernel) (by decide +kernel)

theorem vectorIssue_stop {k : Nat} {rest : List QEntry} (hlook : LooksAhead n (s.at t))
    (hq : (s.seq n).q = .stop k :: rest) :
    ∃ s', exec (.vectorIssue t n) s = .next s' ∧ (s'.seq n).ending = some (1, k) ∧ (s'.seq n).feOn = false ∧
      (s'.seq n).q = [] ∧ Frame [.clasp, .seqs] [] (atCluster n) s s' :=
  ⟨_, vectorIssue_looks hlook (issueLoop_stop (by rw [State.seq_at, hq])), endSeq_ending .., endSeq_feOn .., endSeq_q ..,
    endSeq_frame ..⟩

theorem vectorIssue_illegal {a : PAddr} {rest : List QEntry} (hlook : LooksAhead n (s.at t))
    (hq : (s.seq n).q = .illegal a :: rest) :
    ∃ s', exec (.vectorIssue t n) s = .next s' ∧ (s'.seq n).ending = some (3, 0) ∧ s'.rb .CL_STORE_EVT n.val 6 = true ∧
      s'.reg .CL_STORE_ILL_ADDR n.val = (0x80000000#32 ||| paddrWord a) ∧
      Frame [.clasp, .seqs] [.CL_STORE_ILL_ADDR, .CL_STORE_EVT] (atCluster n) s s' := by
  have hnoted : Upd 0x101 (regMask [.CL_STORE_ILL_ADDR, .CL_STORE_EVT]) (atCluster n) s (illegalNoted n a (s.at t)) :=
    State.setRb_upd (State.setReg_upd (State.at_upd (t := t) (Upd.refl (s := s)) (by decide)) (by decide +kernel)
      (RegOk.one rfl ⟨0, rfl⟩)) (by decide +kernel) (RegOk.one rfl ⟨0, rfl⟩)
  have hupd := endSeq_upd (code := 3) (exit := 0) (n := n) hnoted (by decide) ⟨0, rfl⟩
  refine ⟨_, vectorIssue_looks hlook (issueLoop_illegal (by rw [State.seq_at, hq])), endSeq_ending .., ?_, ?_,
    hupd.frame (by decide +kernel) (by decide +kernel)⟩
  · rw [endSeq_rb, illegalNoted, State.rb_setRb_same _ _ _ _ _ (by omega)]
  · rw [endSeq_reg, illegalNoted, State.reg_setRb, if_neg (by simp), State.reg_setReg_same]
    rfl

theorem abortDue_at : abortDue (s.at t) n = abortDue s n := by rw [State.at_eq]; rfl

theorem vectorIssue_abort {cause : Nat} (hdue : issueDue (s.at t) n = true) (habort : abortDue s n = some cause)
    (hrtn : (s.seq n).rtn = none) :
    ∃ s', exec (.vectorIssue t n) s = .next s' ∧ (s'.seq n).ending = some (2, 0) ∧ (s'.seq n).feOn = false ∧
      Frame [.clasp, .seqs] [] (atCluster n) s s' := by
  have hissue : issueAt n (s.at t) = .done (endSeq n 2 0 (s.at t)) := by
    unfold issueAt
    dsimp only
    rw [abortDue_at, habort, State.seq_at, hrtn]
    rfl
  exact ⟨_, execVectorIssue_done hdue hissue, endSeq_ending .., endSeq_feOn .., endSeq_frame ..⟩

/-! A stall ends (R191). -/

theorem stallEnd_resumes {p : PAddr} {rest : List QEntry} (hlook : LooksAhead n (s.at t))
    (hq : (s.seq n).q = .stallPoint p :: rest) (herr : (s.hop n).err = false) (hstalled : (s.seq n).stalled = true)
    (hresume : mayResume (s.at t) n p = true) :
    ∃ s', exec (.stallEnd t n) s = .next s' ∧ s'.seq n = { s.seq n with q := rest, stalled := false } ∧ seqState s' n = 2 ∧
      Frame [.clasp, .seqs] [.CL_SEQ_STAT] (atCluster n) s s' := by
  have hloop := issueLoop_resumes (intr := false) (fuel := ((s.at t).seq n).q.length) (rest := rest)
    (by rw [State.seq_at, hq]) (by rw [State.hop_at, herr]) (by rw [State.seq_at, hstalled]) hresume
  have hupd : Upd 0x101 (regMask [.CL_SEQ_STAT]) (atCluster n) s (setSeqState n 2 (stallPassed n (s.at t))) :=
    State.setRf_upd (State.modSeq_upd (popQ_upd (State.at_upd (t := t) (Upd.refl (s := s)) (by decide)) (by decide) ⟨0, rfl⟩)
      (by decide) ⟨0, rfl⟩) (by decide +kernel) (RegOk.one rfl ⟨0, rfl⟩)
  refine ⟨_, execStallEnd_resumes hlook.1 ((issueAt_looks hlook).trans hloop), ?_, ?_,
    hupd.frame (by decide +kernel) (by decide +kernel)⟩
  · rw [setSeqState, State.setRf, State.seq_setReg, stallPassed, State.seq_modSeq, popQ, State.seq_modSeq,
      State.seq_at, hq, List.tail_cons]
  · rw [seqState, setSeqState, State.rf_setRf_same _ _ _ _ _ _ (by omega)]
    rfl

end Sys2Proof.Machine
end

section
/-! ### A machine check at the issue stage (R164) -/

namespace Sys2Proof.Machine

variable {s : State} {n : Cluster} {t : Nat}

theorem issueNano_at (lib : Bool) (i : Nat) : issueNano (s.at t) n lib i = issueNano s n lib i := by
  rw [State.at_eq]; rfl

theorem issueVec_bad {src : PAddr} {nano ts left ep : Nat} {m : Bool} {cond : Word}
    (h : (issueNano s n src.lib nano).2 = true) :
    issueVec n src nano ts left m cond ep s = endSeq n 4 0 (machineCheck n false true 1 nano s) := by
  unfold issueVec
  dsimp only
  rw [if_pos h]

/-- The flag of a nano-word's machine check, and the first record. -/
def nanoCheckNoted (n : Cluster) (store idx : Nat) (s : State) : State :=
  if !s.rb .CL_STORE_EVT n 0 && !s.rb .CL_STORE_EVT n 1 then
    (s.setRb .CL_STORE_EVT n 1 true).setReg .CL_STORE_PAR_ADDR n (BitVec.ofNat 32 (2 ^ 31 + store * 2 ^ 28 + idx))
  else s.setRb .CL_STORE_EVT n 1 true

theorem machineCheck_nano (store idx : Nat) : machineCheck n false true store idx s =
    ((nanoCheckNoted n store idx s).count .CL_STORE_PAR_CNT n 16).send (srcOf n 34) 1 1 (store * 2 ^ 28 + idx) := rfl

theorem nanoCheckNoted_reg {store idx : Nat} {r : Reg} {i : Nat} (hevt : r ≠ .CL_STORE_EVT) (hrec : r ≠ .CL_STORE_PAR_ADDR) :
    (nanoCheckNoted n store idx s).reg r i = s.reg r i := by
  unfold nanoCheckNoted
  split
  · rw [State.reg_setReg, if_neg fun e => hrec e.1, State.reg_setRb, if_neg fun e => hevt e.1]
  · rw [State.reg_setRb, if_neg fun e => hevt e.1]

theorem nanoCheckNoted_evt {store idx : Nat} : (nanoCheckNoted n store idx s).rb .CL_STORE_EVT n 1 = true := by
  unfold nanoCheckNoted
  split
  · rw [State.rb, State.reg_setReg, if_neg (by simp), ← State.rb, State.rb_setRb_same _ _ _ _ _ (by omega)]
  · exact State.rb_setRb_same _ _ _ _ _ (by omega)

theorem nanoCheckNoted_msgs {store idx : Nat} : (nanoCheckNoted n store idx s).msgs = s.msgs := by
  unfold nanoCheckNoted
  split
  · rw [State.msgs_setReg, State.msgs_setRb]
  · rw [State.msgs_setRb]

theorem machineCheck_nano_evt {store idx : Nat} :
    (machineCheck n false true store idx s).rb .CL_STORE_EVT n 1 = true := by
  rw [machineCheck_nano, State.rb_send, State.rb, State.reg_count, if_neg (by simp), ← State.rb, nanoCheckNoted_evt]

theorem machineCheck_nano_count {store idx : Nat} : (machineCheck n false true store idx s).rf .CL_STORE_PAR_CNT n 0 16 =
    satInc 65535 (s.rf .CL_STORE_PAR_CNT n 0 16) := by
  have hcount := State.rf_count_same (s := nanoCheckNoted n store idx s) (r := .CL_STORE_PAR_CNT) (i := n) (len := 16)
    (by decide)
  simpa [machineCheck_nano, State.rf, nanoCheckNoted_reg] using hcount

theorem machineCheck_nano_msgs {store idx : Nat} : (machineCheck n false true store idx s).msgs =
    s.msgs ++ (if cluRetired s n then [] else [⟨srcOf n 34, 1, 1, store * 2 ^ 28 + idx⟩]) := by
  have hret : ((nanoCheckNoted n store idx s).count .CL_STORE_PAR_CNT n 16).reg .FLT_RET_CLU 0 = s.reg .FLT_RET_CLU 0 := by
    rw [State.reg_count, if_neg (by simp), nanoCheckNoted_reg (by decide) (by decide)]
  rw [machineCheck_nano, msgs_send_srcOf (by decide), State.msgs_count, nanoCheckNoted_msgs, cluRetired_congr hret]

theorem vectorIssue_bad {src : PAddr} {nano ts left ep : Nat} {m : Bool} {cond : Word} {rest : List QEntry}
    (hlook : LooksAhead n (s.at t)) (hq : (s.seq n).q = .vec src nano ts left m cond ep :: rest)
    (hbad : (issueNano s n src.lib nano).2 = true) :
    ∃ s', exec (.vectorIssue t n) s = .next s' ∧ (s'.seq n).ending = some (4, 0) ∧ s'.rb .CL_STORE_EVT n.val 1 = true ∧
      s'.rf .CL_STORE_PAR_CNT n.val 0 16 = satInc 65535 (s.rf .CL_STORE_PAR_CNT n.val 0 16) ∧
      s'.msgs = s.msgs ++ (if cluRetired s n then [] else [⟨44 * n.val + 34, 1, 1, 2 ^ 28 + nano⟩]) ∧
      Frame [.clasp, .seqs, .msgs] [.CL_STORE_EVT, .CL_STORE_PAR_ADDR, .CL_STORE_PAR_CNT] (atCluster n) s s' := by
  have hcheck := machineCheck_upd (K := 0x200000000000101)
    (R := regMask [.CL_STORE_EVT, .CL_STORE_PAR_ADDR, .CL_STORE_PAR_CNT]) (C := atCluster n) (micro := false) (nano := true)
    (store := 1) (idx := nano) (State.at_upd (t := t) (Upd.refl (s := s)) (by decide)) (by decide) (by decide +kernel) ⟨0, rfl⟩
  have hupd := endSeq_upd (code := 4) (exit := 0) (n := n) hcheck (by decide) ⟨0, rfl⟩
  have hissue := issueVec_bad (s := s.at t) (ts := ts) (left := left) (ep := ep) (m := m) (cond := cond)
    (by rw [issueNano_at, hbad])
  refine ⟨_, (vectorIssue_looks hlook (issueLoop_vec (by rw [State.seq_at, hq]))).trans (by rw [hissue]), endSeq_ending ..,
    ?_, ?_, ?_, hupd.frame (by decide +kernel) (by decide +kernel)⟩
  · rw [endSeq_rb, machineCheck_nano_evt]
  · rw [endSeq_rf, machineCheck_nano_count, State.rf_at]
  · rw [endSeq_msgs, machineCheck_nano_msgs, State.msgs_at, cluRetired_congr (State.reg_at ..), Nat.one_mul, srcOf]

end Sys2Proof.Machine
end

section
/-! ### Handing a vector on (R114, R154, R170, R183) -/

namespace Sys2Proof.Machine

variable {K R : Nat} {C : Nat → Nat → Prop} {s0 s : State} {n : Cluster} {t : Nat}

/-- What is handed on: the vector's kind, address, nano-word, timing set, condition set, CLRF number, and whether it is the
last of its word. -/
structure Handing where
  kind : VKind
  src : PAddr
  x : Nano
  ts : Nat
  cond : Word
  ep : Nat
  last : Bool

/-- No step waits, and a stale band is flagged in CL_SEQ_RES (R136). -/
def vecReady (n : Cluster) (s : State) : State :=
  if (s.modSeq n fun q => { q with steps := [] }).rb .CL_TIM_STAT n 8 then
    resFlag n 20 (s.modSeq n fun q => { q with steps := [] })
  else s.modSeq n fun q => { q with steps := [] }

/-- Its edges are placed. -/
def vecPlaced (n : Cluster) (h : Handing) (s : State) : State :=
  placeVec n (decide (h.kind = .hold)) (s.seq n).seqNo (s.seq n).tNext h.ts h.x s

/-- The record of the vector in flight, under vector number num. -/
def vecRecord (n : Cluster) (h : Handing) (num : Nat) (s : State) : Vec :=
  ⟨(s.seq n).seqNo, num, h.kind, h.src, (s.seq n).tNext, (s.seq n).tNext + period s n h.ts, h.cond, h.ep, h.last,
    (s.seq n).rtn.isSome, ((List.range 32).any fun c => decide (laneOf h.x c 0 = 9) || decide (laneOf h.x c 1 = 9)) &&
      decide (h.kind ≠ .hold), [], []⟩

/-- The vector count (R183). -/
def vecCount (s : State) (n : Cluster) : Nat := s.pair .CL_SEQ_VCNT_LO .CL_SEQ_VCNT_HI n

/-- It is in flight, and the next vector starts where it ends. -/
def vecFlown (n : Cluster) (h : Handing) (s : State) : State :=
  (vecPlaced n h s).modSeq n fun q =>
    { q with seqNo := q.seqNo + 1, tNext := (s.seq n).tNext + period s n h.ts, lastEnd := (s.seq n).tNext + period s n h.ts,
             infl := q.infl ++ [vecRecord n h (vecCount (vecPlaced n h s) n) s],
             rtn := q.rtn.map fun r => { r with fresh := false } }

/-- The trigger units are told when it is the pattern's first. -/
def vecStarted (n : Cluster) (h : Handing) (s : State) : State :=
  if (s.seq n).seqNo = 0 then (vecFlown n h s).trigEvent n (.patStart (s.seq n).t0) else vecFlown n h s

/-- The count is num', the address shown is src, and the trigger units are told of vector num at tick T. -/
def vecShown (n : Cluster) (src : PAddr) (num num' T : Nat) (s : State) : State :=
  ((s.setPair .CL_SEQ_VCNT_LO .CL_SEQ_VCNT_HI n num').setReg .CL_SEQ_PC n (paddrWord src)).trigEvent n (.vector num T)

/-- It is counted, its address shows, and the trigger units are told of it. -/
def vecCounted (n : Cluster) (h : Handing) (s : State) : State :=
  vecShown n h.src (vecCount (vecPlaced n h s) n) ((vecCount (vecPlaced n h s) n + 1) % 2 ^ 48) ((s.seq n).tNext / 512)
    (vecStarted n h s)

/-- Where no step waits, the hand-on is made of these. -/
theorem commitVec_eq {h : Handing} (hsteps : (s.seq n).steps = []) :
    commitVec n h.kind h.src h.x h.ts h.cond h.ep h.last s =
      if h.kind = .hold then vecStarted n h (vecReady n s) else vecCounted n h (vecReady n s) := by
  unfold commitVec
  rw [hsteps]
  rfl

/-! Before it is placed. -/

theorem vecReady_seq : (vecReady n s).seq n = { s.seq n with steps := [] } := by
  unfold vecReady
  split
  · exact (State.seq_setReg ..).trans (State.seq_modSeq ..)
  · exact State.seq_modSeq ..

theorem vecReady_reg {r : Reg} {i : Nat} (h : r ≠ .CL_SEQ_RES) : (vecReady n s).reg r i = s.reg r i := by
  unfold vecReady
  split
  · rw [resFlag, State.reg_setRb, if_neg fun e => h e.1, State.reg_modSeq]
  · rw [State.reg_modSeq]

theorem vecReady_flag {b : Nat} (h : s.rb .CL_SEQ_RES n b = true) : (vecReady n s).rb .CL_SEQ_RES n b = true := by
  unfold vecReady
  split
  · rw [resFlag, State.rb_setRb _ _ _ _ _ _ _ _ (by omega)]
    split
    · rfl
    · exact h
  · exact h

theorem vecReady_trig : (vecReady n s).trig n = s.trig n := by unfold vecReady; split <;> rfl

theorem vecReady_upd (h : Upd K R C s0 s) (hk : 0x100 ||| K = K) (hr : R.testBit (Reg.ctorIdx .CL_SEQ_RES) = true)
    (hc : ∃ c, C n.val c) : Upd K R C s0 (vecReady n s) := by
  have hsteps : Upd K R C s0 (s.modSeq n fun q => { q with steps := [] }) := State.modSeq_upd h hk hc
  exact Upd.ite (State.setRb_upd hsteps hr (RegOk.one rfl hc)) hsteps

/-! Placed. -/

/-- The placement of the vector's edges on the 32 channels. -/
def vecPlacement (n : Cluster) (h : Handing) (s : State) : Placed :=
  (List.finRange 32).foldl
    (placeChannel s n (decide (h.kind = .hold)) (s.seq n).seqNo (s.seq n).tNext h.ts h.x)
    ⟨(s.seq n).edges, (s.seq n).lastPl, false, false, false, false⟩

theorem vecPlaced_seq {h : Handing} : (vecPlaced n h s).seq n =
    { s.seq n with edges := (vecPlacement n h s).edges, lastPl := (vecPlacement n h s).last } := by
  unfold vecPlaced placeVec
  dsimp only
  split
  · exact State.seq_setSeq_same ..
  · exact State.seq_setSeq_same ..

theorem vecPlaced_reg {h : Handing} {r : Reg} {i : Nat} (htim : r ≠ .CL_TIM_EVT) (hstore : r ≠ .CL_STORE_EVT) :
    (vecPlaced n h s).reg r i = s.reg r i := by
  unfold vecPlaced placeVec
  dsimp only
  split
  · rw [State.reg_setRb, if_neg fun e => hstore e.1, State.reg_setReg, if_neg fun e => htim e.1, State.reg_setSeq]
  · rw [State.reg_setReg, if_neg fun e => htim e.1, State.reg_setSeq]

theorem vecPlaced_trig {h : Handing} : (vecPlaced n h s).trig n = s.trig n := by
  unfold vecPlaced placeVec
  dsimp only
  split <;> rfl

theorem vecCount_congr {a b : State} (hlo : b.reg .CL_SEQ_VCNT_LO n = a.reg .CL_SEQ_VCNT_LO n)
    (hhi : b.reg .CL_SEQ_VCNT_HI n = a.reg .CL_SEQ_VCNT_HI n) : vecCount b n = vecCount a n := by
  unfold vecCount State.pair; rw [hlo, hhi]

theorem vecPlaced_count {h : Handing} : vecCount (vecPlaced n h s) n = vecCount s n :=
  vecCount_congr (vecPlaced_reg (by decide) (by decide)) (vecPlaced_reg (by decide) (by decide))

/-! In flight. -/

theorem vecFlown_seq {h : Handing} : (vecFlown n h s).seq n =
    { s.seq n with
      edges := (vecPlacement n h s).edges, lastPl := (vecPlacement n h s).last, seqNo := (s.seq n).seqNo + 1,
      tNext := (s.seq n).tNext + period s n h.ts, lastEnd := (s.seq n).tNext + period s n h.ts,
      infl := (s.seq n).infl ++ [vecRecord n h (vecCount s n) s],
      rtn := (s.seq n).rtn.map fun r => { r with fresh := false } } := by
  rw [vecFlown, State.seq_modSeq, vecPlaced_seq, vecPlaced_count]

theorem vecStarted_seq {h : Handing} : (vecStarted n h s).seq n = (vecFlown n h s).seq n := by
  unfold vecStarted
  split
  · rw [State.trigEvent, State.seq_setTrig]
  · rfl

theorem vecStarted_reg {h : Handing} {r : Reg} {i : Nat} (htim : r ≠ .CL_TIM_EVT) (hstore : r ≠ .CL_STORE_EVT) :
    (vecStarted n h s).reg r i = s.reg r i := by
  have hflown : (vecFlown n h s).reg r i = s.reg r i := by rw [vecFlown, State.reg_modSeq, vecPlaced_reg htim hstore]
  unfold vecStarted
  split
  · rw [State.reg_trigEvent, hflown]
  · exact hflown

theorem vecStarted_trig {h : Handing} : ((vecStarted n h s).trig n).evts =
    (s.trig n).evts ++ if (s.seq n).seqNo = 0 then [.patStart (s.seq n).t0] else [] := by
  have hflown : (vecFlown n h s).trig n = s.trig n := by rw [vecFlown, State.modSeq, State.trig_setSeq, vecPlaced_trig]
  unfold vecStarted
  split
  · rw [State.trig_trigEvent, hflown]
  · rw [hflown, List.append_nil]

theorem vecStarted_upd {h : Handing} (hs : Upd K R C s0 s) (hk : 0x1100 ||| K = K)
    (hr : regMask [.CL_TIM_EVT, .CL_STORE_EVT] ||| R = R) (hc : ∃ c, C n.val c) : Upd K R C s0 (vecStarted n h s) := by
  have hflown : Upd K R C s0 (vecFlown n h s) :=
    State.modSeq_upd (placeVec_upd hs (sub_of rfl hk) (sub_of (by decide +kernel) hr) hc) (sub_of rfl hk) hc
  exact Upd.ite (State.trigEvent_upd hflown (sub_of rfl hk) hc) hflown

/-! Counted. -/

section
variable {src : PAddr} {num num' T : Nat}

theorem vecShown_upd (hs : Upd K R C s0 s) (hk : 0x1000 ||| K = K)
    (hr : regMask [.CL_SEQ_VCNT_LO, .CL_SEQ_VCNT_HI, .CL_SEQ_PC] ||| R = R) (hc : ∃ c, C n.val c) :
    Upd K R C s0 (vecShown n src num num' T s) :=
  State.trigEvent_upd (State.setReg_upd (State.setPair_upd hs (testBit_of_sub hr (by decide +kernel)) (RegOk.one rfl hc)
    (testBit_of_sub hr (by decide +kernel)) (RegOk.one rfl hc)) (testBit_of_sub hr (by decide +kernel)) (RegOk.one rfl hc)) hk hc

theorem vecShown_seq : (vecShown n src num num' T s).seq n = s.seq n := by
  rw [vecShown, State.trigEvent, State.seq_setTrig, State.seq_setReg, State.setPair, State.seq_setReg, State.seq_setReg]

theorem vecShown_count : vecCount (vecShown n src num num' T s) n = num' % 2 ^ 64 := by
  rw [← ofWords_lo_hi]
  simp [vecCount, State.pair, vecShown, State.setPair, State.reg_setReg]

theorem vecShown_pc : (vecShown n src num num' T s).reg .CL_SEQ_PC n = paddrWord src := by
  rw [vecShown, State.reg_trigEvent, State.reg_setReg_same]

theorem vecShown_trig : ((vecShown n src num num' T s).trig n).evts = (s.trig n).evts ++ [.vector num T] := by
  rw [vecShown, State.trig_trigEvent, State.trig_setReg, State.setPair, State.trig_setReg, State.trig_setReg]

end

theorem vecCounted_upd {h : Handing} (hs : Upd K R C s0 s) (hk : 0x1100 ||| K = K)
    (hr : regMask [.CL_SEQ_VCNT_LO, .CL_SEQ_VCNT_HI, .CL_SEQ_PC, .CL_TIM_EVT, .CL_STORE_EVT] ||| R = R)
    (hc : ∃ c, C n.val c) : Upd K R C s0 (vecCounted n h s) := by
  have hstarted : Upd K R C s0 (vecStarted n h s) := vecStarted_upd hs hk (sub_of (by decide +kernel) hr) hc
  exact vecShown_upd hstarted (sub_of rfl hk) (sub_of (by decide +kernel) hr) hc

theorem vecCounted_seq {h : Handing} : (vecCounted n h s).seq n = (vecFlown n h s).seq n := by
  rw [vecCounted, vecShown_seq, vecStarted_seq]

theorem vecCounted_count {h : Handing} : vecCount (vecCounted n h s) n = (vecCount s n + 1) % 2 ^ 48 := by
  rw [vecCounted, vecShown_count, vecPlaced_count]
  omega

theorem vecCounted_pc {h : Handing} : (vecCounted n h s).reg .CL_SEQ_PC n = paddrWord h.src := vecShown_pc

theorem vecCounted_trig {h : Handing} : ((vecCounted n h s).trig n).evts =
    (s.trig n).evts ++ (if (s.seq n).seqNo = 0 then [.patStart (s.seq n).t0] else []) ++
      [.vector (vecCount s n) ((s.seq n).tNext / 512)] := by
  rw [vecCounted, vecShown_trig, vecPlaced_count, vecStarted_trig]

/-! What is handed on, told from the state before: the placing reads six registers. -/

/-- The registers that the placing and the counting of a vector read. -/
def vecRegs : List Reg := [.CL_TS_PER, .EDGE_TAB, .FIX_TAB, .CH_BLANK, .CL_SEQ_VCNT_LO, .CL_SEQ_VCNT_HI]

section
variable {a b : State} (h : ∀ r ∈ vecRegs, ∀ i, b.reg r i = a.reg r i)
include h

theorem period_congr (ts : Nat) : period b n ts = period a n ts := by
  unfold period State.rf; rw [h _ (by decide)]

theorem placeChannel_congr (hold : Bool) (k T ts : Nat) (x : Nano) :
    placeChannel b n hold k T ts x = placeChannel a n hold k T ts x := by
  funext p c
  unfold placeChannel edgeWord
  rw [period_congr h, blankSrc_congr (h _ (by decide) _), h .FIX_TAB (by decide)]
  simp only [h .EDGE_TAB (by decide)]

theorem HandedOn.told_from {v : Handing} {s' : State} {l : List QEntry} {st : List StepEff}
    (hseq : b.seq n = { a.seq n with q := l, steps := st })
    (hon : HandedOn n v.kind v.src v.x v.ts v.cond v.ep v.last b s') :
    HandedOn n v.kind v.src v.x v.ts v.cond v.ep v.last a s' := by
  unfold HandedOn State.pair at hon ⊢
  simp only [hseq, period_congr h, placeChannel_congr h, h .CL_SEQ_VCNT_LO (by decide), h .CL_SEQ_VCNT_HI (by decide)] at hon
  exact hon

end

theorem HandedOn.of_flown {h : Handing} {s' : State} (hseq : s'.seq n = (vecFlown n h s).seq n) :
    HandedOn n h.kind h.src h.x h.ts h.cond h.ep h.last s s' := by
  unfold HandedOn
  dsimp only
  rw [hseq, vecFlown_seq]
  exact ⟨rfl, rfl, rfl, rfl, rfl⟩

/-- Handed on from the state made ready is handed on. -/
theorem HandedOn.of_ready {h : Handing} {s' : State} (hseq : s'.seq n = (vecFlown n h (vecReady n s)).seq n) :
    HandedOn n h.kind h.src h.x h.ts h.cond h.ep h.last s s' :=
  (HandedOn.of_flown hseq).told_from (fun r hr i => vecReady_reg fun e => absurd (e ▸ hr) (by decide))
    (l := (s.seq n).q) (st := []) vecReady_seq

end Sys2Proof.Machine
end

section
/-! ### The vector at the head of the queue, and the bubble (R154, R173) -/

namespace Sys2Proof.Machine

variable {s : State} {n : Cluster} {t : Nat}

theorem spanOk_at (parked : Bool) (per : Nat) : spanOk (s.at t) n parked per = spanOk s n parked per := by
  rw [State.at_eq]; rfl
theorem period_at (ts : Nat) : period (s.at t) n ts = period s n ts := State.rf_at ..

/-- What is handed on at the moment of a command is told from the state before it. -/
theorem HandedOn.of_at {v : Handing} {s' : State}
    (h : HandedOn n v.kind v.src v.x v.ts v.cond v.ep v.last (s.at t) s') :
    HandedOn n v.kind v.src v.x v.ts v.cond v.ep v.last s s' :=
  h.told_from (fun _ _ _ => State.reg_at ..) (l := (s.seq n).q) (st := (s.seq n).steps) (State.seq_at ..)

/-! A vector. -/

section
variable {h : Handing} {l : List QEntry}

/-- The vector is handed on, and the queue is l. -/
def vecIssued (n : Cluster) (h : Handing) (l : List QEntry) (s : State) : State :=
  vecCounted n h (vecReady n (s.modSeq n fun q => { q with q := l }))

theorem vecIssued_handedOn : HandedOn n h.kind h.src h.x h.ts h.cond h.ep h.last s (vecIssued n h l s) :=
  (HandedOn.of_ready (s := s.modSeq n fun q => { q with q := l }) vecCounted_seq).told_from (fun _ _ _ => State.reg_modSeq ..)
    (l := l) (st := (s.seq n).steps) (State.seq_modSeq ..)

theorem vecIssued_q : ((vecIssued n h l s).seq n).q = l := by
  rw [vecIssued, vecCounted_seq, vecFlown_seq, vecReady_seq, State.seq_modSeq]

theorem vecReady_count : vecCount (vecReady n s) n = vecCount s n :=
  vecCount_congr (vecReady_reg (by decide)) (vecReady_reg (by decide))

theorem vecIssued_count : vecCount (vecIssued n h l s) n = (vecCount s n + 1) % 2 ^ 48 := by
  rw [vecIssued, vecCounted_count, vecReady_count, vecCount_congr (State.reg_modSeq ..) (State.reg_modSeq ..)]

theorem vecIssued_pc : (vecIssued n h l s).reg .CL_SEQ_PC n = paddrWord h.src := vecCounted_pc

theorem vecIssued_trig : ((vecIssued n h l s).trig n).evts =
    (s.trig n).evts ++ (if (s.seq n).seqNo = 0 then [.patStart (s.seq n).t0] else []) ++
      [.vector (vecCount s n) ((s.seq n).tNext / 512)] := by
  rw [vecIssued, vecCounted_trig, vecReady_count, vecReady_seq, vecReady_trig, State.seq_modSeq,
    vecCount_congr (State.reg_modSeq ..) (State.reg_modSeq ..), State.modSeq, State.trig_setSeq]

theorem vecIssued_frame : Frame [.clasp, .seqs, .trigs]
    [.CL_SEQ_RES, .CL_SEQ_VCNT_LO, .CL_SEQ_VCNT_HI, .CL_SEQ_PC, .CL_TIM_EVT, .CL_STORE_EVT] (atCluster n) s
    (vecIssued n h l (s.at t)) :=
  Upd.frame (K := 0x1101)
    (R := regMask [.CL_SEQ_RES, .CL_SEQ_VCNT_LO, .CL_SEQ_VCNT_HI, .CL_SEQ_PC, .CL_TIM_EVT, .CL_STORE_EVT])
    (vecCounted_upd (vecReady_upd (State.modSeq_upd (State.at_upd (t := t) (Upd.refl (s := s)) (by decide)) (by decide) ⟨0, rfl⟩)
      (by decide) (by decide +kernel) ⟨0, rfl⟩) (by decide) (by decide +kernel) ⟨0, rfl⟩)
    (by decide +kernel) (by decide +kernel)

end

/-- The vector that an entry of the queue names, of nano-word x. -/
def vecHanding (m : Bool) (src : PAddr) (x : Nano) (ts left : Nat) (cond : Word) (ep : Nat) : Handing :=
  ⟨if m then .mvec else .vec, src, x, ts, cond, ep, decide (left ≤ 1)⟩

section
variable {src : PAddr} {nano ts left ep : Nat} {m : Bool} {cond : Word} {rest : List QEntry}

theorem vecHanding_kind {x : Nano} : (vecHanding m src x ts left cond ep).kind ≠ .hold := by cases m <;> simp [vecHanding]

theorem issueVec_good (hq : (s.seq n).q = .vec src nano ts left m cond ep :: rest) (hsteps : (s.seq n).steps = [])
    (hgood : (issueNano s n src.lib nano).2 = false) (hspan : spanOk s n false (period s n ts) = true) :
    issueVec n src nano ts left m cond ep s =
      vecIssued n (vecHanding m src (issueNano s n src.lib nano).1 ts left cond ep)
        (if left ≤ 1 then rest else .vec src nano ts (left - 1) m cond ep :: rest) s := by
  have htail : (s.seq n).q.tail = rest := by rw [hq, List.tail_cons]
  unfold issueVec State.modSeq
  dsimp only
  rw [if_neg (by rw [hgood]; decide), if_neg (by rw [hspan]; decide), htail]
  have hcommit := commitVec_eq (n := n) (h := vecHanding m src (issueNano s n src.lib nano).1 ts left cond ep)
    (s := s.modSeq n fun q =>
      { q with q := if left ≤ 1 then rest else .vec src nano ts (left - 1) m cond ep :: rest })
    (by rw [State.seq_modSeq, hsteps])
  rw [if_neg vecHanding_kind] at hcommit
  exact hcommit

theorem vectorIssue_vec (hlook : LooksAhead n (s.at t)) (hq : (s.seq n).q = .vec src nano ts left m cond ep :: rest)
    (hsteps : (s.seq n).steps = []) (hgood : (issueNano s n src.lib nano).2 = false)
    (hspan : spanOk s n false (period s n ts) = true) :
    ∃ s', exec (.vectorIssue t n) s = .next s' ∧
      HandedOn n (if m then .mvec else .vec) src (issueNano s n src.lib nano).1 ts cond ep (decide (left ≤ 1)) s s' ∧
      (s'.seq n).q = (if left ≤ 1 then rest else .vec src nano ts (left - 1) m cond ep :: rest) ∧
      s'.pair .CL_SEQ_VCNT_LO .CL_SEQ_VCNT_HI n.val = (s.pair .CL_SEQ_VCNT_LO .CL_SEQ_VCNT_HI n.val + 1) % 2 ^ 48 ∧
      s'.reg .CL_SEQ_PC n.val = paddrWord src ∧
      (s'.trig n).evts = (s.trig n).evts ++ (if (s.seq n).seqNo = 0 then [.patStart (s.seq n).t0] else []) ++
        [.vector (s.pair .CL_SEQ_VCNT_LO .CL_SEQ_VCNT_HI n.val) ((s.seq n).tNext / 512)] ∧
      Frame [.clasp, .seqs, .trigs] [.CL_SEQ_RES, .CL_SEQ_VCNT_LO, .CL_SEQ_VCNT_HI, .CL_SEQ_PC, .CL_TIM_EVT, .CL_STORE_EVT]
        (atCluster n) s s' := by
  have hq' : ((s.at t).seq n).q = .vec src nano ts left m cond ep :: rest := by rw [State.seq_at, hq]
  have hexec := vectorIssue_looks hlook (issueLoop_vec hq')
  rw [issueVec_good hq' (by rw [State.seq_at, hsteps]) (by rw [issueNano_at, hgood]) (by rw [spanOk_at, period_at, hspan]),
    issueNano_at] at hexec
  have hcount : vecCount (s.at t) n = vecCount s n := vecCount_congr (State.reg_at ..) (State.reg_at ..)
  refine ⟨_, hexec, vecIssued_handedOn.of_at, vecIssued_q, ?_, vecIssued_pc, ?_, vecIssued_frame⟩
  · rw [← vecCount, vecIssued_count, hcount, vecCount]
  · rw [vecIssued_trig, hcount, State.seq_at, State.trig_at, vecCount]

end

/-! A bubble. -/

/-- The nano-word of the hold vector, and whether its parity is wrong (R154, R164). -/
def holdNano (s : State) (n : Cluster) : Nano × Bool :=
  match (s.seq n).hold.nano with
  | none => (keepNano, false)
  | some p => issueNano s n p.1 p.2

/-- The hold vector of nano-word x. -/
def holdHanding (s : State) (n : Cluster) (x : Nano) : Handing := ⟨.hold, (s.seq n).fe.pc, x, (s.seq n).hold.ts, 0#32, 0, false⟩

/-- The index of the hold vector's nano-word, as its machine check names it. -/
def holdIndex (s : State) (n : Cluster) : Nat :=
  match (s.seq n).hold.nano with
  | some p => p.2
  | none => 0

theorem issueHold_eq (parked : Bool) : issueHold n parked s =
    if (holdNano s n).2 then endSeq n 4 0 (machineCheck n false true 1 (holdIndex s n) s)
    else if !spanOk s n parked (period s n (s.seq n).hold.ts) then overrun n s
    else commitVec n .hold (s.seq n).fe.pc (holdNano s n).1 (s.seq n).hold.ts 0#32 0 false s := rfl

theorem issueHold_good {x : Nano} (hnano : holdNano s n = (x, false))
    (hspan : spanOk s n false (period s n (s.seq n).hold.ts) = true) (hsteps : (s.seq n).steps = []) :
    issueHold n false s = vecStarted n (holdHanding s n x) (vecReady n s) := by
  have hcommit := commitVec_eq (n := n) (s := s) (h := holdHanding s n x) hsteps
  rw [if_pos (show (holdHanding s n x).kind = .hold from rfl)] at hcommit
  rw [← hcommit]
  rw [issueHold_eq, hnano, if_neg (by simp), if_neg (by rw [hspan]; decide)]
  rfl

/-- A bubble is counted and flagged (R173). -/
def bubbleNoted (n : Cluster) (s : State) : State := seqEvt n 2 (resFlag n 19 (seqCount .CL_SEQ_BUBBLES n s))

theorem issueNothing_bubble (hready : feReady s n = true)
    (hstall : ((s.seq n).fe.pc.lib || !(s.microAt n (s.seq n).fe.pc.a).nostall) = true) :
    issueNothing n s = issueHold n false (bubbleNoted n s) := by
  unfold issueNothing
  dsimp only
  rw [if_neg (by rw [hready]; decide), if_neg]
  · rfl
  · cases hlib : (s.seq n).fe.pc.lib <;> simp_all

theorem bubbleNoted_reg {r : Reg} {i : Nat} (hcnt : r ≠ .CL_SEQ_BUBBLES) (hres : r ≠ .CL_SEQ_RES) (hevt : r ≠ .CL_SEQ_EVT) :
    (bubbleNoted n s).reg r i = s.reg r i := by
  rw [bubbleNoted, seqEvt, State.reg_setRb, if_neg fun e => hevt e.1, resFlag, State.reg_setRb, if_neg fun e => hres e.1,
    seqCount, State.reg_count, if_neg fun e => hcnt e.1]

theorem bubbleNoted_seq : (bubbleNoted n s).seq n = s.seq n := by
  rw [bubbleNoted, seqEvt, State.setRb, State.seq_setReg, resFlag, State.setRb, State.seq_setReg, seqCount, State.count,
    State.setRf, State.seq_setReg]

/-- A count of a whole word goes up by one and saturates. -/
theorem seqCount_same (r : Reg) : (seqCount r n s).reg r n = BitVec.ofNat 32 (satInc (2 ^ 32 - 1) (s.reg r n).toNat) := by
  have hcount : (seqCount r n s).rf r n 0 32 = satInc (2 ^ 32 - 1) (s.rf r n 0 32) := State.rf_count_same (by omega)
  rw [State.rf, State.rf, fld_word, fld_word] at hcount
  rw [← hcount, BitVec.ofNat_toNat, BitVec.setWidth_eq]

theorem bubbleNoted_count : (bubbleNoted n s).reg .CL_SEQ_BUBBLES n =
    BitVec.ofNat 32 (satInc (2 ^ 32 - 1) (s.reg .CL_SEQ_BUBBLES n).toNat) := by
  rw [bubbleNoted, seqEvt, State.reg_setRb, if_neg (by simp), resFlag, State.reg_setRb, if_neg (by simp), seqCount_same]

theorem bubbleNoted_flag : (bubbleNoted n s).rb .CL_SEQ_RES n 19 = true := by
  rw [bubbleNoted, seqEvt, State.rb, State.reg_setRb, if_neg (by simp)]
  exact State.rb_setRb_same _ _ _ _ _ (by omega)

theorem bubbleNoted_evt : (bubbleNoted n s).rb .CL_SEQ_EVT n 2 = true := State.rb_setRb_same _ _ _ _ _ (by omega)

theorem bubbleNoted_upd {K R : Nat} {C : Nat → Nat → Prop} {s0 : State} (h : Upd K R C s0 s)
    (hr : regMask [.CL_SEQ_RES, .CL_SEQ_BUBBLES, .CL_SEQ_EVT] ||| R = R) (hc : ∃ c, C n.val c) :
    Upd K R C s0 (bubbleNoted n s) :=
  State.setRb_upd (State.setRb_upd (seqCount_upd h (testBit_of_sub hr (by decide +kernel)) (RegOk.one rfl hc))
    (testBit_of_sub hr (by decide +kernel)) (RegOk.one rfl hc)) (testBit_of_sub hr (by decide +kernel)) (RegOk.one rfl hc)

/-- What a bubble leaves where nothing forbids the hold vector. -/
def bubbleIssued (n : Cluster) (x : Nano) (s : State) : State :=
  vecStarted n (holdHanding s n x) (vecReady n (bubbleNoted n s))

section
variable {x : Nano}

theorem issueLoop_bubble {fuel : Nat} (hq : (s.seq n).q = []) (hsteps : (s.seq n).steps = [])
    (hcond : awaitsCond s n = false) (hready : feReady s n = true)
    (hstall : ((s.seq n).fe.pc.lib || !(s.microAt n (s.seq n).fe.pc.a).nostall) = true)
    (hnano : holdNano s n = (x, false)) (hspan : spanOk s n false (period s n (s.seq n).hold.ts) = true) :
    issueLoop n false (fuel + 1) s = .done (bubbleIssued n x s) := by
  have hper : period (bubbleNoted n s) n (s.seq n).hold.ts = period s n (s.seq n).hold.ts := by
    unfold period State.rf; rw [bubbleNoted_reg (by decide) (by decide) (by decide)]
  rw [issueLoop_empty hq hcond, issueNothing_bubble hready hstall]
  exact congrArg _ (issueHold_good (s := bubbleNoted n s) hnano (hper ▸ hspan) hsteps)

theorem bubbleIssued_handedOn :
    HandedOn n .hold (s.seq n).fe.pc x (s.seq n).hold.ts 0#32 0 false s (bubbleIssued n x s) :=
  (HandedOn.of_ready (h := holdHanding s n x) (s := bubbleNoted n s) vecStarted_seq).told_from (v := holdHanding s n x)
    (fun _ hr _ => bubbleNoted_reg (fun e => absurd (e ▸ hr) (by decide)) (fun e => absurd (e ▸ hr) (by decide))
      fun e => absurd (e ▸ hr) (by decide)) (l := (s.seq n).q) (st := (s.seq n).steps) bubbleNoted_seq

theorem bubbleIssued_count : (bubbleIssued n x s).reg .CL_SEQ_BUBBLES n =
    BitVec.ofNat 32 (satInc (2 ^ 32 - 1) (s.reg .CL_SEQ_BUBBLES n).toNat) := by
  rw [bubbleIssued, vecStarted_reg (by decide) (by decide), vecReady_reg (by decide), bubbleNoted_count]

theorem bubbleIssued_flag : (bubbleIssued n x s).rb .CL_SEQ_RES n 19 = true := by
  rw [bubbleIssued, State.rb, vecStarted_reg (by decide) (by decide), ← State.rb, vecReady_flag bubbleNoted_flag]

theorem bubbleIssued_evt : (bubbleIssued n x s).rb .CL_SEQ_EVT n 2 = true := by
  rw [bubbleIssued, State.rb, vecStarted_reg (by decide) (by decide), vecReady_reg (by decide), ← State.rb, bubbleNoted_evt]

theorem bubbleIssued_frame : Frame [.clasp, .seqs, .trigs]
    [.CL_SEQ_RES, .CL_SEQ_BUBBLES, .CL_SEQ_EVT, .CL_TIM_EVT, .CL_STORE_EVT] (atCluster n) s (bubbleIssued n x (s.at t)) :=
  Upd.frame (K := 0x1101) (R := regMask [.CL_SEQ_RES, .CL_SEQ_BUBBLES, .CL_SEQ_EVT, .CL_TIM_EVT, .CL_STORE_EVT])
    (vecStarted_upd (vecReady_upd (bubbleNoted_upd (State.at_upd (t := t) (Upd.refl (s := s)) (by decide)) (by decide +kernel)
      ⟨0, rfl⟩) (by decide) (by decide +kernel) ⟨0, rfl⟩) (by decide) (by decide +kernel) ⟨0, rfl⟩)
    (by decide +kernel) (by decide +kernel)

theorem vectorIssue_bubble (hlook : LooksAhead n (s.at t)) (hq : (s.seq n).q = []) (hsteps : (s.seq n).steps = [])
    (hcond : awaitsCond (s.at t) n = false) (hready : feReady s n = true)
    (hstall : ((s.seq n).fe.pc.lib || !(s.microAt n (s.seq n).fe.pc.a).nostall) = true)
    (hnano : holdNano s n = (x, false)) (hspan : spanOk s n false (period s n (s.seq n).hold.ts) = true) :
    ∃ s', exec (.vectorIssue t n) s = .next s' ∧
      HandedOn n .hold (s.seq n).fe.pc x (s.seq n).hold.ts 0#32 0 false s s' ∧
      s'.reg .CL_SEQ_BUBBLES n.val = BitVec.ofNat 32 (satInc (2 ^ 32 - 1) (s.reg .CL_SEQ_BUBBLES n.val).toNat) ∧
      s'.rb .CL_SEQ_RES n.val 19 = true ∧ s'.rb .CL_SEQ_EVT n.val 2 = true ∧
      Frame [.clasp, .seqs, .trigs] [.CL_SEQ_RES, .CL_SEQ_BUBBLES, .CL_SEQ_EVT, .CL_TIM_EVT, .CL_STORE_EVT]
        (atCluster n) s s' := by
  have hready' : feReady (s.at t) n = true := by rw [← hready, State.at_eq]; rfl
  have hnano' : holdNano (s.at t) n = (x, false) := by rw [← hnano, State.at_eq]; rfl
  have hexec := vectorIssue_looks hlook (issueLoop_bubble (by rw [State.seq_at, hq]) (by rw [State.seq_at, hsteps]) hcond hready'
    (by rw [State.seq_at, State.microAt_at, hstall]) hnano' (by rw [State.seq_at, spanOk_at, period_at, hspan]))
  have hon := bubbleIssued_handedOn (s := s.at t) (n := n) (x := x)
  rw [State.seq_at] at hon
  exact ⟨_, hexec, HandedOn.of_at (v := holdHanding s n x) hon, by rw [bubbleIssued_count, State.reg_at], bubbleIssued_flag,
    bubbleIssued_evt, bubbleIssued_frame⟩

end

/-- Settles O26, clause by clause: a vector handed on is `vecCounted`, a bubble `bubbleIssued`. -/
theorem vectorsHandedOn : Obligations.VectorsHandedOn := by
  unfold Obligations.VectorsHandedOn
  refine ⟨fun _ _ _ _ _ _ _ _ _ _ _ hlook hq hsteps hgood hspan => vectorIssue_vec hlook hq hsteps hgood hspan,
    fun _ _ _ _ hlook hq hsteps hcond hready hstall hnano hspan =>
      vectorIssue_bubble hlook hq hsteps hcond hready hstall hnano hspan,
    fun _ _ _ _ _ hlook hq => vectorIssue_stop hlook hq, fun _ _ _ _ _ hlook hq => vectorIssue_illegal hlook hq,
    fun _ _ _ _ _ _ _ _ _ _ _ hlook hq hbad => vectorIssue_bad hlook hq hbad,
    fun _ _ _ _ hdue habort hrtn => vectorIssue_abort hdue habort hrtn,
    fun _ _ _ _ _ hlook hq herr hstalled hresume => stallEnd_resumes hlook hq herr hstalled hresume⟩

end Sys2Proof.Machine
end

/-! # Patterns: obligations O17 to O23, O27

SUPPORT. First the microwords and their encodings, then what the front end makes of each, then the stores, the results of
vectors and the log; each obligation is put together from those. -/

section
/-! ### Microwords and their encodings (R146, R148) -/

namespace Sys2Proof

section
variable {u v w x y z : Nat} (a : BitVec u) (b : BitVec v) (c : BitVec w) (d : BitVec x) (e : BitVec y) (f : BitVec z)

/-! Where a field stands in a word that is written out from its fields, highest first. -/

theorem field_second : (a ++ (b ++ c)).extractLsb' w v = b := by
  rw [BitVec.extractLsb'_append_eq_of_add_le (by omega), BitVec.extractLsb'_append_eq_left]

theorem field_third : (a ++ (b ++ (c ++ d))).extractLsb' x w = c := by
  rw [BitVec.extractLsb'_append_eq_of_add_le (by omega), field_second]

theorem field_fourth : (a ++ (b ++ (c ++ (d ++ e)))).extractLsb' y x = d := by
  rw [BitVec.extractLsb'_append_eq_of_add_le (by omega), field_third]

theorem field_fifth : (a ++ (b ++ (c ++ (d ++ (e ++ f))))).extractLsb' z y = e := by
  rw [BitVec.extractLsb'_append_eq_of_add_le (by omega), field_fourth]

theorem field_third_last : (a ++ (b ++ c)).extractLsb' 0 w = c := by
  rw [BitVec.extractLsb'_append_eq_of_add_le (by omega), BitVec.extractLsb'_append_eq_right]

theorem field_fourth_last : (a ++ (b ++ (c ++ d))).extractLsb' 0 x = d := by
  rw [BitVec.extractLsb'_append_eq_of_add_le (by omega), field_third_last]

theorem field_fifth_last : (a ++ (b ++ (c ++ (d ++ e)))).extractLsb' 0 y = e := by
  rw [BitVec.extractLsb'_append_eq_of_add_le (by omega), field_fourth_last]

end

/-- The opcode stands in the six highest bits (R146). -/
theorem opcode_append (o : BitVec 6) (f : BitVec 26) : (o ++ f : Word).extractLsb' 26 6 = o :=
  BitVec.extractLsb'_append_eq_left

theorem opcode_encodeMicro (m : Micro) : (encodeMicro m).extractLsb' 26 6 = m.op := by
  cases m <;> exact opcode_append ..

/-- By layout: the opcode picks the decoder's branch, and each of the branch's fields is where the encoder put it. -/
theorem decodeMicro_encodeMicro (m : Micro) : decodeMicro (encodeMicro m) = some m := by
  unfold decodeMicro
  rw [opcode_encodeMicro]
  cases m with
  | vec n t r | mvec n t r | hset n t r =>
    unfold encodeMicro
    show some _ = some _
    rw [field_second, field_third, field_fourth_last]
  | jmp l a | call l a | jm l a | jnm l a | jf l a | jnf l a | runw l a =>
    unfold encodeMicro
    show some _ = some _
    rw [field_third, field_fourth_last]
  | ret | clrf | mwait => rfl
  | ldc c k | wtrig c k =>
    unfold encodeMicro
    show some _ = some _
    rw [field_second, field_third_last]
  | loop c l a =>
    unfold encodeMicro
    show some _ = some _
    rw [field_second, field_fourth, field_fifth_last]
  | csel n | sel n =>
    unfold encodeMicro
    show some _ = some _
    rw [field_second]
  | rpt k | hold k =>
    unfold encodeMicro
    show some _ = some _
    rw [BitVec.extractLsb'_append_eq_right]
  | wct n p r =>
    unfold encodeMicro
    show some _ = some _
    rw [field_second, field_third, field_fifth_last]
  | rmark i | rbeg i | mst i | stop i =>
    unfold encodeMicro
    show some _ = some _
    rw [field_third_last]
  | wri w v =>
    unfold encodeMicro
    show some _ = some _
    rw [field_third, field_fourth_last]
  | wrn w n k =>
    unfold encodeMicro
    show some _ = some _
    rw [field_third, field_fourth, field_fifth]

/-- Settles O21: the word of each layout decodes field by field. -/
theorem microwordsDecodeAsEncoded : Obligations.MicrowordsDecodeAsEncoded := decodeMicro_encodeMicro

/-- Settles O22: the decoder evaluates each word. -/
theorem microwordsWrittenOut : Obligations.MicrowordsWrittenOut := by
  unfold Obligations.MicrowordsWrittenOut
  exact ⟨rfl, rfl, rfl, rfl, rfl, rfl, rfl, rfl⟩

end Sys2Proof
end

section
/-! ### The front end goes on (R143, R170, R188, R190) -/

namespace Sys2Proof.Machine

variable {s s' : State} {n : Cluster} {t : Nat} {p : PAddr} {m : Micro}

/-! Where a first fetch crosses into the other half. -/

theorem crossing_setSeq (q : Seq) : crossing (s.setSeq n q) n p = crossing s n p := by
  unfold crossing streaming State.rb State.rf; rw [State.reg_setSeq, State.reg_setSeq]

theorem State.hops_at : (s.at t).hops = s.hops := by rw [State.at_eq]

theorem crossing_at : crossing (s.at t) n p = crossing s n p := by
  unfold crossing streaming; rw [State.rb_at, State.rf_at]

theorem feGoto_seq : (feGoto n p s).seq n =
    { s.seq n with q := (s.seq n).q ++ crossing s n p, fe := { (s.seq n).fe with pc := p } } := by
  unfold feGoto crossing
  dsimp only
  by_cases hstay : p.lib ∨ p.a / 32768 = s.rf .CL_STORE_STAT n 0 1
  · rw [if_pos hstay, if_neg fun h => hstay.elim (fun e => by simp [e] at h) fun e => h.2.1 e, State.seq_setSeq_same,
      List.append_nil]
  · obtain ⟨hlib, hhalf⟩ := not_or.1 hstay
    rw [if_neg hstay]
    by_cases hstream : streaming s n = true
    · rw [if_pos hstream, if_pos ⟨by simpa using hlib, hhalf, hstream⟩, State.seq_setHop, State.seq_setSeq_same]
      rfl
    · rw [if_neg hstream, if_neg fun h => hstream h.2.2, State.seq_setSeq_same, List.append_nil]

theorem feGoto_hops (h : crossing s n p = []) : (feGoto n p s).hops = s.hops := by
  unfold feGoto
  dsimp only
  split
  · rfl
  · rename_i hstay
    obtain ⟨hlib, hhalf⟩ := not_or.1 hstay
    split
    · rename_i hstream
      rw [crossing, if_pos ⟨by simpa using hlib, hhalf, hstream⟩] at h
      cases h
    · rfl

theorem feGoto_changes {K R : Nat} {C : Nat → Nat → Prop} (h : Upd K R C s s') (hk : 0x300 ||| K = K)
    (hr : regMask [.CL_STORE_STAT] ||| R = R) (hc : ∃ c, C n.val c) : Upd K R C s (feGoto n p s') :=
  feGoto_upd h hk (sub_of (by decide +kernel) hr) hc

/-- The front end goes on at p, after what the word made of the sequencer's record. -/
def wentOn (t : Nat) (n : Cluster) (p : PAddr) (q : Seq) (s : State) : State := feGoto n p ((s.at t).setSeq n q)

theorem wentOn_seq {q : Seq} :
    (wentOn t n p q s).seq n = { q with q := q.q ++ crossing s n p, fe := { q.fe with pc := p } } := by
  rw [wentOn, feGoto_seq, State.seq_setSeq_same, crossing_setSeq, crossing_at]

theorem wentOn_upd {q : Seq} {K R : Nat} (hk : 0x301 ||| K = K) (hr : regMask [.CL_STORE_STAT] ||| R = R) :
    Upd K R (atCluster n) s (wentOn t n p q s) :=
  feGoto_changes (State.setSeq_upd (State.at_upd (Upd.refl (s := s)) (sub_of rfl hk)) (sub_of rfl hk) ⟨0, rfl⟩)
    (sub_of rfl hk) hr ⟨0, rfl⟩

theorem wentOn_frame {q : Seq} : Frame [.clasp, .seqs, .hops] [.CL_STORE_STAT] (atCluster n) s (wentOn t n p q s) :=
  (wentOn_upd (Nat.or_self _) (Nat.or_self _)).frame (by decide +kernel) (by decide +kernel)

/-- Going on with fe, es in the queue. -/
theorem wentOn_goesOn {es : List QEntry} {fe : FE} :
    GoesOn n p es fe s (wentOn t n p { s.seq n with q := (s.seq n).q ++ es, fe := fe } s) :=
  ⟨wentOn_seq, fun h => (feGoto_hops (by rw [crossing_setSeq, crossing_at, h])).trans State.hops_at, wentOn_frame⟩

theorem seqSet_frame {q : Seq} : Frame [.clasp, .seqs] [] (atCluster n) s ((s.at t).setSeq n q) :=
  (State.setSeq_upd (K := 0x101) (R := 0) (C := atCluster n) (State.at_upd (Upd.refl (s := s)) (by decide)) (by decide)
    ⟨0, rfl⟩).frame (by decide +kernel) (by decide +kernel)

/-! What a word that stands at the front end does. -/

theorem Stands.at (h : Stands n m s) : Stands n m (s.at t) := by rw [State.at_eq]; exact h

theorem feWord_good {m : Micro} (h : feWord s n = some m) : (fetchWord s n (s.seq n).fe.pc).2 = false := by
  unfold feWord at h
  split at h
  · rename_i hgood
    rw [Bool.and_eq_true, Bool.not_eq_true'] at hgood
    exact hgood.2
  · cases h

theorem feExec_stands (h : Stands n m s) : feExec n m.op s = feApply n m s := by
  obtain ⟨hword, hlegal, hroom⟩ := h
  unfold feExec
  rw [feWord_good hword, Bool.and_false, Bool.false_and, if_neg (by decide), hword]
  exact if_pos ⟨rfl, hlegal, hroom⟩

/-- What a word does is read off `feApply`: the command's time changes the clasp alone. -/
theorem Stands.does {f : State → State} (h : Stands n m s)
    (happly : ∀ c, feApply n m { s with clasp := c } = f { s with clasp := c }) : feExec n m.op (s.at t) = f (s.at t) := by
  rw [feExec_stands h.at, State.at_eq, happly]

/-- A word that only goes on. -/
theorem Stands.goesOn {es : List QEntry} {fe : FE} (h : Stands n m s)
    (happly : ∀ c, feApply n m { s with clasp := c } =
      feGoto n p ({ s with clasp := c }.setSeq n { s.seq n with q := (s.seq n).q ++ es, fe := fe })) :
    ∃ s', Host.Outcome.next (feExec n m.op (s.at t)) = (.next s' : Res) ∧ GoesOn n p es fe s s' :=
  ⟨_, congrArg _ (h.does (f := fun u => feGoto n p (u.setSeq n _)) happly), wentOn_goesOn⟩

/-- A word that goes on and puts nothing into the queue. -/
theorem Stands.goesOnly {fe : FE} (h : Stands n m s) (happly : ∀ c, feApply n m { s with clasp := c } =
      feGoto n p ({ s with clasp := c }.setSeq n { s.seq n with fe := fe })) :
    ∃ s', Host.Outcome.next (feExec n m.op (s.at t)) = (.next s' : Res) ∧ GoesOn n p [] fe s s' :=
  h.goesOn fun c => by rw [List.append_nil]; exact happly c

/-- A word at which the front end's own record changes, and no other register or part. -/
theorem Stands.stays {q : Seq} (h : Stands n m s)
    (happly : ∀ c, feApply n m { s with clasp := c } = { s with clasp := c }.setSeq n q) :
    ∃ s', Host.Outcome.next (feExec n m.op (s.at t)) = (.next s' : Res) ∧ s'.seq n = q ∧
      Frame [.clasp, .seqs] [] (atCluster n) s s' :=
  ⟨_, congrArg _ (h.does (f := fun u => u.setSeq n q) happly), State.seq_setSeq_same .., seqSet_frame⟩

/-- Settles O17: each of the three words adds its entry and goes on at the next word. -/
theorem vectorWordsQueued : Obligations.VectorWordsQueued := by
  unfold Obligations.VectorWordsQueued
  exact ⟨fun _ _ _ _ _ _ h => h.goesOn fun _ => rfl, fun _ _ _ _ _ _ h => h.goesOn fun _ => rfl,
    fun _ _ _ _ _ _ h => h.goesOn fun _ => rfl⟩

end Sys2Proof.Machine
end

section
/-! ### Branches, calls and conditionals (R148, R149, R174, R175, R190, R198) -/

namespace Sys2Proof.Machine

variable {s s' : State} {n : Cluster} {t : Nat} {p : PAddr} {m : Micro}

/-! The stack, whose depth CL_SEQ_STAT shows. -/

theorem noteDepth_seq : (noteDepth n s).seq n = s.seq n := State.seq_setReg ..

theorem noteDepth_depth : (noteDepth n s).rf .CL_SEQ_STAT n 5 5 = (s.seq n).fe.stack.length % 32 :=
  State.rf_setRf_same _ _ _ _ _ _ (by omega)

theorem noteDepth_wentOn_frame {q : Seq} :
    Frame [.clasp, .seqs, .hops] [.CL_SEQ_STAT, .CL_STORE_STAT] (atCluster n) s (noteDepth n (wentOn t n p q s)) :=
  (noteDepth_upd (R := regMask [.CL_SEQ_STAT, .CL_STORE_STAT]) (wentOn_upd (Nat.or_self _) (by decide +kernel))
    (by decide +kernel) ⟨0, rfl⟩).frame (by decide +kernel) (by decide +kernel)

/-- A word that goes on and shows the depth of its stack. -/
theorem Stands.goesDeep {q : Seq} (h : Stands n m s)
    (happly : ∀ c, feApply n m { s with clasp := c } = noteDepth n (feGoto n p ({ s with clasp := c }.setSeq n q))) :
    ∃ s', Host.Outcome.next (feExec n m.op (s.at t)) = (.next s' : Res) ∧
      s'.seq n = { q with q := q.q ++ crossing s n p, fe := { q.fe with pc := p } } ∧
      s'.rf .CL_SEQ_STAT n 5 5 = q.fe.stack.length % 32 ∧
      Frame [.clasp, .seqs, .hops] [.CL_SEQ_STAT, .CL_STORE_STAT] (atCluster n) s s' :=
  ⟨_, congrArg _ (h.does (f := fun u => noteDepth n (feGoto n p (u.setSeq n q))) happly),
    noteDepth_seq.trans wentOn_seq, by rw [noteDepth_depth, ← wentOn, wentOn_seq], noteDepth_wentOn_frame⟩

theorem Stands.call_shallow {l : BitVec 1} {a : BitVec 16} (h : Stands n (.call l a) s) : (s.seq n).fe.stack.length < 16 := by
  obtain ⟨-, hlegal, -⟩ := h
  unfold microLegal at hlegal
  simp only [Bool.and_eq_true, decide_eq_true_eq] at hlegal
  exact hlegal.2.1

section
variable {st : List PAddr} (hunwind : (s.seq n).unwind = false) (hstack : (s.seq n).fe.stack = p :: st)
include hunwind hstack

/-- A RET inside a routine, or outside all. -/
theorem feApply_ret (hrtn : ∀ x, (s.seq n).fe.rtn = some x → x.depth ≠ st.length + 1) : feApply n .ret s =
    noteDepth n (feGoto n p (s.setSeq n { s.seq n with fe := { feLeft s n with stack := st } })) := by
  unfold feApply
  dsimp only
  rw [hunwind, if_neg (by decide), hstack]
  split
  · rename_i x hx
    exact if_neg (hrtn x hx)
  · rfl

/-- The RET of a routine's entry call. -/
theorem feApply_ret_routine {x : RtnFE} (hrtn : (s.seq n).fe.rtn = some x) (hdepth : x.depth = st.length + 1) :
    feApply n .ret s = noteDepth n (feGoto n p (s.setSeq n { s.seq n with
      q := (s.seq n).q ++ [.rret x.hold],
      fe := { feLeft s n with stack := st, sel := x.sel, cond := x.cond, hold := x.hold, rtn := none } })) := by
  unfold feApply
  dsimp only
  rw [hunwind, if_neg (by decide), hstack, hrtn]
  exact if_pos hdepth

end

/-- The RET that ends an unwind. -/
theorem feApply_ret_unwind (hunwind : (s.seq n).unwind = true) : feApply n .ret s =
    s.setSeq n { s.seq n with q := (s.seq n).q ++ [.stop 0], feOn := false } := by
  unfold feApply
  exact if_pos hunwind

/-! A LOOP is a stall point of a streamed pattern in the user store. -/

/-- The stall point of a LOOP that goes on at p, where it is one. -/
def loopStall (n : Cluster) (stall : Bool) (p : PAddr) (s : State) : State :=
  if stall then s.modSeq n fun q => pushQ q (.stallPoint p) else s

theorem loopStall_seq {stall : Bool} : (loopStall n stall p s).seq n =
    { s.seq n with q := (s.seq n).q ++ if stall then [.stallPoint p] else [] } := by
  unfold loopStall
  cases stall
  · rw [if_neg (by decide), if_neg (by decide), List.append_nil]
  · rw [if_pos rfl, if_pos rfl, State.seq_modSeq]
    rfl

theorem loopStall_upd {K R : Nat} {C : Nat → Nat → Prop} {s0 : State} {stall : Bool} (h : Upd K R C s0 s)
    (hk : 0x100 ||| K = K) (hc : ∃ c, C n.val c) : Upd K R C s0 (loopStall n stall p s) :=
  Upd.ite (State.modSeq_upd h hk hc) h

theorem loop_goesOn {k : BitVec 3} {l : BitVec 1} {a : BitVec 16} (h : Stands n (.loop k l a) s) :
    let old := (s.seq n).fe.ctrs.getD k.toNat 0
    let v := if old = 0 then Config.loopZero k.toNat % 2 ^ 23 else old - 1
    let dst := if v ≠ 0 then target l a else feNext s n
    ∃ s', exec (.loop t n) s = .next s' ∧
      s'.seq n = { s.seq n with
        q := (s.seq n).q ++ crossing s n dst ++ (if streaming s n && !(s.seq n).fe.pc.lib then [.stallPoint dst] else []),
        fe := { feLeft s n with pc := dst, ctrs := (s.seq n).fe.ctrs.set k.toNat v } } ∧
      Frame [.clasp, .seqs, .hops] [.CL_STORE_STAT] (atCluster n) s s' := by
  intro old v dst
  refine ⟨_, congrArg Host.Outcome.next (h.does (f := fun u => loopStall n (streaming s n && !(s.seq n).fe.pc.lib) dst
    (feGoto n dst (u.setSeq n { s.seq n with fe := { feLeft s n with ctrs := (s.seq n).fe.ctrs.set k.toNat v } })))
    fun _ => rfl), ?_, ?_⟩
  · rw [loopStall_seq, ← wentOn, wentOn_seq]
  · exact (loopStall_upd (wentOn_upd (Nat.or_self _) (Nat.or_self _)) (by decide) ⟨0, rfl⟩).frame (by decide +kernel)
      (by decide +kernel)

/-! Conditionals. -/

theorem feCond_due {flag : Seq → Bool} (h : Stands n m s) (hdue : condDue s n = true) : feCond n m.op flag s =
    if flag (s.seq n) then feApply n m s
    else feGoto n (feNext s n) (s.modSeq n fun q => { q with fe := { q.fe with called := false } }) := by
  obtain ⟨hword, hlegal, -⟩ := h
  unfold feCond
  rw [feWord_good hword, Bool.and_false, Bool.false_and, if_neg (by decide), hword]
  exact if_pos ⟨rfl, hlegal, hdue⟩

/-- A conditional that is due goes on at its target if the flag it looks at says so, else at the next word. -/
theorem Stands.decides {flag : Seq → Bool} (h : Stands n m s) (hdue : condDue (s.at t) n = true)
    (happly : ∀ c, feApply n m { s with clasp := c } =
      feGoto n p ({ s with clasp := c }.setSeq n { s.seq n with fe := feLeft s n })) :
    ∃ s', Host.Outcome.next (feCond n m.op flag (s.at t)) = (.next s' : Res) ∧
      GoesOn n (if flag (s.seq n) then p else feNext s n) [] (feLeft s n) s s' := by
  refine ⟨_, ?_, wentOn_goesOn (t := t)⟩
  rw [feCond_due h.at hdue, State.seq_at, List.append_nil, wentOn]
  split
  · rw [State.at_eq, happly]
  · rw [State.modSeq, State.seq_at, feNext, State.seq_at]
    rfl

/-- Settles O18, clause by clause: words that go on, words that move the stack, LOOP, and conditionals that are due. -/
theorem branchesAndConditionals : Obligations.BranchesAndConditionals := by
  unfold Obligations.BranchesAndConditionals
  refine ⟨?jmp, ?call, ?ret, ?retRoutine, ?retUnwind, ?ldc, ?loop, ?jm, ?jnm, ?jf, ?jnf⟩
  case jmp => exact fun t n l a s h => h.goesOnly fun _ => rfl
  case call =>
    intro t n l a s h
    obtain ⟨s', hexec, hseq, hdepth, hframe⟩ := h.goesDeep (t := t) (p := target l a) (q := { s.seq n with
      fe := { feLeft s n with stack := feNext s n :: (s.seq n).fe.stack, called := true } }) fun _ => rfl
    have hshallow : (s.seq n).fe.stack.length + 1 < 32 := by have := h.call_shallow; omega
    exact ⟨s', hexec, hseq, hdepth.trans (Nat.mod_eq_of_lt hshallow), hframe⟩
  case ret =>
    exact fun t n p st s h hunwind hstack hrtn =>
      h.goesDeep (q := { s.seq n with fe := { feLeft s n with stack := st } }) fun _ => feApply_ret hunwind hstack hrtn
  case retRoutine =>
    exact fun t n p st x s h hunwind hstack hrtn hdepth => h.goesDeep (q := { s.seq n with
      q := (s.seq n).q ++ [.rret x.hold],
      fe := { feLeft s n with stack := st, sel := x.sel, cond := x.cond, hold := x.hold, rtn := none } })
      fun c => feApply_ret_routine (s := { s with clasp := c }) hunwind hstack hrtn hdepth
  case retUnwind => exact fun t n s h hunwind => h.stays fun _ => feApply_ret_unwind hunwind
  case ldc => exact fun t n k v s h => h.goesOnly fun _ => rfl
  case loop => exact fun t n k l a s h => loop_goesOn h
  case jm => exact fun t n l a s h hdue => h.decides hdue fun _ => rfl
  case jnm =>
    intro t n l a s h hdue
    obtain ⟨s', hexec, hgoes⟩ := h.decides (flag := fun q => !q.fMatch) hdue fun _ => rfl
    exact ⟨s', hexec, by simpa only [Bool.not_eq_true', ← Bool.not_eq_true, ite_not] using hgoes⟩
  case jf => exact fun t n l a s h hdue => h.decides hdue fun _ => rfl
  case jnf =>
    intro t n l a s h hdue
    obtain ⟨s', hexec, hgoes⟩ := h.decides (flag := fun q => !q.fFail) hdue fun _ => rfl
    exact ⟨s', hexec, by simpa only [Bool.not_eq_true', ← Bool.not_eq_true, ite_not] using hgoes⟩

end Sys2Proof.Machine
end

section
/-! ### Sets, waits, routines and ends (R150 to R157, R164, R180, R198, R201, R205) -/

namespace Sys2Proof.Machine

variable {s : State} {n : Cluster} {t : Nat}

/-- Settles O19, clause by clause: the words that name a nano-word take its branch of good parity. -/
theorem setAndWaitWords : Obligations.SetAndWaitWords := by
  unfold Obligations.SetAndWaitWords
  refine ⟨?clrf, ?csel, ?sel, ?rpt, ?wtrig, ?wct, ?hold, ?mst, ?mwait⟩
  case clrf =>
    exact fun t n s h => ⟨_, congrArg Host.Outcome.next (h.does (f := fun u => feGoto n (feNext s n) (u.setSeq n
      { s.seq n with fe := feLeft s n, ep := (s.seq n).ep + 1, fFail := false })) fun _ => rfl), wentOn_seq, wentOn_frame⟩
  case csel => exact fun t n i s h hgood => h.goesOnly fun _ => if_neg (ne_true_of_eq_false hgood)
  case sel => exact fun t n i s h hgood => h.goesOnly fun _ => if_neg (ne_true_of_eq_false hgood)
  case rpt => exact fun t n k s h => h.goesOnly fun _ => rfl
  case wtrig => exact fun t n k u s h => h.goesOn fun _ => rfl
  case wct => exact fun t n i p b s h hgood => h.goesOn fun _ => if_neg (ne_true_of_eq_false hgood)
  case hold => exact fun t n k s h => h.goesOn fun _ => rfl
  case mst => exact fun t n r s h => h.goesOn fun _ => rfl
  case mwait => exact fun t n s h => h.goesOn fun _ => rfl

/-- Settles O20, clause by clause: all go on but STOP and the illegal word, at which the front end stays. -/
theorem routineWordsAndEnds : Obligations.RoutineWordsAndEnds := by
  unfold Obligations.RoutineWordsAndEnds
  refine ⟨?rbeg, ?rmark, ?runw, ?wri, ?wrn, ?stop, ?illegal⟩
  case rbeg =>
    intro t n i s fe1 h
    exact h.goesOn (fe := { fe1 with pc := (s.seq n).fe.pc }) fun _ => rfl
  case rmark => exact fun t n i s h => h.goesOn fun _ => rfl
  case runw => exact fun t n l a s h => h.goesOn fun _ => rfl
  case wri => exact fun t n w v s h => h.goesOn fun _ => rfl
  case wrn => exact fun t n w i k s h hgood => h.goesOn fun _ => if_neg (ne_true_of_eq_false hgood)
  case stop => exact fun t n k s h => h.stays fun _ => rfl
  case illegal =>
    intro t n s hlive hready hgood hbad
    have hwhole : (feLive s n && feReady s n && !(fetchWord s n (s.seq n).fe.pc).2) = true := by
      rw [hlive, hready, hgood]; rfl
    have hdoes : feIllegal n (s.at t) = (s.at t).setSeq n
        { s.seq n with q := (s.seq n).q ++ [.illegal (s.seq n).fe.pc], feOn := false } := by
      rw [State.at_eq]
      exact (if_pos hwhole).trans (if_pos hbad)
    exact ⟨_, congrArg Host.Outcome.next hdoes, State.seq_setSeq_same .., seqSet_frame⟩

end Sys2Proof.Machine
end

section
/-! ### Where the words of the stores lie (R142, R503) -/

namespace Sys2Proof.Machine

variable {n : Cluster} {w : StoreAddr}

/-- The registers of a cluster's window end below its stores. -/
theorem cluRegs_below_stores :
    (allRegs.all fun r => !r.row.cluster || Nat.blt (r.row.base + r.row.count * r.row.stride) 0x20000) = true := by
  decide +kernel

theorem elemAt_past {r : Reg} {off : Nat} (h : r.row.base + r.row.count * r.row.stride < off) : r.elemAt off = none := by
  unfold Reg.elemAt
  rw [if_neg]
  rintro ⟨hbase, hmod, hcount⟩
  have hoff := Nat.div_add_mod (off - r.row.base) r.row.stride
  have hle := Nat.mul_le_mul_left r.row.stride (Nat.le_of_lt hcount)
  rw [hmod, Nat.add_zero] at hoff
  rw [Nat.mul_comm _ r.row.count] at hle
  omega

theorem findReg_past {off : Nat} (h : 0x20000 ≤ off) : ∀ l : List Reg, findReg true off l = none
  | [] => rfl
  | r :: l => by
    unfold findReg
    split
    · rename_i hclu
      have hbelow := List.all_eq_true.1 cluRegs_below_stores r (allRegs_mem r)
      rw [hclu, Bool.not_true, Bool.false_or, Nat.blt_eq] at hbelow
      rw [elemAt_past (Nat.lt_of_lt_of_le hbelow h)]
      exact findReg_past h l
    · exact findReg_past h l

theorem storeOff_bounds : 0x20000 ≤ storeOff w ∧ storeOff w < 0x88000 := by
  cases w with
  | micro a | libMicro a => have := a.isLt; rw [storeOff]; omega
  | nano i j | libNano i j => have := i.isLt; rw [storeOff]; omega

theorem storeOff_word : storeOff w % 4 = 0 := by
  cases w <;> (rw [storeOff]; omega)

/-- The slot of a nano-word's word is told from its offset. -/
theorem slot_of_offset {b k : Nat} {j : Fin 8} (hb : b % 32 = 0) : Fin.ofNat 8 ((b + 32 * k + 4 * j.val) / 4) = j :=
  Fin.ext (show (b + 32 * k + 4 * j.val) / 4 % 8 = j.val by omega)

theorem storeAt_storeOff : storeAt (storeOff w) = some w := by
  unfold storeAt
  rw [if_neg (by rw [storeOff_word]; decide)]
  cases w with
  | micro a =>
    have hlt := a.isLt
    have hidx : (0x20000 + 4 * a.toNat - 0x20000) / 4 = a.toNat := by omega
    rw [storeOff, if_pos (by omega), hidx, BitVec.ofNat_toNat, BitVec.setWidth_eq]
  | nano i j =>
    have hlt := i.isLt
    have hidx : (0x60000 + 32 * i.toNat + 4 * j.val - 0x60000) / 32 = i.toNat := by omega
    rw [storeOff, if_neg (by omega), if_pos (by omega), hidx, BitVec.ofNat_toNat, BitVec.setWidth_eq, slot_of_offset (by decide)]
  | libMicro a =>
    have hlt := a.isLt
    have hidx : (0x80000 + 4 * a.toNat - 0x80000) / 4 = a.toNat := by omega
    rw [storeOff, if_neg (by omega), if_neg (by omega), if_pos (by omega), hidx, BitVec.ofNat_toNat, BitVec.setWidth_eq]
  | libNano i j =>
    have hlt := i.isLt
    have hidx : (0x84000 + 32 * i.toNat + 4 * j.val - 0x84000) / 32 = i.toNat := by omega
    rw [storeOff, if_neg (by omega), if_neg (by omega), if_neg (by omega), if_pos (by omega), hidx, BitVec.ofNat_toNat,
      BitVec.setWidth_eq, slot_of_offset (by decide)]

theorem storeAddr_bounds : 0x1000000 ≤ storeAddr n w ∧ storeAddr n w < 0x2800000 := by
  have hoff := storeOff_bounds (w := w)
  have hn := n.isLt
  unfold storeAddr
  omega

theorem storeAddr_word : storeAddr n w % 4 = 0 := by
  have hoff := storeOff_word (w := w)
  unfold storeAddr
  omega

theorem storeAddr_clu : padClu ((storeAddr n w - 0x1000000) / 0x100000, 0) = n := by
  have hoff := storeOff_bounds (w := w)
  have hn := n.isLt
  unfold padClu storeAddr
  exact Fin.ext (show (0x1000000 + 0x100000 * n.val + storeOff w - 0x1000000) / 0x100000 % 24 = n.val by omega)

theorem storeAddr_off : (storeAddr n w - 0x1000000) % 0x100000 = storeOff w := by
  have hoff := storeOff_bounds (w := w)
  unfold storeAddr
  omega

theorem regAt_storeAddr : regAt (storeAddr n w) = none := by
  obtain ⟨hlo, hhi⟩ := storeAddr_bounds (n := n) (w := w)
  unfold regAt
  rw [if_neg (by omega), if_pos (by omega), storeAddr_off, findReg_past storeOff_bounds.1]

theorem touched_storeAddr : touched (storeAddr n w) = some (n, none) := by
  unfold touched
  rw [if_pos storeAddr_bounds, storeAddr_clu, regAt_storeAddr]

end Sys2Proof.Machine
end

section
/-! ### Slots of a nano-word (R147) -/

namespace Sys2Proof.Machine

theorem slotOf_getLsbD (x : Nano) (j i : Nat) : (slotOf x j).getLsbD i = (decide (i < 32) && x.getLsbD (32 * j + i)) :=
  BitVec.getLsbD_extractLsb' ..

/-- The bits of slot j alone are taken from the word. -/
theorem putSlot_getLsbD {x : Nano} {j : Nat} {d : Word} {b : Nat} (hb : b < 256) : (putSlot x j d).getLsbD b =
    if 32 * j ≤ b ∧ b < 32 * j + 32 then d.getLsbD (b - 32 * j) else x.getLsbD b := by
  have hones : (0xFFFFFFFF#256).getLsbD (b - 32 * j) = decide (b - 32 * j < 32) := by
    rw [show (0xFFFFFFFF#256) = (BitVec.allOnes 32).setWidth 256 by decide, BitVec.getLsbD_setWidth, BitVec.getLsbD_allOnes,
      decide_eq_true (show b - 32 * j < 256 by omega), Bool.true_and]
  unfold putSlot
  simp only [BitVec.getLsbD_or, BitVec.getLsbD_and, BitVec.getLsbD_not, BitVec.getLsbD_shiftLeft, BitVec.getLsbD_setWidth,
    hones, hb, show b - 32 * j < 256 by omega, decide_true, Bool.true_and]
  by_cases hlo : 32 * j ≤ b
  · by_cases hhi : b < 32 * j + 32
    · rw [if_pos ⟨hlo, hhi⟩]
      simp [show ¬ b < 32 * j by omega, show b - 32 * j < 32 by omega]
    · rw [if_neg fun h => hhi h.2, BitVec.getLsbD_of_ge _ _ (show 32 ≤ b - 32 * j by omega)]
      simp [show ¬ b - 32 * j < 32 by omega]
  · rw [if_neg fun h => hlo h.1]
    simp [show b < 32 * j by omega]

theorem slotOf_putSlot {x : Nano} {j k : Nat} {d : Word} (hk : k < 8) :
    slotOf (putSlot x j d) k = if k = j then d else slotOf x k := by
  apply BitVec.eq_of_getLsbD_eq
  intro i hi
  rw [slotOf_getLsbD, putSlot_getLsbD (by omega), decide_eq_true hi, Bool.true_and]
  by_cases hkj : k = j
  · subst hkj
    rw [if_pos (by omega), if_pos rfl, Nat.add_sub_cancel_left]
  · rw [if_neg (by omega), if_neg hkj, slotOf_getLsbD, decide_eq_true hi, Bool.true_and]

/-- The parity group of slot j alone takes the parity of the write (R163). -/
theorem badBits_getLsbD {x : BitVec 8} {inv : Bool} {j : Fin 8} {k : Nat} (hk : k < 8) :
    (if inv then x ||| (1#8 <<< j.val) else x &&& ~~~ (1#8 <<< j.val)).getLsbD k = if k = j.val then inv else x.getLsbD k := by
  have hone : (1#8 <<< j.val).getLsbD k = decide (k = j.val) := by
    rw [BitVec.getLsbD_shiftLeft, BitVec.getLsbD_one, decide_eq_true hk]
    by_cases h : k = j.val
    · simp [h]
    · simp [h]; omega
  cases inv
  · rw [if_neg (by decide), BitVec.getLsbD_and, BitVec.getLsbD_not, hone, decide_eq_true hk]
    by_cases h : k = j.val <;> simp [h]
  · rw [if_pos rfl, BitVec.getLsbD_or, hone]
    by_cases h : k = j.val <;> simp [h]

end Sys2Proof.Machine
end

section
/-! ### Writes and reads of the stores (R165 to R167) -/

namespace Sys2Proof.Machine

variable {s : State} {n : Cluster} {w : StoreAddr} {r : Req} {d : Word} {t : Nat}

/-! Words of the stores after a write of one. -/

theorem State.microAt_setMicroAt {a b : Nat} (ha : a < 65536) (hb : b < 65536) (v : MWord) :
    (s.setMicroAt n a v).microAt n b = if b = a then v else s.microAt n b := by
  unfold State.microAt State.setMicroAt
  rw [Nat.mod_eq_of_lt ha, Nat.mod_eq_of_lt hb, tabGet_tabSet]
  exact if_congr (by omega) rfl rfl

theorem State.nanoAt_setNanoAt {i j : Nat} (hi : i < 4096) (hj : j < 4096) (v : NWord) :
    (s.setNanoAt n i v).nanoAt n j = if j = i then v else s.nanoAt n j := by
  unfold State.nanoAt State.setNanoAt
  rw [Nat.mod_eq_of_lt hi, Nat.mod_eq_of_lt hj, tabGet_tabSet]
  exact if_congr (by omega) rfl rfl

theorem ungate_microAt {k a : Nat} : (ungate k s).microAt n a = s.microAt n a := by unfold ungate; split <;> rfl
theorem ungate_nanoAt {k i : Nat} : (ungate k s).nanoAt n i = s.nanoAt n i := by unfold ungate; split <;> rfl

/-! The register slave. -/

theorem regPut_store {s' : State} (hrun : s.rb .ID_CLU_RST 0 n.val = false) (hput : storePut n w d true s = .ok s') :
    regPut r (storeAddr n w) d 0xFFFFFFFF#32 s = .ok (ungate n.val s') := by
  have hbounds := storeAddr_bounds (n := n) (w := w)
  unfold regPut
  rw [if_neg (by omega), if_pos hbounds, storeAddr_clu, regAt_storeAddr, storeAddr_off, storeAt_storeOff]
  dsimp only
  rw [hrun, decide_eq_true rfl, hput]
  rfl

/-- An accepted write of a word of the stores does what its chapter says, and ends the cluster's gating (R428). -/
theorem StoreAccepted.written {s' : State} (h : StoreAccepted r n w d s) (hput : storePut n w d true s = .ok s') :
    hostWrite r (storeAddr n w) d 0xF#4 4 s = ungate n.val s' := by
  obtain ⟨hserved, hawake, hunstaged, hallowed, hwhole, hrun, -⟩ := h
  have hwakes : hostWakes s = s := if_neg (by rw [hawake]; decide)
  have hmask : byteMask 0xF#4 = 0xFFFFFFFF#32 := by decide
  unfold hostWrite slaveWrite regWrite
  simp only [hserved, hwakes, ite_self, hawake, storeAddr_word, hunstaged, hmask, hallowed, hwhole, regPut_store hrun hput,
    touched_storeAddr]
  rfl

theorem storeWrite_does {s' : State} (h : StoreAccepted r n w d (s.at t)) (hput : storePut n w d true (s.at t) = .ok s') :
    exec (.storeWrite t r n w d 0xF#4) s = .next (ungate n.val s') := congrArg Host.Outcome.next (h.written hput)

theorem storePut_micro {a : BitVec 16} (hopen : wrOpen s n = true) : storePut n (.micro a) d true s =
    .ok (s.setMicroAt n a.toNat { w := d, bad := if s.rb .CL_STORE_CTRL n 0 then 3#2 else 0#2 }) :=
  if_pos (by rw [hopen]; rfl)

/-- Nano-word x with the word d in its slot j, of bad parity under PAR_INV (R167). -/
def slotWritten (x : NWord) (j : Fin 8) (d : Word) (inv : Bool) : NWord where
  w := putSlot x.w j.val d
  bad := if inv then x.bad ||| (1#8 <<< j.val) else x.bad &&& ~~~ (1#8 <<< j.val)

theorem storePut_nano {i : BitVec 12} {j : Fin 8} (hopen : wrOpen s n = true) : storePut n (.nano i j) d true s =
    .ok (s.setNanoAt n i.toNat (slotWritten (s.nanoAt n i.toNat) j d (s.rb .CL_STORE_CTRL n 0))) :=
  if_pos (by rw [hopen]; rfl)

theorem storeWrite_micro {a : BitVec 16} (h : StoreAccepted r n (.micro a) d (s.at t)) :
    ∃ s', exec (.storeWrite t r n (.micro a) d 0xF#4) s = .next s' ∧
      s'.microAt n a.toNat = { w := d, bad := if s.rb .CL_STORE_CTRL n.val 0 then 3#2 else 0#2 } ∧
      (∀ b : Nat, b < 65536 → b ≠ a.toNat → s'.microAt n b = s.microAt n b) ∧
      Frame [.clasp, .micro] [.PWR_CLU_GATE] (atCluster n) s s' := by
  obtain ⟨-, -, -, -, -, -, hopen⟩ := id h
  have hupd := cmdWrite_frame (n := n) (State.setMicroAt_upd (K := 4) (R := 0) (C := atCluster n) (n := n) (a := a.toNat)
    (v := { w := d, bad := if (s.at t).rb .CL_STORE_CTRL n 0 then 3#2 else 0#2 }) (Upd.refl (s := s.at t)) (Nat.or_self _)
    ⟨0, rfl⟩)
  refine ⟨_, storeWrite_does h (storePut_micro hopen), ?_, fun b hb hne => ?_,
    hupd.frame (by decide +kernel) (by decide +kernel)⟩
  · rw [ungate_microAt, State.microAt_setMicroAt a.isLt a.isLt, if_pos rfl, State.rb_at]
  · rw [ungate_microAt, State.microAt_setMicroAt a.isLt hb, if_neg hne, State.microAt_at]

theorem storeWrite_nano {i : BitVec 12} {j : Fin 8} (h : StoreAccepted r n (.nano i j) d (s.at t)) :
    ∃ s', exec (.storeWrite t r n (.nano i j) d 0xF#4) s = .next s' ∧
      (∀ k : Nat, k < 8 → slotOf (s'.nanoAt n i.toNat).w k = if k = j.val then d else slotOf (s.nanoAt n i.toNat).w k) ∧
      (∀ k : Nat, k < 8 → (s'.nanoAt n i.toNat).bad.getLsbD k =
        if k = j.val then s.rb .CL_STORE_CTRL n.val 0 else (s.nanoAt n i.toNat).bad.getLsbD k) ∧
      (∀ b : Nat, b < 4096 → b ≠ i.toNat → s'.nanoAt n b = s.nanoAt n b) ∧
      Frame [.clasp, .nano] [.PWR_CLU_GATE] (atCluster n) s s' := by
  obtain ⟨-, -, -, -, -, -, hopen⟩ := id h
  have hupd := cmdWrite_frame (n := n) (State.setNanoAt_upd (K := 8) (R := 0) (C := atCluster n) (n := n) (i := i.toNat)
    (v := slotWritten ((s.at t).nanoAt n i.toNat) j d ((s.at t).rb .CL_STORE_CTRL n 0)) (Upd.refl (s := s.at t)) (Nat.or_self _)
    ⟨0, rfl⟩)
  refine ⟨_, storeWrite_does h (storePut_nano hopen), fun k hk => ?_, fun k hk => ?_, fun b hb hne => ?_,
    hupd.frame (by decide +kernel) (by decide +kernel)⟩
  · rw [ungate_nanoAt, State.nanoAt_setNanoAt i.isLt i.isLt, if_pos rfl, slotWritten, slotOf_putSlot hk, State.nanoAt_at]
  · rw [ungate_nanoAt, State.nanoAt_setNanoAt i.isLt i.isLt, if_pos rfl, slotWritten, badBits_getLsbD hk, State.nanoAt_at,
      State.rb_at]
  · rw [ungate_nanoAt, State.nanoAt_setNanoAt i.isLt hb, if_neg hne, State.nanoAt_at]

/-! A read. -/

theorem readAt_store : readAt r (storeAddr n w) s = storeReadAt n w s := by
  have hbounds := storeAddr_bounds (n := n) (w := w)
  unfold readAt
  rw [if_neg (by rw [storeAddr_word]; decide), if_neg (by omega), if_neg (by omega), regAt_storeAddr]
  dsimp only
  rw [if_pos hbounds, storeAddr_off, storeAt_storeOff, storeAddr_clu]

theorem storeReadAt_reg : ((storeReadAt n w s).2).reg .CL_STORE_EVT n =
    if (storeGet s n w).2 then putBit (s.reg .CL_STORE_EVT n) 2 true else s.reg .CL_STORE_EVT n := by
  unfold storeReadAt
  dsimp only
  split
  · rw [State.reg_setRb, if_pos ⟨rfl, rfl⟩]
  · rfl

theorem storeReadAt_out : ((storeReadAt n w s).2).out = s.out := by
  unfold storeReadAt
  dsimp only
  split <;> rfl

theorem storeGet_at : storeGet (s.at t) n w = storeGet s n w := by rw [State.at_eq]; cases w <;> rfl

theorem hostRead_store (hserved : served s r = true) (hawake : pwrState s = 2) : hostRead r (storeAddr n w) s =
    ((storeReadAt n w s).2).emit (.regRead r.val (storeAddr n w) (storeGet s n w).1) := by
  have hwakes : hostWakes s = s := if_neg (by rw [hawake]; decide)
  unfold hostRead
  simp only [hserved, hwakes, ite_self, hawake, readAt_store]
  rfl

theorem storeRead_gives (hserved : served (s.at t) r = true) (hawake : pwrState (s.at t) = 2) :
    ∃ s', exec (.storeRead t r n w) s = .next s' ∧
      s'.out = .regRead r.val (storeAddr n w) (storeGet s n w).1 :: s.out ∧
      s'.reg .CL_STORE_EVT n.val =
        (if (storeGet s n w).2 then putBit (s.reg .CL_STORE_EVT n.val) 2 true else s.reg .CL_STORE_EVT n.val) ∧
      Frame [.clasp, .out] [.CL_STORE_EVT] (atCluster n) s s' := by
  have hupd : Upd 0x800000000000001 (regMask [.CL_STORE_EVT]) (atCluster n) s
      ((storeReadAt n w (s.at t)).2.emit (.regRead r.val (storeAddr n w) (storeGet (s.at t) n w).1)) :=
    State.emit_upd (storeReadAt_upd (State.at_upd Upd.refl (by decide)) (by decide +kernel) ⟨0, rfl⟩) (by decide)
  refine ⟨_, congrArg Host.Outcome.next (hostRead_store hserved hawake), ?_, ?_,
    hupd.frame (by decide +kernel) (by decide +kernel)⟩
  · rw [storeGet_at, State.emit, storeReadAt_out, State.out_at]
  · exact (storeReadAt_reg (s := s.at t)).trans (by rw [storeGet_at, State.reg_at])

/-- Settles O23, clause by clause: a write is `storePut` of its word, a read `storeReadAt`. -/
theorem storesWrittenWhileOpen : Obligations.StoresWrittenWhileOpen := by
  unfold Obligations.StoresWrittenWhileOpen
  exact ⟨fun _ _ _ _ _ _ h => storeWrite_micro h, fun _ _ _ _ _ _ _ h => storeWrite_nano h,
    fun _ _ _ _ _ hserved hawake => storeRead_gives hserved hawake⟩

end Sys2Proof.Machine
end

section
/-! ### A complete vector (R151, R171, R174, R183) -/

namespace Sys2Proof.Machine

variable {K R : Nat} {C : Nat → Nat → Prop} {s0 s : State} {n : Cluster} {c c' : Channel} {v : Vec} {rest : List Vec}
  {t : Nat}

/-- The oldest vector leaves those in flight; a VEC or MVEC is kept among the past ones. -/
def vecTaken (n : Cluster) (v : Vec) (rest : List Vec) (s : State) : State :=
  s.setSeq n { s.seq n with
    infl := rest,
    past := (s.seq n).past.filter (fun x => decide (s.clasp < x.2.2 / 512 + 256)) ++
      (if v.kind = .hold then [] else [(v.num, (v.start, v.stop))]) }

/-- The channels that count for flags (R151, R161). -/
def condMask (n : Cluster) (v : Vec) (s : State) : Word := v.cond &&& ~~~ s.reg .CAP_FENCE n

/-- The last vector of an MVEC since the match flag was last cleared decides it (R151, R174). -/
def matchJudged (n : Cluster) (v : Vec) (s u : State) : State :=
  if v.last ∧ (s.seq n).matchNo ≤ v.seqNo then
    u.modSeq n fun q => { q with fMatch := decide (failMask v &&& condMask n v s = 0#32) }
  else u

/-- A VEC that fails on a channel that counts sets the fail flag, unless a CLRF came after it (R151). -/
def failJudged (n : Cluster) (v : Vec) (s u : State) : State :=
  if failMask v &&& condMask n v s ≠ 0#32 ∧ v.ep = (s.seq n).ep then u.modSeq n fun q => { q with fFail := true } else u

/-- The result's flags of fails of either kind (R183). -/
def failFlagged (n : Cluster) (v : Vec) (s : State) : State :=
  let s1 := if vecChans v (fun r => decide (r = 1)) ≠ 0#32 then resFlag n 16 s else s
  if vecChans v (fun r => decide (r = 2)) ≠ 0#32 then resFlag n 17 s1 else s1

/-- The flags and fail counts of a complete VEC. -/
def failsCounted (n : Cluster) (v : Vec) (rest : List Vec) (s : State) : State :=
  countFails n v (failMask v) (failFlagged n v (failJudged n v s (vecTaken n v rest s)))

/-- What a complete VEC leaves, before the trigger units are told. -/
def vecLogged (n : Cluster) (v : Vec) (rest : List Vec) (s : State) : State :=
  logVec n v (decide (failMask v ≠ 0#32)) (failsCounted n v rest s)

/-- What a complete VEC leaves. -/
def vecCompleted (n : Cluster) (v : Vec) (rest : List Vec) (s : State) : State :=
  if failMask v ≠ 0#32 then (vecLogged n v rest s).trigEvent n (.fail (failMask v) (v.stop / 512)) else vecLogged n v rest s

/-- What the completion of a vector leaves, by its kind. -/
def vecCompletion (n : Cluster) (v : Vec) (rest : List Vec) (s : State) : State :=
  match v.kind with
  | .hold => vecTaken n v rest s
  | .mvec => matchJudged n v s (vecTaken n v rest s)
  | .vec => vecCompleted n v rest s

theorem vectorComplete_due (h : CompleteDue n v rest (s.at t)) :
    exec (.vectorComplete t n) s = .next (vecCompletion n v rest (s.at t)) := by
  obtain ⟨hinfl, htime, hedges⟩ := h
  show execVectorComplete t n s = _
  unfold execVectorComplete
  dsimp only
  rw [hinfl]
  exact congrArg Host.Outcome.next (if_pos ⟨htime, by rw [hedges]; rfl⟩)

/-! The vector taken. -/

theorem vecTaken_reg {r : Reg} {i : Nat} : (vecTaken n v rest s).reg r i = s.reg r i := State.reg_setSeq ..

theorem vecTaken_upd (hclasp : 1 ||| K = K) (hseqs : 0x100 ||| K = K) :
    Upd K R (atCluster n) s (vecTaken n v rest (s.at t)) :=
  State.setSeq_upd (State.at_upd Upd.refl hclasp) hseqs ⟨0, rfl⟩

theorem vecTaken_frame : Frame [.clasp, .seqs] [] (atCluster n) s (vecTaken n v rest (s.at t)) := seqSet_frame

theorem vectorComplete_hold (h : CompleteDue n v rest (s.at t)) (hkind : v.kind = .hold) :
    ∃ s', exec (.vectorComplete t n) s = .next s' ∧ (s'.seq n).infl = rest ∧ (s'.seq n).fMatch = (s.seq n).fMatch ∧
      (s'.seq n).fFail = (s.seq n).fFail ∧ Frame [.clasp, .seqs] [] (atCluster n) s s' := by
  refine ⟨_, (vectorComplete_due h).trans (by rw [vecCompletion, hkind]), ?_, ?_, ?_, vecTaken_frame⟩
  all_goals rw [vecTaken, State.seq_setSeq_same]
  all_goals rw [State.seq_at]

theorem matchJudged_seq {u : State} : (matchJudged n v s u).seq n = { u.seq n with
    fMatch := if v.last ∧ (s.seq n).matchNo ≤ v.seqNo then decide (failMask v &&& condMask n v s = 0#32)
      else (u.seq n).fMatch } := by
  unfold matchJudged
  split
  · rw [State.seq_modSeq]
  · rfl

theorem matchJudged_upd {u : State} (h : Upd K R C s0 u) (hk : 0x100 ||| K = K) (hc : ∃ c, C n.val c) :
    Upd K R C s0 (matchJudged n v s u) := Upd.ite (State.modSeq_upd h hk hc) h

theorem vectorComplete_mvec (h : CompleteDue n v rest (s.at t)) (hkind : v.kind = .mvec) :
    ∃ s', exec (.vectorComplete t n) s = .next s' ∧ (s'.seq n).infl = rest ∧
      (s'.seq n).fMatch = (if v.last ∧ (s.seq n).matchNo ≤ v.seqNo then
        decide (failMask v &&& (v.cond &&& ~~~ s.reg .CAP_FENCE n.val) = 0#32) else (s.seq n).fMatch) ∧
      (s'.seq n).fFail = (s.seq n).fFail ∧ Frame [.clasp, .seqs] [] (atCluster n) s s' := by
  have hupd : Upd 0x101 0 (atCluster n) s (matchJudged n v (s.at t) (vecTaken n v rest (s.at t))) :=
    matchJudged_upd (vecTaken_upd (by decide) (by decide)) (by decide) ⟨0, rfl⟩
  refine ⟨_, (vectorComplete_due h).trans (by rw [vecCompletion, hkind]), ?_, ?_, ?_,
    hupd.frame (by decide +kernel) (by decide +kernel)⟩
  all_goals rw [matchJudged_seq, vecTaken, State.seq_setSeq_same]
  · rw [condMask, State.reg_at, State.seq_at]
  · rw [State.seq_at]

/-! The fail flag. -/

theorem failJudged_reg {u : State} {r : Reg} {i : Nat} : (failJudged n v s u).reg r i = u.reg r i := by
  unfold failJudged; split <;> rfl

theorem failJudged_trig {u : State} : (failJudged n v s u).trig n = u.trig n := by
  unfold failJudged; split <;> rfl

theorem failJudged_seq {u : State} : (failJudged n v s u).seq n = { u.seq n with
    fFail := (u.seq n).fFail || decide (failMask v &&& condMask n v s ≠ 0#32 ∧ v.ep = (s.seq n).ep) } := by
  unfold failJudged
  split
  · rename_i hfails
    rw [State.seq_modSeq, decide_eq_true hfails, Bool.or_true]
  · rename_i hpasses
    rw [decide_eq_false hpasses, Bool.or_false]

/-! The result's flags. -/

theorem failFlagged_upd (h : Upd K R C s0 s) (hr : regMask [.CL_SEQ_RES] ||| R = R) (hc : ∃ c, C n.val c) :
    Upd K R C s0 (failFlagged n v s) := by
  have hres : 0x400000000000000000000000000000000000000000000000000000000 ||| R = R := sub_of (by decide +kernel) hr
  have hone := Upd.ite (c := vecChans v (fun r => decide (r = 1)) ≠ 0#32) (resFlag_upd (b := 16) h hres hc) h
  unfold failFlagged
  exact Upd.ite (resFlag_upd (b := 17) hone hres hc) hone

theorem failFlagged_changes : Upd 0 (regMask [.CL_SEQ_RES]) (fun _ _ => True) s (failFlagged n v s) :=
  failFlagged_upd Upd.refl (Nat.or_self _) ⟨0, trivial⟩

/-! Fail counts and first fails (R183). -/

/-- One channel's share of the fail counts. -/
def failCounted (n : Cluster) (v : Vec) (mask : Word) (s : State) (c : Channel) : State :=
  if bitOf mask c.val then
    let s1 := s.count .CL_SEQ_FCNT (chIx n c) 32
    if s1.rb .CL_SEQ_FFVALID n c.val then s1
    else (s1.setRb .CL_SEQ_FFVALID n c.val true).setReg .CL_SEQ_FFIRST (chIx n c) (BitVec.ofNat 32 v.num)
  else s

/-- What the manual shows of channel c's fails: its count, whether its first fail is valid, and the first fail. -/
def failRecord (n : Cluster) (c : Channel) (s : State) : Word × (Bool × Word) :=
  (s.reg .CL_SEQ_FCNT (chIx n c), (s.rb .CL_SEQ_FFVALID n c.val, s.reg .CL_SEQ_FFIRST (chIx n c)))

theorem State.reg_count_word {r : Reg} {i : Nat} :
    (s.count r i 32).reg r i = BitVec.ofNat 32 (satInc (2 ^ 32 - 1) (s.reg r i).toNat) := by
  have hcount := State.rf_count_same (s := s) (r := r) (i := i) (len := 32) (by decide)
  rw [State.rf, State.rf, fld_word, fld_word] at hcount
  rw [← hcount, BitVec.ofNat_toNat, BitVec.setWidth_eq]

/-- What a fail of a VEC makes of the channel's record. -/
def failNoted (v : Vec) (x : Word × (Bool × Word)) : Word × (Bool × Word) :=
  (BitVec.ofNat 32 (satInc (2 ^ 32 - 1) x.1.toNat), if x.2.1 then x.2 else (true, BitVec.ofNat 32 v.num))

theorem failCounted_record {mask : Word} : failRecord n c (failCounted n v mask s c) =
    if bitOf mask c.val then failNoted v (failRecord n c s) else failRecord n c s := by
  unfold failCounted
  split
  · have hvalid : (s.count .CL_SEQ_FCNT (chIx n c) 32).rb .CL_SEQ_FFVALID n c.val = s.rb .CL_SEQ_FFVALID n c.val := by
      rw [State.rb, State.reg_count, if_neg (by simp), State.rb]
    have hfirst : (s.count .CL_SEQ_FCNT (chIx n c) 32).reg .CL_SEQ_FFIRST (chIx n c) = s.reg .CL_SEQ_FFIRST (chIx n c) := by
      rw [State.reg_count, if_neg (by simp)]
    dsimp only
    rw [hvalid]
    split
    · rename_i hv
      rw [failRecord, State.reg_count_word, hvalid, hfirst, failRecord, failNoted, if_pos hv]
    · rename_i hv
      rw [failRecord, failRecord, failNoted, if_neg hv, State.reg_setReg, if_neg (by simp), State.reg_setRb, if_neg (by simp),
        State.reg_count_word, State.reg_setReg_same, State.rb, State.reg_setReg, if_neg (by simp), ← State.rb,
        State.rb_setRb_same _ _ _ _ _ c.isLt]
  · rfl

theorem failCounted_other {mask : Word} (h : c' ≠ c) : failRecord n c (failCounted n v mask s c') = failRecord n c s := by
  have hix : chIx n c ≠ chIx n c' := fun e => h (chIx_inj.1 e).2.symm
  have hbit : c.val ≠ c'.val := fun e => h (Fin.ext e.symm)
  unfold failCounted
  split
  · dsimp only
    split
    · simp [failRecord, State.rb, State.reg_count, hix]
    · simp [failRecord, State.rb, State.reg_setReg, State.reg_setRb, State.reg_count, hix, hbit]
  · rfl

section
variable {ι β : Type} {f : State → ι → State} {obs : State → β} {i : ι}

theorem foldl_unobserved (hother : ∀ j s, j ≠ i → obs (f s j) = obs s) {l : List ι} (hi : i ∉ l) :
    obs (l.foldl f s) = obs s := by
  induction l generalizing s with
  | nil => rfl
  | cons j l ih =>
    rw [List.mem_cons, not_or] at hi
    rw [List.foldl_cons, ih hi.2, hother j s (Ne.symm hi.1)]

/-- In a fold over distinct indices, what i's own turn leaves of an observation that no other turn changes. -/
theorem foldl_observed {g : β → β} (hother : ∀ j s, j ≠ i → obs (f s j) = obs s) (hown : ∀ s, obs (f s i) = g (obs s))
    {l : List ι} (hnodup : l.Nodup) (hi : i ∈ l) : obs (l.foldl f s) = g (obs s) := by
  induction l generalizing s with
  | nil => cases hi
  | cons j l ih =>
    obtain ⟨hj, hl⟩ := List.nodup_cons.1 hnodup
    rw [List.foldl_cons]
    rcases List.mem_cons.1 hi with rfl | hin
    · rw [foldl_unobserved hother hj, hown]
    · rw [ih hl hin, hother j s fun e => hj (e ▸ hin)]

end

theorem countFails_record {mask : Word} : failRecord n c (countFails n v mask s) =
    if bitOf mask c.val then failNoted v (failRecord n c s) else failRecord n c s :=
  foldl_observed (f := failCounted n v mask) (obs := failRecord n c)
    (g := fun x => if bitOf mask c.val then failNoted v x else x)
    (fun _ _ h => failCounted_other h) (fun _ => failCounted_record) (List.nodup_finRange 32) (List.mem_finRange c)

theorem countFails_changes {mask : Word} :
    Upd 0 (regMask [.CL_SEQ_FFVALID, .CL_SEQ_FCNT, .CL_SEQ_FFIRST]) (fun _ _ => True) s (countFails n v mask s) :=
  countFails_upd Upd.refl (by decide +kernel) fun _ => trivial

/-! The log queue (R184, R185). -/

theorem logLost_changes : Upd 0 (regMask [.CL_SEQ_LOST, .CL_SEQ_RES, .CL_SEQ_EVT]) (fun _ _ => True) s (logLost n s) :=
  logLost_upd Upd.refl (by decide +kernel) ⟨0, trivial⟩

theorem logVec_seq {fails : Bool} : (logVec n v fails s).seq n = { s.seq n with
    log := (s.seq n).log ++ if ((s.rb .CL_SEQ_LOG n 0 ∧ fails) ∨ (s.rb .CL_SEQ_LOG n 1 ∧ v.hasCap)) ∧
      (s.seq n).log.length < 256 then [⟨v, fails⟩] else [] } := by
  unfold logVec
  by_cases hqual : (s.rb .CL_SEQ_LOG n 0 ∧ fails) ∨ (s.rb .CL_SEQ_LOG n 1 ∧ v.hasCap)
  · rw [if_pos (by simpa using hqual)]
    by_cases hroom : (s.seq n).log.length < 256
    · rw [if_pos hroom, if_pos ⟨hqual, hroom⟩, State.seq_modSeq]
    · rw [if_neg hroom, if_neg fun h => hroom h.2, List.append_nil, logLost_changes.seq_eq (by decide)]
  · rw [if_neg (by simpa using hqual), if_neg fun h => hqual h.1, List.append_nil]

theorem logVec_changes {fails : Bool} :
    Upd 0x100 (regMask [.CL_SEQ_LOST, .CL_SEQ_RES, .CL_SEQ_EVT]) (fun _ _ => True) s (logVec n v fails s) :=
  logVec_upd Upd.refl (by decide) (by decide +kernel) ⟨0, trivial⟩

/-! The whole completion of a VEC. -/

theorem failsCounted_seq : (failsCounted n v rest s).seq n = { (vecTaken n v rest s).seq n with
    fFail := (s.seq n).fFail || decide (failMask v &&& condMask n v s ≠ 0#32 ∧ v.ep = (s.seq n).ep) } := by
  rw [failsCounted, countFails_changes.seq_eq (by decide), failFlagged_changes.seq_eq (by decide), failJudged_seq, vecTaken,
    State.seq_setSeq_same]

theorem failsCounted_trig : (failsCounted n v rest s).trig n = s.trig n := by
  rw [failsCounted, countFails_changes.trig_eq (by decide), failFlagged_changes.trig_eq (by decide), failJudged_trig, vecTaken,
    State.trig_setSeq]

theorem failsCounted_log {b : Nat} : (failsCounted n v rest s).rb .CL_SEQ_LOG n b = s.rb .CL_SEQ_LOG n b := by
  rw [failsCounted, countFails_changes.rb _ _ _ (by decide +kernel), failFlagged_changes.rb _ _ _ (by decide +kernel), State.rb,
    failJudged_reg, vecTaken_reg, State.rb]

theorem failRecord_congr {s' : State} (hcnt : s'.reg .CL_SEQ_FCNT (chIx n c) = s.reg .CL_SEQ_FCNT (chIx n c))
    (hvalid : s'.reg .CL_SEQ_FFVALID n = s.reg .CL_SEQ_FFVALID n)
    (hfirst : s'.reg .CL_SEQ_FFIRST (chIx n c) = s.reg .CL_SEQ_FFIRST (chIx n c)) : failRecord n c s' = failRecord n c s := by
  rw [failRecord, State.rb, hcnt, hvalid, hfirst, failRecord, State.rb]

theorem failsCounted_record : failRecord n c (failsCounted n v rest s) =
    if bitOf (failMask v) c.val then failNoted v (failRecord n c s) else failRecord n c s := by
  have hbefore : failRecord n c (failFlagged n v (failJudged n v s (vecTaken n v rest s))) = failRecord n c s := by
    apply failRecord_congr
    all_goals rw [failFlagged_changes.reg _ _ (by decide +kernel), failJudged_reg, vecTaken_reg]
  rw [failsCounted, countFails_record, hbefore]

theorem vecLogged_record : failRecord n c (vecLogged n v rest s) = failRecord n c (failsCounted n v rest s) :=
  failRecord_congr (logVec_changes.reg _ _ (by decide +kernel)) (logVec_changes.reg _ _ (by decide +kernel))
    (logVec_changes.reg _ _ (by decide +kernel))

theorem vecCompleted_seq : (vecCompleted n v rest s).seq n = (vecLogged n v rest s).seq n := by
  unfold vecCompleted; split <;> rfl

theorem vecCompleted_record : failRecord n c (vecCompleted n v rest s) =
    if bitOf (failMask v) c.val then failNoted v (failRecord n c s) else failRecord n c s := by
  rw [← failsCounted_record (rest := rest), ← vecLogged_record]
  unfold vecCompleted
  split <;> rfl

theorem vecCompleted_count : (vecCompleted n v rest s).reg .CL_SEQ_FCNT (chIx n c) = if bitOf (failMask v) c.val then
    BitVec.ofNat 32 (satInc (2 ^ 32 - 1) (s.reg .CL_SEQ_FCNT (chIx n c)).toNat) else s.reg .CL_SEQ_FCNT (chIx n c) := by
  have hrecord := vecCompleted_record (n := n) (c := c) (v := v) (rest := rest) (s := s)
  rw [failRecord, failRecord, failNoted] at hrecord
  split at hrecord
  · rename_i hfails
    rw [if_pos hfails, (Prod.mk.inj hrecord).1]
  · rename_i hpasses
    rw [if_neg hpasses, (Prod.mk.inj hrecord).1]

theorem vecCompleted_first (hfails : bitOf (failMask v) c.val = true) (hfirst : s.rb .CL_SEQ_FFVALID n c.val = false) :
    (vecCompleted n v rest s).rb .CL_SEQ_FFVALID n c.val = true ∧
      (vecCompleted n v rest s).reg .CL_SEQ_FFIRST (chIx n c) = BitVec.ofNat 32 v.num := by
  have hrecord := vecCompleted_record (n := n) (c := c) (v := v) (rest := rest) (s := s)
  rw [failRecord, failRecord, failNoted, if_pos hfails, if_neg (ne_true_of_eq_false hfirst)] at hrecord
  exact Prod.mk.inj (Prod.mk.inj hrecord).2

theorem vecCompleted_trig : ((vecCompleted n v rest s).trig n).evts = (s.trig n).evts ++
    (if failMask v ≠ 0#32 then [.fail (failMask v) (v.stop / 512)] else []) := by
  have hlogged : (vecLogged n v rest s).trig n = s.trig n := by
    rw [vecLogged, logVec_changes.trig_eq (by decide), failsCounted_trig]
  unfold vecCompleted
  split
  · rw [State.trig_trigEvent, hlogged]
  · rw [hlogged, List.append_nil]

theorem vectorComplete_vec (h : CompleteDue n v rest (s.at t)) (hkind : v.kind = .vec) :
    ∃ s', exec (.vectorComplete t n) s = .next s' ∧ (s'.seq n).infl = rest ∧ (s'.seq n).fMatch = (s.seq n).fMatch ∧
      (s'.seq n).fFail = ((s.seq n).fFail ||
        decide (failMask v &&& (v.cond &&& ~~~ s.reg .CAP_FENCE n.val) ≠ 0#32 ∧ v.ep = (s.seq n).ep)) ∧
      (∀ c : Channel, s'.reg .CL_SEQ_FCNT (chIx n c) = if bitOf (failMask v) c.val then
        BitVec.ofNat 32 (satInc (2 ^ 32 - 1) (s.reg .CL_SEQ_FCNT (chIx n c)).toNat) else s.reg .CL_SEQ_FCNT (chIx n c)) ∧
      (∀ c : Channel, bitOf (failMask v) c.val = true → s.rb .CL_SEQ_FFVALID n.val c.val = false →
        s'.rb .CL_SEQ_FFVALID n.val c.val = true ∧ s'.reg .CL_SEQ_FFIRST (chIx n c) = BitVec.ofNat 32 v.num) ∧
      (s'.seq n).log = (s.seq n).log ++ (if ((s.rb .CL_SEQ_LOG n.val 0 ∧ failMask v ≠ 0#32) ∨
          (s.rb .CL_SEQ_LOG n.val 1 ∧ v.hasCap)) ∧ (s.seq n).log.length < 256 then
        [⟨v, decide (failMask v ≠ 0#32)⟩] else []) ∧
      (s'.trig n).evts = (s.trig n).evts ++ (if failMask v ≠ 0#32 then [.fail (failMask v) (v.stop / 512)] else []) ∧
      Frame [.clasp, .seqs, .trigs] [.CL_SEQ_RES, .CL_SEQ_LOST, .CL_SEQ_EVT, .CL_SEQ_FFVALID, .CL_SEQ_FCNT, .CL_SEQ_FFIRST]
        (atCluster n) s s' := by
  have hexec : exec (.vectorComplete t n) s = .next (vecCompleted n v rest (s.at t)) :=
    (vectorComplete_due h).trans (by rw [vecCompletion, hkind])
  have hupd := execVectorComplete_upd (t := t) (n := n) (C := atCluster n) (Upd.refl (s := s)) (Nat.or_self _)
    (Nat.or_self _) fun _ => rfl
  rw [show execVectorComplete t n s = _ from hexec] at hupd
  refine ⟨_, hexec, ?_, ?_, ?_, fun c => ?_, fun c hfails hfirst => ?_, ?_, ?_,
    hupd.frame (by decide +kernel) (by decide +kernel)⟩
  · rw [vecCompleted_seq, vecLogged, logVec_seq, failsCounted_seq, vecTaken, State.seq_setSeq_same]
  · rw [vecCompleted_seq, vecLogged, logVec_seq, failsCounted_seq, vecTaken, State.seq_setSeq_same, State.seq_at]
  · rw [vecCompleted_seq, vecLogged, logVec_seq, failsCounted_seq, condMask, State.reg_at, State.seq_at]
  · rw [vecCompleted_count, State.reg_at]
  · exact vecCompleted_first hfails ((State.rb_at ..).trans hfirst)
  · rw [vecCompleted_seq, vecLogged, logVec_seq, failsCounted_log, failsCounted_log, failsCounted_seq, vecTaken,
      State.seq_setSeq_same, State.seq_at, State.rb_at, State.rb_at]
    simp only [decide_eq_true_eq]
  · rw [vecCompleted_trig, State.trig_at]

end Sys2Proof.Machine
end

section
/-! ### Millpond writes within one bank (R327, R331, R333) -/

namespace Sys2Proof.Machine

variable {s : State} {a : Nat} {bytes : List Byte}

theorem State.byte_setBytes (x : Nat) : (s.setBytes a bytes).byte x =
    if a ≤ x ∧ x < a + bytes.length then bytes.getD (x - a) 0#8 else s.byte x := by
  split
  · rename_i hin
    have hlt : x - a < bytes.length := by omega
    have hbyte := State.byte_setBytes_in s a bytes (x - a) hlt
    rwa [show a + (x - a) = x by omega, List.getElem_eq_getD 0#8] at hbyte
  · exact State.byte_setBytes_out _ _ _ _ (by omega)

theorem putBytes_plain : putBytes none a bytes s = s.setBytes a bytes := by
  induction bytes generalizing a s with
  | nil => rfl
  | cons b r ih => exact ih

/-- A plain write that no bank boundary cuts, and that is granted, stores its bytes. -/
theorem memWrite_granted {q : MillReq} {rr : Bool} (hone : partsOf a bytes.length = [(a, bytes.length)])
    (hgrant : memAdmits s q rr a bytes.length = true) : memWrite q rr none a bytes s = s.setBytes a bytes := by
  unfold memAdmits at hgrant
  rw [hone, List.all_cons, Bool.and_eq_true, decide_eq_true_eq] at hgrant
  unfold memWrite
  rw [hone, List.foldl_cons, List.foldl_nil]
  dsimp only
  rw [hgrant.1]
  dsimp only
  rw [Nat.sub_self, List.drop_zero, List.take_length, putBytes_plain]

/-- A bank holds a whole number of 64-byte lines. -/
theorem partsOf_line (h : a % 64 = 0) : partsOf a 64 = [(a, 64)] := by
  have hfits : min 64 ((bankOf a + 1) * 786432 - a) = 64 := by unfold bankOf; omega
  unfold partsOf bankParts
  rw [if_neg (by decide)]
  split
  · rfl
  · dsimp only
    rw [hfits, Nat.sub_self]
    rfl

end Sys2Proof.Machine
end

section
/-! ### The log window (R184, R185, R268) -/

namespace Sys2Proof.Machine

variable {s : State} {n : Cluster} {t : Nat} {r : LogRec} {rest : List LogRec}

theorem leBytes_length (len v : Nat) : (leBytes len v).length = len := by
  induction len generalizing v with
  | zero => rfl
  | succ len ih => rw [leBytes, List.length_cons, ih]

theorem logBytes_length : (logBytes r).length = 64 := by
  simp only [logBytes, List.length_append, leBytes_length, List.length_map, List.length_range, List.length_cons, List.length_nil]

/-- The slots of the log window, and the one that the next record goes to. -/
def logSize (s : State) (n : Cluster) : Nat := sizeOr (s.rf .CL_HOP_LOG_SIZE n 0 16) 65536
def logSlot (s : State) (n : Cluster) : Nat := s.rf .CL_HOP_LOG_WPTR n 0 16
def logAddr (s : State) (n : Cluster) : Nat := s.rf .CL_HOP_LOG_BASE n 6 20 * 64 + logSlot s n * 64

theorem idxNext_logSize_lt (w : Nat) : idxNext w (logSize s n) < 2 ^ 16 := by
  have hfield : s.rf .CL_HOP_LOG_SIZE n 0 16 < 2 ^ 16 := Nat.mod_lt _ (by decide)
  have hsize : 0 < logSize s n ∧ logSize s n ≤ 2 ^ 16 := by unfold logSize sizeOr; split <;> omega
  exact Nat.lt_of_lt_of_le (Nat.mod_lt _ hsize.1) hsize.2

/-- The oldest record is in the window, the index has advanced, and the trigger queue has its turn. -/
def logWritten (n : Cluster) (r : LogRec) (rest : List LogRec) (s u : State) : State :=
  (((u.setBytes (logAddr s n) (logBytes r)).modSeq n fun q => { q with log := rest }).setTrig n
    { (u.setBytes (logAddr s n) (logBytes r)).trig n with turn := false }).setRf .CL_HOP_LOG_WPTR n 0 16
    (idxNext (logSlot s n) (logSize s n))

theorem logWritten_upd {K R : Nat} {C : Nat → Nat → Prop} {s0 u : State} (h : Upd K R C s0 u) (hk : 0x1102 ||| K = K)
    (hr : R.testBit (Reg.ctorIdx .CL_HOP_LOG_WPTR) = true) (hc : ∃ c, C n.val c) : Upd K R C s0 (logWritten n r rest s u) :=
  State.setRf_upd (State.setTrig_upd (State.modSeq_upd (State.setBytes_upd h (sub_of rfl hk)) (sub_of rfl hk) hc)
    (sub_of rfl hk) hc) hr (RegOk.one rfl hc)

theorem logWritten_byte {u : State} {x : Nat} :
    (logWritten n r rest s u).byte x = (u.setBytes (logAddr s n) (logBytes r)).byte x := by
  rw [logWritten, State.setRf, State.byte_setReg, State.byte_setTrig, State.modSeq, State.byte_setSeq]

/-- A record that finds its turn, room in the window and the Hopper's stream served is written (R185, R268). -/
theorem logRecordWrite_served (hlog : (s.seq n).log = r :: rest) (hturn : (s.trig n).turn = true ∨ (s.trig n).queue = [])
    (hroom : idxNext (logSlot s n) (logSize s n) ≠ s.rf .CL_HOP_LOG_RPTR n 0 16)
    (hserved : streamServed s n 0 false (logAddr s n) 64 = true)
    (hadmits : memAdmits s (.cluster n 0) false (logAddr s n) 64 = true) :
    exec (.logRecordWrite t n) s = .next (logWritten n r rest s (s.at t)) := by
  have hwrite : engineWrite n 0 false (logAddr s n) (logBytes r) (s.at t) =
      some ((s.at t).setBytes (logAddr s n) (logBytes r)) := by
    have hline : logAddr s n % 64 = 0 := by unfold logAddr; omega
    have hserved' : streamServed (s.at t) n 0 false (logAddr s n) (logBytes r).length = true := by
      rw [logBytes_length, ← hserved, State.at_eq]; rfl
    have hadmits' : memAdmits (s.at t) (.cluster n 0) false (logAddr s n) (logBytes r).length = true := by
      rw [logBytes_length, ← hadmits, State.at_eq]; rfl
    unfold engineWrite
    rw [if_pos hserved', memWrite_granted (by rw [logBytes_length, partsOf_line hline]) hadmits']
  have hmine : ∀ p : Prop, ¬ ((!(s.trig n).turn) = true ∧ (s.trig n).queue ≠ [] ∧ p) := by
    rintro p ⟨h1, h2, -⟩
    rcases hturn with h | h
    · rw [h] at h1; cases h1
    · exact h2 h
  rw [logAddr, logSlot] at hwrite
  rw [logSlot, logSize] at hroom
  show execLogRecordWrite t n s = _
  unfold execLogRecordWrite
  dsimp only
  rw [State.seq_at, State.trig_at, hlog]
  dsimp only
  rw [if_neg (hmine _), State.rf_at, State.rf_at, State.rf_at, State.rf_at, if_neg hroom, hwrite]
  rfl

theorem logRecordWrite_holds (hlog : (s.seq n).log = r :: rest) (hturn : (s.trig n).turn = true ∨ (s.trig n).queue = [])
    (hroom : idxNext (logSlot s n) (logSize s n) ≠ s.rf .CL_HOP_LOG_RPTR n 0 16)
    (hserved : streamServed s n 0 false (logAddr s n) 64 = true)
    (hadmits : memAdmits s (.cluster n 0) false (logAddr s n) 64 = true) :
    ∃ s', exec (.logRecordWrite t n) s = .next s' ∧ Written (logAddr s n) (logBytes r) s s' ∧ (s'.seq n).log = rest ∧
      (s'.trig n).turn = false ∧ s'.rf .CL_HOP_LOG_WPTR n.val 0 16 = idxNext (logSlot s n) (logSize s n) ∧
      Frame [.clasp, .mem, .seqs, .trigs] [.CL_HOP_LOG_WPTR] (atCluster n) s s' := by
  have hupd : Upd 0x1103 (regMask [.CL_HOP_LOG_WPTR]) (atCluster n) s (logWritten n r rest s (s.at t)) :=
    logWritten_upd (State.at_upd Upd.refl (by decide)) (by decide) (by decide +kernel) ⟨0, rfl⟩
  refine ⟨_, logRecordWrite_served hlog hturn hroom hserved hadmits, fun x => ?_, ?_, ?_, ?_,
    hupd.frame (by decide +kernel) (by decide +kernel)⟩
  · rw [logWritten_byte, State.byte_setBytes, State.byte_at]
  · rw [logWritten, State.setRf, State.seq_setReg, State.seq_setTrig, State.seq_modSeq]
  · rw [logWritten, State.setRf, State.trig_setReg, State.trig_setTrig_same]
  · rw [logWritten, State.rf_setRf_same _ _ _ _ _ _ (by decide), Nat.mod_eq_of_lt (idxNext_logSize_lt _)]

/-- Settles O27, clause by clause: a VEC leaves `vecCompleted`, a log record `logWritten`. -/
theorem vectorResultsReachFlagsAndLog : Obligations.VectorResultsReachFlagsAndLog := by
  unfold Obligations.VectorResultsReachFlagsAndLog
  exact ⟨fun _ _ _ _ _ h hkind => vectorComplete_hold h hkind, fun _ _ _ _ _ h hkind => vectorComplete_mvec h hkind,
    fun _ _ _ _ _ h hkind => vectorComplete_vec h hkind,
    fun _ _ _ _ _ hlog hturn hroom hserved hadmits => logRecordWrite_holds hlog hturn hroom hserved hadmits⟩

end Sys2Proof.Machine
end

/-! # Patterns start and end, and the Hopper loads: obligations O24, O28, O29

SUPPORT. Arming and the run start; then the end of a pattern, with the end of an unwind; then the Hopper's commands and
loads. -/

section
/-! ### Arming (R178, R179, R186, R456) -/

namespace Sys2Proof.Machine

variable {s : State} {n : Cluster} {t : Nat}

/-! What an arming makes of the sequencer. -/

/-- The sequencer's record q once it is armed at clasp `now` to start at t0 with front end fe. -/
def armedSeq (t0 : Nat) (fe : FE) (stream : Bool) (now : Nat) (q : Seq) : Seq :=
  { q with fe := fe, feOn := true, q := if stream then [.stallPoint fe.pc] else [], tNext := t0 * 512, t0 := t0, seqNo := 0,
           hold := fe.hold, infl := [], edges := [], lastPl := [], wait := none, steps := [], release := none, stalled := false,
           abort := none, ending := none, lastEnd := now * 512, matchNo := 0 }

section
variable {t0 : Nat} {fe : FE} {stream : Bool}

theorem armAt_seq : (armAt n t0 fe stream s).seq n = armedSeq t0 fe stream s.clasp (s.seq n) := by
  unfold armAt
  dsimp only
  rw [noteDepth_seq, setSeqState, State.setRf, State.seq_setReg, State.seq_setSeq_same]
  rfl

/-- STATE is ARMED, STREAM as asked, and the depth that of fe's stack. -/
theorem armAt_stat : (armAt n t0 fe stream s).reg .CL_SEQ_STAT n =
    putFld (putFld (putBit (s.reg .CL_SEQ_STAT n) 4 stream) 0 3 1) 5 5 fe.stack.length := by
  unfold armAt noteDepth setSeqState
  dsimp only
  split <;> simp [State.reg_setRb, State.reg_setReg, State.setRf]

theorem armAt_state : seqState (armAt n t0 fe stream s) n = 1 := by
  rw [seqState, State.rf, armAt_stat, fld_putFld_ne _ _ _ _ _ _ (by omega) (by omega), fld_putFld_same _ _ _ _ (by omega)]
  rfl

theorem armAt_streaming : streaming (armAt n t0 fe stream s) n = stream := by
  rw [streaming, State.rb, armAt_stat, bitOf_putFld _ _ _ _ _ (by omega), if_neg (by omega),
    bitOf_putFld _ _ _ _ _ (by omega), if_neg (by omega), bitOf_putBit _ _ _ _ (by omega), if_pos rfl]

theorem armAt_res : (armAt n t0 fe stream s).reg .CL_SEQ_RES n = 0#32 := by
  unfold armAt noteDepth setSeqState
  dsimp only
  split <;> simp [State.reg_setRf, State.reg_setRb]

theorem armAt_reg {r : Reg} {i : Nat} (h : r ∉ [.CL_SEQ_STAT, .CL_SEQ_RES, .CL_STORE_STAT]) :
    (armAt n t0 fe stream s).reg r i = s.reg r i :=
  ((armAt_upd (C := fun _ _ => True) (Upd.refl (s := s)) (Nat.or_self _) (Nat.or_self _) ⟨0, trivial⟩).frame
    (KL := [.seqs, .hops]) (by decide +kernel) (by decide +kernel)).1.regs r i h

end

/-! The counts that an arming clears. -/

/-- The counts of one element per cluster. -/
def countRegs : List Reg :=
  [.CL_SEQ_VCNT_LO, .CL_SEQ_VCNT_HI, .CL_SEQ_STALLS, .CL_SEQ_HOLDV, .CL_SEQ_BUBBLES, .CL_SEQ_FFVALID]

theorem clearCounts_changes : Upd 0 (regMask (.CL_SEQ_FCNT :: countRegs)) (fun _ _ => True) s (clearCounts n s) :=
  clearCounts_upd Upd.refl (by decide +kernel) fun _ => trivial

theorem foldl_setReg_reg {r r' : Reg} {l : List Nat} {k i : Nat} {v : Word} (h : r' ≠ r) :
    (l.foldl (fun s c => s.setReg r (k + c) v) s).reg r' i = s.reg r' i :=
  List.foldlRecOn (motive := fun u : State => u.reg r' i = s.reg r' i) l _ rfl fun b hb c _ => by
    rw [State.reg_setReg, if_neg fun e => h e.1, hb]

theorem clearCounts_count {r : Reg} (h : r ∈ countRegs) : (clearCounts n s).reg r n = 0#32 := by
  simp only [countRegs, List.mem_cons, List.not_mem_nil, or_false] at h
  unfold clearCounts
  rcases h with rfl | rfl | rfl | rfl | rfl | rfl <;> simp [State.reg_setReg, foldl_setReg_reg]

theorem clearCounts_fcnt (c : Channel) : (clearCounts n s).reg .CL_SEQ_FCNT (chIx n c) = 0#32 := by
  unfold clearCounts
  dsimp only
  rw [State.reg_setReg, if_neg (by simp)]
  exact foldl_observed (f := fun s c => s.setReg .CL_SEQ_FCNT (n.val * 32 + c) 0#32)
    (obs := fun s => s.reg .CL_SEQ_FCNT (chIx n c)) (g := fun _ => 0#32) (i := c.val)
    (fun j s hj => by rw [State.reg_setReg, if_neg fun e => hj (Nat.add_left_cancel e.2).symm])
    (fun s => State.reg_setReg_same ..) List.nodup_range (List.mem_range.2 c.isLt)

/-! A start that is run. -/

/-- Counts and flags are cleared for a new pattern. -/
def runCleared (n : Cluster) (s : State) : State :=
  (clearCounts n s).modSeq n fun q =>
    { q with fFail := false, fMatch := false, ep := 0, rtn := none, unwind := false, resume := false }

theorem runCleared_seq : (runCleared n s).seq n =
    { s.seq n with fFail := false, fMatch := false, ep := 0, rtn := none, unwind := false, resume := false } := by
  rw [runCleared, State.seq_modSeq, clearCounts_changes.seq_eq (Nat.zero_testBit _)]

theorem runCleared_reg {r : Reg} {i : Nat} (h : r ∉ .CL_SEQ_FCNT :: countRegs) :
    (runCleared n s).reg r i = s.reg r i := by
  rw [runCleared, State.reg_modSeq]
  exact (clearCounts_changes.frame (KL := []) (by decide +kernel) (by decide +kernel)).1.regs r i h

theorem startFrom_runCleared : startFrom (runCleared n s) n = startFrom s n := by
  have hcal : (clearCounts n s).cal = s.cal := clearCounts_changes.parts .cal (Nat.zero_testBit _)
  have hclasp : (clearCounts n s).clasp = s.clasp := clearCounts_changes.clasp_eq (Nat.zero_testBit _)
  unfold startFrom
  rw [runCleared, State.modSeq, State.clasp_setSeq, hclasp, State.setSeq, hcal]

/-- T(0) of a start, as CL_SEQ_CTRL.TMODE chooses it (R178). -/
def armTime (n : Cluster) (s : State) : Nat :=
  if s.rb .CL_SEQ_CTRL n 3 then s.pair .CL_SEQ_TSTART_LO .CL_SEQ_TSTART_HI n else startGrid (startFrom s n)

/-- The pattern is armed at CL_SEQ_ADDR, with its loop counters kept (log entry 25). -/
def patternArmed (n : Cluster) (s : State) : State :=
  armAt n (armTime n s) { freshFE (s.rf .CL_SEQ_ADDR n 0 16) with ctrs := (s.seq n).fe.ctrs } (s.rb .CL_HOP_CTRL n 0)
    (runCleared n s)

theorem startSeq_arms (hlock : s.rb .CL_TIM_STAT n 0 = true)
    (htime : s.rb .CL_SEQ_CTRL n 3 = true → startFrom s n + 256 ≤ armTime n s) :
    startSeq n s = patternArmed n s := by
  have hreg : ∀ r i, r ∉ .CL_SEQ_FCNT :: countRegs → (runCleared n s).reg r i = s.reg r i := fun _ _ h => runCleared_reg h
  show armSeq n _ _ (runCleared n s) = _
  unfold armSeq patternArmed
  rw [State.rb, hreg _ _ (by decide), ← State.rb, hlock, if_neg (by decide), State.rb, hreg _ _ (by decide), ← State.rb,
    startFrom_runCleared, State.pair, hreg _ _ (by decide), hreg _ _ (by decide), ← State.pair]
  unfold armTime at htime ⊢
  by_cases hmode : s.rb .CL_SEQ_CTRL n 3 = true
  · have hin := htime hmode
    rw [if_pos hmode] at hin ⊢
    rw [if_pos hmode, if_neg (Nat.not_lt.2 hin)]
  · rw [if_neg hmode, if_neg hmode]

theorem patternArmed_seq : (patternArmed n s).seq n =
    armedSeq (armTime n s) { freshFE (s.rf .CL_SEQ_ADDR n 0 16) with ctrs := (s.seq n).fe.ctrs } (s.rb .CL_HOP_CTRL n 0)
      (runCleared n s).clasp ((runCleared n s).seq n) := by
  rw [patternArmed, armAt_seq]

theorem patternArmed_reg {r : Reg} {i : Nat} (h : r ∉ [.CL_SEQ_STAT, .CL_SEQ_RES, .CL_STORE_STAT]) :
    (patternArmed n s).reg r i = (clearCounts n s).reg r i := by
  rw [patternArmed, armAt_reg h, runCleared, State.reg_modSeq]

/-- The sequencer's registers as an arming leaves them: the counts and the result are 0. -/
theorem patternArmed_counts {r : Reg} (h : r ∈ .CL_SEQ_RES :: countRegs) : (patternArmed n s).reg r n = 0#32 := by
  rcases List.mem_cons.1 h with rfl | hcount
  · rw [patternArmed, armAt_res]
  · have hnot : ∀ r ∈ countRegs, r ∉ [.CL_SEQ_STAT, .CL_SEQ_RES, .CL_STORE_STAT] := by decide
    exact (patternArmed_reg (hnot r hcount)).trans (clearCounts_count hcount)

/-! What a start meets before it acts (R178, R223, R445, R457, R477, R479). -/

/-- Nothing keeps a start of the sequencer out, and nothing holds it. -/
structure SeqMayStart (n : Cluster) (s : State) : Prop where
  unretired : cluRetired s n = false
  noContext : s.rb .CL_MR_STAT n 0 = false
  unpatched : patchBlocks s = false
  cool : govLevel s n < 3
  uninterrupted : calIntrOn s n = false
  untested : asyBusy s n = false

/-- Of the registers, CL_SEQ_CTRL has no say in it. -/
theorem SeqMayStart.congr {a b : State} (h : SeqMayStart n a) (hreg : ∀ r i, r ≠ .CL_SEQ_CTRL → b.reg r i = a.reg r i) :
    SeqMayStart n b where
  unretired := (cluRetired_congr (hreg _ _ (by decide))).trans h.unretired
  noContext := by rw [State.rb, hreg _ _ (by decide)]; exact h.noContext
  unpatched := by
    rw [← h.unpatched]; unfold patchBlocks State.rb; rw [hreg _ _ (by decide), hreg _ _ (by decide)]
  cool := by rw [govLevel_congr (hreg _ _ (by decide))]; exact h.cool
  uninterrupted := (calIntrOn_congr (hreg _ _ (by decide))).trans h.uninterrupted
  untested := (asyBusy_congr (hreg _ _ (by decide))).trans h.untested

theorem seqStartOp_starts (hidle : idleNow s n = true) (hfree : SeqMayStart n s) :
    seqStartOp n s = startSeq n (calAbandon n s) := by
  obtain ⟨hret, hctx, hpatch, hcool, hintr, hasy⟩ := hfree
  unfold seqStartOp startOr
  rw [hidle, hret, hctx, hpatch]
  dsimp only
  rw [if_neg (by decide), if_neg (by omega), hintr, hasy]
  rfl

/-- From when a start counts that meets s: a calibration step is abandoned, and its channels are back 40,000 ticks later. -/
def startFloor (s : State) (n : Cluster) : Nat :=
  if calStepOn s n then s.clasp + 40000 else max s.clasp (s.calSt n).back

theorem startFloor_at : startFloor (s.at t) n =
    if calStepOn s n then (s.at t).clasp + 40000 else max (s.at t).clasp (s.calSt n).back := by
  unfold startFloor calStepOn
  rw [State.rb_at, State.calSt_at]

theorem busPass_only : Only [.chans] [] s (busPass n s) :=
  ((busPass_upd (R := 0) (C := fun _ _ => True) (Upd.refl (s := s)) (Nat.or_self _) fun _ => trivial).frame
    (by decide +kernel) (by decide +kernel)).1

theorem startFrom_busPass : startFrom (busPass n s) n = startFrom s n := by
  have hclasp : (busPass n s).clasp = s.clasp := busPass_only.parts .clasp (by decide)
  have hcal : (busPass n s).cal = s.cal := busPass_only.parts .cal (by decide)
  unfold startFrom
  rw [hclasp, hcal]

theorem startFrom_calAbandon : startFrom (calAbandon n s) n = startFloor s n := by
  unfold calAbandon startFloor
  split
  · dsimp only
    rw [startFrom_busPass, startFrom, ← State.calSt, State.calSt_setCalSt_same]
    exact Nat.max_eq_right (Nat.le_add_right ..)
  · rfl

/-! The command. -/

section
variable {d : Word}

theorem seqCtrlStored_reg {r : Reg} {i : Nat} (h : r ≠ .CL_SEQ_CTRL) : (seqCtrlStored n d s).reg r i = s.reg r i :=
  (plainWrite_reg ..).trans (if_neg fun e => h e.1)

/-- TMODE is as written. -/
theorem seqCtrlStored_tmode : (seqCtrlStored n d s).rb .CL_SEQ_CTRL n 3 = bitOf d 3 := by
  rw [seqCtrlStored, State.rb, plainWrite_same, bitOf_plainWord _ _ _ _ _ (by omega)]
  simp [bitOf, Reg.rwOf, Reg.row]

/-- The state in which a start acts: the word is stored, and a calibration step is abandoned. -/
def startMet (n : Cluster) (d : Word) (s : State) : State := calAbandon n (seqCtrlStored n d s)

theorem startMet_reg {r : Reg} {i : Nat} (h : r ∉ [.CL_SEQ_CTRL, .CL_CAL_STAT, .CL_CAL_EVT]) :
    (startMet n d s).reg r i = s.reg r i := by
  rw [List.mem_cons, not_or] at h
  rw [startMet, calAbandon_only.regs r i h.2, seqCtrlStored_reg h.1]

theorem startMet_tmode : (startMet n d s).rb .CL_SEQ_CTRL n 3 = bitOf d 3 := by
  rw [startMet, State.rb, calAbandon_only.regs _ _ (by decide), ← State.rb, seqCtrlStored_tmode]

theorem startMet_from : startFrom (startMet n d s) n = startFloor s n := by
  rw [startMet, startFrom_calAbandon]
  unfold startFloor calStepOn State.rb
  rw [seqCtrlStored_reg (by decide)]
  rfl

theorem startMet_time : armTime n (startMet n d s) = startTime s n (bitOf d 3) := by
  unfold armTime startTime State.pair
  rw [startMet_tmode, startMet_from, startMet_reg (by decide), startMet_reg (by decide), startFloor]

theorem seqCtrlWrite_start {r : Req} (h0 : bitOf d 0 = true) (h1 : bitOf d 1 = false) (hidle : idleNow s n = true)
    (hfree : SeqMayStart n s) (hlock : s.rb .CL_TIM_STAT n 0 = true)
    (htime : bitOf d 3 = true → startFloor s n + 256 ≤ startTime s n true) :
    seqCtrlWrite r n d 0xFFFFFFFF#32 s = patternArmed n (startMet n d s) := by
  have hidle' : idleNow (seqCtrlStored n d s) n = true := by
    rw [← hidle]; unfold idleNow; rw [seqCtrlStored_idle, seqCtrlStored_seq, seqCtrlStored_clasp]
  have hseqIdle : seqIdle (seqCtrlStored n d s) n = true := by
    unfold idleNow at hidle'; exact (Bool.and_eq_true_iff.1 hidle').1
  have hlock' : (startMet n d s).rb .CL_TIM_STAT n 0 = true := by rw [State.rb, startMet_reg (by decide)]; exact hlock
  unfold seqCtrlWrite
  rw [← seqCtrlStored]
  dsimp only
  rw [ones_full, ones_full, ones_full, h0, h1, hseqIdle, Bool.not_true, Bool.and_false, if_neg Bool.false_ne_true,
    if_neg Bool.false_ne_true, if_pos rfl, seqStartOp_starts hidle' (hfree.congr fun _ _ h => seqCtrlStored_reg h)]
  refine startSeq_arms hlock' fun hmode => ?_
  rw [← startMet, startMet_from, startMet_time]
  rw [← startMet, startMet_tmode] at hmode
  rw [hmode]
  exact htime hmode

end

end Sys2Proof.Machine
end

section
/-! ### START and the run start (R178, R210) -/

namespace Sys2Proof.Machine

variable {s : State} {n : Cluster} {t : Nat} {d : Word}

/-- The registers that a START may write. -/
def startRegs : List Reg :=
  [.CL_SEQ_CTRL, .CL_SEQ_STAT, .CL_SEQ_RES, .CL_SEQ_VCNT_LO, .CL_SEQ_VCNT_HI, .CL_SEQ_STALLS, .CL_SEQ_HOLDV, .CL_SEQ_BUBBLES,
    .CL_SEQ_EVT, .CL_SEQ_FFVALID, .CL_SEQ_FCNT, .CL_CAL_STAT, .CL_CAL_EVT, .CL_STORE_STAT]

theorem patternArmed_startMet_frame :
    Frame [.clasp, .chans, .seqs, .hops, .cal] (startRegs ++ [.PWR_CLU_GATE]) (atCluster n) s
      (ungate n.val (patternArmed n (startMet n d (s.at t)))) := by
  have hstored : Upd 0x40000000340 (regMask startRegs) (atCluster n) (s.at t) (seqCtrlStored n d (s.at t)) :=
    seqCtrlStored_upd Upd.refl (by decide +kernel) ⟨0, rfl⟩
  have hmet := calAbandon_upd hstored (by decide) (by decide +kernel) fun _ => rfl
  have hcleared := State.modSeq_upd (n := n) (f := fun q =>
    { q with fFail := false, fMatch := false, ep := 0, rtn := none, unwind := false, resume := false })
    (clearCounts_upd hmet (by decide +kernel) fun _ => rfl) (by decide) ⟨0, rfl⟩
  exact (cmdWrite_frame (armAt_upd hcleared (by decide) (by decide +kernel) ⟨0, rfl⟩)).frame (by decide +kernel)
    (by decide +kernel)

theorem execSeqStart_accepted {r : Req} (hacc : Accepted r .CL_SEQ_CTRL n.val (d ||| 1#32) (s.at t))
    (h1 : bitOf d 1 = false) (hidle : idleNow (s.at t) n = true) (hfree : SeqMayStart n s)
    (hlock : s.rb .CL_TIM_STAT n 0 = true)
    (htime : bitOf d 3 = true → startFloor (s.at t) n + 256 ≤ startTime (s.at t) n true) :
    execSeqStart t r n d s = .next (ungate n.val (patternArmed n (startMet n (d ||| 1#32) (s.at t)))) := by
  have hstart : bitOf (d ||| 1#32) 0 = true := by rw [bitOf_or]; simp [bitOf]
  have habort : bitOf (d ||| 1#32) 1 = false := by rw [bitOf_or, h1]; rfl
  have hmode : bitOf (d ||| 1#32) 3 = bitOf d 3 := by rw [bitOf_or]; simp [bitOf]
  rw [← seqCtrlWrite_start (r := r) hstart habort hidle (hfree.congr fun _ _ _ => State.reg_at ..) (by rwa [State.rb_at])
    (by rw [hmode]; exact htime)]
  exact congrArg Host.Outcome.next (cmdWrite_seqCtrl hacc)

/-- What the record of a pattern armed from s holds (R178). -/
theorem patternArmed_record {s' : State} (h : s'.seq n = (patternArmed n s).seq n) :
    (s'.seq n).t0 = armTime n s ∧ (s'.seq n).tNext = armTime n s * 512 ∧
      (s'.seq n).fe.pc = ⟨false, s.rf .CL_SEQ_ADDR n 0 16⟩ ∧ (s'.seq n).fe.stack = [] ∧ (s'.seq n).fe.sel = 0#32 ∧
      (s'.seq n).fe.cond = 0xFFFFFFFF#32 ∧ (s'.seq n).fe.rtn = none ∧ (s'.seq n).feOn = true ∧
      (s'.seq n).fMatch = false ∧ (s'.seq n).fFail = false := by
  rw [h, patternArmed_seq, runCleared_seq]
  exact ⟨rfl, rfl, rfl, rfl, rfl, rfl, rfl, rfl, rfl, rfl⟩

theorem seqStart_holds {r : Req} (hacc : Accepted r .CL_SEQ_CTRL n.val (d ||| 1#32) (s.at t))
    (h1 : bitOf d 1 = false) (hidle : idleNow (s.at t) n = true) (hfree : SeqMayStart n s)
    (hlock : s.rb .CL_TIM_STAT n 0 = true)
    (htime : bitOf d 3 = true → startFloor (s.at t) n + 256 ≤ startTime (s.at t) n true) :
    ∃ s', exec (.seqStart t r n d) s = .next s' ∧ seqState s' n = 1 ∧ (s'.seq n).t0 = startTime (s.at t) n (bitOf d 3) ∧
      (s'.seq n).tNext = startTime (s.at t) n (bitOf d 3) * 512 ∧
      (s'.seq n).fe.pc = ⟨false, s.rf .CL_SEQ_ADDR n.val 0 16⟩ ∧ (s'.seq n).fe.stack = [] ∧ (s'.seq n).fe.sel = 0#32 ∧
      (s'.seq n).fe.cond = 0xFFFFFFFF#32 ∧ (s'.seq n).fe.rtn = none ∧ (s'.seq n).feOn = true ∧
      (s'.seq n).fMatch = false ∧ (s'.seq n).fFail = false ∧ streaming s' n = s.rb .CL_HOP_CTRL n.val 0 ∧
      s'.reg .CL_SEQ_RES n.val = 0#32 ∧ s'.reg .CL_SEQ_VCNT_LO n.val = 0#32 ∧ s'.reg .CL_SEQ_VCNT_HI n.val = 0#32 ∧
      s'.reg .CL_SEQ_STALLS n.val = 0#32 ∧ s'.reg .CL_SEQ_HOLDV n.val = 0#32 ∧ s'.reg .CL_SEQ_BUBBLES n.val = 0#32 ∧
      s'.reg .CL_SEQ_FFVALID n.val = 0#32 ∧ (∀ c : Channel, s'.reg .CL_SEQ_FCNT (chIx n c) = 0#32) ∧
      Frame [.clasp, .chans, .seqs, .hops, .cal]
        [.CL_SEQ_CTRL, .CL_SEQ_STAT, .CL_SEQ_RES, .CL_SEQ_VCNT_LO, .CL_SEQ_VCNT_HI, .CL_SEQ_STALLS, .CL_SEQ_HOLDV, .CL_SEQ_BUBBLES,
          .CL_SEQ_EVT, .CL_SEQ_FFVALID, .CL_SEQ_FCNT, .CL_CAL_STAT, .CL_CAL_EVT, .CL_STORE_STAT, .PWR_CLU_GATE] (atCluster n) s s' := by
  have hmode : bitOf (d ||| 1#32) 3 = bitOf d 3 := by rw [bitOf_or]; simp [bitOf]
  obtain ⟨ht0, htNext, hpc, hstack, hsel, hcond, hrtn, hon, hmatch, hfail⟩ :=
    patternArmed_record (s := startMet n (d ||| 1#32) (s.at t)) (ungate_seq (n := n) n.val)
  rw [startMet_time, hmode] at ht0 htNext
  rw [State.rf, startMet_reg (by decide), State.reg_at, ← State.rf] at hpc
  have hstream : streaming (patternArmed n (startMet n (d ||| 1#32) (s.at t))) n = s.rb .CL_HOP_CTRL n 0 := by
    rw [patternArmed, armAt_streaming, State.rb, startMet_reg (by decide), State.reg_at, ← State.rb]
  have hzero : ∀ r ∈ .CL_SEQ_RES :: countRegs,
      (ungate n.val (patternArmed n (startMet n (d ||| 1#32) (s.at t)))).reg r n = 0#32 := fun r hr =>
    (ungate_reg (by rintro rfl; exact absurd hr (by decide))).trans (patternArmed_counts hr)
  refine ⟨_, execSeqStart_accepted hacc h1 hidle hfree hlock htime, (ungate_rf (by decide)).trans armAt_state, ht0,
    htNext, hpc, hstack, hsel, hcond, hrtn, hon, hmatch, hfail, (ungate_rb (by decide)).trans hstream,
    hzero _ (by decide), hzero _ (by decide), hzero _ (by decide), hzero _ (by decide), hzero _ (by decide),
    hzero _ (by decide), hzero _ (by decide), fun c => ?_, patternArmed_startMet_frame⟩
  rw [ungate_reg (by decide), patternArmed_reg (by decide), clearCounts_fcnt]

/-! The run start. -/

/-- An armed sequencer runs. -/
def runEntered (n : Cluster) (s : State) : State := if seqState s n = 1 then setSeqState n 2 s else s

theorem setSeqState_state {v : Nat} (h : v < 8) : seqState (setSeqState n v s) n = v := by
  rw [seqState, setSeqState, State.rf_setRf_same _ _ _ _ _ _ (by omega)]; exact Nat.mod_eq_of_lt h

theorem runEntered_state : seqState (runEntered n s) n = if seqState s n = 1 then 2 else seqState s n := by
  unfold runEntered
  split
  · exact setSeqState_state (by omega)
  · rfl

theorem runEntered_reg {r : Reg} {i : Nat} (h : r ≠ .CL_SEQ_STAT) : (runEntered n s).reg r i = s.reg r i := by
  unfold runEntered
  split
  · exact (State.reg_setRf ..).trans (if_neg fun e => h e.1)
  · rfl

theorem runEntered_upd {K R : Nat} {C : Nat → Nat → Prop} {s0 : State} (h : Upd K R C s0 s)
    (hr : R.testBit (Reg.ctorIdx .CL_SEQ_STAT) = true) (hc : ∃ c, C n.val c) : Upd K R C s0 (runEntered n s) :=
  Upd.ite (State.setRf_upd h hr (RegOk.one rfl hc)) h

/-- A resume's context ceases to be held: HELD and ABORT_PEND are 0, OUTCOME is RESUMED (R210). -/
def contextResumed (n : Cluster) (s : State) : State :=
  (s.setReg .CL_MR_STAT n (putFld (s.reg .CL_MR_STAT n &&& ~~~ 0x1001#32) 13 3 2)).modSeq n fun q => { q with ctx := none }

/-- The sequencer's run starts. -/
theorem execSeqRunStart_due (hidle : seqIdle s n = false) (htime : (s.seq n).t0 ≤ (s.at t).clasp)
    (hending : (s.seq n).ending = none) : execSeqRunStart t n s = .next (
      if (s.seq n).resume ∧ s.rb .CL_MR_STAT n 0 then contextResumed n (runEntered n (s.at t)) else runEntered n (s.at t)) := by
  have hidle' : seqIdle (s.at t) n = false := (seqIdle_congr (State.reg_at ..)).trans hidle
  have hheld : s.rb .CL_MR_STAT n 0 = (runEntered n (s.at t)).rb .CL_MR_STAT n 0 := by
    rw [State.rb, State.rb, runEntered_reg (by decide), State.reg_at]
  unfold execSeqRunStart
  dsimp only
  rw [State.seq_at, if_pos ⟨by rw [hidle']; rfl, htime, hending⟩, hheld]
  rfl

theorem seqState_at : seqState (s.at t) n = seqState s n := State.rf_at ..

theorem seqRunStart_fresh (hidle : seqIdle s n = false) (htime : (s.seq n).t0 ≤ (s.at t).clasp)
    (hending : (s.seq n).ending = none) (hresume : (s.seq n).resume = false) :
    ∃ s', exec (.seqRunStart t n) s = .next s' ∧ seqState s' n = (if seqState s n = 1 then 2 else seqState s n) ∧
      Frame [.clasp] [.CL_SEQ_STAT] (atCluster n) s s' := by
  have hexec := execSeqRunStart_due (t := t) hidle htime hending
  rw [hresume, if_neg fun h => Bool.false_ne_true h.1] at hexec
  have hupd : Upd 1 (regMask [.CL_SEQ_STAT]) (atCluster n) s (runEntered n (s.at t)) :=
    runEntered_upd (State.at_upd Upd.refl (by decide)) (by decide +kernel) ⟨0, rfl⟩
  exact ⟨_, hexec, by rw [runEntered_state, seqState_at], hupd.frame (by decide +kernel) (by decide +kernel)⟩

theorem seqRunStart_resume (hidle : seqIdle s n = false) (htime : (s.seq n).t0 ≤ (s.at t).clasp)
    (hending : (s.seq n).ending = none) (hresume : (s.seq n).resume = true) (hheld : s.rb .CL_MR_STAT n.val 0 = true) :
    ∃ s', exec (.seqRunStart t n) s = .next s' ∧ seqState s' n = (if seqState s n = 1 then 2 else seqState s n) ∧
      s'.rb .CL_MR_STAT n.val 0 = false ∧ s'.rf .CL_MR_STAT n.val 13 3 = 2 ∧ (s'.seq n).ctx = none ∧
      Frame [.clasp, .seqs] [.CL_SEQ_STAT, .CL_MR_STAT] (atCluster n) s s' := by
  have hexec := execSeqRunStart_due (t := t) hidle htime hending
  rw [if_pos ⟨hresume, hheld⟩] at hexec
  have hupd : Upd 0x101 (regMask [.CL_SEQ_STAT, .CL_MR_STAT]) (atCluster n) s (contextResumed n (runEntered n (s.at t))) :=
    State.modSeq_upd (State.setReg_upd (runEntered_upd (State.at_upd Upd.refl (by decide)) (by decide +kernel) ⟨0, rfl⟩)
      (by decide +kernel) (RegOk.one rfl ⟨0, rfl⟩)) (by decide) ⟨0, rfl⟩
  refine ⟨_, hexec, ?_, ?_, ?_, by rw [contextResumed, State.seq_modSeq], hupd.frame (by decide +kernel) (by decide +kernel)⟩
  · rw [← seqState_at (s := s) (t := t), ← runEntered_state]
    exact congrArg (fld · 0 3) ((State.reg_setReg ..).trans (if_neg (by simp)))
  · rw [contextResumed, State.rb, State.reg_modSeq, State.reg_setReg_same, bitOf_putFld _ _ _ _ _ (by omega),
      if_neg (by omega), bitOf_and]
    simp [bitOf]
  · rw [contextResumed, State.rf, State.reg_modSeq, State.reg_setReg_same, fld_putFld_same _ _ _ _ (by omega)]
    rfl

/-- Settles O24, clause by clause: a START is `patternArmed`, a run start `runEntered`, a resume's `contextResumed`. -/
theorem sequencerArmsAndStarts : Obligations.SequencerArmsAndStarts := by
  unfold Obligations.SequencerArmsAndStarts
  exact ⟨fun _ _ _ _ _ hacc h1 hidle hret hctx hpatch hcool hintr hasy hlock htime =>
      seqStart_holds hacc h1 hidle ⟨hret, hctx, hpatch, hcool, hintr, hasy⟩ hlock (by rw [startFloor_at]; exact htime),
    fun _ _ _ hidle htime hending hresume => seqRunStart_fresh hidle htime hending hresume,
    fun _ _ _ hidle htime hending hresume hheld => seqRunStart_resume hidle htime hending hresume hheld⟩

end Sys2Proof.Machine
end

section
/-! ### The end of a pattern (R181, R194) -/

namespace Sys2Proof.Machine

variable {s : State} {n : Cluster} {t code exit : Nat}

/-- CL_SEQ_TEND, and CL_SEQ_RES with the code and EXIT. -/
def endWritten (n : Cluster) (code exit tend : Nat) (s : State) : State :=
  (s.setPair .CL_SEQ_TEND_LO .CL_SEQ_TEND_HI n tend).setReg .CL_SEQ_RES n
    (putFld (putFld (s.reg .CL_SEQ_RES n) 0 4 code) 8 8 exit)

/-- DONE is set, a streamed pattern's Hopper is off, and CL_SEQ_STAT reads 0. -/
def endShown (n : Cluster) (code exit tend : Nat) (s : State) : State :=
  (hopEnd n (seqEvt n 0 (endWritten n code exit tend s))).setReg .CL_SEQ_STAT n 0#32

/-- The sequencer's record q once its pattern has ended at clasp `now`. -/
def endedSeq (now : Nat) (q : Seq) : Seq :=
  { q with ending := none, rtn := none, edges := [], unwind := false, resume := false, idleC := now / 80 + 1 }

/-- The pattern has ended, and the trigger units are told. -/
def patternEnded (n : Cluster) (code exit : Nat) (s : State) : State :=
  ((endShown n code exit ((s.seq n).lastEnd / 512) s).trigEvent n (.patEnd ((s.seq n).lastEnd / 512))).setSeq n
    (endedSeq s.clasp (s.seq n))

/-- 96 ticks after its last vector the pattern ends; then an unwind ends, or one begins after a refusal. -/
theorem execPatternEnd_due (hending : (s.seq n).ending = some (code, exit))
    (htime : ((s.seq n).lastEnd + 176 * 512 - 1) / (80 * 512) ≤ (s.at t).clasp / 80) (hinfl : (s.seq n).infl = []) :
    execPatternEnd t n s = .next (
      if (s.seq n).unwind then finishUnwind n true (patternEnded n (unwindCode s n code) exit (s.at t))
      else if unwindCode s n code = 10 ∨ unwindCode s n code = 11 then
        beginUnwind n false (patternEnded n (unwindCode s n code) exit (s.at t))
      else patternEnded n (unwindCode s n code) exit (s.at t)) := by
  have hcode : unwindCode (s.at t) n code = unwindCode s n code := by
    unfold unwindCode; rw [State.seq_at, State.rf_at]
  unfold execPatternEnd
  dsimp only
  rw [State.seq_at, hending]
  dsimp only
  rw [hcode, if_pos ⟨htime, hinfl⟩]
  unfold patternEnded
  rw [State.seq_at]
  rfl

/-! What the registers hold. -/

def endRegs : List Reg :=
  [.CL_SEQ_STAT, .CL_SEQ_RES, .CL_SEQ_TEND_LO, .CL_SEQ_TEND_HI, .CL_SEQ_EVT, .CL_HOP_CTRL, .CL_HOP_STAT]

theorem hopEnd_reg {r : Reg} {i : Nat} (hctrl : r ≠ .CL_HOP_CTRL) (hstat : r ≠ .CL_HOP_STAT) :
    (hopEnd n s).reg r i = s.reg r i := by
  unfold hopEnd
  split
  · rw [State.reg_setRb, if_neg fun e => hstat e.1, State.reg_setRb, if_neg fun e => hctrl e.1]
  · rfl

theorem hopEnd_off (h : streaming s n = true) : (hopEnd n s).rb .CL_HOP_CTRL n 0 = false := by
  unfold hopEnd
  rw [if_pos h, State.rb, State.reg_setRb, if_neg (by simp), ← State.rb, State.rb_setRb_same _ _ _ _ _ (by omega)]

theorem endWritten_reg {tend : Nat} {r : Reg} {i : Nat} (h : r ∉ [.CL_SEQ_TEND_LO, .CL_SEQ_TEND_HI, .CL_SEQ_RES]) :
    (endWritten n code exit tend s).reg r i = s.reg r i := by
  simp only [List.mem_cons, List.not_mem_nil, or_false, not_or] at h
  obtain ⟨hlo, hhi, hres⟩ := h
  rw [endWritten, State.reg_setReg, if_neg fun e => hres e.1, State.setPair, State.reg_setReg, if_neg fun e => hhi e.1,
    State.reg_setReg, if_neg fun e => hlo e.1]

/-- A register that neither DONE nor the end of streaming writes is as `endWritten` leaves it. -/
theorem patternEnded_reg {r : Reg} {i : Nat} (h : r ∉ [.CL_SEQ_STAT, .CL_SEQ_EVT, .CL_HOP_CTRL, .CL_HOP_STAT]) :
    (patternEnded n code exit s).reg r i = (endWritten n code exit ((s.seq n).lastEnd / 512) s).reg r i := by
  simp only [List.mem_cons, List.not_mem_nil, or_false, not_or] at h
  obtain ⟨hstat, hevt, hctrl, hhop⟩ := h
  rw [patternEnded, State.reg_setSeq, State.reg_trigEvent, endShown, State.reg_setReg, if_neg fun e => hstat e.1,
    hopEnd_reg hctrl hhop, seqEvt, State.reg_setRb, if_neg fun e => hevt e.1]

theorem patternEnded_stat : (patternEnded n code exit s).reg .CL_SEQ_STAT n = 0#32 := by
  rw [patternEnded, State.reg_setSeq, State.reg_trigEvent, endShown, State.reg_setReg_same]

theorem patternEnded_res : (patternEnded n code exit s).reg .CL_SEQ_RES n =
    putFld (putFld (s.reg .CL_SEQ_RES n) 0 4 code) 8 8 exit := by
  rw [patternEnded_reg (by decide), endWritten, State.reg_setReg_same]

theorem patternEnded_done : (patternEnded n code exit s).rb .CL_SEQ_EVT n 0 = true := by
  rw [State.rb, patternEnded, State.reg_setSeq, State.reg_trigEvent, endShown, State.reg_setReg, if_neg (by simp),
    hopEnd_reg (by decide) (by decide), ← State.rb, seqEvt, State.rb_setRb_same _ _ _ _ _ (by omega)]

theorem patternEnded_tend : (patternEnded n code exit s).pair .CL_SEQ_TEND_LO .CL_SEQ_TEND_HI n =
    (s.seq n).lastEnd / 512 % 2 ^ 64 := by
  rw [← ofWords_lo_hi, State.pair, patternEnded_reg (by decide), patternEnded_reg (by decide)]
  simp [endWritten, State.setPair, State.reg_setReg]

theorem patternEnded_hop (h : streaming s n = true) : (patternEnded n code exit s).rb .CL_HOP_CTRL n 0 = false := by
  rw [State.rb, patternEnded, State.reg_setSeq, State.reg_trigEvent, endShown, State.reg_setReg, if_neg (by simp), ← State.rb]
  refine hopEnd_off ?_
  rw [← h, streaming, streaming, State.rb, seqEvt, State.reg_setRb, if_neg (by simp), endWritten_reg (by decide), ← State.rb]

theorem patternEnded_seq : (patternEnded n code exit s).seq n = endedSeq s.clasp (s.seq n) := State.seq_setSeq_same ..

theorem patternEnded_chan (c : Channel) : (patternEnded n code exit s).chan n c = s.chan n c := by
  have hhop : ∀ u : State, (hopEnd n u).chan n c = u.chan n c := fun u => by unfold hopEnd; split <;> rfl
  rw [patternEnded, State.chan_setSeq, State.chan_trigEvent, endShown, State.chan_setReg, hhop]
  rfl

theorem patternEnded_trig : ((patternEnded n code exit s).trig n).evts =
    (s.trig n).evts ++ [.patEnd ((s.seq n).lastEnd / 512)] := by
  have hhop : ∀ u : State, (hopEnd n u).trig n = u.trig n := fun u => by unfold hopEnd; split <;> rfl
  rw [patternEnded, State.trig_setSeq, State.trig_trigEvent, endShown, State.trig_setReg, hhop]
  rfl

theorem patternEnded_upd {K R : Nat} {C : Nat → Nat → Prop} {s0 : State} (h : Upd K R C s0 s) (hk : 0x1100 ||| K = K)
    (hr : regMask endRegs ||| R = R) (hc : ∃ c, C n.val c) : Upd K R C s0 (patternEnded n code exit s) := by
  have hbit : ∀ r ∈ endRegs, R.testBit r.ctorIdx = true := fun r hr' =>
    testBit_of_sub hr ((by decide +kernel : ∀ r ∈ endRegs, (regMask endRegs).testBit r.ctorIdx = true) r hr')
  have hwritten : Upd K R C s0 (endWritten n code exit ((s.seq n).lastEnd / 512) s) :=
    State.setReg_upd (State.setPair_upd h (hbit _ (by decide)) (RegOk.one rfl hc) (hbit _ (by decide)) (RegOk.one rfl hc))
      (hbit _ (by decide)) (RegOk.one rfl hc)
  have hshown : Upd K R C s0 (endShown n code exit ((s.seq n).lastEnd / 512) s) :=
    State.setReg_upd (hopEnd_upd (seqEvt_upd hwritten (sub_of (by decide +kernel) hr) hc) (sub_of (by decide +kernel) hr) hc)
      (hbit _ (by decide)) (RegOk.one rfl hc)
  exact State.setSeq_upd (State.trigEvent_upd hshown (sub_of rfl hk) hc) (sub_of rfl hk) hc

theorem patternEnd_holds (hending : (s.seq n).ending = some (code, exit))
    (htime : ((s.seq n).lastEnd + 176 * 512 - 1) / (80 * 512) ≤ (s.at t).clasp / 80) (hinfl : (s.seq n).infl = [])
    (hunwind : (s.seq n).unwind = false) (hcode : code < 16) (h10 : code ≠ 10) (h11 : code ≠ 11) :
    ∃ s', exec (.patternEnd t n) s = .next s' ∧ s'.reg .CL_SEQ_STAT n.val = 0#32 ∧ s'.rf .CL_SEQ_RES n.val 0 4 = code ∧
      s'.rf .CL_SEQ_RES n.val 8 8 = exit % 256 ∧ s'.rb .CL_SEQ_EVT n.val 0 = true ∧
      s'.pair .CL_SEQ_TEND_LO .CL_SEQ_TEND_HI n.val = (s.seq n).lastEnd / 512 % 2 ^ 64 ∧
      (s'.seq n).ending = none ∧ (s'.seq n).rtn = none ∧ (s'.trig n).evts = (s.trig n).evts ++ [.patEnd ((s.seq n).lastEnd / 512)] ∧
      (streaming s n = true → s'.rb .CL_HOP_CTRL n.val 0 = false) ∧
      Frame [.clasp, .seqs, .trigs] [.CL_SEQ_STAT, .CL_SEQ_RES, .CL_SEQ_TEND_LO, .CL_SEQ_TEND_HI, .CL_SEQ_EVT, .CL_HOP_CTRL, .CL_HOP_STAT]
        (atCluster n) s s' := by
  have hplain : unwindCode s n code = code := if_neg fun h => by rw [hunwind] at h; exact Bool.false_ne_true h.1
  have hexec := execPatternEnd_due hending htime hinfl
  rw [hunwind, if_neg Bool.false_ne_true, hplain, if_neg (not_or.2 ⟨h10, h11⟩)] at hexec
  have hupd : Upd 0x1101 (regMask endRegs) (atCluster n) s (patternEnded n code exit (s.at t)) :=
    patternEnded_upd (State.at_upd Upd.refl (by decide)) (by decide) (Nat.or_self _) ⟨0, rfl⟩
  refine ⟨_, hexec, patternEnded_stat, ?_, ?_, patternEnded_done, ?_, ?_, ?_, ?_, fun hstream => ?_,
    hupd.frame (by decide +kernel) (by decide +kernel)⟩
  · rw [State.rf, patternEnded_res, fld_putFld_ne _ _ _ _ _ _ (by omega) (by omega), fld_putFld_same _ _ _ _ (by omega)]
    exact Nat.mod_eq_of_lt hcode
  · rw [State.rf, patternEnded_res, fld_putFld_same _ _ _ _ (by omega)]; rfl
  · rw [patternEnded_tend, State.seq_at]
  · rw [patternEnded_seq]; rfl
  · rw [patternEnded_seq]; rfl
  · rw [patternEnded_trig, State.seq_at, State.trig_at]
  · exact patternEnded_hop ((State.rb_at ..).trans hstream)

end Sys2Proof.Machine
end

section
/-! ### The end of an unwind (R213) -/

namespace Sys2Proof.Machine

variable {s : State} {n : Cluster} {c : Channel} {mask : Word} {t code exit : Nat}

/-! The channels of a mask are forced safe. -/

/-- One channel's share of a mask forced safe. -/
theorem maskForced_upd (c : Channel) (s : State) : Upd 0x400000000000040 (regMask safeRegs) (atChannel n c) s
    (if bitOf mask c.val then forcedSafe n c s else s) :=
  Upd.ite (forcedSafe_upd Upd.refl (Nat.or_self _) (by decide +kernel) ⟨rfl, rfl⟩) Upd.refl

theorem forceMask_safeForced (h : bitOf mask c.val = true) : SafeForced n c s (forceMask n mask s) := by
  obtain ⟨u, hbefore, hafter⟩ := forChannels_turn (n := n)
    (f := fun n c s => if bitOf mask c.val then forcedSafe n c s else s) (fun c s => maskForced_upd c s) s c
  rw [if_pos h] at hafter
  refine forcedSafe_safeForced.congr (hbefore.reg_of_others rfl rfl).symm (hbefore.reg_of_others rfl rfl).symm
    (hafter.reg_of_others rfl rfl) (hafter.reg_of_others rfl rfl) ?_ hafter.chan_of_others
  rw [State.rb, State.rb]; exact congrArg (bitOf · 6) (hafter.reg_of_others rfl rfl)

theorem forceMask_chan_other (h : bitOf mask c.val = false) : (forceMask n mask s).chan n c = s.chan n c := by
  obtain ⟨u, hbefore, hafter⟩ := forChannels_turn (n := n)
    (f := fun n c s => if bitOf mask c.val then forcedSafe n c s else s) (fun c s => maskForced_upd c s) s c
  rw [h, if_neg Bool.false_ne_true] at hafter
  exact hafter.chan_of_others.trans hbefore.chan_of_others

theorem forceMask_changes : Upd 0x400000000000040 (regMask safeRegs) (fun _ _ => True) s (forceMask n mask s) :=
  forceMask_upd Upd.refl (Nat.or_self _) (by decide +kernel) fun _ => trivial

theorem forceMask_reg {r : Reg} {i : Nat} (h : r ∉ safeRegs) : (forceMask n mask s).reg r i = s.reg r i :=
  (forceMask_changes.frame (KL := [.chans, .free]) (by decide +kernel) (by decide +kernel)).1.regs r i h

/-! The context is given up. -/

/-- HELD, UNWIND and ABORT_PEND are 0, and OUTCOME says whether an unwind ran. -/
def contextGiven (n : Cluster) (ran : Bool) (s : State) : State :=
  s.setReg .CL_MR_STAT n (putFld (s.reg .CL_MR_STAT n &&& ~~~ 0x1021#32) 13 3 (if ran then 3 else 4))

/-- The code is ABORTED, or a refusal's. -/
def unwindCoded (n : Cluster) (s : State) : State :=
  if 10 ≤ s.rf .CL_SEQ_RES n 0 4 then s else s.setRf .CL_SEQ_RES n 0 4 2

theorem unwindCoded_reg {r : Reg} {i : Nat} (h : r ≠ .CL_SEQ_RES) : (unwindCoded n s).reg r i = s.reg r i := by
  unfold unwindCoded
  split
  · rfl
  · exact (State.reg_setRf ..).trans (if_neg fun e => h e.1)
theorem unwindCoded_seq : (unwindCoded n s).seq n = s.seq n := by unfold unwindCoded; split <;> rfl
theorem unwindCoded_chan : (unwindCoded n s).chan n c = s.chan n c := by unfold unwindCoded; split <;> rfl

section
variable {ran : Bool}

theorem finishUnwind_eq : finishUnwind n ran s =
    ((unwindCoded n (contextGiven n ran (forceMask n (s.reg .CL_MR_TOUCHED n) s))).setRb .CL_MR_EVT n 5 true).modSeq n
      fun q => { q with ctx := none, unwind := false, rtn := none } := rfl

theorem finishUnwind_chan (c : Channel) :
    (finishUnwind n ran s).chan n c = (forceMask n (s.reg .CL_MR_TOUCHED n) s).chan n c := by
  rw [finishUnwind_eq, State.modSeq, State.chan_setSeq, State.chan_setRb, unwindCoded_chan, contextGiven, State.chan_setReg]

/-- A register apart from CL_MR_STAT, CL_MR_EVT and the result is as forcing the touched channels safe leaves it. -/
theorem finishUnwind_reg {r : Reg} {i : Nat} (h : r ∉ [.CL_MR_STAT, .CL_MR_EVT, .CL_SEQ_RES]) :
    (finishUnwind n ran s).reg r i = (forceMask n (s.reg .CL_MR_TOUCHED n) s).reg r i := by
  simp only [List.mem_cons, List.not_mem_nil, or_false, not_or] at h
  obtain ⟨hstat, hevt, hres⟩ := h
  rw [finishUnwind_eq, State.reg_modSeq, State.reg_setRb, if_neg fun e => hevt e.1, unwindCoded_reg hres, contextGiven,
    State.reg_setReg, if_neg fun e => hstat e.1]

theorem finishUnwind_stat : (finishUnwind n ran s).reg .CL_MR_STAT n =
    putFld (s.reg .CL_MR_STAT n &&& ~~~ 0x1021#32) 13 3 (if ran then 3 else 4) := by
  rw [finishUnwind_eq, State.reg_modSeq, State.reg_setRb, if_neg (by simp), unwindCoded_reg (by decide), contextGiven,
    State.reg_setReg_same, forceMask_reg (by decide)]

theorem finishUnwind_evt : (finishUnwind n ran s).rb .CL_MR_EVT n 5 = true := State.rb_setRb_same _ _ _ _ _ (by omega)

theorem finishUnwind_seq : (finishUnwind n ran s).seq n = { s.seq n with ctx := none, unwind := false, rtn := none } := by
  have hforce : (forceMask n (s.reg .CL_MR_TOUCHED n) s).seq n = s.seq n := forceMask_changes.seq_eq (by decide)
  rw [finishUnwind_eq, State.seq_modSeq, State.setRb, State.seq_setReg, unwindCoded_seq, contextGiven, State.seq_setReg, hforce]

theorem finishUnwind_safeForced (h : bitOf (s.reg .CL_MR_TOUCHED n) c.val = true) :
    SafeForced n c s (finishUnwind n ran s) := by
  have hevt : (finishUnwind n ran s).rb .CH_EVT (chIx n c) 6 =
      (forceMask n (s.reg .CL_MR_TOUCHED n) s).rb .CH_EVT (chIx n c) 6 :=
    congrArg (bitOf · 6) (finishUnwind_reg (by decide))
  exact (forceMask_safeForced h).congr rfl rfl (finishUnwind_reg (by decide)) (finishUnwind_reg (by decide)) hevt
    (finishUnwind_chan c)

end

/-- HELD is 0 and OUTCOME is UNWOUND. -/
theorem finishUnwind_outcome :
    (finishUnwind n true s).rb .CL_MR_STAT n 0 = false ∧ (finishUnwind n true s).rf .CL_MR_STAT n 13 3 = 3 := by
  rw [State.rb, State.rf, finishUnwind_stat, fld_putFld_same _ _ _ _ (by omega), bitOf_putFld _ _ _ _ _ (by omega),
    if_neg (by omega), bitOf_and]
  exact ⟨by simp [bitOf], rfl⟩

theorem patternEnd_unwind (hending : (s.seq n).ending = some (code, exit))
    (htime : ((s.seq n).lastEnd + 176 * 512 - 1) / (80 * 512) ≤ (s.at t).clasp / 80) (hinfl : (s.seq n).infl = [])
    (hunwind : (s.seq n).unwind = true) :
    ∃ s', exec (.patternEnd t n) s = .next s' ∧ s'.reg .CL_SEQ_STAT n.val = 0#32 ∧ s'.rb .CL_SEQ_EVT n.val 0 = true ∧
      (∀ c : Channel, bitOf (s.reg .CL_MR_TOUCHED n.val) c.val = true → SafeForced n c s s') ∧
      (∀ c : Channel, bitOf (s.reg .CL_MR_TOUCHED n.val) c.val = false → s'.chan n c = s.chan n c) ∧
      s'.rb .CL_MR_STAT n.val 0 = false ∧ s'.rf .CL_MR_STAT n.val 13 3 = 3 ∧ s'.rb .CL_MR_EVT n.val 5 = true ∧
      (s'.seq n).ctx = none ∧ (s'.seq n).unwind = false ∧
      Frame [.clasp, .chans, .seqs, .trigs, .free]
        (.CL_SEQ_STAT :: .CL_SEQ_RES :: .CL_SEQ_TEND_LO :: .CL_SEQ_TEND_HI :: .CL_SEQ_EVT :: .CL_HOP_CTRL :: .CL_HOP_STAT ::
          .CL_MR_STAT :: .CL_MR_EVT :: safeRegs) (atCluster n) s s' := by
  have hexec := execPatternEnd_due hending htime hinfl
  rw [hunwind, if_pos rfl] at hexec
  generalize unwindCode s n code = code' at hexec
  have hended : ∀ {r i}, r ∉ endRegs → (patternEnded n code' exit (s.at t)).reg r i = s.reg r i := fun {r i} hr => by
    simp only [endRegs, List.mem_cons, List.not_mem_nil, or_false, not_or] at hr
    obtain ⟨hstat, hres, hlo, hhi, hevt, hctrl, hhop⟩ := hr
    rw [patternEnded_reg (by simp [hstat, hevt, hctrl, hhop]), endWritten_reg (by simp [hlo, hhi, hres]), State.reg_at]
  have htouched : (patternEnded n code' exit (s.at t)).reg .CL_MR_TOUCHED n = s.reg .CL_MR_TOUCHED n := hended (by decide)
  have hupd : Upd 0x400000000001141 (regMask (endRegs ++ [.CL_MR_STAT, .CL_MR_EVT] ++ safeRegs)) (atCluster n) s
      (finishUnwind n true (patternEnded n code' exit (s.at t))) :=
    finishUnwind_upd (patternEnded_upd (State.at_upd Upd.refl (by decide)) (by decide) (by decide +kernel) ⟨0, rfl⟩) (by decide)
      (by decide +kernel) fun _ => rfl
  refine ⟨_, hexec, ?_, ?_, fun c htouch => ?_, fun c huntouched => ?_, finishUnwind_outcome.1, finishUnwind_outcome.2,
    finishUnwind_evt, by rw [finishUnwind_seq], by rw [finishUnwind_seq], hupd.frame (by decide +kernel) (by decide +kernel)⟩
  · rw [finishUnwind_reg (by decide), forceMask_reg (by decide), patternEnded_stat]
  · rw [State.rb, finishUnwind_reg (by decide), forceMask_reg (by decide), ← State.rb, patternEnded_done]
  · exact (finishUnwind_safeForced (by rwa [htouched])).told_from (hended (by decide)).symm (hended (by decide)).symm
  · rw [finishUnwind_chan, htouched, forceMask_chan_other huntouched, patternEnded_chan, State.chan_at]

/-- Settles O28: a pattern's end is `patternEnded`, which an unwind's end follows with `finishUnwind`. -/
theorem patternsEnd : Obligations.PatternsEnd := by
  unfold Obligations.PatternsEnd
  exact ⟨fun _ _ _ _ _ hending htime hinfl hunwind hcode h10 h11 =>
      patternEnd_holds hending htime hinfl hunwind hcode h10 h11,
    fun _ _ _ _ _ hending htime hinfl hunwind => patternEnd_unwind hending htime hinfl hunwind⟩

end Sys2Proof.Machine
end

section
/-! ### The Hopper's commands (R186, R194) -/

namespace Sys2Proof.Machine

variable {s : State} {n : Cluster} {t : Nat} {d : Word}

@[simp] theorem ungate_hop (k : Nat) : (ungate k s).hop n = s.hop n := by unfold ungate; split <;> rfl

theorem Upd.hop_eq {K R : Nat} {C : Nat → Nat → Prop} {s' : State} (h : Upd K R C s s')
    (hk : K.testBit (Part.ctorIdx .hops) = false) : s'.hop n = s.hop n := by
  have hp := h.parts .hops hk
  simp only [Part.same] at hp
  unfold State.hop; rw [hp]

/-- An accepted command that writes CL_HOP_CTRL does what its chapter says, and ends the cluster's gating (R428). -/
theorem cmdWrite_hopCtrl {q : Req} {set : Word} (h : Accepted q .CL_HOP_CTRL n.val (d ||| set) s) :
    cmdWrite q .CL_HOP_CTRL n.val d set s = ungate n.val (hopCtrlWrite n (d ||| set) 0xFFFFFFFF#32 s) := by
  have hsize : n.val < Reg.CL_HOP_CTRL.size := n.isLt
  obtain ⟨s', hput, hwrite⟩ := cmdWrite_cluster (by decide) rfl hsize (Nat.div_one _) h
  cases hput
  exact hwrite

/-- The word that the command stores in CL_HOP_CTRL. -/
def hopCtrlStored (n : Cluster) (d : Word) (s : State) : State := plainWrite .CL_HOP_CTRL n d 0xFFFFFFFF#32 s

theorem hopCtrlStored_reg {r : Reg} {i : Nat} (h : r ≠ .CL_HOP_CTRL) : (hopCtrlStored n d s).reg r i = s.reg r i :=
  (plainWrite_reg ..).trans (if_neg fun e => h e.1)

/-- EN is as written. -/
theorem hopCtrlStored_en : (hopCtrlStored n d s).rb .CL_HOP_CTRL n 0 = bitOf d 0 := by
  rw [hopCtrlStored, State.rb, plainWrite_same, bitOf_plainWord _ _ _ _ _ (by omega)]
  simp [bitOf, Reg.rwOf, Reg.row]

theorem hopCtrlStored_upd {K R : Nat} {C : Nat → Nat → Prop} {s0 : State} (h : Upd K R C s0 s)
    (hr : R.testBit (Reg.ctorIdx .CL_HOP_CTRL) = true) (hc : ∃ c, C n.val c) : Upd K R C s0 (hopCtrlStored n d s) :=
  plainWrite_upd h hr (RegOk.one rfl hc)

theorem hopCtrlWrite_enable (h : bitOf d 1 = false) : hopCtrlWrite n d 0xFFFFFFFF#32 s = hopCtrlStored n d s := by
  unfold hopCtrlWrite
  dsimp only
  rw [ones_full, h, Bool.false_and, if_neg Bool.false_ne_true]
  rfl

/-- The ring is taken as consumed, FINAL reads 0, and the halves are empty (R194). -/
def hopFlushed (n : Cluster) (d : Word) (s : State) : State :=
  (((hopCtrlStored n d s).setReg .CL_HOP_HEAD n (s.reg .CL_HOP_TAIL n)).setRb .CL_HOP_STAT n 18 false).setHop n
    { seenAt := s.clasp }

theorem hopCtrlWrite_flush (h : bitOf d 1 = true) (hidle : idleNow s n = true) :
    hopCtrlWrite n d 0xFFFFFFFF#32 s = hopFlushed n d s := by
  have hidle' : idleNow (hopCtrlStored n d s) n = true := by
    rw [← hidle]; unfold idleNow; rw [seqIdle_congr (hopCtrlStored_reg (by decide))]; rfl
  unfold hopCtrlWrite
  dsimp only
  rw [← hopCtrlStored, ones_full, h, hidle', hopCtrlStored_reg (by decide)]
  rfl

theorem hopperEnable_holds {r : Req} (hacc : Accepted r .CL_HOP_CTRL n.val d (s.at t)) (h1 : bitOf d 1 = false) :
    ∃ s', exec (.hopperEnable t r n d) s = .next s' ∧ s'.rb .CL_HOP_CTRL n.val 0 = bitOf d 0 ∧
      Frame [.clasp] [.CL_HOP_CTRL, .PWR_CLU_GATE] (atCluster n) s s' := by
  have hor : d ||| 0#32 = d := BitVec.or_zero
  have hwrite : cmdWrite r .CL_HOP_CTRL n.val d 0#32 (s.at t) = ungate n.val (hopCtrlStored n d (s.at t)) := by
    rw [cmdWrite_hopCtrl (by rwa [hor]), hor, hopCtrlWrite_enable h1]
  have hupd := cmdWrite_frame (n := n) (hopCtrlStored_upd (n := n) (d := d) (K := 0) (R := regMask [.CL_HOP_CTRL])
    (C := atCluster n) (Upd.refl (s := s.at t)) (by decide +kernel) ⟨0, rfl⟩)
  exact ⟨_, congrArg Host.Outcome.next hwrite, (ungate_rb (by decide)).trans hopCtrlStored_en,
    hupd.frame (by decide +kernel) (by decide +kernel)⟩

theorem hopperFlush_holds {r : Req} (hacc : Accepted r .CL_HOP_CTRL n.val (d ||| 2#32) (s.at t))
    (hidle : idleNow (s.at t) n = true) :
    ∃ s', exec (.hopperFlush t r n d) s = .next s' ∧ s'.reg .CL_HOP_HEAD n.val = s.reg .CL_HOP_TAIL n.val ∧
      s'.rb .CL_HOP_STAT n.val 18 = false ∧ (s'.hop n).load = none ∧ (s'.hop n).fill0 = 0 ∧ (s'.hop n).fill1 = 0 ∧
      (s'.hop n).closed0 = false ∧ (s'.hop n).closed1 = false ∧
      Frame [.clasp, .hops] [.CL_HOP_CTRL, .CL_HOP_HEAD, .CL_HOP_STAT, .PWR_CLU_GATE] (atCluster n) s s' := by
  have hbit : bitOf (d ||| 2#32) 1 = true := by rw [bitOf_or]; simp [bitOf]
  have hwrite : cmdWrite r .CL_HOP_CTRL n.val d 2#32 (s.at t) = ungate n.val (hopFlushed n (d ||| 2#32) (s.at t)) := by
    rw [cmdWrite_hopCtrl hacc, hopCtrlWrite_flush hbit hidle]
  have hupd : Upd 0x200 (regMask [.CL_HOP_CTRL, .CL_HOP_HEAD, .CL_HOP_STAT]) (atCluster n) (s.at t)
      (hopFlushed n (d ||| 2#32) (s.at t)) :=
    State.setHop_upd (State.setRb_upd (State.setReg_upd (hopCtrlStored_upd Upd.refl (by decide +kernel) ⟨0, rfl⟩)
      (by decide +kernel) (RegOk.one rfl ⟨0, rfl⟩)) (by decide +kernel) (RegOk.one rfl ⟨0, rfl⟩)) (Nat.or_self _) ⟨0, rfl⟩
  have hhop : (ungate n.val (hopFlushed n (d ||| 2#32) (s.at t))).hop n = { seenAt := (s.at t).clasp } := by
    rw [ungate_hop, hopFlushed, State.hop_setHop_same]
  refine ⟨_, congrArg Host.Outcome.next hwrite, ?_, ?_, by rw [hhop], by rw [hhop], by rw [hhop], by rw [hhop],
    by rw [hhop], (cmdWrite_frame hupd).frame (by decide +kernel) (by decide +kernel)⟩
  · rw [ungate_reg (by decide), hopFlushed, State.reg_setHop, State.reg_setRb, if_neg (by simp), State.reg_setReg_same,
      State.reg_at]
  · rw [ungate_rb (by decide), hopFlushed, State.rb, State.reg_setHop, ← State.rb, State.rb_setRb_same _ _ _ _ _ (by omega)]

end Sys2Proof.Machine
end

section
/-! ### Descriptors (R186 to R188, R193) -/

namespace Sys2Proof.Machine

variable {s : State} {n : Cluster} {t : Nat} {l : Load}

theorem hopRuns_at : hopRuns (s.at t) n = hopRuns s n := by
  unfold hopRuns; rw [State.rb_at, seqIdle_congr (State.reg_at ..), streaming, State.rb_at]; rfl

/-! The half that the Hopper fills (R188). -/

/-- The half being filled: the first is that of CL_SEQ_ADDR. -/
def hopHalf (s : State) (n : Cluster) : Nat := if (s.hop n).chosen then (s.hop n).half else s.rf .CL_SEQ_ADDR n 15 1

theorem hopEnter_ready {h : Hop} (hwait : h.waitHalf = false) (active : Nat) : hopEnter h active = h :=
  if_neg fun e => Bool.false_ne_true (hwait.symm.trans e.1)

theorem Hop.with_half_chosen {h : Hop} (hchosen : h.chosen = true) : { h with chosen := true, half := h.half } = h := by
  cases h; cases hchosen; rfl

/-- A Hopper that does not wait for the other half is at the half it fills. -/
theorem hopSettle_ready (h : (s.hop n).waitHalf = false) :
    hopSettle n s = s.setHop n { s.hop n with chosen := true, half := hopHalf s n } := by
  unfold hopSettle hopHalf
  dsimp only
  by_cases hchosen : (s.hop n).chosen = true
  · rw [if_pos hchosen, if_pos hchosen, hopEnter_ready h, Hop.with_half_chosen hchosen]
  · rw [if_neg hchosen, if_neg hchosen, hopEnter_ready]
    exact h

theorem hopSettle_reg (r : Reg) (i : Nat) : (hopSettle n s).reg r i = s.reg r i := State.reg_setHop ..

theorem hopEnter_load (h : Hop) (active : Nat) : (hopEnter h active).load = h.load := by
  unfold hopEnter
  split
  · split <;> rfl
  · rfl

theorem hopSettle_load : ((hopSettle n s).hop n).load = (s.hop n).load := by
  unfold hopSettle
  rw [State.hop_setHop_same, hopEnter_load]
  split <;> rfl

/-! The ring. -/

/-- The descriptors in the ring that the Hopper has not taken, the ring's size, and where the next one lies (R186). -/
def ringMore (s : State) (n : Cluster) : Nat := (s.rf .CL_HOP_TAIL n 0 16 + 65536 - s.rf .CL_HOP_HEAD n 0 16) % 65536
def ringSize (s : State) (n : Cluster) : Nat := max 1 (s.rf .CL_HOP_RSIZE n 0 13)
def ringAddr (s : State) (n : Cluster) : Nat :=
  s.rf .CL_HOP_RING n 4 22 * 16 + s.rf .CL_HOP_HEAD n 0 16 % ringSize s n * 16

/-- A Hopper that may work takes the descriptor at HEAD when its stream is served (R187). -/
theorem execHopperDescriptor_takes (hruns : hopRuns s n = true) (hload : (s.hop n).load = none)
    (hwait : (s.hop n).waitHalf = false) (hmore : 0 < ringMore s n) (hsize : ringMore s n ≤ ringSize s n)
    (hserved : streamServed s n 0 false (ringAddr s n) 16 = true)
    (hadmits : memAdmits s (.cluster n 0) false (ringAddr s n) 16 = true) :
    execHopperDescriptor t n s = .next (takeDesc n (s.bytes (ringAddr s n) 16) (hopSettle n (s.at t))) := by
  have hready : (s.at t).hop n = s.hop n := State.hop_at ..
  have hsettled : ((hopSettle n (s.at t)).hop n).waitHalf = false := by
    rw [hopSettle_ready (by rw [hready, hwait]), State.hop_setHop_same, hready, hwait]
  have hserved' : streamServed (hopSettle n (s.at t)) n 0 false (ringAddr s n) 16 = true := by
    rw [← hserved, State.at_eq]; rfl
  have hadmits' : memAdmits (hopSettle n (s.at t)) (.cluster n 0) false (ringAddr s n) 16 = true := by
    rw [← hadmits, State.at_eq]; rfl
  have hbytes : (hopSettle n (s.at t)).bytes (ringAddr s n) 16 = s.bytes (ringAddr s n) 16 := by rw [State.at_eq]; rfl
  unfold execHopperDescriptor
  dsimp only
  rw [hopRuns_at, hready, if_pos ⟨hruns, hload⟩, hsettled, if_neg Bool.false_ne_true]
  simp only [State.rf_at]
  rw [← ringMore, ← ringSize, ← ringAddr, if_neg (by omega), if_neg (by omega), hserved', hadmits', hbytes]
  rfl

/-! What is made of a descriptor. -/

section
variable {bytes : List Byte}

theorem takeDesc_bad (h : loadBad (descLoad bytes) ((s.hop n).fillOf (s.hop n).half) = true) :
    takeDesc n bytes s = descError n s := if_pos h

theorem takeDesc_load (h : loadBad (descLoad bytes) ((s.hop n).fillOf (s.hop n).half) = false)
    (hover : loadOver (descLoad bytes) = false) :
    takeDesc n bytes s = s.setHop n { s.hop n with load := some (descLoad bytes) } := by
  unfold takeDesc
  dsimp only
  rw [h, if_neg Bool.false_ne_true, hover, if_neg Bool.false_ne_true]

end

theorem descError_hop : (descError n s).hop n = { s.hop n with load := none, err := true } := by
  unfold descError State.setRb
  rw [State.hop_setReg, State.hop_setReg, State.hop_setHop_same]

theorem descError_flags : (descError n s).rb .CL_HOP_CTRL n 0 = false ∧ (descError n s).rb .CL_HOP_EVT n 0 = true := by
  refine ⟨?_, State.rb_setRb_same _ _ _ _ _ (by omega)⟩
  rw [descError, State.rb_setRb _ _ _ _ _ _ _ _ (by omega), if_neg (by simp), State.rb_setRb_same _ _ _ _ _ (by omega)]

theorem hopperDescriptor_holds (hruns : hopRuns s n = true) (hload : (s.hop n).load = none)
    (hwait : (s.hop n).waitHalf = false) (hmore : 0 < ringMore s n) (hsize : ringMore s n ≤ ringSize s n)
    (hserved : streamServed s n 0 false (ringAddr s n) 16 = true)
    (hadmits : memAdmits s (.cluster n 0) false (ringAddr s n) 16 = true) :
    let l := descLoad (s.bytes (ringAddr s n) 16)
    ∃ s', exec (.hopperDescriptor t n) s = .next s' ∧
      (loadBad l ((s.hop n).fillOf (hopHalf s n)) = true → (s'.hop n).load = none ∧ (s'.hop n).err = true ∧
        (s'.hop n).half = hopHalf s n ∧ s'.rb .CL_HOP_CTRL n.val 0 = false ∧ s'.rb .CL_HOP_EVT n.val 0 = true) ∧
      (loadBad l ((s.hop n).fillOf (hopHalf s n)) = false → loadOver l = false → (s'.hop n).load = some l ∧
        (s'.hop n).half = hopHalf s n ∧ (s'.hop n).err = (s.hop n).err ∧
        Frame [.clasp, .hops] [] (atCluster n) s s') ∧
      Frame [.clasp, .hops] [.CL_HOP_CTRL, .CL_HOP_HEAD, .CL_HOP_STAT, .CL_HOP_EVT] (atCluster n) s s' := by
  intro l
  have hhop : (hopSettle n (s.at t)).hop n = { s.hop n with chosen := true, half := hopHalf s n } := by
    rw [hopSettle_ready (by rwa [State.hop_at]), State.hop_setHop_same, hopHalf, State.hop_at, State.rf_at, ← hopHalf]
  have hfill : ((hopSettle n (s.at t)).hop n).fillOf ((hopSettle n (s.at t)).hop n).half =
      (s.hop n).fillOf (hopHalf s n) := by rw [hhop]; rfl
  have hsettled : ∀ R, Upd 0x201 R (atCluster n) s (hopSettle n (s.at t)) := fun R =>
    hopSettle_upd (State.at_upd Upd.refl (by decide)) (by decide) ⟨0, rfl⟩
  have hupd : Upd 0x201 (regMask [.CL_HOP_CTRL, .CL_HOP_HEAD, .CL_HOP_STAT, .CL_HOP_EVT]) (atCluster n) s
      (takeDesc n (s.bytes (ringAddr s n) 16) (hopSettle n (s.at t))) :=
    takeDesc_upd (hsettled _) (by decide) (by decide +kernel) ⟨0, rfl⟩
  refine ⟨_, execHopperDescriptor_takes hruns hload hwait hmore hsize hserved hadmits, fun hbad => ?_, fun hgood hover => ?_,
    hupd.frame (by decide +kernel) (by decide +kernel)⟩
  · rw [takeDesc_bad (by rw [hfill]; exact hbad), descError_hop, hhop]
    exact ⟨rfl, rfl, rfl, descError_flags⟩
  · rw [takeDesc_load (by rw [hfill]; exact hgood) hover, State.hop_setHop_same, hhop]
    exact ⟨rfl, rfl, rfl, (State.setHop_upd (hsettled 0) (by decide) ⟨0, rfl⟩).frame (by decide +kernel) (by decide +kernel)⟩

end Sys2Proof.Machine
end

section
/-! ### Chunks of a load (R188, R193) -/

namespace Sys2Proof.Machine

variable {s : State} {n : Cluster} {t : Nat} {l : Load}

/-! What a chunk copies. -/

theorem State.nanoAt_setNanoAt_same (i : Nat) (v : NWord) : (s.setNanoAt n i v).nanoAt n i = v := tabGet_tabSet_same ..

theorem State.microAt_mod (b : Nat) : s.microAt n (b % 65536) = s.microAt n b := by
  unfold State.microAt; rw [Nat.mod_mod]

section
variable {nostall : Bool} {a p k b : Nat}

theorem fillMicro_microAt_out (h : ∀ i < k, (p + i) % 65536 ≠ b % 65536) :
    (fillMicro n nostall a p k s).microAt n b = s.microAt n b := by
  induction k generalizing a p s with
  | zero => rfl
  | succ k ih =>
    rw [fillMicro, ih fun i hi => by have := h (i + 1) (by omega); rwa [show p + 1 + i = p + (i + 1) by omega],
      ← State.microAt_mod, State.microAt_setMicroAt (Nat.mod_lt _ (by omega)) (Nat.mod_lt _ (by omega)),
      if_neg fun e => h 0 (by omega) e.symm, State.microAt_mod]

/-- Microwords copied from a on stand from position p on, around the store's end. -/
theorem fillMicro_microAt {j : Nat} (hj : j < k) (hk : k ≤ 65536) : (fillMicro n nostall a p k s).microAt n (p + j) =
    { w := BitVec.ofNat 32 (s.mem32 (a + 4 * j)), bad := 0#2, nostall := nostall } := by
  induction k generalizing a p s j with
  | zero => omega
  | succ k ih =>
    rw [fillMicro]
    cases j with
    | zero =>
      have hlt : p % 65536 < 65536 := Nat.mod_lt _ (by omega)
      rw [fillMicro_microAt_out fun i hi => by omega, ← State.microAt_mod, Nat.add_zero,
        State.microAt_setMicroAt hlt hlt, if_pos rfl]
      rfl
    | succ j =>
      have hstep := ih (a := a + 4) (p := p + 1)
        (s := s.setMicroAt n (p % 65536) { w := BitVec.ofNat 32 (s.mem32 a), bad := 0#2, nostall := nostall })
        (j := j) (by omega) (by omega)
      rw [show p + (j + 1) = p + 1 + j by omega, hstep, show a + 4 * (j + 1) = a + 4 + 4 * j by omega]
      rfl

theorem fillMicro_hop : (fillMicro n nostall a p k s).hop n = s.hop n :=
  Upd.hop_eq (fillMicro_upd (K := 4) (R := 0) (C := atCluster n) Upd.refl (Nat.or_self _) ⟨0, rfl⟩) (by decide)

end

/-- The microwords of a load's next chunk. -/
def chunkLen (l : Load) : Nat := min 8 (l.mcnt - l.mdone)

/-- k microwords more in the half being filled. -/
def hopFilled (k : Nat) (h : Hop) : Hop :=
  if h.half = 0 then { h with fill0 := h.fillOf h.half + k } else { h with fill1 := h.fillOf h.half + k }

theorem hopFilled_fills (k : Nat) (h : Hop) : if h.half = 0 then
    (hopFilled k h).fill0 = h.fillOf h.half + k ∧ (hopFilled k h).fill1 = h.fill1 else
    (hopFilled k h).fill1 = h.fillOf h.half + k ∧ (hopFilled k h).fill0 = h.fill0 := by
  unfold hopFilled
  split <;> exact ⟨rfl, rfl⟩

/-- k microwords of the load in hand are copied into the half being filled. -/
def microCopied (n : Cluster) (l : Load) (k : Nat) (s : State) : State :=
  (fillMicro n l.nostall (l.maddr + 4 * l.mdone) (32768 * (s.hop n).half + (s.hop n).fillOf (s.hop n).half) k s).setHop n
    (hopChanged s n { hopFilled k (s.hop n) with load := some { l with mdone := l.mdone + k } })

/-- A nano-word of the load in hand is copied, and the load has more to copy. -/
def nanoCopied (n : Cluster) (l : Load) (s : State) : State :=
  (fillNano n (256 * pageOf l.pages (l.ndone / 256) + l.ndone % 256) (l.naddr + 32 * l.ndone) s).setHop n
    { s.hop n with load := some { l with ndone := l.ndone + 1 } }

theorem microCopied_hop (k : Nat) : (microCopied n l k s).hop n =
    hopChanged s n { hopFilled k (s.hop n) with load := some { l with mdone := l.mdone + k } } := State.hop_setHop_same ..

theorem microCopied_microAt {k j : Nat} (hj : j < k) (hk : k ≤ 8) :
    (microCopied n l k s).microAt n (32768 * (s.hop n).half + (s.hop n).fillOf (s.hop n).half + j) =
      { w := BitVec.ofNat 32 (s.mem32 (l.maddr + 4 * l.mdone + 4 * j)), bad := 0#2, nostall := l.nostall } :=
  fillMicro_microAt hj (by omega)

theorem microCopied_upd {K R : Nat} {C : Nat → Nat → Prop} {s0 : State} {k : Nat} (h : Upd K R C s0 s) (hk : 0x204 ||| K = K)
    (hc : ∃ c, C n.val c) : Upd K R C s0 (microCopied n l k s) :=
  State.setHop_upd (fillMicro_upd h (sub_of rfl hk) hc) (sub_of rfl hk) hc

theorem microCopied_reg {k : Nat} (r : Reg) (i : Nat) : (microCopied n l k s).reg r i = s.reg r i :=
  (microCopied_upd (R := 0) (C := atCluster n) (Upd.refl (s := s)) (Nat.or_self _) ⟨0, rfl⟩).reg r i (Nat.zero_testBit _)

/-! The command: pages come first. -/

theorem execHopperChunk_micro (hload : (s.hop n).load = some l) (hruns : hopRuns s n = true)
    (hpages : 256 * pageCount l.pages ≤ l.ndone)
    (hserved : streamServed s n 0 false (l.maddr + 4 * l.mdone) (4 * chunkLen l) = true)
    (hadmits : memAdmits s (.cluster n 0) false (l.maddr + 4 * l.mdone) (4 * chunkLen l) = true) :
    execHopperChunk t n s = .next (
      if loadOver { l with mdone := l.mdone + chunkLen l } then loadDone n (microCopied n l (chunkLen l) (s.at t))
      else microCopied n l (chunkLen l) (s.at t)) := by
  have hserved' : streamServed (s.at t) n 0 false (l.maddr + 4 * l.mdone) (4 * chunkLen l) = true := by
    rw [← hserved, State.at_eq]; rfl
  have hadmits' : memAdmits (s.at t) (.cluster n 0) false (l.maddr + 4 * l.mdone) (4 * chunkLen l) = true := by
    rw [← hadmits, State.at_eq]; rfl
  have hload' : ((s.at t).hop n).load = some l := by rwa [State.hop_at]
  unfold execHopperChunk
  dsimp only
  rw [hload']
  dsimp only
  rw [hopRuns_at, hruns, decide_eq_false (Nat.not_lt.2 hpages), ← chunkLen]
  unfold microCopied hopFilled
  by_cases hhalf : ((s.at t).hop n).half = 0 <;>
    simp only [hhalf, Bool.not_true, Bool.false_eq_true, if_false, if_true, hserved', hadmits', Bool.false_and]

theorem execHopperChunk_nano (hload : (s.hop n).load = some l) (hruns : hopRuns s n = true)
    (hpages : l.ndone < 256 * pageCount l.pages) (hmore : loadOver { l with ndone := l.ndone + 1 } = false)
    (hserved : streamServed s n 0 false (l.naddr + 32 * l.ndone) 32 = true)
    (hadmits : memAdmits s (.cluster n 0) false (l.naddr + 32 * l.ndone) 32 = true) :
    execHopperChunk t n s = .next (nanoCopied n l (s.at t)) := by
  have hserved' : streamServed (s.at t) n 0 false (l.naddr + 32 * l.ndone) 32 = true := by
    rw [← hserved, State.at_eq]; rfl
  have hadmits' : memAdmits (s.at t) (.cluster n 0) false (l.naddr + 32 * l.ndone) 32 = true := by
    rw [← hadmits, State.at_eq]; rfl
  have hload' : ((s.at t).hop n).load = some l := by rwa [State.hop_at]
  unfold execHopperChunk
  dsimp only
  rw [hload']
  dsimp only
  rw [hopRuns_at, hruns, decide_eq_true hpages]
  simp only [Bool.not_true, Bool.false_eq_true, if_false, if_true, hserved', hadmits', hmore]
  rfl

theorem hopperChunk_micro (hload : (s.hop n).load = some l) (hruns : hopRuns s n = true)
    (hpages : 256 * pageCount l.pages ≤ l.ndone) (hmore : l.mdone + 8 < l.mcnt)
    (hserved : streamServed s n 0 false (l.maddr + 4 * l.mdone) (4 * chunkLen l) = true)
    (hadmits : memAdmits s (.cluster n 0) false (l.maddr + 4 * l.mdone) (4 * chunkLen l) = true) :
    let fill := (s.hop n).fillOf (s.hop n).half
    ∃ s', exec (.hopperChunk t n) s = .next s' ∧
      (∀ j : Nat, j < 8 → s'.microAt n (32768 * (s.hop n).half + fill + j) =
        { w := BitVec.ofNat 32 (s.mem32 (l.maddr + 4 * l.mdone + 4 * j)), bad := 0#2, nostall := l.nostall }) ∧
      (s'.hop n).load = some { l with mdone := l.mdone + 8 } ∧
      (if (s.hop n).half = 0 then (s'.hop n).fill0 = fill + 8 ∧ (s'.hop n).fill1 = (s.hop n).fill1
        else (s'.hop n).fill1 = fill + 8 ∧ (s'.hop n).fill0 = (s.hop n).fill0) ∧
      Frame [.clasp, .micro, .hops] [] (atCluster n) s s' := by
  have hlen : chunkLen l = 8 := by unfold chunkLen; omega
  have hover : loadOver { l with mdone := l.mdone + 8 } = false := by
    unfold loadOver; rw [decide_eq_false (Nat.not_le.2 hmore), Bool.false_and]
  have hexec := execHopperChunk_micro (t := t) hload hruns hpages hserved hadmits
  rw [hlen, hover, if_neg Bool.false_ne_true] at hexec
  have hupd : Upd 0x205 0 (atCluster n) s (microCopied n l 8 (s.at t)) :=
    microCopied_upd (State.at_upd Upd.refl (by decide)) (by decide) ⟨0, rfl⟩
  refine ⟨_, hexec, fun j hj => ?_, ?_, ?_, hupd.frame (by decide +kernel) (by decide +kernel)⟩
  · have hmem : ∀ a, (s.at t).mem32 a = s.mem32 a := fun a => by rw [State.at_eq]; rfl
    rw [← hmem, ← microCopied_microAt (s := s.at t) (n := n) (l := l) hj (Nat.le_refl _), State.hop_at]
  · rw [microCopied_hop]; rfl
  · rw [microCopied_hop, State.hop_at]
    exact hopFilled_fills 8 (s.hop n)

theorem hopperChunk_nano (hload : (s.hop n).load = some l) (hruns : hopRuns s n = true)
    (hpages : l.ndone < 256 * pageCount l.pages) (hmore : loadOver { l with ndone := l.ndone + 1 } = false)
    (hserved : streamServed s n 0 false (l.naddr + 32 * l.ndone) 32 = true)
    (hadmits : memAdmits s (.cluster n 0) false (l.naddr + 32 * l.ndone) 32 = true) :
    ∃ s', exec (.hopperChunk t n) s = .next s' ∧
      s'.nanoAt n (256 * pageOf l.pages (l.ndone / 256) + l.ndone % 256) =
        { w := BitVec.ofNat 256 (leNat (s.bytes (l.naddr + 32 * l.ndone) 32)), bad := 0#8 } ∧
      s'.hop n = { s.hop n with load := some { l with ndone := l.ndone + 1 } } ∧
      Frame [.clasp, .nano, .hops] [] (atCluster n) s s' := by
  have hupd : Upd 0x209 0 (atCluster n) s (nanoCopied n l (s.at t)) :=
    State.setHop_upd (fillNano_upd (State.at_upd Upd.refl (by decide)) (by decide) ⟨0, rfl⟩) (by decide) ⟨0, rfl⟩
  refine ⟨_, execHopperChunk_nano hload hruns hpages hmore hserved hadmits, ?_, ?_,
    hupd.frame (by decide +kernel) (by decide +kernel)⟩
  · have hbytes : (s.at t).bytes (l.naddr + 32 * l.ndone) 32 = s.bytes (l.naddr + 32 * l.ndone) 32 := by
      rw [State.at_eq]; rfl
    rw [nanoCopied, State.nanoAt_setHop, fillNano, hbytes, State.nanoAt_setNanoAt_same]
  · rw [nanoCopied, State.hop_setHop_same, State.hop_at]

/-! A load that is complete (R186, R188, R190). -/

/-- The Hopper's record h once its load l is complete: a half that l closes is left. -/
def hopUnloaded (l : Load) (h : Hop) : Hop :=
  if l.close then
    (if h.half = 0 then { h with load := none, closed0 := true, waitHalf := true }
      else { h with load := none, closed1 := true, waitHalf := true })
  else { h with load := none }

theorem hopUnloaded_load (h : Hop) : (hopUnloaded l h).load = none := by
  unfold hopUnloaded
  split
  · split <;> rfl
  · rfl

/-- HEAD advances, and a LAST load sets FINAL. -/
def headAdvanced (n : Cluster) (l : Load) (s : State) : State :=
  let s1 := (s.setHop n (hopUnloaded l (s.hop n))).setRf .CL_HOP_HEAD n 0 16 (s.rf .CL_HOP_HEAD n 0 16 + 1)
  if l.last then s1.setRb .CL_HOP_STAT n 18 true else s1

theorem loadDone_eq (h : (s.hop n).load = some l) : loadDone n s = hopSettle n (headAdvanced n l s) := by
  unfold loadDone
  dsimp only
  rw [h]
  rfl

theorem loadDone_load (h : (s.hop n).load = some l) : ((loadDone n s).hop n).load = none := by
  have hadvanced : (headAdvanced n l s).hop n = hopUnloaded l (s.hop n) := by
    unfold headAdvanced State.setRf State.setRb
    dsimp only
    split <;> simp
  rw [loadDone_eq h, hopSettle_load, hadvanced, hopUnloaded_load]

theorem loadDone_head (h : (s.hop n).load = some l) :
    (loadDone n s).rf .CL_HOP_HEAD n 0 16 = (s.rf .CL_HOP_HEAD n 0 16 + 1) % 65536 := by
  have hset := State.rf_setRf_same (s.setHop n (hopUnloaded l (s.hop n))) .CL_HOP_HEAD n 0 16
    (s.rf .CL_HOP_HEAD n 0 16 + 1) (by omega)
  rw [loadDone_eq h, State.rf, hopSettle_reg, headAdvanced]
  split
  · rw [State.reg_setRb, if_neg (by simp)]; exact hset
  · exact hset

theorem loadDone_final (h : (s.hop n).load = some l) (hlast : l.last = true) : (loadDone n s).rb .CL_HOP_STAT n 18 = true := by
  rw [loadDone_eq h, State.rb, hopSettle_reg, headAdvanced]
  rw [if_pos hlast, ← State.rb, State.rb_setRb_same _ _ _ _ _ (by omega)]

theorem hopperChunk_last (hload : (s.hop n).load = some l) (hruns : hopRuns s n = true)
    (hpages : 256 * pageCount l.pages ≤ l.ndone) (hsome : 0 < l.mcnt - l.mdone) (hfew : l.mcnt - l.mdone ≤ 8)
    (hserved : streamServed s n 0 false (l.maddr + 4 * l.mdone) (4 * (l.mcnt - l.mdone)) = true)
    (hadmits : memAdmits s (.cluster n 0) false (l.maddr + 4 * l.mdone) (4 * (l.mcnt - l.mdone)) = true) :
    ∃ s', exec (.hopperChunk t n) s = .next s' ∧ (s'.hop n).load = none ∧
      s'.rf .CL_HOP_HEAD n.val 0 16 = (s.rf .CL_HOP_HEAD n.val 0 16 + 1) % 65536 ∧
      (l.last = true → s'.rb .CL_HOP_STAT n.val 18 = true) ∧
      Frame [.clasp, .micro, .hops] [.CL_HOP_HEAD, .CL_HOP_STAT] (atCluster n) s s' := by
  have hlen : chunkLen l = l.mcnt - l.mdone := by unfold chunkLen; omega
  have hover : loadOver { l with mdone := l.mdone + (l.mcnt - l.mdone) } = true := by
    unfold loadOver; rw [decide_eq_true (by dsimp only; omega), decide_eq_true hpages]; rfl
  have hexec := execHopperChunk_micro (t := t) hload hruns hpages (by rwa [hlen]) (by rwa [hlen])
  rw [hlen, hover, if_pos rfl] at hexec
  have hhop : ((microCopied n l (l.mcnt - l.mdone) (s.at t)).hop n).load =
      some { l with mdone := l.mdone + (l.mcnt - l.mdone) } := by rw [microCopied_hop]; rfl
  have hupd : Upd 0x205 (regMask [.CL_HOP_HEAD, .CL_HOP_STAT]) (atCluster n) s
      (loadDone n (microCopied n l (l.mcnt - l.mdone) (s.at t))) :=
    loadDone_upd (microCopied_upd (State.at_upd Upd.refl (by decide)) (by decide) ⟨0, rfl⟩) (by decide) (by decide +kernel)
      ⟨0, rfl⟩
  refine ⟨_, hexec, loadDone_load hhop, ?_, fun hlast => loadDone_final hhop hlast,
    hupd.frame (by decide +kernel) (by decide +kernel)⟩
  rw [loadDone_head hhop, State.rf, microCopied_reg, State.reg_at, ← State.rf]

/-- Settles O29, clause by clause: the commands `hopCtrlStored` and `hopFlushed`, a descriptor `takeDesc`, a chunk
`microCopied` or `nanoCopied`, the last of a load with `loadDone`. -/
theorem hopperLoads : Obligations.HopperLoads := by
  unfold Obligations.HopperLoads
  exact ⟨fun _ _ _ _ _ hacc h1 => hopperEnable_holds hacc h1,
    fun _ _ _ _ _ hacc hidle => hopperFlush_holds hacc hidle,
    fun _ _ _ hruns hload hwait hmore hsize hserved hadmits =>
      hopperDescriptor_holds hruns hload hwait hmore hsize hserved hadmits,
    fun _ _ _ _ hload hruns hpages hmore hserved hadmits => hopperChunk_micro hload hruns hpages hmore hserved hadmits,
    fun _ _ _ _ hload hruns hpages hmore hserved hadmits => hopperChunk_nano hload hruns hpages hmore hserved hadmits,
    fun _ _ _ _ hload hruns hpages hsome hfew hserved hadmits =>
      hopperChunk_last hload hruns hpages hsome hfew hserved hadmits⟩

end Sys2Proof.Machine
end

/-! # Micro-routines: obligations O30, O31, O32

SUPPORT. The context that an interruption saves; then its RESUME and ABANDON; then a measurement result on its way to the
window. -/

section
/-! ### An interruption is taken (R203 to R208) -/

namespace Sys2Proof.Machine

variable {s u : State} {n : Cluster} {t cause : Nat} {x : Rtn}

/-! The status word of a saved context (R205). -/

/-- CL_MR_STAT of a context just saved: VALID, RESUMABLE, PARKED, CAUSE, ABORT_PEND and OUTCOME. -/
def savedStat (resumable parked pend : Bool) (cause outcome : Nat) : Word :=
  BitVec.ofNat 32 (1 + 2 * b2n resumable + 16 * b2n parked + 256 * cause + 4096 * b2n pend + 8192 * outcome)

theorem savedStat_fields {resumable parked pend : Bool} {outcome : Nat} (hcause : cause < 16) (hout : outcome < 8) :
    let w := savedStat resumable parked pend cause outcome
    bitOf w 0 = true ∧ bitOf w 1 = resumable ∧ bitOf w 4 = parked ∧ fld w 8 4 = cause ∧ fld w 13 3 = outcome := by
  intro w
  have hresumable := b2n_le resumable
  have hparked := b2n_le parked
  have hpend := b2n_le pend
  have hnum : w.toNat =
      1 + 2 * b2n resumable + 16 * b2n parked + 256 * cause + 4096 * b2n pend + 8192 * outcome := by
    rw [show w = savedStat resumable parked pend cause outcome from rfl, savedStat, BitVec.toNat_ofNat]
    exact Nat.mod_eq_of_lt (by omega)
  have hbit : ∀ k b, w.toNat / 2 ^ k % 2 = b2n b → bitOf w k = b := fun k b h => by
    rw [bitOf, ← BitVec.testBit_toNat, Nat.testBit_eq_decide_div_mod_eq, h, decide_b2n]
  refine ⟨hbit _ _ ?_, hbit _ _ ?_, hbit _ _ ?_, ?_, ?_⟩
  · rw [hnum, show b2n true = 1 from rfl]; omega
  · rw [hnum]; omega
  · rw [hnum]; omega
  · rw [fld, hnum]; omega
  · rw [fld, hnum]; omega

/-! The registers that name a saved routine. -/

/-- CL_MR_UADDR of a routine: its unwind address, if it named one. -/
def unwindWord (x : Rtn) : Word := match x.uaddr with | some p => paddrWord p ||| 0x80000000#32 | none => 0#32

/-- Identifier and step, mark, unwind address, digest and touched channels of routine x. -/
def routineNamed (n : Cluster) (x : Rtn) (s : State) : State :=
  ((((s.setReg .CL_MR_ID n (BitVec.ofNat 32 (x.id % 65536 + 65536 * (x.step % 65536)))).setReg .CL_MR_RADDR n
    (paddrWord x.mark.pc)).setReg .CL_MR_UADDR n (unwindWord x)).setReg .CL_MR_DIGEST n (digest s n)).setReg .CL_MR_TOUCHED n
    x.touched

/-- One loop counter of a saved front end. -/
def counterNamed (n : Cluster) (ctrs : List Nat) (s : State) (k : Nat) : State :=
  s.setReg .CL_MR_LC (n.val * 8 + k) (BitVec.ofNat 32 (ctrs.getD k 0))

/-- The eight loop counters of a saved front end. -/
def countersNamed (n : Cluster) (ctrs : List Nat) (s : State) : State := (List.range 8).foldl (counterNamed n ctrs) s

theorem countersNamed_reg {ctrs : List Nat} {r : Reg} {i : Nat} (h : r ≠ .CL_MR_LC) :
    (countersNamed n ctrs s).reg r i = s.reg r i :=
  List.foldlRecOn (motive := fun v : State => v.reg r i = s.reg r i) (List.range 8) _ rfl fun v hv k _ => by
    rw [counterNamed, State.reg_setReg, if_neg fun e => h e.1, hv]

theorem countersNamed_counter {ctrs : List Nat} (k : Fin 8) :
    (countersNamed n ctrs s).reg .CL_MR_LC (n.val * 8 + k.val) = BitVec.ofNat 32 (ctrs.getD k.val 0) :=
  foldl_observed (f := counterNamed n ctrs) (obs := fun s => s.reg .CL_MR_LC (n.val * 8 + k.val))
    (g := fun _ => BitVec.ofNat 32 (ctrs.getD k.val 0)) (i := k.val)
    (fun j s hj => by rw [counterNamed, State.reg_setReg, if_neg fun e => hj (Nat.add_left_cancel e.2).symm])
    (fun s => State.reg_setReg_same ..) List.nodup_range (List.mem_range.2 k.isLt)

/-- The context of routine x is saved with status word `stat`, and the pattern has no routine any more. -/
def routineSaved (n : Cluster) (x : Rtn) (stat : Word) (s : State) : State :=
  ((countersNamed n x.mark.ctrs (routineNamed n x s)).setReg .CL_MR_STAT n stat).setSeq n
    { s.seq n with ctx := some ⟨x.mark, (s.seq n).fMatch, (s.seq n).fFail, x⟩, rtn := none }

theorem saveCtx_saved {resumable parked : Bool} {outcome : Nat} (hrtn : (s.seq n).rtn = some x) :
    saveCtx n resumable parked cause outcome s =
      routineSaved n x (savedStat resumable parked (s.rb .CL_MR_STAT n 12) cause outcome) s := by
  unfold saveCtx
  rw [hrtn]
  rfl

/-! The interruption. -/

/-- The interruption is taken: the context of x is saved, CL_MR_EVT.HELD is set, and the pattern ends with code ABORTED. -/
def interruptTaken (n : Cluster) (x : Rtn) (resumable parked : Bool) (cause : Nat) (s : State) : State :=
  endSeq n 2 0
    ((routineSaved n x (savedStat resumable parked (s.rb .CL_MR_STAT n 12) cause 1) s).setRb .CL_MR_EVT n 0 true)

/-- The registers in which a context is held. -/
def ctxRegs : List Reg :=
  [.CL_MR_STAT, .CL_MR_ID, .CL_MR_RADDR, .CL_MR_UADDR, .CL_MR_DIGEST, .CL_MR_TOUCHED, .CL_MR_LC, .CL_MR_EVT]

theorem digest_at : digest (s.at t) n = digest s n := by rw [State.at_eq]; rfl
theorem streaming_at : streaming (s.at t) n = streaming s n := State.rb_at ..
theorem inParked_at : inParked (s.at t) n = inParked s n := by unfold inParked; rw [State.seq_at]

/-- An interruption that a boundary marks is taken with the context as the boundary leaves it. -/
theorem execRoutineInterrupt_marked (hdue : issueDue (s.at t) n = true) (hcause : abortDue s n = some cause)
    (hmark : issueAt n (s.at t) = .marked u) (hrtn : (u.seq n).rtn = some x) :
    exec (.routineInterrupt t n) s = .next (interruptTaken n x (!streaming s n) (inParked s n) cause u) := by
  show execRoutineInterrupt t n s = _
  unfold execRoutineInterrupt
  dsimp only
  rw [if_pos hdue, hmark]
  dsimp only
  rw [saveCtx_saved hrtn, streaming_at, inParked_at, abortDue_at, hcause]
  rfl

section
variable {resumable parked : Bool}

/-- VALID is 1, RESUMABLE, PARKED and CAUSE are as told, and OUTCOME is HELD. -/
theorem interruptTaken_stat (hcause : cause < 16) :
    let s' := interruptTaken n x resumable parked cause s
    s'.rb .CL_MR_STAT n 0 = true ∧ s'.rb .CL_MR_STAT n 1 = resumable ∧ s'.rb .CL_MR_STAT n 4 = parked ∧
      s'.rf .CL_MR_STAT n 8 4 = cause ∧ s'.rf .CL_MR_STAT n 13 3 = 1 := by
  intro s'
  have hstat : s'.reg .CL_MR_STAT n = savedStat resumable parked (s.rb .CL_MR_STAT n 12) cause 1 := by
    rw [show s' = interruptTaken n x resumable parked cause s from rfl, interruptTaken, endSeq_reg, State.reg_setRb,
      if_neg (by simp), routineSaved, State.reg_setSeq, State.reg_setReg_same]
  unfold State.rb State.rf
  rw [hstat]
  exact savedStat_fields hcause (by decide)

theorem interruptTaken_evt : (interruptTaken n x resumable parked cause s).rb .CL_MR_EVT n 0 = true := by
  rw [interruptTaken, endSeq_rb, State.rb_setRb_same _ _ _ _ _ (by omega)]

/-- The other registers are as `routineNamed` and `countersNamed` leave them. -/
theorem interruptTaken_reg {r : Reg} {i : Nat} (h : r ∉ [.CL_MR_STAT, .CL_MR_EVT]) :
    (interruptTaken n x resumable parked cause s).reg r i = (countersNamed n x.mark.ctrs (routineNamed n x s)).reg r i := by
  simp only [List.mem_cons, List.not_mem_nil, or_false, not_or] at h
  obtain ⟨hstat, hevt⟩ := h
  rw [interruptTaken, endSeq_reg, State.reg_setRb, if_neg fun e => hevt e.1, routineSaved, State.reg_setSeq, State.reg_setReg,
    if_neg fun e => hstat e.1]

/-- What the registers that name the routine hold. -/
theorem interruptTaken_names :
    (interruptTaken n x resumable parked cause s).reg .CL_MR_ID n =
        BitVec.ofNat 32 (x.id % 65536 + 65536 * (x.step % 65536)) ∧
      (interruptTaken n x resumable parked cause s).reg .CL_MR_RADDR n = paddrWord x.mark.pc ∧
      (interruptTaken n x resumable parked cause s).reg .CL_MR_UADDR n = unwindWord x ∧
      (interruptTaken n x resumable parked cause s).reg .CL_MR_DIGEST n = digest s n ∧
      (interruptTaken n x resumable parked cause s).reg .CL_MR_TOUCHED n = x.touched := by
  have hnamed : ∀ r i, r ∉ [.CL_MR_STAT, .CL_MR_EVT] → r ≠ .CL_MR_LC →
      (interruptTaken n x resumable parked cause s).reg r i = (routineNamed n x s).reg r i := fun r i hr hlc => by
    rw [interruptTaken_reg hr, countersNamed_reg hlc]
  refine ⟨?_, ?_, ?_, ?_, ?_⟩ <;> rw [hnamed _ _ (by decide) (by decide), routineNamed] <;> simp [State.reg_setReg]

theorem interruptTaken_counter (k : Fin 8) : (interruptTaken n x resumable parked cause s).reg .CL_MR_LC (n.val * 8 + k.val) =
    BitVec.ofNat 32 (x.mark.ctrs.getD k.val 0) := by
  rw [interruptTaken_reg (by decide), countersNamed_counter]

/-- The context is held beside the registers, the routine is left, and the code is ABORTED. -/
theorem interruptTaken_seq :
    ((interruptTaken n x resumable parked cause s).seq n).ctx = some ⟨x.mark, (s.seq n).fMatch, (s.seq n).fFail, x⟩ ∧
      ((interruptTaken n x resumable parked cause s).seq n).rtn = none ∧
      ((interruptTaken n x resumable parked cause s).seq n).ending = some (2, 0) := by
  rw [interruptTaken, endSeq, State.seq_modSeq, State.setRb, State.seq_setReg, routineSaved, State.seq_setSeq_same]
  exact ⟨rfl, rfl, rfl⟩

theorem interruptTaken_upd {K R : Nat} {C : Nat → Nat → Prop} {s0 : State} (h : Upd K R C s0 s) (hk : 0x100 ||| K = K)
    (hr : regMask ctxRegs ||| R = R) (hc : ∀ c, C n.val c) : Upd K R C s0 (interruptTaken n x resumable parked cause s) := by
  have hbit : ∀ r ∈ ctxRegs, R.testBit r.ctorIdx = true := fun r hr' =>
    testBit_of_sub hr ((by decide +kernel : ∀ r ∈ ctxRegs, (regMask ctxRegs).testBit r.ctorIdx = true) r hr')
  have hset : ∀ {v : State} (r : Reg) (w : Word), r ∈ ctxRegs → r.row.count = 1 → Upd K R C s0 v →
      Upd K R C s0 (v.setReg r n w) := fun r w hr' hone hv => State.setReg_upd hv (hbit r hr') (RegOk.one hone ⟨0, hc 0⟩)
  have hnamed : Upd K R C s0 (routineNamed n x s) :=
    hset _ _ (by decide) rfl (hset _ _ (by decide) rfl (hset _ _ (by decide) rfl (hset _ _ (by decide) rfl
      (hset _ _ (by decide) rfl h))))
  have hcounted : Upd K R C s0 (countersNamed n x.mark.ctrs (routineNamed n x s)) :=
    foldl_range_upd hnamed fun v k hk hv =>
      State.setReg_upd hv (hbit _ (by decide)) (RegOk.clu (by simp only [Reg.row]; omega) hc)
  exact endSeq_upd (State.setRb_upd (State.setSeq_upd (hset _ _ (by decide) rfl hcounted) hk ⟨0, hc 0⟩)
    (hbit _ (by decide)) (RegOk.one rfl ⟨0, hc 0⟩)) hk ⟨0, hc 0⟩

end

theorem routineInterrupt_parked (hdue : issueDue (s.at t) n = true) (hcause : abortDue s n = some cause)
    (hrtn : (s.seq n).rtn = some x) (hparked : inParked s n = true) (hlt : cause < 16) :
    ∃ s', exec (.routineInterrupt t n) s = .next s' ∧ s'.rb .CL_MR_STAT n.val 0 = true ∧
      s'.rb .CL_MR_STAT n.val 1 = !streaming s n ∧ s'.rb .CL_MR_STAT n.val 4 = true ∧ s'.rf .CL_MR_STAT n.val 8 4 = cause ∧
      s'.rf .CL_MR_STAT n.val 13 3 = 1 ∧
      s'.reg .CL_MR_ID n.val = BitVec.ofNat 32 (x.id % 65536 + 65536 * (x.step % 65536)) ∧
      s'.reg .CL_MR_RADDR n.val = paddrWord x.mark.pc ∧ s'.reg .CL_MR_UADDR n.val = unwindWord x ∧
      s'.reg .CL_MR_DIGEST n.val = digest s n ∧ s'.reg .CL_MR_TOUCHED n.val = x.touched ∧
      (∀ k : Fin 8, s'.reg .CL_MR_LC (n.val * 8 + k.val) = BitVec.ofNat 32 (x.mark.ctrs.getD k.val 0)) ∧
      s'.rb .CL_MR_EVT n.val 0 = true ∧ (s'.seq n).ctx = some ⟨x.mark, (s.seq n).fMatch, (s.seq n).fFail, x⟩ ∧
      (s'.seq n).rtn = none ∧ (s'.seq n).ending = some (2, 0) ∧
      Frame [.clasp, .seqs] ctxRegs (atCluster n) s s' := by
  have hmark : issueAt n (s.at t) = .marked (s.at t) := by
    unfold issueAt
    dsimp only
    rw [abortDue_at, hcause, inParked_at, hparked, State.seq_at, hrtn]
    rfl
  have hexec := execRoutineInterrupt_marked hdue hcause hmark (by rw [State.seq_at, hrtn])
  obtain ⟨hheld, hresumable, hpark, hc, hout⟩ := interruptTaken_stat (n := n) (x := x) (resumable := !streaming s n)
    (parked := inParked s n) (s := s.at t) hlt
  obtain ⟨hid, hraddr, huaddr, hdigest, htouched⟩ := interruptTaken_names (n := n) (x := x) (resumable := !streaming s n)
    (parked := inParked s n) (cause := cause) (s := s.at t)
  obtain ⟨hctx, hleft, hending⟩ := interruptTaken_seq (n := n) (x := x) (resumable := !streaming s n)
    (parked := inParked s n) (cause := cause) (s := s.at t)
  rw [digest_at] at hdigest
  rw [State.seq_at] at hctx
  have hupd : Upd 0x101 (regMask ctxRegs) (atCluster n) s
      (interruptTaken n x (!streaming s n) (inParked s n) cause (s.at t)) :=
    interruptTaken_upd (State.at_upd Upd.refl (by decide)) (by decide) (Nat.or_self _) fun _ => rfl
  exact ⟨_, hexec, hheld, hresumable, hpark.trans hparked, hc, hout, hid, hraddr, huaddr, hdigest, htouched,
    interruptTaken_counter, interruptTaken_evt, hctx, hleft, hending,
    hupd.frame (by decide +kernel) (by decide +kernel)⟩

/-! An RMARK boundary (R200, R202). -/

section
variable {step : Nat} {fe : FE} {rest : List QEntry}

/-- Routine x at the mark of an RMARK taken at T = tNext. -/
def markedAt (step : Nat) (fe : FE) (tNext : Nat) (x : Rtn) : Rtn :=
  { x with step, mark := fe, span := tNext, fresh := true, byMark := true }

/-- With an interruption waiting, the last RMARK before a vector ends the boundary. -/
theorem issueLoop_mark {fuel : Nat} (hq : (s.seq n).q = .rmark step fe :: rest) (hlast : markAhead rest = false) :
    issueLoop n true (fuel + 1) s = .marked (takeMark n step fe (popQ n s)) := by
  unfold issueLoop
  dsimp only
  rw [hq]
  dsimp only
  rw [List.tail_cons, hlast]
  rfl

theorem takeMark_rtn (hunwind : (s.seq n).unwind = false) (hrtn : (s.seq n).rtn = some x) :
    ((takeMark n step fe (popQ n s)).seq n).rtn = some (markedAt step fe (s.seq n).tNext x) := by
  rw [takeMark, popQ, State.seq_modSeq, State.seq_modSeq]
  dsimp only
  rw [hunwind, hrtn]
  rfl

theorem routineInterrupt_mark (hdue : issueDue (s.at t) n = true) (hcause : abortDue s n = some cause)
    (hrtn : (s.seq n).rtn = some x) (hparked : inParked s n = false) (hunwind : (s.seq n).unwind = false)
    (hq : (s.seq n).q = .rmark step fe :: rest) (hlast : markAhead rest = false) (hlt : cause < 16) :
    ∃ s', exec (.routineInterrupt t n) s = .next s' ∧ s'.rb .CL_MR_STAT n.val 0 = true ∧ s'.rf .CL_MR_STAT n.val 8 4 = cause ∧
      s'.reg .CL_MR_ID n.val = BitVec.ofNat 32 (x.id % 65536 + 65536 * (step % 65536)) ∧
      s'.reg .CL_MR_RADDR n.val = paddrWord fe.pc ∧
      (∃ y, (s'.seq n).ctx = some y ∧ y.fe = fe ∧ y.rtn.step = step ∧ y.rtn.id = x.id) ∧
      (s'.seq n).ending = some (2, 0) ∧ Frame [.clasp, .seqs] ctxRegs (atCluster n) s s' := by
  have hmark : issueAt n (s.at t) = .marked (takeMark n step fe (popQ n (s.at t))) := by
    unfold issueAt
    dsimp only
    rw [abortDue_at, hcause, inParked_at, hparked, ← issueLoop_mark (by rw [State.seq_at, hq]) hlast, State.seq_at, hrtn]
    rfl
  have hmarked := takeMark_rtn (n := n) (s := s.at t) (x := x) (step := step) (fe := fe) (by rw [State.seq_at, hunwind])
    (by rw [State.seq_at, hrtn])
  have hexec := execRoutineInterrupt_marked hdue hcause hmark hmarked
  have hupdMark : Upd 0x101 (regMask ctxRegs) (atCluster n) s (takeMark n step fe (popQ n (s.at t))) :=
    takeMark_upd (popQ_upd (State.at_upd Upd.refl (by decide)) (by decide) ⟨0, rfl⟩) (by decide) ⟨0, rfl⟩
  generalize takeMark n step fe (popQ n (s.at t)) = u at hexec hupdMark
  obtain ⟨hheld, -, -, hc, -⟩ := interruptTaken_stat (n := n) (x := markedAt step fe ((s.at t).seq n).tNext x)
    (resumable := !streaming s n) (parked := inParked s n) (s := u) hlt
  obtain ⟨hid, hraddr, -, -, -⟩ := interruptTaken_names (n := n) (x := markedAt step fe ((s.at t).seq n).tNext x)
    (resumable := !streaming s n) (parked := inParked s n) (cause := cause) (s := u)
  obtain ⟨hctx, -, hending⟩ := interruptTaken_seq (n := n) (x := markedAt step fe ((s.at t).seq n).tNext x)
    (resumable := !streaming s n) (parked := inParked s n) (cause := cause) (s := u)
  exact ⟨_, hexec, hheld, hc, hid, hraddr, ⟨_, hctx, rfl, rfl, rfl⟩, hending,
    (interruptTaken_upd hupdMark (by decide) (Nat.or_self _) fun _ => rfl).frame (by decide +kernel) (by decide +kernel)⟩

end

/-- Settles O30: at either boundary the interruption leaves `interruptTaken`, of the routine as it stands in a parked wait,
and as it stands at the mark. -/
theorem routineInterruptSavesContext : Obligations.RoutineInterruptSavesContext := by
  unfold Obligations.RoutineInterruptSavesContext
  exact ⟨fun _ _ _ _ _ hdue hcause hrtn hparked hlt => routineInterrupt_parked hdue hcause hrtn hparked hlt,
    fun _ _ _ _ _ _ _ _ hdue hcause hrtn hparked hunwind hq hlast hlt =>
      routineInterrupt_mark hdue hcause hrtn hparked hunwind hq hlast hlt⟩

end Sys2Proof.Machine
end

section
/-! ### RESUME and ABANDON (R209 to R213) -/

namespace Sys2Proof.Machine

variable {s : State} {n : Cluster} {t : Nat} {d : Word} {r : Req} {x : Ctx}

/-! The two commands. -/

/-- An accepted command that writes CL_MR_CMD does what its chapter says, and ends the cluster's gating (R428). -/
theorem cmdWrite_mrCmd {set : Word} (h : Accepted r .CL_MR_CMD n.val (d ||| set) s) :
    cmdWrite r .CL_MR_CMD n.val d set s = ungate n.val (mrCmdWrite n (d ||| set) 0xFFFFFFFF#32 s) := by
  have hsize : n.val < Reg.CL_MR_CMD.size := n.isLt
  obtain ⟨s', hput, hwrite⟩ := cmdWrite_cluster (by decide) rfl hsize (Nat.div_one _) h
  cases hput
  exact hwrite

theorem exec_resume (hacc : Accepted r .CL_MR_CMD n.val (d ||| 1#32) (s.at t)) (h1 : bitOf d 1 = false) :
    exec (.resume t r n d) s = .next (ungate n.val (resumeOp n (s.at t))) := by
  have hresume : bitOf (d ||| 1#32) 0 = true := by rw [bitOf_or]; simp [bitOf]
  have habandon : bitOf (d ||| 1#32) 1 = false := by rw [bitOf_or, h1]; rfl
  refine congrArg Host.Outcome.next ((cmdWrite_mrCmd hacc).trans (congrArg _ ?_))
  rw [mrCmdWrite, ones_full, ones_full, hresume, habandon, if_neg Bool.false_ne_true, if_pos rfl]

theorem exec_abandon (hacc : Accepted r .CL_MR_CMD n.val (d ||| 2#32) (s.at t)) :
    exec (.abandon t r n d) s = .next (ungate n.val (abandonOp n (s.at t))) := by
  have habandon : bitOf (d ||| 2#32) 1 = true := by rw [bitOf_or]; simp [bitOf]
  refine congrArg Host.Outcome.next ((cmdWrite_mrCmd hacc).trans (congrArg _ ?_))
  rw [mrCmdWrite, ones_full, habandon, if_pos rfl]

/-! The sequencer is armed at a saved front end. -/

/-- The saved front end as a start takes it up at p. -/
def FE.startedAt (fe : FE) (p : PAddr) : FE := { fe with pc := p, rpt := none, called := false }

/-- The registers that arming the sequencer for a context writes, with PWR_CLU_GATE. -/
def contextRegs : List Reg := [.CL_SEQ_STAT, .CL_SEQ_RES, .CL_STORE_STAT, .CL_MR_STAT, .PWR_CLU_GATE]

/-- CL_MR_STAT is `stat`, and the sequencer is armed at fe on the next grid time. -/
def contextArmed (n : Cluster) (stat : Word) (fe : FE) (s : State) : State :=
  armAt n (startGrid (startFrom s n)) fe false (s.setReg .CL_MR_STAT n stat)

theorem armSeq_next {fe : FE} {stream : Bool} (hlock : s.rb .CL_TIM_STAT n 0 = true) (hmode : s.rb .CL_SEQ_CTRL n 3 = false) :
    armSeq n fe stream s = armAt n (startGrid (startFrom s n)) fe stream s := by
  rw [armSeq, hlock, hmode]; rfl

theorem armSeq_contextArmed {stat : Word} {fe : FE} (hlock : s.rb .CL_TIM_STAT n 0 = true)
    (hmode : s.rb .CL_SEQ_CTRL n 3 = false) :
    armSeq n fe false (s.setReg .CL_MR_STAT n stat) = contextArmed n stat fe s := by
  have hrb : ∀ r b, r ≠ .CL_MR_STAT → (s.setReg .CL_MR_STAT n stat).rb r n b = s.rb r n b := fun r b h => by
    rw [State.rb, State.reg_setReg, if_neg fun e => h e.1, ← State.rb]
  exact armSeq_next ((hrb _ _ (by decide)).trans hlock) ((hrb _ _ (by decide)).trans hmode)

section
variable {stat : Word} {fe : FE} {f : Seq → Seq}

theorem contextArmed_idle : seqIdle (contextArmed n stat fe s) n = false := by
  rw [seqIdle, contextArmed, armAt_state]; rfl

/-- The sequencer is armed and CL_MR_STAT reads `stat`, whatever more the record is told. -/
theorem contextArmed_shown : seqState (ungate n.val ((contextArmed n stat fe s).modSeq n f)) n = 1 ∧
    (ungate n.val ((contextArmed n stat fe s).modSeq n f)).reg .CL_MR_STAT n = stat := by
  constructor
  · rw [seqState, ungate_rf (by decide), State.rf, State.reg_modSeq]
    exact armAt_state
  · rw [ungate_reg (by decide), State.reg_modSeq, contextArmed, armAt_reg (by decide), State.reg_setReg_same]

theorem contextArmed_record : (ungate n.val ((contextArmed n stat fe s).modSeq n f)).seq n =
    f (armedSeq (startGrid (startFrom s n)) fe false s.clasp (s.seq n)) := by
  rw [ungate_seq, State.seq_modSeq, contextArmed, armAt_seq, State.seq_setReg]
  rfl

theorem contextArmed_frame :
    Frame [.clasp, .seqs, .hops] contextRegs (atCluster n) s
      (ungate n.val ((contextArmed n stat fe (s.at t)).modSeq n f)) := by
  have hstat : Upd 0x300 (regMask contextRegs) (atCluster n) (s.at t)
      ((s.at t).setReg .CL_MR_STAT n stat) :=
    State.setReg_upd Upd.refl (by decide +kernel) (RegOk.one rfl ⟨0, rfl⟩)
  exact (cmdWrite_frame (State.modSeq_upd (armAt_upd hstat (by decide) (by decide +kernel) ⟨0, rfl⟩) (by decide)
    ⟨0, rfl⟩)).frame (by decide +kernel) (by decide +kernel)

end

/-- T(0), where no calibration step is under way (R456). -/
theorem MayStartContext.startTime_eq (h : MayStartContext n x s) : startGrid (startFrom s n) = startTime s n false := by
  obtain ⟨-, -, -, -, -, hstep, -, -⟩ := h
  rw [startTime, hstep]
  rfl

/-! RESUME. -/

/-- A context that may be resumed (R207, R210, R445): RESUMABLE is 1, OUTCOME is HELD, and the Governor lets starts pass. -/
structure Resumable (n : Cluster) (s : State) : Prop where
  resumable : s.rb .CL_MR_STAT n 1 = true
  outcome : s.rf .CL_MR_STAT n 13 3 = 1
  cool : govLevel s n < 3

/-- The sequencer's record as a RESUME leaves it armed. -/
def resumedSeq (x : Ctx) (q : Seq) : Seq :=
  { q with resume := true, unwind := false, fMatch := x.fMatch, fFail := x.fFail,
           rtn := some { x.rtn with span := q.tNext, fresh := x.rtn.byMark } }

theorem resumeOp_judged (h : MayStartContext n x s) (hres : Resumable n s) :
    resumeOp n s = if digest s n ≠ s.reg .CL_MR_DIGEST n then (s.setRb .CL_MR_STAT n 7 true).setRb .CL_MR_EVT n 3 true
      else (contextArmed n (putBit (s.reg .CL_MR_STAT n) 7 false) (x.fe.startedAt x.fe.pc) s).modSeq n (resumedSeq x) := by
  obtain ⟨hidle, hheld, hctx, hintr, hasy, hstep, hlock, hmode⟩ := h
  obtain ⟨hresumable, hout, hcool⟩ := hres
  have harm := armSeq_contextArmed (stat := putBit (s.reg .CL_MR_STAT n) 7 false) (fe := x.fe.startedAt x.fe.pc) hlock hmode
  unfold resumeOp startOr calAbandon
  rw [hidle, hheld, hresumable, hout, hctx, hintr, hasy, hstep]
  simp only [Bool.not_true, Bool.or_self, Bool.false_eq_true, if_false, ne_eq, not_true, decide_false,
    Nat.not_le.2 hcool]
  refine ite_congr rfl (fun _ => rfl) fun _ => ?_
  rw [FE.startedAt, ← State.setRb] at harm
  rw [harm, contextArmed_idle]
  rfl

theorem resume_fits (hacc : Accepted r .CL_MR_CMD n.val (d ||| 1#32) (s.at t)) (h1 : bitOf d 1 = false)
    (hmay : MayStartContext n x (s.at t)) (hres : Resumable n (s.at t)) (hfits : digest s n = s.reg .CL_MR_DIGEST n) :
    ∃ s', exec (.resume t r n d) s = .next s' ∧ seqState s' n = 1 ∧ (s'.seq n).t0 = startTime (s.at t) n false ∧
      (s'.seq n).fe = { x.fe with rpt := none, called := false } ∧ (s'.seq n).fMatch = x.fMatch ∧ (s'.seq n).fFail = x.fFail ∧
      (s'.seq n).resume = true ∧ (s'.seq n).unwind = false ∧
      (s'.seq n).rtn = some { x.rtn with span := (s'.seq n).tNext, fresh := x.rtn.byMark } ∧ s'.rb .CL_MR_STAT n.val 7 = false ∧
      Frame [.clasp, .seqs, .hops] contextRegs (atCluster n) s s' := by
  have hexec := exec_resume hacc h1
  rw [resumeOp_judged hmay hres, if_neg (by rw [digest_at, State.reg_at]; exact not_not.2 hfits)] at hexec
  obtain ⟨hstate, hstat⟩ := contextArmed_shown (n := n) (s := s.at t) (f := resumedSeq x)
    (stat := putBit ((s.at t).reg .CL_MR_STAT n) 7 false) (fe := x.fe.startedAt x.fe.pc)
  refine ⟨_, hexec, hstate, ?_⟩
  rw [contextArmed_record, hmay.startTime_eq, State.rb, hstat, bitOf_putBit _ _ _ _ (by omega), if_pos rfl]
  exact ⟨rfl, rfl, rfl, rfl, rfl, rfl, rfl, rfl, contextArmed_frame⟩

theorem resume_mismatch (hacc : Accepted r .CL_MR_CMD n.val (d ||| 1#32) (s.at t)) (h1 : bitOf d 1 = false)
    (hmay : MayStartContext n x (s.at t)) (hres : Resumable n (s.at t)) (hdiff : digest s n ≠ s.reg .CL_MR_DIGEST n) :
    ∃ s', exec (.resume t r n d) s = .next s' ∧ s'.rb .CL_MR_STAT n.val 7 = true ∧ s'.rb .CL_MR_EVT n.val 3 = true ∧
      Frame [.clasp] [.CL_MR_STAT, .CL_MR_EVT, .PWR_CLU_GATE] (atCluster n) s s' := by
  have hexec := exec_resume hacc h1
  rw [resumeOp_judged hmay hres, if_pos (by rwa [digest_at, State.reg_at])] at hexec
  have hupd : Upd 0 (regMask [.CL_MR_STAT, .CL_MR_EVT]) (atCluster n) (s.at t)
      (((s.at t).setRb .CL_MR_STAT n 7 true).setRb .CL_MR_EVT n 3 true) :=
    State.setRb_upd (State.setRb_upd Upd.refl (by decide +kernel) (RegOk.one rfl ⟨0, rfl⟩)) (by decide +kernel)
      (RegOk.one rfl ⟨0, rfl⟩)
  refine ⟨_, hexec, ?_, ?_, (cmdWrite_frame hupd).frame (by decide +kernel) (by decide +kernel)⟩
  · rw [ungate_rb (by decide), State.rb, State.reg_setRb, if_neg (by simp), ← State.rb,
      State.rb_setRb_same _ _ _ _ _ (by omega)]
  · rw [ungate_rb (by decide), State.rb_setRb_same _ _ _ _ _ (by omega)]

/-! ABANDON. -/

/-- CL_MR_STAT while a context's unwind section runs: UNWIND is 1, OUTCOME is 0 (R211). -/
def unwindStat (n : Cluster) (s : State) : Word := putFld (s.reg .CL_MR_STAT n) 13 3 0 ||| 0x20#32

/-- The sequencer's record as an ABANDON leaves it armed. -/
def unwindingSeq (x : Ctx) (q : Seq) : Seq :=
  { q with unwind := true, resume := false, fMatch := x.fMatch, fFail := x.fFail,
           rtn := some { x.rtn with span := q.tNext, fresh := false } }

theorem abandonOp_begins (h : MayStartContext n x s) : abandonOp n s = beginUnwind n true s := by
  obtain ⟨hidle, hheld, -⟩ := h
  rw [abandonOp, hidle, hheld]
  rfl

theorem abandonOp_unwinds {p : PAddr} (h : MayStartContext n x s) (hp : x.rtn.uaddr = some p)
    (hout : s.rf .CL_MR_STAT n 13 3 ≠ 4) :
    abandonOp n s = (contextArmed n (unwindStat n s) (x.fe.startedAt p) s).modSeq n (unwindingSeq x) := by
  rw [abandonOp_begins h]
  obtain ⟨-, -, hctx, -, -, -, hlock, hmode⟩ := h
  have harmed : armUnwind n none s =
      (contextArmed n (unwindStat n s) (x.fe.startedAt p) s).modSeq n (unwindingSeq x) := by
    rw [← armSeq_contextArmed hlock hmode]
    unfold armUnwind
    rw [hctx]
    dsimp only
    rw [show x.rtn.uaddr.getD ⟨false, 0⟩ = p by rw [hp]; rfl]
    rfl
  have hidle : seqIdle ((contextArmed n (unwindStat n s) (x.fe.startedAt p) s).modSeq n (unwindingSeq x)) n = false :=
    (seqIdle_congr (State.reg_modSeq ..)).trans contextArmed_idle
  have hruns : ¬ (x.rtn.uaddr.isNone = true ∨ s.rf .CL_MR_STAT n 13 3 = 4 ∨
      ((!true) = true ∧ (!s.rb .CL_TIM_STAT n 0) = true)) := by simp [hp, hout]
  unfold beginUnwind
  rw [hctx]
  dsimp only
  rw [if_neg hruns, if_pos rfl, harmed, hidle, if_neg Bool.false_ne_true]

theorem abandonOp_forces (h : MayStartContext n x s) (hnone : x.rtn.uaddr = none) :
    abandonOp n s = finishUnwind n false s := by
  rw [abandonOp_begins h]
  obtain ⟨-, -, hctx, -⟩ := h
  unfold beginUnwind
  rw [hctx]
  exact if_pos (.inl (by rw [hnone]; rfl))

theorem abandon_unwinds {p : PAddr} (hacc : Accepted r .CL_MR_CMD n.val (d ||| 2#32) (s.at t))
    (hmay : MayStartContext n x (s.at t)) (hp : x.rtn.uaddr = some p) (hout : s.rf .CL_MR_STAT n 13 3 ≠ 4) :
    ∃ s', exec (.abandon t r n d) s = .next s' ∧ seqState s' n = 1 ∧ (s'.seq n).t0 = startTime (s.at t) n false ∧
      (s'.seq n).fe = { x.fe with pc := p, rpt := none, called := false } ∧ (s'.seq n).unwind = true ∧
      s'.rb .CL_MR_STAT n.val 5 = true ∧ s'.rf .CL_MR_STAT n.val 13 3 = 0 ∧ (s'.seq n).fMatch = x.fMatch ∧
      (s'.seq n).fFail = x.fFail ∧
      Frame [.clasp, .seqs, .hops] contextRegs (atCluster n) s s' := by
  have hexec := exec_abandon hacc
  rw [abandonOp_unwinds hmay hp (by rwa [State.rf_at])] at hexec
  obtain ⟨hstate, hstat⟩ := contextArmed_shown (n := n) (s := s.at t) (f := unwindingSeq x)
    (stat := unwindStat n (s.at t)) (fe := x.fe.startedAt p)
  have hunwind : bitOf (unwindStat n (s.at t)) 5 = true := by rw [unwindStat, bitOf_or]; simp [bitOf]
  have hcleared : fld (unwindStat n (s.at t)) 13 3 = 0 := by
    rw [unwindStat, fld_or_apart _ _ _ _ (by decide), fld_putFld_same _ _ _ _ (by omega)]; rfl
  refine ⟨_, hexec, hstate, ?_⟩
  rw [contextArmed_record, hmay.startTime_eq, State.rb, State.rf, hstat]
  exact ⟨rfl, rfl, rfl, hunwind, hcleared, rfl, rfl, contextArmed_frame⟩

/-- VALID is 0 and OUTCOME is SAFE where no unwind ran. -/
theorem finishUnwind_safe :
    (finishUnwind n false s).rb .CL_MR_STAT n 0 = false ∧ (finishUnwind n false s).rf .CL_MR_STAT n 13 3 = 4 := by
  rw [State.rb, State.rf, finishUnwind_stat, fld_putFld_same _ _ _ _ (by omega), bitOf_putFld _ _ _ _ _ (by omega),
    if_neg (by omega), bitOf_and]
  exact ⟨by simp [bitOf], rfl⟩

theorem SafeForced.ungate {a b : State} {c : Channel} {k : Nat} (h : SafeForced n c a b) : SafeForced n c a (ungate k b) :=
  h.congr rfl rfl (ungate_reg (by decide)) (ungate_reg (by decide)) (ungate_rb (by decide)) (ungate_chan _)

theorem abandon_forces (hacc : Accepted r .CL_MR_CMD n.val (d ||| 2#32) (s.at t)) (hmay : MayStartContext n x (s.at t))
    (hnone : x.rtn.uaddr = none) :
    ∃ s', exec (.abandon t r n d) s = .next s' ∧
      (∀ c : Channel, bitOf (s.reg .CL_MR_TOUCHED n.val) c.val = true → SafeForced n c s s') ∧
      s'.rb .CL_MR_STAT n.val 0 = false ∧ s'.rf .CL_MR_STAT n.val 13 3 = 4 ∧ s'.rb .CL_MR_EVT n.val 5 = true ∧
      (s'.seq n).ctx = none ∧
      Frame [.clasp, .chans, .seqs, .free] (.CL_SEQ_RES :: .CL_MR_STAT :: .CL_MR_EVT :: .PWR_CLU_GATE :: safeRegs)
        (atCluster n) s s' := by
  have hexec := exec_abandon hacc
  rw [abandonOp_forces hmay hnone] at hexec
  have hupd : Upd 0x400000000000140 (regMask ([.CL_SEQ_RES, .CL_MR_STAT, .CL_MR_EVT] ++ safeRegs)) (atCluster n) (s.at t)
      (finishUnwind n false (s.at t)) :=
    finishUnwind_upd Upd.refl (by decide) (by decide +kernel) fun _ => rfl
  refine ⟨_, hexec, fun c htouched => ?_, ?_, ?_, ?_, ?_,
    (cmdWrite_frame hupd).frame (by decide +kernel) (by decide +kernel)⟩
  · exact (finishUnwind_safeForced (by rwa [State.reg_at])).of_at.ungate
  · exact (ungate_rb (by decide)).trans finishUnwind_safe.1
  · exact (ungate_rf (by decide)).trans finishUnwind_safe.2
  · exact (ungate_rb (by decide)).trans finishUnwind_evt
  · rw [ungate_seq, finishUnwind_seq]

/-- Settles O31: a RESUME whose digest fits and an ABANDON with an unwind section leave `contextArmed`, an ABANDON without
one `finishUnwind`. -/
theorem contextsResumedOrAbandoned : Obligations.ContextsResumedOrAbandoned := by
  unfold Obligations.ContextsResumedOrAbandoned
  have hres : ∀ {n : Cluster} {s : State} (t : Nat), s.rb .CL_MR_STAT n.val 1 = true → s.rf .CL_MR_STAT n.val 13 3 = 1 →
      govLevel s n < 3 → Resumable n (s.at t) := fun t h1 h2 h3 =>
    ⟨(State.rb_at ..).trans h1, (State.rf_at ..).trans h2, by rwa [govLevel_congr (State.reg_at ..)]⟩
  exact ⟨fun t _ _ _ _ _ hacc h1 hmay hresumable hout hcool hfits =>
      resume_fits hacc h1 hmay (hres t hresumable hout hcool) hfits,
    fun t _ _ _ _ _ hacc h1 hmay hresumable hout hcool hdiff =>
      resume_mismatch hacc h1 hmay (hres t hresumable hout hcool) hdiff,
    fun _ _ _ _ _ _ _ hacc hmay hp hout => abandon_unwinds hacc hmay hp hout,
    fun _ _ _ _ _ _ hacc hmay hnone => abandon_forces hacc hmay hnone⟩

end Sys2Proof.Machine
end

section
/-! ### The result window (R218) -/

namespace Sys2Proof.Machine

variable {s : State} {n : Cluster} {t : Nat} {x : ResRec} {rest : List ResRec}

/-- An access that stays in one bank is one part. -/
theorem partsOf_one_bank {a len : Nat} (hlen : 0 < len) (h : a % 786432 + len ≤ 786432) : partsOf a len = [(a, len)] := by
  have hfits : min len ((bankOf a + 1) * 786432 - a) = len := by unfold bankOf; omega
  unfold partsOf bankParts
  rw [if_neg (by omega)]
  split
  · rfl
  · dsimp only
    rw [hfits, Nat.sub_self]
    rfl

/-- A stream that is served writes its bytes where one bank takes them all. -/
theorem engineWrite_granted {k : Fin 6} {rr : Bool} {a : Nat} {bytes : List Byte}
    (hone : partsOf a bytes.length = [(a, bytes.length)]) (hserved : streamServed s n k rr a bytes.length = true)
    (hadmits : memAdmits s (.cluster n k) rr a bytes.length = true) :
    engineWrite n k rr a bytes s = some (s.setBytes a bytes) := by
  unfold engineWrite
  rw [if_pos hserved, memWrite_granted hone hadmits]

theorem resultBytes_length : (resultBytes x).length = 16 := by
  simp only [resultBytes, List.length_append, leBytes_length, List.length_cons, List.length_nil]

/-- The place of result x: index r and channel c of the window. -/
def resultAddr (s : State) (n : Cluster) (x : ResRec) : Nat := s.rf .CL_MR_RES_BASE n 0 17 * 512 + x.tok.r * 512 + x.c * 16

/-- The oldest result is off the queue, and its token is released. -/
def resultTaken (n : Cluster) (rest : List ResRec) (s : State) : State := s.setSeq n { s.seq n with results := rest }

theorem resultTaken_seq : ((resultTaken n rest s).seq n).results = rest := by rw [resultTaken, State.seq_setSeq_same]

theorem resultTaken_upd {K R : Nat} (hk : 0x101 ||| K = K) : Upd K R (atCluster n) s (resultTaken n rest (s.at t)) :=
  State.setSeq_upd (State.at_upd Upd.refl (sub_of rfl hk)) (sub_of rfl hk) ⟨0, rfl⟩

theorem engineWrite_result (hserved : streamServed s n 0 true (resultAddr s n x) 16 = true)
    (hadmits : memAdmits s (.cluster n 0) true (resultAddr s n x) 16 = true) :
    engineWrite n 0 true (resultAddr s n x) (resultBytes x) (resultTaken n rest (s.at t)) =
      some ((resultTaken n rest (s.at t)).setBytes (resultAddr s n x) (resultBytes x)) := by
  have hslot : resultAddr s n x % 16 = 0 := by unfold resultAddr; omega
  refine engineWrite_granted ?_ ?_ ?_
  · rw [resultBytes_length]
    exact partsOf_one_bank (by decide) (by omega)
  · refine Eq.trans ?_ hserved
    rw [resultBytes_length, State.at_eq]; rfl
  · refine Eq.trans ?_ hadmits
    rw [resultBytes_length, State.at_eq]; rfl

theorem routineResultWrite_written (hresults : (s.seq n).results = x :: rest) (hin : x.tok.r < s.rf .CL_MR_RES_CNT n 0 16)
    (hserved : streamServed s n 0 true (resultAddr s n x) 16 = true)
    (hadmits : memAdmits s (.cluster n 0) true (resultAddr s n x) 16 = true) :
    ∃ s', exec (.routineResultWrite t n) s = .next s' ∧ Written (resultAddr s n x) (resultBytes x) s s' ∧
      (s'.seq n).results = rest ∧ Frame [.clasp, .mem, .seqs] [] (atCluster n) s s' := by
  have hwrite := engineWrite_result (t := t) (rest := rest) hserved hadmits
  rw [resultTaken, State.seq_at] at hwrite
  have hexec : execRoutineResultWrite t n s =
      .next ((resultTaken n rest (s.at t)).setBytes (resultAddr s n x) (resultBytes x)) := by
    rw [resultAddr] at hwrite
    unfold execRoutineResultWrite
    dsimp only
    rw [State.seq_at, hresults]
    dsimp only
    rw [State.rf_at, State.rf_at, if_neg (Nat.not_le.2 hin), hwrite, resultTaken, State.seq_at]
    rfl
  have hupd : Upd 0x103 0 (atCluster n) s
      ((resultTaken n rest (s.at t)).setBytes (resultAddr s n x) (resultBytes x)) :=
    State.setBytes_upd (resultTaken_upd (by decide)) (by decide)
  refine ⟨_, hexec, fun y => ?_, ?_, hupd.frame (by decide +kernel) (by decide +kernel)⟩
  · rw [State.byte_setBytes, resultTaken, State.byte_setSeq, State.byte_at]
  · rw [(State.setBytes_upd (K := 2) (R := 0) (C := atCluster n) Upd.refl (by decide)).seq_eq (by decide), resultTaken_seq]

theorem routineResultWrite_dropped (hresults : (s.seq n).results = x :: rest) (hout : s.rf .CL_MR_RES_CNT n 0 16 ≤ x.tok.r) :
    ∃ s', exec (.routineResultWrite t n) s = .next s' ∧ s'.rb .CL_MR_EVT n.val 4 = true ∧ (s'.seq n).results = rest ∧
      Frame [.clasp, .seqs] [.CL_MR_EVT] (atCluster n) s s' := by
  have hexec : execRoutineResultWrite t n s = .next ((resultTaken n rest (s.at t)).setRb .CL_MR_EVT n 4 true) := by
    unfold execRoutineResultWrite
    dsimp only
    rw [State.seq_at, hresults]
    dsimp only
    rw [State.rf_at, if_pos hout, resultTaken, State.seq_at]
  have hupd : Upd 0x101 (regMask [.CL_MR_EVT]) (atCluster n) s ((resultTaken n rest (s.at t)).setRb .CL_MR_EVT n 4 true) :=
    State.setRb_upd (resultTaken_upd (by decide)) (by decide +kernel) (RegOk.one rfl ⟨0, rfl⟩)
  refine ⟨_, hexec, State.rb_setRb_same _ _ _ _ _ (by omega), ?_, hupd.frame (by decide +kernel) (by decide +kernel)⟩
  rw [State.setRb, State.seq_setReg, resultTaken_seq]

/-- Settles O32: either way the result is taken off its queue; inside the window its bytes are stored. -/
theorem routineResultsWritten : Obligations.RoutineResultsWritten := by
  unfold Obligations.RoutineResultsWritten
  exact ⟨fun _ _ _ _ _ hresults hin hserved hadmits => routineResultWrite_written hresults hin hserved hadmits,
    fun _ _ _ _ _ hresults hout => routineResultWrite_dropped hresults hout⟩

end Sys2Proof.Machine
end

/-! # Time stamps and gates: obligations O34, O35

SUPPORT. What the end of a gate leaves; then the commands and events of gates; then the stamp DLL, the epoch and the stamp
window. -/

section
/-! ### The registers of a gate's result (R245, R249) -/

namespace Sys2Proof.Machine

variable {s : State} {n : Cluster} {c : Channel} {ix : Nat} {ws : RgResult}

/-- Words put into element ix of the registers paired with them leave other registers as they are. -/
theorem foldl_setReg_other {r : Reg} {i : Nat} (l : List (Reg × Word)) (s : State) (h : ∀ p ∈ l, r ≠ p.1) :
    (l.foldl (fun s p => s.setReg p.1 ix p.2) s).reg r i = s.reg r i := by
  induction l generalizing s with
  | nil => rfl
  | cons p l ih =>
    rw [List.foldl_cons, ih _ fun q hq => h q (List.mem_cons_of_mem _ hq), State.reg_setReg,
      if_neg fun e => h p (List.mem_cons_self ..) e.1]

/-- Distinct registers read the words put into them. -/
theorem map_foldl_setReg (l : List Reg) (ws : List Word) (s : State) (hnodup : l.Nodup) (hlen : ws.length = l.length) :
    l.map (fun r => ((l.zip ws).foldl (fun s p => s.setReg p.1 ix p.2) s).reg r ix) = ws := by
  induction l generalizing ws s with
  | nil => exact (List.eq_nil_of_length_eq_zero hlen).symm
  | cons r l ih =>
    obtain ⟨w, ws, rfl⟩ := List.exists_cons_of_length_eq_add_one hlen
    obtain ⟨hr, hl⟩ := List.nodup_cons.1 hnodup
    rw [List.zip_cons_cons, List.foldl_cons, List.map_cons, ih _ _ hl (Nat.succ.inj hlen),
      foldl_setReg_other _ _ fun p hp (e : r = p.1) => hr (e ▸ (List.of_mem_zip hp).1), State.reg_setReg_same]

theorem putRg_reg {r : Reg} {i : Nat} (h : r ∉ rgRegs) : (putRg ix ws s).reg r i = s.reg r i :=
  foldl_setReg_other _ _ fun _ hp e => h (e ▸ (List.of_mem_zip hp).1)

theorem putRg_result (h : ws.length = 15) : rgRegs.map (fun r => (putRg ix ws s).reg r ix) = ws :=
  map_foldl_setReg _ _ _ (by decide) h

theorem writeRg_reg {r : Reg} {i : Nat} (h : r ∉ rgRegs) : (writeRg n c ws s).reg r i = s.reg r i := by
  unfold writeRg; split
  · rfl
  · exact putRg_reg h

theorem writeRg_result (hlatched : (s.chan n c).rgLatched = false) (h : ws.length = 15) :
    rgRegs.map (fun r => (writeRg n c ws s).reg r (chIx n c)) = ws := by
  unfold writeRg
  rw [if_neg (by rw [hlatched]; decide)]
  exact putRg_result h

theorem writeRg_held (hlatched : (s.chan n c).rgLatched = true) : ((writeRg n c ws s).chan n c).rgHeld = some ws := by
  unfold writeRg
  rw [if_pos hlatched, State.chan_modChan]

/-- A claim about the registers of a result carries over between states that agree on them. -/
theorem result_congr {a b : State} (h : ∀ r ∈ rgRegs, b.reg r ix = a.reg r ix) :
    rgRegs.map (fun r => b.reg r ix) = rgRegs.map (fun r => a.reg r ix) := List.map_congr_left h

end Sys2Proof.Machine
end

section
/-! ### A gate ends (R240 to R245) -/

namespace Sys2Proof.Machine

variable {s : State} {n : Cluster} {c : Channel} {g : Gate} {cause : Nat} {stop goes : Bool}

theorem gateWords_length {ix : Nat} : (gateWords s ix g).length = 15 := by unfold gateWords; split <;> rfl

/-- CH_RG_STAT once gate g has ended: BUSY, NEW, VALID, OVERRUN and NORES, the gate's flags and END. -/
def gateStatus (g : Gate) (cause : Nat) (goes valid again nores : Bool) : Word :=
  BitVec.ofNat 32
    (b2n goes + 2 + 4 * b2n valid + 32 * b2n g.blanked + 64 * b2n g.changed + 128 * b2n g.bandSw + 256 * b2n g.stale +
     512 * b2n again + 1024 * b2n nores + 8192 * cause)

theorem gateStatus_fields {valid again nores : Bool} (hcause : cause < 8) :
    let w := gateStatus g cause goes valid again nores
    fld w 13 3 = cause ∧ bitOf w 0 = goes ∧ bitOf w 1 = true ∧ bitOf w 2 = valid ∧ bitOf w 4 = false ∧
      bitOf w 5 = g.blanked ∧ bitOf w 6 = g.changed ∧ bitOf w 7 = g.bandSw ∧ bitOf w 8 = g.stale ∧ bitOf w 9 = again := by
  intro w
  have hgoes := b2n_le goes
  have hvalid := b2n_le valid
  have hblanked := b2n_le g.blanked
  have hchanged := b2n_le g.changed
  have hband := b2n_le g.bandSw
  have hstale := b2n_le g.stale
  have hagain := b2n_le again
  have hnores := b2n_le nores
  have hnum : w.toNat = b2n goes + 2 + 4 * b2n valid + 32 * b2n g.blanked + 64 * b2n g.changed + 128 * b2n g.bandSw +
      256 * b2n g.stale + 512 * b2n again + 1024 * b2n nores + 8192 * cause := by
    rw [show w = gateStatus g cause goes valid again nores from rfl, gateStatus, BitVec.toNat_ofNat]
    exact Nat.mod_eq_of_lt (by omega)
  have hbit : ∀ k b, w.toNat / 2 ^ k % 2 = b2n b → bitOf w k = b := fun k b h => by
    rw [bitOf, ← BitVec.testBit_toNat, Nat.testBit_eq_decide_div_mod_eq, h, decide_b2n]
  have htrue : b2n true = 1 := rfl
  have hfalse : b2n false = 0 := rfl
  refine ⟨?_, hbit _ _ ?_, hbit _ _ ?_, hbit _ _ ?_, hbit _ _ ?_, hbit _ _ ?_, hbit _ _ ?_, hbit _ _ ?_, hbit _ _ ?_,
    hbit _ _ ?_⟩
  · rw [fld, hnum]; omega
  all_goals rw [hnum]; omega

/-- A valid result with too few stamps or intervals for a residual (R241, R247). -/
def gateNores (s : State) (ix : Nat) (g : Gate) : Bool :=
  gateValid s ix g && (if rgStats s ix then decide (g.n = 1) else decide (g.n = 2))

/-- The words written at the end of gate g, free ones where its result is not valid. -/
def resultWords (s : State) (ix : Nat) (g : Gate) : RgResult := if gateValid s ix g then gateWords s ix g else invalidWords s g

/-- The result of gate g is in place, with its status, DONE and its event. -/
def gateRecorded (n : Cluster) (c : Channel) (g : Gate) (cause : Nat) (goes : Bool) (s : State) : State :=
  let ix := chIx n c
  let stat := gateStatus g cause goes (gateValid s ix g) (s.rb .CH_RG_STAT ix 1) (gateNores s ix g)
  (((writeRg n c (resultWords s ix g) { s with free := s.free + 10 }).setReg .CH_RG_STAT ix stat).setRb .CL_TS_DONE n c.val
    true).setRb .CL_TS_EVT n 0 true

/-- Gate g makes way for the next of its series, or leaves the unit free. -/
def gateFollowed (n : Cluster) (c : Channel) (g : Gate) (len : Nat) (goes : Bool) (s : State) : State :=
  if goes then
    (s.modChan n c fun x => { x with gate := some (newGate g.g1 (g.g1 + len) true) }).setPair .CH_RG_TSTART_LO .CH_RG_TSTART_HI
      (chIx n c) g.g1
  else s.modChan n c fun x => { x with gate := none }

/-- The series goes on after this end (R242). -/
def gateGoes (s : State) (n : Cluster) (c : Channel) (cause : Nat) (stop : Bool) : Bool :=
  s.rb .CH_RG_CTRL (chIx n c) 3 && (decide (cause = 1) || decide (cause = 2)) && !stop

theorem endGate_eq (h : (s.chan n c).gate = some g) : endGate n c cause stop s =
    gateFollowed n c g (rgGlen s (chIx n c)) (gateGoes s n c cause stop)
      (gateRecorded n c g cause (gateGoes s n c cause stop) s) := by
  unfold endGate; rw [h]; rfl

theorem endGate_none (h : (s.chan n c).gate = none) : endGate n c cause stop s = s := by unfold endGate; rw [h]

section
variable {len : Nat}

theorem gateFollowed_reg {r : Reg} {i : Nat} (h : r ∉ [.CH_RG_TSTART_LO, .CH_RG_TSTART_HI]) :
    (gateFollowed n c g len goes s).reg r i = s.reg r i := by
  simp only [List.mem_cons, List.not_mem_nil, or_false, not_or] at h
  unfold gateFollowed; split
  · rw [State.setPair, State.reg_setReg, if_neg fun e => h.2 e.1, State.reg_setReg, if_neg fun e => h.1 e.1, State.reg_modChan]
  · rfl

theorem gateFollowed_chan : (gateFollowed n c g len goes s).chan n c =
    { s.chan n c with gate := if goes then some (newGate g.g1 (g.g1 + len) true) else none } := by
  unfold gateFollowed; split
  · rw [State.setPair, State.chan_setReg, State.chan_setReg, State.chan_modChan]
  · rw [State.chan_modChan]

end

theorem gateRecorded_stat : (gateRecorded n c g cause goes s).reg .CH_RG_STAT (chIx n c) =
    gateStatus g cause goes (gateValid s (chIx n c) g) (s.rb .CH_RG_STAT (chIx n c) 1) (gateNores s (chIx n c) g) := by
  rw [gateRecorded, State.reg_setRb, if_neg (by simp), State.reg_setRb, if_neg (by simp), State.reg_setReg_same]

theorem gateRecorded_done : (gateRecorded n c g cause goes s).rb .CL_TS_DONE n c.val = true := by
  rw [gateRecorded, State.rb_setRb _ _ _ _ _ _ _ _ (by decide), if_neg (by simp), State.rb_setRb_same _ _ _ _ _ (by omega)]

theorem gateRecorded_evt (b : Nat) : (gateRecorded n c g cause goes s).rb .CL_TS_EVT n b =
    if b = 0 then true else s.rb .CL_TS_EVT n b := by
  have hbefore : ∀ (u : State) (ws : RgResult) (v : Word),
      ((writeRg n c ws u).setReg .CH_RG_STAT (chIx n c) v).rb .CL_TS_EVT n b = u.rb .CL_TS_EVT n b := fun u ws v => by
    rw [State.rb, State.reg_setReg, if_neg (by simp), writeRg_reg (by decide)]; rfl
  rw [gateRecorded, State.rb_setRb _ _ _ _ _ _ _ _ (by decide), State.rb_setRb _ _ _ _ _ _ _ _ (by omega), hbefore]
  simp [State.rb, State.reg]

theorem gateRecorded_rgRegs {r : Reg} (h : r ∈ rgRegs) (i : Nat) : (gateRecorded n c g cause goes s).reg r i =
    (writeRg n c (resultWords s (chIx n c) g) { s with free := s.free + 10 }).reg r i := by
  have hne : r ≠ .CL_TS_EVT ∧ r ≠ .CL_TS_DONE ∧ r ≠ .CH_RG_STAT := by
    refine ⟨?_, ?_, ?_⟩ <;> rintro rfl <;> revert h <;> decide
  rw [gateRecorded, State.reg_setRb, if_neg fun e => hne.1 e.1, State.reg_setRb, if_neg fun e => hne.2.1 e.1,
    State.reg_setReg, if_neg fun e => hne.2.2 e.1]

theorem gateRecorded_held (hvalid : gateValid s (chIx n c) g = true) (hlatched : (s.chan n c).rgLatched = true) :
    ((gateRecorded n c g cause goes s).chan n c).rgHeld = some (gateWords s (chIx n c) g) := by
  rw [gateRecorded, State.chan_setRb, State.chan_setRb, State.chan_setReg, resultWords, if_pos hvalid]
  exact writeRg_held hlatched

/-- The end of a gate does what R242, R244 and R245 say. -/
theorem endGate_gateEnded (hgate : (s.chan n c).gate = some g) (hcause : cause < 8) :
    GateEnded n c g cause (gateGoes s n c cause stop) s (endGate n c cause stop s) := by
  rw [endGate_eq hgate]
  generalize gateGoes s n c cause stop = goes
  have hfields := gateStatus_fields (g := g) (goes := goes) (valid := gateValid s (chIx n c) g)
    (again := s.rb .CH_RG_STAT (chIx n c) 1) (nores := gateNores s (chIx n c) g) hcause
  rw [← gateRecorded_stat, ← gateFollowed_reg (len := rgGlen s (chIx n c)) (g := g) (goes := goes) (n := n) (c := c)
    (r := .CH_RG_STAT) (by decide)] at hfields
  obtain ⟨hend, hbusy, hnew, hvalid, hopen, hblanked, hchanged, hband, hstale, hagain⟩ := hfields
  refine ⟨hend, hbusy, hnew, hvalid, hopen, hblanked, hchanged, hband, hstale, hagain, ?_, ?_, fun hv hl => ?_,
    fun hv hl => ?_, by rw [gateFollowed_chan]⟩
  · rw [State.rb, gateFollowed_reg (by decide)]; exact gateRecorded_done
  · rw [State.rb, gateFollowed_reg (by decide)]; exact gateRecorded_evt 0
  · rw [result_congr (a := writeRg n c (gateWords s (chIx n c) g) { s with free := s.free + 10 }) fun r hr => ?_]
    · exact writeRg_result hl gateWords_length
    · rw [gateFollowed_reg (by revert r; decide), gateRecorded_rgRegs hr, resultWords, if_pos hv]
  · rw [gateFollowed_chan]; exact gateRecorded_held hv hl

/-- Events other than the gate's own stay (R242). -/
theorem endGate_evt (b : Nat) (hb : b ≠ 0) : (endGate n c cause stop s).rb .CL_TS_EVT n b = s.rb .CL_TS_EVT n b := by
  cases hgate : (s.chan n c).gate with
  | none => rw [endGate_none hgate]
  | some g => rw [endGate_eq hgate, State.rb, gateFollowed_reg (by decide), ← State.rb, gateRecorded_evt, if_neg hb]

theorem endGate_gate (h1 : cause ≠ 1) (h2 : cause ≠ 2) : ((endGate n c cause stop s).chan n c).gate = none := by
  obtain ⟨g, h, hchan, hnone⟩ := endGate_chan (s := s) (n := n) (c := c) cause stop
  rw [hchan]; exact hnone h1 h2

theorem gateGoes_stop : gateGoes s n c cause true = false := by rw [gateGoes, Bool.not_true, Bool.and_false]
theorem gateGoes_at_end : gateGoes s n c 1 false = s.rb .CH_RG_CTRL (chIx n c) 3 := by simp [gateGoes]
theorem gateGoes_other (h1 : cause ≠ 1) (h2 : cause ≠ 2) : gateGoes s n c cause stop = false := by simp [gateGoes, h1, h2]

end Sys2Proof.Machine
end

section
/-! ### START and STOP of a gate (R238, R242, R243) -/

namespace Sys2Proof.Machine

variable {s : State} {n : Cluster} {c : Channel} {g : Gate} {d m : Word} {q : Req} {t : Nat}

/-! The write of CH_RG_CTRL. -/

theorem cmdWrite_rgCtrl {set : Word} (h : Accepted q .CH_RG_CTRL (chIx n c) (d ||| set) s) :
    cmdWrite q .CH_RG_CTRL (chIx n c) d set s = ungate n.val (rgCtrlWrite n c (d ||| set) 0xFFFFFFFF#32 s) := by
  have hof : Reg.cluOf .CH_RG_CTRL (chIx n c) = n.val := by unfold Reg.cluOf chIx; simp only [Reg.row]; omega
  obtain ⟨s', hput, hwrite⟩ := cmdWrite_cluster (by decide) rfl (chIx_lt_size rfl rfl) hof h
  unfold cluPut at hput
  rw [elemCh_chIx] at hput
  cases hput
  exact hwrite

/-- The word that a write stores in CH_RG_CTRL, of which m are the bits that act. -/
def rgCtrlStored (n : Cluster) (c : Channel) (d m : Word) (s : State) : State := plainWrite .CH_RG_CTRL (chIx n c) d m s

theorem rgCtrlStored_reg {r : Reg} {i : Nat} (h : r ≠ .CH_RG_CTRL) : (rgCtrlStored n c d m s).reg r i = s.reg r i :=
  (plainWrite_reg ..).trans (if_neg fun e => h e.1)
theorem rgCtrlStored_chan : (rgCtrlStored n c d m s).chan n c = s.chan n c := rfl
theorem rgCtrlStored_clasp : (rgCtrlStored n c d m s).clasp = s.clasp := rfl

theorem rgCtrlStored_upd {K R : Nat} {C : Nat → Nat → Prop} {s0 : State} (h : Upd K R C s0 s)
    (hr : R.testBit (Reg.ctorIdx .CH_RG_CTRL) = true) (hc : C n.val c.val) : Upd K R C s0 (rgCtrlStored n c d m s) :=
  plainWrite_upd h hr (RegOk.chan rfl hc)

/-- A plain write leaves the bits that it does not cover as they were. -/
theorem plainWord_agree {r : Reg} {i : Nat} {k : Word} (hrw : r.rwOf i &&& m &&& k = 0#32)
    (hw1c : r.row.w1c &&& m &&& k = 0#32) : (plainWord s r i d m ^^^ s.reg r i) &&& k = 0#32 := by
  apply BitVec.eq_of_getLsbD_eq
  intro j hj
  have hrw := congrArg (BitVec.getLsbD · j) hrw
  have hw1c := congrArg (BitVec.getLsbD · j) hw1c
  simp only [plainWord, mergeRw, BitVec.getLsbD_and, BitVec.getLsbD_xor, BitVec.getLsbD_or, BitVec.getLsbD_not,
    BitVec.getLsbD_zero, hj, decide_true, Bool.true_and] at hrw hw1c ⊢
  cases hk : k.getLsbD j with
  | false => exact Bool.and_false _
  | true =>
    cases hm : m.getLsbD j with
    | false => simp
    | true =>
      rw [hk, hm, Bool.and_true, Bool.and_true] at hrw hw1c
      simp [hrw, hw1c]

/-- While the unit is busy START, STOP and CONT alone act (R238), so MODE stays. -/
theorem rgStats_busy : rgStats (rgCtrlStored n c d 0xB#32 s) (chIx n c) = rgStats s (chIx n c) := by
  have hrw : Reg.rwOf .CH_RG_CTRL (chIx n c) = 0x1FC#32 := rfl
  have hagree := plainWord_agree (s := s) (d := d) (r := .CH_RG_CTRL) (i := chIx n c) (m := 0xB#32) (k := 0x60#32)
    (by rw [hrw]; decide) (by decide)
  unfold rgStats State.rf rgCtrlStored
  rw [plainWrite_same, fld_eq_of_agree hagree (by decide) (by decide)]

/-! Starts that nothing holds. -/

theorem startLevel_free {kind e : Nat} {go : State → State} (h : StartsFree n s) : startLevel n kind e go s = go s := by
  obtain ⟨hlevel, hintr, hasy, hstep⟩ := h
  unfold startLevel startOr calAbandon
  rw [if_neg (by omega), hintr, hasy, hstep]
  rfl

theorem StartsFree.stored (h : StartsFree n s) : StartsFree n (rgCtrlStored n c d m (s.at t)) := by
  have hreg : ∀ r i, r ≠ .CH_RG_CTRL → (rgCtrlStored n c d m (s.at t)).reg r i = s.reg r i := fun r i hr => by
    rw [rgCtrlStored_reg hr, State.reg_at]
  obtain ⟨hlevel, hintr, hasy, hstep⟩ := h
  unfold StartsFree calIntrOn asyBusy calStepOn State.rb
  rw [govLevel_congr (hreg _ _ (by decide)), hreg _ _ (by decide), hreg _ _ (by decide)]
  exact ⟨hlevel, hintr, hasy, hstep⟩

/-! START. -/

/-- G0 of a START. -/
def gateStart (n : Cluster) (c : Channel) (s : State) : Nat :=
  if s.rb .CH_RG_CTRL (chIx n c) 2 then s.pair .CH_RG_TSTART_LO .CH_RG_TSTART_HI (chIx n c) else startGrid s.clasp

/-- A gate is armed from g0, and shown. -/
def gateArmed (n : Cluster) (c : Channel) (g0 : Nat) (s : State) : State :=
  ((s.setPair .CH_RG_TSTART_LO .CH_RG_TSTART_HI (chIx n c) g0).setRb .CH_RG_STAT (chIx n c) 0 true).modChan n c fun x =>
    { x with gate := some (newGate g0 (g0 + rgGlen s (chIx n c)) false) }

theorem rgStart_eq (hidle : s.rb .CH_RG_STAT (chIx n c) 0 = false) : rgStart n c s =
    if gateStart n c s < s.clasp + 256 then endGate n c 7 true (gateArmed n c (gateStart n c s) s)
    else gateArmed n c (gateStart n c s) s := by
  unfold rgStart
  dsimp only
  rw [hidle, if_neg Bool.false_ne_true]
  rfl

theorem gateArmed_chan {g0 : Nat} : (gateArmed n c g0 s).chan n c =
    { s.chan n c with gate := some (newGate g0 (g0 + rgGlen s (chIx n c)) false) } := by
  rw [gateArmed, State.chan_modChan, State.chan_setRb, State.setPair, State.chan_setReg, State.chan_setReg]

theorem gateArmed_busy {g0 : Nat} : (gateArmed n c g0 s).rb .CH_RG_STAT (chIx n c) 0 = true := by
  rw [gateArmed, State.rb, State.reg_modChan, ← State.rb, State.rb_setRb_same _ _ _ _ _ (by decide)]

theorem gateArmed_tstart {g0 : Nat} (h : g0 < 2 ^ 64) :
    (gateArmed n c g0 s).pair .CH_RG_TSTART_LO .CH_RG_TSTART_HI (chIx n c) = g0 := by
  refine Eq.trans ?_ ((ofWords_lo_hi g0).trans (Nat.mod_eq_of_lt h))
  simp [State.pair, gateArmed, State.setPair, State.reg_setRb, State.reg_setReg]

theorem gateArmed_upd {K R : Nat} {C : Nat → Nat → Prop} {s0 : State} {g0 : Nat} (h : Upd K R C s0 s) (hk : 0x40 ||| K = K)
    (hr : regMask [.CH_RG_STAT, .CH_RG_TSTART_LO, .CH_RG_TSTART_HI] ||| R = R) (hc : C n.val c.val) :
    Upd K R C s0 (gateArmed n c g0 s) :=
  have hbit : ∀ r : Reg, (regMask [.CH_RG_STAT, .CH_RG_TSTART_LO, .CH_RG_TSTART_HI]).testBit r.ctorIdx = true →
      R.testBit r.ctorIdx = true := fun _ hin => testBit_of_sub hr hin
  State.modChan_upd (State.setRb_upd (State.setPair_upd h (hbit _ (by decide +kernel)) (RegOk.chan rfl hc)
    (hbit _ (by decide +kernel)) (RegOk.chan rfl hc)) (hbit _ (by decide +kernel)) (RegOk.chan rfl hc)) hk hc

theorem rgCtrlWrite_start (hidle : s.rb .CH_RG_STAT (chIx n c) 0 = false) (h0 : bitOf d 0 = true) (h1 : bitOf d 1 = false)
    (hfree : StartsFree n (rgCtrlStored n c d 0xFFFFFFFF#32 s)) :
    rgCtrlWrite n c d 0xFFFFFFFF#32 s = rgStart n c (rgCtrlStored n c d 0xFFFFFFFF#32 s) := by
  unfold rgCtrlWrite
  dsimp only
  rw [hidle, ones_full, h1, ones_full, h0, if_neg Bool.false_ne_true, if_neg Bool.false_ne_true, if_pos rfl]
  exact startLevel_free hfree

/-- A START of a unit that is free, with nothing that holds it, is the start of a gate under the word stored. -/
theorem exec_rgStart (hacc : Accepted q .CH_RG_CTRL (chIx n c) (d ||| 1#32) (s.at t)) (h1 : bitOf d 1 = false)
    (hidle : s.rb .CH_RG_STAT (chIx n c) 0 = false) (hfree : StartsFree n s) :
    exec (.rgStart t q n c d) s =
      .next (ungate n.val (rgStart n c (rgCtrlStored n c (d ||| 1#32) 0xFFFFFFFF#32 (s.at t)))) := by
  have h0 : bitOf (d ||| 1#32) 0 = true := by rw [bitOf_or]; simp [bitOf]
  have h1' : bitOf (d ||| 1#32) 1 = false := by rw [bitOf_or, h1]; simp [bitOf]
  show execRgStart t q n c d s = _
  rw [execRgStart, cmdWrite_rgCtrl hacc, rgCtrlWrite_start (by rw [State.rb_at, hidle]) h0 h1' hfree.stored]

/-- TMODE acts as the START writes it. -/
theorem gateStart_stored : gateStart n c (rgCtrlStored n c (d ||| 1#32) 0xFFFFFFFF#32 (s.at t)) =
    if bitOf d 2 then s.pair .CH_RG_TSTART_LO .CH_RG_TSTART_HI (chIx n c) else startGrid (s.at t).clasp := by
  have hmode : (rgCtrlStored n c (d ||| 1#32) 0xFFFFFFFF#32 (s.at t)).rb .CH_RG_CTRL (chIx n c) 2 = bitOf d 2 := by
    rw [rgCtrlStored, State.rb, plainWrite_same, bitOf_plainWord _ _ _ _ _ (by omega), bitOf_or]
    simp [bitOf, Reg.rwOf, Reg.row]
  rw [gateStart, hmode, State.pair, rgCtrlStored_reg (by decide), rgCtrlStored_reg (by decide), State.reg_at, State.reg_at]
  rfl

theorem rgGlen_stored : rgGlen (rgCtrlStored n c d m (s.at t)) (chIx n c) = rgGlen s (chIx n c) := by
  rw [rgGlen, State.pair, rgCtrlStored_reg (by decide), rgCtrlStored_reg (by decide), State.reg_at, State.reg_at]; rfl

theorem rgCtrlStored_idle (h : s.rb .CH_RG_STAT (chIx n c) 0 = false) :
    (rgCtrlStored n c d m (s.at t)).rb .CH_RG_STAT (chIx n c) 0 = false := by
  rw [State.rb, rgCtrlStored_reg (by decide), State.reg_at]; exact h

theorem rgStart_armed {g0 : Nat} (hacc : Accepted q .CH_RG_CTRL (chIx n c) (d ||| 1#32) (s.at t)) (h1 : bitOf d 1 = false)
    (hidle : s.rb .CH_RG_STAT (chIx n c) 0 = false) (hfree : StartsFree n s)
    (hg0 : (if bitOf d 2 then s.pair .CH_RG_TSTART_LO .CH_RG_TSTART_HI (chIx n c) else startGrid (s.at t).clasp) = g0)
    (hearly : (s.at t).clasp + 256 ≤ g0) (hlt : g0 < 2 ^ 64) :
    ∃ s', exec (.rgStart t q n c d) s = .next s' ∧ s'.rb .CH_RG_STAT (chIx n c) 0 = true ∧
      s'.pair .CH_RG_TSTART_LO .CH_RG_TSTART_HI (chIx n c) = g0 ∧
      (s'.chan n c).gate = some (newGate g0 (g0 + rgGlen s (chIx n c)) false) ∧
      Frame [.clasp, .chans] [.CH_RG_CTRL, .CH_RG_STAT, .CH_RG_TSTART_LO, .CH_RG_TSTART_HI, .PWR_CLU_GATE] (atChannel n c)
        s s' := by
  have hexec := exec_rgStart hacc h1 hidle hfree
  rw [rgStart_eq (rgCtrlStored_idle hidle), gateStart_stored, hg0, rgCtrlStored_clasp, if_neg (by omega)] at hexec
  have hupd : Upd 0x40 (regMask [.CH_RG_CTRL, .CH_RG_STAT, .CH_RG_TSTART_LO, .CH_RG_TSTART_HI]) (atChannel n c) (s.at t)
      (gateArmed n c g0 (rgCtrlStored n c (d ||| 1#32) 0xFFFFFFFF#32 (s.at t))) :=
    gateArmed_upd (rgCtrlStored_upd Upd.refl (by decide +kernel) ⟨rfl, rfl⟩) (by decide) (by decide +kernel) ⟨rfl, rfl⟩
  refine ⟨_, hexec, (ungate_rb (by decide)).trans gateArmed_busy, ?_, ?_,
    (cmdWrite_frame hupd).frame (by decide +kernel) (by decide +kernel)⟩
  · rw [State.pair, ungate_reg (by decide), ungate_reg (by decide)]; exact gateArmed_tstart hlt
  · rw [ungate_chan, gateArmed_chan, rgGlen_stored]

theorem rgStart_late (hacc : Accepted q .CH_RG_CTRL (chIx n c) (d ||| 1#32) (s.at t)) (h1 : bitOf d 1 = false)
    (h2 : bitOf d 2 = true) (hidle : s.rb .CH_RG_STAT (chIx n c) 0 = false) (hfree : StartsFree n s)
    (hlate : s.pair .CH_RG_TSTART_LO .CH_RG_TSTART_HI (chIx n c) < (s.at t).clasp + 256) :
    ∃ s', exec (.rgStart t q n c d) s = .next s' ∧ s'.rb .CH_RG_STAT (chIx n c) 0 = false ∧
      s'.rf .CH_RG_STAT (chIx n c) 13 3 = 7 ∧ (s'.chan n c).gate = none ∧ s'.rb .CL_TS_EVT n.val 0 = true ∧
      Frame [.clasp, .chans, .free] (.CH_RG_CTRL :: .PWR_CLU_GATE :: gateRegs) (atChannel n c) s s' := by
  have hexec := exec_rgStart hacc h1 hidle hfree
  have hupd : Upd 0x400000000000040 (regMask (.CH_RG_CTRL :: gateRegs)) (atChannel n c) (s.at t)
      (rgStart n c (rgCtrlStored n c (d ||| 1#32) 0xFFFFFFFF#32 (s.at t))) :=
    rgStart_upd (rgCtrlStored_upd Upd.refl (by decide +kernel) ⟨rfl, rfl⟩) (by decide) (by decide +kernel) ⟨rfl, rfl⟩
  have hstart := rgStart_eq (rgCtrlStored_idle (d := d ||| 1#32) (m := 0xFFFFFFFF#32) (t := t) hidle)
  rw [gateStart_stored, if_pos h2, rgCtrlStored_clasp, if_pos hlate] at hstart
  obtain ⟨hend, hbusy, -, -, -, -, -, -, -, -, -, hevt, -, -, hgate⟩ := endGate_gateEnded (cause := 7) (stop := true)
    (congrArg Chan.gate (gateArmed_chan (s := rgCtrlStored n c (d ||| 1#32) 0xFFFFFFFF#32 (s.at t))
      (g0 := s.pair .CH_RG_TSTART_LO .CH_RG_TSTART_HI (chIx n c)))) (by decide)
  rw [← hstart] at hend hbusy hevt hgate
  rw [gateGoes_stop] at hbusy hgate
  exact ⟨_, hexec, (ungate_rb (by decide)).trans hbusy, (ungate_rf (by decide)).trans hend, by rw [ungate_chan, hgate]; rfl,
    (ungate_rb (by decide)).trans hevt, (cmdWrite_frame hupd).frame (by decide +kernel) (by decide +kernel)⟩

/-! STOP. -/

theorem rgCtrlStored_waits : rgWaits (rgCtrlStored n c d m s) n c = rgWaits s n c := rfl

theorem rgStop_ends (hgate : (s.chan n c).gate = some g) (hwaits : rgWaits s n c = false) :
    rgStop n c s = endGate n c (if g.g1 ≤ s.clasp then 1 else 3) true s := by
  unfold rgStop
  rw [hgate, hwaits]
  dsimp only
  rw [if_neg Bool.false_ne_true]
  split <;> rfl

theorem rgStop_drops (hwaits : rgWaits s n c = true) : rgStop n c s = rgDrop n c s := by
  cases hgate : (s.chan n c).gate with
  | none => simp [rgWaits, hgate] at hwaits
  | some g => unfold rgStop; rw [hgate]; exact if_pos hwaits

theorem rgDrop_gate : ((rgDrop n c s).chan n c).gate = none := by rw [rgDrop, State.chan_setRb, State.chan_modChan]

theorem rgDrop_stat : (rgDrop n c s).reg .CH_RG_STAT (chIx n c) = putBit (s.reg .CH_RG_STAT (chIx n c)) 0 false := by
  rw [rgDrop, State.reg_setRb, if_pos ⟨rfl, rfl⟩, State.reg_modChan]

/-- STOP of a unit that is free does nothing. -/
theorem rgStop_free (hgate : (s.chan n c).gate = none) : rgStop n c s = s := by unfold rgStop; rw [hgate]

/-- A STOP of a busy unit; where the series waits, clearing CONT and STOP both drop it. -/
theorem rgCtrlWrite_stop (hbusy : s.rb .CH_RG_STAT (chIx n c) 0 = true) (h1 : bitOf d 1 = true) :
    rgCtrlWrite n c d 0xFFFFFFFF#32 s = rgStop n c (rgCtrlStored n c d 0xB#32 s) := by
  have hmask : (0xFFFFFFFF#32 : Word) &&& 0xB#32 = 0xB#32 := by decide
  unfold rgCtrlWrite
  dsimp only
  rw [hbusy, ones_full, h1, if_pos rfl, if_pos rfl, hmask, ← rgCtrlStored]
  split
  · rename_i hdrop
    have hwaits : rgWaits (rgCtrlStored n c d 0xB#32 s) n c = true := (Bool.and_eq_true_iff.1 hdrop).2
    rw [rgStop_free rgDrop_gate, rgStop_drops hwaits]
  · rfl

theorem exec_rgStop (hacc : Accepted q .CH_RG_CTRL (chIx n c) (d ||| 2#32) (s.at t))
    (hbusy : s.rb .CH_RG_STAT (chIx n c) 0 = true) :
    exec (.rgStop t q n c d) s = .next (ungate n.val (rgStop n c (rgCtrlStored n c (d ||| 2#32) 0xB#32 (s.at t)))) := by
  have h1 : bitOf (d ||| 2#32) 1 = true := by rw [bitOf_or]; simp [bitOf]
  show execRgStop t q n c d s = _
  rw [execRgStop, cmdWrite_rgCtrl hacc, rgCtrlWrite_stop (by rw [State.rb_at, hbusy]) h1]

/-- GateEnded asks of the states only what the unit's registers and the channel's record hold. -/
theorem GateEnded.congr {a b a' b' : State} {cause : Nat} {goes : Bool} (h : GateEnded n c g cause goes a b)
    (hstats : rgStats a' (chIx n c) = rgStats a (chIx n c)) (hreg : ∀ r i, r ≠ .CH_RG_CTRL → a'.reg r i = a.reg r i)
    (hchan : a'.chan n c = a.chan n c) (hreg' : ∀ r i, r ≠ .PWR_CLU_GATE → b'.reg r i = b.reg r i)
    (hchan' : b'.chan n c = b.chan n c) : GateEnded n c g cause goes a' b' := by
  have hglen : rgGlen a' (chIx n c) = rgGlen a (chIx n c) := by
    rw [rgGlen, State.pair, hreg _ _ (by decide), hreg _ _ (by decide)]; rfl
  have hvalid : gateValid a' (chIx n c) g = gateValid a (chIx n c) g := by rw [gateValid, hstats]; rfl
  have hwords : gateWords a' (chIx n c) g = gateWords a (chIx n c) g := by rw [gateWords, hstats]; rfl
  have hresult := result_congr (ix := chIx n c) (a := b) (b := b') fun r hr => hreg' r _ (by rintro rfl; revert hr; decide)
  unfold GateEnded State.rf State.rb at h ⊢
  rwa [hglen, hvalid, hwords, hresult, hchan, hchan', hreg _ _ (by decide), hreg' _ _ (by decide), hreg' _ _ (by decide),
    hreg' _ _ (by decide)]

theorem rgStop_ended (hacc : Accepted q .CH_RG_CTRL (chIx n c) (d ||| 2#32) (s.at t))
    (hbusy : s.rb .CH_RG_STAT (chIx n c) 0 = true) (hgate : (s.chan n c).gate = some g)
    (hwaits : rgWaits (s.at t) n c = false) :
    ∃ s', exec (.rgStop t q n c d) s = .next s' ∧ GateEnded n c g (if g.g1 ≤ (s.at t).clasp then 1 else 3) false s s' ∧
      Frame [.clasp, .chans, .free] (.CH_RG_CTRL :: .PWR_CLU_GATE :: gateRegs) (atChannel n c) s s' := by
  have hchan : (rgCtrlStored n c (d ||| 2#32) 0xB#32 (s.at t)).chan n c = s.chan n c := State.chan_at ..
  have hstop := rgStop_ends (hchan.symm ▸ hgate) (rgCtrlStored_waits.trans hwaits)
  have hended := endGate_gateEnded (cause := if g.g1 ≤ (s.at t).clasp then 1 else 3) (stop := true) (hchan.symm ▸ hgate)
    (by split <;> decide)
  rw [rgCtrlStored_clasp] at hstop
  rw [gateGoes_stop, ← hstop] at hended
  have hupd : Upd 0x400000000000040 (regMask (.CH_RG_CTRL :: gateRegs)) (atChannel n c) (s.at t)
      (rgStop n c (rgCtrlStored n c (d ||| 2#32) 0xB#32 (s.at t))) :=
    rgStop_upd (rgCtrlStored_upd Upd.refl (by decide +kernel) ⟨rfl, rfl⟩) (by decide) (by decide +kernel) ⟨rfl, rfl⟩
  have hstats : rgStats s (chIx n c) = rgStats (s.at t) (chIx n c) := by rw [rgStats, rgStats, State.rf_at]
  exact ⟨_, exec_rgStop hacc hbusy, hended.congr (hstats.trans rgStats_busy.symm)
    (fun r i hr => by rw [rgCtrlStored_reg hr, State.reg_at]) hchan.symm (fun r i hr => ungate_reg hr) (ungate_chan _),
    (cmdWrite_frame hupd).frame (by decide +kernel) (by decide +kernel)⟩

theorem rgStop_dropped (hacc : Accepted q .CH_RG_CTRL (chIx n c) (d ||| 2#32) (s.at t))
    (hbusy : s.rb .CH_RG_STAT (chIx n c) 0 = true) (hwaits : rgWaits (s.at t) n c = true) :
    ∃ s', exec (.rgStop t q n c d) s = .next s' ∧ (s'.chan n c).gate = none ∧
      s'.reg .CH_RG_STAT (chIx n c) = putBit (s.reg .CH_RG_STAT (chIx n c)) 0 false ∧
      Frame [.clasp, .chans] [.CH_RG_CTRL, .CH_RG_STAT, .PWR_CLU_GATE] (atChannel n c) s s' := by
  have hexec := exec_rgStop hacc hbusy
  rw [rgStop_drops (rgCtrlStored_waits.trans hwaits)] at hexec
  have hupd : Upd 0x40 (regMask [.CH_RG_CTRL, .CH_RG_STAT]) (atChannel n c) (s.at t)
      (rgDrop n c (rgCtrlStored n c (d ||| 2#32) 0xB#32 (s.at t))) :=
    rgDrop_upd (rgCtrlStored_upd Upd.refl (by decide +kernel) ⟨rfl, rfl⟩) (by decide) (by decide +kernel) ⟨rfl, rfl⟩
  refine ⟨_, hexec, by rw [ungate_chan, rgDrop_gate], ?_, (cmdWrite_frame hupd).frame (by decide +kernel) (by decide +kernel)⟩
  rw [ungate_reg (by decide), rgDrop_stat, rgCtrlStored_reg (by decide), State.reg_at]

end Sys2Proof.Machine
end

section
/-! ### A gate opens and ends, and its status is read (R239, R242 to R245) -/

namespace Sys2Proof.Machine

variable {s : State} {n : Cluster} {c : Channel} {g : Gate} {t : Nat} {q : Req}

/-- Gate g as it opens: what is so at that moment marks it (R244). -/
def openedGate (n : Cluster) (c : Channel) (s : State) (g : Gate) : Gate :=
  { g with waiting := false, blanked := g.blanked || s.rb .CH_CMP_STAT (chIx n c) 4, stale := g.stale || s.rb .CL_TIM_STAT n 8 }

theorem execRgGateOpen_due (hgate : (s.chan n c).gate = some g) (hdue : g.g0 ≤ (s.at t).clasp)
    (hshut : s.rb .CH_RG_STAT (chIx n c) 4 = false) : execRgGateOpen t n c s =
      .next (modGate n c (openedGate n c (s.at t)) ((s.at t).setRb .CH_RG_STAT (chIx n c) 4 true)) := by
  have hopen : gateOpen (s.at t) n c = true := by unfold gateOpen; rw [State.chan_at, hgate]; exact decide_eq_true hdue
  unfold execRgGateOpen
  dsimp only
  rw [if_pos ⟨hopen, by rw [State.rb_at, hshut]; rfl⟩]
  rfl

theorem rgGateOpen_holds (hgate : (s.chan n c).gate = some g) (hdue : g.g0 ≤ (s.at t).clasp)
    (hshut : s.rb .CH_RG_STAT (chIx n c) 4 = false) :
    ∃ s', exec (.rgGateOpen t n c) s = .next s' ∧
      s'.reg .CH_RG_STAT (chIx n c) = putBit (s.reg .CH_RG_STAT (chIx n c)) 4 true ∧
      (s'.chan n c).gate = some (openedGate n c s g) ∧ Frame [.clasp, .chans] [.CH_RG_STAT] (atChannel n c) s s' := by
  have hexec := execRgGateOpen_due hgate hdue hshut
  have hupd := execRgGateOpen_upd (t := t) (C := atChannel n c) (Upd.refl (s := s)) (Nat.or_self _) (Nat.or_self _) ⟨rfl, rfl⟩
  rw [hexec] at hupd
  refine ⟨_, hexec, ?_, ?_, hupd.frame (by decide +kernel) (by decide +kernel)⟩
  · rw [modGate, State.reg_modChan, State.reg_setRb, if_pos ⟨rfl, rfl⟩, State.reg_at]
  · rw [modGate, State.chan_modChan, State.chan_setRb, State.chan_at, hgate, Option.map_some, openedGate, State.rb_at,
      State.rb_at]
    rfl

theorem execRgGateEnd_due (hgate : (s.chan n c).gate = some g) (hdue : g.g1 ≤ (s.at t).clasp) :
    execRgGateEnd t n c s = .next (endGate n c 1 false (s.at t)) := by
  unfold execRgGateEnd
  dsimp only
  rw [State.chan_at, hgate]
  exact congrArg Host.Outcome.next (if_pos hdue)

theorem rgGateEnd_holds (hgate : (s.chan n c).gate = some g) (hdue : g.g1 ≤ (s.at t).clasp) :
    ∃ s', exec (.rgGateEnd t n c) s = .next s' ∧ GateEnded n c g 1 (s.rb .CH_RG_CTRL (chIx n c) 3) s s' ∧
      Frame [.clasp, .chans, .free] gateRegs (atChannel n c) s s' := by
  have hexec := execRgGateEnd_due hgate hdue
  have hupd := execRgGateEnd_upd (t := t) (C := atChannel n c) (Upd.refl (s := s)) (Nat.or_self _) (Nat.or_self _) ⟨rfl, rfl⟩
  rw [hexec] at hupd
  have hended := endGate_gateEnded (s := s.at t) (cause := 1) (stop := false) ((State.chan_at ..).symm ▸ hgate) (by decide)
  rw [gateGoes_at_end, State.rb_at] at hended
  exact ⟨_, hexec, hended.congr (by rw [rgStats, rgStats, State.rf_at]) (fun _ _ _ => (State.reg_at ..).symm)
    (State.chan_at ..).symm (fun _ _ _ => rfl) rfl, hupd.frame (by decide +kernel) (by decide +kernel)⟩

/-! The status is read (R245). -/

/-- A served read of an ACTIVE part gives what the address reads. -/
theorem hostRead_active {a : Nat} (hserved : served s q = true) (hactive : pwrState s = 2) :
    hostRead q a s = (readAt q a s).2.emit (.regRead q.val a (readAt q a s).1) := by
  have hawake : hostWakes s = s := by unfold hostWakes; rw [if_neg (by omega)]
  unfold hostRead
  dsimp only
  rw [if_neg (by simp [hserved]), hawake, ite_self, if_neg (by omega)]

theorem readAt_rgStat : readAt q (Reg.addr .CH_RG_STAT (chIx n c)) s =
    (s.reg .CH_RG_STAT (chIx n c), rgStatTake n c s) := by
  have hsize : chIx n c < Reg.CH_RG_STAT.size := chIx_lt_size rfl rfl
  have hwindow := (addr_window (r := .CH_RG_STAT) (by decide) rfl hsize).1
  have hclu : elemClu .CH_RG_STAT (chIx n c) = n :=
    Fin.ext (by show (n.val * 32 + c.val) / 32 % 24 = n.val; omega)
  unfold readAt
  rw [if_neg (by rw [addr_word (by decide)]; simp), if_neg (by omega), if_neg (by omega), regAt_addr (by decide) hsize]
  unfold regRead
  dsimp only
  rw [hclu, elemCh_chIx]
  rfl

theorem rgStatTake_chan : (rgStatTake n c s).chan n c = { s.chan n c with rgLatched := true, rgHeld := none } := by
  have hput : ∀ (u : State) (ws : RgResult), (putRg (chIx n c) ws u).chan n c = u.chan n c := fun u ws =>
    putRg_other _ _ (fun s => s.chan n c) fun _ _ _ _ => rfl
  unfold rgStatTake
  dsimp only
  rw [State.chan_modChan]
  split
  · rw [hput, State.chan_setRb, State.chan_setRb]
  · rfl

/-- NEW and the unit's bit of CL_TS_DONE are clear. -/
def rgStatSeen (n : Cluster) (c : Channel) (s : State) : State :=
  (s.setRb .CH_RG_STAT (chIx n c) 1 false).setRb .CL_TS_DONE n c.val false

theorem rgStatSeen_reg {r : Reg} {i : Nat} (h : r ∉ [.CH_RG_STAT, .CL_TS_DONE]) : (rgStatSeen n c s).reg r i = s.reg r i := by
  simp only [List.mem_cons, List.not_mem_nil, or_false, not_or] at h
  rw [rgStatSeen, State.reg_setRb, if_neg fun e => h.2 e.1, State.reg_setRb, if_neg fun e => h.1 e.1]

theorem rgStatTake_reg_held {ws : RgResult} (h : (s.chan n c).rgHeld = some ws) (r : Reg) (i : Nat) :
    (rgStatTake n c s).reg r i = (putRg (chIx n c) ws (rgStatSeen n c s)).reg r i := by
  unfold rgStatTake; dsimp only; rw [h]; rfl

theorem rgStatTake_reg_none (h : (s.chan n c).rgHeld = none) (r : Reg) (i : Nat) :
    (rgStatTake n c s).reg r i = (rgStatSeen n c s).reg r i := by
  unfold rgStatTake; dsimp only; rw [h]; rfl

theorem rgStatTake_flags {r : Reg} {i : Nat} (h : r ∉ rgRegs) : (rgStatTake n c s).reg r i = (rgStatSeen n c s).reg r i := by
  cases hheld : (s.chan n c).rgHeld with
  | some ws => rw [rgStatTake_reg_held hheld, putRg_reg h]
  | none => exact rgStatTake_reg_none hheld ..

theorem rgStatTake_stat : (rgStatTake n c s).reg .CH_RG_STAT (chIx n c) = putBit (s.reg .CH_RG_STAT (chIx n c)) 1 false := by
  rw [rgStatTake_flags (by decide), rgStatSeen, State.reg_setRb, if_neg (by simp), State.reg_setRb, if_pos ⟨rfl, rfl⟩]

theorem rgStatTake_done : (rgStatTake n c s).reg .CL_TS_DONE n = putBit (s.reg .CL_TS_DONE n) c.val false := by
  rw [rgStatTake_flags (by decide), rgStatSeen, State.reg_setRb, if_pos ⟨rfl, rfl⟩, State.reg_setRb, if_neg (by simp)]

/-- A result held back by the latch is taken. -/
theorem rgStatTake_held {ws : RgResult} (h : (s.chan n c).rgHeld = some ws) (hlen : ws.length = 15) :
    rgRegs.map (fun r => (rgStatTake n c s).reg r (chIx n c)) = ws :=
  (result_congr fun _ _ => rgStatTake_reg_held h ..).trans (putRg_result hlen)

theorem rgStatTake_none (h : (s.chan n c).rgHeld = none) :
    rgRegs.map (fun r => (rgStatTake n c s).reg r (chIx n c)) = rgRegs.map fun r => s.reg r (chIx n c) :=
  result_congr fun r hr => (rgStatTake_reg_none h ..).trans (rgStatSeen_reg (by revert r; decide))

theorem rgStatRead_holds (hserved : served (s.at t) q = true) (hactive : pwrState (s.at t) = 2) :
    ∃ s', exec (.rgStatRead t q n c) s = .next s' ∧
      s'.out = .regRead q.val (Reg.addr .CH_RG_STAT (chIx n c)) (s.reg .CH_RG_STAT (chIx n c)) :: s.out ∧
      s'.reg .CH_RG_STAT (chIx n c) = putBit (s.reg .CH_RG_STAT (chIx n c)) 1 false ∧
      s'.reg .CL_TS_DONE n.val = putBit (s.reg .CL_TS_DONE n.val) c.val false ∧
      s'.chan n c = { s.chan n c with rgLatched := true, rgHeld := none } ∧
      (∀ ws, (s.chan n c).rgHeld = some ws → ws.length = 15 → rgRegs.map (fun r => s'.reg r (chIx n c)) = ws) ∧
      ((s.chan n c).rgHeld = none → rgRegs.map (fun r => s'.reg r (chIx n c)) = rgRegs.map (fun r => s.reg r (chIx n c))) ∧
      Frame [.clasp, .chans, .out] (.CH_RG_STAT :: .CL_TS_DONE :: rgRegs) (atChannel n c) s s' := by
  have hread := hostRead_active (a := Reg.addr .CH_RG_STAT (chIx n c)) hserved hactive
  rw [readAt_rgStat] at hread
  have htake : Upd 0x41 (regMask (.CH_RG_STAT :: .CL_TS_DONE :: rgRegs)) (atChannel n c) s (rgStatTake n c (s.at t)) :=
    rgStatTake_upd (State.at_upd Upd.refl (by decide)) (by decide) (by decide +kernel) ⟨rfl, rfl⟩
  have hupd := State.emit_upd (K := 0x800000000000041)
    (o := .regRead q.val (Reg.addr .CH_RG_STAT (chIx n c)) ((s.at t).reg .CH_RG_STAT (chIx n c)))
    (htake.mono (by decide) (Nat.or_self _)) (by decide)
  refine ⟨_, congrArg Host.Outcome.next hread, ?_, ?_, ?_, ?_, fun ws hheld hlen => ?_, fun hheld => ?_,
    hupd.frame (by decide +kernel) (by decide +kernel)⟩
  · rw [State.emit, State.reg_at]; exact congrArg (List.cons _) (htake.parts .out (by decide))
  · rw [State.reg_emit, rgStatTake_stat, State.reg_at]
  · rw [State.reg_emit, rgStatTake_done, State.reg_at]
  · rw [State.chan_emit, rgStatTake_chan, State.chan_at]
  · exact rgStatTake_held (by rwa [State.chan_at]) hlen
  · exact (rgStatTake_none (by rwa [State.chan_at])).trans (result_congr fun _ _ => State.reg_at ..)

/-- Settles O35: a START leaves `gateArmed`, or a gate ended with cause 7 at once; a STOP ends the gate or drops the series; the
rest are the unit's own events and the read of its status. -/
theorem gatesStartStopAndEnd : Obligations.GatesStartStopAndEnd := by
  unfold Obligations.GatesStartStopAndEnd
  exact ⟨fun _ _ _ _ _ _ hacc h1 hidle hfree hearly hlt => rgStart_armed hacc h1 hidle hfree rfl hearly hlt,
    fun _ _ _ _ _ _ hacc h1 h2 hidle hfree hlate => rgStart_late hacc h1 h2 hidle hfree hlate,
    fun _ _ _ _ _ hgate hdue hshut => rgGateOpen_holds hgate hdue hshut,
    fun _ _ _ _ _ _ _ hacc hbusy hgate hwaits => rgStop_ended hacc hbusy hgate hwaits,
    fun _ _ _ _ _ _ hacc hbusy hwaits => rgStop_dropped hacc hbusy hwaits,
    fun _ _ _ _ _ hgate hdue => rgGateEnd_holds hgate hdue,
    fun _ _ _ _ _ hserved hactive => rgStatRead_holds hserved hactive⟩

end Sys2Proof.Machine
end

section
/-! ### The stamp DLL (R233, R243) -/

namespace Sys2Proof.Machine

variable {s : State} {n : Cluster} {c : Channel} {t : Nat}

theorem execStampDllLock_stable (hstable : s.rb .CLK_STAT 0 2 = true) (hret : cluRetired s n = false) :
    execStampDllLock t n s = .next ((s.at t).setRb .CL_TS_STAT n 0 true) := by
  have hret' : cluRetired (s.at t) n = false := (cluRetired_congr (State.reg_at ..)).trans hret
  unfold execStampDllLock
  dsimp only
  rw [if_pos ⟨(State.rb_at ..).trans hstable, by rw [hret']; rfl⟩]

theorem stampDllLock_holds (hstable : s.rb .CLK_STAT 0 2 = true) (hret : cluRetired s n = false) :
    ∃ s', exec (.stampDllLock t n) s = .next s' ∧ s'.reg .CL_TS_STAT n.val = putBit (s.reg .CL_TS_STAT n.val) 0 true ∧
      Frame [.clasp] [.CL_TS_STAT] (atCluster n) s s' := by
  have hexec := execStampDllLock_stable (t := t) hstable hret
  have hupd := execStampDllLock_upd (t := t) (C := atCluster n) (Upd.refl (s := s)) (Nat.or_self _) (Nat.or_self _) ⟨0, rfl⟩
  rw [hexec] at hupd
  refine ⟨_, hexec, ?_, hupd.frame (by decide +kernel) (by decide +kernel)⟩
  rw [State.reg_setRb, if_pos ⟨rfl, rfl⟩, State.reg_at]

/-! Every gate of a cluster ends. -/

section
variable {cause : Nat}

theorem endGates_turn (s : State) (c : Channel) : ∃ u, Upd 0x400000000000040 (regMask gateRegs) (atOthers n c) s u ∧
    Upd 0x400000000000040 (regMask gateRegs) (atOthers n c) (endGate n c cause false u) (endGates n cause s) :=
  forChannels_turn (f := fun n c s => endGate n c cause false s)
    (fun _ _ => endGate_upd Upd.refl (by decide) (by decide +kernel) ⟨rfl, rfl⟩) s c

theorem endGates_gate (h1 : cause ≠ 1) (h2 : cause ≠ 2) : ((endGates n cause s).chan n c).gate = none := by
  obtain ⟨u, -, hafter⟩ := endGates_turn (n := n) (cause := cause) s c
  rw [hafter.chan_of_others, endGate_gate h1 h2]

/-- A channel that had a gate shows its end. -/
theorem endGates_stat (h1 : cause ≠ 1) (h2 : cause ≠ 2) (hcause : cause < 8) (hgate : (s.chan n c).gate.isSome = true) :
    (endGates n cause s).rf .CH_RG_STAT (chIx n c) 13 3 = cause ∧
      (endGates n cause s).rb .CH_RG_STAT (chIx n c) 0 = false := by
  obtain ⟨u, hbefore, hafter⟩ := endGates_turn (n := n) (cause := cause) s c
  obtain ⟨g, hg⟩ := Option.isSome_iff_exists.1 hgate
  obtain ⟨hend, hbusy, -⟩ := endGate_gateEnded (stop := false) (hbefore.chan_of_others.symm ▸ hg) hcause
  rw [gateGoes_other h1 h2] at hbusy
  rw [State.rf, State.rb, hafter.reg_of_others rfl rfl]
  exact ⟨hend, hbusy⟩

theorem endGates_evt {b : Nat} (hb : b ≠ 0) : (endGates n cause s).rb .CL_TS_EVT n b = s.rb .CL_TS_EVT n b :=
  List.foldlRecOn (motive := fun u : State => u.rb .CL_TS_EVT n b = s.rb .CL_TS_EVT n b) _ _ rfl fun _ hu _ _ =>
    (endGate_evt b hb).trans hu

end

/-- LOCK reads 0 and the event is set. -/
def stampUnlocked (n : Cluster) (s : State) : State := (s.setRb .CL_TS_STAT n 0 false).setRb .CL_TS_EVT n 3 true

theorem stampUnlocked_reg {r : Reg} {i : Nat} (h : r ∉ [.CL_TS_STAT, .CL_TS_EVT]) :
    (stampUnlocked n s).reg r i = s.reg r i := by
  simp only [List.mem_cons, List.not_mem_nil, or_false, not_or] at h
  rw [stampUnlocked, State.reg_setRb, if_neg fun e => h.2 e.1, State.reg_setRb, if_neg fun e => h.1 e.1]

theorem execStampDllUnlock_locked (hlock : stampLock s n = true) : execStampDllUnlock t n s =
    .next ((endGates n 6 (stampUnlocked n (s.at t))).send (srcOf n 37) 5 1 (256 + n.val)) :=
  congrArg Host.Outcome.next (if_pos ((State.rb_at ..).trans hlock))

theorem stampDllUnlock_holds (hlock : stampLock s n = true) :
    ∃ s', exec (.stampDllUnlock t n) s = .next s' ∧ stampLock s' n = false ∧ s'.rb .CL_TS_EVT n.val 3 = true ∧
      (s'.chan n c).gate = none ∧
      ((s.chan n c).gate.isSome = true → s'.rf .CH_RG_STAT (chIx n c) 13 3 = 6 ∧ s'.rb .CH_RG_STAT (chIx n c) 0 = false) ∧
      s'.msgs = s.msgs ++ (if cluRetired s n then [] else [⟨44 * n.val + 37, 5, 1, 256 + n.val⟩]) ∧
      Frame [.clasp, .chans, .msgs, .free] (.CL_TS_STAT :: gateRegs) (atCluster n) s s' := by
  have hexec := execStampDllUnlock_locked (t := t) hlock
  have hupd := execStampDllUnlock_upd (t := t) (C := atCluster n) (Upd.refl (s := s)) (Nat.or_self _) (Nat.or_self _)
    fun _ => rfl
  rw [hexec] at hupd
  have hends := endGates_upd (C := atCluster n) (n := n) (cause := 6) (Upd.refl (s := stampUnlocked n (s.at t)))
    (Nat.or_self _) (Nat.or_self _) fun _ => rfl
  have hret : cluRetired (endGates n 6 (stampUnlocked n (s.at t))) n = cluRetired s n := by
    refine cluRetired_congr ?_
    rw [hends.reg _ _ (by decide +kernel), stampUnlocked_reg (by decide), State.reg_at]
  refine ⟨_, hexec, ?_, ?_, ?_, fun hgate => ?_, ?_, hupd.frame (by decide +kernel) (by decide +kernel)⟩
  · rw [stampLock, State.rb_send, hends.rb _ _ _ (by decide +kernel), stampUnlocked, State.rb_setRb _ _ _ _ _ _ _ _ (by decide),
      if_neg (by simp), State.rb_setRb_same _ _ _ _ _ (by decide)]
  · rw [State.rb_send, endGates_evt (by decide), stampUnlocked, State.rb_setRb_same _ _ _ _ _ (by decide)]
  · rw [State.chan_send, endGates_gate (by decide) (by decide)]
  · rw [State.rf, State.reg_send, State.rb_send]
    exact endGates_stat (by decide) (by decide) (by decide) (by rwa [← State.chan_at s t] at hgate)
  · rw [msgs_send_srcOf (by decide), hends.msgs_eq (by decide), hret]
    exact congrArg (· ++ _) (State.msgs_at ..)

end Sys2Proof.Machine
end

section
/-! ### The epoch (R232) -/

namespace Sys2Proof.Machine

variable {K R : Nat} {s s' : State} {n : Cluster} {c : Channel} {t e : Nat}

/-- The clusters other than n. -/
def atOtherClusters (n : Cluster) (k _j : Nat) : Prop := k ≠ n.val

theorem Upd.chan_of_otherClusters (h : Upd K R (atOtherClusters n) s s') : s'.chan n c = s.chan n c :=
  h.within.chans n.val c.val c.isLt fun x => x rfl

theorem Upd.reg_of_otherClusters {r : Reg} (h : Upd K R (atOtherClusters n) s s') (hc : r.row.cluster = true)
    (h1 : r.row.count = 1) : s'.reg r n.val = s.reg r n.val :=
  h.within.cluRegs r n.val hc fun _ x => x (by rw [h1, Nat.div_one])

/-- Cluster n's own turn among the clusters: the turns before it and after it leave it as it is. -/
theorem forClusters_turn {f : Cluster → State → State} (hf : ∀ n s, Upd K R (atCluster n) s (f n s)) (s : State)
    (n : Cluster) : ∃ u, Upd K R (atOtherClusters n) s u ∧ Upd K R (atOtherClusters n) (f n u) (forClusters f s) := by
  have hothers : ∀ (l : List Cluster) (a : State), n ∉ l → Upd K R (atOtherClusters n) a (l.foldl (fun s n => f n s) a) := by
    intro l a hl
    refine List.foldlRecOn l _ Upd.refl fun b hb m hm => hb.trans ?_
    have hne : m.val ≠ n.val := fun e => hl (Fin.ext e ▸ hm)
    exact { hf m b with within := (hf m b).within.mono fun k _ x => (show k = m.val from x).symm ▸ hne }
  obtain ⟨l, l', hl⟩ := List.append_of_mem (List.mem_finRange n)
  have hnodup := hl ▸ List.nodup_finRange 24
  rw [List.nodup_append, List.nodup_cons] at hnodup
  obtain ⟨-, ⟨hafter, -⟩, hapart⟩ := hnodup
  refine ⟨l.foldl (fun s n => f n s) s, hothers l s fun h => hapart n h n (List.mem_cons_self ..) rfl, ?_⟩
  unfold forClusters
  rw [hl, List.foldl_append, List.foldl_cons]
  exact hothers l' _ hafter

/-- The next records of both units of a channel are marked. -/
def wrapMarked (n : Cluster) (c : Channel) (s : State) : State :=
  s.modChan n c fun x => { x with wrapRise := true, wrapFall := true }

/-- Cluster n takes epoch e, with its event. -/
def epochTaken (e : Nat) (n : Cluster) (s : State) : State :=
  (s.setReg .CL_TS_EPOCH n (BitVec.ofNat 32 e)).setRb .CL_TS_EVT n 2 true

/-- A change of bit 48 at cluster n. -/
def wrapTurn (e : Nat) (n : Cluster) (s : State) : State :=
  if s.rf .CL_TS_EPOCH n 0 16 = e then s else forChannels n wrapMarked (epochTaken e n s)

theorem wrapsMarked_upd : Upd 0x40 0 (atCluster n) s (forChannels n wrapMarked s) :=
  forChannels_upd (fun _ _ h => State.modChan_upd h (Nat.or_self _) rfl) Upd.refl

theorem wrapsMarked_chan : (forChannels n wrapMarked s).chan n c = { s.chan n c with wrapRise := true, wrapFall := true } := by
  obtain ⟨u, hbefore, hafter⟩ := forChannels_turn (K := 0x40) (R := 0) (n := n) (f := wrapMarked)
    (fun _ _ => State.modChan_upd Upd.refl (Nat.or_self _) ⟨rfl, rfl⟩) s c
  rw [hafter.chan_of_others, wrapMarked, State.chan_modChan, hbefore.chan_of_others]

theorem wrapTurn_upd (e : Nat) (n : Cluster) (s : State) :
    Upd 0x40 (regMask [.CL_TS_EPOCH, .CL_TS_EVT]) (atCluster n) s (wrapTurn e n s) :=
  Upd.ite Upd.refl (Upd.trans (State.setRb_upd (State.setReg_upd Upd.refl (by decide +kernel) (RegOk.one rfl ⟨0, rfl⟩))
    (by decide +kernel) (RegOk.one rfl ⟨0, rfl⟩)) (wrapsMarked_upd.mono (Nat.or_self _) (Nat.zero_or _)))

theorem wrapTurn_holds (h : s.rf .CL_TS_EPOCH n 0 16 ≠ e) :
    (wrapTurn e n s).reg .CL_TS_EPOCH n = BitVec.ofNat 32 e ∧ (wrapTurn e n s).rb .CL_TS_EVT n 2 = true ∧
      (wrapTurn e n s).chan n c = { s.chan n c with wrapRise := true, wrapFall := true } := by
  unfold wrapTurn
  rw [if_neg h]
  refine ⟨?_, ?_, ?_⟩
  · rw [wrapsMarked_upd.reg _ _ (Nat.zero_testBit _), epochTaken, State.reg_setRb, if_neg (by simp), State.reg_setReg_same]
  · rw [wrapsMarked_upd.rb _ _ _ (Nat.zero_testBit _), epochTaken, State.rb_setRb_same _ _ _ _ _ (by decide)]
  · rw [wrapsMarked_chan]; rfl

theorem coarseWrap_holds (h : s.rf .CL_TS_EPOCH n.val 0 16 ≠ (s.at t).clasp / 2 ^ 48 % 65536) :
    ∃ s', exec (.coarseWrap t) s = .next s' ∧
      s'.reg .CL_TS_EPOCH n.val = BitVec.ofNat 32 ((s.at t).clasp / 2 ^ 48 % 65536) ∧ s'.rb .CL_TS_EVT n.val 2 = true ∧
      s'.chan n c = { s.chan n c with wrapRise := true, wrapFall := true } ∧
      Frame [.clasp, .chans] [.CL_TS_EPOCH, .CL_TS_EVT] atAll s s' := by
  have hexec : exec (.coarseWrap t) s = .next (forClusters (wrapTurn ((s.at t).clasp / 2 ^ 48 % 65536)) (s.at t)) := rfl
  generalize (s.at t).clasp / 2 ^ 48 % 65536 = e at h hexec ⊢
  have hupd : Upd 0x41 (regMask [.CL_TS_EPOCH, .CL_TS_EVT]) atAll s (forClusters (wrapTurn e) (s.at t)) :=
    forClusters_upd (fun n s h => h.trans { (wrapTurn_upd e n s).mono (by decide) (Nat.or_self _) with
      within := (wrapTurn_upd e n s).within.mono fun _ _ _ => trivial }) (State.at_upd Upd.refl (by decide))
  obtain ⟨u, hbefore, hafter⟩ := forClusters_turn (wrapTurn_upd e) (s.at t) n
  have hepoch : u.rf .CL_TS_EPOCH n 0 16 ≠ e := by
    rwa [State.rf, hbefore.reg_of_otherClusters rfl rfl, State.reg_at]
  obtain ⟨htaken, hevt, hmarked⟩ := wrapTurn_holds (c := c) hepoch
  refine ⟨_, hexec, ?_, ?_, ?_, hupd.frame (by decide +kernel) (by decide +kernel)⟩
  · rw [hafter.reg_of_otherClusters rfl rfl, htaken]
  · rw [State.rb, hafter.reg_of_otherClusters rfl rfl]; exact hevt
  · rw [hafter.chan_of_otherClusters, hmarked, hbefore.chan_of_otherClusters, State.chan_at]

end Sys2Proof.Machine
end

section
/-! ### The stamp window (R231, R236) -/

namespace Sys2Proof.Machine

variable {s : State} {n : Cluster} {t : Nat} {r : StampRec} {rest : List StampRec}

/-- The slots of the stamp window, the one that the next record goes to, and its address. -/
def stampSize (s : State) (n : Cluster) : Nat := sizeOr (s.rf .CL_TS_WIN_SIZE n 0 20) 1048576
def stampSlot (s : State) (n : Cluster) : Nat := s.rf .CL_TS_WIN_WPTR n 0 20
def stampAddr (s : State) (n : Cluster) : Nat := s.rf .CL_TS_WIN_BASE n 6 20 * 64 + stampSlot s n * 8

theorem idxNext_stampSize_lt (w : Nat) : idxNext w (stampSize s n) < 2 ^ 20 := by
  have hfield : s.rf .CL_TS_WIN_SIZE n 0 20 < 2 ^ 20 := Nat.mod_lt _ (by decide)
  have hsize : 0 < stampSize s n ∧ stampSize s n ≤ 2 ^ 20 := by unfold stampSize sizeOr; split <;> omega
  exact Nat.lt_of_lt_of_le (Nat.mod_lt _ hsize.1) hsize.2

theorem stampBytes_length {wrap : Bool} : (stampBytes r wrap).length = 8 := leBytes_length ..

/-- The channel of a record. -/
def stampChan (r : StampRec) : Channel := ⟨r.c % 32, Nat.mod_lt _ (by decide)⟩

/-- The mark that a record carries, and the channel's record without it. -/
def wrapOf (r : StampRec) (x : Chan) : Bool := if r.falling then x.wrapFall else x.wrapRise
def unwrapped (r : StampRec) (x : Chan) : Chan :=
  if r.falling then { x with wrapFall := false } else { x with wrapRise := false }

theorem unwrapped_marks (x : Chan) :
    if r.falling then (unwrapped r x).wrapFall = false ∧ (unwrapped r x).wrapRise = x.wrapRise
    else (unwrapped r x).wrapRise = false ∧ (unwrapped r x).wrapFall = x.wrapFall := by
  unfold unwrapped; cases r.falling <;> exact ⟨rfl, rfl⟩

/-- The oldest stamp is in the window and off the queue, the index has advanced, and the mark is consumed. -/
def stampWritten (n : Cluster) (r : StampRec) (rest : List StampRec) (s u : State) : State :=
  (((u.setBytes (stampAddr s n) (stampBytes r (wrapOf r (s.chan n (stampChan r))))).setStampQ n rest).setRf
    .CL_TS_WIN_WPTR n 0 20 (idxNext (stampSlot s n) (stampSize s n))).modChan n (stampChan r) (unwrapped r)

theorem stampWritten_upd {K R : Nat} {C : Nat → Nat → Prop} {s0 u : State} (h : Upd K R C s0 u) (hk : 0x842 ||| K = K)
    (hr : R.testBit (Reg.ctorIdx .CL_TS_WIN_WPTR) = true) (hc : C n.val (stampChan r).val) :
    Upd K R C s0 (stampWritten n r rest s u) :=
  State.modChan_upd (State.setRf_upd (State.setStampQ_upd (State.setBytes_upd h (sub_of rfl hk)) (sub_of rfl hk) ⟨_, hc⟩) hr
    (RegOk.one rfl ⟨_, hc⟩)) (sub_of rfl hk) hc

theorem stampRecordWrite_served (hqueue : s.stampQ n = r :: rest)
    (hroom : idxNext (stampSlot s n) (stampSize s n) ≠ s.rf .CL_TS_WIN_RPTR n 0 20)
    (hserved : streamServed s n 1 false (stampAddr s n) 8 = true)
    (hadmits : memAdmits s (.cluster n 1) false (stampAddr s n) 8 = true) :
    exec (.stampRecordWrite t n) s = .next (stampWritten n r rest s (s.at t)) := by
  have hwrite : engineWrite n 1 false (stampAddr s n) (stampBytes r (wrapOf r (s.chan n (stampChan r)))) (s.at t) =
      some ((s.at t).setBytes (stampAddr s n) (stampBytes r (wrapOf r (s.chan n (stampChan r))))) := by
    refine engineWrite_granted ?_ ?_ ?_
    · rw [stampBytes_length]
      exact partsOf_one_bank (by decide) (by unfold stampAddr; omega)
    · rw [stampBytes_length, ← hserved, State.at_eq]; rfl
    · rw [stampBytes_length, ← hadmits, State.at_eq]; rfl
  rw [stampAddr, stampSlot, wrapOf, stampChan] at hwrite
  rw [stampSlot, stampSize] at hroom
  show execStampRecordWrite t n s = _
  unfold execStampRecordWrite
  dsimp only
  rw [State.stampQ_at, hqueue]
  dsimp only
  rw [State.rf_at, State.rf_at, State.rf_at, State.rf_at, if_neg hroom, State.chan_at, hwrite]
  rfl

theorem stampRecordWrite_written (hqueue : s.stampQ n = r :: rest)
    (hroom : idxNext (stampSlot s n) (stampSize s n) ≠ s.rf .CL_TS_WIN_RPTR n 0 20)
    (hserved : streamServed s n 1 false (stampAddr s n) 8 = true)
    (hadmits : memAdmits s (.cluster n 1) false (stampAddr s n) 8 = true) :
    ∃ s', exec (.stampRecordWrite t n) s = .next s' ∧
      Written (stampAddr s n) (stampBytes r (wrapOf r (s.chan n (stampChan r)))) s s' ∧ s'.stampQ n = rest ∧
      s'.rf .CL_TS_WIN_WPTR n.val 0 20 = idxNext (stampSlot s n) (stampSize s n) ∧
      s'.chan n (stampChan r) = unwrapped r (s.chan n (stampChan r)) ∧
      Frame [.clasp, .mem, .chans, .stamps] [.CL_TS_WIN_WPTR] (atChannel n (stampChan r)) s s' := by
  have hupd : Upd 0x843 (regMask [.CL_TS_WIN_WPTR]) (atChannel n (stampChan r)) s (stampWritten n r rest s (s.at t)) :=
    stampWritten_upd (State.at_upd Upd.refl (by decide)) (by decide) (by decide +kernel) ⟨rfl, rfl⟩
  have hbytes : ∀ (a : Nat) (bs : List Byte), ((s.at t).setBytes a bs).chan n (stampChan r) = s.chan n (stampChan r) :=
    fun a bs => ((State.setBytes_upd (K := 2) (R := 0) (C := atNone) Upd.refl (by decide)).chan_eq (by decide)).trans
      (State.chan_at ..)
  refine ⟨_, stampRecordWrite_served hqueue hroom hserved hadmits, fun x => ?_, ?_, ?_, ?_,
    hupd.frame (by decide +kernel) (by decide +kernel)⟩
  · rw [stampWritten, State.modChan, State.byte_setChan, State.setRf, State.byte_setReg, State.byte_setStampQ,
      State.byte_setBytes, State.byte_at]
  · rw [stampWritten, State.modChan, State.stampQ_setChan, State.setRf, State.stampQ_setReg, State.stampQ_setStampQ_same]
  · rw [stampWritten, State.rf, State.reg_modChan, ← State.rf, State.rf_setRf_same _ _ _ _ _ _ (by decide),
      Nat.mod_eq_of_lt (idxNext_stampSize_lt _)]
  · rw [stampWritten, State.chan_modChan, State.chan_setRf, State.chan_setStampQ, hbytes]

theorem stampRecordWrite_lost (hqueue : s.stampQ n = r :: rest)
    (hfull : idxNext (stampSlot s n) (stampSize s n) = s.rf .CL_TS_WIN_RPTR n 0 20) :
    ∃ s', exec (.stampRecordWrite t n) s = .next s' ∧ s'.stampQ n = rest ∧
      s'.rf .CL_TS_LOST n.val 0 32 = satInc 4294967295 (s.rf .CL_TS_LOST n.val 0 32) ∧ s'.rb .CL_TS_EVT n.val 1 = true ∧
      Frame [.clasp, .stamps] [.CL_TS_LOST, .CL_TS_EVT] (atCluster n) s s' := by
  have hexec : execStampRecordWrite t n s =
      .next ((((s.at t).setStampQ n rest).count .CL_TS_LOST n 32).setRb .CL_TS_EVT n 1 true) := by
    rw [stampSlot, stampSize] at hfull
    unfold execStampRecordWrite
    dsimp only
    rw [State.stampQ_at, hqueue]
    dsimp only
    rw [State.rf_at, State.rf_at, State.rf_at, if_pos hfull]
  have hupd : Upd 0x801 (regMask [.CL_TS_LOST, .CL_TS_EVT]) (atCluster n) s
      ((((s.at t).setStampQ n rest).count .CL_TS_LOST n 32).setRb .CL_TS_EVT n 1 true) :=
    State.setRb_upd (State.count_upd (State.setStampQ_upd (State.at_upd Upd.refl (by decide)) (by decide) ⟨0, rfl⟩)
      (by decide +kernel) (RegOk.one rfl ⟨0, rfl⟩)) (by decide +kernel) (RegOk.one rfl ⟨0, rfl⟩)
  refine ⟨_, hexec, ?_, ?_, State.rb_setRb_same _ _ _ _ _ (by decide), hupd.frame (by decide +kernel) (by decide +kernel)⟩
  · rw [State.setRb, State.stampQ_setReg, State.count, State.setRf, State.stampQ_setReg, State.stampQ_setStampQ_same]
  · rw [State.rf, State.reg_setRb, if_neg (by simp), ← State.rf, State.rf_count_same (by decide), State.rf, State.reg_setStampQ,
      ← State.rf, State.rf_at]
    rfl

/-- Settles O34: the unlock ends every gate by `endGates`, a change of bit 48 is `wrapTurn` at each cluster, a queued stamp
leaves `stampWritten` or is lost. -/
theorem stampsLockWrapAndDrain : Obligations.StampsLockWrapAndDrain := by
  unfold Obligations.StampsLockWrapAndDrain
  refine ⟨fun _ _ _ hstable hret => stampDllLock_holds hstable hret, fun _ _ _ _ hlock => stampDllUnlock_holds hlock,
    fun _ _ _ _ h => coarseWrap_holds h, fun t n r rest s => ?_,
    fun _ _ _ _ _ hqueue hfull => stampRecordWrite_lost hqueue hfull⟩
  intro size w a c hqueue hroom hserved hadmits
  obtain ⟨s', hexec, hwritten, hrest, hwptr, hchan, hframe⟩ := stampRecordWrite_written (t := t) hqueue hroom hserved hadmits
  have hmarks := unwrapped_marks (r := r) (s.chan n (stampChan r))
  rw [← hchan] at hmarks
  exact ⟨s', hexec, hwritten, hrest, hwptr, hmarks, hframe⟩

end Sys2Proof.Machine
end

/-! # Triggers and capture engines: obligations O36, O37, O38

SUPPORT. What qualifies; then the trigger units: arming, a sample, what is missed and what fires, their records; then the
capture engines. -/

section
/-! ### What qualifies (R254 to R259) -/

namespace Sys2Proof.Machine

variable {s : State} {n : Cluster} {u c e : Nat} {o : Trig} {v : TUnit} {low up : Bool} {p : Nat × Bool}

theorem polOk_iff {pol : Nat} : polOk pol up = true ↔ pol = 2 ∨ pol = b2n (!up) := by
  unfold polOk; rw [Bool.or_eq_true, decide_eq_true_eq, decide_eq_true_eq]

/-- EDGE of a comparator. -/
theorem unitEvent_edge (hkind : trgKind s n u = 0) (hcond : trgCond s n u = 0) :
    (unitEvent s n u o v (.edge (trgCh s n u) (trgLow s n u) up e)).2 =
      if trgPol s n u = 2 ∨ trgPol s n u = b2n (!up) then some (e, (0, !up)) else none := by
  have hsource : sourceEvent s n u v (.edge (trgCh s n u) (trgLow s n u) up e) = some (up, true) := by
    unfold sourceEvent
    rw [hkind]
    exact if_pos ⟨rfl, rfl⟩
  unfold unitEvent
  dsimp only
  rw [hcond, hsource]
  simp only [Bool.not_true, Bool.false_or, polOk_iff]
  rfl

/-- WIDTH: the pulse whose opening edge was p closes. -/
theorem unitEvent_width (hcond : trgCond s n u = 2) (hopen : v.opening = some p) :
    (unitEvent s n u o v (.edge (trgCh s n u) (trgLow s n u) up e)).2 =
      if p.2 ≠ up ∧ (trgPol s n u = 2 ∨ trgPol s n u = b2n (!p.2)) ∧ relOk s n u (e - p.1) then some (e, (e - p.1, !p.2))
      else none := by
  unfold unitEvent
  dsimp only
  rw [hcond]
  simp only [and_self, if_true]
  rw [hopen]
  simp only [polOk_iff]
  rfl

/-- RUNT: the comparator whose edge p opened it closes it. -/
theorem unitEvent_runt (hcond : trgCond s n u = 3) (hopen : v.opening = some p) :
    (unitEvent s n u o v (.edge (trgCh s n u) low up e)).2 =
      if low = p.2 ∧ up ≠ p.2 ∧ (trgPol s n u = 2 ∨ trgPol s n u = b2n (!p.2)) ∧ relOk s n u (e - p.1) then
        some (e, (e - p.1, !p.2))
      else none := by
  obtain ⟨e1, up1⟩ := p
  unfold unitEvent
  dsimp only
  rw [hcond, hopen]
  by_cases hopens : low = up
  · -- an edge that opens a pulse closes none
    subst hopens
    cases low <;> cases up1 <;> simp
  · -- the edge closes the pulse that is open, which one or the other comparator opened
    obtain rfl := Bool.eq_not.2 (Ne.symm hopens)
    cases up1 <;> cases low <;> simp [TrigEvt.time, polOk_iff]

/-- SLEW: the other comparator than the one whose edge p began the transition completes it. -/
theorem unitEvent_slew (hcond : trgCond s n u = 5) (hopen : v.opening = some p) :
    (unitEvent s n u o v (.edge (trgCh s n u) low up e)).2 =
      if low ≠ p.2 ∧ up = p.2 ∧ (trgPol s n u = 2 ∨ trgPol s n u = b2n (!p.2)) ∧ relOk s n u (e - p.1) then
        some (e, (e - p.1, !p.2))
      else none := by
  obtain ⟨e1, up1⟩ := p
  unfold unitEvent
  dsimp only
  rw [hcond, hopen]
  by_cases hopens : low = up
  · -- an edge that begins a transition completes none
    subst hopens
    cases low <;> cases up1 <;> simp
  · -- the edge completes the transition in progress, which one or the other comparator began
    obtain rfl := Bool.eq_not.2 (Ne.symm hopens)
    cases up1 <;> cases low <;> simp [TrigEvt.time, polOk_iff]

/-- MATCH: the outputs enter or leave the match. -/
theorem unitEvent_match {x : TrigEvt} (hcond : trgCond s n u = 6) :
    (unitEvent s n u o v x).1.high = matchNow s n u o.outH o.outL ∧
      (unitEvent s n u o v x).2 =
        if matchNow s n u o.outH o.outL ≠ v.high ∧
            (trgPol s n u = 2 ∨ trgPol s n u = b2n (!matchNow s n u o.outH o.outL)) then
          some (x.time, (0, !matchNow s n u o.outH o.outL))
        else none := by
  unfold unitEvent
  dsimp only
  rw [hcond]
  refine ⟨rfl, ?_⟩
  simp only [polOk_iff]

/-- Settles O37: each condition's rule for the event that qualifies. -/
theorem triggerConditionsQualify : Obligations.TriggerConditionsQualify := by
  unfold Obligations.TriggerConditionsQualify
  refine ⟨fun n u o v low up c e s => ?_, fun _ _ _ _ _ _ hcond => unitEvent_match hcond, fun _ _ _ _ => rfl⟩
  intro pol x hkind hc
  subst hc
  refine ⟨fun hcond hlow => ?_, fun hcond hlow p hp => ?_, fun hcond p hp => ?_, fun hcond p hp => ?_⟩
  · subst hlow; exact unitEvent_edge hkind hcond
  · subst hlow; exact unitEvent_width hcond (Option.mem_toList.1 hp)
  · exact unitEvent_runt hcond (Option.mem_toList.1 hp)
  · exact unitEvent_slew hcond (Option.mem_toList.1 hp)

end Sys2Proof.Machine
end

section
/-! ### Changes named by lists -/

namespace Sys2Proof.Machine

variable {K R : Nat} {C : Nat → Nat → Prop} {s0 s : State} {KL : List Part} {RL : List Reg}

/-- The mask of a list of parts, and of a list of registers. -/
def partSet (l : List Part) : Nat := l.foldr (fun p m => 1 <<< p.ctorIdx ||| m) 0
def regSet (l : List Reg) : Nat := l.foldr (fun r m => 1 <<< r.ctorIdx ||| m) 0

theorem testBit_partSet {p : Part} (h : p ∉ KL) : (partSet KL).testBit p.ctorIdx = false := by
  induction KL with
  | nil => exact Nat.zero_testBit _
  | cons q l ih =>
    have hp := not_or.1 fun x => h (List.mem_cons.2 x)
    have hq : q.ctorIdx ≠ p.ctorIdx := fun e => hp.1 (Part.ctorIdx_inj e).symm
    show (1 <<< q.ctorIdx ||| partSet l).testBit p.ctorIdx = false
    rw [Nat.testBit_or, Nat.one_shiftLeft, Nat.testBit_two_pow, decide_eq_false hq, ih hp.2, Bool.or_false]

theorem testBit_regSet {r : Reg} (h : r ∉ RL) : (regSet RL).testBit r.ctorIdx = false := by
  induction RL with
  | nil => exact Nat.zero_testBit _
  | cons q l ih =>
    have hr := not_or.1 fun x => h (List.mem_cons.2 x)
    have hq : q.ctorIdx ≠ r.ctorIdx := fun e => hr.1 (Reg.ctorIdx_inj e).symm
    show (1 <<< q.ctorIdx ||| regSet l).testBit r.ctorIdx = false
    rw [Nat.testBit_or, Nat.one_shiftLeft, Nat.testBit_two_pow, decide_eq_false hq, ih hr.2, Bool.or_false]

/-- Masks that lie within the lists of a statement. -/
theorem Upd.listed (h : Upd K R C s0 s) (hk : K ||| partSet KL = partSet KL) (hr : R ||| regSet RL = regSet RL) :
    Frame KL RL C s0 s :=
  ⟨(h.mono hk hr).only (fun _ => testBit_partSet) (fun _ => testBit_regSet), h.within⟩

end Sys2Proof.Machine
end

section
/-! ### Records of units, and arming (R262, R263) -/

namespace Sys2Proof.Machine

variable {s : State} {n : Cluster} {u k : Unit8} {d : Word} {q : Req} {t : Nat} {tr : Trig} {v : TUnit}

@[simp] theorem tunit_setTunit_same (u : Nat) : tunit (setTunit tr u v) u = v := tabGet_tabSet_same ..
theorem tunit_setTunit_ne {u w : Nat} (h : u ≠ w) : tunit (setTunit tr w v) u = tunit tr u := tabGet_tabSet_ne _ _ _ _ h

theorem trgIx_inj : trgIx n k.val = trgIx n u.val ↔ k = u := by
  refine ⟨fun h => Fin.ext ?_, fun h => h ▸ rfl⟩
  unfold trgIx at h; omega

/-- An accepted command that writes CL_TRG_CTRL arms or disarms, and ends the cluster's gating (R428). -/
theorem cmdWrite_trgCtrl {set : Word} (h : Accepted q .CL_TRG_CTRL (trgIx n u.val) (d ||| set) s) :
    cmdWrite q .CL_TRG_CTRL (trgIx n u.val) d set s =
      ungate n.val (trgCtrl n u.val (bitOf (d ||| set) 0) (bitOf (d ||| set) 1) s) := by
  have hsize : trgIx n u.val < Reg.CL_TRG_CTRL.size := by
    rw [show Reg.CL_TRG_CTRL.size = 192 from rfl, trgIx]; omega
  have hof : Reg.cluOf .CL_TRG_CTRL (trgIx n u.val) = n.val := by unfold Reg.cluOf trgIx; simp only [Reg.row]; omega
  have hunit : trgIx n u.val % 8 = u.val := by unfold trgIx; omega
  obtain ⟨s', hput, hwrite⟩ := cmdWrite_cluster (by decide) rfl hsize hof h
  have hchapter : cluPut q n .CL_TRG_CTRL (trgIx n u.val) (d ||| set) 0xFFFFFFFF#32 s =
      .ok (trgCtrl n (trgIx n u.val % 8) (ones (d ||| set) 0xFFFFFFFF#32 0) (ones (d ||| set) 0xFFFFFFFF#32 1) s) := rfl
  rw [hchapter, hunit, ones_full, ones_full] at hput
  cases hput
  exact hwrite

/-! A unit's arming changes from a sample on. -/

section
variable {w from_ : Nat} {on : Bool}

theorem trgArm_ustat : (trgArm n w on from_ s).rf .CL_TRG_USTAT (trgIx n w) 0 2 = b2n on := by
  have hle := b2n_le on
  rw [trgArm, State.rf_setRf_same _ _ _ _ _ _ (by decide)]
  omega

theorem trgArm_ustat_other {i : Nat} (h : i ≠ trgIx n w) :
    (trgArm n w on from_ s).rf .CL_TRG_USTAT i 0 2 = s.rf .CL_TRG_USTAT i 0 2 := by
  rw [trgArm, State.rf, State.reg_setRf, if_neg fun x => h x.2, State.reg_setTrig, ← State.rf]

theorem trgArm_trig : (trgArm n w on from_ s).trig n =
    setTunit (s.trig n) w { tunit (s.trig n) w with changes := (tunit (s.trig n) w).changes ++ [(from_, on)] } := by
  rw [trgArm, State.setRf, State.trig_setReg, State.trig_setTrig_same]

end

@[simp] theorem ungate_trig (k : Nat) : (ungate k s).trig n = s.trig n := by unfold ungate; split <;> rfl

/-- What a command that arms or disarms unit u leaves. -/
theorem armCommand_leaves (on : Bool) :
    let s' := ungate n.val (trgArm n u.val on ((s.at t).clasp / 8 + 1) (s.at t))
    s'.rf .CL_TRG_USTAT (trgIx n u.val) 0 2 = b2n on ∧
      (tunit (s'.trig n) u.val).changes = (tunit (s.trig n) u.val).changes ++ [((s.at t).clasp / 8 + 1, on)] ∧
      Frame [.clasp, .trigs] [.CL_TRG_USTAT, .PWR_CLU_GATE] (atCluster n) s s' := by
  intro s'
  have hupd : Upd (partSet [.trigs]) (regSet [.CL_TRG_USTAT]) (atCluster n) (s.at t)
      (trgArm n u.val on ((s.at t).clasp / 8 + 1) (s.at t)) :=
    trgArm_upd Upd.refl (by decide) (by decide) ⟨0, rfl⟩
  refine ⟨(ungate_rf (by decide)).trans trgArm_ustat, ?_,
    (cmdWrite_frame hupd).listed (by decide) (by decide)⟩
  rw [ungate_trig, trgArm_trig, tunit_setTunit_same, State.trig_at]

theorem triggerArm_holds (hacc : Accepted q .CL_TRG_CTRL (trgIx n u.val) (d ||| 1#32) (s.at t)) (h1 : bitOf d 1 = false) :
    ∃ s', exec (.triggerArm t q n u d) s = .next s' ∧ s'.rf .CL_TRG_USTAT (trgIx n u.val) 0 2 = 1 ∧
      (tunit (s'.trig n) u.val).changes = (tunit (s.trig n) u.val).changes ++ [((s.at t).clasp / 8 + 1, true)] ∧
      Frame [.clasp, .trigs] [.CL_TRG_USTAT, .PWR_CLU_GATE] (atCluster n) s s' := by
  have h0 : bitOf (d ||| 1#32) 0 = true := by rw [bitOf_or]; simp [bitOf]
  have h1' : bitOf (d ||| 1#32) 1 = false := by rw [bitOf_or, h1]; simp [bitOf]
  refine ⟨_, ?_, armCommand_leaves true⟩
  show execTriggerArm t q n u d s = _
  rw [execTriggerArm, cmdWrite_trgCtrl hacc, h0, h1', trgCtrl, if_neg Bool.false_ne_true, if_pos rfl]

theorem triggerDisarm_holds (hacc : Accepted q .CL_TRG_CTRL (trgIx n u.val) (d ||| 2#32) (s.at t)) :
    ∃ s', exec (.triggerDisarm t q n u d) s = .next s' ∧ s'.rf .CL_TRG_USTAT (trgIx n u.val) 0 2 = 0 ∧
      (tunit (s'.trig n) u.val).changes = (tunit (s.trig n) u.val).changes ++ [((s.at t).clasp / 8 + 1, false)] ∧
      Frame [.clasp, .trigs] [.CL_TRG_USTAT, .PWR_CLU_GATE] (atCluster n) s s' := by
  have h1 : bitOf (d ||| 2#32) 1 = true := by rw [bitOf_or]; simp [bitOf]
  refine ⟨_, ?_, armCommand_leaves false⟩
  show execTriggerDisarm t q n u d s = _
  rw [execTriggerDisarm, cmdWrite_trgCtrl hacc, h1, trgCtrl, if_pos rfl]

/-! Re-arming after a firing. -/

/-- Unit w is armed again from the sample that starts at b. -/
def unitRearmed (n : Cluster) (w b : Nat) (s : State) : State :=
  (s.setTrig n (setTunit (s.trig n) w
    { tunit (s.trig n) w with armed := true, rearmed := some b,
                              since := if trgCond s n w = 4 then some b else (tunit (s.trig n) w).since })).setRf
    .CL_TRG_USTAT (trgIx n w) 0 2 1

theorem trgRearm_due {w j f : Nat} (hfired : (tunit (s.trig n) w).fired = some f) (hdead : trgDead s n w = true)
    (hauto : trgAuto s n w = true) (hroom : trgFull (s.trig n) = false) (hover : rearmStart s n w f ≤ 8 * j) :
    trgRearm n w j s = unitRearmed n w (rearmStart s n w f) s := by
  unfold trgRearm
  dsimp only
  rw [hfired]
  dsimp only
  rw [if_pos ⟨hdead, hauto, by rw [hroom]; rfl, hover⟩, ← hfired]
  rfl

theorem triggerRearm_holds {f : Nat} (hfired : (tunit (s.trig n) u.val).fired = some f) (hdead : trgDead s n u.val = true)
    (hauto : trgAuto s n u.val = true) (hroom : trgFull (s.trig n) = false)
    (hover : rearmStart s n u.val f ≤ 8 * (((s.at t).clasp - 112) / 8)) :
    ∃ s', exec (.triggerRearm t n u) s = .next s' ∧ s'.rf .CL_TRG_USTAT (trgIx n u.val) 0 2 = 1 ∧
      (tunit (s'.trig n) u.val).armed = true ∧ (tunit (s'.trig n) u.val).rearmed = some (rearmStart s n u.val f) ∧
      Frame [.clasp, .trigs] [.CL_TRG_USTAT] (atCluster n) s s' := by
  have hstart : rearmStart (s.at t) n u.val f = rearmStart s n u.val f := by
    unfold rearmStart; rw [State.reg_at, State.trig_at]
  have hexec : exec (.triggerRearm t n u) s = .next (unitRearmed n u.val (rearmStart s n u.val f) (s.at t)) := by
    show execTriggerRearm t n u s = _
    unfold execTriggerRearm
    dsimp only
    rw [trgRearm_due (by rw [State.trig_at]; exact hfired) (by rw [trgDead, State.rb_at]; exact hdead)
      (by rw [trgAuto, State.rb_at]; exact hauto) (by rw [State.trig_at]; exact hroom) (by rw [hstart]; exact hover), hstart]
  have hupd : Upd (partSet [.clasp, .trigs]) (regSet [.CL_TRG_USTAT]) (atCluster n) s
      (unitRearmed n u.val (rearmStart s n u.val f) (s.at t)) :=
    State.setRf_upd (State.setTrig_upd (State.at_upd Upd.refl (by decide)) (by decide) ⟨0, rfl⟩) (by decide)
      (RegOk.trg rfl ⟨0, rfl⟩)
  refine ⟨_, hexec, State.rf_setRf_same _ _ _ _ _ _ (by decide), ?_, ?_,
    hupd.listed (by decide) (by decide)⟩
  · rw [unitRearmed, State.setRf, State.trig_setReg, State.trig_setTrig_same, tunit_setTunit_same]
  · rw [unitRearmed, State.setRf, State.trig_setReg, State.trig_setTrig_same, tunit_setTunit_same]

end Sys2Proof.Machine
end

section
/-! ### What the units make of a sample (R253, R254, R262) -/

namespace Sys2Proof.Machine

variable {s : State} {n : Cluster} {j : Nat} {x : TrigEvt} {q : Qual} {tr tr' : Trig} {v : TUnit}

/-! The comparators' outputs. -/

theorem trigOutputs_eq : ∃ h l, trigOutputs tr x = { tr with outH := h, outL := l } := by
  cases x with
  | edge c low up e =>
    cases low
    · exact ⟨putBit tr.outH c up, tr.outL, rfl⟩
    · exact ⟨tr.outH, putBit tr.outL c up, rfl⟩
  | level c low up e =>
    cases low
    · exact ⟨putBit tr.outH c up, tr.outL, rfl⟩
    · exact ⟨tr.outH, putBit tr.outL c up, rfl⟩
  | _ => exact ⟨tr.outH, tr.outL, rfl⟩

theorem trigOutputs_congr (hH : tr'.outH = tr.outH) (hL : tr'.outL = tr.outL) :
    (trigOutputs tr' x).outH = (trigOutputs tr x).outH ∧ (trigOutputs tr' x).outL = (trigOutputs tr x).outL := by
  cases x with
  | edge c low up e => cases low <;> simp [trigOutputs, hH, hL]
  | level c low up e => cases low <;> simp [trigOutputs, hH, hL]
  | _ => exact ⟨hH, hL⟩

/-! One event. -/

/-- A unit looks at nothing of the others but the comparators' outputs. -/
theorem unitEvent_congr {u : Nat} (hH : tr'.outH = tr.outH) (hL : tr'.outL = tr.outL) :
    unitEvent s n u tr' v x = unitEvent s n u tr v x := by
  unfold unitEvent; rw [hH, hL]

/-- An event leaves a unit's arming and its dead time as they were. -/
theorem unitEvent_arming {u : Nat} : (unitEvent s n u tr v x).1.armed = v.armed ∧
    (unitEvent s n u tr v x).1.fired = v.fired ∧ (unitEvent s n u tr v x).1.rearmed = v.rearmed := by
  unfold unitEvent
  dsimp only
  repeat' split
  all_goals exact ⟨rfl, rfl, rfl⟩

/-! The units in turn. -/

theorem unitStep_off {u : Nat} {evs : List TrigEvt} (h : trgEn s n u = false) : unitStep s n u j evs tr' tr = (tr, none) := by
  unfold unitStep
  rw [h]
  exact if_pos rfl

theorem unitSample_event {u : Nat} {o : Option Qual} (h1 : trgCond s n u ≠ 1) (h4 : trgCond s n u ≠ 4)
    (h7 : trgCond s n u ≠ 7) : unitSample s n u j tr v o = (v, o) := by
  unfold unitSample
  split
  · contradiction
  · contradiction
  · contradiction
  · rfl

/-- Unit u's record after event x, which made it qualify with q. -/
def unitSeen (s : State) (n : Cluster) (u : Nat) (x : TrigEvt) (q : Qual) (tr : Trig) : TUnit :=
  { (unitEvent s n u (trigOutputs tr x) (tunit tr u) x).1 with qual := some q.1 }

/-- A unit whose condition follows events, in a sample of one event that makes it qualify. -/
theorem unitStep_qualifies {u : Nat} (hen : trgEn s n u = true) (herr : trgCfgErr s n u = false) (h1 : trgCond s n u ≠ 1)
    (h4 : trgCond s n u ≠ 4) (h7 : trgCond s n u ≠ 7)
    (hq : (unitEvent s n u (trigOutputs tr x) (tunit tr u) x).2 = some q) :
    unitStep s n u j [x] tr tr = (setTunit tr u (unitSeen s n u x q tr), some q) := by
  have hevents : unitEvents s n u tr (tunit tr u) [x] =
      ((unitEvent s n u (trigOutputs tr x) (tunit tr u) x).1, some q) := by
    unfold unitEvents
    dsimp only
    rw [hq]
    rfl
  unfold unitStep
  dsimp only
  rw [hen, herr, hevents, unitSample_event h1 h4 h7]
  rfl

theorem unitsStep_off {evs : List TrigEvt} {l : List Nat} (h : ∀ w ∈ l, trgEn s n w = false) :
    unitsStep s n j evs tr' l tr = (tr, []) := by
  induction l with
  | nil => rfl
  | cons w l ih =>
    unfold unitsStep
    rw [unitStep_off (h w (List.mem_cons_self ..))]
    dsimp only
    rw [ih fun y hy => h y (List.mem_cons_of_mem _ hy)]

/-- Of several units one alone is enabled, and it qualifies. -/
theorem unitsStep_one {u : Nat} {evs : List TrigEvt} {l : List Nat} (hu : u ∈ l) (hnodup : l.Nodup)
    (hothers : ∀ w ∈ l, w ≠ u → trgEn s n w = false) (hstep : unitStep s n u j evs tr' tr = (setTunit tr u v, some q)) :
    unitsStep s n j evs tr' l tr = (setTunit tr u v, [(u, q)]) := by
  induction l with
  | nil => cases hu
  | cons w l ih =>
    obtain ⟨hw, hl⟩ := List.nodup_cons.1 hnodup
    unfold unitsStep
    by_cases hwu : w = u
    · subst hwu
      rw [hstep]
      dsimp only
      rw [unitsStep_off fun y hy => hothers y (List.mem_cons_of_mem _ hy) fun h => hw (h ▸ hy)]
    · have hu' : u ∈ l := (List.mem_cons.1 hu).resolve_left fun h => hwu h.symm
      rw [unitStep_off (hothers w (List.mem_cons_self ..) hwu)]
      dsimp only
      rw [ih hu' hl fun y hy => hothers y (List.mem_cons_of_mem _ hy)]

/-! Armings that are due. -/

/-- The changes of arming due by sample j act, unit by unit. -/
def armingsDue (s : State) (n : Cluster) (j : Nat) (l : List Nat) (tr : Trig) : Trig :=
  l.foldl (fun t u => setTunit t u (armDue s n u j (tunit t u))) tr

theorem armDue_none {u : Nat} (h : v.changes = []) : armDue s n u j v = v := by
  obtain ⟨armed, changes, opening, since, high, qual, fired, rearmed⟩ := v
  subst h
  rfl

theorem armingsDue_unit {u : Nat} {l : List Nat} (h : (tunit tr u).changes = []) :
    tunit (armingsDue s n j l tr) u = tunit tr u := by
  induction l generalizing tr with
  | nil => rfl
  | cons w l ih =>
    have hturn : tunit (setTunit tr w (armDue s n w j (tunit tr w))) u = tunit tr u := by
      by_cases huw : u = w
      · subst huw; rw [tunit_setTunit_same, armDue_none h]
      · exact tunit_setTunit_ne huw
    exact (ih (by rw [hturn]; exact h)).trans hturn

theorem armingsDue_eq {l : List Nat} : ∃ us, armingsDue s n j l tr = { tr with units := us } := by
  induction l generalizing tr with
  | nil => exact ⟨tr.units, rfl⟩
  | cons w l ih =>
    obtain ⟨us, hus⟩ := ih (tr := setTunit tr w (armDue s n w j (tunit tr w)))
    exact ⟨us, hus⟩

/-! Re-arming, where no unit waits for it. -/

theorem trgRearm_none {u : Nat} (h : trgDead s n u = false) : trgRearm n u j s = s := by
  unfold trgRearm
  dsimp only
  split
  · exact if_neg fun hdue => by rw [h] at hdue; exact Bool.false_ne_true hdue.1
  · rfl

theorem trgRearms_none (h : ∀ w : Unit8, trgDead s n w.val = false) :
    (List.range 8).foldl (fun s u => trgRearm n u j s) s = s := by
  have hall : ∀ u, trgDead s n u = false := fun u => by
    have hu := h ⟨u % 8, Nat.mod_lt _ (by decide)⟩
    rwa [trgDead, trgIx, Nat.mod_mod] at hu
  generalize List.range 8 = l
  induction l with
  | nil => rfl
  | cons u l ih => rw [List.foldl_cons, trgRearm_none (hall u), ih]

end Sys2Proof.Machine
end

section
/-! ### A sample (R253, R264) -/

namespace Sys2Proof.Machine

variable {s : State} {n : Cluster} {u : Unit8} {j t : Nat} {x : TrigEvt} {q : Qual} {tr : Trig}

/-- The events that count in sample j, in order, and whether one came too late for its own. -/
def sampleEvts (j : Nat) (tr : Trig) : List TrigEvt :=
  ((tr.evts.filter fun x => decide (x.time / 8 ≤ j)).map (lateEvt j)).foldl (fun l x => insertEvt x l) []
def sampleLate (j : Nat) (tr : Trig) : Bool :=
  (tr.evts.filter fun x => decide (x.time / 8 ≤ j)).any fun
    | .ring _ e => decide (e / 8 < tr.nextJ)
    | _ => false

/-- Sample j is taken: its events are gone, the armings due act. -/
def sampleBegun (n : Cluster) (j : Nat) (s : State) : Trig :=
  armingsDue s n j (List.range 8)
    { s.trig n with evts := (s.trig n).evts.filter (fun x => !decide (x.time / 8 ≤ j)), nextJ := j + 1 }

/-- What sample j does after its units have looked at it: those in `quals` qualified, and the records are tr. -/
def sampleActs (n : Cluster) (j : Nat) (late : Bool) (tr : Trig) (quals : List (Nat × Qual)) (s : State) : State :=
  let fires := quals.filter fun f => (tunit tr f.1).armed && !trgFull tr
  let misses := quals.filter fun f => !(tunit tr f.1).armed && trgAuto s n f.1
  let s1 := s.setTrig n tr
  let s2 := if late then s1.setRb .CL_TRG_EVT n 18 true else s1
  let s3 := if fires = [] then s2 else trgRecord n j fires late s2
  let s4 := misses.foldl (fun s f => trgMiss n f.1 s) s3
  let us := fires.map (·.1)
  let s5 := us.foldl (fun s u => trgFire n j u s) s4
  let s6 := us.foldl (fun s u => actUnit n (8 * j + 112) u s) s5
  (actLines s n us).foldl (fun s k => ringLineSend n k (8 * j + 112) s) s6

theorem trgSample_eq (h : ∀ w : Unit8, trgDead s n w.val = false) :
    trgSample n j s =
      let p := unitsStep s n j (sampleEvts j (s.trig n)) (sampleBegun n j s) (List.range 8) (sampleBegun n j s)
      sampleActs n j (sampleLate j (s.trig n)) ((sampleEvts j (s.trig n)).foldl trigOutputs p.1) p.2 s := by
  unfold trgSample
  rw [trgRearms_none h]
  rfl

/-! A sample of one event, in which unit u alone can qualify. -/

/-- The records after event x, with which unit u qualified. -/
def sampleSeen (n : Cluster) (u : Unit8) (j : Nat) (x : TrigEvt) (q : Qual) (s : State) : Trig :=
  trigOutputs (setTunit (sampleBegun n j s) u (unitSeen s n u x q (sampleBegun n j s))) x

theorem sampleEvts_one (hevts : tr.evts = [x]) (hx : x.time / 8 = j) : sampleEvts j tr = [x] := by
  have hin : decide (x.time / 8 ≤ j) = true := decide_eq_true (Nat.le_of_eq hx)
  have hkept : lateEvt j x = x := by
    unfold lateEvt
    split
    · exact if_neg fun h => absurd hx (Nat.ne_of_lt h)
    · rfl
  rw [sampleEvts, hevts, List.filter_singleton, hin, cond_true, List.map_singleton, hkept]
  rfl

theorem sampleLate_one (hevts : tr.evts = [x]) (hx : x.time / 8 = j) (hnext : tr.nextJ ≤ j) : sampleLate j tr = false := by
  have hin : decide (x.time / 8 ≤ j) = true := decide_eq_true (Nat.le_of_eq hx)
  rw [sampleLate, hevts, List.filter_singleton, hin, cond_true, List.any_cons, List.any_nil, Bool.or_false]
  split
  · exact decide_eq_false (Nat.not_lt.2 (hx ▸ hnext))
  · rfl

theorem sampleBegun_eq : ∃ us, sampleBegun n j s =
    { s.trig n with evts := (s.trig n).evts.filter (fun x => !decide (x.time / 8 ≤ j)), nextJ := j + 1, units := us } :=
  armingsDue_eq

theorem sampleBegun_unit (h : (tunit (s.trig n) u).changes = []) : tunit (sampleBegun n j s) u = tunit (s.trig n) u :=
  armingsDue_unit h

/-- The qualification of unit u is the one that event x makes of its record before the sample. -/
theorem sampleBegun_qualifies (hchanges : (tunit (s.trig n) u).changes = []) (hq : Qualifies n u x q s) :
    (unitEvent s n u (trigOutputs (sampleBegun n j s) x) (tunit (sampleBegun n j s) u) x).2 = some q := by
  obtain ⟨us, hus⟩ := sampleBegun_eq (n := n) (j := j) (s := s)
  have houts := trigOutputs_congr (x := x) (tr := s.trig n) (tr' := sampleBegun n j s) (by rw [hus]) (by rw [hus])
  rw [sampleBegun_unit hchanges, unitEvent_congr houts.1 houts.2]
  exact hq.2.2.2

theorem trgSample_one (hsample : SampleOf n u j x s) (hq : Qualifies n u x q s) :
    trgSample n j s = sampleActs n j false (sampleSeen n u j x q s) [(u.val, q)] s := by
  obtain ⟨hnext, -, hevts, hx, hen, herr, hothers, hdead, hchanges, -⟩ := hsample
  obtain ⟨h1, h4, h7, -⟩ := id hq
  have hunits : unitsStep s n j [x] (sampleBegun n j s) (List.range 8) (sampleBegun n j s) =
      (setTunit (sampleBegun n j s) u (unitSeen s n u x q (sampleBegun n j s)), [(u.val, q)]) :=
    unitsStep_one (List.mem_range.2 u.isLt) List.nodup_range
      (fun w hw hwu => hothers ⟨w, List.mem_range.1 hw⟩ fun h => hwu (congrArg Fin.val h))
      (unitStep_qualifies hen herr h1 h4 h7 (sampleBegun_qualifies hchanges hq))
  rw [trgSample_eq hdead, sampleEvts_one hevts hx, sampleLate_one hevts hx hnext]
  dsimp only
  rw [hunits]
  rfl

theorem trigOutputs_keeps : (trigOutputs tr x).nextJ = tr.nextJ ∧ (trigOutputs tr x).queue = tr.queue ∧
    (trigOutputs tr x).missed = tr.missed ∧ (trigOutputs tr x).units = tr.units := by
  obtain ⟨h, l, hout⟩ := trigOutputs_eq (tr := tr) (x := x)
  rw [hout]
  exact ⟨rfl, rfl, rfl, rfl⟩

theorem setTunit_keeps (tr : Trig) (w : Nat) (v : TUnit) : (setTunit tr w v).nextJ = tr.nextJ ∧
    (setTunit tr w v).queue = tr.queue ∧ (setTunit tr w v).missed = tr.missed := ⟨rfl, rfl, rfl⟩

/-- The sample leaves the records' queue, and unit u's arming and dead time, to its firings. -/
theorem sampleSeen_keeps (hchanges : (tunit (s.trig n) u).changes = []) :
    (sampleSeen n u j x q s).nextJ = j + 1 ∧ (sampleSeen n u j x q s).queue = (s.trig n).queue ∧
      (sampleSeen n u j x q s).missed = (s.trig n).missed ∧
      (tunit (sampleSeen n u j x q s) u).armed = (tunit (s.trig n) u).armed ∧
      deadOf (tunit (sampleSeen n u j x q s) u) = deadOf (tunit (s.trig n) u) := by
  obtain ⟨us, hbegun⟩ := sampleBegun_eq (n := n) (j := j) (s := s)
  obtain ⟨harmed, hfired, hrearmed⟩ := unitEvent_arming (s := s) (n := n) (tr := trigOutputs (sampleBegun n j s) x)
    (v := tunit (sampleBegun n j s) u) (x := x) (u := u)
  rw [sampleBegun_unit hchanges] at harmed hfired hrearmed
  obtain ⟨hj, hqueue, hmissed, hunits⟩ := trigOutputs_keeps (x := x)
    (tr := setTunit (sampleBegun n j s) u (unitSeen s n u x q (sampleBegun n j s)))
  have hunit : tunit (sampleSeen n u j x q s) u = unitSeen s n u x q (sampleBegun n j s) := by
    rw [tunit, sampleSeen, hunits, ← tunit, tunit_setTunit_same]
  rw [hunit, unitSeen, sampleBegun_unit hchanges]
  refine ⟨?_, ?_, ?_, harmed, ?_⟩
  · rw [sampleSeen, hj, (setTunit_keeps ..).1, hbegun]
  · rw [sampleSeen, hqueue, (setTunit_keeps ..).2.1, hbegun]
  · rw [sampleSeen, hmissed, (setTunit_keeps ..).2.2, hbegun]
  unfold deadOf
  dsimp only
  rw [hfired, hrearmed]

theorem triggerEvaluate_one (hsample : SampleOf n u j x (s.at t)) (hq : Qualifies n u x q s) :
    exec (.triggerEvaluate t n j) s =
      .next (sampleActs n j false (sampleSeen n u j x q (s.at t)) [(u.val, q)] (s.at t)) := by
  have hq' : Qualifies n u x q (s.at t) := by
    unfold Qualifies at hq ⊢; rw [State.at_eq]; exact hq
  obtain ⟨hnext, hover, hevts, hx, -⟩ := id hsample
  have hskips : (((s.at t).trig n).evts.any fun y =>
      decide (((s.at t).trig n).nextJ ≤ y.time / 8 ∧ y.time / 8 < j)) = false := by
    rw [hevts, List.any_cons, List.any_nil, Bool.or_false, decide_eq_false_iff_not]
    exact fun h => absurd hx (Nat.ne_of_lt h.2)
  show execTriggerEvaluate t n j s = _
  unfold execTriggerEvaluate
  dsimp only
  rw [hskips, if_pos ⟨hnext, hover, rfl⟩, trgSample_one hsample hq']

end Sys2Proof.Machine
end

section
/-! ### A qualification that is missed (R264) -/

namespace Sys2Proof.Machine

variable {s : State} {n : Cluster} {u : Unit8} {j t : Nat} {x : TrigEvt} {q : Qual} {tr : Trig}

theorem actLines_none : actLines s n [] = [] := by
  unfold actLines
  exact List.filter_eq_nil_iff.2 fun _ _ => Bool.false_ne_true

theorem sampleActs_unarmed (h : (tunit tr u).armed = false) : sampleActs n j false tr [(u.val, q)] s =
    if trgAuto s n u then trgMiss n u (s.setTrig n tr) else s.setTrig n tr := by
  have hfires : [(u.val, q)].filter (fun f => (tunit tr f.1).armed && !trgFull tr) = [] := by
    rw [List.filter_singleton, h]; rfl
  have hmisses : [(u.val, q)].filter (fun f => !(tunit tr f.1).armed && trgAuto s n f.1) =
      if trgAuto s n u then [(u.val, q)] else [] := by
    rw [List.filter_singleton, h]; cases trgAuto s n u <;> rfl
  unfold sampleActs
  dsimp only
  rw [hfires, hmisses, List.map_nil, actLines_none, if_pos rfl]
  cases trgAuto s n u <;> rfl

theorem trgMiss_trig {w : Nat} : (trgMiss n w s).trig n = { s.trig n with missed := true } := by
  rw [trgMiss, State.trig_setTrig_same]; rfl

theorem trgMiss_missed {w : Nat} :
    (trgMiss n w s).rf .CL_TRG_MISSED (trgIx n w) 0 32 = satInc 4294967295 (s.rf .CL_TRG_MISSED (trgIx n w) 0 32) := by
  rw [trgMiss, State.rf, State.reg_setTrig, State.setRb, State.reg_setReg, if_neg fun x => absurd x.1 (by decide), ← State.rf,
    State.rf_count_same (by decide)]
  rfl

theorem trgMiss_evt {w : Nat} : (trgMiss n w s).rb .CL_TRG_EVT n 17 = true := by
  rw [trgMiss, State.rb, State.reg_setTrig, ← State.rb, State.rb_setRb_same _ _ _ _ _ (by decide)]

theorem triggerEvaluate_missed (hsample : SampleOf n u j x (s.at t)) (hq : Qualifies n u x q s)
    (harmed : (tunit (s.trig n) u.val).armed = false) :
    ∃ s', exec (.triggerEvaluate t n j) s = .next s' ∧ (s'.trig n).nextJ = j + 1 ∧ (s'.trig n).queue = (s.trig n).queue ∧
      (s'.trig n).missed = ((s.trig n).missed || trgAuto s n u.val) ∧
      (if trgAuto s n u.val then
        s'.rf .CL_TRG_MISSED (trgIx n u.val) 0 32 = satInc 4294967295 (s.rf .CL_TRG_MISSED (trgIx n u.val) 0 32) ∧
        s'.rb .CL_TRG_EVT n.val 17 = true ∧ Frame [.clasp, .trigs] [.CL_TRG_MISSED, .CL_TRG_EVT] (atCluster n) s s'
      else Frame [.clasp, .trigs] [] (atCluster n) s s') := by
  obtain ⟨-, -, -, -, -, -, -, -, hchanges, -⟩ := id hsample
  obtain ⟨hnext, hqueue, hmissed, hkept, -⟩ := sampleSeen_keeps (x := x) (q := q) (j := j) hchanges
  rw [State.trig_at] at hqueue hmissed hkept
  have hexec := triggerEvaluate_one hsample hq
  rw [sampleActs_unarmed (hkept.trans harmed), trgAuto, State.rb_at, ← trgAuto] at hexec
  have hupd : ∀ (R : Nat), Upd (partSet [.clasp, .trigs]) R (atCluster n) s
      ((s.at t).setTrig n (sampleSeen n u j x q (s.at t))) := fun R =>
    State.setTrig_upd (State.at_upd Upd.refl (by decide)) (by decide) ⟨0, rfl⟩
  refine ⟨_, hexec, ?_⟩
  cases hauto : trgAuto s n u.val
  · rw [if_neg Bool.false_ne_true, if_neg Bool.false_ne_true, State.trig_setTrig_same, Bool.or_false]
    exact ⟨hnext, hqueue, hmissed, (hupd 0).listed (by decide) (by decide)⟩
  · rw [if_pos rfl, if_pos rfl, trgMiss_trig, State.trig_setTrig_same, Bool.or_true]
    refine ⟨hnext, hqueue, rfl, ?_, trgMiss_evt, ?_⟩
    · rw [trgMiss_missed, State.rf, State.reg_setTrig, State.reg_at, State.rf]
    · exact (trgMiss_upd (hupd (regSet [.CL_TRG_MISSED, .CL_TRG_EVT])) (by decide) (by decide) ⟨0, rfl⟩).listed
        (by decide) (by decide)

end Sys2Proof.Machine
end

section
/-! ### What a firing leaves (R263, R266 to R268) -/

namespace Sys2Proof.Machine

variable {s : State} {n : Cluster} {u k : Unit8} {j a : Nat} {q : Qual} {tr : Trig}

/-! The record and the unit's own registers. -/

/-- The record of unit u's firing in sample j. -/
def firingRecord (n : Cluster) (u : Unit8) (j : Nat) (q : Qual) (s : State) : TrigRec :=
  ⟨j, (s.reg .CL_TRG_RECNO n).toNat,
    [(u.val, (q.2.1, ((deadOf (tunit (s.trig n) u)).1, (q.1, q.2.2))))], (s.trig n).missed, false,
    (deadOf (tunit (s.trig n) u)).2, vecAt s n j⟩

theorem trgRecord_trig : (trgRecord n j [(u.val, q)] false s).trig n =
    { s.trig n with queue := (s.trig n).queue ++ [firingRecord n u j q s], missed := false } := by
  have hsat : [(u.val, q)].any (fun f => (deadOf (tunit (s.trig n) f.1)).2) = (deadOf (tunit (s.trig n) u)).2 := by
    rw [List.any_cons, List.any_nil, Bool.or_false]
  unfold trgRecord
  dsimp only
  rw [hsat]
  split
  · rw [State.trig_setRb, State.countWrap, State.setRf, State.trig_setReg, State.trig_setTrig_same]; rfl
  · rw [State.countWrap, State.setRf, State.trig_setReg, State.trig_setTrig_same]; rfl

theorem trgRecord_recno : (trgRecord n j [(u.val, q)] false s).reg .CL_TRG_RECNO n = s.reg .CL_TRG_RECNO n + 1#32 := by
  unfold trgRecord
  dsimp only
  split
  · rw [State.setRb, State.reg_setReg, if_neg fun x => absurd x.1 (by decide), State.reg_countWrap_word, State.reg_setTrig]
    rfl
  · rw [State.reg_countWrap_word, State.reg_setTrig]
    rfl

theorem trgRecord_reg {fs : List (Nat × Qual)} {late : Bool} {r : Reg} {i : Nat} (hrecno : r ≠ .CL_TRG_RECNO)
    (hevt : r ≠ .CL_TRG_EVT) : (trgRecord n j fs late s).reg r i = s.reg r i := by
  unfold trgRecord
  dsimp only
  split
  · rw [State.setRb, State.reg_setReg, if_neg fun x => hevt x.1, State.countWrap, State.reg_setRf, if_neg fun x => hrecno x.1,
      State.reg_setTrig]
  · rw [State.countWrap, State.reg_setRf, if_neg fun x => hrecno x.1, State.reg_setTrig]

theorem trgFire_trig : (trgFire n j u s).trig n = setTunit (s.trig n) u
    { tunit (s.trig n) u with armed := false, fired := some (8 * j), rearmed := none } := by
  rw [trgFire, State.setRf, State.trig_setReg, State.trig_setTrig_same, State.trig_setRb, State.count, State.setRf,
    State.trig_setReg]

/-- The registers of unit u after its firing: its count and event, and whether it waits to re-arm. -/
theorem trgFire_regs : (trgFire n j u s).rf .CL_TRG_FIRECNT (trgIx n u) 0 32 =
      satInc 4294967295 (s.rf .CL_TRG_FIRECNT (trgIx n u) 0 32) ∧
    (trgFire n j u s).rb .CL_TRG_EVT n u = true ∧
    (trgFire n j u s).rf .CL_TRG_USTAT (trgIx n u) 0 2 = 2 * b2n (trgAuto s n u) ∧
    (trgFire n j u s).reg .CL_TRG_RECNO n = s.reg .CL_TRG_RECNO n := by
  have hle := b2n_le (trgAuto s n u)
  have hu : u.val < 32 := by omega
  refine ⟨?_, ?_, ?_, ?_⟩
  · rw [trgFire, State.rf, State.reg_setRf, if_neg fun x => absurd x.1 (by decide), State.reg_setTrig, State.setRb,
      State.reg_setReg, if_neg fun x => absurd x.1 (by decide), ← State.rf, State.rf_count_same (by decide)]
    rfl
  · rw [trgFire, State.rb, State.reg_setRf, if_neg fun x => absurd x.1 (by decide), State.reg_setTrig, ← State.rb,
      State.rb_setRb_same _ _ _ _ _ hu]
  · rw [trgFire, State.rf_setRf_same _ _ _ _ _ _ (by decide)]
    omega
  · rw [trgFire, State.reg_setRf, if_neg fun x => absurd x.1 (by decide), State.reg_setTrig, State.setRb, State.reg_setReg,
      if_neg fun x => absurd x.1 (by decide), State.reg_count, if_neg fun x => absurd x.1 (by decide)]

/-! The arming that a firing gives to units. -/

/-- What CL_TRG_ACT makes of unit k's arming: DISARM stands over ARM. -/
def actArming (w : Word) (k : Nat) : Option Bool :=
  if bitOf w (16 + k) then some false else if bitOf w (24 + k) then some true else none

/-- Unit k's turn. -/
def actArmTurn (n : Cluster) (w : Word) (a : Nat) (s : State) (k : Unit8) : State :=
  match actArming w k with
  | some on => trgArm n k on (a / 8 + 1) s
  | none => s

theorem actArm_eq : actArm n u a s = (List.finRange 8).foldl (actArmTurn n (s.reg .CL_TRG_ACT (trgIx n u)) a) s := by
  have hunits : List.range 8 = (List.finRange 8).map Fin.val := by decide
  unfold actArm
  rw [hunits, List.foldl_map]
  congr 1
  funext s' v
  unfold actArmTurn actArming
  split
  · rfl
  · split <;> rfl

theorem actArmTurn_ustat {w : Word} {v : Unit8} : (actArmTurn n w a s v).rf .CL_TRG_USTAT (trgIx n k) 0 2 =
    if k = v then (actArming w k).elim (s.rf .CL_TRG_USTAT (trgIx n k) 0 2) b2n else s.rf .CL_TRG_USTAT (trgIx n k) 0 2 := by
  unfold actArmTurn
  by_cases hkv : k = v
  · subst hkv
    rw [if_pos rfl]
    cases actArming w k
    · rfl
    · exact trgArm_ustat
  · rw [if_neg hkv]
    cases actArming w v
    · rfl
    · exact trgArm_ustat_other fun h => hkv (trgIx_inj.1 h)

theorem actArmTurns_ustat {w : Word} {l : List Unit8} :
    (l.foldl (actArmTurn n w a) s).rf .CL_TRG_USTAT (trgIx n k) 0 2 =
      if k ∈ l then (actArming w k).elim (s.rf .CL_TRG_USTAT (trgIx n k) 0 2) b2n
      else s.rf .CL_TRG_USTAT (trgIx n k) 0 2 := by
  induction l generalizing s with
  | nil => rfl
  | cons v l ih =>
    rw [List.foldl_cons, ih, actArmTurn_ustat]
    by_cases hkv : k = v
    · rw [if_pos hkv, if_pos (List.mem_cons.2 (.inl hkv))]
      cases actArming w k <;> simp
    · simp only [List.mem_cons, hkv, false_or, if_false]

theorem actArm_ustat : (actArm n u a s).rf .CL_TRG_USTAT (trgIx n k) 0 2 =
    (actArming (s.reg .CL_TRG_ACT (trgIx n u)) k).elim (s.rf .CL_TRG_USTAT (trgIx n k) 0 2) b2n := by
  rw [actArm_eq, actArmTurns_ustat, if_pos (List.mem_finRange k)]

/-- The actions leave the records that wait and the next sample as they are. -/
def SameRecords (tr tr' : Trig) : Prop := tr'.nextJ = tr.nextJ ∧ tr'.queue = tr.queue

theorem actArm_records : SameRecords (s.trig n) ((actArm n u a s).trig n) := by
  rw [actArm_eq]
  refine List.foldlRecOn (motive := fun s' : State => SameRecords (s.trig n) (s'.trig n)) (List.finRange 8) _ ⟨rfl, rfl⟩
    fun v hv k _ => ?_
  unfold actArmTurn
  split
  · rw [trgArm_trig]; exact hv
  · exact hv

/-! The other actions. -/

/-- After ARM and DISARM, the actions reach no trigger unit. -/
theorem actUnit_rest : Upd (partSet [.chans, .seqs, .cpts, .awgs, .cal]) (regSet actRegs) atAll (actArm n u a s)
    (actUnit n a u s) :=
  actJump_upd (actJump_upd (actWait_upd (actCapture_upd Upd.refl (by decide) (by decide) fun _ => trivial) (by decide)
    ⟨0, trivial⟩) (by decide) ⟨0, trivial⟩) (by decide) ⟨0, trivial⟩

theorem actUnit_ustat : (actUnit n a u s).rf .CL_TRG_USTAT (trgIx n k) 0 2 =
    (actArming (s.reg .CL_TRG_ACT (trgIx n u)) k).elim (s.rf .CL_TRG_USTAT (trgIx n k) 0 2) b2n :=
  (actUnit_rest.rf _ _ _ _ (by decide)).trans actArm_ustat

theorem actUnit_records : SameRecords (s.trig n) ((actUnit n a u s).trig n) := by
  rw [actUnit_rest.trig_eq (by decide)]; exact actArm_records

/-- A firing that a WTRIG waits for reaches it at A + 64. -/
theorem actWait_named {w : Wait} {src : PAddr} {un lim : Nat} {rest : List QEntry} (hwait : (s.seq n).wait = some w)
    (hqueue : (s.seq n).q = .wtrig src un lim :: rest) (hnamed : un / 2 ^ u.val % 2 = 1) (hfired : w.fired = none)
    (hstart : w.start ≤ a + 64) :
    actWait n u a s = s.setSeq n { s.seq n with wait := some { w with fired := some (a + 64) } } := by
  unfold actWait
  dsimp only
  rw [hwait, hqueue]
  exact if_pos ⟨hnamed, hfired, hstart⟩

theorem actUnit_wait {w : Wait} {src : PAddr} {un lim : Nat} {rest : List QEntry} (hwait : (s.seq n).wait = some w)
    (hqueue : (s.seq n).q = .wtrig src un lim :: rest) (hnamed : un / 2 ^ u.val % 2 = 1) (hfired : w.fired = none)
    (hstart : w.start ≤ a + 64) :
    ((actUnit n a u s).seq n).wait = some { w with fired := some (a + 64) } ∧ ((actUnit n a u s).seq n).q = (s.seq n).q := by
  have hbefore : (actCapture n u (actArm n u a s)).seq n = s.seq n :=
    (actCapture_upd (K := partSet [.chans, .trigs, .cpts, .cal]) (R := regSet (.CL_TRG_USTAT :: actRegs)) (C := atAll)
      (actArm_upd Upd.refl (by decide) (by decide) ⟨0, trivial⟩) (by decide) (by decide)
      fun _ => trivial).seq_eq (by decide)
  have hafter : (actUnit n a u s).seq n = (actWait n u a (actCapture n u (actArm n u a s))).seq n :=
    (actJump_upd (K := partSet [.awgs]) (R := 0) (C := atAll) (actJump_upd Upd.refl (by decide) ⟨0, trivial⟩) (by decide)
      ⟨0, trivial⟩).seq_eq (by decide)
  rw [hafter, actWait_named (hbefore ▸ hwait) (hbefore ▸ hqueue) hnamed hfired hstart, State.seq_setSeq_same, hbefore]
  exact ⟨rfl, rfl⟩

end Sys2Proof.Machine
end

section
/-! ### A firing on a ring line (R267, R353, R400, R401) -/

namespace Sys2Proof.Machine

variable {s : State} {n : Cluster} {k a : Nat}

theorem trigEvent_records {m : Cluster} {x : TrigEvt} : SameRecords (s.trig n) ((s.trigEvent m x).trig n) := by
  by_cases hnm : n = m
  · subst hnm
    rw [State.trigEvent, State.trig_setTrig_same]
    exact ⟨rfl, rfl⟩
  · have hother : (s.trigEvent m x).trig n = s.trig n := tabGet_tabSet_ne _ _ _ _ fun h => hnm (Fin.ext h)
    rw [hother]
    exact ⟨rfl, rfl⟩

theorem forClusters_trigEvent_records {tr : Trig} {x : TrigEvt} (h : SameRecords tr (s.trig n)) :
    SameRecords tr ((forClusters (fun m s => s.trigEvent m x) s).trig n) := by
  unfold forClusters
  refine List.foldlRecOn (motive := fun s' : State => SameRecords tr (s'.trig n)) (List.finRange 24) _ h fun v hv m _ => ?_
  obtain ⟨hnext, hqueue⟩ := trigEvent_records (s := v) (n := n) (m := m) (x := x)
  exact ⟨hnext.trans hv.1, hqueue.trans hv.2⟩

theorem count_records {r r' : Reg} {i len b : Nat} {v : Bool} :
    SameRecords (s.trig n) (((s.count r i len).setRb r' 0 b v).trig n) := by
  rw [State.trig_setRb, State.count, State.setRf, State.trig_setReg]
  exact ⟨rfl, rfl⟩

theorem records_ite {tr : Trig} {c : Prop} [Decidable c] {a b : State} (ha : SameRecords tr (a.trig n))
    (hb : SameRecords tr (b.trig n)) : SameRecords tr ((if c then a else b).trig n) := by
  split
  · exact ha
  · exact hb

theorem ringLineSend_records : SameRecords (s.trig n) ((ringLineSend n k a s).trig n) := by
  unfold ringLineSend
  refine records_ite (records_ite (records_ite ?_ count_records) ⟨rfl, rfl⟩) count_records
  exact forClusters_trigEvent_records ⟨rfl, rfl⟩

/-- A line that the cluster holds and the part sends on, in SYNC, with room for the message. -/
theorem ringLineSend_sends (hsem : (s.sem (2 + k)).holder.map (·.1) = some (8 + n.val)) (htx : s.rb .RING_LINE_TX 0 k = true)
    (hsync : ringState s = 3) (hroom : (s.ring.lines.filter fun y => decide (y.1 = k)).length < 8) :
    (ringLineSend n k a s).ring.lines = s.ring.lines ++ [(k, (a + s.rf .RING_TLEAD 0 0 18, a))] := by
  obtain ⟨h, hholder, hcluster⟩ := Option.map_eq_some_iff.1 hsem
  unfold ringLineSend
  dsimp only
  rw [hholder]
  dsimp only
  rw [if_pos (decide_eq_true hcluster), if_pos ⟨htx, hsync⟩, if_pos hroom]
  exact List.foldlRecOn (motive := fun s' : State => s'.ring.lines = _) (List.finRange 24) _ rfl fun v hv _ _ => hv

end Sys2Proof.Machine
end

section
/-! ### A qualification that fires (R253, R263 to R268) -/

namespace Sys2Proof.Machine

variable {s : State} {n : Cluster} {u k : Unit8} {j t : Nat} {x : TrigEvt} {q : Qual} {tr : Trig}

/-- The lines that the action word of unit u's firing selects. -/
def actRing (w : Word) : List Nat := if bitOf w 11 then [fld w 8 3] else []

theorem actLines_one : actLines s n [u.val] = actRing (s.reg .CL_TRG_ACT (trgIx n u)) := by
  have hline : ∀ v < 8, (List.range 8).filter (fun k => decide (v = k)) = [v] := by decide
  unfold actLines actRing
  simp only [List.any_cons, List.any_nil, Bool.or_false]
  rw [← State.rf, ← State.rb]
  cases s.rb .CL_TRG_ACT (trgIx n u) 11
  · exact List.filter_eq_nil_iff.2 fun _ _ => Bool.false_ne_true
  · simp only [Bool.true_and]
    exact hline _ (Nat.mod_lt _ (by decide))

/-- Unit u has fired in sample j, but for its actions. -/
def unitFired (n : Cluster) (u : Unit8) (j : Nat) (q : Qual) (tr : Trig) (s : State) : State :=
  trgFire n j u (trgRecord n j [(u.val, q)] false (s.setTrig n tr))

/-- Unit u has fired in sample j. -/
def sampleFired (n : Cluster) (u : Unit8) (j : Nat) (q : Qual) (tr : Trig) (s : State) : State :=
  (actRing (s.reg .CL_TRG_ACT (trgIx n u))).foldl (fun s k => ringLineSend n k (8 * j + 112) s)
    (actUnit n (8 * j + 112) u (unitFired n u j q tr s))

theorem sampleActs_armed (harmed : (tunit tr u).armed = true) (hroom : trgFull tr = false) :
    sampleActs n j false tr [(u.val, q)] s = sampleFired n u j q tr s := by
  have hfires : [(u.val, q)].filter (fun f => (tunit tr f.1).armed && !trgFull tr) = [(u.val, q)] := by
    rw [List.filter_singleton, harmed, hroom]; rfl
  have hmisses : [(u.val, q)].filter (fun f => !(tunit tr f.1).armed && trgAuto s n f.1) = [] := by
    rw [List.filter_singleton, harmed]; rfl
  unfold sampleActs
  dsimp only
  rw [hfires, hmisses, List.map_singleton, actLines_one]
  rfl

/-! The state before the actions. -/

theorem unitFired_upd : Upd (partSet [.trigs])
    (regSet [.CL_TRG_FIRECNT, .CL_TRG_USTAT, .CL_TRG_RECNO, .CL_TRG_EVT]) (atCluster n) s (unitFired n u j q tr s) :=
  trgFire_upd (trgRecord_upd (State.setTrig_upd Upd.refl (by decide) ⟨0, rfl⟩) (by decide) (by decide) ⟨0, rfl⟩)
    (by decide) (by decide) ⟨0, rfl⟩

theorem unitFired_records : ((unitFired n u j q tr s).trig n).nextJ = tr.nextJ ∧
    ((unitFired n u j q tr s).trig n).queue = tr.queue ++ [firingRecord n u j q (s.setTrig n tr)] := by
  rw [unitFired, trgFire_trig, (setTunit_keeps ..).1, (setTunit_keeps ..).2.1, trgRecord_trig, State.trig_setTrig_same]
  exact ⟨rfl, rfl⟩

theorem unitFired_regs : (unitFired n u j q tr s).rf .CL_TRG_FIRECNT (trgIx n u) 0 32 =
      satInc 4294967295 (s.rf .CL_TRG_FIRECNT (trgIx n u) 0 32) ∧
    (unitFired n u j q tr s).rb .CL_TRG_EVT n u = true ∧
    (unitFired n u j q tr s).rf .CL_TRG_USTAT (trgIx n u) 0 2 = 2 * b2n (trgAuto s n u) ∧
    (unitFired n u j q tr s).reg .CL_TRG_RECNO n = s.reg .CL_TRG_RECNO n + 1#32 := by
  obtain ⟨hcount, hevt, hustat, hrecno⟩ := trgFire_regs (n := n) (u := u) (j := j)
    (s := trgRecord n j [(u.val, q)] false (s.setTrig n tr))
  rw [State.rf, State.rf, trgRecord_reg (by decide) (by decide), State.reg_setTrig] at hcount
  rw [trgAuto, State.rb, trgRecord_reg (by decide) (by decide), State.reg_setTrig] at hustat
  rw [trgRecord_recno, State.reg_setTrig] at hrecno
  exact ⟨hcount, hevt, hustat, hrecno⟩

/-! The actions. -/

theorem sampleFired_actions : Upd (partSet [.chans, .seqs, .trigs, .cpts, .awgs, .ring, .cal])
    (regSet (.CL_TRG_USTAT :: actRegs)) atAll (unitFired n u j q tr s) (sampleFired n u j q tr s) :=
  foldl_upd (actUnit_upd Upd.refl (by decide) (by decide) fun _ => trivial) fun _ _ h =>
    ringLineSend_upd h (by decide) (by decide) fun _ _ => trivial

/-- What the firing's messages on the ring change. -/
theorem sampleFired_lines : Upd (partSet [.trigs, .ring]) (regSet [.SEM_DENIED, .SEM_EVT, .RING_TLOST, .RING_EVT]) atAll
    (actUnit n (8 * j + 112) u (unitFired n u j q tr s)) (sampleFired n u j q tr s) :=
  foldl_upd Upd.refl fun _ _ h => ringLineSend_upd h (by decide) (by decide) fun _ _ => trivial

theorem sampleFired_records : SameRecords ((unitFired n u j q tr s).trig n) ((sampleFired n u j q tr s).trig n) :=
  List.foldlRecOn (motive := fun s' : State => SameRecords ((unitFired n u j q tr s).trig n) (s'.trig n)) _ _
    actUnit_records fun _ hv _ _ => ⟨ringLineSend_records.1.trans hv.1, ringLineSend_records.2.trans hv.2⟩

theorem sampleFired_ustat : (sampleFired n u j q tr s).rf .CL_TRG_USTAT (trgIx n k) 0 2 =
    (actArming (s.reg .CL_TRG_ACT (trgIx n u)) k).elim ((unitFired n u j q tr s).rf .CL_TRG_USTAT (trgIx n k) 0 2) b2n := by
  rw [sampleFired_lines.rf _ _ _ _ (by decide), actUnit_ustat, unitFired_upd.reg .CL_TRG_ACT _ (by decide)]

/-- The registers that the firing's actions leave as it made them. -/
theorem sampleFired_regs : (sampleFired n u j q tr s).rf .CL_TRG_FIRECNT (trgIx n u) 0 32 =
      satInc 4294967295 (s.rf .CL_TRG_FIRECNT (trgIx n u) 0 32) ∧
    (sampleFired n u j q tr s).rb .CL_TRG_EVT n u = true ∧
    (sampleFired n u j q tr s).reg .CL_TRG_RECNO n = s.reg .CL_TRG_RECNO n + 1#32 := by
  obtain ⟨hcount, hevt, -, hrecno⟩ := unitFired_regs (n := n) (u := u) (j := j) (q := q) (tr := tr) (s := s)
  exact ⟨(sampleFired_actions.rf _ _ _ _ (by decide)).trans hcount,
    (sampleFired_actions.rb _ _ _ (by decide)).trans hevt,
    (sampleFired_actions.reg _ _ (by decide)).trans hrecno⟩

theorem sampleFired_wait {w : Wait} {src : PAddr} {un lim : Nat} {rest : List QEntry} (hwait : (s.seq n).wait = some w)
    (hqueue : (s.seq n).q = .wtrig src un lim :: rest) (hnamed : un / 2 ^ u.val % 2 = 1) (hfired : w.fired = none)
    (hstart : w.start ≤ 8 * j + 176) :
    ((sampleFired n u j q tr s).seq n).wait = some { w with fired := some (8 * j + 176) } ∧
      ((sampleFired n u j q tr s).seq n).q = (s.seq n).q := by
  have hlines : (sampleFired n u j q tr s).seq n = (actUnit n (8 * j + 112) u (unitFired n u j q tr s)).seq n :=
    sampleFired_lines.seq_eq (by decide)
  have hbefore : (unitFired n u j q tr s).seq n = s.seq n := unitFired_upd.seq_eq (by decide)
  rw [hlines, ← hbefore]
  exact actUnit_wait (hbefore ▸ hwait) (hbefore ▸ hqueue) hnamed hfired hstart

/-- The actions before the ring's leave the ring, its registers and the semaphores as they are. -/
theorem sampleFired_sends (hline : bitOf (s.reg .CL_TRG_ACT (trgIx n u)) 11 = true) :
    let line := fld (s.reg .CL_TRG_ACT (trgIx n u)) 8 3
    ringState s = 3 → s.rb .RING_LINE_TX 0 line = true → (s.sem (2 + line)).holder.map (·.1) = some (8 + n.val) →
    (s.ring.lines.filter fun y => decide (y.1 = line)).length < 8 →
    (sampleFired n u j q tr s).ring.lines =
      s.ring.lines ++ [(line, (8 * j + 112 + s.rf .RING_TLEAD 0 0 18, 8 * j + 112))] := by
  intro line hsync htx hsem hroom
  have hupd : Upd (partSet [.chans, .seqs, .trigs, .cpts, .awgs, .cal])
      (regSet (.CL_TRG_FIRECNT :: .CL_TRG_USTAT :: .CL_TRG_RECNO :: .CL_TRG_EVT :: actRegs)) atAll s
      (actUnit n (8 * j + 112) u (unitFired n u j q tr s)) :=
    actUnit_upd { unitFired_upd.mono (by decide) (by decide) with
      within := unitFired_upd.within.mono fun _ _ _ => trivial } (by decide) (by decide) fun _ => trivial
  have hring : (actUnit n (8 * j + 112) u (unitFired n u j q tr s)).ring = s.ring := hupd.parts .ring (by decide)
  have hsems : (actUnit n (8 * j + 112) u (unitFired n u j q tr s)).sem (2 + line) = s.sem (2 + line) := by
    unfold State.sem; rw [hupd.parts .sems (by decide)]
  rw [sampleFired, actRing, if_pos hline, List.foldl_cons, List.foldl_nil, ringLineSend_sends (hsems ▸ hsem)
    ((hupd.rb _ _ _ (by decide)).trans htx) ((hupd.rf _ _ _ _ (by decide)).trans hsync) (hring ▸ hroom),
    hring, hupd.rf _ _ _ _ (by decide)]

/-! The event. -/

theorem triggerEvaluate_fired (hsample : SampleOf n u j x (s.at t)) (hq : Qualifies n u x q s)
    (harmed : (tunit (s.trig n) u.val).armed = true) :
    exec (.triggerEvaluate t n j) s = .next (sampleFired n u j q (sampleSeen n u j x q (s.at t)) (s.at t)) := by
  obtain ⟨-, -, -, -, -, -, -, -, hchanges, hroom⟩ := id hsample
  obtain ⟨-, hqueue, -, hkept, -⟩ := sampleSeen_keeps (x := x) (q := q) (j := j) hchanges
  rw [triggerEvaluate_one hsample hq, sampleActs_armed (by rw [hkept, State.trig_at]; exact harmed)]
  rw [trgFull, hqueue]
  exact decide_eq_false (Nat.not_le.2 hroom)

/-- The registers of the units and of their actions. -/
def trgRegs : List Reg := .CL_TRG_MISSED :: .CL_TRG_FIRECNT :: .CL_TRG_USTAT :: .CL_TRG_RECNO :: .CL_TRG_EVT :: actRegs

theorem triggerEvaluate_frame {s' : State} (hexec : exec (.triggerEvaluate t n j) s = .next s') :
    Frame [.clasp, .chans, .seqs, .trigs, .cpts, .awgs, .ring, .cal] trgRegs atAll s s' := by
  have hupd : ResUpd (partSet [.clasp, .chans, .seqs, .trigs, .cpts, .awgs, .ring, .cal]) (regSet trgRegs) atAll s
      (execTriggerEvaluate t n j s) := execTriggerEvaluate_upd Upd.refl (by decide) (by decide) fun _ _ => trivial
  rw [show execTriggerEvaluate t n j s = .next s' from hexec] at hupd
  exact Upd.listed hupd (Nat.or_self _) (Nat.or_self _)

theorem triggerEvaluate_fires (hsample : SampleOf n u j x (s.at t)) (hq : Qualifies n u x q s)
    (harmed : (tunit (s.trig n) u.val).armed = true) :
    let v := tunit (s.trig n) u.val
    let act := s.reg .CL_TRG_ACT (trgIx n u.val)
    ∃ s', exec (.triggerEvaluate t n j) s = .next s' ∧ (s'.trig n).nextJ = j + 1 ∧
      s'.rf .CL_TRG_FIRECNT (trgIx n u.val) 0 32 = satInc 4294967295 (s.rf .CL_TRG_FIRECNT (trgIx n u.val) 0 32) ∧
      s'.rb .CL_TRG_EVT n.val u.val = true ∧
      (s'.trig n).queue = (s.trig n).queue ++ [⟨j, (s.reg .CL_TRG_RECNO n.val).toNat,
        [(u.val, (q.2.1, ((deadOf v).1, (q.1, q.2.2))))], (s.trig n).missed, false, (deadOf v).2, vecAt s n j⟩] ∧
      s'.reg .CL_TRG_RECNO n.val = s.reg .CL_TRG_RECNO n.val + 1#32 ∧
      (bitOf act (16 + u.val) = false → bitOf act (24 + u.val) = false →
        s'.rf .CL_TRG_USTAT (trgIx n u.val) 0 2 = 2 * b2n (trgAuto s n u.val)) ∧
      (∀ k : Unit8, bitOf act (16 + k.val) = true → s'.rf .CL_TRG_USTAT (trgIx n k.val) 0 2 = 0) ∧
      (∀ k : Unit8, bitOf act (16 + k.val) = false → bitOf act (24 + k.val) = true →
        s'.rf .CL_TRG_USTAT (trgIx n k.val) 0 2 = 1) ∧
      (bitOf act 11 = true → ringState s = 3 → s.rb .RING_LINE_TX 0 (fld act 8 3) = true →
        (s.sem (2 + fld act 8 3)).holder.map (·.1) = some (8 + n.val) →
        (s.ring.lines.filter fun y => decide (y.1 = fld act 8 3)).length < 8 →
        s'.ring.lines = s.ring.lines ++ [(fld act 8 3, (8 * j + 112 + s.rf .RING_TLEAD 0 0 18, 8 * j + 112))]) ∧
      Frame [.clasp, .chans, .seqs, .trigs, .cpts, .awgs, .ring, .cal] trgRegs atAll s s' := by
  intro v act
  obtain ⟨-, -, -, -, -, -, -, -, hchanges, -⟩ := id hsample
  obtain ⟨hnext, hqueue, hmissed, -, hdead⟩ := sampleSeen_keeps (x := x) (q := q) (j := j) hchanges
  have hexec := triggerEvaluate_fired hsample hq harmed
  generalize sampleSeen n u j x q (s.at t) = tr at hnext hqueue hmissed hdead hexec
  obtain ⟨hcount, hevt, hrecno⟩ := sampleFired_regs (n := n) (u := u) (j := j) (q := q) (tr := tr) (s := s.at t)
  obtain ⟨hsample', hrecords⟩ := sampleFired_records (n := n) (u := u) (j := j) (q := q) (tr := tr) (s := s.at t)
  obtain ⟨hfiredNext, hfiredQueue⟩ := unitFired_records (n := n) (u := u) (j := j) (q := q) (tr := tr) (s := s.at t)
  have hustat : ∀ k : Unit8, (sampleFired n u j q tr (s.at t)).rf .CL_TRG_USTAT (trgIx n k) 0 2 =
      (actArming act k).elim ((unitFired n u j q tr (s.at t)).rf .CL_TRG_USTAT (trgIx n k) 0 2) b2n := fun k => by
    rw [sampleFired_ustat, State.reg_at]
  have hrecord : firingRecord n u j q ((s.at t).setTrig n tr) = ⟨j, (s.reg .CL_TRG_RECNO n.val).toNat,
      [(u.val, (q.2.1, ((deadOf v).1, (q.1, q.2.2))))], (s.trig n).missed, false, (deadOf v).2, vecAt s n j⟩ := by
    rw [State.trig_at] at hmissed hdead
    have hvec : vecAt ((s.at t).setTrig n tr) n j = vecAt s n j := by rw [State.at_eq]; rfl
    rw [firingRecord, State.trig_setTrig_same, hdead, hmissed, hvec, State.reg_setTrig, State.reg_at]
  refine ⟨_, hexec, ?_, ?_, hevt, ?_, ?_, fun h16 h24 => ?_, fun k h16 => ?_, fun k h16 h24 => ?_, fun hline => ?_,
    triggerEvaluate_frame hexec⟩
  · rw [hsample', hfiredNext, hnext]
  · rw [hcount, State.rf_at]
  · rw [hrecords, hfiredQueue, hrecord, hqueue, State.trig_at]
  · rw [hrecno, State.reg_at]
  · rw [hustat, actArming, h16, h24]
    exact unitFired_regs.2.2.1.trans (by rw [trgAuto, State.rb_at, ← trgAuto])
  · rw [hustat, actArming, h16]; rfl
  · rw [hustat, actArming, h16, h24]; rfl
  · have hsends := sampleFired_sends (n := n) (u := u) (j := j) (q := q) (tr := tr) (s := s.at t)
      (by rw [State.reg_at]; exact hline)
    rw [State.at_eq] at hsends ⊢
    exact hsends

theorem triggerEvaluate_waited {un lim : Nat} {src : PAddr} {rest : List QEntry} {w : Wait}
    (hsample : SampleOf n u j x (s.at t)) (hq : Qualifies n u x q s) (harmed : (tunit (s.trig n) u.val).armed = true)
    (hwait : (s.seq n).wait = some w) (hqueue : (s.seq n).q = .wtrig src un lim :: rest) (hnamed : un / 2 ^ u.val % 2 = 1)
    (hfired : w.fired = none) (hstart : w.start ≤ 8 * j + 176) :
    ∃ s', exec (.triggerEvaluate t n j) s = .next s' ∧ (s'.seq n).wait = some { w with fired := some (8 * j + 176) } ∧
      (s'.seq n).q = (s.seq n).q ∧
      Frame [.clasp, .chans, .seqs, .trigs, .cpts, .awgs, .ring, .cal] trgRegs atAll s s' := by
  have hexec := triggerEvaluate_fired hsample hq harmed
  rw [← State.seq_at (t := t)] at hwait hqueue ⊢
  obtain ⟨hoffered, hkept⟩ := sampleFired_wait (s := s.at t) hwait hqueue hnamed hfired hstart
  exact ⟨_, hexec, hoffered, hkept, triggerEvaluate_frame hexec⟩

end Sys2Proof.Machine
end

section
/-! ### The trigger window (R268, R269) -/

namespace Sys2Proof.Machine

variable {s : State} {n : Cluster} {t : Nat} {r : TrigRec} {rest : List TrigRec}

/-- The slots of the trigger window, the one that the next record goes to, and its address. -/
def trgWinSize (s : State) (n : Cluster) : Nat := sizeOr (s.rf .CL_TRG_WIN_SIZE n 0 16) 65536
def trgWinSlot (s : State) (n : Cluster) : Nat := s.rf .CL_TRG_WIN_WPTR n 0 16
def trgWinAddr (s : State) (n : Cluster) : Nat := s.rf .CL_TRG_WIN_BASE n 7 19 * 128 + trgWinSlot s n * 128

theorem idxNext_trgWinSize_lt (w : Nat) : idxNext w (trgWinSize s n) < 2 ^ 16 := by
  have hfield : s.rf .CL_TRG_WIN_SIZE n 0 16 < 2 ^ 16 := Nat.mod_lt _ (by decide)
  have hsize : 0 < trgWinSize s n ∧ trgWinSize s n ≤ 2 ^ 16 := by unfold trgWinSize sizeOr; split <;> omega
  exact Nat.lt_of_lt_of_le (Nat.mod_lt _ hsize.1) hsize.2

theorem trigEntry_length {u : Nat} : (trigEntry r u).length = 12 := by
  unfold trigEntry
  split
  · simp only [List.length_append, leBytes_length, List.length_cons, List.length_nil]
  · exact List.length_replicate

theorem trigBytes_length : (trigBytes r).length = 128 := by
  have hentries : ((List.range 8).flatMap (trigEntry r)).length = 96 := by
    rw [List.length_flatMap, List.map_congr_left fun _ _ => trigEntry_length]; rfl
  simp only [trigBytes, List.length_append, leBytes_length, List.length_cons, List.length_nil, List.length_replicate, hentries]

/-- The oldest record is in the window and off the queue, the index has advanced, and the log queue is next. -/
def trgRecordWritten (n : Cluster) (r : TrigRec) (rest : List TrigRec) (s u : State) : State :=
  ((u.setBytes (trgWinAddr s n) (trigBytes r)).setTrig n
    { s.trig n with queue := rest, turn := true, roomAt := if trgFull (s.trig n) then u.clasp else (s.trig n).roomAt }).setRf
    .CL_TRG_WIN_WPTR n 0 16 (idxNext (trgWinSlot s n) (trgWinSize s n))

theorem triggerRecordWrite_served (hqueue : (s.trig n).queue = r :: rest) (hroom : trgWinFull s n = false)
    (hturn : (s.trig n).turn = false ∨ (s.seq n).log = []) (hserved : streamServed s n 0 false (trgWinAddr s n) 128 = true)
    (hadmits : memAdmits s (.cluster n 0) false (trgWinAddr s n) 128 = true) :
    exec (.triggerRecordWrite t n) s = .next (trgRecordWritten n r rest s (s.at t)) := by
  have hwrite : engineWrite n 0 false (trgWinAddr s n) (trigBytes r) (s.at t) =
      some ((s.at t).setBytes (trgWinAddr s n) (trigBytes r)) := by
    refine engineWrite_granted ?_ ?_ ?_
    · rw [trigBytes_length]
      exact partsOf_one_bank (by decide) (by unfold trgWinAddr; omega)
    · rw [trigBytes_length, ← hserved, State.at_eq]; rfl
    · rw [trigBytes_length, ← hadmits, State.at_eq]; rfl
  have htrig : ((s.at t).setBytes (trgWinAddr s n) (trigBytes r)).trig n = s.trig n :=
    ((State.setBytes_upd (K := 2) (R := 0) (C := atNone) Upd.refl (by decide)).trig_eq (by decide)).trans (State.trig_at ..)
  have hfree : ¬ (trgWinFull (s.at t) n = true ∨ (s.trig n).turn = true ∧ (s.seq n).log ≠ []) := by
    rw [show trgWinFull (s.at t) n = trgWinFull s n by rw [State.at_eq]; rfl, hroom]
    rcases hturn with h | h <;> simp [h]
  rw [trgWinAddr, trgWinSlot] at hwrite htrig
  show execTriggerRecordWrite t n s = _
  unfold execTriggerRecordWrite
  dsimp only
  rw [State.trig_at, State.seq_at, hqueue]
  dsimp only
  rw [State.rf_at, State.rf_at, State.rf_at, if_neg hfree, hwrite]
  dsimp only
  rw [htrig]
  rfl

theorem triggerRecordWrite_holds (hqueue : (s.trig n).queue = r :: rest) (hroom : trgWinFull s n = false)
    (hturn : (s.trig n).turn = false ∨ (s.seq n).log = []) (hserved : streamServed s n 0 false (trgWinAddr s n) 128 = true)
    (hadmits : memAdmits s (.cluster n 0) false (trgWinAddr s n) 128 = true) :
    ∃ s', exec (.triggerRecordWrite t n) s = .next s' ∧ Written (trgWinAddr s n) (trigBytes r) s s' ∧
      (s'.trig n).queue = rest ∧ s'.rf .CL_TRG_WIN_WPTR n.val 0 16 = idxNext (trgWinSlot s n) (trgWinSize s n) ∧
      (s'.trig n).turn = true ∧ Frame [.clasp, .mem, .trigs] [.CL_TRG_WIN_WPTR] (atCluster n) s s' := by
  have hupd : Upd (partSet [.clasp, .mem, .trigs]) (regSet [.CL_TRG_WIN_WPTR]) (atCluster n) s
      (trgRecordWritten n r rest s (s.at t)) :=
    State.setRf_upd (State.setTrig_upd (State.setBytes_upd (State.at_upd Upd.refl (by decide)) (by decide)) (by decide)
      ⟨0, rfl⟩) (by decide) (RegOk.one rfl ⟨0, rfl⟩)
  refine ⟨_, triggerRecordWrite_served hqueue hroom hturn hserved hadmits, fun x => ?_, ?_, ?_, ?_,
    hupd.listed (by decide) (by decide)⟩
  · rw [trgRecordWritten, State.setRf, State.byte_setReg, State.byte_setTrig, State.byte_setBytes, State.byte_at]
  · rw [trgRecordWritten, State.setRf, State.trig_setReg, State.trig_setTrig_same]
  · rw [trgRecordWritten, State.rf_setRf_same _ _ _ _ _ _ (by decide), Nat.mod_eq_of_lt (idxNext_trgWinSize_lt _)]
  · rw [trgRecordWritten, State.setRf, State.trig_setReg, State.trig_setTrig_same]

end Sys2Proof.Machine
end

section
/-! ### Trigger units (R253, R262 to R268) -/

namespace Sys2Proof.Machine

/-- Settles O36: a sample of one event comes down to unit u's look at it, and then to what its firing does step by step, or
to its being missed; the rest is arming, re-arming and the window. -/
theorem triggersFireWhereTheyQualify : Obligations.TriggersFireWhereTheyQualify := by
  unfold Obligations.TriggersFireWhereTheyQualify
  exact ⟨fun _ _ _ _ _ _ _ hsample hq harmed => triggerEvaluate_fires hsample hq harmed,
    fun _ _ _ _ _ _ _ _ _ _ _ _ hsample hq harmed hwait hqueue hnamed hfired hstart =>
      triggerEvaluate_waited hsample hq harmed hwait hqueue hnamed hfired hstart,
    fun _ _ _ _ _ _ _ hsample hq harmed => triggerEvaluate_missed hsample hq harmed,
    fun _ _ _ _ _ _ hacc h1 => triggerArm_holds hacc h1,
    fun _ _ _ _ _ _ hacc => triggerDisarm_holds hacc,
    fun _ _ _ _ _ hfired hdead hauto hroom hover => triggerRearm_holds hfired hdead hauto hroom hover,
    fun _ _ _ _ _ hqueue hroom hturn hserved hadmits => triggerRecordWrite_holds hqueue hroom hturn hserved hadmits⟩

end Sys2Proof.Machine
end

section
/-! ### START of a capture engine (R272) -/

namespace Sys2Proof.Machine

variable {s : State} {n : Cluster} {e : Fin 2} {d : Word} {q : Req} {t : Nat}

/-- An accepted command that writes CL_CAP_CTRL does what its chapter says, and ends the cluster's gating (R428). -/
theorem cmdWrite_capCtrl {set : Word} (h : Accepted q .CL_CAP_CTRL (awgIx n e) (d ||| set) s) :
    cmdWrite q .CL_CAP_CTRL (awgIx n e) d set s = ungate n.val (cptCtrlWrite n e (d ||| set) 0xFFFFFFFF#32 s) := by
  have hsize : awgIx n e < Reg.CL_CAP_CTRL.size := by
    rw [show Reg.CL_CAP_CTRL.size = 48 from rfl, awgIx]; omega
  have hof : Reg.cluOf .CL_CAP_CTRL (awgIx n e) = n.val := by unfold Reg.cluOf awgIx; simp only [Reg.row]; omega
  obtain ⟨s', hput, hwrite⟩ := cmdWrite_cluster (by decide) rfl hsize hof h
  have hchapter : cluPut q n .CL_CAP_CTRL (awgIx n e) (d ||| set) 0xFFFFFFFF#32 s =
      .ok (cptCtrlWrite n (elemGen (awgIx n e)) (d ||| set) 0xFFFFFFFF#32 s) := rfl
  rw [hchapter, elemGen_awgIx] at hput
  cases hput
  exact hwrite

/-- The word that the command stores in CL_CAP_CTRL. -/
def capCtrlStored (n : Cluster) (e : Fin 2) (d : Word) (s : State) : State :=
  plainWrite .CL_CAP_CTRL (awgIx n e) d 0xFFFFFFFF#32 s

theorem capCtrlStored_reg {r : Reg} {i : Nat} (h : r ≠ .CL_CAP_CTRL) : (capCtrlStored n e d s).reg r i = s.reg r i :=
  (plainWrite_reg ..).trans (if_neg fun x => h x.1)
theorem capCtrlStored_rb {r : Reg} {i b : Nat} (h : r ≠ .CL_CAP_CTRL) : (capCtrlStored n e d s).rb r i b = s.rb r i b :=
  congrArg (bitOf · b) (capCtrlStored_reg h)
theorem capCtrlStored_rf {r : Reg} {i lo len : Nat} (h : r ≠ .CL_CAP_CTRL) :
    (capCtrlStored n e d s).rf r i lo len = s.rf r i lo len := congrArg (fld · lo len) (capCtrlStored_reg h)
theorem capCtrlStored_cpt : (capCtrlStored n e d s).cpt n e = s.cpt n e := State.cpt_setReg ..
theorem capCtrlStored_clasp : (capCtrlStored n e d s).clasp = s.clasp := rfl
theorem capCtrlStored_run : cptRun (capCtrlStored n e d s) n e = cptRun s n e := capCtrlStored_rb (by decide)
theorem rwOf_capCtrl (i : Nat) : Reg.rwOf .CL_CAP_CTRL i = 0xFC#32 := rfl
theorem capCtrlStored_claim : cptClaim (capCtrlStored n e d s) n e = fld d 6 2 := by
  rw [cptClaim, State.rf, capCtrlStored, plainWrite_same]
  exact fld_plainWord _ _ _ _ _ _ (by decide) (by rw [rwOf_capCtrl]; decide) (by decide)

theorem capCtrlStored_upd {K R : Nat} {C : Nat → Nat → Prop} {s0 : State} (h : Upd K R C s0 s)
    (hr : R.testBit (Reg.ctorIdx .CL_CAP_CTRL) = true) (hc : ∃ c, C n.val c) : Upd K R C s0 (capCtrlStored n e d s) :=
  plainWrite_upd h hr (RegOk.awg rfl hc)

theorem StartsFree.congr {a b : State} (h : StartsFree n a) (hgov : b.reg .GOV_CLU n = a.reg .GOV_CLU n)
    (hcal : b.reg .CL_CAL_STAT n = a.reg .CL_CAL_STAT n) (hasy : b.reg .ASY_STAT n = a.reg .ASY_STAT n) :
    StartsFree n b := by
  unfold StartsFree govLevel calIntrOn asyBusy calStepOn State.rf State.rb at h ⊢
  rwa [hgov, hcal, hasy]

theorem cptCtrlWrite_start (h0 : bitOf d 0 = true) (h1 : bitOf d 1 = false) (hclaim : fld d 6 2 ≠ 3)
    (hfree : StartsFree n s) : cptCtrlWrite n e d 0xFFFFFFFF#32 s = cptStart n e (capCtrlStored n e d s) := by
  have hfree' : StartsFree n (capCtrlStored n e d s) :=
    hfree.congr (capCtrlStored_reg (by decide)) (capCtrlStored_reg (by decide)) (capCtrlStored_reg (by decide))
  have hgo : (bitOf d 0 && decide (cptClaim (capCtrlStored n e d s) n e ≠ 3)) = true := by
    rw [h0, capCtrlStored_claim, decide_eq_true hclaim]; rfl
  unfold cptCtrlWrite
  dsimp only
  rw [← capCtrlStored, ones_full, ones_full, hgo, h1, if_neg Bool.false_ne_true, if_pos rfl, startLevel_free hfree']

/-- The first MEAS edge at or after tick t. -/
def measEdgeFrom (t : Nat) : Nat := (t + 31) / 32 * 32

/-- An engine that does not run starts at tick b. -/
def cptStarted (n : Cluster) (e : Fin 2) (b : Nat) (s : State) : State :=
  (((s.setCpt n e { t0 := b, k := 0, acc := [], mark := false, stopK := none, queue := (s.cpt n e).queue }).setPair
    .CL_CAP_T0_LO .CL_CAP_T0_HI (awgIx n e) b).setReg .CL_CAP_STAT (awgIx n e) 1#32).setReg .CL_CAP_ICNT (awgIx n e) 0#32

theorem cptStart_idle (h : cptRun s n e = false) : cptStart n e s = cptStarted n e (measEdgeFrom s.clasp) s := by
  unfold cptStart; rw [h, if_neg Bool.false_ne_true]; rfl

section
variable {b : Nat}

theorem cptStarted_stat : (cptStarted n e b s).reg .CL_CAP_STAT (awgIx n e) = 1#32 := by
  rw [cptStarted, State.reg_setReg, if_neg (by simp), State.reg_setReg_same]
theorem cptStarted_icnt : (cptStarted n e b s).reg .CL_CAP_ICNT (awgIx n e) = 0#32 := State.reg_setReg_same ..
theorem cptStarted_t0 (h : b < 2 ^ 64) : (cptStarted n e b s).pair .CL_CAP_T0_LO .CL_CAP_T0_HI (awgIx n e) = b := by
  refine Eq.trans ?_ ((ofWords_lo_hi b).trans (Nat.mod_eq_of_lt h))
  simp [State.pair, cptStarted, State.setPair, State.reg_setReg]
theorem cptStarted_cpt : (cptStarted n e b s).cpt n e =
    { t0 := b, k := 0, acc := [], mark := false, stopK := none, queue := (s.cpt n e).queue } := by
  rw [cptStarted, State.cpt_setReg, State.cpt_setReg, State.setPair, State.cpt_setReg, State.cpt_setReg,
    State.cpt_setCpt_same]

end

@[simp] theorem ungate_cpt (k : Nat) : (ungate k s).cpt n e = s.cpt n e := by unfold ungate; split <;> rfl

theorem captureStart_holds (hacc : Accepted q .CL_CAP_CTRL (awgIx n e) (d ||| 1#32) (s.at t)) (h1 : bitOf d 1 = false)
    (hclaim : fld d 6 2 ≠ 3) (hidle : cptRun s n e = false) (hfree : StartsFree n s)
    (hlt : measEdgeFrom (s.at t).clasp < 2 ^ 64) :
    ∃ s', exec (.captureStart t q n e d) s = .next s' ∧ s'.reg .CL_CAP_STAT (awgIx n e) = 1#32 ∧
      s'.reg .CL_CAP_ICNT (awgIx n e) = 0#32 ∧
      s'.pair .CL_CAP_T0_LO .CL_CAP_T0_HI (awgIx n e) = measEdgeFrom (s.at t).clasp ∧
      s'.cpt n e = { t0 := measEdgeFrom (s.at t).clasp, k := 0, acc := [], mark := false, stopK := none,
                     queue := (s.cpt n e).queue } ∧
      Frame [.clasp, .cpts] [.CL_CAP_CTRL, .CL_CAP_STAT, .CL_CAP_ICNT, .CL_CAP_T0_LO, .CL_CAP_T0_HI, .PWR_CLU_GATE]
        (atCluster n) s s' := by
  have h0 : bitOf (d ||| 1#32) 0 = true := by rw [bitOf_or]; simp [bitOf]
  have h1' : bitOf (d ||| 1#32) 1 = false := by rw [bitOf_or, h1]; simp [bitOf]
  have hclaim' : fld (d ||| 1#32) 6 2 ≠ 3 := by rwa [fld_or_apart _ _ _ _ (by decide)]
  have hfree' : StartsFree n (s.at t) := hfree.congr (State.reg_at ..) (State.reg_at ..) (State.reg_at ..)
  have hexec : exec (.captureStart t q n e d) s =
      .next (ungate n.val (cptStart n e (capCtrlStored n e (d ||| 1#32) (s.at t)))) := by
    show execCaptureStart t q n e d s = _
    rw [execCaptureStart, cmdWrite_capCtrl hacc, cptCtrlWrite_start h0 h1' hclaim' hfree']
  have hupd : Upd (partSet [.cpts])
      (regSet [.CL_CAP_CTRL, .CL_CAP_STAT, .CL_CAP_ICNT, .CL_CAP_T0_LO, .CL_CAP_T0_HI]) (atCluster n) (s.at t)
      (cptStart n e (capCtrlStored n e (d ||| 1#32) (s.at t))) :=
    cptStart_upd (capCtrlStored_upd Upd.refl (by decide) ⟨0, rfl⟩) (by decide) (by decide) ⟨0, rfl⟩
  have hframe := (cmdWrite_frame (n := n) hupd).listed (KL := [.clasp, .cpts])
    (RL := [.CL_CAP_CTRL, .CL_CAP_STAT, .CL_CAP_ICNT, .CL_CAP_T0_LO, .CL_CAP_T0_HI, .PWR_CLU_GATE])
    (by decide) (by decide)
  have hrun : cptRun (capCtrlStored n e (d ||| 1#32) (s.at t)) n e = false := by
    rw [capCtrlStored_run, cptRun, State.rb_at]; exact hidle
  rw [cptStart_idle hrun, capCtrlStored_clasp] at hexec hframe
  refine ⟨_, hexec, (ungate_reg (by decide)).trans cptStarted_stat, (ungate_reg (by decide)).trans cptStarted_icnt, ?_, ?_,
    hframe⟩
  · rw [State.pair, ungate_reg (by decide), ungate_reg (by decide)]; exact cptStarted_t0 hlt
  · rw [ungate_cpt, cptStarted_cpt, capCtrlStored_cpt, State.cpt_at]

end Sys2Proof.Machine
end

section
/-! ### The end of an interval, and STOP (R272 to R274) -/

namespace Sys2Proof.Machine

variable {s : State} {n : Cluster} {e : Fin 2} {d : Word} {q : Req} {t x : Nat}

/-- The engine's record once an interval has ended: its records are queued, and a stop point that it reached is spent. -/
def intervalEnded (I : Nat) (x : Cpt) : Cpt :=
  { x with k := x.k + 1, acc := [], mark := false, queue := x.queue ++ intervalRecords x I,
           stopK := if x.stopK = some x.k then none else x.stopK }

theorem intervalRecords_eq (y : Cpt) (I : Nat) : intervalRecords y I = (List.range 32).filterMap fun c =>
    match y.acc.find? fun p => decide (p.1 = c) with
    | some p => some (cptRecord (decide (I = 1)) y.mark y.k I c p.2)
    | none => none := by
  unfold intervalRecords
  congr 1
  funext c
  cases y.acc.find? fun p => decide (p.1 = c) <;> rfl

/-- The interval in progress is over: it is counted and its records are queued, and the next begins. -/
def intervalOver (n : Cluster) (e : Fin 2) (s : State) : State :=
  (s.setCpt n e { s.cpt n e with
    k := (s.cpt n e).k + 1, acc := [], mark := false,
    queue := (s.cpt n e).queue ++ intervalRecords (s.cpt n e) (cptI s n e) }).count .CL_CAP_ICNT (awgIx n e) 32

/-- The engine stops (R273). -/
def cptStopped (n : Cluster) (e : Fin 2) (s : State) : State :=
  ((s.setCpt n e { s.cpt n e with stopK := none }).setReg .CL_CAP_STAT (awgIx n e)
    (s.reg .CL_CAP_STAT (awgIx n e) &&& ~~~ 3#32)).setRb .CL_CAP_EVT n e.val true

theorem cptEnd_eq : cptEnd n e s =
    if (s.cpt n e).stopK = some (s.cpt n e).k then cptStopped n e (intervalOver n e s) else intervalOver n e s := by
  unfold cptEnd cptStopped intervalOver
  rw [intervalRecords_eq]
  rfl

theorem intervalOver_cpt : (intervalOver n e s).cpt n e = { s.cpt n e with
    k := (s.cpt n e).k + 1, acc := [], mark := false,
    queue := (s.cpt n e).queue ++ intervalRecords (s.cpt n e) (cptI s n e) } := by
  rw [intervalOver, State.count, State.setRf, State.cpt_setReg, State.cpt_setCpt_same]
theorem intervalOver_reg {r : Reg} {i : Nat} (h : r ≠ .CL_CAP_ICNT) : (intervalOver n e s).reg r i = s.reg r i := by
  rw [intervalOver, State.reg_count, if_neg fun x => h x.1, State.reg_setCpt]
theorem intervalOver_icnt : (intervalOver n e s).rf .CL_CAP_ICNT (awgIx n e) 0 32 =
    satInc 4294967295 (s.rf .CL_CAP_ICNT (awgIx n e) 0 32) := State.rf_count_same (by decide)

theorem cptStopped_cpt : (cptStopped n e s).cpt n e = { s.cpt n e with stopK := none } := by
  rw [cptStopped, State.setRb, State.cpt_setReg, State.cpt_setReg, State.cpt_setCpt_same]
theorem cptStopped_stat : (cptStopped n e s).reg .CL_CAP_STAT (awgIx n e) =
    s.reg .CL_CAP_STAT (awgIx n e) &&& 0xFFFFFFFC#32 := by
  rw [cptStopped, State.reg_setRb, if_neg (by simp), State.reg_setReg_same]; rfl
theorem cptStopped_evt : (cptStopped n e s).reg .CL_CAP_EVT n.val = putBit (s.reg .CL_CAP_EVT n.val) e.val true := by
  rw [cptStopped, State.reg_setRb, if_pos ⟨rfl, rfl⟩, State.reg_setReg, if_neg (by simp), State.reg_setCpt]
theorem cptStopped_icnt : (cptStopped n e s).rf .CL_CAP_ICNT (awgIx n e) 0 32 = s.rf .CL_CAP_ICNT (awgIx n e) 0 32 := by
  rw [cptStopped, State.rf, State.reg_setRb, if_neg (by simp), State.reg_setReg, if_neg (by simp), State.reg_setCpt, ← State.rf]

theorem cptEnd_cpt : (cptEnd n e s).cpt n e = intervalEnded (cptI s n e) (s.cpt n e) := by
  rw [cptEnd_eq]
  split
  · rename_i hstop
    rw [cptStopped_cpt, intervalOver_cpt, intervalEnded, if_pos hstop]
  · rename_i hgoes
    rw [intervalOver_cpt, intervalEnded, if_neg hgoes]

theorem cptEnd_stat : (cptEnd n e s).reg .CL_CAP_STAT (awgIx n e) = if (s.cpt n e).stopK = some (s.cpt n e).k then
    s.reg .CL_CAP_STAT (awgIx n e) &&& 0xFFFFFFFC#32 else s.reg .CL_CAP_STAT (awgIx n e) := by
  rw [cptEnd_eq]
  split
  · rw [cptStopped_stat, intervalOver_reg (by decide)]
  · exact intervalOver_reg (by decide)

theorem cptEnd_evt : (cptEnd n e s).reg .CL_CAP_EVT n.val = if (s.cpt n e).stopK = some (s.cpt n e).k then
    putBit (s.reg .CL_CAP_EVT n.val) e.val true else s.reg .CL_CAP_EVT n.val := by
  rw [cptEnd_eq]
  split
  · rw [cptStopped_evt, intervalOver_reg (by decide)]
  · exact intervalOver_reg (by decide)

theorem cptEnd_icnt : (cptEnd n e s).rf .CL_CAP_ICNT (awgIx n e) 0 32 =
    satInc 4294967295 (s.rf .CL_CAP_ICNT (awgIx n e) 0 32) := by
  rw [cptEnd_eq]
  split
  · rw [cptStopped_icnt, intervalOver_icnt]
  · exact intervalOver_icnt

/-- The registers and parts that the end of intervals may change. -/
theorem cptCatch_changes : Upd (partSet [.cpts]) (regSet [.CL_CAP_STAT, .CL_CAP_ICNT, .CL_CAP_EVT]) (atCluster n) s
    (cptCatch n e x s) := cptCatch_upd Upd.refl (by decide) (by decide) ⟨0, rfl⟩

theorem cptEnd_interval : cptI (cptEnd n e s) n e = cptI s n e := by
  have hupd : Upd (partSet [.cpts]) (regSet [.CL_CAP_STAT, .CL_CAP_ICNT, .CL_CAP_EVT]) (atCluster n) s (cptEnd n e s) :=
    cptEnd_upd Upd.refl (by decide) (by decide) ⟨0, rfl⟩
  rw [cptI, hupd.rf _ _ _ _ (by decide), ← cptI]

theorem interval_pos : 0 < cptI s n e * convTicks :=
  Nat.mul_pos (Nat.lt_of_lt_of_le (by decide) (Nat.le_max_left ..)) (by decide)

/-- The interval that contains tick x, counted from t0 in intervals of `len` ticks. -/
theorem intervalAt_eq {t0 len k : Nat} (hbegun : t0 + k * len ≤ x) (hopen : x < t0 + (k + 1) * len) :
    (x - t0) / len = k := by
  refine Nat.div_eq_of_lt_le ?_ ?_ <;> omega

/-- Intervals that gave no sample end at once: the engine stands in interval k. -/
def intervalsSkipped (n : Cluster) (e : Fin 2) (k : Nat) (s : State) : State :=
  (s.setCpt n e { s.cpt n e with k := k }).setReg .CL_CAP_ICNT (awgIx n e) (BitVec.ofNat 32 (min k 4294967295))

theorem intervalsSkipped_cpt {k : Nat} : (intervalsSkipped n e k s).cpt n e = { s.cpt n e with k := k } := by
  rw [intervalsSkipped, State.cpt_setReg, State.cpt_setCpt_same]
theorem intervalsSkipped_reg {k : Nat} {r : Reg} {i : Nat} (h : r ≠ .CL_CAP_ICNT) :
    (intervalsSkipped n e k s).reg r i = s.reg r i := by
  rw [intervalsSkipped, State.reg_setReg, if_neg fun x => h x.1, State.reg_setCpt]

/-- The interval that an engine with record y stands in by tick x, its stop point at most. -/
def intervalReached (s : State) (n : Cluster) (e : Fin 2) (x : Nat) (y : Cpt) : Nat :=
  match y.stopK with
  | some j => min ((x - y.t0) / (cptI s n e * convTicks)) j
  | none => (x - y.t0) / (cptI s n e * convTicks)

theorem intervalReached_le {y : Cpt} : intervalReached s n e x y ≤ (x - y.t0) / (cptI s n e * convTicks) := by
  unfold intervalReached
  split
  · exact Nat.min_le_left ..
  · exact Nat.le_refl _

theorem intervalReached_unstopped {y : Cpt} (h : y.stopK = none) :
    intervalReached s n e x y = (x - y.t0) / (cptI s n e * convTicks) := by
  unfold intervalReached; rw [h]

theorem cptEnd_next : ((cptEnd n e s).cpt n e).t0 = (s.cpt n e).t0 ∧ ((cptEnd n e s).cpt n e).k = (s.cpt n e).k + 1 := by
  rw [cptEnd_cpt]; exact ⟨rfl, rfl⟩

/-- The interval in progress is over: it ends, and those without a sample after it. -/
theorem cptCatch_over (hrun : cptRun s n e = true) (hover : cptEndOf s n e (s.cpt n e).k ≤ x) :
    let u := cptEnd n e s
    let k := intervalReached s n e x (u.cpt n e)
    cptCatch n e x s =
      if cptRun u n e ∧ (u.cpt n e).k < k then
        if cptEndOf (intervalsSkipped n e k u) n e k ≤ x then cptEnd n e (intervalsSkipped n e k u)
        else intervalsSkipped n e k u
      else u := by
  unfold cptCatch
  rw [if_pos ⟨hrun, hover⟩]
  rfl

/-- Only the interval in progress is over: it ends. -/
theorem cptCatch_next (hrun : cptRun s n e = true) (hover : cptEndOf s n e (s.cpt n e).k ≤ x)
    (hopen : x < cptEndOf s n e ((s.cpt n e).k + 1)) : cptCatch n e x s = cptEnd n e s := by
  have hreached := intervalReached_le (s := s) (n := n) (e := e) (x := x) (y := (cptEnd n e s).cpt n e)
  rw [cptEnd_next.1, intervalAt_eq hover hopen] at hreached
  refine (cptCatch_over hrun hover).trans (if_neg fun h => ?_)
  have hlater := cptEnd_next.2 ▸ h.2
  omega

theorem intervalsSkipped_interval {m : Nat} : cptI (intervalsSkipped n e m s) n e = cptI s n e := by
  unfold cptI State.rf; rw [intervalsSkipped_reg (by decide)]

/-- The interval that contains tick x. -/
def intervalAt (s : State) (n : Cluster) (e : Fin 2) (x : Nat) : Nat :=
  if cptEndOf s n e (s.cpt n e).k ≤ x then (x - (s.cpt n e).t0) / (cptI s n e * convTicks) else (s.cpt n e).k

section
variable (hrun : cptRun s n e = true) (hstop : (s.cpt n e).stopK = none)
include hstop

theorem cptEnd_unstopped : ((cptEnd n e s).cpt n e).stopK = none := by
  rw [cptEnd_cpt, intervalEnded]; dsimp only; rw [hstop, if_neg (by simp)]

include hrun

theorem cptEnd_runs : cptRun (cptEnd n e s) n e = true := by
  rw [cptRun, State.rb, cptEnd_stat, hstop, if_neg (by simp)]; exact hrun

/-- More intervals than the one in progress are over. -/
theorem cptCatch_skips (hover : cptEndOf s n e ((s.cpt n e).k + 1) ≤ x) :
    cptCatch n e x s = intervalsSkipped n e ((x - (s.cpt n e).t0) / (cptI s n e * convTicks)) (cptEnd n e s) := by
  have hover' : cptEndOf s n e (s.cpt n e).k ≤ x :=
    Nat.le_trans (Nat.add_le_add_left (Nat.mul_le_mul_right _ (by omega)) _) hover
  have hreached : intervalReached s n e x ((cptEnd n e s).cpt n e) = (x - (s.cpt n e).t0) / (cptI s n e * convTicks) := by
    rw [intervalReached_unstopped (cptEnd_unstopped hstop), cptEnd_next.1]
  have hlater : (s.cpt n e).k + 1 < (x - (s.cpt n e).t0) / (cptI s n e * convTicks) := by
    rw [← Nat.succ_le_iff, Nat.le_div_iff_mul_le interval_pos]
    unfold cptEndOf at hover
    rw [Nat.succ_eq_add_one]
    omega
  have hpast := Nat.lt_mul_div_succ (x - (s.cpt n e).t0) (interval_pos (s := s) (n := n) (e := e))
  rw [cptCatch_over hrun hover', hreached, if_pos ⟨cptEnd_runs hrun hstop, by rw [cptEnd_next.2]; exact hlater⟩, if_neg]
  rw [cptEndOf, intervalsSkipped_cpt, intervalsSkipped_interval, cptEnd_interval]
  dsimp only
  rw [cptEnd_next.1]
  rw [Nat.mul_comm] at hpast
  omega

/-- With no stop point set, the engine comes to the interval that contains x, and runs on. -/
theorem cptCatch_unstopped : ((cptCatch n e x s).cpt n e).k = intervalAt s n e x ∧
    ((cptCatch n e x s).cpt n e).stopK = none ∧ cptRun (cptCatch n e x s) n e = true := by
  unfold intervalAt
  by_cases hover : cptEndOf s n e (s.cpt n e).k ≤ x
  · rw [if_pos hover]
    rcases Nat.lt_or_ge x (cptEndOf s n e ((s.cpt n e).k + 1)) with hopen | hskips
    · rw [cptCatch_next hrun hover hopen, intervalAt_eq hover hopen]
      exact ⟨by rw [cptEnd_cpt]; rfl, cptEnd_unstopped hstop, cptEnd_runs hrun hstop⟩
    · rw [cptCatch_skips hrun hstop hskips, intervalsSkipped_cpt, cptRun, State.rb, intervalsSkipped_reg (by decide)]
      exact ⟨rfl, cptEnd_unstopped hstop, cptEnd_runs hrun hstop⟩
  · have hsame : cptCatch n e x s = s := if_neg fun h => hover h.2
    rw [if_neg hover, hsame]
    exact ⟨rfl, hstop, hrun⟩

end

theorem captureIntervalEnd_holds (hrun : cptRun s n e = true) (hover : cptEndOf s n e (s.cpt n e).k ≤ (s.at t).clasp)
    (hopen : (s.at t).clasp < cptEndOf s n e ((s.cpt n e).k + 1)) :
    ∃ s', exec (.captureIntervalEnd t n e) s = .next s' ∧
      s'.rf .CL_CAP_ICNT (awgIx n e) 0 32 = satInc 4294967295 (s.rf .CL_CAP_ICNT (awgIx n e) 0 32) ∧
      s'.cpt n e = intervalEnded (cptI s n e) (s.cpt n e) ∧
      s'.reg .CL_CAP_STAT (awgIx n e) = (if (s.cpt n e).stopK = some (s.cpt n e).k then
        s.reg .CL_CAP_STAT (awgIx n e) &&& 0xFFFFFFFC#32 else s.reg .CL_CAP_STAT (awgIx n e)) ∧
      s'.reg .CL_CAP_EVT n.val = (if (s.cpt n e).stopK = some (s.cpt n e).k then
        putBit (s.reg .CL_CAP_EVT n.val) e.val true else s.reg .CL_CAP_EVT n.val) ∧
      Frame [.clasp, .cpts] [.CL_CAP_STAT, .CL_CAP_ICNT, .CL_CAP_EVT] (atCluster n) s s' := by
  have hend : ∀ k, cptEndOf (s.at t) n e k = cptEndOf s n e k := fun k => by
    unfold cptEndOf cptI; rw [State.cpt_at, State.rf_at]
  have hnext : cptCatch n e (s.at t).clasp (s.at t) = cptEnd n e (s.at t) :=
    cptCatch_next (by rw [cptRun, State.rb_at]; exact hrun) (by rw [hend, State.cpt_at]; exact hover)
      (by rw [hend, State.cpt_at]; exact hopen)
  have hexec : exec (.captureIntervalEnd t n e) s = .next (cptEnd n e (s.at t)) := by
    show execCaptureIntervalEnd t n e s = _
    unfold execCaptureIntervalEnd
    dsimp only
    rw [hnext]
  have hupd : Upd (partSet [.clasp, .cpts]) (regSet [.CL_CAP_STAT, .CL_CAP_ICNT, .CL_CAP_EVT]) (atCluster n) s
      (cptEnd n e (s.at t)) :=
    cptEnd_upd (State.at_upd Upd.refl (by decide)) (by decide) (by decide) ⟨0, rfl⟩
  refine ⟨_, hexec, ?_, ?_, ?_, ?_, hupd.listed (by decide) (by decide)⟩
  · rw [cptEnd_icnt, State.rf_at]
  · rw [cptEnd_cpt, State.cpt_at, cptI, State.rf_at, ← cptI]
  · rw [cptEnd_stat, State.cpt_at, State.reg_at]
  · rw [cptEnd_evt, State.cpt_at, State.reg_at]

/-! STOP. -/

theorem cptCtrlWrite_stop (h0 : bitOf d 0 = false) (h1 : bitOf d 1 = true) :
    cptCtrlWrite n e d 0xFFFFFFFF#32 s = cptStop n e 0 (capCtrlStored n e d s) := by
  unfold cptCtrlWrite
  dsimp only
  rw [ones_full, ones_full, h0, h1, Bool.false_and, if_neg Bool.false_ne_true, if_pos rfl, capCtrlStored]

/-- A stop point is set in the interval that contains now. -/
theorem cptStop_sets (hrun : cptRun s n e = true) (hstop : (s.cpt n e).stopK = none) :
    ((cptStop n e 0 s).cpt n e).stopK = some (intervalAt s n e s.clasp) ∧
      ((cptStop n e 0 s).cpt n e).k = intervalAt s n e s.clasp ∧
      (cptStop n e 0 s).rb .CL_CAP_STAT (awgIx n e) 1 = true ∧ cptRun (cptStop n e 0 s) n e = true := by
  obtain ⟨hk, hstop', hrun'⟩ := cptCatch_unstopped (x := s.clasp) hrun hstop
  unfold cptStop
  dsimp only
  rw [if_pos ⟨hrun', hstop'⟩, State.setRb, State.cpt_setReg, State.cpt_setCpt_same, ← State.setRb, hk]
  refine ⟨rfl, rfl, State.rb_setRb_same _ _ _ _ _ (by decide), ?_⟩
  rw [cptRun, State.rb_setRb _ _ _ _ _ _ _ _ (by decide), if_neg (by simp)]
  exact hrun'

theorem captureStop_holds (hacc : Accepted q .CL_CAP_CTRL (awgIx n e) (d ||| 2#32) (s.at t)) (h0 : bitOf d 0 = false)
    (hrun : cptRun s n e = true) (hstop : (s.cpt n e).stopK = none) :
    ∃ s', exec (.captureStop t q n e d) s = .next s' ∧
      (s'.cpt n e).stopK = some (intervalAt s n e (s.at t).clasp) ∧ (s'.cpt n e).k = intervalAt s n e (s.at t).clasp ∧
      s'.rb .CL_CAP_STAT (awgIx n e) 1 = true ∧ cptRun s' n e = true ∧
      Frame [.clasp, .cpts] [.CL_CAP_CTRL, .CL_CAP_STAT, .CL_CAP_ICNT, .CL_CAP_EVT, .PWR_CLU_GATE] (atCluster n) s s' := by
  have h0' : bitOf (d ||| 2#32) 0 = false := by rw [bitOf_or, h0]; simp [bitOf]
  have h1 : bitOf (d ||| 2#32) 1 = true := by rw [bitOf_or]; simp [bitOf]
  have hexec : exec (.captureStop t q n e d) s =
      .next (ungate n.val (cptStop n e 0 (capCtrlStored n e (d ||| 2#32) (s.at t)))) := by
    show execCaptureStop t q n e d s = _
    rw [execCaptureStop, cmdWrite_capCtrl hacc, cptCtrlWrite_stop h0' h1]
  have hcpt : (capCtrlStored n e (d ||| 2#32) (s.at t)).cpt n e = s.cpt n e := by rw [capCtrlStored_cpt, State.cpt_at]
  have hinterval : cptI (capCtrlStored n e (d ||| 2#32) (s.at t)) n e = cptI s n e := by
    rw [cptI, capCtrlStored_rf (by decide), State.rf_at, ← cptI]
  have hat : intervalAt (capCtrlStored n e (d ||| 2#32) (s.at t)) n e (s.at t).clasp = intervalAt s n e (s.at t).clasp := by
    unfold intervalAt cptEndOf; rw [hcpt, hinterval]
  have hrun' : cptRun (capCtrlStored n e (d ||| 2#32) (s.at t)) n e = true := by
    rw [capCtrlStored_run, cptRun, State.rb_at]; exact hrun
  obtain ⟨hset, hk, hstat, hruns⟩ := cptStop_sets hrun' (hcpt.symm ▸ hstop)
  rw [capCtrlStored_clasp, hat] at hset hk
  have hupd : Upd (partSet [.cpts]) (regSet [.CL_CAP_CTRL, .CL_CAP_STAT, .CL_CAP_ICNT, .CL_CAP_EVT]) (atCluster n) (s.at t)
      (cptStop n e 0 (capCtrlStored n e (d ||| 2#32) (s.at t))) :=
    cptStop_upd (capCtrlStored_upd Upd.refl (by decide) ⟨0, rfl⟩) (by decide) (by decide) ⟨0, rfl⟩
  exact ⟨_, hexec, by rw [ungate_cpt, hset], by rw [ungate_cpt, hk], (ungate_rb (by decide)).trans hstat,
    (ungate_rb (by decide)).trans hruns, (cmdWrite_frame hupd).listed (by decide) (by decide)⟩

end Sys2Proof.Machine
end

section
/-! ### Millpond writes over several banks (R327, R331, R333) -/

namespace Sys2Proof.Machine

variable {s : State} {a : Nat} {bytes : List Byte}

theorem State.setBytes_append (l l' : List Byte) :
    s.setBytes a (l ++ l') = (s.setBytes a l).setBytes (a + l.length) l' := by
  induction l generalizing s a with
  | nil => rfl
  | cons b l ih =>
    rw [List.cons_append, State.setBytes, ih, State.setBytes, List.length_cons, Nat.add_right_comm, Nat.add_assoc]

/-- The parts of an access that lies in Millpond, each stored at its place, are the whole access stored: `from_` is the
address of the first of the bytes, and the parts left cover `len` bytes from a on. -/
theorem setBytes_parts {from_ : Nat} (fuel len : Nat) (hfuel : 0 < fuel) (hbanks : 65 ≤ bankOf a + fuel ∨ len = 0)
    (hin : ∀ p ∈ bankParts fuel a len, p.1 < mpSize) (hfrom : from_ ≤ a) (hlen : a - from_ + len ≤ bytes.length) :
    (bankParts fuel a len).foldl (fun s p => s.setBytes p.1 ((bytes.drop (p.1 - from_)).take p.2)) s =
      s.setBytes a ((bytes.drop (a - from_)).take len) := by
  induction fuel generalizing a len s with
  | zero => omega
  | succ fuel ih =>
    unfold bankParts at hin ⊢
    split
    · rename_i hnone
      rw [hnone, List.take_zero]; rfl
    · rename_i hsome
      rw [if_neg hsome] at hin
      split
      · rename_i hout
        rw [if_pos hout] at hin
        exact absurd hout (Nat.not_le.2 (hin _ (List.mem_singleton_self _)))
      · rename_i hinside
        rw [if_neg hinside] at hin
        have hbank : bankOf a < 64 := by unfold bankOf mpSize at *; omega
        generalize hpart : min len ((bankOf a + 1) * 786432 - a) = part at hin ⊢
        have hpart' : part ≤ len := by omega
        have hnext : 65 ≤ bankOf (a + part) + fuel ∨ len - part = 0 := by unfold bankOf at *; omega
        have hdrop : a + part - from_ = a - from_ + part := by omega
        have hsplit : (bytes.drop (a - from_)).take len =
            (bytes.drop (a - from_)).take part ++ (bytes.drop (a + part - from_)).take (len - part) := by
          rw [hdrop, ← List.drop_drop, ← List.take_add, Nat.add_sub_cancel' hpart']
        have hpartlen : ((bytes.drop (a - from_)).take part).length = part := by
          rw [List.length_take, List.length_drop]; omega
        rw [List.foldl_cons, ih (len - part) (by omega) hnext (fun p hp => hin p (List.mem_cons_of_mem _ hp)) (by omega)
          (by omega), hsplit, State.setBytes_append, hpartlen]

/-- A plain write whose every part is granted stores its bytes. -/
theorem memWrite_admitted {q : MillReq} {rr : Bool} (hadmits : memAdmits s q rr a bytes.length = true) :
    memWrite q rr none a bytes s = s.setBytes a bytes := by
  have hgrant : ∀ p ∈ partsOf a bytes.length, judge s q rr p.1 = .granted := fun p hp =>
    of_decide_eq_true (List.all_eq_true.1 hadmits p hp)
  have hin : ∀ p ∈ partsOf a bytes.length, p.1 < mpSize := fun p hp => by
    by_contra hout
    have hjudge := hgrant p hp
    rw [judge, if_pos (Nat.not_lt.1 hout)] at hjudge
    cases hjudge
  unfold memWrite
  rw [List.foldl_ext _ (fun s p => s.setBytes p.1 ((bytes.drop (p.1 - a)).take p.2)) s fun u p hp => by
    rw [hgrant p hp]; exact putBytes_plain]
  have hparts := setBytes_parts (s := s) (bytes := bytes) 66 bytes.length (by decide) (.inl (by omega)) hin (Nat.le_refl a)
    (by omega)
  rwa [Nat.sub_self, List.drop_zero, List.take_length] at hparts

theorem engineWrite_admitted {n : Cluster} {k : Fin 6} {rr : Bool} (hserved : streamServed s n k rr a bytes.length = true)
    (hadmits : memAdmits s (.cluster n k) rr a bytes.length = true) :
    engineWrite n k rr a bytes s = some (s.setBytes a bytes) := by
  unfold engineWrite; rw [if_pos hserved, memWrite_admitted hadmits]

end Sys2Proof.Machine
end

section
/-! ### The capture window (R275) -/

namespace Sys2Proof.Machine

variable {s u : State} {n : Cluster} {e : Fin 2} {t : Nat} {r : List Word} {rest : List (List Word)}

/-- The word of the window that the next record goes to, the window's words for a record of len words, and the address. -/
def capSlot (s : State) (n : Cluster) (e : Fin 2) : Nat := s.rf .CL_CAP_WIN_WPTR (awgIx n e) 0 20
def capWords (s : State) (n : Cluster) (e : Fin 2) (len : Nat) : Nat := max 1 (cptSize s n e (decide (len = 2)))
def capAddr (s : State) (n : Cluster) (e : Fin 2) : Nat := s.rf .CL_CAP_WIN_BASE (awgIx n e) 3 23 * 8 + 4 * capSlot s n e

/-- The stream of an engine (R24). -/
def capStream (e : Fin 2) : Fin 6 := if e = 0 then 4 else 5

/-- A record's bytes. -/
def capBytes (r : List Word) : List Byte := r.flatMap fun v => leBytes 4 v.toNat

theorem capBytes_length : (capBytes r).length = 4 * r.length := by
  induction r with
  | nil => rfl
  | cons v r ih =>
    rw [capBytes, List.flatMap_cons, List.length_append, leBytes_length, ← capBytes, ih, List.length_cons]; omega

theorem capWords_bound {len : Nat} : 0 < capWords s n e len ∧ capWords s n e len ≤ 2 ^ 20 := by
  have hfield : s.rf .CL_CAP_WIN_SIZE (awgIx n e) 0 20 < 2 ^ 20 := Nat.mod_lt _ (by decide)
  unfold capWords cptSize sizeOr
  dsimp only
  split <;> split <;> omega

/-- The record is in the window and off the queue, and the index has advanced. -/
def capStored (n : Cluster) (e : Fin 2) (r : List Word) (rest : List (List Word)) (s u : State) : State :=
  let v := u.setBytes (capAddr s n e) (capBytes r)
  (v.setCpt n e { v.cpt n e with queue := rest }).setRf .CL_CAP_WIN_WPTR (awgIx n e) 0 20
    ((capSlot s n e + r.length) % capWords s n e r.length)

/-- The window has wrapped for the first time. -/
def capWrapped (n : Cluster) (e : Fin 2) (s : State) : State :=
  (s.setRb .CL_CAP_STAT (awgIx n e) 2 true).setRb .CL_CAP_EVT n (4 + e.val) true

/-- The oldest record is in the window; the first wrap of a RING window is noted. -/
def capWritten (n : Cluster) (e : Fin 2) (r : List Word) (rest : List (List Word)) (s u : State) : State :=
  if capWords s n e r.length ≤ capSlot s n e + r.length ∧ s.rb .CL_CAP_CTRL (awgIx n e) 2 ∧ !s.rb .CL_CAP_STAT (awgIx n e) 2
  then capWrapped n e (capStored n e r rest s u) else capStored n e r rest s u

theorem Upd.cpt_eq {K R : Nat} {C : Nat → Nat → Prop} {s' : State} (h : Upd K R C s s')
    (hk : K.testBit (Part.ctorIdx .cpts) = false) : s'.cpt n e = s.cpt n e := by
  have hp := h.parts .cpts hk
  simp only [Part.same] at hp
  unfold State.cpt; rw [hp]

theorem capStored_byte (y : Nat) : (capStored n e r rest s u).byte y = (u.setBytes (capAddr s n e) (capBytes r)).byte y := by
  rw [capStored, State.setRf, State.byte_setReg, State.byte_setCpt]

theorem capStored_queue : ((capStored n e r rest s u).cpt n e).queue = rest := by
  rw [capStored, State.setRf, State.cpt_setReg, State.cpt_setCpt_same]

theorem capStored_wptr : (capStored n e r rest s u).rf .CL_CAP_WIN_WPTR (awgIx n e) 0 20 =
    (capSlot s n e + r.length) % capWords s n e r.length := by
  have hbound := capWords_bound (s := s) (n := n) (e := e) (len := r.length)
  rw [capStored, State.rf_setRf_same _ _ _ _ _ _ (by decide)]
  exact Nat.mod_eq_of_lt (Nat.lt_of_lt_of_le (Nat.mod_lt _ hbound.1) hbound.2)

theorem capStored_reg {i : Nat} {r' : Reg} (h : r' ≠ .CL_CAP_WIN_WPTR) :
    (capStored n e r rest s u).reg r' i = u.reg r' i := by
  rw [capStored, State.setRf, State.reg_setReg, if_neg fun x => h x.1, State.reg_setCpt]
  exact (State.setBytes_upd (K := 2) (R := 0) (C := atNone) Upd.refl (by decide)).reg _ _ (by simp)

theorem capWrapped_flags : (capWrapped n e s).rb .CL_CAP_STAT (awgIx n e) 2 = true ∧
    (capWrapped n e s).rb .CL_CAP_EVT n (4 + e.val) = true := by
  refine ⟨?_, State.rb_setRb_same _ _ _ _ _ (by omega)⟩
  rw [capWrapped, State.rb_setRb _ _ _ _ _ _ _ _ (by omega), if_neg (by simp), State.rb_setRb_same _ _ _ _ _ (by decide)]

/-- A wrap of a RING window is shown, and is an event the first time. -/
theorem capWritten_wraps (hwraps : capWords s n e r.length ≤ capSlot s n e + r.length)
    (hring : s.rb .CL_CAP_CTRL (awgIx n e) 2 = true) (hreg : ∀ r i, u.reg r i = s.reg r i) :
    (capWritten n e r rest s u).rb .CL_CAP_STAT (awgIx n e) 2 = true ∧
      (s.rb .CL_CAP_STAT (awgIx n e) 2 = false → (capWritten n e r rest s u).rb .CL_CAP_EVT n (4 + e.val) = true) := by
  unfold capWritten
  split
  · exact ⟨capWrapped_flags.1, fun _ => capWrapped_flags.2⟩
  · rename_i hnot
    have hwrapped : s.rb .CL_CAP_STAT (awgIx n e) 2 = true := by
      cases h : s.rb .CL_CAP_STAT (awgIx n e) 2 with
      | true => rfl
      | false => exact absurd ⟨hwraps, hring, by rw [h]; rfl⟩ hnot
    refine ⟨?_, fun h => absurd hwrapped (by rw [h]; decide)⟩
    rw [State.rb, capStored_reg (by decide), hreg, ← State.rb]; exact hwrapped

theorem capWritten_stored : (∀ y, (capWritten n e r rest s u).byte y = (capStored n e r rest s u).byte y) ∧
    (capWritten n e r rest s u).cpt n e = (capStored n e r rest s u).cpt n e ∧
    (capWritten n e r rest s u).rf .CL_CAP_WIN_WPTR (awgIx n e) 0 20 =
      (capStored n e r rest s u).rf .CL_CAP_WIN_WPTR (awgIx n e) 0 20 := by
  unfold capWritten
  split
  · refine ⟨fun _ => rfl, rfl, ?_⟩
    rw [capWrapped, State.rf, State.reg_setRb, if_neg (by simp), State.reg_setRb, if_neg (by simp), ← State.rf]
  · exact ⟨fun _ => rfl, rfl, rfl⟩

theorem capWritten_upd {K R : Nat} {C : Nat → Nat → Prop} {s0 : State} (h : Upd K R C s0 u)
    (hk : partSet [.mem, .cpts] ||| K = K) (hr : regSet [.CL_CAP_WIN_WPTR, .CL_CAP_STAT, .CL_CAP_EVT] ||| R = R)
    (hc : ∃ c, C n.val c) :
    Upd K R C s0 (capWritten n e r rest s u) := by
  have hstored : Upd K R C s0 (capStored n e r rest s u) :=
    State.setRf_upd (State.setCpt_upd (State.setBytes_upd h (sub_of rfl hk)) (sub_of rfl hk) hc)
      (testBit_of_sub hr (by decide)) (RegOk.awg rfl hc)
  exact Upd.ite (State.setRb_upd (State.setRb_upd hstored (testBit_of_sub hr (by decide)) (RegOk.awg rfl hc))
    (testBit_of_sub hr (by decide)) (RegOk.one rfl hc)) hstored

theorem captureRecordWrite_served (hqueue : (s.cpt n e).queue = r :: rest) (hfits : cptFull s n e r.length = false)
    (hserved : streamServed s n (capStream e) false (capAddr s n e) (4 * r.length) = true)
    (hadmits : memAdmits s (.cluster n (capStream e)) false (capAddr s n e) (4 * r.length) = true) :
    exec (.captureRecordWrite t n e) s = .next (capWritten n e r rest s (s.at t)) := by
  have hwrite : engineWrite n (capStream e) false (capAddr s n e) (capBytes r) (s.at t) =
      some ((s.at t).setBytes (capAddr s n e) (capBytes r)) := by
    refine engineWrite_admitted ?_ ?_
    · rw [capBytes_length, ← hserved, State.at_eq]; rfl
    · rw [capBytes_length, ← hadmits, State.at_eq]; rfl
  have hfits' : cptFull (s.at t) n e r.length = false := by rw [← hfits, State.at_eq]; rfl
  have hwords : cptSize (s.at t) n e (decide (r.length = 2)) = cptSize s n e (decide (r.length = 2)) := by
    rw [State.at_eq]; rfl
  rw [capAddr, capSlot, capBytes, capStream] at hwrite
  show execCaptureRecordWrite t n e s = _
  unfold execCaptureRecordWrite
  dsimp only
  rw [State.cpt_at, hqueue]
  dsimp only
  rw [hfits', if_neg Bool.false_ne_true, State.rf_at, State.rf_at, hwrite, State.rb_at, State.rb_at, hwords]
  rfl

theorem captureRecordWrite_written (hqueue : (s.cpt n e).queue = r :: rest) (hfits : cptFull s n e r.length = false)
    (hserved : streamServed s n (capStream e) false (capAddr s n e) (4 * r.length) = true)
    (hadmits : memAdmits s (.cluster n (capStream e)) false (capAddr s n e) (4 * r.length) = true) :
    ∃ s', exec (.captureRecordWrite t n e) s = .next s' ∧ Written (capAddr s n e) (capBytes r) s s' ∧
      (s'.cpt n e).queue = rest ∧
      s'.rf .CL_CAP_WIN_WPTR (awgIx n e) 0 20 = (capSlot s n e + r.length) % capWords s n e r.length ∧
      (capWords s n e r.length ≤ capSlot s n e + r.length → s.rb .CL_CAP_CTRL (awgIx n e) 2 = true →
        s'.rb .CL_CAP_STAT (awgIx n e) 2 = true ∧
          (s.rb .CL_CAP_STAT (awgIx n e) 2 = false → s'.rb .CL_CAP_EVT n.val (4 + e.val) = true)) ∧
      Frame [.clasp, .mem, .cpts] [.CL_CAP_WIN_WPTR, .CL_CAP_STAT, .CL_CAP_EVT] (atCluster n) s s' := by
  have hupd : Upd (partSet [.clasp, .mem, .cpts]) (regSet [.CL_CAP_WIN_WPTR, .CL_CAP_STAT, .CL_CAP_EVT]) (atCluster n) s
      (capWritten n e r rest s (s.at t)) :=
    capWritten_upd (State.at_upd Upd.refl (by decide)) (by decide) (Nat.or_self _) ⟨0, rfl⟩
  obtain ⟨hbyte, hcpt, hwptr⟩ := capWritten_stored (n := n) (e := e) (r := r) (rest := rest) (s := s) (u := s.at t)
  refine ⟨_, captureRecordWrite_served hqueue hfits hserved hadmits, fun y => ?_, ?_, ?_,
    fun hwraps hring => capWritten_wraps hwraps hring fun _ _ => State.reg_at .., hupd.listed (by decide) (by decide)⟩
  · rw [hbyte, capStored_byte, State.byte_setBytes, State.byte_at]
  · rw [hcpt, capStored_queue]
  · rw [hwptr, capStored_wptr]

theorem captureRecordWrite_lost (hqueue : (s.cpt n e).queue = r :: rest) (hfull : cptFull s n e r.length = true) :
    ∃ s', exec (.captureRecordWrite t n e) s = .next s' ∧ s'.cpt n e = { s.cpt n e with queue := rest } ∧
      s'.rf .CL_CAP_LOST (awgIx n e) 0 32 = satInc 4294967295 (s.rf .CL_CAP_LOST (awgIx n e) 0 32) ∧
      s'.rb .CL_CAP_EVT n.val (2 + e.val) = true ∧
      Frame [.clasp, .cpts] [.CL_CAP_LOST, .CL_CAP_EVT] (atCluster n) s s' := by
  have hfull' : cptFull (s.at t) n e r.length = true := by rw [← hfull, State.at_eq]; rfl
  have hexec : exec (.captureRecordWrite t n e) s =
      .next ((((s.at t).setCpt n e { s.cpt n e with queue := rest }).count .CL_CAP_LOST (awgIx n e) 32).setRb .CL_CAP_EVT n
        (2 + e.val) true) := by
    show execCaptureRecordWrite t n e s = _
    unfold execCaptureRecordWrite
    dsimp only
    rw [State.cpt_at, hqueue]
    dsimp only
    rw [hfull', if_pos rfl]
  have hupd : Upd (partSet [.clasp, .cpts]) (regSet [.CL_CAP_LOST, .CL_CAP_EVT]) (atCluster n) s
      ((((s.at t).setCpt n e { s.cpt n e with queue := rest }).count .CL_CAP_LOST (awgIx n e) 32).setRb .CL_CAP_EVT n
        (2 + e.val) true) :=
    State.setRb_upd (State.count_upd (State.setCpt_upd (State.at_upd Upd.refl (by decide)) (by decide) ⟨0, rfl⟩)
      (by decide) (RegOk.awg rfl ⟨0, rfl⟩)) (by decide) (RegOk.one rfl ⟨0, rfl⟩)
  refine ⟨_, hexec, ?_, ?_, State.rb_setRb_same _ _ _ _ _ (by omega), hupd.listed (by decide) (by decide)⟩
  · rw [State.setRb, State.cpt_setReg, State.count, State.setRf, State.cpt_setReg, State.cpt_setCpt_same]
  · rw [State.rf, State.reg_setRb, if_neg (by simp), ← State.rf, State.rf_count_same (by decide), State.rf, State.reg_setCpt,
      ← State.rf, State.rf_at]
    rfl

/-- Settles O38: a START is `cptStarted`, a STOP sets the stop point in `intervalAt`, an interval ends as `intervalEnded`
says, and the oldest record leaves `capWritten` or is lost. -/
theorem captureEnginesCapture : Obligations.CaptureEnginesCapture := by
  unfold Obligations.CaptureEnginesCapture
  exact ⟨fun _ _ _ _ _ _ hacc h1 hclaim hidle hfree hlt => captureStart_holds hacc h1 hclaim hidle hfree hlt,
    fun _ _ _ _ _ _ hacc h0 hrun hstop => captureStop_holds hacc h0 hrun hstop,
    fun _ _ _ _ hrun hover hopen => captureIntervalEnd_holds hrun hover hopen,
    fun _ _ _ _ _ _ hqueue hfits hserved hadmits => captureRecordWrite_written hqueue hfits hserved hadmits,
    fun _ _ _ _ _ _ hqueue hfull => captureRecordWrite_lost hqueue hfull⟩

end Sys2Proof.Machine
end

/-! # Generators: obligations O39, O40

SUPPORT. What the generators' shared operations leave in a generator's record and registers comes first; then the writes of a
generator's registers, and command by command the state that each leaves. -/

section
/-! ### Fields apart, and a generator's record and registers after an update -/

namespace Sys2Proof.Machine

variable {s : State} {n : Cluster} {g : Fin 2}

theorem State.rf_setRb_apart (r r' : Reg) (i i' b lo len : Nat) (v : Bool) (hb : b < 32) (h : b < lo ∨ lo + len ≤ b) :
    (s.setRb r i b v).rf r' i' lo len = s.rf r' i' lo len := by
  rw [State.rf, State.reg_setRb]
  split
  · rename_i hsame
    rw [fld_putBit_ne _ _ _ _ _ hb h, hsame.1, hsame.2, State.rf]
  · rfl

theorem State.rf_setRf_apart (r r' : Reg) (i i' lo len lo' len' v : Nat) (hl : lo' + len' ≤ 32)
    (h : lo' + len' ≤ lo ∨ lo + len ≤ lo') : (s.setRf r i lo len v).rf r' i' lo' len' = s.rf r' i' lo' len' := by
  rw [State.rf, State.reg_setRf]
  split
  · rename_i hsame
    rw [fld_putFld_ne _ _ _ _ _ _ hl h, hsame.1, hsame.2, State.rf]
  · rfl

theorem State.rb_setRf (r r' : Reg) (i i' lo len v b : Nat) (hb : b < 32) : (s.setRf r i lo len v).rb r' i' b =
    if (r' = r ∧ i' = i) ∧ lo ≤ b ∧ b < lo + len then v.testBit (b - lo) else s.rb r' i' b := by
  rw [State.rb, State.reg_setRf]
  by_cases hsame : r' = r ∧ i' = i
  · rw [if_pos hsame, bitOf_putFld _ _ _ _ _ hb, hsame.1, hsame.2]
    exact if_congr (by simp) rfl rfl
  · rw [if_neg hsame, if_neg fun h => hsame h.1, State.rb]

theorem State.rb_setRf_apart (r r' : Reg) (i i' lo len v b : Nat) (hb : b < 32) (h : b < lo ∨ lo + len ≤ b) :
    (s.setRf r i lo len v).rb r' i' b = s.rb r' i' b := by
  rw [State.rb_setRf _ _ _ _ _ _ _ _ hb, if_neg fun x => by omega]

theorem State.rb_setRb_apart (r r' : Reg) (i i' b b' : Nat) (v : Bool) (hb : b < 32) (h : b' ≠ b) :
    (s.setRb r i b v).rb r' i' b' = s.rb r' i' b' := by
  rw [State.rb_setRb _ _ _ _ _ _ _ _ hb, if_neg fun x => h x.2.2]

@[simp] theorem State.awg_setRb (r : Reg) (i b : Nat) (v : Bool) : (s.setRb r i b v).awg n g = s.awg n g := rfl
@[simp] theorem State.awg_setRf (r : Reg) (i lo len v : Nat) : (s.setRf r i lo len v).awg n g = s.awg n g := rfl
@[simp] theorem State.awg_send (src kind cls addr : Nat) : (s.send src kind cls addr).awg n g = s.awg n g := by
  unfold State.send; split <;> rfl
@[simp] theorem ungate_awg (k : Nat) : (ungate k s).awg n g = s.awg n g := by unfold ungate; split <;> rfl
@[simp] theorem ungate_awgTab (k : Nat) : (ungate k s).awgTab = s.awgTab := by unfold ungate; split <;> rfl

@[simp] theorem modAwg_awg (f : Awg → Awg) : (modAwg n g f s).awg n g = f (s.awg n g) := State.awg_setAwg_same ..
@[simp] theorem modAwg_reg (n' : Cluster) (g' : Fin 2) (f : Awg → Awg) (r : Reg) (i : Nat) :
    (modAwg n' g' f s).reg r i = s.reg r i := rfl
@[simp] theorem modAwg_rb (n' : Cluster) (g' : Fin 2) (f : Awg → Awg) (r : Reg) (i b : Nat) :
    (modAwg n' g' f s).rb r i b = s.rb r i b := rfl
@[simp] theorem modAwg_rf (n' : Cluster) (g' : Fin 2) (f : Awg → Awg) (r : Reg) (i lo len : Nat) :
    (modAwg n' g' f s).rf r i lo len = s.rf r i lo len := rfl

/-- What a meaning may change, read at the state that it answers. -/
theorem ResUpd.at_next {K R : Nat} {C : Nat → Nat → Prop} {s0 s' : State} {x : Res} (h : ResUpd K R C s0 x)
    (hx : x = .next s') : Upd K R C s0 s' := by subst hx; exact h

theorem awgState_congr {a b : State} (h : b.reg .CL_AWG_STAT (awgIx n g) = a.reg .CL_AWG_STAT (awgIx n g)) :
    awgState b n g = awgState a n g := congrArg (fld · 0 3) h
theorem clrPin_congr {a b : State} (h : b.reg .CL_AWG_STAT (awgIx n g) = a.reg .CL_AWG_STAT (awgIx n g)) :
    clrPin b n g = clrPin a n g := congrArg (bitOf · 7) h
theorem awgDds_congr {a b : State} (h : b.reg .CL_AWG_CTRL (awgIx n g) = a.reg .CL_AWG_CTRL (awgIx n g)) :
    awgDds b n g = awgDds a n g := congrArg (bitOf · 3) h
theorem clearCode_congr {a b : State} (h : b.reg .CL_AWG_CLR (awgIx n g) = a.reg .CL_AWG_CLR (awgIx n g)) :
    clearCode b n g = clearCode a n g := congrArg (fun w => signed 16 (fld w 0 16)) h

theorem setAwgState_state {v : Nat} (hv : v < 8) : awgState (setAwgState n g v s) n g = v :=
  (State.rf_setRf_same _ _ _ _ _ _ (by decide)).trans (Nat.mod_eq_of_lt hv)

end Sys2Proof.Machine
end

section
/-! ### Requests that are lost or pending, and errors (R289, R295, R300) -/

namespace Sys2Proof.Machine

variable {s : State} {n : Cluster} {g : Fin 2} {r : Reg} {i : Nat}

theorem jumpLost_reg (h : r ∉ [.CL_AWG_JLOST, .CL_AWG_EVT]) : (jumpLost n g s).reg r i = s.reg r i := by
  simp only [List.mem_cons, List.not_mem_nil, or_false, not_or] at h
  rw [jumpLost, State.reg_setRb, if_neg fun e => h.2 e.1, State.reg_count, if_neg fun e => h.1 e.1]

/-- The pending request, where there is one, is lost. -/
def pendingLost (n : Cluster) (g : Fin 2) (s : State) : State := if (s.awg n g).jump.isSome then jumpLost n g s else s

@[simp] theorem pendingLost_awg : (pendingLost n g s).awg n g = s.awg n g := by unfold pendingLost; split <;> rfl
theorem pendingLost_reg (h : r ∉ [.CL_AWG_JLOST, .CL_AWG_EVT]) : (pendingLost n g s).reg r i = s.reg r i := by
  unfold pendingLost
  split
  · exact jumpLost_reg h
  · rfl
theorem pendingLost_evt {b : Nat} (hb : b ≠ 3) :
    (pendingLost n g s).rb .CL_AWG_EVT (awgIx n g) b = s.rb .CL_AWG_EVT (awgIx n g) b := by
  unfold pendingLost
  split
  · rw [jumpLost, State.rb_setRb_apart _ _ _ _ _ _ _ (by decide) hb, State.rb, State.reg_count, if_neg (by simp), State.rb]
  · rfl

@[simp] theorem noteJump_awg : (noteJump n g s).awg n g = s.awg n g := rfl
theorem noteJump_reg (h : r ≠ .CL_AWG_STAT) : (noteJump n g s).reg r i = s.reg r i := by
  rw [noteJump, State.reg_setRb, if_neg fun e => h e.1]
theorem noteJump_pending : (noteJump n g s).rb .CL_AWG_STAT (awgIx n g) 3 = (s.awg n g).jump.isSome :=
  State.rb_setRb_same _ _ _ _ _ (by decide)
theorem noteJump_state : awgState (noteJump n g s) n g = awgState s n g :=
  State.rf_setRb_apart _ _ _ _ _ _ _ _ (by decide) (by decide)

theorem awgErr_reg {code : Nat} (h : r ∉ [.CL_AWG_STAT, .CL_AWG_EVT]) : (awgErr n g code s).reg r i = s.reg r i := by
  simp only [List.mem_cons, List.not_mem_nil, or_false, not_or] at h
  rw [awgErr, State.reg_setRb, if_neg fun e => h.2 e.1, State.reg_setRf, if_neg fun e => h.1 e.1]
theorem awgErr_code {code : Nat} (h : code < 16) : (awgErr n g code s).rf .CL_AWG_STAT (awgIx n g) 8 4 = code := by
  rw [awgErr, State.rf, State.reg_setRb, if_neg (by simp), ← State.rf, State.rf_setRf_same _ _ _ _ _ _ (by decide)]
  exact Nat.mod_eq_of_lt h
theorem awgErr_evt {code : Nat} : (awgErr n g code s).rb .CL_AWG_EVT (awgIx n g) 4 = true :=
  State.rb_setRb_same _ _ _ _ _ (by decide)
theorem awgErr_state {code : Nat} : awgState (awgErr n g code s) n g = awgState s n g :=
  (awgState_congr ((State.reg_setRb ..).trans (if_neg (by simp)))).trans
    (State.rf_setRf_apart _ _ _ _ _ _ _ _ _ (by decide) (by decide))

end Sys2Proof.Machine
end

section
/-! ### The code put out (R279, R282) -/

namespace Sys2Proof.Machine

variable {s : State} {n : Cluster} {g : Fin 2} {x : Int}

/-- The code is put out, with CLIP where the destination clips it. -/
def codeOut (n : Cluster) (g : Fin 2) (x : Int) (s : State) : State :=
  if clipCode x ≠ x then (modAwg n g (fun a => { a with out := x }) s).setRb .CL_AWG_EVT (awgIx n g) 5 true
  else modAwg n g (fun a => { a with out := x }) s

/-- What the note of a level's clamping leaves, the whole leaves. -/
theorem putOut_eq {α : Type} (f : State → α) (hf : ∀ c s', f (noteClamp s n c s') = f s') :
    f (putOut n g x s) = f (codeOut n g x s) := by
  unfold putOut
  dsimp only
  rw [← codeOut]
  split
  · refine List.foldlRecOn (motive := fun u => f u = f (codeOut n g x s)) _ _ rfl fun u hu c _ => ?_
    split
    · exact (hf c u).trans hu
    · exact hu
  · rfl

theorem noteClamp_awg {n' : Cluster} {c : Channel} {s' : State} : (noteClamp s n' c s').awg n g = s'.awg n g := by
  unfold noteClamp; split <;> rfl

theorem codeOut_awg : (codeOut n g x s).awg n g = { s.awg n g with out := x } := by
  unfold codeOut
  split
  · exact (State.awg_setRb ..).trans (modAwg_awg _)
  · exact modAwg_awg _
theorem codeOut_reg {r : Reg} {i : Nat} (h : r ≠ .CL_AWG_EVT) : (codeOut n g x s).reg r i = s.reg r i := by
  unfold codeOut
  split
  · rw [State.reg_setRb, if_neg fun e => h e.1, modAwg_reg]
  · rfl
theorem codeOut_evt {b : Nat} (hb : b ≠ 5) :
    (codeOut n g x s).rb .CL_AWG_EVT (awgIx n g) b = s.rb .CL_AWG_EVT (awgIx n g) b := by
  unfold codeOut
  split
  · rw [State.rb_setRb_apart _ _ _ _ _ _ _ (by decide) hb, modAwg_rb]
  · rfl

@[simp] theorem putOut_awg : (putOut n g x s).awg n g = { s.awg n g with out := x } :=
  (putOut_eq (fun u => u.awg n g) fun _ _ => noteClamp_awg).trans codeOut_awg
theorem putOut_reg {r : Reg} {i : Nat} (h : r ∉ [.CH_EVT, .CL_AWG_EVT]) : (putOut n g x s).reg r i = s.reg r i := by
  simp only [List.mem_cons, List.not_mem_nil, or_false, not_or] at h
  exact (putOut_eq (fun u => u.reg r i) fun _ _ => noteClamp_reg h.1).trans (codeOut_reg h.2)
theorem putOut_evt {b : Nat} (hb : b ≠ 5) : (putOut n g x s).rb .CL_AWG_EVT (awgIx n g) b = s.rb .CL_AWG_EVT (awgIx n g) b :=
  (putOut_eq (fun u => u.rb .CL_AWG_EVT (awgIx n g) b) fun _ _ => congrArg (bitOf · b) (noteClamp_reg (by decide))).trans
    (codeOut_evt hb)
/-- A code that the destination clips sets CLIP. -/
theorem putOut_clip (h : clipCode x ≠ x) : (putOut n g x s).rb .CL_AWG_EVT (awgIx n g) 5 = true := by
  refine (putOut_eq (fun u => u.rb .CL_AWG_EVT (awgIx n g) 5) fun _ _ =>
    congrArg (bitOf · 5) (noteClamp_reg (by decide))).trans ?_
  unfold codeOut
  rw [if_pos h]
  exact State.rb_setRb_same _ _ _ _ _ (by decide)

end Sys2Proof.Machine
end

section
/-! ### A generator ends (R292, R299) -/

namespace Sys2Proof.Machine

variable {s : State} {n : Cluster} {g : Fin 2} {v : Nat} {f : Awg → Awg}

/-- The generator enters state v and its record is f's; a pending request is lost. -/
def genEnded (n : Cluster) (g : Fin 2) (v : Nat) (f : Awg → Awg) (s : State) : State :=
  setAwgState n g v (noteJump n g (modAwg n g f (pendingLost n g s)))

@[simp] theorem genEnded_awg : (genEnded n g v f s).awg n g = f (s.awg n g) := by
  unfold genEnded setAwgState
  rw [State.awg_setRf, noteJump_awg, modAwg_awg, pendingLost_awg]
theorem genEnded_state (hv : v < 8) : awgState (genEnded n g v f s) n g = v := setAwgState_state hv
/-- Of CL_AWG_STAT only STATE and JPEND change. -/
theorem genEnded_stat {lo len : Nat} (hlo : 4 ≤ lo) (hl : lo + len ≤ 32) :
    (genEnded n g v f s).rf .CL_AWG_STAT (awgIx n g) lo len = s.rf .CL_AWG_STAT (awgIx n g) lo len := by
  rw [genEnded, setAwgState, State.rf_setRf_apart _ _ _ _ _ _ _ _ _ hl (by omega), noteJump,
    State.rf_setRb_apart _ _ _ _ _ _ _ _ (by decide) (by omega), modAwg_rf, State.rf, pendingLost_reg (by simp), State.rf]
theorem genEnded_evt {b : Nat} (hb : b ≠ 3) :
    (genEnded n g v f s).rb .CL_AWG_EVT (awgIx n g) b = s.rb .CL_AWG_EVT (awgIx n g) b := by
  rw [genEnded, setAwgState, State.rb, State.reg_setRf, if_neg (by simp), noteJump_reg (by decide), modAwg_reg, ← State.rb,
    pendingLost_evt hb]

/-! The generator stops (R292). -/

/-- The record of a generator that has ended: nothing decided, pending, fetched or asked for; `hold` keeps its last sample. -/
def endedRec (hold : Bool) (a : Awg) : Awg :=
  { a with next := none, jump := none, fifo := [], stopAt := none, refused := false, held := hold }

/-- What a stopped generator puts out (R292). -/
def endCode (s : State) (n : Cluster) (g : Fin 2) : Int :=
  if s.rb .CL_AWG_CTRL (awgIx n g) 4 then (s.awg n g).lastX else clearCode s n g

theorem awgHalt_eq : awgHalt n g s = putOut n g (endCode s n g)
    ((genEnded n g 0 (endedRec (s.rb .CL_AWG_CTRL (awgIx n g) 4)) s).setRb .CL_AWG_EVT (awgIx n g) 0 true) := rfl

theorem awgHalt_awg : (awgHalt n g s).awg n g =
    { endedRec (s.rb .CL_AWG_CTRL (awgIx n g) 4) (s.awg n g) with out := endCode s n g } := by
  rw [awgHalt_eq, putOut_awg, State.awg_setRb, genEnded_awg]
theorem awgHalt_state : awgState (awgHalt n g s) n g = 0 := by
  rw [awgHalt_eq, awgState_congr (putOut_reg (by decide)), awgState_congr ((State.reg_setRb ..).trans (if_neg (by simp))),
    genEnded_state (by decide)]
theorem awgHalt_end : (awgHalt n g s).rb .CL_AWG_EVT (awgIx n g) 0 = true := by
  rw [awgHalt_eq, putOut_evt (by decide), State.rb_setRb_same _ _ _ _ _ (by decide)]
theorem awgHalt_evt {b : Nat} (h0 : b ≠ 0) (h3 : b ≠ 3) (h5 : b ≠ 5) :
    (awgHalt n g s).rb .CL_AWG_EVT (awgIx n g) b = s.rb .CL_AWG_EVT (awgIx n g) b := by
  rw [awgHalt_eq, putOut_evt h5, State.rb_setRb_apart _ _ _ _ _ _ _ (by decide) h0, genEnded_evt h3]
theorem awgHalt_err : (awgHalt n g s).rf .CL_AWG_STAT (awgIx n g) 8 4 = s.rf .CL_AWG_STAT (awgIx n g) 8 4 := by
  rw [awgHalt_eq, State.rf, putOut_reg (by decide), ← State.rf, State.rf_setRb_apart _ _ _ _ _ _ _ _ (by decide) (by decide),
    genEnded_stat (by decide) (by decide)]

/-- A state with this generator's settings and last sample as they were stops as R292 says. -/
theorem awgHalt_stopped {u : State} (hctrl : u.reg .CL_AWG_CTRL (awgIx n g) = s.reg .CL_AWG_CTRL (awgIx n g))
    (hclr : u.reg .CL_AWG_CLR (awgIx n g) = s.reg .CL_AWG_CLR (awgIx n g)) (hlast : (u.awg n g).lastX = (s.awg n g).lastX) :
    GenStopped n g s (awgHalt n g u) := by
  have hcode : endCode u n g = endCode s n g := by unfold endCode State.rb; rw [hctrl, hlast, clearCode_congr hclr]
  refine ⟨awgHalt_state, awgHalt_end, ?_, ?_, ?_⟩
  · rw [awgHalt_awg]; rfl
  · rw [awgHalt_awg]; rfl
  · rw [awgHalt_awg]; exact hcode

end Sys2Proof.Machine
end

section
/-! ### Jump requests arrive (R293 to R295) -/

namespace Sys2Proof.Machine

variable {s s' u : State} {n : Cluster} {g : Fin 2} {j : AwgJump} {b : Nat}

/-- Requests have arrived: of the generator's record only the requests changed, and its state did not. -/
structure JumpsTaken (n : Cluster) (g : Fin 2) (s s' : State) : Prop where
  awg : ∃ c j, s'.awg n g = { s.awg n g with coming := c, jump := j }
  state : awgState s' n g = awgState s n g
  regs : ∀ r i, r ∉ [Reg.CL_AWG_STAT, .CL_AWG_JLOST, .CL_AWG_EVT] → s'.reg r i = s.reg r i

theorem JumpsTaken.trans (h : JumpsTaken n g s u) (h' : JumpsTaken n g u s') : JumpsTaken n g s s' := by
  obtain ⟨c, j, hawg⟩ := h.awg
  obtain ⟨c', j', hawg'⟩ := h'.awg
  exact ⟨⟨c', j', by rw [hawg', hawg]⟩, h'.state.trans h.state, fun r i hr => (h'.regs r i hr).trans (h.regs r i hr)⟩

/-- The request arrives at or after the commit point (R294). -/
def jumpLate (s : State) (n : Cluster) (g : Fin 2) (j : AwgJump) : Bool :=
  decide (awgState s n g = 2) && decide (passCommit (s.awg n g) ≤ j.at_ / 20 * 20)

/-- Request j is the pending one. -/
def jumpPending (n : Cluster) (g : Fin 2) (j : AwgJump) (s : State) : State :=
  noteJump n g (modAwg n g (fun a => { a with jump := some j }) s)

@[simp] theorem jumpPending_awg : (jumpPending n g j s).awg n g = { s.awg n g with jump := some j } := by
  rw [jumpPending, noteJump_awg, modAwg_awg]
theorem jumpPending_reg {r : Reg} {i : Nat} (h : r ≠ .CL_AWG_STAT) : (jumpPending n g j s).reg r i = s.reg r i := by
  rw [jumpPending, noteJump_reg h, modAwg_reg]
theorem jumpPending_state : awgState (jumpPending n g j s) n g = awgState s n g := by
  rw [jumpPending, noteJump_state]; rfl
@[simp] theorem jumpPending_entry (i : Nat) : awgEntry (jumpPending n g j s) n g i = awgEntry s n g i := rfl
theorem jumpPending_upd {K R : Nat} {C : Nat → Nat → Prop} {s0 : State} (h : Upd K R C s0 s) (hk : partSet [.awgs] ||| K = K)
    (hr : regSet [.CL_AWG_STAT] ||| R = R)
    (hc : ∃ c, C n.val c) : Upd K R C s0 (jumpPending n g j s) :=
  noteJump_upd (modAwg_upd h (sub_of (by decide) hk) hc) (sub_of (by decide) hr) hc

theorem jumpArrive_pends (hdds : awgDds s n g = false) (hstate : awgState s n g = 1 ∨ awgState s n g = 2) :
    jumpArrive n g j s = jumpPending n g { j with late := jumpLate s n g j } (pendingLost n g s) := by
  refine if_neg fun h => ?_
  rw [hdds] at h
  rcases h with h | h
  · cases h
  · omega

theorem jumpArrive_lost (h : awgDds s n g = true ∨ awgState s n g ≠ 1 ∧ awgState s n g ≠ 2) :
    jumpArrive n g j s = jumpLost n g s := if_pos h

theorem jumpArrive_taken : JumpsTaken n g s (jumpArrive n g j s) := by
  by_cases h : awgDds s n g = true ∨ awgState s n g ≠ 1 ∧ awgState s n g ≠ 2
  · rw [jumpArrive_lost h]
    exact ⟨⟨_, _, rfl⟩, awgState_congr (jumpLost_reg (by decide)), fun r i hr => jumpLost_reg fun x => hr (.tail _ x)⟩
  · rw [not_or] at h
    rw [jumpArrive_pends (Bool.eq_false_iff.2 h.1) (by omega)]
    refine ⟨⟨(s.awg n g).coming, some { j with late := jumpLate s n g j }, ?_⟩, ?_, fun r i hr => ?_⟩
    · rw [jumpPending_awg, pendingLost_awg]
    · rw [jumpPending_state]
      exact awgState_congr (pendingLost_reg (by decide))
    · rw [jumpPending_reg fun x => hr (x ▸ .head _), pendingLost_reg fun x => hr (.tail _ x)]

theorem modAwg_coming_taken {c : List AwgJump} : JumpsTaken n g s (modAwg n g (fun a => { a with coming := c }) s) :=
  ⟨⟨c, (s.awg n g).jump, modAwg_awg _⟩, rfl, fun _ _ _ => rfl⟩

theorem jumpsBefore_taken : JumpsTaken n g s (jumpsBefore n g b s) :=
  List.foldlRecOn _ _ modAwg_coming_taken fun _ hu _ _ => hu.trans jumpArrive_taken

theorem awgSettle_taken : JumpsTaken n g s (awgSettle n g s) := jumpsBefore_taken

/-- Where no request arrives before tick b, the generator's record is written as it stands. -/
theorem jumpsBefore_none (h : NoJumpBefore n g b s) : jumpsBefore n g b s = s.setAwg n g (s.awg n g) := by
  have hnow : (s.awg n g).coming.filter (fun j => decide (j.at_ / 20 * 20 < b)) = [] :=
    List.filter_eq_nil_iff.2 fun j hj => by have := h j hj; simpa using this
  have hrest : (s.awg n g).coming.filter (fun j => !decide (j.at_ / 20 * 20 < b)) = (s.awg n g).coming :=
    List.filter_eq_self.2 fun j hj => by have := h j hj; simpa using this
  unfold jumpsBefore
  dsimp only
  rw [hnow, hrest]
  rfl

/-- One request is on its way, and arrives before tick b. -/
theorem jumpsBefore_one (hcoming : (s.awg n g).coming = [j]) (h : j.at_ / 20 * 20 < b) :
    jumpsBefore n g b s = jumpArrive n g j (modAwg n g (fun a => { a with coming := [] }) s) := by
  have hnow : [j].filter (fun j => decide (j.at_ / 20 * 20 < b)) = [j] := List.filter_cons_of_pos (by simpa using h)
  have hrest : [j].filter (fun j => !decide (j.at_ / 20 * 20 < b)) = [] := List.filter_cons_of_neg (by simpa using h)
  unfold jumpsBefore
  dsimp only
  rw [hcoming, hnow, hrest]
  rfl

end Sys2Proof.Machine
end

section
/-! ### Commands that write a generator's register -/

namespace Sys2Proof.Machine

variable {s s' : State} {n : Cluster} {g : Fin 2} {q : Req} {d set : Word} {t : Nat} {r : Reg}

/-- The registers of a generator that commands write. -/
def genCmdRegs : List Reg :=
  [.CL_AWG_CTRL, .CL_AWG_JUMP, .CL_AWG_TDATA_HI, .CL_AWG_FTW_LO, .CL_AWG_FTW_HI, .CL_AWG_POFF_LO, .CL_AWG_POFF_HI,
    .CL_AWG_AMP]

theorem genCmdRegs_row (h : r ∈ genCmdRegs) : r ∈ cmdRegs ∧ r.row.cluster = true ∧ r.row.count = 2 := by
  revert r; decide

/-- CL_AWG_JUMP has been written d: a request goes on its way where GO is 1 (R293). -/
def jumpWritten (n : Cluster) (g : Fin 2) (d : Word) (s : State) : State :=
  let s1 := plainWrite .CL_AWG_JUMP (awgIx n g) d 0xFFFFFFFF#32 s
  if bitOf d 31 then jumpRequest n g (s1.rf .CL_AWG_JUMP (awgIx n g) 0 10) s1.clasp false s1 else s1

/-- CL_AWG_AMP has been written d: its value goes on its way (R298). -/
def ampWritten (n : Cluster) (g : Fin 2) (d : Word) (s : State) : State :=
  let s1 := cappedWrite .CL_AWG_AMP (awgIx n g) 0 16 32767 d 0xFFFFFFFF#32 s
  genDds n g 2 (s1.reg .CL_AWG_AMP (awgIx n g)).toNat s1

/-- What a performed write of d to such a register does, as its chapter says. -/
def genEffect (r : Reg) (n : Cluster) (g : Fin 2) (d : Word) (s : State) : State :=
  match r with
  | .CL_AWG_CTRL => genCtrl n g d 0xFFFFFFFF#32 s
  | .CL_AWG_JUMP => jumpWritten n g d s
  | .CL_AWG_TDATA_HI => genEntry n g d 0xFFFFFFFF#32 s
  | .CL_AWG_FTW_LO => modAwg n g (fun a => { a with ftwLo := mergeRw a.ftwLo 0xFFFFFFFF#32 d 0xFFFFFFFF#32 }) s
  | .CL_AWG_POFF_LO => modAwg n g (fun a => { a with poffLo := mergeRw a.poffLo 0xFFFFFFFF#32 d 0xFFFFFFFF#32 }) s
  | .CL_AWG_FTW_HI => genHi .CL_AWG_FTW_LO .CL_AWG_FTW_HI 0 (s.awg n g).ftwLo n g d 0xFFFFFFFF#32 s
  | .CL_AWG_POFF_HI => genHi .CL_AWG_POFF_LO .CL_AWG_POFF_HI 1 (s.awg n g).poffLo n g d 0xFFFFFFFF#32 s
  | _ => ampWritten n g d s

theorem jumpWritten_eq : (if ones d 0xFFFFFFFF#32 31 then
      jumpRequest n g ((plainWrite .CL_AWG_JUMP (awgIx n g) d 0xFFFFFFFF#32 s).rf .CL_AWG_JUMP (awgIx n g) 0 10) s.clasp false
        (plainWrite .CL_AWG_JUMP (awgIx n g) d 0xFFFFFFFF#32 s)
    else plainWrite .CL_AWG_JUMP (awgIx n g) d 0xFFFFFFFF#32 s) = jumpWritten n g d s := by rw [ones_full]; rfl

/-- A write that is not dropped is performed. -/
theorem genWrite_done (hm : r ∈ genCmdRegs) (h : genWrite r n g d 0xFFFFFFFF#32 s = .ok s') : genEffect r n g d s = s' := by
  have hpin : ¬ (clrPin s n g && !clrExempt r) = true := fun hp => by
    have hdrop : genWrite r n g d 0xFFFFFFFF#32 s = genDrop n g s := if_pos hp
    rw [hdrop] at h; cases h
  unfold genWrite at h
  rw [if_neg hpin] at h
  simp only [genCmdRegs, List.mem_cons, List.not_mem_nil, or_false] at hm
  rcases hm with rfl | rfl | rfl | rfl | rfl | rfl | rfl | rfl
  all_goals dsimp only at h
  case inl =>
    split at h
    · cases h
    · exact Act.ok.inj h
  case inr.inl => exact jumpWritten_eq.symm.trans (Act.ok.inj h)
  all_goals exact Act.ok.inj h

theorem cluPut_gen (hm : r ∈ genCmdRegs) (i : Nat) (d m : Word) :
    cluPut q n r i d m s = genWrite r n (elemGen i) d m s := by
  simp only [genCmdRegs, List.mem_cons, List.not_mem_nil, or_false] at hm
  rcases hm with rfl | rfl | rfl | rfl | rfl | rfl | rfl | rfl <;> rfl

/-- An accepted command that writes a generator's register has its chapter's effect, and ends the cluster's gating (R428). -/
theorem cmdWrite_gen (hm : r ∈ genCmdRegs) (h : Accepted q r (awgIx n g) (d ||| set) s) :
    cmdWrite q r (awgIx n g) d set s = ungate n.val (genEffect r n g (d ||| set) s) := by
  obtain ⟨hcmd, hclu, hcount⟩ := genCmdRegs_row hm
  have hsize : awgIx n g < r.size := by unfold Reg.size awgIx; rw [if_pos hclu, hcount]; omega
  have hof : r.cluOf (awgIx n g) = n.val := by unfold Reg.cluOf awgIx; rw [hcount]; omega
  obtain ⟨s', hput, hwrite⟩ := cmdWrite_cluster hcmd hclu hsize hof h
  rw [cluPut_gen hm, elemGen_awgIx] at hput
  rw [hwrite, genWrite_done hm hput]

/-- The same where the command sets no bit of its own. -/
theorem cmdWrite_gen_plain (hm : r ∈ genCmdRegs) (h : Accepted q r (awgIx n g) d s) :
    cmdWrite q r (awgIx n g) d 0#32 s = ungate n.val (genEffect r n g d s) := by
  have hzero : d ||| 0#32 = d := BitVec.or_zero
  have hw := cmdWrite_gen (set := 0#32) hm (hzero.symm ▸ h)
  rwa [hzero] at hw

end Sys2Proof.Machine
end

section
/-! ### Writes of CL_AWG_CTRL (R283, R291, R292) -/

namespace Sys2Proof.Machine

variable {K R : Nat} {C : Nat → Nat → Prop} {s0 s : State} {n : Cluster} {g : Fin 2} {d : Word}

/-- The word is stored, and AUX_RECON has acted. -/
def awgCtrlStored (n : Cluster) (g : Fin 2) (d : Word) (s : State) : State :=
  let s1 := plainWrite .CL_AWG_CTRL (awgIx n g) d 0xFFFFFFFF#32 s
  if bitOf d 5 then s1.setRb .CL_AWG_STAT (awgIx n g) 6 false else s1

theorem awgCtrlStored_upd (h : Upd K R C s0 s) (hctrl : R.testBit (Reg.ctorIdx .CL_AWG_CTRL) = true)
    (hstat : R.testBit (Reg.ctorIdx .CL_AWG_STAT) = true) (hc : ∃ c, C n.val c) : Upd K R C s0 (awgCtrlStored n g d s) :=
  Upd.ite (State.setRb_upd (plainWrite_upd h hctrl (RegOk.awg rfl hc)) hstat (RegOk.awg rfl hc))
    (plainWrite_upd h hctrl (RegOk.awg rfl hc))

theorem awgCtrlStored_reg {r : Reg} {i : Nat} (hctrl : r ≠ .CL_AWG_CTRL) (hstat : r ≠ .CL_AWG_STAT) :
    (awgCtrlStored n g d s).reg r i = s.reg r i := by
  have hplain : (plainWrite .CL_AWG_CTRL (awgIx n g) d 0xFFFFFFFF#32 s).reg r i = s.reg r i :=
    (plainWrite_reg ..).trans (if_neg fun e => hctrl e.1)
  unfold awgCtrlStored
  dsimp only
  split
  · rw [State.reg_setRb, if_neg fun e => hstat e.1, hplain]
  · exact hplain
theorem awgCtrlStored_ctrl : (awgCtrlStored n g d s).reg .CL_AWG_CTRL (awgIx n g) =
    plainWord s .CL_AWG_CTRL (awgIx n g) d 0xFFFFFFFF#32 := by
  unfold awgCtrlStored
  dsimp only
  split
  · rw [State.reg_setRb, if_neg (by simp), plainWrite_same]
  · exact plainWrite_same
theorem awgCtrlStored_stat : (awgCtrlStored n g d s).reg .CL_AWG_STAT (awgIx n g) =
    if bitOf d 5 then putBit (s.reg .CL_AWG_STAT (awgIx n g)) 6 false else s.reg .CL_AWG_STAT (awgIx n g) := by
  have hplain : (plainWrite .CL_AWG_CTRL (awgIx n g) d 0xFFFFFFFF#32 s).reg .CL_AWG_STAT (awgIx n g) =
    s.reg .CL_AWG_STAT (awgIx n g) := (plainWrite_reg ..).trans (if_neg (by simp))
  unfold awgCtrlStored
  dsimp only
  split
  · rw [State.reg_setRb, if_pos ⟨rfl, rfl⟩, hplain]
  · exact hplain
@[simp] theorem awgCtrlStored_awg : (awgCtrlStored n g d s).awg n g = s.awg n g := by
  unfold awgCtrlStored; dsimp only; split <;> rfl
@[simp] theorem awgCtrlStored_clasp : (awgCtrlStored n g d s).clasp = s.clasp := by
  unfold awgCtrlStored; dsimp only; split <;> rfl
@[simp] theorem awgCtrlStored_entry (i : Nat) : awgEntry (awgCtrlStored n g d s) n g i = awgEntry s n g i := by
  unfold awgCtrlStored; dsimp only; split <;> rfl
theorem awgCtrlStored_state : awgState (awgCtrlStored n g d s) n g = awgState s n g := by
  unfold awgState State.rf
  rw [awgCtrlStored_stat]
  split
  · exact fld_putBit_ne _ _ _ _ _ (by decide) (by decide)
  · rfl

theorem rwOf_awgCtrl (i : Nat) : Reg.rwOf .CL_AWG_CTRL i = 0x3FF00DC#32 := rfl
/-- TMODE and MODE as stored. -/
theorem awgCtrlStored_bit {b : Nat} (hb : b = 2 ∨ b = 3) : (awgCtrlStored n g d s).rb .CL_AWG_CTRL (awgIx n g) b = bitOf d b := by
  rw [State.rb, awgCtrlStored_ctrl, bitOf_plainWord _ _ _ _ _ (by omega), rwOf_awgCtrl]
  rcases hb with rfl | rfl <;> simp [bitOf, Reg.row]
theorem awgCtrlStored_first : (awgCtrlStored n g d s).rf .CL_AWG_CTRL (awgIx n g) 16 10 = fld d 16 10 := by
  rw [State.rf, awgCtrlStored_ctrl]
  exact fld_plainWord _ _ _ _ _ _ (by decide) (by rw [rwOf_awgCtrl]; decide) (by decide)

/-! What acts on the stored word. -/

theorem awgStop_idle (h : awgState s n g = 0) : awgStop n g s = s := by unfold awgStop; rw [h]; rfl

theorem genCtrl_recon (h0 : bitOf d 0 = false) (h1 : bitOf d 1 = false) :
    genCtrl n g d 0xFFFFFFFF#32 s = awgCtrlStored n g d s := by
  unfold genCtrl
  simp only [ones_full, h0, h1, Bool.false_eq_true, if_false]
  rfl

theorem genCtrl_stop (h0 : bitOf d 0 = false) (h1 : bitOf d 1 = true) :
    genCtrl n g d 0xFFFFFFFF#32 s = awgStop n g (awgCtrlStored n g d s) := by
  unfold genCtrl
  simp only [ones_full, h0, h1, Bool.false_eq_true, if_false, if_true]
  rfl

theorem startOr_free {kind e : Nat} {go : State → State} (hintr : calIntrOn s n = false) (hasy : asyBusy s n = false)
    (hstep : calStepOn s n = false) : startOr n kind e go s = go s := by
  unfold startOr calAbandon; rw [hintr, hasy, hstep]; rfl

/-- A START of an idle generator that nothing holds; a STOP in the same word does nothing. -/
theorem genCtrl_start (h0 : bitOf d 0 = true) (hidle : awgState s n g = 0) (hintr : calIntrOn s n = false)
    (hasy : asyBusy s n = false) (hstep : calStepOn s n = false) :
    genCtrl n g d 0xFFFFFFFF#32 s = awgStart n g (awgCtrlStored n g d s) := by
  have hstop : (if bitOf d 1 then awgStop n g (awgCtrlStored n g d s) else awgCtrlStored n g d s) = awgCtrlStored n g d s := by
    rw [awgStop_idle (awgCtrlStored_state.trans hidle), ite_self]
  have hgo : startOr n 1 g.val (awgStart n g) (awgCtrlStored n g d s) = awgStart n g (awgCtrlStored n g d s) :=
    startOr_free ((calIntrOn_congr (awgCtrlStored_reg (by decide) (by decide))).trans hintr)
      ((asyBusy_congr (awgCtrlStored_reg (by decide) (by decide))).trans hasy)
      ((congrArg (bitOf · 1) (awgCtrlStored_reg (by decide) (by decide))).trans hstep)
  unfold genCtrl
  simp only [ones_full, h0, if_true]
  rw [← awgCtrlStored.eq_def, hstop, hgo]

end Sys2Proof.Machine
end

section
/-! ### START (R291) -/

namespace Sys2Proof.Machine

variable {K R : Nat} {C : Nat → Nat → Prop} {s0 s : State} {n : Cluster} {g : Fin 2} {q : Req} {d : Word} {t b i : Nat}

/-- TSTART on the sample grid. -/
def awgStartAt (s : State) (n : Cluster) (g : Fin 2) : Nat :=
  (s.pair .CL_AWG_TSTART_LO .CL_AWG_TSTART_HI (awgIx n g) + 19) / 20 * 20

/-- The record of a generator armed for tick b at entry i, whose words are x. -/
def armedRec (b i : Nat) (x : Word × Word) (a : Awg) : Awg :=
  { a with
    t0 := b, start := b, entry := i, lo := x.1, hi := x.2, left := entRep x.1, next := none, jump := none, fifo := [],
    pos := 0, fetchAt := entAddr x.1, fetchLeft := entLen x.2, refused := false, stopAt := none }

/-- The generator is armed. -/
def genArmed (n : Cluster) (g : Fin 2) (b i : Nat) (s : State) : State :=
  setAwgState n g 1 (noteJump n g (modAwg n g (armedRec b i (awgEntry s n g i)) s))

theorem genArmed_upd (h : Upd K R C s0 s) (hk : partSet [.awgs] ||| K = K)
    (hr : regSet [.CL_AWG_STAT] ||| R = R)
    (hc : ∃ c, C n.val c) : Upd K R C s0 (genArmed n g b i s) :=
  setAwgState_upd (noteJump_upd (modAwg_upd h (sub_of (by decide) hk) hc) (sub_of (by decide) hr) hc) (sub_of (by decide) hr) hc

@[simp] theorem genArmed_awg : (genArmed n g b i s).awg n g = armedRec b i (awgEntry s n g i) (s.awg n g) := modAwg_awg _
theorem genArmed_state : awgState (genArmed n g b i s) n g = 1 := setAwgState_state (by decide)

/-- A START that meets no error arms the generator for b. -/
theorem awgStart_arms (hidle : awgState s n g = 0) (hgov : govLevel s n < 2)
    (hb : b = if s.rb .CL_AWG_CTRL (awgIx n g) 2 then awgStartAt s n g else awgGrid s.clasp)
    (hi : i = s.rf .CL_AWG_CTRL (awgIx n g) 16 10) (htime : s.clasp + 2560 ≤ b)
    (hentry : awgDds s n g = true ∨ entOk (awgEntry s n g i).1 (awgEntry s n g i).2 = true) :
    awgStart n g s = genArmed n g b i s := by
  subst hi
  rw [awgStartAt] at hb
  unfold awgStart
  dsimp only
  rw [← hb, if_neg (not_not.2 hidle), if_neg (by omega), if_neg (by omega), if_neg]
  · rfl
  · rintro ⟨hmode, hbad⟩
    rcases hentry with h | h <;> simp [h] at hmode hbad

/-- The error of a START: the Governor's, a time too near, or else a bad entry. -/
def awgStartErr (s : State) (n : Cluster) (late : Bool) : Nat := if 2 ≤ govLevel s n then 4 else if late then 1 else 2

theorem awgStart_errs {late : Bool} (hidle : awgState s n g = 0)
    (hlate : late = (s.rb .CL_AWG_CTRL (awgIx n g) 2 && decide (awgStartAt s n g < s.clasp + 2560)))
    (hi : i = s.rf .CL_AWG_CTRL (awgIx n g) 16 10)
    (herr : 2 ≤ govLevel s n ∨ late = true ∨
      (awgDds s n g = false ∧ entOk (awgEntry s n g i).1 (awgEntry s n g i).2 = false)) :
    awgStart n g s = awgErr n g (awgStartErr s n late) s := by
  subst hi
  have htime : (s.rb .CL_AWG_CTRL (awgIx n g) 2 = true ∧ (if s.rb .CL_AWG_CTRL (awgIx n g) 2 = true then
      (s.pair .CL_AWG_TSTART_LO .CL_AWG_TSTART_HI (awgIx n g) + 19) / 20 * 20 else awgGrid s.clasp) < s.clasp + 2560) ↔
      late = true := by
    rw [hlate, Bool.and_eq_true, decide_eq_true_iff, awgStartAt]
    exact and_congr_right fun h => by rw [if_pos h]
  unfold awgStart awgStartErr
  dsimp only
  rw [if_neg (not_not.2 hidle)]
  simp only [htime]
  by_cases hgov : 2 ≤ govLevel s n
  · rw [if_pos hgov, if_pos hgov]
  · rw [if_neg hgov, if_neg hgov]
    by_cases hl : late = true
    · rw [if_pos hl, if_pos hl]
    · obtain ⟨hmode, hbad⟩ := (herr.resolve_left hgov).resolve_left hl
      rw [if_neg hl, if_neg hl, hmode, hbad, if_pos ⟨rfl, rfl⟩]

/-- The command, on a generator that is idle while nothing holds its start. -/
theorem execAwgStart_idle (hacc : Accepted q .CL_AWG_CTRL (awgIx n g) (d ||| 1#32) (s.at t)) (hidle : awgState s n g = 0)
    (hintr : calIntrOn s n = false) (hasy : asyBusy s n = false) (hstep : calStepOn s n = false) :
    exec (.awgStart t q n g d) s = .next (ungate n.val (awgStart n g (awgCtrlStored n g (d ||| 1#32) (s.at t)))) := by
  have h0 : bitOf (d ||| 1#32) 0 = true := by rw [bitOf_or]; simp [bitOf]
  refine congrArg Host.Outcome.next ((cmdWrite_gen (by decide) hacc).trans (congrArg (ungate n.val) ?_))
  exact genCtrl_start h0 ((awgState_congr (State.reg_at ..)).trans hidle) ((calIntrOn_congr (State.reg_at ..)).trans hintr)
    ((asyBusy_congr (State.reg_at ..)).trans hasy) ((State.rb_at ..).trans hstep)

/-- What the written word says to a START. -/
theorem awgStartStored : let u := awgCtrlStored n g (d ||| 1#32) (s.at t)
    u.rb .CL_AWG_CTRL (awgIx n g) 2 = bitOf d 2 ∧ awgDds u n g = bitOf d 3 ∧ u.rf .CL_AWG_CTRL (awgIx n g) 16 10 = fld d 16 10 ∧
      awgStartAt u n g = awgStartAt s n g ∧ govLevel u n = govLevel s n ∧ u.clasp = (s.at t).clasp ∧
      u.awg n g = s.awg n g ∧ ∀ i, awgEntry u n g i = awgEntry s n g i := by
  refine ⟨?_, ?_, ?_, ?_, ?_, awgCtrlStored_clasp, ?_, fun i => ?_⟩
  · rw [awgCtrlStored_bit (.inl rfl), bitOf_or]; simp [bitOf]
  · rw [awgDds, awgCtrlStored_bit (.inr rfl), bitOf_or]; simp [bitOf]
  · rw [awgCtrlStored_first, fld_or_apart _ _ _ _ (by decide)]
  · unfold awgStartAt State.pair
    rw [awgCtrlStored_reg (by decide) (by decide), awgCtrlStored_reg (by decide) (by decide), State.reg_at, State.reg_at]
  · exact govLevel_congr ((awgCtrlStored_reg (by decide) (by decide)).trans (State.reg_at ..))
  · rw [awgCtrlStored_awg, State.awg_at]
  · rw [awgCtrlStored_entry, awgEntry, State.awgTab_at, ← awgEntry]

theorem awgStart_armed (hacc : Accepted q .CL_AWG_CTRL (awgIx n g) (d ||| 1#32) (s.at t)) (hidle : awgState s n g = 0)
    (hgov : govLevel s n < 2) (hintr : calIntrOn s n = false) (hasy : asyBusy s n = false) (hstep : calStepOn s n = false)
    (hb : b = if bitOf d 2 then awgStartAt s n g else awgGrid (s.at t).clasp) (htime : (s.at t).clasp + 2560 ≤ b)
    (hentry : bitOf d 3 = true ∨ entOk (awgEntry s n g (fld d 16 10)).1 (awgEntry s n g (fld d 16 10)).2 = true) :
    ∃ s', exec (.awgStart t q n g d) s = .next s' ∧ awgState s' n g = 1 ∧
      s'.awg n g = armedRec b (fld d 16 10) (awgEntry s n g (fld d 16 10)) (s.awg n g) ∧
      Frame [.clasp, .awgs] [.CL_AWG_CTRL, .CL_AWG_STAT, .PWR_CLU_GATE] (atCluster n) s s' := by
  obtain ⟨htmode, hmode, hfirst, hstart, hlevel, hclasp, hawg, hent⟩ := awgStartStored (s := s) (n := n) (g := g) (d := d) (t := t)
  have harms : awgStart n g (awgCtrlStored n g (d ||| 1#32) (s.at t)) =
      genArmed n g b (fld d 16 10) (awgCtrlStored n g (d ||| 1#32) (s.at t)) := by
    refine awgStart_arms ?_ (by rwa [hlevel]) (by rwa [htmode, hstart, hclasp]) hfirst.symm (by rwa [hclasp])
      (by rwa [hmode, hent])
    exact awgCtrlStored_state.trans ((awgState_congr (State.reg_at ..)).trans hidle)
  have hexec := execAwgStart_idle hacc hidle hintr hasy hstep
  rw [harms] at hexec
  have hupd : Upd (partSet [.awgs]) (regSet [.CL_AWG_CTRL, .CL_AWG_STAT]) (atCluster n) (s.at t)
      (genArmed n g b (fld d 16 10) (awgCtrlStored n g (d ||| 1#32) (s.at t))) :=
    genArmed_upd (awgCtrlStored_upd Upd.refl (by decide) (by decide) ⟨0, rfl⟩) (by decide) (by decide) ⟨0, rfl⟩
  refine ⟨_, hexec, ?_, ?_, (cmdWrite_frame hupd).listed (by decide) (by decide)⟩
  · rw [awgState_congr (ungate_reg (by decide)), genArmed_state]
  · rw [ungate_awg, genArmed_awg, hawg, hent]

theorem awgStart_failed {late : Bool} (hacc : Accepted q .CL_AWG_CTRL (awgIx n g) (d ||| 1#32) (s.at t))
    (hidle : awgState s n g = 0) (hintr : calIntrOn s n = false) (hasy : asyBusy s n = false) (hstep : calStepOn s n = false)
    (hlate : late = (bitOf d 2 && decide (awgStartAt s n g < (s.at t).clasp + 2560)))
    (herr : 2 ≤ govLevel s n ∨ late = true ∨
      (bitOf d 3 = false ∧ entOk (awgEntry s n g (fld d 16 10)).1 (awgEntry s n g (fld d 16 10)).2 = false)) :
    ∃ s', exec (.awgStart t q n g d) s = .next s' ∧ awgState s' n g = 0 ∧
      s'.rf .CL_AWG_STAT (awgIx n g) 8 4 = awgStartErr s n late ∧ s'.rb .CL_AWG_EVT (awgIx n g) 4 = true ∧
      Frame [.clasp] [.CL_AWG_CTRL, .CL_AWG_STAT, .CL_AWG_EVT, .PWR_CLU_GATE] (atCluster n) s s' := by
  obtain ⟨htmode, hmode, hfirst, hstart, hlevel, hclasp, -, hent⟩ := awgStartStored (s := s) (n := n) (g := g) (d := d) (t := t)
  have hidle' : awgState (awgCtrlStored n g (d ||| 1#32) (s.at t)) n g = 0 :=
    awgCtrlStored_state.trans ((awgState_congr (State.reg_at ..)).trans hidle)
  have herrs := awgStart_errs (late := late) hidle' (by rwa [htmode, hstart, hclasp]) hfirst.symm (by rwa [hlevel, hmode, hent])
  rw [awgStartErr, hlevel, ← awgStartErr] at herrs
  have hcode : awgStartErr s n late < 16 := by unfold awgStartErr; split <;> [decide; (split <;> decide)]
  have hexec := execAwgStart_idle hacc hidle hintr hasy hstep
  rw [herrs] at hexec
  have hupd : Upd 0 (regSet [.CL_AWG_CTRL, .CL_AWG_STAT, .CL_AWG_EVT]) (atCluster n) (s.at t)
      (awgErr n g (awgStartErr s n late) (awgCtrlStored n g (d ||| 1#32) (s.at t))) :=
    awgErr_upd (awgCtrlStored_upd Upd.refl (by decide) (by decide) ⟨0, rfl⟩) (by decide) ⟨0, rfl⟩
  refine ⟨_, hexec, ?_, ?_, ?_, (cmdWrite_frame hupd).listed (by decide) (by decide)⟩
  · rw [awgState_congr (ungate_reg (by decide)), awgErr_state, hidle']
  · rw [ungate_rf (by decide), awgErr_code hcode]
  · rw [ungate_rb (by decide), awgErr_evt]

end Sys2Proof.Machine
end

section
/-! ### The run start and STOP (R291, R292) -/

namespace Sys2Proof.Machine

variable {s : State} {n : Cluster} {g : Fin 2} {q : Req} {d : Word} {t : Nat}

theorem awgRunStart_holds (harmed : awgState s n g = 1) (hdue : (s.awg n g).t0 ≤ (s.at t).clasp) :
    ∃ s', exec (.awgRunStart t n g) s = .next s' ∧ awgState s' n g = 2 ∧
      s'.rf .CL_AWG_STAT (awgIx n g) 16 10 = (s.awg n g).entry % 1024 ∧ Frame [.clasp] [.CL_AWG_STAT] (atCluster n) s s' := by
  have hexec : exec (.awgRunStart t n g) s =
      .next ((setAwgState n g 2 (s.at t)).setRf .CL_AWG_STAT (awgIx n g) 16 10 (s.awg n g).entry) := by
    show execAwgRunStart t n g s = _
    unfold execAwgRunStart
    dsimp only
    rw [State.awg_at, if_pos ⟨(awgState_congr (State.reg_at ..)).trans harmed, hdue⟩]
  have hupd : Upd (partSet [.clasp]) (regSet [.CL_AWG_STAT]) (atCluster n) s _ :=
    (execAwgRunStart_upd Upd.refl (by decide) (by decide) ⟨0, rfl⟩).at_next hexec
  refine ⟨_, hexec, ?_, State.rf_setRf_same _ _ _ _ _ _ (by decide), hupd.listed (Nat.or_self _) (Nat.or_self _)⟩
  exact (State.rf_setRf_apart _ _ _ _ _ _ _ _ _ (by decide) (by decide)).trans (setAwgState_state (by decide))

/-- The record of an armed generator whose start is cancelled. -/
def cancelledRec (a : Awg) : Awg := { a with next := none, jump := none, fifo := [], refused := false }

theorem awgStop_armed (h : awgState s n g = 1) :
    awgStop n g s = (genEnded n g 0 cancelledRec s).setRb .CL_AWG_EVT (awgIx n g) 0 true := by
  unfold awgStop; rw [h]; rfl

theorem awgStop_running (h : awgState s n g = 2) :
    awgStop n g s = modAwg n g (fun a => { a with stopAt := some ((s.clasp + 59) / 20 * 20) }) s := by
  unfold awgStop; rw [h]; rfl

theorem awgStop_holds (hacc : Accepted q .CL_AWG_CTRL (awgIx n g) (d ||| 2#32) (s.at t)) (h0 : bitOf d 0 = false)
    (hstate : awgState s n g = 1 ∨ awgState s n g = 2) :
    ∃ s', exec (.awgStop t q n g d) s = .next s' ∧
      (if awgState s n g = 1 then awgState s' n g = 0 ∧ s'.rb .CL_AWG_EVT (awgIx n g) 0 = true ∧ (s'.awg n g).jump = none
       else awgState s' n g = 2 ∧ s'.awg n g = { s.awg n g with stopAt := some (((s.at t).clasp + 59) / 20 * 20) }) ∧
      Frame [.clasp, .awgs] [.CL_AWG_CTRL, .CL_AWG_STAT, .CL_AWG_JLOST, .CL_AWG_EVT, .PWR_CLU_GATE] (atCluster n) s s' := by
  have h0' : bitOf (d ||| 2#32) 0 = false := by rw [bitOf_or, h0]; simp [bitOf]
  have h1 : bitOf (d ||| 2#32) 1 = true := by rw [bitOf_or]; simp [bitOf]
  have hexec : exec (.awgStop t q n g d) s =
      .next (ungate n.val (awgStop n g (awgCtrlStored n g (d ||| 2#32) (s.at t)))) :=
    congrArg Host.Outcome.next ((cmdWrite_gen (by decide) hacc).trans (congrArg (ungate n.val) (genCtrl_stop h0' h1)))
  have hupd : Upd (partSet [.awgs]) (regSet [.CL_AWG_CTRL, .CL_AWG_STAT, .CL_AWG_JLOST, .CL_AWG_EVT]) (atCluster n) (s.at t)
      (awgStop n g (awgCtrlStored n g (d ||| 2#32) (s.at t))) :=
    awgStop_upd (awgCtrlStored_upd Upd.refl (by decide) (by decide) ⟨0, rfl⟩) (by decide) (by decide) ⟨0, rfl⟩
  have hsame : awgState (awgCtrlStored n g (d ||| 2#32) (s.at t)) n g = awgState s n g :=
    awgCtrlStored_state.trans (awgState_congr (State.reg_at ..))
  refine ⟨_, hexec, ?_, (cmdWrite_frame hupd).listed (by decide) (by decide)⟩
  rw [awgState_congr (ungate_reg (by decide)), ungate_rb (by decide), ungate_awg]
  rcases hstate with harmed | hrunning
  · rw [if_pos harmed, awgStop_armed (hsame.trans harmed), State.awg_setRb, genEnded_awg]
    refine ⟨?_, State.rb_setRb_same _ _ _ _ _ (by decide), rfl⟩
    rw [awgState_congr ((State.reg_setRb ..).trans (if_neg (by simp))), genEnded_state (by decide)]
  · rw [if_neg (by omega), awgStop_running (hsame.trans hrunning), modAwg_awg, awgCtrlStored_awg, awgCtrlStored_clasp, State.awg_at]
    exact ⟨(awgState_congr (modAwg_reg ..)).trans (hsame.trans hrunning), rfl⟩

end Sys2Proof.Machine
end

section
/-! ### One generator's turn among all (R299) -/

namespace Sys2Proof.Machine

variable {K R : Nat} {s s' u : State} {n : Cluster} {g g' : Fin 2}

/-- Generator g of cluster n has the same record and registers in both states. -/
structure SameGen (n : Cluster) (g : Fin 2) (s s' : State) : Prop where
  awg : s'.awg n g = s.awg n g
  regs : ∀ r : Reg, r.row.cluster = true → r.row.count = 2 → s'.reg r (awgIx n g) = s.reg r (awgIx n g)

theorem SameGen.refl : SameGen n g s s := ⟨rfl, fun _ _ _ => rfl⟩
theorem SameGen.trans (h : SameGen n g s u) (h' : SameGen n g u s') : SameGen n g s s' :=
  ⟨h'.awg.trans h.awg, fun r hc h2 => (h'.regs r hc h2).trans (h.regs r hc h2)⟩

theorem awgIx_ne (h : g' ≠ g) : awgIx n g' ≠ awgIx n g := fun e => h (awgIx_inj.1 e).2

/-! The cluster's other generator acts. -/

theorem SameGen.setReg (h : SameGen n g s u) (hne : g' ≠ g) (r : Reg) (v : Word) :
    SameGen n g s (u.setReg r (awgIx n g') v) :=
  h.trans ⟨State.awg_setReg .., fun r' _ _ => by rw [State.reg_setReg, if_neg fun e => awgIx_ne hne e.2.symm]⟩
theorem SameGen.setAwg (h : SameGen n g s u) (hne : g' ≠ g) (a : Awg) : SameGen n g s (u.setAwg n g' a) :=
  h.trans ⟨tabGet_tabSet_ne _ _ _ _ (awgIx_ne hne).symm, fun _ _ _ => State.reg_setAwg ..⟩

theorem SameGen.genEnded {v : Nat} {f : Awg → Awg} (h : SameGen n g s u) (hne : g' ≠ g) :
    SameGen n g s (genEnded n g' v f u) := by
  have hlost : SameGen n g s (pendingLost n g' u) := by
    unfold pendingLost
    split
    · exact (h.setReg hne _ _).setReg hne _ _
    · exact h
  exact ((hlost.setAwg hne _).setReg hne _ _).setReg hne _ _

theorem SameGen.putOut {x : Int} (h : SameGen n g s u) (hne : g' ≠ g) : SameGen n g s (putOut n g' x u) := by
  have hcode : SameGen n g s (codeOut n g' x u) := by
    unfold codeOut
    split
    · exact (h.setAwg hne _).setReg hne _ _
    · exact h.setAwg hne _
  refine ⟨(putOut_eq (fun u => u.awg n g) fun _ _ => noteClamp_awg).trans hcode.awg, fun r hc h2 => ?_⟩
  have hevt : r ≠ .CH_EVT := fun e => by rw [e] at h2; cases h2
  exact (putOut_eq (fun u => u.reg r (awgIx n g)) fun _ _ => noteClamp_reg hevt).trans (hcode.regs r hc h2)

/-! The other clusters act. -/

theorem Upd.sameGen (h : Upd K R (atOtherClusters n) s s') : SameGen n g s s' := by
  have hclu : awgIx n g / 2 = n.val := by unfold awgIx; omega
  refine ⟨(h.within.clus n.val fun _ x => x rfl).awgs _ hclu, fun r hc h2 => h.within.cluRegs r _ hc fun _ x => x ?_⟩
  rw [h2, hclu]

/-- A generator's own turn among all: the turns before it and after it leave it as it is. -/
theorem forAwgs_turn {f : Cluster → Fin 2 → State → State} (hf : ∀ n g s, Upd K R (atCluster n) s (f n g s))
    (hother : ∀ n g g' s, g' ≠ g → SameGen n g s (f n g' s)) (s : State) (n : Cluster) (g : Fin 2) :
    ∃ u, SameGen n g s u ∧ SameGen n g (f n g u) (forAwgs f s) := by
  obtain ⟨u, hbefore, hafter⟩ :=
    forClusters_turn (f := fun n s => f n 1 (f n 0 s)) (fun n s => (hf n 0 s).trans (hf n 1 _)) s n
  obtain rfl | rfl : g = 0 ∨ g = 1 := by omega
  · exact ⟨u, hbefore.sameGen, (hother n 0 1 _ (by decide)).trans hafter.sameGen⟩
  · exact ⟨f n 0 u, hbefore.sameGen.trans (hother n 1 0 u (by decide)), hafter.sameGen⟩

end Sys2Proof.Machine
end

section
/-! ### AWG_CLR# (R299) -/

namespace Sys2Proof.Machine

variable {s : State} {n : Cluster} {g : Fin 2} {t : Nat}

/-- The generator has entered CLEAR, its clear code not yet put out. -/
def clrTaken (n : Cluster) (g : Fin 2) (s : State) : State :=
  ((genEnded n g 3 (endedRec false) s).setRf .CL_AWG_STAT (awgIx n g) 8 4 6).setRb .CL_AWG_STAT (awgIx n g) 7 true

theorem clrAssertOne_eq : clrAssertOne n g s =
    putOut n g (clearCode s n g) ((clrTaken n g s).setRb .CL_AWG_EVT (awgIx n g) 8 true) := rfl

theorem clrAssertOne_awg :
    (clrAssertOne n g s).awg n g = { endedRec false (s.awg n g) with out := clearCode s n g } := by
  rw [clrAssertOne_eq, putOut_awg, State.awg_setRb, clrTaken, State.awg_setRb, State.awg_setRf, genEnded_awg]

theorem clrAssertOne_stat :
    (clrAssertOne n g s).reg .CL_AWG_STAT (awgIx n g) = (clrTaken n g s).reg .CL_AWG_STAT (awgIx n g) := by
  rw [clrAssertOne_eq, putOut_reg (by decide), State.reg_setRb, if_neg (by simp)]

theorem clrTaken_shown : awgState (clrTaken n g s) n g = 3 ∧ clrPin (clrTaken n g s) n g = true ∧
    (clrTaken n g s).rf .CL_AWG_STAT (awgIx n g) 8 4 = 6 := by
  refine ⟨?_, State.rb_setRb_same _ _ _ _ _ (by decide), ?_⟩
  · rw [awgState, clrTaken, State.rf_setRb_apart _ _ _ _ _ _ _ _ (by decide) (by decide),
      State.rf_setRf_apart _ _ _ _ _ _ _ _ _ (by decide) (by decide), ← awgState, genEnded_state (by decide)]
  · rw [clrTaken, State.rf_setRb_apart _ _ _ _ _ _ _ _ (by decide) (by decide)]
    exact State.rf_setRf_same _ _ _ _ _ _ (by decide)

theorem clrAssertOne_evt : (clrAssertOne n g s).rb .CL_AWG_EVT (awgIx n g) 8 = true := by
  rw [clrAssertOne_eq, putOut_evt (by decide), State.rb_setRb_same _ _ _ _ _ (by decide)]

theorem clrAssertOne_other {g' : Fin 2} (hne : g' ≠ g) : SameGen n g s (clrAssertOne n g' s) := by
  rw [clrAssertOne_eq]
  exact ((((SameGen.refl.genEnded hne).setReg hne _ _).setReg hne _ _).setReg hne _ _).putOut hne

theorem awgClrAssert_holds : ∃ s', exec (.awgClrAssert t) s = .next s' ∧ awgState s' n g = 3 ∧ clrPin s' n g = true ∧
    s'.rf .CL_AWG_STAT (awgIx n g) 8 4 = 6 ∧ s'.rb .CL_AWG_EVT (awgIx n g) 8 = true ∧
    (s'.awg n g).out = clearCode s n g ∧ (s'.awg n g).next = none ∧ (s'.awg n g).jump = none ∧
    Frame [.clasp, .awgs] genRegs atAll s s' := by
  have hupd := execAwgClrAssert_upd (t := t) (K := partSet [.clasp, .awgs]) (R := regSet genRegs) (C := atAll)
    (Upd.refl (s := s)) (by decide) (by decide) fun _ _ => trivial
  obtain ⟨u, hbefore, hafter⟩ := forAwgs_turn (K := partSet [.awgs]) (R := regSet genRegs) (f := clrAssertOne)
    (fun _ _ _ => clrAssertOne_upd Upd.refl (by decide) (by decide) fun _ => rfl)
    (fun _ _ _ _ hne => clrAssertOne_other hne) (s.at t) n g
  have hstat := (hafter.regs .CL_AWG_STAT rfl rfl).trans clrAssertOne_stat
  have hawg := hafter.awg.trans clrAssertOne_awg
  obtain ⟨hstate, hpin, herr⟩ := clrTaken_shown (s := u) (n := n) (g := g)
  refine ⟨_, rfl, (awgState_congr hstat).trans hstate, (clrPin_congr hstat).trans hpin, ?_, ?_, ?_, ?_, ?_,
    hupd.listed (Nat.or_self _) (Nat.or_self _)⟩
  · rw [State.rf, hstat, ← State.rf, herr]
  · rw [State.rb, hafter.regs .CL_AWG_EVT rfl rfl, ← State.rb, clrAssertOne_evt]
  · rw [hawg]; exact clearCode_congr ((hbefore.regs .CL_AWG_CLR rfl rfl).trans (State.reg_at ..))
  · rw [hawg]; rfl
  · rw [hawg]; rfl

/-! The release. -/

theorem clrReleaseOne_asserted (h : clrPin s n g = true) :
    clrReleaseOne n g s = setAwgState n g 0 (s.setRb .CL_AWG_STAT (awgIx n g) 7 false) := if_pos h

theorem clrReleaseOne_other {g' : Fin 2} (hne : g' ≠ g) : SameGen n g s (clrReleaseOne n g' s) := by
  unfold clrReleaseOne
  split
  · exact (SameGen.refl.setReg hne _ _).setReg hne _ _
  · exact SameGen.refl

theorem awgClrRelease_holds (hpin : clrPin s n g = true) :
    ∃ s', exec (.awgClrRelease t) s = .next s' ∧ awgState s' n g = 0 ∧ clrPin s' n g = false ∧
      Frame [.clasp] [.CL_AWG_STAT] atAll s s' := by
  have hupd := execAwgClrRelease_upd (t := t) (K := partSet [.clasp]) (R := regSet [.CL_AWG_STAT]) (C := atAll)
    (Upd.refl (s := s)) (by decide) (by decide) fun _ _ => trivial
  obtain ⟨u, hbefore, hafter⟩ := forAwgs_turn (K := 0) (R := regSet [.CL_AWG_STAT]) (f := clrReleaseOne)
    (fun _ _ _ => clrReleaseOne_upd Upd.refl (by decide) ⟨0, rfl⟩) (fun _ _ _ _ hne => clrReleaseOne_other hne) (s.at t) n g
  have hpin' : clrPin u n g = true :=
    (clrPin_congr ((hbefore.regs .CL_AWG_STAT rfl rfl).trans (State.reg_at ..))).trans hpin
  rw [clrReleaseOne_asserted hpin'] at hafter
  have hstat := hafter.regs .CL_AWG_STAT rfl rfl
  refine ⟨_, rfl, (awgState_congr hstat).trans (setAwgState_state (by decide)), (clrPin_congr hstat).trans ?_,
    hupd.listed (Nat.or_self _) (Nat.or_self _)⟩
  exact (State.rb_setRf_apart _ _ _ _ _ _ _ _ (by decide) (by decide)).trans (State.rb_setRb_same _ _ _ _ _ (by decide))

end Sys2Proof.Machine
end

section
/-! ### The AUX pin's current limit (R283) -/

namespace Sys2Proof.Machine

variable {s : State} {n : Cluster} {g : Fin 2} {q : Req} {d : Word} {t x : Nat}

theorem auxDriven_congr {a b : State} (hroute : b.reg .CL_AWG_ROUTE (awgIx n g) = a.reg .CL_AWG_ROUTE (awgIx n g))
    (hstat : b.reg .CL_AWG_STAT (awgIx n g) = a.reg .CL_AWG_STAT (awgIx n g)) : auxDriven b n g = auxDriven a n g := by
  unfold auxDriven awgDest State.rf State.rb; rw [hroute, hstat]

theorem auxCurrentLimit_holds (hdriven : auxDriven s n g = true) (hacts : s.rb .CL_AWG_STAT (awgIx n g) 5 = false) :
    ∃ s', exec (.auxCurrentLimit t n g) s = .next s' ∧
      s'.reg .CL_AWG_STAT (awgIx n g) = putBit (s.reg .CL_AWG_STAT (awgIx n g)) 5 true ∧
      s'.reg .CL_AWG_EVT (awgIx n g) = putBit (s.reg .CL_AWG_EVT (awgIx n g)) 6 true ∧
      s'.awg n g = { s.awg n g with scSince := some (s.at t).clasp } ∧
      Frame [.clasp, .awgs] [.CL_AWG_STAT, .CL_AWG_EVT] (atCluster n) s s' := by
  have hexec : exec (.auxCurrentLimit t n g) s = .next (modAwg n g (fun a => { a with scSince := some (s.at t).clasp })
      (((s.at t).setRb .CL_AWG_STAT (awgIx n g) 5 true).setRb .CL_AWG_EVT (awgIx n g) 6 true)) := by
    refine congrArg Host.Outcome.next (if_pos ⟨(auxDriven_congr (State.reg_at ..) (State.reg_at ..)).trans hdriven, ?_⟩)
    rw [State.rb_at, hacts]; rfl
  have hupd : Upd (partSet [.clasp, .awgs]) (regSet [.CL_AWG_STAT, .CL_AWG_EVT]) (atCluster n) s _ :=
    (execAuxCurrentLimit_upd Upd.refl (by decide) (by decide) ⟨0, rfl⟩).at_next hexec
  refine ⟨_, hexec, ?_, ?_, ?_, hupd.listed (Nat.or_self _) (Nat.or_self _)⟩
  · rw [modAwg_reg, State.reg_setRb, if_neg (by simp), State.reg_setRb, if_pos ⟨rfl, rfl⟩, State.reg_at]
  · rw [modAwg_reg, State.reg_setRb, if_pos ⟨rfl, rfl⟩, State.reg_setRb, if_neg (by simp), State.reg_at]
  · rw [modAwg_awg, State.awg_setRb, State.awg_setRb, State.awg_at]

/-- The pin is off. -/
def auxOff (n : Cluster) (g : Fin 2) (s : State) : State :=
  (modAwg n g (fun a => { a with scSince := none }) (s.setRf .CL_AWG_STAT (awgIx n g) 5 2 2)).setRb .CL_AWG_EVT (awgIx n g) 7 true

theorem auxOff_reg {r : Reg} {i : Nat} (h : r ∉ [.CL_AWG_STAT, .CL_AWG_EVT]) : (auxOff n g s).reg r i = s.reg r i := by
  simp only [List.mem_cons, List.not_mem_nil, or_false, not_or] at h
  rw [auxOff, State.reg_setRb, if_neg fun e => h.2 e.1, modAwg_reg, State.reg_setRf, if_neg fun e => h.1 e.1]
theorem auxOff_stat : (auxOff n g s).reg .CL_AWG_STAT (awgIx n g) = putFld (s.reg .CL_AWG_STAT (awgIx n g)) 5 2 2 := by
  rw [auxOff, State.reg_setRb, if_neg (by simp), modAwg_reg, State.reg_setRf, if_pos ⟨rfl, rfl⟩]
theorem auxOff_undriven : auxDriven (auxOff n g s) n g = false := by
  have hbit : (auxOff n g s).rb .CL_AWG_STAT (awgIx n g) 6 = true := by
    rw [State.rb, auxOff_stat, bitOf_putFld _ _ _ _ _ (by decide)]; rfl
  rw [auxDriven, hbit, Bool.not_true, Bool.and_false]

theorem execAuxScTimeout_due (hsince : (s.awg n g).scSince = some x) (hdriven : auxDriven s n g = true)
    (hdue : x + 800000 ≤ (s.at t).clasp) : exec (.auxScTimeout t n g) s =
      .next ((auxOff n g (s.at t)).send (srcOf n (40 + g.val)) 4 0 (2 * n.val + g.val)) := by
  show execAuxScTimeout t n g s = _
  unfold execAuxScTimeout
  dsimp only
  rw [State.awg_at, hsince]
  dsimp only
  rw [if_pos ⟨(auxDriven_congr (State.reg_at ..) (State.reg_at ..)).trans hdriven, hdue⟩]
  rfl

theorem auxScTimeout_holds (hsince : (s.awg n g).scSince = some x) (hdriven : auxDriven s n g = true)
    (hdue : x + 800000 ≤ (s.at t).clasp) :
    ∃ s', exec (.auxScTimeout t n g) s = .next s' ∧ auxDriven s' n g = false ∧ s'.rf .CL_AWG_STAT (awgIx n g) 5 2 = 2 ∧
      s'.rb .CL_AWG_EVT (awgIx n g) 7 = true ∧ s'.awg n g = { s.awg n g with scSince := none } ∧
      s'.msgs = s.msgs ++ (if cluRetired s n then [] else [⟨44 * n.val + 40 + g.val, 4, 0, 2 * n.val + g.val⟩]) ∧
      Frame [.clasp, .awgs, .msgs] [.CL_AWG_STAT, .CL_AWG_EVT] (atCluster n) s s' := by
  have hexec := execAuxScTimeout_due (t := t) hsince hdriven hdue
  have hupd : Upd (partSet [.clasp, .awgs, .msgs]) (regSet [.CL_AWG_STAT, .CL_AWG_EVT]) (atCluster n) s _ :=
    (execAuxScTimeout_upd Upd.refl (by decide) (by decide) ⟨0, rfl⟩).at_next hexec
  refine ⟨_, hexec, ?_, ?_, ?_, ?_, ?_, hupd.listed (Nat.or_self _) (Nat.or_self _)⟩
  · rw [auxDriven_congr (State.reg_send ..) (State.reg_send ..), auxOff_undriven]
  · rw [State.rf, State.reg_send, auxOff_stat]
    exact fld_putFld_same _ _ _ _ (by decide)
  · rw [State.rb_send, auxOff, State.rb_setRb_same _ _ _ _ _ (by decide)]
  · rw [State.awg_send, auxOff, State.awg_setRb, modAwg_awg, State.awg_setRf, State.awg_at]
  · rw [msgs_send_srcOf (by omega), cluRetired_congr ((auxOff_reg (by decide)).trans (State.reg_at ..)), srcOf, Nat.add_assoc]
    exact congrArg (· ++ _) (State.msgs_at ..)

theorem auxRecon_holds (hacc : Accepted q .CL_AWG_CTRL (awgIx n g) (d ||| 32#32) (s.at t)) (h01 : fld d 0 2 = 0) :
    ∃ s', exec (.auxRecon t q n g d) s = .next s' ∧
      s'.reg .CL_AWG_STAT (awgIx n g) = putBit (s.reg .CL_AWG_STAT (awgIx n g)) 6 false ∧
      Frame [.clasp] [.CL_AWG_CTRL, .CL_AWG_STAT, .PWR_CLU_GATE] (atCluster n) s s' := by
  have hlow : ∀ b < 2, bitOf (d ||| 32#32) b = false := fun b hb => by
    have hd : bitOf d b = false := by
      have hbit := congrArg (Nat.testBit · b) h01
      simpa [fld_testBit, hb, bitOf] using hbit
    rw [bitOf_or, hd]
    obtain rfl | rfl : b = 0 ∨ b = 1 := by omega
    all_goals simp [bitOf]
  have h5 : bitOf (d ||| 32#32) 5 = true := by rw [bitOf_or]; simp [bitOf]
  have hexec : exec (.auxRecon t q n g d) s = .next (ungate n.val (awgCtrlStored n g (d ||| 32#32) (s.at t))) :=
    congrArg Host.Outcome.next ((cmdWrite_gen (by decide) hacc).trans
      (congrArg (ungate n.val) (genCtrl_recon (hlow 0 (by decide)) (hlow 1 (by decide)))))
  have hupd : Upd 0 (regSet [.CL_AWG_CTRL, .CL_AWG_STAT]) (atCluster n) (s.at t) (awgCtrlStored n g (d ||| 32#32) (s.at t)) :=
    awgCtrlStored_upd Upd.refl (by decide) (by decide) ⟨0, rfl⟩
  refine ⟨_, hexec, ?_, (cmdWrite_frame hupd).listed (by decide) (by decide)⟩
  rw [ungate_reg (by decide), awgCtrlStored_stat, if_pos h5, State.reg_at]

end Sys2Proof.Machine
end

section
/-! ### Generators start, stop and clear (R283, R291, R292, R299) -/

namespace Sys2Proof.Machine

/-- Settles O39: a START is `awgStart_armed` or `awgStart_failed` at what the written word says; every generator takes its own
turn at AWG_CLR#. -/
theorem generatorsStartStopAndClear : Obligations.GeneratorsStartStopAndClear := by
  unfold Obligations.GeneratorsStartStopAndClear
  exact ⟨fun _ _ _ _ _ _ hacc hidle hgov hintr hasy hstep htime hentry =>
      awgStart_armed hacc hidle hgov hintr hasy hstep rfl htime hentry,
    fun _ _ _ _ _ _ hacc hidle hintr hasy hstep herr => awgStart_failed hacc hidle hintr hasy hstep rfl herr,
    fun _ _ _ _ harmed hdue => awgRunStart_holds harmed hdue,
    fun _ _ _ _ _ _ hacc h0 hstate => awgStop_holds hacc h0 hstate,
    fun _ _ _ _ => awgClrAssert_holds,
    fun _ _ _ _ hpin => awgClrRelease_holds hpin,
    fun _ _ _ _ hdriven hacts => auxCurrentLimit_holds hdriven hacts,
    fun _ _ _ _ _ hsince hdriven hdue => auxScTimeout_holds hsince hdriven hdue,
    fun _ _ _ _ _ _ hacc h01 => auxRecon_holds hacc h01⟩

end Sys2Proof.Machine
end

section
/-! ### A granule is fetched (R290) -/

namespace Sys2Proof.Machine

variable {s : State} {n : Cluster} {g : Fin 2} {t : Nat}

theorem State.bytes_at (a len : Nat) : (s.at t).bytes a len = s.bytes a len := by
  induction len generalizing a with
  | zero => rfl
  | succ len ih => rw [State.bytes, State.bytes, State.byte_at, ih]

/-- The stream of generator g (R340). -/
def genStream (g : Fin 2) : Fin 6 := if g = 0 then 2 else 3

/-- The record once the granule has come. -/
def fetchedRec (s : State) (a : Awg) : Awg :=
  { a with fifo := a.fifo ++ samplesOf (s.bytes a.fetchAt 64), fetchAt := a.fetchAt + 64, fetchLeft := a.fetchLeft - 1 }

section
variable (hstate : awgState s n g = 1 ∨ awgState s n g = 2) (hdds : awgDds s n g = false)
  (hrefused : (fetchTurn (s.awg n g)).refused = false) (hfifo : (fetchTurn (s.awg n g)).fifo.length ≤ 32)
  (hleft : 0 < (fetchTurn (s.awg n g)).fetchLeft)
  (hserved : streamServed s n (genStream g) false (fetchTurn (s.awg n g)).fetchAt 64 = true)
include hstate hdds hrefused hfifo hleft hserved

theorem execAwgFetch_served : exec (.awgFetch t n g) s = .next
    (if memAdmits s (.cluster n (genStream g)) false (fetchTurn (s.awg n g)).fetchAt 64 then
      (s.at t).setAwg n g (fetchedRec s (fetchTurn (s.awg n g)))
    else (noteRefusals (.cluster n (genStream g)) false false (fetchTurn (s.awg n g)).fetchAt 64 (s.at t)).setAwg n g
      { fetchTurn (s.awg n g) with refused := true }) := by
  have hstate' : awgState (s.at t) n g = 1 ∨ awgState (s.at t) n g = 2 := by
    rwa [awgState_congr (State.reg_at ..)]
  have hdds' : awgDds (s.at t) n g = false := (awgDds_congr (State.reg_at ..)).trans hdds
  have hserved' : streamServed (s.at t) n (genStream g) false (fetchTurn (s.awg n g)).fetchAt 64 = true := by
    rw [← hserved, State.at_eq]; rfl
  have hadmits : memAdmits (s.at t) (.cluster n (genStream g)) false (fetchTurn (s.awg n g)).fetchAt 64 =
      memAdmits s (.cluster n (genStream g)) false (fetchTurn (s.awg n g)).fetchAt 64 := by rw [State.at_eq]; rfl
  show execAwgFetch t n g s = _
  unfold execAwgFetch
  dsimp only
  rw [State.awg_at, ← genStream, hadmits, State.bytes_at,
    if_pos ⟨hstate', by rw [hdds']; rfl, by rw [hrefused]; rfl, hfifo, hleft, hserved'⟩]
  rfl

theorem awgFetch_holds : ∃ s', exec (.awgFetch t n g) s = .next s' ∧
    (if memAdmits s (.cluster n (genStream g)) false (fetchTurn (s.awg n g)).fetchAt 64 then
      s'.awg n g = fetchedRec s (fetchTurn (s.awg n g)) ∧ Frame [.clasp, .awgs] [] (atCluster n) s s'
    else s'.awg n g = { fetchTurn (s.awg n g) with refused := true } ∧
      Frame [.clasp, .awgs, .msgs] [.MP_EVT, .MP_REFUSE_CNT, .MP_REFUSE_ADDR, .MP_REFUSE_INFO] (atCluster n) s s') := by
  have hexec := execAwgFetch_served (t := t) hstate hdds hrefused hfifo hleft hserved
  by_cases hadmits : memAdmits s (.cluster n (genStream g)) false (fetchTurn (s.awg n g)).fetchAt 64 = true
  · rw [if_pos hadmits] at hexec
    have hupd : Upd (partSet [.clasp, .awgs]) (regSet []) (atCluster n) s
        ((s.at t).setAwg n g (fetchedRec s (fetchTurn (s.awg n g)))) :=
      State.setAwg_upd (State.at_upd Upd.refl (by decide)) (by decide) ⟨0, rfl⟩
    refine ⟨_, hexec, ?_⟩
    rw [if_pos hadmits]
    exact ⟨State.awg_setAwg_same .., hupd.listed (Nat.or_self _) (Nat.or_self _)⟩
  · have hupd : Upd (partSet [.clasp, .awgs, .msgs]) (regSet [.MP_EVT, .MP_REFUSE_CNT, .MP_REFUSE_ADDR, .MP_REFUSE_INFO])
        (atCluster n) s _ :=
      (execAwgFetch_upd Upd.refl (by decide) (by decide) ⟨0, rfl⟩).at_next hexec
    rw [if_neg hadmits] at hexec hupd
    refine ⟨_, hexec, ?_⟩
    rw [if_neg hadmits]
    exact ⟨State.awg_setAwg_same .., hupd.listed (Nat.or_self _) (Nat.or_self _)⟩

end

end Sys2Proof.Machine
end

section
/-! ### The commit point (R288, R289) -/

namespace Sys2Proof.Machine

variable {s : State} {n : Cluster} {g : Fin 2} {t b : Nat} {j : AwgJump}

theorem NoJumpBefore.at_time (h : NoJumpBefore n g b s) : NoJumpBefore n g b (s.at t) := by
  unfold NoJumpBefore; rwa [State.awg_at]

/-- The state of a command that finds no request due: the moment, and the generator's record as it stands. -/
def genKept (n : Cluster) (g : Fin 2) (t : Nat) (s : State) : State := (s.at t).setAwg n g (s.awg n g)

@[simp] theorem genKept_awg : (genKept n g t s).awg n g = s.awg n g := State.awg_setAwg_same ..
@[simp] theorem genKept_reg (r : Reg) (i : Nat) : (genKept n g t s).reg r i = s.reg r i := State.reg_at ..
@[simp] theorem genKept_entry (i : Nat) : awgEntry (genKept n g t s) n g i = awgEntry s n g i := by
  unfold genKept awgEntry; rw [State.awgTab_setAwg, State.awgTab_at]

theorem genKept_upd : Upd (partSet [.clasp, .awgs]) 0 (atCluster n) s (genKept n g t s) :=
  State.setAwg_upd (State.at_upd Upd.refl (by decide)) (by decide) ⟨0, rfl⟩

theorem jumpsBefore_kept (h : NoJumpBefore n g b s) : jumpsBefore n g b (s.at t) = genKept n g t s := by
  rw [jumpsBefore_none h.at_time, State.awg_at, genKept]

/-- The pass that follows where no jump is pending: a repeat, else END, else NEXT. -/
def passAfter (s : State) (n : Cluster) (g : Fin 2) (a : Awg) : AwgNext :=
  let x := awgEntry s n g (entNext a.hi)
  if 0 < a.left then .pass a.entry a.lo a.hi (a.left - 1) none else if entEnd a.hi then .stop false
  else if entOk x.1 x.2 then .pass (entNext a.hi) x.1 x.2 (entRep x.1) none else .stop true

/-- The pass that a request leads to. -/
def jumpPass (s : State) (n : Cluster) (g : Fin 2) (j : AwgJump) : AwgNext :=
  .pass j.target (awgEntry s n g j.target).1 (awgEntry s n g j.target).2 (entRep (awgEntry s n g j.target).1) (some j.late)

theorem awgDecide_jump (hjump : (s.awg n g).jump = some j)
    (hok : entOk (awgEntry s n g j.target).1 (awgEntry s n g j.target).2 = true) :
    awgDecide n g s = noteJump n g (modAwg n g (fun a => { a with next := some (jumpPass s n g j), jump := none }) s) := by
  unfold awgDecide
  dsimp only
  rw [hjump]
  exact if_pos hok

theorem awgDecide_bad (hjump : (s.awg n g).jump = some j)
    (hbad : ¬ entOk (awgEntry s n g j.target).1 (awgEntry s n g j.target).2 = true) :
    awgDecide n g s = modAwg n g (fun a => { a with next := some (.stop true) }) s := by
  unfold awgDecide
  dsimp only
  rw [hjump]
  exact if_neg hbad

theorem awgDecide_after (hjump : (s.awg n g).jump = none) :
    awgDecide n g s = modAwg n g (fun a => { a with next := some (passAfter s n g (s.awg n g)) }) s := by
  unfold awgDecide passAfter
  dsimp only
  rw [hjump]
  dsimp only
  split
  · rfl
  · split
    · rfl
    · split <;> rfl

section
variable (hplays : PlaysSegments n g s) (hnext : (s.awg n g).next = none)
  (hdue : passCommit (s.awg n g) ≤ (s.at t).clasp)
include hplays hnext hdue

theorem execAwgCommitPoint_due : exec (.awgCommitPoint t n g) s =
    .next (awgDecide n g (jumpsBefore n g (passCommit (s.awg n g)) (s.at t))) := by
  show execAwgCommitPoint t n g s = _
  unfold execAwgCommitPoint
  dsimp only
  rw [State.awg_at, awgState_congr (State.reg_at s t ..), awgDds_congr (State.reg_at s t ..), ← passCommit,
    if_pos ⟨hplays.1, by rw [hplays.2]; rfl, hnext, hdue⟩]

theorem awgCommitPoint_holds (hjumps : NoJumpBefore n g (passCommit (s.awg n g)) s) :
    ∃ s', exec (.awgCommitPoint t n g) s = .next s' ∧
      (∀ j, (s.awg n g).jump = some j →
        (if entOk (awgEntry s n g j.target).1 (awgEntry s n g j.target).2 then
          (s'.awg n g).next = some (jumpPass s n g j) ∧ (s'.awg n g).jump = none ∧
            s'.rb .CL_AWG_STAT (awgIx n g) 3 = false
         else (s'.awg n g).next = some (.stop true))) ∧
      ((s.awg n g).jump = none → s'.awg n g = { s.awg n g with next := some (passAfter s n g (s.awg n g)) }) ∧
      Frame [.clasp, .awgs] [.CL_AWG_STAT] (atCluster n) s s' := by
  have hexec := execAwgCommitPoint_due hplays hnext hdue
  rw [jumpsBefore_kept hjumps] at hexec
  have hupd : Upd (partSet [.clasp, .awgs]) (regSet [.CL_AWG_STAT]) (atCluster n) s (awgDecide n g (genKept n g t s)) :=
    awgDecide_upd (genKept_upd.mono (Nat.or_self _) (Nat.zero_or _)) (by decide) (by decide) ⟨0, rfl⟩
  refine ⟨_, hexec, fun j hjump => ?_, fun hjump => ?_, hupd.listed (Nat.or_self _) (Nat.or_self _)⟩
  · have hjump' : ((genKept n g t s).awg n g).jump = some j := by rwa [genKept_awg]
    have hentry := genKept_entry (s := s) (n := n) (g := g) (t := t) j.target
    split
    · rename_i hok
      rw [awgDecide_jump hjump' (by rwa [hentry]), noteJump_pending, noteJump_awg, modAwg_awg, jumpPass, hentry]
      exact ⟨rfl, rfl, rfl⟩
    · rename_i hbad
      rw [awgDecide_bad hjump' (by rwa [hentry]), modAwg_awg]
  · rw [awgDecide_after (by rwa [genKept_awg]), modAwg_awg, genKept_awg, passAfter, genKept_entry]
    rfl

end

/-- The state of a command that finds the one request due before the commit point: it is pending. -/
def genAsked (n : Cluster) (g : Fin 2) (t : Nat) (j : AwgJump) (s : State) : State :=
  jumpPending n g { j with late := false } (modAwg n g (fun a => { a with coming := [] }) (s.at t))

theorem genAsked_awg :
    (genAsked n g t j s).awg n g = { s.awg n g with coming := [], jump := some { j with late := false } } := by
  rw [genAsked, jumpPending_awg, modAwg_awg, State.awg_at]
theorem genAsked_entry (i : Nat) : awgEntry (genAsked n g t j s) n g i = awgEntry s n g i := by
  rw [genAsked, jumpPending_entry]; unfold awgEntry; rw [modAwg, State.awgTab_setAwg, State.awgTab_at]
theorem genAsked_upd : Upd (partSet [.clasp, .awgs]) (regSet [.CL_AWG_STAT]) (atCluster n) s (genAsked n g t j s) :=
  jumpPending_upd (modAwg_upd (State.at_upd Upd.refl (by decide)) (by decide) ⟨0, rfl⟩) (by decide) (by decide) ⟨0, rfl⟩

section
variable (hplays : PlaysSegments n g s) (hcoming : (s.awg n g).coming = [j]) (hjump : (s.awg n g).jump = none)
  (harrives : j.at_ / 20 * 20 < passCommit (s.awg n g))
include hplays hcoming hjump harrives

theorem jumpsBefore_asked : jumpsBefore n g (passCommit (s.awg n g)) (s.at t) = genAsked n g t j s := by
  rw [jumpsBefore_one (by rwa [State.awg_at]) harrives, genAsked]
  generalize hu : modAwg n g (fun a => { a with coming := [] }) (s.at t) = u
  have hawg : u.awg n g = { s.awg n g with coming := [] } := by rw [← hu, modAwg_awg, State.awg_at]
  have hreg : ∀ r i, u.reg r i = s.reg r i := fun r i => by rw [← hu, modAwg_reg, State.reg_at]
  have hlate : jumpLate u n g j = false := by
    have hearly : ¬ passCommit (u.awg n g) ≤ j.at_ / 20 * 20 := by rw [hawg]; exact Nat.not_le.2 harrives
    rw [jumpLate, decide_eq_false hearly, Bool.and_false]
  have hlost : pendingLost n g u = u := if_neg (by rw [hawg]; dsimp only; rw [hjump]; decide)
  rw [jumpArrive_pends ((awgDds_congr (hreg ..)).trans hplays.2) (.inr ((awgState_congr (hreg ..)).trans hplays.1)), hlate,
    hlost]

/-- A request that arrives before the commit point is the jump decided there. -/
theorem awgCommitPoint_arrives (hnext : (s.awg n g).next = none) (hdue : passCommit (s.awg n g) ≤ (s.at t).clasp)
    (hok : entOk (awgEntry s n g j.target).1 (awgEntry s n g j.target).2 = true) :
    ∃ s', exec (.awgCommitPoint t n g) s = .next s' ∧
      (s'.awg n g).next = some (jumpPass s n g { j with late := false }) ∧ (s'.awg n g).coming = [] ∧
      (s'.awg n g).jump = none ∧ Frame [.clasp, .awgs] [.CL_AWG_STAT] (atCluster n) s s' := by
  have hpending : ((genAsked n g t j s).awg n g).jump = some { j with late := false } := by rw [genAsked_awg]
  have hdecides := awgDecide_jump hpending (by rw [genAsked_entry]; exact hok)
  have hexec := execAwgCommitPoint_due hplays hnext hdue
  rw [jumpsBefore_asked hplays hcoming hjump harrives] at hexec
  have hupd : Upd (partSet [.clasp, .awgs]) (regSet [.CL_AWG_STAT]) (atCluster n) s (awgDecide n g (genAsked n g t j s)) :=
    awgDecide_upd genAsked_upd (by decide) (by decide) ⟨0, rfl⟩
  refine ⟨_, hexec, ?_, ?_, ?_, hupd.listed (Nat.or_self _) (Nat.or_self _)⟩
  all_goals rw [hdecides, noteJump_awg, modAwg_awg]
  · unfold jumpPass; rw [genAsked_entry]
  · rw [genAsked_awg]

end

end Sys2Proof.Machine
end

section
/-! ### The end of a pass (R288, R292, R294) -/

namespace Sys2Proof.Machine

variable {s : State} {n : Cluster} {g : Fin 2} {t b e left : Nat} {lo hi : Word}

/-- The record at the begin of a pass. -/
def turnedRec (b e : Nat) (lo hi : Word) (left : Nat) (a : Awg) : Awg :=
  { a with fifo := a.fifo.drop (32 * entLen a.hi - a.pos), pos := 0, start := b, entry := e, lo, hi, left, next := none }

/-- The pass of entry e has begun; a jump that leads to it is not counted yet. -/
def passTurned (n : Cluster) (g : Fin 2) (b e : Nat) (lo hi : Word) (left : Nat) (s : State) : State :=
  (modAwg n g (turnedRec b e lo hi left) s).setRf .CL_AWG_STAT (awgIx n g) 16 10 e

/-- A jump takes effect at tick b: its count, its time and its flags (R294). -/
def jumpCounted (n : Cluster) (g : Fin 2) (b : Nat) (late : Bool) (s : State) : State :=
  let s1 := (((s.count .CL_AWG_JCNT (awgIx n g) 32).setPair .CL_AWG_TJUMP_LO .CL_AWG_TJUMP_HI (awgIx n g) b).setRb
    .CL_AWG_EVT (awgIx n g) 1 true).setRb .CL_AWG_STAT (awgIx n g) 4 late
  if late then s1.setRb .CL_AWG_EVT (awgIx n g) 2 true else s1

theorem awgTurn_jumps (late : Bool) :
    awgTurn n g b e lo hi left (some late) s = jumpCounted n g b late (passTurned n g b e lo hi left s) := rfl

theorem passTurned_awg : (passTurned n g b e lo hi left s).awg n g = turnedRec b e lo hi left (s.awg n g) := by
  rw [passTurned, State.awg_setRf, modAwg_awg]
theorem passTurned_reg {r : Reg} {i : Nat} (h : r ≠ .CL_AWG_STAT) :
    (passTurned n g b e lo hi left s).reg r i = s.reg r i := by
  rw [passTurned, State.reg_setRf, if_neg fun x => h x.1, modAwg_reg]
theorem passTurned_entry : (passTurned n g b e lo hi left s).rf .CL_AWG_STAT (awgIx n g) 16 10 = e % 1024 :=
  State.rf_setRf_same _ _ _ _ _ _ (by decide)

section
variable {late : Bool}

theorem jumpCounted_awg : (jumpCounted n g b late s).awg n g = s.awg n g := by cases late <;> rfl

/-- LATE shows whether the request came too late; of CL_AWG_STAT nothing else changes. -/
theorem jumpCounted_stat : (jumpCounted n g b late s).reg .CL_AWG_STAT (awgIx n g) =
    putBit (s.reg .CL_AWG_STAT (awgIx n g)) 4 late := by
  cases late <;> simp [jumpCounted, State.setPair, State.reg_setRb, State.reg_setReg, State.reg_count]

theorem jumpCounted_count : (jumpCounted n g b late s).rf .CL_AWG_JCNT (awgIx n g) 0 32 =
    satInc 4294967295 (s.rf .CL_AWG_JCNT (awgIx n g) 0 32) := by
  have hword : (jumpCounted n g b late s).reg .CL_AWG_JCNT (awgIx n g) =
      (s.count .CL_AWG_JCNT (awgIx n g) 32).reg .CL_AWG_JCNT (awgIx n g) := by
    cases late <;> simp [jumpCounted, State.setPair, State.reg_setRb, State.reg_setReg]
  rw [State.rf, hword]
  exact State.rf_count_same (by decide)

theorem jumpCounted_time (h : b < 2 ^ 64) :
    (jumpCounted n g b late s).pair .CL_AWG_TJUMP_LO .CL_AWG_TJUMP_HI (awgIx n g) = b := by
  refine Eq.trans ?_ ((ofWords_lo_hi b).trans (Nat.mod_eq_of_lt h))
  cases late <;> simp [State.pair, jumpCounted, State.setPair, State.reg_setRb, State.reg_setReg]

theorem jumpCounted_evt : (jumpCounted n g b late s).rb .CL_AWG_EVT (awgIx n g) 1 = true ∧
    (jumpCounted n g b late s).rb .CL_AWG_EVT (awgIx n g) 2 = (s.rb .CL_AWG_EVT (awgIx n g) 2 || late) := by
  cases late <;> simp [State.rb, jumpCounted, State.setPair, State.reg_setRb, State.reg_setReg, State.reg_count]

end

/-! Either way the pass has begun. -/

section
variable {jump : Option Bool} {late : Bool}

theorem awgTurn_awg : (awgTurn n g b e lo hi left jump s).awg n g = turnedRec b e lo hi left (s.awg n g) := by
  cases jump with
  | none => exact passTurned_awg
  | some late => exact jumpCounted_awg.trans passTurned_awg

theorem awgTurn_entry : (awgTurn n g b e lo hi left jump s).rf .CL_AWG_STAT (awgIx n g) 16 10 = e % 1024 := by
  cases jump with
  | none => exact passTurned_entry
  | some late =>
    rw [awgTurn_jumps, State.rf, jumpCounted_stat, fld_putBit_ne _ _ _ _ _ (by decide) (by decide)]
    exact passTurned_entry

theorem awgTurn_begun : PassBegun n g b e lo hi left (awgTurn n g b e lo hi left jump s) := by
  unfold PassBegun
  rw [awgTurn_awg]
  exact ⟨rfl, rfl, rfl, rfl, rfl, rfl, rfl, awgTurn_entry⟩

theorem awgTurn_counts (hlt : b < 2 ^ 64) : let s' := awgTurn n g b e lo hi left (some late) s
    s'.rf .CL_AWG_JCNT (awgIx n g) 0 32 = satInc 4294967295 (s.rf .CL_AWG_JCNT (awgIx n g) 0 32) ∧
      s'.pair .CL_AWG_TJUMP_LO .CL_AWG_TJUMP_HI (awgIx n g) = b ∧ s'.rb .CL_AWG_EVT (awgIx n g) 1 = true ∧
      s'.rb .CL_AWG_STAT (awgIx n g) 4 = late ∧
      s'.rb .CL_AWG_EVT (awgIx n g) 2 = (s.rb .CL_AWG_EVT (awgIx n g) 2 || late) := by
  obtain ⟨htaken, hlate⟩ := jumpCounted_evt (s := passTurned n g b e lo hi left s) (n := n) (g := g) (b := b) (late := late)
  refine ⟨jumpCounted_count.trans ?_, jumpCounted_time hlt, htaken, ?_, hlate.trans ?_⟩
  · exact congrArg (fun w => satInc 4294967295 (fld w 0 32)) (passTurned_reg (r := .CL_AWG_JCNT) (by decide))
  · exact (congrArg (bitOf · 4) jumpCounted_stat).trans ((bitOf_putBit _ _ _ _ (by decide)).trans (if_pos rfl))
  · exact congrArg (fun w => bitOf w 2 || late) (passTurned_reg (r := .CL_AWG_EVT) (by decide))

end

/-! The command. -/

/-- What was decided takes place at tick b. -/
def nextBegun (n : Cluster) (g : Fin 2) (b : Nat) (x : AwgNext) (s : State) : State :=
  match x with
  | .stop bad => awgHalt n g (if bad then awgErr n g 2 s else s)
  | .pass e lo hi left jump => awgTurn n g b e lo hi left jump s

section
variable (hplays : PlaysSegments n g s) (hdue : passStop (s.awg n g) ≤ (s.at t).clasp)
  (hjumps : NoJumpBefore n g (passStop (s.awg n g)) s) (hstop : NoStopBy n g (passStop (s.awg n g)) s)
  (hfetched : (s.awg n g).refused = false ∨ 32 * entLen (s.awg n g).hi - (s.awg n g).pos ≤ (s.awg n g).fifo.length)
include hplays hdue hjumps hstop hfetched

theorem execAwgPassEnd_next {x : AwgNext} (hnext : (s.awg n g).next = some x) :
    exec (.awgPassEnd t n g) s = .next (nextBegun n g (passStop (s.awg n g)) x (genKept n g t s)) := by
  have hrefused : ¬ ((s.awg n g).refused = true ∧
      (s.awg n g).fifo.length < 32 * entLen (s.awg n g).hi - (s.awg n g).pos) := fun h => by
    rcases hfetched with hf | hf
    · rw [hf] at h; cases h.1
    · omega
  show execAwgPassEnd t n g s = _
  unfold execAwgPassEnd
  dsimp only
  rw [State.awg_at, awgState_congr (State.reg_at s t ..), awgDds_congr (State.reg_at s t ..), ← passStop,
    if_pos ⟨hplays.1, by rw [hplays.2]; rfl, hdue⟩, hnext, jumpsBefore_kept hjumps]
  dsimp only
  rw [if_neg hrefused]
  rcases hat : (s.awg n g).stopAt with _ | y
  · cases x <;> rfl
  · have hlater : ¬ y ≤ passStop (s.awg n g) := Nat.not_le.2 (hstop y (by rw [hat]; exact .head _))
    dsimp only
    rw [if_neg (mt of_decide_eq_true hlater)]
    cases x <;> rfl

theorem awgPassEnd_stops {bad : Bool} (hnext : (s.awg n g).next = some (.stop bad)) :
    ∃ s', exec (.awgPassEnd t n g) s = .next s' ∧ GenStopped n g s s' ∧
      (bad = true → s'.rf .CL_AWG_STAT (awgIx n g) 8 4 = 2 ∧ s'.rb .CL_AWG_EVT (awgIx n g) 4 = true) ∧
      Frame [.clasp, .awgs] genRegs (atCluster n) s s' := by
  have hexec := execAwgPassEnd_next hplays hdue hjumps hstop hfetched hnext
  have hkept : Upd (partSet [.clasp, .awgs]) (regSet genRegs) (atCluster n) s (genKept n g t s) :=
    genKept_upd.mono (Nat.or_self _) (Nat.zero_or _)
  cases bad with
  | false =>
    refine ⟨_, hexec, awgHalt_stopped (genKept_reg ..) (genKept_reg ..) (congrArg Awg.lastX genKept_awg), nofun, ?_⟩
    exact (awgHalt_upd hkept (by decide) (by decide) fun _ => rfl).listed (Nat.or_self _) (Nat.or_self _)
  | true =>
    refine ⟨_, hexec, awgHalt_stopped ?_ ?_ (congrArg Awg.lastX genKept_awg), fun _ => ⟨?_, ?_⟩, ?_⟩
    · exact (awgErr_reg (by decide)).trans (genKept_reg ..)
    · exact (awgErr_reg (by decide)).trans (genKept_reg ..)
    · exact awgHalt_err.trans (awgErr_code (by decide))
    · exact (awgHalt_evt (by decide) (by decide) (by decide)).trans awgErr_evt
    · exact (awgHalt_upd (awgErr_upd hkept (by decide) ⟨0, rfl⟩) (by decide) (by decide) fun _ => rfl).listed
        (Nat.or_self _) (Nat.or_self _)

theorem awgPassEnd_begins {jump : Option Bool} (hnext : (s.awg n g).next = some (.pass e lo hi left jump))
    (hlt : passStop (s.awg n g) < 2 ^ 64) :
    ∃ s', exec (.awgPassEnd t n g) s = .next s' ∧ PassBegun n g (passStop (s.awg n g)) e lo hi left s' ∧
      (s'.awg n g).fifo = (s.awg n g).fifo.drop (32 * entLen (s.awg n g).hi - (s.awg n g).pos) ∧
      (∀ late, jump = some late →
        s'.rf .CL_AWG_JCNT (awgIx n g) 0 32 = satInc 4294967295 (s.rf .CL_AWG_JCNT (awgIx n g) 0 32) ∧
        s'.pair .CL_AWG_TJUMP_LO .CL_AWG_TJUMP_HI (awgIx n g) = passStop (s.awg n g) ∧
        s'.rb .CL_AWG_EVT (awgIx n g) 1 = true ∧ s'.rb .CL_AWG_STAT (awgIx n g) 4 = late ∧
        s'.rb .CL_AWG_EVT (awgIx n g) 2 = (s.rb .CL_AWG_EVT (awgIx n g) 2 || late)) ∧
      (jump = none → s'.reg .CL_AWG_JCNT (awgIx n g) = s.reg .CL_AWG_JCNT (awgIx n g) ∧
        s'.reg .CL_AWG_EVT (awgIx n g) = s.reg .CL_AWG_EVT (awgIx n g)) ∧
      Frame [.clasp, .awgs] [.CL_AWG_STAT, .CL_AWG_JCNT, .CL_AWG_TJUMP_LO, .CL_AWG_TJUMP_HI, .CL_AWG_EVT] (atCluster n) s s' := by
  have hexec := execAwgPassEnd_next hplays hdue hjumps hstop hfetched hnext
  generalize passStop (s.awg n g) = b at hlt hexec ⊢
  have hupd : Upd (partSet [.clasp, .awgs])
      (regSet [.CL_AWG_STAT, .CL_AWG_JCNT, .CL_AWG_TJUMP_LO, .CL_AWG_TJUMP_HI, .CL_AWG_EVT]) (atCluster n) s
      (awgTurn n g b e lo hi left jump (genKept n g t s)) :=
    awgTurn_upd (genKept_upd.mono (Nat.or_self _) (Nat.zero_or _)) (by decide) (by decide) ⟨0, rfl⟩
  refine ⟨_, hexec, awgTurn_begun, ?_, ?_, ?_, hupd.listed (Nat.or_self _) (Nat.or_self _)⟩
  · exact (congrArg Awg.fifo awgTurn_awg).trans (by rw [genKept_awg]; rfl)
  · rintro late rfl
    have hcounts := awgTurn_counts (n := n) (g := g) (e := e) (lo := lo) (hi := hi) (left := left) (late := late)
      (s := genKept n g t s) hlt
    rwa [State.rf, genKept_reg, ← State.rf, State.rb, genKept_reg, ← State.rb] at hcounts
  · rintro rfl
    exact ⟨(passTurned_reg (by decide)).trans (genKept_reg ..), (passTurned_reg (by decide)).trans (genKept_reg ..)⟩

end

end Sys2Proof.Machine
end

section
/-! ### A jump request and an entry of the table are written (R287, R293) -/

namespace Sys2Proof.Machine

variable {s : State} {n : Cluster} {g : Fin 2} {q : Req} {d : Word} {t i k : Nat}

theorem mergeRw_full (old d : Word) : mergeRw old 0xFFFFFFFF#32 d 0xFFFFFFFF#32 = d := by
  have hnot : ~~~(0xFFFFFFFF#32) = 0#32 := by decide
  rw [mergeRw, and_full, and_full, and_full, hnot, BitVec.and_zero, BitVec.zero_or]

theorem rwOf_awgJump (i : Nat) : Reg.rwOf .CL_AWG_JUMP i = 0x3FF#32 := rfl

/-- GO puts a request for the written entry on its way. -/
theorem jumpWritten_goes (hgo : bitOf d 31 = true) : jumpWritten n g d s =
    jumpRequest n g (fld d 0 10) s.clasp false (plainWrite .CL_AWG_JUMP (awgIx n g) d 0xFFFFFFFF#32 s) := by
  have htarget : (plainWrite .CL_AWG_JUMP (awgIx n g) d 0xFFFFFFFF#32 s).rf .CL_AWG_JUMP (awgIx n g) 0 10 = fld d 0 10 := by
    rw [State.rf, plainWrite_same]
    exact fld_plainWord _ _ _ _ _ _ (by decide) (by rw [rwOf_awgJump]; decide) (by decide)
  unfold jumpWritten
  dsimp only
  rw [if_pos hgo, htarget]
  rfl

theorem awgJumpRequest_holds (hacc : Accepted q .CL_AWG_JUMP (awgIx n g) (d ||| 0x80000000#32) (s.at t)) :
    ∃ s', exec (.awgJumpRequest t q n g d) s = .next s' ∧
      s'.awg n g = { s.awg n g with coming := insertJump ⟨(s.at t).clasp + 40, fld d 0 10, false, false⟩ (s.awg n g).coming } ∧
      Frame [.clasp, .awgs] [.CL_AWG_JUMP, .PWR_CLU_GATE] (atCluster n) s s' := by
  have hgo : bitOf (d ||| 0x80000000#32) 31 = true := by rw [bitOf_or]; simp [bitOf]
  have hexec : exec (.awgJumpRequest t q n g d) s = .next (ungate n.val (jumpWritten n g (d ||| 0x80000000#32) (s.at t))) :=
    congrArg Host.Outcome.next (cmdWrite_gen (by decide) hacc)
  rw [jumpWritten_goes hgo, fld_or_apart _ _ _ _ (by decide)] at hexec
  have hupd : Upd (partSet [.awgs]) (regSet [.CL_AWG_JUMP]) (atCluster n) (s.at t) (jumpRequest n g (fld d 0 10) (s.at t).clasp
      false (plainWrite .CL_AWG_JUMP (awgIx n g) (d ||| 0x80000000#32) 0xFFFFFFFF#32 (s.at t))) :=
    jumpRequest_upd (plainWrite_upd Upd.refl (by decide) (RegOk.awg rfl ⟨0, rfl⟩)) (by decide) ⟨0, rfl⟩
  refine ⟨_, hexec, ?_, (cmdWrite_frame hupd).listed (by decide) (by decide)⟩
  rw [ungate_awg, jumpRequest, modAwg_awg, plainWrite, State.awg_setReg, State.awg_at]

/-! The table. -/

theorem awgEntry_setAwgEntry_same {v : Word × Word} : awgEntry (setAwgEntry n g i v s) n g i = v := tabGet_tabSet_same ..
theorem awgEntry_setAwgEntry_ne {v : Word × Word} (hk : k < 1024) (hi : i < 1024) (hne : k ≠ i) :
    awgEntry (setAwgEntry n g i v s) n g k = awgEntry s n g k := tabGet_tabSet_ne _ _ _ _ (by omega)
theorem awgEntry_setReg {r : Reg} {j : Nat} {w : Word} : awgEntry (s.setReg r j w) n g k = awgEntry s n g k := rfl
theorem awgEntry_ungate {m : Nat} : awgEntry (ungate m s) n g k = awgEntry s n g k := by
  unfold awgEntry; rw [ungate_awgTab]
theorem awgEntry_at : awgEntry (s.at t) n g k = awgEntry s n g k := by unfold awgEntry; rw [State.awgTab_at]

/-- The entry that TIDX names takes both words, and TIDX goes on. -/
theorem genEntry_eq (hi : i = s.rf .CL_AWG_TIDX (awgIx n g) 0 10) : genEntry n g d 0xFFFFFFFF#32 s =
    (setAwgEntry n g i ((s.awg n g).tdLo, d) s).setReg .CL_AWG_TIDX (awgIx n g) (BitVec.ofNat 32 ((i + 1) % 1024)) := by
  subst hi
  unfold genEntry
  dsimp only
  rw [mergeRw_full]

theorem awgTableWrite_holds (hacc : Accepted q .CL_AWG_TDATA_HI (awgIx n g) d (s.at t))
    (hi : i = s.rf .CL_AWG_TIDX (awgIx n g) 0 10) :
    ∃ s', exec (.awgTableWrite t q n g d) s = .next s' ∧ awgEntry s' n g i = ((s.awg n g).tdLo, d) ∧
      (∀ k : Nat, k < 1024 → k ≠ i → awgEntry s' n g k = awgEntry s n g k) ∧
      s'.reg .CL_AWG_TIDX (awgIx n g) = BitVec.ofNat 32 ((i + 1) % 1024) ∧
      Frame [.clasp, .awgTab] [.CL_AWG_TIDX, .PWR_CLU_GATE] (atCluster n) s s' := by
  have hlt : i < 1024 := hi ▸ Nat.mod_lt _ (by decide)
  have hexec : exec (.awgTableWrite t q n g d) s = .next (ungate n.val (genEntry n g d 0xFFFFFFFF#32 (s.at t))) :=
    congrArg Host.Outcome.next (cmdWrite_gen_plain (by decide) hacc)
  have hupd : Upd (partSet [.awgTab]) (regSet [.CL_AWG_TIDX]) (atCluster n) (s.at t) (genEntry n g d 0xFFFFFFFF#32 (s.at t)) :=
    genEntry_upd Upd.refl (by decide) (by decide) ⟨0, rfl⟩
  have hframe := (cmdWrite_frame (n := n) hupd).listed (KL := [.clasp, .awgTab]) (RL := [.CL_AWG_TIDX, .PWR_CLU_GATE]) (by decide)
    (by decide)
  rw [genEntry_eq (i := i) (by rwa [State.rf_at])] at hexec hframe
  refine ⟨_, hexec, ?_, fun k hk hne => ?_, ?_, hframe⟩
  · rw [awgEntry_ungate, awgEntry_setReg, awgEntry_setAwgEntry_same, State.awg_at]
  · rw [awgEntry_ungate, awgEntry_setReg, awgEntry_setAwgEntry_ne hk hlt hne, awgEntry_at]
  · rw [ungate_reg (by decide), State.reg_setReg_same]

end Sys2Proof.Machine
end

section
/-! ### A DDS register is written (R298) -/

namespace Sys2Proof.Machine

variable {K R : Nat} {C : Nat → Nat → Prop} {s0 s : State} {n : Cluster} {g : Fin 2} {q : Req} {d held : Word} {t which : Nat}
  {lo hi : Reg}

/-- The registers that DDS writes change. -/
def ddsRegs : List Reg := [.CL_AWG_FTW_LO, .CL_AWG_FTW_HI, .CL_AWG_POFF_LO, .CL_AWG_POFF_HI, .CL_AWG_AMP]

/-- The record with value v of parameter `which` on its way, to arrive at tick x. -/
def ddsSent (x which v : Nat) (a : Awg) : Awg := { a with dds := a.dds ++ [⟨x, which, v⟩] }

theorem fld_mergeRw_low (old : Word) : fld (mergeRw old 0xFFFF#32 d 0xFFFFFFFF#32) 0 16 = fld d 0 16 := by
  have hmask : ∀ j < 16, bitOf 0xFFFF#32 j = true := by decide
  refine Nat.eq_of_testBit_eq fun j => ?_
  rw [fld_testBit, fld_testBit, Nat.zero_add]
  by_cases hj : j < 16
  · have hbit := bitOf_mergeRw old 0xFFFF#32 d j (by omega)
    rw [hmask j hj, if_pos rfl] at hbit
    exact congrArg (_ && ·) hbit
  · rw [decide_eq_false hj, Bool.false_and, Bool.false_and]

/-- The low word is held (R298). -/
theorem genEffect_ftwLo : genEffect .CL_AWG_FTW_LO n g d s = modAwg n g (fun a => { a with ftwLo := d }) s := by
  unfold genEffect
  dsimp only
  simp only [mergeRw_full]
theorem genEffect_poffLo : genEffect .CL_AWG_POFF_LO n g d s = modAwg n g (fun a => { a with poffLo := d }) s := by
  unfold genEffect
  dsimp only
  simp only [mergeRw_full]

/-- The upper 16 bits are stored beside the held word, and both go on their way. -/
theorem genHi_holds (hne : lo ≠ hi) : let s' := genHi lo hi which held n g d 0xFFFFFFFF#32 s
    s'.reg lo (awgIx n g) = held ∧ s'.rf hi (awgIx n g) 0 16 = fld d 0 16 ∧
      s'.awg n g = ddsSent (s.clasp + 40) which (ofWords held (s'.reg hi (awgIx n g))) (s.awg n g) := by
  have hhi : (genHi lo hi which held n g d 0xFFFFFFFF#32 s).reg hi (awgIx n g) =
      mergeRw (s.reg hi (awgIx n g)) 0xFFFF#32 d 0xFFFFFFFF#32 := by
    rw [genHi, genDds, modAwg_reg, State.reg_setReg_same]
  refine ⟨?_, ?_, ?_⟩
  · rw [genHi, genDds, modAwg_reg, State.reg_setReg, if_neg fun x => hne x.1, State.reg_setReg_same]
  · rw [State.rf, hhi, fld_mergeRw_low]
  · rw [hhi, genHi, genDds, modAwg_awg, State.awg_setReg, State.awg_setReg]
    rfl

theorem genHi_changes (hlo : R.testBit lo.ctorIdx = true) (hhi : R.testBit hi.ctorIdx = true) (h2 : lo.row.count = 2)
    (h2' : hi.row.count = 2) (h : Upd K R C s0 s) (hk : partSet [.awgs] ||| K = K) (hc : ∃ c, C n.val c) :
    Upd K R C s0 (genHi lo hi which held n g d 0xFFFFFFFF#32 s) :=
  genDds_upd (State.setReg_upd (State.setReg_upd h hlo (RegOk.awg h2 hc)) hhi (RegOk.awg h2' hc))
    (sub_of (by decide) hk) hc

theorem rwOf_awgAmp (i : Nat) : Reg.rwOf .CL_AWG_AMP i = 0xFFFFFFFF#32 := rfl

/-- The word that a write of CL_AWG_AMP stores: AMP at most 32,767, OFFS as written. -/
def ampStored (d : Word) (s : State) (n : Cluster) (g : Fin 2) : Word :=
  let w := plainWord s .CL_AWG_AMP (awgIx n g) d 0xFFFFFFFF#32
  if 32767 < fld w 0 16 then putFld w 0 16 32767 else w

theorem ampStored_fields : fld (ampStored d s n g) 0 16 = min 32767 (fld d 0 16) ∧
    fld (ampStored d s n g) 16 16 = fld d 16 16 := by
  have hamp := fld_plainWord s .CL_AWG_AMP (awgIx n g) d 0 16 (by decide) (by rw [rwOf_awgAmp]; decide) (by decide)
  have hoff := fld_plainWord s .CL_AWG_AMP (awgIx n g) d 16 16 (by decide) (by rw [rwOf_awgAmp]; decide) (by decide)
  unfold ampStored
  dsimp only
  rw [hamp]
  split
  · rw [fld_putFld_same _ _ _ _ (by decide), fld_putFld_ne _ _ _ _ _ _ (by decide) (by decide), hoff]
    exact ⟨by omega, rfl⟩
  · rw [hamp, hoff]
    exact ⟨by omega, rfl⟩

theorem ampWritten_reg : (ampWritten n g d s).reg .CL_AWG_AMP (awgIx n g) = ampStored d s n g := State.reg_setReg_same ..
theorem ampWritten_awg :
    (ampWritten n g d s).awg n g = ddsSent (s.clasp + 40) 2 (ampStored d s n g).toNat (s.awg n g) := by
  have hsent : (ampWritten n g d s).awg n g =
      ddsSent (s.clasp + 40) 2 ((ampWritten n g d s).reg .CL_AWG_AMP (awgIx n g)).toNat (s.awg n g) := modAwg_awg _
  rw [hsent, ampWritten_reg]

/-- What a write of any of these registers may change. -/
theorem ddsEffect_changes (w : DdsReg) :
    Upd (partSet [.awgs]) (regSet ddsRegs) (atCluster n) s (genEffect (ddsReg w) n g d s) := by
  cases w with
  | ftwLo => rw [ddsReg, genEffect_ftwLo]; exact modAwg_upd Upd.refl (by decide) ⟨0, rfl⟩
  | poffLo => rw [ddsReg, genEffect_poffLo]; exact modAwg_upd Upd.refl (by decide) ⟨0, rfl⟩
  | ftwHi => exact genHi_changes (by decide) (by decide) rfl rfl Upd.refl (by decide) ⟨0, rfl⟩
  | poffHi => exact genHi_changes (by decide) (by decide) rfl rfl Upd.refl (by decide) ⟨0, rfl⟩
  | amp =>
    exact genDds_upd (State.setReg_upd Upd.refl (by decide) (RegOk.awg rfl ⟨0, rfl⟩)) (by decide) ⟨0, rfl⟩

/-- What each of these registers does with d, where x is the tick at which it arrives (R298). -/
def DdsWritten (n : Cluster) (g : Fin 2) (w : DdsReg) (d : Word) (x : Nat) (a : Awg) (s' : State) : Prop :=
  (w = .ftwLo → s'.awg n g = { a with ftwLo := d }) ∧
  (w = .poffLo → s'.awg n g = { a with poffLo := d }) ∧
  (w = .ftwHi → s'.reg .CL_AWG_FTW_LO (awgIx n g) = a.ftwLo ∧ s'.rf .CL_AWG_FTW_HI (awgIx n g) 0 16 = fld d 0 16 ∧
    s'.awg n g = ddsSent x 0 (ofWords a.ftwLo (s'.reg .CL_AWG_FTW_HI (awgIx n g))) a) ∧
  (w = .poffHi → s'.reg .CL_AWG_POFF_LO (awgIx n g) = a.poffLo ∧ s'.rf .CL_AWG_POFF_HI (awgIx n g) 0 16 = fld d 0 16 ∧
    s'.awg n g = ddsSent x 1 (ofWords a.poffLo (s'.reg .CL_AWG_POFF_HI (awgIx n g))) a) ∧
  (w = .amp → s'.rf .CL_AWG_AMP (awgIx n g) 0 16 = min 32767 (fld d 0 16) ∧
    s'.rf .CL_AWG_AMP (awgIx n g) 16 16 = fld d 16 16 ∧
    s'.awg n g = ddsSent x 2 (s'.reg .CL_AWG_AMP (awgIx n g)).toNat a)

theorem ddsEffect_written (w : DdsReg) : DdsWritten n g w d (s.clasp + 40) (s.awg n g) (genEffect (ddsReg w) n g d s) := by
  cases w with
  | ftwLo => rw [ddsReg, genEffect_ftwLo]; exact ⟨fun _ => modAwg_awg _, nofun, nofun, nofun, nofun⟩
  | poffLo => rw [ddsReg, genEffect_poffLo]; exact ⟨nofun, fun _ => modAwg_awg _, nofun, nofun, nofun⟩
  | ftwHi => exact ⟨nofun, nofun, fun _ => genHi_holds (by decide), nofun, nofun⟩
  | poffHi => exact ⟨nofun, nofun, nofun, fun _ => genHi_holds (by decide), nofun⟩
  | amp =>
    refine ⟨nofun, nofun, nofun, nofun, fun _ => ?_⟩
    show (ampWritten n g d s).rf _ _ _ _ = _ ∧ (ampWritten n g d s).rf _ _ _ _ = _ ∧ (ampWritten n g d s).awg n g = _
    rw [ampWritten_awg, State.rf, State.rf]
    exact ⟨(congrArg (fld · 0 16) ampWritten_reg).trans ampStored_fields.1,
      (congrArg (fld · 16 16) ampWritten_reg).trans ampStored_fields.2,
      congrArg (fun w => ddsSent (s.clasp + 40) 2 w.toNat (s.awg n g)) ampWritten_reg.symm⟩

theorem DdsWritten.congr {w : DdsReg} {x : Nat} {a : Awg} {u u' : State} (h : DdsWritten n g w d x a u)
    (hawg : u'.awg n g = u.awg n g) (hreg : ∀ r ∈ ddsRegs, u'.reg r (awgIx n g) = u.reg r (awgIx n g)) :
    DdsWritten n g w d x a u' := by
  unfold DdsWritten State.rf at h ⊢
  rwa [hawg, hreg .CL_AWG_FTW_LO (by decide), hreg .CL_AWG_FTW_HI (by decide), hreg .CL_AWG_POFF_LO (by decide),
    hreg .CL_AWG_POFF_HI (by decide), hreg .CL_AWG_AMP (by decide)]

theorem ddsRegWrite_holds {w : DdsReg} (hacc : Accepted q (ddsReg w) (awgIx n g) d (s.at t)) :
    ∃ s', exec (.ddsRegWrite t q n g w d) s = .next s' ∧ DdsWritten n g w d ((s.at t).clasp + 40) (s.awg n g) s' ∧
      Frame [.clasp, .awgs] (ddsRegs ++ [.PWR_CLU_GATE]) (atCluster n) s s' := by
  have hexec : exec (.ddsRegWrite t q n g w d) s = .next (ungate n.val (genEffect (ddsReg w) n g d (s.at t))) :=
    congrArg Host.Outcome.next (cmdWrite_gen_plain (by cases w <;> decide) hacc)
  have hwritten := ddsEffect_written (n := n) (g := g) (d := d) (s := s.at t) w
  rw [State.awg_at] at hwritten
  refine ⟨_, hexec, hwritten.congr (ungate_awg _) fun r hr => ungate_reg ?_,
    (cmdWrite_frame (ddsEffect_changes w)).listed (by decide) (by decide)⟩
  rintro rfl
  revert hr
  decide

end Sys2Proof.Machine
end

section
/-! ### Before a sample boundary: requests and DDS writes that have arrived (R294, R298) -/

namespace Sys2Proof.Machine

variable {s : State} {n : Cluster} {g : Fin 2} {a : Awg} {t : Nat}

/-- A DDS write takes effect. -/
def ddsTaken (a : Awg) (w : DdsWrite) : Awg :=
  if w.which = 0 then { a with ftw := w.value } else if w.which = 1 then { a with poff := w.value }
  else { a with amp := BitVec.ofNat 32 w.value }

/-- Requests change the record beside what DDS writes do. -/
theorem ddsTaken_foldl (l : List DdsWrite) (c : List AwgJump) (j : Option AwgJump) :
    l.foldl ddsTaken { a with coming := c, jump := j } = { l.foldl ddsTaken a with coming := c, jump := j } := by
  induction l generalizing a with
  | nil => rfl
  | cons w l ih =>
    rw [List.foldl_cons, List.foldl_cons, ← ih]
    congr 1
    unfold ddsTaken
    split
    · rfl
    · split <;> rfl

theorem ddsTaken_rest (l : List DdsWrite) :
    ∃ f p m, l.foldl ddsTaken a = { a with ftw := f, poff := p, amp := m } := by
  refine List.foldlRecOn (motive := fun b : Awg => ∃ f p m, b = { a with ftw := f, poff := p, amp := m }) l _
    ⟨a.ftw, a.poff, a.amp, rfl⟩ ?_
  rintro _ ⟨f, p, m, rfl⟩ w -
  unfold ddsTaken
  split
  · exact ⟨w.value, p, m, rfl⟩
  · split
    · exact ⟨f, w.value, m, rfl⟩
    · exact ⟨f, p, BitVec.ofNat 32 w.value, rfl⟩

theorem ddsApply_eq : ddsApply a t = { (a.dds.filter fun w => decide (w.at_ ≤ t)).foldl ddsTaken a with
    dds := a.dds.filter fun w => !decide (w.at_ ≤ t) } := rfl

/-- DDS writes change the parameters and leave the list of those on their way. -/
theorem ddsApply_rest : ∃ l f p m, ddsApply a t = { a with dds := l, ftw := f, poff := p, amp := m } := by
  obtain ⟨f, p, m, h⟩ := ddsTaken_rest (a := a) (a.dds.filter fun w => decide (w.at_ ≤ t))
  exact ⟨_, f, p, m, by rw [ddsApply_eq, h]⟩

theorem ddsApply_requests (c : List AwgJump) (j : Option AwgJump) :
    ddsApply { a with coming := c, jump := j } t = { ddsApply a t with coming := c, jump := j } := by
  rw [ddsApply_eq, ddsTaken_foldl, ddsApply_eq]

/-- The state in which a boundary finds the generator. -/
def boundaryReached (n : Cluster) (g : Fin 2) (s : State) : State :=
  modAwg n g (fun a => ddsApply a s.clasp) (awgSettle n g s)

theorem boundaryReached_state : awgState (boundaryReached n g s) n g = awgState s n g :=
  (awgState_congr (modAwg_reg ..)).trans awgSettle_taken.state
theorem boundaryReached_reg {r : Reg} {i : Nat} (h : r ∉ [.CL_AWG_STAT, .CL_AWG_JLOST, .CL_AWG_EVT]) :
    (boundaryReached n g s).reg r i = s.reg r i := awgSettle_taken.regs r i h
theorem boundaryReached_awg : ∃ c j,
    (boundaryReached n g s).awg n g = { ddsApply (s.awg n g) s.clasp with coming := c, jump := j } := by
  obtain ⟨c, j, h⟩ := (awgSettle_taken (n := n) (g := g) (s := s)).awg
  exact ⟨c, j, by rw [boundaryReached, modAwg_awg, h, ddsApply_requests]⟩

/-- What plays: a boundary changes only the requests and the DDS parameters before its sample. -/
theorem boundaryReached_play : ∃ c j l f p m, (boundaryReached n g s).awg n g =
    { s.awg n g with coming := c, jump := j, dds := l, ftw := f, poff := p, amp := m } := by
  obtain ⟨c, j, hawg⟩ := boundaryReached_awg (n := n) (g := g) (s := s)
  obtain ⟨l, f, p, m, hdds⟩ := ddsApply_rest (a := s.awg n g) (t := s.clasp)
  exact ⟨c, j, l, f, p, m, by rw [hawg, hdds]⟩

end Sys2Proof.Machine
end

section
/-! ### What a sample boundary puts out (R292, R296, R297) -/

namespace Sys2Proof.Machine

variable {s : State} {n : Cluster} {g : Fin 2} {t : Nat} {x : Int} {more : List Int}

/-- A stop that was asked for is due at tick t (R292). -/
def stopDue (a : Awg) (t : Nat) : Bool := match a.stopAt with | some b => decide (b ≤ t) | none => false

theorem stopDue_iff {a : Awg} : stopDue a t = true ↔ ∃ b, a.stopAt = some b ∧ b ≤ t := by
  unfold stopDue
  rcases a.stopAt with _ | b
  · exact ⟨nofun, nofun⟩
  · rw [decide_eq_true_iff]
    exact ⟨fun h => ⟨b, rfl, h⟩, by rintro ⟨_, ⟨rfl⟩, h⟩; exact h⟩

theorem NoStopBy.not_due {u : State} (h : NoStopBy n g t s) (hstop : (u.awg n g).stopAt = (s.awg n g).stopAt) :
    ¬ stopDue (u.awg n g) t = true := fun hdue => by
  obtain ⟨b, hb, hle⟩ := stopDue_iff.1 hdue
  have hlt := h b (by rw [← hstop, hb]; exact .head _)
  omega

theorem playSample_awg : (playSample n g x s).awg n g = { s.awg n g with lastX := x, held := false, out := x } := by
  rw [playSample, putOut_awg, modAwg_awg]
theorem playSample_clip (h : clipCode x ≠ x) : (playSample n g x s).rb .CL_AWG_EVT (awgIx n g) 5 = true := putOut_clip h

/-! The cases of a boundary. -/

theorem awgBoundary_idle (hstate : awgState s n g ≠ 2) : awgBoundary n g s = putOut n g
    (if ((boundaryReached n g s).awg n g).held then ((boundaryReached n g s).awg n g).lastX
      else clearCode (boundaryReached n g s) n g) (boundaryReached n g s) :=
  if_neg (boundaryReached_state.symm ▸ hstate)

section
variable (hstate : awgState s n g = 2)
include hstate

theorem awgBoundary_stops (hdue : stopDue ((boundaryReached n g s).awg n g) s.clasp = true) :
    awgBoundary n g s = awgHalt n g (boundaryReached n g s) :=
  (if_pos (boundaryReached_state.trans hstate)).trans (if_pos hdue)

theorem awgBoundary_dds (hdue : ¬ stopDue ((boundaryReached n g s).awg n g) s.clasp = true)
    (hdds : awgDds (boundaryReached n g s) n g = true) :
    awgBoundary n g s = playSample n g (ddsSample ((boundaryReached n g s).awg n g).ftw
      ((boundaryReached n g s).awg n g).poff ((boundaryReached n g s).awg n g).amp s.clasp) (boundaryReached n g s) :=
  (if_pos (boundaryReached_state.trans hstate)).trans ((if_neg hdue).trans (if_pos hdds))

/-- The next sample of the segment plays, p samples into the pass. -/
theorem awgBoundary_plays {p : Nat} (hdue : ¬ stopDue ((boundaryReached n g s).awg n g) s.clasp = true)
    (hdds : awgDds (boundaryReached n g s) n g = false) (hbegun : ((boundaryReached n g s).awg n g).start ≤ s.clasp)
    (hgoes : s.clasp < passStop ((boundaryReached n g s).awg n g))
    (hp : p = (s.clasp - ((boundaryReached n g s).awg n g).start) / 20)
    (hfifo : ((boundaryReached n g s).awg n g).fifo.drop (p - ((boundaryReached n g s).awg n g).pos) = x :: more) :
    awgBoundary n g s =
      playSample n g x (modAwg n g (fun a => { a with fifo := more, pos := p + 1 }) (boundaryReached n g s)) := by
  subst hp
  refine (if_pos (boundaryReached_state.trans hstate)).trans ((if_neg hdue).trans
    ((if_neg (Bool.eq_false_iff.1 hdds)).trans ((if_pos ⟨hbegun, hgoes⟩).trans ?_)))
  rw [← boundaryReached]
  dsimp only
  rw [hfifo]

end

/-! The command. -/

section
variable (htick : (s.at t).clasp % 20 = 0) (hpin : clrPin s n g = false)
include htick hpin

theorem execAwgSampleBoundary_due : exec (.awgSampleBoundary t n g) s = .next (awgBoundary n g (s.at t)) := by
  refine congrArg Host.Outcome.next (if_pos ⟨htick, ?_⟩)
  rw [clrPin_congr (State.reg_at ..), hpin]; rfl

theorem awgBoundary_frame : Frame [.clasp, .awgs] genRegs (atCluster n) s (awgBoundary n g (s.at t)) := by
  have hupd : Upd (partSet [.clasp, .awgs]) (regSet genRegs) (atCluster n) s (awgBoundary n g (s.at t)) :=
    (execAwgSampleBoundary_upd Upd.refl (by decide) (by decide) fun _ => rfl).at_next (execAwgSampleBoundary_due htick hpin)
  exact hupd.listed (Nat.or_self _) (Nat.or_self _)

theorem sampleBoundary_segment (hplays : PlaysSegments n g s) (hstop : NoStopBy n g (s.at t).clasp s)
    (hbegun : (s.awg n g).start ≤ (s.at t).clasp) (hgoes : (s.at t).clasp < passStop (s.awg n g))
    (hfifo : (s.awg n g).fifo.drop (((s.at t).clasp - (s.awg n g).start) / 20 - (s.awg n g).pos) = x :: more) :
    ∃ s', exec (.awgSampleBoundary t n g) s = .next s' ∧ (s'.awg n g).out = x ∧ (s'.awg n g).lastX = x ∧
      (s'.awg n g).fifo = more ∧ (s'.awg n g).pos = ((s.at t).clasp - (s.awg n g).start) / 20 + 1 ∧
      (clipCode x ≠ x → s'.rb .CL_AWG_EVT (awgIx n g) 5 = true) ∧
      Frame [.clasp, .awgs] genRegs (atCluster n) s s' := by
  obtain ⟨c, j, l, f, p, m, hawg⟩ := boundaryReached_play (n := n) (g := g) (s := s.at t)
  rw [State.awg_at] at hawg
  have hexec := execAwgSampleBoundary_due htick hpin
  have hframe := awgBoundary_frame htick hpin
  rw [awgBoundary_plays (x := x) (more := more) (p := ((s.at t).clasp - (s.awg n g).start) / 20)
    ((awgState_congr (State.reg_at ..)).trans hplays.1) (hstop.not_due (by rw [hawg]))
    ((awgDds_congr ((boundaryReached_reg (by decide)).trans (State.reg_at ..))).trans hplays.2) (by rw [hawg]; exact hbegun)
    (by rw [hawg]; exact hgoes) (by rw [hawg]) (by rw [hawg]; exact hfifo)] at hexec hframe
  refine ⟨_, hexec, ?_, ?_, ?_, ?_, playSample_clip, hframe⟩
  all_goals rw [playSample_awg]
  all_goals rw [modAwg_awg]

theorem sampleBoundary_dds (hstate : awgState s n g = 2) (hdds : awgDds s n g = true)
    (hstop : NoStopBy n g (s.at t).clasp s) (hx : x = ddsSample (ddsApply (s.awg n g) (s.at t).clasp).ftw
      (ddsApply (s.awg n g) (s.at t).clasp).poff (ddsApply (s.awg n g) (s.at t).clasp).amp (s.at t).clasp) :
    ∃ s', exec (.awgSampleBoundary t n g) s = .next s' ∧ (s'.awg n g).out = x ∧ (s'.awg n g).lastX = x ∧
      (s'.awg n g).ftw = (ddsApply (s.awg n g) (s.at t).clasp).ftw ∧
      (s'.awg n g).poff = (ddsApply (s.awg n g) (s.at t).clasp).poff ∧
      (s'.awg n g).amp = (ddsApply (s.awg n g) (s.at t).clasp).amp ∧
      (s'.awg n g).dds = (ddsApply (s.awg n g) (s.at t).clasp).dds ∧
      (clipCode x ≠ x → s'.rb .CL_AWG_EVT (awgIx n g) 5 = true) ∧
      Frame [.clasp, .awgs] genRegs (atCluster n) s s' := by
  obtain ⟨c, j, hawg⟩ := boundaryReached_awg (n := n) (g := g) (s := s.at t)
  obtain ⟨_, _, _, _, _, _, hplay⟩ := boundaryReached_play (n := n) (g := g) (s := s.at t)
  rw [State.awg_at] at hawg hplay
  have hexec := execAwgSampleBoundary_due htick hpin
  have hframe := awgBoundary_frame htick hpin
  rw [awgBoundary_dds ((awgState_congr (State.reg_at ..)).trans hstate) (hstop.not_due (by rw [hplay]))
    ((awgDds_congr ((boundaryReached_reg (by decide)).trans (State.reg_at ..))).trans hdds), hawg] at hexec hframe
  rw [← hx] at hexec hframe
  refine ⟨_, hexec, ?_, ?_, ?_, ?_, ?_, ?_, playSample_clip, hframe⟩
  all_goals rw [playSample_awg]
  all_goals rw [hawg]

theorem sampleBoundary_still
    (hstill : awgState s n g ≠ 2 ∨ ∃ x, (s.awg n g).stopAt = some x ∧ x ≤ (s.at t).clasp) :
    ∃ s', exec (.awgSampleBoundary t n g) s = .next s' ∧
      (if awgState s n g = 2 then GenStopped n g s s'
       else (s'.awg n g).out = (if (s.awg n g).held then (s.awg n g).lastX else clearCode s n g)) ∧
      Frame [.clasp, .awgs] genRegs (atCluster n) s s' := by
  obtain ⟨c, j, l, f, p, m, hawg⟩ := boundaryReached_play (n := n) (g := g) (s := s.at t)
  rw [State.awg_at] at hawg
  have hreg : ∀ r i, r ∉ [Reg.CL_AWG_STAT, .CL_AWG_JLOST, .CL_AWG_EVT] → (boundaryReached n g (s.at t)).reg r i = s.reg r i :=
    fun r i hr => (boundaryReached_reg hr).trans (State.reg_at ..)
  have hsame : awgState (s.at t) n g = awgState s n g := awgState_congr (State.reg_at ..)
  refine ⟨_, execAwgSampleBoundary_due htick hpin, ?_, awgBoundary_frame htick hpin⟩
  by_cases hstate : awgState s n g = 2
  · have hdue : stopDue ((boundaryReached n g (s.at t)).awg n g) (s.at t).clasp = true := by
      rw [stopDue_iff, hawg]; exact hstill.resolve_left (not_not.2 hstate)
    rw [if_pos hstate, awgBoundary_stops (hsame.trans hstate) hdue]
    exact awgHalt_stopped (hreg _ _ (by decide)) (hreg _ _ (by decide)) (by rw [hawg])
  · rw [if_neg hstate, awgBoundary_idle (hsame.symm ▸ hstate), putOut_awg, hawg, clearCode_congr (hreg _ _ (by decide))]

end

end Sys2Proof.Machine
end

section
/-! ### Generators play and jump (R287 to R298) -/

namespace Sys2Proof.Machine

/-- Settles O40: with no request due, a commit point decides `jumpPass` or `passAfter` and a pass ends as `nextBegun` says; a
boundary plays from what `boundaryReached` leaves of the record. -/
theorem generatorsPlayAndJump : Obligations.GeneratorsPlayAndJump := by
  unfold Obligations.GeneratorsPlayAndJump
  exact ⟨fun _ _ _ _ hstate hdds hrefused hfifo hleft hserved => awgFetch_holds hstate hdds hrefused hfifo hleft hserved,
    fun _ _ _ _ hplays hnext hdue hjumps => awgCommitPoint_holds hplays hnext hdue hjumps,
    fun _ _ _ _ _ hplays hnext hdue hcoming hjump harrives hok =>
      awgCommitPoint_arrives hplays hcoming hjump harrives hnext hdue hok,
    fun _ _ _ _ _ _ _ _ _ hplays hdue hnext hjumps hstop hfetched hlt =>
      awgPassEnd_begins hplays hdue hjumps hstop hfetched hnext hlt,
    fun _ _ _ _ _ hplays hdue hnext hjumps hstop hfetched => awgPassEnd_stops hplays hdue hjumps hstop hfetched hnext,
    fun _ _ _ _ _ _ hacc => awgJumpRequest_holds hacc,
    fun _ _ _ _ _ _ hacc => awgTableWrite_holds hacc rfl,
    fun _ _ _ _ _ _ _ hacc => by
      obtain ⟨s', hexec, ⟨hftwLo, hpoffLo, hftwHi, hpoffHi, hamp⟩, hframe⟩ := ddsRegWrite_holds hacc
      exact ⟨s', hexec, hftwLo, hpoffLo, hftwHi, hpoffHi, hamp, hframe⟩,
    fun _ _ _ _ _ _ htick hpin hplays hstop hbegun hgoes hfifo =>
      sampleBoundary_segment htick hpin hplays hstop hbegun hgoes hfifo,
    fun _ _ _ _ htick hpin hstate hdds hstop => sampleBoundary_dds htick hpin hstate hdds hstop rfl,
    fun _ _ _ _ htick hpin hstill => sampleBoundary_still htick hpin hstill⟩

end Sys2Proof.Machine
end

/-! # Cap's check, starts-of-test and aborts: obligation O41

SUPPORT. What CHECK, a start-of-test and an ABORT leave in Cap's record, in its sites and in its registers comes first; then
the commands, each from those. -/

section
/-! ### Cap's tables and sites read at another state (R303 to R308) -/

namespace Sys2Proof.Machine

variable {s a b : State} {t : Nat}

theorem capState_congr (h : b.reg .CAP_STAT 0 = a.reg .CAP_STAT 0) : capState b = capState a := congrArg (fld · 0 3) h
theorem ringState_congr (h : b.reg .RING_STAT 0 = a.reg .RING_STAT 0) : ringState b = ringState a := congrArg (fld · 0 2) h

/-- A site's retirement rests on the registers that retire clusters and channels (R479, R481). -/
theorem siteRetired_congr (hclu : b.reg .FLT_RET_CLU 0 = a.reg .FLT_RET_CLU 0)
    (hch : ∀ n, b.reg .FLT_RET_CH n = a.reg .FLT_RET_CH n) : siteRetired b = siteRetired a := by
  funext x
  unfold siteRetired State.rb
  rw [hclu]
  simp only [hch]

/-- FLOW_START and FLOW_END name the map's length and the flow's number (R320). -/
theorem flowRec_congr {type flags time : Nat} (hcnt : b.reg .CAP_MAP_CNT 0 = a.reg .CAP_MAP_CNT 0)
    (hno : b.reg .CAP_FLOWNO 0 = a.reg .CAP_FLOWNO 0) : flowRec b type flags time = flowRec a type flags time := by
  unfold flowRec mapCnt State.rf
  rw [hcnt, hno]

@[simp] theorem capState_at : capState (s.at t) = capState s := State.rf_at ..
@[simp] theorem sotSrc_at : sotSrc (s.at t) = sotSrc s := congrArg (· % 3) (State.rf_at ..)
@[simp] theorem flowAt_at : flowAt (s.at t) = flowAt s := congrArg (· * 64) (State.rf_at ..)
theorem capRefused_at (a len : Nat) : capRefused (s.at t) a len = capRefused s a len := by rw [State.at_eq]; rfl
theorem mapAt_at : mapAt (s.at t) = mapAt s := congrArg (· * 64) (State.rf_at ..)
theorem mapCnt_at : mapCnt (s.at t) = mapCnt s := congrArg BitVec.toNat (State.reg_at ..)
theorem mapEntry_at (i : Nat) : mapEntry (s.at t) i = mapEntry s i := by rw [mapEntry, mapAt_at, State.bytes_at, mapEntry]
@[simp] theorem mapSites_at : mapSites (s.at t) = mapSites s := by simp only [mapSites, mapCnt_at, mapEntry_at]

theorem badSite_at (n i : Nat) (used : List (Nat × Nat)) : badSite (s.at t) n i used = badSite s n i used := by
  induction n generalizing i used with
  | zero => rfl
  | succ n ih => simp only [badSite, mapEntry_at, ih]

theorem refusedEntry_at (a len n : Nat) : refusedEntry (s.at t) a len n = refusedEntry s a len n := by
  simp only [refusedEntry, capRefused_at]

theorem checkMap_at : checkMap (s.at t) = checkMap s := by
  simp only [checkMap, mapCnt_at, mapAt_at, refusedEntry_at, badSite_at]

theorem checkTables_at (h : List Byte) (ra la : Nat) : checkTables (s.at t) h ra la = checkTables s h ra la := by
  simp only [checkTables, refusedEntry_at, State.bytes_at, checkMap_at]

/-- CHECK finds the same whenever it ends. -/
@[simp] theorem capCheck_at : capCheck (s.at t) = capCheck s := by
  simp only [capCheck, flowAt_at, capRefused_at, State.bytes_at, checkTables_at]

end Sys2Proof.Machine
end

section
/-! ### CHECK fails (R308, R315) -/

namespace Sys2Proof.Machine

variable {K R : Nat} {C : Nat → Nat → Prop} {s0 s : State} {e : CapErr}

/-- The read for which CHECK failed, if it was one, is noted. -/
def readNoted (e : CapErr) (s : State) : State := match e.read with | some r => capNote r.1 r.2 s | none => s

/-- CHECK fails with e: Cap is IDLE, and shows e's code and index. -/
def checkFailed (e : CapErr) (s : State) : State :=
  (((setCapState 0 (readNoted e s)).setRf .CAP_STAT 0 3 5 e.code).setReg .CAP_ERRIDX 0 (BitVec.ofNat 32 e.idx)).setRb
    .CAP_EVT 0 2 true

theorem capChecked_fails (h : capCheck s = some e) : capChecked s = checkFailed e s := by unfold capChecked; rw [h]; rfl

/-- A refused read sets MP_REFUSED, and nothing else does. -/
theorem readNoted_refused : (readNoted e s).rb .CAP_STAT 0 10 = (e.read.isSome || s.rb .CAP_STAT 0 10) := by
  unfold readNoted
  cases e.read with
  | none => rfl
  | some r => exact State.rb_setRb_same _ _ _ _ _ (by decide)

theorem readNoted_upd (h : Upd K R C s0 s) (hk : partSet [.msgs] ||| K = K)
    (hr : regSet (.CAP_STAT :: refuseRegs) ||| R = R) : Upd K R C s0 (readNoted e s) := by
  unfold readNoted
  cases e.read with
  | none => exact h
  | some r => exact capNote_upd h (sub_of (by decide) hk) (sub_of (by decide) hr)

theorem checkFailed_stat : (checkFailed e s).reg .CAP_STAT 0 =
    putFld (putFld ((readNoted e s).reg .CAP_STAT 0) 0 3 0) 3 5 e.code := by
  simp [checkFailed, setCapState, State.reg_setRb, State.reg_setRf, State.reg_setReg]

theorem checkFailed_idle : capState (checkFailed e s) = 0 := by
  rw [capState, State.rf, checkFailed_stat, fld_putFld_ne _ _ _ _ _ _ (by decide) (by decide),
    fld_putFld_same _ _ _ _ (by decide), Nat.zero_mod]

theorem checkFailed_code (h : e.code < 32) : (checkFailed e s).rf .CAP_STAT 0 3 5 = e.code := by
  rw [State.rf, checkFailed_stat, fld_putFld_same _ _ _ _ (by decide)]
  exact Nat.mod_eq_of_lt h

theorem checkFailed_index : (checkFailed e s).reg .CAP_ERRIDX 0 = BitVec.ofNat 32 e.idx := by
  simp [checkFailed, State.reg_setRb]

theorem checkFailed_event : (checkFailed e s).rb .CAP_EVT 0 2 = true := State.rb_setRb_same _ _ _ _ _ (by decide)

theorem checkFailed_refused : (checkFailed e s).rb .CAP_STAT 0 10 = (e.read.isSome || s.rb .CAP_STAT 0 10) := by
  rw [State.rb, checkFailed_stat, bitOf_putFld _ _ _ _ _ (by decide), if_neg (by decide),
    bitOf_putFld _ _ _ _ _ (by decide), if_neg (by decide)]
  exact readNoted_refused

theorem checkFailed_upd (h : Upd K R C s0 s) (hk : partSet [.msgs] ||| K = K)
    (hr : regSet (.CAP_STAT :: .CAP_ERRIDX :: .CAP_EVT :: refuseRegs) ||| R = R) : Upd K R C s0 (checkFailed e s) := by
  have hin : ∀ r ∈ [Reg.CAP_STAT, .CAP_ERRIDX, .CAP_EVT], R.testBit r.ctorIdx = true := fun r hmem =>
    testBit_of_sub hr (by revert r; decide)
  refine State.setRb_upd (State.setReg_upd (State.setRf_upd (setCapState_upd (readNoted_upd h hk ?_) ?_) ?_ (RegOk.glob rfl)) ?_
    (RegOk.glob rfl)) ?_ (RegOk.glob rfl)
  · exact sub_of (by decide) hr
  · exact sub_of (by decide) hr
  · exact hin _ (by decide)
  · exact hin _ (by decide)
  · exact hin _ (by decide)

end Sys2Proof.Machine
end

section
/-! ### What the turns of the sites leave (R309, R313, R317) -/

namespace Sys2Proof.Machine

variable {K R : Nat} {C : Nat → Nat → Prop} {s0 s : State} {i j : Nat} {x : CapSite}

/-- From s to s' Cap's record differs in its sites and in datalog records added at the end. -/
def SitesOnly (s s' : State) : Prop := ∃ l xs, s'.cap = { s.cap with dlog := s.cap.dlog ++ l, sites := xs }

theorem SitesOnly.refl : SitesOnly s s := ⟨[], s.cap.sites, by rw [List.append_nil]⟩

theorem SitesOnly.trans {a b c : State} (hab : SitesOnly a b) (hbc : SitesOnly b c) : SitesOnly a c := by
  obtain ⟨l, xs, hb⟩ := hab
  obtain ⟨l', xs', hc⟩ := hbc
  exact ⟨l ++ l', xs', by rw [hc, hb, List.append_assoc]⟩

/-- What a site's turn reads: the site, the Clasp time, and which sites hold retired channels. -/
def siteView (i : Nat) (s : State) : Option CapSite × (Nat × (CapSite → Option Nat)) :=
  (capSiteAt s i, (s.clasp, siteRetired s))

theorem capSiteAt_setCapSite_same (h : capSiteAt s i = some x) {y : CapSite} : capSiteAt (setCapSite i y s) i = some y := by
  obtain ⟨hlt, -⟩ := List.getElem?_eq_some_iff.1 h
  exact List.getElem?_set_self hlt

theorem capSiteAt_setCapSite_ne (h : j ≠ i) {y : CapSite} : capSiteAt (setCapSite j y s) i = capSiteAt s i :=
  List.getElem?_set_ne h

/-- A site that ends UNTESTED at `now` (R313). -/
def untestedSite (reason clu now : Nat) (x : CapSite) : CapSite :=
  { x with active := false, untested := some (reason, if reason = 8 ∨ reason = 9 then 255 else clu), bins := none,
           ended := some now }

theorem siteUntested_sitesOnly {reason clu : Nat} : SitesOnly s (siteUntested i reason clu x s) := ⟨[_], _, rfl⟩
theorem setCapSite_sitesOnly : SitesOnly s (setCapSite i x s) := ⟨[], _, by rw [List.append_nil]; rfl⟩

theorem siteUntested_rest {reason clu : Nat} :
    ((siteUntested i reason clu x s).clasp, siteRetired (siteUntested i reason clu x s)) = (s.clasp, siteRetired s) :=
  congrArg (Prod.mk s.clasp) (siteRetired_congr ((State.reg_setRb ..).trans (if_neg (by simp)))
    fun _ => (State.reg_setRb ..).trans (if_neg (by simp)))

theorem siteUntested_view_same {reason clu : Nat} (h : capSiteAt s i = some x) {y : CapSite} :
    siteView i (siteUntested i reason clu y s) = (some (untestedSite reason clu s.clasp y), (siteView i s).2) :=
  Prod.ext (capSiteAt_setCapSite_same (s := s.setRb .CAP_EVT 0 1 true) (y := untestedSite reason clu s.clasp y) h)
    siteUntested_rest

theorem siteUntested_view_ne {reason clu : Nat} (h : j ≠ i) : siteView i (siteUntested j reason clu x s) = siteView i s :=
  Prod.ext (capSiteAt_setCapSite_ne (s := s.setRb .CAP_EVT 0 1 true) (y := untestedSite reason clu s.clasp x) h)
    siteUntested_rest

theorem setCapSite_view_same (h : capSiteAt s i = some x) {y : CapSite} :
    siteView i (setCapSite i y s) = (some y, (siteView i s).2) :=
  congrArg (·, (siteView i s).2) (capSiteAt_setCapSite_same h)

theorem setCapSite_view_ne (h : j ≠ i) : siteView i (setCapSite j x s) = siteView i s :=
  congrArg (·, (siteView i s).2) (capSiteAt_setCapSite_ne h)

/-! The turns of a start-of-test. -/

/-- A site whose flow begins at record 0. -/
def freshSite (x : CapSite) : CapSite :=
  { x with active := true, next := 0, bins := none, failed := false, untested := none, last := 0, test := 0, ended := none }

/-- Site i's turn at a start-of-test. -/
def siteBegins (s : State) (i : Nat) : State :=
  match capSiteAt s i with
  | some x =>
    if !x.valid then s
    else match siteRetired s x with
      | some n => siteUntested i 1 n (freshSite x) s
      | none => setCapSite i (freshSite x) s
  | none => s

theorem sitesBegin_eq : sitesBegin s = (List.range s.cap.sites.length).foldl siteBegins s := rfl

/-- What a start-of-test at `now` makes of a valid site, `retired` naming the cluster for which it is UNTESTED. -/
def begunSite (retired : Option Nat) (now : Nat) (x : CapSite) : CapSite :=
  { x with active := retired.isNone, next := 0, bins := none, failed := false, last := 0, test := 0,
           untested := retired.map fun n => (1, n), ended := retired.map fun _ => now }

/-- What a site's turn makes of what it reads. -/
def viewBegun (v : Option CapSite × (Nat × (CapSite → Option Nat))) : Option CapSite × (Nat × (CapSite → Option Nat)) :=
  (v.1.map fun x => if x.valid then begunSite (v.2.2 x) v.2.1 x else x, v.2)

/-- A turn is no turn, an UNTESTED site, or a site that goes on. -/
theorem siteBegins_cases : siteBegins s i = s ∨ (∃ n y, siteBegins s i = siteUntested i 1 n y s) ∨
    ∃ y, siteBegins s i = setCapSite i y s := by
  unfold siteBegins
  split
  · split
    · exact .inl rfl
    · split
      · exact .inr (.inl ⟨_, _, rfl⟩)
      · exact .inr (.inr ⟨_, rfl⟩)
  · exact .inl rfl

theorem siteBegins_sitesOnly : SitesOnly s (siteBegins s i) := by
  rcases siteBegins_cases (s := s) (i := i) with h | ⟨n, y, h⟩ | ⟨y, h⟩ <;> rw [h]
  · exact .refl
  · exact siteUntested_sitesOnly
  · exact setCapSite_sitesOnly

theorem siteBegins_other (hne : j ≠ i) : siteView i (siteBegins s j) = siteView i s := by
  rcases siteBegins_cases (s := s) (i := j) with h | ⟨n, y, h⟩ | ⟨y, h⟩ <;> rw [h]
  · exact siteUntested_view_ne hne
  · exact setCapSite_view_ne hne

theorem freshSite_begun {now : Nat} : freshSite x = begunSite none now x := rfl
theorem untestedSite_begun {n now : Nat} : untestedSite 1 n now (freshSite x) = begunSite (some n) now x := rfl

theorem siteBegins_own : siteView i (siteBegins s i) = viewBegun (siteView i s) := by
  cases hsite : capSiteAt s i with
  | none => simp [siteBegins, viewBegun, siteView, hsite]
  | some x =>
    by_cases hvalid : x.valid = true
    · have hview : viewBegun (siteView i s) = (some (begunSite (siteRetired s x) s.clasp x), (siteView i s).2) := by
        simp [viewBegun, siteView, hsite, hvalid]
      cases hret : siteRetired s x with
      | none =>
        rw [hview, hret, ← freshSite_begun, ← setCapSite_view_same hsite]
        simp [siteBegins, hsite, hvalid, hret]
      | some n =>
        rw [hview, hret, ← untestedSite_begun, ← siteUntested_view_same hsite]
        simp [siteBegins, hsite, hvalid, hret]
    · simp [siteBegins, viewBegun, siteView, hsite, hvalid]

theorem sitesBegin_sitesOnly : SitesOnly s (sitesBegin s) := by
  rw [sitesBegin_eq]
  exact List.foldlRecOn _ _ .refl fun _ h _ _ => h.trans siteBegins_sitesOnly

/-- A valid site after a start-of-test (R309). -/
theorem sitesBegin_site (h : capSiteAt s i = some x) (hvalid : x.valid = true) :
    capSiteAt (sitesBegin s) i = some (begunSite (siteRetired s x) s.clasp x) := by
  obtain ⟨hlt, -⟩ := List.getElem?_eq_some_iff.1 h
  have hview := foldl_observed (s := s) (obs := siteView i) (fun _ _ => siteBegins_other) (fun _ => siteBegins_own)
    List.nodup_range (List.mem_range.2 hlt)
  refine (congrArg Prod.fst (sitesBegin_eq ▸ hview)).trans ?_
  simp [viewBegun, siteView, h, hvalid]

/-! The turns of an ABORT. -/

/-- Site i's turn when every site that has not ended becomes UNTESTED. -/
def siteStops (reason clu : Nat) (s : State) (i : Nat) : State :=
  match capSiteAt s i with
  | some x => if x.active then siteUntested i reason clu x s else s
  | none => s

theorem sitesUntested_eq {reason clu : Nat} :
    sitesUntested reason clu s = (List.range s.cap.sites.length).foldl (siteStops reason clu) s := rfl

/-- What the turn makes of what it reads. -/
def viewStopped (reason clu : Nat) (v : Option CapSite × (Nat × (CapSite → Option Nat))) :
    Option CapSite × (Nat × (CapSite → Option Nat)) :=
  (v.1.map fun x => if x.active then untestedSite reason clu v.2.1 x else x, v.2)

theorem siteStops_cases {reason clu : Nat} : siteStops reason clu s i = s ∨
    ∃ x, capSiteAt s i = some x ∧ x.active = true ∧ siteStops reason clu s i = siteUntested i reason clu x s := by
  unfold siteStops
  split
  · rename_i x hsite
    split
    · rename_i hactive
      exact .inr ⟨x, hsite, hactive, rfl⟩
    · exact .inl rfl
  · exact .inl rfl

theorem siteStops_other {reason clu : Nat} (hne : j ≠ i) : siteView i (siteStops reason clu s j) = siteView i s := by
  rcases siteStops_cases (s := s) (i := j) (reason := reason) (clu := clu) with h | ⟨y, -, -, h⟩ <;> rw [h]
  exact siteUntested_view_ne hne

theorem siteStops_own {reason clu : Nat} : siteView i (siteStops reason clu s i) = viewStopped reason clu (siteView i s) := by
  unfold siteStops viewStopped
  cases hsite : capSiteAt s i with
  | none => simp [siteView, hsite]
  | some x =>
    dsimp only
    by_cases hactive : x.active = true
    · rw [if_pos hactive, siteUntested_view_same hsite]
      simp [siteView, hsite, hactive]
    · simp [siteView, hsite, hactive]

theorem sitesUntested_site {reason clu : Nat} (h : capSiteAt s i = some x) :
    capSiteAt (sitesUntested reason clu s) i = some (if x.active then untestedSite reason clu s.clasp x else x) := by
  obtain ⟨hlt, -⟩ := List.getElem?_eq_some_iff.1 h
  have hview := foldl_observed (s := s) (obs := siteView i) (fun _ _ => siteStops_other (reason := reason) (clu := clu))
    (fun _ => siteStops_own) List.nodup_range (List.mem_range.2 hlt)
  refine (congrArg Prod.fst (sitesUntested_eq ▸ hview)).trans ?_
  simp [viewStopped, siteView, h]

end Sys2Proof.Machine
end

section
/-! ### A start-of-test (R303, R309, R316, R320) -/

namespace Sys2Proof.Machine

variable {s : State} {f : Nat} {tf : Option Nat}

theorem setCapState_state {v : Nat} (h : v < 8) : capState (setCapState v s) = v :=
  (State.rf_setRf_same _ _ _ _ _ _ (by decide)).trans (Nat.mod_eq_of_lt h)

/-- The start time of a flow: TF of a ring START, else START_LEAD from now, to a multiple of 8 ticks (R309, R316). -/
def flowTime (tf : Option Nat) (s : State) : Nat := match tf with | some x => x | none => (s.clasp + s.cap.lead + 7) / 8 * 8

/-- RUN is shown, and the flow has its number. -/
def flowCounted (s : State) : State := ((setCapState 3 s).setRf .CAP_STAT 0 10 2 0).countWrap .CAP_FLOWNO 0 32

/-- Cap's record with nothing of an earlier flow left, at a start-of-test at `now`. -/
def capFresh (now : Nat) (c : Cap) : Cap :=
  { c with run := none, decided := none, dlog := [], written := 0, aborted := false, phase := 0, sotAt := now }

/-- The life record's counter of flows counts. -/
def lifeStarted (s : State) : State := { s with life := tabSet 0 s.life 24 (satInc (2 ^ 32 - 1) (tabGet 0 s.life 24)) }

theorem lifeStarted_reg {r : Reg} {i : Nat} : (lifeStarted s).reg r i = s.reg r i := rfl
theorem lifeStarted_cap : (lifeStarted s).cap = s.cap := rfl
theorem lifeStarted_clasp : (lifeStarted s).clasp = s.clasp := rfl
theorem lifeStarted_life : (lifeStarted s).life = tabSet 0 s.life 24 (satInc 4294967295 (tabGet 0 s.life 24)) := rfl

/-- The flow has its number and TF f, is counted, and nothing of an earlier flow is left. -/
def flowNoted (f : Nat) (s : State) : State :=
  lifeStarted (modCap (capFresh s.clasp) ((flowCounted s).setPair .CAP_TF_LO .CAP_TF_HI 0 f))

theorem modCap_reg {g : Cap → Cap} {r : Reg} {i : Nat} : (modCap g s).reg r i = s.reg r i := rfl

theorem flowNoted_shown {r : Reg} {i : Nat} :
    (flowNoted f s).reg r i = ((flowCounted s).setPair .CAP_TF_LO .CAP_TF_HI 0 f).reg r i :=
  lifeStarted_reg.trans modCap_reg

theorem flowNoted_counted {r : Reg} {i : Nat} (h : r ∉ [.CAP_TF_LO, .CAP_TF_HI]) :
    (flowNoted f s).reg r i = (flowCounted s).reg r i := by
  simp only [List.mem_cons, List.not_mem_nil, or_false, not_or] at h
  obtain ⟨hlo, hhi⟩ := h
  rw [flowNoted_shown, State.setPair, State.reg_setReg, if_neg fun e => hhi e.1, State.reg_setReg, if_neg fun e => hlo e.1]

theorem flowNoted_cap : (flowNoted f s).cap = capFresh s.clasp s.cap := lifeStarted_cap
theorem flowNoted_clasp : (flowNoted f s).clasp = s.clasp := lifeStarted_clasp
theorem flowNoted_life : (flowNoted f s).life = tabSet 0 s.life 24 (satInc 4294967295 (tabGet 0 s.life 24)) := lifeStarted_life

/-- Calibration steps of the flow's clusters are abandoned, and a master sends START to the ring. -/
def flowOpened (tf : Option Nat) (s : State) : State :=
  let ready := capClusters calAbandon (flowNoted (flowTime tf s) s)
  if capMaster s ∧ tf = none then ringStartSend (flowTime tf s) ready else ready

theorem capBegin_eq : capBegin tf s =
    capNext (sitesBegin (dlogAdd (flowRec (flowOpened tf s) 3 0 (flowTime tf s)) (flowOpened tf s))) := rfl

theorem flowOpened_changes : Upd (partSet [.chans, .ring, .cal]) (regSet [.CL_CAL_STAT, .CL_CAL_EVT]) atAll
    (flowNoted (flowTime tf s) s) (flowOpened tf s) := by
  have hready : Upd (partSet [.chans, .ring, .cal]) (regSet [.CL_CAL_STAT, .CL_CAL_EVT]) atAll
      (flowNoted (flowTime tf s) s) (capClusters calAbandon (flowNoted (flowTime tf s) s)) :=
    capClusters_upd (fun _ _ h => calAbandon_upd h (by decide) (by decide) fun _ => trivial) Upd.refl
  exact Upd.ite (ringStartSend_upd hready (by decide)) hready

/-- What follows changes beside Cap's record only Cap's state and events. -/
theorem capBegin_changes : Upd (partSet [.chans, .cap, .ring, .cal])
    (regSet [.CAP_STAT, .CAP_EVT, .CL_CAL_STAT, .CL_CAL_EVT]) atAll (flowNoted (flowTime tf s) s) (capBegin tf s) := by
  rw [capBegin_eq]
  exact capNext_upd (sitesBegin_upd (dlogAdd_upd (flowOpened_changes.mono (by decide) (by decide)) (by decide)) (by decide)
    (by decide)) (by decide)

theorem capBegin_clasp : (capBegin tf s).clasp = s.clasp := (capBegin_changes.parts .clasp (by decide)).trans flowNoted_clasp
theorem capBegin_life : (capBegin tf s).life = tabSet 0 s.life 24 (satInc 4294967295 (tabGet 0 s.life 24)) :=
  (capBegin_changes.parts .life (by decide)).trans flowNoted_life

theorem capBegin_reg {r : Reg} {i : Nat} (h : r ∉ [.CAP_STAT, .CAP_EVT, .CL_CAL_STAT, .CL_CAL_EVT]) :
    (capBegin tf s).reg r i = (flowNoted (flowTime tf s) s).reg r i := capBegin_changes.reg r i (testBit_regSet h)

theorem flowNoted_reg {r : Reg} {i : Nat} (h : r ∉ [.CAP_STAT, .CAP_FLOWNO, .CAP_TF_LO, .CAP_TF_HI]) :
    (flowNoted f s).reg r i = s.reg r i := by
  simp only [List.mem_cons, List.not_mem_nil, or_false, not_or] at h
  obtain ⟨hstat, hno, hlo, hhi⟩ := h
  rw [flowNoted_counted (by simp [hlo, hhi]), flowCounted, State.countWrap, State.reg_setRf, if_neg fun e => hno e.1,
    State.reg_setRf, if_neg fun e => hstat e.1, setCapState, State.reg_setRf, if_neg fun e => hstat e.1]

theorem flowNoted_flowno : (flowNoted f s).reg .CAP_FLOWNO 0 = s.reg .CAP_FLOWNO 0 + 1#32 := by
  rw [flowNoted_counted (by decide), flowCounted, State.reg_countWrap_word, State.reg_setRf, if_neg (by decide), setCapState,
    State.reg_setRf, if_neg (by decide)]
  rfl

theorem flowNoted_tf : (flowNoted f s).pair .CAP_TF_LO .CAP_TF_HI 0 = f % 2 ^ 64 := by
  rw [← ofWords_lo_hi, State.pair, flowNoted_shown, flowNoted_shown, State.setPair, State.reg_setReg_same, State.reg_setReg,
    if_neg (by decide), State.reg_setReg_same]

theorem flowNoted_state : capState (flowNoted f s) = 3 := by
  rw [capState, State.rf, flowNoted_counted (by decide), flowCounted, State.countWrap, State.reg_setRf, if_neg (by decide),
    ← State.rf, State.rf_setRf_apart _ _ _ _ _ _ _ _ _ (by decide) (by decide)]
  exact State.rf_setRf_same _ _ _ _ _ _ (by decide)

theorem capBegin_tf (h : flowTime tf s < 2 ^ 64) : (capBegin tf s).pair .CAP_TF_LO .CAP_TF_HI 0 = flowTime tf s := by
  rw [State.pair, capBegin_reg (by decide), capBegin_reg (by decide), ← State.pair, flowNoted_tf, Nat.mod_eq_of_lt h]

/-- The flow as its sites find it: FLOW_START is its first datalog record. -/
def flowLogged (tf : Option Nat) (s : State) : State := dlogAdd (flowRec (flowOpened tf s) 3 0 (flowTime tf s)) (flowOpened tf s)

theorem capNext_cap : (capNext s).cap = s.cap := by unfold capNext; split <;> rfl

theorem flowOpened_cap : (flowOpened tf s).cap = (flowNoted (flowTime tf s) s).cap := flowOpened_changes.parts .cap (by decide)

theorem flowLogged_reg {r : Reg} {i : Nat} (h : r ∉ [.CL_CAL_STAT, .CL_CAL_EVT]) :
    (flowLogged tf s).reg r i = (flowNoted (flowTime tf s) s).reg r i :=
  modCap_reg.trans (flowOpened_changes.reg r i (testBit_regSet h))

theorem flowLogged_cap : (flowLogged tf s).cap =
    { capFresh s.clasp s.cap with dlog := [flowRec (flowOpened tf s) 3 0 (flowTime tf s)] } := by
  rw [flowLogged, dlogAdd, modCap, flowOpened_cap, flowNoted_cap]; rfl

theorem flowRec_begun : flowRec (flowOpened tf s) 3 0 (flowTime tf s) = flowRec (capBegin tf s) 3 0 (flowTime tf s) :=
  flowRec_congr ((flowOpened_changes.reg _ _ (by decide)).trans (capBegin_reg (by decide)).symm)
    ((flowOpened_changes.reg _ _ (by decide)).trans (capBegin_reg (by decide)).symm)

/-- Cap's record after a start-of-test. -/
theorem capBegin_cap : ∃ l xs, (capBegin tf s).cap = { s.cap with
    run := none, decided := none, dlog := flowRec (capBegin tf s) 3 0 (flowTime tf s) :: l, written := 0, aborted := false,
    phase := 0, sotAt := s.clasp, sites := xs } := by
  obtain ⟨l, xs, hsites⟩ := sitesBegin_sitesOnly (s := flowLogged tf s)
  refine ⟨l, xs, ?_⟩
  rw [← flowRec_begun, capBegin_eq, capNext_cap, ← flowLogged, hsites, flowLogged_cap]
  rfl

/-- RUN while a site is active, else FINISH. -/
theorem capNext_state (h : capState s = 3) :
    capState (capNext s) = if (capNext s).cap.sites.any fun x => x.active then 3 else 4 := by
  rw [capNext_cap, capNext]
  split
  · exact h
  · exact setCapState_state (by decide)

theorem capBegin_state : capState (capBegin tf s) = if (capBegin tf s).cap.sites.any fun x => x.active then 3 else 4 := by
  have hstat : (sitesBegin (flowLogged tf s)).reg .CAP_STAT 0 = (flowNoted (flowTime tf s) s).reg .CAP_STAT 0 := by
    have hbegun := sitesBegin_upd (C := atAll) (K := partSet [.cap]) (R := regSet [.CAP_EVT]) (Upd.refl (s := flowLogged tf s))
      (by decide) (by decide)
    exact (hbegun.reg _ _ (by decide)).trans (flowLogged_reg (by decide))
  rw [capBegin_eq]
  exact capNext_state ((capState_congr hstat).trans flowNoted_state)

/-- A start-of-test begins a flow (R309, R316, R320). -/
theorem capBegin_begun (h : flowTime tf s < 2 ^ 64) : FlowBegun (flowTime tf s) s (capBegin tf s) := by
  obtain ⟨l, xs, hcap⟩ := capBegin_cap (tf := tf) (s := s)
  refine ⟨capBegin_tf h, (capBegin_reg (by decide)).trans flowNoted_flowno, ?_, ?_, ?_, ?_, ?_, ?_, capBegin_state⟩
  · rw [hcap]
  · rw [hcap]
  · rw [hcap]
  · rw [hcap, capBegin_clasp]
  · rw [hcap]; rfl
  · rw [capBegin_life, tabGet_tabSet_same]

/-- The sites as a flow begins (R309). -/
theorem capBegin_site (i : Nat) : SiteBegun s.cap.sites i s (capBegin tf s) := by
  intro x hx hvalid
  have hsites : (flowLogged tf s).cap.sites = s.cap.sites := by rw [flowLogged_cap]; rfl
  have hclasp : (flowLogged tf s).clasp = s.clasp := (flowOpened_changes.parts .clasp (by decide)).trans flowNoted_clasp
  have hret : siteRetired (flowLogged tf s) = siteRetired s :=
    siteRetired_congr ((flowLogged_reg (by decide)).trans (flowNoted_reg (by decide)))
      fun _ => (flowLogged_reg (by decide)).trans (flowNoted_reg (by decide))
  have hsite := sitesBegin_site (s := flowLogged tf s) (by rw [capSiteAt, hsites]; exact Option.mem_toList.1 hx) hvalid
  rw [capBegin_clasp, capSiteAt, capBegin_eq, capNext_cap, ← flowLogged, ← capSiteAt, hsite, hret, hclasp]
  rfl

end Sys2Proof.Machine
end

section
/-! ### ABORT (R317, R404) -/

namespace Sys2Proof.Machine

variable {K R : Nat} {C : Nat → Nat → Prop} {s0 s u : State} {i : Nat} {x : CapSite}

/-- With ROLE MASTER an ABORT also goes round the ring. -/
def ringTold (s u : State) : State := (if capMaster s then ringAbortReq else id) u

theorem capAbort_waiting (h : capState s = 1 ∨ capState s = 2) : capAbort s = ringTold s (setCapState 0 s) := by
  unfold capAbort
  rcases h with h | h <;> rw [h] <;> rfl

theorem capAbort_flow (h : 3 ≤ capState s) : capAbort s = ringTold s (flowStop 8 255 s) := by
  unfold capAbort
  split
  · omega
  · omega
  · omega
  · rfl

theorem ringTold_upd (h : Upd K R C s0 u) (hk : partSet [.ring] ||| K = K) : Upd K R C s0 (ringTold s u) := by
  unfold ringTold
  split
  · exact ringAbortReq_upd h (sub_of (by decide) hk)
  · exact h

theorem ringTold_changes : Upd (partSet [.ring]) 0 atNone u (ringTold s u) := ringTold_upd Upd.refl (by decide)

theorem ringTold_cap : (ringTold s u).cap = u.cap := ringTold_changes.parts .cap (by decide)
theorem ringTold_state : capState (ringTold s u) = capState u := capState_congr (ringTold_changes.reg _ _ (Nat.zero_testBit _))

/-- A master's ABORT is requested at the ring whatever else it did to Cap and the clusters (R404). -/
theorem ringTold_ring {K R : Nat} {C : Nat → Nat → Prop} (h : Upd K R C s u)
    (hk : ∀ p ∈ [Part.ring, .clasp], K.testBit p.ctorIdx = false) (hr : R.testBit (Reg.ctorIdx .RING_STAT) = false)
    (hmaster : capMaster s = true) (hring : 2 ≤ ringState s) (hnone : s.ring.abortAt = none) :
    (ringTold s u).ring.abortAt = some s.clasp := by
  have hsame : u.ring = s.ring := h.parts .ring (hk _ (by decide))
  have hclasp : u.clasp = s.clasp := h.parts .clasp (hk _ (by decide))
  have hstate : ringState u = ringState s := ringState_congr (h.reg _ _ hr)
  rw [ringTold, if_pos hmaster, ringAbortReq, if_neg (by omega), hsame, hnone]
  exact congrArg some hclasp

/-- The running clusters of the flow have their ABORT. -/
def clustersStopped (s : State) : State := capClusters (fun n s => if seqIdle s n then s else abortSeq n 2 80 s) s

theorem clustersStopped_changes : Upd (partSet [.chans, .seqs]) (regSet [.CL_MR_STAT]) atAll s (clustersStopped s) := by
  refine capClusters_upd (fun n v h => ?_) Upd.refl
  split
  · exact h
  · exact abortSeq_upd h (by decide) (by decide) fun _ => trivial

theorem flowStop_changes {reason clu : Nat} : Upd (partSet [.chans, .seqs, .cap])
    (regSet [.CAP_STAT, .CAP_EVT, .CL_MR_STAT]) atAll s (flowStop reason clu s) := flowStop_upd Upd.refl (by decide) (by decide) fun _ _ => trivial

theorem flowStop_state {reason clu : Nat} : capState (flowStop reason clu s) = 4 := setCapState_state (by decide)

theorem flowStop_cap {reason clu : Nat} : (flowStop reason clu s).cap.run = none ∧ (flowStop reason clu s).cap.aborted = true :=
  ⟨rfl, rfl⟩

theorem flowStop_sites {reason clu : Nat} :
    (flowStop reason clu s).cap.sites = (sitesUntested reason clu (clustersStopped s)).cap.sites := rfl

theorem flowStop_site {reason clu : Nat} (h : capSiteAt s i = some x) :
    capSiteAt (flowStop reason clu s) i = some (if x.active then untestedSite reason clu s.clasp x else x) := by
  have hcap : (clustersStopped s).cap = s.cap := clustersStopped_changes.parts .cap (by decide)
  have hclasp : (clustersStopped s).clasp = s.clasp := clustersStopped_changes.parts .clasp (by decide)
  rw [capSiteAt, flowStop_sites, ← capSiteAt, sitesUntested_site (x := x) (by rw [capSiteAt, hcap]; exact h), hclasp]

end Sys2Proof.Machine
end

section
/-! ### GO and ABORT as commands (R308, R317) -/

namespace Sys2Proof.Machine

variable {K R : Nat} {C : Nat → Nat → Prop} {s : State} {q : Req} {d set : Word} {t i : Nat} {x : CapSite}

theorem cmdWrite_capCtrl_accepted (h : Accepted q .CAP_CTRL 0 (d ||| set) s) :
    cmdWrite q .CAP_CTRL 0 d set s = capCtrlWrite (d ||| set) 0xFFFFFFFF#32 s := by
  obtain ⟨s', hput, hwrite⟩ := cmdWrite_global (by decide) rfl (by decide) h
  cases hput
  exact hwrite

/-- CAP_CTRL as a command stores it. -/
def capCtrlHeld (w : Word) (s : State) : State := plainWrite .CAP_CTRL 0 w 0xFFFFFFFF#32 s

theorem capCtrlHeld_reg {w : Word} {r : Reg} {i : Nat} (h : r ≠ .CAP_CTRL) : (capCtrlHeld w s).reg r i = s.reg r i := by
  rw [capCtrlHeld, plainWrite_reg, if_neg fun e => h e.1]

theorem capCtrlHeld_clasp {w : Word} : (capCtrlHeld w s).clasp = s.clasp := rfl

theorem capCtrlHeld_state {w : Word} : capState (capCtrlHeld w s) = capState s := capState_congr (capCtrlHeld_reg (by decide))

theorem capCtrlHeld_master {w : Word} : capMaster (capCtrlHeld w s) = decide (fld w 6 2 = 1) := by
  have hfld : fld (plainWord s .CAP_CTRL 0 w 0xFFFFFFFF#32) 6 2 = fld w 6 2 :=
    fld_plainWord _ _ _ _ _ _ (by decide) (by decide) (by decide)
  rw [capMaster, State.rf, capCtrlHeld, plainWrite, State.reg_setReg_same, hfld]

theorem capCtrlHeld_upd {K R : Nat} {C : Nat → Nat → Prop} {s0 : State} {w : Word} (h : Upd K R C s0 s)
    (hr : R.testBit (Reg.ctorIdx .CAP_CTRL) = true) : Upd K R C s0 (capCtrlHeld w s) := plainWrite_upd h hr (RegOk.glob rfl)

theorem execCapGo_accepted (h : Accepted q .CAP_CTRL 0 (d ||| 1#32) (s.at t)) (hno : bitOf d 1 = false) :
    exec (.capGo t q d) s = .next (capGo (capCtrlHeld (d ||| 1#32) (s.at t))) := by
  refine congrArg Host.Outcome.next ((cmdWrite_capCtrl_accepted h).trans ?_)
  have hgo : ones (d ||| 1#32) 0xFFFFFFFF#32 0 = true := by rw [ones_full, bitOf_or]; simp [bitOf]
  have habort : ¬ ones (d ||| 1#32) 0xFFFFFFFF#32 1 = true := by rw [ones_full, bitOf_or, hno]; decide
  exact (if_neg habort).trans (if_pos hgo)

theorem execCapAbort_accepted (h : Accepted q .CAP_CTRL 0 (d ||| 2#32) (s.at t)) (hno : bitOf d 0 = false) :
    exec (.capAbort t q d) s = .next (capAbort (capCtrlHeld (d ||| 2#32) (s.at t))) := by
  refine congrArg Host.Outcome.next ((cmdWrite_capCtrl_accepted h).trans ?_)
  have hgo : ¬ ones (d ||| 2#32) 0xFFFFFFFF#32 0 = true := by rw [ones_full, bitOf_or, hno]; decide
  have habort : ones (d ||| 2#32) 0xFFFFFFFF#32 1 = true := by rw [ones_full, bitOf_or]; simp [bitOf]
  exact (if_pos habort).trans (congrArg capAbort (if_neg hgo))

/-- A GO of an idle Cap (R308). -/
theorem capGo_holds (hacc : Accepted q .CAP_CTRL 0 (d ||| 1#32) (s.at t)) (hno : bitOf d 1 = false) (hidle : capState s = 0) :
    ∃ s', exec (.capGo t q d) s = .next s' ∧ capState s' = 1 ∧ s'.rf .CAP_STAT 0 3 8 = 0 ∧
      Frame [.clasp] [.CAP_CTRL, .CAP_STAT] atNone s s' := by
  have hgo : capGo (capCtrlHeld (d ||| 1#32) (s.at t)) =
      (setCapState 1 (capCtrlHeld (d ||| 1#32) (s.at t))).setRf .CAP_STAT 0 3 8 0 :=
    if_pos (capCtrlHeld_state.trans (capState_at.trans hidle))
  have hupd : Upd (partSet [.clasp]) (regSet [.CAP_CTRL, .CAP_STAT]) atNone s (capGo (capCtrlHeld (d ||| 1#32) (s.at t))) :=
    capGo_upd (capCtrlHeld_upd (State.at_upd Upd.refl (by decide)) (by decide)) (by decide)
  refine ⟨_, execCapGo_accepted hacc hno, ?_, ?_, hupd.listed (Nat.or_self _) (Nat.or_self _)⟩
  · rw [hgo, capState, State.rf_setRf_apart _ _ _ _ _ _ _ _ _ (by decide) (by decide)]
    exact setCapState_state (by decide)
  · rw [hgo, State.rf_setRf_same _ _ _ _ _ _ (by decide), Nat.zero_mod]

/-- An ABORT of a Cap that is not idle (R317, R404). -/
theorem capAbort_holds (hacc : Accepted q .CAP_CTRL 0 (d ||| 2#32) (s.at t)) (hno : bitOf d 0 = false)
    (hbusy : capState s ≠ 0) (hsite : capSiteAt s i = some x) :
    ∃ s', exec (.capAbort t q d) s = .next s' ∧
      (if capState s < 3 then capState s' = 0 ∧ s'.cap = s.cap ∧ Frame [.clasp, .ring] [.CAP_CTRL, .CAP_STAT] atNone s s'
       else capState s' = 4 ∧ s'.cap.aborted = true ∧ s'.cap.run = none ∧
        (if x.active then capSiteAt s' i = some { x with
          active := false, untested := some (8, 255), bins := none, ended := some (s.at t).clasp } else capSiteAt s' i = some x) ∧
        Frame [.clasp, .chans, .seqs, .cap, .ring] [.CAP_CTRL, .CAP_STAT, .CAP_EVT, .CL_MR_STAT] atAll s s') ∧
      (2 ≤ ringState s → fld d 6 2 = 1 → s.ring.abortAt = none → s'.ring.abortAt = some (s.at t).clasp) := by
  refine ⟨_, execCapAbort_accepted hacc hno, ?_⟩
  generalize hheld : capCtrlHeld (d ||| 2#32) (s.at t) = u
  have hstate : capState u = capState s := hheld ▸ capCtrlHeld_state.trans capState_at
  have hheldUpd : ∀ C, Upd (partSet [.clasp]) (regSet [.CAP_CTRL]) C s u := fun C =>
    hheld ▸ capCtrlHeld_upd (State.at_upd Upd.refl (by decide)) (by decide)
  have hupd := hheldUpd atNone
  have hclasp : u.clasp = (s.at t).clasp := hheld ▸ capCtrlHeld_clasp
  have hcap : u.cap = s.cap := hupd.parts .cap (by decide)
  have hmaster : fld d 6 2 = 1 → capMaster u = true := fun h => by
    rw [← hheld, capCtrlHeld_master, fld_or_apart _ _ _ _ (by decide), h]; rfl
  have hring : u.ring = s.ring ∧ ringState u = ringState s :=
    ⟨hupd.parts .ring (by decide), ringState_congr (hupd.reg _ _ (by decide))⟩
  by_cases hwait : capState s < 3
  · rw [if_pos hwait, capAbort_waiting (by omega)]
    refine ⟨⟨?_, ?_, ?_⟩, fun h2 hrole hnone => ?_⟩
    · rw [ringTold_state, setCapState_state (by decide)]
    · rw [ringTold_cap]; exact hcap
    · refine Upd.listed (K := partSet [.clasp, .ring]) (R := regSet [.CAP_CTRL, .CAP_STAT]) ?_ (Nat.or_self _) (Nat.or_self _)
      exact ringTold_upd (setCapState_upd (hupd.mono (by decide) (by decide)) (by decide)) (by decide)
    · rw [← hclasp]
      exact ringTold_ring (setCapState_upd (C := atNone) (K := 0) (R := regSet [.CAP_STAT]) Upd.refl (by decide)) (by decide)
        (by decide) (hmaster hrole) (hring.2.symm ▸ h2) (hring.1.symm ▸ hnone)
  · rw [if_neg hwait, capAbort_flow (by omega)]
    refine ⟨⟨?_, ?_, ?_, ?_, ?_⟩, fun h2 hrole hnone => ?_⟩
    · rw [ringTold_state, flowStop_state]
    · rw [ringTold_cap, flowStop_cap.2]
    · rw [ringTold_cap, flowStop_cap.1]
    · have hstops := flowStop_site (reason := 8) (clu := 255) (s := u) (i := i) (x := x) (by rw [capSiteAt, hcap]; exact hsite)
      rw [capSiteAt, ringTold_cap, ← capSiteAt, hstops, hclasp]
      split <;> rfl
    · refine Upd.listed (K := partSet [.clasp, .chans, .seqs, .cap, .ring])
        (R := regSet [.CAP_CTRL, .CAP_STAT, .CAP_EVT, .CL_MR_STAT]) ?_ (Nat.or_self _) (Nat.or_self _)
      exact ringTold_upd (((hheldUpd atAll).mono (by decide) (by decide)).trans (flowStop_changes.mono (by decide) (by decide)))
        (by decide)
    · rw [← hclasp]
      exact ringTold_ring flowStop_changes (by decide) (by decide) (hmaster hrole) (hring.2.symm ▸ h2) (hring.1.symm ▸ hnone)

end Sys2Proof.Machine
end

section
/-! ### The end of CHECK, and the poll, as commands (R308, R309, R316, R318) -/

namespace Sys2Proof.Machine

variable {s a b : State} {t f i : Nat} {e : CapErr} {xs : List CapSite} {reply : List Byte}

/-- A flow's beginning, told from a state that agrees on the flow's number and the life record's count. -/
theorem FlowBegun.told_from (h : FlowBegun f a s) (hno : b.reg .CAP_FLOWNO 0 = a.reg .CAP_FLOWNO 0) (hlife : b.life = a.life) :
    FlowBegun f b s := by
  unfold FlowBegun at h ⊢
  rwa [hno, hlife]

theorem SiteBegun.told_from (h : SiteBegun xs i a s) (hret : siteRetired b = siteRetired a) : SiteBegun xs i b s := by
  unfold SiteBegun at h ⊢
  rwa [hret]

theorem execCapCheckDone_due (hup : slaveUp (s.at t) = true) (hcheck : capState s = 1) :
    exec (.capCheckDone t) s = .next (capChecked (s.at t)) :=
  congrArg Host.Outcome.next (if_pos ⟨hup, capState_at.trans hcheck⟩)

theorem capCheck_fails_holds (hup : slaveUp (s.at t) = true) (hcheck : capState s = 1) (herr : capCheck s = some e)
    (hcode : e.code < 32) :
    ∃ s', exec (.capCheckDone t) s = .next s' ∧ capState s' = 0 ∧ s'.rf .CAP_STAT 0 3 5 = e.code ∧
      s'.reg .CAP_ERRIDX 0 = BitVec.ofNat 32 e.idx ∧ s'.rb .CAP_EVT 0 2 = true ∧
      (e.read = none → s'.rb .CAP_STAT 0 10 = s.rb .CAP_STAT 0 10) ∧ (e.read ≠ none → s'.rb .CAP_STAT 0 10 = true) ∧
      Frame [.clasp, .msgs] (.CAP_STAT :: .CAP_ERRIDX :: .CAP_EVT :: refuseRegs) atNone s s' := by
  have hexec := execCapCheckDone_due hup hcheck
  rw [capChecked_fails (capCheck_at.trans herr)] at hexec
  refine ⟨_, hexec, checkFailed_idle, checkFailed_code hcode, checkFailed_index, checkFailed_event, fun hread => ?_,
    fun hread => ?_, (checkFailed_upd (State.at_upd Upd.refl (by decide)) (by decide) (Nat.or_self _)).listed
      (Nat.or_self _) (Nat.or_self _)⟩
  · rw [checkFailed_refused, hread, State.rb_at]; rfl
  · rw [checkFailed_refused, Option.isSome_iff_ne_none.2 hread]; rfl

/-- The tables are taken over, and a start-of-test is awaited. -/
def checkPassed (s : State) : State := setCapState 2 (capLoad s)

theorem capChecked_waits (h : capCheck s = none) (hsrc : sotSrc s ≠ 0) : capChecked s = checkPassed s := by
  unfold capChecked; rw [h]; exact if_neg hsrc
theorem capChecked_begins (h : capCheck s = none) (hsrc : sotSrc s = 0) : capChecked s = capBegin none (checkPassed s) := by
  unfold capChecked; rw [h]; exact if_pos hsrc

theorem checkPassed_upd {K R : Nat} {C : Nat → Nat → Prop} {s0 : State} (h : Upd K R C s0 s) (hk : partSet [.cap] ||| K = K)
    (hr : regSet [.CAP_STAT] ||| R = R) : Upd K R C s0 (checkPassed s) :=
  setCapState_upd (capLoad_upd h (sub_of (by decide) hk)) (sub_of (by decide) hr)

theorem checkPassed_changes : Upd (partSet [.cap]) (regSet [.CAP_STAT]) atNone s (checkPassed s) :=
  checkPassed_upd Upd.refl (by decide) (by decide)

theorem capCheck_waits_holds (hup : slaveUp (s.at t) = true) (hcheck : capState s = 1) (hpass : capCheck s = none)
    (hsrc : sotSrc s ≠ 0) :
    ∃ s', exec (.capCheckDone t) s = .next s' ∧ capState s' = 2 ∧ s'.cap.sites = mapSites s ∧
      Frame [.clasp, .cap] [.CAP_STAT] atNone s s' := by
  have hexec := execCapCheckDone_due hup hcheck
  rw [capChecked_waits (capCheck_at.trans hpass) (sotSrc_at.symm ▸ hsrc)] at hexec
  exact ⟨_, hexec, setCapState_state (by decide), mapSites_at,
    (checkPassed_upd (State.at_upd Upd.refl (by decide)) (by decide) (Nat.or_self _)).listed (Nat.or_self _) (Nat.or_self _)⟩

theorem capCheck_begins_holds (hup : slaveUp (s.at t) = true) (hcheck : capState s = 1) (hpass : capCheck s = none)
    (hsrc : sotSrc s = 0) (hf : f = ((s.at t).clasp + bf (s.bytes (flowAt s) 64) 20 8 + 7) / 8 * 8) (hlt : f < 2 ^ 64) :
    ∃ s', exec (.capCheckDone t) s = .next s' ∧ FlowBegun f s s' ∧ (∀ i : Nat, i < 768 → SiteBegun (mapSites s) i s s') ∧
      s'.cap.recAt = flowAt s + bf (s.bytes (flowAt s) 64) 12 4 ∧ s'.cap.limAt = flowAt s + bf (s.bytes (flowAt s) 64) 16 4 ∧
      Frame [.clasp, .chans, .cap, .ring, .cal, .life] flowRegs atAll s s' := by
  have hexec := execCapCheckDone_due hup hcheck
  rw [capChecked_begins (capCheck_at.trans hpass) (sotSrc_at.trans hsrc)] at hexec
  have hpassed := checkPassed_changes (s := s.at t)
  have htime : flowTime none (checkPassed (s.at t)) = f := by
    rw [hf, ← State.bytes_at (t := t), ← flowAt_at (t := t)]; rfl
  have hreg : ∀ r i, r ≠ .CAP_STAT → (checkPassed (s.at t)).reg r i = s.reg r i := fun r i hr =>
    (hpassed.reg r i (testBit_regSet (by simpa using hr))).trans (State.reg_at ..)
  obtain ⟨l, ys, hcap⟩ := capBegin_cap (tf := none) (s := checkPassed (s.at t))
  refine ⟨_, hexec, ?_, fun i _ => ?_, ?_, ?_, ?_⟩
  · rw [← htime] at hlt ⊢
    exact (capBegin_begun hlt).told_from (hreg _ _ (by decide)).symm
      ((hpassed.parts .life (by decide)).trans (State.life_at ..)).symm
  · have hsite := capBegin_site (tf := none) (s := checkPassed (s.at t)) i
    rw [show (checkPassed (s.at t)).cap.sites = mapSites s from mapSites_at] at hsite
    exact hsite.told_from (siteRetired_congr (hreg _ _ (by decide)).symm fun n => (hreg _ _ (by decide)).symm)
  · rw [hcap, ← State.bytes_at (t := t), ← flowAt_at (t := t)]; rfl
  · rw [hcap, ← State.bytes_at (t := t), ← flowAt_at (t := t)]; rfl
  · have hupd : Upd (partSet [.clasp, .chans, .cap, .ring, .cal, .life]) (regSet flowRegs) atAll s
        (capBegin none (checkPassed (s.at t))) :=
      capBegin_upd (checkPassed_upd (State.at_upd Upd.refl (by decide)) (by decide) (by decide)) (by decide) (by decide)
        fun _ _ => trivial
    exact hupd.listed (Nat.or_self _) (Nat.or_self _)

/-- The poll's frame has gone out, and what a poll in SLEEP read is no longer held. -/
def pollSent (s : State) : State :=
  modCap (fun c => { c with heldPoll := 0 }) ((modCap (fun c => { c with polled := s.clasp + 1 }) s).emit (.frame [1#8, 0#8]))

theorem pollSent_upd {K R : Nat} {C : Nat → Nat → Prop} {s0 : State} (h : Upd K R C s0 s) (hk : partSet [.cap, .out] ||| K = K) :
    Upd K R C s0 (pollSent s) :=
  modCap_upd (State.emit_upd (modCap_upd h (sub_of (by decide) hk)) (sub_of (by decide) hk)) (sub_of (by decide) hk)

theorem pollSent_changes : Upd (partSet [.cap, .out]) 0 atNone s (pollSent s) := pollSent_upd Upd.refl (by decide)

theorem pollSent_out : (pollSent s).out = .frame [1#8, 0#8] :: s.out := rfl
theorem pollSent_cap : (pollSent s).cap = { s.cap with polled := s.clasp + 1, heldPoll := 0 } := rfl

theorem execCapPoll_due (hup : slaveUp (s.at t) = true) (hactive : pwrState s = 2) (hwait : capState s = 2)
    (hsrc : sotSrc s = 1)
    (hdue : s.cap.polled = 0 ∨ s.cap.polled - 1 + max 1 (s.rf .CAP_PRB 0 16 16) * 8000 ≤ (s.at t).clasp)
    (hfree : s.rb .PSM_STAT 0 0 = false) :
    exec (.capPoll t reply) s = .next (pollAct ((bf reply 1 1 % 4) ||| s.cap.heldPoll) (pollSent (s.at t))) := by
  have hawake : ¬ pwrState (s.at t) = 3 := by rw [pwrState, State.rf_at, ← pwrState, hactive]; decide
  show execCapPoll t reply s = _
  unfold execCapPoll
  dsimp only
  rw [if_pos (by simp [hup, hwait, hsrc, hdue, hfree])]
  refine congrArg Host.Outcome.next ((if_neg hawake).trans ?_)
  rw [← State.cap_at s t]; rfl

/-- What a poll of a waiting Cap does. -/
theorem pollAct_changes {bits : Nat} (hwait : capState s = 2) : Upd (partSet [.chans, .cap, .ring, .cal, .life])
    (regSet flowRegs) atAll s (pollAct bits s) := by
  unfold pollAct capSot
  rw [capAbort_waiting (.inr hwait), if_pos hwait]
  refine Upd.ite ?_ (Upd.ite ?_ Upd.refl)
  · exact ringTold_upd (setCapState_upd Upd.refl (by decide)) (by decide)
  · exact capBegin_upd Upd.refl (by decide) (by decide) fun _ _ => trivial

theorem pollAct_polled {bits : Nat} (hwait : capState s = 2) : (pollAct bits s).cap.polled = s.cap.polled := by
  unfold pollAct capSot
  rw [capAbort_waiting (.inr hwait), if_pos hwait]
  split
  · rw [ringTold_cap]; rfl
  · split
    · obtain ⟨l, ys, hcap⟩ := capBegin_cap (tf := none) (s := s)
      rw [hcap]
    · rfl

/-- A poll of a Cap that waits for a start-of-test (R316 to R318). -/
theorem capPoll_holds {bits : Nat} (hbits : bits = (bf reply 1 1 % 4) ||| s.cap.heldPoll)
    (hf : f = ((s.at t).clasp + s.cap.lead + 7) / 8 * 8)
    (hup : slaveUp (s.at t) = true) (hactive : pwrState s = 2) (hwait : capState s = 2) (hsrc : sotSrc s = 1)
    (hdue : s.cap.polled = 0 ∨ s.cap.polled - 1 + max 1 (s.rf .CAP_PRB 0 16 16) * 8000 ≤ (s.at t).clasp)
    (hfree : s.rb .PSM_STAT 0 0 = false) (hlt : f < 2 ^ 64) :
    ∃ s', exec (.capPoll t reply) s = .next s' ∧ s'.out = .frame [1#8, 0#8] :: s.out ∧ s'.cap.polled = (s.at t).clasp + 1 ∧
      (bits / 2 % 2 = 1 → capState s' = 0) ∧
      (bits / 2 % 2 = 0 → bits % 2 = 1 → FlowBegun f s s' ∧ (∀ i : Nat, i < 768 → SiteBegun s.cap.sites i s s')) ∧
      (bits % 4 = 0 → capState s' = 2) ∧
      Frame [.clasp, .chans, .cap, .ring, .cal, .life, .out] flowRegs atAll s s' := by
  have hexec := execCapPoll_due (reply := reply) hup hactive hwait hsrc hdue hfree
  rw [← hbits] at hexec
  have hreg : ∀ r i, (pollSent (s.at t)).reg r i = s.reg r i := fun r i =>
    (pollSent_changes.reg r i (Nat.zero_testBit _)).trans (State.reg_at ..)
  have hout : (pollSent (s.at t)).out = .frame [1#8, 0#8] :: s.out := by rw [pollSent_out, State.out_at]
  have hlife : (pollSent (s.at t)).life = s.life :=
    (pollSent_changes.parts .life (by decide)).trans (State.life_at ..)
  have hcap : (pollSent (s.at t)).cap = { s.cap with polled := (s.at t).clasp + 1, heldPoll := 0 } := by
    rw [pollSent_cap, State.cap_at]
  have hclasp : (pollSent (s.at t)).clasp = (s.at t).clasp := pollSent_changes.parts .clasp (by decide)
  have hsent : Upd (partSet [.clasp, .cap, .out]) 0 atAll s (pollSent (s.at t)) :=
    pollSent_upd (State.at_upd Upd.refl (by decide)) (by decide)
  generalize pollSent (s.at t) = u at hexec hreg hout hlife hcap hclasp hsent
  have hstate : capState u = 2 := (capState_congr (hreg _ _)).trans hwait
  have hchanges := pollAct_changes (bits := bits) hstate
  refine ⟨_, hexec, (hchanges.parts .out (by decide)).trans hout, ?_, fun habort => ?_, fun hno hsot => ?_, fun hnone => ?_, ?_⟩
  · rw [pollAct_polled hstate, hcap]
  · rw [pollAct, if_pos habort, capAbort_waiting (.inr hstate), ringTold_state, setCapState_state (by decide)]
  · have hact : pollAct bits u = capBegin none u := by
      rw [pollAct, if_neg (by omega), if_pos hsot, capSot, if_pos hstate]
    have htime : flowTime none u = f := by rw [hf, ← hclasp, flowTime, hcap]
    rw [hact, ← htime]
    refine ⟨(capBegin_begun (htime ▸ hlt)).told_from (hreg _ _).symm hlife.symm, fun i _ => ?_⟩
    have hsite := capBegin_site (tf := none) (s := u) i
    rw [hcap] at hsite
    exact hsite.told_from (siteRetired_congr (hreg _ _).symm fun n => (hreg _ _).symm)
  · rw [pollAct, if_neg (by omega), if_neg (by omega), hstate]
  · exact ((hsent.mono (by decide) (by decide)).trans
      (hchanges.mono (K' := partSet [.clasp, .chans, .cap, .ring, .cal, .life, .out]) (R' := regSet flowRegs) (by decide)
        (by decide))).listed (Nat.or_self _) (Nat.or_self _)

/-- Settles O41, clause by clause: CHECK ends in `checkFailed`, `checkPassed` or a flow begun, an ABORT in `flowStop` or IDLE,
and a poll does what its bits say. -/
theorem capChecksStartsAndAborts : Obligations.CapChecksStartsAndAborts := by
  unfold Obligations.CapChecksStartsAndAborts
  exact ⟨fun _ _ _ _ hacc hno hidle => capGo_holds hacc hno hidle,
    fun _ _ _ hup hcheck herr hcode _ => capCheck_fails_holds hup hcheck herr hcode,
    fun _ _ hup hcheck hpass hsrc hlt => capCheck_begins_holds hup hcheck hpass hsrc rfl hlt,
    fun _ _ hup hcheck hpass hsrc => capCheck_waits_holds hup hcheck hpass hsrc,
    fun _ _ _ _ _ _ hacc hno hbusy hsite => capAbort_holds hacc hno hbusy hsite,
    fun _ _ _ hup hactive hwait hsrc hdue hfree hlt =>
      capPoll_holds rfl rfl hup hactive hwait hsrc hdue hfree hlt⟩

end Sys2Proof.Machine
end

/-! # Boot: obligation O56

SUPPORT. What reading the life record, giving ownership, loading a section and applying CONFIG entries leave comes first; then
the commands, each from those. -/

section
/-! ### The life record is read (R485) -/

namespace Sys2Proof.Machine

variable {s a b : State} {slots : List (List Byte)}

theorem lifeRead_changes : Upd (partSet [.life, .lifeHdr, .lifeSlot]) (regSet [.LR_SEQ, .LR_STAT, .LR_EVT]) atNone s
    (lifeRead slots s) := lifeRead_upd Upd.refl (by decide) (by decide)

theorem lifeRead_reg {r : Reg} {i : Nat} (h : r ∉ [.LR_SEQ, .LR_STAT, .LR_EVT]) : (lifeRead slots s).reg r i = s.reg r i :=
  lifeRead_changes.reg r i (testBit_regSet h)

theorem lifeRead_off (h : s.rb .LR_BASE 0 0 = false) : lifeRead slots s = s := by
  unfold lifeRead; rw [h]; rfl

theorem lifeRead_none (h : s.rb .LR_BASE 0 0 = true) (hbest : lifeBest slots = none) : lifeRead slots s =
    { s.setRb .LR_STAT 0 1 true with life := [], lifeSlot := 0 } := by
  unfold lifeRead
  rw [hbest]
  exact if_neg (by rw [h]; decide)

/-- The writer shows the good slot i with bytes d. -/
def lifeShown (i : Nat) (d : List Byte) (s : State) : State :=
  (((s.setReg .LR_SEQ 0 (BitVec.ofNat 32 (bf d 4 4))).setRb .LR_STAT 0 2 true).setRb .LR_EVT 0 2 true).setRf .LR_STAT 0 8 2 i

/-- The writer takes over the slot with its counters. -/
def lifeTaken (counts : List (Nat × Nat)) (i : Nat) (d : List Byte) (s : State) : State :=
  { lifeShown i d s with life := counts, lifeHdr := d.take 16, lifeSlot := (i + 1) % 4 }

theorem lifeShown_shown {i : Nat} {d : List Byte} : (lifeShown i d s).reg .LR_SEQ 0 = BitVec.ofNat 32 (bf d 4 4) ∧
    (lifeShown i d s).rb .LR_STAT 0 2 = true ∧ (lifeShown i d s).rb .LR_EVT 0 2 = true := by
  unfold lifeShown
  refine ⟨?_, ?_, ?_⟩
  · simp [State.reg_setRf, State.reg_setRb]
  · rw [State.rb_setRf_apart _ _ _ _ _ _ _ _ (by decide) (by decide), State.rb_setRb _ _ _ _ _ _ _ _ (by decide),
      if_neg (by decide), State.rb_setRb_same _ _ _ _ _ (by decide)]
  · rw [State.rb_setRf_apart _ _ _ _ _ _ _ _ (by decide) (by decide), State.rb_setRb_same _ _ _ _ _ (by decide)]

theorem lifeTaken_reg {counts : List (Nat × Nat)} {i : Nat} {d : List Byte} {r : Reg} {j : Nat} :
    (lifeTaken counts i d s).reg r j = (lifeShown i d s).reg r j := rfl

theorem lifeRead_some {i : Nat} {d : List Byte} (h : s.rb .LR_BASE 0 0 = true) (hbest : lifeBest slots = some (i, d)) :
    lifeRead slots s = lifeTaken (lifeLoad d) i d s := by
  simp only [lifeRead, h, hbest, Bool.not_true, Bool.false_eq_true, if_false, lifeTaken, lifeShown]

/-- The writer's part of boot (R485). -/
theorem lifeRead_reads : LifeRead slots s (lifeRead slots s) := by
  refine ⟨fun hoff => ?_, fun hon hbest => ?_, fun hon e he => ?_⟩
  · rw [lifeRead_off hoff]; exact ⟨rfl, rfl, rfl⟩
  · rw [lifeRead_none hon hbest]; exact ⟨State.rb_setRb_same _ _ _ _ _ (by decide), rfl, rfl⟩
  · rw [lifeRead_some hon (Option.mem_toList.1 he)]
    generalize lifeLoad e.2 = counts
    obtain ⟨hseq, hgood, hevt⟩ := lifeShown_shown (i := e.1) (d := e.2) (s := s)
    unfold State.rb at hgood hevt ⊢
    rw [lifeTaken_reg, lifeTaken_reg, lifeTaken_reg]
    exact ⟨hseq, hgood, hevt, rfl, rfl⟩

/-- The same told from a state before, since which what the writer holds has stayed. -/
theorem LifeRead.told_from {K R : Nat} {C : Nat → Nat → Prop} {s' : State} (h : LifeRead slots a s') (hupd : Upd K R C b a)
    (hk : ∀ p ∈ [Part.life, .lifeSlot], K.testBit p.ctorIdx = false)
    (hr : ∀ r ∈ [Reg.LR_BASE, .LR_SEQ], R.testBit r.ctorIdx = false) : LifeRead slots b s' := by
  have hlife : a.life = b.life := hupd.parts .life (hk _ (by decide))
  have hslot : a.lifeSlot = b.lifeSlot := hupd.parts .lifeSlot (hk _ (by decide))
  unfold LifeRead State.rb at h ⊢
  rwa [← hupd.reg .LR_BASE 0 (hr _ (by decide)), ← hupd.reg .LR_SEQ 0 (hr _ (by decide)), ← hlife, ← hslot]

end Sys2Proof.Machine
end

section
/-! ### Ownership (R492 step 3, R493) -/

namespace Sys2Proof.Machine

variable {s : State} {owner clu : Nat}

theorem bootOwners_changes : Upd 0 (regSet [.DOM_MGMT, .DOM_CLU]) atNone s (bootOwners owner clu s) :=
  bootOwners_upd Upd.refl (by decide)

theorem bootOwners_reg {r : Reg} {i : Nat} (h : r ∉ [.DOM_MGMT, .DOM_CLU]) : (bootOwners owner clu s).reg r i = s.reg r i :=
  bootOwners_changes.reg r i (testBit_regSet h)

theorem bootOwners_mgmt (h : owner < 8) : (bootOwners owner clu s).rf .DOM_MGMT 0 0 3 = owner := by
  unfold bootOwners
  refine List.foldlRecOn (motive := fun u : State => u.rf .DOM_MGMT 0 0 3 = owner) _ _ ?_ fun u hu n _ => ?_
  · rw [State.rf_setRf_same _ _ _ _ _ _ (by decide)]; exact Nat.mod_eq_of_lt h
  · rw [State.rf, State.reg_setRf, if_neg (by simp)]; exact hu

theorem bootOwners_clu (h : clu < 8) {n : Nat} (hn : n < 24) : (bootOwners owner clu s).rf .DOM_CLU n 0 3 = clu := by
  unfold bootOwners
  refine foldl_observed (obs := fun u : State => u.rf .DOM_CLU n 0 3) (g := fun _ => clu) (fun j u hj => ?_) (fun u => ?_)
    List.nodup_range (List.mem_range.2 hn)
  · rw [State.rf, State.reg_setRf, if_neg fun e => hj e.2.symm]; rfl
  · rw [State.rf_setRf_same _ _ _ _ _ _ (by decide)]; exact Nat.mod_eq_of_lt h

end Sys2Proof.Machine
end

section
/-! ### The image (R489, R490) -/

namespace Sys2Proof.Machine

variable {img : List Byte} {x : BootSec}

theorem imgSecs_one (h : imgNsec img = 1) : imgSecs img = [(0, bootSec img 0)] := by unfold imgSecs; rw [h]; rfl

theorem imgBytes_length (a len : Nat) : (imgBytes img a len).length = len := by
  unfold imgBytes
  rw [List.length_append, List.length_replicate, List.length_take]
  omega

theorem imgOwner_lt : imgOwner img < 8 := by
  unfold imgOwner
  dsimp only
  split <;> omega

/-- An accepted image's table meets R490. -/
theorem tableValid_of_good (h : imgErr img = 0) : tableValid img = true := by
  by_contra hbad
  have hnot : (!tableValid img) = true := by rw [Bool.eq_false_iff.2 hbad]; rfl
  unfold imgErr at h
  rw [if_pos hnot] at h
  split_ifs at h

theorem secValid_of_good (h : imgErr img = 0) (hone : imgNsec img = 1) : secValid img (bootSec img 0) = true := by
  have htable := tableValid_of_good h
  unfold tableValid at htable
  rw [imgSecs_one hone, Bool.and_eq_true, List.all_cons, Bool.and_eq_true] at htable
  exact htable.1.1

/-- A CONFIG section holds at most 4096 entries (R490, R491). -/
theorem configSec_len (h : imgErr img = 0) (hone : imgNsec img = 1) (htype : (bootSec img 0).type = 2) :
    (bootSec img 0).len ≤ 32768 := by
  have hvalid := secValid_of_good h hone
  unfold secValid at hvalid
  rw [htype, Bool.and_eq_true] at hvalid
  exact (of_decide_eq_true hvalid.2).2

theorem configOf_length : ∀ b : List Byte, (configOf b).length = b.length / 8
  | a0 :: a1 :: a2 :: a3 :: v0 :: v1 :: v2 :: v3 :: r => by
    rw [configOf, List.length_cons, configOf_length r]
    simp only [List.length_cons]
    omega
  | [] | [_] | [_, _] | [_, _, _] | [_, _, _, _] | [_, _, _, _, _] | [_, _, _, _, _, _] | [_, _, _, _, _, _, _] => by simp [configOf]

end Sys2Proof.Machine
end

section
/-! ### CONFIG entries (R491) -/

namespace Sys2Proof.Machine

variable {s : State} {l : List (Nat × Word)} {ok bad : Nat} {e : Nat × Word}

/-- Every entry is counted, as applied or as dropped. -/
theorem configRun_counts : (configRun l ok bad s).2.1 + (configRun l ok bad s).2.2 = ok + bad + l.length := by
  induction l generalizing ok bad s with
  | nil => rfl
  | cons e l ih =>
    unfold configRun
    dsimp only
    split <;> rw [ih, List.length_cons] <;> omega

/-- Entries that R491 shuts out are dropped, and change nothing. -/
theorem configRun_refused (h : ∀ e ∈ l, configRefused e.1 e.2 s = true) : configRun l ok bad s = (s, (ok, bad + l.length)) := by
  induction l generalizing ok bad with
  | nil => rfl
  | cons e l ih =>
    have hentry : configEntry e s = (s, false) := if_pos (h e (List.mem_cons_self ..))
    unfold configRun
    rw [hentry]
    dsimp only
    rw [if_neg (by decide), ih fun e' he => h e' (List.mem_cons_of_mem _ he), List.length_cons]
    congr 2; omega

theorem configRefused_of_address {w : Word} {a : Nat} (h : a % 4 ≠ 0 ∨ 0x2800000 ≤ a ∨ (0x1800 ≤ a ∧ a < 0x1C08)) :
    configRefused a w s = true := by
  unfold configRefused
  rcases h with h | h | h <;> simp [h]

/-- No entry reaches the boot store. -/
theorem configApply_boot : (configApply s).boot = s.boot :=
  (configApply_upd (K := 0xe639c05f0c5f7cc) (C := atAll) Upd.refl (Nat.or_self _) (Nat.or_self _) fun _ _ => trivial).parts .boot
    (by decide)

/-- BOOT_CFG_CNT counts at most 4096 entries without loss. -/
theorem configApply_counts (h : s.boot.config.length ≤ 4096) :
    (configApply s).rf .BOOT_CFG_CNT 0 0 16 = (configRun s.boot.config 0 0 s).2.1 ∧
      (configApply s).rf .BOOT_CFG_CNT 0 16 16 = (configRun s.boot.config 0 0 s).2.2 := by
  have hsum := configRun_counts (l := s.boot.config) (ok := 0) (bad := 0) (s := s)
  unfold configApply
  dsimp only
  rw [State.rf, State.rf, State.reg_setReg_same]
  generalize (configRun s.boot.config 0 0 s).2.1 = ok at *
  generalize (configRun s.boot.config 0 0 s).2.2 = bad at *
  unfold fld
  have hword : (65536 * bad + ok) % 2 ^ 32 = 65536 * bad + ok := Nat.mod_eq_of_lt (by omega)
  rw [BitVec.toNat_ofNat, hword]
  constructor
  · show (65536 * bad + ok) / 1 % 65536 = ok
    omega
  · have hhigh : (65536 * bad + ok) / 65536 = bad := by omega
    show (65536 * bad + ok) / 65536 % 65536 = bad
    omega

/-- An entry for CAP_LEAD is applied (R491): the owner that it counts as may write it. -/
theorem configEntry_capLead {w : Word} : configEntry (Reg.addr .CAP_LEAD 0, w) s =
    (plainWrite .CAP_LEAD 0 w 0xFFFFFFFF#32 s, true) := by
  have hreg : regAt (Reg.addr .CAP_LEAD 0) = some (.CAP_LEAD, 0) := by decide +kernel
  have hown : ∀ q : Req, isMgmt (s.setRf .DOM_MGMT 0 0 3 q.val) q = true := fun q => by
    have hq : q.val < 8 := by omega
    rw [isMgmt, State.rf_setRf_same _ _ _ _ _ _ (by decide), decide_eq_true_eq]
    exact Nat.mod_eq_of_lt hq
  have hcode : ∀ q : Req, refuseCode q (Reg.addr .CAP_LEAD 0) w 0xFFFFFFFF#32 (s.setRf .DOM_MGMT 0 0 3 q.val) = 0 := fun q => by
    unfold refuseCode
    rw [if_neg (by decide), if_neg (by decide), hreg]
    exact if_pos (hown q)
  have haccepted : ¬ configRefused (Reg.addr .CAP_LEAD 0) w s = true := by
    have hspace : ¬ (Reg.addr .CAP_LEAD 0 % 4 ≠ 0 ∨ 0x2800000 ≤ Reg.addr .CAP_LEAD 0) := by decide
    have hbooted : ¬ (0x1800 ≤ Reg.addr .CAP_LEAD 0 ∧ Reg.addr .CAP_LEAD 0 < 0x1C08) := by decide
    unfold configRefused
    dsimp only
    rw [decide_eq_false hspace, decide_eq_false hbooted, hcode]
    simp
  have hput : ∀ q : Req, regPut q (Reg.addr .CAP_LEAD 0) w 0xFFFFFFFF#32 s = .ok (plainWrite .CAP_LEAD 0 w 0xFFFFFFFF#32 s) :=
    fun q => regPut_global hreg (by decide) (by decide)
  have htouched : touched (Reg.addr .CAP_LEAD 0) = none := if_neg (by decide)
  refine (if_neg haccepted).trans ?_
  unfold regWrite
  rw [hput, htouched]

end Sys2Proof.Machine
end

section
/-! ### Sections (R492 step 2, R493) -/

namespace Sys2Proof.Machine

variable {s a b : State} {img bytes : List Byte} {x : BootSec} {i : Nat}

/-- Section i's bit in BOOT_SECERR where its SCRC does not agree. -/
def secMarked (ok : Bool) (i : Nat) (s : State) : State := if ok then s else secFail i s

theorem secMarked_changes {ok : Bool} : Upd 0 (regSet [.BOOT_SECERR]) atNone s (secMarked ok i s) :=
  Upd.ite Upd.refl (secFail_upd Upd.refl (by decide))

theorem secMarked_flag {ok : Bool} (hi : i < 32) : (secMarked ok i s).rb .BOOT_SECERR 0 i = (s.rb .BOOT_SECERR 0 i || !ok) := by
  unfold secMarked
  cases ok
  · rw [if_neg (by decide), secFail, State.rb_setRb_same _ _ _ _ _ hi]; simp
  · simp

theorem secLoad_library (h : x.type = 1) :
    secLoad img (i, x) s = secLibrary i (secBytes img x) (secMarked (secCrc img x) i s) := by
  unfold secLoad; dsimp only; rw [h]; rfl
theorem secLoad_config (h : x.type = 2) : secLoad img (i, x) s = if secCrc img x then
    modBoot (fun v => { v with config := configOf (secBytes img x) }) (secMarked (secCrc img x) i s)
      else secMarked (secCrc img x) i s := by
  unfold secLoad; dsimp only; rw [h]; rfl
theorem secLoad_data (h1 : x.type ≠ 1) (h2 : x.type ≠ 2) : secLoad img (i, x) s =
    memWrite .cal false none x.dest (secBytes img x) (secMarked (secCrc img x) i s) := by
  unfold secLoad
  dsimp only
  split
  · exact absurd ‹_› h1
  · exact absurd ‹_› h2
  · rfl

/-- A section other than CONFIG reaches Millpond or the library, and leaves the boot store. -/
theorem secLoad_changes (h2 : x.type ≠ 2) : Upd (partSet [.mem, .libMicro, .libNano, .msgs])
    (regSet (.HALLMARK_STAT :: .HALLMARK_VER :: .HALLMARK_BUILD :: .BOOT_SECERR :: refuseRegs)) atNone s (secLoad img (i, x) s) := by
  have hmarked := (secMarked_changes (s := s) (ok := secCrc img x) (i := i)).mono
    (K' := partSet [.mem, .libMicro, .libNano, .msgs])
    (R' := regSet (.HALLMARK_STAT :: .HALLMARK_VER :: .HALLMARK_BUILD :: .BOOT_SECERR :: refuseRegs)) (by decide) (by decide)
  by_cases h1 : x.type = 1
  · rw [secLoad_library h1]
    exact secLibrary_upd hmarked (by decide) (by decide)
  · rw [secLoad_data h1 h2]
    exact memWrite_upd hmarked (by decide) (by decide)

/-- Millrace's decision on an access of the boot loader, from the bank's owner and state (R329, R331). -/
def calVerdict (own state : Word) (y : Nat) : Verdict :=
  if mpSize ≤ y then .refuse 2
  else
    let off := bitOf state 8 || decide (fld state 4 2 ≠ 0)
    if bitOf own 16 then (if decide (fld own 8 6 = 48) then (if off then .refuse 1 else .wait) else .refuse 0)
    else if !decide (fld own 0 6 = 48) then .refuse 0
    else if off then .refuse 1 else .granted

theorem judge_cal {rr : Bool} {y : Nat} :
    judge s .cal rr y = calVerdict (s.reg .BANK_OWN (bankOf y)) (s.reg .BANK_STATE (bankOf y)) y := rfl

theorem judge_cal_congr {rr : Bool} {y : Nat} (hown : ∀ i, b.reg .BANK_OWN i = a.reg .BANK_OWN i)
    (hstate : ∀ i, b.reg .BANK_STATE i = a.reg .BANK_STATE i) : judge b .cal rr y = judge a .cal rr y := by
  rw [judge_cal, judge_cal, hown, hstate]

theorem State.reg_setBytes {y : Nat} {r : Reg} {j : Nat} : (s.setBytes y bytes).reg r j = s.reg r j :=
  (State.setBytes_upd (K := 2) (R := 0) (C := atNone) Upd.refl (by decide)).reg r j (Nat.zero_testBit _)

/-- A section for Millpond that no bank boundary cuts, at a bank that grants it, is stored at DEST. -/
theorem secLoad_stored (h1 : x.type ≠ 1) (h2 : x.type ≠ 2) (hgrant : judge s .cal false x.dest = .granted)
    (hone : partsOf x.dest (secBytes img x).length = [(x.dest, (secBytes img x).length)]) :
    secLoad img (i, x) s = (secMarked (secCrc img x) i s).setBytes x.dest (secBytes img x) := by
  have hjudge : judge (secMarked (secCrc img x) i s) .cal false x.dest = .granted :=
    (judge_cal_congr (fun _ => secMarked_changes.reg _ _ (by decide)) fun _ => secMarked_changes.reg _ _ (by decide)).trans hgrant
  rw [secLoad_data h1 h2]
  refine memWrite_granted hone ?_
  rw [memAdmits, hone, List.all_cons, hjudge]; rfl

theorem libVerify_lt : libVerify bytes < 8 := by
  unfold libVerify
  dsimp only
  repeat' split
  all_goals decide

/-- A LIBRARY section that R220 rejects installs nothing; HALLMARK_STAT shows the outcome (R226, R493). -/
theorem secLibrary_rejected (h : libVerify bytes ≠ 1) : secLibrary i bytes s = secFail i
    ((s.setRf .HALLMARK_STAT 0 4 3 (libVerify bytes)).setRf .HALLMARK_STAT 0 0 3 (libVerify bytes)) := by
  unfold secLibrary
  exact if_neg h

theorem secLoad_rejected (h1 : x.type = 1) (h : libVerify (secBytes img x) ≠ 1) (hi : i < 32) :
    (secLoad img (i, x) s).mem = s.mem ∧ (secLoad img (i, x) s).rb .BOOT_SECERR 0 i = true ∧
      (secLoad img (i, x) s).rf .HALLMARK_STAT 0 0 3 = libVerify (secBytes img x) ∧
      (secLoad img (i, x) s).rf .HALLMARK_STAT 0 4 3 = libVerify (secBytes img x) := by
  have hlt := Nat.mod_eq_of_lt (libVerify_lt (bytes := secBytes img x))
  rw [secLoad_library h1, secLibrary_rejected h]
  refine ⟨secMarked_changes.parts .mem (by decide), State.rb_setRb_same _ _ _ _ _ hi, ?_, ?_⟩
  · rw [State.rf, secFail, State.reg_setRb, if_neg (by simp), ← State.rf, State.rf_setRf_same _ _ _ _ _ _ (by decide)]
    exact hlt
  · rw [State.rf, secFail, State.reg_setRb, if_neg (by simp), ← State.rf,
      State.rf_setRf_apart _ _ _ _ _ _ _ _ _ (by decide) (by decide), State.rf_setRf_same _ _ _ _ _ _ (by decide)]
    exact hlt

end Sys2Proof.Machine
end

section
/-! ### BOOT_START (R485, R489 to R493) -/

namespace Sys2Proof.Machine

variable {s : State} {img : List Byte} {slots : List (List Byte)} {t : Nat}

/-- The loader has started. -/
def bootBegun (s : State) : State := modBoot (fun v => { v with started := true }) s

theorem bootBegun_upd {K R : Nat} {C : Nat → Nat → Prop} {s0 : State} (h : Upd K R C s0 s) (hk : partSet [.boot] ||| K = K) :
    Upd K R C s0 (bootBegun s) := modBoot_upd h (sub_of (by decide) hk)

theorem BootReady.begun (h : BootReady s) : (bootBegun s).boot = { started := true } := by
  obtain ⟨-, -, -, hempty⟩ := h
  rw [bootBegun, modBoot, hempty]

theorem BootReady.mayStart (h : BootReady s) : bootMayStart s = true := by
  obtain ⟨hstate, hup, hnot, -⟩ := h
  unfold bootMayStart
  rw [hstate, hup, hnot]; rfl

theorem execBootStart_bad (hready : BootReady (s.at t)) (herr : imgErr img ≠ 0) :
    exec (.bootStart t img slots) s = .next (bootBad (imgErr img) slots (bootBegun (s.at t))) :=
  congrArg Host.Outcome.next ((if_pos hready.mayStart).trans (if_neg herr))

theorem execBootStart_good (hready : BootReady (s.at t)) (herr : imgErr img = 0) :
    exec (.bootStart t img slots) s = .next (bootGood img slots (bootBegun (s.at t))) :=
  congrArg Host.Outcome.next ((if_pos hready.mayStart).trans (if_pos herr))

/-- A failure of the header or table (R493). -/
theorem bootStart_bad_holds (hready : BootReady (s.at t)) (herr : imgErr img ≠ 0) :
    ∃ s', exec (.bootStart t img slots) s = .next s' ∧ s'.reg .BOOT_STAT 0 = BitVec.ofNat 32 (imgErr img) ∧
      s'.rf .DOM_MGMT 0 0 3 = 0 ∧ (∀ n : Cluster, s'.rf .DOM_CLU n.val 0 3 = 0) ∧ s'.boot = { started := true } ∧
      LifeRead slots s s' ∧ Frame [.clasp, .boot, .life, .lifeHdr, .lifeSlot] bootRegs atNone s s' := by
  refine ⟨_, execBootStart_bad hready herr, ?_, ?_, fun n => ?_, ?_, ?_, ?_⟩
  · rw [bootBad, lifeRead_reg (by decide), bootOwners_reg (by decide), State.reg_setReg_same]
  · rw [bootBad, State.rf, lifeRead_reg (by decide)]
    exact bootOwners_mgmt (by decide)
  · rw [bootBad, State.rf, lifeRead_reg (by decide)]
    exact bootOwners_clu (by decide) n.isLt
  · rw [bootBad, show (lifeRead slots _).boot = _ from lifeRead_changes.parts .boot (by decide),
      show (bootOwners 0 0 _).boot = _ from bootOwners_changes.parts .boot (Nat.zero_testBit _)]
    exact hready.begun
  · have hupd : Upd (partSet [.clasp, .boot]) (regSet [.BOOT_STAT, .DOM_MGMT, .DOM_CLU]) atNone s
        (bootOwners 0 0 ((bootBegun (s.at t)).setReg .BOOT_STAT 0 (BitVec.ofNat 32 (imgErr img)))) :=
      bootOwners_upd (State.setReg_upd (bootBegun_upd (State.at_upd Upd.refl (by decide)) (by decide)) (by decide)
        (RegOk.glob rfl)) (by decide)
    exact lifeRead_reads.told_from hupd (by decide) (by decide)
  · have hupd : Upd (partSet [.clasp, .boot, .life, .lifeHdr, .lifeSlot]) (regSet bootRegs) atNone s
        (bootBad (imgErr img) slots (bootBegun (s.at t))) :=
      bootBad_upd (bootBegun_upd (State.at_upd Upd.refl (by decide)) (by decide)) (by decide) (by decide)
    exact hupd.listed (Nat.or_self _) (Nat.or_self _)

/-! An image of one section. -/

/-- The boot store with what the header says of autorun and of the subsystem IDs. -/
def bootNotes (img : List Byte) (v : Boot) : Boot :=
  { v with auto := if imgAuto img then some (imgAutoWords img) else none, ssvid := imgField img 12 2, ssid := imgField img 14 2 }

/-- What the loader notes of a good header: BOOT_STAT, BOOT_IMG_LEN, the subsystem IDs, autorun's addresses. -/
def bootNoted (img : List Byte) (s : State) : State :=
  ((modBoot (bootNotes img) s).setReg .BOOT_STAT 0
    (BitVec.ofNat 32 (16 + 32 * b2n (imgAuto img) + 64 * b2n (imgFlag img 1)))).setReg .BOOT_IMG_LEN 0
      (BitVec.ofNat 32 (imgLen img))

/-- The one section is loaded. -/
def bootLoaded (img : List Byte) (s : State) : State := secLoad img (0, bootSec img 0) (bootNoted img s)

/-- Ownership is given. -/
def bootOwned (img : List Byte) (s : State) : State :=
  bootOwners (imgOwner img) (if imgAuto img then 4 else imgOwner img) (bootLoaded img s)

theorem bootGood_one (h : imgNsec img = 1) : bootGood img slots s = lifeRead slots (configApply (bootOwned img s)) := by
  unfold bootGood
  rw [imgSecs_one h]; rfl

theorem bootNoted_upd {K R : Nat} {C : Nat → Nat → Prop} {s0 : State} (h : Upd K R C s0 s) (hk : partSet [.boot] ||| K = K)
    (hr : regSet [.BOOT_STAT, .BOOT_IMG_LEN] ||| R = R) : Upd K R C s0 (bootNoted img s) :=
  State.setReg_upd (State.setReg_upd (modBoot_upd h (sub_of (by decide) hk)) (testBit_of_sub hr (by decide)) (RegOk.glob rfl))
    (testBit_of_sub hr (by decide)) (RegOk.glob rfl)

theorem bootNoted_changes : Upd (partSet [.boot]) (regSet [.BOOT_STAT, .BOOT_IMG_LEN]) atNone s (bootNoted img s) :=
  bootNoted_upd Upd.refl (by decide) (by decide)

theorem bootBegun_noted_reg {r : Reg} {i : Nat} (h : r ∉ [.BOOT_STAT, .BOOT_IMG_LEN]) :
    (bootNoted img (bootBegun (s.at t))).reg r i = s.reg r i :=
  (bootNoted_changes.reg r i (testBit_regSet h)).trans (State.reg_at ..)

theorem bootNoted_mem : (bootNoted img (bootBegun (s.at t))).mem = s.mem := by
  have hupd : Upd (partSet [.clasp, .boot]) (regSet [.BOOT_STAT, .BOOT_IMG_LEN]) atNone s (bootNoted img (bootBegun (s.at t))) :=
    bootNoted_upd (bootBegun_upd (State.at_upd Upd.refl (by decide)) (by decide)) (by decide) (by decide)
  exact hupd.parts .mem (by decide)

theorem bootNoted_boot : (bootNoted img s).boot = bootNotes img s.boot := rfl

theorem bootNoted_len : (bootNoted img s).reg .BOOT_IMG_LEN 0 = BitVec.ofNat 32 (imgLen img) := State.reg_setReg_same ..

theorem bootNoted_stat : (bootNoted img s).reg .BOOT_STAT 0 =
    BitVec.ofNat 32 (16 + 32 * b2n (imgAuto img) + 64 * b2n (imgFlag img 1)) := by
  rw [bootNoted, State.reg_setReg, if_neg (by decide), State.reg_setReg_same]

/-- BOOT_STAT of an accepted image: OK, AUTORUN, REAPPLY, no error. -/
theorem bootStat_word (auto re : Bool) :
    bitOf (BitVec.ofNat 32 (16 + 32 * b2n auto + 64 * b2n re)) 4 = true ∧
      fld (BitVec.ofNat 32 (16 + 32 * b2n auto + 64 * b2n re)) 0 4 = 0 ∧
      bitOf (BitVec.ofNat 32 (16 + 32 * b2n auto + 64 * b2n re)) 5 = auto ∧
      bitOf (BitVec.ofNat 32 (16 + 32 * b2n auto + 64 * b2n re)) 6 = re := by
  cases auto <;> cases re <;> decide

theorem bootOwned_changes : Upd 0 (regSet [.DOM_MGMT, .DOM_CLU]) atNone (bootLoaded img s) (bootOwned img s) :=
  bootOwners_changes

/-- With no CONFIG entry in the boot store only the count is written. -/
theorem configApply_empty (h : s.boot.config = []) : configApply s = s.setReg .BOOT_CFG_CNT 0 0#32 := by
  unfold configApply; rw [h]; rfl

/-- The end of a boot that has no CONFIG entry to apply. -/
def bootSettled (img : List Byte) (slots : List (List Byte)) (s : State) : State :=
  lifeRead slots ((bootOwned img s).setReg .BOOT_CFG_CNT 0 0#32)

theorem bootGood_settled (hone : imgNsec img = 1) (hempty : (bootLoaded img s).boot.config = []) :
    bootGood img slots s = bootSettled img slots s := by
  rw [bootGood_one hone, configApply_empty ((congrArg Boot.config (bootOwned_changes.parts .boot (Nat.zero_testBit _))).trans
    hempty), bootSettled]

/-- What follows the loading of the section. -/
theorem bootSettled_changes : Upd (partSet [.life, .lifeHdr, .lifeSlot])
    (regSet [.LR_SEQ, .LR_STAT, .LR_EVT, .BOOT_CFG_CNT, .DOM_MGMT, .DOM_CLU]) atNone (bootLoaded img s)
    (bootSettled img slots s) :=
  lifeRead_upd (State.setReg_upd (bootOwned_changes.mono (by decide) (by decide)) (by decide) (RegOk.glob rfl)) (by decide)
    (by decide)

theorem bootSettled_reg {r : Reg} {i : Nat} (h : r ∉ [.LR_SEQ, .LR_STAT, .LR_EVT, .BOOT_CFG_CNT, .DOM_MGMT, .DOM_CLU]) :
    (bootSettled img slots s).reg r i = (bootLoaded img s).reg r i := bootSettled_changes.reg r i (testBit_regSet h)

theorem bootSettled_count : (bootSettled img slots s).reg .BOOT_CFG_CNT 0 = 0#32 := by
  rw [bootSettled, lifeRead_reg (by decide), State.reg_setReg_same]

theorem bootSettled_mgmt : (bootSettled img slots s).rf .DOM_MGMT 0 0 3 = imgOwner img := by
  rw [bootSettled, State.rf, lifeRead_reg (by decide), State.reg_setReg, if_neg (by decide)]
  exact bootOwners_mgmt imgOwner_lt

theorem bootSettled_clu (n : Cluster) :
    (bootSettled img slots s).rf .DOM_CLU n.val 0 3 = if imgAuto img then 4 else imgOwner img := by
  have hlt : (if imgAuto img then 4 else imgOwner img) < 8 := by split; decide; exact imgOwner_lt
  rw [bootSettled, State.rf, lifeRead_reg (by decide), State.reg_setReg, if_neg (by simp)]
  exact bootOwners_clu hlt n.isLt

/-- Up to ownership, what an image without a CONFIG section changes. -/
theorem bootLoaded_changes (htype : (bootSec img 0).type ≠ 2) : Upd (partSet [.clasp, .boot, .mem, .libMicro, .libNano, .msgs])
    (regSet (.BOOT_STAT :: .BOOT_IMG_LEN :: .HALLMARK_STAT :: .HALLMARK_VER :: .HALLMARK_BUILD :: .BOOT_SECERR :: refuseRegs))
    atNone s (bootLoaded img (bootBegun (s.at t))) :=
  (bootNoted_upd (bootBegun_upd (State.at_upd Upd.refl (by decide)) (by decide)) (by decide) (by decide)).trans
    ((secLoad_changes htype).mono (by decide) (by decide))

/-- The boot store after a good header of an image without a CONFIG section. -/
def bootHeld (img : List Byte) : Boot where
  started := true
  auto := if imgAuto img then some (imgAutoWords img) else none
  ssvid := imgField img 12 2
  ssid := imgField img 14 2

/-- The header is shown: BOOT_STAT, BOOT_IMG_LEN and the boot store (R489, R492). -/
theorem bootSettled_header (hready : BootReady (s.at t)) (htype : (bootSec img 0).type ≠ 2) :
    (bootLoaded img (bootBegun (s.at t))).boot = bootHeld img ∧
      (bootSettled img slots (bootBegun (s.at t))).reg .BOOT_STAT 0 =
        BitVec.ofNat 32 (16 + 32 * b2n (imgAuto img) + 64 * b2n (imgFlag img 1)) ∧
      (bootSettled img slots (bootBegun (s.at t))).reg .BOOT_IMG_LEN 0 = BitVec.ofNat 32 (imgLen img) ∧
      (bootSettled img slots (bootBegun (s.at t))).boot = bootHeld img := by
  have hloaded := secLoad_changes (img := img) (i := 0) (s := bootNoted img (bootBegun (s.at t))) htype
  have hboot : (bootLoaded img (bootBegun (s.at t))).boot = bootHeld img := by
    refine (hloaded.parts .boot (by decide)).trans ?_
    rw [bootNoted_boot, hready.begun]; rfl
  refine ⟨hboot, ?_, ?_, (bootSettled_changes.parts .boot (by decide)).trans hboot⟩
  · exact (bootSettled_reg (by decide)).trans ((hloaded.reg _ _ (by decide)).trans bootNoted_stat)
  · exact (bootSettled_reg (by decide)).trans ((hloaded.reg _ _ (by decide)).trans bootNoted_len)

theorem bootSettled_life (htype : (bootSec img 0).type ≠ 2) : LifeRead slots s (bootSettled img slots (bootBegun (s.at t))) := by
  have hupd := (bootLoaded_changes (s := s) (t := t) htype).mono
    (K' := partSet [.clasp, .boot, .mem, .libMicro, .libNano, .msgs])
    (R' := regSet (.DOM_MGMT :: .DOM_CLU :: .BOOT_CFG_CNT :: .BOOT_STAT :: .BOOT_IMG_LEN :: .HALLMARK_STAT :: .HALLMARK_VER ::
      .HALLMARK_BUILD :: .BOOT_SECERR :: refuseRegs)) (by decide) (by decide)
  exact lifeRead_reads.told_from
    (State.setReg_upd (hupd.trans (bootOwned_changes.mono (by decide) (by decide))) (by decide) (RegOk.glob rfl)) (by decide)
    (by decide)

/-- A section for Millpond is stored at DEST, and its SCRC is judged (R490, R493). -/
theorem bootSettled_stored {x : BootSec} (hx : bootSec img 0 = x) (hdata : 3 ≤ x.type)
    (hgrant : judge (s.at t) .cal false x.dest = .granted)
    (hone : partsOf x.dest (secBytes img x).length = [(x.dest, (secBytes img x).length)]) :
    Written x.dest (secBytes img x) s (bootSettled img slots (bootBegun (s.at t))) ∧
      (bootSettled img slots (bootBegun (s.at t))).rb .BOOT_SECERR 0 0 = (s.rb .BOOT_SECERR 0 0 || !secCrc img x) ∧
      (bootSettled img slots (bootBegun (s.at t))).rf .HALLMARK_STAT 0 0 32 = s.rf .HALLMARK_STAT 0 0 32 := by
  subst hx
  have hmarked := secMarked_changes (ok := secCrc img (bootSec img 0)) (i := 0) (s := bootNoted img (bootBegun (s.at t)))
  have hloaded : bootLoaded img (bootBegun (s.at t)) = (secMarked (secCrc img (bootSec img 0)) 0
      (bootNoted img (bootBegun (s.at t)))).setBytes (bootSec img 0).dest (secBytes img (bootSec img 0)) := by
    refine secLoad_stored (by omega) (by omega) ((judge_cal_congr (fun i => ?_) fun i => ?_).trans hgrant) hone
    · rw [bootBegun_noted_reg (by decide), State.reg_at]
    · rw [bootBegun_noted_reg (by decide), State.reg_at]
  have hreg : ∀ r i, r ∉ [Reg.LR_SEQ, .LR_STAT, .LR_EVT, .BOOT_CFG_CNT, .DOM_MGMT, .DOM_CLU] →
      (bootSettled img slots (bootBegun (s.at t))).reg r i =
        (secMarked (secCrc img (bootSec img 0)) 0 (bootNoted img (bootBegun (s.at t)))).reg r i := fun r i h => by
    rw [bootSettled_reg h, hloaded, State.reg_setBytes]
  refine ⟨fun y => ?_, ?_, ?_⟩
  · have hmem : (bootSettled img slots (bootBegun (s.at t))).mem = (bootLoaded img (bootBegun (s.at t))).mem :=
      bootSettled_changes.parts .mem (by decide)
    have hbefore : (secMarked (secCrc img (bootSec img 0)) 0 (bootNoted img (bootBegun (s.at t)))).mem = s.mem :=
      (hmarked.parts .mem (Nat.zero_testBit _)).trans bootNoted_mem
    rw [State.byte, hmem, hloaded, ← State.byte, State.byte_setBytes, State.byte, hbefore]; rfl
  · rw [State.rb, hreg _ _ (by decide), ← State.rb, secMarked_flag (by decide), State.rb, bootBegun_noted_reg (by decide)]; rfl
  · rw [State.rf, hreg _ _ (by decide), hmarked.reg _ _ (by decide), bootBegun_noted_reg (by decide)]; rfl

/-- A LIBRARY section that R220 rejects (R493). -/
theorem bootSettled_rejected {x : BootSec} (hx : bootSec img 0 = x) (hlib : x.type = 1) (hrej : libVerify (secBytes img x) ≠ 1) :
    (bootSettled img slots (bootBegun (s.at t))).mem = s.mem ∧
      (bootSettled img slots (bootBegun (s.at t))).rb .BOOT_SECERR 0 0 = true ∧
      (bootSettled img slots (bootBegun (s.at t))).rf .HALLMARK_STAT 0 0 3 = libVerify (secBytes img x) ∧
      (bootSettled img slots (bootBegun (s.at t))).rf .HALLMARK_STAT 0 4 3 = libVerify (secBytes img x) := by
  subst hx
  obtain ⟨hmem, herr, hsig, hlast⟩ := secLoad_rejected (s := bootNoted img (bootBegun (s.at t))) (i := 0) hlib hrej (by decide)
  refine ⟨?_, ?_, ?_, ?_⟩
  · exact (bootSettled_changes.parts .mem (by decide)).trans (hmem.trans bootNoted_mem)
  · exact (congrArg (bitOf · 0) (bootSettled_reg (by decide))).trans herr
  · exact (congrArg (fld · 0 3) (bootSettled_reg (by decide))).trans hsig
  · exact (congrArg (fld · 4 3) (bootSettled_reg (by decide))).trans hlast

/-- A good image whose one section is no CONFIG section (R490 to R493). -/
theorem bootStart_section_holds {x : BootSec} {bytes : List Byte} (hx : bootSec img 0 = x) (hbytes : secBytes img x = bytes)
    (hready : BootReady (s.at t)) (herr : imgErr img = 0) (hone : imgNsec img = 1) (htype : x.type ≠ 2)
    (hgrant : 3 ≤ x.type → judge (s.at t) .cal false x.dest = .granted ∧ partsOf x.dest bytes.length = [(x.dest, bytes.length)]) :
    ∃ s', exec (.bootStart t img slots) s = .next s' ∧ s'.rb .BOOT_STAT 0 4 = true ∧ s'.rf .BOOT_STAT 0 0 4 = 0 ∧
      s'.rb .BOOT_STAT 0 5 = imgAuto img ∧ s'.rb .BOOT_STAT 0 6 = imgFlag img 1 ∧ s'.reg .BOOT_IMG_LEN 0 = BitVec.ofNat 32 (imgLen img) ∧
      s'.rf .DOM_MGMT 0 0 3 = imgOwner img ∧ (∀ n : Cluster, s'.rf .DOM_CLU n.val 0 3 = if imgAuto img then 4 else imgOwner img) ∧
      s'.boot.ssvid = imgField img 12 2 ∧ s'.boot.ssid = imgField img 14 2 ∧ s'.boot.started = true ∧ LifeRead slots s s' ∧
      (3 ≤ x.type → Written x.dest bytes s s' ∧ s'.rb .BOOT_SECERR 0 0 = (s.rb .BOOT_SECERR 0 0 || !secCrc img x) ∧
        s'.rf .HALLMARK_STAT 0 0 32 = s.rf .HALLMARK_STAT 0 0 32) ∧
      (x.type = 1 → libVerify bytes ≠ 1 → s'.mem = s.mem ∧ s'.rb .BOOT_SECERR 0 0 = true ∧ s'.rf .HALLMARK_STAT 0 0 3 = libVerify bytes ∧
        s'.rf .HALLMARK_STAT 0 4 3 = libVerify bytes) := by
  subst hbytes
  obtain ⟨hheld, hstat, hlen, hboot⟩ := bootSettled_header (slots := slots) hready (hx ▸ htype)
  obtain ⟨hok, hnoerr, hauto, hre⟩ := bootStat_word (imgAuto img) (imgFlag img 1)
  have hexec := execBootStart_good (slots := slots) hready herr
  rw [bootGood_settled hone (congrArg Boot.config hheld)] at hexec
  refine ⟨_, hexec, ?_, ?_, ?_, ?_, hlen, bootSettled_mgmt, bootSettled_clu, ?_, ?_, ?_, bootSettled_life (hx ▸ htype),
    fun hdata => bootSettled_stored hx hdata (hgrant hdata).1 (hgrant hdata).2, bootSettled_rejected hx⟩
  · rw [State.rb, hstat, hok]
  · rw [State.rf, hstat, hnoerr]
  · rw [State.rb, hstat, hauto]
  · rw [State.rb, hstat, hre]
  · rw [hboot]; rfl
  · rw [hboot]; rfl
  · rw [hboot]; rfl

end Sys2Proof.Machine
end

section
/-! ### BOOT_START with a CONFIG section (R491 to R493) -/

namespace Sys2Proof.Machine

variable {s : State} {img : List Byte} {slots : List (List Byte)} {t : Nat} {es : List (Nat × Word)}

/-- The CONFIG section goes to the boot store if its SCRC agrees, and is marked if not. -/
theorem bootLoaded_config (hready : BootReady (s.at t)) (htype : (bootSec img 0).type = 2) :
    (bootLoaded img (bootBegun (s.at t))).boot.config =
        (if secCrc img (bootSec img 0) then configOf (secBytes img (bootSec img 0)) else []) ∧
      (secCrc img (bootSec img 0) = false → (bootLoaded img (bootBegun (s.at t))).rb .BOOT_SECERR 0 0 = true) := by
  have hempty : (bootNoted img (bootBegun (s.at t))).boot.config = [] := congrArg Boot.config hready.begun
  rw [bootLoaded, secLoad_config htype]
  cases hcrc : secCrc img (bootSec img 0)
  · exact ⟨hempty, fun _ => by rw [if_neg (by decide), secMarked_flag (by decide), Bool.not_false, Bool.or_true]⟩
  · exact ⟨rfl, nofun⟩

/-- The state in which the CONFIG entries are applied, and that which boot leaves. -/
def bootConfigured (img : List Byte) (slots : List (List Byte)) (s : State) : State :=
  lifeRead slots (configApply (bootOwned img s))

theorem bootConfigured_reg {r : Reg} {i : Nat} (h : r ∉ [.LR_SEQ, .LR_STAT, .LR_EVT]) :
    (bootConfigured img slots s).reg r i = (configApply (bootOwned img s)).reg r i := lifeRead_reg h

theorem bootOwned_boot : (bootOwned img s).boot = (bootLoaded img s).boot := bootOwned_changes.parts .boot (Nat.zero_testBit _)

/-- A CONFIG section whose SCRC does not agree (R493). -/
theorem bootConfigured_bad (hempty : (bootLoaded img s).boot.config = []) :
    bootConfigured img slots s = bootSettled img slots s := by
  rw [bootConfigured, configApply_empty ((congrArg Boot.config bootOwned_boot).trans hempty), bootSettled]

/-- Entries that R491 shuts out leave ownership as the image gives it. -/
theorem bootConfigured_refused (hes : (bootLoaded img s).boot.config = es) (hlen : es.length ≤ 4096)
    (h : ∀ e ∈ es, e.1 % 4 ≠ 0 ∨ 0x2800000 ≤ e.1 ∨ (0x1800 ≤ e.1 ∧ e.1 < 0x1C08)) :
    (bootConfigured img slots s).rf .BOOT_CFG_CNT 0 0 16 = 0 ∧
      (bootConfigured img slots s).rf .DOM_MGMT 0 0 3 = imgOwner img := by
  have hheld : (bootOwned img s).boot.config = es := (congrArg Boot.config bootOwned_boot).trans hes
  have hrun : configRun es 0 0 (bootOwned img s) = (bootOwned img s, (0, 0 + es.length)) :=
    configRun_refused fun e he => configRefused_of_address (h e he)
  refine ⟨?_, ?_⟩
  · rw [State.rf, bootConfigured_reg (by decide), ← State.rf, (configApply_counts (hheld ▸ hlen)).1, hheld, hrun]
  · rw [State.rf, bootConfigured_reg (by decide), configApply, hheld, hrun, State.reg_setReg, if_neg (by decide)]
    exact bootOwners_mgmt imgOwner_lt

theorem plainWord_capLead {w : Word} : plainWord s .CAP_LEAD 0 w 0xFFFFFFFF#32 = w := by
  apply BitVec.eq_of_toNat_eq
  rw [← fld_word, ← fld_word]
  exact fld_plainWord _ _ _ _ 0 32 (by decide) (by decide) (by decide)

/-- One entry, for CAP_LEAD, is applied. -/
theorem bootConfigured_capLead {e : Nat × Word} (hes : (bootLoaded img s).boot.config = [e]) (he : e.1 = Reg.addr .CAP_LEAD 0) :
    (bootConfigured img slots s).reg .CAP_LEAD 0 = e.2 ∧ (bootConfigured img slots s).rf .BOOT_CFG_CNT 0 0 16 = 1 := by
  have hheld : (bootOwned img s).boot.config = [e] := (congrArg Boot.config bootOwned_boot).trans hes
  have hentry : configEntry e (bootOwned img s) = (plainWrite .CAP_LEAD 0 e.2 0xFFFFFFFF#32 (bootOwned img s), true) := by
    obtain ⟨a, w⟩ := e
    cases he
    exact configEntry_capLead
  have hrun : configRun [e] 0 0 (bootOwned img s) = (plainWrite .CAP_LEAD 0 e.2 0xFFFFFFFF#32 (bootOwned img s), (1, 0)) := by
    unfold configRun
    rw [hentry]; rfl
  refine ⟨?_, ?_⟩
  · rw [bootConfigured_reg (by decide), configApply, hheld, hrun, State.reg_setReg, if_neg (by decide), plainWrite_reg,
      if_pos ⟨rfl, rfl⟩]
    exact plainWord_capLead
  · rw [State.rf, bootConfigured_reg (by decide), ← State.rf, (configApply_counts (hheld ▸ Nat.le_add_left 1 4095)).1, hheld, hrun]

/-- A good image whose one section is a CONFIG section (R490 to R493). -/
theorem bootStart_config_holds {x : BootSec} (hx : bootSec img 0 = x) (hes : configOf (secBytes img x) = es)
    (hready : BootReady (s.at t)) (herr : imgErr img = 0) (hone : imgNsec img = 1) (htype : x.type = 2) :
    ∃ s', exec (.bootStart t img slots) s = .next s' ∧ s'.boot.config = (if secCrc img x then es else []) ∧
      (secCrc img x = false → s'.rb .BOOT_SECERR 0 0 = true ∧ s'.reg .BOOT_CFG_CNT 0 = 0#32 ∧ s'.rf .DOM_MGMT 0 0 3 = imgOwner img) ∧
      (secCrc img x = true → s'.rf .BOOT_CFG_CNT 0 0 16 + s'.rf .BOOT_CFG_CNT 0 16 16 = es.length) ∧
      (secCrc img x = true → (es.all fun e => decide (e.1 % 4 ≠ 0 ∨ 0x2800000 ≤ e.1 ∨ (0x1800 ≤ e.1 ∧ e.1 < 0x1C08))) = true →
        s'.rf .BOOT_CFG_CNT 0 0 16 = 0 ∧ s'.rf .DOM_MGMT 0 0 3 = imgOwner img) ∧
      (secCrc img x = true → capState s = 0 → ∀ e ∈ es, es = [e] → e.1 = Reg.addr .CAP_LEAD 0 →
        s'.reg .CAP_LEAD 0 = e.2 ∧ s'.rf .BOOT_CFG_CNT 0 0 16 = 1) := by
  have hexec := execBootStart_good (slots := slots) hready herr
  rw [bootGood_one hone, ← bootConfigured] at hexec
  obtain ⟨hconfig, hmark⟩ := bootLoaded_config hready (hx ▸ htype)
  rw [hx, hes] at hconfig
  rw [hx] at hmark
  have hlen : es.length ≤ 4096 := by
    have hsec := configSec_len herr hone (hx ▸ htype)
    rw [← hes, configOf_length, secBytes, imgBytes_length, ← hx]
    omega
  refine ⟨_, hexec, ?_, fun hbad => ?_, fun hok => ?_, fun hok hall => ?_, fun hok _ e _ hone he => ?_⟩
  · rw [← hconfig, ← bootOwned_boot]
    exact congrArg Boot.config ((lifeRead_changes.parts .boot (by decide)).trans configApply_boot)
  · rw [hbad, if_neg (by decide)] at hconfig
    rw [bootConfigured_bad hconfig]
    exact ⟨(congrArg (bitOf · 0) (bootSettled_reg (by decide))).trans (hmark hbad), bootSettled_count, bootSettled_mgmt⟩
  · rw [hok, if_pos rfl] at hconfig
    have hheld : (bootOwned img (bootBegun (s.at t))).boot.config = es := (congrArg Boot.config bootOwned_boot).trans hconfig
    obtain ⟨happlied, hdropped⟩ := configApply_counts (s := bootOwned img (bootBegun (s.at t))) (hheld ▸ hlen)
    rw [State.rf, State.rf, bootConfigured_reg (by decide), ← State.rf, ← State.rf, happlied, hdropped, configRun_counts, hheld,
      Nat.zero_add]
  · rw [hok, if_pos rfl] at hconfig
    exact bootConfigured_refused hconfig hlen fun e he => of_decide_eq_true (List.all_eq_true.1 hall e he)
  · rw [hok, if_pos rfl, hone] at hconfig
    exact bootConfigured_capLead hconfig he

end Sys2Proof.Machine
end

section
/-! ### BOOT_COMPLETE (R323, R454, R492) -/

namespace Sys2Proof.Machine

variable {s : State} {t f m k : Nat} {n : Cluster}

/-- Cap's bases are the image's (R323). -/
def autoBased (f m k : Nat) (s : State) : State :=
  ((s.setRf .CAP_FLOW_BASE 0 0 20 f).setRf .CAP_MAP_BASE 0 0 20 m).setReg .CAP_MAP_CNT 0 (BitVec.ofNat 32 k)

/-- Autorun with an idle Cap: the bases, then GO with REPEAT 1. -/
def autoStarted (f m k : Nat) (s : State) : State :=
  (setCapState 1 (plainWrite .CAP_CTRL 0 0x801#32 0x801#32 (autoBased f m k s))).setRf .CAP_STAT 0 3 8 0

theorem autorun_off (h : s.boot.auto = none) : autorun s = s := by unfold autorun; rw [h]

theorem autorun_idle (h : s.boot.auto = some (f, (m, k))) (hidle : capState s = 0) : autorun s = autoStarted f m k s := by
  have hstate : capState (plainWrite .CAP_CTRL 0 0x801#32 0x801#32 (autoBased f m k s)) = 0 := by
    refine (capState_congr ?_).trans hidle
    rw [plainWrite_reg, if_neg (by decide), autoBased, State.reg_setReg, if_neg (by decide), State.reg_setRf,
      if_neg (by decide), State.reg_setRf, if_neg (by decide)]
  have hgo : ones 0x801#32 0x801#32 0 = true := by decide
  have habort : ¬ ones 0x801#32 0x801#32 1 = true := by decide
  unfold autorun
  rw [h]
  change capCtrlWrite 0x801#32 0x801#32 (autoBased f m k s) = _
  unfold capCtrlWrite
  dsimp only
  rw [if_neg habort, if_pos hgo, capGo, if_pos hstate, autoStarted]

theorem autoStarted_bases : (autoStarted f m k s).rf .CAP_FLOW_BASE 0 0 20 = f % 2 ^ 20 ∧
    (autoStarted f m k s).rf .CAP_MAP_BASE 0 0 20 = m % 2 ^ 20 ∧ (autoStarted f m k s).reg .CAP_MAP_CNT 0 = BitVec.ofNat 32 k ∧
    capState (autoStarted f m k s) = 1 := by
  refine ⟨?_, ?_, ?_, ?_⟩
  · simp [autoStarted, autoBased, setCapState, State.rf, State.reg_setRf, State.reg_setReg, plainWrite_reg]
  · simp [autoStarted, autoBased, setCapState, State.rf, State.reg_setRf, State.reg_setReg, plainWrite_reg]
  · simp [autoStarted, autoBased, setCapState, State.reg_setRf, plainWrite_reg]
  · rw [autoStarted, capState, State.rf_setRf_apart _ _ _ _ _ _ _ _ _ (by decide) (by decide)]
    exact setCapState_state (by decide)

/-- The registers that autorun writes. -/
def autoRegs : List Reg := [.CAP_CTRL, .CAP_STAT, .CAP_FLOW_BASE, .CAP_MAP_BASE, .CAP_MAP_CNT]

theorem autoStarted_changes : Upd 0 (regSet autoRegs) atNone s (autoStarted f m k s) := by
  refine State.setRf_upd (setCapState_upd (plainWrite_upd (State.setReg_upd (State.setRf_upd (State.setRf_upd Upd.refl ?_
    (RegOk.glob rfl)) ?_ (RegOk.glob rfl)) ?_ (RegOk.glob rfl)) ?_ (RegOk.glob rfl)) ?_) ?_ (RegOk.glob rfl)
  all_goals decide

theorem autorun_changes (hidle : capState s = 0) : Upd 0 (regSet autoRegs) atNone s (autorun s) := by
  rcases hauto : s.boot.auto with _ | ⟨f, m, k⟩
  · rw [autorun_off hauto]; exact Upd.refl
  · rw [autorun_idle hauto hidle]; exact autoStarted_changes

/-! Every cluster is due. -/

theorem calBecomeDue_other {j : Cluster} (h : j ≠ n) : calDueNow (calBecomeDue j s) n = calDueNow s n := by
  unfold calBecomeDue
  split
  · rfl
  · refine (State.rb_setRb _ _ _ _ _ _ _ _ (by decide)).trans (if_neg ?_)
    rintro ⟨-, hn, -⟩
    exact h (Fin.ext hn).symm

theorem forClusters_due : calDueNow (forClusters calBecomeDue s) n = true :=
  foldl_observed (obs := fun u => calDueNow u n) (g := fun _ => true) (fun _ _ h => calBecomeDue_other h)
    (fun _ => calBecomeDue_due) (List.nodup_finRange 24) (List.mem_finRange n)

theorem forClusters_due_changes : Upd (partSet [.cal]) (regSet [.CL_CAL_STAT]) atAll s (forClusters calBecomeDue s) :=
  forClusters_upd (fun _ _ h => calBecomeDue_upd h (by decide) (by decide) ⟨0, trivial⟩) Upd.refl

/-- DONE is set and STATE is ACTIVE. -/
def bootShown (s : State) : State := (s.setRb .BOOT_STAT 0 8 true).setRf .PWR_STAT 0 0 3 2

theorem bootDone_reg {r : Reg} {i : Nat} (h : r ≠ .CL_CAL_STAT) : (bootDone s).reg r i = (bootShown (autorun s)).reg r i :=
  forClusters_due_changes.reg r i (testBit_regSet (by simpa using h))

theorem bootDone_done : (bootDone s).rb .BOOT_STAT 0 8 = true := by
  rw [State.rb, bootDone_reg (by decide), bootShown, State.reg_setRf, if_neg (by decide)]
  exact State.rb_setRb_same _ _ _ _ _ (by decide)

theorem bootDone_active : pwrState (bootDone s) = 2 := by
  rw [pwrState, State.rf, bootDone_reg (by decide)]
  exact State.rf_setRf_same _ _ _ _ _ _ (by decide)

theorem bootDone_autorun_reg {r : Reg} {i : Nat} (h : r ∉ [.BOOT_STAT, .PWR_STAT, .CL_CAL_STAT]) :
    (bootDone s).reg r i = (autorun s).reg r i := by
  simp only [List.mem_cons, List.not_mem_nil, or_false, not_or] at h
  obtain ⟨hstat, hpwr, hcal⟩ := h
  rw [bootDone_reg hcal, bootShown, State.reg_setRf, if_neg fun e => hpwr e.1, State.reg_setRb, if_neg fun e => hstat e.1]

theorem bootDone_changes {K R : Nat} {s0 : State} (h : Upd K R atAll s0 (autorun s)) (hk : partSet [.cal] ||| K = K)
    (hr : regSet [.BOOT_STAT, .PWR_STAT, .CL_CAL_STAT] ||| R = R) : Upd K R atAll s0 (bootDone s) := by
  have hshown : Upd K R atAll s0 (bootShown (autorun s)) :=
    State.setRf_upd (State.setRb_upd h (testBit_of_sub hr (by decide)) (RegOk.glob rfl)) (testBit_of_sub hr (by decide))
      (RegOk.glob rfl)
  exact hshown.trans (forClusters_due_changes.mono hk (sub_of (by decide) hr))

theorem slaveUp_at : slaveUp (s.at t) = slaveUp s := by rw [State.at_eq]; rfl

theorem execBootComplete_due (hstarted : s.boot.started = true) (hnot : s.rb .BOOT_STAT 0 8 = false) (hboot : pwrState s = 1)
    (hup : slaveUp s = true) : exec (.bootComplete t) s = .next (bootDone (s.at t)) := by
  refine congrArg Host.Outcome.next (if_pos ?_)
  rw [State.boot_at, State.rb_at, slaveUp_at, pwrState, State.rf_at, ← pwrState, hstarted, hnot, hboot, hup]
  rfl

/-- Boot's completion (R323, R454, R492). -/
theorem bootComplete_holds (hstarted : s.boot.started = true) (hnot : s.rb .BOOT_STAT 0 8 = false) (hboot : pwrState s = 1)
    (hup : slaveUp s = true) (hidle : capState s = 0) :
    ∃ s', exec (.bootComplete t) s = .next s' ∧ s'.rb .BOOT_STAT 0 8 = true ∧ pwrState s' = 2 ∧
      (∀ n : Cluster, calDueNow s' n = true) ∧
      (∀ x ∈ s.boot.auto.toList, s'.rf .CAP_FLOW_BASE 0 0 20 = x.1 % 2 ^ 20 ∧ s'.rf .CAP_MAP_BASE 0 0 20 = x.2.1 % 2 ^ 20 ∧
        s'.reg .CAP_MAP_CNT 0 = BitVec.ofNat 32 x.2.2 ∧ capState s' = 1) ∧
      (s.boot.auto = none → Frame [.clasp, .cal] [.BOOT_STAT, .PWR_STAT, .CL_CAL_STAT] atAll s s') ∧
      Frame [.clasp, .cal] [.PWR_STAT, .BOOT_STAT, .CAP_CTRL, .CAP_STAT, .CAP_FLOW_BASE, .CAP_MAP_BASE, .CAP_MAP_CNT, .CL_CAL_STAT]
        atAll s s' := by
  have hidle' : capState (s.at t) = 0 := capState_at.trans hidle
  refine ⟨_, execBootComplete_due hstarted hnot hboot hup, bootDone_done, bootDone_active, fun _ => forClusters_due, ?_,
    fun hauto => ?_, ?_⟩
  · rintro ⟨f, m, k⟩ hx
    obtain ⟨hflow, hmap, hcnt, hstate⟩ := autoStarted_bases (f := f) (m := m) (k := k) (s := s.at t)
    rw [← autorun_idle (by rw [State.boot_at]; exact Option.mem_toList.1 hx) hidle'] at hflow hmap hcnt hstate
    exact ⟨(congrArg (fld · 0 20) (bootDone_autorun_reg (by decide))).trans hflow,
      (congrArg (fld · 0 20) (bootDone_autorun_reg (by decide))).trans hmap, (bootDone_autorun_reg (by decide)).trans hcnt,
      (capState_congr (bootDone_autorun_reg (by decide))).trans hstate⟩
  · have hupd : Upd (partSet [.clasp, .cal]) (regSet [.BOOT_STAT, .PWR_STAT, .CL_CAL_STAT]) atAll s (bootDone (s.at t)) := by
      refine bootDone_changes ?_ (by decide) (by decide)
      rw [autorun_off (by rw [State.boot_at]; exact hauto)]
      exact State.at_upd Upd.refl (by decide)
    exact hupd.listed (Nat.or_self _) (Nat.or_self _)
  · have hupd : Upd (partSet [.clasp, .cal]) (regSet [.PWR_STAT, .BOOT_STAT, .CAP_CTRL, .CAP_STAT, .CAP_FLOW_BASE, .CAP_MAP_BASE,
        .CAP_MAP_CNT, .CL_CAL_STAT]) atAll s (bootDone (s.at t)) := by
      have hauto : Upd 0 (regSet autoRegs) atAll (s.at t) (autorun (s.at t)) := by
        have h := autorun_changes hidle'
        exact { h with within := h.within.mono fun _ _ x => x.elim }
      exact bootDone_changes ((State.at_upd Upd.refl (by decide)).trans (hauto.mono (by decide) (by decide))) (by decide) (by decide)
    exact hupd.listed (Nat.or_self _) (Nat.or_self _)

/-- Settles O56, clause by clause: a bad image leaves `bootBad`, a good one `bootSettled` or, with a CONFIG section,
`bootConfigured`; completion leaves `bootDone`. -/
theorem bootLoadsTheImage : Obligations.BootLoadsTheImage := by
  unfold Obligations.BootLoadsTheImage
  exact ⟨fun _ _ _ _ hready herr => bootStart_bad_holds hready herr,
    fun _ _ _ _ hready herr hone htype hgrant => bootStart_section_holds rfl rfl hready herr hone htype hgrant,
    fun _ _ _ _ hready herr hone htype => bootStart_config_holds rfl rfl hready herr hone htype,
    fun _ _ hstarted hnot hboot hup hidle => bootComplete_holds hstarted hnot hboot hup hidle⟩

end Sys2Proof.Machine
end
